-- ==== Sys2Proof/Word.lean ====
section
/-! DEFINITION. The word types of the DXL model: bytes, islands, pack time and the two radio ports.
Nothing here depends on a rule that a test could show wrong; bit fields, byte order and checks
stand in `Sys2Proof.Machine.Bytes`. -/

namespace Sys2Proof

/-- One byte of a register, record, frame or buffer (R8). -/
abbrev Byte := BitVec 8

/-- Pack time in nanoseconds (R11): an unsigned 64-bit count that does not wrap within the life of a part. -/
abbrev Time := Nat

/-- Cell island number k, 1 to 7 (R12); island 0 names the hub where an event or record needs it. -/
abbrev Island := Nat

/-- The two radio ports of a part (chapter Anatomy, "Chains, rings and positions"). -/
inductive Side where
  | up
  | down
deriving DecidableEq, Repr, Inhabited

/-- The port at the other edge of the package (R27: a forwarded frame leaves by the other port). -/
def Side.other : Side → Side
  | .up => .down
  | .down => .up

end Sys2Proof
end

