-- ==== Sys2Proof/Syntax.lean ====
section
/-! DEFINITION. The commands: one constructor of `Instr` per row of the opcode table, with the row's
operands. Every command carries first `t`, the part's pack time in nanoseconds at which the happening
takes place (R11). A voltage, current or resistance that reaches a pad is an exact rational in volts,
amperes or ohms; a temperature is in 0.01 °C; a byte list is what crosses a wire, a bus or a frame. -/

namespace Sys2Proof

/-- A descriptor of R329 as an executor sees it: where it came from, its fields, and PARAM as the
bytes 24 to 63. The buffer is the list of ranges of R330 once the gateway has read it. `gen` is the number of its fetch at
the gateway, which tells it from an earlier command of the same SQ and CID (R321, R334). -/
structure Cmd where
  sq : Nat
  opcode : Nat
  flags : Nat
  cid : Nat
  dest : Nat
  target : Nat
  timeout : Nat
  bufAddr : Nat
  bufLen : Nat
  param : List Byte
  gen : Nat := 0
deriving DecidableEq, Repr, Inhabited

/-- An access to host memory that has failed: the CID of its command, and its address. -/
structure HostAccess where
  cid : Nat
  addr : Nat
deriving DecidableEq, Repr, Inhabited

/-- What a refresh of a block finds (R298, R303): the most bits that a read of it corrected in one codeword, and whether its erase
succeeds. -/
structure BlockRead where
  corrected : Nat
  erased : Bool
deriving DecidableEq, Repr, Inhabited

/-- Overload of a modulator within a filter impulse, by the side of the excursion (R37). -/
inductive Overload where
  | none
  | low
  | high
deriving DecidableEq, Repr, Inhabited

/-- The zener conversion of a pair of R113: its reading in volts, and how long the whole pair takes in ns. -/
structure ZenerRead where
  volts : Rat
  len : Nat
deriving DecidableEq, Repr, Inhabited

/-- What APC_ADJUST finds (R252): the margins of this receiver and of the peer's in 0.25 dB, and whether the peer sends at
its maximum. -/
structure Margins where
  own : Int
  peer : Int
  peerMax : Bool
deriving DecidableEq, Repr, Inhabited

/-- What a die finds when its precision domain comes up: the code of its tests (R404, R466), and which of the two copies of
its factory record fail their check, the fuses in bit 0 and the MRAM in bit 1 (R122). -/
structure DieTests where
  bist : Nat
  copies : Nat
deriving DecidableEq, Repr, Inhabited

/-- What the die has at a hold of its fast path: the 26 held inputs in volts (R68), and the current of each of the 24 balance
channels in amperes as the balance monitor samples it there (R212). -/
structure HoldInput where
  volts : List Rat
  bal : List Rat
deriving DecidableEq, Repr, Inhabited

/-- The commands of the block. -/
inductive Instr where
  /-- INNER_LINK_BROKEN (R17). -/
  | innerLinkBroken (t : Nat) (i : Nat)
  /-- INNER_LINK_RESTORED (R405). -/
  | innerLinkRestored (t : Nat) (i : Nat)
  /-- DIE_LOST (R18). -/
  | dieLost (t : Nat) (k : Nat)
  /-- ROLE_PAD_CHANGE (R21). -/
  | rolePadChange (t : Nat) (level : Bool)
  /-- PRECISION_SAMPLE (R36). -/
  | precisionSample (t : Nat) (k : Nat) (v : List Rat) (ovl : List Overload) (tj : Int) (bal : List Rat)
  /-- SPARE_DWELL_STEP (R30). -/
  | spareDwellStep (t : Nat) (k : Nat) (b : Bool) (zero : Rat)
  /-- WARM_EXPIRE (R52). -/
  | warmExpire (t : Nat) (k : Nat)
  /-- REF_MONITOR_SAMPLE (R34). -/
  | refMonitorSample (t : Nat) (k : Nat) (ratio : Rat)
  /-- REF_INTERVAL_CLOSE (R34). -/
  | refIntervalClose (t : Nat) (k : Nat)
  /-- GATE_WINDOW_OPEN (R62). -/
  | gateWindowOpen (t : Nat) (k : Nat)
  /-- GATE_WINDOW_CLOSE (R62). -/
  | gateWindowClose (t : Nat) (k : Nat)
  /-- FAST_FRAME_HOLD (R68). -/
  | fastFrameHold (t : Nat) (k : Nat) (v : HoldInput) (zero : Rat) (ref : Rat)
  /-- CAPTURE_TIMER_TRIGGER (R78). -/
  | captureTimerTrigger (t : Nat) (k : Nat)
  /-- SYNC_IN_EDGE (R80). -/
  | syncInEdge (t : Nat) (rising : Bool) (stableNs : Nat)
  /-- CARRIER_BEACON_RECEIVE (R81). -/
  | carrierBeaconReceive (t : Nat) (a : Nat) (te : Nat)
  /-- CAPTURE_EDGE_TIMEOUT (R82). -/
  | captureEdgeTimeout (t : Nat) (k : Nat)
  /-- CAPTURE_BLOCK_DRAIN (R88). -/
  | captureBlockDrain (t : Nat) (k : Nat)
  /-- SEQ_WORD (R106). -/
  | seqWord (t : Nat) (k : Nat) (m : Rat) (ovl : Overload) (comply : Bool)
  /-- SEQ_ENTRY_END (R106). -/
  | seqEntryEnd (t : Nat) (k : Nat) (presence : Bool) (number : Nat)
  /-- M30_CAL_INSERT (R113). -/
  | m30CalInsert (t : Nat) (k : Nat) (gain : Nat) (zero : Rat) (zener : ZenerRead)
  /-- URGENT_WORK_PREEMPT (R114). -/
  | urgentWorkPreempt (t : Nat) (k : Nat)
  /-- URGENT_WORK_END (R114). -/
  | urgentWorkEnd (t : Nat) (k : Nat)
  /-- CAL_RUN_CLOSE (R126). -/
  | calRunClose (t : Nat) (k : Nat)
  /-- CAL_SOLVE_COMPLETE (R129). -/
  | calSolveComplete (t : Nat) (k : Nat)
  /-- CAL_EXPIRY (R133). -/
  | calExpiry (t : Nat) (k : Nat) (c : Nat)
  /-- CURRENT_BLOCK_SEND (R149). -/
  | currentBlockSend (t : Nat)
  /-- CURRENT_BLOCK_RECEIVE (R151). -/
  | currentBlockReceive (t : Nat) (bytes : List Byte)
  /-- CURRENT_BLOCK_MISSING (R151). -/
  | currentBlockMissing (t : Nat) (t0 : Nat)
  /-- IMP_SEGMENT_END (R145). -/
  | impSegmentEnd (t : Nat) (k : Nat) (band : Nat)
  /-- IMP_AVERAGE_END (R146). -/
  | impAverageEnd (t : Nat) (k : Nat) (band : Nat)
  /-- INJECTION_CHIP (R156). -/
  | injectionChip (t : Nat) (k : Nat)
  /-- CHARGE_BLOCK_SEND (R170). -/
  | chargeBlockSend (t : Nat)
  /-- CHARGE_BLOCK_RECEIVE (R176). -/
  | chargeBlockReceive (t : Nat) (bytes : List Byte)
  /-- CHARGE_BLOCK_MISSING (R172). -/
  | chargeBlockMissing (t : Nat) (t0 : Nat)
  /-- STATE_SECOND (R194). -/
  | stateSecond (t : Nat) (k : Nat)
  /-- STATE_PERSIST (R187). -/
  | statePersist (t : Nat) (k : Nat)
  /-- COMPARATOR_TICK (R202). -/
  | comparatorTick (t : Nat) (k : Nat) (v : List Rat)
  /-- AONC_POWER_UP (R203). -/
  | aoncPowerUp (t : Nat) (k : Nat)
  /-- AONC_POWER_DOWN (R404). -/
  | aoncPowerDown (t : Nat) (k : Nat)
  /-- FAULT_NOTICE_RECEIVE (R205). -/
  | faultNoticeReceive (t : Nat) (k : Nat) (side : Side) (intact : Bool)
  /-- TDAC_READBACK (R207). -/
  | tdacReadback (t : Nat) (k : Nat) (uv : Bool) (v : Rat)
  /-- BAL_STEP (R213). -/
  | balStep (t : Nat) (k : Nat)
  /-- BAL_NEED_CHECK (R213). -/
  | balNeedCheck (t : Nat) (k : Nat)
  /-- BAL_OVERCURRENT (R210). -/
  | balOvercurrent (t : Nat) (k : Nat) (n : Nat)
  /-- BAL_KEEPALIVE (R218). -/
  | balKeepalive (t : Nat) (k : Nat)
  /-- BAL_TIMEOUT_EXPIRE (R218). -/
  | balTimeoutExpire (t : Nat) (k : Nat)
  /-- OW_SWEEP (R220). -/
  | owSweep (t : Nat) (k : Nat)
  /-- OW_CHECK_COMPLETE (R221). -/
  | owCheckComplete (t : Nat) (k : Nat) (pre : List Rat) (post : List Rat)
  /-- OW_RECHECK (R224). -/
  | owRecheck (t : Nat) (k : Nat) (w : Nat) (pre : List Rat) (post : List Rat)
  /-- SHUNT_INPUT_BREAK (R223). -/
  | shuntInputBreak (t : Nat) (k : Nat) (w : Nat)
  /-- SEARCH_ALL (R236). -/
  | searchAll (t : Nat) (p : Nat)
  /-- SEARCH_NEW_PERIODIC (R236). -/
  | searchNewPeriodic (t : Nat) (p : Nat)
  /-- SWP_SEARCH_COMPLETE (R234, R237): for each attempt its passes, each the 64 pairs of read slots or no presence; for
  each ASSIGN the bytes its tries returned. -/
  | swpSearchComplete (t : Nat) (p : Nat) (attempts : List (List (Option (List (Bool × Bool))))) (acks : List (List Nat))
  /-- SWP_STREAM_CYCLE (R238). -/
  | swpStreamCycle (t : Nat) (p : Nat)
  /-- SWP_SLOT_READ (R240). -/
  | swpSlotRead (t : Nat) (p : Nat) (slot : Nat) (bytes : List Byte)
  /-- SWP_CYCLE_END (R242). -/
  | swpCycleEnd (t : Nat) (p : Nat)
  /-- SWP_LINE_SHORT (R244). -/
  | swpLineShort (t : Nat) (p : Nat)
  /-- SWP_SHORT_RETRY (R244). -/
  | swpShortRetry (t : Nat) (p : Nat)
  /-- CODEWORD_BOUNDARY (R255). -/
  | codewordBoundary (t : Nat) (side : Side)
  /-- CODEWORD_RECEIVE (R251). -/
  | codewordReceive (t : Nat) (side : Side) (bytes : List Byte)
  /-- CONTROL_CODEWORD_RECEIVE (R258). -/
  | controlCodewordReceive (t : Nat) (side : Side) (bytes : List Byte)
  /-- TC0_ACK_TIMEOUT (R259). -/
  | tc0AckTimeout (t : Nat) (side : Side)
  /-- FRAME_RETRY_TIMEOUT (R260). -/
  | frameRetryTimeout (t : Nat) (side : Side) (tc : Nat)
  /-- HOP_SILENCE_TIMEOUT (R262). -/
  | hopSilenceTimeout (t : Nat) (side : Side)
  /-- HOP_MARGIN_TIMEOUT (R253). -/
  | hopMarginTimeout (t : Nat) (side : Side)
  /-- HOP_TRAINING_RETRY (R262). -/
  | hopTrainingRetry (t : Nat) (side : Side)
  /-- HOP_TRAINING_COMPLETE (R262). -/
  | hopTrainingComplete (t : Nat) (side : Side) (margin : Int) (peerQpsk : Bool)
  /-- HOP_ROUTE_RESTORE (R262). -/
  | hopRouteRestore (t : Nat) (side : Side)
  /-- APC_ADJUST (R252). -/
  | apcAdjust (t : Nat) (side : Side) (margin : Margins)
  /-- HOP_KEYING_MESSAGE (R277). -/
  | hopKeyingMessage (t : Nat) (side : Side) (bytes : List Byte)
  /-- HOP_REKEY (R278). -/
  | hopRekey (t : Nat) (side : Side)
  /-- FRAME_FORWARD (R27). -/
  | frameForward (t : Nat) (side : Side) (bytes : List Byte)
  /-- MSEQ_GAP_RELEASE (R269). -/
  | mseqGapRelease (t : Nat) (origin : Nat) (tc : Nat) (flow : Nat)
  /-- LINK_STATE_NOTICE_RECEIVE (R262). -/
  | linkStateNoticeReceive (t : Nat) (bytes : List Byte)
  /-- COMMAND_FRAME_RECEIVE (R333). -/
  | commandFrameReceive (t : Nat) (bytes : List Byte)
  /-- COMPLETION_FRAME_RECEIVE (R336). -/
  | completionFrameReceive (t : Nat) (bytes : List Byte)
  /-- EVENT_FRAME_RECEIVE (R341). -/
  | eventFrameReceive (t : Nat) (bytes : List Byte)
  /-- RECORD_FRAME_RECEIVE (R294). -/
  | recordFrameReceive (t : Nat) (bytes : List Byte)
  /-- FIRMWARE_FRAME_RECEIVE (R362). -/
  | firmwareFrameReceive (t : Nat) (bytes : List Byte)
  /-- ENUM_START_RECEIVE (R263). -/
  | enumStartReceive (t : Nat) (bytes : List Byte)
  /-- DISCOVER_SEND (R263). -/
  | discoverSend (t : Nat)
  /-- DISCOVER_RECEIVE (R263). -/
  | discoverReceive (t : Nat) (side : Side) (bytes : List Byte)
  /-- ENUM_WAIT_EXPIRE (R263). -/
  | enumWaitExpire (t : Nat) (answers : List (List Byte))
  /-- TIME_BEACON_SEND (R274). -/
  | timeBeaconSend (t : Nat)
  /-- TIME_BEACON_RECEIVE (R275). -/
  | timeBeaconReceive (t : Nat) (side : Side) (bytes : List Byte)
  /-- TQ_HOLDOVER (R275). -/
  | tqHoldover (t : Nat)
  /-- PACK_TIME_COMMIT (R272). -/
  | packTimeCommit (t : Nat)
  /-- HEARTBEAT_SEND (R271). -/
  | heartbeatSend (t : Nat)
  /-- SLEEP_LISTEN_WINDOW (R279). -/
  | sleepListenWindow (t : Nat) (side : Side)
  /-- WAKE_RUN_RECEIVE (R279). -/
  | wakeRunReceive (t : Nat) (side : Side) (durationNs : Nat)
  /-- LONG_BEACON_DETECT (R279). -/
  | longBeaconDetect (t : Nat) (side : Side) (bits : List Bool)
  /-- INNER_TIME_WORD (R280). -/
  | innerTimeWord (t : Nat) (k : Nat) (delay : Nat)
  /-- INNER_TIME_WORD_TIMEOUT (R280). -/
  | innerTimeWordTimeout (t : Nat) (k : Nat)
  /-- RECORD_ARRIVE (R294). -/
  | recordArrive (t : Nat) (k : Nat) (intact : Bool)
  /-- UNIT_PROGRAM_COMPLETE (R294). -/
  | unitProgramComplete (t : Nat) (group : Nat) (ok : Bool)
  /-- D2_UNIT_CLOSE (R295). -/
  | d2UnitClose (t : Nat)
  /-- BUCKET_ACCRUE (R300). -/
  | bucketAccrue (t : Nat)
  /-- STORAGE_TEMP_SAMPLE (R302). -/
  | storageTempSample (t : Nat) (temp : Int)
  /-- BLOCK_REFRESH (R303). -/
  | blockRefresh (t : Nat) (block : Nat) (read : BlockRead)
  /-- STORAGE_DIE_FAIL (R304). -/
  | storageDieFail (t : Nat)
  /-- SPILL_HOLDER_RECHOOSE (R305). -/
  | spillHolderRechoose (t : Nat) (candidates : List Nat)
  /-- RECORD_RETENTION_EXPIRE (R292). -/
  | recordRetentionExpire (t : Nat)
  /-- LOCUS_EVALUATE (R308). -/
  | locusEvaluate (t : Nat) (load : List Rat) (cluster : Rat)
  /-- TASK_MOVE (R309). -/
  | taskMove (t : Nat) (k : Nat) (task : Nat) (complete : Bool)
  /-- DIE_RECORD_RESEND (R494). -/
  | dieRecordResend (t : Nat) (k : Nat)
  /-- HIF_RESET (R321). -/
  | hifReset (t : Nat) (cause : Nat)
  /-- HIF_ENABLE (R324). -/
  | hifEnable (t : Nat) (value : Nat)
  /-- HIF_SHUTDOWN (R324). -/
  | hifShutdown (t : Nat) (value : Nat)
  /-- QUEUE_ENABLE (R323). -/
  | queueEnable (t : Nat) (off : Nat) (value : Nat)
  /-- QUEUE_DISABLE (R323). -/
  | queueDisable (t : Nat) (off : Nat) (value : Nat)
  /-- REGISTER_WRITE (R320). -/
  | registerWrite (t : Nat) (off : Nat) (value : Nat) (size : Nat)
  /-- KICK (R328). -/
  | kick (t : Nat) (value : Nat)
  /-- DOORBELL_POLL (R327). -/
  | doorbellPoll (t : Nat)
  /-- DOORBELL_READ_COMPLETE (R326). -/
  | doorbellReadComplete (t : Nat) (words : List Nat)
  /-- DESCRIPTOR_FETCH (R331). -/
  | descriptorFetch (t : Nat) (sq : Nat) (bytes : List Byte) (listBytes : List Byte) (data : List Byte)
  /-- COMMAND_TIMEOUT (R334). -/
  | commandTimeout (t : Nat) (sq : Nat) (cid : Nat)
  /-- COMPLETION_WRITE (R336). -/
  | completionWrite (t : Nat) (cq : Nat) (ok : Bool)
  /-- STREAM_ENTRY_WRITE (R340). -/
  | streamEntryWrite (t : Nat) (ring : Nat) (ok : Bool)
  /-- EVENT_ENTRY_WRITE (R341). -/
  | eventEntryWrite (t : Nat) (ok : Bool)
  /-- INTERRUPT_COALESCE_EXPIRE (R343). -/
  | interruptCoalesceExpire (t : Nat) (kind : Nat) (idx : Nat)
  /-- MSIX_UNMASK (R343). -/
  | msixUnmask (t : Nat) (vector : Nat)
  /-- EVENT_DELAY_REPORT (R342). -/
  | eventDelayReport (t : Nat)
  /-- IDENTIFY (R362). -/
  | identify (t : Nat) (c : Cmd)
  /-- ENUMERATE (R362). -/
  | enumerate (t : Nat) (c : Cmd)
  /-- CONFIG_READ (R353). -/
  | configRead (t : Nat) (c : Cmd)
  /-- SHADOW_WRITE (R355). -/
  | shadowWrite (t : Nat) (c : Cmd) (data : List Byte)
  /-- COMMIT (R356). -/
  | commit (t : Nat) (c : Cmd)
  /-- COMMIT_CHECK (R356). -/
  | commitCheck (t : Nat)
  /-- COMMIT_REVERT (R358). -/
  | commitRevert (t : Nat) (c : Cmd)
  /-- COMMIT_CANCEL (R358). -/
  | commitCancel (t : Nat) (c : Cmd)
  /-- CONFIG_SWAP (R356). -/
  | configSwap (t : Nat)
  /-- SHADOW_COPY_COMPLETE (R356). -/
  | shadowCopyComplete (t : Nat)
  /-- GROUP_COMMIT_DECIDE (R359). -/
  | groupCommitDecide (t : Nat)
  /-- GROUP_GO_RECEIVE (R359). -/
  | groupGoReceive (t : Nat)
  /-- GROUP_ABORT_RECEIVE (R359). -/
  | groupAbortReceive (t : Nat)
  /-- GROUP_GO_DEADLINE (R359). -/
  | groupGoDeadline (t : Nat)
  /-- STREAM_OPEN (R362). -/
  | streamOpen (t : Nat) (c : Cmd)
  /-- STREAM_CLOSE (R362). -/
  | streamClose (t : Nat) (c : Cmd)
  /-- RECORD_READ (R352). -/
  | recordRead (t : Nat) (c : Cmd)
  /-- CAPTURE_ARM (R362). -/
  | captureArm (t : Nat) (c : Cmd)
  /-- CAPTURE_DISARM (R362). -/
  | captureDisarm (t : Nat) (c : Cmd)
  /-- CAPTURE_FETCH (R352). -/
  | captureFetch (t : Nat) (c : Cmd) (lost : List Nat)
  /-- STORE_READ (R352). -/
  | storeRead (t : Nat) (c : Cmd) (lost : List Nat)
  /-- BALANCE_POLICY (R361). -/
  | balancePolicy (t : Nat) (c : Cmd)
  /-- POWER_STATE_RUN (R414). -/
  | powerStateRun (t : Nat) (c : Cmd)
  /-- POWER_STATE_DOZE (R414). -/
  | powerStateDoze (t : Nat) (c : Cmd)
  /-- POWER_STATE_SLEEP (R417). -/
  | powerStateSleep (t : Nat) (c : Cmd)
  /-- POWER_STATE_SHIP (R417). -/
  | powerStateShip (t : Nat) (c : Cmd)
  /-- SELFTEST_RUN_ALL (R464). -/
  | selftestRunAll (t : Nat) (c : Cmd) (results : List Nat)
  /-- SELFTEST_RUN_BLOCK (R362). -/
  | selftestRunBlock (t : Nat) (c : Cmd) (result : Nat)
  /-- CAL_EARLY_END (R126). -/
  | calEarlyEnd (t : Nat) (c : Cmd)
  /-- CAL_RESET (R132). -/
  | calReset (t : Nat) (c : Cmd)
  /-- CHECK_COMPUTE (R471). -/
  | checkCompute (t : Nat) (c : Cmd) (data : List Byte)
  /-- METER_STATEMENT (R444). -/
  | meterStatement (t : Nat) (c : Cmd)
  /-- TRUST_CHALLENGE (R445). -/
  | trustChallenge (t : Nat) (c : Cmd)
  /-- FIRMWARE_STAGE (R362). -/
  | firmwareStage (t : Nat) (c : Cmd) (data : List Byte)
  /-- FIRMWARE_VERIFY (R447). -/
  | firmwareVerify (t : Nat) (c : Cmd)
  /-- FIRMWARE_ACTIVATE (R448). -/
  | firmwareActivate (t : Nat) (c : Cmd) (starts : Bool)
  /-- FIRMWARE_RETURN_PREVIOUS (R448). -/
  | firmwareReturnPrevious (t : Nat) (c : Cmd) (starts : Bool)
  /-- SPAN_READY (R448). -/
  | spanReady (t : Nat)
  /-- SPAN_READY_TIMEOUT (R448). -/
  | spanReadyTimeout (t : Nat)
  /-- SPAN_STOP (R448). -/
  | spanStop (t : Nat)
  /-- SVN_COMMIT (R450). -/
  | svnCommit (t : Nat) (image : Nat)
  /-- SENSOR_SEARCH (R236). -/
  | sensorSearch (t : Nat) (c : Cmd)
  /-- BLACKBOX_READ (R457). -/
  | blackboxRead (t : Nat) (c : Cmd)
  /-- LOCKOUT_RELEASE (R379). -/
  | lockoutRelease (t : Nat) (c : Cmd)
  /-- GENKEY (R431). -/
  | lifeGenkey (t : Nat) (c : Cmd) (data : List Byte)
  /-- SEAL (R431). -/
  | lifeSeal (t : Nat) (c : Cmd) (data : List Byte)
  /-- UPDATE (R431). -/
  | lifeUpdate (t : Nat) (c : Cmd) (data : List Byte)
  /-- RELOCATE (R433). -/
  | lifeRelocate (t : Nat) (c : Cmd) (data : List Byte)
  /-- RETURN (R434). -/
  | lifeReturn (t : Nat) (c : Cmd) (data : List Byte)
  /-- PING (R362). -/
  | ping (t : Nat) (c : Cmd)
  /-- SAFETY_TICK (R364). -/
  | safetyTick (t : Nat) (lorst : Bool)
  /-- SAFETY_INPUT_SAMPLE (R368). -/
  | safetyInputSample (t : Nat) (levels : List Bool) (fb : List Bool) (tp : List Bool)
  /-- TEST_PULSE_START (R367). -/
  | testPulseStart (t : Nat) (out : Nat)
  /-- DISCREPANCY_LATCH (R369). -/
  | discrepancyLatch (t : Nat) (i : Nat)
  /-- SAFETY_FRAME_RECEIVE (R382). -/
  | safetyFrameReceive (t : Nat) (bytes : List Byte)
  /-- SAFETY_MBOX_SERVICE (R384). -/
  | safetyMboxService (t : Nat) (bytes : List Byte)
  /-- HOST_WATCHDOG_EXPIRE (R384). -/
  | hostWatchdogExpire (t : Nat)
  /-- WATCHDOG_EXPIRE (R385). -/
  | watchdogExpire (t : Nat) (p : Nat)
  /-- OUTPUT_OVERCURRENT (R372). -/
  | outputOvercurrent (t : Nat) (k : Nat)
  /-- OUTPUT_OPEN_LOAD (R372). -/
  | outputOpenLoad (t : Nat) (k : Nat)
  /-- OUTPUT_ECONOMY_START (R373). -/
  | outputEconomyStart (t : Nat) (k : Nat) (vaux : Rat)
  /-- FEEDBACK_TIMEOUT (R374). -/
  | feedbackTimeout (t : Nat) (k : Nat)
  /-- LORST_RELEASE_EDGE (R378). -/
  | lorstReleaseEdge (t : Nat)
  /-- LORST_HELD (R378). -/
  | lorstHeld (t : Nat)
  /-- INPUT_VALID (R394). -/
  | inputValid (t : Nat) (which : Nat) (v : Rat)
  /-- INPUT_INVALID (R394). -/
  | inputInvalid (t : Nat) (which : Nat) (v : Rat)
  /-- RAIL_FAULT (R400). -/
  | railFault (t : Nat) (rail : Nat) (kind : Nat)
  /-- RAIL_RETRY (R400). -/
  | railRetry (t : Nat) (rail : Nat)
  /-- RAIL_COUNTER_COPY (R399). -/
  | railCounterCopy (t : Nat)
  /-- HOLD_CHARGED (R401). -/
  | holdCharged (t : Nat) (mv : Nat)
  /-- HOLD_LOW (R401). -/
  | holdLow (t : Nat) (mv : Nat)
  /-- HOLD_CHARGE_TIMEOUT (R402). -/
  | holdChargeTimeout (t : Nat)
  /-- POWER_UP_SEQUENCE (R406). -/
  | powerUpSequence (t : Nat) (strap : List Nat)
  /-- RAIL_IN_REGULATION (R406). -/
  | railInRegulation (t : Nat) (rail : Nat) (bist : Nat)
  /-- RAIL_RAMP_TIMEOUT (R408). -/
  | railRampTimeout (t : Nat) (rail : Nat)
  /-- POWER_UP_RETRY (R408). -/
  | powerUpRetry (t : Nat)
  /-- RAIL_DISCHARGED (R407). -/
  | railDischarged (t : Nat) (rail : Nat) (timedOut : Bool)
  /-- POWER_FAIL_WARNING (R411). -/
  | powerFailWarning (t : Nat) (item : Nat)
  /-- HOLD_TIME_EXPIRE (R411). -/
  | holdTimeExpire (t : Nat)
  /-- SHUTDOWN_RESTART (R412). -/
  | shutdownRestart (t : Nat)
  /-- DOZE_ENTER (R414). -/
  | dozeEnter (t : Nat)
  /-- DOZE_EXIT (R414). -/
  | dozeExit (t : Nat)
  /-- WAKE_SOURCE (R416). -/
  | wakeSource (t : Nat) (code : Nat)
  /-- SLEEP_TIMER_EXPIRE (R416). -/
  | sleepTimerExpire (t : Nat)
  /-- AON_SUPPLY_LOSS (R415). -/
  | aonSupplyLoss (t : Nat)
  /-- RST_N_ASSERT (R419). -/
  | rstNAssert (t : Nat)
  /-- RST_N_RELEASE (R419). -/
  | rstNRelease (t : Nat) (strap : List Nat)
  /-- RST_N_STUCK (R420). -/
  | rstNStuck (t : Nat) (strap : List Nat)
  /-- RST_IGNORED_CLEAR (R420). -/
  | rstIgnoredClear (t : Nat)
  /-- DIE_ISOLATION_TIMEOUT (R405). -/
  | dieIsolationTimeout (t : Nat) (k : Nat)
  /-- PREC_POWER_UP (R495). -/
  | precPowerUp (t : Nat) (k : Nat) (bist : DieTests)
  /-- FIREWALL_VIOLATION (R424). -/
  | firewallViolation (t : Nat)
  /-- METER_COMMIT (R443). -/
  | meterCommit (t : Nat)
  /-- METER_SNAPSHOT (R454). -/
  | meterSnapshot (t : Nat)
  /-- HISTORY_PERIOD (R455). -/
  | historyPeriod (t : Nat)
  /-- BLACKBOX_RECORD_WRITE (R453). -/
  | blackboxRecordWrite (t : Nat) (okA : Bool) (okB : Bool)
  /-- DEBUG_OBSERVE_OPEN (R436). -/
  | debugObserveOpen (t : Nat)
  /-- DEBUG_FULL_OPEN (R438). -/
  | debugFullOpen (t : Nat) (sig : List Byte) (keepAwake : Bool)
  /-- DEBUG_CLOSE (R439). -/
  | debugClose (t : Nat)
  /-- SLICE_START (R461). -/
  | sliceStart (t : Nat) (k : Nat)
  /-- SLICE_END (R462). -/
  | sliceEnd (t : Nat) (k : Nat) (result : Nat) (rail : Nat)
  /-- SELFTEST_OVERDUE (R464). -/
  | selftestOverdue (t : Nat) (k : Nat) (block : Nat)
  /-- HUB_BIST_RETRY (R468). -/
  | hubBistRetry (t : Nat) (pass : Bool)
  /-- CHK_OPEN (R470). -/
  | chkOpen (t : Nat) (unit : Nat) (ctrl : Nat)
  /-- CHK_DATA_WRITE (R470). -/
  | chkDataWrite (t : Nat) (unit : Nat) (width : Nat) (value : Nat)
  /-- CHK_CLOSE (R470). -/
  | chkClose (t : Nat) (unit : Nat) (ctrl : Nat)
  /-- THERMAL_SAMPLE (R482). -/
  | thermalSample (t : Nat) (temps : List Int)
  /-- THERMAL_STEP_DOWN (R482). -/
  | thermalStepDown (t : Nat)
  /-- DIE_OVERHEAT (R483). -/
  | dieOverheat (t : Nat) (k : Nat)
  /-- DIE_COOLED (R483). -/
  | dieCooled (t : Nat) (k : Nat)
  /-- HUB_OVERHEAT (R483). -/
  | hubOverheat (t : Nat)
  /-- HUB_COOLED (R483). -/
  | hubCooled (t : Nat) (pass : Bool)
  /-- FAULT_NOTICE_FRAME_RECEIVE (R83). -/
  | faultNoticeFrameReceive (t : Nat) (bytes : List Byte)
  /-- GATEWAY_HEARTBEAT_RECEIVE (R383). -/
  | gatewayHeartbeatReceive (t : Nat) (bytes : List Byte)
  /-- GW_OK_TIMEOUT (R383). -/
  | gwOkTimeout (t : Nat)
  /-- ENUM_FRAME_RECEIVE (R263). -/
  | enumFrameReceive (t : Nat) (bytes : List Byte)
  /-- BALANCE_RECORD_INTERVAL (R228). -/
  | balanceRecordInterval (t : Nat) (k : Nat)
  /-- HOST_READ_TIMEOUT (R319). -/
  | hostReadTimeout (t : Nat) (what : Nat) (idx : Nat) (acc : HostAccess)
deriving DecidableEq, Repr

end Sys2Proof
end

