-- ==== Sys2Proof/Decode.lean ====
section
/-! DEFINITION. The command that a word spells. The opcode table gives no row any bits, so no word spells a command. -/

namespace Sys2Proof

/-- The command that a word spells by the table's bits: the table gives no row a field, so there is none. DEDUCED, log entry 11. -/
def decodeTableWord (_nbits _w : Nat) : Option Instr := none

end Sys2Proof
end

