-- ==== Sys2Proof/Config.lean ====
section
/-! DEFINITION. What the spec leaves open. Every constant here is a free value: it has no body, so
no statement can rest on what it is, and each is named in a row of the assumption log. -/

namespace Sys2Proof

/-- A free value of `w` bits, the `n`-th that a run draws (State.freeCtr counts them). DESIGN CHOICE, log entry 6. -/
opaque Config.freeBits (w : Nat) : Nat → BitVec w

/-- A free rational, the `n`-th that a run draws. DESIGN CHOICE, log entry 6. -/
opaque Config.freeRat : Nat → Rat

/-- The result of a binary64 division by zero, which no rule states. DESIGN CHOICE, log entry 7. -/
opaque Config.divByZero : Rat → Rat

/-- The result of a binary64 operation beyond the format, which no rule states. DESIGN CHOICE, log entry 7. -/
opaque Config.overflow : Rat → Rat

/-- The binary64 square root of a negative number, which no rule states. A free value: DESIGN CHOICE, log entry 54. -/
opaque Config.sqrtNegative : Rat → Rat

/-- The logarithm of a value that is not positive, which no rule states (R169). DESIGN CHOICE, log entry 7. -/
opaque Config.lnNonPositive : Rat → Rat

/-- The zener term in ppm that source S3 fits: the terms of the factory record's two-term ageing model, and the 10 s
means it has, each with its instant, the oldest first (R123, R127). No rule states the model's form. DESIGN CHOICE, log entry 53. -/
opaque Config.zenerTerm : Rat × Rat → List (Nat × Rat) → Rat

/-- Weight of a dwell in the least squares of S1, by the number of samples it holds (R127). DESIGN CHOICE, log entry 53. -/
opaque Config.dwellWeight : Nat → Rat

/-- Transmit and receive chain delays of a part, measured at its factory calibration, 1/16 ns, by its identity (R273). DESIGN
CHOICE, log entry 36. -/
opaque Config.chainDelays : Nat → BitVec 32 × BitVec 32

/-- Solgedor's identifier assigned by the PCI-SIG (R319). DESIGN CHOICE, log entry 41. -/
opaque Config.vendorId : BitVec 16

/-- The Span image that the part leaves the factory with, in SPAN_A (R445). DESIGN CHOICE, log entry 35. -/
opaque Config.factorySpan : List Byte

/-- Solgedor's manufacturing keys, whose key identifiers ROM holds (R427). DESIGN CHOICE, log entry 35. -/
opaque Config.mfgKeys : List (List Byte)

/-- Solgedor's firmware key, in ROM (R426). DESIGN CHOICE, log entry 35. -/
opaque Config.firmwareKey : List Byte

/-- Solgedor's debug key, in ROM (R426). DESIGN CHOICE, log entry 35. -/
opaque Config.debugKey : List Byte

end Sys2Proof
end

