-- ==== Sys2Proof/Machine/Bytes.lean ====
section
/-! DEFINITION. Bit fields, little-endian byte order (R8), sign extension and the four check
algorithms of R469. Every record, frame, notice and register of the model is formed with these. -/

namespace Sys2Proof.Machine

/-- Bits [hi:lo] of a word (notation table of the chapter Scope). -/
def bits (w hi lo : Nat) : Nat := w / 2 ^ lo % 2 ^ (hi + 1 - lo)

/-- Bit `i` of a word. -/
def bit (w i : Nat) : Bool := bits w i i == 1

/-- A value placed in a field of `width` bits at bit `lo`. -/
def fld (lo width v : Nat) : Nat := v % 2 ^ width * 2 ^ lo

/-- A flag as a number. -/
def b2n (b : Bool) : Nat := if b then 1 else 0

/-- A saturating count: a field of `width` bits stays at its largest value. -/
def satInc (width v : Nat) : Nat := min (v + 1) (2 ^ width - 1)

/-- A value saturated to a field of `width` bits. -/
def sat (width v : Nat) : Nat := min v (2 ^ width - 1)

/-- `n` bytes of `v`, least significant first (R8). -/
def le : Nat → Nat → List Byte
  | 0, _ => []
  | n + 1, v => BitVec.ofNat 8 v :: le n (v / 256)

/-- `n` bytes of a signed value in two's complement (R8, R35). -/
def leInt (n : Nat) (v : Int) : List Byte := le n (v % (2 ^ (8 * n) : Nat)).toNat

/-- The number that little-endian bytes spell (R8). -/
def ofLe : List Byte → Nat
  | [] => 0
  | b :: bs => b.toNat + 256 * ofLe bs

/-- `n` bytes at offset `off`; bytes beyond the end read 0. -/
def slice (bs : List Byte) (off n : Nat) : List Byte :=
  (List.range n).map fun i => bs.getD (off + i) 0

/-- The little-endian number in `n` bytes at offset `off`. -/
def rd (bs : List Byte) (off n : Nat) : Nat := ofLe (slice bs off n)

/-- A number of `width` bits read as two's complement. -/
def signed (width v : Nat) : Int :=
  if v % 2 ^ width < 2 ^ (width - 1) then (v % 2 ^ width : Nat) else (v % 2 ^ width : Nat) - (2 ^ width : Nat)

/-- A signed value as the unsigned pattern of `width` bits. -/
def unsignedBits (width : Nat) (v : Int) : Nat := (v % (2 ^ width : Nat)).toNat

/-- The signed number in `n` bytes at offset `off`. -/
def rdInt (bs : List Byte) (off n : Nat) : Int := signed (8 * n) (rd bs off n)

/-- `n` zero bytes ("write 0, read 0", R9). -/
def zeros (n : Nat) : List Byte := List.replicate n 0

/-! ### Check values (R469) -/

/-- One step of a most-significant-bit-first CRC of width `w`. -/
def crcStepMsb (w poly c : Nat) : Nat :=
  if c.testBit (w - 1) then (c * 2 % 2 ^ w) ^^^ poly else c * 2 % 2 ^ w

/-- One step of a reflected CRC. -/
def crcStepLsb (rpoly c : Nat) : Nat :=
  if c % 2 = 1 then (c / 2) ^^^ rpoly else c / 2

/-- `n` applications of `f`. -/
def iter {α : Type} (f : α → α) : Nat → α → α
  | 0, a => a
  | n + 1, a => iter f n (f a)

/-- The algorithm selected by POLY of R469. -/
inductive Poly where
  | crc8        -- 0: CRC-8/AUTOSAR
  | crc16       -- 1: CRC-16/IBM-3740
  | crc32       -- 2: CRC-32/ISO-HDLC
  | crc32c      -- 3: CRC-32C
deriving DecidableEq, Repr, Inhabited

/-- POLY as the two-bit field of CHK_CTRL and CHECK_COMPUTE spells it (R349, R470). -/
def polyOf (n : Nat) : Poly :=
  match n % 4 with
  | 0 => .crc8
  | 1 => .crc16
  | 2 => .crc32
  | _ => .crc32c

/-- Init of R469. -/
def Poly.init : Poly → Nat
  | .crc8 => 0xFF
  | .crc16 => 0xFFFF
  | .crc32 => 0xFFFFFFFF
  | .crc32c => 0xFFFFFFFF

/-- Final XOR of R469. -/
def Poly.final : Poly → Nat
  | .crc8 => 0xFF
  | .crc16 => 0
  | .crc32 => 0xFFFFFFFF
  | .crc32c => 0xFFFFFFFF

/-- One byte fed to a running CRC: polynomials 0x2F, 0x1021, 0x04C1_1DB7 and 0x1EDC_6F41, the last
two reflected in and out (R469), so that their shift runs on the reversed polynomials. -/
def Poly.feed (p : Poly) (c : Nat) (b : Byte) : Nat :=
  match p with
  | .crc8 => iter (crcStepMsb 8 0x2F) 8 (c ^^^ b.toNat)
  | .crc16 => iter (crcStepMsb 16 0x1021) 8 (c ^^^ (b.toNat * 256))
  | .crc32 => iter (crcStepLsb 0xEDB88320) 8 (c ^^^ b.toNat)
  | .crc32c => iter (crcStepLsb 0x82F63B78) 8 (c ^^^ b.toNat)

/-- The check value of a message (R469). -/
def Poly.check (p : Poly) (msg : List Byte) : Nat := msg.foldl p.feed p.init ^^^ p.final

/-- CRC-32C, the check of records (R51 and every other record table). -/
def crc32c (msg : List Byte) : Nat := Poly.crc32c.check msg

/-- A record closed with its CHECK, CRC-32C over every byte before it. -/
def withCrc32c (msg : List Byte) : List Byte := msg ++ le 4 (crc32c msg)

/-- CHECK of a record holds: its last four bytes are the CRC-32C of the bytes before them. -/
def crc32cOk (rec : List Byte) : Bool :=
  rec.length ≥ 4 && rd rec (rec.length - 4) 4 == crc32c (rec.take (rec.length - 4))

/-- An ASCII text as bytes. -/
def ascii (s : String) : List Byte := s.toList.map fun c => BitVec.ofNat 8 c.toNat

end Sys2Proof.Machine
end

