-- ==== Sys2Proof/Machine/Num.lean ====
section
/-! DEFINITION. Exact arithmetic on rationals, rounding to nearest with halves away from zero
(R36, R93, R161, R195), and binary64 with round-to-nearest-even (R140, R145, R167). -/

namespace Sys2Proof.Machine

/-- Rounding to nearest, halves away from zero. -/
def roundAway (q : Rat) : Int := if 0 ≤ q then (q + 1 / 2).floor else -((-q + 1 / 2).floor)

/-- Rounding to nearest, halves to the even neighbour. -/
def roundEven (q : Rat) : Int :=
  let f := q.floor
  let r := q - f
  if r < 1 / 2 then f
  else if 1 / 2 < r then f + 1
  else if f % 2 = 0 then f else f + 1

/-- A value clamped to a range. -/
def clampRat (lo hi q : Rat) : Rat := if q < lo then lo else if hi < q then hi else q

/-- A value clamped to a range. -/
def clampInt (lo hi v : Int) : Int := if v < lo then lo else if hi < v then hi else v

/-- 2 to an integer power, exactly. -/
def pow2 (e : Int) : Rat := if 0 ≤ e then (2 ^ e.toNat : Nat) else 1 / ((2 ^ (-e).toNat : Nat) : Rat)

/-- The exponent e with 2^e ≤ |q| < 2^(e+1), for q ≠ 0. -/
def expo (q : Rat) : Int :=
  let a := if q < 0 then -q else q
  let g : Int := (a.num.toNat.log2 : Int) - (a.den.log2 : Int)
  if a < pow2 g then g - 1 else if pow2 (g + 1) ≤ a then g + 1 else g

/-- The binary64 value nearest to an exact one, ties to even (R145, R167). A magnitude beyond the
format is a value the spec does not state: `Config.overflow`. DEDUCED, log entry 8. -/
def f64 (q : Rat) : Rat :=
  if q = 0 then 0
  else
    let e := max (expo q) (-1022)
    let u := pow2 (e - 52)
    let r := (roundEven (q / u) : Rat) * u
    if pow2 1024 ≤ r ∨ r ≤ -(pow2 1024) then Config.overflow q else r

/-- Binary64 sum. -/
def fadd (a b : Rat) : Rat := f64 (a + b)
/-- Binary64 difference. -/
def fsub (a b : Rat) : Rat := f64 (a - b)
/-- Binary64 product. -/
def fmul (a b : Rat) : Rat := f64 (a * b)
/-- Binary64 quotient; a zero divisor gives a value the spec does not state (`Config.divByZero`). DESIGN CHOICE, log entry 7. -/
def fdiv (a b : Rat) : Rat := if b = 0 then Config.divByZero a else f64 (a / b)
/-- Magnitude. -/
def rabs (a : Rat) : Rat := if a < 0 then -a else a

/-- The integer square root rounded down of a number, with `fuel` steps of Newton's method. -/
def isqrtAux (n : Nat) : Nat → Nat → Nat
  | 0, x => x
  | fuel + 1, x =>
    let y := (x + n / x) / 2
    if y < x then isqrtAux n fuel y else x

/-- The largest m with m * m ≤ n. -/
def isqrt (n : Nat) : Nat := if n = 0 then 0 else isqrtAux n (n.log2 + 2) (2 ^ (n.log2 / 2 + 1))

/-- A rational square root to 128 binary places beyond the leading digit, rounded down. -/
def sqrtApprox (q : Rat) : Rat :=
  if q ≤ 0 then 0
  else
    let k : Nat := 2 * (64 + (expo q).natAbs)
    (isqrt ((q * ((2 ^ (2 * k) : Nat) : Rat)).floor.toNat) : Rat) / ((2 ^ k : Nat) : Rat)

/-- Binary64 square root. -/
def fsqrt (q : Rat) : Rat := if q < 0 then Config.sqrtNegative q else f64 (sqrtApprox q)

/-- The working precision of the series below: 2^-160. -/
def serDen : Nat := 2 ^ 160

/-- A rational rounded down to the working precision. -/
def ser (q : Rat) : Rat := ((q * (serDen : Rat)).floor : Rat) / (serDen : Rat)

/-- Σ x^(2i+1) / (2i+1) for i below `n`, kept to the working precision: the inverse hyperbolic tangent. -/
def atanhSer (n : Nat) (x : Rat) : Rat :=
  ((List.range n).foldl
    (fun (acc : Rat × Rat) i => (acc.1 + ser (acc.2 / ((2 * i + 1 : Nat) : Rat)), ser (acc.2 * x * x))) (0, x)).1

/-- Natural logarithm of 2 to the working precision. -/
def ln2 : Rat := 2 * atanhSer 60 (1 / 3)

/-- Natural logarithm of a positive rational, to the working precision (R169). DESIGN CHOICE, log entry 7. -/
def ln (q : Rat) : Rat :=
  if q ≤ 0 then Config.lnNonPositive q
  else
    let e := expo q
    let m := q / pow2 e
    (e : Rat) * ln2 + 2 * atanhSer 120 ((m - 1) / (m + 1))

/-- Σ (-1)^i x^(2i+1) / (2i+1) for i below `n`: the arc tangent of a small argument. -/
def atanSer (n : Nat) (x : Rat) : Rat :=
  ((List.range n).foldl
    (fun (acc : Rat × Rat) i => (acc.1 + ser (acc.2 / ((2 * i + 1 : Nat) : Rat)), ser (-(acc.2 * x * x)))) (0, x)).1

/-- π to the working precision (Machin's formula). -/
def pi : Rat := 16 * atanSer 60 (1 / 5) - 4 * atanSer 20 (1 / 239)

/-- Arc tangent of a rational in 0 to 1, by one halving of the argument:
atan x = 2 atan (x / (1 + sqrt (1 + x²))). -/
def atanUnit (x : Rat) : Rat :=
  let h := fun y : Rat => ser (y / (1 + sqrtApprox (1 + y * y)))
  4 * atanSer 60 (h (h x))

/-- The angle of the point (x, y) in radians, −π to π (R159). -/
def atan2 (y x : Rat) : Rat :=
  let ax := rabs x
  let ay := rabs y
  if ax = 0 ∧ ay = 0 then 0
  else
    let a := if ay ≤ ax then atanUnit (ay / ax) else pi / 2 - atanUnit (ax / ay)
    let a := if x < 0 then pi - a else a
    if y < 0 then -a else a

/-- Cosine and sine by their series for an angle of magnitude at most 1. -/
def cosSinSmall (x : Rat) : Rat × Rat :=
  let r := (List.range 30).foldl
    (fun (acc : (Rat × Rat) × Rat) i =>
      let term := acc.2
      let sum := if i % 2 = 0 then (acc.1.1 + (if i % 4 = 0 then term else -term), acc.1.2)
        else (acc.1.1, acc.1.2 + (if i % 4 = 1 then term else -term))
      (sum, ser (term * x / ((i + 1 : Nat) : Rat)))) ((0, 0), 1)
  r.1

/-- Cosine and sine of 2πk/n, by octant reduction to the first eighth of the circle. -/
def cosSinTurn (k n : Nat) : Rat × Rat :=
  let k := k % n
  let q := 4 * k / n
  let rem : Rat := ((4 * k : Nat) : Rat) / ((n : Nat) : Rat) - ((q : Nat) : Rat)
  let cs := if rem ≤ 1 / 2 then cosSinSmall (rem * pi / 2)
    else let c := cosSinSmall ((1 - rem) * pi / 2); (c.2, c.1)
  match q with
  | 0 => cs
  | 1 => (-cs.2, cs.1)
  | 2 => (-cs.1, -cs.2)
  | _ => (cs.2, -cs.1)

/-- The largest integer y with y^n ≤ m, by bisection from the top bit down. -/
def irootAux (n m : Nat) : Nat → Nat → Nat
  | 0, y => y
  | b + 1, y => if (y + 2 ^ b) ^ n ≤ m then irootAux n m b (y + 2 ^ b) else irootAux n m b y

/-- The n-th root of a natural number raised to a power, 400,000^(p/q), to the working precision (R140). -/
def powFrac (base p q : Nat) : Rat :=
  let k := 160
  let m := base ^ p * 2 ^ (k * q)
  (irootAux q m (m.log2 / q + 1) 0 : Rat) / ((2 ^ k : Nat) : Rat)

/-- Mean of a list; an empty list gives none. -/
def meanOf (l : List Rat) : Option Rat :=
  if l.isEmpty then none else some (l.foldl (· + ·) 0 / ((l.length : Nat) : Rat))

/-- A list in ascending order (insertion). -/
def insertAsc (x : Rat) : List Rat → List Rat
  | [] => [x]
  | y :: ys => if x ≤ y then x :: y :: ys else y :: insertAsc x ys

/-- The median of a list; the mean of the middle two for an even count. -/
def median (l : List Rat) : Option Rat :=
  let s := l.foldr insertAsc []
  let n := s.length
  if n = 0 then none
  else if n % 2 = 1 then some (s.getD (n / 2) 0)
  else some ((s.getD (n / 2 - 1) 0 + s.getD (n / 2) 0) / 2)

/-! ### Linear systems -/

/-- The solution of a square system of `n` unknowns, its rows with the constant last; none when it is singular. -/
def solveLin : Nat → List (List Rat) → Option (List Rat)
  | 0, _ => some []
  | n + 1, rows =>
    match rows.find? fun r => r.headD 0 ≠ 0 with
    | none => none
    | some p =>
      let a := p.headD 0
      let rest := (rows.erase p).map fun r => List.zipWith (fun x y => x - y * (r.headD 0 / a)) r.tail p.tail
      match solveLin n rest with
      | none => none
      | some xs =>
        let dot := (List.zipWith (· * ·) p.tail xs).foldl (· + ·) 0
        some ((p.getLastD 0 - dot) / a :: xs)

/-- The solution of a square system of `n` unknowns, its rows with the constant last, that leaves to `fill` every unknown that
the system does not determine. -/
def solveFill : Nat → List Rat → List (List Rat) → List Rat
  | 0, _, _ => []
  | n + 1, fill, rows =>
    match rows.find? fun r => r.headD 0 ≠ 0 with
    | none => fill.headD 0 :: solveFill n fill.tail (rows.map List.tail)
    | some p =>
      let a := p.headD 0
      let rest := (rows.erase p).map fun r => List.zipWith (fun x y => x - y * (r.headD 0 / a)) r.tail p.tail
      let xs := solveFill n fill.tail rest
      let dot := (List.zipWith (· * ·) p.tail xs).foldl (· + ·) 0
      (p.getLastD 0 - dot) / a :: xs

/-- The normal equations of weighted equations, each a weight, its coefficients and its right side. -/
def normalEqs (n : Nat) (eqs : List (Rat × List Rat × Rat)) : List (List Rat) :=
  let sum := fun (f : Rat × List Rat × Rat → Rat) => (eqs.map f).foldl (· + ·) 0
  (List.range n).map fun i =>
    (List.range n).map (fun j => sum fun e => e.1 * e.2.1.getD i 0 * e.2.1.getD j 0) ++ [sum fun e => e.1 * e.2.1.getD i 0 * e.2.2]

end Sys2Proof.Machine
end

