-- ==== Sys2Proof/Machine/CfgMap.lean ====
section
/-! DEFINITION. The CONFIG region (R353, R354): the blocks, their lengths, what each byte reads as
after reset, which bits a register table describes as "write 0, read 0" (R9), and the three byte maps
built on it. A map lists only the bytes that differ from their reset value, by rising address, so that
equal contents are equal lists. -/

namespace Sys2Proof.Machine

/-- Address of a configuration byte: block, TARGET and offset (R353). -/
def cfgAddr (block target off : Nat) : Nat := block * 2 ^ 20 + target * 2 ^ 17 + off

/-- Length of a block for a TARGET, 0 where the table of R353 has no such block. -/
def blockLen (block target : Nat) : Nat :=
  if target = 0 then
    match block with
    | 0x02 => 0x004
    | 0x11 => 0x008
    | 0x12 => 0x2F0
    | 0x13 => 0x010
    | 0x14 => 0x100
    | 0x15 => 0x100
    | 0x16 => 0x18800
    | _ => 0
  else
    match block with
    | 0x01 => 0x020
    | 0x02 => 0x014
    | 0x03 => 0x500
    | 0x04 => 0x008
    | 0x05 => 0x040
    | 0x06 => 0x028
    | 0x07 => 0x0E0
    | _ => 0

/-- The table of R353 has a block at this TARGET, block 0x00 being live only. -/
def blockExists (block target : Nat) : Bool := blockLen block target != 0 || (block == 0 && target == 0)

/-- Reset value and writable bits of the precision registers (R54). -/
def precReg : Nat → Nat × Nat
  | 0x000 => (0x03E80832, 0xFFFFFF77)
  | 0x004 => (0x00FFFFFF, 0x03FFFFFF)
  | 0x008 => (0x0000000A, 0x000000FF)
  | 0x00C => (0x000186A0, 0xFFFFFFFF)
  | 0x010 => (0, 0x0000F0FF)
  | 0x014 => (0x000186A0, 0xFFFFFFFF)
  | 0x018 => (0, 0x0000F0FF)
  | _ => (0, 0)

/-- The fast-path registers (R94). -/
def fastReg : Nat → Nat × Nat
  | 0x000 => (0x00010004, 0xFFFF00FC)
  | 0x004 => (0, 0x0000FFFF)
  | 0x008 => (0x000003E8, 0xFFFFFFFF)
  | 0x00C => (0x000003E8, 0xFFFFFFFF)
  | 0x010 => (0, 0xFFFFFFFF)
  | _ => (0, 0)

/-- The sequence registers (R104). -/
def seqReg (off : Nat) : Nat × Nat :=
  if off = 0 then (3, 3)
  else if 0x100 ≤ off ∧ off < 0x500 then
    match off % 16 with
    | 0 => (0, 0xFFFFFFFF)
    | 4 => (0, 0x000002FF)
    | _ => (0, 0x00FFFFFF)
  else (0, 0)

/-- The calibration registers (R136). -/
def calReg : Nat → Nat × Nat
  | 0x000 => (0x02D0141F, 0xFFFFFF1F)
  | 0x004 => (0x00C80050, 0xFFFFFFFF)
  | _ => (0, 0)

/-- The impedance registers (R164). -/
def impReg : Nat → Nat × Nat
  | 0x000 => (0x2328000E, 0xFFFF00EF)
  | 0x004 => (0x0064FF00, 0xFFFFFFF3)
  | 0x008 => (0x00041040, 0x00FFFFFF)
  | 0x00C => (0, 0xFFFFFFFF)
  | 0x010 => (0x0000103F, 0x0000FF3F)
  | off => if 0x014 ≤ off ∧ off < 0x040 then (0, 0xFFFFFFFF) else (0, 0)

/-- The state registers (R196). -/
def stateReg : Nat → Nat × Nat
  | 0x000 => (0x03FF000C, 0x0FFFFF0D)
  | 0x004 => (0x8E9461A8, 0xFFFFFFFF)
  | 0x008 => (0x1E141414, 0xFFFFFFFF)
  | 0x00C => (0x03E8320A, 0xFFFFFFFF)
  | 0x010 => (0x280A2D40, 0xFFFFFFFF)
  | 0x014 => (0x00A80064, 0xFFFFFFFF)
  | 0x018 => (0, 0xFFFFFFFF)
  | 0x01C => (0, 0xFFFFFFFF)
  | 0x020 => (0x012C0000, 0xFFFF0000)
  | 0x024 => (0x0D6B03E8, 0xFFFFFFFF)
  | _ => (0, 0)

/-- The protection and balancing registers (R225). -/
def protReg : Nat → Nat × Nat
  | 0x000 => (0x0BE007D0, 0x0FFF0FFF)
  | 0x004 => (0x00002828, 0x0000FFFF)
  | 0x008 => (0x00002060, 0x0000F0FF)
  | 0x00C => (0x00FFFFFF, 0x00FFFFFF)
  | 0x010 => (0x00FFFFFF, 0x00FFFFFF)
  | 0x014 => (0x02990A00, 0xFFFFFF3C)
  | 0x018 => (0, 0x00FFFFFF)
  | 0x01C => (0x0BB801F4, 0xFFFFFFFF)
  | 0x020 => (0x00640000, 0xFFFFFFFF)
  | 0x024 => (0x3C140A01, 0xFFFFFFFF)
  | off => if 0x080 ≤ off ∧ off < 0x0E0 then (0, 0xFFFFFFFF) else (0, 0)

/-- The single-wire port registers (R246). -/
def swpReg : Nat → Nat × Nat
  | 0x000 => (0x03E803C0, 0xFFFFFFF7)
  | 0x004 => (0x03E803C0, 0xFFFFFFF7)
  | _ => (0, 0)

/-- The link registers (R285). -/
def linkReg : Nat → Nat × Nat
  | 0x000 => (0x00320036, 0xFFFFFF7E)
  | 0x004 => (0x00001400, 0x0000FF3F)
  | 0x008 => (0, 0xFFFFFFFF)
  | off => if (0x010 ≤ off ∧ off < 0x020) ∨ (0x100 ≤ off ∧ off < 0x2F0) then (0, 0xFFFFFFFF) else (0, 0)

/-- The Locus registers (R316). -/
def locusReg : Nat → Nat × Nat
  | 0x000 => (0x503C3C0E, 0xFFFFFF1E)
  | 0x004 => (0, 0xFFFFFFFF)
  | 0x008 => (0x00100018, 0xFFFFFFFF)
  | 0x00C => (0x0000001C, 0x0000003F)
  | _ => (0, 0)

/-- The safety registers (R388). -/
def safeReg : Nat → Nat × Nat
  | 0x000 => (0x00192008, 0xFFFFFFF8)
  | 0x004 => (0x00640064, 0xFFFFFFFF)
  | 0x008 => (0x00640064, 0xFFFFFFFF)
  | 0x00C => (0x00000014, 0x0000FFFF)
  | 0x010 => (0x280A0000, 0xFFFF0777)
  | 0x014 => (0x03E80001, 0xFFFF03FF)
  | 0x018 => (0x00640500, 0xFFFFFF01)
  | 0x01C => (0, 0xFFFFFFC0)
  | 0x020 => (0, 0xFFFFFFFF)
  | _ => (0, 0)

/-- The power registers (R421). -/
def pwrReg : Nat → Nat × Nat
  | 0x000 => (0x0A0A0000, 0xFFFF0F00)
  | 0x004 => (0x00003219, 0x0000FFFF)
  | 0x008 => (0x000A0000, 0xFFFF0007)
  | 0x00C => (0x00000003, 0xFFFF0003)
  | _ => (0, 0)

/-- Reset value and writable bits of the word at a word-aligned offset of a block (R353, R354). An
offset that no register occupies has no writable bit. The profile area is writable whole. -/
def cfgReg (block target off : Nat) : Nat × Nat :=
  match block with
  | 0x01 => precReg off
  | 0x02 => if target = 0 then (if off = 0 then (0, 3) else (0, 0)) else fastReg off
  | 0x03 => seqReg off
  | 0x04 => calReg off
  | 0x05 => impReg off
  | 0x06 => stateReg off
  | 0x07 => protReg off
  | 0x11 => swpReg off
  | 0x12 => linkReg off
  | 0x13 => locusReg off
  | 0x14 => safeReg off
  | 0x15 => pwrReg off
  | 0x16 => (0, 0xFFFFFFFF)
  | _ => (0, 0)

/-- The word-level description at a byte address. -/
def cfgRegAt (a : Nat) : Nat × Nat := cfgReg (a / 2 ^ 20) (a / 2 ^ 17 % 8) (a % 2 ^ 17 / 4 * 4)

/-- What a byte that no map lists reads as: its reset value (R354). -/
def cfgDefault (a : Nat) : Byte := BitVec.ofNat 8 ((cfgRegAt a).1 / 2 ^ (8 * (a % 4)))

/-- The bits of a byte that are not "write 0, read 0" (R9). -/
def cfgMask (a : Nat) : Byte := BitVec.ofNat 8 ((cfgRegAt a).2 / 2 ^ (8 * (a % 4)))

/-! ### Byte maps in canonical form -/

/-- The byte at an address. -/
def cellGet : List Host.Cell → Nat → Byte
  | [], a => cfgDefault a
  | c :: cs, a => if c.1 = a then c.2 else cellGet cs a

/-- The map without an entry for an address. -/
def cellErase (m : List Host.Cell) (a : Nat) : List Host.Cell := m.filter fun c => c.1 != a

/-- An entry put in its place by rising address. -/
def cellInsert (a : Nat) (b : Byte) : List Host.Cell → List Host.Cell
  | [] => [(a, b)]
  | c :: cs => if a < c.1 then (a, b) :: c :: cs else c :: cellInsert a b cs

/-- A byte written: the entry disappears when the value is the one an unlisted address reads as. -/
def cellSet (m : List Host.Cell) (a : Nat) (b : Byte) : List Host.Cell :=
  if b = cfgDefault a then cellErase m a else cellInsert a b (cellErase m a)

/-- Bytes written from an address onward. -/
def cellWrite (m : List Host.Cell) (a : Nat) : List Byte → List Host.Cell
  | [] => m
  | b :: bs => cellWrite (cellSet m a b) (a + 1) bs

/-- Bytes read from an address onward. -/
def cellRead (m : List Host.Cell) (a n : Nat) : List Byte := (List.range n).map fun i => cellGet m (a + i)

/-- The addresses lo to hi − 1 of a map taken from another one. -/
def cellCopy (dst src : List Host.Cell) (lo hi : Nat) : List Host.Cell :=
  (dst.filter fun c => c.1 < lo) ++ (src.filter fun c => lo ≤ c.1 && c.1 < hi) ++ (dst.filter fun c => hi ≤ c.1)

/-- The canonical form: addresses rise strictly and no entry repeats what an unlisted address reads as. -/
def cellWf : List Host.Cell → Bool
  | [] => true
  | [c] => c.2 != cfgDefault c.1
  | c :: d :: cs => c.2 != cfgDefault c.1 && decide (c.1 < d.1) && cellWf (d :: cs)

/-- A map with every "write 0, read 0" bit cleared (R9), as it stands once it is in force. DEDUCED, log entry 20. -/
def cellMasked (m : List Host.Cell) : List Host.Cell :=
  m.foldr (fun c acc => let b := c.2 &&& cfgMask c.1; if b = cfgDefault c.1 then acc else (c.1, b) :: acc) []

/-- A 32-bit register of a map. -/
def cellWord (m : List Host.Cell) (block target off : Nat) : Nat := ofLe (cellRead m (cfgAddr block target off) 4)

/-- Address range of one block at one TARGET. -/
def blockLo (block target : Nat) : Nat := cfgAddr block target 0
/-- End of the address range of one block at one TARGET. -/
def blockHi (block target : Nat) : Nat := cfgAddr block (target + 1) 0

/-- One block at one TARGET copied from one map to another. -/
def cellCopyBlock (dst src : List Host.Cell) (block target : Nat) : List Host.Cell :=
  cellCopy dst src (blockLo block target) (blockHi block target)

end Sys2Proof.Machine
end

