-- ==== Sys2Proof/Machine/StateDie.lean ====
section
/-! DEFINITION. State of a cell die (chapters 2 to 8): the precision path, the fast path, the auxiliary
sequence, calibration, impedance, the estimator, protection and balancing. Lists of 24, 25, 26 or 29
elements are indexed from the lowest cell, wire or channel. Plain data. -/

namespace Sys2Proof.Machine

/-! ### Precision path (R28 to R66) -/

/-- Cover of a self-test slice by a spare (R32). -/
structure Cover where
  modulator : Nat
  /-- 0 spare A, 1 spare B. -/
  spare : Nat
  from_ : Nat
  /-- End of the slice, once it has ended. -/
  until_ : Option Nat
  /-- The spare was lost before the slice ended. -/
  lost : Bool
deriving DecidableEq, Repr

/-- Learned resistance of a sense wire (R66): the last 16 updates in ohms, newest first. -/
structure WireEst where
  updates : List Rat
  count : Nat
  valid : Bool
deriving DecidableEq, Repr

/-- Words of one interval by cell: sums in volts and counts, for counting and for rest points (R168), and the
balance channels that conducted at any and at every sample of it (R186). -/
structure Interval where
  idx : Nat
  cnt : List (Rat × Nat)
  rest : List (Rat × Nat)
  stack : Rat × Nat
  anyOn : Nat
  allOn : Nat
deriving DecidableEq, Repr

/-- The shunt and stack words of one 100 ms interval (R171, R441), by shunt channel. -/
structure ShuntAcc where
  t0 : Nat
  sum : List Int
  subst : List Nat
  ovr : List Bool
  stale : List Bool
  stackSum : Rat
  stackN : Nat
deriving DecidableEq, Repr

/-- The precision path of a die. -/
structure PrecState where
  /-- The path runs: PREC on, in RUN or DOZE, and not stopped. -/
  running : Bool
  /-- SEQ of the next record (R51). -/
  seq : Nat
  /-- Samples that R45 still flags, and samples that R37 still flags, by channel M1 to M29. -/
  settle : List Nat
  settleOvr : List Nat
  /-- The next sample carries SYNC (R49). -/
  sync : Bool
  /-- Boundary at which the swapped precision fields take effect (R46). -/
  swapAt : Option Nat
  /-- Cells of spares A and B, and the instants of their last steps (R30). -/
  spareCell : List Nat
  spareStep : List Nat
  /-- Cell held permanently by spares A and B; 0 when free (R31). -/
  held : List Nat
  /-- Modulators that self-test reports as failed (R31), kept in MRAM. -/
  failed : List Nat
  /-- Cells whose channel is lost (R31). -/
  lost : List Nat
  /-- Covers whose samples are not all formed yet, oldest first. -/
  cover : List Cover
  /-- Sum and count of the reference monitor's interval (R34). -/
  refSum : Rat
  refCount : Nat
  /-- Every sample of that interval was taken with data that calibration admits (R125). -/
  refClean : Bool
  refPrev : Option Rat
  /-- Start of that interval (R34). -/
  refAt : Nat
  /-- REF_STATE of R56. -/
  refState : Nat
  /-- The first 10 s mean after the last PREC power-up has not closed yet. -/
  refFirst : Bool
  warm : Bool
  /-- Instant of the last PREC power-up. -/
  upAt : Nat
  /-- Junction temperature last read, 0.01 °C. -/
  temp : Int
  /-- Start of the present gate period, and channels that carried current in it (R61, R62). -/
  gateStart : Nat
  gateFlow : List Bool
  /-- E of the window that is open, and of the last window opened (R62). -/
  window : Option Nat
  gatedE : Option Nat
  /-- Balance currents of the last sample in whose impulse no channel changed (R66). -/
  prevBal : List Rat
  /-- Codes of that sample as measured, before any correction, of the cells whose word measures (R66). -/
  prevCode : List (Option Int)
  wires : List WireEst
  /-- Words of the last sample, cells 1 to 24, shunts 1 and 2, stack. -/
  lastWords : List Nat
  /-- Intervals of one second and of 100 ms, newest first. -/
  secs : List Interval
  blks : List Interval
  shunts : List ShuntAcc
  /-- Code of the last admitted word of each shunt channel (R171). -/
  lastShunt : List Int
  /-- Effective shunt resistances at the ends of the last 100 ms intervals of pack time, nΩ (R171). -/
  rshEnds : List (Nat × List Rat)
deriving DecidableEq, Repr

/-! ### Fast path (R67 to R98) -/

/-- A frame of 26 codes named by its hold (R68). Masks have bit c−1 for channel c. -/
structure FastFrame where
  hold : Nat
  codes : List Nat
  ovrng : Nat
  dist : Nat
  bal : Nat
  inv : Nat
  /-- Constituents held by a self-test slice. -/
  slice : Bool
  derated : Bool
  tq : Nat
deriving DecidableEq, Repr

/-- A capture: armed, open, or closed and still draining (R78 to R98). -/
structure Capture where
  id : Nat
  a : Nat
  src : Nat
  scope : Bool
  pre : Nat
  post : Nat
  delay : Nat
  timeoutMs : Nat
  period : Nat
  /-- Number of the capture of a periodic arm. -/
  k : Nat
  tTrig : Option Nat
  /-- T_TRIG has been reached. -/
  triggered : Bool
  /-- Holds of the window's first frame and of the frame that comes next in it. -/
  first : Nat
  next : Nat
  /-- Frames of the window held before this instant are delivered, held or counted in FAST_DROP. -/
  counted : Nat
  /-- Frames delivered in blocks so far. -/
  delivered : Nat
  block : Nat
  deratedAtArm : Bool
  aborted : Bool
  /-- Instant at which the capture ended before its window was complete. -/
  stop : Option Nat
  /-- Command whose completion waits for the capture. -/
  cmd : Option Cmd
deriving DecidableEq, Repr

/-- One second of offset tracking (R75): sums of fast and of precision volts, counts, channels spoilt. -/
structure Track where
  sec : Nat
  fast : List Rat
  fastN : Nat
  prec : List Rat
  precN : Nat
  bad : Nat
deriving DecidableEq, Repr

/-- The fast path of a die. -/
structure FastState where
  /-- The ring, oldest frame first (R84). -/
  ring : List FastFrame
  cap : Option Capture
  /-- Closed captures that still hold frames to deliver, oldest first. -/
  drain : List Capture
  nextId : Nat
  /-- FAST_DROP and TRIG_MISSED (R97). -/
  dropTotal : Nat
  trigMissed : Nat
  /-- Over-range channels of the previous frame and its hold (R76). -/
  prevOver : Nat
  prevHold : Nat
  /-- Last kept internal-zero and fast-reference conversions (R71). -/
  zero : Rat
  ref : Rat
  /-- Offset of each fast channel, V (R75). -/
  offset : List Rat
  /-- Seconds being tracked, newest first. -/
  tracks : List Track
  /-- Thermal governor derates the fast path (R98). -/
  derated : Bool
  /-- Subscriptions whose fast streams are open, and the frames of the mean and of the block in progress (R93). -/
  streams : List Nat
  streamFrom : Nat
  streamAcc : List FastFrame
  /-- First frame of the stream opened last: no block crosses it. -/
  streamCut : Nat
  streamBlk : List FastFrame
  streamBlock : Nat
  streamId : Nat
  /-- SARs whose last slice failed, 1 to 4 (R467). -/
  sarFail : List Nat
  /-- SAR 0 to 3 held by a slice, first and last hold of it and its settling frame (R92). -/
  sliceHold : Option (Nat × Nat × Nat)
  /-- The path has run since this instant. -/
  startedAt : Option Nat
deriving DecidableEq, Repr

/-! ### Auxiliary sequence (R99 to R119) -/

/-- The entry in progress. -/
structure SeqRun where
  entry : Nat
  tStart : Nat
  words : List Nat
  winEvent : Bool
  sliceWait : Bool
deriving DecidableEq, Repr

/-- The latest reading of a channel: mean code of the valid words, setting, time; some valid word was usable,
some carried COMPLY, every one was usable. -/
structure AuxRead where
  channel : Nat
  code : Rat
  gain : Nat
  exc : Nat
  t : Nat
  ok : Bool
  comply : Bool
  clean : Bool
deriving DecidableEq, Repr

/-- Calibration of M30 at one gain (R113, R131): last pair, deltas in force, flags. -/
structure M30Cal where
  lastAt : Option Nat
  prev : Option (Rat × Rat)
  ofs : Rat
  gain : Rat
  rejected : Bool
deriving DecidableEq, Repr

/-- The sequencer. -/
structure SeqState where
  running : Bool
  pass : Nat
  passStart : Nat
  /-- PASS_TIME, 0.1 ms. -/
  passTime : Nat
  cur : Option SeqRun
  /-- Entry in progress or last run. -/
  curEntry : Nat
  skips : Nat
  /-- Pre-emptions of the present entry in this pass (R114). -/
  preempts : Nat
  urgent : Bool
  /-- The entry to run when urgent work ends, and since when a slice delays it. -/
  resume : Nat
  sliceHeld : Bool
  sliceMark : Bool
  /-- Window states of R111 and whether the last evaluated word was inside. -/
  win : List Nat
  winIn : List Bool
  reads : List AuxRead
  m30 : List M30Cal
  swapAt : Option Nat
  /-- Identity read in this pass (R189), thermistors present by their latest record, and the stored ones
  absent after the last pass (R190, R191). -/
  idSeen : Option Nat
  therms : Nat
  absent : Nat
deriving DecidableEq, Repr

/-! ### Calibration (R120 to R139) -/

/-- Factory values of one channel: gain and offset (V) at −40 °C, +25 °C and +110 °C (R120). -/
structure Factory where
  g1 : Rat
  g2 : Rat
  g3 : Rat
  o1 : Rat
  o2 : Rat
  o3 : Rat
deriving DecidableEq, Repr

/-- One admitted dwell of S1: spare 0 or 1, cell, mean difference (V), mean voltage (V), samples. -/
structure Dwell where
  spare : Nat
  cell : Nat
  d : Rat
  v : Rat
  n : Nat
deriving DecidableEq, Repr

/-- A run's window and what its sources have gathered (R123 to R126). -/
structure CalRun where
  tBegin : Nat
  dwells : List Dwell
  zeros : List (Nat × Rat)
  /-- S2: count, sums of v, v², e, v·e, e². -/
  s2 : List Rat
  /-- S3: the admitted 10 s means with the instants they closed at, the oldest first. -/
  s3 : List (Nat × Rat)
  /-- The run has closed complete and its solve runs; its end. -/
  tEnd : Nat
deriving DecidableEq, Repr

/-- A candidate (R127): offsets in V, gains in ppm, channels that may pair. -/
structure Cand where
  ofs : List Rat
  gain : List Rat
  valid : List Bool
deriving DecidableEq, Repr

/-- A slot of accepted deltas in hub MRAM (R134). -/
structure CalSlot where
  seq : Nat
  ofs : List Rat
  gain : List Rat
  zc : Rat
  acceptAt : List (Option Nat)
  stale : List Bool
  last : Nat
  /-- Instant of the write. -/
  at_ : Nat
  /-- The slot's CRC-32C holds; it does not when power was lost during the write. -/
  ok : Bool
deriving DecidableEq, Repr

/-- Deltas and rejected channels that take effect at a boundary (R130); whether a channel was accepted. -/
structure CalNext where
  ofs : List Rat
  gain : List Rat
  stale : List Bool
  at_ : Nat
  accepted : Bool
deriving DecidableEq, Repr

/-- Calibration state of a die. -/
structure CalState where
  /-- Factory record: M1 to M29, then M30 at its three gains. -/
  factory : List Factory
  /-- Factory ratio of zener to bandgap, at the three temperatures (R34, R120). -/
  refFactory : Rat × Rat × Rat
  /-- The two terms of the ageing model of the zener against the bandgap (R120). -/
  ageing : Rat × Rat
  /-- Factory values of ZENER and BANDGAP at 25 °C in volts (R100), and of the excitation currents 1, 10 and 100 µA in
  amperes (R102). -/
  zener25 : Rat
  bandgap25 : Rat
  exc : List Rat
  days : Nat
  /-- The fuse copy and the MRAM copy of the factory record pass their checks (R122). -/
  fuseOk : Bool
  mramOk : Bool
  /-- The last coefficients formed, gain and offset of each factory entry, once both copies have failed (R122). -/
  frozen : Option (List (Rat × Rat))
  /-- Deltas in force: offset in V, gain in ppm (R121). -/
  ofs : List Rat
  gain : List Rat
  /-- Common term in force, ppm (R128). -/
  zc : Rat
  /-- Deltas and rejected channels that take effect at the first boundary after the solve (R130). -/
  next : Option CalNext
  stale : List Bool
  acceptAt : List (Option Nat)
  lastAccept : Nat
  /-- Start of service (R133). -/
  served : Option Nat
  run : Option CalRun
  solving : Option CalRun
  heldCand : Option Cand
  runs : Nat
  lastResult : Nat
  sources : Nat
  slots : List CalSlot
  /-- Accumulators of the dwell in progress, per spare: sum of differences, of voltages, count. -/
  acc : List (Rat × Rat × Nat)
  /-- Rest points of S4: cell voltages (V), at most 64, newest first. -/
  rests : List (List Rat)
  /-- An acceptance could not be written before a power failure (R134). -/
  unsaved : Bool
deriving DecidableEq, Repr

/-! ### Impedance (R140 to R166) -/

/-- One decimation stage of one channel (R143): index of its last input, and its last inputs with their
flag and time quality, newest first. -/
structure Stage where
  last : Nat
  xs : List (Int × Bool × Nat)
deriving DecidableEq, Repr

/-- Band samples of one input: index within the band of the newest one, and the samples with flag and time
quality, newest first. -/
structure Band where
  last : Nat
  xs : List (Int × Bool × Nat)
deriving DecidableEq, Repr

/-- Sums of one point of one cell (R145). -/
structure Acc where
  sviRe : Rat
  sviIm : Rat
  sii : Rat
  svv : Rat
deriving DecidableEq, Repr

/-- An average in progress of one band (R145, R163). -/
structure Average where
  index : Nat
  /-- Segments admitted per cell. -/
  segs : List Nat
  /-- Segments admitted for the points of an injected cell that are never injected (R156). -/
  natSegs : List Nat
  /-- Sums by cell, then by point. -/
  acc : List (List Acc)
  curSegs : Nat
  rshSum : Rat
  rshN : Nat
deriving DecidableEq, Repr

/-- Impedance state of a die. Channels 1 to 24 are cells, 25 and 26 shunts, 27 to 50 injection references.
Lists by band follow the BAND codes 0 L, 1 M, 2 H. -/
structure ImpState where
  /-- Stages 1 to 3, then channels. -/
  stages : List (List Stage)
  bands : List (List Band)
  /-- Samples of the current stream by band. -/
  cur : List Band
  avgs : List (Option Average)
  /-- The next segment of each band; none until the band resumes at an average boundary. -/
  segNext : List (Option Nat)
  /-- R_SH_EFF from the T0 at which it changed, newest first. -/
  rsh : List (Nat × Nat)
  tauI : Nat
  curOk : Bool
  missRun : Nat
  curMiss : Nat
  segRej : Nat
  /-- T0 of blocks received or counted missing, newest first. -/
  seenT0 : List Nat
  lfsr : Nat
  chip : Bool
  group : Nat
  injActive : Bool
  /-- The injected average in progress, and of recent ones: index, group, injected cells, NOINJ cells. -/
  injAvg : Option Nat
  injSets : List (Nat × Nat × Nat × Nat)
  tdisPrev : List Bool
  onHub : Bool
  moved : Bool
  /-- Locus has suspended the task (R308, R310). -/
  suspended : Bool
  /-- Boundary at which the swapped fields take effect (R162). -/
  swapAt : Option Nat
deriving DecidableEq, Repr

/-! ### Estimator (R167 to R198) -/

/-- A learning point of one cell (R179, R184). -/
structure LearnPt where
  sv : Rat
  uv : Rat
  /-- v(n) of the rest point, V. -/
  v : Rat
  temp : Rat
  c : Rat
  t : Nat
deriving DecidableEq, Repr

/-- Learned state of one cell (R176, R177). -/
structure CellSt where
  s : Option Rat
  u : Rat
  h : Rat
  q : Rat
  rho : Rat
  c : Rat
  unanchored : Bool
  /-- Voltage of the last second, for counting and for rest points (R168). -/
  v : Option Rat
  vRest : Option Rat
  vAt : Nat
  /-- v for rest points of the last 300 s, newest first. -/
  vHist : List (Option Rat)
  p1 : Option LearnPt
  /-- No refusing condition has occurred since P1. -/
  pairOk : Bool
  temp : Rat
  tsub : Bool
  tclamp : Bool
  diverge : Bool
  weak : Bool
  strong : Bool
  /-- Compensated voltage of the last second (R180), and I_n of the latest block, A. -/
  vComp : Option Rat
  iN : Rat
  /-- INVALID of R195. -/
  inv : Bool
  /-- Debt of R217, Ah. -/
  debt : Rat
deriving DecidableEq, Repr

/-- A slot of the learned state in hub MRAM (R187). -/
structure StateSlot where
  seq : Nat
  cells : List CellSt
  identity : Option Nat
  pattern : Nat
  charge : Rat
  wires : List WireEst
  rests : List (List Rat)
  /-- Instant of the write. -/
  at_ : Nat
  /-- The slot's CRC-32C holds; it does not when power was lost during the write. -/
  ok : Bool
deriving DecidableEq, Repr

/-- Estimator state of a die's group. -/
structure EstState where
  cells : List CellSt
  lastI : Option Rat
  lastDq : Rat
  lastT0 : Nat
  missRun : Nat
  countLost : Bool
  /-- Since when |I| has stayed at or below REST_I; start of the rest period; last rest point. -/
  quietAt : Option Nat
  restAt : Option Nat
  lastRest : Option Nat
  eod : Bool
  eoc : Bool
  eodSince : Option Nat
  eocSince : Option Nat
  /-- Since when current has opposed each of the two declarations (R182). -/
  eodOpp : Option Nat
  eocOpp : Option Nat
  holdLow : Bool
  holdHigh : Bool
  /-- A_GROUP and R_GROUP of the last second; none while no valid cell has given one (R181, R195). -/
  aGroup : Option Rat
  rGroup : Option Rat
  socGroup : Rat
  learnCount : Nat
  swapCount : Nat
  lastLearn : Nat
  identity : Option Nat
  pattern : Nat
  patternGone : Bool
  swapRun : Nat
  slots : List StateSlot
  onHub : Bool
  moved : Bool
  /-- Charge-block boundary at which swapped fields take effect (R193, R196). -/
  swapAt : Option Nat
  /-- Last admitted mean of the stack words, V (R441). -/
  vStack : Option Rat
deriving DecidableEq, Repr

/-! ### Protection and balancing (R199 to R228) -/

/-- One comparator (R202). -/
structure Comp where
  tripped : Bool
  /-- Run of samples beyond the trip level, and of samples on the safe side of the release level. -/
  runTrip : Nat
  runClear : Nat
  /-- Samples taken since AON-C power-up, up to 3, while it has not yet cleared (R203). -/
  startCount : Nat
  starting : Bool
  /-- SEQ of its last fault notice. -/
  seq : Nat
deriving DecidableEq, Repr

/-- One balance channel (R210, R213). -/
structure Chan where
  /-- The scheduler holds it on for this step. -/
  sched : Bool
  /-- Off for the rest of the step after an over-current. -/
  stepOff : Bool
  ocSteps : Nat
  /-- It ended this step by over-current. -/
  ocHit : Bool
  heldOff : Bool
  /-- Charge removed in the step, Ah. -/
  removed : Rat
  need : Rat
  /-- Remaining target, Ah (R214). -/
  target : Rat
  onMs : Rat
  /-- Charge removed in the record interval, As. -/
  mas : Rat
  /-- Charge removed by 100 ms interval of pack time, newest first, Ah (q_bal of R176). -/
  qBal : List (Nat × Rat)
  /-- Mean on-current of the last step, A (R212), and on-time within the step, ms. -/
  iOn : Rat
  stepMs : Rat
  /-- Instant up to which on-time has been counted, and on-time whose charge has not (R212, R228), ns. -/
  markAt : Nat
  onNs : Nat
  inj : Bool
  onSince : Nat
  conducting : Bool
  /-- Spans in which it conducted of late, newest first, as far back as an impulse reaches (R61, R65). -/
  spans : List (Nat × Nat)
  /-- BAL_TGTn of this cell written since the last swap (R214). -/
  tgtWritten : Bool
deriving DecidableEq, Repr

/-- Protection and balancing of a die (R199 to R228). -/
structure ProtState where
  ov : List Comp
  uv : List Comp
  aonOn : Bool
  lastTick : Nat
  /-- Every enabled comparator has cleared since AON-C power-up (R203). -/
  ready : Bool
  /-- Notices sent since AON-C power-up. -/
  noticeSeq : Nat
  /-- Notices on their way to the hub: side (towards C1 or Cn) and bytes (R19). -/
  notices : List (Side × List Byte)
  /-- KIND 0x03 faults per DAC: readback fault, sweep fault, fail run, pass run (R207). -/
  rbFault : List Bool
  swFault : List Bool
  rbFail : List Nat
  rbErr : List Int
  rbPass : List Nat
  chans : List Chan
  cap : Nat
  /-- Channels selected for the step, in the order of R214. -/
  order : List Nat
  derateT : Bool
  derateGov : Bool
  timeout : Bool
  /-- The event of R218 has been raised for the present timeout. -/
  timeoutRaised : Bool
  /-- Last keep-alive received; one is on its way from the hub. -/
  keepAt : Nat
  kaDue : Bool
  /-- Hub charge drawn from this group since reset, Ah (R217). -/
  hubQ : Rat
  /-- Wires with a confirmed break, and when each was last checked. -/
  wire : Nat
  wireAt : List (Nat × Nat)
  /-- Wires suspected, oldest first, and the next wire of the sweep. -/
  suspect : List Nat
  sweepNext : Nat
  /-- The open-wire check in progress: its wire, and when its first conversion began (R221, R222). -/
  owRun : Option (Nat × Nat)
  /-- The balance monitor's last sample, at a precision sample or a hold (R212). -/
  monAt : Nat
  /-- Seconds in which VSTK disagreed after an unconfirmed check of wire 24 (R223). -/
  vstkRun : Nat
  vstkArmed : Bool
  protOnly : Bool
  /-- Instant of the last wire of the periodic sweep (R220). -/
  lastSweep : Nat
  /-- Per DAC, the whole 10 s whose readback is done, and a readback that a commit asks for (R207). -/
  rbDone : List Nat
  rbAsked : List Bool
  /-- Boundary of R46 after which a tick takes the swapped fields (R209). -/
  swapAt : Option Nat
deriving DecidableEq, Repr

/-- A cell die. -/
structure Die where
  prec : PrecState
  fast : FastState
  seq : SeqState
  cal : CalState
  imp : ImpState
  est : EstState
  prot : ProtState
  /-- Domains PREC, FAST and DSP (R404). -/
  precOn : Bool
  fastOn : Bool
  dspOn : Bool
  /-- The hub has declared the die lost (R18). -/
  lost : Bool
  /-- Overheated under R483. -/
  hot : Bool
  /-- TQ of the die's time (R52, R280). -/
  tq : Nat
  lastWord : Nat
  /-- Records held in T0 for the hub, and records dropped there (R494). -/
  t0 : List (Nat × Nat × List Byte)
  t0Drop : Nat
  /-- Events raised while the hub could not take them, each with the number of records of `t0` before it (R494). -/
  t0Events : List (Nat × List Nat × List Byte)
  /-- The oldest of them has failed its check once (R472). -/
  t0Retry : Bool
  /-- Tasks moving at their next boundary (R309): 1 impedance or 2 estimator, REASON and VALUE of R314. -/
  movePend : List (Nat × Nat × Int)
  /-- Instants of the last moves of the two tasks; their measured loads, of the cluster and of the die, once they have run
  on the hub (R308). -/
  movedAt : List Nat
  costs : List (Option (Rat × Rat))
  busyRun : Nat
  /-- Since when the conditions of a calm die hold for each task. -/
  calmSince : List (Option Nat)
deriving DecidableEq, Repr

end Sys2Proof.Machine
end

