-- ==== Sys2Proof/Machine/StateHub.lean ====
section
/-! DEFINITION. State of the hub: configuration sets, Locus, the host interface and the Laleset link
(chapters 10 to 13). Plain data. -/

namespace Sys2Proof.Machine

/-! ### Configuration sets (R353 to R363) -/

/-- A commit that is pending (R356, R358, R359). -/
structure PendCommit where
  cmd : Cmd
  received : Nat
  tCommit : Nat
  group : Bool
  /-- B has been checked and is valid. -/
  checked : Bool
  /-- GO is held (R359). -/
  go : Bool
deriving DecidableEq, Repr

/-- A prepare that the gateway runs for a broadcast COMMIT with GROUP (R359). -/
structure GroupRun where
  cmd : Cmd
  tCommit : Nat
  /-- Positions that returned PREPARED. -/
  prepared : List Nat
deriving DecidableEq, Repr

/-- The CONFIG region and its status (R353 to R363). -/
structure CfgState where
  /-- Active set A. -/
  a : List Host.Cell
  /-- Shadow set B, as written; "write 0, read 0" bits are kept for the check of R356. -/
  b : List Host.Cell
  /-- The fields in force: A as far as each block's effect point has been reached (R353, last column). -/
  f : List Host.Cell
  /-- CFG_EPOCH of R356, 16 bits. -/
  epoch : Nat
  /-- SHADOW_TORN of R355, kept in MRAM. -/
  torn : Bool
  pend : Option PendCommit
  group : Option GroupRun
  /-- The copy of the new A into B after a swap is running (R356). -/
  copying : Bool
  /-- SHADOW_WRITEs fetched during the copy, in order. -/
  waiting : List (Cmd × List Byte)
  /-- The two slots of the selector word, older first: sequence number, instant of writing, and whether its CRC-32C holds (R356). -/
  selector : List (Nat × Nat × Bool)
  /-- The set that was active before the last swap, until the copy after it has ended. -/
  before : List Host.Cell
  /-- BALANCE_POLICY commands whose fields are not yet in force on the dies listed (R348, R361). -/
  policies : List (Cmd × List Nat)
deriving DecidableEq, Repr

/-! ### Locus (R288 to R318) -/

/-- Where a record is held (R288). -/
inductive Tier where
  | stage      -- T2, LOCUS_STAGE
  | buffer     -- T1, record buffer
  | capture    -- T1, capture buffer
  | t3         -- own storage die
  | t5         -- storage die of the holder
deriving DecidableEq, Repr

/-- A record that Locus holds (R290 to R292). -/
structure Rec where
  /-- Order of arrival at the hub. -/
  id : Nat
  /-- Data class 0 to 3 (R290). -/
  cls : Nat
  recType : Nat
  /-- Island or port of its stream; 0 for the part (R291). -/
  src : Nat
  /-- Identity of the source part of a spilled record; 0 for one of this part. -/
  owner : Nat
  /-- Time stamp of the record. -/
  time : Nat
  /-- Pack time of its arrival, from which retention runs. -/
  arrived : Nat
  bytes : List Byte
  tier : Tier
  /-- Blocks that hold it once programmed (R299: two for D0), and the copies that are whole; of a record in T5 the position of
  the part that holds it. -/
  blocks : List Nat
  copies : Nat
  /-- In an open or closing unit of the writer. -/
  inUnit : Bool
  /-- Subscriptions that claim it and whose ring head has not passed it (R292). -/
  claims : List Nat
  /-- A D0 record delivered to the event queue (R293). -/
  delivered : Bool
deriving DecidableEq, Repr

/-- A unit of the storage die as it has been programmed (R298): its block, its header with the group and the first record's
stream and time, the records that end in it, and whether its CRC-32C holds. -/
structure StoreUnit where
  block : Nat
  group : Nat
  recType : Nat
  src : Nat
  time : Nat
  ids : List Nat
  /-- Instant at which its program ended. -/
  at_ : Nat
  ok : Bool
deriving DecidableEq, Repr

/-- A STORE_READ that waits for what the holders of T5 keep (R305): what it found lost here, the holders that have not answered,
and the records that the others gave back, by time. -/
structure HolderRead where
  cmd : Cmd
  lost : List Nat
  waits : List Nat
  got : List (Nat × List Byte)
deriving DecidableEq, Repr

/-- An open unit of the writer (R294, R295): group 0 is D0-D1, 1 is D2, 2 is D3. -/
structure OpenUnit where
  group : Nat
  /-- Records that end in it, and those that go on in the next unit of the group. -/
  ids : List Nat
  parts : List Nat
  bytes : Nat
  firstAt : Nat
deriving DecidableEq, Repr

/-- A block of the storage die that differs from a fresh one (R298, R300, R303). -/
structure Blk where
  idx : Nat
  erases : Nat
  /-- Units programmed since the last erase, 0 to 64. -/
  used : Nat
  /-- Thermal age A, hours. -/
  age : Rat
  retired : Bool
  /-- A refresh-overdue record has been raised. -/
  overdue : Bool
deriving DecidableEq, Repr

/-- State of Locus. -/
structure LocusState where
  recs : List Rec
  nextId : Nat
  /-- Open units, at most one of each group. -/
  units : List OpenUnit
  /-- Closed units waiting for the storage die; the head is being programmed. -/
  progQ : List OpenUnit
  blocks : List Blk
  /-- Thermal age of every block that `blocks` does not list. -/
  ageRest : Rat
  /-- Bytes of credit (R300), signed. -/
  bucket : Int
  bucketEmpty : Bool
  /-- Bytes accrued at a level of 0 or below that the writer has not yet spent (R301). -/
  credit : Int
  cold : Bool
  /-- The head of `progQ` is being programmed into this block. -/
  busy : Option Nat
  /-- Units that the storage die holds, oldest first. -/
  stored : List StoreUnit
  /-- Instant of the last entry written to LOCUS_DIR (R289, R311, R313). -/
  dirAt : Nat
  /-- A refresh-overdue record has been raised for the blocks that `blocks` does not list. -/
  restOverdue : Bool
  /-- STORE_READ commands that wait for a holder. -/
  reads : List HolderRead
  t3Fail : Bool
  /-- Storage-die temperature last read, 0.01 °C, and when. -/
  temp : Int
  tempAt : Nat
  /-- Drops in the present run of each class D1 to D3 (R294); none outside a run. -/
  dropRun : List (Option Nat)
  /-- LOCUS_DROP_D1 to D3 (R318). -/
  drops : List Nat
  evictions : Nat
  refreshed : Nat
  /-- Position of the spill holder (R305). -/
  holder : Option Nat
  /-- An enumeration has ended, so that the holder is chosen anew; since when no path leads to it. -/
  holderDue : Bool
  cutAt : Option Nat
  refusals : Nat
  /-- The hot condition or the governor reduced the cluster clock (R307, R482). -/
  clusterDerated : Bool
deriving DecidableEq, Repr

/-! ### Host interface of a gateway (R319 to R347) -/

/-- One queue or ring: its registers as written, its pointers and its signalling. -/
structure Queue where
  baseLo : Nat
  baseHi : Nat
  cfg : Nat
  /-- The part's own pointer: HEAD of an SQ, TAIL of the others. -/
  ptr : Nat
  /-- The host's pointer as last read from the doorbell page. -/
  host : Nat
  err : Nat
  phase : Bool
  active : Bool
  /-- Entries written to a stream ring since it was enabled (ENTRY_SEQ). -/
  seq : Nat
  /-- Time of the first entry not yet signalled (R343). -/
  unsignalled : Option Nat
  /-- SQ: instant since when its next descriptor has been there to read. -/
  readAt : Nat
deriving DecidableEq, Repr

/-- A command between its fetch and the writing of its completion (R332). -/
structure InFlight where
  cmd : Cmd
  fetched : Nat
  /-- TIMEOUT in force, ms (R329, R348). -/
  timeoutMs : Nat
  /-- CQ of its SQ at its fetch (R323). -/
  cq : Nat
  /-- Its list or its in-buffer has not been read whole: it does not start (R330). -/
  reading : Bool
  /-- Address and length of its list; 0 without LIST. -/
  listAt : Nat × Nat
  /-- Executing at the gateway, or sent to its part. -/
  started : Bool
  /-- The gateway itself has executed it. -/
  ran : Bool
  /-- Its completion waits for room in the CQ, or has been formed. -/
  completed : Bool
  /-- Buffer ranges (address, length) of R330. -/
  ranges : List (Nat × Nat)
  /-- Statuses returned so far for a broadcast: position and code (R337). -/
  votes : List (Nat × Nat)
  /-- Bytes of its buffer that travel with it to another part. -/
  data : List Byte
deriving DecidableEq, Repr

/-- A completion waiting at the gateway for its CQ (R335, R336). -/
structure ComplWait where
  cq : Nat
  sq : Nat
  cid : Nat
  gen : Nat
  origin : Nat
  result : Nat
  xfer : Nat
  status : Nat
deriving DecidableEq, Repr

/-- An event entry waiting for the event queue (R341). -/
structure EvWait where
  bytes : List Byte
  since : Nat
  /-- Record of Locus that holds it; none for the event of another part. -/
  ref : Option Nat
deriving DecidableEq, Repr

/-- An open subscription (R362, STREAM_OPEN). -/
structure Sub where
  sub : Nat
  ring : Nat
  /-- The stream, named by the identity of the source part, REC_TYPE and island or port (R291). -/
  ident : Nat
  recType : Nat
  src : Nat
  decim : Nat
  tFrom : Nat
  /-- Records of the stream seen since the first claimable one. -/
  count : Nat
  /-- Records skipped or dropped since the previous entry (SKIPPED). -/
  skipped : Nat
  /-- The STREAM_CLOSE that ends it: nothing more is claimed, and it completes once nothing more will be written (R348). -/
  closing : Option Cmd
deriving DecidableEq, Repr

/-- A claimed record waiting for its ring, or written and not yet consumed (R292, R296, R340). -/
structure StrWait where
  sub : Nat
  ring : Nat
  cls : Nat
  recType : Nat
  src : Nat
  pos : Nat
  bytes : List Byte
  /-- Record of Locus it stands for; none for one of another part. -/
  ref : Option Nat
  /-- Offset in the ring at which its written entry ends; none while it waits. -/
  writtenEnd : Option Nat
deriving DecidableEq, Repr

/-- Registers of BAR0, MSI-X and the queues' service (R322 to R347). -/
structure HifState where
  /-- HIF_CTRL: DB_POLL_US, SHUTDOWN, EN. -/
  pollUs : Nat
  shutdown : Bool
  en : Bool
  ready : Bool
  fatal : Bool
  fatalCode : Nat
  shutDone : Bool
  lateCompl : Nat
  eqDelayed : Nat
  dbLo : Nat
  dbHi : Nat
  eq : Queue
  sq : List Queue
  cq : List Queue
  str : List Queue
  /-- MSI-X table of BAR2: low address, high address and data of each vector (R319). -/
  msix : List (Nat × Nat × Nat)
  /-- MSI-X vectors masked, and with their pending bit set (R343). -/
  masked : List Nat
  pendingVec : List Nat
  /-- A doorbell page read is in progress; a further one is owed (R328). -/
  dbReading : Bool
  dbAgain : Bool
  /-- Start of the last doorbell page read (R327). -/
  lastPoll : Nat
  inflight : List InFlight
  cqWait : List ComplWait
  eqWait : List EvWait
  subs : List Sub
  strWait : List StrWait
  /-- Weighted round robin: the SQ whose turn it is and the descriptors left in its turn. -/
  rrSq : Nat
  rrLeft : Nat
  /-- Delayed event entries since the last report (source 47). -/
  delayedMinute : Nat
  /-- Completions that are still to come for commands of before a HIF reset, by SQ, CID and fetch number (R321). -/
  orphans : List (Nat × Nat × Nat)
  /-- Number of the next fetch. -/
  fetchNo : Nat
  /-- Positions whose part has been commanded to SLEEP (2) or SHIP (3) and has completed it (R351). -/
  asleep : List (Nat × Nat)
deriving DecidableEq, Repr

/-! ### The Laleset link (R249 to R287) -/

/-- State of a hop at this end (R262). -/
inductive HopSt where
  | down
  | training
  | up
deriving DecidableEq, Repr

/-- A frame of R256 in clear, as it is handed between steps. -/
structure Frame where
  tc : Nat
  kind : Nat
  dst : Nat
  origin : Nat
  /-- FLAGS: [7] FIRST_SEG, [6] LAST_SEG, [5] DUAL, [4] REVERSED. -/
  flags : Nat
  mseq : Nat
  payload : List Byte
deriving DecidableEq, Repr

/-- A frame on a hop: its sequence, its counter and the bytes that are sent, unchanged at each attempt. -/
structure TxFrame where
  frame : Frame
  lseq : Nat
  bytes : List Byte
  attempts : Nat
  /-- End of the last transmission. -/
  sentAt : Nat
deriving DecidableEq, Repr

/-- Keys of a hop in this part's directions (R277). -/
structure HopKeys where
  txKey : List Byte
  txSalt : List Byte
  rxKey : List Byte
  rxSalt : List Byte
deriving DecidableEq, Repr

/-- Receive state of one traffic class on one hop (R254, R260). -/
structure RxClass where
  /-- Bytes of the frame in progress. -/
  part : List Byte
  inFrame : Bool
  /-- The next LSEQ to deliver; every earlier one has been received. -/
  next : Nat
  /-- Frames received beyond a gap. -/
  held : List (Nat × Frame)
deriving DecidableEq, Repr

/-- Transmit state of one traffic class on one hop (R255, R259, R260). -/
structure TxClass where
  /-- Frames waiting for their first transmission. -/
  queue : List Frame
  /-- The frame being sent and the bytes of it already sent. -/
  cur : Option (TxFrame × Nat)
  /-- Frames due to be sent again, oldest first. -/
  again : List TxFrame
  unacked : List TxFrame
  /-- The next LSEQ. -/
  lseq : Nat
deriving DecidableEq, Repr

/-- The keys that an exchange in service replaces (R278): they seal until this end's counters reach the values that it has
named, and open what the peer has sealed below the values that the peer has named. -/
structure OldKeys where
  keys : HopKeys
  ctr : Nat
  cctr : Nat
  txCtr : Nat
  txCctr : Nat
  rxCtr : Nat
  rxCctr : Nat
  rxCtrTop : Nat
  rxCtrSeen : List Nat
  rxCctrTop : Nat
  rxCctrSeen : List Nat
deriving DecidableEq, Repr

/-- A keying exchange in progress (R277). -/
structure Keying where
  /-- This end's ephemeral private key and its public key. -/
  priv : Nat
  pub : List Byte
  tSent : Nat
  /-- The peer's offer, once it has come. -/
  peer : List Byte
  /-- An in-service exchange under the old keys, and the counters of frames and control codewords at which this end switches
  (R278). -/
  rekey : Bool
  named : Nat × Nat
deriving DecidableEq, Repr

/-- One radio port and its hop. -/
structure Port where
  st : HopSt
  /-- Routing treats the hop as DOWN until it has been UP long enough (R262). -/
  held : Bool
  /-- The next UP is used for routing at once (first UP after keying at enumeration or after a reset). -/
  useAtOnce : Bool
  upSince : Nat
  lastUncorr : Nat
  lastCodeword : Nat
  channel : Nat
  qpsk : Bool
  txPwr : Int
  /-- Margin over the threshold of the mode in force, 0.25 dB per LSB. -/
  margin : Int
  /-- Since when the margin of a 16-QAM hop has stayed below 2 dB at maximum power (R253). -/
  lowSince : Option Nat
  /-- The present training has chosen its mode (R253). -/
  trained : Bool
  /-- Start of the last training, and whether the next one may begin at once (R262). -/
  trainAt : Nat
  trainFree : Bool
  /-- Channel that the next training takes: the one of enumeration on which the hop is keyed, or the one it is then given (R263). -/
  retune : Option Nat
  /-- The part has answered a DISCOVER on this port and waits to be keyed (R263). -/
  answered : Bool
  /-- Power is adjusted no more before this instant (R252). -/
  apcAt : Nat
  keys : Option HopKeys
  old : Option OldKeys
  /-- Transmit and receive chain delays of the peer, 1/16 ns, as it passed them on during keying (R273). -/
  peerDelays : Nat × Nat
  keying : Option Keying
  ctr : Nat
  cctr : Nat
  rxCtrTop : Nat
  rxCtrSeen : List Nat
  rxCctrTop : Nat
  rxCctrSeen : List Nat
  tagRun : Nat
  rx : List RxClass
  tx : List TxClass
  /-- A control codeword is due. -/
  ctlDue : Bool
  lastCtl : Nat
  /-- Control codewords sent, by CCTR, with their T_TX, newest first (R273). -/
  ctlSent : List (Nat × Nat)
  /-- Arrival instant and CCTR of the last control codeword received (R258). -/
  ctlRx : Nat × Nat
  /-- Last 256 hop delays, 1/16 ns, newest first. -/
  delays : List Rat
  cwUncorr : Nat
  tc0Third : Nat
  tagFail : Nat
  /-- When TC0 third attempts were made in the last second, newest first (R271). -/
  thirds : List Nat
  scrTx : Nat
  scrRx : Nat
  /-- The receiver has its codeword alignment, and the descrambled bits it has not yet taken as a codeword (R251). -/
  aligned : Bool
  rxBits : List Bool
  /-- TX_PWR_MAX, APC_EN and QPSK_EN as the last training took them (R285). -/
  txMax : Int
  apcEn : Bool
  qpskEn : Bool
  /-- Identity of the neighbour stored in MRAM (R266). -/
  neighbour : Option Nat
  /-- An orientation event has been raised (R263). -/
  orientRaised : Bool
  /-- In SLEEP: the hop was UP at entry, so the port listens; start of its last listen window (R279). -/
  listens : Bool
  listenAt : Nat
deriving DecidableEq, Repr

/-- Receive state of one flow at its destination (R269). -/
structure FlowRx where
  origin : Nat
  tc : Nat
  /-- Destination position of the flow; 63 for broadcast. -/
  flow : Nat
  /-- MSEQ values of the last 256 frames consumed, newest first. -/
  seen : List Nat
  next : Nat
  /-- Frames held behind a gap: since when, the port they came by where it is known, and the frame. -/
  held : List (Nat × Option Side × Frame)
  /-- MSEQ of the record whose later segments are still to come, and the port that its copy comes by (R256). -/
  open_ : Option (Nat × Option Side)
deriving DecidableEq, Repr

/-- This part's share of a running enumeration (R263). -/
structure Frontier where
  /-- It keys the hop to the gateway's UP port, which closes the ring. -/
  closing : Bool
  round : Nat
  startedAt : Nat
  answers : List (List Byte)
deriving DecidableEq, Repr

/-- Link, position and pack-time discipline. -/
structure LinkState where
  up : Port
  dn : Port
  position : Option Nat
  parts : Nat
  ringClosed : Bool
  /-- ENUM_STATE of R287. -/
  enumState : Nat
  /-- Chain identity held in MRAM (R264). -/
  chainId : Option Nat
  /-- Position, PARTS and RING_CLOSED held in MRAM, taken up once a hop is keyed after a reset (R266). -/
  stored : Option (Nat × Nat × Bool)
  /-- Chain identity and frontier's position of the DISCOVER answered last (R263). -/
  heard : Option (Nat × Nat)
  frontier : Option Frontier
  /-- The gateway's link block as it travels with the enumeration, and the command that asked for it. -/
  plan : List Byte
  enumCmd : Option Cmd
  /-- Hops recorded as DOWN from link-state notices (R262). -/
  downHops : List Nat
  noRoute : Nat
  mseqGap : Nat
  /-- MSEQ of each own flow: class, destination, next value. -/
  flowsTx : List (Nat × Nat × Nat)
  flowsRx : List FlowRx
  /-- Broadcasts already forwarded: origin, class, MSEQ and the port that the forwarded copy came by, newest first (R269). -/
  forwarded : List (Nat × Nat × Nat × Side)
  /-- Frames originated before a position is held. -/
  unrouted : List (Nat × Nat × Nat × List Byte)
  /-- Segments of a longer record received so far: origin, class, MSEQ with 65,536 added for a broadcast, bytes (R256). -/
  asm : List (Nat × Nat × Nat × List Byte)
  /-- Frames delivered by a port to the part, oldest first. -/
  inbox : List (Side × Frame)
  /-- TQ of R275. -/
  tq : Nat
  everLocked : Bool
  lastBeacon : Nat
  lastTOrigin : Nat
  lastHops : Nat
  /-- Consecutive beacons with an offset within ±20 ns, and how many there were before the last beacon. -/
  lockRun : Nat
  lockBase : Nat
  /-- A step of pack time that is due: the output-sample boundary at which it is made, its size in ns, and the cell dies whose
  sample at that boundary is still to come (R275). -/
  stepDue : Option (Nat × Int × List Nat)
  /-- Last servo offset, ns. -/
  ofs : Int
  /-- Offset being slewed, ns (R275). -/
  slew : Rat
  /-- EPOCH of R272. -/
  epoch : Nat
  /-- Two slots of committed pack time, with their sequence numbers and whether their CRC-32C holds (R272). -/
  packSlots : List (Nat × Nat × Bool)
  /-- The first time beacon is held back until this instant or until both hops are keyed (R272). -/
  beaconHold : Option Nat
  /-- Identities of the parts by position, as the reports of the running or last enumeration named them. -/
  idents : List (Nat × Nat)
  /-- A long beacon is to be sent from this port once the radio is up (R279). -/
  relay : Option Side
deriving DecidableEq, Repr

end Sys2Proof.Machine
end

