-- ==== Sys2Proof/Machine/StateSys.lean ====
section
/-! DEFINITION. State of the rest of the hub: SYNC_IN, the single-wire ports, safety, power, trust, self-test
and the thermal governor (chapters 3, 9 and 14 to 18). Plain data. -/

namespace Sys2Proof.Machine

/-- SYNC_IN of a gateway (R80, R81, R96). -/
structure SyncState where
  /-- The qualified level; none before the first edge of the pad. -/
  level : Option Bool
  since : Nat
  /-- Instant of the last accepted edge. -/
  lastEdge : Option Nat
  rejected : Nat
  period : Nat
  /-- Arm instants of other parts that no beacon has answered yet. -/
  armed : List Nat
deriving DecidableEq, Repr

/-! ### Single-wire ports (R229 to R248) -/

/-- One slot of a port's table (R237 to R240). -/
structure Slot where
  /-- The slot has been assigned at some time. -/
  used : Bool
  number : Nat
  present : Bool
  /-- Order of dropping, for reuse. -/
  droppedAt : Nat
  misses : Nat
  /-- Last good frame: there has been one since the restart; VALUE as its four bytes; SSTAT; SEQ. -/
  seen : Bool
  value : Nat
  sstat : Nat
  seq : Nat
  /-- In the present cycle: missed, a sequence gap, dropped. -/
  missed : Bool
  seqGap : Bool
  droppedNow : Bool
  /-- The slot has been read in the present cycle (R238). -/
  read : Bool
deriving DecidableEq, Repr

/-- One port OW1 or OW2. -/
structure SwpPort where
  slots : List Slot
  restarts : Nat
  overflow : Nat
  /-- PORT_STATE of R248: 0 off, 1 searching, 2 streaming, 3 stopped by SHORT. -/
  st : Nat
  unstable : Bool
  short : Bool
  shortAt : Nat
  /-- A SEARCH_NEW waits for the end of the cycle. -/
  pendSearch : Bool
  /-- Search in progress: 0 none, 1 SEARCH_NEW, 2 SEARCH_ALL. -/
  searching : Nat
  /-- SENSOR_SEARCH commands whose search waits, and those that the running search answers. -/
  cmds : List Cmd
  runs : List Cmd
  tSync : Nat
  /-- A stream cycle is in progress. -/
  inCycle : Bool
  dropNo : Nat
deriving DecidableEq, Repr

/-! ### Safety (R364 to R391) -/

/-- The filter of one channel pad (R368, R374): the filtered level, whether one has formed since power-up, and
since when every admitted sample shows the other level. -/
structure SafeChan where
  level : Bool
  formed : Bool
  cand : Option (Bool × Nat)
deriving DecidableEq, Repr

/-- One safety input (R366 to R370). -/
structure SafeIn where
  a : SafeChan
  b : SafeChan
  /-- Milliseconds counted in the present disagreement. -/
  discMs : Nat
  /-- The present disagreement has latched. -/
  latched : Bool
  /-- Both channels must be seen in demand before a release (R377). -/
  needDemand : Bool
deriving DecidableEq, Repr

/-- One test of R370: the pulse being observed, what its samples showed, the runs and the standing fault. -/
structure PulseTest where
  pulse : Option Nat
  low : Bool
  bad : Bool
  fails : Nat
  passes : Nat
  standing : Bool
deriving DecidableEq, Repr

/-- One safety output and its feedback (R371 to R375). -/
structure SafeOut where
  on : Bool
  since : Nat
  /-- It has been switched since the part left reset. -/
  switched : Bool
  /-- Economy switching runs, with this duty in percent (R373). -/
  econ : Bool
  duty : Rat
  /-- The request bit has been seen 0 (R365). -/
  edge : Bool
  overcurrent : Bool
  openLoad : Bool
  fb : SafeChan
  /-- The feedback has shown the expected state since the output last changed, and since when it does not. -/
  confirmed : Bool
  wrongSince : Option Nat
deriving DecidableEq, Repr

/-- What the gateway holds of one position (R382, R385). -/
structure WatchPos where
  armed : Bool
  failed : Bool
  lastAt : Nat
  lastSeq : Option Nat
  /-- SSTATE of the newest valid frame, and KIND when it is a fault frame. -/
  sstate : Nat
  kind : Nat
  /-- Instants of the frame errors of the last second, newest first. -/
  errAt : List Nat
deriving DecidableEq, Repr

/-- The safety layer. -/
structure SafeState where
  ins : List SafeIn
  outs : List SafeOut
  req : Nat
  /-- Tests of R370: own pulse of channels SIA1 to SIA4 and SIB1 to SIB4, pulse of the other output likewise,
  pads TPA and TPB. -/
  tests : List PulseTest
  /-- Pulses of TPA and TPB in progress: end of each. -/
  pulseEnd : List (Option Nat)
  lockout : Bool
  persisted : Bool
  loCause : Nat
  loTime : Nat
  /-- MRAM slots (R376): sequence number, cause plus one or 0 when released, time. -/
  loSlots : List (Nat × Nat × Nat)
  /-- LORST_STATE of R391, ticks high so far, ticks of the present low. -/
  lorstState : Nat
  lorstHigh : Nat
  lorstLow : Nat
  watch : List WatchPos
  discCount : Nat
  frameErr : Nat
  hostOk : Bool
  hostSeq : Option Nat
  hostAt : Nat
  hostFails : Nat
  /-- Module part: GW_OK, instant and SEQ of the newest valid gateway heartbeat (R383). -/
  gwOk : Bool
  gwAt : Nat
  gwSeq : Option Nat
  /-- Frames sent on this part's connection (R381). -/
  sfSeq : Nat
  /-- The FAULT heartbeat runs; it has run since power-up; a fault has been reported since the condition of
  R205 last held. -/
  heartbeat : Bool
  heartRan : Bool
  reported : Bool
  /-- Fault notices acted on whose second copy is still to come: die and SEQ (R19). -/
  acted : List (Nat × Nat)
deriving DecidableEq, Repr

/-! ### Power (R392 to R423) -/

/-- State of a rail (R397 to R408). -/
structure Rail where
  /-- 0 off, 1 ramping, 2 up, 3 discharging, 4 faulted. -/
  st : Nat
  retried : Bool
  faultAt : Nat
  uv : Nat
  ov : Nat
  oc : Nat
  tmo : Nat
deriving DecidableEq, Repr

/-- Power block. -/
structure PowerState where
  /-- 0 RUN, 1 DOZE, 2 SLEEP, 3 SHIP, 4 OFF. -/
  st : Nat
  /-- The last state before OFF (R200). -/
  lastSt : Nat
  dozeTgt : Bool
  src : Nat
  vauxOk : Bool
  vinOk : Bool
  vAux : Nat
  vHv : Nat
  pIn : Nat
  vHold : Nat
  holdOk : Bool
  holdReported : Bool
  /-- HOLD_OK has set, or its timeout has been reported, since VSYS came into regulation (R402). -/
  holdDone : Bool
  rstIgnored : Bool
  rstHeld : Bool
  rstAt : Nat
  holdEff : Nat
  lastReset : Nat
  lastWake : Nat
  rails : List Rail
  /-- 0 none, 1 going up, 2 going down. -/
  seqDir : Nat
  /-- Target of the down sequence: 0 none, 1 a restart, 2 SLEEP, 3 SHIP, 4 OFF. -/
  seqTo : Nat
  seqRail : Nat
  attempts : Nat
  retryAt : Option Nat
  /-- Timed shutdown: the warning's instant, and the end of the off time. -/
  warnAt : Option Nat
  restartAt : Option Nat
  restartIdx : Nat
  shipMark : Bool
  idleSince : Nat
  sleepAt : Nat
  upAt : Nat
  copies : List (Nat × Nat × Nat × Nat)
  hubCharge : Rat
  /-- Last keep-alive sent to the cell dies (R218). -/
  kaAt : Option Nat
  /-- What the next start of the hub comes from: 0 OFF, 1 RST_N, 2 RST_N stuck, 3 a wake, 4 cooling of the hub. -/
  startBy : Nat
  /-- ITEM of a power-fail warning that has been raised (R410), and the last one that a rail fault raised (R412). -/
  warnItem : Option Nat
  lastTrip : Option Nat
  /-- RUN time at the last hourly copy of the counters (R399). -/
  copyRun : Nat
  /-- End of the last down sequence (R409). -/
  downAt : Nat
  /-- A timed shutdown is to be reported at the next start (R412). -/
  timed : Bool
  /-- A wake source has come while the part is on its way down (R416, R407). -/
  wakePend : Bool
  /-- SLEEP or SHIP to enter once the completion of its command is written (R417). -/
  entryPend : Option Nat
  /-- The entry that waits was commanded by a broadcast: the other parts are told when the gateway enters (R417). -/
  entryCast : Bool
  /-- Rail faults, by rail and kind, that wait for the end of a slice of the supervisors (R461). -/
  heldFaults : List (Nat × Nat)
  /-- Instant at which VSYS came into regulation (R402). -/
  vsysAt : Nat
  /-- End of the last charge-block interval whose hub charge has been passed on (R396). -/
  hubT : Nat
  /-- Start of the SLEEP or SHIP for which the counters' uncertainty has grown (R177). -/
  agedFor : Option Nat
deriving DecidableEq, Repr

/-! ### Trust (R424 to R458) -/

/-- A black-box record held in the two copies (R451 to R453). -/
structure BbRec where
  seq : Nat
  /-- It stands in the KEEP area; else in the ROLL area. -/
  keep : Bool
  bytes : List Byte
  okA : Bool
  okB : Bool
deriving DecidableEq, Repr

/-- A slot of the meter in STATE (R443): counters, GAP_COUNT, COMMIT_LOST and VSUBST, end of the last block. -/
structure MeterSlot where
  counters : List Rat
  gap : Nat
  lost : Nat
  vSubst : Nat
  tLast : Nat
  seq : Nat
  warn : Bool
  /-- Instant of the write. -/
  at_ : Nat
  /-- The slot's CRC-32C holds. -/
  ok : Bool
deriving DecidableEq, Repr

/-- A black-box record waiting to be signed and written (R452 to R454). -/
structure BbWait where
  kind : Nat
  keep : Bool
  time : Nat
  /-- Formed while the DEBUG mark stood (R438). -/
  debug : Bool
  /-- It has waited among more than 64 records: it is written with UNSIGNED (R453). -/
  unsign : Bool
  body : List Byte
deriving DecidableEq, Repr

/-- What the history record of the running period gathers (R455): temperatures in 0.01 °C, seconds by band. -/
structure History where
  start : Nat
  tMax : Option Int
  tMin : Option Int
  trips : Nat
  tBands : List Nat
  socBands : List Nat
  swaps : Nat
deriving DecidableEq, Repr

/-- An activation that waits for its T_ACT, or of a Span image in progress (R448, R449). -/
structure Activation where
  cmd : Cmd
  tAct : Nat
  /-- An Apex patch starts; else ROM starts the other slot (R449). -/
  starts : Bool
  /-- Tasks have been sent home, since this instant; Apex waits for them (R448). -/
  begun : Bool
  beganAt : Nat
  /-- PD2 has been reset and the verified slot started, at this instant. -/
  runAt : Option Nat
deriving DecidableEq, Repr

/-- An image being staged (R362): its length and its chunks, oldest first. -/
structure Staging where
  total : Nat
  chunks : List (Nat × List Byte)
deriving DecidableEq, Repr

/-- Apex, keys, firmware, meter and black box. -/
structure TrustState where
  /-- 0 BLANK, 1 SEALED, 2 RELOCATING, 3 RETURNED. -/
  life : Nat
  fuseReturned : Bool
  journal : Nat
  ownerGen : Nat
  fk : Nat
  ik : Option Nat
  ikCert : Bool
  /-- The certificate of IK given at SEAL, 160 bytes (R427, R454). -/
  ikCertBytes : List Byte
  /-- FK certificate, 160 bytes (R427). -/
  fkCert : List Byte
  ownerRoot : List Byte
  sealed_ : List Byte
  nonce : Option (List Byte × Nat)
  session : Nat
  hopsHeld : Bool
  keepAwake : Bool
  /-- A SLEEP asked for while a FULL session keeps the part awake (R437). -/
  sleepHeld : Bool
  /-- The DEBUG mark: from the opening of a FULL session until the next Span runs (R438, R439). -/
  debugMark : Bool
  /-- Nonce that the TAP gives for the next FULL session (R437). -/
  tapNonce : List Byte
  firewall : Nat
  svnSpan : Nat
  svnApex : Nat
  slotB : Bool
  trial : Bool
  /-- Images in SPAN_A and SPAN_B, and in the two patch slots of APEX with the slot in force (R447 to R449). -/
  spanImgs : List (List Byte)
  apexImgs : List (List Byte)
  apexSlotB : Bool
  /-- Staged images, Apex then Span. -/
  staging : List Staging
  act : Option Activation
  /-- Instant at which the Span image in force, and the Apex patch, were activated, and Span's stops since (R448,
  R450). -/
  spanSince : Nat
  apexSince : Nat
  spanStops : Nat
  meter : List Rat
  gap : Nat
  lost : Nat
  vSubst : Nat
  /-- End of the last block counted, and of the last one counted or found missing. -/
  tLast : Nat
  meterSeen : Nat
  meterSlots : List MeterSlot
  meterDirty : Bool
  stmtSeq : Nat
  /-- COMMIT_LOST and GAP_COUNT at the last statement, and statements that wait for the next commit (R444). -/
  stmtLost : Nat
  stmtGap : Nat
  stmtWait : List Cmd
  prevHash : List Byte
  bbSeq : Nat
  bb : List BbRec
  bbWait : List BbWait
  /-- Instant of the last signature for a record (R453). -/
  signedAt : Nat
  keepFull : Bool
  oneCopy : Bool
  unsigned : Nat
  repaired : Nat
  history : History
deriving DecidableEq, Repr

/-! ### Self-test and check units (R459 to R473) -/

/-- One check-value unit (R470). -/
structure ChkUnit where
  busy : Bool
  poly : Nat
  crc : Nat
  result : Nat
  hostAlive : Nat
  fed : Nat
  alive : Nat
  /-- The open message is one of CHECK_COMPUTE. -/
  byHost : Bool
  ok : Bool
  /-- OPENs that wait for the open message to close, by their POLY, oldest first. -/
  waiting : List Nat
deriving DecidableEq, Repr

/-- Self-test of the hub (die 0) or a cell die. -/
structure SelfTest where
  /-- Block of the slice in progress and its start. -/
  slice : Option (Nat × Nat)
  /-- Block from which the rotation goes on; an INCOMPLETE block that comes first (R463). -/
  nextBlock : Nat
  retry : Option Nat
  /-- Time that counts for RUN, RUN and DOZE, and RUN with every output off (R464), up to the last update. -/
  runTime : Nat
  liveTime : Nat
  offTime : Nat
  countedAt : Nat
  /-- Counted time from which the next slice is due (R461). -/
  nextAt : Nat
  /-- Blocks judged: block and its counted time at the last PASS or FAIL. -/
  judged : List (Nat × Nat)
  overdue : List Nat
  failed : List Nat
  done : Nat
  incomplete : Nat
  lastBlock : Nat
  lastResult : Nat
  spares : Nat
  lbistOk : Bool
  mbistOk : Bool
  chkOk : Bool
  /-- Pack time of the last hub logic BIST (R465). -/
  lbistAt : Nat
  /-- Last failing memory address of the part, its block, island and bit (R473); kept at the hub. -/
  failAddr : Nat
  failBlock : Nat
  failIsland : Nat
  failBit : Nat
  /-- Failures of R472 that no other count takes (CHECK_REJECT). -/
  checkReject : Nat
  /-- The hub has used its one retry (R468). -/
  retried : Bool
deriving DecidableEq, Repr

/-- The thermal governor (R482 to R484). -/
structure ThermState where
  step : Nat
  tjMax : Int
  hotIsland : Nat
  hotRestart : Bool
  /-- Since when TJ_MAX has stayed 5 °C below the thresholds of steps 1 to 3. -/
  belowSince : List (Option Nat)
deriving DecidableEq, Repr

end Sys2Proof.Machine
end

