-- ==== Sys2Proof/Machine/State.lean ====
section
/-! DEFINITION. The machine state of one part, the reasons a command can stop, and the part right after
reset. State is plain data and holds the queue of waiting commands, first in first out. -/

namespace Sys2Proof.Machine

/-- What leaves the part at its pads, its radios and its bus, in order. -/
inductive Out where
  | hostWrite (addr : Nat) (bytes : List Byte)
  | hostRead (addr len : Nat)
  /-- The word that a read of BAR0 or BAR2 by the host gives (R320). -/
  | readData (value : Nat)
  | msix (vector : Nat)
  | codeword (side : Side) (bytes : List Byte)
  | clear (side : Side) (bytes : List Byte)
  /-- What an end tells the other during training: its QPSK_EN (R253). -/
  | trainInfo (side : Side) (qpskEn : Bool)
  | wakeRun (side : Side)
  | longBeacon (side : Side)
  | timeWord (k word : Nat)
  /-- A single-wire port, or 16 + k for the ID pad of die k (R103): 0 released, 1 reset, 3 sync (R232). -/
  | line (port : Nat) (what : Nat)
  /-- A single-wire port: a byte, least significant bit first, or one bit written; a number of read slots (R232). -/
  | lineByte (port : Nat) (value : Byte)
  | lineBit (port : Nat) (value : Bool)
  | lineRead (port : Nat) (slots : Nat)
  /-- A pad of the hub: 1 to 3 SO1 to SO3, 4 TPA, 5 TPB, 6 FAULT (1 on, high or heartbeat). -/
  | pad (which : Nat) (level : Nat)
  | dieMsg (k : Nat) (bytes : List Byte)
deriving DecidableEq, Repr

/-- What the laminate, the straps and the factory fix for one part (R1, R2, R5, R20). -/
structure PartState where
  cellDies : Nat
  store : Bool
  ident : Nat
  /-- Role taken: 0 MODULE, 1 GATEWAY, 2 ROLE_CONFLICT (R22). -/
  role : Nat
  /-- Strap reading: 0 MODULE, 1 GATEWAY, 2 unresolved (R20). -/
  strap : Nat
  /-- A change of the ROLE pad has been logged since the strap was read (R21). -/
  roleChanged : Bool
  /-- That change came while the hub did not serve; it is logged once the hub does. -/
  roleDue : Bool
  /-- Level of the ROLE pad as last read or seen: true at STRAPREF (R20, R21). -/
  rolePad : Bool
  /-- Links of the inner ring that are intact, from H–C1 to Cn–H (R15, R17). -/
  links : List Bool
  /-- EVT_SEQ of the next event (R341). -/
  evtSeq : Nat
  /-- Hub powered, out of reset and serving. -/
  serving : Bool
  /-- Hub held in reset by a failed logic BIST or by heat (R468, R483). -/
  hubHeld : Bool
deriving DecidableEq, Repr

/-- The machine state. -/
structure State where
  now : Nat
  part : PartState
  dies : List Die
  cfg : CfgState
  locus : LocusState
  hif : HifState
  link : LinkState
  sync : SyncState
  swp : List SwpPort
  safe : SafeState
  power : PowerState
  trust : TrustState
  selfTest : List SelfTest
  chk : List ChkUnit
  therm : ThermState
  out : List Out
  /-- Free values drawn so far: the model's own field, no part of the spec. -/
  freeCtr : Nat
  /-- Commands waiting, first in first out. -/
  pending : List Instr
deriving DecidableEq, Repr

/-- No command of this block ends in a fault: every arm of `exec` answers a next state. The one
constructor is raised by nobody. -/
inductive Fault where
  /-- Raised by no command; safe. -/
  | none
deriving DecidableEq, Repr

/-- Reasons for a refusal. -/
inductive Refusal where
  /-- Raised by the arm of a command that has no meaning yet; safe. -/
  | notModelled (mnemonic : String)
deriving DecidableEq, Repr

/-- The one outcome type of the model. -/
abbrev Outcome := Host.Outcome State Fault Refusal

/-! ### Right after reset

The part as its always-on domain leaves reset with no input valid yet: the rail VAON is up, every other rail is off,
and nothing serves. The part is a DXL-C1S1 fresh from the factory. Every value that no rule gives is named in the
assumption log. -/

/-- A queue or ring after reset (R322). -/
def Queue.initial : Queue :=
  { baseLo := 0, baseHi := 0, cfg := 0, ptr := 0, host := 0, err := 0, phase := true, active := false, seq := 0, unsignalled := none,
    readAt := 0 }

/-- A radio port after reset. -/
def Port.initial : Port :=
  { st := .down, held := false, useAtOnce := true, upSince := 0, lastUncorr := 0, lastCodeword := 0, channel := 0, qpsk := false,
    txPwr := 20, margin := 0, lowSince := none, trained := false, trainAt := 0, trainFree := true, retune := none, answered := false,
    apcAt := 0, keys := none, old := none, peerDelays := (0, 0), keying := none, ctr := 0, cctr := 0, rxCtrTop := 0,
    rxCtrSeen := [], rxCctrTop := 0, rxCctrSeen := [], tagRun := 0,
    rx := List.replicate 4 { part := [], inFrame := false, next := 0, held := [] },
    tx := List.replicate 4 { queue := [], cur := none, again := [], unacked := [], lseq := 0 },
    ctlDue := false, lastCtl := 0, ctlSent := [], ctlRx := (0, 0), delays := [], cwUncorr := 0, tc0Third := 0, tagFail := 0,
    thirds := [], scrTx := 0, scrRx := 0, aligned := false, rxBits := [], txMax := 20, apcEn := true, qpskEn := true, neighbour := none, orientRaised := false, listens := false, listenAt := 0 }

/-- A comparator while AON-C is off (R203). -/
def Comp.initial : Comp := { tripped := false, runTrip := 0, runClear := 0, startCount := 3, starting := false, seq := 0 }

/-- A balance channel that is off. -/
def Chan.initial : Chan :=
  { sched := false, stepOff := false, ocSteps := 0, ocHit := false, heldOff := false, removed := 0, need := 0, target := 0, onMs := 0,
    mas := 0, qBal := [], iOn := 0, stepMs := 0, markAt := 0, onNs := 0, inj := false, onSince := 0, conducting := false, spans := [], tgtWritten := false }

/-- A cell without learned state (R177), its capacity still to be taken from the configuration. -/
def CellSt.initial : CellSt :=
  { s := none, u := 1, h := 0, q := 0, rho := 1, c := 0, unanchored := true, v := none, vRest := none, vAt := 0, vHist := [],
    p1 := none, pairOk := false, temp := 25, tsub := false, tclamp := false, diverge := false, weak := false, strong := false,
    vComp := none, iN := 0, inv := false, debt := 0 }

/-- The precision path of a die whose PREC domain is off (R30, R56). -/
def PrecState.initial : PrecState :=
  { running := false, seq := 0, settle := List.replicate 29 0, settleOvr := List.replicate 29 0, sync := false, swapAt := none,
    spareCell := [1, 13], spareStep := [0, 0], held := [0, 0], failed := [], lost := [], cover := [], refSum := 0, refCount := 0, refClean := true,
    refPrev := none, refAt := 0, refState := 0, refFirst := true, warm := true, upAt := 0, temp := 2500, gateStart := 0,
    gateFlow := List.replicate 24 false, window := none, gatedE := none, prevBal := List.replicate 24 0, prevCode := List.replicate 24 none,
    wires := List.replicate 25 { updates := [], count := 0, valid := false }, lastWords := List.replicate 27 0x80000000,
    secs := [], blks := [], shunts := [], lastShunt := [0, 0], rshEnds := [] }

/-- The fast path of a die whose FAST domain is off (R84, R97). -/
def FastState.initial : FastState :=
  { ring := [], cap := none, drain := [], nextId := 0, dropTotal := 0, trigMissed := 0, prevOver := 0, prevHold := 0, zero := 0,
    ref := 1, offset := List.replicate 26 0, tracks := [], derated := false, streams := [], streamFrom := 0, streamAcc := [], streamCut := 0,
    streamBlk := [], streamBlock := 0, streamId := 0, sarFail := [], sliceHold := none, startedAt := none }

/-- The sequencer at rest (R119). -/
def SeqState.initial : SeqState :=
  { running := false, pass := 0, passStart := 0, passTime := 0, cur := none, curEntry := 0, skips := 0, preempts := 0, urgent := false,
    resume := 0, sliceHeld := false, sliceMark := false, win := List.replicate 64 0, winIn := List.replicate 64 false, reads := [],
    m30 := List.replicate 3 { lastAt := none, prev := none, ofs := 0, gain := 0, rejected := false }, swapAt := none, idSeen := none,
    therms := 0, absent := 0 }

/-- Calibration of a die fresh from the factory: ideal factory values, no delta learned (R120, R121, R134). -/
def CalState.initial : CalState :=
  { factory := List.replicate 32 { g1 := 1, g2 := 1, g3 := 1, o1 := 0, o2 := 0, o3 := 0 }, refFactory := (1, 1, 1), ageing := (0, 0),
    zener25 := 4096 / 1000, bandgap25 := 12 / 10, exc := [1 / 1000000, 1 / 100000, 1 / 10000], days := 0,
    fuseOk := true, mramOk := true, frozen := none, ofs := List.replicate 29 0, gain := List.replicate 29 0, zc := 0, next := none,
    stale := List.replicate 29 true, acceptAt := List.replicate 29 none, lastAccept := 0, served := none, run := none, solving := none,
    heldCand := none, runs := 0, lastResult := 0, sources := 0, slots := [], acc := [(0, 0, 0), (0, 0, 0)], rests := [], unsaved := false }

/-- Impedance at rest (R166). -/
def ImpState.initial : ImpState :=
  { stages := List.replicate 3 (List.replicate 50 { last := 0, xs := [] }), bands := List.replicate 3 (List.replicate 50 { last := 0, xs := [] }),
    cur := List.replicate 3 { last := 0, xs := [] }, avgs := [none, none, none], segNext := [none, none, none], rsh := [], tauI := 0,
    curOk := false, missRun := 0, curMiss := 0, segRej := 0, seenT0 := [], lfsr := 0x7FF, chip := false, group := 0, injActive := false,
    injAvg := none, injSets := [], tdisPrev := List.replicate 24 false, onHub := false, moved := false, suspended := false, swapAt := none }

/-- The estimator of a group without learned state (R177, R198). -/
def EstState.initial : EstState :=
  { cells := List.replicate 24 CellSt.initial, lastI := none, lastDq := 0, lastT0 := 0, missRun := 0, countLost := false, quietAt := none,
    restAt := none, lastRest := none, eod := false, eoc := false, eodSince := none, eocSince := none, eodOpp := none, eocOpp := none, holdLow := false,
    holdHigh := false, aGroup := none, rGroup := none, socGroup := 0, learnCount := 0, swapCount := 0, lastLearn := 0, identity := none,
    pattern := 0, patternGone := false, swapRun := 0, slots := [], onHub := false, moved := false, swapAt := none, vStack := none }

/-- Protection and balancing while AON-C and PREC are off (R203, R213). -/
def ProtState.initial : ProtState :=
  { ov := List.replicate 24 Comp.initial, uv := List.replicate 24 Comp.initial, aonOn := false, lastTick := 0, ready := false, noticeSeq := 0,
    notices := [], rbFault := [false, false], swFault := [false, false], rbFail := [0, 0], rbErr := [0, 0], rbPass := [0, 0],
    chans := List.replicate 24 Chan.initial, cap := 0, order := [], derateT := false, derateGov := false, timeout := true,
    timeoutRaised := false, keepAt := 0, kaDue := false, hubQ := 0, wire := 0, wireAt := [], suspect := [], sweepNext := 0, owRun := none,
    monAt := 0, vstkRun := 0, vstkArmed := false, protOnly := false, lastSweep := 0,
    rbDone := [0, 0], rbAsked := [false, false], swapAt := none }

/-- A cell die with all its domains off. -/
def Die.initial : Die :=
  { prec := PrecState.initial, fast := FastState.initial, seq := SeqState.initial, cal := CalState.initial, imp := ImpState.initial,
    est := EstState.initial, prot := ProtState.initial, precOn := false, fastOn := false, dspOn := false, lost := false, hot := false,
    tq := 3, lastWord := 0, t0 := [], t0Drop := 0, t0Events := [], t0Retry := false, movePend := [], movedAt := [0, 0], costs := [none, none],
    busyRun := 0, calmSince := [none, none] }

/-- The configuration sets at their reset values (R353, R363). -/
def CfgState.initial : CfgState :=
  { a := [], b := [], f := [], epoch := 0, torn := false, pend := none, group := none, copying := false, waiting := [], selector := [(0, 0, true), (0, 0, true)], before := [],
    policies := [] }

/-- Locus with nothing placed (R318). -/
def LocusState.initial : LocusState :=
  { recs := [], nextId := 0, units := [], progQ := [], blocks := [], ageRest := 0, bucket := 68719476736, bucketEmpty := false, credit := 0, cold := false,
    busy := none, stored := [], dirAt := 0, restOverdue := false, reads := [], t3Fail := false, temp := 2500, tempAt := 0, dropRun := [none, none, none], drops := [0, 0, 0], evictions := 0, refreshed := 0,
    holder := none, holderDue := false, cutAt := none, refusals := 0, clusterDerated := false }

/-- The host interface after reset (R322, R343). PRESUMED, log entry 10. -/
def HifState.initial : HifState :=
  { pollUs := 100, shutdown := false, en := false, ready := false, fatal := false, fatalCode := 0, shutDone := false, lateCompl := 0,
    eqDelayed := 0, dbLo := 0, dbHi := 0, eq := Queue.initial, sq := List.replicate 16 Queue.initial, cq := List.replicate 16 Queue.initial,
    str := List.replicate 32 Queue.initial, msix := List.replicate 64 (0, 0, 0), masked := List.range 64, pendingVec := [], dbReading := false, dbAgain := false, inflight := [],
    cqWait := [], eqWait := [], subs := [], strWait := [], rrSq := 15, rrLeft := 0, delayedMinute := 0, orphans := [],
    fetchNo := 0, lastPoll := 0, asleep := [] }

/-- The link of a part that has never been enumerated (R287). -/
def LinkState.initial : LinkState :=
  { up := Port.initial, dn := Port.initial, position := none, parts := 0, ringClosed := false, enumState := 0, chainId := none,
    stored := none, heard := none, frontier := none, plan := [], enumCmd := none, downHops := [], noRoute := 0, mseqGap := 0, flowsTx := [], flowsRx := [], forwarded := [],
    unrouted := [], asm := [], inbox := [], tq := 3, everLocked := false, lastBeacon := 0, lastTOrigin := 0, lastHops := 0, lockRun := 0, lockBase := 0,
    stepDue := none, ofs := 0, slew := 0, epoch := 0, packSlots := [], beaconHold := none, idents := [], relay := none }

/-- SYNC_IN (R96). -/
def SyncState.initial : SyncState := { level := none, since := 0, lastEdge := none, rejected := 0, period := 0, armed := [] }

/-- A single-wire port that is off, its slot table empty (R248). -/
def SwpPort.initial : SwpPort :=
  { slots := List.replicate 32 { used := false, number := 0, present := false, droppedAt := 0, misses := 0, seen := false, value := 0,
                                 sstat := 0, seq := 0, missed := false, seqGap := false, droppedNow := false, read := false },
    restarts := 0, overflow := 0, st := 0, unstable := false, short := false, shortAt := 0, pendSearch := false, searching := 0, cmds := [],
    runs := [], tSync := 0, inCycle := false, dropNo := 0 }

/-- A channel filter before its first level (R368). -/
def SafeChan.initial : SafeChan := { level := false, formed := false, cand := none }

/-- The safety layer (R376, R391). -/
def SafeState.initial : SafeState :=
  { ins := List.replicate 4 { a := SafeChan.initial, b := SafeChan.initial, discMs := 0, latched := false, needDemand := false },
    outs := List.replicate 3 { on := false, since := 0, switched := false, econ := false, duty := 0, edge := false, overcurrent := false,
                               openLoad := false, fb := SafeChan.initial, confirmed := false, wrongSince := none },
    req := 0, tests := List.replicate 18 { pulse := none, low := false, bad := false, fails := 0, passes := 0, standing := false },
    pulseEnd := [none, none], lockout := false, persisted := false, loCause := 0, loTime := 0, loSlots := [], lorstState := 3, lorstHigh := 0,
    lorstLow := 0,
    watch := List.replicate 63 { armed := false, failed := false, lastAt := 0, lastSeq := none, sstate := 0, kind := 0, errAt := [] },
    discCount := 0, frameErr := 0, hostOk := false, hostSeq := none, hostAt := 0, hostFails := 0, gwOk := false, gwAt := 0, gwSeq := none,
    sfSeq := 0, heartbeat := false, heartRan := false, reported := false, acted := [] }

/-- A rail that is off. -/
def Rail.initial : Rail := { st := 0, retried := false, faultAt := 0, uv := 0, ov := 0, oc := 0, tmo := 0 }

/-- The power block: VAON up, no input valid (R398, R423). -/
def PowerState.initial : PowerState :=
  { st := 4, lastSt := 4, dozeTgt := false, src := 0, vauxOk := false, vinOk := false, vAux := 0, vHv := 0, pIn := 0, vHold := 0, holdOk := false,
    holdReported := false, holdDone := false, rstIgnored := false, rstHeld := false, rstAt := 0, holdEff := 1, lastReset := 0, lastWake := 1,
    rails := { Rail.initial with st := 2 } :: List.replicate 13 Rail.initial, seqDir := 0, seqTo := 0, seqRail := 0, attempts := 0,
    retryAt := none, warnAt := none, restartAt := none, restartIdx := 0, shipMark := false, idleSince := 0, sleepAt := 0, upAt := 0,
    copies := List.replicate 14 (0, 0, 0, 0), hubCharge := 0, kaAt := none, startBy := 0, warnItem := none, lastTrip := none, copyRun := 0, downAt := 0, timed := false, wakePend := false, entryPend := none, entryCast := false, heldFaults := [], vsysAt := 0,
    hubT := 0, agedFor := none }

/-- Black-box record 0, which holds the FK certificate (R427, R452, R454); its certificate and signature bytes are zero. -/
def factoryRecord : List Byte :=
  withCrc32c (le 2 0x0D01 ++ le 1 0x01 ++ le 1 0x80 ++ zeros 16 ++ le 2 160 ++ zeros 2 ++ zeros 160 ++ zeros 64) ++ zeros 4

/-- Apex of a part fresh from the factory: BLANK, no identity key, an empty meter and an empty black box (R429, R458). -/
def TrustState.initial : TrustState :=
  { life := 0, fuseReturned := false, journal := 0, ownerGen := 0, fk := 1, ik := none, ikCert := false, ikCertBytes := List.replicate 160 0, fkCert := List.replicate 160 0,
    ownerRoot := List.replicate 64 0, sealed_ := List.replicate 64 0, nonce := none, session := 0, hopsHeld := false, keepAwake := false,
    sleepHeld := false, debugMark := false, tapNonce := List.replicate 16 0, firewall := 0, svnSpan := 0, svnApex := 0, slotB := false,
    trial := false, spanImgs := [[], []], apexImgs := [[], []], apexSlotB := false,
    staging := [{ total := 0, chunks := [] }, { total := 0, chunks := [] }], act := none, spanSince := 0, apexSince := 0, spanStops := 0,
    meter := List.replicate 5 0, gap := 0, lost := 0, vSubst := 0, tLast := 0, meterSeen := 0, meterSlots := [], meterDirty := false,
    stmtSeq := 0, stmtLost := 0, stmtGap := 0, stmtWait := [], prevHash := List.replicate 32 0, bbSeq := 1, bb := [{ seq := 0, keep := true, bytes := factoryRecord, okA := true, okB := true }], bbWait := [],
    signedAt := 0, keepFull := false, oneCopy := false, unsigned := 0, repaired := 0,
    history := { start := 0, tMax := none, tMin := none, trips := 0, tBands := List.replicate 11 0, socBands := List.replicate 10 0, swaps := 0 } }

/-- Self-test of the hub or of a die before its first test (R473). -/
def SelfTest.initial : SelfTest :=
  { slice := none, nextBlock := 0, retry := none, runTime := 0, liveTime := 0, offTime := 0, countedAt := 0, nextAt := 0, judged := [], overdue := [],
    failed := [], done := 0, incomplete := 0, lastBlock := 0, lastResult := 0, spares := 0, lbistOk := false, mbistOk := false, chkOk := false,
    lbistAt := 0, failAddr := 0, failBlock := 0, failIsland := 0, failBit := 0, checkReject := 0, retried := false }

/-- A check-value unit before its first message (R470). -/
def ChkUnit.initial : ChkUnit :=
  { busy := false, poly := 3, crc := 0, result := 0, hostAlive := 0, fed := 0, alive := 0, byHost := false, ok := false, waiting := [] }

/-- The part right after reset. DESIGN CHOICE, log entry 9. -/
def State.reset : State :=
  { now := 0,
    part := { cellDies := 1, store := true, ident := 1, role := 0, strap := 0, roleChanged := false, roleDue := false, rolePad := false, links := [true, true], evtSeq := 0,
              serving := false, hubHeld := false },
    dies := [Die.initial], cfg := CfgState.initial, locus := LocusState.initial, hif := HifState.initial, link := LinkState.initial,
    sync := SyncState.initial, swp := List.replicate 2 SwpPort.initial, safe := SafeState.initial, power := PowerState.initial,
    trust := TrustState.initial, selfTest := List.replicate 2 SelfTest.initial, chk := List.replicate 5 ChkUnit.initial,
    therm := { step := 0, tjMax := 2500, hotIsland := 0, hotRestart := false, belowSince := [none, none, none] }, out := [], freeCtr := 0, pending := [] }

end Sys2Proof.Machine
end

