-- ==== Sys2Proof/Machine/Access.lean ====
section
/-! DEFINITION. Reading and changing parts of the state by name: dies, configuration fields in force,
ports, queues, free values. -/

namespace Sys2Proof.Machine

/-- Element `i` of a list changed by `f`. -/
def modNth {α : Type} (f : α → α) : Nat → List α → List α
  | _, [] => []
  | 0, a :: as => f a :: as
  | i + 1, a :: as => a :: modNth f i as

/-- Element `i` of a list replaced. -/
def setNth {α : Type} (i : Nat) (a : α) (l : List α) : List α := modNth (fun _ => a) i l

/-- Indexes of a list that satisfy a condition. -/
def indexes {α : Type} (p : α → Bool) (l : List α) : List Nat :=
  (l.zipIdx.filter fun x => p x.1).map (·.2)

/-- A mask with bit `i` for every listed number `i`. -/
def maskOf (l : List Nat) : Nat := l.foldl (fun m i => if m.testBit i then m else m + 2 ^ i) 0

/-- A bit of a mask set or cleared. -/
def setBit (m i : Nat) (b : Bool) : Nat :=
  if m.testBit i then (if b then m else m - 2 ^ i) else (if b then m + 2 ^ i else m)

/-- The numbers below `n` whose bit is set. -/
def bitsSet (m n : Nat) : List Nat := (List.range n).filter fun i => m.testBit i

/-- Number of set bits below `n`. -/
def popCount (m n : Nat) : Nat := (bitsSet m n).length

/-! ### Dies -/

/-- Cell die k, k from 1 (R3). -/
def State.die? (s : State) (k : Nat) : Option Die := if k = 0 then none else s.dies[k - 1]?

/-- Cell island k is populated (R3). -/
def State.fitted (s : State) (k : Nat) : Bool := 1 ≤ k && k ≤ s.part.cellDies

/-- Cell die k changed by `f`. -/
def State.modDie (s : State) (k : Nat) (f : Die → Die) : State :=
  if k = 0 then s else { s with dies := modNth f (k - 1) s.dies }

/-- Numbers of the fitted cell islands. -/
def State.islands (s : State) : List Nat := (List.range s.part.cellDies).map (· + 1)

/-- A change made to every fitted cell die. -/
def State.modDies (s : State) (f : Nat → Die → Die) : State :=
  s.islands.foldl (fun s k => s.modDie k (f k)) s

/-- What a command does on a fitted die; a command naming an island that is not fitted does nothing. DEDUCED, log entry 4. -/
def State.onDie (s : State) (k : Nat) (f : Die → State) : State :=
  if s.fitted k then (match s.die? k with | some d => f d | none => s) else s

/-- The links from die k to the hub in one direction are intact: `up` towards C1, `down` towards Cn (R15). -/
def State.pathIntact (s : State) (k : Nat) (side : Side) : Bool :=
  match side with
  | .up => (s.part.links.take k).all id && s.part.links.length ≥ k
  | .down => (s.part.links.drop k).all id

/-- Hops from die k to the hub in one direction (R15). -/
def State.ringHops (s : State) (k : Nat) (side : Side) : Nat :=
  match side with
  | .up => k
  | .down => s.part.cellDies + 1 - k

/-- The direction that die k sends by and that the hub answers it by (R16, R17): the one with fewer hops, towards C1
when both have equally many, and the other one where a link of that one is broken; none when both are cut. -/
def State.dieVia (s : State) (k : Nat) : Option Side :=
  let first := if s.ringHops k .up ≤ s.ringHops k .down then Side.up else Side.down
  if s.pathIntact k first then some first else if s.pathIntact k first.other then some first.other else none

/-- Die k has a path to the hub (R15 to R18). -/
def State.reach (s : State) (k : Nat) : Bool := (s.dieVia k).isSome

/-- Cell dies whose traffic crosses the hub's link on one side (R16, R17): those that share its drain (R86). -/
def State.linkSharers (s : State) (side : Side) : List Nat := s.islands.filter fun k => s.dieVia k == some side

/-- The hub can take what die k sends (R494). DEDUCED, log entry 42. -/
def State.hubTakes (s : State) (k : Nat) : Bool := s.reach k && s.part.serving && !s.part.hubHeld

/-! ### Configuration fields in force -/

/-- A register in force. -/
def State.regF (s : State) (block target off : Nat) : Nat := cellWord s.cfg.f block target off

/-- A field in force: bits hi to lo of a register. -/
def State.fF (s : State) (block target off hi lo : Nat) : Nat := bits (s.regF block target off) hi lo

/-- A one-bit field in force. -/
def State.fB (s : State) (block target off i : Nat) : Bool := bit (s.regF block target off) i

/-- A block at a TARGET brought into force (last column of the table of R353). -/
def State.takeBlock (s : State) (block target : Nat) : State :=
  { s with cfg := { s.cfg with f := cellCopyBlock s.cfg.f s.cfg.a block target } }

/-- A block's fields in force differ from the active set. -/
def State.blockDiffers (s : State) (block target : Nat) : Bool :=
  let sel := fun (m : List Host.Cell) => m.filter fun c => blockLo block target ≤ c.1 && c.1 < blockHi block target
  sel s.cfg.a != sel s.cfg.f

/-- A range of offsets of a block brought into force. -/
def State.takeRange (s : State) (block target lo hi : Nat) : State :=
  { s with cfg := { s.cfg with f := cellCopy s.cfg.f s.cfg.a (cfgAddr block target lo) (cfgAddr block target hi) } }

/-- A range of offsets in force differs from the active set. -/
def State.rangeDiffers (s : State) (block target lo hi : Nat) : Bool :=
  let sel := fun (m : List Host.Cell) =>
    m.filter fun c => cfgAddr block target lo ≤ c.1 && c.1 < cfgAddr block target hi
  sel s.cfg.a != sel s.cfg.f

/-! ### Roles (R22 to R25) -/

/-- GATEWAY role. -/
def State.isGateway (s : State) : Bool := s.part.role == 1
/-- MODULE role. -/
def State.isModule (s : State) : Bool := s.part.role == 0
/-- ROLE_CONFLICT (R23). -/
def State.conflict (s : State) : Bool := s.part.role == 2
/-- The PCIe endpoint is powered: GATEWAY role, or ROLE_CONFLICT with the strap reading GATEWAY (R24, R319). -/
def State.hosted (s : State) : Bool := s.isGateway || (s.conflict && s.part.strap == 1)

/-- Chain position as registers and records show it: 0 at a part that serves a host (R7, R24, R26). -/
def State.pos (s : State) : Nat := if s.hosted then 0 else s.link.position.getD 0

/-- Parts of the chain as far as commands and frames reach: in ROLE_CONFLICT there is no chain behind the part (R24). -/
def State.chainParts (s : State) : Nat := if s.conflict then 1 else s.link.parts

/-- Identity of the part at a position, 0 where this part does not know it. -/
def State.identOf (s : State) (p : Nat) : Nat :=
  if p = s.pos then s.part.ident else ((s.link.idents.find? fun x => x.1 == p).map (·.2)).getD 0

/-- Position of the part with an identity, where this part knows it. -/
def State.posOf (s : State) (ident : Nat) : Option Nat :=
  if ident = s.part.ident then some s.pos else (s.link.idents.find? fun x => x.2 == ident).map (·.1)

/-- Time quality of the part; a gateway always reports 0b00 (R275). -/
def State.tq (s : State) : Nat := if s.isGateway then 0 else s.link.tq

/-- The part is in RUN. -/
def State.inRun (s : State) : Bool := s.power.st == 0
/-- The part is in RUN or DOZE. -/
def State.inRunDoze (s : State) : Bool := s.power.st == 0 || s.power.st == 1

/-- A power-fail warning has been raised (R410, R411). -/
def State.warned (s : State) : Bool := s.power.warnAt.isSome || s.power.warnItem.isSome

/-! ### Free values -/

/-- A free value of `w` bits and the state that has drawn it. DESIGN CHOICE, log entry 6. -/
def State.drawBits (s : State) (w : Nat) : Nat × State :=
  ((Config.freeBits w s.freeCtr).toNat, { s with freeCtr := s.freeCtr + 1 })

/-- A free rational and the state that has drawn it. DESIGN CHOICE, log entry 6. -/
def State.drawRat (s : State) : Rat × State := (Config.freeRat s.freeCtr, { s with freeCtr := s.freeCtr + 1 })

/-- `n` free bytes. -/
def State.drawBytes (s : State) (n : Nat) : List Byte × State :=
  let r := s.drawBits (8 * n)
  (le n r.1, r.2)

/-- `n` free rationals. -/
def State.drawRats (s : State) : Nat → List Rat × State
  | 0 => ([], s)
  | n + 1 =>
    let r := s.drawRat
    let rs := r.2.drawRats n
    (r.1 :: rs.1, rs.2)

/-! ### Ports -/

/-- A port of the link. -/
def State.port (s : State) (side : Side) : Port :=
  match side with
  | .up => s.link.up
  | .down => s.link.dn

/-- A port changed by `f`. -/
def State.modPort (s : State) (side : Side) (f : Port → Port) : State :=
  match side with
  | .up => { s with link := { s.link with up := f s.link.up } }
  | .down => { s with link := { s.link with dn := f s.link.dn } }

/-- Something left the part. -/
def State.emit (s : State) (o : Out) : State := { s with out := s.out ++ [o] }

end Sys2Proof.Machine
end

