-- ==== Sys2Proof/Machine/LinkOps.lean ====
section
/-! DEFINITION. Frames and routing: the path of a frame (R267), its egress (R268), broadcasts and DUAL
copies (R269), segments of R256, and admission at the destination in MSEQ order (R269). -/

namespace Sys2Proof.Machine

/-- FLAGS of R256. -/
def flFirst : Nat := 0x80
/-- LAST_SEG. -/
def flLast : Nat := 0x40
/-- DUAL. -/
def flDual : Nat := 0x20
/-- REVERSED. -/
def flReversed : Nat := 0x10

/-- What of the chain is left when a part takes a role (R7, R22): a part that becomes a gateway stands at position 0 with
no chain enumerated, and one that no longer is a gateway drops that position. DEDUCED, log entry 49. -/
def LinkState.asRole (l : LinkState) (role : Nat) : LinkState :=
  if role = 1 && l.position != some 0 then { l with position := some 0, parts := 0, ringClosed := false, stored := none, idents := [] }
  else if role = 0 && l.position == some 0 then { l with position := none, parts := 0, ringClosed := false, stored := none, idents := [] }
  else l

/-- Number of parts as routing takes it, at least the part itself. -/
def State.ringN (s : State) : Nat := max 1 s.link.parts

/-- Position and PARTS in force, or while none are the stored ones that the part is to take up again (R266). -/
def State.place? (s : State) : Nat × Nat :=
  match s.link.stored with
  | some x => if s.link.parts = 0 ∧ !(s.link.position.isSome && s.isModule) then (x.1, max 1 x.2.1) else (s.pos, s.ringN)
  | none => (s.pos, s.ringN)

/-- Index of the hop at a port: hop h joins positions h and h + 1, the closing hop PARTS − 1 (R265). The hop of a part that a
frontier is enumerating, and of the gateway's UP port that it finds, has the frontier's position. -/
def State.hopOf (s : State) (side : Side) : Nat :=
  match side with
  | .down => s.place?.1
  | .up =>
    match s.link.heard with
    | some x => x.2
    | none => (s.place?.1 + s.place?.2 - 1) % s.place?.2

/-- The hop at a port may be used for routing (R262). -/
def State.hopUsable (s : State) (side : Side) : Bool :=
  let p := s.port side
  p.st == .up && !p.held

/-- The port has a neighbour: every port in a closed ring, in an open chain all but the ends (R269), and any port whose hop
is UP, as before the chain is known (R263). -/
def State.hasNeighbour (s : State) (side : Side) : Bool :=
  s.link.ringClosed || (s.port side).st == .up ||
    (match side with
     | .up => 0 < s.pos
     | .down => s.pos + 1 < s.link.parts)

/-- Hops of a path of `n` hops out of a port in a ring of N parts (R267). -/
def pathHops (bigN pos n : Nat) (side : Side) : List Nat :=
  (List.range n).map fun i =>
    match side with
    | .down => (pos + i) % bigN
    | .up => (pos + bigN * (n + 1) - 1 - i) % bigN

/-- Port and DST of a unicast frame to a position (R267). -/
def State.route (s : State) (dest : Nat) : Side × Nat :=
  if s.link.ringClosed then
    let n := s.ringN
    let dn := (dest + n - s.pos % n) % n
    let up := (s.pos + n - dest % n) % n
    let okDn := (pathHops n s.pos dn .down).all fun h => !s.link.downHops.contains h
    let okUp := (pathHops n s.pos up .up).all fun h => !s.link.downHops.contains h
    let preferUp := if up = dn then !s.isGateway else up < dn
    let useUp := if okUp && okDn then preferUp else if okUp then true else if okDn then false else preferUp
    if useUp then (.up, up) else (.down, dn)
  else if dest < s.pos then (.up, s.pos - dest) else (.down, dest - s.pos)

/-- Hops to a position over a path whose hops are all UP, if there is one (R305). -/
def State.hopsTo (s : State) (p : Nat) : Option Nat :=
  let n := s.ringN
  let up := fun (l : List Nat) => l.all fun h => !s.link.downHops.contains h
  if s.link.ringClosed then
    let dn := (p + n - s.pos % n) % n
    let u := (s.pos + n - p % n) % n
    match up (pathHops n s.pos dn .down), up (pathHops n s.pos u .up) with
    | true, true => some (min dn u)
    | true, false => some dn
    | false, true => some u
    | false, false => none
  else
    let lo := min p s.pos
    let k := max p s.pos - lo
    if up ((List.range k).map (lo + ·)) then some k else none

/-- Since when no path of UP hops leads to the spill holder (R305). -/
def State.noteHolder (s : State) : State :=
  match s.locus.holder with
  | none => s
  | some h =>
    { s with locus := { s.locus with cutAt := if (s.hopsTo h).isSome then none else some (s.locus.cutAt.getD s.now) } }

/-- The spill holder is chosen anew after an enumeration (R305). -/
def State.holderAnew (s : State) : State := { s with locus := { s.locus with holderDue := true } }

/-- A frame put into a port's queue of its class. DEDUCED, log entry 38. -/
def State.enqueue (s : State) (side : Side) (f : Frame) : State :=
  s.modPort side fun p => { p with tx := modNth (fun c => { c with queue := c.queue ++ [f] }) f.tc p.tx }

/-- NO_ROUTE counted. -/
def State.countNoRoute (s : State) : State := { s with link := { s.link with noRoute := satInc 16 s.link.noRoute } }

/-- A unicast frame with DST hops to go from here put into a port's queue: it leaves with DST less one (R27). DEDUCED, log entry 37. -/
def State.forwardBy (s : State) (side : Side) (f : Frame) : State := s.enqueue side { f with dst := f.dst - 1 }

/-- A unicast frame sent out of a port: where that hop is DOWN, a TC1 to TC3 frame is reversed once in a
closed ring and otherwise dropped (R268). -/
def State.egress (s : State) (side : Side) (f : Frame) : State :=
  if f.tc = 0 || s.hopUsable side then s.forwardBy side f
  else if f.flags &&& flReversed != 0 || !s.link.ringClosed then s.countNoRoute
  else s.forwardBy side.other { f with dst := s.ringN - f.dst, flags := f.flags ||| flReversed }

/-- The next MSEQ of a flow and the flows advanced (R256). -/
def nextMseq (fl : List (Nat × Nat × Nat)) (tc dest : Nat) : Nat × List (Nat × Nat × Nat) :=
  match fl.find? (fun x => x.1 == tc && x.2.1 == dest) with
  | some x => (x.2.2, fl.map fun y => if y.1 == tc && y.2.1 == dest then (tc, dest, (y.2.2 + 1) % 65536) else y)
  | none => (0, fl ++ [(tc, dest, 1)])

/-- The segments of a payload: at most 8,192 bytes each, all with one MSEQ (R256). -/
def segments (tc kind origin mseq : Nat) (payload : List Byte) : List Frame :=
  let n := max 1 ((payload.length + 8191) / 8192)
  (List.range n).map fun i =>
    { tc := tc, kind := kind, dst := 0, origin := origin, mseq := mseq,
      flags := (if i = 0 then flFirst else 0) ||| (if i + 1 = n then flLast else 0),
      payload := (payload.drop (8192 * i)).take 8192 }

/-- One frame of this part given its path or paths (R267, R269): broadcasts and, in a closed ring, safety
frames and heartbeats leave by both ports with DUAL set. -/
def State.dispatchFrame (s : State) (dest : Nat) (f : Frame) : State :=
  if dest = 63 then
    let g := { f with dst := 63, flags := f.flags ||| flDual }
    let s := if s.hasNeighbour .up then s.enqueue .up g else s
    if s.hasNeighbour .down then s.enqueue .down g else s
  else if f.tc = 0 && (f.kind = 4 || f.kind = 5) && s.link.ringClosed then
    let n := s.ringN
    let g := { f with flags := f.flags ||| flDual }
    let s := s.forwardBy .up { g with dst := (s.pos + n - dest % n) % n }
    s.forwardBy .down { g with dst := (dest + n - s.pos % n) % n }
  else
    let r := s.route dest
    s.egress r.1 { f with dst := r.2 }

/-- A payload originated at this part for a destination position. A part without a position, or whose hub does not
serve, keeps it until it has one and serves. -/
def State.originate (s : State) (tc kind dest : Nat) (payload : List Byte) : State :=
  match s.link.position with
  | none => { s with link := { s.link with unrouted := s.link.unrouted ++ [(tc, kind, dest, payload)] } }
  | some p =>
    if !s.part.serving then { s with link := { s.link with unrouted := s.link.unrouted ++ [(tc, kind, dest, payload)] } }
    else if dest = p ∨ s.chainParts ≤ 1 then s
    else
      let m := nextMseq s.link.flowsTx tc dest
      let s := { s with link := { s.link with flowsTx := m.2 } }
      (segments tc kind p m.1 payload).foldl (fun s f => s.dispatchFrame dest f) s

/-- What waited for a position is originated. -/
def State.flushUnrouted (s : State) : State :=
  let l := s.link.unrouted
  let s := { s with link := { s.link with unrouted := [] } }
  l.foldl (fun s x => s.originate x.1 x.2.1 x.2.2.1 x.2.2.2) s

/-- The frame is the first of its record (R256). -/
def Frame.isFirst (f : Frame) : Bool := f.flags &&& flFirst != 0
/-- The frame is the last of its record (R256). -/
def Frame.isLast (f : Frame) : Bool := f.flags &&& flLast != 0

/-- A broadcast copy that came by a port may be passed on (R269): the first copy of a record, and the later segments of the copy
whose first segment has been passed on. -/
def State.mayForward (s : State) (side : Side) (f : Frame) : Bool :=
  if f.isFirst then !s.link.forwarded.any fun x => x.1 == f.origin && x.2.1 == f.tc && x.2.2.1 == f.mseq
  else s.link.forwarded.contains (f.origin, f.tc, f.mseq, side)

/-- The copy of a broadcast that is passed on is noted with its port (R269). -/
def State.noteForward (s : State) (side : Side) (f : Frame) : State :=
  if f.isFirst then { s with link := { s.link with forwarded := ((f.origin, f.tc, f.mseq, side) :: s.link.forwarded).take 4096 } } else s

/-! ### Frames as bytes -/

/-- The 16 header bytes of R256. -/
def Frame.header (f : Frame) (lseq ctr : Nat) : List Byte :=
  le 1 (fld 6 2 f.tc + fld 0 6 f.kind) ++ le 1 f.dst ++ le 1 f.origin ++ le 1 f.flags ++ le 2 f.payload.length ++
    le 2 lseq ++ le 2 f.mseq ++ zeros 1 ++ le 5 ctr

/-- A frame in clear, header and payload, as the frame steps carry it. -/
def frameOf (bs : List Byte) : Frame :=
  { tc := bits (rd bs 0 1) 7 6, kind := bits (rd bs 0 1) 5 0, dst := rd bs 1 1, origin := rd bs 2 1,
    flags := rd bs 3 1, mseq := rd bs 8 2, payload := slice bs 16 (rd bs 4 2) }

/-- The flow of a frame at its destination: broadcast, or this part (R256). -/
def State.flowOf (s : State) (f : Frame) : Nat := if f.dst = 63 then 63 else s.pos

/-! ### Admission in MSEQ order (R269) -/

/-- What becomes of a frame at its destination. -/
inductive Admit where
  | deliver
  | held
  | duplicate
deriving DecidableEq, Repr

/-- The ports that two frames came by may be the same: no rule makes the segments of one copy change ports. -/
def samePort (a b : Option Side) : Bool := a == b || a.isNone || b.isNone

/-- Release the held records of a flow that now follow in order, with all their segments, into the inbox. -/
def releaseRun : Nat → FlowRx → List (Option Side × Frame) → FlowRx × List (Option Side × Frame)
  | 0, x, acc => (x, acc)
  | n + 1, x, acc =>
    let out := x.held.filter fun h => h.2.2.mseq == x.next
    if out.isEmpty then (x, acc)
    else
      releaseRun n { x with next := (x.next + 1) % 65536, held := x.held.filter fun h => h.2.2.mseq != x.next }
        (acc ++ out.map (·.2))

/-- Released frames as the inbox holds them. -/
def releasedFrames (l : List (Option Side × Frame)) : List (Side × Frame) := l.map fun x => (x.1.getD .up, x.2)

/-- A frame offered to its flow (R269): the first copy of a record in order is delivered with its later segments, which come
by the same port; another copy is a duplicate, and what is behind a gap, or behind a record whose segments still come, is held.
A frame whose release has advanced the flow past it is delivered. -/
def State.accept (s : State) (f : Frame) : Admit × State :=
  let flow := s.flowOf f
  let same := fun (x : FlowRx) => x.origin == f.origin && x.tc == f.tc && x.flow == flow
  let port := (s.link.inbox.find? fun x => x.2 == f).map (·.1)
  -- the step takes the frame out of the inbox when it waits there
  let inbox := s.link.inbox.eraseP fun x => x.2 == f
  let s := { s with link := { s.link with inbox := inbox } }
  let open_ := if f.isLast then none else some (f.mseq, port)
  match s.link.flowsRx.find? same with
  | none =>
    let x : FlowRx :=
      { origin := f.origin, tc := f.tc, flow := flow, seen := [f.mseq], next := (f.mseq + 1) % 65536, held := [], open_ := open_ }
    if f.isFirst then (.deliver, { s with link := { s.link with flowsRx := s.link.flowsRx ++ [x] } }) else (.duplicate, s)
  | some x =>
    let put := fun (y : FlowRx) =>
      let r := if y.open_.isNone then releaseRun y.held.length y [] else (y, [])
      { s with link := { s.link with flowsRx := s.link.flowsRx.map (fun z => if same z then r.1 else z),
                                     inbox := s.link.inbox ++ releasedFrames r.2 } }
    let later := { x with held := x.held ++ [(s.now, port, f)] }
    let keep := { s with link := { s.link with flowsRx := s.link.flowsRx.map fun z => if same z then later else z } }
    let behind := x.held.filter fun h => h.2.2.mseq == f.mseq
    if f.isFirst then
      let y := { x with seen := (f.mseq :: x.seen).take 256, open_ := open_ }
      if x.seen.contains f.mseq || !behind.isEmpty then (.duplicate, s)
      else if f.mseq = x.next then
        if x.open_.isNone then (.deliver, put { y with next := (x.next + 1) % 65536 }) else (.held, keep)
      else if (x.next + 65536 - f.mseq) % 65536 < 32768 then (.deliver, put y)
      else (.held, keep)
    else
      match x.open_ with
      | some o =>
        if o.1 = f.mseq && samePort o.2 port then (.deliver, put { x with open_ := if f.isLast then none else x.open_ })
        else if behind.any (fun h => samePort h.2.1 port) && behind.all (fun h => !h.2.2.isLast) then (.held, keep)
        else (.duplicate, s)
      | none =>
        if behind.any (fun h => samePort h.2.1 port) && behind.all (fun h => !h.2.2.isLast) then (.held, keep) else (.duplicate, s)

/-- A frame's payload joined to the segments of its record (R256): none until the last segment is there. -/
def State.assemble (s : State) (f : Frame) : Option (List Byte) × State :=
  let tag := f.mseq + if f.dst = 63 then 65536 else 0
  let same := fun (x : Nat × Nat × Nat × List Byte) => x.1 == f.origin && x.2.1 == f.tc && x.2.2.1 == tag
  let before := if f.isFirst then [] else ((s.link.asm.find? same).map (·.2.2.2)).getD []
  let rest := s.link.asm.filter fun x => !same x
  let whole := before ++ f.payload
  if f.isLast then (some whole, { s with link := { s.link with asm := rest } })
  else (none, { s with link := { s.link with asm := rest ++ [(f.origin, f.tc, tag, whole)] } })

end Sys2Proof.Machine
end

