-- ==== Sys2Proof/Machine/LocusOps.lean ====
section
/-! DEFINITION. Locus as an operation: capacities of the tiers (R288), eviction (R293), placement and the
writer (R294, R295), drops, claims and the rooms of stream rings (R296, R340). -/

namespace Sys2Proof.Machine

/-- Data class of a record type (R290); events and placement records are D0. -/
def classOf (recType : Nat) : Nat :=
  match recType with
  | 0x0201 => 1
  | 0x0301 => 3
  | 0x0302 => 3
  | 0x0401 => 1
  | 0x0501 => 1
  | 0x0601 => 2
  | 0x0701 => 2
  | 0x0801 => 2
  | 0x0901 => 1
  | _ => 0

/-- The stream types of R290 that a subscription may name; the source of placement records is the part (R291). -/
def isStreamType (recType : Nat) : Bool :=
  [0x0201, 0x0301, 0x0302, 0x0401, 0x0501, 0x0601, 0x0701, 0x0801, 0x0901, 0x0B01].contains recType

/-- 3.5 MiB of LOCUS_STAGE, 256 KiB of it reserved for D0 (R288). -/
def stageSize : Nat := 3670016
/-- The D0 reserve of the stage. -/
def stageReserve : Nat := 262144
/-- 6 MiB record buffer. -/
def bufferSize : Nat := 6291456
/-- 16 MiB capture buffer. -/
def captureSize : Nat := 16777216
/-- A cell die's record buffer in T0. -/
def t0Size : Nat := 262144
/-- Bytes of a unit (R298). -/
def unitSize : Nat := 65536

/-- Bytes held in a tier. -/
def LocusState.fill (l : LocusState) (tier : Tier) : Nat :=
  l.recs.foldl (fun n r => if r.tier = tier then n + r.bytes.length else n) 0

/-- Bytes of D0 in the stage. -/
def LocusState.stageD0 (l : LocusState) : Nat :=
  l.recs.foldl (fun n r => if r.tier = .stage ∧ r.cls = 0 then n + r.bytes.length else n) 0

/-- Bytes of D1 in the stage. -/
def LocusState.stageD1 (l : LocusState) : Nat := l.fill .stage - l.stageD0

/-- Bytes of the stage that are not the unused part of the D0 reserve: with all of them in use no D1 fits (R288, R294).
DEDUCED from the cold start of the worked example, log entry 58. -/
def LocusState.stageCap (l : LocusState) : Nat := stageSize - (stageReserve - min stageReserve l.stageD0)

/-- Room for `n` bytes of D1 in the stage: D0 beyond its reserve takes room from the D1 part. -/
def LocusState.stageRoom (l : LocusState) (n : Nat) : Bool :=
  l.stageD1 + n + max stageReserve l.stageD0 ≤ stageSize

/-- Room for `n` bytes in another tier. -/
def LocusState.room (l : LocusState) (tier : Tier) (n : Nat) : Bool :=
  match tier with
  | .stage => l.stageRoom n
  | .buffer => l.fill .buffer + n ≤ bufferSize
  | .capture => l.fill .capture + n ≤ captureSize
  | _ => false

/-- A record is settled (R292): no claim on it stands. -/
def Rec.settled (r : Rec) : Bool := r.claims.isEmpty

/-- Eviction priority of a D2 record (R316). -/
def State.prioOf (s : State) (r : Rec) : Nat :=
  let p := s.regF 0x13 0 0x00C
  match r.recType with
  | 0x0601 => bits p 5 4
  | 0x0701 => bits p 3 2
  | _ => bits p 1 0

/-- Rank of eviction (R293): D3 first, then D2 by priority, then D1, oldest first within each; D0 is never
evicted before it is committed to T3 and delivered. -/
def State.evictRank (s : State) (r : Rec) : Option (Nat × Nat) :=
  if !r.settled then none
  else
    match r.cls with
    | 3 => some (0, r.id)
    | 2 => some (1 + s.prioOf r, r.id)
    | 1 => some (5, r.id)
    | _ => none

/-- The record of a list that R293 ranks first. -/
def State.evictFirst (s : State) (cands : List Rec) : Option Rec :=
  cands.foldl
    (fun best r =>
      match s.evictRank r with
      | none => best
      | some k =>
        match best with
        | none => some r
        | some b =>
          match s.evictRank b with
          | none => some r
          | some kb => if k.1 < kb.1 ∨ (k.1 = kb.1 ∧ k.2 < kb.2) then some r else best) none

/-- The record that R293 ranks first in some tiers. -/
def State.evictVictim (s : State) (tiers : List Tier) : Option Rec := s.evictFirst (s.locus.recs.filter fun r => tiers.contains r.tier)

/-- A record evicted and counted (R293). -/
def State.evict (s : State) (v : Rec) : State :=
  { s with locus := { s.locus with recs := s.locus.recs.filter (fun r => r.id != v.id), evictions := min (s.locus.evictions + 1) (2 ^ 32 - 1) } }

/-- Evict from some tiers until `n` bytes fit in one of them; the tier where room was made. -/
def State.evictFor (s : State) (tiers : List Tier) (n : Nat) : Nat → Option (Tier × State)
  | 0 => none
  | fuel + 1 =>
    match tiers.find? fun t => s.locus.room t n with
    | some t => some (t, s)
    | none =>
      match s.evictVictim tiers with
      | none => none
      | some v => (s.evict v).evictFor tiers n fuel

/-- Room for `n` bytes of D0 in the stage: D1 makes way there, which R294 lets D0 take room from once its reserve is full. Settled D1
is evicted; claimed D1 goes on in the record buffer (R288). Answers whether the room is there. DEDUCED, log entry 58. -/
def State.makeWay (s : State) (n : Nat) : Nat → Bool × State
  | 0 => (decide (s.locus.fill .stage + n ≤ stageSize), s)
  | fuel + 1 =>
    if s.locus.fill .stage + n ≤ stageSize then (true, s)
    else
      match s.evictVictim [.stage] with
      | some v => (s.evict v).makeWay n fuel
      | none =>
        match s.locus.recs.find? fun r => r.tier == .stage && r.cls == 1 && s.locus.room .buffer r.bytes.length with
        | some v =>
          let move := fun (r : Rec) => if r.id = v.id then { r with tier := .buffer } else r
          State.makeWay { s with locus := { s.locus with recs := s.locus.recs.map move } } n fuel
        | none => (false, s)

/-- The part spills (R305): it has no storage die, or T3_FAIL is set, and SPILL_EN is 1. -/
def State.spills (s : State) : Bool := (!s.part.store || s.locus.t3Fail) && s.fB 0x13 0 0 3

/-- Own storage die in use: fitted, T3_EN and no T3_FAIL (R304, R316). -/
def State.t3Usable (s : State) : Bool := s.part.store && s.fB 0x13 0 0 1 && !s.locus.t3Fail

/-- The writer may take records: T3 or T5 is writable under R301, R302 and R305. -/
def State.writable (s : State) : Bool :=
  if s.t3Usable then !s.locus.cold else s.spills && s.locus.holder.isSome

/-- Group of a class in the writer: D0-D1, D2, D3 (R294). -/
def groupOf (cls : Nat) : Nat := if cls ≤ 1 then 0 else cls - 1

/-- A capture block that STORE_D3 keeps (R294). -/
def State.keepsD3 (s : State) (r : Rec) : Bool := r.recType == 0x0301 && s.fB 0x13 0 0 4 && s.t3Usable

/-- A record the writer may take: not in a unit, and not yet in T3 or T5, or a D0 record whose second copy is still to be written
(R299); of D3 only capture blocks under STORE_D3, never to a holder and none after a power-fail warning (R311). -/
def State.writerTakes (s : State) (r : Rec) : Bool :=
  !r.inUnit && (r.owner = 0 || s.t3Usable) &&
    (r.tier = .stage || r.tier = .buffer || r.tier = .capture || (r.tier = .t3 && r.cls = 0 && r.copies < 2)) &&
    (r.cls ≤ 2 || (s.keepsD3 r && s.power.warnAt.isNone))

/-- A settled D3 block that STORE_D3 does not keep leaves the capture buffer: a stream block at once, a capture block once it
has been fetched or its claim has ended (R292, R294). DEDUCED, log entry 58. -/
def State.releaseD3 (s : State) (id : Nat) (fetched : Bool) : State :=
  let goes := fun (r : Rec) =>
    r.id == id && r.cls == 3 && r.tier == .capture && r.settled && !r.inUnit && !s.keepsD3 r && (fetched || r.recType != 0x0301)
  { s with locus := { s.locus with recs := s.locus.recs.filter fun r => !goes r } }

/-- The open unit of a group, or a fresh one. -/
def LocusState.unitOf (l : LocusState) (g now : Nat) : OpenUnit :=
  (l.units.find? fun u => u.group == g).getD { group := g, ids := [], parts := [], bytes := 0, firstAt := now }

/-- The open unit of a group replaced. -/
def LocusState.putUnit (l : LocusState) (u : OpenUnit) : LocusState :=
  { l with units := (l.units.filter fun v => v.group != u.group) ++ [u] }

/-- A closed unit among those that wait, the highest class first and the oldest of each first (R294); the one that is being
programmed stays at the head. -/
def LocusState.queueUnit (l : LocusState) (u : OpenUnit) : List OpenUnit :=
  let held := l.progQ.take (if l.busy.isSome then 1 else 0)
  let rest := l.progQ.drop held.length
  held ++ rest.filter (fun v => v.group ≤ u.group) ++ [u] ++ rest.filter fun v => u.group < v.group

/-- The open unit of a group closed and queued for programming (R295). -/
def LocusState.closeUnit (l : LocusState) (g : Nat) : LocusState :=
  match l.units.find? fun u => u.group == g with
  | none => l
  | some u => { l with units := l.units.filter (fun v => v.group != g), progQ := l.queueUnit u }

/-- Bytes of a record written into the open unit of a group: one that fills closes, and what is left goes into the next
(R294, R295). -/
def LocusState.pour (l : LocusState) (g id now : Nat) : Nat → Nat → LocusState
  | 0, _ => l
  | fuel + 1, n =>
    let u := l.unitOf g now
    let room := unitSize - u.bytes
    if n < room then l.putUnit { u with ids := u.ids ++ [id], bytes := u.bytes + n }
    else if n = room then (l.putUnit { u with ids := u.ids ++ [id], bytes := unitSize }).closeUnit g
    else ((l.putUnit { u with parts := u.parts ++ [id], bytes := unitSize }).closeUnit g).pour g id now fuel (n - room)

/-- A record appended to the open unit of its group; a D3 unit closes at a block that carries LAST (R294, R295). -/
def LocusState.append (l : LocusState) (r : Rec) (now : Nat) : LocusState :=
  let g := groupOf r.cls
  let l := l.pour g r.id now (r.bytes.length / unitSize + 2) r.bytes.length
  let l := { l with recs := l.recs.map fun x => if x.id = r.id then { x with inUnit := true } else x }
  if r.cls = 3 ∧ bit (rd r.bytes 22 1) 6 then l.closeUnit g else l

/-! ### Blocks of the storage die (R298 to R300) -/

/-- Erase blocks of the storage die (R298). -/
def blockCount : Nat := 2048
/-- Blocks that give the 7 GiB of T3 (R2, R298); the others are spares. -/
def placeBlocks : Nat := 1792
/-- Units of a block (R298). -/
def blockUnits : Nat := 64
/-- Cap of the bucket, 64 GiB (R300). -/
def bucketCap : Int := 68719476736

/-- A block that no list names, as it is when fresh. -/
def LocusState.fresh (l : LocusState) (i : Nat) : Blk :=
  { idx := i, erases := 0, used := 0, age := l.ageRest, retired := false, overdue := l.restOverdue }

/-- Block i. -/
def LocusState.blk (l : LocusState) (i : Nat) : Blk := (l.blocks.find? fun b => b.idx == i).getD (l.fresh i)

/-- Block i replaced. -/
def LocusState.setBlk (l : LocusState) (b : Blk) : LocusState :=
  { l with blocks := (l.blocks.filter fun x => x.idx != b.idx) ++ [b] }

/-- The bucket charged for some units (R300). -/
def LocusState.charge (l : LocusState) (units : Nat) : LocusState := { l with bucket := l.bucket - (65536 * units : Nat) }

/-- A free block of a low index that no list names. -/
def LocusState.unlisted (l : LocusState) : Option Nat :=
  (List.range (min blockCount (l.blocks.length + 1))).find? fun i => l.blocks.all fun b => b.idx != i

/-- The free block with the fewest erases (R300); one that no list names has none. -/
def LocusState.freeBlock (l : LocusState) : Option Blk :=
  match l.unlisted with
  | some i => some (l.fresh i)
  | none =>
    (l.blocks.filter fun b => !b.retired && b.used == 0).foldl
      (fun best b => match best with | none => some b | some x => if b.erases < x.erases then some b else best) none

/-- Records that a block holds. -/
def LocusState.inBlock (l : LocusState) (i : Nat) : List Rec := l.recs.filter fun r => r.tier == .t3 && r.blocks.contains i

/-- A block erased: its erase count rises, its thermal age starts again and its units are gone. -/
def LocusState.erase (l : LocusState) (i : Nat) : LocusState :=
  let b := l.blk i
  { (l.setBlk { b with erases := b.erases + 1, used := 0, age := 0, overdue := false }) with
    stored := l.stored.filter fun u => u.block != i }

/-- Room made by eviction when no block may be taken (R293): settled records leave T3 until a block holds none, and that
block is erased. -/
def State.reclaim (s : State) : Nat → Option State
  | 0 => none
  | n + 1 =>
    match s.locus.blocks.find? fun b => !b.retired && b.used != 0 && s.locus.busy != some b.idx && (s.locus.inBlock b.idx).isEmpty with
    | some b => some { s with locus := s.locus.erase b.idx }
    | none =>
      match s.evictVictim [.t3] with
      | none => none
      | some v => (s.evict v).reclaim n

/-- Blocks in use for records (R298). -/
def LocusState.inUse (l : LocusState) : Nat := (l.blocks.filter fun b => !b.retired && b.used != 0).length

/-- The block that takes the next unit, but for some blocks: one that is partly written, else the free one with the fewest erases.
Placement uses no more than the 1,792 blocks of T3; the copies of a retired or refreshed block may take a spare (R298, R300). -/
def State.targetBlock (s : State) (but : List Nat) (spare : Bool) : Option (Blk × State) :=
  match s.locus.blocks.find? fun b => !b.retired && 0 < b.used && b.used < blockUnits && !but.contains b.idx with
  | some b => some (b, s)
  | none =>
    match (if spare || s.locus.inUse < placeBlocks then s.locus.freeBlock else none) with
    | some b => some (b, s)
    | none => (s.reclaim (s.locus.recs.length + 1)).bind fun s => s.locus.freeBlock.map fun b => (b, s)

/-- Refresh comes before any other write (R303): a block in use is older than 9,500 h and may be refreshed. -/
def State.refreshFirst (s : State) : Bool :=
  s.inRun && decide (-1073741824 < s.locus.bucket) && s.locus.blocks.any fun b => !b.retired && b.used != 0 && decide (9500 < b.age)

/-- A unit may begin to be programmed (R301 to R303): above 0 at once, at 0 or below at the accrual rate. -/
def State.admitsUnit (s : State) : Bool :=
  s.t3Usable && !s.locus.cold && (decide (0 < s.locus.bucket) || decide (65536 ≤ s.locus.credit)) && !s.refreshFirst && s.power.warnAt.isNone

/-- The head of the queue begins to be programmed when it is admitted: in a block that holds no first copy of its D0 records
(R299), whose next unit it takes. It waits when T3 holds nothing that may leave. -/
def State.startUnit (s : State) (admitted : Bool) : State :=
  match s.locus.progQ, s.locus.busy with
  | u :: _, none =>
    if !admitted then s
    else
      let first := (s.locus.recs.filter fun r => (u.ids ++ u.parts).contains r.id && r.cls == 0 && r.copies != 0).flatMap (·.blocks)
      match s.targetBlock first false with
      | none => s
      | some r =>
        let l := r.2.locus.setBlk { r.1 with used := r.1.used + 1 }
        let slow := decide (l.bucket ≤ 0)
        { r.2 with locus := { l with busy := some r.1.idx, credit := if slow then max 0 (l.credit - 65536) else l.credit } }
  | _, _ => s

/-- The writer of R294: the oldest record of the highest class first, while T3 or T5 is writable; the next unit begins to be
programmed. -/
def State.writer (s : State) : State :=
  if !s.writable then s
  else
    let takes := s.locus.recs.filter s.writerTakes
    let order := (takes.filter (·.cls = 0)) ++ (takes.filter (·.cls = 1)) ++ (takes.filter (·.cls = 2)) ++
      (takes.filter (·.cls = 3))
    let l := order.foldl (fun l r => l.append r s.now) s.locus
    let l := if 3 * l.stageCap < 4 * l.fill .stage then l.closeUnit 0 else l
    let s := { s with locus := l }
    s.startUnit s.admitsUnit

/-! ### Claims (R292, R296) -/

/-- Size of a ring in bytes (R322). -/
def Queue.ringSize (q : Queue) : Nat := 2 ^ bits q.cfg 31 27

/-- Bytes an entry takes: header, record and padding to 16 (R339). -/
def entrySize (n : Nat) : Nat := 16 + (n + 15) / 16 * 16

/-- Free space of a ring: (head − tail − 16) modulo the ring size (R340). -/
def Queue.ringFree (q : Queue) : Nat := (q.host + q.ringSize + q.ringSize - q.ptr - 16) % q.ringSize

/-- Bytes an entry of `n` record bytes needs at the ring's tail, WRAP entry included (R340). -/
def Queue.ringNeed (q : Queue) (n : Nat) : Nat :=
  if q.ptr + entrySize n ≤ q.ringSize then entrySize n else q.ringSize - q.ptr + entrySize n

/-- An entry of `n` record bytes fits now. -/
def Queue.ringFits (q : Queue) (n : Nat) : Bool := q.ringNeed n ≤ q.ringFree

/-- The subscription's counter of skipped or dropped records raised (R296). -/
def HifState.skip (h : HifState) (sub : Nat) : HifState :=
  { h with subs := h.subs.map fun x => if x.sub = sub then { x with skipped := (x.skipped + 1) % 2 ^ 32 } else x }

/-- The entries of a list that a ring has no room for: they are written in their order, so all from the first that does not fit
in what the others leave (R340). -/
def Queue.stuck (q : Queue) : Nat → List StrWait → List StrWait
  | _, [] => []
  | free, w :: ws =>
    let n := q.ringNeed w.bytes.length
    if n ≤ free then Queue.stuck { q with ptr := (q.ptr + n) % q.ringSize } (free - n) ws else w :: ws

/-- A claimed record queued for its ring. Where the ring is full, D2 keeps only the newest record of the stream and D3 is dropped
from the claim (R296). Answers whether the claim stands, and the older records that it puts out. -/
def HifState.queueClaim (h : HifState) (w : StrWait) : Bool × List StrWait × HifState :=
  let q := h.str.getD w.ring Queue.initial
  let waits := h.strWait.filter fun x => x.ring == w.ring && x.writtenEnd.isNone
  let stuck := q.stuck q.ringFree (waits ++ [w])
  if stuck.isEmpty then (true, [], { h with strWait := h.strWait ++ [w] })
  else if w.cls = 3 then (false, [], h.skip w.sub)
  else if w.cls = 2 then
    let old := stuck.filter fun x => x != w && x.sub == w.sub && x.recType == w.recType && x.src == w.src
    let h := old.foldl (fun h _ => h.skip w.sub) h
    (true, old, { h with strWait := (h.strWait.filter fun x => !old.contains x) ++ [w] })
  else (true, [], { h with strWait := h.strWait ++ [w] })

/-- A record of the part with identity `ident` offered to one subscription: every DECIM-th record from T_FROM onward is
claimed, until it is closed (R291, R362). -/
def Sub.selects (x : Sub) (ident recType src time : Nat) : Bool :=
  x.ident == ident && x.recType == recType && x.src == src && x.tFrom ≤ time && x.closing.isNone

/-- The subscription's count advanced, and whether this record is claimed. -/
def Sub.next (x : Sub) : Bool × Sub := (x.count % x.decim == 0, { x with count := x.count + 1 })

/-- The count of one subscription replaced. -/
def State.countSub (s : State) (sub count : Nat) : State :=
  { s with hif := { s.hif with subs := s.hif.subs.map fun y => if y.sub = sub then { y with count := count } else y } }

/-- A record or block counted as dropped by its class (R297, R318). -/
def State.countDrop (s : State) (cls : Nat) : State :=
  { s with locus := { s.locus with drops := modNth (fun d => min (d + 1) (2 ^ 32 - 1)) (cls - 1) s.locus.drops } }

/-- The claims on a record noted in it (R292). -/
def State.noteClaims (s : State) (id : Nat) (claims : List Nat) : State :=
  { s with locus := { s.locus with recs := s.locus.recs.map fun r => if r.id = id then { r with claims := claims } else r } }

/-- One claim leaves a record of Locus (R292). -/
def State.dropClaim (s : State) (id sub : Nat) : State :=
  let drop := fun (r : Rec) => if r.id = id then { r with claims := r.claims.erase sub } else r
  ({ s with locus := { s.locus with recs := s.locus.recs.map drop } }).releaseD3 id true

/-- A claimed record is consumed or given up (R292): its claim leaves the record; the part that holds the record of another part
is told, in a frame that no rule lays out: 0x08, SUB, REC_TYPE, island or port, and the record's time. DESIGN CHOICE, log entry 13. -/
def State.unclaim (s : State) (w : StrWait) : State :=
  match w.ref with
  | none => s.originate 1 0x10 w.pos (le 1 0x08 ++ le 1 w.sub ++ le 2 w.recType ++ le 1 w.src ++ slice w.bytes 8 8)
  | some id => s.dropClaim id w.sub

/-- At the part that holds the record: the records of a stream up to the one that the gateway names are claimed no longer by a
subscription, or with SUB 0xFF by any that is no longer open. -/
def State.unclaimTo (s : State) (sub recType src time : Nat) : State :=
  let named := fun (x : Nat) => if sub = 0xFF then !s.hif.subs.any fun y => y.sub == x else x == sub
  let mine := s.locus.recs.filter fun r => r.owner == 0 && r.recType == recType && r.src == src && decide (r.time ≤ time)
  mine.foldl (fun s r => (r.claims.filter named).foldl (fun s x => s.dropClaim r.id x) s) s

/-- A claim queued at the gateway: what it puts out is claimed no longer, and a block that a full ring drops is counted (R296,
R297). Answers whether the claim stands. -/
def State.queueClaim (s : State) (w : StrWait) : Bool × State :=
  let r := s.hif.queueClaim w
  let s := r.2.1.foldl (fun s x => s.unclaim x) { s with hif := r.2.2 }
  if r.1 then (true, s)
  else
    let s := if w.ref.isNone then s.unclaim w else s
    (false, s.countDrop w.cls)

/-- A record of this or another part offered to every subscription of the gateway. Answers the
subscriptions whose claims stand. -/
def State.claimAll (s : State) (pos recType src time cls : Nat) (bytes : List Byte) (ref : Option Nat) :
    List Nat × State :=
  s.hif.subs.foldl
    (fun (acc : List Nat × State) x =>
      let s := acc.2
      if x.selects (s.identOf pos) recType src time then
        let n := x.next
        let s := s.countSub x.sub n.2.count
        if n.1 then
          let r := s.queueClaim
            { sub := x.sub, ring := x.ring, cls := cls, recType := recType, src := src, pos := pos, bytes := bytes,
              ref := ref, writtenEnd := none }
          (if r.1 then acc.1 ++ [x.sub] else acc.1, r.2)
        else (acc.1, s)
      else acc) ([], s)

/-- At a module part the subscriptions that claim a record, which travels to the gateway as a frame when one selects it (R288,
R292, R294); the gateway counts it against each DECIM as this part does. -/
def State.sendClaims (s : State) (recType src time : Nat) (bytes : List Byte) : List Nat × State :=
  let mine := s.hif.subs.filter fun x => x.selects s.part.ident recType src time
  let s := mine.foldl (fun s x => s.countSub x.sub x.next.2.count) s
  ((mine.filter fun x => x.next.1).map (·.sub),
   if mine.isEmpty then s else if classOf recType = 3 then s.originate 3 0x30 0 bytes else s.originate 2 0x20 0 bytes)

/-- A record that Locus has placed is claimed by the subscriptions that select it; a D3 block whose claim its full ring has ended is
released like one that the host has consumed (R292, R296). -/
def State.claimNew (s : State) (id recType src time cls : Nat) (bytes : List Byte) : State :=
  let c := if s.hosted then s.claimAll s.pos recType src time cls bytes (some id) else s.sendClaims recType src time bytes
  let wanted := s.hif.subs.any fun x => x.selects s.part.ident recType src time && x.next.1
  (c.2.noteClaims id c.1).releaseD3 id (wanted && c.1.isEmpty)

end Sys2Proof.Machine
end

