-- ==== Sys2Proof/Machine/Ops.lean ====
section
/-! DEFINITION. The shared operations of the part: raising an event (R341), a placement record (R314),
placing a record in Locus (R294), handing a die's record or event to the hub (R494), and completing a
command (R335 to R338). -/

namespace Sys2Proof.Machine

/-! ### Events (R341, R342) -/

/-- An event entry of R341 without PHASE and DELAYED, closed with its CHECK. -/
def eventEntry (source pos island tq seq t subkind item arg16 arg64 : Nat) : List Byte :=
  withCrc32c (le 1 source ++ le 1 pos ++ le 1 island ++ le 1 (fld 4 2 tq) ++ le 4 seq ++ le 8 t ++ le 1 subkind ++
    le 1 item ++ le 2 arg16 ++ le 8 arg64)

/-- A D0 record put into the stage, or into the record buffer when the stage holds D0 alone: never dropped (R288, R294, R297). A
subscription to the part's own stream claims it (R291). -/
def State.stageD0 (s : State) (recType src time : Nat) (bytes : List Byte) : State :=
  let w := s.makeWay bytes.length (2 * s.locus.recs.length + 1)
  let s := w.2
  let l := s.locus
  let r : Rec :=
    { id := l.nextId, cls := 0, recType := recType, src := src, owner := 0, time := time, arrived := s.now,
      bytes := bytes, tier := if w.1 then .stage else .buffer, blocks := [], copies := 0, inUnit := false, claims := [], delivered := false }
  let s := { s with locus := { l with recs := l.recs ++ [r], nextId := l.nextId + 1 } }
  if isStreamType recType then s.claimNew l.nextId recType src time 0 bytes else s

/-- What an event says (R342). -/
structure Ev where
  source : Nat
  island : Nat := 0
  subkind : Nat := 0
  item : Nat := 0
  arg16 : Nat := 0
  arg64 : Nat := 0
deriving DecidableEq, Repr

/-- A record waits for Apex to sign and write it; when more than 64 wait, those that wait are written with UNSIGNED (R453). -/
def State.queueBb (s : State) (w : BbWait) : State :=
  let l := s.trust.bbWait ++ [w]
  { s with trust := { s.trust with bbWait := if 64 < l.length then l.map fun (x : BbWait) => { x with unsign := true } else l } }

/-- An event of the part: its D0 record is staged, it waits for the black box, and its entry waits for
the event queue of the gateway or leaves a module part as a TC1 event-record frame (R294, R341).
`full` is the record that stands for it, when it is not the entry itself. -/
def State.eventAt (s : State) (e : Ev) (t : Nat) (full : Option (Nat × List Byte)) : State :=
  let entry := eventEntry e.source s.pos e.island s.tq s.part.evtSeq t e.subkind e.item e.arg16 e.arg64
  let id := s.locus.nextId
  let f := full.getD (0, entry)
  let s := s.stageD0 f.1 0 t f.2
  let w : BbWait := { kind := 0x10, keep := false, time := t, debug := s.trust.debugMark, unsign := false, body := entry.take 28 }
  let s := ({ s with part := { s.part with evtSeq := (s.part.evtSeq + 1) % 2 ^ 32 } }).queueBb w
  let s :=
    if s.hosted then
      { s with hif := { s.hif with eqWait := s.hif.eqWait ++ [{ bytes := entry, since := s.now, ref := some id }] } }
    else s.originate 1 0x12 0 entry
  s.writer

/-- A black-box record asked for (R454). -/
def State.blackBox (s : State) (kind : Nat) (keep : Bool) (body : List Byte) : State :=
  let w : BbWait := { kind := kind, keep := keep, time := s.now, debug := s.trust.debugMark, unsign := false, body := body }
  s.queueBb w

/-- An event raised by the hub now. -/
def State.event (s : State) (e : Ev) : State := s.eventAt e s.now none

/-- Bytes that the record buffer of a die holds (R494). -/
def Die.t0Used (d : Die) : Nat :=
  d.t0.foldl (fun n r => n + r.2.2.length) 0 + d.t0Events.foldl (fun n e => n + max 32 e.2.2.length) 0

/-- An event raised by cell die k at an instant, held in T0 while the hub cannot take it and behind what is held there (R494). `full` is the record
that stands for it, empty when it is the entry itself. -/
def State.dieEventFull (s : State) (k : Nat) (e : Ev) (t : Nat) (full : List Byte) : State :=
  if s.hubTakes k && ((s.die? k).map fun d => d.t0Events.isEmpty).getD true then
    s.eventAt { e with island := k } t (if full.isEmpty then none else some (0, full))
  else s.modDie k fun d =>
    if d.t0Used + max 32 full.length ≤ t0Size then
      { d with t0Events := d.t0Events ++ [(d.t0.length, [e.source, e.subkind, e.item, e.arg16, e.arg64, t], full)] }
    else { d with t0Drop := d.t0Drop + 1 }

/-- An event raised by cell die k at an instant. -/
def State.dieEventAt (s : State) (k : Nat) (e : Ev) (t : Nat) : State := s.dieEventFull k e t []

/-- An event raised by cell die k now. -/
def State.dieEvent (s : State) (k : Nat) (e : Ev) : State := s.dieEventAt k e s.now

/-! ### Placement records (R314, R315) -/

/-- Event source of a placement kind (R342, sources 39 to 43). -/
def placeSource (kind : Nat) : Nat :=
  if kind ≤ 0x04 then 39
  else if kind ≤ 0x13 then 40
  else if kind ≤ 0x15 then 41
  else if kind ≤ 0x18 then 42
  else 43

/-- A placement record of R314. -/
def placementBytes (pos kind island task reason t : Nat) (value : Int) (stream : Nat) : List Byte :=
  withCrc32c (le 2 0x0B01 ++ le 1 pos ++ le 1 kind ++ le 1 island ++ le 1 task ++ le 1 reason ++ zeros 1 ++ le 8 t ++
    leInt 8 value ++ le 4 stream)

/-- A placement record raised: also an event (R314); ARG16 carries the class of a drop. -/
def State.placement (s : State) (kind island task reason : Nat) (value : Int) (stream arg16 : Nat) : State :=
  s.eventAt
    { source := placeSource kind, island := island, subkind := kind, arg16 := arg16, arg64 := unsignedBits 64 value }
    s.now (some (0x0B01, placementBytes s.pos kind island task reason s.now value stream))

/-! ### Placing a record (R294) -/

/-- STREAM of a placement record (R314). -/
def streamId (recType src : Nat) : Nat := fld 16 16 recType + fld 8 8 src

/-- A record dropped: counted by class, and the first of a run raises a drop-begin record. -/
def State.dropRec (s : State) (cls recType src : Nat) : State :=
  let l := s.locus
  let first := (l.dropRun.getD (cls - 1) none).isNone
  let n := (l.dropRun.getD (cls - 1) none).getD 0
  let s := ({ s with locus := { l with dropRun := setNth (cls - 1) (some (n + 1)) l.dropRun } }).countDrop cls
  if first then s.placement 0x14 0 0 0 0 (streamId recType src) cls else s

/-- The first record placed after a run of drops raises a drop-end record with the count (R294). -/
def State.endDrops (s : State) (cls recType src : Nat) : State :=
  match s.locus.dropRun.getD (cls - 1) none with
  | none => s
  | some n =>
    let s := { s with locus := { s.locus with dropRun := setNth (cls - 1) none s.locus.dropRun } }
    s.placement 0x15 0 0 0 n (streamId recType src) cls

/-- The tier that takes a record of class 1 to 3, with the state after any eviction; none when it must be dropped. -/
def State.tierFor (s : State) (cls n : Nat) : Option (Tier × State) :=
  let fuel := s.locus.recs.length + 1
  match cls with
  | 1 =>
    if s.locus.room .stage n then some (.stage, s)
    else if s.locus.room .buffer n then some (.buffer, s)
    else s.evictFor [.stage, .buffer] n fuel
  | 2 => if s.locus.room .buffer n then some (.buffer, s) else s.evictFor [.buffer] n fuel
  | _ => if s.locus.room .capture n then some (.capture, s) else s.evictFor [.capture] n fuel

/-- A record of class D1 to D3 put into its tier. -/
def State.putRec (s : State) (tier : Tier) (cls recType src time : Nat) (bytes : List Byte) : State :=
  let l := s.locus
  let r : Rec :=
    { id := l.nextId, cls := cls, recType := recType, src := src, owner := 0, time := time, arrived := s.now,
      bytes := bytes, tier := tier, blocks := [], copies := 0, inUnit := false, claims := [], delivered := false }
  { s with locus := { l with recs := l.recs ++ [r], nextId := l.nextId + 1 } }

/-- A record placed by its class (R294); a D3 block whose claim its full ring has ended is released like one that the host has
consumed (R296). -/
def State.place (s : State) (recType src time : Nat) (bytes : List Byte) : State :=
  let cls := classOf recType
  if cls = 0 then (s.stageD0 recType src time bytes).writer
  else
    match s.tierFor cls bytes.length with
    | none => s.dropRec cls recType src
    | some r =>
      let id := r.2.locus.nextId
      let s := r.2.putRec r.1 cls recType src time bytes
      ((s.endDrops cls recType src).claimNew id recType src time cls bytes).writer

/-- A record formed by a cell die: kept in T0, in order; the newest is dropped when T0 is full (R494). -/
def State.dieRecord (s : State) (k recType time : Nat) (bytes : List Byte) : State :=
  s.modDie k fun d =>
    if d.t0Used + bytes.length ≤ t0Size then { d with t0 := d.t0 ++ [(recType, time, bytes)] }
    else { d with t0Drop := d.t0Drop + 1 }

/-! ### Completions (R335 to R338) -/

/-- Status codes common to all opcodes (R338). -/
inductive Status where
  | success | invalidOpcode | invalidField | invalidLength | invalidPosition | invalidTarget | duplicateCid
  | unreachable | timeout | dmaError | aborted | notPermitted | powerState | partialDone | internalError
  | configInvalid | commitLate | commitPending | commitCancelled | groupAborted | timeUnlocked | dieUnavailable
  | captureBusy | noEdge | captureAborted | noSuchStream | recordLost | subInUse | ringDisabled | imageRejected
  | imageIncomplete | enumRunning | aliveMismatch | busUnstable
deriving DecidableEq, Repr

/-- Code of a status (R338, R350). -/
def Status.code : Status → Nat
  | .success => 0x0000
  | .invalidOpcode => 0x0001
  | .invalidField => 0x0002
  | .invalidLength => 0x0003
  | .invalidPosition => 0x0004
  | .invalidTarget => 0x0005
  | .duplicateCid => 0x0006
  | .unreachable => 0x0007
  | .timeout => 0x0008
  | .dmaError => 0x0009
  | .aborted => 0x000A
  | .notPermitted => 0x000B
  | .powerState => 0x000C
  | .partialDone => 0x000D
  | .internalError => 0x000E
  | .configInvalid => 0x0100
  | .commitLate => 0x0101
  | .commitPending => 0x0102
  | .commitCancelled => 0x0103
  | .groupAborted => 0x0104
  | .timeUnlocked => 0x0105
  | .dieUnavailable => 0x0106
  | .captureBusy => 0x0107
  | .noEdge => 0x0108
  | .captureAborted => 0x0109
  | .noSuchStream => 0x010A
  | .recordLost => 0x010B
  | .subInUse => 0x010C
  | .ringDisabled => 0x010D
  | .imageRejected => 0x010E
  | .imageIncomplete => 0x010F
  | .enumRunning => 0x0110
  | .aliveMismatch => 0x0111
  | .busUnstable => 0x0112

/-- Status code by which a module part's PREPARED of a group commit travels to the gateway (R359); no rule gives its
form, and no completion written to the host carries it. DESIGN CHOICE, log entry 13. -/
def preparedCode : Nat := 0x7FFE

/-- Codes by which a module part tells the gateway that a PWM capture with an arm instant has been armed, and that one
has ended unanswered (R81): the instant travels in RESULT and XFER. No rule gives their form. DESIGN CHOICE, log entry 13. -/
def armedCode : Nat := 0x7FFD
/-- See `armedCode`. -/
def disarmedCode : Nat := 0x7FFC

/-- The command in flight that a completion answers: of this SQ, CID and fetch number. DESIGN CHOICE, log entry 12. -/
def InFlight.isFor (x : InFlight) (sq cid gen : Nat) : Bool := x.cmd.sq == sq && x.cmd.cid == cid && x.cmd.gen == gen && !x.completed

/-- The same command in flight. -/
def InFlight.same (x y : InFlight) : Bool := y.isFor x.cmd.sq x.cmd.cid x.cmd.gen

/-- A completion formed for a command in flight: it waits for the CQ that its SQ named when it was fetched (R323, R336). -/
def State.queueCompletion (s : State) (x : InFlight) (origin result xfer code : Nat) : State :=
  { s with hif := { s.hif with
      inflight := s.hif.inflight.map fun y => if x.same y then { y with completed := true } else y,
      cqWait := s.hif.cqWait ++ [{ cq := x.cq, sq := x.cmd.sq, cid := x.cmd.cid, gen := x.cmd.gen, origin := origin, result := result,
                                   xfer := xfer, status := code }] } }

/-- Bytes written to a command's buffer ranges, in order, as far as they go (R330). -/
def State.writeBuffer (s : State) : List (Nat × Nat) → List Byte → State
  | [], _ => s
  | _, [] => s
  | (a, n) :: rs, bs => State.writeBuffer (s.emit (.hostWrite a (bs.take n))) rs (bs.drop n)

/-- A broadcast ends when every part has completed it, or its TIMEOUT has run out (R337): the status
vector is written first when it was asked for, then the one completion. -/
def State.finishBroadcast (s : State) (x : InFlight) : State :=
  let parts := max 1 s.chainParts
  let codeAt := fun p => ((x.votes.find? fun v => v.1 == p).map (·.2)).getD Status.timeout.code
  let good := ((List.range parts).filter fun p => codeAt p == 0).length
  let vec := (List.range 64).flatMap fun p => le 2 (if p < parts then codeAt p else 0x7FFF)
  let vecOn := bit x.cmd.flags 2
  let s := if vecOn then s.writeBuffer x.ranges vec else s
  s.queueCompletion x 63 (good + 65536 * (parts - good)) (if vecOn then 128 else 0)
    (if good = parts then 0 else Status.partialDone.code)

/-- One part's status for a command in flight, at the gateway. -/
def State.vote (s : State) (x : InFlight) (pos code : Nat) : State :=
  let y := { x with votes := (x.votes.filter fun v => v.1 != pos) ++ [(pos, code)] }
  let s := { s with hif := { s.hif with
    inflight := s.hif.inflight.map fun z => if x.same z then y else z } }
  if y.votes.length ≥ max 1 s.chainParts then s.finishBroadcast y else s

/-- A completion on its way to the gateway: the sixteen bytes of R335 with PHASE 0 and the fetch number in the place of
SQ_HEAD. DESIGN CHOICE, log entry 12. -/
def completionBytes (cid sq gen origin result xfer code : Nat) : List Byte :=
  le 2 cid ++ le 1 sq ++ le 1 origin ++ le 4 result ++ le 4 xfer ++ le 2 gen ++ le 2 code

/-- The gateway takes a completion of a command: one that is no longer in flight is discarded and counted
in LATE_COMPL (R334), or among those a HIF reset discards (R321). -/
def State.takeCompletion (s : State) (sq cid gen origin result xfer code : Nat) (data : List Byte) : State :=
  match s.hif.inflight.find? fun x => x.isFor sq cid gen with
  | none =>
    if s.hif.orphans.contains (sq, cid, gen) then
      { s with hif := { s.hif with orphans := s.hif.orphans.erase (sq, cid, gen) } }
    else { s with hif := { s.hif with lateCompl := satInc 16 s.hif.lateCompl } }
  | some x =>
    if x.cmd.dest = 63 then s.vote x origin code
    else (s.writeBuffer x.ranges data).queueCompletion x origin result xfer code

/-- A module part tells the gateway of an arm instant (R81). -/
def State.tellArmed (s : State) (a code : Nat) : State :=
  if s.isModule then s.originate 1 0x11 0 (completionBytes 0xFFFF 0xFF 0 s.pos (a % 2 ^ 32) (a / 2 ^ 32) code) else s

/-- The executor completes a command: at a hosted part the completion is taken at once, from a module
part it travels to the gateway as a TC1 completion frame with the data of its buffer (R333). -/
def State.completeData (s : State) (c : Cmd) (st : Status) (result : Nat) (data : List Byte) : State :=
  if s.hosted then s.takeCompletion c.sq c.cid c.gen s.pos result data.length st.code data
  else s.originate 1 0x11 0 (completionBytes c.cid c.sq c.gen s.pos result data.length st.code ++ data)

/-- A completion that moves `xfer` bytes in from the buffer, or none. -/
def State.completeX (s : State) (c : Cmd) (st : Status) (result xfer : Nat) : State :=
  if s.hosted then s.takeCompletion c.sq c.cid c.gen s.pos result xfer st.code []
  else s.originate 1 0x11 0 (completionBytes c.cid c.sq c.gen s.pos result xfer st.code)

/-- A completion without data. -/
def State.complete (s : State) (c : Cmd) (st : Status) (result : Nat) : State := s.completeX c st result 0

/-- A completion of a command that may be none. -/
def State.completeOpt (s : State) (c : Option Cmd) (st : Status) (result : Nat) : State :=
  match c with
  | some c => s.complete c st result
  | none => s

/-- The balance fields of die k come into force: a BALANCE_POLICY that waited for the last of its dies completes (R348, R361). -/
def State.policyTaken (s : State) (k : Nat) : State :=
  let l := s.cfg.policies.map fun x => (x.1, x.2.filter (· != k))
  let done := l.filter fun x => x.2.isEmpty
  done.foldl (fun s x => s.complete x.1 .success 0) { s with cfg := { s.cfg with policies := l.filter fun x => !x.2.isEmpty } }

/-- The modulators of every cell die are re-phased to a pack time that has stepped: their next sample carries SYNC (R49,
R275). -/
def State.rephase (s : State) : State := s.modDies fun _ d => { d with prec := { d.prec with sync := true } }

/-- The pack time of the part at an instant: at a gateway it never decreases (R272). -/
def State.clock (s : State) (t : Nat) : Nat := if s.isGateway then max t s.now else t

/-- The instant of a command becomes the part's time (R11). DESIGN CHOICE, log entry 3. -/
def State.at_ (s : State) (t : Nat) : State := { s with now := s.clock t }

/-- Pack time steps by some ns (R275): the D0 record of source 37 holds the time after the step as its own and the time before it
in ARG64, and the cell dies re-phase. The instants of the commands that follow are those of the new pack time. DEDUCED, log entry 3. -/
def State.takeStep (s : State) (ofs : Int) : State :=
  let l := { s.link with stepDue := none, slew := 0, everLocked := true, lockRun := 0, lockBase := 0, tq := 1 }
  (({ s with now := ((s.now : Int) + ofs).toNat, link := l }).event { source := 37, arg64 := s.now }).rephase

/-- A cell die has taken its sample at an output-sample boundary: a step that is due there is made once the last die has (R275). -/
def State.stepAt (s : State) (k : Nat) : State :=
  match s.link.stepDue with
  | none => s
  | some x =>
    if s.now < x.1 then s
    else if x.2.2.all (· == k) then s.takeStep x.2.1
    else { s with link := { s.link with stepDue := some (x.1, x.2.1, x.2.2.filter (· != k)) } }

end Sys2Proof.Machine
end

