-- ==== Sys2Proof/Machine/Operands.lean ====
section
/-! DEFINITION. How an input becomes a code: rates and filters (R43), coefficients (R36, R121), code formats
and clamps (R35, R72, R101), the formats of calibration deltas and of the shunt's effective resistance (R39). -/

namespace Sys2Proof.Machine

/-- Output period of a RATE code in ns (R43): 4 ms halved for each step. -/
def ratePeriod (rate : Nat) : Nat := 4000000 / 2 ^ rate

/-- Order of the filter: 3 for sinc3, 4 for sinc4 (R43). -/
def filtOrder (filt : Bool) : Nat := if filt then 4 else 3

/-- Impulse length in ns (R43). -/
def impulseLen (rate : Nat) (filt : Bool) : Nat := filtOrder filt * ratePeriod rate

/-- Group delay in ns (R43): half the impulse. -/
def groupDelay (rate : Nat) (filt : Bool) : Nat := impulseLen rate filt / 2

/-- A code format: LSB in volts, range and the number of bits of its two's complement code. -/
structure CodeFmt where
  lsb : Rat
  lo : Int
  hi : Int
deriving DecidableEq, Repr

/-- Cell code of R35. -/
def cellFmt : CodeFmt := { lsb := 1 / 1000000, lo := -250000, hi := 5250000 }
/-- Shunt code of R35. -/
def shuntFmt : CodeFmt := { lsb := 1 / 100000000, lo := -8000000, hi := 8000000 }
/-- Stack code of R35. -/
def stackFmt : CodeFmt := { lsb := 1 / 50000, lo := -300000, hi := 6300000 }

/-- Format of precision channel Mc (R28). -/
def fmtOf (c : Nat) : CodeFmt := if c = 27 ∨ c = 28 then shuntFmt else if c = 29 then stackFmt else cellFmt

/-- A value formed as a code: the code, and whether it is clamped, on the side of the excursion (R36, R37). -/
def CodeFmt.form (f : CodeFmt) (volts : Rat) (overload : Overload) : Int × Bool :=
  let c := roundAway (volts / f.lsb)
  if c < f.lo then (f.lo, true)
  else if f.hi < c then (f.hi, true)
  else
    match overload with
    | .none => (c, false)
    | .low => (f.lo, true)
    | .high => (f.hi, true)

/-- Quadratic through the values at −40 °C, +25 °C and +110 °C, evaluated at a temperature in 0.01 °C
limited to −55 °C and +125 °C (R120, R121). -/
def quadAt (a b c : Rat) (temp : Int) : Rat :=
  let x : Rat := (clampInt (-5500) 12500 temp : Rat) / 100
  a * ((x - 25) * (x - 110)) / ((-40 - 25) * (-40 - 110)) + b * ((x + 40) * (x - 110)) / ((25 + 40) * (25 - 110)) +
    c * ((x + 40) * (x - 25)) / ((110 + 40) * (110 - 25))

/-- Factory values by default of a list. -/
def Factory.unit : Factory := { g1 := 1, g2 := 1, g3 := 1, o1 := 0, o2 := 0, o3 := 0 }

/-- Factory gain and offset of entry i at a die temperature (R121). -/
def Factory.at_ (f : Factory) (temp : Int) : Rat × Rat := (quadAt f.g1 f.g2 f.g3 temp, quadAt f.o1 f.o2 f.o3 temp)

/-- Coefficients of factory entry i at a die temperature under deltas in ppm and volts (R121); once both factory copies
are lost, the last ones formed (R122). -/
def CalState.coefOf (cal : CalState) (i : Nat) (dg dO : Rat) (temp : Int) : Rat × Rat :=
  match cal.frozen with
  | some l => l.getD i (1, 0)
  | none =>
    let f := (cal.factory.getD i Factory.unit).at_ temp
    (f.1 * (1 + dg / 1000000), f.2 + dO)

/-- Gain and offset in force of channel Mc at a die temperature (R121). -/
def CalState.coef (cal : CalState) (c : Nat) (temp : Int) : Rat × Rat :=
  cal.coefOf (c - 1) (cal.gain.getD (c - 1) 0) (cal.ofs.getD (c - 1) 0) temp

/-- The input voltage of channel Mc from its filter output: G × (m − O) (R36). -/
def CalState.volts (cal : CalState) (c : Nat) (m : Rat) (temp : Int) : Rat :=
  let k := cal.coef c temp
  k.1 * (m - k.2)

/-- Gain, offset and LSB of M30 at a gain code (R101, R131). -/
def auxVolts (cal : CalState) (m30 : M30Cal) (gain : Nat) (m : Rat) (temp : Int) : Rat :=
  let k := cal.coefOf (29 + gain) m30.gain m30.ofs temp
  k.1 * (m - k.2)

/-- The last coefficients formed of every factory entry (R122). -/
def CalState.coefs (cal : CalState) (m30 : List M30Cal) (temp : Int) : List (Rat × Rat) :=
  (List.range 29).map (fun i => cal.coef (i + 1) temp) ++
    (List.range 3).map fun g => cal.coefOf (29 + g) ((m30.map (·.gain)).getD g 0) ((m30.map (·.ofs)).getD g 0) temp

/-- LSB of a voltage code by GAIN (R101). -/
def auxLsb (gain : Nat) : Rat :=
  match gain with
  | 1 => 1 / 4000000
  | 2 => 1 / 16000000
  | _ => 1 / 1000000

/-- Format of an auxiliary channel's code (R100, R101); the value of DIE_TEMP is in °C. -/
def auxFmt (channel gain : Nat) : CodeFmt :=
  if channel = 0x20 then { lsb := 1 / 1000, lo := -60000, hi := 160000 }
  else if channel = 0x90 then stackFmt
  else { cellFmt with lsb := auxLsb gain }

/-- Excitation current of an EXC code in amperes, as measured at factory calibration (R102). -/
def CalState.excCurrent (cal : CalState) (exc : Nat) : Rat := if exc = 0 then 0 else cal.exc.getD (exc - 1) 0

/-- EXC sources a current on the channel: a thermistor or ID_RES with an EXC code other than 0 (R102). -/
def excOn (channel exc : Nat) : Bool := exc != 0 && ((1 ≤ channel && channel ≤ 8) || channel == 0x80)

/-- Fast cell code (R72, R73): clamp codes 0 and 0xFFFF. -/
def fastCell (volts : Rat) : Nat :=
  let c := roundAway (volts * 10000)
  if c < 1 then 0 else if 0xFFFE < c then 0xFFFF else c.toNat

/-- Fast shunt code (R72, R73) as 16 bits: clamp codes 0x8000 and 0x7FFF. -/
def fastShunt (volts : Rat) : Nat :=
  let c := roundAway (volts * 400000)
  if c < -32767 then 0x8000 else if 32766 < c then 0x7FFF else unsignedBits 16 c

/-- Fast code of channel 1 to 26. -/
def fastCode (c : Nat) (volts : Rat) : Nat := if c ≤ 24 then fastCell volts else fastShunt volts

/-- A fast code is over-range when it is a clamp code of its channel, and only then (R73). -/
def fastOver (c code : Nat) : Bool :=
  if c ≤ 24 then code == 0 || code == 0xFFFF else code == 0x8000 || code == 0x7FFF

/-- A fast code as a number (R92). -/
def fastValue (c code : Nat) : Int := if c ≤ 24 then code else signed 16 code

/-- LSB of a fast code in volts (R72). -/
def fastLsb (c : Nat) : Rat := if c ≤ 24 then 1 / 10000 else 1 / 400000

/-- SAR of a fast channel 1 to 26, 0 to 3 (R69). -/
def sarOf (c : Nat) : Nat := (c - 1) / 7
/-- Slot of a fast channel (R69). -/
def slotOf (c : Nat) : Nat := (c - 1) % 7

/-! ### Resistances and temperatures (R39, R169) -/

/-- Temperature from a thermistor's resistance, in °C (R169), in binary64. -/
def thermTemp (rnom b r : Rat) : Rat :=
  fsub (fdiv 1 (fadd (fdiv 1 (f64 (29815 / 100))) (fdiv (f64 (ln (fdiv r rnom))) b))) (f64 (27315 / 100))

/-- The latest reading of a channel. -/
def SeqState.read (q : SeqState) (channel : Nat) : Option AuxRead := q.reads.find? fun r => r.channel == channel

/-- Resistance seen by a reading with an excitation: code × LSB / stored current, in binary64 (R102, R167, R169). -/
def AuxRead.ohms (r : AuxRead) (cal : CalState) : Option Rat :=
  if r.exc = 0 then none else some (fdiv (fmul (f64 r.code) (f64 (auxLsb r.gain))) (f64 (cal.excCurrent r.exc)))

/-- Temperature of thermistor j of a die in °C from its latest reading, when it is usable (R169). -/
def State.thermC (s : State) (k j : Nat) : Option (Rat × Nat) :=
  match s.die? k with
  | none => none
  | some d =>
    match d.seq.read j with
    | none => none
    | some r =>
      if !r.ok then none
      else
        match r.ohms d.cal with
        | none => none
        | some o =>
          let th := s.regF 0x06 k 0x024
          some (thermTemp ((bits th 15 0 * 10 : Nat) : Rat) ((bits th 31 16 : Nat) : Rat) o, r.t)

/-- Temperature of thermistor j as the state estimator holds it: a reading older than 10 s is not used (R159, R169). -/
def State.freshTherm (s : State) (k j : Nat) : Option Rat :=
  match s.thermC k j with
  | some x => if x.2 + 10000000000 < s.now then none else some x.1
  | none => none

/-- Effective resistance of a shunt channel in nΩ (R39, R150): the latest reading of the thermistor that
TC_SRC names, or 25 °C when TC_SRC is 0. A reading that R169 would not use is not taken, and before the first usable one
the temperature is 25 °C. DESIGN CHOICE, log entry 50. -/
def State.shuntRes (s : State) (k sh : Nat) : Rat :=
  let res := s.regF 0x01 k (if sh = 1 then 0x00C else 0x014)
  let tc := s.regF 0x01 k (if sh = 1 then 0x010 else 0x018)
  let src := bits tc 15 12
  let temp := if src = 0 then 25 else ((s.thermC k src).map (·.1)).getD 25
  (res : Rat) * (1 + (signed 8 (bits tc 7 0) : Rat) / 1000000 * (temp - 25))

/-- Effective resistance of shunt i + 1 at the end of an interval, or `r` when it has not been kept (R171). -/
def PrecState.rshAt (p : PrecState) (end_ i : Nat) (r : Rat) : Rat :=
  ((p.rshEnds.find? fun x => x.1 == end_).map fun x => x.2.getD i r).getD r

end Sys2Proof.Machine
end

