-- ==== Sys2Proof/Machine/Flags.lean ====
section
/-! DEFINITION. Flags: the precision word (R48, R49), the influence of balancing (R61, R64, R65), gate periods
and windows (R62, R63), the auxiliary word (R107) and window comparison (R111). -/

namespace Sys2Proof.Machine

/-- The flags of a precision word (R48). -/
structure WordFlags where
  invalid : Bool
  sync : Bool
  wire : Bool
  calstale : Bool
  balcomp : Bool
  balgate : Bool
  settle : Bool
  ovr : Bool
deriving DecidableEq, Repr

/-- The 32-bit word of R48. -/
def WordFlags.word (f : WordFlags) (code : Int) : Nat :=
  fld 31 1 (b2n f.invalid) + fld 30 1 (b2n f.sync) + fld 29 1 (b2n f.wire) + fld 28 1 (b2n f.calstale) +
    fld 27 1 (b2n f.balcomp) + fld 26 1 (b2n f.balgate) + fld 25 1 (b2n f.settle) + fld 24 1 (b2n f.ovr) +
    unsignedBits 24 code

/-- The word of a channel that CELL_EN or a shunt enable leaves out (R50, R52). -/
def disabledWord : Nat := 0x80000000

/-- INVALID of a word. -/
def wInvalid (w : Nat) : Bool := bit w 31
/-- WIRE of a word. -/
def wWire (w : Nat) : Bool := bit w 29
/-- CALSTALE of a word. -/
def wStale (w : Nat) : Bool := bit w 28
/-- BALCOMP of a word. -/
def wComp (w : Nat) : Bool := bit w 27
/-- BALGATE of a word. -/
def wGate (w : Nat) : Bool := bit w 26
/-- SETTLE of a word. -/
def wSettle (w : Nat) : Bool := bit w 25
/-- OVR of a word. -/
def wOvr (w : Nat) : Bool := bit w 24
/-- CODE of a word. -/
def wCode (w : Nat) : Int := signed 24 (bits w 23 0)

/-- Carries none of OVR, SETTLE, WIRE or INVALID: admitted for counting (R125, R168). -/
def wAdmitted (w : Nat) : Bool := !wOvr w && !wSettle w && !wWire w && !wInvalid w

/-! ### Balance and the codes (R61 to R65) -/

/-- Balance current of cell n, with I0 = I25 = 0 (R61). -/
def balCur (bal : List Rat) (n : Nat) : Rat := if n = 0 ∨ 24 < n then 0 else bal.getD (n - 1) 0

/-- Net current of wire Vk: I_k − I_(k+1) (R61). -/
def wireCur (bal : List Rat) (k : Nat) : Rat := balCur bal k - balCur bal (k + 1)

/-- Resistance estimate of a wire: the mean of its updates, held with a resolution of 0.1 mΩ (R66). -/
def WireEst.mean (w : WireEst) : Rat := (roundAway ((meanOf w.updates).getD 0 * 10000) : Rat) / 10000

/-- The estimate of wire k. -/
def PrecState.wire (p : PrecState) (k : Nat) : WireEst :=
  p.wires.getD k { updates := [], count := 0, valid := false }

/-- Both wires of cell n have valid estimates (R64). -/
def PrecState.wiresValid (p : PrecState) (n : Nat) : Bool := (p.wire n).valid && (p.wire (n - 1)).valid

/-- The correction C(n) of R65 in volts. -/
def PrecState.correction (p : PrecState) (bal : List Rat) (n : Nat) : Rat :=
  (p.wire n).mean * (balCur bal n - balCur bal (n + 1)) -
    (p.wire (n - 1)).mean * (balCur bal (n - 1) - balCur bal n)

/-- Cell n is affected: balance current flowed in cell n−1, n or n+1 during the gate period (R61). -/
def affected (flow : List Bool) (n : Nat) : Bool :=
  (2 ≤ n && flow.getD (n - 2) false) || flow.getD (n - 1) false || flow.getD n false

/-- Length of a gate window in ns: guard and one impulse (R62). -/
def windowLen (guardSteps rate : Nat) (filt : Bool) : Nat := guardSteps * 50000 + impulseLen rate filt

/-- GATE_PERIOD_EFF in ms (R63). -/
def gatePeriodEff (period guardSteps rate : Nat) (filt : Bool) : Nat :=
  max period ((windowLen guardSteps rate filt * 100 + 5999999) / 6000000)

/-- Flags and code of a cell under R64: BALGATE, BALCOMP, INVALID, and whether the correction is applied. -/
def balFlags (gateEn gated valid : Bool) : Bool × Bool × Bool :=
  if gateEn then
    if gated then (true, false, false)
    else if valid then (true, true, false)
    else (true, false, true)
  else if valid then (false, true, false)
  else (false, false, true)

/-! ### The auxiliary word (R107) and windows (R111) -/

/-- The 32-bit auxiliary word. -/
def auxWord (invalid win comply stale baloff settle ovr : Bool) (code : Int) : Nat :=
  fld 31 1 (b2n invalid) + fld 30 1 (b2n win) + fld 29 1 (b2n comply) + fld 28 1 (b2n stale) +
    fld 27 1 (b2n baloff) + fld 25 1 (b2n settle) + fld 24 1 (b2n ovr) + unsignedBits 24 code

/-- Side of a code against a band: 1 inside, 2 below, 3 above; a bound is inside (R111). -/
def bandSide (lo hi code : Int) : Nat := if code < lo then 2 else if hi < code then 3 else 1

/-- The window state after one evaluated word, whether the word was inside, and whether a leave-band event
is raised (R111). -/
def windowStep (state : Nat) (prevIn : Bool) (side : Nat) : Nat × Bool × Bool :=
  if side = 1 then
    if state = 2 ∨ state = 3 then (if prevIn then (1, true, false) else (state, true, false))
    else (1, true, false)
  else (side, false, side != state)

end Sys2Proof.Machine
end

