-- ==== Sys2Proof/Machine/ProtOps.lean ====
section
/-! DEFINITION. Shared operations of protection: fault notices (R204), suspicion, confirmation and clearing
of a broken wire (R220, R224), and what a balance channel conducts (R213 to R216). -/

namespace Sys2Proof.Machine

/-- The sixteen bytes of a fault notice (R204). -/
def noticeBytes (kind which island tq tOrigin seq : Nat) : List Byte :=
  let m := le 1 kind ++ le 1 which ++ le 1 island ++ le 1 (fld 6 2 tq) ++ le 8 tOrigin ++ le 2 seq
  m ++ le 2 (Poly.crc16.check m)

/-- A die sends a fault notice on both of its inner links (R19, R204). -/
def Die.notice (d : Die) (k kind which tOrigin : Nat) : Die :=
  let n := noticeBytes kind which k d.tq tOrigin d.prot.noticeSeq
  { d with prot := { d.prot with notices := d.prot.notices ++ [(.up, n), (.down, n)],
                                 noticeSeq := (d.prot.noticeSeq + 1) % 65536 } }

/-- A check of wire w is requested (R220): once, and not for a wire whose break stands. -/
def Die.suspectWire (d : Die) (w : Nat) : Die :=
  if d.prot.suspect.contains w || d.prot.wire.testBit w then d
  else { d with prot := { d.prot with suspect := d.prot.suspect ++ [w] } }

/-- A wire's resistance estimate becomes not valid and its update count restarts (R66). -/
def Die.dropEstimate (d : Die) (w : Nat) : Die :=
  { d with prec := { d.prec with wires := modNth (fun _ => { updates := [], count := 0, valid := false }) w d.prec.wires } }

/-- A confirmed break of a wire, 0 to 29 as WHICH of R204 (R224). WIRE is then set on the cells on either side of it, and
the estimates of all their wires become not valid (R66). -/
def Die.confirmBreak (d : Die) (k w now : Nat) : Die :=
  if d.prot.wire.testBit w then d
  else
    let d := { d with prot := { d.prot with wire := setBit d.prot.wire w true,
                                            wireAt := d.prot.wireAt ++ [(w, now)],
                                            suspect := d.prot.suspect.filter (· != w) } }
    let d := if w ≤ 24 then ((d.dropEstimate (w - 1)).dropEstimate w).dropEstimate (w + 1) else d
    d.notice k 4 w now

/-- The break of a wire cleared (R224). -/
def Die.clearBreak (d : Die) (w : Nat) : Die :=
  { d with prot := { d.prot with wire := setBit d.prot.wire w false,
                                 wireAt := d.prot.wireAt.filter fun x => x.1 != w } }

/-- Channel n of the list. -/
def ProtState.chan (p : ProtState) (n : Nat) : Chan :=
  p.chans.getD (n - 1)
    { sched := false, stepOff := false, ocSteps := 0, ocHit := false, heldOff := false, removed := 0, need := 0, target := 0, onMs := 0,
      mas := 0, qBal := [], iOn := 0, stepMs := 0, markAt := 0, onNs := 0, inj := false, onSince := 0, conducting := false, spans := [], tgtWritten := false }

/-- One of the two wires of cell n carries a confirmed break. -/
def ProtState.cellBroken (p : ProtState) (n : Nat) : Bool := p.wire.testBit n || p.wire.testBit (n - 1)

/-- On-time added to what a channel has (R212, R228). -/
def Chan.addOn (ns : Nat) (c : Chan) : Chan :=
  { c with onNs := c.onNs + ns, onMs := c.onMs + (ns : Rat) / 1000000, stepMs := c.stepMs + (ns : Rat) / 1000000 }

/-- On-time of a channel counted up to an instant (R212, R228). -/
def Chan.markTo (now : Nat) (c : Chan) : Chan :=
  { (c.addOn (if c.conducting then now - c.markAt else 0)) with markAt := max c.markAt now }

/-- Spans of conduction up to an instant, those that the longest impulse, of 16 ms, can still reach (R43). -/
def Chan.spansTo (c : Chan) (now : Nat) : List (Nat × Nat) :=
  (if c.conducting then [(c.onSince, now)] else []) ++ c.spans.filter fun x => decide (now < x.2 + 16000000)

/-- A channel conducted at some instant after `from_` (R61). -/
def Chan.flowed (c : Chan) (from_ now : Nat) : Bool := (c.spansTo now).any fun x => decide (from_ < x.2)

/-- A channel has not changed within an impulse that began at `from_` (R66). -/
def Chan.steady (c : Chan) (from_ now : Nat) : Bool :=
  (c.spansTo now).all fun x => decide (x.1 ≤ from_) && (decide (x.2 ≤ from_) || (c.conducting && decide (now ≤ x.2)))

/-- Part of a sinc filter's weight that lies before an instant of its impulse, in output periods from its start: the
filter of order N is N boxes of one period after each other, so its weighting is the spline of that order (R43, R65). -/
def filtWeight (order : Nat) (x : Rat) : Rat :=
  if x ≤ 0 then 0
  else if (order : Rat) ≤ x then 1
  else
    let signed : List Int := if order = 3 then [1, -3, 3, -1] else [1, -4, 6, -4, 1]
    let terms := signed.zipIdx.map fun b =>
      let y : Rat := x - (b.2 : Nat)
      if y ≤ 0 then 0 else (b.1 : Rat) * y ^ order
    terms.foldl (· + ·) 0 / (if order = 3 then 6 else 24)

/-- Part of an impulse, by its weighting, in which a channel conducted (R65). -/
def Chan.weightOn (c : Chan) (order period now : Nat) : Rat :=
  let start : Rat := (now : Rat) - (order * period : Nat)
  let at_ := fun (t : Nat) => filtWeight order (((t : Rat) - start) / (period : Rat))
  ((c.spansTo now).map fun x => at_ x.2 - at_ x.1).foldl (· + ·) 0

/-- Charge that a channel removed in an interval of 100 ms of pack time, Ah (R176). -/
def Chan.qBalIn (c : Chan) (idx : Nat) : Rat := ((c.qBal.find? fun x => x.1 == idx).map (·.2)).getD 0

/-- Charge added to the interval that it was removed in. -/
def addBal (idx : Nat) (q : Rat) : List (Nat × Rat) → List (Nat × Rat)
  | x :: xs => if x.1 = idx then (idx, x.2 + q) :: xs else (idx, q) :: x :: xs
  | [] => [(idx, q)]

/-- Time of one pass over the two conversions of a check at 4,000 S/s with sinc4 (R221). -/
def owPassNs : Nat := 2500000

/-- Length of a check of wire w: the pre values, the check current alone, the post values; with BAL_WIRING 1 OWNODE and BALFET
of two cells, of which wires 0 and 24 have one conversion, OWNODE0 or STACK_DIV, without a BALFET (R221, R222). -/
def State.owLen (s : State) (k w : Nat) : Nat :=
  if s.fB 0x01 k 0 6 then (if w = 0 ∨ w = 24 then 3750000 else 2 * owPassNs) else 2 * owPassNs + s.fF 0x07 k 0x024 7 0 * 1000000

/-- The channel that carries the check current at an instant (R221). -/
def State.checkChannel (s : State) (k : Nat) (d : Die) : Option Nat :=
  match d.prot.owRun with
  | some (w, t0) => if !s.fB 0x01 k 0 6 && decide (t0 + owPassNs ≤ s.now) then some (max w 1) else none
  | none => none

/-- Channels that a check under BAL_WIRING 1 holds off: those of the cells of its pair (R222). -/
def State.checkHoldsOff (s : State) (k : Nat) (d : Die) (n : Nat) : Bool :=
  match d.prot.owRun with
  | some (w, _) => s.fB 0x01 k 0 6 && (n == w || n == w + 1)
  | none => false

/-- What channel n would conduct under the order of R216, highest condition first; the check current of an open-wire check
gives way to the first two and to a gate window alone. A met need ends only what the scheduler holds (R213). -/
def Die.channelOn (d : Die) (running injecting chip : Bool) (check : Option Nat) (off : Bool) (n : Nat) : Bool :=
  let c := d.prot.chan n
  if d.prot.protOnly || !running then false
  else if (d.prot.uv.getD (n - 1) { tripped := false, runTrip := 0, runClear := 0, startCount := 3, starting := false, seq := 0 }).tripped then false
  else if d.prec.window.isSome || off || c.heldOff || c.ocHit then false
  else if check = some n then true
  else if d.prot.cellBroken n then false
  else if d.prot.timeout then false
  else if injecting && c.inj then chip
  else c.sched && !c.stepOff

/-- Every channel of die k brought to the state that R216 gives it now; a hub in reset stops balancing (R480). -/
def State.settleChannels (s : State) (k : Nat) : State :=
  let run := s.inRunDoze && !s.conflict && s.part.serving && !s.part.hubHeld
  s.modDie k fun d =>
    let run := run && d.precOn
    let check := s.checkChannel k d
    let from_ := match d.prot.owRun with | some (_, t0) => t0 + owPassNs | none => s.now
    let chans := d.prot.chans.zipIdx.map fun x =>
      let n := x.2 + 1
      let on := d.channelOn run d.imp.injActive d.imp.chip check (s.checkHoldsOff k d n) n
      if on = x.1.conducting then x.1
      else
        let at_ := if on && check == some n then max x.1.markAt from_ else s.now
        let c := x.1.markTo s.now
        { c with conducting := on, onSince := at_, markAt := at_, spans := if x.1.conducting then c.spansTo s.now else c.spans }
    { d with prot := { d.prot with chans := chans } }

/-- An open-wire check of die k is in progress. -/
def State.checking (s : State) (k : Nat) : Bool := ((s.die? k).map fun d => d.prot.owRun.isSome).getD false

/-- Channel cap of die k (R215) from BAL_MAXCH, the junction temperature and the governor, with what lowered it. -/
def State.balCap (s : State) (k : Nat) (d : Die) : Nat × Bool × Bool :=
  let m := s.fF 0x07 k 0x014 21 17
  if s.fB 0x07 k 0x014 4 then (m, false, false)
  else
    let tj := d.prec.temp
    let derate : Rat := if tj ≤ 11000 then 1 else if 13000 ≤ tj then 0 else (13000 - tj : Int) / 2000
    let byT := ((m : Rat) * derate).floor.toNat
    let byG := if 2 ≤ s.therm.step then 4 else m
    (min m (min byT byG), decide (byT < m), decide (byG < m))

/-- The cap brought into force: when derating has lowered it, injection ends and the channels last in the order go off first
(R157, R215, R216). -/
def State.applyCap (s : State) (k : Nat) : State :=
  let s := s.modDie k fun d =>
    let c := s.balCap k d
    let keep := (d.prot.order.take c.1)
    let derated := c.2.1 || c.2.2
    { d with imp := { d.imp with injActive := d.imp.injActive && !derated },
             prot := { d.prot with
        cap := c.1, derateT := c.2.1, derateGov := c.2.2,
        chans := d.prot.chans.zipIdx.map fun x =>
          { x.1 with sched := x.1.sched && keep.contains (x.2 + 1), inj := x.1.inj && !derated } } }
  s.settleChannels k

/-- Mask of the channels that conduct. -/
def ProtState.onMask (p : ProtState) : Nat := maskOf (indexes (fun c => c.conducting) p.chans)

/-- Some channel conducts. -/
def ProtState.anyOn (p : ProtState) : Bool := p.chans.any fun c => c.conducting

end Sys2Proof.Machine
end

