-- ==== Sys2Proof/Machine/Precision.lean ====
section
/-! DEFINITION. Precision cell measurement (R28 to R66): the sample and its record, the rotating spares, the
reference monitor, gate windows and the learning of wire resistances. -/

namespace Sys2Proof.Machine

/-! ### Settings in force -/

/-- RATE of die k. -/
def State.rateOf (s : State) (k : Nat) : Nat := s.fF 0x01 k 0 2 0
/-- FILT of die k. -/
def State.filtOf (s : State) (k : Nat) : Bool := s.fB 0x01 k 0 4
/-- Output period of die k in ns. -/
def State.periodOf (s : State) (k : Nat) : Nat := ratePeriod (s.rateOf k)
/-- CELL_EN bit of cell n. -/
def State.cellEn (s : State) (k n : Nat) : Bool := bit (s.regF 0x01 k 4) (n - 1)
/-- Cells enabled in CELL_EN. -/
def State.cellsOn (s : State) (k : Nat) : List Nat := ((List.range 24).map (· + 1)).filter (s.cellEn k)
/-- GATE_PERIOD_EFF of die k in ns (R63). -/
def State.gatePeriodNs (s : State) (k : Nat) : Nat :=
  gatePeriodEff (s.fF 0x01 k 0 31 16) (s.fF 0x01 k 0 15 8) (s.rateOf k) (s.filtOf k) * 1000000

/-- The first output-sample boundary after an instant (R46). -/
def State.boundaryAfter (s : State) (k t : Nat) : Nat := (t / s.periodOf k + 1) * s.periodOf k

/-- Precision fields taken at the boundary that follows a swap (R46): the first sample under the new set
carries SYNC, a change of RATE or FILT restarts SETTLE (R45), and the gate periods start again (R62). A gate window that is
open then stays open until its E. DESIGN CHOICE, log entry 50. -/
def State.adoptPrec (s : State) (k : Nat) (d : Die) : State :=
  match d.prec.swapAt with
  | none => s
  | some b =>
    if s.now ≤ b then s
    else
      let old := s.regF 0x01 k 0
      let s := s.takeBlock 0x01 k
      let changed := (old ^^^ s.regF 0x01 k 0) &&& 0x17 != 0
      s.modDie k fun d =>
        { d with prec := { d.prec with
            swapAt := none, sync := true, gateStart := b, gateFlow := List.replicate 24 false,
            settle := if changed then List.replicate 29 (filtOrder (s.filtOf k)) else d.prec.settle } }

/-- A swap of the precision block whose boundary has passed is taken (R46). -/
def State.takePrec (s : State) (k : Nat) : State := s.onDie k fun d => s.adoptPrec k d

/-- Deltas accepted by a run taken at the first boundary after the solve (R130). An acceptance after a reference step ends
it (R34, R132). -/
def Die.adoptCal (d : Die) (t : Nat) : Die :=
  match d.cal.next with
  | none => d
  | some n =>
    if t ≤ n.at_ then d
    else
      { d with cal := { d.cal with ofs := n.ofs, gain := n.gain, stale := n.stale, next := none },
               prec := { d.prec with refState := if n.accepted && d.prec.refState == 1 then 0 else d.prec.refState } }

/-- The present gate period and the channels that carried current in it up to this sample (R61, R62). With BAL_GATE_EN 0
the gate period in force still bounds which cells are affected. DESIGN CHOICE, log entry 50. -/
def Die.trackGate (d : Die) (period t : Nat) (on : List Bool) : Die :=
  let ovrng := if t ≤ d.prec.gateStart then 0 else (t - d.prec.gateStart - 1) / period
  let start := d.prec.gateStart + ovrng * period
  let flow := if ovrng = 0 then d.prec.gateFlow else List.replicate 24 false
  { d with prec := { d.prec with
      gateStart := start, gateFlow := (List.range 24).map fun i => flow.getD i false || on.getD i false } }

/-! ### One word -/

/-- The converter of a channel for the impulse that ends at t: the modulator number 1 to 29, whether a
spare covers a slice, whether the channel is lost and whether cover was lost (R31, R32). Cells are channels
1 to 24, shunts 27 and 28, the stack 29. -/
def PrecState.converter (p : PrecState) (c t len : Nat) : Nat × Bool × Bool × Bool :=
  if p.lost.contains c then (c, false, true, false)
  else
    let own := if c ≤ 24 ∧ p.held.getD 0 0 = c then 25 else if c ≤ 24 ∧ p.held.getD 1 0 = c then 26 else c
    let overlaps := fun (v : Cover) =>
      (v.modulator == own || (v.modulator == c && own == 25 + v.spare)) && decide (v.from_ < t) &&
        (match v.until_ with | none => true | some e => decide (t < e + len))
    match p.cover.find? overlaps with
    | none => (own, false, false, false)
    | some v => if v.lost then (own, false, false, true) else (25 + v.spare, true, false, false)

/-- What one channel yields: its word, its code before any balance correction, the modulator that formed it, and whether a
spare covered a slice. -/
structure ChanOut where
  word : Nat
  code : Int
  by_ : Nat
  spare : Bool
  ovr : Bool
  /-- The code as measured, when the word measures: what the steps of R66 are taken from. -/
  raw : Option Int
deriving DecidableEq, Repr

/-- Channel c is enabled (R50, R52). -/
def State.chanEn (s : State) (k c : Nat) : Bool :=
  if c ≤ 24 then s.cellEn k c
  else if c = 27 then s.fB 0x01 k 4 24
  else if c = 28 then s.fB 0x01 k 4 25
  else true

/-- A confirmed break on a wire of the channel (R49). -/
def ProtState.chanWire (p : ProtState) (c : Nat) : Bool :=
  if c ≤ 24 then p.wire.testBit c || p.wire.testBit (c - 1)
  else if c = 27 then p.wire.testBit 26 || p.wire.testBit 27
  else if c = 28 then p.wire.testBit 28 || p.wire.testBit 29
  else p.wire.testBit 25

/-- The word of channel c of die k for the impulse that ends now (R36, R37, R48 to R50, R64, R65). Range and OVR are judged
before the balance correction; a word with OVR keeps its clamp code, and without a correction it carries no BALCOMP; a word
that a spare forms takes CALSTALE from the spare's channel. DEDUCED, log entry 50. -/
def State.precChannel (s : State) (k : Nat) (d : Die) (v : List Rat) (ovl : List Overload) (bal : List Rat)
    (c : Nat) : ChanOut :=
  let p := d.prec
  let len := impulseLen (s.rateOf k) (s.filtOf k)
  let cv := p.converter c s.now len
  let m := cv.1
  let volts := d.cal.volts m (v.getD (m - 1) 0) p.temp
  let f := (fmtOf c).form volts (ovl.getD (m - 1) .none)
  if !s.chanEn k c then { word := disabledWord, code := f.1, by_ := m, spare := false, ovr := false, raw := none }
  else
    let lost := cv.2.2.1
    let ctrl := s.regF 0x01 k 0
    let aff := c ≤ 24 && !bit ctrl 6 && affected p.gateFlow c
    let b := balFlags (bit ctrl 5) (p.gatedE == some s.now) (p.wiresValid c)
    let comp := aff && b.2.1 && !lost && !f.2
    let code := if lost then 0 else if comp then f.1 + roundAway (p.correction bal c * 1000000) else f.1
    let ovr := f.2 && !lost
    let bad := p.refState == 2 || lost || cv.2.2.2 || d.prot.protOnly
    let flags : WordFlags :=
      { invalid := bad || (aff && b.2.2),
        sync := p.sync,
        wire := d.prot.chanWire c,
        calstale := d.cal.stale.getD (m - 1) true || p.refState == 1,
        balcomp := comp,
        balgate := aff && b.1,
        settle := p.settle.getD (c - 1) 0 != 0 || (!ovr && p.settleOvr.getD (c - 1) 0 != 0),
        ovr := ovr }
    { word := flags.word code, code := f.1, by_ := m, spare := cv.2.1, ovr := ovr,
      raw := if bad || ovr || flags.settle || flags.wire then none else some f.1 }

/-- The channels of a record in its order: cells, shunts, stack. -/
def recordChannels : List Nat := (List.range 24).map (· + 1) ++ [27, 28, 29]

/-- The precision record of R51. -/
def precRecord (pos k seq tSample rate : Nat) (filt : Bool) (tq : Nat) (spare warm : Bool) (epoch : Nat) (temp : Int)
    (words : List Nat) : List Byte :=
  withCrc32c (le 2 0x0201 ++ le 1 pos ++ le 1 k ++ le 4 seq ++ le 8 tSample ++
    le 1 (fld 3 1 (b2n filt) + fld 0 3 rate) ++ le 1 (fld 2 2 tq + fld 1 1 (b2n spare) + fld 0 1 (b2n warm)) ++
    le 2 epoch ++ leInt 2 temp ++ zeros 2 ++ words.flatMap (le 4))

/-! ### What the samples feed -/

/-- An empty interval. -/
def Interval.fresh (idx : Nat) : Interval :=
  { idx := idx, cnt := List.replicate 24 (0, 0), rest := List.replicate 24 (0, 0), stack := (0, 0), anyOn := 0,
    allOn := 0xFFFFFF }

/-- The words of one sample added to an interval (R168): cells in volts. -/
def Interval.add (x : Interval) (words : List Nat) (on : Nat) : Interval :=
  let up := fun (l : List (Rat × Nat)) (ok : Nat → Bool) =>
    l.zipIdx.map fun y =>
      let w := words.getD y.2 disabledWord
      if ok w then (y.1.1 + (wCode w : Rat) / 1000000, y.1.2 + 1) else y.1
  let sw := words.getD 26 disabledWord
  { x with cnt := up x.cnt wAdmitted, rest := up x.rest (fun w => wAdmitted w && !wComp w),
           stack := if wAdmitted sw then (x.stack.1 + (wCode sw : Rat) / 50000, x.stack.2 + 1) else x.stack,
           anyOn := x.anyOn ||| on, allOn := x.allOn &&& on }

/-- The interval of an index in a list kept newest first, at most `n` of them. -/
def addInterval (n idx : Nat) (words : List Nat) (on : Nat) (l : List Interval) : List Interval :=
  if l.any (·.idx == idx) then l.map fun x => if x.idx = idx then x.add words on else x
  else ((Interval.fresh idx).add words on :: l).take n

/-- Mean of cell n over an interval: none below 8 admitted words (R168). DEDUCED, log entry 45. -/
def Interval.mean (x : Interval) (rest : Bool) (n least : Nat) : Option Rat :=
  let y := (if rest then x.rest else x.cnt).getD (n - 1) (0, 0)
  if y.2 < least then none else some (y.1 / (y.2 : Rat))

/-- The cell voltage of an interval in binary64 (R167, R168): the mean of the codes, times 1 µV; each operation rounds. -/
def Interval.volts (x : Interval) (rest : Bool) (n least : Nat) : Option Rat :=
  (x.mean rest n least).map fun m => fmul (f64 (m * 1000000)) (f64 (1 / 1000000))

/-- The shunt and stack words of one sample added to a 100 ms interval (R171): a word with SETTLE, WIRE or
INVALID counts with the last admitted code, an OVR word with its clamp code. -/
def ShuntAcc.add (x : ShuntAcc) (words : List Nat) (lastCode : List Int) (periodUs : Nat) : ShuntAcc :=
  let one := fun (i : Nat) =>
    let w := words.getD (24 + i) disabledWord
    let bad := wSettle w || wWire w || wInvalid w
    let code := if bad then lastCode.getD i 0 else wCode w
    (code * periodUs, bad, wOvr w && !bad, wStale w)
  let r := [one 0, one 1]
  let sw := words.getD 26 disabledWord
  { x with sum := x.sum.zipWith (fun a y => a + y.1) r, subst := x.subst.zipWith (fun a y => a + b2n y.2.1) r,
           ovr := x.ovr.zipWith (fun a y => a || y.2.2.1) r, stale := x.stale.zipWith (fun a y => a || y.2.2.2) r,
           stackSum := if wAdmitted sw then x.stackSum + (wCode sw : Rat) / 50000 else x.stackSum,
           stackN := if wAdmitted sw then x.stackN + 1 else x.stackN }

/-- An empty 100 ms interval. -/
def ShuntAcc.fresh (t0 : Nat) : ShuntAcc :=
  { t0 := t0, sum := [0, 0], subst := [0, 0], ovr := [false, false], stale := [false, false], stackSum := 0, stackN := 0 }

/-- The words of one sample added to the interval that holds its T_SAMPLE. -/
def addShunt (t0 : Nat) (words : List Nat) (lastCode : List Int) (us : Nat) (l : List ShuntAcc) : List ShuntAcc :=
  if l.any (·.t0 == t0) then l.map fun x => if x.t0 = t0 then x.add words lastCode us else x
  else ((ShuntAcc.fresh t0).add words lastCode us :: l).take 4

/-- Data admitted to calibration (R125): STATUS.WARM clear and −40 °C to +110 °C. -/
def PrecState.calAdmits (p : PrecState) : Bool := !p.warm && -4000 ≤ p.temp && p.temp ≤ 11000

/-- Spare i covers a slice (R32), and takes no part in S1 meanwhile (R124). -/
def PrecState.covers (p : PrecState) (i : Nat) : Bool :=
  p.cover.any fun v => v.spare == i

/-- Source S1 (R123 to R125): each rotating spare's difference in code to the cell's own modulator, outside the discarded
samples after a step and the internal-zero conversions of the last two periods of the dwell. Both codes are taken before any
balance correction, and neither may be over-range. DEDUCED, log entry 53. -/
def State.feedS1 (s : State) (k : Nat) (d : Die) (outs : List ChanOut) (v : List Rat) (ovl : List Overload) : Die :=
  let len := impulseLen (s.rateOf k) (s.filtOf k)
  let per := s.periodOf k
  let dwell := s.fF 0x01 k 8 7 0 * 1000000000
  let acc := d.cal.acc.zipIdx.map fun x =>
    let i := x.2
    let n := d.prec.spareCell.getD i 1
    let step := d.prec.spareStep.getD i 0
    let o := outs.getD (n - 1) { word := disabledWord, code := 0, by_ := n, spare := false, ovr := false, raw := none }
    let free : Bool := d.prec.held.getD i 0 == 0 && !d.prec.failed.contains (25 + i) && !d.prec.covers i
    let sv := cellFmt.form (d.cal.volts (25 + i) (v.getD (24 + i) 0) d.prec.temp) (ovl.getD (24 + i) .none)
    if free && o.by_ == n && !sv.2 && decide (step + len ≤ s.now) && decide (s.now + 2 * per ≤ step + dwell) &&
        wAdmitted o.word && d.prec.calAdmits then
      (x.1.1 + ((o.code - sv.1 : Int) : Rat) / 1000000, x.1.2.1 + (o.code : Rat) / 1000000, x.1.2.2 + 1)
    else x.1
  { d with cal := { d.cal with acc := acc } }

/-- Source S2 (R123, R125): e and the stack voltage of a sample whose words are all admitted and carry
neither BALCOMP nor BALGATE, gated samples excepted. -/
def State.feedS2 (s : State) (k : Nat) (d : Die) (words : List Nat) : Die :=
  let gated := d.prec.gatedE == some s.now
  let clean := fun w => wAdmitted w && !wComp w && (!wGate w || gated)
  let cells := s.cellsOn k
  let sw := words.getD 26 disabledWord
  match d.cal.run with
  | none => d
  | some r =>
    if d.prec.calAdmits && clean sw && cells.all (fun n => clean (words.getD (n - 1) disabledWord)) then
      let vs : Rat := (wCode sw : Rat) / 50000
      let e := (cells.map fun n => (wCode (words.getD (n - 1) disabledWord) : Rat) / 1000000).foldl (· + ·) 0 - vs
      { d with cal := { d.cal with run := some { r with
          s2 := r.s2.zipWith (· + ·) [1, vs, vs * vs, e, vs * e, e * e] } } }
    else d

/-- One second's tracking added to, in a list kept newest first. -/
def trackAdd (sec : Nat) (f : Track → Track) (l : List Track) : List Track :=
  if l.any (·.sec == sec) then l.map fun x => if x.sec = sec then f x else x
  else (f { sec := sec, fast := List.replicate 26 0, fastN := 0, prec := List.replicate 26 0, precN := 0, bad := 0 } :: l).take 3

/-- A tracked second closed (R75): each channel that no flag spoilt moves its offset by one sixtieth of the
difference of the means, a time constant of 60 s. -/
def trackClose (x : Track) (offset : List Rat) : List Rat :=
  if x.fastN = 0 ∨ x.precN = 0 then offset
  else offset.zipIdx.map fun o =>
    if x.bad.testBit o.2 then o.1
    else o.1 + (x.prec.getD o.2 0 / (x.precN : Rat) - x.fast.getD o.2 0 / (x.fastN : Rat)) / 60

/-- The precision side of the fast path's offset tracking (R75): a word of a later second closes the earlier ones. -/
def Die.feedTrack (d : Die) (on : Bool) (tSample : Nat) (words : List Nat) : Die :=
  let sec := tSample / 1000000000
  let volts := (List.range 26).map fun i =>
    (wCode (words.getD i disabledWord) : Rat) / (if i < 24 then 1000000 else 100000000)
  let bad := maskOf ((List.range 26).filter fun i =>
    let w := words.getD i disabledWord
    !wAdmitted w || wComp w || wStale w)
  let old := (d.fast.tracks.filter fun x => x.sec < sec).reverse
  let offset := if on then old.foldl (fun o x => trackClose x o) d.fast.offset else d.fast.offset
  let tracks := trackAdd sec
    (fun x => { x with prec := x.prec.zipWith (· + ·) volts, precN := x.precN + 1, bad := x.bad ||| bad })
    (d.fast.tracks.filter fun x => sec ≤ x.sec)
  { d with fast := { d.fast with tracks := tracks, offset := offset } }

/-- Current of an external channel while it is on, in amperes: the cell's last code over BAL_EXT_RES (R212). DEDUCED, log
entry 56. -/
def State.extCurrent (s : State) (k n : Nat) (d : Die) : Rat :=
  let r : Rat := (s.fF 0x07 k 0x020 15 0 : Rat) / 100
  if r = 0 then 0 else (wCode (d.prec.lastWords.getD (n - 1) 0) : Rat) / 1000000 / r

/-- The balance currents Ik of a sample, each by its mean over the impulse under the filter's weighting (R61, R65, R212):
what the sense FETs measure, or with BAL_DRIVE 1 the current of each channel for as long as it conducted. -/
def State.balCurrents (s : State) (k : Nat) (d : Die) (bal : List Rat) : List Rat :=
  if !s.fB 0x07 k 0x014 4 then bal
  else (List.range 24).map fun i =>
    s.extCurrent k (i + 1) d * (d.prot.chan (i + 1)).weightOn (filtOrder (s.filtOf k)) (s.periodOf k) s.now

/-- Channels through which current has flowed since the sample before this one (R61). -/
def State.balFlow (s : State) (k : Nat) (d : Die) (bal : List Rat) : List Bool :=
  if !s.fB 0x07 k 0x014 4 then bal.map (· != 0)
  else (List.range 24).map fun i => (d.prot.chan (i + 1)).flowed (s.now - s.periodOf k) s.now

/-- Charge that the channels removed since the balance monitor's last sample, at a precision sample or at a hold: the measured
current over the time since then, or the external current over the on-time (R212). It counts in the record interval, in the step, in q_bal of
its 100 ms, and reduces the debt before a target (R213 to R217, R228). -/
def State.feedBalance (s : State) (k : Nat) (d : Die) (bal : List Rat) : Die :=
  let targetMode := s.fF 0x07 k 0x014 3 2 = 3
  let since := min (s.periodOf k) (s.now - d.prot.monAt)
  let one := fun (n : Nat) =>
    let c := (d.prot.chan n).markTo s.now
    let q := (if s.fB 0x07 k 0x014 4 then s.extCurrent k n d * (c.onNs : Rat) else bal.getD (n - 1) 0 * (since : Rat)) /
      1000000000 / 3600
    let debt := ((d.est.cells[n - 1]?).map (·.debt)).getD 0
    let onDebt := clampRat 0 (max 0 q) debt
    let target := if targetMode then clampRat 0 c.target (c.target - (q - onDebt)) else c.target
    let idx := (s.now - 1) / 100000000
    ({ c with mas := c.mas + q * 3600, qBal := (addBal idx q c.qBal).take 16, removed := c.removed + q, target := target, onNs := 0 },
      debt - onDebt)
  let r := (List.range 24).map fun i => one (i + 1)
  { d with prot := { d.prot with chans := r.map (·.1), monAt := s.now },
           est := { d.est with cells := d.est.cells.zipWith (fun c x => { c with debt := x.2 }) r } }

/-- What wire w's step drops when it is read from the cells below it (R61): V_meas(n) moves by x(n−1) − x(n), where x(k)
is R_k times the step of the net current of wire Vk. `known` gives x of a wire whose own step is too small to learn from. -/
def dropBelow (known : Nat → Option Rat) (dv : Nat → Option Rat) : Nat → Option Rat
  | 0 => none
  | w + 1 =>
    match dv (w + 1) with
    | none => none
    | some v => (match known w with | some x => some x | none => dropBelow known dv w).map (· - v)

/-- What the step of wire 24 − n drops when it is read from the cells above it. -/
def dropAbove (known : Nat → Option Rat) (dv : Nat → Option Rat) : Nat → Option Rat
  | 0 => none
  | n + 1 =>
    match dv (24 - n) with
    | none => none
    | some v => (match known (24 - n) with | some x => some x | none => dropAbove known dv n).map (· + v)

/-- The resistance that a step in the codes gives wire w: from the cells on either side of it, as far as the next wire
whose step is under 20 mA, the mean of both sides where both give one (R61, R66). DEDUCED, log entry 50. -/
def PrecState.wireUpdate (p : PrecState) (bal : List Rat) (code : List (Option Int)) (w : Nat) : Option Rat :=
  let step := fun (k : Nat) => wireCur bal k - wireCur p.prevBal k
  let known := fun (k : Nat) => if rabs (step k) < 1 / 50 then some ((p.wire k).mean * step k) else none
  let dv := fun (n : Nat) =>
    match code.getD (n - 1) none, p.prevCode.getD (n - 1) none with
    | some a, some b => some (((a - b : Int) : Rat) / 1000000)
    | _, _ => none
  let r := fun (x : Rat) => x / step w
  match dropBelow known dv w, dropAbove known dv (24 - w) with
  | some a, some b => some (r ((a + b) / 2))
  | some a, none => some (r a)
  | none, some b => some (r b)
  | none, none => none

/-- Learning of wire resistances (R66): each wire whose net current stepped by at least 20 mA takes an update from the
steps in the codes, once for each change: between the last sample before it and the first one after it in whose impulses no
channel changed. An update outside 0 to 500 mΩ is not taken: the estimate restarts and a check is requested. -/
def Die.learnWires (d : Die) (p : PrecState) (bal : List Rat) (code : List (Option Int)) : Die :=
  (List.range 25).foldl
    (fun d w =>
      if rabs (wireCur bal w - wireCur p.prevBal w) < 1 / 50 then d
      else
        match p.wireUpdate bal code w with
        | none => d
        | some r =>
          if 0 ≤ r ∧ r ≤ 1 / 2 then
            let e := d.prec.wire w
            let e : WireEst := { updates := (r :: e.updates).take 16, count := e.count + 1, valid := decide (4 ≤ e.count + 1) }
            { d with prec := { d.prec with wires := setNth w e d.prec.wires } }
          else (d.dropEstimate w).suspectWire w) d

/-- Suspicions of R220 and the VSTK test of R223 from the one-second means of an interval. -/
def State.judgeSecond (s : State) (k : Nat) (x : Interval) : State :=
  let dv : Rat := (s.fF 0x07 k 0x024 15 8 : Rat) / 1000
  let cells := s.cellsOn k
  let mean := fun n => x.mean false n 8
  let vs := cells.filterMap mean
  match median vs with
  | none => s
  | some med =>
    let dev := fun n => if s.cellEn k n then (mean n).map (· - med) else none
    let low := fun n => match dev n with | some e => decide (e ≤ -dv) | none => false
    let high := fun n => match dev n with | some e => decide (dv ≤ e) | none => false
    let off := fun n => low n || high n
    let sum := vs.foldl (· + ·) 0
    let mismatch := x.stack.2 ≠ 0 ∧ vs.length = cells.length ∧ dv ≤ rabs (sum - x.stack.1 / (x.stack.2 : Rat))
    s.modDie k fun d =>
      let d := ((List.range 23).map (· + 1)).foldl
        (fun d w => if low w && high (w + 1) then d.suspectWire w else d) d
      let d := if mismatch ∨ (off 1 ∧ !off 2) then d.suspectWire 0 else d
      let d := if mismatch ∨ (off 24 ∧ !off 23) then d.suspectWire 24 else d
      let run := if mismatch ∧ d.prot.vstkArmed then d.prot.vstkRun + 1 else 0
      let d := { d with prot := { d.prot with vstkRun := run, vstkArmed := d.prot.vstkArmed && decide mismatch } }
      if run ≥ 3 then d.confirmBreak k 25 s.now else d

/-! ### PRECISION_SAMPLE -/

/-- The counts of R37 and R45 after a sample. -/
def PrecState.settleStep (p : PrecState) (order : Nat) (ovr : List (Nat × Bool)) : PrecState :=
  let isOvr := fun c => ovr.any fun x => x.1 == c && x.2
  { p with settle := p.settle.map (· - 1),
           settleOvr := p.settleOvr.zipIdx.map fun x => if isOvr (x.2 + 1) then order else x.1 - 1,
           sync := false }

/-- A cover whose slice has ended and whose last impulse has passed is dropped (R32). -/
def PrecState.dropCover (p : PrecState) (t len : Nat) : PrecState :=
  { p with cover := p.cover.filter fun v => match v.until_ with | some e => decide (t < e + len) | none => true }

/-- The first sample at or after the end of a 100 ms interval keeps the shunt resistances of that instant (R171). -/
def State.noteRshEnd (s : State) (k : Nat) (l : List (Nat × List Rat)) : List (Nat × List Rat) :=
  let e := s.now / 100000000 * 100000000
  if l.any fun x => x.1 == e then l else ((e, [s.shuntRes k 1, s.shuntRes k 2]) :: l).take 8

/-- The sample whose impulse ends now, with the path running and the instant on the output grid. -/
def State.precSample (s : State) (k : Nat) (d : Die) (v : List Rat) (ovl : List Overload) (bal : List Rat) : State :=
  let rate := s.rateOf k
  let filt := s.filtOf k
  let meas := bal
  let bal := s.balCurrents k d meas
  let d := (d.adoptCal s.now).trackGate (s.gatePeriodNs k) s.now (s.balFlow k d meas)
  let steady := d.prot.chans.all fun c => c.steady (s.now - impulseLen rate filt) s.now
  let outs := recordChannels.map fun c => (c, s.precChannel k d v ovl bal c)
  let words := outs.map fun o => o.2.word
  let code := (outs.take 24).map fun o => o.2.raw
  let tSample := s.now - groupDelay rate filt
  let p := d.prec
  let rec_ := precRecord s.pos k p.seq tSample rate filt d.tq (outs.any fun o => o.2.spare) p.warm s.cfg.epoch p.temp words
  let on := d.prot.onMask
  let sec := tSample / 1000000000
  let newSec : Bool := match p.secs with
    | x :: _ => decide (x.idx < sec)
    | [] => false
  let lastSec := p.secs.head?
  let lastShunt := [0, 1].map fun i =>
    let w := words.getD (24 + i) disabledWord
    if wAdmitted w then wCode w else p.lastShunt.getD i 0
  let shunts := addShunt (tSample / 100000000 * 100000000) words p.lastShunt (ratePeriod rate / 1000) p.shunts
  let p := (p.settleStep (filtOrder filt) (outs.map fun o => (o.1, o.2.ovr))).dropCover s.now (impulseLen rate filt)
  let p := { p with seq := (p.seq + 1) % 2 ^ 32, lastWords := words, prevBal := if steady then bal else p.prevBal,
                    prevCode := if steady then code else p.prevCode, lastShunt := lastShunt, shunts := shunts,
                    rshEnds := s.noteRshEnd k p.rshEnds,
                    secs := addInterval 3 sec words on p.secs,
                    blks := addInterval 4 (tSample / 100000000) words on p.blks }
  let old := d.prec
  let d := s.feedS1 k d (outs.map (·.2)) v ovl
  let d := s.feedS2 k d words
  let d := (s.feedBalance k d meas).feedTrack (s.fB 0x02 k 0 2) tSample words
  let s := s.modDie k fun _ => if steady then ({ d with prec := p }).learnWires old bal code else { d with prec := p }
  let s := s.dieRecord k 0x0201 tSample rec_
  match lastSec with
  | some x => if newSec then s.judgeSecond k x else s
  | none => s

/-! ### Spares (R30) and warm-up (R52) -/

/-- SPARE_DWELL_STEP (R30): a rotating spare closes its dwell for S1 (R124, R125) with its internal-zero
reading in volts, and steps to the next cell, wrapping from 24 to 1. `b` names spare B. A dwell is admitted when at least
one of its samples is. DEDUCED, log entry 53. -/
def execSpareDwellStep (t k : Nat) (b : Bool) (zero : Rat) (s : State) : Outcome :=
  let s := (s.at_ t).takePrec k
  .next (s.onDie k fun d =>
    let i := b2n b
    let dwell := s.fF 0x01 k 8 7 0 * 1000000000
    if !(d.prec.running && d.precOn) || d.prec.held.getD i 0 != 0 || d.prec.failed.contains (25 + i) ||
        t < d.prec.spareStep.getD i 0 + dwell then s
    else
      let n := d.prec.spareCell.getD i 1
      let a := d.cal.acc.getD i (0, 0, 0)
      let run := d.cal.run.map fun r =>
        let r := if a.2.2 = 0 then r
          else { r with dwells := r.dwells ++ [{ spare := i, cell := n, d := a.1 / (a.2.2 : Rat), v := a.2.1 / (a.2.2 : Rat), n := a.2.2 }] }
        if d.prec.calAdmits && !d.prec.covers i then { r with zeros := r.zeros ++ [(i, zero)] } else r
      s.modDie k fun d =>
        { d with cal := { d.cal with run := run, acc := setNth i (0, 0, 0) d.cal.acc },
                 prec := { d.prec with spareCell := setNth i (n % 24 + 1) d.prec.spareCell,
                                       spareStep := setNth i t d.prec.spareStep } })

/-- WARM_EXPIRE (R52): ten minutes after PREC powered up, WARM clears. -/
def execWarmExpire (t k : Nat) (s : State) : Outcome :=
  let s := s.at_ t
  .next (s.onDie k fun d =>
    if d.precOn && d.prec.upAt + 600000000000 ≤ t then s.modDie k fun d => { d with prec := { d.prec with warm := false } }
    else s)

/-! ### References (R34) -/

/-- REF_MONITOR_SAMPLE (R34): one ratio of the zener to the bandgap joins the 10 s interval. -/
def execRefMonitorSample (t k : Nat) (ratio : Rat) (s : State) : Outcome :=
  let s := s.at_ t
  .next (s.onDie k fun d =>
    let held := (((s.selfTest[k]?).bind (·.slice)).map (·.1)) == some 0x0501
    if d.precOn && !held then
      s.modDie k fun d =>
        { d with prec := { d.prec with
            refSum := d.prec.refSum + ratio, refCount := d.prec.refCount + 1, refClean := d.prec.refClean && d.prec.calAdmits } }
    else s)

/-- A run window that opens at an instant (R126). -/
def CalRun.opened (t : Nat) : CalRun :=
  { tBegin := t, dwells := [], zeros := [], s2 := [0, 0, 0, 0, 0, 0], s3 := [], tEnd := 0 }

/-- A run window may open on die k: calibration is enabled, the path runs, no reference fault, not in protection-only mode
(R126, R132). -/
def State.runMay (s : State) (k : Nat) (d : Die) : Bool := s.fB 0x04 k 0 0 && d.precOn && !d.prot.protOnly && d.prec.refState != 2

/-- The calibration record of R139. -/
def calRecord (pos k run tBegin tEnd result sources acc rej : Nat) (resid : Rat) (c : Cand) : List Byte :=
  let pair := fun (i : Nat) =>
    leInt 4 (clampInt (-2147483648) 2147483647 (roundAway (c.ofs.getD i 0 * 1000000000))) ++
      leInt 4 (clampInt (-2147483648) 2147483647 (roundAway (c.gain.getD i 0 * 1000)))
  withCrc32c (le 2 0x0501 ++ le 1 pos ++ le 1 k ++ le 4 run ++ le 8 tBegin ++ le 8 tEnd ++ le 1 result ++ le 1 sources ++
    zeros 2 ++ le 4 acc ++ le 4 rej ++ le 4 (roundAway (sqrtApprox resid * 10000000)).toNat ++ (List.range 29).flatMap pair)

/-- A discarding event of R132: the run in progress, or its solve, is dropped and any pairing ends, that of M30 too; a new
window opens when one is wanted. The run gives LAST_RESULT 5. DEDUCED, log entry 53. -/
def Die.discardRun (d : Die) (t : Nat) (reopen keepCand : Bool) : Die :=
  let had := d.cal.run.isSome || d.cal.solving.isSome
  { d with cal := { d.cal with run := if reopen then some (CalRun.opened t) else none, solving := none, acc := [(0, 0, 0), (0, 0, 0)],
                               heldCand := if keepCand then d.cal.heldCand else none,
                               lastResult := if had then 5 else d.cal.lastResult },
           seq := if keepCand then d.seq
             else { d.seq with m30 := d.seq.m30.map fun (x : M30Cal) => { x with prev := none } } }

/-- A discarding event on die k. A window that has closed complete and was being solved is a closed run, whose record has
RESULT 5 and no candidate; a window that was still open counts in no RUNS and yields no record (R132, R139). DEDUCED, log
entry 53. -/
def State.discardRun (s : State) (k t : Nat) (keepCand : Bool) : State :=
  s.onDie k fun d =>
    let s := match d.cal.solving with
      | some r =>
        s.dieRecord k 0x0501 r.tBegin
          (calRecord s.pos k d.cal.runs r.tBegin r.tEnd 5 0 0 0 0 { ofs := [], gain := [], valid := [] })
      | none => s
    s.modDie k fun e => e.discardRun t (s.runMay k e) keepCand

/-- Every channel counts as rejected from now on (R132, R133); deltas that have been accepted before still take effect at
their boundary (R130). -/
def CalState.reject (c : CalState) : CalState :=
  let all := List.replicate 29 true
  { c with stale := all, next := c.next.map fun n => { n with stale := all, accepted := false } }

/-- REF_INTERVAL_CLOSE (R34): the mean of the interval is judged against the previous one and against the
factory value at the same temperature; it is one of the 10 s means of S3. -/
def execRefIntervalClose (t k : Nat) (s : State) : Outcome :=
  let s := s.at_ t
  .next (s.onDie k fun d =>
    if !d.precOn || d.prec.refCount = 0 || t < d.prec.refAt + 10000000000 then s
    else
      let mean := d.prec.refSum / (d.prec.refCount : Rat)
      let f := d.cal.refFactory
      let fac := quadAt f.1 f.2.1 f.2.2 d.prec.temp
      let far := rabs (mean - fac) > fac / 1000
      let step : Bool := match d.prec.refPrev with
        | some m => decide (rabs (mean - m) > m * 20 / 1000000)
        | none => false
      let s := s.modDie k fun d =>
        { d with prec := { d.prec with refSum := 0, refCount := 0, refClean := true, refPrev := some mean, refAt := t, refFirst := false },
                 cal := { d.cal with run := d.cal.run.map fun r =>
                   if d.prec.refClean && d.prec.calAdmits then { r with s3 := r.s3 ++ [(t, mean)] } else r } }
      if d.prec.refState = 2 then
        if d.prec.refFirst && !far then
          ((s.modDie k fun d => { d with prec := { d.prec with refState := 0 } }).discardRun k t false).dieEvent k
            { source := 16, subkind := 3 }
        else s
      else if far then
        ((s.modDie k fun d => { d with prec := { d.prec with refState := 2 } }).discardRun k t false).dieEvent k
          { source := 16, subkind := 2 }
      else if step then
        ((s.modDie k fun d => { d with prec := { d.prec with refState := 1 }, cal := d.cal.reject }).discardRun k t false).dieEvent k
          { source := 16, subkind := 1 }
      else s)

/-! ### Gate windows (R62) -/

/-- E of the present gate period: the last output-sample boundary at or before its end (R62). -/
def State.gateEnd (s : State) (k : Nat) (d : Die) : Nat :=
  let per := s.gatePeriodNs k
  let gone := if s.now < d.prec.gateStart then 0 else (s.now - d.prec.gateStart) / per
  (d.prec.gateStart + (gone + 1) * per) / s.periodOf k * s.periodOf k

/-- The wire whose check is due next on die k: a suspected one first, then a broken one after 10 s (R220, R224). -/
def Die.owDue (d : Die) (now : Nat) : Option Nat :=
  match d.prot.suspect with
  | w :: _ => some w
  | [] => (d.prot.wireAt.find? fun x => decide (x.1 ≤ 24) && decide (x.2 + 10000000000 ≤ now)).map (·.1)

/-- A gate window is open, or one would open before a check that starts now has made its last conversion (R221). -/
def State.owDeferred (s : State) (k w : Nat) (d : Die) : Bool :=
  d.prec.window.isSome ||
    (s.fB 0x01 k 0 5 &&
      (let open_ := s.gateEnd k d - windowLen (s.fF 0x01 k 0 15 8) (s.rateOf k) (s.filtOf k)
       decide (s.now ≤ open_) && decide (open_ < s.now + s.owLen k w)))

/-- Urgent work holds M30: the check that is due starts, unless it is deferred (R221). -/
def State.owBegin (s : State) (k : Nat) : State :=
  s.onDie k fun d =>
    if !d.seq.urgent || d.prot.owRun.isSome || d.prot.protOnly || !d.precOn then s
    else
      match d.owDue s.now with
      | none => s
      | some w => if s.owDeferred k w d then s else (s.modDie k fun d => { d with prot := { d.prot with owRun := some (w, s.now) } }).settleChannels k

/-- The check in progress ends, with its check current, which has flowed since the end of the pre values (R221). -/
def State.owEnd (s : State) (k : Nat) : State :=
  ((s.settleChannels k).modDie k fun d => { d with prot := { d.prot with owRun := none } }).settleChannels k

/-- GATE_WINDOW_OPEN (R62): at E less the guard and one impulse, with gating in force and a balance channel
active, every balance channel of the die stops until E. -/
def execGateWindowOpen (t k : Nat) (s : State) : Outcome :=
  let s := (s.at_ t).takePrec k
  .next (s.onDie k fun d =>
    let e := s.gateEnd k d
    if d.prec.running && d.precOn && s.fB 0x01 k 0 5 && d.prot.anyOn &&
        t + windowLen (s.fF 0x01 k 0 15 8) (s.rateOf k) (s.filtOf k) == e then
      (s.modDie k fun d => { d with prec := { d.prec with window := some e, gatedE := some e } }).settleChannels k
    else s)

/-- GATE_WINDOW_CLOSE (R62): at E every balance channel resumes the state that the scheduler holds. -/
def execGateWindowClose (t k : Nat) (s : State) : Outcome :=
  let s := s.at_ t
  .next (s.onDie k fun d =>
    match d.prec.window with
    | some e =>
      if e ≤ t then ((s.modDie k fun d => { d with prec := { d.prec with window := none } }).settleChannels k).owBegin k else s
    | none => s)

end Sys2Proof.Machine
end

