-- ==== Sys2Proof/Machine/Impedance.lean ====
section
/-! DEFINITION. In-service cell impedance (R140 to R166): decimation, the current stream, segments, averages,
result records and injection. -/

namespace Sys2Proof.Machine

/-! ### Bands (R141, R142) -/

/-- Sample period of a band by BAND code, ns. -/
def bandPeriod (b : Nat) : Nat :=
  match b with
  | 0 => 100000000
  | 1 => 1000000
  | _ => 10000

/-- Hop of a band, ns: 2,048 samples. -/
def bandHop (b : Nat) : Nat := 2048 * bandPeriod b

/-- First point of a band. -/
def bandFirst (b : Nat) : Nat :=
  match b with
  | 0 => 0
  | 1 => 14
  | _ => 32

/-- Points of a band. -/
def bandPoints (b : Nat) : Nat :=
  match b with
  | 0 => 14
  | 1 => 18
  | _ => 16

/-- Frequency of point p in binary64 (R140). -/
def pointFreq (p : Nat) : Rat := fmul (f64 (1 / 20)) (f64 (powFrac 400000 p 47))

/-- Bins of point p (R142): those within half a ratio step of its frequency, bin 0 excepted. -/
def pointBins (p b : Nat) : List Nat :=
  let r := f64 (powFrac 400000 1 94)
  let lo := fdiv (pointFreq p) r
  let hi := fmul (pointFreq p) r
  let df : Rat := 1000000000 / ((bandPeriod b * 4096 : Nat) : Rat)
  ((List.range 2048).drop 1).filter fun i => decide (lo ≤ (i : Rat) * df) && decide ((i : Rat) * df < hi)

/-- IMP_EN of die k. -/
def State.impEn (s : State) (k : Nat) : Bool := s.fB 0x05 k 0 0
/-- A band computed. -/
def State.bandEn (s : State) (k b : Nat) : Bool := s.fB 0x05 k 0 (b + 1)
/-- Segments per average of a band. -/
def State.avgLen (s : State) (k b : Nat) : Nat :=
  match b with
  | 0 => s.fF 0x05 k 8 23 16
  | 1 => s.fF 0x05 k 8 15 8
  | _ => s.fF 0x05 k 8 7 0

/-- CUR_POS, CUR_ISLAND and CUR_SHUNT of die k. -/
def State.impSrc (s : State) (k : Nat) : Nat × Nat × Nat :=
  let r := s.regF 0x05 k 4
  (bits r 15 8, bits r 7 4, bits r 1 0)

/-- Die k is the current die that its own IMP_SRC names (R149). -/
def State.isCurDie (s : State) (k : Nat) : Bool :=
  let r := s.impSrc k
  s.impEn k && r.1 == s.pos && s.link.position.isSome && r.2.1 == k

/-- The fast path of a die can run: its FAST domain is on, the die is not in protection-only mode (R98) and no
SAR has failed (R467). -/
def Die.fastCan (d : Die) : Bool := d.fastOn && !d.prot.protOnly && d.fast.sarFail.isEmpty

/-- Impedance is in force and the die has a current source (R162). -/
def State.impRuns (s : State) (k : Nat) (d : Die) : Bool :=
  s.impEn k && (s.isCurDie k || d.imp.curOk) && d.fastCan

/-- Averages are discarded and the decimators restart (R162). -/
def ImpState.restart (i : ImpState) : ImpState :=
  { i with stages := List.replicate 3 (List.replicate 50 { last := 0, xs := [] }),
           bands := List.replicate 3 (List.replicate 50 { last := 0, xs := [] }),
           avgs := [none, none, none], segNext := [none, none, none], injActive := false, injSets := [] }

/-- The task as it stands when the die's DSP starts: counts, the current source and the groups begin again (R156, R166). -/
def ImpState.begin (i : ImpState) : ImpState :=
  { i.restart with segRej := 0, curMiss := 0, curOk := false, missRun := 0, seenT0 := [], rsh := [],
                   cur := List.replicate 3 { last := 0, xs := [] }, group := 0, injAvg := none }

/-- The current stream of a source that is newly named, or of a task newly enabled, has not begun (R162). -/
def ImpState.noSource (i : ImpState) : ImpState :=
  { i with curOk := false, missRun := 0, seenT0 := [], rsh := [], cur := List.replicate 3 { last := 0, xs := [] } }

/-- Injection stops, and its channels go back to the scheduler. -/
def State.stopInjection (s : State) (k : Nat) : State :=
  (s.modDie k fun d =>
    { d with imp := { d.imp with injActive := false },
             prot := { d.prot with chans := d.prot.chans.map fun c => { c with inj := false } } }).settleChannels k

/-- The swapped impedance fields taken at their boundary (R162). -/
def State.adoptImp (s : State) (k : Nat) : State :=
  match s.die? k with
  | none => s
  | some d =>
    match d.imp.swapAt with
    | none => s
    | some b =>
      if s.now ≤ b then s
      else
        let changed := s.blockDiffers 0x05 k
        let was := (s.impEn k, s.impSrc k)
        let s := s.takeBlock 0x05 k
        let same := was == (s.impEn k, s.impSrc k)
        let s := s.modDie k fun d =>
          let i := if changed then { d.imp.restart with injAvg := none } else d.imp
          { d with imp := { (if same then i else i.noSource) with swapAt := none } }
        if changed then s.stopInjection k else s

/-! ### Decimation (R143, R144) -/

/-- Product of two polynomials given by their coefficients. -/
def polyMul (a b : List Int) : List Int :=
  (List.range (a.length + b.length - 1)).map fun i =>
    (List.range (i + 1)).foldl (fun acc j => acc + a.getD j 0 * b.getD (i - j) 0) 0

/-- Weights of the order-3 moving-sum filter of ratio r over its 3r − 2 inputs. -/
def sumWeights (r : Nat) : List Int :=
  let box := List.replicate r 1
  polyMul (polyMul box box) box

/-- One output of a stage from its last inputs, newest first: value, flag, worst time quality. -/
def decimate (r shift : Nat) (xs : List (Int × Bool × Nat)) : Int × Bool × Nat :=
  let sum := (List.zipWith (fun w x => w * x.1) (sumWeights r) xs).foldl (· + ·) 0
  ((sum + (2 ^ (shift - 1) : Nat)) / (2 ^ shift : Nat), xs.any (·.2.1) || decide (xs.length < 3 * r - 2),
    xs.foldl (fun m x => max m x.2.2) 0)

/-- An input that never came, flagged. -/
def lostInput : Int × Bool × Nat := (0, true, 0)

/-- An input with its index: inputs that never came stand as flagged ones. -/
def pushInput (keep idx : Nat) (x : Int × Bool × Nat) (last : Nat) (xs : List (Int × Bool × Nat)) : List (Int × Bool × Nat) :=
  (x :: (List.replicate (min (idx - last - 1) keep) lostInput ++ xs)).take keep

/-- A stage takes an input. -/
def Stage.push (r idx : Nat) (x : Int × Bool × Nat) (st : Stage) : Stage :=
  { last := idx, xs := pushInput (3 * r - 2) idx x st.last st.xs }

/-- A band takes a sample; enough are kept to wait for the current stream. -/
def Band.push (idx : Nat) (x : Int × Bool × Nat) (b : Band) : Band :=
  { last := idx, xs := pushInput 131072 idx x b.last b.xs }

/-- A sample of the current stream takes its place, also behind later ones (R151). -/
def Band.put (idx : Nat) (x : Int × Bool × Nat) (b : Band) : Band :=
  if b.xs.isEmpty || b.last < idx then b.push idx x else { b with xs := setNth (b.last - idx) x b.xs }

/-- Sample of a band by index; one that never came is flagged. -/
def Band.at_ (b : Band) (idx : Nat) : Int × Bool × Nat :=
  if idx ≤ b.last then b.xs.getD (b.last - idx) lostInput else lostInput

/-- The worst time quality of the samples of a band that end with one, as far as they have come (R154). -/
def Band.worstTq (b : Band) (idx n : Nat) : Nat := (List.range n).foldl (fun a i => max a (b.at_ (idx - i)).2.2) 0

/-- Ratio and shift of stages 1 to 3, and the band of their output. -/
def stageOf (i : Nat) : Nat × Nat × Nat :=
  match i with
  | 0 => (10, 2, 2)
  | 1 => (100, 12, 1)
  | _ => (100, 12, 0)

/-- One input of channel c fed to a stage, and its output to the band and the next stage (R143). -/
def ImpState.feedStage (c idx : Nat) (x : Int × Bool × Nat) : Nat → Nat → ImpState → ImpState
  | 0, _, p => p
  | n + 1, i, p =>
    let g := stageOf i
    let st := ((p.stages.getD i []).getD c { last := 0, xs := [] }).push g.1 idx x
    let p := { p with stages := modNth (setNth c st) i p.stages }
    if idx % g.1 + 1 = g.1 then
      let y := decimate g.1 g.2.1 st.xs
      let q := idx / g.1
      let b := ((p.bands.getD g.2.2 []).getD c { last := 0, xs := [] }).push q y
      ImpState.feedStage c q y n (i + 1) { p with bands := modNth (setNth c b) g.2.2 p.bands }
    else p

/-- Input of channel c, 1 to 50, from a frame (R143, R144, R157). -/
def Die.impInput (d : Die) (f : FastFrame) (c : Nat) : Int × Bool × Nat :=
  if c ≤ 26 then
    (fastValue c (f.codes.getD (c - 1) 0),
      f.ovrng.testBit (c - 1) || f.dist.testBit (c - 1) || f.inv.testBit (c - 1), f.tq)
  else
    let ch := d.prot.chan (c - 26)
    (if ch.conducting then -(roundAway (ch.iOn * 10000)) else 0, false, f.tq)

/-- First segment of a band that an average begins with at or after an instant (R162, R163). -/
def firstSegment (avg hop t : Nat) : Nat := (t + avg * hop - 1) / (avg * hop) * avg

/-- A frame feeds the decimators (R143, R162). -/
def State.feedImp (s : State) (k : Nat) (f : FastFrame) : State :=
  s.onDie k fun d =>
    if !s.impRuns k d then s
    else
      let src := s.impSrc k
      let chans := (List.range 24).map (· + 1) ++ (if s.isCurDie k then [24 + src.2.2] else []) ++
        (if s.fB 0x05 k 0 5 then (List.range 24).map (· + 27) else [])
      let imp := chans.foldl (fun p c => p.feedStage (c - 1) (f.hold / 1000) (d.impInput f c) 3 0) d.imp
      let seg := imp.segNext.zipIdx.map fun x =>
        match x.1 with
        | some j => some j
        | none => if s.bandEn k x.2 && !d.imp.suspended then some (firstSegment (s.avgLen k x.2) (bandHop x.2) f.hold) else none
      s.modDie k fun d => { d with imp := { imp with segNext := seg } }

/-! ### The current stream (R149 to R151) -/

/-- The current block of R150 from the band samples of the current die for the millisecond T0. -/
def State.currentBlock (s : State) (k : Nat) (d : Die) (t0 : Nat) : List Byte :=
  let src := s.impSrc k
  let c := 23 + src.2.2
  let band := fun b => (d.imp.bands.getD b []).getD c { last := 0, xs := [] }
  let h := (List.range 100).map fun i => (band 2).at_ (t0 / 10000 + i)
  let m := (band 1).at_ (t0 / 1000000)
  let lOn := (t0 + 1000000) % 100000000 == 0
  let l := (band 0).at_ (t0 / 100000000)
  let tq := max (h.foldl (fun a x => max a x.2.2) 0) d.tq
  withCrc32c (le 2 0x0602 ++ le 1 s.pos ++ le 1 k ++ le 1 src.2.2 ++
    le 1 (fld 7 1 (b2n lOn) + fld 6 1 (b2n m.2.1) + fld 5 1 (b2n (lOn && l.2.1)) + fld 3 2 tq) ++
    le 2 (s.fF 0x05 k 12 31 16) ++ le 8 t0 ++ le 4 (roundAway (s.shuntRes k src.2.2)).toNat ++ zeros 4 ++
    h.flatMap (fun x => leInt 4 x.1) ++ le 16 (maskOf (indexes (fun x => x.2.1) h)) ++ leInt 8 m.1 ++
    leInt 8 (if lOn then l.1 else 0))

/-! ### Segments (R145, R152, R154) -/

/-- A complex number. -/
structure Cx where
  re : Rat
  im : Rat
deriving DecidableEq, Repr

/-- Product with each product rounded before each sum (R145). -/
def Cx.mul (a b : Cx) : Cx :=
  { re := fsub (fmul a.re b.re) (fmul a.im b.im), im := fadd (fmul a.re b.im) (fmul a.im b.re) }
/-- Sum. -/
def Cx.add (a b : Cx) : Cx := { re := fadd a.re b.re, im := fadd a.im b.im }
/-- Difference. -/
def Cx.sub (a b : Cx) : Cx := { re := fsub a.re b.re, im := fsub a.im b.im }
/-- Squared magnitude. -/
def Cx.norm (a : Cx) : Rat := fadd (fmul a.re a.re) (fmul a.im a.im)

/-- Elements at even places. -/
def evens {α : Type} : List α → List α
  | [] => []
  | [a] => [a]
  | a :: _ :: as => a :: evens as

/-- Elements at odd places. -/
def odds {α : Type} : List α → List α
  | [] => []
  | [_] => []
  | _ :: b :: as => b :: odds as

/-- w of a butterfly: cos(2πk/4096) − j sin(2πk/4096), correctly rounded. -/
def twiddle (k : Nat) : Cx :=
  let c := cosSinTurn k 4096
  { re := f64 c.1, im := f64 (-c.2) }

/-- Radix-2 decimation in time over 2^n values: the butterflies of the iterative form on bit-reversed input,
span by span (R145). -/
def fft : Nat → List Cx → List Cx
  | 0, xs => xs
  | n + 1, xs =>
    let e := fft n (evens xs)
    let o := fft n (odds xs)
    let ts := o.zipIdx.map fun x => (twiddle (x.2 * (4096 / 2 ^ (n + 1)))).mul x.1
    List.zipWith Cx.add e ts ++ List.zipWith Cx.sub e ts

/-- hann[m] of R145. -/
def hann (m : Nat) : Rat := f64 (1 / 2 - 1 / 2 * (cosSinTurn m 4096).1)

/-- Spectrum of one input over a segment (R145). -/
def spectrum (xs : List Int) (scale : Rat) : List Cx :=
  let mean := fdiv (xs.foldl (fun (a : Rat) (x : Int) => fadd a (f64 (x : Rat))) 0) 4096
  fft 12 (xs.zipIdx.map fun x => { re := fmul (fmul (fsub (f64 (x.1 : Rat)) mean) scale) (hann x.2), im := 0 })

/-- R_SH_EFF of the block that holds a band sample, by its T0 (R145). -/
def ImpState.rshAt (i : ImpState) (t0 : Nat) : Nat := ((i.rsh.find? fun x => x.1 ≤ t0).map (·.2)).getD 0

/-- scale_i of R145 for the current. -/
def scaleCurrent (r : Nat) : Rat := fdiv (f64 (25 / 10000000)) (fmul (f64 r) (f64 (1 / 1000000000)))

/-- The 4,096 samples of a segment. -/
def Band.segment (b : Band) (q0 : Nat) : List (Int × Bool × Nat) := (List.range 4096).map fun m => b.at_ (q0 + m)

/-- No sample of a segment is flagged. -/
def segClean (xs : List (Int × Bool × Nat)) : Bool := xs.all fun x => !x.2.1

/-- Time quality of every sample admits the band (R154). -/
def segTq (b : Nat) (xs : List (Int × Bool × Nat)) : Bool := xs.all fun x => if b = 2 then x.2.2 == 0 else x.2.2 ≤ 1

/-- The sums of one cell after a segment, for the points that `takes` picks (R145). -/
def accumulate (b : Nat) (takes : Nat → Bool) (v i : List Cx) (acc : List Acc) : List Acc :=
  acc.zipIdx.map fun a =>
    if !takes (bandFirst b + a.2) then a.1
    else (pointBins (bandFirst b + a.2) b).foldl
      (fun s bin =>
        let x := v.getD bin { re := 0, im := 0 }
        let y := i.getD bin { re := 0, im := 0 }
        let p := x.mul { re := y.re, im := -y.im }
        { sviRe := fadd s.sviRe p.re, sviIm := fadd s.sviIm p.im, sii := fadd s.sii y.norm, svv := fadd s.svv x.norm }) a.1

/-- Accumulators of an average at its start. -/
def Average.fresh (b idx : Nat) : Average :=
  { index := idx, segs := List.replicate 24 0, natSegs := List.replicate 24 0,
    acc := List.replicate 24 (List.replicate (bandPoints b) { sviRe := 0, sviIm := 0, sii := 0, svv := 0 }),
    curSegs := 0, rshSum := 0, rshN := 0 }

/-- Injected cells and NOINJ cells of average a, as masks (R156, R158). -/
def ImpState.injOf (i : ImpState) (a : Nat) : Nat × Nat × Nat :=
  match i.injSets.find? fun x => x.1 == a with
  | some x => x.2
  | none => (0, 0, 0)

/-- Every current block that a segment ending at `end_` draws on, back from the one that holds its last sample, has come or
counts as missing (R151, R163); those older than CUR_WAIT_MS are missing by then. -/
def State.curSettled (s : State) (k end_ : Nat) (i : ImpState) : Bool :=
  let wait := s.fF 0x05 k 4 31 16 * 1000000
  let newest := (end_ - 1) / 1000000
  (List.range (min newest (s.fF 0x05 k 4 31 16 + 1) + 1)).all fun m =>
    let t0 := (newest - m) * 1000000
    i.seenT0.contains t0 || decide (t0 + 1000000 + wait ≤ s.now)

/-- Point p of a cell is injected: points 37 to 47 never are (R156). -/
def pointInjected (inj : Bool) (p : Nat) : Bool := inj && decide (p < 37)

/-- What one cell has of a segment: its samples are usable, with the reference of its injected points and with the
current of the natural ones, and the two spectra it would add (R152, R154, R156). -/
structure CellSeg where
  inj : Bool
  ok : Bool
  natOk : Bool
  v : List Int
  u : List Int
  cur : List Int
deriving DecidableEq, Repr

/-- Cell n in the segment that begins with sample q0 of a band. -/
def State.cellSeg (s : State) (k band q0 n : Nat) (d : Die) (inj : Bool) (cur : List (Int × Bool × Nat)) : CellSeg :=
  let chan := fun (c : Nat) => (((d.imp.bands.getD band []).getD c { last := 0, xs := [] }).segment q0)
  let v := chan (n - 1)
  let u := if inj then chan (25 + n) else cur
  let own := s.cellEn k n && !d.prot.cellBroken n && segClean v && segTq band v
  { inj := inj, ok := own && segClean u && segTq band u, natOk := own && segClean cur && segTq band cur,
    v := v.map (·.1), u := u.map (·.1), cur := cur.map (·.1) }

/-- The sums of a cell after its segment (R145, R152, R156). -/
def CellSeg.addTo (c : CellSeg) (band r : Nat) (acc : List Acc) : List Acc :=
  let v := spectrum c.v (f64 (1 / 10000))
  let acc := if c.ok then
      accumulate band (fun p => !c.inj || pointInjected true p) v
        (spectrum c.u (if c.inj then f64 (1 / 10000) else scaleCurrent r)) acc
    else acc
  if c.inj && c.natOk then accumulate band (fun p => !pointInjected true p) v (spectrum c.cur (scaleCurrent r)) acc else acc

/-- IMP_SEGMENT_END (R145, R152): once its current samples have come or are missing, the next segment of the band is
transformed and every admitted cell's spectra are accumulated. -/
def execImpSegmentEnd (t k band : Nat) (s : State) : Outcome :=
  let s := (s.at_ t).adoptImp k
  .next (s.onDie k fun d =>
    let i := d.imp
    match i.segNext.getD band none with
    | none => s
    | some j =>
      let avg := s.avgLen k band
      let q0 := j * 2048
      let end_ := (q0 + 4096) * bandPeriod band
      if !s.impEn k || !s.bandEn k band || d.prot.protOnly || avg = 0 || 2 < band || t < end_ || !s.curSettled k end_ i then s
      else
        let a := j / avg
        let av := if j % avg = 0 then some (Average.fresh band a) else i.avgs.getD band none
        match av with
        | none => s
        | some av =>
          let cur := (i.cur.getD band { last := 0, xs := [] }).segment q0
          let r := i.rshAt (if band = 0 then q0 * 100000000 + 99000000 else q0 * bandPeriod band / 1000000 * 1000000)
          let injected := if s.fB 0x05 k 0 5 && s.fF 0x05 k 0 7 6 == band then (i.injOf a).2.1 else 0
          let res := (List.range 24).map fun m => s.cellSeg k band q0 (m + 1) d (injected.testBit m) cur
          let natural := res.any fun x => (x.ok && !x.inj) || (x.natOk && x.inj && band == 2)
          let av : Average :=
            { av with acc := List.zipWith (fun x ac => CellSeg.addTo x band r ac) res av.acc,
                      segs := List.zipWith (fun x g => if x.ok then g + 1 else g) res av.segs,
                      natSegs := List.zipWith (fun x g => if x.natOk then g + 1 else g) res av.natSegs,
                      curSegs := if segClean cur then av.curSegs + 1 else av.curSegs,
                      rshSum := if natural then av.rshSum + r else av.rshSum,
                      rshN := if natural then av.rshN + 1 else av.rshN }
          s.modDie k fun d =>
            { d with imp := { i with avgs := setNth band (some av) i.avgs, segNext := setNth band (some (j + 1)) i.segNext,
                                     segRej := sat 16 (i.segRej + (res.filter fun x => !x.ok).length) } })

/-! ### Averages and result records (R146, R153, R159 to R161) -/

/-- Pairs of R159 in use: phase and temperature, both in hundredths. -/
def State.tphPairs (s : State) (k : Nat) : List (Int × Int) :=
  ((List.range 8).map fun i => s.regF 0x05 k (0x020 + 4 * i)).takeWhile (· ≠ 0)
    |>.map fun w => (signed 16 (bits w 15 0), signed 16 (bits w 31 16))

/-- Linear interpolation in the pairs, and whether the phase lies outside them (R159). -/
def interpolate (pairs : List (Int × Int)) (phi : Rat) : Rat × Bool :=
  match pairs with
  | [] => (0, true)
  | p :: rest =>
    if phi < (p.1 : Rat) then ((p.2 : Rat), true)
    else
      let r := rest.foldl
        (fun (acc : (Int × Int) × Option Rat) q =>
          match acc.2 with
          | some _ => (q, acc.2)
          | none =>
            if phi ≤ (q.1 : Rat) then
              (q, some (fadd (acc.1.2 : Rat) (fdiv (fmul ((q.2 - acc.1.2 : Int) : Rat) (fsub phi (acc.1.1 : Rat))) ((q.1 - acc.1.1 : Int) : Rat))))
            else (q, none)) (p, none)
      match r.2 with
      | some x => (x, false)
      | none => ((r.1.2 : Rat), decide ((r.1.1 : Rat) < phi))

/-- One point of a cell: Re Z and Im Z in ohms when the point carries a result, γ², UNC. -/
structure PointOut where
  z : Option (Rat × Rat)
  coh : Rat
  unc : Rat
deriving DecidableEq, Repr

/-- The quotient of two complex numbers, formed with the conjugate of the divisor. DEDUCED, log entry 54. -/
def Cx.div (a b : Cx) : Cx :=
  let n := a.mul { re := b.re, im := -b.im }
  { re := fdiv n.re b.norm, im := fdiv n.im b.norm }

/-- The sense-network correction c of R146 at a point, for time constants in units of 10 ns. -/
def senseCorr (p tauV tauI : Nat) : Cx :=
  let w := fmul (fmul 2 (f64 pi)) (pointFreq p)
  let tau := fun (n : Nat) => fmul (f64 (n : Rat)) (f64 (1 / 100000000))
  Cx.div { re := 1, im := fmul w (tau tauV) } { re := 1, im := fmul w (tau tauI) }

/-- UNC of R146 for K bins; with a γ² of 0 the quotient is infinite and the field saturates. DEDUCED, log entry 54. -/
def uncOf (coh : Rat) (bins : Nat) : Rat :=
  if coh = 0 then 65534 / 10000 else fsqrt (fdiv (fsub 1 coh) (fmul (fmul 2 (f64 (bins : Rat))) coh))

/-- The values of R146 and R153 for one point, in binary64 (R140). -/
def pointResult (a : Acc) (p b segs avg cohMin : Nat) (inj wiresOk wiring : Bool) (wireRes : Rat) (tauV tauI : Nat) : PointOut :=
  let svi : Cx := { re := a.sviRe, im := a.sviIm }
  let coh := fdiv svi.norm (fmul a.svv a.sii)
  let ok := decide ((avg + 1) / 2 ≤ segs) && decide (0 < a.sii) && decide (fmul (f64 (cohMin : Rat)) (f64 (1 / 10000)) ≤ coh) &&
    (!inj || wiresOk)
  if !ok then { z := none, coh := coh, unc := 0 }
  else
    let z := Cx.mul { re := fdiv a.sviRe a.sii, im := fdiv a.sviIm a.sii } (senseCorr p tauV (if inj then 0 else tauI))
    { z := some (if inj && !wiring then fsub z.re wireRes else z.re, z.im), coh := coh,
      unc := uncOf coh ((pointBins p b).length * segs) }

/-- The twelve bytes of a point (R160, R161). -/
def PointOut.bytes (o : PointOut) : List Byte :=
  let coh := le 2 (clampInt 0 10000 (roundAway (o.coh * 10000))).toNat
  match o.z with
  | none => le 4 0x80000000 ++ le 4 0x80000000 ++ coh ++ le 2 0xFFFF
  | some z =>
    let part := fun (v : Rat) => leInt 4 (clampInt (-2147483647) 2147483647 (roundAway (v * 1000000000)))
    part z.1 ++ part z.2 ++ coh ++ le 2 (clampInt 0 0xFFFE (roundAway (o.unc * 10000))).toNat

/-- What a cell block carries of R159: T_INT and its clamp, T_TH, TDIS. -/
structure IntTemp where
  tInt : Option (Int × Bool)
  tTh : Option Int
  tdis : Bool
deriving DecidableEq, Repr

/-- T_INT and the comparison with the thermistor of cell n as the estimator holds it (R159). A record in which no T_INT
is formed compares nothing and carries no T_TH. DEDUCED, log entry 54. -/
def State.intTemp (s : State) (k n band : Nat) (pts : List PointOut) : IntTemp :=
  let p := s.fF 0x05 k 0x010 5 0
  let j := s.fF 0x05 k (0x014 + 4 * ((n - 1) / 8)) (4 * ((n - 1) % 8) + 3) (4 * ((n - 1) % 8))
  let nothing : IntTemp := { tInt := none, tTh := none, tdis := false }
  if p = 0x3F ∨ p < bandFirst band ∨ bandFirst band + bandPoints band ≤ p then nothing
  else
    match pts[p - bandFirst band]? with
    | some { z := some z, .. } =>
      let r := interpolate (s.tphPairs k) (f64 (atan2 z.2 z.1 * 180 / pi * 100))
      let th := if j = 0 then none else (s.freshTherm k j).map fun x => clampInt (-32767) 32767 (roundAway (x * 100))
      let ti := roundAway r.1
      { tInt := some (ti, r.2), tTh := th,
        tdis := match th with
          | some h => decide (((s.fF 0x05 k 0x010 15 8 * 50 : Nat) : Int) < (ti - h).natAbs)
          | none => false }
    | _ => nothing

/-- IMP_AVERAGE_END (R146, R153, R158 to R161): the average whose last segment has been taken in yields its
record; T_INT disagreements raise their events. -/
def execImpAverageEnd (t k band : Nat) (s : State) : Outcome :=
  let s := (s.at_ t).adoptImp k
  .next (s.onDie k fun d =>
    let i := d.imp
    let avg := s.avgLen k band
    match i.avgs.getD band none, i.segNext.getD band none with
    | some av, some j =>
      if j ≠ (av.index + 1) * avg ∨ !s.impEn k ∨ d.prot.protOnly then s
      else
        let injBand := s.fB 0x05 k 0 5 && s.fF 0x05 k 0 7 6 == band
        let set := if injBand then i.injOf av.index else (0, 0, 0)
        let cohMin := s.fF 0x05 k 0 31 16
        let tauV := s.fF 0x05 k 12 15 0
        let wiring := s.fB 0x01 k 0 6
        let cell := fun (n : Nat) =>
          let inj := set.2.1.testBit (n - 1)
          let segs := av.segs.getD (n - 1) 0
          let pts := (av.acc.getD (n - 1) []).zipIdx.map fun a =>
            let p := bandFirst band + a.2
            let pinj := pointInjected inj p
            pointResult a.1 p band (if inj && !pinj then av.natSegs.getD (n - 1) 0 else segs) avg cohMin pinj
              (d.prec.wiresValid n) wiring (fadd (f64 (d.prec.wire n).mean) (f64 (d.prec.wire (n - 1)).mean)) tauV i.tauI
          (segs, inj, set.2.2.testBit (n - 1), pts, s.intTemp k n band pts)
        let cells := (List.range 24).map fun m => cell (m + 1)
        let hop := bandHop band
        let tb := av.index * avg * hop
        let src := s.impSrc k
        let rmean := if av.rshN = 0 then 0 else (roundAway (av.rshSum / (av.rshN : Rat))).toNat
        let body := cells.flatMap fun c =>
          let it := c.2.2.2.2
          le 2 c.1 ++
            le 1 (fld 7 1 (b2n (c.1 == 0)) + fld 6 1 (b2n c.2.1) + fld 5 1 (b2n c.2.2.1) +
              fld 4 1 (b2n ((it.tInt.map (·.2)).getD false)) + fld 3 1 (b2n it.tdis) + fld 2 1 (b2n it.tInt.isNone)) ++
            zeros 1 ++ le 2 ((it.tInt.map fun x => unsignedBits 16 x.1).getD 0x8000) ++
            le 2 ((it.tTh.map (unsignedBits 16)).getD 0x8000) ++ c.2.2.2.1.flatMap PointOut.bytes
        let bytes := withCrc32c (le 2 0x0601 ++ le 1 s.pos ++ le 1 k ++ le 1 band ++ le 1 (bandFirst band) ++
          le 1 (bandPoints band) ++
          le 1 (fld 7 1 (b2n i.onHub) + fld 6 1 (b2n (injBand && i.injSets.any fun x => x.1 == av.index)) + fld 4 2 set.1 + fld 3 1 (b2n i.moved) +
            fld 2 1 (b2n d.fast.derated)) ++
          le 8 tb ++ le 8 (tb + (avg + 1) * hop) ++ le 2 avg ++ le 2 (fld 8 8 src.1 + fld 4 4 src.2.1 + fld 0 2 src.2.2) ++
          le 2 tauV ++ le 2 i.tauI ++ le 4 rmean ++ le 2 av.curSegs ++ le 2 cohMin ++ body)
        let hasPoint := bandFirst band ≤ s.fF 0x05 k 0x010 5 0 ∧ s.fF 0x05 k 0x010 5 0 < bandFirst band + bandPoints band
        let tdis := cells.map fun c => c.2.2.2.2.tdis
        let risen := if hasPoint then indexes id (List.zipWith (fun now before => now && !before) tdis i.tdisPrev) else []
        let s := s.modDie k fun d =>
          { d with imp := { i with avgs := setNth band none i.avgs, moved := false,
                                   tdisPrev := if hasPoint then tdis else i.tdisPrev } }
        let s := s.dieRecord k 0x0601 tb bytes
        risen.foldl
          (fun s m =>
            let ti := ((cells[m]?).bind fun c => c.2.2.2.2.tInt).map (·.1)
            s.dieEvent k { source := 23, subkind := 1, item := m + 1, arg16 := unsignedBits 16 (ti.getD 0) }) s
    | _, _ => s)

/-! ### Injection (R156 to R158) -/

/-- Chip period by INJ_BAND, ns (R156). -/
def chipPeriod (b : Nat) : Nat :=
  match b with
  | 0 => 200000000
  | 1 => 2000000
  | _ => 400000

/-- One step of the chip generator: the chip and the next state (R156). -/
def chipStep (x : Nat) : Bool × Nat :=
  let fb := (x >>> 10 ^^^ x >>> 8) &&& 1
  (fb == 1, (x <<< 1 ||| fb) &&& 0x7FF)

/-- Injection is in force on die k (R156, R310). -/
def State.injInForce (s : State) (k : Nat) (d : Die) : Bool := s.impRuns k d && s.fB 0x05 k 0 5 && !d.imp.suspended

/-- Injection may run now: in force, internal balancing neither derated nor stopped by the timeout (R157, R162). -/
def State.injRuns (s : State) (k : Nat) (d : Die) : Bool :=
  s.injInForce k d && (s.fB 0x07 k 0x014 4 || !(d.prot.derateT || d.prot.derateGov)) && !d.prot.timeout

/-- An injected average of die k begins: the next group, the cells it injects and those it leaves (R156, R158). A
channel that cannot run then stays off for the whole average, whose reference is 0 (R157). DEDUCED, log entry 54. -/
def State.beginInjection (s : State) (k a : Nat) : State :=
  s.modDie k fun d =>
    let i := d.imp
    let group := if i.injAvg.isNone then 0 else (i.group + 1) % 3
    let members := ((List.range 24).map (· + 1)).filter fun n => (n - 1) % 3 == group
    let free := members.filter fun n => bit (s.regF 0x07 k 0x018) (n - 1) && !((d.prot.chan n).sched && !(d.prot.chan n).stepOff)
    let kept := members.filter fun n => !free.contains n
    let mask := fun (l : List Nat) => maskOf (l.map (· - 1))
    { d with
      imp := { i with lfsr := 0x7FF, group := group, injActive := s.injRuns k d, injAvg := some a,
                      injSets := ((a, group, mask free, mask kept) :: i.injSets).take 64 },
      prot := { d.prot with chans := d.prot.chans.zipIdx.map fun x => { x.1 with inj := free.contains (x.2 + 1) } } }

/-- INJECTION_CHIP (R156 to R158): at the start of an injected average the group advances and the generator restarts; each
chip period the group's channels follow the next chip. After a stop injection goes on with the next average. -/
def execInjectionChip (t k : Nat) (s : State) : Outcome :=
  let s := (s.at_ t).adoptImp k
  .next (s.onDie k fun d =>
    let band := s.fF 0x05 k 0 7 6
    let len := s.avgLen k band * bandHop band
    if !s.injInForce k d || len = 0 then s.stopInjection k
    else if (t % len) % chipPeriod band ≠ 0 then s
    else
      let s := if t % len = 0 && d.imp.injAvg != some (t / len) then s.beginInjection k (t / len) else s
      s.onDie k fun d =>
        if !d.imp.injActive then s
        else if !s.injRuns k d then s.stopInjection k
        else
          let c := chipStep d.imp.lfsr
          (s.modDie k fun d => { d with imp := { d.imp with lfsr := c.2, chip := c.1 } }).settleChannels k)

end Sys2Proof.Machine
end

