-- ==== Sys2Proof/Machine/Fast.lean ====
section
/-! DEFINITION. Synchronous capture (R67 to R98, R493): frames, the ring, triggers, windows, block records,
streams and SYNC_IN. -/

namespace Sys2Proof.Machine

/-- MODE of die k in force: 0 off, 1 snapshot, 2 stream (R94). -/
def State.fastMode (s : State) (k : Nat) : Nat := s.fF 0x02 k 0 7 6

/-- The path of die k holds frames (R98, R162). -/
def State.fastRuns (s : State) (k : Nat) (d : Die) : Bool :=
  d.fastCan && s.inRun && (s.fastMode k != 0 || s.impRuns k d)

/-! ### Windows -/

/-- Hold of the trigger frame: the first whole microsecond at or after T_TRIG (R79). -/
def trigHold (tTrig : Nat) : Nat := (tTrig + 999) / 1000 * 1000

/-- End of a capture's window, exclusive: POST_US after the trigger frame, or the instant at which the capture
ended (R79, R98); none while T_TRIG is not known. -/
def Capture.end_ (c : Capture) : Option Nat :=
  c.tTrig.map fun x =>
    let e := trigHold x + c.post * 1000
    match c.stop with
    | some y => min e y
    | none => e

/-- A hold lies in the part of a window that no block carries yet (R85). -/
def Capture.wants (c : Capture) (hold : Nat) : Bool :=
  match c.end_ with
  | some e => decide (c.next ≤ hold) && decide (hold < e)
  | none => false

/-- Every capture that still has frames to deliver, oldest first. -/
def FastState.captures (f : FastState) : List Capture :=
  f.drain ++ (match f.cap with
    | some c => [c]
    | none => [])

/-- A capture that ended and still holds frames drains; one with nothing left is done. -/
def FastState.retire (f : FastState) (c : Capture) : FastState :=
  if f.ring.any (fun x => c.wants x.hold) then { f with drain := f.drain ++ [c] } else f

/-- The first hold of a window. -/
def Capture.firstHold (c : Capture) (tTrig : Nat) : Nat := trigHold tTrig - c.pre * 1000

/-- Frames of a window before an instant that are neither delivered nor held count in FAST_DROP, each once (R85, R87). -/
def FastState.countTo (f : FastState) (c : Capture) (hold : Nat) : FastState × Capture :=
  let e := match c.end_ with | some e => min e hold | none => 0
  ({ f with dropTotal := (f.dropTotal + (e - c.counted) / 1000) % 2 ^ 64 }, { c with counted := max c.counted e })

/-- A capture armed or triggered while the governor derates the path holds no frame before its trigger frame (R98). -/
def FastState.noPre (f : FastState) (c : Capture) : Bool := f.derated || c.deratedAtArm

/-- T_TRIG becomes known: the window is protected, and every frame of it that lies in the past and is not held is counted
(R85, R98). -/
def FastState.learn (f : FastState) (c : Capture) (tTrig now : Nat) : FastState × Capture :=
  let first := c.firstHold tTrig
  let next := if f.noPre c then trigHold tTrig else first
  let stop := min ((now + 999) / 1000 * 1000) (trigHold tTrig + c.post * 1000)
  let held := (f.ring.filter fun x => decide (next ≤ x.hold) && decide (x.hold < stop)).length
  ({ f with dropTotal := (f.dropTotal + ((stop - first) / 1000 - held)) % 2 ^ 64 },
    { c with tTrig := some tTrig, first := first, next := next, counted := max first stop })

/-- A capture that holds no frame before its trigger frame (R98): those that the ring still holds are counted. -/
def FastState.dropPre (f : FastState) (c : Capture) (tTrig : Nat) : FastState × Capture :=
  if !f.noPre c then (f, c)
  else
    let lost := (f.ring.filter fun x => c.wants x.hold && decide (x.hold < trigHold tTrig)).length
    ({ f with dropTotal := (f.dropTotal + lost) % 2 ^ 64 }, { c with next := max c.next (trigHold tTrig) })

/-- The next capture of a periodic arm (R78). -/
def Capture.again (c : Capture) (id : Nat) : Capture :=
  { c with id := id, k := c.k + 1, triggered := false, delivered := 0, block := 0, aborted := false, stop := none, cmd := none }

/-- The capture in progress is replaced by the next one of its period, or by none (R78, R493). -/
def FastState.proceed (f : FastState) (c : Capture) (now : Nat) : FastState :=
  if c.period = 0 then { f with cap := none }
  else
    let n := c.again f.nextId
    let r := f.learn n (c.a + n.k * c.period * 1000) now
    { r.1 with cap := some r.2, nextId := (f.nextId + 1) % 2 ^ 32 }

/-- A trigger whose frame falls while the path is stopped (R97, R493). -/
def State.missTrigger (s : State) (k : Nat) (c : Capture) : State :=
  let s := s.modDie k fun d =>
    { d with fast := { (d.fast.proceed c s.now) with trigMissed := min (d.fast.trigMissed + 1) (2 ^ 32 - 1) } }
  let s := if c.period = 0 then s.dieEvent k { source := 21, subkind := 2, arg16 := c.id % 65536 } else s
  s.completeOpt c.cmd .captureAborted c.id

/-- The path of a die had stopped at a hold: it does not run, or runs only since a later instant. -/
def Die.stoppedAt (d : Die) (now hold : Nat) : Bool :=
  !d.fastCan || (match d.fast.startedAt with
    | some x => decide (hold < x) && decide (x ≤ now)
    | none => true)

/-- T_TRIG learnt by an armed capture of die k (R78, R85, R493). -/
def State.triggerCapture (s : State) (k tTrig : Nat) : State :=
  s.onDie k fun d =>
    match d.fast.cap with
    | none => s
    | some c =>
      if c.triggered then s
      else if d.stoppedAt s.now (trigHold tTrig) then s.missTrigger k c
      else
        s.modDie k fun d =>
          let r := if c.tTrig.isSome then d.fast.dropPre c tTrig else d.fast.learn c tTrig s.now
          { d with fast := { r.1 with cap := some { r.2 with triggered := true } } }

/-- A protection trip or notice triggers the armed fault captures of a die (R78, R83). -/
def State.faultTrigger (s : State) (k tOrigin : Nat) (chain : Bool) : State :=
  s.onDie k fun d =>
    match d.fast.cap with
    | some c => if c.src = 2 ∧ c.a ≤ tOrigin ∧ (c.scope ∨ !chain) then s.triggerCapture k tOrigin else s
    | none => s

/-! ### Block records (R89 to R92) -/

/-- A capture block record. -/
def blockRecord (pos k recType id block : Nat) (frames : List FastFrame) (decim drops : Nat) (tTrig : Option Nat)
    (abort last derated gap : Bool) (temp : Int) : List Byte :=
  let h0 := (frames.head?.map (·.hold)).getD 0
  let step := decim * 1000
  let ti := match tTrig with
    | some x =>
      let h := trigHold x
      if h0 ≤ h ∧ h < h0 + frames.length * step then (h - h0) / step else 0xFFFF
    | none => 0xFFFF
  let tq := frames.foldl (fun a f => max a f.tq) 0
  let mask := fun (m : FastFrame → Nat) => frames.foldl (fun a f => a ||| m f) 0
  let sl := indexes (fun f => f.slice) frames
  withCrc32c (le 2 recType ++ le 1 pos ++ le 1 k ++ le 4 id ++ le 8 h0 ++ le 2 block ++ le 2 frames.length ++ le 2 ti ++
    le 1 (fld 7 1 (b2n abort) + fld 6 1 (b2n last) + fld 4 2 tq + fld 3 1 (b2n !sl.isEmpty) +
      fld 2 1 (b2n (derated || frames.any (·.derated))) + fld 1 1 (b2n gap) + fld 0 1 (b2n (ti != 0xFFFF))) ++
    zeros 1 ++ le 4 (mask (·.ovrng)) ++ le 4 (mask (·.dist)) ++ le 4 (mask (·.bal)) ++ le 4 (mask (·.inv)) ++
    le 2 ((sl.head?).getD 0xFFFF) ++ le 2 sl.length ++ leInt 2 temp ++ le 2 decim ++ le 4 drops ++ le 8 (tTrig.getD 0) ++
    zeros 4 ++ frames.flatMap fun f => f.codes.flatMap (le 2))

/-- The consecutive frames that follow a hold, by steps of `step`. -/
def runFrom (step : Nat) : Nat → List FastFrame → List FastFrame
  | _, [] => []
  | h, f :: fs => if f.hold = h then f :: runFrom step (h + step) fs else []

/-- While the governor derates, the path holds a tenth of the frames: the first 100 ms of each second, counted from the
trigger frame of the window in progress (R98), or of each whole second of pack time when there is none. DESIGN CHOICE, log
entry 54. -/
def FastState.dutyHolds (f : FastState) (hold : Nat) : Bool :=
  let from_ := f.captures.filterMap fun c => if c.wants hold then c.tTrig.map trigHold else none
  match from_ with
  | [] => decide (hold % 1000000000 < 100000000)
  | hs => hs.any fun h => decide (h ≤ hold) && decide ((hold - h) % 1000000000 < 100000000)

/-- The path is derated, and between the bursts of R98 after a hold; a later burst still falls into the capture's window. -/
def FastState.pauses (f : FastState) (c : Capture) (hold : Nat) : Bool :=
  f.derated && !f.dutyHolds hold &&
    (match c.tTrig, c.end_ with
     | some x, some e => let h := trigHold x; decide (h ≤ hold) && decide (h + ((hold - h) / 1000000000 + 1) * 1000000000 < e)
     | _, _ => false)

/-- The next block of a capture: its frames, and whether it is complete: a later frame of the window is held or will be after
a pause of R98, which ends the block, or no more frame of the window can come, so that LAST is known (R88, R90, R91). -/
def FastState.nextBlock (f : FastState) (c : Capture) (now : Nat) : Option (List FastFrame × Bool) :=
  let held := f.ring.filter fun x => c.wants x.hold
  match held with
  | [] => none
  | x :: _ =>
    let lim := (x.hold / 500000 + 1) * 500000
    let run := runFrom 1000 x.hold (held.takeWhile fun y => y.hold < lim)
    let stop := x.hold + run.length * 1000
    let past := match c.end_ with | some e => decide (e ≤ stop) || decide (e ≤ now) | none => false
    some (run, past || c.stop.isSome || f.pauses c stop || held.any fun y => stop ≤ y.hold)

/-! ### Streams (R93) -/

/-- The mean of consecutive frames (R93). -/
def meanFrame (fs : List FastFrame) (decim : Nat) : FastFrame :=
  let mask := fun (m : FastFrame → Nat) => fs.foldl (fun a f => a ||| m f) 0
  let code := fun (c : Nat) =>
    match fs.find? fun f => f.ovrng.testBit (c - 1) with
    | some f => f.codes.getD (c - 1) 0
    | none =>
      unsignedBits 16 (roundAway ((fs.foldl (fun a f => a + fastValue c (f.codes.getD (c - 1) 0)) 0 : Int) / (decim : Rat)))
  { hold := (fs.head?.map (·.hold)).getD 0, codes := (List.range 26).map fun i => code (i + 1), ovrng := mask (·.ovrng),
    dist := mask (·.dist), bal := mask (·.bal), inv := mask (·.inv), slice := fs.any (·.slice),
    derated := fs.any (·.derated), tq := fs.foldl (fun a f => max a f.tq) 0 }

/-- The stream block in progress leaves as a record. -/
def State.flushStream (s : State) (k : Nat) (last abort : Bool) : State :=
  s.onDie k fun d =>
    let f := d.fast
    if f.streamBlk.isEmpty then s
    else
      let r := blockRecord s.pos k 0x0302 f.streamId f.streamBlock f.streamBlk (s.fF 0x02 k 0 31 16) 0 none abort last false
        false d.prec.temp
      let s := s.modDie k fun d => { d with fast := { d.fast with streamBlk := [], streamBlock := (f.streamBlock + 1) % 65536 } }
      s.dieRecord k 0x0302 ((f.streamBlk.head?.map (·.hold)).getD 0) r

/-- A frame feeds the open streams of die k. -/
def State.feedStream (s : State) (k : Nat) (x : FastFrame) : State :=
  s.onDie k fun d =>
    let f := d.fast
    let decim := s.fF 0x02 k 0 31 16
    let step := decim * 1000
    if f.streams = [] ∨ s.fastMode k ≠ 2 ∨ x.hold < f.streamFrom ∨ decim = 0 then s
    else
      let joins := match f.streamAcc.getLast? with
        | some y => decide (y.hold + 1000 = x.hold)
        | none => false
      let acc := if x.hold % step = 0 then [x] else if joins then f.streamAcc ++ [x] else []
      if (x.hold + 1000) % step = 0 ∧ acc.length = decim then
        let m := meanFrame acc decim
        let follows := match f.streamBlk.getLast? with
          | some y => decide (y.hold + step = m.hold) && !(decide (y.hold < f.streamCut) && decide (f.streamCut ≤ m.hold))
          | none => true
        let s := if follows then s else s.flushStream k false false
        let s := s.modDie k fun d => { d with fast := { d.fast with streamAcc := [], streamBlk := d.fast.streamBlk ++ [m] } }
        if (m.hold + step) % (500 * step) = 0 then s.flushStream k false false else s
      else s.modDie k fun d => { d with fast := { d.fast with streamAcc := acc } }

/-- Hold of the first frame of a fast stream of die k that opens now: the first whole multiple of STREAM_DECIM µs (R93). -/
def State.streamStart (s : State) (k : Nat) : Nat :=
  let step := s.fF 0x02 k 0 31 16 * 1000
  (s.now + step - 1) / step * step

/-- A fast stream of die k opens (R93). Every open stream of a die takes the same blocks, under one CAPTURE_ID; a block
ends where a later stream begins. DESIGN CHOICE, log entry 51. -/
def State.openFastStream (s : State) (k id : Nat) : State :=
  s.modDie k fun d =>
    let f := { d.fast with streamCut := s.streamStart k }
    if f.streams = [] then
      { d with fast := { f with streams := [id], streamFrom := s.streamStart k, streamAcc := [], streamBlk := [],
                                streamBlock := 0, streamId := f.nextId, nextId := (f.nextId + 1) % 2 ^ 32 } }
    else { d with fast := { f with streams := f.streams.filter (· != id) ++ [id] } }

/-- The fast stream of die k that a subscription opened closes. -/
def State.closeFastStream (s : State) (k id : Nat) : State :=
  s.onDie k fun d =>
    let left := d.fast.streams.filter (· != id)
    let s := if !d.fast.streams.isEmpty && left.isEmpty then s.flushStream k true false else s
    s.modDie k fun d => { d with fast := { d.fast with streams := left, streamAcc := if left.isEmpty then [] else d.fast.streamAcc } }

/-- The open fast streams of die k close with their subscriptions: the part leaves RUN, or the die has lost both of its inner
links (R98). -/
def State.closeFastStreams (s : State) (k : Nat) : State :=
  s.onDie k fun d =>
    let s := { s with hif := { s.hif with subs := s.hif.subs.filter fun x => !(x.ident == s.part.ident && x.recType == 0x0302 && x.src == k) } }
    d.fast.streams.foldl (fun s id => s.closeFastStream k id) s

/-! ### The end of captures -/

/-- An armed PWM capture ends before any beacon has answered it (R81). -/
def State.unarm (s : State) (c : Capture) : State := if c.src = 1 ∧ c.tTrig.isNone then s.tellArmed c.a disarmedCode else s

/-- A capture in progress ends with ABORT (R98). A periodic arm carries on with the capture of its next period, unless
the arm itself ends (R493). DEDUCED, log entry 51. -/
def State.abortCapture (s : State) (k : Nat) (arm : Bool) : State :=
  s.onDie k fun d =>
    match d.fast.cap with
    | none => s
    | some c =>
      let e := { c with aborted := true, stop := some ((s.now + 999) / 1000 * 1000) }
      let s := s.modDie k fun d =>
        let r := d.fast.countTo e ((s.now + 999) / 1000 * 1000)
        let f := if arm then { r.1 with cap := none } else r.1.proceed c s.now
        { d with fast := f.retire { r.2 with cmd := none } }
      let s := (s.dieEvent k { source := 21, subkind := 2, arg16 := c.id % 65536 }).unarm c
      s.completeOpt c.cmd .captureAborted c.id

/-- The fast path of die k stops: its capture and its stream block end, the decimators restart when it
runs again (R98, R162). -/
def State.stopFast (s : State) (k : Nat) : State :=
  let s := (s.abortCapture k false).flushStream k true true
  (s.modDie k fun d =>
    { d with fast := { d.fast with streamAcc := [], startedAt := none, sliceHold := none },
             imp := d.imp.restart }).stopInjection k

/-- The FAST domain of die k switched off (R98, R404). -/
def State.fastOff (s : State) (k : Nat) : State :=
  s.onDie k fun d => if d.fastOn then (s.stopFast k).modDie k fun d => { d with fastOn := false } else s

/-- The FAST domain of die k switched on. -/
def State.fastUp (s : State) (k : Nat) : State :=
  s.onDie k fun d =>
    if d.fastOn then s
    else s.modDie k fun d => { d with fastOn := true, fast := { d.fast with startedAt := some s.now, prevOver := 0 } }

/-- Die k has lost both of its inner links (R17, R405). -/
def State.cutOff (s : State) (k : Nat) : Bool := !s.part.links.getD (k - 1) true && !s.part.links.getD k true

/-- The FAST domain of die k is on in RUN while MODE is not off or impedance has a current source (R162, R404), and
neither the loss of both links nor heat stops it (R405, R483). -/
def State.fastWanted (s : State) (k : Nat) (d : Die) : Bool :=
  s.inRun && d.precOn && !d.hot && !s.cutOff k && s.part.serving && !s.part.hubHeld &&
    (s.fastMode k != 0 || (s.impEn k && (s.isCurDie k || d.imp.curOk)))

/-- The FAST domain of die k brought to the state of R404. -/
def State.fastDomain (s : State) (k : Nat) : State :=
  s.onDie k fun d => if s.fastWanted k d then s.fastUp k else s.fastOff k

/-- The capture fields of die k change at a swap: a change of MODE ends the capture and the stream block, and a stream that
stays open goes on when MODE is stream again (R98); a change of STREAM_DECIM ends the stream block, and the next frame starts on the new grid (R90, R93). -/
def State.swapFast (s : State) (k : Nat) : State :=
  let old := s.fastMode k
  let new := bits (cellWord s.cfg.a 0x02 k 0) 7 6
  let same := bits (cellWord s.cfg.a 0x02 k 0) 31 16 == s.fF 0x02 k 0 31 16
  let s := if old != new then (s.abortCapture k true).flushStream k true true
    else if same then s
    else s.flushStream k false false
  let s := s.takeBlock 0x02 k
  if same && old == new then s
  else s.modDie k fun d => { d with fast := { d.fast with streamFrom := s.streamStart k, streamAcc := [] } }

/-! ### FAST_FRAME_HOLD -/

/-- Mask of the channels of one SAR. -/
def sarMask (sar : Nat) : Nat := maskOf ((List.range 26).filter fun i => sarOf (i + 1) == sar)

/-- Channels that an over-range conversion disturbs (R76). -/
def disturbed (ovrng prevOver : Nat) : Nat :=
  maskOf ((List.range 26).filter fun i =>
    let c := i + 1
    (List.range 26).any fun j =>
      let e := j + 1
      sarOf e == sarOf c &&
        ((ovrng.testBit j && slotOf e < slotOf c) || (prevOver.testBit j && slotOf c < slotOf e) ||
          (prevOver.testBit j && e == c && !ovrng.testBit i)))

/-- Channels that have carried current in the gate period that an instant lies in, those that conduct now included (R61). -/
def Die.gateFlowAt (d : Die) (period t : Nat) : List Bool :=
  let same := decide (t < d.prec.gateStart + period)
  d.prot.chans.zipIdx.map fun x => x.1.conducting || (same && d.prec.gateFlow.getD x.2 false)

/-- The frame of a hold (R68 to R76, R89, R92): the codes of the corrected inputs, and the masks. -/
def State.frameAt (s : State) (k : Nat) (d : Die) (v : List Rat) : FastFrame :=
  let f := d.fast
  let volts := fun (c : Nat) => (v.getD (c - 1) 0 - f.zero) / f.ref + f.offset.getD (c - 1) 0
  let codes := (List.range 26).map fun i => fastCode (i + 1) (volts (i + 1))
  let ovrng := maskOf ((List.range 26).filter fun i => fastOver (i + 1) (codes.getD i 0))
  let prev := if f.prevHold + 1000 = s.now then f.prevOver else 0
  let flow := d.gateFlowAt (s.gatePeriodNs k) s.now
  let bal := if s.fB 0x01 k 0 6 then 0 else maskOf ((List.range 24).filter fun i => affected flow (i + 1))
  let off := maskOf ((List.range 24).filter (fun i => !s.cellEn k (i + 1)) ++ (if s.fB 0x01 k 4 24 then [] else [24]) ++
    (if s.fB 0x01 k 4 25 then [] else [25]))
  let sl := match f.sliceHold with
    | some x => if x.2.1 ≤ s.now ∧ s.now ≤ x.2.2 then some x.1 else none
    | none => none
  { hold := s.now, codes := codes, ovrng := ovrng, dist := disturbed ovrng prev, bal := bal,
    inv := off ||| (match sl with | some sar => sarMask sar | none => 0), slice := sl.isSome, derated := f.derated, tq := d.tq }

/-- A frame goes into the ring, or is dropped when only protected frames are left (R84, R87); while the
governor derates, only the first 100 ms of each second from the trigger frame of a window are held (R98). DEDUCED, log entry 44. -/
def FastState.store (f : FastState) (x : FastFrame) : FastState :=
  let mine := f.captures.filter fun c => c.wants x.hold
  let keeps := !mine.isEmpty && f.dutyHolds x.hold
  let f := match f.cap with
    | none => f
    | some c =>
      if !c.wants x.hold then f
      else
        let r := f.countTo c x.hold
        { r.1 with cap := some { r.2 with counted := x.hold + 1000 } }
  let drop := { f with dropTotal := if mine.isEmpty then f.dropTotal else (f.dropTotal + 1) % 2 ^ 64 }
  if f.derated && !keeps then drop
  else if f.ring.length < 40280 then { f with ring := f.ring ++ [x] }
  else
    match f.ring with
    | [] => f
    | y :: ys => if f.captures.any (fun c => c.wants y.hold) then { f with dropTotal := (f.dropTotal + 1) % 2 ^ 64 }
      else { f with ring := ys ++ [x] }

/-- A capture whose last frame's hold has passed is closed: its arm completes, and a periodic arm goes on (R78, R97). -/
def State.closeCapture (s : State) (k : Nat) : State :=
  s.onDie k fun d =>
    match d.fast.cap with
    | none => s
    | some c =>
      match c.end_ with
      | some e =>
        if c.triggered ∧ e ≤ s.now + 1000 then
          let s := s.modDie k fun d =>
            let r := d.fast.countTo c e
            { d with fast := (r.1.proceed c s.now).retire { r.2 with cmd := none } }
          s.completeOpt c.cmd .success c.id
        else s
      | none => s

/-- FAST_FRAME_HOLD (R68): `v` holds the 26 held inputs in volts at the converters' factory gains and the balance monitor's 24
currents (R212), `zero` the internal-zero conversion in volts and `ref` the fast-reference conversion as a ratio to its factory
value (R71). -/
def execFastFrameHold (t k : Nat) (v : HoldInput) (zero ref : Rat) (s : State) : Outcome :=
  let s := (((s.at_ t).takePrec k).adoptImp k).fastDomain k
  let s := if (s.checking k) then s.settleChannels k else s
  .next (s.onDie k fun d =>
    if !s.fastRuns k d || t % 1000 ≠ 0 then s
    else
      let x := s.frameAt k d v.volts
      let s := if s.fB 0x07 k 0x014 4 then s else s.modDie k fun d => s.feedBalance k d v.bal
      let sec := t / 1000000000
      let volts := (List.range 26).map fun i => (fastValue (i + 1) (x.codes.getD i 0) : Rat) * fastLsb (i + 1)
      let s := s.modDie k fun d =>
        let f := d.fast
        let keep := !x.ovrng.testBit 25
        let f := { f with prevOver := x.ovrng, prevHold := t, zero := if keep then zero else f.zero,
                          ref := if keep && ref != 0 then ref else f.ref,
                          tracks := trackAdd sec (fun y => { y with fast := List.zipWith (· + ·) y.fast volts, fastN := y.fastN + 1,
                                                                    bad := y.bad ||| x.ovrng ||| x.dist ||| x.inv }) f.tracks }
        { d with fast := if s.fastMode k = 1 then f.store x else f }
      let s := if d.fast.derated && !d.fast.dutyHolds t then s else (s.feedImp k x).feedStream k x
      s.closeCapture k)

/-! ### Triggers -/

/-- CAPTURE_TIMER_TRIGGER (R78): T_TRIG of a timer capture is reached. -/
def execCaptureTimerTrigger (t k : Nat) (s : State) : Outcome :=
  let s := s.at_ t
  .next (s.onDie k fun d =>
    match d.fast.cap with
    | some c =>
      match c.tTrig with
      | some x => if c.src = 0 ∧ !c.triggered ∧ x ≤ t then s.triggerCapture k x else s
      | none => s
    | none => s)

/-- CARRIER_BEACON_RECEIVE (R81): every die of the part whose armed PWM capture holds A learns T_TRIG. -/
def execCarrierBeaconReceive (t a te : Nat) (s : State) : Outcome :=
  let s := s.at_ t
  let s := { s with link := { s.link with inbox := s.link.inbox.eraseP fun x =>
    x.2.tc == 0 && x.2.kind == 2 && x.2.payload == le 8 a ++ le 8 te } }
  .next (s.islands.foldl
    (fun s k =>
      s.onDie k fun d =>
        match d.fast.cap with
        | some c => if c.src = 1 ∧ c.a = a ∧ c.tTrig.isNone then s.triggerCapture k (te + c.delay * 10) else s
        | none => s) s)

/-- CAPTURE_EDGE_TIMEOUT (R82): a PWM capture with no answering beacon closes without data. -/
def execCaptureEdgeTimeout (t k : Nat) (s : State) : Outcome :=
  let s := s.at_ t
  .next (s.onDie k fun d =>
    match d.fast.cap with
    | some c =>
      if c.src = 1 ∧ c.tTrig.isNone ∧ c.a + c.timeoutMs * 1000000 ≤ t then
        let s := s.modDie k fun d => { d with fast := { d.fast with cap := none } }
        let s := (s.dieEvent k { source := 21, subkind := 1, arg16 := c.id % 65536 }).unarm c
        s.completeOpt c.cmd .noEdge c.id
      else s
    | none => s)

/-- Whether a capture's next block may be delivered: it is complete, and the capture has triggered or its path runs, so that
a trigger still to be missed forms no block (R88, R493). -/
def Die.drains (d : Die) (now : Nat) (c : Capture) : Bool :=
  (c.triggered || c.aborted || (d.fastCan && d.fast.startedAt.isSome)) &&
    (match d.fast.nextBlock c now with | some b => b.2 | none => false)

/-- CAPTURE_BLOCK_DRAIN (R86, R88 to R91): the next complete block of the oldest capture that has one is delivered to the hub,
after the die's own records, events and notices, and Locus places it. -/
def execCaptureBlockDrain (t k : Nat) (s : State) : Outcome :=
  let s := s.at_ t
  .next (s.onDie k fun d =>
    if !s.inRun || !s.hubTakes k || !d.precOn || !d.t0.isEmpty || !d.t0Events.isEmpty || !d.prot.notices.isEmpty then s
    else
      match d.fast.captures.find? (d.drains t) with
      | none => s
      | some c =>
        match d.fast.nextBlock c t with
        | none => s
        | some b =>
          let h0 := (b.1.head?.map (·.hold)).getD 0
          let stop := h0 + b.1.length * 1000
          let done := c.delivered + b.1.length
          let e := { c with next := stop, delivered := done, block := (c.block + 1) % 65536 }
          let open_ := (match d.fast.cap with | some x => x.id == c.id | none => false)
          let past := match c.end_ with | some x => decide (x ≤ stop) || decide (x ≤ t) | none => false
          let last := (c.aborted || past || !open_) && !d.fast.ring.any fun x => e.wants x.hold
          let r := blockRecord s.pos k 0x0301 c.id c.block b.1 1 ((stop - c.first) / 1000 - done) c.tTrig (c.aborted && last)
            last c.deratedAtArm (decide ((if c.delivered = 0 then c.first else c.next) < h0)) d.prec.temp
          let s := s.modDie k fun d =>
            let f := d.fast
            { d with fast :=
                if open_ then { f with cap := some e }
                else if last then { f with drain := f.drain.filter fun x => x.id != c.id }
                else { f with drain := f.drain.map fun x => if x.id = c.id then e else x } }
          s.place 0x0301 k h0 r)

/-! ### SYNC_IN (R80, R81, R96) -/

/-- No accepted edge has answered an arm instant yet: the last one lies before it (R81). -/
def SyncState.unanswered (y : SyncState) (a : Nat) : Bool :=
  match y.lastEdge with
  | none => true
  | some e => decide (e / 10 * 10 < a)

/-- SYNC_IN_EDGE (R80): the hub of a gateway, while it serves, sees a change of the pad's level; `stableNs` is how long the new level has stayed. The qualified level is
followed whether or not SYNC_EN is set. An accepted edge is stamped, and every arm instant for which it is the first
accepted edge at or after it is answered by one broadcast beacon (R81). -/
def execSyncInEdge (t : Nat) (rising : Bool) (stableNs : Nat) (s : State) : Outcome :=
  let s := s.at_ t
  let y := s.sync
  .next (
    if !s.isGateway || !s.part.serving || s.part.hubHeld || stableNs < 40 || y.level == some rising then s
    else
      let wanted := rising != s.fB 0x02 0 0 1
      let short := y.level.isSome && decide (t < y.since + 100)
      let soon := match y.lastEdge with
        | some e => decide (t < e + 10000)
        | none => false
      let y1 := { y with level := some rising, since := t }
      if !wanted || !s.fB 0x02 0 0 0 then { s with sync := y1 }
      else if short || soon then { s with sync := { y1 with rejected := satInc 16 y.rejected } }
      else
        let te := t / 10 * 10
        let period := match y.lastEdge with
          | some e => sat 16 (te / 10 - e / 10)
          | none => y.period
        let own := s.dies.filterMap fun d => d.fast.cap.bind fun c => if c.src = 1 ∧ c.tTrig.isNone then some c.a else none
        let due := ((y.armed ++ own).eraseDups).filter fun a => a ≤ te && y.unanswered a
        let s := { s with sync := { y1 with lastEdge := some t, period := period, armed := y.armed.filter fun a => te < a } }
        due.foldl
          (fun s a =>
            let s := s.originate 0 2 63 (le 8 a ++ le 8 te)
            s.islands.foldl
              (fun s k =>
                s.onDie k fun d =>
                  match d.fast.cap with
                  | some c => if c.src = 1 ∧ c.a = a ∧ c.tTrig.isNone then s.triggerCapture k (te + c.delay * 10) else s
                  | none => s) s) s)

end Sys2Proof.Machine
end

