-- ==== Sys2Proof/Machine/Estimator.lean ====
section
/-! DEFINITION. State of charge, health and capacity (R167 to R198) and the meter's counting (R440 to R442):
charge blocks, profiles, rest points, learning, the state record. -/

namespace Sys2Proof.Machine

/-! ### Fields in force (R196) -/

/-- STATE_EN of die k. -/
def State.stateEn (s : State) (k : Nat) : Bool := s.fB 0x06 k 0 0
/-- PROFILE_SLOT of die k. -/
def State.profSlot (s : State) (k : Nat) : Nat := s.fF 0x06 k 0 9 8
/-- SOC_POS, SOC_ISLAND and SOC_SHUNT of die k. -/
def State.socSrc (s : State) (k : Nat) : Nat × Nat × Nat :=
  let r := s.regF 0x06 k 0
  (bits r 23 16, bits r 15 12, bits r 11 10)

/-! ### Chemistry profiles (R173, R175) -/

/-- Address of an offset in a profile slot (R173). -/
def profAddr (slot off : Nat) : Nat := cfgAddr 0x16 0 (slot * 0x6200 + off)
/-- `n` bytes of the profile slot that die k names, in force. -/
def State.prof (s : State) (k off n : Nat) : Nat := ofLe (cellRead s.cfg.f (profAddr (s.profSlot k) off) n)
/-- Q_NOM, Ah. -/
def State.qNom (s : State) (k : Nat) : Rat := fdiv (s.prof k 16 4 : Rat) 1000
/-- Q_INIT in Ah, Q_NOM when 0 (R177). -/
def State.qInit (s : State) (k : Nat) : Rat :=
  let q := s.regF 0x06 k 0x018
  if q = 0 then s.qNom k else fdiv (q : Rat) 1000
/-- Q_RATED in Ah, Q_NOM when 0 (R196). -/
def State.qRated (s : State) (k : Nat) : Rat :=
  let q := s.regF 0x06 k 0x01C
  if q = 0 then s.qNom k else fdiv (q : Rat) 1000
/-- HYS_USED. -/
def State.hysUsed (s : State) (k : Nat) : Bool := bit (s.prof k 7 1) 0
/-- SOC_AX as fractions. -/
def State.socAx (s : State) (k : Nat) : List Rat :=
  (List.range (s.prof k 14 1)).map fun i => fdiv (s.prof k (32 + 2 * i) 2 : Rat) 10000
/-- T_AX in °C. -/
def State.tAx (s : State) (k : Nat) : List Rat :=
  (List.range (s.prof k 12 1)).map fun i => fdiv (signed 16 (s.prof k (160 + 2 * i) 2) : Rat) 100
/-- RATE_AX in C. -/
def State.rateAx (s : State) (k : Nat) : List Rat :=
  (List.range (s.prof k 13 1)).map fun i => fdiv (signed 32 (s.prof k (192 + 4 * i) 4) : Rat) 1000

/-- The segment of an axis that holds an argument: its index and whether the argument lies outside; an
argument outside the axis takes the end value (R175). -/
def locate (ax : List Rat) (x : Rat) : Nat × Rat × Bool :=
  let n := ax.length
  let last := ax.getD (n - 1) 0
  if x < ax.getD 0 0 then (0, ax.getD 0 0, true)
  else if last ≤ x then (n - 2, last, decide (last < x))
  else
    let i := (ax.filter fun a => decide (a ≤ x)).length - 1
    (i, x, false)

/-- Linear interpolation along an axis in binary64 (R175). -/
def interp (ax : List Rat) (f : Nat → Rat) (x : Rat) : Rat :=
  if ax.length ≤ 1 then f 0
  else
    let l := locate ax x
    let x0 := ax.getD l.1 0
    let x1 := ax.getD (l.1 + 1) 0
    fadd (f l.1) (fdiv (fmul (fsub (f (l.1 + 1)) (f l.1)) (fsub l.2.1 x0)) (fsub x1 x0))

/-- TCLAMP: the temperature lies outside T_AX (R175). -/
def State.tClamp (s : State) (k : Nat) (temp : Rat) : Bool := (locate (s.tAx k) temp).2.2

/-- Rest voltage of the profile at charge point i, temperature and hysteresis state, V (R175). -/
def State.ocvAt (s : State) (k : Nat) (temp h : Rat) (i : Nat) : Rat :=
  let tab := fun (base : Nat) => interp (s.tAx k) (fun t => (s.prof k (base + 4 * (64 * t + i)) 4 : Rat)) temp
  let uv := fdiv (fadd (fmul (fadd 1 h) (tab 4352)) (fmul (fsub 1 h) (tab 256))) 2
  fmul uv (f64 (1 / 1000000))

/-- ocv_inverse of R175: charge fraction and slope in volts per unit charge. -/
def State.ocvInverse (s : State) (k : Nat) (v temp h : Rat) : Rat × Rat :=
  let ax := s.socAx k
  let n := ax.length
  let col := fun i => s.ocvAt k temp h i
  let slope := fun i => fdiv (fsub (col (i + 1)) (col i)) (fsub (ax.getD (i + 1) 0) (ax.getD i 0))
  if v < col 0 then (0, slope 0)
  else if col (n - 1) ≤ v then (1, slope (n - 2))
  else
    match (List.range (n - 1)).find? fun i => decide (col i ≤ v) && decide (v < col (i + 1)) with
    | some i => (fadd (ax.getD i 0) (fdiv (fmul (fsub v (col i)) (fsub (ax.getD (i + 1) 0) (ax.getD i 0))) (fsub (col (i + 1)) (col i))), slope i)
    | none => (1, slope (n - 2))

/-- R_DC in ohms at a temperature, a rate in C and a charge fraction (R175). -/
def State.rDc (s : State) (k : Nat) (temp rate soc : Rat) : Rat :=
  let u := interp (s.socAx k)
    (fun i => interp (s.rateAx k)
      (fun r => interp (s.tAx k) (fun t => (s.prof k (8448 + 2 * (512 * t + 64 * r + i)) 2 : Rat)) temp) rate) soc
  fmul u (f64 (1 / 1000000))

/-- The hysteresis rate at a temperature (R176). -/
def State.hysK (s : State) (k : Nat) (temp : Rat) : Rat :=
  fmul (interp (s.tAx k) (fun t => (s.prof k (224 + 2 * t) 2 : Rat)) temp) (f64 (1 / 100))

/-! ### Learned state (R177, R187, R192) -/

/-- A cell with no learned state (R177). -/
def CellSt.unlearned (q : Rat) : CellSt :=
  { s := none, u := 1, h := 0, q := q, rho := 1, c := 0, unanchored := true, v := none, vRest := none, vAt := 0,
    vHist := [], p1 := none, pairOk := false, temp := 25, tsub := false, tclamp := false, diverge := false, weak := false,
    strong := false, vComp := none, iN := 0, inv := true, debt := 0 }

/-- The net charge that the meter has committed, mAs: CHARGE_IN less CHARGE_OUT of the newest slot (R187). -/
def State.meterCharge (s : State) : Rat :=
  match s.trust.meterSlots with
  | x :: _ => x.counters.getD 0 0 - x.counters.getD 1 0
  | [] => 0

/-- Die k keeps a learned state or the debts of R217, which are held with it. -/
def State.keepsState (s : State) (k : Nat) : Bool :=
  s.stateEn k || (s.fB 0x07 k 0x014 16 && (s.fF 0x07 k 0x014 3 2 == 1 || s.fF 0x07 k 0x014 3 2 == 3))

/-- The learned state of a group written to the older of its two slots, newest kept first (R187). No write
starts after a power-fail warning. While the estimator does not run, the counters stay as they were written last, with their
charge count, beside the present wire resistances (R66). -/
def State.persist (s : State) (k : Nat) : State :=
  if s.warned then s
  else
    let q := s.meterCharge
    let keeps := s.keepsState k
    s.modDie k fun d =>
      let e := d.est
      let old := if keeps then none else e.slots.find? (·.ok)
      let slot : StateSlot :=
        { seq := ((e.slots.head?.map (·.seq)).getD 0 + 1) % 2 ^ 32, cells := (old.map (·.cells)).getD e.cells, identity := e.identity,
          pattern := e.pattern, charge := (old.map (·.charge)).getD q, wires := d.prec.wires, rests := d.cal.rests, at_ := s.now, ok := true }
      { d with est := { e with slots := (slot :: e.slots.filter (·.ok)).take 2 } }

/-- The group of die k starts without learned state: every cell as in R177, no rest points, no valid wire
resistance (R192). -/
def State.resetGroup (s : State) (k : Nat) : State :=
  let q := s.qInit k
  s.modDie k fun d =>
    { d with est := { d.est with cells := List.replicate 24 (CellSt.unlearned q), restAt := none, lastRest := none, quietAt := none },
             cal := { d.cal with rests := [] },
             prec := { d.prec with wires := List.replicate 25 { updates := [], count := 0, valid := false } } }

/-- A rational in a signed field of 8 bytes, in units of one billionth. -/
def nanoField (q : Rat) : List Byte := leInt 8 (clampInt (-9223372036854775808) 9223372036854775807 (roundAway (q * 1000000000)))

/-- A learning point in a D0 record of R185 or R192: sv, uv, v(n), T(n), c(n) and its pack time. -/
def LearnPt.bytes (p : LearnPt) : List Byte :=
  nanoField p.sv ++ nanoField p.uv ++ nanoField p.v ++ nanoField p.temp ++ nanoField p.c ++ le 8 p.t

/-- The learned state of a die's group (R187): identity and pattern, every cell with its rest point, the wire
resistances. No rule lays the record out: DESIGN CHOICE, log entry 55. -/
def Die.learnedBytes (d : Die) : List Byte :=
  le 1 (b2n d.est.identity.isSome) ++ le 8 (d.est.identity.getD 0) ++ le 1 d.est.pattern ++
    (d.est.cells.flatMap fun c =>
      le 1 (fld 0 1 (b2n c.s.isSome) + fld 1 1 (b2n c.p1.isSome) + fld 2 1 (b2n c.unanchored)) ++ nanoField (c.s.getD 0) ++
        nanoField c.u ++ nanoField c.h ++ nanoField c.q ++ nanoField c.rho ++ nanoField c.c ++
        (match c.p1 with | some p => p.bytes | none => [])) ++
    d.prec.wires.flatMap fun w => le 1 (b2n w.valid) ++ nanoField w.mean

/-- The D0 record of a group that is reset (R192, R193): island, the old learned state, the new identity and pattern. -/
def State.learnedRecord (s : State) (k : Nat) (identity : Option Nat) (pattern : Nat) : List Byte :=
  le 1 k ++ (match s.die? k with | some d => d.learnedBytes | none => []) ++ le 1 (b2n identity.isSome) ++ le 8 (identity.getD 0) ++
    le 1 pattern

/-- A swap of the group's cell block (R192). -/
def State.swapGroup (s : State) (k : Nat) (identity : Option Nat) (pattern : Nat) : State :=
  let body := match s.die? k with
    | none => []
    | some d => le 1 k ++ le 8 (d.est.identity.getD 0) ++ le 8 (identity.getD 0) ++
        d.est.cells.flatMap fun c => le 2 (clampInt 0 0xFFFF (roundAway (c.q * 10))).toNat
  let s := s.dieEventFull k { source := 29, subkind := 1 } s.now (s.learnedRecord k identity pattern)
  let s := s.blackBox 0x07 true body
  let s := { s with trust := { s.trust with history := { s.trust.history with swaps := s.trust.history.swaps + 1 } } }
  let s := (s.resetGroup k).modDie k fun d =>
    { d with est := { d.est with identity := identity, pattern := pattern, patternGone := false, swapRun := 0,
                                 swapCount := satInc 8 d.est.swapCount } }
  s.persist k

/-- The swapped state fields and profiles taken at their charge-block boundary (R193, R196). -/
def State.adoptEst (s : State) : State :=
  let due := s.islands.filter fun k =>
    match (s.die? k).bind fun d => d.est.swapAt with
    | some b => decide (b ≤ s.now)
    | none => false
  if due.isEmpty then s
  else
    let image := fun (s : State) (k : Nat) => (s.profSlot k, cellRead s.cfg.f (profAddr (s.profSlot k) 0) 24836)
    let old := due.map fun k => (k, image s k)
    let s := (due.foldl (fun s k => s.takeBlock 0x06 k) s).takeBlock 0x16 0
    old.foldl
      (fun s x =>
        let k := x.1
        let new := image s k
        let q := s.qInit k
        let s := s.modDie k fun d =>
          { d with est := { d.est with swapAt := none, cells := d.est.cells.map fun (c : CellSt) => if c.s.isNone then { c with q := q } else c } }
        if new == x.2 then s
        else
          let cell := fun (c : CellSt) => { c with pairOk := c.pairOk && new.1 == x.2.1 }
          let other := rd new.2 6 1 != rd x.2.2 6 1
          let e := ((s.die? k).map fun d => (d.est.identity, d.est.pattern)).getD (none, 0)
          let s := s.dieEventFull k { source := 29, subkind := 3 } s.now (if other then s.learnedRecord k e.1 e.2 else [])
          let s := s.modDie k fun d => { d with est := { d.est with cells := d.est.cells.map cell } }
          (if other then s.resetGroup k else s).persist k) s

/-! ### The meter (R440 to R442) -/

/-- Q_REF in force, mAh (R441). -/
def State.qRef (s : State) : Nat :=
  if s.trust.life = 1 then rd s.trust.sealed_ 4 4 else s.prof 1 16 4

/-- A counter kept to one millionth of its unit. -/
def keepMicro (q : Rat) : Rat := ((q * 1000000).floor : Rat) / 1000000

/-- The source that the meter counts, when island C1 names one and the part is not RETURNED (R441). -/
def State.meterSrc (s : State) : Option (Nat × Nat × Nat) :=
  let r := s.socSrc 1
  if r.1 = 0xFF ∨ r.2.1 = 0 ∨ r.2.2 = 0 ∨ s.trust.life = 3 then none else some r

/-- One die's mean stack voltage over the interval of T0 (R441): the mean, and whether the last one stands in. -/
def Die.stackMean (d : Die) (t0 : Nat) : Rat × Bool :=
  match d.prec.shunts.find? fun x => x.t0 == t0 with
  | some x => if x.stackN = 0 then (d.est.vStack.getD 0, true) else (x.stackSum / (x.stackN : Rat), false)
  | none => (d.est.vStack.getD 0, true)

/-- A charge block counted by the meter (R440, R441): ΔQ in ampere-seconds. -/
def State.meterBlock (s : State) (t0 : Nat) (dq : Rat) : State :=
  let dies := s.islands.filter fun k => !(s.cellsOn k).isEmpty
  let means := dies.map fun k => (k, ((s.die? k).map fun d => d.stackMean t0).getD (0, true))
  let v := means.foldl (fun a x => a + x.2.1) 0
  let subst := (means.filter fun x => x.2.2).length
  let q := rabs dq * 1000
  let e := rabs (v * dq) * 10 / 36
  let m := s.trust.meter
  let qr := s.qRef
  let efc := if dq < 0 then (if qr = 0 then Config.divByZero q else q / (36 / 10 * (qr : Rat))) else 0
  let add := if 0 < dq then [q, 0, e, 0, 0] else if dq < 0 then [0, q, 0, e, efc] else [0, 0, 0, 0, 0]
  let s := means.foldl
    (fun s x => if x.2.2 then s else s.modDie x.1 fun d => { d with est := { d.est with vStack := some x.2.1 } }) s
  { s with trust := { s.trust with meter := List.zipWith (fun a b => keepMicro (a + b)) m add,
                                   vSubst := s.trust.vSubst + (if subst = 0 then 0 else 1), tLast := t0 + 100000000,
                                   meterSeen := t0 + 100000000, meterDirty := true } }

/-! ### The charge counter (R172, R176, R178, R186, R217) -/

/-- Sign of a value. -/
def signRat (q : Rat) : Rat := if q < 0 then -1 else if 0 < q then 1 else 0

/-- One cell after a block: dq and the charges that left it otherwise in ampere-hours, and `extra` for a
block that was missing (R172, R176). -/
def State.countCell (s : State) (k : Nat) (dq qBal qHub extra : Rat) (c : CellSt) : CellSt :=
  let r := s.regF 0x06 k 0x00C
  let dn := fsub (fsub dq qBal) qHub
  let grow := fadd (fmul (fmul (bits r 15 8 : Rat) (f64 (1 / 100000))) (rabs dq))
    (fdiv (fmul (fmul (bits r 7 0 : Rat) (f64 (1 / 1000))) (f64 (1 / 10))) 3600)
  let h :=
    if s.hysUsed k && dn != 0 then
      let kk := s.hysK k c.temp
      clampRat (-1) 1 (fadd c.h (fmul (fdiv (fmul kk (rabs dn)) c.q) (fsub (signRat dn) c.h)))
    else c.h
  { c with s := c.s.map fun x => fadd x (fdiv dn c.q), c := fadd c.c dn,
           u := fadd c.u (fdiv (fadd grow extra) c.q), h := h, iN := fmul dn 36000 }

/-- Learning of the resistance factor at a step of current (R186). -/
def State.learnRho (s : State) (k : Nat) (d : Die) (t0 : Nat) (i0 i1 : Rat) : List CellSt :=
  let before := d.prec.blks.find? fun x => x.idx + 1 == t0 / 100000000
  let after := d.prec.blks.find? fun x => x.idx == t0 / 100000000
  match before, after with
  | some a, some b =>
    if rabs (fsub i1 i0) < fdiv (s.qNom k) 4 then d.est.cells
    else
      d.est.cells.zipIdx.map fun x =>
        let n := x.2 + 1
        let c := x.1
        let same := ([n - 1, n, n + 1].filter fun m => 1 ≤ m && m ≤ 24).all fun m =>
          let on := a.allOn.testBit (m - 1) && b.allOn.testBit (m - 1)
          let off := !a.anyOn.testBit (m - 1) && !b.anyOn.testBit (m - 1)
          on || off
        match a.volts false n 1, b.volts false n 1, c.s with
        | some va, some vb, some soc =>
          if same && s.cellEn k n then
            let meas := fdiv (fdiv (fsub vb va) (fsub i1 i0)) (s.rDc k c.temp (fdiv i1 (s.qNom k)) soc)
            { c with rho := clampRat (1 / 2) 4 (fadd c.rho (fdiv (fsub meas c.rho) 64)) }
          else c
        | _, _, _ => c
  | _, _ => d.est.cells

/-- The rest period after a block with current I in amperes (R178): it begins when |I| has stayed at or below
REST_I for 10 s. -/
def State.restStep (s : State) (k : Nat) (e : EstState) (i : Rat) (tEnd : Nat) : EstState :=
  if fdiv (s.fF 0x06 k 0x00C 31 16 : Rat) 1000 < rabs i then { e with quietAt := none, restAt := none, lastRest := none }
  else
    let q := e.quietAt.getD (tEnd - 100000000)
    { e with quietAt := some q, restAt := if e.restAt.isSome then e.restAt else if q + 10000000000 ≤ tEnd then some tEnd else none }

/-- A block counted by die k: `dqAs` in ampere-seconds; `missing` when the last one stands in (R172). -/
def State.countBlock (s : State) (k t0 : Nat) (dqAs qHub : Rat) (missing : Bool) : State :=
  s.onDie k fun d =>
    let dq := fdiv dqAs 3600
    let i := fmul dqAs 10
    let e := d.est
    let cells := if missing || e.missRun != 0 || e.countLost || e.lastT0 != t0 then e.cells else
      match e.lastI with
      | some i0 => s.learnRho k d t0 i0 i
      | none => e.cells
    let cells := cells.zipIdx.map fun x =>
      if s.cellEn k (x.2 + 1) then
        s.countCell k dq (f64 ((d.prot.chan (x.2 + 1)).qBalIn (t0 / 100000000))) (if k = 1 then qHub else 0) (if missing then rabs dq else 0) x.1
      else x.1
    let e := { e with cells := cells, lastI := some i, lastDq := dqAs, lastT0 := t0 + 100000000 }
    let back := e.countLost && !missing
    let run := if missing then e.missRun + 1 else 0
    let e := if missing then { e with missRun := run } else { s.restStep k e i (t0 + 100000000) with missRun := 0, countLost := false }
    let s := s.modDie k fun d => { d with est := e }
    if back then s.dieEvent k { source := 24, subkind := 2 } else s

/-- Ten missing blocks in a row stop the counting (R172, R178, R184). -/
def State.loseCount (s : State) (k : Nat) : State :=
  (s.modDie k fun d =>
    { d with est := { d.est with countLost := true, quietAt := none, restAt := none, lastRest := none,
                                 cells := d.est.cells.map fun c => { c with pairOk := false } } }).dieEvent k { source := 24, subkind := 1 }

/-- Charge drawn by the hub from the supply group in the interval of T0, Ah: the power block's own measurement, a free
value, in MODULE role on VIN_HV, and 0 otherwise; each interval passes it on once, and the first one after SLEEP or SHIP
what the AON domain has gathered (R176, R396). DESIGN CHOICE, log entry 6. -/
def State.hubDraw (s : State) (t0 : Nat) : Rat × State :=
  if t0 + 100000000 ≤ s.power.hubT then (0, s)
  else
    let s := { s with power := { s.power with hubT := t0 + 100000000 } }
    if s.isModule && s.power.vinOk && s.power.src = 1 then
      let r := s.drawRat
      (f64 (r.1 + r.2.power.hubCharge), { r.2 with power := { r.2.power with hubCharge := 0 } })
    else (0, s)

/-- Debts after a block (R217). -/
def State.accrueDebt (s : State) (qHub : Rat) : State :=
  let s := s.modDie 1 fun d => { d with prot := { d.prot with hubQ := d.prot.hubQ + qHub } }
  if !s.isModule || s.part.cellDies ≤ 1 then s
  else
    s.modDies fun k d =>
      let mode := s.fF 0x07 k 0x014 3 2
      if mode = 2 then { d with est := { d.est with cells := d.est.cells.map fun c => { c with debt := 0 } } }
      else if k ≠ 1 ∧ s.fB 0x07 k 0x014 16 ∧ (mode = 1 ∨ mode = 3) then
        { d with est := { d.est with cells := d.est.cells.map fun c => { c with debt := fadd c.debt qHub } } }
      else d

/-- A charge block with good CHECK taken by the part (R170 to R176, R441). -/
def State.takeChargeBlock (s : State) (b : List Byte) : State :=
  let s := s.adoptEst
  let src := (rd b 2 1, rd b 3 1, rd b 4 1)
  let t0 := rd b 8 8
  let r := rd b 24 4
  let dqAs := fmul (fdiv (fmul 10 (f64 (rdInt b 16 8 : Rat))) (r : Rat)) (f64 (1 / 1000000))
  let mine := s.islands.filter fun k =>
    s.stateEn k && s.socSrc k == src &&
      (match s.die? k with | some d => decide (d.est.lastT0 < t0 + 100000000) | none => false)
  let s := if s.meterSrc == some src && decide (s.trust.meterSeen < t0 + 100000000) then s.meterBlock t0 dqAs else s
  if !s.islands.any fun k => s.socSrc k == src then s
  else
    let h := s.hubDraw t0
    (mine.foldl (fun s k => s.countBlock k t0 dqAs h.1 false) h.2).accrueDebt h.1

/-- The charge block that die k's hub sends for its shunt input (R171). -/
def State.chargeBlock (s : State) (k sh : Nat) (d : Die) (x : ShuntAcc) : List Byte :=
  let i := sh - 1
  withCrc32c (le 2 0x0702 ++ le 1 s.pos ++ le 1 k ++ le 1 sh ++
    le 1 (fld 7 1 (b2n (x.ovr.getD i false)) + fld 6 1 (b2n (x.stale.getD i false)) + fld 4 2 d.tq) ++
    le 2 (x.subst.getD i 0) ++ le 8 x.t0 ++ leInt 8 (x.sum.getD i 0) ++ le 4 (roundAway (d.prec.rshAt (x.t0 + 100000000) i (s.shuntRes k sh))).toNat ++ zeros 4)

/-- The charge block of die k's shunt `sh` for the last interval whose words are all formed is broadcast; the part's own dies
take it too. -/
def State.sendChargeBlock (s : State) (k sh : Nat) : State :=
  s.onDie k fun d =>
    let gd := groupDelay (s.rateOf k) (s.filtOf k)
    let t0 := ((s.now - gd) / 100000000 - 1) * 100000000
    if !s.inRunDoze || !s.hubTakes k || !s.link.position.isSome || s.now < gd + 100000000 then s
    else
      match d.prec.shunts.find? fun x => x.t0 == t0 with
      | none => s
      | some x => (s.originate 2 0x22 63 (s.chargeBlock k sh d x)).takeChargeBlock (s.chargeBlock k sh d x)

/-- CHARGE_BLOCK_SEND (R170, R171): the hub sends the block of each shunt of its own dies that a state block of the part
names. DEDUCED, log entry 55. -/
def execChargeBlockSend (t : Nat) (s : State) : Outcome :=
  let s := (s.at_ t).adoptEst
  let named := ((s.islands.map s.socSrc).filter fun r => r.1 == s.pos && s.islands.contains r.2.1 && (r.2.2 == 1 || r.2.2 == 2)).eraseDups
  .next (named.foldl (fun s r => s.sendChargeBlock r.2.1 r.2.2) s)

/-- CHARGE_BLOCK_RECEIVE (R176): a charge block reaches the part as a broadcast frame; one whose CHECK fails
counts as missing later. -/
def execChargeBlockReceive (t : Nat) (bytes : List Byte) (s : State) : Outcome :=
  let f := frameOf bytes
  let r := (s.at_ t).accept f
  .next (
    if r.1 = .deliver ∧ f.payload.length = 36 ∧ crc32cOk f.payload ∧ rd f.payload 0 2 = 0x0702 then
      r.2.takeChargeBlock f.payload
    else r.2)

/-- The meter counts the interval of T0 as a gap, in RUN and DOZE (R442). -/
def State.meterGap (s : State) (t0 : Nat) : State :=
  if s.meterSrc.isSome && s.inRunDoze && decide (s.trust.meterSeen < t0 + 100000000) then
    { s with trust := { s.trust with gap := s.trust.gap + 1, meterSeen := t0 + 100000000, meterDirty := true } }
  else s

/-- Die k counts the charge block of T0 as missing: the last one stands in, ten in a row stop the counting (R172). -/
def State.missChargeBlock (s : State) (t0 k : Nat) (qHub : Rat) : State :=
  s.onDie k fun d =>
    if !s.stateEn k || t0 + 100000000 ≤ d.est.lastT0 || (s.socSrc k).1 == 0xFF then s
    else if d.est.countLost then s.modDie k fun d => { d with est := { d.est with lastT0 := t0 + 100000000 } }
    else
      let s := s.countBlock k t0 d.est.lastDq qHub true
      if 10 ≤ d.est.missRun + 1 then s.loseCount k else s

/-- CHARGE_BLOCK_MISSING (R172, R442): the block of T0 has not come 50 ms after its interval. -/
def execChargeBlockMissing (t t0 : Nat) (s : State) : Outcome :=
  let s := (s.at_ t).adoptEst
  .next (
    if t < t0 + 150000000 then s
    else
      let s := s.meterGap t0
      if s.islands.all fun k => (s.socSrc k).1 == 0xFF then s
      else
        let h := s.hubDraw t0
        (s.islands.foldl (fun s k => s.missChargeBlock t0 k h.1) h.2).accrueDebt h.1)

/-! ### STATE_SECOND (R168, R169, R177 to R183, R194, R195) -/

/-- Temperature of cell n in °C and TSUB (R169). -/
def State.cellTemp (s : State) (k n : Nat) (d : Die) : Rat × Bool :=
  let j := s.fF 0x05 k (0x014 + 4 * ((n - 1) / 8)) (4 * ((n - 1) % 8) + 3) (4 * ((n - 1) % 8))
  let sub := (fdiv (d.prec.temp : Rat) 100, true)
  if j = 0 then sub
  else
    match s.freshTherm k j with
    | some x => (x, false)
    | none => sub

/-- OCV_ERR and the extra error of a CALSTALE word, µV (R59, R179): the word's own bit and the modulator that forms it
count, a spare while it holds the cell. -/
def State.ocvErr (s : State) (k n : Nat) (d : Die) : Nat :=
  let base := s.fF 0x06 k 0x020 31 16
  let m := if d.prec.held.getD 0 0 = n then 25 else if d.prec.held.getD 1 0 = n then 26 else n
  if wStale (d.prec.lastWords.getD (n - 1) disabledWord) then
    let from_ := (d.cal.acceptAt.getD (m - 1) none).getD (d.cal.served.getD 0)
    let month := 30 * 86400 * 1000000000
    base + min 1000 (10 * ((s.now - from_ + month - 1) / month))
  else base

/-- v_comp, the loaded-voltage estimate, its uncertainty and the slope used (R180). -/
def State.loaded (s : State) (k : Nat) (c : CellSt) (v : Rat) : Rat × Rat × Rat :=
  let r := s.rDc k c.temp (fdiv c.iN (s.qNom k)) (c.s.getD 0)
  let vc := fsub v (fmul (fmul c.iN c.rho) r)
  let inv := s.ocvInverse k vc c.temp c.h
  let g := if inv.2 < f64 (1 / 10000) then f64 (1 / 10000) else inv.2
  let err := fmul (s.fF 0x06 k 0x020 31 16 : Rat) (f64 (1 / 1000000))
  (vc, inv.1, fdiv (fadd err (fmul (fmul (fmul (f64 (1 / 5)) (rabs c.iN)) c.rho) r)) g)

/-- s0 and s1 of R181. -/
def State.ends (s : State) (k : Nat) (c : CellSt) : Rat × Rat :=
  let lim := s.regF 0x06 k 4
  ((s.ocvInverse k (fmul (bits lim 15 0 : Rat) (f64 (1 / 10000))) c.temp (-1)).1,
    (s.ocvInverse k (fmul (bits lim 31 16 : Rat) (f64 (1 / 10000))) c.temp 1).1)

/-- What R181 gives one cell: A, R_room (Ah), SOC, DIVERGE. -/
structure CellOut where
  a : Rat
  room : Rat
  soc : Rat
  diverge : Bool
deriving DecidableEq, Repr

/-- The values of R181. -/
def State.cellOut (s : State) (k : Nat) (c : CellSt) : CellOut :=
  let e := s.ends k c
  let sc := c.s.getD 0
  let ld := (c.v.map fun v => s.loaded k c v).getD (0, sc, 1)
  let div := decide (ld.2.2 ≤ f64 (1 / 20)) && decide (f64 (1 / 20) < rabs (fsub sc ld.2.1))
  let sw := if div then (if ld.2.1 < sc then ld.2.1 else sc) else sc
  let pos := fun (x : Rat) => if x < 0 then 0 else x
  { a := pos (fmul (fsub sw e.1) c.q), room := pos (fmul (fsub e.2 sw) c.q),
    soc := clampRat 0 1 (fdiv (fsub sw e.1) (fsub e.2 e.1)), diverge := div }

/-- INVALID of a cell (R195). -/
def State.cellInvalid (s : State) (k n : Nat) (d : Die) (c : CellSt) : Bool :=
  !s.cellEn k n || d.prot.cellBroken n || (c.v.isNone && decide (c.vAt + 10000000000 ≤ s.now))

/-- Inputs of the second: v(n) for both uses, temperature, v history, and what breaks a learning pair (R168,
R169, R184). -/
def State.secondInputs (s : State) (k : Nat) (d : Die) (sec : Nat) : List CellSt :=
  let x := d.prec.secs.find? fun x => x.idx == sec
  let lo := signed 8 (s.fF 0x06 k 0x010 23 16)
  let hi := signed 8 (s.fF 0x06 k 0x010 15 8)
  d.est.cells.zipIdx.map fun y =>
    let n := y.2 + 1
    let c := y.1
    let t := s.cellTemp k n d
    let v := x.bind fun x => x.volts false n 8
    let vr := x.bind fun x => x.volts true n 8
    let out := decide (t.1 < (lo : Rat)) || decide ((hi : Rat) < t.1)
    let c := { c with v := v, vRest := vr, vAt := if v.isSome then (sec + 1) * 1000000000 else c.vAt,
                      vHist := (vr :: c.vHist).take 301, temp := t.1, tsub := t.2, tclamp := s.tClamp k t.1,
                      pairOk := c.pairOk && !t.2 && !out }
    let c := match c.s, v with
      | none, some v =>
        let l := s.loaded k c v
        { c with s := some l.2.1, u := if 1 < l.2.2 then 1 else l.2.2, q := s.qInit k }
      | _, _ => c
    { c with inv := s.cellInvalid k n d c, vComp := c.v.map fun v => (s.loaded k c v).1 }

/-- A rest point is due at the end of this second (R178). -/
def State.restDue (s : State) (k : Nat) (e : EstState) (cells : List CellSt) (tEnd : Nat) : Bool :=
  match e.restAt with
  | none => false
  | some b =>
    let on := s.cellsOn k
    let cell := fun n => cells.getD (n - 1) (CellSt.unlearned 1)
    let have_ := !on.isEmpty && on.all fun n => (cell n).vRest.isSome
    let minNs := s.fF 0x06 k 8 31 24 * 60000000000
    let dv : Rat := fmul (s.fF 0x06 k 8 23 16 : Rat) (f64 (1 / 1000000))
    let flat := on.all fun n =>
      match (cell n).vRest, (cell n).vHist.getD 300 none with
      | some a, some b => decide (rabs (fsub a b) ≤ dv)
      | _, _ => false
    have_ && !e.countLost &&
      (match e.lastRest with
        | none => decide (b + minNs ≤ tEnd) || (decide (b + 300000000000 ≤ tEnd) && flat)
        | some l => decide (l + minNs ≤ tEnd))

/-- A learning pair of one cell judged at P2 (R184, R185): the new capacity, and LAST_LEARN. -/
def State.judgePair (s : State) (k : Nat) (c : CellSt) (p1 p2 : LearnPt) : Rat × Nat :=
  let r := s.regF 0x06 k 0x010
  let r2 := s.regF 0x06 k 0x014
  let ds := fdiv (bits r 31 24 : Rat) 100
  let uvMax := fdiv (bits r2 15 0 : Rat) 10000
  let lo : Rat := (signed 8 (bits r 23 16) : Rat)
  let hi : Rat := (signed 8 (bits r 15 8) : Rat)
  let inT := fun (p : LearnPt) => decide (lo ≤ p.temp) && decide (p.temp ≤ hi)
  let ok := decide (ds ≤ rabs (fsub p2.sv p1.sv)) && decide (p1.uv ≤ uvMax) && decide (p2.uv ≤ uvMax) && inT p1 && inT p2 &&
    c.pairOk && decide (p2.t ≤ p1.t + bits r2 31 16 * 3600000000000)
  if !ok then (c.q, 3)
  else
    let meas := fdiv (fsub p2.c p1.c) (fsub p2.sv p1.sv)
    if fmul (f64 (1 / 10)) c.q < rabs (fsub meas c.q) then (c.q, 2)
    else (fadd c.q (fmul (fdiv (bits r 7 0 : Rat) 256) (fsub meas c.q)), 1)

/-- One cell at a rest point (R179): anchored, with its learning point, and the result of a judged pair. -/
def State.anchor (s : State) (k n : Nat) (d : Die) (b tEnd : Nat) (c : CellSt) : CellSt × Option Nat :=
  match c.vRest, c.s with
  | some v, some sc =>
    let i := s.ocvInverse k v c.temp c.h
    let g := if i.2 < f64 (1 / 10000) then f64 (1 / 10000) else i.2
    let uv := fdiv (fmul (s.ocvErr k n d : Rat) (f64 (1 / 1000000))) g
    let uu := fmul c.u c.u
    let vv := fmul uv uv
    let w := if c.unanchored then 1 else fdiv uu (fadd uu vv)
    let p2 : LearnPt := { sv := i.1, uv := uv, v := v, temp := c.temp, c := c.c, t := tEnd }
    let a := { c with s := some (fadd sc (fmul w (fsub i.1 sc))),
                      u := if c.unanchored then uv else fsqrt (fdiv (fmul uu vv) (fadd uu vv)), unanchored := false }
    match c.p1 with
    | none => ({ a with p1 := some p2, pairOk := !c.tsub }, none)
    | some p1 =>
      if b ≤ p1.t then ({ a with p1 := some p2, pairOk := !c.tsub }, none)
      else
        let j := s.judgePair k c p1 p2
        ({ a with q := j.1, p1 := some p2, pairOk := !c.tsub }, some j.2)
  | _, _ => (c, none)

/-- The D0 history record of an accepted learning (R185): island, cell, the old and the new capacity, both points, and the
conditions in force, STATE_LEARN, STATE_LEARN2 and PROFILE_SLOT. No rule lays it out: DESIGN CHOICE, log entry 55. -/
def State.learnRecord (s : State) (k n : Nat) (before after : CellSt) : List Byte :=
  let pt := fun (p : Option LearnPt) => match p with | some p => p.bytes | none => []
  le 1 k ++ le 1 n ++ nanoField before.q ++ nanoField after.q ++ pt before.p1 ++ pt after.p1 ++ le 4 (s.regF 0x06 k 0x010) ++
    le 4 (s.regF 0x06 k 0x014) ++ le 1 (s.profSlot k)

/-- A hold of R183 on the part ends. -/
def State.endHold (s : State) (k : Nat) : State :=
  s.onDie k fun d =>
    if d.est.holdLow || d.est.holdHigh then
      (s.modDies fun _ d => { d with est := { d.est with holdLow := false, holdHigh := false } }).dieEvent k
        { source := 26, subkind := 3 }
    else s

/-- A rest point of die k (R178, R179, R184, R185): every enabled cell is anchored, pairs are judged, S4 takes
the voltages, EOD, EOC and holds end. -/
def State.restPoint (s : State) (k : Nat) (d : Die) (tEnd : Nat) : State :=
  let b := d.est.restAt.getD 0
  let r := d.est.cells.zipIdx.map fun x => if s.cellEn k (x.2 + 1) then s.anchor k (x.2 + 1) d b tEnd x.1 else (x.1, none)
  let results := indexes (fun x => x.2.isSome) r
  let codes := results.map fun i => (i, ((r[i]?).bind (·.2)).getD 0)
  let good := (codes.filter fun x => x.2 == 1).length
  let vs := d.est.cells.map fun c => c.vRest.getD 0
  let s := s.modDie k fun d =>
    { d with est := { d.est with cells := r.map (·.1), lastRest := some tEnd, learnCount := sat 16 (d.est.learnCount + good),
                                 lastLearn := (codes.getLast?.map (·.2)).getD d.est.lastLearn },
             cal := if d.prec.calAdmits then { d.cal with rests := (vs :: d.cal.rests).take 64 } else d.cal }
  let s := codes.foldl
    (fun s x =>
      let q := ((r[x.1]?).map fun y => y.1.q).getD 0
      let full := match d.est.cells[x.1]?, r[x.1]? with
        | some c, some y => if x.2 = 1 then s.learnRecord k (x.1 + 1) c y.1 else []
        | _, _ => []
      s.dieEventFull k { source := 27, item := x.1 + 1, subkind := if x.2 = 1 then 1 else 2, arg64 := (roundAway (q * 1000)).toNat }
        s.now full) s
  let s := s.endHold k
  let s := s.modDies fun _ d => { d with est := { d.est with eod := false, eoc := false } }
  s.persist k

/-- Every enabled valid cell of the part with its v_comp: island, cell, v_comp. -/
def State.partVolts (s : State) : List (Nat × Nat × Rat) :=
  s.islands.flatMap fun k =>
    match s.die? k with
    | none => []
    | some d =>
      if !s.stateEn k then []
      else (d.est.cells.zipIdx.filter fun x => !x.1.inv).filterMap fun x => x.1.vComp.map fun v => (k, x.2 + 1, v)

/-- The entry with the lowest value. -/
def lowest (l : List (Nat × Nat × Rat)) : Option (Nat × Nat × Rat) :=
  l.foldl (fun b x => match b with | none => some x | some y => if x.2.2 < y.2.2 then some x else b) none
/-- The entry with the highest value. -/
def highest (l : List (Nat × Nat × Rat)) : Option (Nat × Nat × Rat) :=
  l.foldl (fun b x => match b with | none => some x | some y => if y.2.2 < x.2.2 then some x else b) none

/-- A cell changed by `f`. -/
def State.modCell (s : State) (k n : Nat) (f : CellSt → CellSt) : State :=
  s.modDie k fun d => { d with est := { d.est with cells := modNth f (n - 1) d.est.cells } }

/-- A declaration of R182: the deciding cell takes its end, and the flag and event follow. -/
def State.declare (s : State) (k : Nat) (low : Bool) (x : Nat × Nat × Rat) : State :=
  let s := match (s.die? x.1).bind fun d => d.est.cells[x.2.1 - 1]? with
    | none => s
    | some c =>
      let e := s.ends x.1 c
      let u := (c.v.map fun v => (s.loaded x.1 c v).2.2).getD c.u
      s.modCell x.1 x.2.1 fun c => { c with s := some (if low then e.1 else e.2), u := if low then u else c.u }
  let s := s.endHold k
  let s := s.modDies fun _ d =>
    { d with est := { d.est with eod := d.est.eod || low, eoc := d.est.eoc || !low,
                                 eodOpp := if low then none else d.est.eodOpp, eocOpp := if low then d.est.eocOpp else none } }
  (s.dieEvent x.1 { source := 25, item := x.2.1, subkind := if low then 1 else 2 }).persist x.1

/-- End of discharge and end of charge (R182), judged for the part at a second of die k. -/
def State.judgeEnds (s : State) (k : Nat) : State :=
  s.onDie k fun d =>
    let e := d.est
    let i := e.lastI.getD 0
    let rest : Rat := fdiv (s.fF 0x06 k 0x00C 31 16 : Rat) 1000
    let vs := s.partVolts
    let lo := lowest vs
    let hi := highest vs
    let lim := fun (x : Nat × Nat × Rat) (h l : Nat) => fmul (s.fF 0x06 x.1 4 h l : Rat) (f64 (1 / 10000))
    let isLow := (match lo with | some x => decide (x.2.2 ≤ lim x 15 0) | none => false) && decide (i ≤ rest)
    let isHigh := (match hi with | some x => decide (lim x 31 16 ≤ x.2.2) | none => false) && decide (-rest ≤ i)
    let since := fun (b : Bool) (a : Option Nat) => if b then some (a.getD s.now) else none
    let eodOpp := since (e.eod && decide (rest < i)) e.eodOpp
    let eocOpp := since (e.eoc && decide (i < -rest)) e.eocOpp
    let lowAt := since isLow e.eodSince
    let highAt := since isHigh e.eocSince
    let s := s.modDie k fun d =>
      { d with est := { d.est with eodSince := lowAt, eocSince := highAt, eodOpp := eodOpp, eocOpp := eocOpp } }
    let ovrng := fun (a : Option Nat) (hold : Nat) => match a with | some x => decide (x + hold ≤ s.now) | none => false
    let eodOver := ovrng eodOpp 10000000000
    let eocOver := ovrng eocOpp 10000000000
    let s := s.modDies fun _ d =>
      { d with est := { d.est with eod := d.est.eod && !eodOver, eoc := d.est.eoc && !eocOver } }
    let s := match lo with
      | some x => if !e.eod && ovrng lowAt (s.fF 0x06 k 8 7 0 * 100000000) then s.declare k true x else s
      | none => s
    match hi with
    | some x => if !e.eoc && ovrng highAt (s.fF 0x06 k 8 15 8 * 100000000) then s.declare k false x else s
    | none => s

/-- Minimum of a list of rationals. -/
def minRat (l : List Rat) : Option Rat :=
  match l with
  | [] => none
  | x :: xs => some (xs.foldl (fun a y => if y < a then y else a) x)

/-- Group and part charge (R181) from A and R_room: 0 when both are 0. -/
def socOf (a r : Rat) : Rat := if fadd a r = 0 then 0 else fdiv a (fadd a r)

/-- A reported charge under the holds of R183, in 0.01 %. -/
def reported (e : EstState) (soc : Rat) : Nat :=
  let lo := f64 (1 / 100)
  let hi := f64 (99 / 100)
  let x := if !e.eod && decide (soc < lo) then lo else if !e.eoc && decide (hi < soc) then hi else soc
  (roundAway (x * 10000)).toNat

/-- Band of eleven of a temperature in 0.01 °C (R455). -/
def tBand (t : Int) : Nat := if t < -2000 then 0 else if 7000 ≤ t then 10 else ((t + 2000) / 1000).toNat + 1

/-- What the history record gathers from one second of die k (R455): the extremes of T(n), and, once a second, the
bands of the part's highest temperature and of PART_SOC. -/
def State.noteHistory (s : State) (cells : List CellSt) (soc : Rat) (first : Bool) : State :=
  let ts := cells.map fun c => roundAway (c.temp * 100)
  let h := s.trust.history
  let hi := ts.foldl (fun (m : Option Int) t => some (match m with | none => t | some x => max x t)) h.tMax
  let lo := ts.foldl (fun (m : Option Int) t => some (match m with | none => t | some x => min x t)) h.tMin
  let top := ts.foldl (fun (m : Option Int) t => some (match m with | none => t | some x => max x t)) none
  let tb := match top with | some t => if first then modNth (· + 1) (tBand t) h.tBands else h.tBands | none => h.tBands
  let sb := if first then modNth (· + 1) (min 9 (clampInt 0 9 (soc * 10).floor).toNat) h.socBands else h.socBands
  { s with trust := { s.trust with history := { h with tMax := hi, tMin := lo, tBands := tb, socBands := sb } } }

/-- STATE_SECOND (R194): the second that ended is taken in, rest points and declarations are judged, and the
state record is formed. -/
def execStateSecond (t k : Nat) (s : State) : Outcome :=
  let s := (s.at_ t).adoptEst
  .next (s.onDie k fun d =>
    if !s.stateEn k || t < 1000000000 || !d.dspOn || !s.inRunDoze then s
    else
      let sec := t / 1000000000 - 1
      let tEnd := (sec + 1) * 1000000000
      let cells := s.secondInputs k d sec
      let s := s.modDie k fun d => { d with est := { d.est with cells := cells } }
      let s := if s.restDue k d.est cells tEnd then s.onDie k fun d => s.restPoint k d tEnd else s
      let s := s.judgeEnds k
      let outs := (((s.die? k).map fun d => d.est.cells).getD []).map fun c => s.cellOut k c
      let inv := cells.map (·.inv)
      let valid := (List.zip outs inv).filter fun x => !x.2
      let aG := minRat (valid.map fun x => x.1.a)
      let rG := minRat (valid.map fun x => x.1.room)
      let vs := s.partVolts
      let weak := (lowest vs).map fun x => (x.1, x.2.1)
      let strong := (highest vs).map fun x => (x.1, x.2.1)
      let s := s.modDie k fun d =>
        { d with est := { d.est with
            aGroup := aG, rGroup := rG, socGroup := socOf (aG.getD 0) (rG.getD 0),
            cells := d.est.cells.zipIdx.map fun x =>
              { x.1 with diverge := ((outs[x.2]?).map (·.diverge)).getD false, weak := weak == some (k, x.2 + 1),
                         strong := strong == some (k, x.2 + 1) } } }
      let dies := (s.islands.filter s.stateEn).filterMap fun j => s.die? j
      let aP := (minRat (dies.filterMap fun d => d.est.aGroup)).getD 0
      let rP := (minRat (dies.filterMap fun d => d.est.rGroup)).getD 0
      let socP := socOf aP rP
      let enter := fun (d : Die) => (decide (socP < f64 (1 / 100)) && !d.est.eod, decide (f64 (99 / 100) < socP) && !d.est.eoc)
      let s := s.onDie k fun d =>
        let h := enter d
        let lo := h.1 && !d.est.holdLow
        let hi := h.2 && !d.est.holdHigh
        let s := if lo then (s.modDies fun _ d => { d with est := { d.est with holdLow := true, cells := d.est.cells.map fun c => { c with pairOk := false } } }).dieEvent k { source := 26, subkind := 1 } else s
        if hi then (s.modDies fun _ d => { d with est := { d.est with holdHigh := true, cells := d.est.cells.map fun c => { c with pairOk := false } } }).dieEvent k { source := 26, subkind := 2 } else s
      s.onDie k fun d =>
        let e := d.est
        let qr := s.qRated k
        let mAh := fun (x : Rat) => le 4 (clampInt 0 (2 ^ 32 - 1) (roundAway (x * 1000))).toNat
        let body := e.cells.zipIdx.flatMap fun x =>
          let c := x.1
          let o := outs.getD x.2 { a := 0, room := 0, soc := 0, diverge := false }
          le 2 (if c.inv then 0xFFFF else reported e o.soc) ++ le 2 (clampInt 0 0xFFFF (roundAway (c.u * 10000))).toNat ++ mAh c.q ++
            le 2 (clampInt 0 0xFFFF (roundAway (fdiv c.q qr * 10000))).toNat ++ le 2 (clampInt 0 0xFFFF (roundAway (c.rho * 10000))).toNat ++
            leInt 2 (clampInt (-32768) 32767 (roundAway (c.temp * 100))) ++ leInt 1 (roundAway (c.h * 127)) ++
            le 1 (fld 7 1 (b2n c.inv) + fld 6 1 (b2n c.tsub) + fld 5 1 (b2n c.tclamp) + fld 4 1 (b2n c.diverge) +
              fld 3 1 (b2n c.weak) + fld 2 1 (b2n c.strong) + fld 1 1 (b2n c.unanchored))
        let rec_ := withCrc32c (le 2 0x0701 ++ le 1 s.pos ++ le 1 k ++ le 1 (s.profSlot k) ++
          le 1 (fld 7 1 (b2n e.eod) + fld 6 1 (b2n e.eoc) + fld 5 1 (b2n e.holdLow) + fld 4 1 (b2n e.holdHigh) +
            fld 3 1 (b2n e.restAt.isSome) + fld 2 1 (b2n e.countLost) + fld 1 1 (b2n e.onHub) + fld 0 1 (b2n e.moved)) ++
          zeros 2 ++ le 8 tEnd ++ le 2 (reported e e.socGroup) ++ le 2 (reported e socP) ++ mAh (e.aGroup.getD 0) ++ mAh (e.rGroup.getD 0) ++
          mAh aP ++ mAh rP ++ leInt 4 (roundAway (e.lastI.getD 0 * 1000)) ++ body)
        let s := s.modDie k fun d => { d with est := { d.est with moved := false } }
        let s := s.noteHistory (e.cells.zipIdx.filterMap fun x => if s.cellEn k (x.2 + 1) then some x.1 else none) socP
          ((s.islands.filter s.stateEn).head? == some k)
        s.dieRecord k 0x0701 tEnd rec_)

/-- STATE_PERSIST (R187): the learned state is written every 10 s in RUN. -/
def execStatePersist (t k : Nat) (s : State) : Outcome :=
  let s := (s.at_ t).adoptEst
  .next (s.onDie k fun _ => if s.inRun then s.persist k else s)

/-- Die k loads its learned state at a restart (R188): the newer valid slot, advanced by the charge that the
meter has committed since. -/
def State.loadState (s : State) (k : Nat) : State :=
  s.onDie k fun d =>
    match d.est.slots.find? (·.ok) with
    | none =>
      let s := s.resetGroup k
      if d.est.slots.isEmpty then s else s.dieEvent k { source := 28, subkind := 2 }
    | some x =>
      let dq := fdiv (fsub (f64 s.meterCharge) (f64 x.charge)) 3600000
      let newest := (d.est.slots.head?.map (·.ok)).getD true
      let s := s.modDie k fun d =>
        { d with est := { d.est with
                    identity := x.identity, pattern := x.pattern,
                    cells := x.cells.map fun c =>
                      { c with s := c.s.map fun y => fadd y (fdiv dq c.q), c := fadd c.c dq, pairOk := false, v := none, vRest := none,
                               vHist := [], vComp := none } },
                 cal := { d.cal with rests := x.rests }, prec := { d.prec with wires := x.wires } }
      if newest then s else s.dieEvent k { source := 28, subkind := 1 }

end Sys2Proof.Machine
end

