-- ==== Sys2Proof/Machine/Sequence.lean ====
section
/-! DEFINITION. The auxiliary sequence table and its windows (R99 to R119), the calibration of M30 (R113,
R131), identity and pattern (R189 to R191), and the release of a self-test slice (R462, R463). -/

namespace Sys2Proof.Machine

/-! ### Entries (R104, R105) -/

/-- SEQi_CTRL in force. -/
def State.seqCtrl (s : State) (k i : Nat) : Nat := s.regF 0x03 k (0x100 + 16 * i)
/-- SEQi_MODE in force. -/
def State.seqMode (s : State) (k i : Nat) : Nat := s.regF 0x03 k (0x104 + 16 * i)
/-- REPEAT of entry i. -/
def State.seqRepeat (s : State) (k i : Nat) : Nat := bits (s.seqCtrl k i) 15 8
/-- CHANNEL of entry i. -/
def State.seqChannel (s : State) (k i : Nat) : Nat := bits (s.seqCtrl k i) 7 0
/-- The first entry from i upward that is not skipped. -/
def State.seqFrom (s : State) (k i : Nat) : Option Nat := ((List.range 64).drop i).find? fun j => s.seqRepeat k j != 0

/-- M30 stands at an entry boundary and no urgent work has it (R113, R115). -/
def SeqState.atBoundary (q : SeqState) (now : Nat) : Bool :=
  !q.urgent && (match q.cur with | none => true | some x => x.tStart == now && x.words.isEmpty)

/-- The sequencer of die k may run its table (R105, R117). -/
def State.seqMay (s : State) (k : Nat) (d : Die) : Bool :=
  d.precOn && s.inRunDoze && !d.prot.protOnly && s.fB 0x03 k 0 0

/-- Entry i starts (R106). -/
def SeqState.start (q : SeqState) (i t : Nat) : SeqState :=
  { q with running := true, cur := some { entry := i, tStart := t, words := [], winEvent := false, sliceWait := q.sliceMark },
           preempts := if q.curEntry = i ∧ q.preempts ≠ 0 then q.preempts else 0, curEntry := i, sliceMark := false }

/-- M30 is taken by urgent work or by a slice. -/
def SeqState.taken (q : SeqState) : Bool := q.urgent || q.sliceHeld

/-- The entry due next starts, or waits for M30; with every REPEAT 0 the sequencer idles (R105, R114, R115). -/
def State.startFrom (s : State) (k i t : Nat) : State :=
  match s.seqFrom k i with
  | none => s.modDie k fun d => { d with seq := { d.seq with cur := none, resume := 0, passTime := 0 } }
  | some j =>
    s.modDie k fun d =>
      if d.seq.taken then { d with seq := { d.seq with cur := none, resume := j } } else { d with seq := d.seq.start j t }

/-- The table starts at entry 0 (R105, R116, R117). -/
def State.seqRestart (s : State) (k t : Nat) (keepWindows : Bool) : State :=
  let s := s.modDie k fun d =>
    { d with seq := { d.seq with cur := none, pass := 0, passStart := t, preempts := 0, idSeen := none, sliceMark := false,
                                 win := if keepWindows then d.seq.win else List.replicate 64 0,
                                 winIn := if keepWindows then d.seq.winIn else List.replicate 64 false } }
  s.onDie k fun d =>
    if s.seqMay k d then (s.startFrom k 0 t).modDie k fun d => { d with seq := { d.seq with running := true } }
    else s.modDie k fun d => { d with seq := { d.seq with running := false } }

/-! ### Records (R103, R106, R108) -/

/-- The auxiliary record of an entry that closes. -/
def State.auxRecord (s : State) (k : Nat) (d : Die) (x : SeqRun) (words : List Nat) (cut preempt : Bool) : List Byte :=
  let c := s.seqCtrl k x.entry
  let m := s.seqMode k x.entry
  let per := ratePeriod (bits m 2 0)
  let filt := bit m 3
  let first := x.tStart + bits c 31 16 * 1000 + (filtOrder filt + 1) * per - groupDelay (bits m 2 0) filt
  let has := bits c 7 0 != 0x81 && decide (filtOrder filt < words.length)
  withCrc32c (le 2 0x0401 ++ le 1 s.pos ++ le 1 k ++ le 4 d.seq.pass ++ le 8 x.tStart ++ le 8 (if has then first else 0) ++
    le 1 x.entry ++ le 1 (bits c 7 0) ++ le 1 (bits m 7 0) ++
    le 1 (fld 7 1 (b2n cut) + fld 6 1 (b2n preempt) + fld 4 2 d.tq + fld 2 2 (d.seq.win.getD x.entry 0) +
      fld 1 1 (b2n x.winEvent) + fld 0 1 (b2n x.sliceWait)) ++
    le 2 words.length ++ leInt 2 d.prec.temp ++ words.flatMap (le 4))

/-- The latest reading of the entry's channel: its mean code is of the valid words (R169), while COMPLY and the words that
R190 bars count in every word of the record (R189, R190). -/
def SeqState.note (q : SeqState) (channel gain exc order t : Nat) (words : List Nat) : SeqState :=
  let valid := words.drop order
  match valid with
  | [] => q
  | _ =>
    let use_ := fun w => !bit w 31 && !bit w 29 && !bit w 24
    let r : AuxRead :=
      { channel := channel, code := ((valid.map wCode).foldl (· + ·) 0 : Int) / ((valid.length : Nat) : Rat), gain := gain,
        exc := exc, t := t, ok := valid.any use_, comply := words.any fun w => bit w 29, clean := words.all use_ }
    { q with reads := r :: q.reads.filter fun x => x.channel != channel }

/-- Class of an identity resistance (R189): 0 none, 0xFE short, 0xFF unrecognised. -/
def idCode (ohms : Rat) : Nat :=
  if 1000000 < ohms then 0
  else if ohms < 500 then 0xFE
  else
    let noms : List Rat := [10, 12, 15, 18, 22, 27, 33, 39, 47, 56, 68, 82]
    let near := fun (n : Rat) => decide (97 / 100 * n ≤ ohms) && decide (ohms ≤ 103 / 100 * n)
    match indexes near ((noms.map (· * 100)) ++ (noms.map (· * 1000))) with
    | i :: _ => i + 1
    | [] => 0xFF

/-- The identity that a reading of ID_RES gives; none for code 0 (R189). -/
def AuxRead.identity (r : AuxRead) (cal : CalState) : Option Nat :=
  if r.comply then none
  else
    match r.ohms cal with
    | none => some 0xFF
    | some o => if idCode o = 0 then none else some (idCode o)

/-- A single-wire identity is valid when its top byte is the CRC-8 of the seven below it (R103, R231). -/
def numberOk (number : Nat) : Bool := Poly.crc8.check (le 7 number) == bits number 63 56

/-- A thermistor's reading shows it present (R190). -/
def AuxRead.present (r : AuxRead) (cal : CalState) : Bool :=
  r.clean && (match r.ohms cal with | some o => decide (50 ≤ o) && decide (o ≤ 1000000) | none => false)

/-- What the latest reading of ID_RES or of a thermistor says of identity and pattern (R189, R190). -/
def SeqState.judgeRead (q : SeqState) (cal : CalState) (ch : Nat) : SeqState :=
  match q.read ch with
  | none => q
  | some r =>
    if ch = 0x80 then { q with idSeen := r.identity cal }
    else if 1 ≤ ch ∧ ch ≤ 8 then { q with therms := setBit q.therms (ch - 1) (r.present cal) }
    else q

/-- The running entry closes: its reading is noted and judged, whether or not the record is whole, and, under REC_EN, its record delivered. DESIGN CHOICE, log entry 6. -/
def State.closeEntry (s : State) (k : Nat) (cut preempt : Bool) : State :=
  s.onDie k fun d =>
    match d.seq.cur with
    | none => s
    | some x =>
      let c := s.seqCtrl k x.entry
      let m := s.seqMode k x.entry
      let oneWire := bits c 7 0 = 0x81
      let free := s.drawBits 64
      let r := if oneWire ∧ x.words = [] then ([free.1 % 2 ^ 32, free.1 / 2 ^ 32, 0x80000000], free.2) else (x.words, s)
      let s := r.2
      let bytes := s.auxRecord k d x r.1 cut preempt
      let s := s.modDie k fun d =>
        let q := if oneWire then d.seq
          else (d.seq.note (bits c 7 0) (bits m 7 6) (bits m 5 4) (filtOrder (bit m 3)) s.now r.1).judgeRead d.cal (bits c 7 0)
        { d with seq := { q with cur := none } }
      if s.fB 0x03 k 0 1 then s.dieRecord k 0x0401 x.tStart bytes else s

/-! ### Identity and pattern (R189 to R191) -/

/-- The end of a pass judges identity and pattern (R191). -/
def State.judgeSwap (s : State) (k : Nat) : State :=
  if !s.stateEn k then s
  else
    s.onDie k fun d =>
      let e := d.est
      let read := maskOf (((List.range 64).filter fun i =>
        s.seqRepeat k i != 0 && 1 ≤ s.seqChannel k i && s.seqChannel k i ≤ 8).map fun i => s.seqChannel k i - 1)
      let pat := d.seq.therms &&& read
      let ctrl := s.regF 0x06 k 0
      let seen := d.seq.idSeen
      let byId := bit ctrl 2 && seen.isSome && e.identity.isSome && seen != e.identity
      let stored := e.pattern &&& read
      let gone := e.patternGone || (stored != 0 && pat &&& stored == 0)
      let byPat := bit ctrl 3 && e.patternGone && pat != 0
      let run := if byId || byPat then e.swapRun + 1 else 0
      if (byId || byPat) && decide (bits ctrl 27 24 ≤ run) then s.swapGroup k (if seen.isSome then seen else e.identity) pat
      else
        let absent := if pat &&& stored = 0 then 0 else stored - (pat &&& stored)
        let lost := bitsSet (absent - (absent &&& d.seq.absent)) 8
        let s := s.modDie k fun d =>
          { d with est := { e with identity := if e.identity.isNone then seen else e.identity,
                                   pattern := if e.pattern = 0 then pat else e.pattern, patternGone := gone, swapRun := run },
                   seq := { d.seq with absent := absent } }
        lost.foldl (fun s j => s.dieEvent k { source := 29, subkind := 2, item := j + 1 }) s

/-- The sequencer moves on after entry i: the next entry starts, or the pass ends and the next one begins (R105). -/
def State.seqAdvance (s : State) (k i t : Nat) : State :=
  match s.seqFrom k (i + 1) with
  | some j => s.startFrom k j t
  | none =>
    let s := s.judgeSwap k
    let s := s.modDie k fun d =>
      { d with seq := { d.seq with passTime := sat 16 ((t - d.seq.passStart + 50000) / 100000), pass := (d.seq.pass + 1) % 2 ^ 32,
                                   passStart := t, idSeen := none, preempts := 0 } }
    s.startFrom k 0 t

/-! ### A swap of the sequence block (R116) -/

/-- The swapped sequence block taken at its boundary. An entry of the old table that was due to start there never ran. A
calibration insert at the boundary does not delay entry 0. DESIGN CHOICE, log entry 52. -/
def State.adoptSeq (s : State) (k : Nat) : State :=
  match (s.die? k).bind fun d => d.seq.swapAt with
  | none => s
  | some b =>
    if s.now ≤ b then s
    else if !s.blockDiffers 0x03 k then s.modDie k fun d => { d with seq := { d.seq with swapAt := none } }
    else
      let now := s.now
      let begun : Bool := match ((s.die? k).bind (·.seq.cur)) with
        | some x => decide (x.tStart < b)
        | none => true
      let s := if begun then ({ s with now := b }).closeEntry k true false
        else s.modDie k fun d => { d with seq := { d.seq with cur := none } }
      let s := { s with now := now }
      let f := fun (s : State) (i : Nat) =>
        (s.seqChannel k i, bits (s.seqMode k i) 7 4, s.regF 0x03 k (0x108 + 16 * i), s.regF 0x03 k (0x10C + 16 * i), bit (s.seqMode k i) 9)
      let old := (List.range 64).map (f s)
      let s := s.takeBlock 0x03 k
      let keep := old.zipIdx.map fun x => x.1.2.2.2.2 && x.1 == f s x.2
      let s := s.modDie k fun d =>
        { d with seq := { d.seq with swapAt := none, win := List.zipWith (fun w q => if q then w else 0) d.seq.win keep,
                                     winIn := List.zipWith (fun w q => w && q) d.seq.winIn keep } }
      s.seqRestart k b true

/-! ### SEQ_WORD (R106, R107, R111, R112) -/

/-- The converted value of a channel as code and OVR (R100, R101). DIE_TEMP arrives in °C. -/
def Die.auxCode (d : Die) (channel gain : Nat) (m : Rat) (ovl : Overload) : Int × Bool :=
  let cal := d.seq.m30.getD gain { lastAt := none, prev := none, ofs := 0, gain := 0, rejected := false }
  let v := if channel = 0x20 then m else auxVolts d.cal cal gain m d.prec.temp
  (auxFmt channel gain).form v ovl

/-- SEQ_WORD (R106): an output period of M30 ends; `m` is the filter output in volts at the pad (°C for
DIE_TEMP), `ovl` its overload, `comply` whether the excitation was at compliance during the impulse. WIN marks every word
outside the band of an enabled window, as R107 has it; only the words that R111 evaluates move the window. DEDUCED, log
entry 52. -/
def execSeqWord (t k : Nat) (m : Rat) (ovl : Overload) (comply : Bool) (s : State) : Outcome :=
  let s := (s.at_ t).adoptSeq k
  .next (s.onDie k fun d =>
    match d.seq.cur with
    | none => s
    | some x =>
      let c := s.seqCtrl k x.entry
      let md := s.seqMode k x.entry
      let per := ratePeriod (bits md 2 0)
      let order := filtOrder (bit md 3)
      let j := x.words.length + 1
      let ch := bits c 7 0
      if ch = 0x81 ∨ t ≠ x.tStart + bits c 31 16 * 1000 + j * per ∨ order + bits c 15 8 < j then s
      else
        let gain := bits md 7 6
        let v := d.auxCode ch gain m ovl
        let cal := d.seq.m30.getD gain { lastAt := none, prev := none, ofs := 0, gain := 0, rejected := false }
        let invalid := d.prec.refState == 2 || d.cal.frozen.isSome || d.prec.failed.contains 30 || d.prec.failed.contains 31
        let settle := decide (j ≤ order)
        let fet := decide (0x41 ≤ ch) && decide (ch ≤ 0x58)
        let chn := d.prot.chan (ch - 0x40)
        let balOff := fet && !(chn.conducting && decide (chn.onSince + order * per ≤ t))
        let winEn := bit md 9
        let lo := signed 24 (s.regF 0x03 k (0x108 + 16 * x.entry))
        let hi := signed 24 (s.regF 0x03 k (0x10C + 16 * x.entry))
        let side := bandSide lo hi v.1
        let judged := winEn && !settle && !invalid
        let w := auxWord invalid (winEn && side != 1) (comply && excOn ch (bits md 5 4)) (d.prec.refState == 1 || cal.rejected) balOff settle v.2 v.1
        let step := windowStep (d.seq.win.getD x.entry 0) (d.seq.winIn.getD x.entry false) side
        let s := s.modDie k fun d =>
          { d with seq := { d.seq with
              win := if judged then setNth x.entry step.1 d.seq.win else d.seq.win,
              winIn := if judged then setNth x.entry step.2.1 d.seq.winIn else d.seq.winIn,
              cur := some { x with words := x.words ++ [w], winEvent := x.winEvent || (judged && step.2.2) } } }
        if judged && step.2.2 then
          s.dieEventAt k { source := 20, item := x.entry, subkind := step.1, arg16 := ch, arg64 := w }
            (t - groupDelay (bits md 2 0) (bit md 3))
        else s)

/-- What an entry on ID_1W puts on the ID pad of die k (R103, R233): a reset, and where a presence pulse answers it READ_ID and
its 64 read slots. -/
def readIdOuts (k : Nat) (presence : Bool) : List Out :=
  .line (16 + k) 1 :: if presence then [.lineByte (16 + k) 0x3C, .lineRead (16 + k) 64] else []

/-- SEQ_ENTRY_END (R106): the running entry has its last word; for an entry on ID_1W, `presence` and `number`
are what the read of the identity gave (R103). -/
def execSeqEntryEnd (t k : Nat) (presence : Bool) (number : Nat) (s : State) : Outcome :=
  let s := (s.at_ t).adoptSeq k
  .next (s.onDie k fun d =>
    match d.seq.cur with
    | none => s
    | some x =>
      let c := s.seqCtrl k x.entry
      let md := s.seqMode k x.entry
      let ch := bits c 7 0
      if ch = 0x81 then
        if t < x.tStart then s
        else
          let ok := presence && numberOk number
          let s := readIdOuts k presence |>.foldl (fun s o => s.emit o) s
          let s := s.modDie k fun d =>
            { d with seq := { d.seq with
                cur := some { x with words := [number % 2 ^ 32, number / 2 ^ 32 % 2 ^ 32, if ok then 0 else 0x80000000] },
                idSeen := if ok then some (2 ^ 64 + number % 2 ^ 64) else d.seq.idSeen } }
          (s.closeEntry k false false).seqAdvance k x.entry t
      else if x.words.length ≠ filtOrder (bit md 3) + bits c 15 8 then s
      else
        (s.closeEntry k false false).seqAdvance k x.entry t)

/-! ### Inserted work (R113, R114, R131) -/

/-- Gain factor of a GAIN code (R101). -/
def gainFactor (gain : Nat) : Nat := 4 ^ gain

/-- M30_CAL_INSERT (R113, R131): at an entry boundary a pair of conversions that takes `zener.len` ns, at most 3 ms, gives the
internal zero in volts and the zener, compared with the die's factory value of it at 25 °C and the common term of S3, and is
judged against the pair before; the entry that was due starts when it ends. The mean offset of a pair has no bound, and CAL_EN 0
stops no insertion. DESIGN CHOICE, log entry 52. -/
def execM30CalInsert (t k gain : Nat) (zero : Rat) (zener : ZenerRead) (s : State) : Outcome :=
  let s := (s.at_ t).adoptSeq k
  .next (s.onDie k fun d =>
    let used := (List.range 64).any fun i => s.seqRepeat k i != 0 && s.seqChannel k i != 0x81 && bits (s.seqMode k i) 7 6 == gain
    let c := d.seq.m30.getD gain { lastAt := none, prev := none, ofs := 0, gain := 0, rejected := false }
    let early : Bool := match c.lastAt with
      | some x => decide (t < x + 60000000000)
      | none => false
    if !d.precOn || d.prot.protOnly || 3 ≤ gain || 3000000 < zener.len || !used || !d.seq.atBoundary t || d.seq.taken || early then s
    else
      let f := (d.cal.factory.getD (29 + gain) Factory.unit).at_ d.prec.temp
      let o := zero - f.2
      let span := (zener.volts - zero) * f.1
      let g := (if span = 0 then Config.divByZero 4096 else (d.cal.zener25 / span - 1) * 1000000) + d.cal.zc
      let tol := s.regF 0x04 k 4
      let tolO : Rat := (bits tol 15 0 : Rat) / 10000000 / (gainFactor gain : Rat)
      let tolG : Rat := (bits tol 31 16 : Rat) / 10
      let c := match c.prev with
        | none => { c with lastAt := some t, prev := some (o, g) }
        | some p =>
          if rabs (o - p.1) ≤ tolO ∧ rabs (g - p.2) ≤ tolG ∧ rabs ((g + p.2) / 2) ≤ 500 ∧ d.cal.frozen.isNone then
            { lastAt := some t, prev := some (o, g), ofs := (o + p.1) / 2, gain := (g + p.2) / 2, rejected := false }
          else { c with lastAt := some t, prev := some (o, g), rejected := true }
      s.modDie k fun d =>
        { d with seq := { d.seq with m30 := setNth gain c d.seq.m30, cur := d.seq.cur.map fun x => { x with tStart := t + zener.len } } })

/-! ### Slices -/

/-- A self-test slice gives its block back to the block's users (R32, R92, R115, R462): the entry that waited for it carries
SLICE_WAIT. -/
def State.releaseSlice (s : State) (k block : Nat) : State :=
  if block = 0x011E ∨ block = 0x0701 then
    let s := s.modDie k fun d =>
      { d with seq := { d.seq with sliceHeld := false, sliceMark := d.seq.running && (s.seqFrom k (d.seq.resume % 64)).isSome } }
    s.onDie k fun d => if s.seqMay k d && d.seq.running && !d.seq.urgent then s.startFrom k d.seq.resume s.now else s
  else if 0x0201 ≤ block ∧ block ≤ 0x0204 then
    s.modDie k fun d =>
      { d with fast := { d.fast with sliceHold := d.fast.sliceHold.map fun x => (x.1, x.2.1, (s.now / 1000 + 1) * 1000) } }
  else if 0x0101 ≤ block ∧ block ≤ 0x011D then
    s.modDie k fun d => { d with prec := { d.prec with cover := d.prec.cover.map fun v => { v with until_ := some (v.until_.getD s.now) } } }
  else s

/-- Self-test state of the hub (0) or of a die. -/
def State.modTest (s : State) (k : Nat) (f : SelfTest → SelfTest) : State := { s with selfTest := modNth f k s.selfTest }

/-- An item failed its check at the hub: CHECK_REJECT (R472). -/
def State.checkRejected (s : State) : State := s.modTest 0 fun y => { y with checkReject := y.checkReject + 1 }

/-- The slice in progress is aborted: the block is handed back, INCOMPLETE, and taken again first (R463). -/
def State.abortSlice (s : State) (k : Nat) : State :=
  match (s.selfTest[k]?).bind (·.slice) with
  | none => s
  | some x =>
    let s := s.modTest k fun y =>
      { y with slice := none, retry := some x.1, incomplete := satInc 8 y.incomplete, lastBlock := x.1, lastResult := 3 }
    s.releaseSlice k x.1

/-- Slices that hold an inner link are aborted: a TC0 frame must pass (R463). -/
def State.freeLinks (s : State) : State :=
  s.islands.foldl
    (fun s k =>
      match (s.selfTest[k]?).bind (·.slice) with
      | some x => if x.1 = 0x0601 ∨ x.1 = 0x0602 then s.abortSlice k else s
      | none => s) s

/-- Die k sends a fault notice: its slice is aborted, and every slice that holds an inner link (R463). -/
def State.clearFor (s : State) (k : Nat) : State := (s.abortSlice k).freeLinks

/-- URGENT_WORK_PREEMPT (R114): protection takes M30 at the end of the output period in progress, at once
before the filter restarts; the running entry closes with PREEMPT, and one that waits for a calibration insert goes on
waiting. -/
def execUrgentWorkPreempt (t k : Nat) (s : State) : Outcome :=
  let s := (s.at_ t).adoptSeq k
  .next (s.onDie k fun d =>
    if !d.precOn || d.seq.urgent then s
    else
      let s1 := (s.modDie k fun d => { d with seq := { d.seq with urgent := true } }).abortSlice k
      match d.seq.cur with
      | none => s1.owBegin k
      | some x =>
       if t < x.tStart then
        (s1.modDie k fun d => { d with seq := { d.seq with cur := none, resume := x.entry } }).owBegin k
       else
        let c := s.seqCtrl k x.entry
        let md := s.seqMode k x.entry
        let restart := x.tStart + bits c 31 16 * 1000
        let atEnd := bits c 7 0 = 0x81 ∨ t < restart ∨ t = restart + x.words.length * ratePeriod (bits md 2 0)
        if ¬ atEnd then s
        else
          let s := s1.closeEntry k false true
          (s.modDie k fun d =>
            let n := d.seq.preempts + 1
            if n < 3 then { d with seq := { d.seq with preempts := n, resume := x.entry } }
            else { d with seq := { d.seq with preempts := 0, resume := x.entry + 64, skips := satInc 8 d.seq.skips } }).owBegin k)

/-- Urgent work ends: the pre-empted entry runs again from its start, or the sequencer moves past it (R114). -/
def State.endUrgent (s : State) (k : Nat) : State :=
  s.onDie k fun d =>
    if !d.seq.urgent then s
    else
      let s := (s.owEnd k).modDie k fun d => { d with seq := { d.seq with urgent := false } }
      s.onDie k fun d =>
        if !s.seqMay k d || !d.seq.running || d.seq.cur.isSome then s
        else if 64 ≤ d.seq.resume then s.seqAdvance k (d.seq.resume - 64) s.now
        else s.startFrom k d.seq.resume s.now

/-- URGENT_WORK_END (R114). -/
def execUrgentWorkEnd (t k : Nat) (s : State) : Outcome := .next (((s.at_ t).adoptSeq k).endUrgent k)

end Sys2Proof.Machine
end

