-- ==== Sys2Proof/Machine/Calibration.lean ====
section
/-! DEFINITION. Self-calibration from the signal (R123 to R139): the close of a run, its solve, pairing and
acceptance, expiry and reset. -/

namespace Sys2Proof.Machine

/-- The run is complete (R126): four admitted dwells of each rotating spare on every cell with its own modulator,
60 minutes, 360 means. -/
def Die.runComplete (d : Die) (r : CalRun) (t : Nat) : Bool :=
  let rotating := [0, 1].filter fun i => d.prec.held.getD i 0 == 0 && !d.prec.failed.contains (25 + i)
  let cells := ((List.range 24).map (· + 1)).filter fun n => !d.prec.held.contains n
  cells.all (fun n => rotating.all fun i => decide (4 ≤ (r.dwells.filter fun x => x.spare == i && x.cell == n).length)) &&
    decide (r.tBegin + 3600000000000 ≤ t) && decide (360 ≤ r.s3.length)

/-- The window of the run in progress closes at an instant (R126): an incomplete run yields nothing; a complete
one is solved, and ends with its solve. Then the next run starts. -/
def State.closeRun (s : State) (k t : Nat) : State :=
  s.onDie k fun d =>
    match d.cal.run with
    | none => s
    | some r =>
      let c := { d.cal with runs := satInc 16 d.cal.runs, acc := [(0, 0, 0), (0, 0, 0)] }
      s.modDie k fun d =>
        { d with cal := if d.runComplete r t then { c with run := none, solving := some { r with tEnd := t } }
                        else { c with run := some (CalRun.opened t), lastResult := 4 } }

/-- CAL_RUN_CLOSE (R126): the window closes after CAL_WINDOW minutes. -/
def execCalRunClose (t k : Nat) (s : State) : Outcome :=
  let s := s.at_ t
  .next (s.onDie k fun d =>
    match d.cal.run with
    | none => s
    | some r =>
      if d.precOn && s.fB 0x04 k 0 0 && decide (r.tBegin + s.fF 0x04 k 0 31 16 * 60000000000 ≤ t) then s.closeRun k t else s)

/-- Sum of a list. -/
def sumRat (l : List Rat) : Rat := l.foldl (· + ·) 0

/-- Slope of y on x by least squares; 0 when x does not vary. DESIGN CHOICE, log entry 53. -/
def slopeOf (ps : List (Rat × Rat)) : Rat :=
  let n : Rat := (ps.length : Rat)
  let sx := sumRat (ps.map (·.1))
  let sy := sumRat (ps.map (·.2))
  let sxx := sumRat (ps.map fun p => p.1 * p.1)
  let sxy := sumRat (ps.map fun p => p.1 * p.2)
  let den := n * sxx - sx * sx
  if den = 0 then 0 else (n * sxy - sx * sy) / den

/-- Fit of S2 (R127): offset of M29 in volts, gain in ppm, mean square residual. A stack voltage that does not vary gives gain
0. DESIGN CHOICE, log entry 53. -/
def fitStack (x : List Rat) : Rat × Rat × Rat :=
  let n := x.getD 0 0
  let sx := x.getD 1 0
  let sxx := x.getD 2 0
  let sy := x.getD 3 0
  let sxy := x.getD 4 0
  let syy := x.getD 5 0
  let den := n * sxx - sx * sx
  let b := if den = 0 then 0 else (n * sxy - sx * sy) / den
  let a := if n = 0 then 0 else (sy - b * sx) / n
  let ss := syy + n * a * a + b * b * sxx - 2 * a * sy - 2 * b * sxy + 2 * a * b * sx
  (a, b * 1000000, if n = 0 then 0 else ss / n)

/-- S4 of R127: for each cell the slope of its deviation from the group median on the median, in ppm, less the
mean over the cells; none without at least 8 rest points spanning 20 mV. -/
def restSlopes (rests : List (List Rat)) (cells : List Nat) : Option (List Rat) :=
  let ms := rests.map fun r => (median (cells.map fun n => r.getD (n - 1) 0)).getD 0
  let hi := ms.foldl (fun a x => if a < x then x else a) (ms.getD 0 0)
  let lo := ms.foldl (fun a x => if x < a then x else a) (ms.getD 0 0)
  if rests.length < 8 ∨ hi - lo < 1 / 50 then none
  else
    let raw := (List.range 24).map fun i => slopeOf (List.zipWith (fun r m => (m, r.getD i 0 - m)) rests ms) * 1000000
    let mean := (meanOf (cells.map fun n => raw.getD (n - 1) 0)).getD 0
    some (raw.map (· - mean))

/-- Span of the cell voltage over the dwells of a channel of S1 (R127). -/
def CalRun.span (r : CalRun) (c : Nat) : Rat :=
  let vs := (r.dwells.filter fun x => if c ≤ 24 then x.cell == c else x.spare == c - 25).map (·.v)
  let hi := vs.foldl (fun a x => if a < x then x else a) (vs.getD 0 0)
  let lo := vs.foldl (fun a x => if x < a then x else a) (vs.getD 0 0)
  hi - lo

/-- What a solve gives: the candidate, the common term, S4's slopes, the mean square residual of S2, the fitted
gain of S2 and the contributing sources (R127). -/
structure Solved where
  cand : Cand
  zc : Rat
  g4 : Option (List Rat)
  resid : Rat
  g29 : Rat
  sources : Nat
deriving DecidableEq, Repr

/-- Channel c has a dwell in S1. -/
def CalRun.seen (r : CalRun) (c : Nat) : Bool := r.dwells.any fun x => if c ≤ 24 then x.cell == c else x.spare + 25 == c

/-- The equations of S1 (R127) in the unknowns o(1) to o(24) and g(1) to g(26), each with its weight: those of the dwells,
and the sum of the relative gains. The dwells were measured with the deltas in force, the offsets `po` and the relative gains
`pg`; o(s) of a spare is that in force less its mean zero `z`. A channel without a dwell keeps its gain. DEDUCED, log entry
53. -/
def CalRun.equations (r : CalRun) (po pg z : List Rat) : List (Rat × List Rat × Rat) :=
  let at_ := fun (i : Nat) (x : Rat) (j : Nat) => if j = i then x else 0
  let known := ((List.range 26).filter fun i => !r.seen (i + 1)).map fun i => pg.getD i 0
  (1, List.replicate 24 0 ++ (List.range 26).map (fun i => if r.seen (i + 1) then 1 else 0), -(known.foldl (· + ·) 0)) ::
    r.dwells.map fun x =>
      let v := x.v / 1000000
      let n := x.cell - 1
      let i := 24 + x.spare
      (Config.dwellWeight x.n,
        (List.range 24).map (at_ n 1) ++ (List.range 26).map (fun j => at_ n v j - at_ i v j),
        po.getD n 0 - z.getD x.spare 0 + (pg.getD n 0 - pg.getD i 0) * v - x.d)

/-- Offsets of M1 to M24 and relative gains of M1 to M26 by the least squares of S1. A channel without a dwell keeps the
values in force; a term that the dwells leave undetermined is a free value. DESIGN CHOICE, log entries 6 and 53. -/
def State.solveS1 (s : State) (r : CalRun) (po pg z : List Rat) : (List Rat × List Rat) × State :=
  let free := s.drawRats 50
  let fill := free.1.zipIdx.map fun x =>
    if x.2 < 24 then (if r.seen (x.2 + 1) then x.1 else po.getD x.2 0)
    else if r.seen (x.2 - 23) then x.1 else pg.getD (x.2 - 24) 0
  let x := solveFill 50 fill (normalEqs 50 (r.equations po pg z))
  ((x.take 24, x.drop 24), free.2)

/-- The solve of R127. The starting point is what the deltas in force are, and S1 and S2 give what must be added to it, since
their codes carry those deltas (DEDUCED, log entry 53). A term that only a source disabled or without data determines keeps the value in force; so does
the gain of a channel whose cell voltage spans less than CAL_SPAN. -/
def State.solveRun (s : State) (k : Nat) (d : Die) (r : CalRun) : Solved × State :=
  let ctrl := s.regF 0x04 k 0
  let s1 := bit ctrl 1 && !r.dwells.isEmpty
  let s2 := bit ctrl 2 && decide (r.s2.getD 0 0 ≠ 0)
  let s3 := bit ctrl 3 && !r.s3.isEmpty
  let g4 := if bit ctrl 4 then restSlopes d.cal.rests (s.cellsOn k) else none
  let zc := if s3 then Config.zenerTerm d.cal.ageing r.s3 else d.cal.zc
  let z := [0, 1].map fun i => (meanOf ((r.zeros.filter fun x => x.1 == i).map (·.2))).getD 0
  let spareOfs := [0, 1].map fun i => d.cal.ofs.getD (24 + i) 0 - (if s1 then z.getD i 0 else 0)
  let x := if s1 then s.solveS1 r d.cal.ofs ((d.cal.gain.take 26).map (· - d.cal.zc)) z else ((d.cal.ofs.take 24, []), s)
  let spanMin : Rat := (bits ctrl 15 8 : Rat) / 100
  let gains := (List.range 26).map fun i =>
    let held := d.cal.gain.getD i 0
    if !s1 then zc + (held - d.cal.zc)
    else if r.span (i + 1) < spanMin then held
    else zc + x.1.2.getD i 0
  let f := fitStack r.s2
  let g29 := d.cal.gain.getD 28 0 - d.cal.zc + f.2.1
  let ofs := x.1.1 ++ spareOfs ++ [0, 0, d.cal.ofs.getD 28 0 + (if s2 then f.1 else 0)]
  let gain := gains ++ [zc, zc, if s2 then zc + g29 else d.cal.gain.getD 28 0]
  let valid := (List.range 29).map fun i => !(i < 24 && d.prec.held.contains (i + 1))
  ({ cand := { ofs := ofs, gain := gain, valid := valid }, zc := zc, g4 := g4, resid := if s2 then f.2.2 else 0,
     g29 := if s2 then g29 else 0, sources := b2n s1 + 2 * b2n s2 + 4 * b2n s3 + 8 * b2n g4.isSome }, x.2)

/-- The candidate is rejected as a whole (R128). -/
def Solved.rejected (x : Solved) (zcForce tolG : Rat) : Bool :=
  decide (100 < rabs x.g29) || decide (2500 * 24 / 1000000000000 < x.resid) || decide (5 * tolG < rabs (x.zc - zcForce))

/-- Channel c of run k against the run before (R129): accepted or not. -/
def acceptChannel (x : Solved) (prev : Cand) (tolO tolG : Rat) (c : Nat) : Bool :=
  let i := c - 1
  let o := x.cand.ofs.getD i 0
  let g := x.cand.gain.getD i 0
  let po := prev.ofs.getD i 0
  let pg := prev.gain.getD i 0
  let scale : Rat := if c = 29 then 10 else 1
  let bound : Rat := if c = 29 then 25 / 10000 else 25 / 100000
  let ofsOk := c = 27 || c = 28 || (decide (rabs (o - po) ≤ tolO * scale) && decide (rabs ((o + po) / 2) ≤ bound))
  let s4Ok := if 24 < c then true else
    match x.g4 with
    | none => true
    | some l => decide (rabs (l.getD i 0 + x.zc - g) ≤ tolG)
  ofsOk && decide (rabs (g - pg) ≤ tolG) && s4Ok && decide (rabs ((g + pg) / 2) ≤ 500)

/-- Accepted deltas, with the channels that they leave rejected, written to the older of the two slots (R134); a pending
power failure keeps them unwritten. -/
def CalState.save (c : CalState) (ofs gain : List Rat) (stale : List Bool) (now : Nat) (warned : Bool) : CalState :=
  if warned then { c with unsaved := true }
  else
    let slot : CalSlot :=
      { seq := ((c.slots.head?.map (·.seq)).getD 0 + 1) % 2 ^ 32, ofs := ofs, gain := gain, zc := c.zc, acceptAt := c.acceptAt,
        stale := stale, last := c.lastAccept, at_ := now, ok := true }
    { c with slots := (slot :: c.slots.filter (·.ok)).take 2, unsaved := false }

/-- CAL_SOLVE_COMPLETE (R127 to R130, R134, R139): the candidate is formed, paired and judged; accepted deltas
take effect at the first output-sample boundary after the solve. The common term of run k is in force once any channel is
accepted. An acceptance after a reference step restores the agreement (R34). DEDUCED, log entry 53. -/
def execCalSolveComplete (t k : Nat) (s : State) : Outcome :=
  let s := s.at_ t
  .next (s.onDie k fun d =>
    match d.cal.solving with
    | none => s
    | some r =>
      let tol := s.regF 0x04 k 4
      let tolO : Rat := (bits tol 15 0 : Rat) / 10000000
      let tolG : Rat := (bits tol 31 16 : Rat) / 10
      let sol := s.solveRun k d r
      let x := sol.1
      let s := sol.2
      let finish := fun (result acc rej : Nat) (c : CalState) =>
        let next := if s.runMay k d then some (CalRun.opened t) else none
        let s := s.modDie k fun d => { d with cal := { c with run := next, solving := none, lastResult := result, sources := x.sources } }
        let s := s.dieRecord k 0x0501 r.tBegin (calRecord s.pos k d.cal.runs r.tBegin r.tEnd result x.sources acc rej x.resid x.cand)
        let s := if acc ≠ 0 ∧ d.prec.refState = 1 then s.dieEvent k { source := 16, subkind := 3 } else s
        if acc = 0 ∧ rej = 0 then s
        else s.dieEvent k { source := 19, subkind := if rej = 0 then 1 else if acc = 0 then 3 else 2, arg64 := acc + 2 ^ 32 * rej }
      if x.rejected d.cal.zc tolG then finish 6 0 0 d.cal
      else
        match d.cal.heldCand with
        | none => finish 7 0 0 { d.cal with heldCand := some x.cand }
        | some p =>
          let judged := (List.range 29).filter fun i => x.cand.valid.getD i false && p.valid.getD i false
          let good := judged.filter fun i => d.cal.frozen.isNone && acceptChannel x p tolO tolG (i + 1)
          let bad := judged.filter fun i => !good.contains i
          let mean := fun (a b : List Rat) (i : Nat) => (a.getD i 0 + b.getD i 0) / 2
          let ofs := d.cal.ofs.zipIdx.map fun y => if good.contains y.2 then mean x.cand.ofs p.ofs y.2 else y.1
          let gain := d.cal.gain.zipIdx.map fun y => if good.contains y.2 then mean x.cand.gain p.gain y.2 else y.1
          let stale := d.cal.stale.zipIdx.map fun y => if good.contains y.2 then false else if bad.contains y.2 then true else y.1
          let next : CalNext := { ofs := ofs, gain := gain, stale := stale, at_ := s.boundaryAfter k t, accepted := !good.isEmpty }
          let c := { d.cal with heldCand := some x.cand, next := some next,
                                zc := if good.isEmpty then d.cal.zc else x.zc, lastAccept := if good.isEmpty then d.cal.lastAccept else t,
                                acceptAt := d.cal.acceptAt.zipIdx.map fun y => if good.contains y.2 then some t else y.1 }
          let c := if good.isEmpty then c else c.save ofs gain stale t s.warned
          finish (if bad.isEmpty then 1 else if good.isEmpty then 3 else 2) (maskOf good) (maskOf bad) c)

/-- CAL_EXPIRY (R133): the last acceptance of channel Mc is 30 days old; the channel counts as rejected. -/
def execCalExpiry (t k c : Nat) (s : State) : Outcome :=
  let s := s.at_ t
  .next (s.onDie k fun d =>
    match d.cal.acceptAt.getD (c - 1) none with
    | none => s
    | some a =>
      if c = 0 ∨ 29 < c ∨ t < a + 30 * 86400 * 1000000000 ∨ d.cal.stale.getD (c - 1) true then s
      else
        (s.modDie k fun d =>
          { d with cal := { d.cal with stale := setNth (c - 1) true d.cal.stale,
                                       next := d.cal.next.map fun n => { n with stale := setNth (c - 1) true n.stale } } }).dieEvent k
          { source := 19, subkind := 4, arg64 := 2 ^ 32 * 2 ^ (c - 1) })

/-- A calibration reset of die k (R132, R139): every delta 0, those of M30 too, every channel rejected until a pair is
accepted. The zero deltas go to a slot, so that a restart does not bring the old ones back. Once both factory copies are
lost the last coefficients stay (R122). DEDUCED, log entry 53. -/
def State.resetCal (s : State) (k : Nat) : State :=
  ((s.modDie k fun d =>
    let zero := List.replicate 29 (0 : Rat)
    let all := List.replicate 29 true
    let c := { d.cal with ofs := zero, gain := zero, zc := 0, next := none, stale := all }
    { d with cal := c.save zero zero all s.now s.warned,
             seq := { d.seq with m30 := d.seq.m30.map fun (x : M30Cal) => { x with ofs := 0, gain := 0, rejected := true } } })
      |>.discardRun k s.now false).dieEvent k { source := 19, subkind := 5, arg64 := 2 ^ 32 * (2 ^ 29 - 1) }

/-- The calibration block swapped on die k (R132). -/
def State.swapCal (s : State) (k : Nat) : State :=
  if !s.blockDiffers 0x04 k then s
  else
    (s.takeBlock 0x04 k).discardRun k (s.boundaryAfter k s.now) false

/-- Service starts (R133): the path of a part that has left BLANK runs for the first time; every channel counts as
rejected from then on. -/
def State.startService (s : State) (k : Nat) : State :=
  s.modDie k fun d =>
    if d.cal.served.isSome || s.trust.life == 0 then d
    else { d with cal := { d.cal.reject with served := some s.now } }

/-- The deltas read back from the newer valid slot at a start (R134): an acceptance that could not be written is lost, and
the channels that it concerned resume from the slot's deltas and acceptance times. -/
def State.loadCal (s : State) (k : Nat) : State :=
  s.onDie k fun d =>
    let slot := d.cal.slots.find? (·.ok)
    let ofs := (slot.map (·.ofs)).getD (List.replicate 29 0)
    let gain := (slot.map (·.gain)).getD (List.replicate 29 0)
    let at_ := (slot.map (·.acceptAt)).getD (List.replicate 29 none)
    let lost := (List.range 29).filter fun i => d.cal.acceptAt.getD i none != at_.getD i none
    let old := (slot.map (·.stale)).getD (List.replicate 29 true)
    let aged := fun (i : Nat) => match at_.getD i none with | some a => decide (a + 30 * 86400 * 1000000000 ≤ s.now) | none => true
    let s1 := s.modDie k fun d =>
      { d with cal := { d.cal with ofs := ofs, gain := gain, acceptAt := at_, zc := (slot.map (·.zc)).getD 0,
                                   lastAccept := (slot.map (·.last)).getD 0, next := none, unsaved := false,
                                   stale := d.cal.stale.zipIdx.map fun x =>
                                     if lost.contains x.2 then old.getD x.2 true || aged x.2 else x.1 } }
    if d.cal.unsaved then s1.dieEvent k { source := 19, subkind := 6, arg64 := maskOf lost } else s1

/-! ### PRECISION_SAMPLE -/

/-- What the boundary that ends at this instant brings: swaps of the precision and of the sequence block, and the start of
service (R46, R116, R133). -/
def State.atSample (s : State) (k : Nat) : State := ((s.takePrec k).adoptSeq k).startService k

/-- PRECISION_SAMPLE (R36): `v` holds the filter outputs of M1 to M29 in volts, `ovl` their overloads,
`tj` the junction temperature, `bal` each channel's balance current as its weighted mean over the impulse. -/
def execPrecisionSample (t k : Nat) (v : List Rat) (ovl : List Overload) (tj : Int) (bal : List Rat) (s : State) : Outcome :=
  let s := s.at_ t
  .next (s.onDie k fun d =>
    if !(d.prec.running && d.precOn && s.inRunDoze) then s
    else
      let s := (s.modDie k fun d => { d with prec := { d.prec with temp := tj } }).atSample k
      if t % s.periodOf k ≠ 0 then s
      else
        let s := s.applyCap k
        (s.onDie k fun d => s.precSample k d v ovl bal).stepAt k)

end Sys2Proof.Machine
end

