-- ==== Sys2Proof/Machine/CurrentBlock.lean ====
section
/-! DEFINITION. The current stream (R149 to R151): blocks sent, received and missing. -/

namespace Sys2Proof.Machine

/-- Die k counts the block of T0 as missing once CUR_WAIT_MS has passed without it; the thousandth in a row is a lost
source (R151). -/
def State.missCurrentBlock (s : State) (t0 k : Nat) : State :=
  let s := s.adoptImp k
  s.onDie k fun d =>
    let i := d.imp
    if !s.impEn k || !d.dspOn || d.prot.protOnly || i.seenT0.contains t0 || s.now < t0 + 1000000 + s.fF 0x05 k 4 31 16 * 1000000 then s
    else
      let lost := i.missRun + 1 == 1000
      let s := s.modDie k fun d =>
        { d with imp := { i with curMiss := satInc 8 i.curMiss, missRun := i.missRun + 1, curOk := i.curOk && !lost,
                                 seenT0 := (t0 :: i.seenT0).take 2048 } }
      if lost then (s.dieEvent k { source := 22, subkind := 1 }).fastDomain k else s

/-- R_SH_EFF of a block joins the history of its changes by T0; a block behind later ones holds for its own millisecond
(R145, R151). -/
def noteRsh (late : Bool) (t0 r : Nat) : List (Nat × Nat) → List (Nat × Nat)
  | [] => [(t0, r)]
  | x :: xs =>
    if t0 < x.1 then x :: noteRsh late t0 r xs
    else if x.2 = r then x :: xs
    else if late then (t0 + 1000000, x.2) :: (t0, r) :: x :: xs
    else (t0, r) :: x :: xs

/-- The samples of a current block of T0 join the current stream (R150). The band-M and band-L samples carry the worst time
quality of the blocks that their support reaches (R154). DEDUCED, log entry 54. -/
def ImpState.joinBlock (i : ImpState) (t0 : Nat) (b : List Byte) : ImpState :=
  let st := rd b 5 1
  let fl := rd b 424 16
  let band := fun (n : Nat) => i.cur.getD n { last := 0, xs := [] }
  let h := (List.range 100).foldl
    (fun h q => Band.put (t0 / 10000 + q) (rdInt b (24 + 4 * q) 4, fl.testBit q, bits st 4 3) h) (band 2)
  let end_ := t0 / 10000 + 99
  let m := Band.put (t0 / 1000000) (rdInt b 440 8, bit st 6, h.worstTq end_ 298) (band 1)
  let l := if bit st 7 then Band.put (t0 / 100000000) (rdInt b 448 8, bit st 5, h.worstTq end_ 29998) (band 0) else band 0
  { i with cur := [l, m, h], rsh := (noteRsh (decide (end_ < (band 2).last)) t0 (rd b 16 4) i.rsh).take 4096, tauI := rd b 6 2, seenT0 := (t0 :: i.seenT0).take 2048 }

/-- A die whose IMP_SRC matches takes a current block; one that comes after CUR_WAIT_MS counts as missing and is not used
(R149, R151). -/
def State.takeCurrentBlock (s : State) (k : Nat) (b : List Byte) : State :=
  let s := s.adoptImp k
  s.onDie k fun d =>
    let src := s.impSrc k
    let t0 := rd b 8 8
    if !s.impEn k || !d.dspOn || src != (rd b 2 1, rd b 3 1, rd b 4 1) || d.imp.seenT0.contains t0 then s
    else if t0 + 1000000 + s.fF 0x05 k 4 31 16 * 1000000 < s.now then s.missCurrentBlock t0 k
    else
      let back := decide (1000 ≤ d.imp.missRun)
      let s := s.modDie k fun d => { d with imp := { d.imp.joinBlock t0 b with curOk := true, missRun := 0 } }
      (if back then s.dieEvent k { source := 22, subkind := 2 } else s).fastDomain k

/-- CURRENT_BLOCK_SEND (R149, R150): the hub of the current die broadcasts the block of the millisecond that
has ended, and its own dies take it too. -/
def execCurrentBlockSend (t : Nat) (s : State) : Outcome :=
  let s := s.at_ t
  let t0 := (t / 1000000 - 1) * 1000000
  match s.islands.find? fun k => s.isCurDie k with
  | none => .next s
  | some k =>
    let s := s.adoptImp k
    .next (s.onDie k fun d =>
      if !s.impRuns k d || !s.inRun || t < 1000000 || !s.hubTakes k then s
      else
        let b := s.currentBlock k d t0
        s.islands.foldl (fun s j => s.takeCurrentBlock j b) (s.originate 2 0x21 63 b))

/-- CURRENT_BLOCK_RECEIVE (R151): a current block reaches the part as a broadcast frame; one whose CHECK fails
counts as missing later. -/
def execCurrentBlockReceive (t : Nat) (bytes : List Byte) (s : State) : Outcome :=
  let s := s.at_ t
  let f := frameOf bytes
  let r := s.accept f
  let s := r.2
  .next (
    if r.1 = .deliver ∧ f.payload.length = 460 ∧ crc32cOk f.payload ∧ rd f.payload 0 2 = 0x0602 then
      s.islands.foldl (fun s k => s.takeCurrentBlock k f.payload) s
    else s)

/-- CURRENT_BLOCK_MISSING (R151): the block of T0 has not come within CUR_WAIT_MS; its samples stay flagged. -/
def execCurrentBlockMissing (t t0 : Nat) (s : State) : Outcome :=
  .next ((s.at_ t).islands.foldl (fun s k => s.missCurrentBlock t0 k) (s.at_ t))

end Sys2Proof.Machine
end

