-- ==== Sys2Proof/Machine/Validate.lean ====
section
/-! DEFINITION. The check of a set at a commit (R356): R55, R95, R110, R137, R165, R174, R197, R226, R247, R286, R317,
R389, R390 and R422, each offence at the register that R492 names. -/

namespace Sys2Proof.Machine

/-- A register of a set as it stands once it is in force: "write 0, read 0" bits read 0 (R9). -/
def regIn (m : List Host.Cell) (block target off : Nat) : Nat := cellWord m block target off &&& (cfgReg block target off).2

/-- Registers of a block that hold a "write 0, read 0" bit that is not 0. DEDUCED, log entry 19. -/
def strayRegs (m : List Host.Cell) (block target : Nat) : List Nat :=
  (m.filter fun c => decide (blockLo block target ≤ c.1) && decide (c.1 < blockHi block target) && (c.2 &&& cfgMask c.1) != c.2).map
    fun c => c.1 % 2 ^ 17 / 4 * 4

/-- The offsets whose offence holds. -/
def offences (l : List (Bool × Nat)) : List Nat := (l.filter (·.1)).map (·.2)

/-- A value lies outside a range. -/
def outside (v lo hi : Nat) : Bool := decide (v < lo) || decide (hi < v)

/-! ### The blocks of a die -/

/-- CHANNEL of every entry of the die's sequence table that runs (R105). -/
def seqChannels (m : List Host.Cell) (k : Nat) : List Nat :=
  ((List.range 64).filter fun i => bits (regIn m 0x03 k (0x100 + 16 * i)) 15 8 != 0).map fun i => bits (regIn m 0x03 k (0x100 + 16 * i)) 7 0

/-- Block 0x01 (R55). -/
def checkPrec (m : List Host.Cell) (k : Nat) (chans : List Nat) : List Nat :=
  let c := regIn m 0x01 k 0
  let en := regIn m 0x01 k 4
  let shunt := fun (i off : Nat) =>
    let src := bits (regIn m 0x01 k (off + 4)) 15 12
    [(bit en (24 + i) && outside (regIn m 0x01 k off) 10000 10000000, off),
     (bit en (24 + i) && src != 0 && (decide (8 < src) || !chans.contains src), off + 4)]
  offences ([(outside (bits c 31 16) 100 10000 || outside (bits c 15 8) 1 40 || decide (4 < bits c 2 0), 0),
             (bits en 23 0 == 0, 4), (bits (regIn m 0x01 k 8) 7 0 == 0, 8)] ++ shunt 0 0x00C ++ shunt 1 0x014)

/-- Block 0x02 of a die (R95). -/
def checkFast (m : List Host.Cell) (k : Nat) : List Nat :=
  let c := regIn m 0x02 k 0
  let mode := bits c 7 6
  let trig := bits c 5 4
  let pre := bits (regIn m 0x02 k 4) 15 0
  let post := regIn m 0x02 k 8
  let per := regIn m 0x02 k 0x010
  offences [(mode == 3 || trig == 3 || (mode == 2 && outside (bits c 31 16) 1 1000), 0),
            (decide ((if trig = 0 then 40000 else 39000) < pre) || (mode == 1 && pre + post == 0), 4), (decide (10000000 < post), 8),
            (bits (regIn m 0x02 k 0x00C) 15 0 == 0, 0x00C), (per != 0 && (trig != 0 || decide (per < pre + post)), 0x010)]

/-- What R100 allows of a channel: the GAIN codes, and any EXC or none; nothing for a value that is no channel. -/
def channelAllows (c : Nat) : Option (List Nat × Bool) :=
  if (1 ≤ c ∧ c ≤ 8) ∨ c = 0x80 then some ([0, 1, 2], true)
  else if 0x41 ≤ c ∧ c ≤ 0x58 then some ([0, 1], false)
  else if [0x10, 0x11, 0x18, 0x19, 0x20, 0x81, 0x90].contains c || (0x60 ≤ c && c ≤ 0x78) then some ([0], false)
  else none

/-- One entry of block 0x03 (R110). -/
def checkEntry (m : List Host.Cell) (k i : Nat) : List Nat :=
  let base := 0x100 + 16 * i
  let c := regIn m 0x03 k base
  let raw := fun (off : Nat) => cellWord m 0x03 k (base + off)
  let stray := fun (off : Nat) => raw off != regIn m 0x03 k (base + off)
  let mode := regIn m 0x03 k (base + 4)
  let ch := bits c 7 0
  let badMode := match channelAllows ch with
    | none => false
    | some x => !x.1.contains (bits mode 7 6) || (!x.2 && bits mode 5 4 != 0)
  let win := bit mode 9
  if bits c 15 8 = 0 then []
  else
    offences [((channelAllows ch).isNone || stray 0, base),
              (badMode || decide (4 < bits mode 2 0) || (win && ch == 0x81) || stray 4, base + 4),
              ((win && decide (signed 24 (regIn m 0x03 k (base + 12)) < signed 24 (regIn m 0x03 k (base + 8)))) || stray 8, base + 8),
              (stray 12, base + 12)]

/-- Block 0x04 (R137). -/
def checkCal (m : List Host.Cell) (k : Nat) : List Nat :=
  let c := regIn m 0x04 k 0
  let tol := regIn m 0x04 k 4
  offences [(outside (bits c 31 16) 60 4320 || outside (bits c 15 8) 5 100 || (bit c 0 && !bit c 1 && !bit c 3), 0),
            (outside (bits tol 31 16) 50 1000 || outside (bits tol 15 0) 20 320, 4)]

/-- The pairs of IMP_TPH in use (R164): phase by register. -/
def tphPairs (m : List Host.Cell) (k : Nat) : List Int :=
  (((List.range 8).map fun i => regIn m 0x05 k (0x020 + 4 * i)).takeWhile fun w => w != 0).map fun w => signed 16 w

/-- Block 0x05 (R165). -/
def checkImp (m : List Host.Cell) (k : Nat) (chans : List Nat) : List Nat :=
  let c := regIn m 0x05 k 0
  let src := regIn m 0x05 k 4
  let avg := regIn m 0x05 k 8
  let temp := regIn m 0x05 k 0x010
  let point := bits temp 5 0
  let pairs := tphPairs m k
  let used := point != 0x3F
  let map := fun (r : Nat) =>
    let w := regIn m 0x05 k (0x014 + 4 * r)
    ((List.range 8).any fun j =>
        let th := bits w (4 * j + 3) (4 * j)
        decide (8 < th) || (th != 0 && !chans.contains th), 0x014 + 4 * r)
  let rising := fun (i : Nat) => (used && decide (pairs.getD (i + 1) 0 ≤ pairs.getD i 0), 0x020 + 4 * (i + 1))
  offences ([(decide (10000 < bits c 31 16) || bits c 7 6 == 3 || (bit c 5 && regIn m 0x07 k 0x018 == 0), 0),
             (outside (bits src 31 16) 10 1000 || decide (7 < bits src 7 4) || bits src 1 0 == 3 ||
                (decide (62 < bits src 15 8) && bits src 15 8 != 255) ||
                (bit c 0 && (decide (62 < bits src 15 8) || bits src 7 4 == 0 || bits src 1 0 == 0)), 4),
             (bits avg 23 16 == 0 || bits avg 15 8 == 0 || bits avg 7 0 == 0, 8),
             (bits temp 15 8 == 0 || (decide (48 ≤ point) && decide (point ≤ 62)) || (used && decide (pairs.length < 2)), 0x010)] ++
            (List.range 3).map map ++ (List.range (pairs.length - 1)).map rising)

/-- Block 0x06 of a die with STATE_EN 1 (R197). -/
def checkState (m : List Host.Cell) (k : Nat) (chans : List Nat) : List Nat :=
  let c := regIn m 0x06 k 0
  let r := fun (off : Nat) => regIn m 0x06 k off
  let id := chans.contains 0x80 || chans.contains 0x81
  let therm := chans.any fun x => decide (1 ≤ x) && decide (x ≤ 8)
  let lim := r 4
  let time := r 8
  let cur := r 0x00C
  let learn := r 0x010
  let learn2 := r 0x014
  let th := r 0x024
  if !bit c 0 then []
  else
    offences [(bits c 27 24 == 0 || decide (62 < bits c 23 16) || outside (bits c 15 12) 1 7 || outside (bits c 11 10) 1 2 || (bit c 2 && !id) ||
                (bit c 3 && !therm), 0),
              (decide (bits lim 31 16 ≤ bits lim 15 0), 4),
              (bits time 31 24 == 0 || bits time 23 16 == 0 || bits time 15 8 == 0 || bits time 7 0 == 0, 8),
              (decide (bits cur 31 16 < 10) || bits cur 15 8 == 0 || bits cur 7 0 == 0, 0x00C),
              (outside (bits learn 31 24) 10 90 || bits learn 7 0 == 0 || decide (signed 8 (bits learn 15 8) ≤ signed 8 (bits learn 23 16)), 0x010),
              (outside (bits learn2 31 16) 1 8760 || outside (bits learn2 15 0) 1 1000, 0x014), (bits (r 0x020) 31 16 == 0, 0x020),
              (bits th 31 16 == 0 || bits th 15 0 == 0, 0x024)]

/-- Block 0x07 (R226). -/
def checkProt (m : List Host.Cell) (k : Nat) : List Nat :=
  let r := fun (off : Nat) => regIn m 0x07 k off
  let thr := r 0
  let hyst := r 4
  let time := r 8
  let bal := r 0x014
  let lim := r 0x01C
  let aux := r 0x020
  let ow := r 0x024
  let cells := bits (regIn m 0x01 k 4) 23 0
  let lacks := fun (w : Nat) => (List.range 24).any fun i => cells.testBit i && !w.testBit i
  offences [(decide ((bits thr 27 16 : Int) - bits hyst 15 8 ≤ (bits thr 11 0 : Int) + bits hyst 7 0), 0),
            (bits hyst 15 8 == 0 || bits hyst 7 0 == 0, 4),
            (bits time 15 12 == 0 || decide (0xD ≤ bits time 7 4) || decide (0xD ≤ bits time 3 0), 8), (lacks (r 0x00C), 0x00C),
            (lacks (r 0x010), 0x010),
            (outside (bits bal 31 22) 1 600 || outside (bits bal 21 17) 1 24 || bits bal 15 8 == 0 || (bit bal 4 && bit (regIn m 0x01 k 0) 6) ||
              (bits bal 3 2 == 2 && !bit (regIn m 0x06 k 0) 0), 0x014),
            (outside (bits lim 31 16) 1000 5000 || bits lim 15 0 == 0, 0x01C),
            (bits aux 31 16 == 0 || (bit bal 4 && decide (bits aux 15 0 < 100)), 0x020),
            (bits ow 23 16 == 0 || bits ow 15 8 == 0 || outside (bits ow 7 0) 1 20, 0x024)]

/-- Every offence in the blocks of die k, as BLOCK, TARGET and OFFSET. -/
def checkDie (m : List Host.Cell) (k : Nat) : List (Nat × Nat × Nat) :=
  let chans := seqChannels m k
  let at_ := fun (block : Nat) (l : List Nat) => l.map fun off => (block, k, off)
  at_ 0x01 (checkPrec m k chans) ++ at_ 0x02 (checkFast m k) ++ at_ 0x03 ((List.range 64).flatMap (checkEntry m k)) ++ at_ 0x04 (checkCal m k) ++
    at_ 0x05 (checkImp m k chans) ++ at_ 0x06 (checkState m k chans) ++ at_ 0x07 (checkProt m k)

/-! ### The blocks of the hub -/

/-- Block 0x11 (R247). -/
def checkPorts (m : List Host.Cell) : List Nat :=
  let port := fun (off : Nat) =>
    let c := regIn m 0x11 0 off
    (bit c 0 && outside (bits c 31 16) 120 10000, off)
  offences [port 0, port 4] ++ strayRegs m 0x11 0

/-- Channel of a hop in LINK_CHMAP (R285). -/
def chmap (m : List Host.Cell) (h : Nat) : Nat := bits (regIn m 0x12 0 (0x010 + 4 * (h / 16))) (2 * (h % 16) + 1) (2 * (h % 16))

/-- Block 0x12 (R286). -/
def checkLink (m : List Host.Cell) : List Nat :=
  let c := regIn m 0x12 0 0
  let rf := regIn m 0x12 0 4
  let parts := bits c 15 8
  let excl := bits rf 3 0
  let pwr := signed 8 (bits rf 15 8)
  let hop := fun (h : Nat) =>
    let ch := chmap m h
    let near := [(h + 1) % parts, (h + parts - 1) % parts].filter fun x => x != h
    (bit c 3 && (excl.testBit ch || near.any fun x => chmap m x == ch), 0x010 + 4 * (h / 16))
  offences ([(outside (bits c 31 16) 10 1000 || decide (63 < parts) || (bit c 3 && parts == 0), 0),
             (decide (pwr < -10) || decide (20 < pwr) || bits rf 5 4 == 3 || (bits rf 5 4 == 2 && excl != 0) || decide (1 < popCount excl 4), 4)] ++
            (List.range (min parts 63)).map hop) ++ strayRegs m 0x12 0

/-- Block 0x13 (R317). -/
def checkLocus (m : List Host.Cell) : List Nat :=
  let c := regIn m 0x13 0 0
  let ret := regIn m 0x13 0 4
  offences [(outside (bits c 31 24) 50 95 || outside (bits c 23 16) 10 90 || decide (bits c 15 8 < 10) || decide (bits c 31 24 ≤ bits c 23 16), 0),
            (decide (5475 < bits ret 31 16) || decide (5475 < bits ret 15 0), 4), (decide (64 < bits (regIn m 0x13 0 8) 31 16), 8)] ++
    strayRegs m 0x13 0

/-- Registers of the safety block that change in another field than ECON_DUTY and ECON_DELAY (R390). -/
def safetyChanges (a m : List Host.Cell) : List Nat :=
  (List.range 9).map (4 * ·) |>.filter fun off =>
    let f := fun (x : List Host.Cell) => if off = 0x010 then bits (regIn x 0x14 0 off) 15 0 else regIn x 0x14 0 off
    f a != f m

/-- Block 0x14 (R389, R390). -/
def checkSafe (a m : List Host.Cell) (outsOn : Bool) : List Nat :=
  let r := fun (off : Nat) => regIn m 0x14 0 off
  let c := r 0
  let so := r 0x010
  let host := r 0x018
  let disc := fun (off : Nat) => (outside (bits (r off) 31 16) 10 500 || outside (bits (r off) 15 0) 10 500, off)
  let en := bits so 2 0
  offences [(outside (bits c 31 16) 5 500 || outside (bits c 15 12) 1 10, 0), disc 4, disc 8, (outside (bits (r 0x00C) 15 0) 10 1000, 0x00C),
            (outside (bits so 31 24) 20 100 || bits so 23 16 == 0 ||
              ((List.range 3).any fun i => en.testBit i && (!(bits so 6 4).testBit i || !bit host 0)), 0x010),
            (decide (bits (r 0x014) 31 16 < 100), 0x014),
            (outside (bits host 31 16) 10 1000 || outside (bits host 15 8) 1 100 || (bit host 0 && decide (bits host 31 16 < 2 * bits host 15 8)), 0x018),
            (bit host 0 && r 0x01C == 0 && r 0x020 == 0, 0x01C)] ++
    strayRegs m 0x14 0 ++ (if outsOn then safetyChanges a m else [])

/-- Block 0x15 (R422). -/
def checkPower (m : List Host.Cell) : List Nat :=
  let c := regIn m 0x15 0 0
  let hold := regIn m 0x15 0 4
  let ext := regIn m 0x15 0 8
  let swp := bit (regIn m 0x11 0 0) 0 || bit (regIn m 0x11 0 4) 0
  offences [(decide (2 ≤ bits c 9 8) || bits c 31 24 == 0 || outside (bits c 23 16) 1 50, 0),
            (outside (bits hold 15 8) 27 50 || outside (bits hold 7 0) 1 25, 4),
            (outside (bits ext 31 16) 1 600 || (swp && !bit ext 0), 8)] ++ strayRegs m 0x15 0

/-! ### Chemistry profiles (R173, R174) -/

/-- Numbers of an axis or a table row rise strictly. -/
def risingBy {α : Type} (lt : α → α → Bool) : List α → Bool
  | [] => true
  | [_] => true
  | x :: y :: l => lt x y && risingBy lt (y :: l)

/-- A profile image meets R174. DEDUCED, log entry 19. -/
def profileOk (b : List Byte) : Bool :=
  let nt := rd b 12 1
  let nr := rd b 13 1
  let ns := rd b 14 1
  let u16 := fun (off i : Nat) => rd b (off + 2 * i) 2
  let u32 := fun (off i : Nat) => rd b (off + 4 * i) 4
  let head := rd b 0 4 == 0x31465250 && rd b 4 2 == 1 && rd b 8 4 == 24836 && rd b 24832 4 == crc32c (b.take 24832)
  let counts := !outside nt 2 16 && !outside nr 1 8 && !outside ns 2 64
  let reserved := bits (rd b 7 1) 7 1 == 0 && rd b 15 1 == 0 && rd b 28 4 == 0
  let soc := (List.range ns).map (u16 32)
  let unusedAx := ((List.range 64).drop ns).all (fun i => u16 32 i == 0) && ((List.range 16).drop nt).all (fun i => u16 160 i == 0 && u16 224 i == 0) &&
    ((List.range 8).drop nr).all fun i => u32 192 i == 0
  let axes := soc.head? == some 0 && soc.getLast? == some 10000 && risingBy (fun x y => decide (x < y)) soc &&
    risingBy (fun (x y : Int) => decide (x < y)) ((List.range nt).map fun i => signed 16 (u16 160 i)) &&
    risingBy (fun (x y : Int) => decide (x < y)) ((List.range nr).map fun i => signed 32 (u32 192 i))
  let hys := (List.range nt).all fun i => decide (u16 224 i ≤ 10000) && (bit (rd b 7 1) 0 || u16 224 i == 0)
  let rows := (List.range 16).all fun t =>
    let dis := (List.range ns).map fun i => u32 256 (64 * t + i)
    let chg := (List.range ns).map fun i => u32 4352 (64 * t + i)
    let spare := ((List.range 64).drop (if t < nt then ns else 0)).all fun i => u32 256 (64 * t + i) == 0 && u32 4352 (64 * t + i) == 0
    spare && (decide (nt ≤ t) || (risingBy (fun x y => decide (x < y)) dis && risingBy (fun x y => decide (x < y)) chg &&
      (List.zipWith (fun (x y : Nat) => decide (x ≤ y)) dis chg).all id))
  let res := (List.range 16).all fun t => (List.range 8).all fun r => (List.range 64).all fun i =>
    (u16 8448 (512 * t + 64 * r + i) != 0) == (decide (t < nt) && decide (r < nr) && decide (i < ns))
  head && counts && reserved && unusedAx && axes && hys && rows && res

/-- Block 0x16: the slots that enabled dies name (R174). -/
def checkProfiles (m : List Host.Cell) (islands : List Nat) : List Nat :=
  let slots := (islands.filter fun k => bit (regIn m 0x06 k 0) 0).map fun k => bits (regIn m 0x06 k 0) 9 8
  (slots.filter fun x => !profileOk (cellRead m (cfgAddr 0x16 0 (x * 0x6200)) 24836)).map (· * 0x6200)

/-! ### The check as a whole -/

/-- Every offence of a set, as BLOCK, TARGET and OFFSET (R356). -/
def checkSet (a m : List Host.Cell) (islands : List Nat) (outsOn : Bool) : List (Nat × Nat × Nat) :=
  let hub := fun (block : Nat) (l : List Nat) => l.map fun off => (block, 0, off)
  islands.flatMap (checkDie m) ++ hub 0x11 (checkPorts m) ++ hub 0x12 (checkLink m) ++ hub 0x13 (checkLocus m) ++
    hub 0x14 (checkSafe a m outsOn) ++ hub 0x15 (checkPower m) ++ hub 0x16 (checkProfiles m islands)

/-- Order of report: the lowest BLOCK, then TARGET, then OFFSET (R356). -/
def offenceRank (x : Nat × Nat × Nat) : Nat := x.1 * 2 ^ 20 + x.2.1 * 2 ^ 17 + x.2.2

/-- The offence that is reported, if there is one. DEDUCED, log entry 18. -/
def firstOffence (l : List (Nat × Nat × Nat)) : Option (Nat × Nat × Nat) :=
  l.foldl (fun m x => match m with | none => some x | some y => if offenceRank x < offenceRank y then some x else some y) none

/-- RESULT of CONFIG_INVALID (R350). -/
def offenceResult (x : Nat × Nat × Nat) : Nat := fld 24 8 x.1 + fld 16 8 x.2.1 + x.2.2 / 4 % 65536

end Sys2Proof.Machine
end

