-- ==== Sys2Proof/Machine/SafeOps.lean ====
section
/-! DEFINITION. Shared operations of the safety layer: the condition of the FAULT heartbeat (R205), safety frames
(R381), the contactor outputs (R365, R373), the lock-out (R375 to R377), and the hub's action on a fault notice
and on a lost die (R18, R205, R383). -/

namespace Sys2Proof.Machine

/-! ### The condition of the heartbeat (R205) -/

/-- No comparator of the die is tripped and no fault of KIND 0x03 or 0x04 stands (R205). -/
def ProtState.calm (p : ProtState) : Bool :=
  p.ov.all (fun c => !c.tripped) && p.uv.all (fun c => !c.tripped) && p.rbFault.all (fun b => !b) &&
    p.swFault.all (fun b => !b) && p.wire == 0

/-- The condition of R205 of a part: every die calm and ready, none lost. -/
def State.protCalm (s : State) : Bool :=
  s.islands.all fun k =>
    match s.die? k with
    | none => true
    | some d => d.prot.calm && (d.prot.ready || !d.prot.aonOn) && !d.lost

/-- Some die has not yet been ready since its AON-C power-up (R203). -/
def State.notReady (s : State) : Bool :=
  s.islands.any fun k => match s.die? k with | none => false | some d => d.prot.aonOn && !d.prot.ready

/-- The FAULT heartbeat may run: the part is in RUN or DOZE, in a role, serving, calm, and at a gateway without a
lock-out (R23, R205, R376, R480). -/
def State.heartMay (s : State) : Bool :=
  !s.conflict && s.inRunDoze && s.part.serving && !s.part.hubHeld && s.protCalm && !(s.isGateway && s.safe.lockout)

/-! ### Safety frames (R381) -/

/-- A field of the safety block in force. -/
def State.sF (s : State) (off hi lo : Nat) : Nat := s.fF 0x14 0 off hi lo

/-- SSTATE of a frame of this part (R381, R382). -/
def State.sstate (s : State) : Nat :=
  fld 7 1 (b2n !s.protCalm) + fld 6 1 (b2n s.notReady) + fld 4 2 s.tq

/-- What a fault frame says of its fault (R381). -/
structure FaultInfo where
  kind : Nat := 0
  which : Nat := 0
  island : Nat := 0
  position : Nat := 0
  seq : Nat := 0
  tOrigin : Nat := 0
deriving DecidableEq, Repr

/-- The 32 bytes of a safety frame (R381). -/
def safetyBytes (conn seq expect msg sstate : Nat) (f : FaultInfo) (aux : Nat) : List Byte :=
  let m := le 2 conn ++ le 2 seq ++ le 4 expect ++ le 1 msg ++ le 1 sstate ++ le 1 f.kind ++ le 1 f.which ++
    le 1 f.island ++ le 1 f.position ++ le 2 f.seq ++ le 8 f.tOrigin ++ le 4 aux
  m ++ le 4 (Poly.crc32.check m)

/-- CONN_ID of a position (R381). -/
def State.connId (s : State) (pos : Nat) : Nat := fld 6 10 (s.sF 0x014 9 0) + fld 0 6 pos

/-- A safety frame of this part, handed over now, and the part with its count advanced. -/
def State.formSafety (s : State) (msg : Nat) (f : FaultInfo) (aux : Nat) (mailbox : Bool) : List Byte × State :=
  let expect := if mailbox then 0 else (s.now / 1000 + s.sF 0x014 31 16) % 2 ^ 32
  (safetyBytes (s.connId s.pos) s.safe.sfSeq expect msg s.sstate f aux,
   { s with safe := { s.safe with sfSeq := (s.safe.sfSeq + 1) % 65536 } })

/-- A module part sends a safety frame to the gateway as TC0 kind 0x04 (R383). -/
def State.sendSafety (s : State) (msg : Nat) (f : FaultInfo) : State :=
  if s.isModule then
    let r := s.formSafety msg f 0 false
    r.2.originate 0 0x04 0 r.1
  else s

/-! ### The FAULT heartbeat -/

/-- The heartbeat stops; the pad becomes high-impedance (R205). -/
def State.heartStop (s : State) : State :=
  let s := { s with safe := { s.safe with reported := true } }
  if s.safe.heartbeat then
    let s := { s with safe := { s.safe with heartbeat := false } }
    (s.emit (.pad 6 0)).event { source := 5, subkind := 1 }
  else s

/-- The heartbeat starts or resumes once the condition of R205 holds (R203, R205); a module part then sends its
fault-cleared frame (R383). -/
def State.heartResume (s : State) : State :=
  if s.safe.heartbeat || !s.heartMay then s
  else
    let s1 := { s with safe := { s.safe with heartbeat := true, heartRan := true, reported := false } }
    let s1 := s1.emit (.pad 6 1)
    let s1 := if s.safe.heartRan then s1.event { source := 5, subkind := 2 } else s1
    if s.safe.reported then s1.sendSafety 0x03 {} else s1

/-! ### Inputs and outputs -/

/-- Input k of 0 to 3 is enabled (R388). -/
def State.inEnabled (s : State) (i : Nat) : Bool := bit (s.sF 0x000 11 8) i
/-- Input i is antivalent (R368). -/
def State.inAnti (s : State) (i : Nat) : Bool := bit (s.sF 0x000 7 4) i

/-- State of an input (R368): 0 run, 1 demand, 2 disagreement, 3 no level formed since power-up. -/
def SafeIn.st (x : SafeIn) (anti : Bool) : Nat :=
  if !x.a.formed || !x.b.formed then 3
  else if x.a.level && (x.b.level != anti) then 0
  else if !x.a.level && (x.b.level == anti) then 1
  else 2

/-- State of input i. -/
def State.inSt (s : State) (i : Nat) : Nat := ((s.safe.ins[i]?).map fun x => x.st (s.inAnti i)).getD 3

/-- The inputs that are enabled and not in run: in demand for R365. -/
def State.inDemand (s : State) : Bool := (List.range 4).any fun i => s.inEnabled i && s.inSt i != 0

/-- Output k, 0 to 2, is supervised and may be requested (R365). -/
def State.outEnabled (s : State) (k : Nat) : Bool :=
  bit (s.sF 0x010 2 0) k && bit (s.sF 0x010 6 4) k && s.fB 0x14 0 0x018 0

/-- Output k conducts. -/
def State.outOn (s : State) (k : Nat) : Bool := ((s.safe.outs[k]?).map (·.on)).getD false

/-- Some output is on. -/
def State.anyOut (s : State) : Bool := s.safe.outs.any (·.on)

/-- FBk shows closed (R374). -/
def State.fbClosed (s : State) (k : Nat) : Bool :=
  match s.safe.outs[k]? with
  | none => false
  | some o => o.fb.formed && (o.fb.level == bit (s.sF 0x010 10 8) k)

/-- Positions 1 to PARTS − 1, as far as the link has enumerated them. -/
def State.positions (s : State) : List Nat := (List.range (s.chainParts - 1)).map (· + 1)

/-- The watchdog of a position. -/
def State.watchOf (s : State) (p : Nat) : WatchPos :=
  s.safe.watch.getD p
    { armed := false, failed := false, lastAt := 0, lastSeq := none, sstate := 0, kind := 0, errAt := [] }

/-- Supervision of R365. -/
def State.supervised (s : State) : Bool :=
  s.positions.all fun p =>
    let w := s.watchOf p
    w.armed && !w.failed && !bit w.sstate 6

/-- A pending commit changes a field of the safety block other than ECON_DUTY and ECON_DELAY (R365, R390). -/
def State.pendSafety (s : State) : Bool := s.cfg.pend.isSome && !(safetyChanges s.cfg.a s.cfg.b).isEmpty

/-- Every condition of R365 for output k but its request and the pending commit, which keeps an output from being
switched on and does not switch one off (R390). -/
def State.outAllowed (s : State) (k : Nat) : Bool :=
  s.isGateway && s.inRunDoze && !s.warned && s.part.serving && !s.part.hubHeld && s.power.vauxOk &&
    s.outEnabled k && !s.safe.lockout && !s.inDemand && s.safe.hostOk && s.supervised &&
    ((s.safe.outs[k]?).map fun o => o.edge && !o.overcurrent).getD false

/-- The times that count for self-test brought up to now (R461, R464). -/
def State.accrueTest (s : State) : State :=
  let f := fun (y : SelfTest × Nat) =>
    let x := y.1
    let dt := if y.2 = 0 && !s.part.serving then 0 else s.now - x.countedAt
    { x with countedAt := s.now, runTime := x.runTime + (if s.inRun then dt else 0), liveTime := x.liveTime + (if s.inRunDoze then dt else 0),
             offTime := x.offTime + (if s.inRun && !s.anyOut then dt else 0) }
  { s with selfTest := s.selfTest.zipIdx.map f }

/-- The part enters DOZE (R404, R414): the fast paths stop with the cluster clock. -/
def State.doze (s : State) : State :=
  let s := s.accrueTest
  let s := { s with power := { s.power with st := 1, lastSt := 1 } }
  s.islands.foldl (fun s k => (s.fastDomain k).closeFastStreams k) s

/-- An output switched. -/
def State.setOut (s : State) (k : Nat) (on : Bool) : State :=
  if s.outOn k = on then s
  else
    let s := s.accrueTest
    let s := { s with safe := { s.safe with outs := modNth (fun o =>
      { o with on := on, since := s.now, switched := true, econ := false, duty := if on then 100 else 0, openLoad := false,
               confirmed := false, wrongSince := none }) k s.safe.outs } }
    s.emit (.pad (k + 1) (b2n on))

/-- Every output switched off. -/
def State.outsOff (s : State) : State := (List.range 3).foldl (fun s k => s.setOut k false) s

/-- Each output conducts exactly while R365 holds for it. -/
def State.evalOuts (s : State) : State :=
  (List.range 3).foldl
    (fun s k =>
      if s.outOn k then (if s.outAllowed k && bit s.safe.req k then s else s.setOut k false)
      else if s.outAllowed k && bit s.safe.req k && !s.pendSafety then s.setOut k true
      else s) s

/-! ### Lock-out (R375 to R377) -/

/-- Lock-out latched on a cause: the outputs switch off, the heartbeat stops, source 6 is raised, and the lock-out
is stored (R375, R376). Of several causes at one instant the lowest is recorded. -/
def State.latch (s : State) (cause : Nat) : State :=
  if !s.isGateway then s
  else
    let seq := (s.safe.loSlots.foldl (fun m x => max m x.1) 0) + 1
    if s.safe.lockout then
      if s.safe.loTime = s.now ∧ cause < s.safe.loCause then
        { s with safe := { s.safe with loCause := cause, loSlots := (s.safe.loSlots ++ [(seq, cause + 1, s.now)]).drop (s.safe.loSlots.length - 1) } }
      else s
    else
      let s := { s with safe := { s.safe with
        lockout := true, loCause := cause, loTime := s.now, persisted := false,
        loSlots := (s.safe.loSlots ++ [(seq, cause + 1, s.now)]).drop (s.safe.loSlots.length - 1) } }
      let s := s.outsOff.heartStop
      s.event { source := 6, subkind := 1, arg16 := cause }

/-- The conditions of R377. -/
def State.releasable (s : State) : Bool :=
  s.protCalm &&
    (s.positions.all fun p => let w := s.watchOf p; !bit w.sstate 7 && w.kind = 0 && w.armed && !w.failed) &&
    ((List.range 4).all fun i => !s.inEnabled i ||
      (s.inSt i == 0 && !((s.safe.ins[i]?).map (·.needDemand)).getD false)) &&
    ((List.range 3).all fun k => !bit (s.sF 0x010 6 4) k || !s.fbClosed k) &&
    s.safe.tests.all (fun x => !x.standing) && s.inRunDoze

/-- A lock-out released (R378 to R380): every request bit must be seen at 0 again. -/
def State.releaseLockout (s : State) : State :=
  let seq := (s.safe.loSlots.foldl (fun m x => max m x.1) 0) + 1
  let cause := s.safe.loCause
  let s := { s with safe := { s.safe with
    lockout := false, persisted := false,
    loSlots := (s.safe.loSlots ++ [(seq, 0, s.now)]).drop (s.safe.loSlots.length - 1),
    outs := s.safe.outs.map fun (o : SafeOut) => { o with edge := false, overcurrent := false } } }
  (s.event { source := 6, subkind := 2, arg16 := cause }).heartResume

/-! ### Faults of the part's own dies (R18, R205, R383) -/

/-- The safety layer takes a fault of an own die: a gateway latches lock-out, a module part sends a fault frame. -/
def State.ownFault (s : State) (f : FaultInfo) : State :=
  if s.isGateway then s.latch (f.kind - 1) else s.sendSafety 0x02 { f with position := s.pos }

/-- The hub acts on the first copy of a fault notice (R205): source 0 to 3, the fault triggers of R83, the
heartbeat, the safety layer, and the notice itself broadcast for R83. A protection trip of the part is a notice of KIND up to 2;
a notice of any KIND counts as one of the chain. DEDUCED, log entry 51. -/
def State.takeNotice (s : State) (k : Nat) (b : List Byte) : State :=
  let kind := rd b 0 1
  let which := rd b 1 1
  let t := rd b 4 8
  let seq := rd b 12 2
  let err := match s.die? k with | some d => d.prot.rbErr.getD (which - 1) 0 | none => 0
  let arg := if kind ≤ 2 then seq else if kind = 3 then unsignedBits 16 err else 0
  let s := s.eventAt { source := kind - 1, island := k, subkind := 1, item := which, arg16 := arg } t none
  let s := if kind ≤ 2 then
      let h := s.trust.history
      { s with trust := { s.trust with history := { h with trips := h.trips + 1 } } }
    else s
  let s := if kind ≤ 2 then s.islands.foldl (fun s j => s.faultTrigger j t false) s else s
  let s := s.heartStop
  let s := s.ownFault { kind := kind, which := which, island := k, seq := seq, tOrigin := t }
  if s.conflict then s else s.originate 0 0x03 63 b

end Sys2Proof.Machine
end

