-- ==== Sys2Proof/Machine/DieOps.lean ====
section
/-! DEFINITION. Shared operations on a whole cell die: a pending commit cancelled (R360), the PREC and DSP domains
switched off and on (R404, R405, R495), protection-only mode (R468), the balance keep-alive (R218) and what a
power-up BIST reports (R465, R466). -/

namespace Sys2Proof.Machine

/-- A pending commit cancelled (R360): its COMMIT completes with COMMIT_CANCELLED. -/
def State.cancelPend (s : State) : State :=
  match s.cfg.pend with
  | none => s
  | some p =>
    let s := { s with cfg := { s.cfg with pend := none } }
    (s.complete p.cmd .commitCancelled 0).evalOuts

/-! ### BIST results (R465, R466, R495, R496) -/

/-- What the BIST operand says: bit 0 a logic BIST that failed, bit 1 an unrepairable memory, bit 3 a row repaired
from the spares, bits 7 to 4 check units whose known-answer test failed, bits 15 to 8 the failing bit, and from
bit 16 the failing address. -/
structure Bist where
  logicFail : Bool
  unrepairable : Bool
  repaired : Bool
  chkFail : Nat
  failBit : Nat
  failAddr : Nat
deriving DecidableEq, Repr

/-- The BIST operand of a command. -/
def bistOf (n : Nat) : Bist :=
  { logicFail := bit n 0, unrepairable := bit n 1, repaired := bit n 3, chkFail := bits n 7 4, failBit := bits n 15 8,
    failAddr := n / 65536 }

/-- A BIST passes when its logic test does and every memory passes or is repaired. -/
def Bist.pass (b : Bist) : Bool := !b.logicFail && !b.unrepairable

/-- A failing address reported: source 62 and the registers of R473 (R466). -/
def State.reportMemory (s : State) (k block : Nat) (b : Bist) : State :=
  if !b.repaired && !b.unrepairable then s
  else
    let s := s.modTest 0 fun x => { x with failAddr := b.failAddr, failBlock := block, failIsland := k, failBit := b.failBit }
    let s := if b.repaired then s.modTest k fun x => { x with spares := x.spares - 1 } else s
    s.event { source := 62, island := k, item := k, arg16 := b.failBit, arg64 := b.failAddr }

/-- Source 60 for a failed block of the hub or of a die (R467). -/
def State.testFailed (s : State) (k block : Nat) : State :=
  if k = 0 then s.event { source := 60, arg16 := block } else s.dieEvent k { source := 60, item := k, arg16 := block }

/-- A check unit as after power-up (R496). -/
def ChkUnit.fresh (ok : Bool) : ChkUnit :=
  { busy := false, poly := 3, crc := 0, result := 0, hostAlive := 0, fed := 0, alive := 0, byHost := false, ok := ok, waiting := [] }

/-! ### PREC and DSP (R404, R405) -/

/-- What die k counts since a reset begins again: at a reset of the part, and when its DSP domain loses its supply (R89, R97,
R119, R138, R166, R227, R473); IMP_STAT returns to its reset value with its current source and its group. LAST_RESULT and
SOURCES stay, as the outcome of the last run: only RUNS counts since a reset. DEDUCED, log entry 57. -/
def Die.countsReset (d : Die) : Die :=
  { d with fast := { d.fast with nextId := 0, dropTotal := 0, trigMissed := 0 }, seq := { d.seq with skips := 0 },
           cal := { d.cal with runs := 0 }, imp := { d.imp with segRej := 0, curMiss := 0, curOk := false, missRun := 0, group := 0, injActive := false, injAvg := none },
           prot := { d.prot with hubQ := 0 } }

/-- Slices counted since a reset. -/
def SelfTest.countsReset (x : SelfTest) : SelfTest := { x with done := 0, incomplete := 0 }

/-- Nothing is scheduled or injected until a keep-alive comes: so a die starts after a power-up of PREC and after a reset of
the part (R218). -/
def Die.awaitKeepAlive (d : Die) : Die :=
  { d with prot := { d.prot with timeout := true, kaDue := false, order := [],
                                 chans := d.prot.chans.map fun (c : Chan) => { c with sched := false, inj := false } } }


/-- Power is lost at this instant: the calibration and the learned state that die k was just writing to hub MRAM stay
incomplete and fail their CRC-32C; the older slots stay valid (R134, R187). DEDUCED, log entry 53. -/
def Die.tearWrites (now : Nat) (d : Die) : Die :=
  { d with cal := { d.cal with slots := d.cal.slots.map fun (x : CalSlot) => if x.at_ = now then { x with ok := false } else x,
                               unsaved := d.cal.unsaved || d.cal.slots.any fun x => x.at_ == now },
           est := { d.est with slots := d.est.slots.map fun (x : StateSlot) => if x.at_ = now then { x with ok := false } else x } }

/-- The PREC and DSP domains of die k switch off: the fast path stops, capture SRAM and T0 are lost, the sequencer
stops, the calibration run is discarded and its held candidate kept, every channel is off. -/
def State.precOff (s : State) (k : Nat) : State :=
  s.onDie k fun d =>
    if !d.precOn then s
    else
      let s := (((s.abortSlice k).fastOff k).discardRun k s.now true).modDie k fun d =>
        let d := d.countsReset.awaitKeepAlive
        { d with cal := { d.cal with run := none }, precOn := false, dspOn := false, t0 := [], t0Drop := 0, t0Events := [],
                 prec := { d.prec with running := false, window := none, cover := [] },
                 fast := { d.fast with ring := [], cap := none, drain := [], startedAt := none },
                 seq := { d.seq with running := false, cur := none, urgent := false, sliceHeld := false, sliceMark := false },
                 imp := d.imp.begin, est := { d.est with quietAt := none, restAt := none, lastRest := none },
                 prot := { d.prot with owRun := none } }
      (s.modTest k SelfTest.countsReset).settleChannels k

/-- The precision path of die k starts (R30, R45, R49, R51, R62, R126). -/
def State.precStart (s : State) (k : Nat) : State :=
  let s := ((((s.takeBlock 0x01 k).takeBlock 0x03 k).takeBlock 0x04 k).takeBlock 0x05 k).takeRange 0x07 k 0x14 0xE0
  let s := s.policyTaken k
  let order := filtOrder (s.filtOf k)
  let first := s.boundaryAfter k s.now
  (s.modDie k fun d =>
    let d := d.discardRun s.now (s.runMay k d) true
    { d with tq := 3,
             prot := { d.prot with
        lastSweep := s.now, rbDone := [s.now / 10000000000, s.now / 10000000000], owRun := none, monAt := s.now,
        chans := d.prot.chans.map fun (c : Chan) => { c with onMs := 0, mas := 0 } },
             prec := { d.prec with
        running := true, seq := 0, settle := List.replicate 29 order, settleOvr := List.replicate 29 0,
        sync := true, swapAt := none, spareCell := [1, 13], spareStep := [s.now, s.now], cover := [], refSum := 0,
        refCount := 0, refClean := true, refPrev := none, refAt := s.now, refFirst := true, warm := true, upAt := s.now, gateStart := first,
        gateFlow := List.replicate 24 false, window := none, gatedE := none, prevBal := List.replicate 24 0, prevCode := List.replicate 24 none,
        lastWords := List.replicate 27 disabledWord, secs := [], blks := [], shunts := [], lastShunt := [0, 0], rshEnds := [] } }).startService k

/-- The factory record read at a power-up (R122): bit 0 of `copies` is set when the fuse copy fails its check, bit 1 when
the MRAM copy does. With both lost the last coefficients formed stay for good. -/
def State.readFactory (s : State) (k copies : Nat) : State :=
  s.onDie k fun _ =>
    let fuse := !bit copies 0
    let mram := !bit copies 1
    let s := s.modDie k fun d => { d with cal := { d.cal with fuseOk := fuse, mramOk := mram } }
    if fuse then s
    else if mram then s.dieEvent k { source := 18, subkind := 1 }
    else
      (s.modDie k fun d => { d with cal := { d.cal with
        frozen := some (d.cal.frozen.getD (d.cal.coefs d.seq.m30 d.prec.temp)), next := none,
        stale := List.replicate 29 true } }).dieEvent k { source := 18, subkind := 2 }

/-- Protection-only mode entered on die k (R468): only comparators, ticks and fault notices remain. -/
def State.enterProtOnly (s : State) (k : Nat) : State :=
  s.onDie k fun d =>
    if d.prot.protOnly then s
    else
      let s := (s.modDie k fun d => { d with prot := { d.prot with protOnly := true, owRun := none } }).stopFast k
      let s := (s.discardRun k s.now false).modDie k fun d =>
        { d with imp := d.imp.restart, seq := { d.seq with running := false, cur := none, sliceMark := false } }
      let s := (s.settleChannels k).cancelPend
      s.event { source := 63, island := k, item := k, subkind := 1 }

/-! ### Keep-alives (R218) -/

/-- The hub has a valid command: it sends a keep-alive to each die it reaches, at most once per 100 ms. -/
def State.noteValid (s : State) : State :=
  let due := match s.power.kaAt with | none => true | some a => decide (a + 100000000 ≤ s.now)
  if !due then s
  else
    let s := { s with power := { s.power with kaAt := some s.now } }
    s.modDies fun k d => if s.reach k && !d.lost then { d with prot := { d.prot with kaDue := true } } else d

/-- A keep-alive reaches die k: it clears TIMEOUT; scheduling resumes at the next step. -/
def State.keepAlive (s : State) (k : Nat) : State :=
  s.onDie k fun d =>
    if !d.prot.kaDue || !d.precOn then s
    else
      let s1 := s.modDie k fun d =>
        { d with prot := { d.prot with keepAt := s.now, kaDue := false, timeout := false, timeoutRaised := false } }
      if d.prot.timeoutRaised then s1.dieEvent k { source := 12, subkind := 2 } else s1

end Sys2Proof.Machine
end

