-- ==== Sys2Proof/Machine/Protection.lean ====
section
/-! DEFINITION. Comparators, fault notices, readbacks and open sense wires (R199 to R209, R219 to R224). -/

namespace Sys2Proof.Machine

/-! ### Comparators (R199 to R203, R206, R209) -/

/-- The tick of a code of R200 in ns; codes 0xD to 0xF are rejected at a commit. -/
def tickOf (code : Nat) : Nat :=
  [1, 2, 5, 10, 20, 50, 100, 200, 500, 1000, 2000, 5000, 10000].getD code 10000 * 1000000

/-- The tick in force of die k (R200): it follows the power state, and in OFF the last one. -/
def State.tickNs (s : State) (k : Nat) : Nat :=
  let st := if s.power.st = 4 then s.power.lastSt else s.power.st
  if st ≤ 1 then tickOf (s.fF 0x07 k 0x008 3 0)
  else if st = 2 then tickOf (s.fF 0x07 k 0x008 7 4)
  else tickOf 12

/-- A comparator as it stands while it does not run (R203). -/
def Comp.off : Comp := { tripped := false, runTrip := 0, runClear := 0, startCount := 3, starting := false, seq := 0 }

/-- A comparator at AON-C power-up (R203). -/
def Comp.atPowerUp (en : Bool) : Comp :=
  if en then { tripped := true, runTrip := 0, runClear := 0, startCount := 0, starting := true, seq := 0 } else Comp.off

/-- Thresholds, enables and debounce taken at the first tick after a swap (R203, R209): states are kept, counts
restart, a comparator disabled reads clear and one enabled starts clear. -/
def State.adoptProt (s : State) (k : Nat) : State :=
  let due := match (s.die? k).bind fun d => d.prot.swapAt with
    | some b => decide (b < s.now)
    | none => false
  if !due || !s.rangeDiffers 0x07 k 0 0x14 then s
  else
    let ov := s.regF 0x07 k 0x00C
    let uv := s.regF 0x07 k 0x010
    let s := s.takeRange 0x07 k 0 0x14
    let ov' := s.regF 0x07 k 0x00C
    let uv' := s.regF 0x07 k 0x010
    let upd := fun (was is_ : Nat) (l : List Comp) =>
      l.zipIdx.map fun x =>
        if !is_.testBit x.2 || !was.testBit x.2 then Comp.off else { x.1 with runTrip := 0, runClear := 0 }
    s.modDie k fun d => { d with prot := { d.prot with swapAt := none, ov := upd ov ov' d.prot.ov, uv := upd uv uv' d.prot.uv } }

/-- Trip and release levels of a DAC in volts (R201). -/
def State.levels (s : State) (k : Nat) (uv : Bool) : Rat × Rat :=
  let thr := s.regF 0x07 k 0x000
  let hyst := s.regF 0x07 k 0x004
  let lsb : Rat := 1 / 800
  if uv then ((bits thr 11 0 : Rat) * lsb, ((bits thr 11 0 + bits hyst 7 0 : Nat) : Rat) * lsb)
  else ((bits thr 27 16 : Rat) * lsb, (((bits thr 27 16 : Int) - (bits hyst 15 8 : Int) : Int) : Rat) * lsb)

/-- What one sample does to a comparator: nothing to report, a trip, or the end of a trip (R202, R203). -/
inductive CompEvent where
  | quiet
  | trip
  | clear (told : Bool)
deriving DecidableEq, Repr

/-- One sample of a running comparator (R202, R203). -/
def Comp.sample (c : Comp) (beyond safe : Bool) (n : Nat) : Comp × CompEvent :=
  if c.tripped then
    let run := if safe then c.runClear + 1 else 0
    let count := min 3 (c.startCount + 1)
    if 3 ≤ run then
      ({ c with tripped := false, runClear := 0, runTrip := 0, starting := false, startCount := count }, .clear (!c.starting))
    else if c.starting ∧ 3 ≤ count then ({ c with runClear := run, starting := false, startCount := count }, .trip)
    else ({ c with runClear := run, startCount := count }, .quiet)
  else
    let run := if beyond then c.runTrip + 1 else 0
    if n ≤ run then ({ c with tripped := true, runTrip := 0, runClear := 0 }, .trip)
    else ({ c with runTrip := run }, .quiet)

/-- The comparator of cell i + 1 of one kind sampled at v volts; a trip sends its notice and triggers the fault
capture of the die, the end of one raises source 0 or 1 with subkind 2. -/
def State.sampleComp (s : State) (k i : Nat) (uv : Bool) (v : Rat) : State :=
  s.onDie k fun d =>
    let en := (s.regF 0x07 k (if uv then 0x010 else 0x00C)).testBit i
    let l := if uv then d.prot.uv else d.prot.ov
    let put := fun (c : Comp) (s : State) =>
      s.modDie k fun d =>
        if uv then { d with prot := { d.prot with uv := setNth i c d.prot.uv } }
        else { d with prot := { d.prot with ov := setNth i c d.prot.ov } }
    if !en then put Comp.off s
    else
      let lv := s.levels k uv
      let c := l.getD i Comp.off
      let r := if uv then c.sample (v ≤ lv.1) (lv.2 < v) (s.fF 0x07 k 0x008 15 12)
        else c.sample (lv.1 ≤ v) (v < lv.2) (s.fF 0x07 k 0x008 15 12)
      match r.2 with
      | .quiet => put r.1 s
      | .trip =>
        let seq := d.prot.noticeSeq
        let s := put { r.1 with seq := seq } s
        let s := (s.clearFor k).modDie k fun d => d.notice k (if uv then 2 else 1) (i + 1) s.now
        s.faultTrigger k s.now false
      | .clear told =>
        let s := put r.1 s
        if told then s.dieEvent k { source := if uv then 1 else 0, subkind := 2, item := i + 1, arg16 := c.seq } else s

/-- The die is ready once every enabled comparator has cleared (R203). -/
def State.judgeReady (s : State) (k : Nat) : State :=
  s.modDie k fun d =>
    let clear := d.prot.ov.all (fun c => !c.tripped) && d.prot.uv.all (fun c => !c.tripped)
    { d with prot := { d.prot with ready := d.prot.ready || clear } }

/-- The instant is a tick of die k that has not been sampled yet: a whole multiple of the tick in the die's time base, which
is pack time while it is locked (R199, R200). The instants of a die that is not locked are those of its own time base, which a
step of pack time may take backwards. DEDUCED, log entry 56. -/
def State.tickDue (s : State) (k : Nat) (d : Die) : Bool := s.now % s.tickNs k == 0 && d.prot.lastTick != s.now

/-- A threshold sweep that has not handed its DAC back when a tick falls is aborted: no tick falls inside one (R208). -/
def State.endSweep (s : State) (k : Nat) : State :=
  match (s.selfTest[k]?).bind (·.slice) with
  | some x => if x.1 = 0x0301 ∨ x.1 = 0x0302 then s.abortSlice k else s
  | none => s

/-- COMPARATOR_TICK (R202): at a tick instant every comparator of the die samples; `v` holds the 24 cell voltages
as the comparators see them, so that their error (R201) is in the operand. -/
def execComparatorTick (t k : Nat) (v : List Rat) (s : State) : Outcome :=
  let s := s.at_ t
  .next (s.onDie k fun d =>
    if !d.prot.aonOn || !s.tickDue k d then s
    else
      let s := (s.endSweep k).adoptProt k
      let s := (List.range 24).foldl (fun s i => s.sampleComp k i false (v.getD i 0)) s
      let s := (List.range 24).foldl (fun s i => s.sampleComp k i true (v.getD i 0)) s
      let s := (s.judgeReady k).modDie k fun d => { d with prot := { d.prot with lastTick := t } }
      (s.applyCap k).heartResume)

/-- AONC_POWER_UP (R203, R404): the group has reached 10 V; every enabled comparator starts tripped, and the faults
that the die itself held are gone with its supply. -/
def execAoncPowerUp (t k : Nat) (s : State) : Outcome :=
  let s := s.at_ t
  .next (s.onDie k fun d =>
    if d.prot.aonOn then s
    else
      let s := s.takeRange 0x07 k 0 0x14
      let ov := s.regF 0x07 k 0x00C
      let uv := s.regF 0x07 k 0x010
      let start := fun (m : Nat) => (List.range 24).map fun i => Comp.atPowerUp (m.testBit i)
      s.modDie k fun d =>
        { d with prot := { d.prot with
            aonOn := true, swapAt := none, ov := start ov, uv := start uv, ready := decide (ov = 0 ∧ uv = 0), noticeSeq := 0, notices := [],
            rbFault := [false, false], swFault := [false, false], rbFail := [0, 0], rbPass := [0, 0], rbErr := [0, 0],
            wire := 0, wireAt := [], suspect := [], vstkRun := 0, vstkArmed := false, timeout := true,
            timeoutRaised := false, chans := d.prot.chans.map fun (c : Chan) => { c with ocSteps := 0, heldOff := false } } })

/-- AONC_POWER_DOWN (R404): the group has fallen to 9 V; the comparators stop and the island is unpowered (R480). -/
def execAoncPowerDown (t k : Nat) (s : State) : Outcome :=
  let s := s.at_ t
  .next (s.onDie k fun d =>
    if !d.prot.aonOn then s
    else
      let s := (s.precOff k).modDie k fun d =>
        { Die.tearWrites t d with prot := { d.prot with
            aonOn := false, ready := false, ov := List.replicate 24 Comp.off, uv := List.replicate 24 Comp.off, notices := [] } }
      ({ s with safe := { s.safe with acted := s.safe.acted.filter fun x => x.1 != k } }).heartResume)

/-! ### Fault notices at the hub (R19, R204, R205) -/

/-- A notice acted on may still have a copy under way when a notice of die k with SEQ `seq` is acted on: it is of another
die, or its SEQ lies at most 32,767 behind (R19, R204). DEDUCED, log entry 49. -/
def recentNotice (k seq : Nat) (x : Nat × Nat) : Bool := x.1 != k || decide ((seq + 65536 - x.2) % 65536 < 32768)

/-- FAULT_NOTICE_RECEIVE (R205): the oldest notice of die k on one side reaches the hub. A copy that fails its check or meets a
broken link is lost while the other copy is still to come, and else sent again, over the other link where its own is broken; the
second copy of a notice acted on is discarded. A hub that is not up, and a die with both links broken, keep the notice, which is
never dropped (R19, R494). -/
def execFaultNoticeReceive (t k : Nat) (side : Side) (intact : Bool) (s : State) : Outcome :=
  let s := s.at_ t
  .next (s.onDie k fun d =>
    match d.prot.notices.find? fun n => n.1 == side with
    | none => s
    | some n =>
      let seq := rd n.2 12 2
      let lost := !intact || !s.pathIntact k side
      let last := !(d.prot.notices.any fun x => x.1 == side.other && x.2 == n.2) && !s.safe.acted.contains (k, seq)
      let turn := fun (x : Side × List Byte) => if x = n then (side.other, x.2) else x
      if !s.part.serving || s.part.hubHeld || !s.reach k then s
      else if lost && last then
        if s.pathIntact k side then (if intact then s else s.checkRejected)
        else s.modDie k fun d => { d with prot := { d.prot with notices := d.prot.notices.map turn } }
      else
        let s := s.modDie k fun d => { d with prot := { d.prot with notices := d.prot.notices.eraseP fun x => x.1 == side } }
        if lost then (if intact then s else s.checkRejected)
        else if s.safe.acted.contains (k, seq) then
          { s with safe := { s.safe with acted := s.safe.acted.erase (k, seq) } }
        else
          let other := d.prot.notices.any fun x => x.1 == side.other && x.2 == n.2
          let s := if other then { s with safe := { s.safe with acted := (s.safe.acted.filter fun x => recentNotice k seq x) ++ [(k, seq)] } } else s
          s.takeNotice k n.2)

/-! ### Readback of the threshold DACs (R207) -/

/-- A KIND 0x03 fault of a DAC has ended: source 2 with subkind 2 once neither fault stands (R207). -/
def State.dacCleared (s : State) (k i : Nat) : State :=
  s.onDie k fun d =>
    if d.prot.rbFault.getD i false || d.prot.swFault.getD i false then s
    else (s.dieEvent k { source := 2, subkind := 2, item := i + 1 }).heartResume

/-- A readback of a DAC is due: one for each whole 10 s, and one after a commit that changed its codes (R207). -/
def State.readbackDue (s : State) (d : Die) (i : Nat) : Bool :=
  d.prot.rbAsked.getD i false || d.prot.rbDone.getD i 0 != s.now / 10000000000

/-- TDAC_READBACK (R207): a readback that is due, as urgent work. One beyond 3 mV of the nominal trip level fails; two
failures in a row raise the fault, two passes end it. -/
def execTdacReadback (t k : Nat) (uv : Bool) (v : Rat) (s : State) : Outcome :=
  let s := s.at_ t
  .next (s.onDie k fun d =>
    let i := b2n uv
    if !d.precOn || !d.seq.urgent || d.prot.owRun.isSome || !s.readbackDue d i then s
    else
      let err := v - (s.levels k uv).1
      let fail := decide (3 / 1000 < rabs err)
      let nf := if fail then d.prot.rbFail.getD i 0 + 1 else 0
      let np := if fail then 0 else d.prot.rbPass.getD i 0 + 1
      let had := d.prot.rbFault.getD i false
      let s := s.modDie k fun d => { d with prot := { d.prot with
        rbFail := setNth i nf d.prot.rbFail, rbPass := setNth i np d.prot.rbPass,
        rbErr := setNth i (roundAway (err * 10000)) d.prot.rbErr, rbAsked := setNth i false d.prot.rbAsked,
        rbDone := setNth i (t / 10000000000) d.prot.rbDone } }
      if fail && nf == 2 then
        (s.clearFor k).modDie k fun d => ({ d with prot := { d.prot with rbFault := setNth i true d.prot.rbFault } }).notice k 3 (i + 1) t
      else if had && np == 2 then
        (s.modDie k fun d => { d with prot := { d.prot with rbFault := setNth i false d.prot.rbFault } }).dacCleared k i
      else s)

/-! ### Open sense wires (R219 to R224) -/

/-- OW_SWEEP (R220): the next wire of the periodic sweep is requested, unless a suspected wire comes first. -/
def execOwSweep (t k : Nat) (s : State) : Outcome :=
  let s := s.at_ t
  .next (s.onDie k fun d =>
    let period := s.fF 0x07 k 0x024 31 24
    if !d.precOn || d.prot.protOnly || period = 0 || !d.prot.suspect.isEmpty || t < d.prot.lastSweep + period * 40000000 then s
    else s.modDie k fun d =>
      let w := d.prot.sweepNext
      ({ d with prot := { d.prot with sweepNext := (w + 1) % 25, lastSweep := t } }).suspectWire w)

/-- Check current of channel c in amperes (R221): 100 µA, or the external channel's own current. -/
def State.checkCurrent (s : State) (k c : Nat) (d : Die) : Rat :=
  if s.fB 0x07 k 0x014 4 then s.extCurrent k c d else 1 / 10000

/-- The change that R61 predicts for the code of cell n while only channel c carries a current; 0 when the wires
have no valid estimates, and for the conversions that are no cell. -/
def Die.predicted (d : Die) (c n : Nat) (i : Rat) : Rat :=
  if n = 0 ∨ 24 < n ∨ !d.prec.wiresValid n then 0
  else -(d.prec.correction (setNth (c - 1) i (List.replicate 24 0)) n)

/-- Residuals of a check of wire w (R221, R222). With BAL_WIRING 0 `pre` and `post` are the two conversions before
and under the check current; with BAL_WIRING 1 they are OWNODEn and BALFETn. -/
def State.owResiduals (s : State) (k w : Nat) (d : Die) (pre post : List Rat) : Rat × Rat :=
  let a := pre.getD 0 0
  let b := pre.getD 1 0
  let a' := post.getD 0 0
  let b' := post.getD 1 0
  if s.fB 0x01 k 0 6 then
    if w = 0 then (a, b - b') else if w = 24 then (a - a', 0) else (a - a', b - b')
  else
    let c := max w 1
    let i := s.checkCurrent k c d
    let m1 := d.predicted c w i
    let m2 := if w = 24 then 0 else d.predicted c (w + 1) i
    ((a' - a) - m1, (b' - b) - m2)

/-- The break of wire w is confirmed by the residuals (R221, R222). -/
def owConfirms (w : Nat) (wiring : Bool) (thr r1 r2 : Rat) : Bool :=
  if w = 0 then decide (r2 ≤ -thr) && (if wiring then decide (thr ≤ rabs r1) else decide (thr ≤ r1))
  else if w = 24 then decide (r1 ≤ -thr) && decide (rabs r2 < thr)
  else decide (r1 ≤ -thr) && decide (thr ≤ r2)

/-- A check of wire w judged. Under BAL_WIRING 1 a BALFET word of a channel that conducted carries no BALOFF and is not
used, so that it confirms nothing (R222). -/
def State.owJudge (s : State) (k w : Nat) (d : Die) (pre post : List Rat) : Bool :=
  let r := s.owResiduals k w d pre post
  let usable := !s.fB 0x01 k 0 6 || !((d.prot.chan w).conducting || (d.prot.chan (w + 1)).conducting)
  usable && owConfirms w (s.fB 0x01 k 0 6) ((s.fF 0x07 k 0x024 23 16 : Rat) / 1000) r.1 r.2

/-- The check of wire w has made its last conversion (R221, R222). -/
def State.owDone (s : State) (k w : Nat) (d : Die) : Bool :=
  match d.prot.owRun with
  | some x => x.1 == w && decide (x.2 + s.owLen k w ≤ s.now)
  | none => false

/-- OW_CHECK_COMPLETE (R221): the last conversion of the check of a suspected wire ends, and its check current goes off. -/
def execOwCheckComplete (t k : Nat) (pre post : List Rat) (s : State) : Outcome :=
  let s := s.at_ t
  .next (s.onDie k fun d =>
    match d.prot.suspect with
    | [] => s
    | w :: rest =>
      if !d.precOn || !s.owDone k w d then s
      else
        let s := (s.modDie k fun d => { d with prot := { d.prot with suspect := rest } }).owEnd k
        let s := if s.owJudge k w d pre post then (s.modDie k fun d => d.confirmBreak k w t).settleChannels k
          else if w = 24 then s.modDie k fun d => { d with prot := { d.prot with vstkArmed := true } }
          else s
        s.owBegin k)

/-- OW_RECHECK (R224): ten seconds after the last check of a broken wire it is checked again; a check that does not
confirm clears the break. VSTK is judged again by R223 with the sum of the cells less the stack in `pre`, a shunt
input with its pad's voltage to V0 in `pre`. -/
def execOwRecheck (t k w : Nat) (pre post : List Rat) (s : State) : Outcome :=
  let s := s.at_ t
  .next (s.onDie k fun d =>
    match d.prot.wireAt.find? fun x => x.1 == w with
    | none => s
    | some x =>
      if !d.precOn || d.prot.protOnly || t < x.2 + 10000000000 || (w ≤ 24 && !s.owDone k w d) then s
      else
        let still :=
          if w ≤ 24 then s.owJudge k w d pre post
          else if w = 25 then decide ((s.fF 0x07 k 0x024 15 8 : Rat) / 1000 ≤ rabs (pre.getD 0 0))
          else decide (1 < rabs (pre.getD 0 0))
        let s := if w ≤ 24 then s.owEnd k else s
        let s := if still then
            s.modDie k fun d => { d with prot := { d.prot with
              wireAt := d.prot.wireAt.map fun y => if y.1 = w then (w, t) else y } }
          else
            let s := s.modDie k fun d => d.clearBreak w
            ((s.dieEvent k { source := 3, subkind := 2, item := w }).settleChannels k).heartResume
        s.owBegin k)

/-- SHUNT_INPUT_BREAK (R223): input pad w, 26 to 29 as WHICH of R204, has been outside ±1.0 V of V0 for 10 ms. -/
def execShuntInputBreak (t k w : Nat) (s : State) : Outcome :=
  let s := s.at_ t
  .next (s.onDie k fun d =>
    if !d.precOn || w < 26 || 29 < w then s
    else s.modDie k fun d => d.confirmBreak k w t)

end Sys2Proof.Machine
end

