-- ==== Sys2Proof/Machine/Balancing.lean ====
section
/-! DEFINITION. The balance scheduler (R210 to R218, R228). -/

namespace Sys2Proof.Machine

/-- BAL_MODE of die k in force (R225). -/
def State.balMode (s : State) (k : Nat) : Nat := s.fF 0x07 k 0x014 3 2
/-- BAL_STEP of die k in ns. -/
def State.balStepNs (s : State) (k : Nat) : Nat := s.fF 0x07 k 0x014 15 8 * 100000000
/-- BAL_XMIN of die k in Ah. -/
def State.balXmin (s : State) (k : Nat) : Rat := (s.fF 0x07 k 0x020 31 16 : Rat) / 10000
/-- BAL_DV of die k in volts. -/
def State.balDv (s : State) (k : Nat) : Rat := (s.fF 0x07 k 0x01C 15 0 : Rat) / 100000

/-- The 1 s mean v(n) for counting of the last closed second (R168, R214). -/
def Die.lastMean (d : Die) (n : Nat) : Option Rat := (d.prec.secs[1]?).bind fun x => x.volts false n 8

/-- Debt of cell n, Ah (R217). -/
def Die.debtOf (d : Die) (n : Nat) : Rat := ((d.est.cells[n - 1]?).map (·.debt)).getD 0

/-- The cells of the part that its references count: enabled, without INVALID and without WIRE (R214). -/
def State.refCells (s : State) : List (Nat × Nat × Die) :=
  s.islands.flatMap fun k =>
    match s.die? k with
    | none => []
    | some d => (s.cellsOn k).filterMap fun n =>
      let w := d.prec.lastWords.getD (n - 1) disabledWord
      let inv := s.stateEn k && ((d.est.cells[n - 1]?).map (·.inv)).getD true
      if wInvalid w || wWire w || inv then none else some (k, n, d)

/-- References of the part at a step (R214): v_min, A_min and R_max. -/
structure BalRefs where
  vMin : Option Rat
  aMin : Option Rat
  rMax : Option Rat
deriving DecidableEq, Repr

/-- The least of a list. -/
def leastOf (l : List Rat) : Option Rat :=
  l.foldl (fun a x => match a with | none => some x | some y => some (if x < y then x else y)) none

/-- The references formed by the hub once per step. -/
def State.balRefs (s : State) : BalRefs :=
  let cs := s.refCells
  let outs := (cs.filter fun x => s.stateEn x.1).filterMap fun x => (x.2.2.est.cells[x.2.1 - 1]?).map fun c => s.cellOut x.1 c
  { vMin := leastOf (cs.filterMap fun x => x.2.2.lastMean x.2.1), aMin := leastOf (outs.map (·.a)),
    rMax := (leastOf (outs.map fun o => -o.room)).map fun x => -x }

/-- Cell n of die k is eligible (R214). -/
def State.eligible (s : State) (k n : Nat) (d : Die) : Bool :=
  let v := d.lastMean n
  bit (s.regF 0x07 k 0x018) (n - 1) &&
    !((d.prot.uv[n - 1]?).map (·.tripped)).getD false && !d.prot.cellBroken n &&
    (match v with | none => false | some v => decide ((s.fF 0x07 k 0x01C 31 16 : Rat) / 1000 ≤ v)) &&
    !(d.prot.chan n).heldOff &&
    (s.balMode k != 2 ||
      (match d.est.cells[n - 1]? with | none => false | some c => !c.inv && !c.unanchored))

/-- need(n) of R214: volts in voltage mode, Ah in charge and target mode. -/
def State.balNeed (s : State) (k n : Nat) (d : Die) (r : BalRefs) : Option Rat :=
  match s.balMode k with
  | 1 => (d.lastMean n).bind fun v => r.vMin.map fun m => v - m
  | 2 =>
    (d.est.cells[n - 1]?).bind fun c =>
      let o := s.cellOut k c
      if s.fB 0x07 k 0x014 5 then r.aMin.map fun m => o.a - m else r.rMax.map fun m => m - o.room
  | 3 => some ((d.prot.chan n).target + d.debtOf n)
  | _ => none

/-- Insertion by a falling key; equal keys keep the lower cell number first. -/
def insertDesc (x : Nat × Rat) : List (Nat × Rat) → List (Nat × Rat)
  | [] => [x]
  | y :: ys => if y.2 < x.2 then x :: y :: ys else y :: insertDesc x ys

/-- Cells in the order of their keys, ties by the lower cell number (R214). -/
def sortDesc (l : List (Nat × Rat)) : List (Nat × Rat) := l.foldl (fun acc x => insertDesc x acc) []

/-- The selected cells of die k in order, with their need in Ah where the mode checks it (R214). -/
def State.balSelect (s : State) (k : Nat) (d : Die) (r : BalRefs) : List (Nat × Rat) :=
  let cells := ((List.range 24).map (· + 1)).filter fun n => s.eligible k n d
  let needs := cells.filterMap fun n => (s.balNeed k n d r).map fun x => (n, x)
  if s.balMode k = 1 then
    let byNeed := needs.filter fun x => s.balDv k ≤ x.2
    let byDebt := (needs.filter fun x => !(s.balDv k ≤ x.2) && decide (s.balXmin k ≤ d.debtOf x.1)).map fun x => (x.1, d.debtOf x.1)
    sortDesc byNeed ++ sortDesc byDebt
  else sortDesc (needs.filter fun x => s.balXmin k ≤ x.2)

/-- What the ending step leaves on a channel: I_on as the mean of its on-current at 0.1 mA, and the run of
over-current steps (R210, R212). -/
def Chan.endStep (c : Chan) : Chan :=
  let ms := c.stepMs - (c.onNs : Rat) / 1000000
  { c with iOn := if ms = 0 then c.iOn else (roundAway (c.removed * 36000000000 / ms) : Rat) / 10000,
           ocSteps := if c.ocHit then c.ocSteps else 0, ocHit := false, stepOff := false, removed := 0,
           stepMs := (c.onNs : Rat) / 1000000, need := 0, sched := false }

/-- Every debt of die k is cleared (R217). -/
def State.clearDebts (s : State) (k : Nat) : State :=
  s.modDie k fun d => { d with est := { d.est with cells := d.est.cells.map fun (c : CellSt) => { c with debt := 0 } } }

/-- BAL_STEP (R213): at a whole multiple of BAL_STEP the balance fields of the active set take effect and the
scheduler selects the channels of the step. -/
def execBalStep (t k : Nat) (s : State) : Outcome :=
  let s := s.at_ t
  .next (s.onDie k fun d =>
    if !d.precOn || !s.inRunDoze || !s.part.serving || s.balStepNs k = 0 || t % s.balStepNs k ≠ 0 then s
    else
      let s := (s.takeRange 0x07 k 0x14 0xE0).policyTaken k
      let s := s.modDie k fun d => { d with prot := { d.prot with order := [], chans := d.prot.chans.map fun c => (c.markTo t).endStep } }
      let s := if s.balMode k = 2 then s.clearDebts k else s
      s.onDie k fun d =>
        let c := s.balCap k d
        let sel := if d.prot.timeout || d.prot.protOnly || s.conflict then [] else s.balSelect k d s.balRefs
        let on := sel.take c.1
        let s := s.modDie k fun d => { d with prot := { d.prot with
          order := on.map (·.1),
          chans := d.prot.chans.zipIdx.map fun x =>
            match on.find? fun y => y.1 == x.2 + 1 with
            | some y => { x.1 with sched := true, need := y.2 }
            | none => x.1 } }
        s.applyCap k)

/-- BAL_NEED_CHECK (R213): in charge and target mode a channel whose need has been removed turns off for the rest
of the step. -/
def execBalNeedCheck (t k : Nat) (s : State) : Outcome :=
  let s := s.at_ t
  .next (s.onDie k fun d =>
    if !d.precOn || s.balMode k < 2 || t % 100000000 ≠ 0 then s
    else
      let s := s.modDie k fun d => { d with prot := { d.prot with
        chans := d.prot.chans.map fun c => if c.sched && decide (c.need ≤ c.removed) then { c with stepOff := true } else c } }
      s.applyCap k)

/-- BAL_OVERCURRENT (R210, R222): an internal channel has exceeded 180 mA for 10 µs, or conducts nothing behind a
broken balance wire; it is off for the rest of the step, and after three such steps in a row until the next AON-C
power-up. -/
def execBalOvercurrent (t k n : Nat) (s : State) : Outcome :=
  let s := s.at_ t
  .next (s.onDie k fun d =>
    let c := d.prot.chan n
    if n = 0 || 24 < n || s.fB 0x07 k 0x014 4 || !c.conducting || c.ocHit then s
    else
      let steps := c.ocSteps + 1
      let held := decide (3 ≤ steps)
      let s := s.modDie k fun d => { d with prot := { d.prot with
        chans := setNth (n - 1) { c with ocHit := true, ocSteps := steps, heldOff := c.heldOff || held } d.prot.chans } }
      let s := s.settleChannels k
      if held && !c.heldOff then s.dieEvent k { source := 13, subkind := 1, item := n } else s)

/-- BAL_KEEPALIVE (R218). -/
def execBalKeepalive (t k : Nat) (s : State) : Outcome := .next ((s.at_ t).keepAlive k)

/-- BAL_TIMEOUT_EXPIRE (R218): no keep-alive for BAL_TIMEOUT seconds; scheduled and injected channels stop. -/
def execBalTimeoutExpire (t k : Nat) (s : State) : Outcome :=
  let s := s.at_ t
  .next (s.onDie k fun d =>
    if !d.precOn || d.prot.timeout || t < d.prot.keepAt + s.fF 0x07 k 0x014 31 22 * 1000000000 then s
    else
      let s := s.modDie k fun d => { d with prot := { d.prot with
        timeout := true, timeoutRaised := true, order := [],
        chans := d.prot.chans.map fun (c : Chan) => { c with sched := false, inj := false } } }
      (s.settleChannels k).dieEvent k { source := 12, subkind := 1 })

/-- The balance record of R228 for the 10 s that end at `t`. -/
def State.balRecord (s : State) (k t : Nat) (d : Die) : List Byte :=
  let derated := d.prot.derateT || d.prot.derateGov
  let debt := d.est.cells.foldl (fun a c => a + c.debt) 0
  withCrc32c (le 2 0x0801 ++ le 1 s.pos ++ le 1 k ++
    le 1 (fld 7 1 (b2n d.prot.timeout) + fld 6 1 (b2n derated) + fld 4 2 (s.balMode k) + fld 3 1 (b2n (s.fB 0x07 k 0x014 4))) ++
    zeros 3 ++ le 8 t ++
    (d.prot.chans.flatMap fun c => le 2 (sat 16 c.onMs.floor.toNat) ++ le 2 (sat 16 (c.mas * 1000).floor.toNat)) ++
    le 4 (sat 32 (debt * 10000).floor.toNat))

/-- BALANCE_RECORD_INTERVAL (R228): each whole 10 s with a BAL_MODE other than 0b00. -/
def execBalanceRecordInterval (t k : Nat) (s : State) : Outcome :=
  let s := s.at_ t
  .next (s.onDie k fun d =>
    if !d.precOn || t % 10000000000 ≠ 0 then s
    else
      let s := s.modDie k fun d => { d with prot := { d.prot with chans := d.prot.chans.map fun c => c.markTo t } }
      s.onDie k fun d =>
      let s1 := s.modDie k fun d =>
        { d with prot := { d.prot with chans := d.prot.chans.map fun (c : Chan) => { c with onMs := 0, mas := 0 } } }
      if s.balMode k = 0 then s1 else s1.dieRecord k 0x0801 t (s.balRecord k t d))

end Sys2Proof.Machine
end

