-- ==== Sys2Proof/Machine/Anatomy.lean ====
section
/-! DEFINITION. The inner ring and the ROLE pad (R15 to R21, R405). -/

namespace Sys2Proof.Machine

/-- The inner link i joins nodes i and i + 1 of the ring H–C1–…–Cn–H (R15). What event source 33 names it by: the
island at whose end it lies towards Cn, and the item. -/
def State.linkItem (s : State) (i : Nat) : Nat × Nat :=
  if i = 0 then (0, 1) else if i = s.part.cellDies then (0, 2) else (i, 2)

/-- A slice holds an inner link of a die: the C1 side is link k − 1, the Cn side link k (R459, R461). -/
def State.linkHeld (s : State) (i : Nat) : Bool :=
  s.islands.any fun k =>
    match (s.selfTest[k]?).bind (·.slice) with
    | none => false
    | some x => (x.1 = 0x0601 ∧ i + 1 = k) ∨ (x.1 = 0x0602 ∧ i = k)

/-- A failed slice of a link holds it broken until a PASS (R467). -/
def State.linkFailed (s : State) (i : Nat) : Bool :=
  s.islands.any fun k =>
    match s.selfTest[k]? with
    | none => false
    | some x => (x.failed.contains 0x0601 && i + 1 == k) || (x.failed.contains 0x0602 && i == k)

/-- A link declared broken: the dies that have lost both links stop FAST at once (R17, R405). -/
def State.breakLink (s : State) (i : Nat) : State :=
  if s.part.links.getD i false = false then s
  else
    let n := s.linkItem i
    let s := { s with part := { s.part with links := setNth i false s.part.links } }
    let s := s.event { source := 33, island := n.1, subkind := 1, item := n.2 }
    s.islands.foldl (fun s k => if s.cutOff k then (s.fastOff k).closeFastStreams k else s) s

/-- A link that carries valid symbols again: lost dies that it reaches are regained and the FAST domains follow
(R405). -/
def State.mendLink (s : State) (i : Nat) : State :=
  if s.part.links.getD i true = true then s
  else
    let n := s.linkItem i
    let s := { s with part := { s.part with links := setNth i true s.part.links } }
    let s := s.event { source := 33, island := n.1, subkind := 2, item := n.2 }
    let s := s.islands.foldl
      (fun s k =>
        let s := s.onDie k fun d =>
          if d.lost && s.reach k then
            (s.modDie k fun d => { d with lost := false }).event { source := 4, island := k, subkind := 2 }
          else s
        s.fastDomain k) s
    s.heartResume

/-- INNER_LINK_BROKEN (R17): no valid symbol for 10 µs; a link that a self-test slice holds is not declared broken. -/
def execInnerLinkBroken (t i : Nat) (s : State) : Outcome :=
  let s := s.at_ t
  .next (if s.linkHeld i then s else s.breakLink i)

/-- INNER_LINK_RESTORED (R405). -/
def execInnerLinkRestored (t i : Nat) (s : State) : Outcome :=
  let s := s.at_ t
  .next (if s.linkFailed i then s else s.mendLink i)

/-- DIE_LOST (R18): the die has had no link to the hub for 50 µs; the hub treats it as a protection fault, KIND 0x05.
A die whose own links are whole but whose segment other breaks cut off counts as lost too. DEDUCED, log entry 49. -/
def execDieLost (t k : Nat) (s : State) : Outcome :=
  let s := s.at_ t
  .next (s.onDie k fun d =>
    if d.lost || s.reach k || !s.part.serving then s
    else
      let s := (s.modDie k fun d => { d with lost := true }).event { source := 4, island := k, subkind := 1 }
      s.heartStop.ownFault { kind := 5, island := k, tOrigin := t })

/-- ROLE_PAD_CHANGE (R21): a change after the reads is ignored; the first one is logged, when the hub does not serve at its
next start. -/
def execRolePadChange (t : Nat) (level : Bool) (s : State) : Outcome :=
  let s := s.at_ t
  .next (
    if level == s.part.rolePad then s
    else
      let first := !s.part.roleChanged
      let s := { s with part := { s.part with roleChanged := true, rolePad := level, roleDue := s.part.roleDue || (first && !s.part.serving) } }
      if first && s.part.serving then s.event { source := 54, subkind := 3 } else s)

end Sys2Proof.Machine
end

