-- ==== Sys2Proof/Machine/Crypto.lean ====
section
/-! DEFINITION. The published algorithms the spec names without spelling them out (PRESUMED, log entry 34): SHA-256, HMAC and
HKDF (R277, R435), AES-256-GCM (R256, R278), ECDSA and ECDH on P-256 (R277, R426, R427), and the
Reed–Solomon code and scrambler that R251 itself gives. Integers of keys and signatures are
little-endian (R427). -/

namespace Sys2Proof.Machine

/-- The number that big-endian bytes spell, the order of SHA-256 words and of field elements inside the published algorithms. -/
def ofBe (bs : List Byte) : Nat := bs.foldl (fun a b => a * 256 + b.toNat) 0

/-- `n` bytes of `v`, most significant first. -/
def be (n v : Nat) : List Byte := (le n v).reverse

/-! ### SHA-256 -/

/-- The first 64 primes. -/
def primes64 : List Nat :=
  [2, 3, 5, 7, 11, 13, 17, 19, 23, 29, 31, 37, 41, 43, 47, 53, 59, 61, 67, 71, 73, 79, 83, 89, 97, 101, 103, 107,
    109, 113, 127, 131] ++
  [137, 139, 149, 151, 157, 163, 167, 173, 179, 181, 191, 193, 197, 199, 211, 223, 227, 229, 233, 239, 241, 251,
    257, 263, 269, 271, 277, 281, 283, 293, 307, 311]

/-- The largest y below 2^b with y^n ≤ m. -/
def rootBelow (n m : Nat) : Nat → Nat → Nat
  | 0, y => y
  | b + 1, y => if (y + 2 ^ b) ^ n ≤ m then rootBelow n m b (y + 2 ^ b) else rootBelow n m b y

/-- Round constants: the first 32 fractional bits of the cube roots of the primes. -/
def shaK : List Nat := primes64.map fun p => rootBelow 3 (p * 2 ^ 96) 36 0 % 2 ^ 32

/-- Initial hash words: the first 32 fractional bits of the square roots of the first eight primes. -/
def shaH0 : List Nat := (primes64.take 8).map fun p => rootBelow 2 (p * 2 ^ 64) 38 0 % 2 ^ 32

/-- Rotation right in 32 bits. -/
def rotr (x n : Nat) : Nat := (x / 2 ^ n) ||| (x * 2 ^ (32 - n) % 2 ^ 32)

/-- The message schedule, newest word first. -/
def shaSchedule (ws : List Nat) : Nat → List Nat
  | 0 => ws.reverse
  | n + 1 =>
    let w := shaSchedule ws n
    let a := w.getD 14 0
    let b := w.getD 1 0
    let s0 := rotr a 7 ^^^ rotr a 18 ^^^ (a / 2 ^ 3)
    let s1 := rotr b 17 ^^^ rotr b 19 ^^^ (b / 2 ^ 10)
    ((w.getD 15 0 + s0 + w.getD 6 0 + s1) % 2 ^ 32) :: w

/-- One round. -/
def shaRound (v : List Nat) (kw : Nat × Nat) : List Nat :=
  match v with
  | [a, b, c, d, e, f, g, h] =>
    let s1 := rotr e 6 ^^^ rotr e 11 ^^^ rotr e 25
    let ch := (e &&& f) ^^^ ((2 ^ 32 - 1 - e) &&& g)
    let t1 := (h + s1 + ch + kw.1 + kw.2) % 2 ^ 32
    let s0 := rotr a 2 ^^^ rotr a 13 ^^^ rotr a 22
    let maj := (a &&& b) ^^^ (a &&& c) ^^^ (b &&& c)
    [(t1 + s0 + maj) % 2 ^ 32, a, b, c, (d + t1) % 2 ^ 32, e, f, g]
  | _ => v

/-- One 64-byte block. -/
def shaBlock (h : List Nat) (blk : List Byte) : List Nat :=
  let ws := (List.range 16).map fun i => ofBe (slice blk (4 * i) 4)
  let w := (shaSchedule ws 48).reverse
  let v := (shaK.zip w).foldl shaRound h
  (h.zip v).map fun p => (p.1 + p.2) % 2 ^ 32

/-- A list cut into blocks of `n`, with `fuel` blocks at most. -/
def chunks {α : Type} (n : Nat) : Nat → List α → List (List α)
  | 0, _ => []
  | fuel + 1, l => if l.isEmpty then [] else l.take n :: chunks n fuel (l.drop n)

/-- SHA-256 of a message: 32 bytes. PRESUMED, log entry 34. -/
def sha256 (m : List Byte) : List Byte :=
  let padLen := (119 - m.length % 64) % 64
  let p := m ++ [0x80] ++ zeros padLen ++ be 8 (8 * m.length)
  ((chunks 64 (p.length / 64) p).foldl shaBlock shaH0).flatMap (be 4)

/-- HMAC-SHA-256. -/
def hmac (key msg : List Byte) : List Byte :=
  let k0 := if key.length > 64 then sha256 key else key
  let k := k0 ++ zeros (64 - k0.length)
  sha256 (k.map (· ^^^ 0x5C) ++ sha256 (k.map (· ^^^ 0x36) ++ msg))

/-- HKDF-SHA-256 (RFC 5869) giving 72 bytes (R277). -/
def hkdf72 (salt secret info : List Byte) : List Byte :=
  let prk := hmac salt secret
  let t1 := hmac prk (info ++ [1])
  let t2 := hmac prk (t1 ++ info ++ [2])
  let t3 := hmac prk (t2 ++ info ++ [3])
  (t1 ++ t2 ++ t3).take 72

/-! ### Arithmetic in GF(2^8) -/

/-- Product in GF(2^8) modulo the polynomial `m` (nine bits). -/
def gfMul (m a b : Nat) : Nat :=
  ((List.range 8).foldl
    (fun (acc : Nat × Nat) i =>
      let r := if b.testBit i then acc.1 ^^^ acc.2 else acc.1
      let a2 := acc.2 * 2
      (r, if a2 ≥ 256 then a2 ^^^ m else a2)) (0, a)).1

/-- Power in GF(2^8). -/
def gfPow (m a n : Nat) : Nat := iter (gfMul m a) n 1

/-- Inverse in GF(2^8); the inverse of 0 is 0. -/
def gfInv (m a : Nat) : Nat := gfPow m a 254

/-! ### AES-256-GCM -/

/-- The substitution of one byte. -/
def aesSub (b : Nat) : Nat :=
  let i := gfInv 0x11B b
  let r := fun n => (i * 2 ^ n % 256) ||| (i / 2 ^ (8 - n))
  i ^^^ r 1 ^^^ r 2 ^^^ r 3 ^^^ r 4 ^^^ 0x63

/-- The key schedule: 60 words of four bytes, newest first. -/
def aesKeyWords (key : List Byte) : Nat → List (List Nat)
  | 0 => ((List.range 8).map fun i => (slice key (4 * i) 4).map (·.toNat)).reverse
  | n + 1 =>
    let w := aesKeyWords key n
    let i := n + 8
    let t := w.getD 0 []
    let t :=
      if i % 8 = 0 then
        match (t.drop 1 ++ t.take 1).map aesSub with
        | x :: xs => (x ^^^ gfPow 0x11B 2 (i / 8 - 1)) :: xs
        | [] => []
      else if i % 8 = 4 then t.map aesSub
      else t
    ((w.getD 7 []).zip t).map (fun p => p.1 ^^^ p.2) :: w

/-- Column mixing of four bytes. -/
def aesMix (c : List Nat) : List Nat :=
  (List.range 4).map fun i =>
    gfMul 0x11B 2 (c.getD i 0) ^^^ gfMul 0x11B 3 (c.getD ((i + 1) % 4) 0) ^^^ c.getD ((i + 2) % 4) 0
      ^^^ c.getD ((i + 3) % 4) 0

/-- AES-256 of one 16-byte block under a key schedule in ascending order. -/
def aesBlock (ws : List (List Nat)) (blk : List Byte) : List Byte :=
  let rk := fun r => (ws.drop (4 * r)).take 4 |>.flatten
  let addKey := fun (st : List Nat) r => (st.zip (rk r)).map fun p => p.1 ^^^ p.2
  let subShift := fun (st : List Nat) =>
    (List.range 16).map fun i => aesSub (st.getD ((i + 4 * (i % 4)) % 16) 0)
  let mix := fun (st : List Nat) => (List.range 4).flatMap fun c => aesMix ((st.drop (4 * c)).take 4)
  let st := addKey (blk.map (·.toNat)) 0
  let st := (List.range 13).foldl (fun st r => addKey (mix (subShift st)) (r + 1)) st
  (addKey (subShift st) 14).map (BitVec.ofNat 8)

/-- Product in the field of GCM, on 128-bit numbers whose first bit is the most significant. -/
def ghashMul (x y : Nat) : Nat :=
  ((List.range 128).foldl
    (fun (acc : Nat × Nat) i =>
      let z := if x.testBit (127 - i) then acc.1 ^^^ acc.2 else acc.1
      let v := if acc.2 % 2 = 1 then (acc.2 / 2) ^^^ (0xE1 * 2 ^ 120) else acc.2 / 2
      (z, v)) (0, y)).1

/-- Bytes padded with zeros to a whole number of 16-byte blocks. -/
def pad16 (m : List Byte) : List Byte := m ++ zeros ((16 - m.length % 16) % 16)

/-- The keystream XORed on a message, from counter block value 2 (12-byte nonce). -/
def gcmCtr (ws : List (List Nat)) (nonce msg : List Byte) : List Byte :=
  ((List.range ((msg.length + 15) / 16)).flatMap fun i =>
    ((slice msg (16 * i) 16).zip (aesBlock ws (nonce ++ be 4 (i + 2)))).map fun p => p.1 ^^^ p.2).take msg.length

/-- The authentication tag over associated data and ciphertext. -/
def gcmTag (ws : List (List Nat)) (nonce aad ct : List Byte) : List Byte :=
  let h := ofBe (aesBlock ws (zeros 16))
  let blocks := pad16 aad ++ pad16 ct ++ be 8 (8 * aad.length) ++ be 8 (8 * ct.length)
  let g := (chunks 16 (blocks.length / 16) blocks).foldl (fun y b => ghashMul (y ^^^ ofBe b) h) 0
  be 16 (g ^^^ ofBe (aesBlock ws (nonce ++ be 4 1)))

/-- AES-256-GCM encryption: ciphertext and tag. A GMAC has an empty message. PRESUMED, log entry 34. -/
def gcmSeal (key nonce aad msg : List Byte) : List Byte × List Byte :=
  let ws := (aesKeyWords key 52).reverse
  let ct := gcmCtr ws nonce msg
  (ct, gcmTag ws nonce aad ct)

/-- AES-256-GCM decryption: the message when the tag holds. -/
def gcmOpen (key nonce aad ct tag : List Byte) : Option (List Byte) :=
  let ws := (aesKeyWords key 52).reverse
  if gcmTag ws nonce aad ct = tag then some (gcmCtr ws nonce ct) else none

/-! ### P-256 -/

/-- The field prime. -/
def p256P : Nat := 2 ^ 256 - 2 ^ 224 + 2 ^ 192 + 2 ^ 96 - 1
/-- The group order. -/
def p256N : Nat := 0xFFFFFFFF00000000FFFFFFFFFFFFFFFFBCE6FAADA7179E84F3B9CAC2FC632551
/-- The curve coefficient b. -/
def p256B : Nat := 0x5AC635D8AA3A93E7B3EBBD55769886BC651D06B0CC53B0F63BCE3C3E27D2604B
/-- The base point. -/
def p256G : Nat × Nat :=
  (0x6B17D1F2E12C4247F8BCE6E563A440F277037D812DEB33A0F4A13945D898C296,
   0x4FE342E2FE1A7F9B8EE7EB4A7C0F9E162BCE33576B315ECECBB6406837BF51F5)

/-- Power modulo m by square and multiply over `fuel` bits. -/
def powMod (m : Nat) : Nat → Nat → Nat → Nat
  | 0, _, _ => 1
  | fuel + 1, b, e =>
    let h := powMod m fuel (b * b % m) (e / 2)
    if e % 2 = 1 then h * b % m else h

/-- Inverse modulo a prime. -/
def invMod (p a : Nat) : Nat := powMod p 256 (a % p) (p - 2)

/-- A point of the curve; none is the point at infinity. -/
abbrev Pt := Option (Nat × Nat)

/-- Sum of two points. -/
def ptAdd (a b : Pt) : Pt :=
  match a, b with
  | none, q => q
  | q, none => q
  | some (x1, y1), some (x2, y2) =>
    let p := p256P
    if x1 = x2 ∧ (y1 + y2) % p = 0 then none
    else
      let l := if x1 = x2 then (3 * x1 * x1 + (p - 3)) * invMod p (2 * y1) % p
        else (y2 + p - y1) * invMod p (x2 + p - x1) % p
      let x3 := (l * l + 2 * p - x1 - x2) % p
      some (x3, (l * (x1 + p - x3) + p - y1) % p)

/-- Multiple of a point, over `fuel` bits of the factor. -/
def ptMul : Nat → Nat → Pt → Pt
  | 0, _, _ => none
  | fuel + 1, k, q =>
    let h := ptMul fuel (k / 2) (ptAdd q q)
    if k % 2 = 1 then ptAdd h q else h

/-- A 64-byte public key, x before y, each little-endian (R427). -/
def pubBytes (q : Pt) : List Byte :=
  match q with
  | some (x, y) => le 32 x ++ le 32 y
  | none => zeros 64

/-- A public key read from its 64 bytes; none when the point is not on the curve. -/
def pubOf (bs : List Byte) : Pt :=
  let x := rd bs 0 32
  let y := rd bs 32 32
  if x < p256P ∧ y < p256P ∧ y * y % p256P = (x * x * x + (p256P - 3) * x + p256B) % p256P then some (x, y) else none

/-- The public key of a private key. -/
def pubKey (d : Nat) : List Byte := pubBytes (ptMul 256 d (some p256G))

/-- The ECDH secret: the x coordinate of a private key times a public one, big-endian as published. -/
def ecdh (d : Nat) (peer : List Byte) : List Byte :=
  match ptMul 256 d (pubOf peer) with
  | some (x, _) => be 32 x
  | none => zeros 32

/-- ECDSA verification of a 64-byte signature (r before s, little-endian, R427) over a message's SHA-256. PRESUMED, log entry 34. -/
def ecdsaOk (pub msg sig : List Byte) : Bool :=
  let r := rd sig 0 32
  let s := rd sig 32 32
  let z := ofBe (sha256 msg)
  match pubOf pub with
  | none => false
  | some q =>
    if r = 0 ∨ p256N ≤ r ∨ s = 0 ∨ p256N ≤ s then false
    else
      let w := invMod p256N s
      match ptAdd (ptMul 256 (z * w % p256N) (some p256G)) (ptMul 256 (r * w % p256N) (some q)) with
      | none => false
      | some (x, _) => x % p256N == r

/-- ECDSA signature with private key `d` and per-signature number `k`. PRESUMED, log entry 34. -/
def ecdsaSign (d k : Nat) (msg : List Byte) : List Byte :=
  let z := ofBe (sha256 msg)
  match ptMul 256 (k % p256N) (some p256G) with
  | none => zeros 64
  | some (x, _) =>
    let r := x % p256N
    le 32 r ++ le 32 (invMod p256N k * (z + r * d) % p256N)

/-- A key identifier: the first 8 bytes of the SHA-256 of the 64-byte public key (R427). -/
def keyId (pub : List Byte) : List Byte := (sha256 pub).take 8

/-! ### The line code of R251 -/

/-- x^8 + x^4 + x^3 + x^2 + 1. -/
def rsPoly : Nat := 0x11D

/-- The generator (x − α^0)…(x − α^7), highest power first. -/
def rsGen : List Nat :=
  (List.range 8).foldl
    (fun (g : List Nat) i => ((g ++ [0]).zip (0 :: g)).map fun (p : Nat × Nat) => p.1 ^^^ gfMul rsPoly (gfPow rsPoly 2 i) p.2) [1]

/-- The eight parity bytes of 52 data bytes. -/
def rsParity (data : List Byte) : List Byte :=
  (data.foldl
    (fun (rem : List Nat) b =>
      let f := b.toNat ^^^ rem.getD 0 0
      ((rem.drop 1 ++ [0]).zip (rsGen.drop 1)).map fun (p : Nat × Nat) => p.1 ^^^ gfMul rsPoly f p.2)
    (List.replicate 8 0)).map (BitVec.ofNat 8)

/-- The codeword of 60 bytes. -/
def rsEncode (data : List Byte) : List Byte := data ++ rsParity data

/-- The eight syndromes. -/
def rsSyndromes (cw : List Byte) : List Nat :=
  (List.range 8).map fun i =>
    let a := gfPow rsPoly 2 i
    cw.foldl (fun acc b => gfMul rsPoly acc a ^^^ b.toNat) 0

/-- Value of a polynomial with its constant term first. -/
def gfEval (p : List Nat) (x : Nat) : Nat := p.foldr (fun c acc => c ^^^ gfMul rsPoly acc x) 0

/-- Sum of two polynomials. -/
def gfAddPoly (a b : List Nat) : List Nat :=
  (List.range (max a.length b.length)).map fun i => a.getD i 0 ^^^ b.getD i 0

/-- The error locator of a list of syndromes (Berlekamp and Massey). -/
def rsLocator (synd : List Nat) : List Nat :=
  let step := fun (st : (List Nat × List Nat) × (Nat × Nat × Nat)) n =>
    let c := st.1.1
    let b := st.1.2
    let l := st.2.1
    let m := st.2.2.1
    let bb := st.2.2.2
    let d := (List.range (l + 1)).foldl (fun acc i => acc ^^^ gfMul rsPoly (c.getD i 0) (synd.getD (n - i) 0)) 0
    if d = 0 then ((c, b), (l, m + 1, bb))
    else
      let f := gfMul rsPoly d (gfInv rsPoly bb)
      let c2 := gfAddPoly c (List.replicate m 0 ++ b.map (gfMul rsPoly f))
      if 2 * l ≤ n then ((c2, c), (n + 1 - l, 1, d)) else ((c2, b), (l, m + 1, bb))
  let r := (List.range 8).foldl step (([1], [1]), (0, 1, 1))
  r.1.1.take (r.2.1 + 1)

/-- The data bytes of a received codeword with at most four byte errors; none when it is uncorrectable (R251). -/
def rsDecode (cw : List Byte) : Option (List Byte) :=
  let s := rsSyndromes cw
  if s.all (· == 0) then some (cw.take 52)
  else
    let loc := rsLocator s
    let deg := loc.length - 1
    let omega := (List.range 8).map fun i =>
      (List.range (i + 1)).foldl (fun acc j => acc ^^^ gfMul rsPoly (loc.getD j 0) (s.getD (i - j) 0)) 0
    let bad := (List.range 60).filter fun p => gfEval loc (gfInv rsPoly (gfPow rsPoly 2 (59 - p))) == 0
    if deg > 4 ∨ bad.length ≠ deg then none
    else
      let fixed := bad.foldl
        (fun (cw : List Byte) p =>
          let x := gfPow rsPoly 2 (59 - p)
          let xi := gfInv rsPoly x
          let deriv := (List.range 8).foldl
            (fun acc i => if i % 2 = 1 then acc ^^^ gfMul rsPoly (loc.getD i 0) (gfPow rsPoly xi (i - 1)) else acc) 0
          let e := gfMul rsPoly x (gfMul rsPoly (gfEval (omega.take 8) xi) (gfInv rsPoly deriv))
          cw.set p (cw.getD p 0 ^^^ BitVec.ofNat 8 e)) cw
      if (rsSyndromes fixed).all (· == 0) then some (fixed.take 52) else none

/-- The scrambler 1 + x^39 + x^58 over one bit: the register holds the last 58 line bits, newest at bit 0. -/
def scrambleBit (reg : Nat) (b : Bool) : Nat × Bool :=
  let o := Bool.xor b (Bool.xor (reg.testBit 38) (reg.testBit 57))
  ((reg * 2 + b2n o) % 2 ^ 58, o)

/-- The descrambler over one bit. -/
def descrambleBit (reg : Nat) (b : Bool) : Nat × Bool :=
  ((reg * 2 + b2n b) % 2 ^ 58, Bool.xor b (Bool.xor (reg.testBit 38) (reg.testBit 57)))

/-- A bit function over bytes, least significant bit first. -/
def overBits (f : Nat → Bool → Nat × Bool) (reg : Nat) (bs : List Byte) : Nat × List Byte :=
  bs.foldl
    (fun (acc : Nat × List Byte) b =>
      let r := (List.range 8).foldl
        (fun (a : Nat × Nat) i => let x := f a.1 (b.toNat.testBit i); (x.1, a.2 + b2n x.2 * 2 ^ i)) (acc.1, 0)
      (r.1, acc.2 ++ [BitVec.ofNat 8 r.2])) (reg, [])

/-- The levels of the symbols that carry a bit stream (R250): pairs of bits for 16-QAM, single bits for QPSK. -/
def symbolLevels (qpsk : Bool) (bs : List Byte) : List Int :=
  let bl := bs.flatMap fun b => (List.range 8).map fun i => b.toNat.testBit i
  if qpsk then bl.map fun b => if b then 1 else -1
  else (chunks 2 bl.length bl).map fun p =>
    match p with
    | [false, false] => -3
    | [false, true] => -1
    | [true, true] => 1
    | _ => 3

end Sys2Proof.Machine
end

