-- ==== Sys2Proof/Machine/LinkHops.lean ====
section
/-! DEFINITION. Shared operations on a hop (R251 to R268, R277, R278): frames sealed and opened, codewords formed
and taken, hop states, keying, and the channels of R265. -/

namespace Sys2Proof.Machine

/-- The link works: the part is powered in RUN or DOZE and in a role, and no FULL session holds its hops (R23, R403,
R438). -/
def State.linkRuns (s : State) : Bool := s.inRunDoze && s.part.serving && !s.part.hubHeld && !s.conflict && !s.trust.hopsHeld

/-- A field of the link block in force. -/
def State.lkF (s : State) (off hi lo : Nat) : Nat := s.fF 0x12 0 off hi lo

/-- Duration of a codeword, ns (R251). -/
def Port.cwNs (p : Port) : Nat := if p.qpsk then 160 else 80

/-- Ack timeout of a TC0 frame, ns (R259). -/
def Port.ackNs (p : Port) : Nat := if p.qpsk then 1700 else 1400

/-! ### Frames sealed and opened (R256, R278) -/

/-- A transmit class as it stands when the hop's keys are new. DEDUCED, log entry 38. -/
def TxClass.fresh : TxClass := { queue := [], cur := none, again := [], unacked := [], lseq := 0 }
/-- A receive class likewise. -/
def RxClass.fresh : RxClass := { part := [], inFrame := false, next := 0, held := [] }

/-- Nonce of a frame: salt, 0x00 0x00 0x00, CTR; of a control codeword with 0x01 first (R278). -/
def nonceOf (salt : List Byte) (control : Bool) (ctr : Nat) : List Byte := salt ++ [if control then 1 else 0, 0, 0] ++ le 5 ctr

/-- A frame as bytes under some keys and a counter (R256, R278). -/
def sealFrame (k : HopKeys) (f : Frame) (lseq ctr : Nat) : List Byte :=
  let h := f.header lseq ctr
  let r := gcmSeal k.txKey (nonceOf k.txSalt false ctr) h f.payload
  h ++ r.1 ++ r.2

/-- A frame sealed with the next counter: with the keys of the hop, or after an exchange in service with the keys before it until
the counter that this end has named (R278). -/
def Port.seal (p : Port) (f : Frame) (lseq : Nat) : List Byte × Port :=
  match p.keys, p.old with
  | none, _ => ([], p)
  | some k, none => (sealFrame k f lseq p.ctr, { p with ctr := p.ctr + 1 })
  | some k, some o =>
    if o.ctr < o.txCtr then (sealFrame o.keys f lseq o.ctr, { p with old := some { o with ctr := o.ctr + 1 } })
    else (sealFrame k f lseq p.ctr, { p with ctr := p.ctr + 1 })

/-- A counter is accepted when it is at most 1,024 below the highest accepted one and has not been accepted (R278). -/
def counterOk (top : Nat) (seen : List Nat) (c : Nat) : Bool := decide (top ≤ c + 1024) && !seen.contains c

/-- The accepted counters that still matter. -/
def counterNote (top : Nat) (seen : List Nat) (c : Nat) : Nat × List Nat :=
  let top := max top c
  (top, (c :: seen).filter fun x => top ≤ x + 1024)

/-! ### Transmission (R254, R255, R258) -/

/-- Time beacons wait with their departure still to be added: the gateway's own takes it as T_ORIGIN, and a forwarded one in
CORR, since residence runs until the first symbol leaves (R274). -/
def Frame.depart (f : Frame) (now : Nat) : Frame :=
  if f.tc = 0 ∧ f.kind = 1 then
    if rd f.payload 12 1 = 0 then { f with payload := le 8 now ++ f.payload.drop 8 }
    else { f with payload := f.payload.take 8 ++ le 4 (rd f.payload 8 4 + now * 16) ++ f.payload.drop 12 }
  else f

/-- The frame that comes next in a class, first transmission or repetition, sealed when it is new. -/
def Port.nextFrame (p : Port) (tc now : Nat) : Option (TxFrame × Port) :=
  let c := p.tx.getD tc TxClass.fresh
  match c.again, c.queue with
  | x :: rest, _ =>
    some ({ x with attempts := x.attempts + 1 }, { p with tx := modNth (fun c => { c with again := rest }) tc p.tx })
  | [], f :: rest =>
    if tc ≠ 0 ∧ 16 ≤ c.unacked.length then none
    else
      let f := f.depart now
      let r := p.seal f c.lseq
      some ({ frame := f, lseq := c.lseq, bytes := r.1, attempts := 1, sentAt := 0 },
        { r.2 with tx := modNth (fun c => { c with queue := rest, lseq := (c.lseq + 1) % 65536 }) tc r.2.tx })
  | [], [] => none

/-- The 52 data bytes of the next chunk of a frame (R254) and whether it is the last. A frame whose length is a
multiple of 51 closes with an empty last chunk. -/
def chunkOf (tc sent : Nat) (bytes : List Byte) : List Byte × Bool :=
  let rest := bytes.drop sent
  let first := fld 5 1 (b2n (sent == 0))
  if rest.length ≤ 50 then
    (le 1 (fld 6 2 tc + first + 16 + 1) ++ le 1 rest.length ++ rest ++ zeros (50 - rest.length), true)
  else (le 1 (fld 6 2 tc + first + 1) ++ rest.take 51, false)

/-- A chunk of class `tc`, when the class has one ready. -/
def Port.sendClass (p : Port) (tc now : Nat) : Option (List Byte × Port) :=
  let started : Option (TxFrame × Nat × Port) :=
    match (p.tx.getD tc TxClass.fresh).cur with
    | some x => some (x.1, x.2, p)
    | none => (p.nextFrame tc now).map fun r => (r.1, 0, r.2)
  started.map fun x =>
    let p := x.2.2
    let c := chunkOf tc x.2.1 x.1.bytes
    let third := tc == 0 && x.2.1 == 0 && x.1.attempts == 3
    let p := if third then
        { p with tc0Third := satInc 8 p.tc0Third, thirds := now :: p.thirds.filter fun a => now < a + 1000000000 }
      else p
    if c.2 then
      let f := { x.1 with sentAt := now + p.cwNs }
      (c.1, { p with tx := modNth (fun y => { y with cur := none, unacked := y.unacked ++ [f] }) tc p.tx })
    else (c.1, { p with tx := modNth (fun y => { y with cur := some (x.1, x.2.1 + 51) }) tc p.tx })

/-- ACK_SEQ and ACK_MAP of a receive class (R258). -/
def RxClass.ack (r : RxClass) : List Byte :=
  le 2 ((r.next + 65535) % 65536) ++
    le 2 (maskOf ((List.range 16).filter fun k => r.held.any fun h => h.1 == (r.next + k) % 65536))

/-- A control codeword under some keys and a counter (R258). -/
def Port.controlWith (p : Port) (k : HopKeys) (cctr now : Nat) : List Byte :=
  let m := le 1 2 ++ le 5 cctr ++ le 6 (now * 16) ++ le 6 p.ctlRx.1 ++ le 2 p.ctlRx.2 ++ p.rx.flatMap RxClass.ack
  m ++ (gcmSeal k.txKey (nonceOf k.txSalt true cctr) m []).2

/-- The next control codeword (R258), under the keys that its counter takes (R278). -/
def Port.control (p : Port) (now : Nat) : List Byte × Port :=
  let sent := fun (c : Nat) => ((c, now * 16 % 2 ^ 48) :: p.ctlSent).take 1024
  match p.keys, p.old with
  | none, _ => (le 1 2 ++ zeros 51, p)
  | some k, none => (p.controlWith k p.cctr now, { p with cctr := p.cctr + 1, ctlDue := false, lastCtl := now, ctlSent := sent p.cctr })
  | some k, some o =>
    if o.cctr < o.txCctr then
      (p.controlWith o.keys o.cctr now,
        { p with old := some { o with cctr := o.cctr + 1 }, ctlDue := false, lastCtl := now, ctlSent := sent o.cctr })
    else (p.controlWith k p.cctr now, { p with cctr := p.cctr + 1, ctlDue := false, lastCtl := now, ctlSent := sent p.cctr })

/-- A control codeword is due: after a TC0 frame, or 8 µs after the last one (R258). -/
def Port.controlDue (p : Port) (now : Nat) : Bool := p.ctlDue || decide (p.lastCtl + 8000 ≤ now)

/-- The first class from `tc` on that has a chunk ready (R255). -/
def Port.sendFrom (p : Port) (now : Nat) : List Nat → Option (List Byte × Port)
  | [] => none
  | tc :: rest =>
    match p.sendClass tc now with
    | some r => some r
    | none => p.sendFrom now rest

/-- The data of the next codeword of a port in the order of R255. -/
def Port.nextCodeword (p : Port) (now : Nat) : List Byte × Port :=
  match p.sendClass 0 now with
  | some r => r
  | none =>
    if p.controlDue now then p.control now
    else (p.sendFrom now [1, 2, 3]).getD (zeros 52, p)

/-- 52 data bytes as they leave on the line: parity added and scrambled (R251). -/
def Port.lineBytes (p : Port) (data : List Byte) : List Byte × Port :=
  let r := overBits scrambleBit p.scrTx (rsEncode data)
  (r.2, { p with scrTx := r.1 })

/-! ### Hop states (R262, R268) -/

/-- A link-state notice to every part (R262). DESIGN CHOICE, log entry 13. -/
def State.linkNotice (s : State) (side : Side) (code : Nat) : State := s.originate 0 0x06 63 (le 1 (s.hopOf side) ++ le 1 code)

/-- A change of a hop for routing: recorded, logged and made known (R262). -/
def State.routeChange (s : State) (side : Side) (code : Nat) : State :=
  let h := s.hopOf side
  let down := (s.link.downHops.filter (· != h)) ++ (if code = 2 then [] else [h])
  let s := ({ s with link := { s.link with downHops := down } }).noteHolder
  (s.event { source := 32, subkind := code, item := h }).linkNotice side code

/-- Frames of TC1 to TC3 that wait at a port or have not been acknowledged, oldest first. -/
def Port.waiting (p : Port) : List Frame :=
  [1, 2, 3].flatMap fun tc =>
    let c := p.tx.getD tc TxClass.fresh
    (c.unacked.map (·.frame)) ++ (c.again.map (·.frame)) ++ ((c.cur.map (·.1.frame)).toList) ++ c.queue

/-- A message of enumeration or keying for the other end of its hop alone, by its first byte: no routing takes it on (R257). -/
def Frame.oneHop (f : Frame) : Bool := f.kind == 0x13 && [0x21, 0x30, 0x31].contains (rd f.payload 0 1)

/-- A hop goes DOWN (R262): unicast frames queued at it leave by the other port (R268); it may train at once when it was UP. -/
def State.hopDown (s : State) (side : Side) : State :=
  let p := s.port side
  if p.st = .down then s
  else
    let moved := p.waiting
    let used := p.st == .up && !p.held
    let s := s.modPort side fun p =>
      { p with st := .down, trained := false, trainFree := p.trainFree || p.st == .up, tagRun := 0, lowSince := none, keying := none, ctlDue := false,
               rx := List.replicate 4 RxClass.fresh, tx := List.replicate 4 TxClass.fresh }
    let s := moved.foldl
      (fun s f => if f.dst = 63 || f.oneHop then s else s.egress side { f with dst := f.dst + 1 }) s
    if used then s.routeChange side 0 else s

/-- The stored position, PARTS and RING_CLOSED are taken up (R266). -/
def LinkState.rejoin (l : LinkState) : LinkState :=
  match l.stored with
  | some x =>
    if l.parts = 0 && (l.position.isNone || l.position == some x.1) then
      { l with
        position := some x.1, parts := x.2.1, ringClosed := x.2.2 }
    else l
  | none => l

/-- A hop comes UP with its mode chosen and keys in force (R262): a part that has been reset takes up its stored place (R266). A
hop that enumeration has keyed and that is still to be given its channel carries enumeration alone, and is used for routing from
its next training on (R263). -/
def State.hopUp (s : State) (side : Side) : State :=
  let p := s.port side
  if p.st = .up then s
  else
    let s := { s with link := s.link.rejoin }
    let enrol := p.retune.isSome || p.answered
    let p := { p with useAtOnce := p.useAtOnce && !enrol }
    let s := s.modPort side fun q =>
      { q with st := .up, held := !p.useAtOnce, useAtOnce := enrol && q.useAtOnce, upSince := s.now, lastUncorr := s.now, lastCodeword := s.now,
               rx := List.replicate 4 RxClass.fresh, ctlDue := true,
               tx := q.tx.map fun (c : TxClass) => { TxClass.fresh with queue := c.queue } }
    let s := s.flushUnrouted
    if p.useAtOnce then s.routeChange side 2 else s

/-- A hop begins to train (R262), on the channel that waits for it (R263): TX_PWR_MAX, APC_EN and QPSK_EN of the active set come
into force at it (R285), QPSK_EN is sent to the other end (R253), and the receiver looks for its alignment (R251). No rule lays
out the message of QPSK_EN. DESIGN CHOICE, log entry 13. -/
def State.startTraining (s : State) (side : Side) : State :=
  let max := signed 8 (bits (cellWord s.cfg.a 0x12 0 0x004) 15 8)
  let ctrl := cellWord s.cfg.a 0x12 0 0
  (s.modPort side fun p =>
    { p with st := .training, trained := false, trainAt := s.now, trainFree := false, channel := p.retune.getD p.channel, retune := none,
             lastCodeword := s.now, txPwr := max, txMax := max, apcEn := bit ctrl 4, qpskEn := bit ctrl 5,
             aligned := false, rxBits := [] }).emit (.trainInfo side (bit ctrl 5))

/-! ### Reception (R251) -/

/-- Bits of bytes, least significant first. -/
def bitsOfBytes (bs : List Byte) : List Bool := bs.flatMap fun b => (List.range 8).map fun i => b.toNat.testBit i
/-- Sixty bytes of a bit stream from an offset. -/
def codewordAt (bl : List Bool) (o : Nat) : List Byte :=
  (List.range 60).map fun i => BitVec.ofNat 8 ((List.range 8).foldl (fun n j => n + b2n (bl.getD (o + 8 * i + j) false) * 2 ^ j) 0)

/-- The bit offset at which 8 consecutive codewords have zero syndrome (R251). -/
def alignment (bl : List Bool) : Option Nat :=
  (List.range (bl.length + 1 - 3840)).find? fun o => (List.range 8).all fun i => (rsSyndromes (codewordAt bl (o + 480 * i))).all (· == 0)

/-- Sixty bytes of line bits taken by a receiver (R251): descrambled, and once it has its alignment the codeword that they
complete. -/
def Port.takeLine (p : Port) (bytes : List Byte) : Option (List Byte) × Port :=
  let d := overBits descrambleBit p.scrRx bytes
  let bl := p.rxBits ++ bitsOfBytes d.2
  let p := { p with scrRx := d.1 }
  if p.aligned then (some (codewordAt bl 0), { p with rxBits := bl.drop 480 })
  else
    match alignment bl with
    | some o => (none, { p with aligned := true, rxBits := bl.drop (o + 3840) })
    | none => (none, { p with rxBits := bl.drop (bl.length - 4319) })

/-! ### Keying (R277, R278, R428) -/

/-- Chain identity in force (R264): at a part that is being enumerated the one of the DISCOVER that it has answered. -/
def State.chainOf (s : State) : Nat :=
  if s.isGateway then (let c := s.regF 0x12 0 0x008; if c = 0 then s.part.ident % 2 ^ 32 else c)
  else match s.link.heard with | some x => x.1 | none => s.link.chainId.getD 0

/-- A certificate checks against one of some issuers' keys (R427). -/
def certOk (keys : List (List Byte)) (kind : Nat) (c : List Byte) : Bool :=
  c.length == 160 && rd c 8 1 == kind &&
    keys.any fun k => keyId k == slice c 80 8 && ecdsaOk k (c.take 96) (slice c 96 64)

/-- The lifecycle pair of R428 may key a hop. -/
def State.pairAllowed (s : State) (peerLife : Nat) (peerRoot : List Byte) : Bool :=
  let l := s.trust.life
  let open_ := fun (x : Nat) => x == 0 || x == 2
  if l = 1 ∧ peerLife = 1 then keyId s.trust.ownerRoot == peerRoot
  else if open_ l && open_ peerLife then true
  else if l = 1 then open_ peerLife && bit (rd s.trust.sealed_ 1 1) 2
  else open_ l && peerLife == 1

/-- Transmit and receive chain delays of this part (R273). -/
def State.chainDelays (s : State) : Nat × Nat := ((Config.chainDelays s.part.ident).1.toNat, (Config.chainDelays s.part.ident).2.toNat)

/-- Bytes of a keying offer: ephemeral key, certificate, pack time with TQ, lifecycle state and owner-root key
identifier (R277), and the chain delays of this end (R273). -/
def State.offerBytes (s : State) (pub : List Byte) : List Byte :=
  le 1 0x30 ++ pub ++ s.trust.fkCert ++ le 8 s.now ++ le 1 s.tq ++ le 1 s.trust.life ++
    (if s.trust.life = 1 then keyId s.trust.ownerRoot else zeros 8) ++ le 4 s.chainDelays.1 ++ le 4 s.chainDelays.2

/-- A keying message sent: in clear, or under the old keys as a TC1 frame of one hop (R278). -/
def State.sendKeying (s : State) (side : Side) (rekey : Bool) (b : List Byte) : State :=
  if rekey then s.enqueue side { tc := 1, kind := 0x13, dst := 0, origin := s.pos, flags := flFirst ||| flLast, mseq := 0, payload := b }
  else s.emit (.clear side b)

/-- Counters ahead of the present ones at which an end switches to new keys in service, which leaves the exchange the time to
end: no rule names the distance (R278). DESIGN CHOICE, log entry 13. -/
def switchAhead : Nat := 65536

/-- This end starts keying with a fresh ephemeral key. -/
def State.startKeying (s : State) (side : Side) (rekey : Bool) : State :=
  let r := s.drawBits 256
  let priv := r.1 % (p256N - 1) + 1
  let s := r.2
  let pub := pubKey priv
  let p := s.port side
  let k : Keying :=
    { priv := priv, pub := pub, tSent := s.now, peer := [], rekey := rekey, named := (p.ctr + switchAhead, p.cctr + switchAhead) }
  let s := s.modPort side fun p => { p with keying := some k }
  s.sendKeying side rekey (s.offerBytes pub)

/-- What a signature of R277 covers: the end on the DOWN port's side of the hop comes first. -/
def State.keyingText (s : State) (side : Side) (k : Keying) : List Byte :=
  let mine := (k.pub, le 8 s.part.ident, le 8 k.tSent)
  let peer := (slice k.peer 1 64, slice k.peer 65 8, slice k.peer 225 8)
  let a := if side = .down then mine else peer
  let b := if side = .down then peer else mine
  a.1 ++ b.1 ++ a.2.1 ++ b.2.1 ++ a.2.2 ++ b.2.2 ++ le 4 s.chainOf ++ le 1 (s.hopOf side)

/-- Keying refused (R428): sources 57 and 36. -/
def State.refuseKeying (s : State) (side : Side) : State :=
  let s := s.modPort side fun p => { p with keying := none }
  (s.event { source := 57, subkind := 2 }).event { source := 36, subkind := 2, item := s.hopOf side }

/-- The keys of R277 in force at a port: counters start at 0. After an exchange in service the keys before it stay for what either
end seals below the counters `peer` and its own that the exchange names (R278). -/
def State.installKeys (s : State) (side : Side) (k : Keying) (peer : Nat × Nat) : State :=
  let x := hkdf72 (le 4 s.chainOf ++ le 1 (s.hopOf side)) (ecdh k.priv (slice k.peer 1 64)) (ascii "LALESET HOP")
  let dn := (x.take 32, slice x 64 4)
  let up := (slice x 32 32, slice x 68 4)
  let t := if side = .down then dn else up
  let r := if side = .down then up else dn
  s.modPort side fun p =>
    let old := p.keys.map fun x =>
      { keys := x, ctr := p.ctr, cctr := p.cctr, txCtr := k.named.1, txCctr := k.named.2, rxCtr := peer.1, rxCctr := peer.2,
        rxCtrTop := p.rxCtrTop, rxCtrSeen := p.rxCtrSeen, rxCctrTop := p.rxCctrTop, rxCctrSeen := p.rxCctrSeen : OldKeys }
    { p with keys := some { txKey := t.1, txSalt := t.2, rxKey := r.1, rxSalt := r.2 }, old := if k.rekey then old else none,
             peerDelays := (rd k.peer 243 4, rd k.peer 247 4), keying := none, ctr := 0, cctr := 0,
             rxCtrTop := 0, rxCtrSeen := [], rxCctrTop := 0, rxCctrSeen := [], tagRun := 0, ctlSent := if k.rekey then p.ctlSent else [],
             ctlRx := if k.rekey then p.ctlRx else (0, 0), neighbour := some (rd k.peer 65 8), useAtOnce := p.useAtOnce || !k.rekey }

/-- The part that answered a DISCOVER is keyed anew on this port: what it held of a hop there is gone (R263). -/
def Port.enrol (p : Port) : Port :=
  if p.answered then
    { p with keys := none, old := none, keying := none, neighbour := none, useAtOnce := true, rx := List.replicate 4 RxClass.fresh,
             tx := List.replicate 4 TxClass.fresh }
  else p

/-- A peer's offer (R277, R428). A neighbour whose identity differs from the stored one is not keyed (R266). At a
gateway a later pack time of the peer makes a step forward to that time plus 1 s (R272). -/
def State.takeOffer (s : State) (side : Side) (b : List Byte) : State :=
  let s := if (s.port side).keying.isNone then s.modPort side Port.enrol else s
  let cert := slice b 65 160
  let ident := rd cert 0 8
  let other := match (s.port side).neighbour with | some n => n != ident | none => false
  if other then s.event { source := 34, subkind := 5, item := s.pos }
  else if !certOk Config.mfgKeys 1 cert || !s.pairAllowed (rd b 234 1) (slice b 235 8) || s.trust.life == 3 then s.refuseKeying side
  else
    let rekey := (s.port side).keys.isSome && (s.port side).st == .up
    let s := match (s.port side).keying with | some _ => s | none => s.startKeying side rekey
    let t := rd b 225 8
    let s := if s.isGateway && decide (s.now < t) then (s.at_ (t + 1000000000)).rephase else s
    match (s.port side).keying with
    | none => s
    | some k =>
      let k := { k with peer := b }
      let s := s.modPort side fun p => { p with keying := some k }
      let r := s.drawBits 256
      let sig := ecdsaSign s.trust.fk (r.1 % (p256N - 1) + 1) (r.2.keyingText side k)
      r.2.sendKeying side k.rekey (le 1 0x31 ++ sig ++ if k.rekey then le 5 k.named.1 ++ le 5 k.named.2 else [])

/-- The peer's signature: the keys come into force, and a hop that has trained comes UP. -/
def State.takeSignature (s : State) (side : Side) (b : List Byte) : State :=
  match (s.port side).keying with
  | none => s
  | some k =>
    if k.peer = [] then s
    else if !ecdsaOk (slice k.peer 81 64) (s.keyingText side k) (slice b 1 64) then s.refuseKeying side
    else
      let s := s.installKeys side k (rd b 65 5, rd b 70 5)
      let p := s.port side
      if p.st = .training ∧ p.trained then s.hopUp side else s

/-! ### Channels (R265) -/

/-- Channel codes that CH_EXCL of a plan leaves, ascending. -/
def planLeft (plan : List Byte) : List Nat := (List.range 4).filter fun c => !bit (rd plan 4 4) c

/-- EXPECT_PARTS of a plan. -/
def planExpect (plan : List Byte) : Nat := bits (rd plan 0 4) 15 8

/-- Entry of LINK_CHMAP. -/
def planMap (plan : List Byte) (h : Nat) : Nat := bits (rd plan (0x10 + 4 * (h / 16)) 4) (2 * (h % 16) + 1) (2 * (h % 16))

/-- Channel of hop h under the plan alone, or of the closing hop. -/
def planHop (plan : List Byte) (h : Nat) : Nat :=
  let left := planLeft plan
  let base := bits (rd plan 4 4) 5 4
  if bit (rd plan 0 4) 3 then planMap plan h else left.getD ((h + base) % (left.length - 1)) 0

/-- Hop h gets its channel by the rule for a chain longer than EXPECT_PARTS (R265). -/
def planBeyond (plan : List Byte) (h : Nat) : Bool := planExpect plan != 0 && decide (planExpect plan ≤ h + 1)

/-- Channel of hop h when it does not close the ring (R265). -/
def hopChannel (plan : List Byte) : Nat → Nat
  | 0 => if planBeyond plan 0 then (planLeft plan).headD 0 else planHop plan 0
  | h + 1 =>
    if planBeyond plan (h + 1) then
      let prev := hopChannel plan h
      ((planLeft plan).find? (· != prev)).getD 0
    else planHop plan (h + 1)

/-- The closing hop's channel comes from the rule for another count than EXPECT_PARTS (R265). -/
def closeBeyond (plan : List Byte) (parts : Nat) : Bool := planExpect plan != 0 && planExpect plan != parts

/-- Channel of the closing hop of a ring of some parts (R265). -/
def closingChannel (plan : List Byte) (parts : Nat) : Nat :=
  let left := planLeft plan
  if closeBeyond plan parts then
    let a := hopChannel plan 0
    let b := hopChannel plan (parts - 2)
    (left.find? fun c => c != a && c != b).getD 0
  else if bit (rd plan 0 4) 3 then planMap plan (parts - 1)
  else left.getD (left.length - 1) 0

end Sys2Proof.Machine
end

