-- ==== Sys2Proof/Machine/HifOps.lean ====
section
/-! DEFINITION. Shared operations of the host interface (R319 to R347): signalling, errors, reset, the start of
commands, and the properties of the opcodes (R348). -/

namespace Sys2Proof.Machine

/-! ### Opcodes (R348) -/

/-- The properties of an opcode: a data buffer (0 none, 1 in, 2 out), the least buffer, TARGET (0 hub, 1 die, 2 any, 3 a
die or 0), broadcast, default TIMEOUT in ms. -/
structure OpInfo where
  dir : Nat
  least : Nat
  target : Nat
  broadcast : Bool
  timeout : Nat
deriving DecidableEq, Repr

/-- The table of R348. -/
def opInfo (code : Nat) : Option OpInfo :=
  let op := fun (d l t : Nat) (b : Bool) (ms : Nat) => some { dir := d, least := l, target := t, broadcast := b, timeout := ms : OpInfo }
  match code with
  | 0x01 => op 2 48 0 false 100
  | 0x02 => op 0 0 0 false 65535
  | 0x03 => op 2 4 2 false 1000
  | 0x04 => op 1 4 2 false 1000
  | 0x05 => op 0 0 0 true 65535
  | 0x06 => op 0 0 2 false 100
  | 0x07 => op 0 0 0 false 100
  | 0x08 => op 2 4 2 false 1000
  | 0x09 => op 0 0 1 true 65535
  | 0x0A => op 2 4 1 false 10000
  | 0x0B => op 2 4 2 false 10000
  | 0x0C => op 0 0 3 true 100
  | 0x0D => op 0 0 0 true 1000
  | 0x0E => op 0 0 2 true 65535
  | 0x0F => op 1 1 2 false 1000
  | 0x10 => op 2 256 0 false 1000
  | 0x11 => op 2 256 0 false 1000
  | 0x12 => op 1 4 0 false 10000
  | 0x13 => op 0 0 0 false 10000
  | 0x14 => op 0 0 0 true 1000
  | 0x15 => op 2 4 0 false 10000
  | 0x16 => op 0 0 0 false 100
  | 0x17 => op 1 4 0 false 10000
  | 0x18 => op 0 0 0 true 100
  | _ => none

/-! ### Queues -/

/-- The host interface of the part is powered and reachable: the endpoint's rail is up and no warning stands (R319, R411). -/
def State.hifUp (s : State) : Bool :=
  s.hosted && s.inRunDoze && s.part.serving && !s.part.hubHeld && ((s.power.rails[8]?).map (·.st)) == some 2 && s.power.warnAt.isNone

/-- Queues are being served (R324, R344). -/
def State.hifServes (s : State) : Bool := s.hifUp && s.hif.en && s.hif.ready && !s.hif.fatal

/-- A change of the host interface. -/
def State.modHif (s : State) (f : HifState → HifState) : State := { s with hif := f s.hif }

/-- EN of a queue's configuration. -/
def Queue.en (q : Queue) : Bool := bit q.cfg 0
/-- SIZE of a queue in entries. -/
def Queue.size (q : Queue) : Nat := bits q.cfg 31 16
/-- Base address. -/
def Queue.base (q : Queue) : Nat := q.baseHi * 2 ^ 32 + q.baseLo
/-- In service: enabled and not stopped (R326, R344). -/
def Queue.serves (q : Queue) : Bool := q.active && q.err == 0
/-- The queue is full for its writer (R326). -/
def Queue.full (q : Queue) : Bool := (q.ptr + 1) % q.size == q.host
/-- Free entries for the part to write. -/
def Queue.freeEntries (q : Queue) : Nat := if q.size = 0 then 0 else (q.host + 2 * q.size - q.ptr - 1) % q.size
/-- A queue returned to its start: head, tail and phase at their reset values (R321, R323). -/
def Queue.rewind (q : Queue) : Queue := { q with ptr := 0, host := 0, phase := true, seq := 0, unsignalled := none, err := 0 }
/-- EN cleared (R321, R323). -/
def Queue.stopped (q : Queue) : Queue := { q.rewind with cfg := q.cfg / 2 * 2, active := false }
/-- The pointer moved past one entry; the phase inverts when it wraps (R336). -/
def Queue.step (q : Queue) : Queue :=
  let p := if q.ptr + 1 < q.size then q.ptr + 1 else 0
  { q with ptr := p, phase := if p = 0 then !q.phase else q.phase }

/-- Submission queue n. -/
def HifState.sqOf (h : HifState) (n : Nat) : Queue := h.sq.getD n Queue.initial
/-- Completion queue n. -/
def HifState.cqOf (h : HifState) (n : Nat) : Queue := h.cq.getD n Queue.initial
/-- Stream ring r. -/
def HifState.strOf (h : HifState) (r : Nat) : Queue := h.str.getD r Queue.initial

/-! ### Signals and errors (R343, R344) -/

/-- A vector raised: sent, or its pending bit set while it is masked (R343). -/
def State.raiseVector (s : State) (v : Nat) : State :=
  if s.hif.masked.contains v then
    s.modHif fun h => { h with pendingVec := if h.pendingVec.contains v then h.pendingVec else h.pendingVec ++ [v] }
  else s.emit (.msix v)

/-- An entry was written to a queue: signalled at once, or coalesced (R343). -/
def State.signal (s : State) (q : Queue) (put : Queue → State → State) : State :=
  if !bit q.cfg 1 then s
  else if bits q.cfg 9 2 = 0 then s.raiseVector (bits q.cfg 15 10)
  else if q.unsignalled.isSome then s
  else put { q with unsignalled := some s.now } s

/-- Completion queue n replaced. -/
def State.putCq (n : Nat) (q : Queue) (s : State) : State := s.modHif fun h => { h with cq := setNth n q h.cq }
/-- Stream ring r replaced. -/
def State.putStr (r : Nat) (q : Queue) (s : State) : State := s.modHif fun h => { h with str := setNth r q h.str }
/-- The event queue replaced. -/
def State.putEq (q : Queue) (s : State) : State := s.modHif fun h => { h with eq := q }
/-- Submission queue n replaced. -/
def State.putSq (n : Nat) (q : Queue) (s : State) : State := s.modHif fun h => { h with sq := setNth n q h.sq }

/-- The interface stops (R344): FATAL is signalled on vector 0. -/
def State.hifFatal (s : State) (code : Nat) : State :=
  (s.modHif fun h => { h with fatal := true, fatalCode := code, ready := false }).raiseVector 0

/-- A queue-error event (R326, R344): 1 SQ, 2 CQ, 3 stream ring. -/
def State.queueError (s : State) (kind idx err : Nat) : State := s.event { source := 44, subkind := kind, item := idx, arg16 := err }

/-- SHUT_DONE follows the drain (R324): every command fetched has completed, and of what waits to be written nothing can be: the
next claimed record of a ring fits in it, the event queue has room, a completion's CQ has. -/
def State.checkDrain (s : State) : State :=
  let h := s.hif
  let ring := fun (r : Nat) => match h.strWait.find? fun w => w.ring == r && w.writtenEnd.isNone with
    | none => false
    | some w => (h.strOf r).serves && (h.strOf r).ringFits w.bytes.length
  let strBusy := (List.range 32).any ring
  let evBusy := !h.eqWait.isEmpty && h.eq.serves && !h.eq.full
  let cqBusy := h.cqWait.any fun w => (h.cqOf w.cq).serves && !(h.cqOf w.cq).full
  if h.shutdown && h.ready && h.inflight.all (·.completed) && !cqBusy && !strBusy && !evBusy then s.modHif fun h => { h with shutDone := true }
  else s

/-- What the closing of a subscription does at the source of its stream: the fast stream of an own die closes (R93), and
another part is told, in a frame that no rule lays out: 0x07 and SUB. DESIGN CHOICE, log entry 13. -/
def State.endSub (s : State) (x : Sub) : State :=
  if x.ident = s.part.ident then (if x.recType = 0x0302 then s.closeFastStream x.src x.sub else s)
  else
    match s.posOf x.ident with
    | some p => s.originate 1 0x10 p (le 1 0x07 ++ le 1 x.sub)
    | none => s

/-- Completions still to come for a command in flight: one, or for a broadcast one of each part that has not completed it. -/
def State.toCome (s : State) (x : InFlight) : Nat := if x.cmd.dest = 63 then max 1 s.chainParts - x.votes.length else 1

/-- The host interface loses what it holds (R321): queues stop, commands in flight are forgotten, their completions
will be discarded. Answers the number of completions that other parts will send. -/
def State.hifClear (s : State) : Nat × State :=
  let h := s.hif
  let live := h.inflight.filter fun x => x.started && !x.completed
  let own := fun (x : InFlight) => x.cmd.dest == 0 || (x.cmd.dest == 63 && !x.votes.any fun v => v.1 == 0)
  let there := (live.map fun x => s.toCome x - b2n (own x)).foldl (· + ·) 0
  let s := h.strWait.foldl (fun s w => s.unclaim w) s
  let s := h.subs.foldl (fun s x => s.endSub x) s
  (there,
   s.modHif fun h =>
    { h with en := false, ready := false, fatal := false, fatalCode := 0, shutDone := false, eq := h.eq.stopped,
             sq := h.sq.map Queue.stopped, cq := h.cq.map Queue.stopped, str := h.str.map Queue.stopped, dbReading := false, dbAgain := false,
             inflight := [], cqWait := [], strWait := [], subs := [], rrSq := 15, rrLeft := 0,
             orphans := h.orphans ++ live.flatMap fun x => List.replicate (s.toCome x) (x.cmd.sq, x.cmd.cid, x.cmd.gen) })

/-- The endpoint loses power (R319): nothing is kept but events that still wait for the event queue. -/
def State.hifOff (s : State) : State :=
  let w := s.hif.eqWait
  let s := s.hifClear.2
  { s with hif := { HifState.initial with eqWait := w, asleep := s.hif.asleep, orphans := s.hif.orphans, fetchNo := s.hif.fetchNo } }

/-! ### The start of commands (R332, R333) -/

/-- The descriptor of a command as its sixty-four bytes (R329). -/
def cmdBytes (c : Cmd) : List Byte :=
  le 1 c.opcode ++ le 1 c.flags ++ le 2 c.cid ++ le 1 c.dest ++ le 1 c.target ++ le 2 c.timeout ++ le 8 c.bufAddr ++ le 4 c.bufLen ++
    zeros 4 ++ slice c.param 0 40

/-- A command from its descriptor, the SQ that it came from and the number of its fetch. DESIGN CHOICE, log entry 12. -/
def cmdOf (sq gen : Nat) (b : List Byte) : Cmd :=
  { sq := sq, gen := gen, opcode := rd b 0 1, flags := rd b 1 1, cid := rd b 2 2, dest := rd b 4 1, target := rd b 5 1, timeout := rd b 6 2,
    bufAddr := rd b 8 8, bufLen := rd b 16 4, param := slice b 24 40 }

/-- A position can be reached over hops that are not DOWN (R267, R333). -/
def State.reachable (s : State) (dest : Nat) : Bool :=
  let n := s.ringN
  let dn := (dest + n - s.pos % n) % n
  let up := (s.pos + n - dest % n) % n
  let open_ := fun (l : List Nat) => l.all fun h => !s.link.downHops.contains h
  let okDn := open_ (pathHops n s.pos dn .down)
  let okUp := open_ (pathHops n s.pos up .up)
  if s.link.ringClosed then okDn || okUp else if dest < s.pos then okUp else okDn

/-- Commands in execution in the part at a position (R332). -/
def HifState.loadOf (h : HifState) (p : Nat) : Nat :=
  (h.inflight.filter fun y =>
    y.started && !y.completed && (y.cmd.dest == p || (y.cmd.dest == 63 && !y.votes.any fun v => v.1 == p))).length

/-- Two commands are for one part: a broadcast is for every part (R332). -/
def samePart (d e : Nat) : Bool := d == e || d == 63 || e == 63

/-- A command in flight may start now (R332, R333): what it needs of its buffer has been read, FENCE and the order of its SQ allow it,
each part that it is for has fewer than 32 in execution, and no enumeration holds it. -/
def State.mayStart (s : State) (x : InFlight) : Bool :=
  let h := s.hif
  let mine := (h.inflight.takeWhile fun y => !x.same y).filter fun y => y.cmd.sq == x.cmd.sq
  let fence := !bit x.cmd.flags 0 || mine.all (·.completed)
  let order := mine.all fun y => y.started || y.completed || !samePart y.cmd.dest x.cmd.dest
  let parts := if x.cmd.dest = 63 then List.range (max 1 s.chainParts) else [x.cmd.dest]
  !x.started && !x.completed && !x.reading && fence && order && (parts.all fun p => decide (h.loadOf p < 32)) &&
    !(s.link.enumState == 1 && x.cmd.dest != 0)

/-- A wake run, or a long beacon for a part in SHIP, leaves towards a position (R351). -/
def State.wakePart (s : State) (pos state : Nat) : State :=
  let side := (s.route pos).1
  s.emit (if state = 3 then .longBeacon side else .wakeRun side)

/-- The command asks for RUN (R349). -/
def asksRun (c : Cmd) : Bool := c.opcode == 0x0D && rd c.param 0 1 == 0

/-- What a broadcast means for the parts in SLEEP and SHIP (R351): POWER_STATE with STATE 0 wakes them; any other opcode each of them
completes with POWER_STATE, without being sent. -/
def State.castAsleep (s : State) (x : InFlight) : State :=
  if !s.hif.inflight.any x.same then s
  else if asksRun x.cmd then s.hif.asleep.foldl (fun s y => s.wakePart y.1 y.2) s
  else s.hif.asleep.foldl (fun s y => s.takeCompletion x.cmd.sq x.cmd.cid x.cmd.gen y.1 0 0 Status.powerState.code []) s

/-- The part at a position is in RUN again, as its event says: what asked for it completes (R348, R351). -/
def State.awake (s : State) (pos : Nat) : State :=
  let s := s.modHif fun h => { h with asleep := h.asleep.filter fun y => y.1 != pos }
  let due := s.hif.inflight.filter fun x =>
    x.started && !x.completed && asksRun x.cmd && (x.cmd.dest == pos || (x.cmd.dest == 63 && !x.votes.any fun v => v.1 == pos))
  due.foldl (fun s x => s.takeCompletion x.cmd.sq x.cmd.cid x.cmd.gen pos 0 0 0 []) s

/-- A broadcast COMMIT with ACTION 0 and GROUP (R359). -/
def isGroupCommit (c : Cmd) : Bool := c.opcode == 0x05 && c.dest == 63 && rd c.param 0 1 == 0 && bit (rd c.param 1 1) 0

/-- A group commit starts: it needs T_COMMIT at least 30 ms after its fetch, and then the prepare runs (R359). That the gateway judges
this before any part judges whether it may take the command at all (R24) no rule says: a late one completes with INVALID_FIELD also
in ROLE_CONFLICT. DESIGN CHOICE, log entry 14. -/
def State.startGroup (s : State) (x : InFlight) (body : List Byte) : State :=
  let tc := rd x.cmd.param 8 8
  if tc < x.fetched + 30000000 then s.queueCompletion x 63 0 0 Status.invalidField.code
  else
    let g : GroupRun := { cmd := x.cmd, tCommit := tc, prepared := [] }
    ({ s with cfg := { s.cfg with group := some g } }).originate 1 0x10 63 body

/-- Island or port that a stream command names (R291, R349). -/
def streamSrc (c : Cmd) : Nat := if rd c.param 4 2 = 0x0901 then rd c.param 2 1 else c.target

/-- The stream fields of a command are in range: a stream type of R290, and PORT 1 or 2 for a port stream, else 0. -/
def streamOk (c : Cmd) : Bool :=
  let port := rd c.param 2 1
  isStreamType (rd c.param 4 2) && (if rd c.param 4 2 = 0x0901 then port == 1 || port == 2 else port == 0)

/-- The refusal that a STREAM_OPEN meets at the gateway, which holds the subscriptions (R350, R362). -/
def State.subRefusal (s : State) (c : Cmd) : Option Status :=
  let sub := rd c.param 0 1
  let ring := rd c.param 1 1
  if 127 < sub ∨ 31 < ring ∨ rd c.param 6 2 = 0 ∨ !streamOk c then some .invalidField
  else if s.hif.subs.any fun x => x.sub == sub then some .subInUse
  else if !(s.hif.strOf ring).en then some .ringDisabled
  else none

/-- The subscription of a STREAM_OPEN. -/
def State.subOf (s : State) (c : Cmd) : Sub :=
  { sub := rd c.param 0 1, ring := rd c.param 1 1, ident := s.identOf c.dest, recType := rd c.param 4 2, src := streamSrc c, decim := rd c.param 6 2,
    tFrom := rd c.param 8 8, count := 0, skipped := 0, closing := none }

/-- A STREAM_OPEN for another part: the gateway opens the subscription, and the part is told to send its records. -/
def State.openRemote (s : State) (x : InFlight) (body : List Byte) : State :=
  match s.subRefusal x.cmd with
  | some st => s.queueCompletion x x.cmd.dest 0 0 st.code
  | none => (s.modHif fun h => { h with subs := h.subs ++ [s.subOf x.cmd] }).originate 1 0x10 x.cmd.dest body

/-- A command starts: at the gateway it executes, to another part it leaves as a frame (R333, R351). DESIGN CHOICE, log entry 12. -/
def State.startCmd (s : State) (x : InFlight) : State :=
  let mark := fun (y : InFlight) => if x.same y && !y.started then { y with started := true } else y
  let s := s.modHif fun h => { h with inflight := h.inflight.map mark }
  let x := { x with started := true }
  let body := cmdBytes x.cmd ++ le 1 x.cmd.sq ++ le 2 x.cmd.gen ++ x.data
  if x.cmd.dest = 0 then s
  else if x.cmd.dest = 63 then (if isGroupCommit x.cmd then s.startGroup x body else s.originate 1 0x10 63 body).castAsleep x
  else
    match s.hif.asleep.find? fun y => y.1 == x.cmd.dest with
    | some y =>
      if asksRun x.cmd then s.wakePart y.1 y.2 else s.queueCompletion x x.cmd.dest 0 0 Status.powerState.code
    | none =>
      if !s.reachable x.cmd.dest then s.queueCompletion x x.cmd.dest 0 0 Status.unreachable.code
      else if x.cmd.opcode = 0x06 then s.openRemote x body
      else if x.cmd.opcode = 0x12 then s.originate 3 0x31 x.cmd.dest body
      else s.originate 1 0x10 x.cmd.dest body

/-- Every command that may start now starts, in fetch order. -/
def State.startWaiting (s : State) : Nat → State
  | 0 => s
  | n + 1 =>
    match s.hif.inflight.find? s.mayStart with
    | none => s
    | some x => (s.startCmd x).startWaiting n

/-- Every command that waits looked at once. -/
def State.startAll (s : State) : State := s.startWaiting (s.hif.inflight.length + 1)

/-! ### Records that are read (R299, R305, R352) -/

/-- Held records of a stream of this part in stream order, from the first whose time stamp is `tFrom` or later (R352). -/
def State.streamRecs (s : State) (recType src tFrom : Nat) : List Rec :=
  (s.locus.recs.filter fun r => r.owner == 0 && r.recType == recType && r.src == src).dropWhile fun r => decide (r.time < tFrom)

/-- Whole records in order until the buffer cannot take the next one; stops before a record that is lost. Answers the
bytes, the records written and whether it met a lost one. -/
def fillWith (room : Nat) : List (List Byte × Bool) → List Byte × Nat × Bool
  | [] => ([], 0, false)
  | x :: xs =>
    if x.2 then ([], 0, true)
    else if room < x.1.length then ([], 0, false)
    else
      let r := fillWith (room - x.1.length) xs
      (x.1 ++ r.1, r.2.1 + 1, r.2.2)

/-- Records with what a read of the store finds: the numbers in `lost` name those in T3 or T5 of which a read fails. A D0 record is
then read from its second copy (R299), and a record of T5 is lost when its holder has not given it back. -/
def withLost (rs : List Rec) (lost : List Nat) (got : List (Nat × List Byte)) : List (List Byte × Bool) :=
  rs.zipIdx.map fun x =>
    let bad := lost.contains x.2 && !(x.1.cls == 0 && decide (2 ≤ x.1.copies))
    if x.1.tier = .t5 then
      match got.find? fun g => g.1 == x.1.time with
      | some g => (g.2, bad)
      | none => ([], true)
    else (x.1.bytes, bad && x.1.tier == .t3)

/-- A STORE_READ completes (R352). -/
def State.finishRead (s : State) (c : Cmd) (lost : List Nat) (got : List (Nat × List Byte)) : State :=
  let r := fillWith c.bufLen (withLost (s.streamRecs (rd c.param 4 2) (streamSrc c) (rd c.param 8 8)) lost got)
  s.completeData c (if r.2.2 then .recordLost else .success) r.2.1 r.1

/-- Subscriptions of which no further entry will be written end, and their STREAM_CLOSE completes (R348). -/
def State.endClosed (s : State) : State :=
  let ended := fun (x : Sub) => x.closing.isSome && !s.hif.strWait.any fun w => w.sub == x.sub && w.writtenEnd.isNone
  let gone := s.hif.subs.filter ended
  gone.foldl (fun s x => s.completeOpt x.closing .success 0) (s.modHif fun h => { h with subs := h.subs.filter fun x => !ended x })

/-- Something has happened that DOZE_IDLE counts from (R414). -/
def State.noteActivity (s : State) : State := { s with power := { s.power with idleSince := s.now } }

/-- DOZE ends (R320, R328, R351, R414): the part is in RUN again. -/
def State.undoze (s : State) : State :=
  let s := s.noteActivity
  if s.power.st = 1 then
    let s := s.accrueTest
    let s := { s with power := { s.power with st := 0, lastSt := 0 } }
    s.islands.foldl (fun s k => s.fastDomain k) s
  else s

end Sys2Proof.Machine
end

