-- ==== Sys2Proof/Machine/SingleWire.lean ====
section
/-! DEFINITION. The single-wire sensor ports (R229 to R248). -/

namespace Sys2Proof.Machine

/-- SWP_CTRL of port p, 1 or 2, in force (R246). -/
def State.swpCtrl (s : State) (p : Nat) : Nat := s.regF 0x11 0 (4 * (p - 1))
/-- SWP_CYCLE of a port in ns. -/
def State.swpCycle (s : State) (p : Nat) : Nat := bits (s.swpCtrl p) 31 16 * 1000000

/-- PD9 is on (R403, R411): in RUN and DOZE, until a power-fail warning. A fault of VEXT1 switches only the rail off (R400). -/
def State.pd9 (s : State) : Bool := s.inRunDoze && s.part.serving && s.power.warnAt.isNone

/-- The pull-up of the line of port p in ohms, 0 for none (R229, R245): internal with SWP_PULL 0, the designer's with 1; in
SLEEP and SHIP the weak one of a port with SWP_WAKE 1. -/
def State.pullUp (s : State) (p : Nat) : Nat :=
  if s.pd9 then (if bit (s.swpCtrl p) 1 then 0 else 1500)
  else if (s.power.st == 2 || s.power.st == 3) && bit (s.swpCtrl p) 2 then 100000
  else 0

/-- A change to port p. -/
def State.modSwp (s : State) (p : Nat) (f : SwpPort → SwpPort) : State :=
  if p = 0 then s else { s with swp := modNth f (p - 1) s.swp }

/-- Port p, if there is such a port. -/
def State.onSwp (s : State) (p : Nat) (f : SwpPort → State) : State :=
  if p = 0 then s else match s.swp[p - 1]? with | none => s | some x => f x

/-- What a port does on its line, in order. -/
def State.emits (s : State) (l : List Out) : State := l.foldl (fun s o => s.emit o) s

/-- The command byte of a search (R233): 1 SEARCH_NEW, 2 SEARCH_ALL. -/
def searchByte (kind : Nat) : Byte := if kind = 1 then 0xD2 else 0xD1

/-- A search starts: the reset of its first pass takes every sensor out of stream mode (R233, R236). -/
def State.startSearch (s : State) (p kind : Nat) : State :=
  (s.modSwp p fun x =>
    if kind = 1 then { x with searching := 1, st := 1, inCycle := false, cmds := [], runs := x.cmds, pendSearch := false }
    else { x with searching := kind, st := 1, inCycle := false }).emit (.line p 1)

/-- The committed fields of a port taken while it is between cycles and searches (R246). -/
def State.adoptSwp (s : State) (p : Nat) : State :=
  let s := s.takeRange 0x11 0 (4 * (p - 1)) (4 * p)
  if !bit (s.swpCtrl p) 0 then s.modSwp p fun x => { x with st := 0, searching := 0, inCycle := false } else s

/-- A new active set in force on the ports that have no cycle or search in progress (R246). -/
def State.adoptIdlePorts (s : State) : State :=
  [1, 2].foldl (fun s p => s.onSwp p fun x => if x.searching != 0 || x.inCycle then s else s.adoptSwp p) s

/-- SEARCH_ALL (R236): PD9 has powered up, or a commit has enabled the port for the first time. -/
def execSearchAll (t p : Nat) (s : State) : Outcome :=
  let s := s.at_ t
  .next (s.onSwp p fun x =>
    if x.st ≠ 0 || !s.pd9 then s
    else
      let s := s.adoptSwp p
      if bit (s.swpCtrl p) 0 then s.startSearch p 2 else s)

/-- SEARCH_NEW_PERIODIC (R236): every SWP_SEARCH seconds a SEARCH_NEW is due at the end of the stream cycle; one that falls
due in a search follows at the end of the next cycle. -/
def execSearchNewPeriodic (t p : Nat) (s : State) : Outcome :=
  let s := s.at_ t
  .next (s.onSwp p fun x =>
    let per := bits (s.swpCtrl p) 15 4
    if !(x.st == 1 || x.st == 2) || per = 0 || t % (per * 1000000000) ≠ 0 then s
    else if x.inCycle || x.st = 1 then s.modSwp p fun x => { x with pendSearch := true }
    else s.startSearch p 1)

/-! ### The search (R234, R235) -/

/-- The bit d that the hub writes at bit b after the read slots x and y (R234): none when no sensor answers. `last` is the
fork of the pass before. -/
def searchChoice (prev : Nat) (last : Option Nat) (b : Nat) (x y : Bool) : Option Bool :=
  match x, y with
  | true, true => none
  | false, false =>
    match last with
    | some l => some (if b < l then prev.testBit b else b == l)
    | none => some false
  | _, _ => some x

/-- The rounds of a pass from bit b on (R234): the bits written, and when all 64 were answered the number formed and the
last bit at which the sensors differed and 0 was chosen. Read slots that nothing drives read 1. -/
def searchRounds (prev : Nat) (last : Option Nat) : Nat → Nat → Nat → Option Nat → List (Bool × Bool) →
    List Bool × Option (Nat × Option Nat)
  | 0, _, id, fork, _ => ([], some (id, fork))
  | n + 1, b, id, fork, pairs =>
    let xy := pairs.headD (true, true)
    match searchChoice prev last b xy.1 xy.2 with
    | none => ([], none)
    | some d =>
      let forks := !xy.1 && !xy.2 && !d
      let r := searchRounds prev last n (b + 1) (if d then id + 2 ^ b else id) (if forks then some b else fork) pairs.tail
      (d :: r.1, r.2)

/-- What the rounds of a pass put on the line: two read slots and the bit written; the read slots of an unanswered round. -/
def roundOuts (p : Nat) (r : List Bool × Option (Nat × Option Nat)) : List Out :=
  r.1.flatMap (fun d => [Out.lineRead p 2, Out.lineBit p d]) ++ if r.2.isSome then [] else [Out.lineRead p 2]

/-- The passes of one attempt (R234): what it puts on the line after the reset of its first pass, whether it is consistent,
and the numbers found. -/
def searchPasses (p kind prev : Nat) (last : Option Nat) (found : List Nat) :
    List (Option (List (Bool × Bool))) → List Out × Bool × List Nat
  | [] => ([], true, found)
  | none :: _ => ([], true, found)
  | some pairs :: rest =>
    let r := searchRounds prev last 64 0 0 none pairs
    let outs := .lineByte p (searchByte kind) :: roundOuts p r
    match r.2 with
    | none => (outs, r.1.isEmpty && kind == 1 && found.isEmpty, found)
    | some (id, fork) =>
      if !numberOk id || found.contains id then (outs, false, found)
      else if fork.isNone then (outs, true, found ++ [id])
      else
        let next := searchPasses p kind id fork (found ++ [id]) rest
        (outs ++ .line p 1 :: next.1, next.2)

/-- The attempts of a search (R235): what they put on the line, the number of inconsistent ones, and the numbers found by
the first consistent one. After three restarts the fourth inconsistent attempt is the last. -/
def searchAttempts (p kind : Nat) : Nat → List (List (Option (List (Bool × Bool)))) → List Out × Nat × Option (List Nat)
  | 0, _ => ([], 0, none)
  | _ + 1, [] => ([], 0, none)
  | n + 1, a :: rest =>
    let r := searchPasses p kind 0 none [] a
    if r.2.1 then (r.1, 0, some r.2.2)
    else
      let next := searchAttempts p kind n rest
      (r.1 ++ (if n = 0 then [] else .line p 1 :: next.1), next.2.1 + 1, next.2.2)

/-! ### Slots (R237) -/

/-- The slot of the table that a found number takes (R237): its own, the lowest never used, or the one dropped
longest. -/
def SwpPort.slotFor (x : SwpPort) (number : Nat) : Option Nat :=
  let idx := x.slots.zipIdx
  match idx.find? fun y => y.1.used && y.1.number == number with
  | some y => some y.2
  | none =>
    match idx.find? fun y => !y.1.used with
    | some y => some y.2
    | none =>
      (idx.filter fun y => !y.1.present).foldl
        (fun best y => match best with
          | none => some y.2
          | some b => if y.1.droppedAt < ((x.slots[b]?).map (·.droppedAt)).getD 0 then some y.2 else best) none

/-- One try of an ASSIGN on the line (R233). -/
def assignOuts (p number slot : Nat) : List Out :=
  let body := le 8 number ++ le 1 slot
  .line p 1 :: .lineByte p 0x5A :: (body.map fun b => Out.lineByte p b) ++
    [.lineByte p (BitVec.ofNat 8 (Poly.crc8.check body)), .lineRead p 8]

/-- The tries of an ASSIGN that are made, of at most three (R237), and whether the last was answered with the complement of the
slot byte. A line that nothing drives returns 0xFF. -/
def assignTries (slot : Nat) : Nat → List Nat → Nat × Bool
  | 0, _ => (0, false)
  | n + 1, back =>
    if back.headD 0xFF % 256 = 255 - slot then (1, true)
    else
      let r := assignTries slot n back.tail
      (r.1 + 1, r.2)

/-- A sensor that has taken slot i (R237, R243). -/
def State.takeSlot (s : State) (p number i : Nat) : State :=
  s.onSwp p fun x =>
    let had := match x.slots[i]? with | some y => y.used && y.number == number | none => false
    let was := match x.slots[i]? with | some y => had && y.present | none => false
    let s := s.modSwp p fun x => { x with slots := modNth (fun y =>
      if had then { y with present := true, misses := if y.present then y.misses else 0 }
      else { used := true, number := number, present := true, droppedAt := 0, misses := 0, seen := false, value := 0,
             sstat := 0, seq := 0, missed := false, seqGap := false, droppedNow := false, read := false }) i x.slots }
    if was then s else s.event { source := 30, subkind := 1, item := i, arg16 := p, arg64 := number }

/-- One found sensor assigned, or counted as an overflow (R237, R243); one that answers no try is as if not found. -/
def State.assignSensor (s : State) (p number : Nat) (back : List Nat) : State :=
  s.onSwp p fun x =>
    match x.slotFor number with
    | none =>
      (s.modSwp p fun x => { x with overflow := satInc 8 x.overflow }).event
        { source := 30, subkind := 3, arg16 := p, arg64 := number }
    | some i =>
      let r := assignTries i 3 back
      let s := s.emits ((List.range r.1).flatMap fun _ => assignOuts p number i)
      if r.2 then s.takeSlot p number i else s

/-- The search of a port is over: the committed fields are taken, a START puts every sensor with a slot back into stream mode
(R233, R236), and the commands that asked for it complete. -/
def State.endSearch (s : State) (p : Nat) (runs : List Cmd) (st : Status) : State :=
  let s := (s.modSwp p fun x => { x with runs := [] }).adoptSwp p
  let s := s.onSwp p fun x => if x.st = 2 then s.emits [.line p 1, .lineByte p 0xA5] else s
  runs.foldl (fun s c => s.complete c st 0) s

/-- SWP_SEARCH_COMPLETE (R234 to R237): the read slots of the passes of each attempt decide it. Without a consistent
attempt the search ends only with the fourth inconsistent one. -/
def execSwpSearchComplete (t p : Nat) (attempts : List (List (Option (List (Bool × Bool))))) (acks : List (List Nat))
    (s : State) : Outcome :=
  let s := s.at_ t
  .next (s.onSwp p fun x =>
    let r := searchAttempts p x.searching 4 attempts
    if x.searching = 0 || !s.pd9 || (r.2.2.isNone && r.2.1 != 4) then s
    else
      let s := (s.emits r.1).modSwp p fun x => { x with restarts := min 255 (x.restarts + min 3 r.2.1), searching := 0 }
      match r.2.2 with
      | none =>
        let s := s.modSwp p fun x => { x with unstable := true, st := if x.short then 3 else 2 }
        (s.event { source := 31, subkind := 1, item := p }).endSearch p x.runs .busUnstable
      | some found =>
        let s := s.modSwp p fun x => { x with unstable := false, short := false, st := 2 }
        let s := if x.short then s.event { source := 31, subkind := 3, item := p } else s
        (found.zipIdx.foldl (fun s y => s.assignSensor p y.1 (acks.getD y.2 [])) s).endSearch p x.runs .success)

/-- SWP_STREAM_CYCLE (R238): at a whole multiple of SWP_CYCLE the hub begins a sync. -/
def execSwpStreamCycle (t p : Nat) (s : State) : Outcome :=
  let s := s.at_ t
  .next (s.onSwp p fun x =>
    if x.st ≠ 2 || x.inCycle || !s.pd9 || s.swpCycle p = 0 || t % s.swpCycle p ≠ 0 then s
    else
      let clear := fun (y : Slot) => { y with missed := false, seqGap := false, droppedNow := false, read := false }
      (s.modSwp p fun x => { x with inCycle := true, tSync := t, slots := x.slots.map clear }).emit (.line p 3))

/-- A frame of R239 is good: START 0, CHECK holds, and SEQ is not that of the last good frame (R240). -/
def Slot.goodFrame (y : Slot) (b : List Byte) : Bool :=
  rd b 0 1 % 2 == 0 && Poly.crc8.check (b.take 7) == rd b 7 1 && !(y.seen && rd b 0 1 / 2 == y.seq)

/-- Pack time, after the sync began, at which the 64 read slots of slot i have ended (R238). -/
def slotEnd (i : Nat) : Nat := 200000 + i * 3500000 + 3200000

/-- A used slot has been read once its time has come (R238). -/
def SwpPort.cycleDone (x : SwpPort) : Bool := x.slots.all fun y => !y.used || y.read

/-- SWP_SLOT_READ (R238, R240): the eight bytes read in a used slot of the cycle, once, at the end of its read slots. -/
def execSwpSlotRead (t p slot : Nat) (bytes : List Byte) (s : State) : Outcome :=
  let s := s.at_ t
  .next (s.onSwp p fun x =>
    match x.slots[slot]? with
    | none => s
    | some y =>
      if !x.inCycle || !y.used || y.read || t < x.tSync + slotEnd slot || x.tSync + slotEnd slot + 300000 ≤ t then s
      else
        let s := s.emit (.lineRead p 64)
        let ev := fun (s : State) (k : Nat) => s.event { source := 30, subkind := k, item := slot, arg16 := p, arg64 := y.number }
        if y.goodFrame (slice bytes 0 8) then
          let q := rd bytes 0 1 / 2
          let good : Slot := { y with present := true, misses := 0, seen := true, value := rd bytes 2 4, sstat := rd bytes 1 1,
                                      seq := q, missed := false, seqGap := y.seen && q != (y.seq + 1) % 128, read := true }
          let s := s.modSwp p fun x => { x with slots := setNth slot good x.slots }
          if y.present then s else ev s 1
        else
          let n := y.misses + 1
          let drop := y.present && decide (3 ≤ n)
          let s := s.modSwp p fun x => { x with
            dropNo := if drop then x.dropNo + 1 else x.dropNo,
            slots := modNth (fun y => { y with read := true, misses := n, missed := true, present := y.present && !drop, droppedNow := drop,
                                               droppedAt := if drop then x.dropNo else y.droppedAt }) slot x.slots }
          if drop then ev s 2 else s)

/-- The sensor record of R242. -/
def SwpPort.record (x : SwpPort) (pos p : Nat) : List Byte :=
  let es := x.slots.zipIdx.filter fun y => y.1.used && (y.1.present || y.1.droppedNow)
  withCrc32c (le 2 0x0901 ++ le 1 pos ++ le 1 p ++ le 2 es.length ++ le 1 (fld 7 1 (b2n x.unstable) + fld 6 1 (b2n x.short)) ++
    zeros 1 ++ le 8 x.tSync ++
    es.flatMap fun y => le 8 y.1.number ++ le 4 y.1.value ++ le 1 y.2 ++ le 1 y.1.sstat ++ le 1 y.1.seq ++
      le 1 (fld 7 1 (b2n y.1.missed) + fld 6 1 (b2n y.1.seqGap) + fld 5 1 (b2n y.1.droppedNow)))

/-- SWP_CYCLE_END (R238, R242, R246): once every used slot has been read the sensor record is placed; committed fields take effect and a search that waits
starts. -/
def execSwpCycleEnd (t p : Nat) (s : State) : Outcome :=
  let s := s.at_ t
  .next (s.onSwp p fun x =>
    if !x.inCycle || !x.cycleDone then s
    else
      let s := if x.slots.any (·.used) then s.place 0x0901 p x.tSync (x.record s.pos p) else s
      let s := (s.modSwp p fun x => { x with inCycle := false }).adoptSwp p
      s.onSwp p fun x => if x.st = 2 && x.pendSearch then s.startSearch p 1 else s)

/-- SWP_LINE_SHORT (R244, R246): the line has been low for more than 1 ms; the port stops, its cycle or search with it, and
committed fields take effect. -/
def execSwpLineShort (t p : Nat) (s : State) : Outcome :=
  let s := s.at_ t
  .next (s.onSwp p fun x =>
    if x.st = 0 || x.st = 3 then s
    else
      let s := s.modSwp p fun x => { x with short := true, shortAt := t, st := 3, searching := 0, inCycle := false,
                                            cmds := x.runs ++ x.cmds, runs := [],
                                            pendSearch := x.pendSearch || !x.runs.isEmpty }
      ((s.adoptSwp p).emit (.line p 0)).event { source := 31, subkind := 2, item := p })

/-- SWP_SHORT_RETRY (R244): every 10 s while SHORT stands the port retries with a SEARCH_ALL. -/
def execSwpShortRetry (t p : Nat) (s : State) : Outcome :=
  let s := s.at_ t
  .next (s.onSwp p fun x =>
    if x.st ≠ 3 || t < x.shortAt + 10000000000 || !s.pd9 then s
    else (s.modSwp p fun x => { x with shortAt := t }).startSearch p 2)

end Sys2Proof.Machine
end

