-- ==== Sys2Proof/Machine/Safety.lean ====
section
/-! DEFINITION. The safety functions (R364 to R391): inputs and test pulses, outputs and feedback, lock-out and
its release, safety frames, the host mailbox and the watchdogs. -/

namespace Sys2Proof.Machine

/-- The safety logic works: GATEWAY role, in RUN or DOZE, serving (R364). -/
def State.safeRuns (s : State) : Bool := s.isGateway && s.inRunDoze && s.part.serving && !s.part.hubHeld

/-! ### Filters (R368, R374) -/

/-- One admitted sample of a channel: the filtered level changes once every admitted sample has agreed on the new
level for `filt` ns. -/
def SafeChan.sample (c : SafeChan) (v : Bool) (now filt : Nat) : SafeChan :=
  if c.formed && v == c.level then { c with cand := none }
  else
    let since := match c.cand with | some x => if x.1 = v then x.2 else now | none => now
    if since + filt ≤ now then { level := v, formed := true, cand := none } else { c with cand := some (v, since) }

/-- Starts of the pulses of an output within a period of `p` ns: 0 TPA, 1 TPB (R367). -/
def pulseStarts (out p : Nat) : List Nat := if out = 0 then [0] else [p / 2, p / 2 + 1500000]

/-- TP_PERIOD in ns. -/
def State.tpPeriod (s : State) : Nat := s.sF 0x00C 15 0 * 1000000

/-- TP_EN. -/
def State.tpEn (s : State) : Bool := s.fB 0x14 0 0 3

/-- The pulse of an output whose start lies at most `span` ns before `now`, if there is one. -/
def State.pulseNear (s : State) (out span : Nat) : Option Nat :=
  let p := s.tpPeriod
  if !s.tpEn || p = 0 then none
  else
    let base := s.now / p * p
    (pulseStarts out p).findSome? fun q => if base + q ≤ s.now ∧ s.now - (base + q) ≤ span then some (base + q) else none

/-- A sample of channel A or B is excluded from the filter: from the start of a pulse of its output until 200 µs
after its end (R368). -/
def State.sampleExcluded (s : State) (out : Nat) : Bool :=
  match s.pulseNear out 700000 with
  | some q => decide (s.now < q + 700000)
  | none => false

/-! ### Test pulses (R370) -/

/-- Subkind of a test: 1 short to supply, 2 short between channels, 3 pulse missing. -/
def testKind (i : Nat) : Nat := if i < 8 then 1 else if i < 16 then 2 else 3
/-- The output that a test belongs to: that of its channel, or of its pad. -/
def testOut (i : Nat) : Nat := if i < 8 then i / 4 else if i < 16 then (i - 8) / 4 else i - 16
/-- The output whose pulse a test observes. -/
def testPulseOut (i : Nat) : Nat := if 8 ≤ i ∧ i < 16 then 1 - testOut i else testOut i

/-- A test is made (R370): its channel belongs to an enabled input, reads high outside its pulse windows, and is
channel A in antivalent mode; a pad is always tested. -/
def State.testMade (s : State) (i : Nat) : Bool :=
  if 16 ≤ i then s.tpEn
  else
    let ch := i % 8
    let inp := ch % 4
    let x := s.safe.ins[inp]?
    let c := x.map fun y => if ch / 4 = 0 then y.a else y.b
    s.tpEn && s.inEnabled inp && (ch / 4 = 0 || !s.inAnti inp) && (c.map fun y => y.formed && y.level).getD false

/-- What the part of one pulse that ended says: whether the test failed on it. -/
def PulseTest.failed (x : PulseTest) (i : Nat) : Bool := if testKind i = 2 then x.low else !x.low

/-- One sample of test i: `low` as its channel or pad reads. Answers the test and whether its fault is declared now. A period in
which the test is not made ends a run of periods. -/
def State.stepTest (s : State) (i : Nat) (low : Bool) (x : PulseTest) : PulseTest × Bool :=
  let out := testPulseOut i
  -- a pulse whose observation has ended is judged, and the period with its last pulse
  let j := match x.pulse with
    | none => (x, false)
    | some q =>
      if s.now ≤ q + 450000 then (x, false)
      else
        let bad := x.bad || x.failed i
        let p := s.tpPeriod
        let isLast := p = 0 || q % p == (pulseStarts out p).getLast?.getD 0
        if !isLast then ({ x with pulse := none, low := false, bad := bad }, false)
        else if bad then
          let n := x.fails + 1
          ({ x with pulse := none, low := false, bad := false, fails := n, passes := 0, standing := x.standing || decide (2 ≤ n) },
            decide (2 ≤ n) && !x.standing)
        else
          let n := x.passes + 1
          ({ x with pulse := none, low := false, bad := false, fails := 0, passes := n, standing := x.standing && decide (n < 2) }, false)
  let x := j.1
  let lo := if 16 ≤ i then 0 else 300000
  match s.pulseNear out 450000 with
  | none => (x, j.2)
  | some q =>
    if s.now < q + lo then (x, j.2)
    else if x.pulse = some q then ({ x with low := x.low || low }, j.2)
    else if x.pulse.isNone && s.testMade i then
      let first := q % s.tpPeriod == (pulseStarts out s.tpPeriod).headD 0
      ({ x with pulse := some q, low := low, bad := x.bad && !first }, j.2)
    else if x.pulse.isNone && q % s.tpPeriod == (pulseStarts out s.tpPeriod).headD 0 then ({ x with fails := 0, passes := 0 }, j.2)
    else (x, j.2)

/-- All tests stepped; a fault declared raises source 8 and latches lock-out. -/
def State.stepTests (s : State) (levels tp : List Bool) : State :=
  (List.range 18).foldl
    (fun s i =>
      match s.safe.tests[i]? with
      | none => s
      | some x =>
        let v := if 16 ≤ i then tp.getD (i - 16) true else levels.getD (i % 8) true
        let r := s.stepTest i (!v) x
        let s := { s with safe := { s.safe with tests := setNth i r.1 s.safe.tests } }
        if r.2 then (s.event { source := 8, subkind := testKind i, item := testOut i + 1 }).latch 8 else s) s

/-! ### Inputs (R368, R369) -/

/-- DISCk_MS of input i (R388). -/
def State.discLimit (s : State) (i : Nat) : Nat :=
  let r := s.regF 0x14 0 (if i < 2 then 0x004 else 0x008)
  if i % 2 = 0 then bits r 15 0 else bits r 31 16

/-- One sample of input i and what its change of state does; a disagreement whose count has reached DISCk_MS latches at the
latest as it ends (R369, R387). -/
def State.stepInput (s : State) (levels : List Bool) (i : Nat) : State :=
  match s.safe.ins[i]? with
  | none => s
  | some x =>
    let was := s.inSt i
    let filt := s.sF 0 15 12 * 1000000
    let a := if s.sampleExcluded 0 then x.a else x.a.sample (levels.getD i false) s.now filt
    let b := if s.sampleExcluded 1 then x.b else x.b.sample (levels.getD (4 + i) false) s.now filt
    let y := { x with a := a, b := b }
    let st := y.st (s.inAnti i)
    let y := if st = 1 then { y with needDemand := false } else y
    let ended := was == 2 && st != 2
    let count := x.discMs
    let past := ended && s.inEnabled i && !x.latched && decide (s.discLimit i ≤ count)
    let y := if ended then { y with discMs := 0, latched := false, needDemand := y.needDemand || (past && st != 1) } else y
    let s := { s with safe := { s.safe with ins := setNth i y s.safe.ins } }
    if !s.inEnabled i then s
    else
      let s := if ended && !x.latched && decide (count < s.discLimit i) then
          ({ s with safe := { s.safe with discCount := satInc 16 s.safe.discCount } }).event
            { source := 7, subkind := 1, item := i + 1, arg16 := count }
        else if past then (s.event { source := 7, subkind := 2, item := i + 1, arg16 := count }).latch 7
        else s
      if st = 1 && was != 1 then s.latch 7 else s

/-! ### Outputs (R373, R374) -/

/-- One sample of the feedback of output k, 0 to 2: a change for 5 ms while the output is steady latches lock-out. -/
def State.stepFeedback (s : State) (fb : List Bool) (k : Nat) : State :=
  match s.safe.outs[k]? with
  | none => s
  | some o =>
    let o := { o with fb := o.fb.sample (fb.getD k false) s.now 2000000 }
    let shows := o.fb.formed && (o.fb.level == bit (s.sF 0x010 10 8) k)
    let right := o.fb.formed && (shows == o.on)
    let steady := !o.switched || decide (o.since + 50000000 < s.now)
    let since := if right || !o.confirmed || !steady then none else some (o.wrongSince.getD s.now)
    let bad := match since with | some w => decide (w + 5000000 ≤ s.now) | none => false
    let o := { o with confirmed := (o.confirmed || right) && !bad, wrongSince := if bad then none else since }
    let s := { s with safe := { s.safe with outs := setNth k o s.safe.outs } }
    if bad && bit (s.sF 0x010 6 4) k then (s.event { source := 9, subkind := 3, item := k + 1 }).latch 9 else s

/-- Economy duty of an output at a VAUX voltage, in percent (R373). -/
def State.econDuty (s : State) (v : Rat) : Rat :=
  if v ≤ 0 then 100 else let d := (s.sF 0x010 31 24 : Rat) * 24 / v; if 100 < d then 100 else d

/-! ### SAFETY_TICK -/

/-- LORST_N sampled at a tick (R378). -/
def State.stepLorst (s : State) (high : Bool) : State :=
  let f := s.safe
  let g :=
    match f.lorstState with
    | 0 => if high then f else { f with lorstState := 1, lorstLow := 1 }
    | 1 => if high then f else { f with lorstLow := f.lorstLow + 1 }
    | 2 => if high then { f with lorstState := 3, lorstHigh := 1 } else f
    | _ =>
      if high then { f with lorstHigh := min 100 (f.lorstHigh + 1), lorstState := if 100 ≤ f.lorstHigh + 1 then 0 else 3 }
      else { f with lorstHigh := 0 }
  { s with safe := g }

/-- VAUX measured: what it reads is a free value. DESIGN CHOICE, log entry 6. -/
def State.measureAux (s : State) : State :=
  let r := s.drawBits 16
  { r.2 with power := { r.2.power with vAux := r.1 } }

/-- SAFETY_TICK (R364, R369, R378, R388): at a whole millisecond the committed fields are taken, disagreements are
counted, LORST_N is sampled, and the outputs follow R365. -/
def execSafetyTick (t : Nat) (lorst : Bool) (s : State) : Outcome :=
  let s := s.at_ t
  .next (
    if t % 1000000 ≠ 0 || !s.part.serving || s.part.hubHeld || !s.inRunDoze then s
    else
      let s := s.takeBlock 0x14 0
      if !s.isGateway then s.heartResume
      else
        let ins := s.safe.ins.zipIdx.map fun (x : SafeIn × Nat) =>
          if s.inEnabled x.2 && s.inSt x.2 == 2 then { x.1 with discMs := x.1.discMs + 1 } else x.1
        let s := { s with safe := { s.safe with ins := ins } }
        let demand := (List.range 4).any fun i => s.inEnabled i && s.inSt i == 1
        let s := if demand then s.latch 7 else s
        let s := s.stepLorst lorst
        let s := if s.safe.outs.any (·.econ) then s.measureAux else s
        let outs := s.safe.outs.map fun (o : SafeOut) =>
          if o.econ then { o with duty := s.econDuty ((s.power.vAux : Rat) / 100) } else o
        let s := { s with safe := { s.safe with outs := outs } }
        s.evalOuts.heartResume)

/-- The pulse of output o, 0 TPA or 1 TPB, ends once its 500 µs are over (R367). -/
def State.endPulse (s : State) (o : Nat) : State :=
  match s.safe.pulseEnd.getD o none with
  | some e =>
    if e ≤ s.now then ({ s with safe := { s.safe with pulseEnd := setNth o none s.safe.pulseEnd } }).emit (.pad (4 + o) 1) else s
  | none => s

/-- SAFETY_INPUT_SAMPLE (R368, R370, R374): every 100 µs; `levels` are SIA1 to SIA4 and SIB1 to SIB4, `fb` FB1 to
FB3, `tp` the pads TPA and TPB as read back. -/
def execSafetyInputSample (t : Nat) (levels fb tp : List Bool) (s : State) : Outcome :=
  let s := s.at_ t
  .next (
    let held := (((s.selfTest[0]?).bind (·.slice)).map (·.1)) == some 0x1001
    if !s.safeRuns || t % 100000 ≠ 0 || held then s
    else
      let s := (((s.endPulse 0).endPulse 1).stepTests levels tp)
      let s := (List.range 4).foldl (fun s i => s.stepInput levels i) s
      let s := (List.range 3).foldl (fun s k => s.stepFeedback fb k) s
      s.evalOuts)

/-- TEST_PULSE_START (R367): output 1 (TPA) or 2 (TPB) goes low for 500 µs at a start of its pattern. -/
def execTestPulseStart (t out : Nat) (s : State) : Outcome :=
  let s := s.at_ t
  .next (
    if !s.safeRuns || out = 0 || 2 < out || s.pulseNear (out - 1) 0 != some t then s
    else ({ s with safe := { s.safe with pulseEnd := setNth (out - 1) (some (t + 500000)) s.safe.pulseEnd } }).emit (.pad (3 + out) 0))

/-- DISCREPANCY_LATCH (R369): the count of input i, 1 to 4, has reached DISCk_MS. -/
def execDiscrepancyLatch (t i : Nat) (s : State) : Outcome :=
  let s := s.at_ t
  .next (
    match s.safe.ins[i - 1]? with
    | none => s
    | some x =>
      if !s.safeRuns || i = 0 || !s.inEnabled (i - 1) || s.inSt (i - 1) != 2 || x.latched || x.discMs < s.discLimit (i - 1) then s
      else
        let s := { s with safe := { s.safe with ins := setNth (i - 1) { x with latched := true, needDemand := true } s.safe.ins } }
        (s.event { source := 7, subkind := 2, item := i, arg16 := x.discMs }).latch 7)

/-! ### Safety frames at the gateway (R382, R385) -/

/-- The first check of R382 that a frame fails: 1 CHECK or CONN_ID, 2 SEQ, 3 T_EXPECT; none when it is valid. -/
def State.frameError (s : State) (b : List Byte) (posOk : Nat → Bool) (last : Option Nat) (timed : Bool) : Option Nat :=
  let conn := rd b 0 2
  let adv := match last with | none => 1 | some l => (rd b 2 2 + 65536 - l) % 65536
  let d := (rd b 4 4 + 2 ^ 32 - s.now / 1000 % 2 ^ 32) % 2 ^ 32
  if b.length ≠ 32 ∨ Poly.crc32.check (b.take 28) ≠ rd b 28 4 then some 1
  else if bits conn 15 6 ≠ s.sF 0x014 9 0 ∨ !posOk (bits conn 5 0) then some 1
  else if adv = 0 ∨ 64 < adv then some 2
  else if timed ∧ s.sF 0x014 31 16 < d then some 3
  else none

/-- A failed frame: FRAME_ERR and source 10 (R382). -/
def State.countFrameError (s : State) (conn sub : Nat) : State :=
  ({ s with safe := { s.safe with frameErr := satInc 16 s.safe.frameErr } }).event { source := 10, subkind := sub, arg16 := conn }

/-- The watchdog entry of a position changed. -/
def State.modWatch (s : State) (p : Nat) (f : WatchPos → WatchPos) : State :=
  { s with safe := { s.safe with watch := modNth f p s.safe.watch } }

/-- A failed frame on an armed connection: three within 1 s latch lock-out (R375, R382). -/
def State.connError (s : State) (p : Nat) : State :=
  let w := s.watchOf p
  if !w.armed then s
  else
    let errs := s.now :: w.errAt.filter fun x => s.now < x + 1000000000
    let s := s.modWatch p fun w => { w with errAt := errs.take 3 }
    if 3 ≤ errs.length then s.latch 10 else s

/-- Lock-out cause of a frame: its KIND, or 0 for TRIP_ACTIVE without one (R375). -/
def frameCause (kind : Nat) : Nat := if 1 ≤ kind ∧ kind ≤ 5 then kind - 1 else 0

/-- A valid frame of position p (R375, R385). -/
def State.validFrame (s : State) (p : Nat) (b : List Byte) : State :=
  let w := s.watchOf p
  let msg := rd b 8 1
  let ss := rd b 9 1
  let kind := if msg = 2 then rd b 10 1 else 0
  let resumed := w.failed
  if msg = 4 then
    let s := s.modWatch p fun w => { w with armed := false, failed := false, lastSeq := none, sstate := ss, kind := 0, errAt := [] }
    let s := if w.armed ∧ bit ss 7 then s.latch 0 else s
    let s := if s.anyOut then s.latch 11 else s
    s.evalOuts
  else
    let s := s.modWatch p fun w =>
      { w with armed := w.armed || s.link.enumState != 1, failed := false, lastAt := s.now, lastSeq := some (rd b 2 2), sstate := ss, kind := kind }
    let s := if resumed then s.event { source := 11, subkind := 2, item := p } else s
    let armed := (s.watchOf p).armed
    let s := if armed ∧ (kind ≠ 0 ∨ bit ss 7) then s.latch (frameCause kind) else s
    s.evalOuts

/-- SAFETY_FRAME_RECEIVE (R382): a safety frame or heartbeat of another part reaches the gateway. -/
def execSafetyFrameReceive (t : Nat) (bytes : List Byte) (s : State) : Outcome :=
  let s := s.at_ t
  let f := frameOf bytes
  let r := s.accept f
  let s := r.2
  .next (
    if !s.safeRuns || r.1 != .deliver || f.tc != 0 || !(f.kind == 4 || f.kind == 5) then s
    else
      let b := f.payload
      let p := bits (rd b 0 2) 5 0
      let w := s.watchOf p
      match s.frameError b (fun q => s.positions.contains q) w.lastSeq true with
      | some e => (s.countFrameError (rd b 0 2) e).connError p
      | none => s.validFrame p b)

/-! ### The host mailbox (R384) -/

/-- AUX of a gateway-status frame (R381). -/
def State.statusAux (s : State) : Nat :=
  fld 31 1 (b2n s.safe.lockout) + fld 30 1 (b2n s.releasable) + fld 24 6 s.safe.loCause +
    fld 20 3 (maskOf (indexes (·.on) s.safe.outs)) + fld 16 3 (maskOf ((List.range 3).filter s.fbClosed)) +
    fld 8 4 (maskOf ((List.range 4).filter fun i => s.inEnabled i && s.inSt i != 0))

/-- A host frame read from the mailbox. -/
def State.hostFrame (s : State) (b : List Byte) : State :=
  let conn := rd b 0 2
  if b.length ≠ 32 ∨ Poly.crc32.check (b.take 28) ≠ rd b 28 4 then
    let n := s.safe.hostFails + 1
    let s := { s with safe := { s.safe with frameErr := satInc 16 s.safe.frameErr, hostFails := n } }
    if n = 3 then s.event { source := 10, subkind := 1, arg16 := conn } else s
  else
    let s := { s with safe := { s.safe with hostFails := 0 } }
    if s.safe.hostSeq = some (rd b 2 2) then s
    else
      match s.frameError b (fun q => q == 63) s.safe.hostSeq false with
      | some e => s.countFrameError conn e
      | none =>
        let asks := rd b 8 1 == 0x10
        let req := if asks then bits (rd b 24 4) 2 0 else s.safe.req
        let outs := s.safe.outs.zipIdx.map fun (x : SafeOut × Nat) =>
          if bit req x.2 || !asks then x.1 else { x.1 with edge := true }
        let s := { s with safe := { s.safe with
          hostSeq := some (rd b 2 2), hostAt := s.now, hostOk := true, req := req, outs := outs } }
        s.evalOuts

/-- SAFETY_MBOX_SERVICE (R384): every HOST_PERIOD the gateway reads the host frame and writes its status frame;
`bytes` is what host memory holds at offset 0. It stops with host DMA (R321). -/
def execSafetyMboxService (t : Nat) (bytes : List Byte) (s : State) : Outcome :=
  let s := s.at_ t
  .next (
    let per := s.sF 0x018 15 8 * 1000000
    if !s.safeRuns || !s.fB 0x14 0 0x018 0 || !s.hif.en || per = 0 || t % per ≠ 0 then s
    else
      let box := s.regF 0x14 0 0x01C + 2 ^ 32 * s.regF 0x14 0 0x020
      let s := (s.emit (.hostRead box 32)).hostFrame (slice bytes 0 32)
      let r := s.formSafety 0x11 {} s.statusAux true
      r.2.emit (.hostWrite (box + 32) r.1))

/-- HOST_OK clears: every REQ bit is taken as 0 and must be seen at 0 again (R365, R384). -/
def execHostWatchdogExpire (t : Nat) (s : State) : Outcome :=
  let s := s.at_ t
  .next (
    if !s.safe.hostOk || t < s.safe.hostAt + s.sF 0x018 31 16 * 1000000 then s
    else
      let s := { s with safe := { s.safe with
        hostOk := false, req := 0, outs := s.safe.outs.map fun (o : SafeOut) => { o with edge := false } } }
      (s.event { source := 10, subkind := 3, arg16 := s.connId 63 }).evalOuts)

/-- WATCHDOG_EXPIRE (R385): at a safety tick there has been no valid frame from position p for WD_TIMEOUT. -/
def execWatchdogExpire (t p : Nat) (s : State) : Outcome :=
  let s := s.at_ t
  .next (
    let w := s.watchOf p
    if !s.safeRuns || t % 1000000 ≠ 0 || !w.armed || w.failed || t < w.lastAt + s.sF 0 31 16 * 1000000 then s
    else
      let s := s.modWatch p fun w => { w with failed := true }
      ((s.event { source := 11, subkind := 1, item := p }).latch 11).evalOuts)

/-- Every watchdog disarms when an enumeration starts; with an output on, lock-out latches (R385). -/
def State.disarmAll (s : State) : State :=
  let s := { s with safe := { s.safe with watch := s.safe.watch.map fun (w : WatchPos) =>
    { w with armed := false, failed := false, lastSeq := none, sstate := 0, kind := 0, errAt := [] } } }
  let s := if s.anyOut then s.latch 11 else s
  s.evalOuts

/-! ### Output faults (R372 to R374) -/

/-- OUTPUT_OVERCURRENT (R372): output k, 1 to 3, has carried more than 4.0 A for 2 ms. -/
def execOutputOvercurrent (t k : Nat) (s : State) : Outcome :=
  let s := s.at_ t
  .next (
    let since := ((s.safe.outs[k - 1]?).map (·.since)).getD 0
    if k = 0 || !s.outOn (k - 1) || decide (s.now < since + 2000000) then s
    else
      let s := s.setOut (k - 1) false
      let s := { s with safe := { s.safe with outs := modNth (fun o => { o with overcurrent := true }) (k - 1) s.safe.outs } }
      (s.event { source := 15, subkind := 1, item := k }).latch 15)

/-- OUTPUT_OPEN_LOAD (R372): an output that is on has carried less than 20 mA for 100 ms. -/
def execOutputOpenLoad (t k : Nat) (s : State) : Outcome :=
  let s := s.at_ t
  .next (
    let since := ((s.safe.outs[k - 1]?).map (·.since)).getD 0
    if k = 0 || !s.outOn (k - 1) || ((s.safe.outs[k - 1]?).map (·.openLoad)).getD true || decide (s.now < since + 100000000) then s
    else
      let s := { s with safe := { s.safe with outs := modNth (fun o => { o with openLoad := true }) (k - 1) s.safe.outs } }
      s.event { source := 15, subkind := 2, item := k })

/-- OUTPUT_ECONOMY_START (R373): ECON_DELAY after switch-on. -/
def execOutputEconomyStart (t k : Nat) (vaux : Rat) (s : State) : Outcome :=
  let s := s.at_ t
  .next (
    match s.safe.outs[k - 1]? with
    | none => s
    | some o =>
      if k = 0 || !o.on || t < o.since + s.sF 0x010 23 16 * 10000000 then s
      else { s with safe := { s.safe with outs := setNth (k - 1) { o with econ := true, duty := s.econDuty vaux } s.safe.outs } })

/-- FEEDBACK_TIMEOUT (R374): 50 ms after the output last changed, or after reset for an output that is off, its
feedback does not show the expected contact state. -/
def execFeedbackTimeout (t k : Nat) (s : State) : Outcome :=
  let s := s.at_ t
  .next (
    match s.safe.outs[k - 1]? with
    | none => s
    | some o =>
      let due := decide (o.since + 50000000 ≤ t)
      if k = 0 || !s.safeRuns || !bit (s.sF 0x010 6 4) (k - 1) then s
      else if o.on && due && !s.fbClosed (k - 1) then (s.event { source := 9, subkind := 1, item := k }).latch 9
      else if !o.on && (due || !o.switched) && s.fbClosed (k - 1) then (s.event { source := 9, subkind := 2, item := k }).latch 9
      else s)

/-! ### LORST_N (R378) -/

/-- LORST_RELEASE_EDGE (R378): a rising edge ends a low that was being timed. -/
def execLorstReleaseEdge (t : Nat) (s : State) : Outcome :=
  let s := s.at_ t
  .next (
    if !s.safeRuns || s.safe.lorstState ≠ 1 then s
    else
      let n := s.safe.lorstLow
      let s := { s with safe := { s.safe with lorstState := 3, lorstHigh := 0, lorstLow := 0 } }
      if !s.safe.lockout then s
      else if 50 ≤ n && n ≤ 5000 && s.releasable then (s.event { source := 14, subkind := 1 }).releaseLockout
      else s.event { source := 14, subkind := 2 })

/-- LORST_HELD (R378): low at more than 5,000 ticks; declared held with no edge awaited. -/
def execLorstHeld (t : Nat) (s : State) : Outcome :=
  let s := s.at_ t
  .next (
    if !s.safeRuns || s.safe.lorstState ≠ 1 || s.safe.lorstLow ≤ 5000 then s
    else
      let s := { s with safe := { s.safe with lorstState := 2, lorstHigh := 0, lorstLow := 0 } }
      if s.safe.lockout then s.event { source := 14, subkind := 3 } else s)

/-! ### Frames at a module part (R83, R383) -/

/-- FAULT_NOTICE_FRAME_RECEIVE (R83): the notice of another part reaches the dies of this one. -/
def execFaultNoticeFrameReceive (t : Nat) (bytes : List Byte) (s : State) : Outcome :=
  let s := s.at_ t
  let f := frameOf bytes
  let r := s.accept f
  let b := f.payload
  .next (
    if r.1 != .deliver || f.tc != 0 || f.kind != 3 then r.2
    else if b.length != 16 || Poly.crc16.check (b.take 14) != rd b 14 2 then r.2.checkRejected
    else r.2.islands.foldl (fun s k => s.faultTrigger k (rd b 4 8) true) r.2)

/-- GATEWAY_HEARTBEAT_RECEIVE (R383): a valid gateway heartbeat reaches a module part. -/
def execGatewayHeartbeatReceive (t : Nat) (bytes : List Byte) (s : State) : Outcome :=
  let s := s.at_ t
  let f := frameOf bytes
  let r := s.accept f
  let s := r.2
  .next (
    if !s.isModule || r.1 != .deliver || f.tc != 0 || f.kind != 5 then s
    else
      let b := f.payload
      match s.frameError b (fun q => q == 0) s.safe.gwSeq true with
      | some e => s.countFrameError (rd b 0 2) e
      | none => { s with safe := { s.safe with gwOk := true, gwAt := t, gwSeq := some (rd b 2 2) } })

/-- GW_OK_TIMEOUT (R383). -/
def execGwOkTimeout (t : Nat) (s : State) : Outcome :=
  let s := s.at_ t
  .next (
    if !s.safe.gwOk || t < s.safe.gwAt + s.sF 0 31 16 * 1000000 then s
    else { s with safe := { s.safe with gwOk := false, gwSeq := none } })

end Sys2Proof.Machine
end

