-- ==== Sys2Proof/Machine/LinkEnum.lean ====
section
/-! DEFINITION. Enumeration (R263 to R266). The bytes of its messages, which no rule lays out, are the model's: in
clear 0x20 DISCOVER and 0x23 an answer, in TC1 frames 0x10 start, 0x11 report, 0x12 end, 0x13 result and 0x21
assignment. -/

namespace Sys2Proof.Machine

/-- Position, PARTS, RING_CLOSED and stored neighbours dropped (R263). -/
def State.dropPlace (s : State) : State :=
  { s with link := { s.link with
      position := none, parts := 0, ringClosed := false, stored := none, heard := none, frontier := none, downHops := [],
      up := { s.link.up with neighbour := none, answered := false, retune := none },
      dn := { s.link.dn with neighbour := none, answered := false, retune := none } } }

/-- The DISCOVER of a frontier: CHAIN_ID, its position and its identity (R263). DESIGN CHOICE, log entry 13. -/
def State.discover (s : State) : List Byte := le 1 0x20 ++ le 4 s.chainOf ++ le 1 s.pos ++ le 8 s.part.ident

/-- The frontier's wait begins. -/
def State.becomeFrontier (s : State) : State :=
  { s with link := { s.link with frontier := some { closing := false, round := 0, startedAt := s.now, answers := [] } } }

/-- The gateway starts an enumeration (R263): connections are disarmed (R385), a pending commit is cancelled (R360),
commands already sent are aborted (R333), and the start frame goes to every part. -/
def State.startEnumeration (s : State) (cmd : Option Cmd) : State :=
  let s := s.takeBlock 0x12 0
  let s := (s.disarmAll).cancelPend
  let sent := s.hif.inflight.filter fun x => x.started && x.cmd.dest != 0 && !x.completed
  let s := sent.foldl (fun s x => s.queueCompletion x x.cmd.dest 0 0 Status.aborted.code) s
  let s := s.originate 1 0x13 63 (le 1 0x10 ++ le 4 s.chainOf)
  let plan := cellRead s.cfg.f (blockLo 0x12 0) 0x2F0
  let s := s.dropPlace
  let s := { s with link := { s.link with position := some 0, parts := 1, enumState := 1, plan := plan, enumCmd := cmd,
                                          idents := [] } }
  s.becomeFrontier

/-- Enumeration ends at the gateway (R263, R265): PARTS and RING_CLOSED are known, topology events are raised, the closing hop is
given its channel, the command completes, and the commands that were held start (R333). -/
def State.finishEnumeration (s : State) (parts : Nat) (closed : Bool) : State :=
  let plan := s.link.plan
  let exp := planExpect plan
  let noRing := bit (rd plan 0 4) 2 && !closed
  let count := exp != 0 && exp != parts
  let s := { s with link := { s.link with parts := parts, ringClosed := closed, frontier := none, heard := none,
                                          enumState := if noRing || count then 3 else 2 } }
  let s := (if closed then s.modPort .up fun p =>
      { p with retune := some (closingChannel plan parts), ctlDue := true, useAtOnce := true, answered := false } else s).holderAnew
  let s := if noRing then s.event { source := 34, subkind := 2 } else s
  let s := if count then s.event { source := 34, subkind := 3 } else s
  let odd := ((List.range (parts - 1)).filter (planBeyond plan)) ++ (if closed && closeBeyond plan parts then [parts - 1] else [])
  let s := odd.foldl (fun s h => s.event { source := 34, subkind := 4, item := h }) s
  let s := s.event { source := 38, subkind := 1, arg16 := parts }
  let s := (s.originate 1 0x13 63 (le 1 0x13 ++ le 1 parts ++ le 1 (b2n closed))).flushUnrouted
  let c := s.link.enumCmd
  (({ s with link := { s.link with enumCmd := none } }).completeOpt c .success (parts + 256 * b2n closed)).startAll

/-- The end of an enumeration made known to the gateway by its last frontier: over the hop that has closed the ring, or back
along the chain. -/
def State.endEnumeration (s : State) (parts : Nat) (closed : Bool) : State :=
  let s := { s with link := { s.link with frontier := none } }
  let b := le 1 0x12 ++ le 1 parts ++ le 1 (b2n closed)
  if s.isGateway then s.finishEnumeration parts closed
  else
    let s := { s with link := { s.link with parts := parts, ringClosed := closed } }
    if closed then
      let m := nextMseq s.link.flowsTx 1 0
      ({ s with link := { s.link with flowsTx := m.2 } }).enqueue .down
        { tc := 1, kind := 0x13, dst := 0, origin := s.pos, flags := flFirst ||| flLast, mseq := m.1, payload := b }
    else s.originate 1 0x13 0 b

/-- The frontier trains its DOWN port anew on channel 2, the one of enumeration, to key the hop with a part that has answered; the
hop takes the channel `next` at the training after that (R263, R277). -/
def State.freshHop (s : State) (ident next : Nat) : State :=
  let s := s.hopDown .down
  let s := s.modPort .down fun p =>
    { p with keys := none, old := none, keying := none, neighbour := some ident, useAtOnce := true, answered := false, retune := some 1,
             rx := List.replicate 4 RxClass.fresh, tx := List.replicate 4 TxClass.fresh }
  (s.startTraining .down).modPort .down fun p => { p with retune := some next }

/-- The hop to the gateway's UP port is keyed: the ring is closed and the enumeration ends (R263). -/
def State.closeRing (s : State) : State :=
  match s.link.frontier with
  | some f => if f.closing && s.link.dn.keys.isSome && s.link.dn.st == .up then s.endEnumeration (s.pos + 1) true else s
  | none => s

/-- ENUM_START_RECEIVE (R263): the part drops its place in the chain; an enumeration cancels a pending commit (R360). -/
def execEnumStartReceive (t : Nat) (bytes : List Byte) (s : State) : Outcome :=
  let s := s.at_ t
  let r := s.accept (frameOf bytes)
  .next (if r.1 = .deliver ∧ r.2.isModule ∧ rd (frameOf bytes).payload 0 1 = 0x10 then r.2.cancelPend.dropPlace else r.2)

/-- DISCOVER_SEND (R263): the frontier sends DISCOVER every millisecond of its wait. -/
def execDiscoverSend (t : Nat) (s : State) : Outcome :=
  let s := s.at_ t
  .next (
    match s.link.frontier with
    | none => s
    | some f =>
      let wait := bits (rd s.link.plan 0 4) 31 16 * 1000000
      if s.linkRuns ∧ (t - f.startedAt) % 1000000 = 0 ∧ t < f.startedAt + wait * (f.round + 1) then s.emit (.clear .down s.discover)
      else s)

/-- DISCOVER_RECEIVE (R263, R264): `bytes` is DISCOVER and, after it, the received level as one byte. A part that answers keeps its
hop as it is until the frontier keys it again, which it does on channel 2. -/
def execDiscoverReceive (t : Nat) (side : Side) (bytes : List Byte) (s : State) : Outcome :=
  let s := s.at_ t
  let chain := rd bytes 1 4
  .next (
    if !s.linkRuns || rd bytes 0 1 != 0x20 || s.trust.life == 3 then s
    else if side = .down then
      if s.link.dn.orientRaised then s
      else (s.modPort .down fun p => { p with orientRaised := true }).event { source := 34, subkind := 1, item := s.pos }
    else
      let mine := if s.isGateway then chain == s.chainOf
        else s.trust.life == 0 || (match s.link.chainId with | none => true | some c => c == chain)
      if !mine || s.link.frontier.isSome then s
      else
        let s := if s.isModule && s.link.position.isSome && s.link.chainId == some chain then s.cancelPend.dropPlace else s
        if s.isModule && s.link.position.isSome then s
        else
          let r := s.drawBits 4
          let s := r.2.emit (.clear .up (le 1 0x23 ++ le 1 (r.1 % 16) ++ le 8 s.part.ident ++ slice bytes 14 1 ++ le 1 (b2n s.isGateway)))
          let s := ({ s with link := { s.link with heard := some (chain, rd bytes 5 1) } }).modPort .up fun p =>
            { p with answered := true, retune := some 1 }
          if s.link.up.st = .up || (s.link.up.st == .training && s.link.up.channel == 1) then s else s.startTraining .up)

/-- The candidate of R263 among some answers of module parts: the mapped identity, or the highest level and on equal
levels the lower identity. -/
def chooseCandidate (plan : List Byte) (next : Nat) (l : List (List Byte)) : Option (List Byte) :=
  let want := rd plan (0x100 + 8 * (next - 1)) 8
  if bit (rd plan 0 4) 6 && want != 0 then l.find? fun a => rd a 0 8 == want
  else l.foldl
    (fun best a =>
      match best with
      | none => some a
      | some b => if rdInt b 8 1 < rdInt a 8 1 ∨ (rdInt a 8 1 = rdInt b 8 1 ∧ rd a 0 8 < rd b 0 8) then some a else best) none

/-- ENUM_WAIT_EXPIRE (R263, R265): `answers` are what the frontier heard: identity, level, and whether the gateway's
UP port answered. -/
def execEnumWaitExpire (t : Nat) (answers : List (List Byte)) (s : State) : Outcome :=
  let s := s.at_ t
  .next (
    match s.link.frontier with
    | none => s
    | some f =>
      let plan := s.link.plan
      let wait := bits (rd plan 0 4) 31 16 * 1000000
      if !s.linkRuns || f.closing || decide (t < f.startedAt + wait * (f.round + 1)) then s
      else
        let next := s.pos + 1
        let own := answers.filter fun a => rd a 9 1 == 0
        let gate := answers.find? fun a => rd a 9 1 == 1
        let pick := if s.pos = 62 then none else chooseCandidate plan next own
        if gate.isSome && s.pos != 0 && (own.isEmpty || s.pos == 62 || next == planExpect plan) then
          ({ s with link := { s.link with frontier := some { f with closing := true } } }).freshHop (rd (gate.getD []) 0 8) (closingChannel plan next)
        else
          match pick with
          | some a =>
            let ch := hopChannel plan s.pos
            let s := { s with link := { s.link with frontier := none } }
            let s := s.freshHop (rd a 0 8) ch
            s.enqueue .down { tc := 1, kind := 0x13, dst := 0, origin := s.pos, flags := flFirst ||| flLast, mseq := 0,
                              payload := le 1 0x21 ++ a.take 8 ++ le 4 s.chainOf ++ le 1 next ++ le 1 ch ++ plan }
          | none =>
            if f.round < 2 then { s with link := { s.link with frontier := some { f with round := f.round + 1 } } }
            else s.endEnumeration next false)

/-- ENUM_FRAME_RECEIVE (R263): an assignment at the chosen part, a report or the end at the gateway, or the result. -/
def execEnumFrameReceive (t : Nat) (bytes : List Byte) (s : State) : Outcome :=
  let s := s.at_ t
  let f := frameOf bytes
  let b := f.payload
  let kind := rd b 0 1
  let inbox := s.link.inbox.eraseP fun x => x.2 == f
  let s1 := { s with link := { s.link with inbox := inbox } }
  .next (
    if !s.linkRuns then s
    else if kind = 0x21 then
      if s.isModule ∧ rd b 1 8 = s.part.ident ∧ s.link.position.isNone then
        let s := { s1 with link := { s1.link with
          position := some (rd b 13 1), parts := rd b 13 1 + 1, heard := none,
          chainId := some (if s.trust.life = 0 then rd b 9 4 else s.link.chainId.getD (rd b 9 4)), plan := b.drop 15,
          up := { s1.link.up with retune := some (rd b 14 1), useAtOnce := true, held := false, answered := false, ctlDue := true } } }
        (s.becomeFrontier.flushUnrouted).originate 1 0x13 0 (le 1 0x11 ++ le 1 (rd b 13 1) ++ le 8 s.part.ident ++ le 1 (rd b 14 1))
      else s1
    else
      let r := s.accept f
      if r.1 ≠ .deliver then r.2
      else if kind = 0x11 ∧ r.2.isGateway ∧ r.2.link.enumState = 1 then
        { r.2 with link := { r.2.link with
            parts := max r.2.link.parts (rd b 1 1 + 1),
            idents := (r.2.link.idents.filter fun x => x.1 != rd b 1 1) ++ [(rd b 1 1, rd b 2 8)] } }
      else if kind = 0x12 ∧ r.2.isGateway ∧ r.2.link.enumState = 1 then r.2.finishEnumeration (rd b 1 1) (rd b 2 1 == 1)
      else if kind = 0x13 ∧ r.2.isModule then
        ({ r.2 with link := { r.2.link with parts := rd b 1 1, ringClosed := rd b 2 1 == 1, frontier := none, heard := none } }).holderAnew
      else r.2)

/-! ### Frames on their way (R27, R267 to R269) -/

/-- FRAME_FORWARD (R27): a frame for another part, or a broadcast copy, leaves by the other port. -/
def execFrameForward (t : Nat) (side : Side) (bytes : List Byte) (s : State) : Outcome :=
  let s := s.at_ t
  let f := frameOf bytes
  let out := side.other
  .next (
    if !s.linkRuns then s
    else if f.dst = 63 then
      if s.link.position = some f.origin || !s.mayForward side f || !s.hasNeighbour out || (f.tc == 0 && f.kind == 1) then s
      else (s.noteForward side f).enqueue out f
    else if f.dst = 0 then s
    else
      let inbox := s.link.inbox.eraseP fun x => x.2 == f
      let s := { s with link := { s.link with inbox := inbox } }
      if s.link.parts ≤ f.dst || (!s.link.ringClosed && !s.hasNeighbour out) then s.countNoRoute
      else s.egress out f)

/-- MSEQ_GAP_RELEASE (R269): a frame held behind a gap for 5 ms is delivered, and the gap counted. -/
def execMseqGapRelease (t origin tc flow : Nat) (s : State) : Outcome :=
  let s := s.at_ t
  let same := fun (x : FlowRx) => x.origin == origin && x.tc == tc && x.flow == flow
  .next (
    match s.link.flowsRx.find? same with
    | none => s
    | some x =>
      match x.held.find? fun h => h.1 + 5000000 ≤ t with
      | none => s
      | some h =>
        -- the held frame that follows the gap most closely is released first; a record whose segments stopped coming is given up
        let first := x.held.foldl
          (fun (m : Nat × Option Side × Frame) y =>
            if (y.2.2.mseq + 65536 - x.next) % 65536 < (m.2.2.mseq + 65536 - x.next) % 65536 then y else m) h
        let r := releaseRun (x.held.length + 1) { x with next := first.2.2.mseq, open_ := none } []
        { s with link := { s.link with
            flowsRx := s.link.flowsRx.map fun z => if same z then r.1 else z,
            inbox := s.link.inbox ++ releasedFrames r.2,
            mseqGap := satInc 16 s.link.mseqGap } })

/-- LINK_STATE_NOTICE_RECEIVE (R262): the record of DOWN hops follows. -/
def execLinkStateNoticeReceive (t : Nat) (bytes : List Byte) (s : State) : Outcome :=
  let s := s.at_ t
  let f := frameOf bytes
  let r := s.accept f
  .next (
    if r.1 ≠ .deliver ∨ f.kind ≠ 6 ∨ f.tc ≠ 0 then r.2
    else
      let h := rd f.payload 0 1
      let down := (r.2.link.downHops.filter (· != h)) ++ (if rd f.payload 1 1 = 2 then [] else [h])
      ({ r.2 with link := { r.2.link with downHops := down } }).noteHolder)

end Sys2Proof.Machine
end

