-- ==== Sys2Proof/Machine/Link.lean ====
section
/-! DEFINITION. The hops of the link (R251 to R262, R277, R278): codewords, acknowledgement and retry, training,
power control and keying. -/

namespace Sys2Proof.Machine

/-! ### Codewords -/

/-- CODEWORD_BOUNDARY (R255): the port sends the first that is ready; in TRAINING, training codewords (R262). Once the UP port of
a part has acknowledged the assignment of its channel, the hop trains there (R263). -/
def execCodewordBoundary (t : Nat) (side : Side) (s : State) : Outcome :=
  let s := s.at_ t
  let p := s.port side
  .next (
    if !s.linkRuns then s
    else
      match p.st with
      | .down => s
      | .training =>
        let r := p.lineBytes (le 1 3 ++ zeros 51)
        (s.modPort side fun _ => r.2).emit (.codeword side r.1)
      | .up =>
        let d := p.nextCodeword t
        let r := d.2.lineBytes d.1
        let many := decide (10 < r.2.thirds.length)
        let told := rd d.1 0 1 == 2
        let s := (s.modPort side fun _ => if many then { r.2 with thirds := [] } else r.2).emit (.codeword side r.1)
        let s := if many then s.event { source := 35, item := s.hopOf side, arg16 := 11 } else s
        if side = .up && told && p.retune.isSome && !p.answered then s.startTraining side else s)

/-- A tag failure (R261, R262): counted; the sixteenth in a row is a security event and takes the hop DOWN. -/
def State.tagFailure (s : State) (side : Side) : State :=
  let s := s.modPort side fun p => { p with tagFail := satInc 8 p.tagFail, tagRun := p.tagRun + 1 }
  if (s.port side).tagRun = 16 then (s.event { source := 36, subkind := 1, item := s.hopOf side }).hopDown side else s

/-- Frames of a class that now follow in LSEQ order (R260). -/
def rxRelease : Nat → RxClass → List Frame → RxClass × List Frame
  | 0, r, acc => (r, acc)
  | n + 1, r, acc =>
    match r.held.find? fun h => h.1 == r.next with
    | none => (r, acc)
    | some h =>
      rxRelease n { r with next := (r.next + 1) % 65536, held := r.held.filter fun x => x.1 != h.1 } (acc ++ [h.2])

/-- A frame received correctly with its LSEQ: TC0 is delivered at once, the other classes in LSEQ order (R260). -/
def RxClass.take (r : RxClass) (tc lseq : Nat) (f : Frame) : RxClass × List Frame :=
  let ahead := (lseq + 65536 - r.next) % 65536
  if 32768 ≤ ahead ∨ r.held.any (fun h => h.1 == lseq) then (r, [])
  else
    let x := rxRelease (r.held.length + 1) { r with held := r.held ++ [(lseq, f)] } []
    if tc = 0 then (x.1, [f]) else x

/-- A carrier-edge beacon or a fault notice passes to the dies at once: a slice that holds an inner link is aborted
(R463). -/
def State.passTc0 (s : State) (f : Frame) : State :=
  if f.tc = 0 ∧ (f.kind = 2 ∨ f.kind = 3) then s.freeLinks else s

/-- The payload of a frame whose tag holds, under the keys in force or, below the counter that the peer has named, under the ones
before them, with the port that has noted its counter; no port when the counter is rejected (R278). -/
def Port.openFrame (p : Port) (k : HopKeys) (bytes : List Byte) (n ctr : Nat) : Option (List Byte × Option Port) :=
  let try_ := fun (k : HopKeys) =>
    gcmOpen k.rxKey (nonceOf k.rxSalt false ctr) (bytes.take 16) (slice bytes 16 n) (slice bytes (16 + n) 16)
  match try_ k, p.old with
  | some clear, _ =>
    let c := counterNote p.rxCtrTop p.rxCtrSeen ctr
    some (clear, if counterOk p.rxCtrTop p.rxCtrSeen ctr then some { p with rxCtrTop := c.1, rxCtrSeen := c.2 } else none)
  | none, some o =>
    let c := counterNote o.rxCtrTop o.rxCtrSeen ctr
    if o.rxCtr ≤ ctr then none
    else (try_ o.keys).map fun clear =>
      (clear, if counterOk o.rxCtrTop o.rxCtrSeen ctr then some { p with old := some { o with rxCtrTop := c.1, rxCtrSeen := c.2 } } else none)
  | none, none => none

/-- A control codeword whose tag holds likewise: the port that has noted its counter, or none when the counter is rejected. -/
def Port.openControl (p : Port) (k : HopKeys) (bytes : List Byte) : Option (Option Port) :=
  let c := rd bytes 1 5
  let good := fun (k : HopKeys) => (gcmSeal k.rxKey (nonceOf k.rxSalt true c) (bytes.take 36) []).2 == slice bytes 36 16
  if good k then
    let n := counterNote p.rxCctrTop p.rxCctrSeen c
    some (if counterOk p.rxCctrTop p.rxCctrSeen c then some { p with rxCctrTop := n.1, rxCctrSeen := n.2 } else none)
  else
    match p.old with
    | none => none
    | some o =>
      let n := counterNote o.rxCctrTop o.rxCctrSeen c
      if o.rxCctr ≤ c || !good o.keys then none
      else some (if counterOk o.rxCctrTop o.rxCctrSeen c then some { p with old := some { o with rxCctrTop := n.1, rxCctrSeen := n.2 } } else none)

/-- A whole frame off the line: counter and tag are checked, and the frame goes to its class (R260, R261, R278). -/
def State.takeFrame (s : State) (side : Side) (bytes : List Byte) : State :=
  let p := s.port side
  let n := rd bytes 4 2
  let ctr := rd bytes 11 5
  match p.keys with
  | none => s
  | some k =>
    if bytes.length ≠ 32 + n then s.tagFailure side
    else
      match p.openFrame k bytes n ctr with
      | none => s.tagFailure side
      | some (clear, q) =>
        let f := { frameOf (bytes.take 16 ++ clear) with payload := clear }
        let due := f.tc == 0
        match q with
        | none => s.modPort side fun p => { p with tagRun := 0, ctlDue := p.ctlDue || due }
        | some q =>
          let x := (p.rx.getD f.tc RxClass.fresh).take f.tc (rd bytes 6 2) f
          let s := s.modPort side fun _ =>
            { q with tagRun := 0, ctlDue := q.ctlDue || due,
                     rx := modNth (fun r => { x.1 with part := r.part, inFrame := r.inFrame }) f.tc q.rx }
          let s := x.2.foldl (fun s f => s.passTc0 f) s
          { s with link := { s.link with inbox := s.link.inbox ++ x.2.map fun f => (side, f) } }

/-- CODEWORD_RECEIVE (R251, R254, R261): the line bits of one codeword's length; what a control codeword says is taken in
its own step. Without an alignment nothing is decoded. An uncorrectable codeword discards the frame in progress of the
class its header names. -/
def execCodewordReceive (t : Nat) (side : Side) (bytes : List Byte) (s : State) : Outcome :=
  let s := s.at_ t
  let p := s.port side
  let d := p.takeLine bytes
  .next (
    if !s.linkRuns || p.st == .down || bytes.length != 60 then s
    else
      let s := s.modPort side fun _ => d.2
      match d.1 with
      | none => if d.2.aligned then s.modPort side fun p => { p with lastCodeword := t } else s
      | some cw =>
      match rsDecode cw with
      | none =>
        let tc := bits (rd cw 0 1) 7 6
        s.modPort side fun p =>
          { p with cwUncorr := satInc 16 p.cwUncorr, lastUncorr := t,
                   rx := modNth (fun r => { r with part := [], inFrame := false }) tc p.rx }
      | some w =>
        let s := s.modPort side fun p => { p with lastCodeword := t }
        let h := rd w 0 1
        let tc := bits h 7 6
        if bits h 3 0 ≠ 1 ∨ p.st ≠ .up then s
        else
          let r := p.rx.getD tc RxClass.fresh
          let last := bit h 4
          let n := rd w 1 1
          let data := if last then slice w 2 (min n 50) else slice w 1 51
          if !bit h 5 && !r.inFrame then s
          else
            let part := (if bit h 5 then [] else r.part) ++ data
            let s := s.modPort side fun p =>
              { p with rx := modNth (fun r => { r with part := if last then [] else part, inFrame := !last }) tc p.rx }
            if last then s.takeFrame side part else s)

/-- An LSEQ that a control codeword shows as received (R258). -/
def ackShows (b : List Byte) (tc lseq : Nat) : Bool :=
  let top := rd b (20 + 4 * tc) 2
  let map := rd b (22 + 4 * tc) 2
  let behind := (top + 65536 - lseq) % 65536
  let k := (lseq + 65535 - top) % 65536
  decide (behind < 32768) || (decide (k < 16) && bit map k)

/-- A class after an acknowledgement: what is shown leaves; TC1 to TC3 frames that a later one has passed are sent
again (R260). -/
def TxClass.acked (c : TxClass) (b : List Byte) (tc : Nat) : TxClass :=
  let left := c.unacked.filter fun x => !ackShows b tc x.lseq
  let again := c.again.filter fun x => !ackShows b tc x.lseq
  let shown := c.unacked.filter fun x => ackShows b tc x.lseq
  let passed := fun (x : TxFrame) => tc != 0 && shown.any fun y => decide ((y.lseq + 65536 - x.lseq) % 65536 < 32768)
  { c with unacked := left.filter (fun x => !passed x), again := again ++ left.filter passed }

/-- The mean hop delay of a port, 1/16 ns (R273). -/
def Port.delay (p : Port) : Rat := (meanOf p.delays).getD 0

/-- The delay d of R273 from one exchange, corrected for the chain delays of both ends. The reply of a peer that has received no
control codeword yet closes no exchange. -/
def State.exchange (s : State) (side : Side) (b : List Byte) : State :=
  let p := s.port side
  match p.ctlSent.find? fun x => x.1 % 65536 == rd b 18 2 with
  | none => s
  | some x =>
    if rd b 12 6 = 0 ∧ rd b 18 2 = 0 then s
    else
    let t4 := s.now * 16 % 2 ^ 48
    let d : Int := signed 48 (t4 + 2 ^ 48 - x.2) - signed 48 (rd b 6 6 + 2 ^ 48 - rd b 12 6)
    let fix : Rat := ((s.chainDelays.1 + s.chainDelays.2 + p.peerDelays.1 + p.peerDelays.2 : Nat) : Rat) / 2
    s.modPort side fun p => { p with delays := (((d : Rat) / 2 - fix) :: p.delays).take 256 }

/-- A frontier's assignment has been acknowledged: the hop trains on the channel that it gives (R263). -/
def Port.assigned (p : Port) : Bool :=
  let c := p.tx.getD 1 TxClass.fresh
  p.retune.isSome && c.queue.isEmpty && c.cur.isNone && c.again.isEmpty && c.unacked.isEmpty

/-- CONTROL_CODEWORD_RECEIVE (R258): its tag and counter are checked, then its acknowledgements and times are taken. -/
def execControlCodewordReceive (t : Nat) (side : Side) (bytes : List Byte) (s : State) : Outcome :=
  let s := s.at_ t
  let p := s.port side
  .next (
    if !s.linkRuns || p.st != .up || bytes.length != 52 then s
    else
      match p.keys with
      | none => s
      | some k =>
        let c := rd bytes 1 5
        match p.openControl k bytes with
        | none => s.tagFailure side
        | some none => s.modPort side fun p => { p with tagRun := 0 }
        | some (some q) =>
          let s := s.modPort side fun _ =>
            { q with tagRun := 0, lastCodeword := t, ctlRx := (t * 16 % 2 ^ 48, c),
                     tx := q.tx.zipIdx.map fun (x : TxClass × Nat) => x.1.acked bytes x.2 }
          let s := s.exchange side bytes
          if (s.port side).tx.drop 1 |>.any fun c => c.again.any fun x => decide (16 ≤ x.attempts) then s.hopDown side
          else if side = .down && (s.port side).assigned then s.startTraining side
          else s)

/-- TC0_ACK_TIMEOUT (R259): the oldest TC0 frame without acknowledgement is sent again; one that failed three
attempts is dropped and the hop goes DOWN. -/
def execTc0AckTimeout (t : Nat) (side : Side) (s : State) : Outcome :=
  let s := s.at_ t
  let p := s.port side
  .next (
    match (p.tx.getD 0 TxClass.fresh).unacked with
    | [] => s
    | x :: rest =>
      if p.st ≠ .up ∨ t < x.sentAt + p.ackNs then s
      else if 3 ≤ x.attempts then
        (s.modPort side fun p => { p with tx := modNth (fun c => { c with unacked := rest }) 0 p.tx }).hopDown side
      else s.modPort side fun p =>
        { p with tx := modNth (fun c => { c with unacked := rest, again := c.again ++ [x] }) 0 p.tx })

/-- FRAME_RETRY_TIMEOUT (R260): 24 µs without acknowledgement; after 16 attempts the hop goes DOWN. -/
def execFrameRetryTimeout (t : Nat) (side : Side) (tc : Nat) (s : State) : Outcome :=
  let s := s.at_ t
  let p := s.port side
  .next (
    match (p.tx.getD tc TxClass.fresh).unacked with
    | [] => s
    | x :: rest =>
      if tc = 0 ∨ 3 < tc ∨ p.st ≠ .up ∨ t < x.sentAt + 24000 then s
      else if 16 ≤ x.attempts then s.hopDown side
      else s.modPort side fun p =>
        { p with tx := modNth (fun c => { c with unacked := rest, again := c.again ++ [x] }) tc p.tx })

/-! ### Hop states -/

/-- HOP_SILENCE_TIMEOUT (R262): no codeword decoded for 20 µs, UP or in TRAINING. -/
def execHopSilenceTimeout (t : Nat) (side : Side) (s : State) : Outcome :=
  let s := s.at_ t
  let p := s.port side
  .next (if s.linkRuns ∧ p.st ≠ .down ∧ p.lastCodeword + 20000 ≤ t then s.hopDown side else s)

/-- HOP_MARGIN_TIMEOUT (R253): a 16-QAM margin below 2 dB for 100 ms at maximum power. -/
def execHopMarginTimeout (t : Nat) (side : Side) (s : State) : Outcome :=
  let s := s.at_ t
  let p := s.port side
  .next (
    match p.lowSince with
    | some a => if s.linkRuns ∧ p.st = .up ∧ a + 100000000 ≤ t then s.hopDown side else s
    | none => s)

/-- A hop that is not UP may begin to train: at once after it went DOWN in service or its port powered up, and then every
10 ms until training succeeds (R262). -/
def Port.mayTrain (p : Port) (now : Nat) : Bool :=
  p.st != .up && !p.trained && ((p.trainFree && p.st == .down) || decide (p.trainAt + 10000000 ≤ now) || decide (now < p.trainAt))

/-- HOP_TRAINING_RETRY (R262). -/
def execHopTrainingRetry (t : Nat) (side : Side) (s : State) : Outcome :=
  let s := s.at_ t
  .next (if s.linkRuns && (s.port side).mayTrain t then s.startTraining side else s)

/-- Since when a margin stands below 2 dB while the peer sends at maximum power (R253). -/
def Port.noteMargin (p : Port) (margin : Int) (peerMax : Bool) (now : Nat) : Port :=
  let low := !p.qpsk && decide (margin < 8) && peerMax
  { p with margin := margin, lowSince := if low then some (p.lowSince.getD now) else none }

/-- HOP_TRAINING_COMPLETE (R253, R262): `margin` is the SNR margin over the 16-QAM threshold, 0.25 dB per LSB, and
`peerQpsk` the peer's QPSK_EN. After at least 100 µs the mode is chosen, and the hop comes UP once its keys are in force. A part
that has answered a DISCOVER waits for the frontier to key the hop (R263). At a gateway the first hop that trains ends the wait for
its first beacon 100 ms later (R272). -/
def execHopTrainingComplete (t : Nat) (side : Side) (margin : Int) (peerQpsk : Bool) (s : State) : Outcome :=
  let s := s.at_ t
  let qam := decide (24 ≤ margin)
  let ok := qam || ((s.port side).qpskEn && peerQpsk)
  .next (
    if !s.linkRuns || (s.port side).st != .training || t < (s.port side).trainAt + 100000 || !ok then s
    else
      let s := if s.link.beaconHold = some 0 then { s with link := { s.link with beaconHold := some (t + 100000000) } } else s
      let s := s.modPort side fun p =>
        ({ p with qpsk := !qam, trained := true }).noteMargin (if qam then margin else margin + 28) true t
      if (s.port side).answered then s
      else
      match (s.port side).keys, (s.port side).keying with
      | some _, _ => (s.hopUp side).closeRing
      | none, some _ => s
      | none, none => s.startKeying side false)

/-- HOP_ROUTE_RESTORE (R262): 100 ms UP without an uncorrectable codeword. -/
def execHopRouteRestore (t : Nat) (side : Side) (s : State) : Outcome :=
  let s := s.at_ t
  let p := s.port side
  .next (
    if p.st = .up ∧ p.held ∧ p.upSince + 100000000 ≤ t ∧ p.lastUncorr + 100000000 ≤ t then
      (s.modPort side fun p => { p with held := false }).routeChange side 2
    else s)

/-- APC_ADJUST (R252): once per millisecond, and no sooner, the power follows the margin at the peer's receiver, to hold it between 8 dB
and 12 dB; with APC_EN 0 the port sends at TX_PWR_MAX. `margin` holds both margins and whether the peer sends at its
maximum. -/
def execApcAdjust (t : Nat) (side : Side) (margin : Margins) (s : State) : Outcome :=
  let s := s.at_ t
  .next (
    if (s.port side).st ≠ .up then s
    else
      s.modPort side fun p =>
        let due := decide (p.apcAt ≤ t) || decide (t + 1000000 < p.apcAt)
        let p := { p with apcAt := if due then t + 1000000 else p.apcAt }
        let pwr := if !p.apcEn then p.txMax else if !due then p.txPwr else if margin.peer < 32 then min p.txMax (p.txPwr + 1)
          else if 48 < margin.peer then max (-10) (p.txPwr - 1) else p.txPwr
        ({ p with txPwr := pwr }).noteMargin margin.own margin.peerMax t)

/-- HOP_KEYING_MESSAGE (R277): an offer or a signature of the neighbour. -/
def execHopKeyingMessage (t : Nat) (side : Side) (bytes : List Byte) (s : State) : Outcome :=
  let s := s.at_ t
  .next (
    if !s.linkRuns || (s.port side).st == .down then s
    else if rd bytes 0 1 = 0x30 then s.takeOffer side bytes
    else if rd bytes 0 1 = 0x31 then (s.takeSignature side bytes).closeRing
    else s)

/-- HOP_REKEY (R278): a counter reaches 2^39 and the hop keys anew in service. -/
def execHopRekey (t : Nat) (side : Side) (s : State) : Outcome :=
  let s := s.at_ t
  let p := s.port side
  .next (if p.st = .up ∧ p.keying = none ∧ (2 ^ 39 ≤ p.ctr ∨ 2 ^ 39 ≤ p.cctr) then s.startKeying side true else s)

end Sys2Proof.Machine
end

