-- ==== Sys2Proof/Machine/LinkTime.lean ====
section
/-! DEFINITION. Pack time and heartbeats (R271 to R276, R280). -/

namespace Sys2Proof.Machine

/-- Both hops that the part has are keyed (R272). -/
def State.hopsKeyed (s : State) : Bool :=
  (!s.hasNeighbour .up || s.link.up.keys.isSome) && (!s.hasNeighbour .down || s.link.dn.keys.isSome)

/-- A copy of a beacon that is passed on: its arrival is taken from CORR, and its departure added there as it leaves, since the
residence runs from one to the other (R274). -/
def State.queueBeacon (s : State) (side : Side) (f : Frame) (corr : Nat) : State :=
  let wait := (corr + 2 ^ 32 - s.now * 16 % 2 ^ 32) % 2 ^ 32
  s.enqueue side { f with payload := f.payload.take 8 ++ le 4 wait ++ f.payload.drop 12 }

/-- TIME_BEACON_SEND (R272, R274): at every whole millisecond the gateway sends a beacon both ways; the first one is
held back as R272 says. -/
def execTimeBeaconSend (t : Nat) (s : State) : Outcome :=
  let s := s.at_ t
  .next (
    if !s.linkRuns || !s.isGateway || t % 1000000 != 0 || s.now != t then s
    else
      let held := match s.link.beaconHold with
        | none => false
        | some h => !s.hopsKeyed && (h == 0 || decide (t < h))
      if held then s
      else
        let m := nextMseq s.link.flowsTx 0 63
        let s := { s with link := { s.link with beaconHold := none, flowsTx := m.2 } }
        let f : Frame := { tc := 0, kind := 1, dst := 63, origin := 0, flags := flFirst ||| flLast ||| flDual, mseq := m.1,
                           payload := le 8 t ++ zeros 6 ++ le 2 s.link.epoch ++ zeros 8 }
        let s := if s.hasNeighbour .up then s.enqueue .up f else s
        if s.hasNeighbour .down then s.enqueue .down f else s)

/-- Cell dies whose precision path runs, and the output-sample boundary at which the last of them samples next (R42, R275). -/
def State.sampling (s : State) : List Nat × Nat :=
  let on := s.islands.filter fun k => ((s.die? k).map fun d => d.prec.running && d.precOn).getD false
  (on, on.foldl (fun m k => max m (s.boundaryAfter k s.now)) 0)

/-- The servo of R275 takes the offset of a beacon in ns, `base` beacons within ±20 ns having come before it: up to 1 µs is
slewed; more, and the first lock, is a step at the next output-sample boundary of the cell dies, or at once where none samples. -/
def State.servo (s : State) (ofs : Int) (base : Nat) : State :=
  let step := !s.link.everLocked || decide (1000 < ofs.natAbs)
  let run := if ofs.natAbs ≤ 20 then base + 1 else 0
  let l := { s.link with ofs := ofs, lastBeacon := s.now, lockBase := base }
  if step then
    let x := s.sampling
    let left := match s.link.stepDue with
      | some d => (d.1, d.2.2.filter x.1.contains)
      | none => (x.2, x.1)
    if left.2.isEmpty then ({ s with link := l }).takeStep ofs
    else { s with link := { l with stepDue := some (left.1, ofs, left.2), lockRun := 0, slew := 0, tq := if s.link.everLocked then 1 else s.link.tq } }
  else { s with link := { l with lockRun := run, slew := (ofs : Rat), stepDue := none, tq := if 16 ≤ run then 0 else 1 } }

/-- TIME_BEACON_RECEIVE (R274, R275): of the two copies of one beacon, which the whole millisecond of T_ORIGIN names, the one with
fewer hops is used, and they count as one beacon; the first copy is forwarded with its residence and the port's delay added to
CORR. -/
def execTimeBeaconReceive (t : Nat) (side : Side) (bytes : List Byte) (s : State) : Outcome :=
  let s := s.at_ t
  let f := frameOf bytes
  let b := f.payload
  .next (
    if !s.linkRuns || !s.isModule || f.tc != 0 || f.kind != 1 then s
    else
      let r := s.accept f
      let s := r.2
      let tOrigin := rd b 0 8
      let hops := rd b 12 1
      let d := (s.port side).delay
      let same := s.link.lastTOrigin / 1000000 == tOrigin / 1000000
      let newer := decide (s.link.lastTOrigin / 1000000 < tOrigin / 1000000) || s.link.lastBeacon == 0
      let better := same && decide (hops < s.link.lastHops)
      let est : Rat := (tOrigin : Rat) + ((rd b 8 4 : Nat) : Rat) / 16 + d / 16
      let s := if newer || better then
          ({ s with link := { s.link with lastTOrigin := tOrigin, lastHops := hops, epoch := rd b 14 2 } }).servo
            (roundAway (est - (t : Rat))) (if same then s.link.lockBase else s.link.lockRun)
        else s
      if !s.mayForward side f || !s.hasNeighbour side.other then s
      else
        let g := { f with payload := b.take 12 ++ le 1 (hops + 1) ++ b.drop 13 }
        (s.noteForward side f).queueBeacon side.other g (rd b 8 4 + (roundAway d).toNat))

/-- TQ_HOLDOVER (R275): no beacon for more than 10 ms, and for more than 1.5 s. -/
def execTqHoldover (t : Nat) (s : State) : Outcome :=
  let s := s.at_ t
  .next (
    if s.isGateway || !s.link.everLocked then s
    else if s.link.lastBeacon + 1500000000 < t then { s with link := { s.link with tq := 2, lockRun := 0 } }
    else if s.link.lastBeacon + 10000000 < t then { s with link := { s.link with tq := 1, lockRun := 0 } }
    else s)

/-- The gateway commits its pack time to the older of two slots (R272). -/
def State.commitPackTime (s : State) : State :=
  if !s.isGateway then s
  else
    let seq := (s.link.packSlots.foldl (fun m x => max m x.2.1) 0) + 1
    let l := s.link.packSlots ++ [(s.now, seq, true)]
    { s with link := { s.link with packSlots := l.drop (l.length - 2) } }

/-- The pack time of the newer slot that is valid (R272). -/
def LinkState.lastPack (l : LinkState) : Option Nat := (l.packSlots.reverse.find? fun x => x.2.2).map (·.1)

/-- PACK_TIME_COMMIT (R272). -/
def execPackTimeCommit (t : Nat) (s : State) : Outcome :=
  let s := s.at_ t
  .next (if t % 100000000 = 0 ∧ s.inRunDoze ∧ s.part.serving ∧ s.power.warnAt = none then s.commitPackTime else s)

/-- HEARTBEAT_SEND (R271, R383): at (10 ms × k) + position × 150 µs + 25 µs a module part sends its heartbeat to the
gateway, and the gateway broadcasts its own. -/
def execHeartbeatSend (t : Nat) (s : State) : Outcome :=
  let s := s.at_ t
  .next (
    if !s.linkRuns || s.link.position.isNone || (t + 10000000 - (s.pos * 150000 + 25000) % 10000000) % 10000000 != 0 then s
    else
      let r := s.formSafety 0x01 {} 0 false
      r.2.originate 0 0x05 (if s.isGateway then 63 else 0) r.1)

/-- TQ of a die after a time word of a part whose TQ is `hub`: 3 until it locks for the first time since its path started
(R52); a part that has not locked leaves a die that had locked in holdover. DEDUCED, log entry 50. -/
def Die.tqFrom (d : Die) (hub : Nat) : Nat :=
  if hub = 0 then 0 else if d.tq = 3 then 3 else if hub = 3 then 2 else hub

/-- INNER_TIME_WORD (R280): every 10 µs the hub sends each die a time word, its pack time corrected by the inner link's delay,
`delay` ns, as measured in both directions. -/
def execInnerTimeWord (t k delay : Nat) (s : State) : Outcome :=
  let s := s.at_ t
  .next (s.onDie k fun d =>
    if !s.hubTakes k || (decide (d.lastWord ≤ t) && decide (t < d.lastWord + 10000)) then s
    else (s.modDie k fun d => { d with lastWord := t, tq := d.tqFrom s.tq }).emit (.timeWord k (s.now + delay)))

/-- INNER_TIME_WORD_TIMEOUT (R52, R275, R280): no valid time word for 10 ms gives holdover, for 1.5 s holdover beyond 1 µs;
a die that has never locked since its path started stays free-running. -/
def execInnerTimeWordTimeout (t k : Nat) (s : State) : Outcome :=
  let s := s.at_ t
  .next (s.onDie k fun d =>
    if d.lastWord + 10000000 ≤ t ∧ d.tq ≠ 3 then
      s.modDie k fun d => { d with tq := if d.lastWord + 1500000000 < t then 2 else 1 }
    else s)

end Sys2Proof.Machine
end

