-- ==== Sys2Proof/Machine/LocusStore.lean ====
section
/-! DEFINITION. The storage die (R298 to R305): blocks, the programming of a unit, the wear governor's bucket,
refresh, spill, and what Locus does at a power failure and at a restart (R311, R313). The blocks stand in LocusOps. -/

namespace Sys2Proof.Machine

/-- The records that end in a unit are committed in a tier; those that go on in the next unit have a part in its blocks. -/
def LocusState.commitUnit (l : LocusState) (u : OpenUnit) (tier : Tier) (blocks : List Nat) : LocusState :=
  let f := fun (r : Rec) =>
    if u.ids.contains r.id then { r with tier := tier, blocks := r.blocks ++ blocks, copies := r.copies + 1, inUnit := false }
    else if u.parts.contains r.id then { r with blocks := r.blocks ++ blocks }
    else r
  { l with recs := l.recs.map f }

/-- BUCKET_EMPTY follows the level (R301). -/
def State.bucketFlag (s : State) : State :=
  let l := s.locus
  if l.bucket ≤ 0 ∧ !l.bucketEmpty then
    ({ s with locus := { l with bucketEmpty := true } }).placement 0x12 0 0 0 l.bucket 0 0
  else if 1073741824 ≤ l.bucket ∧ l.bucketEmpty then
    ({ s with locus := { l with bucketEmpty := false } }).placement 0x13 0 0 0 l.bucket 0 0
  else s

/-- T3_FAIL set (R304): units not yet programmed are given up; their records stay where they are. -/
def State.failStore (s : State) : State :=
  if !s.part.store || s.locus.t3Fail then s
  else
    let l := s.locus
    let s := { s with locus := { l with t3Fail := true, units := [], progQ := [], busy := none, holder := none, refusals := 0,
                                        recs := l.recs.map (fun (r : Rec) => { r with inUnit := false }) } }
    (s.placement 0x18 0 0 0 0 0 0).writer

/-- Records put into units of at most 64 KiB, in their order. -/
def packUnits (rs : List Rec) : List (List Rec) :=
  (rs.foldl
    (fun (acc : List (List Rec)) r =>
      match acc with
      | [] => [[r]]
      | u :: us => if u.foldl (fun n x => n + x.bytes.length) r.bytes.length ≤ unitSize then (u ++ [r]) :: us else [r] :: u :: us)
    []).reverse

/-- The units that records fill: the groups of R294 are kept apart. -/
def unitsOf (rs : List Rec) : List (List Rec) := [0, 1, 2].flatMap fun g => packUnits (rs.filter fun r => groupOf r.cls == g)

/-- Units of 64 KiB that some records take: one, or more where a single record is longer. -/
def unitCount (rs : List Rec) : Nat := max 1 ((rs.foldl (fun n x => n + x.bytes.length) 0 + 65535) / 65536)

/-- What a copy of a block's live records is charged (R300). -/
def LocusState.copyCost (l : LocusState) (i : Nat) : Int := ((unitsOf (l.inBlock i)).foldl (fun n u => n + 65536 * unitCount u) 0 : Nat)

/-- Units taken one after the other, in any block but some: where they went. -/
def State.takeUnits (s : State) (but : List Nat) : Nat → Option (List Nat × State)
  | 0 => some ([], s)
  | n + 1 =>
    (s.targetBlock but true).bind fun r =>
      let s := { r.2 with locus := (r.2.locus.setBlk { r.1 with used := r.1.used + 1 }).charge 1 }
      (s.takeUnits but n).map fun x => (r.1.idx :: x.1, x.2)

/-- A programmed unit as the storage die keeps it, with its header (R298). -/
def storeUnit (now block group : Nat) (rs : List Rec) : StoreUnit :=
  let h := rs.head?
  { block := block, group := group, recType := (h.map (·.recType)).getD 0, src := (h.map (·.src)).getD 0, time := (h.map (·.time)).getD 0,
    ids := rs.map (·.id), at_ := now, ok := true }

/-- The live records of a block copied elsewhere, unit by unit, with the two copies of a D0 record in different blocks, charged to
the bucket (R298 to R300); none with no block to take them. -/
def State.copyBlock (s : State) (i : Nat) : Option State :=
  (unitsOf (s.locus.inBlock i)).foldl
    (fun acc (rs : List Rec) => acc.bind fun s =>
      let other := (rs.filter (·.cls = 0)).flatMap fun r => r.blocks.filter (· != i)
      (s.takeUnits (i :: other) (unitCount rs)).map fun x =>
        let ids := rs.map (·.id)
        let move := fun (r : Rec) => if ids.contains r.id then { r with blocks := r.blocks.flatMap fun b => if b = i then x.1 else [b] } else r
        let l := x.2.locus
        { x.2 with locus := { l with
            recs := l.recs.map move,
            stored := l.stored ++ x.1.map fun b => storeUnit s.now b (groupOf ((rs.head?.map (·.cls)).getD 0)) rs } })
    (some s)

/-- Wear levelling (R300): the records of the least-erased block that holds any move when the spread of erase counts exceeds 500,
while the bucket allows it and no cold hold stands (R301, R302). -/
def State.levelWear (s : State) : State :=
  let l := s.locus
  let good := l.blocks.filter fun b => !b.retired
  let most := good.foldl (fun m b => max m b.erases) 0
  let used := good.filter fun b => b.used != 0 && l.busy != some b.idx
  match used.find? fun b => used.all fun c => decide (b.erases ≤ c.erases) with
  | none => s
  | some b =>
    if most ≤ b.erases + 500 || l.cold || decide (l.bucket ≤ l.copyCost b.idx) then s
    else
      match s.copyBlock b.idx with
      | none => s
      | some s => { s with locus := s.locus.erase b.idx }

/-- The live records of retired blocks move to spare blocks (R298), as far as the bucket stays above −1 GiB, which R301 leaves to
refresh, and but in a cold hold (R302). Until then they stay where they are. -/
def State.moveRetired (s : State) : State :=
  (s.locus.blocks.filter (·.retired)).foldl
    (fun s b =>
      if s.locus.cold || s.locus.t3Fail || decide (s.locus.bucket - s.locus.copyCost b.idx ≤ -1073741824) then s
      else (s.copyBlock b.idx).getD s) s

/-- A block retired (R298): its live records move to spare blocks. With no spare block left the store fails (R304). -/
def State.retireBlock (s : State) (i : Nat) : State :=
  let b := s.locus.blk i
  let s := { s with locus := s.locus.setBlk { b with retired := true } }
  let s := s.placement 0x16 0 0 0 i 0 0
  if blockCount - placeBlocks < (s.locus.blocks.filter (·.retired)).length then s.failStore else s.moveRetired

/-- The records of a unit at the holder of T5 (R305): each leaves as a frame, marked with the identity of this part, its class and
its stream and time. No rule lays it out. DESIGN CHOICE, log entry 13. -/
def State.spillUnit (s : State) (u : OpenUnit) (holder : Nat) : State :=
  let mine := s.locus.recs.filter fun r => u.ids.contains r.id
  let s := mine.foldl
    (fun s r => s.originate 2 0x20 holder
      (le 2 0xFFFF ++ le 8 s.part.ident ++ le 1 r.cls ++ le 2 r.recType ++ le 1 r.src ++ le 8 r.time ++ r.bytes)) s
  { s with locus := { s.locus.commitUnit u .t5 [holder] with refusals := 0 } }

/-- A unit of the own storage die programmed (R294, R298, R299): its records are committed in T3, and a first copy of a D0 record
leaves the second to be written. -/
def State.programUnit (s : State) (u : OpenUnit) (i : Nat) : State :=
  let rs := s.locus.recs.filter fun r => (u.ids ++ u.parts).contains r.id
  let l := (s.locus.commitUnit u .t3 [i]).charge 1
  let unit := { storeUnit s.now i u.group rs with ids := u.ids }
  (({ s with locus := { l with stored := l.stored ++ [unit] } }).levelWear).bucketFlag

/-- The unit at the head of the queue finishes (R294, R298, R305): a block that fails its program is retired, and the unit is
programmed elsewhere. -/
def State.programHead (s : State) (ok : Bool) : State :=
  match s.locus.progQ with
  | [] => s
  | u :: rest =>
    let gone := { s with locus := { s.locus with progQ := rest, busy := none } }
    match s.locus.busy with
    | some i =>
      if ok then (gone.programUnit u i).writer
      else (({ s with locus := { s.locus with busy := none } }).retireBlock i).writer
    | none =>
      if s.t3Usable then s
      else
        match s.locus.holder with
        | none => s
        | some h =>
          if ok then (gone.spillUnit u h).writer
          else { s with locus := { s.locus with refusals := s.locus.refusals + 1 } }

/-- Open units of some groups given up: their records are in no unit. -/
def State.abandon (s : State) (groups : List Nat) : State :=
  let ids := (s.locus.units.filter fun u => groups.contains u.group).flatMap (·.ids)
  let free := fun (r : Rec) => if ids.contains r.id then { r with inUnit := false } else r
  { s with locus := { s.locus with
      units := s.locus.units.filter (fun u => !groups.contains u.group), recs := s.locus.recs.map free } }

/-- The blocks of the open D3 unit given up are counted as dropped (R297, R311). -/
def State.abandonD3 (s : State) : State :=
  let n := ((s.locus.units.filter fun u => u.group == 2).flatMap (·.ids)).length
  (List.range n).foldl (fun s _ => s.countDrop 3) (s.abandon [2])

/-- Every queued unit programmed, as far as the store can: at a warning and at the entry to SLEEP or SHIP the bucket holds none back
short of −1 GiB (R301, R311, R312, R417). DEDUCED, log entry 58. -/
def State.programAll (s : State) : Nat → State
  | 0 => s
  | n + 1 =>
    if s.locus.progQ.isEmpty then s
    else ((s.startUnit (s.t3Usable && !s.locus.cold && decide (-1073741824 < s.locus.bucket - 65536))).programHead true).programAll n

/-- An entry is written to LOCUS_DIR (R289, R311, R417). -/
def State.writeDir (s : State) : State := { s with locus := { s.locus with dirAt := s.now } }

/-- Locus at a power-fail warning (R295, R311): the open D3 unit is abandoned, the unit being programmed ends, the D0-D1 unit
closes, and with a hold time of 3 ms or more every unit of D2 is programmed, the open one padded, so that none in T1 is lost
(R312). -/
def State.locusWarning (s : State) (holdMs : Nat) : State :=
  let s := s.abandonD3
  let s := if s.locus.busy.isSome then s.programHead true else s
  let s := { s with locus := s.locus.closeUnit 0 }
  let s :=
    if 3 ≤ holdMs && s.writable then
      let l := s.locus.closeUnit 1
      let rest := l.progQ.filter fun u => u.group != 1
      let d2 := l.progQ.filter fun u => u.group == 1
      let s := ({ s with locus := { l with progQ := d2 } }).programAll d2.length
      { s with locus := { s.locus with progQ := s.locus.progQ ++ rest } }
    else s
  s.writeDir

/-- Locus before SLEEP or SHIP (R417): every open unit is closed and programmed unless COLD; what then remains in T1
is lost. -/
def State.locusSleep (s : State) : State :=
  let s := if s.locus.cold then s
    else
      let l := [0, 1, 2].foldl (fun (l : LocusState) g => l.closeUnit g) s.locus
      let s := { s with locus := l }
      s.programAll (s.locus.progQ.length + 2 * s.locus.recs.length + 3)
  let kept := (s.locus.recs.filter fun r => r.tier != .buffer && r.tier != .capture).map fun (r : Rec) => { r with inUnit := false }
  ({ s with locus := { s.locus with units := [], progQ := [], busy := none, recs := kept } }).writeDir

/-- A unit whose program was cut short fails its CRC-32C: what it holds is discarded (R312, R313). -/
def LocusState.discard (l : LocusState) (u : StoreUnit) : LocusState :=
  let f := fun (r : Rec) => if r.tier == .t3 && u.ids.contains r.id then { r with blocks := r.blocks.erase u.block, copies := r.copies - 1 } else r
  { l with recs := (l.recs.map f).filter (fun r => !(r.tier == .t3 && r.copies == 0)), stored := l.stored.erase u }

/-- Locus after a restart (R313): LOCUS_DIR is read and the units written after its last entry are checked; T1 is empty, open
units are gone, and the stage's records keep their order. -/
def State.locusRestart (s : State) : State :=
  let l := (s.locus.stored.filter fun u => !u.ok && decide (s.locus.dirAt ≤ u.at_)).foldl LocusState.discard s.locus
  let kept := (l.recs.filter fun r => r.tier != .buffer && r.tier != .capture).map fun (r : Rec) =>
    { r with inUnit := false, claims := [] }
  ({ s with locus := { l with
      units := [], progQ := [], busy := none, reads := [], holder := none, cutAt := none, refusals := 0, dropRun := [none, none, none], drops := [0, 0, 0],
      evictions := 0, refreshed := 0, clusterDerated := false, recs := kept } }).writeDir

/-- Locus fields in force (R316): a commit takes effect at the next whole second. -/
def State.adoptLocus (s : State) : State := if s.blockDiffers 0x13 0 then s.takeBlock 0x13 0 else s

end Sys2Proof.Machine
end

