-- ==== Sys2Proof/Machine/TrustOps.lean ====
section
/-! DEFINITION. Shared operations of Apex (R424 to R457): the meter's commits, statements and trust responses,
black-box records, images, the lifecycle's two journalled transitions, and debug sessions. -/

namespace Sys2Proof.Machine

/-- A change of the trust state. -/
def State.modTrust (s : State) (f : TrustState → TrustState) : State := { s with trust := f s.trust }

/-- A signature with a fresh per-signature number (R427). -/
def State.sign (s : State) (key : Nat) (msg : List Byte) : List Byte × State :=
  let r := s.drawBits 256
  (ecdsaSign key (r.1 % (p256N - 1) + 1) msg, r.2)

/-! ### The meter (R440, R443, R444) -/

/-- A counter as it is reported: whole units, rounded down (R440). -/
def meterUnit (q : Rat) : Nat := q.floor.toNat

/-- Five counters, GAP_COUNT and COMMIT_LOST: the body of BB_KIND 0x03, 0x04 and 0x12 (R454). -/
def State.meterBody (s : State) : List Byte :=
  (s.trust.meter.flatMap fun q => le 8 (meterUnit q)) ++ le 4 s.trust.gap ++ le 4 s.trust.lost

/-- The counters committed to the older of two slots (R443). -/
def State.commitMeter (s : State) (warn : Bool) : State :=
  s.modTrust fun x =>
    let seq := (x.meterSlots.foldl (fun m y => max m y.seq) 0) + 1
    let slot : MeterSlot :=
      { counters := x.meter, gap := x.gap, lost := x.lost, vSubst := x.vSubst, tLast := x.tLast, seq := seq, warn := warn,
        at_ := s.now, ok := true }
    { x with meterSlots := (slot :: x.meterSlots).take 2, meterDirty := false }

/-- SRC_IDENT (R444): identity of the part that holds the charge source, as far as this part knows it. DESIGN CHOICE, log entry 6. -/
def State.srcIdent (s : State) (p : Nat) : Nat × State :=
  let near := if p + 1 = s.pos then s.link.up.neighbour else if p = s.pos + 1 then s.link.dn.neighbour else none
  if s.identOf p ≠ 0 then (s.identOf p, s)
  else
    match near with
    | some n => (n, s)
    | none => s.drawBits 64

/-- Offsets 0 to 143 of a statement (R444), and the state that has named its source. -/
def State.statementHead (s : State) (c : Cmd) : List Byte × State :=
  let x := s.trust
  let src := s.socSrc 1
  let none_ := src.1 = 0xFF ∨ src.2.1 = 0 ∨ src.2.2 = 0
  let id := if none_ then (0, s) else s.srcIdent src.1
  let flags := fld 7 1 (b2n x.debugMark) + fld 6 1 (b2n (decide (x.stmtLost < x.lost))) + fld 5 1 (b2n (decide (x.stmtGap < x.gap)))
  (le 2 0x0C01 ++ le 1 s.pos ++ le 1 flags ++ le 4 (x.stmtSeq + 1) ++ le 8 s.part.ident ++ slice c.param 0 16 ++ le 8 x.tLast ++
    le 2 s.link.epoch ++ le 1 x.ownerGen ++ zeros 1 ++ (x.meter.flatMap fun q => le 8 (meterUnit q)) ++ le 4 x.gap ++ le 4 x.lost ++
    le 4 x.vSubst ++ le 8 id.1 ++ (if none_ then zeros 2 else le 1 src.2.1 ++ le 1 src.2.2) ++ zeros 2 ++ le 4 s.qRef ++ x.prevHash,
   id.2)

/-- One statement formed from the commit just made, signed with IK and written (R444). -/
def State.formStatement (s : State) (c : Cmd) : State :=
  match s.trust.ik with
  | none => s.complete c .notPermitted 0
  | some ik =>
    let h := s.statementHead c
    let g := h.2.sign ik h.1
    let b := h.1 ++ g.1
    let s := g.2.modTrust fun x =>
      { x with stmtSeq := x.stmtSeq + 1, stmtLost := x.lost, stmtGap := x.gap, prevHash := sha256 b }
    (s.event { source := 58, subkind := 1 }).completeData c .success 0 b

/-- Statements that waited for this commit (R444). -/
def State.formStatements (s : State) : State :=
  let w := s.trust.stmtWait
  w.foldl (fun s c => s.formStatement c) (s.modTrust fun x => { x with stmtWait := [] })

/-! ### Images (R445 to R450) -/

/-- The Span image in a slot; SPAN_A holds the factory's image until another is staged into it. -/
def State.spanImage (s : State) (slotB : Bool) : List Byte :=
  let b := s.trust.spanImgs.getD (b2n slotB) []
  if b.isEmpty && !slotB then Config.factorySpan else b

/-- The Apex patch in a slot; empty when there is none. -/
def State.apexImage (s : State) (slotB : Bool) : List Byte := s.trust.apexImgs.getD (b2n slotB) []

/-- VERSION of an image. -/
def imageVersion (b : List Byte) : Nat := rd b 8 4
/-- SVN of an image. -/
def imageSvn (b : List Byte) : Nat := rd b 5 1

/-- APEX_VER: the patch version in force, 0 when there is none. -/
def State.apexVer (s : State) : Nat := imageVersion (s.apexImage s.trust.apexSlotB)
/-- SPAN_VER (R362): the slot and the Span version in force. -/
def State.spanVer (s : State) : Nat := fld 31 1 (b2n s.trust.slotB) + imageVersion (s.spanImage s.trust.slotB) % 2 ^ 31

/-- How far from offset 0 the chunks of a staging reach without a gap. -/
def coverFrom (chunks : List (Nat × List Byte)) : Nat → Nat → Nat
  | 0, p => p
  | n + 1, p =>
    let q := chunks.foldl (fun m c => if c.1 ≤ p then max m (c.1 + c.2.length) else m) p
    coverFrom chunks n q

/-- Every byte from 0 to TOTAL_LEN − 1 has been staged (R350). -/
def Staging.whole (x : Staging) : Bool := decide (0 < x.total) && decide (x.total ≤ coverFrom x.chunks x.chunks.length 0)

/-- A chunk laid over an image. -/
def putChunk (img : List Byte) (off : Nat) (b : List Byte) : List Byte :=
  (img.take off ++ zeros (off - img.length)) ++ b ++ img.drop (off + b.length)

/-- The bytes staged so far. -/
def Staging.image (x : Staging) : List Byte := x.chunks.foldl (fun m c => putChunk m c.1 c.2) []

/-- Verification of R447 of an image of some kind, 1 Apex or 2 Span, whose staged length is `total`. -/
def State.imageOk (s : State) (kind : Nat) (b : List Byte) (total : Nat) : Bool :=
  let h := slice b 0 64
  let cosign := s.trust.life == 1 && bit (rd s.trust.sealed_ 1 1) 3
  rd b 0 4 == 0x31474D49 && rd b 4 1 == kind && decide (257 ≤ rd b 12 4) && rd b 12 4 == total &&
    sha256 (slice b 256 (rd b 12 4 - 256)) == slice b 32 32 && ecdsaOk Config.firmwareKey h (slice b 64 64) &&
    (!cosign || ecdsaOk s.trust.ownerRoot h (slice b 128 64)) &&
    decide ((if kind = 1 then s.trust.svnApex else s.trust.svnSpan) ≤ imageSvn b)

/-- The record of BB_KIND 0x06 (R454) and event 56 for an image that has been activated or rolled back. -/
def State.noteImage (s : State) (kind sub : Nat) (b : List Byte) : State :=
  let s := s.event { source := 56, subkind := sub, item := kind }
  s.blackBox 0x06 true (le 1 kind ++ le 1 (imageSvn b) ++ le 4 (imageVersion b) ++ slice b 32 32)

/-- RUN time that self-test counts for the hub: the clock of R448 and R450. -/
def State.runClock (s : State) : Nat := ((s.selfTest[0]?).map (·.runTime)).getD 0

/-- Every command in execution at the part completes with ABORTED (R362, R448). A pending commit is dropped with it. -/
def State.abortExecuting (s : State) : State :=
  let caps := s.dies.filterMap fun d => d.fast.cap.bind (·.cmd)
  let swps := s.swp.flatMap fun x => x.cmds ++ x.runs
  let pend := (s.cfg.pend.map (·.cmd)).toList
  let wait := s.cfg.waiting.map (·.1)
  let all := caps ++ swps ++ pend ++ wait ++ s.cfg.policies.map (·.1) ++ s.trust.stmtWait ++ s.link.enumCmd.toList ++ s.locus.reads.map (·.cmd) ++
    s.hif.subs.filterMap (·.closing)
  let s := { s with
    dies := s.dies.map fun (d : Die) => { d with fast := { d.fast with cap := d.fast.cap.map fun (c : Capture) => { c with cmd := none } } },
    swp := s.swp.map (fun (x : SwpPort) => { x with cmds := [], runs := [] }),
    cfg := { s.cfg with pend := none, waiting := [], policies := [] },
    locus := { s.locus with reads := [] }, hif := { s.hif with subs := s.hif.subs.map fun (x : Sub) => { x with closing := none } },
    trust := { s.trust with stmtWait := [] },
    link := { s.link with enumCmd := none } }
  all.foldl (fun s c => s.complete c .aborted 0) s

/-- A task of die k that ran on the hub when the hub stopped is lost with it: it starts again on the die, the estimator from
its slots (R188), with no move under way. DEDUCED, log entry 57. -/
def State.tasksHome (s : State) (k : Nat) : State :=
  s.onDie k fun d =>
    let imp := if d.imp.onHub then { d.imp.begin with onHub := false } else d.imp
    let s := s.modDie k fun d => { d with imp := imp, movePend := [], est := { d.est with onHub := false } }
    if d.est.onHub then s.loadState k else s

/-- A Span activation begins (R448): every task on the cluster returns to its die at its next boundary. -/
def State.beginSpan (s : State) (a : Activation) : State :=
  let s := s.modDies fun _ d =>
    let on := fun (task : Nat) => if task = 1 then d.imp.onHub else d.est.onHub
    let back := [1, 2].filter fun task => on task && !d.movePend.any fun x => x.1 == task
    { d with movePend := d.movePend ++ back.map fun x => (x, 0, 0) }
  s.modTrust fun x => { x with act := some { a with begun := true, beganAt := s.now } }

/-- Once every task is home, or 2 s later, commands in execution are aborted and PD2 is reset into the verified slot (R448); a
task still on the cluster is lost with it. -/
def State.resetSpan (s : State) : State :=
  match s.trust.act with
  | none => s
  | some a =>
    let away := s.dies.any fun d => d.imp.onHub || d.est.onHub
    if !a.begun || a.runAt.isSome || (away && decide (s.now < a.beganAt + 2000000000)) then s
    else (s.islands.foldl (fun s k => s.tasksHome k) s).abortExecuting.modTrust fun x => { x with act := some { a with runAt := some s.now } }

/-- The secure controller restarts on the patch in the slot not in force (R449); where it does not start, ROM goes back. DEDUCED, log entry 29. -/
def State.beginApex (s : State) (a : Activation) : State :=
  let s := s.accrueTest
  if a.starts then
    let s := s.modTrust fun x => { x with apexSlotB := !x.apexSlotB, act := none, apexSince := s.runClock }
    (s.noteImage 1 3 (s.apexImage s.trust.apexSlotB)).complete a.cmd .success 0
  else
    let s := s.modTrust fun x => { x with act := none }
    (s.noteImage 1 4 (s.apexImage s.trust.apexSlotB)).complete a.cmd .imageRejected 2

/-- An activation that waits for its T_ACT begins once that instant is reached, and one that has begun goes on (R448). -/
def State.actDue (s : State) : State :=
  match s.trust.act with
  | none => s
  | some a =>
    if a.begun then s.resetSpan
    else if s.now < a.tAct then s
    else if rd a.cmd.param 0 1 = 1 then s.beginApex a
    else (s.beginSpan a).resetSpan

/-! ### The black box (R451 to R454) -/

/-- A record of R452 with its signature and its CHECK. -/
def State.bbBytes (s : State) (w : BbWait) (unsign : Bool) : List Byte × State :=
  let body := w.body.take 160
  let flags := fld 7 1 (b2n w.keep) + fld 6 1 (b2n w.debug) + fld 5 1 (b2n unsign) + fld 4 1 (b2n (decide (w.kind = 0x20)))
  let m := le 2 0x0D01 ++ le 1 w.kind ++ le 1 flags ++ le 4 s.trust.bbSeq ++ le 8 w.time ++ le 2 s.link.epoch ++ le 1 s.trust.ownerGen ++
    le 1 s.pos ++ le 2 body.length ++ zeros 2 ++ body ++ zeros (160 - body.length)
  let g := if unsign then (zeros 64, s) else s.sign s.trust.fk m
  (withCrc32c (m ++ g.1) ++ zeros 4, g.2)

/-- A record put into its area: the KEEP area of 1,024 slots, or the ROLL area of 3,072, a ring (R451). -/
def TrustState.putBb (x : TrustState) (r : BbRec) : TrustState :=
  let full := decide (1024 ≤ (x.bb.filter (·.keep)).length)
  let y := { r with keep := r.keep && !full }
  let l := x.bb ++ [y]
  let l := if 3072 < (l.filter fun z => !z.keep).length then l.eraseP fun z => !z.keep else l
  { x with bb := l, bbSeq := (x.bbSeq + 1) % 2 ^ 32, keepFull := x.keepFull || decide (1024 ≤ (l.filter (·.keep)).length) }

/-- The waiting record that comes next written to both copies (R453): unsigned when more than 64 have waited, after a warning
and in RETURNED. A module part hands each KEEP record to the gateway (R456). -/
def State.writeBb (s : State) (okA okB : Bool) : State :=
  match s.trust.bbWait with
  | [] => s
  | w :: rest =>
    let unsign := w.unsign || s.warned || s.trust.life == 3
    let b := s.bbBytes w unsign
    let s := b.2.modTrust fun x =>
      let x := x.putBb { seq := x.bbSeq, keep := w.keep, bytes := b.1, okA := okA, okB := okB }
      { x with bbWait := rest, signedAt := if unsign then x.signedAt else s.now, unsigned := if unsign then satInc 14 x.unsigned else x.unsigned, oneCopy := x.oneCopy || !(okA && okB) }
    let s := if okA && okB then s else s.event { source := 59, subkind := 2 }
    if w.keep && s.isModule then s.originate 2 0x20 0 (b.1 ++ le 8 s.part.ident) else s

/-- The record that comes next needs a signature that Apex cannot make yet: it signs at most 500 records per second (R453). -/
def State.signBusy (s : State) : Bool :=
  match s.trust.bbWait with
  | [] => false
  | w :: _ => !(w.unsign || s.warned || s.trust.life == 3) && decide (s.trust.signedAt != 0 && s.now < s.trust.signedAt + 2000000)

/-- Every record that waits written, at most `n` of them. -/
def State.writeAllBb (s : State) : Nat → State
  | 0 => s
  | n + 1 => if s.trust.bbWait.isEmpty then s else (s.writeBb true true).writeAllBb n

/-! ### Frames that must leave before their hop stops (R417, R433, R438) -/

/-- The codewords of the frames of some classes that wait at a port, sent one after the other. -/
def State.drainPort (s : State) (side : Side) (tcs : List Nat) : Nat → State
  | 0 => s
  | n + 1 =>
    if (s.port side).st ≠ .up then s
    else
      match (s.port side).sendFrom s.now tcs with
      | none => s
      | some d =>
        let r := d.2.lineBytes d.1
        ((s.modPort side fun _ => r.2).emit (.codeword side r.1)).drainPort side tcs n

/-- Codewords that the frames waiting at a port take at most, for some classes. -/
def Port.backlog (p : Port) (tcs : List Nat) : Nat :=
  tcs.foldl (fun n tc =>
    let c := p.tx.getD tc TxClass.fresh
    let frames := c.queue ++ (c.again.map (·.frame)) ++ (c.cur.map (·.1.frame)).toList
    frames.foldl (fun n f => n + f.payload.length / 51 + 3) n) 1

/-- Both ports send what waits in TC0 and TC1. -/
def State.drainUrgent (s : State) : State :=
  let s := s.drainPort .up [0, 1] (s.link.up.backlog [0, 1])
  s.drainPort .down [0, 1] (s.link.dn.backlog [0, 1])

/-! ### Lifecycle transitions (R433, R434) -/

/-- The role that R22 gives for the strap reading outside SEALED; an unresolved strap keeps ROLE_CONFLICT. -/
def strapRole (strap : Nat) : Nat := if strap = 2 then 2 else strap

/-- Both hops taken DOWN with their keys cleared. -/
def State.dropHops (s : State) : State :=
  let clear := fun (p : Port) => { p with keys := none, old := none, keying := none, useAtOnce := true }
  (((s.hopDown .up).hopDown .down).modPort .up clear).modPort .down clear

/-- IK, K_REL, the owner root and the sealed configuration destroyed. -/
def TrustState.eraseOwner (x : TrustState) : TrustState :=
  { x with ik := none, ikCert := false, ikCertBytes := zeros 160, ownerRoot := zeros 64, sealed_ := zeros 64 }

/-- One step of RELOCATE (R433). The journal counts the steps that are complete. -/
def State.relocateStep (s : State) (n : Nat) : State :=
  let s :=
    match n with
    | 0 => s.blackBox 0x03 true s.meterBody
    | 1 => s.sendSafety 0x04 {}
    | 2 => s.modTrust TrustState.eraseOwner
    | 3 =>
      { s with link := { s.link with chainId := none, up := { s.link.up with neighbour := none }, dn := { s.link.dn with neighbour := none } },
               cfg := { s.cfg with a := [], b := [] } }
    | _ =>
      let s := s.drainUrgent.modTrust fun x => { x with ownerGen := (x.ownerGen + 1) % 256, life := 2 }
      s.dropHops
  s.modTrust fun x => { x with journal := if n < 4 then n + 1 else 0 }

/-- RELOCATE from the first step that is not complete. DEDUCED, log entry 32. -/
def State.relocateFrom (s : State) (n : Nat) : State :=
  ([0, 1, 2, 3, 4].filter fun i => decide (n ≤ i)).foldl (fun s i => s.relocateStep i) s

/-- The erasure of RETURN (R434): after the fuse is blown it is completed before anything else. -/
def State.eraseReturned (s : State) : State :=
  s.modTrust fun x => { x.eraseOwner with fk := 0, life := 3, journal := 0 }

/-- RETURN (R434): the return record is the last that FK signs. -/
def State.runReturn (s : State) : State :=
  let s := s.blackBox 0x04 true s.meterBody
  let s := s.writeAllBb s.trust.bbWait.length
  (s.modTrust fun x => { x with fuseReturned := true }).eraseReturned

/-! ### Debug sessions (R436 to R439) -/

/-- The KEEP record of BB_KIND 0x08 (R454). -/
def State.debugRecord (s : State) (level : Nat) (awake : Bool) (signer : List Byte) : State :=
  s.blackBox 0x08 true (le 1 level ++ le 1 (b2n awake) ++ signer)

/-- The key that signs a FULL session (R437). -/
def State.debugSigner (s : State) : List Byte := if s.trust.life = 1 then s.trust.ownerRoot else Config.debugKey

end Sys2Proof.Machine
end

