-- ==== Sys2Proof/Machine/PowerOps.lean ====
section
/-! DEFINITION. Shared operations of the power block (R394 to R423): rails and their sequences, what the hub loses
when it stops and does when it starts, the power-fail warning, and the entry to SLEEP and SHIP. -/

namespace Sys2Proof.Machine

/-- A change of the power block. -/
def State.modPower (s : State) (f : PowerState → PowerState) : State := { s with power := f s.power }
/-- Rail i. -/
def State.rail (s : State) (i : Nat) : Rail := s.power.rails.getD i Rail.initial
/-- A change of rail i. -/
def State.modRail (s : State) (i : Nat) (f : Rail → Rail) : State := s.modPower fun p => { p with rails := modNth f i p.rails }
/-- A field of the power block in force (R421). -/
def State.pwF (s : State) (off hi lo : Nat) : Nat := s.fF 0x15 0 off hi lo
/-- HOLD_EN. -/
def State.holdEn (s : State) : Bool := s.fB 0x15 0 0 10
/-- HOLD_V, mV. -/
def State.holdMv (s : State) : Nat := s.pwF 4 15 8 * 100
/-- An input is valid. -/
def State.inputOk (s : State) : Bool := s.power.vauxOk || s.power.vinOk
/-- HOLD_EFF (R401), ms. -/
def State.holdMs (s : State) : Nat := if s.power.holdOk then s.pwF 0 23 16 else 1
/-- HOLD_EFF follows HOLD_OK and HOLD_MS. -/
def State.setHoldEff (s : State) : State := s.modPower fun p => { p with holdEff := s.holdMs }

/-- The active input follows the inputs and SRC_PRIO (R395). -/
def State.chooseSrc (s : State) : State :=
  let hv := s.pwF 0 9 8 == 1
  let p := s.power
  let src := if hv then (if p.vinOk then 1 else if p.vauxOk then 0 else p.src) else (if p.vauxOk then 0 else if p.vinOk then 1 else p.src)
  s.modPower fun p => { p with src := src }

/-! ### Counters (R399) -/

/-- A fault of a rail counted, and source 49: 1 under-voltage, 2 over-voltage, 3 over-current, 4 timeout, 5 timeout of a
power-down. -/
def State.countRail (s : State) (i kind : Nat) : State :=
  let s := s.modRail i fun r =>
    match kind with
    | 1 => { r with uv := satInc 16 r.uv }
    | 2 => { r with ov := satInc 16 r.ov }
    | 3 => { r with oc := satInc 16 r.oc }
    | _ => { r with tmo := satInc 16 r.tmo }
  s.event { source := 49, subkind := kind, item := i }

/-- The counters copied into the black box (R399, R454). -/
def State.copyCounters (s : State) : State :=
  let c := s.power.rails.map fun r => (r.uv, r.ov, r.oc, r.tmo)
  let body := s.power.rails.flatMap fun r => le 2 r.uv ++ le 2 r.ov ++ le 2 r.oc ++ le 2 r.tmo
  (s.modPower fun p => { p with copies := c }).blackBox 0x11 false body

/-! ### Sequences (R406 to R409) -/

/-- Rail i is skipped at power-up (R24, R398). -/
def State.railSkipped (s : State) (i : Nat) : Bool :=
  match i with
  | 8 => !s.hosted
  | 9 => !s.part.store
  | 10 => !s.fB 0x15 0 8 0
  | 11 => !s.fB 0x15 0 8 1
  | 12 => !s.fB 0x15 0 8 2
  | _ => false

/-- The first rail of the sequence that is not up. -/
def State.nextRail (s : State) : Option Nat := 
  (List.range 13).find? fun i => !s.railSkipped i && (s.rail i).st != 2 && (s.rail i).st != 4

/-- The next rail is enabled, if there is one. -/
def State.enableNext (s : State) : State :=
  match s.nextRail with
  | none => s
  | some i => (s.modRail i fun r => { r with st := 1 }).modPower fun p => { p with seqRail := i }

/-- Power-up starts from the first rail that is not up (R406). What a fault had switched off is tried anew; VRF, VPHY or VNAND that a
second fault has left off stays off at a power-up after a reset, and is tried at one from OFF, SLEEP or SHIP (R400). -/
def State.startUp (s : State) : State :=
  let byReset := s.power.startBy == 1 || s.power.startBy == 2
  let fresh := fun (x : Rail × Nat) =>
    let stays := byReset && x.1.st == 4 && x.1.retried && [6, 8, 9].contains x.2
    { x.1 with st := if stays then 4 else if x.1.st = 4 then 0 else x.1.st, retried := byReset && x.1.retried }
  (s.modPower fun p => { p with rails := p.rails.zipIdx.map fresh, seqDir := 1, seqTo := 0, retryAt := none, wakePend := false }).enableNext

/-- The next rail of a down sequence, in descending index order; VAON only on the way to OFF (R407). A rail that a fault has switched
off is off already (R400). -/
def State.nextDown (s : State) (target : Nat) : Option Nat :=
  ((List.range 13).map fun i => 12 - i).find? fun i => (i != 0 || target == 4) && ((s.rail i).st == 1 || (s.rail i).st == 2)

/-- Wait before the restart that follows a timed shutdown, ns (R412). -/
def restartWait (idx : Nat) : Nat :=
  match idx with
  | 0 => 10000000
  | 1 => 100000000
  | 2 => 1000000000
  | _ => 10000000000

/-- Power is lost at this instant: a selector slot that was just being written fails its check, and the whole old set stays in force
(R356). -/
def CfgState.tear (c : CfgState) (now : Nat) : CfgState :=
  match c.selector.getLast? with
  | some x =>
    if c.copying && x.2.1 == now then
      { c with a := c.before, epoch := (c.epoch + 65535) % 65536, copying := false, before := [],
               selector := c.selector.dropLast ++ [(x.1, x.2.1, false)] }
    else c
  | none => c

/-- Power of the hub is lost at this instant: every slot of MRAM, every unit of the storage die and every staged record that was just
being written fails its check (R134, R187, R272, R312, R313, R376, R443). DEDUCED, log entry 53. -/
def State.tearWrites (s : State) : State :=
  let s := s.modDies fun _ d => Die.tearWrites s.now d
  let s := s.modTrust fun x =>
    { x with meterSlots := x.meterSlots.map fun (y : MeterSlot) => if y.at_ = s.now then { y with ok := false } else y }
  let torn := fun (u : StoreUnit) => if u.at_ = s.now then { u with ok := false } else u
  let staged := fun (r : Rec) => !(r.tier == .stage && r.arrived == s.now)
  { s with link := { s.link with packSlots := s.link.packSlots.map fun x => if x.1 = s.now then (x.1, x.2.1, false) else x },
           locus := { s.locus with stored := s.locus.stored.map torn, recs := s.locus.recs.filter staged },
           hif := { s.hif with eqWait := s.hif.eqWait.filter fun w => w.since != s.now },
           safe := { s.safe with loSlots := s.safe.loSlots.filter fun x => x.2.2 != s.now } }

/-- The down sequence has ended (R407 to R409, R412). -/
def State.downDone (s : State) : State :=
  let target := s.power.seqTo
  let s := s.modPower fun p => { p with seqDir := 0, seqTo := 0, downAt := s.now }
  if target = 4 then
    let s := s.tearWrites.accrueTest
    s.modPower fun p =>
      { p with st := 4, holdEff := 1, warnAt := none, warnItem := none, restartAt := some (s.now + restartWait p.restartIdx), attempts := 0, retryAt := none,
               holdOk := false, holdReported := false, vHold := 0 }
  else if target = 1 then
    s.modPower fun p => { p with retryAt := if p.rstHeld then none else some (s.now + if p.attempts = 0 then 10000000 else 100000000) }
  else s.modPower fun p => { p with retryAt := if p.wakePend then some (s.now + 10000000) else none }

/-- The next rail switches off with active discharge, or the sequence is at its end (R407). -/
def State.downStep (s : State) : State :=
  match s.nextDown s.power.seqTo with
  | none => s.downDone
  | some i => (s.modRail i fun r => { r with st := 3 }).modPower fun p => { p with seqRail := i }

/-- A down sequence starts, or an off request meets one that crosses it (R409): a rail that ramps is waited for, and
the deeper target wins. -/
def State.startDown (s : State) (target : Nat) : State :=
  let s := s.modPower fun p => { p with seqTo := max p.seqTo target }
  if s.power.seqDir ≠ 0 then s
  else ((s.modRail 13 fun r => { r with st := 0 }).modPower fun p => { p with seqDir := 2 }).downStep

/-- A power-up turns round at the rail step that has ended (R408, R409). -/
def State.turnDown (s : State) (target : Nat) : State :=
  ((s.modRail 13 fun r => { r with st := 0 }).modPower fun p => { p with seqDir := 2, seqTo := max p.seqTo target }).downStep

/-! ### What the hub loses when it stops (R313, R355, R356, R403) -/

/-- A port that has lost its supply: what MRAM holds of it stays (R266, R279). -/
def Port.lose (p : Port) (sleep : Bool) : Port :=
  { Port.initial with channel := p.channel, neighbour := p.neighbour, listens := sleep && p.st == .up, orientRaised := p.orientRaised }

/-- Position, PARTS and RING_CLOSED as MRAM holds them (R266). -/
def LinkState.place (l : LinkState) : Option (Nat × Nat × Bool) :=
  match l.position with
  | some p => if l.parts = 0 then l.stored else some (p, l.parts, l.ringClosed)
  | none => l.stored

/-- The link without its volatile state: a module part has no position until a hop is keyed again, and no part knows its chain
until then (R266). -/
def LinkState.lose (l : LinkState) (sleep : Bool) : LinkState :=
  { l with up := l.up.lose sleep, dn := l.dn.lose sleep, stored := l.place, position := if l.position = some 0 then some 0 else none,
           parts := 0, ringClosed := false, heard := none, enumState := 0, frontier := none,
           enumCmd := none, downHops := [], forwarded := [], asm := [], inbox := [], tq := 3, everLocked := false, lastBeacon := 0,
           lockRun := 0, lockBase := 0, stepDue := none, ofs := 0, slew := 0 }

/-- The safety layer without its volatile state: the lock-out stays in the AON domain and in MRAM (R376, R387). -/
def SafeState.lose (f : SafeState) : SafeState :=
  { SafeState.initial with lockout := f.lockout, persisted := f.persisted, loCause := f.loCause, loTime := f.loTime, loSlots := f.loSlots,
                           sfSeq := f.sfSeq }

/-- A single-wire port without supply (R245): its table stays, and UNSTABLE and SHORT until a consistent search (R235, R244). -/
def SwpPort.lose (x : SwpPort) : SwpPort :=
  { x with st := 0, searching := 0, cmds := [], runs := [], inCycle := false, pendSearch := false,
           slots := x.slots.map fun (y : Slot) => { y with seen := false } }

/-- The configuration sets at a loss of the hub (R355, R360): a SHADOW_WRITE in progress leaves SHADOW_TORN. -/
def CfgState.lose (c : CfgState) : CfgState :=
  { c with pend := none, group := none, copying := false, waiting := [], policies := [], before := [], torn := c.torn || !c.waiting.isEmpty }

/-- Self-test of the hub at a loss of it. -/
def SelfTest.lose (x : SelfTest) : SelfTest :=
  { x with slice := none, retry := none, nextBlock := 0, overdue := [], failed := x.failed.filter fun b => decide (0x2000 ≤ b), done := 0, incomplete := 0, lastBlock := 0,
           lastResult := 0, judged := [], checkReject := 0 }

/-- The heartbeat pad falls to high impedance when the hub stops (R480). -/
def State.padOff (s : State) : State :=
  if s.safe.heartbeat then ({ s with safe := { s.safe with heartbeat := false } }).emit (.pad 6 0) else s

/-- TPA and TPB of a gateway that serves go low when it stops, or high when it starts (R25, R367). -/
def State.testPads (s : State) (level : Nat) : State :=
  if s.isGateway && s.part.serving then (s.emit (.pad 4 level)).emit (.pad 5 level) else s

/-- The hub stops serving (R25, R403, R480): outputs off, TPA and TPB low, FAULT high-impedance, keys and volatile state
gone. -/
def State.hubStop (s : State) (sleep : Bool) : State :=
  let s := ((s.outsOff.padOff).testPads 0).accrueTest
  let away := s.hif.asleep
  let waits := s.hif.eqWait
  let fetches := s.hif.fetchNo
  let s := { s with
    part := { s.part with serving := false },
    link := s.link.lose sleep, hif := { HifState.initial with asleep := away, eqWait := waits, fetchNo := fetches }, swp := s.swp.map SwpPort.lose, safe := s.safe.lose,
    cfg := s.cfg.lose, sync := SyncState.initial, selfTest := modNth SelfTest.lose 0 s.selfTest,
    chk := s.chk.zipIdx.map fun (x : ChkUnit × Nat) => if x.2 < 4 then ChkUnit.fresh x.1.ok else x.1,
    trust := { s.trust with session := 0, keepAwake := false, sleepHeld := false, hopsHeld := false, debugMark := false, nonce := none, act := none,
                            stmtWait := [] } }
  let s := s.modDies fun _ d => { d with fast := { d.fast with streams := [], streamAcc := [], streamBlk := [] } }
  s.islands.foldl (fun s k => s.settleChannels k) (s.takeBlock 0x11 0)

/-- The dies see the inner links go silent: FAST stops at once (R405, R419). -/
def State.diesCutOff (s : State) : State := s.islands.foldl (fun s k => s.fastOff k) s

/-! ### The start of the hub (R465 to R468, R376, R443, R453) -/

/-- The black-box copies compared at a restart (R453). -/
def State.compareBb (s : State) : State :=
  let bad := (s.trust.bb.filter fun r => r.okA != r.okB).length
  let fix := fun (r : BbRec) => if r.okA != r.okB then { r with okA := true, okB := true } else r
  let s := s.modTrust fun x => { x with bb := x.bb.map fix, repaired := min 65535 (x.repaired + bad) }
  (List.range bad).foldl (fun s _ => s.event { source := 59, subkind := 1 }) s

/-- The meter loaded from its newest valid slot (R443): one without WARN has lost a commit. -/
def State.loadMeter (s : State) : State :=
  match s.trust.meterSlots.find? (·.ok) with
  | none => s
  | some x =>
    let lost := if x.warn then x.lost else x.lost + 1
    let s := s.modTrust fun y =>
      { y with meter := x.counters, gap := x.gap, vSubst := x.vSubst, tLast := x.tLast, meterSeen := x.tLast, lost := lost,
               meterDirty := !x.warn }
    if x.warn then s else s.event { source := 58, subkind := 2 }

/-- The lock-out stored in MRAM taken at a power-on (R376): the outputs are off. DEDUCED, log entry 39. -/
def State.loadLockout (s : State) : State :=
  let newest := s.safe.loSlots.foldl (fun (m : Option (Nat × Nat × Nat)) x =>
    match m with | none => some x | some y => if y.1 < x.1 then some x else some y) none
  match newest with
  | some (_, c, t) =>
    if c = 0 || !s.isGateway then s
    else ({ s with safe := { s.safe with lockout := true, persisted := true, loCause := c - 1, loTime := t } }).outsOff
  | none => s

/-- The journal of a transition resumed (R433, R434). -/
def State.resumeJournal (s : State) : State :=
  if s.trust.fuseReturned then s.eraseReturned
  else if s.trust.journal ≠ 0 then s.relocateFrom s.trust.journal
  else s

/-- Every gateway start from OFF raises EPOCH and resumes pack time at the last value committed plus 1 s, and its first
beacon is held back (R272). -/
def State.startPackTime (s : State) (fromOff : Bool) : State :=
  if !s.isGateway then s
  else
    let last := s.link.lastPack
    let l := { s.link with beaconHold := some 0 }
    if !fromOff then { s with link := l }
    else { s with link := { l with epoch := (l.epoch + 1) % 65536 },
                  now := match last with | some a => max s.now (a + 1000000000) | none => s.now }

/-- The store at a start (R304, R400): T3_FAIL clears when the storage die passes, and sets when its rail is not up. -/
def State.startStore (s : State) (storeFail reset : Bool) : State :=
  let s := if reset && !storeFail then { s with locus := { s.locus with t3Fail := false } } else s
  if s.part.store && (storeFail || (s.rail 9).st != 2) then s.failStore else s

/-- What a start raises (R410, R415, R419, R420). -/
def State.startEvents (s : State) (left : Bool) : State :=
  let by_ := s.power.startBy
  let s := if by_ = 0 then s.event { source := 51, subkind := 3 } else if by_ = 1 then s.event { source := 51, subkind := 1 }
    else if by_ = 2 then s.event { source := 51, subkind := 2 } else s
  let s := if s.power.timed then (s.modPower fun p => { p with timed := false }).event { source := 48, subkind := 2 } else s
  if left then s.event { source := 50, subkind := 0, arg16 := s.power.lastWake } else s

/-- Counts of a port since a reset (R285). -/
def Port.countsReset (p : Port) : Port := { p with cwUncorr := 0, tc0Third := 0, tagFail := 0 }

/-- The fields in force as the hub enters RUN: the active set, but for those whose own step has not come yet: thresholds and
ticks that wait for a tick of their die (R209), and the link block, whose fields wait for the next training of a hop or the
next enumeration (R285). -/
def State.startFields (s : State) : List Host.Cell :=
  let due := s.islands.filter fun k => ((s.die? k).map fun d => d.prot.swapAt.isSome && d.prot.aonOn).getD false
  due.foldl (fun m k => cellCopy m s.cfg.f (cfgAddr 0x07 k 0) (cfgAddr 0x07 k 0x14)) (cellCopyBlock s.cfg.a s.cfg.f 0x12 0)

/-- The hub enters RUN (R406): the configuration comes into force, the governor is at step 0, and no learning pair spans the
power-up (R184). -/
def State.hubBegin (s : State) (by_ : Nat) : State :=
  let s := s.accrueTest
  let s := s.modPower fun p =>
    { p with st := 0, lastSt := 0, seqDir := 0, seqTo := 0, attempts := 0, retryAt := none, warnAt := none, warnItem := none, restartAt := none,
             upAt := s.now, idleSince := s.now, entryPend := none, entryCast := false, heldFaults := [], wakePend := false, dozeTgt := if by_ = 0 then false else p.dozeTgt,
             shipMark := false, kaAt := none }
  let s := { s with
    part := { s.part with serving := true, hubHeld := false },
    cfg := { s.cfg with b := s.cfg.a, f := s.startFields }, therm := { s.therm with step := 0, belowSince := [none, none, none], hotRestart := by_ == 4 } }
  let s := { s with
    swp := s.swp.map fun (x : SwpPort) =>
      { x with restarts := 0, overflow := 0, unstable := x.unstable && by_ == 3, short := x.short && by_ == 3 },
    link := { s.link with up := s.link.up.countsReset, dn := s.link.dn.countsReset, noRoute := 0, mseqGap := 0 },
    selfTest := if by_ = 3 then s.selfTest else s.selfTest.map SelfTest.countsReset }
  let s := s.modDies fun _ d =>
    let d := { d with fast := { d.fast with derated := false },
                      est := { d.est with cells := d.est.cells.map fun (c : CellSt) => { c with pairOk := false } } }
    if by_ = 3 then d else d.countsReset.awaitKeepAlive
  s.islands.foldl (fun s k => (s.tasksHome k).settleChannels k) s

/-- The stores are read back and the hub's own work starts (R11, R272, R313, R376, R406, R443, R453). -/
def State.hubGo (s : State) (by_ : Nat) (left storeFail : Bool) : State :=
  let s := (s.locusRestart.startStore storeFail (by_ != 3)).writer
  let s := s.startEvents left
  let s := if s.part.roleDue then ({ s with part := { s.part with roleDue := false } }).event { source := 54, subkind := 3 } else s
  let s := if s.conflict then (s.event { source := 54, subkind := 2 }).cancelPend else s
  let s := if by_ = 0 then s.loadLockout else s
  let s := if by_ = 3 then s else s.loadMeter
  let s := ((s.compareBb).startPackTime (by_ == 0)).testPads 1
  let s := match s.link.relay with
    | some side => ({ s with link := { s.link with relay := none } }).emit (.longBeacon side)
    | none => s
  let s := s.flushUnrouted
  let s := if s.isGateway && by_ != 3 && bit (cellWord s.cfg.a 0x12 0 0) 1 then s.startEnumeration none else s
  let s := s.islands.foldl (fun s k => s.fastDomain k) s
  let n := s.drawBytes 16
  let s := n.2.modTrust fun x => { x with tapNonce := n.1 }
  (s.modPower fun p => { p with startBy := 3 }).heartResume

/-- The hub serves (R406): it is in RUN, a transition that was cut off is resumed first (R433, R434). -/
def State.hubUp (s : State) (storeFail : Bool) : State :=
  ((s.hubBegin s.power.startBy).resumeJournal).hubGo s.power.startBy (s.power.st == 2 || s.power.st == 3) storeFail

/-- Blocks of the hub that failed a BIST, not a slice: what a hub is held in reset for, and what is raised at the next start (R467,
R468). -/
def State.bistFailed (s : State) : List Nat := (((s.selfTest[0]?).map (·.failed)).getD []).filter (0x2000 ≤ ·)

/-- The hub's tests at a start (R465, R466, R496): a failed logic BIST or an unrepairable memory holds it in reset (R467,
R468). Each failure found while the hub was down is raised at the start that follows. -/
def State.hubTest (s : State) (bist : Nat) : State :=
  let b := bistOf bist
  let owed := s.bistFailed
  let found := (if b.logicFail then [0x3001] else []) ++ (if b.unrepairable then [0x2001] else [])
  let s := s.modTest 0 fun x =>
    { x with lbistAt := s.now, lbistOk := !b.logicFail, mbistOk := !b.unrepairable, chkOk := b.chkFail == 0, spares := 64,
             failed := if b.pass then [] else (owed.filter fun y => !found.contains y) ++ found }
  let s := { s with chk := s.chk.zipIdx.map fun (x : ChkUnit × Nat) => if x.2 < 4 then ChkUnit.fresh (!bit b.chkFail x.2) else x.1 }
  if b.pass then
    let s := (s.hubUp (bit bist 2)).reportMemory 0 0x2001 b
    let s := owed.foldl (fun s u => s.testFailed 0 u) (s.modTest 0 fun x => { x with retried := false })
    (List.range 4).foldl (fun s u => if bit b.chkFail u then s.testFailed 0 (0x4001 + u) else s) s
  else { s with part := { s.part with hubHeld := true } }

/-- The power-up sequence has ended: the hub's tests run, or after a short SLEEP or SHIP the hub serves at once (R465). -/
def State.hubStart (s : State) (bist : Nat) : State :=
  let last := ((s.selfTest[0]?).map (·.lbistAt)).getD 0
  let s := s.modPower fun p => { p with seqDir := 0 }
  if s.power.startBy = 3 ∧ s.now < last + 86400000000000 then s.hubUp false
  else (s.modTest 0 fun x => { x with retried := false }).hubTest bist

/-! ### Roles (R20, R22) -/

/-- Three reads of the strap that agree: 0 MODULE, 1 GATEWAY (R20). -/
def strapAgree (l : List Nat) : Option Nat :=
  match l with
  | [a, b, c] => if a = b ∧ b = c then some (min a 1) else none
  | _ => none

/-- The first three reads agree (R20). -/
def straps3 (reads : List Nat) : Bool := (strapAgree (reads.take 3)).isSome

/-- The strap reading of three or six reads, 0 MODULE and 1 GATEWAY: 2 when it is unresolved (R20). -/
def readStrap (reads : List Nat) : Nat :=
  match strapAgree (reads.take 3) with
  | some x => x
  | none => (strapAgree ((reads.drop 3).take 3)).getD 2

/-- The role taken under R22. -/
def State.takeStrap (s : State) (reads : List Nat) : State :=
  let strap := readStrap reads
  let sealed_ := rd s.trust.sealed_ 0 1
  let role := if strap = 2 then 2 else if s.trust.life = 1 then (if sealed_ = strap then strap else 2) else strap
  { s with part := { s.part with strap := strap, role := role, roleChanged := false, roleDue := false,
                                  rolePad := reads.getD (if straps3 reads then 2 else 5) 0 != 0 },
           link := s.link.asRole role }

/-! ### Rails that follow the configuration and their faults (R400, R421) -/

/-- Enabling a VEXT rail runs its sequence step and disabling one its discharge; HOLD_EN starts and stops the charger
(R401, R421). -/
def State.followRails (s : State) : State :=
  if !s.inRunDoze || !s.part.serving || s.power.warnAt.isSome then s
  else
    let s := [10, 11, 12].foldl
      (fun s i =>
        if !s.railSkipped i && (s.rail i).st == 0 then s.modRail i fun r => { r with st := 1 }
        else if s.railSkipped i && (s.rail i).st != 0 then
          s.modRail i fun r => { r with st := if r.st = 4 then 0 else 3 }
        else s) s
    let st := (s.rail 13).st
    let s := if s.holdEn && st == 0 then (s.modRail 13 fun r => { r with st := 1 }).modPower fun p => { p with vsysAt := s.now, holdDone := false }
      else if !s.holdEn && st != 0 then (s.modRail 13 fun r => { r with st := 0 }).modPower fun p => { p with holdOk := false, holdReported := false }
      else s
    s.setHoldEff.chooseSrc

/-- A power-fail warning is raised (R410): source 48; what it does follows within 20 µs. -/
def State.raiseWarning (s : State) (item : Nat) : State :=
  if !s.inRunDoze || !s.part.serving || s.power.warnItem.isSome then s
  else (s.modPower fun p => { p with warnItem := some item }).event { source := 48, subkind := 1, item := item }

/-- What a rail that has faulted does, by its class (R400): the fault of a core rail during the entry to SLEEP or SHIP turns it into
the timed shutdown (R409). -/
def State.railAct (s : State) (i : Nat) : State :=
  if i ≤ 5 ∨ i = 7 then
    if (s.power.st = 2 ∨ s.power.st = 3) ∧ s.power.seqDir = 2 then (s.modPower fun p => { p with timed := true }).startDown 4
    else s.raiseWarning i
  else if i = 13 then s
  else
    let s := s.modRail i fun r => { r with st := 4, faultAt := s.now }
    if i = 6 then (s.hopDown .up).hopDown .down
    else if i = 8 then s.hifOff
    else if i = 9 then s.failStore
    else s

/-- A fault of a running rail is counted and acts by its class (R399, R400). -/
def State.railFault (s : State) (i kind : Nat) : State := (s.countRail i kind).railAct i

/-- A fault that a supervisor shows (R399 to R401): of a running rail, or a stop of the HOLD charger above its limit. -/
def State.judgeFault (s : State) (rail kind : Nat) : State :=
  if rail = 13 then (if kind = 2 && (s.rail 13).st != 0 then s.railFault 13 2 else s)
  else if (s.rail rail).st = 2 then s.railFault rail kind
  else s

/-- Rail faults that came while a slice tested the supervisors are judged at its end (R461). -/
def State.judgeHeld (s : State) : State :=
  let w := s.power.heldFaults
  w.foldl (fun s x => s.judgeFault x.1 x.2) (s.modPower fun p => { p with heldFaults := [] })

/-! ### The end of a debug session (R439) -/

/-- The session that is open closes (R437, R439): after a FULL session PD2 and PD3 are reset, the Span slot in force is
verified, and the hops may be keyed again. With PD2 go the commands in execution and the tasks on the hub, and Locus in PD3
starts again as after a restart (R313). DEDUCED, log entry 33. -/
def State.closeSession (s : State) : State :=
  let lv := s.trust.session
  if lv = 0 then s
  else
    let full := lv == 2
    let signer := if full then keyId s.debugSigner else zeros 8
    let s := if full then
        let b := s.spanImage s.trust.slotB
        let sound := (s.trust.spanImgs.getD (b2n s.trust.slotB) []).isEmpty || s.imageOk 2 b b.length
        let s := (s.islands.foldl (fun s k => s.tasksHome k) s).abortExecuting.locusRestart
        s.event { source := 56, subkind := if sound then 2 else 5, item := 2 }
      else s
    let s := s.event { source := 55, subkind := 2, item := lv }
    let s := s.debugRecord lv s.trust.keepAwake signer
    s.modTrust fun x => { x with session := 0, keepAwake := false, hopsHeld := false, debugMark := false }

/-! ### Warning and entries (R311, R383, R411, R417) -/

/-- The steps of the power-fail warning (R411); the records that wait to be signed are written without a signature (R453). -/
def State.warn (s : State) (item : Nat) : State :=
  let rails := s.power.lastTrip
  let idx := if item < 14 then (match rails with | some a => if s.now ≤ a + 60000000000 then min 3 (s.power.restartIdx + 1) else 0 | none => 0) else 0
  let s := s.modPower fun p =>
    { p with warnAt := some s.now, timed := true, restartIdx := idx, lastTrip := if item < 14 then some s.now else none }
  let s := [8, 10, 11, 12].foldl (fun s i => s.modRail i fun r => { r with st := 0 }) s
  let s := ({ s with swp := s.swp.map SwpPort.lose }).hifOff
  let s := s.setHoldEff.outsOff
  let s := s.closeSession
  let s := (s.commitMeter true).commitPackTime
  let s := (s.locusWarning s.power.holdEff).copyCounters
  let s := (s.sendSafety 0x04 {}).drainUrgent
  s.writeAllBb s.trust.bbWait.length

/-- Entry to SLEEP (2) or SHIP (3), after the completion (R417). A gateway that enters last after a broadcast tells the other
parts that its completion is written, in a frame that no rule lays out: 0x0D and the state. DESIGN CHOICE, log entry 13. -/
def State.enterLow (s : State) (target : Nat) : State :=
  let cast := s.hosted && s.power.entryCast
  let s := s.modPower fun p => { p with entryPend := none, entryCast := false }
  let s := if cast then s.originate 1 0x10 63 (le 1 0x0D ++ le 1 target) else s
  let s := if s.trust.session = 0 then s else s.closeSession
  let s := s.event { source := 50, subkind := target, arg16 := s.power.lastWake }
  let s := s.outsOff.sendSafety 0x04 {}
  let s := (s.islands.foldl (fun s k => s.abortCapture k true) s).cancelPend.drainUrgent
  let s := s.islands.foldl (fun s k => s.persist k) s
  let s := (s.locusSleep.commitMeter false).copyCounters.commitPackTime
  let s := s.accrueTest
  let s := s.modPower fun p => { p with st := target, lastSt := target, shipMark := target == 3, sleepAt := s.now, idleSince := s.now }
  let s := s.islands.foldl (fun s k => s.precOff k) s
  (s.hubStop (target == 2)).startDown target

/-- A part asked for SLEEP or SHIP enters it at once, or where it serves a host once the completion is written; one that a
broadcast asks waits until the gateway has written the broadcast completion (R347, R417). -/
def State.askLow (s : State) (target : Nat) (cast : Bool) : State :=
  if (s.hosted && s.hif.en) || (cast && !s.hosted) then
    s.modPower fun p => { p with entryPend := some (max target (p.entryPend.getD 0)), entryCast := p.entryCast || cast }
  else s.enterLow target

/-- The entry that waits is made once no completion waits to be written. -/
def State.tryEnter (s : State) : State :=
  match s.power.entryPend with
  | none => s
  | some target =>
    let busy := s.hif.inflight.any fun x => x.cmd.opcode == 0x0D
    if s.hosted && s.hif.cqWait.isEmpty && !busy then s.enterLow target else s

/-! ### Waking (R177, R416) -/

/-- What 24 h without counted charge add to the uncertainty of every cell (R177). -/
def State.ageStates (s : State) : State :=
  let days := (s.now - s.power.sleepAt + 86399999999999) / 86400000000000
  let add := fmul (f64 (2 / 10000)) (days : Rat)
  let cell := fun (c : CellSt) => { c with u := fadd c.u add }
  if s.power.agedFor = some s.power.sleepAt then s
  else (s.modPower fun p => { p with agedFor := some p.sleepAt }).modDies fun _ d =>
    { d with est := { d.est with cells := d.est.cells.map cell,
                                 slots := d.est.slots.map fun (x : StateSlot) => { x with cells := x.cells.map cell } } }

/-- The wake source is enabled in the state the part is in (R416). -/
def State.wakeEnabled (s : State) (code : Nat) : Bool :=
  let sleep := s.power.st == 2
  match code with
  | 0x2 => sleep
  | 0x3 => true
  | 0x4 => true
  | 0x5 => true
  | 0x6 => bit (s.swpCtrl 1) 2
  | 0x7 => bit (s.swpCtrl 2) 2
  | 0x8 => sleep && s.fB 0x15 0 0xC 0
  | 0x9 => sleep && s.isGateway && s.fB 0x15 0 0xC 1
  | 0xA => sleep && s.pwF 0xC 31 16 != 0
  | 0xB => true
  | _ => false

/-- A wake source that is enabled acts in the state the part is in (R416, R419). -/
def State.mayWake (s : State) (code : Nat) : Bool :=
  (s.power.st == 2 || s.power.st == 3) && s.wakeEnabled code && !s.power.rstHeld && s.inputOk && s.power.seqDir != 1

/-- A wake source (R409, R415, R416): the part powers up from VSYS, after a down sequence that is still running. -/
def State.wake (s : State) (code : Nat) : State :=
  if s.trust.sleepHeld && s.inRunDoze then s.modTrust fun x => { x with sleepHeld := false }
  else if !s.mayWake code then s
  else
    let s := (s.modPower fun p => { p with lastWake := code, shipMark := false, startBy := if code = 0xB && p.startBy == 3 then 1 else p.startBy }).ageStates
    if s.power.seqDir = 2 then s.modPower fun p => { p with wakePend := true } else s.startUp

end Sys2Proof.Machine
end

