-- ==== Sys2Proof/Machine/LiveRegs.lean ====
section
/-! DEFINITION. The live registers that CONFIG_READ reads with SPACE 2 (R353): R56, R96, R97, R119, R138, R166, R198,
R227, R248, R287, R318, R363, R391, R423, R458, R473 and R484. -/

namespace Sys2Proof.Machine

/-- HIF_PART (R322). -/
def State.partWord (s : State) : Nat := fld 12 4 s.part.cellDies + fld 8 4 (b2n s.part.store) + 0xB0
/-- LIFE_STAT (R322). -/
def State.lifeWord (s : State) : Nat := fld 14 2 s.trust.life + fld 12 2 s.trust.session + fld 10 2 s.tq

/-- Low or high word of a 64-bit register. -/
def half (hi : Bool) (v : Nat) : Nat := if hi then v / 2 ^ 32 % 2 ^ 32 else v % 2 ^ 32
/-- A signed count saturated to a field. -/
def satInt (width : Nat) (v : Int) : Nat := unsignedBits width (max (-(2 ^ (width - 1) : Int)) (min ((2 ^ (width - 1) : Int) - 1) v))

/-! ### Cell dies -/

/-- CAP_STATE of a die under a MODE (R97, R98, R162): STOPPED while the die's state halts the path, OFF while MODE is off even
when impedance runs it, but for a closed window that is still delivered. -/
def Die.capState (d : Die) (mode : Nat) (run : Bool) : Nat :=
  if d.precOn && (!d.fast.sarFail.isEmpty || d.prot.protOnly) then 5
  else if !d.fastOn || mode = 0 then (if run && d.precOn && !d.fast.drain.isEmpty then 4 else 0)
  else
    match d.fast.cap with
    | some c => if c.triggered then 3 else 2
    | none => if !d.fast.drain.isEmpty then 4 else if d.fast.startedAt.isSome then 1 else 0

/-- SEQ_STATE (R119). -/
def SeqState.code (q : SeqState) : Nat := if q.taken then 3 else if !q.running then 0 else if q.cur.isNone then 2 else 1

/-- Block 0x01 of a die: PREC_STAT (R56), ST_DIE and ST_DIE_LAST (R473). -/
def State.livePrec (s : State) (k : Nat) (d : Die) (x : SelfTest) (off : Nat) : Nat :=
  match off with
  | 0x040 =>
    fld 16 16 (s.gatePeriodNs k / 1000000) + fld 11 5 (d.prec.held.getD 0 0) + fld 6 5 (d.prec.held.getD 1 0) + fld 4 2 d.prec.refState +
      fld 3 1 (b2n d.prec.warm)
  | 0x060 =>
    fld 16 16 x.done + fld 8 8 x.incomplete + fld 7 1 (b2n d.prot.protOnly) + fld 6 1 (b2n x.lbistOk) + fld 5 1 (b2n x.mbistOk) +
      fld 4 1 (b2n x.chkOk) + fld 3 1 (b2n !d.fast.sarFail.isEmpty) + fld 2 1 (b2n !x.overdue.isEmpty)
  | 0x064 => fld 16 16 x.lastBlock + fld 14 2 x.lastResult + fld 0 14 x.spares
  | _ => 0

/-- Block 0x02 of a die (R97). -/
def Die.liveFast (d : Die) (mode : Nat) (run : Bool) (off : Nat) : Nat :=
  match off with
  | 0x040 => fld 3 1 (b2n d.fast.derated) + d.capState mode run
  | 0x044 => half false d.fast.dropTotal
  | 0x048 => half true d.fast.dropTotal
  | 0x04C => sat 32 d.fast.trigMissed
  | _ => 0

/-- Block 0x03 of a die (R119). -/
def Die.liveSeq (d : Die) (off : Nat) : Nat :=
  match off with
  | 0x040 => fld 16 16 (sat 16 d.seq.passTime) + fld 10 6 d.seq.curEntry + fld 8 2 d.seq.code + fld 0 8 d.seq.skips
  | 0x044 => half false d.seq.pass
  | _ =>
    if 0x048 ≤ off ∧ off < 0x058 then
      (List.range 16).foldl (fun n j => n + fld (2 * j) 2 (d.seq.win.getD ((off - 0x048) / 4 * 16 + j) 0)) 0
    else 0

/-- A delta as a register: signed, in units of `lsb`. -/
def deltaWord (v lsb : Rat) : Nat := satInt 32 (roundAway (v / lsb))

/-- Block 0x04 of a die (R138). -/
def Die.liveCal (d : Die) (off : Nat) : Nat :=
  let c := d.cal
  match off with
  | 0x040 =>
    fld 16 16 (sat 16 c.runs) + fld 8 4 c.lastResult + fld 4 4 c.sources + fld 3 1 (b2n c.heldCand.isSome) + fld 2 1 (b2n c.fuseOk) +
      fld 1 1 (b2n (!c.fuseOk && !c.mramOk)) + fld 0 1 (b2n c.run.isSome)
  | 0x044 => half false c.lastAccept
  | 0x048 => half true c.lastAccept
  | 0x04C => maskOf (indexes id c.stale)
  | _ =>
    if 0x100 ≤ off ∧ off < 0x100 + 8 * 29 then
      let n := (off - 0x100) / 8
      if off % 8 = 0 then deltaWord (c.ofs.getD n 0) (1 / 1000000000) else deltaWord (c.gain.getD n 0) (1 / 1000)
    else 0

/-- Block 0x05 of a die (R166). -/
def Die.liveImp (d : Die) (off : Nat) : Nat :=
  if off = 0x040 then
    fld 16 16 (sat 16 d.imp.segRej) + fld 8 8 (sat 8 d.imp.curMiss) + fld 7 1 (b2n d.imp.onHub) + fld 6 1 (b2n d.imp.injActive) +
      fld 4 2 d.imp.group + fld 3 1 (b2n d.imp.curOk) + fld 2 1 (b2n d.fast.derated)
  else 0

/-- Block 0x06 of a die (R198). -/
def Die.liveState (d : Die) (off : Nat) : Nat :=
  let e := d.est
  if off = 0x040 then
    fld 16 16 (sat 16 e.learnCount) + fld 8 8 (sat 8 e.swapCount) + fld 4 4 e.lastLearn + fld 3 1 (b2n e.countLost) +
      fld 2 1 (b2n (e.holdLow || e.holdHigh)) + fld 1 1 (b2n e.eoc) + fld 0 1 (b2n e.eod)
  else 0

/-- Block 0x07 of a die (R227). -/
def State.liveProt (s : State) (k : Nat) (d : Die) (off : Nat) : Nat :=
  let p := (((s.settleChannels k).die? k).getD d).prot
  match off with
  | 0x040 => maskOf (indexes (fun c => c.tripped) p.ov)
  | 0x044 => maskOf (indexes (fun c => c.tripped) p.uv)
  | 0x048 =>
    fld 27 5 (p.chans.filter fun c => c.conducting).length + fld 22 5 p.cap + fld 21 1 (b2n p.timeout) + fld 20 1 (b2n p.derateT) +
      fld 19 1 (b2n p.derateGov) + fld 18 1 (b2n p.owRun.isSome) + sat 18 (p.hubQ * 10).floor.toNat
  | 0x04C => p.onMask
  | 0x050 => p.wire % 2 ^ 30
  | _ => 0

/-! ### The hub -/

/-- Block 0x00: R363, R458, R473 and R484. DEDUCED, log entry 41. -/
def State.liveHub (s : State) (off : Nat) : Nat :=
  let t := s.trust
  let x := s.selfTest.getD 0 SelfTest.initial
  let committed := ((t.meterSlots.head?).map (·.counters)).getD (List.replicate 5 0)
  match off with
  | 0x040 =>
    fld 16 16 s.cfg.epoch + fld 3 1 (b2n s.cfg.torn) + fld 2 1 (b2n ((s.cfg.pend.map fun p => p.group && p.checked).getD false)) +
      fld 1 1 (b2n s.cfg.pend.isSome) + fld 0 1 (b2n (cellMasked s.cfg.b != s.cfg.a))
  | 0x044 => half false ((s.cfg.pend.map (·.tCommit)).getD 0)
  | 0x048 => half true ((s.cfg.pend.map (·.tCommit)).getD 0)
  | 0x060 =>
    fld 24 8 t.ownerGen + fld 18 6 t.svnSpan + fld 12 6 t.svnApex + fld 11 1 (b2n t.ik.isSome) + fld 10 1 (b2n t.slotB) + fld 9 1 (b2n t.trial) +
      fld 8 1 (b2n t.keepAwake) + fld 6 2 t.session + fld 5 1 (b2n t.hopsHeld) + fld 0 5 t.firewall
  | 0x064 => fld 31 1 (b2n t.keepFull) + fld 30 1 (b2n t.oneCopy) + fld 16 14 t.unsigned + fld 0 16 t.repaired
  | 0x068 => half false t.bbSeq
  | 0x0A8 => half false t.gap
  | 0x0AC => half false t.lost
  | 0x0C0 =>
    fld 16 16 x.done + fld 8 8 x.incomplete + fld 7 1 (b2n x.lbistOk) + fld 6 1 (b2n x.mbistOk) + fld 5 1 (b2n s.anyOut) +
      fld 1 4 (maskOf (indexes (fun u => u.ok) (s.chk.take 4))) + fld 0 1 (b2n !x.overdue.isEmpty)
  | 0x0C4 => fld 16 16 x.lastBlock + fld 14 2 x.lastResult + fld 0 14 x.spares
  | 0x0C8 => half false x.failAddr
  | 0x0CC => half true x.failAddr
  | 0x0D0 => fld 16 16 x.failBlock + fld 8 8 x.failIsland + fld 0 8 x.failBit
  | 0x0E0 => fld 30 2 s.therm.step + fld 29 1 (b2n s.therm.hotRestart) + fld 20 4 s.therm.hotIsland + unsignedBits 16 s.therm.tjMax
  | _ => if 0x080 ≤ off ∧ off < 0x0A8 then half (off % 8 == 4) (meterUnit (committed.getD ((off - 0x080) / 8) 0)) else 0

/-- SWP_STAT of a port (R248). -/
def SwpPort.stat (x : SwpPort) : Nat :=
  fld 24 8 x.restarts + fld 16 8 x.overflow + fld 10 6 (x.slots.filter fun y => y.present).length + fld 8 2 x.st + fld 7 1 (b2n x.unstable) +
    fld 6 1 (b2n x.short)

/-- PORT_STAT of a radio port (R287). DEDUCED, log entry 41. -/
def Port.stat (p : Port) : Nat :=
  let st := match p.st with | .down => 0 | .training => 1 | .up => 2
  let on := p.st ≠ .down
  fld 30 2 st + fld 28 2 p.channel + fld 27 1 (b2n p.qpsk) + fld 19 8 (if on then unsignedBits 8 p.txPwr else 0) +
    fld 11 8 (if on then (max 0 (min 255 p.margin)).toNat else 0)

/-- Block 0x12 (R287). -/
def State.liveLink (s : State) (off : Nat) : Nat :=
  let l := s.link
  let err := fun (p : Port) => fld 16 16 (sat 16 p.cwUncorr) + fld 8 8 (sat 8 p.tc0Third) + sat 8 p.tagFail
  match off with
  | 0x040 =>
    fld 26 6 l.parts + fld 20 6 s.pos + fld 19 1 (b2n l.ringClosed) + fld 16 3 l.enumState + fld 14 2 s.tq + fld 8 6 l.downHops.length
  | 0x044 => l.up.stat
  | 0x048 => l.dn.stat
  | 0x04C => err l.up
  | 0x050 => err l.dn
  | 0x054 => fld 16 16 (if l.lastBeacon = 0 then 65535 else sat 16 ((s.now - l.lastBeacon) / 1000000)) + satInt 16 l.ofs
  | 0x058 => fld 16 16 (sat 16 l.noRoute) + sat 16 l.mseqGap
  | _ => 0

/-- T3 free or evictable, MiB (R318): the reset value until Locus has read its directory at the start of the hub (R313). DEDUCED,
log entry 41. -/
def State.t3Free (s : State) : Nat :=
  let kept := (s.locus.recs.filter fun r => r.tier == .t3 && (s.evictRank r).isNone).foldl (fun n r => n + r.blocks.length * r.bytes.length) 0
  if s.part.store && s.part.serving then sat 16 ((placeBlocks * 4194304 - kept) / 1048576) else 0

/-- Block 0x13 (R318). -/
def State.liveLocus (s : State) (off : Nat) : Nat :=
  let l := s.locus
  let age := l.blocks.foldl (fun (a : Rat) b => if a < b.age then b.age else a) l.ageRest
  match off with
  | 0x040 =>
    fld 31 1 (b2n l.cold) + fld 30 1 (b2n l.bucketEmpty) + fld 29 1 (b2n l.t3Fail) + fld 28 1 (b2n (l.recs.any fun r => r.tier == .t5)) +
      fld 27 1 (b2n (l.dropRun.getD 0 none).isSome) + fld 16 8 (min 100 (l.fill .stage * 100 / l.stageCap)) + s.t3Free
  | 0x044 => satInt 32 (l.bucket / 1048576)
  | 0x048 => fld 16 16 (2048 - (l.blocks.filter fun b => b.retired).length) + sat 16 (l.blocks.foldl (fun m b => max m b.erases) 0)
  | 0x04C => l.drops.getD 0 0
  | 0x050 => l.drops.getD 1 0
  | 0x054 => l.drops.getD 2 0
  | 0x058 => l.evictions
  | 0x05C => (s.dies.zipIdx).foldl (fun n x => n + fld (2 * x.2) 1 (b2n x.1.imp.onHub) + fld (2 * x.2 + 1) 1 (b2n x.1.est.onHub)) 0
  | 0x060 => fld 16 16 l.refreshed + sat 16 age.floor.toNat
  | _ => 0

/-- Block 0x14 (R391). DEDUCED, log entry 41. -/
def State.liveSafe (s : State) (off : Nat) : Nat :=
  let f := s.safe
  let mask := fun (p : WatchPos → Bool) => maskOf (indexes p f.watch)
  let demand := (List.range 4).filter fun i => s.inEnabled i && s.inSt i != 0
  let disc := (List.range 4).filter fun i => s.inEnabled i && s.inSt i == 2
  match off with
  | 0x040 =>
    fld 31 1 (b2n f.lockout) + fld 30 1 (b2n f.persisted) + fld 24 6 f.loCause + fld 20 4 (maskOf demand) + fld 16 4 (maskOf disc) +
      fld 12 3 (maskOf ((List.range 3).filter s.outOn)) + fld 8 3 (maskOf ((List.range 3).filter s.fbClosed)) + fld 7 1 (b2n f.hostOk) +
      fld 6 1 (b2n (s.isGateway && s.releasable)) + fld 4 2 f.lorstState + fld 3 1 (b2n (s.isModule && f.gwOk))
  | 0x044 => half false (mask fun w => w.failed)
  | 0x048 => half true (mask fun w => w.failed)
  | 0x04C => half false (mask fun w => w.armed)
  | 0x050 => half true (mask fun w => w.armed)
  | 0x054 => fld 16 16 (sat 16 f.discCount) + sat 16 f.frameErr
  | 0x058 => half false f.loTime
  | 0x05C => half true f.loTime
  | _ => 0

/-- Hub domains that are on (R403, R406). -/
def State.domains (s : State) : Nat :=
  let up := fun (i : Nat) => (s.rail i).st == 2
  let vsec := up 2 && up 3 && up 4
  let on := [true, vsec, up 7, up 5, up 6, up 6, s.hosted && up 8, s.part.store && up 9, up 5, s.pd9]
  maskOf (indexes id on)

/-- Block 0x15 (R423). -/
def State.livePower (s : State) (off : Nat) : Nat :=
  let p := s.power
  let dom := fun (x : Die × Nat) =>
    fld (4 * x.2) 1 (b2n x.1.prot.aonOn) + fld (4 * x.2 + 1) 1 (b2n x.1.precOn) + fld (4 * x.2 + 2) 1 (b2n x.1.fastOn) +
      fld (4 * x.2 + 3) 1 (b2n x.1.dspOn)
  match off with
  | 0x040 =>
    fld 30 2 p.st + fld 29 1 (b2n (p.dozeTgt || s.fB 0x15 0 0 11)) + fld 28 1 p.src + fld 27 1 (b2n p.vauxOk) + fld 26 1 (b2n p.vinOk) +
      fld 25 1 (b2n p.holdOk) + fld 24 1 (b2n p.rstIgnored) + fld 16 8 p.holdEff + fld 12 4 p.lastReset + fld 8 4 p.lastWake
  | 0x044 => fld 16 16 p.vAux + fld 0 16 p.vHv
  | 0x048 => fld 16 16 p.pIn + fld 0 16 p.vHold
  | 0x04C => s.domains
  | 0x050 => s.dies.zipIdx.foldl (fun n x => n + dom x) 0
  | _ =>
    if 0x080 ≤ off ∧ off < 0x080 + 8 * 14 then
      let r := s.rail ((off - 0x080) / 8)
      if off % 8 = 0 then fld 16 16 r.ov + fld 0 16 r.uv else fld 16 16 r.tmo + fld 0 16 r.oc
    else 0

/-- A live register of a block at a TARGET; unnamed offsets read 0 (R353). -/
def State.liveWord (s : State) (block target off : Nat) : Nat :=
  if target = 0 then
    match block with
    | 0x00 => s.liveHub off
    | 0x02 => if off = 0x040 then fld 16 16 s.sync.rejected + fld 0 16 s.sync.period else 0
    | 0x11 => if off = 0x040 then (s.swp.getD 0 SwpPort.initial).stat else if off = 0x044 then (s.swp.getD 1 SwpPort.initial).stat else 0
    | 0x12 => s.liveLink off
    | 0x13 => s.liveLocus off
    | 0x14 => s.liveSafe off
    | 0x15 => s.livePower off
    | _ => 0
  else
    match s.die? target with
    | none => 0
    | some d =>
      match block with
      | 0x01 => s.livePrec target d (s.selfTest.getD target SelfTest.initial) off
      | 0x02 => d.liveFast (s.fastMode target) s.inRun off
      | 0x03 => d.liveSeq off
      | 0x04 => d.liveCal off
      | 0x05 => d.liveImp off
      | 0x06 => d.liveState off
      | 0x07 => s.liveProt target d off
      | _ => 0

/-- `n` words of live registers from an offset on. -/
def State.liveBytes (s : State) (block target off n : Nat) : List Byte :=
  (List.range n).flatMap fun i => le 4 (s.liveWord block target (off + 4 * i))

end Sys2Proof.Machine
end

