-- ==== Sys2Proof/Machine/CmdOps.lean ====
section
/-! DEFINITION. What every opcode shares when a part executes it: where it may run (R331, R333, R351, R429), its
parameters (R349), its target and its lengths (R348, R352). -/

namespace Sys2Proof.Machine

/-- The PARAM fields of an opcode: offset within PARAM and size (R349). -/
def paramFields (code : Nat) : List (Nat × Nat) :=
  match code with
  | 0x03 => [(0, 1), (1, 1), (4, 4)]
  | 0x04 => [(1, 1), (4, 4)]
  | 0x05 => [(0, 1), (1, 1), (8, 8)]
  | 0x06 => [(0, 1), (1, 1), (2, 1), (4, 2), (6, 2), (8, 8)]
  | 0x07 => [(0, 1)]
  | 0x08 => [(2, 1), (4, 2)]
  | 0x09 => [(0, 1), (8, 8)]
  | 0x0A => [(4, 4), (8, 2), (10, 2)]
  | 0x0B => [(2, 1), (4, 2), (8, 8)]
  | 0x0C => [(0, 4), (4, 4), (8, 4), (12, 4)]
  | 0x0D => [(0, 1)]
  | 0x0E => [(0, 1), (2, 2)]
  | 0x0F => [(0, 1), (1, 1), (2, 1), (3, 1)]
  | 0x10 => [(0, 16)]
  | 0x11 => [(0, 16)]
  | 0x12 => [(0, 1), (4, 4), (8, 4)]
  | 0x13 => [(0, 1), (1, 1), (8, 8)]
  | 0x14 => [(0, 1)]
  | 0x15 => [(4, 4)]
  | 0x16 => [(0, 16)]
  | _ => []

/-- Bytes of PARAM that no field names are 0 (R349). -/
def paramClear (code : Nat) (p : List Byte) : Bool :=
  p.zipIdx.all fun x => x.1 == 0 || (paramFields code).any fun f => decide (f.1 ≤ x.2) && decide (x.2 < f.1 + f.2)

/-- Opcodes that ROLE_CONFLICT leaves (R24). -/
def conflictOps : List Nat := [0x01, 0x03, 0x11, 0x15, 0x17, 0x18]
/-- Opcodes that a RETURNED part accepts (R351). -/
def returnedOps : List Nat := [0x01, 0x03, 0x11, 0x15, 0x18]

/-- Opcodes that only a SEALED part serves (R429). -/
def sealedOps : List Nat := [0x10, 0x16]

/-- The part's role and lifecycle allow an opcode (R24, R351, R429). -/
def State.allows (s : State) (code : Nat) : Bool :=
  (!s.conflict || conflictOps.contains code) && (s.trust.life != 3 || returnedOps.contains code) &&
    (s.trust.life == 1 || !sealedOps.contains code)

/-- TARGET suits the opcode and names a fitted island (R331, R348). -/
def State.targetOk (s : State) (o : OpInfo) (target : Nat) : Bool :=
  if o.target = 0 then target == 0
  else if o.target = 1 then s.fitted target
  else decide (target ≤ s.part.cellDies)

/-- The data length suits the opcode (R348, R352). -/
def lengthOk (code : Nat) (o : OpInfo) (c : Cmd) : Bool :=
  if o.dir = 0 then true
  else if code = 0x0F then
    let w := rd c.param 2 1
    !(w == 1 || w == 2 || w == 4) || (c.bufLen != 0 && c.bufLen % w == 0)
  else c.bufLen % 4 == 0 && decide (o.least ≤ c.bufLen)

/-- The die a command names cannot serve it (R350): lost, or in protection-only mode. -/
def State.dieGone (s : State) (k : Nat) : Bool :=
  match s.die? k with
  | some d => d.lost || d.prot.protOnly
  | none => false

/-- The refusal that any opcode may meet at its part, before rules of its own: none when there is none. DEDUCED, log entry 14. -/
def State.refusal (s : State) (code : Nat) (c : Cmd) : Option Status :=
  match opInfo code with
  | none => some .invalidOpcode
  | some o =>
    if !s.allows code then some .notPermitted
    else if !paramClear code c.param then some .invalidField
    else if !s.targetOk o c.target then some .invalidTarget
    else if !lengthOk code o c then some .invalidLength
    else if s.dieGone c.target then some .dieUnavailable
    else none

/-- The part executes commands (R351, R448): it serves in RUN or DOZE and no new Span is starting. -/
def State.executes (s : State) : Bool :=
  s.part.serving && !s.part.hubHeld && s.inRunDoze && !((s.trust.act.map (·.begun)).getD false) && (s.hosted || s.link.position.isSome)

/-- The command is one of this opcode for this part. -/
def State.isMine (s : State) (code : Nat) (c : Cmd) : Bool := c.opcode == code && (c.dest == 63 || c.dest == s.pos)

/-- The command is there to execute: at a hosted part it is in flight, has started (R332) and has not run here yet; to a module part
it has come in a frame. -/
def State.present (s : State) (c : Cmd) : Bool :=
  !s.hosted || s.hif.inflight.any fun x => x.cmd == c && x.started && !x.completed && !x.ran

/-- The gateway executes the command itself, once. -/
def State.markRan (s : State) (c : Cmd) : State :=
  { s with hif := { s.hif with inflight := s.hif.inflight.map fun (x : InFlight) => if x.cmd = c then { x with ran := true } else x } }

/-- What the buffer of a command holds (R330): at a hosted part the bytes that the part has read for it, at a module part those that
have come with its frame. -/
def State.inData (s : State) (c : Cmd) (came : List Byte) : List Byte :=
  if s.hosted then ((s.hif.inflight.find? fun x => x.cmd == c).map (·.data)).getD came else came

/-- A command of an opcode executed at this part: a part in DOZE wakes to RUN first (R351); a refusal completes it;
else `f` is what the opcode does. `mine` selects the row by the command's ACTION or STATE. DESIGN CHOICE, log entry 15. -/
def State.serve (s : State) (code : Nat) (c : Cmd) (mine : Bool) (f : State → State) : State :=
  if !s.executes || !s.isMine code c || !mine || !s.present c then s
  else
    let s := (s.undoze).markRan c
    match s.refusal code c with
    | some st => s.complete c st 0
    | none => f s


end Sys2Proof.Machine
end

