-- ==== Sys2Proof/Machine/Commands.lean ====
section
/-! DEFINITION. Commands that read the part and its records, that open streams and captures, and that ask for power
states (R351, R352, R362, R379, R414, R417). -/

namespace Sys2Proof.Machine

/-! ### IDENTIFY and PING (R362) -/

/-- The identity record of R362. -/
def State.identity (s : State) : List Byte :=
  let day := fun (k : Nat) => le 2 (((s.die? k).map fun d => if s.fitted k then d.cal.days else 0).getD 0)
  withCrc32c (le 8 s.part.ident ++ le 4 s.partWord ++ le 4 s.lifeWord ++ ((List.range 7).flatMap fun i => day (i + 1)) ++ le 2 s.cfg.epoch ++
    le 4 s.apexVer ++ le 4 s.spanVer ++ le 1 s.pos ++ le 1 s.link.parts ++ le 1 s.part.role ++ zeros 1)

/-- IDENTIFY (R362). -/
def execIdentify (t : Nat) (c : Cmd) (s : State) : Outcome :=
  .next ((s.at_ t).serve 0x01 c true fun s => s.completeData c .success 0 s.identity)

/-- PING (R362). -/
def execPing (t : Nat) (c : Cmd) (s : State) : Outcome :=
  .next ((s.at_ t).serve 0x18 c true fun s => s.complete c .success (fld 0 16 s.cfg.epoch + fld 16 2 s.tq + fld 18 2 s.power.st))

/-! ### Streams (R292, R296, R362) -/

/-- A held record offered to a subscription that has just been opened (R362). -/
def State.claimHeld (s : State) (sub : Nat) (r : Rec) : State :=
  match s.hif.subs.find? fun x => x.sub == sub with
  | none => s
  | some x =>
    let n := x.next
    let s := s.modHif fun h => { h with subs := h.subs.map fun (y : Sub) => if y.sub = sub then { y with count := n.2.count } else y }
    if !n.1 then s
    else
      let w : StrWait :=
        { sub := sub, ring := x.ring, cls := r.cls, recType := r.recType, src := r.src, pos := s.pos, bytes := r.bytes, ref := some r.id, writtenEnd := none }
      let q := s.queueClaim w
      if q.1 then q.2.noteClaims r.id (r.claims ++ [sub]) else q.2

/-- A subscription opened at the source of its stream: the held records are claimed, or sent to the gateway. -/
def State.openSub (s : State) (c : Cmd) : State :=
  let x := s.subOf c
  let fast := x.recType == 0x0302
  let held := if x.tFrom = 0 then [] else s.streamRecs x.recType x.src x.tFrom
  let y := { x with ident := s.part.ident, tFrom := if fast then max x.tFrom (s.streamStart x.src) else x.tFrom }
  let s := s.modHif fun h => { h with subs := (h.subs.filter fun z => z.sub != x.sub) ++ [y] }
  let s := if fast then s.openFastStream x.src x.sub else s
  if s.hosted then held.foldl (fun s r => s.claimHeld x.sub r) s
  else held.foldl
    (fun s r =>
      let c := s.sendClaims r.recType r.src r.time r.bytes
      c.2.noteClaims r.id (r.claims ++ c.1.filter (· == x.sub))) s

/-- STREAM_OPEN (R362). DEDUCED, log entry 23. -/
def execStreamOpen (t : Nat) (c : Cmd) (s : State) : Outcome :=
  .next ((s.at_ t).serve 0x06 c true fun s =>
    let r := if s.hosted then s.subRefusal c else if rd c.param 6 2 = 0 ∨ !streamOk c then some .invalidField else none
    match r with
    | some st => s.complete c st 0
    | none =>
      if rd c.param 4 2 ≠ 0x0901 ∧ (rd c.param 4 2 == 0x0B01) != (c.target == 0) then s.complete c .invalidTarget 0
      else if rd c.param 4 2 = 0x0302 ∧ s.fastMode c.target ≠ 2 then s.complete c .invalidField 0
      else (s.openSub c).complete c .success 0)

/-- STREAM_CLOSE (R348, R362): records already claimed are still delivered, and the command completes once they are. DEDUCED,
log entry 22. -/
def execStreamClose (t : Nat) (c : Cmd) (s : State) : Outcome :=
  .next ((s.at_ t).serve 0x07 c true fun s =>
    if !s.hosted then s.complete c .invalidPosition 0
    else
      match s.hif.subs.find? fun x => x.sub == rd c.param 0 1 with
      | none => s.complete c .noSuchStream 0
      | some x =>
        if x.closing.isSome then s.complete c .noSuchStream 0
        else ((s.modHif fun h => { h with subs := h.subs.map fun (y : Sub) => if y.sub = x.sub then { y with closing := some c } else y }).endSub x).endClosed)

/-! ### Records (R352) -/

/-- RECORD_READ (R352): the newest record of the stream held in T1 or T2. DEDUCED, log entry 23. -/
def execRecordRead (t : Nat) (c : Cmd) (s : State) : Outcome :=
  .next ((s.at_ t).serve 0x08 c true fun s =>
    let near := fun (r : Rec) => r.tier == .stage || r.tier == .buffer || r.tier == .capture
    if (rd c.param 4 2 == 0x0901) != (rd c.param 2 1 == 1 || rd c.param 2 1 == 2) then s.complete c .invalidField 0
    else if !streamOk c then s.complete c .noSuchStream 0
    else
      match ((s.streamRecs (rd c.param 4 2) (streamSrc c) 0).filter near).getLast? with
      | none => s.complete c .noSuchStream 0
      | some r => if c.bufLen < r.bytes.length then s.complete c .invalidLength 0 else s.completeData c .success 0 r.bytes)

/-- STORE_READ (R299, R305, R352): `lost` numbers, from 0 in the range, the records of which a read in the store fails. What a
holder keeps is asked of it first. -/
def execStoreRead (t : Nat) (c : Cmd) (lost : List Nat) (s : State) : Outcome :=
  .next ((s.at_ t).serve 0x0B c true fun s =>
    if (rd c.param 4 2 == 0x0901) != (rd c.param 2 1 == 1 || rd c.param 2 1 == 2) then s.complete c .invalidField 0
    else if !streamOk c || (s.streamRecs (rd c.param 4 2) (streamSrc c) 0).isEmpty then s.complete c .noSuchStream 0
    else
      let away := ((s.streamRecs (rd c.param 4 2) (streamSrc c) (rd c.param 8 8)).filter (·.tier == .t5)).flatMap (·.blocks)
      let holders := away.eraseDups
      if holders.isEmpty then s.finishRead c lost []
      else
        let x : HolderRead := { cmd := c, lost := lost, waits := holders, got := [] }
        let s := { s with locus := { s.locus with reads := s.locus.reads ++ [x] } }
        holders.foldl (fun s p => s.originate 2 0x20 p (le 2 0xFFFE ++ le 8 s.part.ident ++ le 2 (rd c.param 4 2) ++ le 1 (streamSrc c))) s)

/-! ### Captures (R78, R98, R352, R362) -/

/-- The capture that an arm opens on die k, with the fields then in force: the arm instant of R94 is taken as the execution of
CAPTURE_ARM. DESIGN CHOICE, log entry 51. -/
def State.newCapture (s : State) (k a : Nat) (c : Cmd) (d : Die) : Capture :=
  let r := s.regF 0x02 k
  { id := d.fast.nextId, a := a, src := bits (r 0) 5 4, scope := bit (r 0) 3, pre := bits (r 4) 15 0, post := r 8, delay := bits (r 0x00C) 31 16,
    timeoutMs := bits (r 0x00C) 15 0, period := r 0x010, k := 0, tTrig := none, triggered := false, first := 0, next := 0, counted := 0, delivered := 0,
    block := 0, deratedAtArm := d.fast.derated, aborted := false, stop := none, cmd := some c }

/-- A capture armed on die k (R78); a timer trigger is known at once (R85). -/
def State.armCapture (s : State) (k a : Nat) (c : Cmd) : State :=
  s.onDie k fun d =>
    let x := s.newCapture k a c d
    let s := s.modDie k fun d =>
      let r := if x.src = 0 then d.fast.learn x a s.now else (d.fast, x)
      { d with fast := { r.1 with cap := some r.2, nextId := (d.fast.nextId + 1) % 2 ^ 32 } }
    if x.src = 1 then s.tellArmed a armedCode else s

/-- CAPTURE_ARM with ACTION 0, and with an ACTION that R349 does not name (R78, R98, R362). -/
def execCaptureArm (t : Nat) (c : Cmd) (s : State) : Outcome :=
  .next ((s.at_ t).serve 0x09 c (rd c.param 0 1 != 1) fun s =>
    let a := rd c.param 8 8
    let busy := ((s.die? c.target).map fun d => d.fast.cap.isSome).getD false
    if rd c.param 0 1 ≠ 0 ∨ bits (cellWord s.cfg.a 0x02 c.target 0) 7 6 ≠ 1 then s.complete c .invalidField 0
    else if a ≠ 0 ∧ s.tq = 3 then s.complete c .timeUnlocked 0
    else if busy then s.complete c .captureBusy 0
    else s.armCapture c.target (if a = 0 then (s.now / 1000000 + 1) * 1000000 else a) c)

/-- CAPTURE_ARM with ACTION 1 (R362): a capture in progress ends with ABORT. -/
def execCaptureDisarm (t : Nat) (c : Cmd) (s : State) : Outcome :=
  .next ((s.at_ t).serve 0x09 c (rd c.param 0 1 == 1) fun s => (s.abortCapture c.target true).complete c .success 0)

/-- Blocks of a capture of die k that Locus holds, with their numbers, in BLOCK_INDEX order. -/
def State.captureBlocks (s : State) (k id : Nat) : List (Nat × Rec) :=
  let l := ((s.streamRecs 0x0301 k 0).filter fun r => rd r.bytes 4 4 == id).map fun r => (rd r.bytes 16 2, r)
  l.mergeSort fun x y => decide (x.1 ≤ y.1)

/-- CAPTURE_FETCH (R352): whole blocks in order; RESULT counts those written and those in range that are gone. -/
def execCaptureFetch (t : Nat) (c : Cmd) (lost : List Nat) (s : State) : Outcome :=
  .next ((s.at_ t).serve 0x0A c true fun s =>
    let id := rd c.param 4 4
    let lo := rd c.param 8 2
    let hi := lo + rd c.param 10 2
    let held := s.captureBlocks c.target id
    let live := ((s.die? c.target).map fun d => d.fast.captures.find? fun x => x.id == id).getD none
    let top := held.foldl (fun m x => max m (x.1 + 1)) ((live.map (·.block)).getD 0)
    let mine := held.filter fun x => decide (lo ≤ x.1) && decide (x.1 < hi)
    let gone := (min hi top - lo) - mine.length
    if rd c.param 10 2 = 0 then s.complete c .invalidField 0
    else if held.isEmpty && live.isNone then s.complete c .noSuchStream 0
    else
      let r := fillWith c.bufLen (withLost (mine.map (·.2)) lost [])
      let s := s.completeData c (if r.2.2 then .recordLost else .success) (fld 0 16 r.2.1 + fld 16 16 (sat 16 gone)) r.1
      (mine.take r.2.1).foldl (fun s x => s.releaseD3 x.2.id true) s)

/-! ### Power states (R351, R414, R417, R437) -/

/-- POWER_STATE with STATE 0, and with a STATE that R349 does not name (R414). -/
def execPowerStateRun (t : Nat) (c : Cmd) (s : State) : Outcome :=
  .next ((s.at_ t).serve 0x0D c (rd c.param 0 1 == 0 || decide (4 ≤ rd c.param 0 1)) fun s =>
    if rd c.param 0 1 ≠ 0 then s.complete c .invalidField 0
    else (s.modPower fun p => { p with dozeTgt := false }).complete c .success s.power.st)

/-- POWER_STATE with STATE 1 (R414): DOZE is a target. -/
def execPowerStateDoze (t : Nat) (c : Cmd) (s : State) : Outcome :=
  .next ((s.at_ t).serve 0x0D c (rd c.param 0 1 == 1) fun s =>
    (s.modPower fun p => { p with dozeTgt := true }).complete c .success s.power.st)

/-- POWER_STATE with STATE 2 (R417, R437): a FULL session with KEEP_AWAKE holds the part in DOZE instead. -/
def execPowerStateSleep (t : Nat) (c : Cmd) (s : State) : Outcome :=
  .next ((s.at_ t).serve 0x0D c (rd c.param 0 1 == 2) fun s =>
    if s.trust.session = 2 ∧ s.trust.keepAwake then
      (((s.modTrust fun x => { x with sleepHeld := true }).modPower fun p => { p with dozeTgt := true }).doze).complete c .success 1
    else (s.complete c .success 0).askLow 2 (c.dest == 63))

/-- POWER_STATE with STATE 3 (R417). -/
def execPowerStateShip (t : Nat) (c : Cmd) (s : State) : Outcome :=
  .next ((s.at_ t).serve 0x0D c (rd c.param 0 1 == 3) fun s => (s.complete c .success 0).askLow 3 (c.dest == 63))

/-! ### SENSOR_SEARCH and LOCKOUT_RELEASE (R236, R379, R435) -/

/-- SENSOR_SEARCH (R236): a SEARCH_NEW at the end of the stream cycle; the command completes with the search. DEDUCED, log entry 25. -/
def execSensorSearch (t : Nat) (c : Cmd) (s : State) : Outcome :=
  .next ((s.at_ t).serve 0x14 c true fun s =>
    let p := rd c.param 0 1
    if p ≠ 1 ∧ p ≠ 2 then s.complete c .invalidField 0
    else
      let s := s.modSwp p fun x => { x with cmds := x.cmds ++ [c], pendSearch := true }
      s.onSwp p fun x => if x.st = 2 ∧ !x.inCycle then s.startSearch p 1 else s)

/-- The token of LOCKOUT_RELEASE (R435). DEDUCED, log entry 24. -/
def State.releaseToken (s : State) : List Byte :=
  (hmac (slice s.trust.sealed_ 16 32) (le 8 s.part.ident ++ le 8 s.safe.loTime ++ le 1 s.safe.loCause)).take 16

/-- LOCKOUT_RELEASE (R379, R435). DEDUCED, log entry 24. -/
def execLockoutRelease (t : Nat) (c : Cmd) (s : State) : Outcome :=
  .next ((s.at_ t).serve 0x16 c true fun s =>
    if !s.isGateway then s.complete c .invalidPosition 0
    else if !bit (rd s.trust.sealed_ 1 1) 0 then s.complete c .notPermitted 1
    else if !s.safe.lockout then s.complete c .success 0
    else if slice c.param 0 16 ≠ s.releaseToken then (s.event { source := 57, subkind := 1 }).complete c .notPermitted 2
    else if !s.releasable then s.complete c .notPermitted 3
    else s.releaseLockout.complete c .success 1)

end Sys2Proof.Machine
end

