-- ==== Sys2Proof/Machine/ConfigCmds.lean ====
section
/-! DEFINITION. The configuration sets as commands (R353 to R361): reads, shadow writes, commits of one part and of the
chain, the swap, and BALANCE_POLICY. -/

namespace Sys2Proof.Machine

/-- A change of the configuration state. -/
def State.modCfg (s : State) (f : CfgState → CfgState) : State := { s with cfg := f s.cfg }

/-! ### Reads and shadow writes (R353, R355, R356) -/

/-- A range lies within a block of A and B (R353). -/
def cfgRangeOk (block target off len : Nat) : Bool := off % 4 == 0 && decide (off + len ≤ blockLen block target) && blockLen block target != 0

/-- What a swap or an acceptance whose boundary has passed has brought into force on die k is taken before its registers
are read (R46, R116, R130, R162). -/
def State.catchUp (s : State) (k : Nat) : State :=
  s.onDie k fun _ => ((((s.takePrec k).adoptSeq k).modDie k fun d => d.adoptCal s.now).adoptImp k).adoptEst

/-- V_AUX, V_HV, P_IN and V_HOLD measured as they are read (R423): free values. DESIGN CHOICE, log entry 6. -/
def State.measurePower (s : State) : State :=
  let a := s.drawBits 16
  let h := a.2.drawBits 16
  let p := h.2.drawBits 16
  let v := p.2.drawBits 16
  v.2.modPower fun x => { x with vAux := a.1, vHv := h.1, pIn := p.1, vHold := v.1 }

/-- CONFIG_READ: the active set (0), the shadow set (1) or live registers (2). DEDUCED, log entry 41. -/
def State.readConfig (s : State) (c : Cmd) : State :=
  let space := rd c.param 0 1
  let block := rd c.param 1 1
  let off := rd c.param 4 4
  let live := off % 4 == 0 && decide (off + c.bufLen ≤ 0x200) && blockExists block c.target
  if space = 2 then
    if !live then s.complete c .invalidField 0
    else
      let s := s.catchUp c.target
      let s := if block = 0x15 then s.measurePower else s
      s.completeData c .success 0 (s.liveBytes block c.target off (c.bufLen / 4))
  else if 2 < space ∨ !cfgRangeOk block c.target off c.bufLen then s.complete c .invalidField 0
  else
    let m := if space = 0 then s.cfg.a else cellMasked s.cfg.b
    s.completeData c .success 0 (cellRead m (cfgAddr block c.target off) c.bufLen)

/-- CONFIG_READ (R353). -/
def execConfigRead (t : Nat) (c : Cmd) (s : State) : Outcome := .next ((s.at_ t).serve 0x03 c true fun s => s.readConfig c)

/-- Bytes of BAL_TGTn lie among those written: what R214 remembers until the next swap. -/
def State.markTargets (s : State) (block target off len : Nat) : State :=
  if block ≠ 0x07 then s
  else
    let hit := fun (i : Nat) => decide (off < 0x84 + 4 * i) && decide (0x80 + 4 * i < off + len)
    s.modDie target fun d =>
      { d with prot := { d.prot with chans := d.prot.chans.zipIdx.map fun (x : Chan × Nat) => if hit x.2 then { x.1 with tgtWritten := true } else x.1 } }

/-- The bytes of a SHADOW_WRITE reach B, and it completes. -/
def State.putShadow (s : State) (c : Cmd) (data : List Byte) : State :=
  let block := rd c.param 1 1
  let off := rd c.param 4 4
  let s := s.modCfg fun x => { x with b := cellWrite x.b (cfgAddr block c.target off) (slice data 0 c.bufLen) }
  (s.markTargets block c.target off c.bufLen).completeX c .success 0 c.bufLen

/-- SHADOW_WRITE (R355, R356, R358): checked only for its address; during the copy after a swap it waits. -/
def execShadowWrite (t : Nat) (c : Cmd) (data : List Byte) (s : State) : Outcome :=
  .next ((s.at_ t).serve 0x04 c true fun s =>
    let data := s.inData c data
    if !cfgRangeOk (rd c.param 1 1) c.target (rd c.param 4 4) c.bufLen then s.complete c .invalidField 0
    else if s.cfg.pend.isSome then s.complete c .commitPending 0
    else if s.cfg.copying then s.modCfg fun x => { x with waiting := x.waiting ++ [(c, data)] }
    else s.putShadow c data)

/-! ### COMMIT (R356 to R360) -/

/-- First whole millisecond at least 12 ms after receipt (R357). -/
def commitDefault (now : Nat) : Nat := (now + 12999999) / 1000000 * 1000000

/-- The refusal of a COMMIT with ACTION 0 at its receipt: none when it is pending from now on. -/
def State.commitRefusal (s : State) (tc : Nat) : Option (Status × Nat) :=
  if s.cfg.pend.isSome then some (.commitPending, 0)
  else if s.cfg.torn then some (.configInvalid, 0xFFFFFFFF)
  else if s.islands.any s.dieGone then some (.dieUnavailable, 0)
  else if tc != 0 && s.tq == 3 then some (.timeUnlocked, 0)
  else if tc != 0 && (decide (tc < s.now + 10000000) || decide (s.now + 60000000000 < tc)) then some (.commitLate, 0)
  else none

/-- A COMMIT with ACTION 0 received (R356, R357, R359). -/
def State.takeCommit (s : State) (c : Cmd) : State :=
  let tc := rd c.param 8 8
  match s.commitRefusal tc with
  | some r => s.complete c r.1 r.2
  | none =>
    let p : PendCommit :=
      { cmd := c, received := s.now, tCommit := if tc = 0 then commitDefault s.now else tc, group := isGroupCommit c, checked := false, go := false }
    s.modCfg fun x => { x with pend := some p }

/-- COMMIT with ACTION 0, and with an ACTION that R349 does not name (R349, R356). DEDUCED, log entry 16. -/
def execCommit (t : Nat) (c : Cmd) (s : State) : Outcome :=
  .next ((s.at_ t).serve 0x05 c (rd c.param 0 1 != 1 && rd c.param 0 1 != 2) fun s =>
    if rd c.param 0 1 ≠ 0 ∨ bits (rd c.param 1 1) 7 1 ≠ 0 then s.complete c .invalidField 0 else s.takeCommit c)

/-- A part is PREPARED (R359): the gateway notes itself, a module part says so. -/
def State.sayPrepared (s : State) (p : PendCommit) : State :=
  if s.hosted then
    match s.cfg.group with
    | none => s
    | some g =>
      if g.cmd = p.cmd ∧ s.now + 5000000 ≤ g.tCommit then s.modCfg fun x => { x with group := some { g with prepared := g.prepared ++ [s.pos] } } else s
  else s.originate 1 0x11 0 (completionBytes p.cmd.cid p.cmd.sq p.cmd.gen s.pos 0 0 preparedCode)

/-- COMMIT_CHECK (R356, R359): once every earlier SHADOW_WRITE has completed, B is checked against every rejection rule. DEDUCED, log entry 17. -/
def execCommitCheck (t : Nat) (s : State) : Outcome :=
  let s := s.at_ t
  .next (
    match s.cfg.pend with
    | none => s
    | some p =>
      if p.checked || !s.cfg.waiting.isEmpty then s
      else
        match firstOffence (checkSet s.cfg.a s.cfg.b s.islands (s.isGateway && s.anyOut)) with
        | some o => ((s.modCfg fun x => { x with pend := none }).complete p.cmd .configInvalid (offenceResult o)).evalOuts
        | none =>
          let s := s.modCfg fun x => { x with pend := some { p with checked := true } }
          if p.group then s.sayPrepared p else s)

/-- COMMIT with ACTION 1 (R355, R358): A is copied into B and SHADOW_TORN clears. -/
def execCommitRevert (t : Nat) (c : Cmd) (s : State) : Outcome :=
  .next ((s.at_ t).serve 0x05 c (rd c.param 0 1 == 1) fun s =>
    if bits (rd c.param 1 1) 7 1 ≠ 0 then s.complete c .invalidField 0
    else if s.cfg.pend.isSome then s.complete c .commitPending 0
    else (s.modCfg fun x => { x with b := x.a, torn := false }).complete c .success 0)

/-- COMMIT with ACTION 2 (R358): a pending commit is cancelled. -/
def execCommitCancel (t : Nat) (c : Cmd) (s : State) : Outcome :=
  .next ((s.at_ t).serve 0x05 c (rd c.param 0 1 == 2) fun s =>
    if bits (rd c.param 1 1) 7 1 ≠ 0 then s.complete c .invalidField 0 else s.cancelPend.complete c .success 0)

/-! ### The swap (R356, R357) -/

/-- Remaining targets of die k at a swap (R214): those whose BAL_TGTn differs, or has been written, since the last one.
`old` is the active set before the swap. -/
def State.swapTargets (s : State) (old : List Host.Cell) (k : Nat) : State :=
  let a := s.cfg.a
  s.modDie k fun d =>
    { d with prot := { d.prot with chans := d.prot.chans.zipIdx.map fun (x : Chan × Nat) =>
        let v := cellWord a 0x07 k (0x80 + 4 * x.2)
        if x.1.tgtWritten || v != cellWord old 0x07 k (0x80 + 4 * x.2) then { x.1 with target := (v : Rat) / 10000, tgtWritten := false } else x.1 } }

/-- The blocks of die k that changed are taken at their points (R46, R116, R132, R162, R196; last column of R353). -/
def State.swapDie (s : State) (tc k : Nat) : State :=
  let s := ((s.swapFast k).fastDomain k).swapCal k
  let edge := s.boundaryAfter k tc
  let at_ := fun (block : Nat) (old : Option Nat) (when_ : Nat) => if s.blockDiffers block k then some when_ else old
  let est := s.blockDiffers 0x06 k || s.blockDiffers 0x16 0
  let codes := fun (hi lo : Nat) => bits (cellWord s.cfg.a 0x07 k 0) hi lo != s.fF 0x07 k 0 hi lo
  s.modDie k fun d =>
    { d with prec := { d.prec with swapAt := at_ 0x01 d.prec.swapAt edge }, seq := { d.seq with swapAt := at_ 0x03 d.seq.swapAt edge },
             imp := { d.imp with swapAt := at_ 0x05 d.imp.swapAt edge },
             prot := { d.prot with swapAt := if s.rangeDiffers 0x07 k 0 0x14 then some edge else d.prot.swapAt,
                                   rbAsked := [d.prot.rbAsked.getD 0 false || codes 27 16, d.prot.rbAsked.getD 1 false || codes 11 0] },
             est := { d.est with swapAt := if est then some ((tc / 100000000 + 1) * 100000000) else d.est.swapAt } }

/-- Fields of a new active set on their way into force (R353, R383): those of SYNC_CTRL and of the power block at once,
those of the dies at their boundaries, the rest by their own steps. -/
def State.afterSwap (s : State) (tc : Nat) : State :=
  let prot := s.islands.any fun k => s.blockDiffers 0x07 k
  let s := ((s.takeBlock 0x02 0).takeBlock 0x15 0).followRails.adoptIdlePorts
  let s := s.islands.foldl (fun s k => s.swapDie tc k) s
  if prot then s.sendSafety 0x04 {} else s

/-- The swap itself (R356): B becomes the active set in one step, CFG_EPOCH rises by one, the selector is written. -/
def State.swapSets (s : State) (p : PendCommit) : State :=
  let old := s.cfg.a
  let s := s.modCfg fun x =>
    { x with a := cellMasked x.b, epoch := (x.epoch + 1) % 65536, pend := none, copying := true, before := old,
             selector := x.selector.drop 1 ++ [((x.selector.getLast?.map (·.1)).getD 0 + 1, s.now, true)] }
  let s := (s.islands.foldl (fun s k => s.swapTargets old k) s).afterSwap p.tCommit
  (s.complete p.cmd .success 0).evalOuts

/-- CONFIG_SWAP (R356, R357, R359): T_COMMIT of a checked commit is reached; a group commit needs GO. -/
def execConfigSwap (t : Nat) (s : State) : Outcome :=
  let s := s.at_ t
  .next (
    match s.cfg.pend with
    | none => s
    | some p => if !p.checked || decide (t < p.tCommit) || (p.group && !p.go) then s else s.swapSets p)

/-- SHADOW_COPY_COMPLETE (R356): B equals A; the writes that waited follow in order. -/
def execShadowCopyComplete (t : Nat) (s : State) : Outcome :=
  let s := s.at_ t
  .next (
    if !s.cfg.copying then s
    else
      let w := s.cfg.waiting
      w.foldl (fun s x => s.putShadow x.1 x.2) (s.modCfg fun x => { x with b := x.a, waiting := [], copying := false, before := [] }))

/-! ### The group commit (R359) -/

/-- The pending prepare of a group commit ends without a swap. -/
def State.endGroup (s : State) (st : Status) : State :=
  match s.cfg.pend with
  | none => s
  | some p => if !p.group then s else ((s.modCfg fun x => { x with pend := none }).complete p.cmd st 0).evalOuts

/-- GO held by a prepared part. -/
def State.holdGo (s : State) : State := s.modCfg fun x => { x with pend := x.pend.map fun p => if p.group && p.checked then { p with go := true } else p }

/-- GROUP_COMMIT_DECIDE (R359): GO once every part is PREPARED, ABORT when some part is not by T_COMMIT − 5 ms. The two
frames, which no rule lays out, are 0x05 with 1 or 2. DESIGN CHOICE, log entry 13. -/
def execGroupCommitDecide (t : Nat) (s : State) : Outcome :=
  let s := s.at_ t
  .next (
    match s.cfg.group with
    | none => s
    | some g =>
      let all := (List.range (max 1 s.chainParts)).all g.prepared.contains
      let drop := fun (s : State) => s.modCfg fun x => { x with group := none }
      if all then (drop (s.originate 1 0x10 63 (le 1 0x05 ++ le 1 1))).holdGo
      else if g.tCommit ≤ t + 5000000 then (drop (s.originate 1 0x10 63 (le 1 0x05 ++ le 1 2))).endGroup .groupAborted
      else s)

/-- A GO or ABORT frame that waits in the inbox is taken from it, in the order of its flow. -/
def State.takeGroupFrame (s : State) (what : Nat) : Bool × State :=
  match s.link.inbox.find? fun x => x.2.tc == 1 && x.2.kind == 0x10 && x.2.payload == le 1 0x05 ++ le 1 what with
  | none => (true, s)
  | some x =>
    let r := s.accept x.2
    (r.1 == .deliver, r.2)

/-- GROUP_GO_RECEIVE (R359): GO counts when it comes by T_COMMIT − 100 µs. -/
def execGroupGoReceive (t : Nat) (s : State) : Outcome :=
  let s := s.at_ t
  .next (
    if !s.isModule then s
    else
      let r := s.takeGroupFrame 1
      if !r.1 then r.2
      else
        match r.2.cfg.pend with
        | none => r.2
        | some p => if t + 100000 ≤ p.tCommit then r.2.holdGo else r.2)

/-- GROUP_ABORT_RECEIVE (R359). -/
def execGroupAbortReceive (t : Nat) (s : State) : Outcome :=
  let s := s.at_ t
  .next (
    if !s.isModule then s
    else
      let r := s.takeGroupFrame 2
      if !r.1 then r.2 else r.2.endGroup .groupAborted)

/-- GROUP_GO_DEADLINE (R359): a prepared part without GO at T_COMMIT − 100 µs keeps A. -/
def execGroupGoDeadline (t : Nat) (s : State) : Outcome :=
  let s := s.at_ t
  .next (
    match s.cfg.pend with
    | none => s
    | some p => if p.group && p.checked && !p.go && decide (p.tCommit ≤ t + 100000) then s.endGroup .commitLate else s)

/-! ### BALANCE_POLICY (R361) -/

/-- The fields of a BALANCE_POLICY written into a set for die k. -/
def policySet (m : List Host.Cell) (k ctrl ch mask tgt : Nat) : List Host.Cell :=
  let put := fun (m : List Host.Cell) (off v : Nat) => cellWrite m (cfgAddr 0x07 k off) (le 4 (v &&& (cfgReg 0x07 k off).2))
  let m := put (put m 0x014 ctrl) 0x018 ch
  (bitsSet mask 24).foldl (fun m i => put m (0x80 + 4 * i) tgt) m

/-- BALANCE_POLICY applied to both sets of the dies it names; it completes once each of them that serves has taken the fields at its
BAL_STEP boundary (R348). DEDUCED, log entry 21. -/
def State.balancePolicy (s : State) (c : Cmd) : State :=
  let ctrl := rd c.param 0 4
  let ch := rd c.param 4 4
  let mask := rd c.param 8 4
  let tgt := rd c.param 12 4
  let ks := if c.target = 0 then s.islands else [c.target]
  let write := fun (m : List Host.Cell) => ks.foldl (fun m k => policySet m k ctrl ch mask tgt) m
  let a := write s.cfg.a
  let b := write s.cfg.b
  let bad := ks.flatMap fun k => (checkProt a k ++ checkProt b k).map fun off => (0x07, k, off)
  if 2 ^ 24 ≤ mask then s.complete c .invalidField 0
  else
    match firstOffence bad with
    | some o => s.complete c .configInvalid (offenceResult o)
    | none =>
      let s := s.modCfg fun x => { x with a := a, b := b }
      let set := fun (d : Die) =>
        { d with prot := { d.prot with chans := d.prot.chans.zipIdx.map fun (x : Chan × Nat) => if mask.testBit x.2 then { x.1 with target := (tgt : Rat) / 10000 } else x.1 } }
      let s := ks.foldl (fun (s : State) k => s.modDie k set) s
      let waits := ks.filter fun k => !s.dieGone k
      if waits.isEmpty then s.complete c .success 0 else s.modCfg fun x => { x with policies := x.policies ++ [(c, waits)] }

/-- BALANCE_POLICY (R361). -/
def execBalancePolicy (t : Nat) (c : Cmd) (s : State) : Outcome := .next ((s.at_ t).serve 0x0C c true fun s => s.balancePolicy c)

/-! ### ENUMERATE (R362) -/

/-- ENUMERATE (R362, R263). DEDUCED, log entry 22. -/
def execEnumerate (t : Nat) (c : Cmd) (s : State) : Outcome :=
  .next ((s.at_ t).serve 0x02 c true fun s =>
    if !s.isGateway then s.complete c .invalidPosition 0
    else if s.link.enumState = 1 then s.complete c .enumRunning 0
    else s.startEnumeration (some c))

end Sys2Proof.Machine
end

