-- ==== Sys2Proof/Machine/HostReads.lean ====
section
/-! DEFINITION. What a read of BAR0, of BAR2 or of the PCI configuration space gives at a part whose endpoint is powered (R319, R320,
R322): how the host sees the registers that State.hif and State.part hold. -/

namespace Sys2Proof.Machine

/-- CAL_DATE (R322): the factory calibration date of the part's oldest-calibrated die. -/
def State.oldestDay (s : State) : Nat :=
  match (s.dies.take s.part.cellDies).map fun d => d.cal.days with
  | [] => 0
  | x :: xs => xs.foldl min x % 2 ^ 16

/-- HIF_CTRL (R322). -/
def HifState.ctrlWord (h : HifState) : Nat := fld 16 16 h.pollUs + fld 1 1 (b2n h.shutdown) + fld 0 1 (b2n h.en)

/-- HIF_STAT (R322). DEDUCED, log entry 41: a command is in flight until its completion has been written. -/
def HifState.statWord (h : HifState) : Nat :=
  fld 16 16 h.inflight.length + fld 8 8 h.fatalCode + fld 2 1 (b2n h.shutDone) + fld 1 1 (b2n h.fatal) + fld 0 1 (b2n h.ready)

/-- HIF_CNT (R322). -/
def HifState.cntWord (h : HifState) : Nat := fld 16 16 h.lateCompl + fld 0 16 h.eqDelayed

/-- SQn_STAT (R322): a queue is in service while it is active and the interface is ready (R324, R344). -/
def Queue.sqStat (q : Queue) (ready : Bool) : Nat := fld 16 16 q.ptr + fld 8 8 q.err + fld 0 1 (b2n (q.active && ready))

/-- EQ_STAT and CQn_STAT (R322). -/
def Queue.cqStat (q : Queue) (ready : Bool) : Nat :=
  fld 16 16 q.ptr + fld 8 8 q.err + fld 1 1 (b2n q.phase) + fld 0 1 (b2n (q.active && ready))

/-- STRr_STAT (R322): its ERR is one bit. -/
def Queue.strStat (q : Queue) (ready : Bool) : Nat :=
  fld 31 1 (b2n (q.active && ready)) + fld 30 1 (b2n q.phase) + fld 29 1 (b2n (q.err != 0)) + fld 0 28 q.ptr

/-- The four registers of a queue or ring at a stride of 16 bytes (R322). -/
def Queue.word (q : Queue) (stat field : Nat) : Nat :=
  if field = 0 then q.baseLo else if field = 4 then q.baseHi else if field = 8 then q.cfg else if field = 12 then stat else 0

/-- An aligned 32-bit read of BAR0 (R322); an offset that the map does not name, and KICK, read 0 (R320). -/
def State.bar0Word (s : State) (off : Nat) : Nat :=
  match off with
  | 0x0000 => 0x44580001
  | 0x0004 => s.partWord
  | 0x0008 => s.part.ident % 2 ^ 32
  | 0x000C => s.part.ident / 2 ^ 32 % 2 ^ 32
  | 0x0010 => s.oldestDay
  | 0x0014 => 0x40201010
  | 0x0020 => s.hif.ctrlWord
  | 0x0024 => s.hif.statWord
  | 0x0028 => s.hif.cntWord
  | 0x002C => s.lifeWord
  | 0x0030 => s.hif.dbLo
  | 0x0034 => s.hif.dbHi
  | 0x0040 => s.hif.eq.baseLo
  | 0x0044 => s.hif.eq.baseHi
  | 0x0048 => s.hif.eq.cfg
  | 0x004C => s.hif.eq.cqStat s.hif.ready
  | _ =>
    let n := off % 256 / 16
    let field := off % 16
    if 0x1000 ≤ off ∧ off < 0x1100 then (s.hif.sqOf n).word ((s.hif.sqOf n).sqStat s.hif.ready) field
    else if 0x1100 ≤ off ∧ off < 0x1200 then (s.hif.cqOf n).word ((s.hif.cqOf n).cqStat s.hif.ready) field
    else if 0x1200 ≤ off ∧ off < 0x1400 then
      let q := s.hif.strOf ((off - 0x1200) / 16)
      q.word (q.strStat s.hif.ready) field
    else 0

/-- A read of BAR0 (R320): any access but an aligned one of 32 bits reads 0. -/
def State.bar0Read (s : State) (off size : Nat) : Nat := if size = 4 ∧ off % 4 = 0 then s.bar0Word off else 0

/-- The pending-bit array of MSI-X in BAR2 (R319, R343): the bits of 32 vectors. -/
def State.pbaWord (s : State) (off : Nat) : Nat :=
  (List.range 32).foldl (fun a i => a + fld i 1 (b2n (s.hif.pendingVec.contains (8 * (off - 0x800) + i)))) 0

/-- An aligned 32-bit read of BAR2 (R319): the MSI-X table, whose vector control shows the mask in bit 0, then the pending bits. -/
def State.bar2Word (s : State) (off : Nat) : Nat :=
  if off < 0x400 then
    let x := s.hif.msix.getD (off / 16) (0, 0, 0)
    match off % 16 / 4 with
    | 0 => x.1
    | 1 => x.2.1
    | 2 => x.2.2
    | _ => b2n (s.hif.masked.contains (off / 16))
  else if 0x800 ≤ off ∧ off < 0x808 then s.pbaWord off
  else 0

/-- A read of BAR0, or from offset 0x10000 of BAR2 (R319, R320): what it gives, and the part after it; a read of BAR0 wakes it from
DOZE. -/
def State.barAccess (s : State) (off size : Nat) : Nat × State :=
  if 65536 ≤ off then (if size = 4 ∧ off % 4 = 0 then s.bar2Word (off - 65536) else 0, s)
  else
    let s := s.undoze
    (s.bar0Read off size, s)

/-- A word of the PCI configuration space that R319 fixes: Vendor and Device ID, revision and class code. -/
def State.pciWord (off : Nat) : Nat :=
  if off = 0 then Config.vendorId.toNat + fld 16 16 0xD710 else if off = 8 then 0xFF0000B0 else 0

end Sys2Proof.Machine
end

