-- ==== Sys2Proof/Machine/Hif.lean ====
section
/-! DEFINITION. The host interface of a gateway: its registers (R320 to R324), the doorbell page (R325 to R328), the
queues (R329 to R344) and the frames of commands, completions and events (R333, R341). -/

namespace Sys2Proof.Machine

/-! ### Registers (R320 to R324) -/

/-- A write of HIF_CTRL (R321, R324). -/
def State.writeCtrl (s : State) (v : Nat) : State :=
  let s := s.modHif fun h => { h with pollUs := bits v 31 16, shutdown := bit v 1, shutDone := h.shutDone && bit v 1 }
  if !bit v 0 then
    if s.hif.en then
      let r := s.hifClear
      r.2.event { source := 46, subkind := 3, arg16 := r.1 }
    else s.modHif fun h => { h with fatal := false, fatalCode := 0 }
  else if s.hif.en then s.checkDrain
  else if !s.hif.eq.en then (s.modHif fun h => { h with en := true }).hifFatal 3
  else (s.modHif fun h => { h with en := true, ready := true }).checkDrain

/-- The registers of one queue after a write of its CFG (R323): `okSize` says whether EN may be set with it. -/
def Queue.writeCfg (q : Queue) (v : Nat) (ok : Bool) : Queue :=
  if q.en then (if bit v 0 then q else { q.stopped with cfg := v })
  else if !bit v 0 then { q with cfg := v }
  else if ok then { q.rewind with cfg := v, active := true }
  else { q with cfg := v / 2 * 2, err := 3 }

/-- A write of a base register: ignored while EN is 1 (R322, R323). -/
def Queue.writeBase (q : Queue) (hi : Bool) (v : Nat) : Queue :=
  if q.en then q else if hi then { q with baseHi := v } else { q with baseLo := v / 4096 * 4096 }

/-- Commands of an SQ that has been disabled and that have not been sent complete with ABORTED (R338). -/
def State.abortUnsent (s : State) (n : Nat) : State :=
  (s.hif.inflight.filter fun x => x.cmd.sq == n && !x.started && !x.completed).foldl
    (fun s x => s.queueCompletion x x.cmd.dest 0 0 Status.aborted.code) s

/-- A write of SQn_CFG (R323). -/
def State.writeSqCfg (s : State) (n v : Nat) : State :=
  let v := v - fld 1 9 (v / 2)
  let q := s.hif.sqOf n
  let ok := 2 ≤ bits v 31 16 && (s.hif.cqOf (bits v 15 12)).en
  let s1 := s.putSq n (q.writeCfg v ok)
  if q.en && !bit v 0 then (s1.abortUnsent n).checkDrain else s1

/-- A write of CQn_CFG (R323): a CQ that an enabled SQ names stays enabled. -/
def State.writeCqCfg (s : State) (n v : Nat) : State :=
  let q := s.hif.cqOf n
  if q.en && !bit v 0 && (s.hif.sq.any fun x => x.en && bits x.cfg 15 12 == n) then s
  else (s.putCq n (q.writeCfg v (2 ≤ bits v 31 16))).checkDrain

/-- A write of STRr_CFG (R323): when the ring is disabled the host can consume no more of what it holds. -/
def State.writeStrCfg (s : State) (r v : Nat) : State :=
  let v := v - fld 16 11 (v / 65536)
  let q := s.hif.strOf r
  let lg := bits v 31 27
  let s1 := s.putStr r (q.writeCfg v (16 ≤ lg && lg ≤ 28))
  if q.en && !bit v 0 then
    let gone := s1.hif.strWait.filter fun w => w.ring == r && w.writtenEnd.isSome
    let s1 := gone.foldl (fun s w => s.unclaim w) s1
    (s1.modHif fun h => { h with strWait := h.strWait.filter fun w => !(w.ring == r && w.writtenEnd.isSome) }).checkDrain
  else s1

/-- A doorbell page read begins (R327, R328). -/
def State.startPoll (s : State) : State :=
  let a := s.hif.dbHi * 2 ^ 32 + s.hif.dbLo
  (s.modHif fun h => { h with dbReading := true, lastPoll := s.now }).emit (.hostRead a 320)

/-- KICK written (R328). -/
def State.kicked (s : State) : State :=
  if !s.hifServes then s
  else if s.hif.dbReading then s.modHif fun h => { h with dbAgain := true }
  else s.startPoll

/-- A vector is unmasked: its message is sent if its pending bit is set (R343). -/
def State.unmask (s : State) (v : Nat) : State :=
  let pend := s.hif.pendingVec.contains v
  let s := s.modHif fun h => { h with masked := h.masked.filter (· != v), pendingVec := h.pendingVec.filter (· != v) }
  if pend then s.emit (.msix v) else s

/-- An aligned write of BAR2 (R319): the words of the MSI-X table are address low and high, data and vector control, whose bit 0
masks the vector; the pending-bit array ignores writes. PRESUMED, log entry 41. -/
def State.writeMsix (s : State) (off v : Nat) : State :=
  let i := off / 16
  if 64 ≤ i then s
  else
    let put := fun (f : Nat × Nat × Nat → Nat × Nat × Nat) => s.modHif fun h => { h with msix := modNth f i h.msix }
    match off % 16 / 4 with
    | 0 => put fun x => (v / 4 * 4, x.2.1, x.2.2)
    | 1 => put fun x => (x.1, v, x.2.2)
    | 2 => put fun x => (x.1, x.2.1, v)
    | _ =>
      if !bit v 0 then s.unmask i
      else if s.hif.masked.contains i then s
      else s.modHif fun h => { h with masked := h.masked ++ [i] }

/-- An aligned write of a BAR0 register (R322). Offsets that the map does not name ignore it. -/
def State.writeReg (s : State) (off v : Nat) : State :=
  if off = 0x0020 then s.writeCtrl v
  else if off = 0x0030 then s.modHif fun h => { h with dbLo := v / 4096 * 4096 }
  else if off = 0x0034 then s.modHif fun h => { h with dbHi := v }
  else if off = 0x0038 then s.kicked
  else if off = 0x0040 then s.modHif fun h => { h with eq := h.eq.writeBase false v }
  else if off = 0x0044 then s.modHif fun h => { h with eq := h.eq.writeBase true v }
  else if off = 0x0048 then s.modHif fun h => { h with eq := h.eq.writeCfg v (16 ≤ bits v 31 16) }
  else
    let n := off % 256 / 16
    let field := off % 16
    if 0x1000 ≤ off ∧ off < 0x1100 then
      if field = 8 then s.writeSqCfg n v else if field < 8 then s.putSq n ((s.hif.sqOf n).writeBase (field == 4) v) else s
    else if 0x1100 ≤ off ∧ off < 0x1200 then
      if field = 8 then s.writeCqCfg n v else if field < 8 then s.putCq n ((s.hif.cqOf n).writeBase (field == 4) v) else s
    else if 0x1200 ≤ off ∧ off < 0x1400 then
      let r := (off - 0x1200) / 16
      if field = 8 then s.writeStrCfg r v else if field < 8 then s.putStr r ((s.hif.strOf r).writeBase (field == 4) v) else s
    else s

/-- The MSI-X table returns to its start, with every vector masked, at a reset of the function. PRESUMED, log entry 41. -/
def HifState.msixReset (h : HifState) : HifState := { h with msix := List.replicate 64 (0, 0, 0), masked := List.range 64, pendingVec := [] }

/-- HIF_RESET (R321): 1 PERST_N, 2 Function Level Reset, 3 EN cleared. -/
def execHifReset (t cause : Nat) (s : State) : Outcome :=
  let s := s.at_ t
  .next (
    if !s.hifUp then s
    else
      let r := s.hifClear
      let s := if cause = 3 then r.2 else r.2.modHif HifState.msixReset
      s.event { source := 46, subkind := cause, arg16 := r.1 })

/-- HIF_ENABLE (R324): HIF_CTRL is written with EN 1. -/
def execHifEnable (t value : Nat) (s : State) : Outcome :=
  let s := s.at_ t
  .next (if s.hifUp && bit value 0 then s.undoze.writeCtrl (value % 2 ^ 32) else s)

/-- HIF_SHUTDOWN (R324): HIF_CTRL is written with SHUTDOWN 1. -/
def execHifShutdown (t value : Nat) (s : State) : Outcome :=
  let s := s.at_ t
  .next (if s.hifUp && bit value 1 then s.undoze.writeCtrl (value % 2 ^ 32) else s)

/-- QUEUE_ENABLE (R323): a CFG register is written with EN 1. -/
def execQueueEnable (t off value : Nat) (s : State) : Outcome :=
  let s := s.at_ t
  .next (if s.hifUp && bit value 0 && off % 16 == 8 then s.undoze.writeReg off (value % 2 ^ 32) else s)

/-- QUEUE_DISABLE (R323): a CFG register is written with EN 0. DEDUCED, log entry 40. -/
def execQueueDisable (t off value : Nat) (s : State) : Outcome :=
  let s := s.at_ t
  .next (if s.hifUp && !bit value 0 && off % 16 == 8 then s.undoze.writeReg off (value % 2 ^ 32) else s)

/-- REGISTER_WRITE (R320): only aligned 32-bit writes act; any access wakes the part from DOZE. Offsets from 0x10000 are those of BAR2
(R319), and an access of no bytes stands for an aligned read of 32 bits, whose completion carries the word. DESIGN CHOICE, log entry 41. -/
def execRegisterWrite (t off value size : Nat) (s : State) : Outcome :=
  let s := s.at_ t
  .next (
    if !s.hifUp then s
    else if size = 0 then
      let r := s.barAccess off 4
      r.2.emit (.readData r.1)
    else if 65536 ≤ off then (if size = 4 ∧ off % 4 = 0 then s.writeMsix (off - 65536) (value % 2 ^ 32) else s)
    else if size = 4 ∧ off % 4 = 0 then s.undoze.writeReg off (value % 2 ^ 32)
    else s.undoze)

/-- KICK (R328): any value written. -/
def execKick (t _value : Nat) (s : State) : Outcome :=
  let s := s.at_ t
  .next (if s.hifUp then s.undoze.kicked else s)

/-! ### The doorbell page (R325 to R327) -/

/-- DOORBELL_POLL (R327): the part reads the page DB_POLL_US after the start of the previous read, in RUN. -/
def execDoorbellPoll (t : Nat) (s : State) : Outcome :=
  let s := s.at_ t
  .next (
    if !s.hifServes || !s.inRun || s.hif.pollUs = 0 || s.hif.dbReading || t < s.hif.lastPoll + s.hif.pollUs * 1000 then s
    else s.startPoll)

/-- A doorbell word of a queue is in range (R325, R326). -/
def Queue.wordOk (q : Queue) (w : Nat) : Bool := w < q.size && w < 65536
/-- A doorbell word of a ring is in range. -/
def Queue.ringWordOk (q : Queue) (w : Nat) : Bool := w < q.ringSize && w % 16 == 0
/-- A queue takes its doorbell word, or stops with ERR 1. -/
def Queue.take (q : Queue) (ok : Bool) (w : Nat) : Queue := if ok then { q with host := w } else { q with err := 1, active := false }

/-- SQ n takes its tail. -/
def State.takeSqTail (s : State) (n w : Nat) : State :=
  let q := s.hif.sqOf n
  if !q.serves then s
  else
    let q := if q.ptr = q.host then { q with readAt := s.now } else q
    let s := s.putSq n (q.take (q.wordOk w) w)
    if q.wordOk w then s else s.queueError 1 n 1

/-- CQ n takes its head. -/
def State.takeCqHead (s : State) (n w : Nat) : State :=
  let q := s.hif.cqOf n
  if !q.serves then s
  else
    let s := s.putCq n (q.take (q.wordOk w) w)
    if q.wordOk w then s else s.queueError 2 n 1

/-- The event queue takes its head. -/
def State.takeEqHead (s : State) (w : Nat) : State :=
  let q := s.hif.eq
  if !q.serves then s
  else
    let s := s.putEq (q.take (q.wordOk w) w)
    if q.wordOk w then s else s.queueError 0 0 1

/-- Ring r takes its head: the records whose entries the head has passed are consumed (R292, R340). -/
def State.takeStrHead (s : State) (r w : Nat) : State :=
  let q := s.hif.strOf r
  if !q.serves then s
  else if !q.ringWordOk w then (s.putStr r (q.take false w)).queueError 3 r 1
  else
    let n := q.ringSize
    let far := (w + n - q.host % n) % n
    let passed := fun (x : StrWait) =>
      x.ring == r && (match x.writtenEnd with | none => false | some e => decide (0 < (e + n - q.host % n) % n ∧ (e + n - q.host % n) % n ≤ far))
    let gone := s.hif.strWait.filter passed
    let s := gone.foldl (fun s x => s.unclaim x) s
    (s.modHif fun h => { h with strWait := h.strWait.filter fun x => !passed x }).putStr r (q.take true w)

/-- The part's own completion timeout (R319): 50 ms on every read that it issues. -/
def readTimeout : Nat := 50000000

/-- DOORBELL_READ_COMPLETE (R326, R328): the words of the page, word i at offset 4i, within the time that a read may take (R319).
DEDUCED, log entry 40. -/
def execDoorbellReadComplete (t : Nat) (words : List Nat) (s : State) : Outcome :=
  let s := s.at_ t
  .next (
    if !s.hifServes || !s.hif.dbReading || decide (s.hif.lastPoll + readTimeout ≤ t) then s
    else
      let w := fun (i : Nat) => words.getD i 0
      let s := (List.range 16).foldl (fun s n => s.takeSqTail n (w n)) s
      let s := (List.range 16).foldl (fun s n => s.takeCqHead n (w (16 + n))) s
      let s := s.takeEqHead (w 32)
      let s := (List.range 32).foldl (fun s r => s.takeStrHead r (w (48 + r))) s
      let again := s.hif.dbAgain
      let s := (s.modHif fun h => { h with dbReading := false, dbAgain := false }).checkDrain
      if again then s.startPoll else s)

/-! ### Descriptors (R329 to R332) -/

/-- A descriptor may be fetched from SQ n (R332). -/
def State.fetchable (s : State) (n : Nat) : Bool :=
  let h := s.hif
  let q := h.sqOf n
  let c := h.cqOf (bits q.cfg 15 12)
  q.serves && q.ptr != q.host && h.inflight.length < 256 && c.serves &&
    (h.inflight.filter fun x => x.cmd.sq == n).length + 1 ≤ c.freeEntries

/-- The SQ whose turn it is, and the descriptors left in its turn after one fetch (R332). -/
def State.arbiter (s : State) : Option (Nat × Nat) :=
  let h := s.hif
  let weight := fun (n : Nat) => 2 ^ bits (h.sqOf n).cfg 11 10
  if 0 < h.rrLeft ∧ s.fetchable h.rrSq then some (h.rrSq, h.rrLeft - 1)
  else
    (((List.range 16).map fun i => (h.rrSq + 1 + i) % 16).find? s.fetchable).map fun n => (n, weight n - 1)

/-- The buffer ranges of a list (R330); none when a rule on it is broken. -/
def listRanges (b : List Byte) (len : Nat) : Option (List (Nat × Nat)) :=
  let n := len / 16
  let es := (List.range n).map fun i => (rd b (16 * i) 8, rd b (16 * i + 8) 4, rd b (16 * i + 12) 4)
  let last := n - 1
  let total := es.foldl (fun (a : Nat) (e : Nat × Nat × Nat) => a + e.2.1) 0
  let good := es.zipIdx.all fun e => e.1.1 % 4 == 0 && 0 < e.1.2.1 && e.1.2.2 == 0 && (e.2 == last || e.1.2.1 % 4 == 0)
  if len % 16 == 0 && 1 ≤ n && n ≤ 256 && good && decide (total ≤ 16777216) then some (es.map fun e => (e.1, e.2.1)) else none

/-- A command of the same SQ with the same CID is in flight (R331, check 6). -/
def State.dupCid (s : State) (c : Cmd) : Bool := s.hif.inflight.any fun x => x.cmd.sq == c.sq && x.cmd.cid == c.cid

/-- The command carries a data buffer: its opcode has one, or STATUS_VEC asks for the vector (R331). -/
def buffered (c : Cmd) (o : OpInfo) : Bool := o.dir != 0 || bit c.flags 2

/-- Checks 1 to 4 of R331, of which the first that fails decides; check 4 is the gateway's for its own commands only, since a module
part makes it itself. -/
def State.headRefusal (s : State) (c : Cmd) (reserved : Nat) : Option Status :=
  match opInfo c.opcode with
  | none => some .invalidOpcode
  | some o =>
    let vec := bit c.flags 2
    let fieldsOk := reserved == 0 && bits c.flags 7 3 == 0 && (!vec || c.dest == 63) && (buffered c o || (c.bufAddr == 0 && c.bufLen == 0)) &&
      c.bufAddr % 4 == 0
    let islandOk := c.dest != 0 || (if c.target = 0 then o.target != 1 else o.target != 0 && c.target ≤ s.part.cellDies)
    if !fieldsOk then some .invalidField
    else if !(if c.dest = 63 then o.dir == 0 && o.broadcast else c.dest < max 1 s.chainParts) then some .invalidPosition
    else if !islandOk then some .invalidTarget
    else none

/-- The checks of R331 in their order, for a descriptor's sixty-four bytes; success answers the buffer's ranges. -/
def State.checkDescriptor (s : State) (c : Cmd) (reserved : Nat) (list : List Byte) : Status × List (Nat × Nat) :=
  match s.headRefusal c reserved with
  | some st => (st, [])
  | none =>
    if !((opInfo c.opcode).map (buffered c)).getD false then (if s.dupCid c then (.duplicateCid, []) else (.success, []))
    else
      match if bit c.flags 1 then listRanges list c.bufLen else some [(c.bufAddr, c.bufLen)] with
      | none => (.invalidLength, [])
      | some rs =>
        let total := rs.foldl (fun a r => a + r.2) 0
        if total = 0 || 16777216 < total || (bit c.flags 2 && c.bufLen != 128) then (.invalidLength, [])
        else if s.dupCid c then (.duplicateCid, [])
        else (.success, rs)

/-- The command of a descriptor as executors see it: its buffer is one range of the list's whole length. -/
def plainCmd (c : Cmd) (rs : List (Nat × Nat)) : Cmd :=
  if bit c.flags 1 then { c with flags := c.flags - 2, bufAddr := 0, bufLen := rs.foldl (fun a r => a + r.2) 0 } else c

/-- The list that the gateway reads for a descriptor: none without LIST, for an opcode that carries no buffer, for a length that no
list has, or where an earlier check fails (R330, R331). -/
def State.listAsked (s : State) (c : Cmd) (reserved : Nat) : Bool :=
  (s.headRefusal c reserved).isNone && bit c.flags 1 && ((opInfo c.opcode).map (buffered c)).getD false && c.bufLen % 16 == 0 &&
    decide (16 ≤ c.bufLen) && decide (c.bufLen ≤ 4096)

/-- The part asks the host for the bytes of some ranges (R330). -/
def State.readRanges (s : State) (rs : List (Nat × Nat)) : State := rs.foldl (fun s r => s.emit (.hostRead r.1 r.2)) s

/-- A fetched descriptor becomes a command in flight, or is completed at once with the status of the first failing
check (R331). Its list and its in-buffer are read; a command of which a read has not given every byte waits for the read to fail. -/
def State.takeDescriptor (s : State) (c : Cmd) (b list data : List Byte) : State :=
  let reserved := rd b 20 4
  let asked := s.listAsked c reserved
  let s := if asked then s.readRanges [(c.bufAddr, c.bufLen)] else s
  let ms := if c.timeout = 0 then ((opInfo c.opcode).map (·.timeout)).getD 0 else c.timeout
  let x : InFlight :=
    { cmd := c, fetched := s.now, timeoutMs := ms, cq := bits (s.hif.sqOf c.sq).cfg 15 12, reading := true,
      listAt := if asked then (c.bufAddr, c.bufLen) else (0, 0), started := false, ran := false, completed := false, ranges := [], votes := [],
      data := [] }
  let add := fun (s : State) (y : InFlight) => s.modHif fun h => { h with inflight := h.inflight ++ [y] }
  if asked && decide (list.length < c.bufLen) then add s x
  else
    let r := s.checkDescriptor c reserved list
    if r.1 = .success then
      let isIn := ((opInfo c.opcode).map (·.dir)).getD 0 == 1
      let total := r.2.foldl (fun a r => a + r.2) 0
      let s := if isIn then s.readRanges r.2 else s
      (add s { x with cmd := plainCmd c r.2, reading := isIn && decide (data.length < total), ranges := r.2,
                      data := if isIn then data.take total else [] }).startAll
    else
      let s := add s { x with reading := false }
      (s.queueCompletion { x with reading := false } c.dest 0 0 r.1.code).startAll

/-- DESCRIPTOR_FETCH (R331, R332): the SQ whose turn it is gives its next descriptor, with the list and the data of the
buffer that the part reads for it. Every fetched descriptor is a valid command of R218. -/
def execDescriptorFetch (t sq : Nat) (bytes listBytes data : List Byte) (s : State) : Outcome :=
  let s := s.at_ t
  .next (
    if !s.hifServes || s.hif.shutdown then s
    else
      match s.arbiter with
      | none => s
      | some a =>
        if a.1 ≠ sq then s
        else
          let q := s.hif.sqOf sq
          let n := s.hif.fetchNo
          let s := (s.putSq sq { q.step with readAt := t }).modHif fun h => { h with rrSq := sq, rrLeft := a.2, fetchNo := (n + 1) % 65536 }
          let s := s.emit (.hostRead (q.base + 64 * q.ptr) 64)
          let s := ({ s with power := { s.power with idleSince := t } }).noteValid
          s.takeDescriptor (cmdOf sq n bytes) bytes listBytes data)

/-- COMMAND_TIMEOUT (R334, R337). -/
def execCommandTimeout (t sq cid : Nat) (s : State) : Outcome :=
  let s := s.at_ t
  .next (
    match s.hif.inflight.find? fun x => x.cmd.sq == sq && x.cmd.cid == cid && !x.completed with
    | none => s
    | some x =>
      if t < x.fetched + x.timeoutMs * 1000000 then s
      else
        let s := if x.cmd.dest = 63 then s.finishBroadcast x else s.queueCompletion x x.cmd.dest 0 0 Status.timeout.code
        s.startAll)

/-! ### Entries written to host memory (R335, R336, R339 to R341) -/

/-- The completion of R335 as it is written. -/
def ComplWait.entry (w : ComplWait) (head : Nat) (phase : Bool) : List Byte :=
  le 2 w.cid ++ le 1 w.sq ++ le 1 w.origin ++ le 4 w.result ++ le 4 w.xfer ++ le 2 head ++ le 2 (w.status + 32768 * b2n phase)

/-- The oldest completion of a CQ written at its TAIL (R336). -/
def State.writeCompletion (s : State) (cq : Nat) (w : ComplWait) : State :=
  let q := s.hif.cqOf cq
  let s := s.emit (.hostWrite (q.base + 16 * q.ptr) (w.entry (s.hif.sqOf w.sq).ptr q.phase))
  let s := (s.putCq cq q.step).modHif fun h =>
    { h with cqWait := h.cqWait.erase w,
             inflight := h.inflight.eraseP fun x => x.completed && x.cmd.sq == w.sq && x.cmd.cid == w.cid && x.cmd.gen == w.gen }
  (s.signal (s.hif.cqOf cq) (State.putCq cq)).startAll

/-- An entry written to a ring: bytes 12 to 15 of its header after every other byte (R340). -/
def State.writeEntry (s : State) (addr : Nat) (head body last : List Byte) : State :=
  let s := s.emit (.hostWrite addr head)
  let s := if body.isEmpty then s else s.emit (.hostWrite (addr + 16) body)
  s.emit (.hostWrite (addr + 12) last)

/-- A claimed record written to its ring: a WRAP entry first where it does not fit before the end (R339, R340). -/
def State.writeStream (s : State) (w : StrWait) : State :=
  let q := s.hif.strOf w.ring
  let n := q.ringSize
  let need := entrySize w.bytes.length
  let wraps := n < q.ptr + need
  let rest := n - q.ptr
  let tag := fun (sub flags : Nat) (q : Queue) => le 1 sub ++ zeros 1 ++ le 2 (32768 * b2n q.phase + flags)
  let s := if wraps then s.writeEntry (q.base + q.ptr) (le 4 (rest - 16) ++ le 4 q.seq ++ le 4 0) [] (tag 0xFF 16384 q) else s
  let q := if wraps then { q with ptr := 0, phase := !q.phase, seq := (q.seq + 1) % 2 ^ 32 } else q
  let skipped := ((s.hif.subs.find? fun x => x.sub == w.sub).map (·.skipped)).getD 0
  let head := le 4 w.bytes.length ++ le 4 q.seq ++ le 4 skipped
  let s := s.writeEntry (q.base + q.ptr) head (w.bytes ++ zeros (need - 16 - w.bytes.length)) (tag w.sub 0 q)
  let p := (q.ptr + need) % n
  let q := { q with ptr := p, phase := if p = 0 then !q.phase else q.phase, seq := (q.seq + 1) % 2 ^ 32 }
  let mark := fun (x : StrWait) => if x = w then { x with writtenEnd := some p } else x
  let s := (s.putStr w.ring q).modHif fun h =>
    { h with strWait := h.strWait.map mark,
             subs := h.subs.map fun (x : Sub) => if x.sub = w.sub then { x with skipped := 0 } else x }
  s.signal (s.hif.strOf w.ring) (State.putStr w.ring)

/-- STREAM_ENTRY_WRITE (R340): the claimed record that has waited longest for a ring is written once it fits. -/
def execStreamEntryWrite (t ring : Nat) (ok : Bool) (s : State) : Outcome :=
  let s := s.at_ t
  .next (
    let q := s.hif.strOf ring
    if !s.hifServes || !q.serves then s
    else
      match s.hif.strWait.find? fun w => w.ring == ring && w.writtenEnd.isNone with
      | none => s
      | some w =>
        if !q.ringFits w.bytes.length then s
        else if !ok then (s.putStr ring { q with err := 2, active := false }).queueError 3 ring 2
        else (s.writeStream w).endClosed.checkDrain)

/-- An event entry as it is written, with PHASE and DELAYED; CHECK takes PHASE as 0 (R341). -/
def eventBytes (b : List Byte) (phase delayed : Bool) : List Byte :=
  let flags := rd b 3 1 % 64 + 64 * b2n delayed
  let body := b.take 3 ++ le 1 flags ++ slice b 4 24
  b.take 3 ++ le 1 (flags + 128 * b2n phase) ++ slice b 4 24 ++ le 4 (crc32c body)

/-- The oldest event entry written (R341, R293). -/
def State.writeEvent (s : State) (w : EvWait) : State :=
  let q := s.hif.eq
  let delayed := decide (w.since + 1000000000 < s.now)
  let s := s.emit (.hostWrite (q.base + 32 * q.ptr) (eventBytes w.bytes q.phase delayed))
  let s := (s.putEq q.step).modHif fun h =>
    { h with eqWait := h.eqWait.drop 1, eqDelayed := if delayed then satInc 16 h.eqDelayed else h.eqDelayed,
             delayedMinute := if delayed then h.delayedMinute + 1 else h.delayedMinute }
  let done := fun (r : Rec) => if some r.id = w.ref then { r with delivered := true } else r
  let s := { s with locus := { s.locus with recs := s.locus.recs.map done } }
  s.signal s.hif.eq State.putEq

/-- EVENT_ENTRY_WRITE (R341, R344): an entry that cannot be written stops the interface. -/
def execEventEntryWrite (t : Nat) (ok : Bool) (s : State) : Outcome :=
  let s := s.at_ t
  .next (
    match s.hif.eqWait with
    | [] => s
    | w :: _ =>
      if !s.hifServes || !s.hif.eq.serves || s.hif.eq.full then s
      else if !ok then s.hifFatal 2
      else (s.writeEvent w).checkDrain)

/-- A coalescing time runs out for a queue (R343). -/
def State.coalesced (s : State) (q : Queue) (put : Queue → State → State) : State :=
  match q.unsignalled with
  | none => s
  | some a =>
    if s.now < a + bits q.cfg 9 2 * 10000 then s else (put { q with unsignalled := none } s).raiseVector (bits q.cfg 15 10)

/-- INTERRUPT_COALESCE_EXPIRE (R343): of a CQ (0), the event queue (1) or a stream ring (2). -/
def execInterruptCoalesceExpire (t kind idx : Nat) (s : State) : Outcome :=
  let s := s.at_ t
  .next (
    if !s.hifServes then s
    else if kind = 0 then s.coalesced (s.hif.cqOf idx) (State.putCq idx)
    else if kind = 1 then s.coalesced s.hif.eq State.putEq
    else s.coalesced (s.hif.strOf idx) (State.putStr idx))

/-- MSIX_UNMASK (R343): a pending vector is sent when it is unmasked. -/
def execMsixUnmask (t vector : Nat) (s : State) : Outcome :=
  let s := s.at_ t
  .next (
    if !s.hifUp || 64 ≤ vector then s else s.unmask vector)

/-- EVENT_DELAY_REPORT (R342): each minute with delayed entries raises source 47 with their count. -/
def execEventDelayReport (t : Nat) (s : State) : Outcome :=
  let s := s.at_ t
  .next (
    if s.hif.delayedMinute = 0 then s
    else
      let n := min s.hif.delayedMinute 65535
      (s.modHif fun h => { h with delayedMinute := 0 }).event { source := 47, arg16 := n })

/-- An address lies in one of some ranges. -/
def inRanges (rs : List (Nat × Nat)) (a : Nat) : Bool := rs.any fun r => decide (r.1 ≤ a) && decide (a < r.1 + r.2)

/-- A buffer access of a command has failed (R342): source 45 names its SQ, its CID and the address of the access. -/
def State.dmaEvent (s : State) (sq cid addr : Nat) : State := s.event { source := 45, subkind := 1, item := sq, arg16 := cid, arg64 := addr }

/-- The read of a command's list or in-buffer has failed 50 ms after it was issued: DMA_ERROR (R319, R338). -/
def State.readFailed (s : State) (sq : Nat) (a : HostAccess) : State :=
  match s.hif.inflight.find? fun x => x.cmd.sq == sq && x.cmd.cid == a.cid && x.reading && !x.completed with
  | none => s
  | some x =>
    if s.now < x.fetched + readTimeout || !inRanges (if x.ranges.isEmpty then [x.listAt] else x.ranges) a.addr then s
    else ((s.dmaEvent sq a.cid a.addr).queueCompletion x x.cmd.dest 0 0 Status.dmaError.code).startAll

/-- A write to a command's buffer has failed: the completion, which is not written yet, becomes DMA_ERROR with no bytes moved (R338). -/
def State.writeFailed (s : State) (sq : Nat) (a : HostAccess) : State :=
  match s.hif.cqWait.find? fun w => w.sq == sq && w.cid == a.cid && w.xfer != 0 with
  | none => s
  | some w =>
    match s.hif.inflight.find? fun x => x.completed && x.cmd.sq == sq && x.cmd.gen == w.gen with
    | none => s
    | some x =>
      if !inRanges x.ranges a.addr then s
      else (s.modHif fun h => { h with
        cqWait := h.cqWait.map fun (y : ComplWait) => if y = w then { y with xfer := 0, status := Status.dmaError.code } else y }).dmaEvent sq a.cid a.addr

/-- HOST_READ_TIMEOUT (R319, R338, R344): a read of host memory has failed 50 ms after it was issued: the doorbell page (0), a
descriptor of an SQ (1), or the list or in-buffer of a command (2); or a write to the buffer of a command has failed (3). DESIGN
CHOICE, log entry 40. -/
def execHostReadTimeout (t what idx : Nat) (acc : HostAccess) (s : State) : Outcome :=
  let s := s.at_ t
  .next (
    if !s.hifServes then s
    else if what = 0 then
      (if s.hif.dbReading && decide (s.hif.lastPoll + readTimeout ≤ s.now) then
        (s.modHif fun h => { h with dbReading := false, dbAgain := false }).hifFatal 1 else s)
    else if what = 1 then
      let q := s.hif.sqOf idx
      if s.fetchable idx && !s.hif.shutdown && decide (q.readAt + readTimeout ≤ s.now) then
        ((s.putSq idx { q with err := 2, active := false }).queueError 1 idx 2).checkDrain else s
    else if what = 2 then (s.readFailed idx acc).checkDrain
    else s.writeFailed idx acc)

/-! ### Frames (R333, R341, R456) -/

/-- A module part ends a subscription that the gateway has closed (R362): nothing more is claimed for it. -/
def State.closeFor (s : State) (sub : Nat) : State :=
  match s.hif.subs.find? fun x => x.sub == sub with
  | none => s
  | some x => (s.modHif fun h => { h with subs := h.subs.filter fun y => y.sub != sub }).endSub x

/-- A part that a broadcast has asked for SLEEP or SHIP hears that the broadcast completion is written (R417). -/
def State.enterPend (s : State) : State :=
  match s.power.entryPend with
  | none => s
  | some target => if s.hosted then s else s.enterLow target

/-- COMMAND_FRAME_RECEIVE (R218, R333, R351): a command frame reaches this part, which wakes from DOZE and refreshes the
balance keep-alive; the command itself runs as its own step. -/
def execCommandFrameReceive (t : Nat) (bytes : List Byte) (s : State) : Outcome :=
  let s := s.at_ t
  let f := frameOf bytes
  .next (
    if !s.linkRuns || !s.isModule || f.tc != 1 || f.kind != 0x10 then s
    else
      let r := s.accept f
      if r.1 ≠ .deliver ∨ f.origin ≠ 0 then r.2
      else
        let a := r.2.assemble f
        match a.1 with
        | none => a.2
        | some b =>
          if b.take 1 = le 1 0x07 ∧ b.length = 2 then a.2.closeFor (rd b 1 1)
          else if b.take 1 = le 1 0x08 ∧ b.length = 13 then a.2.unclaimTo (rd b 1 1) (rd b 2 2) (rd b 4 1) (rd b 5 8)
          else if b.take 1 = le 1 0x0D ∧ b.length = 2 then a.2.enterPend
          else a.2.undoze.noteValid)

/-- A STREAM_OPEN refused by its part opens nothing. -/
def HifState.noteOpen (h : HifState) (x : InFlight) (status : Nat) : HifState :=
  if x.cmd.opcode = 0x06 ∧ status ≠ 0 then { h with subs := h.subs.filter fun y => y.sub != rd x.cmd.param 0 1 } else h

/-- What a completion says of the power state of its part (R351): an accepted SLEEP or SHIP. -/
def HifState.noteSleep (h : HifState) (x : InFlight) (pos status : Nat) : HifState :=
  let st := rd x.cmd.param 0 1
  if x.cmd.opcode = 0x0D ∧ status = 0 ∧ (st = 2 ∨ st = 3) then { h with asleep := (h.asleep.filter fun y => y.1 != pos) ++ [(pos, st)] } else h

/-- A part has returned PREPARED for the group commit that runs, in time for GO (R359). -/
def State.notePrepared (s : State) (sq cid pos : Nat) : State :=
  match s.cfg.group with
  | none => s
  | some g =>
    if g.cmd.sq ≠ sq ∨ g.cmd.cid ≠ cid ∨ g.tCommit < s.now + 5000000 ∨ g.prepared.contains pos then s
    else { s with cfg := { s.cfg with group := some { g with prepared := g.prepared ++ [pos] } } }

/-- COMPLETION_FRAME_RECEIVE (R333, R334, R336, R337): a completion of another part reaches the gateway. An arm instant that an
accepted edge has already answered, or passed by, gets no beacon more. DEDUCED, log entry 51. -/
def execCompletionFrameReceive (t : Nat) (bytes : List Byte) (s : State) : Outcome :=
  let s := s.at_ t
  let f := frameOf bytes
  .next (
    if !s.linkRuns || !s.isGateway || f.tc != 1 || f.kind != 0x11 then s
    else
      let r := s.accept f
      if r.1 ≠ .deliver then r.2
      else
        let a := r.2.assemble f
        match a.1 with
        | none => a.2
        | some b =>
          let s := a.2
          if rd b 14 2 = preparedCode then s.notePrepared (rd b 2 1) (rd b 0 2) (rd b 3 1)
          else if rd b 14 2 = armedCode then
            if s.sync.unanswered (rd b 4 8) then { s with sync := { s.sync with armed := s.sync.armed ++ [rd b 4 8] } } else s
          else if rd b 14 2 = disarmedCode then { s with sync := { s.sync with armed := s.sync.armed.erase (rd b 4 8) } }
          else
            let s := match s.hif.inflight.find? fun x => x.isFor (rd b 2 1) (rd b 0 2) (rd b 12 2) with
              | none => s
              | some x => s.modHif fun h => (h.noteSleep x (rd b 3 1) (rd b 14 2)).noteOpen x (rd b 14 2)
            (s.takeCompletion (rd b 2 1) (rd b 0 2) (rd b 12 2) (rd b 3 1) (rd b 4 4) (rd b 8 4) (rd b 14 2) (b.drop 16)).startAll)

/-- EVENT_FRAME_RECEIVE (R341, R456): the event of a module part waits for the event queue and is mirrored; one of source 50 that
says RUN also ends the wake of that part (R348, R351). -/
def execEventFrameReceive (t : Nat) (bytes : List Byte) (s : State) : Outcome :=
  let s := s.at_ t
  let f := frameOf bytes
  .next (
    if !s.linkRuns || !s.isGateway || f.tc != 1 || f.kind != 0x12 then s
    else
      let r := s.accept f
      if r.1 ≠ .deliver then r.2
      else
        let a := r.2.assemble f
        match a.1 with
        | none => a.2
        | some b =>
          let s := a.2.modHif fun h => { h with eqWait := h.eqWait ++ [{ bytes := b.take 32, since := t, ref := none }] }
          let s := if rd b 0 1 = 50 ∧ rd b 16 1 = 0 then (s.awake f.origin).startAll else s
          let n := s.drawBits 32
          n.2.blackBox 0x20 false (le 8 (n.2.identOf f.origin) ++ le 4 n.1 ++ le 1 0x10 ++ b.take 28))

end Sys2Proof.Machine
end

