-- ==== Sys2Proof/Machine/LocusCmds.lean ====
section
/-! DEFINITION. Locus: records that arrive, the writer, the storage die, spill and the placement of tasks (R288 to
R315, R494). -/

namespace Sys2Proof.Machine

/-- RECORD_ARRIVE (R294, R472): the oldest record that the die holds reaches the hub. One whose CHECK fails is asked
for once more; the second failure drops it. -/
def execRecordArrive (t k : Nat) (intact : Bool) (s : State) : Outcome :=
  let s := s.at_ t
  .next (s.onDie k fun d =>
    match d.t0 with
    | [] => s
    | x :: rest =>
      if !s.hubTakes k || !d.t0Events.isEmpty then s
      else if intact then
        (s.modDie k fun d => { d with t0 := rest, t0Retry := false }).place x.1 k x.2.1 x.2.2
      else if !d.t0Retry then
        (s.modDie k fun d => { d with t0Retry := true }).checkRejected
      else
        let s := s.modDie k fun d => { d with t0 := rest, t0Retry := false }
        s.dropRec (classOf x.1) x.1 k)

/-- What a die held for its hub, sent in order (R494). -/
def State.resend (s : State) (k : Nat) (d : Die) : State :=
  let tell := fun (s : State) (x : Nat × List Nat × List Byte) =>
    let e := x.2.1
    s.dieEventFull k { source := e.getD 0 0, subkind := e.getD 1 0, item := e.getD 2 0, arg16 := e.getD 3 0, arg64 := e.getD 4 0 }
      (e.getD 5 0) x.2.2
  (List.range (d.t0.length + 1)).foldl
    (fun s n =>
      let s := (d.t0Events.filter fun x => x.1 == n).foldl tell s
      match d.t0[n]? with
      | some x => s.place x.1 k x.2.1 x.2.2
      | none => s) s

/-- DIE_RECORD_RESEND (R494): the hub takes records again; what the die holds follows in order, then the count of
records dropped. -/
def execDieRecordResend (t k : Nat) (s : State) : Outcome :=
  let s := s.at_ t
  .next (s.onDie k fun d =>
    if !s.hubTakes k || !d.precOn then s
    else
      let s := s.modDie k fun d => { d with t0 := [], t0Drop := 0, t0Events := [], t0Retry := false }
      let s := s.resend k d
      if d.t0Drop = 0 then s else s.placement 0x15 0 0 0 d.t0Drop 0 0)

/-- UNIT_PROGRAM_COMPLETE (R294, R298, R300 to R303): the unit being programmed finishes, or fails and retires its block, and the
next one begins; at a part that spills, the holder took the unit or refused it (R305). -/
def execUnitProgramComplete (t group : Nat) (ok : Bool) (s : State) : Outcome :=
  let s := s.at_ t
  .next (
    match s.locus.progQ with
    | [] => s
    | u :: _ => if u.group ≠ group || (s.locus.busy.isNone && !s.writable) then s else s.programHead ok)

/-- D2_UNIT_CLOSE (R295): 10 s after the first record of the open D2 unit. -/
def execD2UnitClose (t : Nat) (s : State) : Outcome :=
  let s := s.at_ t
  .next (
    match s.locus.units.find? fun u => u.group == 1 with
    | none => s
    | some u => if u.firstAt + 10000000000 ≤ t ∧ s.writable then { s with locus := s.locus.closeUnit 1 } else s)

/-- BUCKET_ACCRUE (R300, R301): each second of pack time but in OFF. -/
def execBucketAccrue (t : Nat) (s : State) : Outcome :=
  let s := s.at_ t
  .next (
    if !s.part.store || s.power.st == 4 || t % 1000000000 != 0 then s
    else
      let l := s.locus
      let s := { s with locus := { l with bucket := min bucketCap (l.bucket + 509259), credit := if l.bucket ≤ 0 then l.credit + 509259 else 0 } }
      let s := s.bucketFlag.moveRetired
      s.startUnit s.admitsUnit)

/-- 2 to the power (T − 55 °C) / 10 °C (R303), T in 0.01 °C. -/
def ageFactor (temp : Int) : Rat :=
  let e := temp - 5500
  pow2 (e / 1000) * powFrac 2 (e % 1000).toNat 1000

/-- STORAGE_TEMP_SAMPLE (R302, R303): thermal ages grow, and the cold hold begins and ends; the unit being programmed still
finishes in it. -/
def execStorageTempSample (t : Nat) (temp : Int) (s : State) : Outcome :=
  let s := s.at_ t
  .next (
    if !s.part.store || s.power.st == 4 then s
    else
      let l := s.locus
      let da := ((t - l.tempAt : Nat) : Rat) / 3600000000000 * ageFactor temp
      let old := fun (b : Blk) => !b.overdue && decide (17520 < b.age + da)
      let rest := !l.restOverdue && decide (17520 < l.ageRest + da)
      let ages := (if rest then List.replicate (blockCount - l.blocks.length) (l.ageRest + da) else []) ++ (l.blocks.filter old).map fun b => b.age + da
      let blocks := l.blocks.map fun (b : Blk) => { b with age := b.age + da, overdue := b.overdue || old b }
      let s := { s with locus := { l with temp := temp, tempAt := t, ageRest := l.ageRest + da, restOverdue := l.restOverdue || rest, blocks := blocks } }
      let s := ages.foldl (fun s a => s.placement 0x17 0 0 0 a.floor 0 0) s
      if !s.locus.cold && decide (temp < -4000) then
        ({ s with locus := { s.locus with cold := true } }).placement 0x10 0 0 0 temp 0 0
      else if s.locus.cold && decide (-3800 ≤ temp) then
        let heldBytes := s.locus.stageD1 + s.locus.fill .buffer + s.locus.fill .capture
        (({ s with locus := { s.locus with cold := false } }).placement 0x11 0 0 0 heldBytes 0 0).moveRetired.writer
      else s)

/-- BLOCK_REFRESH (R303): the live records of a block go to a new block, charged to the bucket down to −1 GiB; the oldest
block comes first, and one of which a read has corrected more than 24 bits at any time. A block whose erase fails is retired (R298). -/
def execBlockRefresh (t block : Nat) (read : BlockRead) (s : State) : Outcome :=
  let s := s.at_ t
  .next (
    let b := s.locus.blk block
    let oldest := s.locus.blocks.all fun x => x.retired || x.used == 0 || decide (x.age ≤ b.age)
    if !s.part.store || s.locus.t3Fail || s.locus.cold || !s.inRun || b.retired || s.locus.busy == some block ||
        !((decide (8760 ≤ b.age) && oldest) || decide (24 < read.corrected)) ||
        decide (s.locus.bucket - s.locus.copyCost block < -1073741824) then s
    else
      match s.copyBlock block with
      | none => s
      | some s =>
        if !read.erased then (s.retireBlock block).bucketFlag.writer
        else
          let l := { s.locus with refreshed := satInc 16 s.locus.refreshed }
          (({ s with locus := l.erase block }).levelWear).bucketFlag.writer)

/-- STORAGE_DIE_FAIL (R304). -/
def execStorageDieFail (t : Nat) (s : State) : Outcome := .next ((s.at_ t).failStore)

/-- The holder is to be chosen (R305): there is none, an enumeration has ended, the path has been DOWN for 10 s, or three
units in a row were refused. -/
def State.holderCut (s : State) : Bool :=
  s.locus.holder.isNone || s.locus.holderDue || decide (3 ≤ s.locus.refusals) ||
    (match s.locus.cutAt with | some a => decide (a + 10000000000 ≤ s.now) | none => false)

/-- The nearer of two holders, the lower position at equal distance (R305). -/
def State.nearer (s : State) (best : Option (Nat × Nat)) (p : Nat) : Option (Nat × Nat) :=
  match s.hopsTo p with
  | none => best
  | some h =>
    match best with
    | none => some (p, h)
    | some b => if h < b.2 ∨ (h = b.2 ∧ p < b.1) then some (p, h) else best

/-- The holder that the part chooses among candidates: its position and distance (R305). -/
def State.nearestHolder (s : State) (candidates : List Nat) : Option (Nat × Nat) := candidates.foldl s.nearer none

/-- SPILL_HOLDER_RECHOOSE (R305): `candidates` are the positions that have a storage die, no T3_FAIL and room to
give. -/
def execSpillHolderRechoose (t : Nat) (candidates : List Nat) (s : State) : Outcome :=
  let s := s.at_ t
  .next (
    if !s.spills || !s.holderCut || !s.inRunDoze then s
    else
      let s := { s with locus := { s.locus with holderDue := false, cutAt := none } }
      match s.nearestHolder candidates with
      | some b =>
        (({ s with locus := { s.locus with holder := some b.1, refusals := 0 } }).placement 0x19 0 0 0 b.1 0 0).writer
      | none =>
        if s.locus.holder.isSome then ({ s with locus := { s.locus with holder := none, refusals := 0 } }).placement 0x1A 0 0 0 0 0 0
        else s)

/-- Retention of a class in ns; 0 where records are kept for good (R292). -/
def State.retention (s : State) (cls : Nat) : Nat :=
  match cls with
  | 1 => s.fF 0x13 0 4 31 16 * 86400000000000
  | 2 => s.fF 0x13 0 4 15 0 * 86400000000000
  | 3 => s.fF 0x13 0 8 15 0 * 3600000000000
  | _ => 0

/-- The retention of a record that is settled has expired (R292). -/
def State.expired (s : State) (r : Rec) : Bool :=
  r.settled && s.retention r.cls != 0 && decide (r.arrived + s.retention r.cls ≤ s.now)

/-- RECORD_RETENTION_EXPIRE (R292): settled records whose retention has expired are released. -/
def execRecordRetentionExpire (t : Nat) (s : State) : Outcome :=
  let s := s.at_ t
  .next { s with locus := { s.locus with recs := s.locus.recs.filter fun r => !s.expired r } }

/-- Bytes that the part holds for other parts (R306). -/
def LocusState.spilled (l : LocusState) : Nat := l.recs.foldl (fun n r => if r.owner = 0 then n else n + r.bytes.length) 0

/-- Room for bytes of another part within SPILL_QUOTA, made by evicting that source's settled records in the order of R293
(R306); none where there is none to make. -/
def State.ownerRoom (s : State) (owner n : Nat) : Nat → Option State
  | 0 => none
  | fuel + 1 =>
    if s.locus.spilled + n ≤ s.fF 0x13 0 8 31 16 * 67108864 then some s
    else
      match s.evictFirst (s.locus.recs.filter fun r => r.owner == owner) with
      | none => none
      | some v => (s.evict v).ownerRoom owner n fuel

/-- A record of another part taken by its holder (R306): its class, stream and time come before its bytes. -/
def State.takeSpill (s : State) (owner : Nat) (x : List Byte) : State :=
  let body := x.drop 12
  if !s.t3Usable then s
  else
    match (s.ownerRoom owner body.length (s.locus.recs.length + 1)).bind fun s => s.tierFor 2 body.length with
    | none => s
    | some r =>
      let l := r.2.locus
      let y : Rec :=
        { id := l.nextId, cls := rd x 0 1, recType := rd x 1 2, src := rd x 3 1, owner := owner, time := rd x 4 8, arrived := s.now,
          bytes := body, tier := .buffer, blocks := [], copies := 0, inUnit := false, claims := [], delivered := false }
      ({ r.2 with locus := { l with recs := l.recs ++ [y], nextId := l.nextId + 1 } }).writer

/-- A holder gives back what it keeps of a stream of another part (R305): each record with its time and length. -/
def State.answerHolder (s : State) (pos owner recType src : Nat) : State :=
  let mine := s.locus.recs.filter fun r => r.owner == owner && r.recType == recType && r.src == src
  s.originate 2 0x20 pos (le 2 0xFFFD ++ le 2 recType ++ le 1 src ++ mine.flatMap fun r => le 8 r.time ++ le 4 r.bytes.length ++ r.bytes)

/-- The records of a holder's answer, by time. -/
def heldRecords : Nat → List Byte → List (Nat × List Byte)
  | 0, _ => []
  | n + 1, b => if b.length < 12 then [] else (rd b 0 8, slice b 12 (rd b 8 4)) :: heldRecords n (b.drop (12 + rd b 8 4))

/-- A holder's answer reaches the part that reads (R305): the commands that have all they wait for complete. -/
def State.takeHeld (s : State) (pos : Nat) (b : List Byte) : State :=
  let mine := fun (x : HolderRead) => rd x.cmd.param 4 2 == rd b 2 2 && streamSrc x.cmd == rd b 4 1
  let add := fun (x : HolderRead) =>
    if mine x && x.waits.contains pos then { x with waits := x.waits.erase pos, got := x.got ++ heldRecords b.length (b.drop 5) } else x
  let l := s.locus.reads.map add
  let s := { s with locus := { s.locus with reads := l.filter fun x => !x.waits.isEmpty } }
  (l.filter fun x => x.waits.isEmpty).foldl (fun s x => s.finishRead x.cmd x.lost x.got) s

/-- RECORD_FRAME_RECEIVE (R294, R305, R306): at the gateway a claimed record of a module part; at a holder a spilled record,
marked 0xFFFF and the identity of its source, or a read of what it holds, marked 0xFFFE; at the source the holder's answer, marked
0xFFFD. No rule lays out these marks. DESIGN CHOICE, log entry 13. -/
def execRecordFrameReceive (t : Nat) (bytes : List Byte) (s : State) : Outcome :=
  let s := s.at_ t
  let f := frameOf bytes
  let r := s.accept f
  .next (
    if r.1 ≠ .deliver ∨ !(f.tc == 2 || f.tc == 3) then r.2
    else
      let a := r.2.assemble f
      match a.1 with
      | none => a.2
      | some b =>
        let s := a.2
        if rd b 0 2 = 0xFFFF then s.takeSpill (rd b 2 8) (b.drop 10)
        else if rd b 0 2 = 0xFFFE then s.answerHolder f.origin (rd b 2 8) (rd b 10 2) (rd b 12 1)
        else if rd b 0 2 = 0xFFFD then s.takeHeld f.origin b
        else if s.isGateway && rd b 0 2 == 0x0D01 then
          s.blackBox 0x20 false (slice b 256 8 ++ slice b 4 4 ++ slice b 2 1 ++ slice b 24 120)
        else if s.isGateway then
          let ty := rd b 0 2
          let src := if ty = 0x0B01 then 0 else rd b 3 1
          if s.hif.subs.any fun x => x.selects (s.identOf f.origin) ty src (rd b 8 8) then (s.claimAll f.origin ty src (rd b 8 8) (classOf ty) b none).2
          else s.originate 1 0x10 f.origin (le 1 0x08 ++ le 1 0xFF ++ le 2 ty ++ le 1 src ++ slice b 8 8)
        else s)

/-! ### Where the work runs (R307 to R310) -/

/-- The hub runs the task of a die. -/
def Die.onHub (d : Die) (task : Nat) : Bool := if task = 1 then d.imp.onHub else d.est.onHub

/-- The projected load of the inner link that a die uses is at least 80 % of 2.42 Gbit/s, and the die has an open fast
stream with STREAM_DECIM 1 (R307). -/
def State.rawLoad (s : State) (k : Nat) (d : Die) : Bool :=
  let rate := s.islands.foldl
    (fun (q : Rat) j =>
      match s.die? j with
      | none => q
      | some e =>
        let dec := s.fF 0x02 j 0 31 16
        if e.fast.streams = [] ∨ dec = 0 ∨ s.dieVia j ≠ s.dieVia k then q else q + (416 : Rat) / (dec : Rat)) 0
  !d.fast.streams.isEmpty && s.fF 0x02 k 0 31 16 == 1 && decide (1936 ≤ rate)

/-- One die evaluated (R308). `load` is its busy fraction and `cluster` the cluster load, both in percent. -/
def State.evaluateDie (s : State) (k : Nat) (load cluster : Rat) : State :=
  s.onDie k fun d =>
    let ctrl := s.regF 0x13 0 0
    let hot := decide (11000 ≤ d.prec.temp)
    let run := if (bits ctrl 31 24 : Nat) < load then d.busyRun + 1 else 0
    let busy := decide (3 ≤ run)
    let raw := s.rawLoad k d
    let derated := s.locus.clusterDerated
    let cost := fun (task : Nat) => match d.costs.getD (task - 1) none with | some c => c.1 | none => 10
    let dieCost := fun (task : Nat) => match d.costs.getD (task - 1) none with | some c => c.2 | none => 0
    let pend := fun (task : Nat) => d.movePend.any fun x => x.1 == task
    let fits := fun (task : Nat) => decide (cluster + cost task ≤ 85) && !derated
    let reason := fld 7 1 (b2n hot) + fld 6 1 (b2n busy) + fld 5 1 (b2n raw)
    let out := [1, 2].find? fun task => !d.onHub task && !pend task && (hot || busy || raw) && fits task
    let suspend := !d.onHub 1 && !pend 1 && hot && !d.imp.suspended && out != some 1
    let calmNow := fun (task : Nat) => decide (d.prec.temp ≤ 10000) && decide (load + dieCost task < (bits ctrl 23 16 : Nat)) && !raw
    let dwell := bits ctrl 15 8 * 1000000000
    let since := [1, 2].map fun task => if calmNow task then some ((d.calmSince.getD (task - 1) none).getD s.now) else none
    let calmFor := fun (task : Nat) => match since.getD (task - 1) none with | some a => decide (a + dwell ≤ s.now) | none => false
    let forced := derated || decide (95 < cluster)
    let back := if out.isSome then none else [2, 1].find? fun task =>
      d.onHub task && !pend task && !hot &&
        (forced || (calmFor task && decide ((d.movedAt.getD (task - 1) 0) + dwell ≤ s.now)))
    let backReason := fun (task : Nat) => fld 4 1 (b2n (calmFor task)) + fld 3 1 (b2n forced)
    let resume := d.imp.suspended && (!hot || fits 1)
    let s := s.modDie k fun d =>
      let moves := (match out with | some x => [(x, reason, (cluster * 100).floor)] | none => []) ++
        (match back with | some x => [(x, backReason x, (load * 100).floor)] | none => [])
      { d with busyRun := run, calmSince := since, movePend := d.movePend ++ moves }
    let s := if suspend then
        let s := (s.modDie k fun d => { d with imp := { d.imp.restart with suspended := true } }).stopInjection k
        s.placement 0x03 k 1 reason 0 0 0
      else s
    if resume then
      let s := s.modDie k fun d => { d with imp := { d.imp with suspended := false } }
      s.placement 0x04 k 1 reason 0 0 0
    else s

/-- LOCUS_EVALUATE (R307, R308, R316): at each whole second the fields in force are taken and every die is evaluated;
with MIG_EN 0 every task returns to its die, and none that was to leave it does. -/
def execLocusEvaluate (t : Nat) (load : List Rat) (cluster : Rat) (s : State) : Outcome :=
  let s := s.at_ t
  .next (
    if t % 1000000000 ≠ 0 || !s.inRunDoze || !s.part.serving || s.part.hubHeld then s
    else
      let s := s.adoptLocus
      if s.fB 0x13 0 0 2 then s.islands.foldl (fun s k => s.evaluateDie k (load.getD (k - 1) 0) cluster) s
      else
        let waits := s.islands.filter fun k => ((s.die? k).map fun d => d.imp.suspended).getD false
        let s := s.modDies fun k d =>
          let back := [1, 2].filter fun task => d.onHub task
          { d with movePend := back.map fun x => (x, 0, (load.getD (k - 1) 0 * 100).floor), imp := { d.imp with suspended := false } }
        waits.foldl (fun s k => s.placement 0x04 k 1 0 0 0 0) s)

/-- A boundary of a task: a band-H hop boundary for impedance (R147), a charge-block boundary for the estimator (R167). -/
def State.taskBoundary (s : State) (task : Nat) : Bool :=
  if task = 1 then s.now % bandHop 2 == 0 else s.now % 100000000 == 0

/-- TASK_MOVE (R309): at the task's next boundary its state crosses the inner link; a move that cannot complete waits
for the next one. The loads measured of a task that moves to the hub, which R308 uses, are free. DESIGN CHOICE, log entry 6. -/
def execTaskMove (t k task : Nat) (complete : Bool) (s : State) : Outcome :=
  let s := s.at_ t
  .next (s.onDie k fun d =>
    match d.movePend.find? fun x => x.1 == task with
    | none => s
    | some x =>
      if !complete || !s.hubTakes k || !s.taskBoundary task then s
      else
        let toHub := !d.onHub task
        let load := s.drawRats 2
        let s := if toHub then load.2 else s
        let s := s.modDie k fun d =>
          let d := { d with movePend := d.movePend.filter (fun y => y.1 != task), movedAt := setNth (task - 1) t d.movedAt,
                            costs := if toHub then setNth (task - 1) (some (load.1.getD 0 0, load.1.getD 1 0)) d.costs else d.costs }
          if task = 1 then { d with imp := { d.imp with onHub := toHub, moved := true } }
          else { d with est := { d.est with onHub := toHub, moved := true } }
        s.placement (if toHub then 0x01 else 0x02) k task x.2.1 x.2.2 0 0)

end Sys2Proof.Machine
end

