-- ==== Sys2Proof/Machine/Power.lean ====
section
/-! DEFINITION. The power block's happenings: inputs, rails, HOLD, sequences, DOZE, waking, RST_N, and the power of the
cell dies' domains (R279, R392 to R423, R495), with the completion that an entry to SLEEP or SHIP waits for (R336,
R347). -/

namespace Sys2Proof.Machine

/-! ### Inputs (R394, R395, R410) -/

/-- A voltage as V_AUX and V_HV show it, 10 mV per LSB (R423). -/
def tenMv (v : Rat) : Nat := min 65535 (roundAway (v * 100)).toNat

/-- The measured value of an input noted. -/
def State.noteInput (s : State) (which : Nat) (v : Rat) : State :=
  s.modPower fun p => if which = 0 then { p with vAux := tenMv v } else { p with vHv := tenMv v }

/-- An input becomes valid or invalid. -/
def State.setInput (s : State) (which : Nat) (ok : Bool) : State :=
  s.modPower fun p => if which = 0 then { p with vauxOk := ok } else { p with vinOk := ok }

/-- The voltage lies in the band in which an input becomes valid (R394). -/
def inputRises (which : Nat) (v : Rat) : Bool :=
  if which = 0 then decide (77 / 10 ≤ v) && decide (v ≤ 38) else decide (58 / 10 ≤ v) && decide (v ≤ 125)

/-- The voltage lies where an input becomes invalid (R394). -/
def inputFalls (which : Nat) (v : Rat) : Bool :=
  if which = 0 then decide (v ≤ 72 / 10) || decide (38 < v) else decide (v ≤ 54 / 10) || decide (125 < v)

/-- INPUT_VALID (R394, R395, R412, R416): VAUX (0) or VIN_HV (1) has stayed in its band for 1 ms; the off time of a restart
counts from the instant from which an input is valid, and VAUX becoming valid is a wake source. -/
def execInputValid (t which : Nat) (v : Rat) (s : State) : Outcome :=
  let s := s.at_ t
  .next (
    if 1 < which || !inputRises which v then s
    else
      let first := !s.inputOk
      let rise := which = 0 && !s.power.vauxOk
      let s := ((s.noteInput which v).setInput which true).chooseSrc
      let s := if first then s.modPower fun p => { p with restartAt := p.restartAt.map fun a => max a (t + restartWait p.restartIdx) } else s
      let s := s.evalOuts
      if rise && s.power.st == 2 then s.wake 8 else s)

/-- No input is valid any more (R409, R410): in RUN or DOZE a warning is raised; a sequence, or a hub held in reset, goes
on to OFF. -/
def State.inputsGone (s : State) (which : Nat) : State :=
  if s.inRunDoze && s.part.serving then s.raiseWarning (14 + which)
  else if s.power.seqDir = 0 && (s.power.st == 2 || s.power.st == 3 || (s.rail 1).st == 0) then s
  else
    let entry := (s.power.st == 2 || s.power.st == 3) && s.power.seqDir == 2
    let s := { s with part := { s.part with hubHeld := false } }
    (s.modPower fun p => { p with timed := p.timed || entry }).startDown 4

/-- INPUT_INVALID (R394, R395, R410): an input has left its valid band for 20 µs. DEDUCED, log entry 39. -/
def execInputInvalid (t which : Nat) (v : Rat) (s : State) : Outcome :=
  let s := s.at_ t
  .next (
    if 1 < which || !inputFalls which v then s
    else
      let was := if which = 0 then s.power.vauxOk else s.power.vinOk
      let s := (((s.noteInput which v).setInput which false).chooseSrc).evalOuts
      if was && !s.inputOk then s.inputsGone which else s)

/-! ### Rails (R398 to R400) -/

/-- A slice tests the rail supervisors (R461): what they show is judged at its end. -/
def State.supervisorsTested (s : State) : Bool := ((s.selfTest[0]?).bind (·.slice)).any fun x => x.1 == 0x1101

/-- RAIL_FAULT (R399, R400): 1 under-voltage, 2 over-voltage or 3 over-current of a running rail; on HOLD a stop of the
charger above its limit counts as over-voltage (R401). -/
def execRailFault (t rail kind : Nat) (s : State) : Outcome :=
  let s := s.at_ t
  .next (
    if kind = 0 || 3 < kind || 13 < rail then s
    else if s.supervisorsTested then s.modPower fun p => { p with heldFaults := p.heldFaults ++ [(rail, kind)] }
    else s.judgeFault rail kind)

/-- RAIL_RETRY (R400): VRF, VPHY and VNAND once after 1 s, a VEXT rail after EXT_RETRY seconds each time. -/
def execRailRetry (t rail : Nat) (s : State) : Outcome :=
  let s := s.at_ t
  .next (
    let r := s.rail rail
    let load := rail = 6 || rail = 8 || rail = 9
    let ext := 10 ≤ rail && rail ≤ 12
    let wait := if load then 1000000000 else s.pwF 8 31 16 * 1000000000
    if r.st ≠ 4 || !(load || ext) || (load && r.retried) || t < r.faultAt + wait || !s.inRunDoze || !s.part.serving || s.power.warnAt.isSome then s
    else s.modRail rail fun r => { r with st := 1, retried := true })

/-- RAIL_COUNTER_COPY (R399): every hour of RUN. -/
def execRailCounterCopy (t : Nat) (s : State) : Outcome :=
  let s := (s.at_ t).accrueTest
  .next (
    if !s.inRun || !s.part.serving || s.power.warnAt.isSome || s.runClock < s.power.copyRun + 3600000000000 then s
    else (s.modPower fun p => { p with copyRun := s.runClock }).copyCounters)

/-! ### HOLD (R401, R402) -/

/-- HOLD_CHARGED (R401, R402): HOLD has reached HOLD_V − 0.2 V. -/
def execHoldCharged (t mv : Nat) (s : State) : Outcome :=
  let s := s.at_ t
  .next (
    if !s.holdEn || !s.inRunDoze || s.power.holdOk || (s.rail 13).st == 0 || mv + 200 < s.holdMv then s
    else
      let again := s.power.holdReported
      let s := s.modPower fun p => { p with holdOk := true, holdDone := true, holdReported := false, vHold := mv }
      let s := (s.modRail 13 fun r => { r with st := 2 }).setHoldEff
      if again then s.event { source := 53, subkind := 2 } else s)

/-- HOLD_LOW (R401): HOLD has fallen below HOLD_V − 0.5 V while charging is allowed. -/
def execHoldLow (t mv : Nat) (s : State) : Outcome :=
  let s := s.at_ t
  .next (
    if !s.holdEn || !s.inRunDoze || !s.power.holdOk || s.holdMv ≤ mv + 500 then s
    else ((s.modPower fun p => { p with holdOk := false, vHold := mv }).setHoldEff).countRail 13 1)

/-- HOLD_CHARGE_TIMEOUT (R402): HOLD_OK has not set 60 s after VSYS came into regulation. -/
def execHoldChargeTimeout (t : Nat) (s : State) : Outcome :=
  let s := s.at_ t
  .next (
    if !s.holdEn || !s.inRunDoze || s.power.holdDone || t < s.power.vsysAt + 60000000000 then s
    else
      let s := s.modPower fun p => { p with holdDone := true, holdReported := true }
      (s.event { source := 53, subkind := 1 }).countRail 13 4)

/-! ### Sequences (R406 to R409, R412, R418) -/

/-- POWER_UP_SEQUENCE (R399, R406, R418): from OFF with a valid input; the strap is read, and a part with its SHIP mark
set returns to SHIP. -/
def execPowerUpSequence (t : Nat) (strap : List Nat) (s : State) : Outcome :=
  let s := s.at_ t
  .next (
    let p := s.power
    if p.st ≠ 4 || p.seqDir ≠ 0 || !s.inputOk || p.restartAt.isSome || p.retryAt.isSome || p.rstHeld || s.part.hubHeld || s.part.serving then s
    else
      let load := fun (x : Rail × Nat) =>
        let c := p.copies.getD x.2 (0, 0, 0, 0)
        { x.1 with uv := c.1, ov := c.2.1, oc := c.2.2.1, tmo := c.2.2.2 }
      let s := (s.takeStrap strap).modPower fun p =>
        { p with rails := p.rails.zipIdx.map load, startBy := 0, lastWake := 1, lastReset := if p.timed then 3 else 0, dozeTgt := false, attempts := 0 }
      if s.power.shipMark then (s.modRail 0 fun r => { r with st := 2 }).modPower fun p => { p with st := 3, lastSt := 3, sleepAt := t }
      else s.startUp)

/-- A rail is up; with VSYS up the hold capacitor charges (R402). -/
def State.railUp (s : State) (t rail : Nat) : State :=
  let s := s.modRail rail fun r => { r with st := 2 }
  if rail = 1 then
    let s := s.modPower fun p => { p with vsysAt := t, holdDone := p.holdOk }
    if s.holdEn then s.modRail 13 fun r => { r with st := if s.power.holdOk then 2 else 1 } else s
  else s

/-- RAIL_IN_REGULATION (R406, R408, R409): the ramp of a rail ends; power-up goes on, turns round, or is complete. -/
def execRailInRegulation (t rail bist : Nat) (s : State) : Outcome :=
  let s := s.at_ t
  .next (
    if (s.rail rail).st ≠ 1 || rail = 13 then s
    else
      let s := s.railUp t rail
      if s.power.seqDir ≠ 1 || s.power.seqRail ≠ rail then s
      else if s.power.seqTo ≠ 0 then s.turnDown s.power.seqTo
      else if s.nextRail.isSome then s.enableNext
      else s.hubStart bist)

/-- RAIL_RAMP_TIMEOUT (R399, R408): a rail misses its ramp limit. After three failed attempts the part enters SLEEP. -/
def execRailRampTimeout (t rail : Nat) (s : State) : Outcome :=
  let s := s.at_ t
  .next (
    if (s.rail rail).st ≠ 1 || rail = 13 then s
    else
      let s := s.countRail rail 4
      if s.power.seqDir ≠ 1 || s.power.seqRail ≠ rail then s.railAct rail
      else
        let n := s.power.attempts + 1
        if 3 ≤ n then
          let s := s.modPower fun p =>
            { p with attempts := 0, st := if p.seqTo ≤ 2 then 2 else p.st, lastSt := if p.seqTo ≤ 2 then 2 else p.lastSt, sleepAt := t }
          s.turnDown 2
        else (s.modPower fun p => { p with attempts := n }).turnDown 1)

/-- POWER_UP_RETRY (R408, R409): the wait before a further power-up has run out. -/
def execPowerUpRetry (t : Nat) (s : State) : Outcome :=
  let s := s.at_ t
  .next (
    match s.power.retryAt with
    | none => s
    | some a =>
      if t < a || s.power.rstHeld || !s.inputOk || s.power.seqDir ≠ 0 then s
      else (s.modPower fun p => { p with lastReset := if 0 < p.attempts then 4 else p.lastReset }).startUp)

/-- RAIL_DISCHARGED (R407): a rail is below 10 % of nominal, or 2 ms have passed. -/
def execRailDischarged (t rail : Nat) (timedOut : Bool) (s : State) : Outcome :=
  let s := s.at_ t
  .next (
    if (s.rail rail).st ≠ 3 then s
    else
      let s := s.modRail rail fun r => { r with st := 0 }
      let s := if timedOut then s.countRail rail 5 else s
      if s.power.seqDir = 2 && s.power.seqRail == rail then s.downStep else s)

/-- POWER_FAIL_WARNING (R410, R411): what the warning that has been raised does. -/
def execPowerFailWarning (t item : Nat) (s : State) : Outcome :=
  let s := s.at_ t
  .next (
    if !s.inRunDoze || !s.part.serving || s.power.warnAt.isSome || s.power.warnItem ≠ some item then s else s.warn item)

/-- HOLD_TIME_EXPIRE (R411): HOLD_EFF after the warning the descending sequence starts; a swap of that very instant is torn (R356). -/
def execHoldTimeExpire (t : Nat) (s : State) : Outcome :=
  let s := s.at_ t
  .next (
    match s.power.warnAt with
    | none => s
    | some a => if t < a + s.power.holdEff * 1000000 || !s.part.serving then s
      else ((({ s with cfg := s.cfg.tear t }).hubStop false).diesCutOff).startDown 4)

/-- SHUTDOWN_RESTART (R412): the off time that follows a timed shutdown has run out with an input valid; power-up may
start. -/
def execShutdownRestart (t : Nat) (s : State) : Outcome :=
  let s := s.at_ t
  .next (
    match s.power.restartAt with
    | none => s
    | some a => if t < a || !s.inputOk then s else s.modPower fun p => { p with restartAt := none })

/-! ### DOZE (R414) -/

/-- A die keeps the part in RUN: a capture, a stream, impedance, or a task that is not on it. -/
def State.dieBusy (s : State) (k : Nat) : Bool :=
  match s.die? k with
  | none => false
  | some d => d.fast.cap.isSome || !d.fast.streams.isEmpty || s.impEn k || d.imp.onHub || d.est.onHub || !d.movePend.isEmpty

/-- Every condition of R414 holds. -/
def State.dozeMay (s : State) : Bool :=
  let h := s.hif
  let hostIdle := !s.hosted || (h.inflight.isEmpty && h.cqWait.isEmpty && h.eqWait.isEmpty && h.strWait.all fun w => w.writtenEnd.isSome)
  let cmds := s.cfg.pend.isNone && s.cfg.waiting.isEmpty && s.cfg.group.isNone && (s.swp.all fun x => x.cmds.isEmpty && x.runs.isEmpty) && s.trust.stmtWait.isEmpty &&
    s.link.enumCmd.isNone && s.cfg.policies.isEmpty && s.locus.reads.isEmpty
  let fw := s.trust.act.isNone && s.trust.staging.all fun x => x.total == 0 || x.whole
  s.islands.all (fun k => !s.dieBusy k) && hostIdle && cmds && fw && ((s.selfTest[0]?).bind (·.slice)).isNone

/-- The target is DOZE. -/
def State.dozeTarget (s : State) : Bool := s.power.dozeTgt || s.fB 0x15 0 0 11

/-- DOZE_ENTER (R404, R414): the conditions have held for DOZE_IDLE ms. -/
def execDozeEnter (t : Nat) (s : State) : Outcome :=
  let s := s.at_ t
  .next (
    if !s.inRun || !s.part.serving || s.power.warnItem.isSome || !s.dozeTarget then s
    else if !s.dozeMay then s.modPower fun p => { p with idleSince := t }
    else if t < s.power.idleSince + s.pwF 0 31 24 * 1000000 then s
    else
      s.doze)

/-- DOZE_EXIT (R414): a condition is broken, or the target is no longer DOZE. -/
def execDozeExit (t : Nat) (s : State) : Outcome :=
  let s := s.at_ t
  .next (if s.power.st = 1 && s.part.serving && (!s.dozeMay || !s.dozeTarget) then s.undoze else s)

/-! ### Waking (R279, R415, R416) -/

/-- The SLEEP_TIMER has run out (R416). -/
def State.sleepTimerDone (s : State) : Bool := decide (s.power.sleepAt + s.pwF 0xC 31 16 * 1000000000 ≤ s.now)

/-- WAKE_SOURCE (R416): a wake source by its code; the timer is one once it has run out. -/
def execWakeSource (t code : Nat) (s : State) : Outcome :=
  let s := s.at_ t
  .next (if code = 0xA && !s.sleepTimerDone then s else s.wake code)

/-- SLEEP_TIMER_EXPIRE (R416): SLEEP_TIMER seconds after entry. -/
def execSleepTimerExpire (t : Nat) (s : State) : Outcome :=
  let s := s.at_ t
  .next (if s.power.st = 2 && s.sleepTimerDone then s.wake 0xA else s)

/-- AON_SUPPLY_LOSS (R415, R418): the supply of VAON is gone in SLEEP or SHIP: the part is OFF, without a warning. -/
def execAonSupplyLoss (t : Nat) (s : State) : Outcome :=
  let s := s.at_ t
  .next (
    if !(s.power.st == 2 || s.power.st == 3) || s.inputOk then s
    else s.tearWrites.modPower fun p =>
      { p with st := 4, rails := p.rails.map fun (r : Rail) => { r with st := 0 }, seqDir := 0, seqTo := 0, retryAt := none, restartAt := none,
               wakePend := false, holdOk := false, holdEff := 1, holdReported := false, vHold := 0, downAt := t })

/-- SLEEP_LISTEN_WINDOW (R279): every 100 ms a port whose hop was UP listens for 200 µs. -/
def execSleepListenWindow (t : Nat) (side : Side) (s : State) : Outcome :=
  let s := s.at_ t
  .next (
    let p := s.port side
    if s.power.st ≠ 2 || !p.listens || t < p.listenAt + 100000000 then s else s.modPort side fun p => { p with listenAt := t })

/-- WAKE_RUN_RECEIVE (R279): a run of wake codewords of at least 101 ms; the part sends it on from its other port. -/
def execWakeRunReceive (t : Nat) (side : Side) (durationNs : Nat) (s : State) : Outcome :=
  let s := s.at_ t
  .next (
    if s.power.st ≠ 2 || !(s.port side).listens || durationNs < 101000000 || !s.mayWake 2 then s
    else (s.wake 2).emit (.wakeRun side.other))

/-- The keying pattern of a long beacon (R279), first bit first. -/
def beaconPattern : List Bool :=
  [true, false, true, true, false, false, true, false, true, true, true, false, false, false, false, true]

/-- The pattern, repeated, stands in the bits from some phase on, for 100 ms at 1 ms per bit (R279). -/
def isLongBeacon (bits : List Bool) : Bool :=
  decide (100 ≤ bits.length) &&
    (List.range 16).any fun ph => (bits.zipIdx.all fun x => x.1 == beaconPattern.getD ((x.2 + ph) % 16) false)

/-- LONG_BEACON_DETECT (R279, R416): a part woken from SHIP sends a long beacon from its other port once its radio is up. -/
def execLongBeaconDetect (t : Nat) (side : Side) (bits : List Bool) (s : State) : Outcome :=
  let s := s.at_ t
  .next (
    if !isLongBeacon bits || !s.mayWake 3 then s
    else
      let ship := s.power.st == 3
      let s := s.wake 3
      if ship then { s with link := { s.link with relay := some side.other } } else s)

/-! ### RST_N (R419, R420) -/

/-- RST_N_ASSERT (R25, R409, R419): RST_N has been low for 10 µs. DEDUCED, log entry 39. -/
def execRstNAssert (t : Nat) (s : State) : Outcome :=
  let s := s.at_ t
  .next (
    if s.power.rstIgnored || s.power.rstHeld then s
    else
      let s := s.modPower fun p => { p with rstHeld := true, rstAt := t }
      if s.warned then s
      else if s.part.serving then
        (((s.hubStop false).diesCutOff).modPower fun p => { p with startBy := if p.startBy = 0 then 0 else 1 }).startDown 1
      else if s.part.hubHeld then
        let s := { s with part := { s.part with hubHeld := false } }
        (s.modPower fun p => { p with startBy := if p.startBy = 0 then 0 else 1 }).startDown 1
      else if s.power.seqDir = 1 then s.startDown 1
      else s)

/-- The reset is over (R409, R419): the part powers up to RUN, after the minimum off time. -/
def State.endReset (s : State) (cause : Nat) (strap : List Nat) : State :=
  let s := s.modPower fun p => { p with rstHeld := false }
  if s.warned || s.power.seqTo = 4 || (s.power.st = 4 && s.power.retryAt.isNone && s.power.seqDir = 0) then s
  else
    let s := (s.takeStrap strap).modPower fun p =>
      { p with lastReset := cause, startBy := if p.startBy = 0 then 0 else cause, shipMark := false }
    if s.power.st = 2 ∨ s.power.st = 3 then s.wake 0xB
    else if s.power.seqDir ≠ 0 then s
    else
      let at_ := max s.now (s.power.downAt + 10000000)
      if at_ ≤ s.now && s.inputOk then s.startUp else s.modPower fun p => { p with retryAt := some at_ }

/-- RST_N_RELEASE (R20, R419): the rising edge of RST_N. -/
def execRstNRelease (t : Nat) (strap : List Nat) (s : State) : Outcome :=
  let s := s.at_ t
  .next (if s.power.rstHeld then s.endReset 1 strap else s)

/-- RST_N_STUCK (R420): RST_N has stayed low for 30 s. -/
def execRstNStuck (t : Nat) (strap : List Nat) (s : State) : Outcome :=
  let s := s.at_ t
  .next (
    if !s.power.rstHeld || t < s.power.rstAt + 30000000000 then s
    else (s.modPower fun p => { p with rstIgnored := true }).endReset 2 strap)

/-- RST_IGNORED_CLEAR (R420): the pad has read high for 100 ms. -/
def execRstIgnoredClear (t : Nat) (s : State) : Outcome := .next ((s.at_ t).modPower fun p => { p with rstIgnored := false })

/-! ### Domains of the cell dies (R404, R405, R495) -/

/-- DIE_ISOLATION_TIMEOUT (R405): no valid inner-link symbol for 60 s. -/
def execDieIsolationTimeout (t k : Nat) (s : State) : Outcome :=
  let s := s.at_ t
  .next (s.onDie k fun d =>
    if !d.precOn || t < d.lastWord + 60000000000 || !(s.cutOff k || !s.part.serving || s.part.hubHeld) then s else s.precOff k)

/-- PREC_POWER_UP (R122, R203, R404, R466 to R468, R495): the tests of the die end; it serves, or only protects. -/
def execPrecPowerUp (t k : Nat) (bist : DieTests) (s : State) : Outcome :=
  let s := s.at_ t
  .next (s.onDie k fun d =>
    if d.precOn || !d.prot.aonOn || d.hot || !s.hubTakes k || !s.inRunDoze then s
    else
      let b := bistOf bist.bist
      let s := s.modDie k fun d =>
        { d with precOn := true, dspOn := true, lastWord := t,
                 prot := { d.prot with protOnly := d.prot.protOnly && !b.pass } }
      let s := s.modTest k fun x =>
        { x with lbistOk := !b.logicFail, mbistOk := !b.unrepairable, chkOk := b.chkFail == 0, spares := 16, slice := none, retry := none }
      let s := { s with chk := setNth (3 + k) (ChkUnit.fresh (b.chkFail == 0)) s.chk }
      let s := ((s.readFactory k bist.copies).loadCal k).precStart k
      let s := s.loadState k
      let s := s.reportMemory k 0x2101 b
      let s := if b.logicFail then s.testFailed k 0x3101 else s
      let s := if b.unrepairable then s.testFailed k 0x2101 else s
      let s := if b.chkFail = 0 then s else s.testFailed k 0x4101
      if b.pass then (((s.seqRestart k t false).fastDomain k).settleChannels k).heartResume else s.enterProtOnly k)

/-- HUB_BIST_RETRY (R468): a hub held in reset by its BIST tries once more after 1 s. -/
def execHubBistRetry (t : Nat) (pass : Bool) (s : State) : Outcome :=
  let s := s.at_ t
  .next (
    match s.selfTest[0]? with
    | none => s
    | some x =>
      if !s.part.hubHeld || x.retried || s.bistFailed.isEmpty || t < x.lbistAt + 1000000000 then s
      else (s.modTest 0 fun y => { y with retried := true }).hubTest (if pass then 0 else 1))

/-! ### Completions (R336, R347, R417) -/

/-- COMPLETION_WRITE (R336, R344): the oldest completion of a CQ is written once the CQ has room; an entry to SLEEP or
SHIP follows its completion. -/
def execCompletionWrite (t cq : Nat) (ok : Bool) (s : State) : Outcome :=
  let s := s.at_ t
  .next (
    let q := s.hif.cqOf cq
    match s.hif.cqWait.find? fun w => w.cq == cq with
    | none => s
    | some w =>
      if !s.hifServes || !q.serves || q.full then s
      else if !ok then (s.putCq cq { q with err := 2, active := false }).queueError 2 cq 2
      else
        let s := (s.writeCompletion cq w).checkDrain
        (s.modPower fun p => { p with idleSince := t }).tryEnter)

end Sys2Proof.Machine
end

