-- ==== Sys2Proof/Machine/SelfTest.lean ====
section
/-! DEFINITION. Self-test slices (R459 to R464), the safe state of a failed block (R31, R467) and the check-value
units (R469, R470). -/

namespace Sys2Proof.Machine

/-! ### Blocks and their conditions (R459, R461) -/

/-- Blocks of a cell die that slices test, in BLOCK_ID order (R459). -/
def dieBlocks : List Nat :=
  (List.range 30).map (0x0101 + ·) ++ [0x0201, 0x0202, 0x0203, 0x0204, 0x0301, 0x0302] ++ (List.range 24).map (0x0401 + ·) ++
    [0x0501, 0x0601, 0x0602, 0x0701]

/-- Blocks of the hub that slices test. -/
def hubBlocks : List Nat := [0x1001, 0x1002, 0x1101]

/-- Blocks of the hub (0) or of a die. -/
def blocksOf (k : Nat) : List Nat := if k = 0 then hubBlocks else dieBlocks

/-- A spare that is free: it holds no cell and has not failed (R31). DEDUCED, log entry 27. -/
def PrecState.freeSpare (p : PrecState) : Option Nat :=
  [0, 1].find? fun i => p.held.getD i 0 == 0 && !p.failed.contains (25 + i)

/-- Modulator n, 1 to 29, serves no user: a rotating spare, or one whose cell is held or lost (R461). -/
def PrecState.modIdle (p : PrecState) (n : Nat) : Bool :=
  if n = 25 ∨ n = 26 then p.held.getD (n - 25) 0 == 0 else p.held.contains n || p.lost.contains n

/-- The instant lies in the gap between tick windows that a threshold sweep needs (R208, R460). -/
def State.inGap (s : State) (k : Nat) : Bool :=
  let tk := s.tickNs k
  100000 ≤ s.now % tk && s.now % tk + 550000 ≤ tk

/-- The condition of R461 for a block of a die. -/
def State.dieBlockMay (s : State) (k : Nat) (d : Die) (b : Nat) : Bool :=
  if b = 0x011E ∨ b = 0x0701 then d.seq.atBoundary s.now && !d.prot.protOnly
  else if b < 0x011E then d.prec.modIdle (b - 0x0100) || d.prec.freeSpare.isSome
  else if b ≤ 0x0204 then
    d.fastOn && (match d.fast.sliceHold with | none => true | some x => decide (x.2.2 + 10000000 ≤ s.now))
  else if b ≤ 0x0302 then s.inGap k
  else if b ≤ 0x0418 then
    let c := d.prot.chan (b - 0x0400)
    !c.conducting && !c.sched && !c.inj && d.prec.window.isNone && d.prot.owRun.isNone &&
      !(s.fB 0x01 k 0 5 && decide (s.gateEnd k d < s.now + 300000 + windowLen (s.fF 0x01 k 0 15 8) (s.rateOf k) (s.filtOf k)))
  else if b = 0x0501 then d.cal.solving.isNone
  else if b = 0x0601 then s.part.links.getD k false
  else s.part.links.getD (k - 1) false

/-- The condition of R461 for a block of the hub. -/
def State.hubBlockMay (s : State) (b : Nat) : Bool := if b = 0x1101 then s.power.seqDir == 0 else !s.anyOut

/-- A slice of the block may start now. -/
def State.blockMay (s : State) (k b : Nat) : Bool :=
  (((s.selfTest[k]?).map (·.slice)).getD none).isNone && (blocksOf k).contains b &&
    (if k = 0 then s.part.serving && !s.part.hubHeld && s.hubBlockMay b
     else s.fitted k && (match s.die? k with | none => false | some d => d.precOn && s.dieBlockMay k d b))

/-! ### A slice begins (R462, R32, R92, R115) -/

/-- Time that a slice of the block takes, ns (R459). -/
def sliceLen (b : Nat) : Nat :=
  if b ≤ 0x011E then 500000
  else if b ≤ 0x0204 then 200000
  else if b ≤ 0x0302 then 480000
  else if b ≤ 0x0418 then 300000
  else if b = 0x0501 ∨ b = 0x1101 then 400000
  else if b = 0x0701 then 450000
  else if b = 0x1001 then 300000
  else 200000

/-- The instant from which a slice holds its block: at once, but a modulator that serves users only once the spare has
been connected for one impulse, so that the spare's first sample lies wholly after it (R32). Slices that one command runs
follow one another (R461). -/
def State.holdFrom (s : State) (k b : Nat) : Nat :=
  match s.die? k with
  | none => s.now
  | some d =>
    if k ≠ 0 ∧ b < 0x011E ∧ !d.prec.modIdle (b - 0x0100) then
      d.prec.cover.foldl (fun m v => max m (v.until_.getD s.now)) s.now + impulseLen (s.rateOf k) (s.filtOf k)
    else s.now

/-- The block is isolated from its users. -/
def State.holdBlock (s : State) (k b : Nat) : State :=
  if k = 0 then s
  else if b = 0x011E ∨ b = 0x0701 then
    s.modDie k fun d =>
      let r := match d.seq.cur with | none => d.seq.resume | some x => x.entry
      { d with seq := { d.seq with sliceHeld := true, resume := r, cur := none } }
  else if b < 0x011E then
    s.modDie k fun d =>
      let n := b - 0x0100
      if d.prec.modIdle n then d
      else
        match d.prec.freeSpare with
        | none => d
        | some i =>
          let v : Cover := { modulator := n, spare := i, from_ := s.holdFrom k b, until_ := none, lost := false }
          { d with prec := { d.prec with cover := d.prec.cover ++ [v] } }
  else if 0x0201 ≤ b ∧ b ≤ 0x0204 then
    s.modDie k fun d =>
      let first := (s.now / 1000 + 1) * 1000
      { d with fast := { d.fast with sliceHold := some (b - 0x0201, first, first + 200000) } }
  else s

/-- A slice starts on a block, under the fields in force (R46). -/
def State.startSlice (s : State) (k b : Nat) : State :=
  let s := s.takePrec k
  (s.modTest k fun x => { x with slice := some (b, s.holdFrom k b) }).holdBlock k b

/-! ### Failed and passed blocks (R31, R467) -/

/-- Spare i no longer covers a slice, unless it has taken the very cell for good: the slice is aborted, and the samples that
overlap it carry INVALID (R32, R463). -/
def State.loseCover (s : State) (k i : Nat) (cell : Option Nat) : State :=
  s.onDie k fun d =>
    let loses := fun (v : Cover) =>
      v.spare == i && v.until_.isNone && !(cell == some v.modulator || (cell.isSome && v.modulator == 26 - i))
    if !d.prec.cover.any loses then s
    else
      (s.modDie k fun d =>
        { d with prec := { d.prec with cover := d.prec.cover.map fun x => { x with lost := x.lost || loses x } } }).abortSlice k

/-- A spare takes a cell, or the channel is lost when no spare is free (R31, R132). -/
def State.substitute (s : State) (k n : Nat) : State :=
  s.onDie k fun d =>
    match d.prec.freeSpare with
    | some i =>
      let order := filtOrder (s.filtOf k)
      let s := (s.loseCover k i (some n)).modDie k fun d =>
        { d with prec := { d.prec with held := setNth i n d.prec.held, settle := setNth (n - 1) order d.prec.settle },
                 cal := { d.cal with heldCand := d.cal.heldCand.map fun c => { c with valid := setNth (n - 1) false c.valid } } }
      s.dieEvent k { source := 17, subkind := i + 1, item := n }
    | none =>
      (s.modDie k fun d => { d with prec := { d.prec with lost := d.prec.lost ++ [n] } }).dieEvent k
        { source := 17, subkind := 3, item := n }

/-- Self-test reports a modulator 1 to 29 as failed (R31). -/
def State.modulatorFailed (s : State) (k n : Nat) : State :=
  s.onDie k fun d =>
    if d.prec.failed.contains n then s
    else
      let s := s.modDie k fun d => { d with prec := { d.prec with failed := d.prec.failed ++ [n] } }
      if n = 25 ∨ n = 26 then
        let i := n - 25
        let cell := d.prec.held.getD i 0
        let s := (s.loseCover k i none).modDie k fun d => { d with prec := { d.prec with held := setNth i 0 d.prec.held } }
        let s := s.dieEvent k { source := 17, subkind := 5, arg16 := n }
        if cell = 0 then s else s.substitute k cell
      else if n ≤ 24 then s.substitute k n
      else
        (s.modDie k fun d => { d with prec := { d.prec with lost := d.prec.lost ++ [n] } }).dieEvent k
          { source := 17, subkind := 3, item := n }

/-- A slice of a failed modulator passes: its cell returns to it, or the spare is free again (R31, R45). A spare that is free
again goes on from the cell and the step at which it left its rotation. DESIGN CHOICE, log entry 50. -/
def State.modulatorPassed (s : State) (k n : Nat) : State :=
  s.onDie k fun d =>
    if !d.prec.failed.contains n then s
    else
      let order := filtOrder (s.filtOf k)
      let s := s.modDie k fun d => { d with prec := { d.prec with failed := d.prec.failed.filter (· != n) } }
      if n = 25 ∨ n = 26 then s
      else
        (s.modDie k fun d => { d with prec := { d.prec with
          held := d.prec.held.map fun c => if c = n then 0 else c, lost := d.prec.lost.filter (· != n),
          settle := setNth (n - 1) order d.prec.settle } }).dieEvent k { source := 17, subkind := 4, item := n }

/-- The safe state of a failed block of a die (R467). -/
def State.dieBlockFailed (s : State) (k b : Nat) : State :=
  if b = 0x011E ∨ b = 0x0701 then
    let n := if b = 0x011E then 30 else 31
    s.modDie k fun d =>
      { d with prec := { d.prec with failed := if d.prec.failed.contains n then d.prec.failed else d.prec.failed ++ [n] } }
  else if b < 0x011E then s.modulatorFailed k (b - 0x0100)
  else if b ≤ 0x0204 then
    let s := s.modDie k fun d =>
      let sar := b - 0x0200
      { d with fast := { d.fast with sarFail := if d.fast.sarFail.contains sar then d.fast.sarFail else d.fast.sarFail ++ [sar] } }
    s.stopFast k
  else if b ≤ 0x0302 then
    s.freeLinks.modDie k fun d =>
      ({ d with prot := { d.prot with swFault := setNth (b - 0x0301) true d.prot.swFault } }).notice k 3 (b - 0x0300) s.now
  else if b ≤ 0x0418 then
    let n := b - 0x0400
    let s := s.modDie k fun d =>
      { d with prot := { d.prot with chans := modNth (fun c => { c with heldOff := true }) (n - 1) d.prot.chans } }
    (s.settleChannels k).dieEvent k { source := 13, subkind := 1, item := n }
  else if b = 0x0501 then
    s.onDie k fun d =>
      if d.prec.refState = 2 then s
      else
        ((s.modDie k fun d => { d with prec := { d.prec with refState := 2, refFirst := false } }).discardRun k s.now false).dieEvent k
          { source := 16, subkind := 2 }
  else s.breakLink (if b = 0x0601 then k - 1 else k)

/-- What a passed block of a die gives back (R31, R207, R467). -/
def State.dieBlockPassed (s : State) (k b : Nat) : State :=
  if b = 0x011E ∨ b = 0x0701 then
    let n := if b = 0x011E then 30 else 31
    s.modDie k fun d => { d with prec := { d.prec with failed := d.prec.failed.filter (· != n) } }
  else if b < 0x011E then s.modulatorPassed k (b - 0x0100)
  else if b ≤ 0x0204 then
    s.modDie k fun d =>
      let left := d.fast.sarFail.filter (· != b - 0x0200)
      let again := d.fast.sarFail.contains (b - 0x0200) && left.isEmpty && d.fastOn && !d.prot.protOnly
      { d with fast := { d.fast with sarFail := left, startedAt := if again then some s.now else d.fast.startedAt } }
  else if b ≤ 0x0302 then
    s.onDie k fun d =>
      let i := b - 0x0301
      if !d.prot.swFault.getD i false then s
      else (s.modDie k fun d => { d with prot := { d.prot with swFault := setNth i false d.prot.swFault } }).dacCleared k i
  else s

/-- A link whose slice had failed passes again: it carries symbols once more (R467). -/
def State.linkPassed (s : State) (k b : Nat) (had : Bool) : State :=
  let i := if b = 0x0601 then k - 1 else k
  if had && (b = 0x0601 || b = 0x0602) && !s.linkFailed i then s.mendLink i else s

/-- A rail whose supervisor failed is handled as a fault of that rail (R400, R467): the event of RAIL_FAULT follows. -/
def State.hubBlockFailed (s : State) (b : Nat) : State := if b = 0x1101 then s else s.latch 60

/-! ### A slice ends (R462) -/

/-- The slice of a block ends with a result: 1 PASS, 2 FAIL, else INCOMPLETE. The check current that the slice of a balance
channel has carried for 200 µs counts like its own (R459, R461). -/
def State.endSlice (s : State) (k b result : Nat) : State :=
  let s := s.accrueTest
  let counted := fun (x : SelfTest) => if b = 0x1001 ∨ b = 0x1002 then x.offTime else if k = 0 then x.runTime else x.liveTime
  if result = 1 ∨ result = 2 then
    let had := ((s.selfTest[k]?).map fun x => x.failed.contains b).getD false
    let s := s.modTest k fun x =>
      { x with slice := none, done := satInc 16 x.done, lastBlock := b, lastResult := result,
               judged := (b, counted x) :: x.judged.filter fun y => y.1 != b, overdue := x.overdue.filter (· != b),
               retry := if x.retry = some b then none else x.retry,
               failed := if result = 2 then (if x.failed.contains b then x.failed else x.failed ++ [b]) else x.failed.filter (· != b) }
    let s := if k = 0 then s else (s.releaseSlice k b).modDie k fun d =>
      { d with prec := { d.prec with cover := d.prec.cover.map fun v =>
          { v with until_ := v.until_.map fun e =>
              if v.modulator + 0x0100 = b then max e (v.from_ + sliceLen b) else e } } }
    let s := if 0x0401 ≤ b ∧ b ≤ 0x0418 then s.modDie k fun d =>
        { d with prot := { d.prot with chans := modNth (Chan.addOn 200000) (b - 0x0401) d.prot.chans } } else s
    if result = 2 then
      let s := s.testFailed k b
      if k = 0 then s.hubBlockFailed b else s.dieBlockFailed k b
    else if k = 0 then s
    else (s.dieBlockPassed k b).linkPassed k b had
  else
    let s := s.modTest k fun x =>
      { x with slice := none, incomplete := satInc 8 x.incomplete, lastBlock := b, lastResult := 3, retry := some b }
    if k = 0 then s else s.releaseSlice k b

/-! ### The commands -/

/-- Counted time of a unit's own slices: RUN for the hub, RUN and DOZE for a die (R461). -/
def SelfTest.sliceTime (x : SelfTest) (k : Nat) : Nat := if k = 0 then x.runTime else x.liveTime

/-- The block that the next slice takes: an INCOMPLETE one ahead of the rotation, else the next in BLOCK_ID order whose
conditions hold (R461, R463). -/
def State.nextSlice (s : State) (k : Nat) (x : SelfTest) : Option (Nat × Nat) :=
  match x.retry.filter (s.blockMay k) with
  | some b => some (b, x.nextBlock)
  | none =>
    let l := (blocksOf k).filter fun b => decide (x.nextBlock ≤ b)
    let m := (blocksOf k).filter fun b => decide (b < x.nextBlock)
    ((l ++ m).find? (s.blockMay k)).map fun b => (b, b + 1)

/-- SLICE_START (R461): every 5 s of counted time the hub (0) or a die starts one slice. -/
def execSliceStart (t k : Nat) (s : State) : Outcome :=
  let s := (s.at_ t).accrueTest
  .next (
    if !(if k = 0 then s.inRun else s.inRunDoze) then s
    else
      match s.selfTest[k]? with
      | none => s
      | some x =>
        if x.sliceTime k < x.nextAt then s
        else
          match s.nextSlice k x with
          | none => s
          | some b =>
            let s := s.modTest k fun x =>
              { x with nextAt := x.sliceTime k + 5000000000, nextBlock := b.2, retry := if x.retry = some b.1 then none else x.retry }
            s.startSlice k b.1)

/-- SLICE_END (R462): the slice in progress ends with a result, INCOMPLETE when it has not run to its end; a failed rail
supervisor names its rail. -/
def execSliceEnd (t k result rail : Nat) (s : State) : Outcome :=
  let s := (s.at_ t).adoptSeq k
  .next (
    match (s.selfTest[k]?).bind (·.slice) with
    | none => s
    | some x =>
      let result := if x.2 + sliceLen x.1 ≤ t then result else 3
      let s := s.endSlice k x.1 result
      let s := if x.1 = 0x1101 ∧ result = 2 ∧ rail < 14 then s.railFault rail 1 else s
      if x.1 = 0x1101 then s.judgeHeld else s)

/-- SELFTEST_OVERDUE (R464): a block without PASS or FAIL for 600 s of the time that counts for it raises source 61 once. DEDUCED, log entry 27. -/
def execSelftestOverdue (t k block : Nat) (s : State) : Outcome :=
  let s := (s.at_ t).accrueTest
  .next (
    match s.selfTest[k]? with
    | none => s
    | some x =>
      let time := if block = 0x1001 ∨ block = 0x1002 then x.offTime else x.sliceTime k
      let last := ((x.judged.find? fun y => y.1 == block).map (·.2)).getD 0
      if !(blocksOf k).contains block || x.overdue.contains block || time < last + 600000000000 then s
      else
        let s := s.modTest k fun x => { x with overdue := x.overdue ++ [block] }
        let e : Ev := { source := 61, item := k, arg16 := block }
        if k = 0 then s.event e else s.dieEvent k e)

/-! ### Check-value units (R470) -/

/-- Unit i is powered: units 0 to 3 with the hub, unit 3 + k with the DSP domain of die k. -/
def State.chkPowered (s : State) (i : Nat) : Bool :=
  if i < 4 then s.part.serving && !s.part.hubHeld else ((s.die? (i - 3)).map (·.dspOn)).getD false

/-- A unit changed by `f`. -/
def State.modChk (s : State) (i : Nat) (f : ChkUnit → ChkUnit) : State := { s with chk := modNth f i s.chk }

/-- A message opened: Init of POLY is loaded. -/
def ChkUnit.openMsg (u : ChkUnit) (poly : Nat) (host : Bool) : ChkUnit :=
  { u with busy := true, poly := poly % 4, crc := (polyOf poly).init, fed := 0, byHost := host }

/-- Bytes fed to the open message. -/
def ChkUnit.feed (u : ChkUnit) (bs : List Byte) : ChkUnit :=
  if u.busy then { u with crc := bs.foldl (polyOf u.poly).feed u.crc, fed := (u.fed + bs.length) % 256 } else u

/-- The open message closed: the result is formed and ALIVE rises; an OPEN that waited starts its message. -/
def ChkUnit.close (u : ChkUnit) : ChkUnit :=
  if !u.busy then u
  else
    let v := { u with busy := false, result := u.crc ^^^ (polyOf u.poly).final, alive := (u.alive + 1) % 256,
                      hostAlive := if u.byHost then (u.hostAlive + 1) % 256 else u.hostAlive, byHost := false }
    match u.waiting with
    | [] => v
    | p :: rest => ({ v with waiting := rest }).openMsg p false

/-- CHK_OPEN (R470): a write of CHK_CTRL with OPEN starts a message, or waits while one is open. -/
def execChkOpen (t unit ctrl : Nat) (s : State) : Outcome :=
  let s := s.at_ t
  .next (
    if !s.chkPowered unit || !bit ctrl 8 then s
    else s.modChk unit fun u =>
      if u.busy then { u with waiting := u.waiting ++ [bits ctrl 1 0] } else u.openMsg (bits ctrl 1 0) false)

/-- CHK_DATA_WRITE (R470): a write of 1, 2 or 4 bytes feeds them, lowest address first. -/
def execChkDataWrite (t unit width value : Nat) (s : State) : Outcome :=
  let s := s.at_ t
  .next (
    if !s.chkPowered unit || !(width == 1 || width == 2 || width == 4) then s
    else s.modChk unit fun u => u.feed (le width value))

/-- CHK_CLOSE (R470). -/
def execChkClose (t unit ctrl : Nat) (s : State) : Outcome :=
  let s := s.at_ t
  .next (if !s.chkPowered unit || !bit ctrl 9 then s else s.modChk unit ChkUnit.close)

end Sys2Proof.Machine
end

