-- ==== Sys2Proof/Machine/SelfTestCmds.lean ====
section
/-! DEFINITION. SELFTEST_RUN and CHECK_COMPUTE (R126, R132, R362, R464, R471). -/

namespace Sys2Proof.Machine

/-- What SELFTEST_RUN counts: slices passed, failed and incomplete. -/
structure Tally where
  passed : Nat
  failed : Nat
  incomplete : Nat
deriving DecidableEq, Repr

/-- RESULT of SELFTEST_RUN (R362). -/
def Tally.result (x : Tally) : Nat := fld 0 16 x.passed + fld 16 8 (sat 8 x.failed) + fld 24 8 (sat 8 x.incomplete)

/-- One block run now with its result, 1 PASS, 2 FAIL, else INCOMPLETE; one whose conditions do not hold counts as
incomplete (R464). DEDUCED, log entry 26. -/
def State.runBlock (s : State) (k b result : Nat) (n : Tally) : State × Tally :=
  if !s.blockMay k b then (s, { n with incomplete := n.incomplete + 1 })
  else
    let s := (s.startSlice k b).endSlice k b result
    (s, if result = 1 then { n with passed := n.passed + 1 } else if result = 2 then { n with failed := n.failed + 1 }
        else { n with incomplete := n.incomplete + 1 })

/-- The hub or the die runs no slice now. -/
def State.sliceFree (s : State) (k : Nat) : Bool := (((s.selfTest[k]?).map (·.slice)).getD none).isNone

/-- A SELFTEST_RUN that its part would not refuse waits while a slice of its target runs (R463). -/
def State.testWaits (s : State) (c : Cmd) (bad : Bool) : Bool := !bad && (s.refusal 0x0E c).isNone && !s.sliceFree c.target

/-- SELFTEST_RUN with ACTION 0, and with an ACTION that R349 does not name (R464): `results` holds the result of each
block of the target in BLOCK_ID order. While a slice runs, the command waits (R463). -/
def execSelftestRunAll (t : Nat) (c : Cmd) (results : List Nat) (s : State) : Outcome :=
  let a := rd c.param 0 1
  .next ((s.at_ t).serve 0x0E c ((a == 0 || decide (4 ≤ a)) && !(s.at_ t).testWaits c (a != 0)) fun s =>
    let k := c.target
    if a ≠ 0 then s.complete c .invalidField 0
    else
      let r := (blocksOf k).zipIdx.foldl (fun (acc : State × Tally) b => acc.1.runBlock k b.1 (results.getD b.2 0) acc.2)
        (s, { passed := 0, failed := 0, incomplete := 0 })
      r.1.complete c .success r.2.result)

/-- SELFTEST_RUN with ACTION 1 (R362). -/
def execSelftestRunBlock (t : Nat) (c : Cmd) (result : Nat) (s : State) : Outcome :=
  let k := c.target
  let b := rd c.param 2 2
  .next ((s.at_ t).serve 0x0E c (rd c.param 0 1 == 1 && !(s.at_ t).testWaits c (!(blocksOf k).contains b)) fun s =>
    if !(blocksOf k).contains b then s.complete c .invalidField 0
    else
      let r := s.runBlock k b result { passed := 0, failed := 0, incomplete := 0 }
      r.1.complete c .success r.2.result)

/-- SELFTEST_RUN with ACTION 2 (R126): the calibration run of the die closes now. -/
def execCalEarlyEnd (t : Nat) (c : Cmd) (s : State) : Outcome :=
  .next ((s.at_ t).serve 0x0E c (rd c.param 0 1 == 2) fun s =>
    if c.target = 0 then s.complete c .invalidTarget 0 else (s.closeRun c.target t).complete c .success 0)

/-- SELFTEST_RUN with ACTION 3 (R132): the calibration of the die is reset. -/
def execCalReset (t : Nat) (c : Cmd) (s : State) : Outcome :=
  .next ((s.at_ t).serve 0x0E c (rd c.param 0 1 == 3) fun s =>
    if c.target = 0 then s.complete c .invalidTarget 0 else (s.resetCal c.target).complete c .success 0)

/-- The check unit that CHECK_COMPUTE names: hub units 0 to 3, or the unit of a die (R349, R470). -/
def chkUnitOf (c : Cmd) : Nat := if c.target = 0 then rd c.param 0 1 else 3 + c.target

/-- UNIT, POLY and WIDTH are in range (R349). -/
def chkFieldsOk (c : Cmd) : Bool :=
  let w := rd c.param 2 1
  decide (rd c.param 0 1 ≤ (if c.target = 0 then 3 else 0)) && decide (rd c.param 1 1 ≤ 3) && (w == 1 || w == 2 || w == 4)

/-- CHECK_COMPUTE on a unit that is free (R471): the message of the command is opened, fed and closed. -/
def State.computeCheck (s : State) (c : Cmd) (data : List Byte) (u : ChkUnit) : State :=
  if u.hostAlive ≠ rd c.param 3 1 then s.complete c .aliveMismatch u.hostAlive
  else
    let v := ((u.openMsg (rd c.param 1 1) true).feed (slice data 0 c.bufLen)).close
    (s.modChk (chkUnitOf c) fun _ => v).completeX c .success v.result c.bufLen

/-- A message of the unit that a CHECK_COMPUTE names is open. -/
def State.chkBusy (s : State) (c : Cmd) : Bool :=
  chkFieldsOk c && s.chkPowered (chkUnitOf c) && ((s.chk[chkUnitOf c]?).map fun u => u.ok && u.busy).getD false

/-- CHECK_COMPUTE (R467, R471): while a message of the unit is open, the command waits. DEDUCED, log entry 26. -/
def execCheckCompute (t : Nat) (c : Cmd) (data : List Byte) (s : State) : Outcome :=
  .next ((s.at_ t).serve 0x0F c (!(s.at_ t).chkBusy c) fun s =>
    let i := chkUnitOf c
    let data := s.inData c data
    if !chkFieldsOk c then s.complete c .invalidField 0
    else if c.target = 0 ∧ rd c.param 0 1 ≤ 2 ∧ 4096 < c.bufLen then s.complete c .invalidLength 0
    else
      match s.chk[i]? with
      | none => s.complete c .internalError 0
      | some u =>
        if !u.ok || !s.chkPowered i then s.complete c .internalError 0
        else s.computeCheck c data u)

end Sys2Proof.Machine
end

