-- ==== Sys2Proof/Machine/Thermal.lean ====
section
/-! DEFINITION. The thermal governor and what overheating switches off (R482 to R484). -/

namespace Sys2Proof.Machine

/-- Threshold at which a step of the governor is entered (R482), 0.01 °C. -/
def stepThreshold (step : Nat) : Int :=
  match step with
  | 1 => 14500
  | 2 => 14700
  | _ => 14900

/-- What the step in force does: derated fast paths from 1, fewer balance channels from 2, a slower cluster from 3
(R98, R215, R308, R482). -/
def State.applyStep (s : State) : State :=
  let n := s.therm.step
  let s := s.modDies fun _ d => { d with fast := { d.fast with derated := decide (1 ≤ n) } }
  let s := { s with locus := { s.locus with clusterDerated := decide (3 ≤ n) } }
  s.islands.foldl (fun s k => s.applyCap k) s

/-- The governor's step changed: source 52 (R482). -/
def State.setStep (s : State) (n : Nat) : State :=
  (({ s with therm := { s.therm with step := n } }).applyStep).event { source := 52, subkind := n }

/-- Steps entered one after the other up to what the temperature reaches. -/
def State.raiseSteps (s : State) : Nat → State
  | 0 => s
  | fuel + 1 =>
    let n := s.therm.step + 1
    if 3 < n then s
    else if stepThreshold n ≤ s.therm.tjMax then (s.setStep n).raiseSteps fuel
    else s

/-- The hottest die of the readings: hub, cell islands, storage die (R484). -/
def hottest (cells : Nat) (temps : List Int) : Int × Nat :=
  temps.zipIdx.foldl (fun (m : Int × Nat) x => if m.1 < x.1 then (x.1, if x.2 ≤ cells then x.2 else 8) else m) (temps.headD 0, 0)

/-- THERMAL_SAMPLE (R482): the junctions read every 10 ms: the hub, the cell dies, and the storage die where there is one. -/
def execThermalSample (t : Nat) (temps : List Int) (s : State) : Outcome :=
  let s := s.at_ t
  .next (
    if !s.inRunDoze || !s.part.serving || temps.isEmpty then s
    else
      let h := hottest s.part.cellDies temps
      let below := fun (x : Option Nat × Nat) => if h.1 < stepThreshold (x.2 + 1) - 500 then some (x.1.getD t) else none
      let since := s.therm.belowSince.zipIdx.map below
      ({ s with therm := { s.therm with tjMax := h.1, hotIsland := h.2, belowSince := since } }).raiseSteps 3)

/-- THERMAL_STEP_DOWN (R482). -/
def execThermalStepDown (t : Nat) (s : State) : Outcome :=
  let s := s.at_ t
  .next (
    let n := s.therm.step
    match s.therm.belowSince.getD (n - 1) none with
    | none => s
    | some a => if n = 0 || t < a + 10000000000 then s else s.setStep (n - 1))

/-- DIE_OVERHEAT (R483): a junction at 152 °C: PREC, FAST and DSP switch off. -/
def execDieOverheat (t k : Nat) (s : State) : Outcome :=
  let s := s.at_ t
  .next (s.onDie k fun d =>
    if d.hot then s else (s.modDie k fun d => { d with hot := true }).precOff k)

/-- DIE_COOLED (R483): the junction has fallen to 140 °C; PREC_POWER_UP follows. -/
def execDieCooled (t k : Nat) (s : State) : Outcome :=
  let s := s.at_ t
  .next (s.onDie k fun _ => s.modDie k fun d => { d with hot := false })

/-- HUB_OVERHEAT (R468, R483): the hub's junction reaches 154 °C: it is held in reset and the dies fall back to R405. -/
def execHubOverheat (t : Nat) (s : State) : Outcome :=
  let s := s.at_ t
  .next (
    if !s.part.serving || s.warned then s
    else
      let s := (s.hubStop false).diesCutOff
      let s := { s with part := { s.part with hubHeld := true } }
      s.modPower fun p => { p with startBy := if p.startBy = 3 then 4 else p.startBy })

/-- HUB_COOLED (R483): the AON sensor reads 140 °C or less: the hub restarts with logic BIST. -/
def execHubCooled (t : Nat) (pass : Bool) (s : State) : Outcome :=
  let s := s.at_ t
  .next (
    if !s.part.hubHeld || !s.bistFailed.isEmpty then s
    else (s.modTest 0 fun x => { x with retried := false }).hubTest (if pass then 0 else 1))

end Sys2Proof.Machine
end

