-- ==== Sys2Proof/Machine/Trust.lean ====
section
/-! DEFINITION. Trust, lifecycle and records as commands (R424 to R458): the meter, statements and responses, images,
the lifecycle, the black box, and debug sessions. -/

namespace Sys2Proof.Machine

/-- Apex runs: the hub serves. -/
def State.apexRuns (s : State) : Bool := s.part.serving && !s.part.hubHeld

/-! ### The meter (R443, R444, R454, R455) -/

/-- METER_COMMIT (R443, R444): at a whole 10 ms the counters that changed are committed, and statements that waited are
formed from that commit; an activation whose T_ACT has come begins (R448). DEDUCED, log entry 28. -/
def execMeterCommit (t : Nat) (s : State) : Outcome :=
  let s := s.at_ t
  .next (
    if !s.apexRuns || t % 10000000 ≠ 0 || s.power.warnAt.isSome then s
    else
      let s := if s.trust.meterDirty || !s.trust.stmtWait.isEmpty then (s.commitMeter false).formStatements else s
      s.actDue)

/-- METER_STATEMENT (R444): formed from the commit that follows. -/
def execMeterStatement (t : Nat) (c : Cmd) (s : State) : Outcome :=
  .next ((s.at_ t).serve 0x10 c true fun s => s.modTrust fun x => { x with stmtWait := x.stmtWait ++ [c] })

/-- METER_SNAPSHOT (R454): hourly. -/
def execMeterSnapshot (t : Nat) (s : State) : Outcome :=
  let s := s.at_ t
  .next (if !s.apexRuns || t % 3600000000000 ≠ 0 then s else s.blackBox 0x12 false s.meterBody)

/-- The enabled cells of the part whose estimator is in force. -/
def State.knownCells (s : State) : List CellSt :=
  s.islands.flatMap fun k =>
    match s.die? k with
    | none => []
    | some d => if s.stateEn k then (d.est.cells.zipIdx.filter fun x => s.cellEn k (x.2 + 1)).map (·.1) else []

/-- Seconds as 0.01 h. -/
def centiHours (sec : Nat) : Nat := (sec + 18) / 36

/-- The history body of R455; a part without a cell in force has no q, ρ or T, and gives free values. DESIGN CHOICE, log entry 6. -/
def State.historyBody (s : State) : List Byte × State :=
  let h := s.trust.history
  let cells := s.knownCells
  let mah := fun (q : Rat) => sat 32 (roundAway (q * 1000)).toNat
  let m := s.trust.meter.map meterUnit
  let f := s.drawBits 96
  let st := if cells.isEmpty ∨ h.tMax.isNone then f.2 else s
  let qMin := cells.foldl (fun (a : Option Rat) c => match a with | none => some c.q | some x => some (min x c.q)) none
  let rMax := cells.foldl (fun (a : Rat) c => max a c.rho) 0
  let sum := cells.foldl (fun (a : Rat) c => a + c.q) 0
  let some_ := !cells.isEmpty
  let q4 := match qMin with | some q => le 4 (mah q) ++ le 4 (mah (sum / (cells.length : Rat))) | none => le 8 (bits f.1 63 0)
  let r2 := if some_ then le 2 (sat 16 (roundAway (rMax * 10000)).toNat) else le 2 (bits f.1 79 64)
  let t2 := fun (o : Option Int) => match o with | some x => le 2 (satInt 16 x) | none => le 2 (bits f.1 95 80)
  (le 8 h.start ++ slice s.trust.sealed_ 8 8 ++ le 8 (m.getD 2 0) ++ le 8 (m.getD 3 0) ++ le 8 (m.getD 4 0) ++ q4 ++ r2 ++ t2 h.tMax ++ t2 h.tMin ++
    le 2 (sat 16 h.trips) ++ (h.tBands.flatMap fun x => le 4 (centiHours x)) ++ (h.socBands.flatMap fun x => le 4 (centiHours x)) ++
    le 4 s.trust.gap ++ le 4 s.trust.lost ++ le 2 (sat 16 h.swaps) ++ zeros 10, st)

/-- A history period that begins. -/
def History.from_ (start : Nat) : History :=
  { start := start, tMax := none, tMin := none, trips := 0, tBands := List.replicate 11 0, socBands := List.replicate 10 0, swaps := 0 }

/-- Length of a history period: 30 days. -/
def historyNs : Nat := 2592000000000000

/-- HISTORY_PERIOD (R455): at each 30 days of pack time after the last seal. -/
def execHistoryPeriod (t : Nat) (s : State) : Outcome :=
  let s := s.at_ t
  .next (
    if !s.apexRuns || s.trust.life == 0 || decide (t < s.trust.history.start + historyNs) then s
    else
      let b := s.historyBody
      let s := b.2.blackBox 0x05 true b.1
      s.modTrust fun x => { x with history := History.from_ (x.history.start + historyNs) })

/-! ### TRUST_CHALLENGE and the firewall (R424, R445) -/

/-- Offsets 0 to 191 of a trust response. -/
def State.trustHead (s : State) (host nonce : List Byte) : List Byte :=
  let x := s.trust
  let apex := s.apexImage x.apexSlotB
  le 2 0x0C02 ++ le 1 x.life ++ le 1 (fld 7 1 (b2n x.debugMark) + fld 6 1 (b2n x.ik.isSome) + fld 5 1 (b2n x.ikCert)) ++ le 1 x.svnApex ++
    le 1 x.svnSpan ++ le 1 x.ownerGen ++ zeros 1 ++ le 8 s.part.ident ++ host ++ nonce ++
    (match x.ik with | some d => pubKey d | none => zeros 64) ++ sha256 (s.spanImage x.slotB) ++ (if apex.isEmpty then zeros 32 else sha256 apex) ++
    le 4 s.apexVer ++ le 4 s.spanVer ++ zeros 8

/-- TRUST_CHALLENGE (R445): a fresh PART_NONCE, signed with FK; SIG is 0 in RETURNED. -/
def execTrustChallenge (t : Nat) (c : Cmd) (s : State) : Outcome :=
  .next ((s.at_ t).serve 0x11 c true fun s =>
    let n := s.drawBytes 16
    let s := n.2.modTrust fun x => { x with nonce := some (n.1, t) }
    let h := s.trustHead (slice c.param 0 16) n.1
    let g := if s.trust.life = 3 then (zeros 64, s) else s.sign s.trust.fk h
    g.2.completeData c .success 0 (h ++ g.1))

/-- FIREWALL_VIOLATION (R424): the access does not take effect and is counted. -/
def execFirewallViolation (t : Nat) (s : State) : Outcome :=
  .next ((s.at_ t).modTrust fun x => { x with firewall := satInc 5 x.firewall })

/-! ### FIRMWARE_STAGE (R362) -/

/-- Longest image: Apex 1, Span 2 (R349). -/
def imageMax (image : Nat) : Nat := if image = 1 then 131072 else 4194304

/-- A chunk staged: an offset of 0 begins a new image; a Span chunk lies in the inactive slot. -/
def State.putStaging (s : State) (image off total : Nat) (b : List Byte) : State :=
  let i := image - 1
  let old := s.trust.staging.getD i { total := 0, chunks := [] }
  let new : Staging := if off = 0 then { total := total, chunks := [(0, b)] } else { old with chunks := old.chunks ++ [(off, b)] }
  let whole := new.whole && !(old.whole && off != 0)
  let s := s.modTrust fun x =>
    { x with staging := setNth i new x.staging, spanImgs := if image = 2 then setNth (b2n (!x.slotB)) new.image x.spanImgs else x.spanImgs }
  if whole then s.event { source := 56, subkind := 1, item := image } else s

/-- The rules of FIRMWARE_STAGE (R349, R362). -/
def State.stageFirmware (s : State) (c : Cmd) (data : List Byte) : State :=
  let image := rd c.param 0 1
  let off := rd c.param 4 4
  let total := rd c.param 8 4
  let staged := (s.trust.staging.getD (image - 1) { total := 0, chunks := [] }).total
  if (image ≠ 1 ∧ image ≠ 2) ∨ off % 4 ≠ 0 ∨ imageMax image < total ∨ total < off + c.bufLen ∨ (off ≠ 0 ∧ total ≠ staged) then
    s.complete c .invalidField 0
  else (s.putStaging image off total (slice data 0 c.bufLen)).completeX c .success 0 c.bufLen

/-- FIRMWARE_STAGE (R362). -/
def execFirmwareStage (t : Nat) (c : Cmd) (data : List Byte) (s : State) : Outcome :=
  .next ((s.at_ t).serve 0x12 c true fun s => s.stageFirmware c (s.inData c data))

/-- FIRMWARE_FRAME_RECEIVE (R256, R362): firmware data reaches a module part in TC3 frames; once the last segment of a
chunk is there, the chunk is staged. -/
def execFirmwareFrameReceive (t : Nat) (bytes : List Byte) (s : State) : Outcome :=
  let s := s.at_ t
  let f := frameOf bytes
  .next (
    if !s.linkRuns || !s.isModule || f.tc != 3 || f.kind != 0x31 then s
    else
      let r := s.accept f
      if r.1 ≠ .deliver then r.2
      else
        let a := r.2.assemble f
        match a.1 with
        | none => a.2
        | some b =>
          let c := cmdOf (rd b 64 1) (rd b 65 2) b
          a.2.serve 0x12 c true fun s => s.stageFirmware c (b.drop 67))

/-! ### FIRMWARE_ACTIVATE (R447 to R450) -/

/-- An image verified (R447): source 56 says how it went. -/
def State.verifyImage (s : State) (image : Nat) (b : List Byte) (total : Nat) : Bool × State :=
  let ok := s.imageOk image b total
  (ok, s.event { source := 56, subkind := if ok then 2 else 5, item := image })

/-- A refusal that FIRMWARE_ACTIVATE meets before any image is looked at (R349, R350, R387). DEDUCED, log entry 29. -/
def State.activateRefusal (s : State) (c : Cmd) (starts : Bool) : Option Status :=
  let image := rd c.param 0 1
  if image ≠ 1 ∧ image ≠ 2 then some .invalidField
  else if rd c.param 8 8 ≠ 0 ∧ s.tq = 3 then some .timeUnlocked
  else if starts ∧ (s.trust.act.isSome ∨ (image = 1 ∧ s.isGateway ∧ s.anyOut)) then some .notPermitted
  else none

/-- The staged image of FIRMWARE_ACTIVATE verified; `f` follows when it passes. -/
def State.withStaged (s : State) (c : Cmd) (f : State → List Byte → State) : State :=
  let image := rd c.param 0 1
  let x := s.trust.staging.getD (image - 1) { total := 0, chunks := [] }
  if !x.whole then s.complete c .imageIncomplete 0
  else
    let v := s.verifyImage image x.image x.total
    if v.1 then f v.2 x.image else v.2.complete c .imageRejected 0

/-- FIRMWARE_ACTIVATE with ACTION 0, and with an ACTION that R349 does not name (R447). -/
def execFirmwareVerify (t : Nat) (c : Cmd) (s : State) : Outcome :=
  .next ((s.at_ t).serve 0x13 c (rd c.param 1 1 != 1 && rd c.param 1 1 != 2) fun s =>
    if rd c.param 1 1 ≠ 0 then s.complete c .invalidField 0
    else
      match s.activateRefusal c false with
      | some st => s.complete c st 0
      | none => s.withStaged c fun s _ => s.complete c .success 0)

/-- An activation begins at T_ACT, or at once (R448, R449). -/
def State.startActivation (s : State) (c : Cmd) (starts : Bool) : State :=
  let a : Activation := { cmd := c, tAct := rd c.param 8 8, starts := starts, begun := false, beganAt := 0, runAt := none }
  (s.modTrust fun x => { x with act := some a }).actDue

/-- FIRMWARE_ACTIVATE with ACTION 1 (R447 to R449): `starts` says whether an Apex patch starts. -/
def execFirmwareActivate (t : Nat) (c : Cmd) (starts : Bool) (s : State) : Outcome :=
  .next ((s.at_ t).serve 0x13 c (rd c.param 1 1 == 1) fun s =>
    match s.activateRefusal c true with
    | some st => s.complete c st 0
    | none =>
      s.withStaged c fun s b =>
        let s := if rd c.param 0 1 = 1 then s.modTrust fun x => { x with apexImgs := setNth (b2n (!x.apexSlotB)) b x.apexImgs } else s
        s.startActivation c starts)

/-- FIRMWARE_ACTIVATE with ACTION 2 (R448): the image in the slot not in force is verified and started. -/
def execFirmwareReturnPrevious (t : Nat) (c : Cmd) (starts : Bool) (s : State) : Outcome :=
  .next ((s.at_ t).serve 0x13 c (rd c.param 1 1 == 2) fun s =>
    match s.activateRefusal c true with
    | some st => s.complete c st 0
    | none =>
      let image := rd c.param 0 1
      let b := if image = 1 then s.apexImage (!s.trust.apexSlotB) else s.spanImage (!s.trust.slotB)
      let v := s.verifyImage image b b.length
      if v.1 then v.2.startActivation c starts else v.2.complete c .imageRejected 0)

/-- The other Span slot is in force from now on. -/
def State.flipSpan (s : State) (trial : Bool) : State :=
  let s := s.accrueTest
  s.modTrust fun x => { x with slotB := !x.slotB, trial := trial, spanSince := s.runClock, spanStops := 0, act := none }

/-- SPAN_READY (R448): the new Span reports ready within 10 s, and the slot selector is written; a later report counts for nothing. -/
def execSpanReady (t : Nat) (s : State) : Outcome :=
  let s := (s.at_ t).actDue
  .next (
    match s.trust.act with
    | none => s
    | some a =>
      if (a.runAt.map fun r => decide (r + 10000000000 < t)).getD true then s
      else
        let s := s.flipSpan true
        (s.noteImage 2 3 (s.spanImage s.trust.slotB)).complete a.cmd .success 0)

/-- SPAN_READY_TIMEOUT (R448): the previous slot is restarted. -/
def execSpanReadyTimeout (t : Nat) (s : State) : Outcome :=
  let s := (s.at_ t).actDue
  .next (
    match s.trust.act with
    | none => s
    | some a =>
      if (a.runAt.map fun r => decide (t < r + 10000000000)).getD true then s
      else
        let s := s.modTrust fun x => { x with act := none }
        (s.noteImage 2 4 (s.spanImage s.trust.slotB)).complete a.cmd .imageRejected 2)

/-- One hour of RUN. -/
def hourNs : Nat := 3600000000000

/-- SPAN_STOP (R448): a Span that stops three times within its first hour of RUN is rolled back. -/
def execSpanStop (t : Nat) (s : State) : Outcome :=
  let s := (s.at_ t).accrueTest
  .next (
    let n := s.trust.spanStops + 1
    if !s.trust.trial || decide (s.trust.spanSince + hourNs ≤ s.runClock) then s
    else if n < 3 then s.modTrust fun x => { x with spanStops := n }
    else
      let s := s.flipSpan false
      s.noteImage 2 4 (s.spanImage s.trust.slotB))

/-- SVN_COMMIT (R450): after one hour of RUN without a rollback the fuse count rises to the image's SVN. -/
def execSvnCommit (t image : Nat) (s : State) : Outcome :=
  let s := (s.at_ t).accrueTest
  .next (
    if image = 2 then
      if !s.trust.trial || decide (s.runClock < s.trust.spanSince + hourNs) then s
      else s.modTrust fun x => { x with svnSpan := max x.svnSpan (imageSvn (s.spanImage x.slotB) % 64), trial := false }
    else if image = 1 then
      let b := s.apexImage s.trust.apexSlotB
      if b.isEmpty || decide (s.runClock < s.trust.apexSince + hourNs) then s
      else s.modTrust fun x => { x with svnApex := max x.svnApex (imageSvn b % 64) }
    else s)

/-! ### The black box (R453, R457) -/

/-- BLACKBOX_RECORD_WRITE (R453): the record that waits longest is written to both copies, at most 500 signed ones per second. -/
def execBlackboxRecordWrite (t : Nat) (okA okB : Bool) (s : State) : Outcome :=
  let s := s.at_ t
  .next (if s.apexRuns && !s.signBusy then s.writeBb okA okB else s)

/-- BLACKBOX_READ (R457): whole records in BB_SEQ order from FROM_SEQ on. -/
def execBlackboxRead (t : Nat) (c : Cmd) (s : State) : Outcome :=
  .next ((s.at_ t).serve 0x15 c true fun s =>
    let lo := rd c.param 4 4
    let rs := s.trust.bb.filter fun r => decide (lo ≤ r.seq) && (r.okA || r.okB)
    let n := min rs.length (c.bufLen / 256)
    let got := rs.take n
    let last := ((got.getLast?).map (·.seq + 1)).getD lo
    s.completeData c .success (fld 0 16 n + fld 16 16 (sat 16 (last - lo - n))) (got.flatMap (·.bytes)))

/-! ### LIFECYCLE (R430 to R434) -/

/-- The lifecycle message of R430. -/
structure LifeMsg where
  action : Nat
  ident : Nat
  nonce : List Byte
  root : List Byte
  cert : List Byte
  cfg : List Byte
  auth : List Byte
  /-- Offsets 0 to 319, over which AUTH is. -/
  head : List Byte
  /-- Every byte that must be 0 is 0. -/
  clear : Bool
deriving DecidableEq, Repr

/-- A lifecycle message read from the buffer. DEDUCED, log entry 30. -/
def lifeMsg (b : List Byte) : LifeMsg :=
  let z := fun (off n : Nat) => (slice b off n).all (· == 0)
  let action := rd b 0 1
  let sealing := action == 2
  let cfgd := sealing || action == 5
  { action := action, ident := rd b 8 8, nonce := slice b 16 16, root := slice b 32 64, cert := slice b 96 160, cfg := slice b 256 64,
    auth := slice b 320 64, head := slice b 0 320,
    clear := z 1 7 && z 384 128 && (sealing || (z 32 64 && z 96 160)) && (if cfgd then bits (rd b 257 1) 7 4 == 0 && z 258 2 && z 304 16 else z 256 64) }

/-- The role and Q_REF of a sealed configuration are in range (R432). -/
def sealedOk (cfg : List Byte) : Bool := decide (rd cfg 0 1 ≤ 1) && decide (1000 ≤ rd cfg 4 4) && decide (rd cfg 4 4 ≤ 10000000)

/-- The action is allowed in the state the part is in (R431). -/
def lifeFrom (action life : Nat) : Bool :=
  match action with
  | 1 => life == 0 || life == 2
  | 2 => life == 0 || life == 2
  | 3 => life == 1
  | 4 => life != 3
  | _ => life == 1

/-- The action needs AUTH in this state (R431). -/
def lifeAuth (action life : Nat) : Bool := action == 3 || action == 5 || (action == 4 && life == 1)

/-- IK_CERT names this part and its IK, and checks against the owner root given (R427, R431). -/
def State.certOk (s : State) (m : LifeMsg) : Bool :=
  match s.trust.ik with
  | none => false
  | some d =>
    rd m.cert 0 8 == s.part.ident && rd m.cert 8 1 == 2 && slice m.cert 16 64 == pubKey d && slice m.cert 80 8 == keyId m.root &&
      ecdsaOk m.root (slice m.cert 0 96) (slice m.cert 96 64)

/-- PART_NONCE is that of the last trust response, not used and at most 10 minutes old (R430). -/
def State.nonceOk (s : State) (m : LifeMsg) : Bool :=
  match s.trust.nonce with
  | none => false
  | some n => n.1 == m.nonce && decide (s.now ≤ n.2 + 600000000000)

/-- The reason for which an action is refused (R431), the lowest first; 0 when it is not. -/
def State.lifeReason (s : State) (m : LifeMsg) : Nat :=
  let life := s.trust.life
  if !lifeFrom m.action life then 1
  else if lifeAuth m.action life && !ecdsaOk s.trust.ownerRoot m.head m.auth then 2
  else if m.action == 2 && !s.certOk m then 3
  else if s.anyOut then 4
  else if m.ident != s.part.ident || !s.nonceOk m then 5
  else if (m.action == 2 || m.action == 5) && rd m.cfg 0 1 != s.part.role then 6
  else 0

/-- A lifecycle command with its message: the checks of R430 to R432, and then what the action does; during a FULL session it is
refused with reason 4 whatever else it meets (R438). -/
def State.lifecycle (s : State) (c : Cmd) (data : List Byte) (f : State → LifeMsg → State) : State :=
  let m := lifeMsg data
  let cfgd := m.action == 2 || m.action == 5
  if c.bufLen ≠ 512 then s.complete c .invalidLength 0
  else if !m.clear || m.action = 0 || 5 < m.action || (cfgd && !sealedOk m.cfg) ||
      (!lifeAuth m.action s.trust.life && m.auth.any (· != 0)) then s.complete c .invalidField 0
  else
    let why := if s.trust.session = 2 then 4 else s.lifeReason m
    let used := match s.trust.nonce with | some n => n.1 == m.nonce | none => false
    let s := s.modTrust fun x => if used then { x with nonce := none } else x
    if why = 0 then f s m
    else
      let s := if why = 2 ∨ why = 3 then s.event { source := 57, subkind := why - 1 } else s
      s.complete c .notPermitted why

/-- Source 54, which every completed action raises (R431). -/
def State.lifeEvent (s : State) : State := s.event { source := 54, subkind := 1 }

/-- The KEEP record of BB_KIND 0x02 (R454). -/
def State.sealRecord (s : State) : State :=
  s.blackBox 0x02 true (keyId s.trust.ownerRoot ++ slice s.trust.ikCertBytes 0 96 ++ slice s.trust.sealed_ 0 16)

/-- The part leaves BLANK: A and B at their reset values (R354), and its events count from 0 (R341). -/
def State.leaveBlank (s : State) : State :=
  let s := { s with part := { s.part with evtSeq := 0 } }
  (s.modCfg fun x => { x with a := [], b := [] }).afterSwap s.now

/-- A part in ROLE_CONFLICT takes the strap reading as its role (R22, R24); outside SEALED the strap gives it. -/
def State.strapToRole (s : State) : State :=
  let role := strapRole s.part.strap
  let r := { s with part := { s.part with role := role }, link := s.link.asRole role }
  if s.conflict then r.testPads 1 else r

/-- LIFECYCLE GENKEY, and an ACTION that R430 does not name (R426, R431): a new IK. Its KEEP record, for which R454 has
no kind, is its event. DESIGN CHOICE, log entry 31. -/
def execLifeGenkey (t : Nat) (c : Cmd) (data : List Byte) (s : State) : Outcome :=
  let s := s.at_ t
  let data := s.inData c data
  .next (s.serve 0x17 c (rd data 0 1 == 1 || rd data 0 1 == 0 || decide (5 < rd data 0 1)) fun s =>
    s.lifecycle c data fun s _ =>
      let d := s.drawBits 256
      let s := d.2.modTrust fun x => { x with ik := some (d.1 % (p256N - 1) + 1), ikCert := false, ikCertBytes := zeros 160 }
      let e := eventEntry 54 s.pos 0 s.tq s.part.evtSeq s.now 1 0 0 0
      (s.lifeEvent.blackBox 0x10 true (e.take 28)).complete c .success 0)

/-- LIFECYCLE SEAL (R354, R431, R444, R455). -/
def execLifeSeal (t : Nat) (c : Cmd) (data : List Byte) (s : State) : Outcome :=
  let s := s.at_ t
  let data := s.inData c data
  .next (s.serve 0x17 c (rd data 0 1 == 2) fun s =>
    s.lifecycle c data fun s m =>
      let blank := s.trust.life == 0
      let s := s.modTrust fun x =>
        { x with ownerRoot := m.root, sealed_ := m.cfg, ikCert := true, ikCertBytes := m.cert, life := 1, prevHash := zeros 32, history := History.from_ t }
      let s := if blank then s.leaveBlank else s
      s.lifeEvent.sealRecord.complete c .success 0)

/-- LIFECYCLE UPDATE (R431): the sealed configuration is replaced. -/
def execLifeUpdate (t : Nat) (c : Cmd) (data : List Byte) (s : State) : Outcome :=
  let s := s.at_ t
  let data := s.inData c data
  .next (s.serve 0x17 c (rd data 0 1 == 5) fun s =>
    s.lifecycle c data fun s m =>
      let s := s.modTrust fun x => { x with sealed_ := m.cfg }
      s.lifeEvent.sealRecord.complete c .success 0)

/-- LIFECYCLE RELOCATE (R24, R433): the completion leaves before the hops go DOWN. -/
def execLifeRelocate (t : Nat) (c : Cmd) (data : List Byte) (s : State) : Outcome :=
  let s := s.at_ t
  let data := s.inData c data
  .next (s.serve 0x17 c (rd data 0 1 == 3) fun s =>
    s.lifecycle c data fun s _ => ((((s.lifeEvent).complete c .success 0).relocateFrom 0).afterSwap t).strapToRole)

/-- LIFECYCLE RETURN (R24, R434): FK signs one last record and is destroyed. DEDUCED, log entry 32. -/
def execLifeReturn (t : Nat) (c : Cmd) (data : List Byte) (s : State) : Outcome :=
  let s := s.at_ t
  let data := s.inData c data
  .next (s.serve 0x17 c (rd data 0 1 == 4) fun s =>
    s.lifecycle c data fun s _ =>
      let blank := s.trust.life == 0
      let s := if blank then s.leaveBlank else s
      let s := s.lifeEvent.runReturn
      (((s.complete c .success 0).drainUrgent).dropHops).strapToRole)

/-! ### Debug sessions (R436 to R439) -/

/-- DEBUG_OBSERVE_OPEN (R436, R437): opened without authentication in RUN and DOZE. -/
def execDebugObserveOpen (t : Nat) (s : State) : Outcome :=
  let s := s.at_ t
  .next (
    if !s.apexRuns || !s.inRunDoze || s.trust.session ≠ 0 then s
    else
      let s := (s.modTrust fun x => { x with session := 1 }).event { source := 55, subkind := 1, item := 1 }
      s.debugRecord 1 false (zeros 8))

/-- The debugger's signature and the conditions of R437 hold for a FULL session. DEDUCED, log entry 33. -/
def State.fullOk (s : State) (sig : List Byte) (keepAwake : Bool) : Bool :=
  let msg := le 8 s.part.ident ++ s.trust.tapNonce ++ le 1 2 ++ le 1 (b2n keepAwake)
  let owner := s.trust.life != 1 || (bit (rd s.trust.sealed_ 1 1) 1 && !s.anyOut)
  owner && ecdsaOk s.debugSigner msg sig

/-- DEBUG_FULL_OPEN (R437, R438): the nonce is used once, whatever comes of it. -/
def execDebugFullOpen (t : Nat) (sig : List Byte) (keepAwake : Bool) (s : State) : Outcome :=
  let s := s.at_ t
  .next (
    if !s.apexRuns || !s.inRunDoze || s.trust.session = 2 then s
    else
      let ok := s.fullOk sig keepAwake
      let n := s.drawBytes 16
      let s := n.2.modTrust fun x => { x with tapNonce := n.1 }
      if !ok then s
      else
        let s := (s.sendSafety 0x04 {}).drainUrgent.dropHops
        let s := s.modTrust fun x => { x with session := 2, keepAwake := keepAwake, hopsHeld := true, debugMark := true }
        (s.event { source := 55, subkind := 1, item := 2 }).debugRecord 2 keepAwake (keyId s.debugSigner))

/-- DEBUG_CLOSE (R437, R439): a SLEEP that was held follows. -/
def execDebugClose (t : Nat) (s : State) : Outcome :=
  let s := s.at_ t
  .next (
    if s.trust.session = 0 then s
    else
      let s := s.closeSession
      if s.trust.sleepHeld then ((s.modTrust fun x => { x with sleepHeld := false }).askLow 2 false).tryEnter else s)

end Sys2Proof.Machine
end

