-- ==== Sys2Proof/Machine/Dispatch.lean ====
section
/-! DEFINITION. One arm per command: each a direct call of its meaning. -/

namespace Sys2Proof.Machine

/-- The effect of a command on everything but the queue. -/
def exec (i : Instr) (s : State) : Host.Outcome State Fault Refusal :=
  match i with
  | .innerLinkBroken t idx0 => Sys2Proof.Machine.execInnerLinkBroken t idx0 s
  | .innerLinkRestored t idx0 => Sys2Proof.Machine.execInnerLinkRestored t idx0 s
  | .dieLost t k => Sys2Proof.Machine.execDieLost t k s
  | .rolePadChange t level => Sys2Proof.Machine.execRolePadChange t level s
  | .precisionSample t k v ovl tj bal => Sys2Proof.Machine.execPrecisionSample t k v ovl tj bal s
  | .spareDwellStep t k b zero => Sys2Proof.Machine.execSpareDwellStep t k b zero s
  | .warmExpire t k => Sys2Proof.Machine.execWarmExpire t k s
  | .refMonitorSample t k ratio => Sys2Proof.Machine.execRefMonitorSample t k ratio s
  | .refIntervalClose t k => Sys2Proof.Machine.execRefIntervalClose t k s
  | .gateWindowOpen t k => Sys2Proof.Machine.execGateWindowOpen t k s
  | .gateWindowClose t k => Sys2Proof.Machine.execGateWindowClose t k s
  | .fastFrameHold t k v zero ref => Sys2Proof.Machine.execFastFrameHold t k v zero ref s
  | .captureTimerTrigger t k => Sys2Proof.Machine.execCaptureTimerTrigger t k s
  | .syncInEdge t rising stableNs => Sys2Proof.Machine.execSyncInEdge t rising stableNs s
  | .carrierBeaconReceive t a te => Sys2Proof.Machine.execCarrierBeaconReceive t a te s
  | .captureEdgeTimeout t k => Sys2Proof.Machine.execCaptureEdgeTimeout t k s
  | .captureBlockDrain t k => Sys2Proof.Machine.execCaptureBlockDrain t k s
  | .seqWord t k m ovl comply => Sys2Proof.Machine.execSeqWord t k m ovl comply s
  | .seqEntryEnd t k presence number => Sys2Proof.Machine.execSeqEntryEnd t k presence number s
  | .m30CalInsert t k gain zero zener => Sys2Proof.Machine.execM30CalInsert t k gain zero zener s
  | .urgentWorkPreempt t k => Sys2Proof.Machine.execUrgentWorkPreempt t k s
  | .urgentWorkEnd t k => Sys2Proof.Machine.execUrgentWorkEnd t k s
  | .calRunClose t k => Sys2Proof.Machine.execCalRunClose t k s
  | .calSolveComplete t k => Sys2Proof.Machine.execCalSolveComplete t k s
  | .calExpiry t k c => Sys2Proof.Machine.execCalExpiry t k c s
  | .currentBlockSend t => Sys2Proof.Machine.execCurrentBlockSend t s
  | .currentBlockReceive t bytes => Sys2Proof.Machine.execCurrentBlockReceive t bytes s
  | .currentBlockMissing t t0 => Sys2Proof.Machine.execCurrentBlockMissing t t0 s
  | .impSegmentEnd t k band => Sys2Proof.Machine.execImpSegmentEnd t k band s
  | .impAverageEnd t k band => Sys2Proof.Machine.execImpAverageEnd t k band s
  | .injectionChip t k => Sys2Proof.Machine.execInjectionChip t k s
  | .chargeBlockSend t => Sys2Proof.Machine.execChargeBlockSend t s
  | .chargeBlockReceive t bytes => Sys2Proof.Machine.execChargeBlockReceive t bytes s
  | .chargeBlockMissing t t0 => Sys2Proof.Machine.execChargeBlockMissing t t0 s
  | .stateSecond t k => Sys2Proof.Machine.execStateSecond t k s
  | .statePersist t k => Sys2Proof.Machine.execStatePersist t k s
  | .comparatorTick t k v => Sys2Proof.Machine.execComparatorTick t k v s
  | .aoncPowerUp t k => Sys2Proof.Machine.execAoncPowerUp t k s
  | .aoncPowerDown t k => Sys2Proof.Machine.execAoncPowerDown t k s
  | .faultNoticeReceive t k side intact => Sys2Proof.Machine.execFaultNoticeReceive t k side intact s
  | .tdacReadback t k uv v => Sys2Proof.Machine.execTdacReadback t k uv v s
  | .balStep t k => Sys2Proof.Machine.execBalStep t k s
  | .balNeedCheck t k => Sys2Proof.Machine.execBalNeedCheck t k s
  | .balOvercurrent t k n => Sys2Proof.Machine.execBalOvercurrent t k n s
  | .balKeepalive t k => Sys2Proof.Machine.execBalKeepalive t k s
  | .balTimeoutExpire t k => Sys2Proof.Machine.execBalTimeoutExpire t k s
  | .owSweep t k => Sys2Proof.Machine.execOwSweep t k s
  | .owCheckComplete t k pre post => Sys2Proof.Machine.execOwCheckComplete t k pre post s
  | .owRecheck t k w pre post => Sys2Proof.Machine.execOwRecheck t k w pre post s
  | .shuntInputBreak t k w => Sys2Proof.Machine.execShuntInputBreak t k w s
  | .searchAll t p => Sys2Proof.Machine.execSearchAll t p s
  | .searchNewPeriodic t p => Sys2Proof.Machine.execSearchNewPeriodic t p s
  | .swpSearchComplete t p attempts acks => Sys2Proof.Machine.execSwpSearchComplete t p attempts acks s
  | .swpStreamCycle t p => Sys2Proof.Machine.execSwpStreamCycle t p s
  | .swpSlotRead t p slot bytes => Sys2Proof.Machine.execSwpSlotRead t p slot bytes s
  | .swpCycleEnd t p => Sys2Proof.Machine.execSwpCycleEnd t p s
  | .swpLineShort t p => Sys2Proof.Machine.execSwpLineShort t p s
  | .swpShortRetry t p => Sys2Proof.Machine.execSwpShortRetry t p s
  | .codewordBoundary t side => Sys2Proof.Machine.execCodewordBoundary t side s
  | .codewordReceive t side bytes => Sys2Proof.Machine.execCodewordReceive t side bytes s
  | .controlCodewordReceive t side bytes => Sys2Proof.Machine.execControlCodewordReceive t side bytes s
  | .tc0AckTimeout t side => Sys2Proof.Machine.execTc0AckTimeout t side s
  | .frameRetryTimeout t side tc => Sys2Proof.Machine.execFrameRetryTimeout t side tc s
  | .hopSilenceTimeout t side => Sys2Proof.Machine.execHopSilenceTimeout t side s
  | .hopMarginTimeout t side => Sys2Proof.Machine.execHopMarginTimeout t side s
  | .hopTrainingRetry t side => Sys2Proof.Machine.execHopTrainingRetry t side s
  | .hopTrainingComplete t side margin peerQpsk => Sys2Proof.Machine.execHopTrainingComplete t side margin peerQpsk s
  | .hopRouteRestore t side => Sys2Proof.Machine.execHopRouteRestore t side s
  | .apcAdjust t side margin => Sys2Proof.Machine.execApcAdjust t side margin s
  | .hopKeyingMessage t side bytes => Sys2Proof.Machine.execHopKeyingMessage t side bytes s
  | .hopRekey t side => Sys2Proof.Machine.execHopRekey t side s
  | .frameForward t side bytes => Sys2Proof.Machine.execFrameForward t side bytes s
  | .mseqGapRelease t origin tc flow => Sys2Proof.Machine.execMseqGapRelease t origin tc flow s
  | .linkStateNoticeReceive t bytes => Sys2Proof.Machine.execLinkStateNoticeReceive t bytes s
  | .commandFrameReceive t bytes => Sys2Proof.Machine.execCommandFrameReceive t bytes s
  | .completionFrameReceive t bytes => Sys2Proof.Machine.execCompletionFrameReceive t bytes s
  | .eventFrameReceive t bytes => Sys2Proof.Machine.execEventFrameReceive t bytes s
  | .recordFrameReceive t bytes => Sys2Proof.Machine.execRecordFrameReceive t bytes s
  | .firmwareFrameReceive t bytes => Sys2Proof.Machine.execFirmwareFrameReceive t bytes s
  | .enumStartReceive t bytes => Sys2Proof.Machine.execEnumStartReceive t bytes s
  | .discoverSend t => Sys2Proof.Machine.execDiscoverSend t s
  | .discoverReceive t side bytes => Sys2Proof.Machine.execDiscoverReceive t side bytes s
  | .enumWaitExpire t answers => Sys2Proof.Machine.execEnumWaitExpire t answers s
  | .timeBeaconSend t => Sys2Proof.Machine.execTimeBeaconSend t s
  | .timeBeaconReceive t side bytes => Sys2Proof.Machine.execTimeBeaconReceive t side bytes s
  | .tqHoldover t => Sys2Proof.Machine.execTqHoldover t s
  | .packTimeCommit t => Sys2Proof.Machine.execPackTimeCommit t s
  | .heartbeatSend t => Sys2Proof.Machine.execHeartbeatSend t s
  | .sleepListenWindow t side => Sys2Proof.Machine.execSleepListenWindow t side s
  | .wakeRunReceive t side durationNs => Sys2Proof.Machine.execWakeRunReceive t side durationNs s
  | .longBeaconDetect t side bits => Sys2Proof.Machine.execLongBeaconDetect t side bits s
  | .innerTimeWord t k word => Sys2Proof.Machine.execInnerTimeWord t k word s
  | .innerTimeWordTimeout t k => Sys2Proof.Machine.execInnerTimeWordTimeout t k s
  | .recordArrive t k intact => Sys2Proof.Machine.execRecordArrive t k intact s
  | .unitProgramComplete t group ok => Sys2Proof.Machine.execUnitProgramComplete t group ok s
  | .d2UnitClose t => Sys2Proof.Machine.execD2UnitClose t s
  | .bucketAccrue t => Sys2Proof.Machine.execBucketAccrue t s
  | .storageTempSample t temp => Sys2Proof.Machine.execStorageTempSample t temp s
  | .blockRefresh t block corrected => Sys2Proof.Machine.execBlockRefresh t block corrected s
  | .storageDieFail t => Sys2Proof.Machine.execStorageDieFail t s
  | .spillHolderRechoose t candidates => Sys2Proof.Machine.execSpillHolderRechoose t candidates s
  | .recordRetentionExpire t => Sys2Proof.Machine.execRecordRetentionExpire t s
  | .locusEvaluate t load cluster => Sys2Proof.Machine.execLocusEvaluate t load cluster s
  | .taskMove t k task complete => Sys2Proof.Machine.execTaskMove t k task complete s
  | .dieRecordResend t k => Sys2Proof.Machine.execDieRecordResend t k s
  | .hifReset t cause => Sys2Proof.Machine.execHifReset t cause s
  | .hifEnable t value => Sys2Proof.Machine.execHifEnable t value s
  | .hifShutdown t value => Sys2Proof.Machine.execHifShutdown t value s
  | .queueEnable t off value => Sys2Proof.Machine.execQueueEnable t off value s
  | .queueDisable t off value => Sys2Proof.Machine.execQueueDisable t off value s
  | .registerWrite t off value size => Sys2Proof.Machine.execRegisterWrite t off value size s
  | .kick t value => Sys2Proof.Machine.execKick t value s
  | .doorbellPoll t => Sys2Proof.Machine.execDoorbellPoll t s
  | .doorbellReadComplete t words => Sys2Proof.Machine.execDoorbellReadComplete t words s
  | .descriptorFetch t sq bytes listBytes data => Sys2Proof.Machine.execDescriptorFetch t sq bytes listBytes data s
  | .commandTimeout t sq cid => Sys2Proof.Machine.execCommandTimeout t sq cid s
  | .completionWrite t cq ok => Sys2Proof.Machine.execCompletionWrite t cq ok s
  | .streamEntryWrite t ring ok => Sys2Proof.Machine.execStreamEntryWrite t ring ok s
  | .eventEntryWrite t ok => Sys2Proof.Machine.execEventEntryWrite t ok s
  | .interruptCoalesceExpire t kind idx => Sys2Proof.Machine.execInterruptCoalesceExpire t kind idx s
  | .msixUnmask t vector => Sys2Proof.Machine.execMsixUnmask t vector s
  | .eventDelayReport t => Sys2Proof.Machine.execEventDelayReport t s
  | .identify t c => Sys2Proof.Machine.execIdentify t c s
  | .enumerate t c => Sys2Proof.Machine.execEnumerate t c s
  | .configRead t c => Sys2Proof.Machine.execConfigRead t c s
  | .shadowWrite t c data => Sys2Proof.Machine.execShadowWrite t c data s
  | .commit t c => Sys2Proof.Machine.execCommit t c s
  | .commitCheck t => Sys2Proof.Machine.execCommitCheck t s
  | .commitRevert t c => Sys2Proof.Machine.execCommitRevert t c s
  | .commitCancel t c => Sys2Proof.Machine.execCommitCancel t c s
  | .configSwap t => Sys2Proof.Machine.execConfigSwap t s
  | .shadowCopyComplete t => Sys2Proof.Machine.execShadowCopyComplete t s
  | .groupCommitDecide t => Sys2Proof.Machine.execGroupCommitDecide t s
  | .groupGoReceive t => Sys2Proof.Machine.execGroupGoReceive t s
  | .groupAbortReceive t => Sys2Proof.Machine.execGroupAbortReceive t s
  | .groupGoDeadline t => Sys2Proof.Machine.execGroupGoDeadline t s
  | .streamOpen t c => Sys2Proof.Machine.execStreamOpen t c s
  | .streamClose t c => Sys2Proof.Machine.execStreamClose t c s
  | .recordRead t c => Sys2Proof.Machine.execRecordRead t c s
  | .captureArm t c => Sys2Proof.Machine.execCaptureArm t c s
  | .captureDisarm t c => Sys2Proof.Machine.execCaptureDisarm t c s
  | .captureFetch t c lost => Sys2Proof.Machine.execCaptureFetch t c lost s
  | .storeRead t c lost => Sys2Proof.Machine.execStoreRead t c lost s
  | .balancePolicy t c => Sys2Proof.Machine.execBalancePolicy t c s
  | .powerStateRun t c => Sys2Proof.Machine.execPowerStateRun t c s
  | .powerStateDoze t c => Sys2Proof.Machine.execPowerStateDoze t c s
  | .powerStateSleep t c => Sys2Proof.Machine.execPowerStateSleep t c s
  | .powerStateShip t c => Sys2Proof.Machine.execPowerStateShip t c s
  | .selftestRunAll t c results => Sys2Proof.Machine.execSelftestRunAll t c results s
  | .selftestRunBlock t c result => Sys2Proof.Machine.execSelftestRunBlock t c result s
  | .calEarlyEnd t c => Sys2Proof.Machine.execCalEarlyEnd t c s
  | .calReset t c => Sys2Proof.Machine.execCalReset t c s
  | .checkCompute t c data => Sys2Proof.Machine.execCheckCompute t c data s
  | .meterStatement t c => Sys2Proof.Machine.execMeterStatement t c s
  | .trustChallenge t c => Sys2Proof.Machine.execTrustChallenge t c s
  | .firmwareStage t c data => Sys2Proof.Machine.execFirmwareStage t c data s
  | .firmwareVerify t c => Sys2Proof.Machine.execFirmwareVerify t c s
  | .firmwareActivate t c starts => Sys2Proof.Machine.execFirmwareActivate t c starts s
  | .firmwareReturnPrevious t c starts => Sys2Proof.Machine.execFirmwareReturnPrevious t c starts s
  | .spanReady t => Sys2Proof.Machine.execSpanReady t s
  | .spanReadyTimeout t => Sys2Proof.Machine.execSpanReadyTimeout t s
  | .spanStop t => Sys2Proof.Machine.execSpanStop t s
  | .svnCommit t image => Sys2Proof.Machine.execSvnCommit t image s
  | .sensorSearch t c => Sys2Proof.Machine.execSensorSearch t c s
  | .blackboxRead t c => Sys2Proof.Machine.execBlackboxRead t c s
  | .lockoutRelease t c => Sys2Proof.Machine.execLockoutRelease t c s
  | .lifeGenkey t c data => Sys2Proof.Machine.execLifeGenkey t c data s
  | .lifeSeal t c data => Sys2Proof.Machine.execLifeSeal t c data s
  | .lifeUpdate t c data => Sys2Proof.Machine.execLifeUpdate t c data s
  | .lifeRelocate t c data => Sys2Proof.Machine.execLifeRelocate t c data s
  | .lifeReturn t c data => Sys2Proof.Machine.execLifeReturn t c data s
  | .ping t c => Sys2Proof.Machine.execPing t c s
  | .safetyTick t lorst => Sys2Proof.Machine.execSafetyTick t lorst s
  | .safetyInputSample t levels fb tp => Sys2Proof.Machine.execSafetyInputSample t levels fb tp s
  | .testPulseStart t out => Sys2Proof.Machine.execTestPulseStart t out s
  | .discrepancyLatch t idx0 => Sys2Proof.Machine.execDiscrepancyLatch t idx0 s
  | .safetyFrameReceive t bytes => Sys2Proof.Machine.execSafetyFrameReceive t bytes s
  | .safetyMboxService t bytes => Sys2Proof.Machine.execSafetyMboxService t bytes s
  | .hostWatchdogExpire t => Sys2Proof.Machine.execHostWatchdogExpire t s
  | .watchdogExpire t p => Sys2Proof.Machine.execWatchdogExpire t p s
  | .outputOvercurrent t k => Sys2Proof.Machine.execOutputOvercurrent t k s
  | .outputOpenLoad t k => Sys2Proof.Machine.execOutputOpenLoad t k s
  | .outputEconomyStart t k vaux => Sys2Proof.Machine.execOutputEconomyStart t k vaux s
  | .feedbackTimeout t k => Sys2Proof.Machine.execFeedbackTimeout t k s
  | .lorstReleaseEdge t => Sys2Proof.Machine.execLorstReleaseEdge t s
  | .lorstHeld t => Sys2Proof.Machine.execLorstHeld t s
  | .inputValid t which v => Sys2Proof.Machine.execInputValid t which v s
  | .inputInvalid t which v => Sys2Proof.Machine.execInputInvalid t which v s
  | .railFault t rail kind => Sys2Proof.Machine.execRailFault t rail kind s
  | .railRetry t rail => Sys2Proof.Machine.execRailRetry t rail s
  | .railCounterCopy t => Sys2Proof.Machine.execRailCounterCopy t s
  | .holdCharged t mv => Sys2Proof.Machine.execHoldCharged t mv s
  | .holdLow t mv => Sys2Proof.Machine.execHoldLow t mv s
  | .holdChargeTimeout t => Sys2Proof.Machine.execHoldChargeTimeout t s
  | .powerUpSequence t strap => Sys2Proof.Machine.execPowerUpSequence t strap s
  | .railInRegulation t rail bist => Sys2Proof.Machine.execRailInRegulation t rail bist s
  | .railRampTimeout t rail => Sys2Proof.Machine.execRailRampTimeout t rail s
  | .powerUpRetry t => Sys2Proof.Machine.execPowerUpRetry t s
  | .railDischarged t rail timedOut => Sys2Proof.Machine.execRailDischarged t rail timedOut s
  | .powerFailWarning t item => Sys2Proof.Machine.execPowerFailWarning t item s
  | .holdTimeExpire t => Sys2Proof.Machine.execHoldTimeExpire t s
  | .shutdownRestart t => Sys2Proof.Machine.execShutdownRestart t s
  | .dozeEnter t => Sys2Proof.Machine.execDozeEnter t s
  | .dozeExit t => Sys2Proof.Machine.execDozeExit t s
  | .wakeSource t code => Sys2Proof.Machine.execWakeSource t code s
  | .sleepTimerExpire t => Sys2Proof.Machine.execSleepTimerExpire t s
  | .aonSupplyLoss t => Sys2Proof.Machine.execAonSupplyLoss t s
  | .rstNAssert t => Sys2Proof.Machine.execRstNAssert t s
  | .rstNRelease t strap => Sys2Proof.Machine.execRstNRelease t strap s
  | .rstNStuck t strap => Sys2Proof.Machine.execRstNStuck t strap s
  | .rstIgnoredClear t => Sys2Proof.Machine.execRstIgnoredClear t s
  | .dieIsolationTimeout t k => Sys2Proof.Machine.execDieIsolationTimeout t k s
  | .precPowerUp t k bist => Sys2Proof.Machine.execPrecPowerUp t k bist s
  | .firewallViolation t => Sys2Proof.Machine.execFirewallViolation t s
  | .meterCommit t => Sys2Proof.Machine.execMeterCommit t s
  | .meterSnapshot t => Sys2Proof.Machine.execMeterSnapshot t s
  | .historyPeriod t => Sys2Proof.Machine.execHistoryPeriod t s
  | .blackboxRecordWrite t okA okB => Sys2Proof.Machine.execBlackboxRecordWrite t okA okB s
  | .debugObserveOpen t => Sys2Proof.Machine.execDebugObserveOpen t s
  | .debugFullOpen t sig keepAwake => Sys2Proof.Machine.execDebugFullOpen t sig keepAwake s
  | .debugClose t => Sys2Proof.Machine.execDebugClose t s
  | .sliceStart t k => Sys2Proof.Machine.execSliceStart t k s
  | .sliceEnd t k result rail => Sys2Proof.Machine.execSliceEnd t k result rail s
  | .selftestOverdue t k block => Sys2Proof.Machine.execSelftestOverdue t k block s
  | .hubBistRetry t pass => Sys2Proof.Machine.execHubBistRetry t pass s
  | .chkOpen t unit ctrl => Sys2Proof.Machine.execChkOpen t unit ctrl s
  | .chkDataWrite t unit width value => Sys2Proof.Machine.execChkDataWrite t unit width value s
  | .chkClose t unit ctrl => Sys2Proof.Machine.execChkClose t unit ctrl s
  | .thermalSample t temps => Sys2Proof.Machine.execThermalSample t temps s
  | .thermalStepDown t => Sys2Proof.Machine.execThermalStepDown t s
  | .dieOverheat t k => Sys2Proof.Machine.execDieOverheat t k s
  | .dieCooled t k => Sys2Proof.Machine.execDieCooled t k s
  | .hubOverheat t => Sys2Proof.Machine.execHubOverheat t s
  | .hubCooled t pass => Sys2Proof.Machine.execHubCooled t pass s
  | .faultNoticeFrameReceive t bytes => Sys2Proof.Machine.execFaultNoticeFrameReceive t bytes s
  | .gatewayHeartbeatReceive t bytes => Sys2Proof.Machine.execGatewayHeartbeatReceive t bytes s
  | .gwOkTimeout t => Sys2Proof.Machine.execGwOkTimeout t s
  | .enumFrameReceive t bytes => Sys2Proof.Machine.execEnumFrameReceive t bytes s
  | .balanceRecordInterval t k => Sys2Proof.Machine.execBalanceRecordInterval t k s
  | .hostReadTimeout t what idx cid => Sys2Proof.Machine.execHostReadTimeout t what idx cid s

end Sys2Proof.Machine
end

