-- ==== Sys2Proof/Safety.lean ====
section
/-! DEFINITION. What the statements call safe: the part of the state that almost no command may touch, and the
invariants that every step keeps. -/

namespace Sys2Proof.Machine

/-- What few commands change: the waiting commands, what the part is, its lifecycle state with the keys it guards, the
security version fuses, and the active configuration set with its epoch (R2, R353, R427, R429, R450). -/
structure Fixed where
  pending : List Instr
  ident : Nat
  cellDies : Nat
  store : Bool
  life : Nat
  journal : Nat
  fuseReturned : Bool
  fk : Nat
  ik : Option Nat
  ownerRoot : List Byte
  sealed_ : List Byte
  svnSpan : Nat
  svnApex : Nat
  ownerGen : Nat
  active : List Host.Cell
  epoch : Nat
deriving DecidableEq, Repr

/-- The guarded part of a state. -/
def State.fixed (s : State) : Fixed :=
  { pending := s.pending, ident := s.part.ident, cellDies := s.part.cellDies, store := s.part.store, life := s.trust.life,
    journal := s.trust.journal, fuseReturned := s.trust.fuseReturned, fk := s.trust.fk, ik := s.trust.ik, ownerRoot := s.trust.ownerRoot,
    sealed_ := s.trust.sealed_, svnSpan := s.trust.svnSpan, svnApex := s.trust.svnApex, ownerGen := s.trust.ownerGen, active := s.cfg.a,
    epoch := s.cfg.epoch }

/-- What raising an event, sending a frame or completing a command leaves alone: the dies and every block of the hub but
Locus, the host interface, the link, the event number and the waiting black-box records. -/
structure Kept where
  now : Nat
  part : PartState
  dies : List Die
  cfg : CfgState
  sync : SyncState
  swp : List SwpPort
  safe : SafeState
  power : PowerState
  trust : TrustState
  selfTest : List SelfTest
  chk : List ChkUnit
  therm : ThermState
deriving DecidableEq, Repr

/-- The part without its event number. -/
def PartState.still (p : PartState) : PartState := { p with evtSeq := 0 }
/-- Apex without the black-box records that wait. -/
def TrustState.still (x : TrustState) : TrustState := { x with bbWait := [] }

/-- That part of a state. -/
def State.kept (s : State) : Kept :=
  { now := s.now, part := s.part.still, dies := s.dies, cfg := s.cfg, sync := s.sync, swp := s.swp, safe := s.safe,
    power := s.power, trust := s.trust.still, selfTest := s.selfTest, chk := s.chk, therm := s.therm }

/-- No keys and no owner material are left (R434). -/
def Fixed.bare (x : Fixed) : Prop :=
  x.life = 3 ∧ x.fk = 0 ∧ x.ik = none ∧ x.ownerRoot = zeros 64 ∧ x.sealed_ = zeros 64

/-- The guarded part without the lifecycle: what a resumed transition does not touch. -/
def Fixed.core (x : Fixed) : Fixed :=
  { x with life := 0, journal := 0, fuseReturned := false, fk := 0, ik := none, ownerRoot := [], sealed_ := [], ownerGen := 0, active := [],
           epoch := 0 }

/-- The lifecycle between two commands (R429, R433, R434): no transition is in progress, and a part that is RETURNED, by
its state or by its fuse, is bare. -/
def Fixed.settled (x : Fixed) : Prop := x.journal = 0 ∧ (x.life = 3 ∨ x.fuseReturned = true → x.bare)

/-- What a lifecycle command may do to the guarded part: nothing, or one accepted action of R431. -/
def Fixed.lifeStep (x y : Fixed) : Prop :=
  y = x ∨ (x.life ≠ 3 ∧
    ((∃ k, y = { x with ik := some k }) ∨ (∃ r g a, y = { x with ownerRoot := r, sealed_ := g, life := 1, active := a }) ∨ (∃ g, y = { x with sealed_ := g }) ∨
      y = { x with life := 2, journal := 0, ik := none, ownerRoot := zeros 64, sealed_ := zeros 64,
                   ownerGen := (x.ownerGen + 1) % 256, active := [] } ∨
      ∃ a, y = { x with life := 3, journal := 0, fuseReturned := true, fk := 0, ik := none, ownerRoot := zeros 64, sealed_ := zeros 64,
                        active := a }))

/-- A latched lock-out keeps every output off (R365, R375). -/
def State.lockedOff (s : State) : Prop := s.safe.lockout = true → ∀ k, k < 3 → s.outOn k = false

/-! ### Words of the statements -/

/-- A command executed on a state answers a next state of which `P` holds. -/
def Runs (i : Instr) (s : State) (P : State → Prop) : Prop := ∃ s', exec i s = .next s' ∧ P s'

/-- Cell island k is fitted and its die is d (R3). -/
abbrev State.hasDie (s : State) (k : Nat) (d : Die) : Prop := s.fitted k = true ∧ s.die? k = some d

/-- A descriptor of an opcode is served at this part in RUN: it executes commands, the descriptor is for it and is there to
execute, and no refusal that any opcode may meet applies (R331, R332, R350, R351). -/
abbrev State.serves (s : State) (code : Nat) (c : Cmd) : Prop :=
  s.executes = true ∧ s.isMine code c = true ∧ s.present c = true ∧ s.power.st = 0 ∧ s.refusal code c = none

/-- The state on which a served command has its effect: the instant is taken, DOZE_IDLE starts anew, and the command has run
here (R11, R332, R414). -/
abbrev State.served (s : State) (t : Nat) (c : Cmd) : State := ((s.at_ t).noteActivity).markRan c

/-- Something read from die k of a state is `v`. -/
def State.dieShows {α : Type} (s : State) (k : Nat) (f : Die → α) (v : α) : Prop := (s.die? k).map f = some v

/-- Something read from single-wire port p of a state is `v`. -/
def State.portShows {α : Type} (s : State) (p : Nat) (f : SwpPort → α) (v : α) : Prop := (s.swp[p - 1]?).map f = some v

/-- A LIFECYCLE command of an action that the part accepts at an instant: it is served, no FULL session is open, its
message is well formed and authorised, and R431 gives no reason against it (R430 to R432). -/
abbrev State.acceptsLife (s : State) (t action : Nat) (c : Cmd) (data : List Byte) : Prop :=
  s.serves 0x17 c ∧ s.trust.session ≠ 2 ∧ rd data 0 1 = action ∧ c.bufLen = 512 ∧ (lifeMsg data).clear = true ∧
    ((action = 2 ∨ action = 5) → sealedOk (lifeMsg data).cfg = true) ∧
    (lifeAuth action s.trust.life = false → (lifeMsg data).auth.any (· != 0) = false) ∧ (s.served t c).lifeReason (lifeMsg data) = 0

/-- The check of the pending commit refuses B as it stands: the commit ends with CONFIG_INVALID, and A is kept (R356). -/
def State.rejectsCommit (s : State) (t : Nat) : Prop :=
  ∀ p, s.cfg.pend = some p → p.checked = false → s.cfg.waiting = [] →
    Runs (.commitCheck t) s fun s' => s'.cfg.a = s.cfg.a ∧ s'.cfg.epoch = s.cfg.epoch ∧ s'.cfg.pend = none ∧
      ∃ r, s' = (((s.at_ t).modCfg fun x => { x with pend := none }).complete p.cmd .configInvalid r).evalOuts

end Sys2Proof.Machine
end

