-- ==== Sys2Proof/Certificates/Slice0/Obligations.lean ====
section
/-! DEFINITION. The statements about this machine that are to be proved. `Runs i s P` (Safety.lean) says that exec i s
answers a next state of which P holds, so a clause that concludes with it says where the command completes. -/

open Sys2Proof Sys2Proof.Machine

/-- For every command c, every queue rest and every state s, a step of s with c in front of rest is exec of c on s with
rest as its queue. With an empty queue a step answers s itself (the model's choice, log entry 1). Formalises R11,
R332. -/
def Obligations.StepTakesFrontCommand : Prop :=
  (∀ (c : Instr) (rest : List Instr) (s : State), step (s.withPending (c :: rest)) = exec c (s.withPending rest)) ∧
    ∀ s : State, s.pending = [] → step s = .next s

/-- Every command, executed on any state, answers a next state with the queue it found. In every state, a step with a
command in front answers a next state whose queue is the old queue without its front. No command puts another in the
queue, takes a second one out or reorders it. That the queue is first in first out is the model's form of the block
(log entry 1). Formalises R11, R332. -/
def Obligations.StepConsumesExactlyOneCommand : Prop :=
  (∀ (i : Instr) (s : State), Runs i s fun s' => s'.pending = s.pending) ∧
    ∀ (s : State) (c : Instr) (rest : List Instr), s.pending = c :: rest → ∃ s', step s = .next s' ∧ s'.pending = rest

/-- The invariant: no transition of R433 or R434 is in progress, and a part that is RETURNED, by its state or by its fuse,
holds neither FK nor IK nor an owner root nor a sealed configuration. Every command of the block, the start of the hub
among them, keeps it. Formalises R429, R431, R433, R434. -/
def Obligations.SettledLifecycleIsKept : Prop :=
  ∀ s s' : State, s.fixed.settled → step s = .next s' → s'.fixed.settled

/-- The state after reset meets the invariant that SettledLifecycleIsKept keeps, and its three configuration maps are in
canonical form; and it meets the invariant that LatchedLockoutKeepsOutputsOff keeps. Formalises R365, R429, R433,
R434. -/
def Obligations.ResetIsSettled : Prop :=
  State.reset.fixed.settled ∧ cellWf State.reset.cfg.a = true ∧ cellWf State.reset.cfg.b = true ∧ cellWf State.reset.cfg.f = true ∧
    State.reset.lockedOff

/-- In a settled state, a step whose command is none of the five LIFECYCLE actions, SVN_COMMIT, CONFIG_SWAP,
BALANCE_POLICY and HOLD_TIME_EXPIRE (whose loss of supply may end a swap half done) answers a next state and changes
nothing of the guarded part but the queue: the identity and what is fitted, the lifecycle state with FK, IK, the owner
root, the sealed configuration and the RETURNED fuse, the security version fuses, the owner generation, the active set
A and its epoch. Formalises R2, R356, R361, R429, R430, R450. -/
def Obligations.OnlyNamedCommandsChangeTheGuardedState : Prop :=
  ∀ (s : State) (c : Instr) (rest : List Instr), s.fixed.settled → s.pending = c :: rest →
    (∀ t d data, c ≠ .lifeGenkey t d data ∧ c ≠ .lifeSeal t d data ∧ c ≠ .lifeUpdate t d data ∧ c ≠ .lifeRelocate t d data ∧
      c ≠ .lifeReturn t d data) →
    (∀ t image, c ≠ .svnCommit t image) → (∀ t, c ≠ .configSwap t) → (∀ t d, c ≠ .balancePolicy t d) → (∀ t, c ≠ .holdTimeExpire t) →
    ∃ s', step s = .next s' ∧ s'.fixed = { s.fixed with pending := rest }

/-- Every step, from every state, leaves both security version fuse counts at least as high as they were. Formalises R450. -/
def Obligations.SecurityVersionFusesOnlyRise : Prop :=
  ∀ s s' : State, step s = .next s' → s.trust.svnSpan ≤ s'.trust.svnSpan ∧ s.trust.svnApex ≤ s'.trust.svnApex

/-- In a settled state with the lifecycle RETURNED, every step leaves the lifecycle RETURNED and no key comes back.
Formalises R429, R431, R434. -/
def Obligations.ReturnedIsFinal : Prop :=
  ∀ s s' : State, s.fixed.settled → s.trust.life = 3 → step s = .next s' → s'.trust.life = 3 ∧ s'.fixed.bare

/-- On a fitted die: a precision sample on the output grid of a running path takes the words of that sample, after the
swapped registers whose boundary it is and the cap of the balancing current, and then a step of pack time that waits
for this boundary; a dwell that has ended under the registers then in force moves a free spare to the next cell, from
24 to 1; WARM clears ten minutes after power-up; a ratio joins the reference interval unless a slice holds the
monitor; the close of an interval of ten seconds keeps its mean as the previous one and starts an empty interval; a
gate window opens at its start and ends at its end. Each clause concludes that exec answers a next state. Formalises
R30, R34, R36, R52, R62, R66. -/
def Obligations.PrecisionCommandsComplete : Prop :=
  ∀ (t k : Nat) (d : Die) (s : State), s.hasDie k d →
    (∀ (v : List Rat) (ovl : List Overload) (tj : Int) (bal : List Rat) (e : Die) (w : State),
      d.prec.running = true → d.precOn = true → s.inRunDoze = true →
      w = (((s.at_ t).modDie k fun x => { x with prec := { x.prec with temp := tj } }).atSample k) → t % w.periodOf k = 0 →
      (w.applyCap k).hasDie k e →
      Runs (.precisionSample t k v ovl tj bal) s fun s' => s' = ((w.applyCap k).precSample k e v ovl bal).stepAt k) ∧
    (∀ (b : Bool) (zero : Rat) (e : Die) (w : State), w = (s.at_ t).takePrec k → w.hasDie k e →
      e.prec.running = true → e.precOn = true → e.prec.held.getD (b2n b) 0 = 0 →
      e.prec.failed.contains (25 + b2n b) = false → e.prec.spareStep.getD (b2n b) 0 + w.fF 0x01 k 8 7 0 * 1000000000 ≤ t →
      Runs (.spareDwellStep t k b zero) s fun s' =>
        s'.dieShows k (fun x => (x.prec.spareCell, x.prec.spareStep))
          (setNth (b2n b) (e.prec.spareCell.getD (b2n b) 1 % 24 + 1) e.prec.spareCell, setNth (b2n b) t e.prec.spareStep)) ∧
    (d.precOn = true → d.prec.upAt + 600000000000 ≤ t → Runs (.warmExpire t k) s fun s' => s'.dieShows k (fun x => x.prec.warm) false) ∧
    (∀ ratio : Rat, d.precOn = true → ((s.selfTest[k]?).bind (·.slice)).map (·.1) ≠ some 0x0501 →
      Runs (.refMonitorSample t k ratio) s fun s' =>
        s'.dieShows k (fun x => (x.prec.refSum, x.prec.refCount)) (d.prec.refSum + ratio, d.prec.refCount + 1)) ∧
    (d.precOn = true → d.prec.refCount ≠ 0 → d.prec.refAt + 10000000000 ≤ t →
      Runs (.refIntervalClose t k) s fun s' =>
        s'.dieShows k (fun x => (x.prec.refSum, x.prec.refCount, x.prec.refPrev, x.prec.refAt))
          (0, 0, some (d.prec.refSum / (d.prec.refCount : Rat)), t)) ∧
    (∀ (e : Die) (w : State), w = (s.at_ t).takePrec k → w.hasDie k e →
      e.prec.running = true → e.precOn = true → w.fB 0x01 k 0 5 = true → e.prot.anyOn = true →
      t + windowLen (w.fF 0x01 k 0 15 8) (w.rateOf k) (w.filtOf k) = w.gateEnd k e →
      Runs (.gateWindowOpen t k) s fun s' =>
        s'.dieShows k (fun x => (x.prec.window, x.prec.gatedE)) (some (w.gateEnd k e), some (w.gateEnd k e))) ∧
    ∀ e : Nat, d.prec.window = some e → e ≤ t → Runs (.gateWindowClose t k) s fun s' => s'.dieShows k (fun x => x.prec.window) none

/-- With the task enabled on a fitted die, the command that ends a band's segment, once its current blocks have come or
are missing, moves the band to its next segment; the one that ends an average closes it and clears MOVED; a chip of a
running injection steps the generator and gives its chip, and at the start of an average, a new average becomes the
injected one. Each clause concludes that exec answers a next state. Formalises R145, R146, R152, R156, R158, R162. -/
def Obligations.ImpedanceCommandsComplete : Prop :=
  ∀ (t k band : Nat) (d : Die) (s : State), ((s.at_ t).adoptImp k).hasDie k d →
    (∀ j : Nat, ((s.at_ t).adoptImp k).impEn k = true → ((s.at_ t).adoptImp k).bandEn k band = true → d.prot.protOnly = false → band ≤ 2 →
      band < d.imp.segNext.length → d.imp.segNext.getD band none = some j → ((s.at_ t).adoptImp k).avgLen k band ≠ 0 →
      (j % ((s.at_ t).adoptImp k).avgLen k band = 0 ∨ ∃ av, d.imp.avgs.getD band none = some av) →
      (j * 2048 + 4096) * bandPeriod band ≤ t →
      ((s.at_ t).adoptImp k).curSettled k ((j * 2048 + 4096) * bandPeriod band) d.imp = true →
      Runs (.impSegmentEnd t k band) s fun s' => s'.dieShows k (fun x => x.imp.segNext.getD band none) (some (j + 1))) ∧
    (∀ av j, ((s.at_ t).adoptImp k).impEn k = true → d.prot.protOnly = false → d.imp.avgs.getD band none = some av →
      d.imp.segNext.getD band none = some j → j = (av.index + 1) * ((s.at_ t).adoptImp k).avgLen k band →
      Runs (.impAverageEnd t k band) s fun s' => s'.dieShows k (fun x => (x.imp.avgs.getD band none, x.imp.moved)) (none, false)) ∧
    ∀ (w : State) (per len : Nat), w = (s.at_ t).adoptImp k → per = chipPeriod (w.fF 0x05 k 0 7 6) →
      len = w.avgLen k (w.fF 0x05 k 0 7 6) * bandHop (w.fF 0x05 k 0 7 6) → len ≠ 0 → w.injInForce k d = true →
      w.injRuns k d = true → (t % len) % per = 0 →
      ((t % len ≠ 0 ∨ d.imp.injAvg = some (t / len)) → d.imp.injActive = true →
        Runs (.injectionChip t k) s fun s' =>
          s'.dieShows k (fun x => (x.imp.lfsr, x.imp.chip, x.imp.injActive)) ((chipStep d.imp.lfsr).2, (chipStep d.imp.lfsr).1, true)) ∧
      (t % len = 0 → d.imp.injAvg ≠ some (t / len) → Runs (.injectionChip t k) s fun s' => s'.dieShows k (fun x => x.imp.injAvg) (some (t / len)))

/-- On a fitted die: a frame is held at a whole microsecond of a running path and feeds the impedance task and the stream,
unless derating leaves it out, and then the capture; T_TRIG of a timer capture triggers it when the path has not
stopped before it; the beacon that answers A triggers every armed PWM capture of that A; a PWM capture without beacon
closes at its timeout; a complete block of the open capture is delivered when no record, event or notice of the die
waits before it. At a gateway that serves, with SYNC_EN, an accepted edge becomes the last edge, and the level is
followed. Each clause concludes that exec answers a next state. Formalises R68, R78, R80, R81, R82, R88, R96. -/
def Obligations.FastPathCommandsComplete : Prop :=
  (∀ (t k : Nat) (v : HoldInput) (zero ref : Rat) (d : Die) (s w0 w1 : State), w0 = (((s.at_ t).takePrec k).adoptImp k).fastDomain k →
      w1 = (if w0.checking k then w0.settleChannels k else w0) → w1.hasDie k d → w1.fastRuns k d = true → t % 1000 = 0 →
      Runs (.fastFrameHold t k v zero ref) s fun s' =>
        ∃ (w : State) (x : FastFrame), x = w1.frameAt k d v.volts ∧ w.dieShows k (fun y => (y.fast.prevOver, y.fast.prevHold)) (x.ovrng, t) ∧
          s' = (if d.fast.derated && !d.fast.dutyHolds t then w else (w.feedImp k x).feedStream k x).closeCapture k) ∧
    (∀ (t k x : Nat) (d : Die) (c : Capture) (s : State), s.hasDie k d → d.fast.cap = some c → c.src = 0 → c.triggered = false →
      c.tTrig = some x → x ≤ t → d.stoppedAt t (trigHold x) = false →
      Runs (.captureTimerTrigger t k) s fun s' => s'.dieShows k (fun y => y.fast.cap.map (·.triggered)) (some true)) ∧
    (∀ (t a te k : Nat) (d : Die) (c : Capture) (s : State), s.hasDie k d → d.fast.cap = some c → c.src = 1 → c.a = a → c.tTrig = none →
      c.triggered = false → d.stoppedAt t (trigHold (te + c.delay * 10)) = false →
      Runs (.carrierBeaconReceive t a te) s fun s' => s'.dieShows k (fun y => y.fast.cap.map (·.triggered)) (some true)) ∧
    (∀ (t k : Nat) (d : Die) (c : Capture) (s : State), s.hasDie k d → d.fast.cap = some c → c.src = 1 → c.tTrig = none →
      c.a + c.timeoutMs * 1000000 ≤ t → Runs (.captureEdgeTimeout t k) s fun s' => s'.dieShows k (fun y => y.fast.cap) none) ∧
    (∀ (t k : Nat) (d : Die) (c : Capture) (b : List FastFrame × Bool) (s : State), s.hasDie k d → s.inRun = true → s.hubTakes k = true →
      d.precOn = true → d.t0 = [] → d.t0Events = [] → d.prot.notices = [] → d.fast.cap = some c →
      d.fast.captures.find? (d.drains t) = some c → d.fast.nextBlock c t = some b →
      Runs (.captureBlockDrain t k) s fun s' =>
        s'.dieShows k (fun y => y.fast.cap.map (·.delivered)) (some (c.delivered + b.1.length))) ∧
    ∀ (t : Nat) (rising : Bool) (stableNs : Nat) (s : State), s.isGateway = true → s.part.serving = true → s.part.hubHeld = false →
      s.fB 0x02 0 0 0 = true → 40 ≤ stableNs →
      s.sync.level ≠ some rising → rising ≠ s.fB 0x02 0 0 1 → (s.sync.level.isSome = true → s.sync.since + 100 ≤ t) →
      (∀ e, s.sync.lastEdge = some e → e + 10000 ≤ t) →
      Runs (.syncInEdge t rising stableNs) s fun s' => s'.sync.level = some rising ∧ s'.sync.since = t ∧ s'.sync.lastEdge = some t

/-- On a fitted die, after a swapped sequence block is taken: an output period that ends at its instant within the entry
adds one word; the end of an ID_1W entry notes its three words and moves on; the end of any other entry with all its
words closes it, judges its reading and moves on; a calibration pair is taken for a gain that the table uses, at most
once a minute; urgent work takes M30, and its end closes the wire check in progress and gives M30 back, where a
running table resumes. Each clause concludes that exec answers a next state. Formalises R103, R105, R106, R113, R114,
R189, R190. -/
def Obligations.SequencerCommandsComplete : Prop :=
  ∀ (t k : Nat) (d : Die) (s w : State), w = (s.at_ t).adoptSeq k → w.hasDie k d →
    (∀ (m : Rat) (ovl : Overload) (comply : Bool) (x : SeqRun), d.seq.cur = some x → w.seqChannel k x.entry ≠ 0x81 →
      t = x.tStart + bits (w.seqCtrl k x.entry) 31 16 * 1000 + (x.words.length + 1) * ratePeriod (bits (w.seqMode k x.entry) 2 0) →
      x.words.length + 1 ≤ filtOrder (bit (w.seqMode k x.entry) 3) + w.seqRepeat k x.entry →
      Runs (.seqWord t k m ovl comply) s fun s' => ∃ v, s'.dieShows k (fun y => y.seq.cur.map (·.words)) (some (x.words ++ [v]))) ∧
    (∀ (presence : Bool) (number : Nat) (x : SeqRun), d.seq.cur = some x → w.seqChannel k x.entry = 0x81 → x.tStart ≤ t →
      Runs (.seqEntryEnd t k presence number) s fun s' => ∃ u : State, s' = (u.closeEntry k false false).seqAdvance k x.entry t ∧
        u.dieShows k (fun y => y.seq.cur.map (·.words))
          (some [number % 2 ^ 32, number / 2 ^ 32 % 2 ^ 32, if (presence && numberOk number) = true then 0 else 0x80000000]) ∧
        u.dieShows k (·.seq.idSeen) (if (presence && numberOk number) = true then some (2 ^ 64 + number % 2 ^ 64) else d.seq.idSeen)) ∧
    (∀ (presence : Bool) (number : Nat) (x : SeqRun), d.seq.cur = some x → w.seqChannel k x.entry ≠ 0x81 →
      x.words.length = filtOrder (bit (w.seqMode k x.entry) 3) + w.seqRepeat k x.entry →
      Runs (.seqEntryEnd t k presence number) s fun s' =>
        s' = ((w.closeEntry k false false).modDie k fun y => { y with seq := y.seq.judgeRead y.cal (w.seqChannel k x.entry) }).seqAdvance k x.entry t) ∧
    (∀ (gain i : Nat) (zero : Rat) (zener : ZenerRead) (c : M30Cal), d.precOn = true → d.prot.protOnly = false → zener.len ≤ 3000000 → gain < 3 → i < 64 → w.seqRepeat k i ≠ 0 → w.seqChannel k i ≠ 0x81 →
      bits (w.seqMode k i) 7 6 = gain → d.seq.atBoundary t = true → d.seq.taken = false → d.seq.m30[gain]? = some c →
      (∀ x, c.lastAt = some x → x + 60000000000 ≤ t) →
      Runs (.m30CalInsert t k gain zero zener) s fun s' => s'.dieShows k (fun y => (y.seq.m30[gain]?).map (·.lastAt)) (some (some t))) ∧
    (d.precOn = true → d.seq.urgent = false → d.seq.cur = none →
      Runs (.urgentWorkPreempt t k) s fun s' => s'.dieShows k (·.seq.urgent) true) ∧
    (d.seq.urgent = true → d.seq.running = false →
      Runs (.urgentWorkEnd t k) s fun s' => s'.dieShows k (fun y => (y.seq.urgent, y.prot.owRun)) (false, none)) ∧
    ∀ (v : State) (e : Die), d.seq.urgent = true → v = ((w.owEnd k).modDie k fun y => { y with seq := { y.seq with urgent := false } }) →
      v.hasDie k e → v.seqMay k e = true → e.seq.running = true → e.seq.cur = none → e.seq.resume < 64 →
      Runs (.urgentWorkEnd t k) s fun s' => s' = v.startFrom k e.seq.resume v.now

/-- On a fitted die: when the window has lasted CAL_WINDOW minutes a complete run goes to its solve, and no run is open
until then, while an incomplete one ends with RESULT 4 and the next opens at that instant; the solve ends with no run
waiting, and a candidate without a held one is kept as the held one; a channel whose last acceptance is thirty days
old becomes stale. Each clause concludes that exec answers a next state. Formalises R126, R127, R129, R133. -/
def Obligations.CalibrationCommandsComplete : Prop :=
  ∀ (t k : Nat) (d : Die) (s : State), s.hasDie k d →
    (∀ r : CalRun, d.cal.run = some r → d.precOn = true → s.fB 0x04 k 0 0 = true → r.tBegin + s.fF 0x04 k 0 31 16 * 60000000000 ≤ t →
      Runs (.calRunClose t k) s fun s' => s'.dieShows k (fun y => (y.cal.run, y.cal.solving, y.cal.lastResult))
        (if d.runComplete r t = true then (none, some { r with tEnd := t }, d.cal.lastResult)
          else (some (CalRun.opened t), d.cal.solving, 4))) ∧
    (∀ r : CalRun, d.cal.solving = some r → Runs (.calSolveComplete t k) s fun s' => s'.dieShows k (·.cal.solving) none) ∧
    (∀ r : CalRun, d.cal.solving = some r → d.cal.heldCand = none →
      ((s.at_ t).solveRun k d r).1.rejected d.cal.zc ((bits (s.regF 0x04 k 4) 31 16 : Rat) / 10) = false →
      Runs (.calSolveComplete t k) s fun s' =>
        s'.dieShows k (fun y => (y.cal.heldCand, y.cal.lastResult)) (some ((s.at_ t).solveRun k d r).1.cand, 7)) ∧
    ∀ c a : Nat, d.cal.acceptAt.getD (c - 1) none = some a → 1 ≤ c → c ≤ 29 → a + 30 * 86400 * 1000000000 ≤ t →
      d.cal.stale.getD (c - 1) true = false → Runs (.calExpiry t k c) s fun s' => s'.dieShows k (fun y => y.cal.stale.getD (c - 1) false) true

/-- The hub of the current die sends its block of the past millisecond as a TC2 broadcast and its dies take it; a block
delivered with a good CHECK is taken by every die; a block that has not come is put to every die, and a die with its
DSP on and the task enabled that has not seen it and has waited CUR_WAIT_MS counts it, and the thousandth in a row
clears CUR_OK. Each clause concludes that exec answers a next state. Formalises R149, R150, R151. -/
def Obligations.CurrentBlockCommandsComplete : Prop :=
  (∀ (t k : Nat) (d : Die) (s w : State), (s.at_ t).islands.find? (fun j => (s.at_ t).isCurDie j) = some k → w = (s.at_ t).adoptImp k →
      w.hasDie k d → w.impRuns k d = true → w.inRun = true → 1000000 ≤ t → w.hubTakes k = true →
      Runs (.currentBlockSend t) s fun s' => s' = w.islands.foldl (fun u j => u.takeCurrentBlock j (w.currentBlock k d ((t / 1000000 - 1) * 1000000)))
        (w.originate 2 0x21 63 (w.currentBlock k d ((t / 1000000 - 1) * 1000000)))) ∧
    (∀ (t : Nat) (bytes : List Byte) (s w : State), (s.at_ t).accept (frameOf bytes) = (.deliver, w) → (frameOf bytes).payload.length = 460 →
      crc32cOk (frameOf bytes).payload = true → rd (frameOf bytes).payload 0 2 = 0x0602 →
      Runs (.currentBlockReceive t bytes) s fun s' => s' = w.islands.foldl (fun u j => u.takeCurrentBlock j (frameOf bytes).payload) w) ∧
    (∀ (t t0 : Nat) (s : State), Runs (.currentBlockMissing t t0) s fun s' =>
      s' = (s.at_ t).islands.foldl (fun u k => u.missCurrentBlock t0 k) (s.at_ t)) ∧
    ∀ (s w : State) (t0 k : Nat) (d : Die), w = s.adoptImp k → w.hasDie k d → w.impEn k = true → d.dspOn = true → d.prot.protOnly = false →
      t0 ∉ d.imp.seenT0 → t0 + 1000000 + w.fF 0x05 k 4 31 16 * 1000000 ≤ w.now →
      (d.imp.missRun + 1 ≠ 1000 → (s.missCurrentBlock t0 k).dieShows k (fun y => (y.imp.curMiss, y.imp.missRun, y.imp.curOk))
        (satInc 8 d.imp.curMiss, d.imp.missRun + 1, d.imp.curOk)) ∧
      (d.imp.missRun + 1 = 1000 → (s.missCurrentBlock t0 k).dieShows k (fun y => y.imp.curOk) false)

/-- The hub whose dies name one shunt of the part sends the block of the last finished interval of that shunt and its own
dies take it; a block delivered with a good CHECK is taken; a block that has not come 50 ms after its interval adds a
gap to the meter and is put to every die, where the last block's charge stands in for it, beside the charge that the
hub drew. Each clause concludes that exec answers a next state. Formalises R170, R171, R172, R176, R442. -/
def Obligations.ChargeBlockCommandsComplete : Prop :=
  (∀ (t k sh : Nat) (d : Die) (x : ShuntAcc) (s w : State), w = (s.at_ t).adoptEst →
      ((w.islands.map w.socSrc).filter fun r => r.1 == w.pos && w.islands.contains r.2.1 && (r.2.2 == 1 || r.2.2 == 2)).eraseDups =
        [(w.pos, k, sh)] →
      w.hasDie k d → w.inRunDoze = true → w.hubTakes k = true → w.link.position.isSome = true →
      groupDelay (w.rateOf k) (w.filtOf k) + 100000000 ≤ w.now →
      d.prec.shunts.find? (fun y => y.t0 == ((w.now - groupDelay (w.rateOf k) (w.filtOf k)) / 100000000 - 1) * 100000000) = some x →
      Runs (.chargeBlockSend t) s fun s' =>
        s' = (w.originate 2 0x22 63 (w.chargeBlock k sh d x)).takeChargeBlock (w.chargeBlock k sh d x)) ∧
    (∀ (t : Nat) (bytes : List Byte) (s w : State), (s.at_ t).accept (frameOf bytes) = (.deliver, w) → (frameOf bytes).payload.length = 36 →
      crc32cOk (frameOf bytes).payload = true → rd (frameOf bytes).payload 0 2 = 0x0702 →
      Runs (.chargeBlockReceive t bytes) s fun s' => s' = w.takeChargeBlock (frameOf bytes).payload) ∧
    (∀ (t t0 : Nat) (s w : State), w = (s.at_ t).adoptEst.meterGap t0 → t0 + 150000000 ≤ t →
      (w.islands.all (fun k => (w.socSrc k).1 == 0xFF) = true → Runs (.chargeBlockMissing t t0) s fun s' => s' = w) ∧
      (w.islands.all (fun k => (w.socSrc k).1 == 0xFF) = false → Runs (.chargeBlockMissing t t0) s fun s' =>
        s' = (w.islands.foldl (fun u k => u.missChargeBlock t0 k (w.hubDraw t0).1) (w.hubDraw t0).2).accrueDebt (w.hubDraw t0).1)) ∧
    (∀ (t0 : Nat) (s : State), s.meterSrc.isSome = true → s.inRunDoze = true → s.trust.meterSeen < t0 + 100000000 →
      (s.meterGap t0).trust.gap = s.trust.gap + 1 ∧ (s.meterGap t0).trust.meter = s.trust.meter) ∧
    ∀ (t0 k : Nat) (q : Rat) (d : Die) (s : State), s.hasDie k d → s.stateEn k = true → d.est.lastT0 < t0 + 100000000 → (s.socSrc k).1 ≠ 0xFF →
      d.est.countLost = false → (s.missChargeBlock t0 k q).dieShows k (fun y => (y.est.lastDq, y.est.missRun, y.est.countLost))
        (d.est.lastDq, d.est.missRun + 1, decide (9 ≤ d.est.missRun))

/-- On a fitted die with the estimator enabled, after swapped fields are taken: the command of a second in RUN or DOZE,
with the hub reached, ends with MOVED clear and one record more formed or dropped in T0; in RUN the learned state is
put before the older slot, and nothing is written after a power-fail warning. Each clause concludes that exec answers
a next state. Formalises R187, R194. -/
def Obligations.EstimatorCommandsComplete : Prop :=
  ∀ (t k : Nat) (d : Die) (s w : State), w = (s.at_ t).adoptEst → w.hasDie k d → w.stateEn k = true →
    (1000000000 ≤ t → d.dspOn = true → w.inRunDoze = true → w.hubTakes k = true →
      Runs (.stateSecond t k) s fun s' => s'.dieShows k (fun y => (y.est.moved, y.t0.length + y.t0Drop)) (false, d.t0.length + d.t0Drop + 1)) ∧
    (w.inRun = true → w.warned = false →
      Runs (.statePersist t k) s fun s' =>
        s'.dieShows k (fun y => y.est.slots.map (·.seq))
          (((((d.est.slots.head?.map (·.seq)).getD 0 + 1) % 2 ^ 32) :: d.est.slots.map (·.seq)).take 2)) ∧
    (w.inRun = true → w.warned = true → Runs (.statePersist t k) s fun s' => s' = w)

/-- On a fitted die: a tick due to a powered group is the latest tick; at power-up the comparators start and what the die
held of faults is gone; at power-down they stop and are not ready; a hub that is up takes the oldest notice of a side
that arrives intact over an unbroken link off the die; a readback that is due, as urgent work, is kept, and the second
failure in a row raises the fault of its threshold. Each clause concludes that exec answers a next state. Formalises
R202, R203, R204, R205, R207, R404. -/
def Obligations.ComparatorCommandsComplete : Prop :=
  ∀ (t k : Nat) (d : Die) (s : State), s.hasDie k d →
    (∀ v : List Rat, d.prot.aonOn = true → (s.at_ t).tickDue k d = true → Runs (.comparatorTick t k v) s fun s' => s'.dieShows k (fun y => (y.prot.aonOn, y.prot.lastTick)) (true, t)) ∧
    (d.prot.aonOn = false → Runs (.aoncPowerUp t k) s fun s' =>
      s'.dieShows k (fun y => (y.prot.aonOn, y.prot.wire, y.prot.rbFault, y.prot.notices, y.prot.timeout)) (true, 0, [false, false], [], true)) ∧
    (d.prot.aonOn = true → Runs (.aoncPowerDown t k) s fun s' =>
      s'.dieShows k (fun y => (y.prot.aonOn, y.prot.ready, y.precOn, y.prot.notices)) (false, false, false, [])) ∧
    (∀ (side : Side) (n : Side × List Byte), (d.prot.notices.find? fun n => n.1 == side) = some n → s.part.serving = true →
      s.part.hubHeld = false → s.reach k = true → s.pathIntact k side = true →
      Runs (.faultNoticeReceive t k side true) s fun s' =>
        s'.dieShows k (·.prot.notices) (d.prot.notices.eraseP fun x => x.1 == side)) ∧
    ∀ (uv : Bool) (v : Rat), d.precOn = true → d.seq.urgent = true → d.prot.owRun = none → (s.at_ t).readbackDue d (b2n uv) = true →
      (Runs (.tdacReadback t k uv v) s fun s' => s'.dieShows k (fun y => (y.prot.rbErr, y.prot.rbAsked, y.prot.rbDone))
        (setNth (b2n uv) (roundAway ((v - ((s.at_ t).levels k uv).1) * 10000)) d.prot.rbErr, setNth (b2n uv) false d.prot.rbAsked,
          setNth (b2n uv) (t / 10000000000) d.prot.rbDone)) ∧
      (3 / 1000 < rabs (v - ((s.at_ t).levels k uv).1) → d.prot.rbFail.getD (b2n uv) 0 = 1 →
        Runs (.tdacReadback t k uv v) s fun s' => s'.dieShows k (·.prot.rbFault) (setNth (b2n uv) true d.prot.rbFault))

/-- On a fitted die with PREC on: a sweep whose interval has passed with nothing suspected asks for the next wire of 0 to
24; a check that has made its last conversion takes the oldest suspected wire off and confirms its break or not; such
a recheck after ten seconds keeps or clears a break; a shunt input outside its range is a break. Each clause concludes
that exec answers a next state. Formalises R220, R221, R223, R224. -/
def Obligations.WireCheckCommandsComplete : Prop :=
  ∀ (t k : Nat) (d : Die) (s : State), s.hasDie k d → d.precOn = true →
    (d.prot.protOnly = false → s.fF 0x07 k 0x024 31 24 ≠ 0 → d.prot.suspect = [] → d.prot.lastSweep + s.fF 0x07 k 0x024 31 24 * 40000000 ≤ t →
      Runs (.owSweep t k) s fun s' => s'.dieShows k (fun y => (y.prot.sweepNext, y.prot.lastSweep, y.prot.suspect))
        ((d.prot.sweepNext + 1) % 25, t, if d.prot.wire.testBit d.prot.sweepNext = true then [] else [d.prot.sweepNext])) ∧
    (∀ (pre post : List Rat) (w : Nat) (rest : List Nat) (v : State), d.prot.suspect = w :: rest → (s.at_ t).owDone k w d = true →
      v = ((s.at_ t).modDie k fun x => { x with prot := { x.prot with suspect := rest } }).owEnd k →
      (v.owJudge k w d pre post = false → Runs (.owCheckComplete t k pre post) s fun s' =>
        s'.dieShows k (fun y => (y.prot.suspect, y.prot.wire)) (rest, d.prot.wire)) ∧
      (v.owJudge k w d pre post = true → d.prot.wire.testBit w = false → Runs (.owCheckComplete t k pre post) s fun s' =>
        s'.dieShows k (·.prot.wire) (setBit d.prot.wire w true))) ∧
    (∀ (w : Nat) (pre post : List Rat) (x : Nat × Nat), w ≤ 24 → d.prot.protOnly = false → d.prot.wireAt.find? (fun y => y.1 == w) = some x →
      x.2 + 10000000000 ≤ t → (s.at_ t).owDone k w d = true →
      Runs (.owRecheck t k w pre post) s fun s' =>
        s'.dieShows k (·.prot.wire) (if (s.at_ t).owJudge k w d pre post = true then d.prot.wire else setBit d.prot.wire w false)) ∧
    ∀ w : Nat, 26 ≤ w → w ≤ 29 → d.prot.wire.testBit w = false →
      Runs (.shuntInputBreak t k w) s fun s' => s'.dieShows k (·.prot.wire) (setBit d.prot.wire w true)

/-- On a fitted die with PREC on: at a step the active balance fields take effect and the channels selected within the cap
are the step's order, none after a timeout; a met need turns its channel off for the step; an overcurrent holds its
channel off and counts; a keep-alive clears the timeout, whose expiry sets it; each whole ten seconds a record is
formed or dropped and the counts restart. Each clause concludes that exec answers a next state. Formalises R210, R213,
R214, R215, R218, R228. -/
def Obligations.BalancingCommandsComplete : Prop :=
  ∀ (t k : Nat) (d : Die) (s : State), s.hasDie k d →
    (∀ (w u : State) (e : Die), d.precOn = true → s.inRunDoze = true → s.part.serving = true → s.balStepNs k ≠ 0 → t % s.balStepNs k = 0 →
      w = (((s.at_ t).takeRange 0x07 k 0x14 0xE0).policyTaken k).modDie k (fun x =>
        { x with prot := { x.prot with order := [], chans := x.prot.chans.map fun c => (c.markTo t).endStep } }) →
      u = (if w.balMode k = 2 then w.clearDebts k else w) → u.hasDie k e →
      Runs (.balStep t k) s fun s' => s'.dieShows k (·.prot.order)
        (((if (e.prot.timeout || e.prot.protOnly || u.conflict) = true then [] else u.balSelect k e u.balRefs).take (u.balCap k e).1).map (·.1))) ∧
    (d.precOn = true → 2 ≤ s.balMode k → t % 100000000 = 0 → Runs (.balNeedCheck t k) s fun s' =>
      s'.dieShows k (fun y => y.prot.chans.map (·.stepOff)) (d.prot.chans.map fun c => c.stepOff || (c.sched && decide (c.need ≤ c.removed)))) ∧
    (∀ n : Nat, 1 ≤ n → n ≤ 24 → s.fB 0x07 k 0x014 4 = false → (d.prot.chan n).conducting = true → (d.prot.chan n).ocHit = false →
      Runs (.balOvercurrent t k n) s fun s' => s'.dieShows k (fun y => ((y.prot.chan n).ocHit, (y.prot.chan n).ocSteps, (y.prot.chan n).heldOff))
        (true, (d.prot.chan n).ocSteps + 1, (d.prot.chan n).heldOff || decide (3 ≤ (d.prot.chan n).ocSteps + 1))) ∧
    (d.precOn = true → d.prot.kaDue = true → Runs (.balKeepalive t k) s fun s' =>
      s'.dieShows k (fun y => (y.prot.keepAt, y.prot.kaDue, y.prot.timeout)) (s.clock t, false, false)) ∧
    (d.precOn = true → d.prot.timeout = false → d.prot.keepAt + s.fF 0x07 k 0x014 31 22 * 1000000000 ≤ t →
      Runs (.balTimeoutExpire t k) s fun s' => s'.dieShows k (·.prot.timeout) true) ∧
    (d.precOn = true → t % 10000000000 = 0 → s.balMode k ≠ 0 → Runs (.balanceRecordInterval t k) s fun s' =>
      s'.dieShows k (fun y => (y.t0.length + y.t0Drop, y.prot.chans.map (·.onMs))) (d.t0.length + d.t0Drop + 1, d.prot.chans.map fun _ => 0))

/-- An inner link that no slice holds is broken as breakLink does it; a broken one without a failed block is whole again
as mendLink does it; a die that no path reaches is lost at a hub that serves, and stops the heartbeat; a change of the
ROLE pad after the reads is noted and leaves the role as the straps gave it: the first one is logged as source 54,
kind 3, or is due for the log at the next start when the hub does not serve, and a later one is not logged. Each
clause concludes that exec answers a next state. Formalises R17, R18, R21, R205, R405. -/
def Obligations.AnatomyCommandsComplete : Prop :=
  (∀ (t i : Nat) (s : State), (s.at_ t).linkHeld i = false → s.part.links.getD i false = true →
      Runs (.innerLinkBroken t i) s fun s' => s' = (s.at_ t).breakLink i ∧ s'.part.links = setNth i false s.part.links) ∧
    (∀ (t i : Nat) (s : State), (s.at_ t).linkFailed i = false → s.part.links.getD i true = false →
      Runs (.innerLinkRestored t i) s fun s' => s' = (s.at_ t).mendLink i ∧ s'.part.links = setNth i true s.part.links) ∧
    (∀ (t k : Nat) (d : Die) (s : State), s.hasDie k d → d.lost = false → s.reach k = false → s.part.serving = true →
      Runs (.dieLost t k) s fun s' => s'.dieShows k (·.lost) true ∧ s'.safe.heartbeat = false) ∧
    ∀ (t : Nat) (level : Bool) (s : State), level ≠ s.part.rolePad →
      (s.part.roleChanged = true → Runs (.rolePadChange t level) s fun s' => s' = { s.at_ t with part := { s.part with rolePad := level } }) ∧
      (s.part.roleChanged = false → s.part.serving = true → Runs (.rolePadChange t level) s fun s' =>
        s' = ({ s.at_ t with part := { s.part with roleChanged := true, rolePad := level } }).event { source := 54, subkind := 3 }) ∧
      (s.part.roleChanged = false → s.part.serving = false → Runs (.rolePadChange t level) s fun s' =>
        s' = { s.at_ t with part := { s.part with roleChanged := true, rolePad := level, roleDue := true } })

/-- A slice that is due starts on the next block and the next is due five seconds later; it ends with its result,
incomplete before its length has passed, and the slice of the supervisors then faults the rail that failed and judges
the rail faults held meanwhile; a block without a result for ten minutes is overdue; the served self-test command runs
all blocks of its target or the named one when no slice runs, ends a calibration run early or resets the calibration
of a die, and completes. Each clause concludes that exec answers a next state. Formalises R126, R132, R362, R461,
R462, R464, R465, R467. -/
def Obligations.SelfTestCommandsComplete : Prop :=
  (∀ (t k b n : Nat) (x : SelfTest) (s w : State), w = (s.at_ t).accrueTest → (if k = 0 then w.inRun else w.inRunDoze) = true →
      w.selfTest[k]? = some x → x.nextAt ≤ x.sliceTime k → w.nextSlice k x = some (b, n) →
      Runs (.sliceStart t k) s fun s' => s' = (w.modTest k fun (y : SelfTest) =>
        { y with nextAt := y.sliceTime k + 5000000000, nextBlock := n, retry := if y.retry = some b then none else y.retry }).startSlice k b) ∧
    (∀ (t k result rail b since : Nat) (s v : State), v = (s.at_ t).adoptSeq k → ((v.selfTest[k]?).bind (·.slice)) = some (b, since) →
      ∀ (r : Nat) (w : State), r = (if since + sliceLen b ≤ t then result else 3) → w = v.endSlice k b r →
      Runs (.sliceEnd t k result rail) s fun s' =>
        s' = if b = 0x1101 then (if r = 2 ∧ rail < 14 then w.railFault rail 1 else w).judgeHeld else w) ∧
    (∀ (t k block : Nat) (x : SelfTest) (s : State), (s.at_ t).accrueTest.selfTest[k]? = some x → (blocksOf k).contains block = true →
      x.overdue.contains block = false →
      ((x.judged.find? fun y => y.1 == block).map (·.2)).getD 0 + 600000000000 ≤ (if block = 0x1001 ∨ block = 0x1002 then x.offTime else x.sliceTime k) →
      Runs (.selftestOverdue t k block) s fun s' => (s'.selfTest[k]?).map (·.overdue) = some (x.overdue ++ [block])) ∧
    ∀ (t : Nat) (c : Cmd) (s w : State), s.serves 0x0E c → w = s.served t c →
      (∀ results : List Nat, rd c.param 0 1 = 0 → w.sliceFree c.target = true →
        Runs (.selftestRunAll t c results) s fun s' => ∃ r : State × Tally,
          r = (blocksOf c.target).zipIdx.foldl (fun (acc : State × Tally) b => acc.1.runBlock c.target b.1 (results.getD b.2 0) acc.2)
            (w, { passed := 0, failed := 0, incomplete := 0 }) ∧ s' = r.1.complete c .success r.2.result) ∧
      (∀ result : Nat, rd c.param 0 1 = 1 → (blocksOf c.target).contains (rd c.param 2 2) = true → w.sliceFree c.target = true →
        Runs (.selftestRunBlock t c result) s fun s' => ∃ r : State × Tally,
          r = w.runBlock c.target (rd c.param 2 2) result { passed := 0, failed := 0, incomplete := 0 } ∧
            s' = r.1.complete c .success r.2.result) ∧
      (rd c.param 0 1 = 2 → c.target ≠ 0 → Runs (.calEarlyEnd t c) s fun s' => s' = (w.closeRun c.target t).complete c .success 0) ∧
      (rd c.param 0 1 = 3 → c.target ≠ 0 → Runs (.calReset t c) s fun s' => s' = (w.resetCal c.target).complete c .success 0)

/-- A powered unit: OPEN starts a message with the polynomial and waits behind an open one; a write of 1, 2 or 4 bytes
feeds them lowest address first; CLOSE closes. CHECK_COMPUTE that is served on a free unit opens, feeds and closes the
message of the command, unless its counter differs. Each clause concludes that exec answers a next state. Formalises
R467, R470, R471. -/
def Obligations.CheckUnitCommandsComplete : Prop :=
  (∀ (t unit ctrl : Nat) (u : ChkUnit) (s : State), s.chkPowered unit = true → bit ctrl 8 = true → s.chk[unit]? = some u →
      Runs (.chkOpen t unit ctrl) s fun s' =>
        s'.chk[unit]? = some (if u.busy = true then { u with waiting := u.waiting ++ [bits ctrl 1 0] } else u.openMsg (bits ctrl 1 0) false)) ∧
    (∀ (t unit width value : Nat) (u : ChkUnit) (s : State), s.chkPowered unit = true → width = 1 ∨ width = 2 ∨ width = 4 → s.chk[unit]? = some u →
      Runs (.chkDataWrite t unit width value) s fun s' => s'.chk[unit]? = some (u.feed (le width value))) ∧
    (∀ (t unit ctrl : Nat) (u : ChkUnit) (s : State), s.chkPowered unit = true → bit ctrl 9 = true → s.chk[unit]? = some u →
      Runs (.chkClose t unit ctrl) s fun s' => s'.chk[unit]? = some u.close) ∧
    ∀ (t : Nat) (c : Cmd) (data : List Byte) (u : ChkUnit) (s : State), s.serves 0x0F c → chkFieldsOk c = true →
      (c.target ≠ 0 ∨ 2 < rd c.param 0 1 ∨ c.bufLen ≤ 4096) → s.chk[chkUnitOf c]? = some u → u.ok = true → s.chkPowered (chkUnitOf c) = true →
      u.busy = false →
      Runs (.checkCompute t c data) s fun s' => s' = if u.hostAlive ≠ rd c.param 3 1 then (s.served t c).complete c .aliveMismatch u.hostAlive
        else ((s.served t c).modChk (chkUnitOf c) fun _ => ((u.openMsg (rd c.param 1 1) true).feed (slice (s.inData c data) 0 c.bufLen)).close).completeX c
          .success (((u.openMsg (rd c.param 1 1) true).feed (slice (s.inData c data) 0 c.bufLen)).close).result c.bufLen

/-- In RUN or DOZE the sample keeps the hottest junction; after ten seconds below its threshold the governor goes one step
down; a die at 152 degrees stops its PREC domain until it has cooled; a hub at 154 degrees is held in reset, and one
that has cooled, with no hub block of a BIST failed, is tested, and held again when logic BIST fails. Each clause
concludes that exec answers a next state. Formalises R466, R468, R482, R483. -/
def Obligations.ThermalCommandsComplete : Prop :=
  (∀ (t : Nat) (temps : List Int) (s : State), s.inRunDoze = true → s.part.serving = true → temps ≠ [] →
      Runs (.thermalSample t temps) s fun s' => (s'.therm.tjMax, s'.therm.hotIsland) = hottest s.part.cellDies temps ∧ s.therm.step ≤ s'.therm.step) ∧
    (∀ (t a : Nat) (s : State), s.therm.step ≠ 0 → s.therm.belowSince.getD (s.therm.step - 1) none = some a → a + 10000000000 ≤ t →
      Runs (.thermalStepDown t) s fun s' => s' = (s.at_ t).setStep (s.therm.step - 1) ∧ s'.therm.step = s.therm.step - 1) ∧
    (∀ (t k : Nat) (d : Die) (s : State), s.hasDie k d → d.hot = false →
      Runs (.dieOverheat t k) s fun s' => s'.dieShows k (fun y => (y.hot, y.precOn)) (true, false)) ∧
    (∀ (t k : Nat) (d : Die) (s : State), s.hasDie k d → Runs (.dieCooled t k) s fun s' => s'.dieShows k (·.hot) false) ∧
    (∀ (t : Nat) (s : State), s.part.serving = true → s.warned = false →
      Runs (.hubOverheat t) s fun s' => s'.part.hubHeld = true ∧ s'.part.serving = false) ∧
    ∀ (t : Nat) (pass : Bool) (s : State), s.part.hubHeld = true → s.bistFailed = [] →
      Runs (.hubCooled t pass) s fun s' =>
        s' = ((s.at_ t).modTest 0 fun y => { y with retried := false }).hubTest (if pass = true then 0 else 1) ∧ (pass = false → s'.part.hubHeld = true)

/-- At a whole millisecond the committed fields are taken; a gateway samples LORST_N and latches lock-out on a demand of
an enabled input, and a module judges its heartbeat. Every 100 microseconds pulses end, tests, inputs and feedbacks
are stepped and the outputs follow. A pulse at its start pulls its pad low for 500 microseconds. A discrepancy at its
limit latches the input and lock-out. Each clause concludes that exec answers a next state. Formalises R364, R367,
R368, R369, R370, R374, R378. -/
def Obligations.SafetySamplingCommandsComplete : Prop :=
  (∀ (t : Nat) (lorst : Bool) (s w : State), w = (s.at_ t).takeBlock 0x14 0 → t % 1000000 = 0 → s.part.serving = true → s.part.hubHeld = false →
      s.inRunDoze = true →
      (w.isGateway = false → Runs (.safetyTick t lorst) s fun s' => s' = w.heartResume) ∧
      (w.isGateway = true → Runs (.safetyTick t lorst) s fun s' =>
        (s'.safe.lorstState, s'.safe.lorstLow, s'.safe.lorstHigh) =
          ((w.stepLorst lorst).safe.lorstState, (w.stepLorst lorst).safe.lorstLow, (w.stepLorst lorst).safe.lorstHigh) ∧
        (∀ i, i < 4 → w.inEnabled i = true → w.inSt i = 1 → s'.safe.lockout = true))) ∧
    (∀ (t : Nat) (levels fb tp : List Bool) (s : State), s.safeRuns = true → t % 100000 = 0 →
      (((s.selfTest[0]?).bind (·.slice)).map (·.1)) ≠ some 0x1001 →
      Runs (.safetyInputSample t levels fb tp) s fun s' =>
        s' = ((List.range 3).foldl (fun (u : State) k => u.stepFeedback fb k) ((List.range 4).foldl (fun (u : State) i => u.stepInput levels i)
          ((((s.at_ t).endPulse 0).endPulse 1).stepTests levels tp))).evalOuts) ∧
    (∀ (t out : Nat) (s : State), s.safeRuns = true → out = 1 ∨ out = 2 → (s.at_ t).pulseNear (out - 1) 0 = some t →
      Runs (.testPulseStart t out) s fun s' =>
        s'.safe.pulseEnd = setNth (out - 1) (some (t + 500000)) s.safe.pulseEnd ∧ s'.out = s.out ++ [.pad (3 + out) 0]) ∧
    ∀ (t i : Nat) (x : SafeIn) (s : State), 1 ≤ i → s.safe.ins[i - 1]? = some x → s.safeRuns = true → s.inEnabled (i - 1) = true →
      s.inSt (i - 1) = 2 → x.latched = false → s.discLimit (i - 1) ≤ x.discMs →
      Runs (.discrepancyLatch t i) s fun s' =>
        s'.safe.lockout = true ∧ s'.safe.ins[i - 1]? = some { x with latched := true, needDemand := true }

/-- A safety frame delivered to a working gateway is checked and is either valid or counted as an error on its connection;
the mailbox is read and answered at every period; a silent host clears HOST_OK and every request, and no output stays
on; at a whole millisecond a silent position fails and latches lock-out; an intact notice of another part is put to
the captures of every die; a valid gateway heartbeat sets GW_OK and its silence clears it. Each clause concludes that
exec answers a next state. Formalises R83, R365, R375, R382, R383, R384, R385. -/
def Obligations.SafetyFrameCommandsComplete : Prop :=
  (∀ (t : Nat) (bytes : List Byte) (s w : State), (s.at_ t).accept (frameOf bytes) = (.deliver, w) → w.safeRuns = true → (frameOf bytes).tc = 0 →
      (frameOf bytes).kind = 4 ∨ (frameOf bytes).kind = 5 → ∀ (p : Nat) (b : List Byte), b = (frameOf bytes).payload → p = bits (rd b 0 2) 5 0 →
      Runs (.safetyFrameReceive t bytes) s fun s' => s' =
        match w.frameError b (fun q => w.positions.contains q) (w.watchOf p).lastSeq true with
        | some e => (w.countFrameError (rd b 0 2) e).connError p
        | none => w.validFrame p b) ∧
    (∀ (t box : Nat) (bytes : List Byte) (s u : State), s.safeRuns = true → s.fB 0x14 0 0x018 0 = true → s.hif.en = true →
      s.sF 0x018 15 8 ≠ 0 → t % (s.sF 0x018 15 8 * 1000000) = 0 → box = s.regF 0x14 0 0x01C + 2 ^ 32 * s.regF 0x14 0 0x020 →
      u = ((s.at_ t).emit (.hostRead box 32)).hostFrame (slice bytes 0 32) →
      Runs (.safetyMboxService t bytes) s fun s' =>
        s' = (u.formSafety 0x11 {} u.statusAux true).2.emit (.hostWrite (box + 32) (u.formSafety 0x11 {} u.statusAux true).1)) ∧
    (∀ (t : Nat) (s : State), s.safe.hostOk = true → s.safe.hostAt + s.sF 0x018 31 16 * 1000000 ≤ t →
      Runs (.hostWatchdogExpire t) s fun s' => s'.safe.hostOk = false ∧ s'.safe.req = 0 ∧ ∀ k, k < 3 → s'.outOn k = false) ∧
    (∀ (t p : Nat) (s : State), s.safeRuns = true → t % 1000000 = 0 → (s.watchOf p).armed = true → (s.watchOf p).failed = false →
      (s.watchOf p).lastAt + s.sF 0 31 16 * 1000000 ≤ t →
      Runs (.watchdogExpire t p) s fun s' => (s'.watchOf p).failed = true ∧ s'.safe.lockout = true) ∧
    (∀ (t : Nat) (bytes : List Byte) (s w : State), (s.at_ t).accept (frameOf bytes) = (.deliver, w) → (frameOf bytes).tc = 0 →
      (frameOf bytes).kind = 3 → (frameOf bytes).payload.length = 16 →
      Poly.crc16.check ((frameOf bytes).payload.take 14) = rd (frameOf bytes).payload 14 2 →
      Runs (.faultNoticeFrameReceive t bytes) s fun s' => s' = w.islands.foldl (fun u k => u.faultTrigger k (rd (frameOf bytes).payload 4 8) true) w) ∧
    (∀ (t : Nat) (bytes : List Byte) (s w : State), (s.at_ t).accept (frameOf bytes) = (.deliver, w) → w.isModule = true → (frameOf bytes).tc = 0 →
      (frameOf bytes).kind = 5 → w.frameError (frameOf bytes).payload (fun q => q == 0) w.safe.gwSeq true = none →
      Runs (.gatewayHeartbeatReceive t bytes) s fun s' =>
        s'.safe.gwOk = true ∧ s'.safe.gwAt = t ∧ s'.safe.gwSeq = some (rd (frameOf bytes).payload 2 2)) ∧
    ∀ (t : Nat) (s : State), s.safe.gwOk = true → s.safe.gwAt + s.sF 0 31 16 * 1000000 ≤ t →
      Runs (.gwOkTimeout t) s fun s' => s'.safe.gwOk = false ∧ s'.safe.gwSeq = none

/-- An output that has been on for 2 ms goes off on an overcurrent, and a gateway latches lock-out; an open load of one
that has been on for 100 ms is marked; an output that is on takes the economy duty after its delay; an enabled
feedback that does not show the state of its output 50 ms after it last changed, or of one never switched, latches
lock-out; a rising edge of LORST_N after 50 to 5,000 ticks releases a lock-out whose conditions hold and ends the low
otherwise; a longer low counts as held. Each clause concludes that exec answers a next state. Formalises R372, R373,
R374, R375, R377, R378. -/
def Obligations.SafetyOutputCommandsComplete : Prop :=
  (∀ (t k : Nat) (o : SafeOut) (s : State), 1 ≤ k → s.safe.outs[k - 1]? = some o → o.on = true → o.since + 2000000 ≤ s.clock t →
      Runs (.outputOvercurrent t k) s fun s' => s'.outOn (k - 1) = false ∧ (s'.safe.outs[k - 1]?).map (·.overcurrent) = some true ∧
        (s.isGateway = true → s'.safe.lockout = true)) ∧
    (∀ (t k : Nat) (o : SafeOut) (s : State), 1 ≤ k → s.safe.outs[k - 1]? = some o → o.on = true → o.openLoad = false →
      o.since + 100000000 ≤ s.clock t →
      Runs (.outputOpenLoad t k) s fun s' => s'.safe.outs[k - 1]? = some { o with openLoad := true }) ∧
    (∀ (t k : Nat) (vaux : Rat) (o : SafeOut) (s : State), 1 ≤ k → s.safe.outs[k - 1]? = some o → o.on = true →
      o.since + s.sF 0x010 23 16 * 10000000 ≤ t →
      Runs (.outputEconomyStart t k vaux) s fun s' => s'.safe.outs[k - 1]? = some { o with econ := true, duty := (s.at_ t).econDuty vaux }) ∧
    (∀ (t k : Nat) (o : SafeOut) (s : State), 1 ≤ k → s.safe.outs[k - 1]? = some o → s.safeRuns = true → bit (s.sF 0x010 6 4) (k - 1) = true →
      (o.on = true ∧ o.since + 50000000 ≤ t ∧ s.fbClosed (k - 1) = false) ∨
        (o.on = false ∧ (o.since + 50000000 ≤ t ∨ o.switched = false) ∧ s.fbClosed (k - 1) = true) →
      Runs (.feedbackTimeout t k) s fun s' => s'.safe.lockout = true) ∧
    (∀ (t : Nat) (s : State), s.safeRuns = true → s.safe.lorstState = 1 →
      Runs (.lorstReleaseEdge t) s fun s' => s'.safe.lorstState = 3 ∧
        s'.safe.lockout = (s.safe.lockout && !(decide (50 ≤ s.safe.lorstLow) && decide (s.safe.lorstLow ≤ 5000) && (s.at_ t).releasable))) ∧
    ∀ (t : Nat) (s : State), s.safeRuns = true → s.safe.lorstState = 1 → 5000 < s.safe.lorstLow →
      Runs (.lorstHeld t) s fun s' => s'.safe.lorstState = 2 ∧ s'.safe.lockout = s.safe.lockout

/-- On port p: a SEARCH_ALL due on a port that is off while PD9 is on and the fields it takes enable it makes the port
search all; a periodic SEARCH_NEW due between cycles starts, and one due in a cycle or a search waits; a search whose
attempts decide it ends: it searches no more, no command waits for it, and UNSTABLE tells that no attempt was
consistent; a cycle begins at a multiple of SWP_CYCLE, with that instant as T_SYNC and a sync on the line; a used slot
read at its end takes a good frame's value, and with any other keeps its value, counts a miss, and stays present only
below the third; a cycle all of whose used slots are read ends; a short stops a searching or streaming port, which
stands in SHORT, or is off when the fields it takes clear SWP_EN; ten seconds later it searches all again. Each clause
concludes that exec answers a next state. Formalises R235, R236, R238, R240, R242, R244, R246. -/
def Obligations.SingleWireCommandsComplete : Prop :=
  ∀ (t p : Nat) (x : SwpPort) (s : State), 1 ≤ p → s.swp[p - 1]? = some x →
    (x.st = 0 → s.pd9 = true → bit (((s.at_ t).adoptSwp p).swpCtrl p) 0 = true →
      Runs (.searchAll t p) s fun s' => s'.portShows p (fun y => (y.searching, y.st, y.inCycle)) (2, 1, false)) ∧
    (x.st = 1 ∨ x.st = 2 → bits (s.swpCtrl p) 15 4 ≠ 0 → t % (bits (s.swpCtrl p) 15 4 * 1000000000) = 0 →
      Runs (.searchNewPeriodic t p) s fun s' => s'.portShows p (fun y => (y.searching, y.pendSearch))
        (if x.inCycle = true ∨ x.st = 1 then (x.searching, true) else (1, false))) ∧
    (∀ (attempts : List (List (Option (List (Bool × Bool))))) (acks : List (List Nat)) (r : List Out × Nat × Option (List Nat)),
      x.searching ≠ 0 → s.pd9 = true → r = searchAttempts p x.searching 4 attempts → r.2.2.isSome = true ∨ r.2.1 = 4 →
      Runs (.swpSearchComplete t p attempts acks) s fun s' =>
        s'.portShows p (fun y => (y.searching, y.runs, y.unstable)) (0, [], r.2.2.isNone)) ∧
    (x.st = 2 → x.inCycle = false → s.pd9 = true → s.swpCycle p ≠ 0 → t % s.swpCycle p = 0 →
      Runs (.swpStreamCycle t p) s fun s' => s'.portShows p (fun y => (y.inCycle, y.tSync)) (true, t) ∧ s'.out = s.out ++ [.line p 3]) ∧
    (∀ (slot : Nat) (bytes : List Byte) (y : Slot), x.slots[slot]? = some y → x.inCycle = true → y.used = true → y.read = false →
      x.tSync + slotEnd slot ≤ t → t < x.tSync + slotEnd slot + 300000 →
      Runs (.swpSlotRead t p slot bytes) s fun s' => s'.portShows p (fun z => (z.slots[slot]?).map fun q => (q.read, q.value, q.misses, q.present))
        (some (if y.goodFrame (slice bytes 0 8) = true then (true, rd bytes 2 4, 0, true)
          else (true, y.value, y.misses + 1, y.present && decide (y.misses + 1 < 3))))) ∧
    (x.inCycle = true → x.cycleDone = true → Runs (.swpCycleEnd t p) s fun s' => s'.portShows p (·.inCycle) false) ∧
    (x.st = 1 ∨ x.st = 2 → Runs (.swpLineShort t p) s fun s' =>
      s'.portShows p (fun y => (y.short, y.shortAt, y.searching, y.inCycle)) (true, t, 0, false) ∧
        s'.portShows p (·.st) (if bit (((s.at_ t).adoptSwp p).swpCtrl p) 0 = true then 3 else 0)) ∧
    (x.st = 3 → x.shortAt + 10000000000 ≤ t → s.pd9 = true →
      Runs (.swpShortRetry t p) s fun s' => s'.portShows p (fun y => (y.shortAt, y.searching)) (t, 2))

/-- On a working link: a boundary sends a training codeword in TRAINING and the first codeword that is ready when UP, with
source 35 raised and its count restarted at the eleventh third attempt of a second, and the hop trains anew once the
UP port has told the acknowledgement of its new channel; once the receiver has its alignment, an uncorrectable
codeword is counted at its instant, and one of a frame in progress or starting adds its bytes to it or ends it; a
control codeword with a good tag and a fresh counter is taken, and takes the hop DOWN when a frame has no attempt
left, or has it train when its assignment is acknowledged; the oldest frame without acknowledgement is sent again, and
after the last attempt the hop goes DOWN. Each clause concludes that exec answers a next state. Formalises R251, R254,
R255, R258, R259, R260, R261. -/
def Obligations.LineCommandsComplete : Prop :=
  ∀ (t : Nat) (side : Side) (s : State) (p : Port), p = s.port side →
    (s.linkRuns = true → p.st = .training → Runs (.codewordBoundary t side) s fun s' =>
      s'.port side = (p.lineBytes (le 1 3 ++ zeros 51)).2 ∧ s'.out = s.out ++ [.codeword side (p.lineBytes (le 1 3 ++ zeros 51)).1]) ∧
    (∀ (d r : List Byte × Port) (leaves : Bool), s.linkRuns = true → p.st = .up → d = p.nextCodeword t → r = d.2.lineBytes d.1 →
      leaves = (decide (side = .up) && rd d.1 0 1 == 2 && d.2.retune.isSome && !d.2.answered) →
      (d.2.thirds.length ≤ 10 → leaves = false → Runs (.codewordBoundary t side) s fun s' =>
        s'.port side = r.2 ∧ s'.out = s.out ++ [.codeword side r.1]) ∧
      (10 < d.2.thirds.length → leaves = false → Runs (.codewordBoundary t side) s fun s' =>
        s' = ((((s.at_ t).modPort side fun _ => { r.2 with thirds := [] }).emit (.codeword side r.1)).event
          { source := 35, item := s.hopOf side, arg16 := 11 })) ∧
      (leaves = true → Runs (.codewordBoundary t side) s fun s' => (s'.port side).st = .training ∧ (s'.port side).retune = none)) ∧
    (∀ bytes cw : List Byte, s.linkRuns = true → p.st ≠ .down → bytes.length = 60 → (p.takeLine bytes).1 = some cw → rsDecode cw = none →
      Runs (.codewordReceive t side bytes) s fun s' => (s'.port side).cwUncorr = satInc 16 p.cwUncorr ∧ (s'.port side).lastUncorr = t) ∧
    (∀ (bytes cw w : List Byte) (r : RxClass), s.linkRuns = true → p.st = .up → bytes.length = 60 →
      (p.takeLine bytes).1 = some cw → rsDecode cw = some w → bits (rd w 0 1) 3 0 = 1 → p.rx[bits (rd w 0 1) 7 6]? = some r →
      bit (rd w 0 1) 5 = true ∨ r.inFrame = true →
      (bit (rd w 0 1) 4 = false → Runs (.codewordReceive t side bytes) s fun s' =>
        (s'.port side).lastCodeword = t ∧
        ((s'.port side).rx[bits (rd w 0 1) 7 6]?).map (fun y => (y.part, y.inFrame)) =
          some ((if bit (rd w 0 1) 5 = true then [] else r.part) ++ slice w 1 51, true)) ∧
      (bit (rd w 0 1) 4 = true → Runs (.codewordReceive t side bytes) s fun s' => ∃ u : State,
        s' = u.takeFrame side ((if bit (rd w 0 1) 5 = true then [] else r.part) ++ slice w 2 (min (rd w 1 1) 50)) ∧
        (u.port side).lastCodeword = t)) ∧
    (∀ (bytes : List Byte) (k : HopKeys), s.linkRuns = true → p.st = .up → bytes.length = 52 → p.keys = some k →
      (gcmSeal k.rxKey (nonceOf k.rxSalt true (rd bytes 1 5)) (bytes.take 36) []).2 = slice bytes 36 16 →
      counterOk p.rxCctrTop p.rxCctrSeen (rd bytes 1 5) = true →
      Runs (.controlCodewordReceive t side bytes) s fun s' => ∃ u : State,
        s' = (if (((u.exchange side bytes).port side).tx.drop 1).any (fun c => c.again.any fun x => decide (16 ≤ x.attempts)) = true
          then (u.exchange side bytes).hopDown side
          else if (decide (side = .down) && ((u.exchange side bytes).port side).assigned) = true then (u.exchange side bytes).startTraining side
          else u.exchange side bytes) ∧ (u.port side).tagRun = 0 ∧ (u.port side).lastCodeword = t ∧ (u.port side).ctlRx = (t * 16 % 2 ^ 48, rd bytes 1 5)) ∧
    (∀ (c : TxClass) (x : TxFrame) (rest : List TxFrame), p.st = .up → p.tx[0]? = some c → c.unacked = x :: rest → x.sentAt + p.ackNs ≤ t →
      (x.attempts < 3 → Runs (.tc0AckTimeout t side) s fun s' =>
        (s'.port side).tx[0]? = some { c with unacked := rest, again := c.again ++ [x] }) ∧
      (3 ≤ x.attempts → Runs (.tc0AckTimeout t side) s fun s' => (s'.port side).st = .down)) ∧
    ∀ (tc : Nat) (c : TxClass) (x : TxFrame) (rest : List TxFrame), 1 ≤ tc → tc ≤ 3 → p.st = .up → p.tx[tc]? = some c → c.unacked = x :: rest →
      x.sentAt + 24000 ≤ t →
      (x.attempts < 16 → Runs (.frameRetryTimeout t side tc) s fun s' =>
        (s'.port side).tx[tc]? = some { c with unacked := rest, again := c.again ++ [x] }) ∧
      (16 ≤ x.attempts → Runs (.frameRetryTimeout t side tc) s fun s' => (s'.port side).st = .down)

/-- A hop that is UP or in TRAINING goes DOWN after 20 microseconds without a codeword, an UP one after 100 ms of low
margin at full power; a hop that may train begins to; a training of 100 microseconds with enough margin chooses the
mode, and comes UP with keys in force at a port that waits for no frontier; a held hop is used again after 100 ms
without fault; the power follows the margin at the peer, once a millisecond; offers and signatures are taken; a
counter at 2^39 keys the hop anew. Each clause concludes that exec answers a next state. Formalises R252, R253, R262,
R277, R278. -/
def Obligations.HopCommandsComplete : Prop :=
  ∀ (t : Nat) (side : Side) (s : State) (p : Port), p = s.port side →
    (s.linkRuns = true → p.st ≠ .down → p.lastCodeword + 20000 ≤ t → Runs (.hopSilenceTimeout t side) s fun s' => (s'.port side).st = .down) ∧
    (∀ a : Nat, s.linkRuns = true → p.st = .up → p.lowSince = some a → a + 100000000 ≤ t →
      Runs (.hopMarginTimeout t side) s fun s' => (s'.port side).st = .down) ∧
    (s.linkRuns = true → p.mayTrain t = true → Runs (.hopTrainingRetry t side) s fun s' => (s'.port side).st = .training ∧ (s'.port side).trained = false) ∧
    (∀ (margin : Int) (peerQpsk : Bool), s.linkRuns = true → p.st = .training → p.trainAt + 100000 ≤ t → 24 ≤ margin ∨ (p.qpskEn = true ∧ peerQpsk = true) →
      Runs (.hopTrainingComplete t side margin peerQpsk) s fun s' => (s'.port side).trained = true ∧ (s'.port side).qpsk = decide (margin < 24) ∧
        (p.keys.isSome = true → p.answered = false → (s'.port side).st = .up)) ∧
    (p.st = .up → p.held = true → p.upSince + 100000000 ≤ t → p.lastUncorr + 100000000 ≤ t →
      Runs (.hopRouteRestore t side) s fun s' => (s'.port side).held = false) ∧
    (∀ margin : Margins, p.st = .up → Runs (.apcAdjust t side margin) s fun s' =>
      (s'.port side).txPwr = if p.apcEn = false then p.txMax else if t < p.apcAt ∧ p.apcAt ≤ t + 1000000 then p.txPwr
        else if margin.peer < 32 then min p.txMax (p.txPwr + 1)
        else if 48 < margin.peer then max (-10) (p.txPwr - 1) else p.txPwr) ∧
    (∀ bytes : List Byte, s.linkRuns = true → p.st ≠ .down →
      (rd bytes 0 1 = 0x30 → Runs (.hopKeyingMessage t side bytes) s fun s' => s' = (s.at_ t).takeOffer side bytes) ∧
      (rd bytes 0 1 = 0x31 → Runs (.hopKeyingMessage t side bytes) s fun s' => s' = ((s.at_ t).takeSignature side bytes).closeRing)) ∧
    (p.st = .up → p.keying = none → 2 ^ 39 ≤ p.ctr ∨ 2 ^ 39 ≤ p.cctr →
      Runs (.hopRekey t side) s fun s' => s' = (s.at_ t).startKeying side true ∧ (s'.port side).keying.isSome = true)

/-- A module that takes the start of an enumeration drops its pending commit and its place; the frontier sends DISCOVER
every millisecond of its wait; a DISCOVER on the DOWN port is noted, and one on the UP port that is for the part is
answered: it drops its place where it had one in that chain, waits there for the frontier to key it on channel 2, and
trains on that channel unless its hop is UP or does so already; when the wait ends the frontier keys the hop that
closes the ring, leaves the rest to the chosen part, waits again or ends the chain; an assignment gives its part the
place, the plan and, unless it has one and is not BLANK, the chain; reports, the end and the result are taken. Each
clause concludes that exec answers a next state. Formalises R263, R264, R265, R360. -/
def Obligations.EnumerationCommandsComplete : Prop :=
  (∀ (t : Nat) (bytes : List Byte) (s w : State), (s.at_ t).accept (frameOf bytes) = (.deliver, w) → w.isModule = true →
      rd (frameOf bytes).payload 0 1 = 0x10 →
      Runs (.enumStartReceive t bytes) s fun s' => s' = w.cancelPend.dropPlace ∧ s'.link.position = none) ∧
    (∀ (t : Nat) (f : Frontier) (s : State), s.link.frontier = some f → s.linkRuns = true → (t - f.startedAt) % 1000000 = 0 →
      t < f.startedAt + bits (rd s.link.plan 0 4) 31 16 * 1000000 * (f.round + 1) →
      Runs (.discoverSend t) s fun s' => s'.out = s.out ++ [.clear .down (s.at_ t).discover]) ∧
    (∀ (t : Nat) (bytes : List Byte) (s : State), s.linkRuns = true → rd bytes 0 1 = 0x20 → s.trust.life ≠ 3 → s.link.dn.orientRaised = false →
      Runs (.discoverReceive t .down bytes) s fun s' => s'.link.dn.orientRaised = true) ∧
    (∀ (t : Nat) (bytes : List Byte) (s w : State), s.linkRuns = true → rd bytes 0 1 = 0x20 → s.trust.life ≠ 3 → s.link.frontier = none →
      (if s.isGateway = true then rd bytes 1 4 = s.chainOf
        else s.trust.life = 0 ∨ s.link.chainId = none ∨ s.link.chainId = some (rd bytes 1 4)) →
      w = (if (s.isModule && s.link.position.isSome && s.link.chainId == some (rd bytes 1 4)) = true then (s.at_ t).cancelPend.dropPlace else s.at_ t) →
      (w.isModule && w.link.position.isSome) = false →
      ∀ u v : State, u = (w.drawBits 4).2.emit (.clear .up (le 1 0x23 ++ le 1 ((w.drawBits 4).1 % 16) ++
        le 8 w.part.ident ++ slice bytes 14 1 ++ le 1 (b2n w.isGateway))) →
      v = ({ u with link := { u.link with heard := some (rd bytes 1 4, rd bytes 5 1) } }).modPort .up (fun p => { p with answered := true, retune := some 1 }) →
      Runs (.discoverReceive t .up bytes) s fun s' =>
        s' = if w.link.up.st = .up ∨ (w.link.up.st = .training ∧ w.link.up.channel = 1) then v else v.startTraining .up) ∧
    (∀ (t : Nat) (answers : List (List Byte)) (f : Frontier) (s : State), s.link.frontier = some f → s.linkRuns = true → f.closing = false →
      f.startedAt + bits (rd s.link.plan 0 4) 31 16 * 1000000 * (f.round + 1) ≤ t →
      ∀ (own : List (List Byte)) (pick : Option (List Byte)) (closes : Bool), own = (answers.filter fun a => rd a 9 1 == 0) →
      pick = (if s.pos = 62 then none else chooseCandidate s.link.plan (s.pos + 1) own) →
      closes = (answers.any (fun a => rd a 9 1 == 1) && s.pos != 0 && (own.isEmpty || s.pos == 62 || s.pos + 1 == planExpect s.link.plan)) →
      (∀ gate : List Byte, closes = true → answers.find? (fun a => rd a 9 1 == 1) = some gate → Runs (.enumWaitExpire t answers) s fun s' =>
        s' = ({ s.at_ t with link := { s.link with frontier := some { f with closing := true } } }).freshHop (rd gate 0 8)
          (closingChannel s.link.plan (s.pos + 1))) ∧
      (closes = false → pick.isSome = true → Runs (.enumWaitExpire t answers) s fun s' => s'.link.frontier = none) ∧
      (closes = false → pick = none → f.round < 2 →
        Runs (.enumWaitExpire t answers) s fun s' => s'.link.frontier = some { f with round := f.round + 1 }) ∧
      (closes = false → pick = none → 2 ≤ f.round →
        Runs (.enumWaitExpire t answers) s fun s' => s' = (s.at_ t).endEnumeration (s.pos + 1) false)) ∧
    (∀ (t : Nat) (bytes b : List Byte) (s : State), b = (frameOf bytes).payload → s.linkRuns = true → rd b 0 1 = 0x21 → s.isModule = true →
      rd b 1 8 = s.part.ident → s.link.position = none →
      Runs (.enumFrameReceive t bytes) s fun s' =>
        s'.link.position = some (rd b 13 1) ∧ s'.link.chainId = some (if s.trust.life = 0 then rd b 9 4 else s.link.chainId.getD (rd b 9 4)) ∧ s'.link.plan = b.drop 15) ∧
    ∀ (t : Nat) (bytes b : List Byte) (s w : State), b = (frameOf bytes).payload → s.linkRuns = true → (s.at_ t).accept (frameOf bytes) = (.deliver, w) →
      (rd b 0 1 = 0x11 → w.isGateway = true → w.link.enumState = 1 → Runs (.enumFrameReceive t bytes) s fun s' =>
        s'.link.parts = max w.link.parts (rd b 1 1 + 1) ∧
          s'.link.idents = (w.link.idents.filter fun x => x.1 != rd b 1 1) ++ [(rd b 1 1, rd b 2 8)]) ∧
      (rd b 0 1 = 0x12 → w.isGateway = true → w.link.enumState = 1 → Runs (.enumFrameReceive t bytes) s fun s' =>
        s' = w.finishEnumeration (rd b 1 1) (rd b 2 1 == 1)) ∧
      (rd b 0 1 = 0x13 → w.isModule = true → Runs (.enumFrameReceive t bytes) s fun s' =>
        s'.link.parts = rd b 1 1 ∧ s'.link.ringClosed = (rd b 2 1 == 1) ∧ s'.link.frontier = none)

/-- On a working link a broadcast of another part that may be passed on, and is no time beacon, is noted and queued at the
other port when that has a neighbour; a frame for another part leaves the inbox and goes to the other port, or is
counted as without a route; where a frame has been held behind a gap for 5 ms the gap is counted and the inbox keeps
what it held, with what is released after it; a notice puts its hop among the DOWN hops or takes it out. Each clause
concludes that exec answers a next state. Formalises R27, R262, R268, R269. -/
def Obligations.RoutingCommandsComplete : Prop :=
  (∀ (t : Nat) (side : Side) (bytes : List Byte) (f : Frame) (s : State), f = frameOf bytes → s.linkRuns = true → f.dst = 63 → s.link.position ≠ some f.origin →
      s.mayForward side f = true → s.hasNeighbour side.other = true → (f.tc = 0 → f.kind ≠ 1) →
      Runs (.frameForward t side bytes) s fun s' => s' = ((s.at_ t).noteForward side f).enqueue side.other f) ∧
    (∀ (t : Nat) (side : Side) (bytes : List Byte) (f : Frame) (s w : State), f = frameOf bytes → s.linkRuns = true → f.dst ≠ 63 → f.dst ≠ 0 →
      w = { (s.at_ t) with link := { s.link with inbox := s.link.inbox.eraseP fun x => x.2 == f } } →
      Runs (.frameForward t side bytes) s fun s' =>
        s' = if s.link.parts ≤ f.dst ∨ (s.link.ringClosed = false ∧ s.hasNeighbour side.other = false) then w.countNoRoute else w.egress side.other f) ∧
    (∀ (t origin tc flow : Nat) (x : FlowRx) (h : Nat × Option Side × Frame) (s : State),
      s.link.flowsRx.find? (fun y => y.origin == origin && y.tc == tc && y.flow == flow) = some x → h ∈ x.held → h.1 + 5000000 ≤ t →
      Runs (.mseqGapRelease t origin tc flow) s fun s' =>
        s'.link.mseqGap = satInc 16 s.link.mseqGap ∧ ∃ l : List (Side × Frame), s'.link.inbox = s.link.inbox ++ l) ∧
    ∀ (t : Nat) (bytes : List Byte) (s w : State), (s.at_ t).accept (frameOf bytes) = (.deliver, w) → (frameOf bytes).kind = 6 → (frameOf bytes).tc = 0 →
      Runs (.linkStateNoticeReceive t bytes) s fun s' => s'.link.downHops =
        (w.link.downHops.filter (· != rd (frameOf bytes).payload 0 1)) ++ (if rd (frameOf bytes).payload 1 1 = 2 then [] else [rd (frameOf bytes).payload 0 1])

/-- The gateway's beacon at a whole millisecond of its pack time, once nothing holds it back, takes the next number of its
flow; a module takes the time of a beacon of a later millisecond, of its first one, or of the copy with fewer hops; TQ
falls to 1 after 10 ms and to 2 after 1.5 s without a beacon; pack time is stored every 100 ms; a heartbeat is sent in
its slot; a die takes a time word at most every 10 microseconds, which tells the pack time with the link's delay
added, and without one its TQ falls to 1 after 10 ms and to 2 after 1.5 s, unless it has never locked. Each clause
concludes that exec answers a next state. Formalises R271, R272, R274, R275, R280, R383. -/
def Obligations.PackTimeCommandsComplete : Prop :=
  (∀ (t : Nat) (s : State), s.linkRuns = true → s.isGateway = true → t % 1000000 = 0 → s.now ≤ t →
      s.link.beaconHold = none ∨ s.hopsKeyed = true ∨ (∃ h, s.link.beaconHold = some h ∧ h ≠ 0 ∧ h ≤ t) →
      Runs (.timeBeaconSend t) s fun s' => s'.link.beaconHold = none ∧ s'.link.flowsTx = (nextMseq s.link.flowsTx 0 63).2) ∧
    (∀ (t : Nat) (side : Side) (bytes : List Byte) (f : Frame) (s : State), f = frameOf bytes → s.linkRuns = true → s.isModule = true → f.tc = 0 →
      f.kind = 1 → s.link.lastTOrigin / 1000000 < rd f.payload 0 8 / 1000000 ∨ s.link.lastBeacon = 0 ∨
        (s.link.lastTOrigin / 1000000 = rd f.payload 0 8 / 1000000 ∧ rd f.payload 12 1 < s.link.lastHops) →
      Runs (.timeBeaconReceive t side bytes) s fun s' =>
        s'.link.lastTOrigin = rd f.payload 0 8 ∧ s'.link.lastHops = rd f.payload 12 1 ∧ s'.link.epoch = rd f.payload 14 2) ∧
    (∀ (t : Nat) (s : State), s.isGateway = false → s.link.everLocked = true → s.link.lastBeacon + 10000000 < t →
      Runs (.tqHoldover t) s fun s' => s'.link.tq = (if s.link.lastBeacon + 1500000000 < t then 2 else 1) ∧ s'.link.lockRun = 0) ∧
    (∀ (t : Nat) (s : State), t % 100000000 = 0 → s.inRunDoze = true → s.part.serving = true → s.power.warnAt = none →
      Runs (.packTimeCommit t) s fun s' => s' = (s.at_ t).commitPackTime) ∧
    (∀ (t p : Nat) (s : State), s.linkRuns = true → s.link.position = some p → (t + 10000000 - (s.pos * 150000 + 25000) % 10000000) % 10000000 = 0 →
      Runs (.heartbeatSend t) s fun s' => s' = (((s.at_ t).formSafety 0x01 {} 0 false).2).originate 0 0x05 (if s.isGateway = true then 63 else 0)
        ((s.at_ t).formSafety 0x01 {} 0 false).1) ∧
    (∀ (t k delay : Nat) (d : Die) (s : State), s.hasDie k d → s.hubTakes k = true → t < d.lastWord ∨ d.lastWord + 10000 ≤ t →
      Runs (.innerTimeWord t k delay) s fun s' =>
        s'.dieShows k (fun y => (y.lastWord, y.tq)) (t, d.tqFrom (s.at_ t).tq) ∧ s'.out = s.out ++ [.timeWord k (s.clock t + delay)]) ∧
    ∀ (t k : Nat) (d : Die) (s : State), s.hasDie k d → d.lastWord + 10000000 ≤ t →
      Runs (.innerTimeWordTimeout t k) s fun s' =>
        s'.dieShows k (·.tq) (if d.tq = 3 then 3 else if d.lastWord + 1500000000 < t then 2 else 1)

/-- The oldest record of a fitted die, with no event before it, reaches a hub that takes it: intact it is placed, else it
is kept to be asked for once more, and dropped the second time; a hub that takes records again empties what the die
holds; at the gateway a record of another part that a subscription selects is claimed, and at a holder that has or
makes room a spilled record is kept under its owner with its class, stream and time; settled records go at the end of
their retention; the unit at the head of the queue that is being programmed, or of a part that may write, goes on as
programHead has it; an open D2 unit closes after ten seconds. Each clause concludes that exec answers a next state.
Formalises R292, R294, R295, R305, R306, R472, R494. -/
def Obligations.RecordCommandsComplete : Prop :=
  (∀ (t k : Nat) (intact : Bool) (d : Die) (x : Nat × Nat × List Byte) (rest : List (Nat × Nat × List Byte)) (s : State), s.hasDie k d →
      d.t0 = x :: rest → d.t0Events = [] → s.hubTakes k = true →
      (intact = true → Runs (.recordArrive t k intact) s fun s' =>
        s' = ((s.at_ t).modDie k fun y => { y with t0 := rest, t0Retry := false }).place x.1 k x.2.1 x.2.2) ∧
      Runs (.recordArrive t k intact) s fun s' =>
        s'.dieShows k (fun y => (y.t0, y.t0Retry)) (if intact = true ∨ d.t0Retry = true then (rest, false) else (d.t0, true))) ∧
    (∀ (t k : Nat) (d : Die) (s : State), s.hasDie k d → s.hubTakes k = true → d.precOn = true →
      Runs (.dieRecordResend t k) s fun s' => s'.dieShows k (fun y => (y.t0, y.t0Drop, y.t0Events)) ([], 0, [])) ∧
    (∀ (t : Nat) (bytes b : List Byte) (f : Frame) (s w u : State), f = frameOf bytes → (s.at_ t).accept f = (.deliver, w) → f.tc = 2 ∨ f.tc = 3 →
      w.assemble f = (some b, u) →
      (∀ src : Nat, rd b 0 2 ∉ [0xFFFF, 0xFFFE, 0xFFFD, 0x0D01] → u.isGateway = true → src = (if rd b 0 2 = 0x0B01 then 0 else rd b 3 1) →
        u.hif.subs.any (fun y => y.selects (u.identOf f.origin) (rd b 0 2) src (rd b 8 8)) = true →
        Runs (.recordFrameReceive t bytes) s fun s' => s' = (u.claimAll f.origin (rd b 0 2) src (rd b 8 8) (classOf (rd b 0 2)) b none).2) ∧
      (∀ (x : List Byte) (r : Tier × State), rd b 0 2 = 0xFFFF → u.t3Usable = true → x = b.drop 10 →
        ((u.ownerRoom (rd b 2 8) (x.drop 12).length (u.locus.recs.length + 1)).bind fun v => v.tierFor 2 (x.drop 12).length) = some r →
        Runs (.recordFrameReceive t bytes) s fun s' => ∃ y : Rec, y.owner = rd b 2 8 ∧ y.bytes = x.drop 12 ∧ y.cls = rd x 0 1 ∧
          y.recType = rd x 1 2 ∧ y.src = rd x 3 1 ∧ y.time = rd x 4 8 ∧
          s' = ({ r.2 with locus := { r.2.locus with recs := r.2.locus.recs ++ [y], nextId := r.2.locus.nextId + 1 } }).writer)) ∧
    (∀ (t : Nat) (s : State), Runs (.recordRetentionExpire t) s fun s' => s' = { (s.at_ t) with locus := { s.locus with
      recs := s.locus.recs.filter fun r => !(s.at_ t).expired r } }) ∧
    (∀ (t group : Nat) (ok : Bool) (u : OpenUnit) (rest : List OpenUnit) (s : State), s.locus.progQ = u :: rest → u.group = group →
      s.locus.busy.isSome = true ∨ s.writable = true →
      Runs (.unitProgramComplete t group ok) s fun s' => s' = (s.at_ t).programHead ok) ∧
    ∀ (t : Nat) (u : OpenUnit) (s : State), s.locus.units.find? (fun u => u.group == 1) = some u → u.firstAt + 10000000000 ≤ t → s.writable = true →
      Runs (.d2UnitClose t) s fun s' => s' = { (s.at_ t) with locus := s.locus.closeUnit 1 }

/-- Each second the bucket of a part with a storage die gains its rate up to its cap, the retired blocks move and the head
of the queue begins when it is admitted; a temperature is kept and begins or ends the cold hold; a refresh of the
oldest block or of one with many corrected bits, whose copy finds a place, is counted once the block is erased, and
retires a block whose erase fails; a failed storage die is given up; a part that is to choose takes the nearest
candidate, or has none; each second every die is evaluated, or its tasks are to return and none stays suspended; a
task moves to the other place at its boundary. Each clause concludes that exec answers a next state. Formalises R300,
R301, R302, R303, R304, R305, R307, R308, R309, R316. -/
def Obligations.StorageCommandsComplete : Prop :=
  (∀ (t : Nat) (s : State), s.part.store = true → s.power.st ≠ 4 → t % 1000000000 = 0 →
      ∀ u v : State, u = { s.at_ t with locus := { s.locus with bucket := min bucketCap (s.locus.bucket + 509259),
                                                                credit := if s.locus.bucket ≤ 0 then s.locus.credit + 509259 else 0 } } →
        v = u.bucketFlag.moveRetired → Runs (.bucketAccrue t) s fun s' => s' = v.startUnit v.admitsUnit) ∧
    (∀ (t : Nat) (temp : Int) (s : State), s.part.store = true → s.power.st ≠ 4 →
      Runs (.storageTempSample t temp) s fun s' => s'.locus.temp = temp ∧ s'.locus.tempAt = t ∧
        s'.locus.cold = (if s.locus.cold = true then decide (temp < -3800) else decide (temp < -4000))) ∧
    (∀ (t block : Nat) (read : BlockRead) (s r : State), s.part.store = true → s.locus.t3Fail = false → s.locus.cold = false → s.inRun = true →
      (s.locus.blk block).retired = false → s.locus.busy ≠ some block →
      (8760 ≤ (s.locus.blk block).age ∧
        s.locus.blocks.all (fun x => x.retired || x.used == 0 || decide (x.age ≤ (s.locus.blk block).age)) = true) ∨ 24 < read.corrected →
      -1073741824 ≤ s.locus.bucket - s.locus.copyCost block → (s.at_ t).copyBlock block = some r →
      (read.erased = true → Runs (.blockRefresh t block read) s fun s' => s'.locus.refreshed = satInc 16 r.locus.refreshed) ∧
      (read.erased = false → Runs (.blockRefresh t block read) s fun s' => s' = (r.retireBlock block).bucketFlag.writer)) ∧
    (∀ (t : Nat) (s : State), s.part.store = true → s.locus.t3Fail = false → Runs (.storageDieFail t) s fun s' => s'.locus.t3Fail = true) ∧
    (∀ (t : Nat) (candidates : List Nat) (s : State), s.spills = true → s.inRunDoze = true → (s.at_ t).holderCut = true →
      Runs (.spillHolderRechoose t candidates) s fun s' => s'.locus.holder = (s.nearestHolder candidates).map (·.1)) ∧
    (∀ (t : Nat) (load : List Rat) (cluster : Rat) (s w : State), t % 1000000000 = 0 → s.inRunDoze = true → s.part.serving = true →
      s.part.hubHeld = false → w = (s.at_ t).adoptLocus →
      (w.fB 0x13 0 0 2 = true → Runs (.locusEvaluate t load cluster) s fun s' =>
        s' = w.islands.foldl (fun (u : State) k => u.evaluateDie k (load.getD (k - 1) 0) cluster) w) ∧
      (w.fB 0x13 0 0 2 = false → ∀ (k : Nat) (d : Die), w.hasDie k d → Runs (.locusEvaluate t load cluster) s fun s' =>
        s'.dieShows k (fun y => (y.movePend, y.imp.suspended))
          (([1, 2].filter fun task => d.onHub task).map fun x => (x, 0, (load.getD (k - 1) 0 * 100).floor), false))) ∧
    ∀ (t k task : Nat) (d : Die) (s : State), s.hasDie k d → task = 1 ∨ task = 2 →
      (d.movePend.find? fun y => y.1 == task).isSome = true → s.hubTakes k = true → (s.at_ t).taskBoundary task = true →
      Runs (.taskMove t k task true) s fun s' => s'.dieShows k (fun y => y.onHub task) (!d.onHub task)

/-- On a reachable host interface, which an access wakes from DOZE: a reset disables it and forgets commands and
completions; enabling it with an enabled event queue makes it ready, without one is fatal; SHUTDOWN is held; an
aligned write goes to its register of BAR0 or, without waking the part, of BAR2, any other is ignored, and an access
of no bytes reads; a kick reads the doorbell page, again when a read is in progress; unmasking a vector sends what is
pending on it. Each clause concludes that exec answers a next state. Formalises R320, R321, R322, R323, R324, R328,
R343, R344. -/
def Obligations.HostRegisterCommandsComplete : Prop :=
  ∀ (t : Nat) (s w : State), s.hifUp = true → w = (s.at_ t).undoze →
    (∀ cause : Nat, Runs (.hifReset t cause) s fun s' =>
      s'.hif.en = false ∧ s'.hif.ready = false ∧ s'.hif.fatal = false ∧ s'.hif.inflight = [] ∧ s'.hif.cqWait = []) ∧
    (∀ value : Nat, bit value 0 = true → s.hif.en = false →
      (s.hif.eq.en = true → Runs (.hifEnable t value) s fun s' =>
        s'.hif.en = true ∧ s'.hif.ready = true ∧ s'.hif.pollUs = bits (value % 2 ^ 32) 31 16 ∧ s'.hif.shutdown = bit value 1) ∧
      (s.hif.eq.en = false → Runs (.hifEnable t value) s fun s' => s'.hif.fatal = true ∧ s'.hif.fatalCode = 3 ∧ s'.hif.ready = false)) ∧
    (∀ value : Nat, bit value 1 = true → Runs (.hifShutdown t value) s fun s' => s'.hif.shutdown = true) ∧
    (∀ off value : Nat, off % 16 = 8 → bit value 0 = true →
      Runs (.queueEnable t off value) s fun s' => s' = w.writeReg off (value % 2 ^ 32)) ∧
    (∀ off value : Nat, off % 16 = 8 → bit value 0 = false →
      Runs (.queueDisable t off value) s fun s' => s' = w.writeReg off (value % 2 ^ 32)) ∧
    (∀ off value size : Nat, size ≠ 0 → off < 65536 → Runs (.registerWrite t off value size) s fun s' =>
      s' = if size = 4 ∧ off % 4 = 0 then w.writeReg off (value % 2 ^ 32) else w) ∧
    (∀ off value size : Nat, size ≠ 0 → 65536 ≤ off → Runs (.registerWrite t off value size) s fun s' =>
      s' = if size = 4 ∧ off % 4 = 0 then (s.at_ t).writeMsix (off - 65536) (value % 2 ^ 32) else s.at_ t) ∧
    (∀ off value : Nat, Runs (.registerWrite t off value 0) s fun s' =>
      s' = ((s.at_ t).barAccess off 4).2.emit (.readData ((s.at_ t).barAccess off 4).1)) ∧
    (∀ value : Nat, w.hifServes = true → Runs (.kick t value) s fun s' =>
      s'.hif.dbReading = true ∧ (if s.hif.dbReading = true then s'.hif.dbAgain = true else s'.hif.lastPoll = s.clock t)) ∧
    ∀ vector : Nat, vector < 64 → Runs (.msixUnmask t vector) s fun s' => vector ∉ s'.hif.masked ∧ vector ∉ s'.hif.pendingVec ∧
      s'.out = s.out ++ (if s.hif.pendingVec.contains vector = true then [.msix vector] else [])

/-- On an interface that serves: a poll begins a read of the page, whose words end it within 50 ms, and another begins
where one was asked for; the SQ whose turn it is gives its next descriptor; a command in flight past its time
completes with TIMEOUT; a waiting stream or event entry that fits is written, and one that cannot be stops its ring or
the interface; a coalescing time looks at its queue; a minute with delays is reported; 50 ms after it was issued a
failed read of the page stops the interface, one of a descriptor its SQ, and one of a command's list or buffer
completes that command with DMA_ERROR, as a failed write of its buffer has its completion say. Each clause concludes
that exec answers a next state. Formalises R326, R327, R328, R331, R332, R334, R337, R340, R341, R342, R343, R344. -/
def Obligations.HostQueueCommandsComplete : Prop :=
  (∀ (t : Nat) (s : State), s.hifServes = true → s.inRun = true → s.hif.pollUs ≠ 0 → s.hif.dbReading = false →
      s.hif.lastPoll + s.hif.pollUs * 1000 ≤ t →
      Runs (.doorbellPoll t) s fun s' => s'.hif.dbReading = true ∧ s'.hif.lastPoll = s.clock t ∧
        s'.out = s.out ++ [.hostRead (s.hif.dbHi * 2 ^ 32 + s.hif.dbLo) 320]) ∧
    (∀ (t : Nat) (words : List Nat) (s : State), s.hifServes = true → s.hif.dbReading = true → t < s.hif.lastPoll + readTimeout →
      Runs (.doorbellReadComplete t words) s fun s' => s'.hif.dbReading = s.hif.dbAgain ∧ s'.hif.dbAgain = false) ∧
    (∀ (t sq left : Nat) (bytes listBytes data : List Byte) (s u : State), s.hifServes = true → s.hif.shutdown = false →
      s.arbiter = some (sq, left) →
      u = (((s.at_ t).putSq sq { (s.hif.sqOf sq).step with readAt := t }).modHif fun h =>
        { h with rrSq := sq, rrLeft := left, fetchNo := (s.hif.fetchNo + 1) % 65536 }).emit (.hostRead ((s.hif.sqOf sq).base + 64 * (s.hif.sqOf sq).ptr) 64) →
      Runs (.descriptorFetch t sq bytes listBytes data) s fun s' =>
        s' = ({ u with power := { u.power with idleSince := t } }).noteValid.takeDescriptor (cmdOf sq s.hif.fetchNo bytes) bytes listBytes data) ∧
    (∀ (t sq cid : Nat) (x : InFlight) (s : State), s.hif.inflight.find? (fun y => y.cmd.sq == sq && y.cmd.cid == cid && !y.completed) = some x →
      x.fetched + x.timeoutMs * 1000000 ≤ t →
      Runs (.commandTimeout t sq cid) s fun s' => s' = (if x.cmd.dest = 63 then (s.at_ t).finishBroadcast x
        else (s.at_ t).queueCompletion x x.cmd.dest 0 0 Status.timeout.code).startAll) ∧
    (∀ (t ring : Nat) (w : StrWait) (s : State), s.hifServes = true → (s.hif.strOf ring).serves = true →
      s.hif.strWait.find? (fun y => y.ring == ring && y.writtenEnd.isNone) = some w → (s.hif.strOf ring).ringFits w.bytes.length = true →
      Runs (.streamEntryWrite t ring true) s (fun s' => s' = ((s.at_ t).writeStream w).endClosed.checkDrain) ∧
      Runs (.streamEntryWrite t ring false) s fun s' =>
        s' = ((s.at_ t).putStr ring { s.hif.strOf ring with err := 2, active := false }).queueError 3 ring 2) ∧
    (∀ (t : Nat) (w : EvWait) (rest : List EvWait) (s : State), s.hif.eqWait = w :: rest → s.hifServes = true → s.hif.eq.serves = true →
      s.hif.eq.full = false →
      Runs (.eventEntryWrite t true) s (fun s' => s' = ((s.at_ t).writeEvent w).checkDrain) ∧
      Runs (.eventEntryWrite t false) s fun s' => s'.hif.fatal = true ∧ s'.hif.fatalCode = 2 ∧ s'.hif.ready = false) ∧
    (∀ (t kind idx : Nat) (s : State), s.hifServes = true → Runs (.interruptCoalesceExpire t kind idx) s fun s' =>
      s' = if kind = 0 then (s.at_ t).coalesced (s.hif.cqOf idx) (State.putCq idx) else if kind = 1 then (s.at_ t).coalesced s.hif.eq State.putEq
        else (s.at_ t).coalesced (s.hif.strOf idx) (State.putStr idx)) ∧
    (∀ (t : Nat) (s : State), s.hif.delayedMinute ≠ 0 → Runs (.eventDelayReport t) s fun s' => s'.hif.delayedMinute = 0) ∧
    ∀ (t idx : Nat) (acc : HostAccess) (s : State), s.hifServes = true →
      (s.hif.dbReading = true → s.hif.lastPoll + readTimeout ≤ s.clock t →
        Runs (.hostReadTimeout t 0 idx acc) s fun s' => s'.hif.fatal = true ∧ s'.hif.fatalCode = 1 ∧ s'.hif.dbReading = false) ∧
      (s.fetchable idx = true → s.hif.shutdown = false → (s.hif.sqOf idx).readAt + readTimeout ≤ s.clock t →
        Runs (.hostReadTimeout t 1 idx acc) s fun s' =>
          s' = (((s.at_ t).putSq idx { s.hif.sqOf idx with err := 2, active := false }).queueError 1 idx 2).checkDrain) ∧
      (∀ x : InFlight, s.hif.inflight.find? (fun y => y.cmd.sq == idx && y.cmd.cid == acc.cid && y.reading && !y.completed) = some x →
        x.fetched + readTimeout ≤ s.clock t → inRanges (if x.ranges.isEmpty then [x.listAt] else x.ranges) acc.addr = true →
        Runs (.hostReadTimeout t 2 idx acc) s fun s' =>
          s' = ((((s.at_ t).dmaEvent idx acc.cid acc.addr).queueCompletion x x.cmd.dest 0 0 Status.dmaError.code).startAll).checkDrain) ∧
      ∀ (w : ComplWait) (x : InFlight), s.hif.cqWait.find? (fun y => y.sq == idx && y.cid == acc.cid && y.xfer != 0) = some w →
        s.hif.inflight.find? (fun y => y.completed && y.cmd.sq == idx && y.cmd.gen == w.gen) = some x → inRanges x.ranges acc.addr = true →
        Runs (.hostReadTimeout t 3 idx acc) s fun s' =>
          s' = ((s.at_ t).modHif fun h => { h with
            cqWait := h.cqWait.map fun (y : ComplWait) => if y = w then { y with xfer := 0, status := Status.dmaError.code } else y }).dmaEvent idx acc.cid acc.addr

/-- A whole command frame of the gateway at a module wakes it from DOZE and refreshes the keep-alive, or, by its first
byte and its length, closes a subscription, takes back a claim, or starts the entry that a broadcast asked for; a
whole completion at the gateway is a vote of a group commit, tells of a capture armed or disarmed, or is taken for its
command; a whole event of a module waits for the event queue of the gateway, ends the wake of a part that says RUN,
and is mirrored in the black box. Each clause concludes that exec answers a next state. Formalises R218, R333, R334,
R336, R341, R351, R359, R456. -/
def Obligations.MessageCommandsComplete : Prop :=
  ∀ (t : Nat) (bytes b : List Byte) (f : Frame) (s w u : State), f = frameOf bytes → s.linkRuns = true → f.tc = 1 →
    (s.at_ t).accept f = (.deliver, w) → w.assemble f = (some b, u) →
    (s.isModule = true → f.kind = 0x10 → f.origin = 0 → Runs (.commandFrameReceive t bytes) s fun s' =>
      s' = if b.take 1 = le 1 0x07 ∧ b.length = 2 then u.closeFor (rd b 1 1)
        else if b.take 1 = le 1 0x08 ∧ b.length = 13 then u.unclaimTo (rd b 1 1) (rd b 2 2) (rd b 4 1) (rd b 5 8) else if b.take 1 = le 1 0x0D ∧ b.length = 2 then u.enterPend
        else u.undoze.noteValid) ∧
    (s.isGateway = true → f.kind = 0x11 →
      (rd b 14 2 = preparedCode → Runs (.completionFrameReceive t bytes) s fun s' => s' = u.notePrepared (rd b 2 1) (rd b 0 2) (rd b 3 1)) ∧
      (rd b 14 2 = armedCode → Runs (.completionFrameReceive t bytes) s fun s' => s'.sync.armed =
        if u.sync.unanswered (rd b 4 8) = true then u.sync.armed ++ [rd b 4 8] else u.sync.armed) ∧
      (rd b 14 2 = disarmedCode → Runs (.completionFrameReceive t bytes) s fun s' => s'.sync.armed = u.sync.armed.erase (rd b 4 8)) ∧
      (rd b 14 2 ≠ preparedCode → rd b 14 2 ≠ armedCode → rd b 14 2 ≠ disarmedCode →
        u.hif.inflight.find? (fun x => x.isFor (rd b 2 1) (rd b 0 2) (rd b 12 2)) = none →
        Runs (.completionFrameReceive t bytes) s fun s' =>
          s' = (u.takeCompletion (rd b 2 1) (rd b 0 2) (rd b 12 2) (rd b 3 1) (rd b 4 4) (rd b 8 4) (rd b 14 2) (b.drop 16)).startAll) ∧
      ∀ x : InFlight, rd b 14 2 ≠ preparedCode → rd b 14 2 ≠ armedCode → rd b 14 2 ≠ disarmedCode →
        u.hif.inflight.find? (fun x => x.isFor (rd b 2 1) (rd b 0 2) (rd b 12 2)) = some x →
        Runs (.completionFrameReceive t bytes) s fun s' =>
          s' = ((u.modHif fun h => (h.noteSleep x (rd b 3 1) (rd b 14 2)).noteOpen x (rd b 14 2)).takeCompletion (rd b 2 1) (rd b 0 2) (rd b 12 2) (rd b 3 1) (rd b 4 4)
            (rd b 8 4) (rd b 14 2) (b.drop 16)).startAll) ∧
    (∀ v w2 : State, s.isGateway = true → f.kind = 0x12 →
      v = u.modHif (fun h => { h with eqWait := h.eqWait ++ [{ bytes := b.take 32, since := t, ref := none }] }) →
      w2 = (if rd b 0 1 = 50 ∧ rd b 16 1 = 0 then (v.awake f.origin).startAll else v) →
      Runs (.eventFrameReceive t bytes) s fun s' => s' = (w2.drawBits 32).2.blackBox 0x20 false
        (le 8 ((w2.drawBits 32).2.identOf f.origin) ++ le 4 (w2.drawBits 32).1 ++ le 1 0x10 ++ b.take 28))

/-- A served CONFIG_READ in range returns bytes of A, of B, or of the live registers with what has come into force taken
first; a SHADOW_WRITE in range is put into B, or waits for the copy; a COMMIT without a refusal is pending; the check
of a B without an offence marks it checked, one with an offence ends it; at T_COMMIT B becomes A, with the epoch one
higher and the copy begun; the copy ends with B equal to A and then the writes that waited; a revert copies A into B;
a cancel ends the pending commit and leaves A and B. Each clause concludes that exec answers a next state. Formalises
R353, R355, R356, R357, R358. -/
def Obligations.ConfigSetCommandsComplete : Prop :=
  (∀ (t : Nat) (c : Cmd) (s w : State), s.serves 0x03 c → w = s.served t c → cfgRangeOk (rd c.param 1 1) c.target (rd c.param 4 4) c.bufLen = true →
      rd c.param 0 1 < 2 → Runs (.configRead t c) s fun s' => s' = w.completeData c .success 0
        (cellRead (if rd c.param 0 1 = 0 then s.cfg.a else cellMasked s.cfg.b) (cfgAddr (rd c.param 1 1) c.target (rd c.param 4 4)) c.bufLen)) ∧
    (∀ (t : Nat) (c : Cmd) (s u v : State), s.serves 0x03 c → rd c.param 0 1 = 2 → rd c.param 4 4 % 4 = 0 → rd c.param 4 4 + c.bufLen ≤ 0x200 →
      blockExists (rd c.param 1 1) c.target = true → u = (s.served t c).catchUp c.target →
      v = (if rd c.param 1 1 = 0x15 then u.measurePower else u) → Runs (.configRead t c) s fun s' =>
        s' = v.completeData c .success 0 (v.liveBytes (rd c.param 1 1) c.target (rd c.param 4 4) (c.bufLen / 4))) ∧
    (∀ (t : Nat) (c : Cmd) (data : List Byte) (s : State), s.serves 0x04 c →
      cfgRangeOk (rd c.param 1 1) c.target (rd c.param 4 4) c.bufLen = true → s.cfg.pend = none →
      (s.cfg.copying = false → Runs (.shadowWrite t c data) s fun s' =>
        s'.cfg.b = cellWrite s.cfg.b (cfgAddr (rd c.param 1 1) c.target (rd c.param 4 4)) (slice (s.inData c data) 0 c.bufLen) ∧ s'.cfg.a = s.cfg.a ∧ s'.cfg.f = s.cfg.f) ∧
      (s.cfg.copying = true → Runs (.shadowWrite t c data) s fun s' => s'.cfg.waiting = s.cfg.waiting ++ [(c, s.inData c data)] ∧ s'.cfg.b = s.cfg.b)) ∧
    (∀ (t : Nat) (c : Cmd) (s : State), s.serves 0x05 c → rd c.param 0 1 = 0 → bits (rd c.param 1 1) 7 1 = 0 →
      (s.served t c).commitRefusal (rd c.param 8 8) = none →
      Runs (.commit t c) s fun s' => s'.cfg.pend = some (PendCommit.mk c (s.clock t) (if rd c.param 8 8 = 0 then commitDefault (s.clock t) else rd c.param 8 8)
        (isGroupCommit c) false false)) ∧
    (∀ (t : Nat) (p : PendCommit) (s : State), s.cfg.pend = some p → p.checked = false → s.cfg.waiting = [] →
      (firstOffence (checkSet s.cfg.a s.cfg.b s.islands (s.isGateway && s.anyOut)) = none → Runs (.commitCheck t) s fun s' =>
        s'.cfg.pend = some { p with checked := true }) ∧
      (∀ o, firstOffence (checkSet s.cfg.a s.cfg.b s.islands (s.isGateway && s.anyOut)) = some o → Runs (.commitCheck t) s fun s' =>
        s' = (((s.at_ t).modCfg fun x => { x with pend := none }).complete p.cmd .configInvalid (offenceResult o)).evalOuts ∧ s'.cfg.a = s.cfg.a)) ∧
    (∀ (t : Nat) (c : Cmd) (s : State), s.serves 0x05 c → bits (rd c.param 1 1) 7 1 = 0 →
      (rd c.param 0 1 = 1 → s.cfg.pend = none → Runs (.commitRevert t c) s fun s' => s'.cfg.b = s.cfg.a ∧ s'.cfg.torn = false ∧ s'.cfg.a = s.cfg.a) ∧
      (rd c.param 0 1 = 2 → Runs (.commitCancel t c) s fun s' => s'.cfg.pend = none ∧ s'.cfg.a = s.cfg.a ∧ s'.cfg.b = s.cfg.b)) ∧
    (∀ (t : Nat) (p : PendCommit) (s : State), s.cfg.pend = some p → p.checked = true → p.tCommit ≤ t → p.group = false ∨ p.go = true →
      Runs (.configSwap t) s fun s' => s'.cfg.a = cellMasked s.cfg.b ∧ s'.cfg.epoch = (s.cfg.epoch + 1) % 65536 ∧ s'.cfg.pend = none ∧
        s'.cfg.copying = true) ∧
    ∀ (t : Nat) (s : State), s.cfg.copying = true → Runs (.shadowCopyComplete t) s fun s' =>
      s'.cfg.copying = false ∧ s'.cfg.waiting = [] ∧ s'.cfg.b = s.cfg.waiting.foldl (fun m x =>
        cellWrite m (cfgAddr (rd x.1.param 1 1) x.1.target (rd x.1.param 4 4)) (slice x.2 0 x.1.bufLen)) s.cfg.a

/-- The gateway of a group commit sends GO when every part is PREPARED and ABORT five milliseconds before T_COMMIT when
one is not; a part holds GO, ends at ABORT, and without GO by T_COMMIT less 100 microseconds keeps A; a policy without
an offence is written into both sets of the dies it names, and waits for those that serve to take it. Each clause
concludes that exec answers a next state. Formalises R359, R361. -/
def Obligations.GroupCommitCommandsComplete : Prop :=
  (∀ (t : Nat) (g : GroupRun) (s : State), s.cfg.group = some g →
      ((List.range (max 1 s.chainParts)).all g.prepared.contains = true → Runs (.groupCommitDecide t) s fun s' => s'.cfg.group = none ∧
        s' = (((s.at_ t).originate 1 0x10 63 (le 1 0x05 ++ le 1 1)).modCfg fun x => { x with group := none }).holdGo) ∧
      ((List.range (max 1 s.chainParts)).all g.prepared.contains = false → g.tCommit ≤ t + 5000000 → Runs (.groupCommitDecide t) s fun s' =>
        s'.cfg.group = none ∧
        s' = (((s.at_ t).originate 1 0x10 63 (le 1 0x05 ++ le 1 2)).modCfg fun x => { x with group := none }).endGroup .groupAborted)) ∧
    (∀ (t : Nat) (p : PendCommit) (s w : State), s.isModule = true → (s.at_ t).takeGroupFrame 1 = (true, w) → w.cfg.pend = some p →
      p.group = true → p.checked = true → t + 100000 ≤ p.tCommit →
      Runs (.groupGoReceive t) s fun s' => s'.cfg.pend = some { p with go := true }) ∧
    (∀ (t : Nat) (p : PendCommit) (s w : State), s.isModule = true → (s.at_ t).takeGroupFrame 2 = (true, w) → w.cfg.pend = some p →
      p.group = true → Runs (.groupAbortReceive t) s fun s' => s'.cfg.pend = none ∧ s'.cfg.a = w.cfg.a) ∧
    (∀ (t : Nat) (p : PendCommit) (s : State), s.cfg.pend = some p → p.group = true → p.checked = true → p.go = false → p.tCommit ≤ t + 100000 →
      Runs (.groupGoDeadline t) s fun s' => s'.cfg.pend = none ∧ s'.cfg.a = s.cfg.a) ∧
    ∀ (t : Nat) (c : Cmd) (ks : List Nat) (s : State), s.serves 0x0C c → rd c.param 8 4 < 2 ^ 24 → ks = (if c.target = 0 then s.islands else [c.target]) →
      firstOffence (ks.flatMap fun k =>
        (checkProt (ks.foldl (fun m k => policySet m k (rd c.param 0 4) (rd c.param 4 4) (rd c.param 8 4) (rd c.param 12 4)) s.cfg.a) k ++
         checkProt (ks.foldl (fun m k => policySet m k (rd c.param 0 4) (rd c.param 4 4) (rd c.param 8 4) (rd c.param 12 4)) s.cfg.b) k).map
          fun off => (0x07, k, off)) = none →
      Runs (.balancePolicy t c) s fun s' =>
        s'.cfg.a = ks.foldl (fun m k => policySet m k (rd c.param 0 4) (rd c.param 4 4) (rd c.param 8 4) (rd c.param 12 4)) s.cfg.a ∧
        s'.cfg.b = ks.foldl (fun m k => policySet m k (rd c.param 0 4) (rd c.param 4 4) (rd c.param 8 4) (rd c.param 12 4)) s.cfg.b ∧
        (ks.filter (fun k => !s.dieGone k) ≠ [] → s'.cfg.policies = s.cfg.policies ++ [(c, ks.filter fun k => !s.dieGone k)])

/-- A served IDENTIFY returns the identity and PING the epoch, TQ and power state; ENUMERATE at a gateway starts an
enumeration that is not running; a STREAM_OPEN without a refusal opens its subscription; STREAM_CLOSE of one that is
open and not closing marks it, ends it at its source, and completes once nothing claimed is left to write; RECORD_READ
returns the newest record held near of the stream; STORE_READ returns its range when no holder keeps any of it, and
else waits for the holders. Each clause concludes that exec answers a next state. Formalises R263, R299, R352, R362. -/
def Obligations.StreamCommandsComplete : Prop :=
  ∀ (t : Nat) (c : Cmd) (s w : State), w = s.served t c →
    (s.serves 0x01 c → Runs (.identify t c) s fun s' => s' = w.completeData c .success 0 w.identity) ∧
    (s.serves 0x18 c → Runs (.ping t c) s fun s' => s' = w.complete c .success (fld 0 16 s.cfg.epoch + fld 16 2 w.tq + fld 18 2 0)) ∧
    (s.serves 0x02 c → s.isGateway = true → s.link.enumState ≠ 1 → Runs (.enumerate t c) s fun s' =>
      s'.link.enumState = 1 ∧ s'.link.position = some 0 ∧ s'.link.enumCmd = some c) ∧
    (s.serves 0x06 c → (if s.hosted = true then w.subRefusal c = none else rd c.param 6 2 ≠ 0 ∧ streamOk c = true) →
      (rd c.param 4 2 = 0x0901 ∨ (rd c.param 4 2 = 0x0B01 ↔ c.target = 0)) → (rd c.param 4 2 = 0x0302 → w.fastMode c.target = 2) →
      Runs (.streamOpen t c) s fun s' => s' = (w.openSub c).complete c .success 0) ∧
    (∀ x : Sub, s.serves 0x07 c → s.hosted = true → s.hif.subs.find? (fun x => x.sub == rd c.param 0 1) = some x → x.closing = none →
      Runs (.streamClose t c) s fun s' => s' = ((w.modHif fun h =>
        { h with subs := h.subs.map fun (y : Sub) => if y.sub = x.sub then { y with closing := some c } else y }).endSub x).endClosed) ∧
    (∀ r : Rec, s.serves 0x08 c → (rd c.param 4 2 = 0x0901 ↔ rd c.param 2 1 = 1 ∨ rd c.param 2 1 = 2) → streamOk c = true →
      ((w.streamRecs (rd c.param 4 2) (streamSrc c) 0).filter fun r => r.tier == .stage || r.tier == .buffer || r.tier == .capture).getLast? = some r →
      r.bytes.length ≤ c.bufLen → Runs (.recordRead t c) s fun s' => s' = w.completeData c .success 0 r.bytes) ∧
    ∀ (lost holders : List Nat), s.serves 0x0B c → (rd c.param 4 2 = 0x0901 ↔ rd c.param 2 1 = 1 ∨ rd c.param 2 1 = 2) →
      streamOk c = true → w.streamRecs (rd c.param 4 2) (streamSrc c) 0 ≠ [] →
      holders = (((w.streamRecs (rd c.param 4 2) (streamSrc c) (rd c.param 8 8)).filter (·.tier == .t5)).flatMap (·.blocks)).eraseDups →
      (∀ r : List Byte × Nat × Bool, holders = [] →
        r = fillWith c.bufLen (withLost (w.streamRecs (rd c.param 4 2) (streamSrc c) (rd c.param 8 8)) lost []) →
        Runs (.storeRead t c lost) s fun s' => s' = w.completeData c (if r.2.2 = true then .recordLost else .success) r.2.1 r.1) ∧
      (holders ≠ [] → Runs (.storeRead t c lost) s fun s' =>
        s'.locus.reads = s.locus.reads ++ [{ cmd := c, lost := lost, waits := holders, got := [] }])

/-- A served CAPTURE_ARM on a die in capture mode without a capture arms one, a disarm ends it, a fetch of a capture that
is held or live returns its blocks and releases them; POWER_STATE 0 and 1 clear and set DOZE as the target, 2 and 3
complete and ask for SLEEP and SHIP, but a FULL session that keeps awake holds SLEEP in DOZE; SENSOR_SEARCH starts at
a port between cycles and waits at any other; with the token and its conditions LOCKOUT_RELEASE ends a lock-out. Each
clause concludes that exec answers a next state. Formalises R78, R98, R236, R352, R362, R377, R379, R414, R417. -/
def Obligations.CaptureAndPowerRequestsComplete : Prop :=
  ∀ (t : Nat) (c : Cmd) (s w : State), w = s.served t c →
    (s.serves 0x09 c → rd c.param 0 1 = 0 → bits (cellWord s.cfg.a 0x02 c.target 0) 7 6 = 1 → (rd c.param 8 8 = 0 ∨ w.tq ≠ 3) →
      (∀ d, s.die? c.target = some d → d.fast.cap = none) →
      Runs (.captureArm t c) s fun s' =>
        s' = w.armCapture c.target (if rd c.param 8 8 = 0 then (w.now / 1000000 + 1) * 1000000 else rd c.param 8 8) c) ∧
    (s.serves 0x09 c → rd c.param 0 1 = 1 → Runs (.captureDisarm t c) s fun s' => s' = (w.abortCapture c.target true).complete c .success 0) ∧
    (∀ (lost : List Nat) (held : List (Nat × Rec)) (top : Nat) (live : Option Capture) (mine : List (Nat × Rec)) (r : List Byte × Nat × Bool),
      s.serves 0x0A c → held = w.captureBlocks c.target (rd c.param 4 4) →
      live = ((s.die? c.target).map fun d => d.fast.captures.find? fun x => x.id == rd c.param 4 4).getD none →
      top = held.foldl (fun m x => max m (x.1 + 1)) ((live.map (·.block)).getD 0) →
      mine = (held.filter fun x => decide (rd c.param 8 2 ≤ x.1) && decide (x.1 < rd c.param 8 2 + rd c.param 10 2)) →
      rd c.param 10 2 ≠ 0 → (held ≠ [] ∨ live.isSome = true) → r = fillWith c.bufLen (withLost (mine.map (·.2)) lost []) →
      Runs (.captureFetch t c lost) s fun s' => s' = (mine.take r.2.1).foldl (fun u x => u.releaseD3 x.2.id true) (w.completeData c (if r.2.2 = true then .recordLost else .success)
        (fld 0 16 r.2.1 + fld 16 16 (sat 16 ((min (rd c.param 8 2 + rd c.param 10 2) top - rd c.param 8 2) - mine.length))) r.1)) ∧
    (s.serves 0x0D c → rd c.param 0 1 = 0 → Runs (.powerStateRun t c) s fun s' => s'.power.dozeTgt = false ∧ s'.power.st = 0) ∧
    (s.serves 0x0D c → rd c.param 0 1 = 1 → Runs (.powerStateDoze t c) s fun s' => s'.power.dozeTgt = true ∧ s'.power.st = 0) ∧
    (s.serves 0x0D c → rd c.param 0 1 = 2 →
      (s.trust.session = 2 ∧ s.trust.keepAwake = true → Runs (.powerStateSleep t c) s fun s' => s'.power.dozeTgt = true ∧ s'.trust.sleepHeld = true) ∧
      (¬ (s.trust.session = 2 ∧ s.trust.keepAwake = true) → Runs (.powerStateSleep t c) s fun s' => s' = (w.complete c .success 0).askLow 2 (c.dest == 63))) ∧
    (s.serves 0x0D c → rd c.param 0 1 = 3 → Runs (.powerStateShip t c) s fun s' => s' = (w.complete c .success 0).askLow 3 (c.dest == 63)) ∧
    (∀ x : SwpPort, s.serves 0x14 c → rd c.param 0 1 = 1 ∨ rd c.param 0 1 = 2 → s.swp[rd c.param 0 1 - 1]? = some x →
      Runs (.sensorSearch t c) s fun s' => s'.portShows (rd c.param 0 1) (fun y => (y.pendSearch, y.cmds, y.runs))
        (if x.st = 2 ∧ x.inCycle = false then (false, [], x.cmds ++ [c]) else (true, x.cmds ++ [c], x.runs))) ∧
    (s.serves 0x16 c → s.isGateway = true → bit (rd s.trust.sealed_ 1 1) 0 = true → s.safe.lockout = true → slice c.param 0 16 = w.releaseToken →
      w.releasable = true → Runs (.lockoutRelease t c) s fun s' => s'.safe.lockout = false ∧ s' = w.releaseLockout.complete c .success 1)

/-- At a whole 10 ms counters that changed and statements that wait are committed; a served statement waits for the next
commit; each hour a snapshot and each thirty days a history record is kept; a challenge draws and keeps a fresh nonce;
a firewall violation is counted; the record that waits longest leaves the queue for both copies unless the signer is
busy; a read returns whole records in order. Each clause concludes that exec answers a next state. Formalises R424,
R443, R444, R445, R453, R454, R455, R457. -/
def Obligations.MeterAndBlackBoxCommandsComplete : Prop :=
  (∀ (t : Nat) (s : State), s.apexRuns = true → t % 10000000 = 0 → s.power.warnAt = none → s.trust.meterDirty = true ∨ s.trust.stmtWait ≠ [] →
      Runs (.meterCommit t) s fun s' => s' = (((s.at_ t).commitMeter false).formStatements).actDue) ∧
    (∀ (t : Nat) (c : Cmd) (s : State), s.serves 0x10 c → Runs (.meterStatement t c) s fun s' => s'.trust.stmtWait = s.trust.stmtWait ++ [c]) ∧
    (∀ (t : Nat) (s : State), s.apexRuns = true → t % 3600000000000 = 0 →
      Runs (.meterSnapshot t) s fun s' => s' = (s.at_ t).blackBox 0x12 false (s.at_ t).meterBody) ∧
    (∀ (t : Nat) (s : State), s.apexRuns = true → s.trust.life ≠ 0 → s.trust.history.start + historyNs ≤ t →
      Runs (.historyPeriod t) s fun s' => s'.trust.history = History.from_ (s.trust.history.start + historyNs)) ∧
    (∀ (t : Nat) (c : Cmd) (s : State), s.serves 0x11 c →
      Runs (.trustChallenge t c) s fun s' => s'.trust.nonce = some (((s.served t c).drawBytes 16).1, t)) ∧
    (∀ (t : Nat) (s : State), Runs (.firewallViolation t) s fun s' => s' = (s.at_ t).modTrust fun x => { x with firewall := satInc 5 x.firewall }) ∧
    (∀ (t : Nat) (w : BbWait) (rest : List BbWait) (s : State), s.apexRuns = true → (s.at_ t).signBusy = false → s.trust.bbWait = w :: rest →
      Runs (.blackboxRecordWrite t true true) s fun s' => s'.trust.bbWait = rest ∧ s'.trust.oneCopy = s.trust.oneCopy) ∧
    ∀ (t : Nat) (c : Cmd) (rs got : List BbRec) (s : State), s.serves 0x15 c →
      rs = (s.trust.bb.filter fun r => decide (rd c.param 4 4 ≤ r.seq) && (r.okA || r.okB)) → got = rs.take (min rs.length (c.bufLen / 256)) →
      Runs (.blackboxRead t c) s fun s' => s' = (s.served t c).completeData c .success
        (fld 0 16 (min rs.length (c.bufLen / 256)) +
          fld 16 16 (sat 16 (((got.getLast?).map (·.seq + 1)).getD (rd c.param 4 4) - rd c.param 4 4 - min rs.length (c.bufLen / 256))))
        (got.flatMap (·.bytes))

/-- A served stage within the rules keeps its bytes, those of its buffer, and a chunk that arrives in frames is served as
a stage; a verify of a whole image answers whether it passes; an activation starts, of Apex into the other slot, of
the previous image too, when its image passes, which Solgedor's own key decides, and is refused when it does not; a
Span that reports ready within ten seconds is in force on trial, one that does not is given up, and a third stop in
its first hour rolls it back; after an hour of RUN the fuse count rises to its security version. Each clause concludes
that exec answers a next state. Formalises R362, R447, R448, R449, R450. -/
def Obligations.FirmwareCommandsComplete : Prop :=
  (∀ (t : Nat) (c : Cmd) (data : List Byte) (s w : State), s.serves 0x12 c → w = s.served t c → rd c.param 0 1 = 1 ∨ rd c.param 0 1 = 2 →
      rd c.param 4 4 % 4 = 0 → rd c.param 8 4 ≤ imageMax (rd c.param 0 1) → rd c.param 4 4 + c.bufLen ≤ rd c.param 8 4 → rd c.param 4 4 = 0 →
      Runs (.firmwareStage t c data) s fun s' => s' = (w.putStaging (rd c.param 0 1) (rd c.param 4 4) (rd c.param 8 4) (slice (s.inData c data) 0 c.bufLen)).completeX c
        .success 0 c.bufLen) ∧
    (∀ (t : Nat) (c : Cmd) (data : List Byte) (x : Staging) (s w : State), s.serves 0x12 c → w = s.served t c →
      rd c.param 0 1 = 1 ∨ rd c.param 0 1 = 2 → s.trust.staging[rd c.param 0 1 - 1]? = some x → rd c.param 4 4 % 4 = 0 →
      rd c.param 8 4 ≤ imageMax (rd c.param 0 1) → rd c.param 4 4 + c.bufLen ≤ rd c.param 8 4 → rd c.param 8 4 = x.total →
      Runs (.firmwareStage t c data) s fun s' => s' = (w.putStaging (rd c.param 0 1) (rd c.param 4 4) (rd c.param 8 4) (slice (s.inData c data) 0 c.bufLen)).completeX c
        .success 0 c.bufLen) ∧
    (∀ (t : Nat) (bytes b : List Byte) (f : Frame) (c : Cmd) (s w u : State), f = frameOf bytes → s.linkRuns = true → s.isModule = true → f.tc = 3 →
      f.kind = 0x31 → (s.at_ t).accept f = (.deliver, w) → w.assemble f = (some b, u) → c = cmdOf (rd b 64 1) (rd b 65 2) b →
      Runs (.firmwareFrameReceive t bytes) s fun s' => s' = u.serve 0x12 c true fun x => x.stageFirmware c (b.drop 67)) ∧
    (∀ (t : Nat) (c : Cmd) (starts : Bool) (x : Staging) (v : Bool × State) (s w : State), s.serves 0x13 c → w = s.served t c →
      w.activateRefusal c (rd c.param 1 1 != 0) = none → s.trust.staging[rd c.param 0 1 - 1]? = some x → x.whole = true →
      v = w.verifyImage (rd c.param 0 1) x.image x.total →
      (rd c.param 1 1 = 0 → Runs (.firmwareVerify t c) s fun s' => s' = v.2.complete c (if v.1 = true then .success else .imageRejected) 0) ∧
      (rd c.param 1 1 = 1 → rd c.param 0 1 = 2 → Runs (.firmwareActivate t c starts) s fun s' =>
        s' = if v.1 = true then v.2.startActivation c starts else v.2.complete c .imageRejected 0) ∧
      (rd c.param 1 1 = 1 → rd c.param 0 1 = 1 → Runs (.firmwareActivate t c starts) s fun s' =>
        s' = if v.1 = true then (v.2.modTrust fun y => { y with apexImgs := setNth (b2n (!y.apexSlotB)) x.image y.apexImgs }).startActivation c starts
          else v.2.complete c .imageRejected 0)) ∧
    (∀ (t : Nat) (c : Cmd) (starts : Bool) (b : List Byte) (v : Bool × State) (s w : State), s.serves 0x13 c → w = s.served t c →
      rd c.param 1 1 = 2 → w.activateRefusal c true = none →
      b = (if rd c.param 0 1 = 1 then w.apexImage (!s.trust.apexSlotB) else w.spanImage (!s.trust.slotB)) →
      v = w.verifyImage (rd c.param 0 1) b b.length →
      Runs (.firmwareReturnPrevious t c starts) s fun s' =>
        s' = if v.1 = true then v.2.startActivation c starts else v.2.complete c .imageRejected 0) ∧
    (∀ (t r : Nat) (a : Activation) (s w : State), w = (s.at_ t).actDue → w.trust.act = some a → a.runAt = some r → t ≤ r + 10000000000 →
      Runs (.spanReady t) s fun s' => s'.trust.slotB = !w.trust.slotB ∧ s'.trust.act = none ∧ s'.trust.trial = true) ∧
    (∀ (t r : Nat) (a : Activation) (s w : State), w = (s.at_ t).actDue → w.trust.act = some a → a.runAt = some r → r + 10000000000 ≤ t →
      Runs (.spanReadyTimeout t) s fun s' => s'.trust.act = none ∧ s'.trust.slotB = w.trust.slotB) ∧
    (∀ (t : Nat) (s : State), s.trust.trial = true → (s.at_ t).accrueTest.runClock < s.trust.spanSince + hourNs →
      Runs (.spanStop t) s fun s' => if s.trust.spanStops + 1 < 3 then s'.trust.spanStops = s.trust.spanStops + 1 ∧ s'.trust.slotB = s.trust.slotB
        else s'.trust.slotB = !s.trust.slotB ∧ s'.trust.trial = false) ∧
    ∀ (t : Nat) (s w : State), w = (s.at_ t).accrueTest →
      (s.trust.trial = true → s.trust.spanSince + hourNs ≤ w.runClock → Runs (.svnCommit t 2) s fun s' =>
        s'.trust.svnSpan = max s.trust.svnSpan (imageSvn (w.spanImage s.trust.slotB) % 64) ∧ s'.trust.trial = false) ∧
      (w.apexImage s.trust.apexSlotB ≠ [] → s.trust.apexSince + hourNs ≤ w.runClock → Runs (.svnCommit t 1) s fun s' =>
        s'.trust.svnApex = max s.trust.svnApex (imageSvn (w.apexImage s.trust.apexSlotB) % 64))

/-- An accepted GENKEY gives the part a new integrator key; SEAL takes the owner root and the sealed configuration of its
message and makes the part SEALED; UPDATE replaces the sealed configuration; RELOCATE erases the owner material and
the integrator key and resets the active set; RETURN burns its fuse and leaves no key. Each clause concludes that exec
answers a next state. Formalises R426, R430, R431, R433, R434. -/
def Obligations.LifecycleCommandsComplete : Prop :=
  ∀ (t : Nat) (c : Cmd) (data msg : List Byte) (s : State), msg = s.inData c data →
    (s.acceptsLife t 1 c msg → Runs (.lifeGenkey t c data) s fun s' => s'.trust.ik.isSome = true ∧ s'.trust.ikCert = false ∧ s'.trust.life = s.trust.life) ∧
    (s.acceptsLife t 2 c msg → Runs (.lifeSeal t c data) s fun s' => s'.trust.life = 1 ∧ s'.trust.ownerRoot = (lifeMsg msg).root ∧
      s'.trust.sealed_ = (lifeMsg msg).cfg ∧ s'.trust.ik = s.trust.ik ∧ s'.cfg.a = if s.trust.life = 0 then [] else s.cfg.a) ∧
    (s.acceptsLife t 5 c msg → Runs (.lifeUpdate t c data) s fun s' =>
      s'.trust.sealed_ = (lifeMsg msg).cfg ∧ s'.trust.life = s.trust.life ∧ s'.trust.ownerRoot = s.trust.ownerRoot) ∧
    (s.acceptsLife t 3 c msg → Runs (.lifeRelocate t c data) s fun s' => s'.trust.life = 2 ∧ s'.trust.ik = none ∧ s'.trust.ownerRoot = zeros 64 ∧
      s'.trust.sealed_ = zeros 64 ∧ s'.cfg.a = [] ∧ s'.trust.ownerGen = (s.trust.ownerGen + 1) % 256) ∧
    (s.acceptsLife t 4 c msg → Runs (.lifeReturn t c data) s fun s' => s'.fixed.bare ∧ s'.trust.fuseReturned = true)

/-- OBSERVE opens on a serving part in RUN or DOZE without a session; FULL opens with a good signature and holds the hops,
and uses the nonce up either way; closing ends the session. Each clause concludes that exec answers a next state.
Formalises R436, R437, R438, R439. -/
def Obligations.DebugCommandsComplete : Prop :=
  (∀ (t : Nat) (s : State), s.apexRuns = true → s.inRunDoze = true → s.trust.session = 0 →
      Runs (.debugObserveOpen t) s fun s' => s'.trust.session = 1) ∧
    (∀ (t : Nat) (sig : List Byte) (keepAwake : Bool) (s : State), s.apexRuns = true → s.inRunDoze = true → s.trust.session ≠ 2 →
      Runs (.debugFullOpen t sig keepAwake) s fun s' => s'.trust.tapNonce = ((s.at_ t).drawBytes 16).1 ∧
        (if s.fullOk sig keepAwake = true then s'.trust.session = 2 ∧ s'.trust.keepAwake = keepAwake ∧ s'.trust.hopsHeld = true
         else s'.trust.session = s.trust.session)) ∧
    ∀ (t : Nat) (s : State), s.trust.session ≠ 0 → s.trust.sleepHeld = false →
      Runs (.debugClose t) s fun s' => s'.trust.session = 0 ∧ s'.trust.hopsHeld = false

/-- An input in its band becomes valid and one outside it invalid, and the outputs follow; a fault of a running rail is
counted and acts by its class; a faulted load or external rail ramps again after its wait; each hour of RUN the
counters are copied; HOLD_OK is set and cleared by the hold voltage, and reported when it has not come in a minute.
Each clause concludes that exec answers a next state. Formalises R394, R395, R399, R400, R401, R402. -/
def Obligations.SupplyCommandsComplete : Prop :=
  (∀ (t which : Nat) (v : Rat) (s : State), which ≤ 1 → inputRises which v = true → Runs (.inputValid t which v) s fun s' =>
      (s'.power.vauxOk, s'.power.vinOk) = if which = 0 then (true, s.power.vinOk) else (s.power.vauxOk, true)) ∧
    (∀ (t which : Nat) (v : Rat) (s : State), which ≤ 1 → inputFalls which v = true → Runs (.inputInvalid t which v) s fun s' =>
      (s'.power.vauxOk, s'.power.vinOk) = if which = 0 then (false, s.power.vinOk) else (s.power.vauxOk, false)) ∧
    (∀ (t rail kind : Nat) (s : State), 1 ≤ kind → kind ≤ 3 → rail < 13 → s.supervisorsTested = false → (s.rail rail).st = 2 →
      Runs (.railFault t rail kind) s fun s' => s' = (s.at_ t).railFault rail kind) ∧
    (∀ (t : Nat) (s : State), s.supervisorsTested = false → (s.rail 13).st ≠ 0 →
      Runs (.railFault t 13 2) s fun s' => s' = (s.at_ t).railFault 13 2) ∧
    (∀ (t rail : Nat) (s : State), (s.rail rail).st = 4 → s.inRunDoze = true → s.part.serving = true → s.power.warnAt = none →
      ((rail = 6 ∨ rail = 8 ∨ rail = 9) ∧ (s.rail rail).retried = false ∧ (s.rail rail).faultAt + 1000000000 ≤ t) ∨
        (10 ≤ rail ∧ rail ≤ 12 ∧ (s.rail rail).faultAt + s.pwF 8 31 16 * 1000000000 ≤ t) →
      Runs (.railRetry t rail) s fun s' => (s'.rail rail).st = 1 ∧ (s'.rail rail).retried = true) ∧
    (∀ (t : Nat) (s w : State), w = (s.at_ t).accrueTest → s.inRun = true → s.part.serving = true → s.power.warnAt = none →
      s.power.copyRun + 3600000000000 ≤ w.runClock →
      Runs (.railCounterCopy t) s fun s' => s'.power.copies = s.power.rails.map (fun r => (r.uv, r.ov, r.oc, r.tmo)) ∧ s'.power.copyRun = w.runClock) ∧
    (∀ (t mv : Nat) (s : State), s.holdEn = true → s.inRunDoze = true →
      (s.power.holdOk = false → (s.rail 13).st ≠ 0 → s.holdMv ≤ mv + 200 → Runs (.holdCharged t mv) s fun s' =>
        s'.power.holdOk = true ∧ s'.power.holdDone = true ∧ s'.power.vHold = mv ∧ (s'.rail 13).st = 2) ∧
      (s.power.holdOk = true → mv + 500 < s.holdMv → Runs (.holdLow t mv) s fun s' => s'.power.holdOk = false ∧ s'.power.vHold = mv)) ∧
    ∀ (t : Nat) (s : State), s.holdEn = true → s.inRunDoze = true → s.power.holdDone = false → s.power.vsysAt + 60000000000 ≤ t →
      Runs (.holdChargeTimeout t) s fun s' => s'.power.holdDone = true ∧ s'.power.holdReported = true

/-- From OFF with a valid input the part powers up, or returns to SHIP; a rail in regulation lets the sequence go on, turn
round or end; a missed ramp of the sequence turns it round, the third time to SLEEP unless OFF or SHIP is where it
already goes; a retry starts again; a discharged rail lets the down sequence go on; a warning is acted on and its hold
time ends the run, with a swap of that instant torn, towards OFF; the off time ends; without a supply SLEEP and SHIP
end in OFF. Each clause concludes that exec answers a next state. Formalises R399, R406, R407, R408, R409, R410, R411,
R412, R418. -/
def Obligations.PowerSequenceCommandsComplete : Prop :=
  (∀ (t : Nat) (strap : List Nat) (s : State), s.power.st = 4 → s.power.seqDir = 0 → s.inputOk = true → s.power.restartAt = none →
      s.power.retryAt = none → s.power.rstHeld = false → s.part.hubHeld = false → s.part.serving = false →
      Runs (.powerUpSequence t strap) s fun s' => s'.part.strap = readStrap strap ∧
        (if s.power.shipMark = true then s'.power.st = 3 else s'.power.seqDir = 1 ∧ s'.power.startBy = 0)) ∧
    (∀ (t rail bist : Nat) (s w : State), (s.rail rail).st = 1 → rail ≠ 13 → w = (s.at_ t).railUp t rail →
      Runs (.railInRegulation t rail bist) s fun s' =>
        s' = if w.power.seqDir ≠ 1 ∨ w.power.seqRail ≠ rail then w else if w.power.seqTo ≠ 0 then w.turnDown w.power.seqTo
          else if w.nextRail.isSome = true then w.enableNext else w.hubStart bist) ∧
    (∀ (t rail : Nat) (s w : State), (s.rail rail).st = 1 → rail ≠ 13 → w = (s.at_ t).countRail rail 4 →
      (s.power.seqDir ≠ 1 ∨ s.power.seqRail ≠ rail → Runs (.railRampTimeout t rail) s fun s' => s' = w.railAct rail) ∧
      (s.power.seqDir = 1 → s.power.seqRail = rail → s.power.attempts < 2 → Runs (.railRampTimeout t rail) s fun s' =>
        s' = (w.modPower fun p => { p with attempts := s.power.attempts + 1 }).turnDown 1) ∧
      (s.power.seqDir = 1 → s.power.seqRail = rail → 2 ≤ s.power.attempts → Runs (.railRampTimeout t rail) s fun s' =>
        s' = (w.modPower fun p => { p with attempts := 0, st := (if s.power.seqTo ≤ 2 then 2 else s.power.st),
                                           lastSt := (if s.power.seqTo ≤ 2 then 2 else s.power.lastSt), sleepAt := t }).turnDown 2)) ∧
    (∀ (t a : Nat) (s : State), s.power.retryAt = some a → a ≤ t → s.power.rstHeld = false → s.inputOk = true → s.power.seqDir = 0 →
      Runs (.powerUpRetry t) s fun s' => s'.power.seqDir = 1 ∧ s'.power.retryAt = none) ∧
    (∀ (t rail : Nat) (timedOut : Bool) (s : State), (s.rail rail).st = 3 → Runs (.railDischarged t rail timedOut) s fun s' =>
      ∃ u : State, (u.rail rail).st = 0 ∧ s' = if s.power.seqDir = 2 ∧ s.power.seqRail = rail then u.downStep else u) ∧
    (∀ (t item : Nat) (s : State), s.inRunDoze = true → s.part.serving = true → s.power.warnAt = none → s.power.warnItem = some item →
      Runs (.powerFailWarning t item) s fun s' => s' = (s.at_ t).warn item) ∧
    (∀ (t a : Nat) (s : State), s.power.warnAt = some a → a + s.power.holdEff * 1000000 ≤ t → s.part.serving = true →
      Runs (.holdTimeExpire t) s fun s' => s' = ((({ s.at_ t with cfg := s.cfg.tear t }).hubStop false).diesCutOff).startDown 4) ∧
    (∀ (t a : Nat) (s : State), s.power.restartAt = some a → a ≤ t → s.inputOk = true →
      Runs (.shutdownRestart t) s fun s' => s'.power.restartAt = none) ∧
    ∀ (t : Nat) (s : State), s.power.st = 2 ∨ s.power.st = 3 → s.inputOk = false → Runs (.aonSupplyLoss t) s fun s' =>
      s'.power.st = 4 ∧ s'.power.rails = s.power.rails.map (fun r => { r with st := 0 }) ∧ s'.power.warnAt = s.power.warnAt

/-- In RUN with DOZE as the target the part enters DOZE after its idle time, and counts from anew while a condition fails;
DOZE ends when a condition is broken or the target is gone; a wake source that may act starts the power-up; a sleeping
port opens its window each 100 ms; a wake run and a long beacon wake the part and go on to the next. Each clause
concludes that exec answers a next state. Formalises R279, R414, R416. -/
def Obligations.LowPowerCommandsComplete : Prop :=
  (∀ (t : Nat) (s : State), s.inRun = true → s.part.serving = true → s.power.warnItem = none → s.dozeTarget = true →
      ((s.at_ t).dozeMay = false → Runs (.dozeEnter t) s fun s' => s' = (s.at_ t).modPower fun p => { p with idleSince := t }) ∧
      ((s.at_ t).dozeMay = true → s.power.idleSince + s.pwF 0 31 24 * 1000000 ≤ t → Runs (.dozeEnter t) s fun s' => s'.power.st = 1)) ∧
    (∀ (t : Nat) (s : State), s.power.st = 1 → s.part.serving = true → (s.at_ t).dozeMay = false ∨ s.dozeTarget = false →
      Runs (.dozeExit t) s fun s' => s'.power.st = 0) ∧
    (∀ (t code : Nat) (s : State), s.trust.sleepHeld = false → s.mayWake code = true →
      (code = 0xA → (s.at_ t).sleepTimerDone = true) → Runs (.wakeSource t code) s fun s' =>
      s'.power.lastWake = code ∧ s'.power.shipMark = false ∧
        (if s.power.seqDir = 2 then s'.power.wakePend = true ∧ s'.power.seqDir = 2 else s'.power.seqDir = 1)) ∧
    (∀ (t : Nat) (s : State), s.power.st = 2 → s.power.sleepAt + s.pwF 0xC 31 16 * 1000000000 ≤ t →
      Runs (.sleepTimerExpire t) s fun s' => s' = (s.at_ t).wake 0xA) ∧
    (∀ (t : Nat) (side : Side) (s : State), s.power.st = 2 → (s.port side).listens = true → (s.port side).listenAt + 100000000 ≤ t →
      Runs (.sleepListenWindow t side) s fun s' => s'.port side = { s.port side with listenAt := t }) ∧
    (∀ (t : Nat) (side : Side) (durationNs : Nat) (s : State), s.power.st = 2 → (s.port side).listens = true → 101000000 ≤ durationNs →
      s.mayWake 2 = true → Runs (.wakeRunReceive t side durationNs) s fun s' => s' = ((s.at_ t).wake 2).emit (.wakeRun side.other)) ∧
    ∀ (t : Nat) (side : Side) (bits : List Bool) (s : State), isLongBeacon bits = true → s.mayWake 3 = true →
      Runs (.longBeaconDetect t side bits) s fun s' => s' = if s.power.st = 3 then
        { ((s.at_ t).wake 3) with link := { ((s.at_ t).wake 3).link with relay := some side.other } } else (s.at_ t).wake 3

/-- A low of RST_N that is not ignored holds the part in reset and takes a serving hub down; its release or thirty seconds
end the reset, the latter ignoring the pad until it has read high; a die without symbols for a minute switches PREC
off; a die that starts has PREC on and only protects after a failed test; a hub held in reset by a failed test is
tested once more; a completion is written where its queue has room. Each clause concludes that exec answers a next
state. Formalises R25, R203, R404, R405, R409, R419, R420, R466, R468. -/
def Obligations.ResetCommandsComplete : Prop :=
  (∀ (t : Nat) (s : State), s.power.rstIgnored = false → s.power.rstHeld = false →
      (Runs (.rstNAssert t) s fun s' => s'.power.rstHeld = true ∧ s'.power.rstAt = t) ∧
      (s.warned = false → s.part.serving = true → Runs (.rstNAssert t) s fun s' => s'.part.serving = false)) ∧
    (∀ (t : Nat) (strap : List Nat) (s : State), s.power.rstHeld = true →
      (Runs (.rstNRelease t strap) s fun s' => s' = (s.at_ t).endReset 1 strap ∧ s'.power.rstHeld = false) ∧
      (s.power.rstAt + 30000000000 ≤ t → Runs (.rstNStuck t strap) s fun s' => s'.power.rstIgnored = true ∧ s'.power.rstHeld = false)) ∧
    (∀ (t : Nat) (s : State), Runs (.rstIgnoredClear t) s fun s' => s' = (s.at_ t).modPower fun p => { p with rstIgnored := false }) ∧
    (∀ (t k : Nat) (d : Die) (s : State), s.hasDie k d →
      (d.precOn = true → d.lastWord + 60000000000 ≤ t → s.cutOff k = true ∨ s.part.serving = false ∨ s.part.hubHeld = true →
        Runs (.dieIsolationTimeout t k) s fun s' => s'.dieShows k (fun y => (y.precOn, y.dspOn, y.t0)) (false, false, [])) ∧
      ∀ bist : DieTests, d.precOn = false → d.prot.aonOn = true → d.hot = false → s.hubTakes k = true → s.inRunDoze = true →
        Runs (.precPowerUp t k bist) s fun s' => s'.dieShows k (fun y => (y.precOn, y.dspOn, y.prot.protOnly)) (true, true, !(bistOf bist.bist).pass)) ∧
    (∀ (t : Nat) (pass : Bool) (x : SelfTest) (s : State), s.selfTest[0]? = some x → s.part.hubHeld = true → x.retried = false → s.bistFailed ≠ [] →
      x.lbistAt + 1000000000 ≤ t → Runs (.hubBistRetry t pass) s fun s' =>
        s' = ((s.at_ t).modTest 0 fun y => { y with retried := true }).hubTest (if pass = true then 0 else 1) ∧ (pass = false → s'.part.hubHeld = true)) ∧
    ∀ (t cq : Nat) (w : ComplWait) (s : State), s.hif.cqWait.find? (fun x => x.cq == cq) = some w → s.hifServes = true →
      (s.hif.cqOf cq).serves = true → (s.hif.cqOf cq).full = false →
      (Runs (.completionWrite t cq true) s fun s' => s' = ((((s.at_ t).writeCompletion cq w).checkDrain).modPower fun p => { p with idleSince := t }).tryEnter) ∧
      Runs (.completionWrite t cq false) s fun s' =>
        s' = ((s.at_ t).putCq cq { s.hif.cqOf cq with err := 2, active := false }).queueError 2 cq 2

/-- The invariant: if lock-out is latched, none of the three contactor outputs is on. Every command of the block, from
every state that meets it, keeps it: a command that latches lock-out switches the outputs off, and none switches one
on while it is latched. Formalises R365, R375, R376. -/
def Obligations.LatchedLockoutKeepsOutputsOff : Prop :=
  ∀ s s' : State, s.lockedOff → step s = .next s' → s'.lockedOff

/-- A step of any other command than the 60 named ones (the commands of the safety logic; the reception of a command
frame; those that latch lock-out or end a commit that held the outputs; those that start, stop or restart the hub or a
die, and those that take the supply away in a swap) leaves every field of the safety block as it was: inputs, outputs,
lock-out, watchdogs, host state and counters. Formalises R365, R368, R375, R384, R385. -/
def Obligations.OnlyNamedCommandsChangeTheSafetyBlock : Prop :=
  ∀ (s : State) (c : Instr) (rest : List Instr), s.pending = c :: rest → ∃ s', step s = .next s' ∧
    match c with
    | .comparatorTick _ _ _ | .aoncPowerDown _ _ | .faultNoticeReceive _ _ _ _ | .tdacReadback _ _ _ _ | .owRecheck _ _ _ _ _
    | .innerLinkRestored _ _ | .dieLost _ _ | .safetyTick _ _ | .safetyInputSample _ _ _ _ | .testPulseStart _ _
    | .discrepancyLatch _ _ | .safetyFrameReceive _ _ | .safetyMboxService _ _ | .hostWatchdogExpire _ | .watchdogExpire _ _
    | .outputOvercurrent _ _ | .outputOpenLoad _ _ | .outputEconomyStart _ _ _ | .feedbackTimeout _ _ | .lorstReleaseEdge _
    | .commandFrameReceive _ _ | .lorstHeld _ | .gatewayHeartbeatReceive _ _ | .gwOkTimeout _ | .enumStartReceive _ _ | .discoverReceive _ _ _ | .heartbeatSend _
    | .powerStateSleep _ _ | .powerStateShip _ _ | .lockoutRelease _ _ | .commitCheck _ | .commitCancel _ _ | .configSwap _
    | .groupCommitDecide _ | .groupAbortReceive _ | .groupGoDeadline _ | .enumerate _ _ | .inputValid _ _ _ | .inputInvalid _ _ _
    | .railInRegulation _ _ _ | .powerFailWarning _ _ | .holdTimeExpire _ | .rstNAssert _ | .precPowerUp _ _ _ | .hubBistRetry _ _
    | .completionWrite _ _ _ | .sliceEnd _ _ _ _ | .selftestRunAll _ _ _ | .selftestRunBlock _ _ _ | .hubOverheat _ | .hubCooled _ _
    | .lifeSeal _ _ _ | .lifeRelocate _ _ _ | .lifeReturn _ _ _ | .debugFullOpen _ _ _ | .debugClose _ | .railFault _ _ _
    | .railRampTimeout _ _ | .railDischarged _ _ _ | .aonSupplyLoss _ => True
    | _ => s'.safe = s.safe

/-- A step of any other command than the 40 named ones (the commands of the single-wire ports, of the check units and of
the thermal governor; the reception of a command frame; those that use a check unit; the swap; those that start or
stop the hub) leaves the two ports, the check units of the hub and of every die, and the governor as they were.
Formalises R233, R242, R470, R471, R482, R483. -/
def Obligations.OnlyNamedCommandsChangePortsChecksAndGovernor : Prop :=
  ∀ (s : State) (c : Instr) (rest : List Instr), s.pending = c :: rest → ∃ s', step s = .next s' ∧
    match c with
    | .searchAll _ _ | .searchNewPeriodic _ _ | .swpSearchComplete _ _ _ _ | .swpStreamCycle _ _ | .swpSlotRead _ _ _ _
    | .swpCycleEnd _ _ | .swpLineShort _ _ | .swpShortRetry _ _ | .powerStateSleep _ _ | .powerStateShip _ _ | .sensorSearch _ _
    | .configSwap _ | .railFault _ _ _ | .railInRegulation _ _ _ | .railRampTimeout _ _ | .powerFailWarning _ _ | .holdTimeExpire _
    | .rstNAssert _ | .precPowerUp _ _ _ | .hubBistRetry _ _ | .completionWrite _ _ _ | .sliceEnd _ _ _ _ | .chkOpen _ _ _
    | .chkDataWrite _ _ _ _ | .chkClose _ _ _ | .checkCompute _ _ _ | .thermalSample _ _ | .thermalStepDown _ | .hubOverheat _
    | .hubCooled _ _ | .meterCommit _ | .firmwareActivate _ _ _ | .firmwareReturnPrevious _ _ _ | .spanReady _ | .lifeSeal _ _ _
    | .lifeRelocate _ _ _ | .lifeReturn _ _ _ | .debugClose _ | .commandFrameReceive _ _ | .spanReadyTimeout _ => True
    | _ => s'.swp = s.swp ∧ s'.chk = s.chk ∧ s'.therm = s.therm

/-- Each of the 34 commands named first answers a next state, and leaves unchanged every die, the configuration sets, the
instants and captures of the hub, the single-wire ports, the safety block, the power block, Apex but for the black-box
records that wait, the self-tests, the check units, the governor, and all of the part's own state but its event
number. Time becomes the instant of the command, and at a gateway never goes back. The four that may bring a hop or an
event with effects elsewhere answer a next state too, and leave the single-wire ports, the safety block, the check
units and the governor unchanged. Formalises R251, R262, R271, R294, R303, R326, R341, R414. -/
def Obligations.LinkLocusAndQueueFrame : Prop :=
  ∀ (c : Instr) (s : State),
    match c with
    | .discoverSend t | .frameForward t _ _ | .mseqGapRelease t _ _ _ | .linkStateNoticeReceive t _
    | .codewordBoundary t _ | .controlCodewordReceive t _ _ | .tc0AckTimeout t _ | .frameRetryTimeout t _ _ | .hopSilenceTimeout t _
    | .hopMarginTimeout t _ | .hopRouteRestore t _ | .apcAdjust t _ _
    | .hopRekey t _ | .timeBeaconSend t | .tqHoldover t | .packTimeCommit t | .doorbellPoll t | .doorbellReadComplete t _
    | .streamEntryWrite t _ _ | .eventEntryWrite t _ | .interruptCoalesceExpire t _ _ | .msixUnmask t _ | .eventDelayReport t
    | .unitProgramComplete t _ _ | .d2UnitClose t | .bucketAccrue t | .storageTempSample t _
    | .blockRefresh t _ _ | .storageDieFail t | .spillHolderRechoose t _ | .recordRetentionExpire t | .recordFrameReceive t _
    | .sleepListenWindow t _ | .meterSnapshot t => Runs c s fun s' => s'.kept = { s.kept with now := s.clock t }
    | .enumFrameReceive _ _ | .hopTrainingComplete _ _ _ _ | .hopKeyingMessage _ _ _ | .eventFrameReceive _ _ =>
      Runs c s fun s' => s'.swp = s.swp ∧ s'.safe = s.safe ∧ s'.chk = s.chk ∧ s'.therm = s.therm
    | _ => True

/-- Each of these 24 commands answers a next state. The safety commands leave unchanged every die, the configuration sets,
the instants and captures, the single-wire ports, the power block, the check units and the governor. The single-wire
commands leave unchanged every die, the instants and captures, the safety block, the power block, the self-tests, the
check units and the governor. Formalises R233, R234, R242, R244, R367, R368, R369, R372, R374, R378, R382, R385. -/
def Obligations.SafetyAndSingleWireFrame : Prop :=
  ∀ (c : Instr) (s : State),
    match c with
    | .testPulseStart _ _ | .safetyInputSample _ _ _ _ | .discrepancyLatch _ _ | .safetyFrameReceive _ _ | .safetyMboxService _ _
    | .hostWatchdogExpire _ | .watchdogExpire _ _ | .outputOvercurrent _ _ | .outputOpenLoad _ _ | .outputEconomyStart _ _ _
    | .feedbackTimeout _ _ | .lorstReleaseEdge _ | .lorstHeld _ | .gatewayHeartbeatReceive _ _ | .gwOkTimeout _ | .heartbeatSend _ =>
      Runs c s fun s' => s'.dies = s.dies ∧ s'.cfg = s.cfg ∧ s'.sync = s.sync ∧ s'.swp = s.swp ∧ s'.power = s.power ∧ s'.chk = s.chk ∧ s'.therm = s.therm
    | .searchAll _ _ | .searchNewPeriodic _ _ | .swpSearchComplete _ _ _ _ | .swpStreamCycle _ _ | .swpSlotRead _ _ _ _
    | .swpCycleEnd _ _ | .swpLineShort _ _ | .swpShortRetry _ _ =>
      Runs c s fun s' => s'.dies = s.dies ∧ s'.sync = s.sync ∧ s'.safe = s.safe ∧ s'.power = s.power ∧ s'.selfTest = s.selfTest ∧ s'.chk = s.chk ∧ s'.therm = s.therm
    | _ => True

/-- Each of these 13 commands answers a next state, and leaves unchanged everything but the time and the dies, and every
die but the one that it names; a dwell step and a gate window that opens also take the precision fields of a swap
whose boundary has passed into the fields in force. At a gateway time never goes back. Formalises R30, R34, R62, R129,
R213, R218, R220, R223, R224, R468. -/
def Obligations.DieCommandsFrame : Prop :=
  ∀ (c : Instr) (s : State),
    match c with
    | .warmExpire t k | .refMonitorSample t k _ | .gateWindowClose t k
    | .calRunClose t k | .owSweep t k | .owCheckComplete t k _ _ | .shuntInputBreak t k _ | .balNeedCheck t k
    | .balanceRecordInterval t k | .dieCooled t k | .innerTimeWordTimeout t k =>
      Runs c s fun s' => s' = { s with now := s.clock t, dies := s'.dies } ∧ s'.dies.length = s.dies.length ∧ ∀ j, j ≠ k → s'.die? j = s.die? j
    | .gateWindowOpen t k | .spareDwellStep t k _ _ =>
      Runs c s fun s' => s' = { s with now := s.clock t, dies := s'.dies, cfg := { s.cfg with f := s'.cfg.f } } ∧ s'.dies.length = s.dies.length ∧
        ∀ j, j ≠ k → s'.die? j = s.die? j
    | _ => True

/-- Whatever the state, a SHADOW_WRITE leaves A and F alone, keeps B canonical, and changes no byte of B outside the range
that its descriptor names; served in range, with no commit pending and no copy in progress, it leaves there exactly
what its buffer holds, and the bytes read back. Formalises R353, R355, R356, R358. -/
def Obligations.ShadowWriteFrame : Prop :=
  ∀ (t lo : Nat) (c : Cmd) (data : List Byte) (s : State), lo = cfgAddr (rd c.param 1 1) c.target (rd c.param 4 4) →
    (Runs (.shadowWrite t c data) s fun s' =>
      s'.cfg.a = s.cfg.a ∧ s'.cfg.f = s.cfg.f ∧ s'.cfg.epoch = s.cfg.epoch ∧ s'.cfg.pend = s.cfg.pend ∧
        (cellWf s.cfg.b = true → cellWf s'.cfg.b = true) ∧ ∀ x : Nat, x < lo ∨ lo + c.bufLen ≤ x → cellGet s'.cfg.b x = cellGet s.cfg.b x) ∧
    (s.serves 0x04 c → cfgRangeOk (rd c.param 1 1) c.target (rd c.param 4 4) c.bufLen = true → s.cfg.pend = none → s.cfg.copying = false →
      Runs (.shadowWrite t c data) s fun s' => cellRead s'.cfg.b lo c.bufLen = slice (s.inData c data) 0 c.bufLen)

/-- Of each of the 39 commands that execute a descriptor: a part in RUN that executes commands, and for which the
descriptor is and has come, but which refuses it (not permitted in its lifecycle state or session, a byte of PARAM
that must be 0, TARGET, length or a die that is gone), completes it with that status and RESULT 0, a CHECK_COMPUTE
once no message of its unit is open; but for the completion only the time, the instant of the last activity and the
mark that the command has run change. Formalises R331, R348, R349, R350, R351. -/
def Obligations.RefusedCommandsOnlyComplete : Prop :=
  ∀ (i : Instr) (s : State) (st : Status),
    let refusedAs := fun (t code : Nat) (c : Cmd) (mine : Bool) =>
      s.executes = true → s.isMine code c = true → s.present c = true → mine = true → s.power.st = 0 → s.refusal code c = some st →
        Runs i s fun s' => s' = (s.served t c).complete c st 0
    match i with
    | .identify t c => refusedAs t 0x01 c true
    | .enumerate t c => refusedAs t 0x02 c true
    | .configRead t c => refusedAs t 0x03 c true
    | .shadowWrite t c _ => refusedAs t 0x04 c true
    | .commit t c => refusedAs t 0x05 c (rd c.param 0 1 != 1 && rd c.param 0 1 != 2)
    | .commitCancel t c => refusedAs t 0x05 c (rd c.param 0 1 == 2)
    | .commitRevert t c => refusedAs t 0x05 c (rd c.param 0 1 == 1)
    | .streamOpen t c => refusedAs t 0x06 c true
    | .streamClose t c => refusedAs t 0x07 c true
    | .recordRead t c => refusedAs t 0x08 c true
    | .captureArm t c => refusedAs t 0x09 c (rd c.param 0 1 != 1)
    | .captureDisarm t c => refusedAs t 0x09 c (rd c.param 0 1 == 1)
    | .captureFetch t c _ => refusedAs t 0x0A c true
    | .storeRead t c _ => refusedAs t 0x0B c true
    | .balancePolicy t c => refusedAs t 0x0C c true
    | .powerStateDoze t c => refusedAs t 0x0D c (rd c.param 0 1 == 1)
    | .powerStateRun t c => refusedAs t 0x0D c (rd c.param 0 1 == 0 || decide (4 ≤ rd c.param 0 1))
    | .powerStateShip t c => refusedAs t 0x0D c (rd c.param 0 1 == 3)
    | .powerStateSleep t c => refusedAs t 0x0D c (rd c.param 0 1 == 2)
    | .calEarlyEnd t c => refusedAs t 0x0E c (rd c.param 0 1 == 2)
    | .calReset t c => refusedAs t 0x0E c (rd c.param 0 1 == 3)
    | .selftestRunAll t c _ => refusedAs t 0x0E c (rd c.param 0 1 == 0 || decide (4 ≤ rd c.param 0 1))
    | .selftestRunBlock t c _ => refusedAs t 0x0E c (rd c.param 0 1 == 1)
    | .checkCompute t c _ => refusedAs t 0x0F c (!(s.at_ t).chkBusy c)
    | .meterStatement t c => refusedAs t 0x10 c true
    | .trustChallenge t c => refusedAs t 0x11 c true
    | .firmwareStage t c _ => refusedAs t 0x12 c true
    | .firmwareActivate t c _ => refusedAs t 0x13 c (rd c.param 1 1 == 1)
    | .firmwareReturnPrevious t c _ => refusedAs t 0x13 c (rd c.param 1 1 == 2)
    | .firmwareVerify t c => refusedAs t 0x13 c (rd c.param 1 1 != 1 && rd c.param 1 1 != 2)
    | .sensorSearch t c => refusedAs t 0x14 c true
    | .blackboxRead t c => refusedAs t 0x15 c true
    | .lockoutRelease t c => refusedAs t 0x16 c true
    | .lifeGenkey t c data => refusedAs t 0x17 c (rd (s.inData c data) 0 1 == 1 || rd (s.inData c data) 0 1 == 0 || decide (5 < rd (s.inData c data) 0 1))
    | .lifeRelocate t c data => refusedAs t 0x17 c (rd (s.inData c data) 0 1 == 3)
    | .lifeReturn t c data => refusedAs t 0x17 c (rd (s.inData c data) 0 1 == 4)
    | .lifeSeal t c data => refusedAs t 0x17 c (rd (s.inData c data) 0 1 == 2)
    | .lifeUpdate t c data => refusedAs t 0x17 c (rd (s.inData c data) 0 1 == 5)
    | .ping t c => refusedAs t 0x18 c true
    | _ => True

/-- For every die of every state: the gate period in force is, in milliseconds, the larger of GATE_PERIOD and the least
whole n for which the window is at most 6 % of n; so the window, which is GATE_GUARD and one impulse of the filter, is
at most 6 % of the period in force. Formalises R63. -/
def Obligations.GatePeriodBoundsDuty : Prop :=
  ∀ (s : State) (k window : Nat), window = s.fF 0x01 k 0 15 8 * 50000 + impulseLen (s.rateOf k) (s.filtOf k) →
    100 * window ≤ 6 * s.gatePeriodNs k ∧
    ∃ n : Nat, s.gatePeriodNs k = max (s.fF 0x01 k 0 31 16) n * 1000000 ∧ 100 * window ≤ 6 * (n * 1000000) ∧
      ∀ m : Nat, 100 * window ≤ 6 * (m * 1000000) → n ≤ m

/-- With B holding an enabled port whose SWP_CYCLE lies outside 120 to 10,000, or bit 3 of SWP_CTRL1 or SWP_CTRL2 set
whether the port is enabled or not, the check ends the pending commit with CONFIG_INVALID and keeps A. A canonical map
in which neither is so, and which lists nothing in the block beyond its two registers, has no offence in the block,
whatever SWP_SEARCH is, 0 included. Formalises R247. -/
def Obligations.PortFieldsOutOfRangeRejectTheCommit : Prop :=
  (∀ (s : State) (t off w : Nat), off = 0 ∨ off = 4 → w = cellWord s.cfg.b 0x11 0 off →
    (bit w 0 = true ∧ (bits w 31 16 < 120 ∨ 10000 < bits w 31 16)) ∨ bit w 3 = true → s.rejectsCommit t) ∧
  ∀ m : List Host.Cell, cellWf m = true → (∀ c ∈ m, blockLo 0x11 0 ≤ c.1 → c.1 < blockHi 0x11 0 → c.1 < blockLo 0x11 0 + 8) →
    (∀ off w : Nat, off = 0 ∨ off = 4 → w = cellWord m 0x11 0 off →
      bit w 3 = false ∧ (bit w 0 = true → 120 ≤ bits w 31 16 ∧ bits w 31 16 ≤ 10000)) → checkPorts m = []

/-- With B holding MIG_LOAD outside 50 to 95, MIG_RET_LOAD outside 10 to 90 or not below MIG_LOAD, MIG_DWELL below 10,
RET_D1 or RET_D2 above 5,475, SPILL_QUOTA above 64, or a bit that R316 describes as write 0, read 0, the check ends
the pending commit with CONFIG_INVALID and keeps A. Formalises R317. -/
def Obligations.LocusFieldsOutOfRangeRejectTheCommit : Prop :=
  ∀ (s : State) (t ctrl ret ret3 prio : Nat), ctrl = cellWord s.cfg.b 0x13 0 0 → ret = cellWord s.cfg.b 0x13 0 4 →
    ret3 = cellWord s.cfg.b 0x13 0 8 → prio = cellWord s.cfg.b 0x13 0 0x00C →
    (bits ctrl 31 24 < 50 ∨ 95 < bits ctrl 31 24) ∨ (bits ctrl 23 16 < 10 ∨ 90 < bits ctrl 23 16) ∨ bits ctrl 15 8 < 10 ∨
      bits ctrl 31 24 ≤ bits ctrl 23 16 ∨ 5475 < bits ret 31 16 ∨ 5475 < bits ret 15 0 ∨ 64 < bits ret3 31 16 ∨
      bits ctrl 7 5 ≠ 0 ∨ bit ctrl 0 = true ∨ bits prio 31 6 ≠ 0 → s.rejectsCommit t

/-- With B holding SRC_PRIO of 0b10 or 0b11, DOZE_IDLE of 0, HOLD_MS outside 1 to 50, HOLD_V outside 27 to 50, HOLD_I
outside 1 to 25, EXT_RETRY outside 1 to 600, SWP_EN of either port without VEXT1_EN, or a bit that R421 describes as
write 0, read 0, the check ends the pending commit with CONFIG_INVALID and keeps A. Formalises R422. -/
def Obligations.PowerFieldsOutOfRangeRejectTheCommit : Prop :=
  ∀ (s : State) (t ctrl hold ext wake : Nat), ctrl = cellWord s.cfg.b 0x15 0 0 → hold = cellWord s.cfg.b 0x15 0 4 →
    ext = cellWord s.cfg.b 0x15 0 8 → wake = cellWord s.cfg.b 0x15 0 0x00C →
    2 ≤ bits ctrl 9 8 ∨ bits ctrl 31 24 = 0 ∨ (bits ctrl 23 16 < 1 ∨ 50 < bits ctrl 23 16) ∨ (bits hold 15 8 < 27 ∨ 50 < bits hold 15 8) ∨
      (bits hold 7 0 < 1 ∨ 25 < bits hold 7 0) ∨ (bits ext 31 16 < 1 ∨ 600 < bits ext 31 16) ∨
      ((bit (cellWord s.cfg.b 0x11 0 0) 0 = true ∨ bit (cellWord s.cfg.b 0x11 0 4) 0 = true) ∧ bit ext 0 = false) ∨
      bits ctrl 15 12 ≠ 0 ∨ bits ctrl 7 0 ≠ 0 ∨ bits hold 31 16 ≠ 0 ∨ bits ext 15 3 ≠ 0 ∨ bits wake 15 2 ≠ 0 → s.rejectsCommit t
end

