-- ==== Sys2Proof/Laws/AuxKept.lean ====
section
/-! SUPPORT. Operations that leave the single-wire ports, the check units and the thermal governor alone. -/

namespace Sys2Proof.Machine

set_option linter.all false
set_option maxRecDepth 4000

/-- The single-wire ports, the check units and the thermal governor of a state. -/
def State.aux (s : State) : List SwpPort × List ChkUnit × ThermState := (s.swp, s.chk, s.therm)

theorem auxEq_mk (now part dies cfg locus hif link sync swp safe power trust selfTest chk therm out freeCtr pending) :
    (State.mk now part dies cfg locus hif link sync swp safe power trust selfTest chk therm out freeCtr pending).aux = (swp, chk, therm) := rfl

theorem auxEq_parts (s : State) : s.swp = s.aux.1 ∧ s.chk = s.aux.2.1 ∧ s.therm = s.aux.2.2 := ⟨rfl, rfl, rfl⟩

theorem auxEq_ite {c : Prop} {_ : Decidable c} {a b : State} {x : List SwpPort × List ChkUnit × ThermState} (ha : a.aux = x) (hb : b.aux = x) :
    (if c then a else b).aux = x := by split <;> assumption

theorem foldl_auxEq {α : Type} {f : State → α → State} (h : ∀ s a, (f s a).aux = s.aux) (l : List α) (s : State) :
    (l.foldl f s).aux = s.aux := by
  induction l generalizing s with
  | nil => rfl
  | cons a l ih => exact (ih _).trans (h _ _)

theorem foldl_auxEq_snd {α β : Type} {f : β × State → α → β × State} (h : ∀ s a, (f s a).2.aux = s.2.aux) (l : List α)
    (s : β × State) : (l.foldl f s).2.aux = s.2.aux := by
  induction l generalizing s with
  | nil => rfl
  | cons a l ih => exact (ih _).trans (h _ _)

theorem foldl_auxEq_fst {α β : Type} {f : State × β → α → State × β} (h : ∀ s a, (f s a).1.aux = s.1.aux) (l : List α)
    (s : State × β) : (l.foldl f s).1.aux = s.1.aux := by
  induction l generalizing s with
  | nil => rfl
  | cons a l ih => exact (ih _).trans (h _ _)

theorem onDie_auxEq {s : State} {k : Nat} {f : Die → State} {x : List SwpPort × List ChkUnit × ThermState} (h : ∀ d, (f d).aux = x) (hs : s.aux = x) :
    (s.onDie k f).aux = x := by
  unfold State.onDie
  split
  · split
    · exact h _
    · exact hs
  · exact hs

theorem State.modDie_auxEq (s : State) (k : Nat) (f : Die → Die) : (State.modDie s k f).aux = s.aux := by
  unfold State.modDie
  split <;> simp only [auxEq_mk, auxEq_parts]

theorem State.modDies_auxEq (s : State) (f : Nat → Die → Die) : (State.modDies s f).aux = s.aux := by
  unfold State.modDies
  repeat' first
    | with_reducible rfl
    | with_reducible apply auxEq_ite
    | with_reducible refine (foldl_auxEq (fun _ _ => ?_) _ _).trans ?_
    | (simp only [↓State.modDie_auxEq, auxEq_mk]; done)
    | split
    | simp only [↓State.modDie_auxEq, auxEq_mk, auxEq_parts]

theorem State.takeBlock_auxEq (s : State) (block target : Nat) : (State.takeBlock s block target).aux = s.aux := rfl

theorem State.takeRange_auxEq (s : State) (block target lo hi : Nat) : (State.takeRange s block target lo hi).aux = s.aux := rfl

theorem State.drawBits_auxEq (s : State) (w : Nat) : (State.drawBits s w).2.aux = s.aux := rfl

theorem State.drawRat_auxEq (s : State) : (State.drawRat s).2.aux = s.aux := rfl

theorem State.drawBytes_auxEq (s : State) (n : Nat) : (State.drawBytes s n).2.aux = s.aux := by
  unfold State.drawBytes
  simp only [↓State.drawBits_auxEq, auxEq_mk, auxEq_parts]

theorem State.drawRats_auxEq (s : State) (n : Nat) : (s.drawRats n).2.aux = s.aux := by
  induction n generalizing s with
  | zero => rfl
  | succ n ih => exact (ih _).trans rfl

theorem State.modPort_auxEq (s : State) (side : Side) (f : Port → Port) : (State.modPort s side f).aux = s.aux := by
  unfold State.modPort
  split <;> simp only [auxEq_mk, auxEq_parts]

theorem State.emit_auxEq (s : State) (o : Out) : (State.emit s o).aux = s.aux := rfl

theorem State.noteHolder_auxEq (s : State) : (State.noteHolder s).aux = s.aux := by
  unfold State.noteHolder
  split <;> simp only [auxEq_mk, auxEq_parts]

theorem State.holderAnew_auxEq (s : State) : (State.holderAnew s).aux = s.aux := rfl

theorem State.enqueue_auxEq (s : State) (side : Side) (f : Frame) : (State.enqueue s side f).aux = s.aux := by
  unfold State.enqueue
  simp only [↓State.modPort_auxEq, auxEq_mk, auxEq_parts]

theorem State.countNoRoute_auxEq (s : State) : (State.countNoRoute s).aux = s.aux := rfl

theorem State.forwardBy_auxEq (s : State) (side : Side) (f : Frame) : (State.forwardBy s side f).aux = s.aux := by
  unfold State.forwardBy
  simp only [↓State.enqueue_auxEq, auxEq_mk, auxEq_parts]

theorem State.egress_auxEq (s : State) (side : Side) (f : Frame) : (State.egress s side f).aux = s.aux := by
  unfold State.egress
  repeat' first
    | with_reducible rfl
    | with_reducible apply auxEq_ite
    | (simp only [↓State.countNoRoute_auxEq, ↓State.forwardBy_auxEq, auxEq_mk]; done)
    | split
    | simp only [↓State.countNoRoute_auxEq, ↓State.forwardBy_auxEq, auxEq_mk, auxEq_parts]

theorem State.dispatchFrame_auxEq (s : State) (dest : Nat) (f : Frame) : (State.dispatchFrame s dest f).aux = s.aux := by
  unfold State.dispatchFrame
  repeat' first
    | with_reducible rfl
    | with_reducible apply auxEq_ite
    | (simp only [↓State.enqueue_auxEq, ↓State.egress_auxEq, ↓State.forwardBy_auxEq, auxEq_mk]; done)
    | split
    | simp only [↓State.enqueue_auxEq, ↓State.egress_auxEq, ↓State.forwardBy_auxEq, auxEq_mk, auxEq_parts]

theorem State.originate_auxEq (s : State) (tc kind dest : Nat) (payload : List Byte) : (State.originate s tc kind dest payload).aux = s.aux := by
  unfold State.originate
  repeat' first
    | with_reducible rfl
    | with_reducible apply auxEq_ite
    | with_reducible refine (foldl_auxEq (fun _ _ => ?_) _ _).trans ?_
    | (simp only [↓State.dispatchFrame_auxEq, auxEq_mk]; done)
    | split
    | simp only [↓State.dispatchFrame_auxEq, auxEq_mk, auxEq_parts]

theorem State.flushUnrouted_auxEq (s : State) : (State.flushUnrouted s).aux = s.aux := by
  unfold State.flushUnrouted
  repeat' first
    | with_reducible rfl
    | with_reducible apply auxEq_ite
    | with_reducible refine (foldl_auxEq (fun _ _ => ?_) _ _).trans ?_
    | (simp only [↓State.originate_auxEq, auxEq_mk]; done)
    | split
    | simp only [↓State.originate_auxEq, auxEq_mk, auxEq_parts]

theorem State.noteForward_auxEq (s : State) (side : Side) (f : Frame) : (State.noteForward s side f).aux = s.aux := by
  unfold State.noteForward
  split <;> simp only [auxEq_mk, auxEq_parts]

theorem State.accept_auxEq (s : State) (f : Frame) : (State.accept s f).2.aux = s.aux := by
  unfold State.accept
  repeat' first
    | with_reducible rfl
    | with_reducible apply auxEq_ite
    | (simp only [auxEq_mk]; done)
    | split
    | simp only [auxEq_mk, auxEq_parts]

theorem State.assemble_auxEq (s : State) (f : Frame) : (State.assemble s f).2.aux = s.aux := by
  unfold State.assemble
  repeat' first
    | with_reducible rfl
    | with_reducible apply auxEq_ite
    | (simp only [auxEq_mk]; done)
    | split
    | simp only [auxEq_mk, auxEq_parts]

theorem State.evict_auxEq (s : State) (v : Rec) : (State.evict s v).aux = s.aux := rfl

theorem State.evictFor_auxEq {s : State} {tiers : List Tier} {n fuel : Nat} {r : Tier × State}
    (h : s.evictFor tiers n fuel = some r) : r.2.aux = s.aux := by
  induction fuel generalizing s with
  | zero => cases h
  | succ m ih =>
    unfold State.evictFor at h
    split at h
    · cases h; rfl
    · split at h
      · cases h
      · exact (ih h).trans rfl

theorem State.makeWay_auxEq (s : State) (n fuel : Nat) : (s.makeWay n fuel).2.aux = s.aux := by
  induction fuel generalizing s with
  | zero => rfl
  | succ m ih =>
    unfold State.makeWay
    split
    · rfl
    · split
      · exact (ih _).trans rfl
      · split
        · exact (ih _).trans rfl
        · rfl

theorem State.releaseD3_auxEq (s : State) (id : Nat) (fetched : Bool) : (State.releaseD3 s id fetched).aux = s.aux := rfl

theorem State.reclaim_auxEq {s t : State} {n : Nat} (h : s.reclaim n = some t) : t.aux = s.aux := by
  induction n generalizing s with
  | zero => cases h
  | succ m ih =>
    unfold State.reclaim at h
    split at h
    · cases h; rfl
    · split at h
      · cases h
      · exact (ih h).trans rfl

theorem State.targetBlock_auxEq {s : State} {but : List Nat} {spare : Bool} {r : Blk × State}
    (h : s.targetBlock but spare = some r) : r.2.aux = s.aux := by
  unfold State.targetBlock at h
  split at h
  · cases h; rfl
  · split at h
    · cases h; rfl
    · obtain ⟨u, hu, h⟩ := Option.bind_eq_some_iff.1 h
      obtain ⟨b, _, rfl⟩ := Option.map_eq_some_iff.1 h
      exact State.reclaim_auxEq hu

theorem State.startUnit_auxEq (s : State) (admitted : Bool) : (s.startUnit admitted).aux = s.aux := by
  unfold State.startUnit
  split
  · refine auxEq_ite rfl ?_
    dsimp only
    split
    · rfl
    · rename_i r h
      exact (State.targetBlock_auxEq h).symm ▸ rfl
  · rfl

theorem State.writer_auxEq (s : State) : (State.writer s).aux = s.aux := by
  unfold State.writer
  split <;> simp only [↓State.startUnit_auxEq, auxEq_mk, auxEq_parts]

theorem State.countSub_auxEq (s : State) (sub count : Nat) : (State.countSub s sub count).aux = s.aux := rfl

theorem State.countDrop_auxEq (s : State) (cls : Nat) : (State.countDrop s cls).aux = s.aux := rfl

theorem State.noteClaims_auxEq (s : State) (id : Nat) (claims : List Nat) : (State.noteClaims s id claims).aux = s.aux := rfl

theorem State.dropClaim_auxEq (s : State) (id sub : Nat) : (State.dropClaim s id sub).aux = s.aux := by
  unfold State.dropClaim
  simp only [↓State.releaseD3_auxEq, auxEq_mk, auxEq_parts]

theorem State.unclaim_auxEq (s : State) (w : StrWait) : (State.unclaim s w).aux = s.aux := by
  unfold State.unclaim
  split <;> simp only [↓State.originate_auxEq, ↓State.dropClaim_auxEq, auxEq_mk, auxEq_parts]

theorem State.queueClaim_auxEq (s : State) (w : StrWait) : (s.queueClaim w).2.aux = s.aux := by
  unfold State.queueClaim
  dsimp only
  have h : ∀ (l : List StrWait) (h' : HifState), (l.foldl (fun (s : State) x => s.unclaim x) { s with hif := h' }).aux = s.aux :=
    fun l h' => (foldl_auxEq (fun _ _ => State.unclaim_auxEq ..) _ _).trans rfl
  split
  · exact h _ _
  · exact (State.countDrop_auxEq ..).trans (auxEq_ite ((State.unclaim_auxEq ..).trans (h _ _)) (h _ _))

theorem State.claimAll_auxEq (s : State) (pos recType src time cls : Nat) (bytes : List Byte) (ref : Option Nat) :
    (s.claimAll pos recType src time cls bytes ref).2.aux = s.aux := by
  unfold State.claimAll
  refine (foldl_auxEq_snd (fun acc x => ?_) _ _).trans rfl
  dsimp only
  split
  · split
    · exact (State.queueClaim_auxEq ..).trans (State.countSub_auxEq ..)
    · exact State.countSub_auxEq ..
  · rfl

theorem State.sendClaims_auxEq (s : State) (recType src time : Nat) (bytes : List Byte) : (State.sendClaims s recType src time bytes).2.aux = s.aux := by
  unfold State.sendClaims
  repeat' first
    | with_reducible rfl
    | with_reducible apply auxEq_ite
    | with_reducible refine (foldl_auxEq (fun _ _ => ?_) _ _).trans ?_
    | (simp only [↓State.originate_auxEq, ↓State.countSub_auxEq, auxEq_mk]; done)
    | split
    | simp only [↓State.originate_auxEq, ↓State.countSub_auxEq, auxEq_mk, auxEq_parts]

theorem State.claimNew_auxEq (s : State) (id recType src time cls : Nat) (bytes : List Byte) : (State.claimNew s id recType src time cls bytes).aux = s.aux := by
  unfold State.claimNew
  split <;> simp only [↓State.sendClaims_auxEq, ↓State.noteClaims_auxEq, ↓State.claimAll_auxEq, ↓State.releaseD3_auxEq, auxEq_mk, auxEq_parts]

theorem State.stageD0_auxEq (s : State) (recType src time : Nat) (bytes : List Byte) : (State.stageD0 s recType src time bytes).aux = s.aux := by
  unfold State.stageD0
  split <;> simp only [↓State.claimNew_auxEq, ↓State.makeWay_auxEq, auxEq_mk, auxEq_parts]

theorem State.queueBb_auxEq (s : State) (w : BbWait) : (State.queueBb s w).aux = s.aux := rfl

theorem State.eventAt_auxEq (s : State) (e : Ev) (t : Nat) (full : Option (Nat × List Byte)) : (State.eventAt s e t full).aux = s.aux := by
  unfold State.eventAt
  repeat' first
    | with_reducible rfl
    | with_reducible apply auxEq_ite
    | (simp only [↓State.stageD0_auxEq, ↓State.originate_auxEq, ↓State.queueBb_auxEq, ↓State.writer_auxEq, auxEq_mk]; done)
    | split
    | simp only [↓State.stageD0_auxEq, ↓State.originate_auxEq, ↓State.queueBb_auxEq, ↓State.writer_auxEq, auxEq_mk, auxEq_parts]

theorem State.blackBox_auxEq (s : State) (kind : Nat) (keep : Bool) (body : List Byte) : (State.blackBox s kind keep body).aux = s.aux := rfl

theorem State.event_auxEq (s : State) (e : Ev) : (State.event s e).aux = s.aux := by
  unfold State.event
  simp only [↓State.eventAt_auxEq, auxEq_mk, auxEq_parts]

theorem State.dieEventFull_auxEq (s : State) (k : Nat) (e : Ev) (t : Nat) (full : List Byte) : (State.dieEventFull s k e t full).aux = s.aux := by
  unfold State.dieEventFull
  split <;> simp only [↓State.modDie_auxEq, ↓State.eventAt_auxEq, auxEq_mk, auxEq_parts]

theorem State.dieEventAt_auxEq (s : State) (k : Nat) (e : Ev) (t : Nat) : (State.dieEventAt s k e t).aux = s.aux := by
  unfold State.dieEventAt
  simp only [↓State.dieEventFull_auxEq, auxEq_mk, auxEq_parts]

theorem State.dieEvent_auxEq (s : State) (k : Nat) (e : Ev) : (State.dieEvent s k e).aux = s.aux := by
  unfold State.dieEvent
  simp only [↓State.dieEventAt_auxEq, auxEq_mk, auxEq_parts]

theorem State.placement_auxEq (s : State) (kind island task reason : Nat) (value : Int) (stream arg16 : Nat) : (State.placement s kind island task reason value stream arg16).aux = s.aux := by
  unfold State.placement
  simp only [↓State.eventAt_auxEq, auxEq_mk, auxEq_parts]

theorem State.dropRec_auxEq (s : State) (cls recType src : Nat) : (State.dropRec s cls recType src).aux = s.aux := by
  unfold State.dropRec
  repeat' first
    | with_reducible rfl
    | with_reducible apply auxEq_ite
    | (simp only [↓State.placement_auxEq, ↓State.countDrop_auxEq, auxEq_mk]; done)
    | split
    | simp only [↓State.placement_auxEq, ↓State.countDrop_auxEq, auxEq_mk, auxEq_parts]

theorem State.endDrops_auxEq (s : State) (cls recType src : Nat) : (State.endDrops s cls recType src).aux = s.aux := by
  unfold State.endDrops
  split <;> simp only [↓State.placement_auxEq, auxEq_mk, auxEq_parts]

theorem State.tierFor_auxEq {s : State} {cls n : Nat} {r : Tier × State} (h : s.tierFor cls n = some r) :
    r.2.aux = s.aux := by
  unfold State.tierFor at h
  repeat' first
    | (cases h; rfl)
    | exact State.evictFor_auxEq h
    | split at h

theorem State.putRec_auxEq (s : State) (tier : Tier) (cls recType src time : Nat) (bytes : List Byte) : (State.putRec s tier cls recType src time bytes).aux = s.aux := rfl

theorem State.place_auxEq (s : State) (recType src time : Nat) (bytes : List Byte) :
    (s.place recType src time bytes).aux = s.aux := by
  unfold State.place
  dsimp only
  refine auxEq_ite ((State.writer_auxEq _).trans (State.stageD0_auxEq ..)) ?_
  split
  · exact State.dropRec_auxEq ..
  · rename_i r h
    exact (State.writer_auxEq _).trans ((State.claimNew_auxEq ..).trans ((State.endDrops_auxEq ..).trans
      ((State.putRec_auxEq ..).trans (State.tierFor_auxEq h))))

theorem State.dieRecord_auxEq (s : State) (k recType time : Nat) (bytes : List Byte) : (State.dieRecord s k recType time bytes).aux = s.aux := by
  unfold State.dieRecord
  simp only [↓State.modDie_auxEq, auxEq_mk, auxEq_parts]

theorem State.queueCompletion_auxEq (s : State) (x : InFlight) (origin result xfer code : Nat) : (State.queueCompletion s x origin result xfer code).aux = s.aux := rfl

theorem State.writeBuffer_auxEq (s : State) (l : List (Nat × Nat)) (bs : List Byte) :
    (s.writeBuffer l bs).aux = s.aux := by
  induction l generalizing s bs with
  | nil => rfl
  | cons a l ih =>
    cases bs with
    | nil => rfl
    | cons b bs => exact (ih _ _).trans rfl

theorem State.finishBroadcast_auxEq (s : State) (x : InFlight) : (State.finishBroadcast s x).aux = s.aux := by
  unfold State.finishBroadcast
  repeat' first
    | with_reducible rfl
    | with_reducible apply auxEq_ite
    | (simp only [↓State.queueCompletion_auxEq, ↓State.writeBuffer_auxEq, auxEq_mk]; done)
    | split
    | simp only [↓State.queueCompletion_auxEq, ↓State.writeBuffer_auxEq, auxEq_mk, auxEq_parts]

theorem State.vote_auxEq (s : State) (x : InFlight) (pos code : Nat) : (State.vote s x pos code).aux = s.aux := by
  unfold State.vote
  repeat' first
    | with_reducible rfl
    | with_reducible apply auxEq_ite
    | (simp only [↓State.finishBroadcast_auxEq, auxEq_mk]; done)
    | split
    | simp only [↓State.finishBroadcast_auxEq, auxEq_mk, auxEq_parts]

theorem State.takeCompletion_auxEq (s : State) (sq cid gen origin result xfer code : Nat) (data : List Byte) : (State.takeCompletion s sq cid gen origin result xfer code data).aux = s.aux := by
  unfold State.takeCompletion
  repeat' first
    | with_reducible rfl
    | with_reducible apply auxEq_ite
    | (simp only [↓State.vote_auxEq, ↓State.writeBuffer_auxEq, ↓State.queueCompletion_auxEq, auxEq_mk]; done)
    | split
    | simp only [↓State.vote_auxEq, ↓State.writeBuffer_auxEq, ↓State.queueCompletion_auxEq, auxEq_mk, auxEq_parts]

theorem State.tellArmed_auxEq (s : State) (a code : Nat) : (State.tellArmed s a code).aux = s.aux := by
  unfold State.tellArmed
  split <;> simp only [↓State.originate_auxEq, auxEq_mk, auxEq_parts]

theorem State.completeData_auxEq (s : State) (c : Cmd) (st : Status) (result : Nat) (data : List Byte) : (State.completeData s c st result data).aux = s.aux := by
  unfold State.completeData
  split <;> simp only [↓State.originate_auxEq, ↓State.takeCompletion_auxEq, auxEq_mk, auxEq_parts]

theorem State.completeX_auxEq (s : State) (c : Cmd) (st : Status) (result xfer : Nat) : (State.completeX s c st result xfer).aux = s.aux := by
  unfold State.completeX
  split <;> simp only [↓State.originate_auxEq, ↓State.takeCompletion_auxEq, auxEq_mk, auxEq_parts]

theorem State.complete_auxEq (s : State) (c : Cmd) (st : Status) (result : Nat) : (State.complete s c st result).aux = s.aux := by
  unfold State.complete
  simp only [↓State.completeX_auxEq, auxEq_mk, auxEq_parts]

theorem State.completeOpt_auxEq (s : State) (c : Option Cmd) (st : Status) (result : Nat) : (State.completeOpt s c st result).aux = s.aux := by
  unfold State.completeOpt
  split <;> simp only [↓State.complete_auxEq, auxEq_mk, auxEq_parts]

theorem State.policyTaken_auxEq (s : State) (k : Nat) : (State.policyTaken s k).aux = s.aux := by
  unfold State.policyTaken
  repeat' first
    | with_reducible rfl
    | with_reducible apply auxEq_ite
    | with_reducible refine (foldl_auxEq (fun _ _ => ?_) _ _).trans ?_
    | (simp only [↓State.complete_auxEq, auxEq_mk]; done)
    | split
    | simp only [↓State.complete_auxEq, auxEq_mk, auxEq_parts]

theorem State.rephase_auxEq (s : State) : (State.rephase s).aux = s.aux := by
  unfold State.rephase
  simp only [↓State.modDies_auxEq, auxEq_mk, auxEq_parts]

theorem State.at__auxEq (s : State) (t : Nat) : (State.at_ s t).aux = s.aux := rfl

theorem State.takeStep_auxEq (s : State) (ofs : Int) : (State.takeStep s ofs).aux = s.aux := by
  unfold State.takeStep
  simp only [↓State.event_auxEq, ↓State.rephase_auxEq, auxEq_mk, auxEq_parts]

theorem State.stepAt_auxEq (s : State) (k : Nat) : (State.stepAt s k).aux = s.aux := by
  unfold State.stepAt
  repeat' first
    | with_reducible rfl
    | with_reducible apply auxEq_ite
    | (simp only [↓State.takeStep_auxEq, auxEq_mk]; done)
    | split
    | simp only [↓State.takeStep_auxEq, auxEq_mk, auxEq_parts]

theorem State.settleChannels_auxEq (s : State) (k : Nat) : (State.settleChannels s k).aux = s.aux := by
  unfold State.settleChannels
  simp only [↓State.modDie_auxEq, auxEq_mk, auxEq_parts]

theorem State.applyCap_auxEq (s : State) (k : Nat) : (State.applyCap s k).aux = s.aux := by
  unfold State.applyCap
  simp only [↓State.modDie_auxEq, ↓State.settleChannels_auxEq, auxEq_mk, auxEq_parts]

theorem State.adoptPrec_auxEq (s : State) (k : Nat) (d : Die) : (State.adoptPrec s k d).aux = s.aux := by
  unfold State.adoptPrec
  repeat' first
    | with_reducible rfl
    | with_reducible apply auxEq_ite
    | (simp only [↓State.takeBlock_auxEq, ↓State.modDie_auxEq, auxEq_mk]; done)
    | split
    | simp only [↓State.takeBlock_auxEq, ↓State.modDie_auxEq, auxEq_mk, auxEq_parts]

theorem State.takePrec_auxEq (s : State) (k : Nat) : (State.takePrec s k).aux = s.aux := by
  unfold State.takePrec
  refine onDie_auxEq (fun _ => ?_) ?_ <;> simp only [↓State.adoptPrec_auxEq, auxEq_mk, auxEq_parts]

theorem State.judgeSecond_auxEq (s : State) (k : Nat) (x : Interval) : (State.judgeSecond s k x).aux = s.aux := by
  unfold State.judgeSecond
  repeat' first
    | with_reducible rfl
    | with_reducible apply auxEq_ite
    | with_reducible refine (foldl_auxEq (fun _ _ => ?_) _ _).trans ?_
    | (simp only [↓State.modDie_auxEq, auxEq_mk]; done)
    | split
    | simp only [↓State.modDie_auxEq, auxEq_mk, auxEq_parts]

theorem State.precSample_auxEq (s : State) (k : Nat) (d : Die) (v : List Rat) (ovl : List Overload) (bal : List Rat) : (State.precSample s k d v ovl bal).aux = s.aux := by
  unfold State.precSample
  repeat' first
    | with_reducible rfl
    | with_reducible apply auxEq_ite
    | (simp only [↓State.modDie_auxEq, ↓State.judgeSecond_auxEq, ↓State.dieRecord_auxEq, auxEq_mk]; done)
    | split
    | simp only [↓State.modDie_auxEq, ↓State.judgeSecond_auxEq, ↓State.dieRecord_auxEq, auxEq_mk, auxEq_parts]

theorem State.discardRun_auxEq (s : State) (k t : Nat) (keepCand : Bool) : (State.discardRun s k t keepCand).aux = s.aux := by
  unfold State.discardRun
  refine onDie_auxEq (fun _ => ?_) ?_
  · split <;> simp only [↓State.modDie_auxEq, ↓State.dieRecord_auxEq, auxEq_mk, auxEq_parts]
  · simp only [↓State.modDie_auxEq, ↓State.dieRecord_auxEq, auxEq_mk, auxEq_parts]

theorem State.owBegin_auxEq (s : State) (k : Nat) : (State.owBegin s k).aux = s.aux := by
  unfold State.owBegin
  repeat' first
    | with_reducible rfl
    | with_reducible apply auxEq_ite
    | with_reducible refine onDie_auxEq (fun _ => ?_) ?_
    | (simp only [↓State.modDie_auxEq, ↓State.settleChannels_auxEq, auxEq_mk]; done)
    | split
    | simp only [↓State.modDie_auxEq, ↓State.settleChannels_auxEq, auxEq_mk, auxEq_parts]

theorem State.owEnd_auxEq (s : State) (k : Nat) : (State.owEnd s k).aux = s.aux := by
  unfold State.owEnd
  simp only [↓State.modDie_auxEq, ↓State.settleChannels_auxEq, auxEq_mk, auxEq_parts]

theorem State.stopInjection_auxEq (s : State) (k : Nat) : (State.stopInjection s k).aux = s.aux := by
  unfold State.stopInjection
  simp only [↓State.modDie_auxEq, ↓State.settleChannels_auxEq, auxEq_mk, auxEq_parts]

theorem State.adoptImp_auxEq (s : State) (k : Nat) : (State.adoptImp s k).aux = s.aux := by
  unfold State.adoptImp
  repeat' first
    | with_reducible rfl
    | with_reducible apply auxEq_ite
    | (simp only [↓State.modDie_auxEq, ↓State.takeBlock_auxEq, ↓State.stopInjection_auxEq, auxEq_mk]; done)
    | split
    | simp only [↓State.modDie_auxEq, ↓State.takeBlock_auxEq, ↓State.stopInjection_auxEq, auxEq_mk, auxEq_parts]

theorem State.feedImp_auxEq (s : State) (k : Nat) (f : FastFrame) : (State.feedImp s k f).aux = s.aux := by
  unfold State.feedImp
  refine onDie_auxEq (fun _ => ?_) ?_
  · split <;> simp only [↓State.modDie_auxEq, auxEq_mk, auxEq_parts]
  · simp only [↓State.modDie_auxEq, auxEq_mk, auxEq_parts]

theorem State.beginInjection_auxEq (s : State) (k a : Nat) : (State.beginInjection s k a).aux = s.aux := by
  unfold State.beginInjection
  simp only [↓State.modDie_auxEq, auxEq_mk, auxEq_parts]

theorem State.missTrigger_auxEq (s : State) (k : Nat) (c : Capture) : (State.missTrigger s k c).aux = s.aux := by
  unfold State.missTrigger
  split <;> simp only [↓State.completeOpt_auxEq, ↓State.dieEvent_auxEq, ↓State.modDie_auxEq, auxEq_mk, auxEq_parts]

theorem State.triggerCapture_auxEq (s : State) (k tTrig : Nat) : (State.triggerCapture s k tTrig).aux = s.aux := by
  unfold State.triggerCapture
  repeat' first
    | with_reducible rfl
    | with_reducible apply auxEq_ite
    | with_reducible refine onDie_auxEq (fun _ => ?_) ?_
    | (simp only [↓State.missTrigger_auxEq, ↓State.modDie_auxEq, auxEq_mk]; done)
    | split
    | simp only [↓State.missTrigger_auxEq, ↓State.modDie_auxEq, auxEq_mk, auxEq_parts]

theorem State.faultTrigger_auxEq (s : State) (k tOrigin : Nat) (chain : Bool) : (State.faultTrigger s k tOrigin chain).aux = s.aux := by
  unfold State.faultTrigger
  repeat' first
    | with_reducible rfl
    | with_reducible apply auxEq_ite
    | with_reducible refine onDie_auxEq (fun _ => ?_) ?_
    | (simp only [↓State.triggerCapture_auxEq, auxEq_mk]; done)
    | split
    | simp only [↓State.triggerCapture_auxEq, auxEq_mk, auxEq_parts]

theorem State.flushStream_auxEq (s : State) (k : Nat) (last abort : Bool) : (State.flushStream s k last abort).aux = s.aux := by
  unfold State.flushStream
  repeat' first
    | with_reducible rfl
    | with_reducible apply auxEq_ite
    | with_reducible refine onDie_auxEq (fun _ => ?_) ?_
    | (simp only [↓State.dieRecord_auxEq, ↓State.modDie_auxEq, auxEq_mk]; done)
    | split
    | simp only [↓State.dieRecord_auxEq, ↓State.modDie_auxEq, auxEq_mk, auxEq_parts]

theorem State.feedStream_auxEq (s : State) (k : Nat) (x : FastFrame) : (State.feedStream s k x).aux = s.aux := by
  unfold State.feedStream
  repeat' first
    | with_reducible rfl
    | with_reducible apply auxEq_ite
    | with_reducible refine onDie_auxEq (fun _ => ?_) ?_
    | (simp only [↓State.modDie_auxEq, ↓State.flushStream_auxEq, auxEq_mk]; done)
    | split
    | simp only [↓State.modDie_auxEq, ↓State.flushStream_auxEq, auxEq_mk, auxEq_parts]

theorem State.openFastStream_auxEq (s : State) (k id : Nat) : (State.openFastStream s k id).aux = s.aux := by
  unfold State.openFastStream
  simp only [↓State.modDie_auxEq, auxEq_mk, auxEq_parts]

theorem State.closeFastStream_auxEq (s : State) (k id : Nat) : (State.closeFastStream s k id).aux = s.aux := by
  unfold State.closeFastStream
  repeat' first
    | with_reducible rfl
    | with_reducible apply auxEq_ite
    | with_reducible refine onDie_auxEq (fun _ => ?_) ?_
    | (simp only [↓State.modDie_auxEq, ↓State.flushStream_auxEq, auxEq_mk]; done)
    | split
    | simp only [↓State.modDie_auxEq, ↓State.flushStream_auxEq, auxEq_mk, auxEq_parts]

theorem State.closeFastStreams_auxEq (s : State) (k : Nat) : (State.closeFastStreams s k).aux = s.aux := by
  unfold State.closeFastStreams
  repeat' first
    | with_reducible rfl
    | with_reducible apply auxEq_ite
    | with_reducible refine (foldl_auxEq (fun _ _ => ?_) _ _).trans ?_
    | with_reducible refine onDie_auxEq (fun _ => ?_) ?_
    | (simp only [↓State.closeFastStream_auxEq, auxEq_mk]; done)
    | split
    | simp only [↓State.closeFastStream_auxEq, auxEq_mk, auxEq_parts]

theorem State.unarm_auxEq (s : State) (c : Capture) : (State.unarm s c).aux = s.aux := by
  unfold State.unarm
  split <;> simp only [↓State.tellArmed_auxEq, auxEq_mk, auxEq_parts]

theorem State.abortCapture_auxEq (s : State) (k : Nat) (arm : Bool) : (State.abortCapture s k arm).aux = s.aux := by
  unfold State.abortCapture
  refine onDie_auxEq (fun _ => ?_) ?_
  · split <;> simp only [↓State.dieEvent_auxEq, ↓State.modDie_auxEq, ↓State.completeOpt_auxEq, ↓State.unarm_auxEq, auxEq_mk, auxEq_parts]
  · simp only [↓State.dieEvent_auxEq, ↓State.modDie_auxEq, ↓State.completeOpt_auxEq, ↓State.unarm_auxEq, auxEq_mk, auxEq_parts]

theorem State.stopFast_auxEq (s : State) (k : Nat) : (State.stopFast s k).aux = s.aux := by
  unfold State.stopFast
  simp only [↓State.flushStream_auxEq, ↓State.modDie_auxEq, ↓State.abortCapture_auxEq, ↓State.stopInjection_auxEq, auxEq_mk, auxEq_parts]

theorem State.fastOff_auxEq (s : State) (k : Nat) : (State.fastOff s k).aux = s.aux := by
  unfold State.fastOff
  refine onDie_auxEq (fun _ => ?_) ?_
  · split <;> simp only [↓State.modDie_auxEq, ↓State.stopFast_auxEq, auxEq_mk, auxEq_parts]
  · simp only [↓State.modDie_auxEq, ↓State.stopFast_auxEq, auxEq_mk, auxEq_parts]

theorem State.fastUp_auxEq (s : State) (k : Nat) : (State.fastUp s k).aux = s.aux := by
  unfold State.fastUp
  refine onDie_auxEq (fun _ => ?_) ?_
  · split <;> simp only [↓State.modDie_auxEq, auxEq_mk, auxEq_parts]
  · simp only [↓State.modDie_auxEq, auxEq_mk, auxEq_parts]

theorem State.fastDomain_auxEq (s : State) (k : Nat) : (State.fastDomain s k).aux = s.aux := by
  unfold State.fastDomain
  refine onDie_auxEq (fun _ => ?_) ?_
  · split <;> simp only [↓State.fastUp_auxEq, ↓State.fastOff_auxEq, auxEq_mk, auxEq_parts]
  · simp only [↓State.fastUp_auxEq, ↓State.fastOff_auxEq, auxEq_mk, auxEq_parts]

theorem State.swapFast_auxEq (s : State) (k : Nat) : (State.swapFast s k).aux = s.aux := by
  unfold State.swapFast
  repeat' first
    | with_reducible rfl
    | with_reducible apply auxEq_ite
    | (simp only [↓State.flushStream_auxEq, ↓State.modDie_auxEq, ↓State.takeBlock_auxEq, ↓State.abortCapture_auxEq, auxEq_mk]; done)
    | split
    | simp only [↓State.flushStream_auxEq, ↓State.modDie_auxEq, ↓State.takeBlock_auxEq, ↓State.abortCapture_auxEq, auxEq_mk, auxEq_parts]

theorem State.closeCapture_auxEq (s : State) (k : Nat) : (State.closeCapture s k).aux = s.aux := by
  unfold State.closeCapture
  repeat' first
    | with_reducible rfl
    | with_reducible apply auxEq_ite
    | with_reducible refine onDie_auxEq (fun _ => ?_) ?_
    | (simp only [↓State.completeOpt_auxEq, ↓State.modDie_auxEq, auxEq_mk]; done)
    | split
    | simp only [↓State.completeOpt_auxEq, ↓State.modDie_auxEq, auxEq_mk, auxEq_parts]

theorem State.formSafety_auxEq (s : State) (msg : Nat) (f : FaultInfo) (aux : Nat) (mailbox : Bool) : (State.formSafety s msg f aux mailbox).2.aux = s.aux := rfl

theorem State.sendSafety_auxEq (s : State) (msg : Nat) (f : FaultInfo) : (State.sendSafety s msg f).aux = s.aux := by
  unfold State.sendSafety
  split <;> simp only [↓State.formSafety_auxEq, ↓State.originate_auxEq, auxEq_mk, auxEq_parts]

theorem State.heartStop_auxEq (s : State) : (State.heartStop s).aux = s.aux := by
  unfold State.heartStop
  repeat' first
    | with_reducible rfl
    | with_reducible apply auxEq_ite
    | (simp only [↓State.emit_auxEq, ↓State.event_auxEq, auxEq_mk]; done)
    | split
    | simp only [↓State.emit_auxEq, ↓State.event_auxEq, auxEq_mk, auxEq_parts]

theorem State.heartResume_auxEq (s : State) : (State.heartResume s).aux = s.aux := by
  unfold State.heartResume
  repeat' first
    | with_reducible rfl
    | with_reducible apply auxEq_ite
    | (simp only [↓State.sendSafety_auxEq, ↓State.emit_auxEq, ↓State.event_auxEq, auxEq_mk]; done)
    | split
    | simp only [↓State.sendSafety_auxEq, ↓State.emit_auxEq, ↓State.event_auxEq, auxEq_mk, auxEq_parts]

theorem State.accrueTest_auxEq (s : State) : (State.accrueTest s).aux = s.aux := rfl

theorem State.doze_auxEq (s : State) : (State.doze s).aux = s.aux := by
  unfold State.doze
  repeat' first
    | with_reducible rfl
    | with_reducible apply auxEq_ite
    | with_reducible refine (foldl_auxEq (fun _ _ => ?_) _ _).trans ?_
    | (simp only [↓State.fastDomain_auxEq, ↓State.accrueTest_auxEq, ↓State.closeFastStreams_auxEq, auxEq_mk]; done)
    | split
    | simp only [↓State.fastDomain_auxEq, ↓State.accrueTest_auxEq, ↓State.closeFastStreams_auxEq, auxEq_mk, auxEq_parts]

theorem State.setOut_auxEq (s : State) (k : Nat) (on : Bool) : (State.setOut s k on).aux = s.aux := by
  unfold State.setOut
  split <;> simp only [↓State.accrueTest_auxEq, ↓State.emit_auxEq, auxEq_mk, auxEq_parts]

theorem State.outsOff_auxEq (s : State) : (State.outsOff s).aux = s.aux := by
  unfold State.outsOff
  repeat' first
    | with_reducible rfl
    | with_reducible apply auxEq_ite
    | with_reducible refine (foldl_auxEq (fun _ _ => ?_) _ _).trans ?_
    | (simp only [↓State.setOut_auxEq, auxEq_mk]; done)
    | split
    | simp only [↓State.setOut_auxEq, auxEq_mk, auxEq_parts]

theorem State.evalOuts_auxEq (s : State) : (State.evalOuts s).aux = s.aux := by
  unfold State.evalOuts
  repeat' first
    | with_reducible rfl
    | with_reducible apply auxEq_ite
    | with_reducible refine (foldl_auxEq (fun _ _ => ?_) _ _).trans ?_
    | (simp only [↓State.setOut_auxEq, auxEq_mk]; done)
    | split
    | simp only [↓State.setOut_auxEq, auxEq_mk, auxEq_parts]

theorem State.latch_auxEq (s : State) (cause : Nat) : (State.latch s cause).aux = s.aux := by
  unfold State.latch
  repeat' first
    | with_reducible rfl
    | with_reducible apply auxEq_ite
    | with_reducible refine (foldl_auxEq (fun _ _ => ?_) _ _).trans ?_
    | (simp only [↓State.outsOff_auxEq, ↓State.heartStop_auxEq, ↓State.event_auxEq, auxEq_mk]; done)
    | split
    | simp only [↓State.outsOff_auxEq, ↓State.heartStop_auxEq, ↓State.event_auxEq, auxEq_mk, auxEq_parts]

theorem State.releaseLockout_auxEq (s : State) : (State.releaseLockout s).aux = s.aux := by
  unfold State.releaseLockout
  simp only [↓State.heartResume_auxEq, ↓State.event_auxEq, auxEq_mk, auxEq_parts]

theorem State.ownFault_auxEq (s : State) (f : FaultInfo) : (State.ownFault s f).aux = s.aux := by
  unfold State.ownFault
  split <;> simp only [↓State.sendSafety_auxEq, ↓State.latch_auxEq, auxEq_mk, auxEq_parts]

theorem State.takeNotice_auxEq (s : State) (k : Nat) (b : List Byte) : (State.takeNotice s k b).aux = s.aux := by
  unfold State.takeNotice
  repeat' first
    | with_reducible rfl
    | with_reducible apply auxEq_ite
    | with_reducible refine (foldl_auxEq (fun _ _ => ?_) _ _).trans ?_
    | (simp only [↓State.ownFault_auxEq, ↓State.faultTrigger_auxEq, ↓State.eventAt_auxEq, ↓State.originate_auxEq, ↓State.heartStop_auxEq, auxEq_mk]; done)
    | split
    | simp only [↓State.ownFault_auxEq, ↓State.faultTrigger_auxEq, ↓State.eventAt_auxEq, ↓State.originate_auxEq, ↓State.heartStop_auxEq, auxEq_mk, auxEq_parts]

theorem State.missCurrentBlock_auxEq (s : State) (t0 k : Nat) : (State.missCurrentBlock s t0 k).aux = s.aux := by
  unfold State.missCurrentBlock
  repeat' first
    | with_reducible rfl
    | with_reducible apply auxEq_ite
    | with_reducible refine onDie_auxEq (fun _ => ?_) ?_
    | (simp only [↓State.dieEvent_auxEq, ↓State.adoptImp_auxEq, ↓State.fastDomain_auxEq, ↓State.modDie_auxEq, auxEq_mk]; done)
    | split
    | simp only [↓State.dieEvent_auxEq, ↓State.adoptImp_auxEq, ↓State.fastDomain_auxEq, ↓State.modDie_auxEq, auxEq_mk, auxEq_parts]

theorem State.takeCurrentBlock_auxEq (s : State) (k : Nat) (b : List Byte) : (State.takeCurrentBlock s k b).aux = s.aux := by
  unfold State.takeCurrentBlock
  repeat' first
    | with_reducible rfl
    | with_reducible apply auxEq_ite
    | with_reducible refine onDie_auxEq (fun _ => ?_) ?_
    | (simp only [↓State.dieEvent_auxEq, ↓State.modDie_auxEq, ↓State.adoptImp_auxEq, ↓State.fastDomain_auxEq, ↓State.missCurrentBlock_auxEq, auxEq_mk]; done)
    | split
    | simp only [↓State.dieEvent_auxEq, ↓State.modDie_auxEq, ↓State.adoptImp_auxEq, ↓State.fastDomain_auxEq, ↓State.missCurrentBlock_auxEq, auxEq_mk, auxEq_parts]

theorem State.persist_auxEq (s : State) (k : Nat) : (State.persist s k).aux = s.aux := by
  unfold State.persist
  split <;> simp only [↓State.modDie_auxEq, auxEq_mk, auxEq_parts]

theorem State.resetGroup_auxEq (s : State) (k : Nat) : (State.resetGroup s k).aux = s.aux := by
  unfold State.resetGroup
  simp only [↓State.modDie_auxEq, auxEq_mk, auxEq_parts]

theorem State.swapGroup_auxEq (s : State) (k : Nat) (identity : Option Nat) (pattern : Nat) : (State.swapGroup s k identity pattern).aux = s.aux := by
  unfold State.swapGroup
  simp only [↓State.modDie_auxEq, ↓State.persist_auxEq, ↓State.dieEventFull_auxEq, ↓State.resetGroup_auxEq, ↓State.blackBox_auxEq, auxEq_mk, auxEq_parts]

theorem State.adoptEst_auxEq (s : State) : (State.adoptEst s).aux = s.aux := by
  unfold State.adoptEst
  repeat' first
    | with_reducible rfl
    | with_reducible apply auxEq_ite
    | with_reducible refine (foldl_auxEq (fun _ _ => ?_) _ _).trans ?_
    | (simp only [↓State.modDie_auxEq, ↓State.persist_auxEq, ↓State.dieEventFull_auxEq, ↓State.takeBlock_auxEq, ↓State.resetGroup_auxEq, auxEq_mk]; done)
    | split
    | simp only [↓State.modDie_auxEq, ↓State.persist_auxEq, ↓State.dieEventFull_auxEq, ↓State.takeBlock_auxEq, ↓State.resetGroup_auxEq, auxEq_mk, auxEq_parts]

theorem State.meterBlock_auxEq (s : State) (t0 : Nat) (dq : Rat) : (State.meterBlock s t0 dq).aux = s.aux := by
  unfold State.meterBlock
  repeat' first
    | with_reducible rfl
    | with_reducible apply auxEq_ite
    | with_reducible refine (foldl_auxEq (fun _ _ => ?_) _ _).trans ?_
    | (simp only [↓State.modDie_auxEq, auxEq_mk]; done)
    | split
    | simp only [↓State.modDie_auxEq, auxEq_mk, auxEq_parts]

theorem State.countBlock_auxEq (s : State) (k t0 : Nat) (dqAs qHub : Rat) (missing : Bool) : (State.countBlock s k t0 dqAs qHub missing).aux = s.aux := by
  unfold State.countBlock
  repeat' first
    | with_reducible rfl
    | with_reducible apply auxEq_ite
    | with_reducible refine onDie_auxEq (fun _ => ?_) ?_
    | (simp only [↓State.dieEvent_auxEq, ↓State.modDie_auxEq, auxEq_mk]; done)
    | split
    | simp only [↓State.dieEvent_auxEq, ↓State.modDie_auxEq, auxEq_mk, auxEq_parts]

theorem State.loseCount_auxEq (s : State) (k : Nat) : (State.loseCount s k).aux = s.aux := by
  unfold State.loseCount
  simp only [↓State.dieEvent_auxEq, ↓State.modDie_auxEq, auxEq_mk, auxEq_parts]

theorem State.hubDraw_auxEq (s : State) (t0 : Nat) : (State.hubDraw s t0).2.aux = s.aux := by
  unfold State.hubDraw
  repeat' first
    | with_reducible rfl
    | with_reducible apply auxEq_ite
    | (simp only [↓State.drawRat_auxEq, auxEq_mk]; done)
    | split
    | simp only [↓State.drawRat_auxEq, auxEq_mk, auxEq_parts]

theorem State.accrueDebt_auxEq (s : State) (qHub : Rat) : (State.accrueDebt s qHub).aux = s.aux := by
  unfold State.accrueDebt
  repeat' first
    | with_reducible rfl
    | with_reducible apply auxEq_ite
    | (simp only [↓State.modDie_auxEq, ↓State.modDies_auxEq, auxEq_mk]; done)
    | split
    | simp only [↓State.modDie_auxEq, ↓State.modDies_auxEq, auxEq_mk, auxEq_parts]

theorem State.takeChargeBlock_auxEq (s : State) (b : List Byte) : (State.takeChargeBlock s b).aux = s.aux := by
  unfold State.takeChargeBlock
  repeat' first
    | with_reducible rfl
    | with_reducible apply auxEq_ite
    | with_reducible refine (foldl_auxEq (fun _ _ => ?_) _ _).trans ?_
    | (simp only [↓State.meterBlock_auxEq, ↓State.hubDraw_auxEq, ↓State.adoptEst_auxEq, ↓State.countBlock_auxEq, ↓State.accrueDebt_auxEq, auxEq_mk]; done)
    | split
    | simp only [↓State.meterBlock_auxEq, ↓State.hubDraw_auxEq, ↓State.adoptEst_auxEq, ↓State.countBlock_auxEq, ↓State.accrueDebt_auxEq, auxEq_mk, auxEq_parts]

theorem State.sendChargeBlock_auxEq (s : State) (k sh : Nat) : (State.sendChargeBlock s k sh).aux = s.aux := by
  unfold State.sendChargeBlock
  repeat' first
    | with_reducible rfl
    | with_reducible apply auxEq_ite
    | with_reducible refine onDie_auxEq (fun _ => ?_) ?_
    | (simp only [↓State.originate_auxEq, ↓State.takeChargeBlock_auxEq, auxEq_mk]; done)
    | split
    | simp only [↓State.originate_auxEq, ↓State.takeChargeBlock_auxEq, auxEq_mk, auxEq_parts]

theorem State.meterGap_auxEq (s : State) (t0 : Nat) : (State.meterGap s t0).aux = s.aux := by
  unfold State.meterGap
  split <;> simp only [auxEq_mk, auxEq_parts]

theorem State.missChargeBlock_auxEq (s : State) (t0 k : Nat) (qHub : Rat) : (State.missChargeBlock s t0 k qHub).aux = s.aux := by
  unfold State.missChargeBlock
  repeat' first
    | with_reducible rfl
    | with_reducible apply auxEq_ite
    | with_reducible refine onDie_auxEq (fun _ => ?_) ?_
    | (simp only [↓State.loseCount_auxEq, ↓State.modDie_auxEq, ↓State.countBlock_auxEq, auxEq_mk]; done)
    | split
    | simp only [↓State.loseCount_auxEq, ↓State.modDie_auxEq, ↓State.countBlock_auxEq, auxEq_mk, auxEq_parts]

theorem State.endHold_auxEq (s : State) (k : Nat) : (State.endHold s k).aux = s.aux := by
  unfold State.endHold
  refine onDie_auxEq (fun _ => ?_) ?_
  · split <;> simp only [↓State.dieEvent_auxEq, ↓State.modDies_auxEq, auxEq_mk, auxEq_parts]
  · simp only [↓State.dieEvent_auxEq, ↓State.modDies_auxEq, auxEq_mk, auxEq_parts]

theorem State.restPoint_auxEq (s : State) (k : Nat) (d : Die) (tEnd : Nat) : (State.restPoint s k d tEnd).aux = s.aux := by
  unfold State.restPoint
  repeat' first
    | with_reducible rfl
    | with_reducible apply auxEq_ite
    | with_reducible refine (foldl_auxEq (fun _ _ => ?_) _ _).trans ?_
    | (simp only [↓State.modDie_auxEq, ↓State.persist_auxEq, ↓State.dieEventFull_auxEq, ↓State.endHold_auxEq, ↓State.modDies_auxEq, auxEq_mk]; done)
    | split
    | simp only [↓State.modDie_auxEq, ↓State.persist_auxEq, ↓State.dieEventFull_auxEq, ↓State.endHold_auxEq, ↓State.modDies_auxEq, auxEq_mk, auxEq_parts]

theorem State.modCell_auxEq (s : State) (k n : Nat) (f : CellSt → CellSt) : (State.modCell s k n f).aux = s.aux := by
  unfold State.modCell
  simp only [↓State.modDie_auxEq, auxEq_mk, auxEq_parts]

theorem State.declare_auxEq (s : State) (k : Nat) (low : Bool) (x : Nat × Nat × Rat) : (State.declare s k low x).aux = s.aux := by
  unfold State.declare
  split <;> simp only [↓State.dieEvent_auxEq, ↓State.modCell_auxEq, ↓State.modDies_auxEq, ↓State.persist_auxEq, ↓State.endHold_auxEq, auxEq_mk, auxEq_parts]

theorem State.judgeEnds_auxEq (s : State) (k : Nat) : (s.judgeEnds k).aux = s.aux := by
  unfold State.judgeEnds
  refine onDie_auxEq (fun d => ?_) rfl
  have hd : ∀ (o : Option (Nat × Nat × Rat)) (c : State → Nat × Nat × Rat → Bool) (b : Bool) (t : State), t.aux = s.aux →
      (match o with | some x => if c t x = true then t.declare k b x else t | none => t).aux = s.aux := by
    intro o c b t h
    cases o with
    | none => exact h
    | some x => exact auxEq_ite ((State.declare_auxEq ..).trans h) h
  exact hd _ (fun t x => !d.est.eoc && _) false _ (hd _ (fun t x => !d.est.eod && _) true _
    ((State.modDies_auxEq ..).trans (State.modDie_auxEq ..)))

theorem State.noteHistory_auxEq (s : State) (cells : List CellSt) (soc : Rat) (first : Bool) : (State.noteHistory s cells soc first).aux = s.aux := rfl

theorem State.loadState_auxEq (s : State) (k : Nat) : (State.loadState s k).aux = s.aux := by
  unfold State.loadState
  repeat' first
    | with_reducible rfl
    | with_reducible apply auxEq_ite
    | with_reducible refine onDie_auxEq (fun _ => ?_) ?_
    | (simp only [↓State.resetGroup_auxEq, ↓State.dieEvent_auxEq, ↓State.modDie_auxEq, auxEq_mk]; done)
    | split
    | simp only [↓State.resetGroup_auxEq, ↓State.dieEvent_auxEq, ↓State.modDie_auxEq, auxEq_mk, auxEq_parts]

theorem State.startFrom_auxEq (s : State) (k i t : Nat) : (State.startFrom s k i t).aux = s.aux := by
  unfold State.startFrom
  split <;> simp only [↓State.modDie_auxEq, auxEq_mk, auxEq_parts]

theorem State.seqRestart_auxEq (s : State) (k t : Nat) (keepWindows : Bool) : (State.seqRestart s k t keepWindows).aux = s.aux := by
  unfold State.seqRestart
  repeat' first
    | with_reducible rfl
    | with_reducible apply auxEq_ite
    | with_reducible refine onDie_auxEq (fun _ => ?_) ?_
    | (simp only [↓State.modDie_auxEq, ↓State.startFrom_auxEq, auxEq_mk]; done)
    | split
    | simp only [↓State.modDie_auxEq, ↓State.startFrom_auxEq, auxEq_mk, auxEq_parts]

theorem State.closeEntry_auxEq (s : State) (k : Nat) (cut preempt : Bool) : (State.closeEntry s k cut preempt).aux = s.aux := by
  unfold State.closeEntry
  repeat' first
    | with_reducible rfl
    | with_reducible apply auxEq_ite
    | with_reducible refine onDie_auxEq (fun _ => ?_) ?_
    | (simp only [↓State.drawBits_auxEq, ↓State.dieRecord_auxEq, ↓State.modDie_auxEq, auxEq_mk]; done)
    | split
    | simp only [↓State.drawBits_auxEq, ↓State.dieRecord_auxEq, ↓State.modDie_auxEq, auxEq_mk, auxEq_parts]

theorem State.judgeSwap_auxEq (s : State) (k : Nat) : (State.judgeSwap s k).aux = s.aux := by
  unfold State.judgeSwap
  repeat' first
    | with_reducible rfl
    | with_reducible apply auxEq_ite
    | with_reducible refine (foldl_auxEq (fun _ _ => ?_) _ _).trans ?_
    | with_reducible refine onDie_auxEq (fun _ => ?_) ?_
    | (simp only [↓State.dieEvent_auxEq, ↓State.modDie_auxEq, ↓State.swapGroup_auxEq, auxEq_mk]; done)
    | split
    | simp only [↓State.dieEvent_auxEq, ↓State.modDie_auxEq, ↓State.swapGroup_auxEq, auxEq_mk, auxEq_parts]

theorem State.seqAdvance_auxEq (s : State) (k i t : Nat) : (State.seqAdvance s k i t).aux = s.aux := by
  unfold State.seqAdvance
  split <;> simp only [↓State.modDie_auxEq, ↓State.startFrom_auxEq, ↓State.judgeSwap_auxEq, auxEq_mk, auxEq_parts]

theorem State.adoptSeq_auxEq (s : State) (k : Nat) : (State.adoptSeq s k).aux = s.aux := by
  unfold State.adoptSeq
  repeat' first
    | with_reducible rfl
    | with_reducible apply auxEq_ite
    | (simp only [↓State.seqRestart_auxEq, ↓State.takeBlock_auxEq, ↓State.modDie_auxEq, ↓State.closeEntry_auxEq, auxEq_mk]; done)
    | split
    | simp only [↓State.seqRestart_auxEq, ↓State.takeBlock_auxEq, ↓State.modDie_auxEq, ↓State.closeEntry_auxEq, auxEq_mk, auxEq_parts]

theorem State.releaseSlice_auxEq (s : State) (k block : Nat) : (State.releaseSlice s k block).aux = s.aux := by
  unfold State.releaseSlice
  repeat' first
    | with_reducible rfl
    | with_reducible apply auxEq_ite
    | with_reducible refine onDie_auxEq (fun _ => ?_) ?_
    | (simp only [↓State.modDie_auxEq, ↓State.startFrom_auxEq, auxEq_mk]; done)
    | split
    | simp only [↓State.modDie_auxEq, ↓State.startFrom_auxEq, auxEq_mk, auxEq_parts]

theorem State.modTest_auxEq (s : State) (k : Nat) (f : SelfTest → SelfTest) : (State.modTest s k f).aux = s.aux := rfl

theorem State.checkRejected_auxEq (s : State) : (State.checkRejected s).aux = s.aux := by
  unfold State.checkRejected
  simp only [↓State.modTest_auxEq, auxEq_mk, auxEq_parts]

theorem State.abortSlice_auxEq (s : State) (k : Nat) : (State.abortSlice s k).aux = s.aux := by
  unfold State.abortSlice
  split <;> simp only [↓State.releaseSlice_auxEq, ↓State.modTest_auxEq, auxEq_mk, auxEq_parts]

theorem State.freeLinks_auxEq (s : State) : (State.freeLinks s).aux = s.aux := by
  unfold State.freeLinks
  repeat' first
    | with_reducible rfl
    | with_reducible apply auxEq_ite
    | with_reducible refine (foldl_auxEq (fun _ _ => ?_) _ _).trans ?_
    | (simp only [↓State.abortSlice_auxEq, auxEq_mk]; done)
    | split
    | simp only [↓State.abortSlice_auxEq, auxEq_mk, auxEq_parts]

theorem State.clearFor_auxEq (s : State) (k : Nat) : (State.clearFor s k).aux = s.aux := by
  unfold State.clearFor
  simp only [↓State.freeLinks_auxEq, ↓State.abortSlice_auxEq, auxEq_mk, auxEq_parts]

theorem State.endUrgent_auxEq (s : State) (k : Nat) : (State.endUrgent s k).aux = s.aux := by
  unfold State.endUrgent
  repeat' first
    | with_reducible rfl
    | with_reducible apply auxEq_ite
    | with_reducible refine onDie_auxEq (fun _ => ?_) ?_
    | (simp only [↓State.modDie_auxEq, ↓State.owEnd_auxEq, ↓State.seqAdvance_auxEq, ↓State.startFrom_auxEq, auxEq_mk]; done)
    | split
    | simp only [↓State.modDie_auxEq, ↓State.owEnd_auxEq, ↓State.seqAdvance_auxEq, ↓State.startFrom_auxEq, auxEq_mk, auxEq_parts]

theorem State.closeRun_auxEq (s : State) (k t : Nat) : (State.closeRun s k t).aux = s.aux := by
  unfold State.closeRun
  refine onDie_auxEq (fun _ => ?_) ?_
  · split <;> simp only [↓State.modDie_auxEq, auxEq_mk, auxEq_parts]
  · simp only [↓State.modDie_auxEq, auxEq_mk, auxEq_parts]

theorem State.solveS1_auxEq (s : State) (r : CalRun) (po pg z : List Rat) : (State.solveS1 s r po pg z).2.aux = s.aux := by
  unfold State.solveS1
  simp only [↓State.drawRats_auxEq, auxEq_mk, auxEq_parts]

theorem State.solveRun_auxEq (s : State) (k : Nat) (d : Die) (r : CalRun) : (State.solveRun s k d r).2.aux = s.aux := by
  unfold State.solveRun
  repeat' first
    | with_reducible rfl
    | with_reducible apply auxEq_ite
    | (simp only [↓State.solveS1_auxEq, auxEq_mk]; done)
    | split
    | simp only [↓State.solveS1_auxEq, auxEq_mk, auxEq_parts]

theorem State.resetCal_auxEq (s : State) (k : Nat) : (State.resetCal s k).aux = s.aux := by
  unfold State.resetCal
  simp only [↓State.modDie_auxEq, ↓State.dieEvent_auxEq, ↓State.discardRun_auxEq, auxEq_mk, auxEq_parts]

theorem State.swapCal_auxEq (s : State) (k : Nat) : (State.swapCal s k).aux = s.aux := by
  unfold State.swapCal
  split <;> simp only [↓State.discardRun_auxEq, ↓State.takeBlock_auxEq, auxEq_mk, auxEq_parts]

theorem State.startService_auxEq (s : State) (k : Nat) : (State.startService s k).aux = s.aux := by
  unfold State.startService
  simp only [↓State.modDie_auxEq, auxEq_mk, auxEq_parts]

theorem State.atSample_auxEq (s : State) (k : Nat) : (State.atSample s k).aux = s.aux := by
  unfold State.atSample
  simp only [↓State.takePrec_auxEq, ↓State.startService_auxEq, ↓State.adoptSeq_auxEq, auxEq_mk, auxEq_parts]

theorem State.cancelPend_auxEq (s : State) : (State.cancelPend s).aux = s.aux := by
  unfold State.cancelPend
  split <;> simp only [↓State.complete_auxEq, ↓State.evalOuts_auxEq, auxEq_mk, auxEq_parts]

theorem State.reportMemory_auxEq (s : State) (k block : Nat) (b : Bist) : (State.reportMemory s k block b).aux = s.aux := by
  unfold State.reportMemory
  repeat' first
    | with_reducible rfl
    | with_reducible apply auxEq_ite
    | (simp only [↓State.modTest_auxEq, ↓State.event_auxEq, auxEq_mk]; done)
    | split
    | simp only [↓State.modTest_auxEq, ↓State.event_auxEq, auxEq_mk, auxEq_parts]

theorem State.testFailed_auxEq (s : State) (k block : Nat) : (State.testFailed s k block).aux = s.aux := by
  unfold State.testFailed
  split <;> simp only [↓State.dieEvent_auxEq, ↓State.event_auxEq, auxEq_mk, auxEq_parts]

theorem State.precOff_auxEq (s : State) (k : Nat) : (State.precOff s k).aux = s.aux := by
  unfold State.precOff
  refine onDie_auxEq (fun _ => ?_) ?_
  · split <;> simp only [↓State.modTest_auxEq, ↓State.settleChannels_auxEq, ↓State.modDie_auxEq, ↓State.fastOff_auxEq, ↓State.discardRun_auxEq, ↓State.abortSlice_auxEq, auxEq_mk, auxEq_parts]
  · simp only [↓State.modTest_auxEq, ↓State.settleChannels_auxEq, ↓State.modDie_auxEq, ↓State.fastOff_auxEq, ↓State.discardRun_auxEq, ↓State.abortSlice_auxEq, auxEq_mk, auxEq_parts]

theorem State.precStart_auxEq (s : State) (k : Nat) : (State.precStart s k).aux = s.aux := by
  unfold State.precStart
  simp only [↓State.takeRange_auxEq, ↓State.policyTaken_auxEq, ↓State.startService_auxEq, ↓State.modDie_auxEq, ↓State.discardRun_auxEq, ↓State.takeBlock_auxEq, auxEq_mk, auxEq_parts]

theorem State.readFactory_auxEq (s : State) (k copies : Nat) : (State.readFactory s k copies).aux = s.aux := by
  unfold State.readFactory
  repeat' first
    | with_reducible rfl
    | with_reducible apply auxEq_ite
    | with_reducible refine onDie_auxEq (fun _ => ?_) ?_
    | (simp only [↓State.dieEvent_auxEq, ↓State.modDie_auxEq, auxEq_mk]; done)
    | split
    | simp only [↓State.dieEvent_auxEq, ↓State.modDie_auxEq, auxEq_mk, auxEq_parts]

theorem State.enterProtOnly_auxEq (s : State) (k : Nat) : (State.enterProtOnly s k).aux = s.aux := by
  unfold State.enterProtOnly
  refine onDie_auxEq (fun _ => ?_) ?_
  · split <;> simp only [↓State.stopFast_auxEq, ↓State.settleChannels_auxEq, ↓State.modDie_auxEq, ↓State.event_auxEq, ↓State.discardRun_auxEq, ↓State.cancelPend_auxEq, auxEq_mk, auxEq_parts]
  · simp only [↓State.stopFast_auxEq, ↓State.settleChannels_auxEq, ↓State.modDie_auxEq, ↓State.event_auxEq, ↓State.discardRun_auxEq, ↓State.cancelPend_auxEq, auxEq_mk, auxEq_parts]

theorem State.noteValid_auxEq (s : State) : (State.noteValid s).aux = s.aux := by
  unfold State.noteValid
  repeat' first
    | with_reducible rfl
    | with_reducible apply auxEq_ite
    | (simp only [↓State.modDies_auxEq, auxEq_mk]; done)
    | split
    | simp only [↓State.modDies_auxEq, auxEq_mk, auxEq_parts]

theorem State.keepAlive_auxEq (s : State) (k : Nat) : (State.keepAlive s k).aux = s.aux := by
  unfold State.keepAlive
  repeat' first
    | with_reducible rfl
    | with_reducible apply auxEq_ite
    | with_reducible refine onDie_auxEq (fun _ => ?_) ?_
    | (simp only [↓State.dieEvent_auxEq, ↓State.modDie_auxEq, auxEq_mk]; done)
    | split
    | simp only [↓State.dieEvent_auxEq, ↓State.modDie_auxEq, auxEq_mk, auxEq_parts]

theorem State.adoptProt_auxEq (s : State) (k : Nat) : (State.adoptProt s k).aux = s.aux := by
  unfold State.adoptProt
  repeat' first
    | with_reducible rfl
    | with_reducible apply auxEq_ite
    | (simp only [↓State.modDie_auxEq, ↓State.takeRange_auxEq, auxEq_mk]; done)
    | split
    | simp only [↓State.modDie_auxEq, ↓State.takeRange_auxEq, auxEq_mk, auxEq_parts]

theorem State.sampleComp_auxEq (s : State) (k i : Nat) (uv : Bool) (v : Rat) : (State.sampleComp s k i uv v).aux = s.aux := by
  unfold State.sampleComp
  repeat' first
    | with_reducible rfl
    | with_reducible apply auxEq_ite
    | with_reducible refine onDie_auxEq (fun _ => ?_) ?_
    | (simp only [↓State.modDie_auxEq, ↓State.dieEvent_auxEq, ↓State.clearFor_auxEq, ↓State.faultTrigger_auxEq, auxEq_mk]; done)
    | split
    | simp only [↓State.modDie_auxEq, ↓State.dieEvent_auxEq, ↓State.clearFor_auxEq, ↓State.faultTrigger_auxEq, auxEq_mk, auxEq_parts]

theorem State.judgeReady_auxEq (s : State) (k : Nat) : (State.judgeReady s k).aux = s.aux := by
  unfold State.judgeReady
  simp only [↓State.modDie_auxEq, auxEq_mk, auxEq_parts]

theorem State.endSweep_auxEq (s : State) (k : Nat) : (State.endSweep s k).aux = s.aux := by
  unfold State.endSweep
  repeat' first
    | with_reducible rfl
    | with_reducible apply auxEq_ite
    | (simp only [↓State.abortSlice_auxEq, auxEq_mk]; done)
    | split
    | simp only [↓State.abortSlice_auxEq, auxEq_mk, auxEq_parts]

theorem State.dacCleared_auxEq (s : State) (k i : Nat) : (State.dacCleared s k i).aux = s.aux := by
  unfold State.dacCleared
  refine onDie_auxEq (fun _ => ?_) ?_
  · split <;> simp only [↓State.heartResume_auxEq, ↓State.dieEvent_auxEq, auxEq_mk, auxEq_parts]
  · simp only [↓State.heartResume_auxEq, ↓State.dieEvent_auxEq, auxEq_mk, auxEq_parts]

theorem State.clearDebts_auxEq (s : State) (k : Nat) : (State.clearDebts s k).aux = s.aux := by
  unfold State.clearDebts
  simp only [↓State.modDie_auxEq, auxEq_mk, auxEq_parts]

theorem State.breakLink_auxEq (s : State) (i : Nat) : (State.breakLink s i).aux = s.aux := by
  unfold State.breakLink
  repeat' first
    | with_reducible rfl
    | with_reducible apply auxEq_ite
    | with_reducible refine (foldl_auxEq (fun _ _ => ?_) _ _).trans ?_
    | (simp only [↓State.event_auxEq, ↓State.fastOff_auxEq, ↓State.closeFastStreams_auxEq, auxEq_mk]; done)
    | split
    | simp only [↓State.event_auxEq, ↓State.fastOff_auxEq, ↓State.closeFastStreams_auxEq, auxEq_mk, auxEq_parts]

theorem State.mendLink_auxEq (s : State) (i : Nat) : (State.mendLink s i).aux = s.aux := by
  unfold State.mendLink
  repeat' first
    | with_reducible rfl
    | with_reducible apply auxEq_ite
    | with_reducible refine (foldl_auxEq (fun _ _ => ?_) _ _).trans ?_
    | with_reducible refine onDie_auxEq (fun _ => ?_) ?_
    | (simp only [↓State.heartResume_auxEq, ↓State.fastDomain_auxEq, ↓State.modDie_auxEq, ↓State.event_auxEq, auxEq_mk]; done)
    | split
    | simp only [↓State.heartResume_auxEq, ↓State.fastDomain_auxEq, ↓State.modDie_auxEq, ↓State.event_auxEq, auxEq_mk, auxEq_parts]

theorem State.linkNotice_auxEq (s : State) (side : Side) (code : Nat) : (State.linkNotice s side code).aux = s.aux := by
  unfold State.linkNotice
  simp only [↓State.originate_auxEq, auxEq_mk, auxEq_parts]

theorem State.routeChange_auxEq (s : State) (side : Side) (code : Nat) : (State.routeChange s side code).aux = s.aux := by
  unfold State.routeChange
  simp only [↓State.linkNotice_auxEq, ↓State.event_auxEq, ↓State.noteHolder_auxEq, auxEq_mk, auxEq_parts]

theorem State.hopDown_auxEq (s : State) (side : Side) : (State.hopDown s side).aux = s.aux := by
  unfold State.hopDown
  repeat' first
    | with_reducible rfl
    | with_reducible apply auxEq_ite
    | with_reducible refine (foldl_auxEq (fun _ _ => ?_) _ _).trans ?_
    | (simp only [↓State.routeChange_auxEq, ↓State.modPort_auxEq, ↓State.egress_auxEq, auxEq_mk]; done)
    | split
    | simp only [↓State.routeChange_auxEq, ↓State.modPort_auxEq, ↓State.egress_auxEq, auxEq_mk, auxEq_parts]

theorem State.hopUp_auxEq (s : State) (side : Side) : (State.hopUp s side).aux = s.aux := by
  unfold State.hopUp
  repeat' first
    | with_reducible rfl
    | with_reducible apply auxEq_ite
    | (simp only [↓State.modPort_auxEq, ↓State.routeChange_auxEq, ↓State.flushUnrouted_auxEq, auxEq_mk]; done)
    | split
    | simp only [↓State.modPort_auxEq, ↓State.routeChange_auxEq, ↓State.flushUnrouted_auxEq, auxEq_mk, auxEq_parts]

theorem State.startTraining_auxEq (s : State) (side : Side) : (State.startTraining s side).aux = s.aux := by
  unfold State.startTraining
  simp only [↓State.modPort_auxEq, ↓State.emit_auxEq, auxEq_mk, auxEq_parts]

theorem State.sendKeying_auxEq (s : State) (side : Side) (rekey : Bool) (b : List Byte) : (State.sendKeying s side rekey b).aux = s.aux := by
  unfold State.sendKeying
  split <;> simp only [↓State.enqueue_auxEq, ↓State.emit_auxEq, auxEq_mk, auxEq_parts]

theorem State.startKeying_auxEq (s : State) (side : Side) (rekey : Bool) : (State.startKeying s side rekey).aux = s.aux := by
  unfold State.startKeying
  simp only [↓State.drawBits_auxEq, ↓State.modPort_auxEq, ↓State.sendKeying_auxEq, auxEq_mk, auxEq_parts]

theorem State.refuseKeying_auxEq (s : State) (side : Side) : (State.refuseKeying s side).aux = s.aux := by
  unfold State.refuseKeying
  simp only [↓State.modPort_auxEq, ↓State.event_auxEq, auxEq_mk, auxEq_parts]

theorem State.installKeys_auxEq (s : State) (side : Side) (k : Keying) (peer : Nat × Nat) : (State.installKeys s side k peer).aux = s.aux := by
  unfold State.installKeys
  simp only [↓State.modPort_auxEq, auxEq_mk, auxEq_parts]

theorem State.takeOffer_auxEq (s : State) (side : Side) (b : List Byte) : (State.takeOffer s side b).aux = s.aux := by
  unfold State.takeOffer
  repeat' first
    | with_reducible rfl
    | with_reducible apply auxEq_ite
    | (simp only [↓State.drawBits_auxEq, ↓State.modPort_auxEq, ↓State.at__auxEq, ↓State.refuseKeying_auxEq, ↓State.startKeying_auxEq, ↓State.event_auxEq, ↓State.sendKeying_auxEq, ↓State.rephase_auxEq, auxEq_mk]; done)
    | split
    | simp only [↓State.drawBits_auxEq, ↓State.modPort_auxEq, ↓State.at__auxEq, ↓State.refuseKeying_auxEq, ↓State.startKeying_auxEq, ↓State.event_auxEq, ↓State.sendKeying_auxEq, ↓State.rephase_auxEq, auxEq_mk, auxEq_parts]

theorem State.takeSignature_auxEq (s : State) (side : Side) (b : List Byte) : (State.takeSignature s side b).aux = s.aux := by
  unfold State.takeSignature
  repeat' first
    | with_reducible rfl
    | with_reducible apply auxEq_ite
    | (simp only [↓State.installKeys_auxEq, ↓State.refuseKeying_auxEq, ↓State.hopUp_auxEq, auxEq_mk]; done)
    | split
    | simp only [↓State.installKeys_auxEq, ↓State.refuseKeying_auxEq, ↓State.hopUp_auxEq, auxEq_mk, auxEq_parts]

theorem State.modHif_auxEq (s : State) (f : HifState → HifState) : (State.modHif s f).aux = s.aux := rfl

theorem State.raiseVector_auxEq (s : State) (v : Nat) : (State.raiseVector s v).aux = s.aux := by
  unfold State.raiseVector
  split <;> simp only [↓State.modHif_auxEq, ↓State.emit_auxEq, auxEq_mk, auxEq_parts]

theorem State.signal_auxEq {s : State} {q : Queue} {put : Queue → State → State}
    (h : ∀ q s, (put q s).aux = s.aux) : (s.signal q put).aux = s.aux := by
  unfold State.signal
  exact auxEq_ite rfl (auxEq_ite (State.raiseVector_auxEq ..) (auxEq_ite rfl (h _ _)))

theorem State.putCq_auxEq (n : Nat) (q : Queue) (s : State) : (State.putCq n q s).aux = s.aux := by
  unfold State.putCq
  simp only [↓State.modHif_auxEq, auxEq_mk, auxEq_parts]

theorem State.putStr_auxEq (r : Nat) (q : Queue) (s : State) : (State.putStr r q s).aux = s.aux := by
  unfold State.putStr
  simp only [↓State.modHif_auxEq, auxEq_mk, auxEq_parts]

theorem State.putEq_auxEq (q : Queue) (s : State) : (State.putEq q s).aux = s.aux := by
  unfold State.putEq
  simp only [↓State.modHif_auxEq, auxEq_mk, auxEq_parts]

theorem State.putSq_auxEq (n : Nat) (q : Queue) (s : State) : (State.putSq n q s).aux = s.aux := by
  unfold State.putSq
  simp only [↓State.modHif_auxEq, auxEq_mk, auxEq_parts]

theorem State.hifFatal_auxEq (s : State) (code : Nat) : (State.hifFatal s code).aux = s.aux := by
  unfold State.hifFatal
  simp only [↓State.modHif_auxEq, ↓State.raiseVector_auxEq, auxEq_mk, auxEq_parts]

theorem State.queueError_auxEq (s : State) (kind idx err : Nat) : (State.queueError s kind idx err).aux = s.aux := by
  unfold State.queueError
  simp only [↓State.event_auxEq, auxEq_mk, auxEq_parts]

theorem State.checkDrain_auxEq (s : State) : (State.checkDrain s).aux = s.aux := by
  unfold State.checkDrain
  repeat' first
    | with_reducible rfl
    | with_reducible apply auxEq_ite
    | (simp only [↓State.modHif_auxEq, auxEq_mk]; done)
    | split
    | simp only [↓State.modHif_auxEq, auxEq_mk, auxEq_parts]

theorem State.endSub_auxEq (s : State) (x : Sub) : (State.endSub s x).aux = s.aux := by
  unfold State.endSub
  repeat' first
    | with_reducible rfl
    | with_reducible apply auxEq_ite
    | (simp only [↓State.originate_auxEq, ↓State.closeFastStream_auxEq, auxEq_mk]; done)
    | split
    | simp only [↓State.originate_auxEq, ↓State.closeFastStream_auxEq, auxEq_mk, auxEq_parts]

theorem State.hifClear_auxEq (s : State) : (State.hifClear s).2.aux = s.aux := by
  unfold State.hifClear
  repeat' first
    | with_reducible rfl
    | with_reducible apply auxEq_ite
    | with_reducible refine (foldl_auxEq (fun _ _ => ?_) _ _).trans ?_
    | (simp only [↓State.unclaim_auxEq, ↓State.modHif_auxEq, ↓State.endSub_auxEq, auxEq_mk]; done)
    | split
    | simp only [↓State.unclaim_auxEq, ↓State.modHif_auxEq, ↓State.endSub_auxEq, auxEq_mk, auxEq_parts]

theorem State.hifOff_auxEq (s : State) : (State.hifOff s).aux = s.aux := by
  unfold State.hifOff
  simp only [↓State.hifClear_auxEq, auxEq_mk, auxEq_parts]



theorem State.wakePart_auxEq (s : State) (pos state : Nat) : (State.wakePart s pos state).aux = s.aux := by
  unfold State.wakePart
  simp only [↓State.emit_auxEq, auxEq_mk, auxEq_parts]

theorem State.castAsleep_auxEq (s : State) (x : InFlight) : (State.castAsleep s x).aux = s.aux := by
  unfold State.castAsleep
  repeat' first
    | with_reducible rfl
    | with_reducible apply auxEq_ite
    | with_reducible refine (foldl_auxEq (fun _ _ => ?_) _ _).trans ?_
    | (simp only [↓State.takeCompletion_auxEq, ↓State.wakePart_auxEq, auxEq_mk]; done)
    | split
    | simp only [↓State.takeCompletion_auxEq, ↓State.wakePart_auxEq, auxEq_mk, auxEq_parts]

theorem State.awake_auxEq (s : State) (pos : Nat) : (State.awake s pos).aux = s.aux := by
  unfold State.awake
  repeat' first
    | with_reducible rfl
    | with_reducible apply auxEq_ite
    | with_reducible refine (foldl_auxEq (fun _ _ => ?_) _ _).trans ?_
    | (simp only [↓State.modHif_auxEq, ↓State.takeCompletion_auxEq, auxEq_mk]; done)
    | split
    | simp only [↓State.modHif_auxEq, ↓State.takeCompletion_auxEq, auxEq_mk, auxEq_parts]

theorem State.startGroup_auxEq (s : State) (x : InFlight) (body : List Byte) : (State.startGroup s x body).aux = s.aux := by
  unfold State.startGroup
  repeat' first
    | with_reducible rfl
    | with_reducible apply auxEq_ite
    | (simp only [↓State.queueCompletion_auxEq, ↓State.originate_auxEq, auxEq_mk]; done)
    | split
    | simp only [↓State.queueCompletion_auxEq, ↓State.originate_auxEq, auxEq_mk, auxEq_parts]

theorem State.openRemote_auxEq (s : State) (x : InFlight) (body : List Byte) : (State.openRemote s x body).aux = s.aux := by
  unfold State.openRemote
  split <;> simp only [↓State.queueCompletion_auxEq, ↓State.modHif_auxEq, ↓State.originate_auxEq, auxEq_mk, auxEq_parts]

theorem State.startCmd_auxEq (s : State) (x : InFlight) : (State.startCmd s x).aux = s.aux := by
  unfold State.startCmd
  repeat' first
    | with_reducible rfl
    | with_reducible apply auxEq_ite
    | (simp only [↓State.openRemote_auxEq, ↓State.originate_auxEq, ↓State.modHif_auxEq, ↓State.castAsleep_auxEq, ↓State.wakePart_auxEq, ↓State.startGroup_auxEq, ↓State.queueCompletion_auxEq, auxEq_mk]; done)
    | split
    | simp only [↓State.openRemote_auxEq, ↓State.originate_auxEq, ↓State.modHif_auxEq, ↓State.castAsleep_auxEq, ↓State.wakePart_auxEq, ↓State.startGroup_auxEq, ↓State.queueCompletion_auxEq, auxEq_mk, auxEq_parts]

theorem State.startWaiting_auxEq (s : State) (n : Nat) : (s.startWaiting n).aux = s.aux := by
  induction n generalizing s with
  | zero => rfl
  | succ n ih =>
    unfold State.startWaiting
    split
    · rfl
    · exact (ih _).trans (State.startCmd_auxEq ..)

theorem State.startAll_auxEq (s : State) : (State.startAll s).aux = s.aux := by
  unfold State.startAll
  simp only [↓State.startWaiting_auxEq, auxEq_mk, auxEq_parts]

theorem State.finishRead_auxEq (s : State) (c : Cmd) (lost : List Nat) (got : List (Nat × List Byte)) : (State.finishRead s c lost got).aux = s.aux := by
  unfold State.finishRead
  simp only [↓State.completeData_auxEq, auxEq_mk, auxEq_parts]

theorem State.endClosed_auxEq (s : State) : (State.endClosed s).aux = s.aux := by
  unfold State.endClosed
  repeat' first
    | with_reducible rfl
    | with_reducible apply auxEq_ite
    | with_reducible refine (foldl_auxEq (fun _ _ => ?_) _ _).trans ?_
    | (simp only [↓State.modHif_auxEq, ↓State.completeOpt_auxEq, auxEq_mk]; done)
    | split
    | simp only [↓State.modHif_auxEq, ↓State.completeOpt_auxEq, auxEq_mk, auxEq_parts]

theorem State.noteActivity_auxEq (s : State) : (State.noteActivity s).aux = s.aux := rfl

theorem State.undoze_auxEq (s : State) : (State.undoze s).aux = s.aux := by
  unfold State.undoze
  repeat' first
    | with_reducible rfl
    | with_reducible apply auxEq_ite
    | with_reducible refine (foldl_auxEq (fun _ _ => ?_) _ _).trans ?_
    | (simp only [↓State.accrueTest_auxEq, ↓State.fastDomain_auxEq, ↓State.noteActivity_auxEq, auxEq_mk]; done)
    | split
    | simp only [↓State.accrueTest_auxEq, ↓State.fastDomain_auxEq, ↓State.noteActivity_auxEq, auxEq_mk, auxEq_parts]

theorem State.sign_auxEq (s : State) (key : Nat) (msg : List Byte) : (State.sign s key msg).2.aux = s.aux := by
  unfold State.sign
  simp only [↓State.drawBits_auxEq, auxEq_mk, auxEq_parts]

theorem State.commitMeter_auxEq (s : State) (warn : Bool) : (State.commitMeter s warn).aux = s.aux := by
  unfold State.commitMeter
  simp only [State.modTrust, State.modCfg, auxEq_mk, auxEq_parts]

theorem State.srcIdent_auxEq (s : State) (p : Nat) : (State.srcIdent s p).2.aux = s.aux := by
  unfold State.srcIdent
  repeat' first
    | with_reducible rfl
    | with_reducible apply auxEq_ite
    | (simp only [↓State.drawBits_auxEq, auxEq_mk]; done)
    | split
    | simp only [↓State.drawBits_auxEq, auxEq_mk, auxEq_parts]

theorem State.statementHead_auxEq (s : State) (c : Cmd) : (State.statementHead s c).2.aux = s.aux := by
  unfold State.statementHead
  repeat' first
    | with_reducible rfl
    | with_reducible apply auxEq_ite
    | (simp only [↓State.srcIdent_auxEq, auxEq_mk]; done)
    | split
    | simp only [↓State.srcIdent_auxEq, auxEq_mk, auxEq_parts]

theorem State.formStatement_auxEq (s : State) (c : Cmd) : (State.formStatement s c).aux = s.aux := by
  unfold State.formStatement
  split <;> simp only [↓State.complete_auxEq, ↓State.completeData_auxEq, ↓State.statementHead_auxEq, ↓State.sign_auxEq, ↓State.event_auxEq, State.modTrust, State.modCfg, auxEq_mk, auxEq_parts]

theorem State.formStatements_auxEq (s : State) : (State.formStatements s).aux = s.aux := by
  unfold State.formStatements
  repeat' first
    | with_reducible rfl
    | with_reducible apply auxEq_ite
    | with_reducible refine (foldl_auxEq (fun _ _ => ?_) _ _).trans ?_
    | (simp only [↓State.formStatement_auxEq, State.modTrust, State.modCfg, auxEq_mk]; done)
    | split
    | simp only [↓State.formStatement_auxEq, State.modTrust, State.modCfg, auxEq_mk, auxEq_parts]

theorem State.noteImage_auxEq (s : State) (kind sub : Nat) (b : List Byte) : (State.noteImage s kind sub b).aux = s.aux := by
  unfold State.noteImage
  simp only [↓State.blackBox_auxEq, ↓State.event_auxEq, auxEq_mk, auxEq_parts]

theorem State.tasksHome_auxEq (s : State) (k : Nat) : (State.tasksHome s k).aux = s.aux := by
  unfold State.tasksHome
  repeat' first
    | with_reducible rfl
    | with_reducible apply auxEq_ite
    | with_reducible refine onDie_auxEq (fun _ => ?_) ?_
    | (simp only [↓State.modDie_auxEq, ↓State.loadState_auxEq, auxEq_mk]; done)
    | split
    | simp only [↓State.modDie_auxEq, ↓State.loadState_auxEq, auxEq_mk, auxEq_parts]

theorem State.beginSpan_auxEq (s : State) (a : Activation) : (State.beginSpan s a).aux = s.aux := by
  unfold State.beginSpan
  simp only [↓State.modDies_auxEq, State.modTrust, State.modCfg, auxEq_mk, auxEq_parts]

theorem State.beginApex_auxEq (s : State) (a : Activation) : (State.beginApex s a).aux = s.aux := by
  unfold State.beginApex
  split <;> simp only [↓State.complete_auxEq, ↓State.accrueTest_auxEq, ↓State.noteImage_auxEq, State.modTrust, State.modCfg, auxEq_mk, auxEq_parts]

theorem State.bbBytes_auxEq (s : State) (w : BbWait) (unsign : Bool) : (State.bbBytes s w unsign).2.aux = s.aux := by
  unfold State.bbBytes
  split <;> simp only [↓State.sign_auxEq, auxEq_mk, auxEq_parts]

theorem State.writeBb_auxEq (s : State) (okA okB : Bool) : (s.writeBb okA okB).aux = s.aux := by
  unfold State.writeBb
  split
  · rfl
  · dsimp only
    repeat' first
      | with_reducible rfl
      | with_reducible apply auxEq_ite
      | simp only [↓State.originate_auxEq, ↓State.event_auxEq, State.modTrust, TrustState.putBb, auxEq_mk, auxEq_parts, ↓State.bbBytes_auxEq]

theorem State.writeAllBb_auxEq (s : State) (n : Nat) : (s.writeAllBb n).aux = s.aux := by
  induction n generalizing s with
  | zero => rfl
  | succ n ih =>
    unfold State.writeAllBb
    exact auxEq_ite rfl ((ih _).trans (State.writeBb_auxEq ..))

theorem State.drainPort_auxEq (s : State) (side : Side) (tcs : List Nat) (n : Nat) :
    (s.drainPort side tcs n).aux = s.aux := by
  induction n generalizing s with
  | zero => rfl
  | succ n ih =>
    unfold State.drainPort
    refine auxEq_ite rfl ?_
    split
    · rfl
    · exact (ih _).trans ((State.emit_auxEq ..).trans (State.modPort_auxEq ..))

theorem State.drainUrgent_auxEq (s : State) : (State.drainUrgent s).aux = s.aux := by
  unfold State.drainUrgent
  simp only [↓State.drainPort_auxEq, auxEq_mk, auxEq_parts]

theorem State.dropHops_auxEq (s : State) : (State.dropHops s).aux = s.aux := by
  unfold State.dropHops
  simp only [↓State.modPort_auxEq, ↓State.hopDown_auxEq, auxEq_mk, auxEq_parts]

theorem State.debugRecord_auxEq (s : State) (level : Nat) (awake : Bool) (signer : List Byte) : (State.debugRecord s level awake signer).aux = s.aux := by
  unfold State.debugRecord
  simp only [↓State.blackBox_auxEq, auxEq_mk, auxEq_parts]

theorem State.onSwp_auxEq {s : State} {p : Nat} {f : SwpPort → State} {x : List SwpPort × List ChkUnit × ThermState} (h : ∀ d, (f d).aux = x)
    (hs : s.aux = x) : (s.onSwp p f).aux = x := by
  unfold State.onSwp
  refine auxEq_ite hs ?_
  split
  · exact hs
  · exact h _

theorem State.stepTests_auxEq (s : State) (levels tp : List Bool) : (State.stepTests s levels tp).aux = s.aux := by
  unfold State.stepTests
  repeat' first
    | with_reducible rfl
    | with_reducible apply auxEq_ite
    | with_reducible refine (foldl_auxEq (fun _ _ => ?_) _ _).trans ?_
    | (simp only [↓State.event_auxEq, ↓State.latch_auxEq, auxEq_mk]; done)
    | split
    | simp only [↓State.event_auxEq, ↓State.latch_auxEq, auxEq_mk, auxEq_parts]

theorem State.stepInput_auxEq (s : State) (levels : List Bool) (i : Nat) : (State.stepInput s levels i).aux = s.aux := by
  unfold State.stepInput
  repeat' first
    | with_reducible rfl
    | with_reducible apply auxEq_ite
    | (simp only [↓State.event_auxEq, ↓State.latch_auxEq, auxEq_mk]; done)
    | split
    | simp only [↓State.event_auxEq, ↓State.latch_auxEq, auxEq_mk, auxEq_parts]

theorem State.stepFeedback_auxEq (s : State) (fb : List Bool) (k : Nat) : (State.stepFeedback s fb k).aux = s.aux := by
  unfold State.stepFeedback
  repeat' first
    | with_reducible rfl
    | with_reducible apply auxEq_ite
    | (simp only [↓State.event_auxEq, ↓State.latch_auxEq, auxEq_mk]; done)
    | split
    | simp only [↓State.event_auxEq, ↓State.latch_auxEq, auxEq_mk, auxEq_parts]

theorem State.stepLorst_auxEq (s : State) (high : Bool) : (State.stepLorst s high).aux = s.aux := rfl

theorem State.measureAux_auxEq (s : State) : (State.measureAux s).aux = s.aux := by
  unfold State.measureAux
  simp only [↓State.drawBits_auxEq, auxEq_mk, auxEq_parts]

theorem State.endPulse_auxEq (s : State) (o : Nat) : (State.endPulse s o).aux = s.aux := by
  unfold State.endPulse
  repeat' first
    | with_reducible rfl
    | with_reducible apply auxEq_ite
    | (simp only [↓State.emit_auxEq, auxEq_mk]; done)
    | split
    | simp only [↓State.emit_auxEq, auxEq_mk, auxEq_parts]

theorem State.countFrameError_auxEq (s : State) (conn sub : Nat) : (State.countFrameError s conn sub).aux = s.aux := by
  unfold State.countFrameError
  simp only [↓State.event_auxEq, auxEq_mk, auxEq_parts]

theorem State.modWatch_auxEq (s : State) (p : Nat) (f : WatchPos → WatchPos) : (State.modWatch s p f).aux = s.aux := rfl

theorem State.connError_auxEq (s : State) (p : Nat) : (State.connError s p).aux = s.aux := by
  unfold State.connError
  repeat' first
    | with_reducible rfl
    | with_reducible apply auxEq_ite
    | (simp only [↓State.modWatch_auxEq, ↓State.latch_auxEq, auxEq_mk]; done)
    | split
    | simp only [↓State.modWatch_auxEq, ↓State.latch_auxEq, auxEq_mk, auxEq_parts]

theorem State.validFrame_auxEq (s : State) (p : Nat) (b : List Byte) : (State.validFrame s p b).aux = s.aux := by
  unfold State.validFrame
  repeat' first
    | with_reducible rfl
    | with_reducible apply auxEq_ite
    | (simp only [↓State.modWatch_auxEq, ↓State.evalOuts_auxEq, ↓State.event_auxEq, ↓State.latch_auxEq, auxEq_mk]; done)
    | split
    | simp only [↓State.modWatch_auxEq, ↓State.evalOuts_auxEq, ↓State.event_auxEq, ↓State.latch_auxEq, auxEq_mk, auxEq_parts]

theorem State.hostFrame_auxEq (s : State) (b : List Byte) : (State.hostFrame s b).aux = s.aux := by
  unfold State.hostFrame
  repeat' first
    | with_reducible rfl
    | with_reducible apply auxEq_ite
    | (simp only [↓State.countFrameError_auxEq, ↓State.evalOuts_auxEq, ↓State.event_auxEq, auxEq_mk]; done)
    | split
    | simp only [↓State.countFrameError_auxEq, ↓State.evalOuts_auxEq, ↓State.event_auxEq, auxEq_mk, auxEq_parts]

theorem State.disarmAll_auxEq (s : State) : s.disarmAll.aux = s.aux := by
  unfold State.disarmAll
  refine (State.evalOuts_auxEq _).trans ?_
  exact auxEq_ite ((State.latch_auxEq ..).trans rfl) rfl

theorem State.dropPlace_auxEq (s : State) : (State.dropPlace s).aux = s.aux := rfl

theorem State.becomeFrontier_auxEq (s : State) : (State.becomeFrontier s).aux = s.aux := rfl

theorem State.startEnumeration_auxEq (s : State) (cmd : Option Cmd) : (State.startEnumeration s cmd).aux = s.aux := by
  unfold State.startEnumeration
  repeat' first
    | with_reducible rfl
    | with_reducible apply auxEq_ite
    | with_reducible refine (foldl_auxEq (fun _ _ => ?_) _ _).trans ?_
    | (simp only [↓State.becomeFrontier_auxEq, ↓State.queueCompletion_auxEq, ↓State.dropPlace_auxEq, ↓State.takeBlock_auxEq, ↓State.cancelPend_auxEq, ↓State.disarmAll_auxEq, ↓State.originate_auxEq, auxEq_mk]; done)
    | split
    | simp only [↓State.becomeFrontier_auxEq, ↓State.queueCompletion_auxEq, ↓State.dropPlace_auxEq, ↓State.takeBlock_auxEq, ↓State.cancelPend_auxEq, ↓State.disarmAll_auxEq, ↓State.originate_auxEq, auxEq_mk, auxEq_parts]

theorem State.finishEnumeration_auxEq (s : State) (parts : Nat) (closed : Bool) : (State.finishEnumeration s parts closed).aux = s.aux := by
  unfold State.finishEnumeration
  repeat' first
    | with_reducible rfl
    | with_reducible apply auxEq_ite
    | with_reducible refine (foldl_auxEq (fun _ _ => ?_) _ _).trans ?_
    | (simp only [↓State.modPort_auxEq, ↓State.originate_auxEq, ↓State.holderAnew_auxEq, ↓State.event_auxEq, ↓State.flushUnrouted_auxEq, ↓State.startAll_auxEq, ↓State.completeOpt_auxEq, auxEq_mk]; done)
    | split
    | simp only [↓State.modPort_auxEq, ↓State.originate_auxEq, ↓State.holderAnew_auxEq, ↓State.event_auxEq, ↓State.flushUnrouted_auxEq, ↓State.startAll_auxEq, ↓State.completeOpt_auxEq, auxEq_mk, auxEq_parts]

theorem State.endEnumeration_auxEq (s : State) (parts : Nat) (closed : Bool) : (State.endEnumeration s parts closed).aux = s.aux := by
  unfold State.endEnumeration
  repeat' first
    | with_reducible rfl
    | with_reducible apply auxEq_ite
    | (simp only [↓State.originate_auxEq, ↓State.enqueue_auxEq, ↓State.finishEnumeration_auxEq, auxEq_mk]; done)
    | split
    | simp only [↓State.originate_auxEq, ↓State.enqueue_auxEq, ↓State.finishEnumeration_auxEq, auxEq_mk, auxEq_parts]

theorem State.freshHop_auxEq (s : State) (ident next : Nat) : (State.freshHop s ident next).aux = s.aux := by
  unfold State.freshHop
  simp only [↓State.modPort_auxEq, ↓State.startTraining_auxEq, ↓State.hopDown_auxEq, auxEq_mk, auxEq_parts]

theorem State.closeRing_auxEq (s : State) : (State.closeRing s).aux = s.aux := by
  unfold State.closeRing
  repeat' first
    | with_reducible rfl
    | with_reducible apply auxEq_ite
    | (simp only [↓State.endEnumeration_auxEq, auxEq_mk]; done)
    | split
    | simp only [↓State.endEnumeration_auxEq, auxEq_mk, auxEq_parts]

theorem State.tagFailure_auxEq (s : State) (side : Side) : (State.tagFailure s side).aux = s.aux := by
  unfold State.tagFailure
  repeat' first
    | with_reducible rfl
    | with_reducible apply auxEq_ite
    | (simp only [↓State.modPort_auxEq, ↓State.hopDown_auxEq, ↓State.event_auxEq, auxEq_mk]; done)
    | split
    | simp only [↓State.modPort_auxEq, ↓State.hopDown_auxEq, ↓State.event_auxEq, auxEq_mk, auxEq_parts]

theorem State.passTc0_auxEq (s : State) (f : Frame) : (State.passTc0 s f).aux = s.aux := by
  unfold State.passTc0
  split <;> simp only [↓State.freeLinks_auxEq, auxEq_mk, auxEq_parts]

theorem State.takeFrame_auxEq (s : State) (side : Side) (bytes : List Byte) : (State.takeFrame s side bytes).aux = s.aux := by
  unfold State.takeFrame
  repeat' first
    | with_reducible rfl
    | with_reducible apply auxEq_ite
    | with_reducible refine (foldl_auxEq (fun _ _ => ?_) _ _).trans ?_
    | (simp only [↓State.passTc0_auxEq, ↓State.modPort_auxEq, ↓State.tagFailure_auxEq, auxEq_mk]; done)
    | split
    | simp only [↓State.passTc0_auxEq, ↓State.modPort_auxEq, ↓State.tagFailure_auxEq, auxEq_mk, auxEq_parts]

theorem State.exchange_auxEq (s : State) (side : Side) (b : List Byte) : (State.exchange s side b).aux = s.aux := by
  unfold State.exchange
  repeat' first
    | with_reducible rfl
    | with_reducible apply auxEq_ite
    | (simp only [↓State.modPort_auxEq, auxEq_mk]; done)
    | split
    | simp only [↓State.modPort_auxEq, auxEq_mk, auxEq_parts]

theorem State.queueBeacon_auxEq (s : State) (side : Side) (f : Frame) (corr : Nat) : (State.queueBeacon s side f corr).aux = s.aux := by
  unfold State.queueBeacon
  simp only [↓State.enqueue_auxEq, auxEq_mk, auxEq_parts]

theorem State.servo_auxEq (s : State) (ofs : Int) (base : Nat) : (State.servo s ofs base).aux = s.aux := by
  unfold State.servo
  repeat' first
    | with_reducible rfl
    | with_reducible apply auxEq_ite
    | (simp only [↓State.takeStep_auxEq, auxEq_mk]; done)
    | split
    | simp only [↓State.takeStep_auxEq, auxEq_mk, auxEq_parts]

theorem State.commitPackTime_auxEq (s : State) : (State.commitPackTime s).aux = s.aux := by
  unfold State.commitPackTime
  split <;> simp only [auxEq_mk, auxEq_parts]

theorem State.bucketFlag_auxEq (s : State) : (State.bucketFlag s).aux = s.aux := by
  unfold State.bucketFlag
  repeat' first
    | with_reducible rfl
    | with_reducible apply auxEq_ite
    | (simp only [↓State.placement_auxEq, auxEq_mk]; done)
    | split
    | simp only [↓State.placement_auxEq, auxEq_mk, auxEq_parts]

theorem State.failStore_auxEq (s : State) : (State.failStore s).aux = s.aux := by
  unfold State.failStore
  split <;> simp only [↓State.writer_auxEq, ↓State.placement_auxEq, auxEq_mk, auxEq_parts]

theorem State.takeUnits_auxEq {s : State} {but : List Nat} {n : Nat} {r : List Nat × State} (h : s.takeUnits but n = some r) :
    r.2.aux = s.aux := by
  induction n generalizing s r with
  | zero => cases h; rfl
  | succ m ih =>
    unfold State.takeUnits at h
    obtain ⟨b, hb, h⟩ := Option.bind_eq_some_iff.1 h
    obtain ⟨x, hx, rfl⟩ := Option.map_eq_some_iff.1 h
    exact (ih hx).trans (State.targetBlock_auxEq hb)

theorem State.copyBlock_auxEq {s t : State} {i : Nat} (h : s.copyBlock i = some t) : t.aux = s.aux := by
  unfold State.copyBlock at h
  have key : ∀ (l : List (List Rec)) (f : State → List Rec → Option State) (_ : ∀ u r v, f u r = some v → v.aux = u.aux)
      (o : Option State), l.foldl (fun acc r => acc.bind fun u => f u r) o = some t → ∃ u, o = some u ∧ t.aux = u.aux := by
    intro l f hf
    induction l with
    | nil => exact fun o h => ⟨t, h, rfl⟩
    | cons a l ih =>
      intro o h
      obtain ⟨u, hu, ht⟩ := ih _ h
      obtain ⟨v, hv, hf'⟩ := Option.bind_eq_some_iff.1 hu
      exact ⟨v, hv, ht.trans (hf _ _ _ hf')⟩
  obtain ⟨u, hu, ht⟩ := key _ _ (fun u r v hv => by
    obtain ⟨x, hx, rfl⟩ := Option.map_eq_some_iff.1 hv
    exact (State.takeUnits_auxEq hx)) _ h
  cases hu
  exact ht

theorem State.levelWear_auxEq (s : State) : s.levelWear.aux = s.aux := by
  unfold State.levelWear
  dsimp only
  split
  · rfl
  · refine auxEq_ite rfl ?_
    split
    · rfl
    · rename_i t h
      exact (show _ = t.aux from rfl).trans (State.copyBlock_auxEq h)

theorem State.moveRetired_auxEq (s : State) : s.moveRetired.aux = s.aux := by
  unfold State.moveRetired
  refine foldl_auxEq (fun s b => auxEq_ite rfl ?_) _ _
  cases h : s.copyBlock b.idx with
  | none => rfl
  | some t => exact State.copyBlock_auxEq h

theorem State.retireBlock_auxEq (s : State) (i : Nat) : (s.retireBlock i).aux = s.aux := by
  unfold State.retireBlock
  exact auxEq_ite ((State.failStore_auxEq _).trans ((State.placement_auxEq ..).trans rfl))
    ((State.moveRetired_auxEq _).trans ((State.placement_auxEq ..).trans rfl))

theorem State.spillUnit_auxEq (s : State) (u : OpenUnit) (holder : Nat) : (State.spillUnit s u holder).aux = s.aux := by
  unfold State.spillUnit
  repeat' first
    | with_reducible rfl
    | with_reducible apply auxEq_ite
    | with_reducible refine (foldl_auxEq (fun _ _ => ?_) _ _).trans ?_
    | (simp only [↓State.originate_auxEq, auxEq_mk]; done)
    | split
    | simp only [↓State.originate_auxEq, auxEq_mk, auxEq_parts]

theorem State.programUnit_auxEq (s : State) (u : OpenUnit) (i : Nat) : (s.programUnit u i).aux = s.aux := by
  unfold State.programUnit
  exact (State.bucketFlag_auxEq _).trans ((State.levelWear_auxEq _).trans rfl)

theorem State.programHead_auxEq (s : State) (ok : Bool) : (s.programHead ok).aux = s.aux := by
  unfold State.programHead
  split
  · rfl
  · dsimp only
    split
    · exact auxEq_ite ((State.writer_auxEq _).trans ((State.programUnit_auxEq ..).trans rfl))
        ((State.writer_auxEq _).trans ((State.retireBlock_auxEq ..).trans rfl))
    · refine auxEq_ite rfl ?_
      split
      · rfl
      · exact auxEq_ite ((State.writer_auxEq _).trans ((State.spillUnit_auxEq ..).trans rfl)) rfl

theorem State.abandon_auxEq (s : State) (groups : List Nat) : (State.abandon s groups).aux = s.aux := rfl

theorem State.abandonD3_auxEq (s : State) : (State.abandonD3 s).aux = s.aux := by
  unfold State.abandonD3
  repeat' first
    | with_reducible rfl
    | with_reducible apply auxEq_ite
    | with_reducible refine (foldl_auxEq (fun _ _ => ?_) _ _).trans ?_
    | (simp only [↓State.countDrop_auxEq, ↓State.abandon_auxEq, auxEq_mk]; done)
    | split
    | simp only [↓State.countDrop_auxEq, ↓State.abandon_auxEq, auxEq_mk, auxEq_parts]

theorem State.programAll_auxEq (s : State) (n : Nat) : (s.programAll n).aux = s.aux := by
  induction n generalizing s with
  | zero => rfl
  | succ n ih =>
    unfold State.programAll
    exact auxEq_ite rfl ((ih _).trans ((State.programHead_auxEq ..).trans (State.startUnit_auxEq ..)))

theorem State.writeDir_auxEq (s : State) : (State.writeDir s).aux = s.aux := rfl

theorem State.locusWarning_auxEq (s : State) (holdMs : Nat) : (State.locusWarning s holdMs).aux = s.aux := by
  unfold State.locusWarning
  repeat' first
    | with_reducible rfl
    | with_reducible apply auxEq_ite
    | (simp only [↓State.writeDir_auxEq, ↓State.programHead_auxEq, ↓State.programAll_auxEq, ↓State.abandonD3_auxEq, auxEq_mk]; done)
    | split
    | simp only [↓State.writeDir_auxEq, ↓State.programHead_auxEq, ↓State.programAll_auxEq, ↓State.abandonD3_auxEq, auxEq_mk, auxEq_parts]

theorem State.locusSleep_auxEq (s : State) : (State.locusSleep s).aux = s.aux := by
  unfold State.locusSleep
  split <;> simp only [↓State.writeDir_auxEq, ↓State.programAll_auxEq, auxEq_mk, auxEq_parts]

theorem State.locusRestart_auxEq (s : State) : (State.locusRestart s).aux = s.aux := rfl

theorem State.adoptLocus_auxEq (s : State) : (State.adoptLocus s).aux = s.aux := by
  unfold State.adoptLocus
  split <;> simp only [↓State.takeBlock_auxEq, auxEq_mk, auxEq_parts]

theorem State.modPower_auxEq (s : State) (f : PowerState → PowerState) : (State.modPower s f).aux = s.aux := rfl

theorem State.modRail_auxEq (s : State) (i : Nat) (f : Rail → Rail) : (State.modRail s i f).aux = s.aux := by
  unfold State.modRail
  simp only [↓State.modPower_auxEq, auxEq_mk, auxEq_parts]

theorem State.setHoldEff_auxEq (s : State) : (State.setHoldEff s).aux = s.aux := by
  unfold State.setHoldEff
  simp only [↓State.modPower_auxEq, auxEq_mk, auxEq_parts]

theorem State.chooseSrc_auxEq (s : State) : (State.chooseSrc s).aux = s.aux := by
  unfold State.chooseSrc
  simp only [↓State.modPower_auxEq, auxEq_mk, auxEq_parts]

theorem State.countRail_auxEq (s : State) (i kind : Nat) : (State.countRail s i kind).aux = s.aux := by
  unfold State.countRail
  simp only [↓State.modRail_auxEq, ↓State.event_auxEq, auxEq_mk, auxEq_parts]

theorem State.copyCounters_auxEq (s : State) : (State.copyCounters s).aux = s.aux := by
  unfold State.copyCounters
  simp only [↓State.blackBox_auxEq, ↓State.modPower_auxEq, auxEq_mk, auxEq_parts]

theorem State.enableNext_auxEq (s : State) : (State.enableNext s).aux = s.aux := by
  unfold State.enableNext
  split <;> simp only [↓State.modRail_auxEq, ↓State.modPower_auxEq, auxEq_mk, auxEq_parts]

theorem State.startUp_auxEq (s : State) : (State.startUp s).aux = s.aux := by
  unfold State.startUp
  simp only [↓State.enableNext_auxEq, ↓State.modPower_auxEq, auxEq_mk, auxEq_parts]

theorem State.tearWrites_auxEq (s : State) : (State.tearWrites s).aux = s.aux := by
  unfold State.tearWrites
  simp only [↓State.at__auxEq, ↓State.modDies_auxEq, State.modTrust, State.modCfg, auxEq_mk, auxEq_parts]

theorem State.downDone_auxEq (s : State) : (State.downDone s).aux = s.aux := by
  unfold State.downDone
  repeat' first
    | with_reducible rfl
    | with_reducible apply auxEq_ite
    | (simp only [↓State.accrueTest_auxEq, ↓State.modPower_auxEq, ↓State.tearWrites_auxEq, auxEq_mk]; done)
    | split
    | simp only [↓State.accrueTest_auxEq, ↓State.modPower_auxEq, ↓State.tearWrites_auxEq, auxEq_mk, auxEq_parts]

theorem State.downStep_auxEq (s : State) : (State.downStep s).aux = s.aux := by
  unfold State.downStep
  split <;> simp only [↓State.modRail_auxEq, ↓State.downDone_auxEq, ↓State.modPower_auxEq, auxEq_mk, auxEq_parts]

theorem State.startDown_auxEq (s : State) (target : Nat) : (State.startDown s target).aux = s.aux := by
  unfold State.startDown
  repeat' first
    | with_reducible rfl
    | with_reducible apply auxEq_ite
    | (simp only [↓State.downStep_auxEq, ↓State.modRail_auxEq, ↓State.modPower_auxEq, auxEq_mk]; done)
    | split
    | simp only [↓State.downStep_auxEq, ↓State.modRail_auxEq, ↓State.modPower_auxEq, auxEq_mk, auxEq_parts]

theorem State.turnDown_auxEq (s : State) (target : Nat) : (State.turnDown s target).aux = s.aux := by
  unfold State.turnDown
  simp only [↓State.downStep_auxEq, ↓State.modRail_auxEq, ↓State.modPower_auxEq, auxEq_mk, auxEq_parts]

theorem State.padOff_auxEq (s : State) : (State.padOff s).aux = s.aux := by
  unfold State.padOff
  split <;> simp only [↓State.emit_auxEq, auxEq_mk, auxEq_parts]

theorem State.testPads_auxEq (s : State) (level : Nat) : (State.testPads s level).aux = s.aux := by
  unfold State.testPads
  split <;> simp only [↓State.emit_auxEq, auxEq_mk, auxEq_parts]

theorem State.diesCutOff_auxEq (s : State) : (State.diesCutOff s).aux = s.aux := by
  unfold State.diesCutOff
  repeat' first
    | with_reducible rfl
    | with_reducible apply auxEq_ite
    | with_reducible refine (foldl_auxEq (fun _ _ => ?_) _ _).trans ?_
    | (simp only [↓State.fastOff_auxEq, auxEq_mk]; done)
    | split
    | simp only [↓State.fastOff_auxEq, auxEq_mk, auxEq_parts]

theorem State.compareBb_auxEq (s : State) : (State.compareBb s).aux = s.aux := by
  unfold State.compareBb
  repeat' first
    | with_reducible rfl
    | with_reducible apply auxEq_ite
    | with_reducible refine (foldl_auxEq (fun _ _ => ?_) _ _).trans ?_
    | (simp only [↓State.event_auxEq, State.modTrust, State.modCfg, auxEq_mk]; done)
    | split
    | simp only [↓State.event_auxEq, State.modTrust, State.modCfg, auxEq_mk, auxEq_parts]

theorem State.loadLockout_auxEq (s : State) : (State.loadLockout s).aux = s.aux := by
  unfold State.loadLockout
  repeat' first
    | with_reducible rfl
    | with_reducible apply auxEq_ite
    | with_reducible refine (foldl_auxEq (fun _ _ => ?_) _ _).trans ?_
    | (simp only [↓State.outsOff_auxEq, auxEq_mk]; done)
    | split
    | simp only [↓State.outsOff_auxEq, auxEq_mk, auxEq_parts]

theorem State.startPackTime_auxEq (s : State) (fromOff : Bool) : (State.startPackTime s fromOff).aux = s.aux := by
  unfold State.startPackTime
  repeat' first
    | with_reducible rfl
    | with_reducible apply auxEq_ite
    | (simp only [auxEq_mk]; done)
    | split
    | simp only [auxEq_mk, auxEq_parts]

theorem State.startStore_auxEq (s : State) (storeFail reset : Bool) : (State.startStore s storeFail reset).aux = s.aux := by
  unfold State.startStore
  repeat' first
    | with_reducible rfl
    | with_reducible apply auxEq_ite
    | (simp only [↓State.failStore_auxEq, auxEq_mk]; done)
    | split
    | simp only [↓State.failStore_auxEq, auxEq_mk, auxEq_parts]

theorem State.startEvents_auxEq (s : State) (left : Bool) : (State.startEvents s left).aux = s.aux := by
  unfold State.startEvents
  repeat' first
    | with_reducible rfl
    | with_reducible apply auxEq_ite
    | (simp only [↓State.modPower_auxEq, ↓State.event_auxEq, auxEq_mk]; done)
    | split
    | simp only [↓State.modPower_auxEq, ↓State.event_auxEq, auxEq_mk, auxEq_parts]

theorem State.takeStrap_auxEq (s : State) (reads : List Nat) : (State.takeStrap s reads).aux = s.aux := rfl

theorem State.raiseWarning_auxEq (s : State) (item : Nat) : (State.raiseWarning s item).aux = s.aux := by
  unfold State.raiseWarning
  split <;> simp only [↓State.modPower_auxEq, ↓State.event_auxEq, auxEq_mk, auxEq_parts]

theorem State.ageStates_auxEq (s : State) : (State.ageStates s).aux = s.aux := by
  unfold State.ageStates
  split <;> simp only [↓State.modPower_auxEq, ↓State.modDies_auxEq, auxEq_mk, auxEq_parts]

theorem State.wake_auxEq (s : State) (code : Nat) : (State.wake s code).aux = s.aux := by
  unfold State.wake
  repeat' first
    | with_reducible rfl
    | with_reducible apply auxEq_ite
    | (simp only [↓State.modPower_auxEq, ↓State.ageStates_auxEq, ↓State.startUp_auxEq, State.modTrust, State.modCfg, auxEq_mk]; done)
    | split
    | simp only [↓State.modPower_auxEq, ↓State.ageStates_auxEq, ↓State.startUp_auxEq, State.modTrust, State.modCfg, auxEq_mk, auxEq_parts]

theorem State.markRan_auxEq (s : State) (c : Cmd) : (State.markRan s c).aux = s.aux := rfl

theorem State.serve_auxEq {s : State} {code : Nat} {c : Cmd} {mine : Bool} {f : State → State} {x : List SwpPort × List ChkUnit × ThermState}
    (h : ∀ t : State, t.aux = x → (f t).aux = x) (hs : s.aux = x) : (s.serve code c mine f).aux = x := by
  unfold State.serve
  have h0 : ((s.undoze).markRan c).aux = x := ((State.markRan_auxEq ..).trans (State.undoze_auxEq _)).trans hs
  refine auxEq_ite hs ?_
  dsimp only
  split
  · exact (State.complete_auxEq ..).trans h0
  · exact h _ h0

theorem State.claimHeld_auxEq (s : State) (sub : Nat) (r : Rec) : (State.claimHeld s sub r).aux = s.aux := by
  unfold State.claimHeld
  repeat' first
    | with_reducible rfl
    | with_reducible apply auxEq_ite
    | (simp only [↓State.queueClaim_auxEq, ↓State.noteClaims_auxEq, ↓State.modHif_auxEq, auxEq_mk]; done)
    | split
    | simp only [↓State.queueClaim_auxEq, ↓State.noteClaims_auxEq, ↓State.modHif_auxEq, auxEq_mk, auxEq_parts]

theorem State.openSub_auxEq (s : State) (c : Cmd) : (State.openSub s c).aux = s.aux := by
  unfold State.openSub
  repeat' first
    | with_reducible rfl
    | with_reducible apply auxEq_ite
    | with_reducible refine (foldl_auxEq (fun _ _ => ?_) _ _).trans ?_
    | (simp only [↓State.openFastStream_auxEq, ↓State.sendClaims_auxEq, ↓State.noteClaims_auxEq, ↓State.modHif_auxEq, ↓State.claimHeld_auxEq, auxEq_mk]; done)
    | split
    | simp only [↓State.openFastStream_auxEq, ↓State.sendClaims_auxEq, ↓State.noteClaims_auxEq, ↓State.modHif_auxEq, ↓State.claimHeld_auxEq, auxEq_mk, auxEq_parts]

theorem State.armCapture_auxEq (s : State) (k a : Nat) (c : Cmd) : (State.armCapture s k a c).aux = s.aux := by
  unfold State.armCapture
  repeat' first
    | with_reducible rfl
    | with_reducible apply auxEq_ite
    | with_reducible refine onDie_auxEq (fun _ => ?_) ?_
    | (simp only [↓State.modDie_auxEq, ↓State.tellArmed_auxEq, auxEq_mk]; done)
    | split
    | simp only [↓State.modDie_auxEq, ↓State.tellArmed_auxEq, auxEq_mk, auxEq_parts]

theorem State.catchUp_auxEq (s : State) (k : Nat) : (State.catchUp s k).aux = s.aux := by
  unfold State.catchUp
  refine onDie_auxEq (fun _ => ?_) ?_ <;> simp only [↓State.modDie_auxEq, ↓State.adoptImp_auxEq, ↓State.adoptEst_auxEq, ↓State.takePrec_auxEq, ↓State.adoptSeq_auxEq, auxEq_mk, auxEq_parts]

theorem State.measurePower_auxEq (s : State) : (State.measurePower s).aux = s.aux := by
  unfold State.measurePower
  simp only [↓State.drawBits_auxEq, ↓State.modPower_auxEq, auxEq_mk, auxEq_parts]

theorem State.readConfig_auxEq (s : State) (c : Cmd) : (State.readConfig s c).aux = s.aux := by
  unfold State.readConfig
  repeat' first
    | with_reducible rfl
    | with_reducible apply auxEq_ite
    | (simp only [↓State.catchUp_auxEq, ↓State.measurePower_auxEq, ↓State.completeData_auxEq, ↓State.complete_auxEq, auxEq_mk]; done)
    | split
    | simp only [↓State.catchUp_auxEq, ↓State.measurePower_auxEq, ↓State.completeData_auxEq, ↓State.complete_auxEq, auxEq_mk, auxEq_parts]

theorem State.markTargets_auxEq (s : State) (block target off len : Nat) : (State.markTargets s block target off len).aux = s.aux := by
  unfold State.markTargets
  split <;> simp only [↓State.modDie_auxEq, auxEq_mk, auxEq_parts]

theorem State.putShadow_auxEq (s : State) (c : Cmd) (data : List Byte) : (State.putShadow s c data).aux = s.aux := by
  unfold State.putShadow
  simp only [State.modCfg, ↓State.markTargets_auxEq, ↓State.completeX_auxEq, auxEq_mk, auxEq_parts]

theorem State.takeCommit_auxEq (s : State) (c : Cmd) : (State.takeCommit s c).aux = s.aux := by
  unfold State.takeCommit
  repeat' first
    | with_reducible rfl
    | with_reducible apply auxEq_ite
    | (simp only [State.modCfg, ↓State.complete_auxEq, auxEq_mk]; done)
    | split
    | simp only [State.modCfg, ↓State.complete_auxEq, auxEq_mk, auxEq_parts]

theorem State.sayPrepared_auxEq (s : State) (p : PendCommit) : (State.sayPrepared s p).aux = s.aux := by
  unfold State.sayPrepared
  repeat' first
    | with_reducible rfl
    | with_reducible apply auxEq_ite
    | (simp only [State.modCfg, ↓State.originate_auxEq, auxEq_mk]; done)
    | split
    | simp only [State.modCfg, ↓State.originate_auxEq, auxEq_mk, auxEq_parts]

theorem State.swapTargets_auxEq (s : State) (old : List Host.Cell) (k : Nat) : (State.swapTargets s old k).aux = s.aux := by
  unfold State.swapTargets
  simp only [↓State.modDie_auxEq, auxEq_mk, auxEq_parts]

theorem State.swapDie_auxEq (s : State) (tc k : Nat) : (State.swapDie s tc k).aux = s.aux := by
  unfold State.swapDie
  simp only [↓State.swapCal_auxEq, ↓State.swapFast_auxEq, ↓State.fastDomain_auxEq, ↓State.modDie_auxEq, auxEq_mk, auxEq_parts]

theorem State.endGroup_auxEq (s : State) (st : Status) : (State.endGroup s st).aux = s.aux := by
  unfold State.endGroup
  repeat' first
    | with_reducible rfl
    | with_reducible apply auxEq_ite
    | (simp only [State.modCfg, ↓State.complete_auxEq, ↓State.evalOuts_auxEq, auxEq_mk]; done)
    | split
    | simp only [State.modCfg, ↓State.complete_auxEq, ↓State.evalOuts_auxEq, auxEq_mk, auxEq_parts]

theorem State.holdGo_auxEq (s : State) : (State.holdGo s).aux = s.aux := by
  unfold State.holdGo
  simp only [State.modCfg, auxEq_mk, auxEq_parts]

theorem State.takeGroupFrame_auxEq (s : State) (what : Nat) : (State.takeGroupFrame s what).2.aux = s.aux := by
  unfold State.takeGroupFrame
  split <;> simp only [↓State.accept_auxEq, auxEq_mk, auxEq_parts]

theorem State.barAccess_auxEq (s : State) (off size : Nat) : (State.barAccess s off size).2.aux = s.aux := by
  unfold State.barAccess
  split <;> simp only [↓State.undoze_auxEq, auxEq_mk, auxEq_parts]

theorem State.writeCtrl_auxEq (s : State) (v : Nat) : (State.writeCtrl s v).aux = s.aux := by
  unfold State.writeCtrl
  repeat' first
    | with_reducible rfl
    | with_reducible apply auxEq_ite
    | (simp only [↓State.checkDrain_auxEq, ↓State.hifFatal_auxEq, ↓State.modHif_auxEq, ↓State.event_auxEq, ↓State.hifClear_auxEq, auxEq_mk]; done)
    | split
    | simp only [↓State.checkDrain_auxEq, ↓State.hifFatal_auxEq, ↓State.modHif_auxEq, ↓State.event_auxEq, ↓State.hifClear_auxEq, auxEq_mk, auxEq_parts]

theorem State.abortUnsent_auxEq (s : State) (n : Nat) : (State.abortUnsent s n).aux = s.aux := by
  unfold State.abortUnsent
  repeat' first
    | with_reducible rfl
    | with_reducible apply auxEq_ite
    | with_reducible refine (foldl_auxEq (fun _ _ => ?_) _ _).trans ?_
    | (simp only [↓State.queueCompletion_auxEq, auxEq_mk]; done)
    | split
    | simp only [↓State.queueCompletion_auxEq, auxEq_mk, auxEq_parts]

theorem State.writeSqCfg_auxEq (s : State) (n v : Nat) : (State.writeSqCfg s n v).aux = s.aux := by
  unfold State.writeSqCfg
  repeat' first
    | with_reducible rfl
    | with_reducible apply auxEq_ite
    | (simp only [↓State.checkDrain_auxEq, ↓State.putSq_auxEq, ↓State.abortUnsent_auxEq, auxEq_mk]; done)
    | split
    | simp only [↓State.checkDrain_auxEq, ↓State.putSq_auxEq, ↓State.abortUnsent_auxEq, auxEq_mk, auxEq_parts]

theorem State.writeCqCfg_auxEq (s : State) (n v : Nat) : (State.writeCqCfg s n v).aux = s.aux := by
  unfold State.writeCqCfg
  repeat' first
    | with_reducible rfl
    | with_reducible apply auxEq_ite
    | (simp only [↓State.checkDrain_auxEq, ↓State.putCq_auxEq, auxEq_mk]; done)
    | split
    | simp only [↓State.checkDrain_auxEq, ↓State.putCq_auxEq, auxEq_mk, auxEq_parts]

theorem State.writeStrCfg_auxEq (s : State) (r v : Nat) : (State.writeStrCfg s r v).aux = s.aux := by
  unfold State.writeStrCfg
  repeat' first
    | with_reducible rfl
    | with_reducible apply auxEq_ite
    | with_reducible refine (foldl_auxEq (fun _ _ => ?_) _ _).trans ?_
    | (simp only [↓State.modHif_auxEq, ↓State.checkDrain_auxEq, ↓State.unclaim_auxEq, ↓State.putStr_auxEq, auxEq_mk]; done)
    | split
    | simp only [↓State.modHif_auxEq, ↓State.checkDrain_auxEq, ↓State.unclaim_auxEq, ↓State.putStr_auxEq, auxEq_mk, auxEq_parts]

theorem State.startPoll_auxEq (s : State) : (State.startPoll s).aux = s.aux := by
  unfold State.startPoll
  simp only [↓State.modHif_auxEq, ↓State.emit_auxEq, auxEq_mk, auxEq_parts]

theorem State.kicked_auxEq (s : State) : (State.kicked s).aux = s.aux := by
  unfold State.kicked
  repeat' first
    | with_reducible rfl
    | with_reducible apply auxEq_ite
    | (simp only [↓State.modHif_auxEq, ↓State.startPoll_auxEq, auxEq_mk]; done)
    | split
    | simp only [↓State.modHif_auxEq, ↓State.startPoll_auxEq, auxEq_mk, auxEq_parts]

theorem State.unmask_auxEq (s : State) (v : Nat) : (State.unmask s v).aux = s.aux := by
  unfold State.unmask
  repeat' first
    | with_reducible rfl
    | with_reducible apply auxEq_ite
    | (simp only [↓State.modHif_auxEq, ↓State.emit_auxEq, auxEq_mk]; done)
    | split
    | simp only [↓State.modHif_auxEq, ↓State.emit_auxEq, auxEq_mk, auxEq_parts]

theorem State.writeMsix_auxEq (s : State) (off v : Nat) : (State.writeMsix s off v).aux = s.aux := by
  unfold State.writeMsix
  repeat' first
    | with_reducible rfl
    | with_reducible apply auxEq_ite
    | (simp only [↓State.modHif_auxEq, ↓State.unmask_auxEq, auxEq_mk]; done)
    | split
    | simp only [↓State.modHif_auxEq, ↓State.unmask_auxEq, auxEq_mk, auxEq_parts]

theorem State.writeReg_auxEq (s : State) (off v : Nat) : (State.writeReg s off v).aux = s.aux := by
  unfold State.writeReg
  repeat' first
    | with_reducible rfl
    | with_reducible apply auxEq_ite
    | (simp only [↓State.modHif_auxEq, ↓State.writeCtrl_auxEq, ↓State.putStr_auxEq, ↓State.writeSqCfg_auxEq, ↓State.putCq_auxEq, ↓State.putSq_auxEq, ↓State.kicked_auxEq, ↓State.writeCqCfg_auxEq, ↓State.writeStrCfg_auxEq, auxEq_mk]; done)
    | split
    | simp only [↓State.modHif_auxEq, ↓State.writeCtrl_auxEq, ↓State.putStr_auxEq, ↓State.writeSqCfg_auxEq, ↓State.putCq_auxEq, ↓State.putSq_auxEq, ↓State.kicked_auxEq, ↓State.writeCqCfg_auxEq, ↓State.writeStrCfg_auxEq, auxEq_mk, auxEq_parts]

theorem State.takeSqTail_auxEq (s : State) (n w : Nat) : (State.takeSqTail s n w).aux = s.aux := by
  unfold State.takeSqTail
  repeat' first
    | with_reducible rfl
    | with_reducible apply auxEq_ite
    | (simp only [↓State.queueError_auxEq, ↓State.putSq_auxEq, auxEq_mk]; done)
    | split
    | simp only [↓State.queueError_auxEq, ↓State.putSq_auxEq, auxEq_mk, auxEq_parts]

theorem State.takeCqHead_auxEq (s : State) (n w : Nat) : (State.takeCqHead s n w).aux = s.aux := by
  unfold State.takeCqHead
  repeat' first
    | with_reducible rfl
    | with_reducible apply auxEq_ite
    | (simp only [↓State.queueError_auxEq, ↓State.putCq_auxEq, auxEq_mk]; done)
    | split
    | simp only [↓State.queueError_auxEq, ↓State.putCq_auxEq, auxEq_mk, auxEq_parts]

theorem State.takeEqHead_auxEq (s : State) (w : Nat) : (State.takeEqHead s w).aux = s.aux := by
  unfold State.takeEqHead
  repeat' first
    | with_reducible rfl
    | with_reducible apply auxEq_ite
    | (simp only [↓State.putEq_auxEq, ↓State.queueError_auxEq, auxEq_mk]; done)
    | split
    | simp only [↓State.putEq_auxEq, ↓State.queueError_auxEq, auxEq_mk, auxEq_parts]

theorem State.takeStrHead_auxEq (s : State) (r w : Nat) : (State.takeStrHead s r w).aux = s.aux := by
  unfold State.takeStrHead
  repeat' first
    | with_reducible rfl
    | with_reducible apply auxEq_ite
    | with_reducible refine (foldl_auxEq (fun _ _ => ?_) _ _).trans ?_
    | (simp only [↓State.unclaim_auxEq, ↓State.modHif_auxEq, ↓State.putStr_auxEq, ↓State.queueError_auxEq, auxEq_mk]; done)
    | split
    | simp only [↓State.unclaim_auxEq, ↓State.modHif_auxEq, ↓State.putStr_auxEq, ↓State.queueError_auxEq, auxEq_mk, auxEq_parts]

theorem State.readRanges_auxEq (s : State) (rs : List (Nat × Nat)) : (State.readRanges s rs).aux = s.aux := by
  unfold State.readRanges
  repeat' first
    | with_reducible rfl
    | with_reducible apply auxEq_ite
    | with_reducible refine (foldl_auxEq (fun _ _ => ?_) _ _).trans ?_
    | (simp only [↓State.emit_auxEq, auxEq_mk]; done)
    | split
    | simp only [↓State.emit_auxEq, auxEq_mk, auxEq_parts]

theorem State.takeDescriptor_auxEq (s : State) (c : Cmd) (b list data : List Byte) : (State.takeDescriptor s c b list data).aux = s.aux := by
  unfold State.takeDescriptor
  repeat' first
    | with_reducible rfl
    | with_reducible apply auxEq_ite
    | with_reducible refine (foldl_auxEq (fun _ _ => ?_) _ _).trans ?_
    | (simp only [↓State.modHif_auxEq, ↓State.readRanges_auxEq, ↓State.startAll_auxEq, ↓State.queueCompletion_auxEq, auxEq_mk]; done)
    | split
    | simp only [↓State.modHif_auxEq, ↓State.readRanges_auxEq, ↓State.startAll_auxEq, ↓State.queueCompletion_auxEq, auxEq_mk, auxEq_parts]

theorem State.writeCompletion_auxEq (s : State) (cq : Nat) (w : ComplWait) : (s.writeCompletion cq w).aux = s.aux := by
  unfold State.writeCompletion
  dsimp only
  refine (State.startAll_auxEq _).trans ?_
  refine (State.signal_auxEq fun q s => State.putCq_auxEq ..).trans ?_
  repeat' first
    | with_reducible rfl
    | with_reducible apply auxEq_ite
    | simp only [↓State.emit_auxEq, ↓State.putCq_auxEq, ↓State.modHif_auxEq, auxEq_mk, auxEq_parts]

theorem State.writeEntry_auxEq (s : State) (addr : Nat) (head body last : List Byte) : (State.writeEntry s addr head body last).aux = s.aux := by
  unfold State.writeEntry
  split <;> simp only [↓State.emit_auxEq, auxEq_mk, auxEq_parts]

theorem State.writeStream_auxEq (s : State) (w : StrWait) : (s.writeStream w).aux = s.aux := by
  unfold State.writeStream
  refine (State.signal_auxEq fun q s => State.putStr_auxEq ..).trans ?_
  exact (State.modHif_auxEq ..).trans ((State.putStr_auxEq ..).trans ((State.writeEntry_auxEq ..).trans (auxEq_ite (State.writeEntry_auxEq ..) rfl)))

theorem State.writeEvent_auxEq (s : State) (w : EvWait) : (s.writeEvent w).aux = s.aux := by
  unfold State.writeEvent
  refine (State.signal_auxEq fun q s => State.putEq_auxEq ..).trans ?_
  have h : ∀ (a : State) (l : LocusState), ({ a with locus := l } : State).aux = a.aux := fun _ _ => rfl
  exact (h _ _).trans ((State.modHif_auxEq ..).trans ((State.putEq_auxEq ..).trans (State.emit_auxEq ..)))

theorem State.coalesced_auxEq {s : State} {q : Queue} {put : Queue → State → State}
    (h : ∀ q s, (put q s).aux = s.aux) : (s.coalesced q put).aux = s.aux := by
  unfold State.coalesced
  split
  · rfl
  · exact auxEq_ite rfl ((State.raiseVector_auxEq ..).trans (h _ _))

theorem State.dmaEvent_auxEq (s : State) (sq cid addr : Nat) : (State.dmaEvent s sq cid addr).aux = s.aux := by
  unfold State.dmaEvent
  simp only [↓State.event_auxEq, auxEq_mk, auxEq_parts]

theorem State.readFailed_auxEq (s : State) (sq : Nat) (a : HostAccess) : (State.readFailed s sq a).aux = s.aux := by
  unfold State.readFailed
  repeat' first
    | with_reducible rfl
    | with_reducible apply auxEq_ite
    | (simp only [↓State.dmaEvent_auxEq, ↓State.startAll_auxEq, ↓State.queueCompletion_auxEq, auxEq_mk]; done)
    | split
    | simp only [↓State.dmaEvent_auxEq, ↓State.startAll_auxEq, ↓State.queueCompletion_auxEq, auxEq_mk, auxEq_parts]

theorem State.writeFailed_auxEq (s : State) (sq : Nat) (a : HostAccess) : (State.writeFailed s sq a).aux = s.aux := by
  unfold State.writeFailed
  repeat' first
    | with_reducible rfl
    | with_reducible apply auxEq_ite
    | (simp only [↓State.modHif_auxEq, ↓State.dmaEvent_auxEq, auxEq_mk]; done)
    | split
    | simp only [↓State.modHif_auxEq, ↓State.dmaEvent_auxEq, auxEq_mk, auxEq_parts]

theorem State.closeFor_auxEq (s : State) (sub : Nat) : (State.closeFor s sub).aux = s.aux := by
  unfold State.closeFor
  split <;> simp only [↓State.modHif_auxEq, ↓State.endSub_auxEq, auxEq_mk, auxEq_parts]

theorem State.notePrepared_auxEq (s : State) (sq cid pos : Nat) : (State.notePrepared s sq cid pos).aux = s.aux := by
  unfold State.notePrepared
  repeat' first
    | with_reducible rfl
    | with_reducible apply auxEq_ite
    | (simp only [auxEq_mk]; done)
    | split
    | simp only [auxEq_mk, auxEq_parts]

theorem State.resend_auxEq (s : State) (k : Nat) (d : Die) : (State.resend s k d).aux = s.aux := by
  unfold State.resend
  repeat' first
    | with_reducible rfl
    | with_reducible apply auxEq_ite
    | with_reducible refine (foldl_auxEq (fun _ _ => ?_) _ _).trans ?_
    | (simp only [↓State.dieEventFull_auxEq, ↓State.place_auxEq, auxEq_mk]; done)
    | split
    | simp only [↓State.dieEventFull_auxEq, ↓State.place_auxEq, auxEq_mk, auxEq_parts]

theorem State.ownerRoom_auxEq {s t : State} {owner n fuel : Nat} (h : s.ownerRoom owner n fuel = some t) : t.aux = s.aux := by
  induction fuel generalizing s with
  | zero => cases h
  | succ m ih =>
    unfold State.ownerRoom at h
    split at h
    · cases h; rfl
    · split at h
      · cases h
      · exact (ih h).trans rfl

theorem State.takeSpill_auxEq (s : State) (owner : Nat) (x : List Byte) : (s.takeSpill owner x).aux = s.aux := by
  unfold State.takeSpill
  dsimp only
  refine auxEq_ite rfl ?_
  split
  · rfl
  · rename_i r h
    obtain ⟨u, hu, hr⟩ := Option.bind_eq_some_iff.mp h
    exact (State.writer_auxEq _).trans ((State.tierFor_auxEq hr).trans (State.ownerRoom_auxEq hu))

theorem State.answerHolder_auxEq (s : State) (pos owner recType src : Nat) : (State.answerHolder s pos owner recType src).aux = s.aux := by
  unfold State.answerHolder
  simp only [↓State.originate_auxEq, auxEq_mk, auxEq_parts]

theorem State.takeHeld_auxEq (s : State) (pos : Nat) (b : List Byte) : (State.takeHeld s pos b).aux = s.aux := by
  unfold State.takeHeld
  repeat' first
    | with_reducible rfl
    | with_reducible apply auxEq_ite
    | with_reducible refine (foldl_auxEq (fun _ _ => ?_) _ _).trans ?_
    | (simp only [↓State.finishRead_auxEq, auxEq_mk]; done)
    | split
    | simp only [↓State.finishRead_auxEq, auxEq_mk, auxEq_parts]

theorem State.evaluateDie_auxEq (s : State) (k : Nat) (load cluster : Rat) : (State.evaluateDie s k load cluster).aux = s.aux := by
  unfold State.evaluateDie
  repeat' first
    | with_reducible rfl
    | with_reducible apply auxEq_ite
    | with_reducible refine onDie_auxEq (fun _ => ?_) ?_
    | (simp only [↓State.modDie_auxEq, ↓State.placement_auxEq, ↓State.stopInjection_auxEq, auxEq_mk]; done)
    | split
    | simp only [↓State.modDie_auxEq, ↓State.placement_auxEq, ↓State.stopInjection_auxEq, auxEq_mk, auxEq_parts]

theorem State.noteInput_auxEq (s : State) (which : Nat) (v : Rat) : (State.noteInput s which v).aux = s.aux := by
  unfold State.noteInput
  simp only [↓State.modPower_auxEq, auxEq_mk, auxEq_parts]

theorem State.setInput_auxEq (s : State) (which : Nat) (ok : Bool) : (State.setInput s which ok).aux = s.aux := by
  unfold State.setInput
  simp only [↓State.modPower_auxEq, auxEq_mk, auxEq_parts]

theorem State.inputsGone_auxEq (s : State) (which : Nat) : (State.inputsGone s which).aux = s.aux := by
  unfold State.inputsGone
  repeat' first
    | with_reducible rfl
    | with_reducible apply auxEq_ite
    | (simp only [↓State.raiseWarning_auxEq, ↓State.modPower_auxEq, ↓State.startDown_auxEq, auxEq_mk]; done)
    | split
    | simp only [↓State.raiseWarning_auxEq, ↓State.modPower_auxEq, ↓State.startDown_auxEq, auxEq_mk, auxEq_parts]

theorem State.railUp_auxEq (s : State) (t rail : Nat) : (State.railUp s t rail).aux = s.aux := by
  unfold State.railUp
  repeat' first
    | with_reducible rfl
    | with_reducible apply auxEq_ite
    | (simp only [↓State.modRail_auxEq, ↓State.modPower_auxEq, auxEq_mk]; done)
    | split
    | simp only [↓State.modRail_auxEq, ↓State.modPower_auxEq, auxEq_mk, auxEq_parts]

theorem State.endReset_auxEq (s : State) (cause : Nat) (strap : List Nat) : (State.endReset s cause strap).aux = s.aux := by
  unfold State.endReset
  repeat' first
    | with_reducible rfl
    | with_reducible apply auxEq_ite
    | (simp only [↓State.modPower_auxEq, ↓State.wake_auxEq, ↓State.takeStrap_auxEq, ↓State.startUp_auxEq, auxEq_mk]; done)
    | split
    | simp only [↓State.modPower_auxEq, ↓State.wake_auxEq, ↓State.takeStrap_auxEq, ↓State.startUp_auxEq, auxEq_mk, auxEq_parts]

theorem State.holdBlock_auxEq (s : State) (k b : Nat) : (State.holdBlock s k b).aux = s.aux := by
  unfold State.holdBlock
  repeat' first
    | with_reducible rfl
    | with_reducible apply auxEq_ite
    | (simp only [↓State.modDie_auxEq, auxEq_mk]; done)
    | split
    | simp only [↓State.modDie_auxEq, auxEq_mk, auxEq_parts]

theorem State.startSlice_auxEq (s : State) (k b : Nat) : (State.startSlice s k b).aux = s.aux := by
  unfold State.startSlice
  simp only [↓State.modTest_auxEq, ↓State.holdBlock_auxEq, ↓State.takePrec_auxEq, auxEq_mk, auxEq_parts]

theorem State.loseCover_auxEq (s : State) (k i : Nat) (cell : Option Nat) : (State.loseCover s k i cell).aux = s.aux := by
  unfold State.loseCover
  repeat' first
    | with_reducible rfl
    | with_reducible apply auxEq_ite
    | with_reducible refine onDie_auxEq (fun _ => ?_) ?_
    | (simp only [↓State.modDie_auxEq, ↓State.abortSlice_auxEq, auxEq_mk]; done)
    | split
    | simp only [↓State.modDie_auxEq, ↓State.abortSlice_auxEq, auxEq_mk, auxEq_parts]

theorem State.substitute_auxEq (s : State) (k n : Nat) : (State.substitute s k n).aux = s.aux := by
  unfold State.substitute
  refine onDie_auxEq (fun _ => ?_) ?_
  · split <;> simp only [↓State.dieEvent_auxEq, ↓State.modDie_auxEq, ↓State.loseCover_auxEq, auxEq_mk, auxEq_parts]
  · simp only [↓State.dieEvent_auxEq, ↓State.modDie_auxEq, ↓State.loseCover_auxEq, auxEq_mk, auxEq_parts]

theorem State.modulatorFailed_auxEq (s : State) (k n : Nat) : (State.modulatorFailed s k n).aux = s.aux := by
  unfold State.modulatorFailed
  repeat' first
    | with_reducible rfl
    | with_reducible apply auxEq_ite
    | with_reducible refine onDie_auxEq (fun _ => ?_) ?_
    | (simp only [↓State.dieEvent_auxEq, ↓State.modDie_auxEq, ↓State.loseCover_auxEq, ↓State.substitute_auxEq, auxEq_mk]; done)
    | split
    | simp only [↓State.dieEvent_auxEq, ↓State.modDie_auxEq, ↓State.loseCover_auxEq, ↓State.substitute_auxEq, auxEq_mk, auxEq_parts]

theorem State.modulatorPassed_auxEq (s : State) (k n : Nat) : (State.modulatorPassed s k n).aux = s.aux := by
  unfold State.modulatorPassed
  repeat' first
    | with_reducible rfl
    | with_reducible apply auxEq_ite
    | with_reducible refine onDie_auxEq (fun _ => ?_) ?_
    | (simp only [↓State.dieEvent_auxEq, ↓State.modDie_auxEq, auxEq_mk]; done)
    | split
    | simp only [↓State.dieEvent_auxEq, ↓State.modDie_auxEq, auxEq_mk, auxEq_parts]

theorem State.dieBlockFailed_auxEq (s : State) (k b : Nat) : (State.dieBlockFailed s k b).aux = s.aux := by
  unfold State.dieBlockFailed
  repeat' first
    | with_reducible rfl
    | with_reducible apply auxEq_ite
    | with_reducible refine onDie_auxEq (fun _ => ?_) ?_
    | (simp only [↓State.stopFast_auxEq, ↓State.breakLink_auxEq, ↓State.settleChannels_auxEq, ↓State.modDie_auxEq, ↓State.dieEvent_auxEq, ↓State.discardRun_auxEq, ↓State.freeLinks_auxEq, ↓State.modulatorFailed_auxEq, auxEq_mk]; done)
    | split
    | simp only [↓State.stopFast_auxEq, ↓State.breakLink_auxEq, ↓State.settleChannels_auxEq, ↓State.modDie_auxEq, ↓State.dieEvent_auxEq, ↓State.discardRun_auxEq, ↓State.freeLinks_auxEq, ↓State.modulatorFailed_auxEq, auxEq_mk, auxEq_parts]

theorem State.dieBlockPassed_auxEq (s : State) (k b : Nat) : (State.dieBlockPassed s k b).aux = s.aux := by
  unfold State.dieBlockPassed
  repeat' first
    | with_reducible rfl
    | with_reducible apply auxEq_ite
    | with_reducible refine onDie_auxEq (fun _ => ?_) ?_
    | (simp only [↓State.modulatorPassed_auxEq, ↓State.modDie_auxEq, ↓State.dacCleared_auxEq, auxEq_mk]; done)
    | split
    | simp only [↓State.modulatorPassed_auxEq, ↓State.modDie_auxEq, ↓State.dacCleared_auxEq, auxEq_mk, auxEq_parts]

theorem State.linkPassed_auxEq (s : State) (k b : Nat) (had : Bool) : (State.linkPassed s k b had).aux = s.aux := by
  unfold State.linkPassed
  repeat' first
    | with_reducible rfl
    | with_reducible apply auxEq_ite
    | (simp only [↓State.mendLink_auxEq, auxEq_mk]; done)
    | split
    | simp only [↓State.mendLink_auxEq, auxEq_mk, auxEq_parts]

theorem State.hubBlockFailed_auxEq (s : State) (b : Nat) : (State.hubBlockFailed s b).aux = s.aux := by
  unfold State.hubBlockFailed
  split <;> simp only [↓State.latch_auxEq, auxEq_mk, auxEq_parts]

theorem State.endSlice_auxEq (s : State) (k b result : Nat) : (State.endSlice s k b result).aux = s.aux := by
  unfold State.endSlice
  repeat' first
    | with_reducible rfl
    | with_reducible apply auxEq_ite
    | (simp only [↓State.modDie_auxEq, ↓State.accrueTest_auxEq, ↓State.modTest_auxEq, ↓State.dieBlockPassed_auxEq, ↓State.hubBlockFailed_auxEq, ↓State.dieBlockFailed_auxEq, ↓State.linkPassed_auxEq, ↓State.releaseSlice_auxEq, ↓State.testFailed_auxEq, auxEq_mk]; done)
    | split
    | simp only [↓State.modDie_auxEq, ↓State.accrueTest_auxEq, ↓State.modTest_auxEq, ↓State.dieBlockPassed_auxEq, ↓State.hubBlockFailed_auxEq, ↓State.dieBlockFailed_auxEq, ↓State.linkPassed_auxEq, ↓State.releaseSlice_auxEq, ↓State.testFailed_auxEq, auxEq_mk, auxEq_parts]

theorem State.runBlock_auxEq (s : State) (k b result : Nat) (n : Tally) : (State.runBlock s k b result n).1.aux = s.aux := by
  unfold State.runBlock
  split <;> simp only [↓State.startSlice_auxEq, ↓State.endSlice_auxEq, auxEq_mk, auxEq_parts]

theorem State.applyStep_auxEq (s : State) : (State.applyStep s).aux = s.aux := by
  unfold State.applyStep
  repeat' first
    | with_reducible rfl
    | with_reducible apply auxEq_ite
    | with_reducible refine (foldl_auxEq (fun _ _ => ?_) _ _).trans ?_
    | (simp only [↓State.modDies_auxEq, ↓State.applyCap_auxEq, auxEq_mk]; done)
    | split
    | simp only [↓State.modDies_auxEq, ↓State.applyCap_auxEq, auxEq_mk, auxEq_parts]

theorem State.historyBody_auxEq (s : State) : (State.historyBody s).2.aux = s.aux := by
  unfold State.historyBody
  repeat' first
    | with_reducible rfl
    | with_reducible apply auxEq_ite
    | with_reducible refine (foldl_auxEq (fun _ _ => ?_) _ _).trans ?_
    | (simp only [↓State.drawBits_auxEq, auxEq_mk]; done)
    | split
    | simp only [↓State.drawBits_auxEq, auxEq_mk, auxEq_parts]

theorem State.putStaging_auxEq (s : State) (image off total : Nat) (b : List Byte) : (State.putStaging s image off total b).aux = s.aux := by
  unfold State.putStaging
  repeat' first
    | with_reducible rfl
    | with_reducible apply auxEq_ite
    | (simp only [↓State.event_auxEq, State.modTrust, State.modCfg, auxEq_mk]; done)
    | split
    | simp only [↓State.event_auxEq, State.modTrust, State.modCfg, auxEq_mk, auxEq_parts]

theorem State.stageFirmware_auxEq (s : State) (c : Cmd) (data : List Byte) : (State.stageFirmware s c data).aux = s.aux := by
  unfold State.stageFirmware
  repeat' first
    | with_reducible rfl
    | with_reducible apply auxEq_ite
    | (simp only [↓State.complete_auxEq, ↓State.completeX_auxEq, ↓State.putStaging_auxEq, auxEq_mk]; done)
    | split
    | simp only [↓State.complete_auxEq, ↓State.completeX_auxEq, ↓State.putStaging_auxEq, auxEq_mk, auxEq_parts]

theorem State.verifyImage_auxEq (s : State) (image : Nat) (b : List Byte) (total : Nat) : (State.verifyImage s image b total).2.aux = s.aux := by
  unfold State.verifyImage
  simp only [↓State.event_auxEq, auxEq_mk, auxEq_parts]

theorem State.withStaged_auxEq {s : State} {c : Cmd} {f : State → List Byte → State} {x : List SwpPort × List ChkUnit × ThermState}
    (h : ∀ (t : State) (b : List Byte), t.aux = x → (f t b).aux = x) (hs : s.aux = x) :
    (s.withStaged c f).aux = x := by
  unfold State.withStaged
  dsimp only
  exact auxEq_ite ((State.complete_auxEq ..).trans hs)
    (auxEq_ite (h _ _ ((State.verifyImage_auxEq ..).trans hs)) ((State.complete_auxEq ..).trans ((State.verifyImage_auxEq ..).trans hs)))

theorem State.flipSpan_auxEq (s : State) (trial : Bool) : (State.flipSpan s trial).aux = s.aux := by
  unfold State.flipSpan
  simp only [↓State.accrueTest_auxEq, State.modTrust, State.modCfg, auxEq_mk, auxEq_parts]

theorem State.lifeEvent_auxEq (s : State) : (State.lifeEvent s).aux = s.aux := by
  unfold State.lifeEvent
  simp only [↓State.event_auxEq, auxEq_mk, auxEq_parts]

theorem State.sealRecord_auxEq (s : State) : (State.sealRecord s).aux = s.aux := by
  unfold State.sealRecord
  simp only [↓State.blackBox_auxEq, auxEq_mk, auxEq_parts]

theorem State.strapToRole_auxEq (s : State) : (State.strapToRole s).aux = s.aux := by
  unfold State.strapToRole
  split <;> simp only [↓State.testPads_auxEq, auxEq_mk, auxEq_parts]

end Sys2Proof.Machine
end

