-- ==== Sys2Proof/Laws/AuxKeptCommands.lean ====
section
/-! SUPPORT. Commands that leave the single-wire ports, the check units and the thermal governor alone. -/

namespace Sys2Proof.Machine

set_option linter.all false
set_option maxRecDepth 4000

theorem State.balancePolicy_auxEq (s : State) (c : Cmd) : (s.balancePolicy c).aux = s.aux := by
  unfold State.balancePolicy
  refine auxEq_ite (State.complete_auxEq ..) ?_
  dsimp only
  split
  · exact State.complete_auxEq ..
  · have h : ∀ (l : List Nat) (f : Die → Die) (g : CfgState → CfgState),
        (l.foldl (fun (s : State) k => s.modDie k f) (s.modCfg g)).aux = s.aux := fun l f g =>
      (foldl_auxEq (fun _ _ => State.modDie_auxEq ..) _ _).trans rfl
    exact auxEq_ite ((State.complete_auxEq ..).trans (h _ _ _)) (Eq.trans rfl (h _ _ _))

theorem State.lifecycle_auxEq {s : State} {c : Cmd} {data : List Byte} {f : State → LifeMsg → State}
    (hf : ∀ s m, (f s m).aux = s.aux) : (s.lifecycle c data f).aux = s.aux := by
  unfold State.lifecycle
  have hn : ∀ b : Bool, (s.modTrust fun x => if b = true then { x with nonce := none } else x).aux = s.aux := fun b => by
    cases b <;> rfl
  refine auxEq_ite (State.complete_auxEq ..) (auxEq_ite (State.complete_auxEq ..) ?_)
  refine auxEq_ite ((hf _ _).trans (hn _)) ((State.complete_auxEq ..).trans ?_)
  exact auxEq_ite ((State.event_auxEq ..).trans (hn _)) (hn _)

theorem execSpareDwellStep_auxEq {t k : Nat} {b : Bool} {zero : Rat} {s : State} {s' : State} (h : execSpareDwellStep t k b zero s = .next s') : s'.aux = s.aux := by
  unfold execSpareDwellStep at h
  cases h
  repeat' first
    | with_reducible rfl
    | with_reducible apply auxEq_ite
    | with_reducible refine onDie_auxEq (fun _ => ?_) ?_
    | (simp only [↓State.at__auxEq, ↓State.takePrec_auxEq, ↓State.modDie_auxEq, auxEq_mk]; done)
    | split
    | simp only [↓State.at__auxEq, ↓State.takePrec_auxEq, ↓State.modDie_auxEq, auxEq_mk, auxEq_parts]

theorem execWarmExpire_auxEq {t k : Nat} {s : State} {s' : State} (h : execWarmExpire t k s = .next s') : s'.aux = s.aux := by
  unfold execWarmExpire at h
  cases h
  refine onDie_auxEq (fun _ => ?_) ?_
  · split <;> simp only [↓State.at__auxEq, ↓State.modDie_auxEq, auxEq_mk, auxEq_parts]
  · simp only [↓State.at__auxEq, ↓State.modDie_auxEq, auxEq_mk, auxEq_parts]

theorem execRefMonitorSample_auxEq {t k : Nat} {ratio : Rat} {s : State} {s' : State} (h : execRefMonitorSample t k ratio s = .next s') : s'.aux = s.aux := by
  unfold execRefMonitorSample at h
  cases h
  repeat' first
    | with_reducible rfl
    | with_reducible apply auxEq_ite
    | with_reducible refine onDie_auxEq (fun _ => ?_) ?_
    | (simp only [↓State.at__auxEq, ↓State.modDie_auxEq, auxEq_mk]; done)
    | split
    | simp only [↓State.at__auxEq, ↓State.modDie_auxEq, auxEq_mk, auxEq_parts]

theorem execRefIntervalClose_auxEq {t k : Nat} {s : State} {s' : State} (h : execRefIntervalClose t k s = .next s') : s'.aux = s.aux := by
  unfold execRefIntervalClose at h
  cases h
  repeat' first
    | with_reducible rfl
    | with_reducible apply auxEq_ite
    | with_reducible refine onDie_auxEq (fun _ => ?_) ?_
    | (simp only [↓State.dieEvent_auxEq, ↓State.at__auxEq, ↓State.discardRun_auxEq, ↓State.modDie_auxEq, auxEq_mk]; done)
    | split
    | simp only [↓State.dieEvent_auxEq, ↓State.at__auxEq, ↓State.discardRun_auxEq, ↓State.modDie_auxEq, auxEq_mk, auxEq_parts]

theorem execGateWindowOpen_auxEq {t k : Nat} {s : State} {s' : State} (h : execGateWindowOpen t k s = .next s') : s'.aux = s.aux := by
  unfold execGateWindowOpen at h
  cases h
  repeat' first
    | with_reducible rfl
    | with_reducible apply auxEq_ite
    | with_reducible refine onDie_auxEq (fun _ => ?_) ?_
    | (simp only [↓State.settleChannels_auxEq, ↓State.at__auxEq, ↓State.modDie_auxEq, ↓State.takePrec_auxEq, auxEq_mk]; done)
    | split
    | simp only [↓State.settleChannels_auxEq, ↓State.at__auxEq, ↓State.modDie_auxEq, ↓State.takePrec_auxEq, auxEq_mk, auxEq_parts]

theorem execGateWindowClose_auxEq {t k : Nat} {s : State} {s' : State} (h : execGateWindowClose t k s = .next s') : s'.aux = s.aux := by
  unfold execGateWindowClose at h
  cases h
  repeat' first
    | with_reducible rfl
    | with_reducible apply auxEq_ite
    | with_reducible refine onDie_auxEq (fun _ => ?_) ?_
    | (simp only [↓State.settleChannels_auxEq, ↓State.at__auxEq, ↓State.owBegin_auxEq, ↓State.modDie_auxEq, auxEq_mk]; done)
    | split
    | simp only [↓State.settleChannels_auxEq, ↓State.at__auxEq, ↓State.owBegin_auxEq, ↓State.modDie_auxEq, auxEq_mk, auxEq_parts]

theorem execImpSegmentEnd_auxEq {t k band : Nat} {s : State} {s' : State} (h : execImpSegmentEnd t k band s = .next s') : s'.aux = s.aux := by
  unfold execImpSegmentEnd at h
  cases h
  repeat' first
    | with_reducible rfl
    | with_reducible apply auxEq_ite
    | with_reducible refine onDie_auxEq (fun _ => ?_) ?_
    | (simp only [↓State.at__auxEq, ↓State.adoptImp_auxEq, ↓State.modDie_auxEq, auxEq_mk]; done)
    | split
    | simp only [↓State.at__auxEq, ↓State.adoptImp_auxEq, ↓State.modDie_auxEq, auxEq_mk, auxEq_parts]

theorem execImpAverageEnd_auxEq {t k band : Nat} {s : State} {s' : State} (h : execImpAverageEnd t k band s = .next s') : s'.aux = s.aux := by
  unfold execImpAverageEnd at h
  cases h
  repeat' first
    | with_reducible rfl
    | with_reducible apply auxEq_ite
    | with_reducible refine (foldl_auxEq (fun _ _ => ?_) _ _).trans ?_
    | with_reducible refine onDie_auxEq (fun _ => ?_) ?_
    | (simp only [↓State.at__auxEq, ↓State.dieEvent_auxEq, ↓State.adoptImp_auxEq, ↓State.dieRecord_auxEq, ↓State.modDie_auxEq, auxEq_mk]; done)
    | split
    | simp only [↓State.at__auxEq, ↓State.dieEvent_auxEq, ↓State.adoptImp_auxEq, ↓State.dieRecord_auxEq, ↓State.modDie_auxEq, auxEq_mk, auxEq_parts]

theorem execInjectionChip_auxEq {t k : Nat} {s : State} {s' : State} (h : execInjectionChip t k s = .next s') : s'.aux = s.aux := by
  unfold execInjectionChip at h
  cases h
  repeat' first
    | with_reducible rfl
    | with_reducible apply auxEq_ite
    | with_reducible refine onDie_auxEq (fun _ => ?_) ?_
    | (simp only [↓State.settleChannels_auxEq, ↓State.beginInjection_auxEq, ↓State.at__auxEq, ↓State.stopInjection_auxEq, ↓State.modDie_auxEq, ↓State.adoptImp_auxEq, auxEq_mk]; done)
    | split
    | simp only [↓State.settleChannels_auxEq, ↓State.beginInjection_auxEq, ↓State.at__auxEq, ↓State.stopInjection_auxEq, ↓State.modDie_auxEq, ↓State.adoptImp_auxEq, auxEq_mk, auxEq_parts]

theorem execFastFrameHold_auxEq {t k : Nat} {v : HoldInput} {zero ref : Rat} {s : State} {s' : State} (h : execFastFrameHold t k v zero ref s = .next s') : s'.aux = s.aux := by
  unfold execFastFrameHold at h
  cases h
  repeat' first
    | with_reducible rfl
    | with_reducible apply auxEq_ite
    | with_reducible refine onDie_auxEq (fun _ => ?_) ?_
    | (simp only [↓State.feedImp_auxEq, ↓State.at__auxEq, ↓State.settleChannels_auxEq, ↓State.adoptImp_auxEq, ↓State.fastDomain_auxEq, ↓State.closeCapture_auxEq, ↓State.takePrec_auxEq, ↓State.modDie_auxEq, ↓State.feedStream_auxEq, auxEq_mk]; done)
    | split
    | simp only [↓State.feedImp_auxEq, ↓State.at__auxEq, ↓State.settleChannels_auxEq, ↓State.adoptImp_auxEq, ↓State.fastDomain_auxEq, ↓State.closeCapture_auxEq, ↓State.takePrec_auxEq, ↓State.modDie_auxEq, ↓State.feedStream_auxEq, auxEq_mk, auxEq_parts]

theorem execCaptureTimerTrigger_auxEq {t k : Nat} {s : State} {s' : State} (h : execCaptureTimerTrigger t k s = .next s') : s'.aux = s.aux := by
  unfold execCaptureTimerTrigger at h
  cases h
  repeat' first
    | with_reducible rfl
    | with_reducible apply auxEq_ite
    | with_reducible refine onDie_auxEq (fun _ => ?_) ?_
    | (simp only [↓State.at__auxEq, ↓State.triggerCapture_auxEq, auxEq_mk]; done)
    | split
    | simp only [↓State.at__auxEq, ↓State.triggerCapture_auxEq, auxEq_mk, auxEq_parts]

theorem execCarrierBeaconReceive_auxEq {t a te : Nat} {s : State} {s' : State} (h : execCarrierBeaconReceive t a te s = .next s') : s'.aux = s.aux := by
  unfold execCarrierBeaconReceive at h
  cases h
  repeat' first
    | with_reducible rfl
    | with_reducible apply auxEq_ite
    | with_reducible refine (foldl_auxEq (fun _ _ => ?_) _ _).trans ?_
    | with_reducible refine onDie_auxEq (fun _ => ?_) ?_
    | (simp only [↓State.at__auxEq, ↓State.triggerCapture_auxEq, auxEq_mk]; done)
    | split
    | simp only [↓State.at__auxEq, ↓State.triggerCapture_auxEq, auxEq_mk, auxEq_parts]

theorem execCaptureEdgeTimeout_auxEq {t k : Nat} {s : State} {s' : State} (h : execCaptureEdgeTimeout t k s = .next s') : s'.aux = s.aux := by
  unfold execCaptureEdgeTimeout at h
  cases h
  repeat' first
    | with_reducible rfl
    | with_reducible apply auxEq_ite
    | with_reducible refine onDie_auxEq (fun _ => ?_) ?_
    | (simp only [↓State.completeOpt_auxEq, ↓State.at__auxEq, ↓State.dieEvent_auxEq, ↓State.modDie_auxEq, ↓State.unarm_auxEq, auxEq_mk]; done)
    | split
    | simp only [↓State.completeOpt_auxEq, ↓State.at__auxEq, ↓State.dieEvent_auxEq, ↓State.modDie_auxEq, ↓State.unarm_auxEq, auxEq_mk, auxEq_parts]

theorem execCaptureBlockDrain_auxEq {t k : Nat} {s : State} {s' : State} (h : execCaptureBlockDrain t k s = .next s') : s'.aux = s.aux := by
  unfold execCaptureBlockDrain at h
  cases h
  repeat' first
    | with_reducible rfl
    | with_reducible apply auxEq_ite
    | with_reducible refine onDie_auxEq (fun _ => ?_) ?_
    | (simp only [↓State.at__auxEq, ↓State.place_auxEq, ↓State.modDie_auxEq, auxEq_mk]; done)
    | split
    | simp only [↓State.at__auxEq, ↓State.place_auxEq, ↓State.modDie_auxEq, auxEq_mk, auxEq_parts]

theorem execSyncInEdge_auxEq {t : Nat} {rising : Bool} {stableNs : Nat} {s : State} {s' : State} (h : execSyncInEdge t rising stableNs s = .next s') : s'.aux = s.aux := by
  unfold execSyncInEdge at h
  cases h
  repeat' first
    | with_reducible rfl
    | with_reducible apply auxEq_ite
    | with_reducible refine (foldl_auxEq (fun _ _ => ?_) _ _).trans ?_
    | with_reducible refine onDie_auxEq (fun _ => ?_) ?_
    | (simp only [↓State.at__auxEq, ↓State.originate_auxEq, ↓State.triggerCapture_auxEq, auxEq_mk]; done)
    | split
    | simp only [↓State.at__auxEq, ↓State.originate_auxEq, ↓State.triggerCapture_auxEq, auxEq_mk, auxEq_parts]

theorem execCurrentBlockSend_auxEq {t : Nat} {s : State} {s' : State} (h : execCurrentBlockSend t s = .next s') : s'.aux = s.aux := by
  unfold execCurrentBlockSend at h
  dsimp only at h
  split at h
  · cases h
    exact State.at__auxEq ..
  · cases h
    refine onDie_auxEq (fun _ => ?_) ((State.adoptImp_auxEq ..).trans (State.at__auxEq ..))
    refine auxEq_ite ((State.adoptImp_auxEq ..).trans (State.at__auxEq ..)) ?_
    refine (foldl_auxEq (fun _ _ => State.takeCurrentBlock_auxEq ..) _ _).trans ((State.originate_auxEq ..).trans ?_)
    exact (State.adoptImp_auxEq ..).trans (State.at__auxEq ..)

theorem execCurrentBlockReceive_auxEq {t : Nat} {bytes : List Byte} {s : State} {s' : State} (h : execCurrentBlockReceive t bytes s = .next s') : s'.aux = s.aux := by
  unfold execCurrentBlockReceive at h
  cases h
  repeat' first
    | with_reducible rfl
    | with_reducible apply auxEq_ite
    | with_reducible refine (foldl_auxEq (fun _ _ => ?_) _ _).trans ?_
    | (simp only [↓State.at__auxEq, ↓State.takeCurrentBlock_auxEq, ↓State.accept_auxEq, auxEq_mk]; done)
    | split
    | simp only [↓State.at__auxEq, ↓State.takeCurrentBlock_auxEq, ↓State.accept_auxEq, auxEq_mk, auxEq_parts]

theorem execCurrentBlockMissing_auxEq {t t0 : Nat} {s : State} {s' : State} (h : execCurrentBlockMissing t t0 s = .next s') : s'.aux = s.aux := by
  unfold execCurrentBlockMissing at h
  cases h
  repeat' first
    | with_reducible rfl
    | with_reducible apply auxEq_ite
    | with_reducible refine (foldl_auxEq (fun _ _ => ?_) _ _).trans ?_
    | (simp only [↓State.at__auxEq, ↓State.missCurrentBlock_auxEq, auxEq_mk]; done)
    | split
    | simp only [↓State.at__auxEq, ↓State.missCurrentBlock_auxEq, auxEq_mk, auxEq_parts]

theorem execChargeBlockSend_auxEq {t : Nat} {s : State} {s' : State} (h : execChargeBlockSend t s = .next s') : s'.aux = s.aux := by
  unfold execChargeBlockSend at h
  cases h
  exact (foldl_auxEq (fun _ _ => State.sendChargeBlock_auxEq ..) _ _).trans ((State.adoptEst_auxEq _).trans (State.at__auxEq ..))

theorem execChargeBlockReceive_auxEq {t : Nat} {bytes : List Byte} {s : State} {s' : State} (h : execChargeBlockReceive t bytes s = .next s') : s'.aux = s.aux := by
  unfold execChargeBlockReceive at h
  cases h
  split <;> simp only [↓State.at__auxEq, ↓State.takeChargeBlock_auxEq, ↓State.accept_auxEq, auxEq_mk, auxEq_parts]

theorem execChargeBlockMissing_auxEq {t t0 : Nat} {s : State} {s' : State} (h : execChargeBlockMissing t t0 s = .next s') : s'.aux = s.aux := by
  unfold execChargeBlockMissing at h
  cases h
  repeat' first
    | with_reducible rfl
    | with_reducible apply auxEq_ite
    | with_reducible refine (foldl_auxEq (fun _ _ => ?_) _ _).trans ?_
    | (simp only [↓State.at__auxEq, ↓State.adoptEst_auxEq, ↓State.accrueDebt_auxEq, ↓State.hubDraw_auxEq, ↓State.meterGap_auxEq, ↓State.missChargeBlock_auxEq, auxEq_mk]; done)
    | split
    | simp only [↓State.at__auxEq, ↓State.adoptEst_auxEq, ↓State.accrueDebt_auxEq, ↓State.hubDraw_auxEq, ↓State.meterGap_auxEq, ↓State.missChargeBlock_auxEq, auxEq_mk, auxEq_parts]

theorem execStateSecond_auxEq {t k : Nat} {s : State} {s' : State} (h : execStateSecond t k s = .next s') : s'.aux = s.aux := by
  unfold execStateSecond at h
  cases h
  repeat' first
    | with_reducible rfl
    | with_reducible apply auxEq_ite
    | with_reducible refine onDie_auxEq (fun _ => ?_) ?_
    | (simp only [↓State.at__auxEq, ↓State.dieEvent_auxEq, ↓State.dieRecord_auxEq, ↓State.modDie_auxEq, ↓State.modDies_auxEq, ↓State.noteHistory_auxEq, ↓State.judgeEnds_auxEq, ↓State.adoptEst_auxEq, ↓State.restPoint_auxEq, auxEq_mk]; done)
    | split
    | simp only [↓State.at__auxEq, ↓State.dieEvent_auxEq, ↓State.dieRecord_auxEq, ↓State.modDie_auxEq, ↓State.modDies_auxEq, ↓State.noteHistory_auxEq, ↓State.judgeEnds_auxEq, ↓State.adoptEst_auxEq, ↓State.restPoint_auxEq, auxEq_mk, auxEq_parts]

theorem execStatePersist_auxEq {t k : Nat} {s : State} {s' : State} (h : execStatePersist t k s = .next s') : s'.aux = s.aux := by
  unfold execStatePersist at h
  cases h
  refine onDie_auxEq (fun _ => ?_) ?_
  · split <;> simp only [↓State.persist_auxEq, ↓State.at__auxEq, ↓State.adoptEst_auxEq, auxEq_mk, auxEq_parts]
  · simp only [↓State.persist_auxEq, ↓State.at__auxEq, ↓State.adoptEst_auxEq, auxEq_mk, auxEq_parts]

theorem execSeqWord_auxEq {t k : Nat} {m : Rat} {ovl : Overload} {comply : Bool} {s : State} {s' : State} (h : execSeqWord t k m ovl comply s = .next s') : s'.aux = s.aux := by
  unfold execSeqWord at h
  cases h
  repeat' first
    | with_reducible rfl
    | with_reducible apply auxEq_ite
    | with_reducible refine onDie_auxEq (fun _ => ?_) ?_
    | (simp only [↓State.at__auxEq, ↓State.adoptSeq_auxEq, ↓State.modDie_auxEq, ↓State.dieEventAt_auxEq, auxEq_mk]; done)
    | split
    | simp only [↓State.at__auxEq, ↓State.adoptSeq_auxEq, ↓State.modDie_auxEq, ↓State.dieEventAt_auxEq, auxEq_mk, auxEq_parts]

theorem execSeqEntryEnd_auxEq {t k : Nat} {presence : Bool} {number : Nat} {s : State} {s' : State} (h : execSeqEntryEnd t k presence number s = .next s') : s'.aux = s.aux := by
  unfold execSeqEntryEnd at h
  cases h
  repeat' first
    | with_reducible rfl
    | with_reducible apply auxEq_ite
    | with_reducible refine (foldl_auxEq (fun _ _ => ?_) _ _).trans ?_
    | with_reducible refine onDie_auxEq (fun _ => ?_) ?_
    | (simp only [↓State.emit_auxEq, ↓State.at__auxEq, ↓State.closeEntry_auxEq, ↓State.seqAdvance_auxEq, ↓State.adoptSeq_auxEq, ↓State.modDie_auxEq, auxEq_mk]; done)
    | split
    | simp only [↓State.emit_auxEq, ↓State.at__auxEq, ↓State.closeEntry_auxEq, ↓State.seqAdvance_auxEq, ↓State.adoptSeq_auxEq, ↓State.modDie_auxEq, auxEq_mk, auxEq_parts]

theorem execM30CalInsert_auxEq {t k gain : Nat} {zero : Rat} {zener : ZenerRead} {s : State} {s' : State} (h : execM30CalInsert t k gain zero zener s = .next s') : s'.aux = s.aux := by
  unfold execM30CalInsert at h
  cases h
  repeat' first
    | with_reducible rfl
    | with_reducible apply auxEq_ite
    | with_reducible refine onDie_auxEq (fun _ => ?_) ?_
    | (simp only [↓State.at__auxEq, ↓State.adoptSeq_auxEq, ↓State.modDie_auxEq, auxEq_mk]; done)
    | split
    | simp only [↓State.at__auxEq, ↓State.adoptSeq_auxEq, ↓State.modDie_auxEq, auxEq_mk, auxEq_parts]

theorem execUrgentWorkPreempt_auxEq {t k : Nat} {s : State} {s' : State} (h : execUrgentWorkPreempt t k s = .next s') : s'.aux = s.aux := by
  unfold execUrgentWorkPreempt at h
  cases h
  repeat' first
    | with_reducible rfl
    | with_reducible apply auxEq_ite
    | with_reducible refine onDie_auxEq (fun _ => ?_) ?_
    | (simp only [↓State.at__auxEq, ↓State.closeEntry_auxEq, ↓State.abortSlice_auxEq, ↓State.adoptSeq_auxEq, ↓State.owBegin_auxEq, ↓State.modDie_auxEq, auxEq_mk]; done)
    | split
    | simp only [↓State.at__auxEq, ↓State.closeEntry_auxEq, ↓State.abortSlice_auxEq, ↓State.adoptSeq_auxEq, ↓State.owBegin_auxEq, ↓State.modDie_auxEq, auxEq_mk, auxEq_parts]

theorem execUrgentWorkEnd_auxEq {t k : Nat} {s : State} {s' : State} (h : execUrgentWorkEnd t k s = .next s') : s'.aux = s.aux := by
  unfold execUrgentWorkEnd at h
  cases h
  simp only [↓State.at__auxEq, ↓State.endUrgent_auxEq, ↓State.adoptSeq_auxEq, auxEq_mk, auxEq_parts]

theorem execCalRunClose_auxEq {t k : Nat} {s : State} {s' : State} (h : execCalRunClose t k s = .next s') : s'.aux = s.aux := by
  unfold execCalRunClose at h
  cases h
  repeat' first
    | with_reducible rfl
    | with_reducible apply auxEq_ite
    | with_reducible refine onDie_auxEq (fun _ => ?_) ?_
    | (simp only [↓State.at__auxEq, ↓State.closeRun_auxEq, auxEq_mk]; done)
    | split
    | simp only [↓State.at__auxEq, ↓State.closeRun_auxEq, auxEq_mk, auxEq_parts]

theorem execCalSolveComplete_auxEq {t k : Nat} {s : State} {s' : State} (h : execCalSolveComplete t k s = .next s') : s'.aux = s.aux := by
  unfold execCalSolveComplete at h
  cases h
  repeat' first
    | with_reducible rfl
    | with_reducible apply auxEq_ite
    | with_reducible refine onDie_auxEq (fun _ => ?_) ?_
    | (simp only [↓State.at__auxEq, ↓State.dieEvent_auxEq, ↓State.dieRecord_auxEq, ↓State.modDie_auxEq, ↓State.solveRun_auxEq, auxEq_mk]; done)
    | split
    | simp only [↓State.at__auxEq, ↓State.dieEvent_auxEq, ↓State.dieRecord_auxEq, ↓State.modDie_auxEq, ↓State.solveRun_auxEq, auxEq_mk, auxEq_parts]

theorem execCalExpiry_auxEq {t k c : Nat} {s : State} {s' : State} (h : execCalExpiry t k c s = .next s') : s'.aux = s.aux := by
  unfold execCalExpiry at h
  cases h
  repeat' first
    | with_reducible rfl
    | with_reducible apply auxEq_ite
    | with_reducible refine onDie_auxEq (fun _ => ?_) ?_
    | (simp only [↓State.at__auxEq, ↓State.dieEvent_auxEq, ↓State.modDie_auxEq, auxEq_mk]; done)
    | split
    | simp only [↓State.at__auxEq, ↓State.dieEvent_auxEq, ↓State.modDie_auxEq, auxEq_mk, auxEq_parts]

theorem execPrecisionSample_auxEq {t k : Nat} {v : List Rat} {ovl : List Overload} {tj : Int} {bal : List Rat} {s : State} {s' : State} (h : execPrecisionSample t k v ovl tj bal s = .next s') : s'.aux = s.aux := by
  unfold execPrecisionSample at h
  cases h
  repeat' first
    | with_reducible rfl
    | with_reducible apply auxEq_ite
    | with_reducible refine onDie_auxEq (fun _ => ?_) ?_
    | (simp only [↓State.stepAt_auxEq, ↓State.applyCap_auxEq, ↓State.at__auxEq, ↓State.atSample_auxEq, ↓State.precSample_auxEq, ↓State.modDie_auxEq, auxEq_mk]; done)
    | split
    | simp only [↓State.stepAt_auxEq, ↓State.applyCap_auxEq, ↓State.at__auxEq, ↓State.atSample_auxEq, ↓State.precSample_auxEq, ↓State.modDie_auxEq, auxEq_mk, auxEq_parts]

theorem execComparatorTick_auxEq {t k : Nat} {v : List Rat} {s : State} {s' : State} (h : execComparatorTick t k v s = .next s') : s'.aux = s.aux := by
  unfold execComparatorTick at h
  cases h
  repeat' first
    | with_reducible rfl
    | with_reducible apply auxEq_ite
    | with_reducible refine (foldl_auxEq (fun _ _ => ?_) _ _).trans ?_
    | with_reducible refine onDie_auxEq (fun _ => ?_) ?_
    | (simp only [↓State.heartResume_auxEq, ↓State.judgeReady_auxEq, ↓State.at__auxEq, ↓State.sampleComp_auxEq, ↓State.adoptProt_auxEq, ↓State.applyCap_auxEq, ↓State.modDie_auxEq, ↓State.endSweep_auxEq, auxEq_mk]; done)
    | split
    | simp only [↓State.heartResume_auxEq, ↓State.judgeReady_auxEq, ↓State.at__auxEq, ↓State.sampleComp_auxEq, ↓State.adoptProt_auxEq, ↓State.applyCap_auxEq, ↓State.modDie_auxEq, ↓State.endSweep_auxEq, auxEq_mk, auxEq_parts]

theorem execAoncPowerUp_auxEq {t k : Nat} {s : State} {s' : State} (h : execAoncPowerUp t k s = .next s') : s'.aux = s.aux := by
  unfold execAoncPowerUp at h
  cases h
  refine onDie_auxEq (fun _ => ?_) ?_
  · split <;> simp only [↓State.at__auxEq, ↓State.takeRange_auxEq, ↓State.modDie_auxEq, auxEq_mk, auxEq_parts]
  · simp only [↓State.at__auxEq, ↓State.takeRange_auxEq, ↓State.modDie_auxEq, auxEq_mk, auxEq_parts]

theorem execAoncPowerDown_auxEq {t k : Nat} {s : State} {s' : State} (h : execAoncPowerDown t k s = .next s') : s'.aux = s.aux := by
  unfold execAoncPowerDown at h
  cases h
  refine onDie_auxEq (fun _ => ?_) ?_
  · split <;> simp only [↓State.at__auxEq, ↓State.modDie_auxEq, ↓State.precOff_auxEq, ↓State.heartResume_auxEq, auxEq_mk, auxEq_parts]
  · simp only [↓State.at__auxEq, ↓State.modDie_auxEq, ↓State.precOff_auxEq, ↓State.heartResume_auxEq, auxEq_mk, auxEq_parts]

theorem execFaultNoticeReceive_auxEq {t k : Nat} {side : Side} {intact : Bool} {s : State} {s' : State} (h : execFaultNoticeReceive t k side intact s = .next s') : s'.aux = s.aux := by
  unfold execFaultNoticeReceive at h
  cases h
  repeat' first
    | with_reducible rfl
    | with_reducible apply auxEq_ite
    | with_reducible refine onDie_auxEq (fun _ => ?_) ?_
    | (simp only [↓State.at__auxEq, ↓State.takeNotice_auxEq, ↓State.checkRejected_auxEq, ↓State.modDie_auxEq, auxEq_mk]; done)
    | split
    | simp only [↓State.at__auxEq, ↓State.takeNotice_auxEq, ↓State.checkRejected_auxEq, ↓State.modDie_auxEq, auxEq_mk, auxEq_parts]

theorem execTdacReadback_auxEq {t k : Nat} {uv : Bool} {v : Rat} {s : State} {s' : State} (h : execTdacReadback t k uv v s = .next s') : s'.aux = s.aux := by
  unfold execTdacReadback at h
  cases h
  repeat' first
    | with_reducible rfl
    | with_reducible apply auxEq_ite
    | with_reducible refine onDie_auxEq (fun _ => ?_) ?_
    | (simp only [↓State.dacCleared_auxEq, ↓State.at__auxEq, ↓State.modDie_auxEq, ↓State.clearFor_auxEq, auxEq_mk]; done)
    | split
    | simp only [↓State.dacCleared_auxEq, ↓State.at__auxEq, ↓State.modDie_auxEq, ↓State.clearFor_auxEq, auxEq_mk, auxEq_parts]

theorem execOwSweep_auxEq {t k : Nat} {s : State} {s' : State} (h : execOwSweep t k s = .next s') : s'.aux = s.aux := by
  unfold execOwSweep at h
  cases h
  repeat' first
    | with_reducible rfl
    | with_reducible apply auxEq_ite
    | with_reducible refine onDie_auxEq (fun _ => ?_) ?_
    | (simp only [↓State.at__auxEq, ↓State.modDie_auxEq, auxEq_mk]; done)
    | split
    | simp only [↓State.at__auxEq, ↓State.modDie_auxEq, auxEq_mk, auxEq_parts]

theorem execOwCheckComplete_auxEq {t k : Nat} {pre post : List Rat} {s : State} {s' : State} (h : execOwCheckComplete t k pre post s = .next s') : s'.aux = s.aux := by
  unfold execOwCheckComplete at h
  cases h
  repeat' first
    | with_reducible rfl
    | with_reducible apply auxEq_ite
    | with_reducible refine onDie_auxEq (fun _ => ?_) ?_
    | (simp only [↓State.settleChannels_auxEq, ↓State.at__auxEq, ↓State.owEnd_auxEq, ↓State.owBegin_auxEq, ↓State.modDie_auxEq, auxEq_mk]; done)
    | split
    | simp only [↓State.settleChannels_auxEq, ↓State.at__auxEq, ↓State.owEnd_auxEq, ↓State.owBegin_auxEq, ↓State.modDie_auxEq, auxEq_mk, auxEq_parts]

theorem execOwRecheck_auxEq {t k w : Nat} {pre post : List Rat} {s : State} {s' : State} (h : execOwRecheck t k w pre post s = .next s') : s'.aux = s.aux := by
  unfold execOwRecheck at h
  cases h
  repeat' first
    | with_reducible rfl
    | with_reducible apply auxEq_ite
    | with_reducible refine onDie_auxEq (fun _ => ?_) ?_
    | (simp only [↓State.settleChannels_auxEq, ↓State.dieEvent_auxEq, ↓State.heartResume_auxEq, ↓State.at__auxEq, ↓State.owEnd_auxEq, ↓State.owBegin_auxEq, ↓State.modDie_auxEq, auxEq_mk]; done)
    | split
    | simp only [↓State.settleChannels_auxEq, ↓State.dieEvent_auxEq, ↓State.heartResume_auxEq, ↓State.at__auxEq, ↓State.owEnd_auxEq, ↓State.owBegin_auxEq, ↓State.modDie_auxEq, auxEq_mk, auxEq_parts]

theorem execShuntInputBreak_auxEq {t k w : Nat} {s : State} {s' : State} (h : execShuntInputBreak t k w s = .next s') : s'.aux = s.aux := by
  unfold execShuntInputBreak at h
  cases h
  refine onDie_auxEq (fun _ => ?_) ?_
  · split <;> simp only [↓State.at__auxEq, ↓State.modDie_auxEq, auxEq_mk, auxEq_parts]
  · simp only [↓State.at__auxEq, ↓State.modDie_auxEq, auxEq_mk, auxEq_parts]

theorem execBalStep_auxEq {t k : Nat} {s : State} {s' : State} (h : execBalStep t k s = .next s') : s'.aux = s.aux := by
  unfold execBalStep at h
  cases h
  repeat' first
    | with_reducible rfl
    | with_reducible apply auxEq_ite
    | with_reducible refine onDie_auxEq (fun _ => ?_) ?_
    | (simp only [↓State.policyTaken_auxEq, ↓State.applyCap_auxEq, ↓State.at__auxEq, ↓State.takeRange_auxEq, ↓State.clearDebts_auxEq, ↓State.modDie_auxEq, auxEq_mk]; done)
    | split
    | simp only [↓State.policyTaken_auxEq, ↓State.applyCap_auxEq, ↓State.at__auxEq, ↓State.takeRange_auxEq, ↓State.clearDebts_auxEq, ↓State.modDie_auxEq, auxEq_mk, auxEq_parts]

theorem execBalNeedCheck_auxEq {t k : Nat} {s : State} {s' : State} (h : execBalNeedCheck t k s = .next s') : s'.aux = s.aux := by
  unfold execBalNeedCheck at h
  cases h
  refine onDie_auxEq (fun _ => ?_) ?_
  · split <;> simp only [↓State.at__auxEq, ↓State.modDie_auxEq, ↓State.applyCap_auxEq, auxEq_mk, auxEq_parts]
  · simp only [↓State.at__auxEq, ↓State.modDie_auxEq, ↓State.applyCap_auxEq, auxEq_mk, auxEq_parts]

theorem execBalOvercurrent_auxEq {t k n : Nat} {s : State} {s' : State} (h : execBalOvercurrent t k n s = .next s') : s'.aux = s.aux := by
  unfold execBalOvercurrent at h
  cases h
  repeat' first
    | with_reducible rfl
    | with_reducible apply auxEq_ite
    | with_reducible refine onDie_auxEq (fun _ => ?_) ?_
    | (simp only [↓State.at__auxEq, ↓State.dieEvent_auxEq, ↓State.modDie_auxEq, ↓State.settleChannels_auxEq, auxEq_mk]; done)
    | split
    | simp only [↓State.at__auxEq, ↓State.dieEvent_auxEq, ↓State.modDie_auxEq, ↓State.settleChannels_auxEq, auxEq_mk, auxEq_parts]

theorem execBalKeepalive_auxEq {t k : Nat} {s : State} {s' : State} (h : execBalKeepalive t k s = .next s') : s'.aux = s.aux := by
  unfold execBalKeepalive at h
  cases h
  simp only [↓State.at__auxEq, ↓State.keepAlive_auxEq, auxEq_mk, auxEq_parts]

theorem execBalTimeoutExpire_auxEq {t k : Nat} {s : State} {s' : State} (h : execBalTimeoutExpire t k s = .next s') : s'.aux = s.aux := by
  unfold execBalTimeoutExpire at h
  cases h
  refine onDie_auxEq (fun _ => ?_) ?_
  · split <;> simp only [↓State.at__auxEq, ↓State.dieEvent_auxEq, ↓State.modDie_auxEq, ↓State.settleChannels_auxEq, auxEq_mk, auxEq_parts]
  · simp only [↓State.at__auxEq, ↓State.dieEvent_auxEq, ↓State.modDie_auxEq, ↓State.settleChannels_auxEq, auxEq_mk, auxEq_parts]

theorem execBalanceRecordInterval_auxEq {t k : Nat} {s : State} {s' : State} (h : execBalanceRecordInterval t k s = .next s') : s'.aux = s.aux := by
  unfold execBalanceRecordInterval at h
  cases h
  repeat' first
    | with_reducible rfl
    | with_reducible apply auxEq_ite
    | with_reducible refine onDie_auxEq (fun _ => ?_) ?_
    | (simp only [↓State.at__auxEq, ↓State.dieRecord_auxEq, ↓State.modDie_auxEq, auxEq_mk]; done)
    | split
    | simp only [↓State.at__auxEq, ↓State.dieRecord_auxEq, ↓State.modDie_auxEq, auxEq_mk, auxEq_parts]

theorem execInnerLinkBroken_auxEq {t i : Nat} {s : State} {s' : State} (h : execInnerLinkBroken t i s = .next s') : s'.aux = s.aux := by
  unfold execInnerLinkBroken at h
  cases h
  split <;> simp only [↓State.at__auxEq, ↓State.breakLink_auxEq, auxEq_mk, auxEq_parts]

theorem execInnerLinkRestored_auxEq {t i : Nat} {s : State} {s' : State} (h : execInnerLinkRestored t i s = .next s') : s'.aux = s.aux := by
  unfold execInnerLinkRestored at h
  cases h
  split <;> simp only [↓State.at__auxEq, ↓State.mendLink_auxEq, auxEq_mk, auxEq_parts]

theorem execDieLost_auxEq {t k : Nat} {s : State} {s' : State} (h : execDieLost t k s = .next s') : s'.aux = s.aux := by
  unfold execDieLost at h
  cases h
  refine onDie_auxEq (fun _ => ?_) ?_
  · split <;> simp only [↓State.at__auxEq, ↓State.modDie_auxEq, ↓State.event_auxEq, ↓State.heartStop_auxEq, ↓State.ownFault_auxEq, auxEq_mk, auxEq_parts]
  · simp only [↓State.at__auxEq, ↓State.modDie_auxEq, ↓State.event_auxEq, ↓State.heartStop_auxEq, ↓State.ownFault_auxEq, auxEq_mk, auxEq_parts]

theorem execRolePadChange_auxEq {t : Nat} {level : Bool} {s : State} {s' : State} (h : execRolePadChange t level s = .next s') : s'.aux = s.aux := by
  unfold execRolePadChange at h
  cases h
  repeat' first
    | with_reducible rfl
    | with_reducible apply auxEq_ite
    | (simp only [↓State.at__auxEq, ↓State.event_auxEq, auxEq_mk]; done)
    | split
    | simp only [↓State.at__auxEq, ↓State.event_auxEq, auxEq_mk, auxEq_parts]

theorem execSafetyTick_auxEq {t : Nat} {lorst : Bool} {s : State} {s' : State} (h : execSafetyTick t lorst s = .next s') : s'.aux = s.aux := by
  unfold execSafetyTick at h
  cases h
  repeat' first
    | with_reducible rfl
    | with_reducible apply auxEq_ite
    | (simp only [↓State.heartResume_auxEq, ↓State.evalOuts_auxEq, ↓State.at__auxEq, ↓State.stepLorst_auxEq, ↓State.takeBlock_auxEq, ↓State.latch_auxEq, ↓State.measureAux_auxEq, auxEq_mk]; done)
    | split
    | simp only [↓State.heartResume_auxEq, ↓State.evalOuts_auxEq, ↓State.at__auxEq, ↓State.stepLorst_auxEq, ↓State.takeBlock_auxEq, ↓State.latch_auxEq, ↓State.measureAux_auxEq, auxEq_mk, auxEq_parts]

theorem execSafetyInputSample_auxEq {t : Nat} {levels fb tp : List Bool} {s : State} {s' : State} (h : execSafetyInputSample t levels fb tp s = .next s') : s'.aux = s.aux := by
  unfold execSafetyInputSample at h
  cases h
  repeat' first
    | with_reducible rfl
    | with_reducible apply auxEq_ite
    | with_reducible refine (foldl_auxEq (fun _ _ => ?_) _ _).trans ?_
    | (simp only [↓State.at__auxEq, ↓State.stepTests_auxEq, ↓State.stepInput_auxEq, ↓State.evalOuts_auxEq, ↓State.endPulse_auxEq, ↓State.stepFeedback_auxEq, auxEq_mk]; done)
    | split
    | simp only [↓State.at__auxEq, ↓State.stepTests_auxEq, ↓State.stepInput_auxEq, ↓State.evalOuts_auxEq, ↓State.endPulse_auxEq, ↓State.stepFeedback_auxEq, auxEq_mk, auxEq_parts]

theorem execTestPulseStart_auxEq {t out : Nat} {s : State} {s' : State} (h : execTestPulseStart t out s = .next s') : s'.aux = s.aux := by
  unfold execTestPulseStart at h
  cases h
  split <;> simp only [↓State.at__auxEq, ↓State.emit_auxEq, auxEq_mk, auxEq_parts]

theorem execDiscrepancyLatch_auxEq {t i : Nat} {s : State} {s' : State} (h : execDiscrepancyLatch t i s = .next s') : s'.aux = s.aux := by
  unfold execDiscrepancyLatch at h
  cases h
  repeat' first
    | with_reducible rfl
    | with_reducible apply auxEq_ite
    | (simp only [↓State.latch_auxEq, ↓State.at__auxEq, ↓State.event_auxEq, auxEq_mk]; done)
    | split
    | simp only [↓State.latch_auxEq, ↓State.at__auxEq, ↓State.event_auxEq, auxEq_mk, auxEq_parts]

theorem execSafetyFrameReceive_auxEq {t : Nat} {bytes : List Byte} {s : State} {s' : State} (h : execSafetyFrameReceive t bytes s = .next s') : s'.aux = s.aux := by
  unfold execSafetyFrameReceive at h
  cases h
  repeat' first
    | with_reducible rfl
    | with_reducible apply auxEq_ite
    | (simp only [↓State.countFrameError_auxEq, ↓State.at__auxEq, ↓State.validFrame_auxEq, ↓State.connError_auxEq, ↓State.accept_auxEq, auxEq_mk]; done)
    | split
    | simp only [↓State.countFrameError_auxEq, ↓State.at__auxEq, ↓State.validFrame_auxEq, ↓State.connError_auxEq, ↓State.accept_auxEq, auxEq_mk, auxEq_parts]

theorem execSafetyMboxService_auxEq {t : Nat} {bytes : List Byte} {s : State} {s' : State} (h : execSafetyMboxService t bytes s = .next s') : s'.aux = s.aux := by
  unfold execSafetyMboxService at h
  cases h
  repeat' first
    | with_reducible rfl
    | with_reducible apply auxEq_ite
    | (simp only [↓State.at__auxEq, ↓State.emit_auxEq, ↓State.formSafety_auxEq, ↓State.hostFrame_auxEq, auxEq_mk]; done)
    | split
    | simp only [↓State.at__auxEq, ↓State.emit_auxEq, ↓State.formSafety_auxEq, ↓State.hostFrame_auxEq, auxEq_mk, auxEq_parts]

theorem execHostWatchdogExpire_auxEq {t : Nat} {s : State} {s' : State} (h : execHostWatchdogExpire t s = .next s') : s'.aux = s.aux := by
  unfold execHostWatchdogExpire at h
  cases h
  split <;> simp only [↓State.at__auxEq, ↓State.evalOuts_auxEq, ↓State.event_auxEq, auxEq_mk, auxEq_parts]

theorem execWatchdogExpire_auxEq {t p : Nat} {s : State} {s' : State} (h : execWatchdogExpire t p s = .next s') : s'.aux = s.aux := by
  unfold execWatchdogExpire at h
  cases h
  repeat' first
    | with_reducible rfl
    | with_reducible apply auxEq_ite
    | (simp only [↓State.latch_auxEq, ↓State.at__auxEq, ↓State.evalOuts_auxEq, ↓State.event_auxEq, ↓State.modWatch_auxEq, auxEq_mk]; done)
    | split
    | simp only [↓State.latch_auxEq, ↓State.at__auxEq, ↓State.evalOuts_auxEq, ↓State.event_auxEq, ↓State.modWatch_auxEq, auxEq_mk, auxEq_parts]

theorem execOutputOvercurrent_auxEq {t k : Nat} {s : State} {s' : State} (h : execOutputOvercurrent t k s = .next s') : s'.aux = s.aux := by
  unfold execOutputOvercurrent at h
  cases h
  repeat' first
    | with_reducible rfl
    | with_reducible apply auxEq_ite
    | (simp only [↓State.event_auxEq, ↓State.at__auxEq, ↓State.setOut_auxEq, ↓State.latch_auxEq, auxEq_mk]; done)
    | split
    | simp only [↓State.event_auxEq, ↓State.at__auxEq, ↓State.setOut_auxEq, ↓State.latch_auxEq, auxEq_mk, auxEq_parts]

theorem execOutputOpenLoad_auxEq {t k : Nat} {s : State} {s' : State} (h : execOutputOpenLoad t k s = .next s') : s'.aux = s.aux := by
  unfold execOutputOpenLoad at h
  cases h
  repeat' first
    | with_reducible rfl
    | with_reducible apply auxEq_ite
    | (simp only [↓State.event_auxEq, ↓State.at__auxEq, auxEq_mk]; done)
    | split
    | simp only [↓State.event_auxEq, ↓State.at__auxEq, auxEq_mk, auxEq_parts]

theorem execOutputEconomyStart_auxEq {t k : Nat} {vaux : Rat} {s : State} {s' : State} (h : execOutputEconomyStart t k vaux s = .next s') : s'.aux = s.aux := by
  unfold execOutputEconomyStart at h
  cases h
  repeat' first
    | with_reducible rfl
    | with_reducible apply auxEq_ite
    | (simp only [↓State.at__auxEq, auxEq_mk]; done)
    | split
    | simp only [↓State.at__auxEq, auxEq_mk, auxEq_parts]

theorem execFeedbackTimeout_auxEq {t k : Nat} {s : State} {s' : State} (h : execFeedbackTimeout t k s = .next s') : s'.aux = s.aux := by
  unfold execFeedbackTimeout at h
  cases h
  repeat' first
    | with_reducible rfl
    | with_reducible apply auxEq_ite
    | (simp only [↓State.latch_auxEq, ↓State.at__auxEq, ↓State.event_auxEq, auxEq_mk]; done)
    | split
    | simp only [↓State.latch_auxEq, ↓State.at__auxEq, ↓State.event_auxEq, auxEq_mk, auxEq_parts]

theorem execLorstReleaseEdge_auxEq {t : Nat} {s : State} {s' : State} (h : execLorstReleaseEdge t s = .next s') : s'.aux = s.aux := by
  unfold execLorstReleaseEdge at h
  cases h
  repeat' first
    | with_reducible rfl
    | with_reducible apply auxEq_ite
    | (simp only [↓State.at__auxEq, ↓State.event_auxEq, ↓State.releaseLockout_auxEq, auxEq_mk]; done)
    | split
    | simp only [↓State.at__auxEq, ↓State.event_auxEq, ↓State.releaseLockout_auxEq, auxEq_mk, auxEq_parts]

theorem execLorstHeld_auxEq {t : Nat} {s : State} {s' : State} (h : execLorstHeld t s = .next s') : s'.aux = s.aux := by
  unfold execLorstHeld at h
  cases h
  repeat' first
    | with_reducible rfl
    | with_reducible apply auxEq_ite
    | (simp only [↓State.at__auxEq, ↓State.event_auxEq, auxEq_mk]; done)
    | split
    | simp only [↓State.at__auxEq, ↓State.event_auxEq, auxEq_mk, auxEq_parts]

theorem execFaultNoticeFrameReceive_auxEq {t : Nat} {bytes : List Byte} {s : State} {s' : State} (h : execFaultNoticeFrameReceive t bytes s = .next s') : s'.aux = s.aux := by
  unfold execFaultNoticeFrameReceive at h
  cases h
  repeat' first
    | with_reducible rfl
    | with_reducible apply auxEq_ite
    | with_reducible refine (foldl_auxEq (fun _ _ => ?_) _ _).trans ?_
    | (simp only [↓State.accept_auxEq, ↓State.at__auxEq, ↓State.faultTrigger_auxEq, ↓State.checkRejected_auxEq, auxEq_mk]; done)
    | split
    | simp only [↓State.accept_auxEq, ↓State.at__auxEq, ↓State.faultTrigger_auxEq, ↓State.checkRejected_auxEq, auxEq_mk, auxEq_parts]

theorem execGatewayHeartbeatReceive_auxEq {t : Nat} {bytes : List Byte} {s : State} {s' : State} (h : execGatewayHeartbeatReceive t bytes s = .next s') : s'.aux = s.aux := by
  unfold execGatewayHeartbeatReceive at h
  cases h
  repeat' first
    | with_reducible rfl
    | with_reducible apply auxEq_ite
    | (simp only [↓State.countFrameError_auxEq, ↓State.at__auxEq, ↓State.accept_auxEq, auxEq_mk]; done)
    | split
    | simp only [↓State.countFrameError_auxEq, ↓State.at__auxEq, ↓State.accept_auxEq, auxEq_mk, auxEq_parts]

theorem execGwOkTimeout_auxEq {t : Nat} {s : State} {s' : State} (h : execGwOkTimeout t s = .next s') : s'.aux = s.aux := by
  unfold execGwOkTimeout at h
  cases h
  split <;> simp only [↓State.at__auxEq, auxEq_mk, auxEq_parts]

theorem execEnumStartReceive_auxEq {t : Nat} {bytes : List Byte} {s : State} {s' : State} (h : execEnumStartReceive t bytes s = .next s') : s'.aux = s.aux := by
  unfold execEnumStartReceive at h
  cases h
  split <;> simp only [↓State.at__auxEq, ↓State.cancelPend_auxEq, ↓State.accept_auxEq, ↓State.dropPlace_auxEq, auxEq_mk, auxEq_parts]

theorem execDiscoverSend_auxEq {t : Nat} {s : State} {s' : State} (h : execDiscoverSend t s = .next s') : s'.aux = s.aux := by
  unfold execDiscoverSend at h
  cases h
  repeat' first
    | with_reducible rfl
    | with_reducible apply auxEq_ite
    | (simp only [↓State.at__auxEq, ↓State.emit_auxEq, auxEq_mk]; done)
    | split
    | simp only [↓State.at__auxEq, ↓State.emit_auxEq, auxEq_mk, auxEq_parts]

theorem execDiscoverReceive_auxEq {t : Nat} {side : Side} {bytes : List Byte} {s : State} {s' : State} (h : execDiscoverReceive t side bytes s = .next s') : s'.aux = s.aux := by
  unfold execDiscoverReceive at h
  cases h
  repeat' first
    | with_reducible rfl
    | with_reducible apply auxEq_ite
    | (simp only [↓State.emit_auxEq, ↓State.event_auxEq, ↓State.cancelPend_auxEq, ↓State.at__auxEq, ↓State.dropPlace_auxEq, ↓State.startTraining_auxEq, ↓State.drawBits_auxEq, ↓State.modPort_auxEq, auxEq_mk]; done)
    | split
    | simp only [↓State.emit_auxEq, ↓State.event_auxEq, ↓State.cancelPend_auxEq, ↓State.at__auxEq, ↓State.dropPlace_auxEq, ↓State.startTraining_auxEq, ↓State.drawBits_auxEq, ↓State.modPort_auxEq, auxEq_mk, auxEq_parts]

theorem execEnumWaitExpire_auxEq {t : Nat} {answers : List (List Byte)} {s : State} {s' : State} (h : execEnumWaitExpire t answers s = .next s') : s'.aux = s.aux := by
  unfold execEnumWaitExpire at h
  cases h
  repeat' first
    | with_reducible rfl
    | with_reducible apply auxEq_ite
    | (simp only [↓State.endEnumeration_auxEq, ↓State.at__auxEq, ↓State.enqueue_auxEq, ↓State.freshHop_auxEq, auxEq_mk]; done)
    | split
    | simp only [↓State.endEnumeration_auxEq, ↓State.at__auxEq, ↓State.enqueue_auxEq, ↓State.freshHop_auxEq, auxEq_mk, auxEq_parts]

theorem execEnumFrameReceive_auxEq {t : Nat} {bytes : List Byte} {s : State} {s' : State} (h : execEnumFrameReceive t bytes s = .next s') : s'.aux = s.aux := by
  unfold execEnumFrameReceive at h
  cases h
  repeat' first
    | with_reducible rfl
    | with_reducible apply auxEq_ite
    | (simp only [↓State.finishEnumeration_auxEq, ↓State.at__auxEq, ↓State.becomeFrontier_auxEq, ↓State.originate_auxEq, ↓State.flushUnrouted_auxEq, ↓State.accept_auxEq, ↓State.holderAnew_auxEq, auxEq_mk]; done)
    | split
    | simp only [↓State.finishEnumeration_auxEq, ↓State.at__auxEq, ↓State.becomeFrontier_auxEq, ↓State.originate_auxEq, ↓State.flushUnrouted_auxEq, ↓State.accept_auxEq, ↓State.holderAnew_auxEq, auxEq_mk, auxEq_parts]

theorem execFrameForward_auxEq {t : Nat} {side : Side} {bytes : List Byte} {s : State} {s' : State} (h : execFrameForward t side bytes s = .next s') : s'.aux = s.aux := by
  unfold execFrameForward at h
  cases h
  repeat' first
    | with_reducible rfl
    | with_reducible apply auxEq_ite
    | (simp only [↓State.egress_auxEq, ↓State.at__auxEq, ↓State.enqueue_auxEq, ↓State.countNoRoute_auxEq, ↓State.noteForward_auxEq, auxEq_mk]; done)
    | split
    | simp only [↓State.egress_auxEq, ↓State.at__auxEq, ↓State.enqueue_auxEq, ↓State.countNoRoute_auxEq, ↓State.noteForward_auxEq, auxEq_mk, auxEq_parts]

theorem execMseqGapRelease_auxEq {t origin tc flow : Nat} {s : State} {s' : State} (h : execMseqGapRelease t origin tc flow s = .next s') : s'.aux = s.aux := by
  unfold execMseqGapRelease at h
  cases h
  repeat' first
    | with_reducible rfl
    | with_reducible apply auxEq_ite
    | with_reducible refine (foldl_auxEq (fun _ _ => ?_) _ _).trans ?_
    | (simp only [↓State.at__auxEq, auxEq_mk]; done)
    | split
    | simp only [↓State.at__auxEq, auxEq_mk, auxEq_parts]

theorem execLinkStateNoticeReceive_auxEq {t : Nat} {bytes : List Byte} {s : State} {s' : State} (h : execLinkStateNoticeReceive t bytes s = .next s') : s'.aux = s.aux := by
  unfold execLinkStateNoticeReceive at h
  cases h
  split <;> simp only [↓State.at__auxEq, ↓State.noteHolder_auxEq, ↓State.accept_auxEq, auxEq_mk, auxEq_parts]

theorem execCodewordBoundary_auxEq {t : Nat} {side : Side} {s : State} {s' : State} (h : execCodewordBoundary t side s = .next s') : s'.aux = s.aux := by
  unfold execCodewordBoundary at h
  cases h
  repeat' first
    | with_reducible rfl
    | with_reducible apply auxEq_ite
    | (simp only [↓State.emit_auxEq, ↓State.event_auxEq, ↓State.at__auxEq, ↓State.startTraining_auxEq, ↓State.modPort_auxEq, auxEq_mk]; done)
    | split
    | simp only [↓State.emit_auxEq, ↓State.event_auxEq, ↓State.at__auxEq, ↓State.startTraining_auxEq, ↓State.modPort_auxEq, auxEq_mk, auxEq_parts]

theorem execCodewordReceive_auxEq {t : Nat} {side : Side} {bytes : List Byte} {s : State} {s' : State} (h : execCodewordReceive t side bytes s = .next s') : s'.aux = s.aux := by
  unfold execCodewordReceive at h
  cases h
  repeat' first
    | with_reducible rfl
    | with_reducible apply auxEq_ite
    | (simp only [↓State.at__auxEq, ↓State.takeFrame_auxEq, ↓State.modPort_auxEq, auxEq_mk]; done)
    | split
    | simp only [↓State.at__auxEq, ↓State.takeFrame_auxEq, ↓State.modPort_auxEq, auxEq_mk, auxEq_parts]

theorem execControlCodewordReceive_auxEq {t : Nat} {side : Side} {bytes : List Byte} {s : State} {s' : State} (h : execControlCodewordReceive t side bytes s = .next s') : s'.aux = s.aux := by
  unfold execControlCodewordReceive at h
  cases h
  repeat' first
    | with_reducible rfl
    | with_reducible apply auxEq_ite
    | (simp only [↓State.at__auxEq, ↓State.startTraining_auxEq, ↓State.exchange_auxEq, ↓State.modPort_auxEq, ↓State.hopDown_auxEq, ↓State.tagFailure_auxEq, auxEq_mk]; done)
    | split
    | simp only [↓State.at__auxEq, ↓State.startTraining_auxEq, ↓State.exchange_auxEq, ↓State.modPort_auxEq, ↓State.hopDown_auxEq, ↓State.tagFailure_auxEq, auxEq_mk, auxEq_parts]

theorem execTc0AckTimeout_auxEq {t : Nat} {side : Side} {s : State} {s' : State} (h : execTc0AckTimeout t side s = .next s') : s'.aux = s.aux := by
  unfold execTc0AckTimeout at h
  cases h
  repeat' first
    | with_reducible rfl
    | with_reducible apply auxEq_ite
    | (simp only [↓State.at__auxEq, ↓State.hopDown_auxEq, ↓State.modPort_auxEq, auxEq_mk]; done)
    | split
    | simp only [↓State.at__auxEq, ↓State.hopDown_auxEq, ↓State.modPort_auxEq, auxEq_mk, auxEq_parts]

theorem execFrameRetryTimeout_auxEq {t : Nat} {side : Side} {tc : Nat} {s : State} {s' : State} (h : execFrameRetryTimeout t side tc s = .next s') : s'.aux = s.aux := by
  unfold execFrameRetryTimeout at h
  cases h
  repeat' first
    | with_reducible rfl
    | with_reducible apply auxEq_ite
    | (simp only [↓State.at__auxEq, ↓State.hopDown_auxEq, ↓State.modPort_auxEq, auxEq_mk]; done)
    | split
    | simp only [↓State.at__auxEq, ↓State.hopDown_auxEq, ↓State.modPort_auxEq, auxEq_mk, auxEq_parts]

theorem execHopSilenceTimeout_auxEq {t : Nat} {side : Side} {s : State} {s' : State} (h : execHopSilenceTimeout t side s = .next s') : s'.aux = s.aux := by
  unfold execHopSilenceTimeout at h
  cases h
  split <;> simp only [↓State.at__auxEq, ↓State.hopDown_auxEq, auxEq_mk, auxEq_parts]

theorem execHopMarginTimeout_auxEq {t : Nat} {side : Side} {s : State} {s' : State} (h : execHopMarginTimeout t side s = .next s') : s'.aux = s.aux := by
  unfold execHopMarginTimeout at h
  cases h
  repeat' first
    | with_reducible rfl
    | with_reducible apply auxEq_ite
    | (simp only [↓State.at__auxEq, ↓State.hopDown_auxEq, auxEq_mk]; done)
    | split
    | simp only [↓State.at__auxEq, ↓State.hopDown_auxEq, auxEq_mk, auxEq_parts]

theorem execHopTrainingRetry_auxEq {t : Nat} {side : Side} {s : State} {s' : State} (h : execHopTrainingRetry t side s = .next s') : s'.aux = s.aux := by
  unfold execHopTrainingRetry at h
  cases h
  split <;> simp only [↓State.at__auxEq, ↓State.startTraining_auxEq, auxEq_mk, auxEq_parts]

theorem execHopTrainingComplete_auxEq {t : Nat} {side : Side} {margin : Int} {peerQpsk : Bool} {s : State} {s' : State} (h : execHopTrainingComplete t side margin peerQpsk s = .next s') : s'.aux = s.aux := by
  unfold execHopTrainingComplete at h
  cases h
  repeat' first
    | with_reducible rfl
    | with_reducible apply auxEq_ite
    | (simp only [↓State.closeRing_auxEq, ↓State.at__auxEq, ↓State.startKeying_auxEq, ↓State.modPort_auxEq, ↓State.hopUp_auxEq, auxEq_mk]; done)
    | split
    | simp only [↓State.closeRing_auxEq, ↓State.at__auxEq, ↓State.startKeying_auxEq, ↓State.modPort_auxEq, ↓State.hopUp_auxEq, auxEq_mk, auxEq_parts]

theorem execHopRouteRestore_auxEq {t : Nat} {side : Side} {s : State} {s' : State} (h : execHopRouteRestore t side s = .next s') : s'.aux = s.aux := by
  unfold execHopRouteRestore at h
  cases h
  split <;> simp only [↓State.at__auxEq, ↓State.routeChange_auxEq, ↓State.modPort_auxEq, auxEq_mk, auxEq_parts]

theorem execApcAdjust_auxEq {t : Nat} {side : Side} {margin : Margins} {s : State} {s' : State} (h : execApcAdjust t side margin s = .next s') : s'.aux = s.aux := by
  unfold execApcAdjust at h
  cases h
  split <;> simp only [↓State.at__auxEq, ↓State.modPort_auxEq, auxEq_mk, auxEq_parts]

theorem execHopKeyingMessage_auxEq {t : Nat} {side : Side} {bytes : List Byte} {s : State} {s' : State} (h : execHopKeyingMessage t side bytes s = .next s') : s'.aux = s.aux := by
  unfold execHopKeyingMessage at h
  cases h
  repeat' first
    | with_reducible rfl
    | with_reducible apply auxEq_ite
    | (simp only [↓State.takeSignature_auxEq, ↓State.closeRing_auxEq, ↓State.at__auxEq, ↓State.takeOffer_auxEq, auxEq_mk]; done)
    | split
    | simp only [↓State.takeSignature_auxEq, ↓State.closeRing_auxEq, ↓State.at__auxEq, ↓State.takeOffer_auxEq, auxEq_mk, auxEq_parts]

theorem execHopRekey_auxEq {t : Nat} {side : Side} {s : State} {s' : State} (h : execHopRekey t side s = .next s') : s'.aux = s.aux := by
  unfold execHopRekey at h
  cases h
  split <;> simp only [↓State.at__auxEq, ↓State.startKeying_auxEq, auxEq_mk, auxEq_parts]

theorem execTimeBeaconSend_auxEq {t : Nat} {s : State} {s' : State} (h : execTimeBeaconSend t s = .next s') : s'.aux = s.aux := by
  unfold execTimeBeaconSend at h
  cases h
  repeat' first
    | with_reducible rfl
    | with_reducible apply auxEq_ite
    | (simp only [↓State.at__auxEq, ↓State.enqueue_auxEq, auxEq_mk]; done)
    | split
    | simp only [↓State.at__auxEq, ↓State.enqueue_auxEq, auxEq_mk, auxEq_parts]

theorem execTimeBeaconReceive_auxEq {t : Nat} {side : Side} {bytes : List Byte} {s : State} {s' : State} (h : execTimeBeaconReceive t side bytes s = .next s') : s'.aux = s.aux := by
  unfold execTimeBeaconReceive at h
  cases h
  repeat' first
    | with_reducible rfl
    | with_reducible apply auxEq_ite
    | (simp only [↓State.queueBeacon_auxEq, ↓State.accept_auxEq, ↓State.at__auxEq, ↓State.servo_auxEq, ↓State.noteForward_auxEq, auxEq_mk]; done)
    | split
    | simp only [↓State.queueBeacon_auxEq, ↓State.accept_auxEq, ↓State.at__auxEq, ↓State.servo_auxEq, ↓State.noteForward_auxEq, auxEq_mk, auxEq_parts]

theorem execTqHoldover_auxEq {t : Nat} {s : State} {s' : State} (h : execTqHoldover t s = .next s') : s'.aux = s.aux := by
  unfold execTqHoldover at h
  cases h
  repeat' first
    | with_reducible rfl
    | with_reducible apply auxEq_ite
    | (simp only [↓State.at__auxEq, auxEq_mk]; done)
    | split
    | simp only [↓State.at__auxEq, auxEq_mk, auxEq_parts]

theorem execPackTimeCommit_auxEq {t : Nat} {s : State} {s' : State} (h : execPackTimeCommit t s = .next s') : s'.aux = s.aux := by
  unfold execPackTimeCommit at h
  cases h
  split <;> simp only [↓State.at__auxEq, ↓State.commitPackTime_auxEq, auxEq_mk, auxEq_parts]

theorem execHeartbeatSend_auxEq {t : Nat} {s : State} {s' : State} (h : execHeartbeatSend t s = .next s') : s'.aux = s.aux := by
  unfold execHeartbeatSend at h
  cases h
  split <;> simp only [↓State.at__auxEq, ↓State.formSafety_auxEq, ↓State.originate_auxEq, auxEq_mk, auxEq_parts]

theorem execInnerTimeWord_auxEq {t k word : Nat} {s : State} {s' : State} (h : execInnerTimeWord t k word s = .next s') : s'.aux = s.aux := by
  unfold execInnerTimeWord at h
  cases h
  refine onDie_auxEq (fun _ => ?_) ?_
  · split <;> simp only [↓State.at__auxEq, ↓State.modDie_auxEq, ↓State.emit_auxEq, auxEq_mk, auxEq_parts]
  · simp only [↓State.at__auxEq, ↓State.modDie_auxEq, ↓State.emit_auxEq, auxEq_mk, auxEq_parts]

theorem execInnerTimeWordTimeout_auxEq {t k : Nat} {s : State} {s' : State} (h : execInnerTimeWordTimeout t k s = .next s') : s'.aux = s.aux := by
  unfold execInnerTimeWordTimeout at h
  cases h
  refine onDie_auxEq (fun _ => ?_) ?_
  · split <;> simp only [↓State.at__auxEq, ↓State.modDie_auxEq, auxEq_mk, auxEq_parts]
  · simp only [↓State.at__auxEq, ↓State.modDie_auxEq, auxEq_mk, auxEq_parts]

theorem execIdentify_auxEq {t : Nat} {c : Cmd} {s : State} {s' : State} (h : execIdentify t c s = .next s') : s'.aux = s.aux := by
  unfold execIdentify at h
  cases h
  repeat' first
    | with_reducible rfl
    | with_reducible apply auxEq_ite
    | with_reducible refine State.serve_auxEq (fun _ ht => ?_) ?_
    | (simp only [↓State.at__auxEq, ↓State.completeData_auxEq, auxEq_mk, *]; done)
    | split
    | simp only [↓State.at__auxEq, ↓State.completeData_auxEq, auxEq_mk, auxEq_parts, *]

theorem execPing_auxEq {t : Nat} {c : Cmd} {s : State} {s' : State} (h : execPing t c s = .next s') : s'.aux = s.aux := by
  unfold execPing at h
  cases h
  repeat' first
    | with_reducible rfl
    | with_reducible apply auxEq_ite
    | with_reducible refine State.serve_auxEq (fun _ ht => ?_) ?_
    | (simp only [↓State.complete_auxEq, ↓State.at__auxEq, auxEq_mk, *]; done)
    | split
    | simp only [↓State.complete_auxEq, ↓State.at__auxEq, auxEq_mk, auxEq_parts, *]

theorem execStreamOpen_auxEq {t : Nat} {c : Cmd} {s : State} {s' : State} (h : execStreamOpen t c s = .next s') : s'.aux = s.aux := by
  unfold execStreamOpen at h
  cases h
  repeat' first
    | with_reducible rfl
    | with_reducible apply auxEq_ite
    | with_reducible refine State.serve_auxEq (fun _ ht => ?_) ?_
    | (simp only [↓State.complete_auxEq, ↓State.at__auxEq, ↓State.openSub_auxEq, auxEq_mk, *]; done)
    | split
    | simp only [↓State.complete_auxEq, ↓State.at__auxEq, ↓State.openSub_auxEq, auxEq_mk, auxEq_parts, *]

theorem execStreamClose_auxEq {t : Nat} {c : Cmd} {s : State} {s' : State} (h : execStreamClose t c s = .next s') : s'.aux = s.aux := by
  unfold execStreamClose at h
  cases h
  repeat' first
    | with_reducible rfl
    | with_reducible apply auxEq_ite
    | with_reducible refine State.serve_auxEq (fun _ ht => ?_) ?_
    | (simp only [↓State.endSub_auxEq, ↓State.modHif_auxEq, ↓State.at__auxEq, ↓State.endClosed_auxEq, ↓State.complete_auxEq, auxEq_mk, *]; done)
    | split
    | simp only [↓State.endSub_auxEq, ↓State.modHif_auxEq, ↓State.at__auxEq, ↓State.endClosed_auxEq, ↓State.complete_auxEq, auxEq_mk, auxEq_parts, *]

theorem execRecordRead_auxEq {t : Nat} {c : Cmd} {s : State} {s' : State} (h : execRecordRead t c s = .next s') : s'.aux = s.aux := by
  unfold execRecordRead at h
  cases h
  repeat' first
    | with_reducible rfl
    | with_reducible apply auxEq_ite
    | with_reducible refine State.serve_auxEq (fun _ ht => ?_) ?_
    | (simp only [↓State.complete_auxEq, ↓State.at__auxEq, ↓State.completeData_auxEq, auxEq_mk, *]; done)
    | split
    | simp only [↓State.complete_auxEq, ↓State.at__auxEq, ↓State.completeData_auxEq, auxEq_mk, auxEq_parts, *]

theorem execStoreRead_auxEq {t : Nat} {c : Cmd} {lost : List Nat} {s : State} {s' : State} (h : execStoreRead t c lost s = .next s') : s'.aux = s.aux := by
  unfold execStoreRead at h
  cases h
  repeat' first
    | with_reducible rfl
    | with_reducible apply auxEq_ite
    | with_reducible refine (foldl_auxEq (fun _ _ => ?_) _ _).trans ?_
    | with_reducible refine State.serve_auxEq (fun _ ht => ?_) ?_
    | (simp only [↓State.originate_auxEq, ↓State.at__auxEq, ↓State.finishRead_auxEq, ↓State.complete_auxEq, auxEq_mk, *]; done)
    | split
    | simp only [↓State.originate_auxEq, ↓State.at__auxEq, ↓State.finishRead_auxEq, ↓State.complete_auxEq, auxEq_mk, auxEq_parts, *]

theorem execCaptureArm_auxEq {t : Nat} {c : Cmd} {s : State} {s' : State} (h : execCaptureArm t c s = .next s') : s'.aux = s.aux := by
  unfold execCaptureArm at h
  cases h
  repeat' first
    | with_reducible rfl
    | with_reducible apply auxEq_ite
    | with_reducible refine State.serve_auxEq (fun _ ht => ?_) ?_
    | (simp only [↓State.complete_auxEq, ↓State.at__auxEq, ↓State.armCapture_auxEq, auxEq_mk, *]; done)
    | split
    | simp only [↓State.complete_auxEq, ↓State.at__auxEq, ↓State.armCapture_auxEq, auxEq_mk, auxEq_parts, *]

theorem execCaptureDisarm_auxEq {t : Nat} {c : Cmd} {s : State} {s' : State} (h : execCaptureDisarm t c s = .next s') : s'.aux = s.aux := by
  unfold execCaptureDisarm at h
  cases h
  repeat' first
    | with_reducible rfl
    | with_reducible apply auxEq_ite
    | with_reducible refine State.serve_auxEq (fun _ ht => ?_) ?_
    | (simp only [↓State.at__auxEq, ↓State.abortCapture_auxEq, ↓State.complete_auxEq, auxEq_mk, *]; done)
    | split
    | simp only [↓State.at__auxEq, ↓State.abortCapture_auxEq, ↓State.complete_auxEq, auxEq_mk, auxEq_parts, *]

theorem execCaptureFetch_auxEq {t : Nat} {c : Cmd} {lost : List Nat} {s : State} {s' : State} (h : execCaptureFetch t c lost s = .next s') : s'.aux = s.aux := by
  unfold execCaptureFetch at h
  cases h
  repeat' first
    | with_reducible rfl
    | with_reducible apply auxEq_ite
    | with_reducible refine (foldl_auxEq (fun _ _ => ?_) _ _).trans ?_
    | with_reducible refine State.serve_auxEq (fun _ ht => ?_) ?_
    | (simp only [↓State.at__auxEq, ↓State.completeData_auxEq, ↓State.releaseD3_auxEq, ↓State.complete_auxEq, auxEq_mk, *]; done)
    | split
    | simp only [↓State.at__auxEq, ↓State.completeData_auxEq, ↓State.releaseD3_auxEq, ↓State.complete_auxEq, auxEq_mk, auxEq_parts, *]

theorem execPowerStateRun_auxEq {t : Nat} {c : Cmd} {s : State} {s' : State} (h : execPowerStateRun t c s = .next s') : s'.aux = s.aux := by
  unfold execPowerStateRun at h
  cases h
  repeat' first
    | with_reducible rfl
    | with_reducible apply auxEq_ite
    | with_reducible refine State.serve_auxEq (fun _ ht => ?_) ?_
    | (simp only [↓State.complete_auxEq, ↓State.at__auxEq, ↓State.modPower_auxEq, auxEq_mk, *]; done)
    | split
    | simp only [↓State.complete_auxEq, ↓State.at__auxEq, ↓State.modPower_auxEq, auxEq_mk, auxEq_parts, *]

theorem execPowerStateDoze_auxEq {t : Nat} {c : Cmd} {s : State} {s' : State} (h : execPowerStateDoze t c s = .next s') : s'.aux = s.aux := by
  unfold execPowerStateDoze at h
  cases h
  repeat' first
    | with_reducible rfl
    | with_reducible apply auxEq_ite
    | with_reducible refine State.serve_auxEq (fun _ ht => ?_) ?_
    | (simp only [↓State.complete_auxEq, ↓State.at__auxEq, ↓State.modPower_auxEq, auxEq_mk, *]; done)
    | split
    | simp only [↓State.complete_auxEq, ↓State.at__auxEq, ↓State.modPower_auxEq, auxEq_mk, auxEq_parts, *]

theorem execLockoutRelease_auxEq {t : Nat} {c : Cmd} {s : State} {s' : State} (h : execLockoutRelease t c s = .next s') : s'.aux = s.aux := by
  unfold execLockoutRelease at h
  cases h
  repeat' first
    | with_reducible rfl
    | with_reducible apply auxEq_ite
    | with_reducible refine State.serve_auxEq (fun _ ht => ?_) ?_
    | (simp only [↓State.complete_auxEq, ↓State.at__auxEq, ↓State.event_auxEq, ↓State.releaseLockout_auxEq, auxEq_mk, *]; done)
    | split
    | simp only [↓State.complete_auxEq, ↓State.at__auxEq, ↓State.event_auxEq, ↓State.releaseLockout_auxEq, auxEq_mk, auxEq_parts, *]

theorem execConfigRead_auxEq {t : Nat} {c : Cmd} {s : State} {s' : State} (h : execConfigRead t c s = .next s') : s'.aux = s.aux := by
  unfold execConfigRead at h
  cases h
  repeat' first
    | with_reducible rfl
    | with_reducible apply auxEq_ite
    | with_reducible refine State.serve_auxEq (fun _ ht => ?_) ?_
    | (simp only [↓State.at__auxEq, ↓State.readConfig_auxEq, auxEq_mk, *]; done)
    | split
    | simp only [↓State.at__auxEq, ↓State.readConfig_auxEq, auxEq_mk, auxEq_parts, *]

theorem execShadowWrite_auxEq {t : Nat} {c : Cmd} {data : List Byte} {s : State} {s' : State} (h : execShadowWrite t c data s = .next s') : s'.aux = s.aux := by
  unfold execShadowWrite at h
  cases h
  repeat' first
    | with_reducible rfl
    | with_reducible apply auxEq_ite
    | with_reducible refine State.serve_auxEq (fun _ ht => ?_) ?_
    | (simp only [State.modCfg, ↓State.complete_auxEq, ↓State.putShadow_auxEq, ↓State.at__auxEq, auxEq_mk, *]; done)
    | split
    | simp only [State.modCfg, ↓State.complete_auxEq, ↓State.putShadow_auxEq, ↓State.at__auxEq, auxEq_mk, auxEq_parts, *]

theorem execCommit_auxEq {t : Nat} {c : Cmd} {s : State} {s' : State} (h : execCommit t c s = .next s') : s'.aux = s.aux := by
  unfold execCommit at h
  cases h
  repeat' first
    | with_reducible rfl
    | with_reducible apply auxEq_ite
    | with_reducible refine State.serve_auxEq (fun _ ht => ?_) ?_
    | (simp only [↓State.complete_auxEq, ↓State.at__auxEq, ↓State.takeCommit_auxEq, auxEq_mk, *]; done)
    | split
    | simp only [↓State.complete_auxEq, ↓State.at__auxEq, ↓State.takeCommit_auxEq, auxEq_mk, auxEq_parts, *]

theorem execCommitCheck_auxEq {t : Nat} {s : State} {s' : State} (h : execCommitCheck t s = .next s') : s'.aux = s.aux := by
  unfold execCommitCheck at h
  cases h
  repeat' first
    | with_reducible rfl
    | with_reducible apply auxEq_ite
    | (simp only [State.modCfg, ↓State.complete_auxEq, ↓State.at__auxEq, ↓State.evalOuts_auxEq, ↓State.sayPrepared_auxEq, auxEq_mk]; done)
    | split
    | simp only [State.modCfg, ↓State.complete_auxEq, ↓State.at__auxEq, ↓State.evalOuts_auxEq, ↓State.sayPrepared_auxEq, auxEq_mk, auxEq_parts]

theorem execCommitRevert_auxEq {t : Nat} {c : Cmd} {s : State} {s' : State} (h : execCommitRevert t c s = .next s') : s'.aux = s.aux := by
  unfold execCommitRevert at h
  cases h
  repeat' first
    | with_reducible rfl
    | with_reducible apply auxEq_ite
    | with_reducible refine State.serve_auxEq (fun _ ht => ?_) ?_
    | (simp only [State.modCfg, ↓State.complete_auxEq, ↓State.at__auxEq, auxEq_mk, *]; done)
    | split
    | simp only [State.modCfg, ↓State.complete_auxEq, ↓State.at__auxEq, auxEq_mk, auxEq_parts, *]

theorem execCommitCancel_auxEq {t : Nat} {c : Cmd} {s : State} {s' : State} (h : execCommitCancel t c s = .next s') : s'.aux = s.aux := by
  unfold execCommitCancel at h
  cases h
  repeat' first
    | with_reducible rfl
    | with_reducible apply auxEq_ite
    | with_reducible refine State.serve_auxEq (fun _ ht => ?_) ?_
    | (simp only [↓State.complete_auxEq, ↓State.at__auxEq, ↓State.cancelPend_auxEq, auxEq_mk, *]; done)
    | split
    | simp only [↓State.complete_auxEq, ↓State.at__auxEq, ↓State.cancelPend_auxEq, auxEq_mk, auxEq_parts, *]

theorem execShadowCopyComplete_auxEq {t : Nat} {s : State} {s' : State} (h : execShadowCopyComplete t s = .next s') : s'.aux = s.aux := by
  unfold execShadowCopyComplete at h
  cases h
  repeat' first
    | with_reducible rfl
    | with_reducible apply auxEq_ite
    | with_reducible refine (foldl_auxEq (fun _ _ => ?_) _ _).trans ?_
    | (simp only [State.modCfg, ↓State.putShadow_auxEq, ↓State.at__auxEq, auxEq_mk]; done)
    | split
    | simp only [State.modCfg, ↓State.putShadow_auxEq, ↓State.at__auxEq, auxEq_mk, auxEq_parts]

theorem execGroupCommitDecide_auxEq {t : Nat} {s : State} {s' : State} (h : execGroupCommitDecide t s = .next s') : s'.aux = s.aux := by
  unfold execGroupCommitDecide at h
  cases h
  repeat' first
    | with_reducible rfl
    | with_reducible apply auxEq_ite
    | (simp only [State.modCfg, ↓State.at__auxEq, ↓State.originate_auxEq, ↓State.holdGo_auxEq, ↓State.endGroup_auxEq, auxEq_mk]; done)
    | split
    | simp only [State.modCfg, ↓State.at__auxEq, ↓State.originate_auxEq, ↓State.holdGo_auxEq, ↓State.endGroup_auxEq, auxEq_mk, auxEq_parts]

theorem execGroupGoReceive_auxEq {t : Nat} {s : State} {s' : State} (h : execGroupGoReceive t s = .next s') : s'.aux = s.aux := by
  unfold execGroupGoReceive at h
  cases h
  repeat' first
    | with_reducible rfl
    | with_reducible apply auxEq_ite
    | (simp only [↓State.at__auxEq, ↓State.takeGroupFrame_auxEq, ↓State.holdGo_auxEq, auxEq_mk]; done)
    | split
    | simp only [↓State.at__auxEq, ↓State.takeGroupFrame_auxEq, ↓State.holdGo_auxEq, auxEq_mk, auxEq_parts]

theorem execGroupAbortReceive_auxEq {t : Nat} {s : State} {s' : State} (h : execGroupAbortReceive t s = .next s') : s'.aux = s.aux := by
  unfold execGroupAbortReceive at h
  cases h
  repeat' first
    | with_reducible rfl
    | with_reducible apply auxEq_ite
    | (simp only [↓State.at__auxEq, ↓State.takeGroupFrame_auxEq, ↓State.endGroup_auxEq, auxEq_mk]; done)
    | split
    | simp only [↓State.at__auxEq, ↓State.takeGroupFrame_auxEq, ↓State.endGroup_auxEq, auxEq_mk, auxEq_parts]

theorem execGroupGoDeadline_auxEq {t : Nat} {s : State} {s' : State} (h : execGroupGoDeadline t s = .next s') : s'.aux = s.aux := by
  unfold execGroupGoDeadline at h
  cases h
  repeat' first
    | with_reducible rfl
    | with_reducible apply auxEq_ite
    | (simp only [↓State.at__auxEq, ↓State.endGroup_auxEq, auxEq_mk]; done)
    | split
    | simp only [↓State.at__auxEq, ↓State.endGroup_auxEq, auxEq_mk, auxEq_parts]

theorem execBalancePolicy_auxEq {t : Nat} {c : Cmd} {s s' : State} (h : execBalancePolicy t c s = .next s') : s'.aux = s.aux := by
  unfold execBalancePolicy at h
  cases h
  refine State.serve_auxEq (fun s ht => ?_) ?_
  · exact (State.balancePolicy_auxEq s c).trans ht
  · exact State.at__auxEq ..

theorem execEnumerate_auxEq {t : Nat} {c : Cmd} {s : State} {s' : State} (h : execEnumerate t c s = .next s') : s'.aux = s.aux := by
  unfold execEnumerate at h
  cases h
  repeat' first
    | with_reducible rfl
    | with_reducible apply auxEq_ite
    | with_reducible refine State.serve_auxEq (fun _ ht => ?_) ?_
    | (simp only [↓State.complete_auxEq, ↓State.at__auxEq, ↓State.startEnumeration_auxEq, auxEq_mk, *]; done)
    | split
    | simp only [↓State.complete_auxEq, ↓State.at__auxEq, ↓State.startEnumeration_auxEq, auxEq_mk, auxEq_parts, *]

theorem execHifReset_auxEq {t cause : Nat} {s : State} {s' : State} (h : execHifReset t cause s = .next s') : s'.aux = s.aux := by
  unfold execHifReset at h
  cases h
  repeat' first
    | with_reducible rfl
    | with_reducible apply auxEq_ite
    | (simp only [↓State.event_auxEq, ↓State.modHif_auxEq, ↓State.hifClear_auxEq, ↓State.at__auxEq, auxEq_mk]; done)
    | split
    | simp only [↓State.event_auxEq, ↓State.modHif_auxEq, ↓State.hifClear_auxEq, ↓State.at__auxEq, auxEq_mk, auxEq_parts]

theorem execHifEnable_auxEq {t value : Nat} {s : State} {s' : State} (h : execHifEnable t value s = .next s') : s'.aux = s.aux := by
  unfold execHifEnable at h
  cases h
  split <;> simp only [↓State.writeCtrl_auxEq, ↓State.at__auxEq, ↓State.undoze_auxEq, auxEq_mk, auxEq_parts]

theorem execHifShutdown_auxEq {t value : Nat} {s : State} {s' : State} (h : execHifShutdown t value s = .next s') : s'.aux = s.aux := by
  unfold execHifShutdown at h
  cases h
  split <;> simp only [↓State.writeCtrl_auxEq, ↓State.at__auxEq, ↓State.undoze_auxEq, auxEq_mk, auxEq_parts]

theorem execQueueEnable_auxEq {t off value : Nat} {s : State} {s' : State} (h : execQueueEnable t off value s = .next s') : s'.aux = s.aux := by
  unfold execQueueEnable at h
  cases h
  split <;> simp only [↓State.at__auxEq, ↓State.undoze_auxEq, ↓State.writeReg_auxEq, auxEq_mk, auxEq_parts]

theorem execQueueDisable_auxEq {t off value : Nat} {s : State} {s' : State} (h : execQueueDisable t off value s = .next s') : s'.aux = s.aux := by
  unfold execQueueDisable at h
  cases h
  split <;> simp only [↓State.at__auxEq, ↓State.undoze_auxEq, ↓State.writeReg_auxEq, auxEq_mk, auxEq_parts]

theorem execRegisterWrite_auxEq {t off value size : Nat} {s : State} {s' : State} (h : execRegisterWrite t off value size s = .next s') : s'.aux = s.aux := by
  unfold execRegisterWrite at h
  cases h
  repeat' first
    | with_reducible rfl
    | with_reducible apply auxEq_ite
    | (simp only [↓State.emit_auxEq, ↓State.undoze_auxEq, ↓State.barAccess_auxEq, ↓State.at__auxEq, ↓State.writeMsix_auxEq, ↓State.writeReg_auxEq, auxEq_mk]; done)
    | split
    | simp only [↓State.emit_auxEq, ↓State.undoze_auxEq, ↓State.barAccess_auxEq, ↓State.at__auxEq, ↓State.writeMsix_auxEq, ↓State.writeReg_auxEq, auxEq_mk, auxEq_parts]

theorem execKick_auxEq {t _value : Nat} {s : State} {s' : State} (h : execKick t _value s = .next s') : s'.aux = s.aux := by
  unfold execKick at h
  cases h
  split <;> simp only [↓State.at__auxEq, ↓State.undoze_auxEq, ↓State.kicked_auxEq, auxEq_mk, auxEq_parts]

theorem execDoorbellPoll_auxEq {t : Nat} {s : State} {s' : State} (h : execDoorbellPoll t s = .next s') : s'.aux = s.aux := by
  unfold execDoorbellPoll at h
  cases h
  split <;> simp only [↓State.at__auxEq, ↓State.startPoll_auxEq, auxEq_mk, auxEq_parts]

theorem execDoorbellReadComplete_auxEq {t : Nat} {words : List Nat} {s : State} {s' : State} (h : execDoorbellReadComplete t words s = .next s') : s'.aux = s.aux := by
  unfold execDoorbellReadComplete at h
  cases h
  repeat' first
    | with_reducible rfl
    | with_reducible apply auxEq_ite
    | with_reducible refine (foldl_auxEq (fun _ _ => ?_) _ _).trans ?_
    | (simp only [↓State.takeCqHead_auxEq, ↓State.modHif_auxEq, ↓State.takeSqTail_auxEq, ↓State.at__auxEq, ↓State.takeStrHead_auxEq, ↓State.checkDrain_auxEq, ↓State.startPoll_auxEq, ↓State.takeEqHead_auxEq, auxEq_mk]; done)
    | split
    | simp only [↓State.takeCqHead_auxEq, ↓State.modHif_auxEq, ↓State.takeSqTail_auxEq, ↓State.at__auxEq, ↓State.takeStrHead_auxEq, ↓State.checkDrain_auxEq, ↓State.startPoll_auxEq, ↓State.takeEqHead_auxEq, auxEq_mk, auxEq_parts]

theorem execDescriptorFetch_auxEq {t sq : Nat} {bytes listBytes data : List Byte} {s : State} {s' : State} (h : execDescriptorFetch t sq bytes listBytes data s = .next s') : s'.aux = s.aux := by
  unfold execDescriptorFetch at h
  cases h
  repeat' first
    | with_reducible rfl
    | with_reducible apply auxEq_ite
    | (simp only [↓State.at__auxEq, ↓State.emit_auxEq, ↓State.modHif_auxEq, ↓State.takeDescriptor_auxEq, ↓State.noteValid_auxEq, ↓State.putSq_auxEq, auxEq_mk]; done)
    | split
    | simp only [↓State.at__auxEq, ↓State.emit_auxEq, ↓State.modHif_auxEq, ↓State.takeDescriptor_auxEq, ↓State.noteValid_auxEq, ↓State.putSq_auxEq, auxEq_mk, auxEq_parts]

theorem execCommandTimeout_auxEq {t sq cid : Nat} {s : State} {s' : State} (h : execCommandTimeout t sq cid s = .next s') : s'.aux = s.aux := by
  unfold execCommandTimeout at h
  cases h
  repeat' first
    | with_reducible rfl
    | with_reducible apply auxEq_ite
    | (simp only [↓State.at__auxEq, ↓State.queueCompletion_auxEq, ↓State.startAll_auxEq, ↓State.finishBroadcast_auxEq, auxEq_mk]; done)
    | split
    | simp only [↓State.at__auxEq, ↓State.queueCompletion_auxEq, ↓State.startAll_auxEq, ↓State.finishBroadcast_auxEq, auxEq_mk, auxEq_parts]

theorem execStreamEntryWrite_auxEq {t ring : Nat} {ok : Bool} {s : State} {s' : State} (h : execStreamEntryWrite t ring ok s = .next s') : s'.aux = s.aux := by
  unfold execStreamEntryWrite at h
  cases h
  repeat' first
    | with_reducible rfl
    | with_reducible apply auxEq_ite
    | (simp only [↓State.writeStream_auxEq, ↓State.putStr_auxEq, ↓State.queueError_auxEq, ↓State.at__auxEq, ↓State.checkDrain_auxEq, ↓State.endClosed_auxEq, auxEq_mk]; done)
    | split
    | simp only [↓State.writeStream_auxEq, ↓State.putStr_auxEq, ↓State.queueError_auxEq, ↓State.at__auxEq, ↓State.checkDrain_auxEq, ↓State.endClosed_auxEq, auxEq_mk, auxEq_parts]

theorem execEventEntryWrite_auxEq {t : Nat} {ok : Bool} {s : State} {s' : State} (h : execEventEntryWrite t ok s = .next s') : s'.aux = s.aux := by
  unfold execEventEntryWrite at h
  cases h
  repeat' first
    | with_reducible rfl
    | with_reducible apply auxEq_ite
    | (simp only [↓State.hifFatal_auxEq, ↓State.at__auxEq, ↓State.writeEvent_auxEq, ↓State.checkDrain_auxEq, auxEq_mk]; done)
    | split
    | simp only [↓State.hifFatal_auxEq, ↓State.at__auxEq, ↓State.writeEvent_auxEq, ↓State.checkDrain_auxEq, auxEq_mk, auxEq_parts]

theorem execInterruptCoalesceExpire_auxEq {t kind idx : Nat} {s : State} {s' : State} (h : execInterruptCoalesceExpire t kind idx s = .next s') : s'.aux = s.aux := by
  unfold execInterruptCoalesceExpire at h
  cases h
  repeat' first
    | with_reducible apply auxEq_ite
    | exact (State.coalesced_auxEq (fun _ _ => State.putCq_auxEq ..)).trans (State.at__auxEq ..)
    | exact (State.coalesced_auxEq (fun _ _ => State.putStr_auxEq ..)).trans (State.at__auxEq ..)
    | exact (State.coalesced_auxEq (fun _ _ => State.putEq_auxEq ..)).trans (State.at__auxEq ..)
    | exact State.at__auxEq ..

theorem execMsixUnmask_auxEq {t vector : Nat} {s : State} {s' : State} (h : execMsixUnmask t vector s = .next s') : s'.aux = s.aux := by
  unfold execMsixUnmask at h
  cases h
  split <;> simp only [↓State.at__auxEq, ↓State.unmask_auxEq, auxEq_mk, auxEq_parts]

theorem execEventDelayReport_auxEq {t : Nat} {s : State} {s' : State} (h : execEventDelayReport t s = .next s') : s'.aux = s.aux := by
  unfold execEventDelayReport at h
  cases h
  split <;> simp only [↓State.at__auxEq, ↓State.event_auxEq, ↓State.modHif_auxEq, auxEq_mk, auxEq_parts]

theorem execHostReadTimeout_auxEq {t what idx : Nat} {acc : HostAccess} {s : State} {s' : State} (h : execHostReadTimeout t what idx acc s = .next s') : s'.aux = s.aux := by
  unfold execHostReadTimeout at h
  cases h
  repeat' first
    | with_reducible rfl
    | with_reducible apply auxEq_ite
    | (simp only [↓State.modHif_auxEq, ↓State.queueError_auxEq, ↓State.at__auxEq, ↓State.checkDrain_auxEq, ↓State.hifFatal_auxEq, ↓State.readFailed_auxEq, ↓State.writeFailed_auxEq, ↓State.putSq_auxEq, auxEq_mk]; done)
    | split
    | simp only [↓State.modHif_auxEq, ↓State.queueError_auxEq, ↓State.at__auxEq, ↓State.checkDrain_auxEq, ↓State.hifFatal_auxEq, ↓State.readFailed_auxEq, ↓State.writeFailed_auxEq, ↓State.putSq_auxEq, auxEq_mk, auxEq_parts]

theorem execCompletionFrameReceive_auxEq {t : Nat} {bytes : List Byte} {s : State} {s' : State} (h : execCompletionFrameReceive t bytes s = .next s') : s'.aux = s.aux := by
  unfold execCompletionFrameReceive at h
  cases h
  repeat' first
    | with_reducible rfl
    | with_reducible apply auxEq_ite
    | (simp only [↓State.assemble_auxEq, ↓State.modHif_auxEq, ↓State.accept_auxEq, ↓State.at__auxEq, ↓State.startAll_auxEq, ↓State.takeCompletion_auxEq, ↓State.notePrepared_auxEq, auxEq_mk]; done)
    | split
    | simp only [↓State.assemble_auxEq, ↓State.modHif_auxEq, ↓State.accept_auxEq, ↓State.at__auxEq, ↓State.startAll_auxEq, ↓State.takeCompletion_auxEq, ↓State.notePrepared_auxEq, auxEq_mk, auxEq_parts]

theorem execEventFrameReceive_auxEq {t : Nat} {bytes : List Byte} {s : State} {s' : State} (h : execEventFrameReceive t bytes s = .next s') : s'.aux = s.aux := by
  unfold execEventFrameReceive at h
  cases h
  repeat' first
    | with_reducible rfl
    | with_reducible apply auxEq_ite
    | (simp only [↓State.assemble_auxEq, ↓State.blackBox_auxEq, ↓State.modHif_auxEq, ↓State.accept_auxEq, ↓State.at__auxEq, ↓State.startAll_auxEq, ↓State.awake_auxEq, ↓State.drawBits_auxEq, auxEq_mk]; done)
    | split
    | simp only [↓State.assemble_auxEq, ↓State.blackBox_auxEq, ↓State.modHif_auxEq, ↓State.accept_auxEq, ↓State.at__auxEq, ↓State.startAll_auxEq, ↓State.awake_auxEq, ↓State.drawBits_auxEq, auxEq_mk, auxEq_parts]

theorem execRecordArrive_auxEq {t k : Nat} {intact : Bool} {s : State} {s' : State} (h : execRecordArrive t k intact s = .next s') : s'.aux = s.aux := by
  unfold execRecordArrive at h
  cases h
  repeat' first
    | with_reducible rfl
    | with_reducible apply auxEq_ite
    | with_reducible refine onDie_auxEq (fun _ => ?_) ?_
    | (simp only [↓State.dropRec_auxEq, ↓State.at__auxEq, ↓State.place_auxEq, ↓State.checkRejected_auxEq, ↓State.modDie_auxEq, auxEq_mk]; done)
    | split
    | simp only [↓State.dropRec_auxEq, ↓State.at__auxEq, ↓State.place_auxEq, ↓State.checkRejected_auxEq, ↓State.modDie_auxEq, auxEq_mk, auxEq_parts]

theorem execDieRecordResend_auxEq {t k : Nat} {s : State} {s' : State} (h : execDieRecordResend t k s = .next s') : s'.aux = s.aux := by
  unfold execDieRecordResend at h
  cases h
  repeat' first
    | with_reducible rfl
    | with_reducible apply auxEq_ite
    | with_reducible refine onDie_auxEq (fun _ => ?_) ?_
    | (simp only [↓State.at__auxEq, ↓State.placement_auxEq, ↓State.modDie_auxEq, ↓State.resend_auxEq, auxEq_mk]; done)
    | split
    | simp only [↓State.at__auxEq, ↓State.placement_auxEq, ↓State.modDie_auxEq, ↓State.resend_auxEq, auxEq_mk, auxEq_parts]

theorem execUnitProgramComplete_auxEq {t group : Nat} {ok : Bool} {s : State} {s' : State} (h : execUnitProgramComplete t group ok s = .next s') : s'.aux = s.aux := by
  unfold execUnitProgramComplete at h
  cases h
  repeat' first
    | with_reducible rfl
    | with_reducible apply auxEq_ite
    | (simp only [↓State.at__auxEq, ↓State.programHead_auxEq, auxEq_mk]; done)
    | split
    | simp only [↓State.at__auxEq, ↓State.programHead_auxEq, auxEq_mk, auxEq_parts]

theorem execD2UnitClose_auxEq {t : Nat} {s : State} {s' : State} (h : execD2UnitClose t s = .next s') : s'.aux = s.aux := by
  unfold execD2UnitClose at h
  cases h
  repeat' first
    | with_reducible rfl
    | with_reducible apply auxEq_ite
    | (simp only [↓State.at__auxEq, auxEq_mk]; done)
    | split
    | simp only [↓State.at__auxEq, auxEq_mk, auxEq_parts]

theorem execBucketAccrue_auxEq {t : Nat} {s : State} {s' : State} (h : execBucketAccrue t s = .next s') : s'.aux = s.aux := by
  unfold execBucketAccrue at h
  cases h
  split <;> simp only [↓State.at__auxEq, ↓State.moveRetired_auxEq, ↓State.startUnit_auxEq, ↓State.bucketFlag_auxEq, auxEq_mk, auxEq_parts]

theorem execStorageTempSample_auxEq {t : Nat} {temp : Int} {s : State} {s' : State} (h : execStorageTempSample t temp s = .next s') : s'.aux = s.aux := by
  unfold execStorageTempSample at h
  cases h
  repeat' first
    | with_reducible rfl
    | with_reducible apply auxEq_ite
    | with_reducible refine (foldl_auxEq (fun _ _ => ?_) _ _).trans ?_
    | (simp only [↓State.at__auxEq, ↓State.moveRetired_auxEq, ↓State.placement_auxEq, ↓State.writer_auxEq, auxEq_mk]; done)
    | split
    | simp only [↓State.at__auxEq, ↓State.moveRetired_auxEq, ↓State.placement_auxEq, ↓State.writer_auxEq, auxEq_mk, auxEq_parts]

theorem execBlockRefresh_auxEq {t block : Nat} {read : BlockRead} {s : State} {s' : State} (h : execBlockRefresh t block read s = .next s') : s'.aux = s.aux := by
  unfold execBlockRefresh at h
  cases h
  refine auxEq_ite (State.at__auxEq ..) ?_
  split
  · exact State.at__auxEq ..
  · rename_i r h
    have hr : r.aux = s.aux := (State.copyBlock_auxEq h).trans (State.at__auxEq ..)
    exact auxEq_ite ((State.writer_auxEq _).trans ((State.bucketFlag_auxEq _).trans ((State.retireBlock_auxEq ..).trans hr)))
      ((State.writer_auxEq _).trans ((State.bucketFlag_auxEq _).trans ((State.levelWear_auxEq _).trans (Eq.trans rfl hr))))

theorem execStorageDieFail_auxEq {t : Nat} {s : State} {s' : State} (h : execStorageDieFail t s = .next s') : s'.aux = s.aux := by
  unfold execStorageDieFail at h
  cases h
  simp only [↓State.at__auxEq, ↓State.failStore_auxEq, auxEq_mk, auxEq_parts]

theorem execSpillHolderRechoose_auxEq {t : Nat} {candidates : List Nat} {s : State} {s' : State} (h : execSpillHolderRechoose t candidates s = .next s') : s'.aux = s.aux := by
  unfold execSpillHolderRechoose at h
  cases h
  repeat' first
    | with_reducible rfl
    | with_reducible apply auxEq_ite
    | (simp only [↓State.at__auxEq, ↓State.writer_auxEq, ↓State.placement_auxEq, auxEq_mk]; done)
    | split
    | simp only [↓State.at__auxEq, ↓State.writer_auxEq, ↓State.placement_auxEq, auxEq_mk, auxEq_parts]

theorem execRecordRetentionExpire_auxEq {t : Nat} {s : State} {s' : State} (h : execRecordRetentionExpire t s = .next s') : s'.aux = s.aux := by
  unfold execRecordRetentionExpire at h
  cases h
  simp only [↓State.at__auxEq, auxEq_mk, auxEq_parts]

theorem execRecordFrameReceive_auxEq {t : Nat} {bytes : List Byte} {s : State} {s' : State} (h : execRecordFrameReceive t bytes s = .next s') : s'.aux = s.aux := by
  unfold execRecordFrameReceive at h
  cases h
  repeat' first
    | with_reducible rfl
    | with_reducible apply auxEq_ite
    | (simp only [↓State.assemble_auxEq, ↓State.blackBox_auxEq, ↓State.answerHolder_auxEq, ↓State.takeSpill_auxEq, ↓State.originate_auxEq, ↓State.accept_auxEq, ↓State.at__auxEq, ↓State.claimAll_auxEq, ↓State.takeHeld_auxEq, auxEq_mk]; done)
    | split
    | simp only [↓State.assemble_auxEq, ↓State.blackBox_auxEq, ↓State.answerHolder_auxEq, ↓State.takeSpill_auxEq, ↓State.originate_auxEq, ↓State.accept_auxEq, ↓State.at__auxEq, ↓State.claimAll_auxEq, ↓State.takeHeld_auxEq, auxEq_mk, auxEq_parts]

theorem execLocusEvaluate_auxEq {t : Nat} {load : List Rat} {cluster : Rat} {s : State} {s' : State} (h : execLocusEvaluate t load cluster s = .next s') : s'.aux = s.aux := by
  unfold execLocusEvaluate at h
  cases h
  repeat' first
    | with_reducible rfl
    | with_reducible apply auxEq_ite
    | with_reducible refine (foldl_auxEq (fun _ _ => ?_) _ _).trans ?_
    | (simp only [↓State.evaluateDie_auxEq, ↓State.modDies_auxEq, ↓State.at__auxEq, ↓State.adoptLocus_auxEq, ↓State.placement_auxEq, auxEq_mk]; done)
    | split
    | simp only [↓State.evaluateDie_auxEq, ↓State.modDies_auxEq, ↓State.at__auxEq, ↓State.adoptLocus_auxEq, ↓State.placement_auxEq, auxEq_mk, auxEq_parts]

theorem execTaskMove_auxEq {t k task : Nat} {complete : Bool} {s : State} {s' : State} (h : execTaskMove t k task complete s = .next s') : s'.aux = s.aux := by
  unfold execTaskMove at h
  cases h
  repeat' first
    | with_reducible rfl
    | with_reducible apply auxEq_ite
    | with_reducible refine onDie_auxEq (fun _ => ?_) ?_
    | (simp only [↓State.drawRats_auxEq, ↓State.at__auxEq, ↓State.placement_auxEq, ↓State.modDie_auxEq, auxEq_mk]; done)
    | split
    | simp only [↓State.drawRats_auxEq, ↓State.at__auxEq, ↓State.placement_auxEq, ↓State.modDie_auxEq, auxEq_mk, auxEq_parts]

theorem execInputValid_auxEq {t which : Nat} {v : Rat} {s : State} {s' : State} (h : execInputValid t which v s = .next s') : s'.aux = s.aux := by
  unfold execInputValid at h
  cases h
  repeat' first
    | with_reducible rfl
    | with_reducible apply auxEq_ite
    | (simp only [↓State.modPower_auxEq, ↓State.evalOuts_auxEq, ↓State.at__auxEq, ↓State.wake_auxEq, ↓State.noteInput_auxEq, ↓State.setInput_auxEq, ↓State.chooseSrc_auxEq, auxEq_mk]; done)
    | split
    | simp only [↓State.modPower_auxEq, ↓State.evalOuts_auxEq, ↓State.at__auxEq, ↓State.wake_auxEq, ↓State.noteInput_auxEq, ↓State.setInput_auxEq, ↓State.chooseSrc_auxEq, auxEq_mk, auxEq_parts]

theorem execInputInvalid_auxEq {t which : Nat} {v : Rat} {s : State} {s' : State} (h : execInputInvalid t which v s = .next s') : s'.aux = s.aux := by
  unfold execInputInvalid at h
  cases h
  repeat' first
    | with_reducible rfl
    | with_reducible apply auxEq_ite
    | (simp only [↓State.at__auxEq, ↓State.evalOuts_auxEq, ↓State.setInput_auxEq, ↓State.noteInput_auxEq, ↓State.inputsGone_auxEq, ↓State.chooseSrc_auxEq, auxEq_mk]; done)
    | split
    | simp only [↓State.at__auxEq, ↓State.evalOuts_auxEq, ↓State.setInput_auxEq, ↓State.noteInput_auxEq, ↓State.inputsGone_auxEq, ↓State.chooseSrc_auxEq, auxEq_mk, auxEq_parts]

theorem execRailRetry_auxEq {t rail : Nat} {s : State} {s' : State} (h : execRailRetry t rail s = .next s') : s'.aux = s.aux := by
  unfold execRailRetry at h
  cases h
  repeat' first
    | with_reducible rfl
    | with_reducible apply auxEq_ite
    | (simp only [↓State.at__auxEq, ↓State.modRail_auxEq, auxEq_mk]; done)
    | split
    | simp only [↓State.at__auxEq, ↓State.modRail_auxEq, auxEq_mk, auxEq_parts]

theorem execRailCounterCopy_auxEq {t : Nat} {s : State} {s' : State} (h : execRailCounterCopy t s = .next s') : s'.aux = s.aux := by
  unfold execRailCounterCopy at h
  cases h
  split <;> simp only [↓State.at__auxEq, ↓State.copyCounters_auxEq, ↓State.accrueTest_auxEq, ↓State.modPower_auxEq, auxEq_mk, auxEq_parts]

theorem execHoldCharged_auxEq {t mv : Nat} {s : State} {s' : State} (h : execHoldCharged t mv s = .next s') : s'.aux = s.aux := by
  unfold execHoldCharged at h
  cases h
  repeat' first
    | with_reducible rfl
    | with_reducible apply auxEq_ite
    | (simp only [↓State.at__auxEq, ↓State.modRail_auxEq, ↓State.event_auxEq, ↓State.setHoldEff_auxEq, ↓State.modPower_auxEq, auxEq_mk]; done)
    | split
    | simp only [↓State.at__auxEq, ↓State.modRail_auxEq, ↓State.event_auxEq, ↓State.setHoldEff_auxEq, ↓State.modPower_auxEq, auxEq_mk, auxEq_parts]

theorem execHoldLow_auxEq {t mv : Nat} {s : State} {s' : State} (h : execHoldLow t mv s = .next s') : s'.aux = s.aux := by
  unfold execHoldLow at h
  cases h
  split <;> simp only [↓State.at__auxEq, ↓State.setHoldEff_auxEq, ↓State.modPower_auxEq, ↓State.countRail_auxEq, auxEq_mk, auxEq_parts]

theorem execHoldChargeTimeout_auxEq {t : Nat} {s : State} {s' : State} (h : execHoldChargeTimeout t s = .next s') : s'.aux = s.aux := by
  unfold execHoldChargeTimeout at h
  cases h
  split <;> simp only [↓State.at__auxEq, ↓State.event_auxEq, ↓State.modPower_auxEq, ↓State.countRail_auxEq, auxEq_mk, auxEq_parts]

theorem execPowerUpSequence_auxEq {t : Nat} {strap : List Nat} {s : State} {s' : State} (h : execPowerUpSequence t strap s = .next s') : s'.aux = s.aux := by
  unfold execPowerUpSequence at h
  cases h
  repeat' first
    | with_reducible rfl
    | with_reducible apply auxEq_ite
    | (simp only [↓State.at__auxEq, ↓State.modRail_auxEq, ↓State.takeStrap_auxEq, ↓State.modPower_auxEq, ↓State.startUp_auxEq, auxEq_mk]; done)
    | split
    | simp only [↓State.at__auxEq, ↓State.modRail_auxEq, ↓State.takeStrap_auxEq, ↓State.modPower_auxEq, ↓State.startUp_auxEq, auxEq_mk, auxEq_parts]

theorem execPowerUpRetry_auxEq {t : Nat} {s : State} {s' : State} (h : execPowerUpRetry t s = .next s') : s'.aux = s.aux := by
  unfold execPowerUpRetry at h
  cases h
  repeat' first
    | with_reducible rfl
    | with_reducible apply auxEq_ite
    | (simp only [↓State.at__auxEq, ↓State.modPower_auxEq, ↓State.startUp_auxEq, auxEq_mk]; done)
    | split
    | simp only [↓State.at__auxEq, ↓State.modPower_auxEq, ↓State.startUp_auxEq, auxEq_mk, auxEq_parts]

theorem execRailDischarged_auxEq {t rail : Nat} {timedOut : Bool} {s : State} {s' : State} (h : execRailDischarged t rail timedOut s = .next s') : s'.aux = s.aux := by
  unfold execRailDischarged at h
  cases h
  repeat' first
    | with_reducible rfl
    | with_reducible apply auxEq_ite
    | (simp only [↓State.at__auxEq, ↓State.modRail_auxEq, ↓State.downStep_auxEq, ↓State.countRail_auxEq, auxEq_mk]; done)
    | split
    | simp only [↓State.at__auxEq, ↓State.modRail_auxEq, ↓State.downStep_auxEq, ↓State.countRail_auxEq, auxEq_mk, auxEq_parts]

theorem execShutdownRestart_auxEq {t : Nat} {s : State} {s' : State} (h : execShutdownRestart t s = .next s') : s'.aux = s.aux := by
  unfold execShutdownRestart at h
  cases h
  repeat' first
    | with_reducible rfl
    | with_reducible apply auxEq_ite
    | (simp only [↓State.at__auxEq, ↓State.modPower_auxEq, auxEq_mk]; done)
    | split
    | simp only [↓State.at__auxEq, ↓State.modPower_auxEq, auxEq_mk, auxEq_parts]

theorem execDozeEnter_auxEq {t : Nat} {s : State} {s' : State} (h : execDozeEnter t s = .next s') : s'.aux = s.aux := by
  unfold execDozeEnter at h
  cases h
  repeat' first
    | with_reducible rfl
    | with_reducible apply auxEq_ite
    | (simp only [↓State.modPower_auxEq, ↓State.at__auxEq, ↓State.doze_auxEq, auxEq_mk]; done)
    | split
    | simp only [↓State.modPower_auxEq, ↓State.at__auxEq, ↓State.doze_auxEq, auxEq_mk, auxEq_parts]

theorem execDozeExit_auxEq {t : Nat} {s : State} {s' : State} (h : execDozeExit t s = .next s') : s'.aux = s.aux := by
  unfold execDozeExit at h
  cases h
  split <;> simp only [↓State.at__auxEq, ↓State.undoze_auxEq, auxEq_mk, auxEq_parts]

theorem execWakeSource_auxEq {t code : Nat} {s : State} {s' : State} (h : execWakeSource t code s = .next s') : s'.aux = s.aux := by
  unfold execWakeSource at h
  cases h
  split <;> simp only [↓State.at__auxEq, ↓State.wake_auxEq, auxEq_mk, auxEq_parts]

theorem execSleepTimerExpire_auxEq {t : Nat} {s : State} {s' : State} (h : execSleepTimerExpire t s = .next s') : s'.aux = s.aux := by
  unfold execSleepTimerExpire at h
  cases h
  split <;> simp only [↓State.at__auxEq, ↓State.wake_auxEq, auxEq_mk, auxEq_parts]

theorem execAonSupplyLoss_auxEq {t : Nat} {s : State} {s' : State} (h : execAonSupplyLoss t s = .next s') : s'.aux = s.aux := by
  unfold execAonSupplyLoss at h
  cases h
  split <;> simp only [↓State.at__auxEq, ↓State.modPower_auxEq, ↓State.tearWrites_auxEq, auxEq_mk, auxEq_parts]

theorem execSleepListenWindow_auxEq {t : Nat} {side : Side} {s : State} {s' : State} (h : execSleepListenWindow t side s = .next s') : s'.aux = s.aux := by
  unfold execSleepListenWindow at h
  cases h
  repeat' first
    | with_reducible rfl
    | with_reducible apply auxEq_ite
    | (simp only [↓State.at__auxEq, ↓State.modPort_auxEq, auxEq_mk]; done)
    | split
    | simp only [↓State.at__auxEq, ↓State.modPort_auxEq, auxEq_mk, auxEq_parts]

theorem execWakeRunReceive_auxEq {t : Nat} {side : Side} {durationNs : Nat} {s : State} {s' : State} (h : execWakeRunReceive t side durationNs s = .next s') : s'.aux = s.aux := by
  unfold execWakeRunReceive at h
  cases h
  split <;> simp only [↓State.at__auxEq, ↓State.wake_auxEq, ↓State.emit_auxEq, auxEq_mk, auxEq_parts]

theorem execLongBeaconDetect_auxEq {t : Nat} {side : Side} {bits : List Bool} {s : State} {s' : State} (h : execLongBeaconDetect t side bits s = .next s') : s'.aux = s.aux := by
  unfold execLongBeaconDetect at h
  cases h
  repeat' first
    | with_reducible rfl
    | with_reducible apply auxEq_ite
    | (simp only [↓State.at__auxEq, ↓State.wake_auxEq, auxEq_mk]; done)
    | split
    | simp only [↓State.at__auxEq, ↓State.wake_auxEq, auxEq_mk, auxEq_parts]

theorem execRstNRelease_auxEq {t : Nat} {strap : List Nat} {s : State} {s' : State} (h : execRstNRelease t strap s = .next s') : s'.aux = s.aux := by
  unfold execRstNRelease at h
  cases h
  split <;> simp only [↓State.at__auxEq, ↓State.endReset_auxEq, auxEq_mk, auxEq_parts]

theorem execRstNStuck_auxEq {t : Nat} {strap : List Nat} {s : State} {s' : State} (h : execRstNStuck t strap s = .next s') : s'.aux = s.aux := by
  unfold execRstNStuck at h
  cases h
  split <;> simp only [↓State.at__auxEq, ↓State.endReset_auxEq, ↓State.modPower_auxEq, auxEq_mk, auxEq_parts]

theorem execRstIgnoredClear_auxEq {t : Nat} {s : State} {s' : State} (h : execRstIgnoredClear t s = .next s') : s'.aux = s.aux := by
  unfold execRstIgnoredClear at h
  cases h
  simp only [↓State.at__auxEq, ↓State.modPower_auxEq, auxEq_mk, auxEq_parts]

theorem execDieIsolationTimeout_auxEq {t k : Nat} {s : State} {s' : State} (h : execDieIsolationTimeout t k s = .next s') : s'.aux = s.aux := by
  unfold execDieIsolationTimeout at h
  cases h
  refine onDie_auxEq (fun _ => ?_) ?_
  · split <;> simp only [↓State.at__auxEq, ↓State.precOff_auxEq, auxEq_mk, auxEq_parts]
  · simp only [↓State.at__auxEq, ↓State.precOff_auxEq, auxEq_mk, auxEq_parts]

theorem execSliceStart_auxEq {t k : Nat} {s : State} {s' : State} (h : execSliceStart t k s = .next s') : s'.aux = s.aux := by
  unfold execSliceStart at h
  cases h
  repeat' first
    | with_reducible rfl
    | with_reducible apply auxEq_ite
    | (simp only [↓State.at__auxEq, ↓State.accrueTest_auxEq, ↓State.modTest_auxEq, ↓State.startSlice_auxEq, auxEq_mk]; done)
    | split
    | simp only [↓State.at__auxEq, ↓State.accrueTest_auxEq, ↓State.modTest_auxEq, ↓State.startSlice_auxEq, auxEq_mk, auxEq_parts]

theorem execSelftestOverdue_auxEq {t k block : Nat} {s : State} {s' : State} (h : execSelftestOverdue t k block s = .next s') : s'.aux = s.aux := by
  unfold execSelftestOverdue at h
  cases h
  repeat' first
    | with_reducible rfl
    | with_reducible apply auxEq_ite
    | (simp only [↓State.at__auxEq, ↓State.dieEvent_auxEq, ↓State.accrueTest_auxEq, ↓State.modTest_auxEq, ↓State.event_auxEq, auxEq_mk]; done)
    | split
    | simp only [↓State.at__auxEq, ↓State.dieEvent_auxEq, ↓State.accrueTest_auxEq, ↓State.modTest_auxEq, ↓State.event_auxEq, auxEq_mk, auxEq_parts]

theorem execSelftestRunAll_auxEq {t : Nat} {c : Cmd} {results : List Nat} {s : State} {s' : State} (h : execSelftestRunAll t c results s = .next s') : s'.aux = s.aux := by
  unfold execSelftestRunAll at h
  cases h
  refine State.serve_auxEq (fun u hu => ?_) (State.at__auxEq ..)
  refine auxEq_ite ((State.complete_auxEq ..).trans hu) ?_
  refine (State.complete_auxEq ..).trans (Eq.trans ?_ hu)
  exact foldl_auxEq_fst (fun acc b => State.runBlock_auxEq ..) _ _

theorem execSelftestRunBlock_auxEq {t : Nat} {c : Cmd} {result : Nat} {s : State} {s' : State} (h : execSelftestRunBlock t c result s = .next s') : s'.aux = s.aux := by
  unfold execSelftestRunBlock at h
  cases h
  repeat' first
    | with_reducible rfl
    | with_reducible apply auxEq_ite
    | with_reducible refine State.serve_auxEq (fun _ ht => ?_) ?_
    | (simp only [↓State.complete_auxEq, ↓State.at__auxEq, ↓State.runBlock_auxEq, auxEq_mk, *]; done)
    | split
    | simp only [↓State.complete_auxEq, ↓State.at__auxEq, ↓State.runBlock_auxEq, auxEq_mk, auxEq_parts, *]

theorem execCalEarlyEnd_auxEq {t : Nat} {c : Cmd} {s : State} {s' : State} (h : execCalEarlyEnd t c s = .next s') : s'.aux = s.aux := by
  unfold execCalEarlyEnd at h
  cases h
  repeat' first
    | with_reducible rfl
    | with_reducible apply auxEq_ite
    | with_reducible refine State.serve_auxEq (fun _ ht => ?_) ?_
    | (simp only [↓State.complete_auxEq, ↓State.at__auxEq, ↓State.closeRun_auxEq, auxEq_mk, *]; done)
    | split
    | simp only [↓State.complete_auxEq, ↓State.at__auxEq, ↓State.closeRun_auxEq, auxEq_mk, auxEq_parts, *]

theorem execCalReset_auxEq {t : Nat} {c : Cmd} {s : State} {s' : State} (h : execCalReset t c s = .next s') : s'.aux = s.aux := by
  unfold execCalReset at h
  cases h
  repeat' first
    | with_reducible rfl
    | with_reducible apply auxEq_ite
    | with_reducible refine State.serve_auxEq (fun _ ht => ?_) ?_
    | (simp only [↓State.complete_auxEq, ↓State.at__auxEq, ↓State.resetCal_auxEq, auxEq_mk, *]; done)
    | split
    | simp only [↓State.complete_auxEq, ↓State.at__auxEq, ↓State.resetCal_auxEq, auxEq_mk, auxEq_parts, *]

theorem execDieOverheat_auxEq {t k : Nat} {s : State} {s' : State} (h : execDieOverheat t k s = .next s') : s'.aux = s.aux := by
  unfold execDieOverheat at h
  cases h
  refine onDie_auxEq (fun _ => ?_) ?_
  · split <;> simp only [↓State.at__auxEq, ↓State.modDie_auxEq, ↓State.precOff_auxEq, auxEq_mk, auxEq_parts]
  · simp only [↓State.at__auxEq, ↓State.modDie_auxEq, ↓State.precOff_auxEq, auxEq_mk, auxEq_parts]

theorem execDieCooled_auxEq {t k : Nat} {s : State} {s' : State} (h : execDieCooled t k s = .next s') : s'.aux = s.aux := by
  unfold execDieCooled at h
  cases h
  refine onDie_auxEq (fun _ => ?_) ?_ <;> simp only [↓State.at__auxEq, ↓State.modDie_auxEq, auxEq_mk, auxEq_parts]

theorem execMeterStatement_auxEq {t : Nat} {c : Cmd} {s : State} {s' : State} (h : execMeterStatement t c s = .next s') : s'.aux = s.aux := by
  unfold execMeterStatement at h
  cases h
  repeat' first
    | with_reducible rfl
    | with_reducible apply auxEq_ite
    | with_reducible refine State.serve_auxEq (fun _ ht => ?_) ?_
    | (simp only [↓State.at__auxEq, State.modTrust, auxEq_mk, *]; done)
    | split
    | simp only [↓State.at__auxEq, State.modTrust, auxEq_mk, auxEq_parts, *]

theorem execMeterSnapshot_auxEq {t : Nat} {s : State} {s' : State} (h : execMeterSnapshot t s = .next s') : s'.aux = s.aux := by
  unfold execMeterSnapshot at h
  cases h
  split <;> simp only [↓State.at__auxEq, ↓State.blackBox_auxEq, auxEq_mk, auxEq_parts]

theorem execHistoryPeriod_auxEq {t : Nat} {s : State} {s' : State} (h : execHistoryPeriod t s = .next s') : s'.aux = s.aux := by
  unfold execHistoryPeriod at h
  cases h
  split <;> simp only [↓State.at__auxEq, ↓State.historyBody_auxEq, ↓State.blackBox_auxEq, State.modTrust, auxEq_mk, auxEq_parts]

theorem execTrustChallenge_auxEq {t : Nat} {c : Cmd} {s : State} {s' : State} (h : execTrustChallenge t c s = .next s') : s'.aux = s.aux := by
  unfold execTrustChallenge at h
  cases h
  refine State.serve_auxEq (fun u hu => ?_) (State.at__auxEq ..)
  have hn : ∀ (v : State) (n : Option (List Byte × Nat)), (v.modTrust fun x => { x with nonce := n }).aux = v.aux := fun _ _ => rfl
  refine (State.completeData_auxEq ..).trans ?_
  split
  · exact (hn _ _).trans ((State.drawBytes_auxEq ..).trans hu)
  · exact (State.sign_auxEq ..).trans ((hn _ _).trans ((State.drawBytes_auxEq ..).trans hu))

theorem execFirewallViolation_auxEq {t : Nat} {s : State} {s' : State} (h : execFirewallViolation t s = .next s') : s'.aux = s.aux := by
  unfold execFirewallViolation at h
  cases h
  simp only [↓State.at__auxEq, State.modTrust, auxEq_mk, auxEq_parts]

theorem execFirmwareStage_auxEq {t : Nat} {c : Cmd} {data : List Byte} {s : State} {s' : State} (h : execFirmwareStage t c data s = .next s') : s'.aux = s.aux := by
  unfold execFirmwareStage at h
  cases h
  repeat' first
    | with_reducible rfl
    | with_reducible apply auxEq_ite
    | with_reducible refine State.serve_auxEq (fun _ ht => ?_) ?_
    | (simp only [↓State.at__auxEq, ↓State.stageFirmware_auxEq, auxEq_mk, *]; done)
    | split
    | simp only [↓State.at__auxEq, ↓State.stageFirmware_auxEq, auxEq_mk, auxEq_parts, *]

theorem execFirmwareFrameReceive_auxEq {t : Nat} {bytes : List Byte} {s : State} {s' : State} (h : execFirmwareFrameReceive t bytes s = .next s') : s'.aux = s.aux := by
  unfold execFirmwareFrameReceive at h
  cases h
  repeat' first
    | with_reducible rfl
    | with_reducible apply auxEq_ite
    | with_reducible refine State.serve_auxEq (fun _ ht => ?_) ?_
    | (simp only [↓State.at__auxEq, ↓State.stageFirmware_auxEq, ↓State.assemble_auxEq, ↓State.noteValid_auxEq, ↓State.accept_auxEq, auxEq_mk, *]; done)
    | split
    | simp only [↓State.at__auxEq, ↓State.stageFirmware_auxEq, ↓State.assemble_auxEq, ↓State.noteValid_auxEq, ↓State.accept_auxEq, auxEq_mk, auxEq_parts, *]

theorem execFirmwareVerify_auxEq {t : Nat} {c : Cmd} {s : State} {s' : State} (h : execFirmwareVerify t c s = .next s') : s'.aux = s.aux := by
  unfold execFirmwareVerify at h
  cases h
  repeat' first
    | with_reducible rfl
    | with_reducible apply auxEq_ite
    | with_reducible refine State.withStaged_auxEq (fun _ _ ht => ?_) ?_
    | with_reducible refine State.withStaged_auxEq (fun _ _ ht2 => ?_) ?_
    | with_reducible refine State.serve_auxEq (fun _ ht => ?_) ?_
    | (simp only [↓State.complete_auxEq, ↓State.at__auxEq, auxEq_mk, *]; done)
    | split
    | simp only [↓State.complete_auxEq, ↓State.at__auxEq, auxEq_mk, auxEq_parts, *]

theorem execSpanStop_auxEq {t : Nat} {s : State} {s' : State} (h : execSpanStop t s = .next s') : s'.aux = s.aux := by
  unfold execSpanStop at h
  cases h
  repeat' first
    | with_reducible rfl
    | with_reducible apply auxEq_ite
    | (simp only [↓State.at__auxEq, ↓State.accrueTest_auxEq, ↓State.flipSpan_auxEq, ↓State.noteImage_auxEq, State.modTrust, auxEq_mk]; done)
    | split
    | simp only [↓State.at__auxEq, ↓State.accrueTest_auxEq, ↓State.flipSpan_auxEq, ↓State.noteImage_auxEq, State.modTrust, auxEq_mk, auxEq_parts]

theorem execSvnCommit_auxEq {t image : Nat} {s s' : State} (h : execSvnCommit t image s = .next s') : s'.aux = s.aux := by
  unfold execSvnCommit at h
  cases h
  repeat' first
    | with_reducible rfl
    | with_reducible apply auxEq_ite
    | (simp only [↓State.at__auxEq, ↓State.accrueTest_auxEq, State.modTrust, auxEq_mk, *]; done)
    | rfl
    | split

theorem execBlackboxRecordWrite_auxEq {t : Nat} {okA okB : Bool} {s : State} {s' : State} (h : execBlackboxRecordWrite t okA okB s = .next s') : s'.aux = s.aux := by
  unfold execBlackboxRecordWrite at h
  cases h
  split <;> simp only [↓State.at__auxEq, ↓State.writeBb_auxEq, auxEq_mk, auxEq_parts]

theorem execBlackboxRead_auxEq {t : Nat} {c : Cmd} {s : State} {s' : State} (h : execBlackboxRead t c s = .next s') : s'.aux = s.aux := by
  unfold execBlackboxRead at h
  cases h
  repeat' first
    | with_reducible rfl
    | with_reducible apply auxEq_ite
    | with_reducible refine State.serve_auxEq (fun _ ht => ?_) ?_
    | (simp only [↓State.at__auxEq, ↓State.completeData_auxEq, auxEq_mk, *]; done)
    | split
    | simp only [↓State.at__auxEq, ↓State.completeData_auxEq, auxEq_mk, auxEq_parts, *]

theorem execLifeGenkey_auxEq {t : Nat} {c : Cmd} {data : List Byte} {s s' : State} (h : execLifeGenkey t c data s = .next s') :
    s'.aux = s.aux := by
  unfold execLifeGenkey at h
  cases h
  refine State.serve_auxEq (fun s ht => ?_) ?_
  · refine (State.lifecycle_auxEq fun s m => ?_).trans ht
    simp only [State.complete_auxEq, State.blackBox_auxEq, State.lifeEvent_auxEq, State.modTrust, auxEq_mk]
    exact State.drawBits_auxEq ..
  · exact State.at__auxEq ..

theorem execLifeUpdate_auxEq {t : Nat} {c : Cmd} {data : List Byte} {s s' : State} (h : execLifeUpdate t c data s = .next s') :
    s'.aux = s.aux := by
  unfold execLifeUpdate at h
  cases h
  refine State.serve_auxEq (fun s ht => ?_) ?_
  · refine (State.lifecycle_auxEq fun s m => ?_).trans ht
    simp only [State.complete_auxEq, State.sealRecord_auxEq, State.lifeEvent_auxEq, State.modTrust, auxEq_mk]
    rfl
  · exact State.at__auxEq ..

theorem execDebugObserveOpen_auxEq {t : Nat} {s : State} {s' : State} (h : execDebugObserveOpen t s = .next s') : s'.aux = s.aux := by
  unfold execDebugObserveOpen at h
  cases h
  split <;> simp only [↓State.at__auxEq, ↓State.debugRecord_auxEq, ↓State.event_auxEq, State.modTrust, auxEq_mk, auxEq_parts]

theorem execDebugFullOpen_auxEq {t : Nat} {sig : List Byte} {keepAwake : Bool} {s : State} {s' : State} (h : execDebugFullOpen t sig keepAwake s = .next s') : s'.aux = s.aux := by
  unfold execDebugFullOpen at h
  cases h
  repeat' first
    | with_reducible rfl
    | with_reducible apply auxEq_ite
    | (simp only [↓State.drainUrgent_auxEq, ↓State.at__auxEq, ↓State.debugRecord_auxEq, ↓State.event_auxEq, ↓State.dropHops_auxEq, ↓State.drawBytes_auxEq, ↓State.sendSafety_auxEq, State.modTrust, auxEq_mk]; done)
    | split
    | simp only [↓State.drainUrgent_auxEq, ↓State.at__auxEq, ↓State.debugRecord_auxEq, ↓State.event_auxEq, ↓State.dropHops_auxEq, ↓State.drawBytes_auxEq, ↓State.sendSafety_auxEq, State.modTrust, auxEq_mk, auxEq_parts]

end Sys2Proof.Machine
end

