-- ==== Sys2Proof/Laws/BesideKept.lean ====
section
/-! SUPPORT. What the commands of a single-wire port leave alone. -/

namespace Sys2Proof.Machine

set_option linter.all false
set_option maxRecDepth 4000

/-- What the commands of a single-wire port leave alone. -/
def State.beside (s : State) : List Die × SyncState × SafeState × PowerState × List SelfTest × List ChkUnit × ThermState := (s.dies, s.sync, s.safe, s.power, s.selfTest, s.chk, s.therm)

theorem stillEq_mk (now part dies cfg locus hif link sync swp safe power trust selfTest chk therm out freeCtr pending) :
    (State.mk now part dies cfg locus hif link sync swp safe power trust selfTest chk therm out freeCtr pending).beside = (dies, sync, safe, power, selfTest, chk, therm) := rfl

theorem stillEq_parts (s : State) : s.dies = s.beside.1 ∧ s.sync = s.beside.2.1 ∧ s.safe = s.beside.2.2.1 ∧ s.power = s.beside.2.2.2.1 ∧ s.selfTest = s.beside.2.2.2.2.1 ∧ s.chk = s.beside.2.2.2.2.2.1 ∧ s.therm = s.beside.2.2.2.2.2.2 := ⟨rfl, rfl, rfl, rfl, rfl, rfl, rfl⟩

theorem stillEq_ite {c : Prop} {_ : Decidable c} {a b : State} {x : List Die × SyncState × SafeState × PowerState × List SelfTest × List ChkUnit × ThermState} (ha : a.beside = x) (hb : b.beside = x) :
    (if c then a else b).beside = x := by split <;> assumption

theorem foldl_stillEq {α : Type} {f : State → α → State} (h : ∀ s a, (f s a).beside = s.beside) (l : List α) (s : State) :
    (l.foldl f s).beside = s.beside := by
  induction l generalizing s with
  | nil => rfl
  | cons a l ih => exact (ih _).trans (h _ _)

theorem foldl_stillEq_snd {α β : Type} {f : β × State → α → β × State} (h : ∀ s a, (f s a).2.beside = s.2.beside) (l : List α)
    (s : β × State) : (l.foldl f s).2.beside = s.2.beside := by
  induction l generalizing s with
  | nil => rfl
  | cons a l ih => exact (ih _).trans (h _ _)

theorem foldl_stillEq_fst {α β : Type} {f : State × β → α → State × β} (h : ∀ s a, (f s a).1.beside = s.1.beside) (l : List α)
    (s : State × β) : (l.foldl f s).1.beside = s.1.beside := by
  induction l generalizing s with
  | nil => rfl
  | cons a l ih => exact (ih _).trans (h _ _)

theorem onDie_stillEq {s : State} {k : Nat} {f : Die → State} {x : List Die × SyncState × SafeState × PowerState × List SelfTest × List ChkUnit × ThermState} (h : ∀ d, (f d).beside = x) (hs : s.beside = x) :
    (s.onDie k f).beside = x := by
  unfold State.onDie
  split
  · split
    · exact h _
    · exact hs
  · exact hs

theorem State.takeRange_stillEq (s : State) (block target lo hi : Nat) : (State.takeRange s block target lo hi).beside = s.beside := rfl

theorem State.modPort_stillEq (s : State) (side : Side) (f : Port → Port) : (State.modPort s side f).beside = s.beside := by
  unfold State.modPort
  split <;> simp only [stillEq_mk, stillEq_parts]

theorem State.emit_stillEq (s : State) (o : Out) : (State.emit s o).beside = s.beside := rfl

theorem State.enqueue_stillEq (s : State) (side : Side) (f : Frame) : (State.enqueue s side f).beside = s.beside := by
  unfold State.enqueue
  simp only [↓State.modPort_stillEq, stillEq_mk, stillEq_parts]

theorem State.countNoRoute_stillEq (s : State) : (State.countNoRoute s).beside = s.beside := rfl

theorem State.forwardBy_stillEq (s : State) (side : Side) (f : Frame) : (State.forwardBy s side f).beside = s.beside := by
  unfold State.forwardBy
  simp only [↓State.enqueue_stillEq, stillEq_mk, stillEq_parts]

theorem State.egress_stillEq (s : State) (side : Side) (f : Frame) : (State.egress s side f).beside = s.beside := by
  unfold State.egress
  repeat' first
    | with_reducible rfl
    | with_reducible apply stillEq_ite
    | (simp only [↓State.countNoRoute_stillEq, ↓State.forwardBy_stillEq, stillEq_mk]; done)
    | split
    | simp only [↓State.countNoRoute_stillEq, ↓State.forwardBy_stillEq, stillEq_mk, stillEq_parts]

theorem State.dispatchFrame_stillEq (s : State) (dest : Nat) (f : Frame) : (State.dispatchFrame s dest f).beside = s.beside := by
  unfold State.dispatchFrame
  repeat' first
    | with_reducible rfl
    | with_reducible apply stillEq_ite
    | (simp only [↓State.enqueue_stillEq, ↓State.egress_stillEq, ↓State.forwardBy_stillEq, stillEq_mk]; done)
    | split
    | simp only [↓State.enqueue_stillEq, ↓State.egress_stillEq, ↓State.forwardBy_stillEq, stillEq_mk, stillEq_parts]

theorem State.originate_stillEq (s : State) (tc kind dest : Nat) (payload : List Byte) : (State.originate s tc kind dest payload).beside = s.beside := by
  unfold State.originate
  repeat' first
    | with_reducible rfl
    | with_reducible apply stillEq_ite
    | with_reducible refine (foldl_stillEq (fun _ _ => ?_) _ _).trans ?_
    | (simp only [↓State.dispatchFrame_stillEq, stillEq_mk]; done)
    | split
    | simp only [↓State.dispatchFrame_stillEq, stillEq_mk, stillEq_parts]

theorem State.evict_stillEq (s : State) (v : Rec) : (State.evict s v).beside = s.beside := rfl

theorem State.evictFor_stillEq {s : State} {tiers : List Tier} {n fuel : Nat} {r : Tier × State}
    (h : s.evictFor tiers n fuel = some r) : r.2.beside = s.beside := by
  induction fuel generalizing s with
  | zero => cases h
  | succ m ih =>
    unfold State.evictFor at h
    split at h
    · cases h; rfl
    · split at h
      · cases h
      · exact (ih h).trans rfl

theorem State.makeWay_stillEq (s : State) (n fuel : Nat) : (s.makeWay n fuel).2.beside = s.beside := by
  induction fuel generalizing s with
  | zero => rfl
  | succ m ih =>
    unfold State.makeWay
    split
    · rfl
    · split
      · exact (ih _).trans rfl
      · split
        · exact (ih _).trans rfl
        · rfl

theorem State.releaseD3_stillEq (s : State) (id : Nat) (fetched : Bool) : (State.releaseD3 s id fetched).beside = s.beside := rfl

theorem State.reclaim_stillEq {s t : State} {n : Nat} (h : s.reclaim n = some t) : t.beside = s.beside := by
  induction n generalizing s with
  | zero => cases h
  | succ m ih =>
    unfold State.reclaim at h
    split at h
    · cases h; rfl
    · split at h
      · cases h
      · exact (ih h).trans rfl

theorem State.targetBlock_stillEq {s : State} {but : List Nat} {spare : Bool} {r : Blk × State}
    (h : s.targetBlock but spare = some r) : r.2.beside = s.beside := by
  unfold State.targetBlock at h
  split at h
  · cases h; rfl
  · split at h
    · cases h; rfl
    · obtain ⟨u, hu, h⟩ := Option.bind_eq_some_iff.1 h
      obtain ⟨b, _, rfl⟩ := Option.map_eq_some_iff.1 h
      exact State.reclaim_stillEq hu

theorem State.startUnit_stillEq (s : State) (admitted : Bool) : (s.startUnit admitted).beside = s.beside := by
  unfold State.startUnit
  split
  · refine stillEq_ite rfl ?_
    dsimp only
    split
    · rfl
    · rename_i r h
      exact (State.targetBlock_stillEq h).symm ▸ rfl
  · rfl

theorem State.writer_stillEq (s : State) : (State.writer s).beside = s.beside := by
  unfold State.writer
  split <;> simp only [↓State.startUnit_stillEq, stillEq_mk, stillEq_parts]

theorem State.countSub_stillEq (s : State) (sub count : Nat) : (State.countSub s sub count).beside = s.beside := rfl

theorem State.countDrop_stillEq (s : State) (cls : Nat) : (State.countDrop s cls).beside = s.beside := rfl

theorem State.noteClaims_stillEq (s : State) (id : Nat) (claims : List Nat) : (State.noteClaims s id claims).beside = s.beside := rfl

theorem State.dropClaim_stillEq (s : State) (id sub : Nat) : (State.dropClaim s id sub).beside = s.beside := by
  unfold State.dropClaim
  simp only [↓State.releaseD3_stillEq, stillEq_mk, stillEq_parts]

theorem State.unclaim_stillEq (s : State) (w : StrWait) : (State.unclaim s w).beside = s.beside := by
  unfold State.unclaim
  split <;> simp only [↓State.originate_stillEq, ↓State.dropClaim_stillEq, stillEq_mk, stillEq_parts]

theorem State.queueClaim_stillEq (s : State) (w : StrWait) : (s.queueClaim w).2.beside = s.beside := by
  unfold State.queueClaim
  dsimp only
  have h : ∀ (l : List StrWait) (h' : HifState), (l.foldl (fun (s : State) x => s.unclaim x) { s with hif := h' }).beside = s.beside :=
    fun l h' => (foldl_stillEq (fun _ _ => State.unclaim_stillEq ..) _ _).trans rfl
  split
  · exact h _ _
  · exact (State.countDrop_stillEq ..).trans (stillEq_ite ((State.unclaim_stillEq ..).trans (h _ _)) (h _ _))

theorem State.claimAll_stillEq (s : State) (pos recType src time cls : Nat) (bytes : List Byte) (ref : Option Nat) :
    (s.claimAll pos recType src time cls bytes ref).2.beside = s.beside := by
  unfold State.claimAll
  refine (foldl_stillEq_snd (fun acc x => ?_) _ _).trans rfl
  dsimp only
  split
  · split
    · exact (State.queueClaim_stillEq ..).trans (State.countSub_stillEq ..)
    · exact State.countSub_stillEq ..
  · rfl

theorem State.sendClaims_stillEq (s : State) (recType src time : Nat) (bytes : List Byte) : (State.sendClaims s recType src time bytes).2.beside = s.beside := by
  unfold State.sendClaims
  repeat' first
    | with_reducible rfl
    | with_reducible apply stillEq_ite
    | with_reducible refine (foldl_stillEq (fun _ _ => ?_) _ _).trans ?_
    | (simp only [↓State.originate_stillEq, ↓State.countSub_stillEq, stillEq_mk]; done)
    | split
    | simp only [↓State.originate_stillEq, ↓State.countSub_stillEq, stillEq_mk, stillEq_parts]

theorem State.claimNew_stillEq (s : State) (id recType src time cls : Nat) (bytes : List Byte) : (State.claimNew s id recType src time cls bytes).beside = s.beside := by
  unfold State.claimNew
  split <;> simp only [↓State.sendClaims_stillEq, ↓State.noteClaims_stillEq, ↓State.claimAll_stillEq, ↓State.releaseD3_stillEq, stillEq_mk, stillEq_parts]

theorem State.stageD0_stillEq (s : State) (recType src time : Nat) (bytes : List Byte) : (State.stageD0 s recType src time bytes).beside = s.beside := by
  unfold State.stageD0
  split <;> simp only [↓State.claimNew_stillEq, ↓State.makeWay_stillEq, stillEq_mk, stillEq_parts]

theorem State.queueBb_stillEq (s : State) (w : BbWait) : (State.queueBb s w).beside = s.beside := rfl

theorem State.eventAt_stillEq (s : State) (e : Ev) (t : Nat) (full : Option (Nat × List Byte)) : (State.eventAt s e t full).beside = s.beside := by
  unfold State.eventAt
  repeat' first
    | with_reducible rfl
    | with_reducible apply stillEq_ite
    | (simp only [↓State.stageD0_stillEq, ↓State.originate_stillEq, ↓State.queueBb_stillEq, ↓State.writer_stillEq, stillEq_mk]; done)
    | split
    | simp only [↓State.stageD0_stillEq, ↓State.originate_stillEq, ↓State.queueBb_stillEq, ↓State.writer_stillEq, stillEq_mk, stillEq_parts]

theorem State.event_stillEq (s : State) (e : Ev) : (State.event s e).beside = s.beside := by
  unfold State.event
  simp only [↓State.eventAt_stillEq, stillEq_mk, stillEq_parts]

theorem State.placement_stillEq (s : State) (kind island task reason : Nat) (value : Int) (stream arg16 : Nat) : (State.placement s kind island task reason value stream arg16).beside = s.beside := by
  unfold State.placement
  simp only [↓State.eventAt_stillEq, stillEq_mk, stillEq_parts]

theorem State.dropRec_stillEq (s : State) (cls recType src : Nat) : (State.dropRec s cls recType src).beside = s.beside := by
  unfold State.dropRec
  repeat' first
    | with_reducible rfl
    | with_reducible apply stillEq_ite
    | (simp only [↓State.placement_stillEq, ↓State.countDrop_stillEq, stillEq_mk]; done)
    | split
    | simp only [↓State.placement_stillEq, ↓State.countDrop_stillEq, stillEq_mk, stillEq_parts]

theorem State.endDrops_stillEq (s : State) (cls recType src : Nat) : (State.endDrops s cls recType src).beside = s.beside := by
  unfold State.endDrops
  split <;> simp only [↓State.placement_stillEq, stillEq_mk, stillEq_parts]

theorem State.tierFor_stillEq {s : State} {cls n : Nat} {r : Tier × State} (h : s.tierFor cls n = some r) :
    r.2.beside = s.beside := by
  unfold State.tierFor at h
  repeat' first
    | (cases h; rfl)
    | exact State.evictFor_stillEq h
    | split at h

theorem State.putRec_stillEq (s : State) (tier : Tier) (cls recType src time : Nat) (bytes : List Byte) : (State.putRec s tier cls recType src time bytes).beside = s.beside := rfl

theorem State.place_stillEq (s : State) (recType src time : Nat) (bytes : List Byte) :
    (s.place recType src time bytes).beside = s.beside := by
  unfold State.place
  dsimp only
  refine stillEq_ite ((State.writer_stillEq _).trans (State.stageD0_stillEq ..)) ?_
  split
  · exact State.dropRec_stillEq ..
  · rename_i r h
    exact (State.writer_stillEq _).trans ((State.claimNew_stillEq ..).trans ((State.endDrops_stillEq ..).trans
      ((State.putRec_stillEq ..).trans (State.tierFor_stillEq h))))

theorem State.queueCompletion_stillEq (s : State) (x : InFlight) (origin result xfer code : Nat) : (State.queueCompletion s x origin result xfer code).beside = s.beside := rfl

theorem State.writeBuffer_stillEq (s : State) (l : List (Nat × Nat)) (bs : List Byte) :
    (s.writeBuffer l bs).beside = s.beside := by
  induction l generalizing s bs with
  | nil => rfl
  | cons a l ih =>
    cases bs with
    | nil => rfl
    | cons b bs => exact (ih _ _).trans rfl

theorem State.finishBroadcast_stillEq (s : State) (x : InFlight) : (State.finishBroadcast s x).beside = s.beside := by
  unfold State.finishBroadcast
  repeat' first
    | with_reducible rfl
    | with_reducible apply stillEq_ite
    | (simp only [↓State.queueCompletion_stillEq, ↓State.writeBuffer_stillEq, stillEq_mk]; done)
    | split
    | simp only [↓State.queueCompletion_stillEq, ↓State.writeBuffer_stillEq, stillEq_mk, stillEq_parts]

theorem State.vote_stillEq (s : State) (x : InFlight) (pos code : Nat) : (State.vote s x pos code).beside = s.beside := by
  unfold State.vote
  repeat' first
    | with_reducible rfl
    | with_reducible apply stillEq_ite
    | (simp only [↓State.finishBroadcast_stillEq, stillEq_mk]; done)
    | split
    | simp only [↓State.finishBroadcast_stillEq, stillEq_mk, stillEq_parts]

theorem State.takeCompletion_stillEq (s : State) (sq cid gen origin result xfer code : Nat) (data : List Byte) : (State.takeCompletion s sq cid gen origin result xfer code data).beside = s.beside := by
  unfold State.takeCompletion
  repeat' first
    | with_reducible rfl
    | with_reducible apply stillEq_ite
    | (simp only [↓State.vote_stillEq, ↓State.writeBuffer_stillEq, ↓State.queueCompletion_stillEq, stillEq_mk]; done)
    | split
    | simp only [↓State.vote_stillEq, ↓State.writeBuffer_stillEq, ↓State.queueCompletion_stillEq, stillEq_mk, stillEq_parts]

theorem State.completeX_stillEq (s : State) (c : Cmd) (st : Status) (result xfer : Nat) : (State.completeX s c st result xfer).beside = s.beside := by
  unfold State.completeX
  split <;> simp only [↓State.originate_stillEq, ↓State.takeCompletion_stillEq, stillEq_mk, stillEq_parts]

theorem State.complete_stillEq (s : State) (c : Cmd) (st : Status) (result : Nat) : (State.complete s c st result).beside = s.beside := by
  unfold State.complete
  simp only [↓State.completeX_stillEq, stillEq_mk, stillEq_parts]

theorem State.at__stillEq (s : State) (t : Nat) : (State.at_ s t).beside = s.beside := rfl

theorem State.modSwp_stillEq (s : State) (p : Nat) (f : SwpPort → SwpPort) : (State.modSwp s p f).beside = s.beside := by
  unfold State.modSwp
  split <;> simp only [stillEq_mk, stillEq_parts]

theorem State.onSwp_stillEq {s : State} {p : Nat} {f : SwpPort → State} {x : List Die × SyncState × SafeState × PowerState × List SelfTest × List ChkUnit × ThermState} (h : ∀ d, (f d).beside = x)
    (hs : s.beside = x) : (s.onSwp p f).beside = x := by
  unfold State.onSwp
  refine stillEq_ite hs ?_
  split
  · exact hs
  · exact h _

theorem State.emits_stillEq (s : State) (l : List Out) : (State.emits s l).beside = s.beside := by
  unfold State.emits
  repeat' first
    | with_reducible rfl
    | with_reducible apply stillEq_ite
    | with_reducible refine (foldl_stillEq (fun _ _ => ?_) _ _).trans ?_
    | (simp only [↓State.emit_stillEq, stillEq_mk]; done)
    | split
    | simp only [↓State.emit_stillEq, stillEq_mk, stillEq_parts]

theorem State.startSearch_stillEq (s : State) (p kind : Nat) : (State.startSearch s p kind).beside = s.beside := by
  unfold State.startSearch
  simp only [↓State.modSwp_stillEq, ↓State.emit_stillEq, stillEq_mk, stillEq_parts]

theorem State.adoptSwp_stillEq (s : State) (p : Nat) : (State.adoptSwp s p).beside = s.beside := by
  unfold State.adoptSwp
  repeat' first
    | with_reducible rfl
    | with_reducible apply stillEq_ite
    | (simp only [↓State.modSwp_stillEq, ↓State.takeRange_stillEq, stillEq_mk]; done)
    | split
    | simp only [↓State.modSwp_stillEq, ↓State.takeRange_stillEq, stillEq_mk, stillEq_parts]

theorem State.takeSlot_stillEq (s : State) (p number i : Nat) : (State.takeSlot s p number i).beside = s.beside := by
  unfold State.takeSlot
  repeat' first
    | with_reducible rfl
    | with_reducible apply stillEq_ite
    | with_reducible refine State.onSwp_stillEq (fun _ => ?_) ?_
    | (simp only [↓State.event_stillEq, ↓State.modSwp_stillEq, stillEq_mk]; done)
    | split
    | simp only [↓State.event_stillEq, ↓State.modSwp_stillEq, stillEq_mk, stillEq_parts]

theorem State.assignSensor_stillEq (s : State) (p number : Nat) (back : List Nat) : (State.assignSensor s p number back).beside = s.beside := by
  unfold State.assignSensor
  repeat' first
    | with_reducible rfl
    | with_reducible apply stillEq_ite
    | with_reducible refine State.onSwp_stillEq (fun _ => ?_) ?_
    | (simp only [↓State.event_stillEq, ↓State.emits_stillEq, ↓State.modSwp_stillEq, ↓State.takeSlot_stillEq, stillEq_mk]; done)
    | split
    | simp only [↓State.event_stillEq, ↓State.emits_stillEq, ↓State.modSwp_stillEq, ↓State.takeSlot_stillEq, stillEq_mk, stillEq_parts]

theorem State.endSearch_stillEq (s : State) (p : Nat) (runs : List Cmd) (st : Status) : (State.endSearch s p runs st).beside = s.beside := by
  unfold State.endSearch
  repeat' first
    | with_reducible rfl
    | with_reducible apply stillEq_ite
    | with_reducible refine (foldl_stillEq (fun _ _ => ?_) _ _).trans ?_
    | with_reducible refine State.onSwp_stillEq (fun _ => ?_) ?_
    | (simp only [↓State.adoptSwp_stillEq, ↓State.emits_stillEq, ↓State.modSwp_stillEq, ↓State.complete_stillEq, stillEq_mk]; done)
    | split
    | simp only [↓State.adoptSwp_stillEq, ↓State.emits_stillEq, ↓State.modSwp_stillEq, ↓State.complete_stillEq, stillEq_mk, stillEq_parts]

theorem execSearchAll_stillEq {t p : Nat} {s : State} {s' : State} (h : execSearchAll t p s = .next s') : s'.beside = s.beside := by
  unfold execSearchAll at h
  cases h
  repeat' first
    | with_reducible rfl
    | with_reducible apply stillEq_ite
    | with_reducible refine State.onSwp_stillEq (fun _ => ?_) ?_
    | (simp only [↓State.at__stillEq, ↓State.adoptSwp_stillEq, ↓State.startSearch_stillEq, stillEq_mk]; done)
    | split
    | simp only [↓State.at__stillEq, ↓State.adoptSwp_stillEq, ↓State.startSearch_stillEq, stillEq_mk, stillEq_parts]

theorem execSearchNewPeriodic_stillEq {t p : Nat} {s : State} {s' : State} (h : execSearchNewPeriodic t p s = .next s') : s'.beside = s.beside := by
  unfold execSearchNewPeriodic at h
  cases h
  repeat' first
    | with_reducible rfl
    | with_reducible apply stillEq_ite
    | with_reducible refine State.onSwp_stillEq (fun _ => ?_) ?_
    | (simp only [↓State.at__stillEq, ↓State.modSwp_stillEq, ↓State.startSearch_stillEq, stillEq_mk]; done)
    | split
    | simp only [↓State.at__stillEq, ↓State.modSwp_stillEq, ↓State.startSearch_stillEq, stillEq_mk, stillEq_parts]

theorem execSwpSearchComplete_stillEq {t p : Nat} {attempts : List (List (Option (List (Bool × Bool))))} {acks : List (List Nat)} {s : State} {s' : State} (h : execSwpSearchComplete t p attempts acks s = .next s') : s'.beside = s.beside := by
  unfold execSwpSearchComplete at h
  cases h
  repeat' first
    | with_reducible rfl
    | with_reducible apply stillEq_ite
    | with_reducible refine (foldl_stillEq (fun _ _ => ?_) _ _).trans ?_
    | with_reducible refine State.onSwp_stillEq (fun _ => ?_) ?_
    | (simp only [↓State.emits_stillEq, ↓State.at__stillEq, ↓State.event_stillEq, ↓State.modSwp_stillEq, ↓State.endSearch_stillEq, ↓State.assignSensor_stillEq, stillEq_mk]; done)
    | split
    | simp only [↓State.emits_stillEq, ↓State.at__stillEq, ↓State.event_stillEq, ↓State.modSwp_stillEq, ↓State.endSearch_stillEq, ↓State.assignSensor_stillEq, stillEq_mk, stillEq_parts]

theorem execSwpStreamCycle_stillEq {t p : Nat} {s : State} {s' : State} (h : execSwpStreamCycle t p s = .next s') : s'.beside = s.beside := by
  unfold execSwpStreamCycle at h
  cases h
  repeat' first
    | with_reducible rfl
    | with_reducible apply stillEq_ite
    | with_reducible refine State.onSwp_stillEq (fun _ => ?_) ?_
    | (simp only [↓State.at__stillEq, ↓State.emit_stillEq, ↓State.modSwp_stillEq, stillEq_mk]; done)
    | split
    | simp only [↓State.at__stillEq, ↓State.emit_stillEq, ↓State.modSwp_stillEq, stillEq_mk, stillEq_parts]

theorem execSwpSlotRead_stillEq {t p slot : Nat} {bytes : List Byte} {s : State} {s' : State} (h : execSwpSlotRead t p slot bytes s = .next s') : s'.beside = s.beside := by
  unfold execSwpSlotRead at h
  cases h
  repeat' first
    | with_reducible rfl
    | with_reducible apply stillEq_ite
    | with_reducible refine State.onSwp_stillEq (fun _ => ?_) ?_
    | (simp only [↓State.at__stillEq, ↓State.event_stillEq, ↓State.emit_stillEq, ↓State.modSwp_stillEq, stillEq_mk]; done)
    | split
    | simp only [↓State.at__stillEq, ↓State.event_stillEq, ↓State.emit_stillEq, ↓State.modSwp_stillEq, stillEq_mk, stillEq_parts]

theorem execSwpCycleEnd_stillEq {t p : Nat} {s : State} {s' : State} (h : execSwpCycleEnd t p s = .next s') : s'.beside = s.beside := by
  unfold execSwpCycleEnd at h
  cases h
  repeat' first
    | with_reducible rfl
    | with_reducible apply stillEq_ite
    | with_reducible refine State.onSwp_stillEq (fun _ => ?_) ?_
    | (simp only [↓State.at__stillEq, ↓State.place_stillEq, ↓State.adoptSwp_stillEq, ↓State.modSwp_stillEq, ↓State.startSearch_stillEq, stillEq_mk]; done)
    | split
    | simp only [↓State.at__stillEq, ↓State.place_stillEq, ↓State.adoptSwp_stillEq, ↓State.modSwp_stillEq, ↓State.startSearch_stillEq, stillEq_mk, stillEq_parts]

theorem execSwpLineShort_stillEq {t p : Nat} {s : State} {s' : State} (h : execSwpLineShort t p s = .next s') : s'.beside = s.beside := by
  unfold execSwpLineShort at h
  cases h
  repeat' first
    | with_reducible rfl
    | with_reducible apply stillEq_ite
    | with_reducible refine State.onSwp_stillEq (fun _ => ?_) ?_
    | (simp only [↓State.emit_stillEq, ↓State.event_stillEq, ↓State.modSwp_stillEq, ↓State.at__stillEq, ↓State.adoptSwp_stillEq, stillEq_mk]; done)
    | split
    | simp only [↓State.emit_stillEq, ↓State.event_stillEq, ↓State.modSwp_stillEq, ↓State.at__stillEq, ↓State.adoptSwp_stillEq, stillEq_mk, stillEq_parts]

theorem execSwpShortRetry_stillEq {t p : Nat} {s : State} {s' : State} (h : execSwpShortRetry t p s = .next s') : s'.beside = s.beside := by
  unfold execSwpShortRetry at h
  cases h
  repeat' first
    | with_reducible rfl
    | with_reducible apply stillEq_ite
    | with_reducible refine State.onSwp_stillEq (fun _ => ?_) ?_
    | (simp only [↓State.at__stillEq, ↓State.modSwp_stillEq, ↓State.startSearch_stillEq, stillEq_mk]; done)
    | split
    | simp only [↓State.at__stillEq, ↓State.modSwp_stillEq, ↓State.startSearch_stillEq, stillEq_mk, stillEq_parts]

end Sys2Proof.Machine
end

