-- ==== Sys2Proof/Laws/CalmKept.lean ====
section
/-! SUPPORT. What the commands of the safety layer leave alone. -/

namespace Sys2Proof.Machine

set_option linter.all false
set_option maxRecDepth 4000

/-- What the commands of the safety layer leave alone. -/
def State.calm (s : State) : List Die × CfgState × SyncState × List SwpPort × PowerState × List ChkUnit × ThermState := (s.dies, s.cfg, s.sync, s.swp, s.power, s.chk, s.therm)

theorem calmEq_mk (now part dies cfg locus hif link sync swp safe power trust selfTest chk therm out freeCtr pending) :
    (State.mk now part dies cfg locus hif link sync swp safe power trust selfTest chk therm out freeCtr pending).calm = (dies, cfg, sync, swp, power, chk, therm) := rfl

theorem calmEq_parts (s : State) : s.dies = s.calm.1 ∧ s.cfg = s.calm.2.1 ∧ s.sync = s.calm.2.2.1 ∧ s.swp = s.calm.2.2.2.1 ∧ s.power = s.calm.2.2.2.2.1 ∧ s.chk = s.calm.2.2.2.2.2.1 ∧ s.therm = s.calm.2.2.2.2.2.2 := ⟨rfl, rfl, rfl, rfl, rfl, rfl, rfl⟩

theorem calmEq_ite {c : Prop} {_ : Decidable c} {a b : State} {x : List Die × CfgState × SyncState × List SwpPort × PowerState × List ChkUnit × ThermState} (ha : a.calm = x) (hb : b.calm = x) :
    (if c then a else b).calm = x := by split <;> assumption

theorem foldl_calmEq {α : Type} {f : State → α → State} (h : ∀ s a, (f s a).calm = s.calm) (l : List α) (s : State) :
    (l.foldl f s).calm = s.calm := by
  induction l generalizing s with
  | nil => rfl
  | cons a l ih => exact (ih _).trans (h _ _)

theorem foldl_calmEq_snd {α β : Type} {f : β × State → α → β × State} (h : ∀ s a, (f s a).2.calm = s.2.calm) (l : List α)
    (s : β × State) : (l.foldl f s).2.calm = s.2.calm := by
  induction l generalizing s with
  | nil => rfl
  | cons a l ih => exact (ih _).trans (h _ _)

theorem foldl_calmEq_fst {α β : Type} {f : State × β → α → State × β} (h : ∀ s a, (f s a).1.calm = s.1.calm) (l : List α)
    (s : State × β) : (l.foldl f s).1.calm = s.1.calm := by
  induction l generalizing s with
  | nil => rfl
  | cons a l ih => exact (ih _).trans (h _ _)

theorem onDie_calmEq {s : State} {k : Nat} {f : Die → State} {x : List Die × CfgState × SyncState × List SwpPort × PowerState × List ChkUnit × ThermState} (h : ∀ d, (f d).calm = x) (hs : s.calm = x) :
    (s.onDie k f).calm = x := by
  unfold State.onDie
  split
  · split
    · exact h _
    · exact hs
  · exact hs

theorem State.modPort_calmEq (s : State) (side : Side) (f : Port → Port) : (State.modPort s side f).calm = s.calm := by
  unfold State.modPort
  split <;> simp only [calmEq_mk, calmEq_parts]

theorem State.emit_calmEq (s : State) (o : Out) : (State.emit s o).calm = s.calm := rfl

theorem State.enqueue_calmEq (s : State) (side : Side) (f : Frame) : (State.enqueue s side f).calm = s.calm := by
  unfold State.enqueue
  simp only [↓State.modPort_calmEq, calmEq_mk, calmEq_parts]

theorem State.countNoRoute_calmEq (s : State) : (State.countNoRoute s).calm = s.calm := rfl

theorem State.forwardBy_calmEq (s : State) (side : Side) (f : Frame) : (State.forwardBy s side f).calm = s.calm := by
  unfold State.forwardBy
  simp only [↓State.enqueue_calmEq, calmEq_mk, calmEq_parts]

theorem State.egress_calmEq (s : State) (side : Side) (f : Frame) : (State.egress s side f).calm = s.calm := by
  unfold State.egress
  repeat' first
    | with_reducible rfl
    | with_reducible apply calmEq_ite
    | (simp only [↓State.countNoRoute_calmEq, ↓State.forwardBy_calmEq, calmEq_mk]; done)
    | split
    | simp only [↓State.countNoRoute_calmEq, ↓State.forwardBy_calmEq, calmEq_mk, calmEq_parts]

theorem State.dispatchFrame_calmEq (s : State) (dest : Nat) (f : Frame) : (State.dispatchFrame s dest f).calm = s.calm := by
  unfold State.dispatchFrame
  repeat' first
    | with_reducible rfl
    | with_reducible apply calmEq_ite
    | (simp only [↓State.enqueue_calmEq, ↓State.egress_calmEq, ↓State.forwardBy_calmEq, calmEq_mk]; done)
    | split
    | simp only [↓State.enqueue_calmEq, ↓State.egress_calmEq, ↓State.forwardBy_calmEq, calmEq_mk, calmEq_parts]

theorem State.originate_calmEq (s : State) (tc kind dest : Nat) (payload : List Byte) : (State.originate s tc kind dest payload).calm = s.calm := by
  unfold State.originate
  repeat' first
    | with_reducible rfl
    | with_reducible apply calmEq_ite
    | with_reducible refine (foldl_calmEq (fun _ _ => ?_) _ _).trans ?_
    | (simp only [↓State.dispatchFrame_calmEq, calmEq_mk]; done)
    | split
    | simp only [↓State.dispatchFrame_calmEq, calmEq_mk, calmEq_parts]

theorem State.accept_calmEq (s : State) (f : Frame) : (State.accept s f).2.calm = s.calm := by
  unfold State.accept
  repeat' first
    | with_reducible rfl
    | with_reducible apply calmEq_ite
    | (simp only [calmEq_mk]; done)
    | split
    | simp only [calmEq_mk, calmEq_parts]

theorem State.evict_calmEq (s : State) (v : Rec) : (State.evict s v).calm = s.calm := rfl

theorem State.makeWay_calmEq (s : State) (n fuel : Nat) : (s.makeWay n fuel).2.calm = s.calm := by
  induction fuel generalizing s with
  | zero => rfl
  | succ m ih =>
    unfold State.makeWay
    split
    · rfl
    · split
      · exact (ih _).trans rfl
      · split
        · exact (ih _).trans rfl
        · rfl

theorem State.releaseD3_calmEq (s : State) (id : Nat) (fetched : Bool) : (State.releaseD3 s id fetched).calm = s.calm := rfl

theorem State.reclaim_calmEq {s t : State} {n : Nat} (h : s.reclaim n = some t) : t.calm = s.calm := by
  induction n generalizing s with
  | zero => cases h
  | succ m ih =>
    unfold State.reclaim at h
    split at h
    · cases h; rfl
    · split at h
      · cases h
      · exact (ih h).trans rfl

theorem State.targetBlock_calmEq {s : State} {but : List Nat} {spare : Bool} {r : Blk × State}
    (h : s.targetBlock but spare = some r) : r.2.calm = s.calm := by
  unfold State.targetBlock at h
  split at h
  · cases h; rfl
  · split at h
    · cases h; rfl
    · obtain ⟨u, hu, h⟩ := Option.bind_eq_some_iff.1 h
      obtain ⟨b, _, rfl⟩ := Option.map_eq_some_iff.1 h
      exact State.reclaim_calmEq hu

theorem State.startUnit_calmEq (s : State) (admitted : Bool) : (s.startUnit admitted).calm = s.calm := by
  unfold State.startUnit
  split
  · refine calmEq_ite rfl ?_
    dsimp only
    split
    · rfl
    · rename_i r h
      exact (State.targetBlock_calmEq h).symm ▸ rfl
  · rfl

theorem State.writer_calmEq (s : State) : (State.writer s).calm = s.calm := by
  unfold State.writer
  split <;> simp only [↓State.startUnit_calmEq, calmEq_mk, calmEq_parts]

theorem State.countSub_calmEq (s : State) (sub count : Nat) : (State.countSub s sub count).calm = s.calm := rfl

theorem State.countDrop_calmEq (s : State) (cls : Nat) : (State.countDrop s cls).calm = s.calm := rfl

theorem State.noteClaims_calmEq (s : State) (id : Nat) (claims : List Nat) : (State.noteClaims s id claims).calm = s.calm := rfl

theorem State.dropClaim_calmEq (s : State) (id sub : Nat) : (State.dropClaim s id sub).calm = s.calm := by
  unfold State.dropClaim
  simp only [↓State.releaseD3_calmEq, calmEq_mk, calmEq_parts]

theorem State.unclaim_calmEq (s : State) (w : StrWait) : (State.unclaim s w).calm = s.calm := by
  unfold State.unclaim
  split <;> simp only [↓State.originate_calmEq, ↓State.dropClaim_calmEq, calmEq_mk, calmEq_parts]

theorem State.queueClaim_calmEq (s : State) (w : StrWait) : (s.queueClaim w).2.calm = s.calm := by
  unfold State.queueClaim
  dsimp only
  have h : ∀ (l : List StrWait) (h' : HifState), (l.foldl (fun (s : State) x => s.unclaim x) { s with hif := h' }).calm = s.calm :=
    fun l h' => (foldl_calmEq (fun _ _ => State.unclaim_calmEq ..) _ _).trans rfl
  split
  · exact h _ _
  · exact (State.countDrop_calmEq ..).trans (calmEq_ite ((State.unclaim_calmEq ..).trans (h _ _)) (h _ _))

theorem State.claimAll_calmEq (s : State) (pos recType src time cls : Nat) (bytes : List Byte) (ref : Option Nat) :
    (s.claimAll pos recType src time cls bytes ref).2.calm = s.calm := by
  unfold State.claimAll
  refine (foldl_calmEq_snd (fun acc x => ?_) _ _).trans rfl
  dsimp only
  split
  · split
    · exact (State.queueClaim_calmEq ..).trans (State.countSub_calmEq ..)
    · exact State.countSub_calmEq ..
  · rfl

theorem State.sendClaims_calmEq (s : State) (recType src time : Nat) (bytes : List Byte) : (State.sendClaims s recType src time bytes).2.calm = s.calm := by
  unfold State.sendClaims
  repeat' first
    | with_reducible rfl
    | with_reducible apply calmEq_ite
    | with_reducible refine (foldl_calmEq (fun _ _ => ?_) _ _).trans ?_
    | (simp only [↓State.originate_calmEq, ↓State.countSub_calmEq, calmEq_mk]; done)
    | split
    | simp only [↓State.originate_calmEq, ↓State.countSub_calmEq, calmEq_mk, calmEq_parts]

theorem State.claimNew_calmEq (s : State) (id recType src time cls : Nat) (bytes : List Byte) : (State.claimNew s id recType src time cls bytes).calm = s.calm := by
  unfold State.claimNew
  split <;> simp only [↓State.sendClaims_calmEq, ↓State.noteClaims_calmEq, ↓State.claimAll_calmEq, ↓State.releaseD3_calmEq, calmEq_mk, calmEq_parts]

theorem State.stageD0_calmEq (s : State) (recType src time : Nat) (bytes : List Byte) : (State.stageD0 s recType src time bytes).calm = s.calm := by
  unfold State.stageD0
  split <;> simp only [↓State.claimNew_calmEq, ↓State.makeWay_calmEq, calmEq_mk, calmEq_parts]

theorem State.queueBb_calmEq (s : State) (w : BbWait) : (State.queueBb s w).calm = s.calm := rfl

theorem State.eventAt_calmEq (s : State) (e : Ev) (t : Nat) (full : Option (Nat × List Byte)) : (State.eventAt s e t full).calm = s.calm := by
  unfold State.eventAt
  repeat' first
    | with_reducible rfl
    | with_reducible apply calmEq_ite
    | (simp only [↓State.stageD0_calmEq, ↓State.originate_calmEq, ↓State.queueBb_calmEq, ↓State.writer_calmEq, calmEq_mk]; done)
    | split
    | simp only [↓State.stageD0_calmEq, ↓State.originate_calmEq, ↓State.queueBb_calmEq, ↓State.writer_calmEq, calmEq_mk, calmEq_parts]

theorem State.event_calmEq (s : State) (e : Ev) : (State.event s e).calm = s.calm := by
  unfold State.event
  simp only [↓State.eventAt_calmEq, calmEq_mk, calmEq_parts]

theorem State.at__calmEq (s : State) (t : Nat) : (State.at_ s t).calm = s.calm := rfl

theorem State.formSafety_calmEq (s : State) (msg : Nat) (f : FaultInfo) (aux : Nat) (mailbox : Bool) : (State.formSafety s msg f aux mailbox).2.calm = s.calm := rfl

theorem State.sendSafety_calmEq (s : State) (msg : Nat) (f : FaultInfo) : (State.sendSafety s msg f).calm = s.calm := by
  unfold State.sendSafety
  split <;> simp only [↓State.formSafety_calmEq, ↓State.originate_calmEq, calmEq_mk, calmEq_parts]

theorem State.heartStop_calmEq (s : State) : (State.heartStop s).calm = s.calm := by
  unfold State.heartStop
  repeat' first
    | with_reducible rfl
    | with_reducible apply calmEq_ite
    | (simp only [↓State.emit_calmEq, ↓State.event_calmEq, calmEq_mk]; done)
    | split
    | simp only [↓State.emit_calmEq, ↓State.event_calmEq, calmEq_mk, calmEq_parts]

theorem State.heartResume_calmEq (s : State) : (State.heartResume s).calm = s.calm := by
  unfold State.heartResume
  repeat' first
    | with_reducible rfl
    | with_reducible apply calmEq_ite
    | (simp only [↓State.sendSafety_calmEq, ↓State.emit_calmEq, ↓State.event_calmEq, calmEq_mk]; done)
    | split
    | simp only [↓State.sendSafety_calmEq, ↓State.emit_calmEq, ↓State.event_calmEq, calmEq_mk, calmEq_parts]

theorem State.accrueTest_calmEq (s : State) : (State.accrueTest s).calm = s.calm := rfl

theorem State.setOut_calmEq (s : State) (k : Nat) (on : Bool) : (State.setOut s k on).calm = s.calm := by
  unfold State.setOut
  split <;> simp only [↓State.accrueTest_calmEq, ↓State.emit_calmEq, calmEq_mk, calmEq_parts]

theorem State.outsOff_calmEq (s : State) : (State.outsOff s).calm = s.calm := by
  unfold State.outsOff
  repeat' first
    | with_reducible rfl
    | with_reducible apply calmEq_ite
    | with_reducible refine (foldl_calmEq (fun _ _ => ?_) _ _).trans ?_
    | (simp only [↓State.setOut_calmEq, calmEq_mk]; done)
    | split
    | simp only [↓State.setOut_calmEq, calmEq_mk, calmEq_parts]

theorem State.evalOuts_calmEq (s : State) : (State.evalOuts s).calm = s.calm := by
  unfold State.evalOuts
  repeat' first
    | with_reducible rfl
    | with_reducible apply calmEq_ite
    | with_reducible refine (foldl_calmEq (fun _ _ => ?_) _ _).trans ?_
    | (simp only [↓State.setOut_calmEq, calmEq_mk]; done)
    | split
    | simp only [↓State.setOut_calmEq, calmEq_mk, calmEq_parts]

theorem State.latch_calmEq (s : State) (cause : Nat) : (State.latch s cause).calm = s.calm := by
  unfold State.latch
  repeat' first
    | with_reducible rfl
    | with_reducible apply calmEq_ite
    | with_reducible refine (foldl_calmEq (fun _ _ => ?_) _ _).trans ?_
    | (simp only [↓State.outsOff_calmEq, ↓State.heartStop_calmEq, ↓State.event_calmEq, calmEq_mk]; done)
    | split
    | simp only [↓State.outsOff_calmEq, ↓State.heartStop_calmEq, ↓State.event_calmEq, calmEq_mk, calmEq_parts]

theorem State.releaseLockout_calmEq (s : State) : (State.releaseLockout s).calm = s.calm := by
  unfold State.releaseLockout
  simp only [↓State.heartResume_calmEq, ↓State.event_calmEq, calmEq_mk, calmEq_parts]

theorem State.stepTests_calmEq (s : State) (levels tp : List Bool) : (State.stepTests s levels tp).calm = s.calm := by
  unfold State.stepTests
  repeat' first
    | with_reducible rfl
    | with_reducible apply calmEq_ite
    | with_reducible refine (foldl_calmEq (fun _ _ => ?_) _ _).trans ?_
    | (simp only [↓State.event_calmEq, ↓State.latch_calmEq, calmEq_mk]; done)
    | split
    | simp only [↓State.event_calmEq, ↓State.latch_calmEq, calmEq_mk, calmEq_parts]

theorem State.stepInput_calmEq (s : State) (levels : List Bool) (i : Nat) : (State.stepInput s levels i).calm = s.calm := by
  unfold State.stepInput
  repeat' first
    | with_reducible rfl
    | with_reducible apply calmEq_ite
    | (simp only [↓State.event_calmEq, ↓State.latch_calmEq, calmEq_mk]; done)
    | split
    | simp only [↓State.event_calmEq, ↓State.latch_calmEq, calmEq_mk, calmEq_parts]

theorem State.stepFeedback_calmEq (s : State) (fb : List Bool) (k : Nat) : (State.stepFeedback s fb k).calm = s.calm := by
  unfold State.stepFeedback
  repeat' first
    | with_reducible rfl
    | with_reducible apply calmEq_ite
    | (simp only [↓State.event_calmEq, ↓State.latch_calmEq, calmEq_mk]; done)
    | split
    | simp only [↓State.event_calmEq, ↓State.latch_calmEq, calmEq_mk, calmEq_parts]

theorem State.endPulse_calmEq (s : State) (o : Nat) : (State.endPulse s o).calm = s.calm := by
  unfold State.endPulse
  repeat' first
    | with_reducible rfl
    | with_reducible apply calmEq_ite
    | (simp only [↓State.emit_calmEq, calmEq_mk]; done)
    | split
    | simp only [↓State.emit_calmEq, calmEq_mk, calmEq_parts]

theorem State.countFrameError_calmEq (s : State) (conn sub : Nat) : (State.countFrameError s conn sub).calm = s.calm := by
  unfold State.countFrameError
  simp only [↓State.event_calmEq, calmEq_mk, calmEq_parts]

theorem State.modWatch_calmEq (s : State) (p : Nat) (f : WatchPos → WatchPos) : (State.modWatch s p f).calm = s.calm := rfl

theorem State.connError_calmEq (s : State) (p : Nat) : (State.connError s p).calm = s.calm := by
  unfold State.connError
  repeat' first
    | with_reducible rfl
    | with_reducible apply calmEq_ite
    | (simp only [↓State.modWatch_calmEq, ↓State.latch_calmEq, calmEq_mk]; done)
    | split
    | simp only [↓State.modWatch_calmEq, ↓State.latch_calmEq, calmEq_mk, calmEq_parts]

theorem State.validFrame_calmEq (s : State) (p : Nat) (b : List Byte) : (State.validFrame s p b).calm = s.calm := by
  unfold State.validFrame
  repeat' first
    | with_reducible rfl
    | with_reducible apply calmEq_ite
    | (simp only [↓State.modWatch_calmEq, ↓State.evalOuts_calmEq, ↓State.event_calmEq, ↓State.latch_calmEq, calmEq_mk]; done)
    | split
    | simp only [↓State.modWatch_calmEq, ↓State.evalOuts_calmEq, ↓State.event_calmEq, ↓State.latch_calmEq, calmEq_mk, calmEq_parts]

theorem State.hostFrame_calmEq (s : State) (b : List Byte) : (State.hostFrame s b).calm = s.calm := by
  unfold State.hostFrame
  repeat' first
    | with_reducible rfl
    | with_reducible apply calmEq_ite
    | (simp only [↓State.countFrameError_calmEq, ↓State.evalOuts_calmEq, ↓State.event_calmEq, calmEq_mk]; done)
    | split
    | simp only [↓State.countFrameError_calmEq, ↓State.evalOuts_calmEq, ↓State.event_calmEq, calmEq_mk, calmEq_parts]

theorem execSafetyInputSample_calmEq {t : Nat} {levels fb tp : List Bool} {s : State} {s' : State} (h : execSafetyInputSample t levels fb tp s = .next s') : s'.calm = s.calm := by
  unfold execSafetyInputSample at h
  cases h
  repeat' first
    | with_reducible rfl
    | with_reducible apply calmEq_ite
    | with_reducible refine (foldl_calmEq (fun _ _ => ?_) _ _).trans ?_
    | (simp only [↓State.at__calmEq, ↓State.stepTests_calmEq, ↓State.stepInput_calmEq, ↓State.evalOuts_calmEq, ↓State.endPulse_calmEq, ↓State.stepFeedback_calmEq, calmEq_mk]; done)
    | split
    | simp only [↓State.at__calmEq, ↓State.stepTests_calmEq, ↓State.stepInput_calmEq, ↓State.evalOuts_calmEq, ↓State.endPulse_calmEq, ↓State.stepFeedback_calmEq, calmEq_mk, calmEq_parts]

theorem execTestPulseStart_calmEq {t out : Nat} {s : State} {s' : State} (h : execTestPulseStart t out s = .next s') : s'.calm = s.calm := by
  unfold execTestPulseStart at h
  cases h
  split <;> simp only [↓State.at__calmEq, ↓State.emit_calmEq, calmEq_mk, calmEq_parts]

theorem execDiscrepancyLatch_calmEq {t i : Nat} {s : State} {s' : State} (h : execDiscrepancyLatch t i s = .next s') : s'.calm = s.calm := by
  unfold execDiscrepancyLatch at h
  cases h
  repeat' first
    | with_reducible rfl
    | with_reducible apply calmEq_ite
    | (simp only [↓State.latch_calmEq, ↓State.at__calmEq, ↓State.event_calmEq, calmEq_mk]; done)
    | split
    | simp only [↓State.latch_calmEq, ↓State.at__calmEq, ↓State.event_calmEq, calmEq_mk, calmEq_parts]

theorem execSafetyFrameReceive_calmEq {t : Nat} {bytes : List Byte} {s : State} {s' : State} (h : execSafetyFrameReceive t bytes s = .next s') : s'.calm = s.calm := by
  unfold execSafetyFrameReceive at h
  cases h
  repeat' first
    | with_reducible rfl
    | with_reducible apply calmEq_ite
    | (simp only [↓State.countFrameError_calmEq, ↓State.at__calmEq, ↓State.validFrame_calmEq, ↓State.connError_calmEq, ↓State.accept_calmEq, calmEq_mk]; done)
    | split
    | simp only [↓State.countFrameError_calmEq, ↓State.at__calmEq, ↓State.validFrame_calmEq, ↓State.connError_calmEq, ↓State.accept_calmEq, calmEq_mk, calmEq_parts]

theorem execSafetyMboxService_calmEq {t : Nat} {bytes : List Byte} {s : State} {s' : State} (h : execSafetyMboxService t bytes s = .next s') : s'.calm = s.calm := by
  unfold execSafetyMboxService at h
  cases h
  repeat' first
    | with_reducible rfl
    | with_reducible apply calmEq_ite
    | (simp only [↓State.at__calmEq, ↓State.emit_calmEq, ↓State.formSafety_calmEq, ↓State.hostFrame_calmEq, calmEq_mk]; done)
    | split
    | simp only [↓State.at__calmEq, ↓State.emit_calmEq, ↓State.formSafety_calmEq, ↓State.hostFrame_calmEq, calmEq_mk, calmEq_parts]

theorem execHostWatchdogExpire_calmEq {t : Nat} {s : State} {s' : State} (h : execHostWatchdogExpire t s = .next s') : s'.calm = s.calm := by
  unfold execHostWatchdogExpire at h
  cases h
  split <;> simp only [↓State.at__calmEq, ↓State.evalOuts_calmEq, ↓State.event_calmEq, calmEq_mk, calmEq_parts]

theorem execWatchdogExpire_calmEq {t p : Nat} {s : State} {s' : State} (h : execWatchdogExpire t p s = .next s') : s'.calm = s.calm := by
  unfold execWatchdogExpire at h
  cases h
  repeat' first
    | with_reducible rfl
    | with_reducible apply calmEq_ite
    | (simp only [↓State.latch_calmEq, ↓State.at__calmEq, ↓State.evalOuts_calmEq, ↓State.event_calmEq, ↓State.modWatch_calmEq, calmEq_mk]; done)
    | split
    | simp only [↓State.latch_calmEq, ↓State.at__calmEq, ↓State.evalOuts_calmEq, ↓State.event_calmEq, ↓State.modWatch_calmEq, calmEq_mk, calmEq_parts]

theorem execOutputOvercurrent_calmEq {t k : Nat} {s : State} {s' : State} (h : execOutputOvercurrent t k s = .next s') : s'.calm = s.calm := by
  unfold execOutputOvercurrent at h
  cases h
  repeat' first
    | with_reducible rfl
    | with_reducible apply calmEq_ite
    | (simp only [↓State.event_calmEq, ↓State.at__calmEq, ↓State.setOut_calmEq, ↓State.latch_calmEq, calmEq_mk]; done)
    | split
    | simp only [↓State.event_calmEq, ↓State.at__calmEq, ↓State.setOut_calmEq, ↓State.latch_calmEq, calmEq_mk, calmEq_parts]

theorem execOutputOpenLoad_calmEq {t k : Nat} {s : State} {s' : State} (h : execOutputOpenLoad t k s = .next s') : s'.calm = s.calm := by
  unfold execOutputOpenLoad at h
  cases h
  repeat' first
    | with_reducible rfl
    | with_reducible apply calmEq_ite
    | (simp only [↓State.event_calmEq, ↓State.at__calmEq, calmEq_mk]; done)
    | split
    | simp only [↓State.event_calmEq, ↓State.at__calmEq, calmEq_mk, calmEq_parts]

theorem execOutputEconomyStart_calmEq {t k : Nat} {vaux : Rat} {s : State} {s' : State} (h : execOutputEconomyStart t k vaux s = .next s') : s'.calm = s.calm := by
  unfold execOutputEconomyStart at h
  cases h
  repeat' first
    | with_reducible rfl
    | with_reducible apply calmEq_ite
    | (simp only [↓State.at__calmEq, calmEq_mk]; done)
    | split
    | simp only [↓State.at__calmEq, calmEq_mk, calmEq_parts]

theorem execFeedbackTimeout_calmEq {t k : Nat} {s : State} {s' : State} (h : execFeedbackTimeout t k s = .next s') : s'.calm = s.calm := by
  unfold execFeedbackTimeout at h
  cases h
  repeat' first
    | with_reducible rfl
    | with_reducible apply calmEq_ite
    | (simp only [↓State.latch_calmEq, ↓State.at__calmEq, ↓State.event_calmEq, calmEq_mk]; done)
    | split
    | simp only [↓State.latch_calmEq, ↓State.at__calmEq, ↓State.event_calmEq, calmEq_mk, calmEq_parts]

theorem execLorstReleaseEdge_calmEq {t : Nat} {s : State} {s' : State} (h : execLorstReleaseEdge t s = .next s') : s'.calm = s.calm := by
  unfold execLorstReleaseEdge at h
  cases h
  repeat' first
    | with_reducible rfl
    | with_reducible apply calmEq_ite
    | (simp only [↓State.at__calmEq, ↓State.event_calmEq, ↓State.releaseLockout_calmEq, calmEq_mk]; done)
    | split
    | simp only [↓State.at__calmEq, ↓State.event_calmEq, ↓State.releaseLockout_calmEq, calmEq_mk, calmEq_parts]

theorem execLorstHeld_calmEq {t : Nat} {s : State} {s' : State} (h : execLorstHeld t s = .next s') : s'.calm = s.calm := by
  unfold execLorstHeld at h
  cases h
  repeat' first
    | with_reducible rfl
    | with_reducible apply calmEq_ite
    | (simp only [↓State.at__calmEq, ↓State.event_calmEq, calmEq_mk]; done)
    | split
    | simp only [↓State.at__calmEq, ↓State.event_calmEq, calmEq_mk, calmEq_parts]

theorem execGatewayHeartbeatReceive_calmEq {t : Nat} {bytes : List Byte} {s : State} {s' : State} (h : execGatewayHeartbeatReceive t bytes s = .next s') : s'.calm = s.calm := by
  unfold execGatewayHeartbeatReceive at h
  cases h
  repeat' first
    | with_reducible rfl
    | with_reducible apply calmEq_ite
    | (simp only [↓State.countFrameError_calmEq, ↓State.at__calmEq, ↓State.accept_calmEq, calmEq_mk]; done)
    | split
    | simp only [↓State.countFrameError_calmEq, ↓State.at__calmEq, ↓State.accept_calmEq, calmEq_mk, calmEq_parts]

theorem execGwOkTimeout_calmEq {t : Nat} {s : State} {s' : State} (h : execGwOkTimeout t s = .next s') : s'.calm = s.calm := by
  unfold execGwOkTimeout at h
  cases h
  split <;> simp only [↓State.at__calmEq, calmEq_mk, calmEq_parts]

theorem execHeartbeatSend_calmEq {t : Nat} {s : State} {s' : State} (h : execHeartbeatSend t s = .next s') : s'.calm = s.calm := by
  unfold execHeartbeatSend at h
  cases h
  split <;> simp only [↓State.at__calmEq, ↓State.formSafety_calmEq, ↓State.originate_calmEq, calmEq_mk, calmEq_parts]

end Sys2Proof.Machine
end

