-- ==== Sys2Proof/Laws/CfgMap.lean ====
section
/-! SUPPORT. The configuration maps: every operation keeps the canonical form, and reading back what was written. -/

namespace Sys2Proof.Machine

/-- The canonical form, as a property of entries and of their order. -/
theorem cellWf_iff (m : List Host.Cell) :
    cellWf m = true ↔ (∀ c ∈ m, c.2 ≠ cfgDefault c.1) ∧ m.Pairwise (fun x y => x.1 < y.1) := by
  induction m with
  | nil => simp [cellWf]
  | cons c cs ih =>
    cases cs with
    | nil => simp [cellWf]
    | cons d ds =>
      simp only [cellWf, Bool.and_eq_true, ih, bne_iff_ne, decide_eq_true_eq, List.mem_cons, forall_eq_or_imp, List.pairwise_cons]
      constructor
      · rintro ⟨⟨h1, h2⟩, ⟨h3, h4⟩, h5, h6⟩
        exact ⟨⟨h1, h3, h4⟩, ⟨h2, fun a ha => Nat.lt_trans h2 (h5 a ha)⟩, h5, h6⟩
      · rintro ⟨⟨h1, h3, h4⟩, ⟨h2, _⟩, h5, h6⟩
        exact ⟨⟨h1, h2⟩, ⟨h3, h4⟩, h5, h6⟩

theorem cellWf_nil : cellWf [] = true := rfl

/-- Any selection of entries of a canonical map is canonical. -/
theorem cellWf_filter {m : List Host.Cell} (h : cellWf m = true) (p : Host.Cell → Bool) : cellWf (m.filter p) = true := by
  rw [cellWf_iff] at h ⊢
  exact ⟨fun c hc => h.1 c (List.mem_filter.1 hc).1, h.2.filter p⟩

theorem mem_cellInsert {a : Nat} {b : Byte} {c : Host.Cell} {m : List Host.Cell} (h : c ∈ cellInsert a b m) : c = (a, b) ∨ c ∈ m := by
  induction m with
  | nil => simpa [cellInsert] using h
  | cons d ds ih =>
    unfold cellInsert at h
    split at h
    · simpa using h
    · rcases List.mem_cons.1 h with h | h
      · exact .inr (List.mem_cons.2 (.inl h))
      · rcases ih h with h | h
        · exact .inl h
        · exact .inr (List.mem_cons.2 (.inr h))

theorem cellInsert_pairwise {a : Nat} {b : Byte} {m : List Host.Cell} (hp : m.Pairwise (fun x y => x.1 < y.1)) (hn : ∀ c ∈ m, c.1 ≠ a) :
    (cellInsert a b m).Pairwise (fun x y => x.1 < y.1) := by
  induction m with
  | nil => simp [cellInsert]
  | cons d ds ih =>
    rw [List.pairwise_cons] at hp
    unfold cellInsert
    split
    · rename_i hlt
      refine List.pairwise_cons.2 ⟨fun c hc => ?_, List.pairwise_cons.2 hp⟩
      rcases List.mem_cons.1 hc with rfl | hc
      · exact hlt
      · exact Nat.lt_trans hlt (hp.1 c hc)
    · rename_i hlt
      have hd : d.1 ≠ a := hn d (List.mem_cons.2 (.inl rfl))
      refine List.pairwise_cons.2 ⟨fun c hc => ?_, ih hp.2 fun c hc => hn c (List.mem_cons.2 (.inr hc))⟩
      rcases mem_cellInsert hc with rfl | hc
      · show d.1 < a
        omega
      · exact hp.1 c hc

theorem cellErase_ne {m : List Host.Cell} {a : Nat} {c : Host.Cell} (h : c ∈ cellErase m a) : c.1 ≠ a := by
  have := (List.mem_filter.1 h).2
  simpa using this

/-- Writing one byte keeps the canonical form. -/
theorem cellSet_wf {m : List Host.Cell} (h : cellWf m = true) (a : Nat) (b : Byte) : cellWf (cellSet m a b) = true := by
  have he : cellWf (cellErase m a) = true := cellWf_filter h _
  unfold cellSet
  split
  · exact he
  · rename_i hb
    rw [cellWf_iff] at he ⊢
    refine ⟨fun c hc => ?_, cellInsert_pairwise he.2 fun c hc => cellErase_ne hc⟩
    rcases mem_cellInsert hc with rfl | hc
    · exact hb
    · exact he.1 c hc

/-- Writing bytes keeps the canonical form. -/
theorem cellWrite_wf {m : List Host.Cell} (h : cellWf m = true) (a : Nat) (bs : List Byte) : cellWf (cellWrite m a bs) = true := by
  induction bs generalizing m a with
  | nil => exact h
  | cons b bs ih => exact ih (cellSet_wf h a b) _

/-- Copying a range keeps the canonical form. -/
theorem cellCopy_wf {dst src : List Host.Cell} (hd : cellWf dst = true) (hs : cellWf src = true) {lo hi : Nat} (hl : lo ≤ hi) :
    cellWf (cellCopy dst src lo hi) = true := by
  rw [cellWf_iff] at hd hs ⊢
  unfold cellCopy
  refine ⟨fun c hc => ?_, ?_⟩
  · rcases List.mem_append.1 hc with hc | hc
    · rcases List.mem_append.1 hc with hc | hc
      · exact hd.1 c (List.mem_filter.1 hc).1
      · exact hs.1 c (List.mem_filter.1 hc).1
    · exact hd.1 c (List.mem_filter.1 hc).1
  · rw [List.pairwise_append, List.pairwise_append]
    refine ⟨⟨hd.2.filter _, hs.2.filter _, fun x hx y hy => ?_⟩, hd.2.filter _, fun x hx y hy => ?_⟩
    · have h1 := (List.mem_filter.1 hx).2
      have h2 := (List.mem_filter.1 hy).2
      simp only [decide_eq_true_eq, Bool.and_eq_true] at h1 h2
      omega
    · have h2 := (List.mem_filter.1 hy).2
      simp only [decide_eq_true_eq] at h2
      rcases List.mem_append.1 hx with hx | hx <;> have h1 := (List.mem_filter.1 hx).2 <;>
        simp only [decide_eq_true_eq, Bool.and_eq_true] at h1 <;> omega

theorem cfgAddr_mono {block target x y : Nat} (h : x ≤ y) : cfgAddr block target x ≤ cfgAddr block target y := by
  unfold cfgAddr
  omega

theorem cellCopyBlock_wf {dst src : List Host.Cell} (hd : cellWf dst = true) (hs : cellWf src = true) (block target : Nat) :
    cellWf (cellCopyBlock dst src block target) = true := by
  refine cellCopy_wf hd hs ?_
  unfold blockLo blockHi cfgAddr
  omega

/-- Clearing the "write 0, read 0" bits keeps the canonical form. -/
theorem cellMasked_wf {m : List Host.Cell} (h : cellWf m = true) : cellWf (cellMasked m) = true := by
  rw [cellWf_iff] at h ⊢
  have key : ∀ c ∈ cellMasked m, c.2 ≠ cfgDefault c.1 ∧ ∃ d ∈ m, d.1 = c.1 := by
    clear h
    induction m with
    | nil => intro c hc; cases hc
    | cons d ds ih =>
      intro c hc
      unfold cellMasked at hc
      rw [List.foldr_cons] at hc
      dsimp only at hc
      split at hc
      · obtain ⟨h1, e, he, h2⟩ := ih c hc
        exact ⟨h1, e, List.mem_cons.2 (.inr he), h2⟩
      · rename_i hb
        rcases List.mem_cons.1 hc with rfl | hc
        · exact ⟨hb, d, List.mem_cons.2 (.inl rfl), rfl⟩
        · obtain ⟨h1, e, he, h2⟩ := ih c hc
          exact ⟨h1, e, List.mem_cons.2 (.inr he), h2⟩
  refine ⟨fun c hc => (key c hc).1, ?_⟩
  have hp := h.2
  clear h key
  induction m with
  | nil => exact List.Pairwise.nil
  | cons d ds ih =>
    rw [List.pairwise_cons] at hp
    unfold cellMasked
    rw [List.foldr_cons]
    dsimp only
    split
    · exact ih hp.2
    · refine List.pairwise_cons.2 ⟨fun c hc => ?_, ih hp.2⟩
      have mem : ∀ (l : List Host.Cell) (c : Host.Cell), c ∈ cellMasked l → ∃ e ∈ l, e.1 = c.1 := by
        intro l
        induction l with
        | nil => intro c hc; cases hc
        | cons f fs ihf =>
          intro c hc
          unfold cellMasked at hc
          rw [List.foldr_cons] at hc
          dsimp only at hc
          split at hc
          · obtain ⟨e, he, h2⟩ := ihf c hc
            exact ⟨e, List.mem_cons.2 (.inr he), h2⟩
          · rcases List.mem_cons.1 hc with rfl | hc
            · exact ⟨f, List.mem_cons.2 (.inl rfl), rfl⟩
            · obtain ⟨e, he, h2⟩ := ihf c hc
              exact ⟨e, List.mem_cons.2 (.inr he), h2⟩
      obtain ⟨e, he, h2⟩ := mem ds c hc
      have := hp.1 e he
      show d.1 < c.1
      omega

/-- A balance policy written into a set keeps the canonical form. -/
theorem policySet_wf {m : List Host.Cell} (h : cellWf m = true) (k ctrl ch mask tgt : Nat) : cellWf (policySet m k ctrl ch mask tgt) = true := by
  have fold : ∀ (l : List Nat) (m : List Host.Cell), cellWf m = true →
      cellWf (l.foldl (fun m i => cellWrite m (cfgAddr 0x07 k (0x80 + 4 * i)) (le 4 (tgt &&& (cfgReg 0x07 k (0x80 + 4 * i)).2))) m) = true := by
    intro l
    induction l with
    | nil => intro m h; exact h
    | cons i l ih => intro m h; exact ih _ (cellWrite_wf h _ _)
  unfold policySet
  exact fold _ _ (cellWrite_wf (cellWrite_wf h _ _) _ _)

theorem cellGet_insert_same {a : Nat} {b : Byte} {m : List Host.Cell} (hn : ∀ c ∈ m, c.1 ≠ a) : cellGet (cellInsert a b m) a = b := by
  induction m with
  | nil => simp [cellInsert, cellGet]
  | cons d ds ih =>
    unfold cellInsert
    split
    · simp [cellGet]
    · have hd : d.1 ≠ a := hn d (List.mem_cons.2 (.inl rfl))
      rw [cellGet, if_neg hd]
      exact ih fun c hc => hn c (List.mem_cons.2 (.inr hc))

theorem cellGet_insert_other {a x : Nat} {b : Byte} {m : List Host.Cell} (hx : x ≠ a) : cellGet (cellInsert a b m) x = cellGet m x := by
  induction m with
  | nil => simp [cellInsert, cellGet, Ne.symm hx]
  | cons d ds ih =>
    unfold cellInsert
    split
    · rw [cellGet, if_neg (Ne.symm hx)]
    · simp only [cellGet, ih]

theorem cellGet_absent {m : List Host.Cell} {a : Nat} (hn : ∀ c ∈ m, c.1 ≠ a) : cellGet m a = cfgDefault a := by
  induction m with
  | nil => rfl
  | cons d ds ih =>
    rw [cellGet, if_neg (hn d (List.mem_cons.2 (.inl rfl)))]
    exact ih fun c hc => hn c (List.mem_cons.2 (.inr hc))

theorem cellGet_erase_other {a x : Nat} {m : List Host.Cell} (hx : x ≠ a) : cellGet (cellErase m a) x = cellGet m x := by
  induction m with
  | nil => rfl
  | cons d ds ih =>
    unfold cellErase at ih ⊢
    rw [List.filter_cons]
    split
    · simp only [cellGet, ih]
    · rename_i hd
      have : d.1 = a := by simpa using hd
      rw [ih, cellGet, if_neg (by omega)]

/-- The byte written reads back. -/
theorem cellGet_set_same (m : List Host.Cell) (a : Nat) (b : Byte) : cellGet (cellSet m a b) a = b := by
  unfold cellSet
  split
  · rename_i hb
    rw [cellGet_absent fun c hc => cellErase_ne hc, hb]
  · exact cellGet_insert_same fun c hc => cellErase_ne hc

/-- Every other byte stays. -/
theorem cellGet_set_other {a x : Nat} (m : List Host.Cell) (b : Byte) (hx : x ≠ a) : cellGet (cellSet m a b) x = cellGet m x := by
  unfold cellSet
  split
  · exact cellGet_erase_other hx
  · rw [cellGet_insert_other hx, cellGet_erase_other hx]

/-- Bytes outside a write stay. -/
theorem cellGet_write_other {m : List Host.Cell} {a x : Nat} {bs : List Byte} (hx : x < a ∨ a + bs.length ≤ x) :
    cellGet (cellWrite m a bs) x = cellGet m x := by
  induction bs generalizing m a with
  | nil => rfl
  | cons b bs ih =>
    rw [List.length_cons] at hx
    rw [cellWrite, ih (by omega), cellGet_set_other _ _ (by omega)]

/-- The bytes of a write read back. -/
theorem cellGet_write_same {m : List Host.Cell} {a i : Nat} {bs : List Byte} (hi : i < bs.length) :
    cellGet (cellWrite m a bs) (a + i) = bs[i] := by
  induction bs generalizing m a i with
  | nil => cases hi
  | cons b bs ih =>
    cases i with
    | zero => rw [cellWrite, cellGet_write_other (by omega), Nat.add_zero, cellGet_set_same]; rfl
    | succ i =>
      rw [cellWrite, show a + (i + 1) = a + 1 + i by omega, ih (by simpa using hi)]
      rfl

/-- The state after reset has canonical maps. -/
theorem reset_cfg_wf : cellWf State.reset.cfg.a = true ∧ cellWf State.reset.cfg.b = true ∧ cellWf State.reset.cfg.f = true :=
  ⟨rfl, rfl, rfl⟩

end Sys2Proof.Machine
end

