-- ==== Sys2Proof/Laws/Kept.lean ====
section
/-! SUPPORT. Raising an event, sending a frame and completing a command leave the dies and most of the hub alone. -/

namespace Sys2Proof.Machine

set_option linter.all false
set_option maxRecDepth 4000

theorem kept_mk (now part dies cfg locus hif link sync swp safe power trust selfTest chk therm out freeCtr pending) :
    (State.mk now part dies cfg locus hif link sync swp safe power trust selfTest chk therm out freeCtr pending).kept =
      { now := now, part := part.still, dies := dies, cfg := cfg, sync := sync, swp := swp, safe := safe,
        power := power, trust := trust.still, selfTest := selfTest, chk := chk, therm := therm } := rfl

theorem still_evtSeq (p : PartState) (n : Nat) : ({ p with evtSeq := n } : PartState).still = p.still := rfl

theorem still_bbWait (x : TrustState) (l : List BbWait) : ({ x with bbWait := l } : TrustState).still = x.still := rfl

/-- Each part read through `kept`. -/
theorem keptParts (s : State) :
    s.now = s.kept.now ∧ s.dies = s.kept.dies ∧ s.cfg = s.kept.cfg ∧ s.sync = s.kept.sync ∧ s.swp = s.kept.swp ∧ s.safe = s.kept.safe ∧
      s.part.still = s.kept.part ∧ s.trust.still = s.kept.trust ∧ s.power = s.kept.power ∧ s.selfTest = s.kept.selfTest ∧ s.chk = s.kept.chk ∧ s.therm = s.kept.therm :=
  ⟨rfl, rfl, rfl, rfl, rfl, rfl, rfl, rfl, rfl, rfl, rfl, rfl⟩

theorem kept_ite {c : Prop} {_ : Decidable c} {a b : State} {x : Kept} (ha : a.kept = x) (hb : b.kept = x) :
    (if c then a else b).kept = x := by split <;> assumption

theorem foldl_kept {α : Type} {f : State → α → State} (h : ∀ s a, (f s a).kept = s.kept) (l : List α) (s : State) :
    (l.foldl f s).kept = s.kept := by
  induction l generalizing s with
  | nil => rfl
  | cons a l ih => exact (ih _).trans (h _ _)

theorem foldl_kept_snd {α β : Type} {f : β × State → α → β × State} (h : ∀ s a, (f s a).2.kept = s.2.kept) (l : List α)
    (s : β × State) : (l.foldl f s).2.kept = s.2.kept := by
  induction l generalizing s with
  | nil => rfl
  | cons a l ih => exact (ih _).trans (h _ _)

theorem foldl_kept_fst {α β : Type} {f : State × β → α → State × β} (h : ∀ s a, (f s a).1.kept = s.1.kept) (l : List α)
    (s : State × β) : (l.foldl f s).1.kept = s.1.kept := by
  induction l generalizing s with
  | nil => rfl
  | cons a l ih => exact (ih _).trans (h _ _)

theorem onDie_kept {s : State} {k : Nat} {f : Die → State} {x : Kept} (h : ∀ d, (f d).kept = x) (hs : s.kept = x) :
    (s.onDie k f).kept = x := by
  unfold State.onDie
  split
  · split
    · exact h _
    · exact hs
  · exact hs

theorem State.modPort_kept (s : State) (side : Side) (f : Port → Port) : (State.modPort s side f).kept = s.kept := by
  unfold State.modPort
  split <;> simp only [kept_mk, keptParts, still_evtSeq, still_bbWait]

theorem State.emit_kept (s : State) (o : Out) : (State.emit s o).kept = s.kept := rfl

theorem State.enqueue_kept (s : State) (side : Side) (f : Frame) : (State.enqueue s side f).kept = s.kept := by
  unfold State.enqueue
  simp only [↓State.modPort_kept, kept_mk, keptParts, still_evtSeq, still_bbWait]

theorem State.countNoRoute_kept (s : State) : (State.countNoRoute s).kept = s.kept := rfl

theorem State.forwardBy_kept (s : State) (side : Side) (f : Frame) : (State.forwardBy s side f).kept = s.kept := by
  unfold State.forwardBy
  simp only [↓State.enqueue_kept, kept_mk, keptParts, still_evtSeq, still_bbWait]

theorem State.egress_kept (s : State) (side : Side) (f : Frame) : (State.egress s side f).kept = s.kept := by
  unfold State.egress
  repeat' first
    | with_reducible rfl
    | with_reducible apply kept_ite
    | (simp only [↓State.countNoRoute_kept, ↓State.forwardBy_kept, kept_mk]; done)
    | split
    | simp only [↓State.countNoRoute_kept, ↓State.forwardBy_kept, kept_mk, keptParts, still_evtSeq, still_bbWait]

theorem State.dispatchFrame_kept (s : State) (dest : Nat) (f : Frame) : (State.dispatchFrame s dest f).kept = s.kept := by
  unfold State.dispatchFrame
  repeat' first
    | with_reducible rfl
    | with_reducible apply kept_ite
    | (simp only [↓State.enqueue_kept, ↓State.egress_kept, ↓State.forwardBy_kept, kept_mk]; done)
    | split
    | simp only [↓State.enqueue_kept, ↓State.egress_kept, ↓State.forwardBy_kept, kept_mk, keptParts, still_evtSeq, still_bbWait]

theorem State.originate_kept (s : State) (tc kind dest : Nat) (payload : List Byte) : (State.originate s tc kind dest payload).kept = s.kept := by
  unfold State.originate
  repeat' first
    | with_reducible rfl
    | with_reducible apply kept_ite
    | with_reducible refine (foldl_kept (fun _ _ => ?_) _ _).trans ?_
    | (simp only [↓State.dispatchFrame_kept, kept_mk]; done)
    | split
    | simp only [↓State.dispatchFrame_kept, kept_mk, keptParts, still_evtSeq, still_bbWait]

theorem State.flushUnrouted_kept (s : State) : (State.flushUnrouted s).kept = s.kept := by
  unfold State.flushUnrouted
  repeat' first
    | with_reducible rfl
    | with_reducible apply kept_ite
    | with_reducible refine (foldl_kept (fun _ _ => ?_) _ _).trans ?_
    | (simp only [↓State.originate_kept, kept_mk]; done)
    | split
    | simp only [↓State.originate_kept, kept_mk, keptParts, still_evtSeq, still_bbWait]

theorem State.accept_kept (s : State) (f : Frame) : (State.accept s f).2.kept = s.kept := by
  unfold State.accept
  repeat' first
    | with_reducible rfl
    | with_reducible apply kept_ite
    | (simp only [kept_mk]; done)
    | split
    | simp only [kept_mk, keptParts, still_evtSeq, still_bbWait]

theorem State.assemble_kept (s : State) (f : Frame) : (State.assemble s f).2.kept = s.kept := by
  unfold State.assemble
  repeat' first
    | with_reducible rfl
    | with_reducible apply kept_ite
    | (simp only [kept_mk]; done)
    | split
    | simp only [kept_mk, keptParts, still_evtSeq, still_bbWait]

theorem State.evict_kept (s : State) (v : Rec) : (State.evict s v).kept = s.kept := rfl

theorem State.evictFor_kept {s : State} {tiers : List Tier} {n fuel : Nat} {r : Tier × State}
    (h : s.evictFor tiers n fuel = some r) : r.2.kept = s.kept := by
  induction fuel generalizing s with
  | zero => cases h
  | succ m ih =>
    unfold State.evictFor at h
    split at h
    · cases h; rfl
    · split at h
      · cases h
      · exact (ih h).trans rfl

theorem State.makeWay_kept (s : State) (n fuel : Nat) : (s.makeWay n fuel).2.kept = s.kept := by
  induction fuel generalizing s with
  | zero => rfl
  | succ m ih =>
    unfold State.makeWay
    split
    · rfl
    · split
      · exact (ih _).trans rfl
      · split
        · exact (ih _).trans rfl
        · rfl

theorem State.releaseD3_kept (s : State) (id : Nat) (fetched : Bool) : (State.releaseD3 s id fetched).kept = s.kept := rfl

theorem State.reclaim_kept {s t : State} {n : Nat} (h : s.reclaim n = some t) : t.kept = s.kept := by
  induction n generalizing s with
  | zero => cases h
  | succ m ih =>
    unfold State.reclaim at h
    split at h
    · cases h; rfl
    · split at h
      · cases h
      · exact (ih h).trans rfl

theorem State.targetBlock_kept {s : State} {but : List Nat} {spare : Bool} {r : Blk × State}
    (h : s.targetBlock but spare = some r) : r.2.kept = s.kept := by
  unfold State.targetBlock at h
  split at h
  · cases h; rfl
  · split at h
    · cases h; rfl
    · obtain ⟨u, hu, h⟩ := Option.bind_eq_some_iff.1 h
      obtain ⟨b, _, rfl⟩ := Option.map_eq_some_iff.1 h
      exact State.reclaim_kept hu

theorem State.startUnit_kept (s : State) (admitted : Bool) : (s.startUnit admitted).kept = s.kept := by
  unfold State.startUnit
  split
  · refine kept_ite rfl ?_
    dsimp only
    split
    · rfl
    · rename_i r h
      exact (State.targetBlock_kept h).symm ▸ rfl
  · rfl

theorem State.writer_kept (s : State) : (State.writer s).kept = s.kept := by
  unfold State.writer
  split <;> simp only [↓State.startUnit_kept, kept_mk, keptParts, still_evtSeq, still_bbWait]

theorem State.countSub_kept (s : State) (sub count : Nat) : (State.countSub s sub count).kept = s.kept := rfl

theorem State.countDrop_kept (s : State) (cls : Nat) : (State.countDrop s cls).kept = s.kept := rfl

theorem State.noteClaims_kept (s : State) (id : Nat) (claims : List Nat) : (State.noteClaims s id claims).kept = s.kept := rfl

theorem State.dropClaim_kept (s : State) (id sub : Nat) : (State.dropClaim s id sub).kept = s.kept := by
  unfold State.dropClaim
  simp only [↓State.releaseD3_kept, kept_mk, keptParts, still_evtSeq, still_bbWait]

theorem State.unclaim_kept (s : State) (w : StrWait) : (State.unclaim s w).kept = s.kept := by
  unfold State.unclaim
  split <;> simp only [↓State.originate_kept, ↓State.dropClaim_kept, kept_mk, keptParts, still_evtSeq, still_bbWait]

theorem State.queueClaim_kept (s : State) (w : StrWait) : (s.queueClaim w).2.kept = s.kept := by
  unfold State.queueClaim
  dsimp only
  have h : ∀ (l : List StrWait) (h' : HifState), (l.foldl (fun (s : State) x => s.unclaim x) { s with hif := h' }).kept = s.kept :=
    fun l h' => (foldl_kept (fun _ _ => State.unclaim_kept ..) _ _).trans rfl
  split
  · exact h _ _
  · exact (State.countDrop_kept ..).trans (kept_ite ((State.unclaim_kept ..).trans (h _ _)) (h _ _))

theorem State.claimAll_kept (s : State) (pos recType src time cls : Nat) (bytes : List Byte) (ref : Option Nat) :
    (s.claimAll pos recType src time cls bytes ref).2.kept = s.kept := by
  unfold State.claimAll
  refine (foldl_kept_snd (fun acc x => ?_) _ _).trans rfl
  dsimp only
  split
  · split
    · exact (State.queueClaim_kept ..).trans (State.countSub_kept ..)
    · exact State.countSub_kept ..
  · rfl

theorem State.sendClaims_kept (s : State) (recType src time : Nat) (bytes : List Byte) : (State.sendClaims s recType src time bytes).2.kept = s.kept := by
  unfold State.sendClaims
  repeat' first
    | with_reducible rfl
    | with_reducible apply kept_ite
    | with_reducible refine (foldl_kept (fun _ _ => ?_) _ _).trans ?_
    | (simp only [↓State.originate_kept, ↓State.countSub_kept, kept_mk]; done)
    | split
    | simp only [↓State.originate_kept, ↓State.countSub_kept, kept_mk, keptParts, still_evtSeq, still_bbWait]

theorem State.claimNew_kept (s : State) (id recType src time cls : Nat) (bytes : List Byte) : (State.claimNew s id recType src time cls bytes).kept = s.kept := by
  unfold State.claimNew
  split <;> simp only [↓State.sendClaims_kept, ↓State.noteClaims_kept, ↓State.claimAll_kept, ↓State.releaseD3_kept, kept_mk, keptParts, still_evtSeq, still_bbWait]

theorem State.stageD0_kept (s : State) (recType src time : Nat) (bytes : List Byte) : (State.stageD0 s recType src time bytes).kept = s.kept := by
  unfold State.stageD0
  split <;> simp only [↓State.claimNew_kept, ↓State.makeWay_kept, kept_mk, keptParts, still_evtSeq, still_bbWait]

theorem State.queueBb_kept (s : State) (w : BbWait) : (State.queueBb s w).kept = s.kept := rfl

theorem State.eventAt_kept (s : State) (e : Ev) (t : Nat) (full : Option (Nat × List Byte)) : (State.eventAt s e t full).kept = s.kept := by
  unfold State.eventAt
  repeat' first
    | with_reducible rfl
    | with_reducible apply kept_ite
    | (simp only [↓State.stageD0_kept, ↓State.originate_kept, ↓State.queueBb_kept, ↓State.writer_kept, kept_mk]; done)
    | split
    | simp only [↓State.stageD0_kept, ↓State.originate_kept, ↓State.queueBb_kept, ↓State.writer_kept, kept_mk, keptParts, still_evtSeq, still_bbWait]

theorem State.blackBox_kept (s : State) (kind : Nat) (keep : Bool) (body : List Byte) : (State.blackBox s kind keep body).kept = s.kept := rfl

theorem State.event_kept (s : State) (e : Ev) : (State.event s e).kept = s.kept := by
  unfold State.event
  simp only [↓State.eventAt_kept, kept_mk, keptParts, still_evtSeq, still_bbWait]

theorem State.placement_kept (s : State) (kind island task reason : Nat) (value : Int) (stream arg16 : Nat) : (State.placement s kind island task reason value stream arg16).kept = s.kept := by
  unfold State.placement
  simp only [↓State.eventAt_kept, kept_mk, keptParts, still_evtSeq, still_bbWait]

theorem State.dropRec_kept (s : State) (cls recType src : Nat) : (State.dropRec s cls recType src).kept = s.kept := by
  unfold State.dropRec
  repeat' first
    | with_reducible rfl
    | with_reducible apply kept_ite
    | (simp only [↓State.placement_kept, ↓State.countDrop_kept, kept_mk]; done)
    | split
    | simp only [↓State.placement_kept, ↓State.countDrop_kept, kept_mk, keptParts, still_evtSeq, still_bbWait]

theorem State.endDrops_kept (s : State) (cls recType src : Nat) : (State.endDrops s cls recType src).kept = s.kept := by
  unfold State.endDrops
  split <;> simp only [↓State.placement_kept, kept_mk, keptParts, still_evtSeq, still_bbWait]

theorem State.tierFor_kept {s : State} {cls n : Nat} {r : Tier × State} (h : s.tierFor cls n = some r) :
    r.2.kept = s.kept := by
  unfold State.tierFor at h
  repeat' first
    | (cases h; rfl)
    | exact State.evictFor_kept h
    | split at h

theorem State.putRec_kept (s : State) (tier : Tier) (cls recType src time : Nat) (bytes : List Byte) : (State.putRec s tier cls recType src time bytes).kept = s.kept := rfl

theorem State.place_kept (s : State) (recType src time : Nat) (bytes : List Byte) :
    (s.place recType src time bytes).kept = s.kept := by
  unfold State.place
  dsimp only
  refine kept_ite ((State.writer_kept _).trans (State.stageD0_kept ..)) ?_
  split
  · exact State.dropRec_kept ..
  · rename_i r h
    exact (State.writer_kept _).trans ((State.claimNew_kept ..).trans ((State.endDrops_kept ..).trans
      ((State.putRec_kept ..).trans (State.tierFor_kept h))))

theorem State.queueCompletion_kept (s : State) (x : InFlight) (origin result xfer code : Nat) : (State.queueCompletion s x origin result xfer code).kept = s.kept := rfl

theorem State.writeBuffer_kept (s : State) (l : List (Nat × Nat)) (bs : List Byte) :
    (s.writeBuffer l bs).kept = s.kept := by
  induction l generalizing s bs with
  | nil => rfl
  | cons a l ih =>
    cases bs with
    | nil => rfl
    | cons b bs => exact (ih _ _).trans rfl

theorem State.finishBroadcast_kept (s : State) (x : InFlight) : (State.finishBroadcast s x).kept = s.kept := by
  unfold State.finishBroadcast
  repeat' first
    | with_reducible rfl
    | with_reducible apply kept_ite
    | (simp only [↓State.writeBuffer_kept, ↓State.queueCompletion_kept, kept_mk]; done)
    | split
    | simp only [↓State.writeBuffer_kept, ↓State.queueCompletion_kept, kept_mk, keptParts, still_evtSeq, still_bbWait]

theorem State.vote_kept (s : State) (x : InFlight) (pos code : Nat) : (State.vote s x pos code).kept = s.kept := by
  unfold State.vote
  repeat' first
    | with_reducible rfl
    | with_reducible apply kept_ite
    | (simp only [↓State.finishBroadcast_kept, kept_mk]; done)
    | split
    | simp only [↓State.finishBroadcast_kept, kept_mk, keptParts, still_evtSeq, still_bbWait]

theorem State.takeCompletion_kept (s : State) (sq cid gen origin result xfer code : Nat) (data : List Byte) : (State.takeCompletion s sq cid gen origin result xfer code data).kept = s.kept := by
  unfold State.takeCompletion
  repeat' first
    | with_reducible rfl
    | with_reducible apply kept_ite
    | (simp only [↓State.vote_kept, ↓State.writeBuffer_kept, ↓State.queueCompletion_kept, kept_mk]; done)
    | split
    | simp only [↓State.vote_kept, ↓State.writeBuffer_kept, ↓State.queueCompletion_kept, kept_mk, keptParts, still_evtSeq, still_bbWait]

theorem State.tellArmed_kept (s : State) (a code : Nat) : (State.tellArmed s a code).kept = s.kept := by
  unfold State.tellArmed
  split <;> simp only [↓State.originate_kept, kept_mk, keptParts, still_evtSeq, still_bbWait]

theorem State.completeData_kept (s : State) (c : Cmd) (st : Status) (result : Nat) (data : List Byte) : (State.completeData s c st result data).kept = s.kept := by
  unfold State.completeData
  split <;> simp only [↓State.originate_kept, ↓State.takeCompletion_kept, kept_mk, keptParts, still_evtSeq, still_bbWait]

theorem State.completeX_kept (s : State) (c : Cmd) (st : Status) (result xfer : Nat) : (State.completeX s c st result xfer).kept = s.kept := by
  unfold State.completeX
  split <;> simp only [↓State.originate_kept, ↓State.takeCompletion_kept, kept_mk, keptParts, still_evtSeq, still_bbWait]

theorem State.complete_kept (s : State) (c : Cmd) (st : Status) (result : Nat) : (State.complete s c st result).kept = s.kept := by
  unfold State.complete
  simp only [↓State.completeX_kept, kept_mk, keptParts, still_evtSeq, still_bbWait]

theorem State.completeOpt_kept (s : State) (c : Option Cmd) (st : Status) (result : Nat) : (State.completeOpt s c st result).kept = s.kept := by
  unfold State.completeOpt
  split <;> simp only [↓State.complete_kept, kept_mk, keptParts, still_evtSeq, still_bbWait]

end Sys2Proof.Machine
end

