-- ==== Sys2Proof/Laws/Commit.lean ====
section
/-! SUPPORT. The check of a commit: one offence is enough to reject B, and what a register's bits say of its bytes. -/

namespace Sys2Proof.Machine

theorem evalOuts_cfg (s : State) : s.evalOuts.cfg = s.cfg := congrArg (·.2.1) (State.evalOuts_calmEq s)

theorem complete_cfg (s : State) (c : Cmd) (st : Status) (r : Nat) : (s.complete c st r).cfg = s.cfg :=
  congrArg Kept.cfg (State.complete_kept s c st r)

/-- A list with an offence has one that is reported. -/
theorem firstOffence_some {l : List (Nat × Nat × Nat)} (h : l ≠ []) : ∃ o, firstOffence l = some o := by
  have keep : ∀ (l : List (Nat × Nat × Nat)) (x : Nat × Nat × Nat), ∃ o,
      l.foldl (fun m x => match m with | none => some x | some y => if offenceRank x < offenceRank y then some x else some y) (some x) = some o := by
    intro l
    induction l with
    | nil => exact fun x => ⟨x, rfl⟩
    | cons a l ih => intro x; dsimp only [List.foldl_cons]; split <;> exact ih _
  cases l with
  | nil => exact absurd rfl h
  | cons a l => exact keep l a

/-- A B with an offence is rejected. -/
theorem rejectsCommit_of {s : State} {t : Nat} (h : checkSet s.cfg.a s.cfg.b s.islands (s.isGateway && s.anyOut) ≠ []) : s.rejectsCommit t := by
  intro p hp hc hw
  obtain ⟨o, ho⟩ := firstOffence_some h
  have hb : exec (.commitCheck t) s =
      .next ((((s.at_ t).modCfg fun x => { x with pend := none }).complete p.cmd .configInvalid (offenceResult o)).evalOuts) := by
    show execCommitCheck t s = _
    unfold execCommitCheck
    dsimp only
    rw [show (s.at_ t).cfg.pend = some p from hp]
    dsimp only
    rw [hc, show (s.at_ t).cfg.waiting = [] from hw]
    have : firstOffence (checkSet (s.at_ t).cfg.a (s.at_ t).cfg.b (s.at_ t).islands ((s.at_ t).isGateway && (s.at_ t).anyOut)) = some o := ho
    rw [this]
    rfl
  refine ⟨_, hb, ?_, ?_, ?_, offenceResult o, rfl⟩ <;> rw [evalOuts_cfg, complete_cfg] <;> rfl

theorem checkSet_ports {a m : List Host.Cell} {ks : List Nat} {on : Bool} (h : checkPorts m ≠ []) : checkSet a m ks on ≠ [] := by
  unfold checkSet
  simp [h]

theorem checkSet_locus {a m : List Host.Cell} {ks : List Nat} {on : Bool} (h : checkLocus m ≠ []) : checkSet a m ks on ≠ [] := by
  unfold checkSet
  simp [h]

theorem checkSet_power {a m : List Host.Cell} {ks : List Nat} {on : Bool} (h : checkPower m ≠ []) : checkSet a m ks on ≠ [] := by
  unfold checkSet
  simp [h]

/-- An offence that holds is listed. -/
theorem offences_ne_nil {l : List (Bool × Nat)} {x : Bool × Nat} (hm : x ∈ l) (hx : x.1 = true) : offences l ≠ [] := by
  unfold offences
  intro h
  have := List.map_eq_nil_iff.1 h
  exact absurd (List.mem_filter.2 ⟨hm, hx⟩) (by rw [this]; exact List.not_mem_nil)

/-- What a map reads at an address is listed there, or is the reset value. -/
theorem cellGet_cases (m : List Host.Cell) (a : Nat) : cellGet m a = cfgDefault a ∨ (a, cellGet m a) ∈ m := by
  induction m with
  | nil => exact .inl rfl
  | cons c cs ih =>
    unfold cellGet
    split
    · next h => exact .inr (List.mem_cons.2 (.inl (by rw [← h])))
    · exact ih.imp id fun h => List.mem_cons.2 (.inr h)

/-- A byte with a bit set that is "write 0, read 0" is found. -/
theorem strayRegs_ne_nil {m : List Host.Cell} {block target a : Nat} (hl : blockLo block target ≤ a) (hh : a < blockHi block target)
    (hd : cfgDefault a &&& cfgMask a = cfgDefault a) (h : cellGet m a &&& cfgMask a ≠ cellGet m a) : strayRegs m block target ≠ [] := by
  unfold strayRegs
  intro hn
  have := List.map_eq_nil_iff.1 hn
  rcases cellGet_cases m a with he | he
  · exact h (by rw [he, hd])
  · refine absurd (List.mem_filter.2 ⟨he, ?_⟩) (by rw [this]; exact List.not_mem_nil)
    simp [hl, hh, h]

theorem bits_and (w m hi lo : Nat) : bits (w &&& m) hi lo = bits w hi lo &&& bits m hi lo := by
  unfold bits
  apply Nat.eq_of_testBit_eq
  intro i
  simp only [Nat.testBit_and, Nat.testBit_mod_two_pow, Nat.testBit_div_two_pow]
  cases decide (i < hi + 1 - lo) <;> simp

/-- A field whose bits are all writable is read as it stands. -/
theorem bits_regIn {m : List Host.Cell} {block target off hi lo : Nat} (h : bits (cfgReg block target off).2 hi lo = 2 ^ (hi + 1 - lo) - 1) :
    bits (regIn m block target off) hi lo = bits (cellWord m block target off) hi lo := by
  unfold regIn
  rw [bits_and, h, Nat.and_two_pow_sub_one_eq_mod]
  unfold bits
  rw [Nat.mod_mod]

/-- A register of four bytes. -/
theorem cellWord_eq (m : List Host.Cell) (block target off : Nat) : cellWord m block target off =
    (cellGet m (cfgAddr block target off)).toNat + 256 * ((cellGet m (cfgAddr block target off + 1)).toNat +
      256 * ((cellGet m (cfgAddr block target off + 2)).toNat + 256 * (cellGet m (cfgAddr block target off + 3)).toNat)) := by
  unfold cellWord cellRead
  simp only [List.range, List.range.loop, List.map_cons, List.map_nil, ofLe, Nat.add_zero, Nat.mul_zero]

end Sys2Proof.Machine
end

