-- ==== Sys2Proof/Laws/Instant.lean ====
section
/-! SUPPORT. What the instant of a command and the note of activity leave alone: every reading of the state that does not
depend on the time gives what it gave. -/

namespace Sys2Proof.Machine

@[simp] theorem State.die?_at_ (s : State) (time : Nat) (k : Nat) : (s.at_ time).die? k = s.die? k := rfl
@[simp] theorem State.fitted_at_ (s : State) (time : Nat) (k : Nat) : (s.at_ time).fitted k = s.fitted k := rfl
@[simp] theorem State.islands_at_ (s : State) (time : Nat) : (s.at_ time).islands = s.islands := rfl
@[simp] theorem State.pathIntact_at_ (s : State) (time : Nat) (k : Nat) (side : Side) : (s.at_ time).pathIntact k side = s.pathIntact k side := rfl
@[simp] theorem State.ringHops_at_ (s : State) (time : Nat) (k : Nat) (side : Side) : (s.at_ time).ringHops k side = s.ringHops k side := rfl
@[simp] theorem State.dieVia_at_ (s : State) (time : Nat) (k : Nat) : (s.at_ time).dieVia k = s.dieVia k := rfl
@[simp] theorem State.reach_at_ (s : State) (time : Nat) (k : Nat) : (s.at_ time).reach k = s.reach k := rfl
@[simp] theorem State.linkSharers_at_ (s : State) (time : Nat) (side : Side) : (s.at_ time).linkSharers side = s.linkSharers side := rfl
@[simp] theorem State.hubTakes_at_ (s : State) (time : Nat) (k : Nat) : (s.at_ time).hubTakes k = s.hubTakes k := rfl
@[simp] theorem State.regF_at_ (s : State) (time : Nat) (block target off : Nat) : (s.at_ time).regF block target off = s.regF block target off := rfl
@[simp] theorem State.fF_at_ (s : State) (time : Nat) (block target off hi lo : Nat) : (s.at_ time).fF block target off hi lo = s.fF block target off hi lo := rfl
@[simp] theorem State.fB_at_ (s : State) (time : Nat) (block target off i : Nat) : (s.at_ time).fB block target off i = s.fB block target off i := rfl
@[simp] theorem State.blockDiffers_at_ (s : State) (time : Nat) (block target : Nat) : (s.at_ time).blockDiffers block target = s.blockDiffers block target := rfl
@[simp] theorem State.rangeDiffers_at_ (s : State) (time : Nat) (block target lo hi : Nat) : (s.at_ time).rangeDiffers block target lo hi = s.rangeDiffers block target lo hi := rfl
@[simp] theorem State.isGateway_at_ (s : State) (time : Nat) : (s.at_ time).isGateway = s.isGateway := rfl
@[simp] theorem State.isModule_at_ (s : State) (time : Nat) : (s.at_ time).isModule = s.isModule := rfl
@[simp] theorem State.conflict_at_ (s : State) (time : Nat) : (s.at_ time).conflict = s.conflict := rfl
@[simp] theorem State.hosted_at_ (s : State) (time : Nat) : (s.at_ time).hosted = s.hosted := rfl
@[simp] theorem State.pos_at_ (s : State) (time : Nat) : (s.at_ time).pos = s.pos := rfl
@[simp] theorem State.chainParts_at_ (s : State) (time : Nat) : (s.at_ time).chainParts = s.chainParts := rfl
@[simp] theorem State.identOf_at_ (s : State) (time : Nat) (p : Nat) : (s.at_ time).identOf p = s.identOf p := rfl
@[simp] theorem State.posOf_at_ (s : State) (time : Nat) (ident : Nat) : (s.at_ time).posOf ident = s.posOf ident := rfl
@[simp] theorem State.tq_at_ (s : State) (time : Nat) : (s.at_ time).tq = s.tq := rfl
@[simp] theorem State.inRun_at_ (s : State) (time : Nat) : (s.at_ time).inRun = s.inRun := rfl
@[simp] theorem State.inRunDoze_at_ (s : State) (time : Nat) : (s.at_ time).inRunDoze = s.inRunDoze := rfl
@[simp] theorem State.warned_at_ (s : State) (time : Nat) : (s.at_ time).warned = s.warned := rfl
@[simp] theorem State.port_at_ (s : State) (time : Nat) (side : Side) : (s.at_ time).port side = s.port side := rfl
@[simp] theorem State.linkItem_at_ (s : State) (time : Nat) (i : Nat) : (s.at_ time).linkItem i = s.linkItem i := rfl
@[simp] theorem State.linkHeld_at_ (s : State) (time : Nat) (i : Nat) : (s.at_ time).linkHeld i = s.linkHeld i := rfl
@[simp] theorem State.linkFailed_at_ (s : State) (time : Nat) (i : Nat) : (s.at_ time).linkFailed i = s.linkFailed i := rfl
@[simp] theorem State.balMode_at_ (s : State) (time : Nat) (k : Nat) : (s.at_ time).balMode k = s.balMode k := rfl
@[simp] theorem State.balStepNs_at_ (s : State) (time : Nat) (k : Nat) : (s.at_ time).balStepNs k = s.balStepNs k := rfl
@[simp] theorem State.balXmin_at_ (s : State) (time : Nat) (k : Nat) : (s.at_ time).balXmin k = s.balXmin k := rfl
@[simp] theorem State.balDv_at_ (s : State) (time : Nat) (k : Nat) : (s.at_ time).balDv k = s.balDv k := rfl
@[simp] theorem State.refCells_at_ (s : State) (time : Nat) : (s.at_ time).refCells = s.refCells := rfl
@[simp] theorem State.balRefs_at_ (s : State) (time : Nat) : (s.at_ time).balRefs = s.balRefs := rfl
@[simp] theorem State.eligible_at_ (s : State) (time : Nat) (k n : Nat) (d : Die) : (s.at_ time).eligible k n d = s.eligible k n d := rfl
@[simp] theorem State.balNeed_at_ (s : State) (time : Nat) (k n : Nat) (d : Die) (r : BalRefs) : (s.at_ time).balNeed k n d r = s.balNeed k n d r := rfl
@[simp] theorem State.balSelect_at_ (s : State) (time : Nat) (k : Nat) (d : Die) (r : BalRefs) : (s.at_ time).balSelect k d r = s.balSelect k d r := rfl
@[simp] theorem State.balRecord_at_ (s : State) (time : Nat) (k t : Nat) (d : Die) : (s.at_ time).balRecord k t d = s.balRecord k t d := rfl
@[simp] theorem State.allows_at_ (s : State) (time : Nat) (code : Nat) : (s.at_ time).allows code = s.allows code := rfl
@[simp] theorem State.targetOk_at_ (s : State) (time : Nat) (o : OpInfo) (target : Nat) : (s.at_ time).targetOk o target = s.targetOk o target := rfl
@[simp] theorem State.dieGone_at_ (s : State) (time : Nat) (k : Nat) : (s.at_ time).dieGone k = s.dieGone k := rfl
@[simp] theorem State.refusal_at_ (s : State) (time : Nat) (code : Nat) (c : Cmd) : (s.at_ time).refusal code c = s.refusal code c := rfl
@[simp] theorem State.executes_at_ (s : State) (time : Nat) : (s.at_ time).executes = s.executes := rfl
@[simp] theorem State.isMine_at_ (s : State) (time : Nat) (code : Nat) (c : Cmd) : (s.at_ time).isMine code c = s.isMine code c := rfl
@[simp] theorem State.present_at_ (s : State) (time : Nat) (c : Cmd) : (s.at_ time).present c = s.present c := rfl
@[simp] theorem State.inData_at_ (s : State) (time : Nat) (c : Cmd) (came : List Byte) : (s.at_ time).inData c came = s.inData c came := rfl
@[simp] theorem State.identity_at_ (s : State) (time : Nat) : (s.at_ time).identity = s.identity := rfl
@[simp] theorem State.newCapture_at_ (s : State) (time : Nat) (k a : Nat) (c : Cmd) (d : Die) : (s.at_ time).newCapture k a c d = s.newCapture k a c d := rfl
@[simp] theorem State.captureBlocks_at_ (s : State) (time : Nat) (k id : Nat) : (s.at_ time).captureBlocks k id = s.captureBlocks k id := rfl
@[simp] theorem State.releaseToken_at_ (s : State) (time : Nat) : (s.at_ time).releaseToken = s.releaseToken := rfl
@[simp] theorem State.stateEn_at_ (s : State) (time : Nat) (k : Nat) : (s.at_ time).stateEn k = s.stateEn k := rfl
@[simp] theorem State.profSlot_at_ (s : State) (time : Nat) (k : Nat) : (s.at_ time).profSlot k = s.profSlot k := rfl
@[simp] theorem State.socSrc_at_ (s : State) (time : Nat) (k : Nat) : (s.at_ time).socSrc k = s.socSrc k := rfl
@[simp] theorem State.prof_at_ (s : State) (time : Nat) (k off n : Nat) : (s.at_ time).prof k off n = s.prof k off n := rfl
@[simp] theorem State.qNom_at_ (s : State) (time : Nat) (k : Nat) : (s.at_ time).qNom k = s.qNom k := rfl
@[simp] theorem State.qInit_at_ (s : State) (time : Nat) (k : Nat) : (s.at_ time).qInit k = s.qInit k := rfl
@[simp] theorem State.qRated_at_ (s : State) (time : Nat) (k : Nat) : (s.at_ time).qRated k = s.qRated k := rfl
@[simp] theorem State.hysUsed_at_ (s : State) (time : Nat) (k : Nat) : (s.at_ time).hysUsed k = s.hysUsed k := rfl
@[simp] theorem State.socAx_at_ (s : State) (time : Nat) (k : Nat) : (s.at_ time).socAx k = s.socAx k := rfl
@[simp] theorem State.tAx_at_ (s : State) (time : Nat) (k : Nat) : (s.at_ time).tAx k = s.tAx k := rfl
@[simp] theorem State.rateAx_at_ (s : State) (time : Nat) (k : Nat) : (s.at_ time).rateAx k = s.rateAx k := rfl
@[simp] theorem State.tClamp_at_ (s : State) (time : Nat) (k : Nat) (temp : Rat) : (s.at_ time).tClamp k temp = s.tClamp k temp := rfl
@[simp] theorem State.ocvAt_at_ (s : State) (time : Nat) (k : Nat) (temp h : Rat) (i : Nat) : (s.at_ time).ocvAt k temp h i = s.ocvAt k temp h i := rfl
@[simp] theorem State.ocvInverse_at_ (s : State) (time : Nat) (k : Nat) (v temp h : Rat) : (s.at_ time).ocvInverse k v temp h = s.ocvInverse k v temp h := rfl
@[simp] theorem State.rDc_at_ (s : State) (time : Nat) (k : Nat) (temp rate soc : Rat) : (s.at_ time).rDc k temp rate soc = s.rDc k temp rate soc := rfl
@[simp] theorem State.hysK_at_ (s : State) (time : Nat) (k : Nat) (temp : Rat) : (s.at_ time).hysK k temp = s.hysK k temp := rfl
@[simp] theorem State.meterCharge_at_ (s : State) (time : Nat) : (s.at_ time).meterCharge = s.meterCharge := rfl
@[simp] theorem State.keepsState_at_ (s : State) (time : Nat) (k : Nat) : (s.at_ time).keepsState k = s.keepsState k := rfl
@[simp] theorem State.learnedRecord_at_ (s : State) (time : Nat) (k : Nat) (identity : Option Nat) (pattern : Nat) : (s.at_ time).learnedRecord k identity pattern = s.learnedRecord k identity pattern := rfl
@[simp] theorem State.qRef_at_ (s : State) (time : Nat) : (s.at_ time).qRef = s.qRef := rfl
@[simp] theorem State.meterSrc_at_ (s : State) (time : Nat) : (s.at_ time).meterSrc = s.meterSrc := rfl
@[simp] theorem State.countCell_at_ (s : State) (time : Nat) (k : Nat) (dq qBal qHub extra : Rat) (c : CellSt) : (s.at_ time).countCell k dq qBal qHub extra c = s.countCell k dq qBal qHub extra c := rfl
@[simp] theorem State.learnRho_at_ (s : State) (time : Nat) (k : Nat) (d : Die) (t0 : Nat) (i0 i1 : Rat) : (s.at_ time).learnRho k d t0 i0 i1 = s.learnRho k d t0 i0 i1 := rfl
@[simp] theorem State.restStep_at_ (s : State) (time : Nat) (k : Nat) (e : EstState) (i : Rat) (tEnd : Nat) : (s.at_ time).restStep k e i tEnd = s.restStep k e i tEnd := rfl
@[simp] theorem State.chargeBlock_at_ (s : State) (time : Nat) (k sh : Nat) (d : Die) (x : ShuntAcc) : (s.at_ time).chargeBlock k sh d x = s.chargeBlock k sh d x := rfl
@[simp] theorem State.loaded_at_ (s : State) (time : Nat) (k : Nat) (c : CellSt) (v : Rat) : (s.at_ time).loaded k c v = s.loaded k c v := rfl
@[simp] theorem State.ends_at_ (s : State) (time : Nat) (k : Nat) (c : CellSt) : (s.at_ time).ends k c = s.ends k c := rfl
@[simp] theorem State.cellOut_at_ (s : State) (time : Nat) (k : Nat) (c : CellSt) : (s.at_ time).cellOut k c = s.cellOut k c := rfl
@[simp] theorem State.restDue_at_ (s : State) (time : Nat) (k : Nat) (e : EstState) (cells : List CellSt) (tEnd : Nat) : (s.at_ time).restDue k e cells tEnd = s.restDue k e cells tEnd := rfl
@[simp] theorem State.judgePair_at_ (s : State) (time : Nat) (k : Nat) (c : CellSt) (p1 p2 : LearnPt) : (s.at_ time).judgePair k c p1 p2 = s.judgePair k c p1 p2 := rfl
@[simp] theorem State.learnRecord_at_ (s : State) (time : Nat) (k n : Nat) (before after : CellSt) : (s.at_ time).learnRecord k n before after = s.learnRecord k n before after := rfl
@[simp] theorem State.partVolts_at_ (s : State) (time : Nat) : (s.at_ time).partVolts = s.partVolts := rfl
@[simp] theorem State.fastMode_at_ (s : State) (time : Nat) (k : Nat) : (s.at_ time).fastMode k = s.fastMode k := rfl
@[simp] theorem State.fastRuns_at_ (s : State) (time : Nat) (k : Nat) (d : Die) : (s.at_ time).fastRuns k d = s.fastRuns k d := rfl
@[simp] theorem State.cutOff_at_ (s : State) (time : Nat) (k : Nat) : (s.at_ time).cutOff k = s.cutOff k := rfl
@[simp] theorem State.fastWanted_at_ (s : State) (time : Nat) (k : Nat) (d : Die) : (s.at_ time).fastWanted k d = s.fastWanted k d := rfl
@[simp] theorem State.fetchable_at_ (s : State) (time : Nat) (n : Nat) : (s.at_ time).fetchable n = s.fetchable n := rfl
@[simp] theorem State.arbiter_at_ (s : State) (time : Nat) : (s.at_ time).arbiter = s.arbiter := rfl
@[simp] theorem State.dupCid_at_ (s : State) (time : Nat) (c : Cmd) : (s.at_ time).dupCid c = s.dupCid c := rfl
@[simp] theorem State.headRefusal_at_ (s : State) (time : Nat) (c : Cmd) (reserved : Nat) : (s.at_ time).headRefusal c reserved = s.headRefusal c reserved := rfl
@[simp] theorem State.checkDescriptor_at_ (s : State) (time : Nat) (c : Cmd) (reserved : Nat) (list : List Byte) : (s.at_ time).checkDescriptor c reserved list = s.checkDescriptor c reserved list := rfl
@[simp] theorem State.listAsked_at_ (s : State) (time : Nat) (c : Cmd) (reserved : Nat) : (s.at_ time).listAsked c reserved = s.listAsked c reserved := rfl
@[simp] theorem State.hifUp_at_ (s : State) (time : Nat) : (s.at_ time).hifUp = s.hifUp := rfl
@[simp] theorem State.hifServes_at_ (s : State) (time : Nat) : (s.at_ time).hifServes = s.hifServes := rfl
@[simp] theorem State.toCome_at_ (s : State) (time : Nat) (x : InFlight) : (s.at_ time).toCome x = s.toCome x := rfl
@[simp] theorem State.reachable_at_ (s : State) (time : Nat) (dest : Nat) : (s.at_ time).reachable dest = s.reachable dest := rfl
@[simp] theorem State.mayStart_at_ (s : State) (time : Nat) (x : InFlight) : (s.at_ time).mayStart x = s.mayStart x := rfl
@[simp] theorem State.subRefusal_at_ (s : State) (time : Nat) (c : Cmd) : (s.at_ time).subRefusal c = s.subRefusal c := rfl
@[simp] theorem State.subOf_at_ (s : State) (time : Nat) (c : Cmd) : (s.at_ time).subOf c = s.subOf c := rfl
@[simp] theorem State.streamRecs_at_ (s : State) (time : Nat) (recType src tFrom : Nat) : (s.at_ time).streamRecs recType src tFrom = s.streamRecs recType src tFrom := rfl
@[simp] theorem State.oldestDay_at_ (s : State) (time : Nat) : (s.at_ time).oldestDay = s.oldestDay := rfl
@[simp] theorem State.bar0Word_at_ (s : State) (time : Nat) (off : Nat) : (s.at_ time).bar0Word off = s.bar0Word off := rfl
@[simp] theorem State.bar0Read_at_ (s : State) (time : Nat) (off size : Nat) : (s.at_ time).bar0Read off size = s.bar0Read off size := rfl
@[simp] theorem State.pbaWord_at_ (s : State) (time : Nat) (off : Nat) : (s.at_ time).pbaWord off = s.pbaWord off := rfl
@[simp] theorem State.bar2Word_at_ (s : State) (time : Nat) (off : Nat) : (s.at_ time).bar2Word off = s.bar2Word off := rfl
@[simp] theorem State.impEn_at_ (s : State) (time : Nat) (k : Nat) : (s.at_ time).impEn k = s.impEn k := rfl
@[simp] theorem State.bandEn_at_ (s : State) (time : Nat) (k b : Nat) : (s.at_ time).bandEn k b = s.bandEn k b := rfl
@[simp] theorem State.avgLen_at_ (s : State) (time : Nat) (k b : Nat) : (s.at_ time).avgLen k b = s.avgLen k b := rfl
@[simp] theorem State.impSrc_at_ (s : State) (time : Nat) (k : Nat) : (s.at_ time).impSrc k = s.impSrc k := rfl
@[simp] theorem State.isCurDie_at_ (s : State) (time : Nat) (k : Nat) : (s.at_ time).isCurDie k = s.isCurDie k := rfl
@[simp] theorem State.impRuns_at_ (s : State) (time : Nat) (k : Nat) (d : Die) : (s.at_ time).impRuns k d = s.impRuns k d := rfl
@[simp] theorem State.currentBlock_at_ (s : State) (time : Nat) (k : Nat) (d : Die) (t0 : Nat) : (s.at_ time).currentBlock k d t0 = s.currentBlock k d t0 := rfl
@[simp] theorem State.cellSeg_at_ (s : State) (time : Nat) (k band q0 n : Nat) (d : Die) (inj : Bool) (cur : List (Int × Bool × Nat)) : (s.at_ time).cellSeg k band q0 n d inj cur = s.cellSeg k band q0 n d inj cur := rfl
@[simp] theorem State.tphPairs_at_ (s : State) (time : Nat) (k : Nat) : (s.at_ time).tphPairs k = s.tphPairs k := rfl
@[simp] theorem State.injInForce_at_ (s : State) (time : Nat) (k : Nat) (d : Die) : (s.at_ time).injInForce k d = s.injInForce k d := rfl
@[simp] theorem State.injRuns_at_ (s : State) (time : Nat) (k : Nat) (d : Die) : (s.at_ time).injRuns k d = s.injRuns k d := rfl
@[simp] theorem State.discover_at_ (s : State) (time : Nat) : (s.at_ time).discover = s.discover := rfl
@[simp] theorem State.linkRuns_at_ (s : State) (time : Nat) : (s.at_ time).linkRuns = s.linkRuns := rfl
@[simp] theorem State.lkF_at_ (s : State) (time : Nat) (off hi lo : Nat) : (s.at_ time).lkF off hi lo = s.lkF off hi lo := rfl
@[simp] theorem State.chainOf_at_ (s : State) (time : Nat) : (s.at_ time).chainOf = s.chainOf := rfl
@[simp] theorem State.pairAllowed_at_ (s : State) (time : Nat) (peerLife : Nat) (peerRoot : List Byte) : (s.at_ time).pairAllowed peerLife peerRoot = s.pairAllowed peerLife peerRoot := rfl
@[simp] theorem State.chainDelays_at_ (s : State) (time : Nat) : (s.at_ time).chainDelays = s.chainDelays := rfl
@[simp] theorem State.keyingText_at_ (s : State) (time : Nat) (side : Side) (k : Keying) : (s.at_ time).keyingText side k = s.keyingText side k := rfl
@[simp] theorem State.ringN_at_ (s : State) (time : Nat) : (s.at_ time).ringN = s.ringN := rfl
@[simp] theorem State.place?_at_ (s : State) (time : Nat) : (s.at_ time).place? = s.place? := rfl
@[simp] theorem State.hopOf_at_ (s : State) (time : Nat) (side : Side) : (s.at_ time).hopOf side = s.hopOf side := rfl
@[simp] theorem State.hopUsable_at_ (s : State) (time : Nat) (side : Side) : (s.at_ time).hopUsable side = s.hopUsable side := rfl
@[simp] theorem State.hasNeighbour_at_ (s : State) (time : Nat) (side : Side) : (s.at_ time).hasNeighbour side = s.hasNeighbour side := rfl
@[simp] theorem State.route_at_ (s : State) (time : Nat) (dest : Nat) : (s.at_ time).route dest = s.route dest := rfl
@[simp] theorem State.hopsTo_at_ (s : State) (time : Nat) (p : Nat) : (s.at_ time).hopsTo p = s.hopsTo p := rfl
@[simp] theorem State.mayForward_at_ (s : State) (time : Nat) (side : Side) (f : Frame) : (s.at_ time).mayForward side f = s.mayForward side f := rfl
@[simp] theorem State.flowOf_at_ (s : State) (time : Nat) (f : Frame) : (s.at_ time).flowOf f = s.flowOf f := rfl
@[simp] theorem State.hopsKeyed_at_ (s : State) (time : Nat) : (s.at_ time).hopsKeyed = s.hopsKeyed := rfl
@[simp] theorem State.partWord_at_ (s : State) (time : Nat) : (s.at_ time).partWord = s.partWord := rfl
@[simp] theorem State.lifeWord_at_ (s : State) (time : Nat) : (s.at_ time).lifeWord = s.lifeWord := rfl
@[simp] theorem State.livePrec_at_ (s : State) (time : Nat) (k : Nat) (d : Die) (x : SelfTest) (off : Nat) : (s.at_ time).livePrec k d x off = s.livePrec k d x off := rfl
@[simp] theorem State.liveHub_at_ (s : State) (time : Nat) (off : Nat) : (s.at_ time).liveHub off = s.liveHub off := rfl
@[simp] theorem State.t3Free_at_ (s : State) (time : Nat) : (s.at_ time).t3Free = s.t3Free := rfl
@[simp] theorem State.liveLocus_at_ (s : State) (time : Nat) (off : Nat) : (s.at_ time).liveLocus off = s.liveLocus off := rfl
@[simp] theorem State.liveSafe_at_ (s : State) (time : Nat) (off : Nat) : (s.at_ time).liveSafe off = s.liveSafe off := rfl
@[simp] theorem State.domains_at_ (s : State) (time : Nat) : (s.at_ time).domains = s.domains := rfl
@[simp] theorem State.livePower_at_ (s : State) (time : Nat) (off : Nat) : (s.at_ time).livePower off = s.livePower off := rfl
@[simp] theorem State.nearer_at_ (s : State) (time : Nat) (best : Option (Nat × Nat)) (p : Nat) : (s.at_ time).nearer best p = s.nearer best p := rfl
@[simp] theorem State.nearestHolder_at_ (s : State) (time : Nat) (candidates : List Nat) : (s.at_ time).nearestHolder candidates = s.nearestHolder candidates := rfl
@[simp] theorem State.retention_at_ (s : State) (time : Nat) (cls : Nat) : (s.at_ time).retention cls = s.retention cls := rfl
@[simp] theorem State.rawLoad_at_ (s : State) (time : Nat) (k : Nat) (d : Die) : (s.at_ time).rawLoad k d = s.rawLoad k d := rfl
@[simp] theorem State.prioOf_at_ (s : State) (time : Nat) (r : Rec) : (s.at_ time).prioOf r = s.prioOf r := rfl
@[simp] theorem State.evictRank_at_ (s : State) (time : Nat) (r : Rec) : (s.at_ time).evictRank r = s.evictRank r := rfl
@[simp] theorem State.evictFirst_at_ (s : State) (time : Nat) (cands : List Rec) : (s.at_ time).evictFirst cands = s.evictFirst cands := rfl
@[simp] theorem State.evictVictim_at_ (s : State) (time : Nat) (tiers : List Tier) : (s.at_ time).evictVictim tiers = s.evictVictim tiers := rfl
@[simp] theorem State.spills_at_ (s : State) (time : Nat) : (s.at_ time).spills = s.spills := rfl
@[simp] theorem State.t3Usable_at_ (s : State) (time : Nat) : (s.at_ time).t3Usable = s.t3Usable := rfl
@[simp] theorem State.writable_at_ (s : State) (time : Nat) : (s.at_ time).writable = s.writable := rfl
@[simp] theorem State.keepsD3_at_ (s : State) (time : Nat) (r : Rec) : (s.at_ time).keepsD3 r = s.keepsD3 r := rfl
@[simp] theorem State.writerTakes_at_ (s : State) (time : Nat) (r : Rec) : (s.at_ time).writerTakes r = s.writerTakes r := rfl
@[simp] theorem State.refreshFirst_at_ (s : State) (time : Nat) : (s.at_ time).refreshFirst = s.refreshFirst := rfl
@[simp] theorem State.admitsUnit_at_ (s : State) (time : Nat) : (s.at_ time).admitsUnit = s.admitsUnit := rfl
@[simp] theorem State.thermC_at_ (s : State) (time : Nat) (k j : Nat) : (s.at_ time).thermC k j = s.thermC k j := rfl
@[simp] theorem State.shuntRes_at_ (s : State) (time : Nat) (k sh : Nat) : (s.at_ time).shuntRes k sh = s.shuntRes k sh := rfl
@[simp] theorem State.supervisorsTested_at_ (s : State) (time : Nat) : (s.at_ time).supervisorsTested = s.supervisorsTested := rfl
@[simp] theorem State.dieBusy_at_ (s : State) (time : Nat) (k : Nat) : (s.at_ time).dieBusy k = s.dieBusy k := rfl
@[simp] theorem State.dozeMay_at_ (s : State) (time : Nat) : (s.at_ time).dozeMay = s.dozeMay := rfl
@[simp] theorem State.dozeTarget_at_ (s : State) (time : Nat) : (s.at_ time).dozeTarget = s.dozeTarget := rfl
@[simp] theorem State.rail_at_ (s : State) (time : Nat) (i : Nat) : (s.at_ time).rail i = s.rail i := rfl
@[simp] theorem State.pwF_at_ (s : State) (time : Nat) (off hi lo : Nat) : (s.at_ time).pwF off hi lo = s.pwF off hi lo := rfl
@[simp] theorem State.holdEn_at_ (s : State) (time : Nat) : (s.at_ time).holdEn = s.holdEn := rfl
@[simp] theorem State.holdMv_at_ (s : State) (time : Nat) : (s.at_ time).holdMv = s.holdMv := rfl
@[simp] theorem State.inputOk_at_ (s : State) (time : Nat) : (s.at_ time).inputOk = s.inputOk := rfl
@[simp] theorem State.holdMs_at_ (s : State) (time : Nat) : (s.at_ time).holdMs = s.holdMs := rfl
@[simp] theorem State.railSkipped_at_ (s : State) (time : Nat) (i : Nat) : (s.at_ time).railSkipped i = s.railSkipped i := rfl
@[simp] theorem State.nextRail_at_ (s : State) (time : Nat) : (s.at_ time).nextRail = s.nextRail := rfl
@[simp] theorem State.nextDown_at_ (s : State) (time : Nat) (target : Nat) : (s.at_ time).nextDown target = s.nextDown target := rfl
@[simp] theorem State.startFields_at_ (s : State) (time : Nat) : (s.at_ time).startFields = s.startFields := rfl
@[simp] theorem State.bistFailed_at_ (s : State) (time : Nat) : (s.at_ time).bistFailed = s.bistFailed := rfl
@[simp] theorem State.wakeEnabled_at_ (s : State) (time : Nat) (code : Nat) : (s.at_ time).wakeEnabled code = s.wakeEnabled code := rfl
@[simp] theorem State.mayWake_at_ (s : State) (time : Nat) (code : Nat) : (s.at_ time).mayWake code = s.mayWake code := rfl
@[simp] theorem State.rateOf_at_ (s : State) (time : Nat) (k : Nat) : (s.at_ time).rateOf k = s.rateOf k := rfl
@[simp] theorem State.filtOf_at_ (s : State) (time : Nat) (k : Nat) : (s.at_ time).filtOf k = s.filtOf k := rfl
@[simp] theorem State.periodOf_at_ (s : State) (time : Nat) (k : Nat) : (s.at_ time).periodOf k = s.periodOf k := rfl
@[simp] theorem State.cellEn_at_ (s : State) (time : Nat) (k n : Nat) : (s.at_ time).cellEn k n = s.cellEn k n := rfl
@[simp] theorem State.cellsOn_at_ (s : State) (time : Nat) (k : Nat) : (s.at_ time).cellsOn k = s.cellsOn k := rfl
@[simp] theorem State.gatePeriodNs_at_ (s : State) (time : Nat) (k : Nat) : (s.at_ time).gatePeriodNs k = s.gatePeriodNs k := rfl
@[simp] theorem State.boundaryAfter_at_ (s : State) (time : Nat) (k t : Nat) : (s.at_ time).boundaryAfter k t = s.boundaryAfter k t := rfl
@[simp] theorem State.chanEn_at_ (s : State) (time : Nat) (k c : Nat) : (s.at_ time).chanEn k c = s.chanEn k c := rfl
@[simp] theorem State.extCurrent_at_ (s : State) (time : Nat) (k n : Nat) (d : Die) : (s.at_ time).extCurrent k n d = s.extCurrent k n d := rfl
@[simp] theorem State.runMay_at_ (s : State) (time : Nat) (k : Nat) (d : Die) : (s.at_ time).runMay k d = s.runMay k d := rfl
@[simp] theorem State.owLen_at_ (s : State) (time : Nat) (k w : Nat) : (s.at_ time).owLen k w = s.owLen k w := rfl
@[simp] theorem State.checkHoldsOff_at_ (s : State) (time : Nat) (k : Nat) (d : Die) (n : Nat) : (s.at_ time).checkHoldsOff k d n = s.checkHoldsOff k d n := rfl
@[simp] theorem State.checking_at_ (s : State) (time : Nat) (k : Nat) : (s.at_ time).checking k = s.checking k := rfl
@[simp] theorem State.balCap_at_ (s : State) (time : Nat) (k : Nat) (d : Die) : (s.at_ time).balCap k d = s.balCap k d := rfl
@[simp] theorem State.tickNs_at_ (s : State) (time : Nat) (k : Nat) : (s.at_ time).tickNs k = s.tickNs k := rfl
@[simp] theorem State.levels_at_ (s : State) (time : Nat) (k : Nat) (uv : Bool) : (s.at_ time).levels k uv = s.levels k uv := rfl
@[simp] theorem State.checkCurrent_at_ (s : State) (time : Nat) (k c : Nat) (d : Die) : (s.at_ time).checkCurrent k c d = s.checkCurrent k c d := rfl
@[simp] theorem State.owResiduals_at_ (s : State) (time : Nat) (k w : Nat) (d : Die) (pre post : List Rat) : (s.at_ time).owResiduals k w d pre post = s.owResiduals k w d pre post := rfl
@[simp] theorem State.owJudge_at_ (s : State) (time : Nat) (k w : Nat) (d : Die) (pre post : List Rat) : (s.at_ time).owJudge k w d pre post = s.owJudge k w d pre post := rfl
@[simp] theorem State.protCalm_at_ (s : State) (time : Nat) : (s.at_ time).protCalm = s.protCalm := rfl
@[simp] theorem State.notReady_at_ (s : State) (time : Nat) : (s.at_ time).notReady = s.notReady := rfl
@[simp] theorem State.heartMay_at_ (s : State) (time : Nat) : (s.at_ time).heartMay = s.heartMay := rfl
@[simp] theorem State.sF_at_ (s : State) (time : Nat) (off hi lo : Nat) : (s.at_ time).sF off hi lo = s.sF off hi lo := rfl
@[simp] theorem State.sstate_at_ (s : State) (time : Nat) : (s.at_ time).sstate = s.sstate := rfl
@[simp] theorem State.connId_at_ (s : State) (time : Nat) (pos : Nat) : (s.at_ time).connId pos = s.connId pos := rfl
@[simp] theorem State.inEnabled_at_ (s : State) (time : Nat) (i : Nat) : (s.at_ time).inEnabled i = s.inEnabled i := rfl
@[simp] theorem State.inAnti_at_ (s : State) (time : Nat) (i : Nat) : (s.at_ time).inAnti i = s.inAnti i := rfl
@[simp] theorem State.inSt_at_ (s : State) (time : Nat) (i : Nat) : (s.at_ time).inSt i = s.inSt i := rfl
@[simp] theorem State.inDemand_at_ (s : State) (time : Nat) : (s.at_ time).inDemand = s.inDemand := rfl
@[simp] theorem State.outEnabled_at_ (s : State) (time : Nat) (k : Nat) : (s.at_ time).outEnabled k = s.outEnabled k := rfl
@[simp] theorem State.outOn_at_ (s : State) (time : Nat) (k : Nat) : (s.at_ time).outOn k = s.outOn k := rfl
@[simp] theorem State.anyOut_at_ (s : State) (time : Nat) : (s.at_ time).anyOut = s.anyOut := rfl
@[simp] theorem State.fbClosed_at_ (s : State) (time : Nat) (k : Nat) : (s.at_ time).fbClosed k = s.fbClosed k := rfl
@[simp] theorem State.positions_at_ (s : State) (time : Nat) : (s.at_ time).positions = s.positions := rfl
@[simp] theorem State.watchOf_at_ (s : State) (time : Nat) (p : Nat) : (s.at_ time).watchOf p = s.watchOf p := rfl
@[simp] theorem State.supervised_at_ (s : State) (time : Nat) : (s.at_ time).supervised = s.supervised := rfl
@[simp] theorem State.pendSafety_at_ (s : State) (time : Nat) : (s.at_ time).pendSafety = s.pendSafety := rfl
@[simp] theorem State.outAllowed_at_ (s : State) (time : Nat) (k : Nat) : (s.at_ time).outAllowed k = s.outAllowed k := rfl
@[simp] theorem State.releasable_at_ (s : State) (time : Nat) : (s.at_ time).releasable = s.releasable := rfl
@[simp] theorem State.safeRuns_at_ (s : State) (time : Nat) : (s.at_ time).safeRuns = s.safeRuns := rfl
@[simp] theorem State.tpPeriod_at_ (s : State) (time : Nat) : (s.at_ time).tpPeriod = s.tpPeriod := rfl
@[simp] theorem State.tpEn_at_ (s : State) (time : Nat) : (s.at_ time).tpEn = s.tpEn := rfl
@[simp] theorem State.testMade_at_ (s : State) (time : Nat) (i : Nat) : (s.at_ time).testMade i = s.testMade i := rfl
@[simp] theorem State.discLimit_at_ (s : State) (time : Nat) (i : Nat) : (s.at_ time).discLimit i = s.discLimit i := rfl
@[simp] theorem State.econDuty_at_ (s : State) (time : Nat) (v : Rat) : (s.at_ time).econDuty v = s.econDuty v := rfl
@[simp] theorem State.statusAux_at_ (s : State) (time : Nat) : (s.at_ time).statusAux = s.statusAux := rfl
@[simp] theorem State.hubBlockMay_at_ (s : State) (time : Nat) (b : Nat) : (s.at_ time).hubBlockMay b = s.hubBlockMay b := rfl
@[simp] theorem State.chkPowered_at_ (s : State) (time : Nat) (i : Nat) : (s.at_ time).chkPowered i = s.chkPowered i := rfl
@[simp] theorem State.sliceFree_at_ (s : State) (time : Nat) (k : Nat) : (s.at_ time).sliceFree k = s.sliceFree k := rfl
@[simp] theorem State.testWaits_at_ (s : State) (time : Nat) (c : Cmd) (bad : Bool) : (s.at_ time).testWaits c bad = s.testWaits c bad := rfl
@[simp] theorem State.chkBusy_at_ (s : State) (time : Nat) (c : Cmd) : (s.at_ time).chkBusy c = s.chkBusy c := rfl
@[simp] theorem State.seqCtrl_at_ (s : State) (time : Nat) (k i : Nat) : (s.at_ time).seqCtrl k i = s.seqCtrl k i := rfl
@[simp] theorem State.seqMode_at_ (s : State) (time : Nat) (k i : Nat) : (s.at_ time).seqMode k i = s.seqMode k i := rfl
@[simp] theorem State.seqRepeat_at_ (s : State) (time : Nat) (k i : Nat) : (s.at_ time).seqRepeat k i = s.seqRepeat k i := rfl
@[simp] theorem State.seqChannel_at_ (s : State) (time : Nat) (k i : Nat) : (s.at_ time).seqChannel k i = s.seqChannel k i := rfl
@[simp] theorem State.seqFrom_at_ (s : State) (time : Nat) (k i : Nat) : (s.at_ time).seqFrom k i = s.seqFrom k i := rfl
@[simp] theorem State.seqMay_at_ (s : State) (time : Nat) (k : Nat) (d : Die) : (s.at_ time).seqMay k d = s.seqMay k d := rfl
@[simp] theorem State.auxRecord_at_ (s : State) (time : Nat) (k : Nat) (d : Die) (x : SeqRun) (words : List Nat) (cut preempt : Bool) : (s.at_ time).auxRecord k d x words cut preempt = s.auxRecord k d x words cut preempt := rfl
@[simp] theorem State.swpCtrl_at_ (s : State) (time : Nat) (p : Nat) : (s.at_ time).swpCtrl p = s.swpCtrl p := rfl
@[simp] theorem State.swpCycle_at_ (s : State) (time : Nat) (p : Nat) : (s.at_ time).swpCycle p = s.swpCycle p := rfl
@[simp] theorem State.pd9_at_ (s : State) (time : Nat) : (s.at_ time).pd9 = s.pd9 := rfl
@[simp] theorem State.pullUp_at_ (s : State) (time : Nat) (p : Nat) : (s.at_ time).pullUp p = s.pullUp p := rfl
@[simp] theorem State.apexRuns_at_ (s : State) (time : Nat) : (s.at_ time).apexRuns = s.apexRuns := rfl
@[simp] theorem State.knownCells_at_ (s : State) (time : Nat) : (s.at_ time).knownCells = s.knownCells := rfl
@[simp] theorem State.trustHead_at_ (s : State) (time : Nat) (host nonce : List Byte) : (s.at_ time).trustHead host nonce = s.trustHead host nonce := rfl
@[simp] theorem State.activateRefusal_at_ (s : State) (time : Nat) (c : Cmd) (starts : Bool) : (s.at_ time).activateRefusal c starts = s.activateRefusal c starts := rfl
@[simp] theorem State.certOk_at_ (s : State) (time : Nat) (m : LifeMsg) : (s.at_ time).certOk m = s.certOk m := rfl
@[simp] theorem State.fullOk_at_ (s : State) (time : Nat) (sig : List Byte) (keepAwake : Bool) : (s.at_ time).fullOk sig keepAwake = s.fullOk sig keepAwake := rfl
@[simp] theorem State.meterBody_at_ (s : State) (time : Nat) : (s.at_ time).meterBody = s.meterBody := rfl
@[simp] theorem State.spanImage_at_ (s : State) (time : Nat) (slotB : Bool) : (s.at_ time).spanImage slotB = s.spanImage slotB := rfl
@[simp] theorem State.apexImage_at_ (s : State) (time : Nat) (slotB : Bool) : (s.at_ time).apexImage slotB = s.apexImage slotB := rfl
@[simp] theorem State.apexVer_at_ (s : State) (time : Nat) : (s.at_ time).apexVer = s.apexVer := rfl
@[simp] theorem State.spanVer_at_ (s : State) (time : Nat) : (s.at_ time).spanVer = s.spanVer := rfl
@[simp] theorem State.imageOk_at_ (s : State) (time : Nat) (kind : Nat) (b : List Byte) (total : Nat) : (s.at_ time).imageOk kind b total = s.imageOk kind b total := rfl
@[simp] theorem State.runClock_at_ (s : State) (time : Nat) : (s.at_ time).runClock = s.runClock := rfl
@[simp] theorem State.debugSigner_at_ (s : State) (time : Nat) : (s.at_ time).debugSigner = s.debugSigner := rfl

@[simp] theorem State.die?_noteActivity (s : State) (k : Nat) : s.noteActivity.die? k = s.die? k := rfl
@[simp] theorem State.fitted_noteActivity (s : State) (k : Nat) : s.noteActivity.fitted k = s.fitted k := rfl
@[simp] theorem State.islands_noteActivity (s : State) : s.noteActivity.islands = s.islands := rfl
@[simp] theorem State.pathIntact_noteActivity (s : State) (k : Nat) (side : Side) : s.noteActivity.pathIntact k side = s.pathIntact k side := rfl
@[simp] theorem State.ringHops_noteActivity (s : State) (k : Nat) (side : Side) : s.noteActivity.ringHops k side = s.ringHops k side := rfl
@[simp] theorem State.dieVia_noteActivity (s : State) (k : Nat) : s.noteActivity.dieVia k = s.dieVia k := rfl
@[simp] theorem State.reach_noteActivity (s : State) (k : Nat) : s.noteActivity.reach k = s.reach k := rfl
@[simp] theorem State.linkSharers_noteActivity (s : State) (side : Side) : s.noteActivity.linkSharers side = s.linkSharers side := rfl
@[simp] theorem State.hubTakes_noteActivity (s : State) (k : Nat) : s.noteActivity.hubTakes k = s.hubTakes k := rfl
@[simp] theorem State.regF_noteActivity (s : State) (block target off : Nat) : s.noteActivity.regF block target off = s.regF block target off := rfl
@[simp] theorem State.fF_noteActivity (s : State) (block target off hi lo : Nat) : s.noteActivity.fF block target off hi lo = s.fF block target off hi lo := rfl
@[simp] theorem State.fB_noteActivity (s : State) (block target off i : Nat) : s.noteActivity.fB block target off i = s.fB block target off i := rfl
@[simp] theorem State.blockDiffers_noteActivity (s : State) (block target : Nat) : s.noteActivity.blockDiffers block target = s.blockDiffers block target := rfl
@[simp] theorem State.rangeDiffers_noteActivity (s : State) (block target lo hi : Nat) : s.noteActivity.rangeDiffers block target lo hi = s.rangeDiffers block target lo hi := rfl
@[simp] theorem State.isGateway_noteActivity (s : State) : s.noteActivity.isGateway = s.isGateway := rfl
@[simp] theorem State.isModule_noteActivity (s : State) : s.noteActivity.isModule = s.isModule := rfl
@[simp] theorem State.conflict_noteActivity (s : State) : s.noteActivity.conflict = s.conflict := rfl
@[simp] theorem State.hosted_noteActivity (s : State) : s.noteActivity.hosted = s.hosted := rfl
@[simp] theorem State.pos_noteActivity (s : State) : s.noteActivity.pos = s.pos := rfl
@[simp] theorem State.chainParts_noteActivity (s : State) : s.noteActivity.chainParts = s.chainParts := rfl
@[simp] theorem State.identOf_noteActivity (s : State) (p : Nat) : s.noteActivity.identOf p = s.identOf p := rfl
@[simp] theorem State.posOf_noteActivity (s : State) (ident : Nat) : s.noteActivity.posOf ident = s.posOf ident := rfl
@[simp] theorem State.tq_noteActivity (s : State) : s.noteActivity.tq = s.tq := rfl
@[simp] theorem State.inRun_noteActivity (s : State) : s.noteActivity.inRun = s.inRun := rfl
@[simp] theorem State.inRunDoze_noteActivity (s : State) : s.noteActivity.inRunDoze = s.inRunDoze := rfl
@[simp] theorem State.warned_noteActivity (s : State) : s.noteActivity.warned = s.warned := rfl
@[simp] theorem State.port_noteActivity (s : State) (side : Side) : s.noteActivity.port side = s.port side := rfl
@[simp] theorem State.linkItem_noteActivity (s : State) (i : Nat) : s.noteActivity.linkItem i = s.linkItem i := rfl
@[simp] theorem State.linkHeld_noteActivity (s : State) (i : Nat) : s.noteActivity.linkHeld i = s.linkHeld i := rfl
@[simp] theorem State.linkFailed_noteActivity (s : State) (i : Nat) : s.noteActivity.linkFailed i = s.linkFailed i := rfl
@[simp] theorem State.balMode_noteActivity (s : State) (k : Nat) : s.noteActivity.balMode k = s.balMode k := rfl
@[simp] theorem State.balStepNs_noteActivity (s : State) (k : Nat) : s.noteActivity.balStepNs k = s.balStepNs k := rfl
@[simp] theorem State.balXmin_noteActivity (s : State) (k : Nat) : s.noteActivity.balXmin k = s.balXmin k := rfl
@[simp] theorem State.balDv_noteActivity (s : State) (k : Nat) : s.noteActivity.balDv k = s.balDv k := rfl
@[simp] theorem State.refCells_noteActivity (s : State) : s.noteActivity.refCells = s.refCells := rfl
@[simp] theorem State.balRefs_noteActivity (s : State) : s.noteActivity.balRefs = s.balRefs := rfl
@[simp] theorem State.eligible_noteActivity (s : State) (k n : Nat) (d : Die) : s.noteActivity.eligible k n d = s.eligible k n d := rfl
@[simp] theorem State.balNeed_noteActivity (s : State) (k n : Nat) (d : Die) (r : BalRefs) : s.noteActivity.balNeed k n d r = s.balNeed k n d r := rfl
@[simp] theorem State.balSelect_noteActivity (s : State) (k : Nat) (d : Die) (r : BalRefs) : s.noteActivity.balSelect k d r = s.balSelect k d r := rfl
@[simp] theorem State.balRecord_noteActivity (s : State) (k t : Nat) (d : Die) : s.noteActivity.balRecord k t d = s.balRecord k t d := rfl
@[simp] theorem State.allows_noteActivity (s : State) (code : Nat) : s.noteActivity.allows code = s.allows code := rfl
@[simp] theorem State.targetOk_noteActivity (s : State) (o : OpInfo) (target : Nat) : s.noteActivity.targetOk o target = s.targetOk o target := rfl
@[simp] theorem State.dieGone_noteActivity (s : State) (k : Nat) : s.noteActivity.dieGone k = s.dieGone k := rfl
@[simp] theorem State.refusal_noteActivity (s : State) (code : Nat) (c : Cmd) : s.noteActivity.refusal code c = s.refusal code c := rfl
@[simp] theorem State.executes_noteActivity (s : State) : s.noteActivity.executes = s.executes := rfl
@[simp] theorem State.isMine_noteActivity (s : State) (code : Nat) (c : Cmd) : s.noteActivity.isMine code c = s.isMine code c := rfl
@[simp] theorem State.present_noteActivity (s : State) (c : Cmd) : s.noteActivity.present c = s.present c := rfl
@[simp] theorem State.inData_noteActivity (s : State) (c : Cmd) (came : List Byte) : s.noteActivity.inData c came = s.inData c came := rfl
@[simp] theorem State.identity_noteActivity (s : State) : s.noteActivity.identity = s.identity := rfl
@[simp] theorem State.newCapture_noteActivity (s : State) (k a : Nat) (c : Cmd) (d : Die) : s.noteActivity.newCapture k a c d = s.newCapture k a c d := rfl
@[simp] theorem State.captureBlocks_noteActivity (s : State) (k id : Nat) : s.noteActivity.captureBlocks k id = s.captureBlocks k id := rfl
@[simp] theorem State.releaseToken_noteActivity (s : State) : s.noteActivity.releaseToken = s.releaseToken := rfl
@[simp] theorem State.commitRefusal_noteActivity (s : State) (tc : Nat) : s.noteActivity.commitRefusal tc = s.commitRefusal tc := rfl
@[simp] theorem State.stateEn_noteActivity (s : State) (k : Nat) : s.noteActivity.stateEn k = s.stateEn k := rfl
@[simp] theorem State.profSlot_noteActivity (s : State) (k : Nat) : s.noteActivity.profSlot k = s.profSlot k := rfl
@[simp] theorem State.socSrc_noteActivity (s : State) (k : Nat) : s.noteActivity.socSrc k = s.socSrc k := rfl
@[simp] theorem State.prof_noteActivity (s : State) (k off n : Nat) : s.noteActivity.prof k off n = s.prof k off n := rfl
@[simp] theorem State.qNom_noteActivity (s : State) (k : Nat) : s.noteActivity.qNom k = s.qNom k := rfl
@[simp] theorem State.qInit_noteActivity (s : State) (k : Nat) : s.noteActivity.qInit k = s.qInit k := rfl
@[simp] theorem State.qRated_noteActivity (s : State) (k : Nat) : s.noteActivity.qRated k = s.qRated k := rfl
@[simp] theorem State.hysUsed_noteActivity (s : State) (k : Nat) : s.noteActivity.hysUsed k = s.hysUsed k := rfl
@[simp] theorem State.socAx_noteActivity (s : State) (k : Nat) : s.noteActivity.socAx k = s.socAx k := rfl
@[simp] theorem State.tAx_noteActivity (s : State) (k : Nat) : s.noteActivity.tAx k = s.tAx k := rfl
@[simp] theorem State.rateAx_noteActivity (s : State) (k : Nat) : s.noteActivity.rateAx k = s.rateAx k := rfl
@[simp] theorem State.tClamp_noteActivity (s : State) (k : Nat) (temp : Rat) : s.noteActivity.tClamp k temp = s.tClamp k temp := rfl
@[simp] theorem State.ocvAt_noteActivity (s : State) (k : Nat) (temp h : Rat) (i : Nat) : s.noteActivity.ocvAt k temp h i = s.ocvAt k temp h i := rfl
@[simp] theorem State.ocvInverse_noteActivity (s : State) (k : Nat) (v temp h : Rat) : s.noteActivity.ocvInverse k v temp h = s.ocvInverse k v temp h := rfl
@[simp] theorem State.rDc_noteActivity (s : State) (k : Nat) (temp rate soc : Rat) : s.noteActivity.rDc k temp rate soc = s.rDc k temp rate soc := rfl
@[simp] theorem State.hysK_noteActivity (s : State) (k : Nat) (temp : Rat) : s.noteActivity.hysK k temp = s.hysK k temp := rfl
@[simp] theorem State.meterCharge_noteActivity (s : State) : s.noteActivity.meterCharge = s.meterCharge := rfl
@[simp] theorem State.keepsState_noteActivity (s : State) (k : Nat) : s.noteActivity.keepsState k = s.keepsState k := rfl
@[simp] theorem State.learnedRecord_noteActivity (s : State) (k : Nat) (identity : Option Nat) (pattern : Nat) : s.noteActivity.learnedRecord k identity pattern = s.learnedRecord k identity pattern := rfl
@[simp] theorem State.qRef_noteActivity (s : State) : s.noteActivity.qRef = s.qRef := rfl
@[simp] theorem State.meterSrc_noteActivity (s : State) : s.noteActivity.meterSrc = s.meterSrc := rfl
@[simp] theorem State.countCell_noteActivity (s : State) (k : Nat) (dq qBal qHub extra : Rat) (c : CellSt) : s.noteActivity.countCell k dq qBal qHub extra c = s.countCell k dq qBal qHub extra c := rfl
@[simp] theorem State.learnRho_noteActivity (s : State) (k : Nat) (d : Die) (t0 : Nat) (i0 i1 : Rat) : s.noteActivity.learnRho k d t0 i0 i1 = s.learnRho k d t0 i0 i1 := rfl
@[simp] theorem State.restStep_noteActivity (s : State) (k : Nat) (e : EstState) (i : Rat) (tEnd : Nat) : s.noteActivity.restStep k e i tEnd = s.restStep k e i tEnd := rfl
@[simp] theorem State.chargeBlock_noteActivity (s : State) (k sh : Nat) (d : Die) (x : ShuntAcc) : s.noteActivity.chargeBlock k sh d x = s.chargeBlock k sh d x := rfl
@[simp] theorem State.cellTemp_noteActivity (s : State) (k n : Nat) (d : Die) : s.noteActivity.cellTemp k n d = s.cellTemp k n d := rfl
@[simp] theorem State.ocvErr_noteActivity (s : State) (k n : Nat) (d : Die) : s.noteActivity.ocvErr k n d = s.ocvErr k n d := rfl
@[simp] theorem State.loaded_noteActivity (s : State) (k : Nat) (c : CellSt) (v : Rat) : s.noteActivity.loaded k c v = s.loaded k c v := rfl
@[simp] theorem State.ends_noteActivity (s : State) (k : Nat) (c : CellSt) : s.noteActivity.ends k c = s.ends k c := rfl
@[simp] theorem State.cellOut_noteActivity (s : State) (k : Nat) (c : CellSt) : s.noteActivity.cellOut k c = s.cellOut k c := rfl
@[simp] theorem State.cellInvalid_noteActivity (s : State) (k n : Nat) (d : Die) (c : CellSt) : s.noteActivity.cellInvalid k n d c = s.cellInvalid k n d c := rfl
@[simp] theorem State.secondInputs_noteActivity (s : State) (k : Nat) (d : Die) (sec : Nat) : s.noteActivity.secondInputs k d sec = s.secondInputs k d sec := rfl
@[simp] theorem State.restDue_noteActivity (s : State) (k : Nat) (e : EstState) (cells : List CellSt) (tEnd : Nat) : s.noteActivity.restDue k e cells tEnd = s.restDue k e cells tEnd := rfl
@[simp] theorem State.judgePair_noteActivity (s : State) (k : Nat) (c : CellSt) (p1 p2 : LearnPt) : s.noteActivity.judgePair k c p1 p2 = s.judgePair k c p1 p2 := rfl
@[simp] theorem State.anchor_noteActivity (s : State) (k n : Nat) (d : Die) (b tEnd : Nat) (c : CellSt) : s.noteActivity.anchor k n d b tEnd c = s.anchor k n d b tEnd c := rfl
@[simp] theorem State.learnRecord_noteActivity (s : State) (k n : Nat) (before after : CellSt) : s.noteActivity.learnRecord k n before after = s.learnRecord k n before after := rfl
@[simp] theorem State.partVolts_noteActivity (s : State) : s.noteActivity.partVolts = s.partVolts := rfl
@[simp] theorem State.fastMode_noteActivity (s : State) (k : Nat) : s.noteActivity.fastMode k = s.fastMode k := rfl
@[simp] theorem State.fastRuns_noteActivity (s : State) (k : Nat) (d : Die) : s.noteActivity.fastRuns k d = s.fastRuns k d := rfl
@[simp] theorem State.streamStart_noteActivity (s : State) (k : Nat) : s.noteActivity.streamStart k = s.streamStart k := rfl
@[simp] theorem State.cutOff_noteActivity (s : State) (k : Nat) : s.noteActivity.cutOff k = s.cutOff k := rfl
@[simp] theorem State.fastWanted_noteActivity (s : State) (k : Nat) (d : Die) : s.noteActivity.fastWanted k d = s.fastWanted k d := rfl
@[simp] theorem State.frameAt_noteActivity (s : State) (k : Nat) (d : Die) (v : List Rat) : s.noteActivity.frameAt k d v = s.frameAt k d v := rfl
@[simp] theorem State.fetchable_noteActivity (s : State) (n : Nat) : s.noteActivity.fetchable n = s.fetchable n := rfl
@[simp] theorem State.arbiter_noteActivity (s : State) : s.noteActivity.arbiter = s.arbiter := rfl
@[simp] theorem State.dupCid_noteActivity (s : State) (c : Cmd) : s.noteActivity.dupCid c = s.dupCid c := rfl
@[simp] theorem State.headRefusal_noteActivity (s : State) (c : Cmd) (reserved : Nat) : s.noteActivity.headRefusal c reserved = s.headRefusal c reserved := rfl
@[simp] theorem State.checkDescriptor_noteActivity (s : State) (c : Cmd) (reserved : Nat) (list : List Byte) : s.noteActivity.checkDescriptor c reserved list = s.checkDescriptor c reserved list := rfl
@[simp] theorem State.listAsked_noteActivity (s : State) (c : Cmd) (reserved : Nat) : s.noteActivity.listAsked c reserved = s.listAsked c reserved := rfl
@[simp] theorem State.hifUp_noteActivity (s : State) : s.noteActivity.hifUp = s.hifUp := rfl
@[simp] theorem State.hifServes_noteActivity (s : State) : s.noteActivity.hifServes = s.hifServes := rfl
@[simp] theorem State.toCome_noteActivity (s : State) (x : InFlight) : s.noteActivity.toCome x = s.toCome x := rfl
@[simp] theorem State.reachable_noteActivity (s : State) (dest : Nat) : s.noteActivity.reachable dest = s.reachable dest := rfl
@[simp] theorem State.mayStart_noteActivity (s : State) (x : InFlight) : s.noteActivity.mayStart x = s.mayStart x := rfl
@[simp] theorem State.subRefusal_noteActivity (s : State) (c : Cmd) : s.noteActivity.subRefusal c = s.subRefusal c := rfl
@[simp] theorem State.subOf_noteActivity (s : State) (c : Cmd) : s.noteActivity.subOf c = s.subOf c := rfl
@[simp] theorem State.streamRecs_noteActivity (s : State) (recType src tFrom : Nat) : s.noteActivity.streamRecs recType src tFrom = s.streamRecs recType src tFrom := rfl
@[simp] theorem State.oldestDay_noteActivity (s : State) : s.noteActivity.oldestDay = s.oldestDay := rfl
@[simp] theorem State.bar0Word_noteActivity (s : State) (off : Nat) : s.noteActivity.bar0Word off = s.bar0Word off := rfl
@[simp] theorem State.bar0Read_noteActivity (s : State) (off size : Nat) : s.noteActivity.bar0Read off size = s.bar0Read off size := rfl
@[simp] theorem State.pbaWord_noteActivity (s : State) (off : Nat) : s.noteActivity.pbaWord off = s.pbaWord off := rfl
@[simp] theorem State.bar2Word_noteActivity (s : State) (off : Nat) : s.noteActivity.bar2Word off = s.bar2Word off := rfl
@[simp] theorem State.impEn_noteActivity (s : State) (k : Nat) : s.noteActivity.impEn k = s.impEn k := rfl
@[simp] theorem State.bandEn_noteActivity (s : State) (k b : Nat) : s.noteActivity.bandEn k b = s.bandEn k b := rfl
@[simp] theorem State.avgLen_noteActivity (s : State) (k b : Nat) : s.noteActivity.avgLen k b = s.avgLen k b := rfl
@[simp] theorem State.impSrc_noteActivity (s : State) (k : Nat) : s.noteActivity.impSrc k = s.impSrc k := rfl
@[simp] theorem State.isCurDie_noteActivity (s : State) (k : Nat) : s.noteActivity.isCurDie k = s.isCurDie k := rfl
@[simp] theorem State.impRuns_noteActivity (s : State) (k : Nat) (d : Die) : s.noteActivity.impRuns k d = s.impRuns k d := rfl
@[simp] theorem State.currentBlock_noteActivity (s : State) (k : Nat) (d : Die) (t0 : Nat) : s.noteActivity.currentBlock k d t0 = s.currentBlock k d t0 := rfl
@[simp] theorem State.curSettled_noteActivity (s : State) (k end_ : Nat) (i : ImpState) : s.noteActivity.curSettled k end_ i = s.curSettled k end_ i := rfl
@[simp] theorem State.cellSeg_noteActivity (s : State) (k band q0 n : Nat) (d : Die) (inj : Bool) (cur : List (Int × Bool × Nat)) : s.noteActivity.cellSeg k band q0 n d inj cur = s.cellSeg k band q0 n d inj cur := rfl
@[simp] theorem State.tphPairs_noteActivity (s : State) (k : Nat) : s.noteActivity.tphPairs k = s.tphPairs k := rfl
@[simp] theorem State.intTemp_noteActivity (s : State) (k n band : Nat) (pts : List PointOut) : s.noteActivity.intTemp k n band pts = s.intTemp k n band pts := rfl
@[simp] theorem State.injInForce_noteActivity (s : State) (k : Nat) (d : Die) : s.noteActivity.injInForce k d = s.injInForce k d := rfl
@[simp] theorem State.injRuns_noteActivity (s : State) (k : Nat) (d : Die) : s.noteActivity.injRuns k d = s.injRuns k d := rfl
@[simp] theorem State.discover_noteActivity (s : State) : s.noteActivity.discover = s.discover := rfl
@[simp] theorem State.linkRuns_noteActivity (s : State) : s.noteActivity.linkRuns = s.linkRuns := rfl
@[simp] theorem State.lkF_noteActivity (s : State) (off hi lo : Nat) : s.noteActivity.lkF off hi lo = s.lkF off hi lo := rfl
@[simp] theorem State.chainOf_noteActivity (s : State) : s.noteActivity.chainOf = s.chainOf := rfl
@[simp] theorem State.pairAllowed_noteActivity (s : State) (peerLife : Nat) (peerRoot : List Byte) : s.noteActivity.pairAllowed peerLife peerRoot = s.pairAllowed peerLife peerRoot := rfl
@[simp] theorem State.chainDelays_noteActivity (s : State) : s.noteActivity.chainDelays = s.chainDelays := rfl
@[simp] theorem State.offerBytes_noteActivity (s : State) (pub : List Byte) : s.noteActivity.offerBytes pub = s.offerBytes pub := rfl
@[simp] theorem State.keyingText_noteActivity (s : State) (side : Side) (k : Keying) : s.noteActivity.keyingText side k = s.keyingText side k := rfl
@[simp] theorem State.ringN_noteActivity (s : State) : s.noteActivity.ringN = s.ringN := rfl
@[simp] theorem State.place?_noteActivity (s : State) : s.noteActivity.place? = s.place? := rfl
@[simp] theorem State.hopOf_noteActivity (s : State) (side : Side) : s.noteActivity.hopOf side = s.hopOf side := rfl
@[simp] theorem State.hopUsable_noteActivity (s : State) (side : Side) : s.noteActivity.hopUsable side = s.hopUsable side := rfl
@[simp] theorem State.hasNeighbour_noteActivity (s : State) (side : Side) : s.noteActivity.hasNeighbour side = s.hasNeighbour side := rfl
@[simp] theorem State.route_noteActivity (s : State) (dest : Nat) : s.noteActivity.route dest = s.route dest := rfl
@[simp] theorem State.hopsTo_noteActivity (s : State) (p : Nat) : s.noteActivity.hopsTo p = s.hopsTo p := rfl
@[simp] theorem State.mayForward_noteActivity (s : State) (side : Side) (f : Frame) : s.noteActivity.mayForward side f = s.mayForward side f := rfl
@[simp] theorem State.flowOf_noteActivity (s : State) (f : Frame) : s.noteActivity.flowOf f = s.flowOf f := rfl
@[simp] theorem State.hopsKeyed_noteActivity (s : State) : s.noteActivity.hopsKeyed = s.hopsKeyed := rfl
@[simp] theorem State.sampling_noteActivity (s : State) : s.noteActivity.sampling = s.sampling := rfl
@[simp] theorem State.partWord_noteActivity (s : State) : s.noteActivity.partWord = s.partWord := rfl
@[simp] theorem State.lifeWord_noteActivity (s : State) : s.noteActivity.lifeWord = s.lifeWord := rfl
@[simp] theorem State.livePrec_noteActivity (s : State) (k : Nat) (d : Die) (x : SelfTest) (off : Nat) : s.noteActivity.livePrec k d x off = s.livePrec k d x off := rfl
@[simp] theorem State.liveHub_noteActivity (s : State) (off : Nat) : s.noteActivity.liveHub off = s.liveHub off := rfl
@[simp] theorem State.liveLink_noteActivity (s : State) (off : Nat) : s.noteActivity.liveLink off = s.liveLink off := rfl
@[simp] theorem State.t3Free_noteActivity (s : State) : s.noteActivity.t3Free = s.t3Free := rfl
@[simp] theorem State.liveLocus_noteActivity (s : State) (off : Nat) : s.noteActivity.liveLocus off = s.liveLocus off := rfl
@[simp] theorem State.liveSafe_noteActivity (s : State) (off : Nat) : s.noteActivity.liveSafe off = s.liveSafe off := rfl
@[simp] theorem State.domains_noteActivity (s : State) : s.noteActivity.domains = s.domains := rfl
@[simp] theorem State.livePower_noteActivity (s : State) (off : Nat) : s.noteActivity.livePower off = s.livePower off := rfl
@[simp] theorem State.holderCut_noteActivity (s : State) : s.noteActivity.holderCut = s.holderCut := rfl
@[simp] theorem State.nearer_noteActivity (s : State) (best : Option (Nat × Nat)) (p : Nat) : s.noteActivity.nearer best p = s.nearer best p := rfl
@[simp] theorem State.nearestHolder_noteActivity (s : State) (candidates : List Nat) : s.noteActivity.nearestHolder candidates = s.nearestHolder candidates := rfl
@[simp] theorem State.retention_noteActivity (s : State) (cls : Nat) : s.noteActivity.retention cls = s.retention cls := rfl
@[simp] theorem State.expired_noteActivity (s : State) (r : Rec) : s.noteActivity.expired r = s.expired r := rfl
@[simp] theorem State.rawLoad_noteActivity (s : State) (k : Nat) (d : Die) : s.noteActivity.rawLoad k d = s.rawLoad k d := rfl
@[simp] theorem State.taskBoundary_noteActivity (s : State) (task : Nat) : s.noteActivity.taskBoundary task = s.taskBoundary task := rfl
@[simp] theorem State.prioOf_noteActivity (s : State) (r : Rec) : s.noteActivity.prioOf r = s.prioOf r := rfl
@[simp] theorem State.evictRank_noteActivity (s : State) (r : Rec) : s.noteActivity.evictRank r = s.evictRank r := rfl
@[simp] theorem State.evictFirst_noteActivity (s : State) (cands : List Rec) : s.noteActivity.evictFirst cands = s.evictFirst cands := rfl
@[simp] theorem State.evictVictim_noteActivity (s : State) (tiers : List Tier) : s.noteActivity.evictVictim tiers = s.evictVictim tiers := rfl
@[simp] theorem State.spills_noteActivity (s : State) : s.noteActivity.spills = s.spills := rfl
@[simp] theorem State.t3Usable_noteActivity (s : State) : s.noteActivity.t3Usable = s.t3Usable := rfl
@[simp] theorem State.writable_noteActivity (s : State) : s.noteActivity.writable = s.writable := rfl
@[simp] theorem State.keepsD3_noteActivity (s : State) (r : Rec) : s.noteActivity.keepsD3 r = s.keepsD3 r := rfl
@[simp] theorem State.writerTakes_noteActivity (s : State) (r : Rec) : s.noteActivity.writerTakes r = s.writerTakes r := rfl
@[simp] theorem State.refreshFirst_noteActivity (s : State) : s.noteActivity.refreshFirst = s.refreshFirst := rfl
@[simp] theorem State.admitsUnit_noteActivity (s : State) : s.noteActivity.admitsUnit = s.admitsUnit := rfl
@[simp] theorem State.thermC_noteActivity (s : State) (k j : Nat) : s.noteActivity.thermC k j = s.thermC k j := rfl
@[simp] theorem State.freshTherm_noteActivity (s : State) (k j : Nat) : s.noteActivity.freshTherm k j = s.freshTherm k j := rfl
@[simp] theorem State.shuntRes_noteActivity (s : State) (k sh : Nat) : s.noteActivity.shuntRes k sh = s.shuntRes k sh := rfl
@[simp] theorem State.clock_noteActivity (s : State) (t : Nat) : s.noteActivity.clock t = s.clock t := rfl
@[simp] theorem State.supervisorsTested_noteActivity (s : State) : s.noteActivity.supervisorsTested = s.supervisorsTested := rfl
@[simp] theorem State.dieBusy_noteActivity (s : State) (k : Nat) : s.noteActivity.dieBusy k = s.dieBusy k := rfl
@[simp] theorem State.dozeMay_noteActivity (s : State) : s.noteActivity.dozeMay = s.dozeMay := rfl
@[simp] theorem State.dozeTarget_noteActivity (s : State) : s.noteActivity.dozeTarget = s.dozeTarget := rfl
@[simp] theorem State.sleepTimerDone_noteActivity (s : State) : s.noteActivity.sleepTimerDone = s.sleepTimerDone := rfl
@[simp] theorem State.rail_noteActivity (s : State) (i : Nat) : s.noteActivity.rail i = s.rail i := rfl
@[simp] theorem State.pwF_noteActivity (s : State) (off hi lo : Nat) : s.noteActivity.pwF off hi lo = s.pwF off hi lo := rfl
@[simp] theorem State.holdEn_noteActivity (s : State) : s.noteActivity.holdEn = s.holdEn := rfl
@[simp] theorem State.holdMv_noteActivity (s : State) : s.noteActivity.holdMv = s.holdMv := rfl
@[simp] theorem State.inputOk_noteActivity (s : State) : s.noteActivity.inputOk = s.inputOk := rfl
@[simp] theorem State.holdMs_noteActivity (s : State) : s.noteActivity.holdMs = s.holdMs := rfl
@[simp] theorem State.railSkipped_noteActivity (s : State) (i : Nat) : s.noteActivity.railSkipped i = s.railSkipped i := rfl
@[simp] theorem State.nextRail_noteActivity (s : State) : s.noteActivity.nextRail = s.nextRail := rfl
@[simp] theorem State.nextDown_noteActivity (s : State) (target : Nat) : s.noteActivity.nextDown target = s.nextDown target := rfl
@[simp] theorem State.startFields_noteActivity (s : State) : s.noteActivity.startFields = s.startFields := rfl
@[simp] theorem State.bistFailed_noteActivity (s : State) : s.noteActivity.bistFailed = s.bistFailed := rfl
@[simp] theorem State.wakeEnabled_noteActivity (s : State) (code : Nat) : s.noteActivity.wakeEnabled code = s.wakeEnabled code := rfl
@[simp] theorem State.mayWake_noteActivity (s : State) (code : Nat) : s.noteActivity.mayWake code = s.mayWake code := rfl
@[simp] theorem State.rateOf_noteActivity (s : State) (k : Nat) : s.noteActivity.rateOf k = s.rateOf k := rfl
@[simp] theorem State.filtOf_noteActivity (s : State) (k : Nat) : s.noteActivity.filtOf k = s.filtOf k := rfl
@[simp] theorem State.periodOf_noteActivity (s : State) (k : Nat) : s.noteActivity.periodOf k = s.periodOf k := rfl
@[simp] theorem State.cellEn_noteActivity (s : State) (k n : Nat) : s.noteActivity.cellEn k n = s.cellEn k n := rfl
@[simp] theorem State.cellsOn_noteActivity (s : State) (k : Nat) : s.noteActivity.cellsOn k = s.cellsOn k := rfl
@[simp] theorem State.gatePeriodNs_noteActivity (s : State) (k : Nat) : s.noteActivity.gatePeriodNs k = s.gatePeriodNs k := rfl
@[simp] theorem State.boundaryAfter_noteActivity (s : State) (k t : Nat) : s.noteActivity.boundaryAfter k t = s.boundaryAfter k t := rfl
@[simp] theorem State.chanEn_noteActivity (s : State) (k c : Nat) : s.noteActivity.chanEn k c = s.chanEn k c := rfl
@[simp] theorem State.feedS1_noteActivity (s : State) (k : Nat) (d : Die) (outs : List ChanOut) (v : List Rat) (ovl : List Overload) : s.noteActivity.feedS1 k d outs v ovl = s.feedS1 k d outs v ovl := rfl
@[simp] theorem State.feedS2_noteActivity (s : State) (k : Nat) (d : Die) (words : List Nat) : s.noteActivity.feedS2 k d words = s.feedS2 k d words := rfl
@[simp] theorem State.extCurrent_noteActivity (s : State) (k n : Nat) (d : Die) : s.noteActivity.extCurrent k n d = s.extCurrent k n d := rfl
@[simp] theorem State.balCurrents_noteActivity (s : State) (k : Nat) (d : Die) (bal : List Rat) : s.noteActivity.balCurrents k d bal = s.balCurrents k d bal := rfl
@[simp] theorem State.balFlow_noteActivity (s : State) (k : Nat) (d : Die) (bal : List Rat) : s.noteActivity.balFlow k d bal = s.balFlow k d bal := rfl
@[simp] theorem State.feedBalance_noteActivity (s : State) (k : Nat) (d : Die) (bal : List Rat) : s.noteActivity.feedBalance k d bal = s.feedBalance k d bal := rfl
@[simp] theorem State.noteRshEnd_noteActivity (s : State) (k : Nat) (l : List (Nat × List Rat)) : s.noteActivity.noteRshEnd k l = s.noteRshEnd k l := rfl
@[simp] theorem State.runMay_noteActivity (s : State) (k : Nat) (d : Die) : s.noteActivity.runMay k d = s.runMay k d := rfl
@[simp] theorem State.gateEnd_noteActivity (s : State) (k : Nat) (d : Die) : s.noteActivity.gateEnd k d = s.gateEnd k d := rfl
@[simp] theorem State.owDeferred_noteActivity (s : State) (k w : Nat) (d : Die) : s.noteActivity.owDeferred k w d = s.owDeferred k w d := rfl
@[simp] theorem State.owLen_noteActivity (s : State) (k w : Nat) : s.noteActivity.owLen k w = s.owLen k w := rfl
@[simp] theorem State.checkChannel_noteActivity (s : State) (k : Nat) (d : Die) : s.noteActivity.checkChannel k d = s.checkChannel k d := rfl
@[simp] theorem State.checkHoldsOff_noteActivity (s : State) (k : Nat) (d : Die) (n : Nat) : s.noteActivity.checkHoldsOff k d n = s.checkHoldsOff k d n := rfl
@[simp] theorem State.checking_noteActivity (s : State) (k : Nat) : s.noteActivity.checking k = s.checking k := rfl
@[simp] theorem State.balCap_noteActivity (s : State) (k : Nat) (d : Die) : s.noteActivity.balCap k d = s.balCap k d := rfl
@[simp] theorem State.tickNs_noteActivity (s : State) (k : Nat) : s.noteActivity.tickNs k = s.tickNs k := rfl
@[simp] theorem State.levels_noteActivity (s : State) (k : Nat) (uv : Bool) : s.noteActivity.levels k uv = s.levels k uv := rfl
@[simp] theorem State.tickDue_noteActivity (s : State) (k : Nat) (d : Die) : s.noteActivity.tickDue k d = s.tickDue k d := rfl
@[simp] theorem State.readbackDue_noteActivity (s : State) (d : Die) (i : Nat) : s.noteActivity.readbackDue d i = s.readbackDue d i := rfl
@[simp] theorem State.checkCurrent_noteActivity (s : State) (k c : Nat) (d : Die) : s.noteActivity.checkCurrent k c d = s.checkCurrent k c d := rfl
@[simp] theorem State.owResiduals_noteActivity (s : State) (k w : Nat) (d : Die) (pre post : List Rat) : s.noteActivity.owResiduals k w d pre post = s.owResiduals k w d pre post := rfl
@[simp] theorem State.owJudge_noteActivity (s : State) (k w : Nat) (d : Die) (pre post : List Rat) : s.noteActivity.owJudge k w d pre post = s.owJudge k w d pre post := rfl
@[simp] theorem State.owDone_noteActivity (s : State) (k w : Nat) (d : Die) : s.noteActivity.owDone k w d = s.owDone k w d := rfl
@[simp] theorem State.protCalm_noteActivity (s : State) : s.noteActivity.protCalm = s.protCalm := rfl
@[simp] theorem State.notReady_noteActivity (s : State) : s.noteActivity.notReady = s.notReady := rfl
@[simp] theorem State.heartMay_noteActivity (s : State) : s.noteActivity.heartMay = s.heartMay := rfl
@[simp] theorem State.sF_noteActivity (s : State) (off hi lo : Nat) : s.noteActivity.sF off hi lo = s.sF off hi lo := rfl
@[simp] theorem State.sstate_noteActivity (s : State) : s.noteActivity.sstate = s.sstate := rfl
@[simp] theorem State.connId_noteActivity (s : State) (pos : Nat) : s.noteActivity.connId pos = s.connId pos := rfl
@[simp] theorem State.inEnabled_noteActivity (s : State) (i : Nat) : s.noteActivity.inEnabled i = s.inEnabled i := rfl
@[simp] theorem State.inAnti_noteActivity (s : State) (i : Nat) : s.noteActivity.inAnti i = s.inAnti i := rfl
@[simp] theorem State.inSt_noteActivity (s : State) (i : Nat) : s.noteActivity.inSt i = s.inSt i := rfl
@[simp] theorem State.inDemand_noteActivity (s : State) : s.noteActivity.inDemand = s.inDemand := rfl
@[simp] theorem State.outEnabled_noteActivity (s : State) (k : Nat) : s.noteActivity.outEnabled k = s.outEnabled k := rfl
@[simp] theorem State.outOn_noteActivity (s : State) (k : Nat) : s.noteActivity.outOn k = s.outOn k := rfl
@[simp] theorem State.anyOut_noteActivity (s : State) : s.noteActivity.anyOut = s.anyOut := rfl
@[simp] theorem State.fbClosed_noteActivity (s : State) (k : Nat) : s.noteActivity.fbClosed k = s.fbClosed k := rfl
@[simp] theorem State.positions_noteActivity (s : State) : s.noteActivity.positions = s.positions := rfl
@[simp] theorem State.watchOf_noteActivity (s : State) (p : Nat) : s.noteActivity.watchOf p = s.watchOf p := rfl
@[simp] theorem State.supervised_noteActivity (s : State) : s.noteActivity.supervised = s.supervised := rfl
@[simp] theorem State.pendSafety_noteActivity (s : State) : s.noteActivity.pendSafety = s.pendSafety := rfl
@[simp] theorem State.outAllowed_noteActivity (s : State) (k : Nat) : s.noteActivity.outAllowed k = s.outAllowed k := rfl
@[simp] theorem State.releasable_noteActivity (s : State) : s.noteActivity.releasable = s.releasable := rfl
@[simp] theorem State.safeRuns_noteActivity (s : State) : s.noteActivity.safeRuns = s.safeRuns := rfl
@[simp] theorem State.tpPeriod_noteActivity (s : State) : s.noteActivity.tpPeriod = s.tpPeriod := rfl
@[simp] theorem State.tpEn_noteActivity (s : State) : s.noteActivity.tpEn = s.tpEn := rfl
@[simp] theorem State.pulseNear_noteActivity (s : State) (out span : Nat) : s.noteActivity.pulseNear out span = s.pulseNear out span := rfl
@[simp] theorem State.sampleExcluded_noteActivity (s : State) (out : Nat) : s.noteActivity.sampleExcluded out = s.sampleExcluded out := rfl
@[simp] theorem State.testMade_noteActivity (s : State) (i : Nat) : s.noteActivity.testMade i = s.testMade i := rfl
@[simp] theorem State.stepTest_noteActivity (s : State) (i : Nat) (low : Bool) (x : PulseTest) : s.noteActivity.stepTest i low x = s.stepTest i low x := rfl
@[simp] theorem State.discLimit_noteActivity (s : State) (i : Nat) : s.noteActivity.discLimit i = s.discLimit i := rfl
@[simp] theorem State.econDuty_noteActivity (s : State) (v : Rat) : s.noteActivity.econDuty v = s.econDuty v := rfl
@[simp] theorem State.frameError_noteActivity (s : State) (b : List Byte) (posOk : Nat → Bool) (last : Option Nat) (timed : Bool) : s.noteActivity.frameError b posOk last timed = s.frameError b posOk last timed := rfl
@[simp] theorem State.statusAux_noteActivity (s : State) : s.noteActivity.statusAux = s.statusAux := rfl
@[simp] theorem State.inGap_noteActivity (s : State) (k : Nat) : s.noteActivity.inGap k = s.inGap k := rfl
@[simp] theorem State.dieBlockMay_noteActivity (s : State) (k : Nat) (d : Die) (b : Nat) : s.noteActivity.dieBlockMay k d b = s.dieBlockMay k d b := rfl
@[simp] theorem State.hubBlockMay_noteActivity (s : State) (b : Nat) : s.noteActivity.hubBlockMay b = s.hubBlockMay b := rfl
@[simp] theorem State.blockMay_noteActivity (s : State) (k b : Nat) : s.noteActivity.blockMay k b = s.blockMay k b := rfl
@[simp] theorem State.holdFrom_noteActivity (s : State) (k b : Nat) : s.noteActivity.holdFrom k b = s.holdFrom k b := rfl
@[simp] theorem State.nextSlice_noteActivity (s : State) (k : Nat) (x : SelfTest) : s.noteActivity.nextSlice k x = s.nextSlice k x := rfl
@[simp] theorem State.chkPowered_noteActivity (s : State) (i : Nat) : s.noteActivity.chkPowered i = s.chkPowered i := rfl
@[simp] theorem State.sliceFree_noteActivity (s : State) (k : Nat) : s.noteActivity.sliceFree k = s.sliceFree k := rfl
@[simp] theorem State.testWaits_noteActivity (s : State) (c : Cmd) (bad : Bool) : s.noteActivity.testWaits c bad = s.testWaits c bad := rfl
@[simp] theorem State.chkBusy_noteActivity (s : State) (c : Cmd) : s.noteActivity.chkBusy c = s.chkBusy c := rfl
@[simp] theorem State.seqCtrl_noteActivity (s : State) (k i : Nat) : s.noteActivity.seqCtrl k i = s.seqCtrl k i := rfl
@[simp] theorem State.seqMode_noteActivity (s : State) (k i : Nat) : s.noteActivity.seqMode k i = s.seqMode k i := rfl
@[simp] theorem State.seqRepeat_noteActivity (s : State) (k i : Nat) : s.noteActivity.seqRepeat k i = s.seqRepeat k i := rfl
@[simp] theorem State.seqChannel_noteActivity (s : State) (k i : Nat) : s.noteActivity.seqChannel k i = s.seqChannel k i := rfl
@[simp] theorem State.seqFrom_noteActivity (s : State) (k i : Nat) : s.noteActivity.seqFrom k i = s.seqFrom k i := rfl
@[simp] theorem State.seqMay_noteActivity (s : State) (k : Nat) (d : Die) : s.noteActivity.seqMay k d = s.seqMay k d := rfl
@[simp] theorem State.auxRecord_noteActivity (s : State) (k : Nat) (d : Die) (x : SeqRun) (words : List Nat) (cut preempt : Bool) : s.noteActivity.auxRecord k d x words cut preempt = s.auxRecord k d x words cut preempt := rfl
@[simp] theorem State.swpCtrl_noteActivity (s : State) (p : Nat) : s.noteActivity.swpCtrl p = s.swpCtrl p := rfl
@[simp] theorem State.swpCycle_noteActivity (s : State) (p : Nat) : s.noteActivity.swpCycle p = s.swpCycle p := rfl
@[simp] theorem State.pd9_noteActivity (s : State) : s.noteActivity.pd9 = s.pd9 := rfl
@[simp] theorem State.pullUp_noteActivity (s : State) (p : Nat) : s.noteActivity.pullUp p = s.pullUp p := rfl
@[simp] theorem State.apexRuns_noteActivity (s : State) : s.noteActivity.apexRuns = s.apexRuns := rfl
@[simp] theorem State.knownCells_noteActivity (s : State) : s.noteActivity.knownCells = s.knownCells := rfl
@[simp] theorem State.trustHead_noteActivity (s : State) (host nonce : List Byte) : s.noteActivity.trustHead host nonce = s.trustHead host nonce := rfl
@[simp] theorem State.activateRefusal_noteActivity (s : State) (c : Cmd) (starts : Bool) : s.noteActivity.activateRefusal c starts = s.activateRefusal c starts := rfl
@[simp] theorem State.certOk_noteActivity (s : State) (m : LifeMsg) : s.noteActivity.certOk m = s.certOk m := rfl
@[simp] theorem State.nonceOk_noteActivity (s : State) (m : LifeMsg) : s.noteActivity.nonceOk m = s.nonceOk m := rfl
@[simp] theorem State.lifeReason_noteActivity (s : State) (m : LifeMsg) : s.noteActivity.lifeReason m = s.lifeReason m := rfl
@[simp] theorem State.fullOk_noteActivity (s : State) (sig : List Byte) (keepAwake : Bool) : s.noteActivity.fullOk sig keepAwake = s.fullOk sig keepAwake := rfl
@[simp] theorem State.meterBody_noteActivity (s : State) : s.noteActivity.meterBody = s.meterBody := rfl
@[simp] theorem State.spanImage_noteActivity (s : State) (slotB : Bool) : s.noteActivity.spanImage slotB = s.spanImage slotB := rfl
@[simp] theorem State.apexImage_noteActivity (s : State) (slotB : Bool) : s.noteActivity.apexImage slotB = s.apexImage slotB := rfl
@[simp] theorem State.apexVer_noteActivity (s : State) : s.noteActivity.apexVer = s.apexVer := rfl
@[simp] theorem State.spanVer_noteActivity (s : State) : s.noteActivity.spanVer = s.spanVer := rfl
@[simp] theorem State.imageOk_noteActivity (s : State) (kind : Nat) (b : List Byte) (total : Nat) : s.noteActivity.imageOk kind b total = s.imageOk kind b total := rfl
@[simp] theorem State.runClock_noteActivity (s : State) : s.noteActivity.runClock = s.runClock := rfl
@[simp] theorem State.signBusy_noteActivity (s : State) : s.noteActivity.signBusy = s.signBusy := rfl
@[simp] theorem State.debugSigner_noteActivity (s : State) : s.noteActivity.debugSigner = s.debugSigner := rfl

end Sys2Proof.Machine
end

