-- ==== Sys2Proof/Laws/State.lean ====
section
/-! SUPPORT. What each named update does to each field of the state: one lemma per field per update. -/

namespace Sys2Proof.Machine

@[simp] theorem State.withPending_now (s : State) (q : List Instr) : (s.withPending q).now = s.now := rfl
@[simp] theorem State.withPending_part (s : State) (q : List Instr) : (s.withPending q).part = s.part := rfl
@[simp] theorem State.withPending_dies (s : State) (q : List Instr) : (s.withPending q).dies = s.dies := rfl
@[simp] theorem State.withPending_cfg (s : State) (q : List Instr) : (s.withPending q).cfg = s.cfg := rfl
@[simp] theorem State.withPending_locus (s : State) (q : List Instr) : (s.withPending q).locus = s.locus := rfl
@[simp] theorem State.withPending_hif (s : State) (q : List Instr) : (s.withPending q).hif = s.hif := rfl
@[simp] theorem State.withPending_link (s : State) (q : List Instr) : (s.withPending q).link = s.link := rfl
@[simp] theorem State.withPending_sync (s : State) (q : List Instr) : (s.withPending q).sync = s.sync := rfl
@[simp] theorem State.withPending_swp (s : State) (q : List Instr) : (s.withPending q).swp = s.swp := rfl
@[simp] theorem State.withPending_safe (s : State) (q : List Instr) : (s.withPending q).safe = s.safe := rfl
@[simp] theorem State.withPending_power (s : State) (q : List Instr) : (s.withPending q).power = s.power := rfl
@[simp] theorem State.withPending_trust (s : State) (q : List Instr) : (s.withPending q).trust = s.trust := rfl
@[simp] theorem State.withPending_selfTest (s : State) (q : List Instr) : (s.withPending q).selfTest = s.selfTest := rfl
@[simp] theorem State.withPending_chk (s : State) (q : List Instr) : (s.withPending q).chk = s.chk := rfl
@[simp] theorem State.withPending_therm (s : State) (q : List Instr) : (s.withPending q).therm = s.therm := rfl
@[simp] theorem State.withPending_out (s : State) (q : List Instr) : (s.withPending q).out = s.out := rfl
@[simp] theorem State.withPending_freeCtr (s : State) (q : List Instr) : (s.withPending q).freeCtr = s.freeCtr := rfl
@[simp] theorem State.withPending_pending (s : State) (q : List Instr) : (s.withPending q).pending = q := rfl

@[simp] theorem State.at__now (s : State) (t : Nat) : (s.at_ t).now = s.clock t := rfl
@[simp] theorem State.at__part (s : State) (t : Nat) : (s.at_ t).part = s.part := rfl
@[simp] theorem State.at__dies (s : State) (t : Nat) : (s.at_ t).dies = s.dies := rfl
@[simp] theorem State.at__cfg (s : State) (t : Nat) : (s.at_ t).cfg = s.cfg := rfl
@[simp] theorem State.at__locus (s : State) (t : Nat) : (s.at_ t).locus = s.locus := rfl
@[simp] theorem State.at__hif (s : State) (t : Nat) : (s.at_ t).hif = s.hif := rfl
@[simp] theorem State.at__link (s : State) (t : Nat) : (s.at_ t).link = s.link := rfl
@[simp] theorem State.at__sync (s : State) (t : Nat) : (s.at_ t).sync = s.sync := rfl
@[simp] theorem State.at__swp (s : State) (t : Nat) : (s.at_ t).swp = s.swp := rfl
@[simp] theorem State.at__safe (s : State) (t : Nat) : (s.at_ t).safe = s.safe := rfl
@[simp] theorem State.at__power (s : State) (t : Nat) : (s.at_ t).power = s.power := rfl
@[simp] theorem State.at__trust (s : State) (t : Nat) : (s.at_ t).trust = s.trust := rfl
@[simp] theorem State.at__selfTest (s : State) (t : Nat) : (s.at_ t).selfTest = s.selfTest := rfl
@[simp] theorem State.at__chk (s : State) (t : Nat) : (s.at_ t).chk = s.chk := rfl
@[simp] theorem State.at__therm (s : State) (t : Nat) : (s.at_ t).therm = s.therm := rfl
@[simp] theorem State.at__out (s : State) (t : Nat) : (s.at_ t).out = s.out := rfl
@[simp] theorem State.at__freeCtr (s : State) (t : Nat) : (s.at_ t).freeCtr = s.freeCtr := rfl
@[simp] theorem State.at__pending (s : State) (t : Nat) : (s.at_ t).pending = s.pending := rfl

@[simp] theorem State.emit_now (s : State) (o : Out) : (s.emit o).now = s.now := rfl
@[simp] theorem State.emit_part (s : State) (o : Out) : (s.emit o).part = s.part := rfl
@[simp] theorem State.emit_dies (s : State) (o : Out) : (s.emit o).dies = s.dies := rfl
@[simp] theorem State.emit_cfg (s : State) (o : Out) : (s.emit o).cfg = s.cfg := rfl
@[simp] theorem State.emit_locus (s : State) (o : Out) : (s.emit o).locus = s.locus := rfl
@[simp] theorem State.emit_hif (s : State) (o : Out) : (s.emit o).hif = s.hif := rfl
@[simp] theorem State.emit_link (s : State) (o : Out) : (s.emit o).link = s.link := rfl
@[simp] theorem State.emit_sync (s : State) (o : Out) : (s.emit o).sync = s.sync := rfl
@[simp] theorem State.emit_swp (s : State) (o : Out) : (s.emit o).swp = s.swp := rfl
@[simp] theorem State.emit_safe (s : State) (o : Out) : (s.emit o).safe = s.safe := rfl
@[simp] theorem State.emit_power (s : State) (o : Out) : (s.emit o).power = s.power := rfl
@[simp] theorem State.emit_trust (s : State) (o : Out) : (s.emit o).trust = s.trust := rfl
@[simp] theorem State.emit_selfTest (s : State) (o : Out) : (s.emit o).selfTest = s.selfTest := rfl
@[simp] theorem State.emit_chk (s : State) (o : Out) : (s.emit o).chk = s.chk := rfl
@[simp] theorem State.emit_therm (s : State) (o : Out) : (s.emit o).therm = s.therm := rfl
@[simp] theorem State.emit_out (s : State) (o : Out) : (s.emit o).out = s.out ++ [o] := rfl
@[simp] theorem State.emit_freeCtr (s : State) (o : Out) : (s.emit o).freeCtr = s.freeCtr := rfl
@[simp] theorem State.emit_pending (s : State) (o : Out) : (s.emit o).pending = s.pending := rfl

@[simp] theorem State.modHif_now (s : State) (f : HifState → HifState) : (s.modHif f).now = s.now := rfl
@[simp] theorem State.modHif_part (s : State) (f : HifState → HifState) : (s.modHif f).part = s.part := rfl
@[simp] theorem State.modHif_dies (s : State) (f : HifState → HifState) : (s.modHif f).dies = s.dies := rfl
@[simp] theorem State.modHif_cfg (s : State) (f : HifState → HifState) : (s.modHif f).cfg = s.cfg := rfl
@[simp] theorem State.modHif_locus (s : State) (f : HifState → HifState) : (s.modHif f).locus = s.locus := rfl
@[simp] theorem State.modHif_hif (s : State) (f : HifState → HifState) : (s.modHif f).hif = f s.hif := rfl
@[simp] theorem State.modHif_link (s : State) (f : HifState → HifState) : (s.modHif f).link = s.link := rfl
@[simp] theorem State.modHif_sync (s : State) (f : HifState → HifState) : (s.modHif f).sync = s.sync := rfl
@[simp] theorem State.modHif_swp (s : State) (f : HifState → HifState) : (s.modHif f).swp = s.swp := rfl
@[simp] theorem State.modHif_safe (s : State) (f : HifState → HifState) : (s.modHif f).safe = s.safe := rfl
@[simp] theorem State.modHif_power (s : State) (f : HifState → HifState) : (s.modHif f).power = s.power := rfl
@[simp] theorem State.modHif_trust (s : State) (f : HifState → HifState) : (s.modHif f).trust = s.trust := rfl
@[simp] theorem State.modHif_selfTest (s : State) (f : HifState → HifState) : (s.modHif f).selfTest = s.selfTest := rfl
@[simp] theorem State.modHif_chk (s : State) (f : HifState → HifState) : (s.modHif f).chk = s.chk := rfl
@[simp] theorem State.modHif_therm (s : State) (f : HifState → HifState) : (s.modHif f).therm = s.therm := rfl
@[simp] theorem State.modHif_out (s : State) (f : HifState → HifState) : (s.modHif f).out = s.out := rfl
@[simp] theorem State.modHif_freeCtr (s : State) (f : HifState → HifState) : (s.modHif f).freeCtr = s.freeCtr := rfl
@[simp] theorem State.modHif_pending (s : State) (f : HifState → HifState) : (s.modHif f).pending = s.pending := rfl

@[simp] theorem State.modTrust_now (s : State) (f : TrustState → TrustState) : (s.modTrust f).now = s.now := rfl
@[simp] theorem State.modTrust_part (s : State) (f : TrustState → TrustState) : (s.modTrust f).part = s.part := rfl
@[simp] theorem State.modTrust_dies (s : State) (f : TrustState → TrustState) : (s.modTrust f).dies = s.dies := rfl
@[simp] theorem State.modTrust_cfg (s : State) (f : TrustState → TrustState) : (s.modTrust f).cfg = s.cfg := rfl
@[simp] theorem State.modTrust_locus (s : State) (f : TrustState → TrustState) : (s.modTrust f).locus = s.locus := rfl
@[simp] theorem State.modTrust_hif (s : State) (f : TrustState → TrustState) : (s.modTrust f).hif = s.hif := rfl
@[simp] theorem State.modTrust_link (s : State) (f : TrustState → TrustState) : (s.modTrust f).link = s.link := rfl
@[simp] theorem State.modTrust_sync (s : State) (f : TrustState → TrustState) : (s.modTrust f).sync = s.sync := rfl
@[simp] theorem State.modTrust_swp (s : State) (f : TrustState → TrustState) : (s.modTrust f).swp = s.swp := rfl
@[simp] theorem State.modTrust_safe (s : State) (f : TrustState → TrustState) : (s.modTrust f).safe = s.safe := rfl
@[simp] theorem State.modTrust_power (s : State) (f : TrustState → TrustState) : (s.modTrust f).power = s.power := rfl
@[simp] theorem State.modTrust_trust (s : State) (f : TrustState → TrustState) : (s.modTrust f).trust = f s.trust := rfl
@[simp] theorem State.modTrust_selfTest (s : State) (f : TrustState → TrustState) : (s.modTrust f).selfTest = s.selfTest := rfl
@[simp] theorem State.modTrust_chk (s : State) (f : TrustState → TrustState) : (s.modTrust f).chk = s.chk := rfl
@[simp] theorem State.modTrust_therm (s : State) (f : TrustState → TrustState) : (s.modTrust f).therm = s.therm := rfl
@[simp] theorem State.modTrust_out (s : State) (f : TrustState → TrustState) : (s.modTrust f).out = s.out := rfl
@[simp] theorem State.modTrust_freeCtr (s : State) (f : TrustState → TrustState) : (s.modTrust f).freeCtr = s.freeCtr := rfl
@[simp] theorem State.modTrust_pending (s : State) (f : TrustState → TrustState) : (s.modTrust f).pending = s.pending := rfl

@[simp] theorem State.modPower_now (s : State) (f : PowerState → PowerState) : (s.modPower f).now = s.now := rfl
@[simp] theorem State.modPower_part (s : State) (f : PowerState → PowerState) : (s.modPower f).part = s.part := rfl
@[simp] theorem State.modPower_dies (s : State) (f : PowerState → PowerState) : (s.modPower f).dies = s.dies := rfl
@[simp] theorem State.modPower_cfg (s : State) (f : PowerState → PowerState) : (s.modPower f).cfg = s.cfg := rfl
@[simp] theorem State.modPower_locus (s : State) (f : PowerState → PowerState) : (s.modPower f).locus = s.locus := rfl
@[simp] theorem State.modPower_hif (s : State) (f : PowerState → PowerState) : (s.modPower f).hif = s.hif := rfl
@[simp] theorem State.modPower_link (s : State) (f : PowerState → PowerState) : (s.modPower f).link = s.link := rfl
@[simp] theorem State.modPower_sync (s : State) (f : PowerState → PowerState) : (s.modPower f).sync = s.sync := rfl
@[simp] theorem State.modPower_swp (s : State) (f : PowerState → PowerState) : (s.modPower f).swp = s.swp := rfl
@[simp] theorem State.modPower_safe (s : State) (f : PowerState → PowerState) : (s.modPower f).safe = s.safe := rfl
@[simp] theorem State.modPower_power (s : State) (f : PowerState → PowerState) : (s.modPower f).power = f s.power := rfl
@[simp] theorem State.modPower_trust (s : State) (f : PowerState → PowerState) : (s.modPower f).trust = s.trust := rfl
@[simp] theorem State.modPower_selfTest (s : State) (f : PowerState → PowerState) : (s.modPower f).selfTest = s.selfTest := rfl
@[simp] theorem State.modPower_chk (s : State) (f : PowerState → PowerState) : (s.modPower f).chk = s.chk := rfl
@[simp] theorem State.modPower_therm (s : State) (f : PowerState → PowerState) : (s.modPower f).therm = s.therm := rfl
@[simp] theorem State.modPower_out (s : State) (f : PowerState → PowerState) : (s.modPower f).out = s.out := rfl
@[simp] theorem State.modPower_freeCtr (s : State) (f : PowerState → PowerState) : (s.modPower f).freeCtr = s.freeCtr := rfl
@[simp] theorem State.modPower_pending (s : State) (f : PowerState → PowerState) : (s.modPower f).pending = s.pending := rfl

@[simp] theorem State.modCfg_now (s : State) (f : CfgState → CfgState) : (s.modCfg f).now = s.now := rfl
@[simp] theorem State.modCfg_part (s : State) (f : CfgState → CfgState) : (s.modCfg f).part = s.part := rfl
@[simp] theorem State.modCfg_dies (s : State) (f : CfgState → CfgState) : (s.modCfg f).dies = s.dies := rfl
@[simp] theorem State.modCfg_cfg (s : State) (f : CfgState → CfgState) : (s.modCfg f).cfg = f s.cfg := rfl
@[simp] theorem State.modCfg_locus (s : State) (f : CfgState → CfgState) : (s.modCfg f).locus = s.locus := rfl
@[simp] theorem State.modCfg_hif (s : State) (f : CfgState → CfgState) : (s.modCfg f).hif = s.hif := rfl
@[simp] theorem State.modCfg_link (s : State) (f : CfgState → CfgState) : (s.modCfg f).link = s.link := rfl
@[simp] theorem State.modCfg_sync (s : State) (f : CfgState → CfgState) : (s.modCfg f).sync = s.sync := rfl
@[simp] theorem State.modCfg_swp (s : State) (f : CfgState → CfgState) : (s.modCfg f).swp = s.swp := rfl
@[simp] theorem State.modCfg_safe (s : State) (f : CfgState → CfgState) : (s.modCfg f).safe = s.safe := rfl
@[simp] theorem State.modCfg_power (s : State) (f : CfgState → CfgState) : (s.modCfg f).power = s.power := rfl
@[simp] theorem State.modCfg_trust (s : State) (f : CfgState → CfgState) : (s.modCfg f).trust = s.trust := rfl
@[simp] theorem State.modCfg_selfTest (s : State) (f : CfgState → CfgState) : (s.modCfg f).selfTest = s.selfTest := rfl
@[simp] theorem State.modCfg_chk (s : State) (f : CfgState → CfgState) : (s.modCfg f).chk = s.chk := rfl
@[simp] theorem State.modCfg_therm (s : State) (f : CfgState → CfgState) : (s.modCfg f).therm = s.therm := rfl
@[simp] theorem State.modCfg_out (s : State) (f : CfgState → CfgState) : (s.modCfg f).out = s.out := rfl
@[simp] theorem State.modCfg_freeCtr (s : State) (f : CfgState → CfgState) : (s.modCfg f).freeCtr = s.freeCtr := rfl
@[simp] theorem State.modCfg_pending (s : State) (f : CfgState → CfgState) : (s.modCfg f).pending = s.pending := rfl

@[simp] theorem State.modTest_now (s : State) (k : Nat) (f : SelfTest → SelfTest) : (s.modTest k f).now = s.now := rfl
@[simp] theorem State.modTest_part (s : State) (k : Nat) (f : SelfTest → SelfTest) : (s.modTest k f).part = s.part := rfl
@[simp] theorem State.modTest_dies (s : State) (k : Nat) (f : SelfTest → SelfTest) : (s.modTest k f).dies = s.dies := rfl
@[simp] theorem State.modTest_cfg (s : State) (k : Nat) (f : SelfTest → SelfTest) : (s.modTest k f).cfg = s.cfg := rfl
@[simp] theorem State.modTest_locus (s : State) (k : Nat) (f : SelfTest → SelfTest) : (s.modTest k f).locus = s.locus := rfl
@[simp] theorem State.modTest_hif (s : State) (k : Nat) (f : SelfTest → SelfTest) : (s.modTest k f).hif = s.hif := rfl
@[simp] theorem State.modTest_link (s : State) (k : Nat) (f : SelfTest → SelfTest) : (s.modTest k f).link = s.link := rfl
@[simp] theorem State.modTest_sync (s : State) (k : Nat) (f : SelfTest → SelfTest) : (s.modTest k f).sync = s.sync := rfl
@[simp] theorem State.modTest_swp (s : State) (k : Nat) (f : SelfTest → SelfTest) : (s.modTest k f).swp = s.swp := rfl
@[simp] theorem State.modTest_safe (s : State) (k : Nat) (f : SelfTest → SelfTest) : (s.modTest k f).safe = s.safe := rfl
@[simp] theorem State.modTest_power (s : State) (k : Nat) (f : SelfTest → SelfTest) : (s.modTest k f).power = s.power := rfl
@[simp] theorem State.modTest_trust (s : State) (k : Nat) (f : SelfTest → SelfTest) : (s.modTest k f).trust = s.trust := rfl
@[simp] theorem State.modTest_selfTest (s : State) (k : Nat) (f : SelfTest → SelfTest) : (s.modTest k f).selfTest = modNth f k s.selfTest := rfl
@[simp] theorem State.modTest_chk (s : State) (k : Nat) (f : SelfTest → SelfTest) : (s.modTest k f).chk = s.chk := rfl
@[simp] theorem State.modTest_therm (s : State) (k : Nat) (f : SelfTest → SelfTest) : (s.modTest k f).therm = s.therm := rfl
@[simp] theorem State.modTest_out (s : State) (k : Nat) (f : SelfTest → SelfTest) : (s.modTest k f).out = s.out := rfl
@[simp] theorem State.modTest_freeCtr (s : State) (k : Nat) (f : SelfTest → SelfTest) : (s.modTest k f).freeCtr = s.freeCtr := rfl
@[simp] theorem State.modTest_pending (s : State) (k : Nat) (f : SelfTest → SelfTest) : (s.modTest k f).pending = s.pending := rfl

@[simp] theorem State.modChk_now (s : State) (i : Nat) (f : ChkUnit → ChkUnit) : (s.modChk i f).now = s.now := rfl
@[simp] theorem State.modChk_part (s : State) (i : Nat) (f : ChkUnit → ChkUnit) : (s.modChk i f).part = s.part := rfl
@[simp] theorem State.modChk_dies (s : State) (i : Nat) (f : ChkUnit → ChkUnit) : (s.modChk i f).dies = s.dies := rfl
@[simp] theorem State.modChk_cfg (s : State) (i : Nat) (f : ChkUnit → ChkUnit) : (s.modChk i f).cfg = s.cfg := rfl
@[simp] theorem State.modChk_locus (s : State) (i : Nat) (f : ChkUnit → ChkUnit) : (s.modChk i f).locus = s.locus := rfl
@[simp] theorem State.modChk_hif (s : State) (i : Nat) (f : ChkUnit → ChkUnit) : (s.modChk i f).hif = s.hif := rfl
@[simp] theorem State.modChk_link (s : State) (i : Nat) (f : ChkUnit → ChkUnit) : (s.modChk i f).link = s.link := rfl
@[simp] theorem State.modChk_sync (s : State) (i : Nat) (f : ChkUnit → ChkUnit) : (s.modChk i f).sync = s.sync := rfl
@[simp] theorem State.modChk_swp (s : State) (i : Nat) (f : ChkUnit → ChkUnit) : (s.modChk i f).swp = s.swp := rfl
@[simp] theorem State.modChk_safe (s : State) (i : Nat) (f : ChkUnit → ChkUnit) : (s.modChk i f).safe = s.safe := rfl
@[simp] theorem State.modChk_power (s : State) (i : Nat) (f : ChkUnit → ChkUnit) : (s.modChk i f).power = s.power := rfl
@[simp] theorem State.modChk_trust (s : State) (i : Nat) (f : ChkUnit → ChkUnit) : (s.modChk i f).trust = s.trust := rfl
@[simp] theorem State.modChk_selfTest (s : State) (i : Nat) (f : ChkUnit → ChkUnit) : (s.modChk i f).selfTest = s.selfTest := rfl
@[simp] theorem State.modChk_chk (s : State) (i : Nat) (f : ChkUnit → ChkUnit) : (s.modChk i f).chk = modNth f i s.chk := rfl
@[simp] theorem State.modChk_therm (s : State) (i : Nat) (f : ChkUnit → ChkUnit) : (s.modChk i f).therm = s.therm := rfl
@[simp] theorem State.modChk_out (s : State) (i : Nat) (f : ChkUnit → ChkUnit) : (s.modChk i f).out = s.out := rfl
@[simp] theorem State.modChk_freeCtr (s : State) (i : Nat) (f : ChkUnit → ChkUnit) : (s.modChk i f).freeCtr = s.freeCtr := rfl
@[simp] theorem State.modChk_pending (s : State) (i : Nat) (f : ChkUnit → ChkUnit) : (s.modChk i f).pending = s.pending := rfl

@[simp] theorem State.modDie_now (s : State) (k : Nat) (f : Die → Die) : (s.modDie k f).now = s.now := by
  unfold State.modDie
  split <;> rfl
@[simp] theorem State.modDie_part (s : State) (k : Nat) (f : Die → Die) : (s.modDie k f).part = s.part := by
  unfold State.modDie
  split <;> rfl
@[simp] theorem State.modDie_cfg (s : State) (k : Nat) (f : Die → Die) : (s.modDie k f).cfg = s.cfg := by
  unfold State.modDie
  split <;> rfl
@[simp] theorem State.modDie_locus (s : State) (k : Nat) (f : Die → Die) : (s.modDie k f).locus = s.locus := by
  unfold State.modDie
  split <;> rfl
@[simp] theorem State.modDie_hif (s : State) (k : Nat) (f : Die → Die) : (s.modDie k f).hif = s.hif := by
  unfold State.modDie
  split <;> rfl
@[simp] theorem State.modDie_link (s : State) (k : Nat) (f : Die → Die) : (s.modDie k f).link = s.link := by
  unfold State.modDie
  split <;> rfl
@[simp] theorem State.modDie_sync (s : State) (k : Nat) (f : Die → Die) : (s.modDie k f).sync = s.sync := by
  unfold State.modDie
  split <;> rfl
@[simp] theorem State.modDie_swp (s : State) (k : Nat) (f : Die → Die) : (s.modDie k f).swp = s.swp := by
  unfold State.modDie
  split <;> rfl
@[simp] theorem State.modDie_safe (s : State) (k : Nat) (f : Die → Die) : (s.modDie k f).safe = s.safe := by
  unfold State.modDie
  split <;> rfl
@[simp] theorem State.modDie_power (s : State) (k : Nat) (f : Die → Die) : (s.modDie k f).power = s.power := by
  unfold State.modDie
  split <;> rfl
@[simp] theorem State.modDie_trust (s : State) (k : Nat) (f : Die → Die) : (s.modDie k f).trust = s.trust := by
  unfold State.modDie
  split <;> rfl
@[simp] theorem State.modDie_selfTest (s : State) (k : Nat) (f : Die → Die) : (s.modDie k f).selfTest = s.selfTest := by
  unfold State.modDie
  split <;> rfl
@[simp] theorem State.modDie_chk (s : State) (k : Nat) (f : Die → Die) : (s.modDie k f).chk = s.chk := by
  unfold State.modDie
  split <;> rfl
@[simp] theorem State.modDie_therm (s : State) (k : Nat) (f : Die → Die) : (s.modDie k f).therm = s.therm := by
  unfold State.modDie
  split <;> rfl
@[simp] theorem State.modDie_out (s : State) (k : Nat) (f : Die → Die) : (s.modDie k f).out = s.out := by
  unfold State.modDie
  split <;> rfl
@[simp] theorem State.modDie_freeCtr (s : State) (k : Nat) (f : Die → Die) : (s.modDie k f).freeCtr = s.freeCtr := by
  unfold State.modDie
  split <;> rfl
@[simp] theorem State.modDie_pending (s : State) (k : Nat) (f : Die → Die) : (s.modDie k f).pending = s.pending := by
  unfold State.modDie
  split <;> rfl

@[simp] theorem State.modSwp_now (s : State) (p : Nat) (f : SwpPort → SwpPort) : (s.modSwp p f).now = s.now := by
  unfold State.modSwp
  split <;> rfl
@[simp] theorem State.modSwp_part (s : State) (p : Nat) (f : SwpPort → SwpPort) : (s.modSwp p f).part = s.part := by
  unfold State.modSwp
  split <;> rfl
@[simp] theorem State.modSwp_dies (s : State) (p : Nat) (f : SwpPort → SwpPort) : (s.modSwp p f).dies = s.dies := by
  unfold State.modSwp
  split <;> rfl
@[simp] theorem State.modSwp_cfg (s : State) (p : Nat) (f : SwpPort → SwpPort) : (s.modSwp p f).cfg = s.cfg := by
  unfold State.modSwp
  split <;> rfl
@[simp] theorem State.modSwp_locus (s : State) (p : Nat) (f : SwpPort → SwpPort) : (s.modSwp p f).locus = s.locus := by
  unfold State.modSwp
  split <;> rfl
@[simp] theorem State.modSwp_hif (s : State) (p : Nat) (f : SwpPort → SwpPort) : (s.modSwp p f).hif = s.hif := by
  unfold State.modSwp
  split <;> rfl
@[simp] theorem State.modSwp_link (s : State) (p : Nat) (f : SwpPort → SwpPort) : (s.modSwp p f).link = s.link := by
  unfold State.modSwp
  split <;> rfl
@[simp] theorem State.modSwp_sync (s : State) (p : Nat) (f : SwpPort → SwpPort) : (s.modSwp p f).sync = s.sync := by
  unfold State.modSwp
  split <;> rfl
@[simp] theorem State.modSwp_safe (s : State) (p : Nat) (f : SwpPort → SwpPort) : (s.modSwp p f).safe = s.safe := by
  unfold State.modSwp
  split <;> rfl
@[simp] theorem State.modSwp_power (s : State) (p : Nat) (f : SwpPort → SwpPort) : (s.modSwp p f).power = s.power := by
  unfold State.modSwp
  split <;> rfl
@[simp] theorem State.modSwp_trust (s : State) (p : Nat) (f : SwpPort → SwpPort) : (s.modSwp p f).trust = s.trust := by
  unfold State.modSwp
  split <;> rfl
@[simp] theorem State.modSwp_selfTest (s : State) (p : Nat) (f : SwpPort → SwpPort) : (s.modSwp p f).selfTest = s.selfTest := by
  unfold State.modSwp
  split <;> rfl
@[simp] theorem State.modSwp_chk (s : State) (p : Nat) (f : SwpPort → SwpPort) : (s.modSwp p f).chk = s.chk := by
  unfold State.modSwp
  split <;> rfl
@[simp] theorem State.modSwp_therm (s : State) (p : Nat) (f : SwpPort → SwpPort) : (s.modSwp p f).therm = s.therm := by
  unfold State.modSwp
  split <;> rfl
@[simp] theorem State.modSwp_out (s : State) (p : Nat) (f : SwpPort → SwpPort) : (s.modSwp p f).out = s.out := by
  unfold State.modSwp
  split <;> rfl
@[simp] theorem State.modSwp_freeCtr (s : State) (p : Nat) (f : SwpPort → SwpPort) : (s.modSwp p f).freeCtr = s.freeCtr := by
  unfold State.modSwp
  split <;> rfl
@[simp] theorem State.modSwp_pending (s : State) (p : Nat) (f : SwpPort → SwpPort) : (s.modSwp p f).pending = s.pending := by
  unfold State.modSwp
  split <;> rfl

@[simp] theorem State.modPort_now (s : State) (side : Side) (f : Port → Port) : (s.modPort side f).now = s.now := by
  unfold State.modPort
  split <;> rfl
@[simp] theorem State.modPort_part (s : State) (side : Side) (f : Port → Port) : (s.modPort side f).part = s.part := by
  unfold State.modPort
  split <;> rfl
@[simp] theorem State.modPort_dies (s : State) (side : Side) (f : Port → Port) : (s.modPort side f).dies = s.dies := by
  unfold State.modPort
  split <;> rfl
@[simp] theorem State.modPort_cfg (s : State) (side : Side) (f : Port → Port) : (s.modPort side f).cfg = s.cfg := by
  unfold State.modPort
  split <;> rfl
@[simp] theorem State.modPort_locus (s : State) (side : Side) (f : Port → Port) : (s.modPort side f).locus = s.locus := by
  unfold State.modPort
  split <;> rfl
@[simp] theorem State.modPort_hif (s : State) (side : Side) (f : Port → Port) : (s.modPort side f).hif = s.hif := by
  unfold State.modPort
  split <;> rfl
@[simp] theorem State.modPort_sync (s : State) (side : Side) (f : Port → Port) : (s.modPort side f).sync = s.sync := by
  unfold State.modPort
  split <;> rfl
@[simp] theorem State.modPort_swp (s : State) (side : Side) (f : Port → Port) : (s.modPort side f).swp = s.swp := by
  unfold State.modPort
  split <;> rfl
@[simp] theorem State.modPort_safe (s : State) (side : Side) (f : Port → Port) : (s.modPort side f).safe = s.safe := by
  unfold State.modPort
  split <;> rfl
@[simp] theorem State.modPort_power (s : State) (side : Side) (f : Port → Port) : (s.modPort side f).power = s.power := by
  unfold State.modPort
  split <;> rfl
@[simp] theorem State.modPort_trust (s : State) (side : Side) (f : Port → Port) : (s.modPort side f).trust = s.trust := by
  unfold State.modPort
  split <;> rfl
@[simp] theorem State.modPort_selfTest (s : State) (side : Side) (f : Port → Port) : (s.modPort side f).selfTest = s.selfTest := by
  unfold State.modPort
  split <;> rfl
@[simp] theorem State.modPort_chk (s : State) (side : Side) (f : Port → Port) : (s.modPort side f).chk = s.chk := by
  unfold State.modPort
  split <;> rfl
@[simp] theorem State.modPort_therm (s : State) (side : Side) (f : Port → Port) : (s.modPort side f).therm = s.therm := by
  unfold State.modPort
  split <;> rfl
@[simp] theorem State.modPort_out (s : State) (side : Side) (f : Port → Port) : (s.modPort side f).out = s.out := by
  unfold State.modPort
  split <;> rfl
@[simp] theorem State.modPort_freeCtr (s : State) (side : Side) (f : Port → Port) : (s.modPort side f).freeCtr = s.freeCtr := by
  unfold State.modPort
  split <;> rfl
@[simp] theorem State.modPort_pending (s : State) (side : Side) (f : Port → Port) : (s.modPort side f).pending = s.pending := by
  unfold State.modPort
  split <;> rfl

@[simp] theorem State.modDie_dies (s : State) (k : Nat) (f : Die → Die) (h : k ≠ 0) : (s.modDie k f).dies = modNth f (k - 1) s.dies := by
  unfold State.modDie
  rw [if_neg h]

@[simp] theorem State.modPort_same (s : State) (side : Side) (f : Port → Port) : (s.modPort side f).port side = f (s.port side) := by
  cases side <;> rfl

theorem State.modPort_other (s : State) (side : Side) (f : Port → Port) : (s.modPort side f).port side.other = s.port side.other := by
  cases side <;> rfl

@[simp] theorem modNth_length {α : Type} (f : α → α) (i : Nat) (l : List α) : (modNth f i l).length = l.length := by
  induction l generalizing i with
  | nil => cases i <;> rfl
  | cons a l ih =>
    cases i with
    | zero => rfl
    | succ i => exact congrArg Nat.succ (ih i)

/-- The element changed. -/
theorem modNth_getElem?_same {α : Type} (f : α → α) (i : Nat) (l : List α) : (modNth f i l)[i]? = l[i]?.map f := by
  induction l generalizing i with
  | nil => cases i <;> rfl
  | cons a l ih =>
    cases i with
    | zero => rfl
    | succ i => simpa [modNth] using ih i

/-- Every other element stays. -/
theorem modNth_getElem?_other {α : Type} (f : α → α) {i j : Nat} (l : List α) (h : j ≠ i) : (modNth f i l)[j]? = l[j]? := by
  induction l generalizing i j with
  | nil => cases i <;> rfl
  | cons a l ih =>
    cases i with
    | zero =>
      cases j with
      | zero => exact absurd rfl h
      | succ j => rfl
    | succ i =>
      cases j with
      | zero => rfl
      | succ j => simpa [modNth] using ih (i := i) (j := j) (fun e => h (by omega))

end Sys2Proof.Machine
end

