-- ==== Sys2Proof/Laws/Effects.lean ====
section
/-! SUPPORT. What the shared operations do, once: fields that an event, a frame or a completion leaves alone, a command
served at this part, and what a change of one die does. -/

namespace Sys2Proof.Machine

/-! What two states share that agree in what an event, a frame or a completion leaves alone. -/

theorem Kept.now_eq {s u : State} (h : s.kept = u.kept) : s.now = u.now := congrArg Kept.now h
theorem Kept.dies_eq {s u : State} (h : s.kept = u.kept) : s.dies = u.dies := congrArg Kept.dies h
theorem Kept.cfg_eq {s u : State} (h : s.kept = u.kept) : s.cfg = u.cfg := congrArg Kept.cfg h
theorem Kept.sync_eq {s u : State} (h : s.kept = u.kept) : s.sync = u.sync := congrArg Kept.sync h
theorem Kept.swp_eq {s u : State} (h : s.kept = u.kept) : s.swp = u.swp := congrArg Kept.swp h
theorem Kept.safe_eq {s u : State} (h : s.kept = u.kept) : s.safe = u.safe := congrArg Kept.safe h
theorem Kept.power_eq {s u : State} (h : s.kept = u.kept) : s.power = u.power := congrArg Kept.power h
theorem Kept.selfTest_eq {s u : State} (h : s.kept = u.kept) : s.selfTest = u.selfTest := congrArg Kept.selfTest h
theorem Kept.chk_eq {s u : State} (h : s.kept = u.kept) : s.chk = u.chk := congrArg Kept.chk h
theorem Kept.therm_eq {s u : State} (h : s.kept = u.kept) : s.therm = u.therm := congrArg Kept.therm h
theorem Kept.part_cellDies_eq {s u : State} (h : s.kept = u.kept) : s.part.cellDies = u.part.cellDies := congrArg (fun x => x.part.cellDies) h
theorem Kept.part_role_eq {s u : State} (h : s.kept = u.kept) : s.part.role = u.part.role := congrArg (fun x => x.part.role) h
theorem Kept.part_strap_eq {s u : State} (h : s.kept = u.kept) : s.part.strap = u.part.strap := congrArg (fun x => x.part.strap) h
theorem Kept.part_links_eq {s u : State} (h : s.kept = u.kept) : s.part.links = u.part.links := congrArg (fun x => x.part.links) h
theorem Kept.part_serving_eq {s u : State} (h : s.kept = u.kept) : s.part.serving = u.part.serving := congrArg (fun x => x.part.serving) h
theorem Kept.part_hubHeld_eq {s u : State} (h : s.kept = u.kept) : s.part.hubHeld = u.part.hubHeld := congrArg (fun x => x.part.hubHeld) h
theorem Kept.part_roleChanged_eq {s u : State} (h : s.kept = u.kept) : s.part.roleChanged = u.part.roleChanged := congrArg (fun x => x.part.roleChanged) h
theorem Kept.part_ident_eq {s u : State} (h : s.kept = u.kept) : s.part.ident = u.part.ident := congrArg (fun x => x.part.ident) h
theorem Kept.trust_eq {s u : State} (h : s.kept = u.kept) : s.trust.still = u.trust.still := congrArg Kept.trust h

@[simp] theorem State.eventAt_now (s : State) (e : Ev) (t : Nat) (full : Option (Nat × List Byte)) : (s.eventAt e t full).now = s.now := Kept.now_eq (State.eventAt_kept s e t full)
@[simp] theorem State.eventAt_dies (s : State) (e : Ev) (t : Nat) (full : Option (Nat × List Byte)) : (s.eventAt e t full).dies = s.dies := Kept.dies_eq (State.eventAt_kept s e t full)
@[simp] theorem State.eventAt_cfg (s : State) (e : Ev) (t : Nat) (full : Option (Nat × List Byte)) : (s.eventAt e t full).cfg = s.cfg := Kept.cfg_eq (State.eventAt_kept s e t full)
@[simp] theorem State.eventAt_sync (s : State) (e : Ev) (t : Nat) (full : Option (Nat × List Byte)) : (s.eventAt e t full).sync = s.sync := Kept.sync_eq (State.eventAt_kept s e t full)
@[simp] theorem State.eventAt_swp (s : State) (e : Ev) (t : Nat) (full : Option (Nat × List Byte)) : (s.eventAt e t full).swp = s.swp := Kept.swp_eq (State.eventAt_kept s e t full)
@[simp] theorem State.eventAt_safe (s : State) (e : Ev) (t : Nat) (full : Option (Nat × List Byte)) : (s.eventAt e t full).safe = s.safe := Kept.safe_eq (State.eventAt_kept s e t full)
@[simp] theorem State.eventAt_power (s : State) (e : Ev) (t : Nat) (full : Option (Nat × List Byte)) : (s.eventAt e t full).power = s.power := Kept.power_eq (State.eventAt_kept s e t full)
@[simp] theorem State.eventAt_selfTest (s : State) (e : Ev) (t : Nat) (full : Option (Nat × List Byte)) : (s.eventAt e t full).selfTest = s.selfTest := Kept.selfTest_eq (State.eventAt_kept s e t full)
@[simp] theorem State.eventAt_chk (s : State) (e : Ev) (t : Nat) (full : Option (Nat × List Byte)) : (s.eventAt e t full).chk = s.chk := Kept.chk_eq (State.eventAt_kept s e t full)
@[simp] theorem State.eventAt_therm (s : State) (e : Ev) (t : Nat) (full : Option (Nat × List Byte)) : (s.eventAt e t full).therm = s.therm := Kept.therm_eq (State.eventAt_kept s e t full)
@[simp] theorem State.eventAt_part_cellDies (s : State) (e : Ev) (t : Nat) (full : Option (Nat × List Byte)) : (s.eventAt e t full).part.cellDies = s.part.cellDies :=
  Kept.part_cellDies_eq (State.eventAt_kept s e t full)
@[simp] theorem State.eventAt_part_role (s : State) (e : Ev) (t : Nat) (full : Option (Nat × List Byte)) : (s.eventAt e t full).part.role = s.part.role :=
  Kept.part_role_eq (State.eventAt_kept s e t full)
@[simp] theorem State.eventAt_part_strap (s : State) (e : Ev) (t : Nat) (full : Option (Nat × List Byte)) : (s.eventAt e t full).part.strap = s.part.strap :=
  Kept.part_strap_eq (State.eventAt_kept s e t full)
@[simp] theorem State.eventAt_part_links (s : State) (e : Ev) (t : Nat) (full : Option (Nat × List Byte)) : (s.eventAt e t full).part.links = s.part.links :=
  Kept.part_links_eq (State.eventAt_kept s e t full)
@[simp] theorem State.eventAt_part_serving (s : State) (e : Ev) (t : Nat) (full : Option (Nat × List Byte)) : (s.eventAt e t full).part.serving = s.part.serving :=
  Kept.part_serving_eq (State.eventAt_kept s e t full)
@[simp] theorem State.eventAt_part_hubHeld (s : State) (e : Ev) (t : Nat) (full : Option (Nat × List Byte)) : (s.eventAt e t full).part.hubHeld = s.part.hubHeld :=
  Kept.part_hubHeld_eq (State.eventAt_kept s e t full)
@[simp] theorem State.eventAt_part_roleChanged (s : State) (e : Ev) (t : Nat) (full : Option (Nat × List Byte)) : (s.eventAt e t full).part.roleChanged = s.part.roleChanged :=
  Kept.part_roleChanged_eq (State.eventAt_kept s e t full)
@[simp] theorem State.eventAt_part_ident (s : State) (e : Ev) (t : Nat) (full : Option (Nat × List Byte)) : (s.eventAt e t full).part.ident = s.part.ident :=
  Kept.part_ident_eq (State.eventAt_kept s e t full)
theorem State.eventAt_trust (s : State) (e : Ev) (t : Nat) (full : Option (Nat × List Byte)) : (s.eventAt e t full).trust.still = s.trust.still := Kept.trust_eq (State.eventAt_kept s e t full)

@[simp] theorem State.event_now (s : State) (e : Ev) : (s.event e).now = s.now := Kept.now_eq (State.event_kept s e)
@[simp] theorem State.event_dies (s : State) (e : Ev) : (s.event e).dies = s.dies := Kept.dies_eq (State.event_kept s e)
@[simp] theorem State.event_cfg (s : State) (e : Ev) : (s.event e).cfg = s.cfg := Kept.cfg_eq (State.event_kept s e)
@[simp] theorem State.event_sync (s : State) (e : Ev) : (s.event e).sync = s.sync := Kept.sync_eq (State.event_kept s e)
@[simp] theorem State.event_swp (s : State) (e : Ev) : (s.event e).swp = s.swp := Kept.swp_eq (State.event_kept s e)
@[simp] theorem State.event_safe (s : State) (e : Ev) : (s.event e).safe = s.safe := Kept.safe_eq (State.event_kept s e)
@[simp] theorem State.event_power (s : State) (e : Ev) : (s.event e).power = s.power := Kept.power_eq (State.event_kept s e)
@[simp] theorem State.event_selfTest (s : State) (e : Ev) : (s.event e).selfTest = s.selfTest := Kept.selfTest_eq (State.event_kept s e)
@[simp] theorem State.event_chk (s : State) (e : Ev) : (s.event e).chk = s.chk := Kept.chk_eq (State.event_kept s e)
@[simp] theorem State.event_therm (s : State) (e : Ev) : (s.event e).therm = s.therm := Kept.therm_eq (State.event_kept s e)
@[simp] theorem State.event_part_cellDies (s : State) (e : Ev) : (s.event e).part.cellDies = s.part.cellDies :=
  Kept.part_cellDies_eq (State.event_kept s e)
@[simp] theorem State.event_part_role (s : State) (e : Ev) : (s.event e).part.role = s.part.role :=
  Kept.part_role_eq (State.event_kept s e)
@[simp] theorem State.event_part_strap (s : State) (e : Ev) : (s.event e).part.strap = s.part.strap :=
  Kept.part_strap_eq (State.event_kept s e)
@[simp] theorem State.event_part_links (s : State) (e : Ev) : (s.event e).part.links = s.part.links :=
  Kept.part_links_eq (State.event_kept s e)
@[simp] theorem State.event_part_serving (s : State) (e : Ev) : (s.event e).part.serving = s.part.serving :=
  Kept.part_serving_eq (State.event_kept s e)
@[simp] theorem State.event_part_hubHeld (s : State) (e : Ev) : (s.event e).part.hubHeld = s.part.hubHeld :=
  Kept.part_hubHeld_eq (State.event_kept s e)
@[simp] theorem State.event_part_roleChanged (s : State) (e : Ev) : (s.event e).part.roleChanged = s.part.roleChanged :=
  Kept.part_roleChanged_eq (State.event_kept s e)
@[simp] theorem State.event_part_ident (s : State) (e : Ev) : (s.event e).part.ident = s.part.ident :=
  Kept.part_ident_eq (State.event_kept s e)
theorem State.event_trust (s : State) (e : Ev) : (s.event e).trust.still = s.trust.still := Kept.trust_eq (State.event_kept s e)

@[simp] theorem State.placement_now (s : State) (kind island task reason : Nat) (value : Int) (stream arg16 : Nat) : (s.placement kind island task reason value stream arg16).now = s.now := Kept.now_eq (State.placement_kept s kind island task reason value stream arg16)
@[simp] theorem State.placement_dies (s : State) (kind island task reason : Nat) (value : Int) (stream arg16 : Nat) : (s.placement kind island task reason value stream arg16).dies = s.dies := Kept.dies_eq (State.placement_kept s kind island task reason value stream arg16)
@[simp] theorem State.placement_cfg (s : State) (kind island task reason : Nat) (value : Int) (stream arg16 : Nat) : (s.placement kind island task reason value stream arg16).cfg = s.cfg := Kept.cfg_eq (State.placement_kept s kind island task reason value stream arg16)
@[simp] theorem State.placement_sync (s : State) (kind island task reason : Nat) (value : Int) (stream arg16 : Nat) : (s.placement kind island task reason value stream arg16).sync = s.sync := Kept.sync_eq (State.placement_kept s kind island task reason value stream arg16)
@[simp] theorem State.placement_swp (s : State) (kind island task reason : Nat) (value : Int) (stream arg16 : Nat) : (s.placement kind island task reason value stream arg16).swp = s.swp := Kept.swp_eq (State.placement_kept s kind island task reason value stream arg16)
@[simp] theorem State.placement_safe (s : State) (kind island task reason : Nat) (value : Int) (stream arg16 : Nat) : (s.placement kind island task reason value stream arg16).safe = s.safe := Kept.safe_eq (State.placement_kept s kind island task reason value stream arg16)
@[simp] theorem State.placement_power (s : State) (kind island task reason : Nat) (value : Int) (stream arg16 : Nat) : (s.placement kind island task reason value stream arg16).power = s.power := Kept.power_eq (State.placement_kept s kind island task reason value stream arg16)
@[simp] theorem State.placement_selfTest (s : State) (kind island task reason : Nat) (value : Int) (stream arg16 : Nat) : (s.placement kind island task reason value stream arg16).selfTest = s.selfTest := Kept.selfTest_eq (State.placement_kept s kind island task reason value stream arg16)
@[simp] theorem State.placement_chk (s : State) (kind island task reason : Nat) (value : Int) (stream arg16 : Nat) : (s.placement kind island task reason value stream arg16).chk = s.chk := Kept.chk_eq (State.placement_kept s kind island task reason value stream arg16)
@[simp] theorem State.placement_therm (s : State) (kind island task reason : Nat) (value : Int) (stream arg16 : Nat) : (s.placement kind island task reason value stream arg16).therm = s.therm := Kept.therm_eq (State.placement_kept s kind island task reason value stream arg16)
@[simp] theorem State.placement_part_cellDies (s : State) (kind island task reason : Nat) (value : Int) (stream arg16 : Nat) : (s.placement kind island task reason value stream arg16).part.cellDies = s.part.cellDies :=
  Kept.part_cellDies_eq (State.placement_kept s kind island task reason value stream arg16)
@[simp] theorem State.placement_part_role (s : State) (kind island task reason : Nat) (value : Int) (stream arg16 : Nat) : (s.placement kind island task reason value stream arg16).part.role = s.part.role :=
  Kept.part_role_eq (State.placement_kept s kind island task reason value stream arg16)
@[simp] theorem State.placement_part_strap (s : State) (kind island task reason : Nat) (value : Int) (stream arg16 : Nat) : (s.placement kind island task reason value stream arg16).part.strap = s.part.strap :=
  Kept.part_strap_eq (State.placement_kept s kind island task reason value stream arg16)
@[simp] theorem State.placement_part_links (s : State) (kind island task reason : Nat) (value : Int) (stream arg16 : Nat) : (s.placement kind island task reason value stream arg16).part.links = s.part.links :=
  Kept.part_links_eq (State.placement_kept s kind island task reason value stream arg16)
@[simp] theorem State.placement_part_serving (s : State) (kind island task reason : Nat) (value : Int) (stream arg16 : Nat) : (s.placement kind island task reason value stream arg16).part.serving = s.part.serving :=
  Kept.part_serving_eq (State.placement_kept s kind island task reason value stream arg16)
@[simp] theorem State.placement_part_hubHeld (s : State) (kind island task reason : Nat) (value : Int) (stream arg16 : Nat) : (s.placement kind island task reason value stream arg16).part.hubHeld = s.part.hubHeld :=
  Kept.part_hubHeld_eq (State.placement_kept s kind island task reason value stream arg16)
@[simp] theorem State.placement_part_roleChanged (s : State) (kind island task reason : Nat) (value : Int) (stream arg16 : Nat) : (s.placement kind island task reason value stream arg16).part.roleChanged = s.part.roleChanged :=
  Kept.part_roleChanged_eq (State.placement_kept s kind island task reason value stream arg16)
@[simp] theorem State.placement_part_ident (s : State) (kind island task reason : Nat) (value : Int) (stream arg16 : Nat) : (s.placement kind island task reason value stream arg16).part.ident = s.part.ident :=
  Kept.part_ident_eq (State.placement_kept s kind island task reason value stream arg16)
theorem State.placement_trust (s : State) (kind island task reason : Nat) (value : Int) (stream arg16 : Nat) : (s.placement kind island task reason value stream arg16).trust.still = s.trust.still := Kept.trust_eq (State.placement_kept s kind island task reason value stream arg16)

@[simp] theorem State.blackBox_now (s : State) (kind : Nat) (keep : Bool) (body : List Byte) : (s.blackBox kind keep body).now = s.now := Kept.now_eq (State.blackBox_kept s kind keep body)
@[simp] theorem State.blackBox_dies (s : State) (kind : Nat) (keep : Bool) (body : List Byte) : (s.blackBox kind keep body).dies = s.dies := Kept.dies_eq (State.blackBox_kept s kind keep body)
@[simp] theorem State.blackBox_cfg (s : State) (kind : Nat) (keep : Bool) (body : List Byte) : (s.blackBox kind keep body).cfg = s.cfg := Kept.cfg_eq (State.blackBox_kept s kind keep body)
@[simp] theorem State.blackBox_sync (s : State) (kind : Nat) (keep : Bool) (body : List Byte) : (s.blackBox kind keep body).sync = s.sync := Kept.sync_eq (State.blackBox_kept s kind keep body)
@[simp] theorem State.blackBox_swp (s : State) (kind : Nat) (keep : Bool) (body : List Byte) : (s.blackBox kind keep body).swp = s.swp := Kept.swp_eq (State.blackBox_kept s kind keep body)
@[simp] theorem State.blackBox_safe (s : State) (kind : Nat) (keep : Bool) (body : List Byte) : (s.blackBox kind keep body).safe = s.safe := Kept.safe_eq (State.blackBox_kept s kind keep body)
@[simp] theorem State.blackBox_power (s : State) (kind : Nat) (keep : Bool) (body : List Byte) : (s.blackBox kind keep body).power = s.power := Kept.power_eq (State.blackBox_kept s kind keep body)
@[simp] theorem State.blackBox_selfTest (s : State) (kind : Nat) (keep : Bool) (body : List Byte) : (s.blackBox kind keep body).selfTest = s.selfTest := Kept.selfTest_eq (State.blackBox_kept s kind keep body)
@[simp] theorem State.blackBox_chk (s : State) (kind : Nat) (keep : Bool) (body : List Byte) : (s.blackBox kind keep body).chk = s.chk := Kept.chk_eq (State.blackBox_kept s kind keep body)
@[simp] theorem State.blackBox_therm (s : State) (kind : Nat) (keep : Bool) (body : List Byte) : (s.blackBox kind keep body).therm = s.therm := Kept.therm_eq (State.blackBox_kept s kind keep body)
@[simp] theorem State.blackBox_part_cellDies (s : State) (kind : Nat) (keep : Bool) (body : List Byte) : (s.blackBox kind keep body).part.cellDies = s.part.cellDies :=
  Kept.part_cellDies_eq (State.blackBox_kept s kind keep body)
@[simp] theorem State.blackBox_part_role (s : State) (kind : Nat) (keep : Bool) (body : List Byte) : (s.blackBox kind keep body).part.role = s.part.role :=
  Kept.part_role_eq (State.blackBox_kept s kind keep body)
@[simp] theorem State.blackBox_part_strap (s : State) (kind : Nat) (keep : Bool) (body : List Byte) : (s.blackBox kind keep body).part.strap = s.part.strap :=
  Kept.part_strap_eq (State.blackBox_kept s kind keep body)
@[simp] theorem State.blackBox_part_links (s : State) (kind : Nat) (keep : Bool) (body : List Byte) : (s.blackBox kind keep body).part.links = s.part.links :=
  Kept.part_links_eq (State.blackBox_kept s kind keep body)
@[simp] theorem State.blackBox_part_serving (s : State) (kind : Nat) (keep : Bool) (body : List Byte) : (s.blackBox kind keep body).part.serving = s.part.serving :=
  Kept.part_serving_eq (State.blackBox_kept s kind keep body)
@[simp] theorem State.blackBox_part_hubHeld (s : State) (kind : Nat) (keep : Bool) (body : List Byte) : (s.blackBox kind keep body).part.hubHeld = s.part.hubHeld :=
  Kept.part_hubHeld_eq (State.blackBox_kept s kind keep body)
@[simp] theorem State.blackBox_part_roleChanged (s : State) (kind : Nat) (keep : Bool) (body : List Byte) : (s.blackBox kind keep body).part.roleChanged = s.part.roleChanged :=
  Kept.part_roleChanged_eq (State.blackBox_kept s kind keep body)
@[simp] theorem State.blackBox_part_ident (s : State) (kind : Nat) (keep : Bool) (body : List Byte) : (s.blackBox kind keep body).part.ident = s.part.ident :=
  Kept.part_ident_eq (State.blackBox_kept s kind keep body)
theorem State.blackBox_trust (s : State) (kind : Nat) (keep : Bool) (body : List Byte) : (s.blackBox kind keep body).trust.still = s.trust.still := Kept.trust_eq (State.blackBox_kept s kind keep body)

@[simp] theorem State.originate_now (s : State) (tc kind dest : Nat) (payload : List Byte) : (s.originate tc kind dest payload).now = s.now := Kept.now_eq (State.originate_kept s tc kind dest payload)
@[simp] theorem State.originate_dies (s : State) (tc kind dest : Nat) (payload : List Byte) : (s.originate tc kind dest payload).dies = s.dies := Kept.dies_eq (State.originate_kept s tc kind dest payload)
@[simp] theorem State.originate_cfg (s : State) (tc kind dest : Nat) (payload : List Byte) : (s.originate tc kind dest payload).cfg = s.cfg := Kept.cfg_eq (State.originate_kept s tc kind dest payload)
@[simp] theorem State.originate_sync (s : State) (tc kind dest : Nat) (payload : List Byte) : (s.originate tc kind dest payload).sync = s.sync := Kept.sync_eq (State.originate_kept s tc kind dest payload)
@[simp] theorem State.originate_swp (s : State) (tc kind dest : Nat) (payload : List Byte) : (s.originate tc kind dest payload).swp = s.swp := Kept.swp_eq (State.originate_kept s tc kind dest payload)
@[simp] theorem State.originate_safe (s : State) (tc kind dest : Nat) (payload : List Byte) : (s.originate tc kind dest payload).safe = s.safe := Kept.safe_eq (State.originate_kept s tc kind dest payload)
@[simp] theorem State.originate_power (s : State) (tc kind dest : Nat) (payload : List Byte) : (s.originate tc kind dest payload).power = s.power := Kept.power_eq (State.originate_kept s tc kind dest payload)
@[simp] theorem State.originate_selfTest (s : State) (tc kind dest : Nat) (payload : List Byte) : (s.originate tc kind dest payload).selfTest = s.selfTest := Kept.selfTest_eq (State.originate_kept s tc kind dest payload)
@[simp] theorem State.originate_chk (s : State) (tc kind dest : Nat) (payload : List Byte) : (s.originate tc kind dest payload).chk = s.chk := Kept.chk_eq (State.originate_kept s tc kind dest payload)
@[simp] theorem State.originate_therm (s : State) (tc kind dest : Nat) (payload : List Byte) : (s.originate tc kind dest payload).therm = s.therm := Kept.therm_eq (State.originate_kept s tc kind dest payload)
@[simp] theorem State.originate_part_cellDies (s : State) (tc kind dest : Nat) (payload : List Byte) : (s.originate tc kind dest payload).part.cellDies = s.part.cellDies :=
  Kept.part_cellDies_eq (State.originate_kept s tc kind dest payload)
@[simp] theorem State.originate_part_role (s : State) (tc kind dest : Nat) (payload : List Byte) : (s.originate tc kind dest payload).part.role = s.part.role :=
  Kept.part_role_eq (State.originate_kept s tc kind dest payload)
@[simp] theorem State.originate_part_strap (s : State) (tc kind dest : Nat) (payload : List Byte) : (s.originate tc kind dest payload).part.strap = s.part.strap :=
  Kept.part_strap_eq (State.originate_kept s tc kind dest payload)
@[simp] theorem State.originate_part_links (s : State) (tc kind dest : Nat) (payload : List Byte) : (s.originate tc kind dest payload).part.links = s.part.links :=
  Kept.part_links_eq (State.originate_kept s tc kind dest payload)
@[simp] theorem State.originate_part_serving (s : State) (tc kind dest : Nat) (payload : List Byte) : (s.originate tc kind dest payload).part.serving = s.part.serving :=
  Kept.part_serving_eq (State.originate_kept s tc kind dest payload)
@[simp] theorem State.originate_part_hubHeld (s : State) (tc kind dest : Nat) (payload : List Byte) : (s.originate tc kind dest payload).part.hubHeld = s.part.hubHeld :=
  Kept.part_hubHeld_eq (State.originate_kept s tc kind dest payload)
@[simp] theorem State.originate_part_roleChanged (s : State) (tc kind dest : Nat) (payload : List Byte) : (s.originate tc kind dest payload).part.roleChanged = s.part.roleChanged :=
  Kept.part_roleChanged_eq (State.originate_kept s tc kind dest payload)
@[simp] theorem State.originate_part_ident (s : State) (tc kind dest : Nat) (payload : List Byte) : (s.originate tc kind dest payload).part.ident = s.part.ident :=
  Kept.part_ident_eq (State.originate_kept s tc kind dest payload)
theorem State.originate_trust (s : State) (tc kind dest : Nat) (payload : List Byte) : (s.originate tc kind dest payload).trust.still = s.trust.still := Kept.trust_eq (State.originate_kept s tc kind dest payload)

@[simp] theorem State.place_now (s : State) (recType src time : Nat) (bytes : List Byte) : (s.place recType src time bytes).now = s.now := Kept.now_eq (State.place_kept s recType src time bytes)
@[simp] theorem State.place_dies (s : State) (recType src time : Nat) (bytes : List Byte) : (s.place recType src time bytes).dies = s.dies := Kept.dies_eq (State.place_kept s recType src time bytes)
@[simp] theorem State.place_cfg (s : State) (recType src time : Nat) (bytes : List Byte) : (s.place recType src time bytes).cfg = s.cfg := Kept.cfg_eq (State.place_kept s recType src time bytes)
@[simp] theorem State.place_sync (s : State) (recType src time : Nat) (bytes : List Byte) : (s.place recType src time bytes).sync = s.sync := Kept.sync_eq (State.place_kept s recType src time bytes)
@[simp] theorem State.place_swp (s : State) (recType src time : Nat) (bytes : List Byte) : (s.place recType src time bytes).swp = s.swp := Kept.swp_eq (State.place_kept s recType src time bytes)
@[simp] theorem State.place_safe (s : State) (recType src time : Nat) (bytes : List Byte) : (s.place recType src time bytes).safe = s.safe := Kept.safe_eq (State.place_kept s recType src time bytes)
@[simp] theorem State.place_power (s : State) (recType src time : Nat) (bytes : List Byte) : (s.place recType src time bytes).power = s.power := Kept.power_eq (State.place_kept s recType src time bytes)
@[simp] theorem State.place_selfTest (s : State) (recType src time : Nat) (bytes : List Byte) : (s.place recType src time bytes).selfTest = s.selfTest := Kept.selfTest_eq (State.place_kept s recType src time bytes)
@[simp] theorem State.place_chk (s : State) (recType src time : Nat) (bytes : List Byte) : (s.place recType src time bytes).chk = s.chk := Kept.chk_eq (State.place_kept s recType src time bytes)
@[simp] theorem State.place_therm (s : State) (recType src time : Nat) (bytes : List Byte) : (s.place recType src time bytes).therm = s.therm := Kept.therm_eq (State.place_kept s recType src time bytes)
@[simp] theorem State.place_part_cellDies (s : State) (recType src time : Nat) (bytes : List Byte) : (s.place recType src time bytes).part.cellDies = s.part.cellDies :=
  Kept.part_cellDies_eq (State.place_kept s recType src time bytes)
@[simp] theorem State.place_part_role (s : State) (recType src time : Nat) (bytes : List Byte) : (s.place recType src time bytes).part.role = s.part.role :=
  Kept.part_role_eq (State.place_kept s recType src time bytes)
@[simp] theorem State.place_part_strap (s : State) (recType src time : Nat) (bytes : List Byte) : (s.place recType src time bytes).part.strap = s.part.strap :=
  Kept.part_strap_eq (State.place_kept s recType src time bytes)
@[simp] theorem State.place_part_links (s : State) (recType src time : Nat) (bytes : List Byte) : (s.place recType src time bytes).part.links = s.part.links :=
  Kept.part_links_eq (State.place_kept s recType src time bytes)
@[simp] theorem State.place_part_serving (s : State) (recType src time : Nat) (bytes : List Byte) : (s.place recType src time bytes).part.serving = s.part.serving :=
  Kept.part_serving_eq (State.place_kept s recType src time bytes)
@[simp] theorem State.place_part_hubHeld (s : State) (recType src time : Nat) (bytes : List Byte) : (s.place recType src time bytes).part.hubHeld = s.part.hubHeld :=
  Kept.part_hubHeld_eq (State.place_kept s recType src time bytes)
@[simp] theorem State.place_part_roleChanged (s : State) (recType src time : Nat) (bytes : List Byte) : (s.place recType src time bytes).part.roleChanged = s.part.roleChanged :=
  Kept.part_roleChanged_eq (State.place_kept s recType src time bytes)
@[simp] theorem State.place_part_ident (s : State) (recType src time : Nat) (bytes : List Byte) : (s.place recType src time bytes).part.ident = s.part.ident :=
  Kept.part_ident_eq (State.place_kept s recType src time bytes)
theorem State.place_trust (s : State) (recType src time : Nat) (bytes : List Byte) : (s.place recType src time bytes).trust.still = s.trust.still := Kept.trust_eq (State.place_kept s recType src time bytes)

@[simp] theorem State.complete_now (s : State) (c : Cmd) (st : Status) (result : Nat) : (s.complete c st result).now = s.now := Kept.now_eq (State.complete_kept s c st result)
@[simp] theorem State.complete_dies (s : State) (c : Cmd) (st : Status) (result : Nat) : (s.complete c st result).dies = s.dies := Kept.dies_eq (State.complete_kept s c st result)
@[simp] theorem State.complete_cfg (s : State) (c : Cmd) (st : Status) (result : Nat) : (s.complete c st result).cfg = s.cfg := Kept.cfg_eq (State.complete_kept s c st result)
@[simp] theorem State.complete_sync (s : State) (c : Cmd) (st : Status) (result : Nat) : (s.complete c st result).sync = s.sync := Kept.sync_eq (State.complete_kept s c st result)
@[simp] theorem State.complete_swp (s : State) (c : Cmd) (st : Status) (result : Nat) : (s.complete c st result).swp = s.swp := Kept.swp_eq (State.complete_kept s c st result)
@[simp] theorem State.complete_safe (s : State) (c : Cmd) (st : Status) (result : Nat) : (s.complete c st result).safe = s.safe := Kept.safe_eq (State.complete_kept s c st result)
@[simp] theorem State.complete_power (s : State) (c : Cmd) (st : Status) (result : Nat) : (s.complete c st result).power = s.power := Kept.power_eq (State.complete_kept s c st result)
@[simp] theorem State.complete_selfTest (s : State) (c : Cmd) (st : Status) (result : Nat) : (s.complete c st result).selfTest = s.selfTest := Kept.selfTest_eq (State.complete_kept s c st result)
@[simp] theorem State.complete_chk (s : State) (c : Cmd) (st : Status) (result : Nat) : (s.complete c st result).chk = s.chk := Kept.chk_eq (State.complete_kept s c st result)
@[simp] theorem State.complete_therm (s : State) (c : Cmd) (st : Status) (result : Nat) : (s.complete c st result).therm = s.therm := Kept.therm_eq (State.complete_kept s c st result)
@[simp] theorem State.complete_part_cellDies (s : State) (c : Cmd) (st : Status) (result : Nat) : (s.complete c st result).part.cellDies = s.part.cellDies :=
  Kept.part_cellDies_eq (State.complete_kept s c st result)
@[simp] theorem State.complete_part_role (s : State) (c : Cmd) (st : Status) (result : Nat) : (s.complete c st result).part.role = s.part.role :=
  Kept.part_role_eq (State.complete_kept s c st result)
@[simp] theorem State.complete_part_strap (s : State) (c : Cmd) (st : Status) (result : Nat) : (s.complete c st result).part.strap = s.part.strap :=
  Kept.part_strap_eq (State.complete_kept s c st result)
@[simp] theorem State.complete_part_links (s : State) (c : Cmd) (st : Status) (result : Nat) : (s.complete c st result).part.links = s.part.links :=
  Kept.part_links_eq (State.complete_kept s c st result)
@[simp] theorem State.complete_part_serving (s : State) (c : Cmd) (st : Status) (result : Nat) : (s.complete c st result).part.serving = s.part.serving :=
  Kept.part_serving_eq (State.complete_kept s c st result)
@[simp] theorem State.complete_part_hubHeld (s : State) (c : Cmd) (st : Status) (result : Nat) : (s.complete c st result).part.hubHeld = s.part.hubHeld :=
  Kept.part_hubHeld_eq (State.complete_kept s c st result)
@[simp] theorem State.complete_part_roleChanged (s : State) (c : Cmd) (st : Status) (result : Nat) : (s.complete c st result).part.roleChanged = s.part.roleChanged :=
  Kept.part_roleChanged_eq (State.complete_kept s c st result)
@[simp] theorem State.complete_part_ident (s : State) (c : Cmd) (st : Status) (result : Nat) : (s.complete c st result).part.ident = s.part.ident :=
  Kept.part_ident_eq (State.complete_kept s c st result)
theorem State.complete_trust (s : State) (c : Cmd) (st : Status) (result : Nat) : (s.complete c st result).trust.still = s.trust.still := Kept.trust_eq (State.complete_kept s c st result)

@[simp] theorem State.completeX_now (s : State) (c : Cmd) (st : Status) (result xfer : Nat) : (s.completeX c st result xfer).now = s.now := Kept.now_eq (State.completeX_kept s c st result xfer)
@[simp] theorem State.completeX_dies (s : State) (c : Cmd) (st : Status) (result xfer : Nat) : (s.completeX c st result xfer).dies = s.dies := Kept.dies_eq (State.completeX_kept s c st result xfer)
@[simp] theorem State.completeX_cfg (s : State) (c : Cmd) (st : Status) (result xfer : Nat) : (s.completeX c st result xfer).cfg = s.cfg := Kept.cfg_eq (State.completeX_kept s c st result xfer)
@[simp] theorem State.completeX_sync (s : State) (c : Cmd) (st : Status) (result xfer : Nat) : (s.completeX c st result xfer).sync = s.sync := Kept.sync_eq (State.completeX_kept s c st result xfer)
@[simp] theorem State.completeX_swp (s : State) (c : Cmd) (st : Status) (result xfer : Nat) : (s.completeX c st result xfer).swp = s.swp := Kept.swp_eq (State.completeX_kept s c st result xfer)
@[simp] theorem State.completeX_safe (s : State) (c : Cmd) (st : Status) (result xfer : Nat) : (s.completeX c st result xfer).safe = s.safe := Kept.safe_eq (State.completeX_kept s c st result xfer)
@[simp] theorem State.completeX_power (s : State) (c : Cmd) (st : Status) (result xfer : Nat) : (s.completeX c st result xfer).power = s.power := Kept.power_eq (State.completeX_kept s c st result xfer)
@[simp] theorem State.completeX_selfTest (s : State) (c : Cmd) (st : Status) (result xfer : Nat) : (s.completeX c st result xfer).selfTest = s.selfTest := Kept.selfTest_eq (State.completeX_kept s c st result xfer)
@[simp] theorem State.completeX_chk (s : State) (c : Cmd) (st : Status) (result xfer : Nat) : (s.completeX c st result xfer).chk = s.chk := Kept.chk_eq (State.completeX_kept s c st result xfer)
@[simp] theorem State.completeX_therm (s : State) (c : Cmd) (st : Status) (result xfer : Nat) : (s.completeX c st result xfer).therm = s.therm := Kept.therm_eq (State.completeX_kept s c st result xfer)
@[simp] theorem State.completeX_part_cellDies (s : State) (c : Cmd) (st : Status) (result xfer : Nat) : (s.completeX c st result xfer).part.cellDies = s.part.cellDies :=
  Kept.part_cellDies_eq (State.completeX_kept s c st result xfer)
@[simp] theorem State.completeX_part_role (s : State) (c : Cmd) (st : Status) (result xfer : Nat) : (s.completeX c st result xfer).part.role = s.part.role :=
  Kept.part_role_eq (State.completeX_kept s c st result xfer)
@[simp] theorem State.completeX_part_strap (s : State) (c : Cmd) (st : Status) (result xfer : Nat) : (s.completeX c st result xfer).part.strap = s.part.strap :=
  Kept.part_strap_eq (State.completeX_kept s c st result xfer)
@[simp] theorem State.completeX_part_links (s : State) (c : Cmd) (st : Status) (result xfer : Nat) : (s.completeX c st result xfer).part.links = s.part.links :=
  Kept.part_links_eq (State.completeX_kept s c st result xfer)
@[simp] theorem State.completeX_part_serving (s : State) (c : Cmd) (st : Status) (result xfer : Nat) : (s.completeX c st result xfer).part.serving = s.part.serving :=
  Kept.part_serving_eq (State.completeX_kept s c st result xfer)
@[simp] theorem State.completeX_part_hubHeld (s : State) (c : Cmd) (st : Status) (result xfer : Nat) : (s.completeX c st result xfer).part.hubHeld = s.part.hubHeld :=
  Kept.part_hubHeld_eq (State.completeX_kept s c st result xfer)
@[simp] theorem State.completeX_part_roleChanged (s : State) (c : Cmd) (st : Status) (result xfer : Nat) : (s.completeX c st result xfer).part.roleChanged = s.part.roleChanged :=
  Kept.part_roleChanged_eq (State.completeX_kept s c st result xfer)
@[simp] theorem State.completeX_part_ident (s : State) (c : Cmd) (st : Status) (result xfer : Nat) : (s.completeX c st result xfer).part.ident = s.part.ident :=
  Kept.part_ident_eq (State.completeX_kept s c st result xfer)
theorem State.completeX_trust (s : State) (c : Cmd) (st : Status) (result xfer : Nat) : (s.completeX c st result xfer).trust.still = s.trust.still := Kept.trust_eq (State.completeX_kept s c st result xfer)

@[simp] theorem State.completeData_now (s : State) (c : Cmd) (st : Status) (result : Nat) (data : List Byte) : (s.completeData c st result data).now = s.now := Kept.now_eq (State.completeData_kept s c st result data)
@[simp] theorem State.completeData_dies (s : State) (c : Cmd) (st : Status) (result : Nat) (data : List Byte) : (s.completeData c st result data).dies = s.dies := Kept.dies_eq (State.completeData_kept s c st result data)
@[simp] theorem State.completeData_cfg (s : State) (c : Cmd) (st : Status) (result : Nat) (data : List Byte) : (s.completeData c st result data).cfg = s.cfg := Kept.cfg_eq (State.completeData_kept s c st result data)
@[simp] theorem State.completeData_sync (s : State) (c : Cmd) (st : Status) (result : Nat) (data : List Byte) : (s.completeData c st result data).sync = s.sync := Kept.sync_eq (State.completeData_kept s c st result data)
@[simp] theorem State.completeData_swp (s : State) (c : Cmd) (st : Status) (result : Nat) (data : List Byte) : (s.completeData c st result data).swp = s.swp := Kept.swp_eq (State.completeData_kept s c st result data)
@[simp] theorem State.completeData_safe (s : State) (c : Cmd) (st : Status) (result : Nat) (data : List Byte) : (s.completeData c st result data).safe = s.safe := Kept.safe_eq (State.completeData_kept s c st result data)
@[simp] theorem State.completeData_power (s : State) (c : Cmd) (st : Status) (result : Nat) (data : List Byte) : (s.completeData c st result data).power = s.power := Kept.power_eq (State.completeData_kept s c st result data)
@[simp] theorem State.completeData_selfTest (s : State) (c : Cmd) (st : Status) (result : Nat) (data : List Byte) : (s.completeData c st result data).selfTest = s.selfTest := Kept.selfTest_eq (State.completeData_kept s c st result data)
@[simp] theorem State.completeData_chk (s : State) (c : Cmd) (st : Status) (result : Nat) (data : List Byte) : (s.completeData c st result data).chk = s.chk := Kept.chk_eq (State.completeData_kept s c st result data)
@[simp] theorem State.completeData_therm (s : State) (c : Cmd) (st : Status) (result : Nat) (data : List Byte) : (s.completeData c st result data).therm = s.therm := Kept.therm_eq (State.completeData_kept s c st result data)
@[simp] theorem State.completeData_part_cellDies (s : State) (c : Cmd) (st : Status) (result : Nat) (data : List Byte) : (s.completeData c st result data).part.cellDies = s.part.cellDies :=
  Kept.part_cellDies_eq (State.completeData_kept s c st result data)
@[simp] theorem State.completeData_part_role (s : State) (c : Cmd) (st : Status) (result : Nat) (data : List Byte) : (s.completeData c st result data).part.role = s.part.role :=
  Kept.part_role_eq (State.completeData_kept s c st result data)
@[simp] theorem State.completeData_part_strap (s : State) (c : Cmd) (st : Status) (result : Nat) (data : List Byte) : (s.completeData c st result data).part.strap = s.part.strap :=
  Kept.part_strap_eq (State.completeData_kept s c st result data)
@[simp] theorem State.completeData_part_links (s : State) (c : Cmd) (st : Status) (result : Nat) (data : List Byte) : (s.completeData c st result data).part.links = s.part.links :=
  Kept.part_links_eq (State.completeData_kept s c st result data)
@[simp] theorem State.completeData_part_serving (s : State) (c : Cmd) (st : Status) (result : Nat) (data : List Byte) : (s.completeData c st result data).part.serving = s.part.serving :=
  Kept.part_serving_eq (State.completeData_kept s c st result data)
@[simp] theorem State.completeData_part_hubHeld (s : State) (c : Cmd) (st : Status) (result : Nat) (data : List Byte) : (s.completeData c st result data).part.hubHeld = s.part.hubHeld :=
  Kept.part_hubHeld_eq (State.completeData_kept s c st result data)
@[simp] theorem State.completeData_part_roleChanged (s : State) (c : Cmd) (st : Status) (result : Nat) (data : List Byte) : (s.completeData c st result data).part.roleChanged = s.part.roleChanged :=
  Kept.part_roleChanged_eq (State.completeData_kept s c st result data)
@[simp] theorem State.completeData_part_ident (s : State) (c : Cmd) (st : Status) (result : Nat) (data : List Byte) : (s.completeData c st result data).part.ident = s.part.ident :=
  Kept.part_ident_eq (State.completeData_kept s c st result data)
theorem State.completeData_trust (s : State) (c : Cmd) (st : Status) (result : Nat) (data : List Byte) : (s.completeData c st result data).trust.still = s.trust.still := Kept.trust_eq (State.completeData_kept s c st result data)

@[simp] theorem State.completeOpt_now (s : State) (c : Option Cmd) (st : Status) (result : Nat) : (s.completeOpt c st result).now = s.now := Kept.now_eq (State.completeOpt_kept s c st result)
@[simp] theorem State.completeOpt_dies (s : State) (c : Option Cmd) (st : Status) (result : Nat) : (s.completeOpt c st result).dies = s.dies := Kept.dies_eq (State.completeOpt_kept s c st result)
@[simp] theorem State.completeOpt_cfg (s : State) (c : Option Cmd) (st : Status) (result : Nat) : (s.completeOpt c st result).cfg = s.cfg := Kept.cfg_eq (State.completeOpt_kept s c st result)
@[simp] theorem State.completeOpt_sync (s : State) (c : Option Cmd) (st : Status) (result : Nat) : (s.completeOpt c st result).sync = s.sync := Kept.sync_eq (State.completeOpt_kept s c st result)
@[simp] theorem State.completeOpt_swp (s : State) (c : Option Cmd) (st : Status) (result : Nat) : (s.completeOpt c st result).swp = s.swp := Kept.swp_eq (State.completeOpt_kept s c st result)
@[simp] theorem State.completeOpt_safe (s : State) (c : Option Cmd) (st : Status) (result : Nat) : (s.completeOpt c st result).safe = s.safe := Kept.safe_eq (State.completeOpt_kept s c st result)
@[simp] theorem State.completeOpt_power (s : State) (c : Option Cmd) (st : Status) (result : Nat) : (s.completeOpt c st result).power = s.power := Kept.power_eq (State.completeOpt_kept s c st result)
@[simp] theorem State.completeOpt_selfTest (s : State) (c : Option Cmd) (st : Status) (result : Nat) : (s.completeOpt c st result).selfTest = s.selfTest := Kept.selfTest_eq (State.completeOpt_kept s c st result)
@[simp] theorem State.completeOpt_chk (s : State) (c : Option Cmd) (st : Status) (result : Nat) : (s.completeOpt c st result).chk = s.chk := Kept.chk_eq (State.completeOpt_kept s c st result)
@[simp] theorem State.completeOpt_therm (s : State) (c : Option Cmd) (st : Status) (result : Nat) : (s.completeOpt c st result).therm = s.therm := Kept.therm_eq (State.completeOpt_kept s c st result)
@[simp] theorem State.completeOpt_part_cellDies (s : State) (c : Option Cmd) (st : Status) (result : Nat) : (s.completeOpt c st result).part.cellDies = s.part.cellDies :=
  Kept.part_cellDies_eq (State.completeOpt_kept s c st result)
@[simp] theorem State.completeOpt_part_role (s : State) (c : Option Cmd) (st : Status) (result : Nat) : (s.completeOpt c st result).part.role = s.part.role :=
  Kept.part_role_eq (State.completeOpt_kept s c st result)
@[simp] theorem State.completeOpt_part_strap (s : State) (c : Option Cmd) (st : Status) (result : Nat) : (s.completeOpt c st result).part.strap = s.part.strap :=
  Kept.part_strap_eq (State.completeOpt_kept s c st result)
@[simp] theorem State.completeOpt_part_links (s : State) (c : Option Cmd) (st : Status) (result : Nat) : (s.completeOpt c st result).part.links = s.part.links :=
  Kept.part_links_eq (State.completeOpt_kept s c st result)
@[simp] theorem State.completeOpt_part_serving (s : State) (c : Option Cmd) (st : Status) (result : Nat) : (s.completeOpt c st result).part.serving = s.part.serving :=
  Kept.part_serving_eq (State.completeOpt_kept s c st result)
@[simp] theorem State.completeOpt_part_hubHeld (s : State) (c : Option Cmd) (st : Status) (result : Nat) : (s.completeOpt c st result).part.hubHeld = s.part.hubHeld :=
  Kept.part_hubHeld_eq (State.completeOpt_kept s c st result)
@[simp] theorem State.completeOpt_part_roleChanged (s : State) (c : Option Cmd) (st : Status) (result : Nat) : (s.completeOpt c st result).part.roleChanged = s.part.roleChanged :=
  Kept.part_roleChanged_eq (State.completeOpt_kept s c st result)
@[simp] theorem State.completeOpt_part_ident (s : State) (c : Option Cmd) (st : Status) (result : Nat) : (s.completeOpt c st result).part.ident = s.part.ident :=
  Kept.part_ident_eq (State.completeOpt_kept s c st result)
theorem State.completeOpt_trust (s : State) (c : Option Cmd) (st : Status) (result : Nat) : (s.completeOpt c st result).trust.still = s.trust.still := Kept.trust_eq (State.completeOpt_kept s c st result)

@[simp] theorem State.dieEventFull_now (s : State) (k : Nat) (e : Ev) (t : Nat) (full : List Byte) : (s.dieEventFull k e t full).now = s.now := by
  unfold State.dieEventFull
  split <;> simp
@[simp] theorem State.dieEventFull_cfg (s : State) (k : Nat) (e : Ev) (t : Nat) (full : List Byte) : (s.dieEventFull k e t full).cfg = s.cfg := by
  unfold State.dieEventFull
  split <;> simp
@[simp] theorem State.dieEventFull_sync (s : State) (k : Nat) (e : Ev) (t : Nat) (full : List Byte) : (s.dieEventFull k e t full).sync = s.sync := by
  unfold State.dieEventFull
  split <;> simp
@[simp] theorem State.dieEventFull_swp (s : State) (k : Nat) (e : Ev) (t : Nat) (full : List Byte) : (s.dieEventFull k e t full).swp = s.swp := by
  unfold State.dieEventFull
  split <;> simp
@[simp] theorem State.dieEventFull_safe (s : State) (k : Nat) (e : Ev) (t : Nat) (full : List Byte) : (s.dieEventFull k e t full).safe = s.safe := by
  unfold State.dieEventFull
  split <;> simp
@[simp] theorem State.dieEventFull_power (s : State) (k : Nat) (e : Ev) (t : Nat) (full : List Byte) : (s.dieEventFull k e t full).power = s.power := by
  unfold State.dieEventFull
  split <;> simp
@[simp] theorem State.dieEventFull_selfTest (s : State) (k : Nat) (e : Ev) (t : Nat) (full : List Byte) : (s.dieEventFull k e t full).selfTest = s.selfTest := by
  unfold State.dieEventFull
  split <;> simp
@[simp] theorem State.dieEventFull_chk (s : State) (k : Nat) (e : Ev) (t : Nat) (full : List Byte) : (s.dieEventFull k e t full).chk = s.chk := by
  unfold State.dieEventFull
  split <;> simp
@[simp] theorem State.dieEventFull_therm (s : State) (k : Nat) (e : Ev) (t : Nat) (full : List Byte) : (s.dieEventFull k e t full).therm = s.therm := by
  unfold State.dieEventFull
  split <;> simp
@[simp] theorem State.dieEventAt_now (s : State) (k : Nat) (e : Ev) (t : Nat) : (s.dieEventAt k e t).now = s.now := State.dieEventFull_now ..
@[simp] theorem State.dieEventAt_cfg (s : State) (k : Nat) (e : Ev) (t : Nat) : (s.dieEventAt k e t).cfg = s.cfg := State.dieEventFull_cfg ..
@[simp] theorem State.dieEventAt_sync (s : State) (k : Nat) (e : Ev) (t : Nat) : (s.dieEventAt k e t).sync = s.sync := State.dieEventFull_sync ..
@[simp] theorem State.dieEventAt_swp (s : State) (k : Nat) (e : Ev) (t : Nat) : (s.dieEventAt k e t).swp = s.swp := State.dieEventFull_swp ..
@[simp] theorem State.dieEventAt_safe (s : State) (k : Nat) (e : Ev) (t : Nat) : (s.dieEventAt k e t).safe = s.safe := State.dieEventFull_safe ..
@[simp] theorem State.dieEventAt_power (s : State) (k : Nat) (e : Ev) (t : Nat) : (s.dieEventAt k e t).power = s.power := State.dieEventFull_power ..
@[simp] theorem State.dieEventAt_selfTest (s : State) (k : Nat) (e : Ev) (t : Nat) : (s.dieEventAt k e t).selfTest = s.selfTest := State.dieEventFull_selfTest ..
@[simp] theorem State.dieEventAt_chk (s : State) (k : Nat) (e : Ev) (t : Nat) : (s.dieEventAt k e t).chk = s.chk := State.dieEventFull_chk ..
@[simp] theorem State.dieEventAt_therm (s : State) (k : Nat) (e : Ev) (t : Nat) : (s.dieEventAt k e t).therm = s.therm := State.dieEventFull_therm ..
@[simp] theorem State.dieEvent_now (s : State) (k : Nat) (e : Ev) : (s.dieEvent k e).now = s.now := State.dieEventAt_now ..
@[simp] theorem State.dieEvent_cfg (s : State) (k : Nat) (e : Ev) : (s.dieEvent k e).cfg = s.cfg := State.dieEventAt_cfg ..
@[simp] theorem State.dieEvent_sync (s : State) (k : Nat) (e : Ev) : (s.dieEvent k e).sync = s.sync := State.dieEventAt_sync ..
@[simp] theorem State.dieEvent_swp (s : State) (k : Nat) (e : Ev) : (s.dieEvent k e).swp = s.swp := State.dieEventAt_swp ..
@[simp] theorem State.dieEvent_safe (s : State) (k : Nat) (e : Ev) : (s.dieEvent k e).safe = s.safe := State.dieEventAt_safe ..
@[simp] theorem State.dieEvent_power (s : State) (k : Nat) (e : Ev) : (s.dieEvent k e).power = s.power := State.dieEventAt_power ..
@[simp] theorem State.dieEvent_selfTest (s : State) (k : Nat) (e : Ev) : (s.dieEvent k e).selfTest = s.selfTest := State.dieEventAt_selfTest ..
@[simp] theorem State.dieEvent_chk (s : State) (k : Nat) (e : Ev) : (s.dieEvent k e).chk = s.chk := State.dieEventAt_chk ..
@[simp] theorem State.dieEvent_therm (s : State) (k : Nat) (e : Ev) : (s.dieEvent k e).therm = s.therm := State.dieEventAt_therm ..
@[simp] theorem State.dieRecord_now (s : State) (k recType time : Nat) (bytes : List Byte) : (s.dieRecord k recType time bytes).now = s.now := State.modDie_now ..
@[simp] theorem State.dieRecord_cfg (s : State) (k recType time : Nat) (bytes : List Byte) : (s.dieRecord k recType time bytes).cfg = s.cfg := State.modDie_cfg ..
@[simp] theorem State.dieRecord_sync (s : State) (k recType time : Nat) (bytes : List Byte) : (s.dieRecord k recType time bytes).sync = s.sync := State.modDie_sync ..
@[simp] theorem State.dieRecord_swp (s : State) (k recType time : Nat) (bytes : List Byte) : (s.dieRecord k recType time bytes).swp = s.swp := State.modDie_swp ..
@[simp] theorem State.dieRecord_safe (s : State) (k recType time : Nat) (bytes : List Byte) : (s.dieRecord k recType time bytes).safe = s.safe := State.modDie_safe ..
@[simp] theorem State.dieRecord_power (s : State) (k recType time : Nat) (bytes : List Byte) : (s.dieRecord k recType time bytes).power = s.power := State.modDie_power ..
@[simp] theorem State.dieRecord_selfTest (s : State) (k recType time : Nat) (bytes : List Byte) : (s.dieRecord k recType time bytes).selfTest = s.selfTest := State.modDie_selfTest ..
@[simp] theorem State.dieRecord_chk (s : State) (k recType time : Nat) (bytes : List Byte) : (s.dieRecord k recType time bytes).chk = s.chk := State.modDie_chk ..
@[simp] theorem State.dieRecord_therm (s : State) (k recType time : Nat) (bytes : List Byte) : (s.dieRecord k recType time bytes).therm = s.therm := State.modDie_therm ..
@[simp] theorem State.settleChannels_now (s : State) (k : Nat) : (s.settleChannels k).now = s.now := State.modDie_now ..
@[simp] theorem State.settleChannels_cfg (s : State) (k : Nat) : (s.settleChannels k).cfg = s.cfg := State.modDie_cfg ..
@[simp] theorem State.settleChannels_sync (s : State) (k : Nat) : (s.settleChannels k).sync = s.sync := State.modDie_sync ..
@[simp] theorem State.settleChannels_swp (s : State) (k : Nat) : (s.settleChannels k).swp = s.swp := State.modDie_swp ..
@[simp] theorem State.settleChannels_safe (s : State) (k : Nat) : (s.settleChannels k).safe = s.safe := State.modDie_safe ..
@[simp] theorem State.settleChannels_power (s : State) (k : Nat) : (s.settleChannels k).power = s.power := State.modDie_power ..
@[simp] theorem State.settleChannels_selfTest (s : State) (k : Nat) : (s.settleChannels k).selfTest = s.selfTest := State.modDie_selfTest ..
@[simp] theorem State.settleChannels_chk (s : State) (k : Nat) : (s.settleChannels k).chk = s.chk := State.modDie_chk ..
@[simp] theorem State.settleChannels_therm (s : State) (k : Nat) : (s.settleChannels k).therm = s.therm := State.modDie_therm ..

/-- An island that is fitted has a number above 0. -/
theorem State.fitted_pos {s : State} {k : Nat} (h : s.fitted k = true) : k ≠ 0 := by
  intro e
  subst e
  simp [State.fitted] at h

/-- What a command does on a die that is fitted and present. -/
theorem State.onDie_of {s : State} {k : Nat} {d : Die} {f : Die → State} (hf : s.fitted k = true) (hd : s.die? k = some d) : s.onDie k f = f d := by
  unfold State.onDie
  rw [if_pos hf, hd]

/-- A command that names an island that is not fitted does nothing. -/
theorem State.onDie_unfitted {s : State} {k : Nat} {f : Die → State} (hf : s.fitted k = false) : s.onDie k f = s := by
  unfold State.onDie
  rw [hf]
  rfl

/-- The die changed. -/
theorem State.die?_modDie_same {s : State} {k : Nat} (f : Die → Die) (hk : k ≠ 0) : (s.modDie k f).die? k = (s.die? k).map f := by
  unfold State.die?
  rw [if_neg hk, if_neg hk, State.modDie_dies s k f hk]
  exact modNth_getElem?_same f (k - 1) s.dies

/-- Every other die stays. -/
theorem State.die?_modDie_other {s : State} {k j : Nat} (f : Die → Die) (hj : j ≠ k) : (s.modDie k f).die? j = s.die? j := by
  by_cases hk : k = 0
  · subst hk
    rfl
  · unfold State.die?
    by_cases h0 : j = 0
    · rw [if_pos h0, if_pos h0]
    · rw [if_neg h0, if_neg h0, State.modDie_dies s k f hk]
      exact modNth_getElem?_other f s.dies (by omega)

/-- Which dies there are depends on the dies alone. -/
theorem State.die?_congr {s u : State} (h : s.dies = u.dies) (k : Nat) : s.die? k = u.die? k := by
  unfold State.die?
  rw [h]

/-- In RUN a command only notes the activity. -/
theorem State.undoze_of {s : State} (hr : s.power.st = 0) : s.undoze = s.noteActivity := by
  unfold State.undoze
  exact if_neg (by rw [show s.noteActivity.power.st = s.power.st from rfl, hr]; decide)

theorem State.refusal_markRan (s : State) (code : Nat) (c d : Cmd) : (s.markRan d).refusal code c = s.refusal code c := rfl

/-- A command served in RUN does what its opcode does. -/
theorem State.serve_of {s : State} {code : Nat} {c : Cmd} {mine : Bool} {f : State → State} (he : s.executes = true)
    (hm : s.isMine code c = true) (ha : mine = true) (hp : s.present c = true) (hr : s.power.st = 0) (hn : s.refusal code c = none) :
    s.serve code c mine f = f (s.noteActivity.markRan c) := by
  unfold State.serve
  rw [he, hm, ha, hp, State.undoze_of hr]
  show (match (s.noteActivity.markRan c).refusal code c with
    | some st => (s.noteActivity.markRan c).complete c st 0
    | none => f (s.noteActivity.markRan c)) = _
  rw [State.refusal_markRan, State.refusal_noteActivity, hn]

/-- A refused command completes with the refusal and does nothing else. -/
theorem State.serve_refused {s : State} {code : Nat} {c : Cmd} {mine : Bool} {f : State → State} {st : Status} (he : s.executes = true)
    (hm : s.isMine code c = true) (ha : mine = true) (hp : s.present c = true) (hr : s.power.st = 0) (hn : s.refusal code c = some st) :
    s.serve code c mine f = (s.noteActivity.markRan c).complete c st 0 := by
  unfold State.serve
  rw [he, hm, ha, hp, State.undoze_of hr]
  show (match (s.noteActivity.markRan c).refusal code c with
    | some st => (s.noteActivity.markRan c).complete c st 0
    | none => f (s.noteActivity.markRan c)) = _
  rw [State.refusal_markRan, State.refusal_noteActivity, hn]

/-- An event of a die changes no die but for what it holds back for the hub. -/
theorem State.dieEventFull_die? (s : State) (k : Nat) (e : Ev) (t : Nat) (full : List Byte) (j : Nat) :
    ∃ g : Die → Die, (∀ d, ∃ l n, g d = { d with t0Events := l, t0Drop := n }) ∧ (s.dieEventFull k e t full).die? j = (s.die? j).map g := by
  have same : ∀ u : State, u.die? j = s.die? j → ∃ g : Die → Die, (∀ d, ∃ l n, g d = { d with t0Events := l, t0Drop := n }) ∧
      u.die? j = (s.die? j).map g := fun u h => ⟨id, fun d => ⟨d.t0Events, d.t0Drop, rfl⟩, by rw [h, Option.map_id]; rfl⟩
  unfold State.dieEventFull
  split
  · exact same _ (State.die?_congr (State.eventAt_dies ..) j)
  · by_cases hk : k = 0
    · subst hk
      exact same _ rfl
    · by_cases hj : j = k
      · subst hj
        refine ⟨_, fun d => ?_, State.die?_modDie_same _ hk⟩
        split
        · exact ⟨_, d.t0Drop, rfl⟩
        · exact ⟨d.t0Events, _, rfl⟩
      · exact same _ (State.die?_modDie_other _ hj)

/-- What a changed die shows. -/
theorem State.shows_modDie {α : Type} {s : State} {k : Nat} {d : Die} {g : Die → Die} {f : Die → α} {v : α} (hk : k ≠ 0) (hd : s.die? k = some d)
    (h : f (g d) = v) : (s.modDie k g).dieShows k f v := by
  unfold State.dieShows
  rw [State.die?_modDie_same _ hk, hd]
  simp [h]

/-- Settling the channels touches the protection state alone. -/
theorem State.shows_settleChannels {α : Type} {s : State} {k : Nat} {f : Die → α} {v : α} (hk : k ≠ 0) (hp : ∀ (d : Die) (p : ProtState), f { d with prot := p } = f d)
    (h : s.dieShows k f v) : (s.settleChannels k).dieShows k f v := by
  unfold State.settleChannels State.dieShows at *
  dsimp only
  rw [State.die?_modDie_same _ hk]
  cases hd : s.die? k with
  | none => rw [hd] at h; cases h
  | some d => rw [hd] at h; simpa [hp] using h

/-- An event of a die touches what it holds back alone. -/
theorem State.shows_dieEventFull {α : Type} {s : State} {k j : Nat} {e : Ev} {t : Nat} {full : List Byte} {f : Die → α} {v : α}
    (hp : ∀ (d : Die) l n, f { d with t0Events := l, t0Drop := n } = f d) (h : s.dieShows k f v) :
    (s.dieEventFull j e t full).dieShows k f v := by
  obtain ⟨g, hg, hd⟩ := State.dieEventFull_die? s j e t full k
  unfold State.dieShows at *
  rw [hd, Option.map_map, ← h]
  congr 1
  funext d
  obtain ⟨l, n, e⟩ := hg d
  simpa [e] using hp d l n

/-- A record of a die touches T0 alone. -/
theorem State.shows_dieRecord {α : Type} {s : State} {k r tm : Nat} {b : List Byte} {f : Die → α} {v : α} (hk : k ≠ 0)
    (hp : ∀ (d : Die) l n, f { d with t0 := l, t0Drop := n } = f d) (h : s.dieShows k f v) : (s.dieRecord k r tm b).dieShows k f v := by
  unfold State.dieRecord State.dieShows at *
  rw [State.die?_modDie_same _ hk]
  cases hd : s.die? k with
  | none => rw [hd] at h; cases h
  | some d =>
    rw [hd] at h
    simp only [Option.map_some, Option.some.injEq] at h ⊢
    split
    · rw [← h]; exact hp d _ d.t0Drop
    · rw [← h]; exact hp d d.t0 _

end Sys2Proof.Machine
end

