-- ==== Sys2Proof/Laws/Fixed.lean ====
section
/-! SUPPORT. The shape of the laws that say an operation leaves the guarded part of the state alone. -/

namespace Sys2Proof.Machine

theorem fixed_mk (now part dies cfg locus hif link sync swp safe power trust selfTest chk therm out freeCtr pending) :
    (State.mk now part dies cfg locus hif link sync swp safe power trust selfTest chk therm out freeCtr pending).fixed =
      { pending := pending, ident := part.ident, cellDies := part.cellDies, store := part.store, life := trust.life,
        journal := trust.journal, fuseReturned := trust.fuseReturned, fk := trust.fk, ik := trust.ik, ownerRoot := trust.ownerRoot,
        sealed_ := trust.sealed_, svnSpan := trust.svnSpan, svnApex := trust.svnApex, ownerGen := trust.ownerGen,
        active := cfg.a, epoch := cfg.epoch } := rfl

/-- Each guarded part read through `fixed`. -/
theorem guarded (s : State) :
    s.pending = s.fixed.pending ∧ s.part.ident = s.fixed.ident ∧ s.part.cellDies = s.fixed.cellDies ∧ s.part.store = s.fixed.store ∧
      s.trust.life = s.fixed.life ∧ s.trust.journal = s.fixed.journal ∧ s.trust.fuseReturned = s.fixed.fuseReturned ∧
      s.trust.fk = s.fixed.fk ∧ s.trust.ik = s.fixed.ik ∧ s.trust.ownerRoot = s.fixed.ownerRoot ∧
      s.trust.sealed_ = s.fixed.sealed_ ∧ s.trust.svnSpan = s.fixed.svnSpan ∧ s.trust.svnApex = s.fixed.svnApex ∧
      s.trust.ownerGen = s.fixed.ownerGen ∧ s.cfg.a = s.fixed.active ∧ s.cfg.epoch = s.fixed.epoch :=
  ⟨rfl, rfl, rfl, rfl, rfl, rfl, rfl, rfl, rfl, rfl, rfl, rfl, rfl, rfl, rfl, rfl⟩

theorem fixed_ite {c : Prop} {_ : Decidable c} {a b : State} {x : Fixed} (ha : a.fixed = x) (hb : b.fixed = x) :
    (if c then a else b).fixed = x := by split <;> assumption

theorem foldl_fixed {α : Type} {f : State → α → State} (h : ∀ s a, (f s a).fixed = s.fixed) (l : List α) (s : State) :
    (l.foldl f s).fixed = s.fixed := by
  induction l generalizing s with
  | nil => rfl
  | cons a l ih => exact (ih _).trans (h _ _)

theorem foldl_fixed_snd {α β : Type} {f : β × State → α → β × State} (h : ∀ s a, (f s a).2.fixed = s.2.fixed) (l : List α)
    (s : β × State) : (l.foldl f s).2.fixed = s.2.fixed := by
  induction l generalizing s with
  | nil => rfl
  | cons a l ih => exact (ih _).trans (h _ _)

theorem foldl_fixed_fst {α β : Type} {f : State × β → α → State × β} (h : ∀ s a, (f s a).1.fixed = s.1.fixed) (l : List α)
    (s : State × β) : (l.foldl f s).1.fixed = s.1.fixed := by
  induction l generalizing s with
  | nil => rfl
  | cons a l ih => exact (ih _).trans (h _ _)

theorem onDie_fixed {s : State} {k : Nat} {f : Die → State} {x : Fixed} (h : ∀ d, (f d).fixed = x) (hs : s.fixed = x) :
    (s.onDie k f).fixed = x := by
  unfold State.onDie
  split
  · split
    · exact h _
    · exact hs
  · exact hs

end Sys2Proof.Machine
end

