-- ==== Sys2Proof/Laws/FixedAccess.lean ====
section
/-! SUPPORT. Operations of state access, links and the hub’s records leave the guarded part of the state alone. -/

namespace Sys2Proof.Machine

set_option linter.all false
set_option maxRecDepth 4000

theorem State.modDie_fixed (s : State) (k : Nat) (f : Die → Die) : (State.modDie s k f).fixed = s.fixed := by
  unfold State.modDie
  split <;> simp only [fixed_mk, guarded]

theorem State.modDies_fixed (s : State) (f : Nat → Die → Die) : (State.modDies s f).fixed = s.fixed := by
  unfold State.modDies
  repeat' first
    | with_reducible rfl
    | with_reducible apply fixed_ite
    | with_reducible refine (foldl_fixed (fun _ _ => ?_) _ _).trans ?_
    | (simp only [↓State.modDie_fixed, fixed_mk]; done)
    | split
    | simp only [↓State.modDie_fixed, fixed_mk, guarded]

theorem State.takeBlock_fixed (s : State) (block target : Nat) : (State.takeBlock s block target).fixed = s.fixed := rfl

theorem State.takeRange_fixed (s : State) (block target lo hi : Nat) : (State.takeRange s block target lo hi).fixed = s.fixed := rfl

theorem State.drawBits_fixed (s : State) (w : Nat) : (State.drawBits s w).2.fixed = s.fixed := rfl

theorem State.drawRat_fixed (s : State) : (State.drawRat s).2.fixed = s.fixed := rfl

theorem State.drawBytes_fixed (s : State) (n : Nat) : (State.drawBytes s n).2.fixed = s.fixed := by
  unfold State.drawBytes
  simp only [↓State.drawBits_fixed, fixed_mk, guarded]

theorem State.drawRats_fixed (s : State) (n : Nat) : (s.drawRats n).2.fixed = s.fixed := by
  induction n generalizing s with
  | zero => rfl
  | succ n ih => exact (ih _).trans rfl

theorem State.modPort_fixed (s : State) (side : Side) (f : Port → Port) : (State.modPort s side f).fixed = s.fixed := by
  unfold State.modPort
  split <;> simp only [fixed_mk, guarded]

theorem State.emit_fixed (s : State) (o : Out) : (State.emit s o).fixed = s.fixed := rfl

theorem State.noteHolder_fixed (s : State) : (State.noteHolder s).fixed = s.fixed := by
  unfold State.noteHolder
  split <;> simp only [fixed_mk, guarded]

theorem State.holderAnew_fixed (s : State) : (State.holderAnew s).fixed = s.fixed := rfl

theorem State.enqueue_fixed (s : State) (side : Side) (f : Frame) : (State.enqueue s side f).fixed = s.fixed := by
  unfold State.enqueue
  simp only [↓State.modPort_fixed, fixed_mk, guarded]

theorem State.countNoRoute_fixed (s : State) : (State.countNoRoute s).fixed = s.fixed := rfl

theorem State.forwardBy_fixed (s : State) (side : Side) (f : Frame) : (State.forwardBy s side f).fixed = s.fixed := by
  unfold State.forwardBy
  simp only [↓State.enqueue_fixed, fixed_mk, guarded]

theorem State.egress_fixed (s : State) (side : Side) (f : Frame) : (State.egress s side f).fixed = s.fixed := by
  unfold State.egress
  repeat' first
    | with_reducible rfl
    | with_reducible apply fixed_ite
    | (simp only [↓State.forwardBy_fixed, ↓State.countNoRoute_fixed, fixed_mk]; done)
    | split
    | simp only [↓State.forwardBy_fixed, ↓State.countNoRoute_fixed, fixed_mk, guarded]

theorem State.dispatchFrame_fixed (s : State) (dest : Nat) (f : Frame) : (State.dispatchFrame s dest f).fixed = s.fixed := by
  unfold State.dispatchFrame
  repeat' first
    | with_reducible rfl
    | with_reducible apply fixed_ite
    | (simp only [↓State.forwardBy_fixed, ↓State.enqueue_fixed, ↓State.egress_fixed, fixed_mk]; done)
    | split
    | simp only [↓State.forwardBy_fixed, ↓State.enqueue_fixed, ↓State.egress_fixed, fixed_mk, guarded]

theorem State.originate_fixed (s : State) (tc kind dest : Nat) (payload : List Byte) : (State.originate s tc kind dest payload).fixed = s.fixed := by
  unfold State.originate
  repeat' first
    | with_reducible rfl
    | with_reducible apply fixed_ite
    | with_reducible refine (foldl_fixed (fun _ _ => ?_) _ _).trans ?_
    | (simp only [↓State.dispatchFrame_fixed, fixed_mk]; done)
    | split
    | simp only [↓State.dispatchFrame_fixed, fixed_mk, guarded]

theorem State.flushUnrouted_fixed (s : State) : (State.flushUnrouted s).fixed = s.fixed := by
  unfold State.flushUnrouted
  repeat' first
    | with_reducible rfl
    | with_reducible apply fixed_ite
    | with_reducible refine (foldl_fixed (fun _ _ => ?_) _ _).trans ?_
    | (simp only [↓State.originate_fixed, fixed_mk]; done)
    | split
    | simp only [↓State.originate_fixed, fixed_mk, guarded]

theorem State.noteForward_fixed (s : State) (side : Side) (f : Frame) : (State.noteForward s side f).fixed = s.fixed := by
  unfold State.noteForward
  split <;> simp only [fixed_mk, guarded]

theorem State.accept_fixed (s : State) (f : Frame) : (State.accept s f).2.fixed = s.fixed := by
  unfold State.accept
  repeat' first
    | with_reducible rfl
    | with_reducible apply fixed_ite
    | (simp only [fixed_mk]; done)
    | split
    | simp only [fixed_mk, guarded]

theorem State.assemble_fixed (s : State) (f : Frame) : (State.assemble s f).2.fixed = s.fixed := by
  unfold State.assemble
  repeat' first
    | with_reducible rfl
    | with_reducible apply fixed_ite
    | (simp only [fixed_mk]; done)
    | split
    | simp only [fixed_mk, guarded]

theorem State.evict_fixed (s : State) (v : Rec) : (State.evict s v).fixed = s.fixed := rfl

theorem State.evictFor_fixed {s : State} {tiers : List Tier} {n fuel : Nat} {r : Tier × State}
    (h : s.evictFor tiers n fuel = some r) : r.2.fixed = s.fixed := by
  induction fuel generalizing s with
  | zero => cases h
  | succ m ih =>
    unfold State.evictFor at h
    split at h
    · cases h; rfl
    · split at h
      · cases h
      · exact (ih h).trans rfl

theorem State.makeWay_fixed (s : State) (n fuel : Nat) : (s.makeWay n fuel).2.fixed = s.fixed := by
  induction fuel generalizing s with
  | zero => rfl
  | succ m ih =>
    unfold State.makeWay
    split
    · rfl
    · split
      · exact (ih _).trans rfl
      · split
        · exact (ih _).trans rfl
        · rfl

theorem State.releaseD3_fixed (s : State) (id : Nat) (fetched : Bool) : (State.releaseD3 s id fetched).fixed = s.fixed := rfl

theorem State.reclaim_fixed {s t : State} {n : Nat} (h : s.reclaim n = some t) : t.fixed = s.fixed := by
  induction n generalizing s with
  | zero => cases h
  | succ m ih =>
    unfold State.reclaim at h
    split at h
    · cases h; rfl
    · split at h
      · cases h
      · exact (ih h).trans rfl

theorem State.targetBlock_fixed {s : State} {but : List Nat} {spare : Bool} {r : Blk × State}
    (h : s.targetBlock but spare = some r) : r.2.fixed = s.fixed := by
  unfold State.targetBlock at h
  split at h
  · cases h; rfl
  · split at h
    · cases h; rfl
    · obtain ⟨u, hu, h⟩ := Option.bind_eq_some_iff.1 h
      obtain ⟨b, _, rfl⟩ := Option.map_eq_some_iff.1 h
      exact State.reclaim_fixed hu

theorem State.startUnit_fixed (s : State) (admitted : Bool) : (s.startUnit admitted).fixed = s.fixed := by
  unfold State.startUnit
  split
  · refine fixed_ite rfl ?_
    dsimp only
    split
    · rfl
    · rename_i r h
      exact (State.targetBlock_fixed h).symm ▸ rfl
  · rfl

theorem State.writer_fixed (s : State) : (State.writer s).fixed = s.fixed := by
  unfold State.writer
  split <;> simp only [↓State.startUnit_fixed, fixed_mk, guarded]

theorem State.countSub_fixed (s : State) (sub count : Nat) : (State.countSub s sub count).fixed = s.fixed := rfl

theorem State.countDrop_fixed (s : State) (cls : Nat) : (State.countDrop s cls).fixed = s.fixed := rfl

theorem State.noteClaims_fixed (s : State) (id : Nat) (claims : List Nat) : (State.noteClaims s id claims).fixed = s.fixed := rfl

theorem State.dropClaim_fixed (s : State) (id sub : Nat) : (State.dropClaim s id sub).fixed = s.fixed := by
  unfold State.dropClaim
  simp only [↓State.releaseD3_fixed, fixed_mk, guarded]

theorem State.unclaim_fixed (s : State) (w : StrWait) : (State.unclaim s w).fixed = s.fixed := by
  unfold State.unclaim
  split <;> simp only [↓State.originate_fixed, ↓State.dropClaim_fixed, fixed_mk, guarded]

theorem State.unclaimTo_fixed (s : State) (sub recType src time : Nat) : (State.unclaimTo s sub recType src time).fixed = s.fixed := by
  unfold State.unclaimTo
  repeat' first
    | with_reducible rfl
    | with_reducible apply fixed_ite
    | with_reducible refine (foldl_fixed (fun _ _ => ?_) _ _).trans ?_
    | (simp only [↓State.dropClaim_fixed, fixed_mk]; done)
    | split
    | simp only [↓State.dropClaim_fixed, fixed_mk, guarded]

theorem State.queueClaim_fixed (s : State) (w : StrWait) : (s.queueClaim w).2.fixed = s.fixed := by
  unfold State.queueClaim
  dsimp only
  have h : ∀ (l : List StrWait) (h' : HifState), (l.foldl (fun (s : State) x => s.unclaim x) { s with hif := h' }).fixed = s.fixed :=
    fun l h' => (foldl_fixed (fun _ _ => State.unclaim_fixed ..) _ _).trans rfl
  split
  · exact h _ _
  · exact (State.countDrop_fixed ..).trans (fixed_ite ((State.unclaim_fixed ..).trans (h _ _)) (h _ _))

theorem State.claimAll_fixed (s : State) (pos recType src time cls : Nat) (bytes : List Byte) (ref : Option Nat) :
    (s.claimAll pos recType src time cls bytes ref).2.fixed = s.fixed := by
  unfold State.claimAll
  refine (foldl_fixed_snd (fun acc x => ?_) _ _).trans rfl
  dsimp only
  split
  · split
    · exact (State.queueClaim_fixed ..).trans (State.countSub_fixed ..)
    · exact State.countSub_fixed ..
  · rfl

theorem State.sendClaims_fixed (s : State) (recType src time : Nat) (bytes : List Byte) : (State.sendClaims s recType src time bytes).2.fixed = s.fixed := by
  unfold State.sendClaims
  repeat' first
    | with_reducible rfl
    | with_reducible apply fixed_ite
    | with_reducible refine (foldl_fixed (fun _ _ => ?_) _ _).trans ?_
    | (simp only [↓State.originate_fixed, ↓State.countSub_fixed, fixed_mk]; done)
    | split
    | simp only [↓State.originate_fixed, ↓State.countSub_fixed, fixed_mk, guarded]

theorem State.claimNew_fixed (s : State) (id recType src time cls : Nat) (bytes : List Byte) : (State.claimNew s id recType src time cls bytes).fixed = s.fixed := by
  unfold State.claimNew
  split <;> simp only [↓State.sendClaims_fixed, ↓State.noteClaims_fixed, ↓State.claimAll_fixed, ↓State.releaseD3_fixed, fixed_mk, guarded]

theorem State.stageD0_fixed (s : State) (recType src time : Nat) (bytes : List Byte) : (State.stageD0 s recType src time bytes).fixed = s.fixed := by
  unfold State.stageD0
  split <;> simp only [↓State.claimNew_fixed, ↓State.makeWay_fixed, fixed_mk, guarded]

theorem State.queueBb_fixed (s : State) (w : BbWait) : (State.queueBb s w).fixed = s.fixed := rfl

theorem State.eventAt_fixed (s : State) (e : Ev) (t : Nat) (full : Option (Nat × List Byte)) : (State.eventAt s e t full).fixed = s.fixed := by
  unfold State.eventAt
  repeat' first
    | with_reducible rfl
    | with_reducible apply fixed_ite
    | (simp only [↓State.originate_fixed, ↓State.queueBb_fixed, ↓State.stageD0_fixed, ↓State.writer_fixed, fixed_mk]; done)
    | split
    | simp only [↓State.originate_fixed, ↓State.queueBb_fixed, ↓State.stageD0_fixed, ↓State.writer_fixed, fixed_mk, guarded]

theorem State.blackBox_fixed (s : State) (kind : Nat) (keep : Bool) (body : List Byte) : (State.blackBox s kind keep body).fixed = s.fixed := by
  unfold State.blackBox
  simp only [↓State.queueBb_fixed, fixed_mk, guarded]

theorem State.event_fixed (s : State) (e : Ev) : (State.event s e).fixed = s.fixed := by
  unfold State.event
  simp only [↓State.eventAt_fixed, fixed_mk, guarded]

theorem State.dieEventFull_fixed (s : State) (k : Nat) (e : Ev) (t : Nat) (full : List Byte) : (State.dieEventFull s k e t full).fixed = s.fixed := by
  unfold State.dieEventFull
  split <;> simp only [↓State.modDie_fixed, ↓State.eventAt_fixed, fixed_mk, guarded]

theorem State.dieEventAt_fixed (s : State) (k : Nat) (e : Ev) (t : Nat) : (State.dieEventAt s k e t).fixed = s.fixed := by
  unfold State.dieEventAt
  simp only [↓State.dieEventFull_fixed, fixed_mk, guarded]

theorem State.dieEvent_fixed (s : State) (k : Nat) (e : Ev) : (State.dieEvent s k e).fixed = s.fixed := by
  unfold State.dieEvent
  simp only [↓State.dieEventAt_fixed, fixed_mk, guarded]

theorem State.placement_fixed (s : State) (kind island task reason : Nat) (value : Int) (stream arg16 : Nat) : (State.placement s kind island task reason value stream arg16).fixed = s.fixed := by
  unfold State.placement
  simp only [↓State.eventAt_fixed, fixed_mk, guarded]

theorem State.dropRec_fixed (s : State) (cls recType src : Nat) : (State.dropRec s cls recType src).fixed = s.fixed := by
  unfold State.dropRec
  repeat' first
    | with_reducible rfl
    | with_reducible apply fixed_ite
    | (simp only [↓State.countDrop_fixed, ↓State.placement_fixed, fixed_mk]; done)
    | split
    | simp only [↓State.countDrop_fixed, ↓State.placement_fixed, fixed_mk, guarded]

theorem State.endDrops_fixed (s : State) (cls recType src : Nat) : (State.endDrops s cls recType src).fixed = s.fixed := by
  unfold State.endDrops
  split <;> simp only [↓State.placement_fixed, fixed_mk, guarded]

theorem State.tierFor_fixed {s : State} {cls n : Nat} {r : Tier × State} (h : s.tierFor cls n = some r) :
    r.2.fixed = s.fixed := by
  unfold State.tierFor at h
  repeat' first
    | (cases h; rfl)
    | exact State.evictFor_fixed h
    | split at h

theorem State.putRec_fixed (s : State) (tier : Tier) (cls recType src time : Nat) (bytes : List Byte) : (State.putRec s tier cls recType src time bytes).fixed = s.fixed := rfl

theorem State.place_fixed (s : State) (recType src time : Nat) (bytes : List Byte) :
    (s.place recType src time bytes).fixed = s.fixed := by
  unfold State.place
  dsimp only
  refine fixed_ite ((State.writer_fixed _).trans (State.stageD0_fixed ..)) ?_
  split
  · exact State.dropRec_fixed ..
  · rename_i r h
    exact (State.writer_fixed _).trans ((State.claimNew_fixed ..).trans ((State.endDrops_fixed ..).trans
      ((State.putRec_fixed ..).trans (State.tierFor_fixed h))))

theorem State.dieRecord_fixed (s : State) (k recType time : Nat) (bytes : List Byte) : (State.dieRecord s k recType time bytes).fixed = s.fixed := by
  unfold State.dieRecord
  simp only [↓State.modDie_fixed, fixed_mk, guarded]

theorem State.queueCompletion_fixed (s : State) (x : InFlight) (origin result xfer code : Nat) : (State.queueCompletion s x origin result xfer code).fixed = s.fixed := rfl

theorem State.writeBuffer_fixed (s : State) (l : List (Nat × Nat)) (bs : List Byte) :
    (s.writeBuffer l bs).fixed = s.fixed := by
  induction l generalizing s bs with
  | nil => rfl
  | cons a l ih =>
    cases bs with
    | nil => rfl
    | cons b bs => exact (ih _ _).trans rfl

theorem State.finishBroadcast_fixed (s : State) (x : InFlight) : (State.finishBroadcast s x).fixed = s.fixed := by
  unfold State.finishBroadcast
  repeat' first
    | with_reducible rfl
    | with_reducible apply fixed_ite
    | (simp only [↓State.writeBuffer_fixed, ↓State.queueCompletion_fixed, fixed_mk]; done)
    | split
    | simp only [↓State.writeBuffer_fixed, ↓State.queueCompletion_fixed, fixed_mk, guarded]

theorem State.vote_fixed (s : State) (x : InFlight) (pos code : Nat) : (State.vote s x pos code).fixed = s.fixed := by
  unfold State.vote
  repeat' first
    | with_reducible rfl
    | with_reducible apply fixed_ite
    | (simp only [↓State.finishBroadcast_fixed, fixed_mk]; done)
    | split
    | simp only [↓State.finishBroadcast_fixed, fixed_mk, guarded]

theorem State.takeCompletion_fixed (s : State) (sq cid gen origin result xfer code : Nat) (data : List Byte) : (State.takeCompletion s sq cid gen origin result xfer code data).fixed = s.fixed := by
  unfold State.takeCompletion
  repeat' first
    | with_reducible rfl
    | with_reducible apply fixed_ite
    | (simp only [↓State.vote_fixed, ↓State.writeBuffer_fixed, ↓State.queueCompletion_fixed, fixed_mk]; done)
    | split
    | simp only [↓State.vote_fixed, ↓State.writeBuffer_fixed, ↓State.queueCompletion_fixed, fixed_mk, guarded]

theorem State.tellArmed_fixed (s : State) (a code : Nat) : (State.tellArmed s a code).fixed = s.fixed := by
  unfold State.tellArmed
  split <;> simp only [↓State.originate_fixed, fixed_mk, guarded]

theorem State.completeData_fixed (s : State) (c : Cmd) (st : Status) (result : Nat) (data : List Byte) : (State.completeData s c st result data).fixed = s.fixed := by
  unfold State.completeData
  split <;> simp only [↓State.originate_fixed, ↓State.takeCompletion_fixed, fixed_mk, guarded]

theorem State.completeX_fixed (s : State) (c : Cmd) (st : Status) (result xfer : Nat) : (State.completeX s c st result xfer).fixed = s.fixed := by
  unfold State.completeX
  split <;> simp only [↓State.originate_fixed, ↓State.takeCompletion_fixed, fixed_mk, guarded]

theorem State.complete_fixed (s : State) (c : Cmd) (st : Status) (result : Nat) : (State.complete s c st result).fixed = s.fixed := by
  unfold State.complete
  simp only [↓State.completeX_fixed, fixed_mk, guarded]

theorem State.completeOpt_fixed (s : State) (c : Option Cmd) (st : Status) (result : Nat) : (State.completeOpt s c st result).fixed = s.fixed := by
  unfold State.completeOpt
  split <;> simp only [↓State.complete_fixed, fixed_mk, guarded]

theorem State.policyTaken_fixed (s : State) (k : Nat) : (State.policyTaken s k).fixed = s.fixed := by
  unfold State.policyTaken
  repeat' first
    | with_reducible rfl
    | with_reducible apply fixed_ite
    | with_reducible refine (foldl_fixed (fun _ _ => ?_) _ _).trans ?_
    | (simp only [↓State.complete_fixed, fixed_mk]; done)
    | split
    | simp only [↓State.complete_fixed, fixed_mk, guarded]

theorem State.rephase_fixed (s : State) : (State.rephase s).fixed = s.fixed := by
  unfold State.rephase
  simp only [↓State.modDies_fixed, fixed_mk, guarded]

theorem State.at__fixed (s : State) (t : Nat) : (State.at_ s t).fixed = s.fixed := rfl

theorem State.takeStep_fixed (s : State) (ofs : Int) : (State.takeStep s ofs).fixed = s.fixed := by
  unfold State.takeStep
  simp only [↓State.event_fixed, ↓State.rephase_fixed, fixed_mk, guarded]

theorem State.stepAt_fixed (s : State) (k : Nat) : (State.stepAt s k).fixed = s.fixed := by
  unfold State.stepAt
  repeat' first
    | with_reducible rfl
    | with_reducible apply fixed_ite
    | (simp only [↓State.takeStep_fixed, fixed_mk]; done)
    | split
    | simp only [↓State.takeStep_fixed, fixed_mk, guarded]

theorem State.settleChannels_fixed (s : State) (k : Nat) : (State.settleChannels s k).fixed = s.fixed := by
  unfold State.settleChannels
  simp only [↓State.modDie_fixed, fixed_mk, guarded]

theorem State.applyCap_fixed (s : State) (k : Nat) : (State.applyCap s k).fixed = s.fixed := by
  unfold State.applyCap
  simp only [↓State.settleChannels_fixed, ↓State.modDie_fixed, fixed_mk, guarded]

end Sys2Proof.Machine
end

