-- ==== Sys2Proof/Laws/FixedDie.lean ====
section
/-! SUPPORT. Operations of the cell dies leave the guarded part of the state alone. -/

namespace Sys2Proof.Machine

set_option linter.all false
set_option maxRecDepth 4000

theorem State.adoptPrec_fixed (s : State) (k : Nat) (d : Die) : (State.adoptPrec s k d).fixed = s.fixed := by
  unfold State.adoptPrec
  repeat' first
    | with_reducible rfl
    | with_reducible apply fixed_ite
    | (simp only [↓State.modDie_fixed, ↓State.takeBlock_fixed, fixed_mk]; done)
    | split
    | simp only [↓State.modDie_fixed, ↓State.takeBlock_fixed, fixed_mk, guarded]

theorem State.takePrec_fixed (s : State) (k : Nat) : (State.takePrec s k).fixed = s.fixed := by
  unfold State.takePrec
  refine onDie_fixed (fun _ => ?_) ?_ <;> simp only [↓State.adoptPrec_fixed, fixed_mk, guarded]

theorem State.judgeSecond_fixed (s : State) (k : Nat) (x : Interval) : (State.judgeSecond s k x).fixed = s.fixed := by
  unfold State.judgeSecond
  repeat' first
    | with_reducible rfl
    | with_reducible apply fixed_ite
    | with_reducible refine (foldl_fixed (fun _ _ => ?_) _ _).trans ?_
    | (simp only [↓State.modDie_fixed, fixed_mk]; done)
    | split
    | simp only [↓State.modDie_fixed, fixed_mk, guarded]

theorem State.precSample_fixed (s : State) (k : Nat) (d : Die) (v : List Rat) (ovl : List Overload) (bal : List Rat) : (State.precSample s k d v ovl bal).fixed = s.fixed := by
  unfold State.precSample
  repeat' first
    | with_reducible rfl
    | with_reducible apply fixed_ite
    | (simp only [↓State.modDie_fixed, ↓State.judgeSecond_fixed, ↓State.dieRecord_fixed, fixed_mk]; done)
    | split
    | simp only [↓State.modDie_fixed, ↓State.judgeSecond_fixed, ↓State.dieRecord_fixed, fixed_mk, guarded]

theorem State.discardRun_fixed (s : State) (k t : Nat) (keepCand : Bool) : (State.discardRun s k t keepCand).fixed = s.fixed := by
  unfold State.discardRun
  refine onDie_fixed (fun _ => ?_) ?_
  · split <;> simp only [↓State.modDie_fixed, ↓State.dieRecord_fixed, fixed_mk, guarded]
  · simp only [↓State.modDie_fixed, ↓State.dieRecord_fixed, fixed_mk, guarded]

theorem State.owBegin_fixed (s : State) (k : Nat) : (State.owBegin s k).fixed = s.fixed := by
  unfold State.owBegin
  repeat' first
    | with_reducible rfl
    | with_reducible apply fixed_ite
    | with_reducible refine onDie_fixed (fun _ => ?_) ?_
    | (simp only [↓State.settleChannels_fixed, ↓State.modDie_fixed, fixed_mk]; done)
    | split
    | simp only [↓State.settleChannels_fixed, ↓State.modDie_fixed, fixed_mk, guarded]

theorem State.owEnd_fixed (s : State) (k : Nat) : (State.owEnd s k).fixed = s.fixed := by
  unfold State.owEnd
  simp only [↓State.settleChannels_fixed, ↓State.modDie_fixed, fixed_mk, guarded]

theorem State.stopInjection_fixed (s : State) (k : Nat) : (State.stopInjection s k).fixed = s.fixed := by
  unfold State.stopInjection
  simp only [↓State.settleChannels_fixed, ↓State.modDie_fixed, fixed_mk, guarded]

theorem State.adoptImp_fixed (s : State) (k : Nat) : (State.adoptImp s k).fixed = s.fixed := by
  unfold State.adoptImp
  repeat' first
    | with_reducible rfl
    | with_reducible apply fixed_ite
    | (simp only [↓State.stopInjection_fixed, ↓State.modDie_fixed, ↓State.takeBlock_fixed, fixed_mk]; done)
    | split
    | simp only [↓State.stopInjection_fixed, ↓State.modDie_fixed, ↓State.takeBlock_fixed, fixed_mk, guarded]

theorem State.feedImp_fixed (s : State) (k : Nat) (f : FastFrame) : (State.feedImp s k f).fixed = s.fixed := by
  unfold State.feedImp
  refine onDie_fixed (fun _ => ?_) ?_
  · split <;> simp only [↓State.modDie_fixed, fixed_mk, guarded]
  · simp only [↓State.modDie_fixed, fixed_mk, guarded]

theorem State.beginInjection_fixed (s : State) (k a : Nat) : (State.beginInjection s k a).fixed = s.fixed := by
  unfold State.beginInjection
  simp only [↓State.modDie_fixed, fixed_mk, guarded]

theorem State.missTrigger_fixed (s : State) (k : Nat) (c : Capture) : (State.missTrigger s k c).fixed = s.fixed := by
  unfold State.missTrigger
  split <;> simp only [↓State.modDie_fixed, ↓State.dieEvent_fixed, ↓State.completeOpt_fixed, fixed_mk, guarded]

theorem State.triggerCapture_fixed (s : State) (k tTrig : Nat) : (State.triggerCapture s k tTrig).fixed = s.fixed := by
  unfold State.triggerCapture
  repeat' first
    | with_reducible rfl
    | with_reducible apply fixed_ite
    | with_reducible refine onDie_fixed (fun _ => ?_) ?_
    | (simp only [↓State.modDie_fixed, ↓State.missTrigger_fixed, fixed_mk]; done)
    | split
    | simp only [↓State.modDie_fixed, ↓State.missTrigger_fixed, fixed_mk, guarded]

theorem State.faultTrigger_fixed (s : State) (k tOrigin : Nat) (chain : Bool) : (State.faultTrigger s k tOrigin chain).fixed = s.fixed := by
  unfold State.faultTrigger
  repeat' first
    | with_reducible rfl
    | with_reducible apply fixed_ite
    | with_reducible refine onDie_fixed (fun _ => ?_) ?_
    | (simp only [↓State.triggerCapture_fixed, fixed_mk]; done)
    | split
    | simp only [↓State.triggerCapture_fixed, fixed_mk, guarded]

theorem State.flushStream_fixed (s : State) (k : Nat) (last abort : Bool) : (State.flushStream s k last abort).fixed = s.fixed := by
  unfold State.flushStream
  repeat' first
    | with_reducible rfl
    | with_reducible apply fixed_ite
    | with_reducible refine onDie_fixed (fun _ => ?_) ?_
    | (simp only [↓State.modDie_fixed, ↓State.dieRecord_fixed, fixed_mk]; done)
    | split
    | simp only [↓State.modDie_fixed, ↓State.dieRecord_fixed, fixed_mk, guarded]

theorem State.feedStream_fixed (s : State) (k : Nat) (x : FastFrame) : (State.feedStream s k x).fixed = s.fixed := by
  unfold State.feedStream
  repeat' first
    | with_reducible rfl
    | with_reducible apply fixed_ite
    | with_reducible refine onDie_fixed (fun _ => ?_) ?_
    | (simp only [↓State.modDie_fixed, ↓State.flushStream_fixed, fixed_mk]; done)
    | split
    | simp only [↓State.modDie_fixed, ↓State.flushStream_fixed, fixed_mk, guarded]

theorem State.openFastStream_fixed (s : State) (k id : Nat) : (State.openFastStream s k id).fixed = s.fixed := by
  unfold State.openFastStream
  simp only [↓State.modDie_fixed, fixed_mk, guarded]

theorem State.closeFastStream_fixed (s : State) (k id : Nat) : (State.closeFastStream s k id).fixed = s.fixed := by
  unfold State.closeFastStream
  repeat' first
    | with_reducible rfl
    | with_reducible apply fixed_ite
    | with_reducible refine onDie_fixed (fun _ => ?_) ?_
    | (simp only [↓State.modDie_fixed, ↓State.flushStream_fixed, fixed_mk]; done)
    | split
    | simp only [↓State.modDie_fixed, ↓State.flushStream_fixed, fixed_mk, guarded]

theorem State.closeFastStreams_fixed (s : State) (k : Nat) : (State.closeFastStreams s k).fixed = s.fixed := by
  unfold State.closeFastStreams
  repeat' first
    | with_reducible rfl
    | with_reducible apply fixed_ite
    | with_reducible refine (foldl_fixed (fun _ _ => ?_) _ _).trans ?_
    | with_reducible refine onDie_fixed (fun _ => ?_) ?_
    | (simp only [↓State.closeFastStream_fixed, fixed_mk]; done)
    | split
    | simp only [↓State.closeFastStream_fixed, fixed_mk, guarded]

theorem State.unarm_fixed (s : State) (c : Capture) : (State.unarm s c).fixed = s.fixed := by
  unfold State.unarm
  split <;> simp only [↓State.tellArmed_fixed, fixed_mk, guarded]

theorem State.abortCapture_fixed (s : State) (k : Nat) (arm : Bool) : (State.abortCapture s k arm).fixed = s.fixed := by
  unfold State.abortCapture
  refine onDie_fixed (fun _ => ?_) ?_
  · split <;> simp only [↓State.modDie_fixed, ↓State.dieEvent_fixed, ↓State.unarm_fixed, ↓State.completeOpt_fixed, fixed_mk, guarded]
  · simp only [↓State.modDie_fixed, ↓State.dieEvent_fixed, ↓State.unarm_fixed, ↓State.completeOpt_fixed, fixed_mk, guarded]

theorem State.stopFast_fixed (s : State) (k : Nat) : (State.stopFast s k).fixed = s.fixed := by
  unfold State.stopFast
  simp only [↓State.stopInjection_fixed, ↓State.modDie_fixed, ↓State.abortCapture_fixed, ↓State.flushStream_fixed, fixed_mk, guarded]

theorem State.fastOff_fixed (s : State) (k : Nat) : (State.fastOff s k).fixed = s.fixed := by
  unfold State.fastOff
  refine onDie_fixed (fun _ => ?_) ?_
  · split <;> simp only [↓State.stopFast_fixed, ↓State.modDie_fixed, fixed_mk, guarded]
  · simp only [↓State.stopFast_fixed, ↓State.modDie_fixed, fixed_mk, guarded]

theorem State.fastUp_fixed (s : State) (k : Nat) : (State.fastUp s k).fixed = s.fixed := by
  unfold State.fastUp
  refine onDie_fixed (fun _ => ?_) ?_
  · split <;> simp only [↓State.modDie_fixed, fixed_mk, guarded]
  · simp only [↓State.modDie_fixed, fixed_mk, guarded]

theorem State.fastDomain_fixed (s : State) (k : Nat) : (State.fastDomain s k).fixed = s.fixed := by
  unfold State.fastDomain
  refine onDie_fixed (fun _ => ?_) ?_
  · split <;> simp only [↓State.fastOff_fixed, ↓State.fastUp_fixed, fixed_mk, guarded]
  · simp only [↓State.fastOff_fixed, ↓State.fastUp_fixed, fixed_mk, guarded]

theorem State.swapFast_fixed (s : State) (k : Nat) : (State.swapFast s k).fixed = s.fixed := by
  unfold State.swapFast
  repeat' first
    | with_reducible rfl
    | with_reducible apply fixed_ite
    | (simp only [↓State.modDie_fixed, ↓State.abortCapture_fixed, ↓State.flushStream_fixed, ↓State.takeBlock_fixed, fixed_mk]; done)
    | split
    | simp only [↓State.modDie_fixed, ↓State.abortCapture_fixed, ↓State.flushStream_fixed, ↓State.takeBlock_fixed, fixed_mk, guarded]

theorem State.closeCapture_fixed (s : State) (k : Nat) : (State.closeCapture s k).fixed = s.fixed := by
  unfold State.closeCapture
  repeat' first
    | with_reducible rfl
    | with_reducible apply fixed_ite
    | with_reducible refine onDie_fixed (fun _ => ?_) ?_
    | (simp only [↓State.modDie_fixed, ↓State.completeOpt_fixed, fixed_mk]; done)
    | split
    | simp only [↓State.modDie_fixed, ↓State.completeOpt_fixed, fixed_mk, guarded]

theorem State.formSafety_fixed (s : State) (msg : Nat) (f : FaultInfo) (aux : Nat) (mailbox : Bool) : (State.formSafety s msg f aux mailbox).2.fixed = s.fixed := rfl

theorem State.sendSafety_fixed (s : State) (msg : Nat) (f : FaultInfo) : (State.sendSafety s msg f).fixed = s.fixed := by
  unfold State.sendSafety
  split <;> simp only [↓State.originate_fixed, ↓State.formSafety_fixed, fixed_mk, guarded]

theorem State.heartStop_fixed (s : State) : (State.heartStop s).fixed = s.fixed := by
  unfold State.heartStop
  repeat' first
    | with_reducible rfl
    | with_reducible apply fixed_ite
    | (simp only [↓State.event_fixed, ↓State.emit_fixed, fixed_mk]; done)
    | split
    | simp only [↓State.event_fixed, ↓State.emit_fixed, fixed_mk, guarded]

theorem State.heartResume_fixed (s : State) : (State.heartResume s).fixed = s.fixed := by
  unfold State.heartResume
  repeat' first
    | with_reducible rfl
    | with_reducible apply fixed_ite
    | (simp only [↓State.event_fixed, ↓State.emit_fixed, ↓State.sendSafety_fixed, fixed_mk]; done)
    | split
    | simp only [↓State.event_fixed, ↓State.emit_fixed, ↓State.sendSafety_fixed, fixed_mk, guarded]

theorem State.accrueTest_fixed (s : State) : (State.accrueTest s).fixed = s.fixed := rfl

theorem State.doze_fixed (s : State) : (State.doze s).fixed = s.fixed := by
  unfold State.doze
  repeat' first
    | with_reducible rfl
    | with_reducible apply fixed_ite
    | with_reducible refine (foldl_fixed (fun _ _ => ?_) _ _).trans ?_
    | (simp only [↓State.fastDomain_fixed, ↓State.accrueTest_fixed, ↓State.closeFastStreams_fixed, fixed_mk]; done)
    | split
    | simp only [↓State.fastDomain_fixed, ↓State.accrueTest_fixed, ↓State.closeFastStreams_fixed, fixed_mk, guarded]

theorem State.setOut_fixed (s : State) (k : Nat) (on : Bool) : (State.setOut s k on).fixed = s.fixed := by
  unfold State.setOut
  split <;> simp only [↓State.accrueTest_fixed, ↓State.emit_fixed, fixed_mk, guarded]

theorem State.outsOff_fixed (s : State) : (State.outsOff s).fixed = s.fixed := by
  unfold State.outsOff
  repeat' first
    | with_reducible rfl
    | with_reducible apply fixed_ite
    | with_reducible refine (foldl_fixed (fun _ _ => ?_) _ _).trans ?_
    | (simp only [↓State.setOut_fixed, fixed_mk]; done)
    | split
    | simp only [↓State.setOut_fixed, fixed_mk, guarded]

theorem State.evalOuts_fixed (s : State) : (State.evalOuts s).fixed = s.fixed := by
  unfold State.evalOuts
  repeat' first
    | with_reducible rfl
    | with_reducible apply fixed_ite
    | with_reducible refine (foldl_fixed (fun _ _ => ?_) _ _).trans ?_
    | (simp only [↓State.setOut_fixed, fixed_mk]; done)
    | split
    | simp only [↓State.setOut_fixed, fixed_mk, guarded]

theorem State.latch_fixed (s : State) (cause : Nat) : (State.latch s cause).fixed = s.fixed := by
  unfold State.latch
  repeat' first
    | with_reducible rfl
    | with_reducible apply fixed_ite
    | with_reducible refine (foldl_fixed (fun _ _ => ?_) _ _).trans ?_
    | (simp only [↓State.outsOff_fixed, ↓State.event_fixed, ↓State.heartStop_fixed, fixed_mk]; done)
    | split
    | simp only [↓State.outsOff_fixed, ↓State.event_fixed, ↓State.heartStop_fixed, fixed_mk, guarded]

theorem State.releaseLockout_fixed (s : State) : (State.releaseLockout s).fixed = s.fixed := by
  unfold State.releaseLockout
  simp only [↓State.heartResume_fixed, ↓State.event_fixed, fixed_mk, guarded]

theorem State.ownFault_fixed (s : State) (f : FaultInfo) : (State.ownFault s f).fixed = s.fixed := by
  unfold State.ownFault
  split <;> simp only [↓State.latch_fixed, ↓State.sendSafety_fixed, fixed_mk, guarded]

theorem State.takeNotice_fixed (s : State) (k : Nat) (b : List Byte) : (State.takeNotice s k b).fixed = s.fixed := by
  unfold State.takeNotice
  repeat' first
    | with_reducible rfl
    | with_reducible apply fixed_ite
    | with_reducible refine (foldl_fixed (fun _ _ => ?_) _ _).trans ?_
    | (simp only [↓State.originate_fixed, ↓State.ownFault_fixed, ↓State.eventAt_fixed, ↓State.heartStop_fixed, ↓State.faultTrigger_fixed, fixed_mk]; done)
    | split
    | simp only [↓State.originate_fixed, ↓State.ownFault_fixed, ↓State.eventAt_fixed, ↓State.heartStop_fixed, ↓State.faultTrigger_fixed, fixed_mk, guarded]

theorem State.missCurrentBlock_fixed (s : State) (t0 k : Nat) : (State.missCurrentBlock s t0 k).fixed = s.fixed := by
  unfold State.missCurrentBlock
  repeat' first
    | with_reducible rfl
    | with_reducible apply fixed_ite
    | with_reducible refine onDie_fixed (fun _ => ?_) ?_
    | (simp only [↓State.fastDomain_fixed, ↓State.modDie_fixed, ↓State.adoptImp_fixed, ↓State.dieEvent_fixed, fixed_mk]; done)
    | split
    | simp only [↓State.fastDomain_fixed, ↓State.modDie_fixed, ↓State.adoptImp_fixed, ↓State.dieEvent_fixed, fixed_mk, guarded]

theorem State.takeCurrentBlock_fixed (s : State) (k : Nat) (b : List Byte) : (State.takeCurrentBlock s k b).fixed = s.fixed := by
  unfold State.takeCurrentBlock
  repeat' first
    | with_reducible rfl
    | with_reducible apply fixed_ite
    | with_reducible refine onDie_fixed (fun _ => ?_) ?_
    | (simp only [↓State.fastDomain_fixed, ↓State.modDie_fixed, ↓State.adoptImp_fixed, ↓State.dieEvent_fixed, ↓State.missCurrentBlock_fixed, fixed_mk]; done)
    | split
    | simp only [↓State.fastDomain_fixed, ↓State.modDie_fixed, ↓State.adoptImp_fixed, ↓State.dieEvent_fixed, ↓State.missCurrentBlock_fixed, fixed_mk, guarded]

theorem State.persist_fixed (s : State) (k : Nat) : (State.persist s k).fixed = s.fixed := by
  unfold State.persist
  split <;> simp only [↓State.modDie_fixed, fixed_mk, guarded]

theorem State.resetGroup_fixed (s : State) (k : Nat) : (State.resetGroup s k).fixed = s.fixed := by
  unfold State.resetGroup
  simp only [↓State.modDie_fixed, fixed_mk, guarded]

theorem State.swapGroup_fixed (s : State) (k : Nat) (identity : Option Nat) (pattern : Nat) : (State.swapGroup s k identity pattern).fixed = s.fixed := by
  unfold State.swapGroup
  simp only [↓State.dieEventFull_fixed, ↓State.blackBox_fixed, ↓State.modDie_fixed, ↓State.resetGroup_fixed, ↓State.persist_fixed, fixed_mk, guarded]

theorem State.adoptEst_fixed (s : State) : (State.adoptEst s).fixed = s.fixed := by
  unfold State.adoptEst
  repeat' first
    | with_reducible rfl
    | with_reducible apply fixed_ite
    | with_reducible refine (foldl_fixed (fun _ _ => ?_) _ _).trans ?_
    | (simp only [↓State.dieEventFull_fixed, ↓State.modDie_fixed, ↓State.resetGroup_fixed, ↓State.takeBlock_fixed, ↓State.persist_fixed, fixed_mk]; done)
    | split
    | simp only [↓State.dieEventFull_fixed, ↓State.modDie_fixed, ↓State.resetGroup_fixed, ↓State.takeBlock_fixed, ↓State.persist_fixed, fixed_mk, guarded]

theorem State.meterBlock_fixed (s : State) (t0 : Nat) (dq : Rat) : (State.meterBlock s t0 dq).fixed = s.fixed := by
  unfold State.meterBlock
  repeat' first
    | with_reducible rfl
    | with_reducible apply fixed_ite
    | with_reducible refine (foldl_fixed (fun _ _ => ?_) _ _).trans ?_
    | (simp only [↓State.modDie_fixed, fixed_mk]; done)
    | split
    | simp only [↓State.modDie_fixed, fixed_mk, guarded]

theorem State.countBlock_fixed (s : State) (k t0 : Nat) (dqAs qHub : Rat) (missing : Bool) : (State.countBlock s k t0 dqAs qHub missing).fixed = s.fixed := by
  unfold State.countBlock
  repeat' first
    | with_reducible rfl
    | with_reducible apply fixed_ite
    | with_reducible refine onDie_fixed (fun _ => ?_) ?_
    | (simp only [↓State.modDie_fixed, ↓State.dieEvent_fixed, fixed_mk]; done)
    | split
    | simp only [↓State.modDie_fixed, ↓State.dieEvent_fixed, fixed_mk, guarded]

theorem State.loseCount_fixed (s : State) (k : Nat) : (State.loseCount s k).fixed = s.fixed := by
  unfold State.loseCount
  simp only [↓State.modDie_fixed, ↓State.dieEvent_fixed, fixed_mk, guarded]

theorem State.hubDraw_fixed (s : State) (t0 : Nat) : (State.hubDraw s t0).2.fixed = s.fixed := by
  unfold State.hubDraw
  repeat' first
    | with_reducible rfl
    | with_reducible apply fixed_ite
    | (simp only [↓State.drawRat_fixed, fixed_mk]; done)
    | split
    | simp only [↓State.drawRat_fixed, fixed_mk, guarded]

theorem State.accrueDebt_fixed (s : State) (qHub : Rat) : (State.accrueDebt s qHub).fixed = s.fixed := by
  unfold State.accrueDebt
  repeat' first
    | with_reducible rfl
    | with_reducible apply fixed_ite
    | (simp only [↓State.modDie_fixed, ↓State.modDies_fixed, fixed_mk]; done)
    | split
    | simp only [↓State.modDie_fixed, ↓State.modDies_fixed, fixed_mk, guarded]

theorem State.takeChargeBlock_fixed (s : State) (b : List Byte) : (State.takeChargeBlock s b).fixed = s.fixed := by
  unfold State.takeChargeBlock
  repeat' first
    | with_reducible rfl
    | with_reducible apply fixed_ite
    | with_reducible refine (foldl_fixed (fun _ _ => ?_) _ _).trans ?_
    | (simp only [↓State.hubDraw_fixed, ↓State.meterBlock_fixed, ↓State.adoptEst_fixed, ↓State.accrueDebt_fixed, ↓State.countBlock_fixed, fixed_mk]; done)
    | split
    | simp only [↓State.hubDraw_fixed, ↓State.meterBlock_fixed, ↓State.adoptEst_fixed, ↓State.accrueDebt_fixed, ↓State.countBlock_fixed, fixed_mk, guarded]

theorem State.sendChargeBlock_fixed (s : State) (k sh : Nat) : (State.sendChargeBlock s k sh).fixed = s.fixed := by
  unfold State.sendChargeBlock
  repeat' first
    | with_reducible rfl
    | with_reducible apply fixed_ite
    | with_reducible refine onDie_fixed (fun _ => ?_) ?_
    | (simp only [↓State.takeChargeBlock_fixed, ↓State.originate_fixed, fixed_mk]; done)
    | split
    | simp only [↓State.takeChargeBlock_fixed, ↓State.originate_fixed, fixed_mk, guarded]

theorem State.meterGap_fixed (s : State) (t0 : Nat) : (State.meterGap s t0).fixed = s.fixed := by
  unfold State.meterGap
  split <;> simp only [fixed_mk, guarded]

theorem State.missChargeBlock_fixed (s : State) (t0 k : Nat) (qHub : Rat) : (State.missChargeBlock s t0 k qHub).fixed = s.fixed := by
  unfold State.missChargeBlock
  repeat' first
    | with_reducible rfl
    | with_reducible apply fixed_ite
    | with_reducible refine onDie_fixed (fun _ => ?_) ?_
    | (simp only [↓State.loseCount_fixed, ↓State.modDie_fixed, ↓State.countBlock_fixed, fixed_mk]; done)
    | split
    | simp only [↓State.loseCount_fixed, ↓State.modDie_fixed, ↓State.countBlock_fixed, fixed_mk, guarded]

theorem State.endHold_fixed (s : State) (k : Nat) : (State.endHold s k).fixed = s.fixed := by
  unfold State.endHold
  refine onDie_fixed (fun _ => ?_) ?_
  · split <;> simp only [↓State.dieEvent_fixed, ↓State.modDies_fixed, fixed_mk, guarded]
  · simp only [↓State.dieEvent_fixed, ↓State.modDies_fixed, fixed_mk, guarded]

theorem State.restPoint_fixed (s : State) (k : Nat) (d : Die) (tEnd : Nat) : (State.restPoint s k d tEnd).fixed = s.fixed := by
  unfold State.restPoint
  repeat' first
    | with_reducible rfl
    | with_reducible apply fixed_ite
    | with_reducible refine (foldl_fixed (fun _ _ => ?_) _ _).trans ?_
    | (simp only [↓State.endHold_fixed, ↓State.dieEventFull_fixed, ↓State.modDie_fixed, ↓State.modDies_fixed, ↓State.persist_fixed, fixed_mk]; done)
    | split
    | simp only [↓State.endHold_fixed, ↓State.dieEventFull_fixed, ↓State.modDie_fixed, ↓State.modDies_fixed, ↓State.persist_fixed, fixed_mk, guarded]

theorem State.modCell_fixed (s : State) (k n : Nat) (f : CellSt → CellSt) : (State.modCell s k n f).fixed = s.fixed := by
  unfold State.modCell
  simp only [↓State.modDie_fixed, fixed_mk, guarded]

theorem State.declare_fixed (s : State) (k : Nat) (low : Bool) (x : Nat × Nat × Rat) : (State.declare s k low x).fixed = s.fixed := by
  unfold State.declare
  split <;> simp only [↓State.endHold_fixed, ↓State.modCell_fixed, ↓State.dieEvent_fixed, ↓State.modDies_fixed, ↓State.persist_fixed, fixed_mk, guarded]

theorem State.judgeEnds_fixed (s : State) (k : Nat) : (s.judgeEnds k).fixed = s.fixed := by
  unfold State.judgeEnds
  refine onDie_fixed (fun d => ?_) rfl
  have hd : ∀ (o : Option (Nat × Nat × Rat)) (c : State → Nat × Nat × Rat → Bool) (b : Bool) (t : State), t.fixed = s.fixed →
      (match o with | some x => if c t x = true then t.declare k b x else t | none => t).fixed = s.fixed := by
    intro o c b t h
    cases o with
    | none => exact h
    | some x => exact fixed_ite ((State.declare_fixed ..).trans h) h
  exact hd _ (fun t x => !d.est.eoc && _) false _ (hd _ (fun t x => !d.est.eod && _) true _
    ((State.modDies_fixed ..).trans (State.modDie_fixed ..)))

theorem State.noteHistory_fixed (s : State) (cells : List CellSt) (soc : Rat) (first : Bool) : (State.noteHistory s cells soc first).fixed = s.fixed := rfl

theorem State.loadState_fixed (s : State) (k : Nat) : (State.loadState s k).fixed = s.fixed := by
  unfold State.loadState
  repeat' first
    | with_reducible rfl
    | with_reducible apply fixed_ite
    | with_reducible refine onDie_fixed (fun _ => ?_) ?_
    | (simp only [↓State.modDie_fixed, ↓State.resetGroup_fixed, ↓State.dieEvent_fixed, fixed_mk]; done)
    | split
    | simp only [↓State.modDie_fixed, ↓State.resetGroup_fixed, ↓State.dieEvent_fixed, fixed_mk, guarded]

theorem State.startFrom_fixed (s : State) (k i t : Nat) : (State.startFrom s k i t).fixed = s.fixed := by
  unfold State.startFrom
  split <;> simp only [↓State.modDie_fixed, fixed_mk, guarded]

theorem State.seqRestart_fixed (s : State) (k t : Nat) (keepWindows : Bool) : (State.seqRestart s k t keepWindows).fixed = s.fixed := by
  unfold State.seqRestart
  repeat' first
    | with_reducible rfl
    | with_reducible apply fixed_ite
    | with_reducible refine onDie_fixed (fun _ => ?_) ?_
    | (simp only [↓State.startFrom_fixed, ↓State.modDie_fixed, fixed_mk]; done)
    | split
    | simp only [↓State.startFrom_fixed, ↓State.modDie_fixed, fixed_mk, guarded]

theorem State.closeEntry_fixed (s : State) (k : Nat) (cut preempt : Bool) : (State.closeEntry s k cut preempt).fixed = s.fixed := by
  unfold State.closeEntry
  repeat' first
    | with_reducible rfl
    | with_reducible apply fixed_ite
    | with_reducible refine onDie_fixed (fun _ => ?_) ?_
    | (simp only [↓State.drawBits_fixed, ↓State.modDie_fixed, ↓State.dieRecord_fixed, fixed_mk]; done)
    | split
    | simp only [↓State.drawBits_fixed, ↓State.modDie_fixed, ↓State.dieRecord_fixed, fixed_mk, guarded]

theorem State.judgeSwap_fixed (s : State) (k : Nat) : (State.judgeSwap s k).fixed = s.fixed := by
  unfold State.judgeSwap
  repeat' first
    | with_reducible rfl
    | with_reducible apply fixed_ite
    | with_reducible refine (foldl_fixed (fun _ _ => ?_) _ _).trans ?_
    | with_reducible refine onDie_fixed (fun _ => ?_) ?_
    | (simp only [↓State.modDie_fixed, ↓State.dieEvent_fixed, ↓State.swapGroup_fixed, fixed_mk]; done)
    | split
    | simp only [↓State.modDie_fixed, ↓State.dieEvent_fixed, ↓State.swapGroup_fixed, fixed_mk, guarded]

theorem State.seqAdvance_fixed (s : State) (k i t : Nat) : (State.seqAdvance s k i t).fixed = s.fixed := by
  unfold State.seqAdvance
  split <;> simp only [↓State.startFrom_fixed, ↓State.modDie_fixed, ↓State.judgeSwap_fixed, fixed_mk, guarded]

theorem State.adoptSeq_fixed (s : State) (k : Nat) : (State.adoptSeq s k).fixed = s.fixed := by
  unfold State.adoptSeq
  repeat' first
    | with_reducible rfl
    | with_reducible apply fixed_ite
    | (simp only [↓State.closeEntry_fixed, ↓State.modDie_fixed, ↓State.seqRestart_fixed, ↓State.takeBlock_fixed, fixed_mk]; done)
    | split
    | simp only [↓State.closeEntry_fixed, ↓State.modDie_fixed, ↓State.seqRestart_fixed, ↓State.takeBlock_fixed, fixed_mk, guarded]

theorem State.releaseSlice_fixed (s : State) (k block : Nat) : (State.releaseSlice s k block).fixed = s.fixed := by
  unfold State.releaseSlice
  repeat' first
    | with_reducible rfl
    | with_reducible apply fixed_ite
    | with_reducible refine onDie_fixed (fun _ => ?_) ?_
    | (simp only [↓State.startFrom_fixed, ↓State.modDie_fixed, fixed_mk]; done)
    | split
    | simp only [↓State.startFrom_fixed, ↓State.modDie_fixed, fixed_mk, guarded]

theorem State.modTest_fixed (s : State) (k : Nat) (f : SelfTest → SelfTest) : (State.modTest s k f).fixed = s.fixed := rfl

theorem State.checkRejected_fixed (s : State) : (State.checkRejected s).fixed = s.fixed := by
  unfold State.checkRejected
  simp only [↓State.modTest_fixed, fixed_mk, guarded]

theorem State.abortSlice_fixed (s : State) (k : Nat) : (State.abortSlice s k).fixed = s.fixed := by
  unfold State.abortSlice
  split <;> simp only [↓State.modTest_fixed, ↓State.releaseSlice_fixed, fixed_mk, guarded]

theorem State.freeLinks_fixed (s : State) : (State.freeLinks s).fixed = s.fixed := by
  unfold State.freeLinks
  repeat' first
    | with_reducible rfl
    | with_reducible apply fixed_ite
    | with_reducible refine (foldl_fixed (fun _ _ => ?_) _ _).trans ?_
    | (simp only [↓State.abortSlice_fixed, fixed_mk]; done)
    | split
    | simp only [↓State.abortSlice_fixed, fixed_mk, guarded]

theorem State.clearFor_fixed (s : State) (k : Nat) : (State.clearFor s k).fixed = s.fixed := by
  unfold State.clearFor
  simp only [↓State.freeLinks_fixed, ↓State.abortSlice_fixed, fixed_mk, guarded]

theorem State.endUrgent_fixed (s : State) (k : Nat) : (State.endUrgent s k).fixed = s.fixed := by
  unfold State.endUrgent
  repeat' first
    | with_reducible rfl
    | with_reducible apply fixed_ite
    | with_reducible refine onDie_fixed (fun _ => ?_) ?_
    | (simp only [↓State.startFrom_fixed, ↓State.modDie_fixed, ↓State.owEnd_fixed, ↓State.seqAdvance_fixed, fixed_mk]; done)
    | split
    | simp only [↓State.startFrom_fixed, ↓State.modDie_fixed, ↓State.owEnd_fixed, ↓State.seqAdvance_fixed, fixed_mk, guarded]

theorem State.closeRun_fixed (s : State) (k t : Nat) : (State.closeRun s k t).fixed = s.fixed := by
  unfold State.closeRun
  refine onDie_fixed (fun _ => ?_) ?_
  · split <;> simp only [↓State.modDie_fixed, fixed_mk, guarded]
  · simp only [↓State.modDie_fixed, fixed_mk, guarded]

theorem State.solveS1_fixed (s : State) (r : CalRun) (po pg z : List Rat) : (State.solveS1 s r po pg z).2.fixed = s.fixed := by
  unfold State.solveS1
  simp only [↓State.drawRats_fixed, fixed_mk, guarded]

theorem State.solveRun_fixed (s : State) (k : Nat) (d : Die) (r : CalRun) : (State.solveRun s k d r).2.fixed = s.fixed := by
  unfold State.solveRun
  repeat' first
    | with_reducible rfl
    | with_reducible apply fixed_ite
    | (simp only [↓State.solveS1_fixed, fixed_mk]; done)
    | split
    | simp only [↓State.solveS1_fixed, fixed_mk, guarded]

theorem State.resetCal_fixed (s : State) (k : Nat) : (State.resetCal s k).fixed = s.fixed := by
  unfold State.resetCal
  simp only [↓State.modDie_fixed, ↓State.dieEvent_fixed, ↓State.discardRun_fixed, fixed_mk, guarded]

theorem State.swapCal_fixed (s : State) (k : Nat) : (State.swapCal s k).fixed = s.fixed := by
  unfold State.swapCal
  split <;> simp only [↓State.discardRun_fixed, ↓State.takeBlock_fixed, fixed_mk, guarded]

theorem State.startService_fixed (s : State) (k : Nat) : (State.startService s k).fixed = s.fixed := by
  unfold State.startService
  simp only [↓State.modDie_fixed, fixed_mk, guarded]

theorem State.loadCal_fixed (s : State) (k : Nat) : (State.loadCal s k).fixed = s.fixed := by
  unfold State.loadCal
  refine onDie_fixed (fun _ => ?_) ?_
  · split <;> simp only [↓State.modDie_fixed, ↓State.dieEvent_fixed, fixed_mk, guarded]
  · simp only [↓State.modDie_fixed, ↓State.dieEvent_fixed, fixed_mk, guarded]

theorem State.atSample_fixed (s : State) (k : Nat) : (State.atSample s k).fixed = s.fixed := by
  unfold State.atSample
  simp only [↓State.startService_fixed, ↓State.takePrec_fixed, ↓State.adoptSeq_fixed, fixed_mk, guarded]

theorem State.cancelPend_fixed (s : State) : (State.cancelPend s).fixed = s.fixed := by
  unfold State.cancelPend
  split <;> simp only [↓State.evalOuts_fixed, ↓State.complete_fixed, fixed_mk, guarded]

theorem State.reportMemory_fixed (s : State) (k block : Nat) (b : Bist) : (State.reportMemory s k block b).fixed = s.fixed := by
  unfold State.reportMemory
  repeat' first
    | with_reducible rfl
    | with_reducible apply fixed_ite
    | (simp only [↓State.modTest_fixed, ↓State.event_fixed, fixed_mk]; done)
    | split
    | simp only [↓State.modTest_fixed, ↓State.event_fixed, fixed_mk, guarded]

theorem State.testFailed_fixed (s : State) (k block : Nat) : (State.testFailed s k block).fixed = s.fixed := by
  unfold State.testFailed
  split <;> simp only [↓State.dieEvent_fixed, ↓State.event_fixed, fixed_mk, guarded]

theorem State.precOff_fixed (s : State) (k : Nat) : (State.precOff s k).fixed = s.fixed := by
  unfold State.precOff
  refine onDie_fixed (fun _ => ?_) ?_
  · split <;> simp only [↓State.modTest_fixed, ↓State.settleChannels_fixed, ↓State.modDie_fixed, ↓State.fastOff_fixed, ↓State.discardRun_fixed, ↓State.abortSlice_fixed, fixed_mk, guarded]
  · simp only [↓State.modTest_fixed, ↓State.settleChannels_fixed, ↓State.modDie_fixed, ↓State.fastOff_fixed, ↓State.discardRun_fixed, ↓State.abortSlice_fixed, fixed_mk, guarded]

theorem State.precStart_fixed (s : State) (k : Nat) : (State.precStart s k).fixed = s.fixed := by
  unfold State.precStart
  simp only [↓State.takeRange_fixed, ↓State.policyTaken_fixed, ↓State.startService_fixed, ↓State.modDie_fixed, ↓State.discardRun_fixed, ↓State.takeBlock_fixed, fixed_mk, guarded]

theorem State.readFactory_fixed (s : State) (k copies : Nat) : (State.readFactory s k copies).fixed = s.fixed := by
  unfold State.readFactory
  repeat' first
    | with_reducible rfl
    | with_reducible apply fixed_ite
    | with_reducible refine onDie_fixed (fun _ => ?_) ?_
    | (simp only [↓State.modDie_fixed, ↓State.dieEvent_fixed, fixed_mk]; done)
    | split
    | simp only [↓State.modDie_fixed, ↓State.dieEvent_fixed, fixed_mk, guarded]

theorem State.enterProtOnly_fixed (s : State) (k : Nat) : (State.enterProtOnly s k).fixed = s.fixed := by
  unfold State.enterProtOnly
  refine onDie_fixed (fun _ => ?_) ?_
  · split <;> simp only [↓State.stopFast_fixed, ↓State.settleChannels_fixed, ↓State.modDie_fixed, ↓State.event_fixed, ↓State.discardRun_fixed, ↓State.cancelPend_fixed, fixed_mk, guarded]
  · simp only [↓State.stopFast_fixed, ↓State.settleChannels_fixed, ↓State.modDie_fixed, ↓State.event_fixed, ↓State.discardRun_fixed, ↓State.cancelPend_fixed, fixed_mk, guarded]

theorem State.noteValid_fixed (s : State) : (State.noteValid s).fixed = s.fixed := by
  unfold State.noteValid
  repeat' first
    | with_reducible rfl
    | with_reducible apply fixed_ite
    | (simp only [↓State.modDies_fixed, fixed_mk]; done)
    | split
    | simp only [↓State.modDies_fixed, fixed_mk, guarded]

theorem State.keepAlive_fixed (s : State) (k : Nat) : (State.keepAlive s k).fixed = s.fixed := by
  unfold State.keepAlive
  repeat' first
    | with_reducible rfl
    | with_reducible apply fixed_ite
    | with_reducible refine onDie_fixed (fun _ => ?_) ?_
    | (simp only [↓State.modDie_fixed, ↓State.dieEvent_fixed, fixed_mk]; done)
    | split
    | simp only [↓State.modDie_fixed, ↓State.dieEvent_fixed, fixed_mk, guarded]

theorem State.adoptProt_fixed (s : State) (k : Nat) : (State.adoptProt s k).fixed = s.fixed := by
  unfold State.adoptProt
  repeat' first
    | with_reducible rfl
    | with_reducible apply fixed_ite
    | (simp only [↓State.takeRange_fixed, ↓State.modDie_fixed, fixed_mk]; done)
    | split
    | simp only [↓State.takeRange_fixed, ↓State.modDie_fixed, fixed_mk, guarded]

theorem State.sampleComp_fixed (s : State) (k i : Nat) (uv : Bool) (v : Rat) : (State.sampleComp s k i uv v).fixed = s.fixed := by
  unfold State.sampleComp
  repeat' first
    | with_reducible rfl
    | with_reducible apply fixed_ite
    | with_reducible refine onDie_fixed (fun _ => ?_) ?_
    | (simp only [↓State.modDie_fixed, ↓State.dieEvent_fixed, ↓State.clearFor_fixed, ↓State.faultTrigger_fixed, fixed_mk]; done)
    | split
    | simp only [↓State.modDie_fixed, ↓State.dieEvent_fixed, ↓State.clearFor_fixed, ↓State.faultTrigger_fixed, fixed_mk, guarded]

theorem State.judgeReady_fixed (s : State) (k : Nat) : (State.judgeReady s k).fixed = s.fixed := by
  unfold State.judgeReady
  simp only [↓State.modDie_fixed, fixed_mk, guarded]

theorem State.endSweep_fixed (s : State) (k : Nat) : (State.endSweep s k).fixed = s.fixed := by
  unfold State.endSweep
  repeat' first
    | with_reducible rfl
    | with_reducible apply fixed_ite
    | (simp only [↓State.abortSlice_fixed, fixed_mk]; done)
    | split
    | simp only [↓State.abortSlice_fixed, fixed_mk, guarded]

theorem State.dacCleared_fixed (s : State) (k i : Nat) : (State.dacCleared s k i).fixed = s.fixed := by
  unfold State.dacCleared
  refine onDie_fixed (fun _ => ?_) ?_
  · split <;> simp only [↓State.heartResume_fixed, ↓State.dieEvent_fixed, fixed_mk, guarded]
  · simp only [↓State.heartResume_fixed, ↓State.dieEvent_fixed, fixed_mk, guarded]

theorem State.breakLink_fixed (s : State) (i : Nat) : (State.breakLink s i).fixed = s.fixed := by
  unfold State.breakLink
  repeat' first
    | with_reducible rfl
    | with_reducible apply fixed_ite
    | with_reducible refine (foldl_fixed (fun _ _ => ?_) _ _).trans ?_
    | (simp only [↓State.event_fixed, ↓State.fastOff_fixed, ↓State.closeFastStreams_fixed, fixed_mk]; done)
    | split
    | simp only [↓State.event_fixed, ↓State.fastOff_fixed, ↓State.closeFastStreams_fixed, fixed_mk, guarded]

theorem State.mendLink_fixed (s : State) (i : Nat) : (State.mendLink s i).fixed = s.fixed := by
  unfold State.mendLink
  repeat' first
    | with_reducible rfl
    | with_reducible apply fixed_ite
    | with_reducible refine (foldl_fixed (fun _ _ => ?_) _ _).trans ?_
    | with_reducible refine onDie_fixed (fun _ => ?_) ?_
    | (simp only [↓State.fastDomain_fixed, ↓State.heartResume_fixed, ↓State.modDie_fixed, ↓State.event_fixed, fixed_mk]; done)
    | split
    | simp only [↓State.fastDomain_fixed, ↓State.heartResume_fixed, ↓State.modDie_fixed, ↓State.event_fixed, fixed_mk, guarded]

theorem State.holdBlock_fixed (s : State) (k b : Nat) : (State.holdBlock s k b).fixed = s.fixed := by
  unfold State.holdBlock
  repeat' first
    | with_reducible rfl
    | with_reducible apply fixed_ite
    | (simp only [↓State.modDie_fixed, fixed_mk]; done)
    | split
    | simp only [↓State.modDie_fixed, fixed_mk, guarded]

theorem State.startSlice_fixed (s : State) (k b : Nat) : (State.startSlice s k b).fixed = s.fixed := by
  unfold State.startSlice
  simp only [↓State.modTest_fixed, ↓State.holdBlock_fixed, ↓State.takePrec_fixed, fixed_mk, guarded]

theorem State.loseCover_fixed (s : State) (k i : Nat) (cell : Option Nat) : (State.loseCover s k i cell).fixed = s.fixed := by
  unfold State.loseCover
  repeat' first
    | with_reducible rfl
    | with_reducible apply fixed_ite
    | with_reducible refine onDie_fixed (fun _ => ?_) ?_
    | (simp only [↓State.modDie_fixed, ↓State.abortSlice_fixed, fixed_mk]; done)
    | split
    | simp only [↓State.modDie_fixed, ↓State.abortSlice_fixed, fixed_mk, guarded]

theorem State.substitute_fixed (s : State) (k n : Nat) : (State.substitute s k n).fixed = s.fixed := by
  unfold State.substitute
  refine onDie_fixed (fun _ => ?_) ?_
  · split <;> simp only [↓State.modDie_fixed, ↓State.loseCover_fixed, ↓State.dieEvent_fixed, fixed_mk, guarded]
  · simp only [↓State.modDie_fixed, ↓State.loseCover_fixed, ↓State.dieEvent_fixed, fixed_mk, guarded]

theorem State.modulatorFailed_fixed (s : State) (k n : Nat) : (State.modulatorFailed s k n).fixed = s.fixed := by
  unfold State.modulatorFailed
  repeat' first
    | with_reducible rfl
    | with_reducible apply fixed_ite
    | with_reducible refine onDie_fixed (fun _ => ?_) ?_
    | (simp only [↓State.substitute_fixed, ↓State.modDie_fixed, ↓State.loseCover_fixed, ↓State.dieEvent_fixed, fixed_mk]; done)
    | split
    | simp only [↓State.substitute_fixed, ↓State.modDie_fixed, ↓State.loseCover_fixed, ↓State.dieEvent_fixed, fixed_mk, guarded]

theorem State.modulatorPassed_fixed (s : State) (k n : Nat) : (State.modulatorPassed s k n).fixed = s.fixed := by
  unfold State.modulatorPassed
  repeat' first
    | with_reducible rfl
    | with_reducible apply fixed_ite
    | with_reducible refine onDie_fixed (fun _ => ?_) ?_
    | (simp only [↓State.modDie_fixed, ↓State.dieEvent_fixed, fixed_mk]; done)
    | split
    | simp only [↓State.modDie_fixed, ↓State.dieEvent_fixed, fixed_mk, guarded]

theorem State.dieBlockFailed_fixed (s : State) (k b : Nat) : (State.dieBlockFailed s k b).fixed = s.fixed := by
  unfold State.dieBlockFailed
  repeat' first
    | with_reducible rfl
    | with_reducible apply fixed_ite
    | with_reducible refine onDie_fixed (fun _ => ?_) ?_
    | (simp only [↓State.stopFast_fixed, ↓State.breakLink_fixed, ↓State.settleChannels_fixed, ↓State.modDie_fixed, ↓State.dieEvent_fixed, ↓State.discardRun_fixed, ↓State.freeLinks_fixed, ↓State.modulatorFailed_fixed, fixed_mk]; done)
    | split
    | simp only [↓State.stopFast_fixed, ↓State.breakLink_fixed, ↓State.settleChannels_fixed, ↓State.modDie_fixed, ↓State.dieEvent_fixed, ↓State.discardRun_fixed, ↓State.freeLinks_fixed, ↓State.modulatorFailed_fixed, fixed_mk, guarded]

theorem State.dieBlockPassed_fixed (s : State) (k b : Nat) : (State.dieBlockPassed s k b).fixed = s.fixed := by
  unfold State.dieBlockPassed
  repeat' first
    | with_reducible rfl
    | with_reducible apply fixed_ite
    | with_reducible refine onDie_fixed (fun _ => ?_) ?_
    | (simp only [↓State.dacCleared_fixed, ↓State.modDie_fixed, ↓State.modulatorPassed_fixed, fixed_mk]; done)
    | split
    | simp only [↓State.dacCleared_fixed, ↓State.modDie_fixed, ↓State.modulatorPassed_fixed, fixed_mk, guarded]

theorem State.linkPassed_fixed (s : State) (k b : Nat) (had : Bool) : (State.linkPassed s k b had).fixed = s.fixed := by
  unfold State.linkPassed
  repeat' first
    | with_reducible rfl
    | with_reducible apply fixed_ite
    | (simp only [↓State.mendLink_fixed, fixed_mk]; done)
    | split
    | simp only [↓State.mendLink_fixed, fixed_mk, guarded]

theorem State.hubBlockFailed_fixed (s : State) (b : Nat) : (State.hubBlockFailed s b).fixed = s.fixed := by
  unfold State.hubBlockFailed
  split <;> simp only [↓State.latch_fixed, fixed_mk, guarded]

theorem State.endSlice_fixed (s : State) (k b result : Nat) : (State.endSlice s k b result).fixed = s.fixed := by
  unfold State.endSlice
  repeat' first
    | with_reducible rfl
    | with_reducible apply fixed_ite
    | (simp only [↓State.modTest_fixed, ↓State.dieBlockPassed_fixed, ↓State.modDie_fixed, ↓State.releaseSlice_fixed, ↓State.dieBlockFailed_fixed, ↓State.accrueTest_fixed, ↓State.testFailed_fixed, ↓State.hubBlockFailed_fixed, ↓State.linkPassed_fixed, fixed_mk]; done)
    | split
    | simp only [↓State.modTest_fixed, ↓State.dieBlockPassed_fixed, ↓State.modDie_fixed, ↓State.releaseSlice_fixed, ↓State.dieBlockFailed_fixed, ↓State.accrueTest_fixed, ↓State.testFailed_fixed, ↓State.hubBlockFailed_fixed, ↓State.linkPassed_fixed, fixed_mk, guarded]

theorem State.modChk_fixed (s : State) (i : Nat) (f : ChkUnit → ChkUnit) : (State.modChk s i f).fixed = s.fixed := rfl

end Sys2Proof.Machine
end

