-- ==== Sys2Proof/Laws/FixedHub.lean ====
section
/-! SUPPORT. Operations of the hub: host interface, trust, ports, safety, link, Locus leave the guarded part of the state alone. -/

namespace Sys2Proof.Machine

set_option linter.all false
set_option maxRecDepth 4000

theorem State.linkNotice_fixed (s : State) (side : Side) (code : Nat) : (State.linkNotice s side code).fixed = s.fixed := by
  unfold State.linkNotice
  simp only [↓State.originate_fixed, fixed_mk, guarded]

theorem State.routeChange_fixed (s : State) (side : Side) (code : Nat) : (State.routeChange s side code).fixed = s.fixed := by
  unfold State.routeChange
  simp only [↓State.linkNotice_fixed, ↓State.noteHolder_fixed, ↓State.event_fixed, fixed_mk, guarded]

theorem State.hopDown_fixed (s : State) (side : Side) : (State.hopDown s side).fixed = s.fixed := by
  unfold State.hopDown
  repeat' first
    | with_reducible rfl
    | with_reducible apply fixed_ite
    | with_reducible refine (foldl_fixed (fun _ _ => ?_) _ _).trans ?_
    | (simp only [↓State.modPort_fixed, ↓State.routeChange_fixed, ↓State.egress_fixed, fixed_mk]; done)
    | split
    | simp only [↓State.modPort_fixed, ↓State.routeChange_fixed, ↓State.egress_fixed, fixed_mk, guarded]

theorem State.hopUp_fixed (s : State) (side : Side) : (State.hopUp s side).fixed = s.fixed := by
  unfold State.hopUp
  repeat' first
    | with_reducible rfl
    | with_reducible apply fixed_ite
    | (simp only [↓State.modPort_fixed, ↓State.routeChange_fixed, ↓State.flushUnrouted_fixed, fixed_mk]; done)
    | split
    | simp only [↓State.modPort_fixed, ↓State.routeChange_fixed, ↓State.flushUnrouted_fixed, fixed_mk, guarded]

theorem State.startTraining_fixed (s : State) (side : Side) : (State.startTraining s side).fixed = s.fixed := by
  unfold State.startTraining
  simp only [↓State.modPort_fixed, ↓State.emit_fixed, fixed_mk, guarded]

theorem State.sendKeying_fixed (s : State) (side : Side) (rekey : Bool) (b : List Byte) : (State.sendKeying s side rekey b).fixed = s.fixed := by
  unfold State.sendKeying
  split <;> simp only [↓State.emit_fixed, ↓State.enqueue_fixed, fixed_mk, guarded]

theorem State.startKeying_fixed (s : State) (side : Side) (rekey : Bool) : (State.startKeying s side rekey).fixed = s.fixed := by
  unfold State.startKeying
  simp only [↓State.drawBits_fixed, ↓State.modPort_fixed, ↓State.sendKeying_fixed, fixed_mk, guarded]

theorem State.refuseKeying_fixed (s : State) (side : Side) : (State.refuseKeying s side).fixed = s.fixed := by
  unfold State.refuseKeying
  simp only [↓State.modPort_fixed, ↓State.event_fixed, fixed_mk, guarded]

theorem State.installKeys_fixed (s : State) (side : Side) (k : Keying) (peer : Nat × Nat) : (State.installKeys s side k peer).fixed = s.fixed := by
  unfold State.installKeys
  simp only [↓State.modPort_fixed, fixed_mk, guarded]

theorem State.takeOffer_fixed (s : State) (side : Side) (b : List Byte) : (State.takeOffer s side b).fixed = s.fixed := by
  unfold State.takeOffer
  repeat' first
    | with_reducible rfl
    | with_reducible apply fixed_ite
    | (simp only [↓State.drawBits_fixed, ↓State.modPort_fixed, ↓State.at__fixed, ↓State.refuseKeying_fixed, ↓State.startKeying_fixed, ↓State.event_fixed, ↓State.sendKeying_fixed, ↓State.rephase_fixed, fixed_mk]; done)
    | split
    | simp only [↓State.drawBits_fixed, ↓State.modPort_fixed, ↓State.at__fixed, ↓State.refuseKeying_fixed, ↓State.startKeying_fixed, ↓State.event_fixed, ↓State.sendKeying_fixed, ↓State.rephase_fixed, fixed_mk, guarded]

theorem State.takeSignature_fixed (s : State) (side : Side) (b : List Byte) : (State.takeSignature s side b).fixed = s.fixed := by
  unfold State.takeSignature
  repeat' first
    | with_reducible rfl
    | with_reducible apply fixed_ite
    | (simp only [↓State.installKeys_fixed, ↓State.refuseKeying_fixed, ↓State.hopUp_fixed, fixed_mk]; done)
    | split
    | simp only [↓State.installKeys_fixed, ↓State.refuseKeying_fixed, ↓State.hopUp_fixed, fixed_mk, guarded]

theorem State.modHif_fixed (s : State) (f : HifState → HifState) : (State.modHif s f).fixed = s.fixed := rfl

theorem State.raiseVector_fixed (s : State) (v : Nat) : (State.raiseVector s v).fixed = s.fixed := by
  unfold State.raiseVector
  split <;> simp only [↓State.modHif_fixed, ↓State.emit_fixed, fixed_mk, guarded]

theorem State.signal_fixed {s : State} {q : Queue} {put : Queue → State → State}
    (h : ∀ q s, (put q s).fixed = s.fixed) : (s.signal q put).fixed = s.fixed := by
  unfold State.signal
  exact fixed_ite rfl (fixed_ite (State.raiseVector_fixed ..) (fixed_ite rfl (h _ _)))

theorem State.putCq_fixed (n : Nat) (q : Queue) (s : State) : (State.putCq n q s).fixed = s.fixed := by
  unfold State.putCq
  simp only [↓State.modHif_fixed, fixed_mk, guarded]

theorem State.putStr_fixed (r : Nat) (q : Queue) (s : State) : (State.putStr r q s).fixed = s.fixed := by
  unfold State.putStr
  simp only [↓State.modHif_fixed, fixed_mk, guarded]

theorem State.putEq_fixed (q : Queue) (s : State) : (State.putEq q s).fixed = s.fixed := by
  unfold State.putEq
  simp only [↓State.modHif_fixed, fixed_mk, guarded]

theorem State.putSq_fixed (n : Nat) (q : Queue) (s : State) : (State.putSq n q s).fixed = s.fixed := by
  unfold State.putSq
  simp only [↓State.modHif_fixed, fixed_mk, guarded]

theorem State.hifFatal_fixed (s : State) (code : Nat) : (State.hifFatal s code).fixed = s.fixed := by
  unfold State.hifFatal
  simp only [↓State.modHif_fixed, ↓State.raiseVector_fixed, fixed_mk, guarded]

theorem State.queueError_fixed (s : State) (kind idx err : Nat) : (State.queueError s kind idx err).fixed = s.fixed := by
  unfold State.queueError
  simp only [↓State.event_fixed, fixed_mk, guarded]

theorem State.checkDrain_fixed (s : State) : (State.checkDrain s).fixed = s.fixed := by
  unfold State.checkDrain
  repeat' first
    | with_reducible rfl
    | with_reducible apply fixed_ite
    | (simp only [↓State.modHif_fixed, fixed_mk]; done)
    | split
    | simp only [↓State.modHif_fixed, fixed_mk, guarded]

theorem State.endSub_fixed (s : State) (x : Sub) : (State.endSub s x).fixed = s.fixed := by
  unfold State.endSub
  repeat' first
    | with_reducible rfl
    | with_reducible apply fixed_ite
    | (simp only [↓State.originate_fixed, ↓State.closeFastStream_fixed, fixed_mk]; done)
    | split
    | simp only [↓State.originate_fixed, ↓State.closeFastStream_fixed, fixed_mk, guarded]

theorem State.hifClear_fixed (s : State) : (State.hifClear s).2.fixed = s.fixed := by
  unfold State.hifClear
  repeat' first
    | with_reducible rfl
    | with_reducible apply fixed_ite
    | with_reducible refine (foldl_fixed (fun _ _ => ?_) _ _).trans ?_
    | (simp only [↓State.modHif_fixed, ↓State.unclaim_fixed, ↓State.endSub_fixed, fixed_mk]; done)
    | split
    | simp only [↓State.modHif_fixed, ↓State.unclaim_fixed, ↓State.endSub_fixed, fixed_mk, guarded]

theorem State.hifOff_fixed (s : State) : (State.hifOff s).fixed = s.fixed := by
  unfold State.hifOff
  simp only [↓State.hifClear_fixed, fixed_mk, guarded]

theorem State.wakePart_fixed (s : State) (pos state : Nat) : (State.wakePart s pos state).fixed = s.fixed := by
  unfold State.wakePart
  simp only [↓State.emit_fixed, fixed_mk, guarded]

theorem State.castAsleep_fixed (s : State) (x : InFlight) : (State.castAsleep s x).fixed = s.fixed := by
  unfold State.castAsleep
  repeat' first
    | with_reducible rfl
    | with_reducible apply fixed_ite
    | with_reducible refine (foldl_fixed (fun _ _ => ?_) _ _).trans ?_
    | (simp only [↓State.takeCompletion_fixed, ↓State.wakePart_fixed, fixed_mk]; done)
    | split
    | simp only [↓State.takeCompletion_fixed, ↓State.wakePart_fixed, fixed_mk, guarded]

theorem State.awake_fixed (s : State) (pos : Nat) : (State.awake s pos).fixed = s.fixed := by
  unfold State.awake
  repeat' first
    | with_reducible rfl
    | with_reducible apply fixed_ite
    | with_reducible refine (foldl_fixed (fun _ _ => ?_) _ _).trans ?_
    | (simp only [↓State.modHif_fixed, ↓State.takeCompletion_fixed, fixed_mk]; done)
    | split
    | simp only [↓State.modHif_fixed, ↓State.takeCompletion_fixed, fixed_mk, guarded]

theorem State.startGroup_fixed (s : State) (x : InFlight) (body : List Byte) : (State.startGroup s x body).fixed = s.fixed := by
  unfold State.startGroup
  repeat' first
    | with_reducible rfl
    | with_reducible apply fixed_ite
    | (simp only [↓State.originate_fixed, ↓State.queueCompletion_fixed, fixed_mk]; done)
    | split
    | simp only [↓State.originate_fixed, ↓State.queueCompletion_fixed, fixed_mk, guarded]

theorem State.openRemote_fixed (s : State) (x : InFlight) (body : List Byte) : (State.openRemote s x body).fixed = s.fixed := by
  unfold State.openRemote
  split <;> simp only [↓State.originate_fixed, ↓State.modHif_fixed, ↓State.queueCompletion_fixed, fixed_mk, guarded]

theorem State.startCmd_fixed (s : State) (x : InFlight) : (State.startCmd s x).fixed = s.fixed := by
  unfold State.startCmd
  repeat' first
    | with_reducible rfl
    | with_reducible apply fixed_ite
    | (simp only [↓State.openRemote_fixed, ↓State.originate_fixed, ↓State.modHif_fixed, ↓State.castAsleep_fixed, ↓State.wakePart_fixed, ↓State.startGroup_fixed, ↓State.queueCompletion_fixed, fixed_mk]; done)
    | split
    | simp only [↓State.openRemote_fixed, ↓State.originate_fixed, ↓State.modHif_fixed, ↓State.castAsleep_fixed, ↓State.wakePart_fixed, ↓State.startGroup_fixed, ↓State.queueCompletion_fixed, fixed_mk, guarded]

theorem State.startWaiting_fixed (s : State) (n : Nat) : (s.startWaiting n).fixed = s.fixed := by
  induction n generalizing s with
  | zero => rfl
  | succ n ih =>
    unfold State.startWaiting
    split
    · rfl
    · exact (ih _).trans (State.startCmd_fixed ..)

theorem State.startAll_fixed (s : State) : (State.startAll s).fixed = s.fixed := by
  unfold State.startAll
  simp only [↓State.startWaiting_fixed, fixed_mk, guarded]

theorem State.finishRead_fixed (s : State) (c : Cmd) (lost : List Nat) (got : List (Nat × List Byte)) : (State.finishRead s c lost got).fixed = s.fixed := by
  unfold State.finishRead
  simp only [↓State.completeData_fixed, fixed_mk, guarded]

theorem State.endClosed_fixed (s : State) : (State.endClosed s).fixed = s.fixed := by
  unfold State.endClosed
  repeat' first
    | with_reducible rfl
    | with_reducible apply fixed_ite
    | with_reducible refine (foldl_fixed (fun _ _ => ?_) _ _).trans ?_
    | (simp only [↓State.modHif_fixed, ↓State.completeOpt_fixed, fixed_mk]; done)
    | split
    | simp only [↓State.modHif_fixed, ↓State.completeOpt_fixed, fixed_mk, guarded]

theorem State.noteActivity_fixed (s : State) : (State.noteActivity s).fixed = s.fixed := rfl

theorem State.undoze_fixed (s : State) : (State.undoze s).fixed = s.fixed := by
  unfold State.undoze
  repeat' first
    | with_reducible rfl
    | with_reducible apply fixed_ite
    | with_reducible refine (foldl_fixed (fun _ _ => ?_) _ _).trans ?_
    | (simp only [↓State.fastDomain_fixed, ↓State.noteActivity_fixed, ↓State.accrueTest_fixed, fixed_mk]; done)
    | split
    | simp only [↓State.fastDomain_fixed, ↓State.noteActivity_fixed, ↓State.accrueTest_fixed, fixed_mk, guarded]

theorem State.sign_fixed (s : State) (key : Nat) (msg : List Byte) : (State.sign s key msg).2.fixed = s.fixed := by
  unfold State.sign
  simp only [↓State.drawBits_fixed, fixed_mk, guarded]

theorem State.commitMeter_fixed (s : State) (warn : Bool) : (State.commitMeter s warn).fixed = s.fixed := by
  unfold State.commitMeter
  simp only [State.modTrust, State.modCfg, fixed_mk, guarded]

theorem State.srcIdent_fixed (s : State) (p : Nat) : (State.srcIdent s p).2.fixed = s.fixed := by
  unfold State.srcIdent
  repeat' first
    | with_reducible rfl
    | with_reducible apply fixed_ite
    | (simp only [↓State.drawBits_fixed, fixed_mk]; done)
    | split
    | simp only [↓State.drawBits_fixed, fixed_mk, guarded]

theorem State.statementHead_fixed (s : State) (c : Cmd) : (State.statementHead s c).2.fixed = s.fixed := by
  unfold State.statementHead
  repeat' first
    | with_reducible rfl
    | with_reducible apply fixed_ite
    | (simp only [↓State.srcIdent_fixed, fixed_mk]; done)
    | split
    | simp only [↓State.srcIdent_fixed, fixed_mk, guarded]

theorem State.formStatement_fixed (s : State) (c : Cmd) : (State.formStatement s c).fixed = s.fixed := by
  unfold State.formStatement
  split <;> simp only [↓State.event_fixed, ↓State.sign_fixed, ↓State.completeData_fixed, ↓State.statementHead_fixed, ↓State.complete_fixed, State.modTrust, State.modCfg, fixed_mk, guarded]

theorem State.formStatements_fixed (s : State) : (State.formStatements s).fixed = s.fixed := by
  unfold State.formStatements
  repeat' first
    | with_reducible rfl
    | with_reducible apply fixed_ite
    | with_reducible refine (foldl_fixed (fun _ _ => ?_) _ _).trans ?_
    | (simp only [↓State.formStatement_fixed, State.modTrust, State.modCfg, fixed_mk]; done)
    | split
    | simp only [↓State.formStatement_fixed, State.modTrust, State.modCfg, fixed_mk, guarded]

theorem State.noteImage_fixed (s : State) (kind sub : Nat) (b : List Byte) : (State.noteImage s kind sub b).fixed = s.fixed := by
  unfold State.noteImage
  simp only [↓State.blackBox_fixed, ↓State.event_fixed, fixed_mk, guarded]

theorem State.abortExecuting_fixed (s : State) : (State.abortExecuting s).fixed = s.fixed := by
  unfold State.abortExecuting
  repeat' first
    | with_reducible rfl
    | with_reducible apply fixed_ite
    | with_reducible refine (foldl_fixed (fun _ _ => ?_) _ _).trans ?_
    | (simp only [↓State.complete_fixed, fixed_mk]; done)
    | split
    | simp only [↓State.complete_fixed, fixed_mk, guarded]

theorem State.tasksHome_fixed (s : State) (k : Nat) : (State.tasksHome s k).fixed = s.fixed := by
  unfold State.tasksHome
  repeat' first
    | with_reducible rfl
    | with_reducible apply fixed_ite
    | with_reducible refine onDie_fixed (fun _ => ?_) ?_
    | (simp only [↓State.loadState_fixed, ↓State.modDie_fixed, fixed_mk]; done)
    | split
    | simp only [↓State.loadState_fixed, ↓State.modDie_fixed, fixed_mk, guarded]

theorem State.beginSpan_fixed (s : State) (a : Activation) : (State.beginSpan s a).fixed = s.fixed := by
  unfold State.beginSpan
  simp only [↓State.modDies_fixed, State.modTrust, State.modCfg, fixed_mk, guarded]

theorem State.resetSpan_fixed (s : State) : (State.resetSpan s).fixed = s.fixed := by
  unfold State.resetSpan
  repeat' first
    | with_reducible rfl
    | with_reducible apply fixed_ite
    | with_reducible refine (foldl_fixed (fun _ _ => ?_) _ _).trans ?_
    | (simp only [↓State.tasksHome_fixed, ↓State.abortExecuting_fixed, State.modTrust, State.modCfg, fixed_mk]; done)
    | split
    | simp only [↓State.tasksHome_fixed, ↓State.abortExecuting_fixed, State.modTrust, State.modCfg, fixed_mk, guarded]

theorem State.beginApex_fixed (s : State) (a : Activation) : (State.beginApex s a).fixed = s.fixed := by
  unfold State.beginApex
  split <;> simp only [↓State.accrueTest_fixed, ↓State.noteImage_fixed, ↓State.complete_fixed, State.modTrust, State.modCfg, fixed_mk, guarded]

theorem State.actDue_fixed (s : State) : (State.actDue s).fixed = s.fixed := by
  unfold State.actDue
  repeat' first
    | with_reducible rfl
    | with_reducible apply fixed_ite
    | (simp only [↓State.resetSpan_fixed, ↓State.beginSpan_fixed, ↓State.beginApex_fixed, fixed_mk]; done)
    | split
    | simp only [↓State.resetSpan_fixed, ↓State.beginSpan_fixed, ↓State.beginApex_fixed, fixed_mk, guarded]

theorem State.bbBytes_fixed (s : State) (w : BbWait) (unsign : Bool) : (State.bbBytes s w unsign).2.fixed = s.fixed := by
  unfold State.bbBytes
  split <;> simp only [↓State.sign_fixed, fixed_mk, guarded]

theorem State.writeBb_fixed (s : State) (okA okB : Bool) : (s.writeBb okA okB).fixed = s.fixed := by
  unfold State.writeBb
  split
  · rfl
  · dsimp only
    repeat' first
      | with_reducible rfl
      | with_reducible apply fixed_ite
      | simp only [↓State.originate_fixed, ↓State.event_fixed, State.modTrust, TrustState.putBb, fixed_mk, guarded, ↓State.bbBytes_fixed]

theorem State.writeAllBb_fixed (s : State) (n : Nat) : (s.writeAllBb n).fixed = s.fixed := by
  induction n generalizing s with
  | zero => rfl
  | succ n ih =>
    unfold State.writeAllBb
    exact fixed_ite rfl ((ih _).trans (State.writeBb_fixed ..))

theorem State.drainPort_fixed (s : State) (side : Side) (tcs : List Nat) (n : Nat) :
    (s.drainPort side tcs n).fixed = s.fixed := by
  induction n generalizing s with
  | zero => rfl
  | succ n ih =>
    unfold State.drainPort
    refine fixed_ite rfl ?_
    split
    · rfl
    · exact (ih _).trans ((State.emit_fixed ..).trans (State.modPort_fixed ..))

theorem State.drainUrgent_fixed (s : State) : (State.drainUrgent s).fixed = s.fixed := by
  unfold State.drainUrgent
  simp only [↓State.drainPort_fixed, fixed_mk, guarded]

theorem State.dropHops_fixed (s : State) : (State.dropHops s).fixed = s.fixed := by
  unfold State.dropHops
  simp only [↓State.modPort_fixed, ↓State.hopDown_fixed, fixed_mk, guarded]

theorem State.debugRecord_fixed (s : State) (level : Nat) (awake : Bool) (signer : List Byte) : (State.debugRecord s level awake signer).fixed = s.fixed := by
  unfold State.debugRecord
  simp only [↓State.blackBox_fixed, fixed_mk, guarded]

theorem State.modSwp_fixed (s : State) (p : Nat) (f : SwpPort → SwpPort) : (State.modSwp s p f).fixed = s.fixed := by
  unfold State.modSwp
  split <;> simp only [fixed_mk, guarded]

theorem State.onSwp_fixed {s : State} {p : Nat} {f : SwpPort → State} {x : Fixed} (h : ∀ d, (f d).fixed = x)
    (hs : s.fixed = x) : (s.onSwp p f).fixed = x := by
  unfold State.onSwp
  refine fixed_ite hs ?_
  split
  · exact hs
  · exact h _

theorem State.emits_fixed (s : State) (l : List Out) : (State.emits s l).fixed = s.fixed := by
  unfold State.emits
  repeat' first
    | with_reducible rfl
    | with_reducible apply fixed_ite
    | with_reducible refine (foldl_fixed (fun _ _ => ?_) _ _).trans ?_
    | (simp only [↓State.emit_fixed, fixed_mk]; done)
    | split
    | simp only [↓State.emit_fixed, fixed_mk, guarded]

theorem State.startSearch_fixed (s : State) (p kind : Nat) : (State.startSearch s p kind).fixed = s.fixed := by
  unfold State.startSearch
  simp only [↓State.emit_fixed, ↓State.modSwp_fixed, fixed_mk, guarded]

theorem State.adoptSwp_fixed (s : State) (p : Nat) : (State.adoptSwp s p).fixed = s.fixed := by
  unfold State.adoptSwp
  repeat' first
    | with_reducible rfl
    | with_reducible apply fixed_ite
    | (simp only [↓State.takeRange_fixed, ↓State.modSwp_fixed, fixed_mk]; done)
    | split
    | simp only [↓State.takeRange_fixed, ↓State.modSwp_fixed, fixed_mk, guarded]

theorem State.adoptIdlePorts_fixed (s : State) : (State.adoptIdlePorts s).fixed = s.fixed := by
  unfold State.adoptIdlePorts
  repeat' first
    | with_reducible rfl
    | with_reducible apply fixed_ite
    | with_reducible refine (foldl_fixed (fun _ _ => ?_) _ _).trans ?_
    | with_reducible refine State.onSwp_fixed (fun _ => ?_) ?_
    | (simp only [↓State.adoptSwp_fixed, fixed_mk]; done)
    | split
    | simp only [↓State.adoptSwp_fixed, fixed_mk, guarded]

theorem State.takeSlot_fixed (s : State) (p number i : Nat) : (State.takeSlot s p number i).fixed = s.fixed := by
  unfold State.takeSlot
  repeat' first
    | with_reducible rfl
    | with_reducible apply fixed_ite
    | with_reducible refine State.onSwp_fixed (fun _ => ?_) ?_
    | (simp only [↓State.event_fixed, ↓State.modSwp_fixed, fixed_mk]; done)
    | split
    | simp only [↓State.event_fixed, ↓State.modSwp_fixed, fixed_mk, guarded]

theorem State.assignSensor_fixed (s : State) (p number : Nat) (back : List Nat) : (State.assignSensor s p number back).fixed = s.fixed := by
  unfold State.assignSensor
  repeat' first
    | with_reducible rfl
    | with_reducible apply fixed_ite
    | with_reducible refine State.onSwp_fixed (fun _ => ?_) ?_
    | (simp only [↓State.takeSlot_fixed, ↓State.event_fixed, ↓State.emits_fixed, ↓State.modSwp_fixed, fixed_mk]; done)
    | split
    | simp only [↓State.takeSlot_fixed, ↓State.event_fixed, ↓State.emits_fixed, ↓State.modSwp_fixed, fixed_mk, guarded]

theorem State.endSearch_fixed (s : State) (p : Nat) (runs : List Cmd) (st : Status) : (State.endSearch s p runs st).fixed = s.fixed := by
  unfold State.endSearch
  repeat' first
    | with_reducible rfl
    | with_reducible apply fixed_ite
    | with_reducible refine (foldl_fixed (fun _ _ => ?_) _ _).trans ?_
    | with_reducible refine State.onSwp_fixed (fun _ => ?_) ?_
    | (simp only [↓State.emits_fixed, ↓State.adoptSwp_fixed, ↓State.modSwp_fixed, ↓State.complete_fixed, fixed_mk]; done)
    | split
    | simp only [↓State.emits_fixed, ↓State.adoptSwp_fixed, ↓State.modSwp_fixed, ↓State.complete_fixed, fixed_mk, guarded]

theorem State.stepTests_fixed (s : State) (levels tp : List Bool) : (State.stepTests s levels tp).fixed = s.fixed := by
  unfold State.stepTests
  repeat' first
    | with_reducible rfl
    | with_reducible apply fixed_ite
    | with_reducible refine (foldl_fixed (fun _ _ => ?_) _ _).trans ?_
    | (simp only [↓State.latch_fixed, ↓State.event_fixed, fixed_mk]; done)
    | split
    | simp only [↓State.latch_fixed, ↓State.event_fixed, fixed_mk, guarded]

theorem State.stepInput_fixed (s : State) (levels : List Bool) (i : Nat) : (State.stepInput s levels i).fixed = s.fixed := by
  unfold State.stepInput
  repeat' first
    | with_reducible rfl
    | with_reducible apply fixed_ite
    | (simp only [↓State.latch_fixed, ↓State.event_fixed, fixed_mk]; done)
    | split
    | simp only [↓State.latch_fixed, ↓State.event_fixed, fixed_mk, guarded]

theorem State.stepFeedback_fixed (s : State) (fb : List Bool) (k : Nat) : (State.stepFeedback s fb k).fixed = s.fixed := by
  unfold State.stepFeedback
  repeat' first
    | with_reducible rfl
    | with_reducible apply fixed_ite
    | (simp only [↓State.latch_fixed, ↓State.event_fixed, fixed_mk]; done)
    | split
    | simp only [↓State.latch_fixed, ↓State.event_fixed, fixed_mk, guarded]

theorem State.stepLorst_fixed (s : State) (high : Bool) : (State.stepLorst s high).fixed = s.fixed := rfl

theorem State.measureAux_fixed (s : State) : (State.measureAux s).fixed = s.fixed := by
  unfold State.measureAux
  simp only [↓State.drawBits_fixed, fixed_mk, guarded]

theorem State.endPulse_fixed (s : State) (o : Nat) : (State.endPulse s o).fixed = s.fixed := by
  unfold State.endPulse
  repeat' first
    | with_reducible rfl
    | with_reducible apply fixed_ite
    | (simp only [↓State.emit_fixed, fixed_mk]; done)
    | split
    | simp only [↓State.emit_fixed, fixed_mk, guarded]

theorem State.countFrameError_fixed (s : State) (conn sub : Nat) : (State.countFrameError s conn sub).fixed = s.fixed := by
  unfold State.countFrameError
  simp only [↓State.event_fixed, fixed_mk, guarded]

theorem State.modWatch_fixed (s : State) (p : Nat) (f : WatchPos → WatchPos) : (State.modWatch s p f).fixed = s.fixed := rfl

theorem State.connError_fixed (s : State) (p : Nat) : (State.connError s p).fixed = s.fixed := by
  unfold State.connError
  repeat' first
    | with_reducible rfl
    | with_reducible apply fixed_ite
    | (simp only [↓State.latch_fixed, ↓State.modWatch_fixed, fixed_mk]; done)
    | split
    | simp only [↓State.latch_fixed, ↓State.modWatch_fixed, fixed_mk, guarded]

theorem State.validFrame_fixed (s : State) (p : Nat) (b : List Byte) : (State.validFrame s p b).fixed = s.fixed := by
  unfold State.validFrame
  repeat' first
    | with_reducible rfl
    | with_reducible apply fixed_ite
    | (simp only [↓State.evalOuts_fixed, ↓State.latch_fixed, ↓State.event_fixed, ↓State.modWatch_fixed, fixed_mk]; done)
    | split
    | simp only [↓State.evalOuts_fixed, ↓State.latch_fixed, ↓State.event_fixed, ↓State.modWatch_fixed, fixed_mk, guarded]

theorem State.hostFrame_fixed (s : State) (b : List Byte) : (State.hostFrame s b).fixed = s.fixed := by
  unfold State.hostFrame
  repeat' first
    | with_reducible rfl
    | with_reducible apply fixed_ite
    | (simp only [↓State.evalOuts_fixed, ↓State.countFrameError_fixed, ↓State.event_fixed, fixed_mk]; done)
    | split
    | simp only [↓State.evalOuts_fixed, ↓State.countFrameError_fixed, ↓State.event_fixed, fixed_mk, guarded]

theorem State.disarmAll_fixed (s : State) : s.disarmAll.fixed = s.fixed := by
  unfold State.disarmAll
  refine (State.evalOuts_fixed _).trans ?_
  exact fixed_ite ((State.latch_fixed ..).trans rfl) rfl

theorem State.dropPlace_fixed (s : State) : (State.dropPlace s).fixed = s.fixed := rfl

theorem State.becomeFrontier_fixed (s : State) : (State.becomeFrontier s).fixed = s.fixed := rfl

theorem State.startEnumeration_fixed (s : State) (cmd : Option Cmd) : (State.startEnumeration s cmd).fixed = s.fixed := by
  unfold State.startEnumeration
  repeat' first
    | with_reducible rfl
    | with_reducible apply fixed_ite
    | with_reducible refine (foldl_fixed (fun _ _ => ?_) _ _).trans ?_
    | (simp only [↓State.becomeFrontier_fixed, ↓State.originate_fixed, ↓State.disarmAll_fixed, ↓State.queueCompletion_fixed, ↓State.dropPlace_fixed, ↓State.takeBlock_fixed, ↓State.cancelPend_fixed, fixed_mk]; done)
    | split
    | simp only [↓State.becomeFrontier_fixed, ↓State.originate_fixed, ↓State.disarmAll_fixed, ↓State.queueCompletion_fixed, ↓State.dropPlace_fixed, ↓State.takeBlock_fixed, ↓State.cancelPend_fixed, fixed_mk, guarded]

theorem State.finishEnumeration_fixed (s : State) (parts : Nat) (closed : Bool) : (State.finishEnumeration s parts closed).fixed = s.fixed := by
  unfold State.finishEnumeration
  repeat' first
    | with_reducible rfl
    | with_reducible apply fixed_ite
    | with_reducible refine (foldl_fixed (fun _ _ => ?_) _ _).trans ?_
    | (simp only [↓State.modPort_fixed, ↓State.originate_fixed, ↓State.holderAnew_fixed, ↓State.event_fixed, ↓State.flushUnrouted_fixed, ↓State.startAll_fixed, ↓State.completeOpt_fixed, fixed_mk]; done)
    | split
    | simp only [↓State.modPort_fixed, ↓State.originate_fixed, ↓State.holderAnew_fixed, ↓State.event_fixed, ↓State.flushUnrouted_fixed, ↓State.startAll_fixed, ↓State.completeOpt_fixed, fixed_mk, guarded]

theorem State.endEnumeration_fixed (s : State) (parts : Nat) (closed : Bool) : (State.endEnumeration s parts closed).fixed = s.fixed := by
  unfold State.endEnumeration
  repeat' first
    | with_reducible rfl
    | with_reducible apply fixed_ite
    | (simp only [↓State.originate_fixed, ↓State.enqueue_fixed, ↓State.finishEnumeration_fixed, fixed_mk]; done)
    | split
    | simp only [↓State.originate_fixed, ↓State.enqueue_fixed, ↓State.finishEnumeration_fixed, fixed_mk, guarded]

theorem State.freshHop_fixed (s : State) (ident next : Nat) : (State.freshHop s ident next).fixed = s.fixed := by
  unfold State.freshHop
  simp only [↓State.modPort_fixed, ↓State.startTraining_fixed, ↓State.hopDown_fixed, fixed_mk, guarded]

theorem State.closeRing_fixed (s : State) : (State.closeRing s).fixed = s.fixed := by
  unfold State.closeRing
  repeat' first
    | with_reducible rfl
    | with_reducible apply fixed_ite
    | (simp only [↓State.endEnumeration_fixed, fixed_mk]; done)
    | split
    | simp only [↓State.endEnumeration_fixed, fixed_mk, guarded]

theorem State.tagFailure_fixed (s : State) (side : Side) : (State.tagFailure s side).fixed = s.fixed := by
  unfold State.tagFailure
  repeat' first
    | with_reducible rfl
    | with_reducible apply fixed_ite
    | (simp only [↓State.modPort_fixed, ↓State.hopDown_fixed, ↓State.event_fixed, fixed_mk]; done)
    | split
    | simp only [↓State.modPort_fixed, ↓State.hopDown_fixed, ↓State.event_fixed, fixed_mk, guarded]

theorem State.passTc0_fixed (s : State) (f : Frame) : (State.passTc0 s f).fixed = s.fixed := by
  unfold State.passTc0
  split <;> simp only [↓State.freeLinks_fixed, fixed_mk, guarded]

theorem State.takeFrame_fixed (s : State) (side : Side) (bytes : List Byte) : (State.takeFrame s side bytes).fixed = s.fixed := by
  unfold State.takeFrame
  repeat' first
    | with_reducible rfl
    | with_reducible apply fixed_ite
    | with_reducible refine (foldl_fixed (fun _ _ => ?_) _ _).trans ?_
    | (simp only [↓State.modPort_fixed, ↓State.tagFailure_fixed, ↓State.passTc0_fixed, fixed_mk]; done)
    | split
    | simp only [↓State.modPort_fixed, ↓State.tagFailure_fixed, ↓State.passTc0_fixed, fixed_mk, guarded]

theorem State.exchange_fixed (s : State) (side : Side) (b : List Byte) : (State.exchange s side b).fixed = s.fixed := by
  unfold State.exchange
  repeat' first
    | with_reducible rfl
    | with_reducible apply fixed_ite
    | (simp only [↓State.modPort_fixed, fixed_mk]; done)
    | split
    | simp only [↓State.modPort_fixed, fixed_mk, guarded]

theorem State.queueBeacon_fixed (s : State) (side : Side) (f : Frame) (corr : Nat) : (State.queueBeacon s side f corr).fixed = s.fixed := by
  unfold State.queueBeacon
  simp only [↓State.enqueue_fixed, fixed_mk, guarded]

theorem State.servo_fixed (s : State) (ofs : Int) (base : Nat) : (State.servo s ofs base).fixed = s.fixed := by
  unfold State.servo
  repeat' first
    | with_reducible rfl
    | with_reducible apply fixed_ite
    | (simp only [↓State.takeStep_fixed, fixed_mk]; done)
    | split
    | simp only [↓State.takeStep_fixed, fixed_mk, guarded]

theorem State.commitPackTime_fixed (s : State) : (State.commitPackTime s).fixed = s.fixed := by
  unfold State.commitPackTime
  split <;> simp only [fixed_mk, guarded]

theorem State.bucketFlag_fixed (s : State) : (State.bucketFlag s).fixed = s.fixed := by
  unfold State.bucketFlag
  repeat' first
    | with_reducible rfl
    | with_reducible apply fixed_ite
    | (simp only [↓State.placement_fixed, fixed_mk]; done)
    | split
    | simp only [↓State.placement_fixed, fixed_mk, guarded]

theorem State.failStore_fixed (s : State) : (State.failStore s).fixed = s.fixed := by
  unfold State.failStore
  split <;> simp only [↓State.writer_fixed, ↓State.placement_fixed, fixed_mk, guarded]

theorem State.takeUnits_fixed {s : State} {but : List Nat} {n : Nat} {r : List Nat × State} (h : s.takeUnits but n = some r) :
    r.2.fixed = s.fixed := by
  induction n generalizing s r with
  | zero => cases h; rfl
  | succ m ih =>
    unfold State.takeUnits at h
    obtain ⟨b, hb, h⟩ := Option.bind_eq_some_iff.1 h
    obtain ⟨x, hx, rfl⟩ := Option.map_eq_some_iff.1 h
    exact (ih hx).trans (State.targetBlock_fixed hb)

theorem State.copyBlock_fixed {s t : State} {i : Nat} (h : s.copyBlock i = some t) : t.fixed = s.fixed := by
  unfold State.copyBlock at h
  have key : ∀ (l : List (List Rec)) (f : State → List Rec → Option State) (_ : ∀ u r v, f u r = some v → v.fixed = u.fixed)
      (o : Option State), l.foldl (fun acc r => acc.bind fun u => f u r) o = some t → ∃ u, o = some u ∧ t.fixed = u.fixed := by
    intro l f hf
    induction l with
    | nil => exact fun o h => ⟨t, h, rfl⟩
    | cons a l ih =>
      intro o h
      obtain ⟨u, hu, ht⟩ := ih _ h
      obtain ⟨v, hv, hf'⟩ := Option.bind_eq_some_iff.1 hu
      exact ⟨v, hv, ht.trans (hf _ _ _ hf')⟩
  obtain ⟨u, hu, ht⟩ := key _ _ (fun u r v hv => by
    obtain ⟨x, hx, rfl⟩ := Option.map_eq_some_iff.1 hv
    exact (State.takeUnits_fixed hx)) _ h
  cases hu
  exact ht

theorem State.levelWear_fixed (s : State) : s.levelWear.fixed = s.fixed := by
  unfold State.levelWear
  dsimp only
  split
  · rfl
  · refine fixed_ite rfl ?_
    split
    · rfl
    · rename_i h
      exact (State.copyBlock_fixed h).trans rfl

theorem State.moveRetired_fixed (s : State) : s.moveRetired.fixed = s.fixed := by
  unfold State.moveRetired
  refine foldl_fixed (fun s b => fixed_ite rfl ?_) _ _
  cases h : s.copyBlock b.idx with
  | none => rfl
  | some t => exact State.copyBlock_fixed h

theorem State.retireBlock_fixed (s : State) (i : Nat) : (s.retireBlock i).fixed = s.fixed := by
  unfold State.retireBlock
  exact fixed_ite ((State.failStore_fixed _).trans ((State.placement_fixed ..).trans rfl))
    ((State.moveRetired_fixed _).trans ((State.placement_fixed ..).trans rfl))

theorem State.spillUnit_fixed (s : State) (u : OpenUnit) (holder : Nat) : (State.spillUnit s u holder).fixed = s.fixed := by
  unfold State.spillUnit
  repeat' first
    | with_reducible rfl
    | with_reducible apply fixed_ite
    | with_reducible refine (foldl_fixed (fun _ _ => ?_) _ _).trans ?_
    | (simp only [↓State.originate_fixed, fixed_mk]; done)
    | split
    | simp only [↓State.originate_fixed, fixed_mk, guarded]

theorem State.programUnit_fixed (s : State) (u : OpenUnit) (i : Nat) : (s.programUnit u i).fixed = s.fixed := by
  unfold State.programUnit
  exact (State.bucketFlag_fixed _).trans ((State.levelWear_fixed _).trans rfl)

theorem State.programHead_fixed (s : State) (ok : Bool) : (s.programHead ok).fixed = s.fixed := by
  unfold State.programHead
  split
  · rfl
  · dsimp only
    split
    · exact fixed_ite ((State.writer_fixed _).trans ((State.programUnit_fixed ..).trans rfl))
        ((State.writer_fixed _).trans ((State.retireBlock_fixed ..).trans rfl))
    · refine fixed_ite rfl ?_
      split
      · rfl
      · exact fixed_ite ((State.writer_fixed _).trans ((State.spillUnit_fixed ..).trans rfl)) rfl

theorem State.abandon_fixed (s : State) (groups : List Nat) : (State.abandon s groups).fixed = s.fixed := rfl

theorem State.abandonD3_fixed (s : State) : (State.abandonD3 s).fixed = s.fixed := by
  unfold State.abandonD3
  repeat' first
    | with_reducible rfl
    | with_reducible apply fixed_ite
    | with_reducible refine (foldl_fixed (fun _ _ => ?_) _ _).trans ?_
    | (simp only [↓State.abandon_fixed, ↓State.countDrop_fixed, fixed_mk]; done)
    | split
    | simp only [↓State.abandon_fixed, ↓State.countDrop_fixed, fixed_mk, guarded]

theorem State.programAll_fixed (s : State) (n : Nat) : (s.programAll n).fixed = s.fixed := by
  induction n generalizing s with
  | zero => rfl
  | succ n ih =>
    unfold State.programAll
    exact fixed_ite rfl ((ih _).trans ((State.programHead_fixed ..).trans (State.startUnit_fixed ..)))

theorem State.writeDir_fixed (s : State) : (State.writeDir s).fixed = s.fixed := rfl

theorem State.locusWarning_fixed (s : State) (holdMs : Nat) : (State.locusWarning s holdMs).fixed = s.fixed := by
  unfold State.locusWarning
  repeat' first
    | with_reducible rfl
    | with_reducible apply fixed_ite
    | (simp only [↓State.writeDir_fixed, ↓State.programHead_fixed, ↓State.programAll_fixed, ↓State.abandonD3_fixed, fixed_mk]; done)
    | split
    | simp only [↓State.writeDir_fixed, ↓State.programHead_fixed, ↓State.programAll_fixed, ↓State.abandonD3_fixed, fixed_mk, guarded]

theorem State.locusSleep_fixed (s : State) : (State.locusSleep s).fixed = s.fixed := by
  unfold State.locusSleep
  split <;> simp only [↓State.writeDir_fixed, ↓State.programAll_fixed, fixed_mk, guarded]

theorem State.locusRestart_fixed (s : State) : (State.locusRestart s).fixed = s.fixed := by
  unfold State.locusRestart
  simp only [↓State.at__fixed, ↓State.writeDir_fixed, fixed_mk, guarded]

theorem State.adoptLocus_fixed (s : State) : (State.adoptLocus s).fixed = s.fixed := by
  unfold State.adoptLocus
  split <;> simp only [↓State.takeBlock_fixed, fixed_mk, guarded]

end Sys2Proof.Machine
end

