-- ==== Sys2Proof/Laws/FixedPower.lean ====
section
/-! SUPPORT. Operations of power, commands and the rest leave the guarded part of the state alone. -/

namespace Sys2Proof.Machine

set_option linter.all false
set_option maxRecDepth 4000

theorem State.clearDebts_fixed (s : State) (k : Nat) : (State.clearDebts s k).fixed = s.fixed := by
  unfold State.clearDebts
  simp only [↓State.modDie_fixed, fixed_mk, guarded]

theorem State.modPower_fixed (s : State) (f : PowerState → PowerState) : (State.modPower s f).fixed = s.fixed := rfl

theorem State.modRail_fixed (s : State) (i : Nat) (f : Rail → Rail) : (State.modRail s i f).fixed = s.fixed := by
  unfold State.modRail
  simp only [↓State.modPower_fixed, fixed_mk, guarded]

theorem State.setHoldEff_fixed (s : State) : (State.setHoldEff s).fixed = s.fixed := by
  unfold State.setHoldEff
  simp only [↓State.modPower_fixed, fixed_mk, guarded]

theorem State.chooseSrc_fixed (s : State) : (State.chooseSrc s).fixed = s.fixed := by
  unfold State.chooseSrc
  simp only [↓State.modPower_fixed, fixed_mk, guarded]

theorem State.countRail_fixed (s : State) (i kind : Nat) : (State.countRail s i kind).fixed = s.fixed := by
  unfold State.countRail
  simp only [↓State.event_fixed, ↓State.modRail_fixed, fixed_mk, guarded]

theorem State.copyCounters_fixed (s : State) : (State.copyCounters s).fixed = s.fixed := by
  unfold State.copyCounters
  simp only [↓State.blackBox_fixed, ↓State.modPower_fixed, fixed_mk, guarded]

theorem State.enableNext_fixed (s : State) : (State.enableNext s).fixed = s.fixed := by
  unfold State.enableNext
  split <;> simp only [↓State.modPower_fixed, ↓State.modRail_fixed, fixed_mk, guarded]

theorem State.startUp_fixed (s : State) : (State.startUp s).fixed = s.fixed := by
  unfold State.startUp
  simp only [↓State.enableNext_fixed, ↓State.modPower_fixed, fixed_mk, guarded]

theorem State.tearWrites_fixed (s : State) : (State.tearWrites s).fixed = s.fixed := by
  unfold State.tearWrites
  simp only [↓State.at__fixed, ↓State.modDies_fixed, State.modTrust, State.modCfg, fixed_mk, guarded]

theorem State.downDone_fixed (s : State) : (State.downDone s).fixed = s.fixed := by
  unfold State.downDone
  repeat' first
    | with_reducible rfl
    | with_reducible apply fixed_ite
    | (simp only [↓State.accrueTest_fixed, ↓State.modPower_fixed, ↓State.tearWrites_fixed, fixed_mk]; done)
    | split
    | simp only [↓State.accrueTest_fixed, ↓State.modPower_fixed, ↓State.tearWrites_fixed, fixed_mk, guarded]

theorem State.downStep_fixed (s : State) : (State.downStep s).fixed = s.fixed := by
  unfold State.downStep
  split <;> simp only [↓State.downDone_fixed, ↓State.modPower_fixed, ↓State.modRail_fixed, fixed_mk, guarded]

theorem State.startDown_fixed (s : State) (target : Nat) : (State.startDown s target).fixed = s.fixed := by
  unfold State.startDown
  repeat' first
    | with_reducible rfl
    | with_reducible apply fixed_ite
    | (simp only [↓State.modPower_fixed, ↓State.modRail_fixed, ↓State.downStep_fixed, fixed_mk]; done)
    | split
    | simp only [↓State.modPower_fixed, ↓State.modRail_fixed, ↓State.downStep_fixed, fixed_mk, guarded]

theorem State.turnDown_fixed (s : State) (target : Nat) : (State.turnDown s target).fixed = s.fixed := by
  unfold State.turnDown
  simp only [↓State.modPower_fixed, ↓State.modRail_fixed, ↓State.downStep_fixed, fixed_mk, guarded]

theorem State.padOff_fixed (s : State) : (State.padOff s).fixed = s.fixed := by
  unfold State.padOff
  split <;> simp only [↓State.emit_fixed, fixed_mk, guarded]

theorem State.testPads_fixed (s : State) (level : Nat) : (State.testPads s level).fixed = s.fixed := by
  unfold State.testPads
  split <;> simp only [↓State.emit_fixed, fixed_mk, guarded]

theorem State.hubStop_fixed (s : State) (sleep : Bool) : (s.hubStop sleep).fixed = s.fixed := by
  have h : (((s.outsOff.padOff).testPads 0).accrueTest).fixed = s.fixed := by
    simp only [State.accrueTest_fixed, State.testPads_fixed, State.padOff_fixed, State.outsOff_fixed]
  unfold State.hubStop
  refine (foldl_fixed (fun _ _ => State.settleChannels_fixed ..) _ _).trans ((State.takeBlock_fixed ..).trans
    ((State.modDies_fixed ..).trans (Eq.trans ?_ h)))
  generalize ((s.outsOff.padOff).testPads 0).accrueTest = u
  rfl

theorem State.diesCutOff_fixed (s : State) : (State.diesCutOff s).fixed = s.fixed := by
  unfold State.diesCutOff
  repeat' first
    | with_reducible rfl
    | with_reducible apply fixed_ite
    | with_reducible refine (foldl_fixed (fun _ _ => ?_) _ _).trans ?_
    | (simp only [↓State.fastOff_fixed, fixed_mk]; done)
    | split
    | simp only [↓State.fastOff_fixed, fixed_mk, guarded]

theorem State.compareBb_fixed (s : State) : (State.compareBb s).fixed = s.fixed := by
  unfold State.compareBb
  repeat' first
    | with_reducible rfl
    | with_reducible apply fixed_ite
    | with_reducible refine (foldl_fixed (fun _ _ => ?_) _ _).trans ?_
    | (simp only [↓State.event_fixed, State.modTrust, State.modCfg, fixed_mk]; done)
    | split
    | simp only [↓State.event_fixed, State.modTrust, State.modCfg, fixed_mk, guarded]

theorem State.loadMeter_fixed (s : State) : (State.loadMeter s).fixed = s.fixed := by
  unfold State.loadMeter
  repeat' first
    | with_reducible rfl
    | with_reducible apply fixed_ite
    | (simp only [↓State.event_fixed, State.modTrust, State.modCfg, fixed_mk]; done)
    | split
    | simp only [↓State.event_fixed, State.modTrust, State.modCfg, fixed_mk, guarded]

theorem State.loadLockout_fixed (s : State) : (State.loadLockout s).fixed = s.fixed := by
  unfold State.loadLockout
  repeat' first
    | with_reducible rfl
    | with_reducible apply fixed_ite
    | with_reducible refine (foldl_fixed (fun _ _ => ?_) _ _).trans ?_
    | (simp only [↓State.outsOff_fixed, fixed_mk]; done)
    | split
    | simp only [↓State.outsOff_fixed, fixed_mk, guarded]

theorem State.startPackTime_fixed (s : State) (fromOff : Bool) : (State.startPackTime s fromOff).fixed = s.fixed := by
  unfold State.startPackTime
  repeat' first
    | with_reducible rfl
    | with_reducible apply fixed_ite
    | (simp only [fixed_mk]; done)
    | split
    | simp only [fixed_mk, guarded]

theorem State.startStore_fixed (s : State) (storeFail reset : Bool) : (State.startStore s storeFail reset).fixed = s.fixed := by
  unfold State.startStore
  repeat' first
    | with_reducible rfl
    | with_reducible apply fixed_ite
    | (simp only [↓State.failStore_fixed, fixed_mk]; done)
    | split
    | simp only [↓State.failStore_fixed, fixed_mk, guarded]

theorem State.startEvents_fixed (s : State) (left : Bool) : (State.startEvents s left).fixed = s.fixed := by
  unfold State.startEvents
  repeat' first
    | with_reducible rfl
    | with_reducible apply fixed_ite
    | (simp only [↓State.event_fixed, ↓State.modPower_fixed, fixed_mk]; done)
    | split
    | simp only [↓State.event_fixed, ↓State.modPower_fixed, fixed_mk, guarded]

theorem State.hubBegin_fixed (s : State) (by_ : Nat) : (State.hubBegin s by_).fixed = s.fixed := by
  unfold State.hubBegin
  repeat' first
    | with_reducible rfl
    | with_reducible apply fixed_ite
    | with_reducible refine (foldl_fixed (fun _ _ => ?_) _ _).trans ?_
    | (simp only [↓State.settleChannels_fixed, ↓State.tasksHome_fixed, ↓State.accrueTest_fixed, ↓State.modPower_fixed, ↓State.modDies_fixed, fixed_mk]; done)
    | split
    | simp only [↓State.settleChannels_fixed, ↓State.tasksHome_fixed, ↓State.accrueTest_fixed, ↓State.modPower_fixed, ↓State.modDies_fixed, fixed_mk, guarded]

theorem State.hubGo_fixed (s : State) (by_ : Nat) (left storeFail : Bool) : (State.hubGo s by_ left storeFail).fixed = s.fixed := by
  unfold State.hubGo
  repeat' first
    | with_reducible rfl
    | with_reducible apply fixed_ite
    | with_reducible refine (foldl_fixed (fun _ _ => ?_) _ _).trans ?_
    | (simp only [↓State.loadLockout_fixed, ↓State.fastDomain_fixed, ↓State.heartResume_fixed, ↓State.loadMeter_fixed, ↓State.startStore_fixed, ↓State.startEnumeration_fixed, ↓State.event_fixed, ↓State.compareBb_fixed, ↓State.emit_fixed, ↓State.modPower_fixed, ↓State.writer_fixed, ↓State.locusRestart_fixed, ↓State.flushUnrouted_fixed, ↓State.startEvents_fixed, ↓State.testPads_fixed, ↓State.drawBytes_fixed, ↓State.startPackTime_fixed, ↓State.cancelPend_fixed, State.modTrust, State.modCfg, fixed_mk]; done)
    | split
    | simp only [↓State.loadLockout_fixed, ↓State.fastDomain_fixed, ↓State.heartResume_fixed, ↓State.loadMeter_fixed, ↓State.startStore_fixed, ↓State.startEnumeration_fixed, ↓State.event_fixed, ↓State.compareBb_fixed, ↓State.emit_fixed, ↓State.modPower_fixed, ↓State.writer_fixed, ↓State.locusRestart_fixed, ↓State.flushUnrouted_fixed, ↓State.startEvents_fixed, ↓State.testPads_fixed, ↓State.drawBytes_fixed, ↓State.startPackTime_fixed, ↓State.cancelPend_fixed, State.modTrust, State.modCfg, fixed_mk, guarded]

theorem State.resumeJournal_fixed {s : State} (h : s.fixed.settled) : s.resumeJournal.fixed = s.fixed := by
  have hj : s.trust.journal = 0 := h.1
  unfold State.resumeJournal
  split
  · rename_i hf
    obtain ⟨h1, h2, h3, h4, h5⟩ := h.2 (.inr hf)
    simp only [State.fixed] at h1 h2 h3 h4 h5
    simp only [State.eraseReturned, State.modTrust, TrustState.eraseOwner, State.fixed, h1, h2, h3, h4, h5, hj]
  · simp only [hj, ne_eq, not_true_eq_false, if_false]

theorem State.hubUp_fixed (s : State) (storeFail : Bool) (hq : s.fixed.settled) : (s.hubUp storeFail).fixed = s.fixed := by
  unfold State.hubUp
  rw [State.hubGo_fixed, State.resumeJournal_fixed (by rw [State.hubBegin_fixed]; exact hq), State.hubBegin_fixed]

theorem State.hubTest_fixed (s : State) (bist : Nat) (hq : s.fixed.settled) : (State.hubTest s bist).fixed = s.fixed := by
  unfold State.hubTest
  repeat' first
    | with_reducible rfl
    | with_reducible apply fixed_ite
    | with_reducible refine (foldl_fixed (fun _ _ => ?_) _ _).trans ?_
    | (simp only [↓State.modTest_fixed, ↓State.testFailed_fixed, ↓State.reportMemory_fixed, ↓State.hubUp_fixed, hq, fixed_mk]; done)
    | split
    | simp only [↓State.modTest_fixed, ↓State.testFailed_fixed, ↓State.reportMemory_fixed, ↓State.hubUp_fixed, hq, fixed_mk, guarded]

theorem State.hubStart_fixed (s : State) (bist : Nat) (hq : s.fixed.settled) : (s.hubStart bist).fixed = s.fixed := by
  unfold State.hubStart
  exact fixed_ite ((State.hubUp_fixed _ _ (by rw [State.modPower_fixed]; exact hq)).trans (State.modPower_fixed ..))
    ((State.hubTest_fixed _ _ (by rw [State.modTest_fixed, State.modPower_fixed]; exact hq)).trans
      ((State.modTest_fixed ..).trans (State.modPower_fixed ..)))

theorem State.takeStrap_fixed (s : State) (reads : List Nat) : (State.takeStrap s reads).fixed = s.fixed := rfl

theorem State.followRails_fixed (s : State) : (State.followRails s).fixed = s.fixed := by
  unfold State.followRails
  repeat' first
    | with_reducible rfl
    | with_reducible apply fixed_ite
    | with_reducible refine (foldl_fixed (fun _ _ => ?_) _ _).trans ?_
    | (simp only [↓State.setHoldEff_fixed, ↓State.modPower_fixed, ↓State.chooseSrc_fixed, ↓State.modRail_fixed, fixed_mk]; done)
    | split
    | simp only [↓State.setHoldEff_fixed, ↓State.modPower_fixed, ↓State.chooseSrc_fixed, ↓State.modRail_fixed, fixed_mk, guarded]

theorem State.raiseWarning_fixed (s : State) (item : Nat) : (State.raiseWarning s item).fixed = s.fixed := by
  unfold State.raiseWarning
  split <;> simp only [↓State.event_fixed, ↓State.modPower_fixed, fixed_mk, guarded]

theorem State.railAct_fixed (s : State) (i : Nat) : (State.railAct s i).fixed = s.fixed := by
  unfold State.railAct
  repeat' first
    | with_reducible rfl
    | with_reducible apply fixed_ite
    | (simp only [↓State.raiseWarning_fixed, ↓State.startDown_fixed, ↓State.hopDown_fixed, ↓State.modPower_fixed, ↓State.modRail_fixed, ↓State.hifOff_fixed, ↓State.failStore_fixed, fixed_mk]; done)
    | split
    | simp only [↓State.raiseWarning_fixed, ↓State.startDown_fixed, ↓State.hopDown_fixed, ↓State.modPower_fixed, ↓State.modRail_fixed, ↓State.hifOff_fixed, ↓State.failStore_fixed, fixed_mk, guarded]

theorem State.railFault_fixed (s : State) (i kind : Nat) : (State.railFault s i kind).fixed = s.fixed := by
  unfold State.railFault
  simp only [↓State.countRail_fixed, ↓State.railAct_fixed, fixed_mk, guarded]

theorem State.judgeFault_fixed (s : State) (rail kind : Nat) : (State.judgeFault s rail kind).fixed = s.fixed := by
  unfold State.judgeFault
  repeat' first
    | with_reducible rfl
    | with_reducible apply fixed_ite
    | (simp only [↓State.railFault_fixed, fixed_mk]; done)
    | split
    | simp only [↓State.railFault_fixed, fixed_mk, guarded]

theorem State.judgeHeld_fixed (s : State) : (State.judgeHeld s).fixed = s.fixed := by
  unfold State.judgeHeld
  repeat' first
    | with_reducible rfl
    | with_reducible apply fixed_ite
    | with_reducible refine (foldl_fixed (fun _ _ => ?_) _ _).trans ?_
    | (simp only [↓State.judgeFault_fixed, ↓State.modPower_fixed, fixed_mk]; done)
    | split
    | simp only [↓State.judgeFault_fixed, ↓State.modPower_fixed, fixed_mk, guarded]

theorem State.closeSession_fixed (s : State) : (State.closeSession s).fixed = s.fixed := by
  unfold State.closeSession
  repeat' first
    | with_reducible rfl
    | with_reducible apply fixed_ite
    | with_reducible refine (foldl_fixed (fun _ _ => ?_) _ _).trans ?_
    | (simp only [↓State.debugRecord_fixed, ↓State.tasksHome_fixed, ↓State.event_fixed, ↓State.locusRestart_fixed, ↓State.abortExecuting_fixed, State.modTrust, State.modCfg, fixed_mk]; done)
    | split
    | simp only [↓State.debugRecord_fixed, ↓State.tasksHome_fixed, ↓State.event_fixed, ↓State.locusRestart_fixed, ↓State.abortExecuting_fixed, State.modTrust, State.modCfg, fixed_mk, guarded]

theorem State.warn_fixed (s : State) (item : Nat) : (State.warn s item).fixed = s.fixed := by
  unfold State.warn
  repeat' first
    | with_reducible rfl
    | with_reducible apply fixed_ite
    | with_reducible refine (foldl_fixed (fun _ _ => ?_) _ _).trans ?_
    | (simp only [↓State.outsOff_fixed, ↓State.drainUrgent_fixed, ↓State.closeSession_fixed, ↓State.commitMeter_fixed, ↓State.writeAllBb_fixed, ↓State.locusWarning_fixed, ↓State.setHoldEff_fixed, ↓State.modPower_fixed, ↓State.modRail_fixed, ↓State.sendSafety_fixed, ↓State.copyCounters_fixed, ↓State.hifOff_fixed, ↓State.commitPackTime_fixed, fixed_mk]; done)
    | split
    | simp only [↓State.outsOff_fixed, ↓State.drainUrgent_fixed, ↓State.closeSession_fixed, ↓State.commitMeter_fixed, ↓State.writeAllBb_fixed, ↓State.locusWarning_fixed, ↓State.setHoldEff_fixed, ↓State.modPower_fixed, ↓State.modRail_fixed, ↓State.sendSafety_fixed, ↓State.copyCounters_fixed, ↓State.hifOff_fixed, ↓State.commitPackTime_fixed, fixed_mk, guarded]

theorem State.enterLow_fixed (s : State) (target : Nat) : (State.enterLow s target).fixed = s.fixed := by
  unfold State.enterLow
  repeat' first
    | with_reducible rfl
    | with_reducible apply fixed_ite
    | with_reducible refine (foldl_fixed (fun _ _ => ?_) _ _).trans ?_
    | (simp only [↓State.originate_fixed, ↓State.outsOff_fixed, ↓State.drainUrgent_fixed, ↓State.closeSession_fixed, ↓State.commitMeter_fixed, ↓State.startDown_fixed, ↓State.hubStop_fixed, ↓State.locusSleep_fixed, ↓State.abortCapture_fixed, ↓State.event_fixed, ↓State.accrueTest_fixed, ↓State.precOff_fixed, ↓State.modPower_fixed, ↓State.sendSafety_fixed, ↓State.copyCounters_fixed, ↓State.commitPackTime_fixed, ↓State.persist_fixed, ↓State.cancelPend_fixed, fixed_mk]; done)
    | split
    | simp only [↓State.originate_fixed, ↓State.outsOff_fixed, ↓State.drainUrgent_fixed, ↓State.closeSession_fixed, ↓State.commitMeter_fixed, ↓State.startDown_fixed, ↓State.hubStop_fixed, ↓State.locusSleep_fixed, ↓State.abortCapture_fixed, ↓State.event_fixed, ↓State.accrueTest_fixed, ↓State.precOff_fixed, ↓State.modPower_fixed, ↓State.sendSafety_fixed, ↓State.copyCounters_fixed, ↓State.commitPackTime_fixed, ↓State.persist_fixed, ↓State.cancelPend_fixed, fixed_mk, guarded]

theorem State.askLow_fixed (s : State) (target : Nat) (cast : Bool) : (State.askLow s target cast).fixed = s.fixed := by
  unfold State.askLow
  split <;> simp only [↓State.modPower_fixed, ↓State.enterLow_fixed, fixed_mk, guarded]

theorem State.tryEnter_fixed (s : State) : (State.tryEnter s).fixed = s.fixed := by
  unfold State.tryEnter
  repeat' first
    | with_reducible rfl
    | with_reducible apply fixed_ite
    | (simp only [↓State.enterLow_fixed, fixed_mk]; done)
    | split
    | simp only [↓State.enterLow_fixed, fixed_mk, guarded]

theorem State.ageStates_fixed (s : State) : (State.ageStates s).fixed = s.fixed := by
  unfold State.ageStates
  split <;> simp only [↓State.modPower_fixed, ↓State.modDies_fixed, fixed_mk, guarded]

theorem State.wake_fixed (s : State) (code : Nat) : (State.wake s code).fixed = s.fixed := by
  unfold State.wake
  repeat' first
    | with_reducible rfl
    | with_reducible apply fixed_ite
    | (simp only [↓State.startUp_fixed, ↓State.modPower_fixed, ↓State.ageStates_fixed, State.modTrust, State.modCfg, fixed_mk]; done)
    | split
    | simp only [↓State.startUp_fixed, ↓State.modPower_fixed, ↓State.ageStates_fixed, State.modTrust, State.modCfg, fixed_mk, guarded]

theorem State.markRan_fixed (s : State) (c : Cmd) : (State.markRan s c).fixed = s.fixed := rfl

theorem State.serve_fixed {s : State} {code : Nat} {c : Cmd} {mine : Bool} {f : State → State} {x : Fixed}
    (h : ∀ t : State, t.fixed = x → (f t).fixed = x) (hs : s.fixed = x) : (s.serve code c mine f).fixed = x := by
  unfold State.serve
  have h0 : ((s.undoze).markRan c).fixed = x := ((State.markRan_fixed ..).trans (State.undoze_fixed _)).trans hs
  refine fixed_ite hs ?_
  dsimp only
  split
  · exact (State.complete_fixed ..).trans h0
  · exact h _ h0

theorem State.claimHeld_fixed (s : State) (sub : Nat) (r : Rec) : (State.claimHeld s sub r).fixed = s.fixed := by
  unfold State.claimHeld
  repeat' first
    | with_reducible rfl
    | with_reducible apply fixed_ite
    | (simp only [↓State.queueClaim_fixed, ↓State.noteClaims_fixed, ↓State.modHif_fixed, fixed_mk]; done)
    | split
    | simp only [↓State.queueClaim_fixed, ↓State.noteClaims_fixed, ↓State.modHif_fixed, fixed_mk, guarded]

theorem State.openSub_fixed (s : State) (c : Cmd) : (State.openSub s c).fixed = s.fixed := by
  unfold State.openSub
  repeat' first
    | with_reducible rfl
    | with_reducible apply fixed_ite
    | with_reducible refine (foldl_fixed (fun _ _ => ?_) _ _).trans ?_
    | (simp only [↓State.openFastStream_fixed, ↓State.sendClaims_fixed, ↓State.noteClaims_fixed, ↓State.modHif_fixed, ↓State.claimHeld_fixed, fixed_mk]; done)
    | split
    | simp only [↓State.openFastStream_fixed, ↓State.sendClaims_fixed, ↓State.noteClaims_fixed, ↓State.modHif_fixed, ↓State.claimHeld_fixed, fixed_mk, guarded]

theorem State.armCapture_fixed (s : State) (k a : Nat) (c : Cmd) : (State.armCapture s k a c).fixed = s.fixed := by
  unfold State.armCapture
  repeat' first
    | with_reducible rfl
    | with_reducible apply fixed_ite
    | with_reducible refine onDie_fixed (fun _ => ?_) ?_
    | (simp only [↓State.modDie_fixed, ↓State.tellArmed_fixed, fixed_mk]; done)
    | split
    | simp only [↓State.modDie_fixed, ↓State.tellArmed_fixed, fixed_mk, guarded]

theorem State.catchUp_fixed (s : State) (k : Nat) : (State.catchUp s k).fixed = s.fixed := by
  unfold State.catchUp
  refine onDie_fixed (fun _ => ?_) ?_ <;> simp only [↓State.modDie_fixed, ↓State.adoptImp_fixed, ↓State.adoptEst_fixed, ↓State.takePrec_fixed, ↓State.adoptSeq_fixed, fixed_mk, guarded]

theorem State.measurePower_fixed (s : State) : (State.measurePower s).fixed = s.fixed := by
  unfold State.measurePower
  simp only [↓State.drawBits_fixed, ↓State.modPower_fixed, fixed_mk, guarded]

theorem State.readConfig_fixed (s : State) (c : Cmd) : (State.readConfig s c).fixed = s.fixed := by
  unfold State.readConfig
  repeat' first
    | with_reducible rfl
    | with_reducible apply fixed_ite
    | (simp only [↓State.catchUp_fixed, ↓State.measurePower_fixed, ↓State.completeData_fixed, ↓State.complete_fixed, fixed_mk]; done)
    | split
    | simp only [↓State.catchUp_fixed, ↓State.measurePower_fixed, ↓State.completeData_fixed, ↓State.complete_fixed, fixed_mk, guarded]

theorem State.markTargets_fixed (s : State) (block target off len : Nat) : (State.markTargets s block target off len).fixed = s.fixed := by
  unfold State.markTargets
  split <;> simp only [↓State.modDie_fixed, fixed_mk, guarded]

theorem State.putShadow_fixed (s : State) (c : Cmd) (data : List Byte) : (State.putShadow s c data).fixed = s.fixed := by
  unfold State.putShadow
  simp only [State.modCfg, ↓State.markTargets_fixed, ↓State.completeX_fixed, fixed_mk, guarded]

theorem State.takeCommit_fixed (s : State) (c : Cmd) : (State.takeCommit s c).fixed = s.fixed := by
  unfold State.takeCommit
  repeat' first
    | with_reducible rfl
    | with_reducible apply fixed_ite
    | (simp only [State.modCfg, ↓State.complete_fixed, fixed_mk]; done)
    | split
    | simp only [State.modCfg, ↓State.complete_fixed, fixed_mk, guarded]

theorem State.sayPrepared_fixed (s : State) (p : PendCommit) : (State.sayPrepared s p).fixed = s.fixed := by
  unfold State.sayPrepared
  repeat' first
    | with_reducible rfl
    | with_reducible apply fixed_ite
    | (simp only [State.modCfg, ↓State.originate_fixed, fixed_mk]; done)
    | split
    | simp only [State.modCfg, ↓State.originate_fixed, fixed_mk, guarded]

theorem State.swapTargets_fixed (s : State) (old : List Host.Cell) (k : Nat) : (State.swapTargets s old k).fixed = s.fixed := by
  unfold State.swapTargets
  simp only [↓State.modDie_fixed, fixed_mk, guarded]

theorem State.swapDie_fixed (s : State) (tc k : Nat) : (State.swapDie s tc k).fixed = s.fixed := by
  unfold State.swapDie
  simp only [↓State.fastDomain_fixed, ↓State.swapFast_fixed, ↓State.modDie_fixed, ↓State.swapCal_fixed, fixed_mk, guarded]

theorem State.afterSwap_fixed (s : State) (tc : Nat) : (State.afterSwap s tc).fixed = s.fixed := by
  unfold State.afterSwap
  repeat' first
    | with_reducible rfl
    | with_reducible apply fixed_ite
    | with_reducible refine (foldl_fixed (fun _ _ => ?_) _ _).trans ?_
    | (simp only [↓State.followRails_fixed, ↓State.sendSafety_fixed, ↓State.swapDie_fixed, ↓State.adoptIdlePorts_fixed, ↓State.takeBlock_fixed, fixed_mk]; done)
    | split
    | simp only [↓State.followRails_fixed, ↓State.sendSafety_fixed, ↓State.swapDie_fixed, ↓State.adoptIdlePorts_fixed, ↓State.takeBlock_fixed, fixed_mk, guarded]

theorem State.endGroup_fixed (s : State) (st : Status) : (State.endGroup s st).fixed = s.fixed := by
  unfold State.endGroup
  repeat' first
    | with_reducible rfl
    | with_reducible apply fixed_ite
    | (simp only [State.modCfg, ↓State.evalOuts_fixed, ↓State.complete_fixed, fixed_mk]; done)
    | split
    | simp only [State.modCfg, ↓State.evalOuts_fixed, ↓State.complete_fixed, fixed_mk, guarded]

theorem State.holdGo_fixed (s : State) : (State.holdGo s).fixed = s.fixed := by
  unfold State.holdGo
  simp only [State.modCfg, fixed_mk, guarded]

theorem State.takeGroupFrame_fixed (s : State) (what : Nat) : (State.takeGroupFrame s what).2.fixed = s.fixed := by
  unfold State.takeGroupFrame
  split <;> simp only [↓State.accept_fixed, fixed_mk, guarded]

theorem State.barAccess_fixed (s : State) (off size : Nat) : (State.barAccess s off size).2.fixed = s.fixed := by
  unfold State.barAccess
  split <;> simp only [↓State.undoze_fixed, fixed_mk, guarded]

theorem State.writeCtrl_fixed (s : State) (v : Nat) : (State.writeCtrl s v).fixed = s.fixed := by
  unfold State.writeCtrl
  repeat' first
    | with_reducible rfl
    | with_reducible apply fixed_ite
    | (simp only [↓State.hifClear_fixed, ↓State.modHif_fixed, ↓State.checkDrain_fixed, ↓State.event_fixed, ↓State.hifFatal_fixed, fixed_mk]; done)
    | split
    | simp only [↓State.hifClear_fixed, ↓State.modHif_fixed, ↓State.checkDrain_fixed, ↓State.event_fixed, ↓State.hifFatal_fixed, fixed_mk, guarded]

theorem State.abortUnsent_fixed (s : State) (n : Nat) : (State.abortUnsent s n).fixed = s.fixed := by
  unfold State.abortUnsent
  repeat' first
    | with_reducible rfl
    | with_reducible apply fixed_ite
    | with_reducible refine (foldl_fixed (fun _ _ => ?_) _ _).trans ?_
    | (simp only [↓State.queueCompletion_fixed, fixed_mk]; done)
    | split
    | simp only [↓State.queueCompletion_fixed, fixed_mk, guarded]

theorem State.writeSqCfg_fixed (s : State) (n v : Nat) : (State.writeSqCfg s n v).fixed = s.fixed := by
  unfold State.writeSqCfg
  repeat' first
    | with_reducible rfl
    | with_reducible apply fixed_ite
    | (simp only [↓State.checkDrain_fixed, ↓State.putSq_fixed, ↓State.abortUnsent_fixed, fixed_mk]; done)
    | split
    | simp only [↓State.checkDrain_fixed, ↓State.putSq_fixed, ↓State.abortUnsent_fixed, fixed_mk, guarded]

theorem State.writeCqCfg_fixed (s : State) (n v : Nat) : (State.writeCqCfg s n v).fixed = s.fixed := by
  unfold State.writeCqCfg
  repeat' first
    | with_reducible rfl
    | with_reducible apply fixed_ite
    | (simp only [↓State.checkDrain_fixed, ↓State.putCq_fixed, fixed_mk]; done)
    | split
    | simp only [↓State.checkDrain_fixed, ↓State.putCq_fixed, fixed_mk, guarded]

theorem State.writeStrCfg_fixed (s : State) (r v : Nat) : (State.writeStrCfg s r v).fixed = s.fixed := by
  unfold State.writeStrCfg
  repeat' first
    | with_reducible rfl
    | with_reducible apply fixed_ite
    | with_reducible refine (foldl_fixed (fun _ _ => ?_) _ _).trans ?_
    | (simp only [↓State.modHif_fixed, ↓State.checkDrain_fixed, ↓State.unclaim_fixed, ↓State.putStr_fixed, fixed_mk]; done)
    | split
    | simp only [↓State.modHif_fixed, ↓State.checkDrain_fixed, ↓State.unclaim_fixed, ↓State.putStr_fixed, fixed_mk, guarded]

theorem State.startPoll_fixed (s : State) : (State.startPoll s).fixed = s.fixed := by
  unfold State.startPoll
  simp only [↓State.modHif_fixed, ↓State.emit_fixed, fixed_mk, guarded]

theorem State.kicked_fixed (s : State) : (State.kicked s).fixed = s.fixed := by
  unfold State.kicked
  repeat' first
    | with_reducible rfl
    | with_reducible apply fixed_ite
    | (simp only [↓State.startPoll_fixed, ↓State.modHif_fixed, fixed_mk]; done)
    | split
    | simp only [↓State.startPoll_fixed, ↓State.modHif_fixed, fixed_mk, guarded]

theorem State.unmask_fixed (s : State) (v : Nat) : (State.unmask s v).fixed = s.fixed := by
  unfold State.unmask
  repeat' first
    | with_reducible rfl
    | with_reducible apply fixed_ite
    | (simp only [↓State.modHif_fixed, ↓State.emit_fixed, fixed_mk]; done)
    | split
    | simp only [↓State.modHif_fixed, ↓State.emit_fixed, fixed_mk, guarded]

theorem State.writeMsix_fixed (s : State) (off v : Nat) : (State.writeMsix s off v).fixed = s.fixed := by
  unfold State.writeMsix
  repeat' first
    | with_reducible rfl
    | with_reducible apply fixed_ite
    | (simp only [↓State.modHif_fixed, ↓State.unmask_fixed, fixed_mk]; done)
    | split
    | simp only [↓State.modHif_fixed, ↓State.unmask_fixed, fixed_mk, guarded]

theorem State.writeReg_fixed (s : State) (off v : Nat) : (State.writeReg s off v).fixed = s.fixed := by
  unfold State.writeReg
  repeat' first
    | with_reducible rfl
    | with_reducible apply fixed_ite
    | (simp only [↓State.writeStrCfg_fixed, ↓State.writeSqCfg_fixed, ↓State.modHif_fixed, ↓State.kicked_fixed, ↓State.writeCqCfg_fixed, ↓State.writeCtrl_fixed, ↓State.putSq_fixed, ↓State.putCq_fixed, ↓State.putStr_fixed, fixed_mk]; done)
    | split
    | simp only [↓State.writeStrCfg_fixed, ↓State.writeSqCfg_fixed, ↓State.modHif_fixed, ↓State.kicked_fixed, ↓State.writeCqCfg_fixed, ↓State.writeCtrl_fixed, ↓State.putSq_fixed, ↓State.putCq_fixed, ↓State.putStr_fixed, fixed_mk, guarded]

theorem State.takeSqTail_fixed (s : State) (n w : Nat) : (State.takeSqTail s n w).fixed = s.fixed := by
  unfold State.takeSqTail
  repeat' first
    | with_reducible rfl
    | with_reducible apply fixed_ite
    | (simp only [↓State.queueError_fixed, ↓State.putSq_fixed, fixed_mk]; done)
    | split
    | simp only [↓State.queueError_fixed, ↓State.putSq_fixed, fixed_mk, guarded]

theorem State.takeCqHead_fixed (s : State) (n w : Nat) : (State.takeCqHead s n w).fixed = s.fixed := by
  unfold State.takeCqHead
  repeat' first
    | with_reducible rfl
    | with_reducible apply fixed_ite
    | (simp only [↓State.queueError_fixed, ↓State.putCq_fixed, fixed_mk]; done)
    | split
    | simp only [↓State.queueError_fixed, ↓State.putCq_fixed, fixed_mk, guarded]

theorem State.takeEqHead_fixed (s : State) (w : Nat) : (State.takeEqHead s w).fixed = s.fixed := by
  unfold State.takeEqHead
  repeat' first
    | with_reducible rfl
    | with_reducible apply fixed_ite
    | (simp only [↓State.putEq_fixed, ↓State.queueError_fixed, fixed_mk]; done)
    | split
    | simp only [↓State.putEq_fixed, ↓State.queueError_fixed, fixed_mk, guarded]

theorem State.takeStrHead_fixed (s : State) (r w : Nat) : (State.takeStrHead s r w).fixed = s.fixed := by
  unfold State.takeStrHead
  repeat' first
    | with_reducible rfl
    | with_reducible apply fixed_ite
    | with_reducible refine (foldl_fixed (fun _ _ => ?_) _ _).trans ?_
    | (simp only [↓State.modHif_fixed, ↓State.unclaim_fixed, ↓State.queueError_fixed, ↓State.putStr_fixed, fixed_mk]; done)
    | split
    | simp only [↓State.modHif_fixed, ↓State.unclaim_fixed, ↓State.queueError_fixed, ↓State.putStr_fixed, fixed_mk, guarded]

theorem State.readRanges_fixed (s : State) (rs : List (Nat × Nat)) : (State.readRanges s rs).fixed = s.fixed := by
  unfold State.readRanges
  repeat' first
    | with_reducible rfl
    | with_reducible apply fixed_ite
    | with_reducible refine (foldl_fixed (fun _ _ => ?_) _ _).trans ?_
    | (simp only [↓State.emit_fixed, fixed_mk]; done)
    | split
    | simp only [↓State.emit_fixed, fixed_mk, guarded]

theorem State.takeDescriptor_fixed (s : State) (c : Cmd) (b list data : List Byte) : (State.takeDescriptor s c b list data).fixed = s.fixed := by
  unfold State.takeDescriptor
  repeat' first
    | with_reducible rfl
    | with_reducible apply fixed_ite
    | with_reducible refine (foldl_fixed (fun _ _ => ?_) _ _).trans ?_
    | (simp only [↓State.modHif_fixed, ↓State.readRanges_fixed, ↓State.startAll_fixed, ↓State.queueCompletion_fixed, fixed_mk]; done)
    | split
    | simp only [↓State.modHif_fixed, ↓State.readRanges_fixed, ↓State.startAll_fixed, ↓State.queueCompletion_fixed, fixed_mk, guarded]

theorem State.writeCompletion_fixed (s : State) (cq : Nat) (w : ComplWait) : (s.writeCompletion cq w).fixed = s.fixed := by
  unfold State.writeCompletion
  dsimp only
  refine (State.startAll_fixed _).trans ?_
  refine (State.signal_fixed fun q s => State.putCq_fixed ..).trans ?_
  repeat' first
    | with_reducible rfl
    | with_reducible apply fixed_ite
    | simp only [↓State.emit_fixed, ↓State.putCq_fixed, ↓State.modHif_fixed, fixed_mk, guarded]

theorem State.writeEntry_fixed (s : State) (addr : Nat) (head body last : List Byte) : (State.writeEntry s addr head body last).fixed = s.fixed := by
  unfold State.writeEntry
  split <;> simp only [↓State.emit_fixed, fixed_mk, guarded]

theorem State.writeStream_fixed (s : State) (w : StrWait) : (s.writeStream w).fixed = s.fixed := by
  unfold State.writeStream
  refine (State.signal_fixed fun q s => State.putStr_fixed ..).trans ?_
  exact (State.modHif_fixed ..).trans ((State.putStr_fixed ..).trans ((State.writeEntry_fixed ..).trans (fixed_ite (State.writeEntry_fixed ..) rfl)))

theorem State.writeEvent_fixed (s : State) (w : EvWait) : (s.writeEvent w).fixed = s.fixed := by
  unfold State.writeEvent
  refine (State.signal_fixed fun q s => State.putEq_fixed ..).trans ?_
  have h : ∀ (a : State) (l : LocusState), ({ a with locus := l } : State).fixed = a.fixed := fun _ _ => rfl
  exact (h _ _).trans ((State.modHif_fixed ..).trans ((State.putEq_fixed ..).trans (State.emit_fixed ..)))

theorem State.coalesced_fixed {s : State} {q : Queue} {put : Queue → State → State}
    (h : ∀ q s, (put q s).fixed = s.fixed) : (s.coalesced q put).fixed = s.fixed := by
  unfold State.coalesced
  split
  · rfl
  · exact fixed_ite rfl ((State.raiseVector_fixed ..).trans (h _ _))

theorem State.dmaEvent_fixed (s : State) (sq cid addr : Nat) : (State.dmaEvent s sq cid addr).fixed = s.fixed := by
  unfold State.dmaEvent
  simp only [↓State.event_fixed, fixed_mk, guarded]

theorem State.readFailed_fixed (s : State) (sq : Nat) (a : HostAccess) : (State.readFailed s sq a).fixed = s.fixed := by
  unfold State.readFailed
  repeat' first
    | with_reducible rfl
    | with_reducible apply fixed_ite
    | (simp only [↓State.dmaEvent_fixed, ↓State.startAll_fixed, ↓State.queueCompletion_fixed, fixed_mk]; done)
    | split
    | simp only [↓State.dmaEvent_fixed, ↓State.startAll_fixed, ↓State.queueCompletion_fixed, fixed_mk, guarded]

theorem State.writeFailed_fixed (s : State) (sq : Nat) (a : HostAccess) : (State.writeFailed s sq a).fixed = s.fixed := by
  unfold State.writeFailed
  repeat' first
    | with_reducible rfl
    | with_reducible apply fixed_ite
    | (simp only [↓State.modHif_fixed, ↓State.dmaEvent_fixed, fixed_mk]; done)
    | split
    | simp only [↓State.modHif_fixed, ↓State.dmaEvent_fixed, fixed_mk, guarded]

theorem State.closeFor_fixed (s : State) (sub : Nat) : (State.closeFor s sub).fixed = s.fixed := by
  unfold State.closeFor
  split <;> simp only [↓State.modHif_fixed, ↓State.endSub_fixed, fixed_mk, guarded]

theorem State.enterPend_fixed (s : State) : (State.enterPend s).fixed = s.fixed := by
  unfold State.enterPend
  repeat' first
    | with_reducible rfl
    | with_reducible apply fixed_ite
    | (simp only [↓State.enterLow_fixed, fixed_mk]; done)
    | split
    | simp only [↓State.enterLow_fixed, fixed_mk, guarded]

theorem State.notePrepared_fixed (s : State) (sq cid pos : Nat) : (State.notePrepared s sq cid pos).fixed = s.fixed := by
  unfold State.notePrepared
  repeat' first
    | with_reducible rfl
    | with_reducible apply fixed_ite
    | (simp only [fixed_mk]; done)
    | split
    | simp only [fixed_mk, guarded]

theorem State.resend_fixed (s : State) (k : Nat) (d : Die) : (State.resend s k d).fixed = s.fixed := by
  unfold State.resend
  repeat' first
    | with_reducible rfl
    | with_reducible apply fixed_ite
    | with_reducible refine (foldl_fixed (fun _ _ => ?_) _ _).trans ?_
    | (simp only [↓State.dieEventFull_fixed, ↓State.place_fixed, fixed_mk]; done)
    | split
    | simp only [↓State.dieEventFull_fixed, ↓State.place_fixed, fixed_mk, guarded]

theorem State.ownerRoom_fixed {s t : State} {owner n fuel : Nat} (h : s.ownerRoom owner n fuel = some t) : t.fixed = s.fixed := by
  induction fuel generalizing s with
  | zero => cases h
  | succ m ih =>
    unfold State.ownerRoom at h
    split at h
    · cases h; rfl
    · split at h
      · cases h
      · exact (ih h).trans rfl

theorem State.takeSpill_fixed (s : State) (owner : Nat) (x : List Byte) : (s.takeSpill owner x).fixed = s.fixed := by
  unfold State.takeSpill
  dsimp only
  refine fixed_ite rfl ?_
  split
  · rfl
  · rename_i h
    obtain ⟨u, hu, hr⟩ := Option.bind_eq_some_iff.1 h
    exact (State.writer_fixed _).trans (((State.tierFor_fixed hr).trans (State.ownerRoom_fixed hu)).symm ▸ rfl)

theorem State.answerHolder_fixed (s : State) (pos owner recType src : Nat) : (State.answerHolder s pos owner recType src).fixed = s.fixed := by
  unfold State.answerHolder
  simp only [↓State.originate_fixed, fixed_mk, guarded]

theorem State.takeHeld_fixed (s : State) (pos : Nat) (b : List Byte) : (State.takeHeld s pos b).fixed = s.fixed := by
  unfold State.takeHeld
  repeat' first
    | with_reducible rfl
    | with_reducible apply fixed_ite
    | with_reducible refine (foldl_fixed (fun _ _ => ?_) _ _).trans ?_
    | (simp only [↓State.finishRead_fixed, fixed_mk]; done)
    | split
    | simp only [↓State.finishRead_fixed, fixed_mk, guarded]

theorem State.evaluateDie_fixed (s : State) (k : Nat) (load cluster : Rat) : (State.evaluateDie s k load cluster).fixed = s.fixed := by
  unfold State.evaluateDie
  repeat' first
    | with_reducible rfl
    | with_reducible apply fixed_ite
    | with_reducible refine onDie_fixed (fun _ => ?_) ?_
    | (simp only [↓State.stopInjection_fixed, ↓State.modDie_fixed, ↓State.placement_fixed, fixed_mk]; done)
    | split
    | simp only [↓State.stopInjection_fixed, ↓State.modDie_fixed, ↓State.placement_fixed, fixed_mk, guarded]

theorem State.noteInput_fixed (s : State) (which : Nat) (v : Rat) : (State.noteInput s which v).fixed = s.fixed := by
  unfold State.noteInput
  simp only [↓State.modPower_fixed, fixed_mk, guarded]

theorem State.setInput_fixed (s : State) (which : Nat) (ok : Bool) : (State.setInput s which ok).fixed = s.fixed := by
  unfold State.setInput
  simp only [↓State.modPower_fixed, fixed_mk, guarded]

theorem State.inputsGone_fixed (s : State) (which : Nat) : (State.inputsGone s which).fixed = s.fixed := by
  unfold State.inputsGone
  repeat' first
    | with_reducible rfl
    | with_reducible apply fixed_ite
    | (simp only [↓State.raiseWarning_fixed, ↓State.startDown_fixed, ↓State.modPower_fixed, fixed_mk]; done)
    | split
    | simp only [↓State.raiseWarning_fixed, ↓State.startDown_fixed, ↓State.modPower_fixed, fixed_mk, guarded]

theorem State.railUp_fixed (s : State) (t rail : Nat) : (State.railUp s t rail).fixed = s.fixed := by
  unfold State.railUp
  repeat' first
    | with_reducible rfl
    | with_reducible apply fixed_ite
    | (simp only [↓State.modPower_fixed, ↓State.modRail_fixed, fixed_mk]; done)
    | split
    | simp only [↓State.modPower_fixed, ↓State.modRail_fixed, fixed_mk, guarded]

theorem State.endReset_fixed (s : State) (cause : Nat) (strap : List Nat) : (State.endReset s cause strap).fixed = s.fixed := by
  unfold State.endReset
  repeat' first
    | with_reducible rfl
    | with_reducible apply fixed_ite
    | (simp only [↓State.wake_fixed, ↓State.startUp_fixed, ↓State.modPower_fixed, ↓State.takeStrap_fixed, fixed_mk]; done)
    | split
    | simp only [↓State.wake_fixed, ↓State.startUp_fixed, ↓State.modPower_fixed, ↓State.takeStrap_fixed, fixed_mk, guarded]

theorem State.runBlock_fixed (s : State) (k b result : Nat) (n : Tally) : (State.runBlock s k b result n).1.fixed = s.fixed := by
  unfold State.runBlock
  split <;> simp only [↓State.endSlice_fixed, ↓State.startSlice_fixed, fixed_mk, guarded]

theorem State.computeCheck_fixed (s : State) (c : Cmd) (data : List Byte) (u : ChkUnit) : (State.computeCheck s c data u).fixed = s.fixed := by
  unfold State.computeCheck
  split <;> simp only [↓State.modChk_fixed, ↓State.completeX_fixed, ↓State.complete_fixed, fixed_mk, guarded]

theorem State.applyStep_fixed (s : State) : (State.applyStep s).fixed = s.fixed := by
  unfold State.applyStep
  repeat' first
    | with_reducible rfl
    | with_reducible apply fixed_ite
    | with_reducible refine (foldl_fixed (fun _ _ => ?_) _ _).trans ?_
    | (simp only [↓State.applyCap_fixed, ↓State.modDies_fixed, fixed_mk]; done)
    | split
    | simp only [↓State.applyCap_fixed, ↓State.modDies_fixed, fixed_mk, guarded]

theorem State.setStep_fixed (s : State) (n : Nat) : (State.setStep s n).fixed = s.fixed := by
  unfold State.setStep
  simp only [↓State.event_fixed, ↓State.applyStep_fixed, fixed_mk, guarded]

theorem State.raiseSteps_fixed (s : State) (n : Nat) : (s.raiseSteps n).fixed = s.fixed := by
  induction n generalizing s with
  | zero => rfl
  | succ n ih =>
    unfold State.raiseSteps
    exact fixed_ite rfl (fixed_ite ((ih _).trans (State.setStep_fixed ..)) rfl)

theorem State.historyBody_fixed (s : State) : (State.historyBody s).2.fixed = s.fixed := by
  unfold State.historyBody
  repeat' first
    | with_reducible rfl
    | with_reducible apply fixed_ite
    | with_reducible refine (foldl_fixed (fun _ _ => ?_) _ _).trans ?_
    | (simp only [↓State.drawBits_fixed, fixed_mk]; done)
    | split
    | simp only [↓State.drawBits_fixed, fixed_mk, guarded]

theorem State.putStaging_fixed (s : State) (image off total : Nat) (b : List Byte) : (State.putStaging s image off total b).fixed = s.fixed := by
  unfold State.putStaging
  repeat' first
    | with_reducible rfl
    | with_reducible apply fixed_ite
    | (simp only [↓State.event_fixed, State.modTrust, State.modCfg, fixed_mk]; done)
    | split
    | simp only [↓State.event_fixed, State.modTrust, State.modCfg, fixed_mk, guarded]

theorem State.stageFirmware_fixed (s : State) (c : Cmd) (data : List Byte) : (State.stageFirmware s c data).fixed = s.fixed := by
  unfold State.stageFirmware
  repeat' first
    | with_reducible rfl
    | with_reducible apply fixed_ite
    | (simp only [↓State.putStaging_fixed, ↓State.completeX_fixed, ↓State.complete_fixed, fixed_mk]; done)
    | split
    | simp only [↓State.putStaging_fixed, ↓State.completeX_fixed, ↓State.complete_fixed, fixed_mk, guarded]

theorem State.verifyImage_fixed (s : State) (image : Nat) (b : List Byte) (total : Nat) : (State.verifyImage s image b total).2.fixed = s.fixed := by
  unfold State.verifyImage
  simp only [↓State.event_fixed, fixed_mk, guarded]

theorem State.withStaged_fixed {s : State} {c : Cmd} {f : State → List Byte → State} {x : Fixed}
    (h : ∀ (t : State) (b : List Byte), t.fixed = x → (f t b).fixed = x) (hs : s.fixed = x) :
    (s.withStaged c f).fixed = x := by
  unfold State.withStaged
  dsimp only
  exact fixed_ite ((State.complete_fixed ..).trans hs)
    (fixed_ite (h _ _ ((State.verifyImage_fixed ..).trans hs)) ((State.complete_fixed ..).trans ((State.verifyImage_fixed ..).trans hs)))

theorem State.startActivation_fixed (s : State) (c : Cmd) (starts : Bool) : (State.startActivation s c starts).fixed = s.fixed := by
  unfold State.startActivation
  simp only [↓State.actDue_fixed, State.modTrust, State.modCfg, fixed_mk, guarded]

theorem State.flipSpan_fixed (s : State) (trial : Bool) : (State.flipSpan s trial).fixed = s.fixed := by
  unfold State.flipSpan
  simp only [↓State.accrueTest_fixed, State.modTrust, State.modCfg, fixed_mk, guarded]

theorem State.lifeEvent_fixed (s : State) : (State.lifeEvent s).fixed = s.fixed := by
  unfold State.lifeEvent
  simp only [↓State.event_fixed, fixed_mk, guarded]

theorem State.sealRecord_fixed (s : State) : (State.sealRecord s).fixed = s.fixed := by
  unfold State.sealRecord
  simp only [↓State.blackBox_fixed, fixed_mk, guarded]

theorem State.strapToRole_fixed (s : State) : (State.strapToRole s).fixed = s.fixed := by
  unfold State.strapToRole
  split <;> simp only [↓State.testPads_fixed, fixed_mk, guarded]

end Sys2Proof.Machine
end

