-- ==== Sys2Proof/Laws/FixedCommands1.lean ====
section
/-! SUPPORT. Commands leave the guarded part of the state alone. -/

namespace Sys2Proof.Machine

set_option linter.all false
set_option maxRecDepth 4000

theorem execSpareDwellStep_fixed {t k : Nat} {b : Bool} {zero : Rat} {s : State} {s' : State} (h : execSpareDwellStep t k b zero s = .next s') : s'.fixed = s.fixed := by
  unfold execSpareDwellStep at h
  cases h
  repeat' first
    | with_reducible rfl
    | with_reducible apply fixed_ite
    | with_reducible refine onDie_fixed (fun _ => ?_) ?_
    | (simp only [↓State.at__fixed, ↓State.takePrec_fixed, ↓State.modDie_fixed, fixed_mk]; done)
    | split
    | simp only [↓State.at__fixed, ↓State.takePrec_fixed, ↓State.modDie_fixed, fixed_mk, guarded]

theorem execWarmExpire_fixed {t k : Nat} {s : State} {s' : State} (h : execWarmExpire t k s = .next s') : s'.fixed = s.fixed := by
  unfold execWarmExpire at h
  cases h
  refine onDie_fixed (fun _ => ?_) ?_
  · split <;> simp only [↓State.at__fixed, ↓State.modDie_fixed, fixed_mk, guarded]
  · simp only [↓State.at__fixed, ↓State.modDie_fixed, fixed_mk, guarded]

theorem execRefMonitorSample_fixed {t k : Nat} {ratio : Rat} {s : State} {s' : State} (h : execRefMonitorSample t k ratio s = .next s') : s'.fixed = s.fixed := by
  unfold execRefMonitorSample at h
  cases h
  repeat' first
    | with_reducible rfl
    | with_reducible apply fixed_ite
    | with_reducible refine onDie_fixed (fun _ => ?_) ?_
    | (simp only [↓State.at__fixed, ↓State.modDie_fixed, fixed_mk]; done)
    | split
    | simp only [↓State.at__fixed, ↓State.modDie_fixed, fixed_mk, guarded]

theorem execRefIntervalClose_fixed {t k : Nat} {s : State} {s' : State} (h : execRefIntervalClose t k s = .next s') : s'.fixed = s.fixed := by
  unfold execRefIntervalClose at h
  cases h
  repeat' first
    | with_reducible rfl
    | with_reducible apply fixed_ite
    | with_reducible refine onDie_fixed (fun _ => ?_) ?_
    | (simp only [↓State.dieEvent_fixed, ↓State.at__fixed, ↓State.discardRun_fixed, ↓State.modDie_fixed, fixed_mk]; done)
    | split
    | simp only [↓State.dieEvent_fixed, ↓State.at__fixed, ↓State.discardRun_fixed, ↓State.modDie_fixed, fixed_mk, guarded]

theorem execGateWindowOpen_fixed {t k : Nat} {s : State} {s' : State} (h : execGateWindowOpen t k s = .next s') : s'.fixed = s.fixed := by
  unfold execGateWindowOpen at h
  cases h
  repeat' first
    | with_reducible rfl
    | with_reducible apply fixed_ite
    | with_reducible refine onDie_fixed (fun _ => ?_) ?_
    | (simp only [↓State.at__fixed, ↓State.settleChannels_fixed, ↓State.takePrec_fixed, ↓State.modDie_fixed, fixed_mk]; done)
    | split
    | simp only [↓State.at__fixed, ↓State.settleChannels_fixed, ↓State.takePrec_fixed, ↓State.modDie_fixed, fixed_mk, guarded]

theorem execGateWindowClose_fixed {t k : Nat} {s : State} {s' : State} (h : execGateWindowClose t k s = .next s') : s'.fixed = s.fixed := by
  unfold execGateWindowClose at h
  cases h
  repeat' first
    | with_reducible rfl
    | with_reducible apply fixed_ite
    | with_reducible refine onDie_fixed (fun _ => ?_) ?_
    | (simp only [↓State.at__fixed, ↓State.owBegin_fixed, ↓State.settleChannels_fixed, ↓State.modDie_fixed, fixed_mk]; done)
    | split
    | simp only [↓State.at__fixed, ↓State.owBegin_fixed, ↓State.settleChannels_fixed, ↓State.modDie_fixed, fixed_mk, guarded]

theorem execImpSegmentEnd_fixed {t k band : Nat} {s : State} {s' : State} (h : execImpSegmentEnd t k band s = .next s') : s'.fixed = s.fixed := by
  unfold execImpSegmentEnd at h
  cases h
  repeat' first
    | with_reducible rfl
    | with_reducible apply fixed_ite
    | with_reducible refine onDie_fixed (fun _ => ?_) ?_
    | (simp only [↓State.at__fixed, ↓State.adoptImp_fixed, ↓State.modDie_fixed, fixed_mk]; done)
    | split
    | simp only [↓State.at__fixed, ↓State.adoptImp_fixed, ↓State.modDie_fixed, fixed_mk, guarded]

theorem execImpAverageEnd_fixed {t k band : Nat} {s : State} {s' : State} (h : execImpAverageEnd t k band s = .next s') : s'.fixed = s.fixed := by
  unfold execImpAverageEnd at h
  cases h
  repeat' first
    | with_reducible rfl
    | with_reducible apply fixed_ite
    | with_reducible refine (foldl_fixed (fun _ _ => ?_) _ _).trans ?_
    | with_reducible refine onDie_fixed (fun _ => ?_) ?_
    | (simp only [↓State.dieRecord_fixed, ↓State.dieEvent_fixed, ↓State.at__fixed, ↓State.adoptImp_fixed, ↓State.modDie_fixed, fixed_mk]; done)
    | split
    | simp only [↓State.dieRecord_fixed, ↓State.dieEvent_fixed, ↓State.at__fixed, ↓State.adoptImp_fixed, ↓State.modDie_fixed, fixed_mk, guarded]

theorem execInjectionChip_fixed {t k : Nat} {s : State} {s' : State} (h : execInjectionChip t k s = .next s') : s'.fixed = s.fixed := by
  unfold execInjectionChip at h
  cases h
  repeat' first
    | with_reducible rfl
    | with_reducible apply fixed_ite
    | with_reducible refine onDie_fixed (fun _ => ?_) ?_
    | (simp only [↓State.at__fixed, ↓State.settleChannels_fixed, ↓State.adoptImp_fixed, ↓State.stopInjection_fixed, ↓State.beginInjection_fixed, ↓State.modDie_fixed, fixed_mk]; done)
    | split
    | simp only [↓State.at__fixed, ↓State.settleChannels_fixed, ↓State.adoptImp_fixed, ↓State.stopInjection_fixed, ↓State.beginInjection_fixed, ↓State.modDie_fixed, fixed_mk, guarded]

theorem execFastFrameHold_fixed {t k : Nat} {v : HoldInput} {zero ref : Rat} {s : State} {s' : State} (h : execFastFrameHold t k v zero ref s = .next s') : s'.fixed = s.fixed := by
  unfold execFastFrameHold at h
  cases h
  repeat' first
    | with_reducible rfl
    | with_reducible apply fixed_ite
    | with_reducible refine onDie_fixed (fun _ => ?_) ?_
    | (simp only [↓State.feedImp_fixed, ↓State.at__fixed, ↓State.settleChannels_fixed, ↓State.adoptImp_fixed, ↓State.fastDomain_fixed, ↓State.closeCapture_fixed, ↓State.takePrec_fixed, ↓State.modDie_fixed, ↓State.feedStream_fixed, fixed_mk]; done)
    | split
    | simp only [↓State.feedImp_fixed, ↓State.at__fixed, ↓State.settleChannels_fixed, ↓State.adoptImp_fixed, ↓State.fastDomain_fixed, ↓State.closeCapture_fixed, ↓State.takePrec_fixed, ↓State.modDie_fixed, ↓State.feedStream_fixed, fixed_mk, guarded]

theorem execCaptureTimerTrigger_fixed {t k : Nat} {s : State} {s' : State} (h : execCaptureTimerTrigger t k s = .next s') : s'.fixed = s.fixed := by
  unfold execCaptureTimerTrigger at h
  cases h
  repeat' first
    | with_reducible rfl
    | with_reducible apply fixed_ite
    | with_reducible refine onDie_fixed (fun _ => ?_) ?_
    | (simp only [↓State.triggerCapture_fixed, ↓State.at__fixed, fixed_mk]; done)
    | split
    | simp only [↓State.triggerCapture_fixed, ↓State.at__fixed, fixed_mk, guarded]

theorem execCarrierBeaconReceive_fixed {t a te : Nat} {s : State} {s' : State} (h : execCarrierBeaconReceive t a te s = .next s') : s'.fixed = s.fixed := by
  unfold execCarrierBeaconReceive at h
  cases h
  repeat' first
    | with_reducible rfl
    | with_reducible apply fixed_ite
    | with_reducible refine (foldl_fixed (fun _ _ => ?_) _ _).trans ?_
    | with_reducible refine onDie_fixed (fun _ => ?_) ?_
    | (simp only [↓State.triggerCapture_fixed, ↓State.at__fixed, fixed_mk]; done)
    | split
    | simp only [↓State.triggerCapture_fixed, ↓State.at__fixed, fixed_mk, guarded]

theorem execCaptureEdgeTimeout_fixed {t k : Nat} {s : State} {s' : State} (h : execCaptureEdgeTimeout t k s = .next s') : s'.fixed = s.fixed := by
  unfold execCaptureEdgeTimeout at h
  cases h
  repeat' first
    | with_reducible rfl
    | with_reducible apply fixed_ite
    | with_reducible refine onDie_fixed (fun _ => ?_) ?_
    | (simp only [↓State.unarm_fixed, ↓State.dieEvent_fixed, ↓State.at__fixed, ↓State.modDie_fixed, ↓State.completeOpt_fixed, fixed_mk]; done)
    | split
    | simp only [↓State.unarm_fixed, ↓State.dieEvent_fixed, ↓State.at__fixed, ↓State.modDie_fixed, ↓State.completeOpt_fixed, fixed_mk, guarded]

theorem execCaptureBlockDrain_fixed {t k : Nat} {s : State} {s' : State} (h : execCaptureBlockDrain t k s = .next s') : s'.fixed = s.fixed := by
  unfold execCaptureBlockDrain at h
  cases h
  repeat' first
    | with_reducible rfl
    | with_reducible apply fixed_ite
    | with_reducible refine onDie_fixed (fun _ => ?_) ?_
    | (simp only [↓State.at__fixed, ↓State.place_fixed, ↓State.modDie_fixed, fixed_mk]; done)
    | split
    | simp only [↓State.at__fixed, ↓State.place_fixed, ↓State.modDie_fixed, fixed_mk, guarded]

theorem execSyncInEdge_fixed {t : Nat} {rising : Bool} {stableNs : Nat} {s : State} {s' : State} (h : execSyncInEdge t rising stableNs s = .next s') : s'.fixed = s.fixed := by
  unfold execSyncInEdge at h
  cases h
  repeat' first
    | with_reducible rfl
    | with_reducible apply fixed_ite
    | with_reducible refine (foldl_fixed (fun _ _ => ?_) _ _).trans ?_
    | with_reducible refine onDie_fixed (fun _ => ?_) ?_
    | (simp only [↓State.triggerCapture_fixed, ↓State.originate_fixed, ↓State.at__fixed, fixed_mk]; done)
    | split
    | simp only [↓State.triggerCapture_fixed, ↓State.originate_fixed, ↓State.at__fixed, fixed_mk, guarded]

theorem execCurrentBlockSend_fixed {t : Nat} {s : State} {s' : State} (h : execCurrentBlockSend t s = .next s') : s'.fixed = s.fixed := by
  unfold execCurrentBlockSend at h
  dsimp only at h
  split at h
  · cases h
    exact State.at__fixed ..
  · cases h
    refine onDie_fixed (fun _ => ?_) ((State.adoptImp_fixed ..).trans (State.at__fixed ..))
    refine fixed_ite ((State.adoptImp_fixed ..).trans (State.at__fixed ..)) ?_
    refine (foldl_fixed (fun _ _ => State.takeCurrentBlock_fixed ..) _ _).trans ((State.originate_fixed ..).trans ?_)
    exact (State.adoptImp_fixed ..).trans (State.at__fixed ..)

theorem execCurrentBlockReceive_fixed {t : Nat} {bytes : List Byte} {s : State} {s' : State} (h : execCurrentBlockReceive t bytes s = .next s') : s'.fixed = s.fixed := by
  unfold execCurrentBlockReceive at h
  cases h
  repeat' first
    | with_reducible rfl
    | with_reducible apply fixed_ite
    | with_reducible refine (foldl_fixed (fun _ _ => ?_) _ _).trans ?_
    | (simp only [↓State.accept_fixed, ↓State.at__fixed, ↓State.takeCurrentBlock_fixed, fixed_mk]; done)
    | split
    | simp only [↓State.accept_fixed, ↓State.at__fixed, ↓State.takeCurrentBlock_fixed, fixed_mk, guarded]

theorem execCurrentBlockMissing_fixed {t t0 : Nat} {s : State} {s' : State} (h : execCurrentBlockMissing t t0 s = .next s') : s'.fixed = s.fixed := by
  unfold execCurrentBlockMissing at h
  cases h
  repeat' first
    | with_reducible rfl
    | with_reducible apply fixed_ite
    | with_reducible refine (foldl_fixed (fun _ _ => ?_) _ _).trans ?_
    | (simp only [↓State.at__fixed, ↓State.missCurrentBlock_fixed, fixed_mk]; done)
    | split
    | simp only [↓State.at__fixed, ↓State.missCurrentBlock_fixed, fixed_mk, guarded]

theorem execChargeBlockSend_fixed {t : Nat} {s : State} {s' : State} (h : execChargeBlockSend t s = .next s') : s'.fixed = s.fixed := by
  unfold execChargeBlockSend at h
  cases h
  exact (foldl_fixed (fun _ _ => State.sendChargeBlock_fixed ..) _ _).trans ((State.adoptEst_fixed _).trans (State.at__fixed ..))

theorem execChargeBlockReceive_fixed {t : Nat} {bytes : List Byte} {s : State} {s' : State} (h : execChargeBlockReceive t bytes s = .next s') : s'.fixed = s.fixed := by
  unfold execChargeBlockReceive at h
  cases h
  split <;> simp only [↓State.accept_fixed, ↓State.at__fixed, ↓State.takeChargeBlock_fixed, fixed_mk, guarded]

theorem execChargeBlockMissing_fixed {t t0 : Nat} {s : State} {s' : State} (h : execChargeBlockMissing t t0 s = .next s') : s'.fixed = s.fixed := by
  unfold execChargeBlockMissing at h
  cases h
  repeat' first
    | with_reducible rfl
    | with_reducible apply fixed_ite
    | with_reducible refine (foldl_fixed (fun _ _ => ?_) _ _).trans ?_
    | (simp only [↓State.adoptEst_fixed, ↓State.accrueDebt_fixed, ↓State.at__fixed, ↓State.missChargeBlock_fixed, ↓State.meterGap_fixed, ↓State.hubDraw_fixed, fixed_mk]; done)
    | split
    | simp only [↓State.adoptEst_fixed, ↓State.accrueDebt_fixed, ↓State.at__fixed, ↓State.missChargeBlock_fixed, ↓State.meterGap_fixed, ↓State.hubDraw_fixed, fixed_mk, guarded]

theorem execStateSecond_fixed {t k : Nat} {s : State} {s' : State} (h : execStateSecond t k s = .next s') : s'.fixed = s.fixed := by
  unfold execStateSecond at h
  cases h
  repeat' first
    | with_reducible rfl
    | with_reducible apply fixed_ite
    | with_reducible refine onDie_fixed (fun _ => ?_) ?_
    | (simp only [↓State.dieRecord_fixed, ↓State.adoptEst_fixed, ↓State.restPoint_fixed, ↓State.dieEvent_fixed, ↓State.at__fixed, ↓State.modDies_fixed, ↓State.noteHistory_fixed, ↓State.modDie_fixed, ↓State.judgeEnds_fixed, fixed_mk]; done)
    | split
    | simp only [↓State.dieRecord_fixed, ↓State.adoptEst_fixed, ↓State.restPoint_fixed, ↓State.dieEvent_fixed, ↓State.at__fixed, ↓State.modDies_fixed, ↓State.noteHistory_fixed, ↓State.modDie_fixed, ↓State.judgeEnds_fixed, fixed_mk, guarded]

theorem execStatePersist_fixed {t k : Nat} {s : State} {s' : State} (h : execStatePersist t k s = .next s') : s'.fixed = s.fixed := by
  unfold execStatePersist at h
  cases h
  refine onDie_fixed (fun _ => ?_) ?_
  · split <;> simp only [↓State.adoptEst_fixed, ↓State.at__fixed, ↓State.persist_fixed, fixed_mk, guarded]
  · simp only [↓State.adoptEst_fixed, ↓State.at__fixed, ↓State.persist_fixed, fixed_mk, guarded]

theorem execSeqWord_fixed {t k : Nat} {m : Rat} {ovl : Overload} {comply : Bool} {s : State} {s' : State} (h : execSeqWord t k m ovl comply s = .next s') : s'.fixed = s.fixed := by
  unfold execSeqWord at h
  cases h
  repeat' first
    | with_reducible rfl
    | with_reducible apply fixed_ite
    | with_reducible refine onDie_fixed (fun _ => ?_) ?_
    | (simp only [↓State.dieEventAt_fixed, ↓State.at__fixed, ↓State.adoptSeq_fixed, ↓State.modDie_fixed, fixed_mk]; done)
    | split
    | simp only [↓State.dieEventAt_fixed, ↓State.at__fixed, ↓State.adoptSeq_fixed, ↓State.modDie_fixed, fixed_mk, guarded]

theorem execSeqEntryEnd_fixed {t k : Nat} {presence : Bool} {number : Nat} {s : State} {s' : State} (h : execSeqEntryEnd t k presence number s = .next s') : s'.fixed = s.fixed := by
  unfold execSeqEntryEnd at h
  cases h
  repeat' first
    | with_reducible rfl
    | with_reducible apply fixed_ite
    | with_reducible refine (foldl_fixed (fun _ _ => ?_) _ _).trans ?_
    | with_reducible refine onDie_fixed (fun _ => ?_) ?_
    | (simp only [↓State.emit_fixed, ↓State.at__fixed, ↓State.closeEntry_fixed, ↓State.seqAdvance_fixed, ↓State.adoptSeq_fixed, ↓State.modDie_fixed, fixed_mk]; done)
    | split
    | simp only [↓State.emit_fixed, ↓State.at__fixed, ↓State.closeEntry_fixed, ↓State.seqAdvance_fixed, ↓State.adoptSeq_fixed, ↓State.modDie_fixed, fixed_mk, guarded]

theorem execM30CalInsert_fixed {t k gain : Nat} {zero : Rat} {zener : ZenerRead} {s : State} {s' : State} (h : execM30CalInsert t k gain zero zener s = .next s') : s'.fixed = s.fixed := by
  unfold execM30CalInsert at h
  cases h
  repeat' first
    | with_reducible rfl
    | with_reducible apply fixed_ite
    | with_reducible refine onDie_fixed (fun _ => ?_) ?_
    | (simp only [↓State.at__fixed, ↓State.adoptSeq_fixed, ↓State.modDie_fixed, fixed_mk]; done)
    | split
    | simp only [↓State.at__fixed, ↓State.adoptSeq_fixed, ↓State.modDie_fixed, fixed_mk, guarded]

theorem execUrgentWorkPreempt_fixed {t k : Nat} {s : State} {s' : State} (h : execUrgentWorkPreempt t k s = .next s') : s'.fixed = s.fixed := by
  unfold execUrgentWorkPreempt at h
  cases h
  repeat' first
    | with_reducible rfl
    | with_reducible apply fixed_ite
    | with_reducible refine onDie_fixed (fun _ => ?_) ?_
    | (simp only [↓State.at__fixed, ↓State.owBegin_fixed, ↓State.closeEntry_fixed, ↓State.adoptSeq_fixed, ↓State.modDie_fixed, ↓State.abortSlice_fixed, fixed_mk]; done)
    | split
    | simp only [↓State.at__fixed, ↓State.owBegin_fixed, ↓State.closeEntry_fixed, ↓State.adoptSeq_fixed, ↓State.modDie_fixed, ↓State.abortSlice_fixed, fixed_mk, guarded]

theorem execUrgentWorkEnd_fixed {t k : Nat} {s : State} {s' : State} (h : execUrgentWorkEnd t k s = .next s') : s'.fixed = s.fixed := by
  unfold execUrgentWorkEnd at h
  cases h
  simp only [↓State.endUrgent_fixed, ↓State.at__fixed, ↓State.adoptSeq_fixed, fixed_mk, guarded]

theorem execCalRunClose_fixed {t k : Nat} {s : State} {s' : State} (h : execCalRunClose t k s = .next s') : s'.fixed = s.fixed := by
  unfold execCalRunClose at h
  cases h
  repeat' first
    | with_reducible rfl
    | with_reducible apply fixed_ite
    | with_reducible refine onDie_fixed (fun _ => ?_) ?_
    | (simp only [↓State.at__fixed, ↓State.closeRun_fixed, fixed_mk]; done)
    | split
    | simp only [↓State.at__fixed, ↓State.closeRun_fixed, fixed_mk, guarded]

theorem execCalSolveComplete_fixed {t k : Nat} {s : State} {s' : State} (h : execCalSolveComplete t k s = .next s') : s'.fixed = s.fixed := by
  unfold execCalSolveComplete at h
  cases h
  repeat' first
    | with_reducible rfl
    | with_reducible apply fixed_ite
    | with_reducible refine onDie_fixed (fun _ => ?_) ?_
    | (simp only [↓State.dieRecord_fixed, ↓State.solveRun_fixed, ↓State.dieEvent_fixed, ↓State.at__fixed, ↓State.modDie_fixed, fixed_mk]; done)
    | split
    | simp only [↓State.dieRecord_fixed, ↓State.solveRun_fixed, ↓State.dieEvent_fixed, ↓State.at__fixed, ↓State.modDie_fixed, fixed_mk, guarded]

theorem execCalExpiry_fixed {t k c : Nat} {s : State} {s' : State} (h : execCalExpiry t k c s = .next s') : s'.fixed = s.fixed := by
  unfold execCalExpiry at h
  cases h
  repeat' first
    | with_reducible rfl
    | with_reducible apply fixed_ite
    | with_reducible refine onDie_fixed (fun _ => ?_) ?_
    | (simp only [↓State.dieEvent_fixed, ↓State.at__fixed, ↓State.modDie_fixed, fixed_mk]; done)
    | split
    | simp only [↓State.dieEvent_fixed, ↓State.at__fixed, ↓State.modDie_fixed, fixed_mk, guarded]

theorem execPrecisionSample_fixed {t k : Nat} {v : List Rat} {ovl : List Overload} {tj : Int} {bal : List Rat} {s : State} {s' : State} (h : execPrecisionSample t k v ovl tj bal s = .next s') : s'.fixed = s.fixed := by
  unfold execPrecisionSample at h
  cases h
  repeat' first
    | with_reducible rfl
    | with_reducible apply fixed_ite
    | with_reducible refine onDie_fixed (fun _ => ?_) ?_
    | (simp only [↓State.stepAt_fixed, ↓State.applyCap_fixed, ↓State.at__fixed, ↓State.atSample_fixed, ↓State.precSample_fixed, ↓State.modDie_fixed, fixed_mk]; done)
    | split
    | simp only [↓State.stepAt_fixed, ↓State.applyCap_fixed, ↓State.at__fixed, ↓State.atSample_fixed, ↓State.precSample_fixed, ↓State.modDie_fixed, fixed_mk, guarded]

theorem execComparatorTick_fixed {t k : Nat} {v : List Rat} {s : State} {s' : State} (h : execComparatorTick t k v s = .next s') : s'.fixed = s.fixed := by
  unfold execComparatorTick at h
  cases h
  repeat' first
    | with_reducible rfl
    | with_reducible apply fixed_ite
    | with_reducible refine (foldl_fixed (fun _ _ => ?_) _ _).trans ?_
    | with_reducible refine onDie_fixed (fun _ => ?_) ?_
    | (simp only [↓State.judgeReady_fixed, ↓State.applyCap_fixed, ↓State.at__fixed, ↓State.heartResume_fixed, ↓State.endSweep_fixed, ↓State.adoptProt_fixed, ↓State.modDie_fixed, ↓State.sampleComp_fixed, fixed_mk]; done)
    | split
    | simp only [↓State.judgeReady_fixed, ↓State.applyCap_fixed, ↓State.at__fixed, ↓State.heartResume_fixed, ↓State.endSweep_fixed, ↓State.adoptProt_fixed, ↓State.modDie_fixed, ↓State.sampleComp_fixed, fixed_mk, guarded]

theorem execAoncPowerUp_fixed {t k : Nat} {s : State} {s' : State} (h : execAoncPowerUp t k s = .next s') : s'.fixed = s.fixed := by
  unfold execAoncPowerUp at h
  cases h
  refine onDie_fixed (fun _ => ?_) ?_
  · split <;> simp only [↓State.at__fixed, ↓State.takeRange_fixed, ↓State.modDie_fixed, fixed_mk, guarded]
  · simp only [↓State.at__fixed, ↓State.takeRange_fixed, ↓State.modDie_fixed, fixed_mk, guarded]

theorem execAoncPowerDown_fixed {t k : Nat} {s : State} {s' : State} (h : execAoncPowerDown t k s = .next s') : s'.fixed = s.fixed := by
  unfold execAoncPowerDown at h
  cases h
  refine onDie_fixed (fun _ => ?_) ?_
  · split <;> simp only [↓State.precOff_fixed, ↓State.at__fixed, ↓State.heartResume_fixed, ↓State.tearWrites_fixed, ↓State.modDie_fixed, fixed_mk, guarded]
  · simp only [↓State.precOff_fixed, ↓State.at__fixed, ↓State.heartResume_fixed, ↓State.tearWrites_fixed, ↓State.modDie_fixed, fixed_mk, guarded]

theorem execFaultNoticeReceive_fixed {t k : Nat} {side : Side} {intact : Bool} {s : State} {s' : State} (h : execFaultNoticeReceive t k side intact s = .next s') : s'.fixed = s.fixed := by
  unfold execFaultNoticeReceive at h
  cases h
  repeat' first
    | with_reducible rfl
    | with_reducible apply fixed_ite
    | with_reducible refine onDie_fixed (fun _ => ?_) ?_
    | (simp only [↓State.at__fixed, ↓State.takeNotice_fixed, ↓State.checkRejected_fixed, ↓State.modDie_fixed, fixed_mk]; done)
    | split
    | simp only [↓State.at__fixed, ↓State.takeNotice_fixed, ↓State.checkRejected_fixed, ↓State.modDie_fixed, fixed_mk, guarded]

theorem execTdacReadback_fixed {t k : Nat} {uv : Bool} {v : Rat} {s : State} {s' : State} (h : execTdacReadback t k uv v s = .next s') : s'.fixed = s.fixed := by
  unfold execTdacReadback at h
  cases h
  repeat' first
    | with_reducible rfl
    | with_reducible apply fixed_ite
    | with_reducible refine onDie_fixed (fun _ => ?_) ?_
    | (simp only [↓State.dacCleared_fixed, ↓State.at__fixed, ↓State.modDie_fixed, ↓State.clearFor_fixed, fixed_mk]; done)
    | split
    | simp only [↓State.dacCleared_fixed, ↓State.at__fixed, ↓State.modDie_fixed, ↓State.clearFor_fixed, fixed_mk, guarded]

theorem execOwSweep_fixed {t k : Nat} {s : State} {s' : State} (h : execOwSweep t k s = .next s') : s'.fixed = s.fixed := by
  unfold execOwSweep at h
  cases h
  repeat' first
    | with_reducible rfl
    | with_reducible apply fixed_ite
    | with_reducible refine onDie_fixed (fun _ => ?_) ?_
    | (simp only [↓State.at__fixed, ↓State.modDie_fixed, fixed_mk]; done)
    | split
    | simp only [↓State.at__fixed, ↓State.modDie_fixed, fixed_mk, guarded]

theorem execOwCheckComplete_fixed {t k : Nat} {pre post : List Rat} {s : State} {s' : State} (h : execOwCheckComplete t k pre post s = .next s') : s'.fixed = s.fixed := by
  unfold execOwCheckComplete at h
  cases h
  repeat' first
    | with_reducible rfl
    | with_reducible apply fixed_ite
    | with_reducible refine onDie_fixed (fun _ => ?_) ?_
    | (simp only [↓State.owEnd_fixed, ↓State.at__fixed, ↓State.owBegin_fixed, ↓State.settleChannels_fixed, ↓State.modDie_fixed, fixed_mk]; done)
    | split
    | simp only [↓State.owEnd_fixed, ↓State.at__fixed, ↓State.owBegin_fixed, ↓State.settleChannels_fixed, ↓State.modDie_fixed, fixed_mk, guarded]

theorem execOwRecheck_fixed {t k w : Nat} {pre post : List Rat} {s : State} {s' : State} (h : execOwRecheck t k w pre post s = .next s') : s'.fixed = s.fixed := by
  unfold execOwRecheck at h
  cases h
  repeat' first
    | with_reducible rfl
    | with_reducible apply fixed_ite
    | with_reducible refine onDie_fixed (fun _ => ?_) ?_
    | (simp only [↓State.owEnd_fixed, ↓State.dieEvent_fixed, ↓State.at__fixed, ↓State.heartResume_fixed, ↓State.owBegin_fixed, ↓State.settleChannels_fixed, ↓State.modDie_fixed, fixed_mk]; done)
    | split
    | simp only [↓State.owEnd_fixed, ↓State.dieEvent_fixed, ↓State.at__fixed, ↓State.heartResume_fixed, ↓State.owBegin_fixed, ↓State.settleChannels_fixed, ↓State.modDie_fixed, fixed_mk, guarded]

theorem execShuntInputBreak_fixed {t k w : Nat} {s : State} {s' : State} (h : execShuntInputBreak t k w s = .next s') : s'.fixed = s.fixed := by
  unfold execShuntInputBreak at h
  cases h
  refine onDie_fixed (fun _ => ?_) ?_
  · split <;> simp only [↓State.at__fixed, ↓State.modDie_fixed, fixed_mk, guarded]
  · simp only [↓State.at__fixed, ↓State.modDie_fixed, fixed_mk, guarded]

theorem execBalStep_fixed {t k : Nat} {s : State} {s' : State} (h : execBalStep t k s = .next s') : s'.fixed = s.fixed := by
  unfold execBalStep at h
  cases h
  repeat' first
    | with_reducible rfl
    | with_reducible apply fixed_ite
    | with_reducible refine onDie_fixed (fun _ => ?_) ?_
    | (simp only [↓State.policyTaken_fixed, ↓State.applyCap_fixed, ↓State.at__fixed, ↓State.takeRange_fixed, ↓State.clearDebts_fixed, ↓State.modDie_fixed, fixed_mk]; done)
    | split
    | simp only [↓State.policyTaken_fixed, ↓State.applyCap_fixed, ↓State.at__fixed, ↓State.takeRange_fixed, ↓State.clearDebts_fixed, ↓State.modDie_fixed, fixed_mk, guarded]

theorem execBalNeedCheck_fixed {t k : Nat} {s : State} {s' : State} (h : execBalNeedCheck t k s = .next s') : s'.fixed = s.fixed := by
  unfold execBalNeedCheck at h
  cases h
  refine onDie_fixed (fun _ => ?_) ?_
  · split <;> simp only [↓State.applyCap_fixed, ↓State.at__fixed, ↓State.modDie_fixed, fixed_mk, guarded]
  · simp only [↓State.applyCap_fixed, ↓State.at__fixed, ↓State.modDie_fixed, fixed_mk, guarded]

theorem execBalOvercurrent_fixed {t k n : Nat} {s : State} {s' : State} (h : execBalOvercurrent t k n s = .next s') : s'.fixed = s.fixed := by
  unfold execBalOvercurrent at h
  cases h
  repeat' first
    | with_reducible rfl
    | with_reducible apply fixed_ite
    | with_reducible refine onDie_fixed (fun _ => ?_) ?_
    | (simp only [↓State.dieEvent_fixed, ↓State.at__fixed, ↓State.settleChannels_fixed, ↓State.modDie_fixed, fixed_mk]; done)
    | split
    | simp only [↓State.dieEvent_fixed, ↓State.at__fixed, ↓State.settleChannels_fixed, ↓State.modDie_fixed, fixed_mk, guarded]

theorem execBalKeepalive_fixed {t k : Nat} {s : State} {s' : State} (h : execBalKeepalive t k s = .next s') : s'.fixed = s.fixed := by
  unfold execBalKeepalive at h
  cases h
  simp only [↓State.at__fixed, ↓State.keepAlive_fixed, fixed_mk, guarded]

theorem execBalTimeoutExpire_fixed {t k : Nat} {s : State} {s' : State} (h : execBalTimeoutExpire t k s = .next s') : s'.fixed = s.fixed := by
  unfold execBalTimeoutExpire at h
  cases h
  refine onDie_fixed (fun _ => ?_) ?_
  · split <;> simp only [↓State.dieEvent_fixed, ↓State.at__fixed, ↓State.settleChannels_fixed, ↓State.modDie_fixed, fixed_mk, guarded]
  · simp only [↓State.dieEvent_fixed, ↓State.at__fixed, ↓State.settleChannels_fixed, ↓State.modDie_fixed, fixed_mk, guarded]

theorem execBalanceRecordInterval_fixed {t k : Nat} {s : State} {s' : State} (h : execBalanceRecordInterval t k s = .next s') : s'.fixed = s.fixed := by
  unfold execBalanceRecordInterval at h
  cases h
  repeat' first
    | with_reducible rfl
    | with_reducible apply fixed_ite
    | with_reducible refine onDie_fixed (fun _ => ?_) ?_
    | (simp only [↓State.dieRecord_fixed, ↓State.at__fixed, ↓State.modDie_fixed, fixed_mk]; done)
    | split
    | simp only [↓State.dieRecord_fixed, ↓State.at__fixed, ↓State.modDie_fixed, fixed_mk, guarded]

theorem execInnerLinkBroken_fixed {t i : Nat} {s : State} {s' : State} (h : execInnerLinkBroken t i s = .next s') : s'.fixed = s.fixed := by
  unfold execInnerLinkBroken at h
  cases h
  split <;> simp only [↓State.at__fixed, ↓State.breakLink_fixed, fixed_mk, guarded]

theorem execInnerLinkRestored_fixed {t i : Nat} {s : State} {s' : State} (h : execInnerLinkRestored t i s = .next s') : s'.fixed = s.fixed := by
  unfold execInnerLinkRestored at h
  cases h
  split <;> simp only [↓State.at__fixed, ↓State.mendLink_fixed, fixed_mk, guarded]

theorem execDieLost_fixed {t k : Nat} {s : State} {s' : State} (h : execDieLost t k s = .next s') : s'.fixed = s.fixed := by
  unfold execDieLost at h
  cases h
  refine onDie_fixed (fun _ => ?_) ?_
  · split <;> simp only [↓State.event_fixed, ↓State.at__fixed, ↓State.ownFault_fixed, ↓State.heartStop_fixed, ↓State.modDie_fixed, fixed_mk, guarded]
  · simp only [↓State.event_fixed, ↓State.at__fixed, ↓State.ownFault_fixed, ↓State.heartStop_fixed, ↓State.modDie_fixed, fixed_mk, guarded]

theorem execRolePadChange_fixed {t : Nat} {level : Bool} {s : State} {s' : State} (h : execRolePadChange t level s = .next s') : s'.fixed = s.fixed := by
  unfold execRolePadChange at h
  cases h
  repeat' first
    | with_reducible rfl
    | with_reducible apply fixed_ite
    | (simp only [↓State.event_fixed, ↓State.at__fixed, fixed_mk]; done)
    | split
    | simp only [↓State.event_fixed, ↓State.at__fixed, fixed_mk, guarded]

theorem execSearchAll_fixed {t p : Nat} {s : State} {s' : State} (h : execSearchAll t p s = .next s') : s'.fixed = s.fixed := by
  unfold execSearchAll at h
  cases h
  repeat' first
    | with_reducible rfl
    | with_reducible apply fixed_ite
    | with_reducible refine State.onSwp_fixed (fun _ => ?_) ?_
    | (simp only [↓State.at__fixed, ↓State.adoptSwp_fixed, ↓State.startSearch_fixed, fixed_mk]; done)
    | split
    | simp only [↓State.at__fixed, ↓State.adoptSwp_fixed, ↓State.startSearch_fixed, fixed_mk, guarded]

theorem execSearchNewPeriodic_fixed {t p : Nat} {s : State} {s' : State} (h : execSearchNewPeriodic t p s = .next s') : s'.fixed = s.fixed := by
  unfold execSearchNewPeriodic at h
  cases h
  repeat' first
    | with_reducible rfl
    | with_reducible apply fixed_ite
    | with_reducible refine State.onSwp_fixed (fun _ => ?_) ?_
    | (simp only [↓State.modSwp_fixed, ↓State.at__fixed, ↓State.startSearch_fixed, fixed_mk]; done)
    | split
    | simp only [↓State.modSwp_fixed, ↓State.at__fixed, ↓State.startSearch_fixed, fixed_mk, guarded]

theorem execSwpSearchComplete_fixed {t p : Nat} {attempts : List (List (Option (List (Bool × Bool))))} {acks : List (List Nat)} {s : State} {s' : State} (h : execSwpSearchComplete t p attempts acks s = .next s') : s'.fixed = s.fixed := by
  unfold execSwpSearchComplete at h
  cases h
  repeat' first
    | with_reducible rfl
    | with_reducible apply fixed_ite
    | with_reducible refine (foldl_fixed (fun _ _ => ?_) _ _).trans ?_
    | with_reducible refine State.onSwp_fixed (fun _ => ?_) ?_
    | (simp only [↓State.event_fixed, ↓State.endSearch_fixed, ↓State.modSwp_fixed, ↓State.at__fixed, ↓State.emits_fixed, ↓State.assignSensor_fixed, fixed_mk]; done)
    | split
    | simp only [↓State.event_fixed, ↓State.endSearch_fixed, ↓State.modSwp_fixed, ↓State.at__fixed, ↓State.emits_fixed, ↓State.assignSensor_fixed, fixed_mk, guarded]

theorem execSwpStreamCycle_fixed {t p : Nat} {s : State} {s' : State} (h : execSwpStreamCycle t p s = .next s') : s'.fixed = s.fixed := by
  unfold execSwpStreamCycle at h
  cases h
  repeat' first
    | with_reducible rfl
    | with_reducible apply fixed_ite
    | with_reducible refine State.onSwp_fixed (fun _ => ?_) ?_
    | (simp only [↓State.emit_fixed, ↓State.modSwp_fixed, ↓State.at__fixed, fixed_mk]; done)
    | split
    | simp only [↓State.emit_fixed, ↓State.modSwp_fixed, ↓State.at__fixed, fixed_mk, guarded]

theorem execSwpSlotRead_fixed {t p slot : Nat} {bytes : List Byte} {s : State} {s' : State} (h : execSwpSlotRead t p slot bytes s = .next s') : s'.fixed = s.fixed := by
  unfold execSwpSlotRead at h
  cases h
  repeat' first
    | with_reducible rfl
    | with_reducible apply fixed_ite
    | with_reducible refine State.onSwp_fixed (fun _ => ?_) ?_
    | (simp only [↓State.emit_fixed, ↓State.event_fixed, ↓State.modSwp_fixed, ↓State.at__fixed, fixed_mk]; done)
    | split
    | simp only [↓State.emit_fixed, ↓State.event_fixed, ↓State.modSwp_fixed, ↓State.at__fixed, fixed_mk, guarded]

theorem execSwpCycleEnd_fixed {t p : Nat} {s : State} {s' : State} (h : execSwpCycleEnd t p s = .next s') : s'.fixed = s.fixed := by
  unfold execSwpCycleEnd at h
  cases h
  repeat' first
    | with_reducible rfl
    | with_reducible apply fixed_ite
    | with_reducible refine State.onSwp_fixed (fun _ => ?_) ?_
    | (simp only [↓State.modSwp_fixed, ↓State.at__fixed, ↓State.adoptSwp_fixed, ↓State.startSearch_fixed, ↓State.place_fixed, fixed_mk]; done)
    | split
    | simp only [↓State.modSwp_fixed, ↓State.at__fixed, ↓State.adoptSwp_fixed, ↓State.startSearch_fixed, ↓State.place_fixed, fixed_mk, guarded]

theorem execSwpLineShort_fixed {t p : Nat} {s : State} {s' : State} (h : execSwpLineShort t p s = .next s') : s'.fixed = s.fixed := by
  unfold execSwpLineShort at h
  cases h
  repeat' first
    | with_reducible rfl
    | with_reducible apply fixed_ite
    | with_reducible refine State.onSwp_fixed (fun _ => ?_) ?_
    | (simp only [↓State.emit_fixed, ↓State.event_fixed, ↓State.modSwp_fixed, ↓State.at__fixed, ↓State.adoptSwp_fixed, fixed_mk]; done)
    | split
    | simp only [↓State.emit_fixed, ↓State.event_fixed, ↓State.modSwp_fixed, ↓State.at__fixed, ↓State.adoptSwp_fixed, fixed_mk, guarded]

theorem execSwpShortRetry_fixed {t p : Nat} {s : State} {s' : State} (h : execSwpShortRetry t p s = .next s') : s'.fixed = s.fixed := by
  unfold execSwpShortRetry at h
  cases h
  repeat' first
    | with_reducible rfl
    | with_reducible apply fixed_ite
    | with_reducible refine State.onSwp_fixed (fun _ => ?_) ?_
    | (simp only [↓State.modSwp_fixed, ↓State.at__fixed, ↓State.startSearch_fixed, fixed_mk]; done)
    | split
    | simp only [↓State.modSwp_fixed, ↓State.at__fixed, ↓State.startSearch_fixed, fixed_mk, guarded]

theorem execSafetyTick_fixed {t : Nat} {lorst : Bool} {s : State} {s' : State} (h : execSafetyTick t lorst s = .next s') : s'.fixed = s.fixed := by
  unfold execSafetyTick at h
  cases h
  repeat' first
    | with_reducible rfl
    | with_reducible apply fixed_ite
    | (simp only [↓State.stepLorst_fixed, ↓State.at__fixed, ↓State.heartResume_fixed, ↓State.takeBlock_fixed, ↓State.measureAux_fixed, ↓State.latch_fixed, ↓State.evalOuts_fixed, fixed_mk]; done)
    | split
    | simp only [↓State.stepLorst_fixed, ↓State.at__fixed, ↓State.heartResume_fixed, ↓State.takeBlock_fixed, ↓State.measureAux_fixed, ↓State.latch_fixed, ↓State.evalOuts_fixed, fixed_mk, guarded]

theorem execSafetyInputSample_fixed {t : Nat} {levels fb tp : List Bool} {s : State} {s' : State} (h : execSafetyInputSample t levels fb tp s = .next s') : s'.fixed = s.fixed := by
  unfold execSafetyInputSample at h
  cases h
  repeat' first
    | with_reducible rfl
    | with_reducible apply fixed_ite
    | with_reducible refine (foldl_fixed (fun _ _ => ?_) _ _).trans ?_
    | (simp only [↓State.stepInput_fixed, ↓State.endPulse_fixed, ↓State.at__fixed, ↓State.stepTests_fixed, ↓State.stepFeedback_fixed, ↓State.evalOuts_fixed, fixed_mk]; done)
    | split
    | simp only [↓State.stepInput_fixed, ↓State.endPulse_fixed, ↓State.at__fixed, ↓State.stepTests_fixed, ↓State.stepFeedback_fixed, ↓State.evalOuts_fixed, fixed_mk, guarded]

theorem execTestPulseStart_fixed {t out : Nat} {s : State} {s' : State} (h : execTestPulseStart t out s = .next s') : s'.fixed = s.fixed := by
  unfold execTestPulseStart at h
  cases h
  split <;> simp only [↓State.emit_fixed, ↓State.at__fixed, fixed_mk, guarded]

theorem execDiscrepancyLatch_fixed {t i : Nat} {s : State} {s' : State} (h : execDiscrepancyLatch t i s = .next s') : s'.fixed = s.fixed := by
  unfold execDiscrepancyLatch at h
  cases h
  repeat' first
    | with_reducible rfl
    | with_reducible apply fixed_ite
    | (simp only [↓State.event_fixed, ↓State.at__fixed, ↓State.latch_fixed, fixed_mk]; done)
    | split
    | simp only [↓State.event_fixed, ↓State.at__fixed, ↓State.latch_fixed, fixed_mk, guarded]

theorem execSafetyFrameReceive_fixed {t : Nat} {bytes : List Byte} {s : State} {s' : State} (h : execSafetyFrameReceive t bytes s = .next s') : s'.fixed = s.fixed := by
  unfold execSafetyFrameReceive at h
  cases h
  repeat' first
    | with_reducible rfl
    | with_reducible apply fixed_ite
    | (simp only [↓State.validFrame_fixed, ↓State.accept_fixed, ↓State.at__fixed, ↓State.countFrameError_fixed, ↓State.connError_fixed, fixed_mk]; done)
    | split
    | simp only [↓State.validFrame_fixed, ↓State.accept_fixed, ↓State.at__fixed, ↓State.countFrameError_fixed, ↓State.connError_fixed, fixed_mk, guarded]

theorem execSafetyMboxService_fixed {t : Nat} {bytes : List Byte} {s : State} {s' : State} (h : execSafetyMboxService t bytes s = .next s') : s'.fixed = s.fixed := by
  unfold execSafetyMboxService at h
  cases h
  repeat' first
    | with_reducible rfl
    | with_reducible apply fixed_ite
    | (simp only [↓State.emit_fixed, ↓State.formSafety_fixed, ↓State.at__fixed, ↓State.hostFrame_fixed, fixed_mk]; done)
    | split
    | simp only [↓State.emit_fixed, ↓State.formSafety_fixed, ↓State.at__fixed, ↓State.hostFrame_fixed, fixed_mk, guarded]

theorem execHostWatchdogExpire_fixed {t : Nat} {s : State} {s' : State} (h : execHostWatchdogExpire t s = .next s') : s'.fixed = s.fixed := by
  unfold execHostWatchdogExpire at h
  cases h
  split <;> simp only [↓State.event_fixed, ↓State.at__fixed, ↓State.evalOuts_fixed, fixed_mk, guarded]

theorem execWatchdogExpire_fixed {t p : Nat} {s : State} {s' : State} (h : execWatchdogExpire t p s = .next s') : s'.fixed = s.fixed := by
  unfold execWatchdogExpire at h
  cases h
  repeat' first
    | with_reducible rfl
    | with_reducible apply fixed_ite
    | (simp only [↓State.event_fixed, ↓State.at__fixed, ↓State.modWatch_fixed, ↓State.latch_fixed, ↓State.evalOuts_fixed, fixed_mk]; done)
    | split
    | simp only [↓State.event_fixed, ↓State.at__fixed, ↓State.modWatch_fixed, ↓State.latch_fixed, ↓State.evalOuts_fixed, fixed_mk, guarded]

theorem execOutputOvercurrent_fixed {t k : Nat} {s : State} {s' : State} (h : execOutputOvercurrent t k s = .next s') : s'.fixed = s.fixed := by
  unfold execOutputOvercurrent at h
  cases h
  repeat' first
    | with_reducible rfl
    | with_reducible apply fixed_ite
    | (simp only [↓State.event_fixed, ↓State.at__fixed, ↓State.setOut_fixed, ↓State.latch_fixed, fixed_mk]; done)
    | split
    | simp only [↓State.event_fixed, ↓State.at__fixed, ↓State.setOut_fixed, ↓State.latch_fixed, fixed_mk, guarded]

theorem execOutputOpenLoad_fixed {t k : Nat} {s : State} {s' : State} (h : execOutputOpenLoad t k s = .next s') : s'.fixed = s.fixed := by
  unfold execOutputOpenLoad at h
  cases h
  repeat' first
    | with_reducible rfl
    | with_reducible apply fixed_ite
    | (simp only [↓State.event_fixed, ↓State.at__fixed, fixed_mk]; done)
    | split
    | simp only [↓State.event_fixed, ↓State.at__fixed, fixed_mk, guarded]

theorem execOutputEconomyStart_fixed {t k : Nat} {vaux : Rat} {s : State} {s' : State} (h : execOutputEconomyStart t k vaux s = .next s') : s'.fixed = s.fixed := by
  unfold execOutputEconomyStart at h
  cases h
  repeat' first
    | with_reducible rfl
    | with_reducible apply fixed_ite
    | (simp only [↓State.at__fixed, fixed_mk]; done)
    | split
    | simp only [↓State.at__fixed, fixed_mk, guarded]

theorem execFeedbackTimeout_fixed {t k : Nat} {s : State} {s' : State} (h : execFeedbackTimeout t k s = .next s') : s'.fixed = s.fixed := by
  unfold execFeedbackTimeout at h
  cases h
  repeat' first
    | with_reducible rfl
    | with_reducible apply fixed_ite
    | (simp only [↓State.event_fixed, ↓State.at__fixed, ↓State.latch_fixed, fixed_mk]; done)
    | split
    | simp only [↓State.event_fixed, ↓State.at__fixed, ↓State.latch_fixed, fixed_mk, guarded]

theorem execLorstReleaseEdge_fixed {t : Nat} {s : State} {s' : State} (h : execLorstReleaseEdge t s = .next s') : s'.fixed = s.fixed := by
  unfold execLorstReleaseEdge at h
  cases h
  repeat' first
    | with_reducible rfl
    | with_reducible apply fixed_ite
    | (simp only [↓State.event_fixed, ↓State.at__fixed, ↓State.releaseLockout_fixed, fixed_mk]; done)
    | split
    | simp only [↓State.event_fixed, ↓State.at__fixed, ↓State.releaseLockout_fixed, fixed_mk, guarded]

theorem execLorstHeld_fixed {t : Nat} {s : State} {s' : State} (h : execLorstHeld t s = .next s') : s'.fixed = s.fixed := by
  unfold execLorstHeld at h
  cases h
  repeat' first
    | with_reducible rfl
    | with_reducible apply fixed_ite
    | (simp only [↓State.event_fixed, ↓State.at__fixed, fixed_mk]; done)
    | split
    | simp only [↓State.event_fixed, ↓State.at__fixed, fixed_mk, guarded]

theorem execFaultNoticeFrameReceive_fixed {t : Nat} {bytes : List Byte} {s : State} {s' : State} (h : execFaultNoticeFrameReceive t bytes s = .next s') : s'.fixed = s.fixed := by
  unfold execFaultNoticeFrameReceive at h
  cases h
  repeat' first
    | with_reducible rfl
    | with_reducible apply fixed_ite
    | with_reducible refine (foldl_fixed (fun _ _ => ?_) _ _).trans ?_
    | (simp only [↓State.accept_fixed, ↓State.at__fixed, ↓State.faultTrigger_fixed, ↓State.checkRejected_fixed, fixed_mk]; done)
    | split
    | simp only [↓State.accept_fixed, ↓State.at__fixed, ↓State.faultTrigger_fixed, ↓State.checkRejected_fixed, fixed_mk, guarded]

theorem execGatewayHeartbeatReceive_fixed {t : Nat} {bytes : List Byte} {s : State} {s' : State} (h : execGatewayHeartbeatReceive t bytes s = .next s') : s'.fixed = s.fixed := by
  unfold execGatewayHeartbeatReceive at h
  cases h
  repeat' first
    | with_reducible rfl
    | with_reducible apply fixed_ite
    | (simp only [↓State.accept_fixed, ↓State.at__fixed, ↓State.countFrameError_fixed, fixed_mk]; done)
    | split
    | simp only [↓State.accept_fixed, ↓State.at__fixed, ↓State.countFrameError_fixed, fixed_mk, guarded]

theorem execGwOkTimeout_fixed {t : Nat} {s : State} {s' : State} (h : execGwOkTimeout t s = .next s') : s'.fixed = s.fixed := by
  unfold execGwOkTimeout at h
  cases h
  split <;> simp only [↓State.at__fixed, fixed_mk, guarded]

theorem execEnumStartReceive_fixed {t : Nat} {bytes : List Byte} {s : State} {s' : State} (h : execEnumStartReceive t bytes s = .next s') : s'.fixed = s.fixed := by
  unfold execEnumStartReceive at h
  cases h
  split <;> simp only [↓State.cancelPend_fixed, ↓State.accept_fixed, ↓State.at__fixed, ↓State.dropPlace_fixed, fixed_mk, guarded]

theorem execDiscoverSend_fixed {t : Nat} {s : State} {s' : State} (h : execDiscoverSend t s = .next s') : s'.fixed = s.fixed := by
  unfold execDiscoverSend at h
  cases h
  repeat' first
    | with_reducible rfl
    | with_reducible apply fixed_ite
    | (simp only [↓State.emit_fixed, ↓State.at__fixed, fixed_mk]; done)
    | split
    | simp only [↓State.emit_fixed, ↓State.at__fixed, fixed_mk, guarded]

theorem execDiscoverReceive_fixed {t : Nat} {side : Side} {bytes : List Byte} {s : State} {s' : State} (h : execDiscoverReceive t side bytes s = .next s') : s'.fixed = s.fixed := by
  unfold execDiscoverReceive at h
  cases h
  repeat' first
    | with_reducible rfl
    | with_reducible apply fixed_ite
    | (simp only [↓State.emit_fixed, ↓State.event_fixed, ↓State.cancelPend_fixed, ↓State.at__fixed, ↓State.dropPlace_fixed, ↓State.startTraining_fixed, ↓State.drawBits_fixed, ↓State.modPort_fixed, fixed_mk]; done)
    | split
    | simp only [↓State.emit_fixed, ↓State.event_fixed, ↓State.cancelPend_fixed, ↓State.at__fixed, ↓State.dropPlace_fixed, ↓State.startTraining_fixed, ↓State.drawBits_fixed, ↓State.modPort_fixed, fixed_mk, guarded]

theorem execEnumWaitExpire_fixed {t : Nat} {answers : List (List Byte)} {s : State} {s' : State} (h : execEnumWaitExpire t answers s = .next s') : s'.fixed = s.fixed := by
  unfold execEnumWaitExpire at h
  cases h
  repeat' first
    | with_reducible rfl
    | with_reducible apply fixed_ite
    | (simp only [↓State.endEnumeration_fixed, ↓State.at__fixed, ↓State.enqueue_fixed, ↓State.freshHop_fixed, fixed_mk]; done)
    | split
    | simp only [↓State.endEnumeration_fixed, ↓State.at__fixed, ↓State.enqueue_fixed, ↓State.freshHop_fixed, fixed_mk, guarded]

theorem execEnumFrameReceive_fixed {t : Nat} {bytes : List Byte} {s : State} {s' : State} (h : execEnumFrameReceive t bytes s = .next s') : s'.fixed = s.fixed := by
  unfold execEnumFrameReceive at h
  cases h
  repeat' first
    | with_reducible rfl
    | with_reducible apply fixed_ite
    | (simp only [↓State.becomeFrontier_fixed, ↓State.originate_fixed, ↓State.finishEnumeration_fixed, ↓State.accept_fixed, ↓State.at__fixed, ↓State.holderAnew_fixed, ↓State.flushUnrouted_fixed, fixed_mk]; done)
    | split
    | simp only [↓State.becomeFrontier_fixed, ↓State.originate_fixed, ↓State.finishEnumeration_fixed, ↓State.accept_fixed, ↓State.at__fixed, ↓State.holderAnew_fixed, ↓State.flushUnrouted_fixed, fixed_mk, guarded]

theorem execFrameForward_fixed {t : Nat} {side : Side} {bytes : List Byte} {s : State} {s' : State} (h : execFrameForward t side bytes s = .next s') : s'.fixed = s.fixed := by
  unfold execFrameForward at h
  cases h
  repeat' first
    | with_reducible rfl
    | with_reducible apply fixed_ite
    | (simp only [↓State.egress_fixed, ↓State.at__fixed, ↓State.enqueue_fixed, ↓State.countNoRoute_fixed, ↓State.noteForward_fixed, fixed_mk]; done)
    | split
    | simp only [↓State.egress_fixed, ↓State.at__fixed, ↓State.enqueue_fixed, ↓State.countNoRoute_fixed, ↓State.noteForward_fixed, fixed_mk, guarded]

theorem execMseqGapRelease_fixed {t origin tc flow : Nat} {s : State} {s' : State} (h : execMseqGapRelease t origin tc flow s = .next s') : s'.fixed = s.fixed := by
  unfold execMseqGapRelease at h
  cases h
  repeat' first
    | with_reducible rfl
    | with_reducible apply fixed_ite
    | with_reducible refine (foldl_fixed (fun _ _ => ?_) _ _).trans ?_
    | (simp only [↓State.at__fixed, fixed_mk]; done)
    | split
    | simp only [↓State.at__fixed, fixed_mk, guarded]

theorem execLinkStateNoticeReceive_fixed {t : Nat} {bytes : List Byte} {s : State} {s' : State} (h : execLinkStateNoticeReceive t bytes s = .next s') : s'.fixed = s.fixed := by
  unfold execLinkStateNoticeReceive at h
  cases h
  split <;> simp only [↓State.noteHolder_fixed, ↓State.accept_fixed, ↓State.at__fixed, fixed_mk, guarded]

theorem execCodewordBoundary_fixed {t : Nat} {side : Side} {s : State} {s' : State} (h : execCodewordBoundary t side s = .next s') : s'.fixed = s.fixed := by
  unfold execCodewordBoundary at h
  cases h
  repeat' first
    | with_reducible rfl
    | with_reducible apply fixed_ite
    | (simp only [↓State.emit_fixed, ↓State.event_fixed, ↓State.at__fixed, ↓State.startTraining_fixed, ↓State.modPort_fixed, fixed_mk]; done)
    | split
    | simp only [↓State.emit_fixed, ↓State.event_fixed, ↓State.at__fixed, ↓State.startTraining_fixed, ↓State.modPort_fixed, fixed_mk, guarded]

theorem execCodewordReceive_fixed {t : Nat} {side : Side} {bytes : List Byte} {s : State} {s' : State} (h : execCodewordReceive t side bytes s = .next s') : s'.fixed = s.fixed := by
  unfold execCodewordReceive at h
  cases h
  repeat' first
    | with_reducible rfl
    | with_reducible apply fixed_ite
    | (simp only [↓State.at__fixed, ↓State.takeFrame_fixed, ↓State.modPort_fixed, fixed_mk]; done)
    | split
    | simp only [↓State.at__fixed, ↓State.takeFrame_fixed, ↓State.modPort_fixed, fixed_mk, guarded]

theorem execControlCodewordReceive_fixed {t : Nat} {side : Side} {bytes : List Byte} {s : State} {s' : State} (h : execControlCodewordReceive t side bytes s = .next s') : s'.fixed = s.fixed := by
  unfold execControlCodewordReceive at h
  cases h
  repeat' first
    | with_reducible rfl
    | with_reducible apply fixed_ite
    | (simp only [↓State.at__fixed, ↓State.startTraining_fixed, ↓State.exchange_fixed, ↓State.modPort_fixed, ↓State.hopDown_fixed, ↓State.tagFailure_fixed, fixed_mk]; done)
    | split
    | simp only [↓State.at__fixed, ↓State.startTraining_fixed, ↓State.exchange_fixed, ↓State.modPort_fixed, ↓State.hopDown_fixed, ↓State.tagFailure_fixed, fixed_mk, guarded]

theorem execTc0AckTimeout_fixed {t : Nat} {side : Side} {s : State} {s' : State} (h : execTc0AckTimeout t side s = .next s') : s'.fixed = s.fixed := by
  unfold execTc0AckTimeout at h
  cases h
  repeat' first
    | with_reducible rfl
    | with_reducible apply fixed_ite
    | (simp only [↓State.at__fixed, ↓State.modPort_fixed, ↓State.hopDown_fixed, fixed_mk]; done)
    | split
    | simp only [↓State.at__fixed, ↓State.modPort_fixed, ↓State.hopDown_fixed, fixed_mk, guarded]

theorem execFrameRetryTimeout_fixed {t : Nat} {side : Side} {tc : Nat} {s : State} {s' : State} (h : execFrameRetryTimeout t side tc s = .next s') : s'.fixed = s.fixed := by
  unfold execFrameRetryTimeout at h
  cases h
  repeat' first
    | with_reducible rfl
    | with_reducible apply fixed_ite
    | (simp only [↓State.at__fixed, ↓State.modPort_fixed, ↓State.hopDown_fixed, fixed_mk]; done)
    | split
    | simp only [↓State.at__fixed, ↓State.modPort_fixed, ↓State.hopDown_fixed, fixed_mk, guarded]

theorem execHopSilenceTimeout_fixed {t : Nat} {side : Side} {s : State} {s' : State} (h : execHopSilenceTimeout t side s = .next s') : s'.fixed = s.fixed := by
  unfold execHopSilenceTimeout at h
  cases h
  split <;> simp only [↓State.at__fixed, ↓State.hopDown_fixed, fixed_mk, guarded]

theorem execHopMarginTimeout_fixed {t : Nat} {side : Side} {s : State} {s' : State} (h : execHopMarginTimeout t side s = .next s') : s'.fixed = s.fixed := by
  unfold execHopMarginTimeout at h
  cases h
  repeat' first
    | with_reducible rfl
    | with_reducible apply fixed_ite
    | (simp only [↓State.at__fixed, ↓State.hopDown_fixed, fixed_mk]; done)
    | split
    | simp only [↓State.at__fixed, ↓State.hopDown_fixed, fixed_mk, guarded]

theorem execHopTrainingRetry_fixed {t : Nat} {side : Side} {s : State} {s' : State} (h : execHopTrainingRetry t side s = .next s') : s'.fixed = s.fixed := by
  unfold execHopTrainingRetry at h
  cases h
  split <;> simp only [↓State.at__fixed, ↓State.startTraining_fixed, fixed_mk, guarded]

theorem execHopTrainingComplete_fixed {t : Nat} {side : Side} {margin : Int} {peerQpsk : Bool} {s : State} {s' : State} (h : execHopTrainingComplete t side margin peerQpsk s = .next s') : s'.fixed = s.fixed := by
  unfold execHopTrainingComplete at h
  cases h
  repeat' first
    | with_reducible rfl
    | with_reducible apply fixed_ite
    | (simp only [↓State.closeRing_fixed, ↓State.at__fixed, ↓State.startKeying_fixed, ↓State.modPort_fixed, ↓State.hopUp_fixed, fixed_mk]; done)
    | split
    | simp only [↓State.closeRing_fixed, ↓State.at__fixed, ↓State.startKeying_fixed, ↓State.modPort_fixed, ↓State.hopUp_fixed, fixed_mk, guarded]

theorem execHopRouteRestore_fixed {t : Nat} {side : Side} {s : State} {s' : State} (h : execHopRouteRestore t side s = .next s') : s'.fixed = s.fixed := by
  unfold execHopRouteRestore at h
  cases h
  split <;> simp only [↓State.routeChange_fixed, ↓State.at__fixed, ↓State.modPort_fixed, fixed_mk, guarded]

theorem execApcAdjust_fixed {t : Nat} {side : Side} {margin : Margins} {s : State} {s' : State} (h : execApcAdjust t side margin s = .next s') : s'.fixed = s.fixed := by
  unfold execApcAdjust at h
  cases h
  split <;> simp only [↓State.at__fixed, ↓State.modPort_fixed, fixed_mk, guarded]

theorem execHopKeyingMessage_fixed {t : Nat} {side : Side} {bytes : List Byte} {s : State} {s' : State} (h : execHopKeyingMessage t side bytes s = .next s') : s'.fixed = s.fixed := by
  unfold execHopKeyingMessage at h
  cases h
  repeat' first
    | with_reducible rfl
    | with_reducible apply fixed_ite
    | (simp only [↓State.takeSignature_fixed, ↓State.closeRing_fixed, ↓State.at__fixed, ↓State.takeOffer_fixed, fixed_mk]; done)
    | split
    | simp only [↓State.takeSignature_fixed, ↓State.closeRing_fixed, ↓State.at__fixed, ↓State.takeOffer_fixed, fixed_mk, guarded]

theorem execHopRekey_fixed {t : Nat} {side : Side} {s : State} {s' : State} (h : execHopRekey t side s = .next s') : s'.fixed = s.fixed := by
  unfold execHopRekey at h
  cases h
  split <;> simp only [↓State.at__fixed, ↓State.startKeying_fixed, fixed_mk, guarded]

theorem execTimeBeaconSend_fixed {t : Nat} {s : State} {s' : State} (h : execTimeBeaconSend t s = .next s') : s'.fixed = s.fixed := by
  unfold execTimeBeaconSend at h
  cases h
  repeat' first
    | with_reducible rfl
    | with_reducible apply fixed_ite
    | (simp only [↓State.at__fixed, ↓State.enqueue_fixed, fixed_mk]; done)
    | split
    | simp only [↓State.at__fixed, ↓State.enqueue_fixed, fixed_mk, guarded]

theorem execTimeBeaconReceive_fixed {t : Nat} {side : Side} {bytes : List Byte} {s : State} {s' : State} (h : execTimeBeaconReceive t side bytes s = .next s') : s'.fixed = s.fixed := by
  unfold execTimeBeaconReceive at h
  cases h
  repeat' first
    | with_reducible rfl
    | with_reducible apply fixed_ite
    | (simp only [↓State.queueBeacon_fixed, ↓State.accept_fixed, ↓State.at__fixed, ↓State.servo_fixed, ↓State.noteForward_fixed, fixed_mk]; done)
    | split
    | simp only [↓State.queueBeacon_fixed, ↓State.accept_fixed, ↓State.at__fixed, ↓State.servo_fixed, ↓State.noteForward_fixed, fixed_mk, guarded]

theorem execTqHoldover_fixed {t : Nat} {s : State} {s' : State} (h : execTqHoldover t s = .next s') : s'.fixed = s.fixed := by
  unfold execTqHoldover at h
  cases h
  repeat' first
    | with_reducible rfl
    | with_reducible apply fixed_ite
    | (simp only [↓State.at__fixed, fixed_mk]; done)
    | split
    | simp only [↓State.at__fixed, fixed_mk, guarded]

theorem execPackTimeCommit_fixed {t : Nat} {s : State} {s' : State} (h : execPackTimeCommit t s = .next s') : s'.fixed = s.fixed := by
  unfold execPackTimeCommit at h
  cases h
  split <;> simp only [↓State.commitPackTime_fixed, ↓State.at__fixed, fixed_mk, guarded]

theorem execHeartbeatSend_fixed {t : Nat} {s : State} {s' : State} (h : execHeartbeatSend t s = .next s') : s'.fixed = s.fixed := by
  unfold execHeartbeatSend at h
  cases h
  split <;> simp only [↓State.formSafety_fixed, ↓State.originate_fixed, ↓State.at__fixed, fixed_mk, guarded]

theorem execInnerTimeWord_fixed {t k delay : Nat} {s : State} {s' : State} (h : execInnerTimeWord t k delay s = .next s') : s'.fixed = s.fixed := by
  unfold execInnerTimeWord at h
  cases h
  refine onDie_fixed (fun _ => ?_) ?_
  · split <;> simp only [↓State.emit_fixed, ↓State.at__fixed, ↓State.modDie_fixed, fixed_mk, guarded]
  · simp only [↓State.emit_fixed, ↓State.at__fixed, ↓State.modDie_fixed, fixed_mk, guarded]

theorem execInnerTimeWordTimeout_fixed {t k : Nat} {s : State} {s' : State} (h : execInnerTimeWordTimeout t k s = .next s') : s'.fixed = s.fixed := by
  unfold execInnerTimeWordTimeout at h
  cases h
  refine onDie_fixed (fun _ => ?_) ?_
  · split <;> simp only [↓State.at__fixed, ↓State.modDie_fixed, fixed_mk, guarded]
  · simp only [↓State.at__fixed, ↓State.modDie_fixed, fixed_mk, guarded]

theorem execIdentify_fixed {t : Nat} {c : Cmd} {s : State} {s' : State} (h : execIdentify t c s = .next s') : s'.fixed = s.fixed := by
  unfold execIdentify at h
  cases h
  repeat' first
    | with_reducible rfl
    | with_reducible apply fixed_ite
    | with_reducible refine State.serve_fixed (fun _ ht => ?_) ?_
    | (simp only [↓State.at__fixed, ↓State.completeData_fixed, fixed_mk, *]; done)
    | split
    | simp only [↓State.at__fixed, ↓State.completeData_fixed, fixed_mk, guarded, *]

theorem execPing_fixed {t : Nat} {c : Cmd} {s : State} {s' : State} (h : execPing t c s = .next s') : s'.fixed = s.fixed := by
  unfold execPing at h
  cases h
  repeat' first
    | with_reducible rfl
    | with_reducible apply fixed_ite
    | with_reducible refine State.serve_fixed (fun _ ht => ?_) ?_
    | (simp only [↓State.at__fixed, ↓State.complete_fixed, fixed_mk, *]; done)
    | split
    | simp only [↓State.at__fixed, ↓State.complete_fixed, fixed_mk, guarded, *]

theorem execStreamOpen_fixed {t : Nat} {c : Cmd} {s : State} {s' : State} (h : execStreamOpen t c s = .next s') : s'.fixed = s.fixed := by
  unfold execStreamOpen at h
  cases h
  repeat' first
    | with_reducible rfl
    | with_reducible apply fixed_ite
    | with_reducible refine State.serve_fixed (fun _ ht => ?_) ?_
    | (simp only [↓State.openSub_fixed, ↓State.at__fixed, ↓State.complete_fixed, fixed_mk, *]; done)
    | split
    | simp only [↓State.openSub_fixed, ↓State.at__fixed, ↓State.complete_fixed, fixed_mk, guarded, *]

theorem execStreamClose_fixed {t : Nat} {c : Cmd} {s : State} {s' : State} (h : execStreamClose t c s = .next s') : s'.fixed = s.fixed := by
  unfold execStreamClose at h
  cases h
  repeat' first
    | with_reducible rfl
    | with_reducible apply fixed_ite
    | with_reducible refine State.serve_fixed (fun _ ht => ?_) ?_
    | (simp only [↓State.endSub_fixed, ↓State.modHif_fixed, ↓State.at__fixed, ↓State.endClosed_fixed, ↓State.complete_fixed, fixed_mk, *]; done)
    | split
    | simp only [↓State.endSub_fixed, ↓State.modHif_fixed, ↓State.at__fixed, ↓State.endClosed_fixed, ↓State.complete_fixed, fixed_mk, guarded, *]

theorem execRecordRead_fixed {t : Nat} {c : Cmd} {s : State} {s' : State} (h : execRecordRead t c s = .next s') : s'.fixed = s.fixed := by
  unfold execRecordRead at h
  cases h
  repeat' first
    | with_reducible rfl
    | with_reducible apply fixed_ite
    | with_reducible refine State.serve_fixed (fun _ ht => ?_) ?_
    | (simp only [↓State.at__fixed, ↓State.completeData_fixed, ↓State.complete_fixed, fixed_mk, *]; done)
    | split
    | simp only [↓State.at__fixed, ↓State.completeData_fixed, ↓State.complete_fixed, fixed_mk, guarded, *]

theorem execStoreRead_fixed {t : Nat} {c : Cmd} {lost : List Nat} {s : State} {s' : State} (h : execStoreRead t c lost s = .next s') : s'.fixed = s.fixed := by
  unfold execStoreRead at h
  cases h
  repeat' first
    | with_reducible rfl
    | with_reducible apply fixed_ite
    | with_reducible refine (foldl_fixed (fun _ _ => ?_) _ _).trans ?_
    | with_reducible refine State.serve_fixed (fun _ ht => ?_) ?_
    | (simp only [↓State.originate_fixed, ↓State.at__fixed, ↓State.finishRead_fixed, ↓State.complete_fixed, fixed_mk, *]; done)
    | split
    | simp only [↓State.originate_fixed, ↓State.at__fixed, ↓State.finishRead_fixed, ↓State.complete_fixed, fixed_mk, guarded, *]

theorem execCaptureArm_fixed {t : Nat} {c : Cmd} {s : State} {s' : State} (h : execCaptureArm t c s = .next s') : s'.fixed = s.fixed := by
  unfold execCaptureArm at h
  cases h
  repeat' first
    | with_reducible rfl
    | with_reducible apply fixed_ite
    | with_reducible refine State.serve_fixed (fun _ ht => ?_) ?_
    | (simp only [↓State.armCapture_fixed, ↓State.at__fixed, ↓State.complete_fixed, fixed_mk, *]; done)
    | split
    | simp only [↓State.armCapture_fixed, ↓State.at__fixed, ↓State.complete_fixed, fixed_mk, guarded, *]

theorem execCaptureDisarm_fixed {t : Nat} {c : Cmd} {s : State} {s' : State} (h : execCaptureDisarm t c s = .next s') : s'.fixed = s.fixed := by
  unfold execCaptureDisarm at h
  cases h
  repeat' first
    | with_reducible rfl
    | with_reducible apply fixed_ite
    | with_reducible refine State.serve_fixed (fun _ ht => ?_) ?_
    | (simp only [↓State.at__fixed, ↓State.complete_fixed, ↓State.abortCapture_fixed, fixed_mk, *]; done)
    | split
    | simp only [↓State.at__fixed, ↓State.complete_fixed, ↓State.abortCapture_fixed, fixed_mk, guarded, *]

theorem execCaptureFetch_fixed {t : Nat} {c : Cmd} {lost : List Nat} {s : State} {s' : State} (h : execCaptureFetch t c lost s = .next s') : s'.fixed = s.fixed := by
  unfold execCaptureFetch at h
  cases h
  repeat' first
    | with_reducible rfl
    | with_reducible apply fixed_ite
    | with_reducible refine (foldl_fixed (fun _ _ => ?_) _ _).trans ?_
    | with_reducible refine State.serve_fixed (fun _ ht => ?_) ?_
    | (simp only [↓State.releaseD3_fixed, ↓State.at__fixed, ↓State.completeData_fixed, ↓State.complete_fixed, fixed_mk, *]; done)
    | split
    | simp only [↓State.releaseD3_fixed, ↓State.at__fixed, ↓State.completeData_fixed, ↓State.complete_fixed, fixed_mk, guarded, *]

theorem execPowerStateRun_fixed {t : Nat} {c : Cmd} {s : State} {s' : State} (h : execPowerStateRun t c s = .next s') : s'.fixed = s.fixed := by
  unfold execPowerStateRun at h
  cases h
  repeat' first
    | with_reducible rfl
    | with_reducible apply fixed_ite
    | with_reducible refine State.serve_fixed (fun _ ht => ?_) ?_
    | (simp only [↓State.at__fixed, ↓State.modPower_fixed, ↓State.complete_fixed, fixed_mk, *]; done)
    | split
    | simp only [↓State.at__fixed, ↓State.modPower_fixed, ↓State.complete_fixed, fixed_mk, guarded, *]

theorem execPowerStateDoze_fixed {t : Nat} {c : Cmd} {s : State} {s' : State} (h : execPowerStateDoze t c s = .next s') : s'.fixed = s.fixed := by
  unfold execPowerStateDoze at h
  cases h
  repeat' first
    | with_reducible rfl
    | with_reducible apply fixed_ite
    | with_reducible refine State.serve_fixed (fun _ ht => ?_) ?_
    | (simp only [↓State.at__fixed, ↓State.modPower_fixed, ↓State.complete_fixed, fixed_mk, *]; done)
    | split
    | simp only [↓State.at__fixed, ↓State.modPower_fixed, ↓State.complete_fixed, fixed_mk, guarded, *]

end Sys2Proof.Machine
end

