-- ==== Sys2Proof/Laws/FixedCommands2.lean ====
section
/-! SUPPORT. Commands leave the guarded part of the state alone. -/

namespace Sys2Proof.Machine

set_option linter.all false
set_option maxRecDepth 4000

theorem execPowerStateSleep_fixed {t : Nat} {c : Cmd} {s : State} {s' : State} (h : execPowerStateSleep t c s = .next s') : s'.fixed = s.fixed := by
  unfold execPowerStateSleep at h
  cases h
  repeat' first
    | with_reducible rfl
    | with_reducible apply fixed_ite
    | with_reducible refine State.serve_fixed (fun _ ht => ?_) ?_
    | (simp only [↓State.askLow_fixed, ↓State.at__fixed, ↓State.modPower_fixed, ↓State.doze_fixed, ↓State.complete_fixed, State.modTrust, fixed_mk, *]; done)
    | split
    | simp only [↓State.askLow_fixed, ↓State.at__fixed, ↓State.modPower_fixed, ↓State.doze_fixed, ↓State.complete_fixed, State.modTrust, fixed_mk, guarded, *]

theorem execPowerStateShip_fixed {t : Nat} {c : Cmd} {s : State} {s' : State} (h : execPowerStateShip t c s = .next s') : s'.fixed = s.fixed := by
  unfold execPowerStateShip at h
  cases h
  repeat' first
    | with_reducible rfl
    | with_reducible apply fixed_ite
    | with_reducible refine State.serve_fixed (fun _ ht => ?_) ?_
    | (simp only [↓State.askLow_fixed, ↓State.at__fixed, ↓State.complete_fixed, fixed_mk, *]; done)
    | split
    | simp only [↓State.askLow_fixed, ↓State.at__fixed, ↓State.complete_fixed, fixed_mk, guarded, *]

theorem execSensorSearch_fixed {t : Nat} {c : Cmd} {s : State} {s' : State} (h : execSensorSearch t c s = .next s') : s'.fixed = s.fixed := by
  unfold execSensorSearch at h
  cases h
  repeat' first
    | with_reducible rfl
    | with_reducible apply fixed_ite
    | with_reducible refine State.onSwp_fixed (fun _ => ?_) ?_
    | with_reducible refine State.serve_fixed (fun _ ht => ?_) ?_
    | (simp only [↓State.modSwp_fixed, ↓State.at__fixed, ↓State.startSearch_fixed, ↓State.complete_fixed, fixed_mk, *]; done)
    | split
    | simp only [↓State.modSwp_fixed, ↓State.at__fixed, ↓State.startSearch_fixed, ↓State.complete_fixed, fixed_mk, guarded, *]

theorem execLockoutRelease_fixed {t : Nat} {c : Cmd} {s : State} {s' : State} (h : execLockoutRelease t c s = .next s') : s'.fixed = s.fixed := by
  unfold execLockoutRelease at h
  cases h
  repeat' first
    | with_reducible rfl
    | with_reducible apply fixed_ite
    | with_reducible refine State.serve_fixed (fun _ ht => ?_) ?_
    | (simp only [↓State.event_fixed, ↓State.at__fixed, ↓State.releaseLockout_fixed, ↓State.complete_fixed, fixed_mk, *]; done)
    | split
    | simp only [↓State.event_fixed, ↓State.at__fixed, ↓State.releaseLockout_fixed, ↓State.complete_fixed, fixed_mk, guarded, *]

theorem execConfigRead_fixed {t : Nat} {c : Cmd} {s : State} {s' : State} (h : execConfigRead t c s = .next s') : s'.fixed = s.fixed := by
  unfold execConfigRead at h
  cases h
  repeat' first
    | with_reducible rfl
    | with_reducible apply fixed_ite
    | with_reducible refine State.serve_fixed (fun _ ht => ?_) ?_
    | (simp only [↓State.at__fixed, ↓State.readConfig_fixed, fixed_mk, *]; done)
    | split
    | simp only [↓State.at__fixed, ↓State.readConfig_fixed, fixed_mk, guarded, *]

theorem execShadowWrite_fixed {t : Nat} {c : Cmd} {data : List Byte} {s : State} {s' : State} (h : execShadowWrite t c data s = .next s') : s'.fixed = s.fixed := by
  unfold execShadowWrite at h
  cases h
  repeat' first
    | with_reducible rfl
    | with_reducible apply fixed_ite
    | with_reducible refine State.serve_fixed (fun _ ht => ?_) ?_
    | (simp only [State.modCfg, ↓State.putShadow_fixed, ↓State.at__fixed, ↓State.complete_fixed, fixed_mk, *]; done)
    | split
    | simp only [State.modCfg, ↓State.putShadow_fixed, ↓State.at__fixed, ↓State.complete_fixed, fixed_mk, guarded, *]

theorem execCommit_fixed {t : Nat} {c : Cmd} {s : State} {s' : State} (h : execCommit t c s = .next s') : s'.fixed = s.fixed := by
  unfold execCommit at h
  cases h
  repeat' first
    | with_reducible rfl
    | with_reducible apply fixed_ite
    | with_reducible refine State.serve_fixed (fun _ ht => ?_) ?_
    | (simp only [↓State.takeCommit_fixed, ↓State.at__fixed, ↓State.complete_fixed, fixed_mk, *]; done)
    | split
    | simp only [↓State.takeCommit_fixed, ↓State.at__fixed, ↓State.complete_fixed, fixed_mk, guarded, *]

theorem execCommitCheck_fixed {t : Nat} {s : State} {s' : State} (h : execCommitCheck t s = .next s') : s'.fixed = s.fixed := by
  unfold execCommitCheck at h
  cases h
  repeat' first
    | with_reducible rfl
    | with_reducible apply fixed_ite
    | (simp only [State.modCfg, ↓State.at__fixed, ↓State.sayPrepared_fixed, ↓State.evalOuts_fixed, ↓State.complete_fixed, fixed_mk]; done)
    | split
    | simp only [State.modCfg, ↓State.at__fixed, ↓State.sayPrepared_fixed, ↓State.evalOuts_fixed, ↓State.complete_fixed, fixed_mk, guarded]

theorem execCommitRevert_fixed {t : Nat} {c : Cmd} {s : State} {s' : State} (h : execCommitRevert t c s = .next s') : s'.fixed = s.fixed := by
  unfold execCommitRevert at h
  cases h
  repeat' first
    | with_reducible rfl
    | with_reducible apply fixed_ite
    | with_reducible refine State.serve_fixed (fun _ ht => ?_) ?_
    | (simp only [State.modCfg, ↓State.at__fixed, ↓State.complete_fixed, fixed_mk, *]; done)
    | split
    | simp only [State.modCfg, ↓State.at__fixed, ↓State.complete_fixed, fixed_mk, guarded, *]

theorem execCommitCancel_fixed {t : Nat} {c : Cmd} {s : State} {s' : State} (h : execCommitCancel t c s = .next s') : s'.fixed = s.fixed := by
  unfold execCommitCancel at h
  cases h
  repeat' first
    | with_reducible rfl
    | with_reducible apply fixed_ite
    | with_reducible refine State.serve_fixed (fun _ ht => ?_) ?_
    | (simp only [↓State.cancelPend_fixed, ↓State.at__fixed, ↓State.complete_fixed, fixed_mk, *]; done)
    | split
    | simp only [↓State.cancelPend_fixed, ↓State.at__fixed, ↓State.complete_fixed, fixed_mk, guarded, *]

theorem execShadowCopyComplete_fixed {t : Nat} {s : State} {s' : State} (h : execShadowCopyComplete t s = .next s') : s'.fixed = s.fixed := by
  unfold execShadowCopyComplete at h
  cases h
  repeat' first
    | with_reducible rfl
    | with_reducible apply fixed_ite
    | with_reducible refine (foldl_fixed (fun _ _ => ?_) _ _).trans ?_
    | (simp only [State.modCfg, ↓State.putShadow_fixed, ↓State.at__fixed, fixed_mk]; done)
    | split
    | simp only [State.modCfg, ↓State.putShadow_fixed, ↓State.at__fixed, fixed_mk, guarded]

theorem execGroupCommitDecide_fixed {t : Nat} {s : State} {s' : State} (h : execGroupCommitDecide t s = .next s') : s'.fixed = s.fixed := by
  unfold execGroupCommitDecide at h
  cases h
  repeat' first
    | with_reducible rfl
    | with_reducible apply fixed_ite
    | (simp only [State.modCfg, ↓State.originate_fixed, ↓State.at__fixed, ↓State.holdGo_fixed, ↓State.endGroup_fixed, fixed_mk]; done)
    | split
    | simp only [State.modCfg, ↓State.originate_fixed, ↓State.at__fixed, ↓State.holdGo_fixed, ↓State.endGroup_fixed, fixed_mk, guarded]

theorem execGroupGoReceive_fixed {t : Nat} {s : State} {s' : State} (h : execGroupGoReceive t s = .next s') : s'.fixed = s.fixed := by
  unfold execGroupGoReceive at h
  cases h
  repeat' first
    | with_reducible rfl
    | with_reducible apply fixed_ite
    | (simp only [↓State.at__fixed, ↓State.takeGroupFrame_fixed, ↓State.holdGo_fixed, fixed_mk]; done)
    | split
    | simp only [↓State.at__fixed, ↓State.takeGroupFrame_fixed, ↓State.holdGo_fixed, fixed_mk, guarded]

theorem execGroupAbortReceive_fixed {t : Nat} {s : State} {s' : State} (h : execGroupAbortReceive t s = .next s') : s'.fixed = s.fixed := by
  unfold execGroupAbortReceive at h
  cases h
  repeat' first
    | with_reducible rfl
    | with_reducible apply fixed_ite
    | (simp only [↓State.at__fixed, ↓State.takeGroupFrame_fixed, ↓State.endGroup_fixed, fixed_mk]; done)
    | split
    | simp only [↓State.at__fixed, ↓State.takeGroupFrame_fixed, ↓State.endGroup_fixed, fixed_mk, guarded]

theorem execGroupGoDeadline_fixed {t : Nat} {s : State} {s' : State} (h : execGroupGoDeadline t s = .next s') : s'.fixed = s.fixed := by
  unfold execGroupGoDeadline at h
  cases h
  repeat' first
    | with_reducible rfl
    | with_reducible apply fixed_ite
    | (simp only [↓State.at__fixed, ↓State.endGroup_fixed, fixed_mk]; done)
    | split
    | simp only [↓State.at__fixed, ↓State.endGroup_fixed, fixed_mk, guarded]

theorem execEnumerate_fixed {t : Nat} {c : Cmd} {s : State} {s' : State} (h : execEnumerate t c s = .next s') : s'.fixed = s.fixed := by
  unfold execEnumerate at h
  cases h
  repeat' first
    | with_reducible rfl
    | with_reducible apply fixed_ite
    | with_reducible refine State.serve_fixed (fun _ ht => ?_) ?_
    | (simp only [↓State.at__fixed, ↓State.startEnumeration_fixed, ↓State.complete_fixed, fixed_mk, *]; done)
    | split
    | simp only [↓State.at__fixed, ↓State.startEnumeration_fixed, ↓State.complete_fixed, fixed_mk, guarded, *]

theorem execHifReset_fixed {t cause : Nat} {s : State} {s' : State} (h : execHifReset t cause s = .next s') : s'.fixed = s.fixed := by
  unfold execHifReset at h
  cases h
  repeat' first
    | with_reducible rfl
    | with_reducible apply fixed_ite
    | (simp only [↓State.event_fixed, ↓State.modHif_fixed, ↓State.hifClear_fixed, ↓State.at__fixed, fixed_mk]; done)
    | split
    | simp only [↓State.event_fixed, ↓State.modHif_fixed, ↓State.hifClear_fixed, ↓State.at__fixed, fixed_mk, guarded]

theorem execHifEnable_fixed {t value : Nat} {s : State} {s' : State} (h : execHifEnable t value s = .next s') : s'.fixed = s.fixed := by
  unfold execHifEnable at h
  cases h
  split <;> simp only [↓State.undoze_fixed, ↓State.at__fixed, ↓State.writeCtrl_fixed, fixed_mk, guarded]

theorem execHifShutdown_fixed {t value : Nat} {s : State} {s' : State} (h : execHifShutdown t value s = .next s') : s'.fixed = s.fixed := by
  unfold execHifShutdown at h
  cases h
  split <;> simp only [↓State.undoze_fixed, ↓State.at__fixed, ↓State.writeCtrl_fixed, fixed_mk, guarded]

theorem execQueueEnable_fixed {t off value : Nat} {s : State} {s' : State} (h : execQueueEnable t off value s = .next s') : s'.fixed = s.fixed := by
  unfold execQueueEnable at h
  cases h
  split <;> simp only [↓State.undoze_fixed, ↓State.at__fixed, ↓State.writeReg_fixed, fixed_mk, guarded]

theorem execQueueDisable_fixed {t off value : Nat} {s : State} {s' : State} (h : execQueueDisable t off value s = .next s') : s'.fixed = s.fixed := by
  unfold execQueueDisable at h
  cases h
  split <;> simp only [↓State.undoze_fixed, ↓State.at__fixed, ↓State.writeReg_fixed, fixed_mk, guarded]

theorem execRegisterWrite_fixed {t off value size : Nat} {s : State} {s' : State} (h : execRegisterWrite t off value size s = .next s') : s'.fixed = s.fixed := by
  unfold execRegisterWrite at h
  cases h
  repeat' first
    | with_reducible rfl
    | with_reducible apply fixed_ite
    | (simp only [↓State.emit_fixed, ↓State.undoze_fixed, ↓State.barAccess_fixed, ↓State.at__fixed, ↓State.writeMsix_fixed, ↓State.writeReg_fixed, fixed_mk]; done)
    | split
    | simp only [↓State.emit_fixed, ↓State.undoze_fixed, ↓State.barAccess_fixed, ↓State.at__fixed, ↓State.writeMsix_fixed, ↓State.writeReg_fixed, fixed_mk, guarded]

theorem execKick_fixed {t _value : Nat} {s : State} {s' : State} (h : execKick t _value s = .next s') : s'.fixed = s.fixed := by
  unfold execKick at h
  cases h
  split <;> simp only [↓State.undoze_fixed, ↓State.at__fixed, ↓State.kicked_fixed, fixed_mk, guarded]

theorem execDoorbellPoll_fixed {t : Nat} {s : State} {s' : State} (h : execDoorbellPoll t s = .next s') : s'.fixed = s.fixed := by
  unfold execDoorbellPoll at h
  cases h
  split <;> simp only [↓State.at__fixed, ↓State.startPoll_fixed, fixed_mk, guarded]

theorem execDoorbellReadComplete_fixed {t : Nat} {words : List Nat} {s : State} {s' : State} (h : execDoorbellReadComplete t words s = .next s') : s'.fixed = s.fixed := by
  unfold execDoorbellReadComplete at h
  cases h
  repeat' first
    | with_reducible rfl
    | with_reducible apply fixed_ite
    | with_reducible refine (foldl_fixed (fun _ _ => ?_) _ _).trans ?_
    | (simp only [↓State.takeCqHead_fixed, ↓State.modHif_fixed, ↓State.takeSqTail_fixed, ↓State.at__fixed, ↓State.takeStrHead_fixed, ↓State.checkDrain_fixed, ↓State.startPoll_fixed, ↓State.takeEqHead_fixed, fixed_mk]; done)
    | split
    | simp only [↓State.takeCqHead_fixed, ↓State.modHif_fixed, ↓State.takeSqTail_fixed, ↓State.at__fixed, ↓State.takeStrHead_fixed, ↓State.checkDrain_fixed, ↓State.startPoll_fixed, ↓State.takeEqHead_fixed, fixed_mk, guarded]

theorem execDescriptorFetch_fixed {t sq : Nat} {bytes listBytes data : List Byte} {s : State} {s' : State} (h : execDescriptorFetch t sq bytes listBytes data s = .next s') : s'.fixed = s.fixed := by
  unfold execDescriptorFetch at h
  cases h
  repeat' first
    | with_reducible rfl
    | with_reducible apply fixed_ite
    | (simp only [↓State.emit_fixed, ↓State.modHif_fixed, ↓State.takeDescriptor_fixed, ↓State.noteValid_fixed, ↓State.at__fixed, ↓State.putSq_fixed, fixed_mk]; done)
    | split
    | simp only [↓State.emit_fixed, ↓State.modHif_fixed, ↓State.takeDescriptor_fixed, ↓State.noteValid_fixed, ↓State.at__fixed, ↓State.putSq_fixed, fixed_mk, guarded]

theorem execCommandTimeout_fixed {t sq cid : Nat} {s : State} {s' : State} (h : execCommandTimeout t sq cid s = .next s') : s'.fixed = s.fixed := by
  unfold execCommandTimeout at h
  cases h
  repeat' first
    | with_reducible rfl
    | with_reducible apply fixed_ite
    | (simp only [↓State.queueCompletion_fixed, ↓State.finishBroadcast_fixed, ↓State.at__fixed, ↓State.startAll_fixed, fixed_mk]; done)
    | split
    | simp only [↓State.queueCompletion_fixed, ↓State.finishBroadcast_fixed, ↓State.at__fixed, ↓State.startAll_fixed, fixed_mk, guarded]

theorem execStreamEntryWrite_fixed {t ring : Nat} {ok : Bool} {s : State} {s' : State} (h : execStreamEntryWrite t ring ok s = .next s') : s'.fixed = s.fixed := by
  unfold execStreamEntryWrite at h
  cases h
  repeat' first
    | with_reducible rfl
    | with_reducible apply fixed_ite
    | (simp only [↓State.writeStream_fixed, ↓State.putStr_fixed, ↓State.queueError_fixed, ↓State.at__fixed, ↓State.checkDrain_fixed, ↓State.endClosed_fixed, fixed_mk]; done)
    | split
    | simp only [↓State.writeStream_fixed, ↓State.putStr_fixed, ↓State.queueError_fixed, ↓State.at__fixed, ↓State.checkDrain_fixed, ↓State.endClosed_fixed, fixed_mk, guarded]

theorem execEventEntryWrite_fixed {t : Nat} {ok : Bool} {s : State} {s' : State} (h : execEventEntryWrite t ok s = .next s') : s'.fixed = s.fixed := by
  unfold execEventEntryWrite at h
  cases h
  repeat' first
    | with_reducible rfl
    | with_reducible apply fixed_ite
    | (simp only [↓State.at__fixed, ↓State.checkDrain_fixed, ↓State.hifFatal_fixed, ↓State.writeEvent_fixed, fixed_mk]; done)
    | split
    | simp only [↓State.at__fixed, ↓State.checkDrain_fixed, ↓State.hifFatal_fixed, ↓State.writeEvent_fixed, fixed_mk, guarded]

theorem execInterruptCoalesceExpire_fixed {t kind idx : Nat} {s : State} {s' : State} (h : execInterruptCoalesceExpire t kind idx s = .next s') : s'.fixed = s.fixed := by
  unfold execInterruptCoalesceExpire at h
  cases h
  repeat' first
    | with_reducible apply fixed_ite
    | exact (State.coalesced_fixed (fun _ _ => State.putCq_fixed ..)).trans (State.at__fixed ..)
    | exact (State.coalesced_fixed (fun _ _ => State.putStr_fixed ..)).trans (State.at__fixed ..)
    | exact (State.coalesced_fixed (fun _ _ => State.putEq_fixed ..)).trans (State.at__fixed ..)
    | exact State.at__fixed ..

theorem execMsixUnmask_fixed {t vector : Nat} {s : State} {s' : State} (h : execMsixUnmask t vector s = .next s') : s'.fixed = s.fixed := by
  unfold execMsixUnmask at h
  cases h
  split <;> simp only [↓State.at__fixed, ↓State.unmask_fixed, fixed_mk, guarded]

theorem execEventDelayReport_fixed {t : Nat} {s : State} {s' : State} (h : execEventDelayReport t s = .next s') : s'.fixed = s.fixed := by
  unfold execEventDelayReport at h
  cases h
  split <;> simp only [↓State.event_fixed, ↓State.modHif_fixed, ↓State.at__fixed, fixed_mk, guarded]

theorem execHostReadTimeout_fixed {t what idx : Nat} {acc : HostAccess} {s : State} {s' : State} (h : execHostReadTimeout t what idx acc s = .next s') : s'.fixed = s.fixed := by
  unfold execHostReadTimeout at h
  cases h
  repeat' first
    | with_reducible rfl
    | with_reducible apply fixed_ite
    | (simp only [↓State.modHif_fixed, ↓State.queueError_fixed, ↓State.at__fixed, ↓State.checkDrain_fixed, ↓State.hifFatal_fixed, ↓State.readFailed_fixed, ↓State.writeFailed_fixed, ↓State.putSq_fixed, fixed_mk]; done)
    | split
    | simp only [↓State.modHif_fixed, ↓State.queueError_fixed, ↓State.at__fixed, ↓State.checkDrain_fixed, ↓State.hifFatal_fixed, ↓State.readFailed_fixed, ↓State.writeFailed_fixed, ↓State.putSq_fixed, fixed_mk, guarded]

theorem execCommandFrameReceive_fixed {t : Nat} {bytes : List Byte} {s : State} {s' : State} (h : execCommandFrameReceive t bytes s = .next s') : s'.fixed = s.fixed := by
  unfold execCommandFrameReceive at h
  cases h
  repeat' first
    | with_reducible rfl
    | with_reducible apply fixed_ite
    | (simp only [↓State.assemble_fixed, ↓State.noteValid_fixed, ↓State.undoze_fixed, ↓State.accept_fixed, ↓State.at__fixed, ↓State.closeFor_fixed, ↓State.unclaimTo_fixed, ↓State.enterPend_fixed, fixed_mk]; done)
    | split
    | simp only [↓State.assemble_fixed, ↓State.noteValid_fixed, ↓State.undoze_fixed, ↓State.accept_fixed, ↓State.at__fixed, ↓State.closeFor_fixed, ↓State.unclaimTo_fixed, ↓State.enterPend_fixed, fixed_mk, guarded]

theorem execCompletionFrameReceive_fixed {t : Nat} {bytes : List Byte} {s : State} {s' : State} (h : execCompletionFrameReceive t bytes s = .next s') : s'.fixed = s.fixed := by
  unfold execCompletionFrameReceive at h
  cases h
  repeat' first
    | with_reducible rfl
    | with_reducible apply fixed_ite
    | (simp only [↓State.assemble_fixed, ↓State.modHif_fixed, ↓State.accept_fixed, ↓State.at__fixed, ↓State.startAll_fixed, ↓State.takeCompletion_fixed, ↓State.notePrepared_fixed, fixed_mk]; done)
    | split
    | simp only [↓State.assemble_fixed, ↓State.modHif_fixed, ↓State.accept_fixed, ↓State.at__fixed, ↓State.startAll_fixed, ↓State.takeCompletion_fixed, ↓State.notePrepared_fixed, fixed_mk, guarded]

theorem execEventFrameReceive_fixed {t : Nat} {bytes : List Byte} {s : State} {s' : State} (h : execEventFrameReceive t bytes s = .next s') : s'.fixed = s.fixed := by
  unfold execEventFrameReceive at h
  cases h
  repeat' first
    | with_reducible rfl
    | with_reducible apply fixed_ite
    | (simp only [↓State.assemble_fixed, ↓State.blackBox_fixed, ↓State.modHif_fixed, ↓State.accept_fixed, ↓State.at__fixed, ↓State.startAll_fixed, ↓State.awake_fixed, ↓State.drawBits_fixed, fixed_mk]; done)
    | split
    | simp only [↓State.assemble_fixed, ↓State.blackBox_fixed, ↓State.modHif_fixed, ↓State.accept_fixed, ↓State.at__fixed, ↓State.startAll_fixed, ↓State.awake_fixed, ↓State.drawBits_fixed, fixed_mk, guarded]

theorem execRecordArrive_fixed {t k : Nat} {intact : Bool} {s : State} {s' : State} (h : execRecordArrive t k intact s = .next s') : s'.fixed = s.fixed := by
  unfold execRecordArrive at h
  cases h
  repeat' first
    | with_reducible rfl
    | with_reducible apply fixed_ite
    | with_reducible refine onDie_fixed (fun _ => ?_) ?_
    | (simp only [↓State.dropRec_fixed, ↓State.at__fixed, ↓State.place_fixed, ↓State.checkRejected_fixed, ↓State.modDie_fixed, fixed_mk]; done)
    | split
    | simp only [↓State.dropRec_fixed, ↓State.at__fixed, ↓State.place_fixed, ↓State.checkRejected_fixed, ↓State.modDie_fixed, fixed_mk, guarded]

theorem execDieRecordResend_fixed {t k : Nat} {s : State} {s' : State} (h : execDieRecordResend t k s = .next s') : s'.fixed = s.fixed := by
  unfold execDieRecordResend at h
  cases h
  repeat' first
    | with_reducible rfl
    | with_reducible apply fixed_ite
    | with_reducible refine onDie_fixed (fun _ => ?_) ?_
    | (simp only [↓State.at__fixed, ↓State.resend_fixed, ↓State.placement_fixed, ↓State.modDie_fixed, fixed_mk]; done)
    | split
    | simp only [↓State.at__fixed, ↓State.resend_fixed, ↓State.placement_fixed, ↓State.modDie_fixed, fixed_mk, guarded]

theorem execUnitProgramComplete_fixed {t group : Nat} {ok : Bool} {s : State} {s' : State} (h : execUnitProgramComplete t group ok s = .next s') : s'.fixed = s.fixed := by
  unfold execUnitProgramComplete at h
  cases h
  repeat' first
    | with_reducible rfl
    | with_reducible apply fixed_ite
    | (simp only [↓State.at__fixed, ↓State.programHead_fixed, fixed_mk]; done)
    | split
    | simp only [↓State.at__fixed, ↓State.programHead_fixed, fixed_mk, guarded]

theorem execD2UnitClose_fixed {t : Nat} {s : State} {s' : State} (h : execD2UnitClose t s = .next s') : s'.fixed = s.fixed := by
  unfold execD2UnitClose at h
  cases h
  repeat' first
    | with_reducible rfl
    | with_reducible apply fixed_ite
    | (simp only [↓State.at__fixed, fixed_mk]; done)
    | split
    | simp only [↓State.at__fixed, fixed_mk, guarded]

theorem execBucketAccrue_fixed {t : Nat} {s : State} {s' : State} (h : execBucketAccrue t s = .next s') : s'.fixed = s.fixed := by
  unfold execBucketAccrue at h
  cases h
  split <;> simp only [↓State.at__fixed, ↓State.moveRetired_fixed, ↓State.startUnit_fixed, ↓State.bucketFlag_fixed, fixed_mk, guarded]

theorem execStorageTempSample_fixed {t : Nat} {temp : Int} {s : State} {s' : State} (h : execStorageTempSample t temp s = .next s') : s'.fixed = s.fixed := by
  unfold execStorageTempSample at h
  cases h
  repeat' first
    | with_reducible rfl
    | with_reducible apply fixed_ite
    | with_reducible refine (foldl_fixed (fun _ _ => ?_) _ _).trans ?_
    | (simp only [↓State.at__fixed, ↓State.moveRetired_fixed, ↓State.placement_fixed, ↓State.writer_fixed, fixed_mk]; done)
    | split
    | simp only [↓State.at__fixed, ↓State.moveRetired_fixed, ↓State.placement_fixed, ↓State.writer_fixed, fixed_mk, guarded]

theorem execBlockRefresh_fixed {t block : Nat} {read : BlockRead} {s : State} {s' : State} (h : execBlockRefresh t block read s = .next s') : s'.fixed = s.fixed := by
  unfold execBlockRefresh at h
  cases h
  refine fixed_ite (State.at__fixed ..) ?_
  split
  · exact State.at__fixed ..
  · rename_i r h
    have hr : r.fixed = s.fixed := (State.copyBlock_fixed h).trans (State.at__fixed ..)
    exact fixed_ite ((State.writer_fixed _).trans ((State.bucketFlag_fixed _).trans ((State.retireBlock_fixed ..).trans hr)))
      ((State.writer_fixed _).trans ((State.bucketFlag_fixed _).trans ((State.levelWear_fixed _).trans (Eq.trans rfl hr))))

theorem execStorageDieFail_fixed {t : Nat} {s : State} {s' : State} (h : execStorageDieFail t s = .next s') : s'.fixed = s.fixed := by
  unfold execStorageDieFail at h
  cases h
  simp only [↓State.at__fixed, ↓State.failStore_fixed, fixed_mk, guarded]

theorem execSpillHolderRechoose_fixed {t : Nat} {candidates : List Nat} {s : State} {s' : State} (h : execSpillHolderRechoose t candidates s = .next s') : s'.fixed = s.fixed := by
  unfold execSpillHolderRechoose at h
  cases h
  repeat' first
    | with_reducible rfl
    | with_reducible apply fixed_ite
    | (simp only [↓State.at__fixed, ↓State.placement_fixed, ↓State.writer_fixed, fixed_mk]; done)
    | split
    | simp only [↓State.at__fixed, ↓State.placement_fixed, ↓State.writer_fixed, fixed_mk, guarded]

theorem execRecordRetentionExpire_fixed {t : Nat} {s : State} {s' : State} (h : execRecordRetentionExpire t s = .next s') : s'.fixed = s.fixed := by
  unfold execRecordRetentionExpire at h
  cases h
  simp only [↓State.at__fixed, fixed_mk, guarded]

theorem execRecordFrameReceive_fixed {t : Nat} {bytes : List Byte} {s : State} {s' : State} (h : execRecordFrameReceive t bytes s = .next s') : s'.fixed = s.fixed := by
  unfold execRecordFrameReceive at h
  cases h
  repeat' first
    | with_reducible rfl
    | with_reducible apply fixed_ite
    | (simp only [↓State.assemble_fixed, ↓State.blackBox_fixed, ↓State.answerHolder_fixed, ↓State.takeSpill_fixed, ↓State.originate_fixed, ↓State.accept_fixed, ↓State.at__fixed, ↓State.claimAll_fixed, ↓State.takeHeld_fixed, fixed_mk]; done)
    | split
    | simp only [↓State.assemble_fixed, ↓State.blackBox_fixed, ↓State.answerHolder_fixed, ↓State.takeSpill_fixed, ↓State.originate_fixed, ↓State.accept_fixed, ↓State.at__fixed, ↓State.claimAll_fixed, ↓State.takeHeld_fixed, fixed_mk, guarded]

theorem execLocusEvaluate_fixed {t : Nat} {load : List Rat} {cluster : Rat} {s : State} {s' : State} (h : execLocusEvaluate t load cluster s = .next s') : s'.fixed = s.fixed := by
  unfold execLocusEvaluate at h
  cases h
  repeat' first
    | with_reducible rfl
    | with_reducible apply fixed_ite
    | with_reducible refine (foldl_fixed (fun _ _ => ?_) _ _).trans ?_
    | (simp only [↓State.at__fixed, ↓State.evaluateDie_fixed, ↓State.modDies_fixed, ↓State.adoptLocus_fixed, ↓State.placement_fixed, fixed_mk]; done)
    | split
    | simp only [↓State.at__fixed, ↓State.evaluateDie_fixed, ↓State.modDies_fixed, ↓State.adoptLocus_fixed, ↓State.placement_fixed, fixed_mk, guarded]

theorem execTaskMove_fixed {t k task : Nat} {complete : Bool} {s : State} {s' : State} (h : execTaskMove t k task complete s = .next s') : s'.fixed = s.fixed := by
  unfold execTaskMove at h
  cases h
  repeat' first
    | with_reducible rfl
    | with_reducible apply fixed_ite
    | with_reducible refine onDie_fixed (fun _ => ?_) ?_
    | (simp only [↓State.at__fixed, ↓State.drawRats_fixed, ↓State.placement_fixed, ↓State.modDie_fixed, fixed_mk]; done)
    | split
    | simp only [↓State.at__fixed, ↓State.drawRats_fixed, ↓State.placement_fixed, ↓State.modDie_fixed, fixed_mk, guarded]

theorem execInputValid_fixed {t which : Nat} {v : Rat} {s : State} {s' : State} (h : execInputValid t which v s = .next s') : s'.fixed = s.fixed := by
  unfold execInputValid at h
  cases h
  repeat' first
    | with_reducible rfl
    | with_reducible apply fixed_ite
    | (simp only [↓State.chooseSrc_fixed, ↓State.setInput_fixed, ↓State.at__fixed, ↓State.modPower_fixed, ↓State.noteInput_fixed, ↓State.evalOuts_fixed, ↓State.wake_fixed, fixed_mk]; done)
    | split
    | simp only [↓State.chooseSrc_fixed, ↓State.setInput_fixed, ↓State.at__fixed, ↓State.modPower_fixed, ↓State.noteInput_fixed, ↓State.evalOuts_fixed, ↓State.wake_fixed, fixed_mk, guarded]

theorem execInputInvalid_fixed {t which : Nat} {v : Rat} {s : State} {s' : State} (h : execInputInvalid t which v s = .next s') : s'.fixed = s.fixed := by
  unfold execInputInvalid at h
  cases h
  repeat' first
    | with_reducible rfl
    | with_reducible apply fixed_ite
    | (simp only [↓State.chooseSrc_fixed, ↓State.setInput_fixed, ↓State.at__fixed, ↓State.noteInput_fixed, ↓State.inputsGone_fixed, ↓State.evalOuts_fixed, fixed_mk]; done)
    | split
    | simp only [↓State.chooseSrc_fixed, ↓State.setInput_fixed, ↓State.at__fixed, ↓State.noteInput_fixed, ↓State.inputsGone_fixed, ↓State.evalOuts_fixed, fixed_mk, guarded]

theorem execRailFault_fixed {t rail kind : Nat} {s : State} {s' : State} (h : execRailFault t rail kind s = .next s') : s'.fixed = s.fixed := by
  unfold execRailFault at h
  cases h
  repeat' first
    | with_reducible rfl
    | with_reducible apply fixed_ite
    | (simp only [↓State.at__fixed, ↓State.modPower_fixed, ↓State.judgeFault_fixed, fixed_mk]; done)
    | split
    | simp only [↓State.at__fixed, ↓State.modPower_fixed, ↓State.judgeFault_fixed, fixed_mk, guarded]

theorem execRailRetry_fixed {t rail : Nat} {s : State} {s' : State} (h : execRailRetry t rail s = .next s') : s'.fixed = s.fixed := by
  unfold execRailRetry at h
  cases h
  repeat' first
    | with_reducible rfl
    | with_reducible apply fixed_ite
    | (simp only [↓State.at__fixed, ↓State.modRail_fixed, fixed_mk]; done)
    | split
    | simp only [↓State.at__fixed, ↓State.modRail_fixed, fixed_mk, guarded]

theorem execRailCounterCopy_fixed {t : Nat} {s : State} {s' : State} (h : execRailCounterCopy t s = .next s') : s'.fixed = s.fixed := by
  unfold execRailCounterCopy at h
  cases h
  split <;> simp only [↓State.at__fixed, ↓State.modPower_fixed, ↓State.copyCounters_fixed, ↓State.accrueTest_fixed, fixed_mk, guarded]

theorem execHoldCharged_fixed {t mv : Nat} {s : State} {s' : State} (h : execHoldCharged t mv s = .next s') : s'.fixed = s.fixed := by
  unfold execHoldCharged at h
  cases h
  repeat' first
    | with_reducible rfl
    | with_reducible apply fixed_ite
    | (simp only [↓State.event_fixed, ↓State.setHoldEff_fixed, ↓State.at__fixed, ↓State.modPower_fixed, ↓State.modRail_fixed, fixed_mk]; done)
    | split
    | simp only [↓State.event_fixed, ↓State.setHoldEff_fixed, ↓State.at__fixed, ↓State.modPower_fixed, ↓State.modRail_fixed, fixed_mk, guarded]

theorem execHoldLow_fixed {t mv : Nat} {s : State} {s' : State} (h : execHoldLow t mv s = .next s') : s'.fixed = s.fixed := by
  unfold execHoldLow at h
  cases h
  split <;> simp only [↓State.setHoldEff_fixed, ↓State.at__fixed, ↓State.countRail_fixed, ↓State.modPower_fixed, fixed_mk, guarded]

theorem execHoldChargeTimeout_fixed {t : Nat} {s : State} {s' : State} (h : execHoldChargeTimeout t s = .next s') : s'.fixed = s.fixed := by
  unfold execHoldChargeTimeout at h
  cases h
  split <;> simp only [↓State.event_fixed, ↓State.at__fixed, ↓State.countRail_fixed, ↓State.modPower_fixed, fixed_mk, guarded]

theorem execPowerUpSequence_fixed {t : Nat} {strap : List Nat} {s : State} {s' : State} (h : execPowerUpSequence t strap s = .next s') : s'.fixed = s.fixed := by
  unfold execPowerUpSequence at h
  cases h
  repeat' first
    | with_reducible rfl
    | with_reducible apply fixed_ite
    | (simp only [↓State.takeStrap_fixed, ↓State.startUp_fixed, ↓State.at__fixed, ↓State.modPower_fixed, ↓State.modRail_fixed, fixed_mk]; done)
    | split
    | simp only [↓State.takeStrap_fixed, ↓State.startUp_fixed, ↓State.at__fixed, ↓State.modPower_fixed, ↓State.modRail_fixed, fixed_mk, guarded]

theorem execRailInRegulation_fixed {t rail bist : Nat} {s : State} {s' : State} (hq : s.fixed.settled) (h : execRailInRegulation t rail bist s = .next s') : s'.fixed = s.fixed := by
  unfold execRailInRegulation at h
  cases h
  repeat' first
    | with_reducible rfl
    | with_reducible apply fixed_ite
    | (simp only [↓State.hubStart_fixed, ↓State.at__fixed, ↓State.enableNext_fixed, ↓State.turnDown_fixed, ↓State.railUp_fixed, hq, fixed_mk]; done)
    | split
    | simp only [↓State.hubStart_fixed, ↓State.at__fixed, ↓State.enableNext_fixed, ↓State.turnDown_fixed, ↓State.railUp_fixed, hq, fixed_mk, guarded]

theorem execRailRampTimeout_fixed {t rail : Nat} {s : State} {s' : State} (h : execRailRampTimeout t rail s = .next s') : s'.fixed = s.fixed := by
  unfold execRailRampTimeout at h
  cases h
  repeat' first
    | with_reducible rfl
    | with_reducible apply fixed_ite
    | (simp only [↓State.at__fixed, ↓State.countRail_fixed, ↓State.modPower_fixed, ↓State.railAct_fixed, ↓State.turnDown_fixed, fixed_mk]; done)
    | split
    | simp only [↓State.at__fixed, ↓State.countRail_fixed, ↓State.modPower_fixed, ↓State.railAct_fixed, ↓State.turnDown_fixed, fixed_mk, guarded]

theorem execPowerUpRetry_fixed {t : Nat} {s : State} {s' : State} (h : execPowerUpRetry t s = .next s') : s'.fixed = s.fixed := by
  unfold execPowerUpRetry at h
  cases h
  repeat' first
    | with_reducible rfl
    | with_reducible apply fixed_ite
    | (simp only [↓State.startUp_fixed, ↓State.at__fixed, ↓State.modPower_fixed, fixed_mk]; done)
    | split
    | simp only [↓State.startUp_fixed, ↓State.at__fixed, ↓State.modPower_fixed, fixed_mk, guarded]

theorem execRailDischarged_fixed {t rail : Nat} {timedOut : Bool} {s : State} {s' : State} (h : execRailDischarged t rail timedOut s = .next s') : s'.fixed = s.fixed := by
  unfold execRailDischarged at h
  cases h
  repeat' first
    | with_reducible rfl
    | with_reducible apply fixed_ite
    | (simp only [↓State.at__fixed, ↓State.countRail_fixed, ↓State.modRail_fixed, ↓State.downStep_fixed, fixed_mk]; done)
    | split
    | simp only [↓State.at__fixed, ↓State.countRail_fixed, ↓State.modRail_fixed, ↓State.downStep_fixed, fixed_mk, guarded]

theorem execPowerFailWarning_fixed {t item : Nat} {s : State} {s' : State} (h : execPowerFailWarning t item s = .next s') : s'.fixed = s.fixed := by
  unfold execPowerFailWarning at h
  cases h
  split <;> simp only [↓State.at__fixed, ↓State.warn_fixed, fixed_mk, guarded]

theorem execShutdownRestart_fixed {t : Nat} {s : State} {s' : State} (h : execShutdownRestart t s = .next s') : s'.fixed = s.fixed := by
  unfold execShutdownRestart at h
  cases h
  repeat' first
    | with_reducible rfl
    | with_reducible apply fixed_ite
    | (simp only [↓State.at__fixed, ↓State.modPower_fixed, fixed_mk]; done)
    | split
    | simp only [↓State.at__fixed, ↓State.modPower_fixed, fixed_mk, guarded]

theorem execDozeEnter_fixed {t : Nat} {s : State} {s' : State} (h : execDozeEnter t s = .next s') : s'.fixed = s.fixed := by
  unfold execDozeEnter at h
  cases h
  repeat' first
    | with_reducible rfl
    | with_reducible apply fixed_ite
    | (simp only [↓State.at__fixed, ↓State.modPower_fixed, ↓State.doze_fixed, fixed_mk]; done)
    | split
    | simp only [↓State.at__fixed, ↓State.modPower_fixed, ↓State.doze_fixed, fixed_mk, guarded]

theorem execDozeExit_fixed {t : Nat} {s : State} {s' : State} (h : execDozeExit t s = .next s') : s'.fixed = s.fixed := by
  unfold execDozeExit at h
  cases h
  split <;> simp only [↓State.undoze_fixed, ↓State.at__fixed, fixed_mk, guarded]

theorem execWakeSource_fixed {t code : Nat} {s : State} {s' : State} (h : execWakeSource t code s = .next s') : s'.fixed = s.fixed := by
  unfold execWakeSource at h
  cases h
  split <;> simp only [↓State.at__fixed, ↓State.wake_fixed, fixed_mk, guarded]

theorem execSleepTimerExpire_fixed {t : Nat} {s : State} {s' : State} (h : execSleepTimerExpire t s = .next s') : s'.fixed = s.fixed := by
  unfold execSleepTimerExpire at h
  cases h
  split <;> simp only [↓State.at__fixed, ↓State.wake_fixed, fixed_mk, guarded]

theorem execAonSupplyLoss_fixed {t : Nat} {s : State} {s' : State} (h : execAonSupplyLoss t s = .next s') : s'.fixed = s.fixed := by
  unfold execAonSupplyLoss at h
  cases h
  split <;> simp only [↓State.at__fixed, ↓State.modPower_fixed, ↓State.tearWrites_fixed, fixed_mk, guarded]

theorem execSleepListenWindow_fixed {t : Nat} {side : Side} {s : State} {s' : State} (h : execSleepListenWindow t side s = .next s') : s'.fixed = s.fixed := by
  unfold execSleepListenWindow at h
  cases h
  repeat' first
    | with_reducible rfl
    | with_reducible apply fixed_ite
    | (simp only [↓State.at__fixed, ↓State.modPort_fixed, fixed_mk]; done)
    | split
    | simp only [↓State.at__fixed, ↓State.modPort_fixed, fixed_mk, guarded]

theorem execWakeRunReceive_fixed {t : Nat} {side : Side} {durationNs : Nat} {s : State} {s' : State} (h : execWakeRunReceive t side durationNs s = .next s') : s'.fixed = s.fixed := by
  unfold execWakeRunReceive at h
  cases h
  split <;> simp only [↓State.emit_fixed, ↓State.at__fixed, ↓State.wake_fixed, fixed_mk, guarded]

theorem execLongBeaconDetect_fixed {t : Nat} {side : Side} {bits : List Bool} {s : State} {s' : State} (h : execLongBeaconDetect t side bits s = .next s') : s'.fixed = s.fixed := by
  unfold execLongBeaconDetect at h
  cases h
  repeat' first
    | with_reducible rfl
    | with_reducible apply fixed_ite
    | (simp only [↓State.at__fixed, ↓State.wake_fixed, fixed_mk]; done)
    | split
    | simp only [↓State.at__fixed, ↓State.wake_fixed, fixed_mk, guarded]

theorem execRstNAssert_fixed {t : Nat} {s : State} {s' : State} (h : execRstNAssert t s = .next s') : s'.fixed = s.fixed := by
  unfold execRstNAssert at h
  cases h
  repeat' first
    | with_reducible rfl
    | with_reducible apply fixed_ite
    | (simp only [↓State.startDown_fixed, ↓State.at__fixed, ↓State.modPower_fixed, ↓State.diesCutOff_fixed, ↓State.hubStop_fixed, fixed_mk]; done)
    | split
    | simp only [↓State.startDown_fixed, ↓State.at__fixed, ↓State.modPower_fixed, ↓State.diesCutOff_fixed, ↓State.hubStop_fixed, fixed_mk, guarded]

theorem execRstNRelease_fixed {t : Nat} {strap : List Nat} {s : State} {s' : State} (h : execRstNRelease t strap s = .next s') : s'.fixed = s.fixed := by
  unfold execRstNRelease at h
  cases h
  split <;> simp only [↓State.at__fixed, ↓State.endReset_fixed, fixed_mk, guarded]

theorem execRstNStuck_fixed {t : Nat} {strap : List Nat} {s : State} {s' : State} (h : execRstNStuck t strap s = .next s') : s'.fixed = s.fixed := by
  unfold execRstNStuck at h
  cases h
  split <;> simp only [↓State.at__fixed, ↓State.modPower_fixed, ↓State.endReset_fixed, fixed_mk, guarded]

theorem execRstIgnoredClear_fixed {t : Nat} {s : State} {s' : State} (h : execRstIgnoredClear t s = .next s') : s'.fixed = s.fixed := by
  unfold execRstIgnoredClear at h
  cases h
  simp only [↓State.at__fixed, ↓State.modPower_fixed, fixed_mk, guarded]

theorem execDieIsolationTimeout_fixed {t k : Nat} {s : State} {s' : State} (h : execDieIsolationTimeout t k s = .next s') : s'.fixed = s.fixed := by
  unfold execDieIsolationTimeout at h
  cases h
  refine onDie_fixed (fun _ => ?_) ?_
  · split <;> simp only [↓State.precOff_fixed, ↓State.at__fixed, fixed_mk, guarded]
  · simp only [↓State.precOff_fixed, ↓State.at__fixed, fixed_mk, guarded]

theorem execPrecPowerUp_fixed {t k : Nat} {bist : DieTests} {s : State} {s' : State} (h : execPrecPowerUp t k bist s = .next s') : s'.fixed = s.fixed := by
  unfold execPrecPowerUp at h
  cases h
  repeat' first
    | with_reducible rfl
    | with_reducible apply fixed_ite
    | with_reducible refine onDie_fixed (fun _ => ?_) ?_
    | (simp only [↓State.seqRestart_fixed, ↓State.loadState_fixed, ↓State.at__fixed, ↓State.heartResume_fixed, ↓State.modTest_fixed, ↓State.precStart_fixed, ↓State.settleChannels_fixed, ↓State.fastDomain_fixed, ↓State.enterProtOnly_fixed, ↓State.testFailed_fixed, ↓State.reportMemory_fixed, ↓State.readFactory_fixed, ↓State.modDie_fixed, ↓State.loadCal_fixed, fixed_mk]; done)
    | split
    | simp only [↓State.seqRestart_fixed, ↓State.loadState_fixed, ↓State.at__fixed, ↓State.heartResume_fixed, ↓State.modTest_fixed, ↓State.precStart_fixed, ↓State.settleChannels_fixed, ↓State.fastDomain_fixed, ↓State.enterProtOnly_fixed, ↓State.testFailed_fixed, ↓State.reportMemory_fixed, ↓State.readFactory_fixed, ↓State.modDie_fixed, ↓State.loadCal_fixed, fixed_mk, guarded]

theorem execHubBistRetry_fixed {t : Nat} {pass : Bool} {s : State} {s' : State} (hq : s.fixed.settled) (h : execHubBistRetry t pass s = .next s') : s'.fixed = s.fixed := by
  unfold execHubBistRetry at h
  cases h
  split
  · exact State.at__fixed ..
  · have e : ∀ f : SelfTest → SelfTest, ((s.at_ t).modTest 0 f).fixed = s.fixed := fun f =>
      (State.modTest_fixed ..).trans (State.at__fixed ..)
    exact fixed_ite (State.at__fixed ..) ((State.hubTest_fixed _ _ (by rw [e]; exact hq)).trans (e _))

theorem execCompletionWrite_fixed {t cq : Nat} {ok : Bool} {s : State} {s' : State} (h : execCompletionWrite t cq ok s = .next s') : s'.fixed = s.fixed := by
  unfold execCompletionWrite at h
  cases h
  repeat' first
    | with_reducible rfl
    | with_reducible apply fixed_ite
    | (simp only [↓State.queueError_fixed, ↓State.at__fixed, ↓State.checkDrain_fixed, ↓State.modPower_fixed, ↓State.writeCompletion_fixed, ↓State.tryEnter_fixed, ↓State.putCq_fixed, fixed_mk]; done)
    | split
    | simp only [↓State.queueError_fixed, ↓State.at__fixed, ↓State.checkDrain_fixed, ↓State.modPower_fixed, ↓State.writeCompletion_fixed, ↓State.tryEnter_fixed, ↓State.putCq_fixed, fixed_mk, guarded]

theorem execSliceStart_fixed {t k : Nat} {s : State} {s' : State} (h : execSliceStart t k s = .next s') : s'.fixed = s.fixed := by
  unfold execSliceStart at h
  cases h
  repeat' first
    | with_reducible rfl
    | with_reducible apply fixed_ite
    | (simp only [↓State.at__fixed, ↓State.modTest_fixed, ↓State.startSlice_fixed, ↓State.accrueTest_fixed, fixed_mk]; done)
    | split
    | simp only [↓State.at__fixed, ↓State.modTest_fixed, ↓State.startSlice_fixed, ↓State.accrueTest_fixed, fixed_mk, guarded]

theorem execSliceEnd_fixed {t k result rail : Nat} {s : State} {s' : State} (h : execSliceEnd t k result rail s = .next s') : s'.fixed = s.fixed := by
  unfold execSliceEnd at h
  cases h
  repeat' first
    | with_reducible rfl
    | with_reducible apply fixed_ite
    | (simp only [↓State.endSlice_fixed, ↓State.at__fixed, ↓State.judgeHeld_fixed, ↓State.railFault_fixed, ↓State.adoptSeq_fixed, fixed_mk]; done)
    | split
    | simp only [↓State.endSlice_fixed, ↓State.at__fixed, ↓State.judgeHeld_fixed, ↓State.railFault_fixed, ↓State.adoptSeq_fixed, fixed_mk, guarded]

theorem execSelftestOverdue_fixed {t k block : Nat} {s : State} {s' : State} (h : execSelftestOverdue t k block s = .next s') : s'.fixed = s.fixed := by
  unfold execSelftestOverdue at h
  cases h
  repeat' first
    | with_reducible rfl
    | with_reducible apply fixed_ite
    | (simp only [↓State.event_fixed, ↓State.dieEvent_fixed, ↓State.at__fixed, ↓State.modTest_fixed, ↓State.accrueTest_fixed, fixed_mk]; done)
    | split
    | simp only [↓State.event_fixed, ↓State.dieEvent_fixed, ↓State.at__fixed, ↓State.modTest_fixed, ↓State.accrueTest_fixed, fixed_mk, guarded]

theorem execChkOpen_fixed {t unit ctrl : Nat} {s : State} {s' : State} (h : execChkOpen t unit ctrl s = .next s') : s'.fixed = s.fixed := by
  unfold execChkOpen at h
  cases h
  split <;> simp only [↓State.at__fixed, ↓State.modChk_fixed, fixed_mk, guarded]

theorem execChkDataWrite_fixed {t unit width value : Nat} {s : State} {s' : State} (h : execChkDataWrite t unit width value s = .next s') : s'.fixed = s.fixed := by
  unfold execChkDataWrite at h
  cases h
  split <;> simp only [↓State.at__fixed, ↓State.modChk_fixed, fixed_mk, guarded]

theorem execChkClose_fixed {t unit ctrl : Nat} {s : State} {s' : State} (h : execChkClose t unit ctrl s = .next s') : s'.fixed = s.fixed := by
  unfold execChkClose at h
  cases h
  split <;> simp only [↓State.at__fixed, ↓State.modChk_fixed, fixed_mk, guarded]

theorem execSelftestRunAll_fixed {t : Nat} {c : Cmd} {results : List Nat} {s : State} {s' : State} (h : execSelftestRunAll t c results s = .next s') : s'.fixed = s.fixed := by
  unfold execSelftestRunAll at h
  cases h
  refine State.serve_fixed (fun u hu => ?_) (State.at__fixed ..)
  refine fixed_ite ((State.complete_fixed ..).trans hu) ?_
  refine (State.complete_fixed ..).trans (Eq.trans ?_ hu)
  exact foldl_fixed_fst (fun acc b => State.runBlock_fixed ..) _ _

theorem execSelftestRunBlock_fixed {t : Nat} {c : Cmd} {result : Nat} {s : State} {s' : State} (h : execSelftestRunBlock t c result s = .next s') : s'.fixed = s.fixed := by
  unfold execSelftestRunBlock at h
  cases h
  repeat' first
    | with_reducible rfl
    | with_reducible apply fixed_ite
    | with_reducible refine State.serve_fixed (fun _ ht => ?_) ?_
    | (simp only [↓State.runBlock_fixed, ↓State.at__fixed, ↓State.complete_fixed, fixed_mk, *]; done)
    | split
    | simp only [↓State.runBlock_fixed, ↓State.at__fixed, ↓State.complete_fixed, fixed_mk, guarded, *]

theorem execCalEarlyEnd_fixed {t : Nat} {c : Cmd} {s : State} {s' : State} (h : execCalEarlyEnd t c s = .next s') : s'.fixed = s.fixed := by
  unfold execCalEarlyEnd at h
  cases h
  repeat' first
    | with_reducible rfl
    | with_reducible apply fixed_ite
    | with_reducible refine State.serve_fixed (fun _ ht => ?_) ?_
    | (simp only [↓State.at__fixed, ↓State.closeRun_fixed, ↓State.complete_fixed, fixed_mk, *]; done)
    | split
    | simp only [↓State.at__fixed, ↓State.closeRun_fixed, ↓State.complete_fixed, fixed_mk, guarded, *]

theorem execCalReset_fixed {t : Nat} {c : Cmd} {s : State} {s' : State} (h : execCalReset t c s = .next s') : s'.fixed = s.fixed := by
  unfold execCalReset at h
  cases h
  repeat' first
    | with_reducible rfl
    | with_reducible apply fixed_ite
    | with_reducible refine State.serve_fixed (fun _ ht => ?_) ?_
    | (simp only [↓State.resetCal_fixed, ↓State.at__fixed, ↓State.complete_fixed, fixed_mk, *]; done)
    | split
    | simp only [↓State.resetCal_fixed, ↓State.at__fixed, ↓State.complete_fixed, fixed_mk, guarded, *]

theorem execCheckCompute_fixed {t : Nat} {c : Cmd} {data : List Byte} {s : State} {s' : State} (h : execCheckCompute t c data s = .next s') : s'.fixed = s.fixed := by
  unfold execCheckCompute at h
  cases h
  repeat' first
    | with_reducible rfl
    | with_reducible apply fixed_ite
    | with_reducible refine State.serve_fixed (fun _ ht => ?_) ?_
    | (simp only [↓State.at__fixed, ↓State.computeCheck_fixed, ↓State.complete_fixed, fixed_mk, *]; done)
    | split
    | simp only [↓State.at__fixed, ↓State.computeCheck_fixed, ↓State.complete_fixed, fixed_mk, guarded, *]

theorem execThermalSample_fixed {t : Nat} {temps : List Int} {s : State} {s' : State} (h : execThermalSample t temps s = .next s') : s'.fixed = s.fixed := by
  unfold execThermalSample at h
  cases h
  split <;> simp only [↓State.at__fixed, ↓State.raiseSteps_fixed, fixed_mk, guarded]

theorem execThermalStepDown_fixed {t : Nat} {s : State} {s' : State} (h : execThermalStepDown t s = .next s') : s'.fixed = s.fixed := by
  unfold execThermalStepDown at h
  cases h
  repeat' first
    | with_reducible rfl
    | with_reducible apply fixed_ite
    | (simp only [↓State.at__fixed, ↓State.setStep_fixed, fixed_mk]; done)
    | split
    | simp only [↓State.at__fixed, ↓State.setStep_fixed, fixed_mk, guarded]

theorem execDieOverheat_fixed {t k : Nat} {s : State} {s' : State} (h : execDieOverheat t k s = .next s') : s'.fixed = s.fixed := by
  unfold execDieOverheat at h
  cases h
  refine onDie_fixed (fun _ => ?_) ?_
  · split <;> simp only [↓State.precOff_fixed, ↓State.at__fixed, ↓State.modDie_fixed, fixed_mk, guarded]
  · simp only [↓State.precOff_fixed, ↓State.at__fixed, ↓State.modDie_fixed, fixed_mk, guarded]

theorem execDieCooled_fixed {t k : Nat} {s : State} {s' : State} (h : execDieCooled t k s = .next s') : s'.fixed = s.fixed := by
  unfold execDieCooled at h
  cases h
  refine onDie_fixed (fun _ => ?_) ?_ <;> simp only [↓State.at__fixed, ↓State.modDie_fixed, fixed_mk, guarded]

theorem execHubOverheat_fixed {t : Nat} {s : State} {s' : State} (h : execHubOverheat t s = .next s') : s'.fixed = s.fixed := by
  unfold execHubOverheat at h
  cases h
  split <;> simp only [↓State.at__fixed, ↓State.modPower_fixed, ↓State.diesCutOff_fixed, ↓State.hubStop_fixed, fixed_mk, guarded]

theorem execHubCooled_fixed {t : Nat} {pass : Bool} {s : State} {s' : State} (hq : s.fixed.settled) (h : execHubCooled t pass s = .next s') : s'.fixed = s.fixed := by
  unfold execHubCooled at h
  cases h
  have e : ∀ f : SelfTest → SelfTest, ((s.at_ t).modTest 0 f).fixed = s.fixed := fun f =>
    (State.modTest_fixed ..).trans (State.at__fixed ..)
  exact fixed_ite (State.at__fixed ..) ((State.hubTest_fixed _ _ (by rw [e]; exact hq)).trans (e _))

theorem execMeterCommit_fixed {t : Nat} {s : State} {s' : State} (h : execMeterCommit t s = .next s') : s'.fixed = s.fixed := by
  unfold execMeterCommit at h
  cases h
  repeat' first
    | with_reducible rfl
    | with_reducible apply fixed_ite
    | (simp only [↓State.at__fixed, ↓State.actDue_fixed, ↓State.commitMeter_fixed, ↓State.formStatements_fixed, fixed_mk]; done)
    | split
    | simp only [↓State.at__fixed, ↓State.actDue_fixed, ↓State.commitMeter_fixed, ↓State.formStatements_fixed, fixed_mk, guarded]

theorem execMeterStatement_fixed {t : Nat} {c : Cmd} {s : State} {s' : State} (h : execMeterStatement t c s = .next s') : s'.fixed = s.fixed := by
  unfold execMeterStatement at h
  cases h
  repeat' first
    | with_reducible rfl
    | with_reducible apply fixed_ite
    | with_reducible refine State.serve_fixed (fun _ ht => ?_) ?_
    | (simp only [↓State.at__fixed, State.modTrust, fixed_mk, *]; done)
    | split
    | simp only [↓State.at__fixed, State.modTrust, fixed_mk, guarded, *]

theorem execMeterSnapshot_fixed {t : Nat} {s : State} {s' : State} (h : execMeterSnapshot t s = .next s') : s'.fixed = s.fixed := by
  unfold execMeterSnapshot at h
  cases h
  split <;> simp only [↓State.blackBox_fixed, ↓State.at__fixed, fixed_mk, guarded]

theorem execHistoryPeriod_fixed {t : Nat} {s : State} {s' : State} (h : execHistoryPeriod t s = .next s') : s'.fixed = s.fixed := by
  unfold execHistoryPeriod at h
  cases h
  split <;> simp only [↓State.blackBox_fixed, ↓State.historyBody_fixed, ↓State.at__fixed, State.modTrust, fixed_mk, guarded]

theorem execTrustChallenge_fixed {t : Nat} {c : Cmd} {s : State} {s' : State} (h : execTrustChallenge t c s = .next s') : s'.fixed = s.fixed := by
  unfold execTrustChallenge at h
  cases h
  refine State.serve_fixed (fun u hu => ?_) (State.at__fixed ..)
  have hn : ∀ (v : State) (n : Option (List Byte × Nat)), (v.modTrust fun x => { x with nonce := n }).fixed = v.fixed := fun _ _ => rfl
  refine (State.completeData_fixed ..).trans ?_
  split
  · exact (hn _ _).trans ((State.drawBytes_fixed ..).trans hu)
  · exact (State.sign_fixed ..).trans ((hn _ _).trans ((State.drawBytes_fixed ..).trans hu))

theorem execFirewallViolation_fixed {t : Nat} {s : State} {s' : State} (h : execFirewallViolation t s = .next s') : s'.fixed = s.fixed := by
  unfold execFirewallViolation at h
  cases h
  simp only [↓State.at__fixed, State.modTrust, fixed_mk, guarded]

theorem execFirmwareStage_fixed {t : Nat} {c : Cmd} {data : List Byte} {s : State} {s' : State} (h : execFirmwareStage t c data s = .next s') : s'.fixed = s.fixed := by
  unfold execFirmwareStage at h
  cases h
  repeat' first
    | with_reducible rfl
    | with_reducible apply fixed_ite
    | with_reducible refine State.serve_fixed (fun _ ht => ?_) ?_
    | (simp only [↓State.at__fixed, ↓State.stageFirmware_fixed, fixed_mk, *]; done)
    | split
    | simp only [↓State.at__fixed, ↓State.stageFirmware_fixed, fixed_mk, guarded, *]

theorem execFirmwareFrameReceive_fixed {t : Nat} {bytes : List Byte} {s : State} {s' : State} (h : execFirmwareFrameReceive t bytes s = .next s') : s'.fixed = s.fixed := by
  unfold execFirmwareFrameReceive at h
  cases h
  repeat' first
    | with_reducible rfl
    | with_reducible apply fixed_ite
    | with_reducible refine State.serve_fixed (fun _ ht => ?_) ?_
    | (simp only [↓State.assemble_fixed, ↓State.accept_fixed, ↓State.at__fixed, ↓State.stageFirmware_fixed, fixed_mk, *]; done)
    | split
    | simp only [↓State.assemble_fixed, ↓State.accept_fixed, ↓State.at__fixed, ↓State.stageFirmware_fixed, fixed_mk, guarded, *]

theorem execFirmwareVerify_fixed {t : Nat} {c : Cmd} {s : State} {s' : State} (h : execFirmwareVerify t c s = .next s') : s'.fixed = s.fixed := by
  unfold execFirmwareVerify at h
  cases h
  repeat' first
    | with_reducible rfl
    | with_reducible apply fixed_ite
    | with_reducible refine State.withStaged_fixed (fun _ _ ht => ?_) ?_
    | with_reducible refine State.withStaged_fixed (fun _ _ ht2 => ?_) ?_
    | with_reducible refine State.serve_fixed (fun _ ht => ?_) ?_
    | (simp only [↓State.at__fixed, ↓State.complete_fixed, fixed_mk, *]; done)
    | split
    | simp only [↓State.at__fixed, ↓State.complete_fixed, fixed_mk, guarded, *]

theorem execFirmwareActivate_fixed {t : Nat} {c : Cmd} {starts : Bool} {s : State} {s' : State} (h : execFirmwareActivate t c starts s = .next s') : s'.fixed = s.fixed := by
  unfold execFirmwareActivate at h
  cases h
  repeat' first
    | with_reducible rfl
    | with_reducible apply fixed_ite
    | with_reducible refine State.withStaged_fixed (fun _ _ ht => ?_) ?_
    | with_reducible refine State.withStaged_fixed (fun _ _ ht2 => ?_) ?_
    | with_reducible refine State.serve_fixed (fun _ ht => ?_) ?_
    | (simp only [↓State.startActivation_fixed, ↓State.at__fixed, ↓State.complete_fixed, State.modTrust, fixed_mk, *]; done)
    | split
    | simp only [↓State.startActivation_fixed, ↓State.at__fixed, ↓State.complete_fixed, State.modTrust, fixed_mk, guarded, *]

theorem execFirmwareReturnPrevious_fixed {t : Nat} {c : Cmd} {starts : Bool} {s : State} {s' : State} (h : execFirmwareReturnPrevious t c starts s = .next s') : s'.fixed = s.fixed := by
  unfold execFirmwareReturnPrevious at h
  cases h
  repeat' first
    | with_reducible rfl
    | with_reducible apply fixed_ite
    | with_reducible refine State.serve_fixed (fun _ ht => ?_) ?_
    | (simp only [↓State.startActivation_fixed, ↓State.at__fixed, ↓State.verifyImage_fixed, ↓State.complete_fixed, fixed_mk, *]; done)
    | split
    | simp only [↓State.startActivation_fixed, ↓State.at__fixed, ↓State.verifyImage_fixed, ↓State.complete_fixed, fixed_mk, guarded, *]

theorem execSpanReady_fixed {t : Nat} {s : State} {s' : State} (h : execSpanReady t s = .next s') : s'.fixed = s.fixed := by
  unfold execSpanReady at h
  cases h
  repeat' first
    | with_reducible rfl
    | with_reducible apply fixed_ite
    | (simp only [↓State.noteImage_fixed, ↓State.flipSpan_fixed, ↓State.at__fixed, ↓State.actDue_fixed, ↓State.complete_fixed, fixed_mk]; done)
    | split
    | simp only [↓State.noteImage_fixed, ↓State.flipSpan_fixed, ↓State.at__fixed, ↓State.actDue_fixed, ↓State.complete_fixed, fixed_mk, guarded]

theorem execSpanReadyTimeout_fixed {t : Nat} {s : State} {s' : State} (h : execSpanReadyTimeout t s = .next s') : s'.fixed = s.fixed := by
  unfold execSpanReadyTimeout at h
  cases h
  repeat' first
    | with_reducible rfl
    | with_reducible apply fixed_ite
    | (simp only [↓State.noteImage_fixed, ↓State.at__fixed, ↓State.actDue_fixed, ↓State.complete_fixed, State.modTrust, fixed_mk]; done)
    | split
    | simp only [↓State.noteImage_fixed, ↓State.at__fixed, ↓State.actDue_fixed, ↓State.complete_fixed, State.modTrust, fixed_mk, guarded]

theorem execSpanStop_fixed {t : Nat} {s : State} {s' : State} (h : execSpanStop t s = .next s') : s'.fixed = s.fixed := by
  unfold execSpanStop at h
  cases h
  repeat' first
    | with_reducible rfl
    | with_reducible apply fixed_ite
    | (simp only [↓State.noteImage_fixed, ↓State.flipSpan_fixed, ↓State.at__fixed, ↓State.accrueTest_fixed, State.modTrust, fixed_mk]; done)
    | split
    | simp only [↓State.noteImage_fixed, ↓State.flipSpan_fixed, ↓State.at__fixed, ↓State.accrueTest_fixed, State.modTrust, fixed_mk, guarded]

theorem execBlackboxRecordWrite_fixed {t : Nat} {okA okB : Bool} {s : State} {s' : State} (h : execBlackboxRecordWrite t okA okB s = .next s') : s'.fixed = s.fixed := by
  unfold execBlackboxRecordWrite at h
  cases h
  split <;> simp only [↓State.writeBb_fixed, ↓State.at__fixed, fixed_mk, guarded]

theorem execBlackboxRead_fixed {t : Nat} {c : Cmd} {s : State} {s' : State} (h : execBlackboxRead t c s = .next s') : s'.fixed = s.fixed := by
  unfold execBlackboxRead at h
  cases h
  repeat' first
    | with_reducible rfl
    | with_reducible apply fixed_ite
    | with_reducible refine State.serve_fixed (fun _ ht => ?_) ?_
    | (simp only [↓State.at__fixed, ↓State.completeData_fixed, fixed_mk, *]; done)
    | split
    | simp only [↓State.at__fixed, ↓State.completeData_fixed, fixed_mk, guarded, *]

theorem execDebugObserveOpen_fixed {t : Nat} {s : State} {s' : State} (h : execDebugObserveOpen t s = .next s') : s'.fixed = s.fixed := by
  unfold execDebugObserveOpen at h
  cases h
  split <;> simp only [↓State.event_fixed, ↓State.debugRecord_fixed, ↓State.at__fixed, State.modTrust, fixed_mk, guarded]

theorem execDebugFullOpen_fixed {t : Nat} {sig : List Byte} {keepAwake : Bool} {s : State} {s' : State} (h : execDebugFullOpen t sig keepAwake s = .next s') : s'.fixed = s.fixed := by
  unfold execDebugFullOpen at h
  cases h
  repeat' first
    | with_reducible rfl
    | with_reducible apply fixed_ite
    | (simp only [↓State.event_fixed, ↓State.debugRecord_fixed, ↓State.dropHops_fixed, ↓State.drawBytes_fixed, ↓State.at__fixed, ↓State.drainUrgent_fixed, ↓State.sendSafety_fixed, State.modTrust, fixed_mk]; done)
    | split
    | simp only [↓State.event_fixed, ↓State.debugRecord_fixed, ↓State.dropHops_fixed, ↓State.drawBytes_fixed, ↓State.at__fixed, ↓State.drainUrgent_fixed, ↓State.sendSafety_fixed, State.modTrust, fixed_mk, guarded]

theorem execDebugClose_fixed {t : Nat} {s : State} {s' : State} (h : execDebugClose t s = .next s') : s'.fixed = s.fixed := by
  unfold execDebugClose at h
  cases h
  repeat' first
    | with_reducible rfl
    | with_reducible apply fixed_ite
    | (simp only [↓State.askLow_fixed, ↓State.at__fixed, ↓State.closeSession_fixed, ↓State.tryEnter_fixed, State.modTrust, fixed_mk]; done)
    | split
    | simp only [↓State.askLow_fixed, ↓State.at__fixed, ↓State.closeSession_fixed, ↓State.tryEnter_fixed, State.modTrust, fixed_mk, guarded]

end Sys2Proof.Machine
end

