-- ==== Sys2Proof/Laws/KeptCommands.lean ====
section
/-! SUPPORT. Link, Locus and host-queue operations and commands that leave the dies and most of the hub alone. -/

namespace Sys2Proof.Machine

set_option linter.all false
set_option maxRecDepth 4000

theorem State.drawBits_kept (s : State) (w : Nat) : (State.drawBits s w).2.kept = s.kept := rfl

theorem State.noteHolder_kept (s : State) : (State.noteHolder s).kept = s.kept := by
  unfold State.noteHolder
  split <;> simp only [kept_mk, keptParts, still_evtSeq, still_bbWait]

theorem State.holderAnew_kept (s : State) : (State.holderAnew s).kept = s.kept := rfl

theorem State.noteForward_kept (s : State) (side : Side) (f : Frame) : (State.noteForward s side f).kept = s.kept := by
  unfold State.noteForward
  split <;> simp only [kept_mk, keptParts, still_evtSeq, still_bbWait]

theorem State.at__kept (s : State) (t : Nat) : (s.at_ t).kept = { s.kept with now := s.clock t } := rfl

theorem State.linkNotice_kept (s : State) (side : Side) (code : Nat) : (State.linkNotice s side code).kept = s.kept := by
  unfold State.linkNotice
  simp only [↓State.originate_kept, kept_mk, keptParts, still_evtSeq, still_bbWait]

theorem State.routeChange_kept (s : State) (side : Side) (code : Nat) : (State.routeChange s side code).kept = s.kept := by
  unfold State.routeChange
  simp only [↓State.linkNotice_kept, ↓State.event_kept, ↓State.noteHolder_kept, kept_mk, keptParts, still_evtSeq, still_bbWait]

theorem State.hopDown_kept (s : State) (side : Side) : (State.hopDown s side).kept = s.kept := by
  unfold State.hopDown
  repeat' first
    | with_reducible rfl
    | with_reducible apply kept_ite
    | with_reducible refine (foldl_kept (fun _ _ => ?_) _ _).trans ?_
    | (simp only [↓State.routeChange_kept, ↓State.modPort_kept, ↓State.egress_kept, kept_mk]; done)
    | split
    | simp only [↓State.routeChange_kept, ↓State.modPort_kept, ↓State.egress_kept, kept_mk, keptParts, still_evtSeq, still_bbWait]

theorem State.hopUp_kept (s : State) (side : Side) : (State.hopUp s side).kept = s.kept := by
  unfold State.hopUp
  repeat' first
    | with_reducible rfl
    | with_reducible apply kept_ite
    | (simp only [↓State.modPort_kept, ↓State.routeChange_kept, ↓State.flushUnrouted_kept, kept_mk]; done)
    | split
    | simp only [↓State.modPort_kept, ↓State.routeChange_kept, ↓State.flushUnrouted_kept, kept_mk, keptParts, still_evtSeq, still_bbWait]

theorem State.startTraining_kept (s : State) (side : Side) : (State.startTraining s side).kept = s.kept := by
  unfold State.startTraining
  simp only [↓State.modPort_kept, ↓State.emit_kept, kept_mk, keptParts, still_evtSeq, still_bbWait]

theorem State.sendKeying_kept (s : State) (side : Side) (rekey : Bool) (b : List Byte) : (State.sendKeying s side rekey b).kept = s.kept := by
  unfold State.sendKeying
  split <;> simp only [↓State.enqueue_kept, ↓State.emit_kept, kept_mk, keptParts, still_evtSeq, still_bbWait]

theorem State.startKeying_kept (s : State) (side : Side) (rekey : Bool) : (State.startKeying s side rekey).kept = s.kept := by
  unfold State.startKeying
  simp only [↓State.drawBits_kept, ↓State.modPort_kept, ↓State.sendKeying_kept, kept_mk, keptParts, still_evtSeq, still_bbWait]

theorem State.refuseKeying_kept (s : State) (side : Side) : (State.refuseKeying s side).kept = s.kept := by
  unfold State.refuseKeying
  simp only [↓State.modPort_kept, ↓State.event_kept, kept_mk, keptParts, still_evtSeq, still_bbWait]

theorem State.installKeys_kept (s : State) (side : Side) (k : Keying) (peer : Nat × Nat) : (State.installKeys s side k peer).kept = s.kept := by
  unfold State.installKeys
  simp only [↓State.modPort_kept, kept_mk, keptParts, still_evtSeq, still_bbWait]

theorem State.takeSignature_kept (s : State) (side : Side) (b : List Byte) : (State.takeSignature s side b).kept = s.kept := by
  unfold State.takeSignature
  repeat' first
    | with_reducible rfl
    | with_reducible apply kept_ite
    | (simp only [↓State.installKeys_kept, ↓State.refuseKeying_kept, ↓State.hopUp_kept, kept_mk]; done)
    | split
    | simp only [↓State.installKeys_kept, ↓State.refuseKeying_kept, ↓State.hopUp_kept, kept_mk, keptParts, still_evtSeq, still_bbWait]

theorem State.modHif_kept (s : State) (f : HifState → HifState) : (State.modHif s f).kept = s.kept := rfl

theorem State.raiseVector_kept (s : State) (v : Nat) : (State.raiseVector s v).kept = s.kept := by
  unfold State.raiseVector
  split <;> simp only [↓State.modHif_kept, ↓State.emit_kept, kept_mk, keptParts, still_evtSeq, still_bbWait]

theorem State.signal_kept {s : State} {q : Queue} {put : Queue → State → State}
    (h : ∀ q s, (put q s).kept = s.kept) : (s.signal q put).kept = s.kept := by
  unfold State.signal
  exact kept_ite rfl (kept_ite (State.raiseVector_kept ..) (kept_ite rfl (h _ _)))

theorem State.putCq_kept (n : Nat) (q : Queue) (s : State) : (State.putCq n q s).kept = s.kept := by
  unfold State.putCq
  simp only [↓State.modHif_kept, kept_mk, keptParts, still_evtSeq, still_bbWait]

theorem State.putStr_kept (r : Nat) (q : Queue) (s : State) : (State.putStr r q s).kept = s.kept := by
  unfold State.putStr
  simp only [↓State.modHif_kept, kept_mk, keptParts, still_evtSeq, still_bbWait]

theorem State.putEq_kept (q : Queue) (s : State) : (State.putEq q s).kept = s.kept := by
  unfold State.putEq
  simp only [↓State.modHif_kept, kept_mk, keptParts, still_evtSeq, still_bbWait]

theorem State.putSq_kept (n : Nat) (q : Queue) (s : State) : (State.putSq n q s).kept = s.kept := by
  unfold State.putSq
  simp only [↓State.modHif_kept, kept_mk, keptParts, still_evtSeq, still_bbWait]

theorem State.hifFatal_kept (s : State) (code : Nat) : (State.hifFatal s code).kept = s.kept := by
  unfold State.hifFatal
  simp only [↓State.modHif_kept, ↓State.raiseVector_kept, kept_mk, keptParts, still_evtSeq, still_bbWait]

theorem State.queueError_kept (s : State) (kind idx err : Nat) : (State.queueError s kind idx err).kept = s.kept := by
  unfold State.queueError
  simp only [↓State.event_kept, kept_mk, keptParts, still_evtSeq, still_bbWait]

theorem State.checkDrain_kept (s : State) : (State.checkDrain s).kept = s.kept := by
  unfold State.checkDrain
  repeat' first
    | with_reducible rfl
    | with_reducible apply kept_ite
    | (simp only [↓State.modHif_kept, kept_mk]; done)
    | split
    | simp only [↓State.modHif_kept, kept_mk, keptParts, still_evtSeq, still_bbWait]

theorem State.wakePart_kept (s : State) (pos state : Nat) : (State.wakePart s pos state).kept = s.kept := by
  unfold State.wakePart
  simp only [↓State.emit_kept, kept_mk, keptParts, still_evtSeq, still_bbWait]

theorem State.castAsleep_kept (s : State) (x : InFlight) : (State.castAsleep s x).kept = s.kept := by
  unfold State.castAsleep
  repeat' first
    | with_reducible rfl
    | with_reducible apply kept_ite
    | with_reducible refine (foldl_kept (fun _ _ => ?_) _ _).trans ?_
    | (simp only [↓State.takeCompletion_kept, ↓State.wakePart_kept, kept_mk]; done)
    | split
    | simp only [↓State.takeCompletion_kept, ↓State.wakePart_kept, kept_mk, keptParts, still_evtSeq, still_bbWait]

theorem State.awake_kept (s : State) (pos : Nat) : (State.awake s pos).kept = s.kept := by
  unfold State.awake
  repeat' first
    | with_reducible rfl
    | with_reducible apply kept_ite
    | with_reducible refine (foldl_kept (fun _ _ => ?_) _ _).trans ?_
    | (simp only [↓State.modHif_kept, ↓State.takeCompletion_kept, kept_mk]; done)
    | split
    | simp only [↓State.modHif_kept, ↓State.takeCompletion_kept, kept_mk, keptParts, still_evtSeq, still_bbWait]

theorem State.openRemote_kept (s : State) (x : InFlight) (body : List Byte) : (State.openRemote s x body).kept = s.kept := by
  unfold State.openRemote
  split <;> simp only [↓State.originate_kept, ↓State.modHif_kept, ↓State.queueCompletion_kept, kept_mk, keptParts, still_evtSeq, still_bbWait]

theorem State.finishRead_kept (s : State) (c : Cmd) (lost : List Nat) (got : List (Nat × List Byte)) : (State.finishRead s c lost got).kept = s.kept := by
  unfold State.finishRead
  simp only [↓State.completeData_kept, kept_mk, keptParts, still_evtSeq, still_bbWait]

theorem State.endClosed_kept (s : State) : (State.endClosed s).kept = s.kept := by
  unfold State.endClosed
  repeat' first
    | with_reducible rfl
    | with_reducible apply kept_ite
    | with_reducible refine (foldl_kept (fun _ _ => ?_) _ _).trans ?_
    | (simp only [↓State.modHif_kept, ↓State.completeOpt_kept, kept_mk]; done)
    | split
    | simp only [↓State.modHif_kept, ↓State.completeOpt_kept, kept_mk, keptParts, still_evtSeq, still_bbWait]

theorem State.sign_kept (s : State) (key : Nat) (msg : List Byte) : (State.sign s key msg).2.kept = s.kept := by
  unfold State.sign
  simp only [↓State.drawBits_kept, kept_mk, keptParts, still_evtSeq, still_bbWait]

theorem State.noteImage_kept (s : State) (kind sub : Nat) (b : List Byte) : (State.noteImage s kind sub b).kept = s.kept := by
  unfold State.noteImage
  simp only [↓State.blackBox_kept, ↓State.event_kept, kept_mk, keptParts, still_evtSeq, still_bbWait]

theorem State.bbBytes_kept (s : State) (w : BbWait) (unsign : Bool) : (State.bbBytes s w unsign).2.kept = s.kept := by
  unfold State.bbBytes
  split <;> simp only [↓State.sign_kept, kept_mk, keptParts, still_evtSeq, still_bbWait]

theorem State.debugRecord_kept (s : State) (level : Nat) (awake : Bool) (signer : List Byte) : (State.debugRecord s level awake signer).kept = s.kept := by
  unfold State.debugRecord
  simp only [↓State.blackBox_kept, kept_mk, keptParts, still_evtSeq, still_bbWait]

theorem State.becomeFrontier_kept (s : State) : (State.becomeFrontier s).kept = s.kept := rfl

theorem State.tagFailure_kept (s : State) (side : Side) : (State.tagFailure s side).kept = s.kept := by
  unfold State.tagFailure
  repeat' first
    | with_reducible rfl
    | with_reducible apply kept_ite
    | (simp only [↓State.modPort_kept, ↓State.hopDown_kept, ↓State.event_kept, kept_mk]; done)
    | split
    | simp only [↓State.modPort_kept, ↓State.hopDown_kept, ↓State.event_kept, kept_mk, keptParts, still_evtSeq, still_bbWait]

theorem State.exchange_kept (s : State) (side : Side) (b : List Byte) : (State.exchange s side b).kept = s.kept := by
  unfold State.exchange
  repeat' first
    | with_reducible rfl
    | with_reducible apply kept_ite
    | (simp only [↓State.modPort_kept, kept_mk]; done)
    | split
    | simp only [↓State.modPort_kept, kept_mk, keptParts, still_evtSeq, still_bbWait]

theorem State.queueBeacon_kept (s : State) (side : Side) (f : Frame) (corr : Nat) : (State.queueBeacon s side f corr).kept = s.kept := by
  unfold State.queueBeacon
  simp only [↓State.enqueue_kept, kept_mk, keptParts, still_evtSeq, still_bbWait]

theorem State.commitPackTime_kept (s : State) : (State.commitPackTime s).kept = s.kept := by
  unfold State.commitPackTime
  split <;> simp only [kept_mk, keptParts, still_evtSeq, still_bbWait]

theorem State.bucketFlag_kept (s : State) : (State.bucketFlag s).kept = s.kept := by
  unfold State.bucketFlag
  repeat' first
    | with_reducible rfl
    | with_reducible apply kept_ite
    | (simp only [↓State.placement_kept, kept_mk]; done)
    | split
    | simp only [↓State.placement_kept, kept_mk, keptParts, still_evtSeq, still_bbWait]

theorem State.failStore_kept (s : State) : (State.failStore s).kept = s.kept := by
  unfold State.failStore
  split <;> simp only [↓State.writer_kept, ↓State.placement_kept, kept_mk, keptParts, still_evtSeq, still_bbWait]

theorem State.takeUnits_kept {s : State} {but : List Nat} {n : Nat} {r : List Nat × State} (h : s.takeUnits but n = some r) :
    r.2.kept = s.kept := by
  induction n generalizing s r with
  | zero => cases h; rfl
  | succ m ih =>
    unfold State.takeUnits at h
    obtain ⟨b, hb, h⟩ := Option.bind_eq_some_iff.1 h
    obtain ⟨x, hx, rfl⟩ := Option.map_eq_some_iff.1 h
    exact (ih hx).trans (State.targetBlock_kept hb)

theorem State.copyBlock_kept {s t : State} {i : Nat} (h : s.copyBlock i = some t) : t.kept = s.kept := by
  unfold State.copyBlock at h
  have key : ∀ (l : List (List Rec)) (f : State → List Rec → Option State) (_ : ∀ u r v, f u r = some v → v.kept = u.kept)
      (o : Option State), l.foldl (fun acc r => acc.bind fun u => f u r) o = some t → ∃ u, o = some u ∧ t.kept = u.kept := by
    intro l f hf
    induction l with
    | nil => exact fun o h => ⟨t, h, rfl⟩
    | cons a l ih =>
      intro o h
      obtain ⟨u, hu, ht⟩ := ih _ h
      obtain ⟨v, hv, hf'⟩ := Option.bind_eq_some_iff.1 hu
      exact ⟨v, hv, ht.trans (hf _ _ _ hf')⟩
  obtain ⟨u, hu, ht⟩ := key _ _ (fun u r v hv => by
    obtain ⟨x, hx, rfl⟩ := Option.map_eq_some_iff.1 hv
    exact (State.takeUnits_kept hx)) _ h
  cases hu
  exact ht

theorem State.levelWear_kept (s : State) : s.levelWear.kept = s.kept := by
  unfold State.levelWear
  dsimp only
  split
  · rfl
  · refine kept_ite rfl ?_
    split
    · rfl
    · rename_i t h
      exact (show _ = t.kept from rfl).trans (State.copyBlock_kept h)

theorem State.moveRetired_kept (s : State) : s.moveRetired.kept = s.kept := by
  unfold State.moveRetired
  refine foldl_kept (fun s b => kept_ite rfl ?_) _ _
  cases h : s.copyBlock b.idx with
  | none => rfl
  | some t => exact State.copyBlock_kept h

theorem State.retireBlock_kept (s : State) (i : Nat) : (s.retireBlock i).kept = s.kept := by
  unfold State.retireBlock
  exact kept_ite ((State.failStore_kept _).trans ((State.placement_kept ..).trans rfl))
    ((State.moveRetired_kept _).trans ((State.placement_kept ..).trans rfl))

theorem State.spillUnit_kept (s : State) (u : OpenUnit) (holder : Nat) : (State.spillUnit s u holder).kept = s.kept := by
  unfold State.spillUnit
  repeat' first
    | with_reducible rfl
    | with_reducible apply kept_ite
    | with_reducible refine (foldl_kept (fun _ _ => ?_) _ _).trans ?_
    | (simp only [↓State.originate_kept, kept_mk]; done)
    | split
    | simp only [↓State.originate_kept, kept_mk, keptParts, still_evtSeq, still_bbWait]

theorem State.programUnit_kept (s : State) (u : OpenUnit) (i : Nat) : (s.programUnit u i).kept = s.kept := by
  unfold State.programUnit
  exact (State.bucketFlag_kept _).trans ((State.levelWear_kept _).trans rfl)

theorem State.programHead_kept (s : State) (ok : Bool) : (s.programHead ok).kept = s.kept := by
  unfold State.programHead
  split
  · rfl
  · dsimp only
    split
    · exact kept_ite ((State.writer_kept _).trans ((State.programUnit_kept ..).trans rfl))
        ((State.writer_kept _).trans ((State.retireBlock_kept ..).trans rfl))
    · refine kept_ite rfl ?_
      split
      · rfl
      · exact kept_ite ((State.writer_kept _).trans ((State.spillUnit_kept ..).trans rfl)) rfl

theorem State.startPoll_kept (s : State) : (State.startPoll s).kept = s.kept := by
  unfold State.startPoll
  simp only [↓State.modHif_kept, ↓State.emit_kept, kept_mk, keptParts, still_evtSeq, still_bbWait]

theorem State.unmask_kept (s : State) (v : Nat) : (State.unmask s v).kept = s.kept := by
  unfold State.unmask
  repeat' first
    | with_reducible rfl
    | with_reducible apply kept_ite
    | (simp only [↓State.modHif_kept, ↓State.emit_kept, kept_mk]; done)
    | split
    | simp only [↓State.modHif_kept, ↓State.emit_kept, kept_mk, keptParts, still_evtSeq, still_bbWait]

theorem State.takeSqTail_kept (s : State) (n w : Nat) : (State.takeSqTail s n w).kept = s.kept := by
  unfold State.takeSqTail
  repeat' first
    | with_reducible rfl
    | with_reducible apply kept_ite
    | (simp only [↓State.queueError_kept, ↓State.putSq_kept, kept_mk]; done)
    | split
    | simp only [↓State.queueError_kept, ↓State.putSq_kept, kept_mk, keptParts, still_evtSeq, still_bbWait]

theorem State.takeCqHead_kept (s : State) (n w : Nat) : (State.takeCqHead s n w).kept = s.kept := by
  unfold State.takeCqHead
  repeat' first
    | with_reducible rfl
    | with_reducible apply kept_ite
    | (simp only [↓State.queueError_kept, ↓State.putCq_kept, kept_mk]; done)
    | split
    | simp only [↓State.queueError_kept, ↓State.putCq_kept, kept_mk, keptParts, still_evtSeq, still_bbWait]

theorem State.takeEqHead_kept (s : State) (w : Nat) : (State.takeEqHead s w).kept = s.kept := by
  unfold State.takeEqHead
  repeat' first
    | with_reducible rfl
    | with_reducible apply kept_ite
    | (simp only [↓State.putEq_kept, ↓State.queueError_kept, kept_mk]; done)
    | split
    | simp only [↓State.putEq_kept, ↓State.queueError_kept, kept_mk, keptParts, still_evtSeq, still_bbWait]

theorem State.takeStrHead_kept (s : State) (r w : Nat) : (State.takeStrHead s r w).kept = s.kept := by
  unfold State.takeStrHead
  repeat' first
    | with_reducible rfl
    | with_reducible apply kept_ite
    | with_reducible refine (foldl_kept (fun _ _ => ?_) _ _).trans ?_
    | (simp only [↓State.unclaim_kept, ↓State.modHif_kept, ↓State.putStr_kept, ↓State.queueError_kept, kept_mk]; done)
    | split
    | simp only [↓State.unclaim_kept, ↓State.modHif_kept, ↓State.putStr_kept, ↓State.queueError_kept, kept_mk, keptParts, still_evtSeq, still_bbWait]

theorem State.writeEntry_kept (s : State) (addr : Nat) (head body last : List Byte) : (State.writeEntry s addr head body last).kept = s.kept := by
  unfold State.writeEntry
  split <;> simp only [↓State.emit_kept, kept_mk, keptParts, still_evtSeq, still_bbWait]

theorem State.writeStream_kept (s : State) (w : StrWait) : (s.writeStream w).kept = s.kept := by
  unfold State.writeStream
  refine (State.signal_kept fun q s => State.putStr_kept ..).trans ?_
  exact (State.modHif_kept ..).trans ((State.putStr_kept ..).trans ((State.writeEntry_kept ..).trans (kept_ite (State.writeEntry_kept ..) rfl)))

theorem State.writeEvent_kept (s : State) (w : EvWait) : (s.writeEvent w).kept = s.kept := by
  unfold State.writeEvent
  refine (State.signal_kept fun q s => State.putEq_kept ..).trans ?_
  have h : ∀ (a : State) (l : LocusState), ({ a with locus := l } : State).kept = a.kept := fun _ _ => rfl
  exact (h _ _).trans ((State.modHif_kept ..).trans ((State.putEq_kept ..).trans (State.emit_kept ..)))

theorem State.coalesced_kept {s : State} {q : Queue} {put : Queue → State → State}
    (h : ∀ q s, (put q s).kept = s.kept) : (s.coalesced q put).kept = s.kept := by
  unfold State.coalesced
  split
  · rfl
  · exact kept_ite rfl ((State.raiseVector_kept ..).trans (h _ _))

theorem State.ownerRoom_kept {s t : State} {owner n fuel : Nat} (h : s.ownerRoom owner n fuel = some t) : t.kept = s.kept := by
  induction fuel generalizing s with
  | zero => cases h
  | succ m ih =>
    unfold State.ownerRoom at h
    split at h
    · cases h; rfl
    · split at h
      · cases h
      · exact (ih h).trans rfl

theorem State.takeSpill_kept (s : State) (owner : Nat) (x : List Byte) : (s.takeSpill owner x).kept = s.kept := by
  unfold State.takeSpill
  dsimp only
  refine kept_ite rfl ?_
  split
  · rfl
  · rename_i r h
    obtain ⟨u, hu, hr⟩ := Option.bind_eq_some_iff.mp h
    exact (State.writer_kept _).trans ((State.tierFor_kept hr).trans (State.ownerRoom_kept hu))

theorem State.answerHolder_kept (s : State) (pos owner recType src : Nat) : (State.answerHolder s pos owner recType src).kept = s.kept := by
  unfold State.answerHolder
  simp only [↓State.originate_kept, kept_mk, keptParts, still_evtSeq, still_bbWait]

theorem State.takeHeld_kept (s : State) (pos : Nat) (b : List Byte) : (State.takeHeld s pos b).kept = s.kept := by
  unfold State.takeHeld
  repeat' first
    | with_reducible rfl
    | with_reducible apply kept_ite
    | with_reducible refine (foldl_kept (fun _ _ => ?_) _ _).trans ?_
    | (simp only [↓State.finishRead_kept, kept_mk]; done)
    | split
    | simp only [↓State.finishRead_kept, kept_mk, keptParts, still_evtSeq, still_bbWait]

theorem State.historyBody_kept (s : State) : (State.historyBody s).2.kept = s.kept := by
  unfold State.historyBody
  repeat' first
    | with_reducible rfl
    | with_reducible apply kept_ite
    | with_reducible refine (foldl_kept (fun _ _ => ?_) _ _).trans ?_
    | (simp only [↓State.drawBits_kept, kept_mk]; done)
    | split
    | simp only [↓State.drawBits_kept, kept_mk, keptParts, still_evtSeq, still_bbWait]

theorem execDiscoverSend_kept {t : Nat} {s : State} {s' : State} (h : execDiscoverSend t s = .next s') : s'.kept = { s.kept with now := s.clock t } := by
  unfold execDiscoverSend at h
  cases h
  repeat' first
    | with_reducible rfl
    | with_reducible apply kept_ite
    | (simp only [↓State.at__kept, ↓State.emit_kept, kept_mk]; done)
    | split
    | simp only [↓State.at__kept, ↓State.emit_kept, kept_mk, keptParts, still_evtSeq, still_bbWait]

theorem execFrameForward_kept {t : Nat} {side : Side} {bytes : List Byte} {s : State} {s' : State} (h : execFrameForward t side bytes s = .next s') : s'.kept = { s.kept with now := s.clock t } := by
  unfold execFrameForward at h
  cases h
  repeat' first
    | with_reducible rfl
    | with_reducible apply kept_ite
    | (simp only [↓State.egress_kept, ↓State.at__kept, ↓State.enqueue_kept, ↓State.countNoRoute_kept, ↓State.noteForward_kept, kept_mk]; done)
    | split
    | simp only [↓State.egress_kept, ↓State.at__kept, ↓State.enqueue_kept, ↓State.countNoRoute_kept, ↓State.noteForward_kept, kept_mk, keptParts, still_evtSeq, still_bbWait]

theorem execMseqGapRelease_kept {t origin tc flow : Nat} {s : State} {s' : State} (h : execMseqGapRelease t origin tc flow s = .next s') : s'.kept = { s.kept with now := s.clock t } := by
  unfold execMseqGapRelease at h
  cases h
  repeat' first
    | with_reducible rfl
    | with_reducible apply kept_ite
    | with_reducible refine (foldl_kept (fun _ _ => ?_) _ _).trans ?_
    | (simp only [↓State.at__kept, kept_mk]; done)
    | split
    | simp only [↓State.at__kept, kept_mk, keptParts, still_evtSeq, still_bbWait]

theorem execLinkStateNoticeReceive_kept {t : Nat} {bytes : List Byte} {s : State} {s' : State} (h : execLinkStateNoticeReceive t bytes s = .next s') : s'.kept = { s.kept with now := s.clock t } := by
  unfold execLinkStateNoticeReceive at h
  cases h
  split <;> simp only [↓State.at__kept, ↓State.noteHolder_kept, ↓State.accept_kept, kept_mk, keptParts, still_evtSeq, still_bbWait]

theorem execCodewordBoundary_kept {t : Nat} {side : Side} {s : State} {s' : State} (h : execCodewordBoundary t side s = .next s') : s'.kept = { s.kept with now := s.clock t } := by
  unfold execCodewordBoundary at h
  cases h
  repeat' first
    | with_reducible rfl
    | with_reducible apply kept_ite
    | (simp only [↓State.emit_kept, ↓State.event_kept, ↓State.at__kept, ↓State.startTraining_kept, ↓State.modPort_kept, kept_mk]; done)
    | split
    | simp only [↓State.emit_kept, ↓State.event_kept, ↓State.at__kept, ↓State.startTraining_kept, ↓State.modPort_kept, kept_mk, keptParts, still_evtSeq, still_bbWait]

theorem execControlCodewordReceive_kept {t : Nat} {side : Side} {bytes : List Byte} {s : State} {s' : State} (h : execControlCodewordReceive t side bytes s = .next s') : s'.kept = { s.kept with now := s.clock t } := by
  unfold execControlCodewordReceive at h
  cases h
  repeat' first
    | with_reducible rfl
    | with_reducible apply kept_ite
    | (simp only [↓State.at__kept, ↓State.startTraining_kept, ↓State.exchange_kept, ↓State.modPort_kept, ↓State.hopDown_kept, ↓State.tagFailure_kept, kept_mk]; done)
    | split
    | simp only [↓State.at__kept, ↓State.startTraining_kept, ↓State.exchange_kept, ↓State.modPort_kept, ↓State.hopDown_kept, ↓State.tagFailure_kept, kept_mk, keptParts, still_evtSeq, still_bbWait]

theorem execTc0AckTimeout_kept {t : Nat} {side : Side} {s : State} {s' : State} (h : execTc0AckTimeout t side s = .next s') : s'.kept = { s.kept with now := s.clock t } := by
  unfold execTc0AckTimeout at h
  cases h
  repeat' first
    | with_reducible rfl
    | with_reducible apply kept_ite
    | (simp only [↓State.at__kept, ↓State.hopDown_kept, ↓State.modPort_kept, kept_mk]; done)
    | split
    | simp only [↓State.at__kept, ↓State.hopDown_kept, ↓State.modPort_kept, kept_mk, keptParts, still_evtSeq, still_bbWait]

theorem execFrameRetryTimeout_kept {t : Nat} {side : Side} {tc : Nat} {s : State} {s' : State} (h : execFrameRetryTimeout t side tc s = .next s') : s'.kept = { s.kept with now := s.clock t } := by
  unfold execFrameRetryTimeout at h
  cases h
  repeat' first
    | with_reducible rfl
    | with_reducible apply kept_ite
    | (simp only [↓State.at__kept, ↓State.hopDown_kept, ↓State.modPort_kept, kept_mk]; done)
    | split
    | simp only [↓State.at__kept, ↓State.hopDown_kept, ↓State.modPort_kept, kept_mk, keptParts, still_evtSeq, still_bbWait]

theorem execHopSilenceTimeout_kept {t : Nat} {side : Side} {s : State} {s' : State} (h : execHopSilenceTimeout t side s = .next s') : s'.kept = { s.kept with now := s.clock t } := by
  unfold execHopSilenceTimeout at h
  cases h
  split <;> simp only [↓State.at__kept, ↓State.hopDown_kept, kept_mk, keptParts, still_evtSeq, still_bbWait]

theorem execHopMarginTimeout_kept {t : Nat} {side : Side} {s : State} {s' : State} (h : execHopMarginTimeout t side s = .next s') : s'.kept = { s.kept with now := s.clock t } := by
  unfold execHopMarginTimeout at h
  cases h
  repeat' first
    | with_reducible rfl
    | with_reducible apply kept_ite
    | (simp only [↓State.at__kept, ↓State.hopDown_kept, kept_mk]; done)
    | split
    | simp only [↓State.at__kept, ↓State.hopDown_kept, kept_mk, keptParts, still_evtSeq, still_bbWait]

theorem execHopRouteRestore_kept {t : Nat} {side : Side} {s : State} {s' : State} (h : execHopRouteRestore t side s = .next s') : s'.kept = { s.kept with now := s.clock t } := by
  unfold execHopRouteRestore at h
  cases h
  split <;> simp only [↓State.at__kept, ↓State.routeChange_kept, ↓State.modPort_kept, kept_mk, keptParts, still_evtSeq, still_bbWait]

theorem execApcAdjust_kept {t : Nat} {side : Side} {margin : Margins} {s : State} {s' : State} (h : execApcAdjust t side margin s = .next s') : s'.kept = { s.kept with now := s.clock t } := by
  unfold execApcAdjust at h
  cases h
  split <;> simp only [↓State.at__kept, ↓State.modPort_kept, kept_mk, keptParts, still_evtSeq, still_bbWait]

theorem execHopRekey_kept {t : Nat} {side : Side} {s : State} {s' : State} (h : execHopRekey t side s = .next s') : s'.kept = { s.kept with now := s.clock t } := by
  unfold execHopRekey at h
  cases h
  split <;> simp only [↓State.at__kept, ↓State.startKeying_kept, kept_mk, keptParts, still_evtSeq, still_bbWait]

theorem execTimeBeaconSend_kept {t : Nat} {s : State} {s' : State} (h : execTimeBeaconSend t s = .next s') : s'.kept = { s.kept with now := s.clock t } := by
  unfold execTimeBeaconSend at h
  cases h
  repeat' first
    | with_reducible rfl
    | with_reducible apply kept_ite
    | (simp only [↓State.at__kept, ↓State.enqueue_kept, kept_mk]; done)
    | split
    | simp only [↓State.at__kept, ↓State.enqueue_kept, kept_mk, keptParts, still_evtSeq, still_bbWait]

theorem execTqHoldover_kept {t : Nat} {s : State} {s' : State} (h : execTqHoldover t s = .next s') : s'.kept = { s.kept with now := s.clock t } := by
  unfold execTqHoldover at h
  cases h
  repeat' first
    | with_reducible rfl
    | with_reducible apply kept_ite
    | (simp only [↓State.at__kept, kept_mk]; done)
    | split
    | simp only [↓State.at__kept, kept_mk, keptParts, still_evtSeq, still_bbWait]

theorem execPackTimeCommit_kept {t : Nat} {s : State} {s' : State} (h : execPackTimeCommit t s = .next s') : s'.kept = { s.kept with now := s.clock t } := by
  unfold execPackTimeCommit at h
  cases h
  split <;> simp only [↓State.at__kept, ↓State.commitPackTime_kept, kept_mk, keptParts, still_evtSeq, still_bbWait]

theorem execDoorbellPoll_kept {t : Nat} {s : State} {s' : State} (h : execDoorbellPoll t s = .next s') : s'.kept = { s.kept with now := s.clock t } := by
  unfold execDoorbellPoll at h
  cases h
  split <;> simp only [↓State.at__kept, ↓State.startPoll_kept, kept_mk, keptParts, still_evtSeq, still_bbWait]

theorem execDoorbellReadComplete_kept {t : Nat} {words : List Nat} {s : State} {s' : State} (h : execDoorbellReadComplete t words s = .next s') : s'.kept = { s.kept with now := s.clock t } := by
  unfold execDoorbellReadComplete at h
  cases h
  repeat' first
    | with_reducible rfl
    | with_reducible apply kept_ite
    | with_reducible refine (foldl_kept (fun _ _ => ?_) _ _).trans ?_
    | (simp only [↓State.takeCqHead_kept, ↓State.modHif_kept, ↓State.takeSqTail_kept, ↓State.at__kept, ↓State.takeStrHead_kept, ↓State.checkDrain_kept, ↓State.startPoll_kept, ↓State.takeEqHead_kept, kept_mk]; done)
    | split
    | simp only [↓State.takeCqHead_kept, ↓State.modHif_kept, ↓State.takeSqTail_kept, ↓State.at__kept, ↓State.takeStrHead_kept, ↓State.checkDrain_kept, ↓State.startPoll_kept, ↓State.takeEqHead_kept, kept_mk, keptParts, still_evtSeq, still_bbWait]

theorem execStreamEntryWrite_kept {t ring : Nat} {ok : Bool} {s : State} {s' : State} (h : execStreamEntryWrite t ring ok s = .next s') : s'.kept = { s.kept with now := s.clock t } := by
  unfold execStreamEntryWrite at h
  cases h
  repeat' first
    | with_reducible rfl
    | with_reducible apply kept_ite
    | (simp only [↓State.writeStream_kept, ↓State.putStr_kept, ↓State.queueError_kept, ↓State.at__kept, ↓State.checkDrain_kept, ↓State.endClosed_kept, kept_mk]; done)
    | split
    | simp only [↓State.writeStream_kept, ↓State.putStr_kept, ↓State.queueError_kept, ↓State.at__kept, ↓State.checkDrain_kept, ↓State.endClosed_kept, kept_mk, keptParts, still_evtSeq, still_bbWait]

theorem execEventEntryWrite_kept {t : Nat} {ok : Bool} {s : State} {s' : State} (h : execEventEntryWrite t ok s = .next s') : s'.kept = { s.kept with now := s.clock t } := by
  unfold execEventEntryWrite at h
  cases h
  repeat' first
    | with_reducible rfl
    | with_reducible apply kept_ite
    | (simp only [↓State.hifFatal_kept, ↓State.at__kept, ↓State.writeEvent_kept, ↓State.checkDrain_kept, kept_mk]; done)
    | split
    | simp only [↓State.hifFatal_kept, ↓State.at__kept, ↓State.writeEvent_kept, ↓State.checkDrain_kept, kept_mk, keptParts, still_evtSeq, still_bbWait]

theorem execInterruptCoalesceExpire_kept {t kind idx : Nat} {s : State} {s' : State} (h : execInterruptCoalesceExpire t kind idx s = .next s') : s'.kept = { s.kept with now := s.clock t } := by
  unfold execInterruptCoalesceExpire at h
  cases h
  repeat' first
    | with_reducible apply kept_ite
    | exact (State.coalesced_kept (fun _ _ => State.putCq_kept ..)).trans (State.at__kept ..)
    | exact (State.coalesced_kept (fun _ _ => State.putStr_kept ..)).trans (State.at__kept ..)
    | exact (State.coalesced_kept (fun _ _ => State.putEq_kept ..)).trans (State.at__kept ..)
    | exact State.at__kept ..

theorem execMsixUnmask_kept {t vector : Nat} {s : State} {s' : State} (h : execMsixUnmask t vector s = .next s') : s'.kept = { s.kept with now := s.clock t } := by
  unfold execMsixUnmask at h
  cases h
  split <;> simp only [↓State.at__kept, ↓State.unmask_kept, kept_mk, keptParts, still_evtSeq, still_bbWait]

theorem execEventDelayReport_kept {t : Nat} {s : State} {s' : State} (h : execEventDelayReport t s = .next s') : s'.kept = { s.kept with now := s.clock t } := by
  unfold execEventDelayReport at h
  cases h
  split <;> simp only [↓State.at__kept, ↓State.event_kept, ↓State.modHif_kept, kept_mk, keptParts, still_evtSeq, still_bbWait]

theorem execUnitProgramComplete_kept {t group : Nat} {ok : Bool} {s : State} {s' : State} (h : execUnitProgramComplete t group ok s = .next s') : s'.kept = { s.kept with now := s.clock t } := by
  unfold execUnitProgramComplete at h
  cases h
  repeat' first
    | with_reducible rfl
    | with_reducible apply kept_ite
    | (simp only [↓State.at__kept, ↓State.programHead_kept, kept_mk]; done)
    | split
    | simp only [↓State.at__kept, ↓State.programHead_kept, kept_mk, keptParts, still_evtSeq, still_bbWait]

theorem execD2UnitClose_kept {t : Nat} {s : State} {s' : State} (h : execD2UnitClose t s = .next s') : s'.kept = { s.kept with now := s.clock t } := by
  unfold execD2UnitClose at h
  cases h
  repeat' first
    | with_reducible rfl
    | with_reducible apply kept_ite
    | (simp only [↓State.at__kept, kept_mk]; done)
    | split
    | simp only [↓State.at__kept, kept_mk, keptParts, still_evtSeq, still_bbWait]

theorem execBucketAccrue_kept {t : Nat} {s : State} {s' : State} (h : execBucketAccrue t s = .next s') : s'.kept = { s.kept with now := s.clock t } := by
  unfold execBucketAccrue at h
  cases h
  split <;> simp only [↓State.at__kept, ↓State.moveRetired_kept, ↓State.startUnit_kept, ↓State.bucketFlag_kept, kept_mk, keptParts, still_evtSeq, still_bbWait]

theorem execStorageTempSample_kept {t : Nat} {temp : Int} {s : State} {s' : State} (h : execStorageTempSample t temp s = .next s') : s'.kept = { s.kept with now := s.clock t } := by
  unfold execStorageTempSample at h
  cases h
  repeat' first
    | with_reducible rfl
    | with_reducible apply kept_ite
    | with_reducible refine (foldl_kept (fun _ _ => ?_) _ _).trans ?_
    | (simp only [↓State.at__kept, ↓State.moveRetired_kept, ↓State.placement_kept, ↓State.writer_kept, kept_mk]; done)
    | split
    | simp only [↓State.at__kept, ↓State.moveRetired_kept, ↓State.placement_kept, ↓State.writer_kept, kept_mk, keptParts, still_evtSeq, still_bbWait]

theorem execBlockRefresh_kept {t block : Nat} {read : BlockRead} {s s' : State} (h : execBlockRefresh t block read s = .next s') :
    s'.kept = { s.kept with now := s.clock t } := by
  unfold execBlockRefresh at h
  cases h
  refine kept_ite (State.at__kept ..) ?_
  split
  · exact State.at__kept ..
  · rename_i r h
    have hr : r.kept = { s.kept with now := s.clock t } := (State.copyBlock_kept h).trans (State.at__kept ..)
    exact kept_ite ((State.writer_kept _).trans ((State.bucketFlag_kept _).trans ((State.retireBlock_kept ..).trans hr)))
      ((State.writer_kept _).trans ((State.bucketFlag_kept _).trans ((State.levelWear_kept _).trans ((show _ = State.kept _ from rfl).trans hr))))

theorem execStorageDieFail_kept {t : Nat} {s : State} {s' : State} (h : execStorageDieFail t s = .next s') : s'.kept = { s.kept with now := s.clock t } := by
  unfold execStorageDieFail at h
  cases h
  simp only [↓State.at__kept, ↓State.failStore_kept, kept_mk, keptParts, still_evtSeq, still_bbWait]

theorem execSpillHolderRechoose_kept {t : Nat} {candidates : List Nat} {s : State} {s' : State} (h : execSpillHolderRechoose t candidates s = .next s') : s'.kept = { s.kept with now := s.clock t } := by
  unfold execSpillHolderRechoose at h
  cases h
  repeat' first
    | with_reducible rfl
    | with_reducible apply kept_ite
    | (simp only [↓State.at__kept, ↓State.writer_kept, ↓State.placement_kept, kept_mk]; done)
    | split
    | simp only [↓State.at__kept, ↓State.writer_kept, ↓State.placement_kept, kept_mk, keptParts, still_evtSeq, still_bbWait]

theorem execRecordRetentionExpire_kept {t : Nat} {s : State} {s' : State} (h : execRecordRetentionExpire t s = .next s') : s'.kept = { s.kept with now := s.clock t } := by
  unfold execRecordRetentionExpire at h
  cases h
  simp only [↓State.at__kept, kept_mk, keptParts, still_evtSeq, still_bbWait]

theorem execRecordFrameReceive_kept {t : Nat} {bytes : List Byte} {s : State} {s' : State} (h : execRecordFrameReceive t bytes s = .next s') : s'.kept = { s.kept with now := s.clock t } := by
  unfold execRecordFrameReceive at h
  cases h
  repeat' first
    | with_reducible rfl
    | with_reducible apply kept_ite
    | (simp only [↓State.assemble_kept, ↓State.blackBox_kept, ↓State.answerHolder_kept, ↓State.takeSpill_kept, ↓State.originate_kept, ↓State.accept_kept, ↓State.at__kept, ↓State.claimAll_kept, ↓State.takeHeld_kept, kept_mk]; done)
    | split
    | simp only [↓State.assemble_kept, ↓State.blackBox_kept, ↓State.answerHolder_kept, ↓State.takeSpill_kept, ↓State.originate_kept, ↓State.accept_kept, ↓State.at__kept, ↓State.claimAll_kept, ↓State.takeHeld_kept, kept_mk, keptParts, still_evtSeq, still_bbWait]

theorem execSleepListenWindow_kept {t : Nat} {side : Side} {s : State} {s' : State} (h : execSleepListenWindow t side s = .next s') : s'.kept = { s.kept with now := s.clock t } := by
  unfold execSleepListenWindow at h
  cases h
  repeat' first
    | with_reducible rfl
    | with_reducible apply kept_ite
    | (simp only [↓State.at__kept, ↓State.modPort_kept, kept_mk]; done)
    | split
    | simp only [↓State.at__kept, ↓State.modPort_kept, kept_mk, keptParts, still_evtSeq, still_bbWait]

theorem execMeterSnapshot_kept {t : Nat} {s : State} {s' : State} (h : execMeterSnapshot t s = .next s') : s'.kept = { s.kept with now := s.clock t } := by
  unfold execMeterSnapshot at h
  cases h
  split <;> simp only [↓State.at__kept, ↓State.blackBox_kept, kept_mk, keptParts, still_evtSeq, still_bbWait]

end Sys2Proof.Machine
end

