-- ==== Sys2Proof/Laws/Lifecycle.lean ====
section
/-! SUPPORT. What the lifecycle commands and SVN_COMMIT do to the guarded part of the state. -/

namespace Sys2Proof.Machine

theorem modTrust_fixed_of {s : State} {f : TrustState → TrustState} :
    (s.modTrust f).fixed =
      { s.fixed with life := (f s.trust).life, journal := (f s.trust).journal, fuseReturned := (f s.trust).fuseReturned, fk := (f s.trust).fk,
                     ik := (f s.trust).ik, ownerRoot := (f s.trust).ownerRoot, sealed_ := (f s.trust).sealed_,
                     svnSpan := (f s.trust).svnSpan, svnApex := (f s.trust).svnApex, ownerGen := (f s.trust).ownerGen } := rfl

/-- A lifecycle command either leaves the guarded part alone or is an accepted action. -/
theorem State.lifecycle_cases (s : State) (c : Cmd) (data : List Byte) (f : State → LifeMsg → State) :
    (s.lifecycle c data f).fixed = s.fixed ∨
      ∃ u : State, u.fixed = s.fixed ∧ 0 < (lifeMsg data).action ∧ (lifeMsg data).action ≤ 5 ∧ s.lifeReason (lifeMsg data) = 0 ∧
        s.lifecycle c data f = f u (lifeMsg data) := by
  unfold State.lifecycle
  dsimp only
  split
  · exact .inl (State.complete_fixed ..)
  · split
    · exact .inl (State.complete_fixed ..)
    · rename_i hb
      have hn : ∀ g : TrustState → Option (List Byte × Nat), (s.modTrust fun x => { x with nonce := g x }).fixed = s.fixed := fun _ => rfl
      have hn' : ∀ b : Bool, (s.modTrust fun x => if b = true then { x with nonce := none } else x).fixed = s.fixed := by
        intro b; cases b <;> rfl
      have hr : (if s.trust.session = 2 then 4 else s.lifeReason (lifeMsg data)) = 0 → s.lifeReason (lifeMsg data) = 0 := by
        intro h
        split at h
        · cases h
        · exact h
      generalize (if s.trust.session = 2 then 4 else s.lifeReason (lifeMsg data)) = why at hr ⊢
      split
      · rename_i hw
        refine .inr ⟨_, hn' _, ?_, ?_, hr hw, rfl⟩
        · simp only [Bool.or_eq_true, decide_eq_true_eq, not_or] at hb
          omega
        · simp only [Bool.or_eq_true, decide_eq_true_eq, not_or] at hb
          omega
      · refine .inl ((State.complete_fixed ..).trans ?_)
        split
        · exact (State.event_fixed ..).trans (hn' _)
        · exact hn' _

/-- An accepted action starts from a state that allows it (R431). -/
theorem State.lifeReason_from {s : State} {m : LifeMsg} (h : s.lifeReason m = 0) : lifeFrom m.action s.trust.life = true := by
  unfold State.lifeReason at h
  dsimp only at h
  split at h
  · cases h
  · rename_i h1
    simpa using h1

theorem lifeFrom_ne3 {action life : Nat} (h : lifeFrom action life = true) : life ≠ 3 := by
  unfold lifeFrom at h
  intro h3
  subst h3
  split at h <;> simp at h


theorem journal_set_fixed (u : State) (n : Nat) : (u.modTrust fun x => { x with journal := n }).fixed = { u.fixed with journal := n } := rfl

theorem State.relocateStep_zero (s : State) :
    s.relocateStep 0 = (s.blackBox 0x03 true s.meterBody).modTrust fun x => { x with journal := 1 } := rfl
theorem State.relocateStep_one (s : State) : s.relocateStep 1 = (s.sendSafety 0x04 {}).modTrust fun x => { x with journal := 2 } := rfl
theorem State.relocateStep_two (s : State) :
    (s.relocateStep 2).fixed = { s.fixed with journal := 3, ik := none, ownerRoot := zeros 64, sealed_ := zeros 64 } := rfl
theorem State.relocateStep_three (s : State) : (s.relocateStep 3).fixed = { s.fixed with journal := 4, active := [] } := rfl
theorem State.relocateStep_four (s : State) :
    s.relocateStep 4 =
      ((s.drainUrgent.modTrust fun x => { x with ownerGen := (x.ownerGen + 1) % 256, life := 2 }).dropHops).modTrust
        fun x => { x with journal := 0 } := rfl

/-- The guarded part after RELOCATE from its first step (R433). -/
theorem State.relocateFrom_fixed (s : State) :
    (s.relocateFrom 0).fixed =
      { s.fixed with life := 2, journal := 0, ik := none, ownerRoot := zeros 64, sealed_ := zeros 64,
                     ownerGen := (s.fixed.ownerGen + 1) % 256, active := [] } := by
  have e : s.relocateFrom 0 = ((((s.relocateStep 0).relocateStep 1).relocateStep 2).relocateStep 3).relocateStep 4 := by
    unfold State.relocateFrom
    rw [show ([0, 1, 2, 3, 4].filter fun i => decide (0 ≤ i)) = [0, 1, 2, 3, 4] by decide]
    simp only [List.foldl]
  have h4 : ∀ u : State, (u.modTrust fun x => { x with ownerGen := (x.ownerGen + 1) % 256, life := 2 }).fixed =
      { u.fixed with life := 2, ownerGen := (u.fixed.ownerGen + 1) % 256 } := fun _ => rfl
  rw [e, State.relocateStep_four, journal_set_fixed, State.dropHops_fixed, h4, State.drainUrgent_fixed, State.relocateStep_three,
    State.relocateStep_two, State.relocateStep_one, journal_set_fixed, State.sendSafety_fixed, State.relocateStep_zero, journal_set_fixed,
    State.blackBox_fixed]

/-- The guarded part after RETURN (R434). -/
theorem State.runReturn_fixed (s : State) :
    s.runReturn.fixed =
      { s.fixed with life := 3, journal := 0, fuseReturned := true, fk := 0, ik := none, ownerRoot := zeros 64, sealed_ := zeros 64 } := by
  show ({ (State.writeAllBb _ _).fixed with life := 3, journal := 0, fuseReturned := true, fk := 0, ik := none, ownerRoot := zeros 64, sealed_ := zeros 64 } : Fixed) = _
  rw [State.writeAllBb_fixed, State.blackBox_fixed]

/-- SVN_COMMIT lets the fuse counts rise and leaves the rest alone (R450). -/
theorem execSvnCommit_fixed {t image : Nat} {s s' : State} (h : execSvnCommit t image s = .next s') :
    ∃ a b, s.trust.svnSpan ≤ a ∧ s.trust.svnApex ≤ b ∧ s'.fixed = { s.fixed with svnSpan := a, svnApex := b } := by
  unfold execSvnCommit at h
  cases h
  have e : ((s.at_ t).accrueTest).fixed = s.fixed := (State.accrueTest_fixed _).trans (State.at__fixed ..)
  have es : s.trust.svnSpan ≤ ((s.at_ t).accrueTest).trust.svnSpan := Nat.le_of_eq (congrArg Fixed.svnSpan e).symm
  have ea : s.trust.svnApex ≤ ((s.at_ t).accrueTest).trust.svnApex := Nat.le_of_eq (congrArg Fixed.svnApex e).symm
  rw [← e]
  generalize (s.at_ t).accrueTest = u at es ea
  have hspan : ∀ f : TrustState → Nat, (u.modTrust fun x => { x with svnSpan := max x.svnSpan (f x), trial := false }).fixed =
      { u.fixed with svnSpan := max u.trust.svnSpan (f u.trust) } := fun _ => rfl
  have hapex : ∀ n : Nat, (u.modTrust fun x => { x with svnApex := max x.svnApex n }).fixed =
      { u.fixed with svnApex := max u.trust.svnApex n } := fun _ => rfl
  split
  · split
    · exact ⟨_, _, es, ea, rfl⟩
    · exact ⟨_, _, Nat.le_trans es (Nat.le_max_left ..), ea, hspan fun x => imageSvn (u.spanImage x.slotB) % 64⟩
  · split
    · dsimp only
      split
      · exact ⟨_, _, es, ea, rfl⟩
      · exact ⟨_, _, es, Nat.le_trans ea (Nat.le_max_left ..), hapex _⟩
    · exact ⟨_, _, es, ea, rfl⟩

theorem State.serve_life {s : State} {code : Nat} {c : Cmd} {mine : Bool} {f : State → State} {x : Fixed}
    (h : ∀ t : State, t.fixed = x → x.lifeStep (f t).fixed) (hs : s.fixed = x) : x.lifeStep (s.serve code c mine f).fixed := by
  unfold State.serve
  have h0 : ((s.undoze).markRan c).fixed = x := ((State.markRan_fixed ..).trans (State.undoze_fixed _)).trans hs
  split
  · exact .inl hs
  · dsimp only
    split
    · exact .inl ((State.complete_fixed ..).trans h0)
    · exact h _ h0

/-- An accepted action on a state with the same guarded part. -/
theorem State.lifecycle_life {s : State} {c : Cmd} {data : List Byte} {f : State → LifeMsg → State} {x : Fixed} (hs : s.fixed = x)
    (h : ∀ u : State, u.fixed = x → x.life ≠ 3 → x.lifeStep (f u (lifeMsg data)).fixed) : x.lifeStep (s.lifecycle c data f).fixed := by
  rcases State.lifecycle_cases s c data f with e | ⟨u, hu, _, _, hr, e⟩
  · exact .inl (e.trans hs)
  · have h3 : x.life ≠ 3 := by
      have := lifeFrom_ne3 (State.lifeReason_from hr)
      rw [← hs]; exact this
    rw [e]
    exact h u (hu.trans hs) h3

theorem execLifeGenkey_fixed {t : Nat} {c : Cmd} {data : List Byte} {s s' : State} (h : execLifeGenkey t c data s = .next s') :
    s.fixed.lifeStep s'.fixed := by
  unfold execLifeGenkey at h
  cases h
  refine State.serve_life (fun u hu => ?_) (State.at__fixed ..)
  refine State.lifecycle_life hu (fun v hv h3 => ?_)
  refine .inr ⟨h3, .inl ⟨((v.drawBits 256).1 % (p256N - 1) + 1), ?_⟩⟩
  rw [State.complete_fixed, State.blackBox_fixed, State.lifeEvent_fixed, ← hv]
  rfl

/-- Both sets cleared. -/
theorem State.leaveBlank_fixed (s : State) : s.leaveBlank.fixed = { s.fixed with active := [] } := by
  unfold State.leaveBlank
  dsimp only
  rw [State.afterSwap_fixed]
  rfl

theorem execLifeSeal_fixed {t : Nat} {c : Cmd} {data : List Byte} {s s' : State} (h : execLifeSeal t c data s = .next s') :
    s.fixed.lifeStep s'.fixed := by
  unfold execLifeSeal at h
  cases h
  refine State.serve_life (fun u hu => ?_) (State.at__fixed ..)
  refine State.lifecycle_life hu (fun v hv h3 => ?_)
  refine .inr ⟨h3, .inr (.inl ⟨(lifeMsg ((s.at_ t).inData c data)).root, (lifeMsg ((s.at_ t).inData c data)).cfg, if v.trust.life == 0 then [] else v.fixed.active, ?_⟩)⟩
  rw [State.complete_fixed, State.sealRecord_fixed, State.lifeEvent_fixed]
  split
  · rw [State.leaveBlank_fixed, ← hv]; rfl
  · rw [← hv]; rfl

theorem execLifeUpdate_fixed {t : Nat} {c : Cmd} {data : List Byte} {s s' : State} (h : execLifeUpdate t c data s = .next s') :
    s.fixed.lifeStep s'.fixed := by
  unfold execLifeUpdate at h
  cases h
  refine State.serve_life (fun u hu => ?_) (State.at__fixed ..)
  refine State.lifecycle_life hu (fun v hv h3 => ?_)
  refine .inr ⟨h3, .inr (.inr (.inl ⟨(lifeMsg ((s.at_ t).inData c data)).cfg, ?_⟩))⟩
  rw [State.complete_fixed, State.sealRecord_fixed, State.lifeEvent_fixed, ← hv]
  rfl

theorem execLifeRelocate_fixed {t : Nat} {c : Cmd} {data : List Byte} {s s' : State} (h : execLifeRelocate t c data s = .next s') :
    s.fixed.lifeStep s'.fixed := by
  unfold execLifeRelocate at h
  cases h
  refine State.serve_life (fun u hu => ?_) (State.at__fixed ..)
  refine State.lifecycle_life hu (fun v hv h3 => ?_)
  refine .inr ⟨h3, .inr (.inr (.inr (.inl ?_)))⟩
  rw [State.strapToRole_fixed, State.afterSwap_fixed, State.relocateFrom_fixed, State.complete_fixed, State.lifeEvent_fixed, hv]

theorem execLifeReturn_fixed {t : Nat} {c : Cmd} {data : List Byte} {s s' : State} (h : execLifeReturn t c data s = .next s') :
    s.fixed.lifeStep s'.fixed := by
  unfold execLifeReturn at h
  cases h
  refine State.serve_life (fun u hu => ?_) (State.at__fixed ..)
  refine State.lifecycle_life hu (fun v hv h3 => ?_)
  refine .inr ⟨h3, .inr (.inr (.inr (.inr ⟨if v.trust.life == 0 then [] else v.fixed.active, ?_⟩)))⟩
  rw [State.strapToRole_fixed, State.dropHops_fixed, State.drainUrgent_fixed, State.complete_fixed]
  split
  · rw [State.runReturn_fixed, State.lifeEvent_fixed, State.leaveBlank_fixed, hv]
  · rw [State.runReturn_fixed, State.lifeEvent_fixed, hv]

/-- The swap changes the active set and its epoch and leaves the rest of the guarded part alone (R356). -/
theorem State.swapSets_fixed (s : State) (p : PendCommit) :
    (s.swapSets p).fixed = { s.fixed with active := cellMasked s.cfg.b, epoch := (s.cfg.epoch + 1) % 65536 } := by
  unfold State.swapSets
  dsimp only
  rw [State.evalOuts_fixed, State.complete_fixed, State.afterSwap_fixed]
  refine (foldl_fixed (fun _ _ => State.swapTargets_fixed ..) _ _).trans ?_
  rfl

theorem execConfigSwap_fixed {t : Nat} {s s' : State} (h : execConfigSwap t s = .next s') :
    ∃ a e, s'.fixed = { s.fixed with active := a, epoch := e } := by
  unfold execConfigSwap at h
  cases h
  have e : (s.at_ t).fixed = { s.fixed with active := s.cfg.a, epoch := s.cfg.epoch } := rfl
  split
  · exact ⟨_, _, e⟩
  · split
    · exact ⟨_, _, e⟩
    · exact ⟨_, _, (State.swapSets_fixed ..).trans rfl⟩

theorem State.balancePolicy_fixed (s : State) (c : Cmd) : ∃ a, (s.balancePolicy c).fixed = { s.fixed with active := a } := by
  unfold State.balancePolicy
  dsimp only
  split
  · exact ⟨s.cfg.a, State.complete_fixed ..⟩
  · split
    · exact ⟨s.cfg.a, State.complete_fixed ..⟩
    · refine ⟨(if c.target = 0 then s.islands else [c.target]).foldl
        (fun m k => policySet m k (rd c.param 0 4) (rd c.param 4 4) (rd c.param 8 4) (rd c.param 12 4)) s.cfg.a, ?_⟩
      refine fixed_ite ((State.complete_fixed ..).trans ?_) ((show (State.modCfg _ _).fixed = State.fixed _ from rfl).trans ?_) <;>
        exact (foldl_fixed (fun _ _ => State.modDie_fixed ..) _ _).trans rfl

theorem execBalancePolicy_fixed {t : Nat} {c : Cmd} {s s' : State} (h : execBalancePolicy t c s = .next s') :
    ∃ a, s'.fixed = { s.fixed with active := a } := by
  unfold execBalancePolicy at h
  cases h
  have e : (s.at_ t).fixed = { s.fixed with active := s.cfg.a } := rfl
  unfold State.serve
  have h0 : (((s.at_ t).undoze).markRan c).fixed = s.fixed := (State.markRan_fixed ..).trans (State.undoze_fixed _)
  split
  · exact ⟨_, e⟩
  · dsimp only
    split
    · exact ⟨_, ((State.complete_fixed ..).trans h0).trans e⟩
    · obtain ⟨a, ha⟩ := State.balancePolicy_fixed (((s.at_ t).undoze).markRan c) c
      exact ⟨a, by rw [ha, h0]⟩

/-- A swap that is cut off in its write changes the active set and its epoch back, and nothing else of the guarded part (R356). -/
theorem execHoldTimeExpire_fixed {t : Nat} {s s' : State} (h : execHoldTimeExpire t s = .next s') :
    ∃ a e, s'.fixed = { s.fixed with active := a, epoch := e } := by
  unfold execHoldTimeExpire at h
  cases h
  have e : (s.at_ t).fixed = { s.fixed with active := s.cfg.a, epoch := s.cfg.epoch } := rfl
  split
  · exact ⟨_, _, e⟩
  · split
    · exact ⟨_, _, e⟩
    · refine ⟨((s.at_ t).cfg.tear t).a, ((s.at_ t).cfg.tear t).epoch, ?_⟩
      rw [State.startDown_fixed, State.diesCutOff_fixed, State.hubStop_fixed]
      rfl

/-- A resumed transition leaves the core alone. -/
theorem State.relocateStep_core (s : State) (n : Nat) : (s.relocateStep n).fixed.core = s.fixed.core := by
  have c : ∀ u : State, (u.modTrust fun x => { x with journal := if n < 4 then n + 1 else 0 }).fixed.core = u.fixed.core := fun _ => rfl
  unfold State.relocateStep
  refine (c _).trans ?_
  split
  · rw [State.blackBox_fixed]
  · rw [State.sendSafety_fixed]
  · rfl
  · rfl
  · have h : ∀ u : State, (u.modTrust fun x => { x with ownerGen := (x.ownerGen + 1) % 256, life := 2 }).fixed.core = u.fixed.core :=
      fun _ => rfl
    rw [State.dropHops_fixed, h, State.drainUrgent_fixed]

theorem State.resumeJournal_core (s : State) : s.resumeJournal.fixed.core = s.fixed.core := by
  have fold : ∀ (l : List Nat) (u : State), (l.foldl (fun s i => s.relocateStep i) u).fixed.core = u.fixed.core := by
    intro l
    induction l with
    | nil => intro u; rfl
    | cons i l ih => intro u; exact (ih _).trans (State.relocateStep_core ..)
  have erase : s.eraseReturned.fixed.core = s.fixed.core := rfl
  unfold State.resumeJournal
  split
  · exact erase
  · split
    · exact fold _ _
    · rfl

/-- The hub's start leaves the core alone. -/
theorem State.hubUp_core (s : State) (storeFail : Bool) : (s.hubUp storeFail).fixed.core = s.fixed.core := by
  unfold State.hubUp
  rw [State.hubGo_fixed, State.resumeJournal_core, State.hubBegin_fixed]

theorem State.hubTest_core (s : State) (bist : Nat) : (s.hubTest bist).fixed.core = s.fixed.core := by
  unfold State.hubTest
  dsimp only
  split
  · refine (congrArg Fixed.core (foldl_fixed (fun _ _ => fixed_ite (State.testFailed_fixed ..) rfl) _ _)).trans ?_
    refine (congrArg Fixed.core (foldl_fixed (fun _ _ => State.testFailed_fixed ..) _ _)).trans ?_
    rw [State.modTest_fixed, State.reportMemory_fixed, State.hubUp_core]
    rfl
  · rfl

theorem State.hubStart_core (s : State) (bist : Nat) : (s.hubStart bist).fixed.core = s.fixed.core := by
  unfold State.hubStart
  dsimp only
  split
  · rw [State.hubUp_core, State.modPower_fixed]
  · rw [State.hubTest_core, State.modTest_fixed, State.modPower_fixed]

theorem execHubCooled_core {t : Nat} {pass : Bool} {s s' : State} (h : execHubCooled t pass s = .next s') : s'.fixed.core = s.fixed.core := by
  unfold execHubCooled at h
  cases h
  split
  · rfl
  · rw [State.hubTest_core, State.modTest_fixed, State.at__fixed]

theorem execHubBistRetry_core {t : Nat} {pass : Bool} {s s' : State} (h : execHubBistRetry t pass s = .next s') :
    s'.fixed.core = s.fixed.core := by
  unfold execHubBistRetry at h
  cases h
  split
  · rfl
  · split
    · rfl
    · rw [State.hubTest_core, State.modTest_fixed, State.at__fixed]

theorem execRailInRegulation_core {t rail bist : Nat} {s s' : State} (h : execRailInRegulation t rail bist s = .next s') :
    s'.fixed.core = s.fixed.core := by
  unfold execRailInRegulation at h
  cases h
  split
  · rfl
  · dsimp only
    split
    · rw [State.railUp_fixed, State.at__fixed]
    · split
      · rw [State.turnDown_fixed, State.railUp_fixed, State.at__fixed]
      · split
        · rw [State.enableNext_fixed, State.railUp_fixed, State.at__fixed]
        · rw [State.hubStart_core, State.railUp_fixed, State.at__fixed]

end Sys2Proof.Machine
end

