-- ==== Sys2Proof/Laws/SafetyKept.lean ====
section
/-! SUPPORT. Operations that leave the safety block alone. -/

namespace Sys2Proof.Machine

set_option linter.all false
set_option maxRecDepth 4000

/-- The safety block of a state. -/
def State.safety (s : State) : SafeState := s.safe

theorem safeEq_mk (now part dies cfg locus hif link sync swp safe power trust selfTest chk therm out freeCtr pending) :
    (State.mk now part dies cfg locus hif link sync swp safe power trust selfTest chk therm out freeCtr pending).safety = safe := rfl

theorem safeEq_parts (s : State) : s.safe = s.safety := rfl

theorem safeEq_ite {c : Prop} {_ : Decidable c} {a b : State} {x : SafeState} (ha : a.safety = x) (hb : b.safety = x) :
    (if c then a else b).safety = x := by split <;> assumption

theorem foldl_safeEq {α : Type} {f : State → α → State} (h : ∀ s a, (f s a).safety = s.safety) (l : List α) (s : State) :
    (l.foldl f s).safety = s.safety := by
  induction l generalizing s with
  | nil => rfl
  | cons a l ih => exact (ih _).trans (h _ _)

theorem foldl_safeEq_snd {α β : Type} {f : β × State → α → β × State} (h : ∀ s a, (f s a).2.safety = s.2.safety) (l : List α)
    (s : β × State) : (l.foldl f s).2.safety = s.2.safety := by
  induction l generalizing s with
  | nil => rfl
  | cons a l ih => exact (ih _).trans (h _ _)

theorem foldl_safeEq_fst {α β : Type} {f : State × β → α → State × β} (h : ∀ s a, (f s a).1.safety = s.1.safety) (l : List α)
    (s : State × β) : (l.foldl f s).1.safety = s.1.safety := by
  induction l generalizing s with
  | nil => rfl
  | cons a l ih => exact (ih _).trans (h _ _)

theorem onDie_safeEq {s : State} {k : Nat} {f : Die → State} {x : SafeState} (h : ∀ d, (f d).safety = x) (hs : s.safety = x) :
    (s.onDie k f).safety = x := by
  unfold State.onDie
  split
  · split
    · exact h _
    · exact hs
  · exact hs

theorem State.modDie_safeEq (s : State) (k : Nat) (f : Die → Die) : (State.modDie s k f).safety = s.safety := by
  unfold State.modDie
  split <;> simp only [safeEq_mk, safeEq_parts]

theorem State.modDies_safeEq (s : State) (f : Nat → Die → Die) : (State.modDies s f).safety = s.safety := by
  unfold State.modDies
  repeat' first
    | with_reducible rfl
    | with_reducible apply safeEq_ite
    | with_reducible refine (foldl_safeEq (fun _ _ => ?_) _ _).trans ?_
    | (simp only [↓State.modDie_safeEq, safeEq_mk]; done)
    | split
    | simp only [↓State.modDie_safeEq, safeEq_mk, safeEq_parts]

theorem State.takeBlock_safeEq (s : State) (block target : Nat) : (State.takeBlock s block target).safety = s.safety := rfl

theorem State.takeRange_safeEq (s : State) (block target lo hi : Nat) : (State.takeRange s block target lo hi).safety = s.safety := rfl

theorem State.drawBits_safeEq (s : State) (w : Nat) : (State.drawBits s w).2.safety = s.safety := rfl

theorem State.drawRat_safeEq (s : State) : (State.drawRat s).2.safety = s.safety := rfl

theorem State.drawBytes_safeEq (s : State) (n : Nat) : (State.drawBytes s n).2.safety = s.safety := by
  unfold State.drawBytes
  simp only [↓State.drawBits_safeEq, safeEq_mk, safeEq_parts]

theorem State.drawRats_safeEq (s : State) (n : Nat) : (s.drawRats n).2.safety = s.safety := by
  induction n generalizing s with
  | zero => rfl
  | succ n ih => exact (ih _).trans rfl

theorem State.modPort_safeEq (s : State) (side : Side) (f : Port → Port) : (State.modPort s side f).safety = s.safety := by
  unfold State.modPort
  split <;> simp only [safeEq_mk, safeEq_parts]

theorem State.emit_safeEq (s : State) (o : Out) : (State.emit s o).safety = s.safety := rfl

theorem State.noteHolder_safeEq (s : State) : (State.noteHolder s).safety = s.safety := by
  unfold State.noteHolder
  split <;> simp only [safeEq_mk, safeEq_parts]

theorem State.holderAnew_safeEq (s : State) : (State.holderAnew s).safety = s.safety := rfl

theorem State.enqueue_safeEq (s : State) (side : Side) (f : Frame) : (State.enqueue s side f).safety = s.safety := by
  unfold State.enqueue
  simp only [↓State.modPort_safeEq, safeEq_mk, safeEq_parts]

theorem State.countNoRoute_safeEq (s : State) : (State.countNoRoute s).safety = s.safety := rfl

theorem State.forwardBy_safeEq (s : State) (side : Side) (f : Frame) : (State.forwardBy s side f).safety = s.safety := by
  unfold State.forwardBy
  simp only [↓State.enqueue_safeEq, safeEq_mk, safeEq_parts]

theorem State.egress_safeEq (s : State) (side : Side) (f : Frame) : (State.egress s side f).safety = s.safety := by
  unfold State.egress
  repeat' first
    | with_reducible rfl
    | with_reducible apply safeEq_ite
    | (simp only [↓State.countNoRoute_safeEq, ↓State.forwardBy_safeEq, safeEq_mk]; done)
    | split
    | simp only [↓State.countNoRoute_safeEq, ↓State.forwardBy_safeEq, safeEq_mk, safeEq_parts]

theorem State.dispatchFrame_safeEq (s : State) (dest : Nat) (f : Frame) : (State.dispatchFrame s dest f).safety = s.safety := by
  unfold State.dispatchFrame
  repeat' first
    | with_reducible rfl
    | with_reducible apply safeEq_ite
    | (simp only [↓State.enqueue_safeEq, ↓State.egress_safeEq, ↓State.forwardBy_safeEq, safeEq_mk]; done)
    | split
    | simp only [↓State.enqueue_safeEq, ↓State.egress_safeEq, ↓State.forwardBy_safeEq, safeEq_mk, safeEq_parts]

theorem State.originate_safeEq (s : State) (tc kind dest : Nat) (payload : List Byte) : (State.originate s tc kind dest payload).safety = s.safety := by
  unfold State.originate
  repeat' first
    | with_reducible rfl
    | with_reducible apply safeEq_ite
    | with_reducible refine (foldl_safeEq (fun _ _ => ?_) _ _).trans ?_
    | (simp only [↓State.dispatchFrame_safeEq, safeEq_mk]; done)
    | split
    | simp only [↓State.dispatchFrame_safeEq, safeEq_mk, safeEq_parts]

theorem State.flushUnrouted_safeEq (s : State) : (State.flushUnrouted s).safety = s.safety := by
  unfold State.flushUnrouted
  repeat' first
    | with_reducible rfl
    | with_reducible apply safeEq_ite
    | with_reducible refine (foldl_safeEq (fun _ _ => ?_) _ _).trans ?_
    | (simp only [↓State.originate_safeEq, safeEq_mk]; done)
    | split
    | simp only [↓State.originate_safeEq, safeEq_mk, safeEq_parts]

theorem State.noteForward_safeEq (s : State) (side : Side) (f : Frame) : (State.noteForward s side f).safety = s.safety := by
  unfold State.noteForward
  split <;> simp only [safeEq_mk, safeEq_parts]

theorem State.accept_safeEq (s : State) (f : Frame) : (State.accept s f).2.safety = s.safety := by
  unfold State.accept
  repeat' first
    | with_reducible rfl
    | with_reducible apply safeEq_ite
    | (simp only [safeEq_mk]; done)
    | split
    | simp only [safeEq_mk, safeEq_parts]

theorem State.assemble_safeEq (s : State) (f : Frame) : (State.assemble s f).2.safety = s.safety := by
  unfold State.assemble
  repeat' first
    | with_reducible rfl
    | with_reducible apply safeEq_ite
    | (simp only [safeEq_mk]; done)
    | split
    | simp only [safeEq_mk, safeEq_parts]

theorem State.evict_safeEq (s : State) (v : Rec) : (State.evict s v).safety = s.safety := rfl

theorem State.evictFor_safeEq {s : State} {tiers : List Tier} {n fuel : Nat} {r : Tier × State}
    (h : s.evictFor tiers n fuel = some r) : r.2.safety = s.safety := by
  induction fuel generalizing s with
  | zero => cases h
  | succ m ih =>
    unfold State.evictFor at h
    split at h
    · cases h; rfl
    · split at h
      · cases h
      · exact (ih h).trans rfl

theorem State.makeWay_safeEq (s : State) (n fuel : Nat) : (s.makeWay n fuel).2.safety = s.safety := by
  induction fuel generalizing s with
  | zero => rfl
  | succ m ih =>
    unfold State.makeWay
    split
    · rfl
    · split
      · exact (ih _).trans rfl
      · split
        · exact (ih _).trans rfl
        · rfl

theorem State.releaseD3_safeEq (s : State) (id : Nat) (fetched : Bool) : (State.releaseD3 s id fetched).safety = s.safety := rfl

theorem State.reclaim_safeEq {s t : State} {n : Nat} (h : s.reclaim n = some t) : t.safety = s.safety := by
  induction n generalizing s with
  | zero => cases h
  | succ m ih =>
    unfold State.reclaim at h
    split at h
    · cases h; rfl
    · split at h
      · cases h
      · exact (ih h).trans rfl

theorem State.targetBlock_safeEq {s : State} {but : List Nat} {spare : Bool} {r : Blk × State}
    (h : s.targetBlock but spare = some r) : r.2.safety = s.safety := by
  unfold State.targetBlock at h
  split at h
  · cases h; rfl
  · split at h
    · cases h; rfl
    · obtain ⟨u, hu, h⟩ := Option.bind_eq_some_iff.1 h
      obtain ⟨b, _, rfl⟩ := Option.map_eq_some_iff.1 h
      exact State.reclaim_safeEq hu

theorem State.startUnit_safeEq (s : State) (admitted : Bool) : (s.startUnit admitted).safety = s.safety := by
  unfold State.startUnit
  split
  · refine safeEq_ite rfl ?_
    dsimp only
    split
    · rfl
    · rename_i r h
      exact (State.targetBlock_safeEq h).symm ▸ rfl
  · rfl

theorem State.writer_safeEq (s : State) : (State.writer s).safety = s.safety := by
  unfold State.writer
  split <;> simp only [↓State.startUnit_safeEq, safeEq_mk, safeEq_parts]

theorem State.countSub_safeEq (s : State) (sub count : Nat) : (State.countSub s sub count).safety = s.safety := rfl

theorem State.countDrop_safeEq (s : State) (cls : Nat) : (State.countDrop s cls).safety = s.safety := rfl

theorem State.noteClaims_safeEq (s : State) (id : Nat) (claims : List Nat) : (State.noteClaims s id claims).safety = s.safety := rfl

theorem State.dropClaim_safeEq (s : State) (id sub : Nat) : (State.dropClaim s id sub).safety = s.safety := by
  unfold State.dropClaim
  simp only [↓State.releaseD3_safeEq, safeEq_mk, safeEq_parts]

theorem State.unclaim_safeEq (s : State) (w : StrWait) : (State.unclaim s w).safety = s.safety := by
  unfold State.unclaim
  split <;> simp only [↓State.originate_safeEq, ↓State.dropClaim_safeEq, safeEq_mk, safeEq_parts]

theorem State.queueClaim_safeEq (s : State) (w : StrWait) : (s.queueClaim w).2.safety = s.safety := by
  unfold State.queueClaim
  dsimp only
  have h : ∀ (l : List StrWait) (h' : HifState), (l.foldl (fun (s : State) x => s.unclaim x) { s with hif := h' }).safety = s.safety :=
    fun l h' => (foldl_safeEq (fun _ _ => State.unclaim_safeEq ..) _ _).trans rfl
  split
  · exact h _ _
  · exact (State.countDrop_safeEq ..).trans (safeEq_ite ((State.unclaim_safeEq ..).trans (h _ _)) (h _ _))

theorem State.claimAll_safeEq (s : State) (pos recType src time cls : Nat) (bytes : List Byte) (ref : Option Nat) :
    (s.claimAll pos recType src time cls bytes ref).2.safety = s.safety := by
  unfold State.claimAll
  refine (foldl_safeEq_snd (fun acc x => ?_) _ _).trans rfl
  dsimp only
  split
  · split
    · exact (State.queueClaim_safeEq ..).trans (State.countSub_safeEq ..)
    · exact State.countSub_safeEq ..
  · rfl

theorem State.sendClaims_safeEq (s : State) (recType src time : Nat) (bytes : List Byte) : (State.sendClaims s recType src time bytes).2.safety = s.safety := by
  unfold State.sendClaims
  repeat' first
    | with_reducible rfl
    | with_reducible apply safeEq_ite
    | with_reducible refine (foldl_safeEq (fun _ _ => ?_) _ _).trans ?_
    | (simp only [↓State.originate_safeEq, ↓State.countSub_safeEq, safeEq_mk]; done)
    | split
    | simp only [↓State.originate_safeEq, ↓State.countSub_safeEq, safeEq_mk, safeEq_parts]

theorem State.claimNew_safeEq (s : State) (id recType src time cls : Nat) (bytes : List Byte) : (State.claimNew s id recType src time cls bytes).safety = s.safety := by
  unfold State.claimNew
  split <;> simp only [↓State.sendClaims_safeEq, ↓State.noteClaims_safeEq, ↓State.claimAll_safeEq, ↓State.releaseD3_safeEq, safeEq_mk, safeEq_parts]

theorem State.stageD0_safeEq (s : State) (recType src time : Nat) (bytes : List Byte) : (State.stageD0 s recType src time bytes).safety = s.safety := by
  unfold State.stageD0
  split <;> simp only [↓State.claimNew_safeEq, ↓State.makeWay_safeEq, safeEq_mk, safeEq_parts]

theorem State.queueBb_safeEq (s : State) (w : BbWait) : (State.queueBb s w).safety = s.safety := rfl

theorem State.eventAt_safeEq (s : State) (e : Ev) (t : Nat) (full : Option (Nat × List Byte)) : (State.eventAt s e t full).safety = s.safety := by
  unfold State.eventAt
  repeat' first
    | with_reducible rfl
    | with_reducible apply safeEq_ite
    | (simp only [↓State.originate_safeEq, ↓State.queueBb_safeEq, ↓State.stageD0_safeEq, ↓State.writer_safeEq, safeEq_mk]; done)
    | split
    | simp only [↓State.originate_safeEq, ↓State.queueBb_safeEq, ↓State.stageD0_safeEq, ↓State.writer_safeEq, safeEq_mk, safeEq_parts]

theorem State.blackBox_safeEq (s : State) (kind : Nat) (keep : Bool) (body : List Byte) : (State.blackBox s kind keep body).safety = s.safety := rfl

theorem State.event_safeEq (s : State) (e : Ev) : (State.event s e).safety = s.safety := by
  unfold State.event
  simp only [↓State.eventAt_safeEq, safeEq_mk, safeEq_parts]

theorem State.dieEventFull_safeEq (s : State) (k : Nat) (e : Ev) (t : Nat) (full : List Byte) : (State.dieEventFull s k e t full).safety = s.safety := by
  unfold State.dieEventFull
  split <;> simp only [↓State.modDie_safeEq, ↓State.eventAt_safeEq, safeEq_mk, safeEq_parts]

theorem State.dieEventAt_safeEq (s : State) (k : Nat) (e : Ev) (t : Nat) : (State.dieEventAt s k e t).safety = s.safety := by
  unfold State.dieEventAt
  simp only [↓State.dieEventFull_safeEq, safeEq_mk, safeEq_parts]

theorem State.dieEvent_safeEq (s : State) (k : Nat) (e : Ev) : (State.dieEvent s k e).safety = s.safety := by
  unfold State.dieEvent
  simp only [↓State.dieEventAt_safeEq, safeEq_mk, safeEq_parts]

theorem State.placement_safeEq (s : State) (kind island task reason : Nat) (value : Int) (stream arg16 : Nat) : (State.placement s kind island task reason value stream arg16).safety = s.safety := by
  unfold State.placement
  simp only [↓State.eventAt_safeEq, safeEq_mk, safeEq_parts]

theorem State.dropRec_safeEq (s : State) (cls recType src : Nat) : (State.dropRec s cls recType src).safety = s.safety := by
  unfold State.dropRec
  repeat' first
    | with_reducible rfl
    | with_reducible apply safeEq_ite
    | (simp only [↓State.placement_safeEq, ↓State.countDrop_safeEq, safeEq_mk]; done)
    | split
    | simp only [↓State.placement_safeEq, ↓State.countDrop_safeEq, safeEq_mk, safeEq_parts]

theorem State.endDrops_safeEq (s : State) (cls recType src : Nat) : (State.endDrops s cls recType src).safety = s.safety := by
  unfold State.endDrops
  split <;> simp only [↓State.placement_safeEq, safeEq_mk, safeEq_parts]

theorem State.tierFor_safeEq {s : State} {cls n : Nat} {r : Tier × State} (h : s.tierFor cls n = some r) :
    r.2.safety = s.safety := by
  unfold State.tierFor at h
  repeat' first
    | (cases h; rfl)
    | exact State.evictFor_safeEq h
    | split at h

theorem State.putRec_safeEq (s : State) (tier : Tier) (cls recType src time : Nat) (bytes : List Byte) : (State.putRec s tier cls recType src time bytes).safety = s.safety := rfl

theorem State.place_safeEq (s : State) (recType src time : Nat) (bytes : List Byte) :
    (s.place recType src time bytes).safety = s.safety := by
  unfold State.place
  dsimp only
  refine safeEq_ite ((State.writer_safeEq _).trans (State.stageD0_safeEq ..)) ?_
  split
  · exact State.dropRec_safeEq ..
  · rename_i r h
    exact (State.writer_safeEq _).trans ((State.claimNew_safeEq ..).trans ((State.endDrops_safeEq ..).trans
      ((State.putRec_safeEq ..).trans (State.tierFor_safeEq h))))

theorem State.dieRecord_safeEq (s : State) (k recType time : Nat) (bytes : List Byte) : (State.dieRecord s k recType time bytes).safety = s.safety := by
  unfold State.dieRecord
  simp only [↓State.modDie_safeEq, safeEq_mk, safeEq_parts]

theorem State.queueCompletion_safeEq (s : State) (x : InFlight) (origin result xfer code : Nat) : (State.queueCompletion s x origin result xfer code).safety = s.safety := rfl

theorem State.writeBuffer_safeEq (s : State) (l : List (Nat × Nat)) (bs : List Byte) :
    (s.writeBuffer l bs).safety = s.safety := by
  induction l generalizing s bs with
  | nil => rfl
  | cons a l ih =>
    cases bs with
    | nil => rfl
    | cons b bs => exact (ih _ _).trans rfl

theorem State.finishBroadcast_safeEq (s : State) (x : InFlight) : (State.finishBroadcast s x).safety = s.safety := by
  unfold State.finishBroadcast
  repeat' first
    | with_reducible rfl
    | with_reducible apply safeEq_ite
    | (simp only [↓State.queueCompletion_safeEq, ↓State.writeBuffer_safeEq, safeEq_mk]; done)
    | split
    | simp only [↓State.queueCompletion_safeEq, ↓State.writeBuffer_safeEq, safeEq_mk, safeEq_parts]

theorem State.vote_safeEq (s : State) (x : InFlight) (pos code : Nat) : (State.vote s x pos code).safety = s.safety := by
  unfold State.vote
  repeat' first
    | with_reducible rfl
    | with_reducible apply safeEq_ite
    | (simp only [↓State.finishBroadcast_safeEq, safeEq_mk]; done)
    | split
    | simp only [↓State.finishBroadcast_safeEq, safeEq_mk, safeEq_parts]

theorem State.takeCompletion_safeEq (s : State) (sq cid gen origin result xfer code : Nat) (data : List Byte) : (State.takeCompletion s sq cid gen origin result xfer code data).safety = s.safety := by
  unfold State.takeCompletion
  repeat' first
    | with_reducible rfl
    | with_reducible apply safeEq_ite
    | (simp only [↓State.vote_safeEq, ↓State.writeBuffer_safeEq, ↓State.queueCompletion_safeEq, safeEq_mk]; done)
    | split
    | simp only [↓State.vote_safeEq, ↓State.writeBuffer_safeEq, ↓State.queueCompletion_safeEq, safeEq_mk, safeEq_parts]

theorem State.tellArmed_safeEq (s : State) (a code : Nat) : (State.tellArmed s a code).safety = s.safety := by
  unfold State.tellArmed
  split <;> simp only [↓State.originate_safeEq, safeEq_mk, safeEq_parts]

theorem State.completeData_safeEq (s : State) (c : Cmd) (st : Status) (result : Nat) (data : List Byte) : (State.completeData s c st result data).safety = s.safety := by
  unfold State.completeData
  split <;> simp only [↓State.originate_safeEq, ↓State.takeCompletion_safeEq, safeEq_mk, safeEq_parts]

theorem State.completeX_safeEq (s : State) (c : Cmd) (st : Status) (result xfer : Nat) : (State.completeX s c st result xfer).safety = s.safety := by
  unfold State.completeX
  split <;> simp only [↓State.originate_safeEq, ↓State.takeCompletion_safeEq, safeEq_mk, safeEq_parts]

theorem State.complete_safeEq (s : State) (c : Cmd) (st : Status) (result : Nat) : (State.complete s c st result).safety = s.safety := by
  unfold State.complete
  simp only [↓State.completeX_safeEq, safeEq_mk, safeEq_parts]

theorem State.completeOpt_safeEq (s : State) (c : Option Cmd) (st : Status) (result : Nat) : (State.completeOpt s c st result).safety = s.safety := by
  unfold State.completeOpt
  split <;> simp only [↓State.complete_safeEq, safeEq_mk, safeEq_parts]

theorem State.policyTaken_safeEq (s : State) (k : Nat) : (State.policyTaken s k).safety = s.safety := by
  unfold State.policyTaken
  repeat' first
    | with_reducible rfl
    | with_reducible apply safeEq_ite
    | with_reducible refine (foldl_safeEq (fun _ _ => ?_) _ _).trans ?_
    | (simp only [↓State.complete_safeEq, safeEq_mk]; done)
    | split
    | simp only [↓State.complete_safeEq, safeEq_mk, safeEq_parts]

theorem State.rephase_safeEq (s : State) : (State.rephase s).safety = s.safety := by
  unfold State.rephase
  simp only [↓State.modDies_safeEq, safeEq_mk, safeEq_parts]

theorem State.at__safeEq (s : State) (t : Nat) : (State.at_ s t).safety = s.safety := rfl

theorem State.takeStep_safeEq (s : State) (ofs : Int) : (State.takeStep s ofs).safety = s.safety := by
  unfold State.takeStep
  simp only [↓State.event_safeEq, ↓State.rephase_safeEq, safeEq_mk, safeEq_parts]

theorem State.stepAt_safeEq (s : State) (k : Nat) : (State.stepAt s k).safety = s.safety := by
  unfold State.stepAt
  repeat' first
    | with_reducible rfl
    | with_reducible apply safeEq_ite
    | (simp only [↓State.takeStep_safeEq, safeEq_mk]; done)
    | split
    | simp only [↓State.takeStep_safeEq, safeEq_mk, safeEq_parts]

theorem State.settleChannels_safeEq (s : State) (k : Nat) : (State.settleChannels s k).safety = s.safety := by
  unfold State.settleChannels
  simp only [↓State.modDie_safeEq, safeEq_mk, safeEq_parts]

theorem State.applyCap_safeEq (s : State) (k : Nat) : (State.applyCap s k).safety = s.safety := by
  unfold State.applyCap
  simp only [↓State.modDie_safeEq, ↓State.settleChannels_safeEq, safeEq_mk, safeEq_parts]

theorem State.adoptPrec_safeEq (s : State) (k : Nat) (d : Die) : (State.adoptPrec s k d).safety = s.safety := by
  unfold State.adoptPrec
  repeat' first
    | with_reducible rfl
    | with_reducible apply safeEq_ite
    | (simp only [↓State.takeBlock_safeEq, ↓State.modDie_safeEq, safeEq_mk]; done)
    | split
    | simp only [↓State.takeBlock_safeEq, ↓State.modDie_safeEq, safeEq_mk, safeEq_parts]

theorem State.takePrec_safeEq (s : State) (k : Nat) : (State.takePrec s k).safety = s.safety := by
  unfold State.takePrec
  refine onDie_safeEq (fun _ => ?_) ?_ <;> simp only [↓State.adoptPrec_safeEq, safeEq_mk, safeEq_parts]

theorem State.judgeSecond_safeEq (s : State) (k : Nat) (x : Interval) : (State.judgeSecond s k x).safety = s.safety := by
  unfold State.judgeSecond
  repeat' first
    | with_reducible rfl
    | with_reducible apply safeEq_ite
    | with_reducible refine (foldl_safeEq (fun _ _ => ?_) _ _).trans ?_
    | (simp only [↓State.modDie_safeEq, safeEq_mk]; done)
    | split
    | simp only [↓State.modDie_safeEq, safeEq_mk, safeEq_parts]

theorem State.precSample_safeEq (s : State) (k : Nat) (d : Die) (v : List Rat) (ovl : List Overload) (bal : List Rat) : (State.precSample s k d v ovl bal).safety = s.safety := by
  unfold State.precSample
  repeat' first
    | with_reducible rfl
    | with_reducible apply safeEq_ite
    | (simp only [↓State.modDie_safeEq, ↓State.judgeSecond_safeEq, ↓State.dieRecord_safeEq, safeEq_mk]; done)
    | split
    | simp only [↓State.modDie_safeEq, ↓State.judgeSecond_safeEq, ↓State.dieRecord_safeEq, safeEq_mk, safeEq_parts]

theorem State.discardRun_safeEq (s : State) (k t : Nat) (keepCand : Bool) : (State.discardRun s k t keepCand).safety = s.safety := by
  unfold State.discardRun
  refine onDie_safeEq (fun _ => ?_) ?_
  · split <;> simp only [↓State.modDie_safeEq, ↓State.dieRecord_safeEq, safeEq_mk, safeEq_parts]
  · simp only [↓State.modDie_safeEq, ↓State.dieRecord_safeEq, safeEq_mk, safeEq_parts]

theorem State.owBegin_safeEq (s : State) (k : Nat) : (State.owBegin s k).safety = s.safety := by
  unfold State.owBegin
  repeat' first
    | with_reducible rfl
    | with_reducible apply safeEq_ite
    | with_reducible refine onDie_safeEq (fun _ => ?_) ?_
    | (simp only [↓State.modDie_safeEq, ↓State.settleChannels_safeEq, safeEq_mk]; done)
    | split
    | simp only [↓State.modDie_safeEq, ↓State.settleChannels_safeEq, safeEq_mk, safeEq_parts]

theorem State.owEnd_safeEq (s : State) (k : Nat) : (State.owEnd s k).safety = s.safety := by
  unfold State.owEnd
  simp only [↓State.modDie_safeEq, ↓State.settleChannels_safeEq, safeEq_mk, safeEq_parts]

theorem State.stopInjection_safeEq (s : State) (k : Nat) : (State.stopInjection s k).safety = s.safety := by
  unfold State.stopInjection
  simp only [↓State.modDie_safeEq, ↓State.settleChannels_safeEq, safeEq_mk, safeEq_parts]

theorem State.adoptImp_safeEq (s : State) (k : Nat) : (State.adoptImp s k).safety = s.safety := by
  unfold State.adoptImp
  repeat' first
    | with_reducible rfl
    | with_reducible apply safeEq_ite
    | (simp only [↓State.modDie_safeEq, ↓State.takeBlock_safeEq, ↓State.stopInjection_safeEq, safeEq_mk]; done)
    | split
    | simp only [↓State.modDie_safeEq, ↓State.takeBlock_safeEq, ↓State.stopInjection_safeEq, safeEq_mk, safeEq_parts]

theorem State.feedImp_safeEq (s : State) (k : Nat) (f : FastFrame) : (State.feedImp s k f).safety = s.safety := by
  unfold State.feedImp
  refine onDie_safeEq (fun _ => ?_) ?_
  · split <;> simp only [↓State.modDie_safeEq, safeEq_mk, safeEq_parts]
  · simp only [↓State.modDie_safeEq, safeEq_mk, safeEq_parts]

theorem State.beginInjection_safeEq (s : State) (k a : Nat) : (State.beginInjection s k a).safety = s.safety := by
  unfold State.beginInjection
  simp only [↓State.modDie_safeEq, safeEq_mk, safeEq_parts]

theorem State.missTrigger_safeEq (s : State) (k : Nat) (c : Capture) : (State.missTrigger s k c).safety = s.safety := by
  unfold State.missTrigger
  split <;> simp only [↓State.completeOpt_safeEq, ↓State.dieEvent_safeEq, ↓State.modDie_safeEq, safeEq_mk, safeEq_parts]

theorem State.triggerCapture_safeEq (s : State) (k tTrig : Nat) : (State.triggerCapture s k tTrig).safety = s.safety := by
  unfold State.triggerCapture
  repeat' first
    | with_reducible rfl
    | with_reducible apply safeEq_ite
    | with_reducible refine onDie_safeEq (fun _ => ?_) ?_
    | (simp only [↓State.missTrigger_safeEq, ↓State.modDie_safeEq, safeEq_mk]; done)
    | split
    | simp only [↓State.missTrigger_safeEq, ↓State.modDie_safeEq, safeEq_mk, safeEq_parts]

theorem State.faultTrigger_safeEq (s : State) (k tOrigin : Nat) (chain : Bool) : (State.faultTrigger s k tOrigin chain).safety = s.safety := by
  unfold State.faultTrigger
  repeat' first
    | with_reducible rfl
    | with_reducible apply safeEq_ite
    | with_reducible refine onDie_safeEq (fun _ => ?_) ?_
    | (simp only [↓State.triggerCapture_safeEq, safeEq_mk]; done)
    | split
    | simp only [↓State.triggerCapture_safeEq, safeEq_mk, safeEq_parts]

theorem State.flushStream_safeEq (s : State) (k : Nat) (last abort : Bool) : (State.flushStream s k last abort).safety = s.safety := by
  unfold State.flushStream
  repeat' first
    | with_reducible rfl
    | with_reducible apply safeEq_ite
    | with_reducible refine onDie_safeEq (fun _ => ?_) ?_
    | (simp only [↓State.dieRecord_safeEq, ↓State.modDie_safeEq, safeEq_mk]; done)
    | split
    | simp only [↓State.dieRecord_safeEq, ↓State.modDie_safeEq, safeEq_mk, safeEq_parts]

theorem State.feedStream_safeEq (s : State) (k : Nat) (x : FastFrame) : (State.feedStream s k x).safety = s.safety := by
  unfold State.feedStream
  repeat' first
    | with_reducible rfl
    | with_reducible apply safeEq_ite
    | with_reducible refine onDie_safeEq (fun _ => ?_) ?_
    | (simp only [↓State.modDie_safeEq, ↓State.flushStream_safeEq, safeEq_mk]; done)
    | split
    | simp only [↓State.modDie_safeEq, ↓State.flushStream_safeEq, safeEq_mk, safeEq_parts]

theorem State.openFastStream_safeEq (s : State) (k id : Nat) : (State.openFastStream s k id).safety = s.safety := by
  unfold State.openFastStream
  simp only [↓State.modDie_safeEq, safeEq_mk, safeEq_parts]

theorem State.closeFastStream_safeEq (s : State) (k id : Nat) : (State.closeFastStream s k id).safety = s.safety := by
  unfold State.closeFastStream
  repeat' first
    | with_reducible rfl
    | with_reducible apply safeEq_ite
    | with_reducible refine onDie_safeEq (fun _ => ?_) ?_
    | (simp only [↓State.modDie_safeEq, ↓State.flushStream_safeEq, safeEq_mk]; done)
    | split
    | simp only [↓State.modDie_safeEq, ↓State.flushStream_safeEq, safeEq_mk, safeEq_parts]

theorem State.closeFastStreams_safeEq (s : State) (k : Nat) : (State.closeFastStreams s k).safety = s.safety := by
  unfold State.closeFastStreams
  repeat' first
    | with_reducible rfl
    | with_reducible apply safeEq_ite
    | with_reducible refine (foldl_safeEq (fun _ _ => ?_) _ _).trans ?_
    | with_reducible refine onDie_safeEq (fun _ => ?_) ?_
    | (simp only [↓State.closeFastStream_safeEq, safeEq_mk]; done)
    | split
    | simp only [↓State.closeFastStream_safeEq, safeEq_mk, safeEq_parts]

theorem State.unarm_safeEq (s : State) (c : Capture) : (State.unarm s c).safety = s.safety := by
  unfold State.unarm
  split <;> simp only [↓State.tellArmed_safeEq, safeEq_mk, safeEq_parts]

theorem State.abortCapture_safeEq (s : State) (k : Nat) (arm : Bool) : (State.abortCapture s k arm).safety = s.safety := by
  unfold State.abortCapture
  refine onDie_safeEq (fun _ => ?_) ?_
  · split <;> simp only [↓State.dieEvent_safeEq, ↓State.modDie_safeEq, ↓State.completeOpt_safeEq, ↓State.unarm_safeEq, safeEq_mk, safeEq_parts]
  · simp only [↓State.dieEvent_safeEq, ↓State.modDie_safeEq, ↓State.completeOpt_safeEq, ↓State.unarm_safeEq, safeEq_mk, safeEq_parts]

theorem State.stopFast_safeEq (s : State) (k : Nat) : (State.stopFast s k).safety = s.safety := by
  unfold State.stopFast
  simp only [↓State.flushStream_safeEq, ↓State.modDie_safeEq, ↓State.abortCapture_safeEq, ↓State.stopInjection_safeEq, safeEq_mk, safeEq_parts]

theorem State.fastOff_safeEq (s : State) (k : Nat) : (State.fastOff s k).safety = s.safety := by
  unfold State.fastOff
  refine onDie_safeEq (fun _ => ?_) ?_
  · split <;> simp only [↓State.modDie_safeEq, ↓State.stopFast_safeEq, safeEq_mk, safeEq_parts]
  · simp only [↓State.modDie_safeEq, ↓State.stopFast_safeEq, safeEq_mk, safeEq_parts]

theorem State.fastUp_safeEq (s : State) (k : Nat) : (State.fastUp s k).safety = s.safety := by
  unfold State.fastUp
  refine onDie_safeEq (fun _ => ?_) ?_
  · split <;> simp only [↓State.modDie_safeEq, safeEq_mk, safeEq_parts]
  · simp only [↓State.modDie_safeEq, safeEq_mk, safeEq_parts]

theorem State.fastDomain_safeEq (s : State) (k : Nat) : (State.fastDomain s k).safety = s.safety := by
  unfold State.fastDomain
  refine onDie_safeEq (fun _ => ?_) ?_
  · split <;> simp only [↓State.fastUp_safeEq, ↓State.fastOff_safeEq, safeEq_mk, safeEq_parts]
  · simp only [↓State.fastUp_safeEq, ↓State.fastOff_safeEq, safeEq_mk, safeEq_parts]

theorem State.swapFast_safeEq (s : State) (k : Nat) : (State.swapFast s k).safety = s.safety := by
  unfold State.swapFast
  repeat' first
    | with_reducible rfl
    | with_reducible apply safeEq_ite
    | (simp only [↓State.flushStream_safeEq, ↓State.modDie_safeEq, ↓State.takeBlock_safeEq, ↓State.abortCapture_safeEq, safeEq_mk]; done)
    | split
    | simp only [↓State.flushStream_safeEq, ↓State.modDie_safeEq, ↓State.takeBlock_safeEq, ↓State.abortCapture_safeEq, safeEq_mk, safeEq_parts]

theorem State.closeCapture_safeEq (s : State) (k : Nat) : (State.closeCapture s k).safety = s.safety := by
  unfold State.closeCapture
  repeat' first
    | with_reducible rfl
    | with_reducible apply safeEq_ite
    | with_reducible refine onDie_safeEq (fun _ => ?_) ?_
    | (simp only [↓State.completeOpt_safeEq, ↓State.modDie_safeEq, safeEq_mk]; done)
    | split
    | simp only [↓State.completeOpt_safeEq, ↓State.modDie_safeEq, safeEq_mk, safeEq_parts]

theorem State.accrueTest_safeEq (s : State) : (State.accrueTest s).safety = s.safety := rfl

theorem State.doze_safeEq (s : State) : (State.doze s).safety = s.safety := by
  unfold State.doze
  repeat' first
    | with_reducible rfl
    | with_reducible apply safeEq_ite
    | with_reducible refine (foldl_safeEq (fun _ _ => ?_) _ _).trans ?_
    | (simp only [↓State.fastDomain_safeEq, ↓State.accrueTest_safeEq, ↓State.closeFastStreams_safeEq, safeEq_mk]; done)
    | split
    | simp only [↓State.fastDomain_safeEq, ↓State.accrueTest_safeEq, ↓State.closeFastStreams_safeEq, safeEq_mk, safeEq_parts]

theorem State.missCurrentBlock_safeEq (s : State) (t0 k : Nat) : (State.missCurrentBlock s t0 k).safety = s.safety := by
  unfold State.missCurrentBlock
  repeat' first
    | with_reducible rfl
    | with_reducible apply safeEq_ite
    | with_reducible refine onDie_safeEq (fun _ => ?_) ?_
    | (simp only [↓State.dieEvent_safeEq, ↓State.adoptImp_safeEq, ↓State.fastDomain_safeEq, ↓State.modDie_safeEq, safeEq_mk]; done)
    | split
    | simp only [↓State.dieEvent_safeEq, ↓State.adoptImp_safeEq, ↓State.fastDomain_safeEq, ↓State.modDie_safeEq, safeEq_mk, safeEq_parts]

theorem State.takeCurrentBlock_safeEq (s : State) (k : Nat) (b : List Byte) : (State.takeCurrentBlock s k b).safety = s.safety := by
  unfold State.takeCurrentBlock
  repeat' first
    | with_reducible rfl
    | with_reducible apply safeEq_ite
    | with_reducible refine onDie_safeEq (fun _ => ?_) ?_
    | (simp only [↓State.dieEvent_safeEq, ↓State.modDie_safeEq, ↓State.adoptImp_safeEq, ↓State.fastDomain_safeEq, ↓State.missCurrentBlock_safeEq, safeEq_mk]; done)
    | split
    | simp only [↓State.dieEvent_safeEq, ↓State.modDie_safeEq, ↓State.adoptImp_safeEq, ↓State.fastDomain_safeEq, ↓State.missCurrentBlock_safeEq, safeEq_mk, safeEq_parts]

theorem State.persist_safeEq (s : State) (k : Nat) : (State.persist s k).safety = s.safety := by
  unfold State.persist
  split <;> simp only [↓State.modDie_safeEq, safeEq_mk, safeEq_parts]

theorem State.resetGroup_safeEq (s : State) (k : Nat) : (State.resetGroup s k).safety = s.safety := by
  unfold State.resetGroup
  simp only [↓State.modDie_safeEq, safeEq_mk, safeEq_parts]

theorem State.swapGroup_safeEq (s : State) (k : Nat) (identity : Option Nat) (pattern : Nat) : (State.swapGroup s k identity pattern).safety = s.safety := by
  unfold State.swapGroup
  simp only [↓State.modDie_safeEq, ↓State.persist_safeEq, ↓State.dieEventFull_safeEq, ↓State.resetGroup_safeEq, ↓State.blackBox_safeEq, safeEq_mk, safeEq_parts]

theorem State.adoptEst_safeEq (s : State) : (State.adoptEst s).safety = s.safety := by
  unfold State.adoptEst
  repeat' first
    | with_reducible rfl
    | with_reducible apply safeEq_ite
    | with_reducible refine (foldl_safeEq (fun _ _ => ?_) _ _).trans ?_
    | (simp only [↓State.modDie_safeEq, ↓State.persist_safeEq, ↓State.dieEventFull_safeEq, ↓State.takeBlock_safeEq, ↓State.resetGroup_safeEq, safeEq_mk]; done)
    | split
    | simp only [↓State.modDie_safeEq, ↓State.persist_safeEq, ↓State.dieEventFull_safeEq, ↓State.takeBlock_safeEq, ↓State.resetGroup_safeEq, safeEq_mk, safeEq_parts]

theorem State.meterBlock_safeEq (s : State) (t0 : Nat) (dq : Rat) : (State.meterBlock s t0 dq).safety = s.safety := by
  unfold State.meterBlock
  repeat' first
    | with_reducible rfl
    | with_reducible apply safeEq_ite
    | with_reducible refine (foldl_safeEq (fun _ _ => ?_) _ _).trans ?_
    | (simp only [↓State.modDie_safeEq, safeEq_mk]; done)
    | split
    | simp only [↓State.modDie_safeEq, safeEq_mk, safeEq_parts]

theorem State.countBlock_safeEq (s : State) (k t0 : Nat) (dqAs qHub : Rat) (missing : Bool) : (State.countBlock s k t0 dqAs qHub missing).safety = s.safety := by
  unfold State.countBlock
  repeat' first
    | with_reducible rfl
    | with_reducible apply safeEq_ite
    | with_reducible refine onDie_safeEq (fun _ => ?_) ?_
    | (simp only [↓State.dieEvent_safeEq, ↓State.modDie_safeEq, safeEq_mk]; done)
    | split
    | simp only [↓State.dieEvent_safeEq, ↓State.modDie_safeEq, safeEq_mk, safeEq_parts]

theorem State.loseCount_safeEq (s : State) (k : Nat) : (State.loseCount s k).safety = s.safety := by
  unfold State.loseCount
  simp only [↓State.dieEvent_safeEq, ↓State.modDie_safeEq, safeEq_mk, safeEq_parts]

theorem State.hubDraw_safeEq (s : State) (t0 : Nat) : (State.hubDraw s t0).2.safety = s.safety := by
  unfold State.hubDraw
  split
  · rfl
  · dsimp only
    split <;> rfl

theorem State.accrueDebt_safeEq (s : State) (qHub : Rat) : (State.accrueDebt s qHub).safety = s.safety := by
  unfold State.accrueDebt
  repeat' first
    | with_reducible rfl
    | with_reducible apply safeEq_ite
    | (simp only [↓State.modDie_safeEq, ↓State.modDies_safeEq, safeEq_mk]; done)
    | split
    | simp only [↓State.modDie_safeEq, ↓State.modDies_safeEq, safeEq_mk, safeEq_parts]

theorem State.takeChargeBlock_safeEq (s : State) (b : List Byte) : (State.takeChargeBlock s b).safety = s.safety := by
  unfold State.takeChargeBlock
  repeat' first
    | with_reducible rfl
    | with_reducible apply safeEq_ite
    | with_reducible refine (foldl_safeEq (fun _ _ => ?_) _ _).trans ?_
    | (simp only [↓State.meterBlock_safeEq, ↓State.accrueDebt_safeEq, ↓State.adoptEst_safeEq, ↓State.countBlock_safeEq, ↓State.hubDraw_safeEq, safeEq_mk]; done)
    | split
    | simp only [↓State.meterBlock_safeEq, ↓State.accrueDebt_safeEq, ↓State.adoptEst_safeEq, ↓State.countBlock_safeEq, ↓State.hubDraw_safeEq, safeEq_mk, safeEq_parts]

theorem State.sendChargeBlock_safeEq (s : State) (k sh : Nat) : (State.sendChargeBlock s k sh).safety = s.safety := by
  unfold State.sendChargeBlock
  repeat' first
    | with_reducible rfl
    | with_reducible apply safeEq_ite
    | with_reducible refine onDie_safeEq (fun _ => ?_) ?_
    | (simp only [↓State.originate_safeEq, ↓State.takeChargeBlock_safeEq, safeEq_mk]; done)
    | split
    | simp only [↓State.originate_safeEq, ↓State.takeChargeBlock_safeEq, safeEq_mk, safeEq_parts]

theorem State.meterGap_safeEq (s : State) (t0 : Nat) : (State.meterGap s t0).safety = s.safety := by
  unfold State.meterGap
  split <;> simp only [safeEq_mk, safeEq_parts]

theorem State.missChargeBlock_safeEq (s : State) (t0 k : Nat) (qHub : Rat) : (State.missChargeBlock s t0 k qHub).safety = s.safety := by
  unfold State.missChargeBlock
  repeat' first
    | with_reducible rfl
    | with_reducible apply safeEq_ite
    | with_reducible refine onDie_safeEq (fun _ => ?_) ?_
    | (simp only [↓State.loseCount_safeEq, ↓State.modDie_safeEq, ↓State.countBlock_safeEq, safeEq_mk]; done)
    | split
    | simp only [↓State.loseCount_safeEq, ↓State.modDie_safeEq, ↓State.countBlock_safeEq, safeEq_mk, safeEq_parts]

theorem State.endHold_safeEq (s : State) (k : Nat) : (State.endHold s k).safety = s.safety := by
  unfold State.endHold
  refine onDie_safeEq (fun _ => ?_) ?_
  · split <;> simp only [↓State.dieEvent_safeEq, ↓State.modDies_safeEq, safeEq_mk, safeEq_parts]
  · simp only [↓State.dieEvent_safeEq, ↓State.modDies_safeEq, safeEq_mk, safeEq_parts]

theorem State.restPoint_safeEq (s : State) (k : Nat) (d : Die) (tEnd : Nat) : (State.restPoint s k d tEnd).safety = s.safety := by
  unfold State.restPoint
  repeat' first
    | with_reducible rfl
    | with_reducible apply safeEq_ite
    | with_reducible refine (foldl_safeEq (fun _ _ => ?_) _ _).trans ?_
    | (simp only [↓State.modDie_safeEq, ↓State.persist_safeEq, ↓State.dieEventFull_safeEq, ↓State.endHold_safeEq, ↓State.modDies_safeEq, safeEq_mk]; done)
    | split
    | simp only [↓State.modDie_safeEq, ↓State.persist_safeEq, ↓State.dieEventFull_safeEq, ↓State.endHold_safeEq, ↓State.modDies_safeEq, safeEq_mk, safeEq_parts]

theorem State.modCell_safeEq (s : State) (k n : Nat) (f : CellSt → CellSt) : (State.modCell s k n f).safety = s.safety := by
  unfold State.modCell
  simp only [↓State.modDie_safeEq, safeEq_mk, safeEq_parts]

theorem State.declare_safeEq (s : State) (k : Nat) (low : Bool) (x : Nat × Nat × Rat) : (State.declare s k low x).safety = s.safety := by
  unfold State.declare
  split <;> simp only [↓State.dieEvent_safeEq, ↓State.modCell_safeEq, ↓State.modDies_safeEq, ↓State.persist_safeEq, ↓State.endHold_safeEq, safeEq_mk, safeEq_parts]

theorem State.judgeEnds_safeEq (s : State) (k : Nat) : (s.judgeEnds k).safety = s.safety := by
  unfold State.judgeEnds
  refine onDie_safeEq (fun d => ?_) rfl
  have hd : ∀ (o : Option (Nat × Nat × Rat)) (c : State → Nat × Nat × Rat → Bool) (b : Bool) (t : State), t.safety = s.safety →
      (match o with | some x => if c t x = true then t.declare k b x else t | none => t).safety = s.safety := by
    intro o c b t h
    cases o with
    | none => exact h
    | some x => exact safeEq_ite ((State.declare_safeEq ..).trans h) h
  exact hd _ (fun t x => !d.est.eoc && _) false _ (hd _ (fun t x => !d.est.eod && _) true _
    ((State.modDies_safeEq ..).trans (State.modDie_safeEq ..)))

theorem State.noteHistory_safeEq (s : State) (cells : List CellSt) (soc : Rat) (first : Bool) : (State.noteHistory s cells soc first).safety = s.safety := rfl

theorem State.loadState_safeEq (s : State) (k : Nat) : (State.loadState s k).safety = s.safety := by
  unfold State.loadState
  repeat' first
    | with_reducible rfl
    | with_reducible apply safeEq_ite
    | with_reducible refine onDie_safeEq (fun _ => ?_) ?_
    | (simp only [↓State.resetGroup_safeEq, ↓State.dieEvent_safeEq, ↓State.modDie_safeEq, safeEq_mk]; done)
    | split
    | simp only [↓State.resetGroup_safeEq, ↓State.dieEvent_safeEq, ↓State.modDie_safeEq, safeEq_mk, safeEq_parts]

theorem State.startFrom_safeEq (s : State) (k i t : Nat) : (State.startFrom s k i t).safety = s.safety := by
  unfold State.startFrom
  split <;> simp only [↓State.modDie_safeEq, safeEq_mk, safeEq_parts]

theorem State.seqRestart_safeEq (s : State) (k t : Nat) (keepWindows : Bool) : (State.seqRestart s k t keepWindows).safety = s.safety := by
  unfold State.seqRestart
  repeat' first
    | with_reducible rfl
    | with_reducible apply safeEq_ite
    | with_reducible refine onDie_safeEq (fun _ => ?_) ?_
    | (simp only [↓State.modDie_safeEq, ↓State.startFrom_safeEq, safeEq_mk]; done)
    | split
    | simp only [↓State.modDie_safeEq, ↓State.startFrom_safeEq, safeEq_mk, safeEq_parts]

theorem State.closeEntry_safeEq (s : State) (k : Nat) (cut preempt : Bool) : (State.closeEntry s k cut preempt).safety = s.safety := by
  unfold State.closeEntry
  repeat' first
    | with_reducible rfl
    | with_reducible apply safeEq_ite
    | with_reducible refine onDie_safeEq (fun _ => ?_) ?_
    | (simp only [↓State.drawBits_safeEq, ↓State.dieRecord_safeEq, ↓State.modDie_safeEq, safeEq_mk]; done)
    | split
    | simp only [↓State.drawBits_safeEq, ↓State.dieRecord_safeEq, ↓State.modDie_safeEq, safeEq_mk, safeEq_parts]

theorem State.judgeSwap_safeEq (s : State) (k : Nat) : (State.judgeSwap s k).safety = s.safety := by
  unfold State.judgeSwap
  repeat' first
    | with_reducible rfl
    | with_reducible apply safeEq_ite
    | with_reducible refine (foldl_safeEq (fun _ _ => ?_) _ _).trans ?_
    | with_reducible refine onDie_safeEq (fun _ => ?_) ?_
    | (simp only [↓State.dieEvent_safeEq, ↓State.modDie_safeEq, ↓State.swapGroup_safeEq, safeEq_mk]; done)
    | split
    | simp only [↓State.dieEvent_safeEq, ↓State.modDie_safeEq, ↓State.swapGroup_safeEq, safeEq_mk, safeEq_parts]

theorem State.seqAdvance_safeEq (s : State) (k i t : Nat) : (State.seqAdvance s k i t).safety = s.safety := by
  unfold State.seqAdvance
  split <;> simp only [↓State.modDie_safeEq, ↓State.startFrom_safeEq, ↓State.judgeSwap_safeEq, safeEq_mk, safeEq_parts]

theorem State.adoptSeq_safeEq (s : State) (k : Nat) : (State.adoptSeq s k).safety = s.safety := by
  unfold State.adoptSeq
  repeat' first
    | with_reducible rfl
    | with_reducible apply safeEq_ite
    | (simp only [↓State.seqRestart_safeEq, ↓State.takeBlock_safeEq, ↓State.modDie_safeEq, ↓State.closeEntry_safeEq, safeEq_mk]; done)
    | split
    | simp only [↓State.seqRestart_safeEq, ↓State.takeBlock_safeEq, ↓State.modDie_safeEq, ↓State.closeEntry_safeEq, safeEq_mk, safeEq_parts]

theorem State.releaseSlice_safeEq (s : State) (k block : Nat) : (State.releaseSlice s k block).safety = s.safety := by
  unfold State.releaseSlice
  repeat' first
    | with_reducible rfl
    | with_reducible apply safeEq_ite
    | with_reducible refine onDie_safeEq (fun _ => ?_) ?_
    | (simp only [↓State.modDie_safeEq, ↓State.startFrom_safeEq, safeEq_mk]; done)
    | split
    | simp only [↓State.modDie_safeEq, ↓State.startFrom_safeEq, safeEq_mk, safeEq_parts]

theorem State.modTest_safeEq (s : State) (k : Nat) (f : SelfTest → SelfTest) : (State.modTest s k f).safety = s.safety := rfl

theorem State.checkRejected_safeEq (s : State) : (State.checkRejected s).safety = s.safety := by
  unfold State.checkRejected
  simp only [↓State.modTest_safeEq, safeEq_mk, safeEq_parts]

theorem State.abortSlice_safeEq (s : State) (k : Nat) : (State.abortSlice s k).safety = s.safety := by
  unfold State.abortSlice
  split <;> simp only [↓State.releaseSlice_safeEq, ↓State.modTest_safeEq, safeEq_mk, safeEq_parts]

theorem State.freeLinks_safeEq (s : State) : (State.freeLinks s).safety = s.safety := by
  unfold State.freeLinks
  repeat' first
    | with_reducible rfl
    | with_reducible apply safeEq_ite
    | with_reducible refine (foldl_safeEq (fun _ _ => ?_) _ _).trans ?_
    | (simp only [↓State.abortSlice_safeEq, safeEq_mk]; done)
    | split
    | simp only [↓State.abortSlice_safeEq, safeEq_mk, safeEq_parts]

theorem State.clearFor_safeEq (s : State) (k : Nat) : (State.clearFor s k).safety = s.safety := by
  unfold State.clearFor
  simp only [↓State.freeLinks_safeEq, ↓State.abortSlice_safeEq, safeEq_mk, safeEq_parts]

theorem State.endUrgent_safeEq (s : State) (k : Nat) : (State.endUrgent s k).safety = s.safety := by
  unfold State.endUrgent
  repeat' first
    | with_reducible rfl
    | with_reducible apply safeEq_ite
    | with_reducible refine onDie_safeEq (fun _ => ?_) ?_
    | (simp only [↓State.modDie_safeEq, ↓State.owEnd_safeEq, ↓State.seqAdvance_safeEq, ↓State.startFrom_safeEq, safeEq_mk]; done)
    | split
    | simp only [↓State.modDie_safeEq, ↓State.owEnd_safeEq, ↓State.seqAdvance_safeEq, ↓State.startFrom_safeEq, safeEq_mk, safeEq_parts]

theorem State.closeRun_safeEq (s : State) (k t : Nat) : (State.closeRun s k t).safety = s.safety := by
  unfold State.closeRun
  refine onDie_safeEq (fun _ => ?_) ?_
  · split <;> simp only [↓State.modDie_safeEq, safeEq_mk, safeEq_parts]
  · simp only [↓State.modDie_safeEq, safeEq_mk, safeEq_parts]

theorem State.solveS1_safeEq (s : State) (r : CalRun) (po pg z : List Rat) : (State.solveS1 s r po pg z).2.safety = s.safety := by
  unfold State.solveS1
  simp only [↓State.drawRats_safeEq, safeEq_mk, safeEq_parts]

theorem State.solveRun_safeEq (s : State) (k : Nat) (d : Die) (r : CalRun) : (State.solveRun s k d r).2.safety = s.safety := by
  unfold State.solveRun
  repeat' first
    | with_reducible rfl
    | with_reducible apply safeEq_ite
    | (simp only [↓State.solveS1_safeEq, safeEq_mk]; done)
    | split
    | simp only [↓State.solveS1_safeEq, safeEq_mk, safeEq_parts]

theorem State.resetCal_safeEq (s : State) (k : Nat) : (State.resetCal s k).safety = s.safety := by
  unfold State.resetCal
  simp only [↓State.modDie_safeEq, ↓State.dieEvent_safeEq, ↓State.discardRun_safeEq, safeEq_mk, safeEq_parts]

theorem State.swapCal_safeEq (s : State) (k : Nat) : (State.swapCal s k).safety = s.safety := by
  unfold State.swapCal
  split <;> simp only [↓State.discardRun_safeEq, ↓State.takeBlock_safeEq, safeEq_mk, safeEq_parts]

theorem State.startService_safeEq (s : State) (k : Nat) : (State.startService s k).safety = s.safety := by
  unfold State.startService
  simp only [↓State.modDie_safeEq, safeEq_mk, safeEq_parts]

theorem State.atSample_safeEq (s : State) (k : Nat) : (State.atSample s k).safety = s.safety := by
  unfold State.atSample
  simp only [↓State.takePrec_safeEq, ↓State.startService_safeEq, ↓State.adoptSeq_safeEq, safeEq_mk, safeEq_parts]

theorem State.reportMemory_safeEq (s : State) (k block : Nat) (b : Bist) : (State.reportMemory s k block b).safety = s.safety := by
  unfold State.reportMemory
  repeat' first
    | with_reducible rfl
    | with_reducible apply safeEq_ite
    | (simp only [↓State.modTest_safeEq, ↓State.event_safeEq, safeEq_mk]; done)
    | split
    | simp only [↓State.modTest_safeEq, ↓State.event_safeEq, safeEq_mk, safeEq_parts]

theorem State.testFailed_safeEq (s : State) (k block : Nat) : (State.testFailed s k block).safety = s.safety := by
  unfold State.testFailed
  split <;> simp only [↓State.dieEvent_safeEq, ↓State.event_safeEq, safeEq_mk, safeEq_parts]

theorem State.precOff_safeEq (s : State) (k : Nat) : (State.precOff s k).safety = s.safety := by
  unfold State.precOff
  refine onDie_safeEq (fun _ => ?_) ?_
  · split <;> simp only [↓State.modTest_safeEq, ↓State.settleChannels_safeEq, ↓State.modDie_safeEq, ↓State.fastOff_safeEq, ↓State.discardRun_safeEq, ↓State.abortSlice_safeEq, safeEq_mk, safeEq_parts]
  · simp only [↓State.modTest_safeEq, ↓State.settleChannels_safeEq, ↓State.modDie_safeEq, ↓State.fastOff_safeEq, ↓State.discardRun_safeEq, ↓State.abortSlice_safeEq, safeEq_mk, safeEq_parts]

theorem State.precStart_safeEq (s : State) (k : Nat) : (State.precStart s k).safety = s.safety := by
  unfold State.precStart
  simp only [↓State.takeRange_safeEq, ↓State.policyTaken_safeEq, ↓State.startService_safeEq, ↓State.modDie_safeEq, ↓State.discardRun_safeEq, ↓State.takeBlock_safeEq, safeEq_mk, safeEq_parts]

theorem State.readFactory_safeEq (s : State) (k copies : Nat) : (State.readFactory s k copies).safety = s.safety := by
  unfold State.readFactory
  repeat' first
    | with_reducible rfl
    | with_reducible apply safeEq_ite
    | with_reducible refine onDie_safeEq (fun _ => ?_) ?_
    | (simp only [↓State.dieEvent_safeEq, ↓State.modDie_safeEq, safeEq_mk]; done)
    | split
    | simp only [↓State.dieEvent_safeEq, ↓State.modDie_safeEq, safeEq_mk, safeEq_parts]

theorem State.noteValid_safeEq (s : State) : (State.noteValid s).safety = s.safety := by
  unfold State.noteValid
  repeat' first
    | with_reducible rfl
    | with_reducible apply safeEq_ite
    | (simp only [↓State.modDies_safeEq, safeEq_mk]; done)
    | split
    | simp only [↓State.modDies_safeEq, safeEq_mk, safeEq_parts]

theorem State.keepAlive_safeEq (s : State) (k : Nat) : (State.keepAlive s k).safety = s.safety := by
  unfold State.keepAlive
  repeat' first
    | with_reducible rfl
    | with_reducible apply safeEq_ite
    | with_reducible refine onDie_safeEq (fun _ => ?_) ?_
    | (simp only [↓State.dieEvent_safeEq, ↓State.modDie_safeEq, safeEq_mk]; done)
    | split
    | simp only [↓State.dieEvent_safeEq, ↓State.modDie_safeEq, safeEq_mk, safeEq_parts]

theorem State.adoptProt_safeEq (s : State) (k : Nat) : (State.adoptProt s k).safety = s.safety := by
  unfold State.adoptProt
  repeat' first
    | with_reducible rfl
    | with_reducible apply safeEq_ite
    | (simp only [↓State.modDie_safeEq, ↓State.takeRange_safeEq, safeEq_mk]; done)
    | split
    | simp only [↓State.modDie_safeEq, ↓State.takeRange_safeEq, safeEq_mk, safeEq_parts]

theorem State.sampleComp_safeEq (s : State) (k i : Nat) (uv : Bool) (v : Rat) : (State.sampleComp s k i uv v).safety = s.safety := by
  unfold State.sampleComp
  repeat' first
    | with_reducible rfl
    | with_reducible apply safeEq_ite
    | with_reducible refine onDie_safeEq (fun _ => ?_) ?_
    | (simp only [↓State.modDie_safeEq, ↓State.dieEvent_safeEq, ↓State.clearFor_safeEq, ↓State.faultTrigger_safeEq, safeEq_mk]; done)
    | split
    | simp only [↓State.modDie_safeEq, ↓State.dieEvent_safeEq, ↓State.clearFor_safeEq, ↓State.faultTrigger_safeEq, safeEq_mk, safeEq_parts]

theorem State.judgeReady_safeEq (s : State) (k : Nat) : (State.judgeReady s k).safety = s.safety := by
  unfold State.judgeReady
  simp only [↓State.modDie_safeEq, safeEq_mk, safeEq_parts]

theorem State.clearDebts_safeEq (s : State) (k : Nat) : (State.clearDebts s k).safety = s.safety := by
  unfold State.clearDebts
  simp only [↓State.modDie_safeEq, safeEq_mk, safeEq_parts]

theorem State.breakLink_safeEq (s : State) (i : Nat) : (State.breakLink s i).safety = s.safety := by
  unfold State.breakLink
  repeat' first
    | with_reducible rfl
    | with_reducible apply safeEq_ite
    | with_reducible refine (foldl_safeEq (fun _ _ => ?_) _ _).trans ?_
    | (simp only [↓State.event_safeEq, ↓State.fastOff_safeEq, ↓State.closeFastStreams_safeEq, safeEq_mk]; done)
    | split
    | simp only [↓State.event_safeEq, ↓State.fastOff_safeEq, ↓State.closeFastStreams_safeEq, safeEq_mk, safeEq_parts]

theorem State.linkNotice_safeEq (s : State) (side : Side) (code : Nat) : (State.linkNotice s side code).safety = s.safety := by
  unfold State.linkNotice
  simp only [↓State.originate_safeEq, safeEq_mk, safeEq_parts]

theorem State.routeChange_safeEq (s : State) (side : Side) (code : Nat) : (State.routeChange s side code).safety = s.safety := by
  unfold State.routeChange
  simp only [↓State.linkNotice_safeEq, ↓State.event_safeEq, ↓State.noteHolder_safeEq, safeEq_mk, safeEq_parts]

theorem State.hopDown_safeEq (s : State) (side : Side) : (State.hopDown s side).safety = s.safety := by
  unfold State.hopDown
  repeat' first
    | with_reducible rfl
    | with_reducible apply safeEq_ite
    | with_reducible refine (foldl_safeEq (fun _ _ => ?_) _ _).trans ?_
    | (simp only [↓State.routeChange_safeEq, ↓State.modPort_safeEq, ↓State.egress_safeEq, safeEq_mk]; done)
    | split
    | simp only [↓State.routeChange_safeEq, ↓State.modPort_safeEq, ↓State.egress_safeEq, safeEq_mk, safeEq_parts]

theorem State.hopUp_safeEq (s : State) (side : Side) : (State.hopUp s side).safety = s.safety := by
  unfold State.hopUp
  repeat' first
    | with_reducible rfl
    | with_reducible apply safeEq_ite
    | (simp only [↓State.modPort_safeEq, ↓State.routeChange_safeEq, ↓State.flushUnrouted_safeEq, safeEq_mk]; done)
    | split
    | simp only [↓State.modPort_safeEq, ↓State.routeChange_safeEq, ↓State.flushUnrouted_safeEq, safeEq_mk, safeEq_parts]

theorem State.startTraining_safeEq (s : State) (side : Side) : (State.startTraining s side).safety = s.safety := by
  unfold State.startTraining
  simp only [↓State.modPort_safeEq, ↓State.emit_safeEq, safeEq_mk, safeEq_parts]

theorem State.sendKeying_safeEq (s : State) (side : Side) (rekey : Bool) (b : List Byte) : (State.sendKeying s side rekey b).safety = s.safety := by
  unfold State.sendKeying
  split <;> simp only [↓State.enqueue_safeEq, ↓State.emit_safeEq, safeEq_mk, safeEq_parts]

theorem State.startKeying_safeEq (s : State) (side : Side) (rekey : Bool) : (State.startKeying s side rekey).safety = s.safety := by
  unfold State.startKeying
  simp only [↓State.drawBits_safeEq, ↓State.modPort_safeEq, ↓State.sendKeying_safeEq, safeEq_mk, safeEq_parts]

theorem State.refuseKeying_safeEq (s : State) (side : Side) : (State.refuseKeying s side).safety = s.safety := by
  unfold State.refuseKeying
  simp only [↓State.modPort_safeEq, ↓State.event_safeEq, safeEq_mk, safeEq_parts]

theorem State.installKeys_safeEq (s : State) (side : Side) (k : Keying) (peer : Nat × Nat) : (State.installKeys s side k peer).safety = s.safety := by
  unfold State.installKeys
  simp only [↓State.modPort_safeEq, safeEq_mk, safeEq_parts]

theorem State.takeOffer_safeEq (s : State) (side : Side) (b : List Byte) : (State.takeOffer s side b).safety = s.safety := by
  unfold State.takeOffer
  repeat' first
    | with_reducible rfl
    | with_reducible apply safeEq_ite
    | (simp only [↓State.drawBits_safeEq, ↓State.modPort_safeEq, ↓State.at__safeEq, ↓State.refuseKeying_safeEq, ↓State.startKeying_safeEq, ↓State.event_safeEq, ↓State.sendKeying_safeEq, ↓State.rephase_safeEq, safeEq_mk]; done)
    | split
    | simp only [↓State.drawBits_safeEq, ↓State.modPort_safeEq, ↓State.at__safeEq, ↓State.refuseKeying_safeEq, ↓State.startKeying_safeEq, ↓State.event_safeEq, ↓State.sendKeying_safeEq, ↓State.rephase_safeEq, safeEq_mk, safeEq_parts]

theorem State.takeSignature_safeEq (s : State) (side : Side) (b : List Byte) : (State.takeSignature s side b).safety = s.safety := by
  unfold State.takeSignature
  repeat' first
    | with_reducible rfl
    | with_reducible apply safeEq_ite
    | (simp only [↓State.installKeys_safeEq, ↓State.refuseKeying_safeEq, ↓State.hopUp_safeEq, safeEq_mk]; done)
    | split
    | simp only [↓State.installKeys_safeEq, ↓State.refuseKeying_safeEq, ↓State.hopUp_safeEq, safeEq_mk, safeEq_parts]

theorem State.modHif_safeEq (s : State) (f : HifState → HifState) : (State.modHif s f).safety = s.safety := rfl

theorem State.raiseVector_safeEq (s : State) (v : Nat) : (State.raiseVector s v).safety = s.safety := by
  unfold State.raiseVector
  split <;> simp only [↓State.modHif_safeEq, ↓State.emit_safeEq, safeEq_mk, safeEq_parts]

theorem State.signal_safeEq {s : State} {q : Queue} {put : Queue → State → State}
    (h : ∀ q s, (put q s).safety = s.safety) : (s.signal q put).safety = s.safety := by
  unfold State.signal
  exact safeEq_ite rfl (safeEq_ite (State.raiseVector_safeEq ..) (safeEq_ite rfl (h _ _)))

theorem State.putCq_safeEq (n : Nat) (q : Queue) (s : State) : (State.putCq n q s).safety = s.safety := by
  unfold State.putCq
  simp only [↓State.modHif_safeEq, safeEq_mk, safeEq_parts]

theorem State.putStr_safeEq (r : Nat) (q : Queue) (s : State) : (State.putStr r q s).safety = s.safety := by
  unfold State.putStr
  simp only [↓State.modHif_safeEq, safeEq_mk, safeEq_parts]

theorem State.putEq_safeEq (q : Queue) (s : State) : (State.putEq q s).safety = s.safety := by
  unfold State.putEq
  simp only [↓State.modHif_safeEq, safeEq_mk, safeEq_parts]

theorem State.putSq_safeEq (n : Nat) (q : Queue) (s : State) : (State.putSq n q s).safety = s.safety := by
  unfold State.putSq
  simp only [↓State.modHif_safeEq, safeEq_mk, safeEq_parts]

theorem State.hifFatal_safeEq (s : State) (code : Nat) : (State.hifFatal s code).safety = s.safety := by
  unfold State.hifFatal
  simp only [↓State.modHif_safeEq, ↓State.raiseVector_safeEq, safeEq_mk, safeEq_parts]

theorem State.queueError_safeEq (s : State) (kind idx err : Nat) : (State.queueError s kind idx err).safety = s.safety := by
  unfold State.queueError
  simp only [↓State.event_safeEq, safeEq_mk, safeEq_parts]

theorem State.checkDrain_safeEq (s : State) : (State.checkDrain s).safety = s.safety := by
  unfold State.checkDrain
  repeat' first
    | with_reducible rfl
    | with_reducible apply safeEq_ite
    | (simp only [↓State.modHif_safeEq, safeEq_mk]; done)
    | split
    | simp only [↓State.modHif_safeEq, safeEq_mk, safeEq_parts]

theorem State.endSub_safeEq (s : State) (x : Sub) : (State.endSub s x).safety = s.safety := by
  unfold State.endSub
  repeat' first
    | with_reducible rfl
    | with_reducible apply safeEq_ite
    | (simp only [↓State.originate_safeEq, ↓State.closeFastStream_safeEq, safeEq_mk]; done)
    | split
    | simp only [↓State.originate_safeEq, ↓State.closeFastStream_safeEq, safeEq_mk, safeEq_parts]

theorem State.hifClear_safeEq (s : State) : (State.hifClear s).2.safety = s.safety := by
  unfold State.hifClear
  repeat' first
    | with_reducible rfl
    | with_reducible apply safeEq_ite
    | with_reducible refine (foldl_safeEq (fun _ _ => ?_) _ _).trans ?_
    | (simp only [↓State.unclaim_safeEq, ↓State.modHif_safeEq, ↓State.endSub_safeEq, safeEq_mk]; done)
    | split
    | simp only [↓State.unclaim_safeEq, ↓State.modHif_safeEq, ↓State.endSub_safeEq, safeEq_mk, safeEq_parts]

theorem State.hifOff_safeEq (s : State) : (State.hifOff s).safety = s.safety := by
  unfold State.hifOff
  simp only [↓State.hifClear_safeEq, safeEq_mk, safeEq_parts]



theorem State.wakePart_safeEq (s : State) (pos state : Nat) : (State.wakePart s pos state).safety = s.safety := by
  unfold State.wakePart
  simp only [↓State.emit_safeEq, safeEq_mk, safeEq_parts]

theorem State.castAsleep_safeEq (s : State) (x : InFlight) : (State.castAsleep s x).safety = s.safety := by
  unfold State.castAsleep
  repeat' first
    | with_reducible rfl
    | with_reducible apply safeEq_ite
    | with_reducible refine (foldl_safeEq (fun _ _ => ?_) _ _).trans ?_
    | (simp only [↓State.takeCompletion_safeEq, ↓State.wakePart_safeEq, safeEq_mk]; done)
    | split
    | simp only [↓State.takeCompletion_safeEq, ↓State.wakePart_safeEq, safeEq_mk, safeEq_parts]

theorem State.awake_safeEq (s : State) (pos : Nat) : (State.awake s pos).safety = s.safety := by
  unfold State.awake
  repeat' first
    | with_reducible rfl
    | with_reducible apply safeEq_ite
    | with_reducible refine (foldl_safeEq (fun _ _ => ?_) _ _).trans ?_
    | (simp only [↓State.modHif_safeEq, ↓State.takeCompletion_safeEq, safeEq_mk]; done)
    | split
    | simp only [↓State.modHif_safeEq, ↓State.takeCompletion_safeEq, safeEq_mk, safeEq_parts]

theorem State.startGroup_safeEq (s : State) (x : InFlight) (body : List Byte) : (State.startGroup s x body).safety = s.safety := by
  unfold State.startGroup
  repeat' first
    | with_reducible rfl
    | with_reducible apply safeEq_ite
    | (simp only [↓State.queueCompletion_safeEq, ↓State.originate_safeEq, safeEq_mk]; done)
    | split
    | simp only [↓State.queueCompletion_safeEq, ↓State.originate_safeEq, safeEq_mk, safeEq_parts]

theorem State.openRemote_safeEq (s : State) (x : InFlight) (body : List Byte) : (State.openRemote s x body).safety = s.safety := by
  unfold State.openRemote
  split <;> simp only [↓State.queueCompletion_safeEq, ↓State.modHif_safeEq, ↓State.originate_safeEq, safeEq_mk, safeEq_parts]

theorem State.startCmd_safeEq (s : State) (x : InFlight) : (State.startCmd s x).safety = s.safety := by
  unfold State.startCmd
  repeat' first
    | with_reducible rfl
    | with_reducible apply safeEq_ite
    | (simp only [↓State.openRemote_safeEq, ↓State.originate_safeEq, ↓State.modHif_safeEq, ↓State.castAsleep_safeEq, ↓State.wakePart_safeEq, ↓State.startGroup_safeEq, ↓State.queueCompletion_safeEq, safeEq_mk]; done)
    | split
    | simp only [↓State.openRemote_safeEq, ↓State.originate_safeEq, ↓State.modHif_safeEq, ↓State.castAsleep_safeEq, ↓State.wakePart_safeEq, ↓State.startGroup_safeEq, ↓State.queueCompletion_safeEq, safeEq_mk, safeEq_parts]

theorem State.startWaiting_safeEq (s : State) (n : Nat) : (s.startWaiting n).safety = s.safety := by
  induction n generalizing s with
  | zero => rfl
  | succ n ih =>
    unfold State.startWaiting
    split
    · rfl
    · exact (ih _).trans (State.startCmd_safeEq ..)

theorem State.startAll_safeEq (s : State) : (State.startAll s).safety = s.safety := by
  unfold State.startAll
  simp only [↓State.startWaiting_safeEq, safeEq_mk, safeEq_parts]

theorem State.finishRead_safeEq (s : State) (c : Cmd) (lost : List Nat) (got : List (Nat × List Byte)) : (State.finishRead s c lost got).safety = s.safety := by
  unfold State.finishRead
  simp only [↓State.completeData_safeEq, safeEq_mk, safeEq_parts]

theorem State.endClosed_safeEq (s : State) : (State.endClosed s).safety = s.safety := by
  unfold State.endClosed
  repeat' first
    | with_reducible rfl
    | with_reducible apply safeEq_ite
    | with_reducible refine (foldl_safeEq (fun _ _ => ?_) _ _).trans ?_
    | (simp only [↓State.modHif_safeEq, ↓State.completeOpt_safeEq, safeEq_mk]; done)
    | split
    | simp only [↓State.modHif_safeEq, ↓State.completeOpt_safeEq, safeEq_mk, safeEq_parts]

theorem State.noteActivity_safeEq (s : State) : (State.noteActivity s).safety = s.safety := rfl

theorem State.undoze_safeEq (s : State) : (State.undoze s).safety = s.safety := by
  unfold State.undoze
  repeat' first
    | with_reducible rfl
    | with_reducible apply safeEq_ite
    | with_reducible refine (foldl_safeEq (fun _ _ => ?_) _ _).trans ?_
    | (simp only [↓State.accrueTest_safeEq, ↓State.fastDomain_safeEq, ↓State.noteActivity_safeEq, safeEq_mk]; done)
    | split
    | simp only [↓State.accrueTest_safeEq, ↓State.fastDomain_safeEq, ↓State.noteActivity_safeEq, safeEq_mk, safeEq_parts]

theorem State.sign_safeEq (s : State) (key : Nat) (msg : List Byte) : (State.sign s key msg).2.safety = s.safety := by
  unfold State.sign
  simp only [↓State.drawBits_safeEq, safeEq_mk, safeEq_parts]

theorem State.commitMeter_safeEq (s : State) (warn : Bool) : (State.commitMeter s warn).safety = s.safety := by
  unfold State.commitMeter
  simp only [State.modTrust, State.modCfg, safeEq_mk, safeEq_parts]

theorem State.srcIdent_safeEq (s : State) (p : Nat) : (State.srcIdent s p).2.safety = s.safety := by
  unfold State.srcIdent
  repeat' first
    | with_reducible rfl
    | with_reducible apply safeEq_ite
    | (simp only [↓State.drawBits_safeEq, safeEq_mk]; done)
    | split
    | simp only [↓State.drawBits_safeEq, safeEq_mk, safeEq_parts]

theorem State.statementHead_safeEq (s : State) (c : Cmd) : (State.statementHead s c).2.safety = s.safety := by
  unfold State.statementHead
  repeat' first
    | with_reducible rfl
    | with_reducible apply safeEq_ite
    | (simp only [↓State.srcIdent_safeEq, safeEq_mk]; done)
    | split
    | simp only [↓State.srcIdent_safeEq, safeEq_mk, safeEq_parts]

theorem State.formStatement_safeEq (s : State) (c : Cmd) : (State.formStatement s c).safety = s.safety := by
  unfold State.formStatement
  split <;> simp only [↓State.complete_safeEq, ↓State.completeData_safeEq, ↓State.statementHead_safeEq, ↓State.sign_safeEq, ↓State.event_safeEq, State.modTrust, State.modCfg, safeEq_mk, safeEq_parts]

theorem State.formStatements_safeEq (s : State) : (State.formStatements s).safety = s.safety := by
  unfold State.formStatements
  repeat' first
    | with_reducible rfl
    | with_reducible apply safeEq_ite
    | with_reducible refine (foldl_safeEq (fun _ _ => ?_) _ _).trans ?_
    | (simp only [↓State.formStatement_safeEq, State.modTrust, State.modCfg, safeEq_mk]; done)
    | split
    | simp only [↓State.formStatement_safeEq, State.modTrust, State.modCfg, safeEq_mk, safeEq_parts]

theorem State.noteImage_safeEq (s : State) (kind sub : Nat) (b : List Byte) : (State.noteImage s kind sub b).safety = s.safety := by
  unfold State.noteImage
  simp only [↓State.blackBox_safeEq, ↓State.event_safeEq, safeEq_mk, safeEq_parts]

theorem State.abortExecuting_safeEq (s : State) : (State.abortExecuting s).safety = s.safety := by
  unfold State.abortExecuting
  repeat' first
    | with_reducible rfl
    | with_reducible apply safeEq_ite
    | with_reducible refine (foldl_safeEq (fun _ _ => ?_) _ _).trans ?_
    | (simp only [↓State.complete_safeEq, safeEq_mk]; done)
    | split
    | simp only [↓State.complete_safeEq, safeEq_mk, safeEq_parts]

theorem State.tasksHome_safeEq (s : State) (k : Nat) : (State.tasksHome s k).safety = s.safety := by
  unfold State.tasksHome
  repeat' first
    | with_reducible rfl
    | with_reducible apply safeEq_ite
    | with_reducible refine onDie_safeEq (fun _ => ?_) ?_
    | (simp only [↓State.modDie_safeEq, ↓State.loadState_safeEq, safeEq_mk]; done)
    | split
    | simp only [↓State.modDie_safeEq, ↓State.loadState_safeEq, safeEq_mk, safeEq_parts]

theorem State.beginSpan_safeEq (s : State) (a : Activation) : (State.beginSpan s a).safety = s.safety := by
  unfold State.beginSpan
  simp only [↓State.modDies_safeEq, ↓State.abortExecuting_safeEq, State.modTrust, State.modCfg, safeEq_mk, safeEq_parts]

theorem State.resetSpan_safeEq (s : State) : (State.resetSpan s).safety = s.safety := by
  unfold State.resetSpan
  repeat' first
    | with_reducible rfl
    | with_reducible apply safeEq_ite
    | with_reducible refine (foldl_safeEq (fun _ _ => ?_) _ _).trans ?_
    | (simp only [↓State.tasksHome_safeEq, ↓State.abortExecuting_safeEq, State.modTrust, State.modCfg, safeEq_mk]; done)
    | split
    | simp only [↓State.tasksHome_safeEq, ↓State.abortExecuting_safeEq, State.modTrust, State.modCfg, safeEq_mk, safeEq_parts]

theorem State.beginApex_safeEq (s : State) (a : Activation) : (State.beginApex s a).safety = s.safety := by
  unfold State.beginApex
  split <;> simp only [↓State.complete_safeEq, ↓State.accrueTest_safeEq, ↓State.noteImage_safeEq, State.modTrust, State.modCfg, safeEq_mk, safeEq_parts]

theorem State.actDue_safeEq (s : State) : (State.actDue s).safety = s.safety := by
  unfold State.actDue
  repeat' first
    | with_reducible rfl
    | with_reducible apply safeEq_ite
    | (simp only [↓State.beginSpan_safeEq, ↓State.resetSpan_safeEq, ↓State.beginApex_safeEq, safeEq_mk]; done)
    | split
    | simp only [↓State.beginSpan_safeEq, ↓State.resetSpan_safeEq, ↓State.beginApex_safeEq, safeEq_mk, safeEq_parts]

theorem State.bbBytes_safeEq (s : State) (w : BbWait) (unsign : Bool) : (State.bbBytes s w unsign).2.safety = s.safety := by
  unfold State.bbBytes
  split <;> simp only [↓State.sign_safeEq, safeEq_mk, safeEq_parts]

theorem State.writeBb_safeEq (s : State) (okA okB : Bool) : (s.writeBb okA okB).safety = s.safety := by
  unfold State.writeBb
  split
  · rfl
  · dsimp only
    repeat' first
      | with_reducible rfl
      | with_reducible apply safeEq_ite
      | simp only [↓State.originate_safeEq, ↓State.event_safeEq, State.modTrust, TrustState.putBb, safeEq_mk, safeEq_parts, ↓State.bbBytes_safeEq]

theorem State.writeAllBb_safeEq (s : State) (n : Nat) : (s.writeAllBb n).safety = s.safety := by
  induction n generalizing s with
  | zero => rfl
  | succ n ih =>
    unfold State.writeAllBb
    exact safeEq_ite rfl ((ih _).trans (State.writeBb_safeEq ..))

theorem State.drainPort_safeEq (s : State) (side : Side) (tcs : List Nat) (n : Nat) :
    (s.drainPort side tcs n).safety = s.safety := by
  induction n generalizing s with
  | zero => rfl
  | succ n ih =>
    unfold State.drainPort
    refine safeEq_ite rfl ?_
    split
    · rfl
    · exact (ih _).trans ((State.emit_safeEq ..).trans (State.modPort_safeEq ..))

theorem State.drainUrgent_safeEq (s : State) : (State.drainUrgent s).safety = s.safety := by
  unfold State.drainUrgent
  simp only [↓State.drainPort_safeEq, safeEq_mk, safeEq_parts]

theorem State.dropHops_safeEq (s : State) : (State.dropHops s).safety = s.safety := by
  unfold State.dropHops
  simp only [↓State.modPort_safeEq, ↓State.hopDown_safeEq, safeEq_mk, safeEq_parts]

theorem State.debugRecord_safeEq (s : State) (level : Nat) (awake : Bool) (signer : List Byte) : (State.debugRecord s level awake signer).safety = s.safety := by
  unfold State.debugRecord
  simp only [↓State.blackBox_safeEq, safeEq_mk, safeEq_parts]

theorem State.modSwp_safeEq (s : State) (p : Nat) (f : SwpPort → SwpPort) : (State.modSwp s p f).safety = s.safety := by
  unfold State.modSwp
  split <;> simp only [safeEq_mk, safeEq_parts]

theorem State.onSwp_safeEq {s : State} {p : Nat} {f : SwpPort → State} {x : SafeState} (h : ∀ d, (f d).safety = x)
    (hs : s.safety = x) : (s.onSwp p f).safety = x := by
  unfold State.onSwp
  refine safeEq_ite hs ?_
  split
  · exact hs
  · exact h _

theorem State.emits_safeEq (s : State) (l : List Out) : (State.emits s l).safety = s.safety := by
  unfold State.emits
  repeat' first
    | with_reducible rfl
    | with_reducible apply safeEq_ite
    | with_reducible refine (foldl_safeEq (fun _ _ => ?_) _ _).trans ?_
    | (simp only [↓State.emit_safeEq, safeEq_mk]; done)
    | split
    | simp only [↓State.emit_safeEq, safeEq_mk, safeEq_parts]

theorem State.startSearch_safeEq (s : State) (p kind : Nat) : (State.startSearch s p kind).safety = s.safety := by
  unfold State.startSearch
  simp only [↓State.modSwp_safeEq, ↓State.emit_safeEq, safeEq_mk, safeEq_parts]

theorem State.adoptSwp_safeEq (s : State) (p : Nat) : (State.adoptSwp s p).safety = s.safety := by
  unfold State.adoptSwp
  repeat' first
    | with_reducible rfl
    | with_reducible apply safeEq_ite
    | (simp only [↓State.modSwp_safeEq, ↓State.takeRange_safeEq, safeEq_mk]; done)
    | split
    | simp only [↓State.modSwp_safeEq, ↓State.takeRange_safeEq, safeEq_mk, safeEq_parts]

theorem State.takeSlot_safeEq (s : State) (p number i : Nat) : (State.takeSlot s p number i).safety = s.safety := by
  unfold State.takeSlot
  repeat' first
    | with_reducible rfl
    | with_reducible apply safeEq_ite
    | with_reducible refine State.onSwp_safeEq (fun _ => ?_) ?_
    | (simp only [↓State.event_safeEq, ↓State.modSwp_safeEq, safeEq_mk]; done)
    | split
    | simp only [↓State.event_safeEq, ↓State.modSwp_safeEq, safeEq_mk, safeEq_parts]

theorem State.assignSensor_safeEq (s : State) (p number : Nat) (back : List Nat) : (State.assignSensor s p number back).safety = s.safety := by
  unfold State.assignSensor
  repeat' first
    | with_reducible rfl
    | with_reducible apply safeEq_ite
    | with_reducible refine State.onSwp_safeEq (fun _ => ?_) ?_
    | (simp only [↓State.event_safeEq, ↓State.emits_safeEq, ↓State.modSwp_safeEq, ↓State.takeSlot_safeEq, safeEq_mk]; done)
    | split
    | simp only [↓State.event_safeEq, ↓State.emits_safeEq, ↓State.modSwp_safeEq, ↓State.takeSlot_safeEq, safeEq_mk, safeEq_parts]

theorem State.endSearch_safeEq (s : State) (p : Nat) (runs : List Cmd) (st : Status) : (State.endSearch s p runs st).safety = s.safety := by
  unfold State.endSearch
  repeat' first
    | with_reducible rfl
    | with_reducible apply safeEq_ite
    | with_reducible refine (foldl_safeEq (fun _ _ => ?_) _ _).trans ?_
    | with_reducible refine State.onSwp_safeEq (fun _ => ?_) ?_
    | (simp only [↓State.adoptSwp_safeEq, ↓State.emits_safeEq, ↓State.modSwp_safeEq, ↓State.complete_safeEq, safeEq_mk]; done)
    | split
    | simp only [↓State.adoptSwp_safeEq, ↓State.emits_safeEq, ↓State.modSwp_safeEq, ↓State.complete_safeEq, safeEq_mk, safeEq_parts]

theorem State.dropPlace_safeEq (s : State) : (State.dropPlace s).safety = s.safety := rfl

theorem State.becomeFrontier_safeEq (s : State) : (State.becomeFrontier s).safety = s.safety := rfl

theorem State.finishEnumeration_safeEq (s : State) (parts : Nat) (closed : Bool) : (State.finishEnumeration s parts closed).safety = s.safety := by
  unfold State.finishEnumeration
  repeat' first
    | with_reducible rfl
    | with_reducible apply safeEq_ite
    | with_reducible refine (foldl_safeEq (fun _ _ => ?_) _ _).trans ?_
    | (simp only [↓State.modPort_safeEq, ↓State.originate_safeEq, ↓State.holderAnew_safeEq, ↓State.event_safeEq, ↓State.flushUnrouted_safeEq, ↓State.startAll_safeEq, ↓State.completeOpt_safeEq, safeEq_mk]; done)
    | split
    | simp only [↓State.modPort_safeEq, ↓State.originate_safeEq, ↓State.holderAnew_safeEq, ↓State.event_safeEq, ↓State.flushUnrouted_safeEq, ↓State.startAll_safeEq, ↓State.completeOpt_safeEq, safeEq_mk, safeEq_parts]

theorem State.endEnumeration_safeEq (s : State) (parts : Nat) (closed : Bool) : (State.endEnumeration s parts closed).safety = s.safety := by
  unfold State.endEnumeration
  repeat' first
    | with_reducible rfl
    | with_reducible apply safeEq_ite
    | (simp only [↓State.originate_safeEq, ↓State.enqueue_safeEq, ↓State.finishEnumeration_safeEq, safeEq_mk]; done)
    | split
    | simp only [↓State.originate_safeEq, ↓State.enqueue_safeEq, ↓State.finishEnumeration_safeEq, safeEq_mk, safeEq_parts]

theorem State.freshHop_safeEq (s : State) (ident next : Nat) : (State.freshHop s ident next).safety = s.safety := by
  unfold State.freshHop
  simp only [↓State.modPort_safeEq, ↓State.startTraining_safeEq, ↓State.hopDown_safeEq, safeEq_mk, safeEq_parts]

theorem State.closeRing_safeEq (s : State) : (State.closeRing s).safety = s.safety := by
  unfold State.closeRing
  repeat' first
    | with_reducible rfl
    | with_reducible apply safeEq_ite
    | (simp only [↓State.endEnumeration_safeEq, safeEq_mk]; done)
    | split
    | simp only [↓State.endEnumeration_safeEq, safeEq_mk, safeEq_parts]

theorem State.tagFailure_safeEq (s : State) (side : Side) : (State.tagFailure s side).safety = s.safety := by
  unfold State.tagFailure
  repeat' first
    | with_reducible rfl
    | with_reducible apply safeEq_ite
    | (simp only [↓State.modPort_safeEq, ↓State.hopDown_safeEq, ↓State.event_safeEq, safeEq_mk]; done)
    | split
    | simp only [↓State.modPort_safeEq, ↓State.hopDown_safeEq, ↓State.event_safeEq, safeEq_mk, safeEq_parts]

theorem State.passTc0_safeEq (s : State) (f : Frame) : (State.passTc0 s f).safety = s.safety := by
  unfold State.passTc0
  split <;> simp only [↓State.freeLinks_safeEq, safeEq_mk, safeEq_parts]

theorem State.takeFrame_safeEq (s : State) (side : Side) (bytes : List Byte) : (State.takeFrame s side bytes).safety = s.safety := by
  unfold State.takeFrame
  repeat' first
    | with_reducible rfl
    | with_reducible apply safeEq_ite
    | with_reducible refine (foldl_safeEq (fun _ _ => ?_) _ _).trans ?_
    | (simp only [↓State.passTc0_safeEq, ↓State.modPort_safeEq, ↓State.tagFailure_safeEq, safeEq_mk]; done)
    | split
    | simp only [↓State.passTc0_safeEq, ↓State.modPort_safeEq, ↓State.tagFailure_safeEq, safeEq_mk, safeEq_parts]

theorem State.exchange_safeEq (s : State) (side : Side) (b : List Byte) : (State.exchange s side b).safety = s.safety := by
  unfold State.exchange
  repeat' first
    | with_reducible rfl
    | with_reducible apply safeEq_ite
    | (simp only [↓State.modPort_safeEq, safeEq_mk]; done)
    | split
    | simp only [↓State.modPort_safeEq, safeEq_mk, safeEq_parts]

theorem State.queueBeacon_safeEq (s : State) (side : Side) (f : Frame) (corr : Nat) : (State.queueBeacon s side f corr).safety = s.safety := by
  unfold State.queueBeacon
  simp only [↓State.enqueue_safeEq, safeEq_mk, safeEq_parts]

theorem State.servo_safeEq (s : State) (ofs : Int) (base : Nat) : (State.servo s ofs base).safety = s.safety := by
  unfold State.servo
  repeat' first
    | with_reducible rfl
    | with_reducible apply safeEq_ite
    | (simp only [↓State.takeStep_safeEq, safeEq_mk]; done)
    | split
    | simp only [↓State.takeStep_safeEq, safeEq_mk, safeEq_parts]

theorem State.commitPackTime_safeEq (s : State) : (State.commitPackTime s).safety = s.safety := by
  unfold State.commitPackTime
  split <;> simp only [safeEq_mk, safeEq_parts]

theorem State.bucketFlag_safeEq (s : State) : (State.bucketFlag s).safety = s.safety := by
  unfold State.bucketFlag
  repeat' first
    | with_reducible rfl
    | with_reducible apply safeEq_ite
    | (simp only [↓State.placement_safeEq, safeEq_mk]; done)
    | split
    | simp only [↓State.placement_safeEq, safeEq_mk, safeEq_parts]

theorem State.failStore_safeEq (s : State) : (State.failStore s).safety = s.safety := by
  unfold State.failStore
  split <;> simp only [↓State.writer_safeEq, ↓State.placement_safeEq, safeEq_mk, safeEq_parts]

theorem State.takeUnits_safeEq {s : State} {but : List Nat} {n : Nat} {r : List Nat × State} (h : s.takeUnits but n = some r) :
    r.2.safety = s.safety := by
  induction n generalizing s r with
  | zero => cases h; rfl
  | succ m ih =>
    unfold State.takeUnits at h
    obtain ⟨b, hb, h⟩ := Option.bind_eq_some_iff.1 h
    obtain ⟨x, hx, rfl⟩ := Option.map_eq_some_iff.1 h
    exact (ih hx).trans (State.targetBlock_safeEq hb)

theorem State.copyBlock_safeEq {s t : State} {i : Nat} (h : s.copyBlock i = some t) : t.safety = s.safety := by
  unfold State.copyBlock at h
  have key : ∀ (l : List (List Rec)) (f : State → List Rec → Option State) (_ : ∀ u r v, f u r = some v → v.safety = u.safety)
      (o : Option State), l.foldl (fun acc r => acc.bind fun u => f u r) o = some t → ∃ u, o = some u ∧ t.safety = u.safety := by
    intro l f hf
    induction l with
    | nil => exact fun o h => ⟨t, h, rfl⟩
    | cons a l ih =>
      intro o h
      obtain ⟨u, hu, ht⟩ := ih _ h
      obtain ⟨v, hv, hf'⟩ := Option.bind_eq_some_iff.1 hu
      exact ⟨v, hv, ht.trans (hf _ _ _ hf')⟩
  obtain ⟨u, hu, ht⟩ := key _ _ (fun u r v hv => by
    obtain ⟨x, hx, rfl⟩ := Option.map_eq_some_iff.1 hv
    exact (State.takeUnits_safeEq hx)) _ h
  cases hu
  exact ht

theorem State.levelWear_safeEq (s : State) : s.levelWear.safety = s.safety := by
  unfold State.levelWear
  dsimp only
  split
  · rfl
  · refine safeEq_ite rfl ?_
    split
    · rfl
    · rename_i t h
      exact (show _ = t.safety from rfl).trans (State.copyBlock_safeEq h)

theorem State.moveRetired_safeEq (s : State) : s.moveRetired.safety = s.safety := by
  unfold State.moveRetired
  refine foldl_safeEq (fun s b => safeEq_ite rfl ?_) _ _
  cases h : s.copyBlock b.idx with
  | none => rfl
  | some t => exact State.copyBlock_safeEq h

theorem State.retireBlock_safeEq (s : State) (i : Nat) : (s.retireBlock i).safety = s.safety := by
  unfold State.retireBlock
  exact safeEq_ite ((State.failStore_safeEq _).trans ((State.placement_safeEq ..).trans rfl))
    ((State.moveRetired_safeEq _).trans ((State.placement_safeEq ..).trans rfl))

theorem State.spillUnit_safeEq (s : State) (u : OpenUnit) (holder : Nat) : (State.spillUnit s u holder).safety = s.safety := by
  unfold State.spillUnit
  repeat' first
    | with_reducible rfl
    | with_reducible apply safeEq_ite
    | with_reducible refine (foldl_safeEq (fun _ _ => ?_) _ _).trans ?_
    | (simp only [↓State.originate_safeEq, safeEq_mk]; done)
    | split
    | simp only [↓State.originate_safeEq, safeEq_mk, safeEq_parts]

theorem State.programUnit_safeEq (s : State) (u : OpenUnit) (i : Nat) : (s.programUnit u i).safety = s.safety := by
  unfold State.programUnit
  exact (State.bucketFlag_safeEq _).trans ((State.levelWear_safeEq _).trans rfl)

theorem State.programHead_safeEq (s : State) (ok : Bool) : (s.programHead ok).safety = s.safety := by
  unfold State.programHead
  split
  · rfl
  · dsimp only
    split
    · exact safeEq_ite ((State.writer_safeEq _).trans ((State.programUnit_safeEq ..).trans rfl))
        ((State.writer_safeEq _).trans ((State.retireBlock_safeEq ..).trans rfl))
    · refine safeEq_ite rfl ?_
      split
      · rfl
      · exact safeEq_ite ((State.writer_safeEq _).trans ((State.spillUnit_safeEq ..).trans rfl)) rfl

theorem State.abandon_safeEq (s : State) (groups : List Nat) : (State.abandon s groups).safety = s.safety := rfl

theorem State.abandonD3_safeEq (s : State) : (State.abandonD3 s).safety = s.safety := by
  unfold State.abandonD3
  repeat' first
    | with_reducible rfl
    | with_reducible apply safeEq_ite
    | with_reducible refine (foldl_safeEq (fun _ _ => ?_) _ _).trans ?_
    | (simp only [↓State.countDrop_safeEq, ↓State.abandon_safeEq, safeEq_mk]; done)
    | split
    | simp only [↓State.countDrop_safeEq, ↓State.abandon_safeEq, safeEq_mk, safeEq_parts]

theorem State.programAll_safeEq (s : State) (n : Nat) : (s.programAll n).safety = s.safety := by
  induction n generalizing s with
  | zero => rfl
  | succ n ih =>
    unfold State.programAll
    exact safeEq_ite rfl ((ih _).trans ((State.programHead_safeEq ..).trans (State.startUnit_safeEq ..)))

theorem State.writeDir_safeEq (s : State) : (State.writeDir s).safety = s.safety := rfl

theorem State.locusWarning_safeEq (s : State) (holdMs : Nat) : (State.locusWarning s holdMs).safety = s.safety := by
  unfold State.locusWarning
  repeat' first
    | with_reducible rfl
    | with_reducible apply safeEq_ite
    | (simp only [↓State.writeDir_safeEq, ↓State.programHead_safeEq, ↓State.programAll_safeEq, ↓State.abandonD3_safeEq, safeEq_mk]; done)
    | split
    | simp only [↓State.writeDir_safeEq, ↓State.programHead_safeEq, ↓State.programAll_safeEq, ↓State.abandonD3_safeEq, safeEq_mk, safeEq_parts]

theorem State.locusSleep_safeEq (s : State) : (State.locusSleep s).safety = s.safety := by
  unfold State.locusSleep
  split <;> simp only [↓State.writeDir_safeEq, ↓State.programAll_safeEq, safeEq_mk, safeEq_parts]

theorem State.locusRestart_safeEq (s : State) : (State.locusRestart s).safety = s.safety := rfl

theorem State.adoptLocus_safeEq (s : State) : (State.adoptLocus s).safety = s.safety := by
  unfold State.adoptLocus
  split <;> simp only [↓State.takeBlock_safeEq, safeEq_mk, safeEq_parts]

theorem State.modPower_safeEq (s : State) (f : PowerState → PowerState) : (State.modPower s f).safety = s.safety := rfl

theorem State.modRail_safeEq (s : State) (i : Nat) (f : Rail → Rail) : (State.modRail s i f).safety = s.safety := by
  unfold State.modRail
  simp only [↓State.modPower_safeEq, safeEq_mk, safeEq_parts]

theorem State.setHoldEff_safeEq (s : State) : (State.setHoldEff s).safety = s.safety := by
  unfold State.setHoldEff
  simp only [↓State.modPower_safeEq, safeEq_mk, safeEq_parts]

theorem State.chooseSrc_safeEq (s : State) : (State.chooseSrc s).safety = s.safety := by
  unfold State.chooseSrc
  simp only [↓State.modPower_safeEq, safeEq_mk, safeEq_parts]

theorem State.countRail_safeEq (s : State) (i kind : Nat) : (State.countRail s i kind).safety = s.safety := by
  unfold State.countRail
  simp only [↓State.modRail_safeEq, ↓State.event_safeEq, safeEq_mk, safeEq_parts]

theorem State.copyCounters_safeEq (s : State) : (State.copyCounters s).safety = s.safety := by
  unfold State.copyCounters
  simp only [↓State.blackBox_safeEq, ↓State.modPower_safeEq, safeEq_mk, safeEq_parts]

theorem State.enableNext_safeEq (s : State) : (State.enableNext s).safety = s.safety := by
  unfold State.enableNext
  split <;> simp only [↓State.modRail_safeEq, ↓State.modPower_safeEq, safeEq_mk, safeEq_parts]

theorem State.startUp_safeEq (s : State) : (State.startUp s).safety = s.safety := by
  unfold State.startUp
  simp only [↓State.enableNext_safeEq, ↓State.modPower_safeEq, safeEq_mk, safeEq_parts]

theorem State.testPads_safeEq (s : State) (level : Nat) : (State.testPads s level).safety = s.safety := by
  unfold State.testPads
  split <;> simp only [↓State.emit_safeEq, safeEq_mk, safeEq_parts]

theorem State.diesCutOff_safeEq (s : State) : (State.diesCutOff s).safety = s.safety := by
  unfold State.diesCutOff
  repeat' first
    | with_reducible rfl
    | with_reducible apply safeEq_ite
    | with_reducible refine (foldl_safeEq (fun _ _ => ?_) _ _).trans ?_
    | (simp only [↓State.fastOff_safeEq, safeEq_mk]; done)
    | split
    | simp only [↓State.fastOff_safeEq, safeEq_mk, safeEq_parts]

theorem State.compareBb_safeEq (s : State) : (State.compareBb s).safety = s.safety := by
  unfold State.compareBb
  repeat' first
    | with_reducible rfl
    | with_reducible apply safeEq_ite
    | with_reducible refine (foldl_safeEq (fun _ _ => ?_) _ _).trans ?_
    | (simp only [↓State.event_safeEq, State.modTrust, State.modCfg, safeEq_mk]; done)
    | split
    | simp only [↓State.event_safeEq, State.modTrust, State.modCfg, safeEq_mk, safeEq_parts]

theorem State.startPackTime_safeEq (s : State) (fromOff : Bool) : (State.startPackTime s fromOff).safety = s.safety := by
  unfold State.startPackTime
  repeat' first
    | with_reducible rfl
    | with_reducible apply safeEq_ite
    | (simp only [safeEq_mk]; done)
    | split
    | simp only [safeEq_mk, safeEq_parts]

theorem State.startStore_safeEq (s : State) (storeFail reset : Bool) : (State.startStore s storeFail reset).safety = s.safety := by
  unfold State.startStore
  repeat' first
    | with_reducible rfl
    | with_reducible apply safeEq_ite
    | (simp only [↓State.failStore_safeEq, safeEq_mk]; done)
    | split
    | simp only [↓State.failStore_safeEq, safeEq_mk, safeEq_parts]

theorem State.startEvents_safeEq (s : State) (left : Bool) : (State.startEvents s left).safety = s.safety := by
  unfold State.startEvents
  repeat' first
    | with_reducible rfl
    | with_reducible apply safeEq_ite
    | (simp only [↓State.modPower_safeEq, ↓State.event_safeEq, safeEq_mk]; done)
    | split
    | simp only [↓State.modPower_safeEq, ↓State.event_safeEq, safeEq_mk, safeEq_parts]

theorem State.hubBegin_safeEq (s : State) (by_ : Nat) : (State.hubBegin s by_).safety = s.safety := by
  unfold State.hubBegin
  repeat' first
    | with_reducible rfl
    | with_reducible apply safeEq_ite
    | with_reducible refine (foldl_safeEq (fun _ _ => ?_) _ _).trans ?_
    | (simp only [↓State.accrueTest_safeEq, ↓State.tasksHome_safeEq, ↓State.settleChannels_safeEq, ↓State.modPower_safeEq, ↓State.modDies_safeEq, safeEq_mk]; done)
    | split
    | simp only [↓State.accrueTest_safeEq, ↓State.tasksHome_safeEq, ↓State.settleChannels_safeEq, ↓State.modPower_safeEq, ↓State.modDies_safeEq, safeEq_mk, safeEq_parts]

theorem State.takeStrap_safeEq (s : State) (reads : List Nat) : (State.takeStrap s reads).safety = s.safety := rfl

theorem State.followRails_safeEq (s : State) : (State.followRails s).safety = s.safety := by
  unfold State.followRails
  repeat' first
    | with_reducible rfl
    | with_reducible apply safeEq_ite
    | with_reducible refine (foldl_safeEq (fun _ _ => ?_) _ _).trans ?_
    | (simp only [↓State.chooseSrc_safeEq, ↓State.modRail_safeEq, ↓State.modPower_safeEq, ↓State.setHoldEff_safeEq, safeEq_mk]; done)
    | split
    | simp only [↓State.chooseSrc_safeEq, ↓State.modRail_safeEq, ↓State.modPower_safeEq, ↓State.setHoldEff_safeEq, safeEq_mk, safeEq_parts]

theorem State.raiseWarning_safeEq (s : State) (item : Nat) : (State.raiseWarning s item).safety = s.safety := by
  unfold State.raiseWarning
  split <;> simp only [↓State.modPower_safeEq, ↓State.event_safeEq, safeEq_mk, safeEq_parts]

theorem State.closeSession_safeEq (s : State) : (State.closeSession s).safety = s.safety := by
  unfold State.closeSession
  repeat' first
    | with_reducible rfl
    | with_reducible apply safeEq_ite
    | with_reducible refine (foldl_safeEq (fun _ _ => ?_) _ _).trans ?_
    | (simp only [↓State.locusRestart_safeEq, ↓State.debugRecord_safeEq, ↓State.event_safeEq, ↓State.tasksHome_safeEq, ↓State.abortExecuting_safeEq, State.modTrust, State.modCfg, safeEq_mk]; done)
    | split
    | simp only [↓State.locusRestart_safeEq, ↓State.debugRecord_safeEq, ↓State.event_safeEq, ↓State.tasksHome_safeEq, ↓State.abortExecuting_safeEq, State.modTrust, State.modCfg, safeEq_mk, safeEq_parts]

theorem State.ageStates_safeEq (s : State) : (State.ageStates s).safety = s.safety := by
  unfold State.ageStates
  split <;> simp only [↓State.modPower_safeEq, ↓State.modDies_safeEq, safeEq_mk, safeEq_parts]

theorem State.wake_safeEq (s : State) (code : Nat) : (State.wake s code).safety = s.safety := by
  unfold State.wake
  repeat' first
    | with_reducible rfl
    | with_reducible apply safeEq_ite
    | (simp only [↓State.modPower_safeEq, ↓State.ageStates_safeEq, ↓State.startUp_safeEq, State.modTrust, State.modCfg, safeEq_mk]; done)
    | split
    | simp only [↓State.modPower_safeEq, ↓State.ageStates_safeEq, ↓State.startUp_safeEq, State.modTrust, State.modCfg, safeEq_mk, safeEq_parts]

theorem State.markRan_safeEq (s : State) (c : Cmd) : (State.markRan s c).safety = s.safety := rfl

theorem State.serve_safeEq {s : State} {code : Nat} {c : Cmd} {mine : Bool} {f : State → State} {x : SafeState}
    (h : ∀ t : State, t.safety = x → (f t).safety = x) (hs : s.safety = x) : (s.serve code c mine f).safety = x := by
  unfold State.serve
  have h0 : ((s.undoze).markRan c).safety = x := ((State.markRan_safeEq ..).trans (State.undoze_safeEq _)).trans hs
  refine safeEq_ite hs ?_
  dsimp only
  split
  · exact (State.complete_safeEq ..).trans h0
  · exact h _ h0

theorem State.claimHeld_safeEq (s : State) (sub : Nat) (r : Rec) : (State.claimHeld s sub r).safety = s.safety := by
  unfold State.claimHeld
  repeat' first
    | with_reducible rfl
    | with_reducible apply safeEq_ite
    | (simp only [↓State.queueClaim_safeEq, ↓State.noteClaims_safeEq, ↓State.modHif_safeEq, safeEq_mk]; done)
    | split
    | simp only [↓State.queueClaim_safeEq, ↓State.noteClaims_safeEq, ↓State.modHif_safeEq, safeEq_mk, safeEq_parts]

theorem State.openSub_safeEq (s : State) (c : Cmd) : (State.openSub s c).safety = s.safety := by
  unfold State.openSub
  repeat' first
    | with_reducible rfl
    | with_reducible apply safeEq_ite
    | with_reducible refine (foldl_safeEq (fun _ _ => ?_) _ _).trans ?_
    | (simp only [↓State.openFastStream_safeEq, ↓State.sendClaims_safeEq, ↓State.noteClaims_safeEq, ↓State.modHif_safeEq, ↓State.claimHeld_safeEq, safeEq_mk]; done)
    | split
    | simp only [↓State.openFastStream_safeEq, ↓State.sendClaims_safeEq, ↓State.noteClaims_safeEq, ↓State.modHif_safeEq, ↓State.claimHeld_safeEq, safeEq_mk, safeEq_parts]

theorem State.armCapture_safeEq (s : State) (k a : Nat) (c : Cmd) : (State.armCapture s k a c).safety = s.safety := by
  unfold State.armCapture
  repeat' first
    | with_reducible rfl
    | with_reducible apply safeEq_ite
    | with_reducible refine onDie_safeEq (fun _ => ?_) ?_
    | (simp only [↓State.modDie_safeEq, ↓State.tellArmed_safeEq, safeEq_mk]; done)
    | split
    | simp only [↓State.modDie_safeEq, ↓State.tellArmed_safeEq, safeEq_mk, safeEq_parts]

theorem State.catchUp_safeEq (s : State) (k : Nat) : (State.catchUp s k).safety = s.safety := by
  unfold State.catchUp
  refine onDie_safeEq (fun _ => ?_) ?_ <;> simp only [↓State.modDie_safeEq, ↓State.adoptImp_safeEq, ↓State.adoptEst_safeEq, ↓State.takePrec_safeEq, ↓State.adoptSeq_safeEq, safeEq_mk, safeEq_parts]

theorem State.measurePower_safeEq (s : State) : (State.measurePower s).safety = s.safety := by
  unfold State.measurePower
  simp only [↓State.drawBits_safeEq, ↓State.modPower_safeEq, safeEq_mk, safeEq_parts]

theorem State.readConfig_safeEq (s : State) (c : Cmd) : (State.readConfig s c).safety = s.safety := by
  unfold State.readConfig
  repeat' first
    | with_reducible rfl
    | with_reducible apply safeEq_ite
    | (simp only [↓State.catchUp_safeEq, ↓State.measurePower_safeEq, ↓State.completeData_safeEq, ↓State.complete_safeEq, safeEq_mk]; done)
    | split
    | simp only [↓State.catchUp_safeEq, ↓State.measurePower_safeEq, ↓State.completeData_safeEq, ↓State.complete_safeEq, safeEq_mk, safeEq_parts]

theorem State.markTargets_safeEq (s : State) (block target off len : Nat) : (State.markTargets s block target off len).safety = s.safety := by
  unfold State.markTargets
  split <;> simp only [↓State.modDie_safeEq, safeEq_mk, safeEq_parts]

theorem State.putShadow_safeEq (s : State) (c : Cmd) (data : List Byte) : (State.putShadow s c data).safety = s.safety := by
  unfold State.putShadow
  simp only [State.modCfg, ↓State.markTargets_safeEq, ↓State.completeX_safeEq, safeEq_mk, safeEq_parts]

theorem State.takeCommit_safeEq (s : State) (c : Cmd) : (State.takeCommit s c).safety = s.safety := by
  unfold State.takeCommit
  repeat' first
    | with_reducible rfl
    | with_reducible apply safeEq_ite
    | (simp only [State.modCfg, ↓State.complete_safeEq, safeEq_mk]; done)
    | split
    | simp only [State.modCfg, ↓State.complete_safeEq, safeEq_mk, safeEq_parts]

theorem State.sayPrepared_safeEq (s : State) (p : PendCommit) : (State.sayPrepared s p).safety = s.safety := by
  unfold State.sayPrepared
  repeat' first
    | with_reducible rfl
    | with_reducible apply safeEq_ite
    | (simp only [State.modCfg, ↓State.originate_safeEq, safeEq_mk]; done)
    | split
    | simp only [State.modCfg, ↓State.originate_safeEq, safeEq_mk, safeEq_parts]

theorem State.swapTargets_safeEq (s : State) (old : List Host.Cell) (k : Nat) : (State.swapTargets s old k).safety = s.safety := by
  unfold State.swapTargets
  simp only [↓State.modDie_safeEq, safeEq_mk, safeEq_parts]

theorem State.swapDie_safeEq (s : State) (tc k : Nat) : (State.swapDie s tc k).safety = s.safety := by
  unfold State.swapDie
  simp only [↓State.swapCal_safeEq, ↓State.swapFast_safeEq, ↓State.fastDomain_safeEq, ↓State.modDie_safeEq, safeEq_mk, safeEq_parts]

theorem State.holdGo_safeEq (s : State) : (State.holdGo s).safety = s.safety := by
  unfold State.holdGo
  simp only [State.modCfg, safeEq_mk, safeEq_parts]

theorem State.takeGroupFrame_safeEq (s : State) (what : Nat) : (State.takeGroupFrame s what).2.safety = s.safety := by
  unfold State.takeGroupFrame
  split <;> simp only [↓State.accept_safeEq, safeEq_mk, safeEq_parts]

theorem State.barAccess_safeEq (s : State) (off size : Nat) : (State.barAccess s off size).2.safety = s.safety := by
  unfold State.barAccess
  split <;> simp only [↓State.undoze_safeEq, safeEq_mk, safeEq_parts]

theorem State.writeCtrl_safeEq (s : State) (v : Nat) : (State.writeCtrl s v).safety = s.safety := by
  unfold State.writeCtrl
  repeat' first
    | with_reducible rfl
    | with_reducible apply safeEq_ite
    | (simp only [↓State.checkDrain_safeEq, ↓State.hifFatal_safeEq, ↓State.modHif_safeEq, ↓State.event_safeEq, ↓State.hifClear_safeEq, safeEq_mk]; done)
    | split
    | simp only [↓State.checkDrain_safeEq, ↓State.hifFatal_safeEq, ↓State.modHif_safeEq, ↓State.event_safeEq, ↓State.hifClear_safeEq, safeEq_mk, safeEq_parts]

theorem State.abortUnsent_safeEq (s : State) (n : Nat) : (State.abortUnsent s n).safety = s.safety := by
  unfold State.abortUnsent
  repeat' first
    | with_reducible rfl
    | with_reducible apply safeEq_ite
    | with_reducible refine (foldl_safeEq (fun _ _ => ?_) _ _).trans ?_
    | (simp only [↓State.queueCompletion_safeEq, safeEq_mk]; done)
    | split
    | simp only [↓State.queueCompletion_safeEq, safeEq_mk, safeEq_parts]

theorem State.writeSqCfg_safeEq (s : State) (n v : Nat) : (State.writeSqCfg s n v).safety = s.safety := by
  unfold State.writeSqCfg
  repeat' first
    | with_reducible rfl
    | with_reducible apply safeEq_ite
    | (simp only [↓State.checkDrain_safeEq, ↓State.putSq_safeEq, ↓State.abortUnsent_safeEq, safeEq_mk]; done)
    | split
    | simp only [↓State.checkDrain_safeEq, ↓State.putSq_safeEq, ↓State.abortUnsent_safeEq, safeEq_mk, safeEq_parts]

theorem State.writeCqCfg_safeEq (s : State) (n v : Nat) : (State.writeCqCfg s n v).safety = s.safety := by
  unfold State.writeCqCfg
  repeat' first
    | with_reducible rfl
    | with_reducible apply safeEq_ite
    | (simp only [↓State.checkDrain_safeEq, ↓State.putCq_safeEq, safeEq_mk]; done)
    | split
    | simp only [↓State.checkDrain_safeEq, ↓State.putCq_safeEq, safeEq_mk, safeEq_parts]

theorem State.writeStrCfg_safeEq (s : State) (r v : Nat) : (State.writeStrCfg s r v).safety = s.safety := by
  unfold State.writeStrCfg
  repeat' first
    | with_reducible rfl
    | with_reducible apply safeEq_ite
    | with_reducible refine (foldl_safeEq (fun _ _ => ?_) _ _).trans ?_
    | (simp only [↓State.modHif_safeEq, ↓State.checkDrain_safeEq, ↓State.unclaim_safeEq, ↓State.putStr_safeEq, safeEq_mk]; done)
    | split
    | simp only [↓State.modHif_safeEq, ↓State.checkDrain_safeEq, ↓State.unclaim_safeEq, ↓State.putStr_safeEq, safeEq_mk, safeEq_parts]

theorem State.startPoll_safeEq (s : State) : (State.startPoll s).safety = s.safety := by
  unfold State.startPoll
  simp only [↓State.modHif_safeEq, ↓State.emit_safeEq, safeEq_mk, safeEq_parts]

theorem State.kicked_safeEq (s : State) : (State.kicked s).safety = s.safety := by
  unfold State.kicked
  repeat' first
    | with_reducible rfl
    | with_reducible apply safeEq_ite
    | (simp only [↓State.modHif_safeEq, ↓State.startPoll_safeEq, safeEq_mk]; done)
    | split
    | simp only [↓State.modHif_safeEq, ↓State.startPoll_safeEq, safeEq_mk, safeEq_parts]

theorem State.unmask_safeEq (s : State) (v : Nat) : (State.unmask s v).safety = s.safety := by
  unfold State.unmask
  repeat' first
    | with_reducible rfl
    | with_reducible apply safeEq_ite
    | (simp only [↓State.modHif_safeEq, ↓State.emit_safeEq, safeEq_mk]; done)
    | split
    | simp only [↓State.modHif_safeEq, ↓State.emit_safeEq, safeEq_mk, safeEq_parts]

theorem State.writeMsix_safeEq (s : State) (off v : Nat) : (State.writeMsix s off v).safety = s.safety := by
  unfold State.writeMsix
  repeat' first
    | with_reducible rfl
    | with_reducible apply safeEq_ite
    | (simp only [↓State.modHif_safeEq, ↓State.unmask_safeEq, safeEq_mk]; done)
    | split
    | simp only [↓State.modHif_safeEq, ↓State.unmask_safeEq, safeEq_mk, safeEq_parts]

theorem State.writeReg_safeEq (s : State) (off v : Nat) : (State.writeReg s off v).safety = s.safety := by
  unfold State.writeReg
  repeat' first
    | with_reducible rfl
    | with_reducible apply safeEq_ite
    | (simp only [↓State.modHif_safeEq, ↓State.writeCtrl_safeEq, ↓State.putStr_safeEq, ↓State.writeSqCfg_safeEq, ↓State.putCq_safeEq, ↓State.putSq_safeEq, ↓State.kicked_safeEq, ↓State.writeCqCfg_safeEq, ↓State.writeStrCfg_safeEq, safeEq_mk]; done)
    | split
    | simp only [↓State.modHif_safeEq, ↓State.writeCtrl_safeEq, ↓State.putStr_safeEq, ↓State.writeSqCfg_safeEq, ↓State.putCq_safeEq, ↓State.putSq_safeEq, ↓State.kicked_safeEq, ↓State.writeCqCfg_safeEq, ↓State.writeStrCfg_safeEq, safeEq_mk, safeEq_parts]

theorem State.takeSqTail_safeEq (s : State) (n w : Nat) : (State.takeSqTail s n w).safety = s.safety := by
  unfold State.takeSqTail
  repeat' first
    | with_reducible rfl
    | with_reducible apply safeEq_ite
    | (simp only [↓State.queueError_safeEq, ↓State.putSq_safeEq, safeEq_mk]; done)
    | split
    | simp only [↓State.queueError_safeEq, ↓State.putSq_safeEq, safeEq_mk, safeEq_parts]

theorem State.takeCqHead_safeEq (s : State) (n w : Nat) : (State.takeCqHead s n w).safety = s.safety := by
  unfold State.takeCqHead
  repeat' first
    | with_reducible rfl
    | with_reducible apply safeEq_ite
    | (simp only [↓State.queueError_safeEq, ↓State.putCq_safeEq, safeEq_mk]; done)
    | split
    | simp only [↓State.queueError_safeEq, ↓State.putCq_safeEq, safeEq_mk, safeEq_parts]

theorem State.takeEqHead_safeEq (s : State) (w : Nat) : (State.takeEqHead s w).safety = s.safety := by
  unfold State.takeEqHead
  repeat' first
    | with_reducible rfl
    | with_reducible apply safeEq_ite
    | (simp only [↓State.putEq_safeEq, ↓State.queueError_safeEq, safeEq_mk]; done)
    | split
    | simp only [↓State.putEq_safeEq, ↓State.queueError_safeEq, safeEq_mk, safeEq_parts]

theorem State.takeStrHead_safeEq (s : State) (r w : Nat) : (State.takeStrHead s r w).safety = s.safety := by
  unfold State.takeStrHead
  repeat' first
    | with_reducible rfl
    | with_reducible apply safeEq_ite
    | with_reducible refine (foldl_safeEq (fun _ _ => ?_) _ _).trans ?_
    | (simp only [↓State.unclaim_safeEq, ↓State.modHif_safeEq, ↓State.putStr_safeEq, ↓State.queueError_safeEq, safeEq_mk]; done)
    | split
    | simp only [↓State.unclaim_safeEq, ↓State.modHif_safeEq, ↓State.putStr_safeEq, ↓State.queueError_safeEq, safeEq_mk, safeEq_parts]

theorem State.readRanges_safeEq (s : State) (rs : List (Nat × Nat)) : (State.readRanges s rs).safety = s.safety := by
  unfold State.readRanges
  repeat' first
    | with_reducible rfl
    | with_reducible apply safeEq_ite
    | with_reducible refine (foldl_safeEq (fun _ _ => ?_) _ _).trans ?_
    | (simp only [↓State.emit_safeEq, safeEq_mk]; done)
    | split
    | simp only [↓State.emit_safeEq, safeEq_mk, safeEq_parts]

theorem State.takeDescriptor_safeEq (s : State) (c : Cmd) (b list data : List Byte) : (State.takeDescriptor s c b list data).safety = s.safety := by
  unfold State.takeDescriptor
  repeat' first
    | with_reducible rfl
    | with_reducible apply safeEq_ite
    | with_reducible refine (foldl_safeEq (fun _ _ => ?_) _ _).trans ?_
    | (simp only [↓State.modHif_safeEq, ↓State.readRanges_safeEq, ↓State.startAll_safeEq, ↓State.queueCompletion_safeEq, safeEq_mk]; done)
    | split
    | simp only [↓State.modHif_safeEq, ↓State.readRanges_safeEq, ↓State.startAll_safeEq, ↓State.queueCompletion_safeEq, safeEq_mk, safeEq_parts]

theorem State.writeCompletion_safeEq (s : State) (cq : Nat) (w : ComplWait) : (s.writeCompletion cq w).safety = s.safety := by
  unfold State.writeCompletion
  dsimp only
  refine (State.startAll_safeEq _).trans ?_
  refine (State.signal_safeEq fun q s => State.putCq_safeEq ..).trans ?_
  repeat' first
    | with_reducible rfl
    | with_reducible apply safeEq_ite
    | simp only [↓State.emit_safeEq, ↓State.putCq_safeEq, ↓State.modHif_safeEq, safeEq_mk, safeEq_parts]

theorem State.writeEntry_safeEq (s : State) (addr : Nat) (head body last : List Byte) : (State.writeEntry s addr head body last).safety = s.safety := by
  unfold State.writeEntry
  split <;> simp only [↓State.emit_safeEq, safeEq_mk, safeEq_parts]

theorem State.writeStream_safeEq (s : State) (w : StrWait) : (s.writeStream w).safety = s.safety := by
  unfold State.writeStream
  refine (State.signal_safeEq fun q s => State.putStr_safeEq ..).trans ?_
  exact (State.modHif_safeEq ..).trans ((State.putStr_safeEq ..).trans ((State.writeEntry_safeEq ..).trans (safeEq_ite (State.writeEntry_safeEq ..) rfl)))

theorem State.writeEvent_safeEq (s : State) (w : EvWait) : (s.writeEvent w).safety = s.safety := by
  unfold State.writeEvent
  refine (State.signal_safeEq fun q s => State.putEq_safeEq ..).trans ?_
  have h : ∀ (a : State) (l : LocusState), ({ a with locus := l } : State).safety = a.safety := fun _ _ => rfl
  exact (h _ _).trans ((State.modHif_safeEq ..).trans ((State.putEq_safeEq ..).trans (State.emit_safeEq ..)))

theorem State.coalesced_safeEq {s : State} {q : Queue} {put : Queue → State → State}
    (h : ∀ q s, (put q s).safety = s.safety) : (s.coalesced q put).safety = s.safety := by
  unfold State.coalesced
  split
  · rfl
  · exact safeEq_ite rfl ((State.raiseVector_safeEq ..).trans (h _ _))

theorem State.dmaEvent_safeEq (s : State) (sq cid addr : Nat) : (State.dmaEvent s sq cid addr).safety = s.safety := by
  unfold State.dmaEvent
  simp only [↓State.event_safeEq, safeEq_mk, safeEq_parts]

theorem State.readFailed_safeEq (s : State) (sq : Nat) (a : HostAccess) : (State.readFailed s sq a).safety = s.safety := by
  unfold State.readFailed
  repeat' first
    | with_reducible rfl
    | with_reducible apply safeEq_ite
    | (simp only [↓State.dmaEvent_safeEq, ↓State.startAll_safeEq, ↓State.queueCompletion_safeEq, safeEq_mk]; done)
    | split
    | simp only [↓State.dmaEvent_safeEq, ↓State.startAll_safeEq, ↓State.queueCompletion_safeEq, safeEq_mk, safeEq_parts]

theorem State.writeFailed_safeEq (s : State) (sq : Nat) (a : HostAccess) : (State.writeFailed s sq a).safety = s.safety := by
  unfold State.writeFailed
  repeat' first
    | with_reducible rfl
    | with_reducible apply safeEq_ite
    | (simp only [↓State.modHif_safeEq, ↓State.dmaEvent_safeEq, safeEq_mk]; done)
    | split
    | simp only [↓State.modHif_safeEq, ↓State.dmaEvent_safeEq, safeEq_mk, safeEq_parts]

theorem State.closeFor_safeEq (s : State) (sub : Nat) : (State.closeFor s sub).safety = s.safety := by
  unfold State.closeFor
  split <;> simp only [↓State.modHif_safeEq, ↓State.endSub_safeEq, safeEq_mk, safeEq_parts]

theorem State.notePrepared_safeEq (s : State) (sq cid pos : Nat) : (State.notePrepared s sq cid pos).safety = s.safety := by
  unfold State.notePrepared
  repeat' first
    | with_reducible rfl
    | with_reducible apply safeEq_ite
    | (simp only [safeEq_mk]; done)
    | split
    | simp only [safeEq_mk, safeEq_parts]

theorem State.resend_safeEq (s : State) (k : Nat) (d : Die) : (State.resend s k d).safety = s.safety := by
  unfold State.resend
  repeat' first
    | with_reducible rfl
    | with_reducible apply safeEq_ite
    | with_reducible refine (foldl_safeEq (fun _ _ => ?_) _ _).trans ?_
    | (simp only [↓State.dieEventFull_safeEq, ↓State.place_safeEq, safeEq_mk]; done)
    | split
    | simp only [↓State.dieEventFull_safeEq, ↓State.place_safeEq, safeEq_mk, safeEq_parts]

theorem State.ownerRoom_safeEq {s t : State} {owner n fuel : Nat} (h : s.ownerRoom owner n fuel = some t) : t.safety = s.safety := by
  induction fuel generalizing s with
  | zero => cases h
  | succ m ih =>
    unfold State.ownerRoom at h
    split at h
    · cases h; rfl
    · split at h
      · cases h
      · exact (ih h).trans rfl

theorem State.takeSpill_safeEq (s : State) (owner : Nat) (x : List Byte) : (s.takeSpill owner x).safety = s.safety := by
  unfold State.takeSpill
  dsimp only
  refine safeEq_ite rfl ?_
  split
  · rfl
  · rename_i r h
    obtain ⟨u, hu, hr⟩ := Option.bind_eq_some_iff.mp h
    exact (State.writer_safeEq _).trans ((State.tierFor_safeEq hr).trans (State.ownerRoom_safeEq hu))

theorem State.answerHolder_safeEq (s : State) (pos owner recType src : Nat) : (State.answerHolder s pos owner recType src).safety = s.safety := by
  unfold State.answerHolder
  simp only [↓State.originate_safeEq, safeEq_mk, safeEq_parts]

theorem State.takeHeld_safeEq (s : State) (pos : Nat) (b : List Byte) : (State.takeHeld s pos b).safety = s.safety := by
  unfold State.takeHeld
  repeat' first
    | with_reducible rfl
    | with_reducible apply safeEq_ite
    | with_reducible refine (foldl_safeEq (fun _ _ => ?_) _ _).trans ?_
    | (simp only [↓State.finishRead_safeEq, safeEq_mk]; done)
    | split
    | simp only [↓State.finishRead_safeEq, safeEq_mk, safeEq_parts]

theorem State.evaluateDie_safeEq (s : State) (k : Nat) (load cluster : Rat) : (State.evaluateDie s k load cluster).safety = s.safety := by
  unfold State.evaluateDie
  repeat' first
    | with_reducible rfl
    | with_reducible apply safeEq_ite
    | with_reducible refine onDie_safeEq (fun _ => ?_) ?_
    | (simp only [↓State.modDie_safeEq, ↓State.placement_safeEq, ↓State.stopInjection_safeEq, safeEq_mk]; done)
    | split
    | simp only [↓State.modDie_safeEq, ↓State.placement_safeEq, ↓State.stopInjection_safeEq, safeEq_mk, safeEq_parts]

theorem State.noteInput_safeEq (s : State) (which : Nat) (v : Rat) : (State.noteInput s which v).safety = s.safety := by
  unfold State.noteInput
  simp only [↓State.modPower_safeEq, safeEq_mk, safeEq_parts]

theorem State.setInput_safeEq (s : State) (which : Nat) (ok : Bool) : (State.setInput s which ok).safety = s.safety := by
  unfold State.setInput
  simp only [↓State.modPower_safeEq, safeEq_mk, safeEq_parts]

theorem State.railUp_safeEq (s : State) (t rail : Nat) : (State.railUp s t rail).safety = s.safety := by
  unfold State.railUp
  repeat' first
    | with_reducible rfl
    | with_reducible apply safeEq_ite
    | (simp only [↓State.modRail_safeEq, ↓State.modPower_safeEq, safeEq_mk]; done)
    | split
    | simp only [↓State.modRail_safeEq, ↓State.modPower_safeEq, safeEq_mk, safeEq_parts]

theorem State.endReset_safeEq (s : State) (cause : Nat) (strap : List Nat) : (State.endReset s cause strap).safety = s.safety := by
  unfold State.endReset
  repeat' first
    | with_reducible rfl
    | with_reducible apply safeEq_ite
    | (simp only [↓State.modPower_safeEq, ↓State.wake_safeEq, ↓State.takeStrap_safeEq, ↓State.startUp_safeEq, safeEq_mk]; done)
    | split
    | simp only [↓State.modPower_safeEq, ↓State.wake_safeEq, ↓State.takeStrap_safeEq, ↓State.startUp_safeEq, safeEq_mk, safeEq_parts]

theorem State.holdBlock_safeEq (s : State) (k b : Nat) : (State.holdBlock s k b).safety = s.safety := by
  unfold State.holdBlock
  repeat' first
    | with_reducible rfl
    | with_reducible apply safeEq_ite
    | (simp only [↓State.modDie_safeEq, safeEq_mk]; done)
    | split
    | simp only [↓State.modDie_safeEq, safeEq_mk, safeEq_parts]

theorem State.startSlice_safeEq (s : State) (k b : Nat) : (State.startSlice s k b).safety = s.safety := by
  unfold State.startSlice
  simp only [↓State.modTest_safeEq, ↓State.holdBlock_safeEq, ↓State.takePrec_safeEq, safeEq_mk, safeEq_parts]

theorem State.loseCover_safeEq (s : State) (k i : Nat) (cell : Option Nat) : (State.loseCover s k i cell).safety = s.safety := by
  unfold State.loseCover
  repeat' first
    | with_reducible rfl
    | with_reducible apply safeEq_ite
    | with_reducible refine onDie_safeEq (fun _ => ?_) ?_
    | (simp only [↓State.modDie_safeEq, ↓State.abortSlice_safeEq, safeEq_mk]; done)
    | split
    | simp only [↓State.modDie_safeEq, ↓State.abortSlice_safeEq, safeEq_mk, safeEq_parts]

theorem State.substitute_safeEq (s : State) (k n : Nat) : (State.substitute s k n).safety = s.safety := by
  unfold State.substitute
  refine onDie_safeEq (fun _ => ?_) ?_
  · split <;> simp only [↓State.dieEvent_safeEq, ↓State.modDie_safeEq, ↓State.loseCover_safeEq, safeEq_mk, safeEq_parts]
  · simp only [↓State.dieEvent_safeEq, ↓State.modDie_safeEq, ↓State.loseCover_safeEq, safeEq_mk, safeEq_parts]

theorem State.modulatorFailed_safeEq (s : State) (k n : Nat) : (State.modulatorFailed s k n).safety = s.safety := by
  unfold State.modulatorFailed
  repeat' first
    | with_reducible rfl
    | with_reducible apply safeEq_ite
    | with_reducible refine onDie_safeEq (fun _ => ?_) ?_
    | (simp only [↓State.dieEvent_safeEq, ↓State.modDie_safeEq, ↓State.loseCover_safeEq, ↓State.substitute_safeEq, safeEq_mk]; done)
    | split
    | simp only [↓State.dieEvent_safeEq, ↓State.modDie_safeEq, ↓State.loseCover_safeEq, ↓State.substitute_safeEq, safeEq_mk, safeEq_parts]

theorem State.modulatorPassed_safeEq (s : State) (k n : Nat) : (State.modulatorPassed s k n).safety = s.safety := by
  unfold State.modulatorPassed
  repeat' first
    | with_reducible rfl
    | with_reducible apply safeEq_ite
    | with_reducible refine onDie_safeEq (fun _ => ?_) ?_
    | (simp only [↓State.dieEvent_safeEq, ↓State.modDie_safeEq, safeEq_mk]; done)
    | split
    | simp only [↓State.dieEvent_safeEq, ↓State.modDie_safeEq, safeEq_mk, safeEq_parts]

theorem State.dieBlockFailed_safeEq (s : State) (k b : Nat) : (State.dieBlockFailed s k b).safety = s.safety := by
  unfold State.dieBlockFailed
  repeat' first
    | with_reducible rfl
    | with_reducible apply safeEq_ite
    | with_reducible refine onDie_safeEq (fun _ => ?_) ?_
    | (simp only [↓State.stopFast_safeEq, ↓State.breakLink_safeEq, ↓State.settleChannels_safeEq, ↓State.modDie_safeEq, ↓State.dieEvent_safeEq, ↓State.discardRun_safeEq, ↓State.freeLinks_safeEq, ↓State.modulatorFailed_safeEq, safeEq_mk]; done)
    | split
    | simp only [↓State.stopFast_safeEq, ↓State.breakLink_safeEq, ↓State.settleChannels_safeEq, ↓State.modDie_safeEq, ↓State.dieEvent_safeEq, ↓State.discardRun_safeEq, ↓State.freeLinks_safeEq, ↓State.modulatorFailed_safeEq, safeEq_mk, safeEq_parts]

theorem State.modChk_safeEq (s : State) (i : Nat) (f : ChkUnit → ChkUnit) : (State.modChk s i f).safety = s.safety := rfl

theorem State.computeCheck_safeEq (s : State) (c : Cmd) (data : List Byte) (u : ChkUnit) : (State.computeCheck s c data u).safety = s.safety := by
  unfold State.computeCheck
  split <;> simp only [↓State.complete_safeEq, ↓State.completeX_safeEq, ↓State.modChk_safeEq, safeEq_mk, safeEq_parts]

theorem State.applyStep_safeEq (s : State) : (State.applyStep s).safety = s.safety := by
  unfold State.applyStep
  repeat' first
    | with_reducible rfl
    | with_reducible apply safeEq_ite
    | with_reducible refine (foldl_safeEq (fun _ _ => ?_) _ _).trans ?_
    | (simp only [↓State.modDies_safeEq, ↓State.applyCap_safeEq, safeEq_mk]; done)
    | split
    | simp only [↓State.modDies_safeEq, ↓State.applyCap_safeEq, safeEq_mk, safeEq_parts]

theorem State.setStep_safeEq (s : State) (n : Nat) : (State.setStep s n).safety = s.safety := by
  unfold State.setStep
  simp only [↓State.applyStep_safeEq, ↓State.event_safeEq, safeEq_mk, safeEq_parts]

theorem State.raiseSteps_safeEq (s : State) (n : Nat) : (s.raiseSteps n).safety = s.safety := by
  induction n generalizing s with
  | zero => rfl
  | succ n ih =>
    unfold State.raiseSteps
    exact safeEq_ite rfl (safeEq_ite ((ih _).trans (State.setStep_safeEq ..)) rfl)

theorem State.historyBody_safeEq (s : State) : (State.historyBody s).2.safety = s.safety := by
  unfold State.historyBody
  repeat' first
    | with_reducible rfl
    | with_reducible apply safeEq_ite
    | with_reducible refine (foldl_safeEq (fun _ _ => ?_) _ _).trans ?_
    | (simp only [↓State.drawBits_safeEq, safeEq_mk]; done)
    | split
    | simp only [↓State.drawBits_safeEq, safeEq_mk, safeEq_parts]

theorem State.putStaging_safeEq (s : State) (image off total : Nat) (b : List Byte) : (State.putStaging s image off total b).safety = s.safety := by
  unfold State.putStaging
  repeat' first
    | with_reducible rfl
    | with_reducible apply safeEq_ite
    | (simp only [↓State.event_safeEq, State.modTrust, State.modCfg, safeEq_mk]; done)
    | split
    | simp only [↓State.event_safeEq, State.modTrust, State.modCfg, safeEq_mk, safeEq_parts]

theorem State.stageFirmware_safeEq (s : State) (c : Cmd) (data : List Byte) : (State.stageFirmware s c data).safety = s.safety := by
  unfold State.stageFirmware
  repeat' first
    | with_reducible rfl
    | with_reducible apply safeEq_ite
    | (simp only [↓State.complete_safeEq, ↓State.completeX_safeEq, ↓State.putStaging_safeEq, safeEq_mk]; done)
    | split
    | simp only [↓State.complete_safeEq, ↓State.completeX_safeEq, ↓State.putStaging_safeEq, safeEq_mk, safeEq_parts]

theorem State.verifyImage_safeEq (s : State) (image : Nat) (b : List Byte) (total : Nat) : (State.verifyImage s image b total).2.safety = s.safety := by
  unfold State.verifyImage
  simp only [↓State.event_safeEq, safeEq_mk, safeEq_parts]

theorem State.withStaged_safeEq {s : State} {c : Cmd} {f : State → List Byte → State} {x : SafeState}
    (h : ∀ (t : State) (b : List Byte), t.safety = x → (f t b).safety = x) (hs : s.safety = x) :
    (s.withStaged c f).safety = x := by
  unfold State.withStaged
  dsimp only
  exact safeEq_ite ((State.complete_safeEq ..).trans hs)
    (safeEq_ite (h _ _ ((State.verifyImage_safeEq ..).trans hs)) ((State.complete_safeEq ..).trans ((State.verifyImage_safeEq ..).trans hs)))

theorem State.startActivation_safeEq (s : State) (c : Cmd) (starts : Bool) : (State.startActivation s c starts).safety = s.safety := by
  unfold State.startActivation
  simp only [↓State.actDue_safeEq, State.modTrust, State.modCfg, safeEq_mk, safeEq_parts]

theorem State.flipSpan_safeEq (s : State) (trial : Bool) : (State.flipSpan s trial).safety = s.safety := by
  unfold State.flipSpan
  simp only [↓State.accrueTest_safeEq, State.modTrust, State.modCfg, safeEq_mk, safeEq_parts]

theorem State.lifeEvent_safeEq (s : State) : (State.lifeEvent s).safety = s.safety := by
  unfold State.lifeEvent
  simp only [↓State.event_safeEq, safeEq_mk, safeEq_parts]

theorem State.sealRecord_safeEq (s : State) : (State.sealRecord s).safety = s.safety := by
  unfold State.sealRecord
  simp only [↓State.blackBox_safeEq, safeEq_mk, safeEq_parts]

theorem State.strapToRole_safeEq (s : State) : (State.strapToRole s).safety = s.safety := by
  unfold State.strapToRole
  split <;> simp only [↓State.testPads_safeEq, safeEq_mk, safeEq_parts]

end Sys2Proof.Machine
end

