-- ==== Sys2Proof/Laws/LockedOff.lean ====
section
/-! SUPPORT. A latched lock-out keeps every output off: the operations that touch the safety block. -/

namespace Sys2Proof.Machine

set_option linter.all false
set_option maxRecDepth 4000

theorem lockedOff_of {s u : State} (h : u.safety = s.safety) (hs : s.lockedOff) : u.lockedOff := by
  have e : u.safe = s.safe := h
  unfold State.lockedOff State.outOn at *
  rw [e]; exact hs

theorem lockedOff_same {s u : State} (hl : u.safe.lockout = true → s.safe.lockout = true) (ho : ∀ k, u.outOn k = s.outOn k) (hs : s.lockedOff) : u.lockedOff := by
  intro h k hk
  rw [ho]; exact hs (hl h) k hk

theorem lockedOff_ite {c : Prop} {_ : Decidable c} {a b : State} (ha : a.lockedOff) (hb : b.lockedOff) : (if c then a else b).lockedOff := by
  split <;> assumption

theorem foldl_lockedOff {α : Type} {f : State → α → State} (h : ∀ s a, s.lockedOff → (f s a).lockedOff) (l : List α) (s : State) (hs : s.lockedOff) :
    (l.foldl f s).lockedOff := by
  induction l generalizing s with
  | nil => exact hs
  | cons a l ih => exact ih _ (h _ _ hs)

theorem foldl_lockedOff_fst {α β : Type} {f : State × β → α → State × β} (h : ∀ s a, s.1.lockedOff → (f s a).1.lockedOff) (l : List α) (s : State × β) (hs : s.1.lockedOff) :
    (l.foldl f s).1.lockedOff := by
  induction l generalizing s with
  | nil => exact hs
  | cons a l ih => exact ih _ (h _ _ hs)

theorem onDie_lockedOff {s : State} {k : Nat} {f : Die → State} (h : ∀ d, (f d).lockedOff) (hs : s.lockedOff) : (s.onDie k f).lockedOff := by
  unfold State.onDie
  split
  · split
    · exact h _
    · exact hs
  · exact hs

theorem State.onSwp_lockedOff {s : State} {p : Nat} {f : SwpPort → State} (h : ∀ d, (f d).lockedOff) (hs : s.lockedOff) : (s.onSwp p f).lockedOff := by
  unfold State.onSwp
  refine lockedOff_ite hs ?_
  split
  · exact hs
  · exact h _

theorem State.setOut_outOn (s : State) (k j : Nat) (on : Bool) :
    (s.setOut k on).outOn j = if j = k ∧ j < s.safe.outs.length then on else s.outOn j := by
  unfold State.setOut
  split
  · next h =>
    split
    · next h2 => rw [h2.1]; exact h
    · rfl
  · by_cases hj : j = k
    · subst hj
      simp only [State.emit, State.accrueTest, State.outOn, modNth_getElem?_same, true_and]
      by_cases hl : j < s.safe.outs.length
      · simp [hl]
      · simp [hl]
    · simp only [State.emit, State.accrueTest, State.outOn, modNth_getElem?_other _ _ hj, hj, false_and, if_false]

theorem State.setOut_lockout (s : State) (k : Nat) (on : Bool) : (s.setOut k on).safe.lockout = s.safe.lockout := by
  unfold State.setOut
  split <;> rfl

theorem State.setOut_length (s : State) (k : Nat) (on : Bool) : (s.setOut k on).safe.outs.length = s.safe.outs.length := by
  unfold State.setOut
  split
  · rfl
  · exact modNth_length ..

theorem State.setOut_off_lockedOff {s : State} {k : Nat} (hs : s.lockedOff) : (s.setOut k false).lockedOff := by
  intro h j hj
  rw [State.setOut_lockout] at h
  rw [State.setOut_outOn, hs h j hj, ite_self]

theorem State.outsOff_off (s : State) (k : Nat) (hk : k < 3) : s.outsOff.outOn k = false := by
  unfold State.outsOff
  have e : (List.range 3).foldl (fun s k => s.setOut k false) s = ((s.setOut 0 false).setOut 1 false).setOut 2 false := rfl
  rw [e]
  simp only [State.setOut_outOn, State.setOut_length]
  have hn : ∀ j, ¬ j < s.safe.outs.length → s.outOn j = false := fun j h => by
    unfold State.outOn
    rw [List.getElem?_eq_none (by omega)]; rfl
  by_cases hl : k < s.safe.outs.length
  · have : k = 0 ∨ k = 1 ∨ k = 2 := by omega
    rcases this with rfl | rfl | rfl <;> simp [hl]
  · rw [hn k hl]; simp

theorem State.outsOff_lockedOff (s : State) : s.outsOff.lockedOff := fun _ k hk => State.outsOff_off s k hk

theorem State.evalOuts_lockedOff {s : State} (hs : s.lockedOff) : s.evalOuts.lockedOff := by
  unfold State.evalOuts
  refine foldl_lockedOff (fun s k hs => ?_) _ _ hs
  split
  · exact lockedOff_ite hs (State.setOut_off_lockedOff hs)
  · split
    · next h =>
      intro hl
      rw [State.setOut_lockout] at hl
      simp [State.outAllowed, hl] at h
    · exact hs

theorem lockedOff_mk {now part dies cfg locus hif link sync swp power trust selfTest chk therm out freeCtr pending} {s : State} :
    (State.mk now part dies cfg locus hif link sync swp s.safe power trust selfTest chk therm out freeCtr pending).lockedOff ↔ s.lockedOff := Iff.rfl

theorem modTrust_lockedOff {s : State} {f : TrustState → TrustState} (hs : s.lockedOff) : (s.modTrust f).lockedOff := hs

theorem modHif_lockedOff {s : State} {f : HifState → HifState} (hs : s.lockedOff) : (s.modHif f).lockedOff := hs

theorem modPower_lockedOff {s : State} {f : PowerState → PowerState} (hs : s.lockedOff) : (s.modPower f).lockedOff := hs

theorem modCfg_lockedOff {s : State} {f : CfgState → CfgState} (hs : s.lockedOff) : (s.modCfg f).lockedOff := hs

theorem lockedOff_mk2 {now part dies cfg locus hif link sync swp power trust selfTest chk therm out freeCtr pending} {s : State}
    {ins req tests pulseEnd persisted loCause loTime loSlots lorstState lorstHigh lorstLow watch discCount frameErr hostOk hostSeq hostAt hostFails gwOk gwAt gwSeq sfSeq heartbeat heartRan reported acted} :
    (State.mk now part dies cfg locus hif link sync swp (SafeState.mk ins s.safe.outs req tests pulseEnd s.safe.lockout persisted loCause loTime loSlots lorstState lorstHigh lorstLow watch discCount frameErr hostOk hostSeq hostAt hostFails gwOk gwAt gwSeq sfSeq heartbeat heartRan reported acted) power trust selfTest chk therm out freeCtr pending).lockedOff ↔ s.lockedOff := Iff.rfl

theorem outOn_map (l : List SafeOut) (f : SafeOut → SafeOut) (hf : ∀ x, (f x).on = x.on) (k : Nat) :
    (((l.map f)[k]?).map (·.on)).getD false = ((l[k]?).map (·.on)).getD false := by
  rw [List.getElem?_map]
  cases l[k]? <;> simp [hf]

theorem outOn_modNth (l : List SafeOut) (f : SafeOut → SafeOut) (hf : ∀ x, (f x).on = x.on) (i k : Nat) :
    (((modNth f i l)[k]?).map (·.on)).getD false = ((l[k]?).map (·.on)).getD false := by
  by_cases h : k = i
  · subst h
    rw [modNth_getElem?_same]
    cases l[k]? <;> simp [hf]
  · rw [modNth_getElem?_other _ _ h]

theorem State.tearWrites_lockedOff {s : State} (hs : s.lockedOff) : (State.tearWrites s).lockedOff := by
  unfold State.tearWrites
  repeat' first
    | with_reducible exact hs
    | simp only [lockedOff_mk]
    | with_reducible apply lockedOff_ite
    | with_reducible refine foldl_lockedOff (fun _ _ hs => ?_) _ _ ?_
    | with_reducible refine lockedOff_of (State.modDies_safeEq ..) ?_
    | with_reducible refine modTrust_lockedOff ?_
    | with_reducible refine lockedOff_of (State.at__safeEq ..) ?_
    | simp only [lockedOff_mk2]
    | split
    | dsimp only

theorem State.downDone_lockedOff {s : State} (hs : s.lockedOff) : (State.downDone s).lockedOff := by
  unfold State.downDone
  repeat' first
    | with_reducible exact hs
    | simp only [lockedOff_mk]
    | with_reducible apply lockedOff_ite
    | with_reducible refine foldl_lockedOff (fun _ _ hs => ?_) _ _ ?_
    | with_reducible refine lockedOff_of (State.accrueTest_safeEq ..) ?_
    | with_reducible refine modPower_lockedOff ?_
    | with_reducible refine State.tearWrites_lockedOff ?_
    | simp only [lockedOff_mk2]
    | split
    | dsimp only

theorem State.downStep_lockedOff {s : State} (hs : s.lockedOff) : (State.downStep s).lockedOff := by
  unfold State.downStep
  repeat' first
    | with_reducible exact hs
    | simp only [lockedOff_mk]
    | with_reducible apply lockedOff_ite
    | with_reducible refine foldl_lockedOff (fun _ _ hs => ?_) _ _ ?_
    | with_reducible refine modPower_lockedOff ?_
    | with_reducible refine lockedOff_of (State.modRail_safeEq ..) ?_
    | with_reducible refine State.downDone_lockedOff ?_
    | simp only [lockedOff_mk2]
    | split
    | dsimp only

theorem State.turnDown_lockedOff {s : State} {target : Nat} (hs : s.lockedOff) : (State.turnDown s target).lockedOff := by
  unfold State.turnDown
  repeat' first
    | with_reducible exact hs
    | simp only [lockedOff_mk]
    | with_reducible apply lockedOff_ite
    | with_reducible refine foldl_lockedOff (fun _ _ hs => ?_) _ _ ?_
    | with_reducible refine State.downStep_lockedOff ?_
    | with_reducible refine modPower_lockedOff ?_
    | with_reducible refine lockedOff_of (State.modRail_safeEq ..) ?_
    | simp only [lockedOff_mk2]
    | split
    | dsimp only

theorem State.startDown_lockedOff {s : State} {target : Nat} (hs : s.lockedOff) : (State.startDown s target).lockedOff := by
  unfold State.startDown
  repeat' first
    | with_reducible exact hs
    | simp only [lockedOff_mk]
    | with_reducible apply lockedOff_ite
    | with_reducible refine foldl_lockedOff (fun _ _ hs => ?_) _ _ ?_
    | with_reducible refine State.downStep_lockedOff ?_
    | with_reducible refine modPower_lockedOff ?_
    | with_reducible refine lockedOff_of (State.modRail_safeEq ..) ?_
    | simp only [lockedOff_mk2]
    | split
    | dsimp only

theorem State.inputsGone_lockedOff {s : State} {which : Nat} (hs : s.lockedOff) : (State.inputsGone s which).lockedOff := by
  unfold State.inputsGone
  repeat' first
    | with_reducible exact hs
    | simp only [lockedOff_mk]
    | with_reducible apply lockedOff_ite
    | with_reducible refine foldl_lockedOff (fun _ _ hs => ?_) _ _ ?_
    | with_reducible refine modPower_lockedOff ?_
    | with_reducible refine lockedOff_of (State.raiseWarning_safeEq ..) ?_
    | with_reducible refine State.startDown_lockedOff ?_
    | simp only [lockedOff_mk2]
    | split
    | dsimp only

theorem State.railAct_lockedOff {s : State} {i : Nat} (hs : s.lockedOff) : (State.railAct s i).lockedOff := by
  unfold State.railAct
  repeat' first
    | with_reducible exact hs
    | simp only [lockedOff_mk]
    | with_reducible apply lockedOff_ite
    | with_reducible refine foldl_lockedOff (fun _ _ hs => ?_) _ _ ?_
    | with_reducible refine modPower_lockedOff ?_
    | with_reducible refine lockedOff_of (State.raiseWarning_safeEq ..) ?_
    | with_reducible refine lockedOff_of (State.modRail_safeEq ..) ?_
    | with_reducible refine lockedOff_of (State.hopDown_safeEq ..) ?_
    | with_reducible refine State.startDown_lockedOff ?_
    | with_reducible refine lockedOff_of (State.hifOff_safeEq ..) ?_
    | with_reducible refine lockedOff_of (State.failStore_safeEq ..) ?_
    | simp only [lockedOff_mk2]
    | split
    | dsimp only

theorem State.railFault_lockedOff {s : State} {i kind : Nat} (hs : s.lockedOff) : (State.railFault s i kind).lockedOff := by
  unfold State.railFault
  repeat' first
    | with_reducible exact hs
    | simp only [lockedOff_mk]
    | with_reducible apply lockedOff_ite
    | with_reducible refine foldl_lockedOff (fun _ _ hs => ?_) _ _ ?_
    | with_reducible refine State.railAct_lockedOff ?_
    | with_reducible refine lockedOff_of (State.countRail_safeEq ..) ?_
    | simp only [lockedOff_mk2]
    | split
    | dsimp only

theorem State.judgeFault_lockedOff {s : State} {rail kind : Nat} (hs : s.lockedOff) : (State.judgeFault s rail kind).lockedOff := by
  unfold State.judgeFault
  repeat' first
    | with_reducible exact hs
    | simp only [lockedOff_mk]
    | with_reducible apply lockedOff_ite
    | with_reducible refine foldl_lockedOff (fun _ _ hs => ?_) _ _ ?_
    | with_reducible refine State.railFault_lockedOff ?_
    | simp only [lockedOff_mk2]
    | split
    | dsimp only

theorem State.unclaimTo_lockedOff {s : State} {sub recType src time : Nat} (hs : s.lockedOff) : (State.unclaimTo s sub recType src time).lockedOff := by
  unfold State.unclaimTo
  repeat' first
    | with_reducible exact hs
    | simp only [lockedOff_mk]
    | with_reducible apply lockedOff_ite
    | with_reducible refine foldl_lockedOff (fun _ _ hs => ?_) _ _ ?_
    | with_reducible refine lockedOff_of (State.dropClaim_safeEq ..) ?_
    | simp only [lockedOff_mk2]
    | split
    | dsimp only

theorem State.judgeHeld_lockedOff {s : State} (hs : s.lockedOff) : (State.judgeHeld s).lockedOff := by
  unfold State.judgeHeld
  repeat' first
    | with_reducible exact hs
    | simp only [lockedOff_mk]
    | with_reducible apply lockedOff_ite
    | with_reducible refine foldl_lockedOff (fun _ _ hs => ?_) _ _ ?_
    | with_reducible refine modPower_lockedOff ?_
    | with_reducible refine State.judgeFault_lockedOff ?_
    | simp only [lockedOff_mk2]
    | split
    | dsimp only

theorem State.measureAux_lockedOff {s : State} (hs : s.lockedOff) : (State.measureAux s).lockedOff := by
  unfold State.measureAux
  repeat' first
    | with_reducible exact hs
    | simp only [lockedOff_mk]
    | with_reducible apply lockedOff_ite
    | with_reducible refine foldl_lockedOff (fun _ _ hs => ?_) _ _ ?_
    | with_reducible refine lockedOff_of (State.drawBits_safeEq ..) ?_
    | simp only [lockedOff_mk2]
    | split
    | dsimp only

theorem State.adoptIdlePorts_lockedOff {s : State} (hs : s.lockedOff) : (State.adoptIdlePorts s).lockedOff := by
  unfold State.adoptIdlePorts
  repeat' first
    | with_reducible exact hs
    | simp only [lockedOff_mk]
    | with_reducible apply lockedOff_ite
    | with_reducible refine foldl_lockedOff (fun _ _ hs => ?_) _ _ ?_
    | with_reducible refine State.onSwp_lockedOff (fun _ => ?_) ?_
    | with_reducible refine lockedOff_of (State.adoptSwp_safeEq ..) ?_
    | simp only [lockedOff_mk2]
    | split
    | dsimp only

theorem State.endSweep_lockedOff {s : State} {k : Nat} (hs : s.lockedOff) : (State.endSweep s k).lockedOff := by
  unfold State.endSweep
  repeat' first
    | with_reducible exact hs
    | simp only [lockedOff_mk]
    | with_reducible apply lockedOff_ite
    | with_reducible refine foldl_lockedOff (fun _ _ hs => ?_) _ _ ?_
    | with_reducible refine lockedOff_of (State.abortSlice_safeEq ..) ?_
    | simp only [lockedOff_mk2]
    | split
    | dsimp only

theorem State.loadCal_lockedOff {s : State} {k : Nat} (hs : s.lockedOff) : (State.loadCal s k).lockedOff := by
  unfold State.loadCal
  repeat' first
    | with_reducible exact hs
    | simp only [lockedOff_mk]
    | with_reducible apply lockedOff_ite
    | with_reducible refine foldl_lockedOff (fun _ _ hs => ?_) _ _ ?_
    | with_reducible refine onDie_lockedOff (fun _ => ?_) ?_
    | with_reducible refine lockedOff_of (State.dieEvent_safeEq ..) ?_
    | with_reducible refine lockedOff_of (State.modDie_safeEq ..) ?_
    | simp only [lockedOff_mk2]
    | split
    | dsimp only

theorem State.formSafety_lockedOff {s : State} {msg : Nat} {f : FaultInfo} {aux : Nat} {mailbox : Bool} (hs : s.lockedOff) : (State.formSafety s msg f aux mailbox).2.lockedOff := by
  unfold State.formSafety
  repeat' first
    | exact hs
    | with_reducible apply lockedOff_ite
    | with_reducible refine foldl_lockedOff (fun _ _ hs => ?_) _ _ ?_
    | with_reducible refine onDie_lockedOff (fun _ => ?_) ?_
    | simp only [lockedOff_mk2]
    | split
    | dsimp only

theorem State.sendSafety_lockedOff {s : State} {msg : Nat} {f : FaultInfo} (hs : s.lockedOff) : (State.sendSafety s msg f).lockedOff := by
  unfold State.sendSafety
  repeat' first
    | with_reducible exact hs
    | simp only [lockedOff_mk]
    | with_reducible apply lockedOff_ite
    | with_reducible refine foldl_lockedOff (fun _ _ hs => ?_) _ _ ?_
    | with_reducible refine onDie_lockedOff (fun _ => ?_) ?_
    | with_reducible refine State.formSafety_lockedOff ?_
    | with_reducible refine lockedOff_of (State.originate_safeEq ..) ?_
    | simp only [lockedOff_mk2]
    | split
    | dsimp only

theorem State.heartStop_lockedOff {s : State} (hs : s.lockedOff) : (State.heartStop s).lockedOff := by
  unfold State.heartStop
  repeat' first
    | with_reducible exact hs
    | simp only [lockedOff_mk]
    | with_reducible apply lockedOff_ite
    | with_reducible refine foldl_lockedOff (fun _ _ hs => ?_) _ _ ?_
    | with_reducible refine lockedOff_of (State.event_safeEq ..) ?_
    | with_reducible refine lockedOff_of (State.emit_safeEq ..) ?_
    | simp only [lockedOff_mk2]
    | split
    | dsimp only

theorem State.heartResume_lockedOff {s : State} (hs : s.lockedOff) : (State.heartResume s).lockedOff := by
  unfold State.heartResume
  repeat' first
    | with_reducible exact hs
    | simp only [lockedOff_mk]
    | with_reducible apply lockedOff_ite
    | with_reducible refine foldl_lockedOff (fun _ _ hs => ?_) _ _ ?_
    | with_reducible refine State.sendSafety_lockedOff ?_
    | with_reducible refine lockedOff_of (State.event_safeEq ..) ?_
    | with_reducible refine lockedOff_of (State.emit_safeEq ..) ?_
    | simp only [lockedOff_mk2]
    | split
    | dsimp only

theorem State.latch_lockedOff {s : State} {cause : Nat} (hs : s.lockedOff) : (State.latch s cause).lockedOff := by
  unfold State.latch
  repeat' first
    | with_reducible exact hs
    | simp only [lockedOff_mk]
    | with_reducible apply lockedOff_ite
    | with_reducible refine foldl_lockedOff (fun _ _ hs => ?_) _ _ ?_
    | with_reducible refine lockedOff_of (State.event_safeEq ..) ?_
    | with_reducible exact State.outsOff_lockedOff _
    | with_reducible refine State.heartStop_lockedOff ?_
    | simp only [lockedOff_mk2]
    | split
    | dsimp only

theorem State.releaseLockout_lockedOff {s : State} : (State.releaseLockout s).lockedOff := by
  unfold State.releaseLockout
  refine State.heartResume_lockedOff (lockedOff_of (State.event_safeEq ..) ?_)
  intro h
  exact absurd h (fun h => Bool.noConfusion h)

theorem State.ownFault_lockedOff {s : State} {f : FaultInfo} (hs : s.lockedOff) : (State.ownFault s f).lockedOff := by
  unfold State.ownFault
  repeat' first
    | with_reducible exact hs
    | simp only [lockedOff_mk]
    | with_reducible apply lockedOff_ite
    | with_reducible refine foldl_lockedOff (fun _ _ hs => ?_) _ _ ?_
    | with_reducible refine onDie_lockedOff (fun _ => ?_) ?_
    | with_reducible refine State.sendSafety_lockedOff ?_
    | with_reducible refine State.latch_lockedOff ?_
    | simp only [lockedOff_mk2]
    | split
    | dsimp only

theorem State.takeNotice_lockedOff {s : State} {k : Nat} {b : List Byte} (hs : s.lockedOff) : (State.takeNotice s k b).lockedOff := by
  unfold State.takeNotice
  repeat' first
    | with_reducible exact hs
    | simp only [lockedOff_mk]
    | with_reducible apply lockedOff_ite
    | with_reducible refine foldl_lockedOff (fun _ _ hs => ?_) _ _ ?_
    | with_reducible refine onDie_lockedOff (fun _ => ?_) ?_
    | with_reducible refine State.heartStop_lockedOff ?_
    | with_reducible refine State.ownFault_lockedOff ?_
    | with_reducible refine lockedOff_of (State.faultTrigger_safeEq ..) ?_
    | with_reducible refine lockedOff_of (State.eventAt_safeEq ..) ?_
    | with_reducible refine lockedOff_of (State.originate_safeEq ..) ?_
    | simp only [lockedOff_mk2]
    | split
    | dsimp only

theorem State.cancelPend_lockedOff {s : State} (hs : s.lockedOff) : (State.cancelPend s).lockedOff := by
  unfold State.cancelPend
  repeat' first
    | with_reducible exact hs
    | simp only [lockedOff_mk]
    | with_reducible apply lockedOff_ite
    | with_reducible refine foldl_lockedOff (fun _ _ hs => ?_) _ _ ?_
    | with_reducible refine onDie_lockedOff (fun _ => ?_) ?_
    | with_reducible refine State.evalOuts_lockedOff ?_
    | with_reducible refine lockedOff_of (State.complete_safeEq ..) ?_
    | simp only [lockedOff_mk2]
    | split
    | dsimp only

theorem State.enterProtOnly_lockedOff {s : State} {k : Nat} (hs : s.lockedOff) : (State.enterProtOnly s k).lockedOff := by
  unfold State.enterProtOnly
  repeat' first
    | with_reducible exact hs
    | simp only [lockedOff_mk]
    | with_reducible apply lockedOff_ite
    | with_reducible refine foldl_lockedOff (fun _ _ hs => ?_) _ _ ?_
    | with_reducible refine onDie_lockedOff (fun _ => ?_) ?_
    | with_reducible refine lockedOff_of (State.stopFast_safeEq ..) ?_
    | with_reducible refine lockedOff_of (State.event_safeEq ..) ?_
    | with_reducible refine lockedOff_of (State.discardRun_safeEq ..) ?_
    | with_reducible refine lockedOff_of (State.modDie_safeEq ..) ?_
    | with_reducible refine State.cancelPend_lockedOff ?_
    | with_reducible refine lockedOff_of (State.settleChannels_safeEq ..) ?_
    | simp only [lockedOff_mk2]
    | split
    | dsimp only

theorem State.dacCleared_lockedOff {s : State} {k i : Nat} (hs : s.lockedOff) : (State.dacCleared s k i).lockedOff := by
  unfold State.dacCleared
  repeat' first
    | with_reducible exact hs
    | simp only [lockedOff_mk]
    | with_reducible apply lockedOff_ite
    | with_reducible refine foldl_lockedOff (fun _ _ hs => ?_) _ _ ?_
    | with_reducible refine onDie_lockedOff (fun _ => ?_) ?_
    | with_reducible refine State.heartResume_lockedOff ?_
    | with_reducible refine lockedOff_of (State.dieEvent_safeEq ..) ?_
    | simp only [lockedOff_mk2]
    | split
    | dsimp only

theorem State.mendLink_lockedOff {s : State} {i : Nat} (hs : s.lockedOff) : (State.mendLink s i).lockedOff := by
  unfold State.mendLink
  repeat' first
    | with_reducible exact hs
    | simp only [lockedOff_mk]
    | with_reducible apply lockedOff_ite
    | with_reducible refine foldl_lockedOff (fun _ _ hs => ?_) _ _ ?_
    | with_reducible refine onDie_lockedOff (fun _ => ?_) ?_
    | with_reducible refine State.heartResume_lockedOff ?_
    | with_reducible refine lockedOff_of (State.modDie_safeEq ..) ?_
    | with_reducible refine lockedOff_of (State.event_safeEq ..) ?_
    | with_reducible refine lockedOff_of (State.fastDomain_safeEq ..) ?_
    | simp only [lockedOff_mk2]
    | split
    | dsimp only

theorem State.relocateStep_lockedOff {s : State} {n : Nat} (hs : s.lockedOff) : (State.relocateStep s n).lockedOff := by
  unfold State.relocateStep
  repeat' first
    | with_reducible exact hs
    | simp only [lockedOff_mk]
    | with_reducible apply lockedOff_ite
    | with_reducible refine foldl_lockedOff (fun _ _ hs => ?_) _ _ ?_
    | with_reducible refine onDie_lockedOff (fun _ => ?_) ?_
    | with_reducible refine State.sendSafety_lockedOff ?_
    | with_reducible refine lockedOff_of (State.drainUrgent_safeEq ..) ?_
    | with_reducible refine lockedOff_of (State.blackBox_safeEq ..) ?_
    | with_reducible refine lockedOff_of (State.dropHops_safeEq ..) ?_
    | with_reducible refine modTrust_lockedOff ?_
    | simp only [lockedOff_mk2]
    | split
    | dsimp only

theorem State.relocateFrom_lockedOff {s : State} {n : Nat} (hs : s.lockedOff) : (State.relocateFrom s n).lockedOff := by
  unfold State.relocateFrom
  repeat' first
    | with_reducible exact hs
    | simp only [lockedOff_mk]
    | with_reducible apply lockedOff_ite
    | with_reducible refine foldl_lockedOff (fun _ _ hs => ?_) _ _ ?_
    | with_reducible refine onDie_lockedOff (fun _ => ?_) ?_
    | with_reducible refine State.relocateStep_lockedOff ?_
    | simp only [lockedOff_mk2]
    | split
    | dsimp only

theorem State.stepTests_lockedOff {s : State} {levels tp : List Bool} (hs : s.lockedOff) : (State.stepTests s levels tp).lockedOff := by
  unfold State.stepTests
  refine foldl_lockedOff (fun s i hs => ?_) _ _ hs
  split
  · exact hs
  · exact lockedOff_ite (State.latch_lockedOff (lockedOff_of (State.event_safeEq ..) (lockedOff_same (s := s) id (fun _ => rfl) hs)))
      (lockedOff_same (s := s) id (fun _ => rfl) hs)

theorem State.stepInput_lockedOff {s : State} {levels : List Bool} {i : Nat} (hs : s.lockedOff) : (State.stepInput s levels i).lockedOff := by
  unfold State.stepInput
  repeat' first
    | with_reducible exact hs
    | simp only [lockedOff_mk]
    | with_reducible apply lockedOff_ite
    | with_reducible refine foldl_lockedOff (fun _ _ hs => ?_) _ _ ?_
    | with_reducible refine lockedOff_of (State.event_safeEq ..) ?_
    | with_reducible refine State.latch_lockedOff ?_
    | simp only [lockedOff_mk2]
    | split
    | dsimp only

theorem outOn_setNth {s : State} {k : Nat} {o x : SafeOut} (h : s.safe.outs[k]? = some o) (ho : x.on = o.on) (j : Nat) :
    (({ s with safe := { s.safe with outs := setNth k x s.safe.outs } } : State)).outOn j = s.outOn j := by
  unfold State.outOn setNth
  by_cases hj : j = k
  · subst hj
    simp only [modNth_getElem?_same, h, Option.map_some, ho]
  · simp only [modNth_getElem?_other _ _ hj]

theorem State.stepFeedback_lockedOff {s : State} {fb : List Bool} {k : Nat} (hs : s.lockedOff) : (State.stepFeedback s fb k).lockedOff := by
  unfold State.stepFeedback
  split
  · exact hs
  · next o h =>
    have key : ∀ x : SafeOut, x.on = o.on → (({ s with safe := { s.safe with outs := setNth k x s.safe.outs } } : State)).lockedOff := fun x hx =>
      lockedOff_same (s := s) id (fun j => outOn_setNth h hx j) hs
    exact lockedOff_ite (State.latch_lockedOff (lockedOff_of (State.event_safeEq ..) (key _ rfl))) (key _ rfl)

theorem State.stepLorst_lockedOff {s : State} {high : Bool} (hs : s.lockedOff) : (State.stepLorst s high).lockedOff := by
  unfold State.stepLorst
  repeat' first
    | exact hs
    | with_reducible apply lockedOff_ite
    | with_reducible refine foldl_lockedOff (fun _ _ hs => ?_) _ _ ?_
    | with_reducible refine onDie_lockedOff (fun _ => ?_) ?_
    | simp only [lockedOff_mk2]
    | split
    | dsimp only

theorem State.endPulse_lockedOff {s : State} {o : Nat} (hs : s.lockedOff) : (State.endPulse s o).lockedOff := by
  unfold State.endPulse
  repeat' first
    | exact hs
    | with_reducible apply lockedOff_ite
    | with_reducible refine foldl_lockedOff (fun _ _ hs => ?_) _ _ ?_
    | with_reducible refine onDie_lockedOff (fun _ => ?_) ?_
    | with_reducible refine lockedOff_of (State.emit_safeEq ..) ?_
    | simp only [lockedOff_mk2]
    | split
    | dsimp only

theorem State.countFrameError_lockedOff {s : State} {conn sub : Nat} (hs : s.lockedOff) : (State.countFrameError s conn sub).lockedOff := by
  unfold State.countFrameError
  repeat' first
    | with_reducible exact hs
    | simp only [lockedOff_mk]
    | with_reducible apply lockedOff_ite
    | with_reducible refine foldl_lockedOff (fun _ _ hs => ?_) _ _ ?_
    | with_reducible refine lockedOff_of (State.event_safeEq ..) ?_
    | simp only [lockedOff_mk2]
    | split
    | dsimp only

theorem State.modWatch_lockedOff {s : State} {p : Nat} {f : WatchPos → WatchPos} (hs : s.lockedOff) : (State.modWatch s p f).lockedOff := by
  unfold State.modWatch
  repeat' first
    | exact hs
    | with_reducible apply lockedOff_ite
    | with_reducible refine foldl_lockedOff (fun _ _ hs => ?_) _ _ ?_
    | with_reducible refine onDie_lockedOff (fun _ => ?_) ?_
    | simp only [lockedOff_mk2]
    | split
    | dsimp only

theorem State.connError_lockedOff {s : State} {p : Nat} (hs : s.lockedOff) : (State.connError s p).lockedOff := by
  unfold State.connError
  repeat' first
    | with_reducible exact hs
    | simp only [lockedOff_mk]
    | with_reducible apply lockedOff_ite
    | with_reducible refine foldl_lockedOff (fun _ _ hs => ?_) _ _ ?_
    | with_reducible refine onDie_lockedOff (fun _ => ?_) ?_
    | with_reducible refine State.modWatch_lockedOff ?_
    | with_reducible refine State.latch_lockedOff ?_
    | simp only [lockedOff_mk2]
    | split
    | dsimp only

theorem State.validFrame_lockedOff {s : State} {p : Nat} {b : List Byte} (hs : s.lockedOff) : (State.validFrame s p b).lockedOff := by
  unfold State.validFrame
  repeat' first
    | with_reducible exact hs
    | simp only [lockedOff_mk]
    | with_reducible apply lockedOff_ite
    | with_reducible refine foldl_lockedOff (fun _ _ hs => ?_) _ _ ?_
    | with_reducible refine onDie_lockedOff (fun _ => ?_) ?_
    | with_reducible refine State.evalOuts_lockedOff ?_
    | with_reducible refine State.modWatch_lockedOff ?_
    | with_reducible refine State.latch_lockedOff ?_
    | with_reducible refine lockedOff_of (State.event_safeEq ..) ?_
    | simp only [lockedOff_mk2]
    | split
    | dsimp only

theorem outOn_edges (l : List SafeOut) (f : SafeOut × Nat → SafeOut) (hf : ∀ x, (f x).on = x.1.on) (k : Nat) :
    (((l.zipIdx.map f)[k]?).map (·.on)).getD false = ((l[k]?).map (·.on)).getD false := by
  rw [List.getElem?_map, List.getElem?_zipIdx]
  cases l[k]? <;> simp [hf]

theorem State.hostFrame_lockedOff {s : State} {b : List Byte} (hs : s.lockedOff) : (State.hostFrame s b).lockedOff := by
  unfold State.hostFrame
  dsimp only
  split
  · split
    · exact lockedOff_of (State.event_safeEq ..) (lockedOff_same (s := s) id (fun _ => rfl) hs)
    · exact lockedOff_same (s := s) id (fun _ => rfl) hs
  · split
    · exact lockedOff_same (s := s) id (fun _ => rfl) hs
    · split
      · exact State.countFrameError_lockedOff (lockedOff_same (s := s) id (fun _ => rfl) hs)
      · refine State.evalOuts_lockedOff (lockedOff_same (s := s) id (fun k => ?_) hs)
        have hf : ∀ (a : Bool) (c : SafeOut × Nat → Bool) (x : SafeOut × Nat),
            (if (c x || a) = true then x.1 else { x.1 with edge := true }).on = x.1.on := fun a c x => by
          cases h : (c x || a) <;> rfl
        exact outOn_edges _ (fun x => if (_ || _) = true then x.1 else { x.1 with edge := true }) (hf _ _) k

theorem State.disarmAll_lockedOff {s : State} (hs : s.lockedOff) : (State.disarmAll s).lockedOff := by
  unfold State.disarmAll
  repeat' first
    | exact hs
    | with_reducible apply lockedOff_ite
    | with_reducible refine foldl_lockedOff (fun _ _ hs => ?_) _ _ ?_
    | with_reducible refine onDie_lockedOff (fun _ => ?_) ?_
    | with_reducible refine State.evalOuts_lockedOff ?_
    | with_reducible refine State.latch_lockedOff ?_
    | simp only [lockedOff_mk2]
    | split
    | dsimp only

theorem State.startEnumeration_lockedOff {s : State} {cmd : Option Cmd} (hs : s.lockedOff) : (State.startEnumeration s cmd).lockedOff := by
  unfold State.startEnumeration
  repeat' first
    | with_reducible exact hs
    | simp only [lockedOff_mk]
    | with_reducible apply lockedOff_ite
    | with_reducible refine foldl_lockedOff (fun _ _ hs => ?_) _ _ ?_
    | with_reducible refine onDie_lockedOff (fun _ => ?_) ?_
    | with_reducible refine State.disarmAll_lockedOff ?_
    | with_reducible refine State.cancelPend_lockedOff ?_
    | with_reducible refine lockedOff_of (State.queueCompletion_safeEq ..) ?_
    | with_reducible refine lockedOff_of (State.becomeFrontier_safeEq ..) ?_
    | with_reducible refine lockedOff_of (State.originate_safeEq ..) ?_
    | with_reducible refine lockedOff_of (State.takeBlock_safeEq ..) ?_
    | with_reducible refine lockedOff_of (State.dropPlace_safeEq ..) ?_
    | simp only [lockedOff_mk2]
    | split
    | dsimp only

theorem State.padOff_lockedOff {s : State} (hs : s.lockedOff) : (State.padOff s).lockedOff := by
  unfold State.padOff
  repeat' first
    | exact hs
    | with_reducible apply lockedOff_ite
    | with_reducible refine foldl_lockedOff (fun _ _ hs => ?_) _ _ ?_
    | with_reducible refine onDie_lockedOff (fun _ => ?_) ?_
    | with_reducible refine lockedOff_of (State.emit_safeEq ..) ?_
    | simp only [lockedOff_mk2]
    | split
    | dsimp only

theorem SafeState.lose_off (f : SafeState) (k : Nat) : (((f.lose.outs)[k]?).map (·.on)).getD false = false := by
  match k with
  | 0 => rfl
  | 1 => rfl
  | 2 => rfl
  | n + 3 => rfl

theorem State.hubStop_lockedOff {s : State} {sleep : Bool} : (State.hubStop s sleep).lockedOff := by
  unfold State.hubStop
  refine foldl_lockedOff (fun _ _ hs => lockedOff_of (State.settleChannels_safeEq ..) hs) _ _ ?_
  exact lockedOff_of ((State.takeBlock_safeEq ..).trans (State.modDies_safeEq ..)) (fun _ k _ => SafeState.lose_off _ k)

theorem State.loadMeter_lockedOff {s : State} (hs : s.lockedOff) : (State.loadMeter s).lockedOff := by
  unfold State.loadMeter
  repeat' first
    | with_reducible exact hs
    | simp only [lockedOff_mk]
    | with_reducible apply lockedOff_ite
    | with_reducible refine foldl_lockedOff (fun _ _ hs => ?_) _ _ ?_
    | with_reducible refine onDie_lockedOff (fun _ => ?_) ?_
    | with_reducible refine State.warn_lockedOff ?_
    | with_reducible refine lockedOff_of (State.event_safeEq ..) ?_
    | with_reducible refine modTrust_lockedOff ?_
    | simp only [lockedOff_mk2]
    | split
    | dsimp only

theorem State.loadLockout_lockedOff {s : State} (hs : s.lockedOff) : (State.loadLockout s).lockedOff := by
  unfold State.loadLockout
  repeat' first
    | exact hs
    | with_reducible apply lockedOff_ite
    | with_reducible refine foldl_lockedOff (fun _ _ hs => ?_) _ _ ?_
    | with_reducible refine onDie_lockedOff (fun _ => ?_) ?_
    | with_reducible exact State.outsOff_lockedOff _
    | simp only [lockedOff_mk2]
    | split
    | dsimp only

theorem State.eraseReturned_lockedOff {s : State} (hs : s.lockedOff) : (State.eraseReturned s).lockedOff := hs

theorem State.resumeJournal_lockedOff {s : State} (hs : s.lockedOff) : (State.resumeJournal s).lockedOff := by
  unfold State.resumeJournal
  repeat' first
    | exact State.eraseReturned_lockedOff hs
    | exact State.relocateFrom_lockedOff hs
    | exact hs
    | split

theorem State.hubGo_lockedOff {s : State} {by_ : Nat} {left storeFail : Bool} (hs : s.lockedOff) : (State.hubGo s by_ left storeFail).lockedOff := by
  unfold State.hubGo
  repeat' first
    | with_reducible exact hs
    | simp only [lockedOff_mk]
    | with_reducible apply lockedOff_ite
    | with_reducible refine foldl_lockedOff (fun _ _ hs => ?_) _ _ ?_
    | with_reducible refine lockedOff_of (State.drawBytes_safeEq ..) ?_
    | with_reducible refine State.loadLockout_lockedOff ?_
    | with_reducible refine modTrust_lockedOff ?_
    | with_reducible refine State.heartResume_lockedOff ?_
    | with_reducible refine State.cancelPend_lockedOff ?_
    | with_reducible refine lockedOff_of (State.startStore_safeEq ..) ?_
    | with_reducible refine lockedOff_of (State.testPads_safeEq ..) ?_
    | with_reducible refine lockedOff_of (State.locusRestart_safeEq ..) ?_
    | with_reducible refine lockedOff_of (State.startPackTime_safeEq ..) ?_
    | with_reducible refine State.loadMeter_lockedOff ?_
    | with_reducible refine lockedOff_of (State.fastDomain_safeEq ..) ?_
    | with_reducible refine State.startEnumeration_lockedOff ?_
    | with_reducible refine modPower_lockedOff ?_
    | with_reducible refine lockedOff_of (State.compareBb_safeEq ..) ?_
    | with_reducible refine lockedOff_of (State.flushUnrouted_safeEq ..) ?_
    | with_reducible refine lockedOff_of (State.emit_safeEq ..) ?_
    | with_reducible refine lockedOff_of (State.startEvents_safeEq ..) ?_
    | with_reducible refine lockedOff_of (State.event_safeEq ..) ?_
    | with_reducible refine lockedOff_of (State.writer_safeEq ..) ?_
    | simp only [lockedOff_mk2]
    | split
    | dsimp only

theorem State.hubUp_lockedOff {s : State} {storeFail : Bool} (hs : s.lockedOff) : (State.hubUp s storeFail).lockedOff := by
  unfold State.hubUp
  repeat' first
    | with_reducible exact hs
    | simp only [lockedOff_mk]
    | with_reducible apply lockedOff_ite
    | with_reducible refine foldl_lockedOff (fun _ _ hs => ?_) _ _ ?_
    | with_reducible refine onDie_lockedOff (fun _ => ?_) ?_
    | with_reducible refine State.resumeJournal_lockedOff ?_
    | with_reducible refine State.hubGo_lockedOff ?_
    | with_reducible refine lockedOff_of (State.hubBegin_safeEq ..) ?_
    | simp only [lockedOff_mk2]
    | split
    | dsimp only

theorem State.hubTest_lockedOff {s : State} {bist : Nat} (hs : s.lockedOff) : (State.hubTest s bist).lockedOff := by
  unfold State.hubTest
  repeat' first
    | with_reducible exact hs
    | simp only [lockedOff_mk]
    | with_reducible apply lockedOff_ite
    | with_reducible refine foldl_lockedOff (fun _ _ hs => ?_) _ _ ?_
    | with_reducible refine onDie_lockedOff (fun _ => ?_) ?_
    | with_reducible refine State.hubUp_lockedOff ?_
    | with_reducible refine lockedOff_of (State.reportMemory_safeEq ..) ?_
    | with_reducible refine lockedOff_of (State.modTest_safeEq ..) ?_
    | with_reducible refine lockedOff_of (State.testFailed_safeEq ..) ?_
    | simp only [lockedOff_mk2]
    | split
    | dsimp only

theorem State.hubStart_lockedOff {s : State} {bist : Nat} (hs : s.lockedOff) : (State.hubStart s bist).lockedOff := by
  unfold State.hubStart
  repeat' first
    | with_reducible exact hs
    | simp only [lockedOff_mk]
    | with_reducible apply lockedOff_ite
    | with_reducible refine foldl_lockedOff (fun _ _ hs => ?_) _ _ ?_
    | with_reducible refine onDie_lockedOff (fun _ => ?_) ?_
    | with_reducible refine State.hubTest_lockedOff ?_
    | with_reducible refine State.hubUp_lockedOff ?_
    | with_reducible refine lockedOff_of (State.modTest_safeEq ..) ?_
    | with_reducible refine lockedOff_of (State.modPower_safeEq ..) ?_
    | with_reducible refine modPower_lockedOff ?_
    | simp only [lockedOff_mk2]
    | split
    | dsimp only

theorem State.warn_lockedOff {s : State} {item : Nat} (hs : s.lockedOff) : (State.warn s item).lockedOff := by
  unfold State.warn
  repeat' first
    | with_reducible exact hs
    | simp only [lockedOff_mk]
    | with_reducible apply lockedOff_ite
    | with_reducible refine foldl_lockedOff (fun _ _ hs => ?_) _ _ ?_
    | with_reducible refine lockedOff_of (State.commitMeter_safeEq ..) ?_
    | with_reducible refine State.sendSafety_lockedOff ?_
    | with_reducible refine lockedOff_of (State.copyCounters_safeEq ..) ?_
    | with_reducible refine lockedOff_of (State.setHoldEff_safeEq ..) ?_
    | with_reducible refine lockedOff_of (State.closeSession_safeEq ..) ?_
    | with_reducible refine modPower_lockedOff ?_
    | with_reducible refine lockedOff_of (State.commitPackTime_safeEq ..) ?_
    | with_reducible refine lockedOff_of (State.modRail_safeEq ..) ?_
    | with_reducible refine lockedOff_of (State.drainUrgent_safeEq ..) ?_
    | with_reducible refine lockedOff_of (State.hifOff_safeEq ..) ?_
    | with_reducible refine lockedOff_of (State.writeAllBb_safeEq ..) ?_
    | with_reducible exact State.outsOff_lockedOff _
    | with_reducible refine lockedOff_of (State.locusWarning_safeEq ..) ?_
    | simp only [lockedOff_mk2]
    | split
    | dsimp only

theorem State.enterLow_lockedOff {s : State} {target : Nat} (hs : s.lockedOff) : (State.enterLow s target).lockedOff := by
  unfold State.enterLow
  repeat' first
    | with_reducible exact hs
    | simp only [lockedOff_mk]
    | with_reducible apply lockedOff_ite
    | with_reducible refine foldl_lockedOff (fun _ _ hs => ?_) _ _ ?_
    | with_reducible refine lockedOff_of (State.commitMeter_safeEq ..) ?_
    | with_reducible refine State.sendSafety_lockedOff ?_
    | with_reducible refine lockedOff_of (State.event_safeEq ..) ?_
    | with_reducible refine lockedOff_of (State.precOff_safeEq ..) ?_
    | with_reducible refine lockedOff_of (State.copyCounters_safeEq ..) ?_
    | with_reducible refine lockedOff_of (State.accrueTest_safeEq ..) ?_
    | with_reducible refine lockedOff_of (State.closeSession_safeEq ..) ?_
    | with_reducible refine modPower_lockedOff ?_
    | with_reducible refine lockedOff_of (State.commitPackTime_safeEq ..) ?_
    | with_reducible refine State.startDown_lockedOff ?_
    | with_reducible refine lockedOff_of (State.abortCapture_safeEq ..) ?_
    | with_reducible refine lockedOff_of (State.originate_safeEq ..) ?_
    | with_reducible refine lockedOff_of (State.drainUrgent_safeEq ..) ?_
    | with_reducible refine lockedOff_of (State.persist_safeEq ..) ?_
    | with_reducible refine lockedOff_of (State.locusSleep_safeEq ..) ?_
    | with_reducible exact State.outsOff_lockedOff _
    | with_reducible refine State.cancelPend_lockedOff ?_
    | with_reducible exact State.hubStop_lockedOff
    | simp only [lockedOff_mk2]
    | split
    | dsimp only

theorem State.enterPend_lockedOff {s : State} (hs : s.lockedOff) : (State.enterPend s).lockedOff := by
  unfold State.enterPend
  repeat' first
    | with_reducible exact hs
    | simp only [lockedOff_mk]
    | with_reducible apply lockedOff_ite
    | with_reducible refine foldl_lockedOff (fun _ _ hs => ?_) _ _ ?_
    | with_reducible refine State.enterLow_lockedOff ?_
    | simp only [lockedOff_mk2]
    | split
    | dsimp only

theorem State.askLow_lockedOff {s : State} {target : Nat} {cast : Bool} (hs : s.lockedOff) : (State.askLow s target cast).lockedOff := by
  unfold State.askLow
  repeat' first
    | with_reducible exact hs
    | simp only [lockedOff_mk]
    | with_reducible apply lockedOff_ite
    | with_reducible refine foldl_lockedOff (fun _ _ hs => ?_) _ _ ?_
    | with_reducible refine State.enterLow_lockedOff ?_
    | with_reducible refine modPower_lockedOff ?_
    | simp only [lockedOff_mk2]
    | split
    | dsimp only

theorem State.tryEnter_lockedOff {s : State} (hs : s.lockedOff) : (State.tryEnter s).lockedOff := by
  unfold State.tryEnter
  repeat' first
    | with_reducible exact hs
    | simp only [lockedOff_mk]
    | with_reducible apply lockedOff_ite
    | with_reducible refine foldl_lockedOff (fun _ _ hs => ?_) _ _ ?_
    | with_reducible refine onDie_lockedOff (fun _ => ?_) ?_
    | with_reducible refine State.enterLow_lockedOff ?_
    | simp only [lockedOff_mk2]
    | split
    | dsimp only

theorem State.afterSwap_lockedOff {s : State} {tc : Nat} (hs : s.lockedOff) : (State.afterSwap s tc).lockedOff := by
  unfold State.afterSwap
  repeat' first
    | with_reducible exact hs
    | simp only [lockedOff_mk]
    | with_reducible apply lockedOff_ite
    | with_reducible refine foldl_lockedOff (fun _ _ hs => ?_) _ _ ?_
    | with_reducible refine lockedOff_of (State.followRails_safeEq ..) ?_
    | with_reducible refine State.adoptIdlePorts_lockedOff ?_
    | with_reducible refine lockedOff_of (State.takeBlock_safeEq ..) ?_
    | with_reducible refine State.sendSafety_lockedOff ?_
    | with_reducible refine lockedOff_of (State.swapDie_safeEq ..) ?_
    | simp only [lockedOff_mk2]
    | split
    | dsimp only

theorem State.leaveBlank_lockedOff {s : State} (hs : s.lockedOff) : (State.leaveBlank s).lockedOff := by
  unfold State.leaveBlank
  repeat' first
    | with_reducible exact hs
    | simp only [lockedOff_mk]
    | with_reducible apply lockedOff_ite
    | with_reducible refine foldl_lockedOff (fun _ _ hs => ?_) _ _ ?_
    | with_reducible refine State.afterSwap_lockedOff ?_
    | with_reducible refine modCfg_lockedOff ?_
    | simp only [lockedOff_mk2]
    | split
    | dsimp only

theorem State.swapSets_lockedOff {s : State} {p : PendCommit} (hs : s.lockedOff) : (State.swapSets s p).lockedOff := by
  unfold State.swapSets
  repeat' first
    | with_reducible exact hs
    | simp only [lockedOff_mk]
    | with_reducible apply lockedOff_ite
    | with_reducible refine foldl_lockedOff (fun _ _ hs => ?_) _ _ ?_
    | with_reducible refine onDie_lockedOff (fun _ => ?_) ?_
    | with_reducible refine State.afterSwap_lockedOff ?_
    | with_reducible refine State.evalOuts_lockedOff ?_
    | with_reducible refine lockedOff_of (State.complete_safeEq ..) ?_
    | with_reducible refine lockedOff_of (State.swapTargets_safeEq ..) ?_
    | with_reducible refine modCfg_lockedOff ?_
    | simp only [lockedOff_mk2]
    | split
    | dsimp only

theorem State.endGroup_lockedOff {s : State} {st : Status} (hs : s.lockedOff) : (State.endGroup s st).lockedOff := by
  unfold State.endGroup
  repeat' first
    | with_reducible exact hs
    | simp only [lockedOff_mk]
    | with_reducible apply lockedOff_ite
    | with_reducible refine foldl_lockedOff (fun _ _ hs => ?_) _ _ ?_
    | with_reducible refine onDie_lockedOff (fun _ => ?_) ?_
    | with_reducible refine State.evalOuts_lockedOff ?_
    | with_reducible refine lockedOff_of (State.complete_safeEq ..) ?_
    | with_reducible refine modCfg_lockedOff ?_
    | simp only [lockedOff_mk2]
    | split
    | dsimp only

theorem State.dieBlockPassed_lockedOff {s : State} {k b : Nat} (hs : s.lockedOff) : (State.dieBlockPassed s k b).lockedOff := by
  unfold State.dieBlockPassed
  repeat' first
    | with_reducible exact hs
    | simp only [lockedOff_mk]
    | with_reducible apply lockedOff_ite
    | with_reducible refine foldl_lockedOff (fun _ _ hs => ?_) _ _ ?_
    | with_reducible refine onDie_lockedOff (fun _ => ?_) ?_
    | with_reducible refine State.dacCleared_lockedOff ?_
    | with_reducible refine lockedOff_of (State.modDie_safeEq ..) ?_
    | with_reducible refine lockedOff_of (State.modulatorPassed_safeEq ..) ?_
    | simp only [lockedOff_mk2]
    | split
    | dsimp only

theorem State.linkPassed_lockedOff {s : State} {k b : Nat} {had : Bool} (hs : s.lockedOff) : (State.linkPassed s k b had).lockedOff := by
  unfold State.linkPassed
  repeat' first
    | with_reducible exact hs
    | simp only [lockedOff_mk]
    | with_reducible apply lockedOff_ite
    | with_reducible refine foldl_lockedOff (fun _ _ hs => ?_) _ _ ?_
    | with_reducible refine onDie_lockedOff (fun _ => ?_) ?_
    | with_reducible refine State.mendLink_lockedOff ?_
    | simp only [lockedOff_mk2]
    | split
    | dsimp only

theorem State.hubBlockFailed_lockedOff {s : State} {b : Nat} (hs : s.lockedOff) : (State.hubBlockFailed s b).lockedOff := by
  unfold State.hubBlockFailed
  repeat' first
    | with_reducible exact hs
    | simp only [lockedOff_mk]
    | with_reducible apply lockedOff_ite
    | with_reducible refine foldl_lockedOff (fun _ _ hs => ?_) _ _ ?_
    | with_reducible refine onDie_lockedOff (fun _ => ?_) ?_
    | with_reducible refine State.latch_lockedOff ?_
    | simp only [lockedOff_mk2]
    | split
    | dsimp only

theorem State.endSlice_lockedOff {s : State} {k b result : Nat} (hs : s.lockedOff) : (State.endSlice s k b result).lockedOff := by
  unfold State.endSlice
  repeat' first
    | with_reducible exact hs
    | simp only [lockedOff_mk]
    | with_reducible apply lockedOff_ite
    | with_reducible refine foldl_lockedOff (fun _ _ hs => ?_) _ _ ?_
    | with_reducible refine lockedOff_of (State.testFailed_safeEq ..) ?_
    | with_reducible refine State.hubBlockFailed_lockedOff ?_
    | with_reducible refine lockedOff_of (State.modDie_safeEq ..) ?_
    | with_reducible refine State.linkPassed_lockedOff ?_
    | with_reducible refine lockedOff_of (State.releaseSlice_safeEq ..) ?_
    | with_reducible refine lockedOff_of (State.dieBlockFailed_safeEq ..) ?_
    | with_reducible refine lockedOff_of (State.modTest_safeEq ..) ?_
    | with_reducible refine lockedOff_of (State.accrueTest_safeEq ..) ?_
    | with_reducible refine State.dieBlockPassed_lockedOff ?_
    | simp only [lockedOff_mk2]
    | split
    | dsimp only

theorem State.runBlock_lockedOff {s : State} {k b result : Nat} {n : Tally} (hs : s.lockedOff) : (State.runBlock s k b result n).1.lockedOff := by
  unfold State.runBlock
  repeat' first
    | with_reducible exact hs
    | simp only [lockedOff_mk]
    | with_reducible apply lockedOff_ite
    | with_reducible refine foldl_lockedOff (fun _ _ hs => ?_) _ _ ?_
    | with_reducible refine onDie_lockedOff (fun _ => ?_) ?_
    | with_reducible refine State.endSlice_lockedOff ?_
    | with_reducible refine lockedOff_of (State.startSlice_safeEq ..) ?_
    | simp only [lockedOff_mk2]
    | split
    | dsimp only

end Sys2Proof.Machine
end

