-- ==== Sys2Proof/Laws/LockedOffCommands.lean ====
section
/-! SUPPORT. A latched lock-out keeps every output off: the commands that touch the safety block. -/

namespace Sys2Proof.Machine

set_option linter.all false
set_option maxRecDepth 4000

theorem serve_lockedOff {s : State} {code : Nat} {c : Cmd} {mine : Bool} {f : State → State}
    (h : ∀ t : State, t.lockedOff → (f t).lockedOff) (hs : s.lockedOff) : (s.serve code c mine f).lockedOff := by
  unfold State.serve
  refine lockedOff_ite hs ?_
  dsimp only
  split
  · exact lockedOff_of ((State.complete_safeEq ..).trans (State.undoze_safeEq _)) hs
  · exact h _ (lockedOff_of (State.undoze_safeEq _) hs)

theorem lifecycle_lockedOff {s : State} {c : Cmd} {data : List Byte} {f : State → LifeMsg → State}
    (h : ∀ (t : State) m, t.lockedOff → (f t m).lockedOff) (hs : s.lockedOff) : (s.lifecycle c data f).lockedOff := by
  unfold State.lifecycle
  refine lockedOff_ite (lockedOff_of (State.complete_safeEq ..) hs) (lockedOff_ite (lockedOff_of (State.complete_safeEq ..) hs) ?_)
  refine lockedOff_ite (h _ _ hs) (lockedOff_of (State.complete_safeEq ..) (lockedOff_ite (lockedOff_of (State.event_safeEq ..) hs) hs))

theorem State.runReturn_lockedOff {s : State} (hs : s.lockedOff) : s.runReturn.lockedOff := by
  unfold State.runReturn
  exact State.eraseReturned_lockedOff (modTrust_lockedOff (lockedOff_of ((State.writeAllBb_safeEq ..).trans (State.blackBox_safeEq ..)) hs))

theorem execComparatorTick_lockedOff {t k : Nat} {v : List Rat} {s : State} {s' : State} (hs : s.lockedOff) (h : execComparatorTick t k v s = .next s') : s'.lockedOff := by
  unfold execComparatorTick at h
  cases h
  repeat' first
    | with_reducible exact hs
    | simp only [lockedOff_mk]
    | with_reducible apply lockedOff_ite
    | with_reducible refine foldl_lockedOff (fun _ _ hs => ?_) _ _ ?_
    | with_reducible refine onDie_lockedOff (fun _ => ?_) ?_
    | with_reducible refine lockedOff_of (State.judgeReady_safeEq ..) ?_
    | with_reducible refine lockedOff_of (State.adoptProt_safeEq ..) ?_
    | with_reducible refine lockedOff_of (State.applyCap_safeEq ..) ?_
    | with_reducible refine State.heartResume_lockedOff ?_
    | with_reducible refine lockedOff_of (State.modDie_safeEq ..) ?_
    | with_reducible refine State.endSweep_lockedOff ?_
    | with_reducible refine lockedOff_of (State.at__safeEq ..) ?_
    | with_reducible refine lockedOff_of (State.sampleComp_safeEq ..) ?_
    | simp only [lockedOff_mk2]
    | split
    | dsimp only

theorem execAoncPowerDown_lockedOff {t k : Nat} {s : State} {s' : State} (hs : s.lockedOff) (h : execAoncPowerDown t k s = .next s') : s'.lockedOff := by
  unfold execAoncPowerDown at h
  cases h
  repeat' first
    | with_reducible exact hs
    | simp only [lockedOff_mk]
    | with_reducible apply lockedOff_ite
    | with_reducible refine foldl_lockedOff (fun _ _ hs => ?_) _ _ ?_
    | with_reducible refine onDie_lockedOff (fun _ => ?_) ?_
    | with_reducible refine State.heartResume_lockedOff ?_
    | with_reducible refine lockedOff_of (State.precOff_safeEq ..) ?_
    | with_reducible refine lockedOff_of (State.at__safeEq ..) ?_
    | with_reducible refine lockedOff_of (State.modDie_safeEq ..) ?_
    | simp only [lockedOff_mk2]
    | split
    | dsimp only

theorem execFaultNoticeReceive_lockedOff {t k : Nat} {side : Side} {intact : Bool} {s : State} {s' : State} (hs : s.lockedOff) (h : execFaultNoticeReceive t k side intact s = .next s') : s'.lockedOff := by
  unfold execFaultNoticeReceive at h
  cases h
  repeat' first
    | with_reducible exact hs
    | simp only [lockedOff_mk]
    | with_reducible apply lockedOff_ite
    | with_reducible refine foldl_lockedOff (fun _ _ hs => ?_) _ _ ?_
    | with_reducible refine onDie_lockedOff (fun _ => ?_) ?_
    | with_reducible refine lockedOff_of (State.checkRejected_safeEq ..) ?_
    | with_reducible refine lockedOff_of (State.modDie_safeEq ..) ?_
    | with_reducible refine lockedOff_of (State.at__safeEq ..) ?_
    | with_reducible refine State.takeNotice_lockedOff ?_
    | simp only [lockedOff_mk2]
    | split
    | dsimp only

theorem execTdacReadback_lockedOff {t k : Nat} {uv : Bool} {v : Rat} {s : State} {s' : State} (hs : s.lockedOff) (h : execTdacReadback t k uv v s = .next s') : s'.lockedOff := by
  unfold execTdacReadback at h
  cases h
  repeat' first
    | with_reducible exact hs
    | simp only [lockedOff_mk]
    | with_reducible apply lockedOff_ite
    | with_reducible refine foldl_lockedOff (fun _ _ hs => ?_) _ _ ?_
    | with_reducible refine onDie_lockedOff (fun _ => ?_) ?_
    | with_reducible refine State.dacCleared_lockedOff ?_
    | with_reducible refine lockedOff_of (State.modDie_safeEq ..) ?_
    | with_reducible refine lockedOff_of (State.clearFor_safeEq ..) ?_
    | with_reducible refine lockedOff_of (State.at__safeEq ..) ?_
    | simp only [lockedOff_mk2]
    | split
    | dsimp only

theorem execOwRecheck_lockedOff {t k w : Nat} {pre post : List Rat} {s : State} {s' : State} (hs : s.lockedOff) (h : execOwRecheck t k w pre post s = .next s') : s'.lockedOff := by
  unfold execOwRecheck at h
  cases h
  repeat' first
    | with_reducible exact hs
    | simp only [lockedOff_mk]
    | with_reducible apply lockedOff_ite
    | with_reducible refine foldl_lockedOff (fun _ _ hs => ?_) _ _ ?_
    | with_reducible refine onDie_lockedOff (fun _ => ?_) ?_
    | with_reducible refine lockedOff_of (State.settleChannels_safeEq ..) ?_
    | with_reducible refine State.heartResume_lockedOff ?_
    | with_reducible refine lockedOff_of (State.dieEvent_safeEq ..) ?_
    | with_reducible refine lockedOff_of (State.modDie_safeEq ..) ?_
    | with_reducible refine lockedOff_of (State.at__safeEq ..) ?_
    | with_reducible refine lockedOff_of (State.owEnd_safeEq ..) ?_
    | with_reducible refine lockedOff_of (State.owBegin_safeEq ..) ?_
    | simp only [lockedOff_mk2]
    | split
    | dsimp only

theorem execInnerLinkRestored_lockedOff {t i : Nat} {s : State} {s' : State} (hs : s.lockedOff) (h : execInnerLinkRestored t i s = .next s') : s'.lockedOff := by
  unfold execInnerLinkRestored at h
  cases h
  repeat' first
    | with_reducible exact hs
    | simp only [lockedOff_mk]
    | with_reducible apply lockedOff_ite
    | with_reducible refine foldl_lockedOff (fun _ _ hs => ?_) _ _ ?_
    | with_reducible refine onDie_lockedOff (fun _ => ?_) ?_
    | with_reducible refine State.mendLink_lockedOff ?_
    | with_reducible refine lockedOff_of (State.at__safeEq ..) ?_
    | simp only [lockedOff_mk2]
    | split
    | dsimp only

theorem execDieLost_lockedOff {t k : Nat} {s : State} {s' : State} (hs : s.lockedOff) (h : execDieLost t k s = .next s') : s'.lockedOff := by
  unfold execDieLost at h
  cases h
  repeat' first
    | with_reducible exact hs
    | simp only [lockedOff_mk]
    | with_reducible apply lockedOff_ite
    | with_reducible refine foldl_lockedOff (fun _ _ hs => ?_) _ _ ?_
    | with_reducible refine onDie_lockedOff (fun _ => ?_) ?_
    | with_reducible refine State.heartStop_lockedOff ?_
    | with_reducible refine State.ownFault_lockedOff ?_
    | with_reducible refine lockedOff_of (State.at__safeEq ..) ?_
    | with_reducible refine lockedOff_of (State.event_safeEq ..) ?_
    | with_reducible refine lockedOff_of (State.modDie_safeEq ..) ?_
    | simp only [lockedOff_mk2]
    | split
    | dsimp only

theorem execSafetyTick_lockedOff {t : Nat} {lorst : Bool} {s : State} {s' : State} (hs : s.lockedOff) (h : execSafetyTick t lorst s = .next s') : s'.lockedOff := by
  unfold execSafetyTick at h
  cases h
  have h0 : (s.at_ t).lockedOff := hs
  refine lockedOff_ite h0 (lockedOff_ite (State.heartResume_lockedOff (lockedOff_of (State.takeBlock_safeEq ..) h0)) (State.heartResume_lockedOff
    (State.evalOuts_lockedOff ?_)))
  have key : ∀ (u : State) (f : SafeOut → SafeOut), (∀ o, (f o).on = o.on) → u.lockedOff →
      (({ u with safe := { u.safe with outs := u.safe.outs.map f } } : State)).lockedOff := fun u f hf hu =>
    lockedOff_same (s := u) id (fun k => outOn_map _ f hf k) hu
  refine key _ _ (fun o => (apply_ite SafeOut.on _ _ _).trans (ite_self _)) (lockedOff_ite (State.measureAux_lockedOff ?_) ?_) <;>
    refine State.stepLorst_lockedOff (lockedOff_ite (State.latch_lockedOff ?_) ?_) <;>
    exact lockedOff_same (s := (s.at_ t).takeBlock 0x14 0) id (fun _ => rfl) (lockedOff_of (State.takeBlock_safeEq ..) h0)

theorem execSafetyInputSample_lockedOff {t : Nat} {levels fb tp : List Bool} {s : State} {s' : State} (hs : s.lockedOff) (h : execSafetyInputSample t levels fb tp s = .next s') : s'.lockedOff := by
  unfold execSafetyInputSample at h
  cases h
  repeat' first
    | with_reducible exact hs
    | simp only [lockedOff_mk]
    | with_reducible apply lockedOff_ite
    | with_reducible refine foldl_lockedOff (fun _ _ hs => ?_) _ _ ?_
    | with_reducible refine onDie_lockedOff (fun _ => ?_) ?_
    | with_reducible refine State.stepTests_lockedOff ?_
    | with_reducible refine State.evalOuts_lockedOff ?_
    | with_reducible refine State.endPulse_lockedOff ?_
    | with_reducible refine State.stepInput_lockedOff ?_
    | with_reducible refine State.stepFeedback_lockedOff ?_
    | with_reducible refine lockedOff_of (State.at__safeEq ..) ?_
    | simp only [lockedOff_mk2]
    | split
    | dsimp only

theorem execTestPulseStart_lockedOff {t out : Nat} {s : State} {s' : State} (hs : s.lockedOff) (h : execTestPulseStart t out s = .next s') : s'.lockedOff := by
  unfold execTestPulseStart at h
  cases h
  repeat' first
    | exact hs
    | with_reducible apply lockedOff_ite
    | with_reducible refine foldl_lockedOff (fun _ _ hs => ?_) _ _ ?_
    | with_reducible refine onDie_lockedOff (fun _ => ?_) ?_
    | with_reducible refine lockedOff_of (State.at__safeEq ..) ?_
    | with_reducible refine lockedOff_of (State.emit_safeEq ..) ?_
    | simp only [lockedOff_mk2]
    | split
    | dsimp only

theorem execDiscrepancyLatch_lockedOff {t i : Nat} {s : State} {s' : State} (hs : s.lockedOff) (h : execDiscrepancyLatch t i s = .next s') : s'.lockedOff := by
  unfold execDiscrepancyLatch at h
  cases h
  repeat' first
    | with_reducible exact hs
    | simp only [lockedOff_mk]
    | with_reducible apply lockedOff_ite
    | with_reducible refine foldl_lockedOff (fun _ _ hs => ?_) _ _ ?_
    | with_reducible refine lockedOff_of (State.event_safeEq ..) ?_
    | with_reducible refine State.latch_lockedOff ?_
    | with_reducible refine lockedOff_of (State.at__safeEq ..) ?_
    | simp only [lockedOff_mk2]
    | split
    | dsimp only

theorem execSafetyFrameReceive_lockedOff {t : Nat} {bytes : List Byte} {s : State} {s' : State} (hs : s.lockedOff) (h : execSafetyFrameReceive t bytes s = .next s') : s'.lockedOff := by
  unfold execSafetyFrameReceive at h
  cases h
  repeat' first
    | with_reducible exact hs
    | simp only [lockedOff_mk]
    | with_reducible apply lockedOff_ite
    | with_reducible refine foldl_lockedOff (fun _ _ hs => ?_) _ _ ?_
    | with_reducible refine onDie_lockedOff (fun _ => ?_) ?_
    | with_reducible refine State.connError_lockedOff ?_
    | with_reducible refine State.countFrameError_lockedOff ?_
    | with_reducible refine State.validFrame_lockedOff ?_
    | with_reducible refine lockedOff_of (State.accept_safeEq ..) ?_
    | with_reducible refine lockedOff_of (State.at__safeEq ..) ?_
    | simp only [lockedOff_mk2]
    | split
    | dsimp only

theorem execSafetyMboxService_lockedOff {t : Nat} {bytes : List Byte} {s : State} {s' : State} (hs : s.lockedOff) (h : execSafetyMboxService t bytes s = .next s') : s'.lockedOff := by
  unfold execSafetyMboxService at h
  cases h
  repeat' first
    | with_reducible exact hs
    | simp only [lockedOff_mk]
    | with_reducible apply lockedOff_ite
    | with_reducible refine foldl_lockedOff (fun _ _ hs => ?_) _ _ ?_
    | with_reducible refine onDie_lockedOff (fun _ => ?_) ?_
    | with_reducible refine State.formSafety_lockedOff ?_
    | with_reducible refine State.hostFrame_lockedOff ?_
    | with_reducible refine lockedOff_of (State.at__safeEq ..) ?_
    | with_reducible refine lockedOff_of (State.emit_safeEq ..) ?_
    | simp only [lockedOff_mk2]
    | split
    | dsimp only

theorem execHostWatchdogExpire_lockedOff {t : Nat} {s : State} {s' : State} (hs : s.lockedOff) (h : execHostWatchdogExpire t s = .next s') : s'.lockedOff := by
  unfold execHostWatchdogExpire at h
  cases h
  exact lockedOff_ite hs (State.evalOuts_lockedOff (lockedOff_of (State.event_safeEq ..)
    (lockedOff_same (s := s) id (fun k => outOn_map _ (fun o : SafeOut => { o with edge := false }) (fun _ => rfl) k) hs)))

theorem execWatchdogExpire_lockedOff {t p : Nat} {s : State} {s' : State} (hs : s.lockedOff) (h : execWatchdogExpire t p s = .next s') : s'.lockedOff := by
  unfold execWatchdogExpire at h
  cases h
  repeat' first
    | with_reducible exact hs
    | simp only [lockedOff_mk]
    | with_reducible apply lockedOff_ite
    | with_reducible refine foldl_lockedOff (fun _ _ hs => ?_) _ _ ?_
    | with_reducible refine onDie_lockedOff (fun _ => ?_) ?_
    | with_reducible refine State.evalOuts_lockedOff ?_
    | with_reducible refine State.modWatch_lockedOff ?_
    | with_reducible refine State.latch_lockedOff ?_
    | with_reducible refine lockedOff_of (State.at__safeEq ..) ?_
    | with_reducible refine lockedOff_of (State.event_safeEq ..) ?_
    | simp only [lockedOff_mk2]
    | split
    | dsimp only

theorem execOutputOvercurrent_lockedOff {t k : Nat} {s : State} {s' : State} (hs : s.lockedOff) (h : execOutputOvercurrent t k s = .next s') : s'.lockedOff := by
  unfold execOutputOvercurrent at h
  cases h
  refine lockedOff_ite hs (State.latch_lockedOff (lockedOff_of (State.event_safeEq ..) ?_))
  exact lockedOff_same (s := (s.at_ t).setOut (k - 1) false) id (fun j => outOn_modNth _ (fun o : SafeOut => { o with overcurrent := true }) (fun _ => rfl) _ j)
    (State.setOut_off_lockedOff (s := s.at_ t) hs)

theorem execOutputOpenLoad_lockedOff {t k : Nat} {s : State} {s' : State} (hs : s.lockedOff) (h : execOutputOpenLoad t k s = .next s') : s'.lockedOff := by
  unfold execOutputOpenLoad at h
  cases h
  refine lockedOff_ite hs (lockedOff_of (State.event_safeEq ..) ?_)
  exact lockedOff_same (s := s.at_ t) id (fun j => outOn_modNth _ (fun o : SafeOut => { o with openLoad := true }) (fun _ => rfl) _ j) hs

theorem execOutputEconomyStart_lockedOff {t k : Nat} {vaux : Rat} {s : State} {s' : State} (hs : s.lockedOff) (h : execOutputEconomyStart t k vaux s = .next s') : s'.lockedOff := by
  unfold execOutputEconomyStart at h
  dsimp only at h
  split at h
  · cases h; exact hs
  · next o ho =>
    cases h
    refine lockedOff_ite hs ?_
    exact lockedOff_same (s := s.at_ t) id (fun j => outOn_setNth ho (x := { o with econ := true, duty := (s.at_ t).econDuty vaux }) rfl j) hs

theorem execFeedbackTimeout_lockedOff {t k : Nat} {s : State} {s' : State} (hs : s.lockedOff) (h : execFeedbackTimeout t k s = .next s') : s'.lockedOff := by
  unfold execFeedbackTimeout at h
  cases h
  repeat' first
    | with_reducible exact hs
    | simp only [lockedOff_mk]
    | with_reducible apply lockedOff_ite
    | with_reducible refine foldl_lockedOff (fun _ _ hs => ?_) _ _ ?_
    | with_reducible refine onDie_lockedOff (fun _ => ?_) ?_
    | with_reducible refine State.latch_lockedOff ?_
    | with_reducible refine lockedOff_of (State.at__safeEq ..) ?_
    | with_reducible refine lockedOff_of (State.event_safeEq ..) ?_
    | simp only [lockedOff_mk2]
    | split
    | dsimp only

theorem execLorstReleaseEdge_lockedOff {t : Nat} {s : State} {s' : State} (hs : s.lockedOff) (h : execLorstReleaseEdge t s = .next s') : s'.lockedOff := by
  unfold execLorstReleaseEdge at h
  cases h
  repeat' first
    | with_reducible exact hs
    | simp only [lockedOff_mk]
    | with_reducible apply lockedOff_ite
    | with_reducible refine foldl_lockedOff (fun _ _ hs => ?_) _ _ ?_
    | with_reducible refine lockedOff_of (State.event_safeEq ..) ?_
    | with_reducible exact State.releaseLockout_lockedOff
    | with_reducible refine lockedOff_of (State.at__safeEq ..) ?_
    | simp only [lockedOff_mk2]
    | split
    | dsimp only

theorem execLorstHeld_lockedOff {t : Nat} {s : State} {s' : State} (hs : s.lockedOff) (h : execLorstHeld t s = .next s') : s'.lockedOff := by
  unfold execLorstHeld at h
  cases h
  repeat' first
    | with_reducible exact hs
    | simp only [lockedOff_mk]
    | with_reducible apply lockedOff_ite
    | with_reducible refine foldl_lockedOff (fun _ _ hs => ?_) _ _ ?_
    | with_reducible refine lockedOff_of (State.event_safeEq ..) ?_
    | with_reducible refine lockedOff_of (State.at__safeEq ..) ?_
    | simp only [lockedOff_mk2]
    | split
    | dsimp only

theorem execGatewayHeartbeatReceive_lockedOff {t : Nat} {bytes : List Byte} {s : State} {s' : State} (hs : s.lockedOff) (h : execGatewayHeartbeatReceive t bytes s = .next s') : s'.lockedOff := by
  unfold execGatewayHeartbeatReceive at h
  cases h
  repeat' first
    | with_reducible exact hs
    | simp only [lockedOff_mk]
    | with_reducible apply lockedOff_ite
    | with_reducible refine foldl_lockedOff (fun _ _ hs => ?_) _ _ ?_
    | with_reducible refine State.countFrameError_lockedOff ?_
    | with_reducible refine lockedOff_of (State.accept_safeEq ..) ?_
    | with_reducible refine lockedOff_of (State.at__safeEq ..) ?_
    | simp only [lockedOff_mk2]
    | split
    | dsimp only

theorem execGwOkTimeout_lockedOff {t : Nat} {s : State} {s' : State} (hs : s.lockedOff) (h : execGwOkTimeout t s = .next s') : s'.lockedOff := by
  unfold execGwOkTimeout at h
  cases h
  repeat' first
    | exact hs
    | with_reducible apply lockedOff_ite
    | with_reducible refine foldl_lockedOff (fun _ _ hs => ?_) _ _ ?_
    | with_reducible refine onDie_lockedOff (fun _ => ?_) ?_
    | with_reducible refine lockedOff_of (State.at__safeEq ..) ?_
    | simp only [lockedOff_mk2]
    | split
    | dsimp only

theorem execEnumStartReceive_lockedOff {t : Nat} {bytes : List Byte} {s : State} {s' : State} (hs : s.lockedOff) (h : execEnumStartReceive t bytes s = .next s') : s'.lockedOff := by
  unfold execEnumStartReceive at h
  cases h
  repeat' first
    | with_reducible exact hs
    | simp only [lockedOff_mk]
    | with_reducible apply lockedOff_ite
    | with_reducible refine foldl_lockedOff (fun _ _ hs => ?_) _ _ ?_
    | with_reducible refine onDie_lockedOff (fun _ => ?_) ?_
    | with_reducible refine State.cancelPend_lockedOff ?_
    | with_reducible refine lockedOff_of (State.accept_safeEq ..) ?_
    | with_reducible refine lockedOff_of (State.at__safeEq ..) ?_
    | with_reducible refine lockedOff_of (State.dropPlace_safeEq ..) ?_
    | simp only [lockedOff_mk2]
    | split
    | dsimp only

theorem execDiscoverReceive_lockedOff {t : Nat} {side : Side} {bytes : List Byte} {s : State} {s' : State} (hs : s.lockedOff) (h : execDiscoverReceive t side bytes s = .next s') : s'.lockedOff := by
  unfold execDiscoverReceive at h
  cases h
  repeat' first
    | with_reducible exact hs
    | simp only [lockedOff_mk]
    | with_reducible apply lockedOff_ite
    | with_reducible refine foldl_lockedOff (fun _ _ hs => ?_) _ _ ?_
    | with_reducible refine lockedOff_of (State.event_safeEq ..) ?_
    | with_reducible refine lockedOff_of (State.dropPlace_safeEq ..) ?_
    | with_reducible refine lockedOff_of (State.modPort_safeEq ..) ?_
    | with_reducible refine lockedOff_of (State.startTraining_safeEq ..) ?_
    | with_reducible refine State.cancelPend_lockedOff ?_
    | with_reducible refine lockedOff_of (State.at__safeEq ..) ?_
    | with_reducible refine lockedOff_of (State.drawBits_safeEq ..) ?_
    | with_reducible refine lockedOff_of (State.emit_safeEq ..) ?_
    | simp only [lockedOff_mk2]
    | split
    | dsimp only

theorem execHeartbeatSend_lockedOff {t : Nat} {s : State} {s' : State} (hs : s.lockedOff) (h : execHeartbeatSend t s = .next s') : s'.lockedOff := by
  unfold execHeartbeatSend at h
  cases h
  repeat' first
    | with_reducible exact hs
    | simp only [lockedOff_mk]
    | with_reducible apply lockedOff_ite
    | with_reducible refine foldl_lockedOff (fun _ _ hs => ?_) _ _ ?_
    | with_reducible refine onDie_lockedOff (fun _ => ?_) ?_
    | with_reducible refine State.formSafety_lockedOff ?_
    | with_reducible refine lockedOff_of (State.originate_safeEq ..) ?_
    | with_reducible refine lockedOff_of (State.at__safeEq ..) ?_
    | simp only [lockedOff_mk2]
    | split
    | dsimp only

theorem execPowerStateSleep_lockedOff {t : Nat} {c : Cmd} {s : State} {s' : State} (hs : s.lockedOff) (h : execPowerStateSleep t c s = .next s') : s'.lockedOff := by
  unfold execPowerStateSleep at h
  cases h
  repeat' first
    | with_reducible exact hs
    | simp only [lockedOff_mk]
    | with_reducible apply lockedOff_ite
    | with_reducible refine foldl_lockedOff (fun _ _ hs => ?_) _ _ ?_
    | with_reducible refine serve_lockedOff (fun _ hs => ?_) ?_
    | with_reducible refine modTrust_lockedOff ?_
    | with_reducible refine lockedOff_of (State.complete_safeEq ..) ?_
    | with_reducible refine lockedOff_of (State.at__safeEq ..) ?_
    | with_reducible refine modPower_lockedOff ?_
    | with_reducible refine State.askLow_lockedOff ?_
    | with_reducible refine lockedOff_of (State.doze_safeEq ..) ?_
    | simp only [lockedOff_mk2]
    | split
    | dsimp only

theorem execPowerStateShip_lockedOff {t : Nat} {c : Cmd} {s : State} {s' : State} (hs : s.lockedOff) (h : execPowerStateShip t c s = .next s') : s'.lockedOff := by
  unfold execPowerStateShip at h
  cases h
  repeat' first
    | with_reducible exact hs
    | simp only [lockedOff_mk]
    | with_reducible apply lockedOff_ite
    | with_reducible refine foldl_lockedOff (fun _ _ hs => ?_) _ _ ?_
    | with_reducible refine serve_lockedOff (fun _ hs => ?_) ?_
    | with_reducible refine lockedOff_of (State.complete_safeEq ..) ?_
    | with_reducible refine lockedOff_of (State.at__safeEq ..) ?_
    | with_reducible refine State.askLow_lockedOff ?_
    | simp only [lockedOff_mk2]
    | split
    | dsimp only

theorem execLockoutRelease_lockedOff {t : Nat} {c : Cmd} {s : State} {s' : State} (hs : s.lockedOff) (h : execLockoutRelease t c s = .next s') : s'.lockedOff := by
  unfold execLockoutRelease at h
  cases h
  repeat' first
    | with_reducible exact hs
    | simp only [lockedOff_mk]
    | with_reducible apply lockedOff_ite
    | with_reducible refine foldl_lockedOff (fun _ _ hs => ?_) _ _ ?_
    | with_reducible refine onDie_lockedOff (fun _ => ?_) ?_
    | with_reducible refine serve_lockedOff (fun _ hs => ?_) ?_
    | with_reducible exact State.releaseLockout_lockedOff
    | with_reducible refine lockedOff_of (State.at__safeEq ..) ?_
    | with_reducible refine lockedOff_of (State.event_safeEq ..) ?_
    | with_reducible refine lockedOff_of (State.complete_safeEq ..) ?_
    | with_reducible refine lockedOff_of (State.serve_safeEq ..) ?_
    | simp only [lockedOff_mk2]
    | split
    | dsimp only

theorem execCommitCheck_lockedOff {t : Nat} {s : State} {s' : State} (hs : s.lockedOff) (h : execCommitCheck t s = .next s') : s'.lockedOff := by
  unfold execCommitCheck at h
  cases h
  repeat' first
    | with_reducible exact hs
    | simp only [lockedOff_mk]
    | with_reducible apply lockedOff_ite
    | with_reducible refine foldl_lockedOff (fun _ _ hs => ?_) _ _ ?_
    | with_reducible refine onDie_lockedOff (fun _ => ?_) ?_
    | with_reducible refine State.evalOuts_lockedOff ?_
    | with_reducible refine lockedOff_of (State.at__safeEq ..) ?_
    | with_reducible refine lockedOff_of (State.sayPrepared_safeEq ..) ?_
    | with_reducible refine lockedOff_of (State.complete_safeEq ..) ?_
    | with_reducible refine modCfg_lockedOff ?_
    | simp only [lockedOff_mk2]
    | split
    | dsimp only

theorem execCommitCancel_lockedOff {t : Nat} {c : Cmd} {s : State} {s' : State} (hs : s.lockedOff) (h : execCommitCancel t c s = .next s') : s'.lockedOff := by
  unfold execCommitCancel at h
  cases h
  repeat' first
    | with_reducible exact hs
    | simp only [lockedOff_mk]
    | with_reducible apply lockedOff_ite
    | with_reducible refine foldl_lockedOff (fun _ _ hs => ?_) _ _ ?_
    | with_reducible refine onDie_lockedOff (fun _ => ?_) ?_
    | with_reducible refine serve_lockedOff (fun _ hs => ?_) ?_
    | with_reducible refine State.cancelPend_lockedOff ?_
    | with_reducible refine lockedOff_of (State.at__safeEq ..) ?_
    | with_reducible refine lockedOff_of (State.complete_safeEq ..) ?_
    | with_reducible refine lockedOff_of (State.serve_safeEq ..) ?_
    | simp only [lockedOff_mk2]
    | split
    | dsimp only

theorem execConfigSwap_lockedOff {t : Nat} {s : State} {s' : State} (hs : s.lockedOff) (h : execConfigSwap t s = .next s') : s'.lockedOff := by
  unfold execConfigSwap at h
  cases h
  repeat' first
    | with_reducible exact hs
    | simp only [lockedOff_mk]
    | with_reducible apply lockedOff_ite
    | with_reducible refine foldl_lockedOff (fun _ _ hs => ?_) _ _ ?_
    | with_reducible refine onDie_lockedOff (fun _ => ?_) ?_
    | with_reducible refine State.swapSets_lockedOff ?_
    | with_reducible refine lockedOff_of (State.at__safeEq ..) ?_
    | simp only [lockedOff_mk2]
    | split
    | dsimp only

theorem execGroupCommitDecide_lockedOff {t : Nat} {s : State} {s' : State} (hs : s.lockedOff) (h : execGroupCommitDecide t s = .next s') : s'.lockedOff := by
  unfold execGroupCommitDecide at h
  cases h
  repeat' first
    | with_reducible exact hs
    | simp only [lockedOff_mk]
    | with_reducible apply lockedOff_ite
    | with_reducible refine foldl_lockedOff (fun _ _ hs => ?_) _ _ ?_
    | with_reducible refine onDie_lockedOff (fun _ => ?_) ?_
    | with_reducible refine State.endGroup_lockedOff ?_
    | with_reducible refine lockedOff_of (State.originate_safeEq ..) ?_
    | with_reducible refine lockedOff_of (State.at__safeEq ..) ?_
    | with_reducible refine lockedOff_of (State.holdGo_safeEq ..) ?_
    | with_reducible refine modCfg_lockedOff ?_
    | simp only [lockedOff_mk2]
    | split
    | dsimp only

theorem execGroupAbortReceive_lockedOff {t : Nat} {s : State} {s' : State} (hs : s.lockedOff) (h : execGroupAbortReceive t s = .next s') : s'.lockedOff := by
  unfold execGroupAbortReceive at h
  cases h
  repeat' first
    | with_reducible exact hs
    | simp only [lockedOff_mk]
    | with_reducible apply lockedOff_ite
    | with_reducible refine foldl_lockedOff (fun _ _ hs => ?_) _ _ ?_
    | with_reducible refine onDie_lockedOff (fun _ => ?_) ?_
    | with_reducible refine State.endGroup_lockedOff ?_
    | with_reducible refine lockedOff_of (State.takeGroupFrame_safeEq ..) ?_
    | with_reducible refine lockedOff_of (State.at__safeEq ..) ?_
    | simp only [lockedOff_mk2]
    | split
    | dsimp only

theorem execGroupGoDeadline_lockedOff {t : Nat} {s : State} {s' : State} (hs : s.lockedOff) (h : execGroupGoDeadline t s = .next s') : s'.lockedOff := by
  unfold execGroupGoDeadline at h
  cases h
  repeat' first
    | with_reducible exact hs
    | simp only [lockedOff_mk]
    | with_reducible apply lockedOff_ite
    | with_reducible refine foldl_lockedOff (fun _ _ hs => ?_) _ _ ?_
    | with_reducible refine onDie_lockedOff (fun _ => ?_) ?_
    | with_reducible refine State.endGroup_lockedOff ?_
    | with_reducible refine lockedOff_of (State.at__safeEq ..) ?_
    | simp only [lockedOff_mk2]
    | split
    | dsimp only

theorem execEnumerate_lockedOff {t : Nat} {c : Cmd} {s : State} {s' : State} (hs : s.lockedOff) (h : execEnumerate t c s = .next s') : s'.lockedOff := by
  unfold execEnumerate at h
  cases h
  repeat' first
    | with_reducible exact hs
    | simp only [lockedOff_mk]
    | with_reducible apply lockedOff_ite
    | with_reducible refine foldl_lockedOff (fun _ _ hs => ?_) _ _ ?_
    | with_reducible refine onDie_lockedOff (fun _ => ?_) ?_
    | with_reducible refine serve_lockedOff (fun _ hs => ?_) ?_
    | with_reducible refine State.startEnumeration_lockedOff ?_
    | with_reducible refine lockedOff_of (State.at__safeEq ..) ?_
    | with_reducible refine lockedOff_of (State.complete_safeEq ..) ?_
    | with_reducible refine lockedOff_of (State.serve_safeEq ..) ?_
    | simp only [lockedOff_mk2]
    | split
    | dsimp only

theorem execInputValid_lockedOff {t which : Nat} {v : Rat} {s : State} {s' : State} (hs : s.lockedOff) (h : execInputValid t which v s = .next s') : s'.lockedOff := by
  unfold execInputValid at h
  cases h
  repeat' first
    | with_reducible exact hs
    | simp only [lockedOff_mk]
    | with_reducible apply lockedOff_ite
    | with_reducible refine foldl_lockedOff (fun _ _ hs => ?_) _ _ ?_
    | with_reducible refine lockedOff_of (State.setInput_safeEq ..) ?_
    | with_reducible refine State.evalOuts_lockedOff ?_
    | with_reducible refine lockedOff_of (State.wake_safeEq ..) ?_
    | with_reducible refine lockedOff_of (State.chooseSrc_safeEq ..) ?_
    | with_reducible refine lockedOff_of (State.at__safeEq ..) ?_
    | with_reducible refine lockedOff_of (State.noteInput_safeEq ..) ?_
    | with_reducible refine modPower_lockedOff ?_
    | simp only [lockedOff_mk2]
    | split
    | dsimp only

theorem execInputInvalid_lockedOff {t which : Nat} {v : Rat} {s : State} {s' : State} (hs : s.lockedOff) (h : execInputInvalid t which v s = .next s') : s'.lockedOff := by
  unfold execInputInvalid at h
  cases h
  repeat' first
    | with_reducible exact hs
    | simp only [lockedOff_mk]
    | with_reducible apply lockedOff_ite
    | with_reducible refine foldl_lockedOff (fun _ _ hs => ?_) _ _ ?_
    | with_reducible refine lockedOff_of (State.setInput_safeEq ..) ?_
    | with_reducible refine lockedOff_of (State.noteInput_safeEq ..) ?_
    | with_reducible refine State.inputsGone_lockedOff ?_
    | with_reducible refine lockedOff_of (State.chooseSrc_safeEq ..) ?_
    | with_reducible refine lockedOff_of (State.at__safeEq ..) ?_
    | with_reducible refine State.evalOuts_lockedOff ?_
    | simp only [lockedOff_mk2]
    | split
    | dsimp only

theorem execRailInRegulation_lockedOff {t rail bist : Nat} {s : State} {s' : State} (hs : s.lockedOff) (h : execRailInRegulation t rail bist s = .next s') : s'.lockedOff := by
  unfold execRailInRegulation at h
  cases h
  repeat' first
    | with_reducible exact hs
    | simp only [lockedOff_mk]
    | with_reducible apply lockedOff_ite
    | with_reducible refine foldl_lockedOff (fun _ _ hs => ?_) _ _ ?_
    | with_reducible refine lockedOff_of (State.railUp_safeEq ..) ?_
    | with_reducible refine lockedOff_of (State.enableNext_safeEq ..) ?_
    | with_reducible refine lockedOff_of (State.at__safeEq ..) ?_
    | with_reducible refine State.hubStart_lockedOff ?_
    | with_reducible refine State.turnDown_lockedOff ?_
    | simp only [lockedOff_mk2]
    | split
    | dsimp only

theorem execPowerFailWarning_lockedOff {t item : Nat} {s : State} {s' : State} (hs : s.lockedOff) (h : execPowerFailWarning t item s = .next s') : s'.lockedOff := by
  unfold execPowerFailWarning at h
  cases h
  repeat' first
    | with_reducible exact hs
    | simp only [lockedOff_mk]
    | with_reducible apply lockedOff_ite
    | with_reducible refine foldl_lockedOff (fun _ _ hs => ?_) _ _ ?_
    | with_reducible refine onDie_lockedOff (fun _ => ?_) ?_
    | with_reducible refine State.warn_lockedOff ?_
    | with_reducible refine lockedOff_of (State.at__safeEq ..) ?_
    | simp only [lockedOff_mk2]
    | split
    | dsimp only

theorem execHoldTimeExpire_lockedOff {t : Nat} {s : State} {s' : State} (hs : s.lockedOff) (h : execHoldTimeExpire t s = .next s') : s'.lockedOff := by
  unfold execHoldTimeExpire at h
  cases h
  repeat' first
    | with_reducible exact hs
    | simp only [lockedOff_mk]
    | with_reducible apply lockedOff_ite
    | with_reducible refine foldl_lockedOff (fun _ _ hs => ?_) _ _ ?_
    | with_reducible refine lockedOff_of (State.diesCutOff_safeEq ..) ?_
    | with_reducible refine State.startDown_lockedOff ?_
    | with_reducible exact State.hubStop_lockedOff
    | with_reducible refine lockedOff_of (State.at__safeEq ..) ?_
    | simp only [lockedOff_mk2]
    | split
    | dsimp only

theorem execRstNAssert_lockedOff {t : Nat} {s : State} {s' : State} (hs : s.lockedOff) (h : execRstNAssert t s = .next s') : s'.lockedOff := by
  unfold execRstNAssert at h
  cases h
  repeat' first
    | with_reducible exact hs
    | simp only [lockedOff_mk]
    | with_reducible apply lockedOff_ite
    | with_reducible refine foldl_lockedOff (fun _ _ hs => ?_) _ _ ?_
    | with_reducible refine lockedOff_of (State.diesCutOff_safeEq ..) ?_
    | with_reducible refine modPower_lockedOff ?_
    | with_reducible refine State.startDown_lockedOff ?_
    | with_reducible exact State.hubStop_lockedOff
    | with_reducible refine lockedOff_of (State.at__safeEq ..) ?_
    | simp only [lockedOff_mk2]
    | split
    | dsimp only

theorem execPrecPowerUp_lockedOff {t k : Nat} {bist : DieTests} {s : State} {s' : State} (hs : s.lockedOff) (h : execPrecPowerUp t k bist s = .next s') : s'.lockedOff := by
  unfold execPrecPowerUp at h
  cases h
  repeat' first
    | with_reducible exact hs
    | simp only [lockedOff_mk]
    | with_reducible apply lockedOff_ite
    | with_reducible refine foldl_lockedOff (fun _ _ hs => ?_) _ _ ?_
    | with_reducible refine onDie_lockedOff (fun _ => ?_) ?_
    | with_reducible refine lockedOff_of (State.settleChannels_safeEq ..) ?_
    | with_reducible refine lockedOff_of (State.testFailed_safeEq ..) ?_
    | with_reducible refine State.enterProtOnly_lockedOff ?_
    | with_reducible refine State.heartResume_lockedOff ?_
    | with_reducible refine lockedOff_of (State.seqRestart_safeEq ..) ?_
    | with_reducible refine State.loadCal_lockedOff ?_
    | with_reducible refine lockedOff_of (State.loadState_safeEq ..) ?_
    | with_reducible refine lockedOff_of (State.precStart_safeEq ..) ?_
    | with_reducible refine lockedOff_of (State.modDie_safeEq ..) ?_
    | with_reducible refine lockedOff_of (State.modTest_safeEq ..) ?_
    | with_reducible refine lockedOff_of (State.at__safeEq ..) ?_
    | with_reducible refine lockedOff_of (State.reportMemory_safeEq ..) ?_
    | with_reducible refine lockedOff_of (State.fastDomain_safeEq ..) ?_
    | with_reducible refine lockedOff_of (State.readFactory_safeEq ..) ?_
    | simp only [lockedOff_mk2]
    | split
    | dsimp only

theorem execHubBistRetry_lockedOff {t : Nat} {pass : Bool} {s : State} {s' : State} (hs : s.lockedOff) (h : execHubBistRetry t pass s = .next s') : s'.lockedOff := by
  unfold execHubBistRetry at h
  cases h
  repeat' first
    | with_reducible exact hs
    | simp only [lockedOff_mk]
    | with_reducible apply lockedOff_ite
    | with_reducible refine foldl_lockedOff (fun _ _ hs => ?_) _ _ ?_
    | with_reducible refine onDie_lockedOff (fun _ => ?_) ?_
    | with_reducible refine State.hubTest_lockedOff ?_
    | with_reducible refine lockedOff_of (State.modTest_safeEq ..) ?_
    | with_reducible refine lockedOff_of (State.at__safeEq ..) ?_
    | simp only [lockedOff_mk2]
    | split
    | dsimp only

theorem execCompletionWrite_lockedOff {t cq : Nat} {ok : Bool} {s : State} {s' : State} (hs : s.lockedOff) (h : execCompletionWrite t cq ok s = .next s') : s'.lockedOff := by
  unfold execCompletionWrite at h
  cases h
  repeat' first
    | with_reducible exact hs
    | simp only [lockedOff_mk]
    | with_reducible apply lockedOff_ite
    | with_reducible refine foldl_lockedOff (fun _ _ hs => ?_) _ _ ?_
    | with_reducible refine onDie_lockedOff (fun _ => ?_) ?_
    | with_reducible refine State.tryEnter_lockedOff ?_
    | with_reducible refine lockedOff_of (State.checkDrain_safeEq ..) ?_
    | with_reducible refine lockedOff_of (State.putCq_safeEq ..) ?_
    | with_reducible refine lockedOff_of (State.at__safeEq ..) ?_
    | with_reducible refine lockedOff_of (State.modPower_safeEq ..) ?_
    | with_reducible refine lockedOff_of (State.queueError_safeEq ..) ?_
    | with_reducible refine lockedOff_of (State.writeCompletion_safeEq ..) ?_
    | with_reducible refine modPower_lockedOff ?_
    | simp only [lockedOff_mk2]
    | split
    | dsimp only

theorem execSliceEnd_lockedOff {t k result rail : Nat} {s : State} {s' : State} (hs : s.lockedOff) (h : execSliceEnd t k result rail s = .next s') : s'.lockedOff := by
  unfold execSliceEnd at h
  cases h
  repeat' first
    | with_reducible exact hs
    | simp only [lockedOff_mk]
    | with_reducible apply lockedOff_ite
    | with_reducible refine foldl_lockedOff (fun _ _ hs => ?_) _ _ ?_
    | with_reducible refine State.judgeHeld_lockedOff ?_
    | with_reducible refine lockedOff_of (State.adoptSeq_safeEq ..) ?_
    | with_reducible refine State.railFault_lockedOff ?_
    | with_reducible refine lockedOff_of (State.at__safeEq ..) ?_
    | with_reducible refine State.endSlice_lockedOff ?_
    | simp only [lockedOff_mk2]
    | split
    | dsimp only

theorem execSelftestRunAll_lockedOff {t : Nat} {c : Cmd} {results : List Nat} {s : State} {s' : State} (hs : s.lockedOff) (h : execSelftestRunAll t c results s = .next s') : s'.lockedOff := by
  unfold execSelftestRunAll at h
  cases h
  refine serve_lockedOff (fun u hu => ?_) hs
  dsimp only
  repeat' first
    | with_reducible exact hu
    | with_reducible apply lockedOff_ite
    | with_reducible refine lockedOff_of (State.complete_safeEq ..) ?_
    | with_reducible refine foldl_lockedOff_fst (fun _ _ hv => State.runBlock_lockedOff hv) _ _ ?_
    | dsimp only

theorem execSelftestRunBlock_lockedOff {t : Nat} {c : Cmd} {result : Nat} {s : State} {s' : State} (hs : s.lockedOff) (h : execSelftestRunBlock t c result s = .next s') : s'.lockedOff := by
  unfold execSelftestRunBlock at h
  cases h
  repeat' first
    | with_reducible exact hs
    | simp only [lockedOff_mk]
    | with_reducible apply lockedOff_ite
    | with_reducible refine foldl_lockedOff (fun _ _ hs => ?_) _ _ ?_
    | with_reducible refine onDie_lockedOff (fun _ => ?_) ?_
    | with_reducible refine serve_lockedOff (fun _ hs => ?_) ?_
    | with_reducible refine State.runBlock_lockedOff ?_
    | with_reducible refine lockedOff_of (State.at__safeEq ..) ?_
    | with_reducible refine lockedOff_of (State.complete_safeEq ..) ?_
    | with_reducible refine lockedOff_of (State.serve_safeEq ..) ?_
    | simp only [lockedOff_mk2]
    | split
    | dsimp only

theorem execHubOverheat_lockedOff {t : Nat} {s : State} {s' : State} (hs : s.lockedOff) (h : execHubOverheat t s = .next s') : s'.lockedOff := by
  unfold execHubOverheat at h
  cases h
  repeat' first
    | with_reducible exact hs
    | simp only [lockedOff_mk]
    | with_reducible apply lockedOff_ite
    | with_reducible refine foldl_lockedOff (fun _ _ hs => ?_) _ _ ?_
    | with_reducible refine onDie_lockedOff (fun _ => ?_) ?_
    | with_reducible exact State.hubStop_lockedOff
    | with_reducible refine lockedOff_of (State.at__safeEq ..) ?_
    | with_reducible refine lockedOff_of (State.modPower_safeEq ..) ?_
    | with_reducible refine lockedOff_of (State.diesCutOff_safeEq ..) ?_
    | with_reducible refine modPower_lockedOff ?_
    | simp only [lockedOff_mk2]
    | split
    | dsimp only

theorem execHubCooled_lockedOff {t : Nat} {pass : Bool} {s : State} {s' : State} (hs : s.lockedOff) (h : execHubCooled t pass s = .next s') : s'.lockedOff := by
  unfold execHubCooled at h
  cases h
  repeat' first
    | with_reducible exact hs
    | simp only [lockedOff_mk]
    | with_reducible apply lockedOff_ite
    | with_reducible refine foldl_lockedOff (fun _ _ hs => ?_) _ _ ?_
    | with_reducible refine onDie_lockedOff (fun _ => ?_) ?_
    | with_reducible refine State.hubTest_lockedOff ?_
    | with_reducible refine lockedOff_of (State.modTest_safeEq ..) ?_
    | with_reducible refine lockedOff_of (State.at__safeEq ..) ?_
    | simp only [lockedOff_mk2]
    | split
    | dsimp only

theorem execLifeSeal_lockedOff {t : Nat} {c : Cmd} {data : List Byte} {s : State} {s' : State} (hs : s.lockedOff) (h : execLifeSeal t c data s = .next s') : s'.lockedOff := by
  unfold execLifeSeal at h
  cases h
  repeat' first
    | with_reducible exact hs
    | simp only [lockedOff_mk]
    | with_reducible apply lockedOff_ite
    | with_reducible refine foldl_lockedOff (fun _ _ hs => ?_) _ _ ?_
    | with_reducible refine serve_lockedOff (fun _ hs => ?_) ?_
    | with_reducible refine lifecycle_lockedOff (fun _ _ hs => ?_) ?_
    | with_reducible refine State.leaveBlank_lockedOff ?_
    | with_reducible refine lockedOff_of (State.lifeEvent_safeEq ..) ?_
    | with_reducible refine modTrust_lockedOff ?_
    | with_reducible refine lockedOff_of (State.complete_safeEq ..) ?_
    | with_reducible refine lockedOff_of (State.sealRecord_safeEq ..) ?_
    | with_reducible refine lockedOff_of (State.at__safeEq ..) ?_
    | simp only [lockedOff_mk2]
    | split
    | dsimp only

theorem execLifeRelocate_lockedOff {t : Nat} {c : Cmd} {data : List Byte} {s : State} {s' : State} (hs : s.lockedOff) (h : execLifeRelocate t c data s = .next s') : s'.lockedOff := by
  unfold execLifeRelocate at h
  cases h
  repeat' first
    | with_reducible exact hs
    | simp only [lockedOff_mk]
    | with_reducible apply lockedOff_ite
    | with_reducible refine foldl_lockedOff (fun _ _ hs => ?_) _ _ ?_
    | with_reducible refine onDie_lockedOff (fun _ => ?_) ?_
    | with_reducible refine serve_lockedOff (fun _ hs => ?_) ?_
    | with_reducible refine lifecycle_lockedOff (fun _ _ hs => ?_) ?_
    | with_reducible refine State.relocateFrom_lockedOff ?_
    | with_reducible refine State.afterSwap_lockedOff ?_
    | with_reducible refine lockedOff_of (State.lifeEvent_safeEq ..) ?_
    | with_reducible refine lockedOff_of (State.at__safeEq ..) ?_
    | with_reducible refine lockedOff_of (State.strapToRole_safeEq ..) ?_
    | with_reducible refine lockedOff_of (State.complete_safeEq ..) ?_
    | with_reducible refine lockedOff_of (State.serve_safeEq ..) ?_
    | simp only [lockedOff_mk2]
    | split
    | dsimp only

theorem execLifeReturn_lockedOff {t : Nat} {c : Cmd} {data : List Byte} {s : State} {s' : State} (hs : s.lockedOff) (h : execLifeReturn t c data s = .next s') : s'.lockedOff := by
  unfold execLifeReturn at h
  cases h
  repeat' first
    | with_reducible exact hs
    | simp only [lockedOff_mk]
    | with_reducible apply lockedOff_ite
    | with_reducible refine foldl_lockedOff (fun _ _ hs => ?_) _ _ ?_
    | with_reducible refine serve_lockedOff (fun _ hs => ?_) ?_
    | with_reducible refine lifecycle_lockedOff (fun _ _ hs => ?_) ?_
    | with_reducible refine State.runReturn_lockedOff ?_
    | with_reducible refine State.leaveBlank_lockedOff ?_
    | with_reducible refine lockedOff_of (State.lifeEvent_safeEq ..) ?_
    | with_reducible refine lockedOff_of (State.complete_safeEq ..) ?_
    | with_reducible refine lockedOff_of (State.drainUrgent_safeEq ..) ?_
    | with_reducible refine lockedOff_of (State.strapToRole_safeEq ..) ?_
    | with_reducible refine lockedOff_of (State.at__safeEq ..) ?_
    | with_reducible refine lockedOff_of (State.dropHops_safeEq ..) ?_
    | simp only [lockedOff_mk2]
    | split
    | dsimp only

theorem execDebugFullOpen_lockedOff {t : Nat} {sig : List Byte} {keepAwake : Bool} {s : State} {s' : State} (hs : s.lockedOff) (h : execDebugFullOpen t sig keepAwake s = .next s') : s'.lockedOff := by
  unfold execDebugFullOpen at h
  cases h
  repeat' first
    | with_reducible exact hs
    | simp only [lockedOff_mk]
    | with_reducible apply lockedOff_ite
    | with_reducible refine foldl_lockedOff (fun _ _ hs => ?_) _ _ ?_
    | with_reducible refine onDie_lockedOff (fun _ => ?_) ?_
    | with_reducible refine State.sendSafety_lockedOff ?_
    | with_reducible refine lockedOff_of (State.at__safeEq ..) ?_
    | with_reducible refine lockedOff_of (State.debugRecord_safeEq ..) ?_
    | with_reducible refine lockedOff_of (State.event_safeEq ..) ?_
    | with_reducible refine lockedOff_of (State.drawBytes_safeEq ..) ?_
    | with_reducible refine lockedOff_of (State.drainUrgent_safeEq ..) ?_
    | with_reducible refine lockedOff_of (State.dropHops_safeEq ..) ?_
    | with_reducible refine modTrust_lockedOff ?_
    | simp only [lockedOff_mk2]
    | split
    | dsimp only

theorem execDebugClose_lockedOff {t : Nat} {s : State} {s' : State} (hs : s.lockedOff) (h : execDebugClose t s = .next s') : s'.lockedOff := by
  unfold execDebugClose at h
  cases h
  repeat' first
    | with_reducible exact hs
    | simp only [lockedOff_mk]
    | with_reducible apply lockedOff_ite
    | with_reducible refine foldl_lockedOff (fun _ _ hs => ?_) _ _ ?_
    | with_reducible refine modTrust_lockedOff ?_
    | with_reducible refine State.tryEnter_lockedOff ?_
    | with_reducible refine lockedOff_of (State.at__safeEq ..) ?_
    | with_reducible refine lockedOff_of (State.closeSession_safeEq ..) ?_
    | with_reducible refine State.askLow_lockedOff ?_
    | simp only [lockedOff_mk2]
    | split
    | dsimp only

theorem execCommandFrameReceive_lockedOff {t : Nat} {bytes : List Byte} {s : State} {s' : State} (hs : s.lockedOff) (h : execCommandFrameReceive t bytes s = .next s') : s'.lockedOff := by
  unfold execCommandFrameReceive at h
  cases h
  repeat' first
    | with_reducible exact hs
    | simp only [lockedOff_mk]
    | with_reducible apply lockedOff_ite
    | with_reducible refine foldl_lockedOff (fun _ _ hs => ?_) _ _ ?_
    | with_reducible refine lockedOff_of (State.closeFor_safeEq ..) ?_
    | with_reducible refine lockedOff_of (State.assemble_safeEq ..) ?_
    | with_reducible refine State.enterPend_lockedOff ?_
    | with_reducible refine lockedOff_of (State.noteValid_safeEq ..) ?_
    | with_reducible refine State.unclaimTo_lockedOff ?_
    | with_reducible refine lockedOff_of (State.accept_safeEq ..) ?_
    | with_reducible refine lockedOff_of (State.undoze_safeEq ..) ?_
    | with_reducible refine lockedOff_of (State.at__safeEq ..) ?_
    | simp only [lockedOff_mk2]
    | split
    | dsimp only

theorem execRailFault_lockedOff {t rail kind : Nat} {s : State} {s' : State} (hs : s.lockedOff) (h : execRailFault t rail kind s = .next s') : s'.lockedOff := by
  unfold execRailFault at h
  cases h
  repeat' first
    | with_reducible exact hs
    | simp only [lockedOff_mk]
    | with_reducible apply lockedOff_ite
    | with_reducible refine foldl_lockedOff (fun _ _ hs => ?_) _ _ ?_
    | with_reducible refine modPower_lockedOff ?_
    | with_reducible refine State.judgeFault_lockedOff ?_
    | with_reducible refine lockedOff_of (State.at__safeEq ..) ?_
    | simp only [lockedOff_mk2]
    | split
    | dsimp only

theorem execRailRampTimeout_lockedOff {t rail : Nat} {s : State} {s' : State} (hs : s.lockedOff) (h : execRailRampTimeout t rail s = .next s') : s'.lockedOff := by
  unfold execRailRampTimeout at h
  cases h
  repeat' first
    | with_reducible exact hs
    | simp only [lockedOff_mk]
    | with_reducible apply lockedOff_ite
    | with_reducible refine foldl_lockedOff (fun _ _ hs => ?_) _ _ ?_
    | with_reducible refine State.railAct_lockedOff ?_
    | with_reducible refine lockedOff_of (State.countRail_safeEq ..) ?_
    | with_reducible refine modPower_lockedOff ?_
    | with_reducible refine lockedOff_of (State.at__safeEq ..) ?_
    | with_reducible refine State.turnDown_lockedOff ?_
    | simp only [lockedOff_mk2]
    | split
    | dsimp only

theorem execRailDischarged_lockedOff {t rail : Nat} {timedOut : Bool} {s : State} {s' : State} (hs : s.lockedOff) (h : execRailDischarged t rail timedOut s = .next s') : s'.lockedOff := by
  unfold execRailDischarged at h
  cases h
  repeat' first
    | with_reducible exact hs
    | simp only [lockedOff_mk]
    | with_reducible apply lockedOff_ite
    | with_reducible refine foldl_lockedOff (fun _ _ hs => ?_) _ _ ?_
    | with_reducible refine State.downStep_lockedOff ?_
    | with_reducible refine lockedOff_of (State.countRail_safeEq ..) ?_
    | with_reducible refine lockedOff_of (State.modRail_safeEq ..) ?_
    | with_reducible refine lockedOff_of (State.at__safeEq ..) ?_
    | simp only [lockedOff_mk2]
    | split
    | dsimp only

theorem execAonSupplyLoss_lockedOff {t : Nat} {s : State} {s' : State} (hs : s.lockedOff) (h : execAonSupplyLoss t s = .next s') : s'.lockedOff := by
  unfold execAonSupplyLoss at h
  cases h
  repeat' first
    | with_reducible exact hs
    | simp only [lockedOff_mk]
    | with_reducible apply lockedOff_ite
    | with_reducible refine foldl_lockedOff (fun _ _ hs => ?_) _ _ ?_
    | with_reducible refine modPower_lockedOff ?_
    | with_reducible refine State.tearWrites_lockedOff ?_
    | with_reducible refine lockedOff_of (State.at__safeEq ..) ?_
    | simp only [lockedOff_mk2]
    | split
    | dsimp only

end Sys2Proof.Machine
end

