-- ==== Sys2Proof/Laws/SafetyKeptCommands.lean ====
section
/-! SUPPORT. Commands that leave the safety block alone. -/

namespace Sys2Proof.Machine

set_option linter.all false
set_option maxRecDepth 4000

theorem State.balancePolicy_safeEq (s : State) (c : Cmd) : (s.balancePolicy c).safety = s.safety := by
  unfold State.balancePolicy
  refine safeEq_ite (State.complete_safeEq ..) ?_
  dsimp only
  split
  · exact State.complete_safeEq ..
  · have h : ∀ (l : List Nat) (f : Die → Die) (g : CfgState → CfgState),
        (l.foldl (fun (s : State) k => s.modDie k f) (s.modCfg g)).safety = s.safety := fun l f g =>
      (foldl_safeEq (fun _ _ => State.modDie_safeEq ..) _ _).trans rfl
    exact safeEq_ite ((State.complete_safeEq ..).trans (h _ _ _)) (Eq.trans rfl (h _ _ _))

theorem State.lifecycle_safeEq {s : State} {c : Cmd} {data : List Byte} {f : State → LifeMsg → State}
    (hf : ∀ s m, (f s m).safety = s.safety) : (s.lifecycle c data f).safety = s.safety := by
  unfold State.lifecycle
  have hn : ∀ b : Bool, (s.modTrust fun x => if b = true then { x with nonce := none } else x).safety = s.safety := fun b => by
    cases b <;> rfl
  refine safeEq_ite (State.complete_safeEq ..) (safeEq_ite (State.complete_safeEq ..) ?_)
  refine safeEq_ite ((hf _ _).trans (hn _)) ((State.complete_safeEq ..).trans ?_)
  exact safeEq_ite ((State.event_safeEq ..).trans (hn _)) (hn _)

theorem execSpareDwellStep_safeEq {t k : Nat} {b : Bool} {zero : Rat} {s : State} {s' : State} (h : execSpareDwellStep t k b zero s = .next s') : s'.safety = s.safety := by
  unfold execSpareDwellStep at h
  cases h
  repeat' first
    | with_reducible rfl
    | with_reducible apply safeEq_ite
    | with_reducible refine onDie_safeEq (fun _ => ?_) ?_
    | (simp only [↓State.at__safeEq, ↓State.takePrec_safeEq, ↓State.modDie_safeEq, safeEq_mk]; done)
    | split
    | simp only [↓State.at__safeEq, ↓State.takePrec_safeEq, ↓State.modDie_safeEq, safeEq_mk, safeEq_parts]

theorem execWarmExpire_safeEq {t k : Nat} {s : State} {s' : State} (h : execWarmExpire t k s = .next s') : s'.safety = s.safety := by
  unfold execWarmExpire at h
  cases h
  refine onDie_safeEq (fun _ => ?_) ?_
  · split <;> simp only [↓State.at__safeEq, ↓State.modDie_safeEq, safeEq_mk, safeEq_parts]
  · simp only [↓State.at__safeEq, ↓State.modDie_safeEq, safeEq_mk, safeEq_parts]

theorem execRefMonitorSample_safeEq {t k : Nat} {ratio : Rat} {s : State} {s' : State} (h : execRefMonitorSample t k ratio s = .next s') : s'.safety = s.safety := by
  unfold execRefMonitorSample at h
  cases h
  repeat' first
    | with_reducible rfl
    | with_reducible apply safeEq_ite
    | with_reducible refine onDie_safeEq (fun _ => ?_) ?_
    | (simp only [↓State.at__safeEq, ↓State.modDie_safeEq, safeEq_mk]; done)
    | split
    | simp only [↓State.at__safeEq, ↓State.modDie_safeEq, safeEq_mk, safeEq_parts]

theorem execRefIntervalClose_safeEq {t k : Nat} {s : State} {s' : State} (h : execRefIntervalClose t k s = .next s') : s'.safety = s.safety := by
  unfold execRefIntervalClose at h
  cases h
  repeat' first
    | with_reducible rfl
    | with_reducible apply safeEq_ite
    | with_reducible refine onDie_safeEq (fun _ => ?_) ?_
    | (simp only [↓State.dieEvent_safeEq, ↓State.at__safeEq, ↓State.discardRun_safeEq, ↓State.modDie_safeEq, safeEq_mk]; done)
    | split
    | simp only [↓State.dieEvent_safeEq, ↓State.at__safeEq, ↓State.discardRun_safeEq, ↓State.modDie_safeEq, safeEq_mk, safeEq_parts]

theorem execGateWindowOpen_safeEq {t k : Nat} {s : State} {s' : State} (h : execGateWindowOpen t k s = .next s') : s'.safety = s.safety := by
  unfold execGateWindowOpen at h
  cases h
  repeat' first
    | with_reducible rfl
    | with_reducible apply safeEq_ite
    | with_reducible refine onDie_safeEq (fun _ => ?_) ?_
    | (simp only [↓State.settleChannels_safeEq, ↓State.at__safeEq, ↓State.modDie_safeEq, ↓State.takePrec_safeEq, safeEq_mk]; done)
    | split
    | simp only [↓State.settleChannels_safeEq, ↓State.at__safeEq, ↓State.modDie_safeEq, ↓State.takePrec_safeEq, safeEq_mk, safeEq_parts]

theorem execGateWindowClose_safeEq {t k : Nat} {s : State} {s' : State} (h : execGateWindowClose t k s = .next s') : s'.safety = s.safety := by
  unfold execGateWindowClose at h
  cases h
  repeat' first
    | with_reducible rfl
    | with_reducible apply safeEq_ite
    | with_reducible refine onDie_safeEq (fun _ => ?_) ?_
    | (simp only [↓State.settleChannels_safeEq, ↓State.at__safeEq, ↓State.owBegin_safeEq, ↓State.modDie_safeEq, safeEq_mk]; done)
    | split
    | simp only [↓State.settleChannels_safeEq, ↓State.at__safeEq, ↓State.owBegin_safeEq, ↓State.modDie_safeEq, safeEq_mk, safeEq_parts]

theorem execImpSegmentEnd_safeEq {t k band : Nat} {s : State} {s' : State} (h : execImpSegmentEnd t k band s = .next s') : s'.safety = s.safety := by
  unfold execImpSegmentEnd at h
  cases h
  repeat' first
    | with_reducible rfl
    | with_reducible apply safeEq_ite
    | with_reducible refine onDie_safeEq (fun _ => ?_) ?_
    | (simp only [↓State.at__safeEq, ↓State.adoptImp_safeEq, ↓State.modDie_safeEq, safeEq_mk]; done)
    | split
    | simp only [↓State.at__safeEq, ↓State.adoptImp_safeEq, ↓State.modDie_safeEq, safeEq_mk, safeEq_parts]

theorem execImpAverageEnd_safeEq {t k band : Nat} {s : State} {s' : State} (h : execImpAverageEnd t k band s = .next s') : s'.safety = s.safety := by
  unfold execImpAverageEnd at h
  cases h
  repeat' first
    | with_reducible rfl
    | with_reducible apply safeEq_ite
    | with_reducible refine (foldl_safeEq (fun _ _ => ?_) _ _).trans ?_
    | with_reducible refine onDie_safeEq (fun _ => ?_) ?_
    | (simp only [↓State.at__safeEq, ↓State.dieEvent_safeEq, ↓State.adoptImp_safeEq, ↓State.dieRecord_safeEq, ↓State.modDie_safeEq, safeEq_mk]; done)
    | split
    | simp only [↓State.at__safeEq, ↓State.dieEvent_safeEq, ↓State.adoptImp_safeEq, ↓State.dieRecord_safeEq, ↓State.modDie_safeEq, safeEq_mk, safeEq_parts]

theorem execInjectionChip_safeEq {t k : Nat} {s : State} {s' : State} (h : execInjectionChip t k s = .next s') : s'.safety = s.safety := by
  unfold execInjectionChip at h
  cases h
  repeat' first
    | with_reducible rfl
    | with_reducible apply safeEq_ite
    | with_reducible refine onDie_safeEq (fun _ => ?_) ?_
    | (simp only [↓State.settleChannels_safeEq, ↓State.beginInjection_safeEq, ↓State.at__safeEq, ↓State.stopInjection_safeEq, ↓State.modDie_safeEq, ↓State.adoptImp_safeEq, safeEq_mk]; done)
    | split
    | simp only [↓State.settleChannels_safeEq, ↓State.beginInjection_safeEq, ↓State.at__safeEq, ↓State.stopInjection_safeEq, ↓State.modDie_safeEq, ↓State.adoptImp_safeEq, safeEq_mk, safeEq_parts]

theorem execFastFrameHold_safeEq {t k : Nat} {v : HoldInput} {zero ref : Rat} {s : State} {s' : State} (h : execFastFrameHold t k v zero ref s = .next s') : s'.safety = s.safety := by
  unfold execFastFrameHold at h
  cases h
  repeat' first
    | with_reducible rfl
    | with_reducible apply safeEq_ite
    | with_reducible refine onDie_safeEq (fun _ => ?_) ?_
    | (simp only [↓State.feedImp_safeEq, ↓State.at__safeEq, ↓State.settleChannels_safeEq, ↓State.adoptImp_safeEq, ↓State.fastDomain_safeEq, ↓State.closeCapture_safeEq, ↓State.takePrec_safeEq, ↓State.modDie_safeEq, ↓State.feedStream_safeEq, safeEq_mk]; done)
    | split
    | simp only [↓State.feedImp_safeEq, ↓State.at__safeEq, ↓State.settleChannels_safeEq, ↓State.adoptImp_safeEq, ↓State.fastDomain_safeEq, ↓State.closeCapture_safeEq, ↓State.takePrec_safeEq, ↓State.modDie_safeEq, ↓State.feedStream_safeEq, safeEq_mk, safeEq_parts]

theorem execCaptureTimerTrigger_safeEq {t k : Nat} {s : State} {s' : State} (h : execCaptureTimerTrigger t k s = .next s') : s'.safety = s.safety := by
  unfold execCaptureTimerTrigger at h
  cases h
  repeat' first
    | with_reducible rfl
    | with_reducible apply safeEq_ite
    | with_reducible refine onDie_safeEq (fun _ => ?_) ?_
    | (simp only [↓State.at__safeEq, ↓State.triggerCapture_safeEq, safeEq_mk]; done)
    | split
    | simp only [↓State.at__safeEq, ↓State.triggerCapture_safeEq, safeEq_mk, safeEq_parts]

theorem execCarrierBeaconReceive_safeEq {t a te : Nat} {s : State} {s' : State} (h : execCarrierBeaconReceive t a te s = .next s') : s'.safety = s.safety := by
  unfold execCarrierBeaconReceive at h
  cases h
  repeat' first
    | with_reducible rfl
    | with_reducible apply safeEq_ite
    | with_reducible refine (foldl_safeEq (fun _ _ => ?_) _ _).trans ?_
    | with_reducible refine onDie_safeEq (fun _ => ?_) ?_
    | (simp only [↓State.at__safeEq, ↓State.triggerCapture_safeEq, safeEq_mk]; done)
    | split
    | simp only [↓State.at__safeEq, ↓State.triggerCapture_safeEq, safeEq_mk, safeEq_parts]

theorem execCaptureEdgeTimeout_safeEq {t k : Nat} {s : State} {s' : State} (h : execCaptureEdgeTimeout t k s = .next s') : s'.safety = s.safety := by
  unfold execCaptureEdgeTimeout at h
  cases h
  repeat' first
    | with_reducible rfl
    | with_reducible apply safeEq_ite
    | with_reducible refine onDie_safeEq (fun _ => ?_) ?_
    | (simp only [↓State.completeOpt_safeEq, ↓State.at__safeEq, ↓State.dieEvent_safeEq, ↓State.modDie_safeEq, ↓State.unarm_safeEq, safeEq_mk]; done)
    | split
    | simp only [↓State.completeOpt_safeEq, ↓State.at__safeEq, ↓State.dieEvent_safeEq, ↓State.modDie_safeEq, ↓State.unarm_safeEq, safeEq_mk, safeEq_parts]

theorem execCaptureBlockDrain_safeEq {t k : Nat} {s : State} {s' : State} (h : execCaptureBlockDrain t k s = .next s') : s'.safety = s.safety := by
  unfold execCaptureBlockDrain at h
  cases h
  repeat' first
    | with_reducible rfl
    | with_reducible apply safeEq_ite
    | with_reducible refine onDie_safeEq (fun _ => ?_) ?_
    | (simp only [↓State.at__safeEq, ↓State.place_safeEq, ↓State.modDie_safeEq, safeEq_mk]; done)
    | split
    | simp only [↓State.at__safeEq, ↓State.place_safeEq, ↓State.modDie_safeEq, safeEq_mk, safeEq_parts]

theorem execSyncInEdge_safeEq {t : Nat} {rising : Bool} {stableNs : Nat} {s : State} {s' : State} (h : execSyncInEdge t rising stableNs s = .next s') : s'.safety = s.safety := by
  unfold execSyncInEdge at h
  cases h
  repeat' first
    | with_reducible rfl
    | with_reducible apply safeEq_ite
    | with_reducible refine (foldl_safeEq (fun _ _ => ?_) _ _).trans ?_
    | with_reducible refine onDie_safeEq (fun _ => ?_) ?_
    | (simp only [↓State.at__safeEq, ↓State.originate_safeEq, ↓State.triggerCapture_safeEq, safeEq_mk]; done)
    | split
    | simp only [↓State.at__safeEq, ↓State.originate_safeEq, ↓State.triggerCapture_safeEq, safeEq_mk, safeEq_parts]

theorem execCurrentBlockSend_safeEq {t : Nat} {s : State} {s' : State} (h : execCurrentBlockSend t s = .next s') : s'.safety = s.safety := by
  unfold execCurrentBlockSend at h
  dsimp only at h
  split at h
  · cases h
    exact State.at__safeEq ..
  · cases h
    refine onDie_safeEq (fun _ => ?_) ((State.adoptImp_safeEq ..).trans (State.at__safeEq ..))
    refine safeEq_ite ((State.adoptImp_safeEq ..).trans (State.at__safeEq ..)) ?_
    refine (foldl_safeEq (fun _ _ => State.takeCurrentBlock_safeEq ..) _ _).trans ((State.originate_safeEq ..).trans ?_)
    exact (State.adoptImp_safeEq ..).trans (State.at__safeEq ..)

theorem execCurrentBlockReceive_safeEq {t : Nat} {bytes : List Byte} {s : State} {s' : State} (h : execCurrentBlockReceive t bytes s = .next s') : s'.safety = s.safety := by
  unfold execCurrentBlockReceive at h
  cases h
  repeat' first
    | with_reducible rfl
    | with_reducible apply safeEq_ite
    | with_reducible refine (foldl_safeEq (fun _ _ => ?_) _ _).trans ?_
    | (simp only [↓State.at__safeEq, ↓State.takeCurrentBlock_safeEq, ↓State.accept_safeEq, safeEq_mk]; done)
    | split
    | simp only [↓State.at__safeEq, ↓State.takeCurrentBlock_safeEq, ↓State.accept_safeEq, safeEq_mk, safeEq_parts]

theorem execCurrentBlockMissing_safeEq {t t0 : Nat} {s : State} {s' : State} (h : execCurrentBlockMissing t t0 s = .next s') : s'.safety = s.safety := by
  unfold execCurrentBlockMissing at h
  cases h
  repeat' first
    | with_reducible rfl
    | with_reducible apply safeEq_ite
    | with_reducible refine (foldl_safeEq (fun _ _ => ?_) _ _).trans ?_
    | (simp only [↓State.at__safeEq, ↓State.missCurrentBlock_safeEq, safeEq_mk]; done)
    | split
    | simp only [↓State.at__safeEq, ↓State.missCurrentBlock_safeEq, safeEq_mk, safeEq_parts]

theorem execChargeBlockSend_safeEq {t : Nat} {s : State} {s' : State} (h : execChargeBlockSend t s = .next s') : s'.safety = s.safety := by
  unfold execChargeBlockSend at h
  cases h
  exact (foldl_safeEq (fun _ _ => State.sendChargeBlock_safeEq ..) _ _).trans ((State.adoptEst_safeEq _).trans (State.at__safeEq ..))

theorem execChargeBlockReceive_safeEq {t : Nat} {bytes : List Byte} {s : State} {s' : State} (h : execChargeBlockReceive t bytes s = .next s') : s'.safety = s.safety := by
  unfold execChargeBlockReceive at h
  cases h
  split <;> simp only [↓State.at__safeEq, ↓State.takeChargeBlock_safeEq, ↓State.accept_safeEq, safeEq_mk, safeEq_parts]

theorem execChargeBlockMissing_safeEq {t t0 : Nat} {s : State} {s' : State} (h : execChargeBlockMissing t t0 s = .next s') : s'.safety = s.safety := by
  unfold execChargeBlockMissing at h
  cases h
  repeat' first
    | with_reducible rfl
    | with_reducible apply safeEq_ite
    | with_reducible refine (foldl_safeEq (fun _ _ => ?_) _ _).trans ?_
    | (simp only [↓State.at__safeEq, ↓State.adoptEst_safeEq, ↓State.accrueDebt_safeEq, ↓State.hubDraw_safeEq, ↓State.meterGap_safeEq, ↓State.missChargeBlock_safeEq, safeEq_mk]; done)
    | split
    | simp only [↓State.at__safeEq, ↓State.adoptEst_safeEq, ↓State.accrueDebt_safeEq, ↓State.hubDraw_safeEq, ↓State.meterGap_safeEq, ↓State.missChargeBlock_safeEq, safeEq_mk, safeEq_parts]

theorem execStateSecond_safeEq {t k : Nat} {s : State} {s' : State} (h : execStateSecond t k s = .next s') : s'.safety = s.safety := by
  unfold execStateSecond at h
  cases h
  repeat' first
    | with_reducible rfl
    | with_reducible apply safeEq_ite
    | with_reducible refine onDie_safeEq (fun _ => ?_) ?_
    | (simp only [↓State.at__safeEq, ↓State.dieEvent_safeEq, ↓State.dieRecord_safeEq, ↓State.modDie_safeEq, ↓State.modDies_safeEq, ↓State.noteHistory_safeEq, ↓State.judgeEnds_safeEq, ↓State.adoptEst_safeEq, ↓State.restPoint_safeEq, safeEq_mk]; done)
    | split
    | simp only [↓State.at__safeEq, ↓State.dieEvent_safeEq, ↓State.dieRecord_safeEq, ↓State.modDie_safeEq, ↓State.modDies_safeEq, ↓State.noteHistory_safeEq, ↓State.judgeEnds_safeEq, ↓State.adoptEst_safeEq, ↓State.restPoint_safeEq, safeEq_mk, safeEq_parts]

theorem execStatePersist_safeEq {t k : Nat} {s : State} {s' : State} (h : execStatePersist t k s = .next s') : s'.safety = s.safety := by
  unfold execStatePersist at h
  cases h
  refine onDie_safeEq (fun _ => ?_) ?_
  · split <;> simp only [↓State.persist_safeEq, ↓State.at__safeEq, ↓State.adoptEst_safeEq, safeEq_mk, safeEq_parts]
  · simp only [↓State.persist_safeEq, ↓State.at__safeEq, ↓State.adoptEst_safeEq, safeEq_mk, safeEq_parts]

theorem execSeqWord_safeEq {t k : Nat} {m : Rat} {ovl : Overload} {comply : Bool} {s : State} {s' : State} (h : execSeqWord t k m ovl comply s = .next s') : s'.safety = s.safety := by
  unfold execSeqWord at h
  cases h
  repeat' first
    | with_reducible rfl
    | with_reducible apply safeEq_ite
    | with_reducible refine onDie_safeEq (fun _ => ?_) ?_
    | (simp only [↓State.at__safeEq, ↓State.adoptSeq_safeEq, ↓State.modDie_safeEq, ↓State.dieEventAt_safeEq, safeEq_mk]; done)
    | split
    | simp only [↓State.at__safeEq, ↓State.adoptSeq_safeEq, ↓State.modDie_safeEq, ↓State.dieEventAt_safeEq, safeEq_mk, safeEq_parts]

theorem execSeqEntryEnd_safeEq {t k : Nat} {presence : Bool} {number : Nat} {s : State} {s' : State} (h : execSeqEntryEnd t k presence number s = .next s') : s'.safety = s.safety := by
  unfold execSeqEntryEnd at h
  cases h
  repeat' first
    | with_reducible rfl
    | with_reducible apply safeEq_ite
    | with_reducible refine (foldl_safeEq (fun _ _ => ?_) _ _).trans ?_
    | with_reducible refine onDie_safeEq (fun _ => ?_) ?_
    | (simp only [↓State.emit_safeEq, ↓State.at__safeEq, ↓State.closeEntry_safeEq, ↓State.seqAdvance_safeEq, ↓State.adoptSeq_safeEq, ↓State.modDie_safeEq, safeEq_mk]; done)
    | split
    | simp only [↓State.emit_safeEq, ↓State.at__safeEq, ↓State.closeEntry_safeEq, ↓State.seqAdvance_safeEq, ↓State.adoptSeq_safeEq, ↓State.modDie_safeEq, safeEq_mk, safeEq_parts]

theorem execM30CalInsert_safeEq {t k gain : Nat} {zero : Rat} {zener : ZenerRead} {s : State} {s' : State} (h : execM30CalInsert t k gain zero zener s = .next s') : s'.safety = s.safety := by
  unfold execM30CalInsert at h
  cases h
  repeat' first
    | with_reducible rfl
    | with_reducible apply safeEq_ite
    | with_reducible refine onDie_safeEq (fun _ => ?_) ?_
    | (simp only [↓State.at__safeEq, ↓State.adoptSeq_safeEq, ↓State.modDie_safeEq, safeEq_mk]; done)
    | split
    | simp only [↓State.at__safeEq, ↓State.adoptSeq_safeEq, ↓State.modDie_safeEq, safeEq_mk, safeEq_parts]

theorem execUrgentWorkPreempt_safeEq {t k : Nat} {s : State} {s' : State} (h : execUrgentWorkPreempt t k s = .next s') : s'.safety = s.safety := by
  unfold execUrgentWorkPreempt at h
  cases h
  repeat' first
    | with_reducible rfl
    | with_reducible apply safeEq_ite
    | with_reducible refine onDie_safeEq (fun _ => ?_) ?_
    | (simp only [↓State.at__safeEq, ↓State.closeEntry_safeEq, ↓State.abortSlice_safeEq, ↓State.adoptSeq_safeEq, ↓State.owBegin_safeEq, ↓State.modDie_safeEq, safeEq_mk]; done)
    | split
    | simp only [↓State.at__safeEq, ↓State.closeEntry_safeEq, ↓State.abortSlice_safeEq, ↓State.adoptSeq_safeEq, ↓State.owBegin_safeEq, ↓State.modDie_safeEq, safeEq_mk, safeEq_parts]

theorem execUrgentWorkEnd_safeEq {t k : Nat} {s : State} {s' : State} (h : execUrgentWorkEnd t k s = .next s') : s'.safety = s.safety := by
  unfold execUrgentWorkEnd at h
  cases h
  simp only [↓State.at__safeEq, ↓State.endUrgent_safeEq, ↓State.adoptSeq_safeEq, safeEq_mk, safeEq_parts]

theorem execCalRunClose_safeEq {t k : Nat} {s : State} {s' : State} (h : execCalRunClose t k s = .next s') : s'.safety = s.safety := by
  unfold execCalRunClose at h
  cases h
  repeat' first
    | with_reducible rfl
    | with_reducible apply safeEq_ite
    | with_reducible refine onDie_safeEq (fun _ => ?_) ?_
    | (simp only [↓State.at__safeEq, ↓State.closeRun_safeEq, safeEq_mk]; done)
    | split
    | simp only [↓State.at__safeEq, ↓State.closeRun_safeEq, safeEq_mk, safeEq_parts]

theorem execCalSolveComplete_safeEq {t k : Nat} {s : State} {s' : State} (h : execCalSolveComplete t k s = .next s') : s'.safety = s.safety := by
  unfold execCalSolveComplete at h
  cases h
  repeat' first
    | with_reducible rfl
    | with_reducible apply safeEq_ite
    | with_reducible refine onDie_safeEq (fun _ => ?_) ?_
    | (simp only [↓State.at__safeEq, ↓State.dieEvent_safeEq, ↓State.dieRecord_safeEq, ↓State.modDie_safeEq, ↓State.solveRun_safeEq, safeEq_mk]; done)
    | split
    | simp only [↓State.at__safeEq, ↓State.dieEvent_safeEq, ↓State.dieRecord_safeEq, ↓State.modDie_safeEq, ↓State.solveRun_safeEq, safeEq_mk, safeEq_parts]

theorem execCalExpiry_safeEq {t k c : Nat} {s : State} {s' : State} (h : execCalExpiry t k c s = .next s') : s'.safety = s.safety := by
  unfold execCalExpiry at h
  cases h
  repeat' first
    | with_reducible rfl
    | with_reducible apply safeEq_ite
    | with_reducible refine onDie_safeEq (fun _ => ?_) ?_
    | (simp only [↓State.at__safeEq, ↓State.dieEvent_safeEq, ↓State.modDie_safeEq, safeEq_mk]; done)
    | split
    | simp only [↓State.at__safeEq, ↓State.dieEvent_safeEq, ↓State.modDie_safeEq, safeEq_mk, safeEq_parts]

theorem execPrecisionSample_safeEq {t k : Nat} {v : List Rat} {ovl : List Overload} {tj : Int} {bal : List Rat} {s : State} {s' : State} (h : execPrecisionSample t k v ovl tj bal s = .next s') : s'.safety = s.safety := by
  unfold execPrecisionSample at h
  cases h
  repeat' first
    | with_reducible rfl
    | with_reducible apply safeEq_ite
    | with_reducible refine onDie_safeEq (fun _ => ?_) ?_
    | (simp only [↓State.stepAt_safeEq, ↓State.applyCap_safeEq, ↓State.at__safeEq, ↓State.atSample_safeEq, ↓State.precSample_safeEq, ↓State.modDie_safeEq, safeEq_mk]; done)
    | split
    | simp only [↓State.stepAt_safeEq, ↓State.applyCap_safeEq, ↓State.at__safeEq, ↓State.atSample_safeEq, ↓State.precSample_safeEq, ↓State.modDie_safeEq, safeEq_mk, safeEq_parts]

theorem execAoncPowerUp_safeEq {t k : Nat} {s : State} {s' : State} (h : execAoncPowerUp t k s = .next s') : s'.safety = s.safety := by
  unfold execAoncPowerUp at h
  cases h
  refine onDie_safeEq (fun _ => ?_) ?_
  · split <;> simp only [↓State.at__safeEq, ↓State.takeRange_safeEq, ↓State.modDie_safeEq, safeEq_mk, safeEq_parts]
  · simp only [↓State.at__safeEq, ↓State.takeRange_safeEq, ↓State.modDie_safeEq, safeEq_mk, safeEq_parts]

theorem execOwSweep_safeEq {t k : Nat} {s : State} {s' : State} (h : execOwSweep t k s = .next s') : s'.safety = s.safety := by
  unfold execOwSweep at h
  cases h
  repeat' first
    | with_reducible rfl
    | with_reducible apply safeEq_ite
    | with_reducible refine onDie_safeEq (fun _ => ?_) ?_
    | (simp only [↓State.at__safeEq, ↓State.modDie_safeEq, safeEq_mk]; done)
    | split
    | simp only [↓State.at__safeEq, ↓State.modDie_safeEq, safeEq_mk, safeEq_parts]

theorem execOwCheckComplete_safeEq {t k : Nat} {pre post : List Rat} {s : State} {s' : State} (h : execOwCheckComplete t k pre post s = .next s') : s'.safety = s.safety := by
  unfold execOwCheckComplete at h
  cases h
  repeat' first
    | with_reducible rfl
    | with_reducible apply safeEq_ite
    | with_reducible refine onDie_safeEq (fun _ => ?_) ?_
    | (simp only [↓State.settleChannels_safeEq, ↓State.at__safeEq, ↓State.owEnd_safeEq, ↓State.owBegin_safeEq, ↓State.modDie_safeEq, safeEq_mk]; done)
    | split
    | simp only [↓State.settleChannels_safeEq, ↓State.at__safeEq, ↓State.owEnd_safeEq, ↓State.owBegin_safeEq, ↓State.modDie_safeEq, safeEq_mk, safeEq_parts]

theorem execShuntInputBreak_safeEq {t k w : Nat} {s : State} {s' : State} (h : execShuntInputBreak t k w s = .next s') : s'.safety = s.safety := by
  unfold execShuntInputBreak at h
  cases h
  refine onDie_safeEq (fun _ => ?_) ?_
  · split <;> simp only [↓State.at__safeEq, ↓State.modDie_safeEq, safeEq_mk, safeEq_parts]
  · simp only [↓State.at__safeEq, ↓State.modDie_safeEq, safeEq_mk, safeEq_parts]

theorem execBalStep_safeEq {t k : Nat} {s : State} {s' : State} (h : execBalStep t k s = .next s') : s'.safety = s.safety := by
  unfold execBalStep at h
  cases h
  repeat' first
    | with_reducible rfl
    | with_reducible apply safeEq_ite
    | with_reducible refine onDie_safeEq (fun _ => ?_) ?_
    | (simp only [↓State.policyTaken_safeEq, ↓State.applyCap_safeEq, ↓State.at__safeEq, ↓State.takeRange_safeEq, ↓State.clearDebts_safeEq, ↓State.modDie_safeEq, safeEq_mk]; done)
    | split
    | simp only [↓State.policyTaken_safeEq, ↓State.applyCap_safeEq, ↓State.at__safeEq, ↓State.takeRange_safeEq, ↓State.clearDebts_safeEq, ↓State.modDie_safeEq, safeEq_mk, safeEq_parts]

theorem execBalNeedCheck_safeEq {t k : Nat} {s : State} {s' : State} (h : execBalNeedCheck t k s = .next s') : s'.safety = s.safety := by
  unfold execBalNeedCheck at h
  cases h
  refine onDie_safeEq (fun _ => ?_) ?_
  · split <;> simp only [↓State.at__safeEq, ↓State.modDie_safeEq, ↓State.applyCap_safeEq, safeEq_mk, safeEq_parts]
  · simp only [↓State.at__safeEq, ↓State.modDie_safeEq, ↓State.applyCap_safeEq, safeEq_mk, safeEq_parts]

theorem execBalOvercurrent_safeEq {t k n : Nat} {s : State} {s' : State} (h : execBalOvercurrent t k n s = .next s') : s'.safety = s.safety := by
  unfold execBalOvercurrent at h
  cases h
  repeat' first
    | with_reducible rfl
    | with_reducible apply safeEq_ite
    | with_reducible refine onDie_safeEq (fun _ => ?_) ?_
    | (simp only [↓State.at__safeEq, ↓State.dieEvent_safeEq, ↓State.modDie_safeEq, ↓State.settleChannels_safeEq, safeEq_mk]; done)
    | split
    | simp only [↓State.at__safeEq, ↓State.dieEvent_safeEq, ↓State.modDie_safeEq, ↓State.settleChannels_safeEq, safeEq_mk, safeEq_parts]

theorem execBalKeepalive_safeEq {t k : Nat} {s : State} {s' : State} (h : execBalKeepalive t k s = .next s') : s'.safety = s.safety := by
  unfold execBalKeepalive at h
  cases h
  simp only [↓State.at__safeEq, ↓State.keepAlive_safeEq, safeEq_mk, safeEq_parts]

theorem execBalTimeoutExpire_safeEq {t k : Nat} {s : State} {s' : State} (h : execBalTimeoutExpire t k s = .next s') : s'.safety = s.safety := by
  unfold execBalTimeoutExpire at h
  cases h
  refine onDie_safeEq (fun _ => ?_) ?_
  · split <;> simp only [↓State.at__safeEq, ↓State.dieEvent_safeEq, ↓State.modDie_safeEq, ↓State.settleChannels_safeEq, safeEq_mk, safeEq_parts]
  · simp only [↓State.at__safeEq, ↓State.dieEvent_safeEq, ↓State.modDie_safeEq, ↓State.settleChannels_safeEq, safeEq_mk, safeEq_parts]

theorem execBalanceRecordInterval_safeEq {t k : Nat} {s : State} {s' : State} (h : execBalanceRecordInterval t k s = .next s') : s'.safety = s.safety := by
  unfold execBalanceRecordInterval at h
  cases h
  repeat' first
    | with_reducible rfl
    | with_reducible apply safeEq_ite
    | with_reducible refine onDie_safeEq (fun _ => ?_) ?_
    | (simp only [↓State.at__safeEq, ↓State.dieRecord_safeEq, ↓State.modDie_safeEq, safeEq_mk]; done)
    | split
    | simp only [↓State.at__safeEq, ↓State.dieRecord_safeEq, ↓State.modDie_safeEq, safeEq_mk, safeEq_parts]

theorem execInnerLinkBroken_safeEq {t i : Nat} {s : State} {s' : State} (h : execInnerLinkBroken t i s = .next s') : s'.safety = s.safety := by
  unfold execInnerLinkBroken at h
  cases h
  split <;> simp only [↓State.at__safeEq, ↓State.breakLink_safeEq, safeEq_mk, safeEq_parts]

theorem execRolePadChange_safeEq {t : Nat} {level : Bool} {s : State} {s' : State} (h : execRolePadChange t level s = .next s') : s'.safety = s.safety := by
  unfold execRolePadChange at h
  cases h
  repeat' first
    | with_reducible rfl
    | with_reducible apply safeEq_ite
    | (simp only [↓State.at__safeEq, ↓State.event_safeEq, safeEq_mk]; done)
    | split
    | simp only [↓State.at__safeEq, ↓State.event_safeEq, safeEq_mk, safeEq_parts]

theorem execSearchAll_safeEq {t p : Nat} {s : State} {s' : State} (h : execSearchAll t p s = .next s') : s'.safety = s.safety := by
  unfold execSearchAll at h
  cases h
  repeat' first
    | with_reducible rfl
    | with_reducible apply safeEq_ite
    | with_reducible refine State.onSwp_safeEq (fun _ => ?_) ?_
    | (simp only [↓State.at__safeEq, ↓State.adoptSwp_safeEq, ↓State.startSearch_safeEq, safeEq_mk]; done)
    | split
    | simp only [↓State.at__safeEq, ↓State.adoptSwp_safeEq, ↓State.startSearch_safeEq, safeEq_mk, safeEq_parts]

theorem execSearchNewPeriodic_safeEq {t p : Nat} {s : State} {s' : State} (h : execSearchNewPeriodic t p s = .next s') : s'.safety = s.safety := by
  unfold execSearchNewPeriodic at h
  cases h
  repeat' first
    | with_reducible rfl
    | with_reducible apply safeEq_ite
    | with_reducible refine State.onSwp_safeEq (fun _ => ?_) ?_
    | (simp only [↓State.at__safeEq, ↓State.modSwp_safeEq, ↓State.startSearch_safeEq, safeEq_mk]; done)
    | split
    | simp only [↓State.at__safeEq, ↓State.modSwp_safeEq, ↓State.startSearch_safeEq, safeEq_mk, safeEq_parts]

theorem execSwpSearchComplete_safeEq {t p : Nat} {attempts : List (List (Option (List (Bool × Bool))))} {acks : List (List Nat)} {s : State} {s' : State} (h : execSwpSearchComplete t p attempts acks s = .next s') : s'.safety = s.safety := by
  unfold execSwpSearchComplete at h
  cases h
  repeat' first
    | with_reducible rfl
    | with_reducible apply safeEq_ite
    | with_reducible refine (foldl_safeEq (fun _ _ => ?_) _ _).trans ?_
    | with_reducible refine State.onSwp_safeEq (fun _ => ?_) ?_
    | (simp only [↓State.emits_safeEq, ↓State.at__safeEq, ↓State.event_safeEq, ↓State.modSwp_safeEq, ↓State.endSearch_safeEq, ↓State.assignSensor_safeEq, safeEq_mk]; done)
    | split
    | simp only [↓State.emits_safeEq, ↓State.at__safeEq, ↓State.event_safeEq, ↓State.modSwp_safeEq, ↓State.endSearch_safeEq, ↓State.assignSensor_safeEq, safeEq_mk, safeEq_parts]

theorem execSwpStreamCycle_safeEq {t p : Nat} {s : State} {s' : State} (h : execSwpStreamCycle t p s = .next s') : s'.safety = s.safety := by
  unfold execSwpStreamCycle at h
  cases h
  repeat' first
    | with_reducible rfl
    | with_reducible apply safeEq_ite
    | with_reducible refine State.onSwp_safeEq (fun _ => ?_) ?_
    | (simp only [↓State.at__safeEq, ↓State.emit_safeEq, ↓State.modSwp_safeEq, safeEq_mk]; done)
    | split
    | simp only [↓State.at__safeEq, ↓State.emit_safeEq, ↓State.modSwp_safeEq, safeEq_mk, safeEq_parts]

theorem execSwpSlotRead_safeEq {t p slot : Nat} {bytes : List Byte} {s : State} {s' : State} (h : execSwpSlotRead t p slot bytes s = .next s') : s'.safety = s.safety := by
  unfold execSwpSlotRead at h
  cases h
  repeat' first
    | with_reducible rfl
    | with_reducible apply safeEq_ite
    | with_reducible refine State.onSwp_safeEq (fun _ => ?_) ?_
    | (simp only [↓State.at__safeEq, ↓State.event_safeEq, ↓State.emit_safeEq, ↓State.modSwp_safeEq, safeEq_mk]; done)
    | split
    | simp only [↓State.at__safeEq, ↓State.event_safeEq, ↓State.emit_safeEq, ↓State.modSwp_safeEq, safeEq_mk, safeEq_parts]

theorem execSwpCycleEnd_safeEq {t p : Nat} {s : State} {s' : State} (h : execSwpCycleEnd t p s = .next s') : s'.safety = s.safety := by
  unfold execSwpCycleEnd at h
  cases h
  repeat' first
    | with_reducible rfl
    | with_reducible apply safeEq_ite
    | with_reducible refine State.onSwp_safeEq (fun _ => ?_) ?_
    | (simp only [↓State.at__safeEq, ↓State.place_safeEq, ↓State.adoptSwp_safeEq, ↓State.modSwp_safeEq, ↓State.startSearch_safeEq, safeEq_mk]; done)
    | split
    | simp only [↓State.at__safeEq, ↓State.place_safeEq, ↓State.adoptSwp_safeEq, ↓State.modSwp_safeEq, ↓State.startSearch_safeEq, safeEq_mk, safeEq_parts]

theorem execSwpLineShort_safeEq {t p : Nat} {s : State} {s' : State} (h : execSwpLineShort t p s = .next s') : s'.safety = s.safety := by
  unfold execSwpLineShort at h
  cases h
  repeat' first
    | with_reducible rfl
    | with_reducible apply safeEq_ite
    | with_reducible refine State.onSwp_safeEq (fun _ => ?_) ?_
    | (simp only [↓State.emit_safeEq, ↓State.event_safeEq, ↓State.modSwp_safeEq, ↓State.at__safeEq, ↓State.adoptSwp_safeEq, safeEq_mk]; done)
    | split
    | simp only [↓State.emit_safeEq, ↓State.event_safeEq, ↓State.modSwp_safeEq, ↓State.at__safeEq, ↓State.adoptSwp_safeEq, safeEq_mk, safeEq_parts]

theorem execSwpShortRetry_safeEq {t p : Nat} {s : State} {s' : State} (h : execSwpShortRetry t p s = .next s') : s'.safety = s.safety := by
  unfold execSwpShortRetry at h
  cases h
  repeat' first
    | with_reducible rfl
    | with_reducible apply safeEq_ite
    | with_reducible refine State.onSwp_safeEq (fun _ => ?_) ?_
    | (simp only [↓State.at__safeEq, ↓State.modSwp_safeEq, ↓State.startSearch_safeEq, safeEq_mk]; done)
    | split
    | simp only [↓State.at__safeEq, ↓State.modSwp_safeEq, ↓State.startSearch_safeEq, safeEq_mk, safeEq_parts]

theorem execFaultNoticeFrameReceive_safeEq {t : Nat} {bytes : List Byte} {s : State} {s' : State} (h : execFaultNoticeFrameReceive t bytes s = .next s') : s'.safety = s.safety := by
  unfold execFaultNoticeFrameReceive at h
  cases h
  repeat' first
    | with_reducible rfl
    | with_reducible apply safeEq_ite
    | with_reducible refine (foldl_safeEq (fun _ _ => ?_) _ _).trans ?_
    | (simp only [↓State.accept_safeEq, ↓State.at__safeEq, ↓State.faultTrigger_safeEq, ↓State.checkRejected_safeEq, safeEq_mk]; done)
    | split
    | simp only [↓State.accept_safeEq, ↓State.at__safeEq, ↓State.faultTrigger_safeEq, ↓State.checkRejected_safeEq, safeEq_mk, safeEq_parts]

theorem execDiscoverSend_safeEq {t : Nat} {s : State} {s' : State} (h : execDiscoverSend t s = .next s') : s'.safety = s.safety := by
  unfold execDiscoverSend at h
  cases h
  repeat' first
    | with_reducible rfl
    | with_reducible apply safeEq_ite
    | (simp only [↓State.at__safeEq, ↓State.emit_safeEq, safeEq_mk]; done)
    | split
    | simp only [↓State.at__safeEq, ↓State.emit_safeEq, safeEq_mk, safeEq_parts]

theorem execEnumWaitExpire_safeEq {t : Nat} {answers : List (List Byte)} {s : State} {s' : State} (h : execEnumWaitExpire t answers s = .next s') : s'.safety = s.safety := by
  unfold execEnumWaitExpire at h
  cases h
  repeat' first
    | with_reducible rfl
    | with_reducible apply safeEq_ite
    | (simp only [↓State.endEnumeration_safeEq, ↓State.at__safeEq, ↓State.enqueue_safeEq, ↓State.freshHop_safeEq, safeEq_mk]; done)
    | split
    | simp only [↓State.endEnumeration_safeEq, ↓State.at__safeEq, ↓State.enqueue_safeEq, ↓State.freshHop_safeEq, safeEq_mk, safeEq_parts]

theorem execEnumFrameReceive_safeEq {t : Nat} {bytes : List Byte} {s : State} {s' : State} (h : execEnumFrameReceive t bytes s = .next s') : s'.safety = s.safety := by
  unfold execEnumFrameReceive at h
  cases h
  repeat' first
    | with_reducible rfl
    | with_reducible apply safeEq_ite
    | (simp only [↓State.finishEnumeration_safeEq, ↓State.at__safeEq, ↓State.becomeFrontier_safeEq, ↓State.originate_safeEq, ↓State.flushUnrouted_safeEq, ↓State.accept_safeEq, ↓State.holderAnew_safeEq, safeEq_mk]; done)
    | split
    | simp only [↓State.finishEnumeration_safeEq, ↓State.at__safeEq, ↓State.becomeFrontier_safeEq, ↓State.originate_safeEq, ↓State.flushUnrouted_safeEq, ↓State.accept_safeEq, ↓State.holderAnew_safeEq, safeEq_mk, safeEq_parts]

theorem execFrameForward_safeEq {t : Nat} {side : Side} {bytes : List Byte} {s : State} {s' : State} (h : execFrameForward t side bytes s = .next s') : s'.safety = s.safety := by
  unfold execFrameForward at h
  cases h
  repeat' first
    | with_reducible rfl
    | with_reducible apply safeEq_ite
    | (simp only [↓State.egress_safeEq, ↓State.at__safeEq, ↓State.enqueue_safeEq, ↓State.countNoRoute_safeEq, ↓State.noteForward_safeEq, safeEq_mk]; done)
    | split
    | simp only [↓State.egress_safeEq, ↓State.at__safeEq, ↓State.enqueue_safeEq, ↓State.countNoRoute_safeEq, ↓State.noteForward_safeEq, safeEq_mk, safeEq_parts]

theorem execMseqGapRelease_safeEq {t origin tc flow : Nat} {s : State} {s' : State} (h : execMseqGapRelease t origin tc flow s = .next s') : s'.safety = s.safety := by
  unfold execMseqGapRelease at h
  cases h
  repeat' first
    | with_reducible rfl
    | with_reducible apply safeEq_ite
    | with_reducible refine (foldl_safeEq (fun _ _ => ?_) _ _).trans ?_
    | (simp only [↓State.at__safeEq, safeEq_mk]; done)
    | split
    | simp only [↓State.at__safeEq, safeEq_mk, safeEq_parts]

theorem execLinkStateNoticeReceive_safeEq {t : Nat} {bytes : List Byte} {s : State} {s' : State} (h : execLinkStateNoticeReceive t bytes s = .next s') : s'.safety = s.safety := by
  unfold execLinkStateNoticeReceive at h
  cases h
  split <;> simp only [↓State.at__safeEq, ↓State.noteHolder_safeEq, ↓State.accept_safeEq, safeEq_mk, safeEq_parts]

theorem execCodewordBoundary_safeEq {t : Nat} {side : Side} {s : State} {s' : State} (h : execCodewordBoundary t side s = .next s') : s'.safety = s.safety := by
  unfold execCodewordBoundary at h
  cases h
  repeat' first
    | with_reducible rfl
    | with_reducible apply safeEq_ite
    | (simp only [↓State.emit_safeEq, ↓State.event_safeEq, ↓State.at__safeEq, ↓State.startTraining_safeEq, ↓State.modPort_safeEq, safeEq_mk]; done)
    | split
    | simp only [↓State.emit_safeEq, ↓State.event_safeEq, ↓State.at__safeEq, ↓State.startTraining_safeEq, ↓State.modPort_safeEq, safeEq_mk, safeEq_parts]

theorem execCodewordReceive_safeEq {t : Nat} {side : Side} {bytes : List Byte} {s : State} {s' : State} (h : execCodewordReceive t side bytes s = .next s') : s'.safety = s.safety := by
  unfold execCodewordReceive at h
  cases h
  repeat' first
    | with_reducible rfl
    | with_reducible apply safeEq_ite
    | (simp only [↓State.at__safeEq, ↓State.takeFrame_safeEq, ↓State.modPort_safeEq, safeEq_mk]; done)
    | split
    | simp only [↓State.at__safeEq, ↓State.takeFrame_safeEq, ↓State.modPort_safeEq, safeEq_mk, safeEq_parts]

theorem execControlCodewordReceive_safeEq {t : Nat} {side : Side} {bytes : List Byte} {s : State} {s' : State} (h : execControlCodewordReceive t side bytes s = .next s') : s'.safety = s.safety := by
  unfold execControlCodewordReceive at h
  cases h
  repeat' first
    | with_reducible rfl
    | with_reducible apply safeEq_ite
    | (simp only [↓State.at__safeEq, ↓State.startTraining_safeEq, ↓State.exchange_safeEq, ↓State.modPort_safeEq, ↓State.hopDown_safeEq, ↓State.tagFailure_safeEq, safeEq_mk]; done)
    | split
    | simp only [↓State.at__safeEq, ↓State.startTraining_safeEq, ↓State.exchange_safeEq, ↓State.modPort_safeEq, ↓State.hopDown_safeEq, ↓State.tagFailure_safeEq, safeEq_mk, safeEq_parts]

theorem execTc0AckTimeout_safeEq {t : Nat} {side : Side} {s : State} {s' : State} (h : execTc0AckTimeout t side s = .next s') : s'.safety = s.safety := by
  unfold execTc0AckTimeout at h
  cases h
  repeat' first
    | with_reducible rfl
    | with_reducible apply safeEq_ite
    | (simp only [↓State.at__safeEq, ↓State.hopDown_safeEq, ↓State.modPort_safeEq, safeEq_mk]; done)
    | split
    | simp only [↓State.at__safeEq, ↓State.hopDown_safeEq, ↓State.modPort_safeEq, safeEq_mk, safeEq_parts]

theorem execFrameRetryTimeout_safeEq {t : Nat} {side : Side} {tc : Nat} {s : State} {s' : State} (h : execFrameRetryTimeout t side tc s = .next s') : s'.safety = s.safety := by
  unfold execFrameRetryTimeout at h
  cases h
  repeat' first
    | with_reducible rfl
    | with_reducible apply safeEq_ite
    | (simp only [↓State.at__safeEq, ↓State.hopDown_safeEq, ↓State.modPort_safeEq, safeEq_mk]; done)
    | split
    | simp only [↓State.at__safeEq, ↓State.hopDown_safeEq, ↓State.modPort_safeEq, safeEq_mk, safeEq_parts]

theorem execHopSilenceTimeout_safeEq {t : Nat} {side : Side} {s : State} {s' : State} (h : execHopSilenceTimeout t side s = .next s') : s'.safety = s.safety := by
  unfold execHopSilenceTimeout at h
  cases h
  split <;> simp only [↓State.at__safeEq, ↓State.hopDown_safeEq, safeEq_mk, safeEq_parts]

theorem execHopMarginTimeout_safeEq {t : Nat} {side : Side} {s : State} {s' : State} (h : execHopMarginTimeout t side s = .next s') : s'.safety = s.safety := by
  unfold execHopMarginTimeout at h
  cases h
  repeat' first
    | with_reducible rfl
    | with_reducible apply safeEq_ite
    | (simp only [↓State.at__safeEq, ↓State.hopDown_safeEq, safeEq_mk]; done)
    | split
    | simp only [↓State.at__safeEq, ↓State.hopDown_safeEq, safeEq_mk, safeEq_parts]

theorem execHopTrainingRetry_safeEq {t : Nat} {side : Side} {s : State} {s' : State} (h : execHopTrainingRetry t side s = .next s') : s'.safety = s.safety := by
  unfold execHopTrainingRetry at h
  cases h
  split <;> simp only [↓State.at__safeEq, ↓State.startTraining_safeEq, safeEq_mk, safeEq_parts]

theorem execHopTrainingComplete_safeEq {t : Nat} {side : Side} {margin : Int} {peerQpsk : Bool} {s : State} {s' : State} (h : execHopTrainingComplete t side margin peerQpsk s = .next s') : s'.safety = s.safety := by
  unfold execHopTrainingComplete at h
  cases h
  repeat' first
    | with_reducible rfl
    | with_reducible apply safeEq_ite
    | (simp only [↓State.closeRing_safeEq, ↓State.at__safeEq, ↓State.startKeying_safeEq, ↓State.modPort_safeEq, ↓State.hopUp_safeEq, safeEq_mk]; done)
    | split
    | simp only [↓State.closeRing_safeEq, ↓State.at__safeEq, ↓State.startKeying_safeEq, ↓State.modPort_safeEq, ↓State.hopUp_safeEq, safeEq_mk, safeEq_parts]

theorem execHopRouteRestore_safeEq {t : Nat} {side : Side} {s : State} {s' : State} (h : execHopRouteRestore t side s = .next s') : s'.safety = s.safety := by
  unfold execHopRouteRestore at h
  cases h
  split <;> simp only [↓State.at__safeEq, ↓State.routeChange_safeEq, ↓State.modPort_safeEq, safeEq_mk, safeEq_parts]

theorem execApcAdjust_safeEq {t : Nat} {side : Side} {margin : Margins} {s : State} {s' : State} (h : execApcAdjust t side margin s = .next s') : s'.safety = s.safety := by
  unfold execApcAdjust at h
  cases h
  split <;> simp only [↓State.at__safeEq, ↓State.modPort_safeEq, safeEq_mk, safeEq_parts]

theorem execHopKeyingMessage_safeEq {t : Nat} {side : Side} {bytes : List Byte} {s : State} {s' : State} (h : execHopKeyingMessage t side bytes s = .next s') : s'.safety = s.safety := by
  unfold execHopKeyingMessage at h
  cases h
  repeat' first
    | with_reducible rfl
    | with_reducible apply safeEq_ite
    | (simp only [↓State.takeSignature_safeEq, ↓State.closeRing_safeEq, ↓State.at__safeEq, ↓State.takeOffer_safeEq, safeEq_mk]; done)
    | split
    | simp only [↓State.takeSignature_safeEq, ↓State.closeRing_safeEq, ↓State.at__safeEq, ↓State.takeOffer_safeEq, safeEq_mk, safeEq_parts]

theorem execHopRekey_safeEq {t : Nat} {side : Side} {s : State} {s' : State} (h : execHopRekey t side s = .next s') : s'.safety = s.safety := by
  unfold execHopRekey at h
  cases h
  split <;> simp only [↓State.at__safeEq, ↓State.startKeying_safeEq, safeEq_mk, safeEq_parts]

theorem execTimeBeaconSend_safeEq {t : Nat} {s : State} {s' : State} (h : execTimeBeaconSend t s = .next s') : s'.safety = s.safety := by
  unfold execTimeBeaconSend at h
  cases h
  repeat' first
    | with_reducible rfl
    | with_reducible apply safeEq_ite
    | (simp only [↓State.at__safeEq, ↓State.enqueue_safeEq, safeEq_mk]; done)
    | split
    | simp only [↓State.at__safeEq, ↓State.enqueue_safeEq, safeEq_mk, safeEq_parts]

theorem execTimeBeaconReceive_safeEq {t : Nat} {side : Side} {bytes : List Byte} {s : State} {s' : State} (h : execTimeBeaconReceive t side bytes s = .next s') : s'.safety = s.safety := by
  unfold execTimeBeaconReceive at h
  cases h
  repeat' first
    | with_reducible rfl
    | with_reducible apply safeEq_ite
    | (simp only [↓State.queueBeacon_safeEq, ↓State.accept_safeEq, ↓State.at__safeEq, ↓State.servo_safeEq, ↓State.noteForward_safeEq, safeEq_mk]; done)
    | split
    | simp only [↓State.queueBeacon_safeEq, ↓State.accept_safeEq, ↓State.at__safeEq, ↓State.servo_safeEq, ↓State.noteForward_safeEq, safeEq_mk, safeEq_parts]

theorem execTqHoldover_safeEq {t : Nat} {s : State} {s' : State} (h : execTqHoldover t s = .next s') : s'.safety = s.safety := by
  unfold execTqHoldover at h
  cases h
  repeat' first
    | with_reducible rfl
    | with_reducible apply safeEq_ite
    | (simp only [↓State.at__safeEq, safeEq_mk]; done)
    | split
    | simp only [↓State.at__safeEq, safeEq_mk, safeEq_parts]

theorem execPackTimeCommit_safeEq {t : Nat} {s : State} {s' : State} (h : execPackTimeCommit t s = .next s') : s'.safety = s.safety := by
  unfold execPackTimeCommit at h
  cases h
  split <;> simp only [↓State.at__safeEq, ↓State.commitPackTime_safeEq, safeEq_mk, safeEq_parts]

theorem execInnerTimeWord_safeEq {t k word : Nat} {s : State} {s' : State} (h : execInnerTimeWord t k word s = .next s') : s'.safety = s.safety := by
  unfold execInnerTimeWord at h
  cases h
  refine onDie_safeEq (fun _ => ?_) ?_
  · split <;> simp only [↓State.at__safeEq, ↓State.modDie_safeEq, ↓State.emit_safeEq, safeEq_mk, safeEq_parts]
  · simp only [↓State.at__safeEq, ↓State.modDie_safeEq, ↓State.emit_safeEq, safeEq_mk, safeEq_parts]

theorem execInnerTimeWordTimeout_safeEq {t k : Nat} {s : State} {s' : State} (h : execInnerTimeWordTimeout t k s = .next s') : s'.safe = s.safe := by
  unfold execInnerTimeWordTimeout at h
  cases h
  exact onDie_safeEq (fun _ => safeEq_ite ((State.modDie_safeEq ..).trans (State.at__safeEq ..)) (State.at__safeEq ..)) (State.at__safeEq ..)

theorem execIdentify_safeEq {t : Nat} {c : Cmd} {s : State} {s' : State} (h : execIdentify t c s = .next s') : s'.safety = s.safety := by
  unfold execIdentify at h
  cases h
  repeat' first
    | with_reducible rfl
    | with_reducible apply safeEq_ite
    | with_reducible refine State.serve_safeEq (fun _ ht => ?_) ?_
    | (simp only [↓State.at__safeEq, ↓State.completeData_safeEq, safeEq_mk, *]; done)
    | split
    | simp only [↓State.at__safeEq, ↓State.completeData_safeEq, safeEq_mk, safeEq_parts, *]

theorem execPing_safeEq {t : Nat} {c : Cmd} {s : State} {s' : State} (h : execPing t c s = .next s') : s'.safety = s.safety := by
  unfold execPing at h
  cases h
  repeat' first
    | with_reducible rfl
    | with_reducible apply safeEq_ite
    | with_reducible refine State.serve_safeEq (fun _ ht => ?_) ?_
    | (simp only [↓State.complete_safeEq, ↓State.at__safeEq, safeEq_mk, *]; done)
    | split
    | simp only [↓State.complete_safeEq, ↓State.at__safeEq, safeEq_mk, safeEq_parts, *]

theorem execStreamOpen_safeEq {t : Nat} {c : Cmd} {s : State} {s' : State} (h : execStreamOpen t c s = .next s') : s'.safety = s.safety := by
  unfold execStreamOpen at h
  cases h
  repeat' first
    | with_reducible rfl
    | with_reducible apply safeEq_ite
    | with_reducible refine State.serve_safeEq (fun _ ht => ?_) ?_
    | (simp only [↓State.complete_safeEq, ↓State.at__safeEq, ↓State.openSub_safeEq, safeEq_mk, *]; done)
    | split
    | simp only [↓State.complete_safeEq, ↓State.at__safeEq, ↓State.openSub_safeEq, safeEq_mk, safeEq_parts, *]

theorem execStreamClose_safeEq {t : Nat} {c : Cmd} {s : State} {s' : State} (h : execStreamClose t c s = .next s') : s'.safety = s.safety := by
  unfold execStreamClose at h
  cases h
  repeat' first
    | with_reducible rfl
    | with_reducible apply safeEq_ite
    | with_reducible refine State.serve_safeEq (fun _ ht => ?_) ?_
    | (simp only [↓State.endSub_safeEq, ↓State.modHif_safeEq, ↓State.at__safeEq, ↓State.endClosed_safeEq, ↓State.complete_safeEq, safeEq_mk, *]; done)
    | split
    | simp only [↓State.endSub_safeEq, ↓State.modHif_safeEq, ↓State.at__safeEq, ↓State.endClosed_safeEq, ↓State.complete_safeEq, safeEq_mk, safeEq_parts, *]

theorem execRecordRead_safeEq {t : Nat} {c : Cmd} {s : State} {s' : State} (h : execRecordRead t c s = .next s') : s'.safety = s.safety := by
  unfold execRecordRead at h
  cases h
  repeat' first
    | with_reducible rfl
    | with_reducible apply safeEq_ite
    | with_reducible refine State.serve_safeEq (fun _ ht => ?_) ?_
    | (simp only [↓State.complete_safeEq, ↓State.at__safeEq, ↓State.completeData_safeEq, safeEq_mk, *]; done)
    | split
    | simp only [↓State.complete_safeEq, ↓State.at__safeEq, ↓State.completeData_safeEq, safeEq_mk, safeEq_parts, *]

theorem execStoreRead_safeEq {t : Nat} {c : Cmd} {lost : List Nat} {s : State} {s' : State} (h : execStoreRead t c lost s = .next s') : s'.safety = s.safety := by
  unfold execStoreRead at h
  cases h
  repeat' first
    | with_reducible rfl
    | with_reducible apply safeEq_ite
    | with_reducible refine (foldl_safeEq (fun _ _ => ?_) _ _).trans ?_
    | with_reducible refine State.serve_safeEq (fun _ ht => ?_) ?_
    | (simp only [↓State.originate_safeEq, ↓State.at__safeEq, ↓State.finishRead_safeEq, ↓State.complete_safeEq, safeEq_mk, *]; done)
    | split
    | simp only [↓State.originate_safeEq, ↓State.at__safeEq, ↓State.finishRead_safeEq, ↓State.complete_safeEq, safeEq_mk, safeEq_parts, *]

theorem execCaptureArm_safeEq {t : Nat} {c : Cmd} {s : State} {s' : State} (h : execCaptureArm t c s = .next s') : s'.safety = s.safety := by
  unfold execCaptureArm at h
  cases h
  repeat' first
    | with_reducible rfl
    | with_reducible apply safeEq_ite
    | with_reducible refine State.serve_safeEq (fun _ ht => ?_) ?_
    | (simp only [↓State.complete_safeEq, ↓State.at__safeEq, ↓State.armCapture_safeEq, safeEq_mk, *]; done)
    | split
    | simp only [↓State.complete_safeEq, ↓State.at__safeEq, ↓State.armCapture_safeEq, safeEq_mk, safeEq_parts, *]

theorem execCaptureDisarm_safeEq {t : Nat} {c : Cmd} {s : State} {s' : State} (h : execCaptureDisarm t c s = .next s') : s'.safety = s.safety := by
  unfold execCaptureDisarm at h
  cases h
  repeat' first
    | with_reducible rfl
    | with_reducible apply safeEq_ite
    | with_reducible refine State.serve_safeEq (fun _ ht => ?_) ?_
    | (simp only [↓State.at__safeEq, ↓State.abortCapture_safeEq, ↓State.complete_safeEq, safeEq_mk, *]; done)
    | split
    | simp only [↓State.at__safeEq, ↓State.abortCapture_safeEq, ↓State.complete_safeEq, safeEq_mk, safeEq_parts, *]

theorem execCaptureFetch_safeEq {t : Nat} {c : Cmd} {lost : List Nat} {s : State} {s' : State} (h : execCaptureFetch t c lost s = .next s') : s'.safety = s.safety := by
  unfold execCaptureFetch at h
  cases h
  repeat' first
    | with_reducible rfl
    | with_reducible apply safeEq_ite
    | with_reducible refine (foldl_safeEq (fun _ _ => ?_) _ _).trans ?_
    | with_reducible refine State.serve_safeEq (fun _ ht => ?_) ?_
    | (simp only [↓State.at__safeEq, ↓State.completeData_safeEq, ↓State.releaseD3_safeEq, ↓State.complete_safeEq, safeEq_mk, *]; done)
    | split
    | simp only [↓State.at__safeEq, ↓State.completeData_safeEq, ↓State.releaseD3_safeEq, ↓State.complete_safeEq, safeEq_mk, safeEq_parts, *]

theorem execPowerStateRun_safeEq {t : Nat} {c : Cmd} {s : State} {s' : State} (h : execPowerStateRun t c s = .next s') : s'.safety = s.safety := by
  unfold execPowerStateRun at h
  cases h
  repeat' first
    | with_reducible rfl
    | with_reducible apply safeEq_ite
    | with_reducible refine State.serve_safeEq (fun _ ht => ?_) ?_
    | (simp only [↓State.complete_safeEq, ↓State.at__safeEq, ↓State.modPower_safeEq, safeEq_mk, *]; done)
    | split
    | simp only [↓State.complete_safeEq, ↓State.at__safeEq, ↓State.modPower_safeEq, safeEq_mk, safeEq_parts, *]

theorem execPowerStateDoze_safeEq {t : Nat} {c : Cmd} {s : State} {s' : State} (h : execPowerStateDoze t c s = .next s') : s'.safety = s.safety := by
  unfold execPowerStateDoze at h
  cases h
  repeat' first
    | with_reducible rfl
    | with_reducible apply safeEq_ite
    | with_reducible refine State.serve_safeEq (fun _ ht => ?_) ?_
    | (simp only [↓State.complete_safeEq, ↓State.at__safeEq, ↓State.modPower_safeEq, safeEq_mk, *]; done)
    | split
    | simp only [↓State.complete_safeEq, ↓State.at__safeEq, ↓State.modPower_safeEq, safeEq_mk, safeEq_parts, *]

theorem execSensorSearch_safeEq {t : Nat} {c : Cmd} {s : State} {s' : State} (h : execSensorSearch t c s = .next s') : s'.safety = s.safety := by
  unfold execSensorSearch at h
  cases h
  repeat' first
    | with_reducible rfl
    | with_reducible apply safeEq_ite
    | with_reducible refine State.onSwp_safeEq (fun _ => ?_) ?_
    | with_reducible refine State.serve_safeEq (fun _ ht => ?_) ?_
    | (simp only [↓State.complete_safeEq, ↓State.at__safeEq, ↓State.modSwp_safeEq, ↓State.startSearch_safeEq, safeEq_mk, *]; done)
    | split
    | simp only [↓State.complete_safeEq, ↓State.at__safeEq, ↓State.modSwp_safeEq, ↓State.startSearch_safeEq, safeEq_mk, safeEq_parts, *]

theorem execConfigRead_safeEq {t : Nat} {c : Cmd} {s : State} {s' : State} (h : execConfigRead t c s = .next s') : s'.safety = s.safety := by
  unfold execConfigRead at h
  cases h
  repeat' first
    | with_reducible rfl
    | with_reducible apply safeEq_ite
    | with_reducible refine State.serve_safeEq (fun _ ht => ?_) ?_
    | (simp only [↓State.at__safeEq, ↓State.readConfig_safeEq, safeEq_mk, *]; done)
    | split
    | simp only [↓State.at__safeEq, ↓State.readConfig_safeEq, safeEq_mk, safeEq_parts, *]

theorem execShadowWrite_safeEq {t : Nat} {c : Cmd} {data : List Byte} {s : State} {s' : State} (h : execShadowWrite t c data s = .next s') : s'.safety = s.safety := by
  unfold execShadowWrite at h
  cases h
  repeat' first
    | with_reducible rfl
    | with_reducible apply safeEq_ite
    | with_reducible refine State.serve_safeEq (fun _ ht => ?_) ?_
    | (simp only [State.modCfg, ↓State.complete_safeEq, ↓State.putShadow_safeEq, ↓State.at__safeEq, safeEq_mk, *]; done)
    | split
    | simp only [State.modCfg, ↓State.complete_safeEq, ↓State.putShadow_safeEq, ↓State.at__safeEq, safeEq_mk, safeEq_parts, *]

theorem execCommit_safeEq {t : Nat} {c : Cmd} {s : State} {s' : State} (h : execCommit t c s = .next s') : s'.safety = s.safety := by
  unfold execCommit at h
  cases h
  repeat' first
    | with_reducible rfl
    | with_reducible apply safeEq_ite
    | with_reducible refine State.serve_safeEq (fun _ ht => ?_) ?_
    | (simp only [↓State.complete_safeEq, ↓State.at__safeEq, ↓State.takeCommit_safeEq, safeEq_mk, *]; done)
    | split
    | simp only [↓State.complete_safeEq, ↓State.at__safeEq, ↓State.takeCommit_safeEq, safeEq_mk, safeEq_parts, *]

theorem execCommitRevert_safeEq {t : Nat} {c : Cmd} {s : State} {s' : State} (h : execCommitRevert t c s = .next s') : s'.safety = s.safety := by
  unfold execCommitRevert at h
  cases h
  repeat' first
    | with_reducible rfl
    | with_reducible apply safeEq_ite
    | with_reducible refine State.serve_safeEq (fun _ ht => ?_) ?_
    | (simp only [State.modCfg, ↓State.complete_safeEq, ↓State.at__safeEq, safeEq_mk, *]; done)
    | split
    | simp only [State.modCfg, ↓State.complete_safeEq, ↓State.at__safeEq, safeEq_mk, safeEq_parts, *]

theorem execShadowCopyComplete_safeEq {t : Nat} {s : State} {s' : State} (h : execShadowCopyComplete t s = .next s') : s'.safety = s.safety := by
  unfold execShadowCopyComplete at h
  cases h
  repeat' first
    | with_reducible rfl
    | with_reducible apply safeEq_ite
    | with_reducible refine (foldl_safeEq (fun _ _ => ?_) _ _).trans ?_
    | (simp only [State.modCfg, ↓State.putShadow_safeEq, ↓State.at__safeEq, safeEq_mk]; done)
    | split
    | simp only [State.modCfg, ↓State.putShadow_safeEq, ↓State.at__safeEq, safeEq_mk, safeEq_parts]

theorem execGroupGoReceive_safeEq {t : Nat} {s : State} {s' : State} (h : execGroupGoReceive t s = .next s') : s'.safety = s.safety := by
  unfold execGroupGoReceive at h
  cases h
  repeat' first
    | with_reducible rfl
    | with_reducible apply safeEq_ite
    | (simp only [↓State.at__safeEq, ↓State.takeGroupFrame_safeEq, ↓State.holdGo_safeEq, safeEq_mk]; done)
    | split
    | simp only [↓State.at__safeEq, ↓State.takeGroupFrame_safeEq, ↓State.holdGo_safeEq, safeEq_mk, safeEq_parts]

theorem execBalancePolicy_safeEq {t : Nat} {c : Cmd} {s s' : State} (h : execBalancePolicy t c s = .next s') : s'.safety = s.safety := by
  unfold execBalancePolicy at h
  cases h
  refine State.serve_safeEq (fun s ht => ?_) ?_
  · exact (State.balancePolicy_safeEq s c).trans ht
  · exact State.at__safeEq ..

theorem execHifReset_safeEq {t cause : Nat} {s : State} {s' : State} (h : execHifReset t cause s = .next s') : s'.safety = s.safety := by
  unfold execHifReset at h
  cases h
  repeat' first
    | with_reducible rfl
    | with_reducible apply safeEq_ite
    | (simp only [↓State.event_safeEq, ↓State.modHif_safeEq, ↓State.hifClear_safeEq, ↓State.at__safeEq, safeEq_mk]; done)
    | split
    | simp only [↓State.event_safeEq, ↓State.modHif_safeEq, ↓State.hifClear_safeEq, ↓State.at__safeEq, safeEq_mk, safeEq_parts]

theorem execHifEnable_safeEq {t value : Nat} {s : State} {s' : State} (h : execHifEnable t value s = .next s') : s'.safety = s.safety := by
  unfold execHifEnable at h
  cases h
  split <;> simp only [↓State.writeCtrl_safeEq, ↓State.at__safeEq, ↓State.undoze_safeEq, safeEq_mk, safeEq_parts]

theorem execHifShutdown_safeEq {t value : Nat} {s : State} {s' : State} (h : execHifShutdown t value s = .next s') : s'.safety = s.safety := by
  unfold execHifShutdown at h
  cases h
  split <;> simp only [↓State.writeCtrl_safeEq, ↓State.at__safeEq, ↓State.undoze_safeEq, safeEq_mk, safeEq_parts]

theorem execQueueEnable_safeEq {t off value : Nat} {s : State} {s' : State} (h : execQueueEnable t off value s = .next s') : s'.safety = s.safety := by
  unfold execQueueEnable at h
  cases h
  split <;> simp only [↓State.at__safeEq, ↓State.undoze_safeEq, ↓State.writeReg_safeEq, safeEq_mk, safeEq_parts]

theorem execQueueDisable_safeEq {t off value : Nat} {s : State} {s' : State} (h : execQueueDisable t off value s = .next s') : s'.safety = s.safety := by
  unfold execQueueDisable at h
  cases h
  split <;> simp only [↓State.at__safeEq, ↓State.undoze_safeEq, ↓State.writeReg_safeEq, safeEq_mk, safeEq_parts]

theorem execRegisterWrite_safeEq {t off value size : Nat} {s : State} {s' : State} (h : execRegisterWrite t off value size s = .next s') : s'.safety = s.safety := by
  unfold execRegisterWrite at h
  cases h
  repeat' first
    | with_reducible rfl
    | with_reducible apply safeEq_ite
    | (simp only [↓State.emit_safeEq, ↓State.undoze_safeEq, ↓State.barAccess_safeEq, ↓State.at__safeEq, ↓State.writeMsix_safeEq, ↓State.writeReg_safeEq, safeEq_mk]; done)
    | split
    | simp only [↓State.emit_safeEq, ↓State.undoze_safeEq, ↓State.barAccess_safeEq, ↓State.at__safeEq, ↓State.writeMsix_safeEq, ↓State.writeReg_safeEq, safeEq_mk, safeEq_parts]

theorem execKick_safeEq {t _value : Nat} {s : State} {s' : State} (h : execKick t _value s = .next s') : s'.safety = s.safety := by
  unfold execKick at h
  cases h
  split <;> simp only [↓State.at__safeEq, ↓State.undoze_safeEq, ↓State.kicked_safeEq, safeEq_mk, safeEq_parts]

theorem execDoorbellPoll_safeEq {t : Nat} {s : State} {s' : State} (h : execDoorbellPoll t s = .next s') : s'.safety = s.safety := by
  unfold execDoorbellPoll at h
  cases h
  split <;> simp only [↓State.at__safeEq, ↓State.startPoll_safeEq, safeEq_mk, safeEq_parts]

theorem execDoorbellReadComplete_safeEq {t : Nat} {words : List Nat} {s : State} {s' : State} (h : execDoorbellReadComplete t words s = .next s') : s'.safety = s.safety := by
  unfold execDoorbellReadComplete at h
  cases h
  repeat' first
    | with_reducible rfl
    | with_reducible apply safeEq_ite
    | with_reducible refine (foldl_safeEq (fun _ _ => ?_) _ _).trans ?_
    | (simp only [↓State.takeCqHead_safeEq, ↓State.modHif_safeEq, ↓State.takeSqTail_safeEq, ↓State.at__safeEq, ↓State.takeStrHead_safeEq, ↓State.checkDrain_safeEq, ↓State.startPoll_safeEq, ↓State.takeEqHead_safeEq, safeEq_mk]; done)
    | split
    | simp only [↓State.takeCqHead_safeEq, ↓State.modHif_safeEq, ↓State.takeSqTail_safeEq, ↓State.at__safeEq, ↓State.takeStrHead_safeEq, ↓State.checkDrain_safeEq, ↓State.startPoll_safeEq, ↓State.takeEqHead_safeEq, safeEq_mk, safeEq_parts]

theorem execDescriptorFetch_safeEq {t sq : Nat} {bytes listBytes data : List Byte} {s : State} {s' : State} (h : execDescriptorFetch t sq bytes listBytes data s = .next s') : s'.safety = s.safety := by
  unfold execDescriptorFetch at h
  cases h
  repeat' first
    | with_reducible rfl
    | with_reducible apply safeEq_ite
    | (simp only [↓State.at__safeEq, ↓State.emit_safeEq, ↓State.modHif_safeEq, ↓State.takeDescriptor_safeEq, ↓State.noteValid_safeEq, ↓State.putSq_safeEq, safeEq_mk]; done)
    | split
    | simp only [↓State.at__safeEq, ↓State.emit_safeEq, ↓State.modHif_safeEq, ↓State.takeDescriptor_safeEq, ↓State.noteValid_safeEq, ↓State.putSq_safeEq, safeEq_mk, safeEq_parts]

theorem execCommandTimeout_safeEq {t sq cid : Nat} {s : State} {s' : State} (h : execCommandTimeout t sq cid s = .next s') : s'.safety = s.safety := by
  unfold execCommandTimeout at h
  cases h
  repeat' first
    | with_reducible rfl
    | with_reducible apply safeEq_ite
    | (simp only [↓State.at__safeEq, ↓State.queueCompletion_safeEq, ↓State.startAll_safeEq, ↓State.finishBroadcast_safeEq, safeEq_mk]; done)
    | split
    | simp only [↓State.at__safeEq, ↓State.queueCompletion_safeEq, ↓State.startAll_safeEq, ↓State.finishBroadcast_safeEq, safeEq_mk, safeEq_parts]

theorem execStreamEntryWrite_safeEq {t ring : Nat} {ok : Bool} {s : State} {s' : State} (h : execStreamEntryWrite t ring ok s = .next s') : s'.safety = s.safety := by
  unfold execStreamEntryWrite at h
  cases h
  repeat' first
    | with_reducible rfl
    | with_reducible apply safeEq_ite
    | (simp only [↓State.writeStream_safeEq, ↓State.putStr_safeEq, ↓State.queueError_safeEq, ↓State.at__safeEq, ↓State.checkDrain_safeEq, ↓State.endClosed_safeEq, safeEq_mk]; done)
    | split
    | simp only [↓State.writeStream_safeEq, ↓State.putStr_safeEq, ↓State.queueError_safeEq, ↓State.at__safeEq, ↓State.checkDrain_safeEq, ↓State.endClosed_safeEq, safeEq_mk, safeEq_parts]

theorem execEventEntryWrite_safeEq {t : Nat} {ok : Bool} {s : State} {s' : State} (h : execEventEntryWrite t ok s = .next s') : s'.safety = s.safety := by
  unfold execEventEntryWrite at h
  cases h
  repeat' first
    | with_reducible rfl
    | with_reducible apply safeEq_ite
    | (simp only [↓State.hifFatal_safeEq, ↓State.at__safeEq, ↓State.writeEvent_safeEq, ↓State.checkDrain_safeEq, safeEq_mk]; done)
    | split
    | simp only [↓State.hifFatal_safeEq, ↓State.at__safeEq, ↓State.writeEvent_safeEq, ↓State.checkDrain_safeEq, safeEq_mk, safeEq_parts]

theorem execInterruptCoalesceExpire_safeEq {t kind idx : Nat} {s : State} {s' : State} (h : execInterruptCoalesceExpire t kind idx s = .next s') : s'.safety = s.safety := by
  unfold execInterruptCoalesceExpire at h
  cases h
  repeat' first
    | with_reducible apply safeEq_ite
    | exact (State.coalesced_safeEq (fun _ _ => State.putCq_safeEq ..)).trans (State.at__safeEq ..)
    | exact (State.coalesced_safeEq (fun _ _ => State.putStr_safeEq ..)).trans (State.at__safeEq ..)
    | exact (State.coalesced_safeEq (fun _ _ => State.putEq_safeEq ..)).trans (State.at__safeEq ..)
    | exact State.at__safeEq ..

theorem execMsixUnmask_safeEq {t vector : Nat} {s : State} {s' : State} (h : execMsixUnmask t vector s = .next s') : s'.safety = s.safety := by
  unfold execMsixUnmask at h
  cases h
  split <;> simp only [↓State.at__safeEq, ↓State.unmask_safeEq, safeEq_mk, safeEq_parts]

theorem execEventDelayReport_safeEq {t : Nat} {s : State} {s' : State} (h : execEventDelayReport t s = .next s') : s'.safety = s.safety := by
  unfold execEventDelayReport at h
  cases h
  split <;> simp only [↓State.at__safeEq, ↓State.event_safeEq, ↓State.modHif_safeEq, safeEq_mk, safeEq_parts]

theorem execHostReadTimeout_safeEq {t what idx : Nat} {acc : HostAccess} {s : State} {s' : State} (h : execHostReadTimeout t what idx acc s = .next s') : s'.safety = s.safety := by
  unfold execHostReadTimeout at h
  cases h
  repeat' first
    | with_reducible rfl
    | with_reducible apply safeEq_ite
    | (simp only [↓State.modHif_safeEq, ↓State.queueError_safeEq, ↓State.at__safeEq, ↓State.checkDrain_safeEq, ↓State.hifFatal_safeEq, ↓State.readFailed_safeEq, ↓State.writeFailed_safeEq, ↓State.putSq_safeEq, safeEq_mk]; done)
    | split
    | simp only [↓State.modHif_safeEq, ↓State.queueError_safeEq, ↓State.at__safeEq, ↓State.checkDrain_safeEq, ↓State.hifFatal_safeEq, ↓State.readFailed_safeEq, ↓State.writeFailed_safeEq, ↓State.putSq_safeEq, safeEq_mk, safeEq_parts]

theorem execCompletionFrameReceive_safeEq {t : Nat} {bytes : List Byte} {s : State} {s' : State} (h : execCompletionFrameReceive t bytes s = .next s') : s'.safety = s.safety := by
  unfold execCompletionFrameReceive at h
  cases h
  repeat' first
    | with_reducible rfl
    | with_reducible apply safeEq_ite
    | (simp only [↓State.assemble_safeEq, ↓State.modHif_safeEq, ↓State.accept_safeEq, ↓State.at__safeEq, ↓State.startAll_safeEq, ↓State.takeCompletion_safeEq, ↓State.notePrepared_safeEq, safeEq_mk]; done)
    | split
    | simp only [↓State.assemble_safeEq, ↓State.modHif_safeEq, ↓State.accept_safeEq, ↓State.at__safeEq, ↓State.startAll_safeEq, ↓State.takeCompletion_safeEq, ↓State.notePrepared_safeEq, safeEq_mk, safeEq_parts]

theorem execEventFrameReceive_safeEq {t : Nat} {bytes : List Byte} {s : State} {s' : State} (h : execEventFrameReceive t bytes s = .next s') : s'.safety = s.safety := by
  unfold execEventFrameReceive at h
  cases h
  repeat' first
    | with_reducible rfl
    | with_reducible apply safeEq_ite
    | (simp only [↓State.assemble_safeEq, ↓State.blackBox_safeEq, ↓State.modHif_safeEq, ↓State.accept_safeEq, ↓State.at__safeEq, ↓State.startAll_safeEq, ↓State.awake_safeEq, ↓State.drawBits_safeEq, safeEq_mk]; done)
    | split
    | simp only [↓State.assemble_safeEq, ↓State.blackBox_safeEq, ↓State.modHif_safeEq, ↓State.accept_safeEq, ↓State.at__safeEq, ↓State.startAll_safeEq, ↓State.awake_safeEq, ↓State.drawBits_safeEq, safeEq_mk, safeEq_parts]

theorem execRecordArrive_safeEq {t k : Nat} {intact : Bool} {s : State} {s' : State} (h : execRecordArrive t k intact s = .next s') : s'.safety = s.safety := by
  unfold execRecordArrive at h
  cases h
  repeat' first
    | with_reducible rfl
    | with_reducible apply safeEq_ite
    | with_reducible refine onDie_safeEq (fun _ => ?_) ?_
    | (simp only [↓State.dropRec_safeEq, ↓State.at__safeEq, ↓State.place_safeEq, ↓State.checkRejected_safeEq, ↓State.modDie_safeEq, safeEq_mk]; done)
    | split
    | simp only [↓State.dropRec_safeEq, ↓State.at__safeEq, ↓State.place_safeEq, ↓State.checkRejected_safeEq, ↓State.modDie_safeEq, safeEq_mk, safeEq_parts]

theorem execDieRecordResend_safeEq {t k : Nat} {s : State} {s' : State} (h : execDieRecordResend t k s = .next s') : s'.safety = s.safety := by
  unfold execDieRecordResend at h
  cases h
  repeat' first
    | with_reducible rfl
    | with_reducible apply safeEq_ite
    | with_reducible refine onDie_safeEq (fun _ => ?_) ?_
    | (simp only [↓State.at__safeEq, ↓State.placement_safeEq, ↓State.modDie_safeEq, ↓State.resend_safeEq, safeEq_mk]; done)
    | split
    | simp only [↓State.at__safeEq, ↓State.placement_safeEq, ↓State.modDie_safeEq, ↓State.resend_safeEq, safeEq_mk, safeEq_parts]

theorem execUnitProgramComplete_safeEq {t group : Nat} {ok : Bool} {s : State} {s' : State} (h : execUnitProgramComplete t group ok s = .next s') : s'.safety = s.safety := by
  unfold execUnitProgramComplete at h
  cases h
  repeat' first
    | with_reducible rfl
    | with_reducible apply safeEq_ite
    | (simp only [↓State.at__safeEq, ↓State.programHead_safeEq, safeEq_mk]; done)
    | split
    | simp only [↓State.at__safeEq, ↓State.programHead_safeEq, safeEq_mk, safeEq_parts]

theorem execD2UnitClose_safeEq {t : Nat} {s : State} {s' : State} (h : execD2UnitClose t s = .next s') : s'.safety = s.safety := by
  unfold execD2UnitClose at h
  cases h
  repeat' first
    | with_reducible rfl
    | with_reducible apply safeEq_ite
    | (simp only [↓State.at__safeEq, safeEq_mk]; done)
    | split
    | simp only [↓State.at__safeEq, safeEq_mk, safeEq_parts]

theorem execBucketAccrue_safeEq {t : Nat} {s : State} {s' : State} (h : execBucketAccrue t s = .next s') : s'.safety = s.safety := by
  unfold execBucketAccrue at h
  cases h
  split <;> simp only [↓State.at__safeEq, ↓State.moveRetired_safeEq, ↓State.startUnit_safeEq, ↓State.bucketFlag_safeEq, safeEq_mk, safeEq_parts]

theorem execStorageTempSample_safeEq {t : Nat} {temp : Int} {s : State} {s' : State} (h : execStorageTempSample t temp s = .next s') : s'.safety = s.safety := by
  unfold execStorageTempSample at h
  cases h
  repeat' first
    | with_reducible rfl
    | with_reducible apply safeEq_ite
    | with_reducible refine (foldl_safeEq (fun _ _ => ?_) _ _).trans ?_
    | (simp only [↓State.at__safeEq, ↓State.moveRetired_safeEq, ↓State.placement_safeEq, ↓State.writer_safeEq, safeEq_mk]; done)
    | split
    | simp only [↓State.at__safeEq, ↓State.moveRetired_safeEq, ↓State.placement_safeEq, ↓State.writer_safeEq, safeEq_mk, safeEq_parts]

theorem execBlockRefresh_safeEq {t block : Nat} {read : BlockRead} {s : State} {s' : State} (h : execBlockRefresh t block read s = .next s') : s'.safety = s.safety := by
  unfold execBlockRefresh at h
  cases h
  refine safeEq_ite (State.at__safeEq ..) ?_
  split
  · exact State.at__safeEq ..
  · rename_i r h
    have hr : r.safety = s.safety := (State.copyBlock_safeEq h).trans (State.at__safeEq ..)
    exact safeEq_ite ((State.writer_safeEq _).trans ((State.bucketFlag_safeEq _).trans ((State.retireBlock_safeEq ..).trans hr)))
      ((State.writer_safeEq _).trans ((State.bucketFlag_safeEq _).trans ((State.levelWear_safeEq _).trans (Eq.trans rfl hr))))

theorem execStorageDieFail_safeEq {t : Nat} {s : State} {s' : State} (h : execStorageDieFail t s = .next s') : s'.safety = s.safety := by
  unfold execStorageDieFail at h
  cases h
  simp only [↓State.at__safeEq, ↓State.failStore_safeEq, safeEq_mk, safeEq_parts]

theorem execSpillHolderRechoose_safeEq {t : Nat} {candidates : List Nat} {s : State} {s' : State} (h : execSpillHolderRechoose t candidates s = .next s') : s'.safety = s.safety := by
  unfold execSpillHolderRechoose at h
  cases h
  repeat' first
    | with_reducible rfl
    | with_reducible apply safeEq_ite
    | (simp only [↓State.at__safeEq, ↓State.writer_safeEq, ↓State.placement_safeEq, safeEq_mk]; done)
    | split
    | simp only [↓State.at__safeEq, ↓State.writer_safeEq, ↓State.placement_safeEq, safeEq_mk, safeEq_parts]

theorem execRecordRetentionExpire_safeEq {t : Nat} {s : State} {s' : State} (h : execRecordRetentionExpire t s = .next s') : s'.safety = s.safety := by
  unfold execRecordRetentionExpire at h
  cases h
  simp only [↓State.at__safeEq, safeEq_mk, safeEq_parts]

theorem execRecordFrameReceive_safeEq {t : Nat} {bytes : List Byte} {s : State} {s' : State} (h : execRecordFrameReceive t bytes s = .next s') : s'.safety = s.safety := by
  unfold execRecordFrameReceive at h
  cases h
  repeat' first
    | with_reducible rfl
    | with_reducible apply safeEq_ite
    | (simp only [↓State.assemble_safeEq, ↓State.blackBox_safeEq, ↓State.answerHolder_safeEq, ↓State.takeSpill_safeEq, ↓State.originate_safeEq, ↓State.accept_safeEq, ↓State.at__safeEq, ↓State.claimAll_safeEq, ↓State.takeHeld_safeEq, safeEq_mk]; done)
    | split
    | simp only [↓State.assemble_safeEq, ↓State.blackBox_safeEq, ↓State.answerHolder_safeEq, ↓State.takeSpill_safeEq, ↓State.originate_safeEq, ↓State.accept_safeEq, ↓State.at__safeEq, ↓State.claimAll_safeEq, ↓State.takeHeld_safeEq, safeEq_mk, safeEq_parts]

theorem execLocusEvaluate_safeEq {t : Nat} {load : List Rat} {cluster : Rat} {s : State} {s' : State} (h : execLocusEvaluate t load cluster s = .next s') : s'.safety = s.safety := by
  unfold execLocusEvaluate at h
  cases h
  repeat' first
    | with_reducible rfl
    | with_reducible apply safeEq_ite
    | with_reducible refine (foldl_safeEq (fun _ _ => ?_) _ _).trans ?_
    | (simp only [↓State.evaluateDie_safeEq, ↓State.modDies_safeEq, ↓State.at__safeEq, ↓State.adoptLocus_safeEq, ↓State.placement_safeEq, safeEq_mk]; done)
    | split
    | simp only [↓State.evaluateDie_safeEq, ↓State.modDies_safeEq, ↓State.at__safeEq, ↓State.adoptLocus_safeEq, ↓State.placement_safeEq, safeEq_mk, safeEq_parts]

theorem execTaskMove_safeEq {t k task : Nat} {complete : Bool} {s : State} {s' : State} (h : execTaskMove t k task complete s = .next s') : s'.safety = s.safety := by
  unfold execTaskMove at h
  cases h
  repeat' first
    | with_reducible rfl
    | with_reducible apply safeEq_ite
    | with_reducible refine onDie_safeEq (fun _ => ?_) ?_
    | (simp only [↓State.drawRats_safeEq, ↓State.at__safeEq, ↓State.placement_safeEq, ↓State.modDie_safeEq, safeEq_mk]; done)
    | split
    | simp only [↓State.drawRats_safeEq, ↓State.at__safeEq, ↓State.placement_safeEq, ↓State.modDie_safeEq, safeEq_mk, safeEq_parts]

theorem execRailRetry_safeEq {t rail : Nat} {s : State} {s' : State} (h : execRailRetry t rail s = .next s') : s'.safety = s.safety := by
  unfold execRailRetry at h
  cases h
  repeat' first
    | with_reducible rfl
    | with_reducible apply safeEq_ite
    | (simp only [↓State.at__safeEq, ↓State.modRail_safeEq, safeEq_mk]; done)
    | split
    | simp only [↓State.at__safeEq, ↓State.modRail_safeEq, safeEq_mk, safeEq_parts]

theorem execRailCounterCopy_safeEq {t : Nat} {s : State} {s' : State} (h : execRailCounterCopy t s = .next s') : s'.safety = s.safety := by
  unfold execRailCounterCopy at h
  cases h
  split <;> simp only [↓State.at__safeEq, ↓State.copyCounters_safeEq, ↓State.accrueTest_safeEq, ↓State.modPower_safeEq, safeEq_mk, safeEq_parts]

theorem execHoldCharged_safeEq {t mv : Nat} {s : State} {s' : State} (h : execHoldCharged t mv s = .next s') : s'.safety = s.safety := by
  unfold execHoldCharged at h
  cases h
  repeat' first
    | with_reducible rfl
    | with_reducible apply safeEq_ite
    | (simp only [↓State.at__safeEq, ↓State.modRail_safeEq, ↓State.event_safeEq, ↓State.setHoldEff_safeEq, ↓State.modPower_safeEq, safeEq_mk]; done)
    | split
    | simp only [↓State.at__safeEq, ↓State.modRail_safeEq, ↓State.event_safeEq, ↓State.setHoldEff_safeEq, ↓State.modPower_safeEq, safeEq_mk, safeEq_parts]

theorem execHoldLow_safeEq {t mv : Nat} {s : State} {s' : State} (h : execHoldLow t mv s = .next s') : s'.safety = s.safety := by
  unfold execHoldLow at h
  cases h
  split <;> simp only [↓State.at__safeEq, ↓State.setHoldEff_safeEq, ↓State.modPower_safeEq, ↓State.countRail_safeEq, safeEq_mk, safeEq_parts]

theorem execHoldChargeTimeout_safeEq {t : Nat} {s : State} {s' : State} (h : execHoldChargeTimeout t s = .next s') : s'.safety = s.safety := by
  unfold execHoldChargeTimeout at h
  cases h
  split <;> simp only [↓State.at__safeEq, ↓State.event_safeEq, ↓State.modPower_safeEq, ↓State.countRail_safeEq, safeEq_mk, safeEq_parts]

theorem execPowerUpSequence_safeEq {t : Nat} {strap : List Nat} {s : State} {s' : State} (h : execPowerUpSequence t strap s = .next s') : s'.safety = s.safety := by
  unfold execPowerUpSequence at h
  cases h
  repeat' first
    | with_reducible rfl
    | with_reducible apply safeEq_ite
    | (simp only [↓State.at__safeEq, ↓State.modRail_safeEq, ↓State.takeStrap_safeEq, ↓State.modPower_safeEq, ↓State.startUp_safeEq, safeEq_mk]; done)
    | split
    | simp only [↓State.at__safeEq, ↓State.modRail_safeEq, ↓State.takeStrap_safeEq, ↓State.modPower_safeEq, ↓State.startUp_safeEq, safeEq_mk, safeEq_parts]

theorem execPowerUpRetry_safeEq {t : Nat} {s : State} {s' : State} (h : execPowerUpRetry t s = .next s') : s'.safety = s.safety := by
  unfold execPowerUpRetry at h
  cases h
  repeat' first
    | with_reducible rfl
    | with_reducible apply safeEq_ite
    | (simp only [↓State.at__safeEq, ↓State.modPower_safeEq, ↓State.startUp_safeEq, safeEq_mk]; done)
    | split
    | simp only [↓State.at__safeEq, ↓State.modPower_safeEq, ↓State.startUp_safeEq, safeEq_mk, safeEq_parts]

theorem execShutdownRestart_safeEq {t : Nat} {s : State} {s' : State} (h : execShutdownRestart t s = .next s') : s'.safety = s.safety := by
  unfold execShutdownRestart at h
  cases h
  repeat' first
    | with_reducible rfl
    | with_reducible apply safeEq_ite
    | (simp only [↓State.at__safeEq, ↓State.modPower_safeEq, safeEq_mk]; done)
    | split
    | simp only [↓State.at__safeEq, ↓State.modPower_safeEq, safeEq_mk, safeEq_parts]

theorem execDozeEnter_safeEq {t : Nat} {s : State} {s' : State} (h : execDozeEnter t s = .next s') : s'.safety = s.safety := by
  unfold execDozeEnter at h
  cases h
  repeat' first
    | with_reducible rfl
    | with_reducible apply safeEq_ite
    | (simp only [↓State.modPower_safeEq, ↓State.at__safeEq, ↓State.doze_safeEq, safeEq_mk]; done)
    | split
    | simp only [↓State.modPower_safeEq, ↓State.at__safeEq, ↓State.doze_safeEq, safeEq_mk, safeEq_parts]

theorem execDozeExit_safeEq {t : Nat} {s : State} {s' : State} (h : execDozeExit t s = .next s') : s'.safety = s.safety := by
  unfold execDozeExit at h
  cases h
  split <;> simp only [↓State.at__safeEq, ↓State.undoze_safeEq, safeEq_mk, safeEq_parts]

theorem execWakeSource_safeEq {t code : Nat} {s : State} {s' : State} (h : execWakeSource t code s = .next s') : s'.safety = s.safety := by
  unfold execWakeSource at h
  cases h
  split <;> simp only [↓State.at__safeEq, ↓State.wake_safeEq, safeEq_mk, safeEq_parts]

theorem execSleepTimerExpire_safeEq {t : Nat} {s : State} {s' : State} (h : execSleepTimerExpire t s = .next s') : s'.safety = s.safety := by
  unfold execSleepTimerExpire at h
  cases h
  split <;> simp only [↓State.at__safeEq, ↓State.wake_safeEq, safeEq_mk, safeEq_parts]

theorem execSleepListenWindow_safeEq {t : Nat} {side : Side} {s : State} {s' : State} (h : execSleepListenWindow t side s = .next s') : s'.safety = s.safety := by
  unfold execSleepListenWindow at h
  cases h
  repeat' first
    | with_reducible rfl
    | with_reducible apply safeEq_ite
    | (simp only [↓State.at__safeEq, ↓State.modPort_safeEq, safeEq_mk]; done)
    | split
    | simp only [↓State.at__safeEq, ↓State.modPort_safeEq, safeEq_mk, safeEq_parts]

theorem execWakeRunReceive_safeEq {t : Nat} {side : Side} {durationNs : Nat} {s : State} {s' : State} (h : execWakeRunReceive t side durationNs s = .next s') : s'.safety = s.safety := by
  unfold execWakeRunReceive at h
  cases h
  split <;> simp only [↓State.at__safeEq, ↓State.wake_safeEq, ↓State.emit_safeEq, safeEq_mk, safeEq_parts]

theorem execLongBeaconDetect_safeEq {t : Nat} {side : Side} {bits : List Bool} {s : State} {s' : State} (h : execLongBeaconDetect t side bits s = .next s') : s'.safety = s.safety := by
  unfold execLongBeaconDetect at h
  cases h
  repeat' first
    | with_reducible rfl
    | with_reducible apply safeEq_ite
    | (simp only [↓State.at__safeEq, ↓State.wake_safeEq, safeEq_mk]; done)
    | split
    | simp only [↓State.at__safeEq, ↓State.wake_safeEq, safeEq_mk, safeEq_parts]

theorem execRstNRelease_safeEq {t : Nat} {strap : List Nat} {s : State} {s' : State} (h : execRstNRelease t strap s = .next s') : s'.safety = s.safety := by
  unfold execRstNRelease at h
  cases h
  split <;> simp only [↓State.at__safeEq, ↓State.endReset_safeEq, safeEq_mk, safeEq_parts]

theorem execRstNStuck_safeEq {t : Nat} {strap : List Nat} {s : State} {s' : State} (h : execRstNStuck t strap s = .next s') : s'.safety = s.safety := by
  unfold execRstNStuck at h
  cases h
  split <;> simp only [↓State.at__safeEq, ↓State.endReset_safeEq, ↓State.modPower_safeEq, safeEq_mk, safeEq_parts]

theorem execRstIgnoredClear_safeEq {t : Nat} {s : State} {s' : State} (h : execRstIgnoredClear t s = .next s') : s'.safety = s.safety := by
  unfold execRstIgnoredClear at h
  cases h
  simp only [↓State.at__safeEq, ↓State.modPower_safeEq, safeEq_mk, safeEq_parts]

theorem execDieIsolationTimeout_safeEq {t k : Nat} {s : State} {s' : State} (h : execDieIsolationTimeout t k s = .next s') : s'.safety = s.safety := by
  unfold execDieIsolationTimeout at h
  cases h
  refine onDie_safeEq (fun _ => ?_) ?_
  · split <;> simp only [↓State.at__safeEq, ↓State.precOff_safeEq, safeEq_mk, safeEq_parts]
  · simp only [↓State.at__safeEq, ↓State.precOff_safeEq, safeEq_mk, safeEq_parts]

theorem execSliceStart_safeEq {t k : Nat} {s : State} {s' : State} (h : execSliceStart t k s = .next s') : s'.safety = s.safety := by
  unfold execSliceStart at h
  cases h
  repeat' first
    | with_reducible rfl
    | with_reducible apply safeEq_ite
    | (simp only [↓State.at__safeEq, ↓State.accrueTest_safeEq, ↓State.modTest_safeEq, ↓State.startSlice_safeEq, safeEq_mk]; done)
    | split
    | simp only [↓State.at__safeEq, ↓State.accrueTest_safeEq, ↓State.modTest_safeEq, ↓State.startSlice_safeEq, safeEq_mk, safeEq_parts]

theorem execSelftestOverdue_safeEq {t k block : Nat} {s : State} {s' : State} (h : execSelftestOverdue t k block s = .next s') : s'.safety = s.safety := by
  unfold execSelftestOverdue at h
  cases h
  repeat' first
    | with_reducible rfl
    | with_reducible apply safeEq_ite
    | (simp only [↓State.at__safeEq, ↓State.dieEvent_safeEq, ↓State.accrueTest_safeEq, ↓State.modTest_safeEq, ↓State.event_safeEq, safeEq_mk]; done)
    | split
    | simp only [↓State.at__safeEq, ↓State.dieEvent_safeEq, ↓State.accrueTest_safeEq, ↓State.modTest_safeEq, ↓State.event_safeEq, safeEq_mk, safeEq_parts]

theorem execChkOpen_safeEq {t unit ctrl : Nat} {s : State} {s' : State} (h : execChkOpen t unit ctrl s = .next s') : s'.safety = s.safety := by
  unfold execChkOpen at h
  cases h
  split <;> simp only [↓State.at__safeEq, ↓State.modChk_safeEq, safeEq_mk, safeEq_parts]

theorem execChkDataWrite_safeEq {t unit width value : Nat} {s : State} {s' : State} (h : execChkDataWrite t unit width value s = .next s') : s'.safety = s.safety := by
  unfold execChkDataWrite at h
  cases h
  split <;> simp only [↓State.at__safeEq, ↓State.modChk_safeEq, safeEq_mk, safeEq_parts]

theorem execChkClose_safeEq {t unit ctrl : Nat} {s : State} {s' : State} (h : execChkClose t unit ctrl s = .next s') : s'.safety = s.safety := by
  unfold execChkClose at h
  cases h
  split <;> simp only [↓State.at__safeEq, ↓State.modChk_safeEq, safeEq_mk, safeEq_parts]

theorem execCalEarlyEnd_safeEq {t : Nat} {c : Cmd} {s : State} {s' : State} (h : execCalEarlyEnd t c s = .next s') : s'.safety = s.safety := by
  unfold execCalEarlyEnd at h
  cases h
  repeat' first
    | with_reducible rfl
    | with_reducible apply safeEq_ite
    | with_reducible refine State.serve_safeEq (fun _ ht => ?_) ?_
    | (simp only [↓State.complete_safeEq, ↓State.at__safeEq, ↓State.closeRun_safeEq, safeEq_mk, *]; done)
    | split
    | simp only [↓State.complete_safeEq, ↓State.at__safeEq, ↓State.closeRun_safeEq, safeEq_mk, safeEq_parts, *]

theorem execCalReset_safeEq {t : Nat} {c : Cmd} {s : State} {s' : State} (h : execCalReset t c s = .next s') : s'.safety = s.safety := by
  unfold execCalReset at h
  cases h
  repeat' first
    | with_reducible rfl
    | with_reducible apply safeEq_ite
    | with_reducible refine State.serve_safeEq (fun _ ht => ?_) ?_
    | (simp only [↓State.complete_safeEq, ↓State.at__safeEq, ↓State.resetCal_safeEq, safeEq_mk, *]; done)
    | split
    | simp only [↓State.complete_safeEq, ↓State.at__safeEq, ↓State.resetCal_safeEq, safeEq_mk, safeEq_parts, *]

theorem execCheckCompute_safeEq {t : Nat} {c : Cmd} {data : List Byte} {s : State} {s' : State} (h : execCheckCompute t c data s = .next s') : s'.safety = s.safety := by
  unfold execCheckCompute at h
  cases h
  repeat' first
    | with_reducible rfl
    | with_reducible apply safeEq_ite
    | with_reducible refine State.serve_safeEq (fun _ ht => ?_) ?_
    | (simp only [↓State.complete_safeEq, ↓State.at__safeEq, ↓State.computeCheck_safeEq, safeEq_mk, *]; done)
    | split
    | simp only [↓State.complete_safeEq, ↓State.at__safeEq, ↓State.computeCheck_safeEq, safeEq_mk, safeEq_parts, *]

theorem execThermalSample_safeEq {t : Nat} {temps : List Int} {s : State} {s' : State} (h : execThermalSample t temps s = .next s') : s'.safety = s.safety := by
  unfold execThermalSample at h
  cases h
  split <;> simp only [↓State.at__safeEq, ↓State.raiseSteps_safeEq, safeEq_mk, safeEq_parts]

theorem execThermalStepDown_safeEq {t : Nat} {s : State} {s' : State} (h : execThermalStepDown t s = .next s') : s'.safety = s.safety := by
  unfold execThermalStepDown at h
  cases h
  repeat' first
    | with_reducible rfl
    | with_reducible apply safeEq_ite
    | (simp only [↓State.at__safeEq, ↓State.setStep_safeEq, safeEq_mk]; done)
    | split
    | simp only [↓State.at__safeEq, ↓State.setStep_safeEq, safeEq_mk, safeEq_parts]

theorem execDieOverheat_safeEq {t k : Nat} {s : State} {s' : State} (h : execDieOverheat t k s = .next s') : s'.safety = s.safety := by
  unfold execDieOverheat at h
  cases h
  refine onDie_safeEq (fun _ => ?_) ?_
  · split <;> simp only [↓State.at__safeEq, ↓State.modDie_safeEq, ↓State.precOff_safeEq, safeEq_mk, safeEq_parts]
  · simp only [↓State.at__safeEq, ↓State.modDie_safeEq, ↓State.precOff_safeEq, safeEq_mk, safeEq_parts]

theorem execDieCooled_safeEq {t k : Nat} {s : State} {s' : State} (h : execDieCooled t k s = .next s') : s'.safety = s.safety := by
  unfold execDieCooled at h
  cases h
  refine onDie_safeEq (fun _ => ?_) ?_ <;> simp only [↓State.at__safeEq, ↓State.modDie_safeEq, safeEq_mk, safeEq_parts]

theorem execMeterCommit_safeEq {t : Nat} {s : State} {s' : State} (h : execMeterCommit t s = .next s') : s'.safety = s.safety := by
  unfold execMeterCommit at h
  cases h
  repeat' first
    | with_reducible rfl
    | with_reducible apply safeEq_ite
    | (simp only [↓State.at__safeEq, ↓State.actDue_safeEq, ↓State.formStatements_safeEq, ↓State.commitMeter_safeEq, safeEq_mk]; done)
    | split
    | simp only [↓State.at__safeEq, ↓State.actDue_safeEq, ↓State.formStatements_safeEq, ↓State.commitMeter_safeEq, safeEq_mk, safeEq_parts]

theorem execMeterStatement_safeEq {t : Nat} {c : Cmd} {s : State} {s' : State} (h : execMeterStatement t c s = .next s') : s'.safety = s.safety := by
  unfold execMeterStatement at h
  cases h
  repeat' first
    | with_reducible rfl
    | with_reducible apply safeEq_ite
    | with_reducible refine State.serve_safeEq (fun _ ht => ?_) ?_
    | (simp only [↓State.at__safeEq, State.modTrust, safeEq_mk, *]; done)
    | split
    | simp only [↓State.at__safeEq, State.modTrust, safeEq_mk, safeEq_parts, *]

theorem execMeterSnapshot_safeEq {t : Nat} {s : State} {s' : State} (h : execMeterSnapshot t s = .next s') : s'.safety = s.safety := by
  unfold execMeterSnapshot at h
  cases h
  split <;> simp only [↓State.at__safeEq, ↓State.blackBox_safeEq, safeEq_mk, safeEq_parts]

theorem execHistoryPeriod_safeEq {t : Nat} {s : State} {s' : State} (h : execHistoryPeriod t s = .next s') : s'.safety = s.safety := by
  unfold execHistoryPeriod at h
  cases h
  split <;> simp only [↓State.at__safeEq, ↓State.historyBody_safeEq, ↓State.blackBox_safeEq, State.modTrust, safeEq_mk, safeEq_parts]

theorem execTrustChallenge_safeEq {t : Nat} {c : Cmd} {s : State} {s' : State} (h : execTrustChallenge t c s = .next s') : s'.safety = s.safety := by
  unfold execTrustChallenge at h
  cases h
  refine State.serve_safeEq (fun u hu => ?_) (State.at__safeEq ..)
  have hn : ∀ (v : State) (n : Option (List Byte × Nat)), (v.modTrust fun x => { x with nonce := n }).safety = v.safety := fun _ _ => rfl
  refine (State.completeData_safeEq ..).trans ?_
  split
  · exact (hn _ _).trans ((State.drawBytes_safeEq ..).trans hu)
  · exact (State.sign_safeEq ..).trans ((hn _ _).trans ((State.drawBytes_safeEq ..).trans hu))

theorem execFirewallViolation_safeEq {t : Nat} {s : State} {s' : State} (h : execFirewallViolation t s = .next s') : s'.safety = s.safety := by
  unfold execFirewallViolation at h
  cases h
  simp only [↓State.at__safeEq, State.modTrust, safeEq_mk, safeEq_parts]

theorem execFirmwareStage_safeEq {t : Nat} {c : Cmd} {data : List Byte} {s : State} {s' : State} (h : execFirmwareStage t c data s = .next s') : s'.safety = s.safety := by
  unfold execFirmwareStage at h
  cases h
  repeat' first
    | with_reducible rfl
    | with_reducible apply safeEq_ite
    | with_reducible refine State.serve_safeEq (fun _ ht => ?_) ?_
    | (simp only [↓State.at__safeEq, ↓State.stageFirmware_safeEq, safeEq_mk, *]; done)
    | split
    | simp only [↓State.at__safeEq, ↓State.stageFirmware_safeEq, safeEq_mk, safeEq_parts, *]

theorem execFirmwareFrameReceive_safeEq {t : Nat} {bytes : List Byte} {s : State} {s' : State} (h : execFirmwareFrameReceive t bytes s = .next s') : s'.safety = s.safety := by
  unfold execFirmwareFrameReceive at h
  cases h
  repeat' first
    | with_reducible rfl
    | with_reducible apply safeEq_ite
    | with_reducible refine State.serve_safeEq (fun _ ht => ?_) ?_
    | (simp only [↓State.at__safeEq, ↓State.stageFirmware_safeEq, ↓State.assemble_safeEq, ↓State.noteValid_safeEq, ↓State.accept_safeEq, safeEq_mk, *]; done)
    | split
    | simp only [↓State.at__safeEq, ↓State.stageFirmware_safeEq, ↓State.assemble_safeEq, ↓State.noteValid_safeEq, ↓State.accept_safeEq, safeEq_mk, safeEq_parts, *]

theorem execFirmwareVerify_safeEq {t : Nat} {c : Cmd} {s : State} {s' : State} (h : execFirmwareVerify t c s = .next s') : s'.safety = s.safety := by
  unfold execFirmwareVerify at h
  cases h
  repeat' first
    | with_reducible rfl
    | with_reducible apply safeEq_ite
    | with_reducible refine State.withStaged_safeEq (fun _ _ ht => ?_) ?_
    | with_reducible refine State.withStaged_safeEq (fun _ _ ht2 => ?_) ?_
    | with_reducible refine State.serve_safeEq (fun _ ht => ?_) ?_
    | (simp only [↓State.complete_safeEq, ↓State.at__safeEq, safeEq_mk, *]; done)
    | split
    | simp only [↓State.complete_safeEq, ↓State.at__safeEq, safeEq_mk, safeEq_parts, *]

theorem execFirmwareActivate_safeEq {t : Nat} {c : Cmd} {starts : Bool} {s : State} {s' : State} (h : execFirmwareActivate t c starts s = .next s') : s'.safety = s.safety := by
  unfold execFirmwareActivate at h
  cases h
  repeat' first
    | with_reducible rfl
    | with_reducible apply safeEq_ite
    | with_reducible refine State.withStaged_safeEq (fun _ _ ht => ?_) ?_
    | with_reducible refine State.withStaged_safeEq (fun _ _ ht2 => ?_) ?_
    | with_reducible refine State.serve_safeEq (fun _ ht => ?_) ?_
    | (simp only [↓State.complete_safeEq, ↓State.at__safeEq, ↓State.startActivation_safeEq, State.modTrust, safeEq_mk, *]; done)
    | split
    | simp only [↓State.complete_safeEq, ↓State.at__safeEq, ↓State.startActivation_safeEq, State.modTrust, safeEq_mk, safeEq_parts, *]

theorem execFirmwareReturnPrevious_safeEq {t : Nat} {c : Cmd} {starts : Bool} {s : State} {s' : State} (h : execFirmwareReturnPrevious t c starts s = .next s') : s'.safety = s.safety := by
  unfold execFirmwareReturnPrevious at h
  cases h
  repeat' first
    | with_reducible rfl
    | with_reducible apply safeEq_ite
    | with_reducible refine State.serve_safeEq (fun _ ht => ?_) ?_
    | (simp only [↓State.complete_safeEq, ↓State.at__safeEq, ↓State.verifyImage_safeEq, ↓State.startActivation_safeEq, safeEq_mk, *]; done)
    | split
    | simp only [↓State.complete_safeEq, ↓State.at__safeEq, ↓State.verifyImage_safeEq, ↓State.startActivation_safeEq, safeEq_mk, safeEq_parts, *]

theorem execSpanReady_safeEq {t : Nat} {s : State} {s' : State} (h : execSpanReady t s = .next s') : s'.safety = s.safety := by
  unfold execSpanReady at h
  cases h
  repeat' first
    | with_reducible rfl
    | with_reducible apply safeEq_ite
    | (simp only [↓State.complete_safeEq, ↓State.at__safeEq, ↓State.actDue_safeEq, ↓State.flipSpan_safeEq, ↓State.noteImage_safeEq, safeEq_mk]; done)
    | split
    | simp only [↓State.complete_safeEq, ↓State.at__safeEq, ↓State.actDue_safeEq, ↓State.flipSpan_safeEq, ↓State.noteImage_safeEq, safeEq_mk, safeEq_parts]

theorem execSpanReadyTimeout_safeEq {t : Nat} {s : State} {s' : State} (h : execSpanReadyTimeout t s = .next s') : s'.safety = s.safety := by
  unfold execSpanReadyTimeout at h
  cases h
  repeat' first
    | with_reducible rfl
    | with_reducible apply safeEq_ite
    | (simp only [↓State.at__safeEq, ↓State.actDue_safeEq, ↓State.noteImage_safeEq, ↓State.complete_safeEq, State.modTrust, safeEq_mk]; done)
    | split
    | simp only [↓State.at__safeEq, ↓State.actDue_safeEq, ↓State.noteImage_safeEq, ↓State.complete_safeEq, State.modTrust, safeEq_mk, safeEq_parts]

theorem execSpanStop_safeEq {t : Nat} {s : State} {s' : State} (h : execSpanStop t s = .next s') : s'.safety = s.safety := by
  unfold execSpanStop at h
  cases h
  repeat' first
    | with_reducible rfl
    | with_reducible apply safeEq_ite
    | (simp only [↓State.at__safeEq, ↓State.accrueTest_safeEq, ↓State.flipSpan_safeEq, ↓State.noteImage_safeEq, State.modTrust, safeEq_mk]; done)
    | split
    | simp only [↓State.at__safeEq, ↓State.accrueTest_safeEq, ↓State.flipSpan_safeEq, ↓State.noteImage_safeEq, State.modTrust, safeEq_mk, safeEq_parts]

theorem execSvnCommit_safeEq {t image : Nat} {s s' : State} (h : execSvnCommit t image s = .next s') : s'.safety = s.safety := by
  unfold execSvnCommit at h
  cases h
  repeat' first
    | with_reducible rfl
    | with_reducible apply safeEq_ite
    | (simp only [↓State.at__safeEq, ↓State.accrueTest_safeEq, State.modTrust, safeEq_mk, *]; done)
    | rfl
    | split

theorem execBlackboxRecordWrite_safeEq {t : Nat} {okA okB : Bool} {s : State} {s' : State} (h : execBlackboxRecordWrite t okA okB s = .next s') : s'.safety = s.safety := by
  unfold execBlackboxRecordWrite at h
  cases h
  split <;> simp only [↓State.at__safeEq, ↓State.writeBb_safeEq, safeEq_mk, safeEq_parts]

theorem execBlackboxRead_safeEq {t : Nat} {c : Cmd} {s : State} {s' : State} (h : execBlackboxRead t c s = .next s') : s'.safety = s.safety := by
  unfold execBlackboxRead at h
  cases h
  repeat' first
    | with_reducible rfl
    | with_reducible apply safeEq_ite
    | with_reducible refine State.serve_safeEq (fun _ ht => ?_) ?_
    | (simp only [↓State.at__safeEq, ↓State.completeData_safeEq, safeEq_mk, *]; done)
    | split
    | simp only [↓State.at__safeEq, ↓State.completeData_safeEq, safeEq_mk, safeEq_parts, *]

theorem execLifeGenkey_safeEq {t : Nat} {c : Cmd} {data : List Byte} {s s' : State} (h : execLifeGenkey t c data s = .next s') :
    s'.safety = s.safety := by
  unfold execLifeGenkey at h
  cases h
  refine State.serve_safeEq (fun s ht => ?_) ?_
  · refine (State.lifecycle_safeEq fun s m => ?_).trans ht
    simp only [State.complete_safeEq, State.blackBox_safeEq, State.lifeEvent_safeEq, State.modTrust, safeEq_mk]
    exact State.drawBits_safeEq ..
  · exact State.at__safeEq ..

theorem execLifeUpdate_safeEq {t : Nat} {c : Cmd} {data : List Byte} {s s' : State} (h : execLifeUpdate t c data s = .next s') :
    s'.safety = s.safety := by
  unfold execLifeUpdate at h
  cases h
  refine State.serve_safeEq (fun s ht => ?_) ?_
  · refine (State.lifecycle_safeEq fun s m => ?_).trans ht
    simp only [State.complete_safeEq, State.sealRecord_safeEq, State.lifeEvent_safeEq, State.modTrust, safeEq_mk]
    rfl
  · exact State.at__safeEq ..

theorem execDebugObserveOpen_safeEq {t : Nat} {s : State} {s' : State} (h : execDebugObserveOpen t s = .next s') : s'.safety = s.safety := by
  unfold execDebugObserveOpen at h
  cases h
  split <;> simp only [↓State.at__safeEq, ↓State.debugRecord_safeEq, ↓State.event_safeEq, State.modTrust, safeEq_mk, safeEq_parts]

end Sys2Proof.Machine
end

