-- ==== Sys2Proof/WellFormed.lean ====
section
/-! DEFINITION. Which commands are well formed: every operand lies in the range of what it stands for. The meanings do
not rest on it; a command that is not well formed stands for no happening of the part. -/

namespace Sys2Proof

/-- A number lies in a range. -/
def inRange (lo hi n : Nat) : Bool := decide (lo ≤ n) && decide (n ≤ hi)

/-- A number fits in 32 bits. -/
def w32 (n : Nat) : Bool := decide (n < 2 ^ 32)

/-- A descriptor whose fields fit their widths (R329). -/
def Cmd.wf (c : Cmd) : Bool :=
  decide (c.sq < 16) && decide (c.opcode < 256) && decide (c.flags < 256) && decide (c.cid < 65536) && decide (c.dest < 256) &&
    decide (c.target < 256) && decide (c.timeout < 65536) && decide (c.bufAddr < 2 ^ 64) && decide (c.bufLen < 2 ^ 32) && c.param.length == 40 &&
    decide (c.gen < 65536)

/-- The command is well formed. -/
def Instr.wf (i : Instr) : Bool :=
  match i with
  | .innerLinkBroken _ idx0 => decide (idx0 < 8)
  | .innerLinkRestored _ idx0 => decide (idx0 < 8)
  | .dieLost _ k => inRange 1 7 k
  | .rolePadChange _ _ => true
  | .precisionSample _ k v ovl _ bal => inRange 1 7 k && v.length == 29 && ovl.length == 29 && bal.length == 24
  | .spareDwellStep _ k _ _ => inRange 1 7 k
  | .warmExpire _ k => inRange 1 7 k
  | .refMonitorSample _ k _ => inRange 1 7 k
  | .refIntervalClose _ k => inRange 1 7 k
  | .gateWindowOpen _ k => inRange 1 7 k
  | .gateWindowClose _ k => inRange 1 7 k
  | .fastFrameHold _ k v _ _ => inRange 1 7 k && v.volts.length == 26 && v.bal.length == 24
  | .captureTimerTrigger _ k => inRange 1 7 k
  | .syncInEdge _ _ _ => true
  | .carrierBeaconReceive _ _ _ => true
  | .captureEdgeTimeout _ k => inRange 1 7 k
  | .captureBlockDrain _ k => inRange 1 7 k
  | .seqWord _ k _ _ _ => inRange 1 7 k
  | .seqEntryEnd _ k _ _ => inRange 1 7 k
  | .m30CalInsert _ k gain _ zener => inRange 1 7 k && decide (gain < 3) && decide (zener.len ≤ 3000000)
  | .urgentWorkPreempt _ k => inRange 1 7 k
  | .urgentWorkEnd _ k => inRange 1 7 k
  | .calRunClose _ k => inRange 1 7 k
  | .calSolveComplete _ k => inRange 1 7 k
  | .calExpiry _ k c => inRange 1 7 k && inRange 1 29 c
  | .currentBlockSend _ => true
  | .currentBlockReceive _ _ => true
  | .currentBlockMissing _ _ => true
  | .impSegmentEnd _ k band => inRange 1 7 k && decide (band < 3)
  | .impAverageEnd _ k band => inRange 1 7 k && decide (band < 3)
  | .injectionChip _ k => inRange 1 7 k
  | .chargeBlockSend _ => true
  | .chargeBlockReceive _ _ => true
  | .chargeBlockMissing _ _ => true
  | .stateSecond _ k => inRange 1 7 k
  | .statePersist _ k => inRange 1 7 k
  | .comparatorTick _ k v => inRange 1 7 k && v.length == 24
  | .aoncPowerUp _ k => inRange 1 7 k
  | .aoncPowerDown _ k => inRange 1 7 k
  | .faultNoticeReceive _ k _ _ => inRange 1 7 k
  | .tdacReadback _ k _ _ => inRange 1 7 k
  | .balStep _ k => inRange 1 7 k
  | .balNeedCheck _ k => inRange 1 7 k
  | .balOvercurrent _ k n => inRange 1 7 k && inRange 1 24 n
  | .balKeepalive _ k => inRange 1 7 k
  | .balTimeoutExpire _ k => inRange 1 7 k
  | .owSweep _ k => inRange 1 7 k
  | .owCheckComplete _ k _ _ => inRange 1 7 k
  | .owRecheck _ k w _ _ => inRange 1 7 k && decide (w < 30)
  | .shuntInputBreak _ k w => inRange 1 7 k && inRange 26 29 w
  | .searchAll _ p => inRange 1 2 p
  | .searchNewPeriodic _ p => inRange 1 2 p
  | .swpSearchComplete _ p attempts acks =>
    inRange 1 2 p && (attempts.all fun a => a.all fun x => (x.map (·.length)).getD 64 == 64) && (acks.all fun a => a.all fun b => decide (b < 256))
  | .swpStreamCycle _ p => inRange 1 2 p
  | .swpSlotRead _ p slot bytes => inRange 1 2 p && decide (slot < 32) && bytes.length == 8
  | .swpCycleEnd _ p => inRange 1 2 p
  | .swpLineShort _ p => inRange 1 2 p
  | .swpShortRetry _ p => inRange 1 2 p
  | .codewordBoundary _ _ => true
  | .codewordReceive _ _ _ => true
  | .controlCodewordReceive _ _ _ => true
  | .tc0AckTimeout _ _ => true
  | .frameRetryTimeout _ _ tc => decide (tc < 4)
  | .hopSilenceTimeout _ _ => true
  | .hopMarginTimeout _ _ => true
  | .hopTrainingRetry _ _ => true
  | .hopTrainingComplete _ _ _ _ => true
  | .hopRouteRestore _ _ => true
  | .apcAdjust _ _ _ => true
  | .hopKeyingMessage _ _ _ => true
  | .hopRekey _ _ => true
  | .frameForward _ _ bytes => decide (16 ≤ bytes.length)
  | .mseqGapRelease _ origin tc flow => decide (origin < 63) && decide (tc < 4) && decide (flow < 64)
  | .linkStateNoticeReceive _ bytes => decide (16 ≤ bytes.length)
  | .commandFrameReceive _ bytes => decide (16 ≤ bytes.length)
  | .completionFrameReceive _ bytes => decide (16 ≤ bytes.length)
  | .eventFrameReceive _ bytes => decide (16 ≤ bytes.length)
  | .recordFrameReceive _ bytes => decide (16 ≤ bytes.length)
  | .firmwareFrameReceive _ bytes => decide (16 ≤ bytes.length)
  | .enumStartReceive _ bytes => decide (16 ≤ bytes.length)
  | .discoverSend _ => true
  | .discoverReceive _ _ _ => true
  | .enumWaitExpire _ _ => true
  | .timeBeaconSend _ => true
  | .timeBeaconReceive _ _ _ => true
  | .tqHoldover _ => true
  | .packTimeCommit _ => true
  | .heartbeatSend _ => true
  | .sleepListenWindow _ _ => true
  | .wakeRunReceive _ _ _ => true
  | .longBeaconDetect _ _ _ => true
  | .innerTimeWord _ k delay => inRange 1 7 k && decide (delay < 2 ^ 32)
  | .innerTimeWordTimeout _ k => inRange 1 7 k
  | .recordArrive _ k _ => inRange 1 7 k
  | .unitProgramComplete _ group _ => decide (group < 3)
  | .d2UnitClose _ => true
  | .bucketAccrue _ => true
  | .storageTempSample _ _ => true
  | .blockRefresh _ block _ => decide (block < 2048)
  | .storageDieFail _ => true
  | .spillHolderRechoose _ candidates => (candidates.all fun p => decide (p < 63))
  | .recordRetentionExpire _ => true
  | .locusEvaluate _ load _ => decide (load.length ≤ 7)
  | .taskMove _ k task _ => inRange 1 7 k && inRange 1 2 task
  | .dieRecordResend _ k => inRange 1 7 k
  | .hifReset _ cause => decide (cause < 4)
  | .hifEnable _ value => w32 value
  | .hifShutdown _ value => w32 value
  | .queueEnable _ off value => off % 4 == 0 && decide (off < 65536) && w32 value
  | .queueDisable _ off value => off % 4 == 0 && decide (off < 65536) && w32 value
  | .registerWrite _ off value size => decide (off < 69632) && decide (value < 2 ^ 64) && (size == 0 || size == 1 || size == 2 || size == 4 || size == 8)
  | .kick _ value => w32 value
  | .doorbellPoll _ => true
  | .doorbellReadComplete _ words => words.all w32
  | .descriptorFetch _ sq bytes _ _ => decide (sq < 16) && bytes.length == 64
  | .commandTimeout _ sq cid => decide (sq < 16) && decide (cid < 65536)
  | .completionWrite _ cq _ => decide (cq < 16)
  | .streamEntryWrite _ ring _ => decide (ring < 32)
  | .eventEntryWrite _ _ => true
  | .interruptCoalesceExpire _ kind idx => decide (kind < 3) && decide (idx < 32)
  | .msixUnmask _ vector => decide (vector < 64)
  | .eventDelayReport _ => true
  | .identify _ c => c.wf
  | .enumerate _ c => c.wf
  | .configRead _ c => c.wf
  | .shadowWrite _ c _ => c.wf
  | .commit _ c => c.wf
  | .commitCheck _ => true
  | .commitRevert _ c => c.wf
  | .commitCancel _ c => c.wf
  | .configSwap _ => true
  | .shadowCopyComplete _ => true
  | .groupCommitDecide _ => true
  | .groupGoReceive _ => true
  | .groupAbortReceive _ => true
  | .groupGoDeadline _ => true
  | .streamOpen _ c => c.wf
  | .streamClose _ c => c.wf
  | .recordRead _ c => c.wf
  | .captureArm _ c => c.wf
  | .captureDisarm _ c => c.wf
  | .captureFetch _ c _ => c.wf
  | .storeRead _ c _ => c.wf
  | .balancePolicy _ c => c.wf
  | .powerStateRun _ c => c.wf
  | .powerStateDoze _ c => c.wf
  | .powerStateSleep _ c => c.wf
  | .powerStateShip _ c => c.wf
  | .selftestRunAll _ c results => c.wf && (results.all fun x => decide (x < 3))
  | .selftestRunBlock _ c result => c.wf && decide (result < 3)
  | .calEarlyEnd _ c => c.wf
  | .calReset _ c => c.wf
  | .checkCompute _ c _ => c.wf
  | .meterStatement _ c => c.wf
  | .trustChallenge _ c => c.wf
  | .firmwareStage _ c _ => c.wf
  | .firmwareVerify _ c => c.wf
  | .firmwareActivate _ c _ => c.wf
  | .firmwareReturnPrevious _ c _ => c.wf
  | .spanReady _ => true
  | .spanReadyTimeout _ => true
  | .spanStop _ => true
  | .svnCommit _ image => inRange 1 2 image
  | .sensorSearch _ c => c.wf
  | .blackboxRead _ c => c.wf
  | .lockoutRelease _ c => c.wf
  | .lifeGenkey _ c _ => c.wf
  | .lifeSeal _ c _ => c.wf
  | .lifeUpdate _ c _ => c.wf
  | .lifeRelocate _ c _ => c.wf
  | .lifeReturn _ c _ => c.wf
  | .ping _ c => c.wf
  | .safetyTick _ _ => true
  | .safetyInputSample _ levels fb tp => levels.length == 8 && fb.length == 3 && tp.length == 2
  | .testPulseStart _ out => inRange 1 2 out
  | .discrepancyLatch _ idx0 => inRange 1 4 idx0
  | .safetyFrameReceive _ bytes => decide (16 ≤ bytes.length)
  | .safetyMboxService _ _ => true
  | .hostWatchdogExpire _ => true
  | .watchdogExpire _ p => inRange 1 62 p
  | .outputOvercurrent _ k => inRange 1 3 k
  | .outputOpenLoad _ k => inRange 1 3 k
  | .outputEconomyStart _ k _ => inRange 1 3 k
  | .feedbackTimeout _ k => inRange 1 3 k
  | .lorstReleaseEdge _ => true
  | .lorstHeld _ => true
  | .inputValid _ which _ => decide (which < 2)
  | .inputInvalid _ which _ => decide (which < 2)
  | .railFault _ rail kind => decide (rail < 14) && decide (kind < 4)
  | .railRetry _ rail => decide (rail < 14)
  | .railCounterCopy _ => true
  | .holdCharged _ _ => true
  | .holdLow _ _ => true
  | .holdChargeTimeout _ => true
  | .powerUpSequence _ strap => (strap.all fun x => decide (x < 2))
  | .railInRegulation _ rail _ => decide (rail < 14)
  | .railRampTimeout _ rail => decide (rail < 14)
  | .powerUpRetry _ => true
  | .railDischarged _ rail _ => decide (rail < 14)
  | .powerFailWarning _ item => decide (item < 256)
  | .holdTimeExpire _ => true
  | .shutdownRestart _ => true
  | .dozeEnter _ => true
  | .dozeExit _ => true
  | .wakeSource _ code => decide (code < 16)
  | .sleepTimerExpire _ => true
  | .aonSupplyLoss _ => true
  | .rstNAssert _ => true
  | .rstNRelease _ strap => (strap.all fun x => decide (x < 2))
  | .rstNStuck _ strap => (strap.all fun x => decide (x < 2))
  | .rstIgnoredClear _ => true
  | .dieIsolationTimeout _ k => inRange 1 7 k
  | .precPowerUp _ k bist => inRange 1 7 k && decide (bist.copies < 4)
  | .firewallViolation _ => true
  | .meterCommit _ => true
  | .meterSnapshot _ => true
  | .historyPeriod _ => true
  | .blackboxRecordWrite _ _ _ => true
  | .debugObserveOpen _ => true
  | .debugFullOpen _ sig _ => sig.length == 64
  | .debugClose _ => true
  | .sliceStart _ k => decide (k < 8)
  | .sliceEnd _ k result rail => decide (k < 8) && decide (result < 3) && decide (rail < 16)
  | .selftestOverdue _ k block => decide (k < 8) && decide (block < 65536)
  | .hubBistRetry _ _ => true
  | .chkOpen _ unit ctrl => decide (unit < 11) && w32 ctrl
  | .chkDataWrite _ unit width value => decide (unit < 11) && (width == 1 || width == 2 || width == 4) && w32 value
  | .chkClose _ unit ctrl => decide (unit < 11) && w32 ctrl
  | .thermalSample _ temps => decide (temps.length ≤ 9)
  | .thermalStepDown _ => true
  | .dieOverheat _ k => inRange 1 7 k
  | .dieCooled _ k => inRange 1 7 k
  | .hubOverheat _ => true
  | .hubCooled _ _ => true
  | .faultNoticeFrameReceive _ bytes => decide (16 ≤ bytes.length)
  | .gatewayHeartbeatReceive _ bytes => decide (16 ≤ bytes.length)
  | .gwOkTimeout _ => true
  | .enumFrameReceive _ bytes => decide (16 ≤ bytes.length)
  | .balanceRecordInterval _ k => inRange 1 7 k
  | .hostReadTimeout _ what _ _ => decide (what < 4)

end Sys2Proof
end

