-- ==== Sys2Proof/Tests/Slice0.lean ====
section
/-! SUPPORT. Small tests: well-formedness refuses, single commands on small states, and for every statement a state and
operands that meet its hypotheses together. -/

namespace Sys2Proof.Tests

set_option maxRecDepth 20000
set_option Elab.async false

open Sys2Proof Sys2Proof.Machine

/-! ### Small states -/

/-- A register written into the three configuration maps. -/
def put (s : State) (block target off value : Nat) : State :=
  let w := fun m => cellWrite m (cfgAddr block target off) (le 4 value)
  s.modCfg fun x => { x with a := w x.a, b := w x.b, f := w x.f }

/-- A die whose domains are on and whose precision path runs. -/
def tDie : Die :=
  { Die.initial with
    precOn := true, fastOn := true, dspOn := true, prec := { Die.initial.prec with running := true },
    fast := { Die.initial.fast with startedAt := some 0 }, prot := { Die.initial.prot with aonOn := true, ready := true, timeout := false } }

/-- A module part in RUN whose die is `d`. -/
def tMod (d : Die) : State :=
  { State.reset with
    part := { State.reset.part with serving := true }, power := { State.reset.power with st := 0, lastSt := 0 },
    link := { State.reset.link with position := some 3 }, dies := [d] }

/-- A gateway part in RUN. -/
def tGate : State :=
  { tMod tDie with
    part := { State.reset.part with serving := true, role := 1, strap := 1 }, link := { State.reset.link with position := some 0, parts := 1 },
    hif := { State.reset.hif with en := true, ready := true } }

/-- A descriptor. -/
def tCmd (opcode dest target len : Nat) (param : List Byte) : Cmd :=
  { sq := 0, opcode := opcode, flags := 0, cid := 7, dest := dest, target := target, timeout := 0, bufAddr := 4096, bufLen := len,
    param := param ++ zeros (40 - param.length) }

/-- A RETURNED part at reset. -/
def retired : State :=
  { State.reset with trust := { State.reset.trust with life := 3, fk := 0 } }
/-- A die with ratios of a reference interval gathered. -/
def refDie : Die := { tDie with prec := { tDie.prec with refCount := 100, refSum := 575 } }
/-- A die whose first balance channel conducts. -/
def gateDie : Die :=
  { tDie with prot := { tDie.prot with chans := { Chan.initial with conducting := true } :: List.replicate 23 Chan.initial } }
/-- A die in a gate window. -/
def windowDie : Die := { tDie with prec := { tDie.prec with window := some 1000 } }

/-- An average of eight segments per cell with nothing accumulated. -/
def impAvg : Average :=
  { index := 0, segs := List.replicate 24 8, natSegs := List.replicate 24 8, acc := [], curSegs := 8, rshSum := 0, rshN := 0 }
/-- A die whose impedance bands wait for segment 0. -/
def impDie : Die :=
  { tDie with imp := { tDie.imp with segNext := [some 0, some 0, some 0], curOk := true } }
/-- A die whose band M has all its segments. -/
def impDone : Die :=
  { tDie with imp := { tDie.imp with segNext := [some 0, some 8, some 0], avgs := [none, some impAvg, none], curOk := true } }
/-- A die in whose present average injection runs. -/
def injDie : Die := { impDie with imp := { impDie.imp with injActive := true, injAvg := some 0 } }
/-- Impedance enabled in all bands with injection in band M, averages of eight segments. -/
def impMod (d : Die) : State := put (put (tMod d) 5 1 0 0x6F) 5 1 8 0x080808
/-- A capture armed at 500 with T_TRIG 5,000 and a window of one frame. -/
def tCap : Capture :=
  { id := 0, a := 500, src := 0, scope := false, pre := 0, post := 1, delay := 0, timeoutMs := 1, period := 0, k := 0, tTrig := some 5000,
    triggered := false, first := 5000, next := 5000, counted := 0, delivered := 0, block := 0, deratedAtArm := false, aborted := false, stop := none, cmd := none }
/-- A die with a capture. -/
def capDie (c : Capture) : Die := { tDie with fast := { tDie.fast with cap := some c } }
/-- A frame held at 5,000. -/
def tFrame : FastFrame :=
  { hold := 5000, codes := List.replicate 26 0, ovrng := 0, dist := 0, bal := 0, inv := 0, slice := false, derated := false, tq := 0 }
/-- The capture once it has triggered. -/
def drainCap : Capture := { tCap with triggered := true }
/-- A die with that capture and one frame in its ring. -/
def drainDie : Die := { tDie with fast := { tDie.fast with cap := some drainCap, ring := [tFrame] } }
/-- A run of entry 0 with some words. -/
def tSeq (words : List Nat) : SeqRun := { entry := 0, tStart := 0, words := words, winEvent := false, sliceWait := false }
/-- A run of entry 1 with some words. -/
def idSeq (words : List Nat) : SeqRun := { entry := 1, tStart := 0, words := words, winEvent := false, sliceWait := false }
/-- A die that runs an entry. -/
def seqDie (x : SeqRun) : Die := { tDie with seq := { tDie.seq with running := true, cur := some x } }
/-- A die whose converter urgent work holds. -/
def urgentDie (running : Bool) : Die := { tDie with seq := { tDie.seq with running := running, urgent := true } }
/-- A table of a thermistor entry of one word and an identity entry. -/
def seqMod (d : Die) : State := put (put (put (tMod d) 3 1 0 1) 3 1 0x100 0x00010101) 3 1 0x110 0x00010181
/-- A die with one run open and another being solved. -/
def calDie : Die :=
  { tDie with cal := { tDie.cal with run := some (CalRun.opened 0), solving := some (CalRun.opened 1) } }
/-- A die whose channels were all accepted at instant 0. -/
def staleDie : Die := { tDie with cal := { tDie.cal with acceptAt := List.replicate 29 (some 0), stale := List.replicate 29 false } }
/-- A die whose run of missing current blocks is about to reach a thousand. -/
def missDie : Die := { impDie with imp := { impDie.imp with missRun := 999 } }
/-- Impedance enabled with the part's own shunt 1 as its current source. -/
def curMod (d : Die) : State := put (impMod d) 5 1 4 0x0003_0311
/-- A frame in clear as it reaches a part. -/
def tFrameBytes (tc kind origin dst : Nat) (payload : List Byte) : List Byte :=
  Frame.header { tc := tc, kind := kind, dst := dst, origin := origin, flags := flFirst + flLast, mseq := 0, payload := payload } 0 0 ++ payload
/-- What accepting such a frame leaves. -/
def tTaken (s : State) (t : Nat) (bytes : List Byte) : State := ((s.at_ t).accept (frameOf bytes)).2
/-- A current block as a frame in clear. -/
def curBytes : List Byte := tFrameBytes 2 0x21 0 63 (withCrc32c (le 2 0x0602 ++ zeros 454))
/-- A charge block as a frame in clear. -/
def chargeBytes : List Byte := tFrameBytes 2 0x22 0 63 (withCrc32c (le 2 0x0702 ++ zeros 30))
/-- A whole tenth of a second of shunt words. -/
def tShunt : ShuntAcc := { t0 := 200000000, sum := [0, 0], subst := [0, 0], ovr := [false, false], stale := [false, false], stackSum := 0, stackN := 0 }
/-- A die that has gathered it. -/
def shuntDie : Die := { tDie with prec := { tDie.prec with shunts := [tShunt] } }
/-- The estimator enabled with the part's own shunt 1 as its source. -/
def socMod (d : Die) : State := put (tMod d) 6 1 0 0x00031401
/-- A die whose AON-C domain is off. -/
def aonOff : Die := { tDie with prot := { tDie.prot with aonOn := false } }
/-- A fault notice. -/
def tNotice : List Byte := zeros 16
/-- A die with a notice to send. -/
def noticeDie : Die := { tDie with prot := { tDie.prot with notices := [(.up, tNotice)] } }
/-- A die with a read-back that failed once. -/
def rbDie : Die := { tDie with prot := { tDie.prot with rbFail := [1, 0] }, seq := { tDie.seq with urgent := true } }
/-- A die that suspects wire 24. -/
def owDie : Die := { tDie with prot := { tDie.prot with suspect := [24], owRun := some (24, 0) }, seq := { tDie.seq with urgent := true } }
/-- Conversions before and under a check current that confirm a break of wire 24. -/
def owPre : List Rat := [3, 0]
/-- The conversions under the check current. -/
def owPost : List Rat := [1, 0]
/-- A die with wire 24 broken. -/
def brokenDie : Die := { tDie with prot := { tDie.prot with wire := 2 ^ 24, wireAt := [(24, 0)], owRun := some (24, 0) }, seq := { tDie.seq with urgent := true } }
/-- A die whose keep-alive is due. -/
def keepDie : Die := { tDie with prot := { tDie.prot with kaDue := true } }
/-- A module part whose die has lost both links. -/
def cutMod : State := { tMod tDie with part := { (tMod tDie).part with links := [false, false] } }
/-- A die after the start of a balancing step. -/
def stepDie : Die :=
  { tDie with prot := { tDie.prot with order := [], chans := tDie.prot.chans.map fun c => (c.markTo 1000000000).endStep } }
/-- What the start of a balancing step leaves before its new choice. -/
def tStep : State :=
  (((put (tMod tDie) 7 1 0x14 0x02990A08).at_ 1000000000).takeRange 0x07 1 0x14 0xE0).modDie 1
    fun x => { x with prot := { x.prot with order := [], chans := x.prot.chans.map fun c => (c.markTo 1000000000).endStep } }
/-- A part whose die runs a slice. -/
def sliceMod : State :=
  { tMod tDie with selfTest := [SelfTest.initial, { SelfTest.initial with slice := some (0x0101, 0) }] }
/-- A part whose check units are in order. -/
def chkMod : State := { tMod tDie with chk := List.replicate 5 { ChkUnit.initial with ok := true } }
/-- A part whose governor stands at step 3. -/
def hotMod : State :=
  { tMod tDie with therm := { (tMod tDie).therm with step := 3, belowSince := [some 0, some 0, some 0] } }
/-- An input pair whose channels are equal for 100 ms. -/
def discIn : SafeIn :=
  { a := { level := true, formed := true, cand := none }, b := { level := true, formed := true, cand := none }, discMs := 100, latched := false,
    needDemand := false }
/-- A gateway whose antivalent input 1 shows two equal channels. -/
def discGate : State :=
  put { tGate with safe := { tGate.safe with ins := discIn :: tGate.safe.ins.drop 1 } } 0x14 0 0 0x00192118
/-- A valid gateway heartbeat of connection base 1 with SEQ 1. -/
def beatBody : List Byte :=
  let b := le 2 64 ++ le 2 1 ++ zeros 24
  b ++ le 4 (Poly.crc32.check b)
/-- The heartbeat as a frame in clear. -/
def beatBytes : List Byte := tFrameBytes 0 5 0 63 beatBody
/-- A link-state notice as a frame in clear. -/
def noticeBytes : List Byte :=
  tFrameBytes 0 3 0 63 (let b := zeros 14; b ++ le 2 (Poly.crc16.check b))
/-- An output that is on. -/
def onOut : SafeOut :=
  { on := true, since := 0, switched := true, econ := false, duty := 0, edge := true, overcurrent := false, openLoad := false, fb := SafeChan.initial,
    confirmed := false, wrongSince := none }
/-- A gateway whose outputs are on. -/
def outGate : State :=
  { tGate with safe := { tGate.safe with outs := List.replicate 3 onOut, hostOk := true } }
/-- A gateway whose watchdogs are armed. -/
def watchGate : State :=
  { tGate with safe := { tGate.safe with watch := tGate.safe.watch.map fun x => { x with armed := true } } }
/-- A gateway whose reset button has been low. -/
def lorstGate (low : Nat) : State := { tGate with safe := { tGate.safe with lorstState := 1, lorstLow := low } }
/-- A module part in RUN with VEXT1 up and both ports `x`. -/
def wireMod (x : SwpPort) : State :=
  { tMod tDie with swp := [x, x], power := { (tMod tDie).power with rails := List.replicate 14 { Rail.initial with st := 2 } } }
/-- A port that streams. -/
def streamPort : SwpPort := { SwpPort.initial with st := 2 }
/-- A port that searches. -/
def searchPort : SwpPort := { SwpPort.initial with st := 1, searching := 2 }
/-- A slot of a sensor that is present. -/
def usedSlot : Slot :=
  { used := true, number := 5, present := true, droppedAt := 0, misses := 0, seen := false, value := 0, sstat := 0, seq := 0, missed := false, read := false,
    seqGap := false, droppedNow := false }
/-- A port in a cycle with every slot in use. -/
def cyclePort : SwpPort := { streamPort with inCycle := true, slots := List.replicate 32 usedSlot }
/-- A port in a cycle without a used slot. -/
def endPort : SwpPort := { streamPort with inCycle := true }
/-- A port off after a short. -/
def shortPort : SwpPort := { SwpPort.initial with st := 3, short := true }
/-- A module part whose two ports are `p`. -/
def radio (p : Port) : State := { tMod tDie with link := { (tMod tDie).link with up := p, dn := p } }
/-- A port whose hop is up. -/
def upPort : Port := { Port.initial with st := .up, aligned := true }
/-- What the line carries of some bytes. -/
def lineOf (data : List Byte) : List Byte := (overBits scrambleBit 0 (rsEncode data)).2
/-- Hop keys of zero. -/
def tKeys : HopKeys := { txKey := zeros 32, txSalt := zeros 4, rxKey := zeros 32, rxSalt := zeros 4 }
/-- A port whose hop is up and keyed. -/
def keyedPort : Port := { upPort with keys := some tKeys }
/-- A word that no codeword lies near: its first four syndromes are 0 and the fifth is not. -/
def spoiltWord : List Byte := zeros 55 ++ [1, 15, 54, 120, 64]
/-- The same as the line carries it. -/
def spoiltLine : List Byte := (overBits scrambleBit 0 spoiltWord).2
/-- A frame sent some number of times. -/
def sentFrame (attempts : Nat) : TxFrame :=
  { frame := { tc := 0, kind := 0x11, dst := 0, origin := 3, flags := 0xC0, mseq := 0, payload := [] }, lseq := 0, bytes := [], attempts := attempts,
    sentAt := 0 }
/-- A class that waits for its acknowledgement. -/
def sentClass (attempts : Nat) : TxClass := { TxClass.fresh with unacked := [sentFrame attempts] }
/-- A port that waits in one class. -/
def sentPort (tc attempts : Nat) : Port := { upPort with tx := setNth tc (sentClass attempts) upPort.tx }
/-- An enumeration message as a frame in clear. -/
def enumBytes (payload : List Byte) : List Byte := tFrameBytes 1 0x10 0 63 payload
/-- A part without a position. -/
def bareMod : State := { tMod tDie with link := LinkState.initial }
/-- The link block that travels with an enumeration: ENUM_WAIT_MS 50, EXPECT_PARTS 4. -/
def tPlan : List Byte := le 4 0x00320400 ++ zeros 748
/-- A state in which this part seeks the next one. -/
def frontier (s : State) (round : Nat) : State :=
  { s with link := { s.link with plan := tPlan, frontier := some { closing := false, round := round, startedAt := 0, answers := [] } } }
/-- A gateway that seeks. -/
def frontGate (round : Nat) : State := frontier tGate round
/-- A module part that seeks. -/
def frontMod (round : Nat) : State := frontier (tMod tDie) round
/-- A gateway that enumerates. -/
def seekGate : State := { tGate with link := { tGate.link with enumState := 1 } }
/-- A flow with a frame behind a gap. -/
def gapFlow : FlowRx := { origin := 0, tc := 1, flow := 3, seen := [], next := 0, held := [(0, none, frameOf (enumBytes [1]))], open_ := none }
/-- A part with that flow. -/
def gapMod : State := { tMod tDie with link := { (tMod tDie).link with flowsRx := [gapFlow] } }
/-- What assembling such a frame leaves. -/
def tJoined (s : State) (t : Nat) (bytes : List Byte) : State := ((tTaken s t bytes).assemble (frameOf bytes)).2
/-- A die with a record to hand over. -/
def waitDie : Die := { tDie with t0 := [(0x0201, 0, [])] }
/-- A record as a frame in clear. -/
def recBytes : List Byte := tFrameBytes 2 0x20 3 0 (le 2 0x0201 ++ [0, 1] ++ zeros 12)
/-- A spilt record as a frame in clear. -/
def spillBytes : List Byte := tFrameBytes 2 0x20 3 0 (le 2 0xFFFF ++ zeros 24)
/-- An open unit. -/
def tUnit : OpenUnit := { group := 1, ids := [], parts := [], bytes := 0, firstAt := 0 }
/-- A part that programs a unit. -/
def unitMod : State := { tMod tDie with locus := { (tMod tDie).locus with progQ := [tUnit], units := [tUnit] } }
/-- A part without a storage die. -/
def spillMod : State := { tMod tDie with part := { (tMod tDie).part with store := false } }
/-- A die with a task that is to move to the hub. -/
def moveDie : Die := { tDie with movePend := [(2, 1, 0)] }
/-- A gateway whose endpoint is up. -/
def tHost : State :=
  { tGate with power := { tGate.power with rails := List.replicate 14 { Rail.initial with st := 2 } } }
/-- A gateway with an event queue of some configuration. -/
def eqHost (cfg : Nat) : State := { tHost with hif := { State.reset.hif with eq := { Queue.initial with cfg := cfg } } }
/-- A gateway that reads its doorbells. -/
def readHost : State := { tHost with hif := { tHost.hif with dbReading := true } }
/-- A submission queue of sixteen entries with one descriptor to fetch, and its completion queue. -/
def sqHost : State :=
  { tHost with hif := { tHost.hif with
    sq := { Queue.initial with cfg := 0x00100001, active := true, host := 1 } :: List.replicate 15 Queue.initial,
    cq := { Queue.initial with cfg := 0x00100001, active := true } :: List.replicate 15 Queue.initial } }
/-- A command in flight. -/
def tFly : InFlight :=
  { cmd := tCmd 0x18 3 0 0 [], fetched := 0, timeoutMs := 100, cq := 0, reading := false, listAt := (0, 0), started := true, ran := false, completed := false, ranges := [], votes := [], data := [] }
/-- A gateway with one command that has started. -/
def flying (s : State) (c : Cmd) : State := { s with hif := { s.hif with inflight := [{ tFly with cmd := c }] } }
/-- A gateway with that command in flight. -/
def flyHost : State := { sqHost with hif := { sqHost.hif with inflight := [tFly] } }
/-- A claimed record for ring 0. -/
def tRingRec : StrWait :=
  { sub := 1, ring := 0, cls := 1, recType := 0x0201, src := 1, pos := 3, bytes := [], ref := none, writtenEnd := none }
/-- A gateway with that record waiting. -/
def ringHost : State :=
  { tHost with hif := { tHost.hif with
    str := { Queue.initial with cfg := 0x60000001, active := true } :: List.replicate 31 Queue.initial, strWait := [tRingRec] } }
/-- An event that waits for its queue. -/
def tEvWait : EvWait := { bytes := zeros 64, since := 0, ref := none }
/-- A gateway with that event waiting. -/
def evHost : State :=
  { tHost with hif := { tHost.hif with eq := { Queue.initial with cfg := 0x00100001, active := true }, eqWait := [tEvWait] } }
/-- A completion with some code. -/
def doneBody (code : Nat) : List Byte := le 2 7 ++ [0, 3] ++ zeros 10 ++ le 2 code
/-- That completion as a frame in clear. -/
def doneBytes (code : Nat) : List Byte := tFrameBytes 1 0x11 3 0 (doneBody code)
/-- A commit received, not yet checked. -/
def tPend : PendCommit := { cmd := tCmd 5 3 0 0 [], received := 0, tCommit := 10000000, group := false, checked := false, go := false }
/-- A commit that has passed its check. -/
def readyPend : PendCommit := { tPend with checked := true }
/-- A group commit that has passed its check. -/
def groupPend : PendCommit := { readyPend with group := true }
/-- A part with a pending commit. -/
def pended (p : PendCommit) : State := (tMod tDie).modCfg fun x => { x with pend := some p }
/-- A part whose commit is to be checked. -/
def pendMod : State := pended tPend
/-- A part whose commit waits for its instant. -/
def readyMod : State := pended readyPend
/-- A part whose group commit waits for GO. -/
def groupMod : State := pended groupPend
/-- A part that copies its set. -/
def copyMod : State := (tMod tDie).modCfg fun x => { x with copying := true }
/-- A group commit with some positions prepared. -/
def tRun (prepared : List Nat) : GroupRun := { cmd := tCmd 5 63 0 0 [0, 1], tCommit := 10000000, prepared := prepared }
/-- A gateway that runs it. -/
def runGate (prepared : List Nat) : State := tGate.modCfg fun x => { x with group := some (tRun prepared) }
/-- A subscription at a gateway. -/
def tSub : Sub := { sub := 5, ring := 0, ident := 3, recType := 0x0201, src := 1, decim := 1, tFrom := 0, count := 0, skipped := 0, closing := none }
/-- A gateway that knows part 3 at position 3 and has opened a stream of it. -/
def subGate : State := { tGate with hif := { tGate.hif with subs := [tSub] }, link := { tGate.link with idents := [(3, 3)] } }
/-- A record in the buffer. -/
def tRec : Rec :=
  { id := 0, cls := 1, recType := 0x0201, src := 1, owner := 0, time := 0, arrived := 0, bytes := zeros 16, tier := .buffer, blocks := [],
    copies := 0, inUnit := false, claims := [], delivered := false }
/-- A part with that record. -/
def recMod : State := { tMod tDie with locus := { (tMod tDie).locus with recs := [tRec] } }
/-- The record lies in the storage die of its holder, part 5. -/
def farMod : State := { tMod tDie with locus := { (tMod tDie).locus with recs := [{ tRec with tier := .t5, blocks := [5] }] } }
/-- A part in a FULL session that keeps it awake. -/
def fullMod : State := { tMod tDie with trust := { (tMod tDie).trust with session := 2, keepAwake := true } }
/-- A sealed gateway whose lock-out may be released. -/
def lockGate : State :=
  { tGate with
    trust := { tGate.trust with life := 1, sealed_ := [0, 1] ++ zeros 62 }, safe := { tGate.safe with lockout := true, loCause := 9 } }
/-- A part whose counters have changed. -/
def meterMod : State := { tMod tDie with trust := { (tMod tDie).trust with meterDirty := true } }
/-- A black-box record that waits. -/
def tBbWait : BbWait := { kind := 1, keep := false, time := 0, debug := false, unsign := false, body := [] }
/-- A part with that record waiting. -/
def bbMod : State := { tMod tDie with trust := { (tMod tDie).trust with bbWait := [tBbWait] } }
/-- A black-box record. -/
def tBbRec : BbRec := { keep := false, seq := 4, bytes := zeros 256, okA := true, okB := true }
/-- A part with that record. -/
def readMod : State := { tMod tDie with trust := { (tMod tDie).trust with bb := [tBbRec] } }
/-- A module part that has been sealed at instant 0. -/
def sealedMod : State := { tMod tDie with trust := { (tMod tDie).trust with life := 1 } }
/-- A staged image of four bytes, whole. -/
def tStaged : Staging := { total := 4, chunks := [(0, zeros 4)] }
/-- A part with both images staged. -/
def stagedMod : State := { tMod tDie with trust := { (tMod tDie).trust with staging := [tStaged, tStaged] } }
/-- A stage command with its four bytes of data, as the hop above carries it to a module. -/
def stageBytes : List Byte := tFrameBytes 3 0x31 0 3 (zeros 71)
/-- An activation of Span that has begun. -/
def tAct : Activation := { cmd := tCmd 0x13 3 0 0 [2, 1], tAct := 0, starts := true, begun := true, beganAt := 0, runAt := some 0 }
/-- A part with that activation. -/
def actMod : State := { tMod tDie with trust := { (tMod tDie).trust with act := some tAct } }
/-- A module part whose Span is on trial and whose Apex runs a patch, after `ns` of RUN. -/
def trialMod (ns : Nat) : State :=
  { tMod tDie with
    trust := { (tMod tDie).trust with trial := true, spanSince := 0, apexSince := 0, apexImgs := [zeros 4, []] }
    selfTest := [{ SelfTest.initial with runTime := ns }, SelfTest.initial] }
/-- A lifecycle message without AUTH. -/
def lifeBytes (action nonce : Nat) (root cert cfg : List Byte) : List Byte :=
  [BitVec.ofNat 8 action] ++ zeros 7 ++ le 8 1 ++ le 16 nonce ++ root ++ cert ++ cfg ++ zeros 192
/-- The message with AUTH. -/
def signedBytes (b auth : List Byte) : List Byte := b.take 320 ++ auth ++ zeros 128
/-- A module part in a lifecycle state with nonce, owner root and integrator key. -/
def lifeMod (life nonce : Nat) (root : List Byte) (ik : Option Nat) : State :=
  { tMod tDie with trust := { (tMod tDie).trust with life := life, nonce := some (le 16 nonce, 0), ownerRoot := root, ik := ik } }
/-- A LIFECYCLE command. -/
def tLife : Cmd := tCmd 0x17 3 0 512 []
/-- A sealed configuration: module part, Q_REF 1,000. -/
def tSealed : List Byte := zeros 4 ++ le 4 1000 ++ zeros 56
/-- The point with the message's hash as its x coordinate, less the base point: a key for which the pair (hash, hash) is a
signature. -/
def updRoot : List Byte := le 32 0x47fb53b66e919d7ea349fc4429a9206bad4f725bbfe84a28f6d4ba94d2f90240 ++
  le 32 0x4d9608b6ba9973ae76fbf5293bded399d9a188550b1a8eb21352176bcd2073f6
/-- The pair (hash, hash) of the UPDATE message. -/
def updSig : List Byte := le 32 0x3e121ae522b1610640e65420eebbfb159194f8f7bcc88ca508ddd77b13336c50 ++
  le 32 0x3e121ae522b1610640e65420eebbfb159194f8f7bcc88ca508ddd77b13336c50
/-- The same for the RELOCATE message. -/
def relRoot : List Byte := le 32 0x86033b7ad4f2a1af225386ffc364a231ae9a9908c587bf158701147d6d0342f6 ++
  le 32 0x6a31ea1a7c533e51f2835cd5f50343380c66c25f2fcb363db44f128ea207e2cb
/-- The pair (hash, hash) of the RELOCATE message. -/
def relSig : List Byte := le 32 0x13578693cf5d8348b8d401bc3d5d198e6c0f99d6d03945638161173d42a463ee ++
  le 32 0x13578693cf5d8348b8d401bc3d5d198e6c0f99d6d03945638161173d42a463ee
/-- Twice the base point. -/
def sealRoot : List Byte := le 32 0x7cf27b188d034f7e8a52380304b51ac3c08969e277f21b35a60b48fc47669978 ++
  le 32 0x7775510db8ed040293d9ac69f7430dbba7dade63ce982299e04b79d227873d1
/-- The base point. -/
def baseKey : List Byte := le 32 0x6b17d1f2e12c4247f8bce6e563a440f277037d812deb33a0f4a13945d898c296 ++
  le 32 0x4fe342e2fe1a7f9b8ee7eb4a7c0f9e162bce33576b315ececbb6406837bf51f5
/-- A certificate of the base point as the key of part 1, signed by the owner root above. -/
def sealCert : List Byte :=
  le 8 1 ++ [2] ++ zeros 7 ++ baseKey ++ keyId sealRoot ++ zeros 8 ++
    le 32 0x7201615d6d0336d43b52f7f75c3b6feb4f94489065048d7c0f21e4065c6a33da ++ le 32 0xecff14900d9c4c7f5b54415c56b342c6b9e536be667d7aed04bf3b4754685092
/-- A part in a debug session. -/
def openMod (session : Nat) : State := { tMod tDie with trust := { (tMod tDie).trust with session := session } }
/-- A module part whose rails are all in state `st`. -/
def railMod (st : Nat) : State :=
  { tMod tDie with power := { (tMod tDie).power with rails := List.replicate 14 { Rail.initial with st := st } } }
/-- A part after some RUN time. -/
def runMod (ns : Nat) : State := { tMod tDie with selfTest := [{ SelfTest.initial with runTime := ns }, SelfTest.initial] }
/-- The hold capacitor enabled, with HOLD_V 4,000 mV. -/
def holdMod (ok : Bool) (st : Nat) : State :=
  let s := put (railMod st) 0x15 0 0 0x00000400
  let s := put s 0x15 0 4 0x00002805
  { s with power := { s.power with holdOk := ok, holdDone := false } }
/-- A part that is OFF with a valid input. -/
def offMod : State :=
  { State.reset with power := { State.reset.power with st := 4, vinOk := true, restartAt := none, retryAt := none, seqDir := 0 } }
/-- A part on its way up, at rail 2. -/
def upMod (attempts : Nat) : State :=
  { railMod 1 with power := { (railMod 1).power with seqDir := 1, seqRail := 2, attempts := attempts, seqTo := 0 } }
/-- A part with a warning raised or acted on. -/
def warnMod (item warnAt : Option Nat) : State :=
  { tMod tDie with power := { (tMod tDie).power with warnItem := item, warnAt := warnAt } }
/-- A sleeping part. -/
def sleepMod (vin : Bool) : State :=
  { tMod tDie with power := { (tMod tDie).power with st := 2, vauxOk := false, vinOk := vin }, part := { (tMod tDie).part with serving := false } }
/-- A part whose target is DOZE. -/
def dozeMod (d : Die) : State := { tMod d with power := { (tMod d).power with dozeTgt := true, warnItem := none } }
/-- A die with a stream open. -/
def busyDie : Die := { tDie with fast := { tDie.fast with streams := [1] } }
/-- A sleeping part whose UP port listens. -/
def listenMod : State :=
  { sleepMod true with link := { (sleepMod true).link with up := { Port.initial with listens := true } } }
/-- A part held in reset. -/
def heldMod : State := { tMod tDie with power := { (tMod tDie).power with rstHeld := true } }
/-- A die whose PREC domain is off. -/
def coldDie : Die := { tDie with precOn := false, hot := false }
/-- The hub's self-test after a failed block. -/
def failedTest : SelfTest := { SelfTest.initial with failed := [0x3001], retried := false }
/-- A part whose hub is held in reset. -/
def testMod : State :=
  { tMod tDie with part := { (tMod tDie).part with hubHeld := true }, selfTest := [failedTest, SelfTest.initial] }
/-- A completion that waits. -/
def tCompl : ComplWait := { cq := 0, sq := 0, cid := 7, gen := 0, origin := 3, result := 0, xfer := 0, status := 0 }
/-- A gateway with that completion waiting. -/
def complHost : State := { sqHost with hif := { sqHost.hif with cqWait := [tCompl] } }
/-- A command in flight whose buffer is still being read. -/
def listFly : InFlight := { tFly with reading := true, ranges := [(4096, 64)] }
/-- A gateway with that command. -/
def listHost : State := { sqHost with hif := { sqHost.hif with inflight := [listFly] } }
/-- A command in flight whose completion waits. -/
def doneFly : InFlight := { tFly with completed := true, ranges := [(4096, 64)] }
/-- A completion that moves four bytes. -/
def tXfer : ComplWait := { tCompl with xfer := 4 }
/-- A gateway with a completion to write whose data must reach the host first. -/
def lostHost : State := { sqHost with hif := { sqHost.hif with cqWait := [tXfer], inflight := [doneFly] } }

/-- A tag of 16 bytes behind 36 bytes of zero, as a control codeword carries it. -/
theorem tag_place (n : Nat) : (zeros 36 ++ be 16 n).length = 52 ∧ slice (zeros 36 ++ be 16 n) 36 16 = be 16 n ∧
    rd (zeros 36 ++ be 16 n) 1 5 = 0 ∧ (zeros 36 ++ be 16 n).take 36 = zeros 36 := ⟨rfl, rfl, rfl, rfl⟩

theorem tag_of_zeros : ∃ n, (gcmSeal (zeros 32) (nonceOf (zeros 4) true 0) (zeros 36) []).2 = be 16 n := ⟨_, rfl⟩

theorem witness_LineCommandsComplete_7 :
    ∃ (s : State) (side : Side) (p : Port) (k : HopKeys) (bytes : List Byte), p = s.port side ∧ s.linkRuns = true ∧ p.st = .up ∧
      bytes.length = 52 ∧ p.keys = some k ∧
      (gcmSeal k.rxKey (nonceOf k.rxSalt true (rd bytes 1 5)) (bytes.take 36) []).2 = slice bytes 36 16 ∧
      counterOk p.rxCctrTop p.rxCctrSeen (rd bytes 1 5) = true := by
  obtain ⟨n, hn⟩ := tag_of_zeros
  have ht := tag_place n
  refine ⟨radio keyedPort, .up, keyedPort, tKeys, zeros 36 ++ be 16 n, rfl, by decide +kernel, rfl, ht.1, rfl, ?_, ?_⟩
  · rw [ht.2.1, ht.2.2.1, ht.2.2.2]
    exact hn
  · rw [ht.2.2.1]
    decide +kernel

theorem held_none : [] = ((tMod drainDie).served 0 (tCmd 0x0A 3 1 64 (zeros 10 ++ [1]))).captureBlocks 1 0 := by
  have h : ((tMod drainDie).served 0 (tCmd 0x0A 3 1 64 (zeros 10 ++ [1]))).streamRecs 0x0301 1 0 = [] := by decide +kernel
  unfold State.captureBlocks
  rw [h]
  simp

/-! ### Witnesses of the frames and of the rules on a commit: here the hypotheses are an instant, a command and what it answers. -/

/-- A state with one command in its queue. -/
def queued (s : State) (c : Instr) : State := { s with pending := [c] }

theorem witness_LatchedLockoutKeepsOutputsOff :
    ∃ s s' : State, s.lockedOff ∧ s.safe.lockout = true ∧ step s = .next s' :=
  ⟨queued lockGate (.safetyMboxService 5 [1, 1, 1]), _, by unfold State.lockedOff; decide +kernel, rfl, rfl⟩

theorem witness_OnlyNamedCommandsChangeTheSafetyBlock :
    ∃ (s s' : State) (c : Instr) (rest : List Instr), s.pending = c :: rest ∧ step s = .next s' :=
  ⟨queued (tMod tDie) (.gateWindowOpen 5 1), _, .gateWindowOpen 5 1, [], rfl, rfl⟩

theorem witness_OnlyNamedCommandsChangePortsChecksAndGovernor :
    ∃ (s s' : State) (c : Instr) (rest : List Instr), s.pending = c :: rest ∧ step s = .next s' :=
  ⟨queued (tMod tDie) (.ping 5 (tCmd 0x18 3 0 0 [])), _, .ping 5 (tCmd 0x18 3 0 0 []), [], rfl, rfl⟩

theorem witness_LinkLocusAndQueueFrame : ∃ (c : Instr) (s s' : State), c = .tqHoldover 5 ∧ exec c s = .next s' :=
  ⟨.tqHoldover 5, tMod tDie, _, rfl, rfl⟩

theorem witness_LinkLocusAndQueueFrame_far : ∃ (c : Instr) (s s' : State), c = .eventFrameReceive 5 [] ∧ exec c s = .next s' :=
  ⟨.eventFrameReceive 5 [], tGate, _, rfl, rfl⟩

theorem witness_SafetyAndSingleWireFrame_safety : ∃ (c : Instr) (s s' : State), c = .gwOkTimeout 5 ∧ exec c s = .next s' :=
  ⟨.gwOkTimeout 5, tMod tDie, _, rfl, rfl⟩

theorem witness_SafetyAndSingleWireFrame_wire : ∃ (c : Instr) (s s' : State), c = .swpLineShort 5 1 ∧ exec c s = .next s' :=
  ⟨.swpLineShort 5 1, wireMod streamPort, _, rfl, rfl⟩

theorem witness_DieCommandsFrame : ∃ (c : Instr) (s s' : State), c = .gateWindowOpen 5 1 ∧ exec c s = .next s' :=
  ⟨.gateWindowOpen 5 1, tMod gateDie, _, rfl, rfl⟩

theorem witness_ShadowWriteFrame_0 :
    ∃ (t lo : Nat) (c : Cmd) (data : List Byte) (s s' : State), lo = cfgAddr (rd c.param 1 1) c.target (rd c.param 4 4) ∧
      cellWf s.cfg.b = true ∧ exec (.shadowWrite t c data) s = .next s' :=
  ⟨5, _, tCmd 4 3 0 8 [0, 0x11], zeros 8, tMod tDie, _, rfl, by decide +kernel, rfl⟩

/-- The first cell of block 0x11 and the last of an island's block 0x01 are in range. -/
theorem witness_ShadowWriteFrame_1 :
    (∃ (lo : Nat) (c : Cmd) (s : State), lo = cfgAddr (rd c.param 1 1) c.target (rd c.param 4 4) ∧ s.serves 0x04 c ∧
      cfgRangeOk (rd c.param 1 1) c.target (rd c.param 4 4) c.bufLen = true ∧ s.cfg.pend = none ∧ s.cfg.copying = false) ∧
    ∃ (lo : Nat) (c : Cmd) (s : State), lo = cfgAddr (rd c.param 1 1) c.target (rd c.param 4 4) ∧ s.serves 0x04 c ∧
      cfgRangeOk (rd c.param 1 1) c.target (rd c.param 4 4) c.bufLen = true ∧ s.cfg.pend = none ∧ s.cfg.copying = false :=
  ⟨⟨_, tCmd 4 3 0 8 [0, 0x11], tMod tDie, rfl, by decide +kernel⟩,
   ⟨_, tCmd 4 3 1 4 [0, 0x01, 0, 0, 0x1C], tMod tDie, rfl, by decide +kernel⟩⟩

/-- Opcode, first byte of PARAM, second byte of PARAM: each row of the statement has one. -/
def refusedRows : List (Nat × Byte × Byte) :=
  ((List.range 24).map fun n => (n + 1, 0, 0)) ++ [(5, 1, 0), (5, 2, 0), (9, 1, 0), (0x0D, 1, 0), (0x0D, 2, 0), (0x0D, 3, 0), (0x0E, 1, 0)] ++
    [(0x0E, 2, 0), (0x0E, 3, 0), (0x13, 1, 1), (0x13, 1, 2)]

/-- A byte of PARAM that must be 0 is not: every opcode refuses it, whatever its row. -/
theorem witness_RefusedCommandsOnlyComplete :
    ∀ x ∈ refusedRows, ∃ (c : Cmd) (st : Status), c = tCmd x.1 3 0 0 ([x.2.1, x.2.2] ++ zeros 37 ++ [1]) ∧
      (tMod tDie).executes = true ∧ (tMod tDie).isMine x.1 c = true ∧ (tMod tDie).present c = true ∧ ((tMod tDie).at_ 0).chkBusy c = false ∧
      (tMod tDie).power.st = 0 ∧ (tMod tDie).refusal x.1 c = some st := by
  have h : refusedRows.all (fun x =>
      let c := tCmd x.1 3 0 0 ([x.2.1, x.2.2] ++ zeros 37 ++ [1])
      (tMod tDie).executes && (tMod tDie).isMine x.1 c && (tMod tDie).present c && !((tMod tDie).at_ 0).chkBusy c && (tMod tDie).power.st == 0 && ((tMod tDie).refusal x.1 c).isSome) = true := by
    decide +kernel
  intro x hx
  have h' := (List.all_eq_true.mp h) x hx
  simp only [Bool.and_eq_true, Bool.not_eq_true', beq_iff_eq, Option.isSome_iff_exists] at h'
  obtain ⟨⟨⟨⟨⟨h1, h2⟩, h3⟩, h4⟩, h5⟩, st, h6⟩ := h'
  exact ⟨_, st, rfl, h1, h2, h3, h4, h5, h6⟩

theorem witness_GatePeriodBoundsDuty :
    ∃ (s : State) (k window : Nat), window = s.fF 0x01 k 0 15 8 * 50000 + impulseLen (s.rateOf k) (s.filtOf k) ∧ 0 < window :=
  ⟨tMod tDie, 1, _, rfl, by decide +kernel⟩

/-- A part with a pending commit to check, whose set B holds `v` at an offset of a block. -/
def checkMod (block off v : Nat) : State := put pendMod block 0 off v

/-- Each clause of R247 at the value next to its range, with a commit to check. -/
theorem witness_PortFieldsOutOfRangeRejectTheCommit_0 :
    (∃ p s w, s = checkMod 0x11 0 (119 * 65536 + 1) ∧ s.cfg.pend = some p ∧ p.checked = false ∧ s.cfg.waiting = [] ∧
      w = cellWord s.cfg.b 0x11 0 0 ∧ bit w 0 = true ∧ bits w 31 16 < 120) ∧
    (∃ p s w, s = checkMod 0x11 4 (10001 * 65536 + 1) ∧ s.cfg.pend = some p ∧ p.checked = false ∧ s.cfg.waiting = [] ∧
      w = cellWord s.cfg.b 0x11 0 4 ∧ bit w 0 = true ∧ 10000 < bits w 31 16) ∧
    ∃ p s w, s = checkMod 0x11 4 8 ∧ s.cfg.pend = some p ∧ p.checked = false ∧ s.cfg.waiting = [] ∧
      w = cellWord s.cfg.b 0x11 0 4 ∧ bit w 3 = true :=
  ⟨⟨tPend, _, _, rfl, rfl, rfl, rfl, rfl, by decide +kernel⟩, ⟨tPend, _, _, rfl, rfl, rfl, rfl, rfl, by decide +kernel⟩,
   ⟨tPend, _, _, rfl, rfl, rfl, rfl, rfl, by decide +kernel⟩⟩

/-- Both ports enabled, at 120 and at 10,000. -/
def portMap : List Host.Cell := cellWrite [] (blockLo 0x11 0) (le 4 (120 * 65536 + 1) ++ le 4 (10000 * 65536 + 1))

theorem witness_PortFieldsOutOfRangeRejectTheCommit_1 :
    ∃ m : List Host.Cell, cellWf m = true ∧ (∀ c ∈ m, blockLo 0x11 0 ≤ c.1 → c.1 < blockHi 0x11 0 → c.1 < blockLo 0x11 0 + 8) ∧
      ∀ off w : Nat, off = 0 ∨ off = 4 → w = cellWord m 0x11 0 off →
        bit w 3 = false ∧ (bit w 0 = true → 120 ≤ bits w 31 16 ∧ bits w 31 16 ≤ 10000) := by
  refine ⟨portMap, by decide +kernel, by decide +kernel, ?_⟩
  rintro off w (rfl | rfl) rfl <;> decide +kernel

/-- A value of each field of the Locus block next to its range, with a commit to check. -/
def locusRows : List (Nat × Nat × (State → Bool)) :=
  let f := fun (s : State) (off hi lo : Nat) => bits (cellWord s.cfg.b 0x13 0 off) hi lo
  [(0, 0x31281E00, fun s => decide (f s 0 31 24 < 50)), (0, 0x60281E00, fun s => decide (95 < f s 0 31 24)),
   (0, 0x55091E00, fun s => decide (f s 0 23 16 < 10)), (0, 0x5F5B1E00, fun s => decide (90 < f s 0 23 16)),
   (0, 0x55280900, fun s => decide (f s 0 15 8 < 10)), (0, 0x32321E00, fun s => decide (f s 0 31 24 ≤ f s 0 23 16)),
   (4, 0x15640000, fun s => decide (5475 < f s 4 31 16)), (4, 0x00001564, fun s => decide (5475 < f s 4 15 0)),
   (8, 0x00410000, fun s => decide (64 < f s 8 31 16)), (0, 0x55281E20, fun s => f s 0 7 5 != 0),
   (0, 0x55281E01, fun s => bit (cellWord s.cfg.b 0x13 0 0) 0), (0xC, 0x00000040, fun s => f s 0xC 31 6 != 0)]

theorem witness_LocusFieldsOutOfRangeRejectTheCommit :
    ∀ x ∈ locusRows, (checkMod 0x13 x.1 x.2.1).cfg.pend = some tPend ∧ tPend.checked = false ∧ (checkMod 0x13 x.1 x.2.1).cfg.waiting = [] ∧
      x.2.2 (checkMod 0x13 x.1 x.2.1) = true := by
  have h : locusRows.all (fun x => x.2.2 (checkMod 0x13 x.1 x.2.1)) = true := by decide +kernel
  exact fun x hx => ⟨rfl, rfl, rfl, (List.all_eq_true.mp h) x hx⟩

/-- A value of each field of the power block next to its range. -/
def powerRows : List (Nat × Nat × (State → Bool)) :=
  let f := fun (s : State) (off hi lo : Nat) => bits (cellWord s.cfg.b 0x15 0 off) hi lo
  [(0, 0x01010200, fun s => decide (2 ≤ f s 0 9 8)), (0, 0x00010000, fun s => f s 0 31 24 == 0), (0, 0x01000000, fun s => decide (f s 0 23 16 < 1)),
   (0, 0x01330000, fun s => decide (50 < f s 0 23 16)), (4, 0x1A01, fun s => decide (f s 4 15 8 < 27)), (4, 0x3301, fun s => decide (50 < f s 4 15 8)),
   (4, 0x1B00, fun s => decide (f s 4 7 0 < 1)), (4, 0x1B1A, fun s => decide (25 < f s 4 7 0)), (8, 0, fun s => decide (f s 8 31 16 < 1)),
   (8, 0x02590000, fun s => decide (600 < f s 8 31 16)), (0, 0x01011000, fun s => f s 0 15 12 != 0), (0, 0x01010080, fun s => f s 0 7 0 != 0),
   (4, 0x11B01, fun s => f s 4 31 16 != 0), (8, 0x00010008, fun s => f s 8 15 3 != 0), (0xC, 4, fun s => f s 0xC 15 2 != 0)]

theorem witness_PowerFieldsOutOfRangeRejectTheCommit :
    (∀ x ∈ powerRows, (checkMod 0x15 x.1 x.2.1).cfg.pend = some tPend ∧ tPend.checked = false ∧ (checkMod 0x15 x.1 x.2.1).cfg.waiting = [] ∧
      x.2.2 (checkMod 0x15 x.1 x.2.1) = true) ∧
    ∃ p s, s = checkMod 0x11 0 1 ∧ s.cfg.pend = some p ∧ p.checked = false ∧ s.cfg.waiting = [] ∧
      bit (cellWord s.cfg.b 0x11 0 0) 0 = true ∧ bit (cellWord s.cfg.b 0x15 0 8) 0 = false := by
  have h : powerRows.all (fun x => x.2.2 (checkMod 0x15 x.1 x.2.1)) = true := by decide +kernel
  exact ⟨fun x hx => ⟨rfl, rfl, rfl, (List.all_eq_true.mp h) x hx⟩, tPend, _, rfl, rfl, rfl, rfl, by decide +kernel⟩

/-! ### Witnesses: states and operands that meet the hypotheses of each clause together -/

theorem witness_StepTakesFrontCommand_1 :
    ∃ (s : State), s.pending = [] :=
  ⟨State.reset, by decide +kernel⟩

theorem witness_StepConsumesExactlyOneCommand_1 :
    ∃ (s : State) (c : Instr) (rest : List Instr), s.pending = c :: rest :=
  ⟨State.reset.withPending [.discoverSend 5], .discoverSend 5, [], by decide +kernel⟩

theorem witness_SettledLifecycleIsKept_0 :
    ∃ (s : State) (s' : State), s.fixed.settled ∧ step s = .next s' :=
  ⟨State.reset.withPending [.warmExpire 5 1], _, ⟨rfl, fun h => absurd h (by decide)⟩, rfl⟩

theorem witness_OnlyNamedCommandsChangeTheGuardedState_0 :
    ∃ (s : State) (c : Instr) (rest : List Instr), s.fixed.settled ∧ s.pending = c :: rest ∧ (∀ t d data, c ≠ .lifeGenkey t d data ∧
      c ≠ .lifeSeal t d data ∧ c ≠ .lifeUpdate t d data ∧ c ≠ .lifeRelocate t d data ∧ c ≠ .lifeReturn t d data) ∧ (∀ t image,
      c ≠ .svnCommit t image) ∧ (∀ t, c ≠ .configSwap t) ∧ (∀ t d, c ≠ .balancePolicy t d) ∧ (∀ t, c ≠ .holdTimeExpire t) :=
  ⟨State.reset.withPending [.warmExpire 5 1], .warmExpire 5 1, [], ⟨rfl, fun h => absurd h (by decide)⟩, rfl, fun _ _ _ => by simp,
    fun _ _ => by simp, fun _ => by simp, fun _ _ => by simp, fun _ => by simp⟩

theorem witness_SecurityVersionFusesOnlyRise_0 :
    ∃ (s : State) (s' : State), step s = .next s' :=
  ⟨State.reset.withPending [.svnCommit 5 2], _, rfl⟩

theorem witness_ReturnedIsFinal_0 :
    ∃ (s : State) (s' : State), s.fixed.settled ∧ s.trust.life = 3 ∧ step s = .next s' :=
  ⟨retired.withPending [.warmExpire 5 1], _, ⟨rfl, fun _ => ⟨rfl, rfl, rfl, rfl, rfl⟩⟩, by decide +kernel, rfl⟩

theorem witness_PrecisionCommandsComplete_0 :
    ∃ (t : Nat) (k : Nat) (d : Die) (s : State) (tj : Int) (e : Die) (w : State), s.hasDie k d ∧ d.prec.running = true ∧ d.precOn = true ∧
      s.inRunDoze = true ∧ w = (((s.at_ t).modDie k fun x => { x with prec := { x.prec with temp := tj } }).atSample k) ∧ t % w.periodOf k = 0 ∧
      (w.applyCap k).hasDie k e :=
  ⟨20000000, 1, tDie, tMod tDie, 2500, _, _, by decide +kernel, by decide +kernel, by decide +kernel, by decide +kernel, rfl, by decide +kernel,
    ⟨by decide +kernel, rfl⟩⟩

theorem witness_PrecisionCommandsComplete_1 :
    ∃ (t : Nat) (k : Nat) (d : Die) (s : State) (b : Bool) (e : Die) (w : State), s.hasDie k d ∧ w = (s.at_ t).takePrec k ∧ w.hasDie k e ∧
      e.prec.running = true ∧ e.precOn = true ∧ e.prec.held.getD (b2n b) 0 = 0 ∧ e.prec.failed.contains (25 + b2n b) = false ∧
      e.prec.spareStep.getD (b2n b) 0 + w.fF 0x01 k 8 7 0 * 1000000000 ≤ t :=
  ⟨60000000000, 1, tDie, tMod tDie, true, _, _, by decide +kernel, rfl, ⟨by decide +kernel, rfl⟩, by decide +kernel⟩

theorem witness_PrecisionCommandsComplete_2 :
    ∃ (t : Nat) (k : Nat) (d : Die) (s : State), s.hasDie k d ∧ d.precOn = true ∧ d.prec.upAt + 600000000000 ≤ t :=
  ⟨600000000000, 1, tDie, tMod tDie, by decide +kernel⟩

theorem witness_PrecisionCommandsComplete_3 :
    ∃ (k : Nat) (d : Die) (s : State), s.hasDie k d ∧ d.precOn = true ∧ ((s.selfTest[k]?).bind (·.slice)).map (·.1) ≠ some 0x0501 :=
  ⟨1, tDie, tMod tDie, by decide +kernel⟩

theorem witness_PrecisionCommandsComplete_4 :
    ∃ (t : Nat) (k : Nat) (d : Die) (s : State), s.hasDie k d ∧ d.precOn = true ∧ d.prec.refCount ≠ 0 ∧ d.prec.refAt + 10000000000 ≤ t :=
  ⟨10000000000, 1, refDie, tMod refDie, by decide +kernel⟩

theorem witness_PrecisionCommandsComplete_5 :
    ∃ (t : Nat) (k : Nat) (d : Die) (s : State) (e : Die) (w : State), s.hasDie k d ∧ w = (s.at_ t).takePrec k ∧ w.hasDie k e ∧ e.prec.running = true ∧
      e.precOn = true ∧ w.fB 0x01 k 0 5 = true ∧ e.prot.anyOn = true ∧ t + windowLen (w.fF 0x01 k 0 15 8) (w.rateOf k) (w.filtOf k) = w.gateEnd k e :=
  ⟨993600000, 1, gateDie, put (tMod gateDie) 1 1 0 0x03E80821, _, _, by decide +kernel, rfl, ⟨by decide +kernel, rfl⟩, by decide +kernel⟩

theorem witness_PrecisionCommandsComplete_6 :
    ∃ (t : Nat) (k : Nat) (d : Die) (s : State) (e : Nat), s.hasDie k d ∧ d.prec.window = some e ∧ e ≤ t :=
  ⟨1000, 1, windowDie, tMod windowDie, 1000, by decide +kernel⟩

theorem witness_ImpedanceCommandsComplete_0 :
    ∃ (t : Nat) (k : Nat) (band : Nat) (d : Die) (s : State) (j : Nat), ((s.at_ t).adoptImp k).hasDie k d ∧ ((s.at_ t).adoptImp k).impEn k = true ∧
      ((s.at_ t).adoptImp k).bandEn k band = true ∧ d.prot.protOnly = false ∧ band ≤ 2 ∧ band < d.imp.segNext.length ∧
      d.imp.segNext.getD band none = some j ∧ ((s.at_ t).adoptImp k).avgLen k band ≠ 0 ∧ (j % ((s.at_ t).adoptImp k).avgLen k band = 0 ∨ ∃ av,
      d.imp.avgs.getD band none = some av) ∧ (j * 2048 + 4096) * bandPeriod band ≤ t ∧
      ((s.at_ t).adoptImp k).curSettled k ((j * 2048 + 4096) * bandPeriod band) d.imp = true :=
  ⟨8000000000, 1, 1, impDie, impMod impDie, 0, by decide +kernel, by decide +kernel, by decide +kernel, rfl, Nat.le_succ 1, by decide +kernel, rfl,
    by decide +kernel, .inl (by decide +kernel), by decide +kernel⟩

theorem witness_ImpedanceCommandsComplete_1 :
    ∃ (t : Nat) (k : Nat) (band : Nat) (d : Die) (s : State) (av : _) (j : _), ((s.at_ t).adoptImp k).hasDie k d ∧
      ((s.at_ t).adoptImp k).impEn k = true ∧ d.prot.protOnly = false ∧ d.imp.avgs.getD band none = some av ∧ d.imp.segNext.getD band none = some j ∧
      j = (av.index + 1) * ((s.at_ t).adoptImp k).avgLen k band :=
  ⟨0, 1, 1, impDone, impMod impDone, impAvg, 8, by decide +kernel⟩

theorem witness_ImpedanceCommandsComplete_2 :
    ∃ (t : Nat) (k : Nat) (d : Die) (s : State) (w : State) (per : Nat) (len : Nat), ((s.at_ t).adoptImp k).hasDie k d ∧ w = (s.at_ t).adoptImp k ∧
      per = chipPeriod (w.fF 0x05 k 0 7 6) ∧ len = w.avgLen k (w.fF 0x05 k 0 7 6) * bandHop (w.fF 0x05 k 0 7 6) ∧ len ≠ 0 ∧ w.injInForce k d = true ∧
      w.injRuns k d = true ∧ (t % len) % per = 0 ∧ (t % len ≠ 0 ∨ d.imp.injAvg = some (t / len)) ∧ d.imp.injActive = true :=
  ⟨0, 1, injDie, impMod injDie, ((impMod injDie).at_ 0).adoptImp 1, _, 16384000000, by decide +kernel, by decide +kernel, rfl, by decide +kernel⟩

theorem witness_ImpedanceCommandsComplete_3 :
    ∃ (t : Nat) (k : Nat) (d : Die) (s : State) (w : State) (per : Nat) (len : Nat), ((s.at_ t).adoptImp k).hasDie k d ∧ w = (s.at_ t).adoptImp k ∧
      per = chipPeriod (w.fF 0x05 k 0 7 6) ∧ len = w.avgLen k (w.fF 0x05 k 0 7 6) * bandHop (w.fF 0x05 k 0 7 6) ∧ len ≠ 0 ∧ w.injInForce k d = true ∧
      w.injRuns k d = true ∧ (t % len) % per = 0 ∧ t % len = 0 ∧ d.imp.injAvg ≠ some (t / len) :=
  ⟨0, 1, impDie, impMod impDie, ((impMod impDie).at_ 0).adoptImp 1, _, 16384000000, by decide +kernel, by decide +kernel, rfl, by decide +kernel⟩

theorem witness_FastPathCommandsComplete_0 :
    ∃ (t : Nat) (k : Nat) (d : Die) (s : State) (w0 : State) (w1 : State), w0 = (((s.at_ t).takePrec k).adoptImp k).fastDomain k ∧
      w1 = (if w0.checking k then w0.settleChannels k else w0) ∧ w1.hasDie k d ∧ w1.fastRuns k d = true ∧ t % 1000 = 0 :=
  ⟨1000, 1, _, put (tMod tDie) 2 1 0 0x40, _, _, rfl, rfl, ⟨by decide +kernel, rfl⟩, by decide +kernel⟩

theorem witness_FastPathCommandsComplete_1 :
    ∃ (t : Nat) (k : Nat) (x : Nat) (d : Die) (c : Capture) (s : State), s.hasDie k d ∧ d.fast.cap = some c ∧ c.src = 0 ∧ c.triggered = false ∧
      c.tTrig = some x ∧ x ≤ t ∧ d.stoppedAt t (trigHold x) = false :=
  ⟨5000, 1, 5000, capDie tCap, tCap, tMod (capDie tCap), by decide +kernel⟩

theorem witness_FastPathCommandsComplete_2 :
    ∃ (t : Nat) (a : Nat) (te : Nat) (k : Nat) (d : Die) (c : Capture) (s : State), s.hasDie k d ∧ d.fast.cap = some c ∧ c.src = 1 ∧ c.a = a ∧
      c.tTrig = none ∧ c.triggered = false ∧ d.stoppedAt t (trigHold (te + c.delay * 10)) = false :=
  ⟨9000, 500, 9000, 1, capDie { tCap with src := 1, tTrig := none }, { tCap with src := 1, tTrig := none },
    tMod (capDie { tCap with src := 1, tTrig := none }), by decide +kernel⟩

theorem witness_FastPathCommandsComplete_3 :
    ∃ (t : Nat) (k : Nat) (d : Die) (c : Capture) (s : State), s.hasDie k d ∧ d.fast.cap = some c ∧ c.src = 1 ∧ c.tTrig = none ∧
      c.a + c.timeoutMs * 1000000 ≤ t :=
  ⟨1000500, 1, capDie { tCap with src := 1, tTrig := none }, { tCap with src := 1, tTrig := none },
    tMod (capDie { tCap with src := 1, tTrig := none }), by decide +kernel⟩

theorem witness_FastPathCommandsComplete_4 :
    ∃ (t : Nat) (k : Nat) (d : Die) (c : Capture) (b : List FastFrame × Bool) (s : State), s.hasDie k d ∧ s.inRun = true ∧ s.hubTakes k = true ∧
      d.precOn = true ∧ d.t0 = [] ∧ d.t0Events = [] ∧ d.prot.notices = [] ∧ d.fast.cap = some c ∧ d.fast.captures.find? (d.drains t) = some c ∧
      d.fast.nextBlock c t = some b :=
  ⟨0, 1, drainDie, drainCap, _, tMod drainDie, by decide +kernel, by decide +kernel, by decide +kernel, by decide +kernel, by decide +kernel,
    by decide +kernel, by decide +kernel, by decide +kernel, by decide +kernel, rfl⟩

theorem witness_FastPathCommandsComplete_5 :
    ∃ (t : Nat) (rising : Bool) (stableNs : Nat) (s : State), s.isGateway = true ∧ s.part.serving = true ∧ s.part.hubHeld = false ∧
      s.fB 0x02 0 0 0 = true ∧ 40 ≤ stableNs ∧ s.sync.level ≠ some rising ∧ rising ≠ s.fB 0x02 0 0 1 ∧
      (s.sync.level.isSome = true → s.sync.since + 100 ≤ t) ∧ (∀ e, s.sync.lastEdge = some e → e + 10000 ≤ t) :=
  ⟨100, true, 40, put tGate 2 0 0 1, by decide +kernel, by decide +kernel, by decide +kernel, by decide +kernel, by decide +kernel, by decide +kernel,
    by decide +kernel, by decide +kernel, fun _ h => by simp [put, tGate, tMod, State.reset, SyncState.initial, State.modCfg] at h⟩

theorem witness_SequencerCommandsComplete_0 :
    ∃ (t : Nat) (k : Nat) (d : Die) (s : State) (w : State) (x : SeqRun), w = (s.at_ t).adoptSeq k ∧ w.hasDie k d ∧ d.seq.cur = some x ∧
      w.seqChannel k x.entry ≠ 0x81 ∧ t = x.tStart + bits (w.seqCtrl k x.entry) 31 16 * 1000 + (x.words.length + 1) * ratePeriod (bits (w.seqMode k x.entry) 2 0) ∧ x.words.length + 1 ≤ filtOrder (bit (w.seqMode k x.entry) 3) + w.seqRepeat k x.entry :=
  ⟨4001000, 1, seqDie (tSeq []), seqMod (seqDie (tSeq [])), _, tSeq [], rfl, by decide +kernel⟩

theorem witness_SequencerCommandsComplete_1 :
    ∃ (t : Nat) (k : Nat) (d : Die) (s : State) (w : State) (x : SeqRun), w = (s.at_ t).adoptSeq k ∧ w.hasDie k d ∧ d.seq.cur = some x ∧
      w.seqChannel k x.entry = 0x81 ∧ x.tStart ≤ t :=
  ⟨0, 1, seqDie (idSeq []), seqMod (seqDie (idSeq [])), _, idSeq [], rfl, by decide +kernel⟩

theorem witness_SequencerCommandsComplete_2 :
    ∃ (t : Nat) (k : Nat) (d : Die) (s : State) (w : State) (x : SeqRun), w = (s.at_ t).adoptSeq k ∧ w.hasDie k d ∧ d.seq.cur = some x ∧
      w.seqChannel k x.entry ≠ 0x81 ∧ x.words.length = filtOrder (bit (w.seqMode k x.entry) 3) + w.seqRepeat k x.entry :=
  ⟨0, 1, seqDie (tSeq [0, 0, 0, 0]), seqMod (seqDie (tSeq [0, 0, 0, 0])), _, tSeq [0, 0, 0, 0], rfl, by decide +kernel⟩

theorem witness_SequencerCommandsComplete_3 :
    ∃ (t : Nat) (k : Nat) (d : Die) (s : State) (w : State) (gain : Nat) (i : Nat) (zener : ZenerRead) (c : M30Cal), w = (s.at_ t).adoptSeq k ∧
      w.hasDie k d ∧ d.precOn = true ∧ d.prot.protOnly = false ∧ zener.len ≤ 3000000 ∧ gain < 3 ∧ i < 64 ∧ w.seqRepeat k i ≠ 0 ∧
      w.seqChannel k i ≠ 0x81 ∧ bits (w.seqMode k i) 7 6 = gain ∧ d.seq.atBoundary t = true ∧ d.seq.taken = false ∧ d.seq.m30[gain]? = some c ∧ (∀ x,
      c.lastAt = some x → x + 60000000000 ≤ t) :=
  ⟨0, 1, tDie, seqMod tDie, _, 0, 0, ⟨0, 0⟩, { lastAt := none, prev := none, ofs := 0, gain := 0, rejected := false }, rfl, by decide +kernel,
    by decide +kernel, by decide +kernel, by decide +kernel, by decide +kernel, by decide +kernel, by decide +kernel, by decide +kernel,
    by decide +kernel, by decide +kernel, by decide +kernel, rfl, fun _ h => by simp at h⟩

theorem witness_SequencerCommandsComplete_4 :
    ∃ (t : Nat) (k : Nat) (d : Die) (s : State) (w : State), w = (s.at_ t).adoptSeq k ∧ w.hasDie k d ∧ d.precOn = true ∧ d.seq.urgent = false ∧
      d.seq.cur = none :=
  ⟨0, 1, tDie, seqMod tDie, _, rfl, by decide +kernel⟩

theorem witness_SequencerCommandsComplete_5 :
    ∃ (t : Nat) (k : Nat) (d : Die) (s : State) (w : State), w = (s.at_ t).adoptSeq k ∧ w.hasDie k d ∧ d.seq.urgent = true ∧ d.seq.running = false :=
  ⟨0, 1, urgentDie false, seqMod (urgentDie false), _, rfl, by decide +kernel⟩

theorem witness_SequencerCommandsComplete_6 :
    ∃ (t : Nat) (k : Nat) (d : Die) (s : State) (w : State) (v : State) (e : Die), w = (s.at_ t).adoptSeq k ∧ w.hasDie k d ∧ d.seq.urgent = true ∧
      v = ((w.owEnd k).modDie k fun y => { y with seq := { y.seq with urgent := false } }) ∧ v.hasDie k e ∧ v.seqMay k e = true ∧
      e.seq.running = true ∧ e.seq.cur = none ∧ e.seq.resume < 64 :=
  ⟨0, 1, urgentDie true, seqMod (urgentDie true), _, _, _, rfl, by decide +kernel, by decide +kernel, rfl, ⟨by decide +kernel, rfl⟩,
    by decide +kernel⟩

theorem witness_CalibrationCommandsComplete_0 :
    ∃ (t : Nat) (k : Nat) (d : Die) (s : State) (r : CalRun), s.hasDie k d ∧ d.cal.run = some r ∧ d.precOn = true ∧ s.fB 0x04 k 0 0 = true ∧
      r.tBegin + s.fF 0x04 k 0 31 16 * 60000000000 ≤ t :=
  ⟨7200000000000, 1, calDie, put (tMod calDie) 4 1 0 0x003C0001, CalRun.opened 0, by decide +kernel⟩

theorem witness_CalibrationCommandsComplete_1 :
    ∃ (k : Nat) (d : Die) (s : State) (r : CalRun), s.hasDie k d ∧ d.cal.solving = some r :=
  ⟨1, calDie, tMod calDie, CalRun.opened 1, by decide +kernel⟩

theorem witness_CalibrationCommandsComplete_2 :
    ∃ (t : Nat) (k : Nat) (d : Die) (s : State) (r : CalRun), s.hasDie k d ∧ d.cal.solving = some r ∧ d.cal.heldCand = none ∧
      ((s.at_ t).solveRun k d r).1.rejected d.cal.zc ((bits (s.regF 0x04 k 4) 31 16 : Rat) / 10) = false :=
  ⟨0, 1, calDie, tMod calDie, CalRun.opened 1, by decide +kernel⟩

theorem witness_CalibrationCommandsComplete_3 :
    ∃ (t : Nat) (k : Nat) (d : Die) (s : State) (c : Nat) (a : Nat), s.hasDie k d ∧ d.cal.acceptAt.getD (c - 1) none = some a ∧ 1 ≤ c ∧ c ≤ 29 ∧
      a + 30 * 86400 * 1000000000 ≤ t ∧ d.cal.stale.getD (c - 1) true = false :=
  ⟨2592000000000000, 1, staleDie, tMod staleDie, 29, 0, by decide +kernel⟩

theorem witness_CurrentBlockCommandsComplete_0 :
    ∃ (t : Nat) (k : Nat) (d : Die) (s : State) (w : State), (s.at_ t).islands.find? (fun j => (s.at_ t).isCurDie j) = some k ∧
      w = (s.at_ t).adoptImp k ∧ w.hasDie k d ∧ w.impRuns k d = true ∧ w.inRun = true ∧ 1000000 ≤ t ∧ w.hubTakes k = true :=
  ⟨1000000, 1, impDie, curMod impDie, _, by decide +kernel, rfl, by decide +kernel⟩

theorem witness_CurrentBlockCommandsComplete_1 :
    ∃ (t : Nat) (bytes : List Byte) (s : State) (w : State), (s.at_ t).accept (frameOf bytes) = (.deliver, w) ∧ (frameOf bytes).payload.length = 460 ∧
      crc32cOk (frameOf bytes).payload = true ∧ rd (frameOf bytes).payload 0 2 = 0x0602 :=
  ⟨0, curBytes, tMod tDie, tTaken (tMod tDie) 0 curBytes, by decide +kernel⟩

theorem witness_CurrentBlockCommandsComplete_3 :
    ∃ (s : State) (w : State) (t0 : Nat) (k : Nat) (d : Die), w = s.adoptImp k ∧ w.hasDie k d ∧ w.impEn k = true ∧ d.dspOn = true ∧
      d.prot.protOnly = false ∧ t0 ∉ d.imp.seenT0 ∧ t0 + 1000000 + w.fF 0x05 k 4 31 16 * 1000000 ≤ w.now ∧ d.imp.missRun + 1 ≠ 1000 :=
  ⟨{ (curMod impDie) with now := 100000000 }, _, 1000000, 1, impDie, rfl, by decide +kernel⟩

theorem witness_CurrentBlockCommandsComplete_4 :
    ∃ (s : State) (w : State) (t0 : Nat) (k : Nat) (d : Die), w = s.adoptImp k ∧ w.hasDie k d ∧ w.impEn k = true ∧ d.dspOn = true ∧
      d.prot.protOnly = false ∧ t0 ∉ d.imp.seenT0 ∧ t0 + 1000000 + w.fF 0x05 k 4 31 16 * 1000000 ≤ w.now ∧ d.imp.missRun + 1 = 1000 :=
  ⟨{ (curMod missDie) with now := 100000000 }, _, 1000000, 1, missDie, rfl, by decide +kernel⟩

theorem witness_ChargeBlockCommandsComplete_0 :
    ∃ (t : Nat) (k : Nat) (sh : Nat) (d : Die) (x : ShuntAcc) (s : State) (w : State), w = (s.at_ t).adoptEst ∧
      ((w.islands.map w.socSrc).filter fun r => r.1 == w.pos && w.islands.contains r.2.1 && (r.2.2 == 1 || r.2.2 == 2)).eraseDups = [(w.pos, k, sh)] ∧
      w.hasDie k d ∧ w.inRunDoze = true ∧ w.hubTakes k = true ∧ w.link.position.isSome = true ∧
      groupDelay (w.rateOf k) (w.filtOf k) + 100000000 ≤ w.now ∧
      d.prec.shunts.find? (fun y => y.t0 == ((w.now - groupDelay (w.rateOf k) (w.filtOf k)) / 100000000 - 1) * 100000000) = some x :=
  ⟨400000000, 1, _, shuntDie, tShunt, socMod shuntDie, _, rfl, rfl, by decide +kernel⟩

theorem witness_ChargeBlockCommandsComplete_1 :
    ∃ (t : Nat) (bytes : List Byte) (s : State) (w : State), (s.at_ t).accept (frameOf bytes) = (.deliver, w) ∧ (frameOf bytes).payload.length = 36 ∧
      crc32cOk (frameOf bytes).payload = true ∧ rd (frameOf bytes).payload 0 2 = 0x0702 :=
  ⟨0, chargeBytes, tMod tDie, tTaken (tMod tDie) 0 chargeBytes, by decide +kernel⟩

theorem witness_ChargeBlockCommandsComplete_2 :
    ∃ (t : Nat) (t0 : Nat) (s : State) (w : State), w = (s.at_ t).adoptEst.meterGap t0 ∧ t0 + 150000000 ≤ t ∧
      w.islands.all (fun k => (w.socSrc k).1 == 0xFF) = true :=
  ⟨150000000, 0, tMod tDie, _, rfl, by decide +kernel⟩

theorem witness_ChargeBlockCommandsComplete_3 :
    ∃ (t : Nat) (t0 : Nat) (s : State) (w : State), w = (s.at_ t).adoptEst.meterGap t0 ∧ t0 + 150000000 ≤ t ∧
      w.islands.all (fun k => (w.socSrc k).1 == 0xFF) = false :=
  ⟨150000000, 0, socMod tDie, _, rfl, by decide +kernel⟩

theorem witness_ChargeBlockCommandsComplete_4 :
    ∃ (t0 : Nat) (s : State), s.meterSrc.isSome = true ∧ s.inRunDoze = true ∧ s.trust.meterSeen < t0 + 100000000 :=
  ⟨0, socMod tDie, by decide +kernel⟩

theorem witness_ChargeBlockCommandsComplete_5 :
    ∃ (t0 : Nat) (s : State), s.meterSrc.isSome = true ∧ s.inRunDoze = true ∧ s.trust.meterSeen < t0 + 100000000 :=
  ⟨0, socMod tDie, by decide +kernel⟩

theorem witness_ChargeBlockCommandsComplete_6 :
    ∃ (t0 : Nat) (k : Nat) (d : Die) (s : State), s.hasDie k d ∧ s.stateEn k = true ∧ d.est.lastT0 < t0 + 100000000 ∧ (s.socSrc k).1 ≠ 0xFF ∧
      d.est.countLost = false :=
  ⟨0, 1, tDie, socMod tDie, by decide +kernel⟩

theorem witness_EstimatorCommandsComplete_0 :
    ∃ (t : Nat) (k : Nat) (d : Die) (s : State) (w : State), w = (s.at_ t).adoptEst ∧ w.hasDie k d ∧ w.stateEn k = true ∧ 1000000000 ≤ t ∧
      d.dspOn = true ∧ w.inRunDoze = true ∧ w.hubTakes k = true :=
  ⟨1000000000, 1, tDie, socMod tDie, _, rfl, by decide +kernel⟩

theorem witness_EstimatorCommandsComplete_1 :
    ∃ (t : Nat) (k : Nat) (d : Die) (s : State) (w : State), w = (s.at_ t).adoptEst ∧ w.hasDie k d ∧ w.stateEn k = true ∧ w.inRun = true ∧
      w.warned = false :=
  ⟨0, 1, tDie, socMod tDie, _, rfl, by decide +kernel⟩

theorem witness_EstimatorCommandsComplete_2 :
    ∃ (t : Nat) (k : Nat) (d : Die) (s : State) (w : State), w = (s.at_ t).adoptEst ∧ w.hasDie k d ∧ w.stateEn k = true ∧ w.inRun = true ∧
      w.warned = true :=
  ⟨0, 1, tDie, { (socMod tDie) with power := { (socMod tDie).power with warnAt := some 0 } }, _, rfl, by decide +kernel⟩

theorem witness_ComparatorCommandsComplete_0 :
    ∃ (t : Nat) (k : Nat) (d : Die) (s : State), s.hasDie k d ∧ d.prot.aonOn = true ∧ (s.at_ t).tickDue k d = true :=
  ⟨1000000, 1, tDie, tMod tDie, by decide +kernel⟩

theorem witness_ComparatorCommandsComplete_1 :
    ∃ (k : Nat) (d : Die) (s : State), s.hasDie k d ∧ d.prot.aonOn = false :=
  ⟨1, aonOff, tMod aonOff, by decide +kernel⟩

theorem witness_ComparatorCommandsComplete_2 :
    ∃ (k : Nat) (d : Die) (s : State), s.hasDie k d ∧ d.prot.aonOn = true :=
  ⟨1, tDie, tMod tDie, by decide +kernel⟩

theorem witness_ComparatorCommandsComplete_3 :
    ∃ (k : Nat) (d : Die) (s : State) (side : Side) (n : Side × List Byte), s.hasDie k d ∧ (d.prot.notices.find? fun n => n.1 == side) = some n ∧
      s.part.serving = true ∧ s.part.hubHeld = false ∧ s.reach k = true ∧ s.pathIntact k side = true :=
  ⟨1, noticeDie, tMod noticeDie, .up, (.up, tNotice), by decide +kernel⟩

theorem witness_ComparatorCommandsComplete_4 :
    ∃ (t : Nat) (k : Nat) (d : Die) (s : State) (uv : Bool), s.hasDie k d ∧ d.precOn = true ∧ d.seq.urgent = true ∧ d.prot.owRun = none ∧
      (s.at_ t).readbackDue d (b2n uv) = true :=
  ⟨10000000000, 1, rbDie, tMod rbDie, true, by decide +kernel⟩

theorem witness_ComparatorCommandsComplete_5 :
    ∃ (t : Nat) (k : Nat) (d : Die) (s : State) (uv : Bool) (v : Rat), s.hasDie k d ∧ d.precOn = true ∧ d.seq.urgent = true ∧ d.prot.owRun = none ∧
      (s.at_ t).readbackDue d (b2n uv) = true ∧ 3 / 1000 < rabs (v - ((s.at_ t).levels k uv).1) ∧ d.prot.rbFail.getD (b2n uv) 0 = 1 :=
  ⟨10000000000, 1, rbDie, tMod rbDie, false, 0, by decide +kernel⟩

theorem witness_WireCheckCommandsComplete_0 :
    ∃ (t : Nat) (k : Nat) (d : Die) (s : State), s.hasDie k d ∧ d.precOn = true ∧ d.prot.protOnly = false ∧ s.fF 0x07 k 0x024 31 24 ≠ 0 ∧
      d.prot.suspect = [] ∧ d.prot.lastSweep + s.fF 0x07 k 0x024 31 24 * 40000000 ≤ t :=
  ⟨2400000000, 1, tDie, tMod tDie, by decide +kernel⟩

theorem witness_WireCheckCommandsComplete_1 :
    ∃ (t : Nat) (k : Nat) (d : Die) (s : State) (pre : List Rat) (post : List Rat) (w : Nat) (rest : List Nat) (v : State), s.hasDie k d ∧
      d.precOn = true ∧ d.prot.suspect = w :: rest ∧ (s.at_ t).owDone k w d = true ∧
      v = ((s.at_ t).modDie k fun x => { x with prot := { x.prot with suspect := rest } }).owEnd k ∧ v.owJudge k w d pre post = false :=
  ⟨6000000, 1, owDie, tMod owDie, [], [], 24, [], _, by decide +kernel, by decide +kernel, by decide +kernel, by decide +kernel, rfl,
    by decide +kernel⟩

theorem witness_WireCheckCommandsComplete_2 :
    ∃ (t : Nat) (k : Nat) (d : Die) (s : State) (pre : List Rat) (post : List Rat) (w : Nat) (rest : List Nat) (v : State), s.hasDie k d ∧
      d.precOn = true ∧ d.prot.suspect = w :: rest ∧ (s.at_ t).owDone k w d = true ∧
      v = ((s.at_ t).modDie k fun x => { x with prot := { x.prot with suspect := rest } }).owEnd k ∧ v.owJudge k w d pre post = true ∧
      d.prot.wire.testBit w = false :=
  ⟨6000000, 1, owDie, tMod owDie, owPre, owPost, 24, [], _, by decide +kernel, by decide +kernel, by decide +kernel, by decide +kernel, rfl,
    by decide +kernel⟩

theorem witness_WireCheckCommandsComplete_3 :
    ∃ (t : Nat) (k : Nat) (d : Die) (s : State) (w : Nat) (x : Nat × Nat), s.hasDie k d ∧ d.precOn = true ∧ w ≤ 24 ∧ d.prot.protOnly = false ∧
      d.prot.wireAt.find? (fun y => y.1 == w) = some x ∧ x.2 + 10000000000 ≤ t ∧ (s.at_ t).owDone k w d = true :=
  ⟨10000000000, 1, brokenDie, tMod brokenDie, 24, (24, 0), by decide +kernel⟩

theorem witness_WireCheckCommandsComplete_4 :
    ∃ (k : Nat) (d : Die) (s : State) (w : Nat), s.hasDie k d ∧ d.precOn = true ∧ 26 ≤ w ∧ w ≤ 29 ∧ d.prot.wire.testBit w = false :=
  ⟨1, tDie, tMod tDie, 29, by decide +kernel⟩

theorem witness_BalancingCommandsComplete_0 :
    ∃ (t : Nat) (k : Nat) (d : Die) (s : State) (w : State) (u : State) (e : Die), s.hasDie k d ∧ d.precOn = true ∧ s.inRunDoze = true ∧
      s.part.serving = true ∧ s.balStepNs k ≠ 0 ∧ t % s.balStepNs k = 0 ∧
      w = (((s.at_ t).takeRange 0x07 k 0x14 0xE0).policyTaken k).modDie k (fun x => { x with prot := { x.prot with order := [], chans := x.prot.chans.map fun c => (c.markTo t).endStep } }) ∧ u = (if w.balMode k = 2 then w.clearDebts k else w) ∧ u.hasDie k e :=
  ⟨1000000000, 1, tDie, put (tMod tDie) 7 1 0x14 0x02990A08, tStep, _, stepDie, by decide +kernel, by decide +kernel, by decide +kernel,
    by decide +kernel, by decide +kernel, by decide +kernel, by decide +kernel, rfl, by decide +kernel⟩

theorem witness_BalancingCommandsComplete_1 :
    ∃ (t : Nat) (k : Nat) (d : Die) (s : State), s.hasDie k d ∧ d.precOn = true ∧ 2 ≤ s.balMode k ∧ t % 100000000 = 0 :=
  ⟨100000000, 1, tDie, put (tMod tDie) 7 1 0x14 0x02990A08, by decide +kernel⟩

theorem witness_BalancingCommandsComplete_2 :
    ∃ (k : Nat) (d : Die) (s : State) (n : Nat), s.hasDie k d ∧ 1 ≤ n ∧ n ≤ 24 ∧ s.fB 0x07 k 0x014 4 = false ∧ (d.prot.chan n).conducting = true ∧
      (d.prot.chan n).ocHit = false :=
  ⟨1, gateDie, tMod gateDie, 1, by decide +kernel⟩

theorem witness_BalancingCommandsComplete_3 :
    ∃ (k : Nat) (d : Die) (s : State), s.hasDie k d ∧ d.precOn = true ∧ d.prot.kaDue = true :=
  ⟨1, keepDie, tMod keepDie, by decide +kernel⟩

theorem witness_BalancingCommandsComplete_4 :
    ∃ (t : Nat) (k : Nat) (d : Die) (s : State), s.hasDie k d ∧ d.precOn = true ∧ d.prot.timeout = false ∧
      d.prot.keepAt + s.fF 0x07 k 0x014 31 22 * 1000000000 ≤ t :=
  ⟨10000000000, 1, tDie, tMod tDie, by decide +kernel⟩

theorem witness_BalancingCommandsComplete_5 :
    ∃ (t : Nat) (k : Nat) (d : Die) (s : State), s.hasDie k d ∧ d.precOn = true ∧ t % 10000000000 = 0 ∧ s.balMode k ≠ 0 :=
  ⟨10000000000, 1, tDie, put (tMod tDie) 7 1 0x14 0x02990A04, by decide +kernel⟩

theorem witness_AnatomyCommandsComplete_0 :
    ∃ (t : Nat) (i : Nat) (s : State), (s.at_ t).linkHeld i = false ∧ s.part.links.getD i false = true :=
  ⟨0, 1, tMod tDie, by decide +kernel⟩

theorem witness_AnatomyCommandsComplete_1 :
    ∃ (t : Nat) (i : Nat) (s : State), (s.at_ t).linkFailed i = false ∧ s.part.links.getD i true = false :=
  ⟨0, 1, cutMod, by decide +kernel⟩

theorem witness_AnatomyCommandsComplete_2 :
    ∃ (k : Nat) (d : Die) (s : State), s.hasDie k d ∧ d.lost = false ∧ s.reach k = false ∧ s.part.serving = true :=
  ⟨1, tDie, cutMod, by decide +kernel⟩

theorem witness_AnatomyCommandsComplete_3 :
    ∃ (level : Bool) (s : State), level ≠ s.part.rolePad ∧ s.part.roleChanged = true :=
  ⟨true, { (tMod tDie) with part := { (tMod tDie).part with roleChanged := true } }, by decide +kernel⟩

theorem witness_AnatomyCommandsComplete_4 :
    ∃ (level : Bool) (s : State), level ≠ s.part.rolePad ∧ s.part.roleChanged = false ∧ s.part.serving = true :=
  ⟨true, tMod tDie, by decide +kernel⟩

theorem witness_AnatomyCommandsComplete_5 :
    ∃ (level : Bool) (s : State), level ≠ s.part.rolePad ∧ s.part.roleChanged = false ∧ s.part.serving = false :=
  ⟨true, State.reset, by decide +kernel⟩

theorem witness_SelfTestCommandsComplete_0 :
    ∃ (t : Nat) (k : Nat) (b : Nat) (n : Nat) (x : SelfTest) (s : State) (w : State), w = (s.at_ t).accrueTest ∧
      (if k = 0 then w.inRun else w.inRunDoze) = true ∧ w.selfTest[k]? = some x ∧ x.nextAt ≤ x.sliceTime k ∧ w.nextSlice k x = some (b, n) :=
  ⟨0, 0, 0x1001, 0x1002, SelfTest.initial, tMod tDie, ((tMod tDie).at_ 0).accrueTest, by decide +kernel⟩

theorem witness_SelfTestCommandsComplete_1 :
    ∃ (t : Nat) (k : Nat) (result : Nat) (b : Nat) (since : Nat) (s : State) (v : State) (r : Nat) (w : State), v = (s.at_ t).adoptSeq k ∧
      ((v.selfTest[k]?).bind (·.slice)) = some (b, since) ∧ r = (if since + sliceLen b ≤ t then result else 3) ∧ w = v.endSlice k b r :=
  ⟨0, 1, 0, 0x0101, 0, sliceMod, _, _, _, rfl, by decide +kernel, rfl, rfl⟩

theorem witness_SelfTestCommandsComplete_2 :
    ∃ (t : Nat) (k : Nat) (block : Nat) (x : SelfTest) (s : State), (s.at_ t).accrueTest.selfTest[k]? = some x ∧ (blocksOf k).contains block = true ∧
      x.overdue.contains block = false ∧
      (((x.judged.find? fun y => y.1 == block).map (·.2)).getD 0 + 600000000000 ≤ (if block = 0x1001 ∨ block = 0x1002 then x.offTime else x.sliceTime k)) :=
  ⟨600000000000, 0, 0x1001, { SelfTest.initial with countedAt := 600000000000, runTime := 600000000000, liveTime := 600000000000, offTime := 600000000000 }, tMod tDie, rfl, by decide +kernel⟩

theorem witness_SelfTestCommandsComplete_3 :
    ∃ (t : Nat) (c : Cmd) (s : State) (w : State), s.serves 0x0E c ∧ w = s.served t c ∧ rd c.param 0 1 = 0 ∧ w.sliceFree c.target = true :=
  ⟨0, tCmd 0x0E 3 1 0 [0], tMod tDie, _, by decide +kernel, rfl, by decide +kernel⟩

theorem witness_SelfTestCommandsComplete_4 :
    ∃ (t : Nat) (c : Cmd) (s : State) (w : State), s.serves 0x0E c ∧ w = s.served t c ∧ rd c.param 0 1 = 1 ∧
      (blocksOf c.target).contains (rd c.param 2 2) = true ∧ w.sliceFree c.target = true :=
  ⟨0, tCmd 0x0E 3 1 0 [1, 0, 0x01, 0x01], tMod tDie, _, by decide +kernel, rfl, by decide +kernel⟩

theorem witness_SelfTestCommandsComplete_5 :
    ∃ (t : Nat) (c : Cmd) (s : State) (w : State), s.serves 0x0E c ∧ w = s.served t c ∧ rd c.param 0 1 = 2 ∧ c.target ≠ 0 :=
  ⟨0, tCmd 0x0E 3 1 0 [2], tMod tDie, _, by decide +kernel, rfl, by decide +kernel⟩

theorem witness_SelfTestCommandsComplete_6 :
    ∃ (t : Nat) (c : Cmd) (s : State) (w : State), s.serves 0x0E c ∧ w = s.served t c ∧ rd c.param 0 1 = 3 ∧ c.target ≠ 0 :=
  ⟨0, tCmd 0x0E 3 1 0 [3], tMod tDie, _, by decide +kernel, rfl, by decide +kernel⟩

theorem witness_CheckUnitCommandsComplete_0 :
    ∃ (unit : Nat) (ctrl : Nat) (u : ChkUnit) (s : State), s.chkPowered unit = true ∧ bit ctrl 8 = true ∧ s.chk[unit]? = some u :=
  ⟨4, 0x100, ChkUnit.initial, tMod tDie, by decide +kernel⟩

theorem witness_CheckUnitCommandsComplete_1 :
    ∃ (unit : Nat) (width : Nat) (u : ChkUnit) (s : State), s.chkPowered unit = true ∧ (width = 1 ∨ width = 2 ∨ width = 4) ∧ s.chk[unit]? = some u :=
  ⟨0, 4, ChkUnit.initial, tMod tDie, by decide +kernel, .inr (.inr rfl), by decide +kernel⟩

theorem witness_CheckUnitCommandsComplete_2 :
    ∃ (unit : Nat) (ctrl : Nat) (u : ChkUnit) (s : State), s.chkPowered unit = true ∧ bit ctrl 9 = true ∧ s.chk[unit]? = some u :=
  ⟨3, 0x200, ChkUnit.initial, tMod tDie, by decide +kernel⟩

theorem witness_CheckUnitCommandsComplete_3 :
    ∃ (c : Cmd) (u : ChkUnit) (s : State), s.serves 0x0F c ∧ chkFieldsOk c = true ∧ (c.target ≠ 0 ∨ 2 < rd c.param 0 1 ∨ c.bufLen ≤ 4096) ∧
      s.chk[chkUnitOf c]? = some u ∧ u.ok = true ∧ s.chkPowered (chkUnitOf c) = true ∧ u.busy = false :=
  ⟨tCmd 0x0F 3 0 4 [0, 3, 1], { ChkUnit.initial with ok := true }, chkMod, by decide +kernel, by decide +kernel, .inr (.inr (by decide +kernel)),
    by decide +kernel⟩

theorem witness_ThermalCommandsComplete_0 :
    ∃ (temps : List Int) (s : State), s.inRunDoze = true ∧ s.part.serving = true ∧ temps ≠ [] :=
  ⟨[2500], tMod tDie, by decide +kernel⟩

theorem witness_ThermalCommandsComplete_1 :
    ∃ (t : Nat) (a : Nat) (s : State), s.therm.step ≠ 0 ∧ s.therm.belowSince.getD (s.therm.step - 1) none = some a ∧ a + 10000000000 ≤ t :=
  ⟨10000000000, 0, hotMod, by decide +kernel⟩

theorem witness_ThermalCommandsComplete_2 :
    ∃ (k : Nat) (d : Die) (s : State), s.hasDie k d ∧ d.hot = false :=
  ⟨1, tDie, tMod tDie, by decide +kernel⟩

theorem witness_ThermalCommandsComplete_3 :
    ∃ (k : Nat) (d : Die) (s : State), s.hasDie k d :=
  ⟨1, tDie, tMod tDie, by decide +kernel⟩

theorem witness_ThermalCommandsComplete_4 :
    ∃ (s : State), s.part.serving = true ∧ s.warned = false :=
  ⟨tMod tDie, by decide +kernel⟩

theorem witness_ThermalCommandsComplete_5 :
    ∃ (s : State), s.part.hubHeld = true ∧ s.bistFailed = [] :=
  ⟨{ (tMod tDie) with part := { (tMod tDie).part with hubHeld := true } }, by decide +kernel⟩

theorem witness_SafetySamplingCommandsComplete_0 :
    ∃ (t : Nat) (s : State) (w : State), w = (s.at_ t).takeBlock 0x14 0 ∧ t % 1000000 = 0 ∧ s.part.serving = true ∧ s.part.hubHeld = false ∧
      s.inRunDoze = true ∧ w.isGateway = false :=
  ⟨0, tMod tDie, ((tMod tDie).at_ 0).takeBlock 0x14 0, by decide +kernel⟩

theorem witness_SafetySamplingCommandsComplete_1 :
    ∃ (t : Nat) (s : State) (w : State), w = (s.at_ t).takeBlock 0x14 0 ∧ t % 1000000 = 0 ∧ s.part.serving = true ∧ s.part.hubHeld = false ∧
      s.inRunDoze = true ∧ w.isGateway = true :=
  ⟨0, tGate, (tGate.at_ 0).takeBlock 0x14 0, by decide +kernel⟩

theorem witness_SafetySamplingCommandsComplete_2 :
    ∃ (t : Nat) (s : State), s.safeRuns = true ∧ t % 100000 = 0 ∧ (((s.selfTest[0]?).bind (·.slice)).map (·.1)) ≠ some 0x1001 :=
  ⟨0, tGate, by decide +kernel⟩

theorem witness_SafetySamplingCommandsComplete_3 :
    ∃ (t : Nat) (out : Nat) (s : State), s.safeRuns = true ∧ (out = 1 ∨ out = 2) ∧ (s.at_ t).pulseNear (out - 1) 0 = some t :=
  ⟨0, 1, tGate, by decide +kernel, .inl rfl, by decide +kernel⟩

theorem witness_SafetySamplingCommandsComplete_4 :
    ∃ (i : Nat) (x : SafeIn) (s : State), 1 ≤ i ∧ s.safe.ins[i - 1]? = some x ∧ s.safeRuns = true ∧ s.inEnabled (i - 1) = true ∧ s.inSt (i - 1) = 2 ∧
      x.latched = false ∧ s.discLimit (i - 1) ≤ x.discMs :=
  ⟨1, discIn, discGate, by decide +kernel⟩

theorem witness_SafetyFrameCommandsComplete_0 :
    ∃ (t : Nat) (bytes : List Byte) (s : State) (w : State) (p : Nat) (b : List Byte), (s.at_ t).accept (frameOf bytes) = (.deliver, w) ∧
      w.safeRuns = true ∧ (frameOf bytes).tc = 0 ∧ ((frameOf bytes).kind = 4 ∨ (frameOf bytes).kind = 5) ∧ b = (frameOf bytes).payload ∧
      p = bits (rd b 0 2) 5 0 :=
  ⟨0, beatBytes, tGate, tTaken tGate 0 beatBytes, 0, beatBody, by decide +kernel, by decide +kernel, by decide +kernel, .inr (by decide +kernel),
    by decide +kernel⟩

theorem witness_SafetyFrameCommandsComplete_1 :
    ∃ (t : Nat) (box : Nat) (bytes : List Byte) (s : State) (u : State), s.safeRuns = true ∧ s.fB 0x14 0 0x018 0 = true ∧ s.hif.en = true ∧
      s.sF 0x018 15 8 ≠ 0 ∧ t % (s.sF 0x018 15 8 * 1000000) = 0 ∧ box = s.regF 0x14 0 0x01C + 2 ^ 32 * s.regF 0x14 0 0x020 ∧
      u = ((s.at_ t).emit (.hostRead box 32)).hostFrame (slice bytes 0 32) :=
  ⟨0, 0, [], put tGate 0x14 0 0x018 0x00640501, (((put tGate 0x14 0 0x018 0x00640501).at_ 0).emit (.hostRead 0 32)).hostFrame (zeros 32),
    by decide +kernel⟩

theorem witness_SafetyFrameCommandsComplete_2 :
    ∃ (t : Nat) (s : State), s.safe.hostOk = true ∧ s.safe.hostAt + s.sF 0x018 31 16 * 1000000 ≤ t :=
  ⟨100000000, outGate, by decide +kernel⟩

theorem witness_SafetyFrameCommandsComplete_3 :
    ∃ (t : Nat) (p : Nat) (s : State), s.safeRuns = true ∧ t % 1000000 = 0 ∧ (s.watchOf p).armed = true ∧ (s.watchOf p).failed = false ∧
      (s.watchOf p).lastAt + s.sF 0 31 16 * 1000000 ≤ t :=
  ⟨25000000, 62, watchGate, by decide +kernel⟩

theorem witness_SafetyFrameCommandsComplete_4 :
    ∃ (t : Nat) (bytes : List Byte) (s : State) (w : State), (s.at_ t).accept (frameOf bytes) = (.deliver, w) ∧ (frameOf bytes).tc = 0 ∧
      (frameOf bytes).kind = 3 ∧ (frameOf bytes).payload.length = 16 ∧
      Poly.crc16.check ((frameOf bytes).payload.take 14) = rd (frameOf bytes).payload 14 2 :=
  ⟨0, noticeBytes, tMod tDie, tTaken (tMod tDie) 0 noticeBytes, by decide +kernel⟩

theorem witness_SafetyFrameCommandsComplete_5 :
    ∃ (t : Nat) (bytes : List Byte) (s : State) (w : State), (s.at_ t).accept (frameOf bytes) = (.deliver, w) ∧ w.isModule = true ∧
      (frameOf bytes).tc = 0 ∧ (frameOf bytes).kind = 5 ∧ w.frameError (frameOf bytes).payload (fun q => q == 0) w.safe.gwSeq true = none :=
  ⟨0, beatBytes, tMod tDie, tTaken (tMod tDie) 0 beatBytes, by decide +kernel⟩

theorem witness_SafetyFrameCommandsComplete_6 :
    ∃ (t : Nat) (s : State), s.safe.gwOk = true ∧ s.safe.gwAt + s.sF 0 31 16 * 1000000 ≤ t :=
  ⟨25000000, { (tMod tDie) with safe := { (tMod tDie).safe with gwOk := true } }, by decide +kernel⟩

theorem witness_SafetyOutputCommandsComplete_0 :
    ∃ (t : Nat) (k : Nat) (o : SafeOut) (s : State), 1 ≤ k ∧ s.safe.outs[k - 1]? = some o ∧ o.on = true ∧ o.since + 2000000 ≤ s.clock t :=
  ⟨2000000, 3, onOut, outGate, by decide +kernel⟩

theorem witness_SafetyOutputCommandsComplete_1 :
    ∃ (t : Nat) (k : Nat) (o : SafeOut) (s : State), 1 ≤ k ∧ s.safe.outs[k - 1]? = some o ∧ o.on = true ∧ o.openLoad = false ∧
      o.since + 100000000 ≤ s.clock t :=
  ⟨100000000, 3, onOut, outGate, by decide +kernel⟩

theorem witness_SafetyOutputCommandsComplete_2 :
    ∃ (t : Nat) (k : Nat) (o : SafeOut) (s : State), 1 ≤ k ∧ s.safe.outs[k - 1]? = some o ∧ o.on = true ∧ o.since + s.sF 0x010 23 16 * 10000000 ≤ t :=
  ⟨100000000, 1, onOut, outGate, by decide +kernel⟩

theorem witness_SafetyOutputCommandsComplete_3 :
    ∃ (t : Nat) (k : Nat) (o : SafeOut) (s : State), 1 ≤ k ∧ s.safe.outs[k - 1]? = some o ∧ s.safeRuns = true ∧ bit (s.sF 0x010 6 4) (k - 1) = true ∧
      ((o.on = true ∧ o.since + 50000000 ≤ t ∧ s.fbClosed (k - 1) = false) ∨ (o.on = false ∧ (o.since + 50000000 ≤ t ∨ o.switched = false) ∧
      s.fbClosed (k - 1) = true)) :=
  ⟨50000000, 1, onOut, put outGate 0x14 0 0x010 0x280A0077, by decide +kernel, by decide +kernel, by decide +kernel, by decide +kernel,
    .inl (by decide +kernel)⟩

theorem witness_SafetyOutputCommandsComplete_4 :
    ∃ (s : State), s.safeRuns = true ∧ s.safe.lorstState = 1 :=
  ⟨lorstGate 3, by decide +kernel⟩

theorem witness_SafetyOutputCommandsComplete_5 :
    ∃ (s : State), s.safeRuns = true ∧ s.safe.lorstState = 1 ∧ 5000 < s.safe.lorstLow :=
  ⟨lorstGate 5001, by decide +kernel⟩

theorem witness_SingleWireCommandsComplete_0 :
    ∃ (t : Nat) (p : Nat) (x : SwpPort) (s : State), 1 ≤ p ∧ s.swp[p - 1]? = some x ∧ x.st = 0 ∧ s.pd9 = true ∧
      bit (((s.at_ t).adoptSwp p).swpCtrl p) 0 = true :=
  ⟨0, 1, SwpPort.initial, put (wireMod SwpPort.initial) 0x11 0 0 0x03E803C1, by decide +kernel⟩

theorem witness_SingleWireCommandsComplete_1 :
    ∃ (t : Nat) (p : Nat) (x : SwpPort) (s : State), 1 ≤ p ∧ s.swp[p - 1]? = some x ∧ (x.st = 1 ∨ x.st = 2) ∧ bits (s.swpCtrl p) 15 4 ≠ 0 ∧
      t % (bits (s.swpCtrl p) 15 4 * 1000000000) = 0 :=
  ⟨60000000000, 2, streamPort, wireMod streamPort, by decide +kernel⟩

theorem witness_SingleWireCommandsComplete_2 :
    ∃ (p : Nat) (x : SwpPort) (s : State) (attempts : List (List (Option (List (Bool × Bool))))) (r : List Out × Nat × Option (List Nat)), 1 ≤ p ∧
      s.swp[p - 1]? = some x ∧ x.searching ≠ 0 ∧ s.pd9 = true ∧ r = searchAttempts p x.searching 4 attempts ∧ (r.2.2.isSome = true ∨ r.2.1 = 4) :=
  ⟨1, searchPort, wireMod searchPort, [[none]], _, by decide +kernel, by decide +kernel, by decide +kernel, by decide +kernel, rfl,
    .inl (by decide +kernel)⟩

theorem witness_SingleWireCommandsComplete_3 :
    ∃ (t : Nat) (p : Nat) (x : SwpPort) (s : State), 1 ≤ p ∧ s.swp[p - 1]? = some x ∧ x.st = 2 ∧ x.inCycle = false ∧ s.pd9 = true ∧ s.swpCycle p ≠ 0 ∧
      t % s.swpCycle p = 0 :=
  ⟨1000000000, 1, streamPort, wireMod streamPort, by decide +kernel⟩

theorem witness_SingleWireCommandsComplete_4 :
    ∃ (t : Nat) (p : Nat) (x : SwpPort) (s : State) (slot : Nat) (y : Slot), 1 ≤ p ∧ s.swp[p - 1]? = some x ∧ x.slots[slot]? = some y ∧
      x.inCycle = true ∧ y.used = true ∧ y.read = false ∧ x.tSync + slotEnd slot ≤ t ∧ t < x.tSync + slotEnd slot + 300000 :=
  ⟨111900000, 1, cyclePort, wireMod cyclePort, 31, usedSlot, by decide +kernel⟩

theorem witness_SingleWireCommandsComplete_5 :
    ∃ (p : Nat) (x : SwpPort) (s : State), 1 ≤ p ∧ s.swp[p - 1]? = some x ∧ x.inCycle = true ∧ x.cycleDone = true :=
  ⟨1, endPort, wireMod endPort, by decide +kernel⟩

theorem witness_SingleWireCommandsComplete_6 :
    ∃ (p : Nat) (x : SwpPort) (s : State), 1 ≤ p ∧ s.swp[p - 1]? = some x ∧ (x.st = 1 ∨ x.st = 2) :=
  ⟨1, streamPort, wireMod streamPort, by decide +kernel⟩

theorem witness_SingleWireCommandsComplete_7 :
    ∃ (t : Nat) (p : Nat) (x : SwpPort) (s : State), 1 ≤ p ∧ s.swp[p - 1]? = some x ∧ x.st = 3 ∧ x.shortAt + 10000000000 ≤ t ∧ s.pd9 = true :=
  ⟨10000000000, 1, shortPort, wireMod shortPort, by decide +kernel⟩

theorem witness_LineCommandsComplete_0 :
    ∃ (side : Side) (s : State) (p : Port), p = s.port side ∧ s.linkRuns = true ∧ p.st = .training :=
  ⟨.up, radio { Port.initial with st := .training }, { Port.initial with st := .training }, by decide +kernel⟩

theorem witness_LineCommandsComplete_1 :
    ∃ (t : Nat) (side : Side) (s : State) (p : Port) (d : List Byte × Port) (r : List Byte × Port) (leaves : Bool), p = s.port side ∧
      s.linkRuns = true ∧ p.st = .up ∧ d = p.nextCodeword t ∧ r = d.2.lineBytes d.1 ∧
      leaves = (decide (side = .up) && rd d.1 0 1 == 2 && d.2.retune.isSome && !d.2.answered) ∧ d.2.thirds.length ≤ 10 ∧ leaves = false :=
  ⟨0, .up, radio upPort, upPort, _, _, _, by decide +kernel, by decide +kernel, by decide +kernel, rfl, rfl, rfl, by decide +kernel⟩

theorem witness_LineCommandsComplete_2 :
    ∃ (t : Nat) (side : Side) (s : State) (p : Port) (d : List Byte × Port) (r : List Byte × Port) (leaves : Bool), p = s.port side ∧
      s.linkRuns = true ∧ p.st = .up ∧ d = p.nextCodeword t ∧ r = d.2.lineBytes d.1 ∧
      leaves = (decide (side = .up) && rd d.1 0 1 == 2 && d.2.retune.isSome && !d.2.answered) ∧ 10 < d.2.thirds.length ∧ leaves = false :=
  ⟨0, .up, radio { upPort with thirds := List.replicate 11 0 }, { upPort with thirds := List.replicate 11 0 }, _, _, _, by decide +kernel,
    by decide +kernel, by decide +kernel, rfl, rfl, rfl, by decide +kernel⟩

theorem witness_LineCommandsComplete_3 :
    ∃ (t : Nat) (side : Side) (s : State) (p : Port) (d : List Byte × Port) (r : List Byte × Port) (leaves : Bool), p = s.port side ∧
      s.linkRuns = true ∧ p.st = .up ∧ d = p.nextCodeword t ∧ r = d.2.lineBytes d.1 ∧
      leaves = (decide (side = .up) && rd d.1 0 1 == 2 && d.2.retune.isSome && !d.2.answered) ∧ leaves = true :=
  ⟨0, .up, radio { keyedPort with ctlDue := true, retune := some 2 }, { keyedPort with ctlDue := true, retune := some 2 }, _, _, _, by decide +kernel,
    by decide +kernel, by decide +kernel, rfl, rfl, rfl, by decide +kernel⟩

theorem witness_LineCommandsComplete_4 :
    ∃ (side : Side) (s : State) (p : Port) (bytes : List Byte) (cw : List Byte), p = s.port side ∧ s.linkRuns = true ∧ p.st ≠ .down ∧
      bytes.length = 60 ∧ (p.takeLine bytes).1 = some cw ∧ rsDecode cw = none :=
  ⟨.up, radio upPort, upPort, spoiltLine, spoiltWord, by decide +kernel⟩

theorem witness_LineCommandsComplete_5 :
    ∃ (side : Side) (s : State) (p : Port) (bytes : List Byte) (cw : List Byte) (w : List Byte) (r : RxClass), p = s.port side ∧ s.linkRuns = true ∧
      p.st = .up ∧ bytes.length = 60 ∧ (p.takeLine bytes).1 = some cw ∧ rsDecode cw = some w ∧ bits (rd w 0 1) 3 0 = 1 ∧
      p.rx[bits (rd w 0 1) 7 6]? = some r ∧ (bit (rd w 0 1) 5 = true ∨ r.inFrame = true) ∧ bit (rd w 0 1) 4 = false :=
  ⟨.up, radio upPort, upPort, lineOf (le 1 0x21 ++ zeros 51), rsEncode (le 1 0x21 ++ zeros 51), le 1 0x21 ++ zeros 51, RxClass.fresh,
    by decide +kernel⟩

theorem witness_LineCommandsComplete_6 :
    ∃ (side : Side) (s : State) (p : Port) (bytes : List Byte) (cw : List Byte) (w : List Byte) (r : RxClass), p = s.port side ∧ s.linkRuns = true ∧
      p.st = .up ∧ bytes.length = 60 ∧ (p.takeLine bytes).1 = some cw ∧ rsDecode cw = some w ∧ bits (rd w 0 1) 3 0 = 1 ∧
      p.rx[bits (rd w 0 1) 7 6]? = some r ∧ (bit (rd w 0 1) 5 = true ∨ r.inFrame = true) ∧ bit (rd w 0 1) 4 = true :=
  ⟨.up, radio upPort, upPort, lineOf (le 1 0x31 ++ zeros 51), rsEncode (le 1 0x31 ++ zeros 51), le 1 0x31 ++ zeros 51, RxClass.fresh,
    by decide +kernel⟩

theorem witness_LineCommandsComplete_8 :
    ∃ (t : Nat) (side : Side) (s : State) (p : Port) (c : TxClass) (x : TxFrame) (rest : List TxFrame), p = s.port side ∧ p.st = .up ∧
      p.tx[0]? = some c ∧ c.unacked = x :: rest ∧ x.sentAt + p.ackNs ≤ t ∧ x.attempts < 3 :=
  ⟨1400, .up, radio (sentPort 0 1), sentPort 0 1, sentClass 1, sentFrame 1, [], by decide +kernel⟩

theorem witness_LineCommandsComplete_9 :
    ∃ (t : Nat) (side : Side) (s : State) (p : Port) (c : TxClass) (x : TxFrame) (rest : List TxFrame), p = s.port side ∧ p.st = .up ∧
      p.tx[0]? = some c ∧ c.unacked = x :: rest ∧ x.sentAt + p.ackNs ≤ t ∧ 3 ≤ x.attempts :=
  ⟨1400, .up, radio (sentPort 0 3), sentPort 0 3, sentClass 3, sentFrame 3, [], by decide +kernel⟩

theorem witness_LineCommandsComplete_10 :
    ∃ (t : Nat) (side : Side) (s : State) (p : Port) (tc : Nat) (c : TxClass) (x : TxFrame) (rest : List TxFrame), p = s.port side ∧ 1 ≤ tc ∧ tc ≤ 3 ∧
      p.st = .up ∧ p.tx[tc]? = some c ∧ c.unacked = x :: rest ∧ x.sentAt + 24000 ≤ t ∧ x.attempts < 16 :=
  ⟨24000, .up, radio (sentPort 3 15), sentPort 3 15, 3, sentClass 15, sentFrame 15, [], by decide +kernel⟩

theorem witness_LineCommandsComplete_11 :
    ∃ (t : Nat) (side : Side) (s : State) (p : Port) (tc : Nat) (c : TxClass) (x : TxFrame) (rest : List TxFrame), p = s.port side ∧ 1 ≤ tc ∧ tc ≤ 3 ∧
      p.st = .up ∧ p.tx[tc]? = some c ∧ c.unacked = x :: rest ∧ x.sentAt + 24000 ≤ t ∧ 16 ≤ x.attempts :=
  ⟨24000, .up, radio (sentPort 1 16), sentPort 1 16, 1, sentClass 16, sentFrame 16, [], by decide +kernel⟩

theorem witness_HopCommandsComplete_0 :
    ∃ (t : Nat) (side : Side) (s : State) (p : Port), p = s.port side ∧ s.linkRuns = true ∧ p.st ≠ .down ∧ p.lastCodeword + 20000 ≤ t :=
  ⟨20000, .down, radio upPort, upPort, by decide +kernel⟩

theorem witness_HopCommandsComplete_1 :
    ∃ (t : Nat) (side : Side) (s : State) (p : Port) (a : Nat), p = s.port side ∧ s.linkRuns = true ∧ p.st = .up ∧ p.lowSince = some a ∧
      a + 100000000 ≤ t :=
  ⟨100000000, .down, radio { upPort with lowSince := some 0 }, { upPort with lowSince := some 0 }, 0, by decide +kernel⟩

theorem witness_HopCommandsComplete_2 :
    ∃ (t : Nat) (side : Side) (s : State) (p : Port), p = s.port side ∧ s.linkRuns = true ∧ p.mayTrain t = true :=
  ⟨10000000, .down, radio Port.initial, Port.initial, by decide +kernel⟩

theorem witness_HopCommandsComplete_3 :
    ∃ (t : Nat) (side : Side) (s : State) (p : Port) (margin : Int) (peerQpsk : Bool), p = s.port side ∧ s.linkRuns = true ∧ p.st = .training ∧
      p.trainAt + 100000 ≤ t ∧ (24 ≤ margin ∨ (p.qpskEn = true ∧ peerQpsk = true)) :=
  ⟨100000, .down, radio { Port.initial with st := .training }, { Port.initial with st := .training }, 24, false, by decide +kernel, by decide +kernel,
    by decide +kernel, by decide +kernel, .inl (by decide +kernel)⟩

theorem witness_HopCommandsComplete_4 :
    ∃ (t : Nat) (side : Side) (s : State) (p : Port), p = s.port side ∧ p.st = .up ∧ p.held = true ∧ p.upSince + 100000000 ≤ t ∧
      p.lastUncorr + 100000000 ≤ t :=
  ⟨100000000, .down, radio { upPort with held := true }, { upPort with held := true }, by decide +kernel⟩

theorem witness_HopCommandsComplete_5 :
    ∃ (side : Side) (s : State) (p : Port), p = s.port side ∧ p.st = .up :=
  ⟨.down, radio upPort, upPort, by decide +kernel⟩

theorem witness_HopCommandsComplete_6 :
    ∃ (side : Side) (s : State) (p : Port) (bytes : List Byte), p = s.port side ∧ s.linkRuns = true ∧ p.st ≠ .down ∧ rd bytes 0 1 = 0x30 :=
  ⟨.down, radio upPort, upPort, [0x30], by decide +kernel⟩

theorem witness_HopCommandsComplete_7 :
    ∃ (side : Side) (s : State) (p : Port) (bytes : List Byte), p = s.port side ∧ s.linkRuns = true ∧ p.st ≠ .down ∧ rd bytes 0 1 = 0x31 :=
  ⟨.down, radio upPort, upPort, [0x31], by decide +kernel⟩

theorem witness_HopCommandsComplete_8 :
    ∃ (side : Side) (s : State) (p : Port), p = s.port side ∧ p.st = .up ∧ p.keying = none ∧ (2 ^ 39 ≤ p.ctr ∨ 2 ^ 39 ≤ p.cctr) :=
  ⟨.down, radio { upPort with ctr := 2 ^ 39 }, { upPort with ctr := 2 ^ 39 }, by decide +kernel, by decide +kernel, by decide +kernel,
    .inl (by decide +kernel)⟩

theorem witness_EnumerationCommandsComplete_0 :
    ∃ (t : Nat) (bytes : List Byte) (s : State) (w : State), (s.at_ t).accept (frameOf bytes) = (.deliver, w) ∧ w.isModule = true ∧
      rd (frameOf bytes).payload 0 1 = 0x10 :=
  ⟨0, enumBytes [0x10], tMod tDie, tTaken (tMod tDie) 0 (enumBytes [0x10]), by decide +kernel⟩

theorem witness_EnumerationCommandsComplete_1 :
    ∃ (t : Nat) (f : Frontier) (s : State), s.link.frontier = some f ∧ s.linkRuns = true ∧ (t - f.startedAt) % 1000000 = 0 ∧
      t < f.startedAt + bits (rd s.link.plan 0 4) 31 16 * 1000000 * (f.round + 1) :=
  ⟨0, _, frontGate 0, rfl, by decide +kernel⟩

theorem witness_EnumerationCommandsComplete_2 :
    ∃ (bytes : List Byte) (s : State), s.linkRuns = true ∧ rd bytes 0 1 = 0x20 ∧ s.trust.life ≠ 3 ∧ s.link.dn.orientRaised = false :=
  ⟨[0x20], tMod tDie, by decide +kernel⟩

theorem witness_EnumerationCommandsComplete_3 :
    ∃ (t : Nat) (bytes : List Byte) (s : State) (w : State) (u : State) (v : State), s.linkRuns = true ∧ rd bytes 0 1 = 0x20 ∧ s.trust.life ≠ 3 ∧
      s.link.frontier = none ∧ (if s.isGateway = true then rd bytes 1 4 = s.chainOf else s.trust.life = 0 ∨ s.link.chainId = none ∨ s.link.chainId = some (rd bytes 1 4)) ∧ w = (if (s.isModule && s.link.position.isSome && s.link.chainId == some (rd bytes 1 4)) = true then (s.at_ t).cancelPend.dropPlace else s.at_ t) ∧ (w.isModule && w.link.position.isSome) = false ∧ u = (w.drawBits 4).2.emit (.clear .up (le 1 0x23 ++ le 1 ((w.drawBits 4).1 % 16) ++ le 8 w.part.ident ++ slice bytes 14 1 ++ le 1 (b2n w.isGateway))) ∧ v = ({ u with link := { u.link with heard := some (rd bytes 1 4, rd bytes 5 1) } }).modPort .up (fun p => { p with answered := true, retune := some 1 }) :=
  ⟨0, 0x20 :: le 4 9, bareMod, _, _, _, by decide +kernel, by decide +kernel, by decide +kernel, by decide +kernel, by decide +kernel, rfl,
    by decide +kernel, rfl, rfl⟩

theorem witness_EnumerationCommandsComplete_4 :
    ∃ (t : Nat) (answers : List (List Byte)) (f : Frontier) (s : State) (own : List (List Byte)) (pick : Option (List Byte)) (closes : Bool) (gate : List Byte), s.link.frontier = some f ∧ s.linkRuns = true ∧ f.closing = false ∧ f.startedAt + bits (rd s.link.plan 0 4) 31 16 * 1000000 * (f.round + 1) ≤ t ∧ own = (answers.filter fun a => rd a 9 1 == 0) ∧ pick = (if s.pos = 62 then none else chooseCandidate s.link.plan (s.pos + 1) own) ∧ closes = (answers.any (fun a => rd a 9 1 == 1) && s.pos != 0 && (own.isEmpty || s.pos == 62 || s.pos + 1 == planExpect s.link.plan)) ∧ closes = true ∧ answers.find? (fun a => rd a 9 1 == 1) = some gate :=
  ⟨50000000, [zeros 9 ++ [1]], _, frontMod 0, _, _, _, _, rfl, by decide +kernel, by decide +kernel, by decide +kernel, rfl, rfl, rfl,
    by decide +kernel, rfl⟩

theorem witness_EnumerationCommandsComplete_5 :
    ∃ (t : Nat) (answers : List (List Byte)) (f : Frontier) (s : State) (own : List (List Byte)) (pick : Option (List Byte)) (closes : Bool),
      s.link.frontier = some f ∧ s.linkRuns = true ∧ f.closing = false ∧ f.startedAt + bits (rd s.link.plan 0 4) 31 16 * 1000000 * (f.round + 1) ≤ t ∧
      own = (answers.filter fun a => rd a 9 1 == 0) ∧ pick = (if s.pos = 62 then none else chooseCandidate s.link.plan (s.pos + 1) own) ∧
      closes = (answers.any (fun a => rd a 9 1 == 1) && s.pos != 0 && (own.isEmpty || s.pos == 62 || s.pos + 1 == planExpect s.link.plan)) ∧
      closes = false ∧ pick.isSome = true :=
  ⟨50000000, [zeros 10], _, frontGate 0, _, _, _, rfl, by decide +kernel, by decide +kernel, by decide +kernel, rfl, rfl, rfl, by decide +kernel⟩

theorem witness_EnumerationCommandsComplete_6 :
    ∃ (t : Nat) (answers : List (List Byte)) (f : Frontier) (s : State) (own : List (List Byte)) (pick : Option (List Byte)) (closes : Bool),
      s.link.frontier = some f ∧ s.linkRuns = true ∧ f.closing = false ∧ f.startedAt + bits (rd s.link.plan 0 4) 31 16 * 1000000 * (f.round + 1) ≤ t ∧
      own = (answers.filter fun a => rd a 9 1 == 0) ∧ pick = (if s.pos = 62 then none else chooseCandidate s.link.plan (s.pos + 1) own) ∧
      closes = (answers.any (fun a => rd a 9 1 == 1) && s.pos != 0 && (own.isEmpty || s.pos == 62 || s.pos + 1 == planExpect s.link.plan)) ∧
      closes = false ∧ pick = none ∧ f.round < 2 :=
  ⟨100000000, [], _, frontGate 1, _, _, _, rfl, by decide +kernel, by decide +kernel, by decide +kernel, rfl, rfl, rfl, by decide +kernel⟩

theorem witness_EnumerationCommandsComplete_7 :
    ∃ (t : Nat) (answers : List (List Byte)) (f : Frontier) (s : State) (own : List (List Byte)) (pick : Option (List Byte)) (closes : Bool),
      s.link.frontier = some f ∧ s.linkRuns = true ∧ f.closing = false ∧ f.startedAt + bits (rd s.link.plan 0 4) 31 16 * 1000000 * (f.round + 1) ≤ t ∧
      own = (answers.filter fun a => rd a 9 1 == 0) ∧ pick = (if s.pos = 62 then none else chooseCandidate s.link.plan (s.pos + 1) own) ∧
      closes = (answers.any (fun a => rd a 9 1 == 1) && s.pos != 0 && (own.isEmpty || s.pos == 62 || s.pos + 1 == planExpect s.link.plan)) ∧
      closes = false ∧ pick = none ∧ 2 ≤ f.round :=
  ⟨150000000, [], _, frontGate 2, _, _, _, rfl, by decide +kernel, by decide +kernel, by decide +kernel, rfl, rfl, rfl, by decide +kernel⟩

theorem witness_EnumerationCommandsComplete_8 :
    ∃ (bytes : List Byte) (b : List Byte) (s : State), b = (frameOf bytes).payload ∧ s.linkRuns = true ∧ rd b 0 1 = 0x21 ∧ s.isModule = true ∧
      rd b 1 8 = s.part.ident ∧ s.link.position = none :=
  ⟨enumBytes (0x21 :: (le 8 1 ++ zeros 8)), _, bareMod, rfl, by decide +kernel⟩

theorem witness_EnumerationCommandsComplete_9 :
    ∃ (t : Nat) (bytes : List Byte) (b : List Byte) (s : State) (w : State), b = (frameOf bytes).payload ∧ s.linkRuns = true ∧
      (s.at_ t).accept (frameOf bytes) = (.deliver, w) ∧ rd b 0 1 = 0x11 ∧ w.isGateway = true ∧ w.link.enumState = 1 :=
  ⟨0, enumBytes [0x11, 5], _, seekGate, _, rfl, by decide +kernel, rfl, by decide +kernel⟩

theorem witness_EnumerationCommandsComplete_10 :
    ∃ (t : Nat) (bytes : List Byte) (b : List Byte) (s : State) (w : State), b = (frameOf bytes).payload ∧ s.linkRuns = true ∧
      (s.at_ t).accept (frameOf bytes) = (.deliver, w) ∧ rd b 0 1 = 0x12 ∧ w.isGateway = true ∧ w.link.enumState = 1 :=
  ⟨0, enumBytes [0x12, 5, 1], _, seekGate, _, rfl, by decide +kernel, rfl, by decide +kernel⟩

theorem witness_EnumerationCommandsComplete_11 :
    ∃ (t : Nat) (bytes : List Byte) (b : List Byte) (s : State) (w : State), b = (frameOf bytes).payload ∧ s.linkRuns = true ∧
      (s.at_ t).accept (frameOf bytes) = (.deliver, w) ∧ rd b 0 1 = 0x13 ∧ w.isModule = true :=
  ⟨0, enumBytes [0x13, 5, 1], _, tMod tDie, _, rfl, by decide +kernel, rfl, by decide +kernel⟩

theorem witness_RoutingCommandsComplete_0 :
    ∃ (side : Side) (bytes : List Byte) (f : Frame) (s : State), f = frameOf bytes ∧ s.linkRuns = true ∧ f.dst = 63 ∧ s.link.position ≠ some f.origin ∧
      s.mayForward side f = true ∧ s.hasNeighbour side.other = true ∧ (f.tc = 0 → f.kind ≠ 1) :=
  ⟨.down, enumBytes [1], _, tMod tDie, rfl, by decide +kernel⟩

theorem witness_RoutingCommandsComplete_1 :
    ∃ (t : Nat) (bytes : List Byte) (f : Frame) (s : State) (w : State), f = frameOf bytes ∧ s.linkRuns = true ∧ f.dst ≠ 63 ∧ f.dst ≠ 0 ∧
      w = { (s.at_ t) with link := { s.link with inbox := s.link.inbox.eraseP fun x => x.2 == f } } :=
  ⟨0, tFrameBytes 1 0x11 0 5 [1], _, tMod tDie, _, rfl, by decide +kernel, by decide +kernel, by decide +kernel, rfl⟩

theorem witness_RoutingCommandsComplete_2 :
    ∃ (t : Nat) (origin : Nat) (tc : Nat) (flow : Nat) (x : FlowRx) (h : Nat × Option Side × Frame) (s : State),
      s.link.flowsRx.find? (fun y => y.origin == origin && y.tc == tc && y.flow == flow) = some x ∧ h ∈ x.held ∧ h.1 + 5000000 ≤ t :=
  ⟨5000000, 0, 1, 3, gapFlow, (0, none, frameOf (enumBytes [1])), gapMod, by decide +kernel⟩

theorem witness_RoutingCommandsComplete_3 :
    ∃ (t : Nat) (bytes : List Byte) (s : State) (w : State), (s.at_ t).accept (frameOf bytes) = (.deliver, w) ∧ (frameOf bytes).kind = 6 ∧
      (frameOf bytes).tc = 0 :=
  ⟨0, tFrameBytes 0 6 0 63 [1, 0], tMod tDie, tTaken (tMod tDie) 0 (tFrameBytes 0 6 0 63 [1, 0]), by decide +kernel⟩

theorem witness_PackTimeCommandsComplete_0 :
    ∃ (t : Nat) (s : State), s.linkRuns = true ∧ s.isGateway = true ∧ t % 1000000 = 0 ∧ s.now ≤ t ∧
      (s.link.beaconHold = none ∨ s.hopsKeyed = true ∨ (∃ h, s.link.beaconHold = some h ∧ h ≠ 0 ∧ h ≤ t)) :=
  ⟨0, tGate, by decide +kernel, by decide +kernel, by decide +kernel, by decide +kernel, .inl rfl⟩

theorem witness_PackTimeCommandsComplete_1 :
    ∃ (bytes : List Byte) (f : Frame) (s : State), f = frameOf bytes ∧ s.linkRuns = true ∧ s.isModule = true ∧ f.tc = 0 ∧ f.kind = 1 ∧
      (s.link.lastTOrigin / 1000000 < rd f.payload 0 8 / 1000000 ∨ s.link.lastBeacon = 0 ∨ (s.link.lastTOrigin / 1000000 = rd f.payload 0 8 / 1000000 ∧
      rd f.payload 12 1 < s.link.lastHops)) :=
  ⟨tFrameBytes 0 1 0 63 (le 8 1 ++ zeros 8), _, tMod tDie, rfl, by decide +kernel⟩

theorem witness_PackTimeCommandsComplete_2 :
    ∃ (t : Nat) (s : State), s.isGateway = false ∧ s.link.everLocked = true ∧ s.link.lastBeacon + 10000000 < t :=
  ⟨10000001, { (tMod tDie) with link := { (tMod tDie).link with everLocked := true } }, by decide +kernel⟩

theorem witness_PackTimeCommandsComplete_3 :
    ∃ (t : Nat) (s : State), t % 100000000 = 0 ∧ s.inRunDoze = true ∧ s.part.serving = true ∧ s.power.warnAt = none :=
  ⟨0, tMod tDie, by decide +kernel⟩

theorem witness_PackTimeCommandsComplete_4 :
    ∃ (t : Nat) (p : Nat) (s : State), s.linkRuns = true ∧ s.link.position = some p ∧
      (t + 10000000 - (s.pos * 150000 + 25000) % 10000000) % 10000000 = 0 :=
  ⟨475000, 3, tMod tDie, by decide +kernel⟩

theorem witness_PackTimeCommandsComplete_5 :
    ∃ (t : Nat) (k : Nat) (d : Die) (s : State), s.hasDie k d ∧ s.hubTakes k = true ∧ (t < d.lastWord ∨ d.lastWord + 10000 ≤ t) :=
  ⟨10000, 1, tDie, tMod tDie, by decide +kernel⟩

theorem witness_PackTimeCommandsComplete_6 :
    ∃ (t : Nat) (k : Nat) (d : Die) (s : State), s.hasDie k d ∧ d.lastWord + 10000000 ≤ t :=
  ⟨10000000, 1, tDie, tMod tDie, by decide +kernel⟩

theorem witness_RecordCommandsComplete_0 :
    ∃ (k : Nat) (d : Die) (x : Nat × Nat × List Byte) (rest : List (Nat × Nat × List Byte)) (s : State), s.hasDie k d ∧ d.t0 = x :: rest ∧
      d.t0Events = [] ∧ s.hubTakes k = true :=
  ⟨1, waitDie, (0x0201, 0, []), [], tMod waitDie, by decide +kernel⟩

theorem witness_RecordCommandsComplete_1 :
    ∃ (k : Nat) (d : Die) (s : State), s.hasDie k d ∧ s.hubTakes k = true ∧ d.precOn = true :=
  ⟨1, tDie, tMod tDie, by decide +kernel⟩

theorem witness_RecordCommandsComplete_2 :
    ∃ (t : Nat) (bytes : List Byte) (b : List Byte) (f : Frame) (s : State) (w : State) (u : State) (src : Nat), f = frameOf bytes ∧
      (s.at_ t).accept f = (.deliver, w) ∧ (f.tc = 2 ∨ f.tc = 3) ∧ w.assemble f = (some b, u) ∧ rd b 0 2 ∉ [0xFFFF, 0xFFFE, 0xFFFD, 0x0D01] ∧
      u.isGateway = true ∧ src = (if rd b 0 2 = 0x0B01 then 0 else rd b 3 1) ∧
      u.hif.subs.any (fun y => y.selects (u.identOf f.origin) (rd b 0 2) src (rd b 8 8)) = true :=
  ⟨0, recBytes, _, _, subGate, _, _, _, rfl, rfl, .inl (by decide +kernel), rfl, by decide +kernel, by decide +kernel, rfl, by decide +kernel⟩

theorem witness_RecordCommandsComplete_3 :
    ∃ (t : Nat) (bytes : List Byte) (b : List Byte) (f : Frame) (s : State) (w : State) (u : State) (x : List Byte) (r : Tier × State),
      f = frameOf bytes ∧ (s.at_ t).accept f = (.deliver, w) ∧ (f.tc = 2 ∨ f.tc = 3) ∧ w.assemble f = (some b, u) ∧ rd b 0 2 = 0xFFFF ∧
      u.t3Usable = true ∧ x = b.drop 10 ∧
      ((u.ownerRoom (rd b 2 8) (x.drop 12).length (u.locus.recs.length + 1)).bind fun v => v.tierFor 2 (x.drop 12).length) = some r :=
  ⟨0, spillBytes, _, _, tGate, _, _, _, _, rfl, rfl, .inl (by decide +kernel), rfl, by decide +kernel, by decide +kernel, rfl, rfl⟩

theorem witness_RecordCommandsComplete_5 :
    ∃ (group : Nat) (u : OpenUnit) (rest : List OpenUnit) (s : State), s.locus.progQ = u :: rest ∧ u.group = group ∧
      (s.locus.busy.isSome = true ∨ s.writable = true) :=
  ⟨1, tUnit, [], unitMod, by decide +kernel, by decide +kernel, .inr (by decide +kernel)⟩

theorem witness_RecordCommandsComplete_6 :
    ∃ (t : Nat) (u : OpenUnit) (s : State), s.locus.units.find? (fun u => u.group == 1) = some u ∧ u.firstAt + 10000000000 ≤ t ∧ s.writable = true :=
  ⟨10000000000, tUnit, unitMod, by decide +kernel⟩

theorem witness_StorageCommandsComplete_0 :
    ∃ (t : Nat) (s : State) (u : State) (v : State), s.part.store = true ∧ s.power.st ≠ 4 ∧ t % 1000000000 = 0 ∧
      u = { s.at_ t with locus := { s.locus with bucket := min bucketCap (s.locus.bucket + 509259), credit := if s.locus.bucket ≤ 0 then s.locus.credit + 509259 else 0 } } ∧ v = u.bucketFlag.moveRetired :=
  ⟨1000000000, tMod tDie, _, _, by decide +kernel, by decide +kernel, by decide +kernel, rfl, rfl⟩

theorem witness_StorageCommandsComplete_1 :
    ∃ (s : State), s.part.store = true ∧ s.power.st ≠ 4 :=
  ⟨tMod tDie, by decide +kernel⟩

theorem witness_StorageCommandsComplete_2 :
    ∃ (t : Nat) (block : Nat) (read : BlockRead) (s : State) (r : State), s.part.store = true ∧ s.locus.t3Fail = false ∧ s.locus.cold = false ∧
      s.inRun = true ∧ (s.locus.blk block).retired = false ∧ s.locus.busy ≠ some block ∧ ((8760 ≤ (s.locus.blk block).age ∧
      s.locus.blocks.all (fun x => x.retired || x.used == 0 || decide (x.age ≤ (s.locus.blk block).age)) = true) ∨ 24 < read.corrected) ∧
      -1073741824 ≤ s.locus.bucket - s.locus.copyCost block ∧ (s.at_ t).copyBlock block = some r ∧ read.erased = true :=
  ⟨0, 2047, ⟨25, true⟩, tMod tDie, _, by decide +kernel, by decide +kernel, by decide +kernel, by decide +kernel, by decide +kernel,
    by decide +kernel, .inr (by decide +kernel), by decide +kernel, rfl, by decide +kernel⟩

theorem witness_StorageCommandsComplete_3 :
    ∃ (t : Nat) (block : Nat) (read : BlockRead) (s : State) (r : State), s.part.store = true ∧ s.locus.t3Fail = false ∧ s.locus.cold = false ∧
      s.inRun = true ∧ (s.locus.blk block).retired = false ∧ s.locus.busy ≠ some block ∧ ((8760 ≤ (s.locus.blk block).age ∧
      s.locus.blocks.all (fun x => x.retired || x.used == 0 || decide (x.age ≤ (s.locus.blk block).age)) = true) ∨ 24 < read.corrected) ∧
      -1073741824 ≤ s.locus.bucket - s.locus.copyCost block ∧ (s.at_ t).copyBlock block = some r ∧ read.erased = false :=
  ⟨0, 2047, ⟨25, false⟩, tMod tDie, _, by decide +kernel, by decide +kernel, by decide +kernel, by decide +kernel, by decide +kernel,
    by decide +kernel, .inr (by decide +kernel), by decide +kernel, rfl, by decide +kernel⟩

theorem witness_StorageCommandsComplete_4 :
    ∃ (s : State), s.part.store = true ∧ s.locus.t3Fail = false :=
  ⟨tMod tDie, by decide +kernel⟩

theorem witness_StorageCommandsComplete_5 :
    ∃ (t : Nat) (s : State), s.spills = true ∧ s.inRunDoze = true ∧ (s.at_ t).holderCut = true :=
  ⟨0, spillMod, by decide +kernel⟩

theorem witness_StorageCommandsComplete_6 :
    ∃ (t : Nat) (s : State) (w : State), t % 1000000000 = 0 ∧ s.inRunDoze = true ∧ s.part.serving = true ∧ s.part.hubHeld = false ∧
      w = (s.at_ t).adoptLocus ∧ w.fB 0x13 0 0 2 = true :=
  ⟨0, put (tMod tDie) 0x13 0 0 0x503C3C0E, _, by decide +kernel, by decide +kernel, by decide +kernel, by decide +kernel, rfl, by decide +kernel⟩

theorem witness_StorageCommandsComplete_7 :
    ∃ (t : Nat) (s : State) (w : State) (k : Nat) (d : Die), t % 1000000000 = 0 ∧ s.inRunDoze = true ∧ s.part.serving = true ∧ s.part.hubHeld = false ∧
      w = (s.at_ t).adoptLocus ∧ w.fB 0x13 0 0 2 = false ∧ w.hasDie k d :=
  ⟨0, put (tMod tDie) 0x13 0 0 0x503C3C0A, ((put (tMod tDie) 0x13 0 0 0x503C3C0A).at_ 0).adoptLocus, 1, tDie, by decide +kernel⟩

theorem witness_StorageCommandsComplete_8 :
    ∃ (t : Nat) (k : Nat) (task : Nat) (d : Die) (s : State), s.hasDie k d ∧ (task = 1 ∨ task = 2) ∧
      (d.movePend.find? fun y => y.1 == task).isSome = true ∧ s.hubTakes k = true ∧ (s.at_ t).taskBoundary task = true :=
  ⟨0, 1, 2, moveDie, tMod moveDie, by decide +kernel, .inr rfl, by decide +kernel⟩

theorem witness_HostRegisterCommandsComplete_0 :
    ∃ (t : Nat) (s : State) (w : State), s.hifUp = true ∧ w = (s.at_ t).undoze :=
  ⟨0, tHost, _, by decide +kernel, rfl⟩

theorem witness_HostRegisterCommandsComplete_1 :
    ∃ (t : Nat) (s : State) (w : State) (value : Nat), s.hifUp = true ∧ w = (s.at_ t).undoze ∧ bit value 0 = true ∧ s.hif.en = false ∧
      s.hif.eq.en = true :=
  ⟨0, eqHost 1, _, 1, by decide +kernel, rfl, by decide +kernel⟩

theorem witness_HostRegisterCommandsComplete_2 :
    ∃ (t : Nat) (s : State) (w : State) (value : Nat), s.hifUp = true ∧ w = (s.at_ t).undoze ∧ bit value 0 = true ∧ s.hif.en = false ∧
      s.hif.eq.en = false :=
  ⟨0, eqHost 0, _, 1, by decide +kernel, rfl, by decide +kernel⟩

theorem witness_HostRegisterCommandsComplete_3 :
    ∃ (t : Nat) (s : State) (w : State) (value : Nat), s.hifUp = true ∧ w = (s.at_ t).undoze ∧ bit value 1 = true :=
  ⟨0, tHost, _, 2, by decide +kernel, rfl, by decide +kernel⟩

theorem witness_HostRegisterCommandsComplete_4 :
    ∃ (t : Nat) (s : State) (w : State) (off : Nat) (value : Nat), s.hifUp = true ∧ w = (s.at_ t).undoze ∧ off % 16 = 8 ∧ bit value 0 = true :=
  ⟨0, tHost, _, 0x108, 1, by decide +kernel, rfl, by decide +kernel⟩

theorem witness_HostRegisterCommandsComplete_5 :
    ∃ (t : Nat) (s : State) (w : State) (off : Nat) (value : Nat), s.hifUp = true ∧ w = (s.at_ t).undoze ∧ off % 16 = 8 ∧ bit value 0 = false :=
  ⟨0, tHost, _, 0x108, 2, by decide +kernel, rfl, by decide +kernel⟩

theorem witness_HostRegisterCommandsComplete_6 :
    ∃ (t : Nat) (s : State) (w : State) (off : Nat) (size : Nat), s.hifUp = true ∧ w = (s.at_ t).undoze ∧ size ≠ 0 ∧ off < 65536 :=
  ⟨0, tHost, _, 65535, 4, by decide +kernel, rfl, by decide +kernel⟩

theorem witness_HostRegisterCommandsComplete_7 :
    ∃ (t : Nat) (s : State) (w : State) (off : Nat) (size : Nat), s.hifUp = true ∧ w = (s.at_ t).undoze ∧ size ≠ 0 ∧ 65536 ≤ off :=
  ⟨0, tHost, _, 65536, 4, by decide +kernel, rfl, by decide +kernel⟩

theorem witness_HostRegisterCommandsComplete_8 :
    ∃ (t : Nat) (s : State) (w : State), s.hifUp = true ∧ w = (s.at_ t).undoze :=
  ⟨0, tHost, _, by decide +kernel, rfl⟩

theorem witness_HostRegisterCommandsComplete_9 :
    ∃ (t : Nat) (s : State) (w : State), s.hifUp = true ∧ w = (s.at_ t).undoze ∧ w.hifServes = true :=
  ⟨0, tHost, _, by decide +kernel, rfl, by decide +kernel⟩

theorem witness_HostRegisterCommandsComplete_10 :
    ∃ (t : Nat) (s : State) (w : State) (vector : Nat), s.hifUp = true ∧ w = (s.at_ t).undoze ∧ vector < 64 :=
  ⟨0, tHost, _, 63, by decide +kernel, rfl, by decide +kernel⟩

theorem witness_HostQueueCommandsComplete_0 :
    ∃ (t : Nat) (s : State), s.hifServes = true ∧ s.inRun = true ∧ s.hif.pollUs ≠ 0 ∧ s.hif.dbReading = false ∧
      s.hif.lastPoll + s.hif.pollUs * 1000 ≤ t :=
  ⟨100000, tHost, by decide +kernel⟩

theorem witness_HostQueueCommandsComplete_1 :
    ∃ (t : Nat) (s : State), s.hifServes = true ∧ s.hif.dbReading = true ∧ t < s.hif.lastPoll + readTimeout :=
  ⟨0, readHost, by decide +kernel⟩

theorem witness_HostQueueCommandsComplete_2 :
    ∃ (t : Nat) (sq : Nat) (left : Nat) (s : State) (u : State), s.hifServes = true ∧ s.hif.shutdown = false ∧ s.arbiter = some (sq, left) ∧
      u = (((s.at_ t).putSq sq { (s.hif.sqOf sq).step with readAt := t }).modHif fun h => { h with rrSq := sq, rrLeft := left, fetchNo := (s.hif.fetchNo + 1) % 65536 }).emit (.hostRead ((s.hif.sqOf sq).base + 64 * (s.hif.sqOf sq).ptr) 64) :=
  ⟨0, 0, 0, sqHost, _, by decide +kernel, by decide +kernel, by decide +kernel, rfl⟩

theorem witness_HostQueueCommandsComplete_3 :
    ∃ (t : Nat) (sq : Nat) (cid : Nat) (x : InFlight) (s : State),
      s.hif.inflight.find? (fun y => y.cmd.sq == sq && y.cmd.cid == cid && !y.completed) = some x ∧ x.fetched + x.timeoutMs * 1000000 ≤ t :=
  ⟨100000000, 0, 7, tFly, flyHost, by decide +kernel⟩

theorem witness_HostQueueCommandsComplete_4 :
    ∃ (ring : Nat) (w : StrWait) (s : State), s.hifServes = true ∧ (s.hif.strOf ring).serves = true ∧
      s.hif.strWait.find? (fun y => y.ring == ring && y.writtenEnd.isNone) = some w ∧ (s.hif.strOf ring).ringFits w.bytes.length = true :=
  ⟨0, tRingRec, ringHost, by decide +kernel⟩

theorem witness_HostQueueCommandsComplete_5 :
    ∃ (w : EvWait) (rest : List EvWait) (s : State), s.hif.eqWait = w :: rest ∧ s.hifServes = true ∧ s.hif.eq.serves = true ∧ s.hif.eq.full = false :=
  ⟨tEvWait, [], evHost, by decide +kernel⟩

theorem witness_HostQueueCommandsComplete_6 :
    ∃ (s : State), s.hifServes = true :=
  ⟨tHost, by decide +kernel⟩

theorem witness_HostQueueCommandsComplete_7 :
    ∃ (s : State), s.hif.delayedMinute ≠ 0 :=
  ⟨{ tHost with hif := { tHost.hif with delayedMinute := 1 } }, by decide +kernel⟩

theorem witness_HostQueueCommandsComplete_8 :
    ∃ (t : Nat) (s : State), s.hifServes = true ∧ s.hif.dbReading = true ∧ s.hif.lastPoll + readTimeout ≤ s.clock t :=
  ⟨50000000, readHost, by decide +kernel⟩

theorem witness_HostQueueCommandsComplete_9 :
    ∃ (t : Nat) (idx : Nat) (s : State), s.hifServes = true ∧ s.fetchable idx = true ∧ s.hif.shutdown = false ∧
      (s.hif.sqOf idx).readAt + readTimeout ≤ s.clock t :=
  ⟨50000000, 0, sqHost, by decide +kernel⟩

theorem witness_HostQueueCommandsComplete_10 :
    ∃ (t : Nat) (idx : Nat) (acc : HostAccess) (s : State) (x : InFlight), s.hifServes = true ∧
      s.hif.inflight.find? (fun y => y.cmd.sq == idx && y.cmd.cid == acc.cid && y.reading && !y.completed) = some x ∧
      x.fetched + readTimeout ≤ s.clock t ∧ inRanges (if x.ranges.isEmpty then [x.listAt] else x.ranges) acc.addr = true :=
  ⟨50000000, 0, ⟨7, 4096⟩, listHost, listFly, by decide +kernel⟩

theorem witness_HostQueueCommandsComplete_11 :
    ∃ (idx : Nat) (acc : HostAccess) (s : State) (w : ComplWait) (x : InFlight), s.hifServes = true ∧
      s.hif.cqWait.find? (fun y => y.sq == idx && y.cid == acc.cid && y.xfer != 0) = some w ∧
      s.hif.inflight.find? (fun y => y.completed && y.cmd.sq == idx && y.cmd.gen == w.gen) = some x ∧ inRanges x.ranges acc.addr = true :=
  ⟨0, ⟨7, 4159⟩, lostHost, tXfer, doneFly, by decide +kernel⟩

theorem witness_MessageCommandsComplete_0 :
    ∃ (t : Nat) (bytes : List Byte) (b : List Byte) (f : Frame) (s : State) (w : State) (u : State), f = frameOf bytes ∧ s.linkRuns = true ∧ f.tc = 1 ∧
      (s.at_ t).accept f = (.deliver, w) ∧ w.assemble f = (some b, u) ∧ s.isModule = true ∧ f.kind = 0x10 ∧ f.origin = 0 :=
  ⟨0, tFrameBytes 1 0x10 0 3 [9], _, _, tMod tDie, _, _, rfl, by decide +kernel, by decide +kernel, rfl, rfl, by decide +kernel⟩

theorem witness_MessageCommandsComplete_1 :
    ∃ (t : Nat) (bytes : List Byte) (b : List Byte) (f : Frame) (s : State) (w : State) (u : State), f = frameOf bytes ∧ s.linkRuns = true ∧ f.tc = 1 ∧
      (s.at_ t).accept f = (.deliver, w) ∧ w.assemble f = (some b, u) ∧ s.isGateway = true ∧ f.kind = 0x11 ∧ rd b 14 2 = preparedCode :=
  ⟨0, doneBytes preparedCode, _, _, tGate, _, _, rfl, by decide +kernel, by decide +kernel, rfl, rfl, by decide +kernel⟩

theorem witness_MessageCommandsComplete_2 :
    ∃ (t : Nat) (bytes : List Byte) (b : List Byte) (f : Frame) (s : State) (w : State) (u : State), f = frameOf bytes ∧ s.linkRuns = true ∧ f.tc = 1 ∧
      (s.at_ t).accept f = (.deliver, w) ∧ w.assemble f = (some b, u) ∧ s.isGateway = true ∧ f.kind = 0x11 ∧ rd b 14 2 = armedCode :=
  ⟨0, doneBytes armedCode, _, _, tGate, _, _, rfl, by decide +kernel, by decide +kernel, rfl, rfl, by decide +kernel⟩

theorem witness_MessageCommandsComplete_3 :
    ∃ (t : Nat) (bytes : List Byte) (b : List Byte) (f : Frame) (s : State) (w : State) (u : State), f = frameOf bytes ∧ s.linkRuns = true ∧ f.tc = 1 ∧
      (s.at_ t).accept f = (.deliver, w) ∧ w.assemble f = (some b, u) ∧ s.isGateway = true ∧ f.kind = 0x11 ∧ rd b 14 2 = disarmedCode :=
  ⟨0, doneBytes disarmedCode, _, _, tGate, _, _, rfl, by decide +kernel, by decide +kernel, rfl, rfl, by decide +kernel⟩

theorem witness_MessageCommandsComplete_4 :
    ∃ (t : Nat) (bytes : List Byte) (b : List Byte) (f : Frame) (s : State) (w : State) (u : State), f = frameOf bytes ∧ s.linkRuns = true ∧ f.tc = 1 ∧
      (s.at_ t).accept f = (.deliver, w) ∧ w.assemble f = (some b, u) ∧ s.isGateway = true ∧ f.kind = 0x11 ∧ rd b 14 2 ≠ preparedCode ∧
      rd b 14 2 ≠ armedCode ∧ rd b 14 2 ≠ disarmedCode ∧ u.hif.inflight.find? (fun x => x.isFor (rd b 2 1) (rd b 0 2) (rd b 12 2)) = none :=
  ⟨0, doneBytes 0, _, _, tGate, _, _, rfl, by decide +kernel, by decide +kernel, rfl, rfl, by decide +kernel⟩

theorem witness_MessageCommandsComplete_5 :
    ∃ (t : Nat) (bytes : List Byte) (b : List Byte) (f : Frame) (s : State) (w : State) (u : State) (x : InFlight), f = frameOf bytes ∧
      s.linkRuns = true ∧ f.tc = 1 ∧ (s.at_ t).accept f = (.deliver, w) ∧ w.assemble f = (some b, u) ∧ s.isGateway = true ∧ f.kind = 0x11 ∧
      rd b 14 2 ≠ preparedCode ∧ rd b 14 2 ≠ armedCode ∧ rd b 14 2 ≠ disarmedCode ∧
      u.hif.inflight.find? (fun x => x.isFor (rd b 2 1) (rd b 0 2) (rd b 12 2)) = some x :=
  ⟨0, doneBytes 0, _, _, flyHost, _, _, tFly, rfl, by decide +kernel, by decide +kernel, rfl, rfl, by decide +kernel⟩

theorem witness_MessageCommandsComplete_6 :
    ∃ (t : Nat) (bytes : List Byte) (b : List Byte) (f : Frame) (s : State) (w : State) (u : State) (v : State) (w2 : State), f = frameOf bytes ∧
      s.linkRuns = true ∧ f.tc = 1 ∧ (s.at_ t).accept f = (.deliver, w) ∧ w.assemble f = (some b, u) ∧ s.isGateway = true ∧ f.kind = 0x12 ∧
      v = u.modHif (fun h => { h with eqWait := h.eqWait ++ [{ bytes := b.take 32, since := t, ref := none }] }) ∧ (w2 = (if rd b 0 1 = 50 ∧
      rd b 16 1 = 0 then (v.awake f.origin).startAll else v)) :=
  ⟨0, tFrameBytes 1 0x12 3 0 (zeros 64), _, _, tGate, _, _, _, _, rfl, by decide +kernel, by decide +kernel, rfl, rfl, by decide +kernel,
    by decide +kernel, rfl, rfl⟩

theorem witness_ConfigSetCommandsComplete_0 :
    ∃ (t : Nat) (c : Cmd) (s : State) (w : State), s.serves 0x03 c ∧ w = s.served t c ∧
      cfgRangeOk (rd c.param 1 1) c.target (rd c.param 4 4) c.bufLen = true ∧ rd c.param 0 1 < 2 :=
  ⟨0, tCmd 3 3 1 4 [0, 1], tMod tDie, _, by decide +kernel, rfl, by decide +kernel⟩

theorem witness_ConfigSetCommandsComplete_1 :
    ∃ (t : Nat) (c : Cmd) (s : State) (u : State) (v : State), s.serves 0x03 c ∧ rd c.param 0 1 = 2 ∧ rd c.param 4 4 % 4 = 0 ∧
      rd c.param 4 4 + c.bufLen ≤ 0x200 ∧ blockExists (rd c.param 1 1) c.target = true ∧ u = (s.served t c).catchUp c.target ∧
      v = (if rd c.param 1 1 = 0x15 then u.measurePower else u) :=
  ⟨0, tCmd 3 3 0 8 [2, 0x15], tMod tDie, _, _, by decide +kernel, by decide +kernel, by decide +kernel, by decide +kernel, by decide +kernel, rfl,
    rfl⟩

theorem witness_ConfigSetCommandsComplete_2 :
    ∃ (c : Cmd) (s : State), s.serves 0x04 c ∧ cfgRangeOk (rd c.param 1 1) c.target (rd c.param 4 4) c.bufLen = true ∧ s.cfg.pend = none ∧
      s.cfg.copying = false :=
  ⟨tCmd 4 3 0 8 [0, 0x11], tMod tDie, by decide +kernel⟩

theorem witness_ConfigSetCommandsComplete_3 :
    ∃ (c : Cmd) (s : State), s.serves 0x04 c ∧ cfgRangeOk (rd c.param 1 1) c.target (rd c.param 4 4) c.bufLen = true ∧ s.cfg.pend = none ∧
      s.cfg.copying = true :=
  ⟨tCmd 4 3 0 8 [0, 0x11], copyMod, by decide +kernel⟩

theorem witness_ConfigSetCommandsComplete_4 :
    ∃ (t : Nat) (c : Cmd) (s : State), s.serves 0x05 c ∧ rd c.param 0 1 = 0 ∧ bits (rd c.param 1 1) 7 1 = 0 ∧
      (s.served t c).commitRefusal (rd c.param 8 8) = none :=
  ⟨0, tCmd 5 3 0 0 [], tMod tDie, by decide +kernel⟩

theorem witness_ConfigSetCommandsComplete_5 :
    ∃ (p : PendCommit) (s : State), s.cfg.pend = some p ∧ p.checked = false ∧ s.cfg.waiting = [] ∧
      firstOffence (checkSet s.cfg.a s.cfg.b s.islands (s.isGateway && s.anyOut)) = none :=
  ⟨tPend, pendMod, by decide +kernel⟩

theorem witness_ConfigSetCommandsComplete_6 :
    ∃ (p : PendCommit) (s : State) (o : _), s.cfg.pend = some p ∧ p.checked = false ∧ s.cfg.waiting = [] ∧
      firstOffence (checkSet s.cfg.a s.cfg.b s.islands (s.isGateway && s.anyOut)) = some o :=
  ⟨tPend, put pendMod 0x13 0 4 0x15650000, (0x13, 0, 4), by decide +kernel⟩

theorem witness_ConfigSetCommandsComplete_7 :
    ∃ (c : Cmd) (s : State), s.serves 0x05 c ∧ bits (rd c.param 1 1) 7 1 = 0 ∧ rd c.param 0 1 = 1 ∧ s.cfg.pend = none :=
  ⟨tCmd 5 3 0 0 [1], tMod tDie, by decide +kernel⟩

theorem witness_ConfigSetCommandsComplete_8 :
    ∃ (c : Cmd) (s : State), s.serves 0x05 c ∧ bits (rd c.param 1 1) 7 1 = 0 ∧ rd c.param 0 1 = 2 :=
  ⟨tCmd 5 3 0 0 [2], tMod tDie, by decide +kernel⟩

theorem witness_ConfigSetCommandsComplete_9 :
    ∃ (t : Nat) (p : PendCommit) (s : State), s.cfg.pend = some p ∧ p.checked = true ∧ p.tCommit ≤ t ∧ (p.group = false ∨ p.go = true) :=
  ⟨10000000, readyPend, readyMod, by decide +kernel, by decide +kernel, by decide +kernel, .inl rfl⟩

theorem witness_ConfigSetCommandsComplete_10 :
    ∃ (s : State), s.cfg.copying = true :=
  ⟨copyMod, by decide +kernel⟩

theorem witness_GroupCommitCommandsComplete_0 :
    ∃ (g : GroupRun) (s : State), s.cfg.group = some g ∧ (List.range (max 1 s.chainParts)).all g.prepared.contains = true :=
  ⟨tRun [0], runGate [0], by decide +kernel⟩

theorem witness_GroupCommitCommandsComplete_1 :
    ∃ (t : Nat) (g : GroupRun) (s : State), s.cfg.group = some g ∧ (List.range (max 1 s.chainParts)).all g.prepared.contains = false ∧
      g.tCommit ≤ t + 5000000 :=
  ⟨5000000, tRun [], runGate [], by decide +kernel⟩

theorem witness_GroupCommitCommandsComplete_2 :
    ∃ (t : Nat) (p : PendCommit) (s : State) (w : State), s.isModule = true ∧ (s.at_ t).takeGroupFrame 1 = (true, w) ∧ w.cfg.pend = some p ∧
      p.group = true ∧ p.checked = true ∧ t + 100000 ≤ p.tCommit :=
  ⟨0, groupPend, groupMod, groupMod.at_ 0, by decide +kernel⟩

theorem witness_GroupCommitCommandsComplete_3 :
    ∃ (t : Nat) (p : PendCommit) (s : State) (w : State), s.isModule = true ∧ (s.at_ t).takeGroupFrame 2 = (true, w) ∧ w.cfg.pend = some p ∧
      p.group = true :=
  ⟨0, groupPend, groupMod, groupMod.at_ 0, by decide +kernel⟩

theorem witness_GroupCommitCommandsComplete_4 :
    ∃ (t : Nat) (p : PendCommit) (s : State), s.cfg.pend = some p ∧ p.group = true ∧ p.checked = true ∧ p.go = false ∧ p.tCommit ≤ t + 100000 :=
  ⟨9900000, groupPend, groupMod, by decide +kernel⟩

theorem witness_GroupCommitCommandsComplete_5 :
    ∃ (c : Cmd) (ks : List Nat) (s : State), s.serves 0x0C c ∧ rd c.param 8 4 < 2 ^ 24 ∧ ks = (if c.target = 0 then s.islands else [c.target]) ∧
      firstOffence (ks.flatMap fun k => (checkProt (ks.foldl (fun m k => policySet m k (rd c.param 0 4) (rd c.param 4 4) (rd c.param 8 4) (rd c.param 12 4)) s.cfg.a) k ++ checkProt (ks.foldl (fun m k => policySet m k (rd c.param 0 4) (rd c.param 4 4) (rd c.param 8 4) (rd c.param 12 4)) s.cfg.b) k).map fun off => (0x07, k, off)) = none :=
  ⟨tCmd 0x0C 3 1 0 (le 4 0x02990A00 ++ le 4 0 ++ le 4 1 ++ le 4 100), [1], tMod tDie, by decide +kernel⟩

theorem witness_StreamCommandsComplete_0 :
    ∃ (t : Nat) (c : Cmd) (s : State) (w : State), w = s.served t c ∧ s.serves 0x01 c :=
  ⟨0, tCmd 1 3 0 48 [], tMod tDie, _, rfl, by decide +kernel⟩

theorem witness_StreamCommandsComplete_1 :
    ∃ (t : Nat) (c : Cmd) (s : State) (w : State), w = s.served t c ∧ s.serves 0x18 c :=
  ⟨0, tCmd 0x18 3 0 0 [], tMod tDie, _, rfl, by decide +kernel⟩

theorem witness_StreamCommandsComplete_2 :
    ∃ (t : Nat) (c : Cmd) (s : State) (w : State), w = s.served t c ∧ s.serves 0x02 c ∧ s.isGateway = true ∧ s.link.enumState ≠ 1 :=
  ⟨0, tCmd 2 0 0 0 [], flying tGate (tCmd 2 0 0 0 []), _, rfl, by decide +kernel⟩

theorem witness_StreamCommandsComplete_3 :
    ∃ (t : Nat) (c : Cmd) (s : State) (w : State), w = s.served t c ∧ s.serves 0x06 c ∧
      (if s.hosted = true then w.subRefusal c = none else rd c.param 6 2 ≠ 0 ∧ streamOk c = true) ∧
      (rd c.param 4 2 = 0x0901 ∨ (rd c.param 4 2 = 0x0B01 ↔ c.target = 0)) ∧ (rd c.param 4 2 = 0x0302 → w.fastMode c.target = 2) :=
  ⟨0, tCmd 6 0 1 0 ([127, 0, 0, 0] ++ le 2 0x0201 ++ le 2 1), flying ringHost (tCmd 6 0 1 0 ([127, 0, 0, 0] ++ le 2 0x0201 ++ le 2 1)), _, rfl,
    by decide +kernel, by decide +kernel, .inr (by decide +kernel), fun h => absurd h (by decide +kernel)⟩

theorem witness_StreamCommandsComplete_4 :
    ∃ (t : Nat) (c : Cmd) (s : State) (w : State) (x : Sub), w = s.served t c ∧ s.serves 0x07 c ∧ s.hosted = true ∧
      s.hif.subs.find? (fun x => x.sub == rd c.param 0 1) = some x ∧ x.closing = none :=
  ⟨0, tCmd 7 0 0 0 [5], flying subGate (tCmd 7 0 0 0 [5]), _, tSub, rfl, by decide +kernel⟩

theorem witness_StreamCommandsComplete_5 :
    ∃ (t : Nat) (c : Cmd) (s : State) (w : State) (r : Rec), w = s.served t c ∧ s.serves 0x08 c ∧
      (rd c.param 4 2 = 0x0901 ↔ rd c.param 2 1 = 1 ∨ rd c.param 2 1 = 2) ∧ streamOk c = true ∧
      ((w.streamRecs (rd c.param 4 2) (streamSrc c) 0).filter fun r => r.tier == .stage || r.tier == .buffer || r.tier == .capture).getLast? = some r ∧
      r.bytes.length ≤ c.bufLen :=
  ⟨0, tCmd 8 3 1 16 ([0, 0, 0, 0] ++ le 2 0x0201), recMod, _, tRec, rfl, by decide +kernel⟩

theorem witness_StreamCommandsComplete_6 :
    ∃ (t : Nat) (c : Cmd) (s : State) (w : State) (lost : List Nat) (holders : List Nat) (r : List Byte × Nat × Bool), w = s.served t c ∧
      s.serves 0x0B c ∧ (rd c.param 4 2 = 0x0901 ↔ rd c.param 2 1 = 1 ∨ rd c.param 2 1 = 2) ∧ streamOk c = true ∧
      w.streamRecs (rd c.param 4 2) (streamSrc c) 0 ≠ [] ∧
      holders = (((w.streamRecs (rd c.param 4 2) (streamSrc c) (rd c.param 8 8)).filter (·.tier == .t5)).flatMap (·.blocks)).eraseDups ∧ holders = [] ∧
      r = fillWith c.bufLen (withLost (w.streamRecs (rd c.param 4 2) (streamSrc c) (rd c.param 8 8)) lost []) :=
  ⟨0, tCmd 0x0B 3 1 16 ([0, 0, 0, 0] ++ le 2 0x0201), recMod, recMod.served 0 (tCmd 0x0B 3 1 16 ([0, 0, 0, 0] ++ le 2 0x0201)), [], [], _,
    by decide +kernel, by decide +kernel, by decide +kernel, by decide +kernel, by decide +kernel, by decide +kernel, by decide +kernel, rfl⟩

theorem witness_StreamCommandsComplete_7 :
    ∃ (t : Nat) (c : Cmd) (s : State) (w : State) (holders : List Nat), w = s.served t c ∧ s.serves 0x0B c ∧
      (rd c.param 4 2 = 0x0901 ↔ rd c.param 2 1 = 1 ∨ rd c.param 2 1 = 2) ∧ streamOk c = true ∧ w.streamRecs (rd c.param 4 2) (streamSrc c) 0 ≠ [] ∧
      holders = (((w.streamRecs (rd c.param 4 2) (streamSrc c) (rd c.param 8 8)).filter (·.tier == .t5)).flatMap (·.blocks)).eraseDups ∧
      holders ≠ [] :=
  ⟨0, tCmd 0x0B 3 1 16 ([0, 0, 0, 0] ++ le 2 0x0201), farMod, farMod.served 0 (tCmd 0x0B 3 1 16 ([0, 0, 0, 0] ++ le 2 0x0201)), [5],
    by decide +kernel⟩

theorem witness_CaptureAndPowerRequestsComplete_0 :
    ∃ (t : Nat) (c : Cmd) (s : State) (w : State), w = s.served t c ∧ s.serves 0x09 c ∧ rd c.param 0 1 = 0 ∧
      bits (cellWord s.cfg.a 0x02 c.target 0) 7 6 = 1 ∧ (rd c.param 8 8 = 0 ∨ w.tq ≠ 3) ∧ (∀ d, s.die? c.target = some d → d.fast.cap = none) :=
  ⟨0, tCmd 9 3 1 0 [], put (tMod tDie) 2 1 0 0x40, _, rfl, by decide +kernel, by decide +kernel, by decide +kernel, .inl (by decide +kernel),
    fun _ h => by cases h; rfl⟩

theorem witness_CaptureAndPowerRequestsComplete_1 :
    ∃ (t : Nat) (c : Cmd) (s : State) (w : State), w = s.served t c ∧ s.serves 0x09 c ∧ rd c.param 0 1 = 1 :=
  ⟨0, tCmd 9 3 1 0 [1], tMod tDie, _, rfl, by decide +kernel⟩

theorem witness_CaptureAndPowerRequestsComplete_2 :
    ∃ (t : Nat) (c : Cmd) (s : State) (w : State) (lost : List Nat) (held : List (Nat × Rec)) (top : Nat) (live : Option Capture) (mine : List (Nat × Rec)) (r : List Byte × Nat × Bool), w = s.served t c ∧ s.serves 0x0A c ∧ held = w.captureBlocks c.target (rd c.param 4 4) ∧ live = ((s.die? c.target).map fun d => d.fast.captures.find? fun x => x.id == rd c.param 4 4).getD none ∧ top = held.foldl (fun m x => max m (x.1 + 1)) ((live.map (·.block)).getD 0) ∧ mine = (held.filter fun x => decide (rd c.param 8 2 ≤ x.1) && decide (x.1 < rd c.param 8 2 + rd c.param 10 2)) ∧ rd c.param 10 2 ≠ 0 ∧ (held ≠ [] ∨ live.isSome = true) ∧ r = fillWith c.bufLen (withLost (mine.map (·.2)) lost []) :=
  ⟨0, tCmd 0x0A 3 1 64 (zeros 10 ++ [1]), tMod drainDie, _, [], [], 0, some drainCap, [], _, rfl, by decide +kernel, held_none, by decide +kernel,
    by decide +kernel, by decide +kernel, by decide +kernel, .inr rfl, rfl⟩

theorem witness_CaptureAndPowerRequestsComplete_3 :
    ∃ (t : Nat) (c : Cmd) (s : State) (w : State), w = s.served t c ∧ s.serves 0x0D c ∧ rd c.param 0 1 = 0 :=
  ⟨0, tCmd 0x0D 3 0 0 [0], tMod tDie, _, rfl, by decide +kernel⟩

theorem witness_CaptureAndPowerRequestsComplete_4 :
    ∃ (t : Nat) (c : Cmd) (s : State) (w : State), w = s.served t c ∧ s.serves 0x0D c ∧ rd c.param 0 1 = 1 :=
  ⟨0, tCmd 0x0D 3 0 0 [1], tMod tDie, _, rfl, by decide +kernel⟩

theorem witness_CaptureAndPowerRequestsComplete_5 :
    ∃ (t : Nat) (c : Cmd) (s : State) (w : State), w = s.served t c ∧ s.serves 0x0D c ∧ rd c.param 0 1 = 2 ∧ (s.trust.session = 2 ∧
      s.trust.keepAwake = true) :=
  ⟨0, tCmd 0x0D 3 0 0 [2], fullMod, _, rfl, by decide +kernel⟩

theorem witness_CaptureAndPowerRequestsComplete_6 :
    ∃ (t : Nat) (c : Cmd) (s : State) (w : State), w = s.served t c ∧ s.serves 0x0D c ∧ rd c.param 0 1 = 2 ∧ (¬ (s.trust.session = 2 ∧
      s.trust.keepAwake = true)) :=
  ⟨0, tCmd 0x0D 3 0 0 [2], tMod tDie, _, rfl, by decide +kernel⟩

theorem witness_CaptureAndPowerRequestsComplete_7 :
    ∃ (t : Nat) (c : Cmd) (s : State) (w : State), w = s.served t c ∧ s.serves 0x0D c ∧ rd c.param 0 1 = 3 :=
  ⟨0, tCmd 0x0D 3 0 0 [3], tMod tDie, _, rfl, by decide +kernel⟩

theorem witness_CaptureAndPowerRequestsComplete_8 :
    ∃ (t : Nat) (c : Cmd) (s : State) (w : State) (x : SwpPort), w = s.served t c ∧ s.serves 0x14 c ∧ (rd c.param 0 1 = 1 ∨ rd c.param 0 1 = 2) ∧
      s.swp[rd c.param 0 1 - 1]? = some x :=
  ⟨0, tCmd 0x14 3 0 0 [2], tMod tDie, _, SwpPort.initial, rfl, by decide +kernel, .inr (by decide +kernel), by decide +kernel⟩

theorem witness_CaptureAndPowerRequestsComplete_9 :
    ∃ (t : Nat) (c : Cmd) (s : State) (w : State), w = s.served t c ∧ s.serves 0x16 c ∧ s.isGateway = true ∧ bit (rd s.trust.sealed_ 1 1) 0 = true ∧
      s.safe.lockout = true ∧ slice c.param 0 16 = w.releaseToken ∧ w.releasable = true :=
  ⟨0, tCmd 0x16 0 0 0 lockGate.releaseToken, flying lockGate (tCmd 0x16 0 0 0 lockGate.releaseToken), _, rfl, by decide +kernel⟩

theorem witness_MeterAndBlackBoxCommandsComplete_0 :
    ∃ (t : Nat) (s : State), s.apexRuns = true ∧ t % 10000000 = 0 ∧ s.power.warnAt = none ∧ (s.trust.meterDirty = true ∨ s.trust.stmtWait ≠ []) :=
  ⟨0, meterMod, by decide +kernel, by decide +kernel, by decide +kernel, .inl rfl⟩

theorem witness_MeterAndBlackBoxCommandsComplete_1 :
    ∃ (c : Cmd) (s : State), s.serves 0x10 c :=
  ⟨tCmd 0x10 3 0 256 [], sealedMod, by decide +kernel⟩

theorem witness_MeterAndBlackBoxCommandsComplete_2 :
    ∃ (t : Nat) (s : State), s.apexRuns = true ∧ t % 3600000000000 = 0 :=
  ⟨0, tMod tDie, by decide +kernel⟩

theorem witness_MeterAndBlackBoxCommandsComplete_3 :
    ∃ (t : Nat) (s : State), s.apexRuns = true ∧ s.trust.life ≠ 0 ∧ s.trust.history.start + historyNs ≤ t :=
  ⟨2592000000000000, sealedMod, by decide +kernel⟩

theorem witness_MeterAndBlackBoxCommandsComplete_4 :
    ∃ (c : Cmd) (s : State), s.serves 0x11 c :=
  ⟨tCmd 0x11 3 0 256 [], tMod tDie, by decide +kernel⟩

theorem witness_MeterAndBlackBoxCommandsComplete_6 :
    ∃ (t : Nat) (w : BbWait) (rest : List BbWait) (s : State), s.apexRuns = true ∧ (s.at_ t).signBusy = false ∧ s.trust.bbWait = w :: rest :=
  ⟨0, tBbWait, [], bbMod, by decide +kernel⟩

theorem witness_MeterAndBlackBoxCommandsComplete_7 :
    ∃ (c : Cmd) (rs : List BbRec) (got : List BbRec) (s : State), s.serves 0x15 c ∧
      rs = (s.trust.bb.filter fun r => decide (rd c.param 4 4 ≤ r.seq) && (r.okA || r.okB)) ∧ got = rs.take (min rs.length (c.bufLen / 256)) :=
  ⟨tCmd 0x15 3 0 256 [], _, _, readMod, by decide +kernel, rfl, rfl⟩

theorem witness_FirmwareCommandsComplete_0 :
    ∃ (t : Nat) (c : Cmd) (s : State) (w : State), s.serves 0x12 c ∧ w = s.served t c ∧ (rd c.param 0 1 = 1 ∨ rd c.param 0 1 = 2) ∧
      rd c.param 4 4 % 4 = 0 ∧ rd c.param 8 4 ≤ imageMax (rd c.param 0 1) ∧ rd c.param 4 4 + c.bufLen ≤ rd c.param 8 4 ∧ rd c.param 4 4 = 0 :=
  ⟨0, tCmd 0x12 3 0 4 ([2, 0, 0, 0] ++ le 4 0 ++ le 4 8), tMod tDie, _, by decide +kernel, rfl, .inr (by decide +kernel), by decide +kernel⟩

theorem witness_FirmwareCommandsComplete_1 :
    ∃ (t : Nat) (c : Cmd) (x : Staging) (s : State) (w : State), s.serves 0x12 c ∧ w = s.served t c ∧ (rd c.param 0 1 = 1 ∨ rd c.param 0 1 = 2) ∧
      s.trust.staging[rd c.param 0 1 - 1]? = some x ∧ rd c.param 4 4 % 4 = 0 ∧ rd c.param 8 4 ≤ imageMax (rd c.param 0 1) ∧
      rd c.param 4 4 + c.bufLen ≤ rd c.param 8 4 ∧ rd c.param 8 4 = x.total :=
  ⟨0, tCmd 0x12 3 0 4 ([2, 0, 0, 0] ++ le 4 0 ++ le 4 4), tStaged, stagedMod, _, by decide +kernel, rfl, .inr (by decide +kernel), by decide +kernel⟩

theorem witness_FirmwareCommandsComplete_2 :
    ∃ (t : Nat) (bytes : List Byte) (b : List Byte) (f : Frame) (c : Cmd) (s : State) (w : State) (u : State), f = frameOf bytes ∧ s.linkRuns = true ∧
      s.isModule = true ∧ f.tc = 3 ∧ f.kind = 0x31 ∧ (s.at_ t).accept f = (.deliver, w) ∧ w.assemble f = (some b, u) ∧
      c = cmdOf (rd b 64 1) (rd b 65 2) b :=
  ⟨0, stageBytes, _, _, _, tMod tDie, _, _, rfl, by decide +kernel, by decide +kernel, by decide +kernel, by decide +kernel, rfl, rfl, rfl⟩

theorem witness_FirmwareCommandsComplete_3 :
    ∃ (t : Nat) (c : Cmd) (x : Staging) (v : Bool × State) (s : State) (w : State), s.serves 0x13 c ∧ w = s.served t c ∧
      w.activateRefusal c (rd c.param 1 1 != 0) = none ∧ s.trust.staging[rd c.param 0 1 - 1]? = some x ∧ x.whole = true ∧
      v = w.verifyImage (rd c.param 0 1) x.image x.total ∧ rd c.param 1 1 = 0 :=
  ⟨0, tCmd 0x13 3 0 0 [2, 0], tStaged, _, stagedMod, _, by decide +kernel, rfl, by decide +kernel, by decide +kernel, by decide +kernel, rfl,
    by decide +kernel⟩

theorem witness_FirmwareCommandsComplete_4 :
    ∃ (t : Nat) (c : Cmd) (x : Staging) (v : Bool × State) (s : State) (w : State), s.serves 0x13 c ∧ w = s.served t c ∧
      w.activateRefusal c (rd c.param 1 1 != 0) = none ∧ s.trust.staging[rd c.param 0 1 - 1]? = some x ∧ x.whole = true ∧
      v = w.verifyImage (rd c.param 0 1) x.image x.total ∧ rd c.param 1 1 = 1 ∧ rd c.param 0 1 = 2 :=
  ⟨0, tCmd 0x13 3 0 0 [2, 1], tStaged, _, stagedMod, _, by decide +kernel, rfl, by decide +kernel, by decide +kernel, by decide +kernel, rfl,
    by decide +kernel⟩

theorem witness_FirmwareCommandsComplete_5 :
    ∃ (t : Nat) (c : Cmd) (x : Staging) (v : Bool × State) (s : State) (w : State), s.serves 0x13 c ∧ w = s.served t c ∧
      w.activateRefusal c (rd c.param 1 1 != 0) = none ∧ s.trust.staging[rd c.param 0 1 - 1]? = some x ∧ x.whole = true ∧
      v = w.verifyImage (rd c.param 0 1) x.image x.total ∧ rd c.param 1 1 = 1 ∧ rd c.param 0 1 = 1 :=
  ⟨0, tCmd 0x13 3 0 0 [1, 1], tStaged, _, stagedMod, _, by decide +kernel, rfl, by decide +kernel, by decide +kernel, by decide +kernel, rfl,
    by decide +kernel⟩

theorem witness_FirmwareCommandsComplete_6 :
    ∃ (t : Nat) (c : Cmd) (b : List Byte) (v : Bool × State) (s : State) (w : State), s.serves 0x13 c ∧ w = s.served t c ∧ rd c.param 1 1 = 2 ∧
      w.activateRefusal c true = none ∧ b = (if rd c.param 0 1 = 1 then w.apexImage (!s.trust.apexSlotB) else w.spanImage (!s.trust.slotB)) ∧
      v = w.verifyImage (rd c.param 0 1) b b.length :=
  ⟨0, tCmd 0x13 3 0 0 [2, 2], _, _, tMod tDie, _, by decide +kernel, rfl, by decide +kernel, by decide +kernel, rfl, rfl⟩

theorem witness_FirmwareCommandsComplete_7 :
    ∃ (t : Nat) (r : Nat) (a : Activation) (s : State) (w : State), w = (s.at_ t).actDue ∧ w.trust.act = some a ∧ a.runAt = some r ∧
      t ≤ r + 10000000000 :=
  ⟨0, _, tAct, actMod, (actMod.at_ 0).actDue, by decide +kernel, by decide +kernel, rfl, by decide +kernel⟩

theorem witness_FirmwareCommandsComplete_8 :
    ∃ (t : Nat) (r : Nat) (a : Activation) (s : State) (w : State), w = (s.at_ t).actDue ∧ w.trust.act = some a ∧ a.runAt = some r ∧
      r + 10000000000 ≤ t :=
  ⟨10000000000, _, tAct, actMod, _, rfl, by decide +kernel, rfl, by decide +kernel⟩

theorem witness_FirmwareCommandsComplete_9 :
    ∃ (t : Nat) (s : State), s.trust.trial = true ∧ (s.at_ t).accrueTest.runClock < s.trust.spanSince + hourNs :=
  ⟨0, trialMod 0, by decide +kernel⟩

theorem witness_FirmwareCommandsComplete_10 :
    ∃ (t : Nat) (s : State) (w : State), w = (s.at_ t).accrueTest ∧ s.trust.trial = true ∧ s.trust.spanSince + hourNs ≤ w.runClock :=
  ⟨0, trialMod 3600000000000, ((trialMod 3600000000000).at_ 0).accrueTest, by decide +kernel⟩

theorem witness_FirmwareCommandsComplete_11 :
    ∃ (t : Nat) (s : State) (w : State), w = (s.at_ t).accrueTest ∧ w.apexImage s.trust.apexSlotB ≠ [] ∧ s.trust.apexSince + hourNs ≤ w.runClock :=
  ⟨0, trialMod 3600000000000, ((trialMod 3600000000000).at_ 0).accrueTest, by decide +kernel⟩

theorem witness_LifecycleCommandsComplete_0 :
    ∃ (t : Nat) (c : Cmd) (data : List Byte) (msg : List Byte) (s : State), msg = s.inData c data ∧ s.acceptsLife t 1 c msg :=
  ⟨0, tLife, lifeBytes 1 0 (zeros 64) (zeros 160) (zeros 64), _, lifeMod 0 0 (zeros 64) none, rfl, by decide +kernel⟩

theorem witness_LifecycleCommandsComplete_1 :
    ∃ (t : Nat) (c : Cmd) (data : List Byte) (msg : List Byte) (s : State), msg = s.inData c data ∧ s.acceptsLife t 2 c msg :=
  ⟨0, tLife, lifeBytes 2 0 sealRoot sealCert tSealed, _, lifeMod 0 0 (zeros 64) (some 1), rfl, by decide +kernel⟩

theorem witness_LifecycleCommandsComplete_2 :
    ∃ (t : Nat) (c : Cmd) (data : List Byte) (msg : List Byte) (s : State), msg = s.inData c data ∧ s.acceptsLife t 5 c msg :=
  ⟨0, tLife, signedBytes (lifeBytes 5 0 (zeros 64) (zeros 160) tSealed) updSig, _, lifeMod 1 0 updRoot none, rfl, by decide +kernel⟩

theorem witness_LifecycleCommandsComplete_3 :
    ∃ (t : Nat) (c : Cmd) (data : List Byte) (msg : List Byte) (s : State), msg = s.inData c data ∧ s.acceptsLife t 3 c msg :=
  ⟨0, tLife, signedBytes (lifeBytes 3 1 (zeros 64) (zeros 160) (zeros 64)) relSig, _, lifeMod 1 1 relRoot none, rfl, by decide +kernel⟩

theorem witness_LifecycleCommandsComplete_4 :
    ∃ (t : Nat) (c : Cmd) (data : List Byte) (msg : List Byte) (s : State), msg = s.inData c data ∧ s.acceptsLife t 4 c msg :=
  ⟨0, tLife, lifeBytes 4 0 (zeros 64) (zeros 160) (zeros 64), _, lifeMod 0 0 (zeros 64) none, rfl, by decide +kernel⟩

theorem witness_DebugCommandsComplete_0 :
    ∃ (s : State), s.apexRuns = true ∧ s.inRunDoze = true ∧ s.trust.session = 0 :=
  ⟨tMod tDie, by decide +kernel⟩

theorem witness_DebugCommandsComplete_1 :
    ∃ (s : State), s.apexRuns = true ∧ s.inRunDoze = true ∧ s.trust.session ≠ 2 :=
  ⟨tMod tDie, by decide +kernel⟩

theorem witness_DebugCommandsComplete_2 :
    ∃ (s : State), s.trust.session ≠ 0 ∧ s.trust.sleepHeld = false :=
  ⟨openMod 1, by decide +kernel⟩

theorem witness_SupplyCommandsComplete_0 :
    ∃ (which : Nat) (v : Rat), which ≤ 1 ∧ inputRises which v = true :=
  ⟨0, 77 / 10, by decide +kernel⟩

theorem witness_SupplyCommandsComplete_1 :
    ∃ (which : Nat) (v : Rat), which ≤ 1 ∧ inputFalls which v = true :=
  ⟨1, 54 / 10, by decide +kernel⟩

theorem witness_SupplyCommandsComplete_2 :
    ∃ (rail : Nat) (kind : Nat) (s : State), 1 ≤ kind ∧ kind ≤ 3 ∧ rail < 13 ∧ s.supervisorsTested = false ∧ (s.rail rail).st = 2 :=
  ⟨10, 1, railMod 2, by decide +kernel⟩

theorem witness_SupplyCommandsComplete_3 :
    ∃ (s : State), s.supervisorsTested = false ∧ (s.rail 13).st ≠ 0 :=
  ⟨railMod 2, by decide +kernel⟩

theorem witness_SupplyCommandsComplete_4 :
    ∃ (t : Nat) (rail : Nat) (s : State), (s.rail rail).st = 4 ∧ s.inRunDoze = true ∧ s.part.serving = true ∧ s.power.warnAt = none ∧
      (((rail = 6 ∨ rail = 8 ∨ rail = 9) ∧ (s.rail rail).retried = false ∧ (s.rail rail).faultAt + 1000000000 ≤ t) ∨ (10 ≤ rail ∧ rail ≤ 12 ∧
      (s.rail rail).faultAt + s.pwF 8 31 16 * 1000000000 ≤ t)) :=
  ⟨1000000000, 6, railMod 4, by decide +kernel, by decide +kernel, by decide +kernel, by decide +kernel, .inl (by decide +kernel)⟩

theorem witness_SupplyCommandsComplete_5 :
    ∃ (t : Nat) (s : State) (w : State), w = (s.at_ t).accrueTest ∧ s.inRun = true ∧ s.part.serving = true ∧ s.power.warnAt = none ∧
      s.power.copyRun + 3600000000000 ≤ w.runClock :=
  ⟨0, runMod 3600000000000, ((runMod 3600000000000).at_ 0).accrueTest, by decide +kernel⟩

theorem witness_SupplyCommandsComplete_6 :
    ∃ (mv : Nat) (s : State), s.holdEn = true ∧ s.inRunDoze = true ∧ s.power.holdOk = false ∧ (s.rail 13).st ≠ 0 ∧ s.holdMv ≤ mv + 200 :=
  ⟨3800, holdMod false 1, by decide +kernel⟩

theorem witness_SupplyCommandsComplete_7 :
    ∃ (mv : Nat) (s : State), s.holdEn = true ∧ s.inRunDoze = true ∧ s.power.holdOk = true ∧ mv + 500 < s.holdMv :=
  ⟨3499, holdMod true 2, by decide +kernel⟩

theorem witness_SupplyCommandsComplete_8 :
    ∃ (t : Nat) (s : State), s.holdEn = true ∧ s.inRunDoze = true ∧ s.power.holdDone = false ∧ s.power.vsysAt + 60000000000 ≤ t :=
  ⟨60000000000, holdMod false 1, by decide +kernel⟩

theorem witness_PowerSequenceCommandsComplete_0 :
    ∃ (s : State), s.power.st = 4 ∧ s.power.seqDir = 0 ∧ s.inputOk = true ∧ s.power.restartAt = none ∧ s.power.retryAt = none ∧
      s.power.rstHeld = false ∧ s.part.hubHeld = false ∧ s.part.serving = false :=
  ⟨offMod, by decide +kernel⟩

theorem witness_PowerSequenceCommandsComplete_1 :
    ∃ (t : Nat) (rail : Nat) (s : State) (w : State), (s.rail rail).st = 1 ∧ rail ≠ 13 ∧ w = (s.at_ t).railUp t rail :=
  ⟨0, 2, railMod 1, ((railMod 1).at_ 0).railUp 0 2, by decide +kernel⟩

theorem witness_PowerSequenceCommandsComplete_2 :
    ∃ (t : Nat) (rail : Nat) (s : State) (w : State), (s.rail rail).st = 1 ∧ rail ≠ 13 ∧ w = (s.at_ t).countRail rail 4 ∧
      (s.power.seqDir ≠ 1 ∨ s.power.seqRail ≠ rail) :=
  ⟨0, 2, railMod 1, ((railMod 1).at_ 0).countRail 2 4, by decide +kernel, by decide +kernel, by decide +kernel, .inl (by decide +kernel)⟩

theorem witness_PowerSequenceCommandsComplete_3 :
    ∃ (t : Nat) (rail : Nat) (s : State) (w : State), (s.rail rail).st = 1 ∧ rail ≠ 13 ∧ w = (s.at_ t).countRail rail 4 ∧ s.power.seqDir = 1 ∧
      s.power.seqRail = rail ∧ s.power.attempts < 2 :=
  ⟨0, 2, upMod 0, ((upMod 0).at_ 0).countRail 2 4, by decide +kernel⟩

theorem witness_PowerSequenceCommandsComplete_4 :
    ∃ (t : Nat) (rail : Nat) (s : State) (w : State), (s.rail rail).st = 1 ∧ rail ≠ 13 ∧ w = (s.at_ t).countRail rail 4 ∧ s.power.seqDir = 1 ∧
      s.power.seqRail = rail ∧ 2 ≤ s.power.attempts :=
  ⟨0, 2, upMod 2, ((upMod 2).at_ 0).countRail 2 4, by decide +kernel⟩

theorem witness_PowerSequenceCommandsComplete_5 :
    ∃ (t : Nat) (a : Nat) (s : State), s.power.retryAt = some a ∧ a ≤ t ∧ s.power.rstHeld = false ∧ s.inputOk = true ∧ s.power.seqDir = 0 :=
  ⟨0, 0, { offMod with power := { offMod.power with retryAt := some 0 } }, by decide +kernel⟩

theorem witness_PowerSequenceCommandsComplete_6 :
    ∃ (rail : Nat) (s : State), (s.rail rail).st = 3 :=
  ⟨2, railMod 3, by decide +kernel⟩

theorem witness_PowerSequenceCommandsComplete_7 :
    ∃ (item : Nat) (s : State), s.inRunDoze = true ∧ s.part.serving = true ∧ s.power.warnAt = none ∧ s.power.warnItem = some item :=
  ⟨2, warnMod (some 2) none, by decide +kernel⟩

theorem witness_PowerSequenceCommandsComplete_8 :
    ∃ (t : Nat) (a : Nat) (s : State), s.power.warnAt = some a ∧ a + s.power.holdEff * 1000000 ≤ t ∧ s.part.serving = true :=
  ⟨20000000, 0, warnMod none (some 0), by decide +kernel⟩

theorem witness_PowerSequenceCommandsComplete_9 :
    ∃ (t : Nat) (a : Nat) (s : State), s.power.restartAt = some a ∧ a ≤ t ∧ s.inputOk = true :=
  ⟨0, 0, { offMod with power := { offMod.power with restartAt := some 0 } }, by decide +kernel⟩

theorem witness_PowerSequenceCommandsComplete_10 :
    ∃ (s : State), (s.power.st = 2 ∨ s.power.st = 3) ∧ s.inputOk = false :=
  ⟨sleepMod false, .inl rfl, by decide +kernel⟩

theorem witness_LowPowerCommandsComplete_0 :
    ∃ (t : Nat) (s : State), s.inRun = true ∧ s.part.serving = true ∧ s.power.warnItem = none ∧ s.dozeTarget = true ∧ (s.at_ t).dozeMay = false :=
  ⟨0, dozeMod busyDie, by decide +kernel⟩

theorem witness_LowPowerCommandsComplete_1 :
    ∃ (t : Nat) (s : State), s.inRun = true ∧ s.part.serving = true ∧ s.power.warnItem = none ∧ s.dozeTarget = true ∧ (s.at_ t).dozeMay = true ∧
      s.power.idleSince + s.pwF 0 31 24 * 1000000 ≤ t :=
  ⟨10000000000000, dozeMod tDie, by decide +kernel⟩

theorem witness_LowPowerCommandsComplete_2 :
    ∃ (t : Nat) (s : State), s.power.st = 1 ∧ s.part.serving = true ∧ ((s.at_ t).dozeMay = false ∨ s.dozeTarget = false) :=
  ⟨0, { tMod tDie with power := { (tMod tDie).power with st := 1 } }, by decide +kernel, by decide +kernel, .inr (by decide +kernel)⟩

theorem witness_LowPowerCommandsComplete_3 :
    ∃ (t : Nat) (code : Nat) (s : State), s.trust.sleepHeld = false ∧ s.mayWake code = true ∧ (code = 0xA → (s.at_ t).sleepTimerDone = true) :=
  ⟨0, 4, sleepMod true, by decide +kernel⟩

theorem witness_LowPowerCommandsComplete_4 :
    ∃ (t : Nat) (s : State), s.power.st = 2 ∧ s.power.sleepAt + s.pwF 0xC 31 16 * 1000000000 ≤ t :=
  ⟨5000000000, put (sleepMod true) 0x15 0 0xC 0x00050003, by decide +kernel⟩

theorem witness_LowPowerCommandsComplete_5 :
    ∃ (t : Nat) (side : Side) (s : State), s.power.st = 2 ∧ (s.port side).listens = true ∧ (s.port side).listenAt + 100000000 ≤ t :=
  ⟨100000000, .up, listenMod, by decide +kernel⟩

theorem witness_LowPowerCommandsComplete_6 :
    ∃ (side : Side) (durationNs : Nat) (s : State), s.power.st = 2 ∧ (s.port side).listens = true ∧ 101000000 ≤ durationNs ∧ s.mayWake 2 = true :=
  ⟨.up, 101000000, listenMod, by decide +kernel⟩

theorem witness_LowPowerCommandsComplete_7 :
    ∃ (bits : List Bool) (s : State), isLongBeacon bits = true ∧ s.mayWake 3 = true :=
  ⟨(List.replicate 7 beaconPattern).flatten, sleepMod true, by decide +kernel⟩

theorem witness_ResetCommandsComplete_0 :
    ∃ (s : State), s.power.rstIgnored = false ∧ s.power.rstHeld = false :=
  ⟨tMod tDie, by decide +kernel⟩

theorem witness_ResetCommandsComplete_1 :
    ∃ (s : State), s.power.rstIgnored = false ∧ s.power.rstHeld = false ∧ s.warned = false ∧ s.part.serving = true :=
  ⟨tMod tDie, by decide +kernel⟩

theorem witness_ResetCommandsComplete_2 :
    ∃ (s : State), s.power.rstHeld = true :=
  ⟨heldMod, by decide +kernel⟩

theorem witness_ResetCommandsComplete_3 :
    ∃ (t : Nat) (s : State), s.power.rstHeld = true ∧ s.power.rstAt + 30000000000 ≤ t :=
  ⟨30000000000, heldMod, by decide +kernel⟩

theorem witness_ResetCommandsComplete_5 :
    ∃ (t : Nat) (k : Nat) (d : Die) (s : State), s.hasDie k d ∧ d.precOn = true ∧ d.lastWord + 60000000000 ≤ t ∧
      (s.cutOff k = true ∨ s.part.serving = false ∨ s.part.hubHeld = true) :=
  ⟨60000000000, 1, tDie, cutMod, by decide +kernel, by decide +kernel, by decide +kernel, .inl (by decide +kernel)⟩

theorem witness_ResetCommandsComplete_6 :
    ∃ (k : Nat) (d : Die) (s : State), s.hasDie k d ∧ d.precOn = false ∧ d.prot.aonOn = true ∧ d.hot = false ∧ s.hubTakes k = true ∧
      s.inRunDoze = true :=
  ⟨1, coldDie, tMod coldDie, by decide +kernel⟩

theorem witness_ResetCommandsComplete_7 :
    ∃ (t : Nat) (x : SelfTest) (s : State), s.selfTest[0]? = some x ∧ s.part.hubHeld = true ∧ x.retried = false ∧ s.bistFailed ≠ [] ∧
      x.lbistAt + 1000000000 ≤ t :=
  ⟨1000000000, failedTest, testMod, by decide +kernel⟩

theorem witness_ResetCommandsComplete_8 :
    ∃ (cq : Nat) (w : ComplWait) (s : State), s.hif.cqWait.find? (fun x => x.cq == cq) = some w ∧ s.hifServes = true ∧ (s.hif.cqOf cq).serves = true ∧
      (s.hif.cqOf cq).full = false :=
  ⟨0, tCompl, complHost, by decide +kernel⟩

/-! ### Well-formedness refuses -/

theorem test_wf_die_number : Instr.wf (.gateWindowOpen 0 8) = false := by decide
theorem test_wf_link_number : Instr.wf (.innerLinkBroken 0 8) = false := by decide
theorem test_wf_sample_counts : Instr.wf (.fastFrameHold 0 1 ⟨[], []⟩ 0 0) = false := by decide +kernel
theorem test_wf_port_number : Instr.wf (.searchAll 0 3) = false := by decide
theorem test_wf_short_frame : Instr.wf (.commandFrameReceive 0 [0, 0]) = false := by decide
theorem test_wf_word_value : Instr.wf (.kick 0 (2 ^ 32)) = false := by decide
theorem test_wf_queue_offset : Instr.wf (.queueEnable 0 2 0) = false := by decide
theorem test_wf_descriptor : Instr.wf (.ping 0 (tCmd 0x18 64 256 0 [])) = false := by decide
theorem test_wf_accepts : Instr.wf (.ping 0 (tCmd 0x18 3 0 0 [])) = true := by decide +kernel

/-! ### The worked examples of the manual

Each expected value stands in the worked example, or the rule, named. -/

/-- Gating on BX-12: a guard of 9 and sinc4 at 1,000 S/s give a window of 4.45 ms. -/
theorem test_gate_window : windowLen 9 2 true = 4450000 := by decide
/-- GATE_PERIOD_EFF then reads 0x03E8. -/
theorem test_gate_period : (put (tMod tDie) 1 1 0 0x03E80912).gatePeriodNs 1 = 0x3E8 * 1000000 := by decide +kernel
/-- R63: at 250 S/s with sinc4 and a guard of 400 us, 6 % of duty needs 274 ms. -/
theorem test_gate_period_slow : gatePeriodEff 100 8 0 true = 274 := by decide +kernel
/-- Cell 9's gated word is 0x0432_390E. -/
theorem test_gated_word :
    ({ invalid := false, sync := false, wire := false, calstale := false, balcomp := false, balgate := true, settle := false,
       ovr := false } : WordFlags).word 3291406 = 0x0432390E := by decide
/-- 4.1 mV across the shunt give CODE 410,000. -/
theorem test_shunt_code : shuntFmt.form (41 / 10000) .none = (410000, false) := by decide +kernel

/-- A carrier-locked capture: the frame of T_TRIG is held at the next whole microsecond. -/
theorem test_trigger_hold : trigHold 5000000437340 = 5000000438000 := by decide
/-- The window runs from the hold at 4,999,980,438,000 ns. -/
theorem test_first_hold : ({ tCap with pre := 20000 } : Capture).firstHold 5000000437340 = 4999980438000 := by decide
/-- Cell 9 reads code 0x8092, and channel 25 reads 0xE0C0. -/
theorem test_fast_codes : fastCell (32914 / 10000) = 0x8092 ∧ fastShunt (-2 / 100) = 0xE0C0 := by decide +kernel

/-- A point at 12.101 Hz takes bins 44 to 56 of band M. -/
theorem test_point_bins : pointBins 20 1 = (List.range 13).map (· + 44) := by decide +kernel

/-- R189: 4.7 kΩ is code 9. -/
theorem test_identity_class : idCode 4700 = 9 := by decide +kernel

/-- A night's learning: Q_meas 198.752 Ah, and 0.25 of the difference taken: 198.488 Ah. -/
theorem test_learned_capacity :
    let p1 : LearnPt := { sv := 1520 / 10000, uv := 103 / 100000, temp := 19, c := 0, t := 0, v := 0 }
    let p2 : LearnPt := { sv := 9530 / 10000, uv := 250 / 100000, temp := 27, c := 15920 / 100, t := 22440000000000, v := 0 }
    let x := (tMod tDie).judgePair 1 { CellSt.unlearned (1984 / 10) with pairOk := true } p1 p2
    x.2 = 1 ∧ rabs (x.1 - 198488 / 1000) ≤ 1 / 1000 := by decide +kernel
/-- A monitor with 3 mV of error gives uv 2.5 %: the pair is refused with LAST_LEARN 3. -/
theorem test_refused_pair :
    let p1 : LearnPt := { sv := 1520 / 10000, uv := 103 / 100000, temp := 19, c := 0, t := 0, v := 0 }
    let p2 : LearnPt := { sv := 9530 / 10000, uv := 25 / 1000, temp := 27, c := 15920 / 100, t := 22440000000000, v := 0 }
    ((tMod tDie).judgePair 1 { CellSt.unlearned (1984 / 10) with pairOk := true } p1 p2).2 = 3 := by decide +kernel

/-- An over-voltage on BX-12: from position 6 the DOWN path has four hops, to 7, 8, 9 and the gateway. -/
theorem test_down_path : pathHops 10 6 4 .down = [6, 7, 8, 9] := by decide
/-- CONN_BASE 0x001: position 6 sends with CONN_ID 0x0046. -/
theorem test_conn_id : (put (tMod tDie) 0x14 0 0x14 1).connId 6 = 0x46 := by decide +kernel

/-- The aisle hop of KL-4: LINK_CHMAP0 0x0000_024D gives hops 0 to 3 and the closing hop channels 2, 4, 1, 2 and 3. -/
theorem test_channel_map :
    (List.range 5).map (fun h => chmap (cellWrite [] (blockLo 0x12 0 + 0x10) (le 4 0x24D)) h + 1) = [2, 4, 1, 2, 3] := by decide +kernel

/-- Raw capture streams: a block record of 26,068 bytes takes 26,096 in a ring. -/
theorem test_ring_entry : entrySize 26068 = 26096 := by decide
/-- At the wrap the entry is written only once the host's head has passed 26,112 bytes. -/
theorem test_ring_wrap :
    let q : Nat → Queue := fun host => { Queue.initial with cfg := 23 * 2 ^ 27 + 1, ptr := 8376816, host := host }
    (q 26112).ringFits 26068 = true ∧ (q 26096).ringFits 26068 = false := by decide +kernel

/-- A retried check: "123456789" gives 0xE306_9283, and HOST_ALIVE goes from 0x2A to 0x2B. -/
theorem test_check_value : Poly.crc32c.check (ascii "123456789") = 0xE3069283 := by decide +kernel
/-- The same command again, with ALIVE 0x2A, feeds nothing. -/
theorem test_check_alive :
    let u : ChkUnit := { ChkUnit.initial with ok := true, hostAlive := 0x2B }
    let s : State := { tMod tDie with chk := List.replicate 5 u }
    let c := tCmd 0x0F 3 0 9 [3, 3, 1, 0x2A]
    ((s.computeCheck c (ascii "123456789") u).chk = s.chk) := by decide +kernel

/-- Key-off and power: 7.2 V or less ends VAUX, 7.7 V starts it. -/
theorem test_vaux_band : inputFalls 0 (72 / 10) = true ∧ inputRises 0 (76 / 10) = false := by decide +kernel

/-- A gateway on a hot roof: at 128.28 °C the channel cap of twelve falls to one. -/
theorem test_balance_cap :
    ((put (tMod tDie) 7 1 0x14 (12 * 2 ^ 17)).balCap 1 { tDie with prec := { tDie.prec with temp := 12828 } }).1 = 1 := by decide +kernel

/-- Billing one leg: 15 As out of a stack of 78.72 V are 15,000 mAs and 328.0 mWh. -/
theorem test_meter_block :
    let d : Die := { tDie with est := { tDie.est with vStack := some (7872 / 100) } }
    let m := ((tMod d).meterBlock 0 (-15)).trust.meter
    (m.getD 1 0 = 15000 ∧ rabs (m.getD 3 0 - 328) ≤ 1 / 1000) := by decide +kernel

/-- Bringing up BX-12: PART of a part with one cell die and a storage die is 0x0000_11B0. -/
theorem test_part_word : (tMod tDie).partWord = 0x11B0 := by decide +kernel

/-- Reset values of BAR0 by its register tables: HIF_ID, HIF_PART, HIF_CAPS, HIF_CTRL, CQ3_STAT and STR31_STAT; an offset
that the map does not name reads 0, and so does a 16-bit read. -/
theorem test_bar0_reset :
    [0, 4, 0x14, 0x20, 0x113C, 0x13FC, 0x50, 0x1400].map (fun off => State.reset.bar0Read off 4) =
      [0x44580001, 0x11B0, 0x40201010, 0x00640000, 2, 0x40000000, 0, 0] ∧ State.reset.bar0Read 0 2 = 0 := by decide +kernel
/-- A pending vector shows as its bit of the pending-bit array. -/
theorem test_pba :
    (State.reset.modHif fun h => { h with pendingVec := [1, 33] }).pbaWord 0x800 = 2 ∧
      (State.reset.modHif fun h => { h with pendingVec := [1, 33] }).pbaWord 0x804 = 2 := by decide +kernel

/-! ### Steps -/

/-- An empty queue: the block idles. -/
theorem test_idle : step State.reset = .next State.reset := rfl
/-- No row of the command table gives bits. -/
theorem test_no_words : decodeTableWord 32 0x12345678 = none := by decide
/-- A PING is answered with SUCCESS by the part that it names. -/
theorem test_ping_answers :
    (match step (queued (tMod tDie) (.ping 5 (tCmd 0x18 3 0 0 []))) with
     | .next s => s.pending.isEmpty && decide (s.now = 5)
     | _ => false) = true := by decide +kernel
/-- A command for another position changes nothing but time. -/
theorem test_ping_elsewhere : exec (.ping 5 (tCmd 0x18 4 0 0 [])) (tMod tDie) = .next { tMod tDie with now := 5 } := rfl

end Sys2Proof.Tests
end

section
/-! How a step takes its command off the queue, and what each of the 240 commands may do to the guarded part of the
state: one table over the commands, from which the statements about the queue and about the guarded part follow. -/

namespace Sys2Proof.Machine

/-! ### A step and the queue -/

/-- A step with a command in front executes it on the state with the queue's rest. -/
theorem step_cons {s : State} {c : Instr} {rest : List Instr} (h : s.pending = c :: rest) :
    step s = exec c (s.withPending rest) := by
  simp only [step, h]

/-- A step with an empty queue idles. -/
theorem step_nil {s : State} (h : s.pending = []) : step s = .next s := by
  simp only [step, h]

@[simp] theorem State.withPending_withPending (s : State) (p q : List Instr) : (s.withPending p).withPending q = s.withPending q := rfl

@[simp] theorem State.withPending_fixed (s : State) (q : List Instr) : (s.withPending q).fixed = { s.fixed with pending := q } := rfl

/-- The queue does not bear on whether the lifecycle is settled. -/
theorem State.withPending_settled {s : State} (q : List Instr) (h : s.fixed.settled) : (s.withPending q).fixed.settled := h

/-- CURRENT_BLOCK_SEND answers with and without a die that measures the pack current (R149). -/
theorem execCurrentBlockSend_answers_next (t : Nat) (s : State) : ∃ s', execCurrentBlockSend t s = .next s' := by
  unfold execCurrentBlockSend
  dsimp only
  split <;> exact ⟨_, rfl⟩

/-- Every row of the command table has a meaning in every state: no command faults, and none is refused. Every meaning but
that of CURRENT_BLOCK_SEND has its next state outermost. -/
theorem exec_answers_next (i : Instr) (s : State) : ∃ s', exec i s = .next s' := by
  cases i with
  | currentBlockSend t => exact execCurrentBlockSend_answers_next t s
  | _ => exact ⟨_, rfl⟩

/-! ### What a command may do to the guarded part -/

/-- The ways in which the commands touch the guarded part of the state. -/
inductive GuardClass where
  /-- The guarded part is left alone. -/
  | kept
  /-- The hub may start, and with it a transition of R433 or R434 that was cut off is resumed. -/
  | hubStart
  /-- An action of R431. -/
  | lifecycle
  /-- The fuse counts of the security version (R450). -/
  | fuses
  /-- The active set and its epoch (R356, R361). -/
  | activeSet

/-- The way in which a command touches the guarded part. -/
def guardClass : Instr → GuardClass
  | .lifeGenkey .. | .lifeSeal .. | .lifeUpdate .. | .lifeRelocate .. | .lifeReturn .. => .lifecycle
  | .svnCommit .. => .fuses
  | .configSwap .. | .balancePolicy .. | .holdTimeExpire .. => .activeSet
  | .railInRegulation .. | .hubBistRetry .. | .hubCooled .. => .hubStart
  | _ => .kept

/-- What a command of a class may do to the guarded part: `x` before it, `y` after it. -/
def GuardClass.allows (c : GuardClass) (x y : Fixed) : Prop :=
  match c with
  | .kept => y = x
  | .hubStart => y.core = x.core ∧ (x.settled → y = x)
  | .lifecycle => x.lifeStep y
  | .fuses => ∃ a b, x.svnSpan ≤ a ∧ x.svnApex ≤ b ∧ y = { x with svnSpan := a, svnApex := b }
  | .activeSet => ∃ a e, y = { x with active := a, epoch := e }

/-- What a command does to the guarded part is what its class allows: the laws of the 240 commands as one table. -/
theorem exec_guardClass_allows {i : Instr} {s s' : State} (h : exec i s = .next s') : (guardClass i).allows s.fixed s'.fixed := by
  cases i with
  | innerLinkBroken => exact execInnerLinkBroken_fixed h
  | innerLinkRestored => exact execInnerLinkRestored_fixed h
  | dieLost => exact execDieLost_fixed h
  | rolePadChange => exact execRolePadChange_fixed h
  | precisionSample => exact execPrecisionSample_fixed h
  | spareDwellStep => exact execSpareDwellStep_fixed h
  | warmExpire => exact execWarmExpire_fixed h
  | refMonitorSample => exact execRefMonitorSample_fixed h
  | refIntervalClose => exact execRefIntervalClose_fixed h
  | gateWindowOpen => exact execGateWindowOpen_fixed h
  | gateWindowClose => exact execGateWindowClose_fixed h
  | fastFrameHold => exact execFastFrameHold_fixed h
  | captureTimerTrigger => exact execCaptureTimerTrigger_fixed h
  | syncInEdge => exact execSyncInEdge_fixed h
  | carrierBeaconReceive => exact execCarrierBeaconReceive_fixed h
  | captureEdgeTimeout => exact execCaptureEdgeTimeout_fixed h
  | captureBlockDrain => exact execCaptureBlockDrain_fixed h
  | seqWord => exact execSeqWord_fixed h
  | seqEntryEnd => exact execSeqEntryEnd_fixed h
  | m30CalInsert => exact execM30CalInsert_fixed h
  | urgentWorkPreempt => exact execUrgentWorkPreempt_fixed h
  | urgentWorkEnd => exact execUrgentWorkEnd_fixed h
  | calRunClose => exact execCalRunClose_fixed h
  | calSolveComplete => exact execCalSolveComplete_fixed h
  | calExpiry => exact execCalExpiry_fixed h
  | currentBlockSend => exact execCurrentBlockSend_fixed h
  | currentBlockReceive => exact execCurrentBlockReceive_fixed h
  | currentBlockMissing => exact execCurrentBlockMissing_fixed h
  | impSegmentEnd => exact execImpSegmentEnd_fixed h
  | impAverageEnd => exact execImpAverageEnd_fixed h
  | injectionChip => exact execInjectionChip_fixed h
  | chargeBlockSend => exact execChargeBlockSend_fixed h
  | chargeBlockReceive => exact execChargeBlockReceive_fixed h
  | chargeBlockMissing => exact execChargeBlockMissing_fixed h
  | stateSecond => exact execStateSecond_fixed h
  | statePersist => exact execStatePersist_fixed h
  | comparatorTick => exact execComparatorTick_fixed h
  | aoncPowerUp => exact execAoncPowerUp_fixed h
  | aoncPowerDown => exact execAoncPowerDown_fixed h
  | faultNoticeReceive => exact execFaultNoticeReceive_fixed h
  | tdacReadback => exact execTdacReadback_fixed h
  | balStep => exact execBalStep_fixed h
  | balNeedCheck => exact execBalNeedCheck_fixed h
  | balOvercurrent => exact execBalOvercurrent_fixed h
  | balKeepalive => exact execBalKeepalive_fixed h
  | balTimeoutExpire => exact execBalTimeoutExpire_fixed h
  | owSweep => exact execOwSweep_fixed h
  | owCheckComplete => exact execOwCheckComplete_fixed h
  | owRecheck => exact execOwRecheck_fixed h
  | shuntInputBreak => exact execShuntInputBreak_fixed h
  | searchAll => exact execSearchAll_fixed h
  | searchNewPeriodic => exact execSearchNewPeriodic_fixed h
  | swpSearchComplete => exact execSwpSearchComplete_fixed h
  | swpStreamCycle => exact execSwpStreamCycle_fixed h
  | swpSlotRead => exact execSwpSlotRead_fixed h
  | swpCycleEnd => exact execSwpCycleEnd_fixed h
  | swpLineShort => exact execSwpLineShort_fixed h
  | swpShortRetry => exact execSwpShortRetry_fixed h
  | codewordBoundary => exact execCodewordBoundary_fixed h
  | codewordReceive => exact execCodewordReceive_fixed h
  | controlCodewordReceive => exact execControlCodewordReceive_fixed h
  | tc0AckTimeout => exact execTc0AckTimeout_fixed h
  | frameRetryTimeout => exact execFrameRetryTimeout_fixed h
  | hopSilenceTimeout => exact execHopSilenceTimeout_fixed h
  | hopMarginTimeout => exact execHopMarginTimeout_fixed h
  | hopTrainingRetry => exact execHopTrainingRetry_fixed h
  | hopTrainingComplete => exact execHopTrainingComplete_fixed h
  | hopRouteRestore => exact execHopRouteRestore_fixed h
  | apcAdjust => exact execApcAdjust_fixed h
  | hopKeyingMessage => exact execHopKeyingMessage_fixed h
  | hopRekey => exact execHopRekey_fixed h
  | frameForward => exact execFrameForward_fixed h
  | mseqGapRelease => exact execMseqGapRelease_fixed h
  | linkStateNoticeReceive => exact execLinkStateNoticeReceive_fixed h
  | commandFrameReceive => exact execCommandFrameReceive_fixed h
  | completionFrameReceive => exact execCompletionFrameReceive_fixed h
  | eventFrameReceive => exact execEventFrameReceive_fixed h
  | recordFrameReceive => exact execRecordFrameReceive_fixed h
  | firmwareFrameReceive => exact execFirmwareFrameReceive_fixed h
  | enumStartReceive => exact execEnumStartReceive_fixed h
  | discoverSend => exact execDiscoverSend_fixed h
  | discoverReceive => exact execDiscoverReceive_fixed h
  | enumWaitExpire => exact execEnumWaitExpire_fixed h
  | timeBeaconSend => exact execTimeBeaconSend_fixed h
  | timeBeaconReceive => exact execTimeBeaconReceive_fixed h
  | tqHoldover => exact execTqHoldover_fixed h
  | packTimeCommit => exact execPackTimeCommit_fixed h
  | heartbeatSend => exact execHeartbeatSend_fixed h
  | sleepListenWindow => exact execSleepListenWindow_fixed h
  | wakeRunReceive => exact execWakeRunReceive_fixed h
  | longBeaconDetect => exact execLongBeaconDetect_fixed h
  | innerTimeWord => exact execInnerTimeWord_fixed h
  | innerTimeWordTimeout => exact execInnerTimeWordTimeout_fixed h
  | recordArrive => exact execRecordArrive_fixed h
  | unitProgramComplete => exact execUnitProgramComplete_fixed h
  | d2UnitClose => exact execD2UnitClose_fixed h
  | bucketAccrue => exact execBucketAccrue_fixed h
  | storageTempSample => exact execStorageTempSample_fixed h
  | blockRefresh => exact execBlockRefresh_fixed h
  | storageDieFail => exact execStorageDieFail_fixed h
  | spillHolderRechoose => exact execSpillHolderRechoose_fixed h
  | recordRetentionExpire => exact execRecordRetentionExpire_fixed h
  | locusEvaluate => exact execLocusEvaluate_fixed h
  | taskMove => exact execTaskMove_fixed h
  | dieRecordResend => exact execDieRecordResend_fixed h
  | hifReset => exact execHifReset_fixed h
  | hifEnable => exact execHifEnable_fixed h
  | hifShutdown => exact execHifShutdown_fixed h
  | queueEnable => exact execQueueEnable_fixed h
  | queueDisable => exact execQueueDisable_fixed h
  | registerWrite => exact execRegisterWrite_fixed h
  | kick _ value => exact execKick_fixed (_value := value) h
  | doorbellPoll => exact execDoorbellPoll_fixed h
  | doorbellReadComplete => exact execDoorbellReadComplete_fixed h
  | descriptorFetch => exact execDescriptorFetch_fixed h
  | commandTimeout => exact execCommandTimeout_fixed h
  | completionWrite => exact execCompletionWrite_fixed h
  | streamEntryWrite => exact execStreamEntryWrite_fixed h
  | eventEntryWrite => exact execEventEntryWrite_fixed h
  | interruptCoalesceExpire => exact execInterruptCoalesceExpire_fixed h
  | msixUnmask => exact execMsixUnmask_fixed h
  | eventDelayReport => exact execEventDelayReport_fixed h
  | identify => exact execIdentify_fixed h
  | enumerate => exact execEnumerate_fixed h
  | configRead => exact execConfigRead_fixed h
  | shadowWrite => exact execShadowWrite_fixed h
  | commit => exact execCommit_fixed h
  | commitCheck => exact execCommitCheck_fixed h
  | commitRevert => exact execCommitRevert_fixed h
  | commitCancel => exact execCommitCancel_fixed h
  | configSwap => exact execConfigSwap_fixed h
  | shadowCopyComplete => exact execShadowCopyComplete_fixed h
  | groupCommitDecide => exact execGroupCommitDecide_fixed h
  | groupGoReceive => exact execGroupGoReceive_fixed h
  | groupAbortReceive => exact execGroupAbortReceive_fixed h
  | groupGoDeadline => exact execGroupGoDeadline_fixed h
  | streamOpen => exact execStreamOpen_fixed h
  | streamClose => exact execStreamClose_fixed h
  | recordRead => exact execRecordRead_fixed h
  | captureArm => exact execCaptureArm_fixed h
  | captureDisarm => exact execCaptureDisarm_fixed h
  | captureFetch => exact execCaptureFetch_fixed h
  | storeRead => exact execStoreRead_fixed h
  | balancePolicy =>
    obtain ⟨a, ha⟩ := execBalancePolicy_fixed h
    exact ⟨a, s.fixed.epoch, ha⟩
  | powerStateRun => exact execPowerStateRun_fixed h
  | powerStateDoze => exact execPowerStateDoze_fixed h
  | powerStateSleep => exact execPowerStateSleep_fixed h
  | powerStateShip => exact execPowerStateShip_fixed h
  | selftestRunAll => exact execSelftestRunAll_fixed h
  | selftestRunBlock => exact execSelftestRunBlock_fixed h
  | calEarlyEnd => exact execCalEarlyEnd_fixed h
  | calReset => exact execCalReset_fixed h
  | checkCompute => exact execCheckCompute_fixed h
  | meterStatement => exact execMeterStatement_fixed h
  | trustChallenge => exact execTrustChallenge_fixed h
  | firmwareStage => exact execFirmwareStage_fixed h
  | firmwareVerify => exact execFirmwareVerify_fixed h
  | firmwareActivate => exact execFirmwareActivate_fixed h
  | firmwareReturnPrevious => exact execFirmwareReturnPrevious_fixed h
  | spanReady => exact execSpanReady_fixed h
  | spanReadyTimeout => exact execSpanReadyTimeout_fixed h
  | spanStop => exact execSpanStop_fixed h
  | svnCommit => exact execSvnCommit_fixed h
  | sensorSearch => exact execSensorSearch_fixed h
  | blackboxRead => exact execBlackboxRead_fixed h
  | lockoutRelease => exact execLockoutRelease_fixed h
  | lifeGenkey => exact execLifeGenkey_fixed h
  | lifeSeal => exact execLifeSeal_fixed h
  | lifeUpdate => exact execLifeUpdate_fixed h
  | lifeRelocate => exact execLifeRelocate_fixed h
  | lifeReturn => exact execLifeReturn_fixed h
  | ping => exact execPing_fixed h
  | safetyTick => exact execSafetyTick_fixed h
  | safetyInputSample => exact execSafetyInputSample_fixed h
  | testPulseStart => exact execTestPulseStart_fixed h
  | discrepancyLatch => exact execDiscrepancyLatch_fixed h
  | safetyFrameReceive => exact execSafetyFrameReceive_fixed h
  | safetyMboxService => exact execSafetyMboxService_fixed h
  | hostWatchdogExpire => exact execHostWatchdogExpire_fixed h
  | watchdogExpire => exact execWatchdogExpire_fixed h
  | outputOvercurrent => exact execOutputOvercurrent_fixed h
  | outputOpenLoad => exact execOutputOpenLoad_fixed h
  | outputEconomyStart => exact execOutputEconomyStart_fixed h
  | feedbackTimeout => exact execFeedbackTimeout_fixed h
  | lorstReleaseEdge => exact execLorstReleaseEdge_fixed h
  | lorstHeld => exact execLorstHeld_fixed h
  | inputValid => exact execInputValid_fixed h
  | inputInvalid => exact execInputInvalid_fixed h
  | railFault => exact execRailFault_fixed h
  | railRetry => exact execRailRetry_fixed h
  | railCounterCopy => exact execRailCounterCopy_fixed h
  | holdCharged => exact execHoldCharged_fixed h
  | holdLow => exact execHoldLow_fixed h
  | holdChargeTimeout => exact execHoldChargeTimeout_fixed h
  | powerUpSequence => exact execPowerUpSequence_fixed h
  | railInRegulation => exact ⟨execRailInRegulation_core h, fun hs => execRailInRegulation_fixed hs h⟩
  | railRampTimeout => exact execRailRampTimeout_fixed h
  | powerUpRetry => exact execPowerUpRetry_fixed h
  | railDischarged => exact execRailDischarged_fixed h
  | powerFailWarning => exact execPowerFailWarning_fixed h
  | holdTimeExpire => exact execHoldTimeExpire_fixed h
  | shutdownRestart => exact execShutdownRestart_fixed h
  | dozeEnter => exact execDozeEnter_fixed h
  | dozeExit => exact execDozeExit_fixed h
  | wakeSource => exact execWakeSource_fixed h
  | sleepTimerExpire => exact execSleepTimerExpire_fixed h
  | aonSupplyLoss => exact execAonSupplyLoss_fixed h
  | rstNAssert => exact execRstNAssert_fixed h
  | rstNRelease => exact execRstNRelease_fixed h
  | rstNStuck => exact execRstNStuck_fixed h
  | rstIgnoredClear => exact execRstIgnoredClear_fixed h
  | dieIsolationTimeout => exact execDieIsolationTimeout_fixed h
  | precPowerUp => exact execPrecPowerUp_fixed h
  | firewallViolation => exact execFirewallViolation_fixed h
  | meterCommit => exact execMeterCommit_fixed h
  | meterSnapshot => exact execMeterSnapshot_fixed h
  | historyPeriod => exact execHistoryPeriod_fixed h
  | blackboxRecordWrite => exact execBlackboxRecordWrite_fixed h
  | debugObserveOpen => exact execDebugObserveOpen_fixed h
  | debugFullOpen => exact execDebugFullOpen_fixed h
  | debugClose => exact execDebugClose_fixed h
  | sliceStart => exact execSliceStart_fixed h
  | sliceEnd => exact execSliceEnd_fixed h
  | selftestOverdue => exact execSelftestOverdue_fixed h
  | hubBistRetry => exact ⟨execHubBistRetry_core h, fun hs => execHubBistRetry_fixed hs h⟩
  | chkOpen => exact execChkOpen_fixed h
  | chkDataWrite => exact execChkDataWrite_fixed h
  | chkClose => exact execChkClose_fixed h
  | thermalSample => exact execThermalSample_fixed h
  | thermalStepDown => exact execThermalStepDown_fixed h
  | dieOverheat => exact execDieOverheat_fixed h
  | dieCooled => exact execDieCooled_fixed h
  | hubOverheat => exact execHubOverheat_fixed h
  | hubCooled => exact ⟨execHubCooled_core h, fun hs => execHubCooled_fixed hs h⟩
  | faultNoticeFrameReceive => exact execFaultNoticeFrameReceive_fixed h
  | gatewayHeartbeatReceive => exact execGatewayHeartbeatReceive_fixed h
  | gwOkTimeout => exact execGwOkTimeout_fixed h
  | enumFrameReceive => exact execEnumFrameReceive_fixed h
  | balanceRecordInterval => exact execBalanceRecordInterval_fixed h
  | hostReadTimeout => exact execHostReadTimeout_fixed h

/-- An action of R431 does not touch the queue. -/
theorem Fixed.lifeStep_pending {x y : Fixed} (h : x.lifeStep y) : y.pending = x.pending := by
  obtain rfl | ⟨_, ⟨_, rfl⟩ | ⟨_, _, _, rfl⟩ | ⟨_, rfl⟩ | rfl | ⟨_, rfl⟩⟩ := h <;> rfl

/-- No class of commands touches the queue. -/
theorem GuardClass.allows_pending {c : GuardClass} {x y : Fixed} (h : c.allows x y) : y.pending = x.pending := by
  cases c with
  | kept => exact congrArg Fixed.pending h
  | hubStart =>
    obtain ⟨hcore, _⟩ := h
    have hq : y.core.pending = x.core.pending := congrArg Fixed.pending hcore
    exact hq
  | lifecycle => exact Fixed.lifeStep_pending h
  | fuses =>
    obtain ⟨_, _, _, _, rfl⟩ := h
    rfl
  | activeSet =>
    obtain ⟨_, _, rfl⟩ := h
    rfl

/-- A command leaves the queue that it finds. -/
theorem exec_pending {i : Instr} {s s' : State} (h : exec i s = .next s') : s'.pending = s.pending :=
  GuardClass.allows_pending (exec_guardClass_allows h)

/-- Only the named commands are of a class that may change the guarded part of a settled state. -/
theorem guardClass_of_unnamed {c : Instr}
    (hlife : ∀ t d data, c ≠ .lifeGenkey t d data ∧ c ≠ .lifeSeal t d data ∧ c ≠ .lifeUpdate t d data ∧
      c ≠ .lifeRelocate t d data ∧ c ≠ .lifeReturn t d data)
    (hsvn : ∀ t image, c ≠ .svnCommit t image) (hswap : ∀ t, c ≠ .configSwap t) (hbal : ∀ t d, c ≠ .balancePolicy t d)
    (hhold : ∀ t, c ≠ .holdTimeExpire t) : guardClass c = .kept ∨ guardClass c = .hubStart := by
  unfold guardClass
  split
  case h_1 t d data => exact absurd rfl (hlife t d data).1
  case h_2 t d data => exact absurd rfl (hlife t d data).2.1
  case h_3 t d data => exact absurd rfl (hlife t d data).2.2.1
  case h_4 t d data => exact absurd rfl (hlife t d data).2.2.2.1
  case h_5 t d data => exact absurd rfl (hlife t d data).2.2.2.2
  case h_6 t image => exact absurd rfl (hsvn t image)
  case h_7 t => exact absurd rfl (hswap t)
  case h_8 t d => exact absurd rfl (hbal t d)
  case h_9 t => exact absurd rfl (hhold t)
  case h_10 | h_11 | h_12 => exact .inr rfl
  case h_13 => exact .inl rfl

/-- A command of the other classes leaves the guarded part of a settled state alone. -/
theorem exec_fixed_of_settled {i : Instr} {s s' : State} (hi : guardClass i = .kept ∨ guardClass i = .hubStart)
    (hs : s.fixed.settled) (h : exec i s = .next s') : s'.fixed = s.fixed := by
  have ha := exec_guardClass_allows h
  obtain hi | hi := hi <;> rw [hi] at ha
  · exact ha
  · exact ha.2 hs

/-- Settles O1: with a command in front the step puts the rest in place of the whole queue, which forgets the front. -/
theorem stepTakesFrontCommand : Obligations.StepTakesFrontCommand := by
  refine ⟨fun c rest s => ?_, fun _ => step_nil⟩
  rw [step_cons (State.withPending_pending s (c :: rest)), State.withPending_withPending]

/-- Settles O2: every command answers a next state, and its class leaves the queue alone. -/
theorem stepConsumesExactlyOneCommand : Obligations.StepConsumesExactlyOneCommand := by
  refine ⟨fun i s => ?_, fun s c rest hq => ?_⟩
  · obtain ⟨s', h⟩ := exec_answers_next i s
    exact ⟨s', h, exec_pending h⟩
  · obtain ⟨s', h⟩ := exec_answers_next c (s.withPending rest)
    exact ⟨s', (step_cons hq).trans h, exec_pending h⟩

/-- Settles O5: the hub's start resumes nothing in a settled state, and every other command that is not named leaves the
guarded part alone. -/
theorem onlyNamedCommandsChangeTheGuardedState : Obligations.OnlyNamedCommandsChangeTheGuardedState := by
  intro s c rest hs hq hlife hsvn hswap hbal hhold
  obtain ⟨s', h⟩ := exec_answers_next c (s.withPending rest)
  have hc := guardClass_of_unnamed hlife hsvn hswap hbal hhold
  have hf := exec_fixed_of_settled hc (State.withPending_settled rest hs) h
  exact ⟨s', (step_cons hq).trans h, hf.trans (State.withPending_fixed s rest)⟩

end Sys2Proof.Machine
end

section
/-! What a die that stops or starts leaves as it was: the part but for its event number, the power block, and which domains
of the dies are on. -/

namespace Sys2Proof.Machine

/-- Which domains of a die are on, and whether it only protects (R404, R405, R468). -/
def Die.switches (d : Die) : Bool × Bool × Bool := (d.precOn, d.dspOn, d.prot.protOnly)

/-- What work on the fast path, the slices, the runs and the events of the dies leaves alone. -/
structure Steady where
  part : PartState
  power : PowerState
  dies : List (Bool × Bool × Bool)

/-- That part of a state. -/
def State.steady (s : State) : Steady := { part := s.part.still, power := s.power, dies := s.dies.map Die.switches }

/-! ### What two states share whose steady parts agree -/

theorem State.steady_of_kept {s u : State} (h : s.kept = u.kept) : s.steady = u.steady :=
  congrArg (fun x : Kept => Steady.mk x.part x.power (x.dies.map Die.switches)) h

theorem State.steady_links {s u : State} (h : s.steady = u.steady) : s.part.links = u.part.links := congrArg (·.part.links) h

theorem State.steady_fitted {s u : State} (h : s.steady = u.steady) (k : Nat) : s.fitted k = u.fitted k :=
  congrArg (fun x : Steady => decide (1 ≤ k) && decide (k ≤ x.part.cellDies)) h

/-- The switches of a die are among what the steady part of a state holds. -/
theorem State.die?_switches (s : State) (k : Nat) : (s.die? k).map Die.switches = if k = 0 then none else s.steady.dies[k - 1]? := by
  unfold State.die?
  split
  · rfl
  · exact List.getElem?_map.symm

theorem State.steady_shows {s u : State} {k : Nat} {v : Bool × Bool × Bool} (h : s.steady = u.steady) (hu : u.dieShows k Die.switches v) :
    s.dieShows k Die.switches v := by
  unfold State.dieShows at *
  rw [State.die?_switches, h, ← State.die?_switches, hu]

/-- A die that was there still is. -/
theorem State.steady_die? {s u : State} {k : Nat} {d : Die} (h : s.steady = u.steady) (hd : u.die? k = some d) : ∃ e, s.die? k = some e := by
  have hs : s.dieShows k Die.switches d.switches := State.steady_shows h (congrArg (Option.map Die.switches) hd)
  obtain ⟨e, he, _⟩ := Option.map_eq_some_iff.1 hs
  exact ⟨e, he⟩

/-! ### Branches, loops and dies -/

theorem steady_ite {c : Prop} {_ : Decidable c} {a b : State} {x : Steady} (ha : a.steady = x) (hb : b.steady = x) :
    (if c then a else b).steady = x := by split <;> assumption

theorem foldl_steady {α : Type} {f : State → α → State} (h : ∀ s a, (f s a).steady = s.steady) (l : List α) (s : State) :
    (l.foldl f s).steady = s.steady := by
  induction l generalizing s with
  | nil => rfl
  | cons a l ih => exact (ih _).trans (h _ _)

theorem onDie_steady {s : State} {k : Nat} {f : Die → State} {x : Steady} (h : ∀ d, (f d).steady = x) (hs : s.steady = x) :
    (s.onDie k f).steady = x := by
  unfold State.onDie
  split
  · split
    · exact h _
    · exact hs
  · exact hs

theorem modNth_map_eq {α β : Type} {f : α → α} {g : α → β} (h : ∀ a, g (f a) = g a) (i : Nat) (l : List α) : (modNth f i l).map g = l.map g := by
  induction l generalizing i with
  | nil => cases i <;> rfl
  | cons a l ih =>
    cases i with
    | zero => exact congrArg (· :: l.map g) (h a)
    | succ i => exact congrArg (g a :: ·) (ih i)

/-- A change of a die that turns no domain on or off. -/
theorem State.modDie_steady (s : State) (k : Nat) {f : Die → Die} (h : ∀ d, (f d).switches = d.switches) : (s.modDie k f).steady = s.steady := by
  unfold State.modDie
  refine steady_ite rfl ?_
  exact congrArg (Steady.mk s.part.still s.power) (modNth_map_eq h (k - 1) s.dies)

theorem steady_modDie {s u : State} {k : Nat} {f : Die → Die} (hu : u.steady = s.steady) (hf : ∀ d, (f d).switches = d.switches) :
    (u.modDie k f).steady = s.steady := (State.modDie_steady u k hf).trans hu

theorem State.modDies_steady (s : State) {f : Nat → Die → Die} (h : ∀ k d, (f k d).switches = d.switches) : (s.modDies f).steady = s.steady :=
  foldl_steady (fun s k => State.modDie_steady s k (h k)) s.islands s

/-! ### Events, records and channels of a die -/

theorem State.event_steady (s : State) (e : Ev) : (s.event e).steady = s.steady := State.steady_of_kept (State.event_kept s e)

theorem State.dieEvent_steady (s : State) (k : Nat) (e : Ev) : (s.dieEvent k e).steady = s.steady := by
  unfold State.dieEvent State.dieEventAt State.dieEventFull
  refine steady_ite (State.steady_of_kept (State.eventAt_kept ..)) (State.modDie_steady _ _ fun d => ?_)
  split <;> rfl

theorem State.dieRecord_steady (s : State) (k recType time : Nat) (bytes : List Byte) : (s.dieRecord k recType time bytes).steady = s.steady := by
  refine State.modDie_steady _ _ fun d => ?_
  split <;> rfl

theorem State.settleChannels_steady (s : State) (k : Nat) : (s.settleChannels k).steady = s.steady := State.modDie_steady _ _ fun _ => rfl

/-! ### The fast path (R98, R404) -/

theorem State.flushStream_steady (s : State) (k : Nat) (last abort : Bool) : (s.flushStream k last abort).steady = s.steady :=
  onDie_steady (fun _ => steady_ite rfl ((State.dieRecord_steady ..).trans (State.modDie_steady _ _ fun _ => rfl))) rfl

theorem State.unarm_steady (s : State) (c : Capture) : (s.unarm c).steady = s.steady :=
  steady_ite (State.steady_of_kept (State.tellArmed_kept ..)) rfl

theorem State.abortCapture_steady (s : State) (k : Nat) (arm : Bool) : (s.abortCapture k arm).steady = s.steady := by
  refine onDie_steady (fun d => ?_) rfl
  split
  · rfl
  · refine (State.steady_of_kept (State.completeOpt_kept ..)).trans ((State.unarm_steady ..).trans ((State.dieEvent_steady ..).trans ?_))
    exact State.modDie_steady _ _ fun _ => rfl

theorem State.stopInjection_steady (s : State) (k : Nat) : (s.stopInjection k).steady = s.steady :=
  (State.settleChannels_steady ..).trans (State.modDie_steady _ _ fun _ => rfl)

theorem State.stopFast_steady (s : State) (k : Nat) : (s.stopFast k).steady = s.steady :=
  calc (s.stopFast k).steady
    _ = _ := State.stopInjection_steady ..
    _ = _ := State.modDie_steady _ _ fun _ => rfl
    _ = _ := State.flushStream_steady ..
    _ = s.steady := State.abortCapture_steady ..

theorem State.fastOff_steady (s : State) (k : Nat) : (s.fastOff k).steady = s.steady :=
  onDie_steady (fun _ => steady_ite (steady_modDie (State.stopFast_steady s k) fun _ => rfl) rfl) rfl

theorem State.fastUp_steady (s : State) (k : Nat) : (s.fastUp k).steady = s.steady :=
  onDie_steady (fun _ => steady_ite rfl (State.modDie_steady _ _ fun _ => rfl)) rfl

theorem State.fastDomain_steady (s : State) (k : Nat) : (s.fastDomain k).steady = s.steady :=
  onDie_steady (fun _ => steady_ite (State.fastUp_steady s k) (State.fastOff_steady s k)) rfl

theorem State.closeFastStream_steady (s : State) (k id : Nat) : (s.closeFastStream k id).steady = s.steady :=
  onDie_steady (fun _ => steady_modDie (steady_ite (State.flushStream_steady ..) rfl) fun _ => rfl) rfl

theorem State.closeFastStreams_steady (s : State) (k : Nat) : (s.closeFastStreams k).steady = s.steady :=
  onDie_steady (fun _ => (foldl_steady (fun s id => State.closeFastStream_steady s k id) _ _).trans rfl) rfl

/-! ### The heartbeat and the outputs (R205, R365) -/

theorem State.sendSafety_steady (s : State) (msg : Nat) (f : FaultInfo) : (s.sendSafety msg f).steady = s.steady :=
  steady_ite ((State.steady_of_kept (State.originate_kept ..)).trans rfl) rfl

theorem State.heartResume_steady (s : State) : (s.heartResume).steady = s.steady := by
  have beat : ∀ u : State, u.steady = s.steady → (if s.safe.heartRan then u.event { source := 5, subkind := 2 } else u).steady = s.steady :=
    fun u hu => steady_ite ((State.event_steady ..).trans hu) hu
  exact steady_ite rfl (steady_ite ((State.sendSafety_steady ..).trans (beat _ rfl)) (beat _ rfl))

theorem State.setOut_steady (s : State) (k : Nat) (on : Bool) : (s.setOut k on).steady = s.steady := steady_ite rfl rfl

theorem State.evalOuts_steady (s : State) : s.evalOuts.steady = s.steady :=
  foldl_steady (fun s k => steady_ite (steady_ite rfl (State.setOut_steady s k false)) (steady_ite (State.setOut_steady s k true) rfl)) _ s

theorem State.cancelPend_steady (s : State) : s.cancelPend.steady = s.steady := by
  unfold State.cancelPend
  split
  · rfl
  · exact (State.evalOuts_steady _).trans ((State.steady_of_kept (State.complete_kept ..)).trans rfl)

/-! ### The sequencer, slices and calibration runs (R105, R132, R462) -/

theorem State.startFrom_steady (s : State) (k i t : Nat) : (s.startFrom k i t).steady = s.steady := by
  unfold State.startFrom
  split
  · exact State.modDie_steady _ _ fun _ => rfl
  · refine State.modDie_steady _ _ fun d => ?_
    split <;> rfl

theorem State.seqRestart_steady (s : State) (k t : Nat) (keep : Bool) : (s.seqRestart k t keep).steady = s.steady := by
  refine onDie_steady (fun d => steady_ite ?_ ?_) (steady_modDie rfl fun _ => rfl)
  · exact steady_modDie ((State.startFrom_steady ..).trans (steady_modDie rfl fun _ => rfl)) fun _ => rfl
  · exact steady_modDie (steady_modDie rfl fun _ => rfl) fun _ => rfl

theorem State.releaseSlice_steady (s : State) (k block : Nat) : (s.releaseSlice k block).steady = s.steady := by
  refine steady_ite ?_ (steady_ite (State.modDie_steady _ _ fun _ => rfl) (steady_ite (State.modDie_steady _ _ fun _ => rfl) rfl))
  refine onDie_steady (fun d => steady_ite ((State.startFrom_steady ..).trans ?_) ?_) ?_
  all_goals exact steady_modDie rfl fun _ => rfl

theorem State.abortSlice_steady (s : State) (k : Nat) : (s.abortSlice k).steady = s.steady := by
  unfold State.abortSlice
  split
  · rfl
  · exact (State.releaseSlice_steady ..).trans rfl

theorem State.discardRun_steady (s : State) (k t : Nat) (keep : Bool) : (s.discardRun k t keep).steady = s.steady := by
  refine onDie_steady (fun d => steady_modDie ?_ fun _ => rfl) rfl
  split
  · exact State.dieRecord_steady ..
  · rfl

/-! ### What a start of a die reads back (R122, R134, R188) -/

theorem State.readFactory_steady (s : State) (k copies : Nat) : (s.readFactory k copies).steady = s.steady := by
  refine onDie_steady (fun d => steady_ite ?_ (steady_ite ?_ ?_)) rfl
  · exact steady_modDie rfl fun _ => rfl
  · exact (State.dieEvent_steady ..).trans (steady_modDie rfl fun _ => rfl)
  · exact (State.dieEvent_steady ..).trans (steady_modDie (steady_modDie rfl fun _ => rfl) fun _ => rfl)

theorem State.loadCal_steady (s : State) (k : Nat) : (s.loadCal k).steady = s.steady := by
  refine onDie_steady (fun d => steady_ite ((State.dieEvent_steady ..).trans ?_) ?_) rfl
  · exact State.modDie_steady _ _ fun _ => rfl
  · exact State.modDie_steady _ _ fun _ => rfl

theorem State.loadState_steady (s : State) (k : Nat) : (s.loadState k).steady = s.steady := by
  refine onDie_steady (fun d => ?_) rfl
  split
  · have fresh : (s.resetGroup k).steady = s.steady := State.modDie_steady _ _ fun _ => rfl
    exact steady_ite fresh ((State.dieEvent_steady ..).trans fresh)
  · exact steady_ite (State.modDie_steady _ _ fun _ => rfl) ((State.dieEvent_steady ..).trans (State.modDie_steady _ _ fun _ => rfl))

theorem State.policyTaken_steady (s : State) (k : Nat) : (s.policyTaken k).steady = s.steady :=
  (foldl_steady (fun _ _ => State.steady_of_kept (State.complete_kept ..)) _ _).trans rfl

theorem State.startService_steady (s : State) (k : Nat) : (s.startService k).steady = s.steady := by
  refine State.modDie_steady _ _ fun d => ?_
  split <;> rfl

theorem State.takeBlock_steady (s : State) (block target : Nat) : (s.takeBlock block target).steady = s.steady := rfl

theorem State.takeRange_steady (s : State) (block target lo hi : Nat) : (s.takeRange block target lo hi).steady = s.steady := rfl

theorem State.precStart_steady (s : State) (k : Nat) : (s.precStart k).steady = s.steady := by
  unfold State.precStart
  refine (State.startService_steady ..).trans (steady_modDie ?_ fun _ => rfl)
  rw [State.policyTaken_steady, State.takeRange_steady, State.takeBlock_steady, State.takeBlock_steady, State.takeBlock_steady,
    State.takeBlock_steady]
theorem State.reportMemory_steady (s : State) (k block : Nat) (b : Bist) : (s.reportMemory k block b).steady = s.steady :=
  steady_ite rfl ((State.event_steady ..).trans (steady_ite rfl rfl))

theorem State.testFailed_steady (s : State) (k block : Nat) : (s.testFailed k block).steady = s.steady :=
  steady_ite (State.event_steady ..) (State.dieEvent_steady ..)

end Sys2Proof.Machine
end

section
/-! The inner ring and the ROLE pad (R15 to R21, R405). -/

namespace Sys2Proof.Machine

/-- A command that answers a next state with a property runs. -/
theorem Runs.of {i : Instr} {s s' : State} {P : State → Prop} (h : exec i s = .next s') (hp : P s') : Runs i s P := ⟨s', h, hp⟩

/-- An inner link set whole or broken (R15). -/
def State.setLink (s : State) (i : Nat) (whole : Bool) : State := { s with part := { s.part with links := setNth i whole s.part.links } }

theorem State.breakLink_links {s : State} {i : Nat} (h : s.part.links.getD i false = true) :
    (s.breakLink i).part.links = setNth i false s.part.links := by
  unfold State.breakLink
  rw [if_neg (by rw [h]; decide)]
  refine State.steady_links (u := s.setLink i false) ((foldl_steady (fun s k => steady_ite ?_ rfl) _ _).trans (State.event_steady _ _))
  exact (State.closeFastStreams_steady ..).trans (State.fastOff_steady s k)

theorem State.mendLink_links {s : State} {i : Nat} (h : s.part.links.getD i true = false) :
    (s.mendLink i).part.links = setNth i true s.part.links := by
  unfold State.mendLink
  rw [if_neg (by rw [h]; decide)]
  refine State.steady_links (u := s.setLink i true) ((State.heartResume_steady _).trans ((foldl_steady (fun s k => ?_) _ _).trans (State.event_steady _ _)))
  refine (State.fastDomain_steady ..).trans (onDie_steady (fun d => steady_ite ?_ rfl) rfl)
  exact (State.event_steady ..).trans (steady_modDie rfl fun _ => rfl)

theorem State.calm_dies {s u : State} (h : s.calm = u.calm) : s.dies = u.dies := congrArg (·.1) h

theorem State.heartStop_heartbeat (s : State) : s.heartStop.safe.heartbeat = false := by
  unfold State.heartStop
  dsimp only
  split
  · rw [State.event_safe]; rfl
  · next h => exact Bool.eq_false_iff.2 h

/-- A heartbeat that stands still does not start with a lock-out. -/
theorem State.latch_heartbeat {s : State} (cause : Nat) (h : s.safe.heartbeat = false) : (s.latch cause).safe.heartbeat = false := by
  unfold State.latch
  split
  · exact h
  · split
    · split <;> exact h
    · rw [State.event_safe]
      exact State.heartStop_heartbeat _

theorem State.sendSafety_heartbeat (s : State) (msg : Nat) (f : FaultInfo) : (s.sendSafety msg f).safe.heartbeat = s.safe.heartbeat := by
  unfold State.sendSafety
  dsimp only
  split
  · exact (congrArg SafeState.heartbeat (Kept.safe_eq (State.originate_kept ..))).trans rfl
  · rfl

theorem State.ownFault_heartbeat {s : State} (f : FaultInfo) (h : s.safe.heartbeat = false) : (s.ownFault f).safe.heartbeat = false := by
  unfold State.ownFault
  split
  · exact State.latch_heartbeat _ h
  · exact (State.sendSafety_heartbeat ..).trans h

theorem State.ownFault_dies (s : State) (f : FaultInfo) : (s.ownFault f).dies = s.dies := by
  unfold State.ownFault
  split
  · exact State.calm_dies (State.latch_calmEq ..)
  · exact State.calm_dies (State.sendSafety_calmEq ..)

/-- What the hub does on a die that it has lost (R18). -/
def State.loseDie (s : State) (t k : Nat) : State :=
  (((s.modDie k fun d => { d with lost := true }).event { source := 4, island := k, subkind := 1 }).heartStop).ownFault
    { kind := 5, island := k, tOrigin := t }

theorem execDieLost_of {t k : Nat} {d : Die} {s : State} (hd : s.hasDie k d) (hl : d.lost = false) (hr : s.reach k = false)
    (hs : s.part.serving = true) : exec (.dieLost t k) s = .next ((s.at_ t).loseDie t k) := by
  show execDieLost t k s = _
  unfold execDieLost
  dsimp only
  rw [State.onDie_of (s := s.at_ t) hd.1 hd.2]
  simp [hl, hr, hs, State.loseDie]

theorem State.loseDie_lost {s : State} {k : Nat} {d : Die} (t : Nat) (hd : s.hasDie k d) : (s.loseDie t k).dieShows k (·.lost) true := by
  have hsame : (s.loseDie t k).dies = (s.modDie k fun d => { d with lost := true }).dies :=
    (State.ownFault_dies ..).trans ((State.calm_dies (State.heartStop_calmEq _)).trans (State.event_dies ..))
  unfold State.dieShows
  rw [State.die?_congr hsame]
  exact State.shows_modDie (State.fitted_pos hd.1) hd.2 rfl

theorem State.loseDie_heartbeat (s : State) (t k : Nat) : (s.loseDie t k).safe.heartbeat = false := by
  unfold State.loseDie
  exact State.ownFault_heartbeat _ (State.heartStop_heartbeat _)

/-- The state that a change of the ROLE pad leaves before its event (R21). -/
def State.notePad (s : State) (level : Bool) : State :=
  { s with part := { s.part with
      roleChanged := true, rolePad := level, roleDue := s.part.roleDue || (!s.part.roleChanged && !s.part.serving) } }

theorem execRolePadChange_of {t : Nat} {level : Bool} {s : State} (h : level ≠ s.part.rolePad) :
    exec (.rolePadChange t level) s = .next (
      if !s.part.roleChanged && s.part.serving then ((s.at_ t).notePad level).event { source := 54, subkind := 3 } else (s.at_ t).notePad level) := by
  show execRolePadChange t level s = _
  have hne : ¬(level == (s.at_ t).part.rolePad) = true := by simpa using h
  unfold execRolePadChange
  dsimp only
  rw [if_neg hne]
  rfl

/-- Settles O19: a link that breaks or is mended is set before anything follows from it, and the rest leaves the links alone; the
hub that loses a die stops the heartbeat, which nothing starts again; of the ROLE pad the flags decide. -/
theorem anatomyCommandsComplete : Obligations.AnatomyCommandsComplete := by
  refine ⟨fun t i s hheld hlink => ?_, fun t i s hfail hlink => ?_, fun t k d s hd hl hr hs => ?_, fun t level s hne => ⟨fun hc => ?_, fun hc hs => ?_, fun hc hs => ?_⟩⟩
  · refine Runs.of (s' := (s.at_ t).breakLink i) ?_ ⟨rfl, State.breakLink_links hlink⟩
    show execInnerLinkBroken t i s = _
    unfold execInnerLinkBroken
    simp only [hheld, Bool.false_eq_true, if_false]
  · refine Runs.of (s' := (s.at_ t).mendLink i) ?_ ⟨rfl, State.mendLink_links hlink⟩
    show execInnerLinkRestored t i s = _
    unfold execInnerLinkRestored
    simp only [hfail, Bool.false_eq_true, if_false]
  · exact Runs.of (execDieLost_of hd hl hr hs) ⟨State.loseDie_lost t hd, State.loseDie_heartbeat ..⟩
  · refine Runs.of (execRolePadChange_of hne) ?_
    simp [hc, State.notePad]
  · refine Runs.of (execRolePadChange_of hne) ?_
    simp [hc, hs, State.notePad]
  · refine Runs.of (execRolePadChange_of hne) ?_
    simp [hc, hs, State.notePad]

end Sys2Proof.Machine
end

section
/-! Frames on their way through a part (R27, R262, R268, R269). -/

namespace Sys2Proof.Machine

theorem execFrameForward_broadcast {t : Nat} {side : Side} {bytes : List Byte} {s : State} (hl : s.linkRuns = true)
    (hd : (frameOf bytes).dst = 63) (ho : s.link.position ≠ some (frameOf bytes).origin) (hm : s.mayForward side (frameOf bytes) = true)
    (hn : s.hasNeighbour side.other = true) (hb : (frameOf bytes).tc = 0 → (frameOf bytes).kind ≠ 1) :
    exec (.frameForward t side bytes) s = .next (((s.at_ t).noteForward side (frameOf bytes)).enqueue side.other (frameOf bytes)) := by
  have hbeacon : ((frameOf bytes).tc == 0 && (frameOf bytes).kind == 1) = false := by simpa using hb
  show execFrameForward t side bytes s = _
  unfold execFrameForward
  simp [hl, hd, ho, hm, hn, hbeacon]

/-- A frame for another part taken out of the inbox (R27). -/
def State.outOfInbox (s : State) (f : Frame) : State := { s with link := { s.link with inbox := s.link.inbox.eraseP fun x => x.2 == f } }

theorem execFrameForward_unicast {t : Nat} {side : Side} {bytes : List Byte} {s : State} (hl : s.linkRuns = true)
    (hd : (frameOf bytes).dst ≠ 63) (h0 : (frameOf bytes).dst ≠ 0) :
    exec (.frameForward t side bytes) s = .next (
      if s.link.parts ≤ (frameOf bytes).dst ∨ (s.link.ringClosed = false ∧ s.hasNeighbour side.other = false)
      then ((s.at_ t).outOfInbox (frameOf bytes)).countNoRoute
      else ((s.at_ t).outOfInbox (frameOf bytes)).egress side.other (frameOf bytes)) := by
  have hruns : ¬(!(s.at_ t).linkRuns) = true := by simp [hl]
  have hnoRoute : ((decide (s.link.parts ≤ (frameOf bytes).dst) || (!s.link.ringClosed && !s.hasNeighbour side.other)) = true) =
      (s.link.parts ≤ (frameOf bytes).dst ∨ (s.link.ringClosed = false ∧ s.hasNeighbour side.other = false)) := by
    simp only [Bool.or_eq_true, Bool.and_eq_true, decide_eq_true_eq, Bool.not_eq_true']
  show execFrameForward t side bytes s = _
  unfold execFrameForward
  dsimp only
  rw [if_neg hruns, if_neg hd, if_neg h0]
  exact congrArg Host.Outcome.next (ite_congr hnoRoute (fun _ => rfl) (fun _ => rfl))

/-- The held frame of a flow that follows its gap most closely (R269). -/
def FlowRx.firstHeld (x : FlowRx) (h : Nat × Option Side × Frame) : Nat × Option Side × Frame :=
  x.held.foldl (fun (m : Nat × Option Side × Frame) y =>
    if (y.2.2.mseq + 65536 - x.next) % 65536 < (m.2.2.mseq + 65536 - x.next) % 65536 then y else m) h

/-- What is released once the gap of a flow is given up (R269). -/
def FlowRx.release (x : FlowRx) (h : Nat × Option Side × Frame) : FlowRx × List (Option Side × Frame) :=
  releaseRun (x.held.length + 1) { x with next := (x.firstHeld h).2.2.mseq, open_ := none } []

theorem execMseqGapRelease_of {t origin tc flow : Nat} {x : FlowRx} {h : Nat × Option Side × Frame} {s : State}
    (hx : s.link.flowsRx.find? (fun y => y.origin == origin && y.tc == tc && y.flow == flow) = some x)
    (hh : x.held.find? (fun h => h.1 + 5000000 ≤ t) = some h) :
    exec (.mseqGapRelease t origin tc flow) s = .next { s.at_ t with link := { s.link with
      flowsRx := s.link.flowsRx.map fun z => if z.origin == origin && z.tc == tc && z.flow == flow then (x.release h).1 else z,
      inbox := s.link.inbox ++ releasedFrames (x.release h).2,
      mseqGap := satInc 16 s.link.mseqGap } } := by
  show execMseqGapRelease t origin tc flow s = _
  unfold execMseqGapRelease
  simp only [State.at__link, hx, hh]
  rfl

theorem State.noteHolder_link (s : State) : s.noteHolder.link = s.link := by
  unfold State.noteHolder
  split <;> rfl

theorem execLinkStateNoticeReceive_of {t : Nat} {bytes : List Byte} {s w : State} (ha : (s.at_ t).accept (frameOf bytes) = (.deliver, w))
    (hk : (frameOf bytes).kind = 6) (htc : (frameOf bytes).tc = 0) :
    exec (.linkStateNoticeReceive t bytes) s = .next (
      { w with link := { w.link with downHops := (w.link.downHops.filter (· != rd (frameOf bytes).payload 0 1)) ++
        (if rd (frameOf bytes).payload 1 1 = 2 then [] else [rd (frameOf bytes).payload 0 1]) } }).noteHolder := by
  show execLinkStateNoticeReceive t bytes s = _
  unfold execLinkStateNoticeReceive
  simp only [ha, hk, htc, ne_eq, not_true_eq_false, or_self, if_false]

/-- Settles O30: with the conditions of a clause the command takes the one branch that the clause describes; a frame that has waited
for 5 ms is among those held, so the flow's search finds one. -/
theorem routingCommandsComplete : Obligations.RoutingCommandsComplete := by
  refine ⟨fun t side bytes f s hf hl hd ho hm hn hb => ?_, fun t side bytes f s w hf hl hd h0 hw => ?_,
    fun t origin tc flow x h s hx hmem hdue => ?_, fun t bytes s w ha hk htc => ?_⟩
  · subst hf
    exact Runs.of (execFrameForward_broadcast hl hd ho hm hn hb) rfl
  · subst hf hw
    exact Runs.of (execFrameForward_unicast hl hd h0) rfl
  · have hfound : (x.held.find? fun h => decide (h.1 + 5000000 ≤ t)).isSome = true :=
      List.find?_isSome.2 ⟨h, hmem, decide_eq_true hdue⟩
    obtain ⟨g, hg⟩ := Option.isSome_iff_exists.1 hfound
    exact Runs.of (execMseqGapRelease_of hx hg) ⟨rfl, _, rfl⟩
  · refine Runs.of (execLinkStateNoticeReceive_of ha hk htc) ?_
    rw [State.noteHolder_link]

end Sys2Proof.Machine
end

section
/-! The reset pad, the domains of the dies, the test of the hub and the completion that an entry waits for (R25, R203, R336,
R404 to R409, R419, R420, R466, R468). -/

namespace Sys2Proof.Machine

/-! ### The pad and the power sequences -/

/-- The reset pad as the part remembers it: held low, since when, ignored (R419, R420). -/
def PowerState.rst (p : PowerState) : Bool × Nat × Bool := (p.rstHeld, p.rstAt, p.rstIgnored)

/-- What a power sequence leaves alone: whether the hub serves, and the reset pad. -/
def State.resetPad (s : State) : Bool × Bool × Nat × Bool := (s.part.serving, s.power.rst)

theorem State.steady_resetPad {s u : State} (h : s.steady = u.steady) : s.resetPad = u.resetPad :=
  congrArg (fun x : Steady => (x.part.serving, x.power.rst)) h

theorem State.resetPad_serving {s : State} {b : Bool} {r : Bool × Nat × Bool} (h : s.resetPad = (b, r)) : s.part.serving = b := congrArg Prod.fst h

theorem State.resetPad_rst {s : State} {b : Bool} {r : Bool × Nat × Bool} (h : s.resetPad = (b, r)) : s.power.rst = r := congrArg Prod.snd h

theorem resetPad_modPower {u : State} {f : PowerState → PowerState} {x : Bool × Bool × Nat × Bool} (hu : u.resetPad = x)
    (hf : ∀ p, (f p).rst = p.rst) : (u.modPower f).resetPad = x :=
  (congrArg (Prod.mk u.part.serving) (hf u.power)).trans hu

theorem resetPad_modDies {u : State} {f : Nat → Die → Die} {x : Bool × Bool × Nat × Bool} (hu : u.resetPad = x)
    (hf : ∀ k d, (f k d).switches = d.switches) : (u.modDies f).resetPad = x :=
  (State.steady_resetPad (State.modDies_steady u hf)).trans hu

theorem resetPad_ite {c : Prop} {_ : Decidable c} {a b : State} {x : Bool × Bool × Nat × Bool} (ha : a.resetPad = x) (hb : b.resetPad = x) :
    (if c then a else b).resetPad = x := by split <;> assumption

theorem State.tearWrites_resetPad (s : State) : s.tearWrites.resetPad = s.resetPad :=
  State.steady_resetPad (State.modDies_steady s fun _ d => (rfl : (Die.tearWrites s.now d).switches = d.switches))

theorem State.downDone_resetPad (s : State) : s.downDone.resetPad = s.resetPad := by
  refine resetPad_ite (resetPad_modPower ?_ fun _ => rfl) (resetPad_ite (resetPad_modPower ?_ fun _ => rfl) (resetPad_modPower ?_ fun _ => rfl))
  · exact (State.tearWrites_resetPad _).trans (resetPad_modPower rfl fun _ => rfl)
  all_goals exact resetPad_modPower rfl fun _ => rfl

theorem State.downStep_resetPad (s : State) : s.downStep.resetPad = s.resetPad := by
  unfold State.downStep
  split
  · exact State.downDone_resetPad s
  · rfl

theorem State.startDown_resetPad (s : State) (target : Nat) : (s.startDown target).resetPad = s.resetPad :=
  resetPad_ite rfl ((State.downStep_resetPad _).trans rfl)

theorem State.enableNext_resetPad (s : State) : s.enableNext.resetPad = s.resetPad := by
  unfold State.enableNext
  split <;> rfl

theorem State.startUp_resetPad (s : State) : s.startUp.resetPad = s.resetPad :=
  (State.enableNext_resetPad _).trans (resetPad_modPower rfl fun _ => rfl)

theorem State.ageStates_resetPad (s : State) : s.ageStates.resetPad = s.resetPad :=
  resetPad_ite rfl (resetPad_modDies (resetPad_modPower rfl fun _ => rfl) fun _ _ => rfl)

theorem State.wake_resetPad (s : State) (code : Nat) : (s.wake code).resetPad = s.resetPad := by
  refine resetPad_ite rfl (resetPad_ite rfl (resetPad_ite (resetPad_modPower ?_ fun _ => rfl) ((State.startUp_resetPad _).trans ?_)))
  all_goals exact (State.ageStates_resetPad _).trans (resetPad_modPower rfl fun _ => rfl)

/-- The end of a reset lets go of the pad, and whether it is ignored stays (R419, R420). -/
theorem State.endReset_resetPad (s : State) (cause : Nat) (strap : List Nat) :
    (s.endReset cause strap).resetPad = (s.part.serving, false, s.power.rstAt, s.power.rstIgnored) := by
  refine resetPad_ite rfl (resetPad_ite ?_ (resetPad_ite rfl (resetPad_ite ?_ rfl)))
  · exact (State.wake_resetPad _ _).trans rfl
  · exact (State.startUp_resetPad _).trans rfl

/-! ### The hub stops -/

theorem State.outsOff_power (s : State) : s.outsOff.power = s.power := congrArg (·.2.2.2.2.1) (State.outsOff_calmEq s)

theorem State.padOff_power (s : State) : s.padOff.power = s.power := by
  unfold State.padOff
  split <;> rfl

theorem State.testPads_power (s : State) (level : Nat) : (s.testPads level).power = s.power := by
  unfold State.testPads
  split <;> rfl

theorem State.hubStop_resetPad (s : State) (sleep : Bool) : (s.hubStop sleep).resetPad = (false, s.power.rst) := by
  have hpower : ((s.outsOff.padOff).testPads 0).power = s.power := by rw [State.testPads_power, State.padOff_power, State.outsOff_power]
  refine (State.steady_resetPad (foldl_steady (fun s k => State.settleChannels_steady s k) _ _)).trans ?_
  refine (State.steady_resetPad (State.takeBlock_steady ..)).trans (resetPad_modDies ?_ fun _ _ => rfl)
  exact congrArg (fun p : PowerState => (false, p.rst)) hpower

theorem State.diesCutOff_steady (s : State) : s.diesCutOff.steady = s.steady := foldl_steady (fun s k => State.fastOff_steady s k) _ s

/-- The pad is noted as held low from an instant (R419). -/
def State.holdPad (s : State) (t : Nat) : State := s.modPower fun p => { p with rstHeld := true, rstAt := t }

/-- The start that follows a low of RST_N counts as one after it, unless it is the first of all (R415, R419). -/
def State.startByPad (s : State) : State := s.modPower fun p => { p with startBy := if p.startBy = 0 then 0 else 1 }

/-- What a low of RST_N does to a part that has noted it (R25, R409, R419). -/
def State.resetLow (s : State) : State :=
  if s.warned then s
  else if s.part.serving then (((s.hubStop false).diesCutOff).startByPad).startDown 1
  else if s.part.hubHeld then (({ s with part := { s.part with hubHeld := false } } : State).startByPad).startDown 1
  else if s.power.seqDir = 1 then s.startDown 1
  else s

theorem execRstNAssert_of {t : Nat} {s : State} (hi : s.power.rstIgnored = false) (hh : s.power.rstHeld = false) :
    exec (.rstNAssert t) s = .next ((s.at_ t).holdPad t).resetLow := by
  have hfree : ¬((s.at_ t).power.rstIgnored || (s.at_ t).power.rstHeld) = true := by simp [hi, hh]
  show execRstNAssert t s = _
  unfold execRstNAssert
  dsimp only
  rw [if_neg hfree]
  rfl

/-- The power-down of a hub that was stopped leaves it stopped, and the pad as it was. -/
theorem State.hubStop_down_resetPad (s : State) : ((((s.hubStop false).diesCutOff).startByPad).startDown 1).resetPad = (false, s.power.rst) := by
  refine (State.startDown_resetPad ..).trans (resetPad_modPower ?_ fun _ => rfl)
  exact (State.steady_resetPad (State.diesCutOff_steady _)).trans (State.hubStop_resetPad s false)

theorem State.resetLow_rst (s : State) : s.resetLow.power.rst = s.power.rst := by
  unfold State.resetLow
  split
  · rfl
  split
  · exact State.resetPad_rst (State.hubStop_down_resetPad s)
  split
  · exact State.resetPad_rst ((State.startDown_resetPad _ 1).trans (resetPad_modPower rfl fun _ => rfl))
  split
  · exact State.resetPad_rst (State.startDown_resetPad s 1)
  · rfl

theorem State.resetLow_serving {s : State} (hw : s.warned = false) (hs : s.part.serving = true) : s.resetLow.part.serving = false := by
  unfold State.resetLow
  rw [if_neg (by simp [hw]), if_pos hs]
  exact State.resetPad_serving (State.hubStop_down_resetPad s)

theorem execRstNRelease_of {t : Nat} {strap : List Nat} {s : State} (h : s.power.rstHeld = true) :
    exec (.rstNRelease t strap) s = .next ((s.at_ t).endReset 1 strap) := by
  show execRstNRelease t strap s = _
  unfold execRstNRelease
  simp only [State.at__power, h, if_true]

/-- The pad is ignored from now on (R420). -/
def State.ignorePad (s : State) : State := s.modPower fun p => { p with rstIgnored := true }

theorem execRstNStuck_of {t : Nat} {strap : List Nat} {s : State} (h : s.power.rstHeld = true) (ht : s.power.rstAt + 30000000000 ≤ t) :
    exec (.rstNStuck t strap) s = .next (((s.at_ t).ignorePad).endReset 2 strap) := by
  have hstuck : ¬(!(s.at_ t).power.rstHeld || decide (t < (s.at_ t).power.rstAt + 30000000000)) = true := by simp [h, Nat.not_lt.2 ht]
  show execRstNStuck t strap s = _
  unfold execRstNStuck
  dsimp only
  rw [if_neg hstuck]
  rfl

/-! ### Domains of the dies (R404, R405, R468) -/

/-- With PREC and DSP die k loses what T0 holds (R404). -/
theorem State.precOff_shows {s : State} {k : Nat} {d : Die} (hd : s.hasDie k d) (hp : d.precOn = true) :
    (s.precOff k).dieShows k (fun y => (y.precOn, y.dspOn, y.t0)) (false, false, []) := by
  have hk := State.fitted_pos hd.1
  have hstop : (((s.abortSlice k).fastOff k).discardRun k s.now true).steady = s.steady :=
    (State.discardRun_steady ..).trans ((State.fastOff_steady ..).trans (State.abortSlice_steady s k))
  obtain ⟨e, he⟩ := State.steady_die? hstop hd.2
  unfold State.precOff
  rw [State.onDie_of hd.1 hd.2, if_neg (by simp [hp])]
  refine State.shows_settleChannels hk (fun _ _ => rfl) ?_
  exact State.shows_modDie hk he rfl

/-- Protection-only mode of a die, entered now or held since before (R468). -/
theorem State.enterProtOnly_shows {s : State} {k : Nat} {a b c : Bool} (hf : s.fitted k = true) (h : s.dieShows k Die.switches (a, b, c)) :
    (s.enterProtOnly k).dieShows k Die.switches (a, b, true) := by
  obtain ⟨d, hd, hsw⟩ := Option.map_eq_some_iff.1 h
  obtain ⟨rfl, rfl, rfl⟩ : d.precOn = a ∧ d.dspOn = b ∧ d.prot.protOnly = c := by simpa [Die.switches] using hsw
  unfold State.enterProtOnly
  rw [State.onDie_of hf hd]
  split
  · next hp => exact hp ▸ h
  · refine State.steady_shows ?_ (State.shows_modDie (f := Die.switches) (g := fun d => { d with prot := { d.prot with protOnly := true, owRun := none } })
      (State.fitted_pos hf) hd rfl)
    refine (State.event_steady ..).trans ((State.cancelPend_steady _).trans ((State.settleChannels_steady ..).trans (steady_modDie ?_ fun _ => rfl)))
    exact (State.discardRun_steady ..).trans (State.stopFast_steady ..)

/-- A die that has been started serves when its tests pass, and else only protects (R468). -/
theorem State.started_shows {s : State} {k t : Nat} {a b c : Bool} {pass : Bool} (hf : s.fitted k = true)
    (h : s.dieShows k Die.switches (a, b, c && !pass)) :
    (if pass then (((s.seqRestart k t false).fastDomain k).settleChannels k).heartResume else s.enterProtOnly k).dieShows k Die.switches
      (a, b, !pass) := by
  cases pass with
  | false => exact State.enterProtOnly_shows hf h
  | true =>
    rw [Bool.not_true, Bool.and_false] at h
    refine State.steady_shows ?_ h
    exact (State.heartResume_steady _).trans ((State.settleChannels_steady ..).trans ((State.fastDomain_steady ..).trans (State.seqRestart_steady ..)))

theorem execDieIsolationTimeout_of {t k : Nat} {d : Die} {s : State} (hd : s.hasDie k d) (hp : d.precOn = true)
    (ht : d.lastWord + 60000000000 ≤ t) (hc : s.cutOff k = true ∨ s.part.serving = false ∨ s.part.hubHeld = true) :
    exec (.dieIsolationTimeout t k) s = .next ((s.at_ t).precOff k) := by
  have hdue : (!d.precOn || decide (t < d.lastWord + 60000000000) ||
      !((s.at_ t).cutOff k || !(s.at_ t).part.serving || (s.at_ t).part.hubHeld)) = false := by
    obtain h | h | h := hc <;> simp [hp, h, Nat.not_lt.2 ht]
  show execDieIsolationTimeout t k s = _
  unfold execDieIsolationTimeout
  dsimp only
  rw [State.onDie_of (s := s.at_ t) hd.1 hd.2, hdue]
  rfl

theorem State.reportFailed_steady {c : Prop} {_ : Decidable c} (s : State) (k block : Nat) :
    (if c then s.testFailed k block else s).steady = s.steady := steady_ite (State.testFailed_steady ..) rfl

theorem State.reportUnless_steady {c : Prop} {_ : Decidable c} (s : State) (k block : Nat) :
    (if c then s else s.testFailed k block).steady = s.steady := steady_ite rfl (State.testFailed_steady ..)

theorem State.fitted_modDie (s : State) (k : Nat) (f : Die → Die) (j : Nat) : (s.modDie k f).fitted j = s.fitted j := by
  unfold State.fitted
  rw [State.modDie_part]

theorem execPrecPowerUp_shows {t k : Nat} {bist : DieTests} {d : Die} {s : State} (hd : s.hasDie k d) (hp : d.precOn = false)
    (ha : d.prot.aonOn = true) (hh : d.hot = false) (ht : s.hubTakes k = true) (hr : s.inRunDoze = true) :
    Runs (.precPowerUp t k bist) s fun s' => s'.dieShows k Die.switches (true, true, !(bistOf bist.bist).pass) := by
  have hstart : (d.precOn || !d.prot.aonOn || d.hot || !(s.at_ t).hubTakes k || !(s.at_ t).inRunDoze) = false := by simp [hp, ha, hh, ht, hr]
  refine ⟨_, rfl, ?_⟩
  rw [State.onDie_of (s := s.at_ t) hd.1 hd.2, hstart, if_neg Bool.false_ne_true]
  have hk := State.fitted_pos hd.1
  extract_lets b u1 u2 u3 u4 u5 u6 u7 u8 u9
  have hsteady : u9.steady = u1.steady :=
    (State.reportUnless_steady ..).trans ((State.reportFailed_steady ..).trans ((State.reportFailed_steady ..).trans
      ((State.reportMemory_steady ..).trans ((State.loadState_steady ..).trans ((State.precStart_steady ..).trans
        ((State.loadCal_steady ..).trans ((State.readFactory_steady ..).trans rfl)))))))
  refine State.started_shows (c := d.prot.protOnly) ?_ ?_
  · exact (State.steady_fitted hsteady k).trans ((State.fitted_modDie (s.at_ t) k _ k).trans hd.1)
  · exact State.steady_shows hsteady (State.shows_modDie hk hd.2 rfl)

/-! ### The test of the hub and completions (R336, R468) -/

/-- A hub whose test fails stays in reset (R468). -/
theorem State.hubTest_held {s : State} {bist : Nat} (h : (bistOf bist).pass = false) : (s.hubTest bist).part.hubHeld = true := by
  unfold State.hubTest
  dsimp only
  rw [if_neg (by simp [h])]

theorem execHubBistRetry_of {t : Nat} {pass : Bool} {x : SelfTest} {s : State} (hx : s.selfTest[0]? = some x) (hh : s.part.hubHeld = true)
    (hr : x.retried = false) (hb : s.bistFailed ≠ []) (ht : x.lbistAt + 1000000000 ≤ t) :
    exec (.hubBistRetry t pass) s = .next (((s.at_ t).modTest 0 fun y => { y with retried := true }).hubTest (if pass = true then 0 else 1)) := by
  show execHubBistRetry t pass s = _
  unfold execHubBistRetry
  simp [hx, hh, hr, hb, Nat.not_lt.2 ht]

section
variable {t cq : Nat} {w : ComplWait} {s : State} (hw : s.hif.cqWait.find? (fun x => x.cq == cq) = some w) (hs : s.hifServes = true)
  (hq : (s.hif.cqOf cq).serves = true) (hf : (s.hif.cqOf cq).full = false)
include hw hs hq hf

theorem execCompletionWrite_ok : exec (.completionWrite t cq true) s =
    .next (((((s.at_ t).writeCompletion cq w).checkDrain).modPower fun p => { p with idleSince := t }).tryEnter) := by
  show execCompletionWrite t cq true s = _
  unfold execCompletionWrite
  simp [hw, hs, hq, hf]

theorem execCompletionWrite_failed : exec (.completionWrite t cq false) s =
    .next (((s.at_ t).putCq cq { s.hif.cqOf cq with err := 2, active := false }).queueError 2 cq 2) := by
  show execCompletionWrite t cq false s = _
  unfold execCompletionWrite
  simp [hw, hs, hq, hf]

end

/-- Settles O48: a power sequence leaves the pad and the stopped hub as they are, the start of a die what its tests have said of it,
and the other clauses follow the branch that their conditions leave. -/
theorem resetCommandsComplete : Obligations.ResetCommandsComplete := by
  refine ⟨fun t s hi hh => ⟨?_, fun hw hs => ?_⟩, fun t strap s h => ⟨?_, fun ht => ?_⟩, fun t s => Runs.of rfl rfl,
    fun t k d s hd => ⟨fun hp ht hc => ?_, fun bist hp ha hh ht hr => execPrecPowerUp_shows hd hp ha hh ht hr⟩,
    fun t pass x s hx hh hr hb ht => ?_, fun t cq w s hw hs hq hf => ⟨?_, ?_⟩⟩
  · have hrst := State.resetLow_rst ((s.at_ t).holdPad t)
    exact Runs.of (execRstNAssert_of hi hh) ⟨congrArg Prod.fst hrst, congrArg (·.2.1) hrst⟩
  · exact Runs.of (execRstNAssert_of hi hh) (State.resetLow_serving (s := (s.at_ t).holdPad t) hw hs)
  · have hrst := State.resetPad_rst (State.endReset_resetPad (s.at_ t) 1 strap)
    exact Runs.of (execRstNRelease_of h) ⟨rfl, congrArg Prod.fst hrst⟩
  · have hrst := State.resetPad_rst (State.endReset_resetPad ((s.at_ t).ignorePad) 2 strap)
    exact Runs.of (execRstNStuck_of h ht) ⟨congrArg (·.2.2) hrst, congrArg Prod.fst hrst⟩
  · exact Runs.of (execDieIsolationTimeout_of hd hp ht hc) (State.precOff_shows (s := s.at_ t) hd hp)
  · refine Runs.of (execHubBistRetry_of hx hh hr hb ht) ⟨rfl, fun hpass => ?_⟩
    rw [hpass]
    exact State.hubTest_held (by decide)
  · exact Runs.of (execCompletionWrite_ok hw hs hq hf) rfl
  · exact Runs.of (execCompletionWrite_failed hw hs hq hf) rfl

end Sys2Proof.Machine
end

section
/-! Commands of one die: they change time and that die (R30, R62, R126, R213, R220, R221, R223, R228). -/

namespace Sys2Proof.Machine

/-! ### Only one die changes -/

/-- From s to u only die k changes: the rest of the part and every other die stay, and no die is added or lost. -/
structure State.OnlyDie (k : Nat) (s u : State) : Prop where
  rest : u = { s with dies := u.dies }
  length : u.dies.length = s.dies.length
  others : ∀ j, j ≠ k → u.die? j = s.die? j

namespace State.OnlyDie
variable {k : Nat} {s u w : State}

theorem refl (k : Nat) (s : State) : OnlyDie k s s := ⟨rfl, rfl, fun _ _ => rfl⟩

theorem trans (h : OnlyDie k s u) (h' : OnlyDie k u w) : OnlyDie k s w := by
  refine ⟨?_, h'.length.trans h.length, fun j hj => (h'.others j hj).trans (h.others j hj)⟩
  calc w = { u with dies := w.dies } := h'.rest
    _ = { s with dies := w.dies } := congrArg (fun x : State => { x with dies := w.dies }) h.rest

/-- A change of die k, after what has changed of it before. -/
theorem modDie (h : OnlyDie k s u) (f : Die → Die) : OnlyDie k s (u.modDie k f) := by
  refine h.trans ⟨?_, ?_, fun j hj => State.die?_modDie_other f hj⟩
  · unfold State.modDie
    split <;> rfl
  · unfold State.modDie
    split
    · rfl
    · exact modNth_length ..

theorem ite {c : Prop} {_ : Decidable c} {a b : State} (ha : OnlyDie k s a) (hb : OnlyDie k s b) : OnlyDie k s (if c then a else b) := by
  split <;> assumption

theorem onDie {i : Nat} {f : Die → State} (hf : ∀ d, OnlyDie k s (f d)) (hu : OnlyDie k s u) : OnlyDie k s (u.onDie i f) := by
  unfold State.onDie
  split
  · split
    · exact hf _
    · exact hu
  · exact hu

theorem settleChannels (h : OnlyDie k s u) : OnlyDie k s (u.settleChannels k) := h.modDie _

theorem applyCap (h : OnlyDie k s u) : OnlyDie k s (u.applyCap k) := (h.modDie _).settleChannels

theorem dieRecord (h : OnlyDie k s u) (recType time : Nat) (bytes : List Byte) : OnlyDie k s (u.dieRecord k recType time bytes) := h.modDie _

theorem closeRun (h : OnlyDie k s u) (t : Nat) : OnlyDie k s (u.closeRun k t) := by
  refine onDie (fun d => ?_) h
  split
  · exact h
  · exact h.modDie _

theorem owEnd (h : OnlyDie k s u) : OnlyDie k s (u.owEnd k) := (h.settleChannels.modDie _).settleChannels

theorem owBegin (h : OnlyDie k s u) : OnlyDie k s (u.owBegin k) := by
  refine onDie (fun d => ite h ?_) h
  split
  · exact h
  · exact ite h (h.modDie _).settleChannels

end State.OnlyDie

/-- The configuration in force put in place of the one there (R46). -/
def State.withForce (s : State) (f : List Host.Cell) : State := { s with cfg := { s.cfg with f := f } }

/-- The precision fields of a swap that a die takes are its own change and the fields in force (R46). -/
theorem State.takePrec_onlyDie (s : State) (k : Nat) : ∃ f, State.OnlyDie k (s.withForce f) (s.takePrec k) := by
  have stay : ∃ f, State.OnlyDie k (s.withForce f) s := ⟨s.cfg.f, .refl k s⟩
  have adopt (d : Die) : ∃ f, State.OnlyDie k (s.withForce f) (s.adoptPrec k d) := by
    unfold State.adoptPrec
    split
    · exact stay
    · split
      · exact stay
      · exact ⟨(s.takeBlock 0x01 k).cfg.f, (State.OnlyDie.refl k (s.takeBlock 0x01 k)).modDie _⟩
  unfold State.takePrec State.onDie
  split
  · split
    · exact adopt _
    · exact stay
  · exact stay

/-! ### The frame of a command -/

section
variable {i : Instr} {s : State} {t k : Nat} {f : Die → State}

/-- A command that acts on die k alone. -/
theorem Runs.onlyDie (h : exec i s = .next ((s.at_ t).onDie k f)) (hf : ∀ d, State.OnlyDie k (s.at_ t) (f d)) :
    Runs i s fun s' => s' = { s with now := s.clock t, dies := s'.dies } ∧ s'.dies.length = s.dies.length ∧ ∀ j, j ≠ k → s'.die? j = s.die? j :=
  have hu := State.OnlyDie.onDie (i := k) hf (.refl ..)
  ⟨_, h, hu.rest, hu.length, hu.others⟩

/-- A command that acts on die k alone, once the die has taken the precision fields of a swap whose boundary has passed. -/
theorem Runs.onlyDieTaken (h : exec i s = .next (((s.at_ t).takePrec k).onDie k f)) (hf : ∀ d, State.OnlyDie k ((s.at_ t).takePrec k) (f d)) :
    Runs i s fun s' => s' = { s with now := s.clock t, dies := s'.dies, cfg := { s.cfg with f := s'.cfg.f } } ∧
      s'.dies.length = s.dies.length ∧ ∀ j, j ≠ k → s'.die? j = s.die? j := by
  obtain ⟨a, ha⟩ := State.takePrec_onlyDie (s.at_ t) k
  have hu := ha.trans (State.OnlyDie.onDie (i := k) hf (.refl ..))
  have hforce := congrArg (·.cfg.f) hu.rest
  refine ⟨_, h, hu.rest.trans ?_, hu.length, hu.others⟩
  rw [hforce]
  rfl

end

open State.OnlyDie in
/-- Settles O54: after the instant, and at two of the commands after the fields of a swap that the die takes, all that a command
does is a change of its die: it stops at a condition, or it goes through changes of that die one after the other. -/
theorem dieCommandsFrame : Obligations.DieCommandsFrame := by
  intro c s
  split
  next t k => exact Runs.onlyDie (i := .warmExpire t k) rfl fun _ => ite ((refl ..).modDie _) (refl ..)
  next t k ratio => exact Runs.onlyDie (i := .refMonitorSample t k ratio) rfl fun _ => ite ((refl ..).modDie _) (refl ..)
  next t k =>
    refine Runs.onlyDie (i := .gateWindowClose t k) rfl fun d => ?_
    cases d.prec.window with
    | none => exact refl ..
    | some e => exact ite ((refl ..).modDie _).settleChannels.owBegin (refl ..)
  next t k =>
    refine Runs.onlyDie (i := .calRunClose t k) rfl fun d => ?_
    cases d.cal.run with
    | none => exact refl ..
    | some r => exact ite ((refl ..).closeRun t) (refl ..)
  next t k => exact Runs.onlyDie (i := .owSweep t k) rfl fun _ => ite (refl ..) ((refl ..).modDie _)
  next t k pre post =>
    refine Runs.onlyDie (i := .owCheckComplete t k pre post) rfl fun d => ?_
    cases d.prot.suspect with
    | nil => exact refl ..
    | cons w rest =>
      refine ite (refl ..) (owBegin ?_)
      have ended (f : Die → Die) : State.OnlyDie k (s.at_ t) (((s.at_ t).modDie k f).owEnd k) := ((refl ..).modDie f).owEnd
      exact ite ((ended _).modDie _).settleChannels (ite ((ended _).modDie _) (ended _))
  next t k w => exact Runs.onlyDie (i := .shuntInputBreak t k w) rfl fun _ => ite (refl ..) ((refl ..).modDie _)
  next t k => exact Runs.onlyDie (i := .balNeedCheck t k) rfl fun _ => ite (refl ..) ((refl ..).modDie _).applyCap
  next t k =>
    refine Runs.onlyDie (i := .balanceRecordInterval t k) rfl fun _ => ite (refl ..) (onDie (fun _ => ?_) ((refl ..).modDie _))
    exact ite (((refl ..).modDie _).modDie _) ((((refl ..).modDie _).modDie _).dieRecord ..)
  next t k => exact Runs.onlyDie (i := .dieCooled t k) rfl fun _ => (refl ..).modDie _
  next t k => exact Runs.onlyDie (i := .innerTimeWordTimeout t k) rfl fun _ => ite ((refl ..).modDie _) (refl ..)
  next t k => exact Runs.onlyDieTaken (i := .gateWindowOpen t k) rfl fun _ => ite ((refl ..).modDie _).settleChannels (refl ..)
  next t k b zero => exact Runs.onlyDieTaken (i := .spareDwellStep t k b zero) rfl fun _ => ite (refl ..) ((refl ..).modDie _)
  next => trivial

end Sys2Proof.Machine
end

section
/-! The precision path: samples, spares, the reference monitor and gate windows (R30, R34, R36, R52, R62, R63). -/

namespace Sys2Proof.Machine

/-! ### The gate period (R63) -/

/-- The least whole number of milliseconds of which a window in ns is at most 6 %. -/
def leastDutyMs (window : Nat) : Nat := (window * 100 + 5999999) / 6000000

theorem leastDutyMs_le_iff {window m : Nat} : leastDutyMs window ≤ m ↔ 100 * window ≤ 6 * (m * 1000000) := by
  unfold leastDutyMs
  omega

theorem State.gatePeriodNs_eq (s : State) (k : Nat) : s.gatePeriodNs k =
    max (s.fF 0x01 k 0 31 16) (leastDutyMs (windowLen (s.fF 0x01 k 0 15 8) (s.rateOf k) (s.filtOf k))) * 1000000 := rfl

/-- Settles O57: the model's quotient, rounded up, is the least number of milliseconds that keeps the duty. -/
theorem gatePeriodBoundsDuty : Obligations.GatePeriodBoundsDuty := by
  rintro s k window rfl
  rw [State.gatePeriodNs_eq]
  refine ⟨leastDutyMs_le_iff.1 (Nat.le_max_right ..), leastDutyMs _, rfl, leastDutyMs_le_iff.1 (Nat.le_refl _), fun m hm => ?_⟩
  exact leastDutyMs_le_iff.2 hm

/-! ### What a die shows -/

/-- A change of a die that a reading does not see. -/
theorem State.shows_modDie_unseen {α : Type} {s : State} {j k : Nat} {g : Die → Die} {f : Die → α} {v : α} (hg : ∀ d, f (g d) = f d)
    (h : s.dieShows k f v) : (s.modDie j g).dieShows k f v := by
  obtain ⟨d, hd, hv⟩ := Option.map_eq_some_iff.1 h
  have hk : k ≠ 0 := by
    rintro rfl
    cases hd
  by_cases hj : k = j
  · subst hj
    exact State.shows_modDie hk hd ((hg d).trans hv)
  · exact (congrArg (Option.map f) (State.die?_modDie_other g hj)).trans h

theorem shows_onDie {α : Type} {s : State} {j k : Nat} {F : Die → State} {f : Die → α} {v : α} (hF : ∀ d, (F d).dieShows k f v)
    (h : s.dieShows k f v) : (s.onDie j F).dieShows k f v := by
  unfold State.onDie
  split
  · split
    · exact hF _
    · exact h
  · exact h

/-- The start of an open-wire check touches the protection state alone. -/
theorem State.shows_owBegin {α : Type} {s : State} {k : Nat} {f : Die → α} {v : α} (hk : k ≠ 0)
    (hp : ∀ (d : Die) (p : ProtState), f { d with prot := p } = f d) (h : s.dieShows k f v) : (s.owBegin k).dieShows k f v := by
  refine shows_onDie (fun d => ?_) h
  split
  · exact h
  · split
    · exact h
    · split
      · exact h
      · exact State.shows_settleChannels hk hp (State.shows_modDie_unseen (fun d => hp d _) h)

/-! ### The reference monitor (R34) -/

/-- The reference interval of a die: the sum and the number of its ratios, the mean before it, and its start. -/
def Die.refInterval (d : Die) : Rat × Nat × Option Rat × Nat := (d.prec.refSum, d.prec.refCount, d.prec.refPrev, d.prec.refAt)

theorem State.discardRun_refInterval {s : State} {k t : Nat} {keep : Bool} {v : Rat × Nat × Option Rat × Nat} (hk : k ≠ 0)
    (h : s.dieShows k Die.refInterval v) : (s.discardRun k t keep).dieShows k Die.refInterval v := by
  refine shows_onDie (fun d => State.shows_modDie_unseen (fun _ => rfl) ?_) h
  split
  · exact State.shows_dieRecord hk (fun _ _ _ => rfl) h
  · exact h

theorem State.dieEvent_refInterval {s : State} {k : Nat} {e : Ev} {v : Rat × Nat × Option Rat × Nat}
    (h : s.dieShows k Die.refInterval v) : (s.dieEvent k e).dieShows k Die.refInterval v :=
  State.shows_dieEventFull (fun _ _ _ => rfl) h

/-- A judgement of the references that ends the run is told and leaves the interval as it is (R34, R132). -/
theorem State.judged_refInterval {s : State} {k t : Nat} {g : Die → Die} {e : Ev} {v : Rat × Nat × Option Rat × Nat} (hk : k ≠ 0)
    (hg : ∀ d, (g d).refInterval = d.refInterval) (h : s.dieShows k Die.refInterval v) :
    (((s.modDie k g).discardRun k t false).dieEvent k e).dieShows k Die.refInterval v :=
  State.dieEvent_refInterval (State.discardRun_refInterval hk (State.shows_modDie_unseen hg h))

section
variable {t k : Nat} {d : Die} {s : State}

/-- What the close of an interval keeps does not depend on how its mean is judged (R34). -/
theorem execRefIntervalClose_shows (hd : s.hasDie k d) (hp : d.precOn = true) (hn : d.prec.refCount ≠ 0) (ht : d.prec.refAt + 10000000000 ≤ t) :
    Runs (.refIntervalClose t k) s fun s' =>
      s'.dieShows k Die.refInterval (0, 0, some (d.prec.refSum / (d.prec.refCount : Rat)), t) := by
  have hk := State.fitted_pos hd.1
  have hdue : ¬ (!d.precOn || decide (d.prec.refCount = 0) || decide (t < d.prec.refAt + 10000000000)) = true := by
    simp [hp, hn, Nat.not_lt.2 ht]
  refine ⟨_, rfl, ?_⟩
  rw [State.onDie_of (s := s.at_ t) hd.1 hd.2, if_neg hdue]
  extract_lets mean f fac far step u
  have hu : u.dieShows k Die.refInterval (0, 0, some mean, t) := State.shows_modDie hk hd.2 rfl
  split
  · split
    · exact State.judged_refInterval hk (fun _ => rfl) hu
    · exact hu
  · split
    · exact State.judged_refInterval hk (fun _ => rfl) hu
    · split
      · exact State.judged_refInterval hk (fun _ => rfl) hu
      · exact hu

theorem execWarmExpire_shows (hd : s.hasDie k d) (hp : d.precOn = true) (ht : d.prec.upAt + 600000000000 ≤ t) :
    Runs (.warmExpire t k) s fun s' => s'.dieShows k (fun x => x.prec.warm) false := by
  refine ⟨_, rfl, ?_⟩
  rw [State.onDie_of (s := s.at_ t) hd.1 hd.2, if_pos (by simp [hp, ht])]
  exact State.shows_modDie (State.fitted_pos hd.1) hd.2 rfl

theorem execRefMonitorSample_shows (ratio : Rat) (hd : s.hasDie k d) (hp : d.precOn = true)
    (hfree : ((s.selfTest[k]?).bind (·.slice)).map (·.1) ≠ some 0x0501) :
    Runs (.refMonitorSample t k ratio) s fun s' =>
      s'.dieShows k (fun x => (x.prec.refSum, x.prec.refCount)) (d.prec.refSum + ratio, d.prec.refCount + 1) := by
  have hjoins : (d.precOn && !((((s.at_ t).selfTest[k]?).bind (·.slice)).map (·.1) == some 0x0501)) = true := by
    simpa [hp, beq_eq_false_iff_ne] using hfree
  refine ⟨_, rfl, ?_⟩
  rw [State.onDie_of (s := s.at_ t) hd.1 hd.2]
  dsimp only
  rw [if_pos hjoins]
  exact State.shows_modDie (State.fitted_pos hd.1) hd.2 rfl

theorem execGateWindowClose_shows {e : Nat} (hd : s.hasDie k d) (hw : d.prec.window = some e) (he : e ≤ t) :
    Runs (.gateWindowClose t k) s fun s' => s'.dieShows k (fun x => x.prec.window) none := by
  have hk := State.fitted_pos hd.1
  refine ⟨_, rfl, ?_⟩
  rw [State.onDie_of (s := s.at_ t) hd.1 hd.2, hw]
  dsimp only
  rw [if_pos he]
  exact State.shows_owBegin hk (fun _ _ => rfl) (State.shows_settleChannels hk (fun _ _ => rfl) (State.shows_modDie hk hd.2 rfl))

theorem execPrecisionSample_of {v : List Rat} {ovl : List Overload} {tj : Int} {bal : List Rat} {e : Die} {w : State} (hd : s.hasDie k d)
    (hr : d.prec.running = true) (hp : d.precOn = true) (hs : s.inRunDoze = true)
    (hw : w = ((s.at_ t).modDie k fun x => { x with prec := { x.prec with temp := tj } }).atSample k) (hgrid : t % w.periodOf k = 0)
    (he : (w.applyCap k).hasDie k e) :
    exec (.precisionSample t k v ovl tj bal) s = .next (((w.applyCap k).precSample k e v ovl bal).stepAt k) := by
  have hruns : ¬ (!(d.prec.running && d.precOn && (s.at_ t).inRunDoze)) = true := by simp [hr, hp, hs]
  show execPrecisionSample t k v ovl tj bal s = _
  unfold execPrecisionSample
  dsimp only
  rw [State.onDie_of (s := s.at_ t) hd.1 hd.2, if_neg hruns, ← hw, if_neg (not_not_intro hgrid), State.onDie_of he.1 he.2]

end

/-! ### Commands after a swap that the die has taken (R46) -/

section
variable {t k : Nat} {e : Die} {s w : State} (hw : w = (s.at_ t).takePrec k) (he : w.hasDie k e) (hr : e.prec.running = true)
  (hp : e.precOn = true)
include hw he hr hp

theorem execSpareDwellStep_shows {b : Bool} (zero : Rat) (hheld : e.prec.held.getD (b2n b) 0 = 0)
    (hok : e.prec.failed.contains (25 + b2n b) = false) (ht : e.prec.spareStep.getD (b2n b) 0 + w.fF 0x01 k 8 7 0 * 1000000000 ≤ t) :
    Runs (.spareDwellStep t k b zero) s fun s' =>
      s'.dieShows k (fun x => (x.prec.spareCell, x.prec.spareStep))
        (setNth (b2n b) (e.prec.spareCell.getD (b2n b) 1 % 24 + 1) e.prec.spareCell, setNth (b2n b) t e.prec.spareStep) := by
  have hends : ¬ (!(e.prec.running && e.precOn) || e.prec.held.getD (b2n b) 0 != 0 || e.prec.failed.contains (25 + b2n b) ||
      decide (t < e.prec.spareStep.getD (b2n b) 0 + w.fF 0x01 k 8 7 0 * 1000000000)) = true := by
    simp only [hr, hp, hheld, hok, Nat.not_lt.2 ht]
    decide
  subst hw
  refine ⟨_, rfl, ?_⟩
  rw [State.onDie_of he.1 he.2]
  dsimp only
  rw [if_neg hends]
  exact State.shows_modDie (State.fitted_pos he.1) he.2 rfl

theorem execGateWindowOpen_shows (hg : w.fB 0x01 k 0 5 = true) (hon : e.prot.anyOn = true)
    (ht : t + windowLen (w.fF 0x01 k 0 15 8) (w.rateOf k) (w.filtOf k) = w.gateEnd k e) :
    Runs (.gateWindowOpen t k) s fun s' =>
      s'.dieShows k (fun x => (x.prec.window, x.prec.gatedE)) (some (w.gateEnd k e), some (w.gateEnd k e)) := by
  have hopens : (e.prec.running && e.precOn && w.fB 0x01 k 0 5 && e.prot.anyOn &&
      t + windowLen (w.fF 0x01 k 0 15 8) (w.rateOf k) (w.filtOf k) == w.gateEnd k e) = true := by simp [hr, hp, hg, hon, ht]
  have hk := State.fitted_pos he.1
  subst hw
  refine ⟨_, rfl, ?_⟩
  rw [State.onDie_of he.1 he.2]
  dsimp only
  rw [if_pos hopens]
  exact State.shows_settleChannels hk (fun _ _ => rfl) (State.shows_modDie hk he.2 rfl)

end

/-- Settles O8: the conditions of a clause leave one branch of the command, and what follows its change of the die (the judgement of
the references, the channels, a check of a wire) does not touch what the clause shows. -/
theorem precisionCommandsComplete : Obligations.PrecisionCommandsComplete := fun _ _ _ _ hd =>
  ⟨fun _ _ _ _ _ _ hr hp hs hw hgrid he => Runs.of (execPrecisionSample_of hd hr hp hs hw hgrid he) rfl,
    fun _ zero _ _ hw he hr hp hheld hok ht => execSpareDwellStep_shows hw he hr hp zero hheld hok ht,
    fun hp ht => execWarmExpire_shows hd hp ht,
    fun ratio hp hfree => execRefMonitorSample_shows ratio hd hp hfree,
    fun hp hn ht => execRefIntervalClose_shows hd hp hn ht,
    fun _ _ hw he hr hp hg hon ht => execGateWindowOpen_shows hw he hr hp hg hon ht,
    fun _ hw he => execGateWindowClose_shows hd hw he⟩

end Sys2Proof.Machine
end

section
/-! A trigger that a gateway takes at an instant before its own time (R78, R97, R272, R493). -/

namespace Sys2Proof.Machine

section
variable {s : State} {t k x : Nat} {d : Die} {c : Capture}

theorem execCaptureTimerTrigger_of (hd : s.hasDie k d) (hc : d.fast.cap = some c) (hsrc : c.src = 0) (hn : c.triggered = false)
    (hx : c.tTrig = some x) (hdue : x ≤ t) : exec (.captureTimerTrigger t k) s = .next ((s.at_ t).triggerCapture k x) := by
  show execCaptureTimerTrigger t k s = _
  unfold execCaptureTimerTrigger
  dsimp only
  rw [State.onDie_of (s := s.at_ t) hd.1 hd.2, hc]
  dsimp only
  rw [hx]
  exact congrArg Host.Outcome.next (if_pos ⟨hsrc, by simp [hn], hdue⟩)

/-- Whether the path stands at the trigger's frame is judged by the part's own time. -/
theorem State.triggerCapture_missed (hd : s.hasDie k d) (hc : d.fast.cap = some c) (hn : c.triggered = false)
    (hstop : d.stoppedAt s.now (trigHold x) = true) : s.triggerCapture k x = s.missTrigger k c := by
  unfold State.triggerCapture
  rw [State.onDie_of hd.1 hd.2, hc]
  dsimp only
  rw [if_neg (by simp [hn]), if_pos hstop]

/-- After a missed trigger a capture without a period is gone (R97, R493). -/
theorem State.missTrigger_shows (hd : s.hasDie k d) (hp : c.period = 0) : (s.missTrigger k c).dieShows k (·.fast.cap) none := by
  unfold State.missTrigger
  dsimp only
  rw [if_pos hp, State.dieShows, State.die?_congr (State.completeOpt_dies ..)]
  refine State.shows_dieEventFull (fun _ _ _ => rfl) (State.shows_modDie (State.fitted_pos hd.1) hd.2 ?_)
  rw [FastState.proceed, if_pos hp]

end

/-- An armed timer capture with T_TRIG at 5 µs. -/
def timerCapture : Capture :=
  { id := 0, a := 5000, src := 0, scope := false, pre := 0, post := 1, delay := 0, timeoutMs := 0, period := 0, k := 0, tTrig := some 5000,
    triggered := false, first := 5000, next := 5000, counted := 5000, delivered := 0, block := 0, deratedAtArm := false, aborted := false,
    stop := none, cmd := none }

/-- A die whose fast path runs since 10 µs and holds that capture. -/
def lateDie : Die :=
  { Die.initial with fastOn := true, fast := { FastState.initial with startedAt := some 10000, cap := some timerCapture } }

/-- A gateway with that die whose pack time is 20 µs. -/
def lateGateway : State := { State.reset with now := 20000, part := { State.reset.part with role := 1 }, dies := [lateDie] }

theorem lateGateway_hasDie : lateGateway.hasDie 1 lateDie := ⟨by decide, rfl⟩

/-- The pack time of a gateway never falls (R272). -/
theorem lateGateway_now : (lateGateway.at_ 5000).now = 20000 := by decide

theorem lateGateway_misses : Runs (.captureTimerTrigger 5000 1) lateGateway fun s' => s'.dieShows 1 (·.fast.cap) none := by
  refine Runs.of (execCaptureTimerTrigger_of lateGateway_hasDie rfl rfl rfl rfl (Nat.le_refl _)) ?_
  have hstop : lateDie.stoppedAt (lateGateway.at_ 5000).now (trigHold 5000) = true := by
    rw [lateGateway_now]
    decide
  rw [State.triggerCapture_missed (s := lateGateway.at_ 5000) lateGateway_hasDie rfl rfl hstop]
  exact State.missTrigger_shows (s := lateGateway.at_ 5000) lateGateway_hasDie rfl

/-- Refutes O10: its clause on T_TRIG asks by the operand t whether the path had stopped at the trigger's frame, but a gateway whose pack
time is past t acts at its own time (R272), by which a path that has started in between had not run at that frame, so that the trigger is
missed and the capture closed. -/
theorem not_fastPathCommandsComplete : ¬ Obligations.FastPathCommandsComplete := by
  rintro ⟨-, htimer, -⟩
  obtain ⟨s', hnext, htriggered⟩ := htimer 5000 1 5000 lateDie timerCapture lateGateway lateGateway_hasDie rfl rfl rfl rfl (Nat.le_refl _) (by decide)
  obtain ⟨u, hmissed, hnone⟩ := lateGateway_misses
  obtain rfl : s' = u := Host.Outcome.next.inj (hnext.symm.trans hmissed)
  obtain ⟨d, hd, hcap⟩ := Option.map_eq_some_iff.1 hnone
  rw [State.dieShows, hd, Option.map_some, hcap] at htriggered
  cases htriggered

end Sys2Proof.Machine
end

section
/-! Safety frames, the host mailbox and the watchdogs (R83, R365, R375, R382 to R385). -/

namespace Sys2Proof.Machine

/-! ### What switching outputs leaves of the safety block -/

/-- The safety block without its outputs. -/
def SafeState.sansOuts (x : SafeState) : SafeState := { x with outs := [] }

theorem State.setOut_sansOuts (s : State) (k : Nat) (on : Bool) : (s.setOut k on).safe.sansOuts = s.safe.sansOuts := by
  unfold State.setOut
  split <;> rfl

theorem foldl_sansOuts {α : Type} {f : State → α → State} (h : ∀ s a, (f s a).safe.sansOuts = s.safe.sansOuts) (l : List α) (s : State) :
    (l.foldl f s).safe.sansOuts = s.safe.sansOuts := by
  induction l generalizing s with
  | nil => rfl
  | cons a l ih => exact (ih _).trans (h _ _)

theorem State.outsOff_sansOuts (s : State) : s.outsOff.safe.sansOuts = s.safe.sansOuts := foldl_sansOuts (fun s k => s.setOut_sansOuts k false) _ s

theorem State.evalOuts_sansOuts (s : State) : s.evalOuts.safe.sansOuts = s.safe.sansOuts := by
  refine foldl_sansOuts (fun s k => ?_) _ s
  split
  · split
    · rfl
    · exact s.setOut_sansOuts k false
  · split
    · exact s.setOut_sansOuts k true
    · rfl

theorem State.evalOuts_watch (s : State) : s.evalOuts.safe.watch = s.safe.watch :=
  (congrArg SafeState.watch s.evalOuts_sansOuts :)

theorem State.evalOuts_lockout (s : State) : s.evalOuts.safe.lockout = s.safe.lockout :=
  (congrArg SafeState.lockout s.evalOuts_sansOuts :)

/-- Without HOST_OK no output is allowed, so R365 switches every one off. -/
theorem State.evalOuts_eq_outsOff {s : State} (h : s.safe.hostOk = false) : s.evalOuts = s.outsOff := by
  have off (u : State) (k : Nat) (hu : u.safe.hostOk = false) :
      (if u.outOn k then (if u.outAllowed k && bit u.safe.req k then u else u.setOut k false)
        else if u.outAllowed k && bit u.safe.req k && !u.pendSafety then u.setOut k true else u) = u.setOut k false := by
    have hnot : u.outAllowed k = false := by simp [State.outAllowed, hu]
    cases hon : u.outOn k <;> simp [hnot, State.setOut, hon]
  unfold State.evalOuts State.outsOff
  generalize List.range 3 = l
  induction l generalizing s with
  | nil => rfl
  | cons k l ih =>
    rw [List.foldl_cons, List.foldl_cons, off s k h]
    exact ih ((congrArg SafeState.hostOk (s.setOut_sansOuts k false)).trans h)

/-! ### A lock-out that is latched (R375) -/

theorem State.heartStop_safe (s : State) : s.heartStop.safe = { s.safe with reported := true, heartbeat := false } := by
  unfold State.heartStop
  dsimp only
  split
  · rw [State.event_safe]
    rfl
  · next h => rw [← Bool.eq_false_iff.2 h]

theorem State.latch_lockout {s : State} (cause : Nat) (hg : s.isGateway = true) : (s.latch cause).safe.lockout = true := by
  unfold State.latch
  rw [if_neg (by simp [hg])]
  split
  · next hl => split <;> exact hl
  · rw [State.event_safe, State.heartStop_safe]
    exact (congrArg SafeState.lockout (State.outsOff_sansOuts _)).trans rfl

theorem State.latch_watch (s : State) (cause : Nat) : (s.latch cause).safe.watch = s.safe.watch := by
  unfold State.latch
  split
  · rfl
  · split
    · split <;> rfl
    · rw [State.event_safe, State.heartStop_safe]
      exact (congrArg SafeState.watch (State.outsOff_sansOuts _)).trans rfl

/-! ### The watchdog of a position (R385) -/

theorem State.watchOf_congr {s u : State} (h : s.safe.watch = u.safe.watch) (p : Nat) : s.watchOf p = u.watchOf p := by
  unfold State.watchOf
  rw [h]

/-- An armed watchdog is one of those that there are, so a change of it is seen. -/
theorem State.watchOf_modWatch {s : State} {p : Nat} (f : WatchPos → WatchPos) (h : (s.watchOf p).armed = true) :
    (s.modWatch p f).watchOf p = f (s.watchOf p) := by
  unfold State.watchOf State.modWatch at *
  rw [List.getD_eq_getElem?_getD] at h ⊢
  rw [List.getD_eq_getElem?_getD, modNth_getElem?_same]
  cases hw : s.safe.watch[p]? with
  | none => simp [hw] at h
  | some w => rfl

/-- What the expiry of the watchdog of position p does (R385). -/
def State.failWatch (s : State) (p : Nat) : State :=
  (((s.modWatch p fun w => { w with failed := true }).event { source := 11, subkind := 1, item := p }).latch 11).evalOuts

theorem State.failWatch_failed {s : State} {p : Nat} (h : (s.watchOf p).armed = true) : ((s.failWatch p).watchOf p).failed = true := by
  have hwatch : (s.failWatch p).safe.watch = (s.modWatch p fun w => { w with failed := true }).safe.watch := by
    unfold State.failWatch
    rw [State.evalOuts_watch, State.latch_watch, State.event_safe]
  rw [State.watchOf_congr hwatch, State.watchOf_modWatch _ h]

theorem State.event_isGateway (s : State) (e : Ev) : (s.event e).isGateway = s.isGateway := by
  unfold State.isGateway
  rw [State.event_part_role]

theorem State.failWatch_lockout {s : State} (p : Nat) (hg : s.isGateway = true) : (s.failWatch p).safe.lockout = true := by
  unfold State.failWatch
  rw [State.evalOuts_lockout]
  exact State.latch_lockout 11 ((State.event_isGateway ..).trans hg)

theorem State.isGateway_of_safeRuns {s : State} (h : s.safeRuns = true) : s.isGateway = true := by
  simp only [State.safeRuns, Bool.and_eq_true] at h
  obtain ⟨⟨⟨hg, _⟩, _⟩, _⟩ := h
  exact hg

/-! ### The commands -/

/-- A safety frame that the gateway takes: it counts as an error of its connection, or it is valid (R382). -/
def State.takeSafetyFrame (s : State) (b : List Byte) : State :=
  match s.frameError b (fun q => s.positions.contains q) (s.watchOf (bits (rd b 0 2) 5 0)).lastSeq true with
  | some e => (s.countFrameError (rd b 0 2) e).connError (bits (rd b 0 2) 5 0)
  | none => s.validFrame (bits (rd b 0 2) 5 0) b

theorem execSafetyFrameReceive_of {t : Nat} {bytes : List Byte} {s w : State} (ha : (s.at_ t).accept (frameOf bytes) = (.deliver, w))
    (hr : w.safeRuns = true) (htc : (frameOf bytes).tc = 0) (hk : (frameOf bytes).kind = 4 ∨ (frameOf bytes).kind = 5) :
    exec (.safetyFrameReceive t bytes) s = .next (w.takeSafetyFrame (frameOf bytes).payload) := by
  have hsafe : ((frameOf bytes).kind == 4 || (frameOf bytes).kind == 5) = true := by simpa using hk
  show execSafetyFrameReceive t bytes s = _
  unfold execSafetyFrameReceive
  dsimp only
  rw [ha, if_neg (by simp [hr, htc, hsafe])]
  rfl

/-- One service of the mailbox: the host's frame is taken and the status frame is written behind it (R384). -/
def State.serveMbox (s : State) (box : Nat) (bytes : List Byte) : State :=
  let u := (s.emit (.hostRead box 32)).hostFrame (slice bytes 0 32)
  (u.formSafety 0x11 {} u.statusAux true).2.emit (.hostWrite (box + 32) (u.formSafety 0x11 {} u.statusAux true).1)

theorem execSafetyMboxService_of {t : Nat} {bytes : List Byte} {s : State} (hr : s.safeRuns = true) (hb : s.fB 0x14 0 0x018 0 = true)
    (he : s.hif.en = true) (hp : s.sF 0x018 15 8 ≠ 0) (ht : t % (s.sF 0x018 15 8 * 1000000) = 0) :
    exec (.safetyMboxService t bytes) s =
      .next ((s.at_ t).serveMbox (s.regF 0x14 0 0x01C + 2 ^ 32 * s.regF 0x14 0 0x020) bytes) := by
  have hdue : ¬(!(s.at_ t).safeRuns || !(s.at_ t).fB 0x14 0 0x018 0 || !(s.at_ t).hif.en ||
      decide ((s.at_ t).sF 0x018 15 8 * 1000000 = 0) || decide (t % ((s.at_ t).sF 0x018 15 8 * 1000000) ≠ 0)) = true := by
    have hper : s.sF 0x018 15 8 * 1000000 ≠ 0 := Nat.mul_ne_zero hp (by decide)
    rw [State.safeRuns_at_, State.fB_at_, State.at__hif, State.sF_at_, hr, hb, he, decide_eq_false hper, decide_eq_false (not_not_intro ht)]
    exact Bool.false_ne_true
  show execSafetyMboxService t bytes s = _
  unfold execSafetyMboxService
  dsimp only
  rw [if_neg hdue]
  rfl

/-- The host is silent: HOST_OK and every request clear, and each request must be seen at 0 again (R365, R384). -/
def State.loseHost (s : State) : State :=
  { s with safe := { s.safe with hostOk := false, req := 0, outs := s.safe.outs.map fun (o : SafeOut) => { o with edge := false } } }

theorem execHostWatchdogExpire_of {t : Nat} {s : State} (h : s.safe.hostOk = true) (ht : s.safe.hostAt + s.sF 0x018 31 16 * 1000000 ≤ t) :
    exec (.hostWatchdogExpire t) s =
      .next (((s.at_ t).loseHost.event { source := 10, subkind := 3, arg16 := (s.at_ t).loseHost.connId 63 }).evalOuts) := by
  have hdue : ¬(!(s.at_ t).safe.hostOk || decide (t < (s.at_ t).safe.hostAt + (s.at_ t).sF 0x018 31 16 * 1000000)) = true := by
    rw [State.at__safe, State.sF_at_, h, decide_eq_false (Nat.not_lt.2 ht)]
    exact Bool.false_ne_true
  show execHostWatchdogExpire t s = _
  unfold execHostWatchdogExpire
  dsimp only
  rw [if_neg hdue]
  rfl

theorem execWatchdogExpire_of {t p : Nat} {s : State} (hr : s.safeRuns = true) (hms : t % 1000000 = 0) (ha : (s.watchOf p).armed = true)
    (hf : (s.watchOf p).failed = false) (ht : (s.watchOf p).lastAt + s.sF 0 31 16 * 1000000 ≤ t) :
    exec (.watchdogExpire t p) s = .next ((s.at_ t).failWatch p) := by
  have hw : (s.at_ t).watchOf p = s.watchOf p := rfl
  have hdue : ¬(!(s.at_ t).safeRuns || decide (t % 1000000 ≠ 0) || !(s.watchOf p).armed || (s.watchOf p).failed ||
      decide (t < (s.watchOf p).lastAt + (s.at_ t).sF 0 31 16 * 1000000)) = true := by
    rw [State.safeRuns_at_, State.sF_at_, hr, decide_eq_false (not_not_intro hms), ha, hf, decide_eq_false (Nat.not_lt.2 ht)]
    exact Bool.false_ne_true
  show execWatchdogExpire t p s = _
  unfold execWatchdogExpire
  dsimp only
  rw [hw, if_neg hdue]
  rfl

theorem execFaultNoticeFrameReceive_of {t : Nat} {bytes : List Byte} {s w : State} (ha : (s.at_ t).accept (frameOf bytes) = (.deliver, w))
    (htc : (frameOf bytes).tc = 0) (hk : (frameOf bytes).kind = 3) (hl : (frameOf bytes).payload.length = 16)
    (hc : Poly.crc16.check ((frameOf bytes).payload.take 14) = rd (frameOf bytes).payload 14 2) :
    exec (.faultNoticeFrameReceive t bytes) s =
      .next (w.islands.foldl (fun u k => u.faultTrigger k (rd (frameOf bytes).payload 4 8) true) w) := by
  show execFaultNoticeFrameReceive t bytes s = _
  unfold execFaultNoticeFrameReceive
  dsimp only
  rw [ha, if_neg (by simp [htc, hk]), if_neg (by simp [hl, hc])]

theorem execGatewayHeartbeatReceive_of {t : Nat} {bytes : List Byte} {s w : State} (ha : (s.at_ t).accept (frameOf bytes) = (.deliver, w))
    (hm : w.isModule = true) (htc : (frameOf bytes).tc = 0) (hk : (frameOf bytes).kind = 5)
    (he : w.frameError (frameOf bytes).payload (fun q => q == 0) w.safe.gwSeq true = none) :
    exec (.gatewayHeartbeatReceive t bytes) s =
      .next { w with safe := { w.safe with gwOk := true, gwAt := t, gwSeq := some (rd (frameOf bytes).payload 2 2) } } := by
  show execGatewayHeartbeatReceive t bytes s = _
  unfold execGatewayHeartbeatReceive
  dsimp only
  rw [ha, if_neg (by simp [hm, htc, hk])]
  dsimp only
  rw [he]

theorem execGwOkTimeout_of {t : Nat} {s : State} (h : s.safe.gwOk = true) (ht : s.safe.gwAt + s.sF 0 31 16 * 1000000 ≤ t) :
    exec (.gwOkTimeout t) s = .next { s.at_ t with safe := { s.safe with gwOk := false, gwSeq := none } } := by
  have hdue : ¬(!(s.at_ t).safe.gwOk || decide (t < (s.at_ t).safe.gwAt + (s.at_ t).sF 0 31 16 * 1000000)) = true := by
    rw [State.at__safe, State.sF_at_, h, decide_eq_false (Nat.not_lt.2 ht)]
    exact Bool.false_ne_true
  show execGwOkTimeout t s = _
  unfold execGwOkTimeout
  dsimp only
  rw [if_neg hdue]
  rfl

/-- What a silent host leaves (R384): the loss of HOST_OK is made before the outputs are evaluated, and they do not touch it. -/
theorem execHostWatchdogExpire_shows {t : Nat} {s : State} (h : s.safe.hostOk = true) (ht : s.safe.hostAt + s.sF 0x018 31 16 * 1000000 ≤ t) :
    Runs (.hostWatchdogExpire t) s fun s' => s'.safe.hostOk = false ∧ s'.safe.req = 0 ∧ ∀ k, k < 3 → s'.outOn k = false := by
  refine Runs.of (execHostWatchdogExpire_of h ht) ?_
  generalize hu : (s.at_ t).loseHost.event _ = u
  have hsafe : u.safe = (s.at_ t).loseHost.safe := by rw [← hu, State.event_safe]
  have hok : u.safe.hostOk = false := by rw [hsafe]; rfl
  have hreq : u.safe.req = 0 := by rw [hsafe]; rfl
  have hkept := State.evalOuts_sansOuts u
  refine ⟨(congrArg SafeState.hostOk hkept).trans hok, (congrArg SafeState.req hkept).trans hreq, fun k hk => ?_⟩
  rw [State.evalOuts_eq_outsOff hok]
  exact State.outsOff_off u k hk

/-- Settles O24: with the conditions of a clause the command takes the branch that the clause describes; the evaluation of the outputs
and the latch of a lock-out leave HOST_OK, the requests and the watchdogs as they find them. -/
theorem safetyFrameCommandsComplete : Obligations.SafetyFrameCommandsComplete := by
  refine ⟨fun t bytes s w ha hr htc hk p b hb hp => ?_, fun t box bytes s u hr hb he hp ht hbox hu => ?_,
    fun t s h ht => execHostWatchdogExpire_shows h ht, fun t p s hr hms ha hf ht => ?_,
    fun t bytes s w ha htc hk hl hc => Runs.of (execFaultNoticeFrameReceive_of ha htc hk hl hc) rfl,
    fun t bytes s w ha hm htc hk he => Runs.of (execGatewayHeartbeatReceive_of ha hm htc hk he) ⟨rfl, rfl, rfl⟩,
    fun t s h ht => Runs.of (execGwOkTimeout_of h ht) ⟨rfl, rfl⟩⟩
  · subst hp hb
    exact Runs.of (execSafetyFrameReceive_of ha hr htc hk) rfl
  · subst hu hbox
    exact Runs.of (execSafetyMboxService_of hr hb he hp ht) rfl
  · have hg : (s.at_ t).isGateway = true := State.isGateway_of_safeRuns hr
    exact Runs.of (execWatchdogExpire_of hr hms ha hf ht) ⟨State.failWatch_failed (s := s.at_ t) ha, State.failWatch_lockout p hg⟩

end Sys2Proof.Machine
end

section
/-! Served commands on captures, power states, single-wire searches and the lock-out (R78, R98, R236, R351, R352, R379, R414, R417). -/

namespace Sys2Proof.Machine

/-- A command that is served has the effect of its opcode on the served state. -/
theorem State.serves_serve {s : State} {code : Nat} {c : Cmd} {mine : Bool} {f : State → State} (t : Nat) (h : s.serves code c) (hm : mine = true) :
    (s.at_ t).serve code c mine f = f (s.served t c) := by
  obtain ⟨hexec, hmine, hpresent, hrun, hrefusal⟩ := h
  exact State.serve_of (s := s.at_ t) hexec hmine hm hpresent hrun hrefusal

/-- A part that serves a command is in RUN. -/
theorem State.serves_run {s : State} {code : Nat} {c : Cmd} (h : s.serves code c) : s.power.st = 0 := by
  obtain ⟨_, _, _, hrun, _⟩ := h
  exact hrun

/-! ### What the end of the fast streams leaves of Apex (R98) -/

theorem ite_trust {c : Prop} {_ : Decidable c} {a b : State} {x : TrustState} (ha : a.trust.still = x) (hb : b.trust.still = x) :
    (if c then a else b).trust.still = x := by split <;> assumption

theorem onDie_trust {s : State} {k : Nat} {f : Die → State} {x : TrustState} (h : ∀ d, (f d).trust.still = x) (hs : s.trust.still = x) :
    (s.onDie k f).trust.still = x := by
  unfold State.onDie
  split
  · split
    · exact h _
    · exact hs
  · exact hs

theorem foldl_trust {α : Type} {f : State → α → State} (h : ∀ s a, (f s a).trust.still = s.trust.still) (l : List α) (s : State) :
    (l.foldl f s).trust.still = s.trust.still := by
  induction l generalizing s with
  | nil => rfl
  | cons a l ih => exact (ih _).trans (h _ _)

theorem trust_modDie {s u : State} {k : Nat} {f : Die → Die} (hu : u.trust.still = s.trust.still) : (u.modDie k f).trust.still = s.trust.still :=
  (congrArg TrustState.still (State.modDie_trust u k f)).trans hu

theorem State.dieEvent_trust (s : State) (k : Nat) (e : Ev) : (s.dieEvent k e).trust.still = s.trust.still :=
  ite_trust (State.eventAt_trust ..) (trust_modDie rfl)

theorem State.flushStream_trust (s : State) (k : Nat) (last abort : Bool) : (s.flushStream k last abort).trust.still = s.trust.still :=
  onDie_trust (fun _ => ite_trust rfl (trust_modDie (trust_modDie rfl))) rfl

theorem State.unarm_trust (s : State) (c : Capture) : (s.unarm c).trust.still = s.trust.still :=
  ite_trust (Kept.trust_eq (State.tellArmed_kept ..)) rfl

theorem State.abortCapture_trust (s : State) (k : Nat) (arm : Bool) : (s.abortCapture k arm).trust.still = s.trust.still := by
  refine onDie_trust (fun d => ?_) rfl
  split
  · rfl
  · exact (State.completeOpt_trust ..).trans ((State.unarm_trust ..).trans ((State.dieEvent_trust ..).trans (trust_modDie rfl)))

theorem State.stopInjection_trust (s : State) (k : Nat) : (s.stopInjection k).trust.still = s.trust.still := trust_modDie (trust_modDie rfl)

theorem State.stopFast_trust (s : State) (k : Nat) : (s.stopFast k).trust.still = s.trust.still :=
  (State.stopInjection_trust ..).trans (trust_modDie ((State.flushStream_trust ..).trans (State.abortCapture_trust ..)))

theorem State.fastOff_trust (s : State) (k : Nat) : (s.fastOff k).trust.still = s.trust.still :=
  onDie_trust (fun _ => ite_trust (trust_modDie (State.stopFast_trust s k)) rfl) rfl

theorem State.fastUp_trust (s : State) (k : Nat) : (s.fastUp k).trust.still = s.trust.still :=
  onDie_trust (fun _ => ite_trust rfl (trust_modDie rfl)) rfl

theorem State.fastDomain_trust (s : State) (k : Nat) : (s.fastDomain k).trust.still = s.trust.still :=
  onDie_trust (fun _ => ite_trust (State.fastUp_trust s k) (State.fastOff_trust s k)) rfl

theorem State.closeFastStream_trust (s : State) (k id : Nat) : (s.closeFastStream k id).trust.still = s.trust.still :=
  onDie_trust (fun _ => trust_modDie (ite_trust (State.flushStream_trust ..) rfl)) rfl

theorem State.closeFastStreams_trust (s : State) (k : Nat) : (s.closeFastStreams k).trust.still = s.trust.still :=
  onDie_trust (fun _ => (foldl_trust (fun s id => State.closeFastStream_trust s k id) _ _).trans rfl) rfl

/-! ### The power states (R414, R417, R437) -/

theorem State.doze_trust (s : State) : s.doze.trust.still = s.trust.still :=
  (foldl_trust (fun s k => (State.closeFastStreams_trust ..).trans (State.fastDomain_trust s k)) _ _).trans rfl

/-- DOZE is entered with the power block set to it, which the end of the fast paths leaves alone (R404, R414). -/
theorem State.doze_power (s : State) : s.doze.power = { s.power with st := 1, lastSt := 1 } := by
  have hsteady := foldl_steady (fun u k => (State.closeFastStreams_steady (u.fastDomain k) k).trans (State.fastDomain_steady u k)) s.accrueTest.islands
    { s.accrueTest with power := { s.power with st := 1, lastSt := 1 } }
  exact (congrArg Steady.power hsteady :)

section
variable {t : Nat} {c : Cmd} {s : State}

theorem execPowerStateRun_of (h : s.serves 0x0D c) (hp : rd c.param 0 1 = 0) :
    exec (.powerStateRun t c) s = .next (((s.served t c).modPower fun p => { p with dozeTgt := false }).complete c .success s.power.st) := by
  show execPowerStateRun t c s = _
  unfold execPowerStateRun
  rw [State.serves_serve t h (by simp [hp]), if_neg (not_not_intro hp)]
  rfl

theorem execPowerStateDoze_of (h : s.serves 0x0D c) (hp : rd c.param 0 1 = 1) :
    exec (.powerStateDoze t c) s = .next (((s.served t c).modPower fun p => { p with dozeTgt := true }).complete c .success s.power.st) := by
  show execPowerStateDoze t c s = _
  unfold execPowerStateDoze
  rw [State.serves_serve t h (by simp [hp])]
  rfl

/-- A FULL session that keeps awake holds SLEEP: DOZE becomes a target and is entered (R437). -/
def State.holdSleep (s : State) : State :=
  ((s.modTrust fun x => { x with sleepHeld := true }).modPower fun p => { p with dozeTgt := true }).doze

theorem execPowerStateSleep_of (h : s.serves 0x0D c) (hp : rd c.param 0 1 = 2) :
    exec (.powerStateSleep t c) s = .next (if s.trust.session = 2 ∧ s.trust.keepAwake = true then (s.served t c).holdSleep.complete c .success 1
      else ((s.served t c).complete c .success 0).askLow 2 (c.dest == 63)) := by
  show execPowerStateSleep t c s = _
  unfold execPowerStateSleep
  rw [State.serves_serve t h (by simp [hp])]
  rfl

theorem State.holdSleep_completes (s : State) (c : Cmd) (r : Nat) :
    (s.holdSleep.complete c .success r).power.dozeTgt = true ∧ (s.holdSleep.complete c .success r).trust.sleepHeld = true := by
  have hpower := Kept.power_eq (State.complete_kept s.holdSleep c .success r)
  have htrust := (State.complete_trust s.holdSleep c .success r).trans (State.doze_trust _)
  rw [hpower, State.holdSleep, State.doze_power]
  exact ⟨rfl, (congrArg TrustState.sleepHeld htrust :)⟩

theorem execPowerStateShip_of (h : s.serves 0x0D c) (hp : rd c.param 0 1 = 3) :
    exec (.powerStateShip t c) s = .next (((s.served t c).complete c .success 0).askLow 3 (c.dest == 63)) := by
  show execPowerStateShip t c s = _
  unfold execPowerStateShip
  rw [State.serves_serve t h (by simp [hp])]

/-! ### Captures (R78, R98, R352) -/

theorem execCaptureArm_of (h : s.serves 0x09 c) (ha : rd c.param 0 1 = 0) (hm : bits (cellWord s.cfg.a 0x02 c.target 0) 7 6 = 1)
    (ht : rd c.param 8 8 = 0 ∨ (s.served t c).tq ≠ 3) (hd : ∀ d, s.die? c.target = some d → d.fast.cap = none) :
    exec (.captureArm t c) s = .next ((s.served t c).armCapture c.target
      (if rd c.param 8 8 = 0 then ((s.served t c).now / 1000000 + 1) * 1000000 else rd c.param 8 8) c) := by
  have hmode : ¬(rd c.param 0 1 ≠ 0 ∨ bits (cellWord (s.served t c).cfg.a 0x02 c.target 0) 7 6 ≠ 1) := not_or.2 ⟨not_not_intro ha, not_not_intro hm⟩
  have htimed : ¬(rd c.param 8 8 ≠ 0 ∧ (s.served t c).tq = 3) := fun ⟨h0, h3⟩ => ht.elim h0 (· h3)
  have hfree : ¬(((s.served t c).die? c.target).map fun d => d.fast.cap.isSome).getD false = true := by
    show ¬((s.die? c.target).map fun d => d.fast.cap.isSome).getD false = true
    cases hdie : s.die? c.target with
    | none => exact Bool.false_ne_true
    | some d => simp [hd d hdie]
  show execCaptureArm t c s = _
  unfold execCaptureArm
  rw [State.serves_serve t h (by simp [ha])]
  dsimp only
  rw [if_neg hmode, if_neg htimed, if_neg hfree]

theorem execCaptureDisarm_of (h : s.serves 0x09 c) (ha : rd c.param 0 1 = 1) :
    exec (.captureDisarm t c) s = .next (((s.served t c).abortCapture c.target true).complete c .success 0) := by
  show execCaptureDisarm t c s = _
  unfold execCaptureDisarm
  rw [State.serves_serve t h (by simp [ha])]

/-- What a fetch of a capture gives (R352): the blocks in range that its buffer takes, which are released, with `live` what the die
still holds of the capture. -/
def State.fetchCapture (s : State) (c : Cmd) (lost : List Nat) (live : Option Capture) : State :=
  let held := s.captureBlocks c.target (rd c.param 4 4)
  let top := held.foldl (fun m x => max m (x.1 + 1)) ((live.map (·.block)).getD 0)
  let mine := held.filter fun x => decide (rd c.param 8 2 ≤ x.1) && decide (x.1 < rd c.param 8 2 + rd c.param 10 2)
  let r := fillWith c.bufLen (withLost (mine.map (·.2)) lost [])
  let gone := (min (rd c.param 8 2 + rd c.param 10 2) top - rd c.param 8 2) - mine.length
  (mine.take r.2.1).foldl (fun u x => u.releaseD3 x.2.id true)
    (s.completeData c (if r.2.2 = true then .recordLost else .success) (fld 0 16 r.2.1 + fld 16 16 (sat 16 gone)) r.1)

theorem execCaptureFetch_of {lost : List Nat} {live : Option Capture} (h : s.serves 0x0A c)
    (hl : live = ((s.die? c.target).map fun d => d.fast.captures.find? fun x => x.id == rd c.param 4 4).getD none) (hn : rd c.param 10 2 ≠ 0)
    (hsome : (s.served t c).captureBlocks c.target (rd c.param 4 4) ≠ [] ∨ live.isSome = true) :
    exec (.captureFetch t c lost) s = .next ((s.served t c).fetchCapture c lost live) := by
  have hlive : (((s.served t c).die? c.target).map fun d => d.fast.captures.find? fun x => x.id == rd c.param 4 4).getD none = live := hl.symm
  have hknown : ¬(((s.served t c).captureBlocks c.target (rd c.param 4 4)).isEmpty && live.isNone) = true := by
    rw [Bool.and_eq_true, List.isEmpty_iff, Option.isNone_iff_eq_none]
    rintro ⟨hempty, rfl⟩
    exact hsome.elim (· hempty) (by simp)
  show execCaptureFetch t c lost s = _
  unfold execCaptureFetch
  rw [State.serves_serve t h rfl]
  dsimp only
  rw [hlive, if_neg hn, if_neg hknown]
  rfl

end

/-! ### Single-wire ports (R236) -/

theorem State.swp_modSwp {s : State} {p : Nat} (f : SwpPort → SwpPort) (hp : p ≠ 0) : (s.modSwp p f).swp[p - 1]? = (s.swp[p - 1]?).map f := by
  unfold State.modSwp
  rw [if_neg hp]
  exact modNth_getElem?_same ..

theorem State.onSwp_of {s : State} {p : Nat} {x : SwpPort} {f : SwpPort → State} (hp : p ≠ 0) (hx : s.swp[p - 1]? = some x) :
    s.onSwp p f = f x := by
  unfold State.onSwp
  rw [if_neg hp, hx]

/-- What a changed port shows. -/
theorem State.shows_modSwp {α : Type} {s : State} {p : Nat} {x : SwpPort} {g : SwpPort → SwpPort} {f : SwpPort → α} {v : α} (hp : p ≠ 0)
    (hx : s.swp[p - 1]? = some x) (h : f (g x) = v) : (s.modSwp p g).portShows p f v := by
  unfold State.portShows
  rw [State.swp_modSwp g hp, hx]
  exact congrArg some h

/-- A port as a SENSOR_SEARCH leaves it: the command waits for a search. -/
def SwpPort.askedBy (c : Cmd) (x : SwpPort) : SwpPort := { x with cmds := x.cmds ++ [c], pendSearch := true }

theorem execSensorSearch_of {t : Nat} {c : Cmd} {s : State} {x : SwpPort} (h : s.serves 0x14 c) (hp : rd c.param 0 1 = 1 ∨ rd c.param 0 1 = 2)
    (hx : s.swp[rd c.param 0 1 - 1]? = some x) :
    exec (.sensorSearch t c) s = .next (
      if x.st = 2 ∧ x.inCycle = false then ((s.served t c).modSwp (rd c.param 0 1) (SwpPort.askedBy c)).startSearch (rd c.param 0 1) 1
      else (s.served t c).modSwp (rd c.param 0 1) (SwpPort.askedBy c)) := by
  have hp0 : rd c.param 0 1 ≠ 0 := by omega
  have hport : ((s.served t c).modSwp (rd c.param 0 1) (SwpPort.askedBy c)).swp[rd c.param 0 1 - 1]? = some (x.askedBy c) :=
    (State.swp_modSwp _ hp0).trans (congrArg (Option.map _) hx)
  show execSensorSearch t c s = _
  unfold execSensorSearch
  rw [State.serves_serve t h rfl]
  dsimp only
  rw [if_neg (by omega)]
  refine congrArg Host.Outcome.next ((State.onSwp_of hp0 hport).trans ?_)
  exact ite_congr (by simp [SwpPort.askedBy]) (fun _ => rfl) (fun _ => rfl)

/-- The search that starts at once takes the commands that waited, and the last of them. -/
theorem execSensorSearch_shows {t : Nat} {c : Cmd} {s : State} {x : SwpPort} (h : s.serves 0x14 c)
    (hp : rd c.param 0 1 = 1 ∨ rd c.param 0 1 = 2) (hx : s.swp[rd c.param 0 1 - 1]? = some x) :
    Runs (.sensorSearch t c) s fun s' => s'.portShows (rd c.param 0 1) (fun y => (y.pendSearch, y.cmds, y.runs))
      (if x.st = 2 ∧ x.inCycle = false then (false, [], x.cmds ++ [c]) else (true, x.cmds ++ [c], x.runs)) := by
  have hp0 : rd c.param 0 1 ≠ 0 := by omega
  refine Runs.of (execSensorSearch_of h hp hx) ?_
  split
  · exact State.shows_modSwp hp0 ((State.swp_modSwp _ hp0).trans (congrArg (Option.map _) hx)) rfl
  · exact State.shows_modSwp hp0 hx rfl

/-! ### The release of lock-out (R379, R380) -/

theorem State.sendSafety_lockout (s : State) (msg : Nat) (f : FaultInfo) : (s.sendSafety msg f).safe.lockout = s.safe.lockout := by
  unfold State.sendSafety
  dsimp only
  split
  · exact (congrArg SafeState.lockout (Kept.safe_eq (State.originate_kept ..))).trans rfl
  · rfl

theorem State.heartResume_lockout (s : State) : s.heartResume.safe.lockout = s.safe.lockout := by
  have beat (u : State) (e : Ev) (b : Bool) (hu : u.safe.lockout = s.safe.lockout) : (if b then u.event e else u).safe.lockout = s.safe.lockout := by
    split
    · rw [State.event_safe, hu]
    · exact hu
  unfold State.heartResume
  dsimp only
  split
  · rfl
  · split
    · rw [State.sendSafety_lockout]
      exact beat _ _ _ rfl
    · exact beat _ _ _ rfl

theorem State.releaseLockout_lockout (s : State) : s.releaseLockout.safe.lockout = false := by
  unfold State.releaseLockout
  dsimp only
  rw [State.heartResume_lockout, State.event_safe]

theorem execLockoutRelease_of {t : Nat} {c : Cmd} {s : State} (h : s.serves 0x16 c) (hg : s.isGateway = true)
    (hb : bit (rd s.trust.sealed_ 1 1) 0 = true) (hl : s.safe.lockout = true) (htok : slice c.param 0 16 = (s.served t c).releaseToken)
    (hr : (s.served t c).releasable = true) : exec (.lockoutRelease t c) s = .next ((s.served t c).releaseLockout.complete c .success 1) := by
  have hgate : (s.served t c).isGateway = true := hg
  have hallowed : bit (rd (s.served t c).trust.sealed_ 1 1) 0 = true := hb
  have hlocked : (s.served t c).safe.lockout = true := hl
  show execLockoutRelease t c s = _
  unfold execLockoutRelease
  rw [State.serves_serve t h rfl]
  rw [if_neg (by simp [hgate]), if_neg (by simp [hallowed]), if_neg (by simp [hlocked]), if_neg (not_not_intro htok), if_neg (by simp [hr])]

/-- Settles O40: a served command does what its opcode does, and the conditions of a clause leave one branch of it; DOZE, a completion
and the heartbeat leave what the clause shows as the branch has set it. -/
theorem captureAndPowerRequestsComplete : Obligations.CaptureAndPowerRequestsComplete := by
  rintro t c s w rfl
  refine ⟨fun h ha hm ht hd => Runs.of (execCaptureArm_of h ha hm ht hd) rfl, fun h ha => Runs.of (execCaptureDisarm_of h ha) rfl,
    fun lost held top live mine r h hheld hlive htop hmine hn hsome hr => ?_, fun h hp => ?_, fun h hp => ?_, fun h hp => ⟨fun hs => ?_, fun hs => ?_⟩,
    fun h hp => Runs.of (execPowerStateShip_of h hp) rfl, fun x h hp hx => execSensorSearch_shows h hp hx,
    fun h hg hb hl htok hr => Runs.of (execLockoutRelease_of h hg hb hl htok hr) ⟨?_, rfl⟩⟩
  · subst hr hmine htop hheld
    exact Runs.of (execCaptureFetch_of h hlive hn hsome) rfl
  · refine Runs.of (execPowerStateRun_of h hp) ?_
    rw [State.complete_power]
    exact ⟨rfl, (State.serves_run h :)⟩
  · refine Runs.of (execPowerStateDoze_of h hp) ?_
    rw [State.complete_power]
    exact ⟨rfl, (State.serves_run h :)⟩
  · refine Runs.of ((execPowerStateSleep_of h hp).trans ?_) (State.holdSleep_completes (s.served t c) c 1)
    rw [if_pos hs]
  · refine Runs.of (execPowerStateSleep_of h hp) ?_
    rw [if_neg hs]
  · rw [State.complete_safe, State.releaseLockout_lockout]

end Sys2Proof.Machine
end

section
/-! The auxiliary sequencer of a die: its words and the ends of its entries, the inserted calibration of M30, and urgent work
(R103, R105, R106, R113, R114, R189, R190). -/

namespace Sys2Proof.Machine

/-! ### A change that leaves a die as it is -/

theorem modNth_eq_self {α : Type} {f : α → α} {a : α} {i : Nat} {l : List α} (h : l[i]? = some a) (hf : f a = a) : modNth f i l = l := by
  induction l generalizing i with
  | nil => cases h
  | cons b l ih =>
    cases i with
    | zero =>
      obtain rfl : b = a := Option.some.inj h
      exact congrArg (· :: l) hf
    | succ i => exact congrArg (b :: ·) (ih h)

theorem State.modDie_eq_self {s : State} {k : Nat} {d : Die} {f : Die → Die} (hd : s.die? k = some d) (hf : f d = d) : s.modDie k f = s := by
  unfold State.modDie
  unfold State.die? at hd
  split
  · rfl
  · next hk =>
    rw [if_neg hk] at hd
    rw [modNth_eq_self hd hf]

/-! ### A reading judged once more (R189, R190) -/

theorem setBit_testBit (m i : Nat) (b : Bool) : (setBit m i b).testBit i = b := by
  unfold setBit
  cases hm : m.testBit i with
  | false =>
    cases b with
    | false => exact hm
    | true =>
      show (m + 2 ^ i).testBit i = true
      rw [Nat.add_comm, Nat.testBit_two_pow_add_eq, hm, Bool.not_false]
  | true =>
    cases b with
    | false =>
      have hle : 2 ^ i ≤ m := Nat.ge_two_pow_of_testBit hm
      have hsum := Nat.testBit_two_pow_add_eq (m - 2 ^ i) i
      rw [Nat.add_sub_cancel' hle, hm] at hsum
      exact Bool.not_eq_true' _ ▸ hsum.symm
    | true => exact hm

theorem setBit_of_testBit {m i : Nat} {b : Bool} (h : m.testBit i = b) : setBit m i b = m := by
  subst h
  unfold setBit
  cases m.testBit i <;> rfl

/-- What an entry that closes on a channel leaves of the sequencer: its reading judged, and no entry running. -/
def SeqState.closed (q : SeqState) (cal : CalState) (ch : Nat) : SeqState := { q.judgeRead cal ch with cur := none }

/-- A judgement writes down what the reading says and does not move the reading, so that it changes nothing when made again. -/
theorem SeqState.judgeRead_closed (q : SeqState) (cal : CalState) (ch : Nat) : (q.closed cal ch).judgeRead cal ch = q.closed cal ch := by
  unfold SeqState.closed SeqState.judgeRead SeqState.read
  cases hr : q.reads.find? fun r => r.channel == ch with
  | none => simp only [hr]
  | some r =>
    by_cases hid : ch = 0x80
    · simp only [if_pos hid, hr]
    · by_cases htherm : 1 ≤ ch ∧ ch ≤ 8
      · simp only [if_neg hid, if_pos htherm, hr, setBit_of_testBit (setBit_testBit ..)]
      · simp only [if_neg hid, if_neg htherm, hr]

/-! ### The end of an entry (R106) -/

section
variable {s : State} {k : Nat} {d : Die} {x : SeqRun}

/-- An entry that closes leaves its reading noted and judged, whether or not its record is delivered (R103, R189, R190). -/
theorem State.closeEntry_shows (hd : s.hasDie k d) (hx : d.seq.cur = some x) (hch : s.seqChannel k x.entry ≠ 0x81) (cut preempt : Bool) :
    (s.closeEntry k cut preempt).dieShows k (fun y => (y.seq, y.cal))
      ((d.seq.note (s.seqChannel k x.entry) (bits (s.seqMode k x.entry) 7 6) (bits (s.seqMode k x.entry) 5 4)
        (filtOrder (bit (s.seqMode k x.entry) 3)) s.now x.words).closed d.cal (s.seqChannel k x.entry), d.cal) := by
  have hk := State.fitted_pos hd.1
  have hwire : ¬ bits (s.seqCtrl k x.entry) 7 0 = 0x81 := hch
  unfold State.closeEntry
  rw [State.onDie_of hd.1 hd.2, hx]
  simp only [hwire, false_and, if_false]
  split
  · exact State.shows_dieRecord hk (fun _ _ _ => rfl) (State.shows_modDie hk hd.2 rfl)
  · exact State.shows_modDie hk hd.2 rfl

/-- The reading of an entry that has closed is judged (R189, R190). -/
theorem State.closeEntry_judged (hd : s.hasDie k d) (hx : d.seq.cur = some x) (hch : s.seqChannel k x.entry ≠ 0x81) (cut preempt : Bool) :
    ((s.closeEntry k cut preempt).modDie k fun y => { y with seq := y.seq.judgeRead y.cal (s.seqChannel k x.entry) }) =
      s.closeEntry k cut preempt := by
  obtain ⟨e, he, hshown⟩ := Option.map_eq_some_iff.1 (State.closeEntry_shows hd hx hch cut preempt)
  obtain ⟨hseq, hcal⟩ := Prod.mk.inj hshown
  have hjudged : e.seq.judgeRead e.cal (s.seqChannel k x.entry) = e.seq := by rw [hseq, hcal, SeqState.judgeRead_closed]
  refine State.modDie_eq_self he ?_
  rw [hjudged]

end

/-! ### Urgent work takes M30 (R114) -/

theorem State.startFrom_urgent {s : State} {k i t : Nat} {b : Bool} (h : s.dieShows k (·.seq.urgent) b) :
    (s.startFrom k i t).dieShows k (·.seq.urgent) b := by
  unfold State.startFrom
  split
  · exact State.shows_modDie_unseen (fun _ => rfl) h
  · refine State.shows_modDie_unseen (fun d => ?_) h
    split <;> rfl

/-- A block given back to M30 lets the table run on, and does not end urgent work (R115, R462). -/
theorem State.releaseSlice_urgent {s : State} {k block : Nat} {b : Bool} (h : s.dieShows k (·.seq.urgent) b) :
    (s.releaseSlice k block).dieShows k (·.seq.urgent) b := by
  have changed (g : Die → Die) (hg : ∀ d, (g d).seq.urgent = d.seq.urgent) : (s.modDie k g).dieShows k (·.seq.urgent) b :=
    State.shows_modDie_unseen hg h
  unfold State.releaseSlice
  split
  · refine shows_onDie (fun d => ?_) (changed _ fun _ => rfl)
    split
    · exact State.startFrom_urgent (changed _ fun _ => rfl)
    · exact changed _ fun _ => rfl
  · split
    · exact changed _ fun _ => rfl
    · split
      · exact changed _ fun _ => rfl
      · exact h

theorem State.abortSlice_urgent {s : State} {k : Nat} {b : Bool} (h : s.dieShows k (·.seq.urgent) b) :
    (s.abortSlice k).dieShows k (·.seq.urgent) b := by
  unfold State.abortSlice
  split
  · exact h
  · exact State.releaseSlice_urgent h

/-! ### Urgent work gives M30 back (R114, R221) -/

section
variable {s : State} {k : Nat} {d : Die}

theorem State.settleChannels_shows (hk : k ≠ 0) (hd : s.die? k = some d) :
    (s.settleChannels k).dieShows k (fun y => (y.prot.owRun, y.seq)) (d.prot.owRun, d.seq) := State.shows_modDie hk hd rfl

/-- The end of a check of a wire does not touch the sequencer (R221). -/
theorem State.owEnd_shows (hk : k ≠ 0) (hd : s.die? k = some d) :
    (s.owEnd k).dieShows k (fun y => (y.prot.owRun, y.seq)) (none, d.seq) := by
  obtain ⟨e, he, hshown⟩ := Option.map_eq_some_iff.1 (State.settleChannels_shows hk hd)
  obtain ⟨_, hseq⟩ := Prod.mk.inj hshown
  rw [← hseq]
  exact State.settleChannels_shows hk ((State.die?_modDie_same _ hk).trans (congrArg (Option.map _) he))

/-- What urgent work leaves when it ends, before the table resumes (R114, R221). -/
def State.urgentOver (s : State) (k : Nat) : State := (s.owEnd k).modDie k fun y => { y with seq := { y.seq with urgent := false } }

theorem State.urgentOver_shows (hk : k ≠ 0) (hd : s.die? k = some d) :
    (s.urgentOver k).dieShows k (fun y => (y.prot.owRun, y.seq)) (none, { d.seq with urgent := false }) := by
  obtain ⟨e, he, hshown⟩ := Option.map_eq_some_iff.1 (State.owEnd_shows hk hd)
  obtain ⟨hrun, hseq⟩ := Prod.mk.inj hshown
  exact State.shows_modDie hk he (by rw [hrun, hseq])

theorem State.urgentOver_fitted (s : State) (k j : Nat) : (s.urgentOver k).fitted j = s.fitted j := by
  simp [State.fitted, State.urgentOver, State.owEnd, State.settleChannels]

theorem State.endUrgent_of {e : Die} (hd : s.hasDie k d) (hu : d.seq.urgent = true) (he : (s.urgentOver k).hasDie k e) :
    s.endUrgent k =
      if !(s.urgentOver k).seqMay k e || !e.seq.running || e.seq.cur.isSome then s.urgentOver k
      else if 64 ≤ e.seq.resume then (s.urgentOver k).seqAdvance k (e.seq.resume - 64) (s.urgentOver k).now
      else (s.urgentOver k).startFrom k e.seq.resume (s.urgentOver k).now := by
  unfold State.endUrgent
  rw [State.onDie_of hd.1 hd.2, if_neg (by simp [hu])]
  exact State.onDie_of he.1 he.2

end

/-! ### The commands, after a swapped sequence block is taken (R116) -/

/-- The pulses of an entry on ID_1W change no die (R103). -/
theorem State.readIdOuts_die? (s : State) (k : Nat) (presence : Bool) (j : Nat) :
    ((readIdOuts k presence).foldl (fun s o => s.emit o) s).die? j = s.die? j := by
  cases presence <;> rfl

theorem execUrgentWorkEnd_of {t k : Nat} {s w : State} (hw : w = (s.at_ t).adoptSeq k) : exec (.urgentWorkEnd t k) s = .next (w.endUrgent k) := by
  subst hw
  rfl

section
variable {t k : Nat} {d : Die} {s w : State} (hw : w = (s.at_ t).adoptSeq k) (hd : w.hasDie k d)
include hw hd

/-- A conversion that ends at its instant within the entry adds its word, whether or not it moves a window (R106, R112). -/
theorem execSeqWord_shows (m : Rat) (ovl : Overload) (comply : Bool) {x : SeqRun} (hx : d.seq.cur = some x)
    (hch : w.seqChannel k x.entry ≠ 0x81)
    (ht : t = x.tStart + bits (w.seqCtrl k x.entry) 31 16 * 1000 + (x.words.length + 1) * ratePeriod (bits (w.seqMode k x.entry) 2 0))
    (hlen : x.words.length + 1 ≤ filtOrder (bit (w.seqMode k x.entry) 3) + w.seqRepeat k x.entry) :
    Runs (.seqWord t k m ovl comply) s fun s' => ∃ v, s'.dieShows k (fun y => y.seq.cur.map (·.words)) (some (x.words ++ [v])) := by
  have hk := State.fitted_pos hd.1
  have hdue : ¬ (bits (w.seqCtrl k x.entry) 7 0 = 0x81 ∨
      t ≠ x.tStart + bits (w.seqCtrl k x.entry) 31 16 * 1000 + (x.words.length + 1) * ratePeriod (bits (w.seqMode k x.entry) 2 0) ∨
      filtOrder (bit (w.seqMode k x.entry) 3) + bits (w.seqCtrl k x.entry) 15 8 < x.words.length + 1) := by
    rintro (h | h | h)
    · exact hch h
    · exact h ht
    · exact Nat.not_lt.2 hlen h
  subst hw
  refine ⟨_, rfl, ?_⟩
  rw [State.onDie_of hd.1 hd.2, hx]
  dsimp only
  rw [if_neg hdue]
  split
  · exact ⟨_, State.shows_dieEventFull (fun _ _ _ => rfl) (State.shows_modDie hk hd.2 rfl)⟩
  · exact ⟨_, State.shows_modDie hk hd.2 rfl⟩

/-- An entry on ID_1W notes what the read of the identity gave before it closes (R103). -/
theorem execSeqEntryEnd_oneWire (presence : Bool) (number : Nat) {x : SeqRun} (hx : d.seq.cur = some x)
    (hch : w.seqChannel k x.entry = 0x81) (ht : x.tStart ≤ t) :
    Runs (.seqEntryEnd t k presence number) s fun s' => ∃ u : State, s' = (u.closeEntry k false false).seqAdvance k x.entry t ∧
      u.dieShows k (fun y => y.seq.cur.map (·.words))
        (some [number % 2 ^ 32, number / 2 ^ 32 % 2 ^ 32, if (presence && numberOk number) = true then 0 else 0x80000000]) ∧
      u.dieShows k (·.seq.idSeen) (if (presence && numberOk number) = true then some (2 ^ 64 + number % 2 ^ 64) else d.seq.idSeen) := by
  have hk := State.fitted_pos hd.1
  subst hw
  refine ⟨_, rfl, ?_⟩
  rw [State.onDie_of hd.1 hd.2, hx]
  dsimp only
  rw [if_pos (show bits _ 7 0 = 0x81 from hch), if_neg (Nat.not_lt.2 ht)]
  have hemit := (State.readIdOuts_die? ((s.at_ t).adoptSeq k) k presence k).trans hd.2
  exact ⟨_, rfl, State.shows_modDie hk hemit rfl, State.shows_modDie hk hemit rfl⟩

theorem execSeqEntryEnd_of (presence : Bool) (number : Nat) {x : SeqRun} (hx : d.seq.cur = some x)
    (hch : w.seqChannel k x.entry ≠ 0x81) (hlen : x.words.length = filtOrder (bit (w.seqMode k x.entry) 3) + w.seqRepeat k x.entry) :
    exec (.seqEntryEnd t k presence number) s = .next ((w.closeEntry k false false).seqAdvance k x.entry t) := by
  have hwhole : ¬ x.words.length ≠ filtOrder (bit (w.seqMode k x.entry) 3) + bits (w.seqCtrl k x.entry) 15 8 := not_not_intro hlen
  show execSeqEntryEnd t k presence number s = _
  unfold execSeqEntryEnd
  dsimp only
  rw [← hw, State.onDie_of hd.1 hd.2, hx]
  dsimp only
  rw [if_neg (show ¬ bits _ 7 0 = 0x81 from hch), if_neg hwhole]

/-- Whatever the judgement of the pair says, it is the latest of its gain (R113, R131). -/
theorem execM30CalInsert_shows {gain i : Nat} (zero : Rat) {zener : ZenerRead} {c : M30Cal} (hp : d.precOn = true)
    (hprot : d.prot.protOnly = false) (hlen : zener.len ≤ 3000000) (hgain : gain < 3) (hi : i < 64) (hrep : w.seqRepeat k i ≠ 0)
    (hch : w.seqChannel k i ≠ 0x81) (hmode : bits (w.seqMode k i) 7 6 = gain) (hb : d.seq.atBoundary t = true)
    (hfree : d.seq.taken = false) (hc : d.seq.m30[gain]? = some c) (hlast : ∀ x, c.lastAt = some x → x + 60000000000 ≤ t) :
    Runs (.m30CalInsert t k gain zero zener) s fun s' =>
      s'.dieShows k (fun y => (y.seq.m30[gain]?).map (·.lastAt)) (some (some t)) := by
  have hk := State.fitted_pos hd.1
  have hused : ((List.range 64).any fun i => w.seqRepeat k i != 0 && w.seqChannel k i != 0x81 && bits (w.seqMode k i) 7 6 == gain) = true :=
    List.any_eq_true.2 ⟨i, List.mem_range.2 hi, by simp [hrep, hch, hmode]⟩
  have hcal (x : M30Cal) : d.seq.m30.getD gain x = c := by rw [List.getD_eq_getElem?_getD, hc, Option.getD_some]
  subst hw
  refine ⟨_, rfl, ?_⟩
  rw [State.onDie_of hd.1 hd.2, hcal]
  extract_lets used last early f o span g tol tolO tolG pair
  have hearly : early = false := by
    unfold early
    split
    · next x hx => exact decide_eq_false (Nat.not_lt.2 (hlast x hx))
    · rfl
  rw [if_neg (by simp [hp, hprot, hb, hfree, hearly, show used = true from hused, Nat.not_le.2 hgain, Nat.not_lt.2 hlen])]
  have hpair : pair.lastAt = some t := by
    unfold pair
    split
    · rfl
    · split <;> rfl
  refine State.shows_modDie hk hd.2 ?_
  show ((setNth gain pair d.seq.m30)[gain]?).map (·.lastAt) = _
  rw [setNth, modNth_getElem?_same, hc]
  exact congrArg some hpair

theorem execUrgentWorkPreempt_shows (hp : d.precOn = true) (hu : d.seq.urgent = false) (hcur : d.seq.cur = none) :
    Runs (.urgentWorkPreempt t k) s fun s' => s'.dieShows k (·.seq.urgent) true := by
  have hk := State.fitted_pos hd.1
  subst hw
  refine ⟨_, rfl, ?_⟩
  rw [State.onDie_of hd.1 hd.2, if_neg (by simp [hp, hu]), hcur]
  exact State.shows_owBegin hk (fun _ _ => rfl) (State.abortSlice_urgent (State.shows_modDie hk hd.2 rfl))

/-- Where no table runs, M30 is idle after urgent work (R114). -/
theorem execUrgentWorkEnd_shows (hu : d.seq.urgent = true) (hr : d.seq.running = false) :
    Runs (.urgentWorkEnd t k) s fun s' => s'.dieShows k (fun y => (y.seq.urgent, y.prot.owRun)) (false, none) := by
  obtain ⟨e, he, hshown⟩ := Option.map_eq_some_iff.1 (State.urgentOver_shows (State.fitted_pos hd.1) hd.2)
  obtain ⟨hrun, hseq⟩ := Prod.mk.inj hshown
  have hidle : (!(w.urgentOver k).seqMay k e || !e.seq.running || e.seq.cur.isSome) = true := by simp [hseq, hr]
  refine Runs.of (execUrgentWorkEnd_of hw) ?_
  rw [State.endUrgent_of hd hu ⟨(State.urgentOver_fitted ..).trans hd.1, he⟩, if_pos hidle]
  refine (congrArg (Option.map _) he).trans ?_
  rw [Option.map_some, hrun, hseq]

end

/-- Settles O11: the conditions of a clause leave one branch of its command. A word, the pulses on ID_1W and a pair are changes of the
die; the entry that closes has been judged already, so that judging it again changes nothing; neither an aborted slice nor a check of a
wire that starts or ends lets go of M30. -/
theorem sequencerCommandsComplete : Obligations.SequencerCommandsComplete := by
  intro t k d s w hw hd
  refine ⟨fun m ovl comply x hx hch ht hlen => execSeqWord_shows hw hd m ovl comply hx hch ht hlen,
    fun presence number x hx hch ht => execSeqEntryEnd_oneWire hw hd presence number hx hch ht,
    fun presence number x hx hch hlen => Runs.of (execSeqEntryEnd_of hw hd presence number hx hch hlen) ?_,
    fun gain i zero zener c hp hprot hlen hgain hi hrep hch hmode hb hfree hc hlast =>
      execM30CalInsert_shows hw hd zero hp hprot hlen hgain hi hrep hch hmode hb hfree hc hlast,
    fun hp hu hcur => execUrgentWorkPreempt_shows hw hd hp hu hcur,
    fun hu hr => execUrgentWorkEnd_shows hw hd hu hr, fun v e hu hv he hmay hr hcur hres => ?_⟩
  · rw [State.closeEntry_judged hd hx hch]
  · obtain rfl : v = w.urgentOver k := hv
    exact Runs.of (execUrgentWorkEnd_of hw)
      ((State.endUrgent_of hd hu he).trans ((if_neg (by simp [hmay, hr, hcur])).trans (if_neg (Nat.not_le.2 hres))))

end Sys2Proof.Machine
end

section
/-! Self-calibration: the close of a run, its solve and the expiry of a channel (R126, R127, R129, R133). -/

namespace Sys2Proof.Machine

theorem getD_setNth_same {α : Type} {i : Nat} (a b : α) {l : List α} (h : i < l.length) : (setNth i a l).getD i b = a := by
  rw [List.getD_eq_getElem?_getD, setNth, modNth_getElem?_same, List.getElem?_eq_getElem h]
  rfl

/-! ### What a solve leaves of the dies (R127) -/

theorem State.drawRats_dies (s : State) (n : Nat) : (s.drawRats n).2.dies = s.dies := by
  induction n generalizing s with
  | zero => rfl
  | succ n ih => exact ih s.drawRat.2

theorem State.solveRun_dies (s : State) (k : Nat) (d : Die) (r : CalRun) : (s.solveRun k d r).2.dies = s.dies := by
  unfold State.solveRun
  extract_lets ctrl s1 s2 s3 g4 zc z spareOfs x
  show x.2.dies = s.dies
  unfold x
  split
  · exact s.drawRats_dies 50
  · rfl

/-- A part of what a die shows. -/
theorem State.dieShows_map {α β : Type} {s : State} {k : Nat} {f : Die → α} {v : α} (g : α → β) (h : s.dieShows k f v) :
    s.dieShows k (fun d => g (f d)) (g v) := by
  obtain ⟨d, hd, rfl⟩ := Option.map_eq_some_iff.1 h
  exact congrArg (Option.map _) hd

/-- What the end of a solve settles on a die: the run that waits for its solve, the held candidate and the last RESULT (R126, R128). -/
def Die.solveEnd (d : Die) : Option CalRun × Option Cand × Nat := (d.cal.solving, d.cal.heldCand, d.cal.lastResult)

/-! ### The commands -/

section
variable {t k : Nat} {d : Die} {s : State} (hd : s.hasDie k d)
include hd

/-- A run that closes goes to its solve when it is complete, and else gives way to the next one (R126). -/
theorem State.closeRun_shows {r : CalRun} (hr : d.cal.run = some r) :
    (s.closeRun k t).dieShows k (fun y => (y.cal.run, y.cal.solving, y.cal.lastResult))
      (if d.runComplete r t = true then (none, some { r with tEnd := t }, d.cal.lastResult)
        else (some (CalRun.opened t), d.cal.solving, 4)) := by
  unfold State.closeRun
  rw [State.onDie_of hd.1 hd.2, hr]
  refine State.shows_modDie (State.fitted_pos hd.1) hd.2 ?_
  dsimp only
  split
  · rfl
  · rfl

theorem execCalRunClose_of {r : CalRun} (hr : d.cal.run = some r) (hp : d.precOn = true) (hb : s.fB 0x04 k 0 0 = true)
    (ht : r.tBegin + s.fF 0x04 k 0 31 16 * 60000000000 ≤ t) : exec (.calRunClose t k) s = .next ((s.at_ t).closeRun k t) := by
  have hdue : (d.precOn && s.fB 0x04 k 0 0 && decide (r.tBegin + s.fF 0x04 k 0 31 16 * 60000000000 ≤ t)) = true := by
    rw [hp, hb, decide_eq_true ht]
    rfl
  show execCalRunClose t k s = _
  unfold execCalRunClose
  dsimp only
  rw [State.onDie_of (s := s.at_ t) hd.1 hd.2, hr]
  exact congrArg Host.Outcome.next (if_pos hdue)

/-- Every solve ends with no run waiting; one that is not rejected as a whole, and finds no held candidate, keeps its own as the first
of a pair (R127, R128). -/
theorem execCalSolveComplete_shows {r : CalRun} (hr : d.cal.solving = some r) :
    Runs (.calSolveComplete t k) s fun s' => ∃ held result, s'.dieShows k Die.solveEnd (none, held, result) ∧
      (d.cal.heldCand = none → ((s.at_ t).solveRun k d r).1.rejected d.cal.zc ((bits (s.regF 0x04 k 4) 31 16 : Rat) / 10) = false →
        held = some ((s.at_ t).solveRun k d r).1.cand ∧ result = 7) := by
  have hk := State.fitted_pos hd.1
  refine ⟨_, rfl, ?_⟩
  rw [State.onDie_of (s := s.at_ t) hd.1 hd.2, hr]
  dsimp -zeta only
  extract_lets +onlyGivenNames tol tolO tolG sol x w opened finish
  have hw : w.die? k = some d := (State.die?_congr (State.solveRun_dies ..) k).trans hd.2
  have hfinish (result acc rej : Nat) (c : CalState) : (finish result acc rej c).dieShows k Die.solveEnd (none, c.heldCand, result) := by
    unfold finish
    extract_lets set recorded agreed
    have hset : set.dieShows k Die.solveEnd (none, c.heldCand, result) := State.shows_modDie hk hw rfl
    have hrecorded : recorded.dieShows k Die.solveEnd (none, c.heldCand, result) := State.shows_dieRecord hk (fun _ _ _ => rfl) hset
    have hagreed : agreed.dieShows k Die.solveEnd (none, c.heldCand, result) := by
      unfold agreed
      split
      · exact State.shows_dieEventFull (fun _ _ _ => rfl) hrecorded
      · exact hrecorded
    split
    · exact hagreed
    · exact State.shows_dieEventFull (fun _ _ _ => rfl) hagreed
  by_cases hrej : x.rejected d.cal.zc tolG = true
  · rw [if_pos hrej]
    exact ⟨_, _, hfinish .., fun _ hacc => absurd (hacc.symm.trans hrej) Bool.false_ne_true⟩
  · rw [if_neg hrej]
    cases hheld : d.cal.heldCand with
    | none => exact ⟨_, _, hfinish .., fun _ _ => ⟨rfl, rfl⟩⟩
    | some p => exact ⟨_, _, hfinish .., nofun⟩

/-- A channel whose last acceptance is thirty days old becomes stale (R133). -/
theorem execCalExpiry_shows {c a : Nat} (ha : d.cal.acceptAt.getD (c - 1) none = some a) (hc : 1 ≤ c) (hc' : c ≤ 29)
    (ht : a + 30 * 86400 * 1000000000 ≤ t) (hs : d.cal.stale.getD (c - 1) true = false) :
    Runs (.calExpiry t k c) s fun s' => s'.dieShows k (fun y => y.cal.stale.getD (c - 1) false) true := by
  have hdue : ¬ (c = 0 ∨ 29 < c ∨ t < a + 30 * 86400 * 1000000000 ∨ d.cal.stale.getD (c - 1) true = true) := by
    rw [hs]
    simp only [Bool.false_eq_true, or_false]
    omega
  have hlen : c - 1 < d.cal.stale.length := by
    refine Nat.lt_of_not_le fun hle => Bool.false_ne_true (hs.symm.trans ?_)
    rw [List.getD_eq_getElem?_getD, List.getElem?_eq_none hle, Option.getD_none]
  refine ⟨_, rfl, ?_⟩
  rw [State.onDie_of (s := s.at_ t) hd.1 hd.2, ha]
  dsimp only
  rw [if_neg hdue]
  exact State.shows_dieEventFull (fun _ _ _ => rfl)
    (State.shows_modDie (State.fitted_pos hd.1) hd.2 (getD_setNth_same true false hlen))

end

/-- Settles O12: the conditions leave one branch of the close of a run and of the expiry of a channel, and every branch of a solve
ends it in the same way. -/
theorem calibrationCommandsComplete : Obligations.CalibrationCommandsComplete := by
  intro t k d s hd
  refine ⟨fun r hr hp hb ht => Runs.of (execCalRunClose_of hd hr hp hb ht) (State.closeRun_shows (s := s.at_ t) hd hr),
    fun r hr => ?_, fun r hr hheld hrej => ?_, fun c a ha hc hc' ht hs => execCalExpiry_shows hd ha hc hc' ht hs⟩
  · obtain ⟨s', hexec, held, result, hshown, _⟩ := execCalSolveComplete_shows (t := t) hd hr
    exact ⟨s', hexec, State.dieShows_map Prod.fst hshown⟩
  · obtain ⟨s', hexec, held, result, hshown, hkept⟩ := execCalSolveComplete_shows (t := t) hd hr
    obtain ⟨rfl, rfl⟩ := hkept hheld hrej
    exact ⟨s', hexec, State.dieShows_map Prod.snd hshown⟩

end Sys2Proof.Machine
end

section
/-! Slices, overdue blocks and SELFTEST_RUN (R126, R132, R362, R461, R462, R464, R465, R467). -/

namespace Sys2Proof.Machine

theorem execSliceStart_of {t k b n : Nat} {x : SelfTest} {s w : State} (hw : w = (s.at_ t).accrueTest)
    (hrun : (if k = 0 then w.inRun else w.inRunDoze) = true) (hx : w.selfTest[k]? = some x) (hdue : x.nextAt ≤ x.sliceTime k)
    (hnext : w.nextSlice k x = some (b, n)) :
    exec (.sliceStart t k) s = .next ((w.modTest k fun (y : SelfTest) =>
      { y with nextAt := y.sliceTime k + 5000000000, nextBlock := n, retry := if y.retry = some b then none else y.retry }).startSlice k b) := by
  show execSliceStart t k s = _
  unfold execSliceStart
  dsimp only
  rw [← hw, hrun, Bool.not_true, if_neg Bool.false_ne_true, hx]
  dsimp only
  rw [if_neg (Nat.not_lt.2 hdue), hnext]

/-- The end of a slice, whatever its block: only the slice of the supervisors concerns the rails (R462, R467). -/
theorem execSliceEnd_of {t k result rail b since : Nat} {s v : State} (hv : v = (s.at_ t).adoptSeq k)
    (hslice : ((v.selfTest[k]?).bind (·.slice)) = some (b, since)) {r : Nat} {w : State}
    (hr : r = (if since + sliceLen b ≤ t then result else 3)) (hw : w = v.endSlice k b r) :
    exec (.sliceEnd t k result rail) s =
      .next (if b = 0x1101 then (if r = 2 ∧ rail < 14 then w.railFault rail 1 else w).judgeHeld else w) := by
  show execSliceEnd t k result rail s = _
  unfold execSliceEnd
  dsimp only
  rw [← hv, hslice]
  dsimp only
  rw [← hr, ← hw]
  by_cases hb : b = 0x1101
  · simp [hb]
  · simp [hb]

/-- A block that is overdue is noted, and the event that tells so leaves the note (R464). -/
theorem execSelftestOverdue_shows {t k block : Nat} {x : SelfTest} {s : State} (hx : (s.at_ t).accrueTest.selfTest[k]? = some x)
    (hb : (blocksOf k).contains block = true) (ho : x.overdue.contains block = false)
    (ht : ((x.judged.find? fun y => y.1 == block).map (·.2)).getD 0 + 600000000000 ≤
      (if block = 0x1001 ∨ block = 0x1002 then x.offTime else x.sliceTime k)) :
    Runs (.selftestOverdue t k block) s fun s' => (s'.selfTest[k]?).map (·.overdue) = some (x.overdue ++ [block]) := by
  have hdue : ¬ (!(blocksOf k).contains block || x.overdue.contains block ||
      decide ((if block = 0x1001 ∨ block = 0x1002 then x.offTime else x.sliceTime k) <
        ((x.judged.find? fun y => y.1 == block).map (·.2)).getD 0 + 600000000000)) = true := by
    rw [hb, ho, decide_eq_false (Nat.not_lt.2 ht)]
    exact Bool.false_ne_true
  refine ⟨_, rfl, ?_⟩
  rw [hx]
  dsimp only
  rw [if_neg hdue]
  have hnoted : ((((s.at_ t).accrueTest.modTest k fun x => { x with overdue := x.overdue ++ [block] }).selfTest)[k]?).map (·.overdue) =
      some (x.overdue ++ [block]) := by
    rw [State.modTest_selfTest, modNth_getElem?_same, hx]
    rfl
  split
  · rw [State.event_selfTest]
    exact hnoted
  · rw [State.dieEvent_selfTest]
    exact hnoted

/-! ### SELFTEST_RUN -/

/-- A command whose target runs no slice does not wait (R463). -/
theorem State.testWaits_of_free {s : State} {c : Cmd} (bad : Bool) (h : s.sliceFree c.target = true) : s.testWaits c bad = false := by
  unfold State.testWaits
  rw [h, Bool.not_true, Bool.and_false]

section
variable {t : Nat} {c : Cmd} {s : State} (h : s.serves 0x0E c)
include h

theorem execSelftestRunAll_of (results : List Nat) (ha : rd c.param 0 1 = 0) (hf : (s.served t c).sliceFree c.target = true) {r : State × Tally}
    (hr : r = (blocksOf c.target).zipIdx.foldl (fun (acc : State × Tally) b => acc.1.runBlock c.target b.1 (results.getD b.2 0) acc.2)
      (s.served t c, { passed := 0, failed := 0, incomplete := 0 })) :
    exec (.selftestRunAll t c results) s = .next (r.1.complete c .success r.2.result) := by
  show execSelftestRunAll t c results s = _
  unfold execSelftestRunAll
  dsimp only
  rw [State.testWaits_of_free (s := s.at_ t) _ hf, State.serves_serve t h (by simp [ha]), if_neg (not_not_intro ha), ← hr]

theorem execSelftestRunBlock_of (result : Nat) (ha : rd c.param 0 1 = 1) (hb : (blocksOf c.target).contains (rd c.param 2 2) = true)
    (hf : (s.served t c).sliceFree c.target = true) {r : State × Tally}
    (hr : r = (s.served t c).runBlock c.target (rd c.param 2 2) result { passed := 0, failed := 0, incomplete := 0 }) :
    exec (.selftestRunBlock t c result) s = .next (r.1.complete c .success r.2.result) := by
  show execSelftestRunBlock t c result s = _
  unfold execSelftestRunBlock
  dsimp only
  rw [State.testWaits_of_free (s := s.at_ t) _ hf, State.serves_serve t h (by simp [ha]), hb, Bool.not_true, if_neg Bool.false_ne_true, ← hr]

theorem execCalEarlyEnd_of (ha : rd c.param 0 1 = 2) (ht : c.target ≠ 0) :
    exec (.calEarlyEnd t c) s = .next (((s.served t c).closeRun c.target t).complete c .success 0) := by
  show execCalEarlyEnd t c s = _
  unfold execCalEarlyEnd
  rw [State.serves_serve t h (by simp [ha]), if_neg ht]

theorem execCalReset_of (ha : rd c.param 0 1 = 3) (ht : c.target ≠ 0) :
    exec (.calReset t c) s = .next (((s.served t c).resetCal c.target).complete c .success 0) := by
  show execCalReset t c s = _
  unfold execCalReset
  rw [State.serves_serve t h (by simp [ha]), if_neg ht]

end

/-- Settles O20: the conditions of a clause leave one branch of its command. -/
theorem selfTestCommandsComplete : Obligations.SelfTestCommandsComplete := by
  refine ⟨fun t k b n x s w hw hrun hx hdue hnext => Runs.of (execSliceStart_of hw hrun hx hdue hnext) rfl,
    fun t k result rail b since s v hv hslice r w hr hw => Runs.of (execSliceEnd_of hv hslice hr hw) rfl,
    fun t k block x s hx hb ho ht => execSelftestOverdue_shows hx hb ho ht, fun t c s w h hw => ?_⟩
  subst hw
  exact ⟨fun results ha hf => Runs.of (execSelftestRunAll_of h results ha hf rfl) ⟨_, rfl, rfl⟩,
    fun result ha hb hf => Runs.of (execSelftestRunBlock_of h result ha hb hf rfl) ⟨_, rfl, rfl⟩,
    fun ha ht => Runs.of (execCalEarlyEnd_of h ha ht) rfl, fun ha ht => Runs.of (execCalReset_of h ha ht) rfl⟩

end Sys2Proof.Machine
end

section
/-! Impedance: segments, averages and chips of the task, and the current blocks (R145, R146, R149 to R152, R156 to R158, R162). -/

namespace Sys2Proof.Machine

/-! ### What a die shows after the parts of a command -/

theorem State.shows_congr {α : Type} {s u : State} {k : Nat} {f : Die → α} {v : α} (hu : u.dies = s.dies) (h : s.dieShows k f v) :
    u.dieShows k f v := (congrArg (Option.map f) (State.die?_congr hu k)).trans h

theorem foldl_shows {α β : Type} {k : Nat} {f : Die → α} {v : α} {F : State → β → State}
    (hF : ∀ s b, s.dieShows k f v → (F s b).dieShows k f v) (l : List β) {s : State} (h : s.dieShows k f v) :
    (l.foldl F s).dieShows k f v := by
  induction l generalizing s with
  | nil => exact h
  | cons b l ih => exact ih (hF s b h)

/-- The end of injection touches the protection state and whether injection runs (R157). -/
theorem State.shows_stopInjection {α : Type} {s : State} {k : Nat} {f : Die → α} {v : α} (hk : k ≠ 0)
    (hp : ∀ (d : Die) (p : ProtState), f { d with prot := p } = f d)
    (hi : ∀ d : Die, f { d with imp := { d.imp with injActive := false } } = f d) (h : s.dieShows k f v) :
    (s.stopInjection k).dieShows k f v :=
  State.shows_settleChannels hk hp (State.shows_modDie_unseen (fun d => (hp { d with imp := { d.imp with injActive := false } } _).trans (hi d)) h)

/-! ### What the FAST domain leaves of the current source (R98, R404) -/

section
variable {s : State} {k : Nat} {b : Bool}

theorem State.unarm_curOk (c : Capture) (h : s.dieShows k (·.imp.curOk) b) : (s.unarm c).dieShows k (·.imp.curOk) b := by
  unfold State.unarm
  split
  · exact State.shows_congr (congrArg Kept.dies (State.tellArmed_kept ..)) h
  · exact h

theorem State.abortCapture_curOk (arm : Bool) (h : s.dieShows k (·.imp.curOk) b) : (s.abortCapture k arm).dieShows k (·.imp.curOk) b := by
  refine shows_onDie (fun d => ?_) h
  split
  · exact h
  · refine State.shows_congr (congrArg Kept.dies (State.completeOpt_kept ..)) (State.unarm_curOk _ ?_)
    exact State.shows_dieEventFull (fun _ _ _ => rfl) (State.shows_modDie_unseen (fun _ => rfl) h)

theorem State.flushStream_curOk (last abort : Bool) (h : s.dieShows k (·.imp.curOk) b) :
    (s.flushStream k last abort).dieShows k (·.imp.curOk) b := by
  refine shows_onDie (fun d => ?_) h
  dsimp only
  split
  · exact h
  · refine State.shows_modDie_unseen (fun d => ?_) (State.shows_modDie_unseen (fun _ => rfl) h)
    split <;> rfl

theorem State.fastOff_curOk (hk : k ≠ 0) (h : s.dieShows k (·.imp.curOk) b) : (s.fastOff k).dieShows k (·.imp.curOk) b := by
  refine shows_onDie (fun d => ?_) h
  split
  · refine State.shows_modDie_unseen (fun _ => rfl) (State.shows_stopInjection hk (fun _ _ => rfl) (fun _ => rfl) ?_)
    exact State.shows_modDie_unseen (fun _ => rfl) (State.flushStream_curOk true true (State.abortCapture_curOk false h))
  · exact h

theorem State.fastUp_curOk (h : s.dieShows k (·.imp.curOk) b) : (s.fastUp k).dieShows k (·.imp.curOk) b := by
  refine shows_onDie (fun d => ?_) h
  split
  · exact h
  · exact State.shows_modDie_unseen (fun _ => rfl) h

theorem State.fastDomain_curOk (hk : k ≠ 0) (h : s.dieShows k (·.imp.curOk) b) : (s.fastDomain k).dieShows k (·.imp.curOk) b := by
  refine shows_onDie (fun d => ?_) h
  split
  · exact State.fastUp_curOk h
  · exact State.fastOff_curOk hk h

end

/-! ### Segments and averages (R145, R146, R152) -/

theorem lt_length_of_getD_eq_some {α : Type} {l : List (Option α)} {i : Nat} {a : α} (h : l.getD i none = some a) : i < l.length := by
  refine Nat.lt_of_not_le fun hle => ?_
  rw [List.getD_eq_getElem?_getD, List.getElem?_eq_none hle] at h
  cases h

section
variable {t k band : Nat} {d : Die} {s w : State} (hw : w = (s.at_ t).adoptImp k) (hd : w.hasDie k d)
include hw hd

/-- A band goes on to its next segment, whatever the segment added to the average (R145, R152). -/
theorem execImpSegmentEnd_shows {j : Nat} (hen : w.impEn k = true) (hband : w.bandEn k band = true) (hprot : d.prot.protOnly = false)
    (hle : band ≤ 2) (hlen : band < d.imp.segNext.length) (hj : d.imp.segNext.getD band none = some j) (havg : w.avgLen k band ≠ 0)
    (hav : j % w.avgLen k band = 0 ∨ ∃ av, d.imp.avgs.getD band none = some av) (ht : (j * 2048 + 4096) * bandPeriod band ≤ t)
    (hcur : w.curSettled k ((j * 2048 + 4096) * bandPeriod band) d.imp = true) :
    Runs (.impSegmentEnd t k band) s fun s' => s'.dieShows k (fun x => x.imp.segNext.getD band none) (some (j + 1)) := by
  have hdue : ¬ (!w.impEn k || !w.bandEn k band || d.prot.protOnly || decide (w.avgLen k band = 0) || decide (2 < band) ||
      decide (t < (j * 2048 + 4096) * bandPeriod band) || !w.curSettled k ((j * 2048 + 4096) * bandPeriod band) d.imp) = true := by
    simp [hen, hband, hprot, havg, hcur, hle, ht]
  have htaken : ∃ av,
      (if j % w.avgLen k band = 0 then some (Average.fresh band (j / w.avgLen k band)) else d.imp.avgs.getD band none) = some av := by
    split
    next => exact ⟨_, rfl⟩
    next hin => exact hav.resolve_left hin
  obtain ⟨av, htaken⟩ := htaken
  subst hw
  refine ⟨_, rfl, ?_⟩
  rw [State.onDie_of hd.1 hd.2]
  dsimp only
  rw [hj]
  dsimp only
  rw [if_neg hdue, htaken]
  exact State.shows_modDie (State.fitted_pos hd.1) hd.2 (getD_setNth_same _ _ hlen)

/-- A band closes the average whose last segment has been taken in, and its record and its events touch T0 alone (R146, R159). -/
theorem execImpAverageEnd_shows {av : Average} {j : Nat} (hen : w.impEn k = true) (hprot : d.prot.protOnly = false)
    (hav : d.imp.avgs.getD band none = some av) (hj : d.imp.segNext.getD band none = some j) (hlast : j = (av.index + 1) * w.avgLen k band) :
    Runs (.impAverageEnd t k band) s fun s' => s'.dieShows k (fun x => (x.imp.avgs.getD band none, x.imp.moved)) (none, false) := by
  have hk := State.fitted_pos hd.1
  have hdue : ¬ (j ≠ (av.index + 1) * w.avgLen k band ∨ (!w.impEn k) = true ∨ d.prot.protOnly = true) := by
    simp [hen, hprot, hlast]
  subst hw
  refine ⟨_, rfl, ?_⟩
  rw [State.onDie_of hd.1 hd.2]
  dsimp -zeta only
  extract_lets i avg
  rw [hav, hj]
  dsimp -zeta only
  rw [if_neg hdue]
  extract_lets
  refine foldl_shows (fun _ _ h => State.shows_dieEventFull (fun _ _ _ => rfl) h) _ (State.shows_dieRecord hk (fun _ _ _ => rfl) ?_)
  exact State.shows_modDie hk hd.2 (Prod.ext (getD_setNth_same _ _ (lt_length_of_getD_eq_some hav)) rfl)

end

/-! ### Chips (R156 to R158) -/

/-- The next chip of an injection that is active, once its average has begun: it steps the generator where injection may run, and ends the
injection elsewhere (R156, R157). -/
def State.runChip (s : State) (k : Nat) : State :=
  s.onDie k fun d =>
    if !d.imp.injActive then s
    else if !s.injRuns k d then s.stopInjection k
    else (s.modDie k fun e => { e with imp := { e.imp with lfsr := (chipStep d.imp.lfsr).2, chip := (chipStep d.imp.lfsr).1 } }).settleChannels k

/-- An average that begins with injection is the injected one (R156). -/
theorem State.beginInjection_shows {s : State} {k a : Nat} {d : Die} (hk : k ≠ 0) (hd : s.die? k = some d) :
    (s.beginInjection k a).dieShows k (·.imp.injAvg) (some a) := State.shows_modDie hk hd rfl

/-- No chip changes which average is the injected one. -/
theorem State.runChip_injAvg {s : State} {k : Nat} {v : Option Nat} (hk : k ≠ 0) (h : s.dieShows k (·.imp.injAvg) v) :
    (s.runChip k).dieShows k (·.imp.injAvg) v := by
  refine shows_onDie (fun d => ?_) h
  split
  · exact h
  · split
    · exact State.shows_stopInjection hk (fun _ _ => rfl) (fun _ => rfl) h
    · exact State.shows_settleChannels hk (fun _ _ => rfl) (State.shows_modDie_unseen (fun _ => rfl) h)

theorem State.runChip_shows {s : State} {k : Nat} {d : Die} (hd : s.hasDie k d) (hactive : d.imp.injActive = true) (hruns : s.injRuns k d = true) :
    (s.runChip k).dieShows k (fun x => (x.imp.lfsr, x.imp.chip, x.imp.injActive)) ((chipStep d.imp.lfsr).2, (chipStep d.imp.lfsr).1, true) := by
  have hk := State.fitted_pos hd.1
  unfold State.runChip
  rw [State.onDie_of hd.1 hd.2, if_neg (by simp [hactive]), if_neg (by simp [hruns])]
  refine State.shows_settleChannels hk (fun _ _ => rfl) (State.shows_modDie hk hd.2 ?_)
  rw [hactive]

theorem execInjectionChip_of {t k len : Nat} {d : Die} {s w : State} (hw : w = (s.at_ t).adoptImp k) (hd : w.hasDie k d)
    (hlen : len = w.avgLen k (w.fF 0x05 k 0 7 6) * bandHop (w.fF 0x05 k 0 7 6)) (hne : len ≠ 0) (hforce : w.injInForce k d = true)
    (hper : (t % len) % chipPeriod (w.fF 0x05 k 0 7 6) = 0) :
    exec (.injectionChip t k) s =
      .next ((if (decide (t % len = 0) && d.imp.injAvg != some (t / len)) = true then w.beginInjection k (t / len) else w).runChip k) := by
  have hin : ¬ (!w.injInForce k d || decide (len = 0)) = true := by simp [hforce, hne]
  show execInjectionChip t k s = _
  unfold execInjectionChip
  dsimp only
  rw [← hw, State.onDie_of hd.1 hd.2, ← hlen, if_neg hin, if_neg (not_not_intro hper)]
  rfl

/-- Settles O9: the conditions leave one branch of each command, and whatever a chip does to an average that begins, its index stays. -/
theorem impedanceCommandsComplete : Obligations.ImpedanceCommandsComplete := by
  intro t k band d s hd
  refine ⟨fun j hen hband hprot hle hlen hj havg hav ht hcur => execImpSegmentEnd_shows rfl hd hen hband hprot hle hlen hj havg hav ht hcur,
    fun av j hen hprot hav hj hlast => execImpAverageEnd_shows rfl hd hen hprot hav hj hlast, ?_⟩
  rintro w per len hw rfl hlen hne hforce hruns hper
  rw [← hw] at hd
  refine ⟨fun hin hactive => Runs.of (execInjectionChip_of hw hd hlen hne hforce hper) ?_,
    fun hstart hnew => Runs.of (execInjectionChip_of hw hd hlen hne hforce hper) ?_⟩
  · have hold : ¬ (decide (t % len = 0) && d.imp.injAvg != some (t / len)) = true := by
      rw [Bool.and_eq_true, decide_eq_true_eq, bne_iff_ne]
      exact fun hbegin => hin.elim (absurd hbegin.1) hbegin.2
    rw [if_neg hold]
    exact State.runChip_shows hd hactive hruns
  · have hk := State.fitted_pos hd.1
    rw [if_pos (by simp [hstart, hnew])]
    exact State.runChip_injAvg hk (State.beginInjection_shows hk hd.2)

/-! ### Current blocks (R149 to R151) -/

theorem execCurrentBlockSend_of {t k : Nat} {d : Die} {s w : State} (hcur : (s.at_ t).islands.find? (fun j => (s.at_ t).isCurDie j) = some k)
    (hw : w = (s.at_ t).adoptImp k) (hd : w.hasDie k d) (hruns : w.impRuns k d = true) (hrun : w.inRun = true) (ht : 1000000 ≤ t)
    (htakes : w.hubTakes k = true) {b : List Byte} (hb : b = w.currentBlock k d ((t / 1000000 - 1) * 1000000)) :
    exec (.currentBlockSend t) s = .next (w.islands.foldl (fun u j => u.takeCurrentBlock j b) (w.originate 2 0x21 63 b)) := by
  have hsends : ¬ (!w.impRuns k d || !w.inRun || decide (t < 1000000) || !w.hubTakes k) = true := by
    simp [hruns, hrun, ht, htakes]
  show execCurrentBlockSend t s = _
  unfold execCurrentBlockSend
  dsimp only
  rw [hcur]
  dsimp only
  rw [← hw, State.onDie_of hd.1 hd.2, if_neg hsends, ← hb]

theorem execCurrentBlockReceive_of {t : Nat} {bytes : List Byte} {s w : State} (ha : (s.at_ t).accept (frameOf bytes) = (.deliver, w))
    (hlen : (frameOf bytes).payload.length = 460) (hcrc : crc32cOk (frameOf bytes).payload = true) (hkind : rd (frameOf bytes).payload 0 2 = 0x0602) :
    exec (.currentBlockReceive t bytes) s = .next (w.islands.foldl (fun u j => u.takeCurrentBlock j (frameOf bytes).payload) w) := by
  show execCurrentBlockReceive t bytes s = _
  unfold execCurrentBlockReceive
  dsimp only
  rw [ha, if_pos ⟨rfl, hlen, hcrc, hkind⟩]

/-- The task after a block that counts as missing: the thousandth in a row is a lost source (R151). -/
def ImpState.missBlock (i : ImpState) (t0 : Nat) : ImpState :=
  { i with curMiss := satInc 8 i.curMiss, missRun := i.missRun + 1, curOk := i.curOk && !(i.missRun + 1 == 1000),
           seenT0 := (t0 :: i.seenT0).take 2048 }

section
variable {s w : State} {t0 k : Nat} {d : Die} (hw : w = s.adoptImp k) (hd : w.hasDie k d) (hen : w.impEn k = true) (hdsp : d.dspOn = true)
  (hprot : d.prot.protOnly = false) (hnew : t0 ∉ d.imp.seenT0) (hwait : t0 + 1000000 + w.fF 0x05 k 4 31 16 * 1000000 ≤ w.now)
include hw hd hen hdsp hprot hnew hwait

theorem State.missCurrentBlock_of {u : State} (hu : u = w.modDie k fun e => { e with imp := d.imp.missBlock t0 }) :
    s.missCurrentBlock t0 k =
      if (d.imp.missRun + 1 == 1000) = true then (u.dieEvent k { source := 22, subkind := 1 }).fastDomain k else u := by
  have hmissing : ¬ (!w.impEn k || !d.dspOn || d.prot.protOnly || d.imp.seenT0.contains t0 ||
      decide (w.now < t0 + 1000000 + w.fF 0x05 k 4 31 16 * 1000000)) = true := by
    simp [hen, hdsp, hprot, hnew, hwait]
  subst hu
  unfold State.missCurrentBlock
  dsimp only
  rw [← hw, State.onDie_of hd.1 hd.2, if_neg hmissing]
  rfl

theorem State.missCurrentBlock_counts (hrun : d.imp.missRun + 1 ≠ 1000) :
    (s.missCurrentBlock t0 k).dieShows k (fun y => (y.imp.curMiss, y.imp.missRun, y.imp.curOk))
      (satInc 8 d.imp.curMiss, d.imp.missRun + 1, d.imp.curOk) := by
  have hlost : (d.imp.missRun + 1 == 1000) = false := beq_false_of_ne hrun
  rw [State.missCurrentBlock_of hw hd hen hdsp hprot hnew hwait rfl, hlost, if_neg Bool.false_ne_true]
  refine State.shows_modDie (State.fitted_pos hd.1) hd.2 ?_
  simp only [ImpState.missBlock, hlost, Bool.not_false, Bool.and_true]

theorem State.missCurrentBlock_loses (hrun : d.imp.missRun + 1 = 1000) : (s.missCurrentBlock t0 k).dieShows k (·.imp.curOk) false := by
  have hk := State.fitted_pos hd.1
  have hlost : (d.imp.missRun + 1 == 1000) = true := beq_iff_eq.2 hrun
  rw [State.missCurrentBlock_of hw hd hen hdsp hprot hnew hwait rfl, if_pos hlost]
  refine State.fastDomain_curOk hk (State.shows_dieEventFull (fun _ _ _ => rfl) (State.shows_modDie hk hd.2 ?_))
  simp only [ImpState.missBlock, hlost, Bool.not_true, Bool.and_false]

end

/-- Settles O13: the conditions leave one branch of the block that is sent and of the one that arrives; a block that is missing counts on
its die, and the FAST domain, which follows a lost source, leaves CUR_OK as it is. -/
theorem currentBlockCommandsComplete : Obligations.CurrentBlockCommandsComplete :=
  ⟨fun _ _ _ _ _ hcur hw hd hruns hrun ht htakes => Runs.of (execCurrentBlockSend_of hcur hw hd hruns hrun ht htakes rfl) rfl,
    fun _ _ _ _ ha hlen hcrc hkind => Runs.of (execCurrentBlockReceive_of ha hlen hcrc hkind) rfl,
    fun _ _ _ => Runs.of rfl rfl,
    fun _ _ _ _ _ hw hd hen hdsp hprot hnew hwait => ⟨State.missCurrentBlock_counts hw hd hen hdsp hprot hnew hwait,
      State.missCurrentBlock_loses hw hd hen hdsp hprot hnew hwait⟩⟩

end Sys2Proof.Machine
end

section
/-! Charge blocks: the block that is sent, the block that arrives, the block that is missing (R170 to R172, R176, R442). -/

namespace Sys2Proof.Machine

/-! ### Blocks sent and taken (R170, R171, R176) -/

section
variable {t k sh : Nat} {d : Die} {x : ShuntAcc} {s w : State} (hd : w.hasDie k d) (hrun : w.inRunDoze = true) (htakes : w.hubTakes k = true)
  (hpos : w.link.position.isSome = true) (hlate : groupDelay (w.rateOf k) (w.filtOf k) + 100000000 ≤ w.now)
  (hx : d.prec.shunts.find? (fun y => y.t0 == ((w.now - groupDelay (w.rateOf k) (w.filtOf k)) / 100000000 - 1) * 100000000) = some x)
include hd hrun htakes hpos hlate hx

theorem State.sendChargeBlock_of :
    w.sendChargeBlock k sh = (w.originate 2 0x22 63 (w.chargeBlock k sh d x)).takeChargeBlock (w.chargeBlock k sh d x) := by
  have hsends : ¬ (!w.inRunDoze || !w.hubTakes k || !w.link.position.isSome ||
      decide (w.now < groupDelay (w.rateOf k) (w.filtOf k) + 100000000)) = true := by
    rw [hrun, htakes, hpos, decide_eq_false (Nat.not_lt.2 hlate)]
    decide
  unfold State.sendChargeBlock
  dsimp only
  rw [State.onDie_of hd.1 hd.2, if_neg hsends, hx]

theorem execChargeBlockSend_of (hw : w = (s.at_ t).adoptEst)
    (hnamed : ((w.islands.map w.socSrc).filter fun r => r.1 == w.pos && w.islands.contains r.2.1 && (r.2.2 == 1 || r.2.2 == 2)).eraseDups =
      [(w.pos, k, sh)]) :
    exec (.chargeBlockSend t) s = .next ((w.originate 2 0x22 63 (w.chargeBlock k sh d x)).takeChargeBlock (w.chargeBlock k sh d x)) := by
  show execChargeBlockSend t s = _
  unfold execChargeBlockSend
  dsimp only
  rw [← hw, hnamed, List.foldl_cons, List.foldl_nil, State.sendChargeBlock_of hd hrun htakes hpos hlate hx]

end

theorem execChargeBlockReceive_of {t : Nat} {bytes : List Byte} {s w : State} (ha : (s.at_ t).accept (frameOf bytes) = (.deliver, w))
    (hlen : (frameOf bytes).payload.length = 36) (hcrc : crc32cOk (frameOf bytes).payload = true) (hkind : rd (frameOf bytes).payload 0 2 = 0x0702) :
    exec (.chargeBlockReceive t bytes) s = .next (w.takeChargeBlock (frameOf bytes).payload) := by
  show execChargeBlockReceive t bytes s = _
  unfold execChargeBlockReceive
  dsimp only
  rw [ha, if_pos ⟨rfl, hlen, hcrc, hkind⟩]

/-! ### Blocks that are missing (R172, R442) -/

theorem State.meterGap_of {s : State} {t0 : Nat} (hsrc : s.meterSrc.isSome = true) (hrun : s.inRunDoze = true)
    (hnew : s.trust.meterSeen < t0 + 100000000) :
    s.meterGap t0 =
      { s with trust := { s.trust with gap := s.trust.gap + 1, meterSeen := t0 + 100000000, meterDirty := true } } := by
  unfold State.meterGap
  rw [if_pos (by rw [hsrc, hrun, decide_eq_true hnew]; rfl)]

section
variable {t t0 : Nat} {s w : State} (hw : w = (s.at_ t).adoptEst.meterGap t0) (hlate : t0 + 150000000 ≤ t)
include hw hlate

theorem execChargeBlockMissing_of_unnamed (hnone : w.islands.all (fun k => (w.socSrc k).1 == 0xFF) = true) :
    exec (.chargeBlockMissing t t0) s = .next w := by
  show execChargeBlockMissing t t0 s = _
  unfold execChargeBlockMissing
  dsimp only
  rw [if_neg (Nat.not_lt.2 hlate), ← hw, if_pos hnone]

theorem execChargeBlockMissing_of_named (hsome : w.islands.all (fun k => (w.socSrc k).1 == 0xFF) = false) :
    exec (.chargeBlockMissing t t0) s =
      .next ((w.islands.foldl (fun u k => u.missChargeBlock t0 k (w.hubDraw t0).1) (w.hubDraw t0).2).accrueDebt (w.hubDraw t0).1) := by
  show execChargeBlockMissing t t0 s = _
  unfold execChargeBlockMissing
  dsimp only
  rw [if_neg (Nat.not_lt.2 hlate), ← hw, if_neg (Bool.eq_false_iff.1 hsome)]

end

/-- What a die's counting holds of the blocks: the charge of the last one, how many are missing in a row, and whether they stopped it. -/
def Die.blockRun (d : Die) : Rat × Nat × Bool := (d.est.lastDq, d.est.missRun, d.est.countLost)

theorem State.countBlock_missing_blockRun {s : State} {k t0 : Nat} {dq q : Rat} {d : Die} (hd : s.hasDie k d) :
    (s.countBlock k t0 dq q true).dieShows k Die.blockRun (dq, d.est.missRun + 1, d.est.countLost) := by
  unfold State.countBlock
  rw [State.onDie_of hd.1 hd.2]
  dsimp only
  rw [Bool.not_true, Bool.and_false, if_neg Bool.false_ne_true]
  exact State.shows_modDie (State.fitted_pos hd.1) hd.2 rfl

theorem State.loseCount_blockRun {s : State} {k n : Nat} {dq : Rat} {b : Bool} (hk : k ≠ 0) (h : s.dieShows k Die.blockRun (dq, n, b)) :
    (s.loseCount k).dieShows k Die.blockRun (dq, n, true) := by
  obtain ⟨d, hd, hv⟩ := Option.map_eq_some_iff.1 h
  cases hv
  exact State.shows_dieEventFull (fun _ _ _ => rfl) (State.shows_modDie hk hd rfl)

theorem State.missChargeBlock_blockRun {s : State} {k t0 : Nat} {q : Rat} {d : Die} (hd : s.hasDie k d) (hen : s.stateEn k = true)
    (hnew : d.est.lastT0 < t0 + 100000000) (hsrc : (s.socSrc k).1 ≠ 0xFF) (hcounts : d.est.countLost = false) :
    (s.missChargeBlock t0 k q).dieShows k Die.blockRun (d.est.lastDq, d.est.missRun + 1, decide (9 ≤ d.est.missRun)) := by
  have hmissing : ¬ (!s.stateEn k || decide (t0 + 100000000 ≤ d.est.lastT0) || (s.socSrc k).1 == 0xFF) = true := by
    rw [hen, decide_eq_false (Nat.not_le.2 hnew), beq_false_of_ne hsrc]
    decide
  have hcounted := State.countBlock_missing_blockRun (t0 := t0) (dq := d.est.lastDq) (q := q) hd
  unfold State.missChargeBlock
  rw [State.onDie_of hd.1 hd.2, if_neg hmissing, if_neg (Bool.eq_false_iff.1 hcounts)]
  dsimp only
  by_cases hten : 9 ≤ d.est.missRun
  · rw [if_pos (Nat.succ_le_succ hten), decide_eq_true hten]
    exact State.loseCount_blockRun (State.fitted_pos hd.1) hcounted
  · rw [if_neg fun h => hten (Nat.le_of_succ_le_succ h), decide_eq_false hten]
    exact hcounts ▸ hcounted

/-- Settles O14: the conditions leave one branch of the block that is sent and of the one that arrives; one that is missing is counted with
the charge of the last one, and the loss of the count at the tenth leaves that charge and the row as they are. -/
theorem chargeBlockCommandsComplete : Obligations.ChargeBlockCommandsComplete :=
  ⟨fun _ _ _ _ _ _ _ hw hnamed hd hrun htakes hpos hlate hx =>
      Runs.of (execChargeBlockSend_of hd hrun htakes hpos hlate hx hw hnamed) rfl,
    fun _ _ _ _ ha hlen hcrc hkind => Runs.of (execChargeBlockReceive_of ha hlen hcrc hkind) rfl,
    fun _ _ _ _ hw hlate => ⟨fun hnone => Runs.of (execChargeBlockMissing_of_unnamed hw hlate hnone) rfl,
      fun hsome => Runs.of (execChargeBlockMissing_of_named hw hlate hsome) rfl⟩,
    fun _ _ hsrc hrun hnew => by rw [State.meterGap_of hsrc hrun hnew]; exact ⟨rfl, rfl⟩,
    fun _ _ _ _ _ hd hen hnew hsrc hcounts => State.missChargeBlock_blockRun hd hen hnew hsrc hcounts⟩

end Sys2Proof.Machine
end

section
/-! The learned state in its two slots, one of which failed its check (R187, R188). -/

namespace Sys2Proof.Machine

/-- The sequence numbers of the slots that a die's learned state lies in. -/
def Die.slotSeqs (d : Die) : List Nat := d.est.slots.map (·.seq)

/-- The sequence number after the newest slot's. -/
def EstState.nextSeq (e : EstState) : Nat := ((e.slots.head?.map (·.seq)).getD 0 + 1) % 2 ^ 32

/-- A write takes the place of a slot that failed its check, of the older one when both hold (R187). -/
theorem State.persist_slotSeqs {s : State} {k : Nat} {d : Die} (hd : s.hasDie k d) (hwarn : s.warned = false) :
    (s.persist k).dieShows k Die.slotSeqs ((d.est.nextSeq :: (d.est.slots.filter (·.ok)).map (·.seq)).take 2) := by
  unfold State.persist
  rw [if_neg (Bool.eq_false_iff.1 hwarn)]
  refine State.shows_modDie (State.fitted_pos hd.1) hd.2 ?_
  rw [Die.slotSeqs, List.map_take, List.map_cons, EstState.nextSeq]

theorem execStatePersist_of {t k : Nat} {d : Die} {s w : State} (hw : w = (s.at_ t).adoptEst) (hd : w.hasDie k d) (hrun : w.inRun = true) :
    exec (.statePersist t k) s = .next (w.persist k) := by
  show execStatePersist t k s = _
  unfold execStatePersist
  dsimp only
  rw [← hw, State.onDie_of hd.1 hd.2, if_pos hrun]

/-- A slot without cells, written whole. -/
def bareSlot (seq time : Nat) : StateSlot :=
  { seq := seq, cells := [], identity := none, pattern := 0, charge := 0, wires := [], rests := [], at_ := time, ok := true }

/-- A die that was writing slot 6 when power was lost at 20 s: that slot fails its check, and slot 5 holds. -/
def tornDie : Die :=
  Die.tearWrites 20000000000
    { Die.initial with est := { EstState.initial with slots := [bareSlot 6 20000000000, bareSlot 5 10000000000] } }

/-- A module in RUN at 30 s with that die, its estimator enabled. -/
def tornModule : State :=
  { State.reset with
    now := 30000000000, dies := [tornDie], cfg := { CfgState.initial with f := [(cfgAddr 0x06 1 0, 1)] },
    power := { PowerState.initial with st := 0 } }

/-- No swapped field waits for its boundary. -/
theorem tornModule_adoptEst : tornModule = (tornModule.at_ 30000000000).adoptEst := rfl

theorem tornModule_hasDie : tornModule.hasDie 1 tornDie := ⟨by decide, rfl⟩

theorem tornModule_persists : Runs (.statePersist 30000000000 1) tornModule fun s' => s'.dieShows 1 Die.slotSeqs [7, 5] :=
  Runs.of (execStatePersist_of tornModule_adoptEst tornModule_hasDie rfl) (State.persist_slotSeqs tornModule_hasDie rfl)

/-- Refutes O15: its clause on the write keeps the slot that was the newest, but after power was lost during a write that slot fails its
check, and the model writes over it and keeps the older slot, which holds. -/
theorem not_estimatorCommandsComplete : ¬ Obligations.EstimatorCommandsComplete := by
  intro h
  obtain ⟨-, hwrite, -⟩ := h 30000000000 1 tornDie tornModule tornModule tornModule_adoptEst tornModule_hasDie (by decide)
  obtain ⟨s', hnext, hnewest⟩ := hwrite rfl rfl
  obtain ⟨u, hpersist, holder⟩ := tornModule_persists
  obtain rfl : s' = u := Host.Outcome.next.inj (hnext.symm.trans hpersist)
  have hseqs : [7, 6] = [7, 5] := Option.some.inj (hnewest.symm.trans holder)
  exact absurd hseqs (by decide)

end Sys2Proof.Machine
end

section
/-! Comparators, fault notices and readbacks of the threshold DACs (R202 to R205, R207, R404). -/

namespace Sys2Proof.Machine

/-! ### What leaves the protection states of the dies alone -/

/-- The protection states of the dies. -/
def State.prots (s : State) : List ProtState := s.dies.map (·.prot)

theorem State.die?_prot (s : State) (k : Nat) : (s.die? k).map (·.prot) = if k = 0 then none else s.prots[k - 1]? := by
  unfold State.die?
  split
  · rfl
  · exact List.getElem?_map.symm

/-- What is read from the protection state of a die is the same where these agree. -/
theorem State.shows_prots {α : Type} {s u : State} {k : Nat} {g : ProtState → α} {v : α} (h : u.prots = s.prots)
    (hs : s.dieShows k (fun d => g d.prot) v) : u.dieShows k (fun d => g d.prot) v := by
  have hprot : (u.die? k).map (·.prot) = (s.die? k).map (·.prot) := by rw [State.die?_prot, h, ← State.die?_prot]
  calc (u.die? k).map (fun d => g d.prot)
    _ = ((u.die? k).map (·.prot)).map g := (Option.map_map ..).symm
    _ = ((s.die? k).map (·.prot)).map g := by rw [hprot]
    _ = some v := (Option.map_map ..).trans hs

theorem State.prots_of_dies {s u : State} (h : u.dies = s.dies) : u.prots = s.prots := congrArg (List.map fun d : Die => d.prot) h

theorem prots_ite {c : Prop} {_ : Decidable c} {a b : State} {x : List ProtState} (ha : a.prots = x) (hb : b.prots = x) :
    (if c then a else b).prots = x := by split <;> assumption

theorem foldl_prots {α : Type} {f : State → α → State} (h : ∀ s a, (f s a).prots = s.prots) (l : List α) (s : State) :
    (l.foldl f s).prots = s.prots := by
  induction l generalizing s with
  | nil => rfl
  | cons a l ih => exact (ih _).trans (h _ _)

theorem onDie_prots {s : State} {k : Nat} {f : Die → State} {x : List ProtState} (h : ∀ d, (f d).prots = x) (hs : s.prots = x) :
    (s.onDie k f).prots = x := by
  unfold State.onDie
  split
  · split
    · exact h _
    · exact hs
  · exact hs

/-- A change of a die beside its protection state. -/
theorem prots_modDie {s u : State} {k : Nat} {f : Die → Die} (hu : u.prots = s.prots) (hf : ∀ d, (f d).prot = d.prot) :
    (u.modDie k f).prots = s.prots := by
  refine Eq.trans ?_ hu
  unfold State.modDie
  exact prots_ite rfl (modNth_map_eq hf (k - 1) u.dies)

theorem State.dieEvent_prots (s : State) (k : Nat) (e : Ev) : (s.dieEvent k e).prots = s.prots := by
  refine prots_ite (State.prots_of_dies (State.eventAt_dies ..)) (prots_modDie rfl fun d => ?_)
  split <;> rfl

/-! A slice that gives way (R462). -/

theorem State.startFrom_prots (s : State) (k i t : Nat) : (s.startFrom k i t).prots = s.prots := by
  unfold State.startFrom
  split
  · exact prots_modDie rfl fun _ => rfl
  · refine prots_modDie rfl fun d => ?_
    split <;> rfl

theorem State.releaseSlice_prots (s : State) (k block : Nat) : (s.releaseSlice k block).prots = s.prots := by
  refine prots_ite ?_ (prots_ite (prots_modDie rfl fun _ => rfl) (prots_ite (prots_modDie rfl fun _ => rfl) rfl))
  refine onDie_prots (fun d => prots_ite ((State.startFrom_prots ..).trans ?_) ?_) ?_
  all_goals exact prots_modDie rfl fun _ => rfl

theorem State.abortSlice_prots (s : State) (k : Nat) : (s.abortSlice k).prots = s.prots := by
  unfold State.abortSlice
  split
  · rfl
  · exact (State.releaseSlice_prots ..).trans rfl

theorem State.clearFor_prots (s : State) (k : Nat) : (s.clearFor k).prots = s.prots := by
  refine (foldl_prots (fun u j => ?_) _ _).trans (State.abortSlice_prots s k)
  split
  · exact prots_ite (State.abortSlice_prots u j) rfl
  · rfl

/-! Faults of a DAC that end (R207). -/

theorem State.dacCleared_prots (s : State) (k i : Nat) : (s.dacCleared k i).prots = s.prots := by
  refine onDie_prots (fun d => prots_ite rfl ?_) rfl
  exact (State.prots_of_dies (State.calm_dies (State.heartResume_calmEq _))).trans (State.dieEvent_prots ..)

/-! A fault that triggers captures (R78, R205). -/

theorem State.missTrigger_prots (s : State) (k : Nat) (c : Capture) : (s.missTrigger k c).prots = s.prots := by
  have hmissed : (s.modDie k fun d =>
      { d with fast := { (d.fast.proceed c s.now) with trigMissed := min (d.fast.trigMissed + 1) (2 ^ 32 - 1) } }).prots = s.prots :=
    prots_modDie rfl fun _ => rfl
  exact (State.prots_of_dies (State.completeOpt_dies ..)).trans (prots_ite ((State.dieEvent_prots ..).trans hmissed) hmissed)

theorem State.triggerCapture_prots (s : State) (k tTrig : Nat) : (s.triggerCapture k tTrig).prots = s.prots := by
  refine onDie_prots (fun d => ?_) rfl
  split
  · rfl
  · exact prots_ite rfl (prots_ite (State.missTrigger_prots ..) (prots_modDie rfl fun _ => rfl))

theorem State.faultTrigger_prots (s : State) (k tOrigin : Nat) (chain : Bool) : (s.faultTrigger k tOrigin chain).prots = s.prots := by
  refine onDie_prots (fun d => ?_) rfl
  split
  · exact prots_ite (State.triggerCapture_prots ..) rfl
  · rfl

/-- The hub acts on a notice without the protection state of any die (R205). -/
theorem State.takeNotice_prots (s : State) (k : Nat) (b : List Byte) : (s.takeNotice k b).prots = s.prots := by
  unfold State.takeNotice
  extract_lets kind which t seq err arg told history trust counted triggered stopped faulted
  have htold : told.prots = s.prots := State.prots_of_dies (State.eventAt_dies ..)
  clear_value told
  have hcounted : counted.prots = s.prots := prots_ite htold htold
  have htriggered : triggered.prots = s.prots :=
    prots_ite ((foldl_prots (fun u j => u.faultTrigger_prots j t false) _ _).trans hcounted) hcounted
  have hstopped : stopped.prots = s.prots := (State.prots_of_dies (State.calm_dies (State.heartStop_calmEq _))).trans htriggered
  have hfaulted : faulted.prots = s.prots := (State.prots_of_dies (State.ownFault_dies ..)).trans hstopped
  exact prots_ite hfaulted ((State.prots_of_dies (State.originate_dies ..)).trans hfaulted)

/-! ### What a die shows after the parts of a command -/

theorem State.shows_heartResume {α : Type} {s : State} {k : Nat} {f : Die → α} {v : α} (h : s.dieShows k f v) : s.heartResume.dieShows k f v :=
  State.shows_congr (State.calm_dies (State.heartResume_calmEq s)) h

section
variable {α : Type} {s : State} {k : Nat} {f : Die → α} {v : α}

/-- Channels that switch change nothing of the die but the channels. -/
theorem State.shows_settleChannels_of (hc : ∀ (d : Die) (c : List Chan), f { d with prot := { d.prot with chans := c } } = f d)
    (h : s.dieShows k f v) : (s.settleChannels k).dieShows k f v :=
  State.shows_modDie_unseen (fun d => hc d _) h

/-- The cap of R212 is noted with the reasons for it, ends injection, and takes channels off. -/
theorem State.shows_applyCap (hcap : ∀ (d : Die) (i : ImpState) (n : Nat) (a b : Bool) (c : List Chan),
      f { d with imp := i, prot := { d.prot with cap := n, derateT := a, derateGov := b, chans := c } } = f d)
    (h : s.dieShows k f v) : (s.applyCap k).dieShows k f v :=
  State.shows_settleChannels_of (fun d c => hcap d d.imp d.prot.cap d.prot.derateT d.prot.derateGov c)
    (State.shows_modDie_unseen (fun d => hcap d _ _ _ _ _) h)

end

/-! ### A tick (R202, R203, R209) -/

section
variable {s : State} {k : Nat} {b : Bool}

theorem State.endSweep_aonOn (h : s.dieShows k (·.prot.aonOn) b) : (s.endSweep k).dieShows k (·.prot.aonOn) b := by
  unfold State.endSweep
  split
  · split
    · exact State.shows_prots (State.abortSlice_prots s k) h
    · exact h
  · exact h

theorem State.adoptProt_aonOn (h : s.dieShows k (·.prot.aonOn) b) : (s.adoptProt k).dieShows k (·.prot.aonOn) b := by
  unfold State.adoptProt
  extract_lets due ov uv taken ov' uv' upd
  split
  · exact h
  · exact State.shows_modDie_unseen (fun _ => rfl) (State.shows_congr rfl h)

/-- A comparator that samples, trips or clears leaves its group powered. -/
theorem State.sampleComp_aonOn {i : Nat} {uv : Bool} {x : Rat} (h : s.dieShows k (·.prot.aonOn) b) :
    (s.sampleComp k i uv x).dieShows k (·.prot.aonOn) b := by
  refine shows_onDie (fun d => ?_) h
  extract_lets en l put lv c r
  have hput (c : Comp) : (put c s).dieShows k (·.prot.aonOn) b := State.shows_modDie_unseen (fun d => by cases uv <;> rfl) h
  split
  · exact hput _
  · split
    · exact hput _
    · refine State.shows_prots (State.faultTrigger_prots ..) (State.shows_modDie_unseen (fun _ => rfl) ?_)
      exact State.shows_prots (State.clearFor_prots ..) (hput _)
    · split
      · exact State.shows_prots (State.dieEvent_prots ..) (hput _)
      · exact hput _

end

section
variable {t k : Nat} {d : Die} {s : State} (hd : s.hasDie k d)
include hd

theorem execComparatorTick_shows (v : List Rat) (ha : d.prot.aonOn = true) (hdue : (s.at_ t).tickDue k d = true) :
    Runs (.comparatorTick t k v) s fun s' => s'.dieShows k (fun y => (y.prot.aonOn, y.prot.lastTick)) (true, t) := by
  have hticks : ¬ (!d.prot.aonOn || !(s.at_ t).tickDue k d) = true := by rw [ha, hdue]; decide
  refine ⟨_, rfl, ?_⟩
  rw [State.onDie_of (s := s.at_ t) hd.1 hd.2, if_neg hticks]
  extract_lets taken sampledOv sampled noted
  have htaken : taken.dieShows k (·.prot.aonOn) true :=
    State.adoptProt_aonOn (State.endSweep_aonOn ((congrArg (Option.map _) hd.2).trans (congrArg some ha)))
  have hsampled : sampled.dieShows k (·.prot.aonOn) true :=
    foldl_shows (fun _ _ h => State.sampleComp_aonOn h) _ (foldl_shows (fun _ _ h => State.sampleComp_aonOn h) _ htaken)
  have hready : (sampled.judgeReady k).dieShows k (·.prot.aonOn) true := State.shows_modDie_unseen (fun _ => rfl) hsampled
  obtain ⟨e, he, hon⟩ := Option.map_eq_some_iff.1 hready
  refine State.shows_heartResume (State.shows_applyCap (fun _ _ _ _ _ _ => rfl) ?_)
  exact State.shows_modDie (State.fitted_pos hd.1) he (congrArg (·, t) hon)

/-! ### The supply of AON-C (R203, R404) -/

theorem execAoncPowerUp_shows (ha : d.prot.aonOn = false) :
    Runs (.aoncPowerUp t k) s fun s' =>
      s'.dieShows k (fun y => (y.prot.aonOn, y.prot.wire, y.prot.rbFault, y.prot.notices, y.prot.timeout)) (true, 0, [false, false], [], true) := by
  refine ⟨_, rfl, ?_⟩
  rw [State.onDie_of (s := s.at_ t) hd.1 hd.2, if_neg (by rw [ha]; decide)]
  exact State.shows_modDie (s := (s.at_ t).takeRange 0x07 k 0 0x14) (State.fitted_pos hd.1) hd.2 rfl

/-- After its PREC domain is switched off a die has none, whether it had one before or not. -/
theorem State.precOff_precOn : (s.precOff k).dieShows k (·.precOn) false := by
  cases hp : d.precOn with
  | true => exact State.dieShows_map Prod.fst (State.precOff_shows hd hp)
  | false =>
    unfold State.precOff
    rw [State.onDie_of hd.1 hd.2, if_pos (by rw [hp]; decide)]
    exact (congrArg (Option.map _) hd.2).trans (congrArg some hp)

theorem execAoncPowerDown_shows (ha : d.prot.aonOn = true) :
    Runs (.aoncPowerDown t k) s fun s' =>
      s'.dieShows k (fun y => (y.prot.aonOn, y.prot.ready, y.precOn, y.prot.notices)) (false, false, false, []) := by
  obtain ⟨e, he, hoff⟩ := Option.map_eq_some_iff.1 (State.precOff_precOn (s := s.at_ t) hd)
  refine ⟨_, rfl, ?_⟩
  rw [State.onDie_of (s := s.at_ t) hd.1 hd.2, if_neg (by rw [ha]; decide)]
  refine State.shows_heartResume (State.shows_congr (s := ((s.at_ t).precOff k).modDie k _) rfl ?_)
  exact State.shows_modDie (State.fitted_pos hd.1) he (congrArg (fun p => (false, false, p, [])) hoff)

/-! ### A notice at the hub (R205) -/

theorem execFaultNoticeReceive_shows {side : Side} {n : Side × List Byte} (hn : (d.prot.notices.find? fun n => n.1 == side) = some n)
    (hserves : s.part.serving = true) (hheld : s.part.hubHeld = false) (hreach : s.reach k = true) (hpath : s.pathIntact k side = true) :
    Runs (.faultNoticeReceive t k side true) s fun s' =>
      s'.dieShows k (·.prot.notices) (d.prot.notices.eraseP fun x => x.1 == side) := by
  have hup : ¬ (!(s.at_ t).part.serving || (s.at_ t).part.hubHeld || !(s.at_ t).reach k) = true := by
    rw [State.at__part, State.reach_at_, hserves, hheld, hreach]
    decide
  refine ⟨_, rfl, ?_⟩
  rw [State.onDie_of (s := s.at_ t) hd.1 hd.2, hn]
  dsimp -zeta only
  extract_lets seq lost last turn u safe other w
  have hlost : lost = false := by
    show (!true || !s.pathIntact k side) = false
    rw [hpath]
    rfl
  have hu : u.dieShows k (·.prot.notices) (d.prot.notices.eraseP fun x => x.1 == side) :=
    State.shows_modDie (State.fitted_pos hd.1) hd.2 rfl
  have hw : w.dies = u.dies := by
    unfold w
    split <;> rfl
  rw [if_neg hup, hlost, Bool.false_and, if_neg Bool.false_ne_true, if_neg Bool.false_ne_true]
  split
  · exact hu
  · exact State.shows_prots (State.takeNotice_prots ..) (State.shows_congr hw hu)

/-! ### Readbacks (R207) -/

/-- What a readback notes of both DACs: the errors, what is asked for, and what is done. -/
def ProtState.readbacks (p : ProtState) : List Int × List Bool × List Nat := (p.rbErr, p.rbAsked, p.rbDone)

section
variable {uv : Bool} (v : Rat) (hp : d.precOn = true) (hu : d.seq.urgent = true) (hw : d.prot.owRun = none)
  (hdue : (s.at_ t).readbackDue d (b2n uv) = true)
include hp hu hw hdue

/-- A readback is kept, whether it passes or fails, and whether a fault begins or ends with it. -/
theorem execTdacReadback_shows : Runs (.tdacReadback t k uv v) s fun s' => s'.dieShows k (fun y => y.prot.readbacks)
    (setNth (b2n uv) (roundAway ((v - ((s.at_ t).levels k uv).1) * 10000)) d.prot.rbErr, setNth (b2n uv) false d.prot.rbAsked,
      setNth (b2n uv) (t / 10000000000) d.prot.rbDone) := by
  refine ⟨_, rfl, ?_⟩
  rw [State.onDie_of (s := s.at_ t) hd.1 hd.2]
  extract_lets i err fail nf np had kept
  have hnow : (s.at_ t).readbackDue d i = true := hdue
  rw [if_neg (by rw [hp, hu, hw, hnow]; decide)]
  have hkept : kept.dieShows k (fun y => y.prot.readbacks) (setNth i (roundAway (err * 10000)) d.prot.rbErr, setNth i false d.prot.rbAsked,
      setNth i (t / 10000000000) d.prot.rbDone) := State.shows_modDie (State.fitted_pos hd.1) hd.2 rfl
  split
  · exact State.shows_modDie_unseen (fun _ => rfl) (State.shows_prots (State.clearFor_prots ..) hkept)
  · split
    · exact State.shows_prots (State.dacCleared_prots ..) (State.shows_modDie_unseen (fun _ => rfl) hkept)
    · exact hkept

theorem execTdacReadback_faults (hfail : 3 / 1000 < rabs (v - ((s.at_ t).levels k uv).1)) (hrun : d.prot.rbFail.getD (b2n uv) 0 = 1) :
    Runs (.tdacReadback t k uv v) s fun s' => s'.dieShows k (·.prot.rbFault) (setNth (b2n uv) true d.prot.rbFault) := by
  refine ⟨_, rfl, ?_⟩
  rw [State.onDie_of (s := s.at_ t) hd.1 hd.2]
  extract_lets i err fail nf np had kept
  have hnow : (s.at_ t).readbackDue d i = true := hdue
  rw [if_neg (by rw [hp, hu, hw, hnow]; decide)]
  have hfails : fail = true := decide_eq_true hfail
  have hsecond : nf = 2 := by
    unfold nf
    rw [if_pos hfails, hrun]
  have hk := State.fitted_pos hd.1
  have hkept : kept.dieShows k (·.prot.rbFault) d.prot.rbFault := State.shows_modDie hk hd.2 rfl
  obtain ⟨e, he, hfault⟩ := Option.map_eq_some_iff.1 (State.shows_prots (State.clearFor_prots kept k) hkept)
  rw [if_pos (by rw [hfails, hsecond]; decide)]
  exact State.shows_modDie hk he (congrArg (setNth i true) hfault)

end

end

/-- Settles O16: the conditions of a clause leave one branch of its command, and what follows its change of the die (the slice that gives
way, the captures that a fault triggers, the channels and the heartbeat) does not touch what the clause shows. -/
theorem comparatorCommandsComplete : Obligations.ComparatorCommandsComplete := fun _ _ _ _ hd =>
  ⟨fun v ha hdue => execComparatorTick_shows hd v ha hdue, fun ha => execAoncPowerUp_shows hd ha, fun ha => execAoncPowerDown_shows hd ha,
    fun _ _ hn hserves hheld hreach hpath => execFaultNoticeReceive_shows hd hn hserves hheld hreach hpath,
    fun _ v hp hu hw hdue => ⟨execTdacReadback_shows hd v hp hu hw hdue, execTdacReadback_faults hd v hp hu hw hdue⟩⟩

end Sys2Proof.Machine
end

section
/-! Open sense wires: sweeps, checks, rechecks and shunt inputs (R220, R221, R223, R224). -/

namespace Sys2Proof.Machine

/-! ### Wires suspected and broken -/

/-- The wires of a die that are suspected and those that are broken. -/
def Die.wires (d : Die) : List Nat × Nat := (d.prot.suspect, d.prot.wire)

/-- The first wire that is suspected, unless its break is confirmed already. -/
theorem Die.suspectWire_of_none {d : Die} {w : Nat} (h : d.prot.suspect = []) :
    (d.suspectWire w).prot = { d.prot with suspect := if d.prot.wire.testBit w = true then [] else [w] } := by
  unfold Die.suspectWire
  rw [h, List.contains_nil, Bool.false_or]
  split
  · rw [← h]
  · rfl

theorem Die.confirmBreak_wire {d : Die} {w : Nat} (k now : Nat) (h : d.prot.wire.testBit w = false) :
    (d.confirmBreak k w now).prot.wire = setBit d.prot.wire w true := by
  unfold Die.confirmBreak
  rw [if_neg (by rw [h]; decide)]
  dsimp only [Die.notice]
  split <;> rfl

/-! ### What a check that begins or ends leaves of the wires (R221) -/

section
variable {α : Type} {s : State} {k : Nat} {f : Die → α} {v : α}
  (hc : ∀ (d : Die) (c : List Chan), f { d with prot := { d.prot with chans := c } } = f d)
  (hr : ∀ (d : Die) (r : Option (Nat × Nat)), f { d with prot := { d.prot with owRun := r } } = f d)
include hc hr

theorem State.shows_owEnd_of (h : s.dieShows k f v) : (s.owEnd k).dieShows k f v :=
  State.shows_settleChannels_of hc (State.shows_modDie_unseen (fun d => hr d none) (State.shows_settleChannels_of hc h))

theorem State.shows_owBegin_of (h : s.dieShows k f v) : (s.owBegin k).dieShows k f v := by
  refine shows_onDie (fun d => ?_) h
  split
  · exact h
  · split
    · exact h
    · split
      · exact h
      · exact State.shows_settleChannels_of hc (State.shows_modDie_unseen (fun d => hr d _) h)

end

/-! ### The commands -/

section
variable {t k : Nat} {d : Die} {s : State} (hd : s.hasDie k d) (hp : d.precOn = true)
include hd hp

theorem execOwSweep_shows (hprot : d.prot.protOnly = false) (hper : s.fF 0x07 k 0x024 31 24 ≠ 0) (hnone : d.prot.suspect = [])
    (ht : d.prot.lastSweep + s.fF 0x07 k 0x024 31 24 * 40000000 ≤ t) :
    Runs (.owSweep t k) s fun s' => s'.dieShows k (fun y => (y.prot.sweepNext, y.prot.lastSweep, y.prot.suspect))
      ((d.prot.sweepNext + 1) % 25, t, if d.prot.wire.testBit d.prot.sweepNext = true then [] else [d.prot.sweepNext]) := by
  have hdue : ¬ (!d.precOn || d.prot.protOnly || decide ((s.at_ t).fF 0x07 k 0x024 31 24 = 0) || !d.prot.suspect.isEmpty ||
      decide (t < d.prot.lastSweep + (s.at_ t).fF 0x07 k 0x024 31 24 * 40000000)) = true := by
    rw [State.fF_at_, hp, hprot, hnone, decide_eq_false hper, decide_eq_false (Nat.not_lt.2 ht)]
    decide
  refine ⟨_, rfl, ?_⟩
  rw [State.onDie_of (s := s.at_ t) hd.1 hd.2]
  dsimp only
  rw [if_neg hdue]
  refine State.shows_modDie (State.fitted_pos hd.1) hd.2 ?_
  refine congrArg (fun p : ProtState => (p.sweepNext, p.lastSweep, p.suspect)) (Die.suspectWire_of_none ?_)
  exact hnone

/-- The check of the oldest suspected wire, taken off (R221). -/
theorem execOwCheckComplete_of (pre post : List Rat) {w : Nat} {rest : List Nat} {v : State} (hsus : d.prot.suspect = w :: rest)
    (hdone : (s.at_ t).owDone k w d = true) (hv : v = ((s.at_ t).modDie k fun x => { x with prot := { x.prot with suspect := rest } }).owEnd k) :
    exec (.owCheckComplete t k pre post) s = .next ((
      if v.owJudge k w d pre post = true then (v.modDie k fun d => d.confirmBreak k w t).settleChannels k
      else if w = 24 then v.modDie k fun d => { d with prot := { d.prot with vstkArmed := true } } else v).owBegin k) := by
  have hends : ¬ (!d.precOn || !(s.at_ t).owDone k w d) = true := by rw [hp, hdone]; decide
  subst hv
  show execOwCheckComplete t k pre post s = _
  unfold execOwCheckComplete
  dsimp only
  rw [State.onDie_of (s := s.at_ t) hd.1 hd.2, hsus]
  exact congrArg Host.Outcome.next (if_neg hends)

theorem execOwCheckComplete_shows (pre post : List Rat) {w : Nat} {rest : List Nat} {v : State} (hsus : d.prot.suspect = w :: rest)
    (hdone : (s.at_ t).owDone k w d = true) (hv : v = ((s.at_ t).modDie k fun x => { x with prot := { x.prot with suspect := rest } }).owEnd k) :
    (v.owJudge k w d pre post = false → Runs (.owCheckComplete t k pre post) s fun s' => s'.dieShows k Die.wires (rest, d.prot.wire)) ∧
    (v.owJudge k w d pre post = true → d.prot.wire.testBit w = false → Runs (.owCheckComplete t k pre post) s fun s' =>
      s'.dieShows k (·.prot.wire) (setBit d.prot.wire w true)) := by
  have hk := State.fitted_pos hd.1
  have hexec := execOwCheckComplete_of hd hp pre post hsus hdone hv
  have hshown : v.dieShows k Die.wires (rest, d.prot.wire) := by
    rw [hv]
    exact State.shows_owEnd_of (fun _ _ => rfl) (fun _ _ => rfl) (State.shows_modDie (s := s.at_ t) hk hd.2 rfl)
  refine ⟨fun hno => Runs.of hexec (State.shows_owBegin_of (fun _ _ => rfl) (fun _ _ => rfl) ?_),
    fun hyes hnew => Runs.of hexec (State.shows_owBegin_of (fun _ _ => rfl) (fun _ _ => rfl) ?_)⟩
  · rw [if_neg (by rw [hno]; decide)]
    split
    · exact State.shows_modDie_unseen (fun _ => rfl) hshown
    · exact hshown
  · obtain ⟨e, he, hwires⟩ := Option.map_eq_some_iff.1 hshown
    have hwire : e.prot.wire = d.prot.wire := congrArg Prod.snd hwires
    rw [if_pos hyes]
    refine State.shows_settleChannels_of (fun _ _ => rfl) (State.shows_modDie hk he ?_)
    rw [← hwire]
    exact Die.confirmBreak_wire k t (hwire ▸ hnew)

theorem execOwRecheck_shows {w : Nat} (pre post : List Rat) {x : Nat × Nat} (hw : w ≤ 24) (hprot : d.prot.protOnly = false)
    (hx : d.prot.wireAt.find? (fun y => y.1 == w) = some x) (ht : x.2 + 10000000000 ≤ t) (hdone : (s.at_ t).owDone k w d = true) :
    Runs (.owRecheck t k w pre post) s fun s' =>
      s'.dieShows k (·.prot.wire) (if (s.at_ t).owJudge k w d pre post = true then d.prot.wire else setBit d.prot.wire w false) := by
  have hdue : ¬ (!d.precOn || d.prot.protOnly || decide (t < x.2 + 10000000000) || (decide (w ≤ 24) && !(s.at_ t).owDone k w d)) = true := by
    rw [hp, hprot, hdone, decide_eq_false (Nat.not_lt.2 ht), Bool.not_true, Bool.and_false]
    decide
  have hk := State.fitted_pos hd.1
  refine ⟨_, rfl, ?_⟩
  rw [State.onDie_of (s := s.at_ t) hd.1 hd.2, hx]
  dsimp only
  rw [if_neg hdue, if_pos hw, if_pos hw]
  refine State.shows_owBegin_of (fun _ _ => rfl) (fun _ _ => rfl) ?_
  have hended : ((s.at_ t).owEnd k).dieShows k (·.prot.wire) d.prot.wire :=
    State.shows_owEnd_of (fun _ _ => rfl) (fun _ _ => rfl) (congrArg (Option.map _) hd.2)
  split
  · exact State.shows_modDie_unseen (fun _ => rfl) hended
  · obtain ⟨e, he, hwire⟩ := Option.map_eq_some_iff.1 hended
    refine State.shows_heartResume (State.shows_settleChannels_of (fun _ _ => rfl) (State.shows_prots (State.dieEvent_prots ..) ?_))
    exact State.shows_modDie hk he (congrArg (setBit · w false) hwire)

theorem execShuntInputBreak_shows {w : Nat} (hlo : 26 ≤ w) (hhi : w ≤ 29) (hnew : d.prot.wire.testBit w = false) :
    Runs (.shuntInputBreak t k w) s fun s' => s'.dieShows k (·.prot.wire) (setBit d.prot.wire w true) := by
  have hinput : ¬ (!d.precOn || decide (w < 26) || decide (29 < w)) = true := by
    rw [hp, decide_eq_false (Nat.not_lt.2 hlo), decide_eq_false (Nat.not_lt.2 hhi)]
    decide
  refine ⟨_, rfl, ?_⟩
  rw [State.onDie_of (s := s.at_ t) hd.1 hd.2, if_neg hinput]
  exact State.shows_modDie (State.fitted_pos hd.1) hd.2 (Die.confirmBreak_wire k t hnew)

end

/-- Settles O17: the conditions of a clause leave one branch of its command, and the checks that end and begin around it do not touch which
wires are suspected or broken. -/
theorem wireCheckCommandsComplete : Obligations.WireCheckCommandsComplete := fun _ _ _ _ hd hp =>
  ⟨fun hprot hper hnone ht => execOwSweep_shows hd hp hprot hper hnone ht,
    fun pre post _ _ _ hsus hdone hv => execOwCheckComplete_shows hd hp pre post hsus hdone hv,
    fun _ pre post _ hw hprot hx ht hdone => execOwRecheck_shows hd hp pre post hw hprot hx ht hdone,
    fun _ hlo hhi hnew => execShuntInputBreak_shows hd hp hlo hhi hnew⟩

end Sys2Proof.Machine
end

section
/-! The balance scheduler: steps, need checks, overcurrents, keep-alives, timeouts and records (R210, R213 to R215, R218, R228). -/

namespace Sys2Proof.Machine

/-! ### What switching leaves of a channel -/

/-- What a channel remembers of the step: off for its rest, over-currents, held off (R210). -/
structure StepMarks where
  stepOff : Bool
  ocHit : Bool
  ocSteps : Nat
  heldOff : Bool

/-- The marks of a channel. -/
def Chan.marks (c : Chan) : StepMarks := { stepOff := c.stepOff, ocHit := c.ocHit, ocSteps := c.ocSteps, heldOff := c.heldOff }

/-- The marks of the channels of a die. -/
def Die.chanMarks (d : Die) : List StepMarks := d.prot.chans.map Chan.marks

theorem zipIdx_map_map_eq {α β : Type} {f : α × Nat → α} {g : α → β} (h : ∀ x, g (f x) = g x.1) (l : List α) :
    (l.zipIdx.map f).map g = l.map g := by
  rw [List.map_map, show g ∘ f = g ∘ Prod.fst from funext h, ← List.map_map, List.zipIdx_map_fst]

section
variable {s : State} {k : Nat} {l : List StepMarks}

/-- A channel that switches is counted up to the instant and keeps its marks. -/
theorem State.settleChannels_chanMarks (h : s.dieShows k Die.chanMarks l) : (s.settleChannels k).dieShows k Die.chanMarks l := by
  refine State.shows_modDie_unseen (fun d => zipIdx_map_map_eq (fun x => ?_) d.prot.chans) h
  dsimp only
  split <;> rfl

/-- A channel beyond the cap is taken off and keeps its marks (R212). -/
theorem State.applyCap_chanMarks (h : s.dieShows k Die.chanMarks l) : (s.applyCap k).dieShows k Die.chanMarks l := by
  refine State.settleChannels_chanMarks (State.shows_modDie_unseen (fun d => zipIdx_map_map_eq (fun x => ?_) d.prot.chans) h)
  rfl

end

/-- The marks of one channel, by number, are among those of the die. -/
theorem Die.chanMarks_getD (d : Die) (n : Nat) :
    d.chanMarks.getD (n - 1) { stepOff := false, ocHit := false, ocSteps := 0, heldOff := false } = (d.prot.chan n).marks := by
  rw [Die.chanMarks, ProtState.chan, List.getD_eq_getElem?_getD, List.getD_eq_getElem?_getD, List.getElem?_map]
  cases d.prot.chans[n - 1]? with
  | none => rfl
  | some c => rfl

theorem State.shows_chan_marks {s : State} {k n : Nat} {l : List StepMarks} (h : s.dieShows k Die.chanMarks l) :
    s.dieShows k (fun y => (y.prot.chan n).marks)
      (l.getD (n - 1) { stepOff := false, ocHit := false, ocSteps := 0, heldOff := false }) := by
  obtain ⟨d, hd, rfl⟩ := Option.map_eq_some_iff.1 h
  exact (congrArg (Option.map _) hd).trans (congrArg some (d.chanMarks_getD n).symm)

/-- A channel that conducts is one of those that there are. -/
theorem ProtState.chan_lt_of_conducting {p : ProtState} {n : Nat} (h : (p.chan n).conducting = true) : n - 1 < p.chans.length := by
  refine Nat.lt_of_not_le fun hle => ?_
  rw [ProtState.chan, List.getD_eq_getElem?_getD, List.getElem?_eq_none hle, Option.getD_none] at h
  cases h

/-! ### The record of an interval (R228) -/

/-- The channels of a die counted up to an instant. -/
def Die.markChans (now : Nat) (d : Die) : Die := { d with prot := { d.prot with chans := d.prot.chans.map fun c => c.markTo now } }

/-- The counts of the record interval begun again. -/
def Die.restartCounts (d : Die) : Die :=
  { d with prot := { d.prot with chans := d.prot.chans.map fun (c : Chan) => { c with onMs := 0, mas := 0 } } }

/-- A change of a die is none of the mode in force. -/
theorem State.balMode_modDie (s : State) (k : Nat) (f : Die → Die) (j : Nat) : (s.modDie k f).balMode j = s.balMode j := by
  unfold State.balMode State.fF State.regF
  rw [State.modDie_cfg]

/-- A record formed on a die is held in T0, or counted as dropped. -/
theorem State.dieRecord_shows {s : State} {k recType time : Nat} {bytes : List Byte} {d : Die} (hk : k ≠ 0) (hd : s.die? k = some d) :
    (s.dieRecord k recType time bytes).dieShows k (fun y => (y.t0.length + y.t0Drop, y.prot)) (d.t0.length + d.t0Drop + 1, d.prot) := by
  refine State.shows_modDie hk hd ?_
  split
  · refine Prod.ext ?_ rfl
    simp only [List.length_append, List.length_singleton]
    omega
  · rfl

/-! ### The commands -/

section
variable {t k : Nat} {d : Die} {s : State} (hd : s.hasDie k d)
include hd

theorem execBalOvercurrent_shows {n : Nat} (h1 : 1 ≤ n) (h24 : n ≤ 24) (hint : s.fB 0x07 k 0x014 4 = false)
    (hon : (d.prot.chan n).conducting = true) (hnew : (d.prot.chan n).ocHit = false) :
    Runs (.balOvercurrent t k n) s fun s' => s'.dieShows k (fun y => (y.prot.chan n).marks)
      { stepOff := (d.prot.chan n).stepOff, ocHit := true, ocSteps := (d.prot.chan n).ocSteps + 1,
        heldOff := (d.prot.chan n).heldOff || decide (3 ≤ (d.prot.chan n).ocSteps + 1) } := by
  have hcounts : ¬ (decide (n = 0) || decide (24 < n) || (s.at_ t).fB 0x07 k 0x014 4 || !(d.prot.chan n).conducting ||
      (d.prot.chan n).ocHit) = true := by
    rw [State.fB_at_, hint, hon, hnew, decide_eq_false (Nat.ne_of_gt h1), decide_eq_false (Nat.not_lt.2 h24)]
    decide
  refine ⟨_, rfl, ?_⟩
  rw [State.onDie_of (s := s.at_ t) hd.1 hd.2]
  extract_lets c steps held hit settled
  rw [if_neg hcounts]
  have hhit : hit.dieShows k (fun y => (y.prot.chan n).marks)
      { stepOff := c.stepOff, ocHit := true, ocSteps := c.ocSteps + 1, heldOff := c.heldOff || decide (3 ≤ c.ocSteps + 1) } :=
    State.shows_modDie (State.fitted_pos hd.1) hd.2 (congrArg Chan.marks (getD_setNth_same _ _ (ProtState.chan_lt_of_conducting hon)))
  have hsettled : settled.dieShows k (fun y => (y.prot.chan n).marks)
      { stepOff := c.stepOff, ocHit := true, ocSteps := c.ocSteps + 1, heldOff := c.heldOff || decide (3 ≤ c.ocSteps + 1) } := by
    obtain ⟨e, he, hmarks⟩ := Option.map_eq_some_iff.1 hhit
    rw [← hmarks, ← Die.chanMarks_getD]
    exact State.shows_chan_marks (State.settleChannels_chanMarks (congrArg (Option.map _) he))
  split
  · exact State.shows_prots (g := fun p => (p.chan n).marks) (State.dieEvent_prots ..) hsettled
  · exact hsettled

section
variable (hp : d.precOn = true)
include hp

theorem execBalStep_shows {w u : State} {e : Die} (hrun : s.inRunDoze = true) (hserves : s.part.serving = true) (hper : s.balStepNs k ≠ 0)
    (ht : t % s.balStepNs k = 0)
    (hw : w = (((s.at_ t).takeRange 0x07 k 0x14 0xE0).policyTaken k).modDie k fun x =>
      { x with prot := { x.prot with order := [], chans := x.prot.chans.map fun c => (c.markTo t).endStep } })
    (hu : u = if w.balMode k = 2 then w.clearDebts k else w) (he : u.hasDie k e) :
    Runs (.balStep t k) s fun s' => s'.dieShows k (·.prot.order)
      (((if (e.prot.timeout || e.prot.protOnly || u.conflict) = true then [] else u.balSelect k e u.balRefs).take (u.balCap k e).1).map (·.1)) := by
  have hdue : ¬ (!d.precOn || !(s.at_ t).inRunDoze || !(s.at_ t).part.serving || decide ((s.at_ t).balStepNs k = 0) ||
      decide (t % (s.at_ t).balStepNs k ≠ 0)) = true := by
    rw [State.inRunDoze_at_, State.at__part, State.balStepNs_at_, hp, hrun, hserves, decide_eq_false hper, decide_eq_false (not_not_intro ht)]
    decide
  refine ⟨_, rfl, ?_⟩
  rw [State.onDie_of (s := s.at_ t) hd.1 hd.2, if_neg hdue]
  dsimp only
  rw [← hw, ← hu, State.onDie_of he.1 he.2]
  exact State.shows_applyCap (fun _ _ _ _ _ _ => rfl) (State.shows_modDie (State.fitted_pos he.1) he.2 rfl)

theorem execBalNeedCheck_shows (hmode : 2 ≤ s.balMode k) (ht : t % 100000000 = 0) :
    Runs (.balNeedCheck t k) s fun s' =>
      s'.dieShows k (fun y => y.prot.chans.map (·.stepOff)) (d.prot.chans.map fun c => c.stepOff || (c.sched && decide (c.need ≤ c.removed))) := by
  have hdue : ¬ (!d.precOn || decide ((s.at_ t).balMode k < 2) || decide (t % 100000000 ≠ 0)) = true := by
    rw [State.balMode_at_, hp, decide_eq_false (Nat.not_lt.2 hmode), decide_eq_false (not_not_intro ht)]
    decide
  refine ⟨_, rfl, ?_⟩
  rw [State.onDie_of (s := s.at_ t) hd.1 hd.2, if_neg hdue]
  extract_lets checked
  have hchecked : checked.dieShows k Die.chanMarks
      (d.prot.chans.map fun c => { c.marks with stepOff := c.stepOff || (c.sched && decide (c.need ≤ c.removed)) }) := by
    refine State.shows_modDie (State.fitted_pos hd.1) hd.2 ((List.map_map ..).trans (List.map_congr_left fun c _ => ?_))
    show Chan.marks (if (c.sched && decide (c.need ≤ c.removed)) = true then { c with stepOff := true } else c) = _
    cases c.sched && decide (c.need ≤ c.removed) with
    | true => simp [Chan.marks]
    | false => simp [Chan.marks]
  have hstepOff := State.dieShows_map (List.map StepMarks.stepOff) (State.applyCap_chanMarks hchecked)
  simpa [Die.chanMarks, Chan.marks, Function.comp_def] using hstepOff

theorem execBalKeepalive_shows (hka : d.prot.kaDue = true) :
    Runs (.balKeepalive t k) s fun s' => s'.dieShows k (fun y => (y.prot.keepAt, y.prot.kaDue, y.prot.timeout)) (s.clock t, false, false) := by
  refine ⟨_, rfl, ?_⟩
  unfold State.keepAlive
  rw [State.onDie_of (s := s.at_ t) hd.1 hd.2, if_neg (by rw [hka, hp]; decide)]
  extract_lets kept
  have hkept : kept.dieShows k (fun y => (y.prot.keepAt, y.prot.kaDue, y.prot.timeout)) (s.clock t, false, false) :=
    State.shows_modDie (State.fitted_pos hd.1) hd.2 rfl
  split
  · exact State.shows_dieEventFull (fun _ _ _ => rfl) hkept
  · exact hkept

theorem execBalTimeoutExpire_shows (hno : d.prot.timeout = false) (ht : d.prot.keepAt + s.fF 0x07 k 0x014 31 22 * 1000000000 ≤ t) :
    Runs (.balTimeoutExpire t k) s fun s' => s'.dieShows k (·.prot.timeout) true := by
  have hdue : ¬ (!d.precOn || d.prot.timeout || decide (t < d.prot.keepAt + (s.at_ t).fF 0x07 k 0x014 31 22 * 1000000000)) = true := by
    rw [State.fF_at_, hp, hno, decide_eq_false (Nat.not_lt.2 ht)]
    decide
  refine ⟨_, rfl, ?_⟩
  rw [State.onDie_of (s := s.at_ t) hd.1 hd.2, if_neg hdue]
  refine State.shows_dieEventFull (fun _ _ _ => rfl) (State.shows_settleChannels_of (fun _ _ => rfl) ?_)
  exact State.shows_modDie (State.fitted_pos hd.1) hd.2 rfl

theorem execBalanceRecordInterval_of (ht : t % 10000000000 = 0) (hmode : s.balMode k ≠ 0) :
    exec (.balanceRecordInterval t k) s = .next ((((s.at_ t).modDie k (Die.markChans t)).modDie k Die.restartCounts).dieRecord k 0x0801 t
      (((s.at_ t).modDie k (Die.markChans t)).balRecord k t (d.markChans t))) := by
  have hdue : ¬ (!d.precOn || decide (t % 10000000000 ≠ 0)) = true := by
    rw [hp, decide_eq_false (not_not_intro ht)]
    decide
  have hmarked : ((s.at_ t).modDie k (Die.markChans t)).hasDie k (d.markChans t) :=
    ⟨(State.fitted_modDie ..).trans hd.1, (State.die?_modDie_same _ (State.fitted_pos hd.1)).trans (congrArg (Option.map _) hd.2)⟩
  have hrecords : ¬ ((s.at_ t).modDie k (Die.markChans t)).balMode k = 0 := by rwa [State.balMode_modDie]
  show execBalanceRecordInterval t k s = _
  unfold execBalanceRecordInterval
  dsimp only
  rw [State.onDie_of (s := s.at_ t) hd.1 hd.2, if_neg hdue]
  exact congrArg Host.Outcome.next ((State.onDie_of hmarked.1 hmarked.2).trans (if_neg hrecords))

theorem execBalanceRecordInterval_shows (ht : t % 10000000000 = 0) (hmode : s.balMode k ≠ 0) :
    Runs (.balanceRecordInterval t k) s fun s' =>
      s'.dieShows k (fun y => (y.t0.length + y.t0Drop, y.prot.chans.map (·.onMs))) (d.t0.length + d.t0Drop + 1, d.prot.chans.map fun _ => 0) := by
  have hk := State.fitted_pos hd.1
  have hrestarted : (((s.at_ t).modDie k (Die.markChans t)).modDie k Die.restartCounts).die? k = some (d.markChans t).restartCounts := by
    rw [State.die?_modDie_same _ hk, State.die?_modDie_same _ hk, State.die?_at_, hd.2]
    rfl
  have honMs : (d.markChans t).restartCounts.prot.chans.map (·.onMs) = d.prot.chans.map fun _ => 0 := by
    simp only [Die.markChans, Die.restartCounts, List.map_map]
    rfl
  refine Runs.of (execBalanceRecordInterval_of hd hp ht hmode) ?_
  rw [← honMs]
  exact State.dieShows_map (Prod.map id fun p : ProtState => p.chans.map (·.onMs)) (State.dieRecord_shows hk hrestarted)

end

end

/-- Settles O18: the conditions of a clause leave one branch of its command, and the channels that switch after it keep what the clause
shows. -/
theorem balancingCommandsComplete : Obligations.BalancingCommandsComplete := fun _ _ _ _ hd =>
  ⟨fun _ _ _ hp hrun hserves hper ht hw hu he => execBalStep_shows hd hp hrun hserves hper ht hw hu he,
    fun hp hmode ht => execBalNeedCheck_shows hd hp hmode ht,
    fun n h1 h24 hint hon hnew => by
      obtain ⟨s', hexec, hmarks⟩ := execBalOvercurrent_shows hd h1 h24 hint hon hnew
      exact ⟨s', hexec, State.dieShows_map (fun m : StepMarks => (m.ocHit, m.ocSteps, m.heldOff)) hmarks⟩,
    fun hp hka => execBalKeepalive_shows hd hp hka, fun hp hno ht => execBalTimeoutExpire_shows hd hp hno ht,
    fun hp ht hmode => execBalanceRecordInterval_shows hd hp ht hmode⟩

end Sys2Proof.Machine
end

section
/-! Frames of the chain that carry a command, a completion or an event (R218, R333, R334, R336, R341, R351, R359, R456). -/

namespace Sys2Proof.Machine

/-! ### The last segment of a message that is delivered -/

/-- What a part does on a command of the gateway that has come whole (R218, R341, R351). -/
def State.takeCommand (s : State) (b : List Byte) : State :=
  if b.take 1 = le 1 0x07 ∧ b.length = 2 then s.closeFor (rd b 1 1)
  else if b.take 1 = le 1 0x08 ∧ b.length = 13 then s.unclaimTo (rd b 1 1) (rd b 2 2) (rd b 4 1) (rd b 5 8)
  else if b.take 1 = le 1 0x0D ∧ b.length = 2 then s.enterPend
  else s.undoze.noteValid

/-- What the list of commands notes of a completion of the command it names before it is taken. -/
def State.noteCompletion (s : State) (b : List Byte) : State :=
  match s.hif.inflight.find? fun x => x.isFor (rd b 2 1) (rd b 0 2) (rd b 12 2) with
  | none => s
  | some x => s.modHif fun h => (h.noteSleep x (rd b 3 1) (rd b 14 2)).noteOpen x (rd b 14 2)

/-- What the gateway does on a completion that has come whole (R333, R334, R359). -/
def State.receiveCompletion (s : State) (b : List Byte) : State :=
  if rd b 14 2 = preparedCode then s.notePrepared (rd b 2 1) (rd b 0 2) (rd b 3 1)
  else if rd b 14 2 = armedCode then
    if s.sync.unanswered (rd b 4 8) then { s with sync := { s.sync with armed := s.sync.armed ++ [rd b 4 8] } } else s
  else if rd b 14 2 = disarmedCode then { s with sync := { s.sync with armed := s.sync.armed.erase (rd b 4 8) } }
  else ((s.noteCompletion b).takeCompletion (rd b 2 1) (rd b 0 2) (rd b 12 2) (rd b 3 1) (rd b 4 4) (rd b 8 4) (rd b 14 2) (b.drop 16)).startAll

/-- A part whose hops run takes the frames of traffic class 1 and of the kind that its role takes. -/
theorem State.takesKind {s : State} {f : Frame} {role : Bool} {kind : Nat} (t : Nat) (hlink : s.linkRuns = true) (hrole : role = true)
    (htc : f.tc = 1) (hk : f.kind = kind) : ¬ (!(s.at_ t).linkRuns || !role || f.tc != 1 || f.kind != kind) = true := by
  simp [hlink, hrole, htc, hk]

section
variable {t : Nat} {bytes b : List Byte} {s w u : State} (hlink : s.linkRuns = true) (htc : (frameOf bytes).tc = 1)
  (hacc : (s.at_ t).accept (frameOf bytes) = (.deliver, w)) (hasm : w.assemble (frameOf bytes) = (some b, u))
include hlink htc hacc hasm

theorem execCommandFrameReceive_of (hm : s.isModule = true) (hk : (frameOf bytes).kind = 0x10) (ho : (frameOf bytes).origin = 0) :
    exec (.commandFrameReceive t bytes) s = .next (u.takeCommand b) := by
  show execCommandFrameReceive t bytes s = _
  unfold execCommandFrameReceive
  dsimp only
  rw [if_neg (State.takesKind (role := (s.at_ t).isModule) t hlink hm htc hk), hacc, if_neg (by simp [ho])]
  dsimp only
  rw [hasm]
  rfl

theorem execCompletionFrameReceive_of (hg : s.isGateway = true) (hk : (frameOf bytes).kind = 0x11) :
    exec (.completionFrameReceive t bytes) s = .next (u.receiveCompletion b) := by
  show execCompletionFrameReceive t bytes s = _
  unfold execCompletionFrameReceive
  dsimp only
  rw [if_neg (State.takesKind (role := (s.at_ t).isGateway) t hlink hg htc hk), hacc, if_neg (not_not_intro rfl)]
  dsimp only
  rw [hasm]
  rfl

theorem execEventFrameReceive_of (hg : s.isGateway = true) (hk : (frameOf bytes).kind = 0x12) {v x : State}
    (hv : v = u.modHif fun h => { h with eqWait := h.eqWait ++ [{ bytes := b.take 32, since := t, ref := none }] })
    (hx : x = if rd b 0 1 = 50 ∧ rd b 16 1 = 0 then (v.awake (frameOf bytes).origin).startAll else v) :
    exec (.eventFrameReceive t bytes) s = .next ((x.drawBits 32).2.blackBox 0x20 false
      (le 8 ((x.drawBits 32).2.identOf (frameOf bytes).origin) ++ le 4 (x.drawBits 32).1 ++ le 1 0x10 ++ b.take 28)) := by
  subst hx hv
  show execEventFrameReceive t bytes s = _
  unfold execEventFrameReceive
  dsimp only
  rw [if_neg (State.takesKind (role := (s.at_ t).isGateway) t hlink hg htc hk), hacc, if_neg (not_not_intro rfl)]
  dsimp only
  rw [hasm]

end

/-! ### What a completion is for -/

section
variable {s : State} {b : List Byte}

theorem State.receiveCompletion_prepared (h : rd b 14 2 = preparedCode) :
    s.receiveCompletion b = s.notePrepared (rd b 2 1) (rd b 0 2) (rd b 3 1) := if_pos h

theorem State.receiveCompletion_armed (h : rd b 14 2 = armedCode) :
    (s.receiveCompletion b).sync.armed = if s.sync.unanswered (rd b 4 8) = true then s.sync.armed ++ [rd b 4 8] else s.sync.armed := by
  have hother : rd b 14 2 ≠ preparedCode := by rw [h]; decide
  rw [State.receiveCompletion, if_neg hother, if_pos h]
  split <;> rfl

theorem State.receiveCompletion_disarmed (h : rd b 14 2 = disarmedCode) :
    (s.receiveCompletion b).sync.armed = s.sync.armed.erase (rd b 4 8) := by
  have hprepared : rd b 14 2 ≠ preparedCode := by rw [h]; decide
  have harmed : rd b 14 2 ≠ armedCode := by rw [h]; decide
  rw [State.receiveCompletion, if_neg hprepared, if_neg harmed, if_pos h]

theorem State.receiveCompletion_of_status (hp : rd b 14 2 ≠ preparedCode) (ha : rd b 14 2 ≠ armedCode) (hd : rd b 14 2 ≠ disarmedCode) :
    s.receiveCompletion b = ((s.noteCompletion b).takeCompletion (rd b 2 1) (rd b 0 2) (rd b 12 2) (rd b 3 1) (rd b 4 4) (rd b 8 4) (rd b 14 2)
      (b.drop 16)).startAll := by
  rw [State.receiveCompletion, if_neg hp, if_neg ha, if_neg hd]

theorem State.noteCompletion_unknown (h : s.hif.inflight.find? (fun x => x.isFor (rd b 2 1) (rd b 0 2) (rd b 12 2)) = none) :
    s.noteCompletion b = s := by
  rw [State.noteCompletion, h]

theorem State.noteCompletion_known {x : InFlight} (h : s.hif.inflight.find? (fun x => x.isFor (rd b 2 1) (rd b 0 2) (rd b 12 2)) = some x) :
    s.noteCompletion b = s.modHif fun h => (h.noteSleep x (rd b 3 1) (rd b 14 2)).noteOpen x (rd b 14 2) := by
  rw [State.noteCompletion, h]

end

/-- Settles O36: a frame that ends a message of its kind at the part it is for has the effect of the message, and the code of a completion
leaves one of its effects. -/
theorem messageCommandsComplete : Obligations.MessageCommandsComplete := by
  rintro t bytes b f s w u rfl hlink htc hacc hasm
  refine ⟨fun hm hk ho => Runs.of (execCommandFrameReceive_of hlink htc hacc hasm hm hk ho) rfl, fun hg hk => ?_,
    fun v x hg hk hv hx => Runs.of (execEventFrameReceive_of hlink htc hacc hasm hg hk hv hx) rfl⟩
  have hexec := execCompletionFrameReceive_of hlink htc hacc hasm hg hk
  refine ⟨fun h => Runs.of hexec (State.receiveCompletion_prepared h), fun h => Runs.of hexec (State.receiveCompletion_armed h),
    fun h => Runs.of hexec (State.receiveCompletion_disarmed h), fun hp ha hd hnone => Runs.of hexec ?_,
    fun x hp ha hd hsome => Runs.of hexec ?_⟩
  · rw [State.receiveCompletion_of_status hp ha hd, State.noteCompletion_unknown hnone]
  · rw [State.receiveCompletion_of_status hp ha hd, State.noteCompletion_known hsome]

end Sys2Proof.Machine
end

section
/-! Which commands touch the single-wire ports, the check units and the thermal governor (R233, R242, R470, R471, R482, R483). -/

namespace Sys2Proof.Machine

/-- The ports, the check units and the governor are what `State.aux` holds. -/
theorem State.ports_checks_governor_of_aux {s u : State} (h : s.aux = u.aux) : s.swp = u.swp ∧ s.chk = u.chk ∧ s.therm = u.therm := by
  simpa only [State.aux, Prod.mk.injEq] using h

/-- Settles O51: each command that is not named has its law that it leaves the ports, the check units and the governor alone, and the
queue that the step takes it from is none of them. -/
theorem onlyNamedCommandsChangePortsChecksAndGovernor : Obligations.OnlyNamedCommandsChangePortsChecksAndGovernor := by
  intro s c rest hq
  obtain ⟨s', h⟩ := exec_answers_next c (s.withPending rest)
  have keep (ha : s'.aux = (s.withPending rest).aux) : s'.swp = s.swp ∧ s'.chk = s.chk ∧ s'.therm = s.therm :=
    State.ports_checks_governor_of_aux ha
  refine ⟨s', (step_cons hq).trans h, ?_⟩
  cases c with
  | searchAll | searchNewPeriodic | swpSearchComplete | swpStreamCycle | swpSlotRead | swpCycleEnd | swpLineShort | swpShortRetry
  | powerStateSleep | powerStateShip | sensorSearch | configSwap | railFault | railInRegulation | railRampTimeout
  | powerFailWarning | holdTimeExpire | rstNAssert | precPowerUp | hubBistRetry | completionWrite | sliceEnd | chkOpen
  | chkDataWrite | chkClose | checkCompute | thermalSample | thermalStepDown | hubOverheat | hubCooled | meterCommit
  | firmwareActivate | firmwareReturnPrevious | spanReady | lifeSeal | lifeRelocate | lifeReturn | debugClose
  | commandFrameReceive | spanReadyTimeout => trivial
  | innerLinkBroken => exact keep (execInnerLinkBroken_auxEq h)
  | innerLinkRestored => exact keep (execInnerLinkRestored_auxEq h)
  | dieLost => exact keep (execDieLost_auxEq h)
  | rolePadChange => exact keep (execRolePadChange_auxEq h)
  | precisionSample => exact keep (execPrecisionSample_auxEq h)
  | spareDwellStep => exact keep (execSpareDwellStep_auxEq h)
  | warmExpire => exact keep (execWarmExpire_auxEq h)
  | refMonitorSample => exact keep (execRefMonitorSample_auxEq h)
  | refIntervalClose => exact keep (execRefIntervalClose_auxEq h)
  | gateWindowOpen => exact keep (execGateWindowOpen_auxEq h)
  | gateWindowClose => exact keep (execGateWindowClose_auxEq h)
  | fastFrameHold => exact keep (execFastFrameHold_auxEq h)
  | captureTimerTrigger => exact keep (execCaptureTimerTrigger_auxEq h)
  | syncInEdge => exact keep (execSyncInEdge_auxEq h)
  | carrierBeaconReceive => exact keep (execCarrierBeaconReceive_auxEq h)
  | captureEdgeTimeout => exact keep (execCaptureEdgeTimeout_auxEq h)
  | captureBlockDrain => exact keep (execCaptureBlockDrain_auxEq h)
  | seqWord => exact keep (execSeqWord_auxEq h)
  | seqEntryEnd => exact keep (execSeqEntryEnd_auxEq h)
  | m30CalInsert => exact keep (execM30CalInsert_auxEq h)
  | urgentWorkPreempt => exact keep (execUrgentWorkPreempt_auxEq h)
  | urgentWorkEnd => exact keep (execUrgentWorkEnd_auxEq h)
  | calRunClose => exact keep (execCalRunClose_auxEq h)
  | calSolveComplete => exact keep (execCalSolveComplete_auxEq h)
  | calExpiry => exact keep (execCalExpiry_auxEq h)
  | currentBlockSend => exact keep (execCurrentBlockSend_auxEq h)
  | currentBlockReceive => exact keep (execCurrentBlockReceive_auxEq h)
  | currentBlockMissing => exact keep (execCurrentBlockMissing_auxEq h)
  | impSegmentEnd => exact keep (execImpSegmentEnd_auxEq h)
  | impAverageEnd => exact keep (execImpAverageEnd_auxEq h)
  | injectionChip => exact keep (execInjectionChip_auxEq h)
  | chargeBlockSend => exact keep (execChargeBlockSend_auxEq h)
  | chargeBlockReceive => exact keep (execChargeBlockReceive_auxEq h)
  | chargeBlockMissing => exact keep (execChargeBlockMissing_auxEq h)
  | stateSecond => exact keep (execStateSecond_auxEq h)
  | statePersist => exact keep (execStatePersist_auxEq h)
  | comparatorTick => exact keep (execComparatorTick_auxEq h)
  | aoncPowerUp => exact keep (execAoncPowerUp_auxEq h)
  | aoncPowerDown => exact keep (execAoncPowerDown_auxEq h)
  | faultNoticeReceive => exact keep (execFaultNoticeReceive_auxEq h)
  | tdacReadback => exact keep (execTdacReadback_auxEq h)
  | balStep => exact keep (execBalStep_auxEq h)
  | balNeedCheck => exact keep (execBalNeedCheck_auxEq h)
  | balOvercurrent => exact keep (execBalOvercurrent_auxEq h)
  | balKeepalive => exact keep (execBalKeepalive_auxEq h)
  | balTimeoutExpire => exact keep (execBalTimeoutExpire_auxEq h)
  | owSweep => exact keep (execOwSweep_auxEq h)
  | owCheckComplete => exact keep (execOwCheckComplete_auxEq h)
  | owRecheck => exact keep (execOwRecheck_auxEq h)
  | shuntInputBreak => exact keep (execShuntInputBreak_auxEq h)
  | codewordBoundary => exact keep (execCodewordBoundary_auxEq h)
  | codewordReceive => exact keep (execCodewordReceive_auxEq h)
  | controlCodewordReceive => exact keep (execControlCodewordReceive_auxEq h)
  | tc0AckTimeout => exact keep (execTc0AckTimeout_auxEq h)
  | frameRetryTimeout => exact keep (execFrameRetryTimeout_auxEq h)
  | hopSilenceTimeout => exact keep (execHopSilenceTimeout_auxEq h)
  | hopMarginTimeout => exact keep (execHopMarginTimeout_auxEq h)
  | hopTrainingRetry => exact keep (execHopTrainingRetry_auxEq h)
  | hopTrainingComplete => exact keep (execHopTrainingComplete_auxEq h)
  | hopRouteRestore => exact keep (execHopRouteRestore_auxEq h)
  | apcAdjust => exact keep (execApcAdjust_auxEq h)
  | hopKeyingMessage => exact keep (execHopKeyingMessage_auxEq h)
  | hopRekey => exact keep (execHopRekey_auxEq h)
  | frameForward => exact keep (execFrameForward_auxEq h)
  | mseqGapRelease => exact keep (execMseqGapRelease_auxEq h)
  | linkStateNoticeReceive => exact keep (execLinkStateNoticeReceive_auxEq h)
  | completionFrameReceive => exact keep (execCompletionFrameReceive_auxEq h)
  | eventFrameReceive => exact keep (execEventFrameReceive_auxEq h)
  | recordFrameReceive => exact keep (execRecordFrameReceive_auxEq h)
  | firmwareFrameReceive => exact keep (execFirmwareFrameReceive_auxEq h)
  | enumStartReceive => exact keep (execEnumStartReceive_auxEq h)
  | discoverSend => exact keep (execDiscoverSend_auxEq h)
  | discoverReceive => exact keep (execDiscoverReceive_auxEq h)
  | enumWaitExpire => exact keep (execEnumWaitExpire_auxEq h)
  | timeBeaconSend => exact keep (execTimeBeaconSend_auxEq h)
  | timeBeaconReceive => exact keep (execTimeBeaconReceive_auxEq h)
  | tqHoldover => exact keep (execTqHoldover_auxEq h)
  | packTimeCommit => exact keep (execPackTimeCommit_auxEq h)
  | heartbeatSend => exact keep (execHeartbeatSend_auxEq h)
  | sleepListenWindow => exact keep (execSleepListenWindow_auxEq h)
  | wakeRunReceive => exact keep (execWakeRunReceive_auxEq h)
  | longBeaconDetect => exact keep (execLongBeaconDetect_auxEq h)
  | innerTimeWord => exact keep (execInnerTimeWord_auxEq h)
  | innerTimeWordTimeout => exact keep (execInnerTimeWordTimeout_auxEq h)
  | recordArrive => exact keep (execRecordArrive_auxEq h)
  | unitProgramComplete => exact keep (execUnitProgramComplete_auxEq h)
  | d2UnitClose => exact keep (execD2UnitClose_auxEq h)
  | bucketAccrue => exact keep (execBucketAccrue_auxEq h)
  | storageTempSample => exact keep (execStorageTempSample_auxEq h)
  | blockRefresh => exact keep (execBlockRefresh_auxEq h)
  | storageDieFail => exact keep (execStorageDieFail_auxEq h)
  | spillHolderRechoose => exact keep (execSpillHolderRechoose_auxEq h)
  | recordRetentionExpire => exact keep (execRecordRetentionExpire_auxEq h)
  | locusEvaluate => exact keep (execLocusEvaluate_auxEq h)
  | taskMove => exact keep (execTaskMove_auxEq h)
  | dieRecordResend => exact keep (execDieRecordResend_auxEq h)
  | hifReset => exact keep (execHifReset_auxEq h)
  | hifEnable => exact keep (execHifEnable_auxEq h)
  | hifShutdown => exact keep (execHifShutdown_auxEq h)
  | queueEnable => exact keep (execQueueEnable_auxEq h)
  | queueDisable => exact keep (execQueueDisable_auxEq h)
  | registerWrite => exact keep (execRegisterWrite_auxEq h)
  | kick _ value => exact keep (execKick_auxEq (_value := value) h)
  | doorbellPoll => exact keep (execDoorbellPoll_auxEq h)
  | doorbellReadComplete => exact keep (execDoorbellReadComplete_auxEq h)
  | descriptorFetch => exact keep (execDescriptorFetch_auxEq h)
  | commandTimeout => exact keep (execCommandTimeout_auxEq h)
  | streamEntryWrite => exact keep (execStreamEntryWrite_auxEq h)
  | eventEntryWrite => exact keep (execEventEntryWrite_auxEq h)
  | interruptCoalesceExpire => exact keep (execInterruptCoalesceExpire_auxEq h)
  | msixUnmask => exact keep (execMsixUnmask_auxEq h)
  | eventDelayReport => exact keep (execEventDelayReport_auxEq h)
  | identify => exact keep (execIdentify_auxEq h)
  | enumerate => exact keep (execEnumerate_auxEq h)
  | configRead => exact keep (execConfigRead_auxEq h)
  | shadowWrite => exact keep (execShadowWrite_auxEq h)
  | commit => exact keep (execCommit_auxEq h)
  | commitCheck => exact keep (execCommitCheck_auxEq h)
  | commitRevert => exact keep (execCommitRevert_auxEq h)
  | commitCancel => exact keep (execCommitCancel_auxEq h)
  | shadowCopyComplete => exact keep (execShadowCopyComplete_auxEq h)
  | groupCommitDecide => exact keep (execGroupCommitDecide_auxEq h)
  | groupGoReceive => exact keep (execGroupGoReceive_auxEq h)
  | groupAbortReceive => exact keep (execGroupAbortReceive_auxEq h)
  | groupGoDeadline => exact keep (execGroupGoDeadline_auxEq h)
  | streamOpen => exact keep (execStreamOpen_auxEq h)
  | streamClose => exact keep (execStreamClose_auxEq h)
  | recordRead => exact keep (execRecordRead_auxEq h)
  | captureArm => exact keep (execCaptureArm_auxEq h)
  | captureDisarm => exact keep (execCaptureDisarm_auxEq h)
  | captureFetch => exact keep (execCaptureFetch_auxEq h)
  | storeRead => exact keep (execStoreRead_auxEq h)
  | balancePolicy => exact keep (execBalancePolicy_auxEq h)
  | powerStateRun => exact keep (execPowerStateRun_auxEq h)
  | powerStateDoze => exact keep (execPowerStateDoze_auxEq h)
  | selftestRunAll => exact keep (execSelftestRunAll_auxEq h)
  | selftestRunBlock => exact keep (execSelftestRunBlock_auxEq h)
  | calEarlyEnd => exact keep (execCalEarlyEnd_auxEq h)
  | calReset => exact keep (execCalReset_auxEq h)
  | meterStatement => exact keep (execMeterStatement_auxEq h)
  | trustChallenge => exact keep (execTrustChallenge_auxEq h)
  | firmwareStage => exact keep (execFirmwareStage_auxEq h)
  | firmwareVerify => exact keep (execFirmwareVerify_auxEq h)
  | spanStop => exact keep (execSpanStop_auxEq h)
  | svnCommit => exact keep (execSvnCommit_auxEq h)
  | blackboxRead => exact keep (execBlackboxRead_auxEq h)
  | lockoutRelease => exact keep (execLockoutRelease_auxEq h)
  | lifeGenkey => exact keep (execLifeGenkey_auxEq h)
  | lifeUpdate => exact keep (execLifeUpdate_auxEq h)
  | ping => exact keep (execPing_auxEq h)
  | safetyTick => exact keep (execSafetyTick_auxEq h)
  | safetyInputSample => exact keep (execSafetyInputSample_auxEq h)
  | testPulseStart => exact keep (execTestPulseStart_auxEq h)
  | discrepancyLatch => exact keep (execDiscrepancyLatch_auxEq h)
  | safetyFrameReceive => exact keep (execSafetyFrameReceive_auxEq h)
  | safetyMboxService => exact keep (execSafetyMboxService_auxEq h)
  | hostWatchdogExpire => exact keep (execHostWatchdogExpire_auxEq h)
  | watchdogExpire => exact keep (execWatchdogExpire_auxEq h)
  | outputOvercurrent => exact keep (execOutputOvercurrent_auxEq h)
  | outputOpenLoad => exact keep (execOutputOpenLoad_auxEq h)
  | outputEconomyStart => exact keep (execOutputEconomyStart_auxEq h)
  | feedbackTimeout => exact keep (execFeedbackTimeout_auxEq h)
  | lorstReleaseEdge => exact keep (execLorstReleaseEdge_auxEq h)
  | lorstHeld => exact keep (execLorstHeld_auxEq h)
  | inputValid => exact keep (execInputValid_auxEq h)
  | inputInvalid => exact keep (execInputInvalid_auxEq h)
  | railRetry => exact keep (execRailRetry_auxEq h)
  | railCounterCopy => exact keep (execRailCounterCopy_auxEq h)
  | holdCharged => exact keep (execHoldCharged_auxEq h)
  | holdLow => exact keep (execHoldLow_auxEq h)
  | holdChargeTimeout => exact keep (execHoldChargeTimeout_auxEq h)
  | powerUpSequence => exact keep (execPowerUpSequence_auxEq h)
  | powerUpRetry => exact keep (execPowerUpRetry_auxEq h)
  | railDischarged => exact keep (execRailDischarged_auxEq h)
  | shutdownRestart => exact keep (execShutdownRestart_auxEq h)
  | dozeEnter => exact keep (execDozeEnter_auxEq h)
  | dozeExit => exact keep (execDozeExit_auxEq h)
  | wakeSource => exact keep (execWakeSource_auxEq h)
  | sleepTimerExpire => exact keep (execSleepTimerExpire_auxEq h)
  | aonSupplyLoss => exact keep (execAonSupplyLoss_auxEq h)
  | rstNRelease => exact keep (execRstNRelease_auxEq h)
  | rstNStuck => exact keep (execRstNStuck_auxEq h)
  | rstIgnoredClear => exact keep (execRstIgnoredClear_auxEq h)
  | dieIsolationTimeout => exact keep (execDieIsolationTimeout_auxEq h)
  | firewallViolation => exact keep (execFirewallViolation_auxEq h)
  | meterSnapshot => exact keep (execMeterSnapshot_auxEq h)
  | historyPeriod => exact keep (execHistoryPeriod_auxEq h)
  | blackboxRecordWrite => exact keep (execBlackboxRecordWrite_auxEq h)
  | debugObserveOpen => exact keep (execDebugObserveOpen_auxEq h)
  | debugFullOpen => exact keep (execDebugFullOpen_auxEq h)
  | sliceStart => exact keep (execSliceStart_auxEq h)
  | selftestOverdue => exact keep (execSelftestOverdue_auxEq h)
  | dieOverheat => exact keep (execDieOverheat_auxEq h)
  | dieCooled => exact keep (execDieCooled_auxEq h)
  | faultNoticeFrameReceive => exact keep (execFaultNoticeFrameReceive_auxEq h)
  | gatewayHeartbeatReceive => exact keep (execGatewayHeartbeatReceive_auxEq h)
  | gwOkTimeout => exact keep (execGwOkTimeout_auxEq h)
  | enumFrameReceive => exact keep (execEnumFrameReceive_auxEq h)
  | balanceRecordInterval => exact keep (execBalanceRecordInterval_auxEq h)
  | hostReadTimeout => exact keep (execHostReadTimeout_auxEq h)

end Sys2Proof.Machine
end

section
/-! The frames of the safety commands and of the commands of a single-wire port (R233, R234, R242, R244, R367 to R369, R372, R374, R378,
R382, R385). -/

namespace Sys2Proof.Machine

/-- What every answer of a command has, it runs with. -/
theorem Runs.of_answers {i : Instr} {s : State} {P : State → Prop} (h : ∀ s', exec i s = .next s' → P s') : Runs i s P := by
  obtain ⟨s', hs⟩ := exec_answers_next i s
  exact ⟨s', hs, h s' hs⟩

/-- A command whose every answer leaves the calm part alone has the frame of the safety commands. -/
theorem Runs.calmFrame {i : Instr} {s : State} (h : ∀ s', exec i s = .next s' → s'.calm = s.calm) : Runs i s fun s' =>
    s'.dies = s.dies ∧ s'.cfg = s.cfg ∧ s'.sync = s.sync ∧ s'.swp = s.swp ∧ s'.power = s.power ∧ s'.chk = s.chk ∧ s'.therm = s.therm :=
  Runs.of_answers fun s' hs => by simpa only [State.calm, Prod.mk.injEq] using h s' hs

/-- A command whose every answer leaves all beside a port alone has the frame of the single-wire commands. -/
theorem Runs.besideFrame {i : Instr} {s : State} (h : ∀ s', exec i s = .next s' → s'.beside = s.beside) : Runs i s fun s' =>
    s'.dies = s.dies ∧ s'.sync = s.sync ∧ s'.safe = s.safe ∧ s'.power = s.power ∧ s'.selfTest = s.selfTest ∧ s'.chk = s.chk ∧
      s'.therm = s.therm :=
  Runs.of_answers fun s' hs => by simpa only [State.beside, Prod.mk.injEq] using h s' hs

/-- Settles O53: each of the commands has its law that it leaves the calm part, or all beside the port, alone. -/
theorem safetyAndSingleWireFrame : Obligations.SafetyAndSingleWireFrame := by
  intro c s
  cases c with
  | testPulseStart => exact Runs.calmFrame fun _ h => execTestPulseStart_calmEq h
  | safetyInputSample => exact Runs.calmFrame fun _ h => execSafetyInputSample_calmEq h
  | discrepancyLatch => exact Runs.calmFrame fun _ h => execDiscrepancyLatch_calmEq h
  | safetyFrameReceive => exact Runs.calmFrame fun _ h => execSafetyFrameReceive_calmEq h
  | safetyMboxService => exact Runs.calmFrame fun _ h => execSafetyMboxService_calmEq h
  | hostWatchdogExpire => exact Runs.calmFrame fun _ h => execHostWatchdogExpire_calmEq h
  | watchdogExpire => exact Runs.calmFrame fun _ h => execWatchdogExpire_calmEq h
  | outputOvercurrent => exact Runs.calmFrame fun _ h => execOutputOvercurrent_calmEq h
  | outputOpenLoad => exact Runs.calmFrame fun _ h => execOutputOpenLoad_calmEq h
  | outputEconomyStart => exact Runs.calmFrame fun _ h => execOutputEconomyStart_calmEq h
  | feedbackTimeout => exact Runs.calmFrame fun _ h => execFeedbackTimeout_calmEq h
  | lorstReleaseEdge => exact Runs.calmFrame fun _ h => execLorstReleaseEdge_calmEq h
  | lorstHeld => exact Runs.calmFrame fun _ h => execLorstHeld_calmEq h
  | gatewayHeartbeatReceive => exact Runs.calmFrame fun _ h => execGatewayHeartbeatReceive_calmEq h
  | gwOkTimeout => exact Runs.calmFrame fun _ h => execGwOkTimeout_calmEq h
  | heartbeatSend => exact Runs.calmFrame fun _ h => execHeartbeatSend_calmEq h
  | searchAll => exact Runs.besideFrame fun _ h => execSearchAll_stillEq h
  | searchNewPeriodic => exact Runs.besideFrame fun _ h => execSearchNewPeriodic_stillEq h
  | swpSearchComplete => exact Runs.besideFrame fun _ h => execSwpSearchComplete_stillEq h
  | swpStreamCycle => exact Runs.besideFrame fun _ h => execSwpStreamCycle_stillEq h
  | swpSlotRead => exact Runs.besideFrame fun _ h => execSwpSlotRead_stillEq h
  | swpCycleEnd => exact Runs.besideFrame fun _ h => execSwpCycleEnd_stillEq h
  | swpLineShort => exact Runs.besideFrame fun _ h => execSwpLineShort_stillEq h
  | swpShortRetry => exact Runs.besideFrame fun _ h => execSwpShortRetry_stillEq h
  | _ => trivial

end Sys2Proof.Machine
end

section
/-! The check of the single-wire port registers at a commit (R247). -/

namespace Sys2Proof.Machine

/-- An entry of a canonical map is what its address reads as. -/
theorem cellGet_of_mem {m : List Host.Cell} {c : Host.Cell} (h : cellWf m = true) (hc : c ∈ m) : cellGet m c.1 = c.2 := by
  replace h := ((cellWf_iff m).1 h).2
  induction m with
  | nil => cases hc
  | cons d ds ih =>
    obtain ⟨hd, hp⟩ := List.pairwise_cons.1 h
    obtain rfl | hc := List.mem_cons.1 hc
    · exact if_pos rfl
    · exact (if_neg (Nat.ne_of_lt (hd c hc))).trans (ih hc hp)

/-! ### The fields of SWP_CTRL -/

section
variable {m : List Host.Cell} {off : Nat} (hoff : off = 0 ∨ off = 4)
include hoff

theorem swpCycle_regIn : bits (regIn m 0x11 0 off) 31 16 = bits (cellWord m 0x11 0 off) 31 16 :=
  bits_regIn (by obtain rfl | rfl := hoff <;> decide)

theorem swpEnable_regIn : bit (regIn m 0x11 0 off) 0 = bit (cellWord m 0x11 0 off) 0 :=
  congrArg (· == 1) (bits_regIn (by obtain rfl | rfl := hoff <;> decide))

/-- Bit 3, the only bit of SWP_CTRL that is write 0, read 0, stands in its first byte. -/
theorem swpCtrl_masked_iff : cellGet m (cfgAddr 0x11 0 off) &&& cfgMask (cfgAddr 0x11 0 off) = cellGet m (cfgAddr 0x11 0 off) ↔
    bit (cellWord m 0x11 0 off) 3 = false := by
  have hmask : cfgMask (cfgAddr 0x11 0 off) = 0xF7 := by obtain rfl | rfl := hoff <;> decide
  have hbyte : ∀ b : Byte, b &&& 0xF7 = b ↔ bit b.toNat 3 = false := by decide
  have hword : bits (cellWord m 0x11 0 off) 3 3 = bits (cellGet m (cfgAddr 0x11 0 off)).toNat 3 3 := by
    rw [cellWord_eq]
    unfold bits
    omega
  rw [hmask, hbyte]
  unfold bit
  rw [hword]

/-- An enabled port with SWP_CYCLE out of its range is an offence. -/
theorem checkPorts_of_cycle (hen : bit (cellWord m 0x11 0 off) 0 = true)
    (hcyc : bits (cellWord m 0x11 0 off) 31 16 < 120 ∨ 10000 < bits (cellWord m 0x11 0 off) 31 16) : checkPorts m ≠ [] := by
  have hport : (bit (regIn m 0x11 0 off) 0 && outside (bits (regIn m 0x11 0 off) 31 16) 120 10000) = true := by
    rw [swpEnable_regIn hoff, swpCycle_regIn hoff, hen]
    simpa [outside] using hcyc
  refine List.append_ne_nil_of_left_ne_nil (offences_ne_nil (x := (_, off)) ?_ hport) _
  obtain rfl | rfl := hoff
  · exact List.mem_cons_self
  · exact List.mem_cons_of_mem _ List.mem_cons_self

/-- Bit 3 of SWP_CTRL set is an offence. -/
theorem checkPorts_of_stray (h : bit (cellWord m 0x11 0 off) 3 = true) : checkPorts m ≠ [] := by
  refine List.append_ne_nil_of_right_ne_nil _ (strayRegs_ne_nil (a := cfgAddr 0x11 0 off) ?_ ?_ ?_ ?_)
  · exact cfgAddr_mono (Nat.zero_le off)
  · obtain rfl | rfl := hoff <;> decide
  · obtain rfl | rfl := hoff <;> decide
  · rw [Ne, swpCtrl_masked_iff hoff, h]
    decide

end

/-! ### A block without offence -/

/-- But for the first byte of each register, every bit of the two registers may be written. -/
theorem swpCtrl_mask_full : ∀ i < 8, i ≠ 0 → i ≠ 4 → cfgMask (blockLo 0x11 0 + i) = BitVec.allOnes 8 := by decide

/-- A canonical map that lists nothing beyond the two registers, bit 3 of both clear, holds no stray bit in the block. -/
theorem strayRegs_ports_nil {m : List Host.Cell} (hwf : cellWf m = true)
    (hlen : ∀ c ∈ m, blockLo 0x11 0 ≤ c.1 → c.1 < blockHi 0x11 0 → c.1 < blockLo 0x11 0 + 8)
    (hbit : ∀ off, off = 0 ∨ off = 4 → bit (cellWord m 0x11 0 off) 3 = false) : strayRegs m 0x11 0 = [] := by
  have masked : ∀ c ∈ m, blockLo 0x11 0 ≤ c.1 → c.1 < blockHi 0x11 0 → c.2 &&& cfgMask c.1 = c.2 := by
    intro c hc hlo hhi
    obtain ⟨i, hi⟩ := Nat.exists_eq_add_of_le hlo
    have hi8 : i < 8 := by have := hlen c hc hlo hhi; omega
    by_cases h : i = 0 ∨ i = 4
    · have hget := (swpCtrl_masked_iff (m := m) h).2 (hbit i h)
      have haddr : cfgAddr 0x11 0 i = c.1 := hi.symm
      rwa [haddr, cellGet_of_mem hwf hc] at hget
    · rw [hi, swpCtrl_mask_full i hi8 (fun h0 => h (.inl h0)) (fun h4 => h (.inr h4)), BitVec.and_allOnes]
  unfold strayRegs
  rw [List.map_eq_nil_iff, List.filter_eq_nil_iff]
  intro c hc h
  rw [Bool.and_eq_true, Bool.and_eq_true, decide_eq_true_eq, decide_eq_true_eq, bne_iff_ne] at h
  obtain ⟨⟨hlo, hhi⟩, hstray⟩ := h
  exact hstray (masked c hc hlo hhi)

/-- Settles O58: the two offences that R247 names are the only ones of the block, and one of them rejects the commit. -/
theorem portFieldsOutOfRangeRejectTheCommit : Obligations.PortFieldsOutOfRangeRejectTheCommit := by
  refine ⟨?_, fun m hwf hlen h => ?_⟩
  · rintro s t off w hoff rfl (⟨hen, hcyc⟩ | hbit)
    · exact rejectsCommit_of (checkSet_ports (checkPorts_of_cycle hoff hen hcyc))
    · exact rejectsCommit_of (checkSet_ports (checkPorts_of_stray hoff hbit))
  · have port (off : Nat) (hoff : off = 0 ∨ off = 4) :
        (bit (regIn m 0x11 0 off) 0 && outside (bits (regIn m 0x11 0 off) 31 16) 120 10000) = false := by
      obtain ⟨_, hcyc⟩ := h off _ hoff rfl
      rw [swpEnable_regIn hoff, swpCycle_regIn hoff]
      simpa [outside] using hcyc
    unfold checkPorts offences
    rw [strayRegs_ports_nil hwf hlen fun off hoff => (h off _ hoff rfl).1]
    simp [port 0 (.inl rfl), port 4 (.inr rfl)]

end Sys2Proof.Machine
end

section
/-! The commands of a single-wire port (R233 to R246). -/

namespace Sys2Proof.Machine

/-! ### What a port shows -/

section
variable {α β : Type} {s u : State} {p : Nat} {f : SwpPort → α} {f' : SwpPort → β} {v : α} {v' : β}

/-- States that agree in the ports show the same of them. -/
theorem State.portShows_of_aux (h : s.aux = u.aux) (hu : u.portShows p f v) : s.portShows p f v := by
  unfold State.portShows at *
  obtain ⟨hswp, _⟩ := State.ports_checks_governor_of_aux h
  rw [hswp, hu]

/-- What a port shows after a change, by what it showed before. -/
theorem State.portShows_modSwp {g : SwpPort → SwpPort} (hp : p ≠ 0) (hg : ∀ y, f y = v → f' (g y) = v') (h : s.portShows p f v) :
    (s.modSwp p g).portShows p f' v' := by
  obtain ⟨y, hy, hv⟩ := Option.map_eq_some_iff.1 h
  exact State.shows_modSwp hp hy (hg y hv)

theorem State.portShows_onSwp {q : Nat} {g : SwpPort → State} (hg : ∀ y, (g y).portShows p f v) (h : s.portShows p f v) :
    (s.onSwp q g).portShows p f v := by
  unfold State.onSwp
  split
  · exact h
  · split
    · exact h
    · exact hg _

theorem State.portShows_ite {c : Prop} {_ : Decidable c} (hs : s.portShows p f v) (hu : u.portShows p f v) :
    (if c then s else u).portShows p f v := by
  split <;> assumption

/-- A reading that a port switched off keeps is kept when the committed fields are taken (R246). -/
theorem State.portShows_adoptSwp (hp : p ≠ 0) (hf : ∀ y, f y = v → f { y with st := 0, searching := 0, inCycle := false } = v)
    (h : s.portShows p f v) : (s.adoptSwp p).portShows p f v :=
  State.portShows_ite (State.portShows_modSwp (s := s.takeRange ..) hp hf h) h

end

theorem State.emits_aux (s : State) (l : List Out) : (s.emits l).aux = s.aux := foldl_auxEq (fun _ _ => State.emit_auxEq ..) l s

/-! ### The committed fields of a port (R246) -/

theorem State.takeRange_modSwp (s : State) (p : Nat) (f : SwpPort → SwpPort) (block target lo hi : Nat) :
    (s.modSwp p f).takeRange block target lo hi = (s.takeRange block target lo hi).modSwp p f := by
  unfold State.modSwp
  split <;> rfl

/-- The fields of SWP_CTRL in force do not depend on what the ports are doing. -/
theorem State.swpCtrl_modSwp (s : State) (p q : Nat) (f : SwpPort → SwpPort) : (s.modSwp p f).swpCtrl q = s.swpCtrl q := by
  unfold State.swpCtrl State.regF
  rw [State.modSwp_cfg]

theorem State.swpCtrl_adoptSwp (s : State) (p : Nat) :
    (s.adoptSwp p).swpCtrl p = (s.takeRange 0x11 0 (4 * (p - 1)) (4 * p)).swpCtrl p := by
  unfold State.adoptSwp
  dsimp only
  split
  · exact State.swpCtrl_modSwp ..
  · rfl

theorem State.swpCtrl_adoptSwp_modSwp (s : State) (p : Nat) (f : SwpPort → SwpPort) :
    ((s.modSwp p f).adoptSwp p).swpCtrl p = (s.adoptSwp p).swpCtrl p := by
  rw [State.swpCtrl_adoptSwp, State.swpCtrl_adoptSwp, State.takeRange_modSwp, State.swpCtrl_modSwp]

/-- A port once it has taken its committed fields: as it was with SWP_EN 1, off with SWP_EN 0. -/
def SwpPort.adopted (on : Bool) (x : SwpPort) : SwpPort := if on then x else { x with st := 0, searching := 0, inCycle := false }

theorem SwpPort.adopted_st (on : Bool) (x : SwpPort) : (x.adopted on).st = if on = true then x.st else 0 := by
  cases on <;> rfl

theorem State.swp_adoptSwp {s : State} {p : Nat} {x : SwpPort} (hp : p ≠ 0) (hx : s.swp[p - 1]? = some x) :
    (s.adoptSwp p).swp[p - 1]? = some (x.adopted (bit ((s.adoptSwp p).swpCtrl p) 0)) := by
  rw [State.swpCtrl_adoptSwp]
  unfold State.adoptSwp SwpPort.adopted
  dsimp only
  cases bit ((s.takeRange 0x11 0 (4 * (p - 1)) (4 * p)).swpCtrl p) 0 with
  | false => exact (State.swp_modSwp (s := s.takeRange ..) _ hp).trans (congrArg (Option.map _) hx)
  | true => exact hx

/-! ### The end of a search (R235 to R237) -/

/-- How far the search of a port is, and whether its last one was undecided. -/
def SwpPort.outcome (x : SwpPort) : Nat × Bool := (x.searching, x.unstable)

section
variable {s : State} {p : Nat} (hp : p ≠ 0) {v : Nat × Bool} {u : Bool}
include hp

theorem State.takeSlot_outcome (number i : Nat) (h : s.portShows p SwpPort.outcome v) :
    (s.takeSlot p number i).portShows p SwpPort.outcome v := by
  refine State.portShows_onSwp (fun y => ?_) h
  exact State.portShows_ite (State.portShows_modSwp hp (fun _ hy => hy) h)
    (State.portShows_of_aux (State.event_auxEq ..) (State.portShows_modSwp hp (fun _ hy => hy) h))

/-- A sensor that is assigned, or counted as one too many, leaves the search and its outcome alone. -/
theorem State.assignSensor_outcome (number : Nat) (back : List Nat) (h : s.portShows p SwpPort.outcome v) :
    (s.assignSensor p number back).portShows p SwpPort.outcome v := by
  refine State.portShows_onSwp (fun y => ?_) h
  split
  · exact State.portShows_of_aux (State.event_auxEq ..) (State.portShows_modSwp hp (fun _ hy => hy) h)
  · have tried (l : List Out) : (s.emits l).portShows p SwpPort.outcome v := State.portShows_of_aux (State.emits_aux s l) h
    exact State.portShows_ite (State.takeSlot_outcome hp _ _ (tried _)) (tried _)

theorem State.assignSensors_outcome {α : Type} (l : List α) (number : α → Nat) (back : α → List Nat) (h : s.portShows p SwpPort.outcome v) :
    (l.foldl (fun s y => s.assignSensor p (number y) (back y)) s).portShows p SwpPort.outcome v := by
  induction l generalizing s with
  | nil => exact h
  | cons a l ih => exact ih (State.assignSensor_outcome hp _ _ h)

theorem State.endSearch_shows (runs : List Cmd) (st : Status) (h : s.portShows p SwpPort.outcome (0, u)) :
    (s.endSearch p runs st).portShows p (fun y => (y.searching, y.runs, y.unstable)) (0, [], u) := by
  have answered : (s.modSwp p fun x => { x with runs := [] }).portShows p (fun y => (y.searching, y.runs, y.unstable)) (0, [], u) :=
    State.portShows_modSwp hp (fun y (hy : (y.searching, y.unstable) = (0, u)) => by simpa using hy) h
  have adopted := State.portShows_adoptSwp hp (fun y hy => by simp_all) answered
  refine State.portShows_of_aux (foldl_auxEq (fun _ _ => State.complete_auxEq ..) _ _) ?_
  exact State.portShows_onSwp (fun _ => State.portShows_ite (State.portShows_of_aux (State.emits_aux ..) adopted) adopted) adopted

end

/-- A port that a short of its line stops (R244). -/
def SwpPort.shorted (t : Nat) (x : SwpPort) : SwpPort :=
  { x with short := true, shortAt := t, st := 3, searching := 0, inCycle := false, cmds := x.runs ++ x.cmds, runs := [],
           pendSearch := x.pendSearch || !x.runs.isEmpty }

/-! ### The commands -/

section
variable {t p : Nat} {x : SwpPort} {s : State} (hp : p ≠ 0) (hx : s.swp[p - 1]? = some x)
include hp hx

theorem execSearchAll_shows (hst : x.st = 0) (hpd : s.pd9 = true) (hen : bit (((s.at_ t).adoptSwp p).swpCtrl p) 0 = true) :
    Runs (.searchAll t p) s fun s' => s'.portShows p (fun y => (y.searching, y.st, y.inCycle)) (2, 1, false) := by
  refine ⟨_, rfl, ?_⟩
  rw [State.onSwp_of (s := s.at_ t) hp hx, if_neg (by simp [hst, hpd]), if_pos hen]
  exact State.shows_modSwp hp (State.swp_adoptSwp (s := s.at_ t) hp hx) rfl

theorem execSearchNewPeriodic_shows (hst : x.st = 1 ∨ x.st = 2) (hper : bits (s.swpCtrl p) 15 4 ≠ 0)
    (ht : t % (bits (s.swpCtrl p) 15 4 * 1000000000) = 0) :
    Runs (.searchNewPeriodic t p) s fun s' => s'.portShows p (fun y => (y.searching, y.pendSearch))
      (if x.inCycle = true ∨ x.st = 1 then (x.searching, true) else (1, false)) := by
  have hdue : (!(x.st == 1 || x.st == 2)) = false := by obtain h | h := hst <;> simp [h]
  refine ⟨_, rfl, ?_⟩
  rw [State.onSwp_of (s := s.at_ t) hp hx]
  dsimp only
  rw [State.swpCtrl_at_, ht, hdue, if_neg (by simp [hper])]
  by_cases h : x.inCycle = true ∨ x.st = 1
  · rw [if_pos h, if_pos (by simpa using h)]
    exact State.shows_modSwp (s := s.at_ t) hp hx rfl
  · rw [if_neg h, if_neg (by simpa using h)]
    exact State.shows_modSwp (s := s.at_ t) hp hx rfl

theorem execSwpSearchComplete_shows {attempts : List (List (Option (List (Bool × Bool))))} {acks : List (List Nat)}
    (hs : x.searching ≠ 0) (hpd : s.pd9 = true)
    (hr : (searchAttempts p x.searching 4 attempts).2.2.isSome = true ∨ (searchAttempts p x.searching 4 attempts).2.1 = 4) :
    Runs (.swpSearchComplete t p attempts acks) s fun s' => s'.portShows p (fun y => (y.searching, y.runs, y.unstable))
      (0, [], (searchAttempts p x.searching 4 attempts).2.2.isNone) := by
  refine ⟨_, rfl, ?_⟩
  rw [State.onSwp_of (s := s.at_ t) hp hx]
  dsimp only
  generalize searchAttempts p x.searching 4 attempts = r at hr ⊢
  obtain ⟨outs, bad, decided⟩ := r
  have hend : ¬ (decide (x.searching = 0) || !(s.at_ t).pd9 || (decided.isNone && bad != 4)) = true := by
    cases decided <;> simp_all
  have hport : ((s.at_ t).emits outs).swp[p - 1]? = some x := by
    obtain ⟨hswp, _⟩ := State.ports_checks_governor_of_aux (State.emits_aux (s.at_ t) outs)
    rw [hswp]
    exact hx
  rw [if_neg hend]
  cases decided with
  | none =>
    refine State.endSearch_shows hp _ _ (State.portShows_of_aux (State.event_auxEq ..) ?_)
    exact State.shows_modSwp hp ((State.swp_modSwp _ hp).trans (congrArg (Option.map _) hport)) rfl
  | some found =>
    refine State.endSearch_shows hp _ _ (State.assignSensors_outcome hp _ _ _ ?_)
    have settled := State.shows_modSwp (g := fun y => { y with unstable := false, short := false, st := 2 }) (f := SwpPort.outcome) hp
      ((State.swp_modSwp (fun y => { y with restarts := min 255 (y.restarts + min 3 bad), searching := 0 }) hp).trans
        (congrArg (Option.map _) hport)) rfl
    exact State.portShows_ite (State.portShows_of_aux (State.event_auxEq ..) settled) settled

theorem execSwpStreamCycle_shows (hst : x.st = 2) (hin : x.inCycle = false) (hpd : s.pd9 = true) (hcyc : s.swpCycle p ≠ 0)
    (ht : t % s.swpCycle p = 0) :
    Runs (.swpStreamCycle t p) s fun s' => s'.portShows p (fun y => (y.inCycle, y.tSync)) (true, t) ∧ s'.out = s.out ++ [.line p 3] := by
  refine ⟨_, rfl, ?_⟩
  rw [State.onSwp_of (s := s.at_ t) hp hx, if_neg (by simp [hst, hin, hpd, hcyc, ht])]
  exact ⟨State.shows_modSwp (s := s.at_ t) hp hx rfl, by rw [State.emit_out, State.modSwp_out, State.at__out]⟩

theorem execSwpSlotRead_shows {slot : Nat} {bytes : List Byte} {y : Slot} (hy : x.slots[slot]? = some y) (hin : x.inCycle = true)
    (hu : y.used = true) (hr : y.read = false) (ht : x.tSync + slotEnd slot ≤ t) (ht' : t < x.tSync + slotEnd slot + 300000) :
    Runs (.swpSlotRead t p slot bytes) s fun s' => s'.portShows p (fun z => (z.slots[slot]?).map fun q => (q.read, q.value, q.misses, q.present))
      (some (if y.goodFrame (slice bytes 0 8) = true then (true, rd bytes 2 4, 0, true)
        else (true, y.value, y.misses + 1, y.present && decide (y.misses + 1 < 3)))) := by
  have hdue : ¬ (!x.inCycle || !y.used || y.read || decide (t < x.tSync + slotEnd slot) ||
      decide (x.tSync + slotEnd slot + 300000 ≤ t)) = true := by
    simp [hin, hu, hr, Nat.not_lt.2 ht, Nat.not_le.2 ht']
  refine ⟨_, rfl, ?_⟩
  rw [State.onSwp_of (s := s.at_ t) hp hx, hy]
  dsimp only
  rw [if_neg hdue]
  split
  · refine State.portShows_ite ?_ (State.portShows_of_aux (State.event_auxEq ..) ?_)
    all_goals
      refine State.shows_modSwp (s := (s.at_ t).emit _) hp hx ?_
      exact congrArg (Option.map _) ((modNth_getElem?_same ..).trans (congrArg (Option.map _) hy))
  · have missed : (y.present && !(y.present && decide (3 ≤ y.misses + 1))) = (y.present && decide (y.misses + 1 < 3)) := by
      cases y.present with
      | false => rfl
      | true => exact decide_not.symm.trans (decide_eq_decide.2 Nat.not_le)
    refine State.portShows_ite (State.portShows_of_aux (State.event_auxEq ..) ?_) ?_
    all_goals
      refine State.shows_modSwp (s := (s.at_ t).emit _) hp hx ?_
      rw [← missed]
      exact congrArg (Option.map _) ((modNth_getElem?_same ..).trans (congrArg (Option.map _) hy))

theorem execSwpCycleEnd_shows (hin : x.inCycle = true) (hdone : x.cycleDone = true) :
    Runs (.swpCycleEnd t p) s fun s' => s'.portShows p (·.inCycle) false := by
  refine ⟨_, rfl, ?_⟩
  rw [State.onSwp_of (s := s.at_ t) hp hx, if_neg (by simp [hin, hdone])]
  have placed : State.portShows (if x.slots.any (·.used) then (s.at_ t).place 0x0901 p x.tSync (x.record (s.at_ t).pos p) else s.at_ t) p id x :=
    State.portShows_ite (State.portShows_of_aux (State.place_auxEq ..) (congrArg (Option.map id) hx)) (congrArg (Option.map id) hx)
  have ended := State.portShows_adoptSwp hp (fun _ _ => rfl)
    (State.portShows_modSwp (g := fun y => { y with inCycle := false }) (f' := SwpPort.inCycle) (v' := false) hp (fun _ _ => rfl) placed)
  refine State.portShows_onSwp (fun y => State.portShows_ite ?_ ended) ended
  exact State.portShows_modSwp hp (fun _ _ => rfl) ended

theorem execSwpLineShort_shows (hst : x.st = 1 ∨ x.st = 2) :
    Runs (.swpLineShort t p) s fun s' => s'.portShows p (fun y => (y.short, y.shortAt, y.searching, y.inCycle)) (true, t, 0, false) ∧
      s'.portShows p (·.st) (if bit (((s.at_ t).adoptSwp p).swpCtrl p) 0 = true then 3 else 0) := by
  refine ⟨_, rfl, ?_⟩
  have hruns : ¬ (decide (x.st = 0) || decide (x.st = 3)) = true := by obtain h | h := hst <;> simp [h]
  rw [State.onSwp_of (s := s.at_ t) hp hx, if_neg hruns]
  dsimp only
  rw [← State.swpCtrl_adoptSwp_modSwp (s.at_ t) p (SwpPort.shorted t)]
  have hport : ((s.at_ t).modSwp p (SwpPort.shorted t)).swp[p - 1]? = some (x.shorted t) :=
    (State.swp_modSwp _ hp).trans (congrArg (Option.map _) hx)
  refine ⟨State.portShows_of_aux (State.event_auxEq ..) ?_, State.portShows_of_aux (State.event_auxEq ..) ?_⟩
  · exact State.portShows_adoptSwp hp (fun _ hy => by simp_all) (State.shows_modSwp (s := s.at_ t) (g := SwpPort.shorted t) hp hx rfl)
  · exact (congrArg (Option.map _) (State.swp_adoptSwp hp hport)).trans (congrArg some (SwpPort.adopted_st _ (x.shorted t)))

theorem execSwpShortRetry_shows (hst : x.st = 3) (ht : x.shortAt + 10000000000 ≤ t) (hpd : s.pd9 = true) :
    Runs (.swpShortRetry t p) s fun s' => s'.portShows p (fun y => (y.shortAt, y.searching)) (t, 2) := by
  refine ⟨_, rfl, ?_⟩
  rw [State.onSwp_of (s := s.at_ t) hp hx, if_neg (by simp [hst, hpd, Nat.not_lt.2 ht])]
  exact State.shows_modSwp hp ((State.swp_modSwp _ hp).trans (congrArg (Option.map _) hx)) rfl

end

/-- Settles O26: the conditions of a clause leave one branch of its command, and what follows that branch (the committed fields that the
port takes, the sensors assigned, events and completions) leaves what the clause shows. -/
theorem singleWireCommandsComplete : Obligations.SingleWireCommandsComplete := by
  intro t p x s hp1 hx
  have hp : p ≠ 0 := Nat.ne_of_gt hp1
  refine ⟨fun hst hpd hen => execSearchAll_shows hp hx hst hpd hen, fun hst hper ht => execSearchNewPeriodic_shows hp hx hst hper ht, ?_,
    fun hst hin hpd hcyc ht => execSwpStreamCycle_shows hp hx hst hin hpd hcyc ht,
    fun _ _ _ hy hin hu hr ht ht' => execSwpSlotRead_shows hp hx hy hin hu hr ht ht',
    fun hin hdone => execSwpCycleEnd_shows hp hx hin hdone, fun hst => execSwpLineShort_shows hp hx hst,
    fun hst ht hpd => execSwpShortRetry_shows hp hx hst ht hpd⟩
  rintro attempts acks r hs hpd rfl hr
  exact execSwpSearchComplete_shows hp hx hs hpd hr

end Sys2Proof.Machine
end

section
/-! The frame of the link, Locus and host-queue commands (R251, R262, R271, R294, R303, R326, R341, R414). -/

namespace Sys2Proof.Machine

/-- A command whose every answer leaves the ports, the check units, the governor and the safety block alone runs with them as they were. -/
theorem Runs.auxSafetyFrame {i : Instr} {s : State} (ha : ∀ s', exec i s = .next s' → s'.aux = s.aux)
    (hs : ∀ s', exec i s = .next s' → s'.safety = s.safety) : Runs i s fun s' =>
    s'.swp = s.swp ∧ s'.safe = s.safe ∧ s'.chk = s.chk ∧ s'.therm = s.therm :=
  Runs.of_answers fun s' h =>
    have ⟨hswp, hchk, htherm⟩ := State.ports_checks_governor_of_aux (ha s' h)
    ⟨hswp, hs s' h, hchk, htherm⟩

/-- Settles O52: each of the commands has its law of what it keeps but for the time, and the last four their laws of the single-wire
ports, the check units and the governor, and of the safety block. -/
theorem linkLocusAndQueueFrame : Obligations.LinkLocusAndQueueFrame := by
  intro c s
  cases c with
  | discoverSend => exact Runs.of_answers fun _ h => execDiscoverSend_kept h
  | frameForward => exact Runs.of_answers fun _ h => execFrameForward_kept h
  | mseqGapRelease => exact Runs.of_answers fun _ h => execMseqGapRelease_kept h
  | linkStateNoticeReceive => exact Runs.of_answers fun _ h => execLinkStateNoticeReceive_kept h
  | codewordBoundary => exact Runs.of_answers fun _ h => execCodewordBoundary_kept h
  | controlCodewordReceive => exact Runs.of_answers fun _ h => execControlCodewordReceive_kept h
  | tc0AckTimeout => exact Runs.of_answers fun _ h => execTc0AckTimeout_kept h
  | frameRetryTimeout => exact Runs.of_answers fun _ h => execFrameRetryTimeout_kept h
  | hopSilenceTimeout => exact Runs.of_answers fun _ h => execHopSilenceTimeout_kept h
  | hopMarginTimeout => exact Runs.of_answers fun _ h => execHopMarginTimeout_kept h
  | hopRouteRestore => exact Runs.of_answers fun _ h => execHopRouteRestore_kept h
  | apcAdjust => exact Runs.of_answers fun _ h => execApcAdjust_kept h
  | hopRekey => exact Runs.of_answers fun _ h => execHopRekey_kept h
  | timeBeaconSend => exact Runs.of_answers fun _ h => execTimeBeaconSend_kept h
  | tqHoldover => exact Runs.of_answers fun _ h => execTqHoldover_kept h
  | packTimeCommit => exact Runs.of_answers fun _ h => execPackTimeCommit_kept h
  | doorbellPoll => exact Runs.of_answers fun _ h => execDoorbellPoll_kept h
  | doorbellReadComplete => exact Runs.of_answers fun _ h => execDoorbellReadComplete_kept h
  | streamEntryWrite => exact Runs.of_answers fun _ h => execStreamEntryWrite_kept h
  | eventEntryWrite => exact Runs.of_answers fun _ h => execEventEntryWrite_kept h
  | interruptCoalesceExpire => exact Runs.of_answers fun _ h => execInterruptCoalesceExpire_kept h
  | msixUnmask => exact Runs.of_answers fun _ h => execMsixUnmask_kept h
  | eventDelayReport => exact Runs.of_answers fun _ h => execEventDelayReport_kept h
  | unitProgramComplete => exact Runs.of_answers fun _ h => execUnitProgramComplete_kept h
  | d2UnitClose => exact Runs.of_answers fun _ h => execD2UnitClose_kept h
  | bucketAccrue => exact Runs.of_answers fun _ h => execBucketAccrue_kept h
  | storageTempSample => exact Runs.of_answers fun _ h => execStorageTempSample_kept h
  | blockRefresh => exact Runs.of_answers fun _ h => execBlockRefresh_kept h
  | storageDieFail => exact Runs.of_answers fun _ h => execStorageDieFail_kept h
  | spillHolderRechoose => exact Runs.of_answers fun _ h => execSpillHolderRechoose_kept h
  | recordRetentionExpire => exact Runs.of_answers fun _ h => execRecordRetentionExpire_kept h
  | recordFrameReceive => exact Runs.of_answers fun _ h => execRecordFrameReceive_kept h
  | sleepListenWindow => exact Runs.of_answers fun _ h => execSleepListenWindow_kept h
  | meterSnapshot => exact Runs.of_answers fun _ h => execMeterSnapshot_kept h
  | enumFrameReceive => exact Runs.auxSafetyFrame (fun _ h => execEnumFrameReceive_auxEq h) fun _ h => execEnumFrameReceive_safeEq h
  | hopTrainingComplete => exact Runs.auxSafetyFrame (fun _ h => execHopTrainingComplete_auxEq h) fun _ h => execHopTrainingComplete_safeEq h
  | hopKeyingMessage => exact Runs.auxSafetyFrame (fun _ h => execHopKeyingMessage_auxEq h) fun _ h => execHopKeyingMessage_safeEq h
  | eventFrameReceive => exact Runs.auxSafetyFrame (fun _ h => execEventFrameReceive_auxEq h) fun _ h => execEventFrameReceive_safeEq h
  | _ => trivial

end Sys2Proof.Machine
end

section
/-! What the frames that leave a part, its events and its completions change of the link: the queues of its ports, the numbers of its
flows, what waits for a route and the count of what has none (R256, R267, R268). -/

namespace Sys2Proof.Machine

/-- A port without the frames that wait at it. -/
def Port.still (p : Port) : Port := { p with tx := [] }

/-- The link without what is sent over it, and without the hops that are recorded as DOWN. -/
def LinkState.still (l : LinkState) : LinkState :=
  { l with up := l.up.still, dn := l.dn.still, flowsTx := [], unrouted := [], noRoute := 0, downHops := [] }

/-- What sending leaves alone of the link. -/
def State.net (s : State) : LinkState := s.link.still

/-! ### Reading, branches and loops -/

theorem State.net_of_link {s u : State} (h : s.link = u.link) : s.net = u.net := congrArg LinkState.still h

theorem State.net_port {s u : State} (h : s.net = u.net) (side : Side) : (s.port side).still = (u.port side).still := by
  cases side with
  | up => exact congrArg LinkState.up h
  | down => exact congrArg LinkState.dn h

/-- What is read from a port but for the frames that wait at it. -/
theorem State.net_view {α : Type} {s u : State} (f : Port → α) (hf : ∀ p : Port, f p.still = f p) (h : s.net = u.net) (side : Side) :
    f (s.port side) = f (u.port side) := by rw [← hf, State.net_port h, hf]

theorem net_ite {c : Prop} {_ : Decidable c} {a b : State} {x : LinkState} (ha : a.net = x) (hb : b.net = x) :
    (if c then a else b).net = x := by split <;> assumption

theorem foldl_net {α : Type} {f : State → α → State} (h : ∀ s a, (f s a).net = s.net) (l : List α) (s : State) :
    (l.foldl f s).net = s.net := by
  induction l generalizing s with
  | nil => rfl
  | cons a l ih => exact (ih _).trans (h _ _)

/-- What keeps all but the frames of a port keeps the rest of the link. -/
theorem State.modPort_net (s : State) (side : Side) {f : Port → Port} (h : ∀ p, (f p).still = p.still) : (s.modPort side f).net = s.net := by
  cases side with
  | up => exact congrArg (fun p => { s.net with up := p }) (h s.link.up)
  | down => exact congrArg (fun p => { s.net with dn := p }) (h s.link.dn)

/-! ### Frames (R267 to R269) -/

theorem State.enqueue_net (s : State) (side : Side) (f : Frame) : (s.enqueue side f).net = s.net := State.modPort_net s side fun _ => rfl

theorem State.egress_net (s : State) (side : Side) (f : Frame) : (s.egress side f).net = s.net :=
  net_ite (State.enqueue_net ..) (net_ite rfl (State.enqueue_net ..))

theorem State.dispatchFrame_net (s : State) (dest : Nat) (f : Frame) : (s.dispatchFrame dest f).net = s.net := by
  have both : ∀ (c : Prop) [Decidable c] (g : Frame), (if c then s.enqueue .up g else s).net = s.net :=
    fun c _ g => net_ite (State.enqueue_net ..) rfl
  refine net_ite (net_ite ((State.enqueue_net ..).trans (both ..)) (both ..)) (net_ite ?_ (State.egress_net ..))
  exact (State.enqueue_net ..).trans (State.enqueue_net ..)

theorem State.originate_net (s : State) (tc kind dest : Nat) (payload : List Byte) : (s.originate tc kind dest payload).net = s.net := by
  unfold State.originate
  split
  · rfl
  · exact net_ite rfl (net_ite rfl ((foldl_net (fun s f => State.dispatchFrame_net s dest f) _ _).trans rfl))

theorem State.flushUnrouted_net (s : State) : s.flushUnrouted.net = s.net :=
  (foldl_net (fun _ _ => State.originate_net ..) _ _).trans rfl

/-! ### Locus: eviction and the writer touch no link, and claims only send (R292 to R296) -/

theorem State.makeWay_link (s : State) (n fuel : Nat) : (s.makeWay n fuel).2.link = s.link := by
  induction fuel generalizing s with
  | zero => rfl
  | succ m ih =>
    unfold State.makeWay
    split
    · rfl
    · split
      · exact ih _
      · split
        · exact ih _
        · rfl

theorem State.reclaim_link {s u : State} {n : Nat} (h : s.reclaim n = some u) : u.link = s.link := by
  induction n generalizing s with
  | zero => cases h
  | succ m ih =>
    unfold State.reclaim at h
    split at h
    · cases h; rfl
    · split at h
      · cases h
      · exact (ih h).trans rfl

theorem State.targetBlock_link {s : State} {but : List Nat} {spare : Bool} {r : Blk × State} (h : s.targetBlock but spare = some r) :
    r.2.link = s.link := by
  unfold State.targetBlock at h
  split at h
  · cases h; rfl
  · split at h
    · cases h; rfl
    · obtain ⟨u, hu, h⟩ := Option.bind_eq_some_iff.1 h
      obtain ⟨b, _, rfl⟩ := Option.map_eq_some_iff.1 h
      exact State.reclaim_link hu

theorem State.startUnit_link (s : State) (admitted : Bool) : (s.startUnit admitted).link = s.link := by
  unfold State.startUnit
  split
  · split
    · rfl
    · dsimp only
      split
      · rfl
      · next h => exact State.targetBlock_link h
  · rfl

theorem State.writer_link (s : State) : s.writer.link = s.link := by
  unfold State.writer
  split
  · rfl
  · exact State.startUnit_link _ _

theorem State.unclaim_net (s : State) (w : StrWait) : (s.unclaim w).net = s.net := by
  unfold State.unclaim
  split
  · exact State.originate_net ..
  · rfl

theorem State.queueClaim_net (s : State) (w : StrWait) : (s.queueClaim w).2.net = s.net := by
  have out : ∀ (l : List StrWait) (h : HifState), (l.foldl (fun (s : State) x => s.unclaim x) { s with hif := h }).net = s.net :=
    fun l h => (foldl_net (fun _ _ => State.unclaim_net ..) _ _).trans rfl
  unfold State.queueClaim
  dsimp only
  split
  · exact out _ _
  · exact net_ite (a := State.unclaim _ w) ((State.unclaim_net ..).trans (out _ _)) (out _ _)

theorem State.claimAll_net (s : State) (pos recType src time cls : Nat) (bytes : List Byte) (ref : Option Nat) :
    (s.claimAll pos recType src time cls bytes ref).2.net = s.net := by
  unfold State.claimAll
  suffices ∀ (l : List Sub) (acc : List Nat × State), (l.foldl _ acc).2.net = acc.2.net from this _ _
  intro l
  induction l with
  | nil => exact fun _ => rfl
  | cons x l ih =>
    refine fun acc => (ih _).trans ?_
    dsimp only
    split
    · split
      · exact (State.queueClaim_net ..).trans rfl
      · rfl
    · rfl

theorem State.sendClaims_net (s : State) (recType src time : Nat) (bytes : List Byte) : (s.sendClaims recType src time bytes).2.net = s.net := by
  have counted : ∀ l : List Sub, (l.foldl (fun (s : State) x => s.countSub x.sub x.next.2.count) s).net = s.net := fun l =>
    foldl_net (f := fun s x => s.countSub x.sub x.next.2.count) (fun _ _ => rfl) l s
  exact net_ite (counted _) (net_ite ((State.originate_net ..).trans (counted _)) ((State.originate_net ..).trans (counted _)))

theorem State.claimNew_net (s : State) (id recType src time cls : Nat) (bytes : List Byte) :
    (s.claimNew id recType src time cls bytes).net = s.net := by
  unfold State.claimNew
  dsimp only
  split
  · exact State.claimAll_net ..
  · exact State.sendClaims_net ..

theorem State.stageD0_net (s : State) (recType src time : Nat) (bytes : List Byte) : (s.stageD0 recType src time bytes).net = s.net := by
  have way := State.net_of_link (State.makeWay_link s bytes.length (2 * s.locus.recs.length + 1))
  exact net_ite ((State.claimNew_net ..).trans way) way

/-! ### Events and completions (R335, R341) -/

theorem State.eventAt_net (s : State) (e : Ev) (t : Nat) (full : Option (Nat × List Byte)) : (s.eventAt e t full).net = s.net := by
  refine (State.net_of_link (State.writer_link _)).trans (net_ite ?_ ((State.originate_net ..).trans ?_))
  all_goals exact State.stageD0_net ..

theorem State.event_net (s : State) (e : Ev) : (s.event e).net = s.net := State.eventAt_net ..

theorem State.writeBuffer_link (s : State) (l : List (Nat × Nat)) (bs : List Byte) : (s.writeBuffer l bs).link = s.link := by
  induction l generalizing s bs with
  | nil => rfl
  | cons a l ih =>
    cases bs with
    | nil => rfl
    | cons b bs => exact ih _ _

theorem State.finishBroadcast_link (s : State) (x : InFlight) : (s.finishBroadcast x).link = s.link := by
  unfold State.finishBroadcast
  dsimp only [State.queueCompletion]
  split
  · exact State.writeBuffer_link ..
  · rfl

theorem State.takeCompletion_link (s : State) (sq cid gen origin result xfer code : Nat) (data : List Byte) :
    (s.takeCompletion sq cid gen origin result xfer code data).link = s.link := by
  unfold State.takeCompletion
  split
  · split <;> rfl
  · split
    · unfold State.vote
      dsimp only
      split
      · exact State.finishBroadcast_link ..
      · rfl
    · exact State.writeBuffer_link ..

theorem State.complete_net (s : State) (c : Cmd) (st : Status) (result : Nat) : (s.complete c st result).net = s.net :=
  net_ite (State.net_of_link (State.takeCompletion_link ..)) (State.originate_net ..)

theorem State.completeOpt_net (s : State) (c : Option Cmd) (st : Status) (result : Nat) : (s.completeOpt c st result).net = s.net := by
  cases c with
  | none => rfl
  | some c => exact State.complete_net s c st result

/-! ### The start of commands at the gateway (R332, R333, R351) -/

theorem State.castAsleep_net (s : State) (x : InFlight) : (s.castAsleep x).net = s.net := by
  refine net_ite rfl (net_ite ?_ ?_)
  · exact foldl_net (f := fun s (y : Nat × Nat) => s.wakePart y.1 y.2) (fun _ _ => rfl) _ _
  · exact foldl_net (fun _ _ => State.net_of_link (State.takeCompletion_link ..)) _ _

theorem State.openRemote_net (s : State) (x : InFlight) (body : List Byte) : (s.openRemote x body).net = s.net := by
  unfold State.openRemote
  split
  · rfl
  · exact (State.originate_net ..).trans rfl

theorem State.startGroup_net (s : State) (x : InFlight) (body : List Byte) : (s.startGroup x body).net = s.net := by
  unfold State.startGroup
  dsimp only
  split
  · rfl
  · exact (State.originate_net ..).trans rfl

theorem State.startCmd_net (s : State) (x : InFlight) : (s.startCmd x).net = s.net := by
  unfold State.startCmd
  dsimp only
  refine net_ite rfl (net_ite ?_ ?_)
  · exact (State.castAsleep_net ..).trans (net_ite (State.startGroup_net ..) (State.originate_net ..))
  · split
    · exact net_ite rfl rfl
    · exact net_ite rfl (net_ite (State.openRemote_net ..) (net_ite (State.originate_net ..) (State.originate_net ..)))

theorem State.startAll_net (s : State) : s.startAll.net = s.net := by
  suffices ∀ (n : Nat) (u : State), (u.startWaiting n).net = u.net from this _ s
  intro n
  induction n with
  | zero => exact fun _ => rfl
  | succ n ih =>
    intro u
    unfold State.startWaiting
    split
    · rfl
    · exact (ih _).trans (State.startCmd_net ..)

end Sys2Proof.Machine
end

section
/-! A hop that goes DOWN, trains or sends: what its port shows (R251, R254, R255, R262). -/

namespace Sys2Proof.Machine

@[simp] theorem State.port_emit (s : State) (o : Out) (side : Side) : (s.emit o).port side = s.port side := rfl

theorem State.routeChange_net (s : State) (side : Side) (code : Nat) : (s.routeChange side code).net = s.net := by
  unfold State.routeChange State.linkNotice
  rw [State.originate_net, State.event_net, State.net_of_link (State.noteHolder_link _)]
  rfl

/-- A port whose hop has gone DOWN (R262). -/
def Port.cut (p : Port) : Port :=
  { p with st := .down, trained := false, trainFree := p.trainFree || p.st == .up, tagRun := 0, lowSince := none, keying := none, ctlDue := false,
           rx := List.replicate 4 RxClass.fresh, tx := List.replicate 4 TxClass.fresh }

theorem State.hopDown_net {s : State} {side : Side} (h : (s.port side).st ≠ .down) :
    (s.hopDown side).net = (s.modPort side Port.cut).net := by
  have moved : ∀ l : List Frame, (l.foldl (fun s f => if f.dst = 63 || f.oneHop then s else s.egress side { f with dst := f.dst + 1 })
      (s.modPort side Port.cut)).net = (s.modPort side Port.cut).net :=
    fun l => foldl_net (fun _ _ => net_ite rfl (State.egress_net ..)) l _
  unfold State.hopDown
  dsimp only
  rw [if_neg h]
  exact net_ite ((State.routeChange_net ..).trans (moved _)) (moved _)

theorem State.hopDown_st (s : State) (side : Side) : ((s.hopDown side).port side).st = .down := by
  by_cases h : (s.port side).st = .down
  · unfold State.hopDown
    dsimp only
    rw [if_pos h]
    exact h
  · rw [State.net_view (·.st) (fun _ => rfl) (State.hopDown_net h), State.modPort_same]
    rfl

theorem State.startTraining_shows (s : State) (side : Side) : ((s.startTraining side).port side).st = .training ∧
    ((s.startTraining side).port side).trained = false ∧ ((s.startTraining side).port side).retune = none := by
  unfold State.startTraining
  dsimp only
  rw [State.port_emit, State.modPort_same]
  exact ⟨rfl, rfl, rfl⟩

/-! ### What a port that sends a codeword leaves alone -/

/-- The channel that waits for a port, and whether it waits for a frontier (R263). -/
def Port.calling (p : Port) : Option Nat × Bool := (p.retune, p.answered)

theorem Port.seal_calling (p : Port) (f : Frame) (lseq : Nat) : (p.seal f lseq).2.calling = p.calling := by
  unfold Port.seal
  split
  · rfl
  · rfl
  · split <;> rfl

theorem Port.nextFrame_calling {p : Port} {tc now : Nat} {r : TxFrame × Port} (h : p.nextFrame tc now = some r) :
    r.2.calling = p.calling := by
  unfold Port.nextFrame at h
  dsimp only at h
  split at h
  · cases h; rfl
  · split at h
    · cases h
    · cases h; exact Port.seal_calling ..
  · cases h

theorem Port.sendClass_calling {p : Port} {tc now : Nat} {r : List Byte × Port} (h : p.sendClass tc now = some r) :
    r.2.calling = p.calling := by
  unfold Port.sendClass at h
  obtain ⟨⟨x, n, q⟩, hx, rfl⟩ := Option.map_eq_some_iff.1 h
  have started : q.calling = p.calling := by
    split at hx
    · cases hx; rfl
    · obtain ⟨y, hy, hq⟩ := Option.map_eq_some_iff.1 hx
      cases hq
      exact Port.nextFrame_calling hy
  dsimp only
  split <;> split <;> exact started

theorem Port.sendFrom_calling {p : Port} {now : Nat} {l : List Nat} {r : List Byte × Port} (h : p.sendFrom now l = some r) :
    r.2.calling = p.calling := by
  induction l with
  | nil => cases h
  | cons tc l ih =>
    unfold Port.sendFrom at h
    split at h
    · next hc => cases h; exact Port.sendClass_calling hc
    · exact ih h

theorem Port.control_calling (p : Port) (now : Nat) : (p.control now).2.calling = p.calling := by
  unfold Port.control
  dsimp only
  split
  · rfl
  · rfl
  · split <;> rfl

theorem Port.nextCodeword_calling (p : Port) (now : Nat) : (p.nextCodeword now).2.calling = p.calling := by
  unfold Port.nextCodeword
  split
  · next h => exact Port.sendClass_calling h
  · split
    · exact Port.control_calling p now
    · cases h : p.sendFrom now [1, 2, 3] with
      | none => rfl
      | some r => exact Port.sendFrom_calling h

end Sys2Proof.Machine
end

section
/-! Codewords, acknowledgements and retries of a port (R251, R254, R255, R258 to R261). -/

namespace Sys2Proof.Machine

/-! ### Transmission -/

/-- The codeword `bytes` leaves a port that is UP and then stands as `p`; the eleventh third attempt of a second is told (R255, R259). -/
def State.sendWord (s : State) (side : Side) (p : Port) (bytes : List Byte) : State :=
  if 10 < p.thirds.length then
    (((s.modPort side fun _ => { p with thirds := [] }).emit (.codeword side bytes)).event { source := 35, item := s.hopOf side, arg16 := 11 })
  else (s.modPort side fun _ => p).emit (.codeword side bytes)

theorem State.sendWord_quiet {s : State} {side : Side} {p : Port} {bytes : List Byte} (h : p.thirds.length ≤ 10) :
    s.sendWord side p bytes = (s.modPort side fun _ => p).emit (.codeword side bytes) := if_neg (Nat.not_lt.2 h)

section
variable {t : Nat} {side : Side} {s : State} (hl : s.linkRuns = true)
include hl

theorem execCodewordBoundary_training (hst : (s.port side).st = .training) : exec (.codewordBoundary t side) s = .next (
    ((s.at_ t).modPort side fun _ => ((s.port side).lineBytes (le 1 3 ++ zeros 51)).2).emit
      (.codeword side ((s.port side).lineBytes (le 1 3 ++ zeros 51)).1)) := by
  show execCodewordBoundary t side s = _
  unfold execCodewordBoundary
  simp only [State.linkRuns_at_, State.port_at_, hl, hst]
  rfl

/-- What a boundary does on a port that is UP: the codeword leaves, and where it tells the acknowledgement of the new channel the hop
trains on it (R255, R263). -/
theorem execCodewordBoundary_up {d r : List Byte × Port} (hst : (s.port side).st = .up) (hd : d = (s.port side).nextCodeword t)
    (hr : r = d.2.lineBytes d.1) : exec (.codewordBoundary t side) s = .next (
    if (decide (side = .up) && rd d.1 0 1 == 2 && d.2.retune.isSome && !d.2.answered) = true
    then ((s.at_ t).sendWord side r.2 r.1).startTraining side else (s.at_ t).sendWord side r.2 r.1) := by
  have hcall : (s.port side).calling = d.2.calling := hd ▸ (Port.nextCodeword_calling ..).symm
  obtain ⟨hretune, hanswered⟩ := Prod.mk.inj hcall
  have hhop : ∀ f : Port → Port, (((s.at_ t).modPort side f).emit (.codeword side r.1)).hopOf side = (s.at_ t).hopOf side := by
    intro f
    cases side <;> rfl
  show execCodewordBoundary t side s = _
  unfold execCodewordBoundary State.sendWord
  simp only [State.linkRuns_at_, State.port_at_, hl, hst, ← hd, ← hr, hretune, hanswered]
  by_cases hmany : 10 < r.2.thirds.length <;> simp [hmany, hhop]

end

/-! ### Reception -/

/-- What a receiver that takes line bits leaves alone: its classes, the hop and the count of uncorrectable codewords. -/
theorem Port.takeLine_keeps (p : Port) (bytes : List Byte) : (p.takeLine bytes).2.cwUncorr = p.cwUncorr ∧ (p.takeLine bytes).2.rx = p.rx := by
  unfold Port.takeLine
  dsimp only
  split
  · exact ⟨rfl, rfl⟩
  · split <;> exact ⟨rfl, rfl⟩

section
variable {t : Nat} {side : Side} {s : State} {bytes cw w : List Byte} (hl : s.linkRuns = true) (hlen : bytes.length = 60)
  (hcw : ((s.port side).takeLine bytes).1 = some cw)
include hl hlen hcw

theorem execCodewordReceive_uncorrectable (hst : (s.port side).st ≠ .down) (hbad : rsDecode cw = none) :
    Runs (.codewordReceive t side bytes) s fun s' =>
      (s'.port side).cwUncorr = satInc 16 (s.port side).cwUncorr ∧ (s'.port side).lastUncorr = t := by
  refine ⟨_, rfl, ?_⟩
  obtain ⟨hkeep, _⟩ := Port.takeLine_keeps (s.port side) bytes
  simp [hl, hlen, hst, hcw, hbad, hkeep]

/-- The bytes that a data codeword adds to the frame of its class: those before it, unless it starts the frame, and its own (R254). -/
def RxClass.grown (r : RxClass) (w : List Byte) : List Byte :=
  (if bit (rd w 0 1) 5 then [] else r.part) ++ (if bit (rd w 0 1) 4 then slice w 2 (min (rd w 1 1) 50) else slice w 1 51)

/-- A port that takes a data codeword of its class (R254). -/
def State.growFrame (s : State) (t : Nat) (side : Side) (p : Port) (r : RxClass) (w : List Byte) : State :=
  s.modPort side fun _ => { p with
    lastCodeword := t, rx := modNth (fun y => { y with part := if bit (rd w 0 1) 4 then [] else r.grown w, inFrame := !bit (rd w 0 1) 4 })
      (bits (rd w 0 1) 7 6) p.rx }

theorem execCodewordReceive_data {r : RxClass} (hst : (s.port side).st = .up) (hw : rsDecode cw = some w)
    (hkind : bits (rd w 0 1) 3 0 = 1) (hr : (s.port side).rx[bits (rd w 0 1) 7 6]? = some r)
    (hin : bit (rd w 0 1) 5 = true ∨ r.inFrame = true) : exec (.codewordReceive t side bytes) s = .next (
      let v := (s.at_ t).growFrame t side ((s.port side).takeLine bytes).2 r w
      if bit (rd w 0 1) 4 then v.takeFrame side (r.grown w) else v) := by
  have hgrow : ¬(bit (rd w 0 1) 5 = false ∧ r.inFrame = false) := by
    rintro ⟨h5, hr⟩
    simp [h5, hr] at hin
  have hmod : ∀ f g : Port → Port, ((s.at_ t).modPort side f).modPort side g = (s.at_ t).modPort side fun p => g (f p) := by
    intro f g
    cases side <;> rfl
  show execCodewordReceive t side bytes s = _
  unfold execCodewordReceive State.growFrame RxClass.grown
  simp [hl, hlen, hst, hcw, hw, hkind, hr, hgrow, hmod]

end

/-! ### Control codewords, acknowledgements and retries -/

/-- A port that has taken a control codeword with a good tag and a fresh counter (R258). -/
def Port.taken (p : Port) (bytes : List Byte) (t : Nat) : Port :=
  { p with rxCctrTop := (counterNote p.rxCctrTop p.rxCctrSeen (rd bytes 1 5)).1, rxCctrSeen := (counterNote p.rxCctrTop p.rxCctrSeen (rd bytes 1 5)).2,
           tagRun := 0, lastCodeword := t, ctlRx := (t * 16 % 2 ^ 48, rd bytes 1 5),
           tx := p.tx.zipIdx.map fun (x : TxClass × Nat) => x.1.acked bytes x.2 }

theorem execControlCodewordReceive_of {t : Nat} {side : Side} {s : State} {bytes : List Byte} {k : HopKeys} (hl : s.linkRuns = true)
    (hst : (s.port side).st = .up) (hlen : bytes.length = 52) (hk : (s.port side).keys = some k)
    (htag : (gcmSeal k.rxKey (nonceOf k.rxSalt true (rd bytes 1 5)) (bytes.take 36) []).2 = slice bytes 36 16)
    (hctr : counterOk (s.port side).rxCctrTop (s.port side).rxCctrSeen (rd bytes 1 5) = true) :
    exec (.controlCodewordReceive t side bytes) s = .next (
      let v := ((s.at_ t).modPort side fun _ => (s.port side).taken bytes t).exchange side bytes
      if ((v.port side).tx.drop 1).any (fun c => c.again.any fun x => decide (16 ≤ x.attempts)) then v.hopDown side
      else if decide (side = .down) && (v.port side).assigned then v.startTraining side
      else v) := by
  have hopen : ((s.at_ t).port side).openControl k bytes = some (some
      { s.port side with
        rxCctrTop := (counterNote (s.port side).rxCctrTop (s.port side).rxCctrSeen (rd bytes 1 5)).1,
        rxCctrSeen := (counterNote (s.port side).rxCctrTop (s.port side).rxCctrSeen (rd bytes 1 5)).2 }) := by
    unfold Port.openControl
    simp [htag, hctr]
  have hruns : ¬(!(s.at_ t).linkRuns || ((s.at_ t).port side).st != .up || bytes.length != 52) = true := by simp [hl, hst, hlen]
  have hkeys : ((s.at_ t).port side).keys = some k := hk
  show execControlCodewordReceive t side bytes s = _
  unfold execControlCodewordReceive
  dsimp only
  rw [if_neg hruns, hkeys]
  dsimp only
  rw [hopen]
  rfl

section
variable {t : Nat} {side : Side} {s : State} {c : TxClass} {x : TxFrame} {rest : List TxFrame} {tc : Nat}
  (hc : (s.port side).tx[tc]? = some c)
include hc

/-- The oldest frame without acknowledgement of a class waits to be sent again (R259, R260). -/
theorem State.sendAgain_shows (u : State) (hu : u.port side = s.port side) :
    ((u.modPort side fun p => { p with tx := modNth (fun c => { c with unacked := rest, again := c.again ++ [x] }) tc p.tx }).port side).tx[tc]? =
      some { c with unacked := rest, again := c.again ++ [x] } := by
  rw [State.modPort_same, hu]
  exact (modNth_getElem?_same ..).trans (congrArg (Option.map _) hc)

variable (hst : (s.port side).st = .up) (hx : c.unacked = x :: rest)
include hst hx

theorem execTc0AckTimeout_shows (h0 : tc = 0) (ht : x.sentAt + (s.port side).ackNs ≤ t) :
    (x.attempts < 3 → Runs (.tc0AckTimeout t side) s fun s' =>
      (s'.port side).tx[0]? = some { c with unacked := rest, again := c.again ++ [x] }) ∧
    (3 ≤ x.attempts → Runs (.tc0AckTimeout t side) s fun s' => (s'.port side).st = .down) := by
  subst h0
  have hget : ((s.at_ t).port side).tx.getD 0 TxClass.fresh = c := List.getD_eq_getElem?_getD.trans (congrArg (Option.getD · _) hc)
  have hdue : ¬(((s.at_ t).port side).st ≠ .up ∨ t < x.sentAt + ((s.at_ t).port side).ackNs) := by
    rintro (h | h)
    · exact h hst
    · exact Nat.not_lt.2 ht h
  refine ⟨fun hfew => ⟨_, rfl, ?_⟩, fun hmany => ⟨_, rfl, ?_⟩⟩
  · rw [hget, hx]
    dsimp only
    rw [if_neg hdue, if_neg (Nat.not_le.2 hfew)]
    exact State.sendAgain_shows hc _ rfl
  · rw [hget, hx]
    dsimp only
    rw [if_neg hdue, if_pos hmany]
    exact State.hopDown_st ..

theorem execFrameRetryTimeout_shows (h1 : 1 ≤ tc) (h3 : tc ≤ 3) (ht : x.sentAt + 24000 ≤ t) :
    (x.attempts < 16 → Runs (.frameRetryTimeout t side tc) s fun s' =>
      (s'.port side).tx[tc]? = some { c with unacked := rest, again := c.again ++ [x] }) ∧
    (16 ≤ x.attempts → Runs (.frameRetryTimeout t side tc) s fun s' => (s'.port side).st = .down) := by
  have hget : ((s.at_ t).port side).tx.getD tc TxClass.fresh = c := List.getD_eq_getElem?_getD.trans (congrArg (Option.getD · _) hc)
  have hdue : ¬(tc = 0 ∨ 3 < tc ∨ ((s.at_ t).port side).st ≠ .up ∨ t < x.sentAt + 24000) := by
    rintro (h | h | h | h)
    · omega
    · omega
    · exact h hst
    · omega
  refine ⟨fun hfew => ⟨_, rfl, ?_⟩, fun hmany => ⟨_, rfl, ?_⟩⟩
  · rw [hget, hx]
    dsimp only
    rw [if_neg hdue, if_neg (Nat.not_le.2 hfew)]
    exact State.sendAgain_shows hc _ rfl
  · rw [hget, hx]
    dsimp only
    rw [if_neg hdue, if_pos hmany]
    exact State.hopDown_st ..

end

/-- Settles O27: a boundary sends what the port has ready, and what follows it leaves that alone; a codeword that is received takes the
branch of its header; a frame that has no attempt left takes the hop DOWN, which moves its frames but leaves it DOWN. -/
theorem lineCommandsComplete : Obligations.LineCommandsComplete := by
  rintro t side s _ rfl
  refine ⟨fun hl hst => Runs.of (execCodewordBoundary_training hl hst) ⟨State.modPort_same .., ?_⟩, fun d r leaves hl hst hd hr hleaves => ?_,
    fun bytes cw hl hst hlen hcw hbad => execCodewordReceive_uncorrectable hl hlen hcw hst hbad,
    fun bytes cw w r hl hst hlen hcw hw hkind hr hin => ?_, fun bytes k hl hst hlen hk htag hctr => ?_,
    fun c x rest hst hc hx ht => execTc0AckTimeout_shows hc hst hx rfl ht,
    fun tc c x rest h1 h3 hst hc hx ht => execFrameRetryTimeout_shows hc hst hx h1 h3 ht⟩
  · rw [State.emit_out, State.modPort_out, State.at__out]
  · have hexec := execCodewordBoundary_up hl hst hd hr
    rw [← hleaves] at hexec
    have hthirds : r.2.thirds = d.2.thirds := by rw [hr]; rfl
    rw [← hthirds]
    refine ⟨fun hfew hstays => ?_, fun hmany hstays => ?_, fun hgoes => ?_⟩
    · rw [hstays] at hexec
      refine Runs.of hexec ?_
      rw [if_neg Bool.false_ne_true, State.sendWord_quiet hfew]
      exact ⟨State.modPort_same .., by rw [State.emit_out, State.modPort_out, State.at__out]⟩
    · rw [hstays] at hexec
      exact Runs.of hexec ((if_neg Bool.false_ne_true).trans (if_pos hmany))
    · rw [hgoes] at hexec
      refine Runs.of hexec ?_
      obtain ⟨htrains, _, hretuned⟩ := State.startTraining_shows ((s.at_ t).sendWord side r.2 r.1) side
      exact ⟨htrains, hretuned⟩
  · have hexec := execCodewordReceive_data (t := t) hl hlen hcw hst hw hkind hr hin
    obtain ⟨_, hrx⟩ := Port.takeLine_keeps (s.port side) bytes
    have hport : (((s.at_ t).growFrame t side ((s.port side).takeLine bytes).2 r w).port side).lastCodeword = t := by
      unfold State.growFrame
      rw [State.modPort_same]
    refine ⟨fun hlast => Runs.of hexec ?_, fun hlast => Runs.of hexec ?_⟩
    · rw [hlast]
      refine ⟨hport, ?_⟩
      unfold State.growFrame
      rw [if_neg Bool.false_ne_true, State.modPort_same, modNth_getElem?_same, hrx, hr]
      simp [RxClass.grown, hlast]
    · refine ⟨_, (if_pos hlast).trans ?_, hport⟩
      unfold RxClass.grown
      rw [if_pos hlast]
  · refine Runs.of (execControlCodewordReceive_of hl hst hlen hk htag hctr) ⟨_, rfl, ?_⟩
    rw [State.modPort_same]
    exact ⟨rfl, rfl, rfl⟩

end Sys2Proof.Machine
end

section
/-! The states of a hop, its training, its power and its keys (R252, R253, R262, R277, R278). -/

namespace Sys2Proof.Machine

/-! ### The mode of a port, and what leaves it alone -/

/-- The state of a hop at a port, whether it has trained, and its modulation (R253, R262). -/
structure HopMode where
  st : HopSt
  trained : Bool
  qpsk : Bool

/-- The mode of the hop at a port. -/
def Port.mode (p : Port) : HopMode := { st := p.st, trained := p.trained, qpsk := p.qpsk }

/-- The modes of both ports. -/
def State.modes (s : State) : HopMode × HopMode := (s.link.up.mode, s.link.dn.mode)

theorem State.modes_of_net {s u : State} (h : s.net = u.net) : s.modes = u.modes := by
  have hboth : (s.net.up.mode, s.net.dn.mode) = (u.net.up.mode, u.net.dn.mode) := by rw [h]
  exact hboth

theorem State.mode_of_modes {s u : State} (h : s.modes = u.modes) (side : Side) : (s.port side).mode = (u.port side).mode := by
  cases side with
  | up => exact congrArg Prod.fst h
  | down => exact congrArg Prod.snd h

theorem modes_ite {c : Prop} {_ : Decidable c} {a b : State} {x : HopMode × HopMode} (ha : a.modes = x) (hb : b.modes = x) :
    (if c then a else b).modes = x := by split <;> assumption

theorem State.modPort_modes (s : State) (side : Side) {f : Port → Port} (h : ∀ p, (f p).mode = p.mode) : (s.modPort side f).modes = s.modes := by
  cases side with
  | up => exact congrArg (fun m => (m, s.link.dn.mode)) (h s.link.up)
  | down => exact congrArg (fun m => (s.link.up.mode, m)) (h s.link.dn)

theorem State.event_modes (s : State) (e : Ev) : (s.event e).modes = s.modes := State.modes_of_net (State.event_net s e)

/-! ### The end of an enumeration (R263, R265) -/

theorem State.finishEnumeration_modes (s : State) (parts : Nat) (closed : Bool) : (s.finishEnumeration parts closed).modes = s.modes := by
  delta State.finishEnumeration
  extract_lets plan exp noRing count link counted retuned ringless short odd changed told sent cmd link'
  have hretuned : retuned.modes = s.modes := modes_ite (c := closed = true) (State.modPort_modes counted .up fun _ => rfl) rfl
  have hringless : ringless.modes = s.modes := modes_ite ((State.event_modes ..).trans hretuned) hretuned
  have hshort : short.modes = s.modes := modes_ite ((State.event_modes ..).trans hringless) hringless
  have hchanged : changed.modes = s.modes := (State.modes_of_net (foldl_net (fun _ _ => State.event_net ..) odd short)).trans hshort
  have hsent : sent.modes = s.modes :=
    (State.modes_of_net ((State.flushUnrouted_net _).trans (State.originate_net ..))).trans ((State.event_modes ..).trans hchanged)
  clear_value sent
  exact (State.modes_of_net ((State.startAll_net _).trans (State.completeOpt_net ..))).trans hsent

theorem State.endEnumeration_modes (s : State) (parts : Nat) (closed : Bool) : (s.endEnumeration parts closed).modes = s.modes := by
  refine modes_ite (State.finishEnumeration_modes ..) (modes_ite ?_ ?_)
  · exact (State.modes_of_net (State.enqueue_net ..)).trans rfl
  · exact (State.modes_of_net (State.originate_net ..)).trans rfl

theorem State.closeRing_modes (s : State) : s.closeRing.modes = s.modes := by
  unfold State.closeRing
  split
  · exact modes_ite (State.endEnumeration_modes ..) rfl
  · rfl

/-! ### Keying and coming UP (R262, R277) -/

theorem State.sendKeying_net (s : State) (side : Side) (rekey : Bool) (b : List Byte) : (s.sendKeying side rekey b).net = s.net :=
  net_ite (State.enqueue_net ..) rfl

theorem State.startKeying_modes (s : State) (side : Side) (rekey : Bool) : (s.startKeying side rekey).modes = s.modes := by
  refine (State.modes_of_net (State.sendKeying_net ..)).trans ?_
  exact State.modPort_modes (s.drawBits 256).2 side fun _ => rfl

theorem State.startKeying_keys (s : State) (side : Side) (rekey : Bool) : ((s.startKeying side rekey).port side).keying.isSome = true := by
  delta State.startKeying
  extract_lets r priv u pub p k keyed
  have hport : (keyed.port side).keying.isSome = true := by rw [State.modPort_same]; rfl
  exact (State.net_view (·.keying.isSome) (fun _ => rfl) (State.sendKeying_net ..) side).trans hport

theorem LinkState.rejoin_ports (l : LinkState) : l.rejoin.up = l.up ∧ l.rejoin.dn = l.dn := by
  unfold LinkState.rejoin
  split
  · split <;> exact ⟨rfl, rfl⟩
  · exact ⟨rfl, rfl⟩

theorem State.hopUp_mode {s : State} {side : Side} (h : (s.port side).st ≠ .up) :
    ((s.hopUp side).port side).mode = { (s.port side).mode with st := .up } := by
  obtain ⟨hup, hdn⟩ := LinkState.rejoin_ports s.link
  have hport : ({ s with link := s.link.rejoin } : State).port side = s.port side := by
    cases side with
    | up => exact hup
    | down => exact hdn
  have came : ∀ f : Port → Port, (∀ p, (f p).mode = { p.mode with st := .up }) →
      ((({ s with link := s.link.rejoin } : State).modPort side f).port side).mode = { (s.port side).mode with st := .up } := by
    intro f hf
    rw [State.modPort_same, hport, hf]
  have told : ∀ (u : State) (c : Bool) (m : HopMode), (u.port side).mode = m →
      ((if c then u.flushUnrouted.routeChange side 2 else u.flushUnrouted).port side).mode = m := by
    intro u c m hu
    have hflush := State.modes_of_net (State.flushUnrouted_net u)
    exact (State.mode_of_modes (modes_ite ((State.modes_of_net (State.routeChange_net ..)).trans hflush) hflush) side).trans hu
  unfold State.hopUp
  dsimp only
  rw [if_neg h]
  exact told _ _ _ (came _ fun _ => rfl)

/-! ### The commands -/

/-- What follows a training that succeeds: a part that waits for no frontier comes UP with its keys, or starts keying (R253, R262, R263). -/
def State.joinHop (s : State) (side : Side) : State :=
  if (s.port side).answered then s
  else
    match (s.port side).keys, (s.port side).keying with
    | some _, _ => (s.hopUp side).closeRing
    | none, some _ => s
    | none, none => s.startKeying side false

theorem State.joinHop_shows {s : State} {side : Side} (hst : (s.port side).st ≠ .up) :
    ((s.joinHop side).port side).trained = (s.port side).trained ∧ ((s.joinHop side).port side).qpsk = (s.port side).qpsk ∧
      ((s.port side).keys.isSome = true → (s.port side).answered = false → ((s.joinHop side).port side).st = .up) := by
  have hup : ((s.hopUp side).closeRing.port side).mode = { (s.port side).mode with st := .up } :=
    (State.mode_of_modes (State.closeRing_modes _) side).trans (State.hopUp_mode hst)
  have hkeying := State.mode_of_modes (State.startKeying_modes s side false) side
  unfold State.joinHop
  split
  · next ha => exact ⟨rfl, rfl, fun _ hno => absurd ha (by rw [hno]; exact Bool.false_ne_true)⟩
  · split
    · exact ⟨congrArg HopMode.trained hup, congrArg HopMode.qpsk hup, fun _ _ => congrArg HopMode.st hup⟩
    · next hk _ => exact ⟨rfl, rfl, fun hsome => by rw [hk] at hsome; cases hsome⟩
    · next hk _ => exact ⟨congrArg HopMode.trained hkeying, congrArg HopMode.qpsk hkeying, fun hsome => by rw [hk] at hsome; cases hsome⟩

/-- The first hop that trains ends the wait of a gateway for its first beacon 100 ms later (R272). -/
def State.endBeaconWait (s : State) (t : Nat) : State :=
  if s.link.beaconHold = some 0 then { s with link := { s.link with beaconHold := some (t + 100000000) } } else s

theorem State.endBeaconWait_port (s : State) (t : Nat) (side : Side) : (s.endBeaconWait t).port side = s.port side := by
  unfold State.endBeaconWait
  split
  · cases side <;> rfl
  · rfl

/-- A port whose training has succeeded with a margin over the 16-QAM threshold (R253). -/
def Port.trainedAt (p : Port) (margin : Int) (t : Nat) : Port :=
  ({ p with qpsk := !decide (24 ≤ margin), trained := true }).noteMargin (if decide (24 ≤ margin) then margin else margin + 28) true t

section
variable {t : Nat} {side : Side} {s : State}

theorem execHopTrainingComplete_of {margin : Int} {peerQpsk : Bool} (hl : s.linkRuns = true) (hst : (s.port side).st = .training)
    (ht : (s.port side).trainAt + 100000 ≤ t) (hm : 24 ≤ margin ∨ ((s.port side).qpskEn = true ∧ peerQpsk = true)) :
    exec (.hopTrainingComplete t side margin peerQpsk) s = .next (
      (((s.at_ t).endBeaconWait t).modPort side fun p => p.trainedAt margin t).joinHop side) := by
  have hruns : ¬(!(s.at_ t).linkRuns || ((s.at_ t).port side).st != .training || decide (t < ((s.at_ t).port side).trainAt + 100000) ||
      !(decide (24 ≤ margin) || (((s.at_ t).port side).qpskEn && peerQpsk))) = true := by
    have hok : (decide (24 ≤ margin) || (((s.at_ t).port side).qpskEn && peerQpsk)) = true := by simpa using hm
    rw [hok]
    simp [hl, hst, Nat.not_lt.2 ht]
  show execHopTrainingComplete t side margin peerQpsk s = _
  unfold execHopTrainingComplete
  dsimp only
  rw [if_neg hruns]
  rfl

theorem execHopTrainingComplete_shows {margin : Int} {peerQpsk : Bool} (hl : s.linkRuns = true) (hst : (s.port side).st = .training)
    (ht : (s.port side).trainAt + 100000 ≤ t) (hm : 24 ≤ margin ∨ ((s.port side).qpskEn = true ∧ peerQpsk = true)) :
    Runs (.hopTrainingComplete t side margin peerQpsk) s fun s' => (s'.port side).trained = true ∧
      (s'.port side).qpsk = decide (margin < 24) ∧
      ((s.port side).keys.isSome = true → (s.port side).answered = false → (s'.port side).st = .up) := by
  have hport : (((s.at_ t).endBeaconWait t).modPort side fun p => p.trainedAt margin t).port side = (s.port side).trainedAt margin t := by
    rw [State.modPort_same, State.endBeaconWait_port, State.port_at_]
  have hjoin := State.joinHop_shows (s := ((s.at_ t).endBeaconWait t).modPort side fun p => p.trainedAt margin t) (side := side)
    (by rw [hport]; exact fun h => HopSt.noConfusion (hst.symm.trans h))
  rw [hport] at hjoin
  obtain ⟨htrained, hqpsk, hup⟩ := hjoin
  refine Runs.of (execHopTrainingComplete_of hl hst ht hm) ⟨htrained, hqpsk.trans ?_, hup⟩
  exact decide_not.symm.trans (decide_eq_decide.2 Int.not_le)

theorem execApcAdjust_shows {margin : Margins} (hst : (s.port side).st = .up) : Runs (.apcAdjust t side margin) s fun s' =>
    (s'.port side).txPwr = if (s.port side).apcEn = false then (s.port side).txMax
      else if t < (s.port side).apcAt ∧ (s.port side).apcAt ≤ t + 1000000 then (s.port side).txPwr
      else if margin.peer < 32 then min (s.port side).txMax ((s.port side).txPwr + 1)
      else if 48 < margin.peer then max (-10) ((s.port side).txPwr - 1) else (s.port side).txPwr := by
  have hup : ¬((s.at_ t).port side).st ≠ .up := fun h => h hst
  refine ⟨_, rfl, ?_⟩
  rw [if_neg hup]
  dsimp only
  rw [State.modPort_same, State.port_at_]
  simp [Port.noteMargin]

end

/-- Settles O28: a hop that goes DOWN or begins to train ends with its port so, and what follows a training that succeeds, a hop that
comes UP or the end of an enumeration among it, leaves the mode that it chose. -/
theorem hopCommandsComplete : Obligations.HopCommandsComplete := by
  rintro t side s _ rfl
  refine ⟨fun hl hst ht => ⟨_, rfl, ?_⟩, fun a hl hst hlow ht => ⟨_, rfl, ?_⟩, fun hl hmay => ⟨_, rfl, ?_⟩,
    fun margin peerQpsk hl hst ht hm => execHopTrainingComplete_shows hl hst ht hm, fun hst hheld hup hun => ⟨_, rfl, ?_⟩,
    fun margin hst => execApcAdjust_shows hst, fun bytes hl hst => ?_, fun hst hk hctr => ⟨_, rfl, ?_⟩⟩
  · rw [if_pos ⟨hl, hst, ht⟩]
    exact State.hopDown_st ..
  · rw [State.port_at_, hlow]
    dsimp only
    rw [if_pos ⟨hl, hst, ht⟩]
    exact State.hopDown_st ..
  · rw [if_pos (by simp [hl, hmay])]
    obtain ⟨htrains, htrained, _⟩ := State.startTraining_shows (s.at_ t) side
    exact ⟨htrains, htrained⟩
  · rw [if_pos ⟨hst, hheld, hup, hun⟩]
    exact (State.net_view (·.held) (fun _ => rfl) (State.routeChange_net ..) side).trans (by rw [State.modPort_same])
  · have hruns : ¬(!(s.at_ t).linkRuns || ((s.at_ t).port side).st == .down) = true := by simp [hl, hst]
    refine ⟨fun hkind => ⟨_, rfl, (if_neg hruns).trans (if_pos hkind)⟩,
      fun hkind => ⟨_, rfl, (if_neg hruns).trans ((if_neg ?_).trans (if_pos hkind))⟩⟩
    rw [hkind]
    decide
  · rw [if_pos ⟨hst, hk, hctr⟩]
    exact ⟨rfl, State.startKeying_keys ..⟩

end Sys2Proof.Machine
end

section
/-! The frames and waits of an enumeration (R263 to R265, R360). -/

namespace Sys2Proof.Machine

/-! ### The frontier, and what a hop trained anew leaves of it -/

theorem State.net_link {α : Type} (f : LinkState → α) (hf : ∀ l, f l.still = f l) {s u : State} (h : s.net = u.net) :
    f s.link = f u.link := by
  rw [← hf s.link, ← hf u.link]
  exact congrArg f h

theorem State.net_frontier {s u : State} (h : s.net = u.net) : s.link.frontier = u.link.frontier := by
  have hf : s.net.frontier = u.net.frontier := by rw [h]
  exact hf

@[simp] theorem State.modPort_frontier (s : State) (side : Side) (f : Port → Port) : (s.modPort side f).link.frontier = s.link.frontier := by
  cases side <;> rfl

theorem State.dn_eq_port (s : State) : s.link.dn = s.port .down := rfl

theorem State.hopDown_frontier (s : State) (side : Side) : (s.hopDown side).link.frontier = s.link.frontier := by
  by_cases h : (s.port side).st = .down
  · unfold State.hopDown
    dsimp only
    rw [if_pos h]
  · rw [State.net_frontier (State.hopDown_net h), State.modPort_frontier]

theorem State.freshHop_frontier (s : State) (ident next : Nat) : (s.freshHop ident next).link.frontier = s.link.frontier := by
  unfold State.freshHop State.startTraining
  simp only [State.modPort_frontier, State.emit_link, State.hopDown_frontier]

/-! ### The start, DISCOVER and its answer -/

theorem execEnumStartReceive_of {t : Nat} {bytes : List Byte} {s w : State} (ha : (s.at_ t).accept (frameOf bytes) = (.deliver, w))
    (hm : w.isModule = true) (hk : rd (frameOf bytes).payload 0 1 = 0x10) :
    exec (.enumStartReceive t bytes) s = .next w.cancelPend.dropPlace := by
  show execEnumStartReceive t bytes s = _
  unfold execEnumStartReceive
  dsimp only
  rw [ha]
  exact congrArg Host.Outcome.next (if_pos ⟨rfl, hm, hk⟩)

theorem execDiscoverSend_of {t : Nat} {f : Frontier} {s : State} (hf : s.link.frontier = some f) (hl : s.linkRuns = true)
    (hms : (t - f.startedAt) % 1000000 = 0) (ht : t < f.startedAt + bits (rd s.link.plan 0 4) 31 16 * 1000000 * (f.round + 1)) :
    exec (.discoverSend t) s = .next ((s.at_ t).emit (.clear .down (s.at_ t).discover)) := by
  show execDiscoverSend t s = _
  unfold execDiscoverSend
  dsimp only
  rw [State.at__link, hf]
  exact congrArg Host.Outcome.next (if_pos ⟨hl, hms, ht⟩)

section
variable {t : Nat} {bytes : List Byte} {s : State} (hl : s.linkRuns = true) (hk : rd bytes 0 1 = 0x20) (hlife : s.trust.life ≠ 3)
include hl hk hlife

theorem discover_taken : ¬(!(s.at_ t).linkRuns || rd bytes 0 1 != 0x20 || (s.at_ t).trust.life == 3) = true := by
  simp [hl, hk, hlife]

theorem execDiscoverReceive_down (hor : s.link.dn.orientRaised = false) :
    Runs (.discoverReceive t .down bytes) s fun s' => s'.link.dn.orientRaised = true := by
  have hnew : ¬(s.at_ t).link.dn.orientRaised = true := by rw [State.at__link, hor]; exact Bool.false_ne_true
  have hexec : exec (.discoverReceive t .down bytes) s = .next (((s.at_ t).modPort .down fun p => { p with orientRaised := true }).event
      { source := 34, subkind := 1, item := (s.at_ t).pos }) :=
    congrArg Host.Outcome.next ((if_neg (discover_taken hl hk hlife)).trans ((if_pos rfl).trans (if_neg hnew)))
  refine Runs.of hexec ?_
  rw [State.dn_eq_port, State.net_view (·.orientRaised) (fun _ => rfl) (State.event_net ..), State.modPort_same]

/-- A part that DISCOVER is for and that has no place in the chain answers it: it waits for the frontier on channel 2 (R263). -/
theorem execDiscoverReceive_up (hfr : s.link.frontier = none)
    (hmine : if s.isGateway = true then rd bytes 1 4 = s.chainOf
      else s.trust.life = 0 ∨ s.link.chainId = none ∨ s.link.chainId = some (rd bytes 1 4)) {w u v : State}
    (hw : w = if (s.isModule && s.link.position.isSome && s.link.chainId == some (rd bytes 1 4)) = true then (s.at_ t).cancelPend.dropPlace
      else s.at_ t) (hplace : (w.isModule && w.link.position.isSome) = false)
    (hu : u = (w.drawBits 4).2.emit (.clear .up (le 1 0x23 ++ le 1 ((w.drawBits 4).1 % 16) ++ le 8 w.part.ident ++ slice bytes 14 1 ++
      le 1 (b2n w.isGateway))))
    (hv : v = ({ u with link := { u.link with heard := some (rd bytes 1 4, rd bytes 5 1) } }).modPort .up fun p =>
      { p with answered := true, retune := some 1 }) :
    exec (.discoverReceive t .up bytes) s = .next (
      if w.link.up.st = .up ∨ (w.link.up.st = .training ∧ w.link.up.channel = 1) then v else v.startTraining .up) := by
  have hnoPlace : ¬(w.isModule && w.link.position.isSome) = true := by rw [hplace]; exact Bool.false_ne_true
  have htrains : ((decide (v.link.up.st = .up) || (v.link.up.st == .training && v.link.up.channel == 1)) = true) =
      (w.link.up.st = .up ∨ (w.link.up.st = .training ∧ w.link.up.channel = 1)) := by
    subst hv hu
    simp only [Bool.or_eq_true, Bool.and_eq_true, beq_iff_eq, decide_eq_true_eq]
    rfl
  refine congrArg Host.Outcome.next ((if_neg (discover_taken hl hk hlife)).trans ((if_neg (by decide)).trans ((if_neg ?_).trans ?_)))
  · rw [State.at__link, hfr]
    by_cases hg : s.isGateway = true
    · rw [if_pos hg] at hmine
      simp [hg, hmine]
    · rw [if_neg hg] at hmine
      obtain h | h | h := hmine <;> simp [hg, h]
  · extract_lets w'
    have hsame : w' = w := hw.symm
    clear_value w'
    subst hsame
    refine (if_neg hnoPlace).trans ?_
    subst hu hv
    exact ite_congr htrains (fun _ => rfl) fun _ => rfl

end

/-! ### The end of a frontier's wait -/

/-- The frontier keys the hop that closes the ring with the gateway's UP port, of which `gate` is the answer (R263, R265). -/
def State.closeOn (s : State) (f : Frontier) (gate : List Byte) : State :=
  ({ s with link := { s.link with frontier := some { f with closing := true } } }).freshHop (rd gate 0 8)
    (closingChannel s.link.plan (s.pos + 1))

/-- The frontier leaves the rest to the part whose answer is `a`: it keys the hop to it and sends its assignment (R263). -/
def State.handOn (s : State) (a : List Byte) : State :=
  let u := ({ s with link := { s.link with frontier := none } }).freshHop (rd a 0 8) (hopChannel s.link.plan s.pos)
  u.enqueue .down
    { tc := 1, kind := 0x13, dst := 0, origin := u.pos, flags := flFirst ||| flLast, mseq := 0,
      payload := le 1 0x21 ++ a.take 8 ++ le 4 u.chainOf ++ le 1 (s.pos + 1) ++ le 1 (hopChannel s.link.plan s.pos) ++ s.link.plan }

theorem State.handOn_frontier (s : State) (a : List Byte) : (s.handOn a).link.frontier = none :=
  (State.modPort_frontier ..).trans (State.freshHop_frontier ..)

/-- The answers of module parts. -/
def ownAnswers (answers : List (List Byte)) : List (List Byte) := answers.filter fun a => rd a 9 1 == 0

/-- The candidate that a frontier chooses among some answers, which position 63 has none of (R263). -/
def State.pick (s : State) (answers : List (List Byte)) : Option (List Byte) :=
  if s.pos = 62 then none else chooseCandidate s.link.plan (s.pos + 1) (ownAnswers answers)

/-- The gateway's UP port has answered, and no part is to come before it (R263). -/
def State.ringCloses (s : State) (answers : List (List Byte)) : Bool :=
  answers.any (fun a => rd a 9 1 == 1) && s.pos != 0 &&
    ((ownAnswers answers).isEmpty || s.pos == 62 || s.pos + 1 == planExpect s.link.plan)

/-- What the frontier does when no answer may be taken: it waits again, or ends the chain (R263). -/
def State.waitAgain (s : State) (f : Frontier) : State :=
  if f.round < 2 then { s with link := { s.link with frontier := some { f with round := f.round + 1 } } }
  else s.endEnumeration (s.pos + 1) false

/-- What the frontier does at the end of a wait in which the ring does not close, by the candidate it chose. -/
def State.handOrWait (s : State) (f : Frontier) : Option (List Byte) → State
  | some a => s.handOn a
  | none => s.waitAgain f

theorem execEnumWaitExpire_of {t : Nat} {answers : List (List Byte)} {f : Frontier} {s : State} (hf : s.link.frontier = some f)
    (hl : s.linkRuns = true) (hc : f.closing = false)
    (ht : f.startedAt + bits (rd s.link.plan 0 4) 31 16 * 1000000 * (f.round + 1) ≤ t) :
    exec (.enumWaitExpire t answers) s = .next (
      if s.ringCloses answers = true then (s.at_ t).closeOn f ((answers.find? fun a => rd a 9 1 == 1).getD [])
      else (s.at_ t).handOrWait f (s.pick answers)) := by
  have hguard : ¬(!(s.at_ t).linkRuns || f.closing ||
      decide (t < f.startedAt + bits (rd (s.at_ t).link.plan 0 4) 31 16 * 1000000 * (f.round + 1))) = true := by
    rw [State.linkRuns_at_, State.at__link, hl, hc, decide_eq_false (Nat.not_lt.2 ht)]
    decide
  have hcloses : s.ringCloses answers = ((answers.find? fun a => rd a 9 1 == 1).isSome && s.pos != 0 &&
      ((ownAnswers answers).isEmpty || s.pos == 62 || s.pos + 1 == planExpect s.link.plan)) := by
    rw [List.isSome_find?]
    rfl
  rw [hcloses]
  show execEnumWaitExpire t answers s = _
  unfold execEnumWaitExpire
  dsimp only
  rw [State.at__link, hf]
  refine congrArg Host.Outcome.next ((if_neg hguard).trans (ite_congr rfl (fun _ => rfl) fun _ => ?_))
  have hpick : (if (s.at_ t).pos = 62 then none else chooseCandidate (s.at_ t).link.plan ((s.at_ t).pos + 1)
      (answers.filter fun a => rd a 9 1 == 0)) = s.pick answers := rfl
  generalize s.pick answers = choice at hpick ⊢
  cases choice with
  | some a => simp only [State.at__link] at hpick ⊢; rw [hpick]; rfl
  | none => simp only [State.at__link] at hpick ⊢; rw [hpick]; rfl

/-! ### Assignments, reports and the result -/

/-- A part that an assignment names takes its place (R263, R264). -/
def State.takePlace (s : State) (f : Frame) : State :=
  { s with link := { s.link with
      inbox := s.link.inbox.eraseP fun x => x.2 == f, position := some (rd f.payload 13 1), parts := rd f.payload 13 1 + 1, heard := none,
      chainId := some (if s.trust.life = 0 then rd f.payload 9 4 else s.link.chainId.getD (rd f.payload 9 4)), plan := f.payload.drop 15,
      up := { s.link.up with retune := some (rd f.payload 14 1), useAtOnce := true, held := false, answered := false, ctlDue := true } } }

section
variable {t : Nat} {bytes : List Byte} {s : State} (hl : s.linkRuns = true)
include hl

theorem execEnumFrameReceive_assigned (hk : rd (frameOf bytes).payload 0 1 = 0x21) (hm : s.isModule = true)
    (hid : rd (frameOf bytes).payload 1 8 = s.part.ident) (hp : s.link.position = none) :
    exec (.enumFrameReceive t bytes) s = .next (
      ((((s.at_ t).takePlace (frameOf bytes)).becomeFrontier.flushUnrouted).originate 1 0x13 0
        (le 1 0x11 ++ le 1 (rd (frameOf bytes).payload 13 1) ++ le 8 s.part.ident ++ le 1 (rd (frameOf bytes).payload 14 1)))) := by
  have hruns : ¬(!(s.at_ t).linkRuns) = true := by simp [hl]
  have hmine : (s.at_ t).isModule = true ∧ rd (frameOf bytes).payload 1 8 = (s.at_ t).part.ident ∧ (s.at_ t).link.position.isNone = true :=
    ⟨hm, hid, by rw [State.at__link, hp]; rfl⟩
  exact congrArg Host.Outcome.next ((if_neg hruns).trans ((if_pos hk).trans (if_pos hmine)))

variable {w : State} (ha : (s.at_ t).accept (frameOf bytes) = (.deliver, w))
include ha

/-- What a report, an end or a result that the part accepted does (R263, R264). -/
def State.takeEnumFrame (w : State) (b : List Byte) : State :=
  if rd b 0 1 = 0x11 ∧ w.isGateway ∧ w.link.enumState = 1 then
    { w with link := { w.link with
      parts := max w.link.parts (rd b 1 1 + 1),
      idents := (w.link.idents.filter fun x => x.1 != rd b 1 1) ++ [(rd b 1 1, rd b 2 8)] } }
  else if rd b 0 1 = 0x12 ∧ w.isGateway ∧ w.link.enumState = 1 then w.finishEnumeration (rd b 1 1) (rd b 2 1 == 1)
  else if rd b 0 1 = 0x13 ∧ w.isModule then
    ({ w with link := { w.link with parts := rd b 1 1, ringClosed := rd b 2 1 == 1, frontier := none, heard := none } }).holderAnew
  else w

theorem execEnumFrameReceive_accepted (hk : rd (frameOf bytes).payload 0 1 ≠ 0x21) :
    exec (.enumFrameReceive t bytes) s = .next (w.takeEnumFrame (frameOf bytes).payload) := by
  have hruns : ¬(!(s.at_ t).linkRuns) = true := by simp [hl]
  refine congrArg Host.Outcome.next ((if_neg hruns).trans ((if_neg hk).trans ?_))
  dsimp only
  rw [ha]
  exact if_neg fun h => h rfl

theorem execEnumFrameReceive_report (hk : rd (frameOf bytes).payload 0 1 = 0x11) (hg : w.isGateway = true) (he : w.link.enumState = 1) :
    exec (.enumFrameReceive t bytes) s = .next { w with link := { w.link with
      parts := max w.link.parts (rd (frameOf bytes).payload 1 1 + 1),
      idents := (w.link.idents.filter fun x => x.1 != rd (frameOf bytes).payload 1 1) ++
        [(rd (frameOf bytes).payload 1 1, rd (frameOf bytes).payload 2 8)] } } :=
  (execEnumFrameReceive_accepted hl ha (by rw [hk]; decide)).trans (congrArg Host.Outcome.next (if_pos ⟨hk, hg, he⟩))

theorem execEnumFrameReceive_end (hk : rd (frameOf bytes).payload 0 1 = 0x12) (hg : w.isGateway = true) (he : w.link.enumState = 1) :
    exec (.enumFrameReceive t bytes) s =
      .next (w.finishEnumeration (rd (frameOf bytes).payload 1 1) (rd (frameOf bytes).payload 2 1 == 1)) :=
  (execEnumFrameReceive_accepted hl ha (by rw [hk]; decide)).trans (congrArg Host.Outcome.next
    ((if_neg fun h => absurd (hk.symm.trans h.1) (by decide)).trans (if_pos ⟨hk, hg, he⟩)))

theorem execEnumFrameReceive_result (hk : rd (frameOf bytes).payload 0 1 = 0x13) (hm : w.isModule = true) :
    exec (.enumFrameReceive t bytes) s = .next (({ w with link := { w.link with
      parts := rd (frameOf bytes).payload 1 1, ringClosed := rd (frameOf bytes).payload 2 1 == 1, frontier := none,
      heard := none } }).holderAnew) :=
  (execEnumFrameReceive_accepted hl ha (by rw [hk]; decide)).trans (congrArg Host.Outcome.next
    ((if_neg fun h => absurd (hk.symm.trans h.1) (by decide)).trans ((if_neg fun h => absurd (hk.symm.trans h.1) (by decide)).trans (if_pos ⟨hk, hm⟩))))

end

/-- Settles O29: one equation of exec for each kind of message and for the end of a wait; what the parts then send leaves the chain's
place, identifier and plan as they are. -/
theorem enumerationCommandsComplete : Obligations.EnumerationCommandsComplete := by
  refine ⟨fun t bytes s w ha hm hk => ⟨_, execEnumStartReceive_of ha hm hk, rfl, rfl⟩,
    fun t f s hf hl hms ht => ⟨_, execDiscoverSend_of hf hl hms ht, rfl⟩,
    fun t bytes s hl hk hlife hor => execDiscoverReceive_down hl hk hlife hor,
    fun t bytes s w hl hk hlife hfr hmine hw hplace u v hu hv => ⟨_, execDiscoverReceive_up hl hk hlife hfr hmine hw hplace hu hv, rfl⟩,
    ?_, ?_, ?_⟩
  · rintro t answers f s hf hl hc ht _ _ _ rfl rfl rfl
    have hexec := execEnumWaitExpire_of (answers := answers) hf hl hc ht
    have hopen := fun h => (Bool.eq_false_iff (b := s.ringCloses answers)).1 h
    refine ⟨fun gate hcl hgate => ?_, fun hcl hpick => ?_, fun hcl hpick hr => ?_, fun hcl hpick hr => ?_⟩ <;>
      refine Runs.of hexec ?_
    · rw [if_pos (show s.ringCloses answers = true from hcl), hgate]
      rfl
    · obtain ⟨a, hsome⟩ := Option.isSome_iff_exists.1 hpick
      rw [if_neg (hopen hcl), show s.pick answers = some a from hsome]
      exact State.handOn_frontier ..
    · rw [if_neg (hopen hcl), show s.pick answers = none from hpick]
      show ((s.at_ t).waitAgain f).link.frontier = _
      rw [State.waitAgain, if_pos hr]
    · rw [if_neg (hopen hcl), show s.pick answers = none from hpick]
      show (s.at_ t).waitAgain f = _
      rw [State.waitAgain, if_neg (Nat.not_lt.2 hr), State.pos_at_]
  · rintro t bytes _ s rfl hl hk hm hid hp
    refine Runs.of (execEnumFrameReceive_assigned hl hk hm hid hp) ?_
    have hnet := (State.originate_net ((((s.at_ t).takePlace (frameOf bytes)).becomeFrontier.flushUnrouted)) 1 0x13 0
      (le 1 0x11 ++ le 1 (rd (frameOf bytes).payload 13 1) ++ le 8 s.part.ident ++ le 1 (rd (frameOf bytes).payload 14 1))).trans
      (State.flushUnrouted_net _)
    exact ⟨State.net_link (·.position) (fun _ => rfl) hnet, State.net_link (·.chainId) (fun _ => rfl) hnet,
      State.net_link (·.plan) (fun _ => rfl) hnet⟩
  · rintro t bytes _ s w rfl hl ha
    exact ⟨fun hk hg he => ⟨_, execEnumFrameReceive_report hl ha hk hg he, rfl, rfl⟩,
      fun hk hg he => ⟨_, execEnumFrameReceive_end hl ha hk hg he, rfl⟩,
      fun hk hm => ⟨_, execEnumFrameReceive_result hl ha hk hm, rfl, rfl, rfl⟩⟩

end Sys2Proof.Machine
end

section
/-! Pack time and heartbeats (R271 to R276, R280, R383). -/

namespace Sys2Proof.Machine

/-! ### The gateway's beacon -/

theorem State.enqueue_beaconHold (s : State) (side : Side) (f : Frame) : (s.enqueue side f).link.beaconHold = s.link.beaconHold := by
  cases side <;> rfl

theorem State.enqueue_flowsTx (s : State) (side : Side) (f : Frame) : (s.enqueue side f).link.flowsTx = s.link.flowsTx := by
  cases side <;> rfl

/-- The beacon of a gateway that nothing holds back (R272, R274). -/
def State.sendBeacon (s : State) (t : Nat) : State :=
  let m := nextMseq s.link.flowsTx 0 63
  let u := { s with link := { s.link with beaconHold := none, flowsTx := m.2 } }
  let f : Frame := { tc := 0, kind := 1, dst := 63, origin := 0, flags := flFirst ||| flLast ||| flDual, mseq := m.1,
                     payload := le 8 t ++ zeros 6 ++ le 2 u.link.epoch ++ zeros 8 }
  let u := if u.hasNeighbour .up then u.enqueue .up f else u
  if u.hasNeighbour .down then u.enqueue .down f else u

theorem ite_enqueue_beaconHold (c : Prop) [Decidable c] (s : State) (side : Side) (f : Frame) :
    (if c then s.enqueue side f else s).link.beaconHold = s.link.beaconHold := by
  split
  · exact State.enqueue_beaconHold ..
  · rfl

theorem ite_enqueue_flowsTx (c : Prop) [Decidable c] (s : State) (side : Side) (f : Frame) :
    (if c then s.enqueue side f else s).link.flowsTx = s.link.flowsTx := by
  split
  · exact State.enqueue_flowsTx ..
  · rfl

theorem State.sendBeacon_beaconHold (s : State) (t : Nat) : (s.sendBeacon t).link.beaconHold = none :=
  (ite_enqueue_beaconHold ..).trans (ite_enqueue_beaconHold ..)

theorem State.sendBeacon_flowsTx (s : State) (t : Nat) : (s.sendBeacon t).link.flowsTx = (nextMseq s.link.flowsTx 0 63).2 :=
  (ite_enqueue_flowsTx ..).trans (ite_enqueue_flowsTx ..)

theorem execTimeBeaconSend_of {t : Nat} {s : State} (hl : s.linkRuns = true) (hg : s.isGateway = true) (ht : t % 1000000 = 0) (hn : s.now ≤ t)
    (hfree : s.link.beaconHold = none ∨ s.hopsKeyed = true ∨ ∃ h, s.link.beaconHold = some h ∧ h ≠ 0 ∧ h ≤ t) :
    exec (.timeBeaconSend t) s = .next ((s.at_ t).sendBeacon t) := by
  have hnow : s.clock t = t := by
    rw [State.clock, if_pos hg, Nat.max_eq_left hn]
  have hguard : ¬(!(s.at_ t).linkRuns || !(s.at_ t).isGateway || t % 1000000 != 0 || s.clock t != t) = true := by
    simp [hl, hg, ht, hnow]
  have hkeyed : (s.at_ t).hopsKeyed = s.hopsKeyed := rfl
  refine congrArg Host.Outcome.next ((if_neg hguard).trans (if_neg ?_))
  rw [State.at__link, hkeyed]
  obtain h | h | ⟨h, hh, h0, hht⟩ := hfree
  · simp [h]
  · cases s.link.beaconHold <;> simp [h]
  · simp [hh, h0, hht]

/-! ### A beacon received -/

/-- What admitting a frame leaves: it touches what waits to be delivered and the flows, nothing else of the part (R269). -/
def State.admitsOnly (s : State) (r : Admit × State) : Prop :=
  ∃ inbox flows, r.2 = { s with link := { s.link with inbox := inbox, flowsRx := flows } }

theorem admitsOnly_ite {c : Prop} {_ : Decidable c} {s : State} {a b : Admit × State} (ha : s.admitsOnly a) (hb : s.admitsOnly b) :
    s.admitsOnly (if c then a else b) := by split <;> assumption

theorem State.accept_only (s : State) (f : Frame) : s.admitsOnly (s.accept f) := by
  unfold State.accept
  extract_lets flow same port inbox l u open_ fresh l' put
  have hkept : ∀ a, s.admitsOnly (a, u) := fun a => ⟨inbox, s.link.flowsRx, rfl⟩
  split
  · exact admitsOnly_ite ⟨_, _, rfl⟩ (hkept _)
  · extract_lets later keep behind y
    have hput : ∀ a z, s.admitsOnly (a, put z) := fun a z => ⟨_, _, rfl⟩
    have hkeep : ∀ a, s.admitsOnly (a, keep) := fun a => ⟨_, _, rfl⟩
    clear_value put keep
    refine admitsOnly_ite ?_ ?_
    · exact admitsOnly_ite (hkept _) (admitsOnly_ite (admitsOnly_ite (hput ..) (hkeep _)) (admitsOnly_ite (hput ..) (hkeep _)))
    · split
      · exact admitsOnly_ite (hput ..) (admitsOnly_ite (hkeep _) (hkept _))
      · exact admitsOnly_ite (hkeep _) (hkept _)

/-- What a beacon tells of the gateway: its T_ORIGIN, its hops and its epoch. -/
def State.told (s : State) : Nat × Nat × Nat := (s.link.lastTOrigin, s.link.lastHops, s.link.epoch)

theorem State.told_net {s u : State} (h : s.net = u.net) : s.told = u.told :=
  State.net_link (fun l => (l.lastTOrigin, l.lastHops, l.epoch)) (fun _ => rfl) h

theorem State.modDies_net (s : State) (f : Nat → Die → Die) : (s.modDies f).net = s.net :=
  foldl_net (f := fun s k => s.modDie k (f k)) (fun s k => net_ite (c := k = 0) (a := s) rfl rfl) _ _

theorem State.takeStep_told (s : State) (ofs : Int) : (s.takeStep ofs).told = s.told := by
  unfold State.takeStep State.rephase
  extract_lets l
  exact (State.told_net ((State.modDies_net ..).trans (State.event_net ..))).trans rfl

theorem State.servo_told (s : State) (ofs : Int) (base : Nat) : (s.servo ofs base).told = s.told := by
  unfold State.servo
  extract_lets step run l l' x left
  split
  · split
    · exact State.takeStep_told ..
    · rfl
  · rfl

/-- A beacon that is used (R275). -/
def State.takeBeacon (s : State) (t : Nat) (side : Side) (b : List Byte) : State :=
  ({ s with link := { s.link with lastTOrigin := rd b 0 8, lastHops := rd b 12 1, epoch := rd b 14 2 } }).servo
    (roundAway ((rd b 0 8 : Rat) + ((rd b 8 4 : Nat) : Rat) / 16 + (s.port side).delay / 16 - (t : Rat)))
    (if s.link.lastTOrigin / 1000000 == rd b 0 8 / 1000000 then s.link.lockBase else s.link.lockRun)

/-- A beacon passed on, `d` being the delay of the port it came by (R274). -/
def State.passBeacon (s : State) (side : Side) (f : Frame) (d : Rat) : State :=
  if !s.mayForward side f || !s.hasNeighbour side.other then s
  else (s.noteForward side f).queueBeacon side.other
    { f with payload := f.payload.take 12 ++ le 1 (rd f.payload 12 1 + 1) ++ f.payload.drop 13 } (rd f.payload 8 4 + (roundAway d).toNat)

theorem State.passBeacon_told (s : State) (side : Side) (f : Frame) (d : Rat) : (s.passBeacon side f d).told = s.told := by
  unfold State.passBeacon
  split
  · rfl
  · refine (State.told_net (State.enqueue_net ..)).trans ?_
    unfold State.noteForward
    split <;> rfl

theorem execTimeBeaconReceive_of {t : Nat} {side : Side} {bytes : List Byte} {f : Frame} {s w : State} (hf : f = frameOf bytes)
    (hl : s.linkRuns = true) (hm : s.isModule = true) (htc : f.tc = 0) (hk : f.kind = 1) (hw : w = ((s.at_ t).accept f).2)
    (huse : w.link.lastTOrigin / 1000000 < rd f.payload 0 8 / 1000000 ∨ w.link.lastBeacon = 0 ∨
      (w.link.lastTOrigin / 1000000 = rd f.payload 0 8 / 1000000 ∧ rd f.payload 12 1 < w.link.lastHops)) :
    exec (.timeBeaconReceive t side bytes) s = .next ((w.takeBeacon t side f.payload).passBeacon side f (w.port side).delay) := by
  subst hf
  have hguard : ¬(!(s.at_ t).linkRuns || !(s.at_ t).isModule || (frameOf bytes).tc != 0 || (frameOf bytes).kind != 1) = true := by
    simp [hl, hm, htc, hk]
  refine congrArg Host.Outcome.next ((if_neg hguard).trans ?_)
  extract_lets r u tOrigin hops d same newer better est l v g
  have hsame : u = w := hw.symm
  clear_value u
  subst hsame
  have huse' : (newer || better) = true := by
    simp only [newer, better, same, tOrigin, hops, Bool.or_eq_true, Bool.and_eq_true, decide_eq_true_eq, beq_iff_eq]
    rw [or_assoc]
    exact huse
  have hv : v = u.takeBeacon t side (frameOf bytes).payload := if_pos huse'
  clear_value v
  subst hv
  rfl

theorem execTimeBeaconReceive_told {t : Nat} {side : Side} {bytes : List Byte} {f : Frame} {s : State} (hf : f = frameOf bytes)
    (hl : s.linkRuns = true) (hm : s.isModule = true) (htc : f.tc = 0) (hk : f.kind = 1)
    (huse : s.link.lastTOrigin / 1000000 < rd f.payload 0 8 / 1000000 ∨ s.link.lastBeacon = 0 ∨
      (s.link.lastTOrigin / 1000000 = rd f.payload 0 8 / 1000000 ∧ rd f.payload 12 1 < s.link.lastHops)) :
    Runs (.timeBeaconReceive t side bytes) s fun s' => s'.told = (rd f.payload 0 8, rd f.payload 12 1, rd f.payload 14 2) := by
  obtain ⟨inbox, flows, hacc⟩ := (s.at_ t).accept_only f
  refine Runs.of (execTimeBeaconReceive_of hf hl hm htc hk rfl (by rw [hacc]; exact huse)) ?_
  exact (State.passBeacon_told ..).trans (State.servo_told ..)

/-! ### Holdover, the stored time and the heartbeat -/

theorem execTqHoldover_of {t : Nat} {s : State} (hg : s.isGateway = false) (hlock : s.link.everLocked = true)
    (ht : s.link.lastBeacon + 10000000 < t) :
    Runs (.tqHoldover t) s fun s' => s'.link.tq = (if s.link.lastBeacon + 1500000000 < t then 2 else 1) ∧ s'.link.lockRun = 0 := by
  refine Runs.of rfl ?_
  rw [if_neg (by simp [hg, hlock])]
  by_cases h : s.link.lastBeacon + 1500000000 < t
  · rw [if_pos (show (s.at_ t).link.lastBeacon + 1500000000 < t from h), if_pos h]
    exact ⟨rfl, rfl⟩
  · rw [if_neg (show ¬(s.at_ t).link.lastBeacon + 1500000000 < t from h), if_pos (show (s.at_ t).link.lastBeacon + 10000000 < t from ht), if_neg h]
    exact ⟨rfl, rfl⟩

theorem execHeartbeatSend_of {t p : Nat} {s : State} (hl : s.linkRuns = true) (hp : s.link.position = some p)
    (ht : (t + 10000000 - (s.pos * 150000 + 25000) % 10000000) % 10000000 = 0) :
    exec (.heartbeatSend t) s = .next ((((s.at_ t).formSafety 0x01 {} 0 false).2).originate 0 0x05 (if s.isGateway = true then 63 else 0)
      ((s.at_ t).formSafety 0x01 {} 0 false).1) := by
  have hguard : ¬(!(s.at_ t).linkRuns || (s.at_ t).link.position.isNone ||
      (t + 10000000 - ((s.at_ t).pos * 150000 + 25000) % 10000000) % 10000000 != 0) = true := by
    simp [hl, hp, ht]
  exact congrArg Host.Outcome.next (if_neg hguard)

/-! ### The time words of the dies -/

theorem execInnerTimeWord_of {t k delay : Nat} {d : Die} {s : State} (hd : s.hasDie k d) (htakes : s.hubTakes k = true)
    (ht : t < d.lastWord ∨ d.lastWord + 10000 ≤ t) :
    Runs (.innerTimeWord t k delay) s fun s' =>
      s'.dieShows k (fun y => (y.lastWord, y.tq)) (t, d.tqFrom (s.at_ t).tq) ∧ s'.out = s.out ++ [.timeWord k (s.clock t + delay)] := by
  obtain ⟨hfit, hdie⟩ := hd
  have hguard : ¬(!(s.at_ t).hubTakes k || (decide (d.lastWord ≤ t) && decide (t < d.lastWord + 10000))) = true := by
    simp [htakes]
    omega
  refine Runs.of (congrArg Host.Outcome.next ((State.onDie_of (s := s.at_ t) hfit hdie).trans (if_neg hguard))) ⟨?_, ?_⟩
  · exact State.shows_modDie (s := s.at_ t) (State.fitted_pos hfit) hdie rfl
  · show (State.emit _ _).out = _
    rw [State.emit, State.modDie_out]
    rfl

theorem execInnerTimeWordTimeout_of {t k : Nat} {d : Die} {s : State} (hd : s.hasDie k d) (ht : d.lastWord + 10000000 ≤ t) :
    Runs (.innerTimeWordTimeout t k) s fun s' =>
      s'.dieShows k (·.tq) (if d.tq = 3 then 3 else if d.lastWord + 1500000000 < t then 2 else 1) := by
  obtain ⟨hfit, hdie⟩ := hd
  refine Runs.of (congrArg Host.Outcome.next (State.onDie_of (s := s.at_ t) hfit hdie)) ?_
  by_cases h : d.tq = 3
  · rw [if_neg fun hc => hc.2 h, if_pos h]
    exact Option.map_eq_some_iff.2 ⟨d, hdie, h⟩
  · rw [if_pos ⟨ht, h⟩, if_neg h]
    exact State.shows_modDie (s := s.at_ t) (State.fitted_pos hfit) hdie rfl

/-- Settles O31: one lemma for each command; what servo and forwarding do after a beacon leaves what it told. -/
theorem packTimeCommandsComplete : Obligations.PackTimeCommandsComplete := by
  refine ⟨fun t s hl hg ht hn hfree => ⟨_, execTimeBeaconSend_of hl hg ht hn hfree, State.sendBeacon_beaconHold .., State.sendBeacon_flowsTx ..⟩,
    fun t side bytes f s hf hl hm htc hk huse => ?_,
    fun t s hg hlock ht => execTqHoldover_of hg hlock ht,
    fun t s ht hrun hserve hwarn => ⟨_, congrArg Host.Outcome.next (if_pos ⟨ht, hrun, hserve, hwarn⟩), rfl⟩,
    fun t p s hl hp ht => ⟨_, execHeartbeatSend_of hl hp ht, rfl⟩,
    fun t k delay d s hd htakes ht => execInnerTimeWord_of hd htakes ht,
    fun t k d s hd ht => execInnerTimeWordTimeout_of hd ht⟩
  obtain ⟨s', hexec, htold⟩ := execTimeBeaconReceive_told hf hl hm htc hk huse
  obtain ⟨hOrigin, hrest⟩ := Prod.mk.inj htold
  obtain ⟨hHops, hEpoch⟩ := Prod.mk.inj hrest
  exact ⟨s', hexec, hOrigin, hHops, hEpoch⟩

end Sys2Proof.Machine
end

section
/-! Served commands on identity, enumeration, streams and records (R263, R299, R348, R352, R362). -/

namespace Sys2Proof.Machine

/-! ### What a frame sent leaves of Locus -/

theorem ite_locus {c : Prop} {_ : Decidable c} {a b : State} {x : LocusState} (ha : a.locus = x) (hb : b.locus = x) :
    (if c then a else b).locus = x := by split <;> assumption

theorem foldl_locus {α : Type} {f : State → α → State} (h : ∀ s a, (f s a).locus = s.locus) (l : List α) (s : State) :
    (l.foldl f s).locus = s.locus := by
  induction l generalizing s with
  | nil => rfl
  | cons a l ih => exact (ih _).trans (h _ _)

theorem State.enqueue_locus (s : State) (side : Side) (f : Frame) : (s.enqueue side f).locus = s.locus := by
  cases side <;> rfl

theorem State.egress_locus (s : State) (side : Side) (f : Frame) : (s.egress side f).locus = s.locus :=
  ite_locus (State.enqueue_locus ..) (ite_locus rfl (State.enqueue_locus ..))

theorem State.dispatchFrame_locus (s : State) (dest : Nat) (f : Frame) : (s.dispatchFrame dest f).locus = s.locus := by
  have both : ∀ (c : Prop) [Decidable c] (g : Frame), (if c then s.enqueue .up g else s).locus = s.locus :=
    fun c _ g => ite_locus (State.enqueue_locus ..) rfl
  refine ite_locus (ite_locus ((State.enqueue_locus ..).trans (both ..)) (both ..)) (ite_locus ?_ (State.egress_locus ..))
  exact (State.enqueue_locus ..).trans (State.enqueue_locus ..)

theorem State.originate_locus (s : State) (tc kind dest : Nat) (payload : List Byte) :
    (s.originate tc kind dest payload).locus = s.locus := by
  unfold State.originate
  split
  · rfl
  · exact ite_locus rfl (ite_locus rfl ((foldl_locus (fun s f => State.dispatchFrame_locus s dest f) _ _).trans rfl))

section
variable {t : Nat} {c : Cmd} {s : State}

/-! ### Identity, ping and enumeration (R263, R362) -/

theorem execIdentify_of (h : s.serves 0x01 c) :
    exec (.identify t c) s = .next ((s.served t c).completeData c .success 0 (s.served t c).identity) :=
  congrArg Host.Outcome.next (State.serves_serve t h rfl)

/-- A part that serves a PING is in RUN, which the power state in the RESULT tells. -/
theorem execPing_of (h : s.serves 0x18 c) :
    exec (.ping t c) s = .next ((s.served t c).complete c .success (fld 0 16 s.cfg.epoch + fld 16 2 (s.served t c).tq + fld 18 2 0)) := by
  have hrun := State.serves_run h
  have hsame : (s.served t c).power.st = s.power.st := rfl
  refine congrArg Host.Outcome.next ((State.serves_serve t h rfl).trans ?_)
  rw [hsame, hrun]
  rfl

theorem execEnumerate_of (h : s.serves 0x02 c) (hg : s.isGateway = true) (he : s.link.enumState ≠ 1) :
    exec (.enumerate t c) s = .next ((s.served t c).startEnumeration (some c)) := by
  have hgate : ¬(!(s.served t c).isGateway) = true := by
    show ¬(!s.isGateway) = true
    rw [hg]
    decide
  exact congrArg Host.Outcome.next ((State.serves_serve t h rfl).trans ((if_neg hgate).trans (if_neg he)))

theorem State.startEnumeration_running (w : State) (cmd : Option Cmd) :
    (w.startEnumeration cmd).link.enumState = 1 ∧ (w.startEnumeration cmd).link.position = some 0 ∧
      (w.startEnumeration cmd).link.enumCmd = cmd :=
  ⟨rfl, rfl, rfl⟩

/-! ### Subscriptions (R348, R362) -/

theorem execStreamOpen_of (h : s.serves 0x06 c)
    (hr : if s.hosted = true then (s.served t c).subRefusal c = none else rd c.param 6 2 ≠ 0 ∧ streamOk c = true)
    (ht : rd c.param 4 2 = 0x0901 ∨ (rd c.param 4 2 = 0x0B01 ↔ c.target = 0))
    (hf : rd c.param 4 2 = 0x0302 → (s.served t c).fastMode c.target = 2) :
    exec (.streamOpen t c) s = .next (((s.served t c).openSub c).complete c .success 0) := by
  have hallowed : (if (s.served t c).hosted = true then (s.served t c).subRefusal c
      else if rd c.param 6 2 = 0 ∨ !streamOk c then some .invalidField else none) = none := by
    by_cases hh : s.hosted = true
    · exact (if_pos hh).trans ((if_pos hh).mp hr)
    · rw [if_neg hh] at hr
      obtain ⟨hdecim, hok⟩ := hr
      exact (if_neg hh).trans (if_neg (by simp [hdecim, hok]))
  have htarget : ¬(rd c.param 4 2 ≠ 0x0901 ∧ ((rd c.param 4 2 == 0x0B01) != (c.target == 0)) = true) := by
    rintro ⟨hport, hne⟩
    have hiff := ht.resolve_left hport
    by_cases h0 : c.target = 0 <;> simp [h0, hiff] at hne
  have hfast : ¬(rd c.param 4 2 = 0x0302 ∧ (s.served t c).fastMode c.target ≠ 2) := fun ⟨h1, h2⟩ => h2 (hf h1)
  show execStreamOpen t c s = _
  unfold execStreamOpen
  rw [State.serves_serve t h rfl]
  dsimp only
  rw [hallowed]
  exact congrArg Host.Outcome.next ((if_neg htarget).trans (if_neg hfast))

theorem execStreamClose_of {x : Sub} (h : s.serves 0x07 c) (hh : s.hosted = true)
    (hx : s.hif.subs.find? (fun x => x.sub == rd c.param 0 1) = some x) (hc : x.closing = none) :
    exec (.streamClose t c) s = .next ((((s.served t c).modHif fun h =>
      { h with subs := h.subs.map fun (y : Sub) => if y.sub = x.sub then { y with closing := some c } else y }).endSub x).endClosed) := by
  have hhosted : ¬(!(s.served t c).hosted) = true := by
    show ¬(!s.hosted) = true
    rw [hh]
    decide
  have hfound : (s.served t c).hif.subs.find? (fun x => x.sub == rd c.param 0 1) = some x := hx
  have hopen : ¬x.closing.isSome = true := by rw [hc]; exact Bool.false_ne_true
  show execStreamClose t c s = _
  unfold execStreamClose
  rw [State.serves_serve t h rfl]
  rw [if_neg hhosted, hfound]
  exact congrArg Host.Outcome.next (if_neg hopen)

/-! ### Reads (R299, R352) -/

/-- The stream fields of a read name a port stream with its port, or a stream of another kind without one. -/
theorem streamFields_agree (hport : rd c.param 4 2 = 0x0901 ↔ rd c.param 2 1 = 1 ∨ rd c.param 2 1 = 2) :
    ¬((rd c.param 4 2 == 0x0901) != (rd c.param 2 1 == 1 || rd c.param 2 1 == 2)) = true := by
  rw [show (rd c.param 4 2 == 0x0901) = (rd c.param 2 1 == 1 || rd c.param 2 1 == 2) by
    rw [Bool.eq_iff_iff]
    simpa using hport, bne_self_eq_false]
  exact Bool.false_ne_true

theorem execRecordRead_of {r : Rec} (h : s.serves 0x08 c) (hport : rd c.param 4 2 = 0x0901 ↔ rd c.param 2 1 = 1 ∨ rd c.param 2 1 = 2)
    (hok : streamOk c = true)
    (hr : (((s.served t c).streamRecs (rd c.param 4 2) (streamSrc c) 0).filter fun r =>
      r.tier == .stage || r.tier == .buffer || r.tier == .capture).getLast? = some r) (hlen : r.bytes.length ≤ c.bufLen) :
    exec (.recordRead t c) s = .next ((s.served t c).completeData c .success 0 r.bytes) := by
  show execRecordRead t c s = _
  unfold execRecordRead
  rw [State.serves_serve t h rfl]
  dsimp only
  rw [hr]
  exact congrArg Host.Outcome.next ((if_neg (streamFields_agree hport)).trans ((if_neg (by simp [hok])).trans (if_neg (Nat.not_lt.2 hlen))))

/-- The holders that keep records of the range of a read. -/
def State.holdersOf (s : State) (c : Cmd) : List Nat :=
  (((s.streamRecs (rd c.param 4 2) (streamSrc c) (rd c.param 8 8)).filter (·.tier == .t5)).flatMap (·.blocks)).eraseDups

/-- A read that waits for the holders of its records asks each for them (R305). -/
def State.askHolders (s : State) (c : Cmd) (lost : List Nat) : State :=
  let x : HolderRead := { cmd := c, lost := lost, waits := s.holdersOf c, got := [] }
  (s.holdersOf c).foldl
    (fun s p => s.originate 2 0x20 p (le 2 0xFFFE ++ le 8 s.part.ident ++ le 2 (rd c.param 4 2) ++ le 1 (streamSrc c)))
    { s with locus := { s.locus with reads := s.locus.reads ++ [x] } }

theorem State.askHolders_reads (s : State) (c : Cmd) (lost : List Nat) :
    (s.askHolders c lost).locus.reads = s.locus.reads ++ [{ cmd := c, lost := lost, waits := s.holdersOf c, got := [] }] :=
  congrArg LocusState.reads (foldl_locus (fun _ _ => State.originate_locus ..) _ _)

theorem execStoreRead_of {lost : List Nat} (h : s.serves 0x0B c)
    (hport : rd c.param 4 2 = 0x0901 ↔ rd c.param 2 1 = 1 ∨ rd c.param 2 1 = 2) (hok : streamOk c = true)
    (hsome : (s.served t c).streamRecs (rd c.param 4 2) (streamSrc c) 0 ≠ []) :
    exec (.storeRead t c lost) s = .next (if ((s.served t c).holdersOf c).isEmpty = true then (s.served t c).finishRead c lost []
      else (s.served t c).askHolders c lost) := by
  have hknown : ¬(!streamOk c || ((s.served t c).streamRecs (rd c.param 4 2) (streamSrc c) 0).isEmpty) = true := by
    simp [hok, List.isEmpty_iff, hsome]
  show execStoreRead t c lost s = _
  unfold execStoreRead
  rw [State.serves_serve t h rfl]
  exact congrArg Host.Outcome.next ((if_neg (streamFields_agree hport)).trans (if_neg hknown))

end

/-- Settles O39: a served command does what its opcode does, and the conditions of a clause leave one branch of it; asking the holders
of a range leaves Locus as the read has set it. -/
theorem streamCommandsComplete : Obligations.StreamCommandsComplete := by
  rintro t c s _ rfl
  refine ⟨fun h => ⟨_, execIdentify_of h, rfl⟩, fun h => ⟨_, execPing_of h, rfl⟩,
    fun h hg he => ⟨_, execEnumerate_of h hg he, State.startEnumeration_running ..⟩,
    fun h hr ht hf => ⟨_, execStreamOpen_of h hr ht hf, rfl⟩, fun x h hh hx hc => ⟨_, execStreamClose_of h hh hx hc, rfl⟩,
    fun r h hport hok hr hlen => ⟨_, execRecordRead_of h hport hok hr hlen, rfl⟩, ?_⟩
  rintro lost _ h hport hok hsome rfl
  refine ⟨fun r hnone hr => Runs.of (execStoreRead_of h hport hok hsome) ?_, fun hheld => Runs.of (execStoreRead_of h hport hok hsome) ?_⟩
  · subst hr
    exact if_pos (List.isEmpty_iff.2 hnone)
  · rw [if_neg (show ¬((s.served t c).holdersOf c).isEmpty = true from fun hempty => hheld (List.isEmpty_iff.1 hempty))]
    exact State.askHolders_reads ..

end Sys2Proof.Machine
end

section
/-! DOZE, wake sources and listening ports (R279, R404, R414, R416). -/

namespace Sys2Proof.Machine

/-! ### Waking (R416) -/

/-- What tells how a part wakes: its last wake source, the mark of SHIP and the direction of its power sequence. -/
def State.waking (s : State) : Nat × Bool × Nat := (s.power.lastWake, s.power.shipMark, s.power.seqDir)

theorem State.ageStates_waking (s : State) : s.ageStates.waking = s.waking := by
  unfold State.ageStates
  extract_lets days add cell
  split
  · rfl
  · refine congrArg (fun x : Steady => (x.power.lastWake, x.power.shipMark, x.power.seqDir)) (State.modDies_steady _ ?_)
    exact fun _ _ => rfl

theorem State.enableNext_waking (s : State) : s.enableNext.waking = s.waking := by
  unfold State.enableNext
  split <;> rfl

theorem State.startUp_waking (s : State) : s.startUp.waking = (s.power.lastWake, s.power.shipMark, 1) :=
  State.enableNext_waking _

/-- The part as a wake source `code` finds it, with the states of its cells aged (R177, R416). -/
def State.wokenBy (s : State) (code : Nat) : State :=
  (s.modPower fun p => { p with lastWake := code, shipMark := false, startBy := if code = 0xB && p.startBy == 3 then 1 else p.startBy }).ageStates

theorem State.wokenBy_waking (s : State) (code : Nat) : (s.wokenBy code).waking = (code, false, s.power.seqDir) :=
  State.ageStates_waking _

/-- A part that a source may wake is not in RUN or DOZE. -/
theorem State.wake_of {s : State} {code : Nat} (h : s.mayWake code = true) (hheld : s.trust.sleepHeld = false) :
    s.wake code = if (s.wokenBy code).power.seqDir = 2 then (s.wokenBy code).modPower fun p => { p with wakePend := true }
      else (s.wokenBy code).startUp := by
  unfold State.wake
  rw [if_neg (by simp [hheld]), if_neg (by simp [h])]
  rfl

theorem State.wake_starts {s : State} {code : Nat} (h : s.mayWake code = true) (hheld : s.trust.sleepHeld = false) :
    (s.wake code).power.lastWake = code ∧ (s.wake code).power.shipMark = false ∧
      (if s.power.seqDir = 2 then (s.wake code).power.wakePend = true ∧ (s.wake code).power.seqDir = 2 else (s.wake code).power.seqDir = 1) := by
  obtain ⟨hlast, hrest⟩ := Prod.mk.inj (State.wokenBy_waking s code)
  obtain ⟨hship, hdir⟩ := Prod.mk.inj hrest
  rw [State.wake_of h hheld, hdir]
  by_cases hdown : s.power.seqDir = 2
  · rw [if_pos hdown, if_pos hdown]
    exact ⟨hlast, hship, rfl, hdir.trans hdown⟩
  · rw [if_neg hdown, if_neg hdown]
    obtain ⟨hlast', hrest'⟩ := Prod.mk.inj (State.startUp_waking (s.wokenBy code))
    obtain ⟨hship', hup⟩ := Prod.mk.inj hrest'
    exact ⟨hlast'.trans hlast, hship'.trans hship, hup⟩

theorem execWakeSource_of {t code : Nat} {s : State} (htimer : code = 0xA → (s.at_ t).sleepTimerDone = true) :
    exec (.wakeSource t code) s = .next ((s.at_ t).wake code) := by
  refine congrArg Host.Outcome.next (if_neg ?_)
  rw [Bool.and_eq_true, decide_eq_true_eq, Bool.not_eq_true']
  exact fun ⟨hcode, hearly⟩ => absurd (htimer hcode) (by rw [hearly]; exact Bool.false_ne_true)

/-! ### DOZE (R404, R414) -/

/-- DOZE ends with the power block set to RUN, which the start of the fast paths leaves alone (R404, R414). -/
theorem State.undoze_run {s : State} (h : s.power.st = 1) : s.undoze.power.st = 0 := by
  unfold State.undoze
  extract_lets u v
  rw [if_pos (show u.power.st = 1 from h)]
  exact congrArg (fun x : Steady => x.power.st) (foldl_steady (fun u k => State.fastDomain_steady u k) _ _)

section
variable {t : Nat} {s : State}

theorem execDozeEnter_may (hrun : s.inRun = true) (hserve : s.part.serving = true) (hwarn : s.power.warnItem = none) (htgt : s.dozeTarget = true) :
    exec (.dozeEnter t) s = .next (if (s.at_ t).dozeMay = false then (s.at_ t).modPower fun p => { p with idleSince := t }
      else if t < s.power.idleSince + s.pwF 0 31 24 * 1000000 then s.at_ t else (s.at_ t).doze) := by
  have hguard : ¬(!(s.at_ t).inRun || !(s.at_ t).part.serving || (s.at_ t).power.warnItem.isSome || !(s.at_ t).dozeTarget) = true := by
    have hsame : (s.at_ t).dozeTarget = s.dozeTarget := rfl
    simp [hrun, hserve, hwarn, htgt, hsame]
  refine congrArg Host.Outcome.next ((if_neg hguard).trans ?_)
  exact ite_congr (by rw [Bool.not_eq_true']) (fun _ => rfl) fun _ => rfl

theorem execDozeExit_of (hst : s.power.st = 1) (hserve : s.part.serving = true) (hend : (s.at_ t).dozeMay = false ∨ s.dozeTarget = false) :
    exec (.dozeExit t) s = .next (s.at_ t).undoze := by
  have hsame : (s.at_ t).dozeTarget = s.dozeTarget := rfl
  refine congrArg Host.Outcome.next (if_pos ?_)
  simpa [hst, hserve, hsame] using hend

/-! ### SLEEP: the timer, the windows and what is heard in them (R279, R416) -/

theorem execSleepTimerExpire_of (hst : s.power.st = 2) (ht : s.power.sleepAt + s.pwF 0xC 31 16 * 1000000000 ≤ t) :
    exec (.sleepTimerExpire t) s = .next ((s.at_ t).wake 0xA) := by
  have hle : t ≤ s.clock t := by
    unfold State.clock
    split
    · exact Nat.le_max_left ..
    · exact Nat.le_refl t
  have hdone : (s.at_ t).sleepTimerDone = true := decide_eq_true (Nat.le_trans ht hle)
  refine congrArg Host.Outcome.next (if_pos ?_)
  simp [hst, hdone]

theorem execSleepListenWindow_of {side : Side} (hst : s.power.st = 2) (hl : (s.port side).listens = true)
    (ht : (s.port side).listenAt + 100000000 ≤ t) :
    exec (.sleepListenWindow t side) s = .next ((s.at_ t).modPort side fun p => { p with listenAt := t }) := by
  refine congrArg Host.Outcome.next (if_neg ?_)
  simp [hst, hl, Nat.not_lt.2 ht]

theorem execWakeRunReceive_of {side : Side} {durationNs : Nat} (hst : s.power.st = 2) (hl : (s.port side).listens = true)
    (hd : 101000000 ≤ durationNs) (hwake : s.mayWake 2 = true) :
    exec (.wakeRunReceive t side durationNs) s = .next (((s.at_ t).wake 2).emit (.wakeRun side.other)) := by
  have hsame : (s.at_ t).mayWake 2 = s.mayWake 2 := rfl
  refine congrArg Host.Outcome.next (if_neg ?_)
  simp [hst, hl, hd, hwake, hsame]

theorem execLongBeaconDetect_of {side : Side} {bits : List Bool} (hb : isLongBeacon bits = true) (hwake : s.mayWake 3 = true) :
    exec (.longBeaconDetect t side bits) s = .next (if s.power.st = 3 then
      { ((s.at_ t).wake 3) with link := { ((s.at_ t).wake 3).link with relay := some side.other } } else (s.at_ t).wake 3) := by
  have hguard : ¬(!isLongBeacon bits || !(s.at_ t).mayWake 3) = true := by
    have hsame : (s.at_ t).mayWake 3 = s.mayWake 3 := rfl
    simp [hb, hwake, hsame]
  refine congrArg Host.Outcome.next ((if_neg hguard).trans ?_)
  exact ite_congr beq_iff_eq.eq (fun _ => rfl) fun _ => rfl

end

/-- Settles O47: one lemma for each command; ageing, the rails and the fast paths leave what the power block tells of a wake and of
DOZE. -/
theorem lowPowerCommandsComplete : Obligations.LowPowerCommandsComplete := by
  refine ⟨fun t s hrun hserve hwarn htgt => ⟨fun hmay => ?_, fun hmay hidle => ?_⟩,
    fun t s hst hserve hend => ⟨_, execDozeExit_of hst hserve hend, State.undoze_run hst⟩,
    fun t code s hheld hwake htimer => ⟨_, execWakeSource_of htimer, State.wake_starts (s := s.at_ t) hwake hheld⟩,
    fun t s hst ht => ⟨_, execSleepTimerExpire_of hst ht, rfl⟩,
    fun t side s hst hl ht => ⟨_, execSleepListenWindow_of hst hl ht, State.modPort_same ..⟩,
    fun t side durationNs s hst hl hd hwake => ⟨_, execWakeRunReceive_of hst hl hd hwake, rfl⟩,
    fun t side bits s hb hwake => ⟨_, execLongBeaconDetect_of hb hwake, rfl⟩⟩
  · refine Runs.of (execDozeEnter_may hrun hserve hwarn htgt) ?_
    rw [if_pos hmay]
  · refine Runs.of (execDozeEnter_may hrun hserve hwarn htgt) ?_
    rw [if_neg (by simp [hmay]), if_neg (Nat.not_lt.2 hidle), State.doze_power]

end Sys2Proof.Machine
end

section
/-! What a command does to the safety block: the named ones keep a latched lock-out off, every other leaves the block alone (R365, R368,
R375, R376, R384, R385). -/

namespace Sys2Proof.Machine

/-- The commands that may act on the safety block. -/
def actsOnSafety : Instr → Bool
  | .comparatorTick .. | .aoncPowerDown .. | .faultNoticeReceive .. | .tdacReadback .. | .owRecheck .. | .innerLinkRestored ..
  | .dieLost .. | .safetyTick .. | .safetyInputSample .. | .testPulseStart .. | .discrepancyLatch .. | .safetyFrameReceive ..
  | .safetyMboxService .. | .hostWatchdogExpire .. | .watchdogExpire .. | .outputOvercurrent .. | .outputOpenLoad ..
  | .outputEconomyStart .. | .feedbackTimeout .. | .lorstReleaseEdge .. | .commandFrameReceive .. | .lorstHeld ..
  | .gatewayHeartbeatReceive .. | .gwOkTimeout .. | .enumStartReceive .. | .discoverReceive .. | .heartbeatSend ..
  | .powerStateSleep .. | .powerStateShip .. | .lockoutRelease .. | .commitCheck .. | .commitCancel .. | .configSwap ..
  | .groupCommitDecide .. | .groupAbortReceive .. | .groupGoDeadline .. | .enumerate .. | .inputValid .. | .inputInvalid ..
  | .railInRegulation .. | .powerFailWarning .. | .holdTimeExpire .. | .rstNAssert .. | .precPowerUp .. | .hubBistRetry ..
  | .completionWrite .. | .sliceEnd .. | .selftestRunAll .. | .selftestRunBlock .. | .hubOverheat .. | .hubCooled .. | .lifeSeal ..
  | .lifeRelocate .. | .lifeReturn .. | .debugFullOpen .. | .debugClose .. | .railFault .. | .railRampTimeout .. | .railDischarged ..
  | .aonSupplyLoss .. => true
  | _ => false

/-- What a command may do to the safety block: one that acts on it keeps a latched lock-out off, every other leaves it alone. -/
def SafetyEffect (acts : Bool) (s s' : State) : Prop :=
  match acts with
  | true => s.lockedOff → s'.lockedOff
  | false => s'.safety = s.safety

/-- Either way a latched lock-out stays off. -/
theorem SafetyEffect.lockedOff {acts : Bool} {s s' : State} (h : SafetyEffect acts s s') (hs : s.lockedOff) : s'.lockedOff := by
  cases acts with
  | true => exact h hs
  | false => exact lockedOff_of h hs

/-- The laws of the 240 commands on the safety block as one table. -/
theorem exec_safetyEffect {c : Instr} {s s' : State} (h : exec c s = .next s') : SafetyEffect (actsOnSafety c) s s' := by
  cases c with
  | innerLinkBroken => exact execInnerLinkBroken_safeEq h
  | innerLinkRestored => exact fun hs => execInnerLinkRestored_lockedOff hs h
  | dieLost => exact fun hs => execDieLost_lockedOff hs h
  | rolePadChange => exact execRolePadChange_safeEq h
  | precisionSample => exact execPrecisionSample_safeEq h
  | spareDwellStep => exact execSpareDwellStep_safeEq h
  | warmExpire => exact execWarmExpire_safeEq h
  | refMonitorSample => exact execRefMonitorSample_safeEq h
  | refIntervalClose => exact execRefIntervalClose_safeEq h
  | gateWindowOpen => exact execGateWindowOpen_safeEq h
  | gateWindowClose => exact execGateWindowClose_safeEq h
  | fastFrameHold => exact execFastFrameHold_safeEq h
  | captureTimerTrigger => exact execCaptureTimerTrigger_safeEq h
  | syncInEdge => exact execSyncInEdge_safeEq h
  | carrierBeaconReceive => exact execCarrierBeaconReceive_safeEq h
  | captureEdgeTimeout => exact execCaptureEdgeTimeout_safeEq h
  | captureBlockDrain => exact execCaptureBlockDrain_safeEq h
  | seqWord => exact execSeqWord_safeEq h
  | seqEntryEnd => exact execSeqEntryEnd_safeEq h
  | m30CalInsert => exact execM30CalInsert_safeEq h
  | urgentWorkPreempt => exact execUrgentWorkPreempt_safeEq h
  | urgentWorkEnd => exact execUrgentWorkEnd_safeEq h
  | calRunClose => exact execCalRunClose_safeEq h
  | calSolveComplete => exact execCalSolveComplete_safeEq h
  | calExpiry => exact execCalExpiry_safeEq h
  | currentBlockSend => exact execCurrentBlockSend_safeEq h
  | currentBlockReceive => exact execCurrentBlockReceive_safeEq h
  | currentBlockMissing => exact execCurrentBlockMissing_safeEq h
  | impSegmentEnd => exact execImpSegmentEnd_safeEq h
  | impAverageEnd => exact execImpAverageEnd_safeEq h
  | injectionChip => exact execInjectionChip_safeEq h
  | chargeBlockSend => exact execChargeBlockSend_safeEq h
  | chargeBlockReceive => exact execChargeBlockReceive_safeEq h
  | chargeBlockMissing => exact execChargeBlockMissing_safeEq h
  | stateSecond => exact execStateSecond_safeEq h
  | statePersist => exact execStatePersist_safeEq h
  | comparatorTick => exact fun hs => execComparatorTick_lockedOff hs h
  | aoncPowerUp => exact execAoncPowerUp_safeEq h
  | aoncPowerDown => exact fun hs => execAoncPowerDown_lockedOff hs h
  | faultNoticeReceive => exact fun hs => execFaultNoticeReceive_lockedOff hs h
  | tdacReadback => exact fun hs => execTdacReadback_lockedOff hs h
  | balStep => exact execBalStep_safeEq h
  | balNeedCheck => exact execBalNeedCheck_safeEq h
  | balOvercurrent => exact execBalOvercurrent_safeEq h
  | balKeepalive => exact execBalKeepalive_safeEq h
  | balTimeoutExpire => exact execBalTimeoutExpire_safeEq h
  | owSweep => exact execOwSweep_safeEq h
  | owCheckComplete => exact execOwCheckComplete_safeEq h
  | owRecheck => exact fun hs => execOwRecheck_lockedOff hs h
  | shuntInputBreak => exact execShuntInputBreak_safeEq h
  | searchAll => exact execSearchAll_safeEq h
  | searchNewPeriodic => exact execSearchNewPeriodic_safeEq h
  | swpSearchComplete => exact execSwpSearchComplete_safeEq h
  | swpStreamCycle => exact execSwpStreamCycle_safeEq h
  | swpSlotRead => exact execSwpSlotRead_safeEq h
  | swpCycleEnd => exact execSwpCycleEnd_safeEq h
  | swpLineShort => exact execSwpLineShort_safeEq h
  | swpShortRetry => exact execSwpShortRetry_safeEq h
  | codewordBoundary => exact execCodewordBoundary_safeEq h
  | codewordReceive => exact execCodewordReceive_safeEq h
  | controlCodewordReceive => exact execControlCodewordReceive_safeEq h
  | tc0AckTimeout => exact execTc0AckTimeout_safeEq h
  | frameRetryTimeout => exact execFrameRetryTimeout_safeEq h
  | hopSilenceTimeout => exact execHopSilenceTimeout_safeEq h
  | hopMarginTimeout => exact execHopMarginTimeout_safeEq h
  | hopTrainingRetry => exact execHopTrainingRetry_safeEq h
  | hopTrainingComplete => exact execHopTrainingComplete_safeEq h
  | hopRouteRestore => exact execHopRouteRestore_safeEq h
  | apcAdjust => exact execApcAdjust_safeEq h
  | hopKeyingMessage => exact execHopKeyingMessage_safeEq h
  | hopRekey => exact execHopRekey_safeEq h
  | frameForward => exact execFrameForward_safeEq h
  | mseqGapRelease => exact execMseqGapRelease_safeEq h
  | linkStateNoticeReceive => exact execLinkStateNoticeReceive_safeEq h
  | commandFrameReceive => exact fun hs => execCommandFrameReceive_lockedOff hs h
  | completionFrameReceive => exact execCompletionFrameReceive_safeEq h
  | eventFrameReceive => exact execEventFrameReceive_safeEq h
  | recordFrameReceive => exact execRecordFrameReceive_safeEq h
  | firmwareFrameReceive => exact execFirmwareFrameReceive_safeEq h
  | enumStartReceive => exact fun hs => execEnumStartReceive_lockedOff hs h
  | discoverSend => exact execDiscoverSend_safeEq h
  | discoverReceive => exact fun hs => execDiscoverReceive_lockedOff hs h
  | enumWaitExpire => exact execEnumWaitExpire_safeEq h
  | timeBeaconSend => exact execTimeBeaconSend_safeEq h
  | timeBeaconReceive => exact execTimeBeaconReceive_safeEq h
  | tqHoldover => exact execTqHoldover_safeEq h
  | packTimeCommit => exact execPackTimeCommit_safeEq h
  | heartbeatSend => exact fun hs => execHeartbeatSend_lockedOff hs h
  | sleepListenWindow => exact execSleepListenWindow_safeEq h
  | wakeRunReceive => exact execWakeRunReceive_safeEq h
  | longBeaconDetect => exact execLongBeaconDetect_safeEq h
  | innerTimeWord => exact execInnerTimeWord_safeEq h
  | innerTimeWordTimeout => exact execInnerTimeWordTimeout_safeEq h
  | recordArrive => exact execRecordArrive_safeEq h
  | unitProgramComplete => exact execUnitProgramComplete_safeEq h
  | d2UnitClose => exact execD2UnitClose_safeEq h
  | bucketAccrue => exact execBucketAccrue_safeEq h
  | storageTempSample => exact execStorageTempSample_safeEq h
  | blockRefresh => exact execBlockRefresh_safeEq h
  | storageDieFail => exact execStorageDieFail_safeEq h
  | spillHolderRechoose => exact execSpillHolderRechoose_safeEq h
  | recordRetentionExpire => exact execRecordRetentionExpire_safeEq h
  | locusEvaluate => exact execLocusEvaluate_safeEq h
  | taskMove => exact execTaskMove_safeEq h
  | dieRecordResend => exact execDieRecordResend_safeEq h
  | hifReset => exact execHifReset_safeEq h
  | hifEnable => exact execHifEnable_safeEq h
  | hifShutdown => exact execHifShutdown_safeEq h
  | queueEnable => exact execQueueEnable_safeEq h
  | queueDisable => exact execQueueDisable_safeEq h
  | registerWrite => exact execRegisterWrite_safeEq h
  | kick _ value => exact execKick_safeEq (_value := value) h
  | doorbellPoll => exact execDoorbellPoll_safeEq h
  | doorbellReadComplete => exact execDoorbellReadComplete_safeEq h
  | descriptorFetch => exact execDescriptorFetch_safeEq h
  | commandTimeout => exact execCommandTimeout_safeEq h
  | completionWrite => exact fun hs => execCompletionWrite_lockedOff hs h
  | streamEntryWrite => exact execStreamEntryWrite_safeEq h
  | eventEntryWrite => exact execEventEntryWrite_safeEq h
  | interruptCoalesceExpire => exact execInterruptCoalesceExpire_safeEq h
  | msixUnmask => exact execMsixUnmask_safeEq h
  | eventDelayReport => exact execEventDelayReport_safeEq h
  | identify => exact execIdentify_safeEq h
  | enumerate => exact fun hs => execEnumerate_lockedOff hs h
  | configRead => exact execConfigRead_safeEq h
  | shadowWrite => exact execShadowWrite_safeEq h
  | commit => exact execCommit_safeEq h
  | commitCheck => exact fun hs => execCommitCheck_lockedOff hs h
  | commitRevert => exact execCommitRevert_safeEq h
  | commitCancel => exact fun hs => execCommitCancel_lockedOff hs h
  | configSwap => exact fun hs => execConfigSwap_lockedOff hs h
  | shadowCopyComplete => exact execShadowCopyComplete_safeEq h
  | groupCommitDecide => exact fun hs => execGroupCommitDecide_lockedOff hs h
  | groupGoReceive => exact execGroupGoReceive_safeEq h
  | groupAbortReceive => exact fun hs => execGroupAbortReceive_lockedOff hs h
  | groupGoDeadline => exact fun hs => execGroupGoDeadline_lockedOff hs h
  | streamOpen => exact execStreamOpen_safeEq h
  | streamClose => exact execStreamClose_safeEq h
  | recordRead => exact execRecordRead_safeEq h
  | captureArm => exact execCaptureArm_safeEq h
  | captureDisarm => exact execCaptureDisarm_safeEq h
  | captureFetch => exact execCaptureFetch_safeEq h
  | storeRead => exact execStoreRead_safeEq h
  | balancePolicy => exact execBalancePolicy_safeEq h
  | powerStateRun => exact execPowerStateRun_safeEq h
  | powerStateDoze => exact execPowerStateDoze_safeEq h
  | powerStateSleep => exact fun hs => execPowerStateSleep_lockedOff hs h
  | powerStateShip => exact fun hs => execPowerStateShip_lockedOff hs h
  | selftestRunAll => exact fun hs => execSelftestRunAll_lockedOff hs h
  | selftestRunBlock => exact fun hs => execSelftestRunBlock_lockedOff hs h
  | calEarlyEnd => exact execCalEarlyEnd_safeEq h
  | calReset => exact execCalReset_safeEq h
  | checkCompute => exact execCheckCompute_safeEq h
  | meterStatement => exact execMeterStatement_safeEq h
  | trustChallenge => exact execTrustChallenge_safeEq h
  | firmwareStage => exact execFirmwareStage_safeEq h
  | firmwareVerify => exact execFirmwareVerify_safeEq h
  | firmwareActivate => exact execFirmwareActivate_safeEq h
  | firmwareReturnPrevious => exact execFirmwareReturnPrevious_safeEq h
  | spanReady => exact execSpanReady_safeEq h
  | spanReadyTimeout => exact execSpanReadyTimeout_safeEq h
  | spanStop => exact execSpanStop_safeEq h
  | svnCommit => exact execSvnCommit_safeEq h
  | sensorSearch => exact execSensorSearch_safeEq h
  | blackboxRead => exact execBlackboxRead_safeEq h
  | lockoutRelease => exact fun hs => execLockoutRelease_lockedOff hs h
  | lifeGenkey => exact execLifeGenkey_safeEq h
  | lifeSeal => exact fun hs => execLifeSeal_lockedOff hs h
  | lifeUpdate => exact execLifeUpdate_safeEq h
  | lifeRelocate => exact fun hs => execLifeRelocate_lockedOff hs h
  | lifeReturn => exact fun hs => execLifeReturn_lockedOff hs h
  | ping => exact execPing_safeEq h
  | safetyTick => exact fun hs => execSafetyTick_lockedOff hs h
  | safetyInputSample => exact fun hs => execSafetyInputSample_lockedOff hs h
  | testPulseStart => exact fun hs => execTestPulseStart_lockedOff hs h
  | discrepancyLatch => exact fun hs => execDiscrepancyLatch_lockedOff hs h
  | safetyFrameReceive => exact fun hs => execSafetyFrameReceive_lockedOff hs h
  | safetyMboxService => exact fun hs => execSafetyMboxService_lockedOff hs h
  | hostWatchdogExpire => exact fun hs => execHostWatchdogExpire_lockedOff hs h
  | watchdogExpire => exact fun hs => execWatchdogExpire_lockedOff hs h
  | outputOvercurrent => exact fun hs => execOutputOvercurrent_lockedOff hs h
  | outputOpenLoad => exact fun hs => execOutputOpenLoad_lockedOff hs h
  | outputEconomyStart => exact fun hs => execOutputEconomyStart_lockedOff hs h
  | feedbackTimeout => exact fun hs => execFeedbackTimeout_lockedOff hs h
  | lorstReleaseEdge => exact fun hs => execLorstReleaseEdge_lockedOff hs h
  | lorstHeld => exact fun hs => execLorstHeld_lockedOff hs h
  | inputValid => exact fun hs => execInputValid_lockedOff hs h
  | inputInvalid => exact fun hs => execInputInvalid_lockedOff hs h
  | railFault => exact fun hs => execRailFault_lockedOff hs h
  | railRetry => exact execRailRetry_safeEq h
  | railCounterCopy => exact execRailCounterCopy_safeEq h
  | holdCharged => exact execHoldCharged_safeEq h
  | holdLow => exact execHoldLow_safeEq h
  | holdChargeTimeout => exact execHoldChargeTimeout_safeEq h
  | powerUpSequence => exact execPowerUpSequence_safeEq h
  | railInRegulation => exact fun hs => execRailInRegulation_lockedOff hs h
  | railRampTimeout => exact fun hs => execRailRampTimeout_lockedOff hs h
  | powerUpRetry => exact execPowerUpRetry_safeEq h
  | railDischarged => exact fun hs => execRailDischarged_lockedOff hs h
  | powerFailWarning => exact fun hs => execPowerFailWarning_lockedOff hs h
  | holdTimeExpire => exact fun hs => execHoldTimeExpire_lockedOff hs h
  | shutdownRestart => exact execShutdownRestart_safeEq h
  | dozeEnter => exact execDozeEnter_safeEq h
  | dozeExit => exact execDozeExit_safeEq h
  | wakeSource => exact execWakeSource_safeEq h
  | sleepTimerExpire => exact execSleepTimerExpire_safeEq h
  | aonSupplyLoss => exact fun hs => execAonSupplyLoss_lockedOff hs h
  | rstNAssert => exact fun hs => execRstNAssert_lockedOff hs h
  | rstNRelease => exact execRstNRelease_safeEq h
  | rstNStuck => exact execRstNStuck_safeEq h
  | rstIgnoredClear => exact execRstIgnoredClear_safeEq h
  | dieIsolationTimeout => exact execDieIsolationTimeout_safeEq h
  | precPowerUp => exact fun hs => execPrecPowerUp_lockedOff hs h
  | firewallViolation => exact execFirewallViolation_safeEq h
  | meterCommit => exact execMeterCommit_safeEq h
  | meterSnapshot => exact execMeterSnapshot_safeEq h
  | historyPeriod => exact execHistoryPeriod_safeEq h
  | blackboxRecordWrite => exact execBlackboxRecordWrite_safeEq h
  | debugObserveOpen => exact execDebugObserveOpen_safeEq h
  | debugFullOpen => exact fun hs => execDebugFullOpen_lockedOff hs h
  | debugClose => exact fun hs => execDebugClose_lockedOff hs h
  | sliceStart => exact execSliceStart_safeEq h
  | sliceEnd => exact fun hs => execSliceEnd_lockedOff hs h
  | selftestOverdue => exact execSelftestOverdue_safeEq h
  | hubBistRetry => exact fun hs => execHubBistRetry_lockedOff hs h
  | chkOpen => exact execChkOpen_safeEq h
  | chkDataWrite => exact execChkDataWrite_safeEq h
  | chkClose => exact execChkClose_safeEq h
  | thermalSample => exact execThermalSample_safeEq h
  | thermalStepDown => exact execThermalStepDown_safeEq h
  | dieOverheat => exact execDieOverheat_safeEq h
  | dieCooled => exact execDieCooled_safeEq h
  | hubOverheat => exact fun hs => execHubOverheat_lockedOff hs h
  | hubCooled => exact fun hs => execHubCooled_lockedOff hs h
  | faultNoticeFrameReceive => exact execFaultNoticeFrameReceive_safeEq h
  | gatewayHeartbeatReceive => exact fun hs => execGatewayHeartbeatReceive_lockedOff hs h
  | gwOkTimeout => exact fun hs => execGwOkTimeout_lockedOff hs h
  | enumFrameReceive => exact execEnumFrameReceive_safeEq h
  | balanceRecordInterval => exact execBalanceRecordInterval_safeEq h
  | hostReadTimeout => exact execHostReadTimeout_safeEq h

/-- Settles O49: the queue is no part of the invariant, and every command keeps it. -/
theorem latchedLockoutKeepsOutputsOff : Obligations.LatchedLockoutKeepsOutputsOff := by
  intro s s' hs h
  cases hq : s.pending with
  | nil =>
    obtain rfl : s = s' := Host.Outcome.next.inj ((step_nil hq).symm.trans h)
    exact hs
  | cons c rest =>
    rw [step_cons hq] at h
    exact (exec_safetyEffect h).lockedOff hs

/-- Settles O50: each command that is not named has its law that it leaves the safety block alone. -/
theorem onlyNamedCommandsChangeTheSafetyBlock : Obligations.OnlyNamedCommandsChangeTheSafetyBlock := by
  intro s c rest hq
  obtain ⟨s', h⟩ := exec_answers_next c (s.withPending rest)
  have ha := exec_safetyEffect h
  refine ⟨s', (step_cons hq).trans h, ?_⟩
  cases c with
  | comparatorTick | aoncPowerDown | faultNoticeReceive | tdacReadback | owRecheck | innerLinkRestored | dieLost | safetyTick
  | safetyInputSample | testPulseStart | discrepancyLatch | safetyFrameReceive | safetyMboxService | hostWatchdogExpire
  | watchdogExpire | outputOvercurrent | outputOpenLoad | outputEconomyStart | feedbackTimeout | lorstReleaseEdge | commandFrameReceive
  | lorstHeld | gatewayHeartbeatReceive | gwOkTimeout | enumStartReceive | discoverReceive | heartbeatSend | powerStateSleep
  | powerStateShip | lockoutRelease | commitCheck | commitCancel | configSwap | groupCommitDecide | groupAbortReceive | groupGoDeadline
  | enumerate | inputValid | inputInvalid | railInRegulation | powerFailWarning | holdTimeExpire | rstNAssert | precPowerUp
  | hubBistRetry | completionWrite | sliceEnd | selftestRunAll | selftestRunBlock | hubOverheat | hubCooled | lifeSeal | lifeRelocate
  | lifeReturn | debugFullOpen | debugClose | railFault | railRampTimeout | railDischarged | aonSupplyLoss => trivial
  | _ => exact ha

end Sys2Proof.Machine
end

section
/-! What the classes of commands keep of the guarded part: the settled lifecycle, the security version fuses and RETURNED (R429, R431,
R433, R434, R450). -/

namespace Sys2Proof.Machine

/-- Before RETURNED the fuse of a settled part is whole. -/
theorem Fixed.settled.fuseReturned_false {x : Fixed} (hs : x.settled) (hl : x.life ≠ 3) : x.fuseReturned = false := by
  obtain ⟨_, hret⟩ := hs
  cases hf : x.fuseReturned with
  | false => rfl
  | true => exact absurd (hret (.inr hf)).1 hl

/-- A part that is not RETURNED, with no transition in progress, is settled. -/
theorem Fixed.settled_of_unreturned {x : Fixed} (hj : x.journal = 0) (hl : x.life ≠ 3) (hf : x.fuseReturned = false) : x.settled :=
  ⟨hj, fun h => absurd h (by simp [hl, hf])⟩

/-- An action of R431 ends with the lifecycle settled. -/
theorem Fixed.lifeStep.settled {x y : Fixed} (h : x.lifeStep y) (hs : x.settled) : y.settled := by
  obtain rfl | ⟨hl, hstep⟩ := h
  · exact hs
  · have hf := hs.fuseReturned_false hl
    obtain ⟨hj, _⟩ := hs
    obtain ⟨_, rfl⟩ | ⟨_, _, _, rfl⟩ | ⟨_, rfl⟩ | rfl | ⟨_, rfl⟩ := hstep
    · exact Fixed.settled_of_unreturned hj hl hf
    · exact Fixed.settled_of_unreturned hj (by decide : 1 ≠ 3) hf
    · exact Fixed.settled_of_unreturned hj hl hf
    · exact Fixed.settled_of_unreturned rfl (by decide : 2 ≠ 3) hf
    · exact ⟨rfl, fun _ => ⟨rfl, rfl, rfl, rfl, rfl⟩⟩

/-- No class of commands leaves the lifecycle unsettled. -/
theorem GuardClass.allows_settled {c : GuardClass} {x y : Fixed} (h : c.allows x y) (hs : x.settled) : y.settled := by
  cases c with
  | kept => exact h ▸ hs
  | hubStart => exact h.2 hs ▸ hs
  | lifecycle => exact Fixed.lifeStep.settled h hs
  | fuses =>
    obtain ⟨_, _, _, _, rfl⟩ := h
    exact hs
  | activeSet =>
    obtain ⟨_, _, rfl⟩ := h
    exact hs

/-- No action of R431 follows RETURNED, and no other class touches a settled lifecycle. -/
theorem GuardClass.allows_returned {c : GuardClass} {x y : Fixed} (h : c.allows x y) (hs : x.settled) (hl : x.life = 3) : y.life = 3 := by
  cases c with
  | kept => exact h ▸ hl
  | hubStart => exact h.2 hs ▸ hl
  | lifecycle =>
    obtain rfl | ⟨hne, _⟩ := h
    · exact hl
    · exact absurd hl hne
  | fuses =>
    obtain ⟨_, _, _, _, rfl⟩ := h
    exact hl
  | activeSet =>
    obtain ⟨_, _, rfl⟩ := h
    exact hl

/-- The fuse counts of the security version, which a resumed transition does not touch. -/
def Fixed.fuseCounts (x : Fixed) : Nat × Nat := (x.svnSpan, x.svnApex)

theorem Fixed.lifeStep.fuseCounts {x y : Fixed} (h : x.lifeStep y) : y.fuseCounts = x.fuseCounts := by
  obtain rfl | ⟨_, ⟨_, rfl⟩ | ⟨_, _, _, rfl⟩ | ⟨_, rfl⟩ | rfl | ⟨_, rfl⟩⟩ := h <;> rfl

/-- Only the class of the fuses moves the fuse counts, and that upwards. -/
theorem GuardClass.allows_fuseCounts {c : GuardClass} {x y : Fixed} (h : c.allows x y) : x.fuseCounts ≤ y.fuseCounts := by
  cases c with
  | kept => exact le_of_eq (congrArg Fixed.fuseCounts h.symm)
  | hubStart =>
    have hcore : y.core.fuseCounts = x.core.fuseCounts := congrArg Fixed.fuseCounts h.1
    exact le_of_eq hcore.symm
  | lifecycle => exact le_of_eq (Fixed.lifeStep.fuseCounts h).symm
  | fuses =>
    obtain ⟨_, _, ha, hb, rfl⟩ := h
    exact ⟨ha, hb⟩
  | activeSet =>
    obtain ⟨_, _, rfl⟩ := h
    exact le_refl x.fuseCounts

/-- A step changes the guarded part, the queue apart, as some class of commands may. -/
theorem step_allows {s s' : State} (h : step s = .next s') : ∃ (q : List Instr) (c : GuardClass), c.allows (s.withPending q).fixed s'.fixed := by
  cases hq : s.pending with
  | nil =>
    obtain rfl : s = s' := Host.Outcome.next.inj ((step_nil hq).symm.trans h)
    exact ⟨s.pending, .kept, rfl⟩
  | cons c rest =>
    rw [step_cons hq] at h
    exact ⟨rest, guardClass c, exec_guardClass_allows h⟩

/-- Settles O3: every class of commands keeps the lifecycle settled. -/
theorem settledLifecycleIsKept : Obligations.SettledLifecycleIsKept := by
  intro s s' hs h
  obtain ⟨q, _, ha⟩ := step_allows h
  exact GuardClass.allows_settled ha (State.withPending_settled q hs)

/-- Settles O6: no class of commands lowers a fuse count. -/
theorem securityVersionFusesOnlyRise : Obligations.SecurityVersionFusesOnlyRise := by
  intro s s' h
  obtain ⟨_, _, ha⟩ := step_allows h
  exact GuardClass.allows_fuseCounts ha

/-- Settles O7: RETURNED stays, and a settled part that is RETURNED is bare. -/
theorem returnedIsFinal : Obligations.ReturnedIsFinal := by
  intro s s' hs hl h
  obtain ⟨q, _, ha⟩ := step_allows h
  have hq := State.withPending_settled q hs
  have hl' : s'.fixed.life = 3 := GuardClass.allows_returned ha hq hl
  exact ⟨hl', (GuardClass.allows_settled ha hq).2 (.inl hl')⟩

/-- Settles O4: a part fresh from reset is BLANK, holds no key, lists no register and has its outputs off. -/
theorem resetIsSettled : Obligations.ResetIsSettled := by
  refine ⟨Fixed.settled_of_unreturned rfl ?_ rfl, rfl, rfl, rfl, fun hl => ?_⟩
  · decide
  · cases hl

end Sys2Proof.Machine
end

section
/-! The check of the Locus and the power registers at a commit (R317, R422): fields out of their range and bits that are write 0,
read 0. -/

namespace Sys2Proof.Machine

/-! ### Reserved bits of a register -/

/-- The bits of a register that are not write 0, read 0, put together from its bytes (R9). -/
def regMask (block target off : Nat) : Nat := ofLe ((List.range 4).map fun i => cfgMask (cfgAddr block target off + i))

/-- A byte put below the bytes that follow it, bit by bit. -/
theorem and_byte_below (a b : Byte) (x y : Nat) :
    (a.toNat + 256 * x) &&& (b.toNat + 256 * y) = (a &&& b).toNat + 256 * (x &&& y) := by
  have below (c : Byte) (z i : Nat) : (c.toNat + 256 * z).testBit i = if i < 8 then c.toNat.testBit i else z.testBit (i - 8) := by
    rw [Nat.add_comm]
    exact Nat.testBit_two_pow_mul_add (i := 8) z c.isLt i
  refine Nat.eq_of_testBit_eq fun i => ?_
  rw [Nat.testBit_and, below, below, below, BitVec.toNat_and, Nat.testBit_and, Nat.testBit_and]
  split <;> rfl

theorem ofLe_and (f g : Nat → Byte) (l : List Nat) : ofLe (l.map f) &&& ofLe (l.map g) = ofLe (l.map fun i => f i &&& g i) := by
  induction l with
  | nil => exact Nat.zero_and 0
  | cons i l ih => exact (and_byte_below ..).trans (by rw [ih]; rfl)

/-- A register none of whose bytes holds a stray bit keeps all its bits under its mask. -/
theorem cellWord_and_regMask {m : List Host.Cell} {block target off : Nat}
    (h : ∀ i < 4, cellGet m (cfgAddr block target off + i) &&& cfgMask (cfgAddr block target off + i) = cellGet m (cfgAddr block target off + i)) :
    cellWord m block target off &&& regMask block target off = cellWord m block target off := by
  unfold cellWord cellRead regMask
  rw [ofLe_and]
  exact congrArg ofLe (List.map_congr_left fun i hi => h i (List.mem_range.1 hi))

/-- A register of a block with a field of bits that are write 0, read 0, and reset to 0. -/
abbrev ReservedField (block target off hi lo : Nat) : Prop :=
  cfgAddr block target off + 4 ≤ blockHi block target ∧ bits (regMask block target off) hi lo = 0 ∧
    ∀ i < 4, cfgDefault (cfgAddr block target off + i) &&& cfgMask (cfgAddr block target off + i) = cfgDefault (cfgAddr block target off + i)

/-- A reserved field that is not 0 is found. -/
theorem strayRegs_of_reserved {m : List Host.Cell} {block target off hi lo : Nat} (hf : ReservedField block target off hi lo)
    (h : bits (cellWord m block target off) hi lo ≠ 0) : strayRegs m block target ≠ [] := by
  obtain ⟨hin, hmask, hreset⟩ := hf
  intro hnone
  refine h ?_
  rw [← cellWord_and_regMask (m := m) fun i hi => ?_, bits_and, hmask, Nat.and_zero]
  by_contra hstray
  refine strayRegs_ne_nil (Nat.le_add_right_of_le ?_) (by omega) (hreset i hi) hstray hnone
  exact cfgAddr_mono (Nat.zero_le off)

/-! ### The Locus registers (R316, R317) -/

section
variable {m : List Host.Cell}

theorem checkLocus_of_reserved {off hi lo : Nat} (hf : ReservedField 0x13 0 off hi lo) (h : bits (cellWord m 0x13 0 off) hi lo ≠ 0) :
    checkLocus m ≠ [] :=
  List.append_ne_nil_of_right_ne_nil _ (strayRegs_of_reserved hf h)

theorem checkLocus_of_ctrl {ctrl : Nat} (hc : ctrl = cellWord m 0x13 0 0) (h : bits ctrl 31 24 < 50 ∨ 95 < bits ctrl 31 24 ∨
    bits ctrl 23 16 < 10 ∨ 90 < bits ctrl 23 16 ∨ bits ctrl 15 8 < 10 ∨ bits ctrl 31 24 ≤ bits ctrl 23 16) : checkLocus m ≠ [] := by
  subst hc
  refine List.append_ne_nil_of_left_ne_nil (offences_ne_nil List.mem_cons_self ?_) _
  have hload : bits (regIn m 0x13 0 0) 31 24 = bits (cellWord m 0x13 0 0) 31 24 := bits_regIn (by decide)
  have hret : bits (regIn m 0x13 0 0) 23 16 = bits (cellWord m 0x13 0 0) 23 16 := bits_regIn (by decide)
  have hdwell : bits (regIn m 0x13 0 0) 15 8 = bits (cellWord m 0x13 0 0) 15 8 := bits_regIn (by decide)
  simpa only [hload, hret, hdwell, outside, Bool.or_eq_true, decide_eq_true_eq, or_assoc] using h

theorem checkLocus_of_ret {ret : Nat} (hr : ret = cellWord m 0x13 0 4) (h : 5475 < bits ret 31 16 ∨ 5475 < bits ret 15 0) :
    checkLocus m ≠ [] := by
  subst hr
  refine List.append_ne_nil_of_left_ne_nil (offences_ne_nil (List.mem_cons_of_mem _ List.mem_cons_self) ?_) _
  have hd1 : bits (regIn m 0x13 0 4) 31 16 = bits (cellWord m 0x13 0 4) 31 16 := bits_regIn (by decide)
  have hd2 : bits (regIn m 0x13 0 4) 15 0 = bits (cellWord m 0x13 0 4) 15 0 := bits_regIn (by decide)
  simpa only [hd1, hd2, Bool.or_eq_true, decide_eq_true_eq] using h

theorem checkLocus_of_quota (h : 64 < bits (cellWord m 0x13 0 8) 31 16) : checkLocus m ≠ [] := by
  refine List.append_ne_nil_of_left_ne_nil
    (offences_ne_nil (List.mem_cons_of_mem _ (List.mem_cons_of_mem _ List.mem_cons_self)) ?_) _
  have hquota : bits (regIn m 0x13 0 8) 31 16 = bits (cellWord m 0x13 0 8) 31 16 := bits_regIn (by decide)
  simpa only [hquota, decide_eq_true_eq] using h

/-! ### The power registers (R421, R422) -/

theorem checkPower_of_reserved {off hi lo : Nat} (hf : ReservedField 0x15 0 off hi lo) (h : bits (cellWord m 0x15 0 off) hi lo ≠ 0) :
    checkPower m ≠ [] :=
  List.append_ne_nil_of_right_ne_nil _ (strayRegs_of_reserved hf h)

theorem checkPower_of_ctrl {ctrl : Nat} (hc : ctrl = cellWord m 0x15 0 0)
    (h : 2 ≤ bits ctrl 9 8 ∨ bits ctrl 31 24 = 0 ∨ bits ctrl 23 16 < 1 ∨ 50 < bits ctrl 23 16) : checkPower m ≠ [] := by
  subst hc
  refine List.append_ne_nil_of_left_ne_nil (offences_ne_nil List.mem_cons_self ?_) _
  have hprio : bits (regIn m 0x15 0 0) 9 8 = bits (cellWord m 0x15 0 0) 9 8 := bits_regIn (by decide)
  have hidle : bits (regIn m 0x15 0 0) 31 24 = bits (cellWord m 0x15 0 0) 31 24 := bits_regIn (by decide)
  have hms : bits (regIn m 0x15 0 0) 23 16 = bits (cellWord m 0x15 0 0) 23 16 := bits_regIn (by decide)
  simpa only [hprio, hidle, hms, outside, Bool.or_eq_true, decide_eq_true_eq, beq_iff_eq, or_assoc] using h

theorem checkPower_of_hold {hold : Nat} (hc : hold = cellWord m 0x15 0 4)
    (h : bits hold 15 8 < 27 ∨ 50 < bits hold 15 8 ∨ bits hold 7 0 < 1 ∨ 25 < bits hold 7 0) : checkPower m ≠ [] := by
  subst hc
  refine List.append_ne_nil_of_left_ne_nil (offences_ne_nil (List.mem_cons_of_mem _ List.mem_cons_self) ?_) _
  have hv : bits (regIn m 0x15 0 4) 15 8 = bits (cellWord m 0x15 0 4) 15 8 := bits_regIn (by decide)
  have hi : bits (regIn m 0x15 0 4) 7 0 = bits (cellWord m 0x15 0 4) 7 0 := bits_regIn (by decide)
  simpa only [hv, hi, outside, Bool.or_eq_true, decide_eq_true_eq, or_assoc] using h

theorem checkPower_of_ext {ext : Nat} (hc : ext = cellWord m 0x15 0 8) (h : bits ext 31 16 < 1 ∨ 600 < bits ext 31 16 ∨
    (bit (cellWord m 0x11 0 0) 0 = true ∨ bit (cellWord m 0x11 0 4) 0 = true) ∧ bit ext 0 = false) : checkPower m ≠ [] := by
  subst hc
  refine List.append_ne_nil_of_left_ne_nil
    (offences_ne_nil (List.mem_cons_of_mem _ (List.mem_cons_of_mem _ List.mem_cons_self)) ?_) _
  have hretry : bits (regIn m 0x15 0 8) 31 16 = bits (cellWord m 0x15 0 8) 31 16 := bits_regIn (by decide)
  have hen : bit (regIn m 0x15 0 8) 0 = bit (cellWord m 0x15 0 8) 0 := congrArg (· == 1) (bits_regIn (by decide))
  simpa only [hretry, hen, swpEnable_regIn (.inl rfl : (0 : Nat) = 0 ∨ (0 : Nat) = 4), swpEnable_regIn (.inr rfl : (4 : Nat) = 0 ∨ (4 : Nat) = 4),
    outside, Bool.or_eq_true, Bool.and_eq_true, Bool.not_eq_true', decide_eq_true_eq, or_assoc] using h

end

/-- Settles O59: each field out of range is an offence of its register, and a reserved bit one of the block. -/
theorem locusFieldsOutOfRangeRejectTheCommit : Obligations.LocusFieldsOutOfRangeRejectTheCommit := by
  intro s t ctrl ret ret3 prio hctrl hret hret3 hprio h
  refine rejectsCommit_of (checkSet_locus ?_)
  have low : bits ctrl 7 5 ≠ 0 → checkLocus s.cfg.b ≠ [] := hctrl ▸ checkLocus_of_reserved (by decide)
  have bit0 : bits ctrl 0 0 ≠ 0 → checkLocus s.cfg.b ≠ [] := hctrl ▸ checkLocus_of_reserved (by decide)
  have high : bits prio 31 6 ≠ 0 → checkLocus s.cfg.b ≠ [] := hprio ▸ checkLocus_of_reserved (by decide)
  obtain (h | h) | (h | h) | h | h | h | h | h | h | h | h := h
  · exact checkLocus_of_ctrl hctrl (by omega)
  · exact checkLocus_of_ctrl hctrl (by omega)
  · exact checkLocus_of_ctrl hctrl (by omega)
  · exact checkLocus_of_ctrl hctrl (by omega)
  · exact checkLocus_of_ctrl hctrl (by omega)
  · exact checkLocus_of_ctrl hctrl (by omega)
  · exact checkLocus_of_ret hret (.inl h)
  · exact checkLocus_of_ret hret (.inr h)
  · exact checkLocus_of_quota (hret3 ▸ h)
  · exact low h
  · exact bit0 (by rw [beq_iff_eq.1 h]; decide)
  · exact high h

/-- Settles O60: each field out of range, and a port enabled without VEXT1, is an offence of its register, and a reserved bit one of
the block. -/
theorem powerFieldsOutOfRangeRejectTheCommit : Obligations.PowerFieldsOutOfRangeRejectTheCommit := by
  intro s t ctrl hold ext wake hctrl hhold hext hwake h
  refine rejectsCommit_of (checkSet_power ?_)
  have ctrlHigh : bits ctrl 15 12 ≠ 0 → checkPower s.cfg.b ≠ [] := hctrl ▸ checkPower_of_reserved (by decide)
  have ctrlLow : bits ctrl 7 0 ≠ 0 → checkPower s.cfg.b ≠ [] := hctrl ▸ checkPower_of_reserved (by decide)
  have holdHigh : bits hold 31 16 ≠ 0 → checkPower s.cfg.b ≠ [] := hhold ▸ checkPower_of_reserved (by decide)
  have extLow : bits ext 15 3 ≠ 0 → checkPower s.cfg.b ≠ [] := hext ▸ checkPower_of_reserved (by decide)
  have wakeLow : bits wake 15 2 ≠ 0 → checkPower s.cfg.b ≠ [] := hwake ▸ checkPower_of_reserved (by decide)
  obtain h | h | (h | h) | (h | h) | (h | h) | (h | h) | h | h | h | h | h | h := h
  · exact checkPower_of_ctrl hctrl (by omega)
  · exact checkPower_of_ctrl hctrl (by omega)
  · exact checkPower_of_ctrl hctrl (by omega)
  · exact checkPower_of_ctrl hctrl (by omega)
  · exact checkPower_of_hold hhold (by omega)
  · exact checkPower_of_hold hhold (by omega)
  · exact checkPower_of_hold hhold (by omega)
  · exact checkPower_of_hold hhold (by omega)
  · exact checkPower_of_ext hext (.inl h)
  · exact checkPower_of_ext hext (.inr (.inl h))
  · exact checkPower_of_ext hext (.inr (.inr h))
  · exact ctrlHigh h
  · exact ctrlLow h
  · exact holdHigh h
  · exact extLow h
  · exact wakeLow h

end Sys2Proof.Machine
end

section
/-! A command that a part in RUN refuses (R331, R348 to R351). -/

namespace Sys2Proof.Machine

/-- A command whose meaning is to serve its descriptor completes with the refusal, when there is one. -/
theorem Runs.of_refusal {i : Instr} {s : State} {t code : Nat} {c : Cmd} {mine : Bool} {f : State → State} {st : Status}
    (hi : exec i s = .next ((s.at_ t).serve code c mine f)) (he : s.executes = true) (hm : s.isMine code c = true) (hp : s.present c = true)
    (ha : mine = true) (hr : s.power.st = 0) (hn : s.refusal code c = some st) :
    Runs i s fun s' => s' = (s.served t c).complete c st 0 :=
  ⟨_, hi, State.serve_refused (s := s.at_ t) he hm ha hp hr hn⟩

/-- A SELFTEST_RUN that is refused waits for no slice (R463). -/
theorem State.testWaits_of_refusal {s : State} {c : Cmd} {st : Status} {bad : Bool} (hn : s.refusal 0x0E c = some st) :
    s.testWaits c bad = false := by
  unfold State.testWaits
  rw [hn]
  simp

/-- Settles O56: each of the commands serves its descriptor, and a refusal is completed before anything of the opcode happens. -/
theorem refusedCommandsOnlyComplete : Obligations.RefusedCommandsOnlyComplete := by
  intro i s st refusedAs
  cases i with
  | identify | enumerate | configRead | shadowWrite | commit | commitCancel | commitRevert | streamOpen | streamClose | recordRead
  | captureArm | captureDisarm | captureFetch | storeRead | balancePolicy | powerStateDoze | powerStateRun | powerStateShip
  | powerStateSleep | calEarlyEnd | calReset | checkCompute | meterStatement | trustChallenge | firmwareStage | firmwareActivate
  | firmwareReturnPrevious | firmwareVerify | sensorSearch | blackboxRead | lockoutRelease | lifeGenkey | lifeRelocate | lifeReturn
  | lifeSeal | lifeUpdate | ping => exact Runs.of_refusal rfl
  | selftestRunAll t c _ | selftestRunBlock t c _ =>
    intro he hm hp ha hr hn
    have hwait (bad : Bool) : (s.at_ t).testWaits c bad = false := State.testWaits_of_refusal (s := s.at_ t) hn
    exact Runs.of_refusal rfl he hm hp (by rw [hwait, Bool.not_false, Bool.and_true]; exact ha) hr hn
  | _ => trivial

end Sys2Proof.Machine
end

section
/-! The hub apart from the dies and what it sends: what the fast path of a die, and a command that is served, leave of it (R98, R332,
R404, R414). -/

namespace Sys2Proof.Machine

/-! ### A reading of the state through branches and loops -/

section
variable {β : Type} (g : State → β)

theorem view_ite {c : Prop} {_ : Decidable c} {a b : State} {x : β} (ha : g a = x) (hb : g b = x) : g (if c then a else b) = x := by
  split <;> assumption

theorem view_onDie {s : State} {k : Nat} {f : Die → State} {x : β} (h : ∀ d, g (f d) = x) (hs : g s = x) : g (s.onDie k f) = x := by
  unfold State.onDie
  split
  · split
    · exact h _
    · exact hs
  · exact hs

theorem view_onSwp {s : State} {p : Nat} {f : SwpPort → State} {x : β} (h : ∀ y, g (f y) = x) (hs : g s = x) : g (s.onSwp p f) = x := by
  unfold State.onSwp
  split
  · exact hs
  · split
    · exact hs
    · exact h _

theorem view_foldl {α : Type} {f : State → α → State} (h : ∀ s a, g (f s a) = g s) (l : List α) (s : State) : g (l.foldl f s) = g s := by
  induction l generalizing s with
  | nil => rfl
  | cons a l ih => exact (ih _).trans (h _ _)

end

/-! ### The hub apart from the dies -/

/-- What raising events, sending frames and completing commands leave alone, the dies apart. -/
def State.hubKept (s : State) : Kept := { s.kept with dies := [] }

theorem State.hubKept_of_kept {s u : State} (h : s.kept = u.kept) : s.hubKept = u.hubKept := congrArg (fun x : Kept => { x with dies := [] }) h

theorem State.hubKept_cfg {s u : State} (h : s.hubKept = u.hubKept) : s.cfg = u.cfg := congrArg Kept.cfg h

theorem hubKept_modDie {s u : State} {k : Nat} {f : Die → Die} (hu : u.hubKept = s.hubKept) : (u.modDie k f).hubKept = s.hubKept := by
  unfold State.modDie
  split <;> exact hu

/-! ### The fast path of a die (R98, R404) -/

theorem State.dieEvent_hubKept (s : State) (k : Nat) (e : Ev) : (s.dieEvent k e).hubKept = s.hubKept :=
  view_ite State.hubKept (State.hubKept_of_kept (State.eventAt_kept ..)) (hubKept_modDie rfl)

theorem State.flushStream_hubKept (s : State) (k : Nat) (last abort : Bool) : (s.flushStream k last abort).hubKept = s.hubKept :=
  view_onDie State.hubKept (fun _ => view_ite State.hubKept rfl (hubKept_modDie (hubKept_modDie rfl))) rfl

theorem State.unarm_hubKept (s : State) (c : Capture) : (s.unarm c).hubKept = s.hubKept :=
  view_ite State.hubKept (State.hubKept_of_kept (State.tellArmed_kept ..)) rfl

theorem State.abortCapture_hubKept (s : State) (k : Nat) (arm : Bool) : (s.abortCapture k arm).hubKept = s.hubKept := by
  refine view_onDie State.hubKept (fun d => ?_) rfl
  split
  · rfl
  · exact (State.hubKept_of_kept (State.completeOpt_kept ..)).trans
      ((State.unarm_hubKept ..).trans ((State.dieEvent_hubKept ..).trans (hubKept_modDie rfl)))

theorem State.stopInjection_hubKept (s : State) (k : Nat) : (s.stopInjection k).hubKept = s.hubKept := hubKept_modDie (hubKept_modDie rfl)

theorem State.stopFast_hubKept (s : State) (k : Nat) : (s.stopFast k).hubKept = s.hubKept :=
  (State.stopInjection_hubKept ..).trans (hubKept_modDie ((State.flushStream_hubKept ..).trans (State.abortCapture_hubKept ..)))

theorem State.fastOff_hubKept (s : State) (k : Nat) : (s.fastOff k).hubKept = s.hubKept :=
  view_onDie State.hubKept (fun _ => view_ite State.hubKept (hubKept_modDie (State.stopFast_hubKept s k)) rfl) rfl

theorem State.fastUp_hubKept (s : State) (k : Nat) : (s.fastUp k).hubKept = s.hubKept :=
  view_onDie State.hubKept (fun _ => view_ite State.hubKept rfl (hubKept_modDie rfl)) rfl

theorem State.fastDomain_hubKept (s : State) (k : Nat) : (s.fastDomain k).hubKept = s.hubKept :=
  view_onDie State.hubKept (fun _ => view_ite State.hubKept (State.fastUp_hubKept s k) (State.fastOff_hubKept s k)) rfl

theorem State.fastDomains_hubKept (s : State) (l : List Nat) : (l.foldl (fun u k => u.fastDomain k) s).hubKept = s.hubKept :=
  view_foldl State.hubKept (fun u k => State.fastDomain_hubKept u k) l s

/-! ### A command that is served (R332, R414) -/

/-- Waking from DOZE leaves the configuration alone. -/
theorem State.undoze_cfg (s : State) : s.undoze.cfg = s.cfg := by
  unfold State.undoze
  dsimp only
  split
  · exact (State.hubKept_cfg (State.fastDomains_hubKept ..)).trans rfl
  · rfl

/-- What a served command makes of the configuration: nothing, or what its opcode does on a state with the same one. -/
theorem State.serve_cfg {P : CfgState → Prop} {s : State} {code : Nat} {c : Cmd} {mine : Bool} {f : State → State} (hs : P s.cfg)
    (hf : ∀ u : State, u.cfg = s.cfg → P (f u).cfg) : P (s.serve code c mine f).cfg := by
  have hran : (s.undoze.markRan c).cfg = s.cfg := State.undoze_cfg s
  unfold State.serve
  split
  · exact hs
  · dsimp only
    split
    · rwa [State.complete_cfg, hran]
    · exact hf _ hran

theorem find?_map_of_eq {α : Type} {p : α → Bool} {f : α → α} (hp : ∀ a, p (f a) = p a) (l : List α) :
    (l.map f).find? p = (l.find? p).map f := by
  induction l with
  | nil => rfl
  | cons a l ih =>
    rw [List.map_cons, List.find?_cons, List.find?_cons, hp]
    cases p a with
    | true => rfl
    | false => exact ih

/-- The mark that a command has run does not touch its data. -/
theorem State.inData_served (s : State) (t : Nat) (c : Cmd) (came : List Byte) : (s.served t c).inData c came = s.inData c came := by
  have hcmd : ∀ x : InFlight, (if x.cmd = c then { x with ran := true } else x).cmd = x.cmd := fun x => by split <;> rfl
  have hdata : ∀ x : InFlight, (if x.cmd = c then { x with ran := true } else x).data = x.data := fun x => by split <;> rfl
  unfold State.inData
  show (if s.hosted then (((s.hif.inflight.map fun (x : InFlight) => if x.cmd = c then { x with ran := true } else x).find?
    fun x => x.cmd == c).map (·.data)).getD came else came) = _
  rw [find?_map_of_eq (fun x => by rw [hcmd]), Option.map_map]
  congr 3
  funext x
  exact hdata x

end Sys2Proof.Machine
end

section
/-! The configuration sets under SHADOW_WRITE: the frame of a write and its reading back (R353, R355, R356, R358). -/

namespace Sys2Proof.Machine

@[simp] theorem State.noteActivity_cfg (s : State) : s.noteActivity.cfg = s.cfg := rfl
@[simp] theorem State.markRan_cfg (s : State) (c : Cmd) : (s.markRan c).cfg = s.cfg := rfl

@[simp] theorem slice_length (bs : List Byte) (off n : Nat) : (slice bs off n).length = n := by simp [slice]

/-- The bytes of a write read back as a range. -/
theorem cellRead_write_same (m : List Host.Cell) (a : Nat) (bs : List Byte) : cellRead (cellWrite m a bs) a bs.length = bs := by
  refine List.ext_getElem (by simp [cellRead]) fun i _ hi => ?_
  simp only [cellRead, List.getElem_map, List.getElem_range]
  exact cellGet_write_same hi

/-- Set B with the bytes of a SHADOW_WRITE put at the range that it names (R355). -/
def shadowed (m : List Host.Cell) (c : Cmd) (data : List Byte) : List Host.Cell :=
  cellWrite m (cfgAddr (rd c.param 1 1) c.target (rd c.param 4 4)) (slice data 0 c.bufLen)

theorem State.putShadow_cfg (s : State) (c : Cmd) (data : List Byte) : (s.putShadow c data).cfg = { s.cfg with b := shadowed s.cfg.b c data } := by
  unfold State.putShadow
  rw [State.completeX_cfg]
  unfold State.markTargets
  split
  · rfl
  · rw [State.modDie_cfg]
    rfl

/-- What a SHADOW_WRITE may change of the configuration: bytes of B in its range, or the list of those that wait. -/
def CfgState.shadowFrame (c : Cmd) (x y : CfgState) : Prop :=
  y.a = x.a ∧ y.f = x.f ∧ y.epoch = x.epoch ∧ y.pend = x.pend ∧ (y.b = x.b ∨ ∃ data, y.b = shadowed x.b c data)

theorem CfgState.shadowFrame_refl (c : Cmd) (x : CfgState) : x.shadowFrame c x := ⟨rfl, rfl, rfl, rfl, .inl rfl⟩

theorem execShadowWrite_frame (t : Nat) (c : Cmd) (data : List Byte) (s : State) :
    Runs (.shadowWrite t c data) s fun s' => s.cfg.shadowFrame c s'.cfg := by
  refine ⟨_, rfl, State.serve_cfg (s := s.at_ t) (CfgState.shadowFrame_refl c s.cfg) fun u hu => ?_⟩
  have same : s.cfg.shadowFrame c u.cfg := by rw [hu]; exact CfgState.shadowFrame_refl c s.cfg
  have completed (st : Status) : s.cfg.shadowFrame c (u.complete c st 0).cfg := by rwa [State.complete_cfg]
  dsimp only
  split
  · exact completed _
  · split
    · exact completed _
    · split
      · exact same
      · rw [State.putShadow_cfg, hu]
        exact ⟨rfl, rfl, rfl, rfl, .inr ⟨_, rfl⟩⟩

section
variable {t : Nat} {c : Cmd} {data : List Byte} {s : State} (h : s.serves 0x04 c)
  (hrange : cfgRangeOk (rd c.param 1 1) c.target (rd c.param 4 4) c.bufLen = true) (hpend : s.cfg.pend = none)
include h hrange hpend

theorem execShadowWrite_of (hcopy : s.cfg.copying = false) :
    exec (.shadowWrite t c data) s = .next ((s.served t c).putShadow c (s.inData c data)) := by
  show execShadowWrite t c data s = _
  unfold execShadowWrite
  rw [State.serves_serve t h rfl]
  dsimp only
  rw [State.inData_served, if_neg (by simp [hrange]), if_neg (by simp [hpend]),
    if_neg (by simp [hcopy])]

theorem execShadowWrite_waits (hcopy : s.cfg.copying = true) :
    exec (.shadowWrite t c data) s = .next ((s.served t c).modCfg fun x => { x with waiting := x.waiting ++ [(c, s.inData c data)] }) := by
  show execShadowWrite t c data s = _
  unfold execShadowWrite
  rw [State.serves_serve t h rfl]
  dsimp only
  rw [State.inData_served, if_neg (by simp [hrange]), if_neg (by simp [hpend]),
    if_pos (by simp [hcopy])]

end

/-- Settles O55: bytes outside the range of a write stay, and those within it read back. -/
theorem shadowWriteFrame : Obligations.ShadowWriteFrame := by
  rintro t lo c data s rfl
  refine ⟨?_, fun h hrange hpend hcopy => ⟨_, execShadowWrite_of h hrange hpend hcopy, ?_⟩⟩
  · obtain ⟨s', hs', ha, hf, hepoch, hp, hb⟩ := execShadowWrite_frame t c data s
    refine ⟨s', hs', ha, hf, hepoch, hp, ?_⟩
    obtain hb | ⟨bytes, hb⟩ := hb
    · rw [hb]
      exact ⟨id, fun _ _ => rfl⟩
    · rw [hb]
      exact ⟨fun hwf => cellWrite_wf hwf _ _, fun x hx => cellGet_write_other (by rwa [slice_length])⟩
  · beta_reduce
    rw [State.putShadow_cfg]
    have hread := cellRead_write_same s.cfg.b (cfgAddr (rd c.param 1 1) c.target (rd c.param 4 4)) (slice (s.inData c data) 0 c.bufLen)
    rwa [slice_length] at hread

end Sys2Proof.Machine
end

section
/-! The configuration sets: reads, commits and their check, the swap, the copy after it, the group commit and BALANCE_POLICY (R353,
R355 to R359, R361). -/

namespace Sys2Proof.Machine

/-! ### What the fields on their way into force leave of the sets (R353, R356) -/

/-- The configuration apart from the fields in force and the policies that wait for their dies. -/
def State.sets (s : State) : CfgState := { s.cfg with f := [], policies := [] }

theorem State.sets_of_cfg {s u : State} (h : s.cfg = u.cfg) : s.sets = u.sets := congrArg (fun x : CfgState => { x with f := [], policies := [] }) h

theorem State.cfg_of_sets {s : State} {x : CfgState} (h : s.sets = x) :
    s.cfg.a = x.a ∧ s.cfg.epoch = x.epoch ∧ s.cfg.pend = x.pend ∧ s.cfg.copying = x.copying := by
  subst h
  exact ⟨rfl, rfl, rfl, rfl⟩

theorem State.sets_of_hubKept {s u : State} (h : s.hubKept = u.hubKept) : s.sets = u.sets := State.sets_of_cfg (State.hubKept_cfg h)

theorem State.modDie_sets (s : State) (k : Nat) (f : Die → Die) : (s.modDie k f).sets = s.sets := State.sets_of_cfg (State.modDie_cfg ..)

theorem State.takeBlock_sets (s : State) (block target : Nat) : (s.takeBlock block target).sets = s.sets := rfl

theorem State.takeRange_sets (s : State) (block target lo hi : Nat) : (s.takeRange block target lo hi).sets = s.sets := rfl

theorem State.adoptSwp_sets (s : State) (p : Nat) : (s.adoptSwp p).sets = s.sets := by
  unfold State.adoptSwp
  exact view_ite State.sets ((State.sets_of_cfg (State.modSwp_cfg (s.takeRange ..) p _)).trans (State.takeRange_sets ..)) rfl

theorem State.adoptIdlePorts_sets (s : State) : s.adoptIdlePorts.sets = s.sets := by
  refine view_foldl State.sets (fun u p => ?_) _ s
  exact view_onSwp State.sets (fun _ => view_ite State.sets rfl (State.adoptSwp_sets u p)) rfl

theorem State.setHoldEff_cfg (s : State) : s.setHoldEff.cfg = s.cfg := rfl
theorem State.chooseSrc_cfg (s : State) : s.chooseSrc.cfg = s.cfg := rfl
theorem State.modRail_cfg (s : State) (i : Nat) (f : Rail → Rail) : (s.modRail i f).cfg = s.cfg := rfl

theorem State.followRails_cfg (s : State) : s.followRails.cfg = s.cfg := by
  unfold State.followRails
  split
  · rfl
  · dsimp only
    rw [State.chooseSrc_cfg, State.setHoldEff_cfg]
    generalize hu : List.foldl _ s _ = u
    have hcfg : u.cfg = s.cfg := by
      rw [← hu]
      refine view_foldl State.cfg (fun v i => ?_) _ s
      split
      · exact State.modRail_cfg ..
      · split
        · exact State.modRail_cfg ..
        · rfl
    split
    · exact hcfg
    · split <;> exact hcfg

theorem State.swapFast_sets (s : State) (k : Nat) : (s.swapFast k).sets = s.sets := by
  have ends : ∀ a b : Bool, State.sets (if a = true then (s.abortCapture k true).flushStream k true true
      else if b = true then s else s.flushStream k false false) = s.sets := fun _ _ =>
    view_ite State.sets (State.sets_of_hubKept ((State.flushStream_hubKept ..).trans (State.abortCapture_hubKept ..)))
      (view_ite State.sets rfl (State.sets_of_hubKept (State.flushStream_hubKept ..)))
  exact view_ite State.sets (ends _ _) ((State.modDie_sets ..).trans (ends _ _))

theorem State.discardRun_sets (s : State) (k t : Nat) (keep : Bool) : (s.discardRun k t keep).sets = s.sets := by
  refine view_onDie State.sets (fun d => (State.modDie_sets ..).trans ?_) rfl
  split
  · exact State.sets_of_cfg (State.dieRecord_cfg ..)
  · rfl

theorem State.swapCal_sets (s : State) (k : Nat) : (s.swapCal k).sets = s.sets :=
  view_ite State.sets rfl ((State.discardRun_sets ..).trans rfl)

theorem State.swapDie_sets (s : State) (tc k : Nat) : (s.swapDie tc k).sets = s.sets :=
  (State.modDie_sets ..).trans ((State.swapCal_sets ..).trans ((State.sets_of_hubKept (State.fastDomain_hubKept ..)).trans (State.swapFast_sets ..)))

theorem State.sendSafety_cfg (s : State) (msg : Nat) (f : FaultInfo) : (s.sendSafety msg f).cfg = s.cfg :=
  congrArg (·.2.1) (State.sendSafety_calmEq s msg f)

theorem State.afterSwap_sets (s : State) (tc : Nat) : (s.afterSwap tc).sets = s.sets := by
  have taken : ((((s.takeBlock 0x02 0).takeBlock 0x15 0).followRails).adoptIdlePorts).sets = s.sets :=
    (State.adoptIdlePorts_sets _).trans ((State.sets_of_cfg (State.followRails_cfg _)).trans rfl)
  have dies (l : List Nat) (u : State) : (l.foldl (fun u k => u.swapDie tc k) u).sets = u.sets :=
    view_foldl State.sets (fun u k => State.swapDie_sets u tc k) l u
  exact view_ite State.sets ((State.sets_of_cfg (State.sendSafety_cfg ..)).trans ((dies _ _).trans taken)) ((dies _ _).trans taken)

/-- The swap: B as it is in force, the next epoch, nothing pending and the copy begun (R356). -/
theorem State.swapSets_sets (s : State) (p : PendCommit) : (s.swapSets p).sets =
    { s.cfg with a := cellMasked s.cfg.b, epoch := (s.cfg.epoch + 1) % 65536, pend := none, copying := true, before := s.cfg.a, f := [],
                 policies := [],
                 selector := s.cfg.selector.drop 1 ++ [((s.cfg.selector.getLast?.map (·.1)).getD 0 + 1, s.now, true)] } := by
  have targets (old : List Host.Cell) (l : List Nat) (u : State) : (l.foldl (fun u k => u.swapTargets old k) u).sets = u.sets :=
    view_foldl State.sets (fun u k => State.modDie_sets ..) l u
  exact (State.sets_of_cfg ((evalOuts_cfg _).trans (State.complete_cfg ..))).trans ((State.afterSwap_sets ..).trans ((targets ..).trans rfl))

/-! ### Reads, commits and the copy (R353, R356 to R358) -/

section
variable {t : Nat} {c : Cmd} {s : State}

theorem execConfigRead_sets (h : s.serves 0x03 c) (hrange : cfgRangeOk (rd c.param 1 1) c.target (rd c.param 4 4) c.bufLen = true)
    (hspace : rd c.param 0 1 < 2) : exec (.configRead t c) s = .next ((s.served t c).completeData c .success 0
      (cellRead (if rd c.param 0 1 = 0 then s.cfg.a else cellMasked s.cfg.b) (cfgAddr (rd c.param 1 1) c.target (rd c.param 4 4)) c.bufLen)) := by
  show execConfigRead t c s = _
  unfold execConfigRead
  rw [State.serves_serve t h rfl]
  unfold State.readConfig
  dsimp only
  rw [if_neg (by omega), if_neg (by simp [hrange]; omega)]
  rfl

theorem execConfigRead_live {v : State} (h : s.serves 0x03 c) (hspace : rd c.param 0 1 = 2) (halign : rd c.param 4 4 % 4 = 0)
    (hend : rd c.param 4 4 + c.bufLen ≤ 0x200) (hblock : blockExists (rd c.param 1 1) c.target = true)
    (hv : v = if rd c.param 1 1 = 0x15 then ((s.served t c).catchUp c.target).measurePower else (s.served t c).catchUp c.target) :
    exec (.configRead t c) s = .next (v.completeData c .success 0 (v.liveBytes (rd c.param 1 1) c.target (rd c.param 4 4) (c.bufLen / 4))) := by
  show execConfigRead t c s = _
  unfold execConfigRead
  rw [State.serves_serve t h rfl]
  unfold State.readConfig
  dsimp only
  rw [if_pos hspace, if_neg (by simp [halign, hend, hblock]), ← hv]

theorem execCommit_of (h : s.serves 0x05 c) (ha : rd c.param 0 1 = 0) (hgroup : bits (rd c.param 1 1) 7 1 = 0)
    (hr : (s.served t c).commitRefusal (rd c.param 8 8) = none) :
    Runs (.commit t c) s fun s' => s'.cfg.pend = some (PendCommit.mk c (s.clock t)
      (if rd c.param 8 8 = 0 then commitDefault (s.clock t) else rd c.param 8 8) (isGroupCommit c) false false) := by
  refine ⟨_, congrArg Host.Outcome.next (State.serves_serve t h (by simp [ha])), ?_⟩
  unfold State.takeCommit
  dsimp only
  rw [if_neg (by simp [ha, hgroup]), hr]
  rfl

theorem execCommitRevert_of (h : s.serves 0x05 c) (hgroup : bits (rd c.param 1 1) 7 1 = 0) (ha : rd c.param 0 1 = 1) (hp : s.cfg.pend = none) :
    exec (.commitRevert t c) s = .next (((s.served t c).modCfg fun x => { x with b := x.a, torn := false }).complete c .success 0) := by
  show execCommitRevert t c s = _
  unfold execCommitRevert
  rw [State.serves_serve t h (by simp [ha]), if_neg (by simp [hgroup]), if_neg (by simp [hp])]

theorem State.cancelPend_cfg (s : State) : s.cancelPend.cfg = { s.cfg with pend := none } := by
  unfold State.cancelPend
  split
  · next hp => rw [← hp]
  · exact (evalOuts_cfg _).trans (State.complete_cfg ..)

theorem execCommitCancel_of (h : s.serves 0x05 c) (hgroup : bits (rd c.param 1 1) 7 1 = 0) (ha : rd c.param 0 1 = 2) :
    exec (.commitCancel t c) s = .next ((s.served t c).cancelPend.complete c .success 0) := by
  show execCommitCancel t c s = _
  unfold execCommitCancel
  rw [State.serves_serve t h (by simp [ha]), if_neg (by simp [hgroup])]

end

section
variable {t : Nat} {p : PendCommit} {s : State} (hp : s.cfg.pend = some p)
include hp

theorem State.sayPrepared_pend (q : PendCommit) : (s.sayPrepared q).cfg.pend = some p := by
  unfold State.sayPrepared
  split
  · split
    · exact hp
    · split <;> exact hp
  · rw [State.originate_cfg, hp]

theorem execCommitCheck_passes (hc : p.checked = false) (hw : s.cfg.waiting = [])
    (ho : firstOffence (checkSet s.cfg.a s.cfg.b s.islands (s.isGateway && s.anyOut)) = none) :
    Runs (.commitCheck t) s fun s' => s'.cfg.pend = some { p with checked := true } := by
  refine ⟨_, rfl, ?_⟩
  rw [show (s.at_ t).cfg.pend = some p from hp]
  dsimp only
  rw [if_neg (by simp [hc, hw]), show firstOffence (checkSet (s.at_ t).cfg.a (s.at_ t).cfg.b (s.at_ t).islands
    ((s.at_ t).isGateway && (s.at_ t).anyOut)) = _ from ho]
  dsimp only
  split
  · exact State.sayPrepared_pend (s := (s.at_ t).modCfg _) rfl p
  · rfl

theorem execCommitCheck_rejects {o : Nat × Nat × Nat} (hc : p.checked = false) (hw : s.cfg.waiting = [])
    (ho : firstOffence (checkSet s.cfg.a s.cfg.b s.islands (s.isGateway && s.anyOut)) = some o) : exec (.commitCheck t) s =
      .next ((((s.at_ t).modCfg fun x => { x with pend := none }).complete p.cmd .configInvalid (offenceResult o)).evalOuts) := by
  show execCommitCheck t s = _
  unfold execCommitCheck
  dsimp only
  rw [show (s.at_ t).cfg.pend = some p from hp]
  dsimp only
  rw [if_neg (by simp [hc, hw]), show firstOffence (checkSet (s.at_ t).cfg.a (s.at_ t).cfg.b (s.at_ t).islands
    ((s.at_ t).isGateway && (s.at_ t).anyOut)) = _ from ho]

theorem execConfigSwap_of (hc : p.checked = true) (ht : p.tCommit ≤ t) (hgo : p.group = false ∨ p.go = true) :
    exec (.configSwap t) s = .next ((s.at_ t).swapSets p) := by
  show execConfigSwap t s = _
  unfold execConfigSwap
  dsimp only
  rw [show (s.at_ t).cfg.pend = some p from hp]
  dsimp only
  rw [if_neg]
  obtain h | h := hgo <;> simp [hc, h, Nat.not_lt.2 ht]

end

theorem State.putShadows_cfg (l : List (Cmd × List Byte)) (s : State) : (l.foldl (fun u x => u.putShadow x.1 x.2) s).cfg =
    { s.cfg with b := l.foldl (fun m x => shadowed m x.1 x.2) s.cfg.b } := by
  induction l generalizing s with
  | nil => rfl
  | cons x l ih => rw [List.foldl_cons, ih, State.putShadow_cfg, List.foldl_cons]

theorem execShadowCopyComplete_of {t : Nat} {s : State} (h : s.cfg.copying = true) : exec (.shadowCopyComplete t) s =
    .next (s.cfg.waiting.foldl (fun u x => u.putShadow x.1 x.2)
      ((s.at_ t).modCfg fun x => { x with b := x.a, waiting := [], copying := false, before := [] })) := by
  show execShadowCopyComplete t s = _
  unfold execShadowCopyComplete
  dsimp only
  rw [if_neg (by simp [h])]
  rfl


theorem execShadowWrite_puts {t : Nat} {c : Cmd} {data : List Byte} {s : State} (h : s.serves 0x04 c)
    (hrange : cfgRangeOk (rd c.param 1 1) c.target (rd c.param 4 4) c.bufLen = true) (hp : s.cfg.pend = none) (hcopy : s.cfg.copying = false) :
    Runs (.shadowWrite t c data) s fun s' => s'.cfg.b = shadowed s.cfg.b c (s.inData c data) ∧ s'.cfg.a = s.cfg.a ∧ s'.cfg.f = s.cfg.f := by
  refine ⟨_, execShadowWrite_of h hrange hp hcopy, ?_⟩
  beta_reduce
  rw [State.putShadow_cfg]
  exact ⟨rfl, rfl, rfl⟩

theorem execCommitRevert_shows {t : Nat} {c : Cmd} {s : State} (h : s.serves 0x05 c) (hgroup : bits (rd c.param 1 1) 7 1 = 0)
    (ha : rd c.param 0 1 = 1) (hp : s.cfg.pend = none) :
    Runs (.commitRevert t c) s fun s' => s'.cfg.b = s.cfg.a ∧ s'.cfg.torn = false ∧ s'.cfg.a = s.cfg.a := by
  refine ⟨_, execCommitRevert_of h hgroup ha hp, ?_⟩
  beta_reduce
  rw [State.complete_cfg]
  exact ⟨rfl, rfl, rfl⟩

theorem execCommitCancel_shows {t : Nat} {c : Cmd} {s : State} (h : s.serves 0x05 c) (hgroup : bits (rd c.param 1 1) 7 1 = 0)
    (ha : rd c.param 0 1 = 2) : Runs (.commitCancel t c) s fun s' => s'.cfg.pend = none ∧ s'.cfg.a = s.cfg.a ∧ s'.cfg.b = s.cfg.b := by
  refine ⟨_, execCommitCancel_of h hgroup ha, ?_⟩
  beta_reduce
  rw [State.complete_cfg, State.cancelPend_cfg]
  exact ⟨rfl, rfl, rfl⟩

theorem execConfigSwap_shows {t : Nat} {p : PendCommit} {s : State} (hp : s.cfg.pend = some p) (hc : p.checked = true) (ht : p.tCommit ≤ t)
    (hgo : p.group = false ∨ p.go = true) : Runs (.configSwap t) s fun s' =>
      s'.cfg.a = cellMasked s.cfg.b ∧ s'.cfg.epoch = (s.cfg.epoch + 1) % 65536 ∧ s'.cfg.pend = none ∧ s'.cfg.copying = true := by
  refine ⟨_, execConfigSwap_of hp hc ht hgo, ?_⟩
  exact State.cfg_of_sets (State.swapSets_sets (s.at_ t) p)

theorem execShadowCopyComplete_shows {t : Nat} {s : State} (h : s.cfg.copying = true) : Runs (.shadowCopyComplete t) s fun s' =>
    s'.cfg.copying = false ∧ s'.cfg.waiting = [] ∧ s'.cfg.b = s.cfg.waiting.foldl (fun m x => shadowed m x.1 x.2) s.cfg.a := by
  refine ⟨_, execShadowCopyComplete_of h, ?_⟩
  beta_reduce
  rw [State.putShadows_cfg]
  exact ⟨rfl, rfl, rfl⟩

/-- Settles O37: the conditions of a clause leave one branch of its command; the fields of a swap on their way into force, completions
and the outputs leave the sets. -/
theorem configSetCommandsComplete : Obligations.ConfigSetCommandsComplete := by
  refine ⟨?_, ?_, fun t c data s h hrange hp => ⟨fun hcopy => execShadowWrite_puts h hrange hp hcopy, ?_⟩,
    fun t c s h ha hgroup hr => execCommit_of h ha hgroup hr, fun t p s hp hc hw => ⟨fun ho => execCommitCheck_passes hp hc hw ho, ?_⟩,
    fun t c s h hgroup => ⟨fun ha hp => execCommitRevert_shows h hgroup ha hp, fun ha => execCommitCancel_shows h hgroup ha⟩,
    fun t p s hp hc ht hgo => execConfigSwap_shows hp hc ht hgo, fun t s hcopy => execShadowCopyComplete_shows hcopy⟩
  · rintro t c s w h rfl hrange hspace
    exact ⟨_, execConfigRead_sets h hrange hspace, rfl⟩
  · rintro t c s u v h hspace halign hend hblock rfl rfl
    exact ⟨_, execConfigRead_live h hspace halign hend hblock rfl, rfl⟩
  · intro hcopy
    exact ⟨_, execShadowWrite_waits h hrange hp hcopy, rfl, rfl⟩
  · intro o ho
    refine ⟨_, execCommitCheck_rejects hp hc hw ho, rfl, ?_⟩
    rw [evalOuts_cfg, State.complete_cfg]
    rfl

/-! ### The group commit (R359) -/

theorem State.endGroup_cfg {s : State} {p : PendCommit} {st : Status} (hp : s.cfg.pend = some p) (hg : p.group = true) :
    (s.endGroup st).cfg = { s.cfg with pend := none } := by
  unfold State.endGroup
  rw [hp]
  dsimp only
  rw [if_neg (by simp [hg])]
  exact (evalOuts_cfg _).trans (State.complete_cfg ..)

section
variable {t : Nat} {g : GroupRun} {s : State} (hg : s.cfg.group = some g)
include hg

theorem execGroupCommitDecide_go (hall : (List.range (max 1 s.chainParts)).all g.prepared.contains = true) :
    exec (.groupCommitDecide t) s =
      .next ((((s.at_ t).originate 1 0x10 63 (le 1 0x05 ++ le 1 1)).modCfg fun x => { x with group := none }).holdGo) := by
  show execGroupCommitDecide t s = _
  unfold execGroupCommitDecide
  dsimp only
  rw [show (s.at_ t).cfg.group = some g from hg]
  dsimp only
  rw [State.chainParts_at_, if_pos hall]

theorem execGroupCommitDecide_abort (hall : (List.range (max 1 s.chainParts)).all g.prepared.contains = false)
    (ht : g.tCommit ≤ t + 5000000) : exec (.groupCommitDecide t) s =
      .next ((((s.at_ t).originate 1 0x10 63 (le 1 0x05 ++ le 1 2)).modCfg fun x => { x with group := none }).endGroup .groupAborted) := by
  show execGroupCommitDecide t s = _
  unfold execGroupCommitDecide
  dsimp only
  rw [show (s.at_ t).cfg.group = some g from hg]
  dsimp only
  rw [State.chainParts_at_, if_neg (by rw [hall]; exact Bool.false_ne_true), if_pos ht]

end

/-- The end of a pending prepare, or of none, leaves the group run of a gateway. -/
theorem State.endGroup_group (s : State) (st : Status) : (s.endGroup st).cfg.group = s.cfg.group := by
  unfold State.endGroup
  split
  · rfl
  · split
    · rfl
    · rw [evalOuts_cfg, State.complete_cfg]
      rfl

section
variable {t : Nat} {p : PendCommit} {s w : State} (hm : s.isModule = true)
include hm

theorem execGroupGoReceive_shows (hw : (s.at_ t).takeGroupFrame 1 = (true, w)) (hp : w.cfg.pend = some p) (hg : p.group = true)
    (hc : p.checked = true) (ht : t + 100000 ≤ p.tCommit) :
    Runs (.groupGoReceive t) s fun s' => s'.cfg.pend = some { p with go := true } := by
  have hgo : exec (.groupGoReceive t) s = .next w.holdGo := by
    show execGroupGoReceive t s = _
    unfold execGroupGoReceive
    dsimp only
    rw [if_neg (by simp [hm]), hw]
    dsimp only
    rw [if_neg (by simp), hp]
    dsimp only
    rw [if_pos ht]
  refine ⟨_, hgo, ?_⟩
  show (w.cfg.pend.map fun p => if p.group && p.checked then { p with go := true } else p) = _
  rw [hp, Option.map_some, hg, hc]
  rfl

theorem execGroupAbortReceive_shows (hw : (s.at_ t).takeGroupFrame 2 = (true, w)) (hp : w.cfg.pend = some p) (hg : p.group = true) :
    Runs (.groupAbortReceive t) s fun s' => s'.cfg.pend = none ∧ s'.cfg.a = w.cfg.a := by
  have habort : exec (.groupAbortReceive t) s = .next (w.endGroup .groupAborted) := by
    show execGroupAbortReceive t s = _
    unfold execGroupAbortReceive
    dsimp only
    rw [if_neg (by simp [hm]), hw]
    rfl
  refine ⟨_, habort, ?_⟩
  beta_reduce
  rw [State.endGroup_cfg hp hg]
  exact ⟨rfl, rfl⟩

end

theorem execGroupGoDeadline_shows {t : Nat} {p : PendCommit} {s : State} (hp : s.cfg.pend = some p) (hg : p.group = true)
    (hc : p.checked = true) (hgo : p.go = false) (ht : p.tCommit ≤ t + 100000) :
    Runs (.groupGoDeadline t) s fun s' => s'.cfg.pend = none ∧ s'.cfg.a = s.cfg.a := by
  have hend : exec (.groupGoDeadline t) s = .next ((s.at_ t).endGroup .commitLate) := by
    show execGroupGoDeadline t s = _
    unfold execGroupGoDeadline
    dsimp only
    rw [show (s.at_ t).cfg.pend = some p from hp]
    dsimp only
    rw [if_pos (by simp [hg, hc, hgo, ht])]
  refine ⟨_, hend, ?_⟩
  beta_reduce
  rw [State.endGroup_cfg (s := s.at_ t) hp hg]
  exact ⟨rfl, rfl⟩

/-! ### BALANCE_POLICY (R361) -/

/-- A set with the fields of a BALANCE_POLICY written for the dies it names. -/
def policyWritten (c : Cmd) (ks : List Nat) (m : List Host.Cell) : List Host.Cell :=
  ks.foldl (fun m k => policySet m k (rd c.param 0 4) (rd c.param 4 4) (rd c.param 8 4) (rd c.param 12 4)) m

/-- Which dies serve does not depend on their channels. -/
theorem State.dieGone_modDie (s : State) (j : Nat) {f : Die → Die} (hf : ∀ d, (f d).lost = d.lost ∧ (f d).prot.protOnly = d.prot.protOnly)
    (k : Nat) : (s.modDie j f).dieGone k = s.dieGone k := by
  unfold State.dieGone
  by_cases hk : k = j
  · subst hk
    by_cases h0 : k = 0
    · subst h0
      rfl
    · rw [State.die?_modDie_same f h0]
      cases s.die? k with
      | none => rfl
      | some d => exact congrArg₂ or (hf d).1 (hf d).2
  · rw [State.die?_modDie_other f hk]

/-- A die whose cells of a mask take a new target (R361). -/
def Die.retarget (mask tgt : Nat) (d : Die) : Die :=
  { d with prot := { d.prot with
      chans := d.prot.chans.zipIdx.map fun (x : Chan × Nat) => if mask.testBit x.2 then { x.1 with target := (tgt : Rat) / 10000 } else x.1 } }

section
variable {t : Nat} {c : Cmd} {ks : List Nat} {s : State}

/-- The sets and the dies with the fields of a policy. -/
def State.withPolicy (s : State) (c : Cmd) (ks : List Nat) : State :=
  ks.foldl (fun u k => u.modDie k (Die.retarget (rd c.param 8 4) (rd c.param 12 4)))
    (s.modCfg fun x => { x with a := policyWritten c ks s.cfg.a, b := policyWritten c ks s.cfg.b })

theorem State.withPolicy_cfg (s : State) (c : Cmd) (ks : List Nat) :
    (s.withPolicy c ks).cfg = { s.cfg with a := policyWritten c ks s.cfg.a, b := policyWritten c ks s.cfg.b } :=
  view_foldl State.cfg (fun _ _ => State.modDie_cfg ..) _ _

theorem State.withPolicy_dieGone (s : State) (c : Cmd) (ks : List Nat) (k : Nat) : (s.withPolicy c ks).dieGone k = s.dieGone k := by
  unfold State.withPolicy
  refine (view_foldl (fun u => u.dieGone k) (fun u j => ?_) _ _).trans rfl
  exact State.dieGone_modDie u j (f := Die.retarget _ _) (fun _ => ⟨rfl, rfl⟩) k

theorem State.balancePolicy_of (hmask : rd c.param 8 4 < 2 ^ 24) (hks : ks = if c.target = 0 then s.islands else [c.target])
    (ho : firstOffence (ks.flatMap fun k => (checkProt (policyWritten c ks s.cfg.a) k ++ checkProt (policyWritten c ks s.cfg.b) k).map
      fun off => (0x07, k, off)) = none) :
    s.balancePolicy c = if (ks.filter fun k => !(s.withPolicy c ks).dieGone k).isEmpty then (s.withPolicy c ks).complete c .success 0
      else (s.withPolicy c ks).modCfg fun x => { x with policies := x.policies ++ [(c, ks.filter fun k => !(s.withPolicy c ks).dieGone k)] } := by
  subst hks
  unfold policyWritten at ho
  unfold State.balancePolicy
  dsimp only
  rw [if_neg (by omega), ho]
  rfl

theorem execBalancePolicy_shows (h : s.serves 0x0C c) (hmask : rd c.param 8 4 < 2 ^ 24) (hks : ks = if c.target = 0 then s.islands else [c.target])
    (ho : firstOffence (ks.flatMap fun k => (checkProt (policyWritten c ks s.cfg.a) k ++ checkProt (policyWritten c ks s.cfg.b) k).map
      fun off => (0x07, k, off)) = none) :
    Runs (.balancePolicy t c) s fun s' => s'.cfg.a = policyWritten c ks s.cfg.a ∧ s'.cfg.b = policyWritten c ks s.cfg.b ∧
      (ks.filter (fun k => !s.dieGone k) ≠ [] → s'.cfg.policies = s.cfg.policies ++ [(c, ks.filter fun k => !s.dieGone k)]) := by
  have hof := State.balancePolicy_of (s := s.served t c) hmask hks ho
  refine ⟨_, congrArg Host.Outcome.next ((State.serves_serve t h rfl).trans hof), ?_⟩
  have hgone : (fun k => !((s.served t c).withPolicy c ks).dieGone k) = fun k => !s.dieGone k :=
    funext fun k => congrArg not (State.withPolicy_dieGone (s.served t c) c ks k)
  beta_reduce
  rw [hgone]
  split
  · next hnone =>
    rw [State.complete_cfg, State.withPolicy_cfg]
    exact ⟨rfl, rfl, fun hsome => absurd (List.isEmpty_iff.1 hnone) hsome⟩
  · rw [State.modCfg_cfg, State.withPolicy_cfg]
    exact ⟨rfl, rfl, fun _ => rfl⟩

end

/-- Settles O38: the conditions of a clause leave one branch of its command, and the frames, completions and outputs that follow leave
the sets. -/
theorem groupCommitCommandsComplete : Obligations.GroupCommitCommandsComplete := by
  refine ⟨fun t g s hg => ⟨fun hall => ⟨_, execGroupCommitDecide_go hg hall, rfl, rfl⟩,
      fun hall ht => ⟨_, execGroupCommitDecide_abort hg hall ht, State.endGroup_group .., rfl⟩⟩,
    fun t p s w hm hw hp hg hc ht => execGroupGoReceive_shows hm hw hp hg hc ht,
    fun t p s w hm hw hp hg => execGroupAbortReceive_shows hm hw hp hg,
    fun t p s hp hg hc hgo ht => execGroupGoDeadline_shows hp hg hc hgo ht,
    fun t c ks s h hmask hks ho => execBalancePolicy_shows h hmask hks ho⟩

end Sys2Proof.Machine
end

section
/-! The safety logic at a sample and at a tick, and the outputs: inputs, test pulses, discrepancies, output faults, the economy duty,
feedback and LORST_N (R364, R367 to R370, R372 to R378). -/

namespace Sys2Proof.Machine

/-! ### What a lock-out and the heartbeat leave of the inputs and of LORST_N (R205, R375) -/

/-- The safety block apart from the outputs, the lock-out, the heartbeat and the count of frames sent. -/
def SafeState.sensed (x : SafeState) : SafeState :=
  { x with outs := [], lockout := false, loCause := 0, loTime := 0, persisted := false, loSlots := [], sfSeq := 0, heartbeat := false,
           heartRan := false, reported := false }

def State.sensed (s : State) : SafeState := s.safe.sensed

theorem State.sensed_of_safe {s u : State} (h : s.safe = u.safe) : s.sensed = u.sensed := congrArg SafeState.sensed h

theorem State.event_sensed (s : State) (e : Ev) : (s.event e).sensed = s.sensed := State.sensed_of_safe (State.event_safe ..)

theorem State.setOut_sensed (s : State) (k : Nat) (on : Bool) : (s.setOut k on).sensed = s.sensed := by
  unfold State.setOut
  split <;> rfl

theorem State.outsOff_sensed (s : State) : s.outsOff.sensed = s.sensed := view_foldl State.sensed (fun u k => State.setOut_sensed u k false) _ s

theorem State.evalOuts_sensed (s : State) : s.evalOuts.sensed = s.sensed := by
  refine view_foldl State.sensed (fun u k => ?_) _ s
  split
  · exact view_ite State.sensed rfl (State.setOut_sensed ..)
  · exact view_ite State.sensed (State.setOut_sensed ..) rfl

theorem State.heartStop_sensed (s : State) : s.heartStop.sensed = s.sensed := (congrArg SafeState.sensed (State.heartStop_safe s)).trans rfl

theorem State.latch_sensed (s : State) (cause : Nat) : (s.latch cause).sensed = s.sensed := by
  unfold State.latch
  split
  · rfl
  · split
    · split <;> rfl
    · exact (State.event_sensed ..).trans ((State.heartStop_sensed _).trans ((State.outsOff_sensed _).trans rfl))

theorem State.sendSafety_sensed (s : State) (msg : Nat) (f : FaultInfo) : (s.sendSafety msg f).sensed = s.sensed := by
  unfold State.sendSafety
  dsimp only
  split
  · exact (State.sensed_of_safe (Kept.safe_eq (State.originate_kept ..))).trans rfl
  · rfl

theorem State.heartResume_sensed (s : State) : s.heartResume.sensed = s.sensed := by
  have beat (u : State) (e : Ev) (b : Bool) (hu : u.sensed = s.sensed) : (if b then u.event e else u).sensed = s.sensed :=
    view_ite State.sensed ((State.event_sensed u e).trans hu) hu
  unfold State.heartResume
  dsimp only
  split
  · rfl
  · split
    · rw [State.sendSafety_sensed]
      exact beat _ _ _ rfl
    · exact beat _ _ _ rfl

theorem State.setOut_isGateway (s : State) (k : Nat) (on : Bool) : (s.setOut k on).isGateway = s.isGateway := by
  unfold State.setOut
  split <;> rfl

/-! ### LORST_N (R378) -/

/-- The state of LORST_N and its counts of ticks. -/
def SafeState.lorst (x : SafeState) : Nat × Nat × Nat := (x.lorstState, x.lorstLow, x.lorstHigh)

theorem State.lorst_of_sensed {s u : State} (h : s.sensed = u.sensed) : s.safe.lorst = u.safe.lorst :=
  (congrArg SafeState.lorst h : s.sensed.lorst = u.sensed.lorst)

/-- What a sample of LORST_N makes of it depends on nothing else. -/
theorem State.stepLorst_lorst {s u : State} (high : Bool) (h : s.safe.lorst = u.safe.lorst) :
    (s.stepLorst high).safe.lorst = (u.stepLorst high).safe.lorst := by
  simp only [SafeState.lorst, Prod.mk.injEq] at h
  obtain ⟨hstate, hlow, hhigh⟩ := h
  unfold State.stepLorst SafeState.lorst
  dsimp only
  rw [hstate, hlow, hhigh]
  split <;> split <;> simp [hstate, hlow, hhigh]

theorem State.stepLorst_lockout (s : State) (high : Bool) : (s.stepLorst high).safe.lockout = s.safe.lockout := by
  unfold State.stepLorst
  dsimp only
  split <;> split <;> rfl

/-! ### The tick (R364, R369, R378) -/

/-- Disagreements counted at a tick (R369). -/
def State.countDisagreements (s : State) : State :=
  let ins := s.safe.ins.zipIdx.map fun (x : SafeIn × Nat) =>
    if s.inEnabled x.2 && s.inSt x.2 == 2 then { x.1 with discMs := x.1.discMs + 1 } else x.1
  { s with safe := { s.safe with ins := ins } }

/-- Economy duties that follow the voltage that is measured (R373). -/
def State.followAux (s : State) : State :=
  let u := if s.safe.outs.any (·.econ) then s.measureAux else s
  let outs := u.safe.outs.map fun (o : SafeOut) =>
    if o.econ then { o with duty := u.econDuty ((u.power.vAux : Rat) / 100) } else o
  { u with safe := { u.safe with outs := outs } }

/-- A demand of an enabled input (R375). -/
def State.demands (s : State) : Bool := (List.range 4).any fun i => s.inEnabled i && s.inSt i == 1

/-- Counting disagreements does not change the state of an input. -/
theorem State.inSt_countDisagreements (s : State) (i : Nat) : s.countDisagreements.inSt i = s.inSt i := by
  unfold State.inSt
  show ((s.countDisagreements.safe.ins[i]?).map fun x => x.st (s.inAnti i)).getD 3 = _
  unfold State.countDisagreements
  rw [List.getElem?_map, List.getElem?_zipIdx, Option.map_map, Option.map_map]
  congr 2
  funext x
  dsimp only [Function.comp]
  split <;> rfl

theorem State.demands_countDisagreements (s : State) : s.countDisagreements.demands = s.demands := by
  unfold State.demands
  congr 1
  funext i
  rw [State.inSt_countDisagreements]
  rfl

/-- What a tick does at a gateway once the committed fields are taken. -/
def State.gatewayTick (w : State) (lorst : Bool) : State :=
  let u := w.countDisagreements
  let v := if u.demands then u.latch 7 else u
  (v.stepLorst lorst).followAux.evalOuts.heartResume

section
variable {t : Nat} {lorst : Bool} {s : State} (ht : t % 1000000 = 0) (hs : s.part.serving = true) (hh : s.part.hubHeld = false)
  (hr : s.inRunDoze = true)
include ht hs hh hr

theorem execSafetyTick_module (hg : ((s.at_ t).takeBlock 0x14 0).isGateway = false) :
    exec (.safetyTick t lorst) s = .next ((s.at_ t).takeBlock 0x14 0).heartResume := by
  show execSafetyTick t lorst s = _
  unfold execSafetyTick
  dsimp only
  rw [if_neg (by simp [ht, hs, hh, hr]), if_pos (by simp [hg])]

theorem execSafetyTick_gateway (hg : ((s.at_ t).takeBlock 0x14 0).isGateway = true) :
    exec (.safetyTick t lorst) s = .next (((s.at_ t).takeBlock 0x14 0).gatewayTick lorst) := by
  show execSafetyTick t lorst s = _
  unfold execSafetyTick
  dsimp only
  rw [if_neg (by simp [ht, hs, hh, hr]), if_neg (by simp [hg])]
  rfl

end

theorem State.followAux_sensed (s : State) : s.followAux.sensed = s.sensed := by
  unfold State.followAux
  dsimp only
  split <;> rfl

theorem State.followAux_lockout (s : State) : s.followAux.safe.lockout = s.safe.lockout := by
  unfold State.followAux
  dsimp only
  split <;> rfl

theorem State.gatewayTick_lorst (w : State) (lorst : Bool) : (w.gatewayTick lorst).safe.lorst = (w.stepLorst lorst).safe.lorst := by
  have demanded : (if w.countDisagreements.demands then w.countDisagreements.latch 7 else w.countDisagreements).safe.lorst = w.safe.lorst :=
    view_ite (fun u => u.safe.lorst) ((State.lorst_of_sensed (State.latch_sensed w.countDisagreements 7)).trans rfl) rfl
  have after (u : State) : u.followAux.evalOuts.heartResume.safe.lorst = u.safe.lorst :=
    State.lorst_of_sensed ((State.heartResume_sensed _).trans ((State.evalOuts_sensed _).trans (State.followAux_sensed _)))
  exact (after _).trans (State.stepLorst_lorst lorst demanded)

theorem State.gatewayTick_lockout {w : State} (lorst : Bool) (hg : w.isGateway = true) {i : Nat} (hi : i < 4) (hen : w.inEnabled i = true)
    (hst : w.inSt i = 1) : (w.gatewayTick lorst).safe.lockout = true := by
  have hdem : w.countDisagreements.demands = true := by
    rw [State.demands_countDisagreements]
    exact List.any_eq_true.2 ⟨i, List.mem_range.2 hi, by simp [hen, hst]⟩
  unfold State.gatewayTick
  dsimp only
  rw [State.heartResume_lockout, State.evalOuts_lockout, State.followAux_lockout, State.stepLorst_lockout, if_pos hdem]
  exact State.latch_lockout 7 hg

/-! ### Samples, pulses and discrepancies (R367 to R370) -/

theorem execSafetyInputSample_of {t : Nat} {levels fb tp : List Bool} {s : State} (hs : s.safeRuns = true) (ht : t % 100000 = 0)
    (hslice : (((s.selfTest[0]?).bind (·.slice)).map (·.1)) ≠ some 0x1001) : exec (.safetyInputSample t levels fb tp) s =
      .next (((List.range 3).foldl (fun (u : State) k => u.stepFeedback fb k) ((List.range 4).foldl (fun (u : State) i => u.stepInput levels i)
        ((((s.at_ t).endPulse 0).endPulse 1).stepTests levels tp))).evalOuts) := by
  show execSafetyInputSample t levels fb tp s = _
  unfold execSafetyInputSample
  dsimp only
  rw [show (s.at_ t).safeRuns = s.safeRuns from rfl, show (s.at_ t).selfTest = s.selfTest from rfl, beq_eq_false_iff_ne.2 hslice,
    if_neg (by simp [hs, ht])]

theorem execTestPulseStart_of {t out : Nat} {s : State} (hs : s.safeRuns = true) (hout : out = 1 ∨ out = 2)
    (hp : (s.at_ t).pulseNear (out - 1) 0 = some t) : exec (.testPulseStart t out) s =
      .next (({ s.at_ t with safe := { s.safe with pulseEnd := setNth (out - 1) (some (t + 500000)) s.safe.pulseEnd } } : State).emit
        (.pad (3 + out) 0)) := by
  show execTestPulseStart t out s = _
  unfold execTestPulseStart
  dsimp only
  rw [hp, show (s.at_ t).safeRuns = s.safeRuns from rfl, if_neg (by obtain rfl | rfl := hout <;> simp [hs])]
  rfl

theorem getElem?_setNth_same {α : Type} {i : Nat} {a : α} (b : α) {l : List α} (h : l[i]? = some a) : (setNth i b l)[i]? = some b := by
  unfold setNth
  rw [modNth_getElem?_same, h]
  rfl

theorem State.ins_of_sensed {s u : State} (h : s.sensed = u.sensed) : s.safe.ins = u.safe.ins :=
  (congrArg SafeState.ins h : s.sensed.ins = u.sensed.ins)

theorem execDiscrepancyLatch_shows {t i : Nat} {x : SafeIn} {s : State} (hi : 1 ≤ i) (hx : s.safe.ins[i - 1]? = some x)
    (hs : s.safeRuns = true) (hen : s.inEnabled (i - 1) = true) (hst : s.inSt (i - 1) = 2) (hl : x.latched = false)
    (hd : s.discLimit (i - 1) ≤ x.discMs) : Runs (.discrepancyLatch t i) s fun s' =>
      s'.safe.lockout = true ∧ s'.safe.ins[i - 1]? = some { x with latched := true, needDemand := true } := by
  refine ⟨_, rfl, ?_⟩
  dsimp only
  rw [show (s.at_ t).safe.ins[i - 1]? = some x from hx]
  dsimp only
  rw [show (s.at_ t).safeRuns = s.safeRuns from rfl, show (s.at_ t).inEnabled (i - 1) = s.inEnabled (i - 1) from rfl,
    show (s.at_ t).inSt (i - 1) = s.inSt (i - 1) from rfl, show (s.at_ t).discLimit (i - 1) = s.discLimit (i - 1) from rfl,
    if_neg (by simp [hs, hen, hst, hl, Nat.not_lt.2 hd]; omega)]
  refine ⟨State.latch_lockout 7 ((State.event_isGateway ..).trans (State.isGateway_of_safeRuns hs)), ?_⟩
  rw [State.ins_of_sensed ((State.latch_sensed ..).trans (State.event_sensed ..))]
  exact getElem?_setNth_same _ hx

/-- Settles O23: a tick and a sample are what the model has of them, and a lock-out, the outputs and the heartbeat leave the inputs and
LORST_N as the clauses show them. -/
theorem safetySamplingCommandsComplete : Obligations.SafetySamplingCommandsComplete := by
  refine ⟨?_, fun t levels fb tp s hs ht hslice => ⟨_, execSafetyInputSample_of hs ht hslice, rfl⟩,
    fun t out s hs hout hp => ⟨_, execTestPulseStart_of hs hout hp, rfl, rfl⟩,
    fun t i x s hi hx hs hen hst hl hd => execDiscrepancyLatch_shows hi hx hs hen hst hl hd⟩
  rintro t lorst s w rfl ht hs hh hr
  exact ⟨fun hg => ⟨_, execSafetyTick_module ht hs hh hr hg, rfl⟩, fun hg => ⟨_, execSafetyTick_gateway ht hs hh hr hg,
    State.gatewayTick_lorst _ lorst, fun i hi hen hst => State.gatewayTick_lockout lorst hg hi hen hst⟩⟩

/-! ### Output faults (R372) -/

/-- Output k is off and has carried an overcurrent. -/
def tripped (k : Nat) (outs : List SafeOut) : Prop := ∃ o, outs[k]? = some o ∧ o.on = false ∧ o.overcurrent = true

theorem State.setOut_tripped {k : Nat} (s : State) (j : Nat) (h : tripped k s.safe.outs) : tripped k (s.setOut j false).safe.outs := by
  obtain ⟨o, ho, hoff, hover⟩ := h
  unfold State.setOut
  split
  · exact ⟨o, ho, hoff, hover⟩
  · by_cases hj : k = j
    · subst hj
      exact ⟨_, (modNth_getElem?_same ..).trans (congrArg _ ho), rfl, hover⟩
    · exact ⟨o, (modNth_getElem?_other _ _ hj).trans ho, hoff, hover⟩

theorem State.latch_tripped {k : Nat} {s : State} (cause : Nat) (h : tripped k s.safe.outs) : tripped k (s.latch cause).safe.outs := by
  have off (l : List Nat) (u : State) (hu : tripped k u.safe.outs) : tripped k (l.foldl (fun s k => s.setOut k false) u).safe.outs := by
    induction l generalizing u with
    | nil => exact hu
    | cons j l ih => exact ih _ (State.setOut_tripped u j hu)
  unfold State.latch
  split
  · exact h
  · split
    · split <;> exact h
    · rw [State.event_safe, State.heartStop_safe]
      exact off _ _ h

/-- Switching off and marking an output that is there trips it. -/
theorem State.setOut_off_tripped {s : State} {k : Nat} {o : SafeOut} (ho : s.safe.outs[k]? = some o) :
    tripped k (modNth (fun o => { o with overcurrent := true }) k (s.setOut k false).safe.outs) := by
  have hoff := State.setOut_outOn s k k false
  have hlen : k < s.safe.outs.length := (List.getElem?_eq_some_iff.1 ho).1
  rw [if_pos ⟨rfl, hlen⟩] at hoff
  obtain ⟨x, hx⟩ : ∃ x, (s.setOut k false).safe.outs[k]? = some x :=
    ⟨_, List.getElem?_eq_getElem (by rw [State.setOut_length]; exact hlen)⟩
  unfold State.outOn at hoff
  rw [hx] at hoff
  exact ⟨_, (modNth_getElem?_same ..).trans (congrArg _ hx), hoff, rfl⟩

theorem State.outOn_of {s : State} {k : Nat} {o : SafeOut} (h : s.safe.outs[k]? = some o) : s.outOn k = o.on := by
  unfold State.outOn
  rw [h]
  rfl

section
variable {t k : Nat} {o : SafeOut} {s : State} (hk : 1 ≤ k) (ho : s.safe.outs[k - 1]? = some o)
include hk ho

theorem execOutputOvercurrent_shows (hon : o.on = true) (hs : o.since + 2000000 ≤ s.clock t) :
    Runs (.outputOvercurrent t k) s fun s' => s'.outOn (k - 1) = false ∧ (s'.safe.outs[k - 1]?).map (·.overcurrent) = some true ∧
      (s.isGateway = true → s'.safe.lockout = true) := by
  refine ⟨_, rfl, ?_⟩
  dsimp only
  rw [show (s.at_ t).safe.outs[k - 1]? = some o from ho, show (s.at_ t).outOn (k - 1) = true from (State.outOn_of ho).trans hon,
    show (s.at_ t).now = s.clock t from rfl]
  dsimp only [Option.map_some, Option.getD_some]
  rw [if_neg (by simp [hs]; omega)]
  have htrip := State.latch_tripped 15 (s := State.event _ { source := 15, subkind := 1, item := k })
    ((State.event_safe ..).symm ▸ State.setOut_off_tripped (s := s.at_ t) ho :
      tripped (k - 1) (State.event { (s.at_ t).setOut (k - 1) false with safe := { ((s.at_ t).setOut (k - 1) false).safe with
        outs := modNth (fun o => { o with overcurrent := true }) (k - 1) ((s.at_ t).setOut (k - 1) false).safe.outs } } _).safe.outs)
  obtain ⟨x, hx, hoff, hover⟩ := htrip
  refine ⟨(State.outOn_of hx).trans hoff, ?_, fun hg => State.latch_lockout 15 ?_⟩
  · rw [hx]
    exact congrArg some hover
  · rw [State.event_isGateway]
    exact (State.setOut_isGateway (s.at_ t) (k - 1) false).trans hg

theorem execOutputOpenLoad_shows (hon : o.on = true) (hl : o.openLoad = false) (hs : o.since + 100000000 ≤ s.clock t) :
    Runs (.outputOpenLoad t k) s fun s' => s'.safe.outs[k - 1]? = some { o with openLoad := true } := by
  refine ⟨_, rfl, ?_⟩
  dsimp only
  rw [show (s.at_ t).safe.outs[k - 1]? = some o from ho, show (s.at_ t).outOn (k - 1) = true from (State.outOn_of ho).trans hon,
    show (s.at_ t).now = s.clock t from rfl]
  dsimp only [Option.map_some, Option.getD_some]
  rw [if_neg (by simp [hs, hl]; omega), State.event_safe]
  exact (modNth_getElem?_same ..).trans (congrArg _ ho)

theorem execOutputEconomyStart_shows {vaux : Rat} (hon : o.on = true) (hs : o.since + s.sF 0x010 23 16 * 10000000 ≤ t) :
    Runs (.outputEconomyStart t k vaux) s fun s' => s'.safe.outs[k - 1]? = some { o with econ := true, duty := (s.at_ t).econDuty vaux } := by
  refine ⟨_, rfl, ?_⟩
  dsimp only
  rw [show (s.at_ t).safe.outs[k - 1]? = some o from ho]
  dsimp only
  rw [show (s.at_ t).sF = s.sF from rfl, if_neg (by simp [hs, hon]; omega)]
  exact getElem?_setNth_same _ ho

theorem execFeedbackTimeout_shows (hs : s.safeRuns = true) (hb : bit (s.sF 0x010 6 4) (k - 1) = true)
    (hf : (o.on = true ∧ o.since + 50000000 ≤ t ∧ s.fbClosed (k - 1) = false) ∨
      (o.on = false ∧ (o.since + 50000000 ≤ t ∨ o.switched = false) ∧ s.fbClosed (k - 1) = true)) :
    Runs (.feedbackTimeout t k) s fun s' => s'.safe.lockout = true := by
  have locks (e : Ev) : (((s.at_ t).event e).latch 9).safe.lockout = true :=
    State.latch_lockout 9 ((State.event_isGateway ..).trans (State.isGateway_of_safeRuns hs))
  refine ⟨_, rfl, ?_⟩
  dsimp only
  rw [show (s.at_ t).safe.outs[k - 1]? = some o from ho]
  dsimp only
  rw [show (s.at_ t).sF = s.sF from rfl, show (s.at_ t).safeRuns = s.safeRuns from rfl, show (s.at_ t).fbClosed = s.fbClosed from rfl,
    if_neg (by simp [hs, hb]; omega)]
  obtain ⟨hon, hd, hc⟩ | ⟨hoff, hd, hc⟩ := hf
  · rw [if_pos (by simp [hon, hd, hc])]
    exact locks _
  · rw [if_neg (by simp [hoff]), if_pos (by obtain h | h := hd <;> simp [hoff, h, hc])]
    exact locks _

end

/-! ### LORST_N at its edges (R377, R378) -/

/-- A low of LORST_N ends (R378). -/
def State.lowEnds (s : State) : State := { s with safe := { s.safe with lorstState := 3, lorstHigh := 0, lorstLow := 0 } }

theorem State.releaseLockout_sensed (s : State) : s.releaseLockout.sensed = s.sensed := by
  unfold State.releaseLockout
  dsimp only
  rw [State.heartResume_sensed, State.event_sensed]
  rfl

theorem State.lorstState_of_sensed {s u : State} (h : s.sensed = u.sensed) : s.safe.lorstState = u.safe.lorstState :=
  (congrArg SafeState.lorstState h : s.sensed.lorstState = u.sensed.lorstState)

theorem State.released_lorstState (s : State) (e : Ev) : (s.event e).releaseLockout.safe.lorstState = s.safe.lorstState := by
  rw [State.lorstState_of_sensed (State.releaseLockout_sensed _), State.event_safe]

theorem execLorstReleaseEdge_of {t : Nat} {s : State} (hs : s.safeRuns = true) (hl : s.safe.lorstState = 1) :
    exec (.lorstReleaseEdge t) s = .next (if !s.safe.lockout then (s.at_ t).lowEnds
      else if 50 ≤ s.safe.lorstLow && s.safe.lorstLow ≤ 5000 && (s.at_ t).releasable then
        ((s.at_ t).lowEnds.event { source := 14, subkind := 1 }).releaseLockout
      else (s.at_ t).lowEnds.event { source := 14, subkind := 2 }) := by
  show execLorstReleaseEdge t s = _
  unfold execLorstReleaseEdge
  dsimp only
  rw [if_neg (by
    rw [show (s.at_ t).safeRuns = true from hs, show (s.at_ t).safe.lorstState = 1 from hl]
    simp)]
  rfl

theorem execLorstReleaseEdge_shows {t : Nat} {s : State} (hs : s.safeRuns = true) (hl : s.safe.lorstState = 1) :
    Runs (.lorstReleaseEdge t) s fun s' => s'.safe.lorstState = 3 ∧
      s'.safe.lockout = (s.safe.lockout && !(decide (50 ≤ s.safe.lorstLow) && decide (s.safe.lorstLow ≤ 5000) && (s.at_ t).releasable)) := by
  refine ⟨_, execLorstReleaseEdge_of hs hl, ?_⟩
  cases hlock : s.safe.lockout with
  | false => exact ⟨rfl, hlock⟩
  | true =>
    rw [if_neg (by simp)]
    split
    · next h =>
      rw [h, State.releaseLockout_lockout]
      exact ⟨State.released_lorstState .., rfl⟩
    · next h =>
      rw [eq_false_of_ne_true h, State.event_safe]
      exact ⟨rfl, hlock⟩

theorem execLorstHeld_shows {t : Nat} {s : State} (hs : s.safeRuns = true) (hl : s.safe.lorstState = 1) (hn : 5000 < s.safe.lorstLow) :
    Runs (.lorstHeld t) s fun s' => s'.safe.lorstState = 2 ∧ s'.safe.lockout = s.safe.lockout := by
  refine ⟨_, rfl, ?_⟩
  dsimp only
  rw [if_neg (by
    rw [show (s.at_ t).safeRuns = true from hs, show (s.at_ t).safe.lorstState = 1 from hl,
      show (s.at_ t).safe.lorstLow = s.safe.lorstLow from rfl]
    simp [hn])]
  split
  · rw [State.event_safe]
    exact ⟨rfl, rfl⟩
  · exact ⟨rfl, rfl⟩

/-- Settles O25: each clause is the one that the command's own equation shows; a lock-out trips no output back on. -/
theorem safetyOutputCommandsComplete : Obligations.SafetyOutputCommandsComplete :=
  ⟨fun _ _ _ _ hk ho hon hs => execOutputOvercurrent_shows hk ho hon hs, fun _ _ _ _ hk ho hon hl hs => execOutputOpenLoad_shows hk ho hon hl hs,
    fun _ _ _ _ _ hk ho hon hs => execOutputEconomyStart_shows hk ho hon hs, fun _ _ _ _ hk ho hs hb hf => execFeedbackTimeout_shows hk ho hs hb hf,
    fun _ _ hs hl => execLorstReleaseEdge_shows hs hl, fun _ _ hs hl hn => execLorstHeld_shows hs hl hn⟩

end Sys2Proof.Machine
end

section
/-! The power block: inputs, rails, the hold capacitor, and the sequences of power-up and of power-down (R394 to R402, R406 to R412,
R418). -/

namespace Sys2Proof.Machine

/-! ### Rails (R399) -/

/-- A rail that is on, ramps, discharges or is faulted is one of the part's. -/
theorem State.rail_getElem? {s : State} {i : Nat} (h : (s.rail i).st ≠ 0) : s.power.rails[i]? = some (s.rail i) := by
  unfold State.rail at h ⊢
  rw [List.getD_eq_getElem?_getD] at h ⊢
  cases hr : s.power.rails[i]? with
  | some r => rfl
  | none =>
    rw [hr] at h
    exact absurd rfl h

theorem State.rail_of {s : State} {i : Nat} {r : Rail} (h : s.power.rails[i]? = some r) : s.rail i = r := by
  unfold State.rail
  rw [List.getD_eq_getElem?_getD, h]
  rfl

theorem State.rail_congr {s u : State} (h : s.power = u.power) (i : Nat) : s.rail i = u.rail i := by
  unfold State.rail
  rw [h]

theorem State.rail_modRail {s : State} {i : Nat} (f : Rail → Rail) (h : (s.rail i).st ≠ 0) : (s.modRail i f).rail i = f (s.rail i) :=
  State.rail_of ((modNth_getElem?_same ..).trans (congrArg _ (State.rail_getElem? h)))

theorem State.rails_getElem?_modRail {s : State} {i : Nat} {r : Rail} (f : Rail → Rail) (h : s.power.rails[i]? = some r) :
    (s.modRail i f).power.rails[i]? = some (f r) := (modNth_getElem?_same ..).trans (congrArg _ h)

/-- The power block apart from its rails. -/
def PowerState.sansRails (p : PowerState) : PowerState := { p with rails := [] }

/-- Counting a fault changes the counters of a rail, and nothing else of the power block. -/
theorem State.countRail_sansRails (s : State) (i kind : Nat) : (s.countRail i kind).power.sansRails = s.power.sansRails := by
  unfold State.countRail
  rw [State.event_power]
  rfl

/-- What a sequence goes by: its direction, its rail, its target and the attempts, and the state of the power block. -/
def PowerState.sequence (p : PowerState) : Nat × Nat × Nat × Nat × Nat × Nat := (p.seqDir, p.seqRail, p.seqTo, p.attempts, p.st, p.lastSt)

/-- What the hold capacitor shows. -/
def PowerState.hold (p : PowerState) : Bool × Bool × Bool × Nat := (p.holdOk, p.holdDone, p.holdReported, p.vHold)

theorem PowerState.sequence_of {p q : PowerState} (h : p.sansRails = q.sansRails) : p.sequence = q.sequence :=
  (congrArg PowerState.sequence h : p.sansRails.sequence = q.sansRails.sequence)

theorem PowerState.hold_of {p q : PowerState} (h : p.sansRails = q.sansRails) : p.hold = q.hold :=
  (congrArg PowerState.hold h : p.sansRails.hold = q.sansRails.hold)

/-- Counting a fault leaves what a rail stands at. -/
theorem State.countRail_rail_st {s : State} {i : Nat} (kind j : Nat) {r : Rail} (h : s.power.rails[i]? = some r) :
    ((s.countRail j kind).rail i).st = r.st := by
  unfold State.countRail
  rw [State.rail_congr (State.event_power ..)]
  by_cases hj : i = j
  · subst hj
    rw [State.rail_of (State.rails_getElem?_modRail _ h)]
    split <;> rfl
  · rw [State.rail_of ((modNth_getElem?_other _ _ hj).trans h)]

/-! ### Which inputs are valid (R394, R395) -/

/-- The validity of VAUX and of VIN. -/
def State.inputs (s : State) : Bool × Bool := (s.power.vauxOk, s.power.vinOk)

theorem State.inputs_of_power {s u : State} (h : s.power = u.power) : s.inputs = u.inputs :=
  congrArg (fun p : PowerState => (p.vauxOk, p.vinOk)) h

theorem State.inputs_modPower (s : State) {f : PowerState → PowerState} (h : ∀ p, ((f p).vauxOk, (f p).vinOk) = (p.vauxOk, p.vinOk)) :
    (s.modPower f).inputs = s.inputs := h s.power

theorem State.steady_power {s u : State} (h : s.steady = u.steady) : s.power = u.power := congrArg Steady.power h

theorem State.tearWrites_power (s : State) : s.tearWrites.power = s.power :=
  State.steady_power (State.modDies_steady s fun _ d => (rfl : (Die.tearWrites s.now d).switches = d.switches))

theorem State.downDone_inputs (s : State) : s.downDone.inputs = s.inputs := by
  unfold State.downDone
  dsimp only
  split
  · exact (State.inputs_modPower _ fun _ => rfl).trans ((State.inputs_of_power (State.tearWrites_power _)).trans rfl)
  · split <;> exact (State.inputs_modPower _ fun _ => rfl).trans rfl

theorem State.downStep_inputs (s : State) : s.downStep.inputs = s.inputs := by
  unfold State.downStep
  split
  · exact State.downDone_inputs s
  · rfl

theorem State.startDown_inputs (s : State) (target : Nat) : (s.startDown target).inputs = s.inputs :=
  view_ite State.inputs rfl ((State.downStep_inputs _).trans rfl)

theorem State.enableNext_inputs (s : State) : s.enableNext.inputs = s.inputs := by
  unfold State.enableNext
  split <;> rfl

theorem State.startUp_inputs (s : State) : s.startUp.inputs = s.inputs := (State.enableNext_inputs _).trans rfl

theorem State.ageStates_inputs (s : State) : s.ageStates.inputs = s.inputs := by
  unfold State.ageStates
  extract_lets days add cell
  split
  · rfl
  · refine congrArg (fun x : Steady => (x.power.vauxOk, x.power.vinOk)) (State.modDies_steady _ ?_)
    exact fun _ _ => rfl

theorem State.wake_inputs (s : State) (code : Nat) : (s.wake code).inputs = s.inputs := by
  refine view_ite State.inputs rfl (view_ite State.inputs rfl ?_)
  dsimp only
  exact view_ite State.inputs ((State.ageStates_inputs _).trans rfl) ((State.startUp_inputs _).trans ((State.ageStates_inputs _).trans rfl))

theorem State.raiseWarning_inputs (s : State) (item : Nat) : (s.raiseWarning item).inputs = s.inputs :=
  view_ite State.inputs rfl ((State.inputs_of_power (State.event_power ..)).trans rfl)

theorem State.inputsGone_inputs (s : State) (which : Nat) : (s.inputsGone which).inputs = s.inputs :=
  view_ite State.inputs (State.raiseWarning_inputs ..) (view_ite State.inputs rfl ((State.startDown_inputs ..).trans rfl))

theorem State.evalOuts_inputs (s : State) : s.evalOuts.inputs = s.inputs := State.inputs_of_power (State.steady_power (State.evalOuts_steady s))

/-- Judging an input sets its validity, the source follows, and the other input's stays. -/
theorem State.setInput_inputs (s : State) (which : Nat) (v : Rat) (ok : Bool) :
    (((s.noteInput which v).setInput which ok).chooseSrc).inputs = if which = 0 then (ok, s.power.vinOk) else (s.power.vauxOk, ok) := by
  unfold State.chooseSrc State.setInput State.noteInput State.inputs State.modPower
  dsimp only
  split <;> rfl

section
variable {t which : Nat} {v : Rat} {s : State} (hw : which ≤ 1)
include hw

theorem execInputValid_shows (hv : inputRises which v = true) : Runs (.inputValid t which v) s fun s' =>
    s'.inputs = if which = 0 then (true, s.power.vinOk) else (s.power.vauxOk, true) := by
  refine ⟨_, rfl, ?_⟩
  dsimp only
  rw [if_neg (by simp [hv, hw])]
  refine Eq.trans ?_ (State.setInput_inputs (s.at_ t) which v true)
  generalize ((s.at_ t).noteInput which v).setInput which true = u
  have chosen : (if (!(s.at_ t).inputOk) = true then u.chooseSrc.modPower fun p =>
      { p with restartAt := p.restartAt.map fun a => max a (t + restartWait p.restartIdx) } else u.chooseSrc).inputs = u.chooseSrc.inputs :=
    view_ite State.inputs (State.inputs_modPower _ fun _ => rfl) rfl
  exact view_ite State.inputs ((State.wake_inputs ..).trans ((State.evalOuts_inputs _).trans chosen)) ((State.evalOuts_inputs _).trans chosen)

theorem execInputInvalid_shows (hv : inputFalls which v = true) : Runs (.inputInvalid t which v) s fun s' =>
    s'.inputs = if which = 0 then (false, s.power.vinOk) else (s.power.vauxOk, false) := by
  refine ⟨_, rfl, ?_⟩
  dsimp only
  rw [if_neg (by simp [hv, hw])]
  refine Eq.trans ?_ (State.setInput_inputs (s.at_ t) which v false)
  exact view_ite State.inputs ((State.inputsGone_inputs ..).trans (State.evalOuts_inputs _)) (State.evalOuts_inputs _)

end

/-! ### Faults and retries of rails (R399, R400) -/

theorem execRailFault_of {t rail kind : Nat} {s : State} (hlo : 1 ≤ kind) (hhi : kind ≤ 3) (hr : rail < 13)
    (htest : s.supervisorsTested = false) (hst : (s.rail rail).st = 2) :
    exec (.railFault t rail kind) s = .next ((s.at_ t).railFault rail kind) := by
  show execRailFault t rail kind s = _
  unfold execRailFault State.judgeFault
  dsimp only
  rw [if_neg (by simp; omega), show (s.at_ t).supervisorsTested = false from htest, if_neg (by simp), if_neg (by omega),
    show (s.at_ t).rail rail = s.rail rail from rfl, if_pos hst]

theorem execRailFault_hold {t : Nat} {s : State} (htest : s.supervisorsTested = false) (hst : (s.rail 13).st ≠ 0) :
    exec (.railFault t 13 2) s = .next ((s.at_ t).railFault 13 2) := by
  show execRailFault t 13 2 s = _
  unfold execRailFault State.judgeFault
  dsimp only
  rw [if_neg (by simp), show (s.at_ t).supervisorsTested = false from htest, if_neg (by simp), if_pos rfl, if_pos]
  simpa using hst

theorem execRailRetry_shows {t rail : Nat} {s : State} (hst : (s.rail rail).st = 4) (hrun : s.inRunDoze = true)
    (hserve : s.part.serving = true) (hwarn : s.power.warnAt = none)
    (hdue : ((rail = 6 ∨ rail = 8 ∨ rail = 9) ∧ (s.rail rail).retried = false ∧ (s.rail rail).faultAt + 1000000000 ≤ t) ∨
      (10 ≤ rail ∧ rail ≤ 12 ∧ (s.rail rail).faultAt + s.pwF 8 31 16 * 1000000000 ≤ t)) :
    Runs (.railRetry t rail) s fun s' => (s'.rail rail).st = 1 ∧ (s'.rail rail).retried = true := by
  refine ⟨_, rfl, ?_⟩
  dsimp only
  rw [show (s.at_ t).rail rail = s.rail rail from rfl, show (s.at_ t).pwF 8 31 16 = s.pwF 8 31 16 from rfl,
    show (s.at_ t).inRunDoze = s.inRunDoze from rfl, show (s.at_ t).part.serving = s.part.serving from rfl,
    show (s.at_ t).power.warnAt = s.power.warnAt from rfl, if_neg (by
      obtain ⟨rfl | rfl | rfl, hretry, hwait⟩ | ⟨hlo, hhi, hwait⟩ := hdue
      · simp [hst, hretry, hwait, hrun, hserve, hwarn]
      · simp [hst, hretry, hwait, hrun, hserve, hwarn]
      · simp [hst, hretry, hwait, hrun, hserve, hwarn]
      · rw [hst, hrun, hserve, hwarn, show (decide (rail = 6) || decide (rail = 8) || decide (rail = 9)) = false by simp; omega]
        simp [hlo, hhi, hwait])]
  rw [State.rail_modRail _ (by rw [show (s.at_ t).rail rail = s.rail rail from rfl, hst]; decide)]
  exact ⟨rfl, rfl⟩

theorem State.copyCounters_copies (s : State) : s.copyCounters.power.copies = s.power.rails.map fun r => (r.uv, r.ov, r.oc, r.tmo) := by
  unfold State.copyCounters
  rw [State.blackBox_power]
  rfl

theorem State.copyCounters_copyRun (s : State) : s.copyCounters.power.copyRun = s.power.copyRun := by
  unfold State.copyCounters
  rw [State.blackBox_power]
  rfl

theorem execRailCounterCopy_shows {t : Nat} {s w : State} (hw : w = (s.at_ t).accrueTest) (hrun : s.inRun = true)
    (hserve : s.part.serving = true) (hwarn : s.power.warnAt = none) (hdue : s.power.copyRun + 3600000000000 ≤ w.runClock) :
    Runs (.railCounterCopy t) s fun s' =>
      s'.power.copies = s.power.rails.map (fun r => (r.uv, r.ov, r.oc, r.tmo)) ∧ s'.power.copyRun = w.runClock := by
  subst hw
  refine ⟨_, rfl, ?_⟩
  dsimp only
  rw [show (s.at_ t).accrueTest.inRun = s.inRun from rfl, show (s.at_ t).accrueTest.part.serving = s.part.serving from rfl,
    show (s.at_ t).accrueTest.power = s.power from rfl, if_neg (by simp [hrun, hserve, hwarn, hdue])]
  exact ⟨State.copyCounters_copies _, State.copyCounters_copyRun _⟩

/-! ### The hold capacitor (R401, R402) -/

/-- The hold capacitor is charged to `mv` (R402). -/
def State.holdFull (s : State) (mv : Nat) : State :=
  ((s.modPower fun p => { p with holdOk := true, holdDone := true, holdReported := false, vHold := mv }).modRail 13
    fun r => { r with st := 2 }).setHoldEff

theorem State.holdFull_hold (s : State) (mv : Nat) : (s.holdFull mv).power.hold = (true, true, false, mv) := rfl

theorem State.holdFull_rail {s : State} (mv : Nat) (h : (s.rail 13).st ≠ 0) : ((s.holdFull mv).rail 13).st = 2 :=
  congrArg Rail.st (State.rail_of (State.rails_getElem?_modRail (s := s) _ (State.rail_getElem? h)))

theorem execHoldCharged_of {t mv : Nat} {s : State} (hen : s.holdEn = true) (hrun : s.inRunDoze = true) (hok : s.power.holdOk = false)
    (hst : (s.rail 13).st ≠ 0) (hmv : s.holdMv ≤ mv + 200) : exec (.holdCharged t mv) s =
      .next (if s.power.holdReported then ((s.at_ t).holdFull mv).event { source := 53, subkind := 2 } else (s.at_ t).holdFull mv) := by
  show execHoldCharged t mv s = _
  unfold execHoldCharged
  dsimp only
  rw [show (s.at_ t).holdEn = s.holdEn from rfl, show (s.at_ t).inRunDoze = s.inRunDoze from rfl, show (s.at_ t).power = s.power from rfl,
    show (s.at_ t).rail 13 = s.rail 13 from rfl, show (s.at_ t).holdMv = s.holdMv from rfl,
    if_neg (by simp [hen, hrun, hok, hst, hmv])]
  rfl

theorem execHoldCharged_shows {t mv : Nat} {s : State} (hen : s.holdEn = true) (hrun : s.inRunDoze = true) (hok : s.power.holdOk = false)
    (hst : (s.rail 13).st ≠ 0) (hmv : s.holdMv ≤ mv + 200) : Runs (.holdCharged t mv) s fun s' =>
      s'.power.holdOk = true ∧ s'.power.holdDone = true ∧ s'.power.vHold = mv ∧ (s'.rail 13).st = 2 := by
  refine ⟨_, execHoldCharged_of hen hrun hok hst hmv, ?_⟩
  have hpower (c : Bool) (u : State) (e : Ev) : (if c then u.event e else u).power = u.power :=
    view_ite State.power (State.event_power u e) rfl
  beta_reduce
  rw [State.rail_congr (hpower ..), hpower]
  have hfull := State.holdFull_hold (s.at_ t) mv
  simp only [PowerState.hold, Prod.mk.injEq] at hfull
  obtain ⟨hok, hdone, -, hv⟩ := hfull
  exact ⟨hok, hdone, hv, State.holdFull_rail mv hst⟩

theorem execHoldLow_shows {t mv : Nat} {s : State} (hen : s.holdEn = true) (hrun : s.inRunDoze = true) (hok : s.power.holdOk = true)
    (hmv : mv + 500 < s.holdMv) : Runs (.holdLow t mv) s fun s' => s'.power.holdOk = false ∧ s'.power.vHold = mv := by
  refine ⟨_, rfl, ?_⟩
  dsimp only
  rw [show (s.at_ t).holdEn = s.holdEn from rfl, show (s.at_ t).inRunDoze = s.inRunDoze from rfl, show (s.at_ t).power = s.power from rfl,
    show (s.at_ t).holdMv = s.holdMv from rfl, if_neg (by simp [hen, hrun, hok]; omega)]
  have hkept := PowerState.hold_of (State.countRail_sansRails
    (((s.at_ t).modPower fun p => { p with holdOk := false, vHold := mv }).setHoldEff) 13 1)
  simp only [PowerState.hold, Prod.mk.injEq] at hkept
  obtain ⟨hok, -, -, hv⟩ := hkept
  exact ⟨hok, hv⟩

theorem execHoldChargeTimeout_shows {t : Nat} {s : State} (hen : s.holdEn = true) (hrun : s.inRunDoze = true)
    (hdone : s.power.holdDone = false) (hdue : s.power.vsysAt + 60000000000 ≤ t) :
    Runs (.holdChargeTimeout t) s fun s' => s'.power.holdDone = true ∧ s'.power.holdReported = true := by
  refine ⟨_, rfl, ?_⟩
  dsimp only
  rw [show (s.at_ t).holdEn = s.holdEn from rfl, show (s.at_ t).inRunDoze = s.inRunDoze from rfl, show (s.at_ t).power = s.power from rfl,
    if_neg (by simp [hen, hrun, hdone, hdue])]
  have hkept := PowerState.hold_of (State.countRail_sansRails
    (((s.at_ t).modPower fun p => { p with holdDone := true, holdReported := true }).event { source := 53, subkind := 1 }) 13 4)
  rw [State.event_power] at hkept
  simp only [PowerState.hold, Prod.mk.injEq] at hkept
  obtain ⟨-, hdone, hrep, -⟩ := hkept
  exact ⟨hdone, hrep⟩

/-- Settles O45: an input's validity is kept by whatever follows it, and each other clause is what the command's own equation shows. -/
theorem supplyCommandsComplete : Obligations.SupplyCommandsComplete :=
  ⟨fun _ _ _ _ hw hv => execInputValid_shows hw hv, fun _ _ _ _ hw hv => execInputInvalid_shows hw hv,
    fun _ _ _ _ hlo hhi hr htest hst => ⟨_, execRailFault_of hlo hhi hr htest hst, rfl⟩,
    fun _ _ htest hst => ⟨_, execRailFault_hold htest hst, rfl⟩,
    fun _ _ _ hst hrun hserve hwarn hdue => execRailRetry_shows hst hrun hserve hwarn hdue,
    fun _ _ _ hw hrun hserve hwarn hdue => execRailCounterCopy_shows hw hrun hserve hwarn hdue,
    fun _ _ _ hen hrun => ⟨fun hok hst hmv => execHoldCharged_shows hen hrun hok hst hmv, fun hok hmv => execHoldLow_shows hen hrun hok hmv⟩,
    fun _ _ hen hrun hdone hdue => execHoldChargeTimeout_shows hen hrun hdone hdue⟩

end Sys2Proof.Machine
end

section
/-! The sequences of the power block: power-up and its retries, ramps and discharges, the warning and its hold time, the off time and the
loss of the supply (R406 to R412, R418). -/

namespace Sys2Proof.Machine

/-! ### Power-up (R406, R409) -/

theorem State.enableNext_seqDir (s : State) : s.enableNext.power.seqDir = s.power.seqDir := by
  unfold State.enableNext
  split <;> rfl

theorem State.enableNext_startBy (s : State) : s.enableNext.power.startBy = s.power.startBy := by
  unfold State.enableNext
  split <;> rfl

theorem State.enableNext_retryAt (s : State) : s.enableNext.power.retryAt = s.power.retryAt := by
  unfold State.enableNext
  split <;> rfl

theorem State.enableNext_part (s : State) : s.enableNext.part = s.part := by
  unfold State.enableNext
  split <;> rfl

theorem State.startUp_seqDir (s : State) : s.startUp.power.seqDir = 1 := State.enableNext_seqDir _
theorem State.startUp_retryAt (s : State) : s.startUp.power.retryAt = none := State.enableNext_retryAt _
theorem State.startUp_startBy (s : State) : s.startUp.power.startBy = s.power.startBy := State.enableNext_startBy _
theorem State.startUp_part (s : State) : s.startUp.part = s.part := State.enableNext_part _

/-- The part as a power-up from OFF finds it: the strap read, the counters back from their copies (R399, R409). -/
def State.fromOff (s : State) (strap : List Nat) : State :=
  let load := fun (x : Rail × Nat) =>
    let c := s.power.copies.getD x.2 (0, 0, 0, 0)
    { x.1 with uv := c.1, ov := c.2.1, oc := c.2.2.1, tmo := c.2.2.2 }
  (s.takeStrap strap).modPower fun p =>
    { p with rails := p.rails.zipIdx.map load, startBy := 0, lastWake := 1, lastReset := if p.timed then 3 else 0, dozeTgt := false, attempts := 0 }

theorem execPowerUpSequence_of {t : Nat} {strap : List Nat} {s : State} (hst : s.power.st = 4) (hdir : s.power.seqDir = 0)
    (hin : s.inputOk = true) (hrestart : s.power.restartAt = none) (hretry : s.power.retryAt = none) (hrst : s.power.rstHeld = false)
    (hheld : s.part.hubHeld = false) (hserve : s.part.serving = false) : exec (.powerUpSequence t strap) s =
      .next (if s.power.shipMark then (((s.at_ t).fromOff strap).modRail 0 fun r => { r with st := 2 }).modPower fun p =>
          { p with st := 3, lastSt := 3, sleepAt := t }
        else ((s.at_ t).fromOff strap).startUp) := by
  show execPowerUpSequence t strap s = _
  unfold execPowerUpSequence
  dsimp only
  rw [show (s.at_ t).power = s.power from rfl, show (s.at_ t).inputOk = s.inputOk from rfl, show (s.at_ t).part = s.part from rfl,
    if_neg (by simp [hst, hdir, hin, hrestart, hretry, hrst, hheld, hserve])]
  rfl

theorem execPowerUpSequence_shows {t : Nat} {strap : List Nat} {s : State} (hst : s.power.st = 4) (hdir : s.power.seqDir = 0)
    (hin : s.inputOk = true) (hrestart : s.power.restartAt = none) (hretry : s.power.retryAt = none) (hrst : s.power.rstHeld = false)
    (hheld : s.part.hubHeld = false) (hserve : s.part.serving = false) : Runs (.powerUpSequence t strap) s fun s' =>
      s'.part.strap = readStrap strap ∧ (if s.power.shipMark = true then s'.power.st = 3 else s'.power.seqDir = 1 ∧ s'.power.startBy = 0) := by
  refine ⟨_, execPowerUpSequence_of hst hdir hin hrestart hretry hrst hheld hserve, ?_⟩
  beta_reduce
  split
  · exact ⟨rfl, rfl⟩
  · exact ⟨congrArg (·.strap) (State.startUp_part _), State.startUp_seqDir _, State.startUp_startBy _⟩

theorem execPowerUpRetry_shows {t a : Nat} {s : State} (hretry : s.power.retryAt = some a) (ha : a ≤ t) (hrst : s.power.rstHeld = false)
    (hin : s.inputOk = true) (hdir : s.power.seqDir = 0) :
    Runs (.powerUpRetry t) s fun s' => s'.power.seqDir = 1 ∧ s'.power.retryAt = none := by
  refine ⟨_, rfl, ?_⟩
  dsimp only
  rw [show (s.at_ t).power = s.power from rfl, show (s.at_ t).inputOk = s.inputOk from rfl, hretry]
  dsimp only
  rw [if_neg (by simp [ha, hrst, hin, hdir])]
  exact ⟨State.startUp_seqDir _, State.startUp_retryAt _⟩

/-! ### Ramps and discharges (R399, R407, R408) -/

theorem execRailInRegulation_of {t rail bist : Nat} {s w : State} (hst : (s.rail rail).st = 1) (hr : rail ≠ 13)
    (hw : w = (s.at_ t).railUp t rail) : exec (.railInRegulation t rail bist) s =
      .next (if w.power.seqDir ≠ 1 ∨ w.power.seqRail ≠ rail then w else if w.power.seqTo ≠ 0 then w.turnDown w.power.seqTo
        else if w.nextRail.isSome = true then w.enableNext else w.hubStart bist) := by
  subst hw
  show execRailInRegulation t rail bist s = _
  unfold execRailInRegulation
  dsimp only
  rw [show (s.at_ t).rail rail = s.rail rail from rfl, if_neg (by simp [hst, hr])]
  generalize (s.at_ t).railUp t rail = w
  congr 1
  by_cases h : w.power.seqDir ≠ 1 ∨ w.power.seqRail ≠ rail
  · rw [if_pos (by simpa using h), if_pos h]
  · rw [if_neg (by simpa using h), if_neg h]

theorem State.modPower_congr {s : State} {f g : PowerState → PowerState} (h : f s.power = g s.power) : s.modPower f = s.modPower g :=
  congrArg (fun p => { s with power := p }) h

section
variable {t rail : Nat} {s w : State} (hst : (s.rail rail).st = 1) (hr : rail ≠ 13) (hw : w = (s.at_ t).countRail rail 4)
include hst hr hw

/-- A ramp missed acts by its rail outside the sequence; in it, the attempt is counted and the sequence turns round. -/
theorem execRailRampTimeout_of : exec (.railRampTimeout t rail) s = .next (
    if s.power.seqDir ≠ 1 ∨ s.power.seqRail ≠ rail then w.railAct rail
    else if 3 ≤ s.power.attempts + 1 then
      (w.modPower fun p => { p with attempts := 0, st := (if s.power.seqTo ≤ 2 then 2 else s.power.st),
                                    lastSt := (if s.power.seqTo ≤ 2 then 2 else s.power.lastSt), sleepAt := t }).turnDown 2
    else (w.modPower fun p => { p with attempts := s.power.attempts + 1 }).turnDown 1) := by
  have hkept : w.power.sequence = s.power.sequence := hw ▸ PowerState.sequence_of (State.countRail_sansRails ..)
  simp only [PowerState.sequence, Prod.mk.injEq] at hkept
  obtain ⟨hdir, hrail, hto, hatt, hpst, hlast⟩ := hkept
  show execRailRampTimeout t rail s = _
  unfold execRailRampTimeout
  dsimp only
  rw [show (s.at_ t).rail rail = s.rail rail from rfl, if_neg (by simp [hst, hr]), ← hw]
  clear hw
  congr 1
  by_cases hseq : s.power.seqDir ≠ 1 ∨ s.power.seqRail ≠ rail
  · rw [if_pos (by simpa [hdir, hrail] using hseq), if_pos hseq]
  · rw [if_neg (by simpa [hdir, hrail] using hseq), if_neg hseq, hatt]
    split
    · refine congrArg (·.turnDown 2) (State.modPower_congr ?_)
      rw [hto, hpst, hlast]
    · rfl

end

/-- Rail `rail` is discharged, by itself or at the end of its time (R407). -/
def State.discharged (s : State) (rail : Nat) (timedOut : Bool) : State :=
  let u := s.modRail rail fun r => { r with st := 0 }
  if timedOut then u.countRail rail 5 else u

theorem State.discharged_rail {s : State} {rail : Nat} (timedOut : Bool) (h : (s.rail rail).st ≠ 0) :
    ((s.discharged rail timedOut).rail rail).st = 0 := by
  have hget := State.rails_getElem?_modRail (fun r => { r with st := 0 }) (State.rail_getElem? h)
  unfold State.discharged
  dsimp only
  split
  · exact State.countRail_rail_st 5 rail hget
  · exact congrArg Rail.st (State.rail_of hget)

theorem State.discharged_sequence (s : State) (rail : Nat) (timedOut : Bool) :
    (s.discharged rail timedOut).power.sequence = s.power.sequence :=
  view_ite (fun u => u.power.sequence) (PowerState.sequence_of (State.countRail_sansRails ..)) rfl

theorem execRailDischarged_of {t rail : Nat} {timedOut : Bool} {s : State} (hst : (s.rail rail).st = 3) :
    exec (.railDischarged t rail timedOut) s = .next (if s.power.seqDir = 2 ∧ s.power.seqRail = rail
      then ((s.at_ t).discharged rail timedOut).downStep else (s.at_ t).discharged rail timedOut) := by
  have hkept := State.discharged_sequence (s.at_ t) rail timedOut
  simp only [PowerState.sequence, Prod.mk.injEq] at hkept
  obtain ⟨hdir, hrail, -⟩ := hkept
  show execRailDischarged t rail timedOut s = .next _
  unfold execRailDischarged
  refine congrArg Host.Outcome.next ((if_neg (not_not_intro hst)).trans ?_)
  show (if ((s.at_ t).discharged rail timedOut).power.seqDir = 2 && ((s.at_ t).discharged rail timedOut).power.seqRail == rail
    then ((s.at_ t).discharged rail timedOut).downStep else (s.at_ t).discharged rail timedOut) = _
  rw [hdir, hrail]
  exact if_congr (by rw [Bool.and_eq_true, decide_eq_true_eq, beq_iff_eq]; rfl) rfl rfl

/-! ### The warning, the off time and the supply (R410 to R412, R418) -/

theorem execPowerFailWarning_of {t item : Nat} {s : State} (hrun : s.inRunDoze = true) (hserve : s.part.serving = true)
    (hwarn : s.power.warnAt = none) (hitem : s.power.warnItem = some item) :
    exec (.powerFailWarning t item) s = .next ((s.at_ t).warn item) := by
  show execPowerFailWarning t item s = _
  unfold execPowerFailWarning
  dsimp only
  rw [show (s.at_ t).inRunDoze = s.inRunDoze from rfl, show (s.at_ t).part = s.part from rfl, show (s.at_ t).power = s.power from rfl,
    if_neg (by simp [hrun, hserve, hwarn, hitem])]

theorem execHoldTimeExpire_of {t a : Nat} {s : State} (hwarn : s.power.warnAt = some a) (hdue : a + s.power.holdEff * 1000000 ≤ t)
    (hserve : s.part.serving = true) : exec (.holdTimeExpire t) s =
      .next (((({ s.at_ t with cfg := s.cfg.tear t } : State).hubStop false).diesCutOff).startDown 4) := by
  show execHoldTimeExpire t s = _
  unfold execHoldTimeExpire
  dsimp only
  rw [show (s.at_ t).power = s.power from rfl, show (s.at_ t).part = s.part from rfl, hwarn]
  dsimp only
  rw [if_neg (by simp [hdue, hserve])]
  rfl

theorem execShutdownRestart_of {t a : Nat} {s : State} (hrestart : s.power.restartAt = some a) (ha : a ≤ t) (hin : s.inputOk = true) :
    exec (.shutdownRestart t) s = .next ((s.at_ t).modPower fun p => { p with restartAt := none }) := by
  show execShutdownRestart t s = _
  unfold execShutdownRestart
  dsimp only
  rw [show (s.at_ t).power = s.power from rfl, show (s.at_ t).inputOk = s.inputOk from rfl, hrestart]
  dsimp only
  rw [if_neg (by simp [ha, hin])]

theorem execAonSupplyLoss_shows {t : Nat} {s : State} (hst : s.power.st = 2 ∨ s.power.st = 3) (hin : s.inputOk = false) :
    Runs (.aonSupplyLoss t) s fun s' =>
      s'.power.st = 4 ∧ s'.power.rails = s.power.rails.map (fun r => { r with st := 0 }) ∧ s'.power.warnAt = s.power.warnAt := by
  have htear : (s.at_ t).tearWrites.power = s.power := State.tearWrites_power _
  refine ⟨_, rfl, ?_⟩
  dsimp only
  rw [show (s.at_ t).power = s.power from rfl, show (s.at_ t).inputOk = s.inputOk from rfl,
    if_neg (by obtain h | h := hst <;> simp [h, hin])]
  refine ⟨rfl, ?_, ?_⟩
  · show ((s.at_ t).tearWrites.power.rails.map _) = _
    rw [htear]
  · show (s.at_ t).tearWrites.power.warnAt = _
    rw [htear]

/-- Settles O46: each clause is its command's own equation; what a clause reads of the sequence, counting a fault leaves alone. -/
theorem powerSequenceCommandsComplete : Obligations.PowerSequenceCommandsComplete :=
  ⟨fun _ _ _ hst hdir hin hrestart hretry hrst hheld hserve => execPowerUpSequence_shows hst hdir hin hrestart hretry hrst hheld hserve,
    fun _ _ _ _ _ hst hr hw => ⟨_, execRailInRegulation_of hst hr hw, rfl⟩,
    fun _ _ _ _ hst hr hw => ⟨fun hout => ⟨_, execRailRampTimeout_of hst hr hw, if_pos hout⟩,
      fun hdir hrail hatt => ⟨_, execRailRampTimeout_of hst hr hw, (if_neg (by simp [hdir, hrail])).trans (if_neg (by omega))⟩,
      fun hdir hrail hatt => ⟨_, execRailRampTimeout_of hst hr hw, (if_neg (by simp [hdir, hrail])).trans (if_pos (by omega))⟩⟩,
    fun _ _ _ hretry ha hrst hin hdir => execPowerUpRetry_shows hretry ha hrst hin hdir,
    fun t rail timedOut s hst => ⟨_, execRailDischarged_of hst, (s.at_ t).discharged rail timedOut,
      State.discharged_rail timedOut (by rw [show (s.at_ t).rail rail = s.rail rail from rfl, hst]; decide), rfl⟩,
    fun _ _ _ hrun hserve hwarn hitem => ⟨_, execPowerFailWarning_of hrun hserve hwarn hitem, rfl⟩,
    fun _ _ _ hwarn hdue hserve => ⟨_, execHoldTimeExpire_of hwarn hdue hserve, rfl⟩,
    fun _ _ _ hrestart ha hin => ⟨_, execShutdownRestart_of hrestart ha hin, rfl⟩,
    fun _ _ hst hin => execAonSupplyLoss_shows hst hin⟩

end Sys2Proof.Machine
end

section
/-! The check units and the thermal governor (R466 to R471, R482, R483). -/

namespace Sys2Proof.Machine

/-! ### The check units (R467, R470, R471) -/

theorem State.chk_modChk {s : State} {i : Nat} {u : ChkUnit} (f : ChkUnit → ChkUnit) (h : s.chk[i]? = some u) : (s.modChk i f).chk[i]? = some (f u) :=
  (modNth_getElem?_same ..).trans (congrArg _ h)

section
variable {t unit : Nat} {u : ChkUnit} {s : State} (hp : s.chkPowered unit = true) (hu : s.chk[unit]? = some u)
include hp hu

theorem execChkOpen_shows {ctrl : Nat} (hb : bit ctrl 8 = true) : Runs (.chkOpen t unit ctrl) s fun s' =>
    s'.chk[unit]? = some (if u.busy = true then { u with waiting := u.waiting ++ [bits ctrl 1 0] } else u.openMsg (bits ctrl 1 0) false) := by
  refine ⟨_, rfl, ?_⟩
  dsimp only
  rw [show (s.at_ t).chkPowered unit = true from hp, hb, if_neg (by decide)]
  exact State.chk_modChk (s := s.at_ t) _ hu

theorem execChkDataWrite_shows {width value : Nat} (hw : width = 1 ∨ width = 2 ∨ width = 4) : Runs (.chkDataWrite t unit width value) s fun s' =>
    s'.chk[unit]? = some (u.feed (le width value)) := by
  refine ⟨_, rfl, ?_⟩
  dsimp only
  rw [show (s.at_ t).chkPowered unit = true from hp, if_neg (by obtain rfl | rfl | rfl := hw <;> decide)]
  exact State.chk_modChk (s := s.at_ t) _ hu

theorem execChkClose_shows {ctrl : Nat} (hb : bit ctrl 9 = true) : Runs (.chkClose t unit ctrl) s fun s' => s'.chk[unit]? = some u.close := by
  refine ⟨_, rfl, ?_⟩
  dsimp only
  rw [show (s.at_ t).chkPowered unit = true from hp, hb, if_neg (by decide)]
  exact State.chk_modChk (s := s.at_ t) _ hu

end

/-- No command waits for a unit without an open message. -/
theorem State.chkBusy_of {s : State} {c : Cmd} {u : ChkUnit} (hu : s.chk[chkUnitOf c]? = some u) (hb : u.busy = false) : s.chkBusy c = false := by
  unfold State.chkBusy
  rw [hu, Option.map_some, hb, Bool.and_false, Option.getD_some, Bool.and_false]

theorem execCheckCompute_of {t : Nat} {c : Cmd} {data : List Byte} {u : ChkUnit} {s : State} (h : s.serves 0x0F c) (hf : chkFieldsOk c = true)
    (hlen : c.target ≠ 0 ∨ 2 < rd c.param 0 1 ∨ c.bufLen ≤ 4096) (hu : s.chk[chkUnitOf c]? = some u) (hok : u.ok = true)
    (hp : s.chkPowered (chkUnitOf c) = true) (hb : u.busy = false) :
    exec (.checkCompute t c data) s = .next ((s.served t c).computeCheck c (s.inData c data) u) := by
  have hshort : ¬(c.target = 0 ∧ rd c.param 0 1 ≤ 2 ∧ 4096 < c.bufLen) := by omega
  show Host.Outcome.next ((s.at_ t).serve 0x0F c _ _) = _
  rw [State.serves_serve t h (by rw [State.chkBusy_of (s := s.at_ t) hu hb]; rfl)]
  dsimp only
  rw [State.inData_served, hf, if_neg (by decide), if_neg hshort, show (s.served t c).chk[chkUnitOf c]? = some u from hu]
  dsimp only
  rw [show (s.served t c).chkPowered (chkUnitOf c) = true from hp, hok, if_neg (by decide)]

/-- Settles O21: a unit takes what its register writes say, and CHECK_COMPUTE is the message of its command on a free unit. -/
theorem checkUnitCommandsComplete : Obligations.CheckUnitCommandsComplete :=
  ⟨fun _ _ _ _ _ hp hb hu => execChkOpen_shows hp hu hb, fun _ _ _ _ _ _ hp hw hu => execChkDataWrite_shows hp hu hw,
    fun _ _ _ _ _ hp hb hu => execChkClose_shows hp hu hb,
    fun _ _ _ _ _ h hf hlen hu hok hp hb => ⟨_, execCheckCompute_of h hf hlen hu hok hp hb, rfl⟩⟩

/-! ### The governor (R482) -/

theorem State.setStep_therm (s : State) (n : Nat) : (s.setStep n).therm = { s.therm with step := n } := by
  unfold State.setStep
  rw [State.event_therm]
  exact congrArg (·.2.2) (State.applyStep_auxEq { s with therm := { s.therm with step := n } })

/-- Entering steps keeps the hottest junction and takes none back. -/
theorem State.raiseSteps_therm (s : State) (fuel : Nat) : ((s.raiseSteps fuel).therm.tjMax, (s.raiseSteps fuel).therm.hotIsland) =
    (s.therm.tjMax, s.therm.hotIsland) ∧ s.therm.step ≤ (s.raiseSteps fuel).therm.step := by
  induction fuel generalizing s with
  | zero => exact ⟨rfl, Nat.le_refl _⟩
  | succ fuel ih =>
    unfold State.raiseSteps
    dsimp only
    split
    · exact ⟨rfl, Nat.le_refl _⟩
    split
    · obtain ⟨hhot, hstep⟩ := ih (s.setStep (s.therm.step + 1))
      rw [State.setStep_therm] at hhot hstep
      exact ⟨hhot, Nat.le_trans (Nat.le_succ _) hstep⟩
    · exact ⟨rfl, Nat.le_refl _⟩

theorem execThermalSample_shows {t : Nat} {temps : List Int} {s : State} (hrun : s.inRunDoze = true) (hserve : s.part.serving = true)
    (htemps : temps ≠ []) : Runs (.thermalSample t temps) s fun s' =>
      (s'.therm.tjMax, s'.therm.hotIsland) = hottest s.part.cellDies temps ∧ s.therm.step ≤ s'.therm.step := by
  refine ⟨_, rfl, ?_⟩
  dsimp only
  rw [show (s.at_ t).inRunDoze = true from hrun, show (s.at_ t).part.serving = true from hserve, if_neg (by simpa using htemps)]
  exact State.raiseSteps_therm _ 3

theorem execThermalStepDown_of {t a : Nat} {s : State} (hstep : s.therm.step ≠ 0)
    (hbelow : s.therm.belowSince.getD (s.therm.step - 1) none = some a) (hdue : a + 10000000000 ≤ t) :
    exec (.thermalStepDown t) s = .next ((s.at_ t).setStep (s.therm.step - 1)) := by
  show execThermalStepDown t s = _
  unfold execThermalStepDown
  dsimp only
  rw [show (s.at_ t).therm = s.therm from rfl, hbelow]
  dsimp only
  rw [if_neg (by simp [hstep, hdue])]

/-! ### What stands of the overheated dies (R483) -/

/-- Which dies have overheated. -/
def State.hots (s : State) : List Bool := s.dies.map (·.hot)

theorem State.hots_of_kept {s u : State} (h : s.kept = u.kept) : s.hots = u.hots := congrArg (List.map Die.hot) (Kept.dies_eq h)

theorem hots_modDie {s u : State} {k : Nat} {f : Die → Die} (hu : u.hots = s.hots) (hf : ∀ d, (f d).hot = d.hot) : (u.modDie k f).hots = s.hots := by
  unfold State.modDie
  exact view_ite State.hots hu ((modNth_map_eq hf (k - 1) u.dies).trans hu)

theorem State.dieEvent_hots (s : State) (k : Nat) (e : Ev) : (s.dieEvent k e).hots = s.hots := by
  unfold State.dieEvent State.dieEventAt State.dieEventFull
  refine view_ite State.hots (State.hots_of_kept (State.eventAt_kept ..)) (hots_modDie rfl fun d => ?_)
  split <;> rfl

theorem State.dieRecord_hots (s : State) (k recType time : Nat) (bytes : List Byte) : (s.dieRecord k recType time bytes).hots = s.hots := by
  refine hots_modDie rfl fun d => ?_
  split <;> rfl

theorem State.flushStream_hots (s : State) (k : Nat) (last abort : Bool) : (s.flushStream k last abort).hots = s.hots :=
  view_onDie State.hots (fun _ => view_ite State.hots rfl ((State.dieRecord_hots ..).trans (hots_modDie rfl fun _ => rfl))) rfl

theorem State.abortCapture_hots (s : State) (k : Nat) (arm : Bool) : (s.abortCapture k arm).hots = s.hots := by
  have unarm (u : State) (c : Capture) : (u.unarm c).hots = u.hots := view_ite State.hots (State.hots_of_kept (State.tellArmed_kept ..)) rfl
  refine view_onDie State.hots (fun d => ?_) rfl
  split
  · rfl
  · refine (State.hots_of_kept (State.completeOpt_kept ..)).trans ((unarm ..).trans ((State.dieEvent_hots ..).trans ?_))
    exact hots_modDie rfl fun _ => rfl

theorem State.fastOff_hots (s : State) (k : Nat) : (s.fastOff k).hots = s.hots := by
  have flushed : ((s.abortCapture k false).flushStream k true true).hots = s.hots := (State.flushStream_hots ..).trans (State.abortCapture_hots ..)
  have stopped : (s.stopFast k).hots = s.hots := hots_modDie (hots_modDie (hots_modDie flushed fun _ => rfl) fun _ => rfl) fun _ => rfl
  exact view_onDie State.hots (fun _ => view_ite State.hots (hots_modDie stopped fun _ => rfl) rfl) rfl

theorem State.startFrom_hots (s : State) (k i t : Nat) : (s.startFrom k i t).hots = s.hots := by
  unfold State.startFrom
  split
  · exact hots_modDie rfl fun _ => rfl
  · refine hots_modDie rfl fun d => ?_
    split <;> rfl

theorem State.abortSlice_hots (s : State) (k : Nat) : (s.abortSlice k).hots = s.hots := by
  have released (u : State) (block : Nat) : (u.releaseSlice k block).hots = u.hots := by
    refine view_ite State.hots ?_ (view_ite State.hots (hots_modDie rfl fun _ => rfl) (view_ite State.hots (hots_modDie rfl fun _ => rfl) rfl))
    refine view_onDie State.hots (fun d => view_ite State.hots ((State.startFrom_hots ..).trans ?_) ?_) ?_
    all_goals exact hots_modDie rfl fun _ => rfl
  unfold State.abortSlice
  split
  · rfl
  · exact (released ..).trans rfl

theorem State.discardRun_hots (s : State) (k t : Nat) (keep : Bool) : (s.discardRun k t keep).hots = s.hots := by
  refine view_onDie State.hots (fun d => hots_modDie ?_ fun _ => rfl) rfl
  split
  · exact State.dieRecord_hots ..
  · rfl

theorem State.precOff_hots (s : State) (k : Nat) : (s.precOff k).hots = s.hots := by
  have stopped : (((s.abortSlice k).fastOff k).discardRun k s.now true).hots = s.hots :=
    (State.discardRun_hots ..).trans ((State.fastOff_hots ..).trans (State.abortSlice_hots s k))
  have off (f : Die → Die) (hf : ∀ d, (f d).hot = d.hot) :
      (((((s.abortSlice k).fastOff k).discardRun k s.now true).modDie k f).modTest k SelfTest.countsReset).hots = s.hots := hots_modDie stopped hf
  exact view_onDie State.hots (fun _ => view_ite State.hots rfl (hots_modDie (off _ fun _ => rfl) fun _ => rfl)) rfl

theorem State.die?_hot (s : State) (k : Nat) : (s.die? k).map (·.hot) = if k = 0 then none else s.hots[k - 1]? := by
  unfold State.die?
  split
  · rfl
  · exact List.getElem?_map.symm

theorem execDieOverheat_shows {t k : Nat} {d : Die} {s : State} (hd : s.hasDie k d) (hcool : d.hot = false) :
    Runs (.dieOverheat t k) s fun s' => s'.dieShows k (fun y => (y.hot, y.precOn)) (true, false) := by
  have hk := State.fitted_pos hd.1
  have hhot : ((s.at_ t).modDie k fun d => { d with hot := true }).hasDie k { d with hot := true } :=
    ⟨(State.fitted_modDie ..).trans hd.1, (State.die?_modDie_same (s := s.at_ t) _ hk).trans (congrArg _ hd.2)⟩
  refine ⟨_, rfl, ?_⟩
  rw [State.onDie_of (s := s.at_ t) hd.1 hd.2, if_neg (by simp [hcool])]
  generalize ((s.at_ t).modDie k fun d => { d with hot := true }) = u at hhot
  obtain ⟨e, he, hoff⟩ := Option.map_eq_some_iff.1 (State.precOff_precOn hhot)
  have hkept : ((u.precOff k).die? k).map (·.hot) = some true := by
    rw [State.die?_hot, State.precOff_hots, ← State.die?_hot, hhot.2]
    rfl
  rw [he] at hkept
  exact (congrArg (Option.map _) he).trans (congrArg some (Prod.ext (Option.some.inj hkept) hoff))

theorem execDieCooled_shows {t k : Nat} {d : Die} {s : State} (hd : s.hasDie k d) :
    Runs (.dieCooled t k) s fun s' => s'.dieShows k (·.hot) false := by
  refine ⟨_, rfl, ?_⟩
  rw [State.onDie_of (s := s.at_ t) hd.1 hd.2]
  exact State.shows_modDie (s := s.at_ t) (State.fitted_pos hd.1) hd.2 rfl

/-! ### The hub held in reset (R468, R483) -/

theorem execHubOverheat_shows {t : Nat} {s : State} (hserve : s.part.serving = true) (hwarn : s.warned = false) :
    Runs (.hubOverheat t) s fun s' => s'.part.hubHeld = true ∧ s'.part.serving = false := by
  refine ⟨_, rfl, ?_⟩
  dsimp only
  rw [show (s.at_ t).part.serving = true from hserve, show (s.at_ t).warned = false from hwarn, if_neg (by decide)]
  have hoff : ((s.at_ t).hubStop false).diesCutOff.part.serving = false :=
    State.resetPad_serving ((State.steady_resetPad (State.diesCutOff_steady _)).trans (State.hubStop_resetPad (s.at_ t) false))
  generalize ((s.at_ t).hubStop false).diesCutOff = u at hoff ⊢
  exact ⟨rfl, hoff⟩

theorem execHubCooled_of {t : Nat} {pass : Bool} {s : State} (hheld : s.part.hubHeld = true) (hbist : s.bistFailed = []) :
    exec (.hubCooled t pass) s = .next (((s.at_ t).modTest 0 fun y => { y with retried := false }).hubTest (if pass = true then 0 else 1)) := by
  show execHubCooled t pass s = _
  unfold execHubCooled
  dsimp only
  rw [show (s.at_ t).part.hubHeld = true from hheld, show (s.at_ t).bistFailed = [] from hbist, if_neg (by decide)]

/-- Settles O22: the governor's steps leave the temperatures, switching PREC off leaves the mark of an overheated die, and a hub that
fails logic BIST is held. -/
theorem thermalCommandsComplete : Obligations.ThermalCommandsComplete :=
  ⟨fun _ _ _ hrun hserve htemps => execThermalSample_shows hrun hserve htemps,
    fun t _ s hstep hbelow hdue => ⟨_, execThermalStepDown_of hstep hbelow hdue, rfl, congrArg (·.step) (State.setStep_therm (s.at_ t) _)⟩,
    fun _ _ _ _ hd hcool => execDieOverheat_shows hd hcool, fun _ _ _ _ hd => execDieCooled_shows hd,
    fun _ _ hserve hwarn => execHubOverheat_shows hserve hwarn,
    fun _ _ _ hheld hbist => ⟨_, execHubCooled_of hheld hbist, rfl, fun hfail => State.hubTest_held (by rw [hfail]; decide)⟩⟩

end Sys2Proof.Machine
end

section
/-! The accepted actions of the lifecycle (R426, R430 to R434). -/

namespace Sys2Proof.Machine

/-! ### An accepted message (R430 to R432) -/

/-- The state that an accepted lifecycle message finds: its nonce is used (R430). -/
def State.nonceUsed (s : State) (m : LifeMsg) : State :=
  let used := match s.trust.nonce with | some n => n.1 == m.nonce | none => false
  s.modTrust fun x => if used then { x with nonce := none } else x

theorem State.nonceUsed_fixed (s : State) (m : LifeMsg) : (s.nonceUsed m).fixed = s.fixed := by
  have kept (b : Bool) : (s.modTrust fun x => if b = true then { x with nonce := none } else x).fixed = s.fixed := by cases b <;> rfl
  exact kept _

/-- A message that passes the checks of R430 to R432 has the effect of its action. -/
theorem State.lifecycle_accepted {s : State} {c : Cmd} {msg : List Byte} {f : State → LifeMsg → State} (hlen : c.bufLen = 512)
    (hclear : (lifeMsg msg).clear = true) (hlo : 1 ≤ (lifeMsg msg).action) (hhi : (lifeMsg msg).action ≤ 5)
    (hcfg : (lifeMsg msg).action = 2 ∨ (lifeMsg msg).action = 5 → sealedOk (lifeMsg msg).cfg = true)
    (hauth : lifeAuth (lifeMsg msg).action s.trust.life = false → (lifeMsg msg).auth.any (· != 0) = false) (hsess : s.trust.session ≠ 2)
    (hwhy : s.lifeReason (lifeMsg msg) = 0) : s.lifecycle c msg f = f (s.nonceUsed (lifeMsg msg)) (lifeMsg msg) := by
  have hcfgd : (((lifeMsg msg).action == 2 || (lifeMsg msg).action == 5) && !sealedOk (lifeMsg msg).cfg) = false := by
    by_cases h : (lifeMsg msg).action = 2 ∨ (lifeMsg msg).action = 5
    · rw [hcfg h, Bool.not_true, Bool.and_false]
    · rw [Bool.or_eq_false_iff.2 ⟨beq_eq_false_iff_ne.2 fun e => h (.inl e), beq_eq_false_iff_ne.2 fun e => h (.inr e)⟩, Bool.false_and]
  have hunauth : (!lifeAuth (lifeMsg msg).action s.trust.life && (lifeMsg msg).auth.any (· != 0)) = false := by
    cases h : lifeAuth (lifeMsg msg).action s.trust.life with
    | true => rfl
    | false => rw [hauth h, Bool.and_false]
  unfold State.lifecycle
  dsimp only
  rw [if_neg (not_not_intro hlen), hclear, hcfgd, hunauth, decide_eq_false (by omega : ¬(lifeMsg msg).action = 0),
    decide_eq_false (by omega : ¬5 < (lifeMsg msg).action), if_neg (by decide), if_neg hsess, hwhy, if_pos rfl]
  rfl

/-- An accepted LIFECYCLE command has the effect of its action on the state that is served. -/
theorem State.serve_accepted {t action : Nat} {c : Cmd} {data msg : List Byte} {s : State} {f : State → LifeMsg → State} {mine : Bool}
    (hmsg : msg = s.inData c data) (hlo : 1 ≤ action) (hhi : action ≤ 5) (h : s.acceptsLife t action c msg) (hm : mine = true) :
    (s.at_ t).serve 0x17 c mine (fun u => u.lifecycle c ((s.at_ t).inData c data) f) =
      f ((s.served t c).nonceUsed (lifeMsg msg)) (lifeMsg msg) := by
  obtain ⟨hserve, hsess, haction, hlen, hclear, hcfg, hauth, hwhy⟩ := h
  have hact : (lifeMsg msg).action = action := haction
  rw [State.serves_serve t hserve hm, show (s.at_ t).inData c data = msg from hmsg.symm]
  exact State.lifecycle_accepted hlen hclear (hact ▸ hlo) (hact ▸ hhi) (hact ▸ hcfg) (hact ▸ hauth) hsess hwhy

/-- What the message of the command names as its action. -/
theorem State.rd_inData {t action : Nat} {c : Cmd} {data msg : List Byte} {s : State} (hmsg : msg = s.inData c data)
    (h : s.acceptsLife t action c msg) : rd ((s.at_ t).inData c data) 0 1 = action := by
  obtain ⟨-, -, haction, -⟩ := h
  rw [show (s.at_ t).inData c data = msg from hmsg.symm, haction]

/-- The guarded part of the state that an accepted action finds is that of the state before the command. -/
theorem State.accepted_fixed (s : State) (t : Nat) (c : Cmd) (m : LifeMsg) : ((s.served t c).nonceUsed m).fixed = s.fixed :=
  (State.nonceUsed_fixed ..).trans rfl

/-! ### What the actions leave (R426, R431, R433, R434) -/

/-- The part with a new integrator key and no certificate for it (R426). -/
def State.newIk (s : State) : State :=
  (s.drawBits 256).2.modTrust fun x => { x with ik := some ((s.drawBits 256).1 % (p256N - 1) + 1), ikCert := false, ikCertBytes := zeros 160 }

/-- A new integrator key with its event, its KEEP record and its completion (R426, R431). -/
def State.genkey (s : State) (c : Cmd) : State :=
  let u := s.newIk
  (u.lifeEvent.blackBox 0x10 true ((eventEntry 54 u.pos 0 u.tq u.part.evtSeq u.now 1 0 0 0).take 28)).complete c .success 0

theorem State.genkey_still (s : State) (c : Cmd) : (s.genkey c).trust.still = s.newIk.trust.still :=
  Kept.trust_eq ((State.complete_kept ..).trans ((State.blackBox_kept ..).trans (State.event_kept ..)))

theorem State.newIk_shows (s : State) : s.newIk.trust.ik.isSome = true ∧ s.newIk.trust.ikCert = false ∧ s.newIk.trust.life = s.trust.life := ⟨rfl, rfl, rfl⟩

theorem TrustState.keys_of_still {x y : TrustState} (h : x.still = y.still) : x.ik = y.ik ∧ x.ikCert = y.ikCert ∧ x.life = y.life :=
  ⟨(congrArg TrustState.ik h : x.still.ik = y.still.ik), (congrArg TrustState.ikCert h : x.still.ikCert = y.still.ikCert),
    (congrArg TrustState.life h : x.still.life = y.still.life)⟩

/-- The owner root and the sealed configuration of a message taken, and the part SEALED (R354, R431, R455). -/
def State.seal (s : State) (t : Nat) (c : Cmd) (m : LifeMsg) : State :=
  let blank := s.trust.life == 0
  let u := s.modTrust fun x =>
    { x with ownerRoot := m.root, sealed_ := m.cfg, ikCert := true, ikCertBytes := m.cert, life := 1, prevHash := zeros 32, history := History.from_ t }
  let v := if blank then u.leaveBlank else u
  v.lifeEvent.sealRecord.complete c .success 0

theorem State.seal_fixed (s : State) (t : Nat) (c : Cmd) (m : LifeMsg) : (s.seal t c m).fixed =
    { s.fixed with ownerRoot := m.root, sealed_ := m.cfg, life := 1, active := if s.fixed.life = 0 then [] else s.fixed.active } := by
  unfold State.seal
  dsimp only
  rw [State.complete_fixed, State.sealRecord_fixed, State.lifeEvent_fixed]
  by_cases hblank : s.trust.life = 0
  · rw [if_pos (beq_iff_eq.2 hblank), State.leaveBlank_fixed, if_pos (show s.fixed.life = 0 from hblank)]
    rfl
  · rw [if_neg (fun h => hblank (beq_iff_eq.1 h)), if_neg (show ¬s.fixed.life = 0 from hblank)]
    rfl

/-- The sealed configuration replaced (R431). -/
def State.updateSealed (s : State) (c : Cmd) (m : LifeMsg) : State :=
  (s.modTrust fun x => { x with sealed_ := m.cfg }).lifeEvent.sealRecord.complete c .success 0

theorem State.updateSealed_fixed (s : State) (c : Cmd) (m : LifeMsg) : (s.updateSealed c m).fixed = { s.fixed with sealed_ := m.cfg } := by
  unfold State.updateSealed
  rw [State.complete_fixed, State.sealRecord_fixed, State.lifeEvent_fixed]
  rfl

/-- The part relocated (R433). -/
def State.relocated (s : State) (t : Nat) (c : Cmd) : State :=
  ((((s.lifeEvent).complete c .success 0).relocateFrom 0).afterSwap t).strapToRole

theorem State.relocated_fixed (s : State) (t : Nat) (c : Cmd) : (s.relocated t c).fixed =
    { s.fixed with life := 2, journal := 0, ik := none, ownerRoot := zeros 64, sealed_ := zeros 64,
                   ownerGen := (s.fixed.ownerGen + 1) % 256, active := [] } := by
  unfold State.relocated
  rw [State.strapToRole_fixed, State.afterSwap_fixed, State.relocateFrom_fixed, State.complete_fixed, State.lifeEvent_fixed]

/-- The part returned (R434). -/
def State.returned (s : State) (c : Cmd) : State :=
  let blank := s.trust.life == 0
  let u := if blank then s.leaveBlank else s
  (((u.lifeEvent.runReturn.complete c .success 0).drainUrgent).dropHops).strapToRole

theorem State.returned_fixed (s : State) (c : Cmd) : ∃ x : Fixed, (s.returned c).fixed =
    { x with life := 3, journal := 0, fuseReturned := true, fk := 0, ik := none, ownerRoot := zeros 64, sealed_ := zeros 64 } := by
  unfold State.returned
  dsimp only
  rw [State.strapToRole_fixed, State.dropHops_fixed, State.drainUrgent_fixed, State.complete_fixed, State.runReturn_fixed]
  exact ⟨_, rfl⟩

/-! ### The commands (R430 to R434) -/

section
variable {t : Nat} {c : Cmd} {data msg : List Byte} {s : State} (hmsg : msg = s.inData c data)
include hmsg

theorem execLifeGenkey_of (h : s.acceptsLife t 1 c msg) :
    exec (.lifeGenkey t c data) s = .next (((s.served t c).nonceUsed (lifeMsg msg)).genkey c) := by
  refine congrArg Host.Outcome.next (State.serve_accepted (f := fun u _ => u.genkey c) hmsg (by decide) (by decide) h ?_)
  rw [State.rd_inData hmsg h]
  rfl

theorem execLifeSeal_of (h : s.acceptsLife t 2 c msg) :
    exec (.lifeSeal t c data) s = .next (((s.served t c).nonceUsed (lifeMsg msg)).seal t c (lifeMsg msg)) := by
  refine congrArg Host.Outcome.next (State.serve_accepted (f := fun u m => u.seal t c m) hmsg (by decide) (by decide) h ?_)
  rw [State.rd_inData hmsg h]
  rfl

theorem execLifeUpdate_of (h : s.acceptsLife t 5 c msg) :
    exec (.lifeUpdate t c data) s = .next (((s.served t c).nonceUsed (lifeMsg msg)).updateSealed c (lifeMsg msg)) := by
  refine congrArg Host.Outcome.next (State.serve_accepted (f := fun u m => u.updateSealed c m) hmsg (by decide) (by decide) h ?_)
  rw [State.rd_inData hmsg h]
  rfl

theorem execLifeRelocate_of (h : s.acceptsLife t 3 c msg) :
    exec (.lifeRelocate t c data) s = .next (((s.served t c).nonceUsed (lifeMsg msg)).relocated t c) := by
  refine congrArg Host.Outcome.next (State.serve_accepted (f := fun u _ => u.relocated t c) hmsg (by decide) (by decide) h ?_)
  rw [State.rd_inData hmsg h]
  rfl

theorem execLifeReturn_of (h : s.acceptsLife t 4 c msg) :
    exec (.lifeReturn t c data) s = .next (((s.served t c).nonceUsed (lifeMsg msg)).returned c) := by
  refine congrArg Host.Outcome.next (State.serve_accepted (f := fun u _ => u.returned c) hmsg (by decide) (by decide) h ?_)
  rw [State.rd_inData hmsg h]
  rfl

end

/-- What the owner material and the state of a part are, as its guarded part holds them. -/
theorem State.shows_fixed {s : State} {x : Fixed} (h : s.fixed = x) : s.trust.life = x.life ∧ s.trust.ik = x.ik ∧ s.trust.ownerRoot = x.ownerRoot ∧
    s.trust.sealed_ = x.sealed_ ∧ s.trust.ownerGen = x.ownerGen ∧ s.trust.fuseReturned = x.fuseReturned ∧ s.cfg.a = x.active := by
  subst h
  exact ⟨rfl, rfl, rfl, rfl, rfl, rfl, rfl⟩

/-- Settles O43: an accepted message has the effect of its action, and the guarded part shows what that leaves. -/
theorem lifecycleCommandsComplete : Obligations.LifecycleCommandsComplete := by
  intro t c data msg s hmsg
  have hfound := State.accepted_fixed s t c (lifeMsg msg)
  refine ⟨fun h => Runs.of (execLifeGenkey_of hmsg h) ?_, fun h => Runs.of (execLifeSeal_of hmsg h) ?_,
    fun h => Runs.of (execLifeUpdate_of hmsg h) ?_, fun h => Runs.of (execLifeRelocate_of hmsg h) ?_,
    fun h => Runs.of (execLifeReturn_of hmsg h) ?_⟩ <;>
    generalize (s.served t c).nonceUsed (lifeMsg msg) = u at hfound ⊢
  · obtain ⟨hik, hcert, hlife⟩ := TrustState.keys_of_still (State.genkey_still u c)
    rw [hik, hcert, hlife]
    obtain ⟨hnew, hfree, hstays⟩ := State.newIk_shows u
    exact ⟨hnew, hfree, hstays.trans (congrArg Fixed.life hfound)⟩
  · obtain ⟨hlife, hik, hroot, hseal, -, -, ha⟩ := State.shows_fixed (State.seal_fixed u t c (lifeMsg msg))
    rw [hfound] at hik ha
    exact ⟨hlife, hroot, hseal, hik, ha⟩
  · obtain ⟨hlife, -, hroot, hseal, -, -, -⟩ := State.shows_fixed (State.updateSealed_fixed u c (lifeMsg msg))
    rw [hfound] at hlife hroot
    exact ⟨hseal, hlife, hroot⟩
  · obtain ⟨hlife, hik, hroot, hseal, hgen, -, ha⟩ := State.shows_fixed (State.relocated_fixed u t c)
    rw [hfound] at hgen
    exact ⟨hlife, hik, hroot, hseal, ha, hgen⟩
  · obtain ⟨x, hx⟩ := State.returned_fixed u c
    obtain ⟨-, -, -, -, -, hfuse, -⟩ := State.shows_fixed hx
    exact ⟨hx ▸ ⟨rfl, rfl, rfl, rfl, rfl⟩, hfuse⟩

end Sys2Proof.Machine
end

section
/-! Debug sessions (R436 to R439). -/

namespace Sys2Proof.Machine

/-! ### What dropping the hops leaves of Apex (R438) -/

theorem State.dropHops_trust (s : State) : s.dropHops.trust.still = s.trust.still := by
  unfold State.dropHops
  dsimp only
  rw [State.modPort_trust, State.modPort_trust]
  exact Kept.trust_eq ((State.hopDown_kept ..).trans (State.hopDown_kept ..))

theorem State.drainPort_trust (s : State) (side : Side) (tcs : List Nat) (n : Nat) : (s.drainPort side tcs n).trust = s.trust := by
  induction n generalizing s with
  | zero => rfl
  | succ n ih =>
    unfold State.drainPort
    split
    · rfl
    · split
      · rfl
      · exact (ih _).trans (State.modPort_trust ..)

theorem State.drainUrgent_trust (s : State) : s.drainUrgent.trust = s.trust := (State.drainPort_trust ..).trans (State.drainPort_trust ..)

theorem State.sendSafety_trust (s : State) (msg : Nat) (f : FaultInfo) : (s.sendSafety msg f).trust.still = s.trust.still := by
  unfold State.sendSafety
  dsimp only
  exact ite_trust ((Kept.trust_eq (State.originate_kept ..)).trans rfl) rfl

/-! ### A session opens (R436 to R438) -/

theorem TrustState.session_of_still {x y : TrustState} (h : x.still = y.still) : x.session = y.session ∧ x.keepAwake = y.keepAwake ∧
    x.hopsHeld = y.hopsHeld ∧ x.tapNonce = y.tapNonce ∧ x.sleepHeld = y.sleepHeld :=
  ⟨(congrArg TrustState.session h : x.still.session = y.still.session), (congrArg TrustState.keepAwake h : x.still.keepAwake = y.still.keepAwake),
    (congrArg TrustState.hopsHeld h : x.still.hopsHeld = y.still.hopsHeld), (congrArg TrustState.tapNonce h : x.still.tapNonce = y.still.tapNonce),
    (congrArg TrustState.sleepHeld h : x.still.sleepHeld = y.still.sleepHeld)⟩

/-- A session is recorded, and nothing of it changes (R437, R454). -/
theorem State.recordSession_trust (s : State) (e : Ev) (level : Nat) (awake : Bool) (signer : List Byte) :
    ((s.event e).debugRecord level awake signer).trust.still = s.trust.still :=
  Kept.trust_eq ((State.debugRecord_kept ..).trans (State.event_kept ..))

section
variable {t : Nat} {s : State} (hapex : s.apexRuns = true) (hrun : s.inRunDoze = true)
include hapex hrun

theorem execDebugObserveOpen_shows (hsess : s.trust.session = 0) : Runs (.debugObserveOpen t) s fun s' => s'.trust.session = 1 := by
  refine ⟨_, rfl, ?_⟩
  dsimp only
  rw [show (s.at_ t).apexRuns = true from hapex, show (s.at_ t).inRunDoze = true from hrun, show (s.at_ t).trust.session = 0 from hsess,
    if_neg (by decide)]
  obtain ⟨hopen, -⟩ := TrustState.session_of_still
    (State.recordSession_trust ((s.at_ t).modTrust fun x => { x with session := 1 }) { source := 55, subkind := 1, item := 1 } 1 false (zeros 8))
  exact hopen

/-- The part with the next nonce of the debug port drawn (R437). -/
def State.newTapNonce (s : State) : State := (s.drawBytes 16).2.modTrust fun x => { x with tapNonce := (s.drawBytes 16).1 }

/-- A FULL session opened: what is urgent leaves before the hops go DOWN (R438). -/
def State.openFull (s : State) (keepAwake : Bool) : State :=
  let u := ((s.sendSafety 0x04 {}).drainUrgent.dropHops).modTrust fun x =>
    { x with session := 2, keepAwake := keepAwake, hopsHeld := true, debugMark := true }
  (u.event { source := 55, subkind := 1, item := 2 }).debugRecord 2 keepAwake (keyId u.debugSigner)

theorem execDebugFullOpen_of {sig : List Byte} {keepAwake : Bool} (hsess : s.trust.session ≠ 2) : exec (.debugFullOpen t sig keepAwake) s =
    .next (if !s.fullOk sig keepAwake then (s.at_ t).newTapNonce else (s.at_ t).newTapNonce.openFull keepAwake) := by
  show execDebugFullOpen t sig keepAwake s = _
  unfold execDebugFullOpen
  dsimp only
  rw [show (s.at_ t).apexRuns = true from hapex, show (s.at_ t).inRunDoze = true from hrun,
    decide_eq_false (show ¬(s.at_ t).trust.session = 2 from hsess), if_neg (by decide)]
  rfl

end

theorem State.newTapNonce_shows (s : State) : s.newTapNonce.trust.tapNonce = (s.drawBytes 16).1 ∧ s.newTapNonce.trust.session = s.trust.session :=
  ⟨rfl, rfl⟩

theorem State.openFull_shows (s : State) (keepAwake : Bool) : (s.openFull keepAwake).trust.session = 2 ∧
    (s.openFull keepAwake).trust.keepAwake = keepAwake ∧ (s.openFull keepAwake).trust.hopsHeld = true ∧
    (s.openFull keepAwake).trust.tapNonce = s.trust.tapNonce := by
  have hdropped : ((s.sendSafety 0x04 {}).drainUrgent.dropHops).trust.still = s.trust.still :=
    (State.dropHops_trust _).trans ((congrArg TrustState.still (State.drainUrgent_trust _)).trans (State.sendSafety_trust ..))
  obtain ⟨-, -, -, hnonce, -⟩ := TrustState.session_of_still hdropped
  unfold State.openFull
  generalize (s.sendSafety 0x04 {}).drainUrgent.dropHops = u at hnonce ⊢
  dsimp only
  obtain ⟨hsess, hawake, hheld, htap, -⟩ := TrustState.session_of_still (State.recordSession_trust
    (u.modTrust fun x => { x with session := 2, keepAwake := keepAwake, hopsHeld := true, debugMark := true })
    { source := 55, subkind := 1, item := 2 } 2 keepAwake
    (keyId (u.modTrust fun x => { x with session := 2, keepAwake := keepAwake, hopsHeld := true, debugMark := true }).debugSigner))
  exact ⟨hsess, hawake, hheld, htap.trans hnonce⟩

theorem execDebugFullOpen_shows {t : Nat} {sig : List Byte} {keepAwake : Bool} {s : State} (hapex : s.apexRuns = true)
    (hrun : s.inRunDoze = true) (hsess : s.trust.session ≠ 2) : Runs (.debugFullOpen t sig keepAwake) s fun s' =>
      s'.trust.tapNonce = ((s.at_ t).drawBytes 16).1 ∧
        (if s.fullOk sig keepAwake = true then s'.trust.session = 2 ∧ s'.trust.keepAwake = keepAwake ∧ s'.trust.hopsHeld = true
         else s'.trust.session = s.trust.session) := by
  refine ⟨_, execDebugFullOpen_of hapex hrun hsess, ?_⟩
  obtain ⟨hnonce, hstays⟩ := State.newTapNonce_shows (s.at_ t)
  cases hok : s.fullOk sig keepAwake with
  | false => exact ⟨hnonce, hstays⟩
  | true =>
    obtain ⟨hopen, hawake, hheld, htap⟩ := State.openFull_shows (s.at_ t).newTapNonce keepAwake
    exact ⟨htap.trans hnonce, hopen, hawake, hheld⟩

/-! ### A session closes (R437 to R439) -/

/-- A SLEEP is held by a session (R439). -/
def State.holdsSleep (s : State) : Bool := s.trust.sleepHeld

theorem State.holdsSleep_of_kept {s u : State} (h : s.kept = u.kept) : s.holdsSleep = u.holdsSleep := by
  obtain ⟨-, -, -, -, hheld⟩ := TrustState.session_of_still (Kept.trust_eq h)
  exact hheld

theorem State.modDie_holdsSleep (s : State) (k : Nat) (f : Die → Die) : (s.modDie k f).holdsSleep = s.holdsSleep :=
  congrArg TrustState.sleepHeld (State.modDie_trust s k f)

theorem State.dieEvent_holdsSleep (s : State) (k : Nat) (e : Ev) : (s.dieEvent k e).holdsSleep = s.holdsSleep := by
  obtain ⟨-, -, -, -, hheld⟩ := TrustState.session_of_still (State.dieEvent_trust s k e)
  exact hheld

theorem State.loadState_holdsSleep (s : State) (k : Nat) : (s.loadState k).holdsSleep = s.holdsSleep := by
  refine view_onDie State.holdsSleep (fun d => ?_) rfl
  split
  · exact view_ite State.holdsSleep (State.modDie_holdsSleep ..) ((State.dieEvent_holdsSleep ..).trans (State.modDie_holdsSleep ..))
  · exact view_ite State.holdsSleep (State.modDie_holdsSleep ..) ((State.dieEvent_holdsSleep ..).trans (State.modDie_holdsSleep ..))

theorem State.tasksHome_holdsSleep (s : State) (k : Nat) : (s.tasksHome k).holdsSleep = s.holdsSleep :=
  view_onDie State.holdsSleep (fun _ => view_ite State.holdsSleep ((State.loadState_holdsSleep ..).trans (State.modDie_holdsSleep ..))
    (State.modDie_holdsSleep ..)) rfl

theorem State.abortExecuting_holdsSleep (s : State) : s.abortExecuting.holdsSleep = s.holdsSleep :=
  (view_foldl State.holdsSleep (fun _ _ => State.holdsSleep_of_kept (State.complete_kept ..)) _ _).trans rfl

theorem State.locusRestart_trust (s : State) : s.locusRestart.trust = s.trust := rfl

theorem State.locusRestart_holdsSleep (s : State) : s.locusRestart.holdsSleep = s.holdsSleep := by
  unfold State.holdsSleep
  rw [State.locusRestart_trust]

theorem State.closeSession_holdsSleep (s : State) : s.closeSession.holdsSleep = s.holdsSleep := by
  have recorded (u : State) (e : Ev) (level : Nat) (awake : Bool) (signer : List Byte) :
      ((u.event e).debugRecord level awake signer).holdsSleep = u.holdsSleep :=
    State.holdsSleep_of_kept ((State.debugRecord_kept ..).trans (State.event_kept ..))
  have stopped (u : State) : (u.islands.foldl (fun s k => s.tasksHome k) u).abortExecuting.locusRestart.holdsSleep = u.holdsSleep :=
    (State.locusRestart_holdsSleep _).trans ((State.abortExecuting_holdsSleep _).trans (view_foldl State.holdsSleep State.tasksHome_holdsSleep _ u))
  have ended (u : State) : (u.modTrust fun x =>
      { x with session := 0, keepAwake := false, hopsHeld := false, debugMark := false }).holdsSleep = u.holdsSleep := rfl
  unfold State.closeSession
  dsimp only
  split
  · rfl
  · refine (ended _).trans <| (recorded _ _ _ _ _).trans (view_ite State.holdsSleep ?_ rfl)
    exact (State.holdsSleep_of_kept (State.event_kept ..)).trans (stopped s)

/-- A session that is closed holds neither the hops nor the part awake (R437, R439). -/
theorem State.closeSession_ends {s : State} (h : s.trust.session ≠ 0) : s.closeSession.trust.session = 0 ∧ s.closeSession.trust.hopsHeld = false := by
  unfold State.closeSession
  dsimp only
  rw [if_neg h]
  exact ⟨rfl, rfl⟩

theorem execDebugClose_of {t : Nat} {s : State} (hsess : s.trust.session ≠ 0) (hheld : s.trust.sleepHeld = false) :
    exec (.debugClose t) s = .next (s.at_ t).closeSession := by
  show execDebugClose t s = _
  unfold execDebugClose
  dsimp only
  rw [if_neg (show ¬(s.at_ t).trust.session = 0 from hsess),
    show (s.at_ t).closeSession.trust.sleepHeld = false from (State.closeSession_holdsSleep (s.at_ t)).trans hheld, if_neg (by decide)]

/-- Settles O44: a session that opens is recorded and keeps what opened it; one that closes ends, and a SLEEP was not held by it. -/
theorem debugCommandsComplete : Obligations.DebugCommandsComplete :=
  ⟨fun _ _ hapex hrun hsess => execDebugObserveOpen_shows hapex hrun hsess,
    fun _ _ _ _ hapex hrun hsess => execDebugFullOpen_shows hapex hrun hsess,
    fun t s hsess hheld => ⟨_, execDebugClose_of hsess hheld, State.closeSession_ends (s := s.at_ t) hsess⟩⟩

end Sys2Proof.Machine
end

section
/-! The meter, the black box and the trust response (R424, R443 to R445, R453 to R457). -/

namespace Sys2Proof.Machine

/-! ### What a frame that is sent leaves of Apex (R256) -/

theorem State.enqueue_trust (s : State) (side : Side) (f : Frame) : (s.enqueue side f).trust = s.trust := State.modPort_trust ..

theorem State.egress_trust (s : State) (side : Side) (f : Frame) : (s.egress side f).trust = s.trust :=
  view_ite State.trust (State.enqueue_trust ..) (view_ite State.trust rfl (State.enqueue_trust ..))

theorem State.dispatchFrame_trust (s : State) (dest : Nat) (f : Frame) : (s.dispatchFrame dest f).trust = s.trust := by
  have both (c : Prop) [Decidable c] (g : Frame) : (if c then s.enqueue .up g else s).trust = s.trust :=
    view_ite State.trust (State.enqueue_trust ..) rfl
  refine view_ite State.trust (view_ite State.trust ((State.enqueue_trust ..).trans (both ..)) (both ..)) (view_ite State.trust ?_ (State.egress_trust ..))
  exact (State.enqueue_trust ..).trans (State.enqueue_trust ..)

/-- A frame that is sent leaves all of Apex, the records that wait too. -/
theorem State.originate_trustEq (s : State) (tc kind dest : Nat) (payload : List Byte) : (s.originate tc kind dest payload).trust = s.trust := by
  unfold State.originate
  split
  · rfl
  · refine view_ite State.trust rfl (view_ite State.trust rfl ?_)
    exact (view_foldl State.trust (fun s f => State.dispatchFrame_trust s _ f) _ _).trans rfl

/-! ### The meter and the history (R443, R444, R454, R455) -/

section
variable {t : Nat} {s : State} (hapex : s.apexRuns = true)
include hapex

theorem execMeterCommit_of (ht : t % 10000000 = 0) (hwarn : s.power.warnAt = none) (hdue : s.trust.meterDirty = true ∨ s.trust.stmtWait ≠ []) :
    exec (.meterCommit t) s = .next (((s.at_ t).commitMeter false).formStatements).actDue := by
  have hcommit : (s.trust.meterDirty || !s.trust.stmtWait.isEmpty) = true := by
    obtain h | h := hdue
    · rw [h, Bool.true_or]
    · rw [List.isEmpty_eq_false_iff.2 h, Bool.not_false, Bool.or_true]
  show execMeterCommit t s = _
  unfold execMeterCommit
  dsimp only
  rw [show (s.at_ t).apexRuns = true from hapex, show (s.at_ t).power.warnAt = none from hwarn, if_neg (by simp [ht]),
    show (s.at_ t).trust = s.trust from rfl, if_pos hcommit]

theorem execMeterSnapshot_of (ht : t % 3600000000000 = 0) : exec (.meterSnapshot t) s = .next ((s.at_ t).blackBox 0x12 false (s.at_ t).meterBody) := by
  show execMeterSnapshot t s = _
  unfold execMeterSnapshot
  dsimp only
  rw [show (s.at_ t).apexRuns = true from hapex, if_neg (by simp [ht])]

theorem execHistoryPeriod_shows (hlife : s.trust.life ≠ 0) (hdue : s.trust.history.start + historyNs ≤ t) :
    Runs (.historyPeriod t) s fun s' => s'.trust.history = History.from_ (s.trust.history.start + historyNs) := by
  have hbody : (s.at_ t).historyBody.2.trust = s.trust := by
    unfold State.historyBody
    dsimp only
    split <;> rfl
  have hstays (u : State) (body : List Byte) : (u.blackBox 0x05 true body).trust.history = u.trust.history := rfl
  refine ⟨_, rfl, ?_⟩
  dsimp only
  rw [show (s.at_ t).apexRuns = true from hapex, show (s.at_ t).trust = s.trust from rfl, if_neg (by simp [hlife, hdue])]
  show History.from_ (((s.at_ t).historyBody.2.blackBox 0x05 true _).trust.history.start + historyNs) = _
  rw [hstays, hbody]

end

theorem execMeterStatement_of {t : Nat} {c : Cmd} {s : State} (h : s.serves 0x10 c) : exec (.meterStatement t c) s =
    .next ((s.served t c).modTrust fun x => { x with stmtWait := x.stmtWait ++ [c] }) :=
  congrArg Host.Outcome.next (State.serves_serve t h rfl)

/-! ### The trust response (R445) -/

/-- A fresh nonce of the part drawn and kept (R445). -/
def State.freshNonce (s : State) (t : Nat) : State := (s.drawBytes 16).2.modTrust fun x => { x with nonce := some ((s.drawBytes 16).1, t) }

theorem State.freshNonce_nonce (s : State) (t : Nat) : (s.freshNonce t).trust.nonce = some ((s.drawBytes 16).1, t) := rfl

theorem State.sign_trust (s : State) (key : Nat) (msg : List Byte) : (s.sign key msg).2.trust = s.trust := rfl

/-- The trust response of a part, signed but in RETURNED (R445). -/
def State.trustResponse (s : State) (host nonce : List Byte) : List Byte × State :=
  let h := s.trustHead host nonce
  let g := if s.trust.life = 3 then (zeros 64, s) else s.sign s.trust.fk h
  (h ++ g.1, g.2)

theorem State.trustResponse_trust (s : State) (host nonce : List Byte) : (s.trustResponse host nonce).2.trust = s.trust := by
  unfold State.trustResponse
  dsimp only
  split <;> rfl

theorem execTrustChallenge_of {t : Nat} {c : Cmd} {s : State} (h : s.serves 0x11 c) : exec (.trustChallenge t c) s =
    .next ((((s.served t c).freshNonce t).trustResponse (slice c.param 0 16) ((s.served t c).drawBytes 16).1).2.completeData c .success 0
      (((s.served t c).freshNonce t).trustResponse (slice c.param 0 16) ((s.served t c).drawBytes 16).1).1) :=
  congrArg Host.Outcome.next (State.serves_serve t h rfl)

theorem TrustState.nonce_of_still {x y : TrustState} (h : x.still = y.still) : x.nonce = y.nonce :=
  (congrArg TrustState.nonce h : x.still.nonce = y.still.nonce)

theorem execTrustChallenge_shows {t : Nat} {c : Cmd} {s : State} (h : s.serves 0x11 c) :
    Runs (.trustChallenge t c) s fun s' => s'.trust.nonce = some (((s.served t c).drawBytes 16).1, t) := by
  refine Runs.of (execTrustChallenge_of h) ?_
  rw [TrustState.nonce_of_still (Kept.trust_eq (State.completeData_kept ..)), State.trustResponse_trust]
  exact State.freshNonce_nonce (s.served t c) t

/-! ### The black box (R453, R457) -/

/-- The record that waits longest, written to both copies, leaves the queue as it was behind it (R453). -/
theorem State.writeBb_shows {s : State} {w : BbWait} {rest : List BbWait} (h : s.trust.bbWait = w :: rest) :
    (s.writeBb true true).trust.bbWait = rest ∧ (s.writeBb true true).trust.oneCopy = s.trust.oneCopy := by
  have hbytes (unsign : Bool) : (s.bbBytes w unsign).2.trust = s.trust := by
    unfold State.bbBytes
    dsimp only
    split <;> rfl
  unfold State.writeBb
  rw [h]
  dsimp only
  generalize hb : s.bbBytes w (w.unsign || s.warned || s.trust.life == 3) = b
  have htrust : b.2.trust = s.trust := hb ▸ hbytes _
  have sent (u : State) (body : List Byte) : (if w.keep && u.isModule then u.originate 2 0x20 0 body else u).trust = u.trust :=
    view_ite State.trust (State.originate_trustEq ..) rfl
  rw [sent, if_pos (by decide)]
  refine ⟨rfl, ?_⟩
  show (b.2.trust.oneCopy || false) = _
  rw [Bool.or_false, htrust]

theorem execBlackboxRecordWrite_of {t : Nat} {okA okB : Bool} {s : State} (hapex : s.apexRuns = true) (hbusy : (s.at_ t).signBusy = false) :
    exec (.blackboxRecordWrite t okA okB) s = .next ((s.at_ t).writeBb okA okB) := by
  show execBlackboxRecordWrite t okA okB s = _
  unfold execBlackboxRecordWrite
  dsimp only
  rw [show (s.at_ t).apexRuns = true from hapex, hbusy, if_pos (by decide)]

theorem execBlackboxRead_of {t : Nat} {c : Cmd} {rs got : List BbRec} {s : State} (h : s.serves 0x15 c)
    (hrs : rs = (s.trust.bb.filter fun r => decide (rd c.param 4 4 ≤ r.seq) && (r.okA || r.okB)))
    (hgot : got = rs.take (min rs.length (c.bufLen / 256))) : exec (.blackboxRead t c) s =
      .next ((s.served t c).completeData c .success
        (fld 0 16 (min rs.length (c.bufLen / 256)) +
          fld 16 16 (sat 16 (((got.getLast?).map (·.seq + 1)).getD (rd c.param 4 4) - rd c.param 4 4 - min rs.length (c.bufLen / 256))))
        (got.flatMap (·.bytes))) := by
  subst hgot hrs
  exact congrArg Host.Outcome.next (State.serves_serve t h rfl)

/-- Settles O41: each clause is its command's own equation; completing a command and sending a record leave the nonce, the queue and
the mark of a single copy. -/
theorem meterAndBlackBoxCommandsComplete : Obligations.MeterAndBlackBoxCommandsComplete :=
  ⟨fun _ _ hapex ht hwarn hdue => ⟨_, execMeterCommit_of hapex ht hwarn hdue, rfl⟩, fun _ _ _ h => ⟨_, execMeterStatement_of h, rfl⟩,
    fun _ _ hapex ht => ⟨_, execMeterSnapshot_of hapex ht, rfl⟩, fun _ _ hapex hlife hdue => execHistoryPeriod_shows hapex hlife hdue,
    fun _ _ _ h => execTrustChallenge_shows h, fun _ _ => ⟨_, rfl, rfl⟩,
    fun t _ _ s hapex hbusy hw => ⟨_, execBlackboxRecordWrite_of hapex hbusy, State.writeBb_shows (s := s.at_ t) hw⟩,
    fun _ _ _ _ _ h hrs hgot => ⟨_, execBlackboxRead_of h hrs hgot, rfl⟩⟩

end Sys2Proof.Machine
end

section
/-! Firmware: staging, verification, activation, rollback and the security version (R362, R447 to R450). -/

namespace Sys2Proof.Machine

/-! ### Staging (R362) -/

/-- A chunk within the rules is put into the staging of its image. -/
theorem State.stageFirmware_of {s : State} {c : Cmd} {b : List Byte} (himg : rd c.param 0 1 = 1 ∨ rd c.param 0 1 = 2) (halign : rd c.param 4 4 % 4 = 0)
    (hmax : rd c.param 8 4 ≤ imageMax (rd c.param 0 1)) (hfit : rd c.param 4 4 + c.bufLen ≤ rd c.param 8 4)
    (hsame : rd c.param 4 4 ≠ 0 → rd c.param 8 4 = (s.trust.staging.getD (rd c.param 0 1 - 1) { total := 0, chunks := [] }).total) :
    s.stageFirmware c b =
      (s.putStaging (rd c.param 0 1) (rd c.param 4 4) (rd c.param 8 4) (slice b 0 c.bufLen)).completeX c .success 0 c.bufLen := by
  unfold State.stageFirmware
  dsimp only
  rw [if_neg]
  rintro (⟨h1, h2⟩ | h | h | h | ⟨hoff, htot⟩)
  · exact himg.elim h1 h2
  · exact h halign
  · exact absurd hmax (Nat.not_le.2 h)
  · exact absurd hfit (Nat.not_le.2 h)
  · exact htot (hsame hoff)

theorem execFirmwareStage_of {t : Nat} {c : Cmd} {data : List Byte} {s w : State} (h : s.serves 0x12 c) (hw : w = s.served t c) :
    exec (.firmwareStage t c data) s = .next (w.stageFirmware c (s.inData c data)) := by
  subst hw
  show Host.Outcome.next ((s.at_ t).serve 0x12 c true _) = _
  rw [State.serves_serve t h rfl, State.inData_served]

theorem execFirmwareFrameReceive_of {t : Nat} {bytes b : List Byte} {f : Frame} {c : Cmd} {s w u : State} (hf : f = frameOf bytes)
    (hl : s.linkRuns = true) (hm : s.isModule = true) (htc : f.tc = 3) (hk : f.kind = 0x31) (ha : (s.at_ t).accept f = (.deliver, w))
    (hasm : w.assemble f = (some b, u)) (hc : c = cmdOf (rd b 64 1) (rd b 65 2) b) :
    exec (.firmwareFrameReceive t bytes) s = .next (u.serve 0x12 c true fun x => x.stageFirmware c (b.drop 67)) := by
  subst hf hc
  show execFirmwareFrameReceive t bytes s = _
  unfold execFirmwareFrameReceive
  dsimp only
  rw [show (s.at_ t).linkRuns = true from hl, show (s.at_ t).isModule = true from hm, htc, hk, if_neg (by decide), ha]
  dsimp only
  rw [if_neg (by decide), hasm]

/-! ### Verification and activation (R447 to R449) -/

section
variable {t : Nat} {c : Cmd} {starts : Bool} {x : Staging} {v : Bool × State} {s w : State} (h : s.serves 0x13 c) (hw : w = s.served t c)
include h hw

section
variable (hx : s.trust.staging[rd c.param 0 1 - 1]? = some x) (hwhole : x.whole = true) (hv : v = w.verifyImage (rd c.param 0 1) x.image x.total)
include hx hwhole hv

omit h in
/-- A whole staged image is verified. -/
theorem State.withStaged_of {f : State → List Byte → State} :
    w.withStaged c f = if v.1 = true then f v.2 x.image else v.2.complete c .imageRejected 0 := by
  subst hw hv
  have hget : (s.served t c).trust.staging.getD (rd c.param 0 1 - 1) { total := 0, chunks := [] } = x := by
    rw [List.getD_eq_getElem?_getD, show (s.served t c).trust.staging = s.trust.staging from rfl, hx]
    rfl
  unfold State.withStaged
  dsimp only
  rw [hget, hwhole, if_neg (by decide)]

theorem execFirmwareVerify_of (hmay : w.activateRefusal c (rd c.param 1 1 != 0) = none) (ha : rd c.param 1 1 = 0) : exec (.firmwareVerify t c) s =
    .next (v.2.complete c (if v.1 = true then .success else .imageRejected) 0) := by
  have hmay' : (s.served t c).activateRefusal c false = none := by
    rw [ha] at hmay
    exact hw ▸ hmay
  show Host.Outcome.next ((s.at_ t).serve 0x13 c _ _) = _
  rw [State.serves_serve t h (by rw [ha]; decide)]
  rw [if_neg (not_not_intro ha), hmay']
  dsimp only
  rw [← hw, State.withStaged_of hw hx hwhole hv]
  split <;> rfl

theorem execFirmwareActivate_of (hmay : w.activateRefusal c (rd c.param 1 1 != 0) = none) (ha : rd c.param 1 1 = 1) : exec (.firmwareActivate t c starts) s =
    .next (if v.1 = true then (if rd c.param 0 1 = 1 then v.2.modTrust fun y => { y with apexImgs := setNth (b2n (!y.apexSlotB)) x.image y.apexImgs }
      else v.2).startActivation c starts else v.2.complete c .imageRejected 0) := by
  have hmay' : (s.served t c).activateRefusal c true = none := by
    rw [ha] at hmay
    exact hw ▸ hmay
  show Host.Outcome.next ((s.at_ t).serve 0x13 c _ _) = _
  rw [State.serves_serve t h (by rw [ha]; decide)]
  dsimp only
  rw [hmay']
  dsimp only
  rw [← hw, State.withStaged_of hw hx hwhole hv]

end

theorem execFirmwareReturnPrevious_of {b : List Byte} (ha : rd c.param 1 1 = 2) (hmay : w.activateRefusal c true = none)
    (hb : b = (if rd c.param 0 1 = 1 then w.apexImage (!s.trust.apexSlotB) else w.spanImage (!s.trust.slotB)))
    (hv : v = w.verifyImage (rd c.param 0 1) b b.length) : exec (.firmwareReturnPrevious t c starts) s =
      .next (if v.1 = true then v.2.startActivation c starts else v.2.complete c .imageRejected 0) := by
  subst hb hv hw
  show Host.Outcome.next ((s.at_ t).serve 0x13 c _ _) = _
  rw [State.serves_serve t h (by rw [ha]; decide)]
  dsimp only
  rw [hmay]
  rfl

end

/-! ### The Span in force (R448) -/

theorem TrustState.span_of_still {x y : TrustState} (h : x.still = y.still) : x.slotB = y.slotB ∧ x.act = y.act ∧ x.trial = y.trial :=
  ⟨(congrArg TrustState.slotB h : x.still.slotB = y.still.slotB), (congrArg TrustState.act h : x.still.act = y.still.act),
    (congrArg TrustState.trial h : x.still.trial = y.still.trial)⟩

/-- Noting an image and completing its activation change nothing of Apex (R448, R454). -/
theorem State.noteImage_trust (s : State) (kind sub : Nat) (b : List Byte) : (s.noteImage kind sub b).trust.still = s.trust.still :=
  Kept.trust_eq ((State.blackBox_kept ..).trans (State.event_kept ..))

theorem State.flipSpan_shows (s : State) (trial : Bool) :
    (s.flipSpan trial).trust.slotB = !s.trust.slotB ∧ (s.flipSpan trial).trust.act = none ∧ (s.flipSpan trial).trust.trial = trial := ⟨rfl, rfl, rfl⟩

section
variable {t r : Nat} {a : Activation} {s w : State} (hw : w = (s.at_ t).actDue) (hact : w.trust.act = some a) (hrun : a.runAt = some r)
include hw hact hrun

theorem execSpanReady_of (hdue : t ≤ r + 10000000000) : exec (.spanReady t) s =
    .next (((w.flipSpan true).noteImage 2 3 ((w.flipSpan true).spanImage (w.flipSpan true).trust.slotB)).complete a.cmd .success 0) := by
  subst hw
  show execSpanReady t s = _
  unfold execSpanReady
  dsimp only
  rw [hact]
  dsimp only
  rw [hrun, Option.map_some, Option.getD_some, if_neg (by simp [hdue])]

theorem execSpanReadyTimeout_of (hdue : r + 10000000000 ≤ t) : exec (.spanReadyTimeout t) s =
    .next (((w.modTrust fun x => { x with act := none }).noteImage 2 4 (w.spanImage w.trust.slotB)).complete a.cmd .imageRejected 2) := by
  subst hw
  show execSpanReadyTimeout t s = _
  unfold execSpanReadyTimeout
  dsimp only
  rw [hact]
  dsimp only
  rw [hrun, Option.map_some, Option.getD_some, if_neg (by simp [hdue])]
  rfl

end

theorem State.endActivation_trust (s : State) (kind sub : Nat) (b : List Byte) (c : Cmd) (st : Status) (result : Nat) :
    ((s.noteImage kind sub b).complete c st result).trust.still = s.trust.still :=
  (Kept.trust_eq (State.complete_kept ..)).trans (State.noteImage_trust ..)

theorem execSpanStop_of {t : Nat} {s w : State} (hw : w = (s.at_ t).accrueTest) (htrial : s.trust.trial = true)
    (hhour : w.runClock < s.trust.spanSince + hourNs) : exec (.spanStop t) s =
      .next (if s.trust.spanStops + 1 < 3 then w.modTrust fun x => { x with spanStops := s.trust.spanStops + 1 }
        else (w.flipSpan false).noteImage 2 4 ((w.flipSpan false).spanImage (w.flipSpan false).trust.slotB)) := by
  have htrust : w.trust = s.trust := by rw [hw]; rfl
  show execSpanStop t s = _
  unfold execSpanStop
  dsimp only
  rw [← hw, htrust, htrial, decide_eq_false (Nat.not_le.2 hhour), if_neg (by decide)]

theorem execSpanStop_shows {t : Nat} {s : State} (htrial : s.trust.trial = true)
    (hhour : (s.at_ t).accrueTest.runClock < s.trust.spanSince + hourNs) : Runs (.spanStop t) s fun s' =>
      if s.trust.spanStops + 1 < 3 then s'.trust.spanStops = s.trust.spanStops + 1 ∧ s'.trust.slotB = s.trust.slotB
      else s'.trust.slotB = !s.trust.slotB ∧ s'.trust.trial = false := by
  refine Runs.of (execSpanStop_of rfl htrial hhour) ?_
  have htrust : (s.at_ t).accrueTest.trust = s.trust := rfl
  generalize (s.at_ t).accrueTest = w at htrust
  split
  · refine ⟨rfl, ?_⟩
    show w.trust.slotB = _
    rw [htrust]
  · obtain ⟨hslot, -, htrial⟩ := TrustState.span_of_still
      (State.noteImage_trust (w.flipSpan false) 2 4 ((w.flipSpan false).spanImage (w.flipSpan false).trust.slotB))
    obtain ⟨hflip, -, hends⟩ := State.flipSpan_shows w false
    exact ⟨hslot.trans (hflip.trans (by rw [htrust])), htrial.trans hends⟩

/-! ### The security version (R450) -/

section
variable {t : Nat} {s w : State} (hw : w = (s.at_ t).accrueTest)
include hw

theorem execSvnCommit_span (htrial : s.trust.trial = true) (hhour : s.trust.spanSince + hourNs ≤ w.runClock) : exec (.svnCommit t 2) s =
    .next (w.modTrust fun x => { x with svnSpan := max x.svnSpan (imageSvn (w.spanImage x.slotB) % 64), trial := false }) := by
  subst hw
  show execSvnCommit t 2 s = _
  unfold execSvnCommit
  dsimp only
  rw [if_pos rfl, show (s.at_ t).accrueTest.trust = s.trust from rfl, htrial, decide_eq_false (Nat.not_lt.2 hhour), if_neg (by decide)]

theorem execSvnCommit_apex (himg : w.apexImage s.trust.apexSlotB ≠ []) (hhour : s.trust.apexSince + hourNs ≤ w.runClock) : exec (.svnCommit t 1) s =
    .next (w.modTrust fun x => { x with svnApex := max x.svnApex (imageSvn (w.apexImage s.trust.apexSlotB) % 64) }) := by
  subst hw
  show execSvnCommit t 1 s = _
  unfold execSvnCommit
  dsimp only
  rw [if_neg (by decide), if_pos rfl, show (s.at_ t).accrueTest.trust = s.trust from rfl, List.isEmpty_eq_false_iff.2 himg,
    decide_eq_false (Nat.not_lt.2 hhour), if_neg (by decide)]

end

/-- Settles O42: each clause is its command's own equation; noting an image and completing an activation change no slot. -/
theorem firmwareCommandsComplete : Obligations.FirmwareCommandsComplete := by
  refine ⟨fun t c data s w h hw himg halign hmax hfit hoff => ⟨_, execFirmwareStage_of h hw, ?_⟩,
    fun t c data x s w h hw himg hx halign hmax hfit htot => ⟨_, execFirmwareStage_of h hw, ?_⟩,
    fun _ _ _ _ _ _ _ _ hf hl hm htc hk ha hasm hc => ⟨_, execFirmwareFrameReceive_of hf hl hm htc hk ha hasm hc, rfl⟩,
    fun _ _ _ _ _ _ _ h hw hmay hx hwhole hv => ⟨fun ha => ⟨_, execFirmwareVerify_of h hw hx hwhole hv hmay ha, rfl⟩,
      fun ha himg => ⟨_, execFirmwareActivate_of h hw hx hwhole hv hmay ha, ?_⟩, fun ha himg => ⟨_, execFirmwareActivate_of h hw hx hwhole hv hmay ha, ?_⟩⟩,
    fun _ _ _ _ _ _ _ h hw ha hmay hb hv => ⟨_, execFirmwareReturnPrevious_of h hw ha hmay hb hv, rfl⟩,
    fun _ _ _ _ w hw hact hrun hdue => Runs.of (execSpanReady_of hw hact hrun hdue) ?_,
    fun _ _ _ _ w hw hact hrun hdue => Runs.of (execSpanReadyTimeout_of hw hact hrun hdue) ?_,
    fun _ _ htrial hhour => execSpanStop_shows htrial hhour,
    fun _ s w hw => ⟨fun htrial hhour => ⟨_, execSvnCommit_span hw htrial hhour, ?_⟩, fun himg hhour => ⟨_, execSvnCommit_apex hw himg hhour, ?_⟩⟩⟩
  · exact State.stageFirmware_of himg halign hmax hfit fun h => absurd hoff h
  · refine State.stageFirmware_of himg halign hmax hfit fun _ => htot.trans (congrArg Staging.total ?_)
    subst hw
    rw [List.getD_eq_getElem?_getD, show (s.served t c).trust.staging = s.trust.staging from rfl, hx]
    rfl
  · exact if_congr Iff.rfl (congrArg (State.startActivation · _ _) (if_neg (by omega))) rfl
  · exact if_congr Iff.rfl (congrArg (State.startActivation · _ _) (if_pos himg)) rfl
  · obtain ⟨hslot, hact, htrial⟩ := TrustState.span_of_still
      (State.endActivation_trust (w.flipSpan true) 2 3 ((w.flipSpan true).spanImage (w.flipSpan true).trust.slotB) _ .success 0)
    obtain ⟨hflip, hnone, hon⟩ := State.flipSpan_shows w true
    exact ⟨hslot.trans hflip, hact.trans hnone, htrial.trans hon⟩
  · obtain ⟨hslot, hact, -⟩ := TrustState.span_of_still
      (State.endActivation_trust (w.modTrust fun x => { x with act := none }) 2 4 (w.spanImage w.trust.slotB) _ .imageRejected 2)
    exact ⟨hact, hslot⟩
  · subst hw
    exact ⟨rfl, rfl⟩
  · subst hw
    rfl

end Sys2Proof.Machine
end

section
/-! What events, completions and the ends of fast streams leave of the host interface (R292, R333, R341). -/

namespace Sys2Proof.Machine

/-! ### Frames and claims (R256, R292) -/

theorem State.enqueue_hif (s : State) (side : Side) (f : Frame) : (s.enqueue side f).hif = s.hif := State.modPort_hif ..

theorem State.egress_hif (s : State) (side : Side) (f : Frame) : (s.egress side f).hif = s.hif :=
  view_ite State.hif (State.enqueue_hif ..) (view_ite State.hif rfl (State.enqueue_hif ..))

theorem State.dispatchFrame_hif (s : State) (dest : Nat) (f : Frame) : (s.dispatchFrame dest f).hif = s.hif := by
  have both (c : Prop) [Decidable c] (g : Frame) : (if c then s.enqueue .up g else s).hif = s.hif := view_ite State.hif (State.enqueue_hif ..) rfl
  refine view_ite State.hif (view_ite State.hif ((State.enqueue_hif ..).trans (both ..)) (both ..)) (view_ite State.hif ?_ (State.egress_hif ..))
  exact (State.enqueue_hif ..).trans (State.enqueue_hif ..)

theorem State.originate_hif (s : State) (tc kind dest : Nat) (payload : List Byte) : (s.originate tc kind dest payload).hif = s.hif := by
  unfold State.originate
  split
  · rfl
  · refine view_ite State.hif rfl (view_ite State.hif rfl ?_)
    exact (view_foldl State.hif (fun s f => State.dispatchFrame_hif s _ f) _ _).trans rfl

theorem State.unclaim_hif (s : State) (w : StrWait) : (s.unclaim w).hif = s.hif := by
  unfold State.unclaim
  split
  · exact State.originate_hif ..
  · rfl

/-- The host interface but for its waiting entries and its subscriptions, on which events and records act. -/
def HifState.sansWaits (h : HifState) : HifState := { h with eqWait := [], strWait := [], subs := [] }

def State.sansWaits (s : State) : HifState := s.hif.sansWaits

theorem State.sansWaits_of_hif {s u : State} (h : s.hif = u.hif) : s.sansWaits = u.sansWaits := congrArg HifState.sansWaits h

theorem HifState.queueClaim_sansWaits (h : HifState) (w : StrWait) : (h.queueClaim w).2.2.sansWaits = h.sansWaits := by
  have skipped (l : List StrWait) (h : HifState) : (l.foldl (fun h _ => h.skip w.sub) h).sansWaits = h.sansWaits := by
    induction l generalizing h with
    | nil => rfl
    | cons x l ih => exact (ih _).trans rfl
  unfold HifState.queueClaim
  dsimp only
  split
  · rfl
  · split
    · rfl
    · split
      · exact skipped _ h
      · rfl

theorem State.queueClaim_sansWaits (s : State) (w : StrWait) : (s.queueClaim w).2.sansWaits = s.sansWaits := by
  have freed (l : List StrWait) : (l.foldl (fun (s : State) x => s.unclaim x) { s with hif := (s.hif.queueClaim w).2.2 }).sansWaits = s.sansWaits :=
    (State.sansWaits_of_hif (view_foldl State.hif (fun _ _ => State.unclaim_hif ..) l _)).trans (HifState.queueClaim_sansWaits s.hif w)
  unfold State.queueClaim
  dsimp only
  split
  · exact freed _
  · exact view_ite State.sansWaits ((State.sansWaits_of_hif (State.unclaim_hif ..)).trans (freed _)) (freed _)

theorem view_foldl_snd {α β γ : Type} (g : State → γ) {f : β × State → α → β × State} (h : ∀ s a, g (f s a).2 = g s.2) (l : List α) (s : β × State) :
    g (l.foldl f s).2 = g s.2 := by
  induction l generalizing s with
  | nil => rfl
  | cons a l ih => exact (ih _).trans (h _ _)

theorem State.claimAll_sansWaits (s : State) (pos recType src time cls : Nat) (bytes : List Byte) (ref : Option Nat) :
    (s.claimAll pos recType src time cls bytes ref).2.sansWaits = s.sansWaits := by
  refine (view_foldl_snd State.sansWaits (fun acc x => ?_) _ _).trans rfl
  dsimp only
  split
  · split
    · exact (State.queueClaim_sansWaits ..).trans rfl
    · rfl
  · rfl

theorem State.sendClaims_sansWaits (s : State) (recType src time : Nat) (bytes : List Byte) :
    (s.sendClaims recType src time bytes).2.sansWaits = s.sansWaits := by
  have counted (l : List Sub) : (l.foldl (fun s x => s.countSub x.sub x.next.2.count) s).sansWaits = s.sansWaits :=
    view_foldl State.sansWaits (f := fun s (x : Sub) => s.countSub x.sub x.next.2.count) (fun _ _ => rfl) l s
  refine view_ite State.sansWaits (counted _) (view_ite State.sansWaits ?_ ?_)
  all_goals exact (State.sansWaits_of_hif (State.originate_hif ..)).trans (counted _)

theorem State.claimNew_sansWaits (s : State) (id recType src time cls : Nat) (bytes : List Byte) :
    (s.claimNew id recType src time cls bytes).sansWaits = s.sansWaits := by
  have claimed (c : Bool) : (if c then s.claimAll s.pos recType src time cls bytes (some id) else s.sendClaims recType src time bytes).2.sansWaits =
      s.sansWaits := by
    cases c
    · exact State.sendClaims_sansWaits ..
    · exact State.claimAll_sansWaits ..
  exact claimed s.hosted

/-! ### Records and events (R292, R341, R494) -/

theorem State.makeWay_hif (s : State) (n fuel : Nat) : (s.makeWay n fuel).2.hif = s.hif := by
  induction fuel generalizing s with
  | zero => rfl
  | succ fuel ih =>
    unfold State.makeWay
    split
    · rfl
    · split
      · exact (ih _).trans rfl
      · split
        · exact (ih _).trans rfl
        · rfl

theorem State.stageD0_sansWaits (s : State) (recType src time : Nat) (bytes : List Byte) :
    (s.stageD0 recType src time bytes).sansWaits = s.sansWaits :=
  view_ite State.sansWaits ((State.claimNew_sansWaits ..).trans (State.sansWaits_of_hif (State.makeWay_hif ..)))
    (State.sansWaits_of_hif (State.makeWay_hif ..))

theorem State.reclaim_hif {s u : State} {n : Nat} (h : s.reclaim n = some u) : u.hif = s.hif := by
  induction n generalizing s with
  | zero => cases h
  | succ n ih =>
    unfold State.reclaim at h
    split at h
    · cases h
      rfl
    · split at h
      · cases h
      · exact (ih h).trans rfl

theorem State.targetBlock_hif {s : State} {but : List Nat} {spare : Bool} {r : Blk × State} (h : s.targetBlock but spare = some r) :
    r.2.hif = s.hif := by
  unfold State.targetBlock at h
  split at h
  · cases h
    rfl
  · split at h
    · cases h
      rfl
    · obtain ⟨u, hu, h⟩ := Option.bind_eq_some_iff.1 h
      obtain ⟨b, _, rfl⟩ := Option.map_eq_some_iff.1 h
      exact State.reclaim_hif hu

theorem State.startUnit_hif (s : State) (admitted : Bool) : (s.startUnit admitted).hif = s.hif := by
  unfold State.startUnit
  split
  · split
    · rfl
    · dsimp only
      split
      · rfl
      · next h => exact State.targetBlock_hif h
  · rfl

theorem State.writer_hif (s : State) : s.writer.hif = s.hif := view_ite State.hif rfl ((State.startUnit_hif ..).trans rfl)

/-- An event acts on the waiting entries and the subscriptions alone. -/
theorem State.eventAt_sansWaits (s : State) (e : Ev) (t : Nat) (full : Option (Nat × List Byte)) : (s.eventAt e t full).sansWaits = s.sansWaits := by
  have told (u : State) (w : EvWait) (b : List Byte) : (if u.hosted then { u with hif := { u.hif with eqWait := u.hif.eqWait ++ [w] } }
      else u.originate 1 0x12 0 b).sansWaits = u.sansWaits :=
    view_ite State.sansWaits rfl (State.sansWaits_of_hif (State.originate_hif ..))
  exact (State.sansWaits_of_hif (State.writer_hif _)).trans ((told ..).trans (State.stageD0_sansWaits s _ 0 t _))

theorem State.event_sansWaits (s : State) (e : Ev) : (s.event e).sansWaits = s.sansWaits := State.eventAt_sansWaits ..

/-! ### Completions (R333 to R338) -/

/-- The registers and queues of the host interface: what completing commands leaves alone as well. -/
def HifState.regs (h : HifState) : HifState := { h.sansWaits with inflight := [], cqWait := [], orphans := [], lateCompl := 0 }

def State.hifRegs (s : State) : HifState := s.hif.regs

theorem State.hifRegs_of_sansWaits {s u : State} (h : s.sansWaits = u.sansWaits) : s.hifRegs = u.hifRegs :=
  congrArg (fun x : HifState => { x with inflight := [], cqWait := [], orphans := [], lateCompl := 0 }) h

theorem State.hifRegs_of_hif {s u : State} (h : s.hif = u.hif) : s.hifRegs = u.hifRegs := congrArg HifState.regs h

theorem State.writeBuffer_hif (s : State) (l : List (Nat × Nat)) (b : List Byte) : (s.writeBuffer l b).hif = s.hif := by
  induction l generalizing s b with
  | nil => rfl
  | cons r l ih =>
    cases b with
    | nil => rfl
    | cons x b => exact (ih _ _).trans rfl

theorem State.queueCompletion_hifRegs (s : State) (x : InFlight) (origin result xfer code : Nat) :
    (s.queueCompletion x origin result xfer code).hifRegs = s.hifRegs := rfl

theorem State.finishBroadcast_hifRegs (s : State) (x : InFlight) : (s.finishBroadcast x).hifRegs = s.hifRegs := by
  have written (c : Bool) (b : List Byte) : (if c then s.writeBuffer x.ranges b else s).hifRegs = s.hifRegs :=
    view_ite State.hifRegs (State.hifRegs_of_hif (State.writeBuffer_hif ..)) rfl
  exact (State.queueCompletion_hifRegs ..).trans (written _ _)

theorem State.takeCompletion_hifRegs (s : State) (sq cid gen origin result xfer code : Nat) (data : List Byte) :
    (s.takeCompletion sq cid gen origin result xfer code data).hifRegs = s.hifRegs := by
  unfold State.takeCompletion
  split
  · exact view_ite State.hifRegs rfl rfl
  · refine view_ite State.hifRegs ?_ ((State.queueCompletion_hifRegs ..).trans (State.hifRegs_of_hif (State.writeBuffer_hif s _ data)))
    exact view_ite State.hifRegs ((State.finishBroadcast_hifRegs ..).trans rfl) rfl

theorem State.complete_hifRegs (s : State) (c : Cmd) (st : Status) (result : Nat) : (s.complete c st result).hifRegs = s.hifRegs :=
  view_ite State.hifRegs (State.takeCompletion_hifRegs ..) (State.hifRegs_of_hif (State.originate_hif ..))

/-! ### The fast path and DOZE (R98, R414) -/

theorem State.dieEvent_hifRegs (s : State) (k : Nat) (e : Ev) : (s.dieEvent k e).hifRegs = s.hifRegs :=
  view_ite State.hifRegs (State.hifRegs_of_sansWaits (State.eventAt_sansWaits ..)) (State.hifRegs_of_hif (State.modDie_hif ..))

theorem State.flushStream_hif (s : State) (k : Nat) (last abort : Bool) : (s.flushStream k last abort).hif = s.hif :=
  view_onDie State.hif (fun _ => view_ite State.hif rfl ((State.modDie_hif ..).trans (State.modDie_hif ..))) rfl

theorem State.abortCapture_hifRegs (s : State) (k : Nat) (arm : Bool) : (s.abortCapture k arm).hifRegs = s.hifRegs := by
  have told (u : State) (a code : Nat) : (u.tellArmed a code).hif = u.hif := view_ite State.hif (State.originate_hif ..) rfl
  have unarm (u : State) (c : Capture) : (u.unarm c).hifRegs = u.hifRegs := view_ite State.hifRegs (State.hifRegs_of_hif (told ..)) rfl
  have completed (u : State) (c : Option Cmd) (st : Status) (n : Nat) : (u.completeOpt c st n).hifRegs = u.hifRegs := by
    cases c
    · rfl
    · exact State.complete_hifRegs ..
  refine view_onDie State.hifRegs (fun d => ?_) rfl
  split
  · rfl
  · exact (completed ..).trans ((unarm ..).trans ((State.dieEvent_hifRegs ..).trans (State.hifRegs_of_hif (State.modDie_hif ..))))

theorem hifRegs_modDie {s u : State} {k : Nat} {f : Die → Die} (hu : u.hifRegs = s.hifRegs) : (u.modDie k f).hifRegs = s.hifRegs :=
  (State.hifRegs_of_hif (State.modDie_hif ..)).trans hu

theorem State.stopFast_hifRegs (s : State) (k : Nat) : (s.stopFast k).hifRegs = s.hifRegs :=
  hifRegs_modDie (hifRegs_modDie (hifRegs_modDie ((State.hifRegs_of_hif (State.flushStream_hif ..)).trans (State.abortCapture_hifRegs ..))))

theorem State.fastDomain_hifRegs (s : State) (k : Nat) : (s.fastDomain k).hifRegs = s.hifRegs := by
  have up : (s.fastUp k).hifRegs = s.hifRegs := view_onDie State.hifRegs (fun _ => view_ite State.hifRegs rfl (hifRegs_modDie rfl)) rfl
  have off : (s.fastOff k).hifRegs = s.hifRegs :=
    view_onDie State.hifRegs (fun _ => view_ite State.hifRegs (hifRegs_modDie (State.stopFast_hifRegs s k)) rfl) rfl
  exact view_onDie State.hifRegs (fun _ => view_ite State.hifRegs up off) rfl

/-- Waking from DOZE leaves the registers and queues alone. -/
theorem State.undoze_hifRegs (s : State) : s.undoze.hifRegs = s.hifRegs := by
  unfold State.undoze
  dsimp only
  split
  · exact (view_foldl State.hifRegs (fun s k => State.fastDomain_hifRegs s k) _ _).trans rfl
  · rfl

theorem State.undoze_now (s : State) : s.undoze.now = s.now := by
  unfold State.undoze
  dsimp only
  split
  · exact (congrArg Kept.now (State.fastDomains_hubKept ..)).trans rfl
  · rfl

end Sys2Proof.Machine
end

section
/-! The registers of the host interface (R320 to R324, R328, R343). -/

namespace Sys2Proof.Machine

/-! ### What the registers show -/

/-- The control of the interface: enabled, ready, fatal with its code, shutting down, the polling time. -/
def HifState.control (h : HifState) : Bool × Bool × Bool × Nat × Bool × Nat := (h.en, h.ready, h.fatal, h.fatalCode, h.shutdown, h.pollUs)

/-- The reading of the doorbell page. -/
def HifState.polling (h : HifState) : Bool × Bool × Nat := (h.dbReading, h.dbAgain, h.lastPoll)

theorem State.control_of_sansWaits {s u : State} (h : s.sansWaits = u.sansWaits) : s.hif.control = u.hif.control :=
  (congrArg HifState.control h : s.sansWaits.control = u.sansWaits.control)

theorem State.control_of_regs {s u : State} (h : s.hifRegs = u.hifRegs) : s.hif.control = u.hif.control :=
  (congrArg HifState.control h : s.hifRegs.control = u.hifRegs.control)

theorem State.polling_of_sansWaits {s u : State} (h : s.sansWaits = u.sansWaits) : s.hif.polling = u.hif.polling :=
  (congrArg HifState.polling h : s.sansWaits.polling = u.sansWaits.polling)

theorem State.polling_of_regs {s u : State} (h : s.hifRegs = u.hifRegs) : s.hif.polling = u.hif.polling :=
  (congrArg HifState.polling h : s.hifRegs.polling = u.hifRegs.polling)

theorem State.eq_of_regs {s u : State} (h : s.hifRegs = u.hifRegs) : s.hif.eq = u.hif.eq :=
  (congrArg HifState.eq h : s.hifRegs.eq = u.hifRegs.eq)

theorem State.commands_of_sansWaits {s u : State} (h : s.sansWaits = u.sansWaits) : s.hif.inflight = u.hif.inflight ∧ s.hif.cqWait = u.hif.cqWait :=
  ⟨(congrArg HifState.inflight h : s.sansWaits.inflight = u.sansWaits.inflight), (congrArg HifState.cqWait h : s.sansWaits.cqWait = u.sansWaits.cqWait)⟩

/-- The check for the end of a shutdown marks that end alone (R324). -/
theorem State.checkDrain_control (s : State) : s.checkDrain.hif.control = s.hif.control := view_ite (fun u => u.hif.control) rfl rfl

theorem State.checkDrain_polling (s : State) : s.checkDrain.hif.polling = s.hif.polling := view_ite (fun u => u.hif.polling) rfl rfl

/-- A vector that is raised changes only what is pending of MSI-X (R343). -/
theorem State.raiseVector_control (s : State) (v : Nat) : (s.raiseVector v).hif.control = s.hif.control := view_ite (fun u => u.hif.control) rfl rfl

theorem State.raiseVector_polling (s : State) (v : Nat) : (s.raiseVector v).hif.polling = s.hif.polling := view_ite (fun u => u.hif.polling) rfl rfl

theorem State.hifFatal_control (s : State) (code : Nat) :
    (s.hifFatal code).hif.control = (s.hif.en, false, true, code, s.hif.shutdown, s.hif.pollUs) :=
  State.raiseVector_control (s.modHif fun h => { h with fatal := true, fatalCode := code, ready := false }) 0

/-! ### Resets and HIF_CTRL (R321, R324) -/

/-- A reset leaves the interface disabled, with no command and no completion (R321). -/
theorem State.hifClear_shows (s : State) : (s.hifClear.2.hif.en, s.hifClear.2.hif.ready, s.hifClear.2.hif.fatal) = (false, false, false) ∧
    s.hifClear.2.hif.inflight = [] ∧ s.hifClear.2.hif.cqWait = [] := ⟨rfl, rfl, rfl⟩

theorem State.hifClear_shutdown (s : State) : s.hifClear.2.hif.shutdown = s.hif.shutdown := by
  have ended (u : State) (x : Sub) : (u.endSub x).hif = u.hif := by
    have closed (k id : Nat) : (u.closeFastStream k id).hif = u.hif := by
      refine view_onDie State.hif (fun d => (State.modDie_hif ..).trans ?_) rfl
      exact view_ite State.hif (State.flushStream_hif ..) rfl
    unfold State.endSub
    split
    · exact view_ite State.hif (closed ..) rfl
    · split
      · exact State.originate_hif ..
      · rfl
  have cleared (u : State) (l : List StrWait) (m : List Sub) : (m.foldl (fun s x => s.endSub x) (l.foldl (fun s w => s.unclaim w) u)).hif = u.hif :=
    (view_foldl State.hif ended m _).trans (view_foldl State.hif State.unclaim_hif l u)
  show (s.hif.subs.foldl (fun s x => s.endSub x) (s.hif.strWait.foldl (fun s w => s.unclaim w) s)).hif.shutdown = _
  rw [cleared]

theorem execHifReset_of {t : Nat} {s : State} (cause : Nat) (hup : s.hifUp = true) : exec (.hifReset t cause) s =
    .next ((if cause = 3 then (s.at_ t).hifClear.2 else (s.at_ t).hifClear.2.modHif HifState.msixReset).event
      { source := 46, subkind := cause, arg16 := (s.at_ t).hifClear.1 }) := by
  show execHifReset t cause s = _
  unfold execHifReset
  dsimp only
  rw [show (s.at_ t).hifUp = true from hup, if_neg (by decide)]

theorem execHifReset_shows {t : Nat} {s : State} (cause : Nat) (hup : s.hifUp = true) : Runs (.hifReset t cause) s fun s' =>
    s'.hif.en = false ∧ s'.hif.ready = false ∧ s'.hif.fatal = false ∧ s'.hif.inflight = [] ∧ s'.hif.cqWait = [] := by
  refine Runs.of (execHifReset_of cause hup) ?_
  generalize (s.at_ t).hifClear.1 = n
  have hclear := State.hifClear_shows (s.at_ t)
  generalize (s.at_ t).hifClear.2 = u at hclear ⊢
  have hreset : (if cause = 3 then u else u.modHif HifState.msixReset).hif.control = u.hif.control ∧
      (if cause = 3 then u else u.modHif HifState.msixReset).hif.inflight = u.hif.inflight ∧
      (if cause = 3 then u else u.modHif HifState.msixReset).hif.cqWait = u.hif.cqWait := by split <;> exact ⟨rfl, rfl, rfl⟩
  generalize (if cause = 3 then u else u.modHif HifState.msixReset) = v at hreset ⊢
  have hevent := State.event_sansWaits v { source := 46, subkind := cause, arg16 := n }
  obtain ⟨hcontrol, hin, hcq⟩ := hreset
  obtain ⟨hflags, hin', hcq'⟩ := hclear
  have hc := (State.control_of_sansWaits hevent).trans hcontrol
  obtain ⟨hi, hw⟩ := State.commands_of_sansWaits hevent
  simp only [HifState.control, Prod.mk.injEq] at hc hflags
  obtain ⟨hen, hready, hfatal, -⟩ := hc
  obtain ⟨hen', hready', hfatal'⟩ := hflags
  exact ⟨hen.trans hen', hready.trans hready', hfatal.trans hfatal', hi.trans (hin.trans hin'), hw.trans (hcq.trans hcq')⟩

theorem bit_eq_testBit (value i : Nat) : bit value i = value.testBit i := by
  unfold bit bits
  rw [Nat.testBit_eq_decide_div_mod_eq, Nat.add_sub_cancel_left]
  rfl

theorem bit_mod_word (value i : Nat) (hi : i < 32) : bit (value % 2 ^ 32) i = bit value i := by
  rw [bit_eq_testBit, Nat.testBit_mod_two_pow, decide_eq_true hi, Bool.true_and, bit_eq_testBit]

/-- HIF_CTRL with EN written at an interface that is disabled (R324). -/
theorem State.writeCtrl_enables {s : State} {v : Nat} (hb : bit v 0 = true) (hen : s.hif.en = false) :
    (s.hif.eq.en = true → (s.writeCtrl v).hif.control = (true, true, s.hif.fatal, s.hif.fatalCode, bit v 1, bits v 31 16)) ∧
    (s.hif.eq.en = false → (s.writeCtrl v).hif.control = (true, false, true, 3, bit v 1, bits v 31 16)) := by
  unfold State.writeCtrl
  dsimp only
  rw [hb, if_neg (by decide), State.modHif_hif]
  dsimp only
  rw [hen, if_neg (by decide)]
  constructor
  · intro heq
    rw [heq, if_neg (by decide)]
    exact State.checkDrain_control _
  · intro heq
    rw [heq, if_pos (by decide)]
    exact State.hifFatal_control _ 3

/-- HIF_CTRL with SHUTDOWN written (R324). -/
theorem State.writeCtrl_shutdown {s : State} {v : Nat} (hb : bit v 1 = true) : (s.writeCtrl v).hif.shutdown = true := by
  have stays {u w : State} (h : u.hif.control = w.hif.control) (hw : w.hif.shutdown = true) : u.hif.shutdown = true :=
    (congrArg (fun x : Bool × Bool × Bool × Nat × Bool × Nat => x.2.2.2.2.1) h).trans hw
  unfold State.writeCtrl
  dsimp only
  have hset : (s.modHif fun h => { h with pollUs := bits v 31 16, shutdown := bit v 1, shutDone := h.shutDone && bit v 1 }).hif.shutdown = true := hb
  generalize (s.modHif fun h => { h with pollUs := bits v 31 16, shutdown := bit v 1, shutDone := h.shutDone && bit v 1 }) = u at hset ⊢
  split
  · split
    · exact stays (State.control_of_sansWaits (State.event_sansWaits ..)) ((State.hifClear_shutdown u).trans hset)
    · exact hset
  · split
    · exact stays (State.checkDrain_control u) hset
    · split
      · exact stays (State.raiseVector_control ..) hset
      · exact stays (State.checkDrain_control _) hset

/-- A vector that is unmasked is neither masked nor pending, and its message is sent when it was (R343). -/
theorem State.unmask_shows (s : State) (v : Nat) : v ∉ (s.unmask v).hif.masked ∧ v ∉ (s.unmask v).hif.pendingVec ∧
    (s.unmask v).out = s.out ++ (if s.hif.pendingVec.contains v = true then [.msix v] else []) := by
  have gone (l : List Nat) : v ∉ l.filter (· != v) := fun h => absurd (List.mem_filter.1 h).2 (by simp)
  unfold State.unmask
  dsimp only
  split
  · exact ⟨gone _, gone _, rfl⟩
  · exact ⟨gone _, gone _, (List.append_nil _).symm⟩

section
variable {t value : Nat} {s : State} (hup : s.hifUp = true)
include hup

theorem execHifEnable_of (hb : bit value 0 = true) : exec (.hifEnable t value) s = .next ((s.at_ t).undoze.writeCtrl (value % 2 ^ 32)) := by
  show execHifEnable t value s = _
  unfold execHifEnable
  dsimp only
  rw [show (s.at_ t).hifUp = true from hup, hb, if_pos (by decide)]

theorem execHifShutdown_of (hb : bit value 1 = true) : exec (.hifShutdown t value) s = .next ((s.at_ t).undoze.writeCtrl (value % 2 ^ 32)) := by
  show execHifShutdown t value s = _
  unfold execHifShutdown
  dsimp only
  rw [show (s.at_ t).hifUp = true from hup, hb, if_pos (by decide)]

theorem execHifEnable_shows (hb : bit value 0 = true) (hen : s.hif.en = false) :
    (s.hif.eq.en = true → Runs (.hifEnable t value) s fun s' =>
      s'.hif.en = true ∧ s'.hif.ready = true ∧ s'.hif.pollUs = bits (value % 2 ^ 32) 31 16 ∧ s'.hif.shutdown = bit value 1) ∧
    (s.hif.eq.en = false → Runs (.hifEnable t value) s fun s' => s'.hif.fatal = true ∧ s'.hif.fatalCode = 3 ∧ s'.hif.ready = false) := by
  have hregs : (s.at_ t).undoze.hifRegs = s.hifRegs := State.undoze_hifRegs _
  have hen' : (s.at_ t).undoze.hif.en = false := (congrArg Prod.fst (State.control_of_regs hregs)).trans hen
  obtain ⟨hready, hfatal⟩ := State.writeCtrl_enables (s := (s.at_ t).undoze) ((bit_mod_word value 0 (by decide)).trans hb) hen'
  rw [State.eq_of_regs hregs] at hready hfatal
  refine ⟨fun heq => Runs.of (execHifEnable_of hup hb) ?_, fun heq => Runs.of (execHifEnable_of hup hb) ?_⟩
  · have hc := hready heq
    simp only [HifState.control, Prod.mk.injEq] at hc
    obtain ⟨hon, hrdy, -, -, hshut, hpoll⟩ := hc
    exact ⟨hon, hrdy, hpoll, hshut.trans (bit_mod_word value 1 (by decide))⟩
  · have hc := hfatal heq
    simp only [HifState.control, Prod.mk.injEq] at hc
    obtain ⟨-, hrdy, hfat, hcode, -⟩ := hc
    exact ⟨hfat, hcode, hrdy⟩

/-! ### Accesses to the registers (R320, R322, R323) -/

theorem execQueueEnable_of {off : Nat} (ho : off % 16 = 8) (hb : bit value 0 = true) :
    exec (.queueEnable t off value) s = .next ((s.at_ t).undoze.writeReg off (value % 2 ^ 32)) := by
  show execQueueEnable t off value s = _
  unfold execQueueEnable
  dsimp only
  rw [show (s.at_ t).hifUp = true from hup, hb, ho, if_pos (by decide)]

theorem execQueueDisable_of {off : Nat} (ho : off % 16 = 8) (hb : bit value 0 = false) :
    exec (.queueDisable t off value) s = .next ((s.at_ t).undoze.writeReg off (value % 2 ^ 32)) := by
  show execQueueDisable t off value s = _
  unfold execQueueDisable
  dsimp only
  rw [show (s.at_ t).hifUp = true from hup, hb, ho, if_pos (by decide)]

/-- An access of BAR0 or of BAR2, by its offset and its size (R319, R320). -/
theorem execRegisterWrite_of (off size : Nat) : exec (.registerWrite t off value size) s = .next (
    if size = 0 then ((s.at_ t).barAccess off 4).2.emit (.readData ((s.at_ t).barAccess off 4).1)
    else if 65536 ≤ off then (if size = 4 ∧ off % 4 = 0 then (s.at_ t).writeMsix (off - 65536) (value % 2 ^ 32) else s.at_ t)
    else if size = 4 ∧ off % 4 = 0 then (s.at_ t).undoze.writeReg off (value % 2 ^ 32)
    else (s.at_ t).undoze) := by
  show execRegisterWrite t off value size s = _
  unfold execRegisterWrite
  dsimp only
  rw [show (s.at_ t).hifUp = true from hup, if_neg (by decide)]

/-! ### KICK and MSI-X (R328, R343) -/

theorem execKick_shows (hserves : (s.at_ t).undoze.hifServes = true) : Runs (.kick t value) s fun s' =>
    s'.hif.dbReading = true ∧ (if s.hif.dbReading = true then s'.hif.dbAgain = true else s'.hif.lastPoll = s.clock t) := by
  have hread : (s.at_ t).undoze.hif.dbReading = s.hif.dbReading := congrArg Prod.fst (State.polling_of_regs (State.undoze_hifRegs (s.at_ t)))
  have hnow : (s.at_ t).undoze.now = s.clock t := State.undoze_now _
  refine ⟨_, rfl, ?_⟩
  rw [show (s.at_ t).hifUp = true from hup, if_pos rfl]
  generalize (s.at_ t).undoze = w at hserves hread hnow
  unfold State.kicked
  rw [hserves, if_neg (by decide), hread]
  cases hdb : s.hif.dbReading with
  | true => exact ⟨hread.trans hdb, rfl⟩
  | false => exact ⟨rfl, hnow⟩

theorem execMsixUnmask_of {vector : Nat} (hv : vector < 64) : exec (.msixUnmask t vector) s = .next ((s.at_ t).unmask vector) := by
  show execMsixUnmask t vector s = _
  unfold execMsixUnmask
  dsimp only
  rw [show (s.at_ t).hifUp = true from hup, decide_eq_false (Nat.not_le.2 hv), if_neg (by decide)]

end

/-- Settles O34: waking from DOZE leaves the registers as they stood, and each access is what its command's equation shows. -/
theorem hostRegisterCommandsComplete : Obligations.HostRegisterCommandsComplete := by
  rintro t s w hup rfl
  refine ⟨fun cause => execHifReset_shows cause hup, fun _ hb hen => execHifEnable_shows hup hb hen,
    fun value hb => Runs.of (execHifShutdown_of hup hb) (State.writeCtrl_shutdown ((bit_mod_word value 1 (by decide)).trans hb)),
    fun _ _ ho hb => ⟨_, execQueueEnable_of hup ho hb, rfl⟩, fun _ _ ho hb => ⟨_, execQueueDisable_of hup ho hb, rfl⟩,
    fun off _ size hs ho => ⟨_, execRegisterWrite_of hup off size, (if_neg hs).trans (if_neg (Nat.not_le.2 ho))⟩,
    fun off _ size hs ho => ⟨_, execRegisterWrite_of hup off size, (if_neg hs).trans (if_pos ho)⟩,
    fun off _ => ⟨_, execRegisterWrite_of hup off 0, if_pos rfl⟩, fun _ hserves => execKick_shows hup hserves,
    fun vector hv => ⟨_, execMsixUnmask_of hup hv, State.unmask_shows (s.at_ t) vector⟩⟩

end Sys2Proof.Machine
end

section
/-! The queues of the host interface: the doorbell page, fetches, timeouts, entries and failed reads (R326 to R344). -/

namespace Sys2Proof.Machine

/-! ### The doorbell page (R326 to R328) -/

theorem State.queueError_polling (s : State) (kind idx err : Nat) : (s.queueError kind idx err).hif.polling = s.hif.polling :=
  State.polling_of_sansWaits (State.event_sansWaits ..)

/-- How the page is being read. -/
def State.polling (s : State) : Bool × Bool × Nat := s.hif.polling

/-- Taking a word of the page leaves the reading of it alone. -/
theorem State.takeSqTail_polling (s : State) (n w : Nat) : (s.takeSqTail n w).polling = s.polling := by
  unfold State.takeSqTail
  dsimp only
  split
  · rfl
  · exact view_ite State.polling rfl ((State.queueError_polling ..).trans rfl)

theorem State.takeCqHead_polling (s : State) (n w : Nat) : (s.takeCqHead n w).polling = s.polling := by
  unfold State.takeCqHead
  dsimp only
  split
  · rfl
  · exact view_ite State.polling rfl ((State.queueError_polling ..).trans rfl)

theorem State.takeEqHead_polling (s : State) (w : Nat) : (s.takeEqHead w).polling = s.polling := by
  unfold State.takeEqHead
  dsimp only
  split
  · rfl
  · exact view_ite State.polling rfl ((State.queueError_polling ..).trans rfl)

theorem State.takeStrHead_polling (s : State) (r w : Nat) : (s.takeStrHead r w).polling = s.polling := by
  have freed (l : List StrWait) : (l.foldl (fun s x => s.unclaim x) s).polling = s.polling :=
    view_foldl State.polling (fun _ _ => congrArg HifState.polling (State.unclaim_hif ..)) l s
  unfold State.takeStrHead
  dsimp only
  split
  · rfl
  · split
    · exact (State.queueError_polling ..).trans rfl
    · exact freed _

/-- Every word of the page taken. -/
def State.takePage (s : State) (words : List Nat) : State :=
  let w := fun (i : Nat) => words.getD i 0
  let s := (List.range 16).foldl (fun s n => s.takeSqTail n (w n)) s
  let s := (List.range 16).foldl (fun s n => s.takeCqHead n (w (16 + n))) s
  let s := s.takeEqHead (w 32)
  (List.range 32).foldl (fun s r => s.takeStrHead r (w (48 + r))) s

theorem State.takePage_polling (s : State) (words : List Nat) : (s.takePage words).polling = s.polling :=
  (view_foldl State.polling (fun s r => State.takeStrHead_polling s r _) _ _).trans <| (State.takeEqHead_polling ..).trans <|
    (view_foldl State.polling (fun s n => State.takeCqHead_polling s n _) _ _).trans
      (view_foldl State.polling (fun s n => State.takeSqTail_polling s n _) _ s)

theorem execDoorbellPoll_of {t : Nat} {s : State} (hserves : s.hifServes = true) (hrun : s.inRun = true) (hpoll : s.hif.pollUs ≠ 0)
    (hread : s.hif.dbReading = false) (hdue : s.hif.lastPoll + s.hif.pollUs * 1000 ≤ t) : exec (.doorbellPoll t) s = .next (s.at_ t).startPoll := by
  show execDoorbellPoll t s = _
  unfold execDoorbellPoll
  dsimp only
  rw [show (s.at_ t).hifServes = true from hserves, show (s.at_ t).inRun = true from hrun, show (s.at_ t).hif = s.hif from rfl,
    if_neg (by simp [hpoll, hread, hdue])]

theorem execDoorbellReadComplete_of {t : Nat} {words : List Nat} {s : State} (hserves : s.hifServes = true) (hread : s.hif.dbReading = true)
    (hdue : t < s.hif.lastPoll + readTimeout) : exec (.doorbellReadComplete t words) s =
      .next (if ((s.at_ t).takePage words).hif.dbAgain then
          ((((s.at_ t).takePage words).modHif fun h => { h with dbReading := false, dbAgain := false }).checkDrain).startPoll
        else (((s.at_ t).takePage words).modHif fun h => { h with dbReading := false, dbAgain := false }).checkDrain) := by
  have hgo : ¬(!(s.at_ t).hifServes || !(s.at_ t).hif.dbReading || decide ((s.at_ t).hif.lastPoll + readTimeout ≤ t)) = true := by
    rw [show (s.at_ t).hifServes = true from hserves, show (s.at_ t).hif.dbReading = true from hread,
      decide_eq_false (show ¬(s.at_ t).hif.lastPoll + readTimeout ≤ t from Nat.not_le.2 hdue)]
    decide
  show execDoorbellReadComplete t words s = _
  unfold execDoorbellReadComplete State.takePage
  dsimp only
  generalize (List.foldl (fun (s : State) r => s.takeStrHead r (words.getD (48 + r) 0)) _ (List.range 32)) = u
  exact congrArg Host.Outcome.next (if_neg hgo)

theorem execDoorbellReadComplete_shows {t : Nat} {words : List Nat} {s : State} (hserves : s.hifServes = true)
    (hread : s.hif.dbReading = true) (hdue : t < s.hif.lastPoll + readTimeout) :
    Runs (.doorbellReadComplete t words) s fun s' => s'.hif.dbReading = s.hif.dbAgain ∧ s'.hif.dbAgain = false := by
  refine Runs.of (execDoorbellReadComplete_of hserves hread hdue) ?_
  have htaken : ((s.at_ t).takePage words).polling = s.polling := State.takePage_polling ..
  generalize (s.at_ t).takePage words = u at htaken ⊢
  have hagain : u.hif.dbAgain = s.hif.dbAgain := congrArg (fun x : Bool × Bool × Nat => x.2.1) htaken
  have hended := State.checkDrain_polling (u.modHif fun h => { h with dbReading := false, dbAgain := false })
  generalize (u.modHif fun h => { h with dbReading := false, dbAgain := false }).checkDrain = v at hended ⊢
  simp only [HifState.polling, State.modHif_hif, Prod.mk.injEq] at hended
  obtain ⟨hread', hagain', -⟩ := hended
  rw [hagain]
  cases s.hif.dbAgain with
  | true => exact ⟨rfl, hagain'⟩
  | false => exact ⟨hread', hagain'⟩

/-! ### Descriptors and timeouts (R331, R332, R334, R337) -/

theorem execDescriptorFetch_of {t sq left : Nat} {bytes listBytes data : List Byte} {s u : State} (hserves : s.hifServes = true)
    (hshut : s.hif.shutdown = false) (harb : s.arbiter = some (sq, left))
    (hu : u = (((s.at_ t).putSq sq { (s.hif.sqOf sq).step with readAt := t }).modHif fun h =>
      { h with rrSq := sq, rrLeft := left, fetchNo := (s.hif.fetchNo + 1) % 65536 }).emit (.hostRead ((s.hif.sqOf sq).base + 64 * (s.hif.sqOf sq).ptr) 64)) :
    exec (.descriptorFetch t sq bytes listBytes data) s =
      .next (({ u with power := { u.power with idleSince := t } }).noteValid.takeDescriptor (cmdOf sq s.hif.fetchNo bytes) bytes listBytes data) := by
  subst hu
  show execDescriptorFetch t sq bytes listBytes data s = _
  unfold execDescriptorFetch
  dsimp only
  rw [show (s.at_ t).hifServes = true from hserves, show (s.at_ t).hif = s.hif from rfl, hshut, if_neg (by decide),
    show (s.at_ t).arbiter = some (sq, left) from harb]
  exact congrArg Host.Outcome.next (if_neg (not_not_intro rfl))

theorem execCommandTimeout_of {t sq cid : Nat} {x : InFlight} {s : State}
    (hx : s.hif.inflight.find? (fun y => y.cmd.sq == sq && y.cmd.cid == cid && !y.completed) = some x)
    (hdue : x.fetched + x.timeoutMs * 1000000 ≤ t) : exec (.commandTimeout t sq cid) s =
      .next (if x.cmd.dest = 63 then (s.at_ t).finishBroadcast x else (s.at_ t).queueCompletion x x.cmd.dest 0 0 Status.timeout.code).startAll := by
  show execCommandTimeout t sq cid s = _
  unfold execCommandTimeout
  dsimp only
  rw [show (s.at_ t).hif = s.hif from rfl, hx]
  exact congrArg Host.Outcome.next (if_neg (Nat.not_lt.2 hdue))

/-! ### Entries and interrupts (R340 to R344) -/

theorem execStreamEntryWrite_of {t ring : Nat} {ok : Bool} {w : StrWait} {s : State} (hserves : s.hifServes = true)
    (hring : (s.hif.strOf ring).serves = true) (hw : s.hif.strWait.find? (fun y => y.ring == ring && y.writtenEnd.isNone) = some w)
    (hfits : (s.hif.strOf ring).ringFits w.bytes.length = true) : exec (.streamEntryWrite t ring ok) s =
      .next (if !ok then ((s.at_ t).putStr ring { s.hif.strOf ring with err := 2, active := false }).queueError 3 ring 2
        else ((s.at_ t).writeStream w).endClosed.checkDrain) := by
  show execStreamEntryWrite t ring ok s = _
  unfold execStreamEntryWrite
  dsimp only
  rw [show (s.at_ t).hifServes = true from hserves, show (s.at_ t).hif = s.hif from rfl, hring, if_neg (by decide), hw]
  dsimp only
  rw [hfits, if_neg (by decide)]

theorem execEventEntryWrite_of {t : Nat} {ok : Bool} {w : EvWait} {rest : List EvWait} {s : State} (hw : s.hif.eqWait = w :: rest)
    (hserves : s.hifServes = true) (heq : s.hif.eq.serves = true) (hfull : s.hif.eq.full = false) : exec (.eventEntryWrite t ok) s =
      .next (if !ok then (s.at_ t).hifFatal 2 else ((s.at_ t).writeEvent w).checkDrain) := by
  show execEventEntryWrite t ok s = _
  unfold execEventEntryWrite
  dsimp only
  rw [show (s.at_ t).hif = s.hif from rfl, hw]
  dsimp only
  rw [show (s.at_ t).hifServes = true from hserves, heq, hfull, if_neg (by decide)]

theorem State.hifFatal_shows (s : State) (code : Nat) :
    (s.hifFatal code).hif.fatal = true ∧ (s.hifFatal code).hif.fatalCode = code ∧ (s.hifFatal code).hif.ready = false := by
  have hc := State.hifFatal_control s code
  simp only [HifState.control, Prod.mk.injEq] at hc
  obtain ⟨-, hready, hfatal, hcode, -⟩ := hc
  exact ⟨hfatal, hcode, hready⟩

theorem State.hifFatal_polling (s : State) (code : Nat) : (s.hifFatal code).hif.polling = s.hif.polling :=
  State.raiseVector_polling (s.modHif fun h => { h with fatal := true, fatalCode := code, ready := false }) 0

theorem execInterruptCoalesceExpire_of {t kind idx : Nat} {s : State} (hserves : s.hifServes = true) :
    exec (.interruptCoalesceExpire t kind idx) s = .next (if kind = 0 then (s.at_ t).coalesced (s.hif.cqOf idx) (State.putCq idx)
      else if kind = 1 then (s.at_ t).coalesced s.hif.eq State.putEq else (s.at_ t).coalesced (s.hif.strOf idx) (State.putStr idx)) := by
  show execInterruptCoalesceExpire t kind idx s = _
  unfold execInterruptCoalesceExpire
  dsimp only
  rw [show (s.at_ t).hifServes = true from hserves, if_neg (by decide)]
  rfl

theorem execEventDelayReport_shows {t : Nat} {s : State} (h : s.hif.delayedMinute ≠ 0) :
    Runs (.eventDelayReport t) s fun s' => s'.hif.delayedMinute = 0 := by
  have kept {u v : State} (hk : u.sansWaits = v.sansWaits) : u.hif.delayedMinute = v.hif.delayedMinute :=
    (congrArg HifState.delayedMinute hk : u.sansWaits.delayedMinute = v.sansWaits.delayedMinute)
  refine ⟨_, rfl, ?_⟩
  dsimp only
  rw [show (s.at_ t).hif.delayedMinute = s.hif.delayedMinute from rfl, if_neg h]
  exact kept (State.event_sansWaits ..)

/-! ### Reads and writes that fail (R319, R338, R344) -/

section
variable {t idx : Nat} {acc : HostAccess} {s : State} (hserves : s.hifServes = true)
include hserves

theorem execHostReadTimeout_page (hread : s.hif.dbReading = true) (hdue : s.hif.lastPoll + readTimeout ≤ s.clock t) :
    exec (.hostReadTimeout t 0 idx acc) s = .next (((s.at_ t).modHif fun h => { h with dbReading := false, dbAgain := false }).hifFatal 1) := by
  show execHostReadTimeout t 0 idx acc s = _
  unfold execHostReadTimeout
  dsimp only
  rw [show (s.at_ t).hifServes = true from hserves, if_neg (by decide), if_pos rfl, show (s.at_ t).hif = s.hif from rfl, hread,
    decide_eq_true (show s.hif.lastPoll + readTimeout ≤ (s.at_ t).now from hdue), if_pos (by decide)]

theorem execHostReadTimeout_descriptor (hf : s.fetchable idx = true) (hshut : s.hif.shutdown = false)
    (hdue : (s.hif.sqOf idx).readAt + readTimeout ≤ s.clock t) : exec (.hostReadTimeout t 1 idx acc) s =
      .next ((((s.at_ t).putSq idx { s.hif.sqOf idx with err := 2, active := false }).queueError 1 idx 2).checkDrain) := by
  show execHostReadTimeout t 1 idx acc s = _
  unfold execHostReadTimeout
  dsimp only
  rw [show (s.at_ t).hifServes = true from hserves, if_neg (by decide), if_neg (by decide), if_pos rfl, show (s.at_ t).fetchable idx = true from hf,
    show (s.at_ t).hif = s.hif from rfl, hshut, decide_eq_true (show (s.hif.sqOf idx).readAt + readTimeout ≤ (s.at_ t).now from hdue),
    if_pos (by decide)]

theorem execHostReadTimeout_read {x : InFlight}
    (hx : s.hif.inflight.find? (fun y => y.cmd.sq == idx && y.cmd.cid == acc.cid && y.reading && !y.completed) = some x)
    (hdue : x.fetched + readTimeout ≤ s.clock t) (hin : inRanges (if x.ranges.isEmpty then [x.listAt] else x.ranges) acc.addr = true) :
    exec (.hostReadTimeout t 2 idx acc) s =
      .next (((((s.at_ t).dmaEvent idx acc.cid acc.addr).queueCompletion x x.cmd.dest 0 0 Status.dmaError.code).startAll).checkDrain) := by
  show execHostReadTimeout t 2 idx acc s = _
  unfold execHostReadTimeout State.readFailed
  dsimp only
  rw [show (s.at_ t).hifServes = true from hserves, if_neg (by decide), if_neg (by decide), if_neg (by decide), if_pos rfl,
    show (s.at_ t).hif = s.hif from rfl, hx]
  dsimp only
  rw [decide_eq_false (show ¬(s.at_ t).now < x.fetched + readTimeout from Nat.not_lt.2 hdue), hin, if_neg (by decide)]

theorem execHostReadTimeout_write {w : ComplWait} {x : InFlight}
    (hw : s.hif.cqWait.find? (fun y => y.sq == idx && y.cid == acc.cid && y.xfer != 0) = some w)
    (hx : s.hif.inflight.find? (fun y => y.completed && y.cmd.sq == idx && y.cmd.gen == w.gen) = some x)
    (hin : inRanges x.ranges acc.addr = true) : exec (.hostReadTimeout t 3 idx acc) s =
      .next (((s.at_ t).modHif fun h => { h with
        cqWait := h.cqWait.map fun (y : ComplWait) => if y = w then { y with xfer := 0, status := Status.dmaError.code } else y }).dmaEvent idx acc.cid
          acc.addr) := by
  show execHostReadTimeout t 3 idx acc s = _
  unfold execHostReadTimeout State.writeFailed
  dsimp only
  rw [show (s.at_ t).hifServes = true from hserves, if_neg (by decide), if_neg (by decide), if_neg (by decide), if_neg (by decide),
    show (s.at_ t).hif = s.hif from rfl, hw]
  dsimp only
  rw [hx]
  dsimp only
  rw [hin, if_neg (by decide)]

end

/-- Settles O35: taking the words of the page leaves the reading of it alone, and each other clause is its command's own equation. -/
theorem hostQueueCommandsComplete : Obligations.HostQueueCommandsComplete := by
  refine ⟨fun _ _ hserves hrun hpoll hread hdue => ⟨_, execDoorbellPoll_of hserves hrun hpoll hread hdue, rfl, rfl, rfl⟩,
    fun _ _ _ hserves hread hdue => execDoorbellReadComplete_shows hserves hread hdue,
    fun _ _ _ _ _ _ _ _ hserves hshut harb hu => ⟨_, execDescriptorFetch_of hserves hshut harb hu, rfl⟩,
    fun _ _ _ _ _ hx hdue => ⟨_, execCommandTimeout_of hx hdue, rfl⟩,
    fun _ _ _ _ hserves hring hw hfits => ⟨⟨_, execStreamEntryWrite_of hserves hring hw hfits, if_neg (by decide)⟩,
      ⟨_, execStreamEntryWrite_of hserves hring hw hfits, if_pos (by decide)⟩⟩,
    fun t _ _ s hw hserves heq hfull => ⟨⟨_, execEventEntryWrite_of hw hserves heq hfull, if_neg (by decide)⟩,
      ⟨_, execEventEntryWrite_of hw hserves heq hfull, State.hifFatal_shows (s.at_ t) 2⟩⟩,
    fun _ _ _ _ hserves => ⟨_, execInterruptCoalesceExpire_of hserves, rfl⟩, fun _ _ h => execEventDelayReport_shows h,
    fun t idx acc s hserves => ⟨fun hread hdue => ⟨_, execHostReadTimeout_page hserves hread hdue, ?_⟩,
      fun hf hshut hdue => ⟨_, execHostReadTimeout_descriptor hserves hf hshut hdue, rfl⟩,
      fun _ hx hdue hin => ⟨_, execHostReadTimeout_read hserves hx hdue hin, rfl⟩,
      fun _ _ hw hx hin => ⟨_, execHostReadTimeout_write hserves hw hx hin, rfl⟩⟩⟩
  obtain ⟨hfatal, hcode, -⟩ := State.hifFatal_shows ((s.at_ t).modHif fun h => { h with dbReading := false, dbAgain := false }) 1
  have hpolling := State.hifFatal_polling ((s.at_ t).modHif fun h => { h with dbReading := false, dbAgain := false }) 1
  generalize ((s.at_ t).modHif fun h => { h with dbReading := false, dbAgain := false }).hifFatal 1 = u at hfatal hcode hpolling
  simp only [HifState.polling, State.modHif_hif, Prod.mk.injEq] at hpolling
  obtain ⟨hread, -⟩ := hpolling
  exact ⟨hfatal, hcode, hread⟩

end Sys2Proof.Machine
end

section
/-! Records that reach the hub, and their placing, claiming, programming and release (R292, R294, R295, R305, R306, R472, R494). -/

namespace Sys2Proof.Machine

/-! ### What a hub that takes records does with the events of a die (R494) -/

theorem State.hubTakes_of_kept {s u : State} (h : s.kept = u.kept) (k : Nat) : s.hubTakes k = u.hubTakes k := by
  have hpart : s.part.still = u.part.still := congrArg Kept.part h
  have hsame := congrArg (fun p : PartState => ({ s with part := p } : State).hubTakes k) hpart
  exact hsame

/-- A hub that takes what a die sends places its event, when no earlier one is held back. -/
theorem State.dieEventFull_taken {s : State} {k : Nat} {d : Die} (hd : s.die? k = some d) (hfree : d.t0Events = []) (htakes : s.hubTakes k = true)
    (e : Ev) (t : Nat) (full : List Byte) : (s.dieEventFull k e t full).kept = s.kept := by
  have hgoes : (s.hubTakes k && ((s.die? k).map fun d => d.t0Events.isEmpty).getD true) = true := by simp [htakes, hd, hfree]
  exact (congrArg State.kept (if_pos hgoes)).trans (State.eventAt_kept ..)

theorem foldl_kept_of {α : Type} {F : State → α → State} {x : Kept} (hF : ∀ s a, s.kept = x → (F s a).kept = x) (l : List α) {s : State}
    (h : s.kept = x) : (l.foldl F s).kept = x := by
  induction l generalizing s with
  | nil => exact h
  | cons a l ih => exact ih (hF s a h)

/-- What a die held is placed, where the die holds back no event any more. -/
theorem State.resend_kept {s : State} {k : Nat} {d y : Die} (hy : s.die? k = some y) (hfree : y.t0Events = []) (htakes : s.hubTakes k = true) :
    (s.resend k d).kept = s.kept := by
  have told (u : State) (x : Nat × List Nat × List Byte) (hu : u.kept = s.kept) (e : Ev) (t : Nat) : (u.dieEventFull k e t x.2.2).kept = s.kept :=
    (State.dieEventFull_taken ((State.die?_congr (Kept.dies_eq hu) k).trans hy) hfree ((State.hubTakes_of_kept hu k).trans htakes) e t x.2.2).trans hu
  refine foldl_kept_of (fun u n hu => ?_) _ rfl
  dsimp only
  split
  · exact (State.place_kept ..).trans (foldl_kept_of (fun u x hu => told u x hu _ _) _ hu)
  · exact foldl_kept_of (fun u x hu => told u x hu _ _) _ hu

/-- A die that holds nothing for its hub. -/
def Die.emptied (d : Die) : Die := { d with t0 := [], t0Drop := 0, t0Events := [], t0Retry := false }

/-! ### Records and frames that arrive -/

section
variable {t k : Nat} {d : Die} {s : State}

/-- What the hub makes of the oldest record of a die. -/
theorem execRecordArrive_of {intact : Bool} {x : Nat × Nat × List Byte} {rest : List (Nat × Nat × List Byte)} (hd : s.hasDie k d)
    (hrec : d.t0 = x :: rest) (hfree : d.t0Events = []) (htakes : s.hubTakes k = true) :
    exec (.recordArrive t k intact) s = .next (
      if intact = true then ((s.at_ t).modDie k fun d => { d with t0 := rest, t0Retry := false }).place x.1 k x.2.1 x.2.2
      else if (!d.t0Retry) = true then ((s.at_ t).modDie k fun d => { d with t0Retry := true }).checkRejected
      else ((s.at_ t).modDie k fun d => { d with t0 := rest, t0Retry := false }).dropRec (classOf x.1) x.1 k) := by
  obtain ⟨hfit, hdie⟩ := hd
  have hguard : ¬(!(s.at_ t).hubTakes k || !d.t0Events.isEmpty) = true := by simp [htakes, hfree]
  refine congrArg Host.Outcome.next ((State.onDie_of (s := s.at_ t) hfit hdie).trans ?_)
  rw [hrec]
  exact if_neg hguard

theorem execRecordArrive_shows {intact : Bool} {x : Nat × Nat × List Byte} {rest : List (Nat × Nat × List Byte)} (hd : s.hasDie k d)
    (hrec : d.t0 = x :: rest) (hfree : d.t0Events = []) (htakes : s.hubTakes k = true) :
    Runs (.recordArrive t k intact) s fun s' =>
      s'.dieShows k (fun y => (y.t0, y.t0Retry)) (if intact = true ∨ d.t0Retry = true then (rest, false) else (d.t0, true)) := by
  have hk : k ≠ 0 := State.fitted_pos hd.1
  have hgone := State.shows_modDie (s := s.at_ t) (g := fun d => { d with t0 := rest, t0Retry := false }) (f := fun y => (y.t0, y.t0Retry)) hk hd.2 rfl
  refine Runs.of (execRecordArrive_of hd hrec hfree htakes) ?_
  by_cases hi : intact = true
  · rw [if_pos hi, if_pos (Or.inl hi)]
    exact State.shows_congr (Kept.dies_eq (State.place_kept ..)) hgone
  · rw [if_neg hi]
    by_cases hr : d.t0Retry = true
    · rw [if_neg (by rw [hr]; decide), if_pos (Or.inr hr)]
      exact State.shows_congr (Kept.dies_eq (State.dropRec_kept ..)) hgone
    · rw [if_pos (by rwa [Bool.not_eq_true', ← Bool.not_eq_true]), if_neg (not_or.2 ⟨hi, hr⟩)]
      exact State.shows_congr (s := (s.at_ t).modDie k _) rfl (State.shows_modDie (s := s.at_ t) hk hd.2 rfl)

theorem execDieRecordResend_of (hd : s.hasDie k d) (htakes : s.hubTakes k = true) (hon : d.precOn = true) :
    Runs (.dieRecordResend t k) s fun s' => s'.dieShows k (fun y => (y.t0, y.t0Drop, y.t0Events)) ([], 0, []) := by
  have hk : k ≠ 0 := State.fitted_pos hd.1
  have hguard : ¬(!(s.at_ t).hubTakes k || !d.precOn) = true := by simp [htakes, hon]
  refine Runs.of (congrArg Host.Outcome.next ((State.onDie_of (s := s.at_ t) hd.1 hd.2).trans (if_neg hguard))) ?_
  have hempty := State.shows_modDie (s := s.at_ t) (g := Die.emptied) (f := fun y => (y.t0, y.t0Drop, y.t0Events)) hk hd.2 rfl
  have hy : ((s.at_ t).modDie k Die.emptied).die? k = some d.emptied :=
    (State.die?_modDie_same (s := s.at_ t) _ hk).trans (congrArg (Option.map _) hd.2)
  have htakes' : ((s.at_ t).modDie k Die.emptied).hubTakes k = true := by
    unfold State.modDie
    rwa [if_neg hk]
  have hsent := Kept.dies_eq (State.resend_kept (d := d) hy rfl htakes')
  exact State.shows_congr (view_ite State.dies hsent ((State.placement_dies ..).trans hsent)) hempty

/-- A whole message of records that a part accepts is told by its first two bytes. -/
theorem execRecordFrameReceive_of {bytes b : List Byte} {f : Frame} {w u : State} (hf : f = frameOf bytes) (hacc : (s.at_ t).accept f = (.deliver, w))
    (htc : f.tc = 2 ∨ f.tc = 3) (hb : w.assemble f = (some b, u)) :
    exec (.recordFrameReceive t bytes) s = .next (
      if rd b 0 2 = 0xFFFF then u.takeSpill (rd b 2 8) (b.drop 10)
      else if rd b 0 2 = 0xFFFE then u.answerHolder f.origin (rd b 2 8) (rd b 10 2) (rd b 12 1)
      else if rd b 0 2 = 0xFFFD then u.takeHeld f.origin b
      else if (u.isGateway && rd b 0 2 == 0x0D01) = true then
        u.blackBox 0x20 false (slice b 256 8 ++ slice b 4 4 ++ slice b 2 1 ++ slice b 24 120)
      else if u.isGateway = true then
        if (u.hif.subs.any fun x => x.selects (u.identOf f.origin) (rd b 0 2) (if rd b 0 2 = 0x0B01 then 0 else rd b 3 1) (rd b 8 8)) = true then
          (u.claimAll f.origin (rd b 0 2) (if rd b 0 2 = 0x0B01 then 0 else rd b 3 1) (rd b 8 8) (classOf (rd b 0 2)) b none).2
        else u.originate 1 0x10 f.origin (le 1 0x08 ++ le 1 0xFF ++ le 2 (rd b 0 2) ++ le 1 (if rd b 0 2 = 0x0B01 then 0 else rd b 3 1) ++ slice b 8 8)
      else u) := by
  subst hf
  have hguard : ¬(Admit.deliver ≠ .deliver ∨ (!((frameOf bytes).tc == 2 || (frameOf bytes).tc == 3)) = true) := by
    rcases htc with h | h <;> simp [h]
  show execRecordFrameReceive t bytes s = _
  unfold execRecordFrameReceive
  dsimp only
  rw [hacc]
  dsimp only
  rw [if_neg hguard, hb]

theorem State.takeSpill_of {u : State} {owner : Nat} {x : List Byte} {r : Tier × State} (huse : u.t3Usable = true)
    (hr : ((u.ownerRoom owner (x.drop 12).length (u.locus.recs.length + 1)).bind fun v => v.tierFor 2 (x.drop 12).length) = some r) :
    ∃ y : Rec, y.owner = owner ∧ y.bytes = x.drop 12 ∧ y.cls = rd x 0 1 ∧ y.recType = rd x 1 2 ∧ y.src = rd x 3 1 ∧ y.time = rd x 4 8 ∧
      u.takeSpill owner x = ({ r.2 with locus := { r.2.locus with recs := r.2.locus.recs ++ [y], nextId := r.2.locus.nextId + 1 } }).writer := by
  refine ⟨{ id := r.2.locus.nextId, cls := rd x 0 1, recType := rd x 1 2, src := rd x 3 1, owner := owner, time := rd x 4 8, arrived := u.now,
            bytes := x.drop 12, tier := .buffer, blocks := [], copies := 0, inUnit := false, claims := [], delivered := false },
    rfl, rfl, rfl, rfl, rfl, rfl, ?_⟩
  unfold State.takeSpill
  dsimp only
  rw [if_neg (by rw [huse]; decide), hr]

end

/-! ### Units -/

section
variable {t : Nat} {u : OpenUnit} {s : State}

theorem execUnitProgramComplete_of {group : Nat} {ok : Bool} {rest : List OpenUnit} (hq : s.locus.progQ = u :: rest) (hg : u.group = group)
    (hgo : s.locus.busy.isSome = true ∨ s.writable = true) :
    exec (.unitProgramComplete t group ok) s = .next ((s.at_ t).programHead ok) := by
  have hsame : (s.at_ t).writable = s.writable := rfl
  have hguard : ¬(decide (u.group ≠ group) || (s.locus.busy.isNone && !(s.at_ t).writable)) = true := by
    rcases hgo with h | h
    · simp [hg, Option.ne_none_iff_isSome.2 h]
    · simp [hg, hsame, h]
  show execUnitProgramComplete t group ok s = _
  unfold execUnitProgramComplete
  dsimp only
  rw [show (s.at_ t).locus.progQ = u :: rest from hq]
  exact congrArg Host.Outcome.next (if_neg hguard)

theorem execD2UnitClose_of (hu : s.locus.units.find? (fun u => u.group == 1) = some u) (ht : u.firstAt + 10000000000 ≤ t) (hw : s.writable = true) :
    exec (.d2UnitClose t) s = .next { (s.at_ t) with locus := s.locus.closeUnit 1 } := by
  show execD2UnitClose t s = _
  unfold execD2UnitClose
  dsimp only
  rw [show (s.at_ t).locus.units.find? (fun u => u.group == 1) = some u from hu]
  exact congrArg Host.Outcome.next (if_pos ⟨ht, hw⟩)

end

/-- Settles O32: one lemma for each command; placing, dropping and events leave the dies, so that the die shows what the command
itself made of it. -/
theorem recordCommandsComplete : Obligations.RecordCommandsComplete := by
  refine ⟨fun t k intact d x rest s hd hrec hfree htakes => ⟨fun hi => ?_, execRecordArrive_shows hd hrec hfree htakes⟩,
    fun t k d s hd htakes hon => execDieRecordResend_of hd htakes hon,
    fun t bytes b f s w u hf hacc htc hb => ⟨fun src hty hg hsrc hany => ?_, fun x r hty huse hx hr => ?_⟩,
    fun t s => ⟨_, rfl, rfl⟩,
    fun t group ok u rest s hq hg hgo => ⟨_, execUnitProgramComplete_of hq hg hgo, rfl⟩,
    fun t u s hu ht hw => ⟨_, execD2UnitClose_of hu ht hw, rfl⟩⟩
  · exact Runs.of (execRecordArrive_of hd hrec hfree htakes) (if_pos hi)
  · subst hsrc
    simp only [List.mem_cons, List.not_mem_nil, or_false, not_or] at hty
    obtain ⟨hspill, hread, hanswer, hlife⟩ := hty
    refine Runs.of (execRecordFrameReceive_of hf hacc htc hb) ?_
    rw [if_neg hspill, if_neg hread, if_neg hanswer, if_neg (by simp [hlife]), if_pos hg, if_pos hany]
  · subst hx
    refine Runs.of (execRecordFrameReceive_of hf hacc htc hb) ?_
    rw [if_pos hty]
    exact State.takeSpill_of huse hr

end Sys2Proof.Machine
end

section
/-! The storage die: its temperature, refresh and failure, the holder of what the part spills, and where tasks run (R300 to R305, R307 to
R309, R316). -/

namespace Sys2Proof.Machine

/-! ### What records, units and copies leave of Locus (R293 to R295, R298 to R301) -/

/-- The temperature and the cold hold, the count of refreshes, T3_FAIL and the holder: what records and units leave alone. -/
structure StoreMarks where
  temp : Int
  tempAt : Nat
  cold : Bool
  refreshed : Nat
  t3Fail : Bool
  holder : Option Nat

def LocusState.marks (l : LocusState) : StoreMarks :=
  { temp := l.temp, tempAt := l.tempAt, cold := l.cold, refreshed := l.refreshed, t3Fail := l.t3Fail, holder := l.holder }

def State.storeMarks (s : State) : StoreMarks := s.locus.marks

theorem State.storeMarks_of_locus {s u : State} (h : s.locus = u.locus) : s.storeMarks = u.storeMarks := congrArg LocusState.marks h

theorem State.t3Fail_of_storeMarks {s u : State} (h : s.storeMarks = u.storeMarks) : s.locus.t3Fail = u.locus.t3Fail := congrArg StoreMarks.t3Fail h

theorem State.holder_of_storeMarks {s u : State} (h : s.storeMarks = u.storeMarks) : s.locus.holder = u.locus.holder := congrArg StoreMarks.holder h

theorem LocusState.closeUnit_marks (l : LocusState) (g : Nat) : (l.closeUnit g).marks = l.marks := by
  unfold LocusState.closeUnit
  split <;> rfl

theorem LocusState.pour_marks (l : LocusState) (g id now fuel n : Nat) : (l.pour g id now fuel n).marks = l.marks := by
  induction fuel generalizing l n with
  | zero => rfl
  | succ fuel ih =>
    unfold LocusState.pour
    dsimp only
    split
    · rfl
    · split
      · exact (LocusState.closeUnit_marks ..).trans rfl
      · exact (ih ..).trans ((LocusState.closeUnit_marks ..).trans rfl)

theorem LocusState.append_marks (l : LocusState) (r : Rec) (now : Nat) : (l.append r now).marks = l.marks := by
  have hpoured (ids : Rec → Rec) (m : LocusState) : ({ m with recs := m.recs.map ids } : LocusState).marks = m.marks := rfl
  unfold LocusState.append
  dsimp only
  split
  · exact (LocusState.closeUnit_marks ..).trans ((hpoured ..).trans (LocusState.pour_marks ..))
  · exact (hpoured ..).trans (LocusState.pour_marks ..)

theorem State.makeWay_storeMarks (s : State) (n fuel : Nat) : (s.makeWay n fuel).2.storeMarks = s.storeMarks := by
  induction fuel generalizing s with
  | zero => rfl
  | succ fuel ih =>
    unfold State.makeWay
    split
    · rfl
    · split
      · exact (ih _).trans rfl
      · split
        · exact (ih _).trans rfl
        · rfl

theorem State.reclaim_storeMarks {s u : State} {n : Nat} (h : s.reclaim n = some u) : u.storeMarks = s.storeMarks := by
  induction n generalizing s with
  | zero => cases h
  | succ n ih =>
    unfold State.reclaim at h
    split at h
    · cases h
      rfl
    · split at h
      · cases h
      · exact (ih h).trans rfl

theorem State.targetBlock_storeMarks {s : State} {but : List Nat} {spare : Bool} {r : Blk × State} (h : s.targetBlock but spare = some r) :
    r.2.storeMarks = s.storeMarks := by
  unfold State.targetBlock at h
  split at h
  · cases h
    rfl
  · split at h
    · cases h
      rfl
    · obtain ⟨u, hu, h⟩ := Option.bind_eq_some_iff.1 h
      obtain ⟨b, _, rfl⟩ := Option.map_eq_some_iff.1 h
      exact State.reclaim_storeMarks hu

theorem State.startUnit_storeMarks (s : State) (admitted : Bool) : (s.startUnit admitted).storeMarks = s.storeMarks := by
  unfold State.startUnit
  split
  · split
    · rfl
    · dsimp only
      split
      · rfl
      · next r h => exact (show State.storeMarks { r.2 with locus := _ } = r.2.storeMarks from rfl).trans (State.targetBlock_storeMarks h)
  · rfl

theorem State.writer_storeMarks (s : State) : s.writer.storeMarks = s.storeMarks := by
  have hfilled (l : List Rec) (m : LocusState) : (l.foldl (fun l r => l.append r s.now) m).marks = m.marks := by
    induction l generalizing m with
    | nil => rfl
    | cons r l ih => exact (ih _).trans (LocusState.append_marks ..)
  have hclosed (c : Prop) [Decidable c] (m : LocusState) : (if c then m.closeUnit 0 else m).marks = m.marks := by
    split
    · exact LocusState.closeUnit_marks ..
    · rfl
  exact view_ite State.storeMarks rfl ((State.startUnit_storeMarks ..).trans ((hclosed ..).trans (hfilled ..)))

/-! ### Claims, records and events -/

theorem State.unclaim_storeMarks (s : State) (w : StrWait) : (s.unclaim w).storeMarks = s.storeMarks := by
  unfold State.unclaim
  split
  · exact State.storeMarks_of_locus (State.originate_locus ..)
  · rfl

theorem State.queueClaim_storeMarks (s : State) (w : StrWait) : (s.queueClaim w).2.storeMarks = s.storeMarks := by
  have freed (l : List StrWait) (h : HifState) : (l.foldl (fun (s : State) x => s.unclaim x) { s with hif := h }).storeMarks = s.storeMarks :=
    (view_foldl State.storeMarks (fun _ _ => State.unclaim_storeMarks ..) l _).trans rfl
  have counted (u : State) (n : Nat) : (u.countDrop n).storeMarks = u.storeMarks := rfl
  unfold State.queueClaim
  dsimp only
  split
  · exact freed ..
  · exact (counted ..).trans (view_ite State.storeMarks ((State.unclaim_storeMarks ..).trans (freed ..)) (freed ..))

theorem State.claimAll_storeMarks (s : State) (pos recType src time cls : Nat) (bytes : List Byte) (ref : Option Nat) :
    (s.claimAll pos recType src time cls bytes ref).2.storeMarks = s.storeMarks := by
  refine (view_foldl_snd State.storeMarks (fun acc x => ?_) _ _).trans rfl
  dsimp only
  split
  · split
    · exact (State.queueClaim_storeMarks ..).trans rfl
    · rfl
  · rfl

theorem State.sendClaims_storeMarks (s : State) (recType src time : Nat) (bytes : List Byte) :
    (s.sendClaims recType src time bytes).2.storeMarks = s.storeMarks := by
  have counted (l : List Sub) : (l.foldl (fun s x => s.countSub x.sub x.next.2.count) s).storeMarks = s.storeMarks :=
    view_foldl State.storeMarks (f := fun s (x : Sub) => s.countSub x.sub x.next.2.count) (fun _ _ => rfl) l s
  refine view_ite State.storeMarks (counted _) (view_ite State.storeMarks ?_ ?_)
  all_goals exact (State.storeMarks_of_locus (State.originate_locus ..)).trans (counted _)

theorem State.claimNew_storeMarks (s : State) (id recType src time cls : Nat) (bytes : List Byte) :
    (s.claimNew id recType src time cls bytes).storeMarks = s.storeMarks := by
  have claimed (c : Bool) : (if c then s.claimAll s.pos recType src time cls bytes (some id) else s.sendClaims recType src time bytes).2.storeMarks =
      s.storeMarks := by
    cases c
    · exact State.sendClaims_storeMarks ..
    · exact State.claimAll_storeMarks ..
  exact claimed s.hosted

theorem State.stageD0_storeMarks (s : State) (recType src time : Nat) (bytes : List Byte) :
    (s.stageD0 recType src time bytes).storeMarks = s.storeMarks :=
  view_ite State.storeMarks ((State.claimNew_storeMarks ..).trans (State.makeWay_storeMarks ..)) (State.makeWay_storeMarks ..)

theorem State.eventAt_storeMarks (s : State) (e : Ev) (t : Nat) (full : Option (Nat × List Byte)) : (s.eventAt e t full).storeMarks = s.storeMarks := by
  have told (u : State) (w : EvWait) (b : List Byte) : (if u.hosted then { u with hif := { u.hif with eqWait := u.hif.eqWait ++ [w] } }
      else u.originate 1 0x12 0 b).storeMarks = u.storeMarks :=
    view_ite State.storeMarks rfl (State.storeMarks_of_locus (State.originate_locus ..))
  exact (State.writer_storeMarks _).trans ((told ..).trans (State.stageD0_storeMarks s _ 0 t _))

theorem State.placement_storeMarks (s : State) (kind island task reason : Nat) (value : Int) (stream arg16 : Nat) :
    (s.placement kind island task reason value stream arg16).storeMarks = s.storeMarks := State.eventAt_storeMarks ..

/-! ### Copies of blocks (R298 to R301) -/

theorem State.takeUnits_storeMarks {s : State} {but : List Nat} {n : Nat} {r : List Nat × State} (h : s.takeUnits but n = some r) :
    r.2.storeMarks = s.storeMarks := by
  induction n generalizing s r with
  | zero =>
    cases h
    rfl
  | succ n ih =>
    unfold State.takeUnits at h
    obtain ⟨b, hb, h⟩ := Option.bind_eq_some_iff.1 h
    obtain ⟨x, hx, rfl⟩ := Option.map_eq_some_iff.1 h
    exact (ih hx).trans (State.targetBlock_storeMarks hb)

/-- A reading through a loop that may end without a state. -/
theorem view_foldl_bind {α β : Type} (g : State → β) {f : State → α → Option State} (hf : ∀ s a u, f s a = some u → g u = g s) (l : List α)
    {s u : State} (h : l.foldl (fun o a => o.bind fun s => f s a) (some s) = some u) : g u = g s := by
  have ended (l : List α) : l.foldl (fun o a => o.bind fun s => f s a) none = none := by
    induction l with
    | nil => rfl
    | cons a l ih => exact ih
  induction l generalizing s with
  | nil => exact (congrArg g (Option.some.inj h)).symm
  | cons a l ih =>
    rw [List.foldl_cons, Option.bind_some] at h
    cases hv : f s a with
    | none => rw [hv, ended] at h; cases h
    | some v => rw [hv] at h; exact (ih h).trans (hf s a v hv)

theorem State.copyBlock_storeMarks {s u : State} {i : Nat} (h : s.copyBlock i = some u) : u.storeMarks = s.storeMarks := by
  refine view_foldl_bind State.storeMarks (fun s rs u hu => ?_) _ h
  obtain ⟨x, hx, rfl⟩ := Option.map_eq_some_iff.1 hu
  exact (State.takeUnits_storeMarks hx)

theorem State.moveRetired_storeMarks (s : State) : s.moveRetired.storeMarks = s.storeMarks := by
  refine view_foldl State.storeMarks (fun u b => view_ite State.storeMarks rfl ?_) _ s
  cases h : u.copyBlock b.idx with
  | none => rfl
  | some v => exact State.copyBlock_storeMarks h

theorem State.levelWear_storeMarks (s : State) : s.levelWear.storeMarks = s.storeMarks := by
  unfold State.levelWear
  dsimp only
  split
  · rfl
  · split
    · rfl
    · split
      · rfl
      · next v h =>
        have herased (i : Nat) : ({ v with locus := v.locus.erase i } : State).storeMarks = v.storeMarks := rfl
        exact (herased _).trans (State.copyBlock_storeMarks h)

theorem State.bucketFlag_storeMarks (s : State) : s.bucketFlag.storeMarks = s.storeMarks :=
  view_ite State.storeMarks ((State.placement_storeMarks ..).trans rfl) (view_ite State.storeMarks ((State.placement_storeMarks ..).trans rfl) rfl)

/-! ### The bucket and the temperature (R300 to R303) -/

section
variable {t : Nat} {s : State}

/-- A part with a storage die that is not in OFF. -/
theorem State.storeRuns (hstore : s.part.store = true) (hst : s.power.st ≠ 4) : ¬(!(s.at_ t).part.store || (s.at_ t).power.st == 4) = true := by
  simp [hstore, hst]

theorem execBucketAccrue_of {u v : State} (hstore : s.part.store = true) (hst : s.power.st ≠ 4) (ht : t % 1000000000 = 0)
    (hu : u = { s.at_ t with locus := { s.locus with bucket := min bucketCap (s.locus.bucket + 509259),
                                                     credit := if s.locus.bucket ≤ 0 then s.locus.credit + 509259 else 0 } })
    (hv : v = u.bucketFlag.moveRetired) : exec (.bucketAccrue t) s = .next (v.startUnit v.admitsUnit) := by
  subst hv hu
  have hguard : ¬(!(s.at_ t).part.store || (s.at_ t).power.st == 4 || t % 1000000000 != 0) = true := by simp [hstore, hst, ht]
  exact congrArg Host.Outcome.next (if_neg hguard)

/-- The cold hold after a temperature (R302). -/
def State.judgeCold (s : State) (temp : Int) : State :=
  if (!s.locus.cold && decide (temp < -4000)) = true then
    ({ s with locus := { s.locus with cold := true } }).placement 0x10 0 0 0 temp 0 0
  else if (s.locus.cold && decide (-3800 ≤ temp)) = true then
    (({ s with locus := { s.locus with cold := false } }).placement 0x11 0 0 0
      (s.locus.stageD1 + s.locus.fill .buffer + s.locus.fill .capture : Nat) 0 0).moveRetired.writer
  else s

theorem State.judgeCold_storeMarks (s : State) (temp : Int) :
    (s.judgeCold temp).storeMarks =
      { s.storeMarks with cold := if s.locus.cold = true then decide (temp < -3800) else decide (temp < -4000) } := by
  have hheld (c : Bool) (h : s.locus.cold = c) : s.storeMarks = { s.storeMarks with cold := c } := by
    subst h
    rfl
  unfold State.judgeCold
  by_cases hc : s.locus.cold = true
  · rw [if_neg (by simp [hc]), if_pos hc]
    by_cases hw : -3800 ≤ temp
    · rw [if_pos (by simp [hc, hw]), decide_eq_false (by omega)]
      exact (State.writer_storeMarks _).trans ((State.moveRetired_storeMarks _).trans ((State.placement_storeMarks ..).trans rfl))
    · rw [if_neg (by simp [hw]), decide_eq_true (by omega)]
      exact hheld true hc
  · rw [if_neg hc]
    by_cases hw : temp < -4000
    · rw [if_pos (by simp [hc, hw]), decide_eq_true hw]
      exact (State.placement_storeMarks ..).trans rfl
    · rw [if_neg (by simp [hw]), if_neg (by simp [hc]), decide_eq_false hw]
      exact hheld false (Bool.not_eq_true _ ▸ hc)

theorem execStorageTempSample_of {temp : Int} (hstore : s.part.store = true) (hst : s.power.st ≠ 4) :
    ∃ u : State, u.storeMarks = { s.storeMarks with temp := temp, tempAt := t } ∧ exec (.storageTempSample t temp) s = .next (u.judgeCold temp) := by
  refine ⟨_, ?_, congrArg Host.Outcome.next (if_neg (State.storeRuns hstore hst))⟩
  exact (view_foldl State.storeMarks (fun _ _ => State.placement_storeMarks ..) _ _).trans rfl

/-! ### Refresh, the failed die and the holder (R303 to R305) -/

section
variable {block : Nat} {read : BlockRead} {r : State}

/-- The block may be refreshed now: it is the oldest, or a read has corrected many bits, and the bucket allows the copy (R303). -/
def State.mayRefresh (s : State) (block : Nat) (read : BlockRead) : Prop :=
  s.part.store = true ∧ s.locus.t3Fail = false ∧ s.locus.cold = false ∧ s.inRun = true ∧
    (s.locus.blk block).retired = false ∧ s.locus.busy ≠ some block ∧
    ((8760 ≤ (s.locus.blk block).age ∧
      s.locus.blocks.all (fun x => x.retired || x.used == 0 || decide (x.age ≤ (s.locus.blk block).age)) = true) ∨ 24 < read.corrected) ∧
    -1073741824 ≤ s.locus.bucket - s.locus.copyCost block

theorem execBlockRefresh_of (hmay : s.mayRefresh block read) (hr : (s.at_ t).copyBlock block = some r) :
    exec (.blockRefresh t block read) s = .next (
      if (!read.erased) = true then (r.retireBlock block).bucketFlag.writer
      else ({ r with locus := ({ r.locus with refreshed := satInc 16 r.locus.refreshed } : LocusState).erase block }).levelWear.bucketFlag.writer) := by
  obtain ⟨hstore, hfail, hcold, hrun, hret, hbusy, hold, hbucket⟩ := hmay
  have hrun' : (s.at_ t).inRun = true := hrun
  have hdue : ((decide (8760 ≤ (s.locus.blk block).age) &&
      s.locus.blocks.all fun x => x.retired || x.used == 0 || decide (x.age ≤ (s.locus.blk block).age)) || decide (24 < read.corrected)) = true := by
    rw [Bool.or_eq_true, Bool.and_eq_true, decide_eq_true_eq, decide_eq_true_eq]
    exact hold
  have hguard : ¬(!(s.at_ t).part.store || (s.at_ t).locus.t3Fail || (s.at_ t).locus.cold || !(s.at_ t).inRun ||
      ((s.at_ t).locus.blk block).retired || (s.at_ t).locus.busy == some block ||
      !((decide (8760 ≤ ((s.at_ t).locus.blk block).age) &&
        (s.at_ t).locus.blocks.all fun x => x.retired || x.used == 0 || decide (x.age ≤ ((s.at_ t).locus.blk block).age)) || decide (24 < read.corrected)) ||
      decide ((s.at_ t).locus.bucket - (s.at_ t).locus.copyCost block < -1073741824)) = true := by
    rw [hrun', show (s.at_ t).locus = s.locus from rfl, hdue, show (s.at_ t).part = s.part from rfl, hstore, hfail, hcold, hret,
      beq_false_of_ne hbusy, decide_eq_false (Int.not_lt.2 hbucket)]
    decide
  show execBlockRefresh t block read s = _
  unfold execBlockRefresh
  dsimp only
  rw [if_neg hguard, hr]

theorem State.refreshed_storeMarks (r : State) (block n : Nat) :
    ({ r with locus := ({ r.locus with refreshed := n } : LocusState).erase block } : State).levelWear.bucketFlag.writer.storeMarks =
      { r.storeMarks with refreshed := n } :=
  (State.writer_storeMarks _).trans ((State.bucketFlag_storeMarks _).trans ((State.levelWear_storeMarks _).trans rfl))

end

theorem State.failStore_t3Fail (hstore : s.part.store = true) (hfail : s.locus.t3Fail = false) : s.failStore.locus.t3Fail = true := by
  have hguard : ¬(!s.part.store || s.locus.t3Fail) = true := by simp [hstore, hfail]
  have hplaced (u : State) : (u.placement 0x18 0 0 0 0 0 0).writer.locus.t3Fail = u.locus.t3Fail :=
    State.t3Fail_of_storeMarks ((State.writer_storeMarks _).trans (State.placement_storeMarks ..))
  unfold State.failStore
  rw [if_neg hguard, hplaced]

/-- The part with the holder that it has chosen, or with none (R305). -/
def State.takeHolder (s : State) (best : Option (Nat × Nat)) : State :=
  match best with
  | some b => (({ s with locus := { s.locus with holder := some b.1, refusals := 0 } }).placement 0x19 0 0 0 b.1 0 0).writer
  | none =>
    if s.locus.holder.isSome then ({ s with locus := { s.locus with holder := none, refusals := 0 } }).placement 0x1A 0 0 0 0 0 0
    else s

theorem State.takeHolder_holder (s : State) (best : Option (Nat × Nat)) : (s.takeHolder best).locus.holder = best.map (·.1) := by
  have hplaced (u : State) (kind : Nat) (value : Int) : (u.placement kind 0 0 0 value 0 0).locus.holder = u.locus.holder :=
    State.holder_of_storeMarks (State.placement_storeMarks ..)
  have hwritten (u : State) : u.writer.locus.holder = u.locus.holder := State.holder_of_storeMarks (State.writer_storeMarks _)
  unfold State.takeHolder
  cases best with
  | some b =>
    dsimp only
    rw [hwritten, hplaced]
    rfl
  | none =>
    dsimp only
    split
    · rw [hplaced]
      rfl
    · next hnone => exact Option.not_isSome_iff_eq_none.1 hnone

theorem execSpillHolderRechoose_of {candidates : List Nat} (hspills : s.spills = true) (hrun : s.inRunDoze = true) (hcut : (s.at_ t).holderCut = true) :
    exec (.spillHolderRechoose t candidates) s = .next (({ s.at_ t with locus := { s.locus with holderDue := false, cutAt := none } } : State).takeHolder
      (s.nearestHolder candidates)) := by
  have hguard : ¬(!(s.at_ t).spills || !(s.at_ t).holderCut || !(s.at_ t).inRunDoze) = true := by
    rw [show (s.at_ t).spills = true from hspills, show (s.at_ t).inRunDoze = true from hrun, hcut]
    decide
  have hsame : State.nearestHolder { s.at_ t with locus := { s.locus with holderDue := false, cutAt := none } } candidates = s.nearestHolder candidates := rfl
  rw [← hsame]
  exact congrArg Host.Outcome.next (if_neg hguard)

/-! ### Where tasks run (R307 to R309, R316) -/

/-- A change of every die of a list reaches each of them once. -/
theorem foldl_modDie_die? {f : Nat → Die → Die} {k : Nat} (hk : k ≠ 0) {l : List Nat} (hl : l.Nodup) (u : State) :
    (l.foldl (fun u k => u.modDie k (f k)) u).die? k = if k ∈ l then (u.die? k).map (f k) else u.die? k := by
  induction l generalizing u with
  | nil => rfl
  | cons j l ih =>
    obtain ⟨hj, hl⟩ := List.nodup_cons.1 hl
    rw [List.foldl_cons, ih hl]
    by_cases hkj : k = j
    · subst hkj
      rw [if_neg hj, if_pos (List.mem_cons_self ..), State.die?_modDie_same _ hk]
    · simp only [List.mem_cons, hkj, false_or]
      rw [State.die?_modDie_other _ hkj]

theorem State.die?_modDies {f : Nat → Die → Die} {k : Nat} (hk : s.fitted k = true) : (s.modDies f).die? k = (s.die? k).map (f k) := by
  have hbounds : 1 ≤ k ∧ k ≤ s.part.cellDies := by simpa [State.fitted] using hk
  have hmem : k ∈ s.islands := List.mem_map.2 ⟨k - 1, List.mem_range.2 (by omega), by omega⟩
  have hnodup : s.islands.Nodup := List.nodup_range.map fun _ _ h => by simpa using h
  exact (foldl_modDie_die? (State.fitted_pos hk) hnodup s).trans (if_pos hmem)

section
variable {load : List Rat} {cluster : Rat} {w : State}

/-- A die whose tasks on the hub are to return, and whose impedance task is not suspended (R316). -/
def Die.recalled (load : List Rat) (k : Nat) (d : Die) : Die :=
  { d with movePend := ([1, 2].filter fun task => d.onHub task).map fun x => (x, 0, (load.getD (k - 1) 0 * 100).floor),
           imp := { d.imp with suspended := false } }

theorem execLocusEvaluate_of (ht : t % 1000000000 = 0) (hrun : s.inRunDoze = true) (hserve : s.part.serving = true) (hheld : s.part.hubHeld = false)
    (hw : w = (s.at_ t).adoptLocus) :
    exec (.locusEvaluate t load cluster) s = .next (
      if w.fB 0x13 0 0 2 = true then w.islands.foldl (fun (u : State) k => u.evaluateDie k (load.getD (k - 1) 0) cluster) w
      else (w.islands.filter fun k => ((w.die? k).map fun d => d.imp.suspended).getD false).foldl
        (fun u k => u.placement 0x04 k 1 0 0 0 0) (w.modDies (Die.recalled load))) := by
  subst hw
  have hguard : ¬(decide (t % 1000000000 ≠ 0) || !(s.at_ t).inRunDoze || !(s.at_ t).part.serving || (s.at_ t).part.hubHeld) = true := by
    rw [show (s.at_ t).inRunDoze = true from hrun, show (s.at_ t).part = s.part from rfl, hserve, hheld, ht]
    decide
  exact congrArg Host.Outcome.next (if_neg hguard)

/-- A die after a task has moved, to the hub or back, with the loads measured of it (R308, R309). -/
def Die.moveTask (t task : Nat) (toHub : Bool) (load : List Rat) (d : Die) : Die :=
  let d := { d with movePend := d.movePend.filter (fun y => y.1 != task), movedAt := setNth (task - 1) t d.movedAt,
                    costs := if toHub then setNth (task - 1) (some (load.getD 0 0, load.getD 1 0)) d.costs else d.costs }
  if task = 1 then { d with imp := { d.imp with onHub := toHub, moved := true } }
  else { d with est := { d.est with onHub := toHub, moved := true } }

theorem Die.moveTask_onHub {task : Nat} (htask : task = 1 ∨ task = 2) (t : Nat) (toHub : Bool) (load : List Rat) (d : Die) :
    (d.moveTask t task toHub load).onHub task = toHub := by
  rcases htask with rfl | rfl <;> rfl

/-- The part with a task of die k moved, to the hub or back (R309). -/
def State.moveTask (s : State) (t k task : Nat) (toHub : Bool) : State :=
  (if toHub then (s.drawRats 2).2 else s).modDie k (Die.moveTask t task toHub (s.drawRats 2).1)

theorem State.moveTask_shows {k task : Nat} {d : Die} (u : State) (t : Nat) (toHub : Bool) (hk : k ≠ 0) (hd : u.die? k = some d)
    (htask : task = 1 ∨ task = 2) : (u.moveTask t k task toHub).dieShows k (fun y => y.onHub task) toHub := by
  refine State.shows_modDie hk ((State.die?_congr ?_ k).trans hd) (Die.moveTask_onHub htask ..)
  exact view_ite State.dies (State.drawRats_dies ..) rfl

theorem execTaskMove_of {k task : Nat} {d : Die} {x : Nat × Nat × Int} (hd : s.hasDie k d) (hx : (d.movePend.find? fun y => y.1 == task) = some x)
    (htakes : s.hubTakes k = true) (hb : (s.at_ t).taskBoundary task = true) :
    exec (.taskMove t k task true) s = .next (((s.at_ t).moveTask t k task (!d.onHub task)).placement
      (if (!d.onHub task) = true then 0x01 else 0x02) k task x.2.1 x.2.2 0 0) := by
  have hguard : ¬(!true || !(s.at_ t).hubTakes k || !(s.at_ t).taskBoundary task) = true := by
    rw [hb, show (s.at_ t).hubTakes k = true from htakes]
    decide
  refine congrArg Host.Outcome.next ((State.onDie_of (s := s.at_ t) hd.1 hd.2).trans ?_)
  rw [hx]
  exact if_neg hguard

end

end

/-- Settles O33: one lemma for each command; records, units and copies leave the temperature, the cold hold, the count of refreshes,
T3_FAIL and the holder, and events leave the dies. -/
theorem storageCommandsComplete : Obligations.StorageCommandsComplete := by
  refine ⟨fun t s hstore hst ht u v hu hv => ⟨_, execBucketAccrue_of hstore hst ht hu hv, rfl⟩,
    fun t temp s hstore hst => ?_,
    fun t block read s r hstore hfail hcold hrun hret hbusy hold hbucket hr => ?_,
    fun t s hstore hfail => ⟨_, rfl, State.failStore_t3Fail (s := s.at_ t) hstore hfail⟩,
    fun t candidates s hspills hrun hcut => ⟨_, execSpillHolderRechoose_of hspills hrun hcut, State.takeHolder_holder ..⟩,
    fun t load cluster s w ht hrun hserve hheld hw => ⟨fun hmig => ?_, fun hmig k d hd => ?_⟩,
    fun t k task d s hd htask hpend htakes hb => ?_⟩
  · obtain ⟨u, hu, hexec⟩ := execStorageTempSample_of (t := t) (temp := temp) hstore hst
    have hmarks := State.judgeCold_storeMarks u temp
    rw [hu, show u.locus.cold = s.locus.cold from congrArg StoreMarks.cold hu] at hmarks
    exact ⟨_, hexec, congrArg StoreMarks.temp hmarks, congrArg StoreMarks.tempAt hmarks, congrArg StoreMarks.cold hmarks⟩
  · have hexec := execBlockRefresh_of (t := t) ⟨hstore, hfail, hcold, hrun, hret, hbusy, hold, hbucket⟩ hr
    refine ⟨fun he => Runs.of hexec ?_, fun he => Runs.of hexec ?_⟩
    · rw [if_neg (by rw [he]; decide)]
      exact congrArg StoreMarks.refreshed (State.refreshed_storeMarks r block _)
    · exact if_pos (by rw [he]; rfl)
  · exact Runs.of (execLocusEvaluate_of ht hrun hserve hheld hw) (if_pos hmig)
  · refine Runs.of (execLocusEvaluate_of ht hrun hserve hheld hw) ?_
    rw [if_neg (by rw [hmig]; decide)]
    refine State.shows_congr (view_foldl State.dies (fun _ _ => State.placement_dies ..) _ _) ?_
    exact (congrArg (Option.map _) ((State.die?_modDies hd.1).trans (congrArg (Option.map _) hd.2))).trans rfl
  · obtain ⟨x, hx⟩ := Option.isSome_iff_exists.1 hpend
    refine Runs.of (execTaskMove_of hd hx htakes hb) ?_
    exact State.shows_congr (State.placement_dies ..) (State.moveTask_shows (s.at_ t) t _ (State.fitted_pos hd.1) hd.2 htask)

end Sys2Proof.Machine
end
